-- ==== Sys2Proof/Word.lean ====
section
/-! DEFINITION. The words the block speaks in: 32-bit parameter words, 64-bit queue words, octets,
and the plainest arithmetic on them (R9, R10). -/
namespace Sys2Proof

/-- A 32-bit parameter or result word of an item, and a 32-bit register word (R392, R512). -/
abbrev Word := BitVec 32
/-- An 8-octet word of a queue (R390). -/
abbrev QWord := BitVec 64
/-- One octet of a frame, packet or image (R10). -/
abbrev Octet := BitVec 8

end Sys2Proof
end

