-- ==== Sys2Proof/Syntax.lean ====
section
/-! DEFINITION. The commands the block takes, one constructor for each row of the table (Smiulo commands, happenings at pins, clocks
and links, and register accesses), and the data they carry. -/
namespace Sys2Proof

/-- The queue that carried a command (R390, R391): one of the four command rings, the SPI command queue,
the internal queue of the firmware cores, or that of the Shepherd. -/
inductive Source where
  | ring (n : Fin 4)
  | spi
  | firmware
  | shepherd
  deriving DecidableEq, Repr

/-- A Smiulo command packet (R392), less its OPCODE, which the row of the table gives, and its CHECK, which is
good on every command that reaches the parse checks (a bad one is rewound where it is delivered, R410).
LENGTH is the number of parameter words. -/
structure Cmd where
  src : Source
  tag : Fin 1024
  /-- The target TN, present exactly when TICK_ALIGNED is set. -/
  tn : Option Nat
  noResponse : Bool
  barrier : Bool
  urgent : Bool
  /-- Header bits [27:24], reserved. -/
  reserved : BitVec 4
  issuer : BitVec 8
  words : List Word
  deriving DecidableEq, Repr

/-- SOURCE_KIND and target KIND of a resource (Table 14.5, R421). -/
inductive Kind where
  | device | engine | lineTile | hostLane | port | pack | monConv | dma | hostTile | queue
  deriving DecidableEq, Repr

/-- The line defects in the ordinal order of R457. -/
inductive LineDefect where
  | los | oof | lof | ucf | fmtMm | authFail | deg | tim | srcMm | rxLck | rxTest | rxBdi | rxBauth | rxBsd
  | rxBpack | asymInvalid
  deriving DecidableEq, Repr

/-- The client-port defects in the ordinal order of R457. -/
inductive ClientDefect where
  | cDown | cLos | cLoa | cDeg | cLf | cRf | cMap | cCsf | cNomap
  deriving DecidableEq, Repr

/-- The Pack defects in the ordinal order of R457. -/
inductive PackDefect where
  | packSkew | packMismatch
  deriving DecidableEq, Repr

/-- The power domains of Table 18.1 (R476). -/
inductive Domain where
  | lt (k : Fin 12) | ht (k : Fin 4) | hub | mgmt | io | aux
  deriving DecidableEq, Repr

/-- The watched rails of Table 18.1. -/
inductive Rail where
  | core | sram | conv | hsl | aux | io
  deriving DecidableEq, Repr

/-- The two access paths of the register map besides the firmware cores (R459, R513). -/
inductive Path where
  | pcie | spi | firmware
  deriving DecidableEq, Repr

/-- What the detector sees at a position (R155, Table 5.3): the layout under test, the position in symbols, the hard decisions of the 64
sync symbols of each active stream (I then Q, the first symbol first), powers in 0.1 dBFS, SNR in 0.1 dB, coarse offset in MHz. -/
structure SyncMeas where
  layout : Nat
  position : Nat
  decided : List (BitVec 128)
  rxPower : Int
  syncPower : Int
  snr : Int
  coarseFo : Int
  deriving DecidableEq, Repr

/-- A contender's sync (R162): its measurement, its position offset in symbols, and whether it begins before the
confirming sync. -/
structure Contender where
  meas : SyncMeas
  offset : Int
  first : Bool
  deriving DecidableEq, Repr
/-- What a sync check sees of a frame: the decisions at its sync symbols, and the timing-loop phase at its sync and pilot symbols. -/
structure SyncSeen where
  decided : List (BitVec 128)
  phase : List (Nat × Int)
  deriving DecidableEq, Repr
/-- A search pass that ends: its engine, and the dispersion it scanned. -/
structure PassEnd where
  engine : Fin 48
  cd : Int
  deriving DecidableEq, Repr

/-- The background estimate of front-end correction (R180), in 0.01 ps, 0.01 dB and 0.01°. -/
structure FeEstimate where
  skew : List Int
  gain : List Int
  phase : List Int
  deriving DecidableEq, Repr

/-- A coefficient request of the PMD control function (R275): a preset by number, or one step of a transmit tap, numbered from c(−4). -/
inductive CoefRequest where
  | preset (n : Nat)
  | step (tap : Nat) (up : Bool)
  deriving DecidableEq, Repr

/-- Link training that completes: the port, and the requests that the partner made of each of its lanes in the attempt, in order. -/
structure Trained where
  port : Fin 384
  requests : List (List CoefRequest)
  deriving DecidableEq, Repr

/-- What the estimators read from the equaliser taps every 64 ticks (Table 6.10). -/
structure QualityMeas where
  dgd : Nat
  pdl : Nat
  deriving DecidableEq, Repr

/-- The codewords that a port decodes together (R285, R286): symbol errors in each RS(544,514) codeword, whether the group begins with
alignment markers, and the 257-bit blocks sent in it, markers first. -/
structure FecGroup where
  errors : List Nat
  marked : Bool
  blocks : List (BitVec 257)
  deriving DecidableEq, Repr

/-- What a client port shows in one tick: its received codewords, whether each 128-block period held a local or remote fault, octets
and frames per direction and class, blocks that leave the egress buffer, and idle blocks inserted and deleted in re-creating the PCS
(R246, R278, R286, R287, R389, R464). -/
structure ClientObs where
  port : Nat
  groups : List FecGroup
  localFault : List Bool
  remoteFault : List Bool
  ingress : Nat
  egress : Nat
  /-- Ethernet frames: octets from the destination address on, and whether the frame is at the egress. -/
  frames : List (List Octet × Bool)
  consumed : Nat
  idleIns : Nat
  idleDel : Nat
  deriving DecidableEq, Repr

/-- Steps of a host lane's receiver in a window (R272): CTLE peaking in 0.5 dB, the 24 FFE and 16 DFE taps in 2⁻¹⁶, and the CDR's frequency
integrator and phase. -/
structure LaneSteps where
  ctle : Int
  ffe : List Int
  dfe : List Int
  freq : Int
  phase : Int
  deriving DecidableEq, Repr
/-- What a lane receiver sees of a window beside its level changes: the symbols of each PAM4 level, and the steps of its adaptation. -/
structure LaneWindow where
  levels : List Nat
  steps : LaneSteps
  deriving DecidableEq, Repr

/-- A step of one equaliser tap: subcarrier, filter (0 XX, 1 XY, 2 YX, 3 YY), tap, and the step before EQ_MU scales it, in 2⁻¹⁶ (R189). -/
structure TapStep where
  sc : Nat
  filter : Nat
  tap : Nat
  re : Int
  im : Int
  deriving DecidableEq, Repr

/-- The samples of a spare slice at the instants of the position it shadows (R219). -/
structure SpareObs where
  lane : Nat
  slice : Nat
  codes : List Int
  deriving DecidableEq, Repr

/-- What an engine's analog side and signal processing show in one tick: ADC codes of the four lanes from the tick's first sample on, and
of the spare slices (R205); pairs from the DAC observers in 1/64 LSB (R214); lost symbol clock, pilots only (R199); residual frequency
offset in 0.1 MHz (R167); pilot phases of each stream and phase errors from payload decisions, in 2⁻¹⁶ turn (R196); tap
steps from sync and pilots, and from decisions (R189); rotation rate in 1 krad/s, and its peak (R196, Table 6.10); timing frequency
offset in 0.01 ppb (R192). -/
structure EngineObs where
  engine : Nat
  adc : List (List Int)
  spares : List SpareObs
  observers : List (List (Int × Int))
  noClock : Bool
  pilotOnly : Bool
  residual : Option Int
  pilots : List (List Int)
  decisions : List (List Int)
  pilotSteps : List TapStep
  decisionSteps : List TapStep
  rotRate : Int
  sopRate : Nat
  timingFo : Int
  /-- Signal and error power summed over the pilots of SC0 to SC7, both polarisations (R202). -/
  pilotPow : List (Nat × Nat)
  deriving DecidableEq, Repr

/-- What happens outside the block in one tick. -/
structure TickObs where
  clients : List ClientObs
  engines : List EngineObs
  /-- Parity errors: location, index, SUB (R260). -/
  parity : List (Nat × Nat × Nat)
  /-- Parity errors of active calendar entries, with the value read (R242). -/
  calParity : List (Nat × Nat)
  /-- The hottest sensor of each powered die, by Table 18.1's number, in 0.25 °C (R148, R194, R533). -/
  temps : List (Nat × Int)
  deriving DecidableEq, Repr

/-- A received symbol's distance from the symbol sent: active stream, symbol of the frame, and the distance in 1/64 of an amplitude
level (R108). -/
structure SymNoise where
  stream : Nat
  symbol : Nat
  i : Int
  q : Int
  deriving DecidableEq, Repr

/-- A far-end frame as its symbols reach the demapper: what the far end sent (the loading vector it mapped with, and its raw body as
clear header, the octets after it, JC octets, slots and tag), and the noise on its symbols. Every set of received symbols is of this
form. -/
structure RxSignal where
  vec : List Nat
  header : List (BitVec 8)
  overhead : List (BitVec 8)
  jc : List Nat
  slots : List (List (BitVec 8))
  tag : List (BitVec 8)
  noise : List SymNoise
  deriving DecidableEq, Repr

/-- Instructions of the test port (R368). -/
inductive TestIr where
  | idcode | bypass | other
  deriving DecidableEq, Repr

/-- The commands, in the order of the table. -/
inductive Instr where
  | tick (obs : TickObs)
  | tickAlignedChangeEffect
  | realignment
  | sfHoldoffExpiry (pack : Bool) (i : Fin 48)
  | muzzleRampEnd (e : Fin 48)
  | rxFrameDecode (e : Fin 48) (f : RxSignal)
  | rxSyncCheck (e : Fin 48) (seen : SyncSeen) (x : Option Contender)
  | searchSyncFound (e : Fin 48) (found : List SyncMeas) (cd : Int)
  | powerQualification (e : Fin 48) (powers : List Int)
  | oofTimerExpiry (e : Fin 48)
  | acqNoSync (e : Fin 48)
  | freqRecentre (e : Fin 48)
  | leashWriteInstant (e : Fin 48)
  | rxThaw (e : Fin 48)
  | rxFeAutoUpdate (e : Fin 48) (m : FeEstimate)
  | cdFilterReady (e : Fin 48)
  | cdSwapDone (e : Fin 48)
  | cdDelaySettled (e : Fin 48)
  | cdTrackEstimate (e : Fin 48) (residual : Int)
  | estimatorUpdate (e : Fin 48) (m : QualityMeas)
  | loadPolicyRun (e : Fin 48)
  | loadAckDeadline (e : Fin 48)
  | loadTxSwitch (e : Fin 48)
  | converterSensorRead (e : Fin 48) (temp : Int)
  | calWindowCheck (e : Fin 48) (offset gain skew : Rat)
  | calApply (e : Fin 48)
  | retirementEntryWrite
  | shadowScrubPass (read : List (Fin 122880 × Nat))
  | hostRefclkLoss (t : Fin 4)
  | hostRefclkOk (t : Fin 4)
  | hlAdaptWindowEnd (l : Fin 384) (changes : Nat) (w : LaneWindow)
  | trainTimeoutExpiry (port : Fin 384) (silent : Option Nat) (slow : Nat)
  | partnerLostTimer (port : Fin 384) (lane : Nat)
  | alignTimeout (port : Fin 384) (lane : Nat)
  | pcsAligned (port : Fin 384)
  | trainHoldoffExpiry (port : Fin 384)
  | pcsAlignmentLoss (port : Fin 384) (signal : Bool)
  | retrainHoldExpiry (port : Fin 384)
  | prbsCheckWindow (l : Fin 384) (symbols bits : Nat)
  | tapFrameRx (port : Fin 384) (octets fcs : List Octet) (blocks : List Nat) (sub : Nat)
  | tapFrameInsert (port : Fin 384) (sub : Nat)
  | tapInsertTimeout (port : Fin 384)
  | ppsInPulse (n : Fin 2) (sub : Nat)
  | ppsMissing (n : Fin 2)
  | todSentenceRx (n : Fin 2) (line : List Octet) (sub : Nat)
  | timeMeasurement
  | timeStep
  | sourceQualified (i : Fin 4)
  | wtrExpiry
  | holdoverTraceExpiry
  | leapApplied
  | ppsOutPulse (n : Fin 4)
  | todOutSentence
  | kennelRtcUpdate (trim : Int)
  | oscLoss
  | oscOk
  | oscRelockDone
  | freqLoopUpdate (err : Int)
  | freqRefQualification (offset : Int)
  | lttIntervalEnd (e : Fin 48)
  | delayCertFormation
  | ptpMessageRx (port : Fin 384)
  | ptpSyncTx (port : Fin 384)
  | ptpAnnounceTx (port : Fin 384)
  | ptpDelayReqTx (port : Fin 384)
  | announceReceiptTimeout (port : Fin 384)
  | ptpMeasPeriodEnd (port : Fin 384)
  | esmcInfoTx (port : Fin 384)
  | esmcEventTx (port : Fin 384)
  | esmcPduRx (port : Fin 384)
  | keyExpiry (e : Fin 48) (slot : Fin 4)
  | testportInstruction (ir : TestIr)
  | tagSignatureDone
  | monConversionDone (k : Fin 4) (code : Fin 4096)
  | monCalComplete (k : Fin 4) (offset : Int) (gain longest : Nat)
  | monTestdacSettle (k : Fin 4)
  | biasLoopRun (e : Fin 48) (num : Fin 8)
  | feFaultPoll (e : Fin 48) (value : Nat)
  | feBusTransaction (e : Fin 48) (data : Nat)
  | tlmSample (n : Fin 64)
  | bandwidthWindowEnd (port : Fin 384)
  | captureTrigger (k : Fin 12)
  | captureFillDone (k : Fin 12) (data : List Octet)
  | dmaGo (c : Fin 16)
  | dmaAbort (c : Fin 16)
  | dmaReadCompletion (c : Fin 16) (good : Bool) (data : List Octet)
  | dmaChannelEnd (c : Fin 16) (err : Bool) (moved : Nat)
  | sysRstAssert
  | sysRstRelease (elapsed : Nat)
  | mgmtRstAssert
  | mgmtRstRelease
  | perst
  | hotReset
  | functionLevelReset
  | d3hotEntry
  | d0Return
  | pcieRefclkLoss
  | railWarning (d : Domain) (r : Rail) (level : Nat)
  | braceExit
  | railResetLevel (d : Domain) (r : Rail) (level : Nat)
  | domainResetRelease (d : Domain) (elapsed : Nat)
  | avsLoopStep (step : Int) (acked : Bool)
  | vbatMeasurement (mv : Nat)
  | kennelPowerLoss
  | fwHeartbeat
  | shepherdHeartbeat
  | heartbeatTimeout
  | fwFatalTrap
  | fwBootTimeout
  | fwRunningReport
  | shepherdHeartbeatTimeout
  | lastResortKick
  | lastResortExpiry
  | firmwareBoot
  | lifeRecordSecond (temps : List (Option Int))
  | lifeMirrorWrite
  | progress (seq : Nat) (fraction : Fin 257)
  | commandRingDoorbell (q : Fin 4) (pi : Nat) (sync : Bool) (words : List QWord)
  | ringEnableWrite (q : Fin 9) (w : Word)
  | ringCiWrite (q : Fin 9) (ci : Nat)
  | queueFlush (q : Fin 17)
  | wmLatchedClear (q : Fin 17)
  | heldResponseCommit (n : Fin 5)
  | eventRingDrain
  | heldEventEntry
  | intHoldoffExpiry (q : Fin 9)
  | msixUnmask (v : Fin 64)
  | spiCommandWindowWrite (first last : Bool) (words : List QWord)
  | spiResponseWindowRead (n : Nat) (last : Bool)
  | spiEventWindowRead (n : Nat) (last : Bool)
  | spiStatus
  | counterV0Read (path : Path) (slot : Fin 49152)
  | monResultRead (q : Fin 5)
  | timeSnapReq
  | timeSnapshotCapture
  | bootGo
  | registerWrite (path : Path) (bar2 : Bool) (offset : Nat) (value : Word)
  | unknownOpcode (op : Fin 4096) (c : Cmd)
  | readCounterpart (op : Fin 4096) (c : Cmd)
  | deviceNop (c : Cmd)
  | deviceIdentity (c : Cmd)
  | deviceStatus (c : Cmd)
  | eventMaskSet (c : Cmd)
  | engineProfileSet (c : Cmd)
  | engineCapacitySet (c : Cmd)
  | engineIterCapSet (c : Cmd)
  | engineLoadSet (c : Cmd)
  | engineLoadAnnounce (c : Cmd)
  | engineSynthSet (c : Cmd)
  | engineTxcorrSet (c : Cmd)
  | enginePreemphLoad (c : Cmd)
  | enginePreemphSwap (c : Cmd)
  | spectralMapSet (c : Cmd)
  | engineNlcSet (c : Cmd)
  | engineNlcCoefLoad (c : Cmd)
  | engineNlcCoefSwap (c : Cmd)
  | engineMuzzle (c : Cmd)
  | engineUnmuzzle (c : Cmd)
  | engineMuzzleClear (c : Cmd)
  | engineMuzzleCfgSet (c : Cmd)
  | engineAcqSet (c : Cmd)
  | engineAcqRestart (c : Cmd)
  | engineAcqStatus (c : Cmd)
  | engineLeashSet (c : Cmd)
  | engineRxfeSet (c : Cmd)
  | engineCdSet (c : Cmd)
  | engineCdLoad (c : Cmd)
  | engineCdSwap (c : Cmd)
  | engineEqSet (c : Cmd)
  | engineRxQuality (c : Cmd)
  | engineNbrStatus (c : Cmd)
  | engineTtiSet (c : Cmd)
  | engineTtiRead (c : Cmd)
  | engineDefectSet (c : Cmd)
  | engineLock (c : Cmd)
  | engineUnlock (c : Cmd)
  | engineSvcWrite (c : Cmd)
  | engineSvcRead (c : Cmd)
  | engineOpareaSet (c : Cmd)
  | engineOpareaRead (c : Cmd)
  | convStatus (c : Cmd)
  | convCalRead (c : Cmd)
  | convCalLoad (c : Cmd)
  | convCalFactory (c : Cmd)
  | convRetireCmd (c : Cmd)
  | convRestore (c : Cmd)
  | convCalSet (c : Cmd)
  | calLoad (c : Cmd)
  | calRead (c : Cmd)
  | calSwap (c : Cmd)
  | calStatus (c : Cmd)
  | packSet (c : Cmd)
  | packDelete (c : Cmd)
  | packCapacitySet (c : Cmd)
  | packSkewSet (c : Cmd)
  | packStatus (c : Cmd)
  | storeSet (c : Cmd)
  | portSet (c : Cmd)
  | portDelete (c : Cmd)
  | portEnable (c : Cmd)
  | portDisable (c : Cmd)
  | portRestart (c : Cmd)
  | portTest (c : Cmd)
  | portTrainSet (c : Cmd)
  | portTxFfe (c : Cmd)
  | portTapSet (c : Cmd)
  | portDefectSet (c : Cmd)
  | portStatus (c : Cmd)
  | hostClkSet (c : Cmd)
  | laneSet (c : Cmd)
  | laneLoopback (c : Cmd)
  | lanePrbsSet (c : Cmd)
  | lanePrbsStatus (c : Cmd)
  | timeStatus (c : Cmd)
  | timeSourceSet (c : Cmd)
  | timeParamSet (c : Cmd)
  | timeSet (c : Cmd)
  | timeUtcSet (c : Cmd)
  | timeOscSet (c : Cmd)
  | timeEpochForce (c : Cmd)
  | timePpsInSet (c : Cmd)
  | timePpsOutSet (c : Cmd)
  | timeTodSet (c : Cmd)
  | timeFreqRefSet (c : Cmd)
  | lttSet (c : Cmd)
  | lttStatus (c : Cmd)
  | engineDelayCert (c : Cmd)
  | certDump (c : Cmd)
  | asymSet (c : Cmd)
  | asymValidate (c : Cmd)
  | asymClear (c : Cmd)
  | routeSet (c : Cmd)
  | ptpClockSet (c : Cmd)
  | ptpPortSet (c : Cmd)
  | ptpPortStatus (c : Cmd)
  | engineCryptoSet (c : Cmd)
  | keyLoad (c : Cmd)
  | keyErase (c : Cmd)
  | keyTxSwitch (c : Cmd)
  | keyRxSwitch (c : Cmd)
  | keyRxFollow (c : Cmd)
  | keyStatus (c : Cmd)
  | domainEnrol (c : Cmd)
  | domainClear (c : Cmd)
  | tagCertRead (c : Cmd)
  | attestReport (c : Cmd)
  | testportChallenge (c : Cmd)
  | testportUnlock (c : Cmd)
  | monCal (c : Cmd)
  | monSeqSet (c : Cmd)
  | monSeqStart (c : Cmd)
  | monSeqStop (c : Cmd)
  | monInject (c : Cmd)
  | monCorrSet (c : Cmd)
  | monTestdacSet (c : Cmd)
  | feProfileLoad (c : Cmd)
  | feBusAccess (c : Cmd)
  | tlmChainSet (c : Cmd)
  | tlmCoefLoad (c : Cmd)
  | tlmCoefSwap (c : Cmd)
  | tlmReset (c : Cmd)
  | capSet (c : Cmd)
  | capArm (c : Cmd)
  | capWithdraw (c : Cmd)
  | capStatus (c : Cmd)
  | ctrRead (c : Cmd)
  | ctrChainSet (c : Cmd)
  | ctrFilterSet (c : Cmd)
  | ctrBwSet (c : Cmd)
  | ctrSnapshot (c : Cmd)
  | ctrDump (c : Cmd)
  | ctrIndex (c : Cmd)
  | kennelStatus (c : Cmd)
  | lifeExport (c : Cmd)
  | kennelExport (c : Cmd)
  | engineIsolate (c : Cmd)
  | engineRestore (c : Cmd)
  | tileFence (c : Cmd)
  | tilePowerDownDone (k : Fin 12)
  | tileUnfence (c : Cmd)
  | tilePowerUpDone (k : Fin 12)
  | shepherdStatus (c : Cmd)
  | fwLoad (c : Cmd)
  | fwActivate (c : Cmd)
  | fwCommit (c : Cmd)
  | fwStatus (c : Cmd)
  | linkTrainingComplete (x : Trained)
  | searchPassEnd (p : PassEnd)
  | prbsCheckerLock (l : Fin 384)
  | pcieRefclkReturn
  | perstRelease
  | vddAuxPowerUp
  deriving DecidableEq, Repr

end Sys2Proof
end

