-- ==== Sys2Proof/Config.lean ====
section
/-! DEFINITION. What an implementation fixes and the manual leaves open: constants of the part, and the free values, which
are opaque, so that no statement can rest on what they are.
What it chooses or infers where the manual is silent, with its marks: log entries 7 to 10. -/
namespace Sys2Proof.Config

/-- Errors of the 400ZR agreement's alignment word in the decisions of a sync check, how many its matching rule allows, and its frame
period in symbols (R176): the agreement gives them. -/
opaque zrErrs : List (BitVec 128) → Nat
opaque zrTolerance : Nat
opaque zrSymbols : Nat
/-- The coded bits that the 400ZR profile sends in a tick, from the tick's count and the client's octets: the agreement gives the frame and
the concatenated FEC (R122). Octet k holds symbol k of both polarisations: two bits for each of XI, XQ, YI and YQ, from bit 7 on. -/
opaque zrCoded : Nat → List Octet → List Octet
/-- The three symbols of the product that an NLC weight multiplies (R140): window, corrected stream and weight to the stream and the
offset from the corrected symbol of each. Streams are numbered 16 p + q, p being 0 for the engine's own and 1 to 4 for the neighbour at
position p − 1. The manual gives no order of the weights. -/
opaque nlcProduct : Nat → Nat → Nat → (Nat × Int) × (Nat × Int) × (Nat × Int)
/-- The unit of an NLC weight, for symbols of unit mean power: the manual gives none (R141). -/
opaque nlcUnit : Rat
/-- Tap n, from the centre, of the filter that the device computes from D, in ps/nm, and CENTRE_N of the slot centre (R181), and the filter
that the split passes a subcarrier of a layout by, over symbol periods: the manual gives neither. -/
opaque cdResponse : Int → Int → Int → Rat × Rat
/-- The filter of the subcarrier split. -/
opaque splitPulse : Nat → Rat → Rat
/-- The slope of the lane's correlation at a lag of one sample, in 0.02 ps, from its mean variance and mean lag-one correlation (R213): the
manual does not give it. -/
opaque lagSlope : Rat → Rat → Rat
/-- The carrier phase of an edge subcarrier, in 2⁻¹⁶ turn, under the neighbours' estimates taken as a prior (R197): own phase, estimates.
The manual gives no formula. -/
opaque phasePrior : Int → List Int → Int
/-- The step that the neighbours' rotation rates, in krad/s, give a tap in a tick, in 2⁻¹⁶ (R197): subcarrier, filter, tap. The manual
gives no formula. -/
opaque rotationStep : List Int → Nat → Nat → Nat → Int × Int
/-- A fresh free value each time: the model's counter of free values selects it. -/
opaque freeValue : Nat → Nat
/-- The counter slot, below 23,552, that the silicon assigns to each counter, in the model's own numbering of the counters: no two counters
share a slot (R455, R457). The manual lists no assignment. -/
opaque counterPlace : Equiv.Perm (Fin 23552)
/-- STEPPING A1's serial number (DEVICE_IDENTITY), 128 bits. -/
opaque serial : BitVec 128
/-- The factory layer of the converter values (R210): engine, word index of Table 7.9; in 1/16 of the format's unit. -/
opaque factory : Nat → Nat → Int
/-- BOOT_SRC straps (R521). -/
opaque bootStraps : Fin 4
/-- The fused AVSBus start target, in mV above 600 (R478): 0 to 120. -/
opaque avsFuse : Fin 121
/-- TX_CONV of an engine at a tile temperature in 0.25 °C, in 2⁻¹⁶ ns (R148). -/
opaque txConv : Nat → Int → Int
/-- RX_CONV of an engine at a tile temperature in 0.25 °C, in 2⁻¹⁶ ns (R194). -/
opaque rxConv : Nat → Int → Int
/-- VALID and STALE bitmap of ENGINE_RX_QUALITY from the VALID bit and the STALE flags in the order of Table 6.10: the
manual gives no bit positions. -/
opaque qualityBitmap : Bool → List Bool → Word
/-- WIDTH of a front-end register that the loaded profile does not name, by address (R443). -/
opaque feWidth : Nat → Nat
/-- Blocks of a client type's mapper store beyond which it overflows (R246); the manual gives no depth. -/
opaque mapperDepth : Nat → Nat
/-- An Ethernet idle block of the client PCS, after transcoding (R249, R287, R289). -/
opaque idleBlock : BitVec 257
/-- Four Ethernet error control blocks, after transcoding (R286); the standard's transcoding gives it. -/
opaque errorBlock : BitVec 257
/-- The word of PACK_STATUS that holds PACK_GEN and M: the manual gives no bit positions. -/
opaque packGenWord : Nat → Nat → Word
/-- A word of four-bit values per Pack position: the manual gives no bit positions. -/
opaque packNibbles : List Nat → Word
/-- HL_RX_DELAY (false) or HL_TX_DELAY (true) of a port in COMMON_REF, a factory constant in 2⁻¹⁶ ns (R270). -/
opaque hostDelay : Nat → Bool → Nat
/-- Word 0 of PORT_STATUS from the state code and FALLBACK: the manual gives no bit positions. -/
opaque portStateWord : Nat → Bool → Word
/-- The last word of PORT_STATUS from the outcome and the attempt count: the manual gives no bit positions. -/
opaque portResultWord : Nat → Nat → Word
/-- The pattern word of LANE_PRBS_STATUS from generator and checker: the manual gives no bit positions. -/
opaque prbsPatternWord : Nat → Nat → Word
/-- The device-unique secret DUS in fuses (R361). -/
opaque dus : BitVec 256
/-- The private identity key generated at manufacture (R364). -/
opaque identityKey : Nat
/-- The public point of the debug key, by which unlock tokens are judged (R368). -/
opaque debugKey : Nat × Nat
/-- Random numbers: how many octets, and which draw. -/
opaque randomNumber : Nat → Nat → Nat
/-- The shared secret of an enrolment whose operator key is no point of P-384: the manual states none (R361). -/
opaque strayShared : List Octet → Nat → List Octet
/-- The lengths of the device certificate and of the intermediate certificate, before they are held to 4,088 octets in all, and the octets
of both, one after the other (R364). -/
opaque certLengths : Fin 4089 × Fin 4089
opaque certOctet : Nat → Octet
/-- The device certificate. -/
def deviceCert : List Octet := (List.range certLengths.1).map certOctet
/-- The intermediate certificate. -/
def caCert : List Octet :=
  (List.range (min certLengths.2.val (4088 - certLengths.1.val))).map (fun i => certOctet (certLengths.1 + i))
/-- The header of an image: its octets, FW_VERSION, SVN, the length of what follows it, and the digest of that; none where the signature
fails (R366). The manual gives no layout. -/
opaque imageHeader : List Octet → Option (Nat × Nat × Fin 65 × Nat × List Octet)
/-- Octet i of SHA-384 of the image that slot A of the firmware or, with the flag set, of the Shepherd holds before any load. -/
opaque bootDigest : Bool → Nat → Octet
/-- The firmware image and the Shepherd image in a host image, by the lengths in their headers (R522). -/
opaque splitImage : List Octet → List Octet × List Octet
/-- Words of KENNEL_STATUS and FW_STATUS that the manual names without a layout: two flags, or two numbers, to a word. -/
opaque flagPairWord : Nat → Nat → Nat → Word
/-- Correction of a raw offset (of t4 − t3 − t2 + t1, or of the round trip t4 − t3 + t2 − t1 where the flag is set) for the frequency
difference over the pair, from TIMING_FO in 0.01 ppb and t4 − t1 in 2⁻¹⁶ ns: the manual gives no formula (R321). -/
opaque lttCorrect : Bool → Int → Int → Int
/-- The frequency loop of R334: FREQ_BW in 0.01 Hz, demand, mean error in 0.001 ppb to the new demand. -/
opaque freqLoop : Nat → Int → Int → Int
/-- What a mean over no value is (CD_MEAN 0, RTD_MEAN 1, EPS_MEAN 2), by engine and tick count: the manual states none (log entry 28). -/
opaque emptyMean : Nat → Nat → Nat → Int
/-- Error of the Kennel counter's 32.768 kHz rate before RTC_TRIM, in ppb, by tick count: the manual bounds it and states no value (R315). -/
opaque rtcError : Nat → Int
/-- Whether the interface standard exposes a transmit tap to training (R271), by LANE_RATE 200G and place from c(−4), and the taps of its
presets, in 1/128: the manual names IEEE 802.3ck and 802.3dj and gives neither (log entry 30). -/
opaque tapExposed : Bool → Nat → Bool
/-- A preset's taps. -/
opaque ffePreset : Bool → Nat → List Int
/-- Register from which a lane's generator starts (1 PRBS13Q, 2 PRBS31Q): the manual gives none. -/
opaque prbsSeed : Nat → Nat → Nat
/-- A 257-bit block of an inserted frame, from its octets and place: the manual names the standard's coding (R291). -/
opaque frameBlock : List Octet → Nat → BitVec 257
/-- TX_HOST by client type and LANE_RATE 200G (Table 11.4), in 2⁻¹⁶ ns. -/
opaque txHost : Nat → Bool → Int
/-- The word for a QL from its SSM code and its enhanced code: the manual gives no layout. -/
opaque qlWord : Nat → Nat → Word
/-- Whether the first of the units that share a word of CONV_STATUS, two bits each, has the lowest bits or the highest: the manual gives
no bit order. -/
opaque pairsLow : Bool

end Sys2Proof.Config
end

