-- ==== Sys2Proof/Machine/Codes.lean ====
section
/-! DEFINITION. The coded names of the Smiulo protocol: status codes (Table 15.8), event codes with their fixed
priorities (Table 15.9) and the counter ordinals of Table 17.1 and R457.
What it chooses or infers where the manual is silent, with its marks: log entry 38. -/
namespace Sys2Proof.Machine

/-- A status of Table 15.8 (R429): its STATUS field. -/
structure Status where
  code : Nat
  deriving DecidableEq, Repr

def Status.ok : Status := ⟨0x00⟩
def Status.superseded : Status := ⟨0x01⟩
def Status.tickPassed : Status := ⟨0x02⟩
def Status.outOfRange : Status := ⟨0x03⟩
def Status.cancelledByRealignment : Status := ⟨0x04⟩
def Status.cancelled : Status := ⟨0x05⟩
def Status.restartAborted : Status := ⟨0x06⟩
def Status.busy : Status := ⟨0x07⟩
def Status.flagsInvalid : Status := ⟨0x10⟩
def Status.unknownOpcode : Status := ⟨0x11⟩
def Status.parameterLength : Status := ⟨0x12⟩
def Status.notAlignable : Status := ⟨0x13⟩
def Status.tickRequired : Status := ⟨0x14⟩
def Status.parameterInvalid : Status := ⟨0x15⟩
def Status.mode : Status := ⟨0x16⟩
def Status.engineInTraffic : Status := ⟨0x20⟩
def Status.capacityLayout : Status := ⟨0x21⟩
def Status.notInFrame : Status := ⟨0x22⟩
def Status.bankInUse : Status := ⟨0x23⟩
def Status.bankEmpty : Status := ⟨0x24⟩
def Status.coefficientInvalid : Status := ⟨0x25⟩
def Status.spectralOverlap : Status := ⟨0x26⟩
def Status.conditionPresent : Status := ⟨0x27⟩
def Status.leashInUse : Status := ⟨0x28⟩
def Status.profileIncomplete : Status := ⟨0x29⟩
def Status.noSpare : Status := ⟨0x2A⟩
def Status.notRetired : Status := ⟨0x2B⟩
def Status.tileFenced : Status := ⟨0x2C⟩
def Status.calendarCapacity : Status := ⟨0x30⟩
def Status.calendarInvalid : Status := ⟨0x31⟩
def Status.calendarInUse : Status := ⟨0x32⟩
def Status.calendarParity : Status := ⟨0x33⟩
def Status.packMember : Status := ⟨0x34⟩
def Status.poolFull : Status := ⟨0x35⟩
def Status.portInvalid : Status := ⟨0x40⟩
def Status.portOverlap : Status := ⟨0x41⟩
def Status.laneBusy : Status := ⟨0x42⟩
def Status.portInService : Status := ⟨0x43⟩
def Status.queueFull : Status := ⟨0x44⟩
def Status.keyInUse : Status := ⟨0x50⟩
def Status.domainUnset : Status := ⟨0x51⟩
def Status.domainSet : Status := ⟨0x52⟩
def Status.keyUnwrap : Status := ⟨0x53⟩
def Status.tokenInvalid : Status := ⟨0x54⟩
def Status.testPort : Status := ⟨0x55⟩
def Status.imageInvalid : Status := ⟨0x56⟩
def Status.transferError : Status := ⟨0x60⟩
def Status.sourceWithdrawn : Status := ⟨0x61⟩
def Status.dmaBusy : Status := ⟨0x62⟩
def Status.internal : Status := ⟨0xFF⟩

/-- An event of Table 15.9 (R430): EVENT_CODE, and PRIORITY, 3 highest. -/
structure Ev where
  code : Nat
  prio : Nat
  deriving DecidableEq, Repr

def Ev.badItem : Ev := ⟨0x000, 3⟩
def Ev.queueFlushed : Ev := ⟨0x001, 2⟩
def Ev.mgmtResetSeen : Ev := ⟨0x002, 3⟩
def Ev.progress : Ev := ⟨0x003, 0⟩
def Ev.defectChange : Ev := ⟨0x004, 2⟩
def Ev.iterCapChange : Ev := ⟨0x100, 1⟩
def Ev.loadAnnounced : Ev := ⟨0x101, 0⟩
def Ev.loadRxArmed : Ev := ⟨0x102, 0⟩
def Ev.loadTxSwitch : Ev := ⟨0x103, 1⟩
def Ev.loadRxSwitch : Ev := ⟨0x104, 1⟩
def Ev.loadAborted : Ev := ⟨0x105, 2⟩
def Ev.loadTrial : Ev := ⟨0x106, 2⟩
def Ev.capacityDone : Ev := ⟨0x107, 1⟩
def Ev.txClip : Ev := ⟨0x108, 1⟩
def Ev.nbrChange : Ev := ⟨0x109, 1⟩
def Ev.muzzleChange : Ev := ⟨0x10A, 2⟩
def Ev.acqDone : Ev := ⟨0x10B, 2⟩
def Ev.oofEnter : Ev := ⟨0x10C, 2⟩
def Ev.oofExit : Ev := ⟨0x10D, 1⟩
def Ev.rxLayoutAdopted : Ev := ⟨0x10E, 2⟩
def Ev.captureContest : Ev := ⟨0x10F, 2⟩
def Ev.acqNoSync : Ev := ⟨0x110, 1⟩
def Ev.freqExcursion : Ev := ⟨0x111, 1⟩
def Ev.freqRecentre : Ev := ⟨0x112, 0⟩
def Ev.freqLimit : Ev := ⟨0x113, 2⟩
def Ev.leashHeel : Ev := ⟨0x114, 1⟩
def Ev.leashSaturated : Ev := ⟨0x115, 2⟩
def Ev.cdSwapDone : Ev := ⟨0x116, 0⟩
def Ev.cdSwapReversed : Ev := ⟨0x117, 1⟩
def Ev.cdDelaySettled : Ev := ⟨0x118, 0⟩
def Ev.cdTrackSwap : Ev := ⟨0x119, 0⟩
def Ev.rxFreeze : Ev := ⟨0x11A, 1⟩
def Ev.rxThaw : Ev := ⟨0x11B, 1⟩
def Ev.tnJump : Ev := ⟨0x11C, 2⟩
def Ev.convCalFail : Ev := ⟨0x130, 1⟩
def Ev.convRetireDue : Ev := ⟨0x131, 2⟩
def Ev.convRetire : Ev := ⟨0x132, 2⟩
def Ev.convSpareSwap : Ev := ⟨0x133, 1⟩
def Ev.convNoSpare : Ev := ⟨0x134, 3⟩
def Ev.convSpareLow : Ev := ⟨0x135, 2⟩
def Ev.retireListFull : Ev := ⟨0x136, 2⟩
def Ev.calSwapDone : Ev := ⟨0x200, 1⟩
def Ev.calParity : Ev := ⟨0x201, 3⟩
def Ev.storeSlip : Ev := ⟨0x202, 2⟩
def Ev.packCapacityDone : Ev := ⟨0x203, 1⟩
def Ev.parityErr : Ev := ⟨0x204, 3⟩
def Ev.hostRefclkLoss : Ev := ⟨0x300, 3⟩
def Ev.hostRefclkOk : Ev := ⟨0x301, 1⟩
def Ev.hlFreeze : Ev := ⟨0x302, 0⟩
def Ev.hlThaw : Ev := ⟨0x303, 0⟩
def Ev.trainResult : Ev := ⟨0x304, 1⟩
def Ev.egrSlip : Ev := ⟨0x305, 2⟩
def Ev.tapRxLimit : Ev := ⟨0x306, 2⟩
def Ev.tapInsertTimeout : Ev := ⟨0x307, 2⟩
def Ev.tickRealign : Ev := ⟨0x400, 3⟩
def Ev.tickEpochSet : Ev := ⟨0x401, 2⟩
def Ev.timeState : Ev := ⟨0x402, 2⟩
def Ev.timeSourceChange : Ev := ⟨0x403, 2⟩
def Ev.sourceQual : Ev := ⟨0x404, 1⟩
def Ev.timeStep : Ev := ⟨0x405, 3⟩
def Ev.freqLimited : Ev := ⟨0x406, 2⟩
def Ev.oscLoss : Ev := ⟨0x407, 3⟩
def Ev.oscOk : Ev := ⟨0x408, 1⟩
def Ev.utcChange : Ev := ⟨0x409, 1⟩
def Ev.leapApplied : Ev := ⟨0x40A, 1⟩
def Ev.lttFarStep : Ev := ⟨0x410, 2⟩
def Ev.delayCert : Ev := ⟨0x411, 0⟩
def Ev.asymValidated : Ev := ⟨0x412, 1⟩
def Ev.asymChange : Ev := ⟨0x413, 1⟩
def Ev.freqRefChange : Ev := ⟨0x414, 2⟩
def Ev.ptpPortState : Ev := ⟨0x420, 1⟩
def Ev.ptpParentChange : Ev := ⟨0x421, 1⟩
def Ev.esmcQlChange : Ev := ⟨0x422, 1⟩
def Ev.cryptoClear : Ev := ⟨0x500, 2⟩
def Ev.keySwitched : Ev := ⟨0x501, 1⟩
def Ev.keyExpired : Ev := ⟨0x502, 3⟩
def Ev.keyErased : Ev := ⟨0x503, 3⟩
def Ev.testportOpened : Ev := ⟨0x504, 3⟩
def Ev.monCalDone : Ev := ⟨0x600, 1⟩
def Ev.monInjectDelayed : Ev := ⟨0x601, 0⟩
def Ev.monResultWm : Ev := ⟨0x602, 1⟩
def Ev.feFault : Ev := ⟨0x610, 3⟩
def Ev.tlmSaturated : Ev := ⟨0x620, 1⟩
def Ev.capDone : Ev := ⟨0x700, 0⟩
def Ev.capWithdrawn : Ev := ⟨0x701, 1⟩
def Ev.ctrSnapshotDone : Ev := ⟨0x800, 0⟩
def Ev.lifeRecordFull : Ev := ⟨0x900, 2⟩
def Ev.vbatLow : Ev := ⟨0x901, 3⟩
def Ev.braceEnter : Ev := ⟨0xA00, 3⟩
def Ev.braceExit : Ev := ⟨0xA01, 2⟩
def Ev.domainReset : Ev := ⟨0xA02, 3⟩
def Ev.headlessEnter : Ev := ⟨0xA03, 3⟩
def Ev.headlessExit : Ev := ⟨0xA04, 2⟩
def Ev.fwRestarted : Ev := ⟨0xA05, 3⟩
def Ev.shepherdRestarted : Ev := ⟨0xA06, 3⟩
def Ev.isolateChange : Ev := ⟨0xA07, 1⟩
def Ev.fenceChange : Ev := ⟨0xA08, 2⟩
def Ev.fwTrialFailed : Ev := ⟨0xB00, 3⟩

/-- Every event, in the order of Table 15.9. -/
def Ev.all : List Ev :=
  ([ [.badItem, .queueFlushed, .mgmtResetSeen, .progress, .defectChange, .iterCapChange, .loadAnnounced, .loadRxArmed, .loadTxSwitch, .loadRxSwitch, .loadAborted, .loadTrial],
     [.capacityDone, .txClip, .nbrChange, .muzzleChange, .acqDone, .oofEnter, .oofExit, .rxLayoutAdopted, .captureContest, .acqNoSync, .freqExcursion, .freqRecentre],
     [.freqLimit, .leashHeel, .leashSaturated, .cdSwapDone, .cdSwapReversed, .cdDelaySettled, .cdTrackSwap, .rxFreeze, .rxThaw, .tnJump, .convCalFail, .convRetireDue],
     [.convRetire, .convSpareSwap, .convNoSpare, .convSpareLow, .retireListFull, .calSwapDone, .calParity, .storeSlip, .packCapacityDone, .parityErr, .hostRefclkLoss, .hostRefclkOk],
     [.hlFreeze, .hlThaw, .trainResult, .egrSlip, .tapRxLimit, .tapInsertTimeout, .tickRealign, .tickEpochSet, .timeState, .timeSourceChange, .sourceQual, .timeStep],
     [.freqLimited, .oscLoss, .oscOk, .utcChange, .leapApplied, .lttFarStep, .delayCert, .asymValidated, .asymChange, .freqRefChange, .ptpPortState, .ptpParentChange],
     [.esmcQlChange, .cryptoClear, .keySwitched, .keyExpired, .keyErased, .testportOpened, .monCalDone, .monInjectDelayed, .monResultWm, .feFault, .tlmSaturated, .capDone],
     [.capWithdrawn, .ctrSnapshotDone, .lifeRecordFull, .vbatLow, .braceEnter, .braceExit, .domainReset, .headlessEnter, .headlessExit, .fwRestarted, .shepherdRestarted, .isolateChange],
     [.fenceChange, .fwTrialFailed] ] : List (List Ev)).flatten


/-- A named counter of Table 17.1: its 16-bit counter code, 0x1000 + its ordinal (R457). -/
structure Ctr where
  code : Nat
  deriving DecidableEq, Repr

def Ctr.calParityErrs : Ctr := ⟨0x1000 + 0⟩
def Ctr.tagCollisions : Ctr := ⟨0x1000 + 1⟩
def Ctr.testportRejects : Ctr := ⟨0x1000 + 2⟩
def Ctr.ppsOutliers : Ctr := ⟨0x1000 + 3⟩
def Ctr.todInErr : Ctr := ⟨0x1000 + 4⟩
def Ctr.todInLate : Ctr := ⟨0x1000 + 5⟩
def Ctr.todInJump : Ctr := ⟨0x1000 + 6⟩
def Ctr.uncorrFrame : Ctr := ⟨0x1000 + 0⟩
def Ctr.hdrErr : Ctr := ⟨0x1000 + 1⟩
def Ctr.fmtMismatch : Ctr := ⟨0x1000 + 2⟩
def Ctr.authErr : Ctr := ⟨0x1000 + 3⟩
def Ctr.authErrMode : Ctr := ⟨0x1000 + 4⟩
def Ctr.authErrEmpty : Ctr := ⟨0x1000 + 5⟩
def Ctr.authErrIndex : Ctr := ⟨0x1000 + 6⟩
def Ctr.authErrTag : Ctr := ⟨0x1000 + 7⟩
def Ctr.fecCorrBits : Ctr := ⟨0x1000 + 8⟩
def Ctr.farUncorrCw : Ctr := ⟨0x1000 + 9⟩
def Ctr.farCorrBits : Ctr := ⟨0x1000 + 10⟩
def Ctr.txClipSamples : Ctr := ⟨0x1000 + 11⟩
def Ctr.syncCandidates : Ctr := ⟨0x1000 + 12⟩
def Ctr.pseudoSync : Ctr := ⟨0x1000 + 13⟩
def Ctr.contestReplaced : Ctr := ⟨0x1000 + 14⟩
def Ctr.syncMissed : Ctr := ⟨0x1000 + 15⟩
def Ctr.searchPasses : Ctr := ⟨0x1000 + 16⟩
def Ctr.freqRecentres : Ctr := ⟨0x1000 + 17⟩
def Ctr.cycleSlips : Ctr := ⟨0x1000 + 18⟩
def Ctr.eqRecentres : Ctr := ⟨0x1000 + 19⟩
def Ctr.cdTrackSwaps : Ctr := ⟨0x1000 + 20⟩
def Ctr.rxFreezeTicks : Ctr := ⟨0x1000 + 21⟩
def Ctr.calWindowsDiscarded : Ctr := ⟨0x1000 + 22⟩
def Ctr.retireLogLost : Ctr := ⟨0x1000 + 23⟩
def Ctr.convCalRejects : Ctr := ⟨0x1000 + 24⟩
def Ctr.parHubTx : Ctr := ⟨0x1000 + 25⟩
def Ctr.parLtTx : Ctr := ⟨0x1000 + 26⟩
def Ctr.parLtStore : Ctr := ⟨0x1000 + 27⟩
def Ctr.parHubRx : Ctr := ⟨0x1000 + 28⟩
def Ctr.lttEchoStale : Ctr := ⟨0x1000 + 29⟩
def Ctr.lttVoid : Ctr := ⟨0x1000 + 30⟩
def Ctr.keyUnwrapErr : Ctr := ⟨0x1000 + 31⟩
def Ctr.svcLostOctets : Ctr := ⟨0x1000 + 32⟩
def Ctr.svcRxOverflow : Ctr := ⟨0x1000 + 33⟩
def Ctr.hlFreezeWindows : Ctr := ⟨0x1000 + 0⟩
def Ctr.prbsBits : Ctr := ⟨0x1000 + 1⟩
def Ctr.prbsErr : Ctr := ⟨0x1000 + 2⟩
def Ctr.prbsLockLost : Ctr := ⟨0x1000 + 3⟩
def Ctr.jcErr : Ctr := ⟨0x1000 + 0⟩
def Ctr.storeSlips : Ctr := ⟨0x1000 + 1⟩
def Ctr.poisonedGrains : Ctr := ⟨0x1000 + 2⟩
def Ctr.parHtMap : Ctr := ⟨0x1000 + 3⟩
def Ctr.parHtDemap : Ctr := ⟨0x1000 + 4⟩
def Ctr.trainFails : Ctr := ⟨0x1000 + 5⟩
def Ctr.clientFecCw : Ctr := ⟨0x1000 + 6⟩
def Ctr.clientFecCorrCw : Ctr := ⟨0x1000 + 7⟩
def Ctr.clientFecUncorrCw : Ctr := ⟨0x1000 + 8⟩
def Ctr.clientFecSymbols : Ctr := ⟨0x1000 + 9⟩
def Ctr.egrIdleIns : Ctr := ⟨0x1000 + 10⟩
def Ctr.egrIdleDel : Ctr := ⟨0x1000 + 11⟩
def Ctr.tapFcsErr : Ctr := ⟨0x1000 + 12⟩
def Ctr.tapRxDrop : Ctr := ⟨0x1000 + 13⟩
def Ctr.tapTxDrop : Ctr := ⟨0x1000 + 14⟩
def Ctr.esmcRxErr : Ctr := ⟨0x1000 + 15⟩
def Ctr.ptpRxUnsupp : Ctr := ⟨0x1000 + 16⟩
def Ctr.ptpRxDrop : Ctr := ⟨0x1000 + 17⟩
def Ctr.ptpVoid : Ctr := ⟨0x1000 + 18⟩
def Ctr.parDeskew : Ctr := ⟨0x1000 + 0⟩
def Ctr.monStallUs : Ctr := ⟨0x1000 + 0⟩
def Ctr.tlmWraps : Ctr := ⟨0x1000 + 1⟩
def Ctr.dmaErrEnds : Ctr := ⟨0x1000 + 0⟩
def Ctr.dmaWithdrawnEnds : Ctr := ⟨0x1000 + 1⟩
def Ctr.queueRewound : Ctr := ⟨0x1000 + 0⟩
def Ctr.orphanWords : Ctr := ⟨0x1000 + 1⟩
def Ctr.flushedItems : Ctr := ⟨0x1000 + 2⟩
def Ctr.spiOverrun : Ctr := ⟨0x1000 + 3⟩

/-- KIND code of Table 14.5. -/
def kindCode : Kind → Nat
  | .device => 0 | .engine => 1 | .lineTile => 2 | .hostLane => 3 | .port => 4 | .pack => 5
  | .monConv => 6 | .dma => 7 | .hostTile => 8 | .queue => 9

/-- The kind a KIND code names; the others are reserved (Table 14.5). -/
def kindOf? : Nat → Option Kind
  | 0 => some .device | 1 => some .engine | 2 => some .lineTile | 3 => some .hostLane | 4 => some .port
  | 5 => some .pack | 6 => some .monConv | 7 => some .dma | 8 => some .hostTile | 9 => some .queue
  | _ => none

/-- Ordinal of a line defect (R457). -/
def lineOrd : LineDefect → Nat
  | .los => 0 | .oof => 1 | .lof => 2 | .ucf => 3 | .fmtMm => 4 | .authFail => 5 | .deg => 6 | .tim => 7
  | .srcMm => 8 | .rxLck => 9 | .rxTest => 10 | .rxBdi => 11 | .rxBauth => 12 | .rxBsd => 13 | .rxBpack => 14
  | .asymInvalid => 15

/-- Ordinal of a client-port defect (R457). -/
def clientOrd : ClientDefect → Nat
  | .cDown => 0 | .cLos => 1 | .cLoa => 2 | .cDeg => 3 | .cLf => 4 | .cRf => 5 | .cMap => 6 | .cCsf => 7
  | .cNomap => 8

/-- Ordinal of a Pack defect (R457). -/
def packOrd : PackDefect → Nat
  | .packSkew => 0 | .packMismatch => 1

/-- The kinds of resource an event can be raised with. -/
def Ev.kinds (e : Ev) : List Kind :=
  if e.code ≤ 0x001 then [.queue] else if e.code ≤ 0x003 then [.device]
  else if e.code = 0x004 then [.engine, .port, .pack] else if e.code < 0x200 then [.engine]
  else if e.code ≤ 0x201 then [.device] else if e.code = 0x202 then [.port] else if e.code = 0x203 then [.pack]
  else if e.code = 0x204 then [.port, .engine, .pack]
  else if e.code ≤ 0x301 then [.hostTile] else if e.code ≤ 0x303 then [.hostLane] else if e.code < 0x400 then [.port]
  else if e.code < 0x410 then [.device] else if e.code < 0x414 then [.engine] else if e.code = 0x414 then [.device]
  else if e.code < 0x500 then [.port] else if e.code < 0x504 then [.engine] else if e.code = 0x504 then [.device]
  else if e.code ≤ 0x602 then [.monConv] else if e.code = 0x610 then [.engine] else if e.code = 0x620 then [.device]
  else if e.code < 0x800 then [.lineTile] else if e.code < 0xA02 then [.device]
  else if e.code = 0xA07 then [.engine]
  else if e.code = 0xA08 then [.lineTile] else [.device]
/-- Resources of a kind as CTR_INDEX counts them: PPS_IN0 and PPS_IN1 are device INDEX 0 and 1, the telemetry queue is INDEX 4 of the
monitor converters (Table 17.1), and the four result queues and the telemetry queue are queues 12 to 16 (R441; log entry 33). -/
def kindCount (k : Kind) : Nat :=
  match k with
  | .device => 2 | .engine => 48 | .lineTile => 12 | .hostLane => 384 | .port => 384 | .pack => 24 | .monConv => 5 | .dma => 16
  | .hostTile => 4 | .queue => 17
/-- Counters that a resource of each kind has room for in the model's numbering, and the number of the first of the kind. -/
def kindRoom : Kind → Nat × Nat
  | .device => (60, 0) | .engine => (110, 120) | .lineTile => (8, 5400) | .hostLane => (6, 5496) | .port => (38, 7800)
  | .pack => (6, 22392) | .monConv => (70, 22536) | .dma => (2, 22886) | .hostTile => (4, 22918) | .queue => (6, 22934)
/-- The place of a counter among those of its resource: its events, its named counters by ordinal with their SUBs, and its defects
(R457). -/
def counterRank (k : Kind) (sub code : Nat) : Nat :=
  let evs := (Ev.all.filter (fun e => e.kinds.contains k)).map Ev.code
  if code < 0x1000 then (evs.idxOf? code).getD 0
  else if code < 0x2000 then evs.length + (code - 0x1000) + (if k = .engine ∧ 0x1018 < code then 7 else sub)
  else evs.length + (match k with | .engine => 41 | .pack => 1 | .port => 19 | _ => 0) + (code - 0x2000)
/-- The model's number of a counter: no two counters have one number, and all are below 23,552 (R455). -/
def counterNumber (k : Kind) (idx sub code : Nat) : Nat := (kindRoom k).2 + (kindRoom k).1 * idx + counterRank k sub code

/-- Index of a power domain in the life record (R499): 0 to 11 LT, 12 to 15 HT, 16 HUB, 17 MGMT, 18 IO, 19 AUX. -/
def domainIdx : Domain → Nat
  | .lt k => k | .ht k => 12 + k | .hub => 16 | .mgmt => 17 | .io => 18 | .aux => 19

end Sys2Proof.Machine
end

