-- ==== Sys2Proof/Machine/State.lean ====
section
/-! DEFINITION. State: everything the manual gives the block, as plain data, with the reasons a step stops, and the machine right
after reset. -/
namespace Sys2Proof.Machine

/-- A response item (R396): its header fields, KIND, DETAIL, RESP_TN and result words. -/
structure Resp where
  opcode : Nat
  tag : Nat
  issuer : Nat
  /-- STATUS (Table 15.8). -/
  status : Nat
  /-- KIND: FINAL, or ACCEPTED. -/
  final : Bool
  detail : Nat
  tn : Nat
  words : List Word
  deriving DecidableEq, Repr

/-- An event item (R399). -/
structure EventItem where
  code : Nat
  prio : Nat
  coalesced : Nat
  kind : Nat
  index : Nat
  tn : Nat
  words : List Word
  deriving DecidableEq, Repr

/-- A committed command item that its consumer has not yet taken, the queue words it spans (R409), and the header of an item whose
CHECK is bad, which is rewound when it is reached (R406, R410). -/
structure CmdItem where
  opcode : Nat
  cmd : Cmd
  span : Nat
  bad : Option Nat
  deriving DecidableEq, Repr

/-- A queue's watermark (R415). -/
structure Watermark where
  level : Nat
  latched : Bool
  wmAt : Nat
  deriving DecidableEq, Repr

/-- One register set of the queue block (Table 19.6) with the interrupt hold-off of R510. -/
structure QueueRegs where
  baseLo : Nat
  baseHi : Nat
  shadowLo : Nat
  shadowHi : Nat
  enable : Bool
  log2 : Nat
  intOnItem : Bool
  intHoldoff : Nat
  pi : Nat
  ci : Nat
  wm : Watermark
  /-- The index last mirrored to the shadow word in host memory (R516). -/
  shadowWord : Nat
  /-- Ticks since reset at the last interrupt of this ring, none before the first. -/
  lastSignal : Option Nat
  /-- An index advance waits for the hold-off to end. -/
  deferred : Bool
  deriving DecidableEq, Repr

/-- What a command transport holds: visible items, words of an incomplete item with the doorbell or transaction
that committed each, and the orphan period of a flush (R409, R414, R417). -/
structure CmdQueue where
  items : List CmdItem
  partialWords : List (QWord × Nat)
  /-- An orphan period: the items its flush discarded and the orphans so far. -/
  orphan : Option (Nat × Nat)
  deriving DecidableEq, Repr

/-- The tag, issuer and response flags by which a command's responses are posted (R396, R401). -/
structure Ticket where
  src : Source
  opcode : Nat
  tag : Nat
  issuer : Nat
  noResponse : Bool
  barrier : Bool
  /-- Position in parse order (R404). -/
  seq : Nat
  /-- A reset has discarded the command's responses (Table 18.5, R419): it is not in flight and nothing is posted. -/
  dead : Bool
  deriving DecidableEq, Repr

/-- A running class L command (R407). -/
structure Job where
  ticket : Ticket
  cmd : Cmd
  /-- The DMA channel of a DMA-backed command (R426). -/
  chan : Option Nat
  /-- Tick of its last PROGRESS, or of its acceptance (R428). -/
  lastProgress : Nat
  deriving DecidableEq, Repr

/-- A resource that holds one pending change (R44, Table 1.8): the opcode of its first command, and the target. -/
structure ChangeKey where
  cls : Nat
  kind : Nat
  index : Nat
  sub : Nat
  deriving DecidableEq, Repr

/-- A change armed for the boundary at which tick `due` begins (R43); the ticket is absent when its command has
already had its FINAL response. -/
structure Armed where
  due : Nat
  key : ChangeKey
  opcode : Nat
  cmd : Cmd
  ticket : Option Ticket
  deriving DecidableEq, Repr

/-- Why a parsed command is held: behind a barrier's wait (R405), by a scheduled realignment (R41), or behind an earlier-parsed command on
its resource that is held itself (R404). -/
inductive HoldWhy where
  | barrier | realign | order
  deriving DecidableEq, Repr

/-- A parsed command that has not started. -/
structure HeldCmd where
  opcode : Nat
  cmd : Cmd
  seq : Nat
  why : HoldWhy
  /-- A reset has discarded the command's responses. -/
  dead : Bool
  deriving DecidableEq, Repr

/-- The Smiulo protocol: the register sets of Table 19.6, what each queue of Table 14.1 holds, the responses and
events held under back-pressure (R411), and the commands in flight (R401, R405, R407). -/
structure Protocol where
  regs : Vector QueueRegs 12
  ring : Vector CmdQueue 4
  spi : CmdQueue
  /-- Items waiting in the internal queue of the firmware cores, and in that of the Shepherd. -/
  internal : List CmdItem
  shepInternal : List CmdItem
  resp : Vector (List Resp) 5
  heldResp : Vector (List Resp) 5
  /-- The last response to a FIRMWARE or SHEPHERD command, which no host queue carries. -/
  internalResp : Option Resp
  eventRing : List EventItem
  eventQueue : List EventItem
  heldEvents : List EventItem
  mgmtRdy : Bool
  /-- Octets already clocked out of the item at the head of the SPI response and event windows (R518). -/
  spiRespRead : Nat
  spiEventRead : Nat
  /-- A write transaction to the command window is in progress; the rest of it is dropped after an overrun or an oversize item
  (R418); or the running transaction was cut by a reset of the MGMT domain (R524). -/
  spiOpen : Bool
  spiDrop : Bool
  spiDead : Bool
  armed : List Armed
  jobs : List Job
  held : List HeldCmd
  nextSeq : Nat
  /-- Armed changes pending at the last MGMT reset, still to be told by MGMT_RESET_SEEN (R419). -/
  mgmtResetArmed : Option Nat
  /-- Event codes masked per Table 15.1 (EVENT_MASK_SET), in rising order. -/
  masked : List Nat
  /-- Finals of armed changes that took effect while firmware was down, posted when it resumes (R419). -/
  owedFinals : List (Source × Resp)
  deriving DecidableEq, Repr

/-- One MSI-X vector: message address and data, mask bit, pending bit, and messages sent so far (R509). -/
structure MsixVector where
  addrLo : Nat
  addrHi : Nat
  data : Nat
  masked : Bool
  pendingBit : Bool
  sent : Nat
  deriving DecidableEq, Repr

/-- Stages of the boot ROM (Table 19.5). -/
inductive Stage where
  | rom | verifying | waitHost | loading | running | failed
  deriving DecidableEq, Repr

/-- The device block (Table 19.5), the PCIe endpoint's condition and the MSI-X table. -/
structure DeviceBlock where
  stage : Stage
  fwSlot : Bool
  bootErr : Nat
  alertMask : Nat
  scratch : Nat
  bootImgAddrLo : Nat
  bootImgAddrHi : Nat
  bootImgLen : Nat
  /-- BOOT_GO reads 1 while the load is under way. -/
  bootGo : Bool
  bootSrc : Nat
  /-- Octets of a host image received so far over SPI (R522). -/
  bootStage : List Octet
  alertAsserted : Bool
  endpointUp : Bool
  linkUp : Bool
  d3hot : Bool
  msix : Vector MsixVector 64
  deriving DecidableEq, Repr

/-- The selector of a filtered counter (Table 17.3): kind, VALUE_LO, VALUE_HI. -/
structure Filter where
  kind : Nat
  lo : Nat
  hi : Nat
  deriving DecidableEq, Repr

/-- A read latch of one access path (R459): the slot it names, V1, V2 and CARRY as one word. -/
structure Latch where
  slot : Nat
  v1 : Nat
  v2 : Nat
  deriving DecidableEq, Repr

/-- The bandwidth window of a client port (R465): length, the TN at which the running window began (none until the next multiple,
after a realignment), octets so far per direction, BW_SEQ, and a length that waits for its next multiple. -/
structure BwWindow where
  window : Nat
  start : Option Nat
  ingress : Nat
  egress : Nat
  seq : Nat
  next : Option Nat
  deriving DecidableEq, Repr

/-- A snapshot image (R466): slots, the slots whose carry was pending, and its TN. -/
structure Image where
  slots : List (Nat × Nat)
  carries : List Nat
  imageTn : Nat
  deriving DecidableEq, Repr

/-- Something labelled with a tick to come that a filter or a bandwidth window counts: a grain that the hub moved toward the line, by its
calendar entry, engine, port and Pack, with its JC; ingress octets of a port; or an ingress frame of a port, by its class (Table 17.3). -/
inductive Coming where
  | grain (entry engine port : Nat) (pack : Option Nat) (jc : Nat)
  | octets (port n : Nat)
  | frame (port cls : Nat)
  deriving DecidableEq, Repr

/-- The counter array (R455 to R466): non-zero slots by rising index, the happenings of the running tick, carries on
their way to an upper member, chain heads, filters that are not OFF, bandwidth windows, latches, and the image. -/
structure Counters where
  slots : List (Nat × Nat)
  happened : List (Nat × Nat)
  /-- Counts of transmit data whose labelled tick has not ended: ticks still to go, slot, happenings (R33). -/
  later : List (Nat × Nat × Nat)
  /-- What was moved or arrived for a tick that has not ended, with the ticks still to go: the filters and windows of its labelled tick
  count it (R33, R464, R465). -/
  coming : List (Nat × Coming)
  carries : List Nat
  heads : List Nat
  filters : List (Nat × Filter)
  bw : List (Nat × BwWindow)
  latchPcie : Latch
  latchSpi : Latch
  latchFw : Latch
  image : Image
  /-- An image taken while dumps of the readable one ran, with those dumps by their places in parse order (R466). -/
  waiting : Option (Image × List Nat)
  snapSeq : Nat
  snapValid : Bool
  deriving DecidableEq, Repr

/-- States of a capture unit (R468). -/
inductive CapState where
  | idle | armed | filling | done
  deriving DecidableEq, Repr

/-- The capture unit and capture memory of a line tile (R467): listed octets are the non-zero ones. -/
structure Capture where
  source : Nat
  /-- SUB of CAP_SET: [9:8] engine, [3:0] lane or subcarrier. -/
  sub : Nat
  length : Nat
  /-- The trigger word: [31:28] TRIG_KIND, [15:0] code. -/
  trigger : Nat
  state : CapState
  /-- First tick of the capture, once its trigger has come. -/
  start : Option Nat
  trigTn : Nat
  /-- The number of its first tick, counted from reset. -/
  begun : Nat
  /-- What its ticks have given so far, each from its place in the data on. -/
  taken : List (Nat × List (BitVec 8))
  /-- Octets placed at its end. -/
  filled : Nat
  mem : List Host.Cell
  deriving DecidableEq, Repr

/-- STATE of a DMA channel (Table 17.6). -/
inductive DmaState where
  | idle | waiting | running | ended
  deriving DecidableEq, Repr

/-- END of a DMA channel (Table 17.7). -/
inductive DmaEnd where
  | none | done | doneWithError | sourceWithdrawn | descInvalid | aborted
  deriving DecidableEq, Repr

/-- A DMA channel: the registers of Table 17.6, what its read completions have staged, and its last completion
record (R473). -/
structure DmaChannel where
  hostLo : Nat
  hostHi : Nat
  devOffset : Nat
  lineLen : Nat
  lineCount : Nat
  hostStride : Nat
  devStride : Nat
  planeStride : Nat
  complLo : Nat
  complHi : Nat
  devSel : Bool
  tile : Nat
  intEn : Bool
  sext : Bool
  deint : Bool
  abort : Bool
  state : DmaState
  ended : DmaEnd
  linesDone : Nat
  bytesDone : Nat
  /-- Octets of a host-to-device channel received so far. -/
  staged : List Octet
  /-- Octets that a device-to-host channel sends, as far as they are known. -/
  out : List Octet
  /-- Octets that the last transfer wrote to the host, with their addresses (R471). -/
  placed : List (Nat × Octet)
  /-- A read completion came back bad, or a write failed (Table 17.7). -/
  bad : Bool
  withdrawn : Bool
  record : Option (List Word)
  deriving DecidableEq, Repr

/-- Brace (R480, R481): entry tick (counted in ticks since reset), and the deepest level in 0.1% below target. -/
structure Brace where
  entry : Nat
  /-- Tick of the latest warning, from which the wait of R481 runs at the earliest. -/
  warnedAt : Nat
  deepest : Nat
  deriving DecidableEq, Repr

/-- Condition of the firmware cores: held in reset, booting, running. -/
inductive FwState where
  | inReset | booting | running
  deriving DecidableEq, Repr

/-- State word of SHEPHERD_STATUS (R489). -/
inductive ShepState where
  | watching | restarting | held | stopped | lastResort
  deriving DecidableEq, Repr

/-- Firmware, the Shepherd and the last-resort timer (R485 to R489); instants are counted in ticks since reset. -/
structure Recovery where
  fw : FwState
  /-- The cores boot again when this tick count is reached (held for 1 ms, R487). -/
  bootAt : Option Nat
  bootStart : Nat
  fwBeat : Nat
  shepBeat : Nat
  kick : Nat
  expired : Bool
  headless : Option (Nat × Nat)
  shep : ShepState
  interventions : Nat
  lastCause : Nat
  /-- Cause of the restart under way, told by FW_RESTARTED. -/
  restartCause : Option Nat
  fwRestarts : List Nat
  shepRestarts : List Nat
  /-- EVENT_TN of the HEADLESS_ENTER that waits for the release of MGMT_RST_N (R419). -/
  enterOwed : Option Nat
  deriving DecidableEq, Repr

/-- Rails, brace, domain resets, pins, AVSBus and VBAT (R476 to R483, R497). -/
structure Power where
  warned : List (Domain × Rail)
  braceOn : Option Brace
  /-- Brace effects apply in this tick (R480). -/
  braceEffect : Bool
  inReset : List (Domain × Nat)
  perstLow : Bool
  mgmtRstLow : Bool
  sysRstLow : Bool
  avsTarget : Nat
  /-- The target before the latest step (R479). -/
  avsWas : Nat
  avsLast : Nat
  vddAux : Bool
  vbat : Bool
  vbatMv : Nat
  ocxo : Bool
  pcieRefclk : Bool
  /-- Last reading of the hottest sensor of each die, in 0.25 °C (R500). -/
  tj : Vector Int 18
  deriving DecidableEq, Repr

/-- States of the asymmetry calibration (R330). -/
inductive AsymState where
  | unset | valid | invalid
  deriving DecidableEq, Repr

/-- The route and asymmetry settings of one engine, kept in the Kennel (Tables 11.5 and 18.7). -/
structure RouteCfg where
  fibreAsym : Int
  farFeSkew : Int
  cdRef : Int
  /-- CD_TRK and RTD_TRK with 16 more fraction bits, which the tracking of R331 moves by. -/
  cdTrk : Int
  rtdRef : Int
  rtdTrk : Int
  routeRtdStep : Nat
  routeTrack : Nat
  routeCdStep : Nat
  routeLenTol : Nat
  asymState : AsymState
  deriving DecidableEq, Repr

/-- The Kennel settings image (Table 18.7). -/
structure Settings where
  epochSet : Bool
  domainSet : Bool
  bootPref : Bool
  trial : Bool
  /-- EPOCH_TAI in 2⁻¹⁶ ns. -/
  epochTai : Int
  utcOffset : Int
  leapDir : Int
  leapAt : Nat
  rtcTrim : Int
  ivGen : Nat
  odv : List Octet
  kek : List Octet
  binding : List Octet
  route : Vector RouteCfg 48
  deriving DecidableEq, Repr

/-- The life-record fields of one domain (Table 18.8). -/
structure LifeDomain where
  braceCount : Nat
  resets : Nat
  deepest : Nat
  deriving DecidableEq, Repr

/-- The life-record fields of one engine (Table 18.8). -/
structure LifeEngine where
  ucfTenths : Nat
  leashSat : Nat
  isolations : Nat
  deriving DecidableEq, Repr

/-- One intervention entry (Table 18.8). -/
structure Intervention where
  actor : Nat
  cause : Nat
  poh : Nat
  tn : Nat
  deriving DecidableEq, Repr

/-- One retirement entry (Table 7.4). -/
structure Retirement where
  engine : Nat
  /-- [4] converter, [3:2] lane, [1:0] sub-DAC, as the SUB of CONV_RETIRE. -/
  place : Nat
  unit : Nat
  reason : Nat
  /-- REPLACED_BY, 0xFF for none. -/
  replacedBy : Nat
  poh : Nat
  restored : Bool
  deriving DecidableEq, Repr

/-- The life record (Table 18.8). -/
structure LifeRecord where
  mirrorRestored : Bool
  poh : Nat
  powerUps : Nat
  sysResets : Nat
  mgmtResets : Nat
  persts : Nat
  avsFaults : Nat
  retireCount : Nat
  vbatLowCount : Nat
  /-- TJ_HIST by 16 × die + bin, the non-zero ones, rising. -/
  tjHist : List (Nat × Nat)
  thermalCycles : Vector Nat 18
  domains : Vector LifeDomain 20
  engines : Vector LifeEngine 48
  restartHeartbeat : Nat
  restartTrap : Nat
  restartBoot : Nat
  shepRestarts : Nat
  holds : Nat
  lastResorts : Nat
  interventions : List Intervention
  retirements : List Retirement
  deriving DecidableEq, Repr

/-- One die's thermal-cycle detector (R500): the extremes since the last turn, in 0.25 °C, and whether a maximum 40 °C
above the preceding minimum has been seen. -/
structure ThermalTrack where
  low : Int
  high : Int
  armed : Bool
  deriving DecidableEq, Repr

/-- The Kennel (R497 to R501) and the working storage of its controller. -/
structure Kennel where
  settings : Settings
  settingsCrc : Bool
  life : LifeRecord
  lifeCrc : Bool
  /-- Offsets of life-record fields whose saturation has been raised (R499). -/
  fullRaised : List Nat
  pohSeconds : Nat
  /-- Sub-counts of TJ_HIST by 16 × die + bin (R500). -/
  tjSub : List (Nat × Nat)
  thermal : Vector ThermalTrack 18
  ucfSeen : Vector Bool 48
  ucfSeconds : Nat
  /-- The real-time counter, in 2⁻¹⁶ ns of TAI, and whether it was kept (R315). -/
  rtc : Int
  /-- What the counter has passed beyond `rtc`, in 10⁻⁹ of its unit. -/
  rtcPart : Int
  rtcKept : Bool
  /-- The life-record mirror in the boot flash (R501, R523). -/
  mirror : Option LifeRecord
  /-- Retirement entries waiting to be written (R225). -/
  retireQueue : List Retirement
  deriving DecidableEq, Repr

/-- A pending capacity change of an engine (R119, R120): the capacity before it, the new one, which directions have
switched, and whether an announcement of it has received ACCEPTED. -/
structure CapChange where
  kOld : Nat
  kNew : Nat
  txDone : Bool
  rxDone : Bool
  accepted : Bool
  /-- The vector you supplied for K_new under LOAD_MODE MANUAL (R119). -/
  userVec : Option (List Nat)
  deriving DecidableEq, Repr

/-- Why an announcement was made. -/
inductive AnnWhy where
  | policy | manual | capacity | abort
  deriving DecidableEq, Repr

/-- A loading announcement of the transmitter (R113, R115). -/
structure Announce where
  seq : Nat
  k : Nat
  vec : List Nat
  loadTn : Nat
  /-- The sender aborts unless ACCEPTED came before this tick (R115). -/
  deadline : Nat
  firstTn : Nat
  /-- The one LOAD_TN of a Pack's capacity change, in place of the engine's own LOAD_LEAD (R252). -/
  givenTn : Option Nat
  /-- The first announcing frame has been assembled: `loadTn` and `deadline` are settled (R115). -/
  made : Bool
  accepted : Bool
  committed : Bool
  why : AnnWhy
  deriving DecidableEq, Repr

/-- A far-end announcement as last seen, with the count of identical frames accepted (R114). -/
structure SeenAnn where
  seq : Nat
  k : Nat
  loadTn : Nat
  vec : List Nat
  count : Nat
  deriving DecidableEq, Repr

/-- A vector armed at the receiver for a far-end TN (R114, R116). -/
structure ArmedVec where
  seq : Nat
  k : Nat
  loadTn : Nat
  vec : List Nat
  commitSeen : Bool
  deriving DecidableEq, Repr

/-- Loading of one engine: parameters (Table 3.7), the two vectors in force, announcement and evaluation. -/
structure Loading where
  mode : Nat
  interval : Nat
  intervalNext : Option Nat
  lead : Nat
  guard : Nat
  hyst : Nat
  maxSteps : Nat
  seq : Nat
  vecTx : List Nat
  /-- LOAD_SEQ and LOAD_TN carried with the vector in force (R78). -/
  curSeq : Nat
  curTn : Nat
  vecRx : List Nat
  ann : Option Announce
  /-- The transmitter returns to the default vector when it leaves Muzzle (R111). -/
  toDefault : Bool
  seen : Option SeenAnn
  ackSeq : Nat
  ackStatus : Nat
  armed : Option ArmedVec
  dropped : Option (List Nat)
  failRun : Nat
  trial : Nat
  /-- Sum of SNR_REPORT per subcarrier over the interval's accepted frames, their count, and whether any active
  subcarrier reported no estimate (R112). -/
  snrSum : List Int
  snrCount : Nat
  snrBad : Bool
  /-- The same of the last whole interval, which the policy averages. -/
  whole : Option (List Int × Nat × Bool)
  /-- TN of the policy's last run. -/
  ranAt : Option Nat
  deriving DecidableEq, Repr

/-- Muzzle states (Table 4.6). -/
inductive Muzzle where
  | muzzled | rampUp | unmuzzled | rampDown
  deriving DecidableEq, Repr

/-- MUZZLE_REASON (Table 4.7). -/
structure MuzzleReason where
  key : Bool
  power : Bool
  feFault : Bool
  fence : Bool
  heel : Bool
  config : Bool
  isolate : Bool
  mgmt : Bool
  deriving DecidableEq, Repr

/-- The last frame an engine assembled (R75): clear header, overhead octets 16 to 495, JC octets and slot octets. -/
structure SentFrame where
  tn : Nat
  header : List Octet
  overhead : List Octet
  jc : List Nat
  slots : List (List Octet)
  /-- The frame body as scrambling takes it: encrypted under GCM, with tag and pad (R58, R69). -/
  body : List Octet
  /-- The loading vector and layout that carry it. -/
  vec : List Nat
  layout : Nat
  deriving DecidableEq, Repr

/-- What shapes the samples of one frame (R124 to R141): the synthesis, correction and pre-compensation settings in force for it, its
ramp amplitude, and the neighbours whose streams contribute, by position. -/
structure Shaping where
  zr : Bool
  rollOff : Nat
  scPower : List Int
  xyBalance : Int
  dacBackoff : Int
  txSkew : List Int
  iqGain : List Int
  iqPhase : List Int
  dcOffset : List Int
  preActive : List Int
  nlcMode : Nat
  nlcGain : Nat
  nlcWindow : Nat
  nlcActive : List Word
  nbrs : List (Option Nat)
  amp : Rat
  deriving DecidableEq, Repr

/-- The transmitter of one engine (Transmit Signal Processing). -/
structure Transmit where
  rollOff : Nat
  scPower : List Int
  xyBalance : Int
  dacBackoff : Int
  txSkew : List Int
  iqGain : List Int
  iqPhase : List Int
  dcOffset : List Int
  preActive : List Int
  preShadow : List Int
  nlcMode : Nat
  nlcGain : Nat
  nlcWindow : Nat
  nlcWindowNext : Nat
  nlcActive : List Word
  nlcShadow : List Word
  /-- Tick count of the last clipping tick, none before the first or after the quiet time (R126). -/
  lastClip : Option Nat
  nbrTx : List Nat
  nbrRx : List Nat
  muzzle : Muzzle
  amp : Rat
  reason : MuzzleReason
  muzzleRamp : Nat
  rampNext : Option Nat
  untilHeel : Bool
  /-- The backward bits BDI, BAUTH, BSD and BPACK, in that order from bit 7, of the next frame (R377). -/
  backward : Nat
  sent : Option SentFrame
  /-- The frame that the DAC lanes carried in the tick before, whose last samples fall in this tick (R123). -/
  was : Option (SentFrame × Shaping)
  /-- In a loopback, the frame of the tick before as it was sent, ahead of the Muzzle (R492). -/
  looped : Option SentFrame
  /-- TTI being sent, one that waits for TN mod 4 = 0, and the TTI that the frame assembled last has replaced (R81). -/
  tti : List Octet
  ttiNext : Option (List Octet)
  ttiWas : Option (List Octet)
  opArea : List Octet
  svcTx : List Octet
  lck : Bool
  deriving DecidableEq, Repr

/-- Overhead taken from accepted far-end frames, which keeps its last accepted value (R93), and what the echo and
backward fields are made from (R76, R83). -/
structure Received where
  echoTn : Nat
  /-- ECHO_ARRIVAL in 2⁻¹⁶ ns. -/
  echoArrival : Int
  echoValid : Bool
  lastTn : Option Nat
  /-- A frame has been accepted since IN_FRAME was last entered (R359). -/
  heard : Bool
  /-- Arrival stamps of frames whose sync has been evaluated and which are not yet decoded, oldest first: TN_a and ARRIVAL in 2⁻¹⁶ ns;
  none for a frame whose sync was evaluated in CONFIRM (R193). -/
  stamps : List (Option (Nat × Int))
  /-- T_RX of the tick before, by which a stamp with that TN_a is made (R195). -/
  delayBefore : Int
  /-- Frames received since the previous accepted one (R94). -/
  framesSince : Nat
  txTime : Int
  txTimeValid : Bool
  /-- ECHO_VALID as the far end sent it. -/
  farEcho : Bool
  traceable : Bool
  tnProvisional : Bool
  clockClass : Nat
  clockAccuracy : Nat
  offsetVariance : Nat
  stepsRemoved : Nat
  snrReport : List Int
  ttiSegs : List (Option (List Octet))
  /-- The TTI set in assembly, its carried TNs over 4 (R375). -/
  ttiSet : Option Nat
  rxLck : Bool
  rxTest : Bool
  bdi : Bool
  bauth : Bool
  bsd : Bool
  bpack : Bool
  farBeiTn : Option Nat
  packOctets : List Octet
  opArea : Option (List Octet)
  svcRx : List Octet
  beiCw : Nat
  beiBits : Nat
  beiTn : Nat
  deriving DecidableEq, Repr

/-- Receive alignment states (Table 5.1). -/
inductive AcqState where
  | disabled | noSignal | search | confirm | inFrame | oof
  deriving DecidableEq, Repr

/-- The acquisition record latched at a sync detection (Table 5.3); powers in 0.1 dBFS, SNR in 0.1 dB, COARSE_FO in MHz,
ACQ_RESOLVE as eight nibbles. -/
structure AcqRecord where
  acqTn : Nat
  layout : Nat
  syncErrs : Nat
  rxPower : Int
  syncPower : Int
  snr : Int
  coarseFo : Int
  resolve : Nat
  deriving DecidableEq, Repr

/-- The Leash parameters of one engine (Table 5.6). -/
structure LeashCfg where
  enable : Bool
  gain : Nat
  stepMax : Nat
  deriving DecidableEq, Repr

/-- Acquisition and frame alignment of one engine; instants are counted in ticks since reset, the residual offset in
0.1 MHz. -/
structure Acquisition where
  state : AcqState
  lof : Bool
  syncTol : Nat
  layouts : List Nat
  layoutsNext : Option (List Nat)
  /-- ACQ_LAYOUTS has been written: else it is the default, the configured receive layout (R153). -/
  layoutsSet : Bool
  minPower : Int
  /-- The record as last latched, and that of the present candidate or of the alignment held (R157, R163). -/
  record : AcqRecord
  held : AcqRecord
  /-- Search candidates of the running pass are being tried in blind mode (R152). -/
  blind : Bool
  contestPower : Option Int
  contestSeen : Bool
  contestRaised : Bool
  /-- Received position, in symbols of the far end's timing, of the sync last judged (R151), and the position from which the search
  resumes after a rejected candidate (R161). -/
  position : Nat
  searchFrom : Nat
  missRun : Nat
  goodRun : Nat
  oofEntry : Nat
  searchStart : Nat
  noSyncRaised : Bool
  coarseFo : Int
  residual : Int
  recentre : Option Int
  lastStep : Option Nat
  limitRaised : Bool
  leash : LeashCfg
  leashNext : Option LeashCfg
  /-- Register value of the last Leash write (R170). -/
  leashWritten : Int
  atHeel : Bool
  heelMiss : Nat
  satRaised : Bool
  /-- COARSE_FO plus residual, in 0.1 MHz, of the last ticks in IN_FRAME in which it was measured, each with its tick count (R170). -/
  offsets : List (Nat × Int)
  /-- Tick count of the last Leash write. -/
  lastWrite : Option Nat
  deriving DecidableEq, Repr

/-- A CD bank: D in ps/nm, and CENTRE_N of the slot centre its filter was computed for (R181). -/
structure CdBank where
  d : Int
  centreN : Int
  deriving DecidableEq, Repr

/-- A cross-fade of X ticks: weight numerator of the new bank, and whether it rises or, in a reversal, falls
(R184, R185). -/
structure Fade where
  x : Nat
  w : Nat
  rising : Bool
  deriving DecidableEq, Repr

/-- The freeze conditions of Table 6.9, as flags. -/
structure FreezeFlags where
  lowPower : Bool
  noClock : Bool
  pilotOnly : Bool
  decodeFail : Bool
  brace : Bool
  deriving DecidableEq, Repr

/-- The receive estimates of Table 6.10, in their units. -/
structure Estimates where
  snr : List Int
  preFecBer : Nat
  cdEst : Int
  dgd : Nat
  pdl : Nat
  sopRate : Nat
  timingFo : Int
  deriving DecidableEq, Repr

/-- Equalisation and recovery of one engine; A in 1/64 sample. -/
structure Equaliser where
  rxSkew : List Int
  rxIqGain : List Int
  rxIqPhase : List Int
  rxFeAuto : Bool
  /-- RX_FE_AUTO from the next tick boundary (Table 6.1). -/
  rxFeAutoNext : Option Bool
  /-- The command waiting for its TN was accepted under RX_FE_AUTO, so writes no values (R180). -/
  rxFeKeep : Bool
  /-- RX_SKEW less the mean of the four, as applied, in 0.0025 ps (R180). -/
  skewApplied : List Int
  lastFeUpdate : Option Nat
  scanCentre : Int
  scanSpan : Nat
  scanNext : Option (Int × Nat)
  cdAuto : Bool
  trackThresh : Nat
  xfade : Nat
  delaySlew : Nat
  cdActive : CdBank
  cdShadow : Option CdBank
  /-- The shadow filter is still being computed (R183). -/
  cdLoading : Option CdBank
  fade : Option Fade
  align : Nat
  slewing : Bool
  residualRun : Nat
  eqMode : Nat
  eqMu : Nat
  trBw : Nat
  crAvg : Nat
  nbrCr : Bool
  nbrSop : Bool
  /-- The taps of each subcarrier's filters XX, XY, YX and YY, real and imaginary part in 2⁻¹⁶ (R189). -/
  taps : List (List (List (Int × Int)))
  /-- Tap centroids in 1/256 tap, one per subcarrier (R190). -/
  centroid : List Nat
  /-- Symbol alignment of each subcarrier, in its symbols (R190). -/
  symAlign : List Int
  /-- Slip-corrected pilot phases by stream, in 2⁻¹⁶ turn: the last 16 before the newest tick, and that tick's (R196). -/
  trail : List (List Int × List Int)
  /-- Refinement from the newest tick's decisions, by stream and pilot; none outside EQ_MODE DD (R196). -/
  refine : List (List Int)
  /-- Rotation rate and slipped subcarriers of the newest tick; none where its estimates are invalid (R196, R198, R200). -/
  newest : Option (Int × List Nat)
  /-- Carrier phase at the pilots of the tick before the newest, by stream, averaged and refined, in 2⁻¹⁶ turn (R196). -/
  phases : List (List Int)
  /-- Quarter-turn slip corrections in force, by stream, in 2⁻¹⁶ turn (R196). -/
  slipFix : List Int
  /-- Estimates published for the neighbours, of the tick that `phases` is of: nonlinear phase of SC0 and of SC7, rotation rate, whether
  they are valid, and the subcarriers with a cycle slip (R196 to R200). -/
  edgePhase : Int × Int
  rotRate : Int
  nbrValid : Bool
  slipped : List Nat
  /-- Neighbour estimates used in this tick: priors of SC0 and of SC7, and rotation rates fed to the equaliser (R197). -/
  priorLow : List Int
  priorHigh : List Int
  sopFeed : List Int
  /-- Uncorrected frames among the last decoded, up to 4, since the last corrected one (Table 6.9). -/
  decodeFails : Nat
  /-- Tick count of the last residual-CD estimate (R188). -/
  estimatedAt : Option Nat
  /-- Signal and error power over the pilots of each subcarrier, in the last 64 ticks in frame that were not frozen, newest first
  (R202). -/
  pilotPow : List (List (Nat × Nat))
  freeze : FreezeFlags
  absent : List Nat
  freezeStart : Option Nat
  /-- Ticks frozen since then. -/
  frozenTicks : Nat
  est : Estimates
  deriving DecidableEq, Repr

/-- A converter unit (Table 7.1): an ADC slice of a lane, or a unary segment of a sub-DAC. -/
structure UnitRef where
  dac : Bool
  lane : Nat
  sub : Nat
  unit : Nat
  deriving DecidableEq, Repr

/-- A pool of interchangeable units: the 96 positions of an ADC lane, or a sub-DAC's segments (Table 7.1). `inService`
is by position for an ADC, longest-serving first for a sub-DAC; `spare` is in the order they are used. -/
structure UnitPool where
  inService : List Nat
  spare : List Nat
  ready : List Nat
  retired : List Nat
  /-- Consecutive failures by 4 × unit + value (0 offset, 1 gain, 2 skew, 3 weight). -/
  fails : List (Nat × Nat)
  /-- Consecutive passing windows of a spare, up to 2 (R219). -/
  passes : List (Nat × Nat)
  deriving DecidableEq, Repr

/-- A unit due for retirement: cause of Table 7.4, the tick count from which it may be made, and whether CONV_NO_SPARE has
been raised for it. -/
structure DueUnit where
  unit : UnitRef
  cause : Nat
  fromTick : Nat
  raised : Bool
  /-- Its entry is already in the life record, and its swap waits for the tile to be unfenced. -/
  recorded : Bool
  deriving DecidableEq, Repr

/-- A calibration result waiting to be applied: unit, value, result in 1/16 of the format's unit, and the window's mean
temperature in 0.25 °C. -/
structure CalPending where
  unit : UnitRef
  value : Nat
  result : Int
  temp : Int
  deriving DecidableEq, Repr

/-- Sums over the samples of one ADC slice in a window (R213): samples, their sum and the sum of squares, and the sums of products with
the position before and with the position after, with their counts. -/
structure SliceSums where
  n : Nat
  sum : Int
  sq : Int
  before : Int
  beforeN : Nat
  after : Int
  afterN : Nat
  deriving DecidableEq, Repr

/-- Sums over the observed samples of one sub-DAC in a window (R214): observations, sums of codes, of outputs, of squared codes, of their
products, of the output error times the step to the output that follows, of squared steps; and by the code's upper four bits the
observations and the sum of output errors. -/
structure SubSums where
  n : Nat
  code : Int
  out : Int
  codeSq : Int
  codeOut : Int
  errStep : Int
  stepSq : Int
  upper : List (Nat × Nat × Int)
  deriving DecidableEq, Repr

/-- Calibration parameters of one engine (Table 7.3). -/
structure CalCfg where
  adc : Bool
  dac : Bool
  window : Nat
  autoRetire : Bool
  deriving DecidableEq, Repr

/-- The line converters of one engine. -/
structure Converter where
  cfg : CalCfg
  cfgNext : Option CalCfg
  /-- Ticks of the running window that qualified, for the ADC and the DAC, and the ticks so far. -/
  qualAdc : Nat
  qualDac : Nat
  winTicks : Nat
  winRunning : Bool
  /-- A window that ended with the tick before: its last TN, and whether each half is valid. -/
  ended : Option (Nat × Bool × Bool)
  /-- Sums of the window by 104 × lane + slice, and by 4 × lane + sub-DAC (R213, R214). -/
  adcSums : List (Nat × SliceSums)
  dacSums : List (Nat × SubSums)
  /-- Sensor readings of the window: their sum in 0.25 °C and their number, and the mean of the window being checked (R216). -/
  tempSum : Int
  tempReads : Nat
  meanTemp : Int
  /-- The positions that the spares shadowed in the window being checked. -/
  shadowWas : List Nat
  waiting : List CalPending
  applyAt : Option Nat
  /-- Earlier windows whose apply boundary is deferred to the same one (Table 7.6). -/
  applyMore : Nat
  /-- The pools before the checks of the window that waits to be applied, the ADC's first: a layer loaded at its apply boundary
  makes its results count as neither pass nor fail (Table 7.6). -/
  prior : List UnitPool
  adc : Vector UnitPool 4
  /-- Sub-DAC d of lane l at 4 l + d. -/
  dac : Vector UnitPool 16
  due : List DueUnit
  /-- Units for which CONV_RETIRE_DUE has been raised (R221). -/
  dueTold : List UnitRef
  /-- Position shadowed by the spares of each lane (R219). -/
  shadowPos : List Nat
  /-- Learned values that differ from the factory layer, by word index 1,568 t + 392 l + v of Table 7.9. -/
  learned : List (Nat × Int)
  /-- A loaded layer that takes effect at the next tick boundary. -/
  learnedNext : Option (List (Nat × Int))
  /-- Sensor reading in 0.25 °C, and one that applies from the next tick boundary (R211). -/
  temp : Int
  tempNext : Option Int
  deriving DecidableEq, Repr

/-- The fine-tune register of a front-end profile (R169, Table 16.5). -/
structure FineTune where
  addr : Nat
  width : Nat
  scaleKhz : Nat
  /-- TUNE_SIGN: a positive step lowers the optical frequency. -/
  negative : Bool
  deriving DecidableEq, Repr

/-- A defined bias loop of a profile (Table 16.5). -/
structure BiasLoop where
  num : Nat
  width : Nat
  mon : Nat
  addr : Nat
  least : Nat
  greatest : Nat
  init : Nat
  target : Nat
  invert : Bool
  shift : Nat
  thresh : Nat
  count : Nat
  period : Nat
  deriving DecidableEq, Repr

/-- A front-end profile (R445): the squelch register as address, width, assert and release value; the fine-tune register; the
fault register as address, width, mask and poll period; the loops. -/
structure FeProfile where
  squelch : Option (Nat × Nat × Nat × Nat)
  fineTune : Option FineTune
  fault : Option (Nat × Nat × Nat × Nat)
  loops : List BiasLoop
  deriving DecidableEq, Repr

/-- What a transaction of the front-end bus serves (R444). -/
inductive FeOrigin where
  | squelch | fineTune | loop | poll
  /-- FE_BUS_ACCESS, with its place in parse order. -/
  | access (seq : Nat)
  deriving DecidableEq, Repr

/-- One transaction of a front-end control bus (R443). -/
structure FeTxn where
  origin : FeOrigin
  write : Bool
  addr : Nat
  width : Nat
  value : Nat
  deriving DecidableEq, Repr

/-- A running bias loop (R446): its number, the value last written, consecutive runs pinned beyond the threshold, the tick of its
last run. -/
structure LoopRun where
  num : Nat
  written : Nat
  pinned : Nat
  lastRun : Nat
  deriving DecidableEq, Repr

/-- The front-end control of one engine (R443 to R447); instants are counted in ticks since reset. -/
structure FrontEnd where
  profile : Option FeProfile
  loops : List LoopRun
  /-- Transactions that wait for the bus, in arrival order. -/
  queue : List FeTxn
  /-- Transactions served in the tick `servedAt`, in their order on the bus. -/
  served : List FeTxn
  servedAt : Nat
  lastPoll : Nat
  /-- The latest poll found a fault, or a loop is pinned. -/
  pollFault : Bool
  loopFault : Bool
  deriving DecidableEq, Repr

/-- The cause of a front-end fault is present. -/
def FrontEnd.faultPresent (f : FrontEnd) : Bool := f.pollFault || f.loopFault

/-- A conversion in progress (R436): local input, regular step or injected, whether its result is queued, its start, whether it is
the last of a ONCE sequence (R435), and the CH_OFFSET and CH_GAIN that correct it (R432). -/
structure Conversion where
  input : Nat
  step : Option Nat
  toQueue : Bool
  delayed : Bool
  startTn : Nat
  ends : Bool
  corr : Int × Nat
  deriving DecidableEq, Repr

/-- An injected request (R437, R439): local input, whether calibration held it, and the tick of its request. -/
structure Inject where
  input : Nat
  held : Bool
  /-- A calibration that has ended held it: its result has DELAYED set. -/
  delayed : Bool
  asked : Nat
  deriving DecidableEq, Repr

/-- Self-calibration (R439): none, waiting for earlier work, or running since a tick. -/
inductive MonCal where
  | none | waiting | running (since : Nat)
  deriving DecidableEq, Repr

/-- The entry of the latest-value table (R436), and the tick count of the conversion. -/
structure Latest where
  v : Nat
  overrange : Bool
  tn16 : Nat
  doneAt : Option Nat
  deriving DecidableEq, Repr

/-- A monitor converter (R431 to R442). -/
structure MonConv where
  seq : List Nat
  /-- Sequence running: CONTINUOUS when true, ONCE when false. -/
  run : Option Bool
  nextStep : Nat
  current : Option Conversion
  stalled : Bool
  /-- Stalled time not yet counted, in 0.2 µs. -/
  stallAcc : Nat
  injected : List Inject
  cal : MonCal
  calValid : Bool
  calOffset : Int
  calGain : Nat
  /-- CH_OFFSET and CH_GAIN per local input. -/
  corr : Vector (Int × Nat) 64
  latest : Vector Latest 64
  testDac : Nat
  /-- A test DAC code that has not taken effect, with the tick count of its command (R433, R44). -/
  testDacNext : Option (Nat × Nat)
  /-- The last result of the test DAC's input that R433 judges lies outside the healthy band. -/
  pathFault : Bool
  /-- Held requests of the last calibration: how many, how many have not started, the longest wait of one to its start, in ticks,
  and the delay in µs that its end told (R440). -/
  heldCount : Nat
  heldLeft : Nat
  heldLongest : Nat
  heldTold : Nat
  /-- A MON_SEQ_START whose TN fell in calibration. -/
  startWait : Option Bool
  queue : List Nat
  hi : Nat
  wm : Watermark
  deriving DecidableEq, Repr

/-- The source of a telemetry chain (R448). -/
inductive TlmSource where
  | none | monitor (mi : Nat) | estimate (engine code : Nat)
  deriving DecidableEq, Repr

/-- Configuration of a telemetry chain (TLM_CHAIN_SET): the overflow word is kept as given. -/
structure TlmCfg where
  source : TlmSource
  sourceWord : Nat
  cic : Nat
  hb1 : Bool
  hb2 : Bool
  fir : Nat
  overflow : Nat
  deriving DecidableEq, Repr

/-- A telemetry chain (R448 to R453). A sample in a delay line carries its STALE mark. -/
structure TlmChain where
  cfg : TlmCfg
  integ : List Int
  comb : List Int
  hb1Mem : List (Rat × Bool)
  hb2Mem : List (Rat × Bool)
  firMem : List (Rat × Bool)
  /-- Inputs of each stage since the reset. -/
  counts : List Nat
  lastStale : Option Nat
  lastSample : Int
  sampledAt : Option Nat
  outputs : Nat
  active : List Int
  shadow : Option (List Int)
  swapPending : Bool
  lastSat : Option Nat
  deriving DecidableEq, Repr

/-- The telemetry output queue (R441). -/
structure TlmQueue where
  queue : List Nat
  /-- Outputs held while the queue is full (R411). -/
  waiting : List Nat
  hi : Nat
  wm : Watermark
  deriving DecidableEq, Repr
/-- A 257-bit block of a client stream (R244), or an error block of four Ethernet error control blocks. -/
abbrev Block := Option (BitVec 257)

/-- A grain of one tick (R46, R244): its JC octet and its 128 octets. -/
structure Grain where
  jc : Nat
  octets : List Octet
  deriving DecidableEq, Repr

/-- The guard of a calendar swap (R240): its TN, the labels poisoned, and the changed slots as engine and line slot. -/
structure Guard where
  swapTn : Nat
  first : Nat
  last : Nat
  slots : List (Nat × Nat)
  deriving DecidableEq, Repr

/-- The calendar (R229 to R243): both banks as non-zero entries by rising index, parity bookkeeping, guards. -/
structure Calendar where
  active : List (Nat × Nat)
  shadow : List (Nat × Nat)
  /-- The six odd parity bits stored with each entry of the two banks, where they differ from those of an EMPTY entry (R231). -/
  activeParity : List (Nat × Nat)
  shadowParity : List (Nat × Nat)
  /-- Frozen entries of the active bank. -/
  frozen : List Nat
  /-- Entries never read correctly since the bank became active. -/
  unread : List Nat
  /-- Entries whose CAL_PARITY has been raised. -/
  told : List Nat
  /-- Entries of the shadow bank marked bad. -/
  bad : List Nat
  /-- Entries treated as EMPTY in this tick. -/
  dead : List Nat
  guards : List Guard
  /-- The swap that was pending when the present tick began: its guard may run (R240). -/
  preGuard : Option Armed
  /-- Tick count at which the active bank became active. -/
  since : Nat
  deriving DecidableEq, Repr

/-- The block queue of one client in a receive store (R247 to R249). -/
structure StoreQueue where
  port : Nat
  blocks : List Block
  /-- Blocks of the client's previous tick. -/
  prevN : Nat
  /-- Refilling: no output until the fill reaches STORE_TARGET. -/
  filling : Bool
  /-- JC errors of ticks whose blocks are in the queue, with the blocks ahead of them; and those of blocks that a flush threw away, which
  the next output counts (R33, R244). -/
  jcErrs : List (Nat × Nat)
  jcGone : Nat
  deriving DecidableEq, Repr

/-- A receive elastic store (Table 8.4, R250): target in 1/16 tick, the queues, frames whose first blocks have not left with the
blocks ahead of them, the last label offset, RX_STORE in 1/256 tick. -/
structure Store where
  target : Nat
  queues : List StoreQueue
  marks : List (Nat × Nat)
  labelOffset : Int
  rxStore : Nat
  deriving DecidableEq, Repr

/-- One member's frame in the deskew pool: position, tick of arrival, PACK_GEN carried, and its slots, none for a discarded
frame (R255, R257). -/
structure PackPart where
  position : Nat
  arrived : Nat
  gen : Nat
  /-- Its Pack fields agree with the local configuration (R257). -/
  ok : Bool
  /-- None for a discarded frame. -/
  slots : Option (List Grain)
  deriving DecidableEq, Repr

/-- A Pack frame in the deskew pool (R255): carried TN, the tick of its first member, and the members' parts. -/
structure PackFrame where
  frameTn : Nat
  first : Nat
  parts : List PackPart
  deriving DecidableEq, Repr

/-- A Pack (R251 to R257). An empty member list is no Pack. -/
structure Pack where
  members : List Nat
  gen : Nat
  skewMax : Nat
  /-- K_new of a pending capacity change, and the members that have not completed theirs. -/
  capPending : Option (Nat × List Nat)
  store : Store
  pool : List PackFrame
  /-- The last 64 frames released from the pool: carried TN, the tick of the first member, and the PACK_GENs of its accepted member
  frames (R255, R257). -/
  released : List (Nat × Nat × List Nat)
  /-- Frames released in this tick, and member frames that came after the release of their frame, with its carried TN: PACK-SKEW and
  PACK-MISMATCH are evaluated by them at the tick's end (R256, R257, R371). -/
  judged : List PackFrame
  late : List (Nat × PackPart)
  /-- Skew per member in ticks, and the largest of the last second with the running one's. -/
  skews : List Nat
  largest : List Nat
  running : List Nat
  skewPresent : Bool
  /-- Consecutive released frames with every member present. -/
  goodRun : Nat
  mismatchPresent : Bool
  failRuns : List Nat
  passRuns : List Nat
  reported : List PackDefect
  /-- Pack signal fail (R380): since which tick, with the hold-off of its entry, and whether local fault is in force. -/
  psf : Option (Nat × Nat)
  psfFault : Bool
  deriving DecidableEq, Repr

/-- Time core states (Table 10.4). -/
inductive TimeState where
  | freerun | acquiring | locked | holdover
  deriving DecidableEq, Repr

/-- States of a candidate (R305). -/
inductive CandState where
  | disqualified | qualifying | qualified
  deriving DecidableEq, Repr

/-- A time source (R304). -/
inductive TimeSrc where
  | none | pps (n : Nat) | engine (e : Nat) | port (p : Nat)
  deriving DecidableEq, Repr

/-- A candidate of the list: instants are counted in ticks since reset. -/
structure Candidate where
  src : TimeSrc
  st : CandState
  /-- Since when its conditions hold without a break. -/
  since : Nat
  qualifiedAt : Nat
  /-- QUAL_TIME and WTR_TIME in force for this qualification, in seconds. -/
  qualTime : Nat
  wtr : Nat
  deriving DecidableEq, Repr

/-- The parameters of Table 10.3, in its step units. -/
structure TimeParams where
  ki : Nat
  slewMax : Nat
  stepPolicy : Nat
  stepThresh : Nat
  lockPhase : Nat
  qualTime : Nat
  revertive : Nat
  wtr : Nat
  holdoverAvg : Nat
  holdoverTrace : Nat
  utcSource : Nat
  deriving DecidableEq, Repr

/-- The quality values of a source, or of the device (Table 10.5). -/
structure Quality where
  clockClass : Nat
  accuracy : Nat
  variance : Nat
  steps : Nat
  deriving DecidableEq, Repr

/-- A received ToD sentence (Table 10.6). -/
structure Sentence where
  sec : Nat
  utcOff : Int
  leapDir : Int
  leapAt : Nat
  stat : Nat
  quality : Quality
  deriving DecidableEq, Repr

/-- A PPS input (R310); instants of pulses are core time in 2⁻¹⁶ ns. -/
structure PpsIn where
  falling : Bool
  delay : Int
  gate : Nat
  last : Option Int
  /-- The latest instant at which a pulse was found missing. -/
  missedAt : Option Int
  missRun : Nat
  outRun : Nat
  /-- Consecutive seconds without a valid sentence. -/
  silentRun : Nat
  deriving DecidableEq, Repr

/-- A ToD input (R312 to R314): its rate, the last valid sentence's SEC with the instant of the pulse it named, and the sentence
that waits for its pulse. -/
structure TodIn where
  baud : Nat
  /-- A pulse has been received since the last settings of the input: sentence windows exist. -/
  windowed : Bool
  last : Option (Nat × Int)
  waiting : Option (Sentence × Int)
  deriving DecidableEq, Repr

/-- Settings of a PPS output (R311); width in µs. -/
structure PpsCfg where
  enable : Bool
  activeLow : Bool
  width : Nat
  delay : Int
  always : Bool
  deriving DecidableEq, Repr

/-- A PPS output: settings in force, settings from the next whole second with the second from which they hold, the last whole
second handled and its last emission. -/
structure PpsOut where
  cfg : PpsCfg
  next : Option (PpsCfg × Int)
  second : Int
  emitted : Option Int
  deriving DecidableEq, Repr

/-- TOD_OUT (R312, R313): rate, sequence, STEPPED pending, last second named, last line sent. -/
structure TodOut where
  baud : Nat
  seq : Nat
  stepped : Bool
  second : Int
  line : List Octet
  deriving DecidableEq, Repr

/-- The time snapshot block (Table 10.8): the request, SNAP_SEQ, the flags of word 0x004 below SNAP_SEQ, and the data registers. -/
structure SnapRegs where
  req : Bool
  /-- Tick count at which SNAP_REQ was set. -/
  reqAt : Nat
  seq : Nat
  flags : Nat
  tn : Nat
  offset : Nat
  freq : Int
  deriving DecidableEq, Repr

/-- FREQ_REF (Table 11.8). -/
inductive FreqRef where
  | same | line (e : Nat) | synce (p : Nat) | free
  deriving DecidableEq, Repr

/-- The frequency reference (R334, R335): setting and what takes its place at the next boundary, FREQ_BW in 0.01 Hz, qualified, and
since when its conditions hold. -/
structure FreqSel where
  ref : FreqRef
  bw : Nat
  qualified : Bool
  since : Option Nat
  lastLoop : Nat
  /-- Sum of the LINE reference's TIMING_FO over the ticks since the last loop update, in 0.001 ppb, and those ticks (R334). -/
  errSum : Int
  errTicks : Nat
  deriving DecidableEq, Repr

/-- The Cheirte time core. FREQ_CTRL and the demand are in 1/1,024 of 0.001 ppb, times in 2⁻¹⁶ ns, instants in ticks since reset. -/
structure TimeCore where
  state : TimeState
  params : TimeParams
  candidates : List Candidate
  selected : Option TimeSrc
  goodRun : Nat
  badRun : Nat
  everLocked : Bool
  traceable : Bool
  freqTraceable : Bool
  timeValid : Bool
  /-- TIME_UNCERT as last set, in 2⁻¹⁶ ns, and when. -/
  uncert : Int
  uncertAt : Nat
  quality : Quality
  /-- Until when HOLDOVER_TRACE keeps TRACEABLE. -/
  traceUntil : Option Nat
  prevMeas : Option Nat
  /-- A measurement delivered by a source and not yet taken by the servo. -/
  meas : Option (TimeSrc × Int)
  /-- The phase error of a decided step, and the tick count at which the servo last decided. -/
  stepDue : Option Int
  measAt : Nat
  /-- Previous measurement, runs of good and bad ones, and demand before the measurement that decided it (Table 10.9). -/
  beforeStep : Option Nat × Nat × Nat × Int
  /-- STEPS_REMOVED as last advertised in LOCKED (Table 10.5). -/
  lastSteps : Nat
  /-- What is left of an ordered slew (R301). -/
  slew : Int
  oscFreq : Nat
  /-- Tick count at which the timebase has relocked (R296). -/
  relockAt : Option Nat
  oscNext : Nat
  oscLost : Bool
  applied : Int
  demand : Int
  freqLimit : Bool
  limitClearedAt : Option Nat
  /-- Applied values from a tick on, and whether the core was LOCKED, newest first (R308). -/
  history : List (Nat × Int × Bool)
  freq : FreqSel
  pps : Vector PpsIn 2
  tod : Vector TodIn 2
  ppsOut : Vector PpsOut 4
  todOut : TodOut
  snap : SnapRegs
  deriving DecidableEq, Repr

/-- Why a realignment is scheduled (Table 1.3). -/
inductive RealignKind where
  | firstLock | provisional | force
  deriving DecidableEq, Repr

/-- A scheduled realignment (R37): its reason, whether EPOCH_STATE was SET, the TAI second it waits for, when it was decided, and the
tick count of the boundary it is scheduled for. -/
structure Realign where
  kind : RealignKind
  fromSet : Bool
  second : Option Int
  decided : Nat
  dueAt : Nat
  deriving DecidableEq, Repr

/-- What the last measurement interval gave (LTT_STATUS). -/
structure LttResult where
  endTn : Nat
  eps : Int
  rtd : Int
  n : Nat
  epsZero : Int
  delivered : Bool
  void : Bool
  deriving DecidableEq, Repr

/-- Sums over a second, for the delay certificate and the route checks (R327, R331): ticks with the receiver IN_FRAME, ticks with
the transmitter not MUZZLED, ticks with a valid CD_EST, and sums of CD_EST, eps, rtd and the certificate's varying items. -/
structure SecondSums where
  ticks : Nat
  inFrame : Nat
  txOpen : Nat
  cdValid : Nat
  cdSum : Int
  raw : Nat
  epsSum : Int
  rtdSum : Int
  isolated : Bool
  /-- TX_MAP, TX_PE_GD, TX_CONV, RX_CONV, RX_CD, RX_EQ, RX_DESKEW, RX_STORE, RX_HOST. -/
  items : List Int
  deriving DecidableEq, Repr

/-- Line time transfer of one engine (R318 to R332). -/
structure Ltt where
  interval : Nat
  intervalNext : Option Nat
  minFill : Nat
  minFillNext : Nat
  maxSteps : Nat
  allowClear : Bool
  feTx : Int
  feRx : Int
  feNext : Option (Int × Int)
  certNotify : Bool
  /-- TN, TX_TIME and TX_TIME_VALID of the frames sent, newest first (R320). -/
  history : List (Nat × Int × Bool)
  epsSum : Int
  rtdSum : Int
  zeroSum : Int
  count : Nat
  /-- A void cause occurred in this interval, and in the one before; a realignment cut the running interval. -/
  voidNow : Bool
  voidBefore : Bool
  /-- The last interval of the selected source was void only because LTT_INTERVAL changed (Table 11.12). -/
  resized : Bool
  cut : Bool
  result : LttResult
  /-- Tick count of the last delivered measurement. -/
  deliveredAt : Option Nat
  /-- Carried TN and TX_TIME of the last accepted frame (R323). -/
  farPrev : Option (Nat × Int)
  /-- delta's asymmetry values in force since the running interval began (R332). -/
  asymNow : Int × Int
  sums : SecondSums
  /-- Mean CD_EST and rtd of the last complete second that qualified, and whether the last complete second did. -/
  lastQual : Int × Int
  lastOk : Bool
  routeFlags : Nat
  certSeq : Nat
  cert : List Octet
  deriving DecidableEq, Repr

/-- States of a PTP port (R339): those of IEEE 1588-2019, with its transmitter and receiver names. -/
inductive PtpState where
  | initializing | faulty | disabled | listening | preTransmitter | transmitter | passive | uncalibrated | receiver
  deriving DecidableEq, Repr

/-- PTP settings of a port (Table 11.10); asymmetry in ps. -/
structure PtpCfg where
  profile : Nat
  role : Nat
  twoStep : Bool
  domain : Nat
  prio1 : Nat
  prio2 : Nat
  localPrio : Nat
  logSync : Int
  logDelayReq : Int
  logAnnounce : Int
  timeout : Nat
  asym : Int
  meas : Int
  mac : Nat
  deriving DecidableEq, Repr

/-- What an Announce message says, with the port identity of its sender. -/
structure PtpAnnounce where
  sender : Nat
  flags : Nat
  utcOffset : Int
  prio1 : Nat
  quality : Quality
  prio2 : Nat
  gm : Nat
  timeSource : Nat
  deriving DecidableEq, Repr

/-- A foreign time transmitter: its latest Announce and the tick counts of its last ones. -/
structure Foreign where
  ann : PtpAnnounce
  seen : List Nat
  deriving DecidableEq, Repr

/-- The PTP port of a client port (R339 to R344). -/
structure PtpPort where
  cfg : PtpCfg
  state : PtpState
  foreign : List Foreign
  parent : Option PtpAnnounce
  seqSync : Nat
  seqDelay : Nat
  seqAnnounce : Nat
  /-- A two-step Sync that waits for its Follow_Up: sequence, t2, correction. -/
  syncWait : Option (Nat × Int × Int)
  /-- t1 (corrected) and t2 of the last Sync. -/
  sync : Option (Int × Int)
  /-- The Delay_Req in flight: its sequence and t3 once sent. -/
  delayWait : Option (Nat × Option Int)
  /-- Mean path delay and exchanges of the running period: offset sum and count. -/
  offSum : Int
  offCount : Nat
  lastOffset : Int
  second : Int
  received : Nat
  /-- Tick counts: last Announce of the parent or entry into LISTENING, last own messages, last period end, last void. -/
  heardAt : Nat
  syncAt : Nat
  announceAt : Nat
  delayAt : Nat
  measAt : Nat
  voidAt : Option Nat
  /-- Received QL as SSM code and enhanced code with its tick count, and transmitted QL. -/
  rxQl : Option (Nat × Nat × Nat)
  txQl : Nat × Nat
  /-- Tick count of the last received PDU with a QL other than DNU (R335). -/
  qlHeardAt : Option Nat
  /-- The QL that the last event PDU told of (R337). -/
  eventQl : Nat × Nat
  /-- Tick count at which PRE_MASTER ends (IEEE 1588). -/
  transmitFrom : Nat
  /-- Messages sent in a whole TAI second (R341). -/
  sentSecond : Int
  sent : Nat
  esmcAt : Nat
  deriving DecidableEq, Repr

/-- A LOADED key slot (R353). -/
structure KeySlot where
  key : List Octet
  id : Nat
  expiry : Nat
  deriving DecidableEq, Repr

/-- Line encryption of one engine (R348 to R359): slots in the order TX0, TX1, RX0, RX1; the expected index in EXPECT mode; a
pending receive switch; for each receive slot the tick count of the last frame accepted under it. -/
structure KeyState where
  none : Bool
  linkSide : Bool
  slots : Vector (Option KeySlot) 4
  index : Nat
  expect : Option Nat
  rxSwitch : Option (Nat × Nat)
  used : Vector (Option Nat) 2
  deriving DecidableEq, Repr

/-- A firmware or Shepherd slot of the boot flash, or an image that runs (R366): FW_VERSION, SVN and length of its header, and SHA-384 of
the image's octets (R365). -/
structure FwSlot where
  valid : Bool
  version : Nat
  svn : Fin 65
  length : Nat
  digest : List Octet
  deriving DecidableEq, Repr

/-- The Tag block, firmware slots and the test port (R361 to R368). -/
structure Security where
  testOpen : Bool
  challenge : Option (List Octet)
  fw : Vector FwSlot 2
  shep : Vector FwSlot 2
  /-- Images the cores and the Shepherd run. -/
  running : FwSlot
  shepRunning : FwSlot
  /-- Rollback fuses burnt (R366). -/
  rollback : Fin 65
  /-- Reports and responses being signed: place in parse order, result words. -/
  signing : List (Nat × List Word)
  /-- The running image is a trial that has not reported running (R367). -/
  trialBoot : Bool
  deriving DecidableEq, Repr

/-- Isolation of an engine (R490). -/
structure Iso where
  squelch : Bool
  loopback : Nat
  pattern : Bool
  deriving DecidableEq, Repr

/-- Reasons of HL_FREEZE (R273, R274). -/
inductive FreezeReason where
  | density | levels | brace
  deriving DecidableEq, Repr

/-- A host lane (R261, R263, R272 to R283). -/
structure HostLane where
  txInvert : Bool
  rxInvert : Bool
  invertNext : Option (Bool × Bool)
  tdFloor : Nat
  tdFloorNext : Option Nat
  /-- Held by a short window, and held by brace. -/
  shortHold : Bool
  braceHold : Bool
  goodWindows : Nat
  /-- Windows since the freeze began. -/
  heldWindows : Nat
  loopback : Nat
  generator : Nat
  checker : Nat
  locked : Bool
  /-- Tick count at which the generator started, and whether the checker has locked within the running window (R282, R283). -/
  generatedFrom : Nat
  lockedInside : Bool
  /-- Transmit taps c(−4) to c(+1) in force, in 1/128 (R271). -/
  txFfe : List Int
  /-- The receiver (R272): CTLE peaking in 0.5 dB steps, FFE and DFE taps in 2⁻¹⁶, and the CDR's frequency integrator and phase. -/
  ctle : Nat
  rxFfe : List Int
  dfe : List Int
  cdrFreq : Int
  cdrPhase : Int
  deriving DecidableEq, Repr

/-- What a host lane sends at its land (Tables 9.3 and 9.6). -/
inductive LaneDrive where
  | idle | training | pcs | pattern (n : Nat) | recovered
  deriving DecidableEq, Repr

/-- What a host lane receives (Table 9.6): what its partner sends, or its own transmit side in a near loopback. -/
inductive LaneInput where
  | partner | own (d : LaneDrive)
  deriving DecidableEq, Repr

/-- A host tile (R267, R290). -/
structure HostTile where
  /-- SYNTONISED; else COMMON_REF. -/
  syntonised : Bool
  refclk : Bool
  /-- Extracted frames waiting for the firmware cores: port, ESMC or PTP, octets, ingress timestamp. -/
  waiting : List (Nat × Bool × List Octet × Int)
  deriving DecidableEq, Repr

/-- Port states (Table 9.3). -/
inductive PortState where
  | disabled | training | aligning | up | holdoff | test
  deriving DecidableEq, Repr

/-- A frame waiting for insertion (R291, R292): octets, where its timestamp is written, what it is for, the tick it was queued. -/
structure OutFrame where
  octets : List Octet
  stampAt : Option Nat
  purpose : Nat
  queuedAt : Nat
  deriving DecidableEq, Repr

/-- The training round of a port (R275 to R279); instants are counted in ticks since reset. -/
structure Round where
  /-- Attempts begun, 0 with no round in progress. -/
  attempts : Nat
  fixed : Bool
  fallback : Bool
  started : Nat
  /-- TRAIN_TIMEOUT in ms of the running attempt, FALLBACK_EN of the round. -/
  timeout : Nat
  fallbackEn : Bool
  causes : List Nat
  firstLane : Option Nat
  alignStart : Nat
  holdStart : Nat
  holdFor : Nat
  deriving DecidableEq, Repr

/-- The frame tap of a port (R288 to R292). -/
structure Tap where
  ptp : Bool
  esmc : Bool
  insertWait : Nat
  /-- TAI second counted, frames accepted and frames dropped in it, per class (PTP, ESMC). -/
  second : Int
  accepted : Nat × Nat
  dropped : Nat × Nat
  queue : List OutFrame
  lastDiscard : Option Nat
  /-- The queue-full status answered the last frame offered (R291). -/
  refused : Bool
  /-- The last inserted frame as sent, and its egress timestamp. -/
  sent : Option (List Octet × Int)
  deriving DecidableEq, Repr

/-- Mapper and egress of a port (R244 to R246, R287). -/
structure PortData where
  mapper : List (BitVec 257)
  grains : List Grain
  /-- Mapping defect of this tick (R246). -/
  mapFault : Bool
  egress : List Block
  /-- Blocks sent in the last tick; local fault in every position when `fault`. -/
  out : List Block
  fault : Bool
  /-- Blocks of the last clean tick. -/
  cleanN : Nat
  /-- A grain with JC 0xFE was received in this tick. -/
  csfSeen : Bool
  /-- Places of this tick's blocks that belonged to tapped frames (R289). -/
  tapped : List Nat
  /-- Blocks of frames inserted in this tick, which hold back as many of the egress buffer (R291). -/
  inserted : List Block
  deriving DecidableEq, Repr

/-- A client port (R264 to R292, Table 13.5). -/
structure Port where
  /-- Client type, in the order of Table 9.2. -/
  ty : Nat
  /-- LANE_RATE 200G; else 100G. -/
  fast : Bool
  /-- REACH C2M; else C2C. -/
  c2m : Bool
  state : PortState
  fallbackUp : Bool
  trainFixed : Option Bool
  trainTimeout : Nat
  fallbackEn : Bool
  fallbackTx : List Int
  trainHoldoff : Nat
  retrainHold : Nat
  /-- RETRAIN_HOLD from the next tick boundary (Table 9.4). -/
  retrainNext : Option Nat
  ffeNext : List Int
  ffe : List Int
  round : Round
  lossAt : Option Nat
  lossSignal : Bool
  lossAlign : Bool
  lastOutcome : Nat
  lastAttempts : Nat
  rxDelay : Int
  txDelay : Int
  tap : Tap
  data : PortData
  ptp : PtpPort
  cDegSet : Nat
  cDegClr : Nat
  degNext : Option (Nat × Nat)
  present : List ClientDefect
  reported : List ClientDefect
  /-- Runs of the client defects' conditions, by 2 × ordinal for entry and 2 × ordinal + 1 for exit. -/
  runs : List (Nat × Nat)
  fecSymbols : Nat
  fecErrors : Nat
  deriving DecidableEq, Repr

/-- Defect parameters of an engine (Table 13.1). -/
structure DefectCfg where
  sfHoldoff : Nat
  ucfSet : Nat
  degInterval : Nat
  degM : Nat
  degSet : Nat
  degClr : Nat
  expectedSrc : Nat
  timMode : Nat
  timAct : Bool
  deriving DecidableEq, Repr

/-- The DEG interval in progress (R373): sum of PRE_FEC_BER, its ticks, whether every tick counted, and the runs above and below
the thresholds in force. -/
structure DegTrack where
  sum : Nat
  ticks : Nat
  whole : Bool
  above : Nat
  below : Nat
  /-- DEG_SET, DEG_CLR and DEG_M in force in this interval. -/
  set : Nat
  clr : Nat
  m : Nat
  interval : Nat
  deriving DecidableEq, Repr

/-- Defects of one engine (R371 to R389). -/
structure DefectState where
  cfg : DefectCfg
  present : List LineDefect
  reported : List LineDefect
  /-- Step 1 outcomes of the last 64 decoded frames, newest first, true for a failure. -/
  ucfWindow : List Bool
  ucfPass : Nat
  fmtFail : Nat
  fmtPass : Nat
  authFail : Nat
  authPass : Nat
  srcFail : Nat
  srcPass : Nat
  /-- Runs of set and clear bits: RX-LCK, RX-TEST, RX-BDI, RX-BAUTH, RX-BSD, RX-BPACK. -/
  bitSet : List Nat
  bitClear : List Nat
  deg : DegTrack
  /-- TIM, as the last change of its inputs left it. -/
  sapi : List Octet
  dapi : List Octet
  ttiAccepted : Option (List Octet)
  ttiLatest : List Octet
  /-- The last whole TTI set and the run of equal ones. -/
  ttiLast : Option (List Octet)
  ttiRun : Nat
  /-- Line signal fail: since which tick, with the hold-off of its entry, and whether local fault is in force. -/
  sf : Option (Nat × Nat)
  sfFault : Bool
  deriving DecidableEq, Repr

/-- Power of a line tile (R495, R496). -/
inductive TilePower where
  | on | goingDown | off | comingUp
  deriving DecidableEq, Repr

/-- A line tile: fence, power, and its capture unit. -/
structure Tile where
  fenced : Bool
  power : TilePower
  capture : Capture
  deriving DecidableEq, Repr

/-- One line engine (R3): capacities (0 for none), profile, layouts, iteration caps, and the parts of its transmitter and
receiver. -/
structure Engine where
  kTx : Nat
  kRx : Nat
  cap : Option CapChange
  /-- The 400ZR profile (R122); else Bunaten. -/
  zr : Bool
  txLayout : Nat
  rxLayout : Nat
  iterCap : Nat
  effCap : Nat
  thermalCap : Nat
  /-- The brace term of the effective cap when it was last evaluated. -/
  lastBrace : Nat
  load : Loading
  tx : Transmit
  rx : Received
  acq : Acquisition
  eq : Equaliser
  conv : Converter
  key : KeyState
  iso : Option Iso
  fe : FrontEnd
  /-- Input power in 0.1 dBFS as last measured, and whether it was below ACQ_MIN_POWER (LOS). -/
  inPower : Int
  losIn : Bool
  /-- Grains the hub has moved for the frame after the next, by slot. -/
  hubSlots : List Grain
  /-- The grains of the next frame, by slot. -/
  frameSlots : List Grain
  store : Store
  defect : DefectState
  ltt : Ltt
  deriving DecidableEq, Repr

/-- Why the machine stops by its own doing: it never does. Every illegal, misaligned or reserved access of this block is answered
or ignored as the manual says, so there is no fault. -/
inductive Fault where
  deriving DecidableEq, Repr

/-- What the model refuses. -/
inductive Refusal where
  /-- Raised by the dispatch for an opcode or event that has no meaning yet. Safe. -/
  | notModelled (mnemonic : String)
  /-- Raised by TESTPORT_INSTRUCTION with the test port open, for an instruction other than IDCODE and BYPASS: R368 says that it
  executes and not what it does. Safe. -/
  | testPortInstructionUnspecified
  deriving DecidableEq, Repr

/-- The whole block, and the queue of commands that wait, first in, first out. -/
structure State where
  /-- TN (R29). -/
  tn : Nat
  /-- TICK_OFFSET in 2⁻¹⁶ ns (R300). -/
  tickOffset : Int
  /-- Ticks since the last SYS_RST_N: a count that no realignment changes. The model's own field. -/
  ticks : Nat
  tnProvisional : Bool
  realign : Option Realign
  /-- Whether some engine carried traffic in the tick that ended at the present boundary (R37). -/
  trafficLast : Bool
  engines : Vector Engine 48
  tiles : Vector Tile 12
  htiles : Vector HostTile 4
  lanes : Vector HostLane 384
  /-- Client ports that exist, by their lowest lane. -/
  ports : List (Nat × Port)
  packs : Vector Pack 24
  cal : Calendar
  /-- The spectral map: CENTRE_N of valid entries, and the CENTRE_N field of every entry (R131). -/
  map : Vector (Option Int) 48
  mapCentre : Vector Int 48
  mons : Vector MonConv 4
  tlmq : TlmQueue
  chains : Vector TlmChain 64
  dma : Vector DmaChannel 16
  proto : Protocol
  dev : DeviceBlock
  ctr : Counters
  power : Power
  recovery : Recovery
  kennel : Kennel
  time : TimeCore
  sec : Security
  clockIdentity : Option Nat
  /-- Tick count of the last PARITY_ERR of a location and index (R260). -/
  parityLast : List ((Nat × Nat) × Nat)
  /-- The word the last register or queue read gave. -/
  readWord : Option Word
  /-- The octets the last SPI transaction clocked out. -/
  spiReply : List Octet
  /-- How many free values have been drawn. The model's own field. -/
  freeCtr : Nat
  /-- Commands that wait, first in, first out. The model's own field. -/
  pending : List Instr
  deriving DecidableEq, Repr

/-! ### The machine after the release of SYS_RST_N with a default Kennel. Values the manual gives no reset for are those of log
entry 3; pins, supplies and sensors are those of log entry 4. -/

def Watermark.reset (level : Nat) : Watermark := { level, latched := false, wmAt := 0 }
/-- Table 19.6. -/
def QueueRegs.resetWith (level : Nat) : QueueRegs :=
  { baseLo := 0, baseHi := 0, shadowLo := 0, shadowHi := 0, enable := false, log2 := 10, intOnItem := false, intHoldoff := 0,
    pi := 0, ci := 0, wm := .reset level, shadowWord := 0, lastSignal := none, deferred := false }
def QueueRegs.reset : QueueRegs := .resetWith 512
def CmdQueue.reset : CmdQueue := { items := [], partialWords := [], orphan := none }
def Protocol.reset : Protocol :=
  { regs := (Vector.ofFn (n := 12) fun i =>
      if i.val < 9 then .resetWith 512 else if i.val < 11 then .resetWith 384 else .resetWith 3072)
    ring := Vector.replicate 4 .reset, spi := .reset, internal := [], shepInternal := [], resp := Vector.replicate 5 []
    heldResp := Vector.replicate 5 [], internalResp := none, eventRing := [], eventQueue := [], heldEvents := []
    mgmtRdy := true, spiRespRead := 0, spiEventRead := 0, spiOpen := false, spiDrop := false, spiDead := false, armed := [], jobs := [], held := [], nextSeq := 0
    mgmtResetArmed := none, masked := [], owedFinals := [] }
def DeviceBlock.reset : DeviceBlock :=
  { stage := .rom, fwSlot := false, bootErr := 0, alertMask := 0, scratch := 0, bootImgAddrLo := 0, bootImgAddrHi := 0
    bootImgLen := 0, bootGo := false, bootSrc := Config.bootStraps.val, bootStage := [], alertAsserted := false, endpointUp := true
    linkUp := true, d3hot := false, msix := Vector.replicate 64 { addrLo := 0, addrHi := 0, data := 0, masked := true, pendingBit := false, sent := 0 } }
def Latch.reset : Latch := { slot := 49152, v1 := 0, v2 := 0 }
def Image.reset : Image := { slots := [], carries := [], imageTn := 0 }
def Counters.reset : Counters :=
  { slots := [], happened := [], later := [], coming := [], carries := [], heads := [], filters := [], bw := [], latchPcie := .reset, latchSpi := .reset
    latchFw := .reset, image := .reset, waiting := none, snapSeq := 0, snapValid := false }
def Capture.reset : Capture :=
  { source := 0, sub := 0, length := 0, trigger := 0, state := .idle, start := none, trigTn := 0, begun := 0
    taken := [], filled := 0, mem := [] }
/-- Table 17.6. -/
def DmaChannel.reset : DmaChannel :=
  { hostLo := 0, hostHi := 0, devOffset := 0, lineLen := 0, lineCount := 0, hostStride := 0, devStride := 0, planeStride := 0
    complLo := 0, complHi := 0, devSel := false, tile := 0, intEn := false, sext := false, deint := false, abort := false
    state := .idle, ended := .none, linesDone := 0, bytesDone := 0, staged := [], out := [], placed := [], bad := false, withdrawn := false
    record := none }
def Recovery.reset : Recovery :=
  { fw := .booting, bootAt := none, bootStart := 0, fwBeat := 0, shepBeat := 0, kick := 0, expired := false, headless := none
    shep := .watching, interventions := 0, lastCause := 0, restartCause := none, fwRestarts := [], shepRestarts := [], enterOwed := none }
/-- Room temperature, 25 °C, in 0.25 °C: log entry 4. -/
def roomTemp : Int := 100
/-- The minimum of a die's temperature before its first reading: above every reading (R500). -/
def noMinimum : Int := 1000000
def Power.reset : Power :=
  { warned := [], braceOn := none, braceEffect := false, inReset := [], perstLow := false, mgmtRstLow := false
    sysRstLow := false, avsTarget := 600 + Config.avsFuse.val, avsWas := 600 + Config.avsFuse.val, avsLast := 0, vddAux := true, vbat := true, vbatMv := 3000
    ocxo := true, pcieRefclk := true, tj := Vector.replicate 18 roomTemp }
/-- Table 11.5: asymmetry in ps, dispersion in ps/nm, delays in 2⁻¹⁶ ns, ROUTE_LEN_TOL in 0.1%, ROUTE_RTD_STEP in ps. -/
def RouteCfg.reset : RouteCfg :=
  { fibreAsym := 0, farFeSkew := 0, cdRef := 0, cdTrk := 0, rtdRef := 0, rtdTrk := 0, routeRtdStep := 50000
    routeTrack := 3600, routeCdStep := 200, routeLenTol := 5, asymState := .unset }
/-- The defaults of Table 18.7. -/
def Settings.reset : Settings :=
  { epochSet := false, domainSet := false, bootPref := false, trial := false, epochTai := 0, utcOffset := 0, leapDir := 1
    leapAt := 0, rtcTrim := 0, ivGen := 0, odv := [], kek := [], binding := [], route := Vector.replicate 48 .reset }
def LifeRecord.reset : LifeRecord :=
  { mirrorRestored := false, poh := 0, powerUps := 0, sysResets := 0, mgmtResets := 0, persts := 0, avsFaults := 0
    retireCount := 0, vbatLowCount := 0, tjHist := [], thermalCycles := Vector.replicate 18 0
    domains := Vector.replicate 20 { braceCount := 0, resets := 0, deepest := 0 }
    engines := Vector.replicate 48 { ucfTenths := 0, leashSat := 0, isolations := 0 }
    restartHeartbeat := 0, restartTrap := 0, restartBoot := 0, shepRestarts := 0, holds := 0, lastResorts := 0
    interventions := [], retirements := [] }
def Kennel.reset : Kennel :=
  { settings := .reset, settingsCrc := true, life := .reset, lifeCrc := true, fullRaised := [], pohSeconds := 0, tjSub := []
    thermal := Vector.replicate 18 { low := noMinimum, high := roomTemp, armed := false }
    ucfSeen := Vector.replicate 48 false, ucfSeconds := 0, rtc := 0, rtcPart := 0, rtcKept := true, mirror := none, retireQueue := [] }

def Loading.reset : Loading :=
  { mode := 0, interval := 625000, intervalNext := some 625000, lead := 62500, guard := 64, hyst := 3, maxSteps := 8, seq := 0
    vecTx := List.replicate 8 0, curSeq := 0, curTn := 0, vecRx := List.replicate 8 0, ann := none, toDefault := false
    seen := none, ackSeq := 0, ackStatus := 0, armed := none, dropped := none, failRun := 0, trial := 0
    snrSum := List.replicate 8 0, snrCount := 0, snrBad := false, whole := none, ranAt := none }
/-- Pass-through pre-emphasis taps of four lanes: tap 8 is 1,024 (R127). -/
def passTaps : List Int :=
  ((List.range 4).map fun _ => (List.range 17).map fun t => if t = 8 then (1024 : Int) else 0).flatten
def Transmit.reset : Transmit :=
  { rollOff := 26, scPower := List.replicate 8 0, xyBalance := 0, dacBackoff := -115, txSkew := List.replicate 4 0
    iqGain := List.replicate 2 0, iqPhase := List.replicate 2 0, dcOffset := List.replicate 4 0, preActive := passTaps
    preShadow := passTaps, nlcMode := 0, nlcGain := 64, nlcWindow := 32, nlcWindowNext := 32, nlcActive := [], nlcShadow := []
    lastClip := none, nbrTx := List.replicate 4 1, nbrRx := List.replicate 4 1, muzzle := .muzzled, amp := 0
    reason := { key := true, power := false, feFault := false, fence := false, heel := false, config := true, isolate := false,
                mgmt := true }
    muzzleRamp := 64, rampNext := none, untilHeel := false, backward := 0, sent := none, was := none, looped := none, tti := List.replicate 64 0, ttiNext := none, ttiWas := none
    opArea := List.replicate 64 0, svcTx := [], lck := false }
def Received.reset : Received :=
  { echoTn := 0, echoArrival := 0, echoValid := false, lastTn := none, heard := false, stamps := [], delayBefore := 0, framesSince := 0, txTime := 0
    txTimeValid := false, farEcho := false, traceable := false, tnProvisional := false, clockClass := 248, clockAccuracy := 0xFE, offsetVariance := 0xFFFF
    stepsRemoved := 0, snrReport := List.replicate 8 (-32768), ttiSegs := List.replicate 4 none, ttiSet := none, rxLck := false, rxTest := false
    bdi := false, bauth := false, bsd := false, bpack := false, farBeiTn := none, packOctets := [], opArea := none, svcRx := []
    beiCw := 0, beiBits := 0, beiTn := 0 }
def AcqRecord.reset : AcqRecord :=
  { acqTn := 0, layout := 0, syncErrs := 0, rxPower := 0, syncPower := 0, snr := 0, coarseFo := 0, resolve := 0 }
def Acquisition.reset : Acquisition :=
  { state := .disabled, lof := true, syncTol := 160, layouts := [0], layoutsNext := none, layoutsSet := false, minPower := -240
    record := .reset, held := .reset, blind := false, contestPower := none, contestSeen := false, contestRaised := false, position := 0, searchFrom := 0, missRun := 0, goodRun := 0
    oofEntry := 0, searchStart := 0, noSyncRaised := false, coarseFo := 0, residual := 0, recentre := none, lastStep := none
    limitRaised := false, leash := { enable := false, gain := 8, stepMax := 20 }, leashNext := none, leashWritten := 0
    atHeel := false, heelMiss := 0, satRaised := false, offsets := [], lastWrite := none }
def FreezeFlags.reset : FreezeFlags :=
  { lowPower := false, noClock := false, pilotOnly := false, decodeFail := false, brace := false }
/-- A filter's taps at the start of a search pass: a centre tap of 1 on the diagonal, else 0 (R189). -/
def startTaps : List (List (List (Int × Int))) :=
  List.replicate 8 ((List.range 4).map (fun f => (List.range 31).map (fun t => (if t = 15 ∧ (f = 0 ∨ f = 3) then 65536 else 0, 0))))
def Equaliser.reset : Equaliser :=
  { rxSkew := List.replicate 4 0, rxIqGain := List.replicate 2 0, rxIqPhase := List.replicate 2 0, rxFeAuto := true, rxFeAutoNext := none, rxFeKeep := false
    skewApplied := List.replicate 4 0, lastFeUpdate := none, scanCentre := 0, scanSpan := 200000, scanNext := none, cdAuto := true, trackThresh := 100, xfade := 16
    delaySlew := 4, cdActive := { d := 0, centreN := 0 }, cdShadow := none, cdLoading := none, fade := none, align := 0
    slewing := false, residualRun := 0, eqMode := 1, eqMu := 10, trBw := 10, crAvg := 4, nbrCr := true, nbrSop := true
    taps := startTaps, centroid := List.replicate 8 3840, symAlign := List.replicate 8 0, trail := [], refine := [], newest := none, phases := [], slipFix := [], edgePhase := (0, 0), rotRate := 0
    nbrValid := false, slipped := [], priorLow := [], priorHigh := [], sopFeed := [], decodeFails := 0, estimatedAt := none, pilotPow := []
    freeze := .reset, absent := List.replicate 5 0, freezeStart := none, frozenTicks := 0
    est := { snr := List.replicate 8 (-32768), preFecBer := 0, cdEst := 0, dgd := 0, pdl := 0, sopRate := 0, timingFo := 0 }
     }
def UnitPool.reset (inService spare : Nat) : UnitPool :=
  { inService := List.range inService, spare := (List.range spare).map (inService + ·), ready := [], retired := [], fails := []
    passes := [] }
def Converter.reset : Converter :=
  { cfg := { adc := true, dac := true, window := 625, autoRetire := true }, cfgNext := none, qualAdc := 0, qualDac := 0
    winTicks := 0, winRunning := true, ended := none, adcSums := [], dacSums := [], tempSum := 0, tempReads := 0, meanTemp := roomTemp
    shadowWas := List.replicate 4 0, waiting := [], applyAt := none, applyMore := 0, prior := [], adc := Vector.replicate 4 (.reset 96 8)
    dac := Vector.replicate 16 (.reset 15 2), due := [], dueTold := [], shadowPos := List.replicate 4 0, learned := []
    learnedNext := none, temp := roomTemp, tempNext := none }
def FrontEnd.reset : FrontEnd :=
  { profile := none, loops := [], queue := [], served := [], servedAt := 0, lastPoll := 0, pollFault := false
    loopFault := false }
def Latest.reset : Latest := { v := 0, overrange := false, tn16 := 0, doneAt := none }
def MonConv.reset : MonConv :=
  { seq := [56], run := none, nextStep := 0, current := none, stalled := false, stallAcc := 0, injected := [], cal := .none
    calValid := false, calOffset := 0, calGain := 0x8000, corr := Vector.replicate 64 (0, 16384)
    latest := Vector.replicate 64 .reset, testDac := 0, testDacNext := none, pathFault := false, heldCount := 0, heldLeft := 0, heldLongest := 0, heldTold := 0, startWait := none, queue := [], hi := 0
    wm := .reset 384 }
def TlmChain.reset : TlmChain :=
  { cfg := { source := .none, sourceWord := 0, cic := 2, hb1 := false, hb2 := false, fir := 1, overflow := 0 }
    integ := List.replicate 4 0, comb := List.replicate 4 0, hb1Mem := [], hb2Mem := [], firMem := [], counts := List.replicate 4 0
    lastStale := none, lastSample := 0, sampledAt := none, outputs := 0
    active := (List.range 64).map (fun t => if t = 0 then (16384 : Int) else 0), shadow := none, swapPending := false
    lastSat := none }
def TlmQueue.reset : TlmQueue := { queue := [], waiting := [], hi := 0, wm := .reset 768 }
def Store.reset : Store := { target := 32, queues := [], marks := [], labelOffset := 0, rxStore := 0 }
def Pack.reset : Pack :=
  { members := [], gen := 0, skewMax := 4, capPending := none, store := .reset, pool := [], released := [], judged := [], late := [], skews := [], largest := []
    running := [], skewPresent := false, goodRun := 0, mismatchPresent := false, failRuns := [], passRuns := [], reported := [], psf := none
    psfFault := false }
def Calendar.reset : Calendar :=
  { active := [], shadow := [], activeParity := [], shadowParity := [], frozen := [], unread := [], told := [], bad := [], dead := [], guards := [], preGuard := none, since := 0 }
/-- The FFE of a host lane's receiver at its start: the main tap after 6 precursors (R272; log entry 3). -/
def startFfe : List Int := (List.range 24).map (fun i => if i = 6 then 65536 else 0)
def HostLane.reset : HostLane :=
  { txInvert := false, rxInvert := false, invertNext := none, tdFloor := 8, tdFloorNext := none, shortHold := false
    braceHold := false, goodWindows := 0, heldWindows := 0, loopback := 0, generator := 0, checker := 0, locked := false
    generatedFrom := 0, lockedInside := false, txFfe := [0, 0, 0, 0, 128, 0], ctle := 0, rxFfe := startFfe, dfe := List.replicate 16 0, cdrFreq := 0, cdrPhase := 0 }
def HostTile.reset : HostTile := { syntonised := false, refclk := true, waiting := [] }
def DefectState.reset : DefectState :=
  { cfg := { sfHoldoff := 0, ucfSet := 16, degInterval := 62500, degM := 3, degSet := 77309411, degClr := 64424509
             expectedSrc := 0xFF, timMode := 0, timAct := false }
    present := [], reported := [], ucfWindow := [], ucfPass := 0, fmtFail := 0, fmtPass := 0, authFail := 0, authPass := 0
    srcFail := 0, srcPass := 0, bitSet := List.replicate 6 0, bitClear := List.replicate 6 0
    deg := { sum := 0, ticks := 0, whole := false, above := 0, below := 0, set := 77309411, clr := 64424509, m := 3
             interval := 62500 }
    sapi := List.replicate 16 0, dapi := List.replicate 16 0, ttiAccepted := none, ttiLatest := List.replicate 64 0
    ttiLast := none, ttiRun := 0, sf := none, sfFault := false }
def SecondSums.reset : SecondSums :=
  { ticks := 0, inFrame := 0, txOpen := 0, cdValid := 0, cdSum := 0, raw := 0, epsSum := 0, rtdSum := 0, isolated := false
    items := List.replicate 9 0 }
def Ltt.reset : Ltt :=
  { interval := 62500, intervalNext := none, minFill := 90, minFillNext := 90, maxSteps := 16, allowClear := false, feTx := 0
    feRx := 0, feNext := none, certNotify := false, history := [], epsSum := 0, rtdSum := 0, zeroSum := 0, count := 0
    voidNow := false, voidBefore := false, cut := false, resized := false
    result := { endTn := 0, eps := 0, rtd := 0, n := 0, epsZero := 0, delivered := false, void := false }
    deliveredAt := none, farPrev := none, asymNow := (0, 0), sums := .reset, lastQual := (0, 0), lastOk := false
    routeFlags := 0, certSeq := 0, cert := List.replicate 128 0 }
/-- The defaults of Table 11.10 for PTP_PROFILE OFF. -/
def PtpPort.reset : PtpPort :=
  { cfg := { profile := 0, role := 1, twoStep := false, domain := 24, prio1 := 128, prio2 := 128, localPrio := 128
             logSync := -4, logDelayReq := -4, logAnnounce := -3, timeout := 3, asym := 0, meas := 0, mac := 0 }
    state := .disabled, foreign := [], parent := none, seqSync := 0, seqDelay := 0, seqAnnounce := 0, syncWait := none
    sync := none, delayWait := none, offSum := 0, offCount := 0, lastOffset := 0, second := 0, received := 0, heardAt := 0
    syncAt := 0, announceAt := 0, delayAt := 0, measAt := 0, voidAt := none, rxQl := none, txQl := (0xF, 0xFF), qlHeardAt := none, eventQl := (0xF, 0xFF), transmitFrom := 0, sentSecond := 0, sent := 0
    esmcAt := 0 }
def KeyState.reset : KeyState :=
  { none := false, linkSide := false, slots := Vector.replicate 4 Option.none, index := 0, expect := Option.none
    rxSwitch := Option.none, used := Vector.replicate 2 Option.none }
def FwSlot.reset : FwSlot := { valid := false, version := 0, svn := 0, length := 0, digest := [] }
/-- The image that a slot A holds before any FW_LOAD. DESIGN CHOICE (log entry 3): the manual does not say what the boot flash holds; slot A
of the firmware and of the Shepherd holds a valid image of version 0 and SVN 0, whose octets are free, and slot B holds none. -/
def FwSlot.shipped (shepherd : Bool) : FwSlot :=
  { FwSlot.reset with valid := true, digest := (List.range 48).map (Config.bootDigest shepherd) }
/-- The slots as shipped (log entry 3). -/
def Security.reset : Security :=
  { testOpen := false, challenge := none
    fw := (Vector.replicate 2 FwSlot.reset).set 0 (.shipped false)
    shep := (Vector.replicate 2 FwSlot.reset).set 0 (.shipped true)
    running := .reset, shepRunning := .reset, rollback := 0, signing := [], trialBoot := false }
def TimeParams.reset : TimeParams :=
  { ki := 4, slewMax := 100, stepPolicy := 1, stepThresh := 1000, lockPhase := 100, qualTime := 10, revertive := 1, wtr := 300
    holdoverAvg := 300, holdoverTrace := 0, utcSource := 1 }
def PpsIn.reset : PpsIn :=
  { falling := false, delay := 0, gate := 10000, last := none, missedAt := none, missRun := 0, outRun := 0, silentRun := 0 }
def TodIn.reset : TodIn := { baud := 115200, windowed := false, last := none, waiting := none }
def PpsOut.reset : PpsOut :=
  { cfg := { enable := false, activeLow := false, width := 100000, delay := 0, always := false }, next := none, second := 0
    emitted := none }
def TimeCore.reset : TimeCore :=
  { state := .freerun, params := .reset, candidates := [], selected := none, goodRun := 0, badRun := 0, everLocked := false
    traceable := false, freqTraceable := false, timeValid := false, uncert := 0, uncertAt := 0
    quality := { clockClass := 248, accuracy := 0xFE, variance := 0xFFFF, steps := 0 }, traceUntil := none, prevMeas := none
    meas := none, stepDue := none, measAt := 0, beforeStep := (none, 0, 0, 0), lastSteps := 0, slew := 0, oscFreq := 10000, relockAt := none, oscNext := 10000, oscLost := false
    applied := 0, demand := 0, freqLimit := false, limitClearedAt := none, history := [(0, 0, false)]
    freq := { ref := .same, bw := 100, qualified := false, since := none, lastLoop := 0, errSum := 0, errTicks := 0 }
    pps := Vector.replicate 2 .reset, tod := Vector.replicate 2 .reset, ppsOut := Vector.replicate 4 .reset
    todOut := { baud := 115200, seq := 0, stepped := false, second := 0, line := [] }
    snap := { req := false, reqAt := 0, seq := 0, flags := 16, tn := 0, offset := 0, freq := 0 } }
def Tile.reset : Tile := { fenced := false, power := .on, capture := .reset }
def Engine.reset : Engine :=
  { kTx := 0, kRx := 0, cap := none, zr := false, txLayout := 0, rxLayout := 0, iterCap := 16, effCap := 16, thermalCap := 16
    lastBrace := 16, load := .reset, tx := .reset, rx := .reset, acq := .reset, eq := .reset, conv := .reset, key := .reset
    iso := none, fe := .reset, inPower := -1000, losIn := false, hubSlots := [], frameSlots := [], store := .reset, defect := .reset
    ltt := .reset }
/-- The machine right after reset: SYS_RST_N just released on a part whose Kennel holds its defaults, IV_GEN advanced by the
release (R352), firmware not yet booted. -/
def State.reset : State :=
  { tn := 0, tickOffset := 0, ticks := 0, tnProvisional := true, realign := none, trafficLast := false
    engines := Vector.replicate 48 .reset, tiles := Vector.replicate 12 .reset, htiles := Vector.replicate 4 .reset
    lanes := Vector.replicate 384 .reset, ports := [], packs := Vector.replicate 24 .reset, cal := .reset
    map := Vector.replicate 48 none, mapCentre := Vector.replicate 48 0, mons := Vector.replicate 4 .reset, tlmq := .reset, chains := Vector.replicate 64 .reset
    dma := Vector.replicate 16 .reset, proto := .reset, dev := .reset, ctr := .reset, power := .reset, recovery := .reset
    kennel := { Kennel.reset with settings := { Settings.reset with ivGen := 1 } }, time := .reset, sec := .reset
    clockIdentity := none, parityLast := [], readWord := none, spiReply := [], freeCtr := 0, pending := [] }

end Sys2Proof.Machine
end

