-- ==== Sys2Proof/Machine/Ops.lean ====
section
/-! DEFINITION. The named operations over the state: access to its arrays, bit fields, sparse memories, counters (R455 to
R462), events (R399, R411), interrupts (R509, R510), watermarks (R415) and responses (R396, R411).
What it chooses or infers where the manual is silent, with its marks: log entries 5, 7, 9, 11, 12, 15, 38. -/
namespace Sys2Proof.Machine

/-- What a step answers. -/
abbrev Res := Host.Outcome State Fault Refusal

/-! ### Arrays -/

/-- Element `i` of an array, `d` outside it. -/
def vget {α : Type} {n : Nat} (v : Vector α n) (i : Nat) (d : α) : α := if h : i < n then v[i] else d
/-- The array with `f` applied to element `i`; unchanged outside it. -/
def vmod {α : Type} {n : Nat} (v : Vector α n) (i : Nat) (f : α → α) : Vector α n :=
  if h : i < n then v.set i (f v[i]) else v
/-- The list with element `i` replaced. -/
def lset {α : Type} (l : List α) (i : Nat) (a : α) : List α := l.set i a

/-! ### Bit fields and signed values (R9, R422) -/

/-- Bits [lo + len − 1 : lo] of `n`. -/
def field (n lo len : Nat) : Nat := (n >>> lo) % 2 ^ len
/-- Bit `i` of `n`. -/
def bit (n i : Nat) : Bool := n.testBit i
/-- A flag as 0 or 1. -/
def b2n (b : Bool) : Nat := if b then 1 else 0
/-- The value of a two's complement field of `w` bits. -/
def sx (w n : Nat) : Int := if n % 2 ^ w < 2 ^ (w - 1) then (n % 2 ^ w : Nat) else ((n % 2 ^ w : Nat) : Int) - (2 ^ w : Nat)
/-- The two's complement field of `w` bits that holds `z`. -/
def ux (w : Nat) (z : Int) : Nat := (z % (2 ^ w : Nat)).toNat
/-- Division rounding to nearest, halves away from zero. -/
def roundDiv (a : Int) (b : Nat) : Int :=
  if a < 0 then -((2 * (-a) + b) / (2 * b)) else (2 * a + b) / (2 * b)
/-- `z` limited to `lo .. hi`. -/
def clampI (lo hi z : Int) : Int := if z < lo then lo else if hi < z then hi else z

/-! ### Words of items (R422, R553) -/

/-- One word. -/
def w1 (n : Nat) : List Word := [BitVec.ofNat 32 n]
/-- One word, signed. -/
def wi (z : Int) : List Word := [BitVec.ofInt 32 z]
/-- A 64-bit value, most significant word first. -/
def w2 (n : Nat) : List Word := [BitVec.ofNat 32 (n >>> 32), BitVec.ofNat 32 n]
/-- A signed 64-bit value. -/
def wi2 (z : Int) : List Word := w2 (ux 64 z)
/-- A 96-bit timestamp. -/
def w3 (n : Nat) : List Word := [BitVec.ofNat 32 (n >>> 64), BitVec.ofNat 32 (n >>> 32), BitVec.ofNat 32 n]
/-- The target-word form of a resource (R421). -/
def targetNat (k : Kind) (idx sub : Nat) : Nat := kindCode k * 2 ^ 28 + (idx % 4096) * 2 ^ 16 + sub % 65536
/-- Octets packed four to a word, first octet in [31:24], padded with 0x00. -/
def packOctets : List Octet → List Word
  | [] => []
  | [a] => [BitVec.ofNat 32 (a.toNat * 2 ^ 24)]
  | [a, b] => [BitVec.ofNat 32 (a.toNat * 2 ^ 24 + b.toNat * 2 ^ 16)]
  | [a, b, c] => [BitVec.ofNat 32 (a.toNat * 2 ^ 24 + b.toNat * 2 ^ 16 + c.toNat * 2 ^ 8)]
  | a :: b :: c :: d :: r =>
    BitVec.ofNat 32 (a.toNat * 2 ^ 24 + b.toNat * 2 ^ 16 + c.toNat * 2 ^ 8 + d.toNat) :: packOctets r
/-- The octets of words, most significant first. -/
def unpackWords : List Word → List Octet
  | [] => []
  | w :: r => BitVec.ofNat 8 (w.toNat >>> 24) :: BitVec.ofNat 8 (w.toNat >>> 16) :: BitVec.ofNat 8 (w.toNat >>> 8)
      :: BitVec.ofNat 8 w.toNat :: unpackWords r
/-- `len` octets of a number, most significant first (R10). -/
def octetsBE : Nat → Nat → List Octet
  | 0, _ => []
  | k + 1, n => BitVec.ofNat 8 (n >>> (8 * k)) :: octetsBE k n
/-- `len` octets of a number, least significant first. -/
def octetsLE (len n : Nat) : List Octet := (octetsBE len n).reverse
/-- The number a list of octets spells, most significant first. -/
def ofOctets (l : List Octet) : Nat := l.foldl (fun n o => n * 256 + o.toNat) 0

/-! ### Check sums -/

/-- One bit of the CRC-16 of R72. -/
def crc16Bit (crc : Nat) (b : Bool) : Nat :=
  let x := (crc * 2) % 65536
  if (crc.testBit 15) != b then x ^^^ 0x1021 else x
/-- The CRC-16 of R72: x¹⁶ + x¹² + x⁵ + 1, initial 0xFFFF, unreflected, no final XOR. -/
def crc16 (l : List Octet) : Nat :=
  l.foldl (fun c o => [7, 6, 5, 4, 3, 2, 1, 0].foldl (fun c i => crc16Bit c (o.toNat.testBit i)) c) 0xFFFF
/-- One bit of the CRC-32 of IEEE 802.3, reflected. -/
def crc32Bit (crc : Nat) : Nat := if crc.testBit 0 then (crc >>> 1) ^^^ 0xEDB88320 else crc >>> 1
/-- The CRC-32 of IEEE 802.3. -/
def crc32 (l : List Octet) : Nat :=
  (l.foldl (fun c o => [0, 0, 0, 0, 0, 0, 0, 0].foldl (fun c _ => crc32Bit c) (c ^^^ o.toNat)) 0xFFFFFFFF)
    ^^^ 0xFFFFFFFF

/-! ### Sparse memories: pairs by rising key, none holding the value an unlisted key reads as -/

/-- Value at `k`, `d` where none is listed. -/
def cellGet {β : Type} : List (Nat × β) → Nat → β → β
  | [], _, d => d
  | (j, b) :: r, k, d => if j = k then b else cellGet r k d
/-- The memory with `v` at `k`; writing the unlisted value `d` removes the entry. -/
def cellSet {β : Type} [DecidableEq β] : List (Nat × β) → Nat → β → β → List (Nat × β)
  | [], k, v, d => if v = d then [] else [(k, v)]
  | (j, b) :: r, k, v, d =>
    if j < k then (j, b) :: cellSet r k v d
    else if j = k then (if v = d then r else (k, v) :: r)
    else if v = d then (j, b) :: r else (k, v) :: (j, b) :: r
/-- The canonical form of a sparse memory whose unlisted keys read `d`. -/
def cellsWf {β : Type} [DecidableEq β] (d : β) : List (Nat × β) → Bool
  | [] => true
  | [(_, b)] => b != d
  | (j, b) :: (k, c) :: r => decide (j < k) && b != d && cellsWf d ((k, c) :: r)
/-- Writes consecutive values from key `k` on. -/
def cellSetMany {β : Type} [DecidableEq β] (d : β) : List (Nat × β) → Nat → List β → List (Nat × β)
  | m, _, [] => m
  | m, k, v :: r => cellSetMany d (cellSet m k v d) (k + 1) r
/-- Reads `n` consecutive values from key `k` on. -/
def cellGetMany {β : Type} (d : β) (m : List (Nat × β)) (k : Nat) : Nat → List β
  | 0 => []
  | n + 1 => cellGet m k d :: cellGetMany d m (k + 1) n

/-! ### Resources -/

/-- Line engine LEi (R3); outside 0 to 47 the engine after reset. -/
def State.eng (s : State) (i : Nat) : Engine := vget s.engines i Engine.reset
/-- Applies `f` to line engine LEi. -/
def State.modEng (i : Nat) (f : Engine → Engine) (s : State) : State := { s with engines := vmod s.engines i f }
/-- Line tile LTi. -/
def State.tile (s : State) (i : Nat) : Tile := vget s.tiles i Tile.reset
/-- Applies `f` to line tile LTi. -/
def State.modTile (i : Nat) (f : Tile → Tile) (s : State) : State := { s with tiles := vmod s.tiles i f }
/-- The line tile of an engine (R3). -/
def tileOf (e : Nat) : Nat := e / 4
/-- Whether the line tile of an engine is fenced (R495). -/
def State.fenced (s : State) (e : Nat) : Bool := (s.tile (tileOf e)).fenced
/-- The hottest sensor of an engine's line tile, in 0.25 °C (R102, R148): the die's own sensors as last read (R500, R533), and the converter
sensors of its four engines (R211). -/
def State.tileTemp (s : State) (e : Nat) : Int :=
  (List.range 4).foldl (fun m i => max m (s.eng (4 * tileOf e + i)).conv.temp) (vget s.power.tj (tileOf e) roomTemp)
/-- Host lane HLi. -/
def State.lane (s : State) (i : Nat) : HostLane := vget s.lanes i HostLane.reset
/-- Applies `f` to host lane HLi. -/
def State.modLane (i : Nat) (f : HostLane → HostLane) (s : State) : State := { s with lanes := vmod s.lanes i f }
/-- Host tile HTi. -/
def State.htile (s : State) (i : Nat) : HostTile := vget s.htiles i HostTile.reset
/-- Applies `f` to host tile HTi. -/
def State.modHtile (i : Nat) (f : HostTile → HostTile) (s : State) : State := { s with htiles := vmod s.htiles i f }
/-- The defined client port CPn, if any (R265). -/
def State.port? (s : State) (n : Nat) : Option Port := (s.ports.find? (fun p => p.1 == n)).map (·.2)
/-- Applies `f` to client port CPn where it is defined. -/
def State.modPort (n : Nat) (f : Port → Port) (s : State) : State :=
  { s with ports := s.ports.map (fun p => if p.1 == n then (p.1, f p.2) else p) }
/-- Pack PKi. -/
def State.pack (s : State) (i : Nat) : Pack := vget s.packs i Pack.reset
/-- Applies `f` to Pack PKi. -/
def State.modPack (i : Nat) (f : Pack → Pack) (s : State) : State := { s with packs := vmod s.packs i f }
/-- Monitor converter MCi. -/
def State.mc (s : State) (i : Nat) : MonConv := vget s.mons i MonConv.reset
/-- Applies `f` to monitor converter MCi. -/
def State.modMc (i : Nat) (f : MonConv → MonConv) (s : State) : State := { s with mons := vmod s.mons i f }
/-- DMA channel DCi. -/
def State.dc (s : State) (i : Nat) : DmaChannel := vget s.dma i DmaChannel.reset
/-- Applies `f` to DMA channel DCi. -/
def State.modDc (i : Nat) (f : DmaChannel → DmaChannel) (s : State) : State := { s with dma := vmod s.dma i f }
/-- Queue register set q (Table 19.6). -/
def State.qreg (s : State) (q : Nat) : QueueRegs := vget s.proto.regs q QueueRegs.reset
/-- Applies `f` to queue register set q. -/
def State.modQreg (q : Nat) (f : QueueRegs → QueueRegs) (s : State) : State :=
  { s with proto := { s.proto with regs := vmod s.proto.regs q f } }
/-- Applies `f` to the protocol state. -/
def State.modProto (f : Protocol → Protocol) (s : State) : State := { s with proto := f s.proto }
/-- Applies `f` to the counters. -/
def State.modCtr (f : Counters → Counters) (s : State) : State := { s with ctr := f s.ctr }
/-- Applies `f` to the Kennel. -/
def State.modKennel (f : Kennel → Kennel) (s : State) : State := { s with kennel := f s.kennel }
/-- Applies `f` to the Kennel settings (each write keeps the image's CRC32 valid, R498). -/
def State.modSettings (f : Settings → Settings) (s : State) : State :=
  s.modKennel (fun k => { k with settings := f k.settings })
/-- Applies `f` to the life record. -/
def State.modLife (f : LifeRecord → LifeRecord) (s : State) : State := s.modKennel (fun k => { k with life := f k.life })
/-- Applies `f` to the recovery chain. -/
def State.modRec (f : Recovery → Recovery) (s : State) : State := { s with recovery := f s.recovery }
/-- Applies `f` to the power state. -/
def State.modPower (f : Power → Power) (s : State) : State := { s with power := f s.power }
/-- Applies `f` to the device block. -/
def State.modDev (f : DeviceBlock → DeviceBlock) (s : State) : State := { s with dev := f s.dev }
/-- Applies `f` to the time core. -/
def State.modTime (f : TimeCore → TimeCore) (s : State) : State := { s with time := f s.time }

/-- A fresh free value, and the state whose count of them has moved on. -/
def State.fresh (s : State) : Nat × State := (Config.freeValue s.freeCtr, { s with freeCtr := s.freeCtr + 1 })

/-! ### Time units -/

/-- One tick, 1.6 µs, in 2⁻¹⁶ ns (R28). -/
def tickUnits : Int := 104857600
/-- One second in 2⁻¹⁶ ns. -/
def secondUnits : Int := 65536000000000
/-- TAI at the start of tick `tn` in 2⁻¹⁶ ns (R29's tick offset). -/
def State.taiAt (s : State) (tn : Nat) : Int := s.tickOffset + tn * tickUnits
/-- A time in 2⁻¹⁶ ns as a 96-bit timestamp: 48 bits of seconds, 32 bits of nanoseconds, 16 bits of 2⁻¹⁶ ns. -/
def stamp96 (t : Int) : Nat :=
  let sec := t / secondUnits
  let sub := (t % secondUnits).toNat
  ux 48 sec * 2 ^ 48 + sub
/-- The time a 96-bit timestamp spells. -/
def ofStamp96 (n : Nat) : Int := ((n / 2 ^ 48 : Nat) : Int) * secondUnits + ((n % 2 ^ 48 : Nat) : Int)

/-! ### Counters -/

/-- The slot of a counter (R457). -/
def ctrSlot (k : Kind) (idx sub code : Nat) : Nat :=
  (Config.counterPlace ⟨counterNumber k idx sub code % 23552, Nat.mod_lt _ (by decide)⟩).val
/-- Records `n` happenings of a slot in the running tick (R33). -/
def State.happen (slot n : Nat) (s : State) : State :=
  if n = 0 then s else s.modCtr (fun c => { c with happened := (slot, n) :: c.happened })
/-- Counts `n` happenings of a named counter. -/
def State.count (c : Ctr) (k : Kind) (idx n : Nat) (s : State) : State := s.happen (ctrSlot k idx 0 c.code) n
/-- Counts `n` happenings of a named counter that takes a SUB. -/
def State.countSub (c : Ctr) (k : Kind) (idx sub n : Nat) (s : State) : State := s.happen (ctrSlot k idx sub c.code) n

/-- A counter's value with what the running tick has counted so far. -/
def State.counted (s : State) (c : Ctr) (k : Kind) (idx : Nat) : Nat :=
  let i := ctrSlot k idx 0 c.code
  ((s.ctr.happened.filter (fun x => x.1 == i)).foldl (fun n x => n + x.2) (cellGet s.ctr.slots i 0)) % 2 ^ 40

/-- What `f` counts is of data labelled TN + `ahead`, and enters the array at the end of that tick (R33). -/
def State.labelled (ahead : Nat) (f : State → State) (s : State) : State :=
  let t := f (s.modCtr (fun c => { c with happened := [] }))
  t.modCtr (fun c => { c with happened := s.ctr.happened, later := c.later ++ c.happened.map (fun x => (ahead, x)) })

/-! ### Interrupts -/

/-- Signals an MSI-X vector: the message is sent, or its pending bit set while it is masked (R509). -/
def State.signal (v : Nat) (s : State) : State :=
  if s.dev.endpointUp then
    s.modDev (fun d => { d with msix := vmod d.msix v (fun m =>
      if m.masked || s.dev.d3hot then { m with pendingBit := true } else { m with sent := m.sent + 1 }) })
  else s
/-- The vector of a ring's register set (Table 19.3). -/
def ringVector (q : Nat) : Option Nat :=
  if q < 4 then some (8 + q) else if q < 8 then some (q - 4) else if q = 8 then some 4 else none
/-- Signals a ring's vector and starts its hold-off. -/
def State.signalRing (q : Nat) (s : State) : State :=
  match ringVector q with
  | some v => (s.signal v).modQreg q (fun r => { r with lastSignal := some s.ticks, deferred := false })
  | none => s
/-- Whether a ring's INT_HOLDOFF, in µs, has run out since its last signal (R510). -/
def holdoffOver (r : QueueRegs) (now : Nat) : Bool :=
  match r.lastSignal with
  | none => true
  | some t => decide (r.intHoldoff * 10 ≤ (now - t) * 16)
/-- An index of ring q has been advanced by the device: shadow word and interrupt (R510, R516). -/
def State.advanced (q : Nat) (s : State) : State :=
  let s := s.modQreg q (fun r => { r with shadowWord := if q < 4 then r.ci else r.pi })
  let r := s.qreg q
  if r.intOnItem then
    if holdoffOver r s.ticks then s.signalRing q else s.modQreg q (fun r => { r with deferred := true })
  else s

/-! ### Queues: fill and watermark -/

/-- Queue words of a response item: header, KIND and DETAIL, RESP_TN, results (R396). -/
def Resp.size (r : Resp) : Nat := 3 + (r.words.length + 1) / 2
/-- Queue words of an event item (R399). -/
def EventItem.size (e : EventItem) : Nat := 2 + (e.words.length + 1) / 2
end Sys2Proof.Machine
namespace Sys2Proof
/-- Words a command occupies (R394). -/
def Cmd.size (c : Cmd) : Nat := 1 + (if c.tn.isSome then 1 else 0) + (c.words.length + 1) / 2
end Sys2Proof
namespace Sys2Proof.Machine
/-- Total size of the items of a list. -/
def total {α : Type} (f : α → Nat) (l : List α) : Nat := l.foldl (fun n a => n + f a) 0
/-- Words held by a command queue. -/
def CmdQueue.fill (q : CmdQueue) : Nat := total CmdItem.span q.items + q.partialWords.length
/-- The command queue, response queue of transport n: 0 to 3 the rings, 4 SPI. -/
def State.cmdq (s : State) (n : Nat) : CmdQueue :=
  if n < 4 then vget s.proto.ring n CmdQueue.reset else s.proto.spi
/-- Applies `f` to the command queue of transport n. -/
def State.modCmdq (n : Nat) (f : CmdQueue → CmdQueue) (s : State) : State :=
  s.modProto (fun p => if n < 4 then { p with ring := vmod p.ring n f } else { p with spi := f p.spi })
/-- FILL of queue set q (Table 19.6). -/
def State.fill (s : State) (q : Nat) : Nat :=
  if q < 9 then ((s.qreg q).pi + 2 ^ (s.qreg q).log2 - (s.qreg q).ci) % 2 ^ (s.qreg q).log2
  else if q = 9 then s.proto.spi.fill
  else if q = 10 then total Resp.size (vget s.proto.resp 4 [])
  else s.proto.eventQueue.length
/-- Capacity of queue set q in its unit of fill (Table 14.1). -/
def State.capacity (s : State) (q : Nat) : Nat :=
  if q < 9 then 2 ^ (s.qreg q).log2 else if q < 11 then 512 else 4096
/-- The watermark level in force (R415). -/
def effLevel (level cap : Nat) : Nat := if level = 0 then 1 else if cap - 1 < level then cap - 1 else level
/-- WM_LIVE of queue set q. -/
def State.wmLive (s : State) (q : Nat) : Bool :=
  decide (effLevel (s.qreg q).wm.level (s.capacity q) ≤ s.fill q)
/-- Records a crossing of queue set q's watermark by a fill that was `old` (R415). -/
def State.wmCross (q old : Nat) (s : State) : State :=
  let lv := effLevel (s.qreg q).wm.level (s.capacity q)
  let new := s.fill q
  if decide (old < lv) && decide (lv ≤ new) && !(s.qreg q).wm.latched then
    (s.modQreg q (fun r => { r with wm := { r.wm with latched := true, wmAt := new } })).signalRing q
  else s

/-! ### ALERT_N (R520) -/

/-- ALERT_CAUSE (Table 19.7). -/
def State.alertCause (s : State) : Nat :=
  let q := s.proto.eventQueue
  let toSpi := !(s.qreg 8).enable
  b2n s.recovery.expired * 2 ^ 31 + b2n (s.recovery.shep == .held) * 2 ^ 30
    + b2n (s.recovery.shep == .stopped) * 2 ^ 29 + b2n (s.dev.stage == .failed) * 2 ^ 28
    + b2n s.recovery.headless.isSome * 32 + b2n s.power.braceOn.isSome * 16
    + b2n (toSpi && q.any (fun e => e.prio == 3)) * 8 + b2n (toSpi && !q.isEmpty) * 4
    + b2n (!(vget s.proto.resp 4 []).isEmpty) * 2 + b2n (decide (s.power.vbatMv < 2200))
/-- Whether ALERT_N is asserted: an unmaskable cause, or a cause whose mask bit is set; released while the IO domain is in
reset. -/
def State.alert (s : State) : Bool :=
  let c := s.alertCause
  (decide (2 ^ 28 ≤ c) || (c &&& s.dev.alertMask) % 64 != 0) && !s.power.inReset.any (fun d => d.1 == .io)
/-- Brings ALERT_N to its causes; an assertion signals vector 40. -/
def State.refreshAlert (s : State) : State :=
  if s.alert == s.dev.alertAsserted then s
  else if s.alert then (s.modDev (fun d => { d with alertAsserted := true })).signal 40
  else s.modDev (fun d => { d with alertAsserted := false })

/-! ### Events -/

/-- Puts an event item in its place by priority (R413). -/
def insertEvent (e : EventItem) : List EventItem → List EventItem
  | [] => [e]
  | x :: r => if e.prio ≤ x.prio then x :: insertEvent e r else e :: x :: r
/-- The event queue with an item entered; an item whose SPI read is in progress stays at the head (R518). -/
def enterEvent (reading : Bool) (e : EventItem) (l : List EventItem) : List EventItem :=
  match reading, l with
  | true, x :: r => x :: insertEvent e r
  | _, _ => insertEvent e l
/-- Whether two items are of one source (R411). -/
def sameSource (a b : EventItem) : Bool := a.code == b.code && a.kind == b.kind && a.index == b.index
/-- An item enters the event queue, or is held by its source, or is absorbed in the item its source holds (R411).
While the MGMT domain is in reset the queue takes none (R419). -/
def State.postEvent (e : EventItem) (s : State) : State :=
  if s.proto.mgmtResetArmed.isSome then s
  else if s.proto.heldEvents.any (sameSource e) then
    s.modProto (fun p => { p with heldEvents := p.heldEvents.map (fun x =>
      if sameSource e x then { x with coalesced := min 255 (x.coalesced + 1) } else x) })
  else if s.proto.eventQueue.length < 4096 then
    let old := s.fill 11
    ((s.modProto (fun p => { p with eventQueue := enterEvent (p.spiEventRead != 0) e p.eventQueue })).wmCross 11 old).refreshAlert
  else s.modProto (fun p => { p with heldEvents := p.heldEvents ++ [e] })
/-- An event or defect of engine LEi starts a capture armed for it (R468): TRIG_KIND 1 an event, 2 a defect. -/
def State.captureNotice (kind code : Nat) (engine : Nat) (s : State) : State :=
  s.modTile (tileOf engine) (fun t =>
    let c := t.capture
    if c.state == .armed && field c.trigger 28 4 == kind && field c.trigger 0 16 == code
      && field c.sub 8 2 == engine % 4 && c.start.isNone
    then { t with capture := { c with start := some (s.tn + 1) } } else t)
/-- Raises an event of a resource with the given EVENT_TN: its counter advances, and unless its code is masked an item is
posted (R399, R456). -/
def State.raiseAt (ev : Ev) (k : Kind) (idx : Nat) (ws : List Word) (tn : Nat) (s : State) : State :=
  let s := s.happen (ctrSlot k idx 0 ev.code) 1
  let s := if k = .engine then s.captureNotice 1 ev.code idx else s
  if s.proto.masked.contains ev.code then s
  else s.postEvent { code := ev.code, prio := ev.prio, coalesced := 0, kind := kindCode k, index := idx, tn := tn,
                     words := ws }
/-- Raises an event in the present tick. -/
def State.raise (ev : Ev) (k : Kind) (idx : Nat) (ws : List Word) (s : State) : State := s.raiseAt ev k idx ws s.tn
/-- DEFECT_CHANGE (R388): ordinal, new reported state, TN. -/
def State.defectChange (k : Kind) (idx ord : Nat) (now : Bool) (s : State) : State :=
  s.raise .defectChange k idx (w1 ord ++ w1 (b2n now) ++ w2 s.tn)

/-! ### The life record (R499) -/

/-- The first saturation of a field of the life record raises LIFE_RECORD_FULL with its offset. -/
def State.lifeFull (offset : Nat) (s : State) : State :=
  if s.kennel.fullRaised.contains offset then s
  else (s.modKennel (fun k => { k with fullRaised := offset :: k.fullRaised })).raise .lifeRecordFull .device 0 (w1 offset)
/-- Advances a field of the life record by `n`; it saturates at `top`. -/
def State.lifeBump (offset top n : Nat) (get : LifeRecord → Nat) (put : Nat → LifeRecord → LifeRecord) (s : State) : State :=
  let v := get s.kennel.life
  let t := s.modLife (put (min top (v + n)))
  if top < v + n then t.lifeFull offset else t
/-- LEASH_SAT of an engine's record (R500). -/
def State.lifeLeashSat (e : Nat) (s : State) : State :=
  s.lifeBump (1604 + 8 * e) 65535 1 (fun r => (vget r.engines e { ucfTenths := 0, leashSat := 0, isolations := 0 }).leashSat)
    (fun v r => { r with engines := vmod r.engines e (fun x => { x with leashSat := v }) })
/-- ISOLATIONS of an engine's record (R490). -/
def State.lifeIsolation (e : Nat) (s : State) : State :=
  s.lifeBump (1606 + 8 * e) 65535 1 (fun r => (vget r.engines e { ucfTenths := 0, leashSat := 0, isolations := 0 }).isolations)
    (fun v r => { r with engines := vmod r.engines e (fun x => { x with isolations := v }) })

/-! ### Responses -/

end Sys2Proof.Machine
namespace Sys2Proof
/-- Number of a transport that carries responses: 0 to 3 the rings, 4 SPI, none for the internal queues. -/
def Source.port : Source → Option Nat
  | .ring n => some n.val
  | .spi => some 4
  | .firmware => none
  | .shepherd => none
end Sys2Proof
namespace Sys2Proof.Machine
/-- Queue set of transport n's response queue. -/
def respSet (n : Nat) : Nat := if n < 4 then 4 + n else 10
/-- Whether a response fits the response queue of transport n now (R411). -/
def State.respFits (s : State) (n size : Nat) : Bool :=
  let q := respSet n
  if n < 4 then (s.qreg q).enable && !s.dev.d3hot && s.dev.endpointUp && decide (s.fill q + size < s.capacity q)
  else decide (s.fill q + size ≤ 512)
/-- Commits a response to the response queue of transport n. -/
def State.commitResp (n : Nat) (r : Resp) (s : State) : State :=
  let q := respSet n
  let old := s.fill q
  let s := s.modProto (fun p => { p with resp := vmod p.resp n (fun l => l ++ [r]) })
  let s := if n < 4 then
      (s.modQreg q (fun x => { x with pi := (x.pi + r.size) % 2 ^ x.log2 })).advanced q
    else s
  (s.wmCross q old).refreshAlert
/-- Posts a response: committed, held under back-pressure, or, for an internal queue, kept as its last response. -/
def State.postResp (src : Source) (r : Resp) (s : State) : State :=
  match src.port with
  | none => s.modProto (fun p => { p with internalResp := some r })
  | some n =>
    if (vget s.proto.heldResp n []).isEmpty && s.respFits n r.size then s.commitResp n r
    else s.modProto (fun p => { p with heldResp := vmod p.heldResp n (fun l => l ++ [r]) })
/-- Answers a command: FINAL or ACCEPTED, unless NO_RESPONSE suppresses an OK outcome (R396, R397). A FINAL of a change
that took effect while firmware was down is owed until it resumes (R419). -/
def State.respond (t : Ticket) (final : Bool) (st : Status) (detail tn : Nat) (ws : List Word) (s : State) : State :=
  if t.dead || (t.noResponse && st == .ok) then s
  else
    let r : Resp := { opcode := t.opcode, tag := t.tag, issuer := t.issuer, status := st.code, final := final,
                      detail := detail, tn := tn, words := ws }
    if s.recovery.fw == .running then s.postResp t.src r
    else s.modProto (fun p => { p with owedFinals := p.owedFinals ++ [(t.src, r)] })
/-- FINAL in the present tick. -/
def State.final (t : Ticket) (st : Status) (detail : Nat) (ws : List Word) (s : State) : State :=
  s.respond t true st detail s.tn ws

/-! ### Traffic (R38) -/

/-- A calendar entry (Table 8.1); for a PACK entry `engine` is the Pack index and `slot` the Pack slot. -/
structure CalEntry where
  ty : Nat
  port : Nat
  grain : Nat
  engine : Nat
  slot : Nat
  reserved : Nat
  deriving DecidableEq, Repr

/-- The fields of a 48-bit entry. -/
def calDecode (x : Nat) : CalEntry :=
  if field x 46 2 = 2 then
    { ty := 2, port := field x 37 9, grain := field x 25 12, engine := field x 20 5, slot := field x 0 15
      reserved := field x 15 5 }
  else if field x 46 2 = 0 then { ty := 0, port := 0, grain := 0, engine := 0, slot := 0, reserved := field x 0 46 }
  else
    { ty := field x 46 2, port := field x 37 9, grain := field x 25 12, engine := field x 19 6, slot := field x 0 12
      reserved := field x 12 7 }
/-- The engine and line slot an entry names (R232). -/
def State.resolve (s : State) (x : CalEntry) : Option (Nat × Nat) :=
  if x.ty = 1 then some (x.engine, x.slot)
  else if x.ty = 2 then
    let m := (s.pack x.engine).members
    if m.isEmpty then none else (m[x.slot % m.length]?).map (fun e => (e, x.slot / m.length))
  else none
/-- The Pack an engine is a member of. -/
def State.packOf (s : State) (e : Nat) : Option Nat := (List.range 24).find? (fun p => (s.pack p).members.contains e)
/-- An engine carries traffic (R38): its transmitter is not Muzzled, or an entry of the active bank maps a client grain to it
or to a Pack that contains it. -/
def State.carries (s : State) (e : Nat) : Bool :=
  (s.eng e).tx.muzzle != .muzzled
    || s.cal.active.any (fun x => let d := calDecode x.2
        (d.ty == 1 && d.engine == e) || (d.ty == 2 && (s.pack d.engine).members.contains e))

/-- CRYPTO_MODE is GCM and the transmit slot of the frame is EMPTY, or empties at that frame by its EXPIRY_TN (Table 4.7, R356). -/
def State.keyMissing (s : State) (e : Nat) : Bool :=
  let k := (s.eng e).key
  !(s.eng e).zr && !k.none && (vget k.slots k.index Option.none).all (fun x => x.expiry != 0 && decide (x.expiry ≤ s.tn))

/-- SYS_RST_N is low, or the AUX domain is in reset: the whole device but the Kennel is held (Tables 18.4 and 18.5). -/
def State.sysHeld (s : State) : Bool := s.power.sysRstLow || s.power.inReset.any (fun d => d.1 == .aux)
/-- Firmware runs: the device is not in headless hold (R485, Table 18.6). -/
def State.fwUp (s : State) : Bool := s.recovery.fw == .running && s.recovery.headless.isNone

/-- The registers can be reached: neither the whole device nor the MGMT domain is held in reset (R419). -/
def State.mapOpen (s : State) : Bool := !s.sysHeld && s.proto.mgmtResetArmed.isNone
/-- Whether a path reaches the registers now: PCIe needs the endpoint out of D3hot, and SPI its pads (R506, R419, Table 18.4). -/
def State.pathOpen (s : State) (p : Path) : Bool :=
  s.mapOpen && (match p with
    | .pcie => s.dev.endpointUp && !s.dev.d3hot
    | .spi => !s.power.inReset.any (fun d => d.1 == .io)
    | .firmware => s.recovery.fw == .running)

/-! ### Loopback (R490) -/

/-- A loopback is in force. -/
def Engine.looped (g : Engine) : Bool := g.iso.any (fun i => i.loopback != 0)
/-- LOOPBACK in force on an engine: 0 NONE, 1 DIGITAL, 2 ANALOG (R490). -/
def Engine.loopback (g : Engine) : Nat := match g.iso with | some i => i.loopback | none => 0

/-! ### Muzzle reasons (R143) -/

/-- A hard reason is set: the transmitter is MUZZLED with no ramp (R143). -/
def MuzzleReason.hard (r : MuzzleReason) : Bool := r.key || r.power || r.feFault || r.fence
/-- A soft reason is set. -/
def MuzzleReason.soft (r : MuzzleReason) : Bool := r.heel || r.config || r.isolate || r.mgmt
/-- Some bit is set. -/
def MuzzleReason.any (r : MuzzleReason) : Bool := r.hard || r.soft
/-- The automatic reasons of an engine for the frame of this tick (Table 4.7): KEY from the transmit slot, HEEL, CONFIG. -/
def autoReasons (s : State) (e : Nat) (r : MuzzleReason) : MuzzleReason :=
  let g := s.eng e
  { r with key := s.keyMissing e, config := g.kTx == 0
           heel := g.tx.untilHeel && g.acq.leash.enable && !g.acq.atHeel }
/-- The engine carries traffic, or will at the next frame because no Muzzle reason is left (R41, R143). -/
def State.willCarry (s : State) (e : Nat) : Bool :=
  s.carries e || !(autoReasons s e (s.eng e).tx.reason).any

/-! ### Commands in flight -/

/-- Ends a running class L command whose test holds, with its FINAL response. -/
def State.finishJobs (p : Job → Bool) (st : Status) (detail : Nat) (ws : List Word) (s : State) : State :=
  let done := s.proto.jobs.filter p
  let s := s.modProto (fun q => { q with jobs := q.jobs.filter (fun j => !p j) })
  done.foldl (fun s j => s.final j.ticket st detail ws) s
/-- Cancels the pending changes whose test holds (R44): those whose command is unanswered receive FINAL. -/
def State.cancelArmed (p : Armed → Bool) (st : Status) (detail : Nat) (s : State) : State :=
  let out := s.proto.armed.filter p
  let s := s.modProto (fun q => { q with armed := q.armed.filter (fun a => !p a) })
  out.foldl (fun s a => match a.ticket with | some t => s.final t st detail [] | none => s) s
/-- Arms a change; it replaces the pending change of its resource (R44, R45). -/
def State.arm (a : Armed) (s : State) : State :=
  let s := s.cancelArmed (fun b => b.key == a.key) .superseded a.cmd.tag.val
  s.modProto (fun q => { q with armed := q.armed ++ [a] })

end Sys2Proof.Machine
end

