-- ==== Sys2Proof/Machine/Smiulo.lean ====
section
/-! DEFINITION. The Smiulo pipeline: parse checks (R395), ordering and holding (R404 to R406, R41), acceptance, arming and
answering (R396 to R408), shared by every opcode.
What it chooses or infers where the manual is silent, with its marks: log entries 2, 14. -/
namespace Sys2Proof.Machine

/-- Latency classes (R407). -/
inductive OpClass where
  | immediate | tick | long
  deriving DecidableEq, Repr

/-- Tick-alignability (R424). -/
inductive Align where
  | yes | required | no
  deriving DecidableEq, Repr

/-! ### Parameter words -/

/-- Parameter word k as a number. -/
def cw (c : Cmd) (k : Nat) : Nat := (c.words.getD k 0).toNat
/-- Parameter word k as a signed number. -/
def cz (c : Cmd) (k : Nat) : Int := (c.words.getD k 0).toInt
/-- Parameter words k and k + 1 as one number, most significant word first (R422). -/
def cw2 (c : Cmd) (k : Nat) : Nat := cw c k * 2 ^ 32 + cw c (k + 1)
/-- KIND of the target word (R421). -/
def cKind (c : Cmd) : Nat := field (cw c 0) 28 4
/-- INDEX of the target word. -/
def cIdx (c : Cmd) : Nat := field (cw c 0) 16 12
/-- SUB of the target word. -/
def cSub (c : Cmd) : Nat := field (cw c 0) 0 16

/-- What an accepted command does. -/
inductive Effect where
  /-- At once; results of its FINAL OK. -/
  | now (f : Cmd → State → State × List Word)
  /-- At its TN, or at the next tick boundary with FINAL at once (R424). -/
  | boundary (cls : Nat) (f : Cmd → State → State)
  /-- At the next tick boundary, with FINAL there. -/
  | atBoundary (cls : Nat) (f : Cmd → State → State)
  /-- At once, with no response of any kind. -/
  | silent (f : Cmd → State → State)
  /-- Over time: started now, answered by a later happening. -/
  | long (f : Job → Cmd → State → State)

/-- The read counterpart of a setter (R427): number of selector words, their check, the values in effect. -/
structure ReadBack where
  selectors : Nat
  ok : Cmd → State → Bool
  get : Cmd → State → List Word

/-- An opcode of Command Reference: its row, its own conditions in the order of R423, and its effect. -/
structure OpSpec where
  code : Nat
  cls : OpClass := .immediate
  align : Align := .no
  /-- LENGTH for the command's parameters: a fixed number, or the outcome of R552. -/
  len : Cmd → Except (Status × Nat) Nat
  /-- The target word is one the opcode accepts (R421). -/
  target : State → Nat → Nat → Nat → Bool
  /-- Value checks in word order: word index, and whether it is good (R422). -/
  ranges : List (Nat × (State → Cmd → Bool)) := []
  /-- The line tile whose fence refuses the command (R425). -/
  fence : Cmd → Option Nat := fun _ => none
  /-- The refusals of the opcode's row, the first that applies. -/
  refuse : State → Cmd → Option (Status × Nat) := fun _ _ => none
  /-- What a refusal by the command's own conditions does besides its response. -/
  onRefuse : Status → Cmd → State → State := fun _ _ s => s
  /-- The DMA channel of a DMA-backed command. -/
  chan : Cmd → Option Nat := fun _ => none
  /-- What its acceptance does at once, before a change is armed. -/
  onAccept : Cmd → State → State := fun _ s => s
  /-- What the command leads to at a later boundary beyond its effect, for the judgement of R41. -/
  leads : Cmd → State → State := fun _ s => s
  eff : Effect
  read : Option ReadBack := none

/-! ### Target words (R421) -/

/-- Device-wide: KIND 0, INDEX 0, SUB 0. -/
def tgtDevice : State → Nat → Nat → Nat → Bool := fun _ k i b => k == 0 && i == 0 && b == 0
/-- Device-wide, SUB below `n`. -/
def tgtDeviceSub (n : Nat) : State → Nat → Nat → Nat → Bool := fun _ k i b => k == 0 && i == 0 && decide (b < n)
/-- A resource of one kind below `n`, SUB 0. -/
def tgtKind (kd n : Nat) : State → Nat → Nat → Nat → Bool := fun _ k i b => k == kd && decide (i < n) && b == 0
/-- A line engine. -/
def tgtEngine : State → Nat → Nat → Nat → Bool := tgtKind 1 48
/-- A line tile. -/
def tgtTile : State → Nat → Nat → Nat → Bool := tgtKind 2 12
/-- A client port that exists, named by its lowest lane. -/
def tgtPort : State → Nat → Nat → Nat → Bool :=
  fun s k i b => k == 4 && decide (i < 384) && b == 0 && (s.port? i).isSome
/-- The fence rule of an engine command (R425). -/
def fenceEngine : Cmd → Option Nat := fun c => some (tileOf (cIdx c))
/-- The fence rule of a line-tile command. -/
def fenceTile : Cmd → Option Nat := fun c => some (cIdx c)
/-- LENGTH a fixed number. -/
def lenIs (n : Nat) : Cmd → Except (Status × Nat) Nat := fun _ => .ok n
/-- An unsigned value of word k in lo .. hi. -/
def rngU (k lo hi : Nat) : Nat × (State → Cmd → Bool) := (k, fun _ c => decide (lo ≤ cw c k) && decide (cw c k ≤ hi))
/-- A signed value of word k in lo .. hi. -/
def rngS (k : Nat) (lo hi : Int) : Nat × (State → Cmd → Bool) :=
  (k, fun _ c => decide (lo ≤ cz c k) && decide (cz c k ≤ hi))
/-- A condition on word k. -/
def rngP (k : Nat) (p : Nat → Bool) : Nat × (State → Cmd → Bool) := (k, fun _ c => p (cw c k))
/-- A signed 16-bit value of word k, upper or lower half, in lo .. hi. -/
def rngH (k : Nat) (up : Bool) (lo hi : Int) : Nat × (State → Cmd → Bool) :=
  (k, fun _ c => let v := sx 16 (field (cw c k) (if up then 16 else 0) 16); decide (lo ≤ v) && decide (v ≤ hi))

/-! ### Parse checks (Table 14.3) -/

end Sys2Proof.Machine
namespace Sys2Proof
/-- Whether a transport is a host one, whose commands share the tag space of R401. -/
def Source.isHost (s : Source) : Bool := s.port.isSome
end Sys2Proof
namespace Sys2Proof.Machine
/-- Every FINAL response not yet posted, by the tag it ends. -/
def State.heldFinals (s : State) : List Nat :=
  ((s.proto.heldResp.toList.map (fun l => (l.filter Resp.final).map Resp.tag)).flatten)
    ++ (s.proto.owedFinals.filter (fun p => p.1.isHost && p.2.final)).map (fun p => p.2.tag)
/-- The tags in flight on the host transports (R401). -/
def State.tagsInFlight (s : State) : List Nat :=
  (s.proto.jobs.filter (fun j => j.ticket.src.isHost && !j.ticket.dead)).map (fun j => j.ticket.tag)
    ++ (s.proto.armed.filterMap (fun a => a.ticket)).filterMap (fun t => if t.src.isHost && !t.dead then some t.tag else none)
    ++ (s.proto.held.filter (fun h => h.cmd.src.isHost && !h.dead)).map (fun h => h.cmd.tag.val)
    ++ s.heldFinals
/-- The header of a command without CHECK: bits [63:16] (Table 14.2). -/
def headerBits (op : Nat) (c : Cmd) : Nat :=
  op * 2 ^ 36 + c.tag.val * 2 ^ 26 + c.words.length * 2 ^ 16 + b2n c.tn.isSome * 2 ^ 15 + b2n c.noResponse * 2 ^ 14
    + b2n c.barrier * 2 ^ 13 + b2n c.urgent * 2 ^ 12 + c.reserved.toNat * 2 ^ 8 + c.issuer.toNat
/-- The octets of a command after its header, padding excluded (R393). -/
def bodyOctets (c : Cmd) : List Octet :=
  (match c.tn with | some t => octetsBE 8 t | none => []) ++ unpackWords c.words
/-- CHECK of a command (R393). -/
def checkOf (op : Nat) (c : Cmd) : Nat := crc16 (octetsBE 6 (headerBits op c) ++ bodyOctets c)
/-- The first 8 octets of a command as received, as one number. -/
def headerNat (op : Nat) (c : Cmd) : Nat := headerBits op c * 65536 + checkOf op c
end Sys2Proof.Machine
namespace Sys2Proof
/-- The register set of a host transport's command queue. -/
def Source.cmdSet (s : Source) : Nat := match s with | .ring n => n.val | _ => 9
end Sys2Proof
namespace Sys2Proof.Machine
/-- Reasons of BAD_ITEM, in the order R410 and R402 name them. -/
inductive BadReason where
  | badCheck | abandoned | oversize | tagInUse
  deriving DecidableEq, Repr
/-- Code of a BAD_ITEM reason. -/
def BadReason.code : BadReason → Nat
  | .badCheck => 0 | .abandoned => 1 | .oversize => 2 | .tagInUse => 3
/-- Posts BAD_ITEM for a queue: reason, and the first 8 octets as received. -/
def State.badItem (q : Nat) (r : BadReason) (header : Nat) (s : State) : State :=
  s.raise .badItem .queue q (w1 r.code ++ w2 header)
/-- Rewinds an item (R410): QUEUE_REWOUND advances and BAD_ITEM is posted. -/
def State.rewind (q : Nat) (r : BadReason) (header : Nat) (s : State) : State :=
  (s.count .queueRewound .queue q 1).badItem q r header

/-- Checks 3 to 7 of Table 14.3 for an assigned opcode, in order. -/
def parseRefusal (sp : OpSpec) (c : Cmd) (s : State) : Option (Status × Nat) :=
  if c.reserved != 0 || (c.urgent && c.tn.isSome) then some (.flagsInvalid, 0)
  else match sp.len c with
  | .error e => some e
  | .ok n =>
    if c.words.length != n then some (.parameterLength, n)
    else if c.tn.isSome && sp.align == .no then some (.notAlignable, 0)
    else if c.tn.isNone && sp.align == .required then some (.tickRequired, 0)
    else if c.urgent && sp.cls != .immediate then some (.flagsInvalid, 0)
    else match c.tn with
    | none => none
    | some t =>
      if t < s.tn + 8 then some (.tickPassed, s.tn % 2 ^ 32)
      else if s.tn + (2 ^ 32 - 1) < t then some (.outOfRange, s.tn % 2 ^ 32)
      else none

/-- The first value out of its range (R421, R422): DETAIL 0 for the target word. -/
def rangeRefusal (sp : OpSpec) (c : Cmd) (s : State) : Option (Status × Nat) :=
  if !sp.target s (cKind c) (cIdx c) (cSub c) then some (.parameterInvalid, 0)
  else match sp.ranges.find? (fun r => !r.2 s c) with
  | some r => some (.parameterInvalid, r.1)
  | none => none
/-- The fenced-tile rule (R425). -/
def fenceRefusal (sp : OpSpec) (c : Cmd) (s : State) : Option (Status × Nat) :=
  match sp.fence c with
  | some t => if (s.tile t).fenced then some (.tileFenced, t) else none
  | none => none
/-- Check 8 in the order of R423. -/
def ownRefusal (sp : OpSpec) (c : Cmd) (s : State) : Option (Status × Nat) :=
  match rangeRefusal sp c s with
  | some e => some e
  | none => match fenceRefusal sp c s with
    | some e => some e
    | none => sp.refuse s c

/-! ### Starting an accepted command -/

/-- The ticket of a command. -/
def ticketOf (op : Nat) (c : Cmd) (seq : Nat) : Ticket :=
  { src := c.src, opcode := op, tag := c.tag.val, issuer := c.issuer.toNat, noResponse := c.noResponse,
    barrier := c.barrier, seq := seq, dead := false }
/-- The resource a command changes: of a counter setter, what its selector word names (Table 15.10). -/
def keyOf (cls : Nat) (c : Cmd) : ChangeKey :=
  { cls := cls, kind := cKind c, index := cIdx c, sub := if cls = 0x801 ∨ cls = 0x802 then cw c 1 else cSub c }
/-- Whether some engine that carries no traffic in `s` carries some in `t` (R41). -/
def newlyCarries (s t : State) : Bool := (List.range 48).any (fun e => !s.willCarry e && t.willCarry e)
/-- The state a command's effect leads to, for the judgement of R41. -/
def effectOn (sp : OpSpec) (c : Cmd) (s : State) : State :=
  sp.leads c (match sp.eff with
    | .now f => (f c s).1
    | .boundary _ f => f c s
    | .atBoundary _ f => f c s
    | .silent f => f c s
    | .long f => f { ticket := ticketOf sp.code c 0, cmd := c, chan := sp.chan c, lastProgress := 0 } c s)
/-- A scheduled realignment holds commands, for at most 625,002 ticks from its decision (R41). -/
def State.realignHolds (s : State) : Bool := s.realign.any (fun r => decide (s.ticks < r.decided + 625002))
/-- Carries out an accepted command: its effect now, or its change armed, or its work begun, with the responses of its
latency class (R397, R398, R407). -/
def carryOut (sp : OpSpec) (c : Cmd) (t : Ticket) (s : State) : State :=
  let s := sp.onAccept c s
  match sp.eff with
  | .now f => let r := f c s; r.1.final t .ok 0 r.2
  | .boundary cls _ =>
    match c.tn with
    | some due =>
      (s.arm { due := due, key := keyOf cls c, opcode := sp.code, cmd := c, ticket := some t }).respond
        t false .ok 0 s.tn []
    | none =>
      (s.arm { due := s.tn + 1, key := keyOf cls c, opcode := sp.code, cmd := c, ticket := none }).final t .ok 0 []
  | .atBoundary cls _ =>
    let s := s.arm { due := c.tn.getD (s.tn + 1), key := keyOf cls c, opcode := sp.code, cmd := c, ticket := some t }
    if c.tn.isSome then s.respond t false .ok 0 s.tn [] else s
  | .silent f => f c s
  | .long f =>
    let j : Job := { ticket := t, cmd := c, chan := sp.chan c, lastProgress := s.ticks }
    f j c (s.respond t false .ok 0 s.tn [])
/-- A parsed command is held. -/
def State.hold (op : Nat) (c : Cmd) (seq : Nat) (why : HoldWhy) (s : State) : State :=
  s.modProto (fun p => { p with held := p.held ++ [{ opcode := op, cmd := c, seq := seq, why := why, dead := false }] })
/-- Starts a command that has passed checks 2 to 7: its own conditions, the hold of R41, then its effect. A tick-aligned
command whose TN has passed while it was held is answered TICK_PASSED. -/
def startCmd (sp : OpSpec) (c : Cmd) (t : Ticket) (s : State) : State :=
  match ownRefusal sp c s with
  | some (st, d) => (sp.onRefuse st c s).final t st d []
  | none =>
    if c.tn.any (fun due => decide (due ≤ s.tn)) then s.final t .tickPassed (s.tn % 2 ^ 32) []
    else if s.realignHolds && newlyCarries s (effectOn sp c s) then
      s.hold sp.code c t.seq .realign
    else carryOut sp c t s
/-- Whether an earlier-parsed command still keeps a barrier waiting (R405). -/
def barrierWaits (seq : Nat) (s : State) : Bool :=
  s.proto.jobs.any (fun j => decide (j.ticket.seq < seq))
    || s.proto.armed.any (fun a => a.cmd.tn.isNone && a.ticket.any (fun t => decide (t.seq < seq)))
    || s.proto.held.any (fun h => decide (h.seq < seq))
/-- What a device-wide opcode acts on, as far as its number tells: its group and the sixteen opcodes it stands among, a read counterpart
with its setter. -/
def opFamily (op : Nat) : Nat := op / 256 * 8 + op % 128 / 16
/-- Two commands act on one resource (R404): the same target word but for SUB, and of device-wide opcodes the same family. -/
def sameResource (op : Nat) (c : Cmd) (op' : Nat) (c' : Cmd) : Bool :=
  cKind c == cKind c' && cIdx c == cIdx c' && (cKind c != 0 || opFamily op == opFamily op')
/-- An earlier-parsed command on the command's resource has not started (R404). -/
def orderWaits (op : Nat) (c : Cmd) (seq : Nat) (s : State) : Bool :=
  s.proto.held.any (fun h => decide (h.seq < seq) && sameResource h.opcode h.cmd op c)
/-- Happenings of the PRIVILEGE selectors (R463): the command's privilege and opcode match. -/
def State.countPrivilege (op : Nat) (src : Source) (s : State) : State :=
  let p := match src with | .shepherd => 2 | .firmware => 1 | _ => 0
  s.ctr.filters.foldl (fun s f =>
    if f.2.kind == 1 && bit f.2.lo p && decide (field f.2.hi 16 12 ≤ op) && decide (op ≤ field f.2.hi 0 12)
    then s.happen (23552 + f.1) 1 else s) s
/-- Parses one item (R395): checks in the order of Table 14.3; the first that fails decides. -/
def parseCmd (spec : Option OpSpec) (op : Nat) (c : Cmd) (s : State) : State :=
  if c.src.isHost && s.tagsInFlight.contains c.tag.val then
    (s.count .tagCollisions .device 0 1).badItem c.src.cmdSet .tagInUse (headerNat op c)
  else
    let t := ticketOf op c s.proto.nextSeq
    let s := (s.modProto (fun p => { p with nextSeq := p.nextSeq + 1 })).countPrivilege op c.src
    match spec with
    | none =>
      if c.reserved != 0 || (c.urgent && c.tn.isSome) then s.final t .flagsInvalid 0 []
      else s.final t .unknownOpcode 0 []
    | some sp =>
      match parseRefusal sp c s with
      | some (st, d) => s.final t st d []
      | none =>
        if c.barrier && barrierWaits t.seq s then s.hold op c t.seq .barrier
        else if orderWaits op c t.seq s then s.hold op c t.seq .order
        else startCmd sp c t s

/-! ### Which item is parsed (R403 to R406, R411, R419) -/

/-- Whether the device parses ordinary items of this transport now. -/
def State.parses (src : Source) (s : State) : Bool :=
  s.fwUp
    && (match src.port with
        | none => true
        | some n => decide ((vget s.proto.heldResp n []).length < 64) && decide (s.tagsInFlight.length < 1024)
            && (n == 4 || !s.dev.d3hot))
/-- Whether a barrier command of this transport has not completed (R405). -/
def State.barred (src : Source) (s : State) : Bool :=
  s.proto.held.any (fun h => h.cmd.barrier && decide (h.cmd.src = src))
    || s.proto.jobs.any (fun j => j.ticket.barrier && decide (j.ticket.src = src))
    || s.proto.armed.any (fun a => a.ticket.any (fun t => t.barrier && decide (t.src = src)))
end Sys2Proof.Machine
namespace Sys2Proof
/-- Number of a source's item list: 0 to 3 the rings, 4 SPI, 5 and 6 the internal queues of firmware and the Shepherd. -/
def Source.list : Source → Nat
  | .ring n => n.val | .spi => 4 | .firmware => 5 | .shepherd => 6
end Sys2Proof
namespace Sys2Proof.Machine
/-- The visible items of a transport, oldest first. -/
def State.visible (n : Nat) (s : State) : List CmdItem :=
  if n = 5 then s.proto.internal else if n = 6 then s.proto.shepInternal else (s.cmdq n).items
/-- Replaces the visible items of a transport. -/
def State.setVisible (n : Nat) (l : List CmdItem) (s : State) : State :=
  if n = 5 then s.modProto (fun p => { p with internal := l })
  else if n = 6 then s.modProto (fun p => { p with shepInternal := l }) else s.modCmdq n (fun q => { q with items := l })
/-- Removes item `k` of a list; the words it spans stay occupied behind an earlier item, and are given back with it. -/
def takeItem (l : List CmdItem) (k : Nat) : List CmdItem × Nat :=
  match l[k]? with
  | none => (l, 0)
  | some it =>
    match k with
    | 0 => (l.tail, it.span)
    | j + 1 => ((l.eraseIdx k).modify j (fun x => { x with span := x.span + it.span }), 0)
/-- Takes item `k` of transport `n` out of its queue: on a ring, CI moves past words no earlier item holds. -/
def State.takeVisible (n k : Nat) (s : State) : State :=
  let r := takeItem (s.visible n) k
  let s := s.setVisible n r.1
  if n < 4 && r.2 != 0 then
    (s.modQreg n (fun q => { q with ci := (q.ci + r.2) % 2 ^ q.log2 })).advanced n
  else if n = 4 then s.modProto (fun p => { p with mgmtRdy := p.mgmtRdy || decide (p.spi.fill + 64 ≤ 512) })
  else s
/-- Position of the item a transport parses next, if it parses one now: an URGENT item among the first 64, else the
first unless a barrier holds it. -/
def State.nextItem (n : Nat) (s : State) : Option Nat :=
  let l := s.visible n
  match (l.take 64).findIdx? (fun i => i.cmd.urgent && i.bad.isNone) with
  | some k => match l[k]? with
    | some it => if s.parses it.cmd.src then some k else none
    | none => none
  | none => match l with
    | [] => none
    | it :: _ => if s.parses it.cmd.src && !s.barred it.cmd.src && it.bad.isNone then some 0 else none
/-- An URGENT item stands among the first 64 visible items of a transport that parses now (R406). -/
def State.urgentOn (n : Nat) (s : State) : Bool :=
  ((s.visible n).take 64).any (fun i => i.cmd.urgent && i.bad.isNone && s.parses i.cmd.src)
/-- The item lists in the order of rotation: the internal queues, rings 0 to 3, SPI (R404). -/
def itemLists : List Nat := [5, 6, 0, 1, 2, 3, 4]
/-- One stands on a transport other than `n`: the ordinary items of all transports wait for it. -/
def State.urgentElse (n : Nat) (s : State) : Bool := itemLists.any (fun m => m != n && s.urgentOn m)
/-- Rewinds the items with a bad CHECK that a transport has reached (R406, R410); at most `fuel` of them. -/
def State.dropBad (n : Nat) : Nat → State → State
  | 0, s => s
  | fuel + 1, s =>
    match s.visible n with
    | [] => s
    | it :: _ =>
      match it.bad with
      | some h => if s.parses it.cmd.src && !s.barred it.cmd.src then
          ((s.takeVisible n 0).rewind it.cmd.src.cmdSet .badCheck h).dropBad n fuel else s
      | none => s
/-- The command's item stands visible in its transport; where it was not delivered before, it is delivered now. -/
def State.ensureVisible (op : Nat) (c : Cmd) (s : State) : State :=
  let n := c.src.list
  if (s.visible n).any (fun i => i.opcode == op && decide (i.cmd = c)) then s
  else s.setVisible n (s.visible n ++ [{ opcode := op, cmd := c, span := 0, bad := none }])
/-- A command of the table's opcode rows: its item is visible, and is parsed now if its turn has come. -/
def runSpec (spec : Option OpSpec) (op : Nat) (c : Cmd) (s : State) : State :=
  let n := c.src.list
  let s := (s.ensureVisible op c).dropBad n 64
  match s.nextItem n with
  | none => s
  | some k => match (s.visible n)[k]? with
    | none => s
    | some it =>
      if it.opcode = op ∧ it.cmd = c ∧ (c.urgent || !s.urgentElse n) = true then parseCmd spec op c (s.takeVisible n k) else s
/-- A command whose opcode has the given row. -/
def runOp (sp : OpSpec) (c : Cmd) (s : State) : Res := .next (runSpec (some sp) sp.code c s)

/-- The read counterpart of a setter as an opcode of its own (R427). -/
def readSpec (sp : OpSpec) (r : ReadBack) : OpSpec :=
  { code := sp.code + 128, len := lenIs (1 + r.selectors), target := sp.target,
    ranges := [(1, fun s c => r.ok c s)], eff := .now (fun c s => (s, r.get c s)) }

end Sys2Proof.Machine
end

