-- ==== Sys2Proof/Machine/Operands.lean ====
section
/-! DEFINITION. Operand arithmetic that several families share: line layouts and frame sizes (Tables 2.1 and 2.2), loading
vectors (R109 to R112), and the grain allocations of clients (Table 1.5).
What it chooses or infers where the manual is silent, with its marks: log entries 15, 23. -/
namespace Sys2Proof.Machine

/-! ### Layouts: RATE_CODE in bits [3:2], SC_SET in bits [1:0] (Table 2.1, Table 5.3) -/

/-- RATE_CODE of a layout. -/
def rateCode (layout : Nat) : Nat := field layout 2 2
/-- SC_SET of a layout. -/
def scSet (layout : Nat) : Nat := field layout 0 2
/-- Pilot blocks per stream (B of Table 2.1). -/
def pilotBlocks (layout : Nat) : Nat := [1248, 998, 748, 623].getD (rateCode layout) 0
/-- Symbols per stream per tick, N_s = 64 + 32 B (R60). -/
def symbolsPerTick (layout : Nat) : Nat := 64 + 32 * pilotBlocks layout
/-- Payload symbols per stream, 31 B. -/
def payloadSymbols (layout : Nat) : Nat := 31 * pilotBlocks layout
/-- Active subcarriers: eight with SC_SET 0b00, SC2 to SC5 with 0b01 (R59). -/
def activeCount (layout : Nat) : Nat := if scSet layout = 0 then 8 else 4
/-- Whether subcarrier SCs is active. -/
def scActive (layout s : Nat) : Bool := if scSet layout = 0 then decide (s < 8) else decide (2 ≤ s) && decide (s ≤ 5)
/-- Active streams, two to a subcarrier. -/
def activeStreams (layout : Nat) : Nat := 2 * activeCount layout
/-- A layout of Table 2.1: SC_SET 0b10 and 0b11 are reserved. -/
def layoutOk (layout : Nat) : Bool := decide (layout < 16) && decide (scSet layout < 2)

/-! ### Frame sizes (R66, R67) -/

/-- Grains of a capacity K (R49). -/
def grains (k : Nat) : Nat := 315 * k
/-- U_K: units of 1,920 octets that hold the raw body of 512 + 40,635 K octets. -/
def unitsOf (k : Nat) : Nat := (512 + 40635 * k + 1919) / 1920
/-- C_K: bits of the coded frame. -/
def codedBits (k : Nat) : Nat := 18432 * unitsOf k
/-- T_K = ceil(8 (C_K + N_q) / P) (R109). -/
def loadTotal (k layout : Nat) : Nat :=
  (8 * (codedBits k + activeStreams layout) + payloadSymbols layout - 1) / payloadSymbols layout
/-- Whether a layout carries a capacity (R110, Table 3.5). -/
def capFits (k layout : Nat) : Bool :=
  layoutOk layout && decide (2 ≤ k) && decide (k ≤ 10) && decide (16 * activeCount layout ≤ loadTotal k layout)
    && decide (loadTotal k layout ≤ 128 * activeCount layout)

/-! ### Loading vectors -/

/-- A valid loading vector for a capacity on a layout (R109). -/
def vecValid (k layout : Nat) (v : List Nat) : Bool :=
  v.length == 8 && (List.range 8).all (fun s =>
    if scActive layout s then decide (16 ≤ v.getD s 0) && decide (v.getD s 0 ≤ 128) else v.getD s 0 == 0)
    && v.foldl (· + ·) 0 == loadTotal k layout
/-- The default vector (R111); zeros with no capacity. -/
def defaultVec (k layout : Nat) : List Nat :=
  if k = 0 then List.replicate 8 0 else
  let n := activeCount layout
  let t := loadTotal k layout
  let first := if scSet layout = 0 then 0 else 2
  (List.range 8).map (fun s => if scActive layout s then t / n + (if s - first < t % n then 1 else 0) else 0)
/-- 10 log10(2^(L/16) − 1) in 0.0001 dB, for L = 16 to 128 (R112). -/
def loadSnr (l : Nat) : Int :=
  (([0, 3685, 7226, 10639, 13938, 17135, 20240, 23262, 26208, 29085, 31899, 34654, 37357, 40011, 42619, 45185]
    ++ [47712, 50203, 52660, 55086, 57482, 59851, 62194, 64513, 66809, 69084, 71339, 73576, 75794, 77996, 80182, 82353]
    ++ [84510, 86653, 88785, 90904, 93012, 95109, 97196, 99273, 101341, 103401, 105452, 107496, 109532, 111561, 113583, 115599]
    ++ [117609, 119613, 121612, 123605, 125593, 127577, 129555, 131530, 133500, 135467, 137430, 139389, 141345, 143297, 145246, 147193]
    ++ [149136, 151077, 153015, 154951, 156884, 158815, 160744, 162671, 164596, 166519, 168440, 170360, 172278, 174194, 176109, 178022]
    ++ [179934, 181845, 183754, 185662, 187569, 189475, 191380, 193284, 195187, 197089, 198990, 200890, 202790, 204689, 206587, 208484]
    ++ [210380, 212276, 214172, 216066, 217960, 219854, 221747, 223640, 225532, 227424, 229315, 231206, 233096, 234986, 236876, 238765]
    ++ [240654] : List Int)).getD (l - 16) 0
/-- Is s/e at least 10^((2n − 1)/200), half a step below n tenths of a dB? -/
def overTenths (s e : Nat) (n : Int) : Bool :=
  decide (e ^ 200 * 10 ^ (2 * n - 1).toNat ≤ s ^ 200 * 10 ^ (1 - 2 * n).toNat)
/-- 10 log10(s/e) in 0.1 dB, to the nearest, within the range of SNR (R202, Table 6.10). -/
def tenthsDb (s e : Nat) : Int :=
  [256, 128, 64, 32, 16, 8, 4, 2, 1].foldl (fun (n d : Int) => if n + d ≤ 400 ∧ overTenths s e (n + d) then n + d else n) (-100)
/-- Margin of a subcarrier in 0.0001 dB times the number of reports summed (R112). -/
def margin (sum : Int) (count l : Nat) : Int := 1000 * sum - count * loadSnr l
/-- Index of the largest margin among the active subcarriers, ties to the lower index. -/
def argMax (layout : Nat) (m : List Int) : Nat :=
  ((List.range 8).filter (scActive layout)).foldl
    (fun b s => if scActive layout b && decide (m.getD s 0 ≤ m.getD b 0) then b else s) 8
/-- Index of the smallest margin among the active subcarriers, ties to the lower index. -/
def argMin (layout : Nat) (m : List Int) : Nat := argMax layout (m.map (fun x => -x))
/-- The policy's steps (R112): at most `fuel` moves of one unit from the smallest to the largest margin. -/
def policySteps (layout count hyst : Nat) (sums : List Int) : Nat → List Nat → List Nat
  | 0, v => v
  | fuel + 1, v =>
    let m := (List.range 8).map (fun s => margin (sums.getD s 0) count (v.getD s 0))
    let hi := argMax layout m
    let lo := argMin layout m
    if m.getD hi 0 - m.getD lo 0 ≤ (hyst * 1000 * count : Nat) ∨ v.getD hi 0 = 128 ∨ v.getD lo 0 = 16 then v
    else policySteps layout count hyst sums fuel ((v.set hi (v.getD hi 0 + 1)).set lo (v.getD lo 0 - 1))

/-! ### Clients (Table 1.5, R4) -/

/-- Client types in the order of Table 1.5: 100GbE, 200GbE, 400GbE, 800GbE, 1.6TbE. Grains of a type. -/
def clientGrains (ty : Nat) : Nat := [158, 315, 630, 1260, 2520].getD ty 0
/-- 257-bit blocks per tick of a type at the nominal client rate. -/
def clientBlocks (ty : Nat) : Nat := [625, 1250, 2500, 5000, 10000].getD ty 0

/-- Capacity and vector of frame `tn` of an engine's transmitter: those of a committed announcement from its LOAD_TN on. -/
def Engine.txAt (g : Engine) (tn : Nat) : Nat × List Nat :=
  match g.load.ann with
  | some a => if a.accepted && a.why != .abort && decide (a.loadTn ≤ tn) then (a.k, a.vec) else (g.kTx, g.load.vecTx)
  | none => (g.kTx, g.load.vecTx)

/-! ### Dispersion (R181) -/

/-- CENTRE_N of an engine's slot: its map entry's, or 0 (193.1 THz) where that is invalid. -/
def State.slotCentre (s : State) (e : Nat) : Int := ((vget s.map e none).getD 0)
/-- A(D) = round(|D| × Δλ_c / 2 / T_smp) samples, with Δλ_c = c × 212.5 GHz / f_c² and f_c = 193.1 THz + n × 6.25 GHz. -/
def alignSamples (b : CdBank) : Nat :=
  let g := (19310000 + 625 * b.centreN).toNat
  (roundDiv (b.d.natAbs * (299792458 * 2125 * 225 * 10000)) (10 * g * g * 2000)).toNat
/-- RX_CD in 2⁻¹⁶ ns for an alignment in 1/64 sample: 320 ns + A × T_smp (R187). -/
def rxCdDelay (align : Nat) : Int := 320 * 65536 + roundDiv (align * 1024) 225

end Sys2Proof.Machine
end

