-- ==== Sys2Proof/Machine/Flags.lean ====
section
/-! DEFINITION. The status bits and reason fields the manual numbers: MUZZLE_REASON (Table 4.7), freeze reasons (Table 6.9),
defect bitmaps (R457), DEVICE_STATUS flags (Table 15.1), and the coded states that responses and events carry.
What it chooses or infers where the manual is silent, with its marks: log entry 38. -/
namespace Sys2Proof.Machine

/-- MUZZLE_REASON as its 8 bits (Table 4.7). -/
def MuzzleReason.code (r : MuzzleReason) : Nat :=
  b2n r.key * 128 + b2n r.power * 64 + b2n r.feFault * 32 + b2n r.fence * 16 + b2n r.heel * 8 + b2n r.config * 4
    + b2n r.isolate * 2 + b2n r.mgmt
/-- Muzzle state codes, in the order of Table 4.6. -/
def Muzzle.code : Muzzle → Nat
  | .muzzled => 0 | .rampUp => 1 | .unmuzzled => 2 | .rampDown => 3
/-- ACQ_STATE (Table 5.3). -/
def AcqState.code : AcqState → Nat
  | .disabled => 0 | .noSignal => 1 | .search => 2 | .confirm => 3 | .inFrame => 4 | .oof => 5
/-- Freeze reason bits, LOW_POWER in bit 0, in the order of Table 6.9. -/
def FreezeFlags.code (f : FreezeFlags) : Nat :=
  b2n f.lowPower + b2n f.noClock * 2 + b2n f.pilotOnly * 4 + b2n f.decodeFail * 8 + b2n f.brace * 16
/-- A freeze condition is present. -/
def FreezeFlags.any (f : FreezeFlags) : Bool := f.lowPower || f.noClock || f.pilotOnly || f.decodeFail || f.brace
/-- CD estimates are held (Table 6.9). -/
def FreezeFlags.holdsCd (f : FreezeFlags) : Bool := f.lowPower || f.noClock || f.brace
/-- CD tracking is held (Table 6.9). -/
def FreezeFlags.holdsTrack (f : FreezeFlags) : Bool := f.lowPower || f.noClock || f.decodeFail || f.brace
/-- SNR estimates are held. -/
def FreezeFlags.holdsSnr (f : FreezeFlags) : Bool := f.lowPower || f.noClock || f.brace
/-- The receiver is in frame (R150). -/
def Engine.inFrame (g : Engine) : Bool := g.acq.state == .inFrame
/-- Capture unit states (R468). -/
def CapState.code : CapState → Nat
  | .idle => 0 | .armed => 1 | .filling => 2 | .done => 3
/-- STATE of a DMA channel (Table 17.6). -/
def DmaState.code : DmaState → Nat
  | .idle => 0 | .waiting => 1 | .running => 2 | .ended => 3
/-- END of a DMA channel (Table 17.6). -/
def DmaEnd.code : DmaEnd → Nat
  | .none => 0 | .done => 1 | .doneWithError => 2 | .sourceWithdrawn => 3 | .descInvalid => 4 | .aborted => 5
/-- STAGE (Table 19.5). -/
def Stage.code : Stage → Nat
  | .rom => 0 | .verifying => 1 | .waitHost => 2 | .loading => 3 | .running => 4 | .failed => 5
/-- State word of SHEPHERD_STATUS (R489). -/
def ShepState.code : ShepState → Nat
  | .watching => 0 | .restarting => 1 | .held => 2 | .stopped => 3 | .lastResort => 4
/-- The DEVICE_STATUS flags word (Table 15.1); its bits [5:0] are DEV_FLAGS (Table 19.5). -/
def State.devFlags (s : State) : Nat :=
  b2n s.power.braceOn.isSome + b2n s.recovery.headless.isSome * 2 + b2n s.tnProvisional * 4
    + b2n s.kennel.settings.epochSet * 8 + b2n s.dev.fwSlot * 16 + b2n s.sec.testOpen * 32
/-- Every line defect, in ordinal order. -/
def lineDefects : List LineDefect :=
  [.los, .oof, .lof, .ucf, .fmtMm, .authFail, .deg, .tim, .srcMm, .rxLck, .rxTest, .rxBdi, .rxBauth, .rxBsd, .rxBpack,
   .asymInvalid]
/-- Every client-port defect, in ordinal order. -/
def clientDefects : List ClientDefect := [.cDown, .cLos, .cLoa, .cDeg, .cLf, .cRf, .cMap, .cCsf, .cNomap]
/-- A bitmap with bit `ord d` set for each listed defect. -/
def bitmapOf (ords : List Nat) : Nat := ords.foldl (fun n o => n ||| 2 ^ o) 0

end Sys2Proof.Machine
end

