-- ==== Sys2Proof/Machine/CaptureDma.lean ====
section
/-! DEFINITION. Counters, Capture and DMA, the capture unit and the DMA channels: capture (R467 to R469), channels (R470 to
R474). The counter array is in Machine/Counting.lean.
What it chooses or infers where the manual is silent, with its marks: log entries 11, 33. -/
namespace Sys2Proof.Machine

/-! ### Ends of a DMA channel (R473) -/

/-- The completion record of a channel: four words (R473). -/
def completionRecord (c : Nat) (d : DmaChannel) (e : DmaEnd) (part : Bool) (tn : Nat) : List Word :=
  w1 (e.code * 2 ^ 24 + b2n part * 256 + c) ++ w1 d.bytesDone ++ w1 tn ++ w1 (tn >>> 32)
/-- Opcodes whose channel moves data from the host to the device: CAL_LOAD, ENGINE_NLC_COEF_LOAD, CONV_CAL_LOAD, FE_PROFILE_LOAD,
FW_LOAD. -/
def loadOpcodes : List Nat := [0x200, 0x10B, 0x132, 0x610, 0xB00]
/-- The job a channel works for. -/
def onChannel (c : Nat) : Job → Bool := fun j => j.chan == some c
/-- Whether a channel moves data from the host to the device: that of a loading command, or of the boot image (R522). -/
def State.hostToDevice (s : State) (c : Nat) : Bool :=
  !(s.dc c).devSel && (s.proto.jobs.any (fun j => onChannel c j && loadOpcodes.contains j.ticket.opcode) || (c == 0 && s.dev.bootGo))
/-- Whether an end sets PARTIAL (Table 17.7). -/
def DmaEnd.isPartial (e : DmaEnd) (load : Bool) : Bool := e == .sourceWithdrawn || (e == .aborted && !load)
/-- A channel ends: its record is written, its counters advance, its vector is signalled with INT_EN set, and a
DMA-backed command whose channel it is receives FINAL under R426. `commit` is what an end DONE commits. -/
def State.endChannel (c : Nat) (e : DmaEnd) (s : State) : State :=
  let d := s.dc c
  let s := s.modDc c (fun d => { d with
    state := .ended, ended := e, abort := false, withdrawn := false,
    record := some (completionRecord c d e (e.isPartial (s.hostToDevice c)) s.tn) })
  let s := if e == .doneWithError then s.count .dmaErrEnds .dma c 1 else s
  let s := if e == .sourceWithdrawn then s.count .dmaWithdrawnEnds .dma c 1 else s
  if d.intEn then s.signal (16 + c) else s
/-- The slot an FW_LOAD names is the Shepherd's. -/
def loadsShep (c : Cmd) : Bool := bit (cSub c) 8
/-- The slot number. -/
def loadSlot (c : Cmd) : Nat := field (cSub c) 0 1
/-- A slot takes an image, or is marked empty. -/
def State.setSlot (c : Cmd) (x : FwSlot) (s : State) : State :=
  { s with sec := if loadsShep c then { s.sec with shep := vmod s.sec.shep (loadSlot c) (fun _ => x) }
                  else { s.sec with fw := vmod s.sec.fw (loadSlot c) (fun _ => x) } }
/-- FW_LOADs whose channel ends otherwise than DONE leave their slot marked empty (R366). -/
def State.emptySlot? (hit : Job → Bool) (s : State) : State :=
  (s.proto.jobs.filter (fun j => hit j && j.ticket.opcode == 0xB00)).foldl (fun s j => s.setSlot j.cmd .reset) s
/-- FINAL of a DMA-backed command whose channel has ended without committing (R426, R473). -/
def State.answerChannel (c : Nat) (e : DmaEnd) (s : State) : State :=
  let s := if e == .done then s else s.emptySlot? (onChannel c)
  match e with
  | .doneWithError => s.finishJobs (onChannel c) .transferError c []
  | .sourceWithdrawn => s.finishJobs (onChannel c) .sourceWithdrawn c []
  | .aborted => s.finishJobs (onChannel c) .cancelled 0xFFF []
  | _ => s
/-- Ends every channel without record or interrupt, as PERST_N, MGMT_RST_N and D3hot do (R473, R474, R506); `drop` tells the
commands that receive no response (Table 17.9), the others are answered CANCELLED with DETAIL 0xFFF. -/
def State.killChannels (drop : Job → Bool) (s : State) : State :=
  let busy : Nat → Bool := fun c => (s.dc c).state == .waiting || (s.dc c).state == .running
  let hit : Job → Bool := fun j => j.chan.any busy
  let s := s.emptySlot? hit
  let s := s.modProto (fun p => { p with jobs := p.jobs.filter (fun j => !(hit j && drop j)) })
  let s := s.finishJobs hit .cancelled 0xFFF []
  { s with
      dma := s.dma.map (fun d => if d.state == DmaState.waiting || d.state == DmaState.running
      then { d with state := .ended, ended := .aborted, abort := false, staged := [], bad := false } else d) }

/-! ### Capture -/

/-- Causes of CAP_WITHDRAWN (R469). -/
inductive CapCause where
  | command | fence | notInFrame | config
  deriving DecidableEq, Repr
/-- Code of a CAP_WITHDRAWN cause. -/
def CapCause.code : CapCause → Nat
  | .command => 0 | .fence => 1 | .notInFrame => 2 | .config => 3
/-- The engine a capture unit is set to (R467). -/
def Capture.engine (c : Capture) (tile : Nat) : Nat := 4 * tile + field c.sub 8 2
/-- Capture-memory address of device-side octet n of a channel (R471). -/
def DmaChannel.devAddr (d : DmaChannel) (n : Nat) : Nat := d.devOffset + n / d.lineLen * d.devStride + n % d.lineLen
/-- Device-side octets of a CAPTURE channel that precede the first one beyond `filled` octets of capture memory. -/
def DmaChannel.available (d : DmaChannel) (filled : Nat) : Nat :=
  let whole := if filled < d.devOffset + d.lineLen ∨ d.devStride = 0 then 0
    else min d.lineCount ((filled - d.devOffset - d.lineLen) / d.devStride + 1)
  whole * d.lineLen + (if whole < d.lineCount then min d.lineLen (filled - (d.devOffset + whole * d.devStride)) else 0)
/-- The octets that a CAPTURE channel finds in a unit which is DONE. -/
def Capture.sends (u : Capture) (d : DmaChannel) : List Octet :=
  if u.state == .done then
    (List.range (min (d.available u.filled) (d.lineLen * d.lineCount))).map (fun n => cellGet u.mem (d.devAddr n) 0)
  else []
/-- The capture unit of a tile loses its data and is IDLE; every channel bound to it ends, or is to end, SOURCE_WITHDRAWN, what a
running one has moved being data of before (R469, R473). -/
def State.dropCapture (k : Nat) (s : State) : State :=
  let u := (s.tile k).capture
  let s := s.modTile k (fun t => { t with
    capture := { t.capture with
    state := .idle, start := none, taken := [], filled := 0, mem := [] } })
  let s := { s with
    dma := s.dma.map (fun (d : DmaChannel) => if d.devSel && d.tile == k && (d.state == DmaState.waiting || d.state == DmaState.running)
    then { d with withdrawn := true, out := u.sends d } else d) }
  (List.range 16).foldl (fun s i =>
    if (s.dc i).withdrawn && (s.dc i).state == .waiting then s.endChannel i .sourceWithdrawn else s) s
/-- The capture unit of a tile withdraws its data (R469): IDLE, CAP_WITHDRAWN with the cause, and every channel bound to it
is to end SOURCE_WITHDRAWN. With an engine given, only a unit set to that engine withdraws, and only while ARMED or FILLING: data of
DONE stays until the happenings R468 lists (DEDUCED, log entry 33). -/
def State.withdrawCapture (k : Nat) (only : Option Nat) (why : CapCause) (s : State) : State :=
  let c := (s.tile k).capture
  if only.any (fun e => c.engine k != e || (c.state != .armed && c.state != .filling)) then s
  else (s.dropCapture k).raise .capWithdrawn .lineTile k (w1 why.code)

/-- Table 17.5: length words a source accepts. -/
def capLengthOk (source len : Nat) : Bool :=
  if source = 7 then decide (1 ≤ len) && decide (len ≤ 4096)
  else decide (4096 ≤ len) && decide (len ≤ 8388608) && len % 4096 == 0
/-- CAP_SET's SUB: [9:8] engine, [3:0] lane 0 to 3, or subcarrier 0 to 7 for SYMBOLS and TAPS; a lane beyond 3 with any other source is
refused as a SUB outside the row, with DETAIL 0 (R421, R467). -/
def tgtCapture : State → Nat → Nat → Nat → Bool :=
  fun _ k i b => k == 2 && decide (i < 12) && decide (b < 1024) && field b 4 4 == 0 && decide (field b 0 4 < 8)
/-- CAP_SET (R467). -/
def specCapSet : OpSpec :=
  { code := 0x700, len := lenIs 4, target := tgtCapture, fence := fenceTile
    ranges := [ (0, fun _ c => cw c 1 == 0 || cw c 1 == 5 || cw c 1 == 6 || decide (7 < cw c 1) || decide (field (cSub c) 0 4 < 4))
              , rngU 1 1 7
              , (2, fun _ c => capLengthOk (cw c 1) (cw c 2))
              , (3, fun _ c => decide (field (cw c 3) 28 4 ≤ 2) && field (cw c 3) 16 12 == 0) ]
    refuse := fun s c =>
      let st := (s.tile (cIdx c)).capture.state
      if st == .armed || st == .filling then some (.busy, 0) else none
    eff := .now (fun c s => (s.modTile (cIdx c) (fun t => { t with
      capture := { t.capture with
      source := cw c 1, sub := cSub c, length := cw c 2, trigger := cw c 3 } }), []))
    read := some {
      selectors := 0, ok := fun _ _ => true, get := fun c s =>
      let u := (s.tile (cIdx c)).capture
      w1 u.source ++ w1 u.length ++ w1 u.trigger } }
/-- CAP_SET: sets the capture source, length and trigger. -/
def execCapSet (c : Cmd) (s : State) : Res := runOp specCapSet c s
/-- CAP_ARM's start: at its TN or the next boundary for an IMMEDIATE trigger the unit begins to fill (R468). -/
def applyCapArm (c : Cmd) (s : State) : State :=
  s.modTile (cIdx c) (fun t =>
    if t.capture.state == .armed && field t.capture.trigger 28 4 == 0
    then { t with capture := { t.capture with start := some s.tn } } else t)
/-- The unit is ARMED in the tick of CAP_ARM's acceptance, whatever TN it names; data of DONE is withdrawn first (R468,
R469). -/
def armCapture (k : Nat) (s : State) : State :=
  let s := if (s.tile k).capture.state == .done then s.withdrawCapture k none .command else s
  s.modTile k (fun t => { t with capture := { t.capture with state := .armed, start := none, taken := [], filled := 0 } })
/-- CAP_ARM (R468). -/
def specCapArm : OpSpec :=
  { code := 0x701, align := .yes, len := lenIs 1, target := tgtTile, fence := fenceTile
    refuse := fun s c =>
      let st := (s.tile (cIdx c)).capture.state
      if st == .armed || st == .filling then some (.busy, 0) else none
    onAccept := fun c s => armCapture (cIdx c) s
    eff := .boundary 0x701 applyCapArm }
/-- CAP_ARM: arms the capture unit. -/
def execCapArm (c : Cmd) (s : State) : Res := runOp specCapArm c s
/-- CAP_WITHDRAW (R469): in any state. -/
def specCapWithdraw : OpSpec :=
  { code := 0x702, len := lenIs 1, target := tgtTile
    eff := .now (fun c s =>
      ((s.cancelArmed (fun a => a.opcode == 0x701 && cIdx a.cmd == cIdx c) .cancelled Ev.capWithdrawn.code).withdrawCapture
        (cIdx c) none .command, [])) }
/-- CAP_WITHDRAW: withdraws capture data. -/
def execCapWithdraw (c : Cmd) (s : State) : Res := runOp specCapWithdraw c s
/-- CAP_STATUS: state and trigger TN. -/
def specCapStatus : OpSpec :=
  { code := 0x703, len := lenIs 1, target := tgtTile
    eff := .now (fun c s => let u := (s.tile (cIdx c)).capture; (s, w1 u.state.code ++ w2 u.trigTn)) }
/-- CAP_STATUS: returns capture state and trigger TN. -/
def execCapStatus (c : Cmd) (s : State) : Res := runOp specCapStatus c s

/-- Octets a capture of a length word takes in memory: HISTOGRAM makes one record of 1,024 octets. -/
def Capture.extent (c : Capture) : Nat := if c.source = 7 then 1024 else c.length
/-- Octets a source gives in a tick (Table 17.5), `layout` being that of the engine's receiver. -/
def Capture.rate (c : Capture) (layout : Nat) : Nat :=
  if c.source = 4 then 1440000 else if c.source = 5 then 4 * symbolsPerTick layout else if c.source = 6 then 512 else 360000
/-- Ticks a capture takes to reach its length. -/
def Capture.ticksNeeded (c : Capture) (layout : Nat) : Nat :=
  if c.source = 7 then c.length else (c.length + c.rate layout - 1) / c.rate layout
/-- HISTOGRAM's record: 256 counts of 32 bits, of the codes taken and, beside them, those that `rest` counts. DESIGN CHOICE (log entry 33):
the counts are little-endian. -/
def histogramOctets (codes rest : List Octet) : List Octet :=
  (List.range 256).flatMap (fun (b : Nat) =>
    let n : Nat := (codes.filter (fun x => x.toInt + 128 == (b : Int))).length + ofOctets ((rest.drop (4 * b)).take 4).reverse
    octetsLE 4 (min n 4294967295))
/-- What a capture leaves in memory: what its ticks gave, and in the places of which they gave nothing the octets of `rest`. -/
def Capture.placed (c : Capture) (rest : List Octet) : List Host.Cell :=
  if c.source = 7 then cellSetMany 0 [] 0 (histogramOctets (c.taken.flatMap (·.2)) rest)
  else c.taken.foldl (fun m x => cellSetMany 0 m x.1 (x.2.take (c.extent - x.1))) (cellSetMany 0 [] 0 (rest.take c.extent))
/-- Whether a unit may start in this tick: SYMBOLS and TAPS need the receiver in frame (R469). -/
def Capture.needsFrame (c : Capture) : Bool := c.source == 5 || c.source == 6
/-- Whether a unit is without the frame it needs (R469). -/
def State.captureUnframed (k : Nat) (s : State) : Bool :=
  let c := (s.tile k).capture
  c.needsFrame && !(s.eng (c.engine k)).inFrame
/-- A capture that fills in a tick without the frame it needs is withdrawn (R469). -/
def State.captureTick (k : Nat) (s : State) : State :=
  if (s.tile k).capture.state == .filling && s.captureUnframed k then s.withdrawCapture k none .notInFrame else s
/-- CAPTURE_TRIGGER: an armed capture starts at its TN, or at the tick after its event or defect (R468). -/
def execCaptureTrigger (k : Fin 12) (s : State) : Res :=
  let c := (s.tile k).capture
  if c.state == .armed && c.start.any (fun t => decide (t ≤ s.tn)) then
    if s.captureUnframed k then .next (s.withdrawCapture k none .notInFrame)
    else
      let s := s.modTile k (fun t => { t with
        capture := { t.capture with
        state := .filling, start := none, trigTn := c.start.getD s.tn, begun := s.ticks - (s.tn - c.start.getD s.tn)
        taken := [], filled := 0, mem := [] } })
      .next { s with dma := s.dma.map (fun (d : DmaChannel) =>
        if d.devSel && d.tile == k && d.state == DmaState.waiting then { d with state := .running } else d) }
  else .next s
/-- CAPTURE_FILL_DONE: the capture reaches its length, in the last of its ticks at the earliest, and enters DONE; CAP_DONE (R468). `data`
brings what its ticks did not show; octets beyond the extent are not taken. Without the frame it needs it is withdrawn (R469). -/
def execCaptureFillDone (k : Fin 12) (data : List Octet) (s : State) : Res :=
  let c := (s.tile k).capture
  if c.state == .filling && decide (c.begun + c.ticksNeeded (s.eng (c.engine k)).rxLayout ≤ s.ticks + 1) then
    if s.captureUnframed k then .next (s.withdrawCapture k none .notInFrame)
    else .next ((s.modTile k (fun t => { t with
      capture := { t.capture with
      state := .done, taken := [], filled := c.extent, mem := c.placed data } })).raise .capDone .lineTile k [])
  else .next s

/-! ### Channel descriptors (R471, R472) -/

/-- Octets of a host line: twice LINE_LEN with SEXT; a quarter of that per plane with DEINT (R471). -/
def DmaChannel.hostLine (d : DmaChannel) : Nat :=
  let n := if d.sext then 2 * d.lineLen else d.lineLen
  if d.deint then n / 4 else n
/-- The checks of R472 common to both kinds. -/
def DmaChannel.fieldsOk (d : DmaChannel) : Bool :=
  d.hostLo % 4 == 0 && decide (4 ≤ d.lineLen) && decide (d.lineLen ≤ 1048576) && d.lineLen % 4 == 0
    && decide (1 ≤ d.lineCount) && decide (d.lineCount ≤ 65536) && d.hostStride % 4 == 0 && d.complLo % 16 == 0
    && decide (d.hostLine ≤ d.hostStride)
    && (!d.deint || decide ((d.lineCount - 1) * d.hostStride + d.hostLine ≤ d.planeStride))
/-- A CAPTURE descriptor that passes R472: its device extent lies within 8 MiB. -/
def DmaChannel.captureOk (d : DmaChannel) : Bool :=
  d.fieldsOk && d.devOffset % 4 == 0 && decide (d.lineLen ≤ d.devStride) && decide (d.tile < 12)
    && decide (d.devOffset + (d.lineCount - 1) * d.devStride + d.lineLen ≤ 8388608)
/-- A COMMAND descriptor that passes R472 for a command that moves `size` octets; DEINT and SEXT do not apply (R471). -/
def DmaChannel.commandOk (d : DmaChannel) (size : Nat) : Bool :=
  ({ d with deint := false, sext := false } : DmaChannel).fieldsOk && !d.devSel && d.lineLen * d.lineCount == size
/-- The device extent of a CAPTURE channel: octets it needs placed. -/
def DmaChannel.extentEnd (d : DmaChannel) : Nat := d.devOffset + (d.lineCount - 1) * d.devStride + d.lineLen

/-- SEXT of a CAPTURE channel (R471). -/
def DmaChannel.wide (d : DmaChannel) : Bool := d.devSel && d.sext
/-- Host address of device-side octet n of a channel: octet 4m + j of a line goes to plane j with DEINT (R471). -/
def DmaChannel.hostAddr (d : DmaChannel) (n : Nat) : Nat :=
  let l := n / d.lineLen
  let i := n % d.lineLen
  let w := if d.wide then 2 else 1
  (d.hostLo + 2 ^ 32 * d.hostHi + l * d.hostStride
    + (if d.devSel && d.deint then i % 4 * d.planeStride + i / 4 * w else i * w)) % 2 ^ 64
/-- What octet n of a channel, of value `x`, writes to the host: with SEXT its 16-bit value, low octet first (R471). -/
def DmaChannel.hostWrite (d : DmaChannel) (n : Nat) (x : Octet) : List (Nat × Octet) :=
  (d.hostAddr n, x) :: if d.wide then [((d.hostAddr n + 1) % 2 ^ 64, if x.msb then 0xFF else 0)] else []
/-- The end of the last whole burst within n device-side octets: bursts are of 512 octets and cross no line (R471). -/
def DmaChannel.bursts (d : DmaChannel) (n : Nat) : Nat := n / d.lineLen * d.lineLen + n % d.lineLen / 512 * 512
/-- Octets that a channel which writes to the host sends, as far as they are known: those of its command, those of a unit that is DONE, or
those that were there at the withdrawal. -/
def State.sends (s : State) (d : DmaChannel) : List Octet :=
  if d.devSel && !d.withdrawn then (s.tile d.tile).capture.sends d else d.out
/-- Octets a channel that writes to the host has moved at its end `e` (Table 17.7): all at DONE, else whole bursts, of no more than there
were. -/
def State.movedAt (s : State) (d : DmaChannel) (e : DmaEnd) (moved : Nat) : Nat :=
  let all := d.lineLen * d.lineCount
  let known := (s.sends d).length
  let unknown := d.devSel && known == 0 && (s.tile d.tile).capture.state != .done
  if e == .done then all else d.bursts (min moved (if unknown then all else min all known))
/-- The transfer of `n` octets to the host: counted, and placed (R471). Octets of a unit that was still filling are free values; after an
error what the host's memory holds is undefined, and none is said. -/
def State.place (c n : Nat) (e : DmaEnd) (s : State) : State :=
  let d := s.dc c
  let known := s.sends d
  let octets := (List.range n).map (fun k => known.getD k (BitVec.ofNat 8 (Config.freeValue (s.freeCtr + k))))
  let s : State := { s with freeCtr := s.freeCtr + (n - known.length) }
  s.modDc c (fun d => { d with
    bytesDone := n, linesDone := if d.lineLen = 0 then 0 else n / d.lineLen
    placed := if e == .doneWithError then [] else ((List.range n).zip octets).flatMap (fun x => d.hostWrite x.1 x.2) })

/-! ### Rows of the channels -/

/-- GO binds a CAPTURE channel, or ends it DESC_INVALID (R472); DC0 is the boot ROM's until a host image runs (R522). -/
def State.channelGo (c : Nat) (s : State) : State :=
  let d := s.dc c
  if d.state == DmaState.waiting || d.state == DmaState.running || !d.devSel || (c == 0 && s.dev.bootGo) then s
  else
    let s := s.modDc c (fun d => { d with linesDone := 0, bytesDone := 0, ended := .none, bad := false, abort := false,
                                          withdrawn := false, staged := [], out := [], placed := [] })
    if d.captureOk then
      let u := (s.tile d.tile).capture.state
      s.modDc c (fun d => { d with state := if u == .filling || u == .done then .running else .waiting })
    else s.endChannel c .descInvalid
/-- ABORT of a waiting or running channel (R473). -/
def State.channelAbort (c : Nat) (s : State) : State :=
  let d := s.dc c
  if d.state == .waiting then (s.endChannel c .aborted).answerChannel c .aborted
  else if d.state == .running && !(d.staged.length == d.lineLen * d.lineCount && !d.devSel)
    then s.modDc c (fun d => { d with abort := true })
  else s
/-- DMA_GO: writing GO checks a CAPTURE channel and binds it in WAITING, or ends it DESC_INVALID (R472). -/
def execDmaGo (c : Fin 16) (s : State) : Res := if s.mapOpen then .next (s.channelGo c) else .next s
/-- DMA_ABORT: writing ABORT ends a waiting or running channel ABORTED after the burst in flight (R473); it has no effect
once the last completion has arrived. -/
def execDmaAbort (c : Fin 16) (s : State) : Res := if s.mapOpen then .next (s.channelAbort c) else .next s
/-- DMA_READ_COMPLETION: a read completion of a host-to-device channel is staged; a bad one is remembered, even the last
beat after the count has reached zero (Table 17.7). -/
def execDmaReadCompletion (c : Fin 16) (good : Bool) (data : List Octet) (s : State) : Res :=
  let d := s.dc c
  if d.state == .running && !d.devSel then
    .next (s.modDc c (fun d =>
      let st := d.staged ++ (if good then data else [])
      { d with staged := st, bad := d.bad || !good, bytesDone := d.bytesDone + data.length,
               linesDone := if d.lineLen = 0 then 0 else (d.bytesDone + data.length) / d.lineLen }))
  else .next s
/-- A COMMAND channel starts to run for its command (R426, R472). -/
def State.startChannel (c : Nat) (s : State) : State :=
  s.modDc c (fun d => { d with state := .running, ended := .none, linesDone := 0, bytesDone := 0, staged := [], out := [],
                               placed := [], bad := false, abort := false, withdrawn := false })
/-- The DMA channel named in bits [3:0] of parameter word 1 (R426). -/
def cmdChan (c : Cmd) : Nat := field (cw c 1) 0 4
/-- DMA_BUSY, then a descriptor that fails R472, for a command that moves `size` octets. -/
def dmaRefusal (s : State) (c : Cmd) (size : Nat) : Option (Status × Nat) :=
  let d := s.dc (cmdChan c)
  if d.state == DmaState.waiting || d.state == DmaState.running || (cmdChan c == 0 && s.dev.bootGo) then some (.dmaBusy, cmdChan c)
  else if d.commandOk size then none else some (.parameterInvalid, 1)
/-- Word 1 of a DMA-backed command: the channel, unused bits 0. -/
def rngChan : Nat × (State → Cmd → Bool) := rngU 1 0 15
/-- A DMA-backed command begins: its job waits for the channel's end. -/
def dmaEffect : Job → Cmd → State → State := fun j c s =>
  (s.modProto (fun p => { p with jobs := p.jobs ++ [{ j with chan := some (cmdChan c) }] })).startChannel (cmdChan c)
/-- The same for a command that sends data: what it sends is taken in the tick of acceptance. -/
def dmaSend (f : Cmd → State → List Octet) : Job → Cmd → State → State := fun j c s =>
  (dmaEffect j c s).modDc (cmdChan c) (fun d => { d with out := f c s })

end Sys2Proof.Machine
end

