-- ==== Sys2Proof/Machine/Coding.lean ====
section
/-! DEFINITION. From the frame body to the line: scrambler (R68), outer and inner code (R66, R96 to R100), shaping and placement
(R103 to R107), sync and pilot symbols (R60 to R63).
What it chooses or infers where the manual is silent, with its marks: log entries 22, 23, 39. -/
namespace Sys2Proof.Machine

/-! ### Generators (R61, R62, R68) -/

/-- `n` output bits of a shift register of `len` stages with feedback from stages `a` and `b`; stage i is bit i − 1. -/
def prbs (len a b : Nat) : Nat → Nat → List Bool
  | 0, _ => []
  | n + 1, st =>
    let f := bit st (a - 1) != bit st (b - 1)
    f :: prbs len a b n ((2 * st + b2n f) % 2 ^ len)
/-- The sync bits (R61). -/
def syncBits : List Bool := prbs 15 15 14 2048 (2 ^ 15 - 1)
/-- Pilot bits of stream q (R62), two for each of `n` pilots. -/
def pilotBits (q n : Nat) : List Bool := prbs 23 23 18 (2 * n) (q + 1)
/-- Eight bits, the first into bit 7 (R10). -/
def octetOfBits (l : List Bool) : Octet := BitVec.ofNat 8 (l.foldl (fun n b => 2 * n + b2n b) 0)
/-- The octets of a list of bits. -/
def octetsOfBits : Nat → List Bool → List Octet
  | 0, _ => []
  | n + 1, l => octetOfBits (l.take 8) :: octetsOfBits n (l.drop 8)
/-- The bits of octets, bit 7 first. -/
def bitsOf (l : List Octet) : List Bool := (l.map (fun o => [7, 6, 5, 4, 3, 2, 1, 0].map (fun i => bit o.toNat i))).flatten
/-- A frame body added to the scrambler's output (R68); the same operation descrambles. -/
def scramble (body : List Octet) : List Octet :=
  List.zipWith (· ^^^ ·) body (octetsOfBits body.length (prbs 31 31 28 (8 * body.length) (2 ^ 31 - 1)))
/-- A PRBS31 test pattern over `n` line slots (R493). -/
def testPattern (n : Nat) : List (List Octet) :=
  let o := octetsOfBits (128 * n) (prbs 31 31 28 (1024 * n) (2 ^ 31 - 1))
  (List.range n).map (fun i => (o.drop (128 * i)).take 128)

/-! ### Outer and inner stage (R97, R98) -/

/-- Remainder of the bits times x⁸ modulo x⁸ + x⁴ + x³ + x² + 1. -/
def hammingRem (l : List Bool) : Nat :=
  l.foldl (fun r b => let x := (2 * r) % 256; if bit r 7 != b then x ^^^ 0x1D else x) 0
/-- Row r, columns 0 to 119, of a block whose bit i stands in row i mod 128 and column i div 128. -/
def rowBits (block : Array Bool) (r : Nat) : List Bool := (List.range 120).map (fun c => block.getD (128 * c + r) false)
/-- Rows 1 to 127 of column r of the block before. -/
def priorBits (prev : Array Bool) (r : Nat) : List Bool := (List.range 127).map (fun i => prev.getD (128 * r + i + 1) false)
/-- The 1,024 outer parity bits of a unit, given the block of the unit before (all zeros before unit 0). -/
def outerParity (prev unit : Array Bool) : List Bool :=
  let rem := (List.range 128).map (fun r => hammingRem (priorBits prev r ++ rowBits unit r))
  ((List.range 8).map (fun k => rem.map (fun v => bit v (7 - k)))).flatten
/-- The rows of Table 3.1 an information column is connected to. -/
def baseRows (c : Nat) : List Nat :=
  let a := c % 8
  [a, (a + 1 + c / 8 % 3) % 8, (a + 5 + c / 8 % 2) % 8]
/-- The shift of row r in information column c. -/
def baseShift (r c : Nat) : Nat := (37 * (r + 1) * (c + 1) + 11 * r) % 256
/-- Bit m of the information part of check row r. -/
def checkBit (block : Array Bool) (r m : Nat) : Bool :=
  (List.range 64).foldl (fun x c =>
    if (baseRows c).contains r then x != block.getD (256 * c + (m + baseShift r c) % 256) false else x) false
/-- The 2,048 inner parity bits of a block: each row's parity continues that of the row before. -/
def innerParity (block : Array Bool) : List Bool :=
  (((List.range 8).foldl (fun (acc : List (List Bool) × List Bool) r =>
    let p := List.zipWith (fun m b => checkBit block r m != b) (List.range 256) acc.2
    (acc.1 ++ [p], p)) ([], List.replicate 256 false)).1).flatten
/-- Codeword u and its block, from the bits of unit u (R66). -/
def encodeUnit (prev : Array Bool) (unit : List Bool) : List Bool × Array Bool :=
  let block := unit ++ outerParity prev unit.toArray
  (block ++ innerParity block.toArray, block.toArray)
/-- The coded frame of a scrambled body: its codewords in order. -/
def codedFrame (body : List Octet) : List Bool :=
  ((List.range (body.length / 1920)).foldl (fun (acc : List (List Bool) × Array Bool) u =>
    let r := encodeUnit acc.2 (bitsOf ((body.drop (1920 * u)).take 1920))
    (acc.1 ++ [r.1], r.2)) ([], Array.replicate 16384 false)).1.flatten
/-- A codeword counts as corrected (R100): its inner syndrome is zero and every component word that ends in its block is a
codeword. -/
def codewordGood (prev : Array Bool) (cw : List Bool) : Bool :=
  cw == (encodeUnit prev (cw.take 15360)).1

/-! ### Shaping and placement (R103 to R107) -/

/-- Coded bits of block b of a stream with loading value l. -/
def blockBits (l b : Nat) : Nat := (b + 1) * 31 * l / 16 - b * 31 * l / 16
/-- Amplitude levels of a loading value (Table 3.4). -/
def levels (l : Nat) : List Nat := if l ≤ 31 then [1] else if l ≤ 56 then [1, 3] else if l ≤ 88 then [1, 3, 5, 7]
  else [1, 3, 5, 7, 9, 11, 13, 15]
/-- Sequences of d amplitudes with energy at most e. -/
def shapeCount (lv : List Nat) : Nat → Nat → Nat
  | 0, _ => 1
  | d + 1, e => (lv.map (fun a => if a * a ≤ e then shapeCount lv d (e - a * a) else 0)).foldl (· + ·) 0
/-- E_max: the least energy at which 2ᵏ sequences of 62 amplitudes exist. -/
def shapeEnergy (lv : List Nat) (k : Nat) : Nat :=
  ((List.range (62 * 225 + 1)).find? (fun e => decide (2 ^ k ≤ shapeCount lv 62 e))).getD (62 * 225)
/-- The amplitude the x-th sequence begins with, and what is left of x. -/
def shapePick (lv : List Nat) (d e : Nat) : List Nat → Nat → Nat × Nat
  | [], x => (1, x)
  | a :: r, x =>
    let n := if a * a ≤ e then shapeCount lv d (e - a * a) else 0
    if x < n then (a, x) else shapePick lv d e r (x - n)
/-- The x-th sequence of d amplitudes with energy at most e, in lexicographic order. -/
def shapeSeq (lv : List Nat) : Nat → Nat → Nat → List Nat
  | 0, _, _ => []
  | d + 1, e, x => let p := shapePick lv d e lv x; p.1 :: shapeSeq lv d (e - p.1 * p.1) p.2
/-- A symbol before the scaling of R106: I and Q in amplitude levels, each times √2 where `root`. -/
structure Sym where
  i : Int
  q : Int
  root : Bool
  deriving DecidableEq, Repr
/-- A coordinate with its sign bit. -/
def signed (b : Bool) (a : Nat) : Int := if b then -(a : Int) else a
/-- The 31 symbols of a block that carries the given bits (R105). -/
def blockSymbols (l : Nat) (bits : List Bool) : List Sym :=
  let n := bits.length
  let bt : Nat → Bool := fun i => bits.getD i false
  if n < 62 then
    (List.range 31).map (fun j =>
      if j < n - 31 then { i := signed (bt (2 * j)) 1, q := signed (bt (2 * j + 1)) 1, root := false }
      else { i := signed (bt (n - 31 + j)) 1, q := 0, root := true })
  else
    let k := n - 62
    let amp := shapeSeq (levels l) 62 (shapeEnergy (levels l) k) ((bits.take k).foldl (fun x b => 2 * x + b2n b) 0)
    (List.range 31).map (fun j =>
      { i := signed (bt (k + 2 * j)) (amp.getD (2 * j) 1), q := signed (bt (k + 2 * j + 1)) (amp.getD (2 * j + 1) 1), root := false })
/-- The active streams of a layout, ascending. -/
def streamsOf (layout : Nat) : List Nat := (List.range 16).filter (fun q => scActive layout (q / 2))
/-- A sync or pilot symbol from its bit pair (R63). -/
def pairSymbol (a c : Bool) : Sym := { i := signed a 1, q := signed c 1, root := false }
/-- The symbol frame of a coded frame: for each active stream its N_s symbols in time order (R60, R65, R107). -/
def symbolFrame (layout : Nat) (vec : List Nat) (coded : List Bool) : List (Nat × List Sym) :=
  let qs := streamsOf layout
  let sizes := fun (b : Nat) => qs.map (fun q => blockBits (vec.getD (q / 2) 0) b)
  let blocks := ((List.range (pilotBlocks layout)).foldl (fun (acc : List (List (List Bool)) × List Bool) b =>
    let r := (sizes b).foldl (fun (x : List (List Bool) × List Bool) n =>
      (x.1 ++ [x.2.take n ++ List.replicate (n - x.2.length) false], x.2.drop n)) ([], acc.2)
    (acc.1 ++ [r.1], r.2)) ([], coded)).1
  (List.zipIdx qs).map (fun x =>
    let q := x.1
    let sync := (List.range 64).map (fun k =>
      pairSymbol (syncBits.getD (128 * q + 2 * k) false) (syncBits.getD (128 * q + 2 * k + 1) false))
    let pil := pilotBits q (pilotBlocks layout)
    (q, sync ++ ((List.zipIdx blocks).map (fun y =>
      pairSymbol (pil.getD (2 * y.2) false) (pil.getD (2 * y.2 + 1) false)
        :: blockSymbols (vec.getD (q / 2) 0) (y.1.getD x.2 []))).flatten))
/-- What an engine's transmitter puts on the line for the frame it assembled last. -/
def SentFrame.symbols (f : SentFrame) : List (Nat × List Sym) := symbolFrame f.layout f.vec (codedFrame (scramble f.body))

end Sys2Proof.Machine
end

