-- ==== Sys2Proof/Machine/FrontBus.lean ====
section
/-! DEFINITION. Monitor Converters, Front-End Control and Telemetry Filters, the front-end control bus: transactions (R443,
R444), profiles (R445), bias loops (R446) and front-end faults (R447).
What it chooses or infers where the manual is silent, with its marks: log entry 34. -/
namespace Sys2Proof.Machine

/-- Applies `f` to the front-end control of an engine. -/
def State.modFe (e : Nat) (f : FrontEnd → FrontEnd) (s : State) : State := s.modEng e (fun g => { g with fe := f g.fe })
/-- A transaction is carried out on the bus of an engine in this tick. -/
def State.feDrive (e : Nat) (t : FeTxn) (s : State) : State :=
  s.modFe e (fun f => { f with served := if f.servedAt = s.ticks then f.served ++ [t] else [t], servedAt := s.ticks })
/-- A transaction enters the queue of an engine's bus. -/
def State.feQueue (e : Nat) (t : FeTxn) (s : State) : State := s.modFe e (fun f => { f with queue := f.queue ++ [t] })
/-- The fine-tune write of R170, in its tick. -/
def State.feWrite (e addr value : Nat) (s : State) : State :=
  match (s.eng e).fe.profile with
  | some p => s.feDrive e { origin := .fineTune, write := true, addr := addr
                            width := (p.fineTune.map (·.width)).getD 0, value := value }
  | none => s
/-- The squelch write of a profile: its assert value or its release value. -/
def FeProfile.squelchTxn (assert : Bool) (p : FeProfile) : Option FeTxn :=
  p.squelch.map (fun (a, w, on, off) =>
    { origin := .squelch, write := true, addr := a, width := w, value := if assert then on else off })
/-- The squelch write of R147, first on the bus (R444): the assert value on entering MUZZLED, within the tick. The release value goes out
before the frame that leaves MUZZLED, so in the tick that ends at this boundary. -/
def State.feSquelch (e : Nat) (assert : Bool) (s : State) : State :=
  match (s.eng e).fe.profile.bind (FeProfile.squelchTxn assert) with
  | some t =>
    let at' := if assert then s.ticks else s.ticks - 1
    s.modFe e (fun f => { f with served := if f.servedAt = at' then t :: f.served else [t], servedAt := at' })
  | none => s
/-- The bits of a transaction from the controller, as FE_MOSI carries them: read/write (1 for read), 15 address bits, and, of a write, WIDTH
data bits, each most significant first (R443); a read leaves the data bits undriven. -/
def FeTxn.mosi (t : FeTxn) : List (Option Bool) :=
  some (!t.write) :: ((List.range 15).map (fun i => some (t.addr.testBit (14 - i)))
    ++ (List.range t.width).map (fun i => if t.write then some (t.value.testBit (t.width - 1 - i)) else none))
/-- The WIDTH data bits that a read samples on FE_MISO, most significant first (R443). -/
def FeTxn.miso (t : FeTxn) : List Bool := if t.write then [] else (List.range t.width).map (fun i => t.value.testBit (t.width - 1 - i))
/-- The value that sampled bits make, most significant first. -/
def bitsValue (l : List Bool) : Nat := l.foldl (fun n b => 2 * n + b2n b) 0
/-- Nanoseconds a transaction takes at 50 MHz, with the 40 for which FE_CS_N stays high after it (R443). -/
def FeTxn.nanos (t : FeTxn) : Nat := 20 * (16 + t.width) + 40
/-- A squelch or fine-tune write that the present tick has made or, at a Leash's instant, makes (R444). -/
def feWriteDue (s : State) (e : Nat) : Bool :=
  let g := s.eng e
  (g.fe.servedAt == s.ticks && !g.fe.served.isEmpty)
    || (s.tn % 64 == 0 && g.acq.leash.enable && g.inFrame && g.fe.profile.any (fun p => p.fineTune.isSome))

/-! ### Profiles (R445, Table 16.5) -/

/-- A register's WIDTH in [28:24] within `lo` to `hi`, its ADDR in [14:0], and no bit outside `mask`. -/
def regWord (w lo hi mask : Nat) : Bool := decide (lo ≤ field w 24 5) && decide (field w 24 5 ≤ hi) && (w &&& mask) == w
/-- Whether word `k` of a profile image keeps Table 16.5. -/
def profileWordOk (im : List Nat) (k : Nat) : Bool :=
  let g := fun i => im.getD i 0
  let w := g k
  let v0 := g 0
  if k = 0 then field w 24 8 == 1 && (w &&& 0xFF000FF7) == w
  else if k = 1 then (if bit v0 0 then regWord w 8 16 0x1F007FFF && (field w 24 5 == 8 || field w 24 5 == 16) else w == 0)
  else if k = 2 then bit v0 0 || w == 0
  else if k = 3 then (if bit v0 1 then regWord w 8 24 0x1F00FFFF else w == 0)
  else if k = 4 then (if bit v0 1 then decide (1 ≤ w) && decide (w ≤ 65535) else w == 0)
  else if k = 5 then (if bit v0 2 then regWord w 8 32 0x1F007FFF else w == 0)
  else if k = 6 then bit v0 2 || w == 0
  else if k = 7 then (if bit v0 2 then decide (625 ≤ w) && decide (w ≤ 625000) else w == 0)
  else if k < 72 then
    let l := (k - 8) / 8
    if !bit v0 (4 + l) then w == 0
    else match (k - 8) % 8 with
      | 0 => regWord w 8 32 0x1F037FFF
      | 1 => decide (w ≤ g (k + 1))
      | 2 => true
      | 3 => decide (g (k - 2) ≤ w) && decide (w ≤ g (k - 1))
      | 4 => decide (w < 65536)
      | 5 => decide (field w 16 5 ≤ 16) && (w &&& 0x801FFFFF) == w
      | 6 => decide (1 ≤ field w 24 8) && decide (64 ≤ field w 0 20) && decide (field w 0 20 ≤ 65536)
          && (w &&& 0xFF0FFFFF) == w
      | _ => w == 0
  else w == 0
/-- Loop `l` of a profile image. -/
def profileLoop (im : List Nat) (l : Nat) : BiasLoop :=
  let g := fun i => im.getD (8 + 8 * l + i) 0
  { num := l, width := field (g 0) 24 5, mon := field (g 0) 16 2, addr := field (g 0) 0 15, least := g 1, greatest := g 2
    init := g 3, target := g 4, invert := bit (g 5) 31, shift := field (g 5) 16 5, thresh := field (g 5) 0 16
    count := field (g 6) 24 8, period := field (g 6) 0 20 }
/-- The profile of a 256-word image, or the first offending word index. -/
def parseProfile (im : List Nat) : Except Nat FeProfile :=
  match (List.range 256).find? (fun k => !profileWordOk im k) with
  | some k => .error k
  | none =>
    let g := fun i => im.getD i 0
    .ok { squelch := if bit (g 0) 0 then
            some (field (g 1) 0 15, field (g 1) 24 5, field (g 2) 16 16, field (g 2) 0 16) else none
          fineTune := if bit (g 0) 1 then
            some { addr := field (g 3) 0 15, width := field (g 3) 24 5, scaleKhz := g 4, negative := bit (g 3) 15 } else none
          fault := if bit (g 0) 2 then some (field (g 5) 0 15, field (g 5) 24 5, g 6, g 7) else none
          loops := ((List.range 8).filter (fun l => bit (g 0) (4 + l))).map (profileLoop im) }
/-- A committed profile replaces the previous one whole; every loop starts from INIT, which is written at once, and a run of
the same tick is dropped (R445, Table 16.8). -/
def State.commitProfile (e : Nat) (p : FeProfile) (s : State) : State :=
  s.modFe e (fun f => { f with
    profile := some p
    loops := p.loops.map (fun l => { num := l.num, written := l.init, pinned := 0, lastRun := s.ticks })
    queue := f.queue.filter (fun t => t.origin != .loop && t.origin != .poll)
      ++ p.loops.map (fun l => { origin := .loop, write := true, addr := l.addr, width := l.width, value := l.init })
    lastPoll := s.ticks, pollFault := false, loopFault := false })

/-! ### Faults (R447) -/

/-- FE_FAULT is raised, and its MUZZLE_REASON bit set, unless the bit is set already: cause 0 LOOP, 1 STATUS. -/
def State.feFaultRaise (e cause loop value : Nat) (s : State) : State :=
  if (s.eng e).tx.reason.feFault then s
  else (s.modEng e (fun g => { g with tx := { g.tx with reason := { g.tx.reason with feFault := true } } })).raise
    .feFault .engine e (w1 cause ++ w1 loop ++ w1 value)
/-- Firmware runs, and the engine's tile is not fenced: bias loops and polls are made (R446). -/
def feRuns (s : State) (e : Nat) : Bool := s.fwUp && !s.fenced e
/-- A poll of the fault register has read `value`; in headless hold no fault is raised (R147). A STATUS fault names no loop: that word is a
free value. -/
def State.fePolled (e value mask : Nat) (s : State) : State :=
  if !feRuns s e then s else
  let hit := (value &&& mask) != 0
  let s := s.modFe e (fun f => { f with pollFault := hit })
  if hit then let r := s.fresh; r.2.feFaultRaise e 1 r.1 value else s
/-- One run of a bias loop with the monitor value `v` (R446, R447). -/
def State.loopRun (e : Nat) (l : BiasLoop) (r : LoopRun) (v : Nat) (s : State) : State :=
  let err : Int := (l.target : Int) - v
  let step := roundDiv err (2 ^ l.shift)
  let next := (clampI l.least l.greatest ((r.written : Int) + (if l.invert then -step else step))).toNat
  let s := if next = r.written then s
    else s.feQueue e { origin := .loop, write := true, addr := l.addr, width := l.width, value := next }
  let beyond := decide (l.thresh < err.natAbs) && (next == l.least || next == l.greatest)
  let pinned := if beyond then r.pinned + 1 else 0
  let s := s.modFe e (fun f => { f with
    loops := f.loops.map (fun x => if x.num = r.num then { x with written := next, pinned := pinned } else x)
    loopFault := decide (l.count ≤ pinned) || f.loops.any (fun x => x.num != r.num &&
      f.profile.any (fun p => p.loops.any (fun y => y.num == x.num && decide (y.count ≤ x.pinned)))) })
  if l.count ≤ pinned then s.feFaultRaise e 0 l.num next else s
/-- Local input of front-end monitor m of an engine, on converter engine / 12 (Table 16.1). -/
def frontEndInput (engine m : Nat) : Nat := 4 * (engine % 12) + m
/-- BIAS_LOOP_RUN: every PERIOD ticks a defined loop reads its monitor and writes a corrected value; a loop whose input has not
converted within PERIOD ticks holds. -/
def execBiasLoopRun (e : Fin 48) (num : Fin 8) (s : State) : Res :=
  let f := (s.eng e).fe
  match f.profile.bind (fun p => p.loops.find? (fun l => l.num == num.val)), f.loops.find? (fun r => r.num == num.val) with
  | some l, some r =>
    if feRuns s e ∧ r.lastRun + l.period ≤ s.ticks then
      let s := s.modFe e (fun f => { f with
        loops := f.loops.map (fun x => if x.num = num.val then { x with lastRun := s.ticks } else x) })
      let x := vget (s.mc (e.val / 12)).latest (frontEndInput e l.mon) Latest.reset
      if x.doneAt.any (fun t => decide (s.ticks ≤ t + l.period)) then .next (s.loopRun e l r x.v) else .next s
    else .next s
  | _, _ => .next s

/-! ### Commands -/

/-- The width of a register for FE_BUS_ACCESS: its profile entry's, else one the manual does not give. -/
def accessWidth (p : FeProfile) (addr : Nat) : Nat :=
  let all := (match p.squelch with | some (a, w, _, _) => [(a, w)] | none => [])
    ++ (match p.fineTune with | some t => [(t.addr, t.width)] | none => [])
    ++ (match p.fault with | some (a, w, _, _) => [(a, w)] | none => []) ++ p.loops.map (fun l => (l.addr, l.width))
  match all.find? (fun x => x.1 == addr) with
  | some x => x.2
  | none => Config.feWidth addr % 33
/-- FE_BUS_ACCESS (R444). -/
def specFeBusAccess : OpSpec :=
  { code := 0x611, cls := .long, len := lenIs 4, target := tgtEngine, fence := fenceEngine
    ranges := [rngU 1 0 1, rngU 2 0 32767]
    refuse := fun s c => if (s.eng (cIdx c)).fe.profile.isNone then some (.profileIncomplete, 0) else none
    eff := .long (fun j c s =>
      match (s.eng (cIdx c)).fe.profile with
      | none => s
      | some p =>
        (s.modProto (fun q => { q with jobs := q.jobs ++ [j] })).feQueue (cIdx c)
          { origin := .access j.ticket.seq, write := cw c 1 == 1, addr := cw c 2, width := accessWidth p (cw c 2)
            value := cw c 3 }) }
/-- FE_BUS_ACCESS: reads or writes one front-end register; FINAL when its transaction completes. -/
def execFeBusAccess (c : Cmd) (s : State) : Res := runOp specFeBusAccess c s

end Sys2Proof.Machine
end

