-- ==== Sys2Proof/Machine/Acquire.lean ====
section
/-! DEFINITION. Receive Acquisition and Frame Alignment: the transitions of Table 5.4, the acquisition record, capture
contest, coarse frequency, and the Leash.
What it chooses or infers where the manual is silent, with its marks: log entry 25. -/
namespace Sys2Proof.Machine

/-- Applies `f` to the acquisition state of an engine. -/
def State.modAcq (e : Nat) (f : Acquisition → Acquisition) (s : State) : State :=
  s.modEng e (fun g => { g with acq := f g.acq })
/-- Applies `f` to the equaliser state of an engine. -/
def State.modEq (e : Nat) (f : Equaliser → Equaliser) (s : State) : State := s.modEng e (fun g => { g with eq := f g.eq })

/-! ### The sync detector (R155, R156) -/

/-- Sixty-four bit pairs from a list of bits. -/
def pairsOf : Nat → List Bool → List (Bool × Bool)
  | n + 1, a :: c :: r => (a, c) :: pairsOf n r
  | _, _ => []
/-- The bit pairs of a detector word, bit 0 first. -/
def wordPairs (w : BitVec 128) : List (Bool × Bool) := pairsOf 64 ((List.range 128).map (fun i => w.getLsbD i))
/-- The sync word of stream q (R61). -/
def syncPairs (q : Nat) : List (Bool × Bool) := pairsOf 64 (syncBits.drop (128 * q))
/-- Decisions turned by r quarter turns (R155). -/
def turnPairs : Nat → List (Bool × Bool) → List (Bool × Bool)
  | 0, l => l
  | r + 1, l => turnPairs r (l.map (fun p => (!p.2, p.1)))
/-- Bits that differ between decisions and a sync word. -/
def pairErrs (a b : List (Bool × Bool)) : Nat :=
  (List.zipWith (fun x y => b2n (x.1 != y.1) + b2n (x.2 != y.2)) a b).foldl (· + ·) 0
/-- Errors of subcarrier s, the i-th active one, under a choice c: bit 3 exchanges the polarisations, bits [1:0] turn the decisions. -/
def choiceErrs (d : List (BitVec 128)) (s i c : Nat) : Nat :=
  let x := turnPairs (c % 4) (wordPairs (d.getD (2 * i) 0))
  let y := turnPairs (c % 4) (wordPairs (d.getD (2 * i + 1) 0))
  if 8 ≤ c then pairErrs y (syncPairs (2 * s)) + pairErrs x (syncPairs (2 * s + 1))
  else pairErrs x (syncPairs (2 * s)) + pairErrs y (syncPairs (2 * s + 1))
/-- The active subcarriers of a layout with their places in the decisions. -/
def activeOf (layout : Nat) : List (Nat × Nat) := ((List.range 8).filter (scActive layout)).zipIdx
/-- The choice with the fewest errors, the first of equals, and its errors. -/
def bestChoice (d : List (BitVec 128)) (s i : Nat) : Nat × Nat :=
  [1, 2, 3, 8, 9, 10, 11].foldl (fun b c => let n := choiceErrs d s i c; if n < b.2 then (c, n) else b) (0, choiceErrs d s i 0)
/-- The nibble of subcarrier s in ACQ_RESOLVE, SC0 in the top one: log entry 25. -/
def resolveOf (resolve s : Nat) : Nat := field resolve (28 - 4 * s) 4
/-- The sync error count with every choice open (R155). -/
def freeErrs (layout : Nat) (d : List (BitVec 128)) : Nat :=
  ((activeOf layout).map (fun x => (bestChoice d x.1 x.2).2)).foldl (· + ·) 0
/-- The sync error count under the choices made at acquisition, without re-resolution (R155). -/
def heldErrs (layout resolve : Nat) (d : List (BitVec 128)) : Nat :=
  ((activeOf layout).map (fun x => choiceErrs d x.1 x.2 (resolveOf resolve x.1))).foldl (· + ·) 0
/-- The choices of a detection as ACQ_RESOLVE. -/
def SyncMeas.resolve (m : SyncMeas) : Nat :=
  ((activeOf m.layout).map (fun x => (bestChoice m.decided x.1 x.2).1 * 2 ^ (28 - 4 * x.1))).foldl (· + ·) 0
/-- Errors of a detection: in the 400ZR profile those of the agreement's alignment word (R176). -/
def SyncMeas.errs (zr : Bool) (m : SyncMeas) : Nat := if zr then Config.zrErrs m.decided else freeErrs m.layout m.decided
/-- The effective tolerance of a sync on a layout (R156); in the 400ZR profile the agreement's matching rule (R176). -/
def effTol (zr : Bool) (tol layout : Nat) : Nat := if zr then Config.zrTolerance else if scSet layout = 1 then tol / 2 else tol
/-- A layout that is searched for (R152, R154, R176). -/
def Engine.searched (g : Engine) (layout : Nat) : Bool :=
  if g.acq.blind && !g.zr then g.acq.layouts.contains layout else layout == g.rxLayout
/-- A good sync of a layout under search, with a carrier within reach (R152, R156, R166). -/
def Engine.goodSync (g : Engine) (m : SyncMeas) : Bool :=
  g.searched m.layout && decide (-6000 ≤ m.coarseFo) && decide (m.coarseFo ≤ 6000)
    && decide (SyncMeas.errs g.zr m ≤ effTol g.zr g.acq.syncTol m.layout)
/-- The acquisition record of a detection. -/
def SyncMeas.latch (zr : Bool) (m : SyncMeas) (tn : Nat) : AcqRecord :=
  { acqTn := tn, layout := m.layout, syncErrs := SyncMeas.errs zr m, rxPower := m.rxPower, syncPower := m.syncPower, snr := m.snr,
    coarseFo := m.coarseFo, resolve := if zr then 0 else SyncMeas.resolve m }
/-- Symbols from one tick-spaced position to the next (R151, R176). -/
def Engine.spacing (g : Engine) : Nat := if g.zr then Config.zrSymbols else symbolsPerTick g.acq.held.layout

/-! ### Arrival (R193 to R195) -/

/-- RX_EQ in 2⁻¹⁶ ns: the mean over the active subcarriers of (c − 15) × T_s / 2, c in 1/256 tap (R194). -/
def rxEqDelay (g : Engine) : Int :=
  let act := (List.range 8).filter (scActive g.rxLayout)
  let sum := (act.map (fun i => ((g.eq.centroid.getD i 3840 : Nat) : Int) - 3840)).foldl (· + ·) 0
  roundDiv (sum * tickUnits) (512 * symbolsPerTick g.rxLayout * act.length)
/-- RX_CONV of an engine at a tile temperature: a factory value between 140 and 215 ps (Table 6.8; log entry 8). -/
def rxConv (e : Nat) (temp : Int) : Int := clampI 9176 14090 (Config.rxConv e temp)
/-- T_RX (R194): RX_CONV, RX_CD, RX_EQ and RX_DSP. -/
def State.rxDelay (s : State) (e : Nat) : Int :=
  let g := s.eng e
  rxConv e (s.tileTemp e) + rxCdDelay g.eq.align + rxEqDelay g + 128 * 65536
/-- The line fitted to phase over symbol number, at symbol 0, by least squares (R193): Δ in 1/65,536 T_smp from the start of the running
tick. DESIGN CHOICE (log entry 25): points of a single symbol give their mean. -/
def lineAtZero (p : List (Nat × Int)) : Option Int :=
  let n : Int := p.length
  let sx := p.foldl (fun (a : Int) x => a + x.1) 0
  let sy := p.foldl (fun (a : Int) x => a + x.2) 0
  let sxx := p.foldl (fun (a : Int) x => a + x.1 * x.1) 0
  let sxy := p.foldl (fun (a : Int) x => a + x.1 * x.2) 0
  let d := n * sxx - sx * sx
  if p.isEmpty then none
  else if 0 < d then some (roundDiv (sxx * sy - sx * sxy) d.natAbs) else some (roundDiv sy p.length)
/-- A tick in 1/65,536 T_smp. -/
def tickSmp : Int := 360000 * 65536
/-- The arrival stamp of the frame whose sync is evaluated in this tick (R193): the tick its symbol 0 came in, and ARRIVAL by the delay
items of that tick (R195). -/
def State.arrivalStamp (s : State) (e : Nat) (phase : List (Nat × Int)) : Option (Nat × Int) :=
  (lineAtZero phase).map (fun d =>
    let back := -(d / tickSmp)
    let tna := ((s.tn : Int) - back).toNat
    (tna, s.tickOffset + ((s.tn : Int) - back) * tickUnits + roundDiv (d % tickSmp) 225
      - (if 0 < back then (s.eng e).rx.delayBefore else s.rxDelay e)))

/-! ### The record and the alignment -/

/-- CONTEST_POWER as read: 0x8000 if none. -/
def contestField (p : Option Int) : Nat := match p with | some z => ux 16 z | none => 0x8000
/-- The result words of ENGINE_ACQ_STATUS, which ACQ_DONE also carries (R157, R553). -/
def acqWords (a : Acquisition) : List Word :=
  let r := a.record
  w1 (b2n a.contestSeen * 2 ^ 20 + (r.syncErrs % 4096) * 256 + r.layout * 16 + b2n a.lof * 8 + a.state.code)
    ++ w2 r.acqTn ++ w1 (ux 16 r.rxPower * 65536 + ux 16 r.syncPower)
    ++ w1 (ux 16 r.snr * 65536 + ux 16 r.coarseFo)
    ++ w1 r.resolve ++ w1 (contestField a.contestPower)

/-- A leashed engine enters or leaves heel; each change raises LEASH_HEEL with the new state, M and TN (R172). -/
def State.setHeel (e : Nat) (heel : Bool) (m : Int) (s : State) : State :=
  if (s.eng e).acq.atHeel == heel then s
  else (s.modAcq e (fun a => { a with atHeel := heel, heelMiss := 0 })).raise .leashHeel .engine e
    (w1 (b2n heel) ++ wi m ++ w2 s.tn)
/-- Entry into SEARCH abandons a fade or slew and cancels a pending CD swap with the cancelled status (R182). DESIGN CHOICE (log entry
25): a load of the shadow bank that is still running, which needs IN_FRAME or OOF (R183), is abandoned and answered likewise. -/
def State.dropCdSwap (e : Nat) (s : State) : State :=
  ((s.cancelArmed (fun a => a.key.cls == 0x118 && a.key.index == e) .cancelled 0xFFF).finishJobs
    (fun j => j.ticket.opcode == 0x117 && cIdx j.cmd == e) .cancelled 0xFFF []).modEq e
    (fun q => { q with fade := none, slewing := false, cdLoading := none })
/-- A search pass starts (R152, R182, R189): the waiting layout list and scan range apply, the mode is chosen, the
equaliser's filters are reset. -/
def State.startPass (e : Nat) (s : State) : State :=
  ((s.dropCdSwap e).modEq e (fun q => { q with taps := startTaps, centroid := List.replicate 8 (15 * 256), trail := [], phases := []
                                               slipFix := [], symAlign := List.replicate 8 0
                                               scanCentre := (q.scanNext.getD (q.scanCentre, q.scanSpan)).1
                                               scanSpan := (q.scanNext.getD (q.scanCentre, q.scanSpan)).2
                                               scanNext := none })).modEng e (fun g =>
    { g with acq := { g.acq with state := .search, layouts := g.acq.layoutsNext.getD g.acq.layouts, layoutsNext := none,
                                 layoutsSet := g.acq.layoutsSet || g.acq.layoutsNext.isSome,
                                 blind := g.zr || decide (g.kRx ≤ 4), missRun := 0, goodRun := 0, searchFrom := 0 } })
/-- Releases position and coarse frequency and sets LOF (Table 5.4): the receive buffer is emptied (R86), CONTEST_SEEN and
heel end (R163, R172), the accepted TTI is cleared (R375), frames under way are not decoded.
DESIGN CHOICE (log entry 25): where heel ends with LOF, no M is measured, and LEASH_HEEL carries 0. -/
def State.alignRelease (e : Nat) (next : AcqState) (s : State) : State :=
  (s.setHeel e false 0).modEng e (fun g =>
    { g with acq := { g.acq with state := next, lof := true, coarseFo := 0, residual := 0, recentre := none, offsets := [],
                                 contestSeen := false, contestRaised := false }
             rx := { g.rx with svcRx := [], stamps := [] }
             defect := { g.defect with ttiAccepted := none, ttiLast := none, ttiRun := 0 } })
/-- The search clock of R164 starts unless it already runs. -/
def State.searchClock (e : Nat) (s : State) : State := s.modAcq e (fun a => { a with searchStart := s.ticks })
/-- Release, LOF and a new search pass, from SEARCH, CONFIRM, IN_FRAME or OOF (Table 5.4, last row). -/
def State.acqRestart (e : Nat) (s : State) : State :=
  let st := (s.eng e).acq.state
  if st == .disabled || st == .noSignal then s
  else
    let s := if st == .search || st == .confirm then s else s.searchClock e
    (s.alignRelease e .search).startPass e

/-! ### Rows -/

/-- POWER_QUALIFICATION: input power on one side of ACQ_MIN_POWER in 16 consecutive ticks starts or abandons a search pass
and sets or clears LOS (R158, R164); the power itself is known in DISABLED too (R212). -/
def execPowerQualification (e : Fin 48) (powers : List Int) (s : State) : Res :=
  let a := (s.eng e).acq
  if powers.length = 16 then
    let s := s.modEng e (fun g => { g with inPower := powers.getLastD g.inPower })
    if a.state = .disabled then .next s
    else if powers.all (fun p => decide (a.minPower ≤ p)) then
      let s := s.modEng e (fun g => { g with losIn := false })
      if a.state == .noSignal then .next ((s.searchClock e).startPass e) else .next s
    else if powers.all (fun p => decide (p < a.minPower)) then
      let s := s.modEng e (fun g => { g with losIn := true })
      if a.state == .search || a.state == .confirm then
        .next ((s.dropCdSwap e).modAcq e (fun a => { a with state := .noSignal, noSyncRaised := false }))
      else .next s
    else .next s
  else .next s

/-- A layout's place in ACQ_LAYOUTS. -/
def Engine.layoutIndex (g : Engine) (layout : Nat) : Nat := (g.acq.layouts.idxOf? layout).getD 0
/-- The good candidate of one pass that goes to CONFIRM: highest ACQ_SYNC_POWER, ties to the lower index in ACQ_LAYOUTS (R154). -/
def Engine.bestCandidate (g : Engine) : List SyncMeas → Option SyncMeas
  | [] => none
  | m :: r =>
    let rest := g.bestCandidate r
    if !g.goodSync m || decide (m.position < g.acq.searchFrom) then rest
    else match rest with
      | some b => if b.syncPower < m.syncPower ∨ (b.syncPower = m.syncPower ∧ g.layoutIndex m.layout ≤ g.layoutIndex b.layout)
          then some m else some b
      | none => some m
/-- Limits D to the scanned range, in steps of 2 ps/nm (R182). -/
def scanClip (centre : Int) (span : Nat) (d : Int) : Int :=
  2 * roundDiv (clampI (max (-100000) (centre - span / 2)) (min 100000 (centre + span / 2)) d) 2
/-- The dispersion a pass found goes to the active bank with its alignment, and the shadow bank is cleared (R182). -/
def State.loadScan (e : Nat) (cd : Int) (s : State) : State :=
  let q := (s.eng e).eq
  let bank : CdBank := { d := scanClip q.scanCentre q.scanSpan cd, centreN := s.slotCentre e }
  s.modEq e (fun q => { q with cdActive := bank, cdShadow := none, cdLoading := none, fade := none, slewing := false
                               align := 64 * alignSamples bank })
/-- A sync becomes the present candidate: its record is latched (R157), its offset is the coarse one. -/
def State.candidate (e : Nat) (m : SyncMeas) (s : State) : State :=
  s.modEng e (fun g => { g with acq := { g.acq with
    record := SyncMeas.latch g.zr m s.tn, held := SyncMeas.latch g.zr m s.tn, coarseFo := m.coarseFo, position := m.position } })
/-- SEARCH_SYNC_FOUND: a good sync of a layout under search enters CONFIRM and latches the record; the dispersion scanned in the pass is
loaded (R157, R158, R161, R182). -/
def execSearchSyncFound (e : Fin 48) (found : List SyncMeas) (cd : Int) (s : State) : Res :=
  let g := s.eng e
  if g.acq.state == .search then
    match g.bestCandidate found with
    | none => .next s
    | some m =>
      .next ((((s.candidate e m).modAcq e (fun a => { a with state := .confirm })).loadScan e cd).count .syncCandidates .engine e 1)
  else .next s
/-- SEARCH_PASS_END: a pass without a good sync loads the dispersion it scanned (R182), advances SEARCH_PASSES, and a new one starts
(R164). DESIGN CHOICE (log entry 25): a pass that finds a sync, is abandoned, or is started anew is not counted. -/
def execSearchPassEnd (p : PassEnd) (s : State) : Res :=
  let e := p.engine
  if (s.eng e).acq.state == .search then .next (((s.loadScan e p.cd).count .searchPasses .engine e 1).startPass e) else .next s
/-- ACQ_NO_SYNC: 625,000 ticks in SEARCH or CONFIRM raise it once, with the latest ACQ_RX_POWER (R164). -/
def execAcqNoSync (e : Fin 48) (s : State) : Res :=
  let a := (s.eng e).acq
  if (a.state == .search || a.state == .confirm) && !a.noSyncRaised && decide (a.searchStart + 625000 ≤ s.ticks) then
    .next ((s.modAcq e (fun a => { a with noSyncRaised := true })).raise .acqNoSync .engine e (wi a.record.rxPower))
  else .next s

/-- The receive stores that an entry into IN_FRAME refills: the engine's, and that of the Pack it is a member of (R249). -/
def State.refillStores (e : Nat) (s : State) : State :=
  let again := fun (t : Store) => { t with queues := t.queues.map (fun q => { q with filling := true }) }
  let s := s.modEng e (fun g => { g with store := again g.store })
  match s.packOf e with
  | some p => s.modPack p (fun k => { k with store := again k.store })
  | none => s
/-- Entry into IN_FRAME from CONFIRM (R158, R154): COARSE_FO frozen, LOF cleared, a layout found by blind search adopted, the stores
refilled, ACQ_DONE with the candidate's record. The frame that begins with the confirming sync has no stamp (R193). -/
def State.enterFrame (e : Nat) (s : State) : State :=
  let g := s.eng e
  let l := if g.acq.blind && !g.zr then g.acq.held.layout else g.rxLayout
  let s := s.modEng e (fun g =>
    { g with rxLayout := l
             acq := { g.acq with state := .inFrame, lof := false, missRun := 0, goodRun := 0, contestRaised := false,
                                 contestSeen := false, contestPower := none, limitRaised := false, satRaised := false,
                                 noSyncRaised := false, coarseFo := g.acq.held.coarseFo, residual := 0, recentre := none, offsets := [] }
             rx := { g.rx with echoValid := false, heard := false, stamps := [none] } })
  let s := s.refillStores e
  let a := (s.eng e).acq
  let s := s.raise .acqDone .engine e (acqWords { a with record := a.held })
  if l != g.rxLayout then s.raise .rxLayoutAdopted .engine e (w1 g.rxLayout ++ w1 l) else s
/-- A good contender is examined: its record is latched (R157). -/
def State.examined (e : Nat) (x : Contender) (s : State) : State :=
  s.modEng e (fun g => { g with acq := { g.acq with record := SyncMeas.latch g.zr x.meas s.tn } })
/-- A contender seen in IN_FRAME or OOF (R163): a good one is examined; at least 3 dB above the held alignment it updates CONTEST_POWER,
and the first since entry raises CAPTURE_CONTEST and sets CONTEST_SEEN. -/
def State.contest (e : Nat) (x : Contender) (s : State) : State :=
  if (s.eng e).goodSync x.meas then
    let s := s.examined e x
    let a := (s.eng e).acq
    if x.meas.syncPower < a.held.syncPower + 30 then s
    else
      let s := s.modAcq e (fun a => { a with
        contestPower := some (match a.contestPower with | some p => max p x.meas.syncPower | none => x.meas.syncPower)
        contestSeen := a.contestSeen || !a.contestRaised, contestRaised := true })
      if a.contestRaised then s
      else s.raise .captureContest .engine e (wi a.held.syncPower ++ wi x.meas.syncPower ++ wi x.offset)
  else s
/-- The confirming sync of CONFIRM (R158, R161, R162): a good contender that begins before it and is 3 dB up displaces the candidate, and
no confirmation is evaluated; else the sync at p + N_s decides: good, the contender falls under R163; missed, the search resumes at
p + 1; a contender that begins later is then found by that search, as its own position comes. -/
def State.confirmCheck (e errs : Nat) (x : Option Contender) (s : State) : State :=
  let g := s.eng e
  let a := g.acq
  let good := x.filter (fun x => g.goodSync x.meas)
  let s := match good with | some x => s.examined e x | none => s
  match good.filter (fun x => x.first && decide (a.held.syncPower + 30 ≤ x.meas.syncPower)) with
  | some x => (s.candidate e x.meas).count .contestReplaced .engine e 1
  | none =>
    if errs ≤ effTol g.zr a.syncTol a.held.layout then
      let s := (s.modAcq e (fun a => { a with position := a.position + g.spacing })).enterFrame e
      match good with | some x => s.contest e x | none => s
    else (s.modAcq e (fun a => { a with state := .search, searchFrom := a.position + 1 })).count .pseudoSync .engine e 1
/-- One evaluated sync of IN_FRAME or OOF (R158, R159). DESIGN CHOICE (log entry 25): the return from OOF refills the stores and clears the
echo as an entry into IN_FRAME (R249, R76); the latches told once per entry (R163, R168, R171) start anew at the entry from CONFIRM
only. -/
def State.heldCheck (e : Nat) (good : Bool) (s : State) : State :=
  let a := (s.eng e).acq
  if a.state == .inFrame then
    if good then s.modAcq e (fun a => { a with missRun := 0 })
    else
      let s := s.count .syncMissed .engine e 1
      if 3 ≤ a.missRun then
        (s.modAcq e (fun a => { a with state := .oof, missRun := 0, goodRun := 0, oofEntry := s.ticks })).raise
          .oofEnter .engine e (w2 s.tn ++ w2 (s.counted .syncMissed .engine e))
      else s.modAcq e (fun a => { a with missRun := a.missRun + 1 })
  else if good then
    if 1 ≤ a.goodRun then
      ((s.modEng e (fun g => { g with
          acq := { g.acq with state := .inFrame, missRun := 0, goodRun := 0 }, rx := { g.rx with echoValid := false, heard := false } })).refillStores
        e).raise .oofExit .engine e (w2 s.tn ++ w1 (s.ticks - a.oofEntry))
    else s.modAcq e (fun a => { a with goodRun := a.goodRun + 1 })
  else (s.modAcq e (fun a => { a with goodRun := 0 })).count .syncMissed .engine e 1
/-- A sync check of IN_FRAME or OOF: the arrival stamp of its frame (R193), the judgement, and a contender beside it. -/
def State.frameCheck (e errs : Nat) (x : Option Contender) (phase : List (Nat × Int)) (s : State) : State :=
  let g := s.eng e
  let s := s.modEng e (fun g => { g with acq := { g.acq with position := g.acq.position + g.spacing }
                                         rx := { g.rx with stamps := g.rx.stamps ++ [s.arrivalStamp e phase] } })
  let s := s.heldCheck e (decide (errs ≤ effTol g.zr g.acq.syncTol g.rxLayout))
  match x with | some x => s.contest e x | none => s
/-- Errors at a tick-spaced position, under the choices made at acquisition (R155). -/
def Engine.checkErrs (g : Engine) (decided : List (BitVec 128)) : Nat :=
  if g.zr then Config.zrErrs decided else heldErrs g.acq.held.layout g.acq.held.resolve decided
/-- RX_SYNC_CHECK: the decisions at a tick-spaced position are judged against the effective tolerance and drive the alignment state; a
contender may be examined beside them. -/
def execRxSyncCheck (e : Fin 48) (seen : SyncSeen) (x : Option Contender) (s : State) : Res :=
  let g := s.eng e
  match g.acq.state with
  | .confirm => .next (s.confirmCheck e (g.checkErrs seen.decided) x)
  | .inFrame => .next (s.frameCheck e (g.checkErrs seen.decided) x seen.phase)
  | .oof => .next (s.frameCheck e (g.checkErrs seen.decided) x seen.phase)
  | _ => .next s
/-- OOF_TIMER_EXPIRY: 1,250 ticks in OOF set LOF, release the alignment and start a search pass (R158). -/
def execOofTimerExpiry (e : Fin 48) (s : State) : Res :=
  let a := (s.eng e).acq
  if a.state == .oof && decide (a.oofEntry + 1250 ≤ s.ticks) then
    .next (((s.searchClock e).alignRelease e .search).startPass e)
  else .next s

/-- FREQ_RECENTRE: the residual that exceeded the threshold moves, rounded to 10 MHz, into COARSE_FO, unless that leaves
±6,000 MHz, which raises FREQ_LIMIT once per entry into IN_FRAME (R167, R168, R173). -/
def execFreqRecentre (e : Fin 48) (s : State) : Res :=
  let a := (s.eng e).acq
  match a.recentre with
  | none => .next s
  | some r =>
    let step := 10 * roundDiv r 100
    let c := a.coarseFo + step
    let s := s.modAcq e (fun a => { a with recentre := none })
    if a.state != .inFrame then .next s
    else if c < -6000 ∨ 6000 < c then
      if a.limitRaised then .next s
      else .next ((s.modAcq e (fun a => { a with limitRaised := true })).raise .freqLimit .engine e
        (wi a.coarseFo ++ wi a.residual))
    else .next (((s.modAcq e (fun a => { a with coarseFo := c, residual := a.residual - 10 * step, lastStep := some s.ticks })).raise
      .freqRecentre .engine e (wi (10 * step) ++ w1 (b2n a.leash.enable) ++ wi c ++ w2 s.tn)).count .freqRecentres .engine e 1)
/-- The offset of a tick, COARSE_FO plus the residual in 0.1 MHz, is kept for 64 ticks (R170); a residual beyond the threshold
(R167, R173) asks for a re-centring step at the next boundary, at least 16 ticks after the last, and on an engine without a Leash raises FREQ_EXCURSION. -/
def State.residualSeen (e : Nat) (r : Int) (s : State) : State :=
  let a := (s.eng e).acq
  let s := s.modAcq e (fun a => { a with
    residual := r, offsets := if a.state == .inFrame then ((s.ticks, 10 * a.coarseFo + r) :: a.offsets).take 64 else a.offsets })
  if a.state == .inFrame && decide ((if a.leash.enable then 2500 else 5000) < r.natAbs) then
    let s := if a.leash.enable then s else s.raise .freqExcursion .engine e (wi r ++ w2 s.tn)
    if a.lastStep.all (fun t => decide (t + 15 ≤ s.ticks)) then s.modAcq e (fun a => { a with recentre := some r }) else s
  else s

/-- The Leash write of R170 with the measured offset M in 0.1 MHz. DESIGN CHOICE (log entry 25): the last value written is the Leash's own;
a value that FE_BUS_ACCESS wrote to the register, or a profile loaded since, does not change it. -/
def State.leashWrite (e : Nat) (m : Int) (p : FineTune) (s : State) : State :=
  let a := (s.eng e).acq
  let corr := clampI (-(16000 * a.leash.stepMax)) (16000 * a.leash.stepMax) (100 * a.leash.gain * m)
  let want := a.leashWritten + (if p.negative then -1 else 1) * roundDiv corr (16 * p.scaleKhz)
  let lim : Int := (2 ^ (p.width - 1) : Nat)
  let v := clampI (-lim) (lim - 1) want
  let s := (s.modAcq e (fun a => { a with leashWritten := v })).feWrite e p.addr (ux p.width v)
  let s := if v ≠ want ∧ ¬ a.satRaised then
      ((s.modAcq e (fun a => { a with satRaised := true })).raise .leashSaturated .engine e (wi v)).lifeLeashSat e
    else s
  if m.natAbs ≤ 500 then (s.modAcq e (fun a => { a with heelMiss := 0 })).setHeel e true m
  else if 3 ≤ a.heelMiss then s.setHeel e false m
  else s.modAcq e (fun a => { a with heelMiss := a.heelMiss + 1 })
/-- The offsets of the 64 ticks before a write instant at tick count `now` (R170). -/
def Acquisition.offsetsBefore (now : Nat) (a : Acquisition) : List Int :=
  (a.offsets.filter (fun x => decide (x.1 < now) && decide (now ≤ x.1 + 64))).map (·.2)
/-- LEASH_WRITE_INSTANT: at a TN that is a multiple of 64 a leashed engine in frame writes the corrected value (R170). DESIGN CHOICE (log
entry 25): where the residual was measured in IN_FRAME in fewer than the 64 ticks before the instant, M is the mean over those in which
it was, and with none there is no write. -/
def execLeashWriteInstant (e : Fin 48) (s : State) : Res :=
  let g := s.eng e
  let a := g.acq
  if s.tn % 64 = 0 ∧ a.leash.enable ∧ g.inFrame ∧ ¬ s.fenced e ∧ a.offsetsBefore s.ticks ≠ [] ∧ a.lastWrite ≠ some s.ticks then
    match g.fe.profile with
    | none => .next s
    | some p => match p.fineTune with
      | none => .next s
      | some ft =>
        let l := a.offsetsBefore s.ticks
        .next ((s.modAcq e (fun a => { a with lastWrite := some s.ticks })).leashWrite e (roundDiv (l.foldl (· + ·) 0) l.length) ft)
  else .next s
/-- The Leash settings that wait for a write instant apply (Table 5.6); clearing LEASH_ENABLE ends heel (R172). DESIGN CHOICE (log entry
25): LEASH_HEEL then carries 0 for M, which is not measured. -/
def State.leashInstant (e : Nat) (s : State) : State :=
  match (s.eng e).acq.leashNext with
  | none => s
  | some l =>
    let s := s.modAcq e (fun a => { a with leash := l, leashNext := none })
    if l.enable then s else s.setHeel e false 0

/-! ### Commands -/

/-- Layouts named by word 2 of ENGINE_ACQ_SET: count in [18:16], layouts of 4 bits from [15:12] down. -/
def acqLayoutsOf (w : Nat) : List Nat := ((List.range 4).map (fun i => field w (12 - 4 * i) 4)).take (field w 16 3)
/-- Word 2 of ENGINE_ACQ_SET for a list. -/
def acqLayoutsWord (l : List Nat) : Nat :=
  l.length * 65536 + (((List.range 4).map (fun i => l.getD i 0 * 2 ^ (12 - 4 * i))).foldl (· + ·) 0)
/-- ENGINE_ACQ_SET (R153, R156): ACQ_LAYOUTS waits for the next search pass from its acceptance on (Table 5.2). -/
def specEngineAcqSet : OpSpec :=
  { code := 0x111, len := lenIs 4, target := tgtEngine, fence := fenceEngine
    ranges := [ rngU 1 0 255
              , rngP 2 (fun w => decide (w < 2 ^ 19) && decide (1 ≤ field w 16 3) && decide (field w 16 3 ≤ 4)
                  && (acqLayoutsOf w).all layoutOk && w == acqLayoutsWord (acqLayoutsOf w))
              , rngS 3 (-300) (-60) ]
    refuse := fun s c =>
      let g := s.eng (cIdx c)
      let l := acqLayoutsOf (cw c 2)
      if g.zr && l.length != 1 then some (.mode, 0)
      else if (g.kRx != 0 && !g.zr && l.any (fun x => !capFits g.kRx x)) || !decide l.Nodup
        then some (.capacityLayout, 0) else none
    eff := .boundary 0x111 (fun c s => s.modAcq (cIdx c) (fun a => { a with
      syncTol := cw c 1, minPower := cz c 3 }))
    onAccept := fun c s => s.modAcq (cIdx c) (fun a => { a with layoutsNext := some (acqLayoutsOf (cw c 2)) })
    read := some {
      selectors := 0, ok := fun _ _ => true, get := fun c s =>
      let a := (s.eng (cIdx c)).acq
      w1 a.syncTol ++ w1 (acqLayoutsWord a.layouts) ++ wi a.minPower } }
/-- ENGINE_ACQ_SET: sets SYNC_TOL, ACQ_LAYOUTS and ACQ_MIN_POWER. -/
def execEngineAcqSet (c : Cmd) (s : State) : Res := runOp specEngineAcqSet c s
/-- ENGINE_ACQ_RESTART (Table 5.4, last row). -/
def specEngineAcqRestart : OpSpec :=
  { code := 0x112, len := lenIs 1, target := tgtEngine, fence := fenceEngine
    eff := .now (fun c s => (s.acqRestart (cIdx c), [])) }
/-- ENGINE_ACQ_RESTART: releases alignment, sets LOF and starts a search pass. -/
def execEngineAcqRestart (c : Cmd) (s : State) : Res := runOp specEngineAcqRestart c s
/-- ENGINE_ACQ_STATUS (R157). -/
def specEngineAcqStatus : OpSpec :=
  { code := 0x113, len := lenIs 1, target := tgtEngine, eff := .now (fun c s => (s, acqWords (s.eng (cIdx c)).acq)) }
/-- ENGINE_ACQ_STATUS: returns the acquisition record. -/
def execEngineAcqStatus (c : Cmd) (s : State) : Res := runOp specEngineAcqStatus c s
/-- ENGINE_LEASH_SET (R169): at most one leashed engine to a line tile. -/
def specEngineLeashSet : OpSpec :=
  { code := 0x114, len := lenIs 4, target := tgtEngine, fence := fenceEngine
    ranges := [rngU 1 0 1, rngU 2 1 16, rngU 3 1 200]
    refuse := fun s c =>
      let e := cIdx c
      if cw c 1 = 1 then
        match (List.range 48).find? (fun x => x != e && tileOf x == tileOf e &&
            ((s.eng x).acq.leashNext.getD (s.eng x).acq.leash).enable) with
        | some x => some (.leashInUse, x)
        | none => if (s.eng e).fe.profile.any (fun p => p.fineTune.isSome) then none else some (.profileIncomplete, 0)
      else none
    leads := fun c s => s.leashInstant (cIdx c)
    eff := .now (fun c s => (s.modAcq (cIdx c) (fun a => { a with
      leashNext := some { enable := cw c 1 == 1, gain := cw c 2, stepMax := cw c 3 } }), []))
    read := some {
      selectors := 0, ok := fun _ _ => true, get := fun c s =>
      let l := (s.eng (cIdx c)).acq.leash
      w1 (b2n l.enable) ++ w1 l.gain ++ w1 l.stepMax } }
/-- ENGINE_LEASH_SET: sets the Leash parameters, from the next write instant. -/
def execEngineLeashSet (c : Cmd) (s : State) : Res := runOp specEngineLeashSet c s

end Sys2Proof.Machine
end

