-- ==== Sys2Proof/Machine/Crypto.lean ====
section
/-! DEFINITION. The cryptography the manual names by its standards (PRESUMED, log entry 10): SHA-384 and HMAC (FIPS 180-4, FIPS 198-1), AES-256
(FIPS 197), GCM (SP 800-38D), Key Wrap (SP 800-38F), and ECDSA and ECDH on P-384 (FIPS 186-4, SP 800-56A). -/
namespace Sys2Proof.Machine

/-! ### Octets and numbers -/

/-- `len` octets of a number, most significant first. -/
def beOctets (len n : Nat) : List Octet := ((List.range len).map (fun i => BitVec.ofNat 8 (n >>> (8 * i)))).reverse
/-- The number that octets spell, most significant first. -/
def beNat (l : List Octet) : Nat := l.foldl (fun n o => n * 256 + o.toNat) 0
/-- Blocks of `size` octets, at most `count` of them. -/
def cryptBlocks (size : Nat) : Nat → List Octet → List (List Octet)
  | 0, _ => []
  | n + 1, l => if l.isEmpty then [] else l.take size :: cryptBlocks size n (l.drop size)

/-! ### SHA-384 and HMAC, with 64-bit words as numbers -/

/-- The largest number whose power `e` does not exceed `x`, found bit after bit from `r`; `n` bits remain. -/
def rootFrom (e x : Nat) : Nat → Nat → Nat
  | 0, r => r
  | n + 1, r => rootFrom e x n (if (r + 2 ^ n) ^ e ≤ x then r + 2 ^ n else r)
/-- The first 64 bits of the fraction of the root of order `e` of a prime: what the standard makes its constants from. -/
def rootWord (e p : Nat) : Nat := rootFrom e (p * 2 ^ (64 * e)) 70 0 % 2 ^ 64
/-- The primes below 410: 80 of them. -/
def shaPrimes : List Nat :=
  ((List.range 408).map (· + 2)).filter (fun n => (List.range 19).all (fun d => n == d + 2 || n % (d + 2) != 0))
/-- A word turned right by each of `turns`, the results combined by exclusive or. -/
def turnsOf (turns : List Nat) (x : Nat) : Nat :=
  turns.foldl (fun y r => y ^^^ ((x >>> r ||| x <<< (64 - r)) % 2 ^ 64)) 0
/-- The message words of a block, the latest first, `n` more to come. -/
def shaWords : Nat → List Nat → List Nat
  | 0, ws => ws
  | n + 1, ws =>
    let far := ws.getD 14 0
    let near := ws.getD 1 0
    shaWords n ((ws.getD 15 0 + (turnsOf [1, 8] far ^^^ far >>> 7) + ws.getD 6 0 + (turnsOf [19, 61] near ^^^ near >>> 6)) % 2 ^ 64 :: ws)
/-- One round on the two sequences of the hash, each by its last four values, the latest first; `kw` is the sum of the round's constant
and its message word. -/
def shaStep (x : List Nat × List Nat) (kw : Nat) : List Nat × List Nat :=
  match x with
  | ([p, q, r, t], [u, v, w, y]) =>
    let gain := y + turnsOf [14, 18, 41] u + (w ^^^ (u &&& (v ^^^ w))) + kw
    ([(gain + turnsOf [28, 34, 39] p + (p &&& q ||| r &&& (p ||| q))) % 2 ^ 64, p, q, r], [(gain + t) % 2 ^ 64, u, v, w])
  | _ => x
/-- A block of 128 octets enters the hash, whose value is a pair of such sequences. -/
def shaAbsorb (s : List Nat × List Nat) (block : List Octet) : List Nat × List Nat :=
  let words := (shaWords 64 ((cryptBlocks 8 16 block).map beNat).reverse).reverse
  let t := (List.zipWith (fun p w => rootWord 3 p + w) shaPrimes words).foldl shaStep s
  let add := List.zipWith (fun a b => (a + b) % 2 ^ 64)
  (add s.1 t.1, add s.2 t.2)
/-- SHA-384: 48 octets. Its initial value is made from the ninth to the sixteenth prime. -/
def sha384 (m : List Octet) : List Octet :=
  let zeros := (239 - m.length % 128) % 128
  let padded := m ++ [0x80#8] ++ List.replicate zeros 0 ++ beOctets 16 (8 * m.length)
  let start := ((shaPrimes.drop 8).take 8).map (rootWord 2)
  let s := (cryptBlocks 128 (padded.length / 128) padded).foldl shaAbsorb (start.take 4, start.drop 4)
  ((s.1 ++ s.2.take 2).map (beOctets 8)).flatten
/-- HMAC-SHA-384. -/
def hmac384 (key m : List Octet) : List Octet :=
  let k := if 128 < key.length then sha384 key else key
  let k := k ++ List.replicate (128 - k.length) 0
  sha384 (k.map (· ^^^ 0x5C) ++ sha384 (k.map (· ^^^ 0x36) ++ m))

/-! ### AES-256, with octets as numbers -/

/-- The S-box, sixteen entries to a row, entry 0 in the lowest octet. -/
def aesSbox : List Nat :=
  [0x76abd7fe2b670130c56f6bf27b777c63, 0xc072a49cafa2d4adf04759fa7dc982ca,
    0x1531d871f1e5a534ccf73f362693fdb7, 0x75b227ebe28012079a059618c323c704,
    0x842fe329b3d63b52a05a6e1b1a2c8309, 0xcf584c4a39becb6a5bb1fc20ed00d153,
    0xa89f3c507f02f94585334d43fbaaefd0, 0xd2f3ff1021dab6bcf5389d928f40a351,
    0x73195d643d7ea7c41744975fec130ccd, 0xdb0b5ede14b8ee4688902a22dc4f8160,
    0x79e4959162acd3c25c2406490a3a32e0, 0x08ae7a65eaf4566ca94ed58d6d37c8e7,
    0x8a8bbd4b1f74dde8c6b4a61c2e2578ba, 0x9e1dc186b95735610ef6034866b53e70,
    0xdf2855cee9871e9b948ed9691198f8e1, 0x16bb54b00f2d99416842e6bf0d89a18c]
/-- The inverse S-box. -/
def aesInvSbox : List Nat :=
  [0xfbd7f3819ea340bf38a53630d56a0952, 0xcbe9dec444438e3487ff2f9b8239e37c,
    0x4ec3fa420b954cee3d23c2a632947b54, 0x25d18b6d49a25b76b224d92866a12e08,
    0x92b6655dcc5ca4d41698688664f6f872, 0x849d8da75746155edab9edfd5048706c,
    0x0645b3b80558e4f70ad3bc8c00abd890, 0x6b8a130103bdafc1020f3fca8f1e2cd0,
    0x73e6b4f0cecff297eadc674f4111913a, 0x6edf751ce837f9e28535ade72274ac96,
    0x1bbe18aa0e62b76f89c5291d711af147, 0xf45acd78fec0db9a2079d2c64b3e56fc,
    0x5fec8027591012b131c7078833a8dd1f, 0xef9cc9939f7ae52d0d4ab519a97f5160,
    0x619953833cbbebc8b0f52aae4d3be0a0, 0x7d0c2155631469e126d677ba7e042b17]
/-- An entry of an S-box. -/
def aesSub (box : List Nat) (x : Nat) : Nat := box.getD (x / 16) 0 >>> (8 * (x % 16)) % 256
/-- Multiplication by x in GF(2⁸). -/
def aesXtime (a : Nat) : Nat := if 128 ≤ a then (2 * a) % 256 ^^^ 0x1B else 2 * a
/-- Multiplication in GF(2⁸) by a factor below 16. -/
def aesMul (f a : Nat) : Nat :=
  let a2 := aesXtime a
  let a4 := aesXtime a2
  (if f % 2 = 1 then a else 0) ^^^ (if f / 2 % 2 = 1 then a2 else 0) ^^^ (if f / 4 % 2 = 1 then a4 else 0)
    ^^^ (if f / 8 = 1 then aesXtime a4 else 0)
/-- Exclusive or of two lists. -/
def xorNats (a b : List Nat) : List Nat := List.zipWith (· ^^^ ·) a b
/-- ShiftRows by `k` columns a row on a block held column after column: 1 forward, 3 inverse. -/
def aesShift (k : Nat) (b : List Nat) : List Nat :=
  (List.range 16).map (fun i => b.getD (i % 4 + 4 * ((i / 4 + k * (i % 4)) % 4)) 0)
/-- MixColumns by the first row of its matrix. -/
def aesMix (m : List Nat) (b : List Nat) : List Nat :=
  (List.range 16).map (fun i => (List.range 4).foldl (fun x j =>
    x ^^^ aesMul (m.getD ((j + 4 - i % 4) % 4) 0) (b.getD (i / 4 * 4 + j) 0)) 0)
/-- The first row of the matrix of MixColumns, and that of its inverse. -/
def aesMixRow : List Nat := [2, 3, 1, 1]
def aesInvMixRow : List Nat := [14, 11, 13, 9]
/-- The next eight words of the key schedule of AES-256. -/
def aesNextWords (rcon : Nat) (w : List (List Nat)) : List (List Nat) :=
  let at' := fun i => w.getD i []
  let w0 := xorNats (at' 0) (xorNats (((at' 7).drop 1 ++ (at' 7).take 1).map (aesSub aesSbox)) [rcon, 0, 0, 0])
  let w1 := xorNats (at' 1) w0
  let w2 := xorNats (at' 2) w1
  let w3 := xorNats (at' 3) w2
  let w4 := xorNats (at' 4) (w3.map (aesSub aesSbox))
  let w5 := xorNats (at' 5) w4
  let w6 := xorNats (at' 6) w5
  [w0, w1, w2, w3, w4, w5, w6, xorNats (at' 7) w6]
/-- Round keys, two to a step of the schedule. -/
def aesSchedule : List Nat → List (List Nat) → List (List Nat)
  | [], w => [(w.take 4).flatten, (w.drop 4).flatten]
  | r :: rs, w => [(w.take 4).flatten, (w.drop 4).flatten] ++ aesSchedule rs (aesNextWords r w)
/-- The fifteen round keys of a key of 32 octets. -/
def aesKeys (key : List Octet) : List (List Nat) :=
  (aesSchedule [1, 2, 4, 8, 16, 32, 64] ((cryptBlocks 4 8 key).map (fun x => x.map BitVec.toNat))).take 15
/-- The rounds of encryption after the first key. -/
def aesRounds : List (List Nat) → List Nat → List Nat
  | [], b => b
  | [k], b => xorNats (aesShift 1 (b.map (aesSub aesSbox))) k
  | k :: k' :: ks, b => aesRounds (k' :: ks) (xorNats (aesMix aesMixRow (aesShift 1 (b.map (aesSub aesSbox)))) k)
/-- The rounds of decryption after the last key. -/
def aesInvRounds : List (List Nat) → List Nat → List Nat
  | [], b => b
  | [k], b => xorNats ((aesShift 3 b).map (aesSub aesInvSbox)) k
  | k :: k' :: ks, b => aesInvRounds (k' :: ks) (aesMix aesInvMixRow (xorNats ((aesShift 3 b).map (aesSub aesInvSbox)) k))
/-- AES-256 on a block of 16 octets. -/
def aesEncrypt (keys : List (List Nat)) (block : List Octet) : List Octet :=
  (aesRounds (keys.drop 1) (xorNats (block.map BitVec.toNat) (keys.getD 0 []))).map (BitVec.ofNat 8)
/-- The inverse of AES-256 on a block. -/
def aesDecrypt (keys : List (List Nat)) (block : List Octet) : List Octet :=
  (aesInvRounds (keys.reverse.drop 1) (xorNats (block.map BitVec.toNat) (keys.getD 14 []))).map (BitVec.ofNat 8)

/-! ### GCM -/

/-- Multiplication in GF(2¹²⁸) of GCM: `n` bits of x remain, the most significant first. -/
def ghashMul (x : Nat) : Nat → Nat → Nat → Nat
  | 0, z, _ => z
  | n + 1, z, v => ghashMul x n (if x.testBit n then z ^^^ v else z) (if v % 2 = 1 then v / 2 ^^^ 0xE1 <<< 120 else v / 2)
/-- GHASH of whole blocks under H. -/
def ghash (h : Nat) (l : List Octet) : Nat :=
  (cryptBlocks 16 (l.length / 16) l).foldl (fun y b => ghashMul (y ^^^ beNat b) 128 0 h) 0
/-- Octets padded with 0x00 to whole blocks of 16. -/
def padBlock (l : List Octet) : List Octet := l ++ List.replicate ((16 - l.length % 16) % 16) 0
/-- Encryption in counter mode from counter block `c` of the IV. -/
def gctr (keys : List (List Nat)) (iv : List Octet) (c : Nat) (l : List Octet) : List Octet :=
  let blocks := cryptBlocks 16 ((l.length + 15) / 16) l
  (List.zipWith (fun i b => List.zipWith (· ^^^ ·) b (aesEncrypt keys (iv ++ beOctets 4 (c + i)))) (List.range blocks.length) blocks).flatten
/-- The tag over additional data and ciphertext, for a 96-bit IV. -/
def gcmTag (keys : List (List Nat)) (iv aad ct : List Octet) : List Octet :=
  let h := beNat (aesEncrypt keys (List.replicate 16 0))
  gctr keys iv 1 (beOctets 16 (ghash h (padBlock aad ++ padBlock ct ++ beOctets 8 (8 * aad.length) ++ beOctets 8 (8 * ct.length))))
/-- AES-256-GCM encryption (R350): ciphertext and tag. -/
def gcmSeal (key iv aad plain : List Octet) : List Octet × List Octet :=
  let keys := aesKeys key
  let ct := gctr keys iv 2 plain
  (ct, gcmTag keys iv aad ct)
/-- AES-256-GCM decryption: none where the tag does not verify. -/
def gcmOpen (key iv aad ct tag : List Octet) : Option (List Octet) :=
  let keys := aesKeys key
  if gcmTag keys iv aad ct = tag then some (gctr keys iv 2 ct) else none

/-! ### Key Wrap -/

/-- The initial value of Key Wrap. -/
def kwInit : List Octet := List.replicate 8 0xA6
/-- The step value of Key Wrap enters the upper half. -/
def kwStep (a : List Octet) (t : Nat) : List Octet := List.zipWith (· ^^^ ·) a (beOctets 8 t)
/-- One pass of wrapping over the semi-blocks, from step t. -/
def kwWrapPass (keys : List (List Nat)) : Nat → List Octet → List (List Octet) → List Octet × List (List Octet)
  | _, a, [] => (a, [])
  | t, a, r :: rs =>
    let b := aesEncrypt keys (a ++ r)
    let x := kwWrapPass keys (t + 1) (kwStep (b.take 8) t) rs
    (x.1, b.drop 8 :: x.2)
/-- One pass of unwrapping over the semi-blocks, the last first, from step t. -/
def kwUnwrapPass (keys : List (List Nat)) : Nat → List Octet → List (List Octet) → List Octet × List (List Octet)
  | _, a, [] => (a, [])
  | t, a, r :: rs =>
    let b := aesDecrypt keys (kwStep a t ++ r)
    let x := kwUnwrapPass keys (t - 1) (b.take 8) rs
    (x.1, b.drop 8 :: x.2)
/-- Key Wrap of whole semi-blocks under a key (R361, R362). -/
def kwWrap (key plain : List Octet) : List Octet :=
  let keys := aesKeys key
  let rs := cryptBlocks 8 (plain.length / 8) plain
  let x := (List.range 6).foldl (fun x j => kwWrapPass keys (rs.length * j + 1) x.1 x.2) (kwInit, rs)
  x.1 ++ x.2.flatten
/-- Its inverse: none where the integrity check fails. -/
def kwUnwrap (key wrapped : List Octet) : Option (List Octet) :=
  let keys := aesKeys key
  let rs := (cryptBlocks 8 ((wrapped.length - 8) / 8) (wrapped.drop 8)).reverse
  let x := (List.range 6).foldl (fun x j => kwUnwrapPass keys (rs.length * (6 - j)) x.1 x.2) (wrapped.take 8, rs)
  if x.1 = kwInit then some x.2.reverse.flatten else none

/-! ### P-384 -/

/-- The prime of the field, the order of the group, the coefficient b, and the base point of P-384. -/
def p384 : Nat := 2 ^ 384 - 2 ^ 128 - 2 ^ 96 + 2 ^ 32 - 1
def p384Order : Nat :=
  0xFFFFFFFFFFFFFFFFFFFFFFFFFFFFFFFFFFFFFFFFFFFFFFFFC7634D81F4372DDF581A0DB248B0A77AECEC196ACCC52973
def p384B : Nat := 0xB3312FA7E23EE7E4988E056BE3F82D19181D9C6EFE8141120314088F5013875AC656398D8A2ED19D2A85C8EDD3EC2AEF
def p384Base : Nat × Nat :=
  (0xAA87CA22BE8B05378EB1C71EF320AD746E1D3B628BA79B9859F741E082542A385502F25DBF55296C3A545E3872760AB7,
   0x3617DE4A96262C6F5D9E98BF9292DC29F8F41DBD289A147CE9DA3113B5F0B8C00A60B1CE1D7E819D7A431D7C90EA0E5F)
/-- Power modulo m; `n` bits of the exponent remain. -/
def powMod (m : Nat) : Nat → Nat → Nat → Nat
  | 0, _, _ => 1 % m
  | n + 1, b, e => (if e % 2 = 1 then b else 1) * powMod m n (b * b % m) (e / 2) % m
/-- Inverse modulo a prime of 384 bits. -/
def invMod (m a : Nat) : Nat := powMod m 384 (a % m) (m - 2)
/-- Subtraction modulo m of two numbers below m. -/
def subMod (m a b : Nat) : Nat := (a + m - b) % m
/-- A point lies on the curve. -/
def onP384 (q : Nat × Nat) : Bool :=
  decide (q.1 < p384) && decide (q.2 < p384) && q.2 * q.2 % p384 == subMod p384 ((q.1 * q.1 * q.1 + p384B) % p384) (3 * q.1 % p384)
/-- The third point of a slope through two points, mirrored. -/
def pointOn (s : Nat) (a b : Nat × Nat) : Nat × Nat :=
  let x := subMod p384 (subMod p384 (s * s % p384) a.1) b.1
  (x, subMod p384 (s * subMod p384 a.1 x % p384) a.2)
/-- Addition of points; none is the point at infinity. -/
def pointAdd : Option (Nat × Nat) → Option (Nat × Nat) → Option (Nat × Nat)
  | none, b => b
  | a, none => a
  | some a, some b =>
    if a.1 ≠ b.1 then some (pointOn (subMod p384 b.2 a.2 * invMod p384 (subMod p384 b.1 a.1) % p384) a b)
    else if (a.2 + b.2) % p384 = 0 then none
    else some (pointOn (subMod p384 (3 * a.1 * a.1 % p384) 3 * invMod p384 (2 * a.2 % p384) % p384) a b)
/-- Multiple of a point; `n` bits of the factor remain. -/
def pointMul : Nat → Nat → Option (Nat × Nat) → Option (Nat × Nat)
  | 0, _, _ => none
  | n + 1, k, q =>
    let r := pointMul n (k / 2) (pointAdd q q)
    if k % 2 = 1 then pointAdd q r else r
/-- The public point of a private key. -/
def publicPoint (d : Nat) : Nat × Nat := (pointMul 384 d (some p384Base)).getD (0, 0)
/-- A point as 96 octets, x then y, and back. -/
def pointOctets (q : Nat × Nat) : List Octet := beOctets 48 q.1 ++ beOctets 48 q.2
def octetsPoint (l : List Octet) : Nat × Nat := (beNat (l.take 48), beNat ((l.drop 48).take 48))
/-- A number 1 to the order less 1, from a draw. -/
def drawScalar (l : List Octet) : Nat := 1 + beNat l % (p384Order - 1)
/-- The ECDH shared secret: the x of the shared point, 48 octets. -/
def sharedSecret (d : Nat) (q : Nat × Nat) : List Octet := beOctets 48 ((pointMul 384 d (some q)).getD (0, 0)).1
/-- Random octets of a draw. -/
def randomOctets (len draw : Nat) : List Octet := beOctets len (Config.randomNumber len draw)
/-- ECDSA with SHA-384: r then s, 96 octets, with private key d and nonce k. -/
def ecdsaSign (d k : Nat) (m : List Octet) : List Octet :=
  let r := (publicPoint k).1 % p384Order
  beOctets 48 r ++ beOctets 48 (invMod p384Order k * ((beNat (sha384 m) + r * d) % p384Order) % p384Order)
/-- Whether a signature of 96 octets over m verifies under a public point. -/
def ecdsaVerify (q : Nat × Nat) (m sig : List Octet) : Bool :=
  let r := beNat (sig.take 48)
  let s := beNat ((sig.drop 48).take 48)
  let w := invMod p384Order s
  let u1 := beNat (sha384 m) * w % p384Order
  let u2 := r * w % p384Order
  let x := pointAdd (pointMul 384 u1 (some p384Base)) (pointMul 384 u2 (some q))
  sig.length == 96 && decide (0 < r) && decide (r < p384Order) && decide (0 < s) && decide (s < p384Order)
    && x.any (fun y => y.1 % p384Order == r)

end Sys2Proof.Machine
end

