-- ==== Sys2Proof/Machine/Calendar.lean ====
section
/-! DEFINITION. The calendar (R229 to R243): entries, the line slot each names, bank checks, who carries traffic (R38), and the
swap.
What it chooses or infers where the manual is silent, with its marks: log entry 27. -/
namespace Sys2Proof.Machine

/-- A CAL_SWAP that has not taken effect. -/
def State.swapPending (s : State) : Option Armed := s.proto.armed.find? (fun a => a.key.cls == 0x202)
/-- First index of a bank whose entry satisfies a test of its resolved place. -/
def State.bankFind (s : State) (bank : List (Nat × Nat)) (p : CalEntry → Nat → Nat → Bool) : Option Nat :=
  (bank.find? (fun x => let d := calDecode x.2
    match s.resolve d with | some (e, k) => p d e k | none => false)).map (·.1)
/-- The lower of two optional indices. -/
def minIdx : Option Nat → Option Nat → Option Nat
  | some a, some b => some (min a b)
  | some a, none => some a
  | none, b => b
/-- First entry of either bank whose entry and place satisfy a test. -/
def State.firstOf (s : State) (p : CalEntry → Nat → Nat → Bool) : Option Nat :=
  minIdx (s.bankFind s.cal.active p) (s.bankFind s.cal.shadow p)
/-- First entry of the active bank, or of the shadow bank while a swap is pending or under way, that satisfies a test (R235). -/
def State.inUse (s : State) (p : CalEntry → Nat → Nat → Bool) : Option Nat :=
  minIdx (s.bankFind s.cal.active p) (if s.swapPending.isSome then s.bankFind s.cal.shadow p else none)
/-! ### Bank checks (Table 8.2) -/

/-- The capacity in K an engine is checked against: the smaller of its present and pending ones (R234). -/
def checkedK (g : Engine) : Nat := match g.cap with | some c => min c.kOld c.kNew | none => min g.kTx g.kRx
/-- Pack capacity in slots that a bank is checked against: M × the smallest member capacity, present or pending (R234, R251). -/
def State.packSlots (s : State) (p : Nat) : Nat :=
  let m := (s.pack p).members
  m.length * ((m.map (fun e => grains (checkedK (s.eng e)))).foldl min 3150)
/-- The Pack capacity in force, in slots: M × the smallest member capacity, until every member has switched (R251, R252). -/
def State.packSlotsNow (s : State) (p : Nat) : Nat :=
  let m := (s.pack p).members
  m.length * ((m.map (fun e => grains (min (s.eng e).kTx (s.eng e).kRx))).foldl min 3150)
/-- First check that one entry fails, against the whole bank. -/
def State.entryCheck (s : State) (bank : List (Nat × Nat)) (i : Nat) (d : CalEntry) : Option Nat :=
  let others := bank.filter (fun x => x.1 != i)
  let alloc := match s.port? d.port with | some p => clientGrains p.ty | none => 0
  if d.ty = 3 ∨ d.reserved ≠ 0 then some 1
  else if d.ty = 0 then none
  else if alloc ≤ d.grain then some 2
  else if d.ty = 1 ∧ (48 ≤ d.engine ∨ grains (checkedK (s.eng d.engine)) ≤ d.slot ∨ (s.packOf d.engine).isSome) then some 3
  else if d.ty = 2 ∧ s.packSlots d.engine ≤ d.slot then some 4
  else if others.any (fun x => s.resolve (calDecode x.2) == s.resolve d) then some 5
  else if others.any (fun x => let y := calDecode x.2; y.ty != 0 && y.port == d.port && y.grain == d.grain) then some 6
  else
    let same := (bank.map (fun x => calDecode x.2)).filter (fun y => y.ty != 0 && y.port == d.port)
    if same.any (fun y => y.ty != d.ty || y.engine != d.engine) ∨ !(List.range alloc).all (fun g => same.any (fun y => y.grain == g))
      then some 7
    else if d.ty = 1 ∧ (s.eng d.engine).zr ∧ ((s.port? d.port).map (·.ty) ≠ some 2 ∨
        bank.any (fun x => let y := calDecode x.2; y.ty == 1 && y.engine == d.engine && y.port != d.port)) then some 8
    else none
/-- First entry of the active bank, or of the shadow bank of a pending or running swap, that would fail check 8 or the 630 grains of the
400ZR profile were an engine in it (R235). -/
def State.zrConflict (s : State) (e : Nat) : Option Nat :=
  let clash := fun (bank : List (Nat × Nat)) =>
    let mine := bank.filter (fun x => (s.resolve (calDecode x.2)).any (fun y => y.1 == e))
    let port := (mine.head?.map (fun x => (calDecode x.2).port)).getD 0
    (mine.find? (fun x => let d := calDecode x.2
      d.ty != 1 || decide (630 ≤ d.slot) || d.port != port || (s.port? d.port).map (·.ty) != some 2)).map (·.1)
  minIdx (clash s.cal.active) (if s.swapPending.isSome then clash s.cal.shadow else none)
/-- The first failing entry of a bank in ascending index, with its check number (R234). -/
def State.bankCheck (s : State) (bank : List (Nat × Nat)) : Option (Nat × Nat) :=
  bank.findSome? (fun x => (s.entryCheck bank x.1 (calDecode x.2)).map (fun k => (x.1, k)))
/-- What a bank maps to each line slot: engine, slot, port, grain. -/
def State.slotMap (s : State) (bank : List (Nat × Nat)) : List ((Nat × Nat) × (Nat × Nat)) :=
  bank.filterMap (fun x => let d := calDecode x.2
    (s.resolve d).map (fun k => (k, (d.port, d.grain))))
/-- The line slots a swap changes (R239). -/
def State.changedSlots (s : State) : List (Nat × Nat) :=
  let a := s.slotMap s.cal.active
  let b := s.slotMap s.cal.shadow
  ((a.filter (fun x => !b.contains x)).map (·.1) ++ (b.filter (fun x => !a.contains x)).map (·.1)).dedup
/-- The images of a bank in entry order: 8 octets an entry, least significant first (R236). -/
def bankImage (bank : List (Nat × Nat)) (first count : Nat) : List Octet :=
  ((List.range count).map (fun i => octetsLE 8 (cellGet bank (first + i) 0))).flatten

/-! ### Commands -/

/-- Applies `f` to the calendar. -/
def State.modCal (f : Calendar → Calendar) (s : State) : State := { s with cal := f s.cal }
/-- The swap whose guard may run in the tick that begins (R240). -/
def State.preGuardStep (s : State) : State := s.modCal (fun k => { k with preGuard := s.swapPending })
/-- Refusals of CAL_SWAP in the order of its row, checked by R234 and the words SHADOW_CRC and MAX_CHANGED. -/
def swapRefusal (s : State) (c : Cmd) : Option (Status × Nat) :=
  if s.swapPending.any (fun a => decide (a.due ≤ s.tn + 2)) then some (.busy, 0)
  else match s.bankCheck s.cal.shadow with
    | some (i, k) => some (.calendarInvalid, i * 256 + k)
    | none =>
      if cw c 3 ≠ 0 ∧ crc32 (bankImage s.cal.shadow 0 122880) ≠ cw c 3 then some (.calendarInvalid, 0)
      else if cw c 4 ≠ 0 ∧ cw c 4 < s.changedSlots.length then some (.calendarInvalid, 0)
      else if s.cal.bad.isEmpty then none else some (.calendarParity, s.cal.bad.length)
/-- The odd parity bits of an entry, bit i for octet i (R231). -/
def entryParity (v : Nat) : Nat :=
  ((List.range 6).map (fun i => if (List.range 8).foldl (fun b j => b != bit v (8 * i + j)) true then 2 ^ i else 0)).foldl (· + ·) 0
/-- A word read from a bank, entry in [47:0] and parity bits in [53:48], fails parity. -/
def parityBad (w : Nat) : Bool := entryParity (field w 0 48) != field w 48 6
/-- CAL_SWAP at its TN: the banks exchange, the frozen entries are released, the stores of the moved clients are flushed, and
CAL_SWAP_DONE tells the changed slots (R237 to R241, R243). `flush` empties the store queues of a client. -/
def applyCalSwapWith (flush : Nat → State → State) (c : Cmd) (s : State) : State :=
  let changed := s.changedSlots
  let moved := ((s.slotMap s.cal.active ++ s.slotMap s.cal.shadow).filterMap
    (fun x => if changed.contains x.1 then some x.2.1 else none)).dedup
  let g : Guard := { swapTn := s.tn, first := s.tn, last := s.tn + cw c 2, slots := changed }
  let s := s.modCal (fun k => { k with
    active := k.shadow, shadow := k.active, activeParity := k.shadowParity, shadowParity := k.activeParity, frozen := [], unread := [], told := [], bad := [], dead := [], since := s.ticks
    guards := k.guards.filter (fun x => decide (s.tn < x.last)) ++ (if cw c 2 = 0 then [] else [g]) })
  let s := moved.foldl (fun s p => flush p s) s
  s.raise .calSwapDone .device 0 (w2 s.tn ++ w1 changed.length)
/-- CAL_STATUS. -/
def specCalStatus : OpSpec :=
  { code := 0x203, len := lenIs 1, target := tgtDevice
    eff := .now (fun _ s => (s, w2 ((s.swapPending.map (·.due)).getD 0)
      ++ w1 (((List.range 48).map (fun e => grains (match (s.eng e).cap with
          | some c => max c.kOld c.kNew | none => max (s.eng e).kTx (s.eng e).kRx))).foldl (· + ·) 0)
      ++ w1 s.cal.bad.length ++ w1 s.cal.frozen.length)) }
/-- CAL_STATUS: returns pending swap, total, bad and frozen entries. -/
def execCalStatus (c : Cmd) (s : State) : Res := runOp specCalStatus c s
/-- First entry and count of words k and k + 1 within a bank. -/
def rngEntries (k : Nat) : List (Nat × (State → Cmd → Bool)) :=
  [rngU k 0 122879, (k + 1, fun _ c => decide (1 ≤ cw c (k + 1)) && decide (cw c k + cw c (k + 1) ≤ 122880))]
/-- SHADOW_SCRUB_PASS: every 64 ticks a pass of the shadow bank marks the entries that fail parity, and raises CAL_PARITY with the
value read and the action BAD (R231, R243). The words read are those not as they were written. -/
def execShadowScrubPass (read : List (Fin 122880 × Nat)) (s : State) : Res :=
  .next ((read.filter (fun f => parityBad f.2)).foldl (fun s f =>
    if s.cal.bad.contains f.1.val then s
    else (s.modCal (fun k => { k with bad := k.bad ++ [f.1.val] })).raise .calParity .device 0
      (w1 1 ++ w1 f.1 ++ w2 (field f.2 0 48) ++ w1 2)) s)
/-- Words read from the active bank in this tick that are not as they were written: those that fail parity (R231, R242). -/
def State.calParitySeen (read : List (Nat × Nat)) (s : State) : State :=
  let failing := (read.filter (fun f => parityBad f.2)).map (fun f => (f.1, field f.2 0 48))
  let fresh := s.cal.since == s.ticks
  let idx := failing.map (·.1)
  let s := s.modCal (fun k => { k with
    unread := if fresh then idx else k.unread.filter (fun i => idx.contains i), dead := [] })
  failing.foldl (fun s f =>
    let s := s.count .calParityErrs .device 0 1
    let k := s.cal
    let freezes := k.frozen.contains f.1 || (!k.unread.contains f.1 && decide (k.frozen.length < 64))
    let s := s.modCal (fun k => { k with
      frozen := if freezes && !k.frozen.contains f.1 then k.frozen ++ [f.1] else k.frozen
      dead := if freezes then k.dead else k.dead ++ [f.1] })
    if k.told.contains f.1 then s
    else (s.modCal (fun k => { k with told := k.told ++ [f.1] })).raise .calParity .device 0
      (w1 0 ++ w1 f.1 ++ w2 f.2 ++ w1 (b2n (!freezes)))) s

end Sys2Proof.Machine
end

