-- ==== Sys2Proof/Machine/Loading.lean ====
section
/-! DEFINITION. Soft-Decision Coding, Shaping and Entropy Loading: iteration cap (R101, R102), loading exchange (R112 to
R118), capacity and profile changes (R119 to R122).
What it chooses or infers where the manual is silent, with its marks: log entry 23. -/
namespace Sys2Proof.Machine

/-- Applies `f` to the loading state of an engine. -/
def State.modLoad (e : Nat) (f : Loading → Loading) (s : State) : State :=
  s.modEng e (fun g => { g with load := f g.load })
/-- A running class L command of an opcode on an engine. -/
def jobOn (op e : Nat) : Job → Bool := fun j => j.ticket.opcode == op && cIdx j.cmd == e

/-! ### Announcements (R113 to R115) -/

/-- Causes of LOAD_ABORTED, in the order R115 and R116 name them. -/
inductive AbortCause where
  | deadline | refused | muzzle | isolate | noCommit
  deriving DecidableEq, Repr
/-- Code of a LOAD_ABORTED cause. -/
def AbortCause.code : AbortCause → Nat
  | .deadline => 0 | .refused => 1 | .muzzle => 2 | .isolate => 3 | .noCommit => 4

/-- Announces a vector (R113): the first announcing frame is the one two ticks on. What that frame's assembly settles, LOAD_TN and the
deadline, is still open (R115). DESIGN CHOICE (log entry 23): an announcement already made that this one replaces is carried no more; the
frame between the two shows the vector in force, LOAD_PENDING clear and the LOAD_SEQ of the last switch (R78 does not say). -/
def State.announceAt (e k : Nat) (vec : List Nat) (why : AnnWhy) (given : Option Nat) (s : State) : State :=
  let l := (s.eng e).load
  let seq := (l.seq + 1) % 256
  (s.modLoad e (fun l => { l with
    seq := seq, ann := some
      { seq := seq, k := k, vec := vec, loadTn := 0, deadline := 0, firstTn := s.tn + 2, givenTn := given, made := false
        accepted := false, committed := false, why := why } })).raise .loadAnnounced .engine e []
/-- An announcement with the engine's own LOAD_LEAD. -/
def State.announce (e k : Nat) (vec : List Nat) (why : AnnWhy) (s : State) : State := s.announceAt e k vec why none
/-- The first announcing frame of a pending announcement is assembled as frame `tn` (R113, R115): LOAD_TN is LOAD_LEAD after it, or the one
that a Pack's capacity change gave, and ACCEPTED must come before the tick that assembles frame LOAD_TN − LOAD_GUARD. -/
def Loading.makeAnn (tn : Nat) (l : Loading) : Loading :=
  { l with
      ann := l.ann.map (fun a =>
      if a.made || decide (tn < a.firstTn) then a
      else
        let t := a.givenTn.getD (tn + l.lead)
        { a with made := true, firstTn := tn, loadTn := t, deadline := t - l.guard - 1 }) }
/-- An announcement belongs to a pending capacity change: it announces its K_new (R120). -/
def Engine.annOfChange (g : Engine) (a : Announce) : Bool :=
  a.why == .capacity || (a.why != .abort && g.cap.any (fun c => c.kNew == a.k && c.kOld != a.k))
/-- Aborts an engine's announcement (R115): a new LOAD_SEQ carries the same LOAD_TN with the vector and capacity in
force; LOAD_ABORTED, and LOAD_ANNOUNCED as for each announcement (R113); the command is answered CANCELLED, DETAIL 0x105. A capacity change stays pending (R120). -/
def State.abortAnn (e : Nat) (cause : AbortCause) (s : State) : State :=
  match (s.eng e).load.ann with
  | none => s
  | some a =>
    if a.why == .abort || a.committed then s
    else
      let g := s.eng e
      let seq := (g.load.seq + 1) % 256
      let s := s.modLoad e (fun l => { l with
        seq := seq, ann := some
          { a with seq := seq, k := g.kTx, vec := g.load.vecTx, accepted := false, committed := false, why := .abort } })
      let s := (s.raise .loadAborted .engine e (w1 cause.code)).raise .loadAnnounced .engine e []
      let s := s.finishJobs (jobOn 0x104 e) .cancelled Ev.loadAborted.code []
      if g.annOfChange a then s.finishJobs (jobOn 0x101 e) .cancelled Ev.loadAborted.code [] else s
/-- The capacity an engine's calendar slots are reserved for (R119): the larger while a change is pending. -/
def Engine.reserved (g : Engine) : Nat := match g.cap with | some c => max c.kOld c.kNew | none => max g.kTx g.kRx
/-- The calendar total of R50. -/
def State.calendarTotal (s : State) : Nat := ((List.range 48).map (fun e => grains (s.eng e).reserved)).foldl (· + ·) 0
/-- Completes a Pack's capacity change once every member has completed its own (R252). -/
def State.packCapacityCheck (e : Nat) (s : State) : State :=
  (List.range 24).foldl (fun s p =>
    let k := s.pack p
    match k.capPending with
    | some (kNew, left) =>
      if left.contains e then
        let left := left.filter (fun x => x != e)
        let s := s.modPack p (fun k => { k with capPending := if left.isEmpty then none else some (kNew, left) })
        if left.isEmpty then
          (s.raise .packCapacityDone .pack p (w1 kNew)).finishJobs (jobOn 0x212 p) .ok 0 []
        else s
      else s
    | none => s) s
/-- Completes a capacity change when both directions have switched (R120): the reservation drops, CAPACITY_DONE is
raised and the command answered. -/
def State.capacityCheck (e : Nat) (s : State) : State :=
  match (s.eng e).cap with
  | none => s
  | some c =>
    if c.txDone && c.rxDone then
      (((s.modEng e (fun g => { g with cap := none })).raise .capacityDone .engine e (w1 c.kNew)).finishJobs
        (jobOn 0x101 e) .ok 0 []).packCapacityCheck e
    else s
/-- The switch of the transmitter at frame LOAD_TN (R115, R120). -/
def State.loadTxSwitch (e : Nat) (a : Announce) (s : State) : State :=
  let s := s.modEng e (fun g => { g with
    kTx := a.k, load := { g.load with
    vecTx := a.vec, curSeq := a.seq, curTn := a.loadTn, ann := none } })
  let s := s.raise .loadTxSwitch .engine e []
  let s := s.finishJobs (jobOn 0x104 e) .ok 0 []
  if a.why == .capacity || (s.eng e).cap.any (fun c => c.kNew == a.k && c.kOld != a.k) then
    (s.modEng e (fun g => { g with cap := g.cap.map (fun c => { c with txDone := true }) })).capacityCheck e
  else s
/-- The switch of the receiver when it decodes carried TN LOAD_TN (R116, R120). -/
def State.loadRxSwitch (e : Nat) (a : ArmedVec) (s : State) : State :=
  let s := s.modEng e (fun g => { g with
    kRx := a.k, load := { g.load with
    vecRx := a.vec, armed := none, trial := 0 } })
  let s := s.raise .loadRxSwitch .engine e []
  if (s.eng e).cap.any (fun c => c.kNew == a.k) then
    (s.modEng e (fun g => { g with cap := g.cap.map (fun c => { c with rxDone := true }) })).capacityCheck e
  else s

/-- LOAD_ACK_DEADLINE: no ACCEPTED before the deadline aborts the announcement (R115). -/
def execLoadAckDeadline (e : Fin 48) (s : State) : Res :=
  match (s.eng e).load.ann with
  | some a => if a.made && a.why != .abort && !a.accepted && decide (a.deadline ≤ s.tn) then .next (s.abortAnn e .deadline)
    else .next s
  | none => .next s
/-- LOAD_TX_SWITCH: a committed announcement switches the transmitter at frame LOAD_TN (R115). -/
def execLoadTxSwitch (e : Fin 48) (s : State) : Res :=
  match (s.eng e).load.ann with
  | some a => if a.accepted && a.why != .abort && decide (a.loadTn ≤ s.tn) then .next (s.loadTxSwitch e a) else .next s
  | none => .next s

/-! ### The policy (R112) -/

/-- LOAD_POLICY_RUN: averages the last whole interval and announces the vector its steps lead to; brace stops it while its effects apply
(R480). DESIGN CHOICE (log entry 23): the
manual does not speak of an interval in which no frame was accepted; the policy then makes no announcement. -/
def execLoadPolicyRun (e : Fin 48) (s : State) : Res :=
  let g := s.eng e
  let l := g.load
  if l.mode = 2 ∧ s.tn % l.interval = 0 ∧ l.ann = none ∧ l.ranAt ≠ some s.tn ∧ s.recovery.headless = none
      ∧ s.power.braceEffect = false ∧ g.zr = false then
    let s := s.modLoad e (fun l => { l with ranAt := some s.tn })
    match l.whole with
    | some (sums, count, bad) =>
      if bad || count = 0 then .next s
      else
        let v := policySteps g.txLayout count l.hyst sums l.maxSteps l.vecTx
        if v = l.vecTx then .next s else .next (s.announce e g.kTx v .policy)
    | none => .next s
  else .next s

/-! ### Receiver evaluation (R114, R116, R117) -/

/-- The status Table 3.8 gives a confirmed far-end announcement. -/
def evalAnn (g : Engine) (carried : Nat) (a : SeenAnn) : Nat :=
  if a.loadTn < carried + 16 ∨ carried + (2 ^ 32 - 1) < a.loadTn then 2
  else if a.k ≠ g.kRx ∧ ¬ (g.cap.any (fun c => c.kNew == a.k)) then 3
  else if !vecValid a.k g.rxLayout a.vec then 4 else 1
/-- The candidate vectors of a trial (R117): in force, armed or last dropped, default, each once. -/
def candidates (g : Engine) : List (List Nat) :=
  ([g.load.vecRx] ++ (match g.load.armed with
    | some a => [a.vec] | none => match g.load.dropped with | some v => [v] | none => [])
    ++ [defaultVec g.kRx g.rxLayout]).eraseDups

/-! ### Commands of this chapter -/

/-- The values in effect of an engine's setter. -/
def readEng (f : Engine → List Word) : Option ReadBack :=
  some { selectors := 0, ok := fun _ _ => true, get := fun c s => f (s.eng (cIdx c)) }
/-- Refusal with MODE in the 400ZR profile. -/
def modeZr (s : State) (c : Cmd) : Option (Status × Nat) :=
  if (s.eng (cIdx c)).zr then some (.mode, 0) else none
/-- Refusal with ENGINE_IN_TRAFFIC. -/
def inTraffic (s : State) (c : Cmd) : Option (Status × Nat) :=
  if s.carries (cIdx c) then some (.engineInTraffic, 0) else none
/-- The first of several refusals. -/
def firstRefusal (l : List (Option (Status × Nat))) : Option (Status × Nat) := l.findSome? id

/-- ENGINE_ITER_CAP_SET (R101). -/
def specEngineIterCapSet : OpSpec :=
  { code := 0x102, len := lenIs 2, target := tgtEngine, fence := fenceEngine, ranges := [rngU 1 1 16]
    refuse := modeZr
    eff := .now (fun c s => (s.modEng (cIdx c) (fun g => { g with iterCap := cw c 1 }), []))
    read := readEng (fun g => w1 g.iterCap) }
/-- ENGINE_ITER_CAP_SET: sets ITER_CAP, from 1 to 16; the effective cap follows at the next tick boundary. -/
def execEngineIterCapSet (c : Cmd) (s : State) : Res := runOp specEngineIterCapSet c s

/-- ENGINE_LOAD_SET (Table 3.7). A new LOAD_INTERVAL waits for its next multiple (R112). -/
def specEngineLoadSet : OpSpec :=
  { code := 0x103, len := lenIs 7, target := tgtEngine, fence := fenceEngine
    ranges := [rngU 1 0 2, rngU 2 62500 6250000, rngU 3 625 625000, rngU 4 16 1024, rngU 5 1 30, rngU 6 1 64]
    refuse := modeZr
    eff := .now (fun c s => (s.modLoad (cIdx c) (fun l =>
      { l with mode := cw c 1, lead := cw c 3, guard := cw c 4, hyst := cw c 5, maxSteps := cw c 6,
               intervalNext := if cw c 2 = l.interval then l.intervalNext.filter (· == l.interval) else some (cw c 2) }), []))
    read := readEng (fun g => w1 g.load.mode ++ w1 g.load.interval ++ w1 g.load.lead ++ w1 g.load.guard
      ++ w1 g.load.hyst ++ w1 g.load.maxSteps) }
/-- ENGINE_LOAD_SET: sets the loading parameters. -/
def execEngineLoadSet (c : Cmd) (s : State) : Res := runOp specEngineLoadSet c s

/-- LOAD_VEC of words 2 and 3, SC0 in the top octet. -/
def cmdVec (c : Cmd) : List Nat :=
  (List.range 8).map (fun s => field (cw c (2 + s / 4)) (24 - 8 * (s % 4)) 8)
/-- ENGINE_LOAD_ANNOUNCE (R118). -/
def specEngineLoadAnnounce : OpSpec :=
  { code := 0x104, cls := .long, len := lenIs 4, target := tgtEngine, fence := fenceEngine
    ranges := [rngU 1 2 10]
    refuse := fun s c =>
      let g := s.eng (cIdx c)
      if g.zr || g.load.mode != 1 then some (.mode, 0)
      else if cw c 1 != g.kTx && !(g.cap.any (fun x => x.kNew == cw c 1)) then some (.parameterInvalid, 1)
      else if !vecValid (cw c 1) g.txLayout (cmdVec c) then some (.parameterInvalid, 2)
      else if g.load.ann.any (fun a => a.accepted && a.why != .abort) then some (.busy, 0)
      else none
    eff := .long (fun j c s =>
      let e := cIdx c
      let s := s.finishJobs (jobOn 0x104 e) .superseded c.tag.val []
      let s := if (s.eng e).load.ann.any (fun a => a.why == .capacity) then s.finishJobs (jobOn 0x101 e) .superseded c.tag.val [] else s
      let s := s.modEng e (fun g => { g with cap := g.cap.map (fun x => if x.kNew = cw c 1 then { x with userVec := some (cmdVec c) } else x) })
      (s.modProto (fun p => { p with jobs := p.jobs ++ [j] })).announce e (cw c 1) (cmdVec c) .manual) }
/-- ENGINE_LOAD_ANNOUNCE: announces a manual vector; FINAL OK at the switch, CANCELLED when it aborts. -/
def execEngineLoadAnnounce (c : Cmd) (s : State) : Res := runOp specEngineLoadAnnounce c s

/-- Empties the service-channel queues of an engine (R86). -/
def State.dropSvc (e : Nat) (s : State) : State :=
  s.modEng e (fun g => { g with tx := { g.tx with svcTx := [] }, rx := { g.rx with svcRx := [] } })
/-- ACQ_LAYOUTS as accepted: the list in force, or the one that waits for the next search pass (R153). -/
def Acquisition.listed (a : Acquisition) : List Nat := a.layoutsNext.getD a.layouts ++ a.layouts
/-- An announcement ends with no switch and no abort announcement, because what it announces is gone: its command is answered CANCELLED, and as
no event names that, with DETAIL 0xFFF (R397, R428). -/
def State.dropAnn (e : Nat) (s : State) : State :=
  (s.finishJobs (jobOn 0x104 e) .cancelled 0xFFF []).modLoad e (fun l => { l with ann := none, armed := none, dropped := none })
/-- A change of capacity made at a tick boundary without traffic (R121): both directions take it; without capacity the
engine is dark (Table 5.4, R86, R469), with one its receiver leaves DISABLED. -/
def State.setCapacity (e k : Nat) (s : State) : State :=
  let s := (s.dropAnn e).modEng e (fun g =>
    let tv := defaultVec k g.txLayout
    let rv := defaultVec k g.rxLayout
    { g with kTx := k, kRx := k, load := { g.load with
               toDefault := true, vecTx := tv, curTn := s.tn, vecRx := rv }
             tx := { g.tx with reason := { g.tx.reason with config := k == 0 } } })
  if k = 0 then (((s.dropSvc e).alignRelease e .disabled).withdrawCapture (tileOf e) (some e) .config)
  else if (s.eng e).acq.state == .disabled && !s.fenced e then
    s.modEng e (fun g => { g with acq := { g.acq with state := .noSignal, noSyncRaised := false }, losIn := false })
  else s
/-- First calendar entry of either bank that maps a client grain to a line slot of an engine at or above a slot number
(R119). -/
def State.slotAbove (s : State) (e slot : Nat) : Option Nat := s.firstOf (fun _ x k => x == e && decide (slot ≤ k))
/-- The vector a capacity change announces (R119): under AUTO what the policy's steps make of the default vector by the averages of the
last whole interval, else the default vector. DESIGN CHOICE (log entry 23): under MANUAL the vector you supply for the new capacity
comes by ENGINE_LOAD_ANNOUNCE, which replaces the announcement (R118); until then the default vector is announced, and from then on, when
the command is issued again, yours. -/
def capVector (g : Engine) (k : Nat) : List Nat :=
  let v := defaultVec k g.txLayout
  let mine := (g.cap.filter (fun c => c.kNew == k)).bind (·.userVec)
  if g.load.mode = 1 then mine.getD v else
  match g.load.whole with
  | some (sums, count, bad) =>
    if g.load.mode = 2 && !bad && decide (0 < count) then policySteps g.txLayout count g.load.hyst sums g.load.maxSteps v else v
  | none => v
/-- Refusals of ENGINE_CAPACITY_SET in the order of its row. -/
def capRefusal (s : State) (e k : Nat) : Option (Status × Nat) :=
  let g := s.eng e
  let want := match g.cap with | some c => max c.kOld k | none => if s.carries e then max g.kTx k else k
  let total := s.calendarTotal - grains g.reserved + grains want
  let busy := match g.cap with
    | some c => k != c.kNew && (c.txDone || c.rxDone || c.accepted)
    | none => false
  firstRefusal
    [ if 122880 < total then some (.calendarCapacity, total - 122880) else none
    , if k ≠ 0 ∧ (if g.zr then k ≠ 2 else
          !capFits k g.txLayout || !capFits k g.rxLayout || g.acq.listed.any (fun l => !capFits k l))
        then some (.capacityLayout, 0) else none
    , if k = 0 ∧ s.carries e then some (.engineInTraffic, 0) else none
    , (s.slotAbove e (grains k)).map (fun i => (.calendarInUse, i))
    , if (s.packOf e).isSome then some (.packMember, e) else none
    , if busy || g.load.ann.any (fun a => a.accepted && a.why != .abort) then some (.busy, 0) else none ]
/-- Starts a capacity change to `k` (R119 to R121): announced under traffic, with the LOAD_TN of a Pack's change where that gives one (R252), made at the next boundary without. A manual
announcement that it replaces is answered SUPERSEDED with the new command's TAG (R118). -/
def State.startCapacity (e k : Nat) (given : Option Nat) (tag : Nat) (s : State) : State :=
  let g := s.eng e
  let fresh : CapChange := { kOld := g.kTx, kNew := k, txDone := false, rxDone := false, accepted := false, userVec := none }
  let s := s.finishJobs (jobOn 0x104 e) .superseded tag []
  if s.carries e then
    let c : CapChange := match g.cap with
      | some c => if c.kNew = k then c else { fresh with kOld := c.kOld }
      | none => fresh
    let s := s.modEng e (fun g => { g with cap := some c })
    if c.txDone then s else s.announceAt e k (capVector g k) .capacity given
  else s.modEng e (fun g => { g with cap := some fresh, load := { g.load with ann := g.load.ann.filter (fun a => a.why == .abort) } })
/-- The boundary at which a capacity change without traffic takes effect: both directions at once, then CAPACITY_DONE. DESIGN CHOICE
(log entry 23): an engine that took the 400ZR profile in the meantime has its one capacity, K = 2 (R49). -/
def applyCapacity (c : Cmd) (s : State) : State :=
  let e := cIdx c
  let k := if (s.eng e).zr && cw c 1 != 0 then 2 else cw c 1
  let s := s.modEng e (fun g => { g with cap := g.cap.map (fun x => { x with kNew := k, txDone := true, rxDone := true }) })
  (s.setCapacity e k).capacityCheck e
/-- ENGINE_CAPACITY_SET (R119 to R121). -/
def specEngineCapacitySet : OpSpec :=
  { code := 0x101, cls := .long, len := lenIs 2, target := tgtEngine, fence := fenceEngine
    ranges := [rngP 1 (fun k => k == 0 || (decide (2 ≤ k) && decide (k ≤ 10)))]
    refuse := fun s c => capRefusal s (cIdx c) (cw c 1), leads := applyCapacity
    eff := .long (fun j c s =>
      let e := cIdx c
      let s := s.finishJobs (jobOn 0x101 e) .superseded c.tag.val []
      let s := s.modProto (fun p => { p with jobs := p.jobs ++ [j] })
      let quiet := !s.carries e
      let s := s.startCapacity e (cw c 1) none c.tag.val
      if quiet then s.arm { due := s.tn + 1, key := keyOf 0x101 c, opcode := 0x101, cmd := c, ticket := none } else s)
    read := readEng (fun g => w1 g.kTx ++ w1 (match g.cap with | some c => c.kNew | none => 0)) }
/-- ENGINE_CAPACITY_SET: starts or makes a capacity change; FINAL at CAPACITY_DONE. -/
def execEngineCapacitySet (c : Cmd) (s : State) : Res := runOp specEngineCapacitySet c s

/-- ENGINE_PROFILE_SET (R122): out of traffic; the layouts and profile change, the receiver restarts (Table 5.4), the
capture unit withdraws (R469), and the engine goes back to its default vector (R111). -/
def specEngineProfileSet : OpSpec :=
  { code := 0x100, len := lenIs 3, target := tgtEngine, fence := fenceEngine
    ranges := [rngU 1 0 1, rngP 2 (fun w => decide (w < 256) && layoutOk (field w 4 4) && layoutOk (field w 0 4))]
    refuse := fun s c =>
      let e := cIdx c
      let g := s.eng e
      let zr := cw c 1 == 1
      firstRefusal
        [ inTraffic s c
        , if !zr && g.kTx != 0 && (!capFits g.kTx (field (cw c 2) 0 4) || !capFits g.kTx (field (cw c 2) 4 4))
            then some (.capacityLayout, 0) else none
        , if zr then (((s.slotAbove e 630).orElse (fun _ => s.zrConflict e)).orElse (fun _ => if (s.packOf e).isSome then s.slotAbove e 0 else none)).map
              (fun i => (.calendarInUse, i)) else none ]
    eff := .now (fun c s =>
      let e := cIdx c
      let zr := cw c 1 == 1
      let rxl := field (cw c 2) 4 4
      let g0 := s.eng e
      let s := (s.dropAnn e).modEng e (fun g =>
        let k := if zr && g.kTx != 0 then 2 else g.kTx
        { g with zr := zr, txLayout := field (cw c 2) 0 4, rxLayout := rxl, kTx := k, kRx := k,
                 acq := { g.acq with layouts := if g.acq.layoutsSet then g.acq.layouts else [rxl] }
                 load := { g.load with
                           vecTx := defaultVec k (field (cw c 2) 0 4), vecRx := defaultVec k rxl, toDefault := true, curTn := s.tn + 1 } })
      let changed := g0.zr != zr || g0.rxLayout != rxl
      let s := if changed then s.acqRestart e else s
      (if g0.zr != zr then s.withdrawCapture (tileOf e) (some e) .config else s, []))
    read := readEng (fun g => w1 (b2n g.zr) ++ w1 (g.rxLayout * 16 + g.txLayout)) }
/-- ENGINE_PROFILE_SET: sets an engine's profile and layouts out of traffic. -/
def execEngineProfileSet (c : Cmd) (s : State) : Res := runOp specEngineProfileSet c s

/-! ### Iteration cap (R101, R102) -/

/-- The thermal cap at a tile temperature in 0.25 °C, given the cap in force (Table 3.3): rising thresholds 135, 140 and
145 °C, falling ones 2 °C below. -/
def thermalCap (now : Nat) (t : Int) : Nat :=
  let rise := if 580 < t then 8 else if 560 < t then 10 else if 540 < t then 12 else 16
  let fall := if 572 < t then 8 else if 552 < t then 10 else if 532 < t then 12 else 16
  if rise < now then rise else if now < fall then fall else now
/-- Brings an engine's effective cap to the least of its three bounds; a change raises ITER_CAP_CHANGE with the old cap,
the new cap and the cause: 0 ITER_CAP, 1 thermal, 2 brace. DESIGN CHOICE (log entry 23): the manual does not say which cause is told
when several terms change at one boundary; it is brace, else thermal, else ITER_CAP, by which term changed. In the 400ZR profile none of
them has effect (Table 3.10). -/
def State.iterCapStep (e : Nat) (s : State) : State :=
  let g := s.eng e
  let th := thermalCap g.thermalCap (s.tileTemp e)
  let br := if s.power.braceEffect then 8 else 16
  let new := min g.iterCap (min th br)
  let s := if th = g.thermalCap ∧ br = g.lastBrace then s
    else s.modEng e (fun g => { g with thermalCap := th, lastBrace := br })
  if new = g.effCap ∨ g.zr = true then s
  else
    let cause := if br != g.lastBrace then 2 else if th != g.thermalCap then 1 else 0
    (s.modEng e (fun g => { g with effCap := new })).raise .iterCapChange .engine e
      (w1 g.effCap ++ w1 new ++ w1 cause)

end Sys2Proof.Machine
end

