-- ==== Sys2Proof/Machine/Decoder.lean ====
section
/-! DEFINITION. From received symbols to a frame body: the joint demapper (R108), the inner and outer decoding of each frame (R99, R100)
and descrambling (R68).
What it chooses or infers where the manual is silent, with its marks: log entry 22. -/
namespace Sys2Proof.Machine

/-! ### The demapper (R108) -/

/-- The least distances at which a bit is 0 and at which it is 1; none where no sequence has it so. -/
abbrev BitCost := Option Nat × Option Nat
/-- The lesser of two distances, of which either may be absent. -/
def leastOf : Option Nat → Option Nat → Option Nat
  | some a, some b => some (min a b)
  | some a, none => some a
  | none, b => b
/-- The lesser costs of two lists of bits. -/
def mergeCosts (a b : List BitCost) : List BitCost := List.zipWith (fun x y => (leastOf x.1 y.1, leastOf x.2 y.2)) a b
/-- Squared distance of a received coordinate from a level, both in 1/64 of a level. -/
def dist2 (y a : Int) : Nat := ((y - a) * (y - a)).natAbs
/-- The log-likelihood ratio of a bit, positive where 0 is the likelier: the difference of the least squared distances. -/
def BitCost.llr : BitCost → Int
  | (some a, some b) => b - a
  | (some _, none) => 2 ^ 40
  | (none, some _) => -2 ^ 40
  | (none, none) => 0
/-- The costs of one sign bit: of a coordinate at +a and at −a, where the rest of the block adds `rest`; none at −a where the bit is a
fill bit. -/
def signCost (y a : Int) (rest : Nat) (fill : Bool) : BitCost :=
  (some (rest + dist2 y a), if fill then none else some (rest + dist2 y (-a)))
/-- Costs of a block under 62 bits (R105): its symbols are independent. `fills` says which of its bits are fill bits. -/
def smallBlockCosts (n : Nat) (fills : List Bool) (y : List (Int × Int)) : List BitCost :=
  ((List.range 31).map (fun j =>
    let p := y.getD j (0, 0)
    if j < n - 31 then [signCost p.1 64 0 (fills.getD (2 * j) false), signCost p.2 64 0 (fills.getD (2 * j + 1) false)]
    else [signCost p.1 91 0 (fills.getD (n - 31 + j) false)])).flatten
/-- Costs of a block of k amplitude bits that hold `x`: the least distances over the signs, and for each sign bit those with that
sign. -/
def seqCosts (lv : List Nat) (k x : Nat) (fills : List Bool) (y : List Int) : List BitCost :=
  let amp := shapeSeq lv 62 (shapeEnergy lv k) x
  let costs := (List.range 62).map (fun d => signCost (y.getD d 0) (64 * (amp.getD d 1 : Nat)) 0 (fills.getD (k + d) false))
  let best := costs.map (fun c => (leastOf c.1 c.2).getD 0)
  let total := best.foldl (· + ·) 0
  (List.range k).map (fun i => if bit x (k - 1 - i) then (none, some total) else (some total, none))
    ++ List.zipWith (fun (c : BitCost) b => (c.1.map (· + (total - b)), c.2.map (· + (total - b)))) costs best
/-- Whether the amplitude bits `x` of a block leave its fill bits at 0. -/
def fillsZero (k x : Nat) (fills : List Bool) : Bool := (List.range k).all (fun i => !(fills.getD i false && bit x (k - 1 - i)))
/-- Log-likelihood ratios of a block of n bits with loading value l (R108), jointly over its 31 symbols, with the transmitter's levels,
E_max and order, and its fill bits known zeros. DESIGN CHOICE (log entry 22): of the sum over sequences the largest term is taken. -/
def blockLlrs (l n : Nat) (fills : List Bool) (y : List (Int × Int)) : List Int :=
  if n < 62 then (smallBlockCosts n fills y).map BitCost.llr
  else
    let k := n - 62
    let ys := (y.map (fun p => [p.1, p.2])).flatten
    (((List.range (2 ^ k)).filter (fun x => fillsZero k x fills)).foldl
      (fun acc x => mergeCosts acc (seqCosts (levels l) k x fills ys)) (List.replicate n (none, none))).map BitCost.llr
/-- The received symbols of a frame: those sent, in 1/64 of a level, with the noise of its list. -/
def RxSignal.received (f : RxSignal) (sent : List (Nat × List Sym)) : List (Nat × List (Int × Int)) :=
  sent.map (fun x => (x.1, x.2.zipIdx.map (fun y =>
    let u : Int := if y.1.root then 91 else 64
    let z := f.noise.filter (fun z => z.stream == x.1 && z.symbol == y.2)
    (z.foldl (fun (a : Int) z => a + z.i) (u * y.1.i), z.foldl (fun (a : Int) z => a + z.q) (u * y.1.q)))))
/-- Log-likelihood ratios of the coded bits of a frame, in transmission order (R107, R108). -/
def frameLlrs (layout total : Nat) (vec : List Nat) (rx : List (Nat × List (Int × Int))) : List Int :=
  let slots := ((List.range (pilotBlocks layout)).map (fun b => rx.map (fun x => (b, x.1, x.2)))).flatten
  ((slots.foldl (fun (acc : List (List Int) × Nat) t =>
    let l := vec.getD (t.2.1 / 2) 0
    let n := blockBits l t.1
    let fills := (List.range n).map (fun i => decide (total ≤ acc.2 + i))
    (acc.1 ++ [blockLlrs l n fills ((t.2.2.drop (64 + 32 * t.1 + 1)).take 31)], acc.2 + n)) ([], 0)).1).flatten.take total

/-! ### Inner decoding (R98, R99) -/

/-- The codeword bits that check 256 r + m includes. -/
def checkBits (r m : Nat) : List Nat :=
  ((List.range 64).filter (fun c => (baseRows c).contains r)).map (fun c => 256 * c + (m + baseShift r c) % 256)
    ++ (if r = 0 then [] else [256 * (63 + r) + m]) ++ [256 * (64 + r) + m]
/-- A log-likelihood ratio decides 1 where it is negative. -/
def decide1 (x : Int) : Bool := decide (x < 0)
/-- The inner syndrome of decisions is zero. -/
def syndromeZero (l : Array Int) : Bool :=
  (List.range 2048).all (fun i => !((checkBits (i / 256) (i % 256)).foldl (fun x j => x != decide1 (l.getD j 0)) false))
/-- The answer of one check to each of its bits: the product of the other signs with the least of the other magnitudes. -/
def checkAnswer (q : List Int) : List Int :=
  (List.range q.length).map (fun i =>
    let o := q.eraseIdx i
    let m := o.foldl (fun (a : Option Nat) x => leastOf a (some x.natAbs)) none
    (if o.foldl (fun x y => x != decide1 y) false then -1 else 1) * ((m.getD 0 : Nat) : Int))
/-- One check of the layered schedule: its last answers leave the ratios of its bits, and its new answers join them. -/
def checkStep (i : Nat) (st : Array Int × Array (List Int)) : Array Int × Array (List Int) :=
  let js := checkBits (i / 256) (i % 256)
  let old := st.2.getD i []
  let q := (List.range js.length).map (fun k => st.1.getD (js.getD k 0) 0 - old.getD k 0)
  let new := checkAnswer q
  ((List.range js.length).foldl (fun (l : Array Int) k => l.setIfInBounds (js.getD k 0) (q.getD k 0 + new.getD k 0)) st.1,
    st.2.setIfInBounds i new)
/-- At most `n` iterations over the eight layers of checks; a codeword stops early when its syndrome is zero (R99). DESIGN CHOICE (log
entry 22): the layers are the base rows in ascending order, and a check answers by the min-sum rule. -/
def innerIterate : Nat → Array Int × Array (List Int) → Array Int
  | 0, st => st.1
  | n + 1, st => if syndromeZero st.1 then st.1 else innerIterate n ((List.range 2048).foldl (fun st i => checkStep i st) st)
/-- The decisions on a codeword after inner decoding with an effective cap. -/
def innerDecode (cap : Nat) (llr : List Int) : List Bool :=
  (innerIterate cap (llr.toArray, Array.replicate 2048 [])).toList.map decide1

/-! ### Outer decoding (R97, R99, R100) -/

/-- The component word of row r of a block, after the block before it. -/
def componentWord (prev block : Array Bool) (r : Nat) : List Bool :=
  priorBits prev r ++ rowBits block r ++ (List.range 8).map (fun c => block.getD (128 * (120 + c) + r) false)
/-- The remainder of a component word; 0 for a codeword. -/
def wordRem (w : List Bool) : Nat :=
  w.foldl (fun r b => let x := (2 * r + b2n b) % 512; if bit x 8 then x ^^^ 0x11D else x) 0
/-- The bit whose error gives the remainder of a component word. -/
def errorAt (w : List Bool) : Option Nat :=
  if wordRem w = 0 then none
  else (List.range 255).find? (fun i => wordRem ((List.range 255).map (fun j => j == i)) == wordRem w)
/-- Row r of block u: at most one bit is corrected, in the block or in the one before it; the zeros before unit 0 stay. -/
def rowStep (u r : Nat) (bs : Array (Array Bool)) : Array (Array Bool) :=
  let prev := if u = 0 then Array.replicate 16384 false else bs.getD (u - 1) #[]
  let cur := bs.getD u #[]
  match errorAt (componentWord prev cur r) with
  | none => bs
  | some i =>
    if i < 127 then
      if u = 0 then bs else bs.setIfInBounds (u - 1) (prev.modify (128 * r + i + 1) Bool.not)
    else bs.setIfInBounds u (cur.modify (128 * (i - 127) + r) Bool.not)
/-- One sweep over all units. -/
def outerSweep (bs : Array (Array Bool)) : Array (Array Bool) :=
  (List.range bs.size).foldl (fun bs u => (List.range 128).foldl (fun bs r => rowStep u r bs) bs) bs
/-- At most `n` sweeps; it stops after one that changes no bit. -/
def outerDecode : Nat → Array (Array Bool) → Array (Array Bool)
  | 0, bs => bs
  | n + 1, bs => let b := outerSweep bs; if b == bs then b else outerDecode n b
/-- Final decisions on a frame's codewords (R99): inner decoding of each, then up to 4 outer sweeps. -/
def decodeFrame (cap : Nat) (llrs : List Int) : List (List Bool) :=
  let inner := (List.range (llrs.length / 18432)).map (fun u => innerDecode cap ((llrs.drop (18432 * u)).take 18432))
  let outer := outerDecode 4 (inner.map (fun w => (w.take 16384).toArray)).toArray
  List.zipWith (fun (b : Array Bool) w => b.toList ++ w.drop 16384) outer.toList inner
/-- Codewords left uncorrected (R100). -/
def badWords (cws : List (List Bool)) : Nat :=
  (cws.zipIdx.filter (fun x =>
    !codewordGood (if x.2 = 0 then Array.replicate 16384 false else ((cws.getD (x.2 - 1) []).take 16384).toArray) x.1)).length

/-! ### A received frame -/

/-- A decoded far-end frame: codewords left uncorrected, final decisions that differ from the demapper's hard decisions (R100), their
share in 2⁻³², and the descrambled body by its regions. -/
structure RxFrame where
  badWords : Nat
  errBits : Nat
  preFecBer : Nat
  header : List Octet
  overhead : List Octet
  jc : List Nat
  slots : List (List Octet)
  tag : List Octet
  deriving DecidableEq, Repr
/-- The raw body that the far end scrambled: its regions and the pad to whole units (R69, R70). -/
def RxSignal.body (f : RxSignal) : List Octet :=
  let raw := f.header ++ f.overhead ++ f.jc.map (BitVec.ofNat 8) ++ f.slots.flatten ++ f.tag
  raw ++ List.replicate (1920 * ((raw.length + 1919) / 1920) - raw.length) 0
/-- A frame as it was sent, with no error. -/
def RxSignal.clean (f : RxSignal) : RxFrame :=
  { badWords := 0, errBits := 0, preFecBer := 0, header := f.header, overhead := f.overhead, jc := f.jc, slots := f.slots, tag := f.tag }
/-- The regions of a descrambled body of capacity k (Table 2.3). -/
def regionsOf (k : Nat) (body : List Octet) : RxFrame :=
  let n := grains k
  { badWords := 0, errBits := 0, preFecBer := 0, header := body.take 16, overhead := (body.drop 16).take 480
    jc := ((body.drop 496).take n).map BitVec.toNat
    slots := (List.range n).map (fun i => (body.drop (496 + n + 128 * i)).take 128), tag := (body.drop (496 + 129 * n)).take 16 }
/-- The receive path of a frame: demapping with a vector, decoding with an effective cap, and descrambling (R68, R99, R100, R108). -/
def decodeSymbols (layout k cap : Nat) (vec : List Nat) (rx : List (Nat × List (Int × Int))) : RxFrame :=
  let llrs := frameLlrs layout (codedBits k) vec rx
  let cws := decodeFrame cap llrs
  let errs := ((List.zipWith (fun (b : Bool) x => b != decide1 x) cws.flatten llrs).filter id).length
  let body := scramble (octetsOfBits (1920 * unitsOf k) (cws.map (fun w => w.take 15360)).flatten)
  { regionsOf k body with badWords := badWords cws, errBits := errs, preFecBer := errs * 2 ^ 32 / codedBits k }
/-- The loading vector a receiver demaps with: that in force, or the candidate on trial (R116, R117). -/
def Engine.rxVec (g : Engine) : List Nat := if g.load.trial = 0 then g.load.vecRx else (candidates g).getD g.load.trial g.load.vecRx
/-- The capacity whose loading total a vector has on a layout. -/
def vecCapacity (layout : Nat) (v : List Nat) : Option Nat :=
  [2, 3, 4, 5, 6, 7, 8, 9, 10].find? (fun k => loadTotal k layout == v.foldl (· + ·) 0)
/-- The capacity of the receive configuration in use: that of the candidate vector under trial (R117). -/
def Engine.rxCap (g : Engine) : Nat := if g.load.trial = 0 then g.kRx else (vecCapacity g.rxLayout g.rxVec).getD g.kRx
/-- What a receiver makes of a frame's symbols (R99, R108). Without noise, demapped as it was mapped, every decision is the bit
sent: no decoding changes a bit, and the body is the one sent. -/
def Engine.decodeFrame (g : Engine) (f : RxSignal) : RxFrame :=
  if f.noise = [] ∧ f.vec = g.rxVec ∧ f.jc.length = grains g.rxCap then RxSignal.clean f
  else decodeSymbols g.rxLayout g.rxCap g.effCap g.rxVec
    (RxSignal.received f (symbolFrame g.rxLayout f.vec (codedFrame (scramble (RxSignal.body f)))))

end Sys2Proof.Machine
end

