-- ==== Sys2Proof/Machine/Fabric.lean ====
section
/-! DEFINITION. Grain Fabric, Calendar and Packs, the datapath: client mapping (R244 to R246), the hub passes (R229, R233), the
receive elastic stores (R247 to R250), Packs and deskew (R251 to R257), parity (R258 to R260), and the calendar and Pack
commands.
What it chooses or infers where the manual is silent, with its marks: log entry 27. -/
namespace Sys2Proof.Machine

/-! ### Blocks and grains (R244) -/

/-- Octets at a place of a frame, as a number. -/
def octetsAt (l : List Octet) (k len : Nat) : Nat := ofOctets ((l.drop k).take len)
/-- The class the tap recognises a frame in (Table 9.9), none for any other: whether it is ESMC. -/
def Port.tapClass (p : Port) (f : List Octet) : Option Bool :=
  let dest := octetsAt f 0 6
  if octetsAt f 12 2 = 0x88F7 ∧ ((dest = 0x0180C200000E ∧ p.ptp.cfg.profile = 1) ∨ (dest = 0x011B19000000 ∧ p.ptp.cfg.profile = 2)) then some false
  else if dest = 0x0180C2000002 ∧ octetsAt f 12 2 = 0x8809 ∧ octetsAt f 14 1 = 0x0A ∧ octetsAt f 15 3 = 0x0019A7 then some true
  else none

/-- The largest n_t of a client type (Table 8.3). -/
def largestBlocks (ty : Nat) : Nat := [629, 1255, 2510, 5020, 10040].getD ty 0
/-- n_t: nominal, one less or one more, whichever brings the fill closest to the target (R246). -/
def chooseN (nominal fill target : Nat) : Nat :=
  let dist : Nat → Nat := fun n => ((fill : Int) - n - target).natAbs
  [nominal - 1, nominal + 1].foldl (fun b n => if dist n < dist b then n else b) nominal
/-- An idle grain: JC 0xFC and zeros (R233). -/
def idleGrain : Grain := { jc := 0xFC, octets := List.replicate 128 0 }
/-- A grain with a special JC and zeros: 0xFD poisoned (R259), 0xFE client signal fail (R266). -/
def markGrain (jc : Nat) : Grain := { jc := jc, octets := List.replicate 128 0 }
/-- The octets of n blocks, first bit first, with zero bits to the next octet boundary. -/
def blockOctets (bs : List (BitVec 257)) : List Octet :=
  let n := bs.foldl (fun a b => a * 2 ^ 257 + b.toNat) 0
  let o := (257 * bs.length + 7) / 8
  octetsBE o (n * 2 ^ (8 * o - 257 * bs.length))
/-- The count c_g of client grain g. -/
def grainCount (total g i : Nat) : Nat := total / g + (if i < total % g then 1 else 0)
/-- Fills the grains of a client in ascending order. -/
def fillGrains (g : Nat) (os : List Octet) : List Grain :=
  ((List.range g).foldl (fun (a : List Grain × List Octet) i =>
    let c := grainCount os.length g i
    (a.1 ++ [{ jc := c, octets := a.2.take c ++ List.replicate (128 - c) 0 }], a.2.drop c)) ([], os)).1
/-- What a client's grains of one tick recover. -/
inductive RxTick where
  | blocks (l : List (BitVec 257)) | poisoned | signalFail | jcError
  deriving DecidableEq, Repr
/-- The tick is clean. -/
def RxTick.isBlocks : RxTick → Bool
  | .blocks _ => true
  | _ => false
/-- The blocks of octets that carry n of them. -/
def octetBlocks (os : List Octet) (n : Nat) : List (BitVec 257) :=
  let v := ofOctets os >>> (8 * os.length - 257 * n)
  (List.range n).map (fun i => BitVec.ofNat 257 (v >>> (257 * (n - 1 - i))))
/-- The receiver's reading of a client's grains, in ascending order (R244). -/
def recoverTick (gs : List Grain) : RxTick :=
  let total := (gs.map (·.jc)).foldl (· + ·) 0
  if gs.any (fun g => g.jc == 0xFE) then .signalFail
  else if gs.any (fun g => g.jc == 0xFD) then .poisoned
  else if gs.any (fun g => decide (128 < g.jc)) then .jcError
  else if (List.range gs.length).all (fun i => (gs.map (·.jc)).getD i 0 == grainCount total gs.length i) then
    .blocks (octetBlocks ((gs.map (fun g => g.octets.take g.jc)).flatten) (8 * total / 257))
  else .jcError

/-- JC errors of a client's tick (R89, R244): each count that is invalid on a mapped slot; where none is, and no grain is marked, each
that departs from the rule of the counts. -/
def jcErrors (gs : List Grain) : Nat :=
  let bad := (gs.filter (fun g => decide (128 < g.jc) && g.jc != 0xFD && g.jc != 0xFE)).length
  let total := (gs.map (·.jc)).foldl (· + ·) 0
  if gs.any (fun g => decide (128 < g.jc)) then bad
  else ((List.range gs.length).filter (fun i => (gs.map (·.jc)).getD i 0 != grainCount total gs.length i)).length

/-- Whether the MASTER selector counts a JC: JC 0x00 to 0x80, or with POISONED_ONLY a poisoned or invalid one (R463). -/
def masterTakes (poisonedOnly : Bool) (jc : Nat) : Bool :=
  if poisonedOnly then decide (0x80 < jc) && jc != 0xFC && jc != 0xFE else decide (jc ≤ 0x80)
/-- Grain-payloads moved for a resource in a direction, against the MASTER selectors of R463. -/
def State.countGrains (rx : Bool) (k : Kind) (idx : Nat) (gs : List Grain) (s : State) : State :=
  s.ctr.filters.foldl (fun s f =>
    let x := f.2
    if x.kind == 2 && x.lo == targetNat k idx 0 && bit x.hi 0 == rx then
      s.happen (23552 + f.1) (gs.filter (fun g => masterTakes (bit x.hi 1) g.jc)).length
    else s) s

/-- A grain-payload moved under an entry in a direction, against the GRAIN_RANGE selectors (R463). -/
def State.countEntry (rx : Bool) (i : Nat) (s : State) : State :=
  s.ctr.filters.foldl (fun s f =>
    let x := f.2
    if x.kind == 3 && bit x.hi 31 == rx && decide (x.lo ≤ i) && decide (i ≤ field x.hi 0 17) then s.happen (23552 + f.1) 1 else s) s

/-! ### Mapping and the transmit pass -/

/-- Applies `f` to the datapath of a port. -/
def State.modData (n : Nat) (f : PortData → PortData) (s : State) : State := s.modPort n (fun p => { p with data := f p.data })
/-- The fewest blocks a tick can take of a client at its slowest: 100 ppm below nominal in a tick 54.6 ppm short (R35, R48). -/
def fewestBlocks (nominal : Nat) : Nat := nominal - max 1 ((nominal * 1546 + 9999999) / 10000000)
/-- n_t with the room a store has: what would overflow it leaves too (R48, R246). DESIGN CHOICE (log entry 27): where R246's one less than
nominal would still empty the store, no more is taken than it holds, down to what a client at R48's limit brings. -/
def takeN (nominal fill target depth : Nat) : Nat :=
  let k := max (chooseN nominal fill target) (fill - depth)
  if fill < k then max fill (fewestBlocks nominal) else k
/-- The mapper of a port in one tick (R244, R246, R382): the blocks that arrived enter its store; `dead` poisons grains whose
parity failed at HT_MAP. It fails when its store cannot supply n_t blocks, or when more than the largest n_t would have to leave. -/
def State.mapClient (n : Nat) (arrived : List (BitVec 257)) (dead : List Nat) (s : State) : State :=
  match s.port? n with
  | none => s
  | some p =>
    let g := clientGrains p.ty
    let nominal := clientBlocks p.ty
    let store := p.data.mapper ++ arrived
    let k := takeN nominal store.length nominal (Config.mapperDepth p.ty)
    let fault := p.state == .up
      && (decide (store.length < k) || decide (largestBlocks p.ty < k))
    let down := p.present.any (fun d => d == .cDown || d == .cLos || d == .cLoa) || p.state != .up
    let poison := fault || p.present.contains .cMap
    let grains :=
      if down then List.replicate g (markGrain 0xFE)
      else if poison then List.replicate g (markGrain 0xFD)
      else (List.zipIdx (fillGrains g (blockOctets (store.take k)))).map
        (fun x => if dead.contains x.2 then markGrain 0xFD else x.1)
    let rest :=
      if down then [] else if poison then
        (store.drop (store.length - nominal)) ++ List.replicate (nominal - store.length) Config.idleBlock
      else store.drop k
    s.modData n (fun d => { d with mapper := rest, grains := grains, mapFault := fault })
/-- The bank that governs grains labelled TN + `ahead` (R25, R237). -/
def State.bankAt (s : State) (ahead : Nat) : List (Nat × Nat) :=
  match s.swapPending with
  | some a => if a.due ≤ s.tn + ahead then s.cal.shadow else s.cal.active.filter (fun x => !s.cal.dead.contains x.1)
  | none => s.cal.active.filter (fun x => !s.cal.dead.contains x.1)
/-- The bank the transmit pass of this tick uses: for grains labelled TN + 2 (R237). -/
def State.txBank (s : State) : List (Nat × Nat) := s.bankAt 2
/-- The transmit pass of the hub for one engine: each line slot takes the client grain mapped to it, or idle fill (R229,
R233); `dead` names the slots whose parity failed at HUB_TX. -/
def State.hubTx (e : Nat) (dead : List Nat) (s : State) : State :=
  let places := (s.slotMap s.txBank).filter (fun x => x.1.1 == e)
  let slot : Nat → Grain := fun k =>
    if dead.contains k then markGrain 0xFD
    else match places.find? (fun x => x.1.2 == k) with
      | none => idleGrain
      | some x => match s.port? x.2.1 with
        | some p => p.data.grains.getD x.2.2 (markGrain 0xFE)
        | none => markGrain 0xFE
  s.modEng e (fun g => { g with hubSlots := (List.range (grains (g.txAt (s.tn + 2)).1)).map slot })

/-! ### Receive stores -/

/-- The store of an engine, or of the Pack it is a member of. -/
def State.storeOf (s : State) (k : Kind) (i : Nat) : Store := if k = .pack then (s.pack i).store else (s.eng i).store
/-- Applies `f` to a store. -/
def State.modStore (k : Kind) (i : Nat) (f : Store → Store) (s : State) : State :=
  if k = .pack then s.modPack i (fun p => { p with store := f p.store }) else s.modEng i (fun g => { g with store := f g.store })
/-- An empty queue for a client, refilling (R249). -/
def freshQueue (port : Nat) : StoreQueue := { port := port, blocks := [], prevN := 0, filling := true, jcErrs := [], jcGone := 0 }
/-- JC errors that a queue still holds. -/
def StoreQueue.jcHeld (q : StoreQueue) : Nat := (q.jcErrs.map (·.2)).foldl (· + ·) q.jcGone
/-- A queue without its blocks, refilling (R248, R249). -/
def StoreQueue.flush (q : StoreQueue) : StoreQueue := { q with blocks := [], filling := true, jcErrs := [], jcGone := q.jcHeld }
/-- The first `n` blocks of a queue leave it, and with them the JC errors of the ticks that begin among them. -/
def StoreQueue.leave (n : Nat) (q : StoreQueue) : StoreQueue :=
  { q with blocks := q.blocks.drop n, filling := false
           jcErrs := (q.jcErrs.filter (fun x => decide (n ≤ x.1))).map (fun x => (x.1 - n, x.2))
           jcGone := ((q.jcErrs.filter (fun x => decide (x.1 < n))).map (·.2)).foldl (· + ·) q.jcGone }
/-- Flushes the store queues of a client, wherever they stand: each refills under R249. -/
def State.flushClient (port : Nat) (s : State) : State :=
  let f : Store → Store := fun st => { st with
    queues := st.queues.map (fun q =>
    if q.port == port then q.flush else q) }
  { s with engines := s.engines.map (fun g => { g with store := f g.store })
           packs := s.packs.map (fun p => { p with store := f p.store }) }
/-- The clients of an engine or Pack in the receive use of the active bank, and the grains of each by slot (R247). -/
def State.clientsOf (s : State) (k : Kind) (i : Nat) : List (Nat × List (Nat × Nat)) :=
  let mine := (s.cal.active.filter (fun x => !s.cal.dead.contains x.1)).filterMap (fun x =>
    let d := calDecode x.2
    if d.engine == i && d.ty == (if k = .pack then 2 else 1) then some (d.port, d.grain, d.slot) else none)
  ((mine.map (·.1)).dedup).map (fun p =>
    (p, (mine.filter (fun x => x.1 == p)).map (fun x => x.2)))
/-- The blocks a client's tick adds to its queue, with the JC errors it showed; a tick that is not clean adds the client's previous n_t in
error blocks. -/
def StoreQueue.add (q : StoreQueue) (t : RxTick) (jc : Nat) : StoreQueue :=
  let q := if jc = 0 then q else if t.isBlocks || q.prevN != 0 then { q with jcErrs := q.jcErrs ++ [(q.blocks.length, jc)] }
    else { q with jcGone := q.jcGone + jc }
  match t with
  | .blocks l => { q with blocks := q.blocks ++ l.map some, prevN := l.length }
  | _ => { q with blocks := q.blocks ++ List.replicate q.prevN none }
/-- One frame's slots enter a store (R247), none for a discarded frame; an accepted frame's carried TN is remembered for the
label offset (R250). -/
def State.storeFrame (k : Kind) (i : Nat) (slots : Option (List Grain)) (carried : Nat) (s : State) : State :=
  let s := (s.clientsOf k i).foldl (fun s c =>
    let g := match s.port? c.1 with | some p => clientGrains p.ty | none => 0
    let gs := slots.map (fun l => (List.range g).map (fun n =>
      match c.2.find? (fun x => x.1 == n) with | some x => l.getD x.2 idleGrain | none => idleGrain))
    let t : RxTick := match gs with | none => .poisoned | some l => recoverTick l
    let s := if t = .signalFail then s.modData c.1 (fun d => { d with csfSeen := true }) else s
    s.modStore k i (fun st =>
      let st := if st.queues.any (fun q => q.port == c.1) then st else { st with queues := st.queues ++ [freshQueue c.1] }
      { st with queues := st.queues.map (fun q => if q.port == c.1 then q.add t (gs.elim 0 jcErrors) else q) })) s
  if slots.isSome then
    s.modStore k i (fun st => { st with
      marks := (st.marks ++ [(carried, (st.queues.head?.map (fun q =>
      q.blocks.length - q.prevN)).getD 0)]).drop (st.marks.length - 63) })
  else s
/-- What one queue puts out in a tick (R246, R248, R249): the blocks, the queue, and a slip: 0 underflow, 1 overflow. -/
def StoreQueue.output (q : StoreQueue) (ty target : Nat) : List Block × StoreQueue × Option Nat :=
  let nominal := clientBlocks ty
  let want := target * nominal / 16
  let fill := q.blocks.length
  if q.filling && decide (fill < want) then ([], q, none)
  else
    let n := takeN nominal fill want (16 * largestBlocks ty)
    if fill < n then ([], q.flush, some 0)
    else if largestBlocks ty < n then ([], q.flush, some 1)
    else (q.blocks.take n, q.leave n, none)
/-- The JC octets of the grains that a tick's blocks leave in (R244, R247): 0xFD where a grain holds octets of an error block, in every
grain of a poisoned tick, and otherwise the count. -/
def outputJcs (g : Nat) (poison : Bool) (bs : List Block) : List Nat :=
  let total := (257 * bs.length + 7) / 8
  let bad := (bs.zipIdx.filter (fun x => x.1.isNone)).map (·.2)
  (List.range g).map (fun i =>
    let c := grainCount total g i
    let from' := i * (total / g) + min i (total % g)
    if poison || bad.any (fun b => decide (257 * b < 8 * (from' + c)) && decide (8 * from' < 257 * (b + 1)) && c != 0) then 0xFD else c)
/-- Error blocks in place of a client's tick (R244). -/
def errorTick (n : Nat) : List Block := List.replicate n none
/-- Whether a label of a client's slots falls in a guard (R240), after the swap or before a pending one. -/
def State.guarded (s : State) (places : List (Nat × Nat)) : Bool :=
  s.cal.guards.any (fun g => decide (g.first ≤ s.tn) && decide (s.tn < g.last) && places.any (fun x => g.slots.contains x))
    || (match s.swapPending with
        | some a => s.cal.preGuard == some a && decide (a.due ≤ s.tn + cw a.cmd 1) && decide (s.tn < a.due)
            && places.any (fun x => s.changedSlots.contains x)
        | none => false)
/-- The line slots of a client in the active bank. -/
def State.placesOf (s : State) (port : Nat) : List (Nat × Nat) :=
  (s.slotMap s.cal.active).filterMap (fun x => if x.2.1 == port then some x.1 else none)
/-- Signal fail of what carries a client: SF of the engine, or PSF of the Pack (R374, R380). -/
def packPsf (s : State) (p : Nat) : Bool :=
  (s.pack p).skewPresent || (s.pack p).mismatchPresent || (s.pack p).members.any (fun e => (s.eng e).defect.sf.isSome)
/-- Signal fail of a store's owner. -/
def ownerFail (s : State) (k : Kind) (i : Nat) : Bool := if k = .pack then packPsf s i else (s.eng i).defect.sf.isSome
/-- The client ports that the active bank carries on an engine or a Pack. -/
def State.carried (s : State) (k : Kind) (i : Nat) : List Nat :=
  (s.cal.active.filterMap (fun x =>
    let d := calDecode x.2
    if d.engine == i && d.ty == (if k = .pack then 2 else 1) then some d.port else none)).dedup
/-- The queues of a store, one for each client the active bank carries there (R247). -/
def State.queuesNow (s : State) (k : Kind) (i : Nat) : List StoreQueue :=
  (s.carried k i).map (fun p => ((s.storeOf k i).queues.find? (fun q => q.port == p)).getD (freshQueue p))
/-- The engine, and its Pack, that carry a client grain at a slot of a store's owner (R232). -/
def State.grainCarrier (s : State) (k : Kind) (i slot : Nat) : Nat :=
  if k = .pack then let m := (s.pack i).members; m.getD (slot % m.length) 48 else i
/-- The grains of one client that the hub moves from a store in a tick, against the MASTER and GRAIN_RANGE selectors (R463): for its port,
for its Pack, for the engine of each grain, unless that engine's frames carry TEST (R493), and by the calendar entry. -/
def State.countOutput (k : Kind) (i port : Nat) (jcs : List Nat) (s : State) : State :=
  let gs := jcs.map markGrain
  let s := s.countGrains true .port port gs
  let s := if k = .pack then s.countGrains true .pack i gs else s
  let mine := (s.cal.active.filter (fun x => !s.cal.dead.contains x.1)).filterMap (fun x =>
    let d := calDecode x.2
    if d.ty != 0 && d.port == port then some (x.1, s.grainCarrier k i d.slot, jcs.getD d.grain 0) else none)
  mine.foldl (fun s x =>
    let s := if (s.eng x.2.1).rx.rxTest then s else s.countGrains true .engine x.2.1 [markGrain x.2.2]
    s.countEntry true x.1) s
/-- The output of a store in one tick: each client's blocks go to its port, poisoned where a guard, parity or a Pack defect
says so; slips are told (R247 to R249, R384), and the JC errors of what left are counted (R33). `dead` gives the client ports whose tick
failed parity, with the poisoned grains. -/
def State.storeOutput (k : Kind) (i : Nat) (dead : List (Nat × Nat)) (s : State) : State :=
  let now := s.queuesNow k i
  let gone := (s.storeOf k i).queues.filter (fun q => now.all (fun x => x.port != q.port))
  let s := gone.foldl (fun s q => s.count .jcErr .port q.port q.jcHeld) s
  let s := s.modStore k i (fun st => { st with queues := now })
  (s.storeOf k i).queues.foldl (fun s q =>
    let ty := match s.port? q.port with | some p => p.ty | none => 0
    let r := q.output ty (s.storeOf k i).target
    let fail := ownerFail s k i
    let s := s.modStore k i (fun st => { st with
      queues := st.queues.map (fun x => if x.port == q.port then { r.2.1 with jcGone := 0 } else x) })
    let s := s.count .jcErr .port q.port r.2.1.jcGone
    let s := match r.2.2 with
      | some d => if fail then s else (s.count .storeSlips .port q.port 1).raise .storeSlip .port q.port (w1 d ++ w2 s.tn)
      | none => s
    let hurt := (dead.filter (fun x => x.1 == q.port)).foldl (fun n x => n + x.2) 0
    let poison := r.2.2.isSome || hurt != 0 || s.guarded (s.placesOf q.port)
      || (k == .pack && ((s.pack i).skewPresent || (s.pack i).mismatchPresent))
    let s := s.count .poisonedGrains .port q.port hurt
    let s := s.countOutput k i q.port (outputJcs (clientGrains ty) poison r.1)
    s.modData q.port (fun d =>
      if poison then { d with egress := d.egress ++ errorTick d.cleanN }
      else { d with egress := d.egress ++ r.1, cleanN := if r.1.isEmpty then d.cleanN else r.1.length })) s
/-- The receiver of a store's engine, or of some member of its Pack, is in frame. -/
def State.ownerInFrame (s : State) (k : Kind) (i : Nat) : Bool :=
  if k = .pack then (s.pack i).members.any (fun e => (s.eng e).inFrame) else (s.eng i).inFrame
/-- RX_LABEL_OFFSET and RX_STORE of a store after a tick's output (R250): the first blocks of a frame leave once the blocks
ahead of them have. `out` is how many blocks its first queue has put out, none where that was flushed. -/
def State.storeReport (k : Kind) (i : Nat) (out : Option Nat) (s : State) : State :=
  let st := s.storeOf k i
  let gone : List (Nat × Nat) := match out with | some n => st.marks.filter (fun m => decide (m.2 < n)) | none => []
  let left : List (Nat × Nat) := match out with
    | some n => (st.marks.filter (fun m => decide (n ≤ m.2))).map (fun m => (m.1, m.2 - n))
    | none => []
  let fills := st.queues.map (fun q => q.blocks.length * 256 / (clientBlocks (match s.port? q.port with | some p => p.ty | none => 0)))
  s.modStore k i (fun st => { st with
    marks := left
    labelOffset := match gone.getLast? with
      | some m => if s.ownerInFrame k i then (s.tn : Int) - m.1 else st.labelOffset
      | none => st.labelOffset
    rxStore := if fills.isEmpty || !s.ownerInFrame k i then st.rxStore else (fills.foldl (· + ·) 0) / fills.length })

/-! ### Packs (R251 to R257) -/

/-- One accepted member frame against the local configuration (R257). -/
def State.packCheck (p pos : Nat) (good : Bool) (s : State) : State :=
  s.modPack p (fun k =>
    let fails := k.failRuns.set pos (if good then 0 else k.failRuns.getD pos 0 + 1)
    let passes := k.passRuns.set pos (if good then k.passRuns.getD pos 0 + 1 else 0)
    { k with failRuns := fails, passRuns := passes
             mismatchPresent := if k.mismatchPresent then !(passes.take k.members.length).all (fun n => decide (3 ≤ n))
               else fails.any (fun n => decide (3 ≤ n)) })
/-- A member's frame T reaches the deskew pool. One that comes after T was released adds nothing but its skew, and its check at the end of
the tick. -/
def State.packArrive (p : Nat) (part : PackPart) (carried : Nat) (s : State) : State :=
  match (s.pack p).released.find? (fun x => x.1 == carried) with
  | some x =>
    s.modPack p (fun k => { k with skews := k.skews.set part.position (part.arrived - x.2.1), late := k.late ++ [(carried, part)] })
  | none => s.modPack p (fun k =>
    if k.pool.any (fun f => f.frameTn == carried) then
      { k with pool := k.pool.map (fun f => if f.frameTn == carried then { f with parts := f.parts ++ [part] } else f)
               skews := k.skews.set part.position
                 (part.arrived - ((k.pool.find? (fun f => f.frameTn == carried)).map (·.first)).getD part.arrived) }
    else { k with pool := k.pool ++ [{ frameTn := carried, first := part.arrived, parts := [part] }]
                  skews := k.skews.set part.position 0 })
/-- The slots of a released Pack frame: slot q from member q mod M; an absent or discarded member's are poisoned. -/
def PackFrame.slots (f : PackFrame) (m n : Nat) : List Grain :=
  (List.range n).map (fun q => match f.parts.find? (fun x => x.position == q % m) with
    | some x => match x.slots with | some l => l.getD (q / m) idleGrain | none => markGrain 0xFD
    | none => markGrain 0xFD)
/-- The accepted parts of a Pack frame, and whether their PACK_GEN agree (R257). -/
def PackFrame.accepted (f : PackFrame) : List PackPart := f.parts.filter (fun x => x.slots.isSome)
/-- PACK_GEN is one for all members' accepted frames of the same T (R257). -/
def PackFrame.oneGen (f : PackFrame) : Bool := f.accepted.all (fun x => f.accepted.all (fun y => x.gen == y.gen))
/-- Releases the frames of a Pack whose time has come (R255). -/
def State.packRelease (p : Nat) (s : State) : State :=
  let k := s.pack p
  let m := k.members.length
  let ready : PackFrame → Bool := fun f => decide (m ≤ f.parts.length) || decide (f.first + k.skewMax + 1 ≤ s.ticks)
  let out := k.pool.filter ready
  let s := s.modPack p (fun k => { k with pool := k.pool.filter (fun f => !ready f)
                                          released := (out.map (fun f => (f.frameTn, f.first, f.accepted.map (·.gen))) ++ k.released).take 64
                                          judged := k.judged ++ out })
  let s := s.modPack p (fun k => { k with running := List.zipWith max k.running k.skews })
  out.foldl (fun s f => s.storeFrame .pack p (some (f.slots m (s.packSlotsNow p))) f.frameTn) s
/-- A member that R256 evaluates: IN_FRAME and not isolated (R491). -/
def State.packCounts (s : State) (e : Nat) : Bool := (s.eng e).inFrame && (s.eng e).iso.isNone
/-- One released frame of a Pack, evaluated for PACK-SKEW (R256) and, each accepted member frame, for PACK-MISMATCH (R257). -/
def State.packJudgeFrame (p : Nat) (s : State) (f : PackFrame) : State :=
  let k := s.pack p
  let absent := (List.range k.members.length).any (fun i =>
    s.packCounts (k.members.getD i 0) && !f.parts.any (fun x => x.position == i))
  let s := f.accepted.foldl (fun s x => s.packCheck p x.position (x.ok && f.oneGen)) s
  s.modPack p (fun k =>
    let run := if absent then 0 else k.goodRun + 1
    { k with goodRun := run, skewPresent := if k.skewPresent then !decide (625 ≤ run) else absent })
/-- A member frame that came after the release of its frame: it is checked too, its PACK_GEN against those of the others (R257). -/
def State.packJudgeLate (p : Nat) (s : State) (x : Nat × PackPart) : State :=
  if x.2.slots.isNone then s
  else
    let gens := ((s.pack p).released.find? (fun r => r.1 == x.1)).elim [] (·.2.2)
    let s := s.packCheck p x.2.position (x.2.ok && gens.all (fun g => g == x.2.gen))
    s.modPack p (fun k => { k with released := k.released.map (fun r => if r.1 == x.1 then (r.1, r.2.1, x.2.gen :: r.2.2) else r) })
/-- The end of a tick for a Pack: what it released in the tick and what came late are evaluated; the defects so found act from the next
tick (R371). -/
def State.packJudge (p : Nat) (s : State) : State :=
  let k := s.pack p
  let s := s.modPack p (fun k => { k with judged := [], late := [] })
  k.late.foldl (State.packJudgeLate p) (k.judged.foldl (State.packJudgeFrame p) s)
/-- Once a second the largest skews start anew (R255). -/
def State.packSecond (p : Nat) (s : State) : State :=
  s.modPack p (fun k => { k with largest := k.running, running := k.skews })
/-- Pages of a Pack (R254): member capacity in grains, skew limit S. -/
def packPages (m cap skew : Nat) : Nat := m * ((129 * cap * (skew + 2) + 262143) / 262144)
/-- The larger member capacity, while a change runs, of a Pack. -/
def State.packMemberGrains (s : State) (members : List Nat) : Nat :=
  (members.map (fun e => grains (s.eng e).reserved)).foldl max 0
/-- Pages a Pack holds. -/
def State.pagesOf (s : State) (p : Nat) : Nat :=
  let k := s.pack p
  if k.members.isEmpty then 0 else packPages k.members.length (s.packMemberGrains k.members) k.skewMax
/-- PACK_SKEW_MAX as it counts for the pool: the larger of that in force and one that waits for its boundary. -/
def State.skewHeld (s : State) (p : Nat) : Nat :=
  (s.proto.armed.filter (fun a => a.key.cls == 0x213 && a.key.index == p)).foldl (fun m a => max m (cw a.cmd 1)) (s.pack p).skewMax
/-- Pages that are not free for Pack p: those of the other Packs. -/
def State.pagesElse (s : State) (p : Nat) : Nat :=
  (((List.range 24).filter (fun i => i != p)).map (fun i =>
    let m := (s.pack i).members
    if m.isEmpty then 0 else packPages m.length (s.packMemberGrains m) (s.skewHeld i))).foldl (· + ·) 0

/-! ### Parity (R258 to R260) -/

/-- The counter of a check point (Table 8.6). -/
def parityCounter (loc : Nat) : Ctr :=
  [Ctr.parHtMap, .parHubTx, .parLtTx, .parLtStore, .parDeskew, .parHubRx, .parHtDemap].getD loc .parHtMap
/-- The kind of resource a check point belongs to. -/
def parityKind (loc : Nat) : Kind := if loc = 0 ∨ loc = 6 then .port else if loc = 4 then .pack else .engine
/-- `n` parity failures at a check point: each is counted; the first after a quiet second raises PARITY_ERR. -/
def State.parityFail (loc idx n : Nat) (s : State) : State :=
  let s := s.count (parityCounter loc) (parityKind loc) idx n
  let quiet := (s.parityLast.find? (fun x => x.1 == (loc, idx))).all (fun x => decide (x.2 + 625000 < s.ticks))
  let s := { s with parityLast := (s.parityLast.filter (fun x => x.1 != (loc, idx))) ++ [((loc, idx), s.ticks)] }
  if quiet then s.raise .parityErr (parityKind loc) idx (w1 loc ++ w2 s.tn) else s

/-! ### Calendar commands -/

/-- CAL_LOAD (R236): count entries of 8 octets by DMA, staged. -/
def specCalLoad : OpSpec :=
  { code := 0x200, cls := .long, len := lenIs 4, target := tgtDevice, ranges := rngChan :: rngEntries 2
    refuse := fun s c => if s.swapPending.isSome then some (.bankInUse, 0) else dmaRefusal s c (8 * cw c 3)
    eff := .long dmaEffect }
/-- CAL_LOAD: loads calendar entries into the shadow bank. -/
def execCalLoad (c : Cmd) (s : State) : Res := runOp specCalLoad c s
/-- The image of `count` entries of a bank, 8 octets each, little-endian. -/
def calImage (c : Cmd) (s : State) : List Octet :=
  ((List.range (cw c 3)).map (fun i =>
    octetsLE 8 (cellGet (if cSub c = 0 then s.cal.active else s.cal.shadow) (cw c 2 + i) 0))).flatten
/-- A loaded image of entries, committed to the shadow bank when every entry's upper 16 bits are 0, else the index of the first entry where
they are not (R236, Table 15.8); a rewritten entry's bad mark is cleared (R243). -/
def State.calCommit (first : Nat) (image : List Octet) (s : State) : Except Nat State :=
  let es := (List.range (image.length / 8)).map (fun i => ofOctets ((image.drop (8 * i)).take 8).reverse)
  match es.findIdx? (fun x => decide (2 ^ 48 ≤ x)) with
  | some i => .error (first + i)
  | none => .ok (s.modCal (fun k => { k with
    shadow := cellSetMany 0 k.shadow first es, shadowParity := cellSetMany 63 k.shadowParity first (es.map entryParity), bad := k.bad.filter (fun i => decide (i < first) || decide (first + es.length ≤ i)) }))
/-- CAL_READ (R236). -/
def specCalRead : OpSpec :=
  { code := 0x201, cls := .long, len := lenIs 4, target := tgtDeviceSub 2, ranges := rngChan :: rngEntries 2
    refuse := fun s c => dmaRefusal s c (8 * cw c 3), eff := .long (dmaSend calImage) }
/-- CAL_READ: copies a calendar bank out by DMA. -/
def execCalRead (c : Cmd) (s : State) : Res := runOp specCalRead c s
/-- CAL_SWAP at its TN. -/
def applyCalSwap (c : Cmd) (s : State) : State := applyCalSwapWith State.flushClient c s
/-- CAL_SWAP (R234, R237, R238, R240). -/
def specCalSwap : OpSpec :=
  { code := 0x202, cls := .tick, align := .required, len := lenIs 6, target := tgtDevice
    ranges := [rngU 1 0 62500, rngU 2 0 62500, rngU 5 0 0], refuse := swapRefusal, eff := .boundary 0x202 applyCalSwap }
/-- CAL_SWAP: swaps calendar banks at TN with a guard window. -/
def execCalSwap (c : Cmd) (s : State) : Res := runOp specCalSwap c s

/-! ### Pack commands -/

/-- A Pack. -/
def tgtPack : State → Nat → Nat → Nat → Bool := tgtKind 5 24
/-- The eight octets of a member list. -/
def memberOctets (c : Cmd) : List Nat := (List.range 8).map (fun i => field (cw c (1 + i / 4)) (24 - 8 * (i % 4)) 8)
/-- The members before the first 0xFF. -/
def memberList (c : Cmd) : List Nat := (memberOctets c).takeWhile (fun x => x != 0xFF)
/-- A Pack entry of a bank names Pack p. -/
def namesPack (p : Nat) : Nat × Nat → Bool := fun x => let d := calDecode x.2; d.ty == 2 && d.engine == p
/-- First entry of either bank that names Pack p. -/
def State.packEntry (s : State) (p : Nat) : Option Nat :=
  minIdx ((s.cal.active.find? (namesPack p)).map (·.1)) ((s.cal.shadow.find? (namesPack p)).map (·.1))
/-- Refusals of PACK_SET in the order of its row (R251, R254, R235). -/
def packSetRefusal (s : State) (c : Cmd) : Option (Status × Nat) :=
  let p := cIdx c
  let m := memberList c
  let ks := m.map (fun e => (s.eng e).kTx)
  let bad := m.find? (fun e => (s.eng e).zr || (s.packOf e).any (fun q => q != p)
    || (s.firstOf (fun d _ _ => d.ty == 1 && d.engine == e)).isSome)
  let need := packPages m.length (s.packMemberGrains m) (s.skewHeld p)
  let free := 256 - s.pagesElse p
  firstRefusal
    [ bad.map (fun e => (.packMember, e))
    , if ks.all (fun k => k == ks.headD 0) then none else some (.capacityLayout, 0)
    , if free < need then some (.poolFull, need - free) else none
    , (s.packEntry p).map (fun i => (.calendarInUse, i)) ]
/-- Are these member octets engines, two or more, no engine twice, closed by 0xFF octets (R251, R422)? -/
def membersOk (l : List Nat) : Bool :=
  let m := l.takeWhile (fun x => x != 0xFF)
  decide (2 ≤ m.length) && m.all (fun e => decide (e < 48)) && decide m.Nodup && (l.drop m.length).all (fun x => x == 0xFF)
/-- PACK_SET (R251). -/
def specPackSet : OpSpec :=
  { code := 0x210, len := lenIs 3, target := tgtPack
    ranges := [(1, fun _ c => membersOk ((memberOctets c).take 4)), (2, fun _ c => membersOk (memberOctets c))]
    refuse := packSetRefusal
    eff := .now (fun c s => (s.modPack (cIdx c) (fun k => { k with
      members := memberList c, gen := (k.gen + 1) % 256, pool := [], released := [], judged := [], late := [], skews := List.replicate 8 0
      largest := List.replicate 8 0, running := List.replicate 8 0, skewPresent := false, goodRun := 0
      mismatchPresent := false, failRuns := List.replicate 8 0, passRuns := List.replicate 8 0 }), []))
    read := some {
      selectors := 0, ok := fun _ _ => true, get := fun c s =>
      let m := (s.pack (cIdx c)).members
      packOctets ((List.range 8).map (fun i => BitVec.ofNat 8 (if m.isEmpty then 0 else m.getD i 0xFF))) } }
/-- PACK_SET: defines a Pack's members. -/
def execPackSet (c : Cmd) (s : State) : Res := runOp specPackSet c s
/-- What a Pack reported is cleared as it is deleted (R388). -/
def State.clearPackDefects (p : Nat) (s : State) : State :=
  ([.packSkew, .packMismatch] : List PackDefect).foldl (fun s d =>
    if (s.pack p).reported.contains d then s.defectChange .pack p (packOrd d) false else s) s
/-- PACK_DELETE (R251, R388). -/
def specPackDelete : OpSpec :=
  { code := 0x211, len := lenIs 1, target := tgtPack
    refuse := fun s c => (s.packEntry (cIdx c)).map (fun i => (.calendarInUse, i))
    eff := .now (fun c s => ((s.clearPackDefects (cIdx c)).modPack (cIdx c) (fun k => { k with
      reported := [], psf := none, psfFault := false, members := [], pool := [], released := [], judged := [], late := [], skewPresent := false, goodRun := 0, mismatchPresent := false }), [])) }
/-- PACK_DELETE: deletes a Pack. -/
def execPackDelete (c : Cmd) (s : State) : Res := runOp specPackDelete c s
/-- Refusals of PACK_CAPACITY_SET in the order of its row (R252). -/
def packCapRefusal (s : State) (c : Cmd) : Option (Status × Nat) :=
  let p := cIdx c
  let k := cw c 1
  let m := (s.pack p).members
  let grow := (m.map (fun e => max (grains k) (grains (s.eng e).reserved) - grains (s.eng e).reserved)).foldl (· + ·) 0
  let total := s.calendarTotal + grow
  firstRefusal
    [ if 122880 < total then some (.calendarCapacity, total - 122880) else none
    , if m.any (fun e => (s.eng e).zr || !capFits k (s.eng e).txLayout || !capFits k (s.eng e).rxLayout
        || (s.eng e).acq.listed.any (fun l => !capFits k l)) then some (.capacityLayout, 0) else none
    , (s.firstOf (fun d _ _ => d.ty == 2 && d.engine == p && decide (m.length * grains k ≤ d.slot))).map
        (fun i => (.calendarInUse, i))
    , if m.any (fun e =>
          let g := s.eng e
          g.cap.any (fun x => x.kNew != k && (x.txDone || x.rxDone || x.accepted))
            || g.load.ann.any (fun a => a.accepted && a.why != .abort)) then some (.busy, 0) else none ]
/-- ENGINE_CAPACITY_SET of a member, as the device's own change. -/
def memberCapacity (c : Cmd) (e : Nat) : Cmd := { c with words := w1 (targetNat .engine e 0) ++ w1 (cw c 1) }
/-- PACK_CAPACITY_SET (R252): one LOAD_TN for all members, a member without traffic among them; a Pack without members is done at once. -/
def specPackCapacitySet : OpSpec :=
  { code := 0x212, cls := .long, len := lenIs 2, target := tgtPack, ranges := [rngU 1 2 10], refuse := packCapRefusal
    leads := fun c s => (s.pack (cIdx c)).members.foldl (fun s e => s.setCapacity e (cw c 1)) s
    eff := .long (fun j c s =>
      let p := cIdx c
      let m := (s.pack p).members
      let loadTn := s.tn + 2 + (m.map (fun e => (s.eng e).load.lead)).foldl max 625
      let s := s.finishJobs (jobOn 0x212 p) .superseded c.tag.val []
      let s := s.modProto (fun q => { q with jobs := q.jobs ++ [j] })
      if m.isEmpty then (s.raise .packCapacityDone .pack p (w1 (cw c 1))).finishJobs (jobOn 0x212 p) .ok 0 [] else
      let s := s.modPack p (fun k => { k with capPending := some (cw c 1, m) })
      m.foldl (fun s e =>
        let quiet := !s.carries e
        let s := s.startCapacity e (cw c 1) (some loadTn) c.tag.val
        if quiet then s.arm { due := loadTn, key := keyOf 0x101 (memberCapacity c e), opcode := 0x101
                              cmd := memberCapacity c e, ticket := none } else s) s)
    read := some {
      selectors := 0, ok := fun _ _ => true, get := fun c s =>
      w1 (match (s.pack (cIdx c)).members with | [] => 0 | e :: _ => (s.eng e).kTx) } }
/-- PACK_CAPACITY_SET: changes the capacity of every Pack member. -/
def execPackCapacitySet (c : Cmd) (s : State) : Res := runOp specPackCapacitySet c s
/-- PACK_SKEW_SET (R254). -/
def specPackSkewSet : OpSpec :=
  { code := 0x213, len := lenIs 2, target := tgtPack, ranges := [rngU 1 1 8]
    refuse := fun s c =>
      let k := s.pack (cIdx c)
      let need := if k.members.isEmpty then 0 else packPages k.members.length (s.packMemberGrains k.members) (cw c 1)
      let free := 256 - s.pagesElse (cIdx c)
      if free < need then some (.poolFull, need - free) else none
    eff := .boundary 0x213 (fun c s => s.modPack (cIdx c) (fun k => { k with skewMax := cw c 1 }))
    read := some { selectors := 0, ok := fun _ _ => true, get := fun c s => w1 (s.pack (cIdx c)).skewMax } }
/-- PACK_SKEW_SET: sets PACK_SKEW_MAX. -/
def execPackSkewSet (c : Cmd) (s : State) : Res := runOp specPackSkewSet c s
/-- PACK_STATUS. -/
def specPackStatus : OpSpec :=
  { code := 0x214, len := lenIs 1, target := tgtPack
    eff := .now (fun c s =>
      let k := s.pack (cIdx c)
      (s, [Config.packGenWord k.gen k.members.length] ++ w1 (if k.members.isEmpty then 0 else s.packSlotsNow (cIdx c))
        ++ [Config.packNibbles k.skews, Config.packNibbles k.largest]
        ++ w1 (b2n k.skewPresent + 2 * b2n k.mismatchPresent) ++ w1 (s.pagesOf (cIdx c)))) }
/-- PACK_STATUS: returns generation, capacity, skews and defects. -/
def execPackStatus (c : Cmd) (s : State) : Res := runOp specPackStatus c s
/-- STORE_SET (Table 8.4): a line engine or a Pack. -/
def specStoreSet : OpSpec :=
  { code := 0x215, len := lenIs 2
    target := fun _ k i b => b == 0 && ((k == 1 && decide (i < 48)) || (k == 5 && decide (i < 24)))
    ranges := [rngU 1 16 128], fence := fun c => if cKind c = 1 then some (tileOf (cIdx c)) else none
    refuse := fun s c => if cKind c = 1 ∧ (s.packOf (cIdx c)).isSome then some (.packMember, cIdx c) else none
    eff := .boundary 0x215 (fun c s => s.modStore (if cKind c = 5 then .pack else .engine) (cIdx c)
      (fun st => { st with target := cw c 1 }))
    read := some {
      selectors := 0, ok := fun _ _ => true, get := fun c s =>
      w1 (s.storeOf (if cKind c = 5 then .pack else .engine) (cIdx c)).target } }
/-- STORE_SET: sets STORE_TARGET. -/
def execStoreSet (c : Cmd) (s : State) : Res := runOp specStoreSet c s

end Sys2Proof.Machine
end

