-- ==== Sys2Proof/Machine/Counting.lean ====
section
/-! DEFINITION. Counters, Capture and DMA, the counter array: accumulation and chains (R456, R461, R462), reads and latches (R458 to
R460), filtered counters (R463, R464), bandwidth windows (R465) and snapshots (R466).
What it chooses or infers where the manual is silent, with its marks: log entries 9, 33. -/
namespace Sys2Proof.Machine

/-! ### Values -/

/-- First bandwidth slot (R455). -/
def bwBase : Nat := 23808
/-- Own value of a slot with a carry on its way to it added in (R462). -/
def Counters.own (c : Counters) (i : Nat) : Nat :=
  let v := cellGet c.slots i 0
  if i < bwBase ∧ i ≠ 0 ∧ c.carries.contains (i - 1) then (v + 1) % 2 ^ 40 else v
/-- Live value of a slot: of a chain head the 80-bit value (R459, R461). -/
def Counters.live (c : Counters) (i : Nat) : Nat :=
  if c.heads.contains i then c.own i + 2 ^ 40 * c.own (i + 1) else c.own i
/-- Word k of a slot's value: V0, V1, V2 (Table 17.2). -/
def valueWordAt (v k : Nat) : Nat := field v (32 * k) 32
/-- Word 2 of an image slot: V2, and CARRY in bit 31 of a slot other than a bandwidth slot. -/
def Image.word (m : Image) (i k : Nat) : Nat :=
  let v := cellGet m.slots i 0
  if k = 2 ∧ i < bwBase then field v 64 16 + (if m.carries.contains i then 2 ^ 31 else 0) else valueWordAt v k

/-! ### Accumulation at the end of a tick (R33, R456, R462) -/

/-- Adds to a slot; a wrap of a chain head leaves a carry. -/
def Counters.add (c : Counters) (i n : Nat) : Counters :=
  let v := cellGet c.slots i 0 + n
  { c with slots := cellSet c.slots i (v % 2 ^ 40) 0
           carries := if 2 ^ 40 ≤ v ∧ c.heads.contains i then c.carries ++ [i] else c.carries }
/-- A slot is the upper member of a chain. -/
def Counters.upper (c : Counters) (i : Nat) : Bool := i != 0 && c.heads.contains (i - 1)
/-- The counts of data labelled with the tick that ends come due; the others wait one tick less (R33). -/
def Counters.mature (c : Counters) : Counters :=
  { c with happened := c.happened ++ (c.later.filter (fun x => x.1 == 0)).map (·.2)
           later := (c.later.filter (fun x => x.1 != 0)).map (fun x => (x.1 - 1, x.2)) }
/-- The end of a tick: its happenings and the carries of the tick before enter the array. -/
def Counters.accumulate (c : Counters) : Counters :=
  let own := c.happened.filter (fun x => !c.upper x.1)
  let ups := c.carries.map (fun i => (i + 1, 1))
  (ups ++ own).foldl (fun c x => c.add x.1 x.2) { c with happened := [], carries := [] }

/-! ### Bandwidth (R465) -/

/-- A bandwidth window that nothing has set. -/
def BwWindow.reset : BwWindow := { window := 625000, start := none, ingress := 0, egress := 0, seq := 0, next := none }
/-- The window of a port. -/
def State.bwOf (s : State) (p : Nat) : BwWindow := cellGet s.ctr.bw p BwWindow.reset
/-- Writes the window of a port. -/
def State.setBw (p : Nat) (w : BwWindow) (s : State) : State :=
  s.modCtr (fun c => { c with bw := cellSet c.bw p w BwWindow.reset })
/-- Octets of a tick enter the running window of a port. -/
def State.bwCount (p ingress egress : Nat) (s : State) : State :=
  let w := s.bwOf p
  if w.start.isSome then s.setBw p { w with ingress := w.ingress + ingress, egress := w.egress + egress } else s
/-- A completed window in its slot. -/
def bwSlotValue (octets seq last : Nat) : Nat := octets % 2 ^ 48 + seq % 65536 * 2 ^ 48 + last % 2 ^ 32 * 2 ^ 64
/-- The boundary at which the present tick began, for a port's window: a whole window moves to its slots, and the next one starts. -/
def State.bwBoundary (p : Nat) (s : State) : State :=
  let w := s.bwOf p
  let ends := s.tn % w.window == 0 && w.start != some s.tn
  let s :=
    if ends then
      let s := if w.start.isSome then
          s.modCtr (fun c => { c with
            slots :=
            cellSet (cellSet c.slots (bwBase + 2 * p) (bwSlotValue w.ingress (w.seq + 1) (s.tn - 1)) 0)
              (bwBase + 2 * p + 1) (bwSlotValue w.egress (w.seq + 1) (s.tn - 1)) 0 })
        else s
      s.setBw p { w with start := some s.tn, ingress := 0, egress := 0, seq := (if w.start.isSome then w.seq + 1 else w.seq) % 65536 }
    else s
  let w := s.bwOf p
  match w.next with
  | some n => if s.tn % n = 0 then s.setBw p { w with window := n, next := none, start := some s.tn, ingress := 0, egress := 0 } else s
  | none => s
/-- The window in progress of a port is discarded. -/
def State.bwDiscard (p : Nat) (s : State) : State := s.setBw p { s.bwOf p with start := none, ingress := 0, egress := 0 }
/-- A realignment discards the windows in progress (Table 17.8); one starts at once where the new TN is a multiple of W (R465). -/
def State.bwRealign (s : State) : State := s.ports.foldl (fun s p => (s.bwDiscard p.1).bwBoundary p.1) s
/-- BANDWIDTH_WINDOW_END: at a boundary that is a multiple of a port's window, the count moves to its slots (R465). -/
def execBandwidthWindowEnd (port : Fin 384) (s : State) : Res :=
  if (s.port? port).isSome then .next (s.bwBoundary port) else .next s

/-! ### Filters (R463) -/

/-- Whether a word is the target word of a resource of kind `k` below `n`. -/
def isTarget (k n w : Nat) : Bool := field w 28 4 == k && decide (field w 16 12 < n) && field w 0 16 == 0
/-- Whether a word is a target word of kind `k`, INDEX 0xFFF for all. -/
def isTargetOrAll (k n w : Nat) : Bool := isTarget k n w || (field w 28 4 == k && field w 16 12 == 0xFFF && field w 0 16 == 0)
/-- KIND code of the resources of a defect class. -/
def classKind (cls : Nat) : Nat := if cls = 1 then 5 else if cls = 4 ∨ cls = 5 ∨ cls = 6 then 4 else 1
/-- Whether a selector's VALUE_LO keeps Table 17.3. -/
def filterLoOk (kind lo : Nat) : Bool :=
  match kind with
  | 0 => lo == 0
  | 1 => decide (lo < 8)
  | 2 => isTarget 1 48 lo || isTarget 4 384 lo || isTarget 5 24 lo
  | 3 => decide (lo < 122880)
  | 4 => decide (lo < 32) && decide (lo % 16 ≤ 3)
  | _ => decide (lo ≤ 7)
/-- Whether a selector's VALUE_HI keeps Table 17.3. -/
def filterHiOk (kind lo hi : Nat) : Bool :=
  match kind with
  | 0 => hi == 0
  | 1 => field hi 12 4 == 0 && field hi 28 4 == 0
  | 2 => decide (hi < 4)
  | 3 => field hi 17 14 == 0 && decide (field hi 0 17 < 122880)
  | 4 => hi == 0 || isTarget 4 384 hi
  | _ => isTargetOrAll (classKind lo) (if classKind lo = 1 then 48 else if classKind lo = 4 then 384 else 24) hi
/-- Whether a defect of a class is present at a resource. -/
def State.classPresent (s : State) (cls i : Nat) : Bool :=
  let line : LineDefect → Bool := fun d => (s.eng i).defect.present.contains d
  let client : ClientDefect → Bool := fun d => (s.port? i).any (fun p => p.present.contains d)
  match cls with
  | 0 => (s.eng i).defect.sf.isSome
  | 1 => (s.pack i).psf.isSome
  | 2 => line .deg
  | 3 => line .authFail
  | 4 => client .cDown || client .cLos || client .cLoa
  | 5 => client .cDeg
  | 6 => client .cCsf || client .cNomap
  | _ => line .asymInvalid
/-- Ticks counted by the DEFECT_CLASS selectors, at the end of a tick. -/
def State.countClasses (s : State) : State :=
  s.ctr.filters.foldl (fun s f =>
    let x := f.2
    if x.kind == 5 then
      let k := classKind x.lo
      let all := if k = 1 then List.range 48 else if k = 4 then s.ports.map (·.1) else List.range 24
      let sel := if field x.hi 16 12 = 0xFFF then all else [field x.hi 16 12]
      s.happen (23552 + f.1) (sel.filter (s.classPresent x.lo)).length
    else s) s
/-- The class of an Ethernet frame at a port (Table 17.3): 0 PTP, 1 ESMC, 2 CONTROL, 3 DATA. -/
def Port.frameClass (p : Port) (f : List Octet) : Nat :=
  match p.tapClass f with
  | some false => 0
  | some true => 1
  | none => if octetsAt f 0 6 / 16 = 0x0180C200000 then 2 else 3
/-- A frame of a class at a port counted by the FRAME_CLASS selectors. -/
def State.countFrame (egress : Bool) (p cls : Nat) (s : State) : State :=
  s.ctr.filters.foldl (fun s f =>
    let x := f.2
    if x.kind == 4 && (x.hi == 0 || field x.hi 16 12 == p) && x.lo % 16 == cls && bit x.lo 4 == egress then s.happen (23552 + f.1) 1 else s) s
/-- What was moved or arrived for the tick that now ends is counted (R33, R463, R465). -/
def State.comeDue (s : State) : Coming → State
  | .grain entry engine port pack jc =>
    let g := [markGrain jc]
    let s := ((s.countGrains false .engine engine g).countGrains false .port port g).countEntry false entry
    match pack with | some p => s.countGrains false .pack p g | none => s
  | .octets p n => s.bwCount p n 0
  | .frame p cls => s.countFrame false p cls
/-- The end of a tick for what is labelled with it or with a later one. -/
def State.comeIn (s : State) : State :=
  let due := (s.ctr.coming.filter (fun x => x.1 == 0)).map (·.2)
  due.foldl State.comeDue (s.modCtr (fun c => { c with coming := (c.coming.filter (fun x => x.1 != 0)).map (fun x => (x.1 - 1, x.2)) }))
/-- Something labelled TN + `ahead` waits for its tick to end. -/
def State.expect (ahead : Nat) (l : List Coming) (s : State) : State :=
  s.modCtr (fun c => { c with coming := c.coming ++ l.map (fun x => (ahead, x)) })
/-! ### Snapshots (R466) -/

/-- Every slot as it stands, chain heads with their upper members, and the carries on their way. -/
def Counters.snapshot (c : Counters) (tn : Nat) : Image :=
  { slots := c.heads.foldl (fun m h =>
      cellSet m h (cellGet c.slots h 0 + 2 ^ 40 * cellGet c.slots (h + 1) 0) 0) c.slots
    carries := c.carries, imageTn := tn }
/-- The running CTR_DUMPs of the image, by their places in parse order. -/
def State.imageDumps (s : State) : List Nat := (s.proto.jobs.filter (fun j => j.ticket.opcode == 0x805 && cSub j.cmd == 0)).map (·.ticket.seq)
/-- An image becomes readable. -/
def State.imageReadable (m : Image) (s : State) : State :=
  let s := s.modCtr (fun c => { c with image := m, waiting := none, snapSeq := (c.snapSeq + 1) % 65536, snapValid := true })
  s.raise .ctrSnapshotDone .device 0 (w2 m.imageTn ++ w1 s.ctr.snapSeq)
/-- CTR_SNAPSHOT at its TN. -/
def applySnapshot (_ : Cmd) (s : State) : State :=
  let m := s.ctr.snapshot s.tn
  if s.imageDumps.isEmpty then s.imageReadable m else s.modCtr (fun c => { c with waiting := some (m, s.imageDumps) })
/-- The end of a dump of the image: an image becomes readable once the dumps that ran at its TN have ended. -/
def State.dumpOver (s : State) : State :=
  match s.ctr.waiting with
  | some m => if m.2.any (fun i => s.imageDumps.contains i) then s else s.imageReadable m.1
  | none => s
/-- Whether a snapshot is pending or its image waits: SNAP_PENDING (Table 17.4). -/
def State.snapPending (s : State) : Bool := s.proto.armed.any (fun a => a.opcode == 0x804) || s.ctr.waiting.isSome
/-- The words of the snapshot status block (Table 17.4). -/
def State.snapStatus (s : State) : List Word :=
  w1 (s.ctr.snapSeq * 65536 + 2 * b2n s.snapPending + b2n s.ctr.snapValid) ++ w1 s.ctr.image.imageTn ++ w1 (s.ctr.image.imageTn >>> 32)

/-! ### Register reads of the array (R458, R459) -/

/-- The latch of an access path. -/
def Counters.latch (c : Counters) : Path → Latch
  | .pcie => c.latchPcie | .spi => c.latchSpi | .firmware => c.latchFw
/-- Loads the latch of an access path. -/
def Counters.setLatch (p : Path) (l : Latch) (c : Counters) : Counters :=
  match p with
  | .pcie => { c with latchPcie := l } | .spi => { c with latchSpi := l } | .firmware => { c with latchFw := l }
/-- Word k of a slot as a read finds it unlatched: slots of the image count on from 24,576. -/
def Counters.wordNow (c : Counters) (slot k : Nat) : Nat :=
  if slot < 24576 then valueWordAt (c.live slot) k else c.image.word (slot - 24576) k
/-- What a read of V1 (k = 1) or V2 (k = 2) on a path returns: the latch where it names the slot, else the live value. -/
def Counters.readUpper (c : Counters) (p : Path) (slot k : Nat) : Nat :=
  let l := c.latch p
  if l.slot = slot then (if k = 1 then l.v1 else l.v2) else c.wordNow slot k
/-- COUNTER_V0_READ: a read of V0 of a live slot, or of an image slot counted on from 24,576, loads the path's latch (R459). -/
def execCounterV0Read (path : Path) (slot : Fin 49152) (s : State) : Res :=
  let v0 := s.ctr.wordNow slot 0
  let l : Latch := { slot := slot, v1 := s.ctr.wordNow slot 1, v2 := s.ctr.wordNow slot 2 }
  if s.pathOpen path then .next { s.modCtr (fun c => c.setLatch path l) with readWord := some (BitVec.ofNat 32 v0) } else .next s

/-! ### Names (R457) -/

/-- Named counters of a resource: ordinals, and SUBs of an ordinal (Table 17.1). -/
def namedSubs (k : Kind) (i ord : Nat) : Nat :=
  match k with
  | .device => b2n (decide (ord ≤ 6) && (i == 0 || decide (3 ≤ ord)))
  | .engine => if ord = 24 then 8 else b2n (decide (ord ≤ 33))
  | .hostLane => b2n (decide (ord ≤ 3))
  | .port => b2n (decide (ord ≤ 18))
  | .pack => b2n (ord == 0)
  | .monConv => if i = 4 then (if ord = 1 then 64 else 0) else b2n (ord == 0)
  | .dma => b2n (decide (ord ≤ 1))
  | .queue => b2n (decide (ord ≤ 2) || (ord == 3 && i == 9))
  | _ => 0
/-- Defects of a kind of resource. -/
def defectCount (k : Kind) : Nat := match k with | .engine => 16 | .pack => 2 | .port => 9 | _ => 0
/-- Whether an event is raised with a resource of these indices. -/
def evIndexOk (k : Kind) (i code : Nat) : Bool :=
  match k with | .device => i == 0 | .monConv => decide (i < 4) || code == 0x602 | _ => true
/-- Whether the target word and the code name a counter. -/
def counterExists (k : Kind) (i sub code : Nat) : Bool :=
  if code < 0x1000 then sub == 0 && evIndexOk k i code && Ev.all.any (fun e => e.code == code && e.kinds.contains k)
  else if code < 0x2000 then decide (sub < namedSubs k i (code - 0x1000))
  else sub == 0 && decide (code < 0x2000 + defectCount k)

/-! ### Commands -/

/-- CTR_READ (R460): V2, V1, V0. -/
def specCtrRead : OpSpec :=
  { code := 0x800, len := lenIs 2, target := tgtDevice, ranges := [rngU 1 0 24575]
    eff := .now (fun c s => let v := s.ctr.live (cw c 1)
      (s, w1 (valueWordAt v 2) ++ w1 (valueWordAt v 1) ++ w1 (valueWordAt v 0))) }
/-- CTR_READ: returns one counter coherently. -/
def execCtrRead (c : Cmd) (s : State) : Res := runOp specCtrRead c s
/-- Chain heads with every armed chain change made. -/
def State.headsNext (s : State) : List Nat :=
  s.proto.armed.foldl (fun h a => if a.opcode = 0x801 then
    (if cw a.cmd 2 = 1 then h ++ [cw a.cmd 1] else h.filter (fun i => i != cw a.cmd 1)) else h) s.ctr.heads
/-- A chain change at its boundary: making a chain clears its upper member (R461). -/
def applyChain (c : Cmd) (s : State) : State :=
  let i := cw c 1
  if cw c 2 = 0 then s.modCtr (fun x => { x with heads := x.heads.filter (fun h => h != i) })
  else s.modCtr (fun x => { x with heads := if x.heads.contains i then x.heads else i :: x.heads, slots := cellSet x.slots (i + 1) 0 0 })
/-- CTR_CHAIN_SET (R461). -/
def specCtrChainSet : OpSpec :=
  { code := 0x801, len := lenIs 3, target := tgtDevice, ranges := [rngU 1 0 24575, rngU 2 0 1]
    refuse := fun s c =>
      let i := cw c 1
      if bwBase ≤ i + 1 ∨ (i ≠ 0 ∧ s.headsNext.contains (i - 1)) ∨ s.headsNext.contains (i + 1)
      then some (.parameterInvalid, 1) else none
    eff := .boundary 0x801 applyChain
    read := some { selectors := 1, ok := fun c _ => decide (cw c 1 < 24576), get := fun c s => w1 (b2n (s.ctr.heads.contains (cw c 1))) } }
/-- CTR_CHAIN_SET: makes or ends a chain. -/
def execCtrChainSet (c : Cmd) (s : State) : Res := runOp specCtrChainSet c s
/-- A selector that is OFF. -/
def Filter.off : Filter := { kind := 0, lo := 0, hi := 0 }
/-- CTR_FILTER_SET (R463, R464): completes at the boundary from which it counts. -/
def specCtrFilterSet : OpSpec :=
  { code := 0x802, len := lenIs 5, target := tgtDevice
    ranges := [rngU 1 0 255, rngU 2 0 5, (3, fun _ c => filterLoOk (cw c 2) (cw c 3)), (4, fun _ c => filterHiOk (cw c 2) (cw c 3) (cw c 4))]
    eff := .atBoundary 0x802 (fun c s => s.modCtr (fun x => { x with
      filters := cellSet x.filters (cw c 1) { kind := cw c 2, lo := cw c 3, hi := cw c 4 } Filter.off }))
    read := some {
      selectors := 1, ok := fun c _ => decide (cw c 1 < 256), get := fun c s =>
      let f := cellGet s.ctr.filters (cw c 1) Filter.off
      w1 f.kind ++ w1 f.lo ++ w1 f.hi } }
/-- CTR_FILTER_SET: sets a filtered counter's selector. -/
def execCtrFilterSet (c : Cmd) (s : State) : Res := runOp specCtrFilterSet c s
/-- CTR_BW_SET (R465). -/
def specCtrBwSet : OpSpec :=
  { code := 0x803, len := lenIs 3, target := tgtDevice, ranges := [rngU 1 0 383, rngU 2 625 6250000]
    eff := .now (fun c s => (s.setBw (cw c 1) { s.bwOf (cw c 1) with next := some (cw c 2) }, []))
    read := some { selectors := 1, ok := fun c _ => decide (cw c 1 < 384), get := fun c s => w1 (s.bwOf (cw c 1)).window } }
/-- CTR_BW_SET: sets a port's bandwidth window. -/
def execCtrBwSet (c : Cmd) (s : State) : Res := runOp specCtrBwSet c s
/-- CTR_SNAPSHOT (R466). -/
def specCtrSnapshot : OpSpec :=
  { code := 0x804, cls := .tick, align := .required, len := lenIs 1, target := tgtDevice, eff := .boundary 0x804 applySnapshot }
/-- CTR_SNAPSHOT: copies every counter into the image at TN. -/
def execCtrSnapshot (c : Cmd) (s : State) : Res := runOp specCtrSnapshot c s
/-- Octets of `count` slots of the image (SUB 0) or the live array (SUB 1), little-endian (R460). -/
def dumpOctets (c : Cmd) (s : State) : List Octet :=
  ((List.range (cw c 3)).map (fun i =>
    let slot := cw c 2 + i + (if cSub c = 0 then 24576 else 0)
    octetsLE 4 (s.ctr.wordNow slot 0) ++ octetsLE 4 (s.ctr.wordNow slot 1) ++ octetsLE 4 (s.ctr.wordNow slot 2) ++ octetsLE 4 0)).flatten
/-- Slots of a live dump on channel `c` that are read next, no more than `n` of them: each is coherent, and they come from different ticks
(R460). -/
def State.dumpMore (c n : Nat) (s : State) : State :=
  match s.proto.jobs.find? (fun j => onChannel c j && j.ticket.opcode == 0x805 && cSub j.cmd == 1) with
  | none => s
  | some j =>
    let have' := (s.dc c).out.length / 16
    let k := min n (cw j.cmd 3 - have')
    let part : Cmd := { j.cmd with words := j.cmd.words.take 2 ++ w1 (cw j.cmd 2 + have') ++ w1 k }
    s.modDc c (fun d => { d with out := d.out ++ dumpOctets part s })
/-- A tick ends for the running live dumps: the manual does not say how many slots are read in it, and a free value does. -/
def State.dumpTick (c : Nat) (s : State) : State :=
  if s.proto.jobs.any (fun j => onChannel c j && j.ticket.opcode == 0x805 && cSub j.cmd == 1) then s.fresh.2.dumpMore c s.fresh.1 else s
/-- What a live dump has not read yet is read at its end. -/
def State.dumpRest (c : Nat) (s : State) : State := s.dumpMore c 24576
/-- CTR_DUMP (R460): the image as it stands; the live array as the dump goes on. -/
def specCtrDump : OpSpec :=
  { code := 0x805, cls := .long, len := lenIs 4, target := tgtDeviceSub 2
    ranges := [rngChan, rngU 2 0 24575, (3, fun _ c => decide (1 ≤ cw c 3) && decide (cw c 2 + cw c 3 ≤ 24576))]
    refuse := fun s c => dmaRefusal s c (16 * cw c 3), eff := .long (dmaSend (fun c s => if cSub c = 0 then dumpOctets c s else [])) }
/-- CTR_DUMP: copies counters by DMA. -/
def execCtrDump (c : Cmd) (s : State) : Res := runOp specCtrDump c s
/-- CTR_INDEX (R457): KIND and INDEX are checked under R421; SUB is judged with the code. -/
def specCtrIndex : OpSpec :=
  { code := 0x806, len := lenIs 2
    target := fun _ k i _ => (kindOf? k).any (fun x => decide (i < kindCount x))
    refuse := fun _ c => if (kindOf? (cKind c)).any (fun k => decide (cw c 1 < 65536) && counterExists k (cIdx c) (cSub c) (cw c 1)) then none
      else some (.parameterInvalid, 1)
    eff := .now (fun c s => (s, w1 ((kindOf? (cKind c)).elim 0 (fun k => ctrSlot k (cIdx c) (cSub c) (cw c 1))))) }
/-- CTR_INDEX: returns the index of a named counter. -/
def execCtrIndex (c : Cmd) (s : State) : Res := runOp specCtrIndex c s

end Sys2Proof.Machine
end

