-- ==== Sys2Proof/Machine/Ports.lean ====
section
/-! DEFINITION. Host Lanes and Client Ports: ports and their training (R264 to R279), host clocking (R267 to R269), lane adaptation
(R273, R274) and diagnostics (R280 to R284), and the frame tap (R288 to R292).
What it chooses or infers where the manual is silent, with its marks: log entry 30. -/
namespace Sys2Proof.Machine

/-! ### Lanes of a port -/

/-- Lanes of a client type at a lane rate (Table 9.2); 0 where there is no such combination. -/
def laneCount (ty : Nat) (fast : Bool) : Nat := (if fast then [0, 1, 2, 4, 8] else [1, 2, 4, 8, 0]).getD ty 0
/-- Lanes of a port named by its lowest lane. -/
def Port.lanes (p : Port) (low : Nat) : List Nat := (List.range (laneCount p.ty p.fast)).map (fun i => low + i)
/-- The port a lane belongs to. -/
def State.portOfLane (s : State) (l : Nat) : Option (Nat × Port) := s.ports.find? (fun p => (p.2.lanes p.1).contains l)
/-- A loopback, generator or checker is active on a lane. -/
def HostLane.busy (h : HostLane) : Bool := h.loopback != 0 || h.generator != 0 || h.checker != 0
/-- A lane may run diagnostics (R280): free, or of a port in TEST. -/
def State.laneFree (s : State) (l : Nat) : Bool := (s.portOfLane l).all (fun p => p.2.state == .test)
/-- A lane's receiver runs. -/
def State.laneRuns (s : State) (l : Nat) : Bool :=
  match s.portOfLane l with
  | some p => p.2.state == .training || p.2.state == .aligning || p.2.state == .up || p.2.state == .test
  | none => (s.lane l).busy
/-- Port states in the order of Table 9.3. -/
def PortState.code : PortState → Nat
  | .disabled => 0 | .training => 1 | .aligning => 2 | .up => 3 | .holdoff => 4 | .test => 5
/-- Stops the diagnostics of a port's lanes; counts are kept (R280, Table 9.7). -/
def State.stopDiagnostics (low : Nat) (s : State) : State :=
  match s.port? low with
  | none => s
  | some p => (p.lanes low).foldl (fun s l => s.modLane l (fun h => { h with
      loopback := 0, generator := 0, checker := 0, locked := false })) s

/-! ### Lane adaptation -/

/-- Reason codes of HL_FREEZE, in the order of R273 and R274. -/
def FreezeReason.code : FreezeReason → Nat
  | .density => 0 | .levels => 1 | .brace => 2
/-- A lane's adaptation freezes for a reason, if it was not frozen. -/
def State.laneFreeze (l : Nat) (r : FreezeReason) (s : State) : State :=
  let h := s.lane l
  let was := h.shortHold || h.braceHold
  let s := s.modLane l (fun h => { h with
    shortHold := h.shortHold || r != .brace, braceHold := h.braceHold || r == .brace
    heldWindows := if was then h.heldWindows else 0, goodWindows := if r = .brace then h.goodWindows else 0 })
  if was then s else s.raise .hlFreeze .hostLane l (w1 r.code ++ w2 s.tn)
/-- One hold of a lane ends; with none left, HL_THAW with the duration in windows. -/
def State.laneThaw (l : Nat) (ofBrace : Bool) (s : State) : State :=
  let h := s.lane l
  let s := s.modLane l (fun h => if ofBrace then { h with braceHold := false } else { h with shortHold := false })
  let g := s.lane l
  if (h.shortHold || h.braceHold) && !(g.shortHold || g.braceHold) then
    s.raise .hlThaw .hostLane l (w1 h.heldWindows ++ w2 s.tn)
  else s
/-- A list with steps added, place by place. -/
def addSteps (l d : List Int) : List Int := l.zipIdx.map (fun x => x.1 + d.getD x.2 0)
/-- Adaptation of a window (R272): the CDR phase always tracks; the rest moves unless the lane is held (R273, R274). -/
def HostLane.adapt (a : LaneSteps) (h : HostLane) : HostLane :=
  let h := { h with cdrPhase := h.cdrPhase + a.phase }
  if h.shortHold || h.braceHold then h
  else { h with ctle := (clampI 0 48 ((h.ctle : Int) + a.ctle)).toNat, rxFfe := addSteps h.rxFfe a.ffe, dfe := addSteps h.dfe a.dfe
                cdrFreq := h.cdrFreq + a.freq }
/-- A receiver at its start values, from which it adapts (R277). -/
def HostLane.startValues (h : HostLane) : HostLane :=
  { h with ctle := 0, rxFfe := startFfe, dfe := List.replicate 16 0, cdrFreq := 0, cdrPhase := 0 }
/-- A lane starts: waiting inversions apply (R263), HL_TD_FLOOR is that of its first window (R273), its receiver is at its start values and
holds nothing. -/
def HostLane.start (h : HostLane) : HostLane :=
  let x := h.invertNext.getD (h.txInvert, h.rxInvert)
  { h.startValues with txInvert := x.1, rxInvert := x.2, invertNext := none, shortHold := false, braceHold := false
                       tdFloor := h.tdFloorNext.getD h.tdFloor, tdFloorNext := none, goodWindows := 0, heldWindows := 0 }
/-- Lane `l` starts: a hold of its earlier run ends, and in brace it is held from the start (R274). -/
def State.laneStart (l : Nat) (s : State) : State :=
  let h := s.lane l
  let s := s.modLane l HostLane.start
  let s := if h.shortHold || h.braceHold then s.raise .hlThaw .hostLane l (w1 h.heldWindows ++ w2 s.tn) else s
  if s.power.braceEffect then s.laneFreeze l .brace else s
/-- What a lane's transmit side drives: the generator's pattern in place of its data (R282), else what its port's state says (Table 9.3). -/
def State.ownDrive (s : State) (l : Nat) : LaneDrive :=
  let h := s.lane l
  if h.generator ≠ 0 then .pattern h.generator
  else match s.portOfLane l with
    | some p => match p.2.state with
      | .training => .training
      | .aligning | .up => .pcs
      | _ => .idle
    | none => .idle
/-- What a lane sends at its land (Tables 9.3 and 9.6): in FAR the received symbols, whatever generator runs (R282); in NEAR_SERIAL
nothing. -/
def State.laneDrive (s : State) (l : Nat) : LaneDrive :=
  if (s.lane l).loopback = 3 then .recovered else if (s.lane l).loopback = 1 then .idle else s.ownDrive l
/-- What a lane's receiver gets (Table 9.6): in NEAR_SERIAL and NEAR_PARALLEL what its own transmit side drives. -/
def State.laneInput (s : State) (l : Nat) : LaneInput :=
  if (s.lane l).loopback = 1 ∨ (s.lane l).loopback = 2 then .own (s.ownDrive l) else .partner
/-- Diagnostics of a lane are set; a lane that was not running starts (R263, R280), and a changed pattern starts at the boundary. -/
def State.diagnose (l : Nat) (f : HostLane → HostLane) (s : State) : State :=
  let runs := s.laneRuns l
  let old := (s.lane l).generator
  let s := s.modLane l (fun h => let h := f h; if h.generator = old then h else { h with generatedFrom := s.ticks })
  if !runs && (s.lane l).busy then s.laneStart l else s

/-! ### Test patterns (R282) -/

/-- Places of the PRBS generator's register that feed it: PRBS13 for PRBS13Q, else PRBS31. -/
def prbsTaps (kind : Nat) : List Nat := if kind = 1 then [1, 2, 12, 13] else [28, 31]
/-- The register after n bits, its newest bit first. -/
def prbsRun (taps : List Nat) : Nat → List Bool → List Bool
  | 0, r => r
  | n + 1, r => prbsRun taps n ((taps.foldl (fun b k => b ^^ r.getD (k - 1) false) false) :: r.dropLast)
/-- PAM4 level of a pair of bits, Gray-coded. -/
def grayLevel (a b : Bool) : Nat := if a then (if b then 2 else 3) else if b then 1 else 0
/-- Symbol i of a lane's pattern since its generator started: two bits of the sequence as one level. PRESUMED (log entry 30): the
generator polynomials are those of IEEE 802.3. -/
def prbsLevel (kind l i : Nat) : Nat :=
  let n := if kind = 1 then 13 else 31
  let r := prbsRun (prbsTaps kind) (2 * i + 2) ((List.range n).map (fun k => bit (Config.prbsSeed kind l) k))
  grayLevel (r.getD 1 false) (r.getD 0 false)
/-- UIs of a tick: 106.25 or 53.125 GBd over 1.6 µs (Table 9.1). -/
def uiPerTick (fast : Bool) : Nat := if fast then 170000 else 85000
/-- The level at UI i of the tick of a lane of a port whose transmit side drives a pattern. -/
def State.laneLevel (s : State) (l i : Nat) : Option Nat :=
  match s.ownDrive l, s.portOfLane l with
  | .pattern k, some p => some (prbsLevel k l ((s.ticks - (s.lane l).generatedFrom) * uiPerTick p.2.fast + i))
  | _, _ => none

/-! ### Training -/

/-- An attempt starts (R275): TRAINING, or ALIGNING at once in FIXED. -/
def Port.attempt (p : Port) (now : Nat) : Port :=
  let r := { p.round with attempts := p.round.attempts + 1, started := now, timeout := p.trainTimeout }
  if r.fixed then { p with state := .aligning, round := { r with alignStart := now } } else { p with state := .training, round := r }
/-- Enters HOLDOFF (R277); diagnostics, which run only in TEST, stop (R280). -/
def State.enterHoldoff (low : Nat) (s : State) : State :=
  (s.stopDiagnostics low).modPort low (fun p => { p with
    state := .holdoff, fallbackUp := false, round := { p.round with holdStart := s.ticks, holdFor := p.trainHoldoff } })
/-- The transmitters of a port's tile have a clock: SYNTONISED, or REFCLK_HOST is there (R267, R269). -/
def State.clocked (s : State) (low : Nat) : Bool := (s.htile (low / 96)).syntonised || (s.htile (low / 96)).refclk
/-- A round starts (R276): parameters that wait for the next round or start apply, the lanes start. In COMMON_REF without REFCLK_HOST
none can start, and the port goes to HOLDOFF (R269). -/
def State.startRound (low : Nat) (s : State) : State :=
  match s.port? low with
  | none => s
  | some p =>
    let synt := (s.htile (low / 96)).syntonised
    if !s.clocked low then s.enterHoldoff low else
    let s := (p.lanes low).foldl (fun s l => (s.laneStart l).modLane l (fun h => { h with txFfe := p.ffeNext })) s
    let a := s.fresh
    let b := a.2.fresh
    let s := if synt then b.2 else s
    s.modPort low (fun p =>
      let q : Port := { p with
        fallbackUp := false, lossAt := none, lossSignal := false, lossAlign := false, ffe := p.ffeNext
        rxDelay := if synt then a.1 % 2 ^ 32 else Config.hostDelay low false
        txDelay := if synt then b.1 % 2 ^ 32 else Config.hostDelay low true
        round := { p.round with attempts := 0, fixed := p.trainFixed.getD p.c2m, fallback := false
                                fallbackEn := p.fallbackEn, causes := [], firstLane := none } }
      q.attempt s.ticks)
/-- The end of a round (R279): TRAIN_RESULT with outcome (0 TRAINED, 1 FIXED, 2 FALLBACK, 3 DOWN), attempts, the cause of each
failed attempt, and the lane that first failed; with no failed attempt that word is a free value. -/
def State.trainResult (low outcome : Nat) (s : State) : State :=
  match s.port? low with
  | none => s
  | some p =>
    let f := s.fresh
    let s := if p.round.firstLane.isSome then s else f.2
    let lane := match p.round.firstLane with | some l => targetNat .hostLane l 0 | none => f.1
    (s.modPort low (fun p => { p with lastOutcome := outcome, lastAttempts := p.round.attempts })).raise .trainResult .port low
      (w1 outcome ++ w1 p.round.attempts ++ (p.round.causes.map w1).flatten ++ w1 lane)
/-- A round in progress ends without an attempt's outcome: TRAIN_RESULT with the outcome DOWN (R279). -/
def State.endRound (low : Nat) (s : State) : State :=
  if (s.port? low).any (fun p => p.state == .training || p.state == .aligning) then s.trainResult low 3 else s
/-- An attempt has failed (R276, R277): causes of Table 9.5, Success 0, NO_PARTNER 1, PARTNER_LOST 2, TIMEOUT 3, NO_ALIGN 4. -/
def State.attemptFails (low cause lane : Nat) (s : State) : State :=
  match s.port? low with
  | none => s
  | some p =>
    if p.round.fallback then (s.trainResult low 3).enterHoldoff low
    else
      let s := (s.modPort low (fun p => { p with
        round := { p.round with
        causes := p.round.causes ++ [cause], firstLane := some (p.round.firstLane.getD lane) } })).count .trainFails .port low 1
      if p.round.attempts < 4 then s.modPort low (fun p => p.attempt (s.ticks + 1))
      else if !p.round.fixed && p.round.fallbackEn then
        ((p.lanes low).foldl (fun s l => s.modLane l (fun h => { h.startValues with txFfe := p.fallbackTx })) s).modPort low (fun p => { p with
          state := .aligning, ffe := p.fallbackTx, round := { p.round with fallback := true, alignStart := s.ticks } })
      else (s.trainResult low 3).enterHoldoff low
/-- TRAIN_TIMEOUT_EXPIRY: the attempt ends, with NO_PARTNER where `silent` names a lane that recognised no training frame, else
with TIMEOUT on lane `slow`. -/
def execTrainTimeoutExpiry (port : Fin 384) (silent : Option Nat) (slow : Nat) (s : State) : Res :=
  match s.port? port with
  | none => .next s
  | some p =>
    if p.state = .training ∧ p.round.started + 625 * p.round.timeout ≤ s.ticks then
      .next (match silent with | some l => s.attemptFails port 1 l | none => s.attemptFails port 3 slow)
    else .next s
/-- PARTNER_LOST_TIMER: a lane that had recognised training frames in the running attempt has lost them, or signal, for 2 ms; past
TRAIN_TIMEOUT the attempt ends by that. -/
def execPartnerLostTimer (port : Fin 384) (lane : Nat) (s : State) : Res :=
  match s.port? port with
  | none => .next s
  | some p =>
    if p.state = .training ∧ p.round.started + 1250 ≤ s.ticks ∧ s.ticks ≤ p.round.started + 625 * p.round.timeout then
      .next (s.attemptFails port 2 lane)
    else .next s
/-- Σ|c| within 128/128 (R271). -/
def ffeOk (l : List Int) : Bool := decide ((l.map Int.natAbs).foldl (· + ·) 0 ≤ 128)
/-- The taps after a coefficient request (R271, R275): a preset or one step moves the exposed taps alone; a request that would take Σ|c|
beyond 1 moves none. PRESUMED (log entry 30): a step is one unit. -/
def CoefRequest.apply (fast : Bool) (taps : List Int) (r : CoefRequest) : List Int :=
  let new := taps.zipIdx.map (fun x => if !Config.tapExposed fast x.2 then x.1
    else match r with
      | .preset n => (Config.ffePreset fast n).getD x.2 x.1
      | .step k up => if k = x.2 then (if up then x.1 + 1 else x.1 - 1) else x.1)
  if ffeOk new then new else taps
/-- LINK_TRAINING_COMPLETE: every lane is trained within TRAIN_TIMEOUT, its exposed taps adjusted by the partner's requests (R271, R275); the
port enters ALIGNING. -/
def execLinkTrainingComplete (x : Trained) (s : State) : Res :=
  match s.port? x.port with
  | none => .next s
  | some p =>
    if p.state = .training ∧ p.round.started ≤ s.ticks ∧ s.ticks ≤ p.round.started + 625 * p.round.timeout then
      .next (((p.lanes x.port).zipIdx.foldl (fun s l => s.modLane l.1 (fun h => { h with
        txFfe := (x.requests.getD l.2 []).foldl (CoefRequest.apply p.fast) p.ffe })) s).modPort x.port (fun p => { p with
          state := .aligning, round := { p.round with alignStart := s.ticks } }))
    else .next s
/-- ALIGN_TIMEOUT: 100 ms in ALIGNING without PCS alignment; `lane` is one that did not align. -/
def execAlignTimeout (port : Fin 384) (lane : Nat) (s : State) : Res :=
  match s.port? port with
  | none => .next s
  | some p =>
    if p.state = .aligning ∧ p.round.alignStart + 62500 ≤ s.ticks then .next (s.attemptFails port 4 lane) else .next s
/-- PCS_ALIGNED: the receive PCS aligns; from ALIGNING, within 100 ms, the port enters UP and the round ends; in UP the interruption of
R278 ends within RETRAIN_HOLD. -/
def execPcsAligned (port : Fin 384) (s : State) : Res :=
  match s.port? port with
  | none => .next s
  | some p =>
    if p.state = .aligning ∧ s.ticks ≤ p.round.alignStart + 62500 then
      let outcome := if p.round.fallback then 2 else if p.round.fixed then 1 else 0
      .next ((s.trainResult port outcome).modPort port (fun p => { p with
        state := .up, fallbackUp := p.round.fallback, lossAt := none, lossSignal := false, lossAlign := false }))
    else if p.state = .up ∧ p.lossAt.all (fun t => decide (s.ticks ≤ t + 625 * p.retrainHold)) then
      .next (s.modPort port (fun p => { p with lossAt := none, lossSignal := false, lossAlign := false }))
    else .next s
/-- TRAIN_HOLDOFF_EXPIRY: a new round starts when TRAIN_HOLDOFF expires; never with 0, nor in COMMON_REF without REFCLK_HOST
(R269, R277). -/
def execTrainHoldoffExpiry (port : Fin 384) (s : State) : Res :=
  match s.port? port with
  | none => .next s
  | some p =>
    if p.state = .holdoff ∧ p.round.holdFor ≠ 0 ∧ p.round.holdStart + 625000 * p.round.holdFor ≤ s.ticks ∧ s.clocked port then .next (s.startRound port) else .next s
/-- PCS_ALIGNMENT_LOSS: a port in UP loses alignment; `signal` says that a lane of it is without signal. RETRAIN_HOLD starts (R278). While
the PCS is unaligned the row tells a change of the lanes' signal, which ends C-LOS where every lane has it again (R381). -/
def execPcsAlignmentLoss (port : Fin 384) (signal : Bool) (s : State) : Res :=
  match s.port? port with
  | none => .next s
  | some p =>
    if p.state = .up then
      .next (s.modPort port (fun p => { p with
        lossAt := some (p.lossAt.getD s.ticks), lossSignal := signal, lossAlign := true }))
    else .next s
/-- RETRAIN_HOLD_EXPIRY: a port that has not recovered starts a new round (R278). -/
def execRetrainHoldExpiry (port : Fin 384) (s : State) : Res :=
  match s.port? port with
  | none => .next s
  | some p =>
    if p.state = .up ∧ p.lossAt.any (fun t => decide (t + 625 * p.retrainHold ≤ s.ticks)) then .next (s.startRound port)
    else .next s

/-! ### Host clocking -/

/-- HOST_REFCLK_LOSS: in COMMON_REF every port of the tile not in DISABLED goes to HOLDOFF (R269). -/
def execHostRefclkLoss (t : Fin 4) (s : State) : Res :=
  let h := s.htile t
  if !h.refclk || h.syntonised then .next (s.modHtile t (fun h => { h with refclk := false }))
  else
    let s := (s.modHtile t (fun h => { h with refclk := false })).raise .hostRefclkLoss .hostTile t (w2 s.tn)
    .next (s.ports.foldl (fun s p => if p.1 / 96 = t.val ∧ p.2.state ≠ .disabled then (s.endRound p.1).enterHoldoff p.1 else s) s)
/-- HOST_REFCLK_OK: REFCLK_HOST returns (R269). -/
def execHostRefclkOk (t : Fin 4) (s : State) : Res :=
  let h := s.htile t
  let s' := s.modHtile t (fun h => { h with refclk := true })
  if h.refclk || h.syntonised then .next s' else .next (s'.raise .hostRefclkOk .hostTile t (w2 s.tn))
/-- A lane whose tile changes its clock: running diagnostics start anew, and the checker unlocks (Table 9.7). -/
def State.reclock (l : Nat) (s : State) : State :=
  (if (s.lane l).busy then s.laneStart l else s).modLane l (fun h => { h with locked := false, generatedFrom := s.ticks })
/-- HOST_CLK_SET at its boundary: the diagnostics of free lanes restart and their checkers unlock (Table 9.7). -/
def applyHostClk (c : Cmd) (s : State) : State :=
  let s := s.modHtile (cIdx c) (fun h => { h with syntonised := cw c 1 == 1 })
  (List.range 96).foldl (fun s i => s.reclock (96 * cIdx c + i)) s
/-- HOST_CLK_SET (R268): COMMON_REF, SYNTONISED. -/
def specHostClkSet : OpSpec :=
  { code := 0x310, len := lenIs 2, target := tgtKind 8 4, ranges := [rngU 1 0 1]
    refuse := fun s c => (s.ports.find? (fun p => p.1 / 96 == cIdx c && p.2.state != .disabled)).map
      (fun p => (.portInService, p.1))
    eff := .boundary 0x310 applyHostClk
    read := some { selectors := 0, ok := fun _ _ => true, get := fun c s => w1 (b2n (s.htile (cIdx c)).syntonised) } }
/-- HOST_CLK_SET: sets HOST_CLK_MODE of a host tile. -/
def execHostClkSet (c : Cmd) (s : State) : Res := runOp specHostClkSet c s

/-! ### Lane windows and settings -/

/-- HL_ADAPT_WINDOW_END: a window of 65,536 UI with `changes` boundaries that carry a level change, and the symbols of each PAM4
level, is judged (R273); the receiver's steps of the window apply unless it was held. Where both conditions make a window short the
reason is DENSITY (DESIGN CHOICE, log entry 30). -/
def execHlAdaptWindowEnd (l : Fin 384) (changes : Nat) (w : LaneWindow) (s : State) : Res :=
  if !s.laneRuns l then .next s
  else
    let h := s.lane l
    let dense := decide (h.tdFloor * 1024 ≤ changes)
    let short := !dense || w.levels.any (fun n => decide (n < 1024))
    let good := decide ((h.tdFloor + 1) * 1024 ≤ changes) && w.levels.all (fun n => decide (2048 ≤ n))
    let s := s.modLane l (fun h => { h.adapt w.steps with
      heldWindows := if h.shortHold || h.braceHold then h.heldWindows + 1 else 0
      goodWindows := if good then h.goodWindows + 1 else 0
      tdFloor := h.tdFloorNext.getD h.tdFloor, tdFloorNext := none })
    if short then
      .next ((s.count .hlFreezeWindows .hostLane l 1).laneFreeze l (if dense then .levels else .density))
    else if h.shortHold ∧ 3 ≤ h.goodWindows ∧ good then .next (s.laneThaw l false)
    else .next s
/-- LANE_SET (R263, R273): the inversions at the next start of the lane, HL_TD_FLOOR at the next window. -/
def specLaneSet : OpSpec :=
  { code := 0x311, len := lenIs 3, target := tgtKind 3 384, ranges := [rngU 1 0 3, rngU 2 1 16]
    eff := .now (fun c s => (s.modLane (cIdx c) (fun h => { h with
      invertNext := some (bit (cw c 1) 1, bit (cw c 1) 0), tdFloorNext := some (cw c 2) }), []))
    read := some {
      selectors := 0, ok := fun _ _ => true, get := fun c s =>
      let h := s.lane (cIdx c)
      w1 (b2n h.txInvert * 2 + b2n h.rxInvert) ++ w1 h.tdFloor } }
/-- LANE_SET: sets lane inversion and HL_TD_FLOOR. -/
def execLaneSet (c : Cmd) (s : State) : Res := runOp specLaneSet c s

/-! ### Diagnostics -/

/-- LANE_BUSY of a lane that may not run diagnostics (R280). -/
def laneRefusal (s : State) (c : Cmd) : Option (Status × Nat) :=
  if s.laneFree (cIdx c) then none else some (.laneBusy, cIdx c)
/-- Diagnostics of a lane at a boundary, where the lane may still run them (R280). -/
def setDiagnostics (f : Cmd → HostLane → HostLane) (c : Cmd) (s : State) : State :=
  if s.laneFree (cIdx c) then s.diagnose (cIdx c) (f c) else s
/-- LANE_LOOPBACK (R281): NONE, NEAR_SERIAL, NEAR_PARALLEL, FAR. -/
def specLaneLoopback : OpSpec :=
  { code := 0x312, len := lenIs 2, target := tgtKind 3 384, ranges := [rngU 1 0 3], refuse := laneRefusal
    eff := .boundary 0x312 (setDiagnostics (fun c h => { h with loopback := cw c 1 })) }
/-- LANE_LOOPBACK: sets or clears a lane loopback. -/
def execLaneLoopback (c : Cmd) (s : State) : Res := runOp specLaneLoopback c s
/-- LANE_PRBS_SET (R282): generator and checker, each OFF, PRBS13Q or PRBS31Q. -/
def specLanePrbsSet : OpSpec :=
  { code := 0x313, len := lenIs 3, target := tgtKind 3 384, ranges := [rngU 1 0 2, rngU 2 0 2], refuse := laneRefusal
    eff := .boundary 0x313 (setDiagnostics (fun c h => { h with
      generator := cw c 1, checker := cw c 2, locked := h.locked && h.checker == cw c 2 }))
    read := some {
      selectors := 0, ok := fun _ _ => true, get := fun c s =>
      let h := s.lane (cIdx c)
      w1 h.generator ++ w1 h.checker } }
/-- LANE_PRBS_SET: sets a lane's pattern generator and checker. -/
def execLanePrbsSet (c : Cmd) (s : State) : Res := runOp specLanePrbsSet c s
/-- LANE_PRBS_STATUS (R283). -/
def specLanePrbsStatus : OpSpec :=
  { code := 0x314, len := lenIs 1, target := tgtKind 3 384
    eff := .now (fun c s => let h := s.lane (cIdx c)
      (s, [Config.prbsPatternWord h.generator h.checker] ++ w1 (b2n h.locked))) }
/-- LANE_PRBS_STATUS: returns patterns and checker lock. -/
def execLanePrbsStatus (c : Cmd) (s : State) : Res := runOp specLanePrbsStatus c s
/-- A lane's receiver may get its checker's pattern: from its partner, or looped back from its own generator (Table 9.6). -/
def State.patternHeard (s : State) (l : Nat) : Bool :=
  match s.laneInput l with
  | .partner => true
  | .own d => d == .pattern (s.lane l).checker
/-- PRBS_CHECKER_LOCK: 64 consecutive symbols agree with the predicted sequence (R283). -/
def execPrbsCheckerLock (l : Fin 384) (s : State) : Res :=
  let h := s.lane l
  if h.checker ≠ 0 ∧ !h.locked ∧ s.patternHeard l then
    .next (s.modLane l (fun h => { h with locked := true, lockedInside := true }))
  else .next s
/-- PRBS_CHECK_WINDOW: a window of 65,536 symbols with `symbols` of them in error and `bits` wrong bits while locked; more than one eighth
unlocks the checker (R283). Where lock came inside the window, the number of symbols after it is a free value (log entry 30). In
NEAR_PARALLEL, which stays on the chip, the generator's own pattern comes back without an error. -/
def execPrbsCheckWindow (l : Fin 384) (symbols bits : Nat) (s : State) : Res :=
  let h := s.lane l
  if h.checker ≠ 0 ∧ h.locked then
    let clean := h.loopback = 2 ∧ h.generator = h.checker
    let f := s.fresh
    let s := if h.lockedInside then f.2.modLane l (fun h => { h with lockedInside := false }) else s
    let s := (s.count .prbsBits .hostLane l (if h.lockedInside then 2 * (f.1 % 65537) else 131072)).count .prbsErr .hostLane l
      (if clean then 0 else bits)
    if 8192 < symbols ∧ ¬ clean then .next ((s.modLane l (fun h => { h with locked := false })).count .prbsLockLost .hostLane l 1)
    else .next s
  else .next s

/-! ### Port commands -/

/-- The settings of a port with no training parameter written yet (Tables 9.4, 13.5, R271, R288). -/
def Port.fresh (ty : Nat) (fast c2m : Bool) : Port :=
  { ty := ty, fast := fast, c2m := c2m, state := .disabled, fallbackUp := false, trainFixed := none, trainTimeout := 500
    fallbackEn := false, fallbackTx := [0, 0, 0, 0, 128, 0], trainHoldoff := 10, retrainHold := 50, retrainNext := none
    ffeNext := [0, 0, 0, 0, 128, 0], ffe := [0, 0, 0, 0, 128, 0]
    round := { attempts := 0, fixed := false, fallback := false, started := 0, timeout := 500, fallbackEn := false
               causes := [], firstLane := none, alignStart := 0, holdStart := 0, holdFor := 0 }
    lossAt := none, lossSignal := false, lossAlign := false, lastOutcome := 0, lastAttempts := 0, rxDelay := 0, txDelay := 0
    tap := { ptp := false, esmc := false, insertWait := 10, second := 0, accepted := (0, 0), dropped := (0, 0), queue := []
             lastDiscard := none, refused := false, sent := none }
    data := { mapper := [], grains := [], mapFault := false, egress := [], out := [], fault := false, cleanN := 0
              csfSeen := false, tapped := [], inserted := [] }
    cDegSet := 4294967, cDegClr := 2147484, degNext := none, present := [], reported := [], runs := [], fecSymbols := 0
    fecErrors := 0, ptp := .reset }
/-- Inserts a port in its place by lowest lane. -/
def insertPort (low : Nat) (p : Port) : List (Nat × Port) → List (Nat × Port)
  | [] => [(low, p)]
  | (k, q) :: r => if low < k then (low, p) :: (k, q) :: r else if low = k then (low, p) :: r else (k, q) :: insertPort low p r
/-- First calendar entry in use that names a port (R235). -/
def State.portEntry (s : State) (low : Nat) : Option Nat :=
  let names : Nat × Nat → Bool := fun x => let d := calDecode x.2; d.ty != 0 && d.port == low
  minIdx ((s.cal.active.find? names).map (·.1))
    (if s.swapPending.isSome then (s.cal.shadow.find? names).map (·.1) else none)
/-- Refusals of PORT_SET in the order of its row (R265, R235). -/
def portSetRefusal (s : State) (c : Cmd) : Option (Status × Nat) :=
  let low := cIdx c
  let n := laneCount (cw c 1) (cw c 2 == 0)
  let lanes := (List.range n).map (fun i => low + i)
  firstRefusal
    [ if n = 0 then some (.portInvalid, 0) else if low % n ≠ 0 then some (.portInvalid, 0) else none
    , (s.ports.find? (fun p => p.1 != low && (p.2.lanes p.1).any (fun l => lanes.contains l))).map
        (fun p => (.portOverlap, p.1))
    , (lanes.find? (fun l => (s.lane l).busy)).map (fun l => (.laneBusy, l))
    , if (s.port? low).any (fun p => p.state != .disabled) then some (.portInService, low) else none
    , if (s.port? low).any (fun p => p.ty != cw c 1) then (s.portEntry low).map (fun i => (.calendarInUse, i)) else none ]
/-- PORT_SET (R265). -/
def specPortSet : OpSpec :=
  { code := 0x300, len := lenIs 4, target := tgtKind 4 384, ranges := [rngU 1 0 4, rngU 2 0 1, rngU 3 0 1]
    refuse := portSetRefusal
    eff := .now (fun c s =>
      let low := cIdx c
      let p := match s.port? low with
        | some p => { p with ty := cw c 1, fast := cw c 2 == 0, c2m := cw c 3 == 1, data := (Port.fresh 0 false false).data }
        | none => Port.fresh (cw c 1) (cw c 2 == 0) (cw c 3 == 1)
      ({ s with ports := insertPort low p s.ports }, []))
    read := some {
      selectors := 0, ok := fun _ _ => true, get := fun c s =>
      match s.port? (cIdx c) with
      | some p => w1 p.ty ++ w1 (b2n !p.fast) ++ w1 (b2n p.c2m)
      | none => w1 0 ++ w1 0 ++ w1 0 } }
/-- PORT_SET: defines a client port. -/
def execPortSet (c : Cmd) (s : State) : Res := runOp specPortSet c s
/-- PORT_DELETE (R265, R235): the port's bandwidth window in progress ends with it (R465), and what it reported is cleared (R388). -/
def specPortDelete : OpSpec :=
  { code := 0x301, len := lenIs 1, target := tgtPort
    refuse := fun s c =>
      if (s.port? (cIdx c)).any (fun p => p.state != .disabled) then some (.portInService, cIdx c)
      else (s.portEntry (cIdx c)).map (fun i => (.calendarInUse, i))
    eff := .now (fun c s =>
      let s := s.bwDiscard (cIdx c)
      let s := clientDefects.foldl (fun s d =>
        if (s.port? (cIdx c)).any (fun p => p.reported.contains d) then s.defectChange .port (cIdx c) (clientOrd d) false else s) s
      ({ s with ports := s.ports.filter (fun p => p.1 != cIdx c) }, [])) }
/-- PORT_DELETE: deletes a DISABLED port. -/
def execPortDelete (c : Cmd) (s : State) : Res := runOp specPortDelete c s
/-- PORT_ENABLE at its boundary: from DISABLED or TEST a round starts; diagnostics of a port in TEST stop. -/
def applyPortEnable (c : Cmd) (s : State) : State :=
  match s.port? (cIdx c) with
  | some p => if p.state = .disabled then s.startRound (cIdx c)
    else if p.state = .test then (s.stopDiagnostics (cIdx c)).startRound (cIdx c) else s
  | none => s
/-- A change of the port's state that waits for a boundary is replaced by a command that changes it at once (R44). -/
def State.dropPortChange (c : Cmd) (s : State) : State :=
  s.cancelArmed (fun a => a.key == keyOf 0x302 c) .superseded c.tag.val
/-- PORT_ENABLE (R266, Table 9.7): PORT_ENABLE and PORT_TEST change one resource, the state of the port (R44). -/
def specPortEnable : OpSpec :=
  { code := 0x302, len := lenIs 1, target := tgtPort, eff := .boundary 0x302 applyPortEnable }
/-- PORT_ENABLE: starts a round from DISABLED or TEST. -/
def execPortEnable (c : Cmd) (s : State) : Res := runOp specPortEnable c s
/-- PORT_DISABLE (R266). -/
def specPortDisable : OpSpec :=
  { code := 0x303, len := lenIs 1, target := tgtPort
    eff := .now (fun c s => ((((s.dropPortChange c).endRound (cIdx c)).stopDiagnostics (cIdx c)).modPort (cIdx c) (fun p => { p with
      state := .disabled, fallbackUp := false, lossAt := none, lossSignal := false, lossAlign := false }), [])) }
/-- PORT_DISABLE: moves a port to DISABLED. -/
def execPortDisable (c : Cmd) (s : State) : Res := runOp specPortDisable c s
/-- PORT_RESTART (R277). -/
def specPortRestart : OpSpec :=
  { code := 0x304, len := lenIs 1, target := tgtPort
    refuse := fun s c => if (s.port? (cIdx c)).any (fun p => p.state == .disabled || p.state == .test) then some (.mode, 0) else none
    eff := .now (fun c s => (((s.dropPortChange c).endRound (cIdx c)).startRound (cIdx c), [])) }
/-- PORT_RESTART: starts a new round at once. -/
def execPortRestart (c : Cmd) (s : State) : Res := runOp specPortRestart c s
/-- PORT_TEST at its boundary: a round in progress ends, and lanes that were not running start (R263, R280). -/
def applyPortTest (c : Cmd) (s : State) : State :=
  match s.port? (cIdx c) with
  | none => s
  | some p =>
    let idle := (p.lanes (cIdx c)).filter (fun l => !s.laneRuns l)
    let s := (s.endRound (cIdx c)).modPort (cIdx c) (fun p => { p with
      state := .test, fallbackUp := false, lossAt := none, lossSignal := false, lossAlign := false })
    idle.foldl (fun s l => s.laneStart l) s
/-- PORT_TEST (R280). -/
def specPortTest : OpSpec :=
  { code := 0x305, len := lenIs 1, target := tgtPort, eff := .boundary 0x302 applyPortTest }
/-- PORT_TEST: moves a port to TEST. -/
def execPortTest (c : Cmd) (s : State) : Res := runOp specPortTest c s
/-- The six taps from word k on, c(−4) first, two to a word. -/
def ffeTaps (c : Cmd) (k : Nat) : List Int :=
  (List.range 6).map (fun i => sx 16 (field (cw c (k + i / 2)) (if i % 2 = 0 then 16 else 0) 16))
/-- Six taps as three words. -/
def ffeWords (l : List Int) : List Word := pair16' (l.getD 0 0) (l.getD 1 0) ++ pair16' (l.getD 2 0) (l.getD 3 0) ++ pair16' (l.getD 4 0) (l.getD 5 0)
where pair16' (a b : Int) : List Word := w1 (ux 16 a * 65536 + ux 16 b)
/-- Values of a port's setting. -/
def readPort (f : Port → List Word) : Option ReadBack :=
  some { selectors := 0, ok := fun _ _ => true, get := fun c s => match s.port? (cIdx c) with | some p => f p | none => [] }
/-- PORT_TRAIN_SET (Table 9.4). The read gives the values of a round, an attempt or a stay in HOLDOFF in progress, not those that wait for
the next (R427); with none in progress, the values it would take (DEDUCED, log entry 30). -/
def specPortTrainSet : OpSpec :=
  { code := 0x306, len := lenIs 9, target := tgtPort
    ranges := [rngU 1 0 1, rngU 2 100 5000, rngU 3 0 1, rngU 7 0 600, rngU 8 10 1000]
    refuse := fun _ c => if ffeOk (ffeTaps c 4) then none else some (.coefficientInvalid, 4)
    eff := .now (fun c s => (s.modPort (cIdx c) (fun p => { p with
      trainFixed := some (cw c 1 == 1), trainTimeout := cw c 2, fallbackEn := cw c 3 == 1, fallbackTx := ffeTaps c 4
      trainHoldoff := cw c 7, retrainNext := some (cw c 8) }), []))
    read := readPort (fun p =>
      let round := p.state == .training || p.state == .aligning
      w1 (b2n (if round then p.round.fixed else p.trainFixed.getD p.c2m))
      ++ w1 (if p.state = .training then p.round.timeout else p.trainTimeout)
      ++ w1 (b2n (if round then p.round.fallbackEn else p.fallbackEn))
      ++ ffeWords (if p.round.fallback && (p.state == .aligning || p.state == .up) then p.ffe else p.fallbackTx)
      ++ w1 (if p.state = .holdoff then p.round.holdFor else p.trainHoldoff) ++ w1 p.retrainHold) }
/-- PORT_TRAIN_SET: sets training parameters. -/
def execPortTrainSet (c : Cmd) (s : State) : Res := runOp specPortTrainSet c s
/-- What a tick boundary does to a port's own settings: RETRAIN_HOLD as commanded (Table 9.4). -/
def Port.boundary (p : Port) : Port := { p with retrainHold := p.retrainNext.getD p.retrainHold, retrainNext := none }
/-- PORT_TX_FFE (R271): the taps for the next start of the port. -/
def specPortTxFfe : OpSpec :=
  { code := 0x307, len := lenIs 4, target := tgtPort
    refuse := fun _ c => if ffeOk (ffeTaps c 1) then none else some (.coefficientInvalid, 1)
    eff := .now (fun c s => (s.modPort (cIdx c) (fun p => { p with ffeNext := ffeTaps c 1 }), [])) }
/-- PORT_TX_FFE: sets transmit FFE taps. -/
def execPortTxFfe (c : Cmd) (s : State) : Res := runOp specPortTxFfe c s
/-- PORT_DEFECT_SET (Table 13.5). -/
def specPortDefectSet : OpSpec :=
  { code := 0x309, len := lenIs 3, target := tgtPort, ranges := [rngU 1 4295 42949672, rngU 2 4295 42949672]
    refuse := fun _ c => if cw c 1 ≤ cw c 2 then some (.parameterInvalid, 2) else none
    eff := .now (fun c s => (s.modPort (cIdx c) (fun p => { p with degNext := some (cw c 1, cw c 2) }), []))
    read := readPort (fun p => w1 p.cDegSet ++ w1 p.cDegClr) }
/-- PORT_DEFECT_SET: sets C_DEG_SET and C_DEG_CLR. -/
def execPortDefectSet (c : Cmd) (s : State) : Res := runOp specPortDefectSet c s
/-- PORT_STATUS (R266, R270, R279). -/
def specPortStatus : OpSpec :=
  { code := 0x30A, len := lenIs 1, target := tgtPort
    eff := .now (fun c s => match s.port? (cIdx c) with
      | some p => (s, [Config.portStateWord p.state.code p.fallbackUp] ++ w1 (bitmapOf (p.present.map clientOrd))
          ++ w1 (bitmapOf (p.reported.map clientOrd)) ++ wi p.rxDelay ++ wi p.txDelay
          ++ [Config.portResultWord p.lastOutcome p.lastAttempts])
      | none => (s, [])) }
/-- PORT_STATUS: returns port state, defects and delays. -/
def execPortStatus (c : Cmd) (s : State) : Res := runOp specPortStatus c s

/-! ### The client PCS (R285, R286) -/

/-- Codewords that carry a group of 257-bit blocks together, and the alignment-marker blocks that a group may begin with, by client type
(Table 9.8): the manual names the standards' PCS and gives neither number. PRESUMED (log entry 30). -/
def pcsWords (ty : Nat) : Nat := [1, 2, 2, 4, 4].getD ty 1
/-- Blocks of the alignment markers. -/
def pcsMarkers (ty : Nat) : Nat := [5, 4, 8, 16, 16].getD ty 0
/-- An RS(544,514) codeword is corrected up to 15 symbol errors. -/
def rsCorrects (errors : Nat) : Bool := decide (errors ≤ 15)
end Sys2Proof.Machine
namespace Sys2Proof
open Sys2Proof.Machine
/-- The blocks a group gives the port (R286): its markers removed, and every one an error block where a codeword is left uncorrected. The
group holds 20 blocks for each of its codewords. -/
def FecGroup.decoded (ty : Nat) (g : FecGroup) : List (Option (BitVec 257)) :=
  let sent := g.blocks.take (20 * pcsWords ty)
  (if g.marked then sent.drop (pcsMarkers ty) else sent).map (fun b => if (g.errors.take (pcsWords ty)).all rsCorrects then some b else none)
/-- The blocks of a tick after PCS decode. -/
def ClientObs.blocks (ty : Nat) (o : ClientObs) : List (Option (BitVec 257)) := (o.groups.map (FecGroup.decoded ty)).flatten
/-- Symbol errors of the codewords of a tick. -/
def ClientObs.words (o : ClientObs) : List Nat := (o.groups.map (·.errors)).flatten
/-- Codewords of a tick, those corrected, and those left uncorrected. -/
def ClientObs.fecWords (o : ClientObs) : Nat := o.words.length
/-- Codewords that had errors and were corrected. -/
def ClientObs.fecCorr (o : ClientObs) : Nat := (o.words.filter (fun n => rsCorrects n && n != 0)).length
/-- Codewords left uncorrected. -/
def ClientObs.fecUncorr (o : ClientObs) : Nat := (o.words.filter (fun n => !rsCorrects n)).length
/-- Symbol errors corrected. -/
def ClientObs.fecErrors (o : ClientObs) : Nat := (o.words.filter rsCorrects).foldl (· + ·) 0
/-- RS-FEC symbols received. -/
def ClientObs.fecSymbols (o : ClientObs) : Nat := 544 * o.words.length
end Sys2Proof
namespace Sys2Proof.Machine

/-! ### The frame tap (R288 to R292) -/

/-- The TAI second of the present tick. -/
def State.taiSecond (s : State) : Int := s.taiAt s.tn / secondUnits
/-- The count of a class in a pair (PTP, ESMC). -/
def ofClass (esmc : Bool) (x : Nat × Nat) : Nat := if esmc then x.2 else x.1
/-- A pair with one class's count one higher. -/
def bumpClass (esmc : Bool) (x : Nat × Nat) : Nat × Nat := if esmc then (x.1, x.2 + 1) else (x.1 + 1, x.2)
/-- A recognised frame is dropped and counted (R290). -/
def State.tapDrop (port : Nat) (esmc : Bool) (s : State) : State :=
  (s.modPort port (fun p => { p with tap := { p.tap with dropped := bumpClass esmc p.tap.dropped } })).count .tapRxDrop .port port 1
/-- A new TAI second begins for a port's tap: where frames were dropped in the one before, TAP_RX_LIMIT is raised once with their class and
number (R290). DESIGN CHOICE (log entry 30): it comes at the second's end, with PTP as the class where both dropped frames. -/
def State.tapSecond (port : Nat) (s : State) : State :=
  match s.port? port with
  | none => s
  | some p =>
    if p.tap.second = s.taiSecond then s
    else
      let d := p.tap.dropped
      let s := s.modPort port (fun p => { p with tap := { p.tap with second := s.taiSecond, accepted := (0, 0), dropped := (0, 0) } })
      if d = (0, 0) then s else s.raise .tapRxLimit .port port (w1 (if d.1 = 0 then 1 else 0) ++ w1 (d.1 + d.2))
/-- The FCS of a frame is right. -/
def fcsOk (f fcs : List Octet) : Bool := fcs == octetsLE 4 (crc32 f)
/-- TAP_FRAME_RX: a frame and its FCS, in the blocks named by their places in the tick, reaches the tap `sub` after the tick's start. One
that is recognised is removed from the client stream, idle blocks taking its place, and passed to the firmware cores with its ingress
stamp at the lowest lane's land, unless its FCS is bad or a limit is reached (R288 to R290). -/
def execTapFrameRx (port : Fin 384) (octets fcs : List Octet) (blocks : List Nat) (sub : Nat) (s : State) : Res :=
  match s.port? port with
  | none => .next s
  | some p =>
    match p.tapClass octets with
    | none => .next s
    | some esmc =>
      if p.state ≠ .up ∨ !(if esmc then p.tap.esmc else p.tap.ptp) then .next s
      else
        let stamp := s.taiAt s.tn + sub - p.rxDelay
        let s := s.modPort port (fun p => { p with data := { p.data with tapped := p.data.tapped ++ blocks } })
        if !fcsOk octets fcs then .next (s.count .tapFcsErr .port port 1)
        else
          let s := s.tapSecond port
          let t := match s.port? port with | some p => p.tap.accepted | none => (0, 0)
          if 512 ≤ ofClass esmc t ∨ 1024 ≤ (s.htile (port / 96)).waiting.length then .next (s.tapDrop port esmc)
          else .next ((s.modPort port (fun p => { p with tap := { p.tap with accepted := bumpClass esmc p.tap.accepted } })).modHtile
            (port / 96) (fun h => { h with waiting := h.waiting ++ [(port.val, esmc, octets, stamp)] }))
/-- Queues an outbound frame at a port's tap; a full queue refuses it with the queue-full status (R291). -/
def State.tapQueue (port : Nat) (f : OutFrame) (s : State) : State :=
  s.modPort port (fun p => if p.tap.queue.length < 16 then { p with tap := { p.tap with queue := p.tap.queue ++ [f], refused := false } }
    else { p with tap := { p.tap with refused := true } })
/-- A PTP timestamp: 48 bits of seconds and 32 of nanoseconds. -/
def ptpStamp (t : Int) : List Octet := octetsBE 6 (ux 48 (t / secondUnits)) ++ octetsBE 4 ((t % secondUnits).toNat / 65536)
/-- Octets with others written from a place on. -/
def overwrite (l : List Octet) (k : Nat) (x : List Octet) : List Octet := l.take k ++ x ++ l.drop (k + x.length)
/-- TAP_INSERT_TIMEOUT: a frame that has waited longer than TAP_INSERT_WAIT is discarded (R291). -/
def execTapInsertTimeout (port : Fin 384) (s : State) : Res :=
  match s.port? port with
  | none => .next s
  | some p =>
    match p.tap.queue with
    | [] => .next s
    | f :: rest =>
      if p.tap.insertWait * 625 < (s.ticks - f.queuedAt) * 10 then
        let quiet := p.tap.lastDiscard.all (fun t => decide (t + 625000 < s.ticks))
        let s := (s.modPort port (fun p => { p with tap := { p.tap with queue := rest, lastDiscard := some s.ticks } })).count
          .tapTxDrop .port port 1
        .next (if quiet then s.raise .tapInsertTimeout .port port (w1 (if f.purpose = 5 then 1 else 0)) else s)
      else .next s

end Sys2Proof.Machine
end

