-- ==== Sys2Proof/Machine/TimeCore.lean ====
section
/-! DEFINITION. The Cheirte time core (R293 to R317): slews, steps, sources and their qualification, the servo and its states, PPS
and ToD, the Kennel counter, snapshots, and the tick epoch at first lock (R36, R37).
What it chooses or infers where the manual is silent, with its marks: log entry 29. -/
namespace Sys2Proof.Machine

/-! ### Times, sources, states -/

/-- Time core state codes (Table 10.8). -/
def TimeState.code : TimeState → Nat
  | .freerun => 0 | .acquiring => 1 | .locked => 2 | .holdover => 3
/-- Candidate state codes (TIME_STATUS). -/
def CandState.code : CandState → Nat
  | .disqualified => 0 | .qualifying => 1 | .qualified => 2
/-- A source in target-word form; all ones for none. -/
def TimeSrc.word : TimeSrc → Nat
  | .none => 0xFFFFFFFF
  | .pps n => targetNat .device n 0
  | .engine e => targetNat .engine e 0
  | .port p => targetNat .port p 0
/-- The selected source in target-word form. -/
def srcWord (o : Option TimeSrc) : Nat := (o.getD .none).word
/-- Seconds as ticks. -/
def secTicks : Nat := 625000
/-- TAI at the start of the present tick, in 2⁻¹⁶ ns. -/
def State.nowTai (s : State) : Int := s.taiAt s.tn
/-- FREQ_CTRL as read, in 0.001 ppb (R297). -/
def TimeCore.freqCtrl (t : TimeCore) : Int := roundDiv t.applied 1024
/-- TIME_UNCERT in 2⁻¹⁶ ns, grown by 50 ppm of the time since it was set while the core free-runs (R315). -/
def TimeCore.uncertNow (t : TimeCore) (now : Nat) : Int :=
  if t.state == .freerun || t.state == .holdover then t.uncert + roundDiv ((now - t.uncertAt : Nat) * tickUnits) 20000 else t.uncert
/-- Nanoseconds in 2⁻¹⁶ ns. -/
def nsUnits (n : Nat) : Int := (n : Int) * 65536
/-- Notes the applied frequency and the lock from this tick on; what is older than an hour and the latest entry before it are
kept, and with them the latest LOCKED entry (R308). -/
def TimeCore.note (t : TimeCore) (now : Nat) : TimeCore :=
  let lk := t.state == .locked
  match t.history with
  | (k, a, l) :: r =>
    if a = t.applied ∧ l = lk then t
    else if k = now then { t with history := (now, t.applied, lk) :: r }
    else
      let old := t.history.dropWhile (fun x => decide (now < x.1 + 3602 * secTicks))
      { t with history := (now, t.applied, lk) :: t.history.takeWhile (fun x => decide (now < x.1 + 3602 * secTicks)) ++ old.take 1
        ++ ((old.drop 1).find? (·.2.2)).toList }
  | [] => { t with history := [(now, t.applied, lk)] }
/-- Sum of applied values over the LOCKED part of a window, and the ticks of that part; `hi` is the end of the newest entry. -/
def lockedSum (lo : Nat) : Nat → List (Nat × Int × Bool) → Int × Nat
  | _, [] => (0, 0)
  | hi, (k, a, l) :: r =>
    let rest := lockedSum lo (min hi k) r
    let n := if l then hi - max lo k else 0
    (rest.1 + a * n, rest.2 + n)
/-- FREQ_CTRL to hold in HOLDOVER (R308): the mean over the LOCKED part of the HOLDOVER_AVG seconds that ended 2 s before now,
else the applied value at the last instant LOCKED. -/
def TimeCore.holdValue (t : TimeCore) (now : Nat) : Int :=
  let hi := now - 2 * secTicks
  let lo := hi - t.params.holdoverAvg * secTicks
  let x := lockedSum lo hi t.history
  if x.2 ≠ 0 then roundDiv x.1 x.2
  else match t.history.find? (fun h => h.2.2) with | some h => h.2.1 | none => t.applied
/-- FREQ_REF in force: a reference that is not qualified steers as SAME (R335). -/
def TimeCore.steering (t : TimeCore) : FreqRef :=
  match t.freq.ref with
  | .line e => if t.freq.qualified then .line e else .same
  | .synce p => if t.freq.qualified then .synce p else .same
  | r => r
/-- R335: the qualified frequency reference sets FREQ_TRACEABLE. -/
def State.freqRefTraceable (s : State) : Bool :=
  let f := s.time.freq
  f.qualified && match f.ref with
    | .line e => (s.eng e).rx.traceable
    | .synce p => match s.port? p with
      | some q => q.ptp.rxQl.any (fun x => x.1 == 2 || x.2.1 == 0x20 || x.2.1 == 0x21)
      | none => false
    | _ => false
/-- Brings TRACEABLE and FREQ_TRACEABLE to the rules of R309 and R335. -/
def State.refreshTrace (s : State) : State :=
  let t := s.time
  let locked := t.state == .locked
  let tr := !t.oscLost && (locked || (t.state == .holdover && t.traceable && t.traceUntil.any (fun u => decide (s.ticks < u))))
  let fr := !t.oscLost && (s.freqRefTraceable || locked || (t.state == .holdover && t.freqTraceable))
  { s with time := { t with traceable := tr, freqTraceable := fr } }
/-- Whether any engine carries traffic (R38). -/
def State.anyTraffic (s : State) : Bool := (List.range 48).any s.carries
/-- EPOCH_STATE becomes SET with TN as it stands: EPOCH_TAI is the tick offset (Table 1.3). -/
def State.epochInPlace (s : State) : State :=
  (({ s with tnProvisional := false } : State).modSettings (fun k => { k with epochSet := true, epochTai := s.tickOffset })).raise
    .tickEpochSet .device 0 []
/-- The next whole TAI second after the present tick's start. -/
def State.nextSecond (s : State) : Int := (s.nowTai / secondUnits + 1) * secondUnits
/-- A realignment decided now for the boundary at the next whole TAI second (R37): the first at which the core's time has reached it, as
the core's time runs at the decision. -/
def State.realignAt (k : RealignKind) (fromSet : Bool) (s : State) : Realign :=
  { kind := k, fromSet := fromSet, second := some s.nextSecond, decided := s.ticks
    dueAt := s.ticks + ((s.nextSecond - s.nowTai + tickUnits - 1) / tickUnits).toNat }
/-- The decision of Table 1.3 when the core first reaches lock, and for a provisional TN whenever it is locked and no engine
carries traffic. -/
def State.epochAtLock (first : Bool) (s : State) : State :=
  if !s.kennel.settings.epochSet then
    if !first then s
    else if s.anyTraffic then s.epochInPlace
    else { s with realign := some (s.realignAt .firstLock false) }
  else if s.tnProvisional && !s.anyTraffic && s.realign.isNone then
    { s with realign := some {
                           kind := .provisional, fromSet := true, second := none, decided := s.ticks,
                           dueAt := s.ticks + 1 } }
  else s
/-- The core changes state (R308): TIME_STATE, and what entry does. A slew ends on entry into HOLDOVER or FREERUN (R301). -/
def State.timeTo (st : TimeState) (s : State) : State :=
  let t := s.time
  if t.state == st then s
  else
    let idle := st == .freerun || st == .holdover
    let trace := t.traceable && st == .holdover && t.params.holdoverTrace != 0
    let t' : TimeCore := { t with
      state := st, uncert := t.uncertNow s.ticks, uncertAt := s.ticks
      slew := if idle then 0 else t.slew
      meas := if idle then none else t.meas
      prevMeas := if st == .locked then t.prevMeas else none, goodRun := 0, badRun := 0
      everLocked := t.everLocked || st == .locked
      demand := if st == .holdover && t.steering == .same then t.holdValue s.ticks else t.demand
      traceUntil := if trace then some (s.ticks + t.params.holdoverTrace * secTicks) else none
      traceable := t.traceable && (st == .locked || trace) }
    let s := ({ s with time := t'.note s.ticks } : State).raise .timeState .device 0 (w1 t.state.code ++ w1 st.code ++ w2 s.tn)
    let s := s.refreshTrace
    if st == .locked then s.epochAtLock (!t.everLocked) else s

/-! ### Candidates (R305, R306) -/

/-- Reasons of SOURCE_QUAL: the disqualifying conditions in the order of Table 10.2, then STEPPED, conditions met, QUAL_TIME
passed. -/
inductive QualReason where
  | missing | outsideGate | noSentence | flags | jump | condition | stepped | met | timePassed
  deriving DecidableEq, Repr
/-- Code of a qualification reason. -/
def QualReason.code : QualReason → Nat
  | .missing => 0 | .outsideGate => 1 | .noSentence => 2 | .flags => 3 | .jump => 4 | .condition => 5 | .stepped => 6
  | .met => 7 | .timePassed => 8
/-- The candidate of a source. -/
def State.cand? (s : State) (x : TimeSrc) : Option Candidate := s.time.candidates.find? (fun c => decide (c.src = x))
/-- Applies `f` to the candidate of a source. -/
def State.modCand (x : TimeSrc) (f : Candidate → Candidate) (s : State) : State :=
  s.modTime (fun t => { t with candidates := t.candidates.map (fun c => if c.src = x then f c else c) })
/-- The quality of the selected source, as Table 10.5 takes it. -/
def State.sourceQuality (s : State) : TimeSrc → Quality
  | .engine e =>
    let r := (s.eng e).rx
    { clockClass := r.clockClass, accuracy := r.clockAccuracy, variance := r.offsetVariance, steps := r.stepsRemoved + 1 }
  | .port p => match (s.port? p).bind (·.ptp.parent) with
    | some a => { a.quality with steps := a.quality.steps + 1 }
    | none => s.time.quality
  | _ => s.time.quality
/-- The quality the device advertises (Table 10.5). -/
def State.quality (s : State) : Quality :=
  let t := s.time
  let last := t.lastSteps
  match t.state with
  | .locked => match t.selected with | some x => s.sourceQuality x | none => t.quality
  | .holdover => { clockClass := if t.traceable then 135 else 165, accuracy := 0xFE, variance := 0xFFFF, steps := last }
  | .acquiring =>
    if t.everLocked then { clockClass := 165, accuracy := 0xFE, variance := 0xFFFF, steps := last }
    else { clockClass := 248, accuracy := 0xFE, variance := 0xFFFF, steps := 0 }
  | .freerun => { clockClass := 248, accuracy := 0xFE, variance := 0xFFFF, steps := 0 }
/-- The STEPS_REMOVED advertised in LOCKED is kept as the core leaves it (Table 10.5). -/
def State.keepSteps (s : State) : State :=
  if s.time.state == .locked then s.modTime (fun t => { t with lastSteps := s.quality.steps }) else s
/-- The selected source changes: TIME_SOURCE_CHANGE, and ACQUIRING, or with none HOLDOVER or FREERUN (R306, Table 10.4). -/
def State.selectSource (x : Option TimeSrc) (s : State) : State :=
  let old := s.time.selected
  if old = x then s
  else
    let q := s.quality
    let s := s.keepSteps.modTime (fun t => { t with
      selected := x, quality := if t.state == .locked then q else t.quality, prevMeas := none, goodRun := 0, badRun := 0, meas := none })
    let s := s.raise .timeSourceChange .device 0 (w1 (srcWord old) ++ w1 (srcWord x) ++ w2 s.tn)
    if x.isSome then s.timeTo .acquiring
    else if s.time.candidates.isEmpty then s.timeTo .freerun
    else s.timeTo (if s.time.everLocked then .holdover else .freerun)
/-- The choice of R306: the selected source is kept while QUALIFIED, but gives way, with REVERTIVE set, to a QUALIFIED candidate of
higher priority that has stayed so for WTR_TIME; without it the highest QUALIFIED candidate is taken at once. -/
def State.reselect (s : State) : State :=
  let t := s.time
  let good := t.candidates.filter (fun c => c.st == .qualified)
  let keep := t.selected.any (fun x => good.any (fun c => decide (c.src = x)))
  if keep then
    let above := t.candidates.takeWhile (fun c => decide (some c.src ≠ t.selected))
    match above.find? (fun c => c.st == .qualified && t.params.revertive == 1
        && decide (c.qualifiedAt + c.wtr * secTicks ≤ s.ticks)) with
    | some c => s.selectSource (some c.src)
    | none => s
  else s.selectSource (good.head?.map (·.src))
/-- A change of a candidate's state: SOURCE_QUAL, then the choice of source. -/
def State.qualify (x : TimeSrc) (st : CandState) (why : QualReason) (s : State) : State :=
  match s.cand? x with
  | none => s
  | some c =>
    if c.st == st then s
    else
      let s := s.modCand x (fun c => { c with
        st := st, since := s.ticks, qualifiedAt := if st == .qualified then s.ticks else c.qualifiedAt
        qualTime := if st == .qualifying then s.time.params.qualTime else c.qualTime
        wtr := if st == .qualifying then s.time.params.wtr else c.wtr })
      (s.raise .sourceQual .device 0 (w1 x.word ++ w1 st.code ++ w1 why.code)).reselect
/-- A disqualifying condition of a candidate. -/
def State.disqualify (x : TimeSrc) (why : QualReason) (s : State) : State := s.qualify x .disqualified why
/-- A sentence with STEPPED set: a QUALIFYING or QUALIFIED candidate returns to QUALIFYING and QUAL_TIME starts again, with the reason
STEPPED (R314). -/
def State.restartCand (x : TimeSrc) (s : State) : State :=
  match s.cand? x with
  | some c =>
    if c.st == .disqualified then s
    else ((s.modCand x (fun c => { c with
      st := .qualifying, since := s.ticks, qualTime := s.time.params.qualTime, wtr := s.time.params.wtr })).raise .sourceQual .device 0
        (w1 x.word ++ w1 CandState.qualifying.code ++ w1 QualReason.stepped.code)).reselect
  | none => s
/-- A break in the conditions of a QUALIFYING candidate restarts QUAL_TIME. -/
def State.breakCand (x : TimeSrc) (s : State) : State :=
  s.modCand x (fun c => if c.st == .qualifying then { c with since := s.ticks } else c)
/-- All conditions of a candidate are met: DISQUALIFIED becomes QUALIFYING. -/
def State.meets (x : TimeSrc) (s : State) : State :=
  match s.cand? x with
  | some c => if c.st == .disqualified then s.qualify x .qualifying .met else s
  | none => s
/-- SOURCE_QUALIFIED: candidate `i` has met its conditions for QUAL_TIME without a break. -/
def execSourceQualified (i : Fin 4) (s : State) : Res :=
  match s.time.candidates[i.val]? with
  | some c =>
    if c.st = .qualifying ∧ c.since + c.qualTime * secTicks ≤ s.ticks then .next (s.qualify c.src .qualified .timePassed)
    else .next s
  | none => .next s
/-- WTR_EXPIRY: WTR_TIME of a higher-priority QUALIFIED candidate has passed; the choice is made again. -/
def execWtrExpiry (s : State) : Res := .next s.reselect

/-! ### Leap seconds and UTC (R294, R295) -/

/-- UTC_OFFSET and the leap values change: Kennel, and UTC_CHANGE with old and new values and the origin: 0 command, 1 PPS source,
2 PTP source, 3 leap. -/
def State.utcTo (off dir : Int) (leapAt origin : Nat) (s : State) : State :=
  let k := s.kennel.settings
  if k.utcOffset = off ∧ k.leapAt = leapAt ∧ k.leapDir = dir then s
  else
    (s.modSettings (fun k => { k with utcOffset := off, leapAt := leapAt, leapDir := dir })).raise .utcChange .device 0
      (wi k.utcOffset ++ wi k.leapDir ++ w2 k.leapAt ++ wi off ++ wi dir ++ w2 leapAt ++ w1 origin)
/-- A leap that is due takes effect (R294). -/
def State.leapDue (s : State) : State :=
  let k := s.kennel.settings
  if k.leapAt ≠ 0 ∧ (k.leapAt : Int) * secondUnits ≤ s.nowTai then
    (s.raise .leapApplied .device 0 (wi (k.utcOffset + k.leapDir))).utcTo (k.utcOffset + k.leapDir) k.leapDir 0 3
  else s
/-- LEAP_APPLIED: the first tick boundary at or after the start of TAI second LEAP_AT. -/
def execLeapApplied (s : State) : Res := .next s.leapDue
/-- UTC values from a QUALIFIED selected source, taken with UTC_SOURCE FROM_SOURCE. -/
def State.utcFrom (x : TimeSrc) (off dir : Int) (leapAt origin : Nat) (s : State) : State :=
  if s.time.params.utcSource = 1 ∧ s.time.selected = some x ∧ (s.cand? x).any (fun c => c.st == .qualified) then
    s.utcTo off (if leapAt = 0 then s.kennel.settings.leapDir else dir) leapAt origin
  else s

/-! ### Slews, steps and the servo (R300 to R307) -/

/-- Largest slew per tick in 2⁻¹⁶ ns: SLEW_MAX × 1.6 µs, rounded down to the unit of TICK_OFFSET. -/
def slewPerTick (slewMax : Nat) : Int := (slewMax : Int) * tickUnits / 100000000
/-- The slew increment of a tick boundary (R301). -/
def State.slewStep (s : State) : State :=
  let t := s.time
  if t.slew = 0 then s
  else
    let d := clampI (-(slewPerTick t.params.slewMax)) (slewPerTick t.params.slewMax) t.slew
    { s with tickOffset := s.tickOffset + d, time := { t with slew := t.slew - d } }
/-- ±50 ppm in 1/1,024 of 0.001 ppb. -/
def freqMax : Int := 51200000000
/-- The frequency step of a tick boundary (R297), held while OCXO_IN is lost or the timebase relocks. -/
def State.freqStep (s : State) : State :=
  let t := s.time
  if t.oscLost || t.relockAt.isSome then s
  else
    let goal := clampI (-freqMax) freqMax t.demand
    if goal = t.applied then s
    else { s with time := { t with applied := t.applied + clampI (-163) 163 (goal - t.applied) }.note s.ticks }
/-- The judgement of a demand at a measurement expected every `interval` ticks (R297). -/
def State.freqJudge (interval : Nat) (s : State) : State :=
  let t := s.time
  let out := decide (freqMax < t.demand.natAbs)
    || decide (102400000 * (interval : Int) < ((t.demand - t.applied).natAbs : Int) * 625000)
  if out then
    let tell := !t.freqLimit && t.limitClearedAt.all (fun k => decide (k + secTicks ≤ s.ticks))
    let s := s.modTime (fun t => { t with freqLimit := true })
    if tell then s.raise .freqLimited .device 0 (wi (roundDiv t.demand 1024) ++ wi t.freqCtrl) else s
  else if t.freqLimit then s.modTime (fun t => { t with freqLimit := false, limitClearedAt := some s.ticks })
  else s
/-- Instants kept in core time move with a step of `d`. -/
def TimeCore.moved (t : TimeCore) (d : Int) : TimeCore :=
  { t with
    pps := t.pps.map (fun p => { p with last := p.last.map (· + d), missedAt := p.missedAt.map (· + d) })
    tod := t.tod.map (fun q => { q with last := q.last.map (fun x => (x.1, x.2 + d))
                                        waiting := q.waiting.map (fun x => (x.1, x.2 + d)) }) }
/-- The second from which an output emits after a step: a whole second that the step crosses is not emitted, and one that was
emitted is not repeated by a step back of less than a second (R303). -/
def outAfterStep (old new : Int) : Int := if new < old ∧ old - new ≤ 1 then old else new
/-- A step of TICK_OFFSET by `d`: TIME_STEP, STEPPED, the outputs' seconds and the one their waiting settings apply from, the leap it
crosses, and void intervals of line time transfer (R302, R303, R294, R324). -/
def State.stepBy (d : Int) (s : State) : State :=
  let s : State := { s with tickOffset := s.tickOffset + d, time := s.time.moved d }
  let now := s.nowTai
  let s := s.modTime (fun t => { t with
    slew := 0, todOut := { t.todOut with stepped := true, second := outAfterStep t.todOut.second (now / secondUnits) }
    ppsOut := t.ppsOut.map (fun o => { o with second := outAfterStep o.second ((now + o.cfg.delay) / secondUnits)
                                              next := o.next.map (fun x => (x.1, min x.2 (now / secondUnits + 1))) }) })
  let s : State := { s with engines := s.engines.map (fun g => { g with ltt := { g.ltt with voidNow := true } }) }
  (s.raise .timeStep .device 0 (wi2 d ++ w2 s.tn)).leapDue
/-- A step decided in an earlier tick is made. -/
def State.stepNow (s : State) : State :=
  match s.time.stepDue with
  | some e => if s.time.measAt < s.ticks then (s.modTime (fun t => { t with stepDue := none })).stepBy (-e) else s
  | none => s
/-- TIME_STEP: a decided step is made at the first tick boundary after the decision. -/
def execTimeStep (s : State) : Res := .next s.stepNow
/-- Expected interval of a source in ticks (R297). -/
def State.expected (s : State) : TimeSrc → Nat
  | .engine e => (s.eng e).ltt.interval
  | .port p => match s.port? p with | some q => secTicks / 2 ^ (-q.ptp.cfg.meas).toNat | none => secTicks
  | _ => secTicks
/-- Whether a step is allowed (R302). -/
def TimeCore.mayStep (t : TimeCore) : Bool :=
  match t.params.stepPolicy with
  | 0 => t.state == .acquiring || t.state == .locked
  | 1 => t.state == .acquiring && !t.everLocked
  | _ => false
/-- TIME_MEASUREMENT: the servo runs on the measurement a source delivered (R307), then the state moves (R308). -/
def execTimeMeasurement (s : State) : Res :=
  match s.time.meas with
  | none => .next s
  | some (x, e) =>
    let t := s.time
    let s := s.modTime (fun t => { t with meas := none })
    if t.selected ≠ some x ∨ !(t.state == .acquiring || t.state == .locked) then .next s
    else
      let big := decide (nsUnits t.params.stepThresh < e.natAbs)
      let step := big && t.mayStep
      let demand := match t.prevMeas with
        | some k => if t.steering = .same ∧ k < s.ticks then
            t.demand - roundDiv (e * 1024000000000000) ((2 ^ t.params.ki * ((s.ticks - k : Nat) * tickUnits).toNat))
          else t.demand
        | none => t.demand
      let q := s.sourceQuality x
      let s := s.modTime (fun t => { t with
        slew := if step then 0 else -e, stepDue := if step then some e else none, demand := demand
        beforeStep := (t.prevMeas, t.goodRun, t.badRun, t.demand)
        prevMeas := some s.ticks, measAt := s.ticks, timeValid := true, uncert := e.natAbs, uncertAt := s.ticks, quality := q })
      let s := if t.steering = .same ∨ t.steering = .free then s.freqJudge (s.expected x) else s
      if t.state = .acquiring then
        let run := if (e.natAbs : Int) ≤ nsUnits t.params.lockPhase ∧ !s.time.freqLimit then t.goodRun + 1 else 0
        let s := s.modTime (fun t => { t with goodRun := run })
        .next (if run = 16 then s.timeTo .locked else s)
      else
        let run := if 4 * nsUnits t.params.lockPhase < e.natAbs then t.badRun + 1 else 0
        let s := s.modTime (fun t => { t with badRun := run })
        .next (if run = 4 then s.keepSteps.timeTo .acquiring else s)
/-- HOLDOVER_TRACE_EXPIRY: HOLDOVER_TRACE seconds after entry into HOLDOVER have passed (R309). -/
def execHoldoverTraceExpiry (s : State) : Res :=
  if s.time.traceUntil.any (fun u => decide (u ≤ s.ticks)) then
    .next (s.modTime (fun t => { t with traceUntil := none })).refreshTrace
  else .next s

/-! ### PPS inputs (R310) -/

/-- PPS_IN input n. -/
def State.ppsIn (s : State) (n : Nat) : PpsIn := vget s.time.pps n PpsIn.reset
/-- Applies `f` to a PPS input. -/
def State.modPps (n : Nat) (f : PpsIn → PpsIn) (s : State) : State := s.modTime (fun t => { t with pps := vmod t.pps n f })
/-- TOD_IN input n. -/
def State.todIn (s : State) (n : Nat) : TodIn := vget s.time.tod n TodIn.reset
/-- Applies `f` to a ToD input. -/
def State.modTod (n : Nat) (f : TodIn → TodIn) (s : State) : State := s.modTime (fun t => { t with tod := vmod t.tod n f })
/-- The gate applies: the candidate is selected, and the core is neither FREERUN nor ACQUIRING before its first measurement. -/
def State.gated (s : State) (n : Nat) : Bool :=
  let t := s.time
  decide (t.selected = some (.pps n)) && t.state != .freerun && !(t.state == .acquiring && t.prevMeas.isNone)
/-- The whole second nearest to an instant, in 2⁻¹⁶ ns. -/
def nearestSecond (t : Int) : Int := (t + secondUnits / 2) / secondUnits * secondUnits
/-- STAT flags of a sentence: TIME_VALID and TRACEABLE both set. -/
def Sentence.good (x : Sentence) : Bool := bit x.stat 7 && bit x.stat 6
/-- PPS_IN_PULSE: an edge at a PPS input, `sub` after the start of the present tick in 2⁻¹⁶ ns. -/
def execPpsInPulse (n : Fin 2) (sub : Nat) (s : State) : Res :=
  let p := s.ppsIn n
  let x := TimeSrc.pps n
  let stamp := s.nowTai + sub + p.delay
  let out := s.gated n && decide (nsUnits p.gate < (stamp - nearestSecond stamp).natAbs)
  let said := match (s.todIn n).waiting with
    | some (y, at_) => if ((stamp - at_).natAbs : Int) * 2 < secondUnits then some y else none
    | none => none
  let s := s.modTod n (fun q => { q with windowed := true, waiting := none })
  let silent := if said.isSome then 0 else p.silentRun + 1
  if out then
    let s := (s.modPps n (fun p => { p with last := some stamp, outRun := p.outRun + 1, missRun := 0, silentRun := silent })).count
      .ppsOutliers .device n 1
    let s := s.breakCand x
    .next (if 3 ≤ p.outRun + 1 then s.disqualify x .outsideGate else if 3 ≤ silent then s.disqualify x .noSentence else s)
  else
    let s := s.modPps n (fun p => { p with last := some stamp, outRun := 0, missRun := 0, silentRun := silent })
    match said with
    | none =>
      let s := s.breakCand x
      .next (if 3 ≤ silent then s.disqualify x .noSentence else s)
    | some y =>
      let s := if y.good then s.meets x else s
      if s.time.selected = some x then
        .next (s.modTime (fun t => { t with meas := some (x, stamp - (y.sec : Int) * secondUnits), quality := y.quality }))
      else .next s
/-- PPS_MISSING: no edge has come by PPS_GATE after the expected instant. -/
def execPpsMissing (n : Fin 2) (s : State) : Res :=
  let p := s.ppsIn n
  match p.last with
  | none => .next s
  | some last =>
    let until_ := s.taiAt (s.tn + 1) - nsUnits p.gate
    let due := if s.gated n then until_ / secondUnits * secondUnits else last + (until_ - last) / secondUnits * secondUnits
    let seen := ((due - last).natAbs : Int) * 2 < secondUnits
    if due ≤ last ∨ seen ∨ p.missedAt.any (fun m => decide (((due - m).natAbs : Int) * 2 < secondUnits)) then .next s
    else
      let named := (s.todIn n).waiting.any (fun w => decide (((due - w.2).natAbs : Int) * 2 < secondUnits))
      let silent := if named then 0 else p.silentRun + 1
      let s := if named then s.modTod n (fun q => { q with waiting := none }) else s
      let s := (s.modPps n (fun p => { p with missedAt := some due, missRun := p.missRun + 1, silentRun := silent })).breakCand (.pps n)
      .next (if 2 ≤ p.missRun + 1 then s.disqualify (.pps n) .missing
        else if 3 ≤ silent then s.disqualify (.pps n) .noSentence else s)

/-! ### ToD sentences (R312 to R314) -/

/-- ASCII code of a digit. -/
def digitOf (o : Octet) : Option Nat := if 48 ≤ o.toNat ∧ o.toNat ≤ 57 then some (o.toNat - 48) else none
/-- Value of an uppercase hex digit. -/
def hexOf (o : Octet) : Option Nat :=
  if 48 ≤ o.toNat ∧ o.toNat ≤ 57 then some (o.toNat - 48)
  else if 65 ≤ o.toNat ∧ o.toNat ≤ 70 then some (o.toNat - 55) else none
/-- A number of digits in a base, with every digit valid. -/
def numOf (base : Nat) (f : Octet → Option Nat) (l : List Octet) : Option Nat :=
  l.foldl (fun n o => match n, f o with | some n, some d => some (base * n + d) | _, _ => none) (some 0)
/-- Decimal digits, lo to hi of them, with no leading zero. -/
def decField (hi : Nat) (l : List Octet) : Option Nat :=
  if l.length = 0 ∨ hi < l.length ∨ (1 < l.length ∧ l.head? = some 48) then none else numOf 10 digitOf l
/-- Exactly n uppercase hex digits. -/
def hexField (n : Nat) (l : List Octet) : Option Nat := if l.length = n then numOf 16 hexOf l else none
/-- A sign and 1 to `hi` digits. -/
def signField (hi : Nat) : List Octet → Option (Int × Nat)
  | 43 :: r => (decField hi r).map (fun n => (1, n))
  | 45 :: r => (decField hi r).map (fun n => (-1, n))
  | _ => none
/-- A list split at every element equal to `c`. -/
def splitAt (c : Octet) : List Octet → List (List Octet)
  | [] => [[]]
  | o :: r =>
    match splitAt c r with
    | x :: y => if o = c then [] :: x :: y else (o :: x) :: y
    | [] => [[o]]
/-- The characters `$CTOD,`. -/
def ctodHead : List Octet := [36, 67, 84, 79, 68, 44]
/-- The sentence a line spells, without CR LF (R313, Tables 10.6 and 10.7). -/
def sentenceOf (l : List Octet) : Option Sentence :=
  match splitAt 42 (l.drop 1) with
  | [body, ck] =>
    if (hexField 2 ck) ≠ some (body.foldl (fun x o => x ^^^ o.toNat) 0) then none
    else match splitAt 44 body with
    | [_, sq, sec, uo, lp, st, cl, ac, va, sr] =>
      match hexField 2 sq, decField 15 sec, signField 3 uo, hexField 2 st, decField 3 cl, hexField 2 ac, hexField 4 va, decField 5 sr with
      | some _, some sec, some u, some st, some cl, some ac, some va, some sr =>
        let leap := if lp = [48] then some ((1 : Int), 0) else (signField 15 lp)
        match leap with
        | some (d, a) =>
          if st % 8 ≠ 0 ∨ 255 < cl ∨ 65535 < sr ∨ 2 ^ 48 ≤ sec then none
          else some { sec := sec, utcOff := u.1 * u.2, leapDir := d, leapAt := a, stat := st
                      quality := { clockClass := cl, accuracy := ac, variance := va, steps := sr } }
        | none => none
      | _, _, _, _, _, _, _, _ => none
    | _ => none
  | _ => none
/-- TOD_SENTENCE_RX: a line without its CR LF ends `sub` after the start of the present tick. -/
def execTodSentenceRx (n : Fin 2) (line : List Octet) (sub : Nat) (s : State) : Res :=
  let q := s.todIn n
  let p := s.ppsIn n
  if line.take 6 ≠ ctodHead then .next s
  else if 72 < line.length then .next (s.count .todInErr .device n 1)
  else match sentenceOf line with
  | none => .next (s.count .todInErr .device n 1)
  | some y =>
    let last := p.last.getD 0
    let fin := s.nowTai + sub
    let start := fin - ((line.length + 2) * 10 * secondUnits) / q.baud
    let base := last + (fin - last) / secondUnits * secondUnits
    if !(q.windowed && p.last.isSome) ∨ start < base + secondUnits / 100 ∨ base + secondUnits * 9 / 10 < fin then
      .next (s.count .todInLate .device n 1)
    else
      let named := base + secondUnits
      let x := TimeSrc.pps n
      let ok := match q.last with
        | some (sec, at_) => (y.sec : Int) == sec + roundDiv (named - at_) secondUnits.toNat
        | none => true
      let s := s.modTod n (fun q => { q with last := some (y.sec, named), waiting := some (y, named) })
      let s := if ok then s else (s.count .todInJump .device n 1).disqualify x .jump
      let s := if y.good then s else s.disqualify x .flags
      let s := if bit y.stat 3 then s.restartCand x else s
      .next (s.utcFrom x y.utcOff y.leapDir y.leapAt 1)

/-! ### Outputs (R311 to R313) -/

/-- Settings of an output in force at a whole second. -/
def PpsOut.at (o : PpsOut) (second : Int) : PpsOut :=
  match o.next with
  | some (c, k) => if k ≤ second then { o with cfg := c, next := none } else o
  | none => o
/-- PPS_OUT_PULSE: output n reaches a whole second of the core's time, early by PPS_OUT_DELAY. -/
def execPpsOutPulse (n : Fin 4) (s : State) : Res :=
  let o := vget s.time.ppsOut n PpsOut.reset
  let w := nearestSecond s.nowTai / secondUnits
  let edge := w * secondUnits - (o.at w).cfg.delay
  if w ≤ o.second ∨ edge < s.nowTai ∨ s.taiAt (s.tn + 1) ≤ edge then .next s
  else
    let o := o.at w
    let on := o.cfg.enable && s.time.timeValid && (o.cfg.always || s.time.traceable)
    let o := { o with second := w, emitted := if on then some edge else o.emitted }
    .next (s.modTime (fun t => { t with ppsOut := vmod t.ppsOut n (fun _ => o) }))
/-- Decimal digits of a number. -/
def decDigits : Nat → Nat → List Octet
  | 0, _ => []
  | k + 1, n => if n < 10 then [BitVec.ofNat 8 (48 + n)] else decDigits k (n / 10) ++ [BitVec.ofNat 8 (48 + n % 10)]
/-- Hex digits of a number, n of them, uppercase. -/
def hexDigits : Nat → Nat → List Octet
  | 0, _ => []
  | k + 1, n => hexDigits k (n / 16) ++ [BitVec.ofNat 8 (if n % 16 < 10 then 48 + n % 16 else 55 + n % 16)]
/-- A signed number with its sign. -/
def signDigits (z : Int) : List Octet := (if z < 0 then [45] else [43]) ++ decDigits 16 z.natAbs
/-- STAT of the device (Table 10.7). -/
def State.todStat (s : State) : Nat :=
  let t := s.time
  b2n t.traceable * 128 + b2n t.timeValid * 64 + b2n (t.state == .holdover) * 32 + b2n t.freqTraceable * 16 + b2n t.todOut.stepped * 8
/-- The line TOD_OUT sends for the pulse at second `sec`. -/
def State.todLine (s : State) (sec : Int) : List Octet :=
  let k := s.kennel.settings
  let q := s.quality
  let body : List Octet := ([67, 84, 79, 68, 44] : List Octet) ++ hexDigits 2 s.time.todOut.seq ++ [44] ++ decDigits 16 sec.toNat ++ [44]
    ++ signDigits k.utcOffset ++ [44]
    ++ (if k.leapAt = 0 then [48] else (if k.leapDir < 0 then [45] else [43]) ++ decDigits 16 k.leapAt) ++ [44]
    ++ hexDigits 2 s.todStat ++ [44] ++ decDigits 4 q.clockClass ++ [44] ++ hexDigits 2 q.accuracy ++ [44] ++ hexDigits 4 q.variance
    ++ [44] ++ decDigits 6 q.steps
  [36] ++ body ++ [42] ++ hexDigits 2 (body.foldl (fun x o => x ^^^ o.toNat) 0) ++ [13, 10]
/-- TOD_OUT_SENTENCE: 300 ms after a pulse of the core, the sentence that names the next. -/
def execTodOutSentence (s : State) : Res :=
  let w := s.nowTai / secondUnits
  if s.nowTai - w * secondUnits < secondUnits * 3 / 10 ∨ w + 1 = s.time.todOut.second then .next s
  else .next (s.modTime (fun t => { t with
    todOut := { t.todOut with line := s.todLine (w + 1), seq := (t.todOut.seq + 1) % 256, stepped := false, second := w + 1 } }))

/-! ### The Kennel counter, the oscillator, snapshots (R315, R298, R316) -/

/-- KENNEL_RTC_UPDATE: in LOCKED, at the tick of a whole second, the counter takes the core's second and RTC_TRIM the measured
trim in ppb. -/
def execKennelRtcUpdate (trim : Int) (s : State) : Res :=
  let w := s.nowTai / secondUnits
  if s.time.state = .locked ∧ s.nowTai - w * secondUnits < tickUnits then
    .next ((s.modKennel (fun k => { k with rtc := w * secondUnits, rtcPart := 0, rtcKept := true })).modSettings (fun k => { k with rtcTrim := trim }))
  else .next s
/-- OSC_LOSS: a window of 1 µs of OCXO_IN has missing edges. -/
def execOscLoss (s : State) : Res :=
  if s.time.oscLost then .next s
  else
    let s := (s.modPower (fun p => { p with ocxo := false })).modTime (fun t => { t with oscLost := true, traceUntil := none })
    .next (s.refreshTrace.raise .oscLoss .device 0 (w2 s.tn))
/-- OSC_OK: OCXO_IN has been present for 1 s without a gap. -/
def execOscOk (s : State) : Res :=
  if !s.time.oscLost then .next s
  else
    let s := (s.modPower (fun p => { p with ocxo := true })).modTime (fun t => { t with oscLost := false })
    .next (s.refreshTrace.raise .oscOk .device 0 (w2 s.tn))
/-- Whether a job is a TIME_OSC_SET. -/
def isOscJob (j : Job) : Bool := j.ticket.opcode == 0x405
/-- OSC_RELOCK_DONE: 10 ms after TIME_OSC_SET the timebase has relocked to the new OSC_FREQ (R296). -/
def execOscRelockDone (s : State) : Res :=
  if s.time.relockAt.any (fun k => decide (k ≤ s.ticks)) then
    .next ((s.modTime (fun t => { t with relockAt := none, oscFreq := t.oscNext })).finishJobs isOscJob .ok 0 [])
  else .next s
/-- The flags of word 0x004 (Table 10.8), SNAP_SEQ and SNAP_VALID left out. -/
def State.timeFlags (s : State) : Nat :=
  let t := s.time
  t.state.code * 256 + b2n t.traceable * 128 + b2n t.freqTraceable * 64 + b2n t.timeValid * 32 + b2n s.tnProvisional * 16
    + b2n t.freqLimit * 8 + b2n (t.slew != 0) * 4 + b2n t.oscLost * 2
/-- 1 is written to SNAP_REQ; requests of one tick give one capture (R316). -/
def State.snapAsk (s : State) : State :=
  if s.time.snap.req then s else s.modTime (fun t => { t with snap := { t.snap with req := true, reqAt := s.ticks } })
/-- TIME_SNAP_REQ: 1 is written to SNAP_REQ. -/
def execTimeSnapReq (s : State) : Res := if s.mapOpen then .next s.snapAsk else .next s
/-- TIME_SNAPSHOT_CAPTURE: at the start of the tick after the request the values in effect are loaded together, after a step due at that
boundary (Table 10.9). -/
def execTimeSnapshotCapture (s : State) : Res :=
  let s := s.stepNow
  if s.time.snap.req ∧ s.time.snap.reqAt < s.ticks then
    .next (s.modTime (fun t => { t with
      snap := { req := false, reqAt := t.snap.reqAt, seq := (t.snap.seq + 1) % 65536, flags := s.timeFlags + 1, tn := s.tn, offset := stamp96 s.tickOffset
                freq := roundDiv t.applied 10240 } }))
  else .next s

/-! ### Commands -/

/-- TIME_STATUS. -/
def specTimeStatus : OpSpec :=
  { code := 0x400, len := lenIs 1, target := tgtDevice
    eff := .now (fun _ s =>
      let t := s.time
      let cand := (List.range 4).foldl (fun n i => n + (match t.candidates[i]? with | some c => c.st.code | none => 3) * 4 ^ i) 0
      let unc : Nat := if t.timeValid then ((t.uncertNow s.ticks + 65535) / 65536).toNat else 2 ^ 64 - 1
      let k := s.kennel.settings
      (s, w1 (t.snap.seq * 65536 + s.timeFlags + t.snap.flags % 2) ++ w1 (srcWord t.selected) ++ w1 cand ++ w2 unc ++ wi t.freqCtrl
        ++ wi k.utcOffset ++ w2 k.leapAt)) }
/-- TIME_STATUS: reads the time core's condition. -/
def execTimeStatus (c : Cmd) (s : State) : Res := runOp specTimeStatus c s
/-- The source a candidate word names; none for an invalid word. -/
def candOf (s : State) (w : Nat) : Option TimeSrc :=
  if w = 0xFFFFFFFF then some .none
  else if field w 0 16 ≠ 0 then none
  else match field w 28 4 with
    | 0 => if field w 16 12 < 2 then some (.pps (field w 16 12)) else none
    | 1 => if field w 16 12 < 48 then some (.engine (field w 16 12)) else none
    | 4 => if (s.port? (field w 16 12)).isSome then some (.port (field w 16 12)) else none
    | _ => none
/-- The candidates a command lists, NONE left out. -/
def candsOf (s : State) (c : Cmd) : List TimeSrc :=
  ((List.range (min 4 (cw c 1))).filterMap (fun i => candOf s (cw c (2 + i)))).filter (fun x => decide (x ≠ .none))
/-- Word i of the list is good: a candidate below the count, 0 beyond it. -/
def candWordOk (i : Nat) : Nat × (State → Cmd → Bool) :=
  (2 + i, fun s c => if i < cw c 1 then (candOf s (cw c (2 + i))).isSome else cw c (2 + i) == 0)
/-- TIME_SOURCE_SET writes the list (R304); a candidate that was in the list before keeps its state. -/
def specTimeSourceSet : OpSpec :=
  { code := 0x401, len := lenIs 6, target := tgtDevice
    ranges := [rngU 1 0 4, candWordOk 0, candWordOk 1, candWordOk 2, candWordOk 3]
    refuse := fun _ c =>
      let l := (List.range (cw c 1)).filter (fun i => (List.range i).any (fun j => cw c (2 + j) == cw c (2 + i)))
      match l.head? with | some i => some (.parameterInvalid, 2 + i) | none => none
    eff := .now (fun c s =>
      let p := s.time.params
      let l := (candsOf s c).map (fun x => (s.cand? x).getD
        { src := x, st := .disqualified, since := s.ticks, qualifiedAt := 0, qualTime := p.qualTime, wtr := p.wtr })
      let s := s.modTime (fun t => { t with candidates := l })
      if l.isEmpty then ((s.keepSteps.selectSource none).timeTo .freerun, []) else (s.reselect, []))
    read := some {
      selectors := 0, ok := fun _ _ => true, get := fun _ s =>
      let l := s.time.candidates
      w1 l.length ++ ((List.range 4).map (fun i => w1 (match l[i]? with | some x => x.src.word | none => 0))).flatten } }
/-- TIME_SOURCE_SET: writes the list of candidate sources. -/
def execTimeSourceSet (c : Cmd) (s : State) : Res := runOp specTimeSourceSet c s
/-- TIME_PARAM_SET writes Table 10.3. -/
def specTimeParamSet : OpSpec :=
  { code := 0x402, len := lenIs 12, target := tgtDevice
    ranges := [rngU 1 1 10, rngU 2 1 10000, rngU 3 0 2, rngU 4 100 1000000000, rngU 5 10 10000, rngU 6 3 600, rngU 7 0 1,
      rngU 8 0 3600, rngU 9 10 3600, rngU 10 0 86400, rngU 11 0 1]
    eff := .now (fun c s => (s.modTime (fun t => { t with
      params := { ki := cw c 1, slewMax := cw c 2, stepPolicy := cw c 3, stepThresh := cw c 4, lockPhase := cw c 5, qualTime := cw c 6
                  revertive := cw c 7, wtr := cw c 8, holdoverAvg := cw c 9, holdoverTrace := cw c 10, utcSource := cw c 11 } }), []))
    read := some {
      selectors := 0, ok := fun _ _ => true, get := fun _ s =>
      let p := s.time.params
      ([p.ki, p.slewMax, p.stepPolicy, p.stepThresh, p.lockPhase, p.qualTime, p.revertive, p.wtr, p.holdoverAvg, p.holdoverTrace,
        p.utcSource].map w1).flatten } }
/-- TIME_PARAM_SET: writes the servo and source parameters. -/
def execTimeParamSet (c : Cmd) (s : State) : Res := runOp specTimeParamSet c s
/-- The timestamp of words 1 to 3. -/
def cStamp (c : Cmd) : Nat := cw c 1 * 2 ^ 64 + cw c 2 * 2 ^ 32 + cw c 3
/-- What a discarded measurement changed in the servo goes back. -/
def TimeCore.unmeasured (t : TimeCore) : TimeCore :=
  { t with prevMeas := t.beforeStep.1, goodRun := t.beforeStep.2.1, badRun := t.beforeStep.2.2.1, demand := t.beforeStep.2.2.2 }
/-- TIME_SET steps TICK_OFFSET at the next boundary so that the core's time there equals the written value (R308). A servo step
decided for the same boundary is dropped with its measurement (Table 10.9). -/
def specTimeSet : OpSpec :=
  { code := 0x403, len := lenIs 4, target := tgtDevice
    ranges := [(1, fun _ c => decide (field (cStamp c) 16 32 < 1000000000))]
    refuse := fun s _ =>
      if !s.time.candidates.isEmpty && (s.time.state == .acquiring || s.time.state == .locked) then some (.mode, 0) else none
    eff := .boundary 0x403 (fun c s =>
      let s := s.modTime (fun t => { (if t.stepDue.isSome then t.unmeasured else t) with stepDue := none, meas := none })
      let s := s.stepBy (ofStamp96 (cStamp c) - s.nowTai)
      (s.modTime (fun t => { t with timeValid := true, traceable := false, traceUntil := none, uncert := 0, uncertAt := s.ticks })))
    read := some { selectors := 0, ok := fun _ _ => true, get := fun _ s => w3 (stamp96 s.nowTai) } }
/-- TIME_SET: writes the core's time at the next tick boundary. -/
def execTimeSet (c : Cmd) (s : State) : Res := runOp specTimeSet c s
/-- TIME_UTC_SET writes UTC_OFFSET and the leap values (R294, R295). -/
def specTimeUtcSet : OpSpec :=
  { code := 0x404, len := lenIs 5, target := tgtDevice
    ranges := [rngS 1 (-999) 999, (4, fun _ c => decide (cz c 4 = 1) || decide (cz c 4 = -1))]
    eff := .now (fun c s => (s.utcTo (cz c 1) (cz c 4) (cw2 c 2) 0, []))
    read := some {
      selectors := 0, ok := fun _ _ => true, get := fun _ s =>
      let k := s.kennel.settings
      wi k.utcOffset ++ w2 k.leapAt ++ wi k.leapDir } }
/-- TIME_UTC_SET: writes UTC_OFFSET, LEAP_AT and LEAP_DIR. -/
def execTimeUtcSet (c : Cmd) (s : State) : Res := runOp specTimeUtcSet c s
/-- The first port of a SYNTONISED host tile that is not DISABLED (R296). -/
def State.syntonisedInService (s : State) : Option Nat :=
  (s.ports.find? (fun p => (s.htile (p.1 / 96)).syntonised && p.2.state != .disabled)).map (·.1)
/-- TIME_OSC_SET changes OSC_FREQ; FINAL comes after the relock (R296). -/
def specTimeOscSet : OpSpec :=
  { code := 0x405, cls := .long, len := lenIs 2, target := tgtDevice, ranges := [rngU 1 10000 100000]
    refuse := fun s _ =>
      if s.anyTraffic then some (.engineInTraffic, 0) else s.syntonisedInService.map (fun n => (.portInService, n))
    eff := .long (fun j c s =>
      (s.modProto (fun p => { p with jobs := p.jobs ++ [j] })).modTime (fun t => { t with oscNext := cw c 1, relockAt := some (s.ticks + 6250) }))
    read := some { selectors := 0, ok := fun _ _ => true, get := fun _ s => w1 s.time.oscFreq } }
/-- TIME_OSC_SET: sets the frequency of OCXO_IN. -/
def execTimeOscSet (c : Cmd) (s : State) : Res := runOp specTimeOscSet c s
/-- TIME_EPOCH_FORCE (Table 1.3): from NONE as for first lock; from SET a realignment at the next whole second, refused while an
engine carries traffic. DESIGN CHOICE (log entry 17): the manual is silent on the command while a realignment is already scheduled; with
traffic, from NONE, the epoch is set in place and the scheduled realignment stands, without traffic the new one takes its place. -/
def specTimeEpochForce : OpSpec :=
  { code := 0x406, len := lenIs 1, target := tgtDevice
    refuse := fun s _ => if s.kennel.settings.epochSet && s.anyTraffic then some (.engineInTraffic, 0) else none
    eff := .now (fun _ s =>
      let set := s.kennel.settings.epochSet
      if !set && s.anyTraffic then (s.epochInPlace, [])
      else ({ s with realign := some (s.realignAt .force set) }, [])) }
/-- TIME_EPOCH_FORCE: sets the tick epoch from the present time. -/
def execTimeEpochForce (c : Cmd) (s : State) : Res := runOp specTimeEpochForce c s
/-- ±1 ms in a 64-bit value of words k and k + 1, in 2⁻¹⁶ ns. -/
def rngMs (k : Nat) : Nat × (State → Cmd → Bool) :=
  (k, fun _ c => decide (-65536000000 ≤ sx 64 (cw2 c k)) && decide (sx 64 (cw2 c k) ≤ 65536000000))
/-- TIME_PPS_IN_SET: edge, delay and gate of an input; what it has received so far is forgotten (R310, R312, R314). -/
def specTimePpsInSet : OpSpec :=
  { code := 0x407, len := lenIs 5, target := tgtDeviceSub 2, ranges := [rngU 1 0 1, rngMs 2, rngU 4 100 1000000]
    eff := .now (fun c s =>
      let s := s.modPps (cSub c) (fun _ => { PpsIn.reset with falling := cw c 1 == 1, delay := sx 64 (cw2 c 2), gate := cw c 4 })
      (s.modTod (cSub c) (fun q => { q with windowed := false, last := none, waiting := none }), []))
    read := some {
      selectors := 0, ok := fun _ _ => true, get := fun c s =>
      let p := s.ppsIn (cSub c)
      w1 (b2n p.falling) ++ wi2 p.delay ++ w1 p.gate } }
/-- TIME_PPS_IN_SET: sets a PPS input. -/
def execTimePpsInSet (c : Cmd) (s : State) : Res := runOp specTimePpsInSet c s
/-- TIME_PPS_OUT_SET: settings of an output from the next whole second (R311). -/
def specTimePpsOutSet : OpSpec :=
  { code := 0x408, len := lenIs 7, target := tgtDeviceSub 4
    ranges := [rngU 1 0 1, rngU 2 0 1, rngU 3 1 500000, rngMs 4, rngU 6 0 1]
    eff := .now (fun c s =>
      let n : PpsCfg := { enable := cw c 1 == 1, activeLow := cw c 2 == 1, width := cw c 3, delay := sx 64 (cw2 c 4), always := cw c 6 == 0 }
      (s.modTime (fun t => { t with
        ppsOut := vmod t.ppsOut (cSub c) (fun o => { o with next := some (n, s.nowTai / secondUnits + 1) }) }), []))
    read := some {
      selectors := 0, ok := fun _ _ => true, get := fun c s =>
      let p := ((vget s.time.ppsOut (cSub c) PpsOut.reset).at (s.nowTai / secondUnits)).cfg
      w1 (b2n p.enable) ++ w1 (b2n p.activeLow) ++ w1 p.width ++ wi2 p.delay ++ w1 (b2n (!p.always)) } }
/-- TIME_PPS_OUT_SET: sets a PPS output. -/
def execTimePpsOutSet (c : Cmd) (s : State) : Res := runOp specTimePpsOutSet c s
/-- TIME_TOD_SET: TOD_BAUD of a line; an input's windows start afresh (R312, R314). -/
def specTimeTodSet : OpSpec :=
  { code := 0x409, len := lenIs 2, target := tgtDeviceSub 3
    ranges := [rngP 1 (fun n => [9600, 19200, 38400, 57600, 115200, 230400, 460800].contains n)]
    eff := .now (fun c s =>
      if cSub c = 2 then (s.modTime (fun t => { t with todOut := { t.todOut with baud := cw c 1 } }), [])
      else (s.modTod (cSub c) (fun _ => { TodIn.reset with baud := cw c 1 }), []))
    read := some {
      selectors := 0, ok := fun _ _ => true, get := fun c s =>
      w1 (if cSub c = 2 then s.time.todOut.baud else (s.todIn (cSub c)).baud) } }
/-- TIME_TOD_SET: sets the rate of a ToD line. -/
def execTimeTodSet (c : Cmd) (s : State) : Res := runOp specTimeTodSet c s

end Sys2Proof.Machine
end

