-- ==== Sys2Proof/Machine/Security.lean ====
section
/-! DEFINITION. Line encryption, identity and attestation (R348 to R370): key slots and their changes, the domain, the Tag block, the
test port.
What it chooses or infers where the manual is silent, with its marks: log entries 10, 13, 31. -/
namespace Sys2Proof.Machine

/-! ### Key slots -/

/-- Line encryption of an engine. -/
def State.keys (s : State) (e : Nat) : KeyState := (s.eng e).key
/-- Applies `f` to the line encryption of an engine. -/
def State.modKey (e : Nat) (f : KeyState → KeyState) (s : State) : State := s.modEng e (fun g => { g with key := f g.key })
/-- Slot i of an engine, in the order TX0, TX1, RX0, RX1. -/
def KeyState.slot (k : KeyState) (i : Nat) : Option KeySlot := vget k.slots i Option.none
/-- What slot i holds at a local TN: one whose EXPIRY_TN has come is EMPTY (R356, R370). -/
def KeyState.live (k : KeyState) (tn i : Nat) : Option KeySlot := (k.slot i).filter (fun x => x.expiry == 0 || decide (tn < x.expiry))
/-- Causes of KEY_ERASED: those of R353 in its order, then REALIGN and IV_GEN. -/
inductive EraseCause where
  | sysRst | domainReset | fence | testPort | domainClear | realign | ivGen
  deriving DecidableEq, Repr
/-- Code of a KEY_ERASED cause. -/
def EraseCause.code : EraseCause → Nat
  | .sysRst => 0 | .domainReset => 1 | .fence => 2 | .testPort => 3 | .domainClear => 4 | .realign => 5 | .ivGen => 6
/-- A slot is emptied other than by KEY_ERASE: KEY_ERASED where it was LOADED, and at a happening of R353, which a realignment is not, a
KEY_LOAD accepted for it is dropped (R355). -/
def State.emptySlot (e i : Nat) (why : EraseCause) (s : State) : State :=
  let s := if why = .realign then s
    else s.cancelArmed (fun a => a.opcode == 0x501 && a.key.index == e && a.key.sub == i) .cancelled Ev.keyErased.code
  if ((s.keys e).slot i).isSome then
    (s.modKey e (fun k => { k with slots := vmod k.slots i (fun _ => Option.none) })).raise .keyErased .engine e (w1 why.code)
  else s
/-- The slots of an engine, of some of its indices, are emptied. -/
def State.emptySlots (e : Nat) (l : List Nat) (why : EraseCause) (s : State) : State := l.foldl (fun s i => s.emptySlot e i why) s
/-- Every key slot is emptied. -/
def State.emptyAll (why : EraseCause) (s : State) : State :=
  (List.range 48).foldl (fun s e => s.emptySlots e [0, 1, 2, 3] why) s
/-- DOMAIN_CLEAR's effect (R363). -/
def State.domainClear (why : EraseCause) (s : State) : State :=
  (s.emptyAll why).modSettings (fun k => { k with domainSet := false, odv := [], kek := [], binding := [] })
/-- IV_GEN advances by 1; past 0xFFFF the domain is cleared and it becomes 0 (R352). -/
def State.ivAdvance (s : State) : State :=
  if s.kennel.settings.ivGen = 65535 then (s.domainClear .ivGen).modSettings (fun k => { k with ivGen := 0 })
  else s.modSettings (fun k => { k with ivGen := k.ivGen + 1 })
/-- A slot whose EXPIRY_TN local TN has reached is emptied (R356). -/
def State.expireSlot (e i : Nat) (s : State) : State :=
  match (s.keys e).slot i with
  | some k =>
    if k.expiry ≠ 0 ∧ k.expiry ≤ s.tn then
      (s.modKey e (fun x => { x with slots := vmod x.slots i (fun _ => Option.none) })).raise .keyExpired .engine e (w1 i ++ w1 k.id)
    else s
  | none => s
/-- KEY_EXPIRY: local TN has reached EXPIRY_TN of a LOADED slot (R356). -/
def execKeyExpiry (e : Fin 48) (slot : Fin 4) (s : State) : Res := .next (s.expireSlot e slot)

/-! ### Engine commands -/

/-- A key slot of an engine: SUB [1] DIR, [0] SLOT. -/
def tgtSlot : State → Nat → Nat → Nat → Bool := fun _ k i b => k == 1 && decide (i < 48) && decide (b < 4)
/-- MODE for an engine in the 400ZR profile. -/
def zrMode (s : State) (c : Cmd) : Option (Status × Nat) := if (s.eng (cIdx c)).zr then some (.mode, 0) else none
/-- ENGINE_CRYPTO_SET (R348): GCM is 0, NONE is 1. -/
def specEngineCryptoSet : OpSpec :=
  { code := 0x500, len := lenIs 3, target := tgtEngine, ranges := [rngU 1 0 1, rngU 2 0 1], fence := fenceEngine
    refuse := fun s c => (zrMode s c).orElse (fun _ => if s.carries (cIdx c) then some (.engineInTraffic, 0) else none)
    eff := .now (fun c s =>
      let was := (s.keys (cIdx c)).none
      let s := s.modKey (cIdx c) (fun k => { k with none := cw c 1 == 1, linkSide := cw c 2 == 1 })
      (if cw c 1 = 1 ∧ !was then s.raise .cryptoClear .engine (cIdx c) [] else s, []))
    read := some {
      selectors := 0, ok := fun _ _ => true, get := fun c s =>
      let k := s.keys (cIdx c)
      w1 (b2n k.none) ++ w1 (b2n k.linkSide) } }
/-- ENGINE_CRYPTO_SET: sets crypto mode and link side. -/
def execEngineCryptoSet (c : Cmd) (s : State) : Res := runOp specEngineCryptoSet c s
/-- The key record of a blob's plaintext (Table 12.4), where it fits the command's target and its reserved octets are 0. -/
def keyRecord (e sub : Nat) (r : List Octet) : Option KeySlot :=
  if r.length = 48 ∧ (r.getD 32 0).toNat = sub * 64 + e ∧ ofOctets ((r.drop 33).take 3) = 0 then
    some { key := r.take 32, id := ofOctets ((r.drop 36).take 4), expiry := ofOctets ((r.drop 40).take 8) }
  else none
/-- The key a KEY_LOAD carries, unwrapped under the KEK, where it fits its target. -/
def State.openBlob (s : State) (c : Cmd) : Option KeySlot :=
  (kwUnwrap s.kennel.settings.kek (unpackWords ((c.words.drop 1).take 14))).bind (keyRecord (cIdx c) (cSub c))
/-- The key a KEY_LOAD carries, judged under R363. -/
def State.blobKey (s : State) (c : Cmd) : Option KeySlot :=
  match s.openBlob c with
  | some k => if k.expiry ≠ 0 ∧ k.expiry ≤ s.tn then none else some k
  | none => none
/-- A LOADED slot is in use (R355). -/
def State.slotInUse (s : State) (e i : Nat) : Bool :=
  let k := s.keys e
  (k.live s.tn i).isSome &&
    (if i < 2 then
      k.index == i || s.proto.armed.any (fun a => a.key.cls == 0x503 && a.key.index == e && cw a.cmd 1 == i)
    else
      k.expect == some (i - 2) || k.rxSwitch.any (fun x => x.1 == i - 2)
        || (k.expect.isNone && k.rxSwitch.isNone
            && (vget k.used (i - 2) Option.none).any (fun t => decide (s.ticks ≤ t + 62500))))
/-- KEY_LOAD (R355, R362, R363). -/
def specKeyLoad : OpSpec :=
  { code := 0x501, len := lenIs 15, target := tgtSlot, fence := fenceEngine
    refuse := fun s c => (zrMode s c).orElse (fun _ =>
      if s.sec.testOpen then some (.testPort, 0)
      else if !s.kennel.settings.domainSet then some (.domainUnset, 0)
      else if (s.blobKey c).isNone then some (.keyUnwrap, 0)
      else if s.slotInUse (cIdx c) (cSub c) then some (.keyInUse, 0) else none)
    onRefuse := fun st c s => if st == .domainUnset || st == .keyUnwrap then s.count .keyUnwrapErr .engine (cIdx c) 1 else s
    eff := .atBoundary 0x501 (fun c s => match s.openBlob c with
      | some k => (s.expireSlot (cIdx c) (cSub c)).modKey (cIdx c) (fun x => { x with slots := vmod x.slots (cSub c) (fun _ => some k) })
      | none => s) }
/-- KEY_LOAD: loads a wrapped key into one slot at the next tick. -/
def execKeyLoad (c : Cmd) (s : State) : Res := runOp specKeyLoad c s
/-- KEY_ERASE (R355): a slot is one resource for KEY_LOAD and KEY_ERASE (R44). -/
def specKeyErase : OpSpec :=
  { code := 0x502, len := lenIs 1, target := tgtSlot, refuse := zrMode
    eff := .boundary 0x501 (fun c s => (s.expireSlot (cIdx c) (cSub c)).modKey (cIdx c) (fun x => { x with
      slots := vmod x.slots (cSub c) (fun _ => Option.none) })) }
/-- KEY_ERASE: empties one slot at the next tick. -/
def execKeyErase (c : Cmd) (s : State) : Res := runOp specKeyErase c s
/-- KEY_TX_SWITCH (R357). -/
def specKeyTxSwitch : OpSpec :=
  { code := 0x503, cls := .tick, align := .required, len := lenIs 2, target := tgtEngine, ranges := [rngU 1 0 1]
    fence := fenceEngine, refuse := zrMode
    eff := .boundary 0x503 (fun c s =>
      (s.modKey (cIdx c) (fun k => { k with index := cw c 1 })).raise .keySwitched .engine (cIdx c)
        (w1 0 ++ w1 (cw c 1) ++ w2 s.tn)) }
/-- KEY_TX_SWITCH: switches the transmit key index at a local TN. -/
def execKeyTxSwitch (c : Cmd) (s : State) : Res := runOp specKeyTxSwitch c s
/-- KEY_RX_SWITCH (R358, R359): X against the carried TN of the latest accepted frame. It replaces a pending KEY_RX_FOLLOW, which has had its
FINAL (R44). -/
def specKeyRxSwitch : OpSpec :=
  { code := 0x504, len := lenIs 4, target := tgtEngine, ranges := [rngU 1 0 1], fence := fenceEngine
    refuse := fun s c => (zrMode s c).orElse (fun _ =>
      let g := s.eng (cIdx c)
      match g.rx.lastTn with
      | none => some (.notInFrame, 0)
      | some t =>
        if !g.inFrame || !g.rx.heard then some (.notInFrame, 0)
        else if cw2 c 2 < t + 8 then some (.tickPassed, t % 2 ^ 32)
        else if t + (2 ^ 32 - 1) < cw2 c 2 then some (.outOfRange, t % 2 ^ 32) else none)
    eff := .now (fun c s => ((s.cancelArmed (fun a => a.key == keyOf 0x505 c) .superseded c.tag.val).modKey (cIdx c) (fun k => { k with
      rxSwitch := some (cw c 1, cw2 c 2) }), [])) }
/-- KEY_RX_SWITCH: arms a receive key switch at a far-end TN. -/
def execKeyRxSwitch (c : Cmd) (s : State) : Res := runOp specKeyRxSwitch c s
/-- KEY_RX_FOLLOW (R358). -/
def specKeyRxFollow : OpSpec :=
  { code := 0x505, len := lenIs 1, target := tgtEngine, fence := fenceEngine, refuse := zrMode
    eff := .boundary 0x505 (fun c s => s.modKey (cIdx c) (fun k => { k with expect := Option.none, rxSwitch := Option.none })) }
/-- KEY_RX_FOLLOW: returns the receiver to FOLLOW mode. -/
def execKeyRxFollow (c : Cmd) (s : State) : Res := runOp specKeyRxFollow c s
/-- KEY_STATUS words of an engine at a local TN: EXPECT and LOADED, then KEY_ID and EXPIRY_TN of each slot, 0 where it is EMPTY. -/
def keyStatusWords (tn : Nat) (k : KeyState) : List Word :=
  let load := (List.range 4).foldl (fun n i => n + b2n (k.live tn i).isSome * 2 ^ (3 - i)) 0
  w1 (b2n (k.expect.isSome || k.rxSwitch.isSome) * 16 + load)
    ++ ((List.range 4).map (fun i => match k.live tn i with
      | some x => w1 x.id ++ w2 x.expiry | none => w1 0 ++ w2 0)).flatten
/-- KEY_STATUS (R353): no key is ever read. -/
def specKeyStatus : OpSpec :=
  { code := 0x506, len := lenIs 1, target := tgtEngine, refuse := zrMode
    eff := .now (fun c s => (s, keyStatusWords s.tn (s.keys (cIdx c)))) }
/-- KEY_STATUS: returns slot states, KEY_IDs and expiries. -/
def execKeyStatus (c : Cmd) (s : State) : Res := runOp specKeyStatus c s

/-! ### The domain and the Tag block (R361 to R365) -/

/-- A command whose response is signed begins: its result waits for the signature. -/
def State.beginSigning (j : Job) (words : List Word) (s : State) : State :=
  let s := s.modProto (fun p => { p with jobs := p.jobs ++ [j] })
  { s with sec := { s.sec with signing := s.sec.signing ++ [(j.ticket.seq, words)] } }
/-- TAG_SIGNATURE_DONE: the oldest signature is ready; its command is answered with the signed result. -/
def execTagSignatureDone (s : State) : Res :=
  match s.sec.signing with
  | [] => .next s
  | (q, ws) :: r =>
    .next (({ s with sec := { s.sec with signing := r } } : State).finishJobs
      (fun j => j.ticket.seq == q && (j.ticket.opcode == 0x510 || j.ticket.opcode == 0x513)) .ok 0 ws)
/-- The octets of a text. -/
def asciiOctets (t : String) : List Octet := t.toList.map (fun c => BitVec.ofNat 8 c.toNat)
/-- KEK of an ODV: counter-mode KDF with HMAC-SHA-384 under DUS (R361). -/
def deriveKek (odv : List Octet) : List Octet :=
  (hmac384 (beOctets 32 Config.dus.toNat) (octetsBE 4 1 ++ asciiOctets "DFK-KEK" ++ [0x00#8] ++ odv ++ octetsBE 4 0x100)).take 32
/-- The enrolment response (R361): the ephemeral public key of a draw, and KEK wrapped under a key from the shared secret. -/
def enrolResponse (opKey kek : List Octet) (draw : Nat) : List Octet :=
  let d := drawScalar (randomOctets 48 draw)
  let z := if onP384 (octetsPoint opKey) then sharedSecret d (octetsPoint opKey) else Config.strayShared opKey draw
  pointOctets (publicPoint d) ++ kwWrap ((sha384 (z ++ asciiOctets "DFK-ENROL")).take 32) kek
/-- A signature by the identity key, with the nonce of a draw (R364, R365). -/
def identitySign (m : List Octet) (draw : Nat) : List Octet := ecdsaSign Config.identityKey (drawScalar (randomOctets 48 draw)) m
/-- The signed result of DOMAIN_ENROL: the enrolment response and its signature, from two draws. -/
def enrolWords (c : Cmd) (kek : List Octet) (draw : Nat) : List Word :=
  let r := enrolResponse (unpackWords (c.words.drop 9)) kek draw
  packOctets (r ++ identitySign r (draw + 1))
/-- DOMAIN_ENROL (R361): ODV, KEK, binding value, SET, IV_GEN 0. -/
def specDomainEnrol : OpSpec :=
  { code := 0x510, cls := .long, len := lenIs 33, target := tgtDevice
    refuse := fun s _ => if s.sec.testOpen then some (.testPort, 0) else if s.kennel.settings.domainSet then some (.domainSet, 0) else none
    eff := .long (fun j c s =>
      let odv := unpackWords ((c.words.drop 1).take 8)
      let kek := deriveKek odv
      let draw := s.freeCtr
      let s : State := { s with freeCtr := draw + 3 }
      let s := s.modSettings (fun k => { k with
        domainSet := true, odv := odv, kek := kek, binding := randomOctets 32 draw, ivGen := 0 })
      s.beginSigning j (enrolWords c kek (draw + 1))) }
/-- DOMAIN_ENROL: enrols the operator domain. -/
def execDomainEnrol (c : Cmd) (s : State) : Res := runOp specDomainEnrol c s
/-- DOMAIN_CLEAR (R363). -/
def specDomainClear : OpSpec :=
  { code := 0x511, len := lenIs 1, target := tgtDevice, eff := .now (fun _ s => (s.domainClear .domainClear, [])) }
/-- DOMAIN_CLEAR: clears the operator domain and every key slot. -/
def execDomainClear (c : Cmd) (s : State) : Res := runOp specDomainClear c s
/-- Octets padded with 0x00, or cut, to a length. -/
def padTo (n : Nat) (l : List Octet) : List Octet := (l ++ List.replicate (n - l.length) 0).take n
/-- The 4,096-octet image of TAG_CERT_READ (R364). -/
def certImage : List Octet :=
  padTo 4096 (octetsBE 4 Config.deviceCert.length ++ Config.deviceCert ++ octetsBE 4 Config.caCert.length ++ Config.caCert)
/-- TAG_CERT_READ (R364). -/
def specTagCertRead : OpSpec :=
  { code := 0x512, cls := .long, len := lenIs 2, target := tgtDevice, ranges := [rngChan]
    refuse := fun s c => dmaRefusal s c 4096, eff := .long (dmaSend (fun _ _ => certImage)) }
/-- TAG_CERT_READ: copies the device and intermediate certificates out. -/
def execTagCertRead (c : Cmd) (s : State) : Res := runOp specTagCertRead c s
/-- SERIAL as octets. -/
def serialOctets : List Octet := octetsBE 16 Config.serial.toNat
/-- The KEY_IDs of R365, EMPTY slots as 0. -/
def State.keyIds (s : State) : List Octet :=
  ((List.range 48).map (fun e => ((List.range 4).map (fun i =>
    octetsBE 4 (match (s.keys e).live s.tn i with | some k => k.id | none => 0))).flatten)).flatten
/-- Octets 0 to 319 of the attestation report (Table 12.5). -/
def State.attestBody (s : State) (nonce : List Octet) : List Octet :=
  let k := s.kennel.settings
  octetsBE 1 1
    ++ octetsBE 1 (b2n (!k.binding.isEmpty) * 128 + b2n k.domainSet * 64 + b2n s.sec.testOpen * 32 + b2n s.dev.fwSlot * 16
        + b2n s.time.timeValid * 8)
    ++ octetsBE 2 0xA1 ++ serialOctets ++ padTo 32 nonce ++ octetsBE 8 s.tn ++ octetsBE 12 (stamp96 s.nowTai)
    ++ padTo 48 s.sec.running.digest ++ padTo 48 s.sec.shepRunning.digest ++ octetsBE 4 s.sec.running.version
    ++ octetsBE 2 s.sec.rollback.val ++ octetsBE 2 0
    ++ (if k.binding.isEmpty then List.replicate 48 0 else sha384 k.binding)
    ++ (if k.domainSet then sha384 k.odv else List.replicate 48 0) ++ sha384 s.keyIds
/-- The signed result of ATTEST_REPORT. -/
def State.attestWords (s : State) (c : Cmd) : List Word :=
  let b := s.attestBody (unpackWords (c.words.drop 1))
  packOctets (b ++ identitySign b s.freeCtr)
/-- ATTEST_REPORT (R365): every value is sampled in the tick of acceptance. -/
def specAttestReport : OpSpec :=
  { code := 0x513, cls := .long, len := lenIs 9, target := tgtDevice
    eff := .long (fun j c s => ({ s with freeCtr := s.freeCtr + 1 } : State).beginSigning j (s.attestWords c)) }
/-- ATTEST_REPORT: returns a signed attestation report. -/
def execAttestReport (c : Cmd) (s : State) : Res := runOp specAttestReport c s

/-! ### The test port (R368) -/

/-- TESTPORT_CHALLENGE. -/
def specTestportChallenge : OpSpec :=
  { code := 0x514, len := lenIs 1, target := tgtDevice
    eff := .now (fun _ s =>
      let x := randomOctets 32 s.freeCtr
      ({ s with freeCtr := s.freeCtr + 1, sec := { s.sec with challenge := some x } }, packOctets x)) }
/-- TESTPORT_CHALLENGE: returns a fresh unlock challenge. -/
def execTestportChallenge (c : Cmd) (s : State) : Res := runOp specTestportChallenge c s
/-- Whether an unlock token is a signature by the debug key over SHA-384 of a message (R368). -/
def tokenValid (m token : List Octet) : Bool := ecdsaVerify Config.debugKey m token
/-- TESTPORT_UNLOCK: every secret is destroyed before the port opens. -/
def specTestportUnlock : OpSpec :=
  { code := 0x515, cls := .long, len := lenIs 25, target := tgtDevice
    refuse := fun s c => match s.sec.challenge with
      | some x => if tokenValid (serialOctets ++ x) (unpackWords (c.words.drop 1)) then none else some (.tokenInvalid, 0)
      | none => some (.tokenInvalid, 0)
    onRefuse := fun st _ s => if st == .tokenInvalid then s.count .testportRejects .device 0 1 else s
    eff := .long (fun j _ s =>
      let s := s.domainClear .testPort
      let s : State := { s with sec := { s.sec with testOpen := true } }
      (s.raise .testportOpened .device 0 (w2 s.tn)).final j.ticket .ok 0 []) }
/-- TESTPORT_UNLOCK: opens the test port with a signed token. -/
def execTestportUnlock (c : Cmd) (s : State) : Res := runOp specTestportUnlock c s
/-- TESTPORT_INSTRUCTION: locked, every instruction but IDCODE acts as BYPASS; neither changes the block. What another instruction
does with the port open is not given. -/
def execTestportInstruction (ir : TestIr) (s : State) : Res :=
  match ir with
  | .idcode => .next s
  | .bypass => .next s
  | .other => if s.sec.testOpen then .refused .testPortInstructionUnspecified else .next s

end Sys2Proof.Machine
end

