-- ==== Sys2Proof/Machine/Equalise.lean ====
section
/-! DEFINITION. Receive Equalisation and Recovery: front-end correction (R180), the CD store and its swaps (R181 to R188),
equaliser settings (R189), adaptation freeze (R199, R200), and the estimates (R201, R202).
What it chooses or infers where the manual is silent, with its marks: log entry 25. -/
namespace Sys2Proof.Machine

/-- One tick of the alignment slew, at CD_DELAY_SLEW, while no fade runs (R186). -/
def Equaliser.slewStep (q : Equaliser) : Equaliser :=
  if q.slewing && q.fade.isNone then
    let t := 64 * alignSamples q.cdActive
    { q with align := if q.align < t then min t (q.align + q.delaySlew) else max t (q.align - q.delaySlew) }
  else q
/-- A swap completes (R184 to R186): the banks exchange roles unless a reversal led back, CD_SWAP_DONE with the active D, the
cause and TN, and the alignment starts to slew. -/
def State.cdSwapDone (e : Nat) (reversed : Bool) (s : State) : State :=
  let q := (s.eng e).eq
  let active := if reversed then q.cdActive else q.cdShadow.getD q.cdActive
  let shadow := if reversed then q.cdShadow else some q.cdActive
  (s.modEq e (fun q => { q with cdActive := active, cdShadow := shadow, fade := none,
                                slewing := q.align != 64 * alignSamples active })).raise .cdSwapDone .engine e
    (wi active.d ++ w1 (b2n reversed) ++ w2 s.tn)
/-- A fade that has run its ticks completes in this tick, in which the alignment takes its first step (R186, Table 6.5). -/
def State.cdSwapEnd (e : Nat) (reversed : Bool) (s : State) : State := (s.cdSwapDone e reversed).modEq e Equaliser.slewStep
/-- One tick of a running fade: the weight of the new bank rises by 1/X, or in a reversal falls by it, to its end (R184,
R185). -/
def Fade.step (f : Fade) : Fade :=
  if f.rising then { f with w := min (f.x + 1) (f.w + 1) } else { f with w := f.w - 1 }
/-- A fade has run its ticks. -/
def Fade.over (f : Fade) : Bool := if f.rising then decide (f.x < f.w) else f.w == 0
/-- ENGINE_CD_SWAP at its boundary (R184, R185): a swap starts, or a running fade reverses, or a running reversal turns
back. DESIGN CHOICE (log entry 25): the weight at reversal is the numerator of w over CD_XFADE in tick TN′, after the first fall. -/
def applyCdSwap (c : Cmd) (s : State) : State :=
  let e := cIdx c
  let s := match (s.eng e).eq.fade with
    | some f => if f.over then s.cdSwapDone e (!f.rising) else s
    | none => s
  let q := (s.eng e).eq
  match q.fade with
  | some f =>
    if f.rising then
      (s.modEq e (fun q => { q with fade := some { f with w := f.w - 2, rising := false } })).raise .cdSwapReversed .engine e
        (w1 (f.w - 2) ++ w2 s.tn)
    else s.modEq e (fun q => { q with fade := some { f with w := min f.x (f.w + 2), rising := true } })
  | none =>
    match q.cdShadow with
    | none => s
    | some _ =>
      if q.xfade = 0 then s.cdSwapDone e false
      else s.modEq e (fun q => { q with fade := some { x := q.xfade, w := 1, rising := true }, slewing := false })
/-- CD_SWAP_DONE: a fade or reversal that has run its ticks completes. -/
def execCdSwapDone (e : Fin 48) (s : State) : Res :=
  match (s.eng e).eq.fade with
  | some f => if f.over then .next (s.cdSwapEnd e (!f.rising)) else .next s
  | none => .next s
/-- CD_DELAY_SETTLED: the slew has reached A(D) of the active bank: A in samples, RX_CD, TN. -/
def execCdDelaySettled (e : Fin 48) (s : State) : Res :=
  let q := (s.eng e).eq
  if q.slewing && q.fade.isNone && q.align == 64 * alignSamples q.cdActive then
    .next ((s.modEq e (fun q => { q with slewing := false })).raise .cdDelaySettled .engine e
      (w1 (q.align / 64) ++ wi2 (rxCdDelay q.align) ++ w2 s.tn))
  else .next s
/-- CD_FILTER_READY: the filter computed from D is in the shadow bank and ENGINE_CD_LOAD completes (R183). -/
def execCdFilterReady (e : Fin 48) (s : State) : Res :=
  match (s.eng e).eq.cdLoading with
  | some b => .next ((s.modEq e (fun q => { q with cdShadow := some b, cdLoading := none })).finishJobs
      (fun j => j.ticket.opcode == 0x117 && cIdx j.cmd == e.val) .ok 0 [])
  | none => .next s
/-- A swap of the engine is pending. -/
def State.cdPending (s : State) (e : Nat) : Bool := s.proto.armed.any (fun a => a.key.cls == 0x118 && a.key.index == e)
/-- The device's own swap command for an engine. -/
def ownSwap (e : Nat) : Cmd :=
  { src := .firmware, tag := 0, tn := none, noResponse := true, barrier := false, urgent := false, reserved := 0,
    issuer := 0, words := w1 (targetNat .engine e 0) }
/-- CD_TRACK_ESTIMATE: every 64 ticks the residual CD, in ps/nm, updates the CD estimate, and in AUTO mode the fourth
residual in a row beyond the threshold loads the shadow bank and swaps at TN + 8 (R188). A load of the shadow bank that is still running
is abandoned (R428). DESIGN CHOICE (log entry 25): the estimate and the run of residuals go on in CD_MODE MANUAL, so that a change to AUTO
may swap at its first estimate; the run stands still while a freeze holds tracking. -/
def execCdTrackEstimate (e : Fin 48) (residual : Int) (s : State) : Res :=
  let g := s.eng e
  let q := g.eq
  if s.tn % 64 = 0 ∧ q.estimatedAt ≠ some s.ticks then
    let s := s.modEq e (fun q => { q with estimatedAt := some s.ticks })
    let s := if q.freeze.holdsCd || !g.inFrame then s else s.modEq e (fun q => { q with est := { q.est with cdEst := clampI (-51000) 51000 (roundDiv (q.cdActive.d + residual) 2) } })
    let run := if !g.inFrame then 0 else if q.freeze.holdsTrack then q.residualRun else if q.trackThresh < residual.natAbs then q.residualRun + 1 else 0
    let s := s.modEq e (fun q => { q with residualRun := run })
    if q.cdAuto ∧ g.inFrame ∧ ¬ q.freeze.any ∧ ¬ s.cdPending e ∧ q.fade = none ∧ ¬ q.slewing ∧ 4 ≤ run then
      let d := clampI (-100000) 100000
        (q.cdActive.d + clampI (-2000) 2000 (2 * roundDiv (q.cdActive.d + residual) 2 - q.cdActive.d))
      let s := s.finishJobs (fun j => j.ticket.opcode == 0x117 && cIdx j.cmd == e.val) .cancelled (Ev.code .cdTrackSwap) []
      let s := s.modEq e (fun q => { q with cdShadow := some { d := d, centreN := s.slotCentre e },
                                            cdLoading := none, residualRun := 0 })
      let s := s.arm { due := s.tn + 8, key := { cls := 0x118, kind := 1, index := e, sub := 0 }, opcode := 0x118,
                       cmd := ownSwap e, ticket := none }
      .next ((s.raise .cdTrackSwap .engine e (wi q.cdActive.d ++ wi d ++ w2 (s.tn + 8))).count .cdTrackSwaps .engine e 1)
    else .next s
  else .next s
/-- SNR of every subcarrier over the pilots kept, in 0.1 dB; one without pilots keeps its last value (R202). -/
def Equaliser.snrNow (q : Equaliser) : List Int :=
  (List.range 8).map (fun i =>
    let x := q.pilotPow.map (fun t => t.getD i (0, 0))
    let p := (x.map (·.1)).foldl (· + ·) 0
    let n := (x.map (·.2)).foldl (· + ·) 0
    if p = 0 ∧ n = 0 then q.est.snr.getD i (-32768) else tenthsDb p n)
/-- The pilots of a tick enter the SNR window unless the tick is frozen (R202). DESIGN CHOICE (log entry 25): out of frame the window
empties. -/
def Equaliser.pilotsSeen (inFrame : Bool) (x : List (Nat × Nat)) (q : Equaliser) : Equaliser :=
  if !inFrame then { q with pilotPow := [] } else if q.freeze.any then q else { q with pilotPow := (x :: q.pilotPow).take 64 }
/-- ESTIMATOR_UPDATE: every 64 ticks SNR, DGD and PDL are recomputed unless held by a freeze (R200, R202). -/
def execEstimatorUpdate (e : Fin 48) (m : QualityMeas) (s : State) : Res :=
  let g := s.eng e
  if s.tn % 64 = 0 ∧ g.inFrame then
    .next (s.modEq e (fun q => { q with
      est := { q.est with
      snr := if q.freeze.holdsSnr then q.est.snr else q.snrNow
      dgd := if q.freeze.holdsSnr then q.est.dgd else min 4000 m.dgd
      pdl := if q.freeze.holdsSnr then q.est.pdl else min 100 m.pdl } }))
  else .next s
/-- `v` moved toward `t` by at most `m`. -/
def toward (m v t : Int) : Int := v + clampI (-m) m (t - v)
/-- RX_SKEW as applied: less the mean of the four, in 0.0025 ps (R180). -/
def skewLessMean (l : List Int) : List Int := l.map (fun z => 4 * z - l.foldl (· + ·) 0)
/-- RX_FE_AUTO_UPDATE: at most once per 625 ticks the applied corrections move toward the estimate by at most 0.05 ps,
0.01 dB and 0.01°, within the ranges of Table 6.1 (R180). -/
def execRxFeAutoUpdate (e : Fin 48) (m : FeEstimate) (s : State) : Res :=
  let q := (s.eng e).eq
  if q.rxFeAuto && !q.freeze.brace && q.lastFeUpdate.all (fun t => decide (t + 625 ≤ s.ticks)) then
    let skew := (List.zipWith (toward 5) q.rxSkew m.skew).map (clampI (-4000) 4000)
    .next (s.modEq e (fun q => { q with
      rxSkew := skew, skewApplied := skewLessMean skew
      rxIqGain := (List.zipWith (toward 1) q.rxIqGain m.gain).map (clampI (-100) 100)
      rxIqPhase := (List.zipWith (toward 1) q.rxIqPhase m.phase).map (clampI (-1000) 1000), lastFeUpdate := some s.ticks }))
  else .next s

/-! ### Freeze (R199, R200) -/

/-- LOW_POWER in one tick; the power latched at acquisition counts once the receiver has acquired. -/
def lowPowerNow (g : Engine) : Bool :=
  decide (g.inPower < g.acq.minPower + 30)
    || ((g.acq.state == .inFrame || g.acq.state == .oof) && decide (g.inPower < g.acq.record.rxPower - 100))
/-- One condition with its run of absent ticks: it ends after 16 consecutive ticks of absence. -/
def freezeHold (present now : Bool) (absent : Nat) : Bool × Nat :=
  if now then (true, 0) else if present then (decide (absent + 1 < 16), absent + 1) else (false, 0)
/-- The freeze evaluation of a tick. Entry raises RX_FREEZE with the reason bits and TN; each tick frozen counts. The end is
told by RX_THAW. -/
def State.freezeStep (e : Nat) (noClock pilotOnly : Bool) (s : State) : State :=
  let g := s.eng e
  if g.acq.state == .disabled then s
  else
    let q := g.eq
    let lp := freezeHold q.freeze.lowPower (lowPowerNow g) (q.absent.getD 0 0)
    let nc := freezeHold q.freeze.noClock noClock (q.absent.getD 1 0)
    let po := freezeHold q.freeze.pilotOnly pilotOnly (q.absent.getD 2 0)
    let f : FreezeFlags := { lowPower := lp.1, noClock := nc.1, pilotOnly := po.1, decodeFail := decide (4 ≤ q.decodeFails),
                             brace := s.power.braceEffect }
    let s := s.modEq e (fun q => { q with freeze := f, absent := [lp.2, nc.2, po.2]
                                          freezeStart := if f.any then some (q.freezeStart.getD s.ticks) else q.freezeStart
                                          frozenTicks := if f.any then (if q.freezeStart.isNone then 1 else q.frozenTicks + 1)
                                            else q.frozenTicks })
    let s := if f.any && !q.freeze.any && q.freezeStart.isNone then s.raise .rxFreeze .engine e (w1 f.code ++ w2 s.tn) else s
    if f.any then s.count .rxFreezeTicks .engine e 1 else s
/-- RX_THAW: the last condition has ended; RX_THAW carries the duration and TN. -/
def execRxThaw (e : Fin 48) (s : State) : Res :=
  let q := (s.eng e).eq
  match q.freezeStart with
  | some _ => if q.freeze.any then .next s
    else .next ((s.modEq e (fun q => { q with freezeStart := none })).raise .rxThaw .engine e
      (w1 q.frozenTicks ++ w2 s.tn))
  | none => .next s

/-! ### The equaliser's filters (R189, R190) -/

/-- One step of one tap, scaled by EQ_MU = 2⁻ᵏ. -/
def stepTap (k : Nat) (taps : List (List (List (Int × Int)))) (x : TapStep) : List (List (List (Int × Int))) :=
  taps.modify x.sc (fun fs => fs.modify x.filter (fun f => f.modify x.tap (fun h =>
    (h.1 + roundDiv x.re (2 ^ k), h.2 + roundDiv x.im (2 ^ k)))))
/-- Taps times their power, and the power, of a list of filters. -/
def tapPower (fs : List (List (Int × Int))) : Int × Int :=
  ((fs.map (fun f => f.zipIdx)).flatten).foldl
    (fun (a : Int × Int) x => let p := x.1.1 * x.1.1 + x.1.2 * x.1.2; (a.1 + (x.2 : Int) * p, a.2 + p)) (0, 0)
/-- c_s: the power-weighted mean tap index over the four filters of a subcarrier, in 1/256 tap (R190); the centre where every tap is 0. -/
def tapCentroid (fs : List (List (Int × Int))) : Nat :=
  let p := tapPower fs
  if p.2 = 0 then 3840 else (roundDiv (256 * p.1) p.2.natAbs).toNat
/-- A filter shifted by 2 taps: toward lower indices, or toward higher ones. -/
def shiftFilter (down : Bool) (f : List (Int × Int)) : List (Int × Int) :=
  if down then f.drop 2 ++ [(0, 0), (0, 0)] else [(0, 0), (0, 0)] ++ f.take (f.length - 2)
/-- Adaptation of a tick (R189): always from sync and pilots, in EQ_MODE DD from decisions too, each unless a freeze holds it
(Table 6.9). -/
def Equaliser.adapt (o : EngineObs) (q : Equaliser) : Equaliser :=
  if q.freeze.holdsSnr then q
  else
    let dd := q.eqMode = 1 ∧ ¬ q.freeze.pilotOnly ∧ ¬ q.freeze.decodeFail
    let taps := (o.pilotSteps ++ (if dd then o.decisionSteps else [])).foldl (stepTap q.eqMu) q.taps
    { q with taps := taps, centroid := taps.map tapCentroid }
/-- Subcarriers whose centroid is further than 2 from tap 15. -/
def Equaliser.offCentre (q : Equaliser) (layout : Nat) : List Nat :=
  (List.range 8).filter (fun i => scActive layout i && decide (512 < ((q.centroid.getD i 3840 : Nat) : Int) - 3840 ∨
    ((q.centroid.getD i 3840 : Nat) : Int) - 3840 < -512))
/-- At a tick boundary the taps of a subcarrier off centre shift by 2 toward it, and its symbol alignment moves by one symbol in the
opposite sense, so that the output does not change (R190). -/
def State.recentreTaps (e : Nat) (s : State) : State :=
  let off := (s.eng e).eq.offCentre (s.eng e).rxLayout
  if off.isEmpty then s
  else (s.modEq e (fun q => off.foldl (fun q i =>
      let down := decide (3840 < q.centroid.getD i 3840)
      let taps := q.taps.modify i (fun fs => fs.map (shiftFilter down))
      { q with taps := taps, centroid := q.centroid.set i (tapCentroid (taps.getD i []))
               symAlign := q.symAlign.modify i (fun z => if down then z + 1 else z - 1) }) q)).count .eqRecentres .engine e off.length

/-! ### Carrier recovery (R196) -/

/-- A phase difference in −1/2 to 1/2 turn, in 2⁻¹⁶ turn. -/
def wrapTurn (x : Int) : Int := (x + 32768) % 65536 - 32768
/-- Pilot phases made continuous: a slip is corrected from its pilot onward (R196). DESIGN CHOICE (log entry 25): a jump is rounded to the
nearest quarter turn, so it is a slip from an eighth of a turn on. From the phase before, the correction in force and the phases seen: the
corrected ones, the correction after them, and the slips. -/
def slipWalk : Int → Int → List Int → List Int × Int × Nat
  | _, fix, [] => ([], fix, 0)
  | prev, fix, p :: r =>
    let d := wrapTurn (p + fix - prev)
    let k := roundDiv d 16384
    let now := prev + d - 16384 * k
    let t := slipWalk now (fix - 16384 * k) r
    (now :: t.1, t.2.1, t.2.2 + (if k = 0 then 0 else 1))
/-- Each phase averaged with n phases on either side of it, as far as there are. -/
def averaged (n : Nat) (l : List Int) : List Int :=
  (List.range l.length).map (fun j =>
    let w := (l.drop (j - n)).take (min j n + n + 1)
    roundDiv (w.foldl (· + ·) 0) w.length)
/-- The phase at symbol i after pilot j, interpolated linearly to the next pilot (R196). -/
def phaseAt (l : List Int) (j i : Nat) : Int :=
  let a := l.getD j 0
  a + roundDiv ((l.getD (j + 1) a - a) * i) 32
/-- The mean phase of a stream over the symbols of a tick, from its pilots and the first pilot after them. -/
def streamPhase (l : List Int) : Int :=
  roundDiv (((List.range (l.length - 1)).map (fun j => ((List.range 32).map (phaseAt l j)).foldl (· + ·) 0)).foldl (· + ·) 0)
    (32 * (l.length - 1))
/-- Phases at the pilots of the tick before the newest and at the first pilot of the newest, each averaged with n pilots on either side,
across the ticks' edges (R196). -/
def acrossTicks (n : Nat) (before last now : List Int) : List Int :=
  ((averaged n (before ++ last ++ now)).drop before.length).take (last.length + 1)
/-- The mean of two phases, or of more. -/
def meanPhase (l : List Int) : Int := roundDiv (l.foldl (· + ·) 0) l.length
/-- Carrier recovery in a tick (R196): each stream's pilots are corrected for slips; with them the phases of the tick before, whose pilots
now have their neighbours on either side, are averaged, refined from decisions in EQ_MODE DD, and interpolated. What is then published to
the neighbours is of that tick: the edge subcarriers' phases less the engine's mean, and the rotation rate; it is valid if that tick was
not frozen (R200). Streams are the active ones of the layout in ascending order. DESIGN CHOICE (log entry 25): the phases are complete one
tick late; PILOT_ONLY and DECODE_FAIL hold the refinement from decisions. -/
def Equaliser.carrier (layout : Nat) (o : EngineObs) (q : Equaliser) : Equaliser × Nat :=
  let walks := o.pilots.zipIdx.map (fun x =>
    slipWalk (((q.trail.getD x.2 ([], [])).2.getLast?).getD (x.1.headD 0 + q.slipFix.getD x.2 0)) (q.slipFix.getD x.2 0) x.1)
  let dd := q.eqMode = 1 ∧ ¬ q.freeze.pilotOnly ∧ ¬ q.freeze.decodeFail
  let known := walks.zipIdx.all (fun x => !(q.trail.getD x.2 ([], [])).2.isEmpty && !x.1.1.isEmpty) && !walks.isEmpty
  let phases := if !known then [] else walks.zipIdx.map (fun x =>
    let t := q.trail.getD x.2 ([], [])
    (acrossTicks q.crAvg t.1 t.2 x.1.1).zipIdx.map (fun y => y.1 + ((q.refine.getD x.2 []).getD y.2 0)))
  let scs := (activeOf layout).map (fun x => (x.1, meanPhase [streamPhase (phases.getD (2 * x.2) []), streamPhase (phases.getD (2 * x.2 + 1) [])]))
  let mean := meanPhase (scs.map (·.2))
  let edge := fun (k : Nat) => match scs.find? (fun x => x.1 == k) with | some x => x.2 - mean | none => 0
  let slipped := ((activeOf layout).filter (fun x => [2 * x.2, 2 * x.2 + 1].any (fun i =>
    (walks.getD i ([], 0, 0)).2.2 != 0))).map (·.1)
  ({ q with trail := walks.zipIdx.map (fun x =>
              let t := q.trail.getD x.2 ([], [])
              ((t.1 ++ t.2).drop ((t.1 ++ t.2).length - 16), x.1.1))
            refine := if dd then o.decisions else [], newest := if q.freeze.any then none else some (o.rotRate, slipped)
            phases := phases, slipFix := walks.map (fun x => x.2.1), edgePhase := (edge 0, edge 7)
            rotRate := match q.newest with | some x => x.1 | none => q.rotRate
            nbrValid := known && q.newest.isSome, slipped := match q.newest with | some x => x.2 | none => [] },
    (walks.map (fun x => x.2.2)).foldl (· + ·) 0)
/-- What an engine's receive signal processing shows in a tick (R167, R189, R192, R196, R199, R200): the freeze conditions are judged
first, and what they hold keeps its last value; timing and carrier phase go on. -/
def State.receiverSeen (e : Nat) (o : EngineObs) (s : State) : State :=
  let s := s.freezeStep e o.noClock o.pilotOnly
  let g := s.eng e
  let f := g.eq.freeze
  let s := match o.residual with | some r => s.residualSeen e (if f.holdsSnr then g.acq.residual else r) | none => s
  let r := (((s.eng e).eq.pilotsSeen g.inFrame o.pilotPow).adapt o).carrier g.rxLayout o
  (s.modEq e (fun _ => { r.1 with
    est := { r.1.est with
    sopRate := if f.holdsSnr then r.1.est.sopRate else min 100000 o.sopRate
    timingFo := if f.noClock || f.brace then r.1.est.timingFo else clampI (-15000000) 15000000 o.timingFo } })).count
      .cycleSlips .engine e r.2

/-! ### Commands -/

/-- Two signed 16-bit values in one word. -/
def pair16 (a b : Int) : List Word := w1 (ux 16 a * 65536 + ux 16 b)
/-- The upper and the lower signed 16-bit value of word k. -/
def cHi (c : Cmd) (k : Nat) : Int := sx 16 (field (cw c k) 16 16)
/-- The lower signed 16-bit value of word k. -/
def cLo (c : Cmd) (k : Nat) : Int := sx 16 (field (cw c k) 0 16)
/-- A setting of one engine's equaliser by name. -/
def readEq (f : Equaliser → List Word) : Option ReadBack :=
  some { selectors := 0, ok := fun _ _ => true, get := fun c s => f (s.eng (cIdx c)).eq }
/-- ENGINE_RXFE_SET at its boundary (R180): one accepted under RX_FE_AUTO writes no values. -/
def applyRxfe (c : Cmd) (s : State) : State :=
  if (s.eng (cIdx c)).eq.rxFeKeep then s
  else s.modEq (cIdx c) (fun q => { q with
    rxSkew := [cHi c 1, cLo c 1, cHi c 2, cLo c 2], skewApplied := skewLessMean [cHi c 1, cLo c 1, cHi c 2, cLo c 2]
    rxIqGain := [cHi c 3, cLo c 3], rxIqPhase := [cHi c 4, cLo c 4] })
/-- A change of the values themselves, beside RX_FE_AUTO. DESIGN CHOICE (log entry 25): the command carries both, and one whose values are
those in force is taken to write none. -/
def rxfeWrites (q : Equaliser) (c : Cmd) : Bool :=
  !(q.rxSkew == [cHi c 1, cLo c 1, cHi c 2, cLo c 2] && q.rxIqGain == [cHi c 3, cLo c 3]
    && q.rxIqPhase == [cHi c 4, cLo c 4])
/-- ENGINE_RXFE_SET (R180): while RX_FE_AUTO is set, a command that writes the values is refused with MODE. The values take effect at a
named TN, RX_FE_AUTO at the next tick boundary (Table 6.1). -/
def specEngineRxfeSet : OpSpec :=
  { code := 0x115, align := .yes, len := lenIs 6, target := tgtEngine, fence := fenceEngine
    ranges := [ rngH 1 true (-4000) 4000, rngH 1 false (-4000) 4000, rngH 2 true (-4000) 4000, rngH 2 false (-4000) 4000
              , rngH 3 true (-100) 100, rngH 3 false (-100) 100, rngH 4 true (-1000) 1000, rngH 4 false (-1000) 1000
              , rngU 5 0 1 ]
    refuse := fun s c =>
      let q := (s.eng (cIdx c)).eq
      if q.rxFeAuto && rxfeWrites q c then some (.mode, 0) else none
    onAccept := fun c s => s.modEq (cIdx c) (fun q => { q with rxFeAutoNext := some (cw c 5 == 1), rxFeKeep := q.rxFeAuto })
    eff := .boundary 0x115 applyRxfe
    read := readEq (fun q => pair16 (q.rxSkew.getD 0 0) (q.rxSkew.getD 1 0) ++ pair16 (q.rxSkew.getD 2 0) (q.rxSkew.getD 3 0)
      ++ pair16 (q.rxIqGain.getD 0 0) (q.rxIqGain.getD 1 0) ++ pair16 (q.rxIqPhase.getD 0 0) (q.rxIqPhase.getD 1 0)
      ++ w1 (b2n q.rxFeAuto)) }
/-- ENGINE_RXFE_SET: sets receive front-end corrections. -/
def execEngineRxfeSet (c : Cmd) (s : State) : Res := runOp specEngineRxfeSet c s
/-- ENGINE_CD_SET (Table 6.2): the scan values from the next search pass, the others from the next boundary. Each is counted in the step of
its table: 100, 1,000 and 2 ps/nm (R422). -/
def specEngineCdSet : OpSpec :=
  { code := 0x116, len := lenIs 7, target := tgtEngine, fence := fenceEngine
    ranges := [rngS 1 (-1000) 1000, rngU 2 1 200, rngU 3 0 1, rngU 4 10 1000, rngU 5 0 256, rngU 6 1 64]
    eff := .boundary 0x116 (fun c s => s.modEq (cIdx c) (fun q => { q with
      scanNext := some (100 * cz c 1, 1000 * cw c 2), cdAuto := cw c 3 == 1, trackThresh := 2 * cw c 4, xfade := cw c 5
      delaySlew := cw c 6 }))
    read := readEq (fun q => wi (q.scanCentre / 100) ++ w1 (q.scanSpan / 1000) ++ w1 (b2n q.cdAuto) ++ w1 (q.trackThresh / 2) ++ w1 q.xfade
      ++ w1 q.delaySlew) }
/-- ENGINE_CD_SET: sets CD scan and tracking parameters. -/
def execEngineCdSet (c : Cmd) (s : State) : Res := runOp specEngineCdSet c s
/-- The refusals of Table 6.3 common to load and swap. -/
def cdStoreRefusal (s : State) (e : Nat) : Option (Status × Nat) :=
  let g := s.eng e
  if g.acq.state != .inFrame && g.acq.state != .oof then some (.notInFrame, 0)
  else if g.eq.cdAuto then some (.mode, 0) else none
/-- ENGINE_CD_LOAD (R183): D is counted in its step of 2 ps/nm (R181, R422). -/
def specEngineCdLoad : OpSpec :=
  { code := 0x117, cls := .long, len := lenIs 2, target := tgtEngine, fence := fenceEngine
    ranges := [rngS 1 (-50000) 50000]
    refuse := fun s c =>
      let e := cIdx c
      match cdStoreRefusal s e with
      | some r => some r
      | none => if s.cdPending e || (s.eng e).eq.fade.isSome then some (.bankInUse, 0) else none
    eff := .long (fun j c s =>
      let e := cIdx c
      let s := s.finishJobs (fun j => j.ticket.opcode == 0x117 && cIdx j.cmd == e) .superseded c.tag.val []
      (s.modProto (fun p => { p with jobs := p.jobs ++ [j] })).modEq e (fun q => { q with
        cdShadow := none, cdLoading := some { d := 2 * cz c 1, centreN := s.slotCentre e } })) }
/-- ENGINE_CD_LOAD: loads a CD value into the shadow bank; FINAL when the filter is ready. -/
def execEngineCdLoad (c : Cmd) (s : State) : Res := runOp specEngineCdLoad c s
/-- ENGINE_CD_SWAP (R183, R185). -/
def specEngineCdSwap : OpSpec :=
  { code := 0x118, align := .yes, len := lenIs 1, target := tgtEngine, fence := fenceEngine
    refuse := fun s c =>
      let e := cIdx c
      match cdStoreRefusal s e with
      | some r => some r
      | none => if (s.eng e).eq.cdShadow.isNone then some (.bankEmpty, 0) else none
    eff := .boundary 0x118 applyCdSwap }
/-- ENGINE_CD_SWAP: starts, replaces or reverses a CD bank swap. -/
def execEngineCdSwap (c : Cmd) (s : State) : Res := runOp specEngineCdSwap c s
/-- ENGINE_EQ_SET (Table 6.6): from the next boundary. -/
def specEngineEqSet : OpSpec :=
  { code := 0x119, len := lenIs 7, target := tgtEngine, fence := fenceEngine
    ranges := [rngU 1 0 1, rngU 2 6 14, rngU 3 1 40, rngU 4 1 16, rngU 5 0 1, rngU 6 0 1]
    eff := .boundary 0x119 (fun c s => s.modEq (cIdx c) (fun q => { q with
      eqMode := cw c 1, eqMu := cw c 2, trBw := cw c 3, crAvg := cw c 4, nbrCr := cw c 5 == 1, nbrSop := cw c 6 == 1 }))
    read := readEq (fun q => w1 q.eqMode ++ w1 q.eqMu ++ w1 q.trBw ++ w1 q.crAvg ++ w1 (b2n q.nbrCr) ++ w1 (b2n q.nbrSop)) }
/-- ENGINE_EQ_SET: sets equaliser and recovery parameters. -/
def execEngineEqSet (c : Cmd) (s : State) : Res := runOp specEngineEqSet c s
/-- FREQ_OFFSET: COARSE_FO plus the residual, within its range of ±6,500 MHz, in 0.1 MHz (Table 6.10). -/
def Acquisition.freqOffset (a : Acquisition) : Int := clampI (-65000) 65000 (10 * a.coarseFo + a.residual)
/-- STALE flags in the order of Table 6.10: SNR, PRE_FEC_BER, CD_EST, DGD_EST, PDL_EST, SOP_RATE, FREQ_OFFSET, TIMING_FO. What is made of
the taps is held with them. -/
def staleFlags (f : FreezeFlags) : List Bool :=
  List.replicate 8 f.holdsSnr ++ [false, f.holdsCd, f.holdsSnr, f.holdsSnr, f.holdsSnr, f.holdsSnr, f.noClock || f.brace]
/-- ENGINE_RX_QUALITY (R201). -/
def specEngineRxQuality : OpSpec :=
  { code := 0x11A, len := lenIs 1, target := tgtEngine
    eff := .now (fun c s =>
      let g := s.eng (cIdx c)
      let t := g.eq.est
      (s, [Config.qualityBitmap g.inFrame (staleFlags g.eq.freeze)]
        ++ pair16 (t.snr.getD 0 0) (t.snr.getD 1 0) ++ pair16 (t.snr.getD 2 0) (t.snr.getD 3 0)
        ++ pair16 (t.snr.getD 4 0) (t.snr.getD 5 0) ++ pair16 (t.snr.getD 6 0) (t.snr.getD 7 0)
        ++ w1 t.preFecBer ++ wi t.cdEst ++ w1 t.dgd ++ w1 t.pdl ++ w1 t.sopRate
        ++ wi g.acq.freqOffset ++ wi t.timingFo)) }
/-- ENGINE_RX_QUALITY: returns all receive estimates. -/
def execEngineRxQuality (c : Cmd) (s : State) : Res := runOp specEngineRxQuality c s

end Sys2Proof.Machine
end

