-- ==== Sys2Proof/Machine/Transmit.lean ====
section
/-! DEFINITION. Transmit Signal Processing: synthesis and correction settings (R125, R129), pre-emphasis and NLC banks (R127,
R141), the spectral map and neighbours (R131 to R136), clipping (R126), and the Muzzle (R142 to R147).
What it chooses or infers where the manual is silent, with its marks: log entry 24. -/
namespace Sys2Proof.Machine

/-- Applies `f` to the transmitter of an engine. -/
def State.modTx (e : Nat) (f : Transmit → Transmit) (s : State) : State := s.modEng e (fun g => { g with tx := f g.tx })
/-- A setting of one engine's transmitter. -/
def readTx (f : Transmit → List Word) : Option ReadBack :=
  some { selectors := 0, ok := fun _ _ => true, get := fun c s => f (s.eng (cIdx c)).tx }
/-- A value of n bits as signed octets of words 2 and 3, SC0 first. -/
def octetsOf2 (c : Cmd) (k : Nat) : List Int := (List.range 8).map (fun i => sx 8 (field (cw c (k + i / 4)) (24 - 8 * (i % 4)) 8))
/-- Eight signed octets as two words. -/
def octetWords (l : List Int) : List Word := packOctets (l.map (fun z => BitVec.ofInt 8 z))

/-- ENGINE_SYNTH_SET at its boundary. -/
def applySynth (c : Cmd) (s : State) : State :=
  s.modTx (cIdx c) (fun t => { t with
    rollOff := cw c 1, scPower := octetsOf2 c 2, xyBalance := cz c 4, dacBackoff := cz c 5 })
/-- ENGINE_SYNTH_SET (Table 4.1): ROLL_OFF in steps of 1/512, 0.010 to 0.0625, so 6 to 32. -/
def specEngineSynthSet : OpSpec :=
  { code := 0x105, align := .yes, len := lenIs 6, target := tgtEngine, fence := fenceEngine
    ranges := [ rngU 1 6 32
              , (2, fun _ c => ((octetsOf2 c 2).take 4).all (fun z => decide (-60 ≤ z) && decide (z ≤ 30)))
              , (3, fun _ c => ((octetsOf2 c 2).drop 4).all (fun z => decide (-60 ≤ z) && decide (z ≤ 30)))
              , rngS 4 (-30) 30, rngS 5 (-160) (-80) ]
    refuse := fun s c => if cw c 1 != (s.eng (cIdx c)).tx.rollOff then inTraffic s c else none
    eff := .boundary 0x105 applySynth
    read := readTx (fun t => w1 t.rollOff ++ octetWords t.scPower ++ wi t.xyBalance ++ wi t.dacBackoff) }
/-- ENGINE_SYNTH_SET: sets synthesis and drive parameters. -/
def execEngineSynthSet (c : Cmd) (s : State) : Res := runOp specEngineSynthSet c s

/-- ENGINE_TXCORR_SET at its boundary. -/
def applyTxcorr (c : Cmd) (s : State) : State :=
  s.modTx (cIdx c) (fun t => { t with
    txSkew := [cHi c 1, cLo c 1, cHi c 2, cLo c 2], iqGain := [cHi c 3, cLo c 3], iqPhase := [cHi c 4, cLo c 4]
    dcOffset := [cHi c 5, cLo c 5, cHi c 6, cLo c 6] })
/-- ENGINE_TXCORR_SET (Table 4.2). -/
def specEngineTxcorrSet : OpSpec :=
  { code := 0x106, align := .yes, len := lenIs 7, target := tgtEngine, fence := fenceEngine
    ranges := [ rngH 1 true (-4000) 4000, rngH 1 false (-4000) 4000, rngH 2 true (-4000) 4000, rngH 2 false (-4000) 4000
              , rngH 3 true (-100) 100, rngH 3 false (-100) 100, rngH 4 true (-1000) 1000, rngH 4 false (-1000) 1000
              , rngH 5 true (-256) 255, rngH 5 false (-256) 255, rngH 6 true (-256) 255, rngH 6 false (-256) 255 ]
    eff := .boundary 0x106 applyTxcorr
    read := readTx (fun t =>
      pair16 (t.txSkew.getD 0 0) (t.txSkew.getD 1 0) ++ pair16 (t.txSkew.getD 2 0) (t.txSkew.getD 3 0)
      ++ pair16 (t.iqGain.getD 0 0) (t.iqGain.getD 1 0) ++ pair16 (t.iqPhase.getD 0 0) (t.iqPhase.getD 1 0)
      ++ pair16 (t.dcOffset.getD 0 0) (t.dcOffset.getD 1 0) ++ pair16 (t.dcOffset.getD 2 0) (t.dcOffset.getD 3 0)) }
/-- ENGINE_TXCORR_SET: sets transmit skew, IQ and DC corrections. -/
def execEngineTxcorrSet (c : Cmd) (s : State) : Res := runOp specEngineTxcorrSet c s

/-- Tap i of ENGINE_PREEMPH_LOAD, XI tap 0 first, two signed 16-bit fields to a word. -/
def preTap (c : Cmd) (i : Nat) : Int := sx 16 (field (cw c (1 + i / 2)) (if i % 2 = 0 then 16 else 0) 16)
/-- The 68 taps. -/
def preTaps (c : Cmd) : List Int := (List.range 68).map (preTap c)
/-- The sum of a lane's 17 taps. -/
def tapSum (l : List Int) (lane : Nat) : Int := ((l.drop (17 * lane)).take 17).foldl (· + ·) 0
/-- Σ k × h_k of a lane. -/
def tapMoment (l : List Int) (lane : Nat) : Int :=
  ((List.range 17).map (fun k => ((k : Nat) : Int) * l.getD (17 * lane + k) 0)).foldl (· + ·) 0
/-- TX_PE_GD (R128): the mean over the lanes of (Σ k h_k / Σ h_k − 8) × T_smp, in 2⁻¹⁶ ns. -/
def txPeGd (l : List Int) : Int :=
  let q : Rat := ((List.range 4).map (fun i =>
    (tapMoment l i : Rat) / (tapSum l i : Rat) - 8)).foldl (· + ·) 0
  (q / 4 * 65536 / 225).floor
/-- A pending change of a resource class on an engine. -/
def State.pendingOn (s : State) (cls e : Nat) : Bool := s.proto.armed.any (fun a => a.key.cls == cls && a.key.index == e)
/-- ENGINE_PREEMPH_LOAD (R127, R128): each tap a signed 12-bit value; a lane whose taps sum to 0 or less is refused. -/
def specEnginePreemphLoad : OpSpec :=
  { code := 0x107, len := lenIs 35, target := tgtEngine, fence := fenceEngine
    ranges := (List.range 34).map (fun j => (j + 1, fun _ c =>
      [2 * j, 2 * j + 1].all (fun i => decide (-2048 ≤ preTap c i) && decide (preTap c i ≤ 2047))))
    refuse := fun s c =>
      if s.pendingOn 0x108 (cIdx c) then some (.bankInUse, 0)
      else match (List.range 4).find? (fun l => decide (tapSum (preTaps c) l ≤ 0)) with
        | some l => some (.coefficientInvalid, 1 + 17 * l / 2)
        | none => none
    eff := .now (fun c s => (s.modTx (cIdx c) (fun t => { t with preShadow := preTaps c }), [])) }
/-- ENGINE_PREEMPH_LOAD: writes the pre-emphasis shadow bank. -/
def execEnginePreemphLoad (c : Cmd) (s : State) : Res := runOp specEnginePreemphLoad c s
/-- ENGINE_PREEMPH_SWAP at its boundary: the banks exchange, so that the shadow holds what was active. DESIGN CHOICE (log entry 24): the
manual says what becomes active, and nothing of the shadow. -/
def applyPreSwap (c : Cmd) (s : State) : State :=
  s.modTx (cIdx c) (fun t => { t with preActive := t.preShadow, preShadow := t.preActive })
/-- ENGINE_PREEMPH_SWAP (R127). -/
def specEnginePreemphSwap : OpSpec :=
  { code := 0x108, align := .yes, len := lenIs 1, target := tgtEngine, fence := fenceEngine
    eff := .boundary 0x108 applyPreSwap }
/-- ENGINE_PREEMPH_SWAP: swaps in the pre-emphasis shadow bank. -/
def execEnginePreemphSwap (c : Cmd) (s : State) : Res := runOp specEnginePreemphSwap c s

/-- ENGINE_NLC_SET (R141). -/
def specEngineNlcSet : OpSpec :=
  { code := 0x10A, align := .yes, len := lenIs 3, target := tgtEngine, fence := fenceEngine
    ranges := [rngU 1 0 3, rngU 2 0 64], refuse := modeZr
    eff := .boundary 0x10A (fun c s => s.modTx (cIdx c) (fun t => { t with nlcMode := cw c 1, nlcGain := cw c 2 }))
    read := readTx (fun t => w1 t.nlcMode ++ w1 t.nlcGain) }
/-- ENGINE_NLC_SET: sets NLC_MODE and NLC_GAIN. -/
def execEngineNlcSet (c : Cmd) (s : State) : Res := runOp specEngineNlcSet c s
/-- ENGINE_NLC_COEF_LOAD (R141): 2,048 words by DMA to the shadow bank; NLC_WINDOW is counted in its step of 8 symbols (R422). -/
def specEngineNlcCoefLoad : OpSpec :=
  { code := 0x10B, cls := .long, len := lenIs 3, target := tgtEngine, fence := fenceEngine
    ranges := [rngChan, rngU 2 1 8]
    refuse := fun s c =>
      if (s.eng (cIdx c)).zr then some (.mode, 0)
      else if s.pendingOn 0x10C (cIdx c) then some (.bankInUse, 0)
      else dmaRefusal s c 8192
    eff := .long dmaEffect }
/-- ENGINE_NLC_COEF_LOAD: loads NLC coefficients to the shadow bank. -/
def execEngineNlcCoefLoad (c : Cmd) (s : State) : Res := runOp specEngineNlcCoefLoad c s
/-- ENGINE_NLC_COEF_SWAP at its boundary: the waiting NLC_WINDOW comes with the swap. Both the banks and the windows exchange. DESIGN
CHOICE (log entry 24): the manual says nothing of the shadow bank, or of the waiting window, after a swap. -/
def applyNlcSwap (c : Cmd) (s : State) : State :=
  s.modTx (cIdx c) (fun t => { t with
    nlcActive := t.nlcShadow, nlcShadow := t.nlcActive, nlcWindow := t.nlcWindowNext, nlcWindowNext := t.nlcWindow })
/-- ENGINE_NLC_COEF_SWAP (R141). -/
def specEngineNlcCoefSwap : OpSpec :=
  { code := 0x10C, align := .yes, len := lenIs 1, target := tgtEngine, fence := fenceEngine, refuse := modeZr
    eff := .boundary 0x10C applyNlcSwap }
/-- ENGINE_NLC_COEF_SWAP: swaps in the NLC coefficient bank. -/
def execEngineNlcCoefSwap (c : Cmd) (s : State) : Res := runOp specEngineNlcCoefSwap c s

/-! ### Spectral map and neighbours -/

/-- CENTRE_N of engine n in SPECTRAL_MAP_SET, bits [15:0]. -/
def mapCentreOf (c : Cmd) (n : Nat) : Int := sx 16 (cw c (n + 1))
/-- Map entry of engine n in SPECTRAL_MAP_SET, valid where MAP_VALID, bit [16], is set. -/
def mapEntry (c : Cmd) (n : Nat) : Option Int := if bit (cw c (n + 1)) 16 then some (mapCentreOf c n) else none
/-- Two valid entries closer than 34: lower index first (R132). -/
def mapOverlap (c : Cmd) : Option (Nat × Nat) :=
  (List.range 48).findSome? (fun a => (List.range 48).findSome? (fun b =>
    match mapEntry c a, mapEntry c b with
    | some x, some y => if a < b ∧ (x - y).natAbs < 34 then some (if x ≤ y then (a, b) else (b, a)) else none
    | _, _ => none))
/-- SPECTRAL_MAP_SET at its boundary: every entry's CENTRE_N is held, valid or not (R131). -/
def applyMap (c : Cmd) (s : State) : State :=
  { s with map := Vector.ofFn (fun n : Fin 48 => mapEntry c n), mapCentre := Vector.ofFn (fun n : Fin 48 => mapCentreOf c n) }
/-- SPECTRAL_MAP_SET (R131, R132). -/
def specSpectralMapSet : OpSpec :=
  { code := 0x109, align := .yes, len := lenIs 49, target := tgtDevice
    ranges := (List.range 48).map (fun n => (n + 1, fun _ c =>
      decide (cw c (n + 1) < 2 ^ 17) && decide (-1280 ≤ mapCentreOf c n) && decide (mapCentreOf c n ≤ 512)))
    refuse := fun _ c => (mapOverlap c).map (fun p => (.spectralOverlap, p.1 * 256 + p.2))
    eff := .boundary 0x109 applyMap
    read := some {
      selectors := 0, ok := fun _ _ => true, get := fun _ s =>
      (s.map.toList.zipIdx.map (fun x => w1 ((if x.1.isSome then 65536 else 0) + ux 16 (vget s.mapCentre x.2 0)))).flatten } }
/-- SPECTRAL_MAP_SET: sets the whole spectral map. -/
def execSpectralMapSet (c : Cmd) (s : State) : Res := runOp specSpectralMapSet c s

/-- The engine whose valid entry has the given CENTRE_N. -/
def engineAt (m : Vector (Option Int) 48) (x : Int) : Option Nat := m.toList.findIdx? (fun y => y == some x)
/-- The neighbour engine at position p of engine a: 0 upper first, 1 upper second, 2 lower first, 3 lower second
(R133). -/
def neighbour (m : Vector (Option Int) 48) (a p : Nat) : Option Nat :=
  match vget m a none with
  | none => none
  | some x =>
    let d : Int := if p < 2 then 34 else -34
    match engineAt m (x + d) with
    | none => none
    | some n => if p % 2 = 0 then some n else engineAt m (x + 2 * d)
/-- Status of a neighbour position (Table 4.3): the lowest non-zero code that applies; receive with `rx`. DESIGN CHOICE (log entry 24):
the layouts and the capacity of the transmit direction decide for both, since the manual does not say which direction's RATE_CODE and
capacity the receive status looks at. -/
def nbrStatus (s : State) (a p : Nat) (rx : Bool) : Nat :=
  match neighbour s.map a p with
  | none => 1
  | some n =>
    let g := s.eng a
    let h := s.eng n
    let far := tileOf n + 1 < tileOf a || tileOf a + 1 < tileOf n
    if far then 2 else if s.fenced n then 3 else if g.iso.isSome || h.iso.isSome then 4 else if g.zr || h.zr then 5
    else if rateCode g.txLayout != rateCode h.txLayout then 6
    else if h.kTx == 0 || (!rx && h.tx.muzzle == .muzzled) then 7
    else if rx && !h.inFrame then 8 else 0
/-- Brings the statuses of an engine up to date (R136, R198): each change raises NBR_CHANGE with position, direction, old and
new code, and TN. -/
def State.nbrStep (a : Nat) (s : State) : State :=
  (List.range 4).foldl (fun s p =>
    [false, true].foldl (fun s rx =>
      let t := (s.eng a).tx
      let old := (if rx then t.nbrRx else t.nbrTx).getD p 1
      let new := nbrStatus s a p rx
      if old = new then s
      else (s.modTx a (fun t => if rx then { t with nbrRx := t.nbrRx.set p new } else { t with nbrTx := t.nbrTx.set p new })).raise
        .nbrChange .engine a (w1 p ++ w1 (b2n rx) ++ w1 old ++ w1 new ++ w2 s.tn)) s) s
/-- Four statuses as 16 bits, lower second in the top nibble. -/
def nbrField (l : List Nat) : Nat := l.getD 0 1 + l.getD 1 1 * 16 + l.getD 2 1 * 256 + l.getD 3 1 * 4096
/-- ENGINE_NBR_STATUS (R135). -/
def specEngineNbrStatus : OpSpec :=
  { code := 0x11B, len := lenIs 1, target := tgtEngine
    eff := .now (fun c s =>
      let t := (s.eng (cIdx c)).tx
      let n := fun p => ((neighbour s.map (cIdx c) p).getD 0xFF)
      (s, w1 (nbrField t.nbrTx * 65536 + nbrField t.nbrRx) ++ w1 (n 3 * 2 ^ 24 + n 2 * 2 ^ 16 + n 1 * 256 + n 0))) }
/-- ENGINE_NBR_STATUS: returns neighbour status codes and engines. -/
def execEngineNbrStatus (c : Cmd) (s : State) : Res := runOp specEngineNbrStatus c s

/-! ### Neighbours' receive estimates (R197, R198) -/

/-- The neighbours at positions `ps` whose receive status is ACTIVE and whose estimates of the tick count: none of a frozen one, nor, for
an edge phase, of one that slipped on that subcarrier or does not use it (R139, R198). -/
def State.helpers (s : State) (e : Nat) (ps : List Nat) (sc : Option Nat) : List Equaliser :=
  ps.filterMap (fun p =>
    if (s.eng e).tx.nbrRx.getD p 1 != 0 then none
    else match neighbour s.map e p with
      | none => none
      | some n =>
        let g := s.eng n
        if g.eq.nbrValid && sc.all (fun k => scActive g.rxLayout k && !g.eq.slipped.contains k) then some g.eq else none)
/-- Phases of two of the streams under a prior: those of the active subcarrier numbered k. -/
def primed (prior : List Int) (l : List (List Int)) (k : Nat) : List (List Int) :=
  l.zipIdx.map (fun x => if x.2 / 2 = k then x.1.map (fun p => Config.phasePrior p prior) else x.1)
/-- The pilot phases of a subcarrier's two streams under a prior. -/
def Equaliser.underPrior (layout sc : Nat) (prior : List Int) (q : Equaliser) : Equaliser :=
  match (activeOf layout).find? (fun x => x.1 == sc) with
  | some x => if prior.isEmpty then q else { q with phases := primed prior q.phases x.2 }
  | none => q
/-- The rotation rates fed into the update of every active subcarrier's taps. -/
def Equaliser.underRotation (layout : Nat) (rates : List Int) (q : Equaliser) : Equaliser :=
  if rates.isEmpty || q.freeze.holdsSnr then q
  else
    let taps := q.taps.zipIdx.map (fun x => if scActive layout x.2 then x.1.zipIdx.map (fun y => y.1.zipIdx.map (fun z =>
      let d := Config.rotationStep rates x.2 y.2 z.2
      (z.1.1 + d.1, z.1.2 + d.2))) else x.1)
    { q with taps := taps, centroid := taps.map tapCentroid }
/-- The estimates an engine used in a tick. -/
def Equaliser.aided (low high sop : List Int) (q : Equaliser) : Equaliser :=
  { q with priorLow := low, priorHigh := high, sopFeed := sop }
/-- Neighbour aid of a tick (R197): with NBR_CR the lower neighbours' SC7 estimates are the prior of SC0 and the upper neighbours' SC0
estimates that of SC7; with NBR_SOP the rotation rates of the first neighbours enter the equaliser update. -/
def State.neighbourAid (e : Nat) (s : State) : State :=
  let g := s.eng e
  if g.acq.state == .disabled || g.acq.state == .noSignal then s.modEq e (Equaliser.aided [] [] [])
  else
  let low := if g.eq.nbrCr then (s.helpers e [2, 3] (some 7)).map (·.edgePhase.2) else []
  let high := if g.eq.nbrCr then (s.helpers e [0, 1] (some 0)).map (·.edgePhase.1) else []
  let sop := if g.eq.nbrSop then (s.helpers e [0, 2] none).map (·.rotRate) else []
  s.modEq e (fun q => (((q.underPrior g.rxLayout 0 low).underPrior g.rxLayout 7 high).underRotation g.rxLayout sop).aided low high sop)

/-! ### Clipping (R126) -/

/-- Saturated samples of a tick: each advances TX_CLIP_SAMPLES; more than 10⁻⁶ of the 1,440,000 samples raise TX_CLIP once,
and again only after 625,000 ticks without such a tick. DESIGN CHOICE (log entry 24): a tick's samples are those of all four lanes. -/
def State.clipSeen (e n : Nat) (s : State) : State :=
  let s := s.count .txClipSamples .engine e n
  if 1440000 < n * 1000000 then
    let quiet := (s.eng e).tx.lastClip.all (fun t => decide (t + 625000 < s.ticks))
    let s := s.modTx e (fun t => { t with lastClip := some s.ticks })
    if quiet then s.raise .txClip .engine e (w2 s.tn) else s
  else s

/-! ### Muzzle -/

/-- Where the Muzzle moves at frame TN: next state and amplitude (Tables 4.6 and 4.8, R144, R145). A ramp ends at the frame at which its
amplitude reaches 1, or 0 or less. -/
def muzzleNext (m : Muzzle) (amp : Rat) (r : MuzzleReason) (ramp : Nat) : Muzzle × Rat :=
  let step : Rat := 1 / (ramp : Rat)
  match m with
  | .muzzled => if r.any then (.muzzled, 0) else if ramp ≤ 1 then (.unmuzzled, 1) else (.rampUp, step)
  | .rampUp =>
    if r.hard then (.muzzled, 0)
    else if r.soft then
      if ramp = 0 then (.muzzled, 0) else if amp - step ≤ 0 then (.muzzled, 0) else (.rampDown, amp - step)
    else if ramp = 0 then (.unmuzzled, 1) else if 1 ≤ amp + step then (.unmuzzled, 1) else (.rampUp, amp + step)
  | .unmuzzled =>
    if r.hard then (.muzzled, 0) else if r.soft then (if ramp = 0 then (.muzzled, 0) else (.rampDown, 1))
    else (.unmuzzled, 1)
  | .rampDown =>
    if r.hard then (.muzzled, 0)
    else if r.soft then
      if ramp = 0 then (.muzzled, 0) else if amp - step ≤ 0 then (.muzzled, 0) else (.rampDown, amp - step)
    else if ramp = 0 then (.unmuzzled, 1) else if 1 ≤ amp + step then (.unmuzzled, 1) else (.rampUp, amp + step)
/-- A transition of the Muzzle (R146, R147): MUZZLE_CHANGE with old state, new state, MUZZLE_REASON and TN; leaving OPEN
aborts an uncommitted announcement; entering and leaving MUZZLED write the front end's squelch register; leaving it after a
change out of traffic starts from the default vector (R111). -/
def State.muzzleTo (e : Nat) (m : Muzzle) (amp : Rat) (s : State) : State :=
  let t := (s.eng e).tx
  if t.muzzle == m then s.modTx e (fun t => { t with amp := amp })
  else
    let s := s.modTx e (fun t => { t with muzzle := m, amp := amp })
    let s := s.raise .muzzleChange .engine e (w1 t.muzzle.code ++ w1 m.code ++ w1 t.reason.code ++ w2 s.tn)
    let s := if t.muzzle == .unmuzzled then s.abortAnn e .muzzle else s
    let s := if m == .muzzled then s.feSquelch e true else if t.muzzle == .muzzled then s.feSquelch e false else s
    if t.muzzle == .muzzled && (s.eng e).load.toDefault then
      s.modEng e (fun g => { g with
        load := { g.load with toDefault := false, vecTx := defaultVec g.kTx g.txLayout, curTn := s.tn } })
    else s
/-- The Muzzle of an engine at a tick boundary (R142 to R146). -/
def State.muzzleStep (e : Nat) (s : State) : State :=
  let s := s.modTx e (fun t => { t with muzzleRamp := t.rampNext.getD t.muzzleRamp, rampNext := none
                                        reason := autoReasons s e t.reason })
  let t := (s.eng e).tx
  let n := muzzleNext t.muzzle t.amp t.reason t.muzzleRamp
  s.muzzleTo e n.1 n.2
/-- The neighbour statuses of every engine (R136). -/
def State.nbrAll (s : State) : State := (List.range 48).foldl (fun s e => s.nbrStep e) s
/-- MUZZLE_RAMP_END: a ramp that has reached its end amplitude makes the transmitter OPEN or MUZZLED (R144), and the neighbours see it in
the same frame (Table 4.9). The ramps of `muzzleNext` end at their frame's boundary by themselves. -/
def execMuzzleRampEnd (e : Fin 48) (s : State) : Res :=
  let t := (s.eng e).tx
  if t.muzzle == .rampUp && t.amp == 1 then .next (s.muzzleTo e .unmuzzled 1).nbrAll
  else if t.muzzle == .rampDown && t.amp == 0 then .next (s.muzzleTo e .muzzled 0).nbrAll
  else .next s
/-- Sets or clears the MGMT bit. -/
def setMgmt (b : Bool) (c : Cmd) (s : State) : State :=
  s.modTx (cIdx c) (fun t => { t with reason := { t.reason with mgmt := b } })
/-- ENGINE_MUZZLE (R143): MGMT is one resource for both opcodes. -/
def specEngineMuzzle : OpSpec :=
  { code := 0x10D, align := .yes, len := lenIs 1, target := tgtEngine, fence := fenceEngine
    eff := .boundary 0x10D (setMgmt true) }
/-- ENGINE_MUZZLE: sets the MGMT Muzzle reason. -/
def execEngineMuzzle (c : Cmd) (s : State) : Res := runOp specEngineMuzzle c s
/-- ENGINE_UNMUZZLE (R143). -/
def specEngineUnmuzzle : OpSpec :=
  { code := 0x10E, align := .yes, len := lenIs 1, target := tgtEngine, fence := fenceEngine
    eff := .boundary 0x10D (setMgmt false) }
/-- ENGINE_UNMUZZLE: clears the MGMT Muzzle reason. -/
def execEngineUnmuzzle (c : Cmd) (s : State) : Res := runOp specEngineUnmuzzle c s
/-- Latched reasons named by a mask whose cause persists (R143): POWER while the tile's domain is in reset, FE_FAULT while the
front end still reports a fault. -/
def stillPresent (s : State) (e mask : Nat) : Nat :=
  (if bit mask 6 && s.power.inReset.any (fun d => domainIdx d.1 == tileOf e) then 64 else 0)
    + (if bit mask 5 && (s.eng e).fe.faultPresent then 32 else 0)
/-- ENGINE_MUZZLE_CLEAR (R143): only bits [6:5] are accepted. -/
def specEngineMuzzleClear : OpSpec :=
  { code := 0x10F, len := lenIs 2, target := tgtEngine, fence := fenceEngine
    ranges := [rngP 1 (fun m => (m &&& 0x60) == m)]
    refuse := fun s c =>
      let p := stillPresent s (cIdx c) (cw c 1)
      if p = 0 then none else some (.conditionPresent, p)
    eff := .now (fun c s => (s.modTx (cIdx c) (fun t => { t with
      reason := { t.reason with
      power := t.reason.power && !bit (cw c 1) 6, feFault := t.reason.feFault && !bit (cw c 1) 5 } }), [])) }
/-- ENGINE_MUZZLE_CLEAR: clears latched POWER or FE_FAULT reasons. -/
def execEngineMuzzleClear (c : Cmd) (s : State) : Res := runOp specEngineMuzzleClear c s
/-- ENGINE_MUZZLE_CFG_SET (R144): MUZZLE_RAMP is tick-effective, MUZZLE_UNTIL_HEEL from the next boundary. -/
def specEngineMuzzleCfgSet : OpSpec :=
  { code := 0x110, len := lenIs 3, target := tgtEngine, fence := fenceEngine, ranges := [rngU 1 0 1024, rngU 2 0 1]
    eff := .boundary 0x110 (fun c s => s.modTx (cIdx c) (fun t => { t with
      rampNext := some (cw c 1), untilHeel := cw c 2 == 1 }))
    read := readTx (fun t => w1 t.muzzleRamp ++ w1 (b2n t.untilHeel)) }
/-- ENGINE_MUZZLE_CFG_SET: sets MUZZLE_RAMP and MUZZLE_UNTIL_HEEL. -/
def execEngineMuzzleCfgSet (c : Cmd) (s : State) : Res := runOp specEngineMuzzleCfgSet c s

end Sys2Proof.Machine
end

