-- ==== Sys2Proof/Machine/Transfer.lean ====
section
/-! DEFINITION. Line time transfer (R318 to R333): raw offsets, measurement intervals, delay certificates, asymmetry and route checks;
and the frequency reference (R334, R335).
What it chooses or infers where the manual is silent, with its marks: log entry 28. -/
namespace Sys2Proof.Machine

/-- Line time transfer of an engine. -/
def State.ltt (s : State) (e : Nat) : Ltt := (s.eng e).ltt
/-- Applies `f` to it. -/
def State.modLtt (e : Nat) (f : Ltt → Ltt) (s : State) : State := s.modEng e (fun g => { g with ltt := f g.ltt })
/-- The route settings of an engine. -/
def State.route (s : State) (e : Nat) : RouteCfg := vget s.kennel.settings.route e RouteCfg.reset
/-- Applies `f` to the route settings of an engine. -/
def State.modRoute (e : Nat) (f : RouteCfg → RouteCfg) (s : State) : State :=
  s.modSettings (fun k => { k with route := vmod k.route e f })
/-- Picoseconds in 2⁻¹⁶ ns. -/
def psUnits (z : Int) : Int := roundDiv (z * 65536) 1000
/-- delta of R321 in 2⁻¹⁶ ns. -/
def Ltt.delta (l : Ltt) : Int := psUnits l.asymNow.1 + (l.feRx - l.feTx) - psUnits l.asymNow.2
/-- The conditions of a line candidate (Table 10.2, R330, R333). -/
def State.lineOk (s : State) (e : Nat) : Bool :=
  let g := s.eng e
  let l := g.ltt
  g.inFrame && (s.route e).asymState == .valid && g.rx.txTimeValid && g.rx.farEcho && g.rx.traceable && !g.zr
    && (!g.key.none || l.allowClear) && !g.defect.present.contains .authFail && decide (g.rx.stepsRemoved < l.maxSteps)
    && (l.result.delivered || l.resized)

/-! ### Items and stamps -/

/-- TX_CONV of an engine at a tile temperature: a factory value between 150 and 230 ps (Table 4.10; log entry 8). -/
def txConv (e : Nat) (temp : Int) : Int := clampI 9831 15073 (Config.txConv e temp)
/-- T_TX (R148): TX_DSP 204.8 ns, TX_PE_GD, TX_CONV. -/
def State.txDelay (s : State) (e : Nat) : Int :=
  13421773 + txPeGd (s.eng e).tx.preActive + txConv e (s.tileTemp e)
/-- The engine's client ports: those an entry of the active bank maps to it or to its Pack. -/
def State.enginePorts (s : State) (e : Nat) : List (Nat × Port) :=
  s.ports.filter (fun p => s.cal.active.any (fun x =>
    let d := calDecode x.2
    d.ty != 0 && d.port == p.1 && (s.resolve d).any (fun r => r.1 == e)))
/-- Mean of a list, 0 for none. -/
def meanOf (l : List Int) : Int := if l.isEmpty then 0 else roundDiv (l.foldl (· + ·) 0) l.length
/-- Blocks as a time, for a client type. -/
def blockTime (ty n : Nat) : Int := roundDiv ((n : Int) * tickUnits) (clientBlocks ty)
/-- The items that vary by tick: TX_MAP, TX_PE_GD, TX_CONV, RX_CONV, RX_CD, RX_EQ, RX_DESKEW, RX_STORE, RX_HOST (Table 11.4). -/
def State.certItems (s : State) (e : Nat) : List Int :=
  let g := s.eng e
  let cl := s.enginePorts e
  let t := (s.tileTemp e)
  let pk := s.packOf e
  let skew : Nat := match pk with
    | some p => ((s.pack p).members.idxOf? e).elim 0 (fun i => (s.pack p).skews.getD i 0)
    | none => 0
  let st := match pk with | some p => (s.pack p).store.rxStore | none => g.store.rxStore
  [meanOf (cl.map (fun p => blockTime p.2.ty p.2.data.mapper.length)), txPeGd g.tx.preActive, txConv e t, rxConv e t,
   rxCdDelay g.eq.align, rxEqDelay g, skew * tickUnits, roundDiv (st * tickUnits) 256,
   1600 * 65536 + meanOf (cl.map (fun p => blockTime p.2.ty p.2.data.egress.length + p.2.txDelay))]

/-! ### Raw offsets (R321 to R323) -/

/-- A far step: LTT_FAR_STEP, a void interval, and the candidate disqualified (R323, R333). -/
def State.farStep (e : Nat) (d : Int) (tn : Nat) (s : State) : State :=
  ((s.modLtt e (fun l => { l with voidNow := true })).raise .lttFarStep .engine e (wi2 d ++ w2 tn)).disqualify (.engine e) .condition
/-- The continuity of far-end time at an accepted frame (R323); a TN_JUMP counts as a far step. -/
def State.farCheck (e tn : Nat) (txTime : Int) (jump : Bool) (s : State) : State :=
  let prev := (s.ltt e).farPrev
  let s := s.modLtt e (fun l => { l with farPrev := some (tn, txTime) })
  match prev with
  | some (k, t) =>
    let span := ((tn : Int) - k) * tickUnits
    let d := txTime - t - span
    if jump || decide ((65536 + span.natAbs * 2 / 10000 : Nat) < d.natAbs) then s.farStep e d tn else s
  | none => if jump then s.farStep e 0 tn else s
/-- The raw offset of an accepted frame with valid times (R321, R322); no frequency difference needs no correction (DEDUCED, log entry
28). -/
def State.rawOffset (e echoTn : Nat) (t2 t3 t4 : Int) (s : State) : State :=
  let g := s.eng e
  let l := g.ltt
  if g.zr || (g.key.none && !l.allowClear) || g.iso.isSome || !s.time.timeValid then s
  else if echoTn + 262144 ≤ s.tn then s.count .lttEchoStale .engine e 1
  else match l.history.find? (fun h => h.1 == echoTn) with
  | none => s
  | some (_, _, false) => s
  | some (_, t1, true) =>
    let fix := fun (b : Bool) => if g.eq.est.timingFo = 0 then 0 else Config.lttCorrect b g.eq.est.timingFo (t4 - t1)
    let z := (t4 - t3) - (t2 - t1) + fix false
    let eps := z - l.delta
    let rtd := (t4 - t3) + (t2 - t1) + fix true
    s.modLtt e (fun l => { l with
      epsSum := l.epsSum + eps, zeroSum := l.zeroSum + z, rtdSum := l.rtdSum + rtd, count := l.count + 1
      sums := { l.sums with raw := l.sums.raw + 1, epsSum := l.sums.epsSum + eps, rtdSum := l.sums.rtdSum + rtd } })
/-- A frame's TX_TIME and TX_TIME_VALID enter the history (R320). -/
def State.noteSent (e tn : Nat) (t : Int) (s : State) : State :=
  s.modLtt e (fun l => { l with history := (tn, t, s.time.timeValid) :: (l.history.take 262144).filter (fun h => decide (tn < h.1 + 262144)) })

/-! ### Intervals (R324) -/

/-- LTT_INTERVAL_END: at a TN that is a multiple of LTT_INTERVAL the measurement of the interval is formed; the interval in progress where a
new LTT_INTERVAL takes effect is void (Table 11.1), and if it is the selected source's and void for that alone the engine stays qualified,
so that the servo's next τ spans the gap (Table 11.12). -/
def execLttIntervalEnd (e : Fin 48) (s : State) : Res :=
  let l := s.ltt e
  let new := match l.intervalNext with | some n => if s.tn % n = 0 then some n else none | none => none
  if new.isNone ∧ s.tn % l.interval ≠ 0 then .next s
  else
    let gap := l.voidNow || l.voidBefore || l.cut || (new.isNone && (decide (l.count * 100 < l.minFill * l.interval) || l.count == 0))
    let void := gap || new.isSome
    let keep := new.isSome && !gap && decide (s.time.selected = some (.engine e.val))
    let n := l.count
    let r : LttResult := { endTn := s.tn, eps := if n = 0 then 0 else roundDiv l.epsSum (2 * n)
                           rtd := if n = 0 then 0 else roundDiv l.rtdSum n, n := n
                           epsZero := if n = 0 then 0 else roundDiv l.zeroSum (2 * n), delivered := !void, void := void }
    let rc := s.route e
    let s := s.modLtt e (fun l => { l with
      result := r, epsSum := 0, rtdSum := 0, zeroSum := 0, count := 0, voidBefore := l.voidNow, voidNow := false
      interval := new.getD l.interval, intervalNext := if new.isSome then none else l.intervalNext
      cut := false, resized := keep, minFill := l.minFillNext, asymNow := (rc.fibreAsym, rc.farFeSkew)
      deliveredAt := if void then l.deliveredAt else some s.ticks })
    if void then
      let s := s.count .lttVoid .engine e 1
      .next (if keep then s else s.disqualify (.engine e) .condition)
    else if s.time.selected = some (.engine e.val) then .next (s.modTime (fun t => { t with meas := some (.engine e, r.eps) }))
    else .next s

/-! ### Certificates and route checks (R327 to R331) -/

/-- One tick of an engine's second. -/
def State.secondTick (e : Nat) (s : State) : State :=
  let g := s.eng e
  let items := s.certItems e
  let cd := g.inFrame && !g.eq.freeze.holdsCd
  s.modLtt e (fun l =>
    let x := l.sums
    { l with
        sums := { x with
        ticks := x.ticks + 1, inFrame := x.inFrame + b2n g.inFrame, txOpen := x.txOpen + b2n (g.tx.muzzle != .muzzled)
        cdValid := x.cdValid + b2n cd, cdSum := if cd then x.cdSum + 2 * g.eq.est.cdEst else x.cdSum
        isolated := x.isolated || g.iso.isSome, items := List.zipWith (· + ·) x.items items } })
/-- What takes effect in line time transfer at a tick boundary: FE_TX_DELAY and FE_RX_DELAY. -/
def State.lttBoundary (e : Nat) (s : State) : State :=
  s.modLtt e (fun l => match l.feNext with | some (a, b) => { l with feTx := a, feRx := b, feNext := none } | none => l)
/-- ASYM_STATE codes (Table 11.3). -/
def AsymState.code : AsymState → Nat
  | .unset => 0 | .valid => 1 | .invalid => 2
/-- The route checks on a qualifying second's means: flags of octet 85, and whether one failed (Table 11.7). -/
def RouteCfg.check (r : RouteCfg) (cd rtd : Int) : Nat × Bool :=
  let c1 := decide ((r.routeCdStep : Int) * 65536 < (cd * 65536 - r.cdTrk).natAbs)
  let off := decide (r.cdRef.natAbs < 1000)
  let c2 := !off && decide ((r.routeLenTol : Int) * (r.rtdRef * r.cdRef).natAbs < 1000 * (rtd * r.cdRef - cd * r.rtdRef).natAbs)
  let c3 := decide (psUnits r.routeRtdStep * 65536 < (rtd * 65536 - r.rtdTrk).natAbs)
  (b2n c1 * 128 + b2n c2 * 64 + b2n c3 * 32 + b2n off * 16, c1 || c2 || c3)
/-- Four octets of a signed value. -/
def i32 (z : Int) : List Octet := octetsBE 4 (ux 32 z)
/-- Eight octets of a signed value. -/
def i64 (z : Int) : List Octet := octetsBE 8 (ux 64 z)
/-- Means of a second: CD_EST in ps/nm, rtd and eps (Table 11.3). DESIGN CHOICE (log entry 28): a mean over no value is a free value. -/
def State.secondMeans (s : State) (e : Nat) (x : SecondSums) : Int × Int × Int :=
  (if x.cdValid = 0 then Config.emptyMean e s.ticks 0 else roundDiv x.cdSum x.cdValid,
   if x.raw = 0 then Config.emptyMean e s.ticks 1 else roundDiv x.rtdSum x.raw,
   if x.raw = 0 then Config.emptyMean e s.ticks 2 else roundDiv x.epsSum (2 * x.raw))
/-- The certificate of Table 11.3, from the settings and the second's sums. -/
def State.certOctets (s : State) (e seq : Nat) (x : SecondSums) (flags : Nat) : List Octet :=
  let g := s.eng e
  let r := s.route e
  let mean := fun (i : Nat) => if x.ticks = 0 then 0 else roundDiv (x.items.getD i 0) x.ticks
  let zr := fun (l : List Octet) => if g.zr then List.replicate l.length 0 else l
  let body : List Octet := octetsBE 1 1 ++ octetsBE 1 e
    ++ octetsBE 1 (b2n (x.txOpen == x.ticks) * 128 + b2n (decide (x.ticks ≤ 2 * x.inFrame)) * 64 + b2n (s.packOf e).isSome * 32
        + b2n g.zr * 16)
    ++ octetsBE 1 seq ++ octetsBE 8 s.tn
    ++ i32 (meanOf ((s.enginePorts e).map (fun p => Config.txHost p.2.ty p.2.fast))) ++ i32 (mean 0) ++ i32 (4800 * 65536)
    ++ i32 13421773 ++ i32 (mean 1) ++ i32 (mean 2) ++ i32 g.ltt.feTx ++ i32 g.ltt.feRx ++ i32 (mean 3) ++ i32 (mean 4) ++ i32 (mean 5)
    ++ i32 (128 * 65536) ++ i32 (3200 * 65536) ++ i32 (mean 6) ++ i32 (mean 7) ++ i32 (mean 8)
    ++ zr (i32 r.fibreAsym ++ i32 r.farFeSkew ++ octetsBE 1 r.asymState.code ++ octetsBE 1 flags ++ octetsBE 2 0
        ++ i32 (s.secondMeans e x).1 ++ i32 r.cdRef ++ i64 (s.secondMeans e x).2.1 ++ i64 r.rtdRef ++ i64 (s.secondMeans e x).2.2)
    ++ List.replicate 6 0
  body ++ octetsBE 2 (crc16 body)
/-- One engine's certificate, and the route check it carries: a failed check moves VALID to INVALID, a passed one moves the
tracked references (R331). -/
def State.certify (e : Nat) (s : State) : State :=
  let x := (s.ltt e).sums
  let r := s.route e
  let ok := !x.isolated && decide (x.ticks ≤ 2 * x.inFrame) && decide (x.ticks ≤ 2 * x.cdValid)
  let cd := (s.secondMeans e x).1
  let rtd := (s.secondMeans e x).2.1
  let run := ok && r.asymState == .valid && !(s.eng e).zr
  let res := if run then r.check cd rtd else (0, false)
  let s := if !run then s
    else if res.2 then (s.modRoute e (fun r => { r with asymState := .invalid })).disqualify (.engine e) .condition
    else if r.routeTrack = 0 then s
    else s.modRoute e (fun r => { r with
      cdTrk := r.cdTrk + roundDiv (cd * 65536 - r.cdTrk) r.routeTrack
      rtdTrk := r.rtdTrk + roundDiv (rtd * 65536 - r.rtdTrk) r.routeTrack })
  let seq := ((s.ltt e).certSeq + 1) % 256
  let c := s.certOctets e seq x res.1
  let s := s.modLtt e (fun l => { l with
    sums := .reset, cert := c, certSeq := seq, routeFlags := res.1, lastOk := ok, lastQual := if ok then (cd, rtd) else l.lastQual })
  if (s.ltt e).certNotify then s.raise .delayCert .engine e (w2 s.tn) else s
/-- DELAY_CERT_FORMATION: at a TN that is a multiple of 625,000 every engine forms its certificate. -/
def execDelayCertFormation (s : State) : Res :=
  if s.tn % 625000 = 0 ∧ (s.ltt 0).sums.ticks ≠ 0 then .next ((List.range 48).foldl (fun s e => s.certify e) s) else .next s

/-! ### Commands -/

/-- LTT_SET (Table 11.1). -/
def specLttSet : OpSpec :=
  { code := 0x410, len := lenIs 8, target := tgtEngine, refuse := zrMode
    ranges := [rngU 1 1 1000, rngU 2 50 100, rngU 3 1 254, rngU 4 0 1,
      rngU 5 0 65536000, rngU 6 0 65536000, rngU 7 0 1]
    eff := .now (fun c s => (s.modLtt (cIdx c) (fun l => { l with
      intervalNext := if 625 * cw c 1 = l.interval then none else some (625 * cw c 1)
      minFillNext := cw c 2, maxSteps := cw c 3, allowClear := cw c 4 == 1, feNext := some (cw c 5, cw c 6), certNotify := cw c 7 == 1 }), []))
    read := some {
      selectors := 0, ok := fun _ _ => true, get := fun c s =>
      let l := s.ltt (cIdx c)
      w1 (l.interval / 625) ++ w1 l.minFill ++ w1 l.maxSteps ++ w1 (b2n l.allowClear) ++ wi l.feTx ++ wi l.feRx ++ w1 (b2n l.certNotify) } }
/-- LTT_SET: sets line time transfer parameters. -/
def execLttSet (c : Cmd) (s : State) : Res := runOp specLttSet c s
/-- LTT_STATUS (R324). -/
def specLttStatus : OpSpec :=
  { code := 0x411, len := lenIs 1, target := tgtEngine
    eff := .now (fun c s =>
      let r := (s.ltt (cIdx c)).result
      (s, w2 r.endTn ++ wi2 r.eps ++ wi2 r.rtd ++ w1 r.n ++ wi2 r.epsZero ++ w1 (b2n r.delivered + b2n r.void * 2))) }
/-- LTT_STATUS: returns the last measurement. -/
def execLttStatus (c : Cmd) (s : State) : Res := runOp specLttStatus c s
/-- ENGINE_DELAY_CERT (R327). -/
def specEngineDelayCert : OpSpec :=
  { code := 0x412, len := lenIs 1, target := tgtEngine, eff := .now (fun c s => (s, packOctets (s.ltt (cIdx c)).cert)) }
/-- ENGINE_DELAY_CERT: reads the latest delay certificate. -/
def execEngineDelayCert (c : Cmd) (s : State) : Res := runOp specEngineDelayCert c s
/-- CERT_DUMP (R327): 48 certificates, LE0 first. -/
def specCertDump : OpSpec :=
  { code := 0x413, cls := .long, len := lenIs 2, target := tgtDevice, ranges := [rngChan], refuse := fun s c => dmaRefusal s c 6144
    eff := .long (dmaSend (fun _ s => ((List.range 48).map (fun e => (s.ltt e).cert)).flatten)) }
/-- CERT_DUMP: copies all delay certificates by DMA. -/
def execCertDump (c : Cmd) (s : State) : Res := runOp specCertDump c s
/-- Ranges of FIBRE_ASYM and FAR_FE_SKEW in words k and k + 1. -/
def rngAsym (k : Nat) : List (Nat × (State → Cmd → Bool)) := [rngS k (-2000000000) 2000000000, rngS (k + 1) (-100000) 100000]
/-- ASYM_SET (R332): its read counterpart shows the values in effect (R427). -/
def specAsymSet : OpSpec :=
  { code := 0x414, len := lenIs 3, target := tgtEngine, refuse := zrMode, ranges := rngAsym 1
    eff := .now (fun c s => ((s.modRoute (cIdx c) (fun r => { r with fibreAsym := cz c 1, farFeSkew := cz c 2 })).raise .asymChange
      .engine (cIdx c) (wi (cz c 1) ++ wi (cz c 2)), []))
    read := some {
      selectors := 0, ok := fun _ _ => true, get := fun c s =>
      wi (s.ltt (cIdx c)).asymNow.1 ++ wi (s.ltt (cIdx c)).asymNow.2 } }
/-- ASYM_SET: sets the asymmetry values. -/
def execAsymSet (c : Cmd) (s : State) : Res := runOp specAsymSet c s
/-- ASYM_VALIDATE (R332): an engine of a fenced tile is not in frame, whatever its last second was (R425). -/
def specAsymValidate : OpSpec :=
  { code := 0x415, len := lenIs 4, target := tgtEngine, ranges := rngU 1 0 1 :: rngAsym 2
    refuse := fun s c => (zrMode s c).orElse (fun _ =>
      if (s.ltt (cIdx c)).lastOk && !s.fenced (cIdx c) then none else some (.notInFrame, 0))
    eff := .now (fun c s =>
      let q := (s.ltt (cIdx c)).lastQual
      let s := s.modRoute (cIdx c) (fun r => { r with
        fibreAsym := if cw c 1 = 1 then cz c 2 else r.fibreAsym, farFeSkew := if cw c 1 = 1 then cz c 3 else r.farFeSkew
        cdRef := q.1, cdTrk := q.1 * 65536, rtdRef := q.2, rtdTrk := q.2 * 65536, asymState := .valid })
      let r := s.route (cIdx c)
      ((s.modLtt (cIdx c) (fun l => { l with routeFlags := 0 })).raise .asymValidated .engine (cIdx c)
        (wi r.fibreAsym ++ wi r.farFeSkew), [])) }
/-- ASYM_VALIDATE: takes the references from the last qualifying second and enters VALID. -/
def execAsymValidate (c : Cmd) (s : State) : Res := runOp specAsymValidate c s
/-- ASYM_CLEAR (Table 11.6). -/
def specAsymClear : OpSpec :=
  { code := 0x416, len := lenIs 1, target := tgtEngine
    eff := .now (fun c s => ((s.modRoute (cIdx c) (fun r => { r with asymState := .unset })).disqualify (.engine (cIdx c)) .condition, [])) }
/-- ASYM_CLEAR: returns the engine's asymmetry state to UNSET. -/
def execAsymClear (c : Cmd) (s : State) : Res := runOp specAsymClear c s
/-- ROUTE_SET (Table 11.5): ROUTE_RTD_STEP in ps. -/
def specRouteSet : OpSpec :=
  { code := 0x417, len := lenIs 5, target := tgtEngine
    ranges := [rngU 1 10 1000, rngU 2 1 50, rngU 3 1000 10000000,
      rngP 4 (fun n => n == 0 || (decide (60 ≤ n) && decide (n ≤ 86400)))]
    eff := .now (fun c s => (s.modRoute (cIdx c) (fun r => { r with
      routeCdStep := 2 * cw c 1, routeLenTol := cw c 2, routeRtdStep := cw c 3, routeTrack := cw c 4 }), []))
    read := some {
      selectors := 0, ok := fun _ _ => true, get := fun c s =>
      let r := s.route (cIdx c)
      w1 (r.routeCdStep / 2) ++ w1 r.routeLenTol ++ w1 r.routeRtdStep ++ w1 r.routeTrack } }
/-- ROUTE_SET: sets the route checks. -/
def execRouteSet (c : Cmd) (s : State) : Res := runOp specRouteSet c s

/-! ### The frequency reference (R334, R335) -/

/-- A steering in target-word form (TIME_FREQ_REF_SET). -/
def FreqRef.word : FreqRef → Nat
  | .same => targetNat .device 0 0
  | .free => targetNat .device 1 0
  | .line e => targetNat .engine e 0
  | .synce p => targetNat .port p 0
/-- The reference a word names. -/
def freqRefOf (s : State) (w : Nat) : Option FreqRef :=
  if field w 0 16 ≠ 0 then none
  else match field w 28 4 with
    | 0 => if field w 16 12 = 0 then some .same else if field w 16 12 = 1 then some .free else none
    | 1 => if field w 16 12 < 48 then some (.line (field w 16 12)) else none
    | 4 => if (s.port? (field w 16 12)).isSome then some (.synce (field w 16 12)) else none
    | _ => none
/-- TIME_FREQ_REF_SET (R334): FREQ_BW in 0.01 Hz; from the next tick boundary. -/
def specTimeFreqRefSet : OpSpec :=
  { code := 0x40A, len := lenIs 3, target := tgtDevice, ranges := [(1, fun s c => (freqRefOf s (cw c 1)).isSome), rngU 2 1 1000]
    eff := .boundary 0x40A (fun c s =>
      let r := (freqRefOf s (cw c 1)).getD .same
      (s.modTime (fun t => { t with
        demand := if r = .free then t.applied else t.demand
        freq := if t.freq.ref = r then { t.freq with bw := cw c 2 }
          else { ref := r, bw := cw c 2, qualified := false, since := none, lastLoop := s.ticks, errSum := 0, errTicks := 0 } })).refreshTrace)
    read := some { selectors := 0, ok := fun _ _ => true, get := fun _ s => w1 s.time.freq.ref.word ++ w1 s.time.freq.bw } }
/-- TIME_FREQ_REF_SET: selects what steers the timebase. -/
def execTimeFreqRefSet (c : Cmd) (s : State) : Res := runOp specTimeFreqRefSet c s
/-- One tick of a LINE reference in force: its TIMING_FO, in 0.001 ppb, enters the mean of the loop (R334). -/
def State.freqSample (s : State) : State :=
  match s.time.steering with
  | .line e => s.modTime (fun t => { t with
      freq := { t.freq with errSum := t.freq.errSum + (s.eng e).eq.est.timingFo * 10, errTicks := t.freq.errTicks + 1 } })
  | _ => s
/-- The mean error of the loop's 64 ticks: that of TIMING_FO for a LINE reference, and for a SYNCE reference what the part measured. -/
def FreqSel.meanErr (f : FreqSel) (measured : Int) : Int :=
  match f.ref with
  | .line _ => if f.errTicks = 0 then 0 else roundDiv f.errSum f.errTicks
  | _ => measured
/-- FREQ_LOOP_UPDATE: the mean error over 64 ticks, in 0.001 ppb, moves the demand (R334); the operand is that of a SYNCE reference. -/
def execFreqLoopUpdate (err : Int) (s : State) : Res :=
  let t := s.time
  let on : Bool := match t.steering with | .line _ => true | .synce _ => true | _ => false
  if on = true ∧ t.freq.lastLoop + 64 ≤ s.ticks then
    .next ((s.modTime (fun t => { t with
      demand := Config.freqLoop t.freq.bw t.demand (t.freq.meanErr err)
      freq := { t.freq with lastLoop := s.ticks, errSum := 0, errTicks := 0 } })).freqJudge 64)
  else .next s
/-- The conditions of R335; `offset` is the measured offset of a SYNCE reference in 0.01 ppb. -/
def State.freqRefOk (s : State) (offset : Int) : Bool :=
  match s.time.freq.ref with
  | .line e =>
    let g := s.eng e
    g.inFrame && g.rx.clockClass != 248 && decide (g.eq.est.timingFo.natAbs ≤ 5000000)
  | .synce p => match s.port? p with
    | some q => q.state == .up && q.ptp.qlHeardAt.any (fun t => decide (s.ticks ≤ t + 5 * secTicks))
        && decide (offset.natAbs ≤ 460000)
    | none => false
  | _ => false
/-- FREQ_REF_QUALIFICATION: the reference's conditions are judged; steering changes with its qualification (R335). -/
def execFreqRefQualification (offset : Int) (s : State) : Res :=
  let f := s.time.freq
  match f.ref with
  | .same => .next s
  | .free => .next s
  | r =>
    if s.freqRefOk offset then
      let since := f.since.getD s.ticks
      let now := decide (since + s.time.params.qualTime * secTicks ≤ s.ticks)
      let s := s.modTime (fun t => { t with freq := { t.freq with
        since := some since, qualified := t.freq.qualified || now, lastLoop := if now && !f.qualified then s.ticks else f.lastLoop
        errSum := if now && !f.qualified then 0 else f.errSum, errTicks := if now && !f.qualified then 0 else f.errTicks } })
      if now && !f.qualified then
        .next (s.refreshTrace.raise .freqRefChange .device 0 (w1 FreqRef.same.word ++ w1 r.word ++ w1 1))
      else .next s.refreshTrace
    else
      let s := s.modTime (fun t => { t with freq := { t.freq with since := none, qualified := false } })
      if f.qualified then .next (s.refreshTrace.raise .freqRefChange .device 0 (w1 r.word ++ w1 FreqRef.same.word ++ w1 0))
      else .next s

end Sys2Proof.Machine
end

