-- ==== Sys2Proof/Machine/Ptp.lean ====
section
/-! DEFINITION. Client time service: the PTP boundary clock (R339 to R344), ESMC (R337, R338), and the frame tap's insertion and
settings (R288, R291, R292). Message formats and the choice of the best time transmitter are those of IEEE 1588-2019, ITU-T
G.8275.1 and G.8264, which the manual cites: PRESUMED, log entry 20. -/
namespace Sys2Proof.Machine

/-- The PTP port of client port n, as after its definition where the port does not exist. -/
def State.ptp (s : State) (n : Nat) : PtpPort := (s.port? n).elim PtpPort.reset (·.ptp)
/-- Applies `f` to it. -/
def State.modPtp (n : Nat) (f : PtpPort → PtpPort) (s : State) : State := s.modPort n (fun p => { p with ptp := f p.ptp })
/-- Port state codes of IEEE 1588-2019. -/
def PtpState.code : PtpState → Nat
  | .initializing => 1 | .faulty => 2 | .disabled => 3 | .listening => 4 | .preTransmitter => 5 | .transmitter => 6 | .passive => 7
  | .uncalibrated => 8 | .receiver => 9
/-- 2^k seconds in ticks. -/
def logTicks (k : Int) : Nat := if 0 ≤ k then secTicks * 2 ^ k.toNat else secTicks / 2 ^ (-k).toNat
/-- The port identity of client port n: clockIdentity and n + 1. -/
def State.portIdentity (s : State) (n : Nat) : Nat := s.clockIdentity.getD 0 * 65536 + (n + 1)

/-! ### The best time transmitter (R339) -/

/-- What the comparison of data sets weighs, in its order of weight; lower is better. -/
def rankOf (alternate : Bool) (a : PtpAnnounce) (localPrio : Nat) : List Nat :=
  if alternate then
    [a.quality.clockClass, a.quality.accuracy, a.quality.variance, a.prio2, localPrio]
      ++ (if a.quality.clockClass ≤ 127 then [] else [a.gm]) ++ [a.quality.steps, a.sender]
  else [a.prio1, a.quality.clockClass, a.quality.accuracy, a.quality.variance, a.prio2, a.gm, a.quality.steps, a.sender]
/-- Lexicographic order of ranks. -/
def rankLt : List Nat → List Nat → Bool
  | [], [] => false
  | [], _ :: _ => true
  | _ :: _, [] => false
  | a :: r, b :: t => decide (a < b) || (a == b && rankLt r t)
/-- The device's own data set as port n sees it: the advertised quality, or that of an unlocked clock while the selected source is
a PTP port. -/
def State.ownSet (s : State) (n : Nat) : PtpAnnounce :=
  let c := (s.ptp n).cfg
  let q : Quality := match s.time.selected with
    | some (.port _) => { clockClass := 248, accuracy := 0xFE, variance := 0xFFFF, steps := 0 }
    | _ => s.quality
  { sender := s.portIdentity n, flags := 0, utcOffset := 0, prio1 := c.prio1, quality := { q with steps := 0 }, prio2 := c.prio2
    gm := s.clockIdentity.getD 0, timeSource := 0xA0 }
/-- A foreign time transmitter counts: two Announces within four announce intervals, and stepsRemoved below 255. -/
def Foreign.counts (f : Foreign) (now interval : Nat) : Bool :=
  decide (2 ≤ (f.seen.filter (fun t => decide (now ≤ t + 4 * interval))).length) && decide (f.ann.quality.steps < 255)
/-- Whether port n uses the alternate algorithm. -/
def State.alternate (s : State) (n : Nat) : Bool := (s.ptp n).cfg.profile == 1
/-- Rank of an Announce at port n. -/
def State.rankAt (s : State) (n : Nat) (a : PtpAnnounce) : List Nat := rankOf (s.alternate n) a (s.ptp n).cfg.localPrio
/-- The best of a port's foreign time transmitters. -/
def State.bestOn (s : State) (n : Nat) : Option PtpAnnounce :=
  let p := s.ptp n
  ((p.foreign.filter (fun f => f.counts s.ticks (logTicks p.cfg.logAnnounce))).map (·.ann)).foldl
    (fun b a => match b with
      | none => some a
      | some x => if rankLt (s.rankAt n a) (s.rankAt n x) then some a else some x) none
/-- Ports with a PTP profile, and of these the ones that may become time receivers. -/
def State.ptpPorts (s : State) : List Nat := (s.ports.filter (fun p => p.2.ptp.cfg.profile != 0)).map (·.1)
/-- The best over all ports: port and Announce. -/
def State.bestOfAll (s : State) : Option (Nat × PtpAnnounce) :=
  (s.ptpPorts.filter (fun n => (s.ptp n).cfg.role == 0)).foldl
    (fun b n => match s.bestOn n, b with
      | some a, none => some (n, a)
      | some a, some (m, x) => if rankLt (s.rankAt n a) (s.rankAt m x) then some (n, a) else some (m, x)
      | none, b => b) none
/-- A port changes state: PTP_PORT_STATE; a receiver that leaves the state is disqualified as a candidate. -/
def State.ptpTo (n : Nat) (st : PtpState) (s : State) : State :=
  let old := (s.ptp n).state
  if old == st then s
  else
    let s := s.modPtp n (fun p => { p with
      state := st, sync := if st == .receiver then p.sync else none, syncWait := none
      delayWait := if st == .receiver then p.delayWait else none, offSum := 0, offCount := 0, measAt := s.ticks
      heardAt := if st == .listening then s.ticks else p.heardAt })
    let s := s.raise .ptpPortState .port n (w1 old.code ++ w1 st.code ++ w2 s.tn)
    if old == .receiver then s.disqualify (.port n) .condition else s
/-- A port takes a time transmitter as its parent. -/
def State.takeParent (n : Nat) (a : PtpAnnounce) (s : State) : State :=
  let p := s.ptp n
  let new := p.parent.all (fun x => x.sender != a.sender || x.gm != a.gm)
  let s := s.modPtp n (fun p => { p with parent := some a })
  let s := if new then s.raise .ptpParentChange .port n (w3 a.sender ++ w2 a.gm) else s
  if p.state == .receiver && !new then s else s.ptpTo n .uncalibrated
/-- The decision M3 of IEEE 1588: PRE_MASTER until stepsRemoved + 1 announce intervals have passed, and then time transmitter. -/
def State.ptpPrepare (n steps : Nat) (s : State) : State :=
  let p := s.ptp n
  if p.state == .transmitter || p.state == .preTransmitter then s
  else (s.ptpTo n .preTransmitter).modPtp n (fun p => { p with transmitFrom := s.ticks + (steps + 1) * logTicks p.cfg.logAnnounce })
/-- PRE_MASTER ends. -/
def State.ptpPromote (s : State) : State :=
  if !s.fwUp then s
  else s.ptpPorts.foldl (fun s n =>
    if (s.ptp n).state == .preTransmitter && decide ((s.ptp n).transmitFrom ≤ s.ticks) then s.ptpTo n .transmitter else s) s
/-- Is b better by topology than a, both of one grandmaster, a received at port n (IEEE 1588)? -/
def State.byTopology (s : State) (n : Nat) (a b : PtpAnnounce) : Bool :=
  b.gm == a.gm && (b.quality.steps == a.quality.steps
    || (a.quality.steps == b.quality.steps + 1 && decide (a.sender < s.portIdentity n)))
/-- The state decision of every port with a profile. -/
def State.bmca (s : State) : State :=
  s.ptpPorts.foldl (fun s n =>
    let p := s.ptp n
    let own := s.rankAt n (s.ownSet n)
    let cls := (s.ownSet n).quality.clockClass
    if p.cfg.role == 1 then s.ptpTo n .transmitter
    else match s.bestOn n with
    | none =>
      if p.state == .listening then s
      else if p.state == .disabled || p.state == .faulty || p.state == .initializing then s.ptpTo n .listening
      else s.ptpTo n .transmitter
    | some a =>
      if rankLt own (s.rankAt n a) then s.ptpTo n .transmitter
      else if cls ≤ 127 then s.ptpTo n .passive
      else match s.bestOfAll with
      | some (m, b) =>
        if m = n then s.takeParent n a
        else if s.byTopology n a b then s.ptpTo n .passive
        else s.ptpPrepare n (b.quality.steps + 1)
      | none => s.ptpTo n .transmitter) s

/-! ### Messages -/

/-- Octets 14 on of a frame: the PTP message. -/
def ptpBody (f : List Octet) : List Octet := f.drop 14
/-- `len` octets at `k`, as a number. -/
def at_ (l : List Octet) (k len : Nat) : Nat := ofOctets ((l.drop k).take len)
/-- A PTP timestamp at `k`, in 2⁻¹⁶ ns. -/
def stampAt (l : List Octet) (k : Nat) : Int := (at_ l k 6 : Int) * secondUnits + (at_ l (k + 6) 4 : Int) * 65536
/-- correctionField in 2⁻¹⁶ ns. -/
def correction (l : List Octet) : Int := sx 64 (at_ l 8 8)
/-- A frame: addresses, EtherType, header and body of a message. -/
def State.ptpFrame (s : State) (n kind flags seq : Nat) (corr : Int) (interval : Int) (body : List Octet) : List Octet :=
  let c := (s.ptp n).cfg
  let dest : List Octet := if c.profile = 1 then [0x01, 0x80, 0xC2, 0x00, 0x00, 0x0E] else [0x01, 0x1B, 0x19, 0x00, 0x00, 0x00]
  dest ++ octetsBE 6 c.mac ++ [0x88, 0xF7]
    ++ octetsBE 1 kind ++ [0x02] ++ octetsBE 2 (34 + body.length) ++ octetsBE 1 c.domain ++ [0x00] ++ octetsBE 2 flags
    ++ octetsBE 8 (ux 64 corr) ++ List.replicate 4 0 ++ octetsBE 10 (s.portIdentity n) ++ octetsBE 2 seq
    ++ [if kind = 0 then 0 else if kind = 1 then 1 else if kind = 8 then 2 else if kind = 9 then 3 else 5]
    ++ octetsBE 1 (ux 8 interval) ++ body
/-- Purposes of an outbound frame: 0 Announce, 1 one-step Sync, 2 two-step Sync, 3 Delay_Req, 4 a reply, 5 ESMC. A port sends at most 128
messages per second (R341). DESIGN CHOICE (log entry 20): counted per whole TAI second, and a message beyond is not sent. -/
def State.send (n purpose : Nat) (stamp : Option Nat) (f : List Octet) (s : State) : State :=
  let out : OutFrame := { octets := f, stampAt := stamp, purpose := purpose, queuedAt := s.ticks }
  if purpose = 5 then s.tapQueue n out
  else
    let p := s.ptp n
    let k := if p.sentSecond = s.taiSecond then p.sent else 0
    if 128 ≤ k then s else (s.modPtp n (fun p => { p with sentSecond := s.taiSecond, sent := k + 1 })).tapQueue n out
/-- Whether port n may send: UP, with the given state. -/
def State.ptpIs (s : State) (n : Nat) (st : PtpState) : Bool :=
  s.fwUp && (s.port? n).any (fun p => p.state == .up && p.ptp.cfg.profile != 0 && p.ptp.state == st)
/-- PTP_SYNC_TX: a time transmitter sends Sync every 2^LOG_SYNC seconds (R342). -/
def execPtpSyncTx (port : Fin 384) (s : State) : Res :=
  let p := s.ptp port
  if s.ptpIs port .transmitter ∧ p.syncAt + logTicks p.cfg.logSync ≤ s.ticks then
    let two := p.cfg.twoStep
    let f := s.ptpFrame port 0 (if two then 0x0200 else 0) p.seqSync 0 p.cfg.logSync (List.replicate 10 0)
    let s := s.modPtp port (fun p => { p with seqSync := (p.seqSync + 1) % 65536, syncAt := s.ticks })
    .next (s.send port (if two then 2 else 1) (if two then none else some 48) f)
  else .next s
/-- Flags of a sent Announce (Table 11.11). -/
def State.announceFlags (s : State) : Nat :=
  let k := s.kennel.settings
  let soon := k.leapAt != 0 && decide (s.nowTai < (k.leapAt : Int) * secondUnits)
    && decide ((k.leapAt : Int) * secondUnits - s.nowTai ≤ 43200 * secondUnits)
  b2n (soon && k.leapDir == 1) + b2n (soon && k.leapDir == -1) * 2 + b2n s.time.timeValid * 4 + 8 + b2n s.time.traceable * 16
    + b2n s.time.freqTraceable * 32
/-- Body of a sent Announce (Table 11.11). -/
def State.announceBody (s : State) (n : Nat) : List Octet :=
  let c := (s.ptp n).cfg
  let q := s.quality
  let own := (c.prio1, q, c.prio2, s.clockIdentity.getD 0,
    match s.time.selected with | some (.pps _) => (0x20 : Nat) | some (.engine _) => 0x90 | _ => 0xA0)
  let x : Nat × Quality × Nat × Nat × Nat := match s.time.selected with
    | some (.port p) => match (s.ptp p).parent with
      | some a => (a.prio1, { a.quality with steps := a.quality.steps + 1 }, a.prio2, a.gm, a.timeSource)
      | none => own
    | _ => own
  List.replicate 10 0 ++ octetsBE 2 (ux 16 s.kennel.settings.utcOffset) ++ [0] ++ octetsBE 1 x.1 ++ octetsBE 1 x.2.1.clockClass
    ++ octetsBE 1 x.2.1.accuracy ++ octetsBE 2 x.2.1.variance ++ octetsBE 1 x.2.2.1 ++ octetsBE 8 x.2.2.2.1 ++ octetsBE 2 x.2.1.steps
    ++ octetsBE 1 x.2.2.2.2
/-- PTP_ANNOUNCE_TX: a time transmitter sends Announce every 2^LOG_ANNOUNCE seconds (R344). -/
def execPtpAnnounceTx (port : Fin 384) (s : State) : Res :=
  let p := s.ptp port
  if s.ptpIs port .transmitter ∧ p.announceAt + logTicks p.cfg.logAnnounce ≤ s.ticks then
    let f := s.ptpFrame port 0xB s.announceFlags p.seqAnnounce 0 p.cfg.logAnnounce (s.announceBody port)
    let s := s.modPtp port (fun p => { p with seqAnnounce := (p.seqAnnounce + 1) % 65536, announceAt := s.ticks })
    .next (s.send port 0 none f)
  else .next s
/-- PTP_DELAY_REQ_TX: a time receiver sends Delay_Req every 2^LOG_DELAY_REQ seconds (R340). -/
def execPtpDelayReqTx (port : Fin 384) (s : State) : Res :=
  let p := s.ptp port
  if (s.ptpIs port .receiver ∨ s.ptpIs port .uncalibrated) ∧ p.delayAt + logTicks p.cfg.logDelayReq ≤ s.ticks then
    let f := s.ptpFrame port 1 0 p.seqDelay (-(psUnits p.cfg.asym)) 0x7F (List.replicate 10 0)
    let s := s.modPtp port (fun p => { p with
      seqDelay := (p.seqDelay + 1) % 65536, delayAt := s.ticks, delayWait := some (p.seqDelay, none) })
    .next (s.send port 3 none f)
  else .next s
/-- The egress stamp of a sent frame comes back: a two-step Sync gets its Follow_Up, a Delay_Req its t3. -/
def State.ptpSent (n : Nat) (f : OutFrame) (stamp : Int) (s : State) : State :=
  let seq := at_ (ptpBody f.octets) 30 2
  if f.purpose = 2 then s.send n 4 none (s.ptpFrame n 8 0 seq 0 (s.ptp n).cfg.logSync (ptpStamp stamp))
  else if f.purpose = 3 then
    s.modPtp n (fun p => { p with
      delayWait := match p.delayWait with
      | some (q, _) => if q = seq then some (q, some stamp) else p.delayWait | none => none })
  else s
/-- TAP_FRAME_INSERT: the oldest outbound frame leaves at a client gap, at the message timestamp point `sub` after the tick's start, with
the egress stamp at the lowest lane's land, which is written into it where its descriptor asks, and the FCS recomputed (R291, R292). The
frame takes 32 octets a block with its preamble and FCS, and holds back as many blocks of the egress buffer. While the buffer is more
than half full nothing is inserted. -/
def execTapFrameInsert (port : Fin 384) (sub : Nat) (s : State) : Res :=
  match s.port? port with
  | none => .next s
  | some p =>
    match p.tap.queue with
    | [] => .next s
    | f :: rest =>
      if p.state ≠ .up ∨ 1024 < p.data.egress.length then .next s
      else
        let stamp := s.nowTai + sub + p.txDelay
        let body := match f.stampAt with | some k => overwrite f.octets k (ptpStamp stamp) | none => f.octets
        let s := s.modPort port (fun p => { p with
          tap := { p.tap with queue := rest, sent := some (body ++ octetsLE 4 (crc32 body), stamp) }
          data := { p.data with inserted := p.data.inserted ++ (List.range ((body.length + 43) / 32)).map (fun i =>
            some (Config.frameBlock (body ++ octetsLE 4 (crc32 body)) i)) } })
        .next (s.ptpSent port f stamp)

/-! ### Reception -/

/-- The Announce a message spells. -/
def announceOf (m : List Octet) : PtpAnnounce :=
  { sender := at_ m 20 10, flags := at_ m 6 2, utcOffset := sx 16 (at_ m 44 2), prio1 := at_ m 47 1
    quality := { clockClass := at_ m 48 1, accuracy := at_ m 49 1, variance := at_ m 50 2, steps := at_ m 61 2 }
    prio2 := at_ m 52 1, gm := at_ m 53 8, timeSource := at_ m 63 1 }
/-- A message comes from the port's parent. -/
def PtpPort.fromParent (p : PtpPort) (m : List Octet) : Bool :=
  (p.state == .receiver || p.state == .uncalibrated) && p.parent.any (fun a => a.sender == at_ m 20 10)
/-- LEAP_AT of an Announce's leap flags: the end of the UTC day, as TAI. -/
def State.leapOf (s : State) (a : PtpAnnounce) : Int × Nat :=
  let dir : Int := if bit a.flags 0 then 1 else if bit a.flags 1 then -1 else 0
  if dir = 0 then (1, 0)
  else
    let utc := s.nowTai / secondUnits - a.utcOffset
    (dir, ((utc / 86400 + 1) * 86400 + a.utcOffset + dir).toNat)
/-- An Announce enters the foreign data sets, refreshes the parent, and the state decision runs. -/
def State.onAnnounce (n : Nat) (m : List Octet) (s : State) : State :=
  let a := announceOf m
  if a.sender / 65536 = s.clockIdentity.getD 0 then s
  else
    let p := s.ptp n
    let s := s.modPtp n (fun p => { p with
      foreign := (if p.foreign.any (fun f => f.ann.sender == a.sender) then
          p.foreign.map (fun f => if f.ann.sender == a.sender then ({ ann := a, seen := (s.ticks :: f.seen).take 4 } : Foreign) else f)
        else (p.foreign ++ [({ ann := a, seen := [s.ticks] } : Foreign)]).drop (p.foreign.length - 4))
      heardAt := if p.parent.any (fun x => x.sender == a.sender) then s.ticks else p.heardAt
      parent := if p.parent.any (fun x => x.sender == a.sender && x.gm == a.gm) then some a else p.parent })
    let s := s.bmca
    let lp := s.leapOf a
    if p.fromParent m && bit a.flags 2 then s.utcFrom (.port n) a.utcOffset lp.1 lp.2 2 else s
/-- A Delay_Resp to the request in flight completes an exchange with the last Sync: offsetFromMaster (R343). -/
def State.onDelayResp (n : Nat) (m : List Octet) (s : State) : State :=
  let p := s.ptp n
  match p.delayWait, p.sync with
  | some (q, some t3), some (t1, t2) =>
    if q = at_ m 30 2 ∧ at_ m 44 10 = s.portIdentity n then
      let ms := t2 - t1 - psUnits p.cfg.asym
      let sm := stampAt m 34 - correction m - t3
      let s := s.modPtp n (fun p => { p with
        delayWait := none, offSum := p.offSum + (ms - sm), offCount := p.offCount + 1, lastOffset := roundDiv (ms - sm) 2 })
      if p.state == .uncalibrated then
        (s.ptpTo n .receiver).modPtp n (fun p => { p with offSum := ms - sm, offCount := 1 })
      else s
    else s
  | _, _ => s
/-- One message of a port with a profile (R340 to R342). -/
def State.onMessage (n : Nat) (m : List Octet) (stamp : Int) (s : State) : State :=
  let p := s.ptp n
  let kind := at_ m 0 1 % 16
  if at_ m 4 1 ≠ p.cfg.domain ∨ at_ m 1 1 % 16 ≠ 2 then s
  else match kind with
  | 0 =>
    if p.fromParent m then
      if bit (at_ m 6 1) 1 then s.modPtp n (fun p => { p with syncWait := some (at_ m 30 2, stamp, correction m) })
      else s.modPtp n (fun p => { p with sync := some (stampAt m 34 + correction m, stamp), syncWait := none })
    else s
  | 8 =>
    match p.syncWait with
    | some (q, t2, c) =>
      if p.fromParent m && q == at_ m 30 2 then
        s.modPtp n (fun p => { p with sync := some (stampAt m 34 + c + correction m, t2), syncWait := none })
      else s
    | none => s
  | 1 =>
    if p.state == .transmitter then
      s.send n 4 none (s.ptpFrame n 9 0 (at_ m 30 2) (correction m) p.cfg.logDelayReq (ptpStamp stamp ++ octetsBE 10 (at_ m 20 10)))
    else s
  | 9 => if p.fromParent m then s.onDelayResp n m else s
  | 11 => s.onAnnounce n m
  | _ => s.count .ptpRxUnsupp .port n 1
/-- The oldest waiting frame of a port and class, and the rest. -/
def takeWaiting (n : Nat) (esmc : Bool) :
    List (Nat × Bool × List Octet × Int) → Option (List Octet × Int) × List (Nat × Bool × List Octet × Int)
  | [] => (none, [])
  | x :: r =>
    if x.1 = n ∧ x.2.1 = esmc then (some x.2.2, r)
    else
      let y := takeWaiting n esmc r
      (y.1, x :: y.2)
/-- PTP_MESSAGE_RX: the cores take the port's oldest extracted PTP frame; beyond 128 in a TAI second it is dropped (R341). -/
def execPtpMessageRx (port : Fin 384) (s : State) : Res :=
  if !s.fwUp then .next s else
  let w := takeWaiting port false (s.htile (port / 96)).waiting
  match w.1 with
  | none => .next s
  | some (f, stamp) =>
    let s := s.modHtile (port / 96) (fun h => { h with waiting := w.2 })
    let p := s.ptp port
    if p.cfg.profile = 0 then .next s
    else
      let sec := s.taiSecond
      let n := if p.second = sec then p.received else 0
      let s := s.modPtp port (fun p => { p with second := sec, received := n + 1 })
      if 128 ≤ n then .next (s.count .ptpRxDrop .port port 1) else .next (s.onMessage port (ptpBody f) stamp)
/-- ANNOUNCE_RECEIPT_TIMEOUT: no Announce of the parent, or in LISTENING none at all, for ANNOUNCE_TIMEOUT intervals. -/
def execAnnounceReceiptTimeout (port : Fin 384) (s : State) : Res :=
  let p := s.ptp port
  let waits := p.state == .listening || p.state == .receiver || p.state == .uncalibrated || p.state == .passive
  if s.fwUp ∧ p.cfg.profile ≠ 0 ∧ waits ∧ p.heardAt + p.cfg.timeout * logTicks p.cfg.logAnnounce ≤ s.ticks then
    let s := s.modPtp port (fun p => { p with
      foreign := p.foreign.filter (fun f => p.parent.all (fun a => a.sender != f.ann.sender)), parent := none })
    let s := if (s.bestOn port).isNone then s.ptpTo port .transmitter else s
    .next s.bmca
  else .next s
/-- The conditions of a PTP candidate (R343). -/
def State.portOk (s : State) (n : Nat) : Bool :=
  let p := s.ptp n
  p.state == .receiver && p.parent.any (fun a => bit a.flags 4 && (a.quality.clockClass == 6 || a.quality.clockClass == 7))
    && p.voidAt.all (fun t => decide (t + s.time.params.qualTime * secTicks ≤ s.ticks))
/-- PTP_MEAS_PERIOD_END: a time receiver's period ends; its mean offset is a measurement unless fewer than half the expected
exchanges completed (R343). -/
def execPtpMeasPeriodEnd (port : Fin 384) (s : State) : Res :=
  let p := s.ptp port
  let len := logTicks p.cfg.meas
  if s.fwUp ∧ p.state = .receiver ∧ p.measAt + len ≤ s.ticks then
    let expected := len / max (logTicks p.cfg.logSync) (logTicks p.cfg.logDelayReq)
    let void := decide (2 * p.offCount < expected) || p.offCount == 0
    let s := s.modPtp port (fun p => { p with
      offSum := 0, offCount := 0, measAt := s.ticks, voidAt := if void then some s.ticks else p.voidAt })
    if void then .next ((s.count .ptpVoid .port port 1).disqualify (.port port) .condition)
    else if s.time.selected = some (.port port.val) then
      .next (s.modTime (fun t => { t with meas := some (.port port, roundDiv p.offSum (2 * p.offCount)) }))
    else .next s
  else .next s
/-- Ports whose PRE_MASTER ends transmit; line and PTP candidates are judged: conditions met, or the candidate is disqualified at once
(R305). -/
def State.judgeCandidates (s : State) : State :=
  let s := s.ptpPromote
  s.time.candidates.foldl (fun s c => match c.src with
    | .engine e => if s.lineOk e then s.meets c.src else s.disqualify c.src .condition
    | .port p => if s.portOk p then s.meets c.src else s.disqualify c.src .condition
    | _ => s) s

/-! ### ESMC (R337, R338) -/

/-- The QL port n transmits: SSM code and enhanced code (Table 11.9). -/
def State.txQl (s : State) (n : Nat) : Nat × Nat :=
  if !(s.htile (n / 96)).syntonised || decide (s.time.freq.ref = .synce n) then (0xF, 0xFF)
  else if s.time.freqTraceable then (0x2, 0x20) else (0xB, 0x22)
/-- An ESMC PDU: event flag, QL TLV and extended QL TLV, padded to 60 octets. -/
def State.esmcFrame (s : State) (n : Nat) (event : Bool) (ql : Nat × Nat) : List Octet :=
  padTo 60 (([0x01, 0x80, 0xC2, 0x00, 0x00, 0x02] : List Octet) ++ octetsBE 6 (s.ptp n).cfg.mac
    ++ [0x88, 0x09, 0x0A, 0x00, 0x19, 0xA7, 0x00, 0x01] ++ octetsBE 1 (0x10 + b2n event * 8) ++ [0, 0, 0]
    ++ [0x01, 0x00, 0x04] ++ octetsBE 1 ql.1 ++ [0x02, 0x00, 0x14] ++ octetsBE 1 ql.2 ++ octetsBE 8 (s.clockIdentity.getD 0))
/-- A port sends its QL; a change raises ESMC_QL_CHANGE. -/
def State.esmcSend (n : Nat) (event : Bool) (s : State) : State :=
  let old := (s.ptp n).txQl
  let ql := s.txQl n
  let s := s.send n 5 none (s.esmcFrame n event ql)
  let s := s.modPtp n (fun p => { p with
    txQl := ql, eventQl := if event then ql else p.eventQl, esmcAt := if event then p.esmcAt else s.ticks })
  if old = ql then s
  else s.raise .esmcQlChange .port n (w1 0 ++ [Config.qlWord old.1 old.2, Config.qlWord ql.1 ql.2])
/-- ESMC is sent by port n. -/
def State.esmcOn (s : State) (n : Nat) : Bool := s.fwUp && (s.port? n).any (fun p => p.state == .up && p.tap.esmc)
/-- ESMC_INFO_TX: an information PDU once per second. -/
def execEsmcInfoTx (port : Fin 384) (s : State) : Res :=
  if s.esmcOn port ∧ (s.ptp port).esmcAt + secTicks ≤ s.ticks then .next (s.esmcSend port false) else .next s
/-- ESMC_EVENT_TX: an event PDU after a change of the transmitted QL, also where an information PDU has carried it first. -/
def execEsmcEventTx (port : Fin 384) (s : State) : Res :=
  if s.esmcOn port ∧ s.txQl port ≠ (s.ptp port).eventQl then .next (s.esmcSend port true) else .next s
/-- The QL of a received PDU: SSM code and enhanced code; none for a bad format. -/
def esmcQl (f : List Octet) : Option (Nat × Nat) :=
  if at_ f 14 1 = 0x0A ∧ at_ f 15 3 = 0x0019A7 ∧ at_ f 18 2 = 1 ∧ at_ f 20 1 / 16 = 1 ∧ at_ f 24 3 = 0x010004 then
    some (at_ f 27 1 % 16, if at_ f 28 3 = 0x020014 then at_ f 31 1 else 0xFF)
  else none
/-- ESMC_PDU_RX: the cores take the port's oldest extracted ESMC frame (R338). -/
def execEsmcPduRx (port : Fin 384) (s : State) : Res :=
  if !s.fwUp then .next s else
  let w := takeWaiting port true (s.htile (port / 96)).waiting
  match w.1 with
  | none => .next s
  | some (f, _) =>
    let s := s.modHtile (port / 96) (fun h => { h with waiting := w.2 })
    match esmcQl f with
    | none => .next (s.count .esmcRxErr .port port 1)
    | some q =>
      let old := (s.ptp port).rxQl
      let s := s.modPtp port (fun p => { p with
        rxQl := some (q.1, q.2, s.ticks), qlHeardAt := if q.1 = 0xF then p.qlHeardAt else some s.ticks })
      let s := s.refreshTrace
      match old with
      | some (a, b, _) =>
        if a = q.1 ∧ b = q.2 then .next s
        else .next (s.raise .esmcQlChange .port port (w1 1 ++ [Config.qlWord a b, Config.qlWord q.1 q.2]))
      | none => .next (s.raise .esmcQlChange .port port (w1 1 ++ [Config.qlWord 0xF 0xFF, Config.qlWord q.1 q.2]))

/-! ### Commands -/

/-- PORT_TAP_SET (R288, R291, R339). -/
def specPortTapSet : OpSpec :=
  { code := 0x308, len := lenIs 4, target := tgtPort, ranges := [rngU 1 0 1, rngU 2 0 1, rngU 3 1 100]
    refuse := fun s c => if (s.ptp (cIdx c)).cfg.profile ≠ 0 ∧ cw c 1 = 0 then some (.mode, 0) else none
    eff := .now (fun c s => ((s.modPort (cIdx c) (fun p => { p with
      tap := { p.tap with ptp := cw c 1 == 1, esmc := cw c 2 == 1, insertWait := cw c 3 } })).bmca, []))
    read := some {
      selectors := 0, ok := fun _ _ => true, get := fun c s => match s.port? (cIdx c) with
      | some p => w1 (b2n p.tap.ptp) ++ w1 (b2n p.tap.esmc) ++ w1 p.tap.insertWait
      | none => [] } }
/-- PORT_TAP_SET: sets the frame tap of a port. -/
def execPortTapSet (c : Cmd) (s : State) : Res := runOp specPortTapSet c s
/-- PTP_CLOCK_SET (R339). -/
def specPtpClockSet : OpSpec :=
  { code := 0x420, len := lenIs 3, target := tgtDevice
    eff := .now (fun c s => (({ s with clockIdentity := some (cw2 c 1) } : State).bmca, []))
    read := some { selectors := 0, ok := fun _ _ => true, get := fun _ s => w2 (s.clockIdentity.getD 0) } }
/-- PTP_CLOCK_SET: sets clockIdentity. -/
def execPtpClockSet (c : Cmd) (s : State) : Res := runOp specPtpClockSet c s
/-- Octet k of a word, the first in [31:24]. -/
def cOct (c : Cmd) (w k : Nat) : Nat := field (cw c w) (24 - 8 * k) 8
/-- The settings a PTP_PORT_SET spells: four octets in words 1 and 3, three right-aligned octets in word 2. -/
def ptpCfgOf (c : Cmd) : PtpCfg :=
  { profile := cOct c 1 0, role := cOct c 1 1, twoStep := cOct c 1 2 == 1, domain := cOct c 1 3
    prio1 := cOct c 2 1, prio2 := cOct c 2 2, localPrio := cOct c 2 3
    logSync := sx 8 (cOct c 3 0), logDelayReq := sx 8 (cOct c 3 1), logAnnounce := sx 8 (cOct c 3 2), timeout := cOct c 3 3
    asym := cz c 4, meas := cz c 5, mac := cw2 c 6 }
/-- Word 1 within Table 11.10. -/
def ptpWord1Ok (c : Cmd) : Bool :=
  let x := ptpCfgOf c
  decide (x.profile ≤ 2) && decide (x.role ≤ 1) && decide (cOct c 1 2 ≤ 1)
    && (x.profile == 0 || (if x.profile = 1 then decide (24 ≤ x.domain) && decide (x.domain ≤ 43) else decide (x.domain ≤ 127)))
/-- Word 2 within Table 11.10. -/
def ptpWord2Ok (c : Cmd) : Bool :=
  let x := ptpCfgOf c
  cOct c 2 0 == 0 && (x.profile != 1 || (x.prio1 == 128 && x.localPrio != 0))
/-- Word 3 within Table 11.10. -/
def ptpWord3Ok (c : Cmd) : Bool :=
  let x := ptpCfgOf c
  match x.profile with
  | 0 => true
  | 1 => x.logSync == -4 && x.logDelayReq == -4 && x.logAnnounce == -3 && x.timeout == 3
  | _ => decide (-7 ≤ x.logSync) && decide (x.logSync ≤ 1) && decide (-7 ≤ x.logDelayReq) && decide (x.logDelayReq ≤ 5)
    && decide (-3 ≤ x.logAnnounce) && decide (x.logAnnounce ≤ 4) && decide (2 ≤ x.timeout) && decide (x.timeout ≤ 10)
/-- Messages a port would send in 32 seconds (R341). -/
def ptpRate (x : PtpCfg) : Nat :=
  let per := fun (k : Int) => 32 * secTicks / logTicks k
  per x.logSync * (if x.twoStep then 2 else 1) + per x.logAnnounce + per x.logDelayReq
/-- PTP_PORT_SET (R339, R341). -/
def specPtpPortSet : OpSpec :=
  { code := 0x421, len := lenIs 8, target := tgtPort
    ranges := [(1, fun _ c => ptpWord1Ok c), (2, fun _ c => ptpWord2Ok c), (3, fun _ c => ptpWord3Ok c), rngS 4 (-1000000) 1000000,
      rngS 5 (-4) 0, (6, fun _ c => decide (cw2 c 6 < 2 ^ 48))]
    refuse := fun s c =>
      if s.clockIdentity.isNone || cw2 c 6 == 0 then some (.profileIncomplete, 0)
      else if (s.port? (cIdx c)).all (fun p => !p.tap.ptp) then some (.mode, 0)
      else if (ptpCfgOf c).profile ≠ 0 ∧ 128 * 32 < ptpRate (ptpCfgOf c) then some (.parameterInvalid, 3) else none
    eff := .now (fun c s =>
      let n := cIdx c
      let x := ptpCfgOf c
      let old := (s.ptp n).cfg
      if x = old then (s, [])
      else
        let s := if x.profile = old.profile ∧ x.role = old.role ∧ x.domain = old.domain then s
          else (s.ptpTo n (if x.profile = 0 then .disabled else .listening)).modPtp n (fun p => { p with foreign := [], parent := none })
        ((s.modPtp n (fun p => { p with cfg := x })).bmca, []))
    read := some {
      selectors := 0, ok := fun _ _ => true, get := fun c s =>
      let x := (s.ptp (cIdx c)).cfg
      packOctets (octetsBE 1 x.profile ++ octetsBE 1 x.role ++ octetsBE 1 (b2n x.twoStep) ++ octetsBE 1 x.domain ++ [0]
        ++ octetsBE 1 x.prio1 ++ octetsBE 1 x.prio2 ++ octetsBE 1 x.localPrio ++ octetsBE 1 (ux 8 x.logSync)
        ++ octetsBE 1 (ux 8 x.logDelayReq) ++ octetsBE 1 (ux 8 x.logAnnounce) ++ octetsBE 1 x.timeout)
        ++ wi x.asym ++ wi x.meas ++ w2 x.mac } }
/-- PTP_PORT_SET: sets the PTP port of a client port. -/
def execPtpPortSet (c : Cmd) (s : State) : Res := runOp specPtpPortSet c s
/-- PTP_PORT_STATUS (R343). -/
def specPtpPortStatus : OpSpec :=
  { code := 0x422, len := lenIs 1, target := tgtPort
    eff := .now (fun c s =>
      let p := s.ptp (cIdx c)
      let rx := match p.rxQl with | some (a, b, _) => Config.qlWord a b | none => Config.qlWord 0xF 0xFF
      (s, w1 p.state.code ++ w3 ((p.parent.map (·.sender)).getD 0) ++ wi2 p.lastOffset
        ++ [rx, Config.qlWord (s.txQl (cIdx c)).1 (s.txQl (cIdx c)).2])) }
/-- PTP_PORT_STATUS: returns PTP state, parent, offset and QLs. -/
def execPtpPortStatus (c : Cmd) (s : State) : Res := runOp specPtpPortStatus c s

end Sys2Proof.Machine
end

