-- ==== Sys2Proof/Machine/Frame.lean ====
section
/-! DEFINITION. The Bunaten line frame: assembly (R58, R69 to R90, R350, R377, R491 to R493), receive acceptance (R92 to R95, R358, R360),
the overhead an accepted frame brings, and the service channel, operator area, TTI and lock commands.
What it chooses or infers where the manual is silent, with its marks: log entry 22. -/
namespace Sys2Proof.Machine

/-- Applies `f` to what an engine took from far-end overhead. -/
def State.modRx (e : Nat) (f : Received → Received) (s : State) : State := s.modEng e (fun g => { g with rx := f g.rx })
/-- Applies `f` to the defects of an engine. -/
def State.modDefect (e : Nat) (f : DefectState → DefectState) (s : State) : State := s.modEng e (fun g => { g with defect := f g.defect })

/-! ### Assembly -/

/-- The engine is locked or isolated, so that LCK is sent (Table 13.4). -/
def Engine.locked (g : Engine) : Bool := g.tx.lck || g.iso.isSome
/-- The key of a slot that has not reached its EXPIRY_TN (R356). -/
def Engine.liveKey (g : Engine) (i tn : Nat) : Option KeySlot := g.key.live tn i
/-- Whether a frame goes out in the clear: CRYPTO_MODE NONE, or looped with an EMPTY transmit slot (R492). -/
def Engine.clearFrame (g : Engine) (tn : Nat) : Bool := g.key.none || (g.looped && (g.liveKey g.key.index tn).isNone)
/-- The clear header of frame `tn` (Table 2.4). -/
def State.clearHeader (s : State) (e tn : Nat) : List Octet :=
  let g := s.eng e
  let h := octetsBE 1 0xB1 ++ octetsBE 1 ((g.txAt tn).1 * 16 + g.txLayout)
    ++ octetsBE 1 (if g.clearFrame tn then 0x80 else g.key.index * 32) ++ octetsBE 1 e ++ octetsBE 8 tn
    ++ octetsBE 2 s.kennel.settings.ivGen
  h ++ octetsBE 2 (crc16 h)
/-- TICK_OFFSET of the present tick (R301 to R303), a step due at the boundary at which it began included. -/
def State.offsetNow (s : State) : Int := match s.time.stepDue with | some e => s.tickOffset - e | none => s.tickOffset
/-- TX_TIME of frame `tn`, that of the present tick: the time of its reference instant (R75, R303). -/
def State.txTimeOf (s : State) (e tn : Nat) : Int := s.offsetNow + tn * tickUnits + s.txDelay e
/-- The time block (Table 2.5). -/
def State.timeBlock (s : State) (e tn : Nat) : List Octet :=
  let r := (s.eng e).rx
  let q := s.quality
  octetsBE 12 (stamp96 (s.txTimeOf e tn)) ++ octetsBE 8 (if r.echoValid then r.echoTn else 0)
    ++ octetsBE 12 (if r.echoValid then stamp96 r.echoArrival else 0)
    ++ octetsBE 2 (b2n s.time.timeValid * 2 ^ 15 + b2n r.echoValid * 2 ^ 14 + b2n s.time.traceable * 2 ^ 13
        + b2n s.tnProvisional * 2 ^ 12)
    ++ octetsBE 1 q.clockClass ++ octetsBE 1 q.accuracy ++ octetsBE 2 q.variance ++ octetsBE 2 q.steps ++ octetsBE 8 0
/-- The loading block (Table 2.6, R78, R79, R202): an announcement shows once its first announcing frame is assembled, and the SNR
report leaves out what is inactive, not in frame or STALE. -/
def Engine.loadBlock (g : Engine) (tn : Nat) : List Octet :=
  let l := g.load
  let head : Nat × Nat × Nat × Nat × List Nat := match l.ann.filter (fun a => a.made && decide (a.firstTn ≤ tn)) with
    | some a =>
      if a.loadTn ≤ tn then
        if a.why == .abort then (g.kTx, a.seq, a.loadTn, 0, l.vecTx) else (a.k, a.seq, a.loadTn, 0, a.vec)
      else (a.k, a.seq, a.loadTn, 0x80 + b2n (a.accepted && a.why != .abort) * 0x40, a.vec)
    | none => (g.kTx, l.curSeq, l.curTn, 0, l.vecTx)
  octetsBE 1 (head.2.2.2.1 + head.1) ++ octetsBE 1 head.2.1 ++ octetsBE 8 head.2.2.1
    ++ head.2.2.2.2.map (BitVec.ofNat 8) ++ octetsBE 1 l.ackSeq ++ octetsBE 1 l.ackStatus
    ++ ((List.range 8).map (fun i =>
        octetsBE 2 (if g.inFrame && scActive g.rxLayout i && !g.eq.freeze.holdsSnr then ux 16 (g.eq.est.snr.getD i (-32768)) else 0x8000))).flatten
    ++ octetsBE 12 0
/-- The backward bits of the frame that is being assembled: the states at the end of the tick before (Table 13.4, R377). -/
def State.backwardOf (s : State) (e : Nat) : Nat :=
  let d := (s.eng e).defect
  let pk := (s.packOf e).any (fun p => (s.pack p).skewPresent || (s.pack p).mismatchPresent)
  b2n d.sf.isSome * 128 + b2n (d.present.contains .authFail) * 64 + b2n (d.present.contains .deg) * 32 + b2n pk * 16
/-- The defect block (Tables 2.7 and 13.4, R83). -/
def Engine.defectBlock (g : Engine) : List Octet :=
  octetsBE 1 (b2n g.locked * 128 + b2n (g.iso.any (·.pattern)) * 64) ++ octetsBE 1 g.tx.backward
    ++ (if g.inFrame then octetsBE 2 g.rx.beiCw ++ octetsBE 4 g.rx.beiBits ++ octetsBE 8 g.rx.beiTn else octetsBE 14 0)
/-- The Pack block (R84). -/
def State.packBlock (s : State) (e : Nat) : List Octet :=
  match s.packOf e with
  | none => octetsBE 8 0
  | some p =>
    let k := s.pack p
    let pos := (k.members.idxOf? e).getD 0
    octetsBE 1 (128 + p) ++ octetsBE 1 (pos * 32) ++ octetsBE 1 (2 ^ k.members.length - 1) ++ octetsBE 1 k.gen ++ octetsBE 4 0
/-- The service octets of a frame: up to 31 from the head of the queue (R85, R86). -/
def Transmit.svcBlock (t : Transmit) : List Octet :=
  let d := t.svcTx.take 31
  octetsBE 1 d.length ++ d ++ List.replicate (31 - d.length) 0
/-- Overhead octets 16 to 495 of frame `tn`, with its service octets. -/
def State.overheadOf (s : State) (e tn : Nat) (svc : List Octet) : List Octet :=
  let g := s.eng e
  s.timeBlock e tn ++ g.loadBlock tn ++ (g.tx.tti.drop (16 * (tn % 4))).take 16 ++ g.defectBlock ++ s.packBlock e ++ svc
    ++ g.tx.opArea ++ List.replicate 248 0
/-- JC and slot octets of a frame: the grains the hub moved, or idle fill under LCK, with PRBS31 in test slots (R378, R491, R493). -/
def Engine.slotsOf (g : Engine) (tn : Nat) : List Nat × List (List Octet) :=
  let n := grains (g.txAt tn).1
  if g.locked then
    (List.replicate n 0xFC, if g.iso.any (·.pattern) then testPattern n else List.replicate n (List.replicate 128 0))
  else
    let at' := fun (i : Nat) => g.frameSlots.getD i idleGrain
    ((List.range n).map (fun i => (at' i).jc), (List.range n).map (fun i => (at' i).octets))
/-- The GCM IV (Table 12.1). -/
def gcmIv (side : Bool) (engine ivGen tn : Nat) : List Octet :=
  octetsBE 1 (b2n side * 128 + engine) ++ octetsBE 1 0 ++ octetsBE 2 ivGen ++ octetsBE 8 tn
/-- The body of a frame before scrambling: clear header, the rest encrypted under GCM, tag, and pad (R69, R70, R73). -/
def State.frameBody (s : State) (e tn : Nat) (header plain : List Octet) : List Octet :=
  let g := s.eng e
  let sealed := match g.clearFrame tn, g.liveKey g.key.index tn with
    | false, some k => gcmSeal k.key (gcmIv g.key.linkSide e s.kennel.settings.ivGen tn) header plain
    | _, _ => (plain, List.replicate 16 0)
  let raw := header ++ sealed.1 ++ sealed.2
  raw ++ List.replicate (1920 * unitsOf (g.txAt tn).1 - raw.length) 0
/-- An engine with no capacity, on a fenced tile, without its key, or MUZZLED (Table 4.6) sends no frame; one in loopback does in every
tick, whatever its Muzzle (R492). -/
def State.frameless (s : State) (e : Nat) : Bool :=
  let g := s.eng e
  (g.txAt s.tn).1 == 0 || s.fenced e || (g.tx.muzzle == .muzzled && !g.looped)
    || (!g.zr && !g.clearFrame s.tn && (g.liveKey g.key.index s.tn).isNone)
/-- The frame of the present tick, with its service octets (R58, R75). -/
def State.frameNow (s : State) (e : Nat) (svc : List Octet) : SentFrame :=
  let g := s.eng e
  let h := s.clearHeader e s.tn
  let oh := s.overheadOf e s.tn svc
  let sl := g.slotsOf s.tn
  { tn := s.tn, header := h, overhead := oh, jc := sl.1, slots := sl.2
    body := s.frameBody e s.tn h (oh ++ sl.1.map (BitVec.ofNat 8) ++ sl.2.flatten)
    vec := (g.txAt s.tn).2, layout := g.txLayout }
/-- What goes out in a tick in the 400ZR profile: the client's slots, in the agreement's coded frames, which are not tick-aligned and have none of
the overhead of a Bunaten frame (R30, R122). -/
def State.zrNow (s : State) (e : Nat) : SentFrame :=
  let sl := (s.eng e).slotsOf s.tn
  { tn := s.tn, header := [], overhead := [], jc := sl.1, slots := sl.2, body := Config.zrCoded s.ticks sl.2.flatten, vec := [], layout := 0 }
/-- A TTI that waits is sent from a frame whose TN mod 4 is 0 (R81). -/
def Transmit.takeTti (tn : Nat) (t : Transmit) : Transmit :=
  if tn % 4 = 0 then { t with tti := t.ttiNext.getD t.tti, ttiNext := none, ttiWas := t.ttiNext.map (fun _ => t.tti) }
  else { t with ttiWas := none }
/-- A frame takes another TN before it is sent: a TTI that began with it goes back to wait, unless the new TN mod 4 is 0 (R81). -/
def Transmit.retakeTti (tn : Nat) (t : Transmit) : Transmit :=
  Transmit.takeTti tn (match t.ttiWas with
    | some w => { t with tti := w, ttiNext := some (t.ttiNext.getD t.tti) }
    | none => t)
/-- The frame of the tick that begins at this boundary, assembled in the tick before under every change that applies to its label
(R25, R26, R58, R75): the service octets leave the queue, a waiting TTI starts at TN mod 4 = 0 (R81), an announcement that begins with
it takes its LOAD_TN (R113, R115), an accepted one has sent LOAD_COMMIT, and TX_TIME enters the history (R320). -/
def State.assembleFrame (e : Nat) (s : State) : State :=
  if s.frameless e then s.modTx e (fun t => { t with sent := none })
  else if (s.eng e).zr then s.modTx e (fun t => { t with sent := some (s.zrNow e) })
  else
    let s := (s.modTx e (Transmit.takeTti s.tn)).modLoad e (Loading.makeAnn s.tn)
    let f := s.frameNow e (s.eng e).tx.svcBlock
    let s := s.modEng e (fun g =>
      { g with tx := { g.tx with sent := some f, svcTx := g.tx.svcTx.drop 31 }
               load := { g.load with
                         ann := g.load.ann.map (fun a =>
                         { a with committed := a.committed || (a.accepted && a.why != .abort) }) } })
    s.noteSent e s.tn (s.txTimeOf e s.tn)
/-- The frame of a tick whose TN a realignment has set at its boundary: its service octets are those already taken, its TTI segment is that
of the new TN (R81). -/
def State.reassemble (e : Nat) (s : State) : State :=
  match (s.eng e).tx.sent with
  | none => s
  | some x =>
    if s.frameless e then s.modTx e (fun t => { t with sent := none })
    else if (s.eng e).zr then s.modTx e (fun t => { t with sent := some (s.zrNow e) })
    else
      let s := s.modTx e (Transmit.retakeTti s.tn)
      let f := s.frameNow e ((x.overhead.drop 136).take 32)
      let s := s.modTx e (fun t => { t with sent := some f })
      s.noteSent e s.tn (s.txTimeOf e s.tn)
/-- An abort announcement has been carried up to LOAD_TN, and is the one last carried from there on (R78, R115). -/
def State.abortOver (e : Nat) (s : State) : State :=
  match (s.eng e).load.ann with
  | some a => if a.made && a.why == .abort && decide (a.loadTn ≤ s.tn) then
      s.modLoad e (fun l => { l with ann := none, curSeq := a.seq, curTn := a.loadTn }) else s
  | none => s

/-! ### Acceptance (R92, R360) -/

/-- The carried TN of a header. -/
def headerTn (h : List Octet) : Nat := at_ h 4 8
/-- Outcomes of Table 2.10. -/
inductive Verdict where
  | uncorrected | header | format | authMode | authIndex | authEmpty | authTag
  /-- Accepted, with the plaintext after the clear header and, in GCM, the slot it was accepted under. -/
  | accepted (plain : List Octet) (slot : Option Nat)
  deriving DecidableEq, Repr
/-- The receive key slot a frame is checked under, and whether its KEY_INDEX is the expected one (R358); a looped frame is checked
under the transmit slot (R492). -/
def Engine.rxIndexOk (g : Engine) (idx tn : Nat) : Bool :=
  g.looped || (match g.key.rxSwitch with
    | some (i, x) => if x ≤ tn then idx == i else g.key.expect.all (fun j => j == idx)
    | none => g.key.expect.all (fun j => j == idx))
/-- The checks of Table 2.10 in order, at local TN `tn`: a slot whose EXPIRY_TN has come is EMPTY (R356). -/
def Engine.judge (g : Engine) (tn : Nat) (f : RxFrame) : Verdict :=
  let h := f.header
  let plain := f.overhead ++ f.jc.map (BitVec.ofNat 8) ++ f.slots.flatten
  let mode := (h.getD 2 0).toNat / 64
  let idx := (h.getD 2 0).toNat / 32 % 2
  if f.badWords ≠ 0 then .uncorrected
  else if h.length ≠ 16 ∨ crc16 (h.take 14) ≠ at_ h 14 2 then .header
  else if h.getD 0 0 ≠ 0xB1 ∨ (h.getD 1 0).toNat ≠ g.rxCap * 16 + g.rxLayout then .format
  else if mode ≠ (if g.key.none then 2 else 0) then .authMode
  else if g.key.none then .accepted plain none
  else if !g.rxIndexOk idx (headerTn h) then .authIndex
  else match g.liveKey (if g.looped then idx else 2 + idx) tn with
    | none => .authEmpty
    | some k =>
      match gcmOpen k.key (gcmIv (if g.looped then g.key.linkSide else !g.key.linkSide) ((h.getD 3 0).toNat % 64) (at_ h 12 2)
          (headerTn h)) h plain f.tag with
      | none => .authTag
      | some p => .accepted p (if g.looped then none else some idx)

/-! ### What an accepted frame brings -/

/-- Time overhead, the echo of this frame, and the raw offset (R74 to R76, R193, R321, R323). DESIGN CHOICE (log entry 22): a frame whose
sync was evaluated in CONFIRM has no arrival stamp; it is not echoed and gives no raw offset. -/
def State.takeTime (e tn : Nat) (oh : List Octet) (arrival : Option Int) (jump : Bool) (s : State) : State :=
  let fl := at_ oh 32 2
  let tx := ofStamp96 (at_ oh 0 12)
  let s := s.farCheck e tn tx jump
  let s := match arrival with
    | some t => if bit fl 15 && bit fl 14 then s.rawOffset e (at_ oh 12 8) (ofStamp96 (at_ oh 20 12)) tx t else s
    | none => s
  State.refreshTrace (s.modRx e (fun r => { r with
    txTime := tx, txTimeValid := bit fl 15, farEcho := bit fl 14, traceable := bit fl 13, tnProvisional := bit fl 12
    clockClass := at_ oh 34 1, clockAccuracy := at_ oh 35 1, offsetVariance := at_ oh 36 2, stepsRemoved := at_ oh 38 2
    echoTn := if arrival.isSome then tn else r.echoTn, echoArrival := arrival.getD r.echoArrival
    echoValid := r.echoValid || arrival.isSome }))
/-- The far end's answer to this end's announcement (R115): ACCEPTED before the deadline commits it, a REFUSED status aborts it. -/
def State.takeAck (e seq st : Nat) (s : State) : State :=
  match (s.eng e).load.ann with
  | some a =>
    if a.seq ≠ seq ∨ a.why == .abort ∨ a.made = false then s
    else if st = 1 then
      if s.tn < a.deadline then
        s.modEng e (fun g => { g with load := { g.load with ann := some { a with accepted := true } }
                                      cap := if g.annOfChange a then g.cap.map (fun c => { c with accepted := true }) else g.cap })
      else s
    else if 2 ≤ st ∧ st ≤ 4 then s.abortAnn e .refused
    else s
  | none => s
/-- The far end's announcement (R114): counted while identical, evaluated at the third frame; LOAD_COMMIT of the armed one (R116). -/
def State.takeAnnounce (e tn : Nat) (oh : List Octet) (s : State) : State :=
  let b := at_ oh 48 1
  let a : SeenAnn := { seq := at_ oh 49 1, k := b % 16, loadTn := at_ oh 50 8
                       vec := ((oh.drop 58).take 8).map BitVec.toNat, count := 1 }
  if !bit b 7 then s.modLoad e (fun l => { l with seen := none })
  else
    let s := s.modLoad e (fun l => { l with
      seen := match l.seen with
        | some p => if p.seq = a.seq ∧ p.k = a.k ∧ p.loadTn = a.loadTn ∧ p.vec = a.vec then some { p with count := min 4 (p.count + 1) }
          else some a
        | none => some a
      armed := l.armed.map (fun x => if x.seq = a.seq ∧ bit b 6 then { x with commitSeen := true } else x) })
    match (s.eng e).load.seen with
    | some p =>
      if p.count = 3 then
        let st := evalAnn (s.eng e) tn p
        let s := s.modLoad e (fun l => { l with ackSeq := p.seq, ackStatus := st })
        if st = 1 then
          (s.modLoad e (fun l => { l with armed := some { seq := p.seq, k := p.k, loadTn := p.loadTn, vec := p.vec
                                                          commitSeen := bit b 6 } })).raise .loadRxArmed .engine e []
        else s
      else s
    | none => s
/-- The run of equal TTI sets is broken (R375). -/
def DefectState.noTtiRun (d : DefectState) : DefectState := { d with ttiLast := none, ttiRun := 0 }
/-- The TTI segment of a frame, and as a set becomes whole the run of equal sets (R81, R375). The frame's carried TN names its set: the
run breaks where the set before stays incomplete, or where sets are missing between. -/
def State.takeTti (e tn : Nat) (seg : List Octet) (s : State) : State :=
  let m := tn % 4
  let r := (s.eng e).rx
  let same := r.ttiSet == some (tn / 4)
  let follows := r.ttiSegs.all Option.isSome && r.ttiSet.any (fun t => t + 1 == tn / 4)
  let old := if same then r.ttiSegs else List.replicate 4 none
  let new := old.set m (some seg)
  let s := s.modEng e (fun g => { g with
    rx := { g.rx with ttiSegs := new, ttiSet := some (tn / 4) }
    defect := { (if same || follows then g.defect else g.defect.noTtiRun) with
      ttiLatest := g.defect.ttiLatest.take (16 * m) ++ seg ++ g.defect.ttiLatest.drop (16 * m + 16) } })
  if new.all Option.isSome && !old.all Option.isSome then
    let t := (new.filterMap id).flatten
    s.modDefect e (fun d =>
      let run := if d.ttiLast == some t then d.ttiRun + 1 else 1
      { d with ttiLast := some t, ttiRun := run, ttiAccepted := if 3 ≤ run then some t else d.ttiAccepted })
  else s
/-- A discarded frame breaks the TTI set it belongs to. -/
def State.breakTti (e : Nat) (s : State) : State :=
  s.modEng e (fun g => { g with rx := { g.rx with ttiSegs := List.replicate 4 none }
                                defect := g.defect.noTtiRun })
/-- The defect block, with the run of each received bit, and the far end's error counts (R379). -/
def State.takeDefect (e : Nat) (oh : List Octet) (s : State) : State :=
  let a := at_ oh 112 1
  let b := at_ oh 113 1
  let bits := [bit a 7, bit a 6, bit b 7, bit b 6, bit b 5, bit b 4]
  let bei := at_ oh 120 8
  let fresh := (s.eng e).rx.farBeiTn != some bei
  let s := if fresh then (s.count .farUncorrCw .engine e (at_ oh 114 2)).count .farCorrBits .engine e (at_ oh 116 4) else s
  s.modEng e (fun g => { g with
    rx := { g.rx with rxLck := bit a 7, rxTest := bit a 6, bdi := bit b 7, bauth := bit b 6, bsd := bit b 5, bpack := bit b 4
                      farBeiTn := some bei }
    defect := { g.defect with bitSet := List.zipWith (fun n (x : Bool) => if x then n + 1 else 0) g.defect.bitSet bits
                              bitClear := List.zipWith (fun n (x : Bool) => if x then 0 else n + 1) g.defect.bitClear bits } })
/-- The SNR report, the service octets (R86), the Pack block and the operator area (R79, R84, R87). -/
def State.takeRest (e : Nat) (oh : List Octet) (s : State) : State :=
  let snr := (List.range 8).map (fun i => sx 16 (at_ oh (68 + 2 * i) 2))
  let len := at_ oh 136 1 % 32
  let svc := (oh.drop 137).take len
  let room := 65536 - (s.eng e).rx.svcRx.length
  let s := s.count .svcRxOverflow .engine e (svc.length - room)
  s.modEng e (fun g =>
    let act := (List.range 8).filter (scActive g.txLayout)
    { g with rx := { g.rx with snrReport := snr, packOctets := (oh.drop 128).take 8, opArea := some ((oh.drop 168).take 64)
                               svcRx := g.rx.svcRx ++ svc.take room }
             load := { g.load with snrSum := List.zipWith (· + ·) g.load.snrSum snr, snrCount := g.load.snrCount + 1
                                   snrBad := g.load.snrBad || act.any (fun i => snr.getD i 0 == -32768) } })
/-- The grains of a frame's slots. -/
def slotGrains (jc : List Nat) (octets : List (List Octet)) : List Grain :=
  List.zipWith (fun j o => { jc := j, octets := o }) jc octets
/-- The slots a frame gives the fabric, to the engine's store or the deskew pool of its Pack (R93, R247, R255). -/
def State.toFabric (e : Nat) (slots : Option (List Grain)) (carried : Nat) (s : State) : State :=
  match s.packOf e with
  | none => s.storeFrame .engine e slots carried
  | some p =>
    let k := s.pack p
    let pos := (k.members.idxOf? e).getD 0
    let o := fun (i : Nat) => ((s.eng e).rx.packOctets.getD i 0).toNat
    s.packArrive p { position := pos, arrived := s.ticks, gen := o 3, slots := slots
                     ok := o 0 / 128 == 1 && o 0 % 32 == p && o 1 / 32 == pos && o 2 == 2 ^ k.members.length - 1 } carried
/-- Test slots of a frame that carries TEST, counted for the MASTER selector of R463 as data (JC 0x00) or poisoned (R493). -/
def testGrains (octets : List (List Octet)) : List Grain :=
  List.zipWith (fun o p => if o = p then ({ jc := 0, octets := o } : Grain) else markGrain 0xFD) octets (testPattern octets.length)
/-- The pending receive switch has its first accepted frame at or after X, whether or not that was encrypted; looped frames neither use nor
change it (R358). -/
def State.takeKey (e : Nat) (slot : Option Nat) (tn : Nat) (s : State) : State :=
  if (s.eng e).looped then s
  else
    let s := match slot with
      | some i => s.modKey e (fun k => { k with used := vmod k.used i (fun _ => some s.ticks) })
      | none => s
    match (s.keys e).rxSwitch with
    | some (j, x) => if x ≤ tn then
        (s.modKey e (fun k => { k with rxSwitch := Option.none, expect := some j })).raise .keySwitched .engine e
          (w1 1 ++ w1 j ++ w2 tn)
      else s
    | none => s
/-- A decoded frame in the run of DECODE_FAIL (Table 6.9): four uncorrected ones in a row, until a frame is accepted. -/
def Equaliser.decoded (bad accepted : Bool) (q : Equaliser) : Equaliser :=
  { q with decodeFails := if accepted then 0 else if bad then min 4 (q.decodeFails + 1) else if q.decodeFails < 4 then 0 else 4 }
/-- A frame is accepted under a candidate vector (R117): it is kept. -/
def State.keepCandidate (e : Nat) (s : State) : State :=
  let g := s.eng e
  if g.load.trial = 0 then s
  else
    let v := (candidates g).getD g.load.trial g.load.vecRx
    let k := g.rxCap
    let s := s.modEng e (fun g => { g with
      kRx := k, load := { g.load with
      vecRx := v, armed := g.load.armed.filter (fun a => a.vec != v), trial := 0 } })
    if g.cap.any (fun c => c.kNew == k) then
      (s.modEng e (fun g => { g with cap := g.cap.map (fun c => { c with rxDone := true }) })).capacityCheck e
    else s
/-- The effects of an accepted frame, with its arrival stamp. -/
def State.acceptFrame (e : Nat) (f : RxFrame) (arrival : Option Int) (plain : List Octet) (slot : Option Nat) (s : State) : State :=
  let tn := headerTn f.header
  let g := s.eng e
  let n := grains g.rxCap
  let oh := plain.take 480
  let jc := ((plain.drop 480).take n).map BitVec.toNat
  let body := plain.drop (480 + n)
  let oct := (List.range n).map (fun i => (body.drop (128 * i)).take 128)
  let want := g.rx.lastTn.map (fun t => t + g.rx.framesSince + 1)
  let jump := want.any (fun w => w != tn)
  let s := s.keepCandidate e
  let s := if jump then s.raise .tnJump .engine e (w2 (want.getD 0) ++ w2 tn) else s
  let s := s.modEng e (fun g => { g with
    rx := { g.rx with lastTn := some tn, framesSince := 0, heard := g.rx.heard || g.inFrame }, load := { g.load with failRun := 0 }, eq := g.eq.decoded false true
    defect := { g.defect with fmtFail := 0, fmtPass := g.defect.fmtPass + 1, authFail := 0, authPass := g.defect.authPass + 1
                              srcFail := if g.defect.cfg.expectedSrc = 0xFF ∨ (f.header.getD 3 0).toNat % 64 = g.defect.cfg.expectedSrc then 0
                                else g.defect.srcFail + 1
                              srcPass := if (f.header.getD 3 0).toNat % 64 = g.defect.cfg.expectedSrc then g.defect.srcPass + 1 else 0 } })
  let s := s.takeKey e slot tn
  let s := s.takeTime e tn oh arrival jump
  let s := (s.takeAck e (at_ oh 66 1) (at_ oh 67 1)).takeAnnounce e tn oh
  let s := s.takeTti e tn ((oh.drop 96).take 16)
  let s := (s.takeDefect e oh).takeRest e oh
  let gs := slotGrains jc oct
  let s := if (s.eng e).rx.rxTest then s.countGrains true .engine e (testGrains oct) else s
  s.toFabric e (some gs) tn
/-- The effects of a discarded frame (R93): every slot reaches the fabric poisoned, and its service octets, 0 to 31 of them, are
lost and counted; how many is a free value, for the field that says it cannot be read. -/
def State.discardFrame (e carried : Nat) (s : State) : State :=
  let s := s.modRx e (fun r => { r with framesSince := r.framesSince + 1 })
  let lost := s.fresh
  let s := (lost.2.breakTti e).count .svcLostOctets .engine e (lost.1 % 32)
  let s := if (s.eng e).rx.rxTest then s.countGrains true .engine e (List.replicate (grains (s.eng e).kRx) (markGrain 0xFD)) else s
  s.toFabric e none carried
/-- The expected carried TN of the next frame (R94). -/
def Received.expected (r : Received) : Option Nat := r.lastTn.map (fun t => t + r.framesSince + 1)
/-- Before frame LOAD_TN is decoded: a committed armed vector takes over, an uncommitted one is dropped (R116). -/
def State.armedSwitch (e : Nat) (s : State) : State :=
  match (s.eng e).load.armed, (s.eng e).rx.expected with
  | some a, some t =>
    if t < a.loadTn then s
    else if a.commitSeen then s.loadRxSwitch e a
    else (s.modLoad e (fun l => { l with armed := none, dropped := some a.vec })).raise .loadAborted .engine e (w1 AbortCause.noCommit.code)
  | _, _ => s
/-- An uncorrected frame (R117): after four in a row the next candidate is tried. -/
def State.trialStep (e : Nat) (s : State) : State :=
  let g := s.eng e
  let n := (candidates g).length
  if 3 ≤ g.load.failRun ∧ 1 < n then
    (s.modLoad e (fun l => { l with failRun := 0, trial := (l.trial + 1) % n })).raise .loadTrial .engine e []
  else s.modLoad e (fun l => { l with failRun := l.failRun + 1 })
/-- Step 1's outcome of a decoded frame (Table 13.2, UCF). -/
def DefectState.decoded (d : DefectState) (fails : Bool) : DefectState :=
  { d with ucfWindow := (fails :: d.ucfWindow).take 64, ucfPass := if fails then 0 else d.ucfPass + 1 }
/-- UNCORR_FRAME advances while the receiver is IN_FRAME: the running tenth of an hour counts (R500). -/
def State.ucfMark (e : Nat) (s : State) : State :=
  if (s.eng e).inFrame then s.modKennel (fun k => { k with ucfSeen := vmod k.ucfSeen e (fun _ => true) }) else s
/-- A frame in the 400ZR profile (R122, R386): the agreement's FEC alone decides. -/
def State.zrFrame (e : Nat) (f : RxFrame) (s : State) : State :=
  let s := s.modEq e (Equaliser.decoded (f.badWords != 0) (f.badWords == 0))
  if f.badWords = 0 then s.storeFrame .engine e (some (slotGrains f.jc f.slots)) s.tn
  else ((s.count .uncorrFrame .engine e 1).ucfMark e).storeFrame .engine e none s.tn
/-- A frame's symbols under the agreement's FEC (R122), which the manual does not give: a frame without noise is received as sent; what
the FEC makes of noise, words left uncorrected and bits corrected, is free. -/
def State.zrDecode (f : RxSignal) (s : State) : State × RxFrame :=
  if f.noise = [] then (s, RxSignal.clean f)
  else
    let a := s.fresh
    let b := a.2.fresh
    (b.2, { (RxSignal.clean f) with badWords := a.1, errBits := b.1, preFecBer := b.1 })
/-- The oldest arrival stamp of a frame not yet decoded (R193) leaves the list with its frame. -/
def Received.stamp (r : Received) : Option Int := (r.stamps.head?.getD none).map (·.2)
/-- A decoded far-end frame is checked in the order of Table 2.10 and accepted or discarded (R92 to R95). One that fails step 1 or 2 neither
fails nor passes step 3, and breaks both runs of FMT-MM (R372). -/
def State.receiveFrame (e : Nat) (f : RxFrame) (s : State) : State :=
  let arrival := (s.eng e).rx.stamp
  let s := (s.count .fecCorrBits .engine e f.errBits).modEng e (fun g => { g with
    rx := { g.rx with stamps := g.rx.stamps.drop 1 }
    eq := { g.eq with est := { g.eq.est with preFecBer := min (2 ^ 31) f.preFecBer } }, defect := g.defect.decoded (f.badWords != 0) })
  if (s.eng e).zr then s.zrFrame e f
  else
    let v := (s.eng e).judge s.tn f
    let named := match v with | .uncorrected | .header => ((s.eng e).rx.expected).getD (headerTn f.header) | _ => headerTn f.header
    let s := s.modRx e (fun r => { r with
      beiCw := min f.badWords 0xFFFF, beiBits := min f.errBits 0xFFFFFFFF, beiTn := named })
    let drop := fun (c : Ctr) (s : State) => ((s.count c .engine e 1).discardFrame e named).modEng e (fun g => { g with
      eq := g.eq.decoded (f.badWords != 0) false, load := { g.load with failRun := if f.badWords = 0 then 0 else g.load.failRun } })
    let auth := fun (c : Ctr) (s : State) => (drop .authErr (s.count c .engine e 1)).modDefect e (fun d => { d with
      fmtFail := 0, fmtPass := d.fmtPass + 1, authFail := d.authFail + 1, authPass := 0 })
    let early := fun (c : Ctr) (s : State) => (drop c s).modDefect e (fun d => { d with fmtFail := 0, fmtPass := 0 })
    match v with
    | .uncorrected => (early .uncorrFrame (s.ucfMark e)).trialStep e
    | .header => early .hdrErr s
    | .format => (drop .fmtMismatch s).modDefect e (fun d => { d with fmtFail := d.fmtFail + 1, fmtPass := 0 })
    | .authMode => auth .authErrMode s
    | .authIndex => auth .authErrIndex s
    | .authEmpty => auth .authErrEmpty s
    | .authTag => auth .authErrTag s
    | .accepted p i => s.acceptFrame e f arrival p i
/-- What the receiver makes of a frame's symbols, after any free value it needs. -/
def State.decodeSignal (e : Nat) (f : RxSignal) (s : State) : State × RxFrame :=
  if (s.eng e).zr then s.zrDecode f else (s, (s.eng e).decodeFrame f)
/-- A frame that starts to be decoded: before frame LOAD_TN the armed vector takes over or is dropped (R116). -/
def State.beforeDecode (e : Nat) (s : State) : State := if (s.eng e).zr then s else s.armedSwitch e
/-- A sent frame as it comes back in a loopback: the octets of its body, with the noise of the path. -/
def SentFrame.signal (f : SentFrame) (noise : List SymNoise) : RxSignal :=
  if f.header.length = 0 then
    { vec := [], header := [], overhead := [], jc := f.jc, slots := f.slots, tag := [], noise := noise }
  else
    let r := f.body.drop 16
    let n := f.overhead.length
    let m := f.slots.length
    { vec := f.vec, header := f.header, overhead := r.take n, jc := ((r.drop n).take m).map BitVec.toNat
      slots := (List.range m).map (fun i => (r.drop (n + m + 128 * i)).take 128), tag := (r.drop (n + 129 * m)).take 16, noise := noise }
/-- The signal a receiver hears: what reaches it from the connector, or in a loopback, which ignores that, the engine's own frame of the
tick before with the noise of the path (R492; log entry 35). -/
def Engine.heard (g : Engine) (f : RxSignal) : RxSignal :=
  if g.looped then (match g.tx.looped with | some x => x.signal f.noise | none => f) else f
/-- A capture of SYMBOLS of the engine is filling (R467). -/
def State.takesSymbols (s : State) (e : Nat) : Bool :=
  let c := (s.tile (tileOf e)).capture
  c.state == .filling && c.source == 5 && c.engine (tileOf e) == e
/-- One code as a signed octet. -/
def codeOctet (z : Int) : Octet := BitVec.ofInt 8 (clampI (-128) 127 z)
/-- The symbols of a subcarrier's streams of X and Y as SYMBOLS captures them: X I, X Q, Y I, Y Q of each symbol, scaled so that the RMS of
the payload's axes is 32 (Table 17.5). -/
def symbolOctets (x y : List (Int × Int)) : List Octet :=
  let pay := (x.zip y).zipIdx.filter (fun p => decide (64 ≤ p.2) && (p.2 - 64) % 32 != 0)
  let sq := fun (a : Int × Int) => a.1.natAbs * a.1.natAbs + a.2.natAbs * a.2.natAbs
  let power := pay.foldl (fun n p => n + sq p.1.1 + sq p.1.2) 0
  let scale := if power = 0 then 0 else Nat.sqrt (4 * pay.length * 2 ^ 80 / power)
  let o := fun (z : Int) => codeOctet (roundDiv (32 * z * (scale : Int)) (2 ^ 40))
  (x.zip y).flatMap (fun p => [o p.1.1, o p.1.2, o p.2.1, o p.2.2])
/-- A frame's symbols enter a capture that takes them (R467). -/
def State.captureSymbols (e layout : Nat) (f : RxSignal) (s : State) : State :=
  if s.takesSymbols e then
    let c := (s.tile (tileOf e)).capture
    let sc := field c.sub 0 4
    let rx := RxSignal.received f (symbolFrame layout f.vec (codedFrame (scramble (RxSignal.body f))))
    let stream := fun (q : Nat) => ((rx.find? (fun x => x.1 == q)).map (·.2)).getD []
    let o := symbolOctets (stream (2 * sc)) (stream (2 * sc + 1))
    s.modTile (tileOf e) (fun t => { t with
      capture := { t.capture with taken := t.capture.taken ++ [((s.ticks - c.begun) * (4 * symbolsPerTick layout), o)] } })
  else s
/-- RX_FRAME_DECODE: in IN_FRAME or OOF a far-end frame is demapped, decoded, descrambled, checked in the order of Table 2.10 and accepted
or discarded (R68, R92 to R95, R99, R100, R108). -/
def execRxFrameDecode (e : Fin 48) (f : RxSignal) (s : State) : Res :=
  let g := s.eng e
  if g.kRx ≠ 0 ∧ (g.acq.state = .inFrame ∨ g.acq.state = .oof) then
    let x := g.heard f
    let r := (s.beforeDecode e).decodeSignal e x
    .next ((r.1.receiveFrame e r.2).captureSymbols e g.rxLayout x)
  else .next s

/-! ### Commands -/

/-- ENGINE_TTI_SET (R81): words 1 to 16 the transmitted TTI, then the expected SAPI and DAPI; the TTI is sent from the next frame
whose TN mod 4 is 0. -/
def specEngineTtiSet : OpSpec :=
  { code := 0x11C, len := lenIs 25, target := tgtEngine, fence := fenceEngine, refuse := modeZr
    eff := .now (fun c s =>
      let o := unpackWords (c.words.drop 1)
      (s.modEng (cIdx c) (fun g => { g with tx := { g.tx with ttiNext := some (o.take 64) }
                                            defect := { g.defect with sapi := (o.drop 64).take 16, dapi := (o.drop 80).take 16 } }), []))
    read := readEng (fun g => packOctets (g.tx.tti ++ g.defect.sapi ++ g.defect.dapi)) }
/-- ENGINE_TTI_SET: sets the transmitted TTI, the expected SAPI and DAPI. -/
def execEngineTtiSet (c : Cmd) (s : State) : Res := runOp specEngineTtiSet c s
/-- ENGINE_TTI_READ (R375). -/
def specEngineTtiRead : OpSpec :=
  { code := 0x11D, len := lenIs 1, target := tgtEngine, refuse := modeZr
    eff := .now (fun c s =>
      let d := (s.eng (cIdx c)).defect
      (s, w1 (b2n d.ttiAccepted.isSome) ++ packOctets (d.ttiAccepted.getD (List.replicate 64 0)) ++ packOctets d.ttiLatest)) }
/-- ENGINE_TTI_READ: returns the accepted and latest assembled TTI. -/
def execEngineTtiRead (c : Cmd) (s : State) : Res := runOp specEngineTtiRead c s
/-- ENGINE_LOCK (R378): ENGINE_UNLOCK changes the same setting. -/
def specEngineLock : OpSpec :=
  { code := 0x11F, align := .yes, len := lenIs 1, target := tgtEngine, fence := fenceEngine, refuse := modeZr
    eff := .boundary 0x11F (fun c s => s.modTx (cIdx c) (fun t => { t with lck := true })) }
/-- ENGINE_LOCK: the engine sends LCK with idle fill. -/
def execEngineLock (c : Cmd) (s : State) : Res := runOp specEngineLock c s
/-- ENGINE_UNLOCK (R378). -/
def specEngineUnlock : OpSpec :=
  { code := 0x120, align := .yes, len := lenIs 1, target := tgtEngine, fence := fenceEngine, refuse := modeZr
    eff := .boundary 0x11F (fun c s => s.modTx (cIdx c) (fun t => { t with lck := false })) }
/-- ENGINE_UNLOCK: ends LCK. -/
def execEngineUnlock (c : Cmd) (s : State) : Res := runOp specEngineUnlock c s
/-- Free octets of an engine's service-channel transmit queue (R86). -/
def svcFree (s : State) (e : Nat) : Nat := 16384 - (s.eng e).tx.svcTx.length
/-- ENGINE_SVC_WRITE (R86, R552). -/
def specEngineSvcWrite : OpSpec :=
  { code := 0x121, target := tgtEngine, fence := fenceEngine
    len := fun c => if c.words.length < 2 then .error (.parameterLength, 2)
      else if cw c 1 = 0 ∨ 4084 < cw c 1 then .error (.parameterInvalid, 1) else .ok (2 + (cw c 1 + 3) / 4)
    refuse := fun s c => (modeZr s c).orElse (fun _ =>
      if svcFree s (cIdx c) < cw c 1 then some (.queueFull, svcFree s (cIdx c)) else none)
    eff := .now (fun c s => (s.modTx (cIdx c) (fun t => { t with
      svcTx := t.svcTx ++ (unpackWords (c.words.drop 2)).take (cw c 1) }), [])) }
/-- ENGINE_SVC_WRITE: appends octets to the service-channel transmit queue. -/
def execEngineSvcWrite (c : Cmd) (s : State) : Res := runOp specEngineSvcWrite c s
/-- ENGINE_SVC_READ (R86). -/
def specEngineSvcRead : OpSpec :=
  { code := 0x122, len := lenIs 2, target := tgtEngine, ranges := [rngU 1 1 4088], refuse := modeZr
    eff := .now (fun c s =>
      let d := (s.eng (cIdx c)).rx.svcRx.take (cw c 1)
      (s.modRx (cIdx c) (fun r => { r with svcRx := r.svcRx.drop (cw c 1) }), w1 d.length ++ packOctets d)) }
/-- ENGINE_SVC_READ: removes octets from the service-channel receive buffer. -/
def execEngineSvcRead (c : Cmd) (s : State) : Res := runOp specEngineSvcRead c s
/-- ENGINE_OPAREA_SET (R87): whole, at the next tick boundary. -/
def specEngineOpareaSet : OpSpec :=
  { code := 0x123, len := lenIs 17, target := tgtEngine, fence := fenceEngine, refuse := modeZr
    eff := .boundary 0x123 (fun c s => s.modTx (cIdx c) (fun t => { t with opArea := unpackWords (c.words.drop 1) }))
    read := readEng (fun g => packOctets g.tx.opArea) }
/-- ENGINE_OPAREA_SET: sets the transmitted operator area. -/
def execEngineOpareaSet (c : Cmd) (s : State) : Res := runOp specEngineOpareaSet c s
/-- ENGINE_OPAREA_READ (R87). -/
def specEngineOpareaRead : OpSpec :=
  { code := 0x124, len := lenIs 1, target := tgtEngine, refuse := modeZr
    eff := .now (fun c s =>
      let o := (s.eng (cIdx c)).rx.opArea
      (s, w1 (b2n o.isSome) ++ packOctets (o.getD (List.replicate 64 0)))) }
/-- ENGINE_OPAREA_READ: returns the operator area of the last accepted frame. -/
def execEngineOpareaRead (c : Cmd) (s : State) : Res := runOp specEngineOpareaRead c s

end Sys2Proof.Machine
end

