-- ==== Sys2Proof/Machine/Defects.lean ====
section
/-! DEFINITION. Defects, trace identifiers and consequent actions (R371 to R389): the conditions of Tables 13.2 and 13.6, signal fail,
masking, reporting, and the egress of client ports.
What it chooses or infers where the manual is silent, with its marks: log entry 32. -/
namespace Sys2Proof.Machine

/-- Whether a defect is present after a tick in which its conditions held (R389). -/
def toggled (present enter exit : Bool) : Bool := if present then !exit else enter

/-! ### Line defects -/

/-- TIM (R376, Table 13.3). -/
def DefectState.tim (d : DefectState) : Bool :=
  match d.ttiAccepted with
  | none => false
  | some t =>
    (decide (d.cfg.timMode = 1 ∨ d.cfg.timMode = 3) && t.take 16 != d.sapi)
      || (decide (d.cfg.timMode = 2 ∨ d.cfg.timMode = 3) && (t.drop 16).take 16 != d.dapi)
/-- Enter and exit of a defect that follows a received bit: `n` consecutive accepted frames. -/
def Engine.bitNow (g : Engine) (i n : Nat) : Bool × Bool :=
  (decide (n ≤ g.defect.bitSet.getD i 0), decide (n ≤ g.defect.bitClear.getD i 0) || g.acq.lof)
/-- Enter and exit conditions of a line defect at the end of a tick (Table 13.2). DEG is judged as an interval ends, by the DEG_M of that
interval. -/
def State.lineNow (s : State) (e : Nat) (d : LineDefect) : Bool × Bool :=
  let g := s.eng e
  match d with
  | .los => (g.losIn, !g.losIn)
  | .oof => (g.acq.state == .oof, g.acq.state != .oof)
  | .lof => (g.acq.lof, !g.acq.lof)
  | .ucf => (decide (g.defect.cfg.ucfSet ≤ (g.defect.ucfWindow.filter id).length), decide (625 ≤ g.defect.ucfPass) || g.acq.lof)
  | .fmtMm => (decide (3 ≤ g.defect.fmtFail), decide (3 ≤ g.defect.fmtPass) || g.acq.lof)
  | .authFail => (decide (3 ≤ g.defect.authFail), decide (16 ≤ g.defect.authPass) || g.acq.lof)
  | .deg =>
    let x := g.defect.deg
    (x.ticks == 0 && decide (x.m ≤ x.above), x.ticks == 0 && decide (x.m ≤ x.below))
  | .tim => (g.defect.tim, !g.defect.tim)
  | .srcMm => (decide (3 ≤ g.defect.srcFail) && g.defect.cfg.expectedSrc != 0xFF,
      decide (3 ≤ g.defect.srcPass) || g.defect.cfg.expectedSrc == 0xFF || g.acq.lof)
  | .rxLck => g.bitNow 0 3
  | .rxTest => g.bitNow 1 3
  | .rxBdi => g.bitNow 2 5
  | .rxBauth => g.bitNow 3 5
  | .rxBsd => g.bitNow 4 5
  | .rxBpack => g.bitNow 5 5
  | .asymInvalid => ((s.route e).asymState == .invalid, (s.route e).asymState != .invalid)
/-- Whether a defect can be present in the engine's profile (R386). -/
def lineApplies (d : LineDefect) (zr : Bool) : Bool :=
  !zr || ([LineDefect.los, .oof, .lof, .ucf, .deg] : List LineDefect).contains d
/-- The RX- defects of Table 13.2. -/
def rxDefects : List LineDefect := [.rxLck, .rxTest, .rxBdi, .rxBauth, .rxBsd, .rxBpack]
/-- What a present line defect masks (Table 13.9). -/
def lineMasks : LineDefect → List LineDefect
  | .los => ([.oof, .lof, .ucf, .fmtMm, .authFail, .deg, .tim, .srcMm] : List LineDefect) ++ rxDefects
  | .lof => ([.oof, .ucf, .fmtMm, .authFail, .deg, .tim, .srcMm] : List LineDefect) ++ rxDefects
  | .ucf => ([.deg, .tim, .srcMm] : List LineDefect) ++ rxDefects
  | .fmtMm => ([.authFail, .tim, .srcMm] : List LineDefect) ++ rxDefects
  | .authFail => ([.tim, .srcMm] : List LineDefect) ++ rxDefects
  | _ => []
/-- What a present client defect masks. -/
def clientMasks : ClientDefect → List ClientDefect
  | .cDown => [.cLos, .cLoa, .cDeg, .cLf, .cRf]
  | .cLos => [.cLoa, .cDeg, .cLf, .cRf]
  | .cLoa => [.cDeg, .cLf, .cRf]
  | _ => []
/-- The reported line defects (R387). -/
def reportedLine (present : List LineDefect) : List LineDefect :=
  present.filter (fun d => !present.any (fun m => (lineMasks m).contains d))
/-- The reported client defects. -/
def reportedClient (present : List ClientDefect) : List ClientDefect :=
  present.filter (fun d => !present.any (fun m => (clientMasks m).contains d))
/-- A tick in which a defect is present (R388, R457). -/
def State.defectTick (k : Kind) (idx ord : Nat) (s : State) : State := s.happen (ctrSlot k idx 0 (0x2000 + ord)) 1
/-- Line signal fail (R374, R386). -/
def DefectState.signalFail (d : DefectState) (zr : Bool) : Bool :=
  d.present.any (fun x => x == .los || x == .lof || x == .ucf || (!zr && (x == .fmtMm || x == .authFail)))
    || (!zr && d.present.contains .tim && d.cfg.timAct)
/-- The DEG interval of tick `tn` with the parameters in effect (Table 13.1, R389): DEG_SET, DEG_CLR and DEG_M from an interval's first tick
on; a new DEG_INTERVAL from the next TN that is a multiple of it, where an interval in progress is void and breaks the run. -/
def DefectState.degNow (d : DefectState) (tn : Nat) : DegTrack :=
  let x := d.deg
  let first := { x with set := d.cfg.degSet, clr := d.cfg.degClr, m := d.cfg.degM }
  if d.cfg.degInterval ≠ x.interval ∧ tn % d.cfg.degInterval = 0 then
    { first with sum := 0, ticks := 0, whole := true, interval := d.cfg.degInterval
                 above := if x.ticks = 0 then x.above else 0, below := if x.ticks = 0 then x.below else 0 }
  else if x.ticks = 0 then first
  else x
/-- The DEG interval at the end of tick `tn` (R373). -/
def DefectState.degStep (d : DefectState) (valid : Bool) (ber tn : Nat) : DefectState :=
  let x := d.degNow tn
  let sum := x.sum + ber
  let ticks := x.ticks + 1
  if (tn + 1) % x.interval = 0 then
    let counts := x.whole && valid && ticks == x.interval
    { d with deg := { x with sum := 0, ticks := 0, whole := true
                             above := if counts && decide (x.set * ticks < sum) then x.above + 1 else 0
                             below := if counts && decide (sum < x.clr * ticks) then x.below + 1 else 0 } }
  else { d with deg := { x with sum := sum, ticks := ticks, whole := x.whole && valid } }
/-- LOF ends every run that counts decoded or accepted frames. -/
def DefectState.atLof (d : DefectState) : DefectState :=
  { d with ucfWindow := [], ucfPass := 0, fmtFail := 0, fmtPass := 0, authFail := 0, authPass := 0, srcFail := 0, srcPass := 0
           bitSet := List.replicate 6 0, bitClear := List.replicate 6 0 }
/-- The kind and index of what carries a port in the active bank. -/
def State.carrierOf (s : State) (n : Nat) : Option (Kind × Nat) :=
  s.cal.active.findSome? (fun x =>
    let d := calDecode x.2
    if d.ty ≠ 0 ∧ d.port = n then some (if d.ty = 2 then .pack else .engine, d.engine) else none)
/-- The engines a carrier consists of. -/
def State.carrierEngines (s : State) (c : Kind × Nat) : List Nat := if c.1 = .pack then (s.pack c.2).members else [c.2]
/-- Egress sends local fault (Table 13.8, R491, R495). -/
def State.localFault (s : State) (n : Nat) (p : Port) : Bool :=
  p.present.contains .cCsf || p.present.contains .cNomap || (match s.carrierOf n with
    | none => false
    | some c =>
      (if c.1 = .pack then (s.pack c.2).psfFault else (s.eng c.2).defect.sfFault)
        || (s.carrierEngines c).any (fun e => (s.eng e).defect.present.contains .rxLck || (s.eng e).iso.isSome || s.fenced e))
/-- Signal fail of a store's owner exits (R384): the stores of its clients are flushed, nothing is poisoned, and local fault stops in
that tick. -/
def State.resumeClients (k : Kind) (i : Nat) (s : State) : State :=
  (s.carried k i).foldl (fun s n =>
    let s := s.flushClient n
    let stops := match s.port? n with | some p => p.data.fault && !s.localFault n p | none => false
    s.modData n (fun d => { d with egress := [], fault := d.fault && !stops, out := if stops then [some Config.idleBlock] else d.out })) s
/-- Signal fail of an engine enters or exits (R383, R384): its hold-off is that of its entry; at its exit the stores of its clients
are flushed. -/
def State.sfStep (e : Nat) (s : State) : State :=
  let g := s.eng e
  match g.defect.signalFail g.zr, g.defect.sf with
  | true, none => s.modDefect e (fun d => { d with sf := some (s.ticks, d.cfg.sfHoldoff), sfFault := d.cfg.sfHoldoff == 0 })
  | false, some _ =>
    let s := s.modDefect e (fun d => { d with sf := none, sfFault := false })
    s.resumeClients .engine e
  | _, _ => s
/-- Evaluation of an engine's defects at the end of a tick (R371): none is present while the receiver is DISABLED. -/
def State.lineStep (e : Nat) (s : State) : State :=
  let g := s.eng e
  let s := s.modDefect e (fun d => d.degStep g.inFrame g.eq.est.preFecBer s.tn)
  let old := (s.eng e).defect.present
  let off := g.acq.state == .disabled || s.fenced e
  let new := if off then [] else lineDefects.filter (fun d => lineApplies d g.zr &&
    (let x := s.lineNow e d; toggled (old.contains d) x.1 x.2))
  let s := new.foldl (fun s d => if old.contains d then s else s.captureNotice 2 (lineOrd d) e) s
  let s := new.foldl (fun s d => s.defectTick .engine e (lineOrd d)) s
  let rep := reportedLine new
  let s := s.modDefect e (fun d =>
    let d := { d with present := new, reported := rep }
    if g.acq.lof || off then d.atLof else d)
  s.sfStep e

/-! ### Pack defects (R380) -/

/-- Evaluation of a Pack at the end of a tick: PSF, and what is reported of PACK-SKEW and PACK-MISMATCH. -/
def State.packStep (p : Nat) (s : State) : State :=
  let k := s.pack p
  if k.members.isEmpty then s
  else
    let present : List PackDefect := (if k.skewPresent then [.packSkew] else []) ++ (if k.mismatchPresent then [.packMismatch] else [])
    let s := present.foldl (fun s d => s.defectTick .pack p (packOrd d)) s
    let rep := if k.members.any (fun e => (s.eng e).defect.sf.isSome) then [] else present
    let s := s.modPack p (fun x => { x with reported := rep })
    match packPsf s p, k.psf with
      | true, none =>
        let h := (s.eng (k.members.headD 0)).defect.cfg.sfHoldoff
        s.modPack p (fun x => { x with psf := some (s.ticks, h), psfFault := h == 0 })
      | false, some _ =>
        let s := s.modPack p (fun x => { x with psf := none, psfFault := false })
        s.resumeClients .pack p
      | _, _ => s
/-- SF_HOLDOFF_EXPIRY: SF of an engine, or PSF of a Pack, has been present for its hold-off: local fault (R383). -/
def execSfHoldoffExpiry (pack : Bool) (i : Fin 48) (s : State) : Res :=
  if pack then
    match (s.pack i).psf with
    | some (t, h) => .next (if t + h ≤ s.ticks then s.modPack i (fun k => { k with psfFault := true }) else s)
    | none => .next s
  else
    match (s.eng i).defect.sf with
    | some (t, h) => .next (if t + h ≤ s.ticks then s.modDefect i (fun d => { d with sfFault := true }) else s)
    | none => .next s

/-! ### Client defects (R381) -/

/-- Run `i` of a port. -/
def Port.run (p : Port) (i : Nat) : Nat := cellGet p.runs i 0
/-- The port with run `i` set. -/
def Port.setRun (i n : Nat) (p : Port) : Port := { p with runs := cellSet p.runs i n 0 }
/-- Runs of periods with and without ordered sets, and whether each reached four in this tick. -/
def faultScan (on off : Nat) (l : List Bool) : (Nat × Nat) × (Bool × Bool) :=
  l.foldl (fun x b =>
    let n := if b then x.1.1 + 1 else 0
    let m := if b then 0 else x.1.2 + 1
    ((n, m), (x.2.1 || decide (4 ≤ n), x.2.2 || decide (4 ≤ m)))) ((on, off), (false, false))
/-- What the observations of a tick do to a port's runs, and the enter and exit conditions of C-LF and C-RF. -/
def Port.scan (p : Port) (o : ClientObs) : Port × (Bool × Bool) × (Bool × Bool) :=
  let l := faultScan (p.run 8) (p.run 9) o.localFault
  let r := faultScan (p.run 10) (p.run 11) o.remoteFault
  ({ ((((p.setRun 8 l.1.1).setRun 9 l.1.2).setRun 10 r.1.1).setRun 11 r.1.2) with
      fecSymbols := p.fecSymbols + o.fecSymbols, fecErrors := p.fecErrors + o.fecErrors }, l.2, r.2)
/-- The C-DEG interval at the end of tick `tn` (R381). -/
def Port.degStep (tn : Nat) (p : Port) : Port :=
  if (tn + 1) % 62500 = 0 then
    let over' := p.fecSymbols != 0 && decide (p.cDegSet * p.fecSymbols < p.fecErrors * 2 ^ 32)
    let under := p.fecSymbols != 0 && decide (p.fecErrors * 2 ^ 32 < p.cDegClr * p.fecSymbols)
    let p := (p.setRun 6 (if over' ∧ p.state = .up then p.run 6 + 1 else 0)).setRun 7 (if under then p.run 7 + 1 else 0)
    { p with fecSymbols := 0, fecErrors := 0, cDegSet := (p.degNext.getD (p.cDegSet, p.cDegClr)).1
             cDegClr := (p.degNext.getD (p.cDegSet, p.cDegClr)).2, degNext := none }
  else p
/-- Runs of ticks with and without a mapping fault and a grain of JC 0xFE; the run of C-DEG ends where the port is not UP. -/
def Port.tickRuns (p : Port) : Port :=
  let f := p.data.mapFault
  let c := p.data.csfSeen
  ((((p.setRun 6 (if p.state = .up then p.run 6 else 0)).setRun 13 (if f then 0 else p.run 13 + 1)).setRun 14
    (if c then p.run 14 + 1 else 0)).setRun 15 (if c then 0 else p.run 15 + 1))
/-- Enter and exit conditions of a client defect at the end of a tick (Table 13.6). -/
def State.clientNow (s : State) (n : Nat) (p : Port) (lf rf : Bool × Bool) (d : ClientDefect) : Bool × Bool :=
  let up := p.state == .up
  match d with
  | .cDown => (p.state == .training || p.state == .aligning || p.state == .holdoff, up)
  | .cLos => (up && p.lossSignal, !p.lossSignal || !up)
  | .cLoa => (up && p.lossAlign, !p.lossAlign || !up)
  | .cDeg => (up && decide (3 ≤ p.run 6), decide (3 ≤ p.run 7) || !up)
  | .cLf => lf
  | .cRf => rf
  | .cMap => (p.data.mapFault, decide (625 ≤ p.run 13))
  | .cCsf => (decide (3 ≤ p.run 14), decide (3 ≤ p.run 15))
  | .cNomap => let none' := (s.placesOf n).isEmpty; (none', !none')
/-- Evaluation of a port's defects at the end of a tick. -/
def State.portStep (n : Nat) (o : Option ClientObs) (s : State) : State :=
  match s.port? n with
  | none => s
  | some p0 =>
    let x := match o with | some o => p0.scan o | none => (p0, (false, false), (false, false))
    let p := (x.1.degStep s.tn).tickRuns
    let off := p.state == .disabled || p.state == .test
    let old := p.present
    let new := if off then [] else clientDefects.filter (fun d =>
      let y := s.clientNow n p x.2.1 x.2.2 d; toggled (old.contains d) y.1 y.2)
    let rep := reportedClient new
    let s := s.modPort n (fun _ => { p with present := new, reported := rep, data := { p.data with csfSeen := false } })
    new.foldl (fun s d => s.defectTick .port n (clientOrd d)) s

/-! ### Reporting (R388) -/

/-- The changes of reported states since `r`, in the order of the defect ordinals, and of the resources for each. -/
def State.tellDefects (r s : State) : State :=
  let s := lineDefects.foldl (fun s d => (List.range 48).foldl (fun s e =>
    let now := (s.eng e).defect.reported.contains d
    if now == (r.eng e).defect.reported.contains d then s else s.defectChange .engine e (lineOrd d) now) s) s
  let s := ([.packSkew, .packMismatch] : List PackDefect).foldl (fun s d => (List.range 24).foldl (fun s p =>
    let now := (s.pack p).reported.contains d
    if now == (r.pack p).reported.contains d then s else s.defectChange .pack p (packOrd d) now) s) s
  clientDefects.foldl (fun s d => s.ports.foldl (fun s x =>
    let now := x.2.reported.contains d
    if now == (r.port? x.1).any (fun p => p.reported.contains d) then s else s.defectChange .port x.1 (clientOrd d) now) s) s
/-- A bitmap of ordinals. -/
def ordBits (l : List Nat) : Nat := l.foldl (fun n i => n ||| 2 ^ i) 0
/-- What DEFECT_STATUS returns for an engine (R388): present and reported defects by ordinal, SF, its hold-off in progress and the local
fault it has led to. DESIGN CHOICE (log entry 38): the manual gives neither an opcode nor a layout. -/
def State.lineStatus (s : State) (e : Nat) : List Nat :=
  let d := (s.eng e).defect
  [ordBits (d.present.map lineOrd), ordBits (d.reported.map lineOrd), b2n d.sf.isSome, b2n (d.sf.isSome && !d.sfFault), b2n d.sfFault]
/-- What DEFECT_STATUS returns for a Pack. -/
def State.packDefectStatus (s : State) (p : Nat) : List Nat :=
  let k := s.pack p
  let present := (if k.skewPresent then [packOrd .packSkew] else []) ++ (if k.mismatchPresent then [packOrd .packMismatch] else [])
  [ordBits present, ordBits (k.reported.map packOrd), b2n k.psf.isSome, b2n (k.psf.isSome && !k.psfFault), b2n k.psfFault]
/-- What DEFECT_STATUS returns for a port. -/
def Port.defectStatus (p : Port) : List Nat := [ordBits (p.present.map clientOrd), ordBits (p.reported.map clientOrd)]

/-! ### Egress (R383, R287) -/

/-- Signal fail of a port's carrier, hold-off not yet expired. -/
def State.failHeld (s : State) (n : Nat) : Bool :=
  match s.carrierOf n with | some c => ownerFail s c.1 c.2 | none => false
/-- Blocks less up to `n` idle ones, and how many have left; the first idle block of each gap stays, so that no gap falls below the
standard's minimum (R287). `gap` says that the block before was idle. DESIGN CHOICE (log entry 30): a gap is a run of idle blocks. -/
def dropIdles : Nat → Bool → List Block → List Block × Nat
  | 0, _, l => (l, 0)
  | _, _, [] => ([], 0)
  | n + 1, gap, b :: r =>
    if b = some Config.idleBlock then
      if gap then let x := dropIdles n true r; (x.1, x.2 + 1) else let x := dropIdles (n + 1) true r; (b :: x.1, x.2)
    else let x := dropIdles (n + 1) false r; (b :: x.1, x.2)
/-- Blocks with others put into their first gap, after its first idle block; none where they have no gap (R287, R291). -/
def intoGap (x : List Block) : List Block → Option (List Block)
  | [] => none
  | b :: r => if b = some Config.idleBlock then some (b :: (x ++ r)) else (intoGap x r).map (b :: ·)
/-- What a port sends in a tick (Table 13.8), by the states at the end of the tick before (R371): blocks of earlier labels leave the
egress buffer of 2,048, less those that an inserted frame holds back; its overflow flushes it (R287, R291). -/
def State.portEgress (n : Nat) (o : Option ClientObs) (s : State) : State :=
  match s.port? n with
  | none => s
  | some p =>
    if p.state ≠ .up then s.modData n (fun d => { d with out := [], fault := false, egress := [], inserted := [] })
    else if s.localFault n p then s.modData n (fun d => { d with out := [], fault := true, egress := [], inserted := [] })
    else if s.failHeld n then s.modData n (fun d => { d with out := errorTick d.cleanN, fault := false, egress := [], inserted := [] })
    else
      let q := p.data.egress
      let held := p.data.inserted
      let k := (match o with | some o => o.consumed | none => q.length) - held.length
      if 2048 < q.length - k then
        ((s.modData n (fun d => { d with out := errorTick d.cleanN, fault := false, egress := [], inserted := [] })).raise .egrSlip .port n
          (w2 s.tn)).count .storeSlips .port n 1
      else
        let ins := match o with | some o => o.idleIns | none => 0
        let gap := p.data.out.getLast? == some (some Config.idleBlock)
        let x := dropIdles (match o with | some o => o.idleDel | none => 0) gap (if q.isEmpty then [some Config.idleBlock] else q.take k)
        let y := match intoGap (List.replicate ins (some Config.idleBlock)) x.1 with | some l => (l, ins) | none => (x.1, 0)
        ((s.modData n (fun d => { d with
          out := (intoGap held y.1).getD (y.1 ++ held), fault := false, egress := q.drop k, inserted := [] })).count
            .egrIdleIns .port n y.2).count .egrIdleDel .port n x.2

/-! ### Commands -/

/-- ENGINE_DEFECT_SET (Table 13.1, R389); its read gives the values in effect (R427). -/
def specEngineDefectSet : OpSpec :=
  { code := 0x11E, len := lenIs 10, target := tgtEngine, fence := fenceEngine
    ranges := [rngU 1 0 62500, rngU 2 1 64, rngU 3 1 1000, rngU 4 1 10
      , rngU 5 4295 103079215, rngU 6 4295 103079215, rngP 7 (fun n => decide (n ≤ 47) || n == 0xFF), rngU 8 0 3, rngU 9 0 1]
    refuse := fun _ c => if cw c 5 ≤ cw c 6 then some (.parameterInvalid, 6) else none
    eff := .boundary 0x11E (fun c s => s.modDefect (cIdx c) (fun d => { d with
      cfg := { sfHoldoff := cw c 1, ucfSet := cw c 2, degInterval := 625 * cw c 3, degM := cw c 4, degSet := cw c 5, degClr := cw c 6
               expectedSrc := cw c 7, timMode := cw c 8, timAct := cw c 9 == 1 } }))
    read := some {
      selectors := 0, ok := fun _ _ => true, get := fun c s =>
      let d := (s.eng (cIdx c)).defect
      let x := d.cfg
      let g := d.degNow s.tn
      w1 ((d.sf.map (·.2)).getD x.sfHoldoff) ++ w1 x.ucfSet ++ w1 (g.interval / 625) ++ w1 g.m ++ w1 g.set ++ w1 g.clr
        ++ w1 x.expectedSrc ++ w1 x.timMode ++ w1 (b2n x.timAct) } }
/-- ENGINE_DEFECT_SET: sets defect parameters. -/
def execEngineDefectSet (c : Cmd) (s : State) : Res := runOp specEngineDefectSet c s

end Sys2Proof.Machine
end

