-- ==== Sys2Proof/Machine/Waveform.lean ====
section
/-! DEFINITION. The waveform of an engine: the constants of R106 and R63, synthesis (R124, R125), nonlinear pre-compensation (R137 to
R140), pre-emphasis (R127), and skew, IQ and DC correction (R129, R130), in the order of R123.
What it chooses or infers where the manual is silent, with its marks: log entry 24. -/
namespace Sys2Proof.Machine

/-! ### Arithmetic

Roots, powers and sines are rational approximations far below the resolution of a sample. -/

/-- π. -/
def piApprox : Rat := 3141592653589793238462643 / 1000000000000000000000000
/-- The square root, to 2⁻⁴⁰. -/
def sqrtApprox (x : Rat) : Rat := ((Nat.sqrt (x * 2 ^ 80).floor.toNat : Nat) : Rat) / 2 ^ 40
/-- `n` further terms of a power series in x whose next term is `t`; `d` gives the divisor of each next term. -/
def series (x : Rat) (d : Nat → Nat) : Nat → Nat → Rat → Rat
  | 0, _, _ => 0
  | n + 1, i, t => t + series x d n (i + 1) (t * x / (d i : Rat))
/-- The exponential. -/
def expApprox (x : Rat) : Rat := series x (fun i => i + 1) 40 0 1
/-- A ratio of amplitudes from n-ths of a decibel. -/
def decibels (z : Int) (n : Nat) : Rat := expApprox ((z : Rat) / (n : Rat) * 2302585092994045684 / 20000000000000000000)
/-- A part of a turn brought between −1/2 and 1/2. -/
def turnPart (x : Rat) : Rat := x - (x + 1 / 2).floor
/-- The sine and the cosine of a part of a turn. -/
def sinTurn (x : Rat) : Rat :=
  let a := 2 * piApprox * turnPart x
  series (-(a * a)) (fun i => (2 * i + 2) * (2 * i + 3)) 16 0 a
/-- The cosine of a part of a turn. -/
def cosTurn (x : Rat) : Rat :=
  let a := 2 * piApprox * turnPart x
  series (-(a * a)) (fun i => (2 * i + 1) * (2 * i + 2)) 16 0 1
/-- The sum of `f` over the numbers below n. -/
def sumBelow (n : Nat) (f : Nat → Rat) : Rat := (List.range n).foldl (fun x i => x + f i) 0
/-- A complex number. -/
abbrev Cx := Rat × Rat
/-- The product of two complex numbers. -/
def Cx.mul (a b : Cx) : Cx := (a.1 * b.1 - a.2 * b.2, a.1 * b.2 + a.2 * b.1)
/-- A complex number times a real one. -/
def Cx.scale (r : Rat) (a : Cx) : Cx := (r * a.1, r * a.2)

/-! ### Scaling of symbols (R63, R106) -/

/-- The energy of all sequences of d amplitudes with energy at most e, in all. -/
def energyAll (lv : List Nat) : Nat → Nat → Nat
  | 0, _ => 0
  | d + 1, e => (lv.map (fun a => if a * a ≤ e then a * a * shapeCount lv d (e - a * a) + energyAll lv d (e - a * a) else 0)).foldl (· + ·) 0
/-- The energy of the first x sequences of d amplitudes with energy at most e, in all; `rec` gives that of the sequences one shorter. -/
def energyPick (lv : List Nat) (d e : Nat) (rec : Nat → Nat → Nat) : List Nat → Nat → Nat
  | [], _ => 0
  | a :: r, x =>
    let n := if a * a ≤ e then shapeCount lv d (e - a * a) else 0
    if x < n then a * a * x + rec (e - a * a) x
    else (if a * a ≤ e then a * a * n + energyAll lv d (e - a * a) else 0) + energyPick lv d e rec r (x - n)
/-- The energy of the first x sequences of d amplitudes with energy at most e, in all. -/
def energyFirst (lv : List Nat) : Nat → Nat → Nat → Nat
  | 0, _, _ => 0
  | d + 1, e, x => energyPick lv d e (energyFirst lv d) lv x
/-- The mean energy of a symbol, over all sequences that a block of n coded bits may carry (R106). -/
def blockEnergy (l n : Nat) : Rat :=
  if n < 62 then 2
  else
    let k := n - 62
    (energyFirst (levels l) 62 (shapeEnergy (levels l) k) (2 ^ k) : Rat) / ((31 * 2 ^ k : Nat) : Rat)
/-- The mean energy of a payload symbol of a subcarrier with loading value l: over the blocks of a frame. -/
def payloadEnergy (layout l : Nat) : Rat :=
  sumBelow (pilotBlocks layout) (fun b => blockEnergy l (blockBits l b)) / (pilotBlocks layout : Rat)
/-- The configured power of a subcarrier relative to the others (R125). -/
def scPowerOf (d : Shaping) (sc : Nat) : Rat := decibels (2 * d.scPower.getD sc 0) 10
/-- Symbol k of a stream is a sync or pilot symbol (R60). -/
def knownSymbol (k : Nat) : Bool := decide (k < 64) || (k - 64) % 32 == 0
/-- Symbol k of a subcarrier in the scale of its configured power: payload symbols by the one constant of R106; sync and pilot symbols
with A at the square root of half the payload's mean power (R63). -/
def scaledSymbol (power energy : Rat) (k : Nat) (x : Sym) : Cx :=
  let c := if knownSymbol k then sqrtApprox (power / 2) else sqrtApprox (power / energy * (if x.root then 2 else 1))
  (c * (x.i : Rat), c * (x.q : Rat))
/-- The streams of a frame after sync and pilot insertion (R123): symbol k of stream q, 0 where the stream or the symbol is absent. -/
def streamSymbol (d : Shaping) (f : SentFrame) (q k : Nat) : Cx :=
  match f.symbols.find? (fun x => x.1 == q) with
  | some x => match x.2[k]? with
    | some y => scaledSymbol (scPowerOf d (q / 2)) (payloadEnergy f.layout (f.vec.getD (q / 2) 0)) k y
    | none => (0, 0)
  | none => (0, 0)

/-! ### The frames on the lanes

Symbol 0 of frame TN reaches the DAC 46,080 samples after the start of tick TN (R123), so that the first samples of a tick still carry the
frame before. Symbols and samples are numbered from symbol 0 of the present frame; those of the frame before are negative. -/

/-- What shapes the present frame of an engine. -/
def State.shaping (s : State) (e : Nat) : Shaping :=
  let g := s.eng e
  let t := g.tx
  { zr := g.zr, rollOff := t.rollOff, scPower := t.scPower, xyBalance := t.xyBalance, dacBackoff := t.dacBackoff, txSkew := t.txSkew
    iqGain := t.iqGain, iqPhase := t.iqPhase, dcOffset := t.dcOffset, preActive := t.preActive, nlcMode := t.nlcMode, nlcGain := t.nlcGain
    nlcWindow := t.nlcWindow, nlcActive := t.nlcActive, amp := t.amp
    nbrs := (List.range 4).map (fun p => if t.nbrTx.getD p 1 = 0 then neighbour s.map e p else none) }
/-- The frame that an engine's lanes carry, the present one or the one before: none while MUZZLED (Table 4.6). -/
def State.laneFrame (s : State) (e : Nat) (before : Bool) : Option (SentFrame × Shaping) :=
  let t := (s.eng e).tx
  if before then t.was else if t.muzzle == .muzzled then none else t.sent.map (fun f => (f, s.shaping e))
/-- At the end of a tick its frame becomes the one before. -/
def State.keepFrame (e : Nat) (s : State) : State :=
  s.modTx e (fun t => { t with was := s.laneFrame e false, looped := if (s.eng e).looped then t.sent else none })
/-- The engine as a looped signal is taken of it, ahead of the Muzzle (R492). -/
def State.aheadOfMuzzle (e : Nat) (s : State) : State :=
  s.modTx e (fun t => { t with
    muzzle := .unmuzzled, amp := 1, was := match t.was with
      | some w => some (w.1, { w.2 with amp := 1 }) | none => t.looped.map (fun f => (f, { s.shaping e with amp := 1 })) })
/-- Symbols of a frame in one stream: those of its layout, or 95,750 at the 59.84375 GBd of the 400ZR profile. -/
def symbolsOf (f : SentFrame × Shaping) : Nat := if f.2.zr then 95750 else symbolsPerTick f.1.layout
/-- Symbol m of a stream, with the ramp amplitude of its frame. -/
def State.symbolAt (s : State) (e q : Nat) (m : Int) : Cx × Rat :=
  match s.laneFrame e (decide (m < 0)) with
  | some f =>
    let k := if m < 0 then m + symbolsOf f else m
    (if k < 0 then (0, 0) else streamSymbol f.2 f.1 q k.toNat, f.2.amp)
  | none => ((0, 0), 0)

/-! ### Nonlinear pre-compensation (R137 to R140) -/

/-- The symbols an engine offers its neighbours, scaled by its ramp (R135, R137); nothing where it sends no frame. -/
def State.offered (s : State) (e q : Nat) (m : Int) : Cx := let x := s.symbolAt e q m; Cx.scale x.2 x.1
/-- Positions that NLC_MODE lets take part: first neighbours with XPM1, second ones too with XPM2 (Table 4.4). -/
def nlcPositions (mode : Nat) : List Nat := if mode = 2 then [0, 2] else if mode = 3 then [0, 1, 2, 3] else []
/-- Symbol m of a contributing stream, numbered 16 p + q: the engine's own, and the streams of its ACTIVE neighbours; any other contributes
nothing. -/
def State.contribution (s : State) (e : Nat) (d : Shaping) (n : Nat) (m : Int) : Cx :=
  if n < 16 then (s.symbolAt e n m).1
  else
    let p := n / 16 - 1
    if (nlcPositions d.nlcMode).contains p then
      match d.nbrs.getD p none with | some a => s.offered a (n % 16) m | none => (0, 0)
    else (0, 0)
/-- Weight i of the active bank, [31:16] I and [15:0] Q. -/
def nlcWeight (d : Shaping) (i : Nat) : Cx :=
  let w := (d.nlcActive.getD i 0).toNat
  ((sx 16 (w / 65536) : Rat) * Config.nlcUnit, (sx 16 w : Rat) * Config.nlcUnit)
/-- An offset within the window of NLC_WINDOW symbols centred on the corrected symbol. DESIGN CHOICE (log entry 24): NLC_WINDOW is even, so
that no symbol is its middle; of its two middle ones the later is the corrected symbol, and the window reaches one symbol further back
than ahead. -/
def inWindow (w : Nat) (d : Int) : Bool := decide (-(w : Int) ≤ 2 * d) && decide (2 * d < (w : Int))
/-- The correction of symbol m of stream q (R140): the weighted products, two symbols and the conjugate of a third, by NLC_GAIN; the window
runs on into the frames before and after. With NLC_MODE OFF it is 0. Isolation and the 400ZR profile leave no position ACTIVE (R138,
R139). -/
def State.correction (s : State) (e : Nat) (d : Shaping) (q : Nat) (m : Int) : Cx :=
  if d.nlcMode = 0 then (0, 0)
  else
    let sum := (List.range d.nlcActive.length).foldl (fun (a : Cx) i =>
      let p := Config.nlcProduct d.nlcWindow q i
      if inWindow d.nlcWindow p.1.2 && inWindow d.nlcWindow p.2.1.2 && inWindow d.nlcWindow p.2.2.2 then
        let at' := fun (x : Nat × Int) => s.contribution e d x.1 (m + x.2)
        let c := at' p.2.2
        let v := Cx.mul (nlcWeight d i) (Cx.mul (Cx.mul (at' p.1) (at' p.2.1)) (c.1, -c.2))
        (a.1 + v.1, a.2 + v.2)
      else a) (0, 0)
    Cx.scale ((d.nlcGain : Rat) / 64) sum

/-! ### Synthesis (R124, R125) -/

/-- The root-raised-cosine pulse of roll-off b at x symbol periods from its centre, with unit energy per symbol. -/
def rrc (b x : Rat) : Rat :=
  if x = 0 then 1 + b * (4 / piApprox - 1)
  else if 16 * b * b * x * x = 1 then
    let a := 1 / (8 * b)
    b / sqrtApprox 2 * ((1 + 2 / piApprox) * sinTurn a + (1 - 2 / piApprox) * cosTurn a)
  else
    (sinTurn (x * (1 - b) / 2) + 4 * b * x * cosTurn (x * (1 + b) / 2)) / (piApprox * x * (1 - 16 * b * b * x * x))
/-- The factor that brings the sum of the active subcarriers to DAC_BACKOFF on each lane of X, and Y by XY_BALANCE beside it (R125). -/
def laneGain (d : Shaping) (layout : Nat) (y : Bool) : Rat :=
  let total := if d.zr then 1 else (((List.range 8).filter (scActive layout)).map (scPowerOf d)).foldl (· + ·) (0 : Rat)
  decibels d.dacBackoff 10 * sqrtApprox (2 / total) * (if y then decibels d.xyBalance 10 else 1)
/-- The amplitude that two bits of a 16QAM symbol stand for, of unit mean power over both axes. -/
def qamAxis (b : Nat) : Rat := ([-3, -1, 3, 1].getD b 0) / sqrtApprox 10
/-- Symbol k of a polarisation in the 400ZR profile: DP-16QAM, four bits of octet k (Table 3.10). -/
def zrSymbol (f : SentFrame) (pol k : Nat) : Cx :=
  let o := ((f.body.getD k 0).toNat / 2 ^ (4 - 4 * pol)) % 16
  (qamAxis (o / 4), qamAxis (o % 4))
/-- The carriers of a frame: stream of X, and turn a sample. A subcarrier lies (s − 3.5) × 26.5625 GHz from the slot centre (R124), the
400ZR profile's one carrier in it (Table 3.10). -/
def carriersOf (f : SentFrame × Shaping) : List (Nat × Rat) :=
  if f.2.zr then [(0, 0)]
  else ((List.range 8).filter (scActive f.1.layout)).map (fun sc => (2 * sc, (2 * (sc : Rat) - 7) * 17 / 288))
/-- Samples to either side of its centre over which a pulse is taken. The pulse of R124 has no end; what of a frame lies within 46,080
samples before the tick's end is known in it. DESIGN CHOICE (log entry 24). -/
def pulseReach : Rat := 40000
/-- The symbols of one frame in a stream, corrected, with their pulses, at a sample; its symbol 0 is symbol `first` of the present frame and
lies at sample `start`. -/
def State.pulses (s : State) (e : Nat) (f : SentFrame × Shaping) (first : Int) (start : Rat) (q : Nat) (x : Rat) : Cx :=
  let n := symbolsOf f
  let period : Rat := 360000 / (n : Rat)
  (List.range n).foldl (fun (b : Cx) (k : Nat) =>
    let u := x - start - (k : Rat) * period
    if u < -pulseReach ∨ pulseReach < u then b
    else
      let y := if f.2.zr then zrSymbol f.1 (q % 2) k
        else
          let y := streamSymbol f.2 f.1 q k
          let c := s.correction e f.2 q (first + (k : Int))
          (y.1 + c.1, y.2 + c.2)
      let h := rrc ((f.2.rollOff : Rat) / 512) (u / period)
      (b.1 + h * y.1, b.2 + h * y.2)) (0, 0)
/-- What one frame adds to the field of a polarisation (0 X, 1 Y) at a sample. The carriers turn by whole turns in a tick, so that each goes
on from frame to frame. -/
def State.fieldOf (s : State) (e pol : Nat) (x : Rat) (before : Bool) : Cx :=
  match s.laneFrame e before with
  | none => (0, 0)
  | some f =>
    let sum := (carriersOf f).foldl (fun (a : Cx) c =>
      let base := s.pulses e f (if before then -(symbolsOf f : Int) else 0) (if before then -360000 else 0) (c.1 + pol) x
      let v := Cx.mul base (cosTurn (c.2 * x), sinTurn (c.2 * x))
      (a.1 + v.1, a.2 + v.2)) (0, 0)
    Cx.scale (laneGain f.2 f.1.layout (pol == 1)) sum
/-- The field of a polarisation at a sample: the symbols of the present frame and of the one before, whose pulses run into each other. -/
def State.polarised (s : State) (e pol : Nat) (x : Rat) : Cx :=
  let a := s.fieldOf e pol x true
  let b := s.fieldOf e pol x false
  (a.1 + b.1, a.2 + b.2)
/-- The frame to which a sample belongs: its settings and its ramp amplitude apply to it (R127, R129, R144). -/
def State.sampleFrame (s : State) (e : Nat) (x : Rat) : Option Shaping := (s.laneFrame e (decide (x < 0))).map (·.2)
/-- A lane (XI, XQ, YI, YQ) after synthesis and at the ramp's amplitude, at a sample, in units of full scale. -/
def State.synthesised (s : State) (e lane : Nat) (x : Rat) : Rat :=
  let c := s.polarised e (lane / 2) x
  ((s.sampleFrame e x).map (·.amp)).getD 0 * (if lane % 2 = 0 then c.1 else c.2)

/-! ### Pre-emphasis and correction (R127, R129, R130) -/

/-- TX_SKEW of a lane less the mean of the four, in samples of 40/9 ps. -/
def txSkewOf (d : Shaping) (lane : Nat) : Rat :=
  (4 * d.txSkew.getD lane 0 - (d.txSkew.foldl (· + ·) 0) : Int) / 4 * 9 / 4000
/-- A lane after its 17-tap filter, tap 8 in the centre, and after its skew. -/
def State.filtered (s : State) (e : Nat) (d : Shaping) (lane : Nat) (x : Rat) : Rat :=
  sumBelow 17 (fun k => (d.preActive.getD (17 * lane + k) 0 : Rat) / 1024
    * s.synthesised e lane (x - txSkewOf d lane - ((k : Rat) - 8)))
/-- The drive of a lane at sample n of the tick, in units of full scale (R129): Q by IQ_GAIN against I, turned by IQ_PHASE, and DC_OFFSET
after all else; none where the lane is held (Table 4.6). -/
def State.drive (s : State) (e lane n : Nat) : Option Rat :=
  let x : Rat := (n : Rat) - 46080
  (s.sampleFrame e x).map (fun d =>
    let pol := lane / 2
    let v := s.filtered e d lane x
    let w := if lane % 2 = 0 then v
      else
        let a : Rat := (d.iqPhase.getD pol 0 : Rat) / 36000
        decibels (d.iqGain.getD pol 0) 100 * (v * cosTurn a + s.filtered e d (lane - 1) x * sinTurn a)
    w + (d.dcOffset.getD lane 0 : Rat) / 4096)

end Sys2Proof.Machine
end

