-- ==== Sys2Proof/Machine/Convert.lean ====
section
/-! DEFINITION. Line converters and background calibration (R204 to R228): correction values and their interpolation, windows and
checks, applying, retirement and spares, and the converter commands.
What it chooses or infers where the manual is silent, with its marks: log entry 26. -/
namespace Sys2Proof.Machine

/-- Applies `f` to the converters of an engine. -/
def State.modConv (e : Nat) (f : Converter → Converter) (s : State) : State := s.modEng e (fun g => { g with conv := f g.conv })
/-- The pool a unit belongs to. -/
def Converter.pool (k : Converter) (u : UnitRef) : UnitPool :=
  if u.dac then vget k.dac (4 * u.lane + u.sub) (.reset 15 2) else vget k.adc u.lane (.reset 96 8)
/-- Applies `f` to a unit's pool. -/
def Converter.modPool (u : UnitRef) (f : UnitPool → UnitPool) (k : Converter) : Converter :=
  if u.dac then { k with dac := vmod k.dac (4 * u.lane + u.sub) f } else { k with adc := vmod k.adc u.lane f }

/-! ### Values (R207 to R211) -/

/-- The word of a lane that holds a value of a unit (Table 7.9). -/
def valueWord (u : UnitRef) (value : Nat) : Nat :=
  if !u.dac then 104 * value + u.unit else if value < 3 then 312 + 4 * value + u.sub else 324 + 17 * u.sub + u.unit
/-- Index of a learned value: temperature point, lane, word. -/
def learnedIdx (t lane v : Nat) : Nat := 1568 * t + 392 * lane + v
/-- A learned value, in 1/16 of the unit of Table 7.2 (R210). -/
def State.learnedAt (s : State) (e i : Nat) : Int := cellGet (s.eng e).conv.learned i (Config.factory e i)
/-- The learned layer with a value written; one that equals the factory value is not listed. -/
def Converter.learn (e i : Nat) (v : Int) (k : Converter) : Converter := { k with learned := cellSet k.learned i v (Config.factory e i) }
/-- The temperature points in 0.25 °C. -/
def calPoints : List Int := [-160, -40, 80, 200, 320, 420, 500, 600]
/-- The bracketing points of a temperature and their weights (R211). -/
def calWeights (t : Int) : List (Nat × Rat) :=
  if t ≤ -160 then [(0, 1)] else if 600 ≤ t then [(7, 1)]
  else
    let i := ((List.range 7).filter (fun j => decide (calPoints.getD j 0 ≤ t))).length - 1
    let a := calPoints.getD i 0
    let b := calPoints.getD (i + 1) 0
    let w : Rat := (b - t : Int) / (b - a : Int)
    [(i, w), (i + 1, 1 - w)]
/-- The unrounded value interpolated at a temperature, in 1/16 unit. -/
def State.interpolated (s : State) (e : Nat) (u : UnitRef) (value : Nat) (t : Int) : Rat :=
  (calWeights t).foldl (fun x p => x + p.2 * (s.learnedAt e (learnedIdx p.1 u.lane (valueWord u value)) : Rat)) 0
/-- The skews of a lane's in-service slices, or of its sub-DACs. -/
def Converter.skewUnits (dac : Bool) (lane : Nat) (k : Converter) : List UnitRef :=
  if dac then (List.range 4).map (fun d => { dac := true, lane := lane, sub := d, unit := 31 })
  else (k.pool { dac := false, lane := lane, sub := 0, unit := 0 }).inService.map
    (fun n => { dac := false, lane := lane, sub := 0, unit := n })
/-- The value at a temperature: interpolated, and a skew less the mean of its lane (R209, R211), in 1/16 unit. -/
def State.valueAt (s : State) (e : Nat) (u : UnitRef) (value : Nat) (t : Int) : Rat :=
  let v := s.interpolated e u value t
  if value ≠ 2 then v
  else
    let l := (s.eng e).conv.skewUnits u.dac u.lane
    if l.isEmpty then v else v - (l.map (fun w => s.interpolated e w 2 t)).foldl (· + ·) 0 / (l.length : Rat)
/-- A rational rounded to nearest, halves away from zero. -/
def roundRat (x : Rat) : Int := roundDiv x.num x.den
/-- The applied value, in the format of Table 7.2. -/
def State.appliedValue (s : State) (e : Nat) (u : UnitRef) (value : Nat) : Int :=
  roundRat (s.valueAt e u value (s.eng e).conv.temp / 16)
/-- Absolute limits in 1/16 of the format's unit (Table 7.2), rounded inward. -/
def absLimit (dac : Bool) (value : Nat) : Int × Int :=
  match dac, value with
  | false, 0 => (-12288, 12288) | false, 1 => (235930, 288358) | false, _ => (-1280, 1280)
  | true, 0 => (-4096, 4096) | true, 1 => (249037, 275251) | true, 2 => (-1200, 1200) | true, _ => (-1536, 1536)
/-- Step limits per window in 1/16 of the format's unit; a gain's is relative to the interpolated value. -/
def stepLimit (dac : Bool) (value : Nat) (v : Rat) : Rat :=
  match dac, value with
  | false, 0 => 512 | false, 1 => v / 200 | false, _ => 80
  | true, 0 => 256 | true, 1 => v / 400 | true, 2 => 80 | true, _ => 102.4
/-- Re-centres the skews of a lane at every temperature point (R209). -/
def State.recentre (e : Nat) (dac : Bool) (lane : Nat) (s : State) : State :=
  let us := (s.eng e).conv.skewUnits dac lane
  (List.range 8).foldl (fun s t =>
    let idx := us.map (fun u => learnedIdx t lane (valueWord u 2))
    let m := meanOf (idx.map (s.learnedAt e))
    if m = 0 then s else idx.foldl (fun s i => s.modConv e (fun k => k.learn e i (s.learnedAt e i - m))) s) s
/-- Re-centres the skews of every lane of an engine. -/
def State.recentreAll (e : Nat) (s : State) : State :=
  (List.range 4).foldl (fun s l => (s.recentre e false l).recentre e true l) s

/-! ### Samples (R205, R206, R208) -/

/-- The slice that takes sample n of a lane: the one at position n mod 96 (R205). -/
def Converter.sliceAt (k : Converter) (lane n : Nat) : UnitRef :=
  { dac := false, lane := lane, sub := 0, unit := (vget k.adc lane (.reset 96 8)).inService.getD (n % 96) 0 }
/-- The sub-DAC that converts sample n of a lane (R206); unit 31 stands for its offset, gain and skew. -/
def subDacAt (lane n : Nat) : UnitRef := { dac := true, lane := lane, sub := n % 4, unit := 31 }
/-- The instant at which a unit takes or converts sample n of a tick, in 0.02 ps: its clock is trimmed by its skew (R208). -/
def State.unitInstant (s : State) (e : Nat) (u : UnitRef) (n : Nat) : Rat := (n : Rat) * 2000 / 9 - (s.appliedValue e u 2 : Rat)
/-- A code of a slice after offset and gain correction, in 1/64 LSB (R208). -/
def State.corrected (s : State) (e : Nat) (u : UnitRef) (code : Int) : Int :=
  roundDiv ((64 * code - s.appliedValue e u 0) * s.appliedValue e u 1) 16384
/-- The corrected samples of a lane, from its codes of a tick. -/
def State.laneSamples (s : State) (e lane : Nat) (codes : List Int) : List Int :=
  codes.zipIdx.map (fun x => s.corrected e ((s.eng e).conv.sliceAt lane x.2) x.1)
/-- A sample that DIGITAL loopback feeds to the input of slice correction, past the converters (R492). -/
def State.loopedSample (s : State) (e lane n : Nat) : Int :=
  clampI (-128) 127 (roundRat ((((s.aheadOfMuzzle e).drive e lane n).getD 0) * 128))
/-- The codes of an engine's four lanes before slice correction: those of the converters, or what DIGITAL loopback puts in their place. -/
def State.adcCodes (s : State) (e : Nat) (o : EngineObs) : List (List Int) :=
  if (s.eng e).loopback = 1 then o.adc.zipIdx.map (fun l => (List.range l.1.length).map (s.loopedSample e l.2)) else o.adc
/-- The engine as its DACs are driven: ANALOG loopback takes their outputs ahead of the Muzzle (R492). -/
def State.dacSide (s : State) (e : Nat) : State := if (s.eng e).loopback = 2 then s.aheadOfMuzzle e else s
/-- What a lane's DAC is given at sample n of the tick, in LSB, before it saturates: the drive by DAC_GAIN, less DAC_OFFSET (R208); none
where the lane is held at the differential zero code (Table 4.6). -/
def State.dacValue (s : State) (e lane n : Nat) : Option Int :=
  let u := subDacAt lane n
  ((s.dacSide e).drive e lane n).map (fun d => roundRat (d * 128 * (s.appliedValue e u 1 : Rat) / 16384 - (s.appliedValue e u 0 : Rat) / 64))
/-- The code a DAC lane converts at sample n of the tick, −128 to 127 (R126, R204). -/
def State.dacCode (s : State) (e lane n : Nat) : Int := ((s.dacValue e lane n).map (clampI (-128) 127)).getD 0
/-- The code at a connector lane: ANALOG loopback holds it at the differential zero code (R492). -/
def State.connectorCode (s : State) (e lane n : Nat) : Int := if (s.eng e).loopback = 2 then 0 else s.dacCode e lane n
/-- Samples of the tick beyond full scale, over the four lanes (R126). -/
def State.clipped (s : State) (e : Nat) : Nat :=
  if ((s.dacSide e).laneFrame e true).isNone && ((s.dacSide e).laneFrame e false).isNone then 0
  else ((List.range 4).map (fun lane => ((List.range 360000).filter (fun n =>
    (s.dacValue e lane n).any (fun v => decide (v < -128) || decide (127 < v)))).length)).foldl (· + ·) 0
/-- The in-service segments of a sub-DAC in thermometer order, which is the order of their numbers: log entry 26. -/
def UnitPool.thermometer (p : UnitPool) : List Nat := p.inService.mergeSort (fun a b => decide (a ≤ b))
/-- The output of a lane's DAC at sample n, in 1/64 LSB (R206, R208): as many of the sub-DAC's segments as the code's upper four bits say,
each of 16 LSB less its weight, and the binary cells of its lower four. -/
def State.dacOutput (s : State) (e lane n : Nat) : Int :=
  let c := (s.dacCode e lane n + 128).toNat
  let p := (s.eng e).conv.pool (subDacAt lane n)
  (((p.thermometer.take (c / 16)).map (fun u => 1024 - s.appliedValue e { subDacAt lane n with unit := u } 3)).foldl (· + ·) 0)
    + 64 * ((c % 16 : Nat) : Int) - 8192

/-! ### Statistics of a window (R213, R214, R219) -/

/-- No samples. -/
def SliceSums.none : SliceSums := { n := 0, sum := 0, sq := 0, before := 0, beforeN := 0, after := 0, afterN := 0 }
/-- A sample of a slice, with the lane's samples before and after it. -/
def SliceSums.add (x : Int) (b a : Option Int) (t : SliceSums) : SliceSums :=
  { n := t.n + 1, sum := t.sum + x, sq := t.sq + x * x, before := t.before + x * b.getD 0, beforeN := t.beforeN + b2n b.isSome
    after := t.after + x * a.getD 0, afterN := t.afterN + b2n a.isSome }
/-- The sample before the n-th of a list. -/
def sampleBefore (l : List Int) (n : Nat) : Option Int := if n = 0 then none else l[n - 1]?
/-- A sample of a slice enters the window's sums. -/
def Converter.addSample (lane slice : Nat) (x : Int) (b a : Option Int) (k : Converter) : Converter :=
  let i := 104 * lane + slice
  { k with adcSums := cellSet k.adcSums i ((cellGet k.adcSums i SliceSums.none).add x b a) SliceSums.none }
/-- The ADC samples of a tick: those of the lanes, and those of each spare at the instants of the position it shadows. -/
def State.adcSeen (e : Nat) (o : EngineObs) (s : State) : State :=
  let lanes := (s.adcCodes e o).zipIdx.map (fun x => s.laneSamples e x.2 x.1)
  let s := lanes.zipIdx.foldl (fun s l => l.1.zipIdx.foldl (fun s x =>
    s.modConv e (fun k => k.addSample l.2 (k.sliceAt l.2 x.2).unit x.1 (sampleBefore l.1 x.2) (l.1[x.2 + 1]?))) s) s
  o.spares.foldl (fun s p =>
    let k := (s.eng e).conv
    if (vget k.adc p.lane (.reset 96 8)).spare.contains p.slice then
      let ys := lanes.getD p.lane []
      p.codes.zipIdx.foldl (fun s x =>
        let n := k.shadowPos.getD p.lane 0 + 96 * x.2
        s.modConv e (fun k => k.addSample p.lane p.slice
          (s.corrected e { dac := false, lane := p.lane, sub := 0, unit := p.slice } x.1) (sampleBefore ys n) (ys[n + 1]?))) s
    else s) s
/-- No observations. -/
def SubSums.none : SubSums := { n := 0, code := 0, out := 0, codeSq := 0, codeOut := 0, errStep := 0, stepSq := 0, upper := [] }
/-- An observed output of a code and the output that follows it, in 1/64 LSB. -/
def SubSums.add (code y next : Int) (t : SubSums) : SubSums :=
  let c := 64 * code
  let u := (code + 128).toNat / 16
  let w := cellGet t.upper u (0, 0)
  { n := t.n + 1, code := t.code + c, out := t.out + y, codeSq := t.codeSq + c * c, codeOut := t.codeOut + c * y
    errStep := t.errStep + (y - c) * (next - y), stepSq := t.stepSq + (next - y) * (next - y)
    upper := cellSet t.upper u (w.1 + 1, w.2 + (y - c)) (0, 0) }
/-- The observers' samples of a tick: every 97th sample and the one that follows, against the codes sent (R214). -/
def State.dacSeen (e : Nat) (o : EngineObs) (s : State) : State :=
  o.observers.zipIdx.foldl (fun s l => l.1.zipIdx.foldl (fun s x =>
    let n := 97 * x.2
    let i := 4 * l.2 + n % 4
    s.modConv e (fun k => { k with
      dacSums := cellSet k.dacSums i ((cellGet k.dacSums i SubSums.none).add (s.dacCode e l.2 n) x.1.1 x.1.2) SubSums.none })) s) s

/-- What a calibration derives for an offset, a gain and a skew where it would divide by 0: the manual states no result (log entry 8). -/
structure FlatCal where
  offset : Rat
  gain : Rat
  skew : Rat
  deriving DecidableEq, Repr
/-- A quotient, or `z` where it would divide by 0. -/
def ratioOr (z a b : Rat) : Rat := if b = 0 then z else a / b
/-- The mean of a slice's samples. -/
def SliceSums.mean (z : FlatCal) (t : SliceSums) : Rat := ratioOr z.offset t.sum t.n
/-- The variance of a slice's samples. -/
def SliceSums.variance (z : FlatCal) (t : SliceSums) : Rat := ratioOr z.gain t.sq t.n - t.mean z * t.mean z
/-- The lag-one correlation with the position before, and with the position after, of a lane of the given mean. -/
def SliceSums.lags (z : FlatCal) (m : Rat) (t : SliceSums) : Rat × Rat :=
  (ratioOr z.skew t.before t.beforeN - t.mean z * m, ratioOr z.skew t.after t.afterN - t.mean z * m)
/-- A mean of rationals. -/
def ratMean (z : Rat) (l : List Rat) : Rat := ratioOr z (l.foldl (· + ·) 0) l.length
/-- A calibration result: a unit's value in 1/16 of the format's unit. -/
structure CalMeas where
  unit : UnitRef
  value : Nat
  result : Int
  deriving DecidableEq, Repr
/-- A result: the applied value plus the measured error, both in the format's unit (R213). -/
def State.calMeas (s : State) (e : Nat) (u : UnitRef) (v : Nat) (err : Rat) : CalMeas :=
  { unit := u, value := v, result := roundRat (16 * ((s.appliedValue e u v : Rat) + err)) }
/-- Offset, gain and skew of one slice (R213), against a mean, a variance and a difference of correlations: the lane's, or for a spare
those of the slice it shadows (R219). -/
def State.sliceResults (s : State) (z : FlatCal) (e : Nat) (u : UnitRef) (t : SliceSums) (m mean var diff slope : Rat) : List CalMeas :=
  let c := t.lags z m
  [ s.calMeas e u 0 (t.mean z - mean)
  , s.calMeas e u 1 (16384 * (sqrtApprox (ratioOr z.gain var (t.variance z)) - 1))
  , s.calMeas e u 2 (ratioOr z.skew (c.1 - c.2 - diff) (2 * slope)) ]
/-- The ADC results of a lane. -/
def State.laneResults (s : State) (z : FlatCal) (e lane : Nat) : List CalMeas :=
  let k := (s.eng e).conv
  let p := vget k.adc lane (.reset 96 8)
  let sums := fun (n : Nat) => cellGet k.adcSums (104 * lane + n) SliceSums.none
  let ins := p.inService.filter (fun n => (sums n).n != 0)
  let m := ratMean z.offset (ins.map (fun n => (sums n).mean z))
  let var := ratMean z.gain (ins.map (fun n => (sums n).variance z))
  let slope := Config.lagSlope var (ratMean z.skew (ins.map (fun n => let c := (sums n).lags z m; (c.1 + c.2) / 2)))
  let ref := fun (n : Nat) => ({ dac := false, lane := lane, sub := 0, unit := n } : UnitRef)
  let shadowed := sums (p.inService.getD (k.shadowWas.getD lane 0) 0)
  let c := shadowed.lags z m
  (ins.map (fun n => s.sliceResults z e (ref n) (sums n) m m var 0 slope)).flatten
    ++ ((p.spare.filter (fun n => (sums n).n != 0)).map (fun n =>
      s.sliceResults z e (ref n) (sums n) m (shadowed.mean z) (shadowed.variance z) (c.1 - c.2) slope)).flatten
/-- The DAC results of a sub-DAC (R214): the regression of outputs on codes gives offset and gain, that of the output error on the step
gives the skew, and the rise of the mean error from one upper code to the next a segment's weight. -/
def State.subResults (s : State) (z : FlatCal) (e lane sub : Nat) : List CalMeas :=
  let k := (s.eng e).conv
  let t := cellGet k.dacSums (4 * lane + sub) SubSums.none
  let u : UnitRef := { dac := true, lane := lane, sub := sub, unit := 31 }
  if t.n = 0 then []
  else
    let b := ratioOr z.gain (t.n * t.codeOut - t.code * t.out : Int) (t.n * t.codeSq - t.code * t.code : Int)
    let err := fun (i : Nat) => let w := cellGet t.upper i (0, 0); if w.1 = 0 then none else some ((w.2 : Rat) / (w.1 : Rat))
    [ s.calMeas e u 0 (((t.out : Rat) - b * (t.code : Rat)) / (t.n : Rat))
    , s.calMeas e u 1 (16384 * (ratioOr z.gain 1 b - 1))
    , s.calMeas e u 2 (-(ratioOr z.skew t.errStep t.stepSq) * 2000 / 9) ]
      ++ (k.pool u).thermometer.zipIdx.filterMap (fun x => match err x.2, err (x.2 + 1) with
        | some a, some c => some (s.calMeas e { u with unit := x.1 } 3 (c - a))
        | _, _ => none)
/-- The variances of the ADC slices: lane, slice, variance. -/
def Converter.variances (z : FlatCal) (k : Converter) : List (Nat × Nat × Rat) :=
  k.adcSums.map (fun x => (x.1 / 104, x.1 % 104, x.2.variance z))

/-! ### Windows (R212) -/

/-- Largest failure count among a unit's values. -/
def UnitPool.failures (p : UnitPool) (n : Nat) : Nat := ([0, 1, 2, 3].map (fun v => cellGet p.fails (4 * n + v) 0)).foldl max 0
/-- The position a lane's running spares shadow next (R219). -/
def nextShadow (p : UnitPool) (pos : Nat) : Nat :=
  (((List.range 96).map (fun i => (pos + 1 + i) % 96)).find? (fun q => p.failures (p.inService.getD q 0) == 0)).getD pos
/-- The start of an engine's calibration window at a tick boundary: the parameters that wait for it take effect; another CAL_WINDOW
discards the window in progress and waits for a multiple of itself (Table 7.3). -/
def State.windowStart (e : Nat) (s : State) : State :=
  let k := (s.eng e).conv
  let changed := k.cfgNext.any (fun c => c.window != k.cfg.window)
  let next := k.cfgNext.getD k.cfg
  let s := if changed && k.winRunning then s.count .calWindowsDiscarded .engine e 1 else s
  if s.tn % next.window = 0 then
    s.modConv e (fun k => { k with winRunning := true, winTicks := 0, qualAdc := 0, qualDac := 0, cfg := next, cfgNext := none })
  else if changed then s.modConv e (fun k => { k with winRunning := false }) else s
/-- A realignment gives TN another value: a window starts if it is a multiple of CAL_WINDOW, and one that started with the old value is
none (R212). -/
def State.windowRealign (e : Nat) (s : State) : State :=
  let s := s.modConv e (fun k => if k.winTicks = 0 then { k with winRunning := false } else k)
  if s.tn % (s.eng e).conv.cfg.window = 0 then s.windowStart e else s
/-- A tick of an engine's calibration window, at its end: it qualifies or not, and the samples of a qualifying tick enter the statistics.
With a window's last tick the shadow moves on (R219). -/
def State.calTick (e : Nat) (o : Option EngineObs) (s : State) : State :=
  let g := s.eng e
  let brace := s.power.braceEffect
  let qa := g.conv.cfg.adc && decide (g.acq.minPower ≤ g.inPower) && !brace && !s.fenced e
  let qd := g.conv.cfg.dac && g.tx.muzzle == .unmuzzled && !brace
  let s := s.modConv e (fun k =>
    if k.winTicks = 0 then { k with adcSums := [], dacSums := [], tempSum := 0, tempReads := 0 } else k)
  let s := match o with
    | some x =>
      let s := if qa then s.adcSeen e x else s
      if qd then s.dacSeen e x else s
    | none => s
  let s := s.modConv e (fun k => { k with
    winTicks := k.winTicks + 1, qualAdc := k.qualAdc + b2n qa, qualDac := k.qualDac + b2n qd
    tempSum := k.tempSum + (match k.tempNext with | some t => t | none => 0), tempReads := k.tempReads + b2n k.tempNext.isSome })
  let k := (s.eng e).conv
  if k.winRunning && decide ((s.tn + 1) % k.cfg.window = 0) then
    let whole := k.winTicks == k.cfg.window
    let va := whole && decide (k.cfg.window ≤ 2 * k.qualAdc)
    let vd := whole && decide (k.cfg.window ≤ 2 * k.qualDac)
    let lost := b2n (k.cfg.adc && !va) + b2n (k.cfg.dac && !vd)
    (s.modConv e (fun k => { k with
      ended := some (s.tn, va, vd), winRunning := false, shadowWas := k.shadowPos
      meanTemp := if k.tempReads = 0 then k.temp else roundDiv k.tempSum k.tempReads
      shadowPos := (List.range 4).map (fun l => nextShadow (vget k.adc l (.reset 96 8)) (k.shadowPos.getD l 0)) })).count
        .calWindowsDiscarded .engine e lost
  else s

/-! ### Units -/

/-- A unit as the SUB of CONV_RETIRE. -/
def UnitRef.place (u : UnitRef) : Nat := b2n u.dac * 16 + u.lane * 4 + u.sub
/-- A unit in one word: its place and number. -/
def UnitRef.word (u : UnitRef) : List Word := w1 (u.place * 256 + u.unit)
/-- A unit of CONV_RETIRE and CONV_RESTORE. -/
def cmdUnit (c : Cmd) : UnitRef := { dac := bit (cSub c) 4, lane := field (cSub c) 2 2, sub := field (cSub c) 0 2, unit := cw c 1 }
/-- The replacement of a unit: the lowest-numbered READY spare (R222). -/
def UnitPool.replacement (p : UnitPool) : Option Nat := (p.spare.filter (fun n => p.ready.contains n)).min?
/-- The cause of a retirement when it is made (Table 7.4): a commanded one is MANUAL; any other AUTO, or SPARE_FAIL for a unit that is not
in service. -/
def Converter.causeOf (k : Converter) (d : DueUnit) : Nat :=
  if d.cause = 2 then 2 else if (k.pool d.unit).inService.contains d.unit.unit then 1 else 3
/-- A retirement entry of a unit. -/
def retireEntry (s : State) (e : Nat) (u : UnitRef) (cause : Nat) (by' : Nat) : Retirement :=
  { engine := e, place := u.place, unit := u.unit, reason := cause, replacedBy := by', poh := s.kennel.life.poh, restored := false }
/-- A retirement entry enters the Kennel controller's queue of 32 (R225). -/
def State.queueRetirement (e : Nat) (r : Retirement) (s : State) : State :=
  if s.kennel.retireQueue.length < 32 then s.modKennel (fun k => { k with retireQueue := k.retireQueue ++ [r] })
  else (s.count .retireLogLost .engine e 1).lifeBump 32 4294967295 1 (·.retireCount) (fun v r => { r with retireCount := v })
/-- Fills in REPLACED_BY of a recorded retirement (R225). -/
def fillEntry (e place unit by' : Nat) (l : List Retirement) : List Retirement :=
  l.map (fun r => if r.engine == e && r.place == place && r.unit == unit && !r.restored && r.replacedBy == 0xFF
    then { r with replacedBy := by' } else r)
/-- CONV_SPARE_LOW of a unit's pool after it lost a unit (R223). -/
def State.spareLow (e : Nat) (u : UnitRef) (s : State) : State :=
  let p := (s.eng e).conv.pool u
  let left := if u.dac then p.inService.length + p.spare.length else p.spare.length
  if left = (if u.dac then 15 else 2) then s.raise .convSpareLow .engine e (w1 u.lane ++ w1 u.sub ++ w1 left) else s
/-- Retires a unit (R222, R223): replaced by a READY one where it is in service, else taken out of its pool; with none READY it stays,
and CONV_NO_SPARE tells it once. -/
def State.retireUnit (d : DueUnit) (e : Nat) (s : State) : State :=
  let u := d.unit
  let p := (s.eng e).conv.pool u
  let cause := (s.eng e).conv.causeOf d
  if p.retired.contains u.unit then s.modConv e (fun k => { k with due := k.due.filter (fun x => x.unit != u) })
  else if p.inService.contains u.unit then
    match p.replacement with
    | none =>
      let s := s.modConv e (fun k => { k with due := k.due.map (fun x => if x.unit = u then { x with raised := true } else x) })
      if d.raised then s else s.raise .convNoSpare .engine e (u.word ++ w2 s.tn)
    | some r =>
      let pos := (p.inService.idxOf? u.unit).getD 0
      let s := s.modConv e (fun k => ({ k with due := k.due.filter (fun x => x.unit != u) } : Converter).modPool u (fun p =>
        { p with inService := if u.dac then p.inService.filter (· != u.unit) ++ [r]
                              else p.inService.map (fun n => if n = u.unit then r else n)
                 retired := p.retired ++ [u.unit], spare := p.spare.filter (· != r), ready := p.ready.filter (· != r) }))
      let s := if d.recorded then
          (s.modKennel (fun k => { k with retireQueue := fillEntry e u.place u.unit r k.retireQueue })).modLife
            (fun l => { l with retirements := fillEntry e u.place u.unit r l.retirements })
        else s.queueRetirement e (retireEntry s e u cause r)
      let s := s.raise .convRetire .engine e (u.word ++ w1 cause ++ w2 s.tn)
      let s := s.raise .convSpareSwap .engine e (w1 (if u.dac then u.sub else pos) ++ w1 u.unit ++ w1 r ++ w2 s.tn)
      (s.recentre e u.dac u.lane).spareLow e u
  else
    let s := s.modConv e (fun k => ({ k with due := k.due.filter (fun x => x.unit != u) } : Converter).modPool u (fun p =>
      { p with retired := p.retired ++ [u.unit], spare := p.spare.filter (· != u.unit), ready := p.ready.filter (· != u.unit) }))
    let s := if d.recorded then s else s.queueRetirement e (retireEntry s e u cause 0xFF)
    (s.raise .convRetire .engine e (u.word ++ w1 cause ++ w2 s.tn)).spareLow e u
/-- A retirement that falls due while the tile is fenced is recorded, and its swap waits (Table 7.6). -/
def State.recordDue (d : DueUnit) (e : Nat) (s : State) : State :=
  if d.recorded then s
  else (s.modConv e (fun k => { k with due := k.due.map (fun x => if x.unit = d.unit then { x with recorded := true } else x) })).queueRetirement
    e (retireEntry s e d.unit ((s.eng e).conv.causeOf d) 0xFF)
/-- The order in which retirements of one boundary are made: by place, then by position served, spares last (R222). -/
def Converter.dueOrder (k : Converter) (u : UnitRef) : Nat :=
  u.place * 256 + (((k.pool u).inService.idxOf? u.unit).getD (128 + u.unit))
/-- Makes the retirements of an engine that are due now, positions in ascending order. -/
def State.makeDue (e : Nat) (p : DueUnit → Bool) (s : State) : State :=
  ((((s.eng e).conv.due.filter (fun d => p d && decide (d.fromTick ≤ s.ticks)))).mergeSort (fun a b =>
      decide ((s.eng e).conv.dueOrder a.unit ≤ (s.eng e).conv.dueOrder b.unit))).foldl
    (fun s d => if s.fenced e then s.recordDue d e else s.retireUnit d e) s
/-- A unit becomes due: an automatic retirement takes the place of a commanded one (Table 7.6), at the earlier of their boundaries. -/
def Converter.addDue (d : DueUnit) (k : Converter) : Converter :=
  if k.due.any (fun x => x.unit == d.unit) then
    { k with
      due := k.due.map (fun x =>
      if x.unit = d.unit ∧ x.cause = 2 then { x with cause := d.cause, fromTick := min x.fromTick d.fromTick } else x) }
  else { k with due := k.due ++ [d] }

/-! ### Checking and applying (R216 to R221) -/

/-- The median of a list: the mean of the two middle values of an even number. -/
def medianOf (l : List Rat) : Rat :=
  let m := l.mergeSort (fun a b => decide (a ≤ b))
  let n := m.length
  if n % 2 = 1 then m.getD (n / 2) 0 else (m.getD (n / 2 - 1) 0 + m.getD (n / 2) 0) / 2
/-- The variance test of R216: between 1/4 and 4 times the median over the lane's in-service slices. -/
def varianceOk (vars : List (Nat × Nat × Rat)) (lane slice : Nat) (inServ : List Nat) : Bool :=
  let med := medianOf ((vars.filter (fun x => x.1 == lane && inServ.contains x.2.1)).map (·.2.2))
  (vars.find? (fun x => x.1 == lane && x.2.1 == slice)).any (fun x => decide (med ≤ 4 * x.2.2) && decide (x.2.2 ≤ 4 * med))
/-- The checks of R216; `vars` holds lane, slice and variance of the ADC slices. -/
def State.resultOk (s : State) (e : Nat) (temp : Int) (vars : List (Nat × Nat × Rat)) (m : CalMeas) : Bool :=
  let lim := absLimit m.unit.dac m.value
  let v := s.valueAt e m.unit m.value temp
  let d := (m.result : Rat) - v
  let lim' := stepLimit m.unit.dac m.value v
  decide (lim.1 ≤ m.result) && decide (m.result ≤ lim.2) && decide (d ≤ lim') && decide (-lim' ≤ d)
    && (m.unit.dac || varianceOk vars m.unit.lane m.unit.unit ((s.eng e).conv.pool m.unit).inService)
/-- One result is checked (R216, R217, R221). CONV_RETIRE_DUE is raised once for a unit, whichever of its values fail. -/
def State.checkResult (e : Nat) (temp : Int) (vars : List (Nat × Nat × Rat)) (s : State) (m : CalMeas) : State :=
  let u := m.unit
  let key := 4 * u.unit + m.value
  let p := (s.eng e).conv.pool u
  if p.retired.contains u.unit then s
  else if s.resultOk e temp vars m then
    s.modConv e (fun k => { (k.modPool u (fun p => { p with fails := cellSet p.fails key 0 0 })) with
      waiting := k.waiting ++ [{ unit := u, value := m.value, result := m.result, temp := temp }] })
  else
    let n := cellGet p.fails key 0 + 1
    let s := s.modConv e (fun k => k.modPool u (fun p => { p with fails := cellSet p.fails key n 0 }))
    let s := s.countSub .convCalRejects .engine e (b2n u.dac * 4 + u.lane) 1
    let s := if n = 1 then s.raise .convCalFail .engine e
        (u.word ++ w1 (b2n u.dac * 3 + m.value) ++ wi (roundDiv m.result 16) ++ wi (s.appliedValue e u m.value) ++ w2 s.tn) else s
    if n < 3 ∨ u.unit = 31 then s
    else if (s.eng e).conv.cfg.autoRetire then
      s.modConv e (fun k => k.addDue { unit := u, cause := if p.inService.contains u.unit then 1 else 3, fromTick := s.ticks + 1
                                       raised := false, recorded := false })
    else if n = 3 ∧ (s.eng e).conv.dueTold.contains u = false then
      (s.modConv e (fun k => { k with dueTold := k.dueTold ++ [u] })).raise .convRetireDue .engine e (u.word ++ w2 s.tn)
    else s
/-- The passing windows of a unit: a spare slice is READY after two, a segment carries its last result (R219, R220). -/
def UnitPool.window (dac : Bool) (n : Nat) (good : Bool) (p : UnitPool) : UnitPool :=
  let v := if good then (if dac then 1 else min 2 (cellGet p.passes n 0 + 1)) else 0
  { p with passes := cellSet p.passes n v 0
           ready := if dac || p.inService.contains n then p.ready
             else if v = 2 then (if p.ready.contains n then p.ready else p.ready ++ [n]) else p.ready.filter (· != n) }
/-- A spare slice whose shadowed position is replaced at the apply boundary gives no result for that window (Table 7.6). -/
def State.shadowLost (s : State) (e : Nat) (u : UnitRef) : Bool :=
  let k := (s.eng e).conv
  let p := k.pool u
  let v := p.inService.getD (k.shadowWas.getD u.lane 0) 0
  !u.dac && !p.inService.contains u.unit && p.replacement.isSome
    && k.due.any (fun d => d.unit == { u with unit := v } && decide (d.fromTick ≤ s.ticks + 1))
/-- The results of a window that a loaded layer overrules count as neither pass nor fail, and what fell due by them is
withdrawn (Table 7.6). -/
def Converter.discardWindow (now : Nat) (k : Converter) : Converter :=
  if k.applyAt.any (fun t => decide (t ≤ now)) then
    let back := fun (p q : UnitPool) => { p with fails := q.fails, passes := q.passes, ready := q.ready.filter (p.spare.contains ·) }
    { k with waiting := [], prior := [], due := k.due.filter (fun d => d.cause == 2 || d.recorded || decide (d.fromTick < now))
             adc := Vector.ofFn (fun i => back (k.adc[i]) (k.prior.getD i.val k.adc[i]))
             dac := Vector.ofFn (fun i => back (k.dac[i]) (k.prior.getD (4 + i.val) k.dac[i])) }
  else k
/-- A window of a unit ends: its passing windows are counted; a good one takes back what CONV_RETIRE_DUE has told. -/
def Converter.unitWindow (u : UnitRef) (good : Bool) (k : Converter) : Converter :=
  let k := k.modPool u (fun p => p.window u.dac u.unit good)
  if good then { k with dueTold := k.dueTold.filter (· != u) } else k
/-- The results of the window that ended with the tick before, of the halves that are valid. -/
def State.calResults (s : State) (z : FlatCal) (e : Nat) (va vd : Bool) : List CalMeas :=
  ((if va then ((List.range 4).map (s.laneResults z e)).flatten else [])
    ++ (if vd then ((List.range 16).map (fun i => s.subResults z e (i / 4) (i % 4))).flatten else [])).filter
      (fun m => !s.shadowLost e m.unit)
/-- The results of a window are checked against its mean sensor temperature (R216 to R221). -/
def State.checkWindow (e : Nat) (vars : List (Nat × Nat × Rat)) (rs : List CalMeas) (s : State) : State :=
  let k := (s.eng e).conv
  let pass := (rs.map (·.unit)).dedup.map (fun u => (u, (rs.filter (fun m => m.unit == u)).all (s.resultOk e k.meanTemp vars)))
  let s := rs.foldl (fun s m => s.checkResult e k.meanTemp vars m) s
  pass.foldl (fun s x => s.modConv e (fun k => k.unitWindow x.1 x.2)) s
/-- CAL_WINDOW_CHECK: the results of a window that ended with the tick before are checked (R218); one whose apply boundary falls in the same
brace as an earlier one's joins it (Table 7.6). The operands are free: the values the manual does not state (FlatCal). -/
def execCalWindowCheck (e : Fin 48) (offset gain skew : Rat) (s : State) : Res :=
  match (s.eng e).conv.ended with
  | some (tn, va, vd) =>
    if s.tn = tn + 1 then
      let before := (s.eng e).conv.adc.toList ++ (s.eng e).conv.dac.toList
      let z : FlatCal := { offset, gain, skew }
      let s := s.checkWindow e ((s.eng e).conv.variances z) (s.calResults z e va vd)
      .next (s.modConv e (fun k => { k with
        ended := none, applyAt := some (k.applyAt.getD (s.ticks + 1)), applyMore := k.applyMore + b2n k.applyAt.isSome
        prior := if k.applyAt.isSome then k.prior else before }))
    else .next s
  | none => .next s
/-- A passing result moves the learned points (R217). -/
def State.applyResult (e : Nat) (s : State) (r : CalPending) : State :=
  let ws := calWeights r.temp
  let d : Rat := (r.result : Rat) - s.valueAt e r.unit r.value r.temp
  let sq := ws.foldl (fun x p => x + p.2 * p.2) (0 : Rat)
  ws.foldl (fun s p =>
    let i := learnedIdx p.1 r.unit.lane (valueWord r.unit r.value)
    s.modConv e (fun k => k.learn e i (s.learnedAt e i + roundRat (d * p.2 / sq)))) s
/-- The rotation of one sub-DAC (R215): the standby segment idle longest for the in-service one that has served longest. -/
def UnitPool.rotate (p : UnitPool) : UnitPool :=
  match p.inService, p.spare with
  | a :: r, b :: q =>
    { p with inService := r ++ [b], spare := q ++ [a]
             ready := (p.ready.filter (· != b)) ++ (if cellGet p.passes a 0 = 1 then [a] else []) }
  | _, _ => p
/-- The rotations of n windows. -/
def UnitPool.rotations (p : UnitPool) : Nat → UnitPool
  | 0 => p
  | n + 1 => (p.rotations n).rotate
/-- CAL_APPLY: from TN_e + 2 passing results, rotations, retirements and swaps take effect; deferred in brace (R218, Table 7.6). -/
def execCalApply (e : Fin 48) (s : State) : Res :=
  match (s.eng e).conv.applyAt with
  | some t =>
    if t ≤ s.ticks ∧ s.power.braceEffect = false then
      if s.fenced e then
        .next ((s.modConv e (fun k => { k with applyAt := none, applyMore := 0, waiting := [], prior := [] })).makeDue e (fun _ => true))
      else
        let k0 := (s.eng e).conv
        let s := s.modConv e (fun k => { k with applyAt := none, applyMore := 0, waiting := [], prior := [] })
        let s := k0.waiting.foldl (fun s r => s.applyResult e r) s
        let s := s.modConv e (fun k => { k with dac := k.dac.map (fun p => p.rotations (k0.applyMore + 1)) })
        .next ((s.makeDue e (fun _ => true)).recentreAll e)
    else .next s
  | none => .next s
/-- What takes effect at a tick boundary without a window's results: a sensor reading (R211), a loaded layer, and commanded or recorded
retirements, which wait for the end of brace and, recorded, of a fence (Table 7.6). -/
def State.convBoundary (e : Nat) (s : State) : State :=
  let s := s.modConv e (fun k => { k with temp := k.tempNext.getD k.temp, tempNext := none })
  let s := match (s.eng e).conv.learnedNext with
    | some l => (s.modConv e (fun k => let k := k.discardWindow s.ticks
        { k with learned := l, learnedNext := none, adc := k.adc.map (fun (p : UnitPool) => { p with fails := [] })
                 dac := k.dac.map (fun (p : UnitPool) => { p with fails := [] }) })).recentreAll e
    | none => s
  let s := if s.power.braceEffect then s else s.makeDue e (fun d => d.cause == 2 || d.recorded)
  s.windowStart e
/-- CONVERTER_SENSOR_READ: every 64 ticks the converter sensor is read, in 0.25 °C; the values follow it from the next tick boundary
(R211). -/
def execConverterSensorRead (e : Fin 48) (temp : Int) (s : State) : Res :=
  if s.tn % 64 = 0 then .next (s.modConv e (fun k => { k with tempNext := some temp })) else .next s

/-! ### The life record (R224, R225) -/

/-- RETIREMENT_ENTRY_WRITE: the oldest queued entry is written to the retirement list; a full list keeps it out. -/
def execRetirementEntryWrite (s : State) : Res :=
  match s.kennel.retireQueue with
  | [] => .next s
  | r :: q =>
    let s := s.modKennel (fun k => { k with retireQueue := q })
    let s := s.lifeBump 32 4294967295 1 (·.retireCount) (fun v r => { r with retireCount := v })
    if s.kennel.life.retirements.length < 256 then
      .next (s.modLife (fun l => { l with retirements := l.retirements ++ [r] }))
    else .next (s.raise .retireListFull .engine r.engine (w1 (r.place * 256 + r.unit)))
/-- Applies one listed retirement to the starting assignment (R205, R224). -/
def Converter.applyRetired (k : Converter) (r : Retirement) : Converter :=
  let u : UnitRef := { dac := bit r.place 4, lane := field r.place 2 2, sub := field r.place 0 2, unit := r.unit }
  if r.restored then k
  else k.modPool u (fun p =>
    if p.inService.contains r.unit then
      let n := if p.spare.contains r.replacedBy then some r.replacedBy else p.spare.head?
      match n with
      | some n => { p with inService := p.inService.map (fun x => if x = r.unit then n else x), spare := p.spare.filter (· != n)
                           retired := p.retired ++ [r.unit] }
      | none => p
    else { p with spare := p.spare.filter (· != r.unit), retired := p.retired ++ [r.unit] })
/-- Every listed retirement is applied before the first tick (R224). -/
def State.applyRetirements (s : State) : State :=
  s.kennel.life.retirements.foldl (fun s r => if r.restored then s
    else (s.modConv r.engine (fun k => k.applyRetired r)).recentre r.engine (bit r.place 4) (field r.place 2 2)) s

/-! ### Commands (Table 7.5) -/

/-- State of a unit: 0 in service, 1 READY, 2 not READY, 3 retired. -/
def UnitPool.stateOf (p : UnitPool) (n : Nat) : Nat :=
  if p.retired.contains n then 3 else if p.inService.contains n then 0 else if p.ready.contains n then 1 else 2
/-- Word w of a list of two-bit codes, sixteen to a word. -/
def pairWord (l : List Nat) (w : Nat) : Word :=
  BitVec.ofNat 32 (((List.range 16).map (fun i => l.getD (16 * w + i) 0 * 4 ^ (if Config.pairsLow then i else 15 - i))).foldl (· + ·) 0)
/-- CONV_STATUS words of a lane, `sel` its word 1: temperature, unit map, states, failure counts, number of due retirements. -/
def Converter.statusWords (k : Converter) (sel : Nat) : List Word :=
  let dac := bit sel 2
  let lane := field sel 0 2
  let ps : List UnitPool := if dac then (List.range 4).map (fun d => vget k.dac (4 * lane + d) (.reset 15 2))
    else [vget k.adc lane (.reset 96 8)]
  let n := if dac then 17 else 104
  let all := fun (f : UnitPool → Nat → Nat) => (ps.map (fun p => (List.range n).map (f p))).flatten
  let map : List Word := if dac then
      (ps.map (fun p => w1 (bitmapOf p.inService))).flatten ++ List.replicate 20 0
    else packOctets ((ps.headD (.reset 96 8)).inService.map (BitVec.ofNat 8))
  wi k.temp ++ map ++ (List.range 7).map (pairWord (all UnitPool.stateOf))
    ++ (List.range 7).map (pairWord (all (fun p i => min 3 (p.failures i))))
    ++ w1 ((k.due.filter (fun d => d.unit.dac == dac && d.unit.lane == lane)).length)
/-- CONV_STATUS. -/
def specConvStatus : OpSpec :=
  { code := 0x130, len := lenIs 2, target := tgtEngine, ranges := [rngU 1 0 7]
    eff := .now (fun c s => (s, (s.eng (cIdx c)).conv.statusWords (cw c 1))) }
/-- CONV_STATUS: returns a lane's unit map, states, failure counts and temperature. -/
def execConvStatus (c : Cmd) (s : State) : Res := runOp specConvStatus c s
/-- The learned-layer image of an engine (Table 7.9). -/
def State.convImage (s : State) (e : Nat) : List Octet :=
  let body := octetsLE 8 s.tn ++ ((List.range 12544).map (fun i => octetsLE 4 (ux 32 (s.learnedAt e i)))).flatten
  octetsBE 1 1 ++ octetsBE 1 e ++ octetsBE 2 0 ++ octetsLE 4 (crc32 body) ++ body
/-- CONV_CAL_READ (R227). -/
def specConvCalRead : OpSpec :=
  { code := 0x131, cls := .long, len := lenIs 2, target := tgtEngine, ranges := [rngChan], refuse := fun s c => dmaRefusal s c 50192
    eff := .long (dmaSend (fun c s => s.convImage (cIdx c))) }
/-- CONV_CAL_READ: exports the learned layer by DMA. -/
def execConvCalRead (c : Cmd) (s : State) : Res := runOp specConvCalRead c s
/-- CONV_CAL_LOAD (R226, R227). -/
def specConvCalLoad : OpSpec :=
  { code := 0x132, cls := .long, len := lenIs 2, target := tgtEngine, ranges := [rngChan], fence := fenceEngine
    refuse := fun s c => (inTraffic s c).orElse (fun _ => dmaRefusal s c 50192), eff := .long dmaEffect }
/-- CONV_CAL_LOAD: imports a learned layer by DMA. -/
def execConvCalLoad (c : Cmd) (s : State) : Res := runOp specConvCalLoad c s
/-- Lane word v's limits: ADC offset, gain, skew, then the DAC's. -/
def wordLimit (v : Nat) : Int × Int :=
  if v < 312 then absLimit false (v / 104) else if v < 324 then absLimit true ((v - 312) / 4) else absLimit true 3
/-- The words of a learned-layer image. -/
def imageWords (im : List Octet) : List Int :=
  (List.range 12544).map (fun i => sx 32 (ofOctets ((im.drop (16 + 4 * i)).take 4).reverse))
/-- A loaded image is checked and staged for the next tick boundary (R227). -/
def State.convCommit (e : Nat) (im : List Octet) (s : State) : Except (Status × Nat) State :=
  let ws := imageWords im
  if im.getD 0 0 ≠ 1 ∨ (im.getD 1 0).toNat ≠ e ∨ crc32 (im.drop 8) ≠ ofOctets ((im.drop 4).take 4).reverse then .error (.parameterInvalid, 1)
  else match (List.zipIdx ws).find? (fun x => let l := wordLimit (x.2 % 392); decide (x.1 < l.1) || decide (l.2 < x.1)) with
    | some x => .error (.coefficientInvalid, x.2)
    | none => .ok (s.modConv e (fun k => { k with
        learnedNext := some ((List.zipIdx ws).filterMap (fun x => if x.1 = Config.factory e x.2 then none else some (x.2, x.1))) }))
/-- CONV_CAL_FACTORY (Table 7.5). -/
def specConvCalFactory : OpSpec :=
  { code := 0x133, len := lenIs 1, target := tgtEngine, fence := fenceEngine, refuse := inTraffic
    eff := .boundary 0x133 (fun c s => (s.modConv (cIdx c) (fun k => { k.discardWindow s.ticks with learned := [] })).recentreAll
      (cIdx c)) }
/-- CONV_CAL_FACTORY: copies the factory layer over the learned layer. -/
def execConvCalFactory (c : Cmd) (s : State) : Res := runOp specConvCalFactory c s
/-- A converter unit: SUB [4] converter, [3:2] lane, [1:0] sub-DAC, 0 for the ADC. -/
def tgtUnit : State → Nat → Nat → Nat → Bool := fun _ k i b => k == 1 && decide (i < 48) && decide (b < 32) && (bit b 4 || b % 4 == 0)
/-- The unit's number. -/
def rngUnit : Nat × (State → Cmd → Bool) := (1, fun _ c => decide (cw c 1 < if bit (cSub c) 4 then 17 else 104))
/-- CONV_RETIRE (R226): at the second tick boundary after parsing. -/
def specConvRetireCmd : OpSpec :=
  { code := 0x134, len := lenIs 2, target := tgtUnit, ranges := [rngUnit], fence := fenceEngine
    refuse := fun s c =>
      let p := (s.eng (cIdx c)).conv.pool (cmdUnit c)
      if p.inService.contains (cw c 1) && p.replacement.isNone then some (.noSpare, 0) else none
    eff := .now (fun c s => (s.modConv (cIdx c) (fun k =>
      if k.due.any (fun d => d.unit == cmdUnit c) then k
      else { k with due := k.due ++ [{ unit := cmdUnit c, cause := 2, fromTick := s.ticks + 2, raised := false, recorded := false }] }), [])) }
/-- CONV_RETIRE: retires one converter unit with cause MANUAL. -/
def execConvRetireCmd (c : Cmd) (s : State) : Res := runOp specConvRetireCmd c s
/-- A unit back in its pool, as a spare without passing windows. -/
def UnitPool.restored (n : Nat) (p : UnitPool) : UnitPool :=
  { p with retired := p.retired.filter (· != n), spare := p.spare ++ [n], passes := cellSet p.passes n 0 0
           fails := p.fails.filter (fun x => x.1 / 4 != n) }
/-- The entries of a unit marked restored. -/
def markRestored (e place unit : Nat) (l : List Retirement) : List Retirement :=
  l.map (fun r => if r.engine == e && r.place == place && r.unit == unit then { r with restored := true } else r)
/-- CONV_RESTORE (R226). -/
def specConvRestore : OpSpec :=
  { code := 0x135, len := lenIs 2, target := tgtUnit, ranges := [rngUnit], fence := fenceEngine
    refuse := fun s c =>
      if ((s.eng (cIdx c)).conv.pool (cmdUnit c)).retired.contains (cw c 1) then none else some (.notRetired, 0)
    eff := .now (fun c s =>
      let mark := markRestored (cIdx c) (cSub c) (cw c 1)
      (((s.modConv (cIdx c) (fun k => k.modPool (cmdUnit c) (UnitPool.restored (cw c 1)))).modKennel
        (fun k => { k with retireQueue := mark k.retireQueue })).modLife (fun l => { l with retirements := mark l.retirements }), [])) }
/-- CONV_RESTORE: returns a retired unit to the pool. -/
def execConvRestore (c : Cmd) (s : State) : Res := runOp specConvRestore c s
/-- CONV_CAL_SET (Table 7.3). -/
def specConvCalSet : OpSpec :=
  { code := 0x136, len := lenIs 5, target := tgtEngine, fence := fenceEngine
    ranges := [rngU 1 0 1, rngU 2 0 1, rngU 3 1 500, rngU 4 0 1]
    eff := .now (fun c s => (s.modConv (cIdx c) (fun k => { k with
      cfgNext := some { adc := cw c 1 == 1, dac := cw c 2 == 1, window := 125 * cw c 3, autoRetire := cw c 4 == 1 }
      cfg := { k.cfg with autoRetire := cw c 4 == 1 } }), []))
    read := readEng (fun g => let k := g.conv.cfg
      w1 (b2n k.adc) ++ w1 (b2n k.dac) ++ w1 (k.window / 125) ++ w1 (b2n k.autoRetire)) }
/-- CONV_CAL_SET: sets calibration parameters. -/
def execConvCalSet (c : Cmd) (s : State) : Res := runOp specConvCalSet c s

end Sys2Proof.Machine
end

