-- ==== Sys2Proof/Machine/CaptureTick.lean ====
section
/-! DEFINITION. What each tick gives a capture that fills (Table 17.5). SYMBOLS come with their frame (Machine/Frame.lean).
What it chooses or infers where the manual is silent, with its marks: log entry 33. -/
namespace Sys2Proof.Machine

/-- A record of TAPS: TN, c_s in 1/256 tap, and the four filters of a subcarrier, I then Q in units of 2⁻¹². -/
def Equaliser.tapRecord (q : Equaliser) (tn sc : Nat) : List Octet :=
  let v := fun (z : Int) => octetsLE 2 (ux 16 (clampI (-32768) 32767 (roundDiv z 16)))
  let tap := fun (f k : Nat) => ((q.taps.getD sc []).getD f []).getD k (0, 0)
  octetsLE 8 tn ++ octetsLE 4 (q.centroid.getD sc 3840) ++ List.replicate 4 0
    ++ (List.range 4).flatMap (fun f => (List.range 31).flatMap (fun k => v (tap f k).1 ++ v (tap f k).2))
/-- The codes of a lane after slice correction, in whole LSB. -/
def State.correctedCodes (s : State) (e : Nat) (o : EngineObs) (lane : Nat) : List Octet :=
  (s.laneSamples e lane ((s.adcCodes e o).getD lane [])).map (fun z => codeOctet (roundDiv z 64))
/-- What the running tick gives a capture of engine `e`, as far as the tick shows it. -/
def State.captureOctets (s : State) (e : Nat) (c : Capture) (o : Option EngineObs) : List Octet :=
  let lane := field c.sub 0 4
  match c.source, o with
  | 1, some o => ((s.adcCodes e o).getD lane []).map codeOctet
  | 2, some o => s.correctedCodes e o lane
  | 3, _ => (List.range 360000).map (fun n => codeOctet (s.dacCode e lane n))
  | 4, some o =>
    let l := (List.range 4).map (s.correctedCodes e o)
    (List.range ((l.map List.length).foldl max 0)).flatMap (fun n => l.map (fun x => x.getD n 0))
  | 6, _ => (s.eng e).eq.tapRecord s.tn (field c.sub 0 4)
  | 7, some o => s.correctedCodes e o lane
  | _, _ => []
/-- A tick that ends gives a capture that fills what it shows. -/
def State.captureTake (k : Nat) (o : Option EngineObs) (s : State) : State :=
  let c := (s.tile k).capture
  let e := c.engine k
  if c.state == .filling then
    let x := s.captureOctets e c o
    if x.isEmpty then s
    else s.modTile k (fun t => { t with
      capture := { t.capture with taken := t.capture.taken ++ [((s.ticks - c.begun) * c.rate (s.eng e).rxLayout, x)] } })
  else s

end Sys2Proof.Machine
end

