-- ==== Sys2Proof/Machine/Isolate.lean ====
section
/-! DEFINITION. Isolating an engine and fencing a line tile (R490 to R496).
What it chooses or infers where the manual is silent, with its marks: log entry 35. -/
namespace Sys2Proof.Machine

/-! ### Isolation (R490 to R494) -/

/-- An isolation change is told and counted (R490). -/
def State.isolateTold (e : Nat) (s : State) : State := (s.lifeIsolation e).raise .isolateChange .engine e []
/-- The isolation of an engine becomes `i` (R491, R492, R494): SQUELCH is the ISOLATE reason, the exchange ports close on entry, an
uncommitted announcement aborts, and a change of LOOPBACK restarts acquisition. -/
def State.setIso (e : Nat) (i : Option Iso) (s : State) : State :=
  let old := (s.eng e).loopback
  let s := s.modEng e (fun g => { g with
    iso := i, tx := { g.tx with
    reason := { g.tx.reason with isolate := match i with | some x => x.squelch | none => false } } })
  let s := if i.isSome then s.abortAnn e .isolate else s
  let s := if (s.eng e).loopback = old then s else s.acqRestart e
  s.isolateTold e
/-- The isolation a command asks for. -/
def isoOf (c : Cmd) : Iso := { squelch := bit (cw c 1) 0, loopback := field (cw c 2) 0 4, pattern := bit (cw c 2) 4 }
/-- ENGINE_ISOLATE (R490); with ENGINE_RESTORE it forms one resource per engine (R44). -/
def specEngineIsolate : OpSpec :=
  { code := 0xA00, align := .yes, len := lenIs 3, target := tgtEngine, fence := fenceEngine
    ranges := [rngU 1 0 1, rngP 2 (fun w => decide (field w 0 4 ≤ 2) && decide (w >>> 4 ≤ 1))]
    refuse := fun s c => if (isoOf c).pattern && (s.eng (cIdx c)).zr then some (.mode, 0) else none
    eff := .boundary 0xA00 (fun c s => s.setIso (cIdx c) (some (isoOf c))) }
/-- ENGINE_ISOLATE: one engine is isolated at TN. -/
def execEngineIsolate (c : Cmd) (s : State) : Res := runOp specEngineIsolate c s
/-- The engine is isolated, or an isolation of it is pending (R490). -/
def State.isoPending (s : State) (e : Nat) : Bool :=
  (s.eng e).iso.isSome || s.proto.armed.any (fun a => a.opcode == 0xA00 && a.key.index == e)
/-- ENGINE_RESTORE (R494). -/
def specEngineRestore : OpSpec :=
  { code := 0xA01, align := .yes, len := lenIs 1, target := tgtEngine, fence := fenceEngine
    refuse := fun s c => if s.isoPending (cIdx c) then none else some (.mode, 0)
    eff := .boundary 0xA00 (fun c s => if (s.eng (cIdx c)).iso.isSome then s.setIso (cIdx c) none else s) }
/-- ENGINE_RESTORE: isolation ends at TN. -/
def execEngineRestore (c : Cmd) (s : State) : Res := runOp specEngineRestore c s

/-! ### Fencing (R495, R496) -/

/-- The engines of a line tile. -/
def tileEngines (k : Nat) : List Nat := [4 * k, 4 * k + 1, 4 * k + 2, 4 * k + 3]
/-- A command names an engine of line tile k. -/
def onTile (k : Nat) (c : Cmd) : Bool := cKind c == 1 && tileOf (cIdx c) == k
/-- Fencing ends what one engine of the tile does (R495), empties both service-channel queues (R86) and drops a
pending receive key switch (Table 12.6). -/
def State.fenceEngineStep (e : Nat) (s : State) : State :=
  let s := s.modTx e (fun t => { t with reason := { t.reason with fence := true } })
  let s := if (s.eng e).acq.state == .disabled then s else s.alignRelease e .disabled
  let s := (s.dropSvc e).emptySlots e [0, 1, 2, 3] .fence
  let s := if (s.eng e).iso.isSome then s.setIso e none else s
  s.modEng e (fun g => { g with
    key := { g.key with rxSwitch := Option.none }, hubSlots := [], frameSlots := [], cap := g.cap.filter (fun c => c.txDone || c.rxDone) })
/-- A Pack's capacity change that still waits for a member on the fenced tile cannot complete: it is answered CANCELLED (R252, R495). -/
def State.fencePackChange (p k : Nat) (s : State) : State :=
  if (s.pack p).capPending.any (fun x => x.2.any (fun e => tileOf e == k)) then
    (s.modPack p (fun x => { x with capPending := Option.none })).finishJobs (jobOn 0x212 p) .cancelled Ev.fenceChange.code []
  else s
/-- TILE_FENCE takes effect (R495): pending changes of the tile's engines, and a pending start of its
capture unit, are answered CANCELLED, a KEY_LOAD by the emptying of its slot (R355), and the tile begins to power down. -/
def State.fenceTile (k : Nat) (s : State) : State :=
  let s := s.cancelArmed (fun a => (a.key.kind == 1 && tileOf a.key.index == k && a.opcode != 0x501)
    || (a.opcode == 0x701 && cIdx a.cmd == k)) .cancelled Ev.fenceChange.code
  let s := s.finishJobs (fun j => onTile k j.cmd) .cancelled Ev.fenceChange.code []
  let s := s.modTile k (fun t => { t with fenced := true, power := .goingDown })
  let s := (tileEngines k).foldl (fun s e => s.fenceEngineStep e) s
  let s := (List.range 24).foldl (fun s p => s.fencePackChange p k) s
  s.withdrawCapture k none .fence
/-- The change of TILE_FENCE at its boundary; on a tile already fenced it only joins the power-down. -/
def applyFence (c : Cmd) (s : State) : State :=
  let k := cIdx c
  match (s.tile k).fenced, (s.tile k).power with
  | false, _ => s.fenceTile k
  | true, .off => s.finishJobs (jobOn 0xA02 k) .ok 0 []
  | true, .comingUp => (s.finishJobs (jobOn 0xA03 k) .cancelled Ev.fenceChange.code []).modTile k (fun t => { t with power := .goingDown })
  | true, _ => s
/-- TILE_FENCE (R495): the effect comes at the first tick boundary after parsing, FINAL with the end of the power-down. -/
def specTileFence : OpSpec :=
  { code := 0xA02, cls := .long, len := lenIs 1, target := tgtTile
    eff := .long (fun j c s => (s.modProto (fun p => { p with jobs := p.jobs ++ [j] })).arm
      { due := s.tn + 1, key := keyOf 0xA02 c, opcode := 0xA02, cmd := c, ticket := none }) }
/-- TILE_FENCE: one line tile is taken out of service. -/
def execTileFence (c : Cmd) (s : State) : Res := runOp specTileFence c s
/-- The FINAL response and FENCE_CHANGE at the end of a power change of a tile. -/
def State.fenceDone (op k : Nat) (s : State) : State := (s.finishJobs (jobOn op k) .ok 0 []).raise .fenceChange .lineTile k []
/-- TILE_POWER_DOWN_DONE: the power-down of a fenced tile is complete (R495). -/
def execTilePowerDownDone (k : Fin 12) (s : State) : Res :=
  if (s.tile k).power == .goingDown then .next ((s.modTile k (fun t => { t with power := .off })).fenceDone 0xA02 k) else .next s
/-- TILE_UNFENCE (R496): the tile powers up; on a tile in service it has nothing to do. -/
def startUnfence (j : Job) (c : Cmd) (s : State) : State :=
  let k := cIdx c
  let s := s.modProto (fun p => { p with jobs := p.jobs ++ [j] })
  if (s.tile k).fenced then
    let s := if (s.tile k).power == .goingDown then s.finishJobs (jobOn 0xA02 k) .cancelled Ev.fenceChange.code [] else s
    s.modTile k (fun t => { t with power := .comingUp })
  else s.finishJobs (jobOn 0xA03 k) .ok 0 []
/-- One engine of a tile that leaves its fence: the FENCE bit is cleared, and a receiver with capacity leaves DISABLED. -/
def State.unfenceEngine (e : Nat) (s : State) : State :=
  s.modEng e (fun g => { g with
    tx := { g.tx with reason := { g.tx.reason with fence := false } }
    acq := if g.kRx ≠ 0 ∧ g.acq.state = .disabled then { g.acq with state := .noSignal, noSyncRaised := false } else g.acq
    losIn := false })
/-- TILE_UNFENCE. -/
def specTileUnfence : OpSpec :=
  { code := 0xA03, cls := .long, len := lenIs 1, target := tgtTile, eff := .long startUnfence
    leads := fun c s => if (s.tile (cIdx c)).fenced then (tileEngines (cIdx c)).foldl (fun s e => s.unfenceEngine e) s else s }
/-- TILE_UNFENCE: a fenced tile is put back into service. -/
def execTileUnfence (c : Cmd) (s : State) : Res := runOp specTileUnfence c s
/-- TILE_POWER_UP_DONE: the tile is powered, its configuration replayed, and the FENCE bit cleared (R496). -/
def execTilePowerUpDone (k : Fin 12) (s : State) : Res :=
  if (s.tile k).power == .comingUp then
    let s := s.modTile k (fun t => { t with power := .on, fenced := false })
    .next (((tileEngines k).foldl (fun s e => s.unfenceEngine e) s).fenceDone 0xA03 k)
  else .next s

end Sys2Proof.Machine
end

