-- ==== Sys2Proof/Machine/Recovery.lean ====
section
/-! DEFINITION. Headless hold, the watchers and the last-resort timer (R485 to R489), and the boot of firmware (R366, R367, R521,
R522).
What it chooses or infers where the manual is silent, with its marks: log entry 21. -/
namespace Sys2Proof.Machine

/-! ### Headless hold (R485) -/

/-- Causes of Table "Last cause" of R489. -/
def causeHeartbeat : Nat := 1
def causeTrap : Nat := 2
def causeBoot : Nat := 3
def causeLimit : Nat := 4
def causeExpired : Nat := 5

/-- Headless hold begins, unless it is on. -/
def State.enterHeadless (s : State) : State :=
  if s.recovery.headless.isSome then s
  else ((s.modRec (fun r => { r with headless := some (s.ticks, s.tn) })).raise .headlessEnter .device 0 []).refreshAlert
/-- An intervention entry of the life record (Table 18.8): actor, cause; the log holds 64. -/
def State.intervene (actor cause : Nat) (s : State) : State :=
  let n := s.kennel.life.interventions.length
  if n < 64 then
    let s := s.modLife (fun l => { l with interventions := l.interventions ++ [{ actor := actor, cause := cause, poh := l.poh, tn := s.tn }] })
    if n = 63 then s.lifeFull 2016 else s
  else s
/-- FW_RESTARTS by cause in the life record. -/
def State.lifeRestart (cause : Nat) (s : State) : State :=
  if cause = causeHeartbeat then s.lifeBump 1984 4294967295 1 (·.restartHeartbeat) (fun v r => { r with restartHeartbeat := v })
  else if cause = causeTrap then s.lifeBump 1988 4294967295 1 (·.restartTrap) (fun v r => { r with restartTrap := v })
  else s.lifeBump 1992 4294967295 1 (·.restartBoot) (fun v r => { r with restartBoot := v })
/-- Ticks in 600 s: the span in which a watcher makes at most 3 restarts (R488). -/
def restartSpan : Nat := 375000000
/-- The restarts of a list that lie in the last 600 s. -/
def recentRestarts (now : Nat) (l : List Nat) : List Nat := l.filter (fun t => decide (now < t + restartSpan))
/-- The Shepherd declares firmware down (R487): the cores are held in reset for 1 ms and boot again; at the fourth need in 600 s they
stay in reset and the Shepherd is HELD (R488). -/
def State.declareDown (cause : Nat) (s : State) : State :=
  let s := s.enterHeadless
  let recent := recentRestarts s.ticks s.recovery.fwRestarts
  if 3 ≤ recent.length then
    let s := s.modRec (fun r => { r with fw := .inReset, bootAt := none, shep := .held, lastCause := causeLimit, restartCause := none
                                         fwRestarts := recent })
    ((s.lifeBump 2000 4294967295 1 (·.holds) (fun v r => { r with holds := v })).intervene 1 causeLimit).refreshAlert
  else
    let s := s.modRec (fun r => { r with fw := .inReset, bootAt := some (s.ticks + 625), shep := .restarting
                                         interventions := r.interventions + 1, lastCause := cause, restartCause := some cause
                                         fwRestarts := s.ticks :: recent })
    ((s.lifeRestart cause).intervene 1 cause).refreshAlert
/-- The Shepherd watches firmware: it runs, and neither reset pin nor the last-resort timer governs. -/
def State.shepWatches (s : State) : Bool :=
  (s.recovery.shep == .watching || s.recovery.shep == .restarting) && !s.recovery.expired && s.proto.mgmtResetArmed.isNone
    && !s.sysHeld
/-- The Shepherd runs, and so kicks the last-resort timer: HELD holds the cores, not itself (R488, R489). -/
def State.shepRuns (s : State) : Bool :=
  s.recovery.shep != .stopped && s.recovery.shep != .lastResort && !s.power.mgmtRstLow && !s.sysHeld
/-- FW_HEARTBEAT: firmware's heartbeat reaches the Shepherd. -/
def execFwHeartbeat (s : State) : Res :=
  if s.recovery.fw == .running then .next (s.modRec (fun r => { r with fwBeat := s.ticks })) else .next s
/-- SHEPHERD_HEARTBEAT: the Shepherd's heartbeat reaches firmware. -/
def execShepherdHeartbeat (s : State) : Res :=
  if s.shepWatches then .next (s.modRec (fun r => { r with shepBeat := s.ticks })) else .next s
/-- HEARTBEAT_TIMEOUT: no firmware heartbeat for 100 ms (R487). -/
def execHeartbeatTimeout (s : State) : Res :=
  if s.recovery.fw == .running && s.shepWatches && decide (s.recovery.fwBeat + 62500 ≤ s.ticks) then .next (s.declareDown causeHeartbeat)
  else .next s
/-- FW_FATAL_TRAP: firmware reports a fatal trap (R487). -/
def execFwFatalTrap (s : State) : Res :=
  if s.recovery.fw == .running && s.shepWatches then .next (s.declareDown causeTrap) else .next s
/-- FW_BOOT_TIMEOUT: firmware has not reported running 10 s after its image ran (R367, R487); a trial image loses its trial and the
boot preference goes to the other slot. -/
def execFwBootTimeout (s : State) : Res :=
  if s.recovery.fw == .booting && s.dev.stage == .running && s.shepWatches && decide (s.recovery.bootStart + 6250000 ≤ s.ticks) then
    let s := s.modDev (fun d => { d with bootErr := 6 })
    let s := if s.sec.trialBoot then s.modSettings (fun k => { k with trial := false, bootPref := !k.bootPref }) else s
    .next (s.declareDown causeBoot)
  else .next s
/-- SHEPHERD_HEARTBEAT_TIMEOUT: no Shepherd heartbeat for 100 ms makes firmware restart it, at most 3 times in 600 s (R487, R488). -/
def execShepherdHeartbeatTimeout (s : State) : Res :=
  if s.fwUp && s.shepWatches && decide (s.recovery.shepBeat + 62500 ≤ s.ticks) then
    let recent := recentRestarts s.ticks s.recovery.shepRestarts
    if 3 ≤ recent.length then
      .next (((s.modRec (fun r => { r with shep := .stopped, shepRestarts := recent })).intervene 2 causeLimit).refreshAlert)
    else
      let s := s.modRec (fun r => { r with shepBeat := s.ticks, shepRestarts := s.ticks :: recent })
      let s := s.lifeBump 1996 4294967295 1 (·.shepRestarts) (fun v r => { r with shepRestarts := v })
      .next ((s.intervene 2 causeHeartbeat).raise .shepherdRestarted .device 0 [])
  else .next s
/-- LAST_RESORT_KICK: firmware or the Shepherd restarts the last-resort timer (R489). -/
def execLastResortKick (s : State) : Res :=
  if (s.recovery.fw == .running || s.shepRuns) && !s.recovery.expired then .next (s.modRec (fun r => { r with kick := s.ticks }))
  else .next s
/-- LAST_RESORT_EXPIRY: 2 s after the latest kick both the cores and the Shepherd are held in reset; MGMT_RST_N while it is low keeps that
state ended (R489). -/
def execLastResortExpiry (s : State) : Res :=
  if !s.recovery.expired && !s.sysHeld && !s.power.mgmtRstLow && decide (s.recovery.kick + 1250000 ≤ s.ticks) then
    let s := s.enterHeadless
    let s := s.modRec (fun r => { r with expired := true, fw := .inReset, bootAt := none, restartCause := none, shep := .lastResort
                                         lastCause := causeExpired })
    let s := s.lifeBump 2004 4294967295 1 (·.lastResorts) (fun v r => { r with lastResorts := v })
    .next ((s.intervene 3 causeExpired).refreshAlert)
  else .next s

/-! ### Boot (R366, R367, R521, R522) -/

/-- The first of two slots, starting with the preferred one, that is valid with SVN at least ROLLBACK. -/
def bootSlot (v : Vector FwSlot 2) (pref : Bool) (rollback : Fin 65) : Option Nat :=
  [b2n pref, b2n (!pref)].find? (fun i => (vget v i FwSlot.reset).valid && decide (rollback ≤ (vget v i FwSlot.reset).svn))
/-- The boot ends without an image. -/
def State.bootFailed (err : Nat) (s : State) : State :=
  (s.modDev (fun d => { d with stage := .failed, bootErr := err, bootGo := false })).refreshAlert
/-- An image runs: STAGE is RUNNING and the 10 s for its report begin. -/
def State.bootRuns (slot : Bool) (image shep : FwSlot) (trial : Bool) (s : State) : State :=
  let s := s.modDev (fun d => { d with stage := .running, fwSlot := slot, bootErr := 0, bootGo := false, bootStage := [] })
  ({ s with sec := { s.sec with running := image, shepRunning := shep, trialBoot := trial } }).modRec (fun r => { r with
    bootStart := s.ticks, shepBeat := s.ticks }) |>.refreshAlert
/-- Boot from flash under R367; a trial image that failed to report running is told first. The Shepherd goes on with its image where it was
not itself reset (R483, R523). -/
def State.bootFlash (s : State) : State :=
  let k := s.kennel.settings
  let s := if s.sec.trialBoot && !k.trial then
      s.raise .fwTrialFailed .device 0 (w1 (b2n (!k.bootPref)) ++ w1 (vget s.sec.fw (b2n (!k.bootPref)) FwSlot.reset).version)
    else s
  match bootSlot s.sec.fw k.bootPref s.sec.rollback with
  | some i =>
    let shep := if s.sec.shepRunning.valid then s.sec.shepRunning
      else match bootSlot s.sec.shep k.bootPref s.sec.rollback with
        | some j => vget s.sec.shep j FwSlot.reset
        | none => FwSlot.reset
    s.bootRuns (i == 1) (vget s.sec.fw i FwSlot.reset) shep (k.trial && i == b2n k.bootPref)
  | none => if s.dev.bootSrc = 0 then s.bootFailed 1 else s.modDev (fun d => { d with stage := .waitHost, bootErr := 1 })
/-- A flash or host image as its header describes it, with SHA-384 of all its octets: none where the signature fails, or its length or
digest is not that of what follows the header (R366). DEDUCED (log entry 31): the digest of the header covers what follows it, and the
measurement of R365 the header too. -/
def imageSlot (image : List Octet) : Option FwSlot :=
  (Config.imageHeader image).bind (fun h =>
    let body := image.drop h.1
    if body.length = h.2.2.2.1 ∧ sha384 body = h.2.2.2.2
    then some { valid := true, version := h.2.1, svn := h.2.2.1, length := h.2.2.2.1, digest := sha384 image } else none)
/-- Both images of a host image are verified and run from RAM (R522). -/
def State.bootHost (s : State) : State :=
  let parts := Config.splitImage s.dev.bootStage
  match imageSlot parts.1, imageSlot parts.2 with
  | some f, some h => if s.sec.rollback ≤ f.svn ∧ s.sec.rollback ≤ h.svn then s.bootRuns false f h false else s.bootFailed 3
  | _, _ => s.bootFailed 2
/-- FIRMWARE_BOOT: the boot ROM acts on its source (R521), or verifies a host image that has been read (R522). -/
def execFirmwareBoot (s : State) : Res :=
  if s.recovery.fw == .booting && !s.sysHeld then
    match s.dev.stage with
    | .rom => if s.dev.bootSrc < 2 then .next s.bootFlash
        else .next ({ s with sec := { s.sec with trialBoot := false } }.modDev (fun d => { d with stage := .waitHost }))
    | .verifying => .next s.bootHost
    | .loading => if s.dev.bootSrc = 3 ∧ s.dev.bootImgLen ≤ s.dev.bootStage.length then .next s.bootHost else .next s
    | _ => .next s
  else .next s
/-- A write of 1 to BOOT_GO (R522): the load of a host image begins over SPI, or through DC0 over PCIe; a bad length is refused. DESIGN
CHOICE (log entry 33): the boot ROM gives DC0 the image as eight lines, so that every length fits LINE_LEN (Table 17.6). -/
def State.bootGoWrite (s : State) : State :=
  let d := s.dev
  if d.stage == .waitHost || d.stage == .failed then
    if d.bootImgLen % 8 ≠ 0 ∨ 8388608 < d.bootImgLen ∨ d.bootImgLen = 0 then s.bootFailed 4
    else
      let s := s.modDev (fun d => { d with stage := .loading, bootErr := 0, bootGo := true, bootStage := [] })
      let s := if d.bootSrc = 3 then s
        else s.modDc 0 (fun c => { DmaChannel.reset with
          hostLo := d.bootImgAddrLo, hostHi := d.bootImgAddrHi, lineLen := d.bootImgLen / 8, lineCount := 8, hostStride := d.bootImgLen / 8
          state := .running, complLo := c.complLo, complHi := c.complHi })
      s.refreshAlert
  else s
/-- BOOT_GO: the host starts the load of a host image. -/
def execBootGo (s : State) : Res := if s.mapOpen then .next s.bootGoWrite else .next s
/-- The PTP port of a client port in its initial state (R487). -/
def PtpPort.restarted (p : PtpPort) (now : Nat) : PtpPort :=
  { PtpPort.reset with
    cfg := p.cfg, state := if p.cfg.profile = 0 then .disabled else .listening, heardAt := now, syncAt := now, announceAt := now
    delayAt := now, measAt := now, rxQl := p.rxQl, qlHeardAt := p.qlHeardAt, txQl := p.txQl, eventQl := p.eventQl, esmcAt := p.esmcAt }
/-- What a restart leaves to the resumed firmware: owed FINAL responses of armed changes, RESTART_ABORTED for commands that were
neither armed nor completed, held ones among them, PTP ports from their initial state (R419, R487). -/
def State.resume (s : State) : State :=
  let owed := s.proto.owedFinals
  let s := owed.foldl (fun s x => s.postResp x.1 x.2) (s.modProto (fun p => { p with owedFinals := [] }))
  let s := s.finishJobs (fun j => !s.proto.armed.any (fun a => decide (a.cmd = j.cmd))) .restartAborted 0 []
  let s := s.proto.held.foldl (fun s h => s.final { ticketOf h.opcode h.cmd h.seq with dead := h.dead } .restartAborted 0 [])
    (s.modProto (fun p => { p with held := [] }))
  { s with ports := s.ports.map (fun p => (p.1, { p.2 with ptp := p.2.ptp.restarted s.ticks })) }
/-- FW_RUNNING_REPORT: firmware reports running; FW_RESTARTED after a restart by the Shepherd, HEADLESS_EXIT with the duration in
ticks (R485, R487). -/
def execFwRunningReport (s : State) : Res :=
  if s.recovery.fw == .booting && s.dev.stage == .running && !s.recovery.expired && s.proto.mgmtResetArmed.isNone && !s.sysHeld then
    let r0 := s.recovery
    let s := s.modRec (fun r => { r with
      fw := .running, fwBeat := s.ticks, restartCause := none, headless := none, shep := if r.shep == .restarting then .watching else r.shep })
    let s := { s with sec := { s.sec with trialBoot := false } }
    let s := match r0.restartCause with | some c => s.raise .fwRestarted .device 0 (w1 c) | none => s
    let s := match r0.headless with | some h => (s.raise .headlessExit .device 0 (w1 (s.ticks - h.1))).resume | none => s
    .next s.refreshAlert
  else .next s

end Sys2Proof.Machine
end

