-- ==== Sys2Proof/Machine/Reset.lean ====
section
/-! DEFINITION. What the reset pins and the PCIe resets do (R419, R473, R474, R483, R484, R505, R506), and the start of the device
from its Kennel (R39, R315, R498, R501).
What it chooses or infers where the manual is silent, with its marks: log entry 19. -/
namespace Sys2Proof.Machine

/-! ### The PCIe resets (Table 18.5, R505) -/

/-- A command was taken from a command ring. -/
def Ticket.ofRing (t : Ticket) : Bool := match t.src with | .ring _ => true | _ => false
/-- The rings are disabled, what they held and the responses bound for them are discarded; accepted and armed commands go on
without a response (Table 18.5). -/
def Protocol.ringsReset (p : Protocol) : Protocol :=
  { p with
    regs := Vector.ofFn (n := 12) (fun i => if i.val < 9 then QueueRegs.reset else p.regs[i])
    ring := Vector.replicate 4 .reset, eventRing := []
    resp := Vector.ofFn (n := 5) (fun i => if i.val < 4 then [] else p.resp[i])
    heldResp := Vector.ofFn (n := 5) (fun i => if i.val < 4 then [] else p.heldResp[i])
    owedFinals := p.owedFinals.filter (fun x => match x.1 with | .ring _ => false | _ => true)
    armed := p.armed.map (fun a => { a with ticket := a.ticket.map (fun t => { t with dead := t.dead || t.ofRing }) })
    jobs := p.jobs.map (fun j => { j with ticket := { j.ticket with dead := j.ticket.dead || j.ticket.ofRing } })
    held := p.held.map (fun h => { h with dead := h.dead || (match h.cmd.src with | .ring _ => true | _ => false) }) }
/-- The MSI-X table after reset. -/
def msixReset : Vector MsixVector 64 := DeviceBlock.reset.msix
/-- Every channel ends as R473 and Table 17.9 say, and the DMA block returns to its reset values. -/
def State.dmaReset (drop : Job → Bool) (s : State) : State :=
  ({ s.killChannels drop with dma := Vector.replicate 16 .reset }).dumpOver
/-- PERST_N, a hot reset or a Function Level Reset: endpoint, MSI-X table, ring registers and DMA channels; a host image that loads
over PCIe fails with 0x0005 (R524). -/
def State.pcieReset (s : State) : State :=
  let load := s.dev.stage == .loading && s.dev.bootSrc != 3
  let s := (s.dmaReset (fun j => j.ticket.ofRing)).modProto Protocol.ringsReset
  let s := s.modDev (fun d => { d with d3hot := false })
  (if load then s.bootFailed 5 else s.refreshAlert).modDev (fun d => { d with msix := msixReset })
/-- The endpoint can run: PERST_N and MGMT_RST_N are high, no reset holds its domain, and its clock is there (R57, R505). -/
def State.endpointFree (s : State) : Bool :=
  !s.power.perstLow && !s.power.mgmtRstLow && !s.sysHeld && s.power.pcieRefclk && !s.power.inReset.any (fun d => d.1 == .mgmt)
/-- Brings endpoint and link to what its resets and its clock allow. -/
def State.endpointNow (s : State) : State :=
  let up := s.endpointFree
  s.modDev (fun d => { d with endpointUp := up, linkUp := up, d3hot := d.d3hot && up })
/-- PERST: PERST_N is asserted (R483). -/
def execPerst (s : State) : Res :=
  if s.power.perstLow then .next s
  else
    let s := s.lifeBump 24 4294967295 1 (·.persts) (fun v r => { r with persts := v })
    let s := s.modPower (fun p => { p with perstLow := true })
    if s.sysHeld then .next s else .next s.pcieReset.endpointNow
/-- PERST_RELEASE: PERST_N is high again; the endpoint answers, without waiting for firmware (R505). -/
def execPerstRelease (s : State) : Res := .next (s.modPower (fun p => { p with perstLow := false })).endpointNow
/-- HOT_RESET: a PCIe hot reset acts as PERST_N (R505). -/
def execHotReset (s : State) : Res := if s.dev.linkUp then .next s.pcieReset.endpointNow else .next s
/-- FUNCTION_LEVEL_RESET: as PERST_N, and the link stays up (R505). -/
def execFunctionLevelReset (s : State) : Res := if s.dev.endpointUp then .next s.pcieReset else .next s
/-- D3HOT_ENTRY: every channel ends without a record and the rings stop (R506). -/
def execD3hotEntry (s : State) : Res :=
  if s.dev.endpointUp ∧ s.dev.d3hot = false then
    let s := s.modDev (fun d => { d with d3hot := true })
    let load := s.dev.stage == .loading && s.dev.bootSrc != 3
    let s := (s.killChannels (fun _ => false)).dumpOver
    .next (if load then s.bootFailed 5 else s)
  else .next s
/-- An unmasked vector sends the message that waits in it. -/
def MsixVector.flushed (m : MsixVector) : MsixVector :=
  if m.pendingBit && !m.masked then { m with pendingBit := false, sent := m.sent + 1 } else m
/-- D0_RETURN: the rings resume where they stopped, and the messages that waited in D3hot are sent (R506; log entry 37). -/
def execD0Return (s : State) : Res :=
  .next (s.modDev (fun d => { d with d3hot := false, msix := if d.d3hot then d.msix.map MsixVector.flushed else d.msix }))
/-- PCIE_REFCLK_LOSS: the endpoint stays down, and the cores run from the fallback divider (R57). -/
def execPcieRefclkLoss (s : State) : Res := .next (s.modPower (fun p => { p with pcieRefclk := false })).endpointNow
/-- PCIE_REFCLK_RETURN: the clock is back. -/
def execPcieRefclkReturn (s : State) : Res := .next (s.modPower (fun p => { p with pcieRefclk := true })).endpointNow

/-! ### MGMT_RST_N and the MGMT domain (R419) -/

/-- The protocol state after a reset of the MGMT domain: armed changes stay, nothing is answered. -/
def Protocol.mgmtReset (p : Protocol) : Protocol :=
  { Protocol.reset with
    armed := p.armed.map (fun a => { a with ticket := none }), masked := p.masked, nextSeq := p.nextSeq
    spiDead := p.spiOpen || p.spiDead, mgmtResetArmed := some (p.mgmtResetArmed.getD p.armed.length) }
/-- A monitor converter after a reset of its domain: its settings are written again. -/
def MonConv.mgmtReset (m : MonConv) : MonConv := { MonConv.reset with seq := m.seq, corr := m.corr }
/-- A telemetry chain after a reset of the MGMT domain: configuration and coefficients are kept. -/
def TlmChain.mgmtReset (c : TlmChain) : TlmChain := { TlmChain.reset with cfg := c.cfg, active := c.active, shadow := c.shadow }
/-- The MGMT domain is reset: queues, tags, firmware cores, endpoint, DMA and monitor converters; headless hold begins (R419, R485).
`shep` resets the Shepherd and ends HELD and an expiry of the last-resort timer, as the pin does. -/
def State.mgmtReset (shep : Bool) (s : State) : State :=
  let fresh := s.recovery.headless.isNone
  let s := s.dmaReset (fun _ => true)
  let s := s.modProto Protocol.mgmtReset
  let s := { s with mons := s.mons.map MonConv.mgmtReset, chains := s.chains.map TlmChain.mgmtReset, tlmq := .reset
                    sec := { s.sec with signing := [], challenge := none, shepRunning := if shep then .reset else s.sec.shepRunning } }
  let s := s.modRec (fun r => { r with
    fw := .inReset, bootAt := none, restartCause := none
    headless := if fresh then some (s.ticks, s.tn) else r.headless
    enterOwed := if fresh then some s.tn else r.enterOwed
    shep := if shep then .watching else r.shep, shepRestarts := if shep then [] else r.shepRestarts
    fwRestarts := if shep then [] else r.fwRestarts, expired := r.expired && !shep, kick := if shep then s.ticks else r.kick })
  let s := s.modDev (fun d => { d with msix := msixReset, stage := .rom, bootErr := 0, bootGo := false, bootStage := [] })
  s.endpointNow.refreshAlert
/-- The end of a reset of the MGMT domain: MGMT_RESET_SEEN, HEADLESS_ENTER with the EVENT_TN of the entry, and firmware boots (R419). -/
def State.mgmtRelease (s : State) : State :=
  if s.power.mgmtRstLow || s.power.inReset.any (fun d => d.1 == .mgmt) then s
  else
    let n := s.proto.mgmtResetArmed.getD 0
    let s := (s.modProto (fun p => { p with mgmtResetArmed := none })).raise .mgmtResetSeen .device 0 (w1 n)
    let s := match s.recovery.enterOwed with
      | some tn => (s.modRec (fun r => { r with enterOwed := none })).raiseAt .headlessEnter .device 0 [] tn
      | none => s
    let stays := s.recovery.expired || s.recovery.shep == .held
    let s := if stays then s else s.modRec (fun r => { r with fw := .booting, kick := s.ticks, shepBeat := s.ticks, bootStart := s.ticks })
    s.endpointNow.refreshAlert
/-- MGMT_RST_ASSERT: MGMT_RST_N falls. -/
def execMgmtRstAssert (s : State) : Res :=
  if s.power.mgmtRstLow then .next s
  else
    let s := s.lifeBump 20 4294967295 1 (·.mgmtResets) (fun v r => { r with mgmtResets := v })
    let s := s.modPower (fun p => { p with mgmtRstLow := true })
    if s.sysHeld then .next s else .next (s.mgmtReset true)
/-- MGMT_RST_RELEASE: MGMT_RST_N is high again. -/
def execMgmtRstRelease (s : State) : Res :=
  if s.power.mgmtRstLow then
    let s := s.modPower (fun p => { p with mgmtRstLow := false })
    if s.sysHeld then .next s else .next s.mgmtRelease
  else .next s

/-! ### SYS_RST_N and the AUX domain (R17, R483, R484) -/

/-- Inputs from outside, which no reset of the device changes. -/
def Power.held (p : Power) : Power :=
  { Power.reset with
    perstLow := p.perstLow, mgmtRstLow := p.mgmtRstLow, sysRstLow := p.sysRstLow, vddAux := p.vddAux, vbat := p.vbat
    vbatMv := p.vbatMv, ocxo := p.ocxo, pcieRefclk := p.pcieRefclk, tj := p.tj }
/-- The squelch write of an engine that SYS_RST_N makes MUZZLED (R147), on the bus in the tick of the reset. -/
def Engine.resetSquelch (g : Engine) : Engine :=
  if g.tx.muzzle == .muzzled then .reset
  else { Engine.reset with fe := { Engine.reset.fe with served := (g.fe.profile.bind (FeProfile.squelchTxn true)).toList } }
/-- Everything but the Kennel and the boot flash is reset; the slot of an FW_LOAD that it cuts short is left empty (R366). -/
def State.sysCleared (s : State) : State :=
  let flash := (s.emptySlot? (fun _ => true)).sec
  { State.reset with
    engines := s.engines.map Engine.resetSquelch
    kennel := s.kennel, power := s.power.held, freeCtr := s.freeCtr, pending := s.pending
    sec := { Security.reset with fw := flash.fw, shep := flash.shep, rollback := flash.rollback } }
/-- The reset of every domain but the Kennel: each LOADED key slot tells its erasure (R353); its event waits in the queue that the
reset emptied. -/
def State.sysReset (s : State) : State :=
  let loaded := (List.range 48).filter (fun e => ((List.range 4).any (fun i => ((s.keys e).slot i).isSome)))
  let t := s.sysCleared
  let t := loaded.foldl (fun t e => (((List.range 4).filter (fun i => ((s.keys e).slot i).isSome)).foldl (fun t _ =>
    t.raiseAt .keyErased .engine e (w1 EraseCause.sysRst.code) s.tn) t)) t
  t.endpointNow
/-- SYS_RST_ASSERT: SYS_RST_N falls. -/
def execSysRstAssert (s : State) : Res :=
  if s.power.sysRstLow then .next s
  else
    let s := s.lifeBump 16 4294967295 1 (·.sysResets) (fun v r => { r with sysResets := v })
    .next (s.modPower (fun p => { p with sysRstLow := true })).sysReset
/-- The Kennel settings image is checked: a failed check returns every setting to its default (R498). -/
def State.checkSettings (s : State) : State :=
  if s.kennel.settingsCrc then s else s.modKennel (fun k => { k with settings := .reset, settingsCrc := true })
/-- The life record is checked: a failed one is restored from a valid mirror (R501), or begins anew. -/
def State.checkLife (s : State) : State :=
  if s.kennel.lifeCrc then s
  else s.modKennel (fun k => { k with
    lifeCrc := true, fullRaised := [], life := match k.mirror with
    | some m => { m with mirrorRestored := true } | none => .reset })
/-- The Kennel counter after n ticks, at its rate's error and RTC_TRIM, both in ppb (R315). DESIGN CHOICE (log entry 19): a positive trim
makes it run faster. -/
def Kennel.counted (err : Int) (n : Nat) (k : Kennel) : Kennel :=
  let x := k.rtcPart + n * tickUnits * (1000000000 + err + k.settings.rtcTrim)
  { k with rtc := k.rtc + x / 1000000000, rtcPart := x % 1000000000 }
/-- What the counter reads: whole cycles of 32.768 kHz (R315), in 2⁻¹⁶ ns. -/
def Kennel.rtcRead (k : Kennel) : Int := k.rtc / 2000000000 * 2000000000
/-- The device starts after a reset of `elapsed` ticks (R484): Kennel check, defaults, TN and time from the real-time counter, the
asymmetry of the first measurement interval, the first calibration window (R212), the retirement list, and the boot of firmware. -/
def State.sysStart (elapsed : Nat) (s : State) : State :=
  let s := s.checkSettings.checkLife
  let kept := s.kennel.rtcKept
  let run := s.kennel.counted (Config.rtcError s.ticks) elapsed
  let rtc := if kept then run.rtcRead else 0
  let s := (s.modKennel (fun k => { k with
    rtc := if kept then run.rtc else 0, rtcPart := if kept then run.rtcPart else 0, rtcKept := true })).ivAdvance
  let k := s.kennel.settings
  let tn := if k.epochSet then ((rtc - k.epochTai) / tickUnits).toNat else 0
  let s := { s with tn := tn, tickOffset := rtc - tn * tickUnits, tnProvisional := true }
  let s := s.modTime (fun t => { t with
    timeValid := kept, uncert := if kept then nsUnits 31000 + roundDiv (elapsed * tickUnits) 20000 else 0, uncertAt := 0 })
  let s := (List.range 48).foldl (fun s e => s.modLtt e (fun l => { l with
    asymNow := ((s.route e).fibreAsym, (s.route e).farFeSkew) })) s
  let s := (List.range 48).foldl (fun s e => s.modConv e (fun k => { k with winRunning := decide (s.tn % k.cfg.window = 0) })) s
  let s := s.applyRetirements.endpointNow.refreshAlert
  if s.power.mgmtRstLow then s.mgmtReset true else s
/-- SYS_RST_RELEASE: SYS_RST_N is high again after `elapsed` ticks. -/
def execSysRstRelease (elapsed : Nat) (s : State) : Res :=
  if s.power.sysRstLow then
    let s := s.modPower (fun p => { p with sysRstLow := false })
    if s.sysHeld then .next s else .next (s.sysStart elapsed)
  else .next s
/-- The Kennel controller's working storage is lost with VDD_AUX (R500). -/
def Kennel.powerDown (k : Kennel) : Kennel :=
  { k with fullRaised := [], pohSeconds := 0, tjSub := [], thermal := Kennel.reset.thermal, ucfSeen := Kennel.reset.ucfSeen
           ucfSeconds := 0, retireQueue := [] }
/-- KENNEL_POWER_LOSS: VDD_AUX and VBAT are both gone, and the Kennel's contents with them (R497, R498). -/
def execKennelPowerLoss (s : State) : Res :=
  let s := s.modKennel (fun k => { k.powerDown with settingsCrc := false, lifeCrc := false, rtc := 0, rtcPart := 0, rtcKept := false })
  .next ((s.modPower (fun p => { p with vddAux := false, vbat := false, vbatMv := 0, sysRstLow := true })).sysReset)
/-- VDD_AUX_POWER_UP: VDD_AUX comes up after an absence, with SYS_RST_N held low (R477, R497). -/
def execVddAuxPowerUp (s : State) : Res :=
  let s := if s.power.vddAux then s.modKennel Kennel.powerDown else s
  let s := (s.modPower (fun p => { p with vddAux := true, sysRstLow := true })).sysReset
  .next (s.lifeBump 12 4294967295 1 (·.powerUps) (fun v r => { r with powerUps := v }))

end Sys2Proof.Machine
end

