-- ==== Sys2Proof/Machine/Power.lean ====
section
/-! DEFINITION. Rails, brace and domain resets (R476 to R482), AVSBus (R478) and VBAT (R497).
What it chooses or infers where the manual is silent, with its marks: log entry 18. -/
namespace Sys2Proof
/-- Index of a domain: 0 to 11 LT0 to LT11, 12 to 15 HT0 to HT3, then HUB, MGMT, IO, AUX (Table 18.8). -/
def Domain.idx : Domain → Nat
  | .lt k => k.val | .ht k => 12 + k.val | .hub => 16 | .mgmt => 17 | .io => 18 | .aux => 19
/-- Code of a rail, in the order of Table 18.1. -/
def Rail.code : Rail → Nat
  | .core => 0 | .sram => 1 | .conv => 2 | .hsl => 3 | .aux => 4 | .io => 5
/-- The rails a domain watches (Table 18.1). -/
def Domain.watches : Domain → Rail → Bool
  | .lt _, r => r == .core || r == .sram || r == .conv
  | .ht _, r => r == .core || r == .sram || r == .hsl
  | .hub, r => r == .core || r == .sram
  | .mgmt, r => r == .core || r == .sram
  | .io, r => r == .io
  | .aux, r => r == .aux
end Sys2Proof
namespace Sys2Proof.Machine

/-- A domain is held in reset. -/
def State.domainHeld (s : State) (d : Domain) : Bool := s.power.inReset.any (fun x => decide (x.1 = d))
/-- Domain d watches rail r now: not in reset, not powered down, and not by a fenced tile (R482, R495). -/
def State.watching (s : State) (d : Domain) (r : Rail) : Bool :=
  d.watches r && !s.domainHeld d && !s.sysHeld && (match d with | .lt k => !(s.tile k).fenced | _ => true)
/-- BRACE_COUNT of a domain's record. -/
def State.lifeBrace (d : Domain) (s : State) : State :=
  let x : LifeDomain := { braceCount := 0, resets := 0, deepest := 0 }
  s.lifeBump (1344 + 8 * d.idx) 4294967295 1 (fun r => (vget r.domains d.idx x).braceCount)
    (fun v r => { r with domains := vmod r.domains d.idx (fun y => { y with braceCount := v }) })
/-- DOMAIN_RESETS of a domain's record. -/
def State.lifeDomainReset (d : Domain) (s : State) : State :=
  let x : LifeDomain := { braceCount := 0, resets := 0, deepest := 0 }
  s.lifeBump (1348 + 8 * d.idx) 65535 1 (fun r => (vget r.domains d.idx x).resets)
    (fun v r => { r with domains := vmod r.domains d.idx (fun y => { y with resets := v }) })
/-- DEEPEST of a domain's record. -/
def State.lifeDeepest (d : Domain) (level : Nat) (s : State) : State :=
  s.modLife (fun r => { r with domains := vmod r.domains d.idx (fun y => { y with deepest := max y.deepest (min level 65535) }) })

/-! ### Brace (R480, R481) -/

/-- RAIL_WARNING: a watched rail is at its warning level and not at its reset level, `level` in 0.1% below target. -/
def execRailWarning (d : Domain) (r : Rail) (level : Nat) (s : State) : Res :=
  if s.watching d r ∧ 50 ≤ level ∧ level ≤ 100 then
    let s := s.lifeDeepest d level
    let new := !s.power.warned.contains (d, r)
    let s := s.modPower (fun p => { p with warned := if new then (d, r) :: p.warned else p.warned })
    match s.power.braceOn with
    | some b => .next (s.modPower (fun p => { p with braceOn := some { b with warnedAt := s.ticks, deepest := max b.deepest level } }))
    | none =>
      let s := s.modPower (fun p => { p with braceOn := some { entry := s.ticks, warnedAt := s.ticks, deepest := level } })
      .next (((s.lifeBrace d).raise .braceEnter .device 0 (w1 d.idx ++ w1 r.code ++ w2 s.tn)).refreshAlert)
  else .next s
/-- BRACE_EXIT: 50 µs after the last rail recovers, so never before 31 whole ticks have passed since the latest warning: duration in
ticks and deepest level (R481). An AVSBus step that fell due waits for the first 10 ms slot after it, the slots being counted from the
latest step (R503). -/
def execBraceExit (s : State) : Res :=
  match s.power.braceOn with
  | none => .next s
  | some b =>
    if s.ticks < b.warnedAt + 31 then .next s
    else
    let s := s.modPower (fun p => { p with
      braceOn := none, warned := [], avsLast := p.avsLast + (s.ticks - p.avsLast) / 6250 * 6250
      avsWas := if s.ticks < p.avsLast + 6250 then p.avsWas else p.avsTarget })
    .next ((s.raise .braceExit .device 0 (w1 (s.ticks - b.entry) ++ w1 b.deepest)).refreshAlert)

/-! ### Domain resets (R482, Table 18.4) -/

/-- A line tile's domain resets: POWER, keys, capture and receivers of its four engines. -/
def State.ltReset (k : Nat) (s : State) : State :=
  let s := (tileEngines k).foldl (fun s e =>
    let s := s.modEng e (fun g => { g with
      tx := { g.tx with reason := { g.tx.reason with power := true } }, hubSlots := [], frameSlots := [] })
    let s := (s.dropSvc e).dropCdSwap e
    let s := if (s.eng e).acq.state == .disabled then s else s.alignRelease e .disabled
    s.emptySlots e [0, 1, 2, 3] .domainReset) s
  s.dropCapture k
/-- A host tile's domain resets: what its ports hold is lost, their diagnostics stop, and rounds in progress end (R279). -/
def State.htReset (k : Nat) (s : State) : State :=
  let mine := (s.ports.filter (fun p => p.1 / 96 == k)).map (·.1)
  let s := mine.foldl (fun s n => ((s.stopDiagnostics n).endRound n).modPort n (fun p => { p with
    data := { p.data with mapper := [], grains := [], egress := [], inserted := [], out := [], fault := true }
    tap := { p.tap with queue := [] }
    state := if p.state == .disabled then .disabled else .training })) s
  s.modHtile k (fun h => { h with waiting := [] })
/-- The HUB domain resets (Table 18.4). -/
def State.hubReset (s : State) : State :=
  let s := s.cancelArmed (fun a => a.opcode == 0x804) .cancelled Ev.domainReset.code
  let busy := (List.range 16).filter (fun c => s.proto.jobs.any (fun j => onChannel c j && j.ticket.opcode == 0x805))
  let s := busy.foldl (fun s c => (s.endChannel c .sourceWithdrawn).answerChannel c .sourceWithdrawn) s
  let bw := s.ctr.bw.map (fun (x : Nat × BwWindow) => (x.1, { x.2 with start := none, ingress := 0, egress := 0, seq := 0 }))
  let cal : Calendar := { s.cal with frozen := [], unread := [], told := [], bad := [], dead := [] }
  let ctr : Counters := { Counters.reset with bw := bw }
  let packs := s.packs.map (fun (p : Pack) => { p with pool := [] })
  let s : State := { s with ctr := ctr, cal := cal, packs := packs }
  s.ports.foldl (fun s p => s.flushClient p.1) s
/-- What the reset of a domain does (Table 18.4). -/
def State.domainEffect (d : Domain) (s : State) : State :=
  match d with
  | .lt k => s.ltReset k
  | .ht k => s.htReset k
  | .hub => s.hubReset
  | .mgmt => s.mgmtReset false
  | .io => s.refreshAlert
  | .aux => s.sysReset
/-- RAIL_RESET_LEVEL: a watched rail of domain d reaches its reset level, `level` in 0.1% below target. -/
def execRailResetLevel (d : Domain) (r : Rail) (level : Nat) (s : State) : Res :=
  if s.watching d r ∧ 100 ≤ level then
    let tn := s.tn
    let s := ((s.lifeDomainReset d).lifeDeepest d level).modPower (fun p => { p with
      inReset := (d, s.ticks) :: p.inReset, warned := p.warned.filter (fun x => decide (x.1 ≠ d)) })
    let held := s.power.inReset
    let told := fun (s : State) => s.raiseAt .domainReset .device 0 (w1 d.idx ++ w1 r.code ++ w1 level) tn
    match d with
    | .aux => .next (told ((s.domainEffect d).modPower (fun p => { p with inReset := held })))
    | _ => .next ((told s).domainEffect d)
  else .next s
/-- What the release of a domain does (Table 18.4); the rails have been good for 1 ms, and for AUX the reset lasted `elapsed`
ticks. -/
def State.domainRelease (d : Domain) (elapsed : Nat) (s : State) : State :=
  match d with
  | .lt k => (tileEngines k).foldl (fun s e => (s.modEng e (fun g =>
      let conv := { Converter.reset with cfg := g.conv.cfg, learned := g.conv.learned, temp := g.conv.temp, winRunning := false }
      { g with
        acq := if g.kRx ≠ 0 ∧ g.acq.state = .disabled then { g.acq with state := .noSignal, noSyncRaised := false } else g.acq
        losIn := false
        conv := (s.kennel.life.retirements.filter (fun r => r.engine == e)).foldl Converter.applyRetired conv })).recentreAll e) s
  | .ht k => ((s.ports.filter (fun p => p.1 / 96 == k.val && p.2.state != .disabled)).map (·.1)).foldl (fun s n => s.startRound n) s
  | .hub => s
  | .mgmt => s.mgmtRelease
  | .io => s.refreshAlert
  | .aux => if s.power.sysRstLow then s else s.sysStart elapsed
/-- A domain has been held for the 1 ms that its rails must have been good for: 625 ticks, for AUX of those that its reset lasted. -/
def State.holdServed (s : State) (d : Domain) (elapsed : Nat) : Bool :=
  s.power.inReset.any (fun x => decide (x.1 = d) && (if d = .aux then decide (625 ≤ elapsed) else decide (x.2 + 625 ≤ s.ticks)))
/-- DOMAIN_RESET_RELEASE: every rail of the domain has been at its recovered level for 1 ms (R482). -/
def execDomainResetRelease (d : Domain) (elapsed : Nat) (s : State) : Res :=
  if s.holdServed d elapsed then
    .next ((s.modPower (fun p => { p with inReset := p.inReset.filter (fun x => decide (x.1 ≠ d)) })).domainRelease d elapsed)
  else .next s

/-! ### AVSBus and VBAT -/

/-- AVS_LOOP_STEP: at most 5 mV every 10 ms, none in brace; a transaction that failed with its retries holds the target and counts
(R478, R503). -/
def execAvsLoopStep (step : Int) (acked : Bool) (s : State) : Res :=
  if s.sysHeld || s.power.braceOn.isSome || decide (s.ticks < s.power.avsLast + 6250) then .next s
  else
    let s := s.modPower (fun p => { p with avsLast := s.ticks, avsWas := p.avsTarget })
    if acked then .next (s.modPower (fun p => { p with avsTarget := (clampI 600 720 ((p.avsTarget : Int) + clampI (-5) 5 step)).toNat }))
    else .next (s.lifeBump 28 4294967295 1 (·.avsFaults) (fun v r => { r with avsFaults := v }))
/-- The target that the VDD_CORE thresholds refer to: for 200 µs after a step the lower of the old and the new one (R479). The `level` of a
rail's rows is relative to it. -/
def State.coreTarget (s : State) : Nat :=
  if s.ticks < s.power.avsLast + 125 then min s.power.avsWas s.power.avsTarget else s.power.avsTarget
/-- VBAT_MEASUREMENT: the hourly measurement, in mV (R497). -/
def execVbatMeasurement (mv : Nat) (s : State) : Res :=
  if s.power.vddAux then
    let s := (s.modPower (fun p => { p with vbatMv := mv, vbat := mv != 0 })).refreshAlert
    if mv < 2200 then
      .next ((s.lifeBump 36 4294967295 1 (·.vbatLowCount) (fun v r => { r with vbatLowCount := v })).raise .vbatLow .device 0 [])
    else .next s
  else .next s

end Sys2Proof.Machine
end

