-- ==== Sys2Proof/Machine/Kennel.lean ====
section
/-! DEFINITION. The life record and the Kennel (R499 to R502, R497, R498), firmware images (R366), and the commands of groups 0x9,
0xA (SHEPHERD_STATUS) and 0xB.
What it chooses or infers where the manual is silent, with its marks: log entry 36. -/
namespace Sys2Proof.Machine

/-! ### What accumulates (R500) -/

/-- The bin of a temperature in 0.25 °C. -/
def tjBin (t : Int) : Nat :=
  (([-20, 0, 20, 40, 60, 75, 85, 95, 105, 115, 125, 135, 140, 145, 150] : List Int).filter (fun x => decide (4 * x ≤ t))).length
/-- A reading of one die advances its bin's sub-count; 360 of them make one 0.1 h of TJ_HIST. -/
def State.tjCount (die : Nat) (t : Int) (s : State) : State :=
  let i := 16 * die + tjBin t
  let n := cellGet s.kennel.tjSub i 0 + 1
  if n < 360 then s.modKennel (fun k => { k with tjSub := cellSet k.tjSub i n 0 })
  else (s.modKennel (fun k => { k with tjSub := cellSet k.tjSub i 0 0 })).lifeBump (64 + 4 * i) 4294967295 1
    (fun r => cellGet r.tjHist i 0) (fun v r => { r with tjHist := cellSet r.tjHist i v 0 })
/-- A reading of a die moves its thermal-cycle detector; true for a cycle: a fall of 40 °C below a maximum that lay 40 °C or more above
the preceding minimum. -/
def ThermalTrack.step (x : ThermalTrack) (t : Int) : ThermalTrack × Bool :=
  if x.armed then
    let high := max x.high t
    if t + 160 ≤ high then ({ low := t, high := t, armed := false }, true) else ({ x with high := high }, false)
  else if t < x.low then ({ low := t, high := t, armed := false }, false)
  else ({ x with high := max x.high t, armed := decide (x.low + 160 ≤ max x.high t) }, false)
/-- A thermal reading of one die. -/
def State.thermalStep (die : Nat) (t : Int) (s : State) : State :=
  let y := (vget s.kennel.thermal die { low := 0, high := 0, armed := false }).step t
  let s := s.modKennel (fun k => { k with thermal := vmod k.thermal die (fun _ => y.1) })
  if y.2 then s.lifeBump (1216 + 4 * die) 4294967295 1 (fun r => vget r.thermalCycles die 0)
    (fun v r => { r with thermalCycles := vmod r.thermalCycles die (fun _ => v) }) else s
/-- Power-on hours: one more second. -/
def State.pohStep (s : State) : State :=
  if s.kennel.pohSeconds + 1 < 3600 then s.modKennel (fun k => { k with pohSeconds := k.pohSeconds + 1 })
  else (s.modKennel (fun k => { k with pohSeconds := 0 })).lifeBump 8 4294967295 1 (·.poh) (fun v r => { r with poh := v })
/-- UCF_TENTHS: every 360 s the engines in which UNCORR_FRAME advanced in frame are counted. -/
def State.ucfStep (s : State) : State :=
  if s.kennel.ucfSeconds + 1 < 360 then s.modKennel (fun k => { k with ucfSeconds := k.ucfSeconds + 1 })
  else
    let seen := (List.range 48).filter (fun e => vget s.kennel.ucfSeen e false)
    let s := s.modKennel (fun k => { k with ucfSeconds := 0, ucfSeen := Vector.replicate 48 false })
    let z : LifeEngine := { ucfTenths := 0, leashSat := 0, isolations := 0 }
    seen.foldl (fun s e => s.lifeBump (1600 + 8 * e) 4294967295 1 (fun r => (vget r.engines e z).ucfTenths)
      (fun v r => { r with engines := vmod r.engines e (fun x => { x with ucfTenths := v }) })) s
/-- One die's reading. -/
def State.dieRead (die : Nat) (t : Int) (s : State) : State :=
  ((s.modPower (fun p => { p with tj := vmod p.tj die (fun _ => t) })).tjCount die t).thermalStep die t
/-- The dies' sensors as they stand in a tick (R148, R533). -/
def State.sensorsSeen (l : List (Nat × Int)) (s : State) : State :=
  s.modPower (fun p => { p with tj := l.foldl (fun v x => vmod v x.1 (fun _ => x.2)) p.tj })
/-- LIFE_RECORD_SECOND: once a second the hottest sensor of each powered die is read, in 0.25 °C; none for a die without power. -/
def execLifeRecordSecond (temps : List (Option Int)) (s : State) : Res :=
  if s.sysHeld || !s.power.vddAux then .next s
  else
    let s := ((temps.take 18).zipIdx).foldl (fun s x => match x.1 with | some t => s.dieRead x.2 t | none => s) s
    .next s.pohStep.ucfStep
/-- LIFE_MIRROR_WRITE: firmware mirrors the life record to the boot flash (R501). -/
def State.mirrorLife (s : State) : State := s.modKennel (fun k => { k with mirror := some k.life })
/-- LIFE_MIRROR_WRITE. -/
def execLifeMirrorWrite (s : State) : Res := if s.fwUp then .next s.mirrorLife else .next s

/-! ### The images (Tables 18.7 and 18.8) -/

/-- Zero octets. -/
def zeros (n : Nat) : List Octet := List.replicate n 0
/-- An image whose octets 4 to 7 hold the CRC-32 of the octets from 8 on. -/
def sealImage (head body : List Octet) : List Octet := head ++ octetsBE 4 (crc32 body) ++ body
/-- An intervention entry. -/
def Intervention.octets (x : Intervention) : List Octet := octetsBE 1 x.actor ++ octetsBE 1 x.cause ++ zeros 2 ++ octetsBE 4 x.poh ++ octetsBE 8 x.tn
/-- A retirement entry (Table 7.4). -/
def Retirement.octets (r : Retirement) : List Octet :=
  octetsBE 1 (r.engine * 4 + field r.place 4 1 * 2 + b2n r.restored) ++ octetsBE 1 (field r.place 0 4 * 16 + r.reason)
    ++ octetsBE 1 r.unit ++ octetsBE 1 r.replacedBy ++ octetsBE 4 r.poh
/-- The life record as its 8,192 octets. -/
def LifeRecord.image (r : LifeRecord) : List Octet :=
  let counts := (([r.poh, r.powerUps, r.sysResets, r.mgmtResets, r.persts, r.avsFaults, r.retireCount, r.vbatLowCount] : List Nat).map
    (octetsBE 4)).flatten
  let hist := ((List.range 288).map (fun i => octetsBE 4 (cellGet r.tjHist i 0))).flatten
  let cycles := (r.thermalCycles.toList.map (octetsBE 4)).flatten
  let doms := (r.domains.toList.map (fun d => octetsBE 4 d.braceCount ++ octetsBE 2 d.resets ++ octetsBE 2 d.deepest)).flatten
  let engs := (r.engines.toList.map (fun e => octetsBE 4 e.ucfTenths ++ octetsBE 2 e.leashSat ++ octetsBE 2 e.isolations)).flatten
  let fw := (([r.restartHeartbeat, r.restartTrap, r.restartBoot, r.shepRestarts, r.holds, r.lastResorts] : List Nat).map
    (octetsBE 4)).flatten
  let body := counts ++ zeros 24 ++ hist ++ cycles ++ zeros 56 ++ doms ++ zeros 96 ++ engs ++ fw ++ zeros 8
    ++ padTo 2080 (r.interventions.map Intervention.octets).flatten
    ++ padTo 4096 (r.retirements.map Retirement.octets).flatten
  sealImage (octetsBE 1 1 ++ octetsBE 1 (b2n r.mirrorRestored * 128) ++ zeros 2) body
/-- The route and asymmetry settings of one engine in the settings image: 48 octets. -/
def RouteCfg.octets (r : RouteCfg) : List Octet :=
  i32 r.fibreAsym ++ i32 r.farFeSkew ++ i32 r.cdRef ++ i32 (roundDiv r.cdTrk 65536) ++ i64 r.rtdRef ++ i64 (roundDiv r.rtdTrk 65536)
    ++ octetsBE 4 r.routeRtdStep ++ octetsBE 4 r.routeTrack ++ octetsBE 2 r.routeCdStep ++ octetsBE 1 r.routeLenTol
    ++ octetsBE 1 r.asymState.code ++ zeros 4
/-- The settings image as KENNEL_EXPORT copies it: ODV, KEK and BINDING are 0x00 (R498). -/
def Settings.image (k : Settings) : List Octet :=
  let body := octetsBE 12 (stamp96 k.epochTai) ++ octetsBE 2 (ux 16 k.utcOffset) ++ octetsBE 1 (ux 8 k.leapDir) ++ zeros 1
    ++ octetsBE 8 k.leapAt ++ octetsBE 4 (ux 32 k.rtcTrim) ++ octetsBE 2 k.ivGen ++ zeros 218
    ++ (k.route.toList.map RouteCfg.octets).flatten ++ zeros 1536
  sealImage (octetsBE 1 1 ++ octetsBE 1 (b2n k.epochSet * 128 + b2n k.domainSet * 64 + b2n k.bootPref * 32 + b2n k.trial * 16) ++ zeros 2) body
/-- A command that sends an image over a DMA channel. -/
def exportSpec (code size : Nat) (f : State → List Octet) : OpSpec :=
  { code := code, cls := .long, len := lenIs 2, target := tgtDevice, ranges := [rngChan]
    refuse := fun s c => dmaRefusal s c size, chan := fun c => some (cmdChan c), eff := .long (dmaSend (fun _ s => f s)) }
/-- LIFE_EXPORT (R502). -/
def specLifeExport : OpSpec := exportSpec 0x901 8192 (fun s => s.kennel.life.image)
/-- LIFE_EXPORT: the life record, as it is in the tick of acceptance, goes to the host. -/
def execLifeExport (c : Cmd) (s : State) : Res := runOp specLifeExport c s
/-- KENNEL_EXPORT (R498). -/
def specKennelExport : OpSpec := exportSpec 0x902 4096 (fun s => s.kennel.settings.image)
/-- KENNEL_EXPORT: the settings image without its secrets goes to the host. -/
def execKennelExport (c : Cmd) (s : State) : Res := runOp specKennelExport c s
/-- KENNEL_STATUS. -/
def specKennelStatus : OpSpec :=
  { code := 0x900, len := lenIs 1, target := tgtDevice
    eff := .now (fun _ s =>
      let k := s.kennel.settings
      (s, w1 s.power.vbatMv ++ [Config.flagPairWord 0 (b2n k.epochSet) (b2n k.domainSet), Config.flagPairWord 1 (b2n k.bootPref) (b2n k.trial)]
        ++ w1 (s.kennel.rtc / secondUnits).toNat)) }
/-- KENNEL_STATUS: VBAT in mV, epoch and domain state, boot preference and trial flag, and the seconds of the real-time counter. -/
def execKennelStatus (c : Cmd) (s : State) : Res := runOp specKennelStatus c s
/-- SHEPHERD_STATUS (R489). -/
def specShepherdStatus : OpSpec :=
  { code := 0xA04, len := lenIs 1, target := tgtDevice
    eff := .now (fun _ s =>
      let r := s.recovery
      (s, w1 r.shep.code ++ w1 r.interventions ++ w1 r.lastCause ++ w1 (b2n r.expired))) }
/-- SHEPHERD_STATUS: state, interventions, last cause and the state of the last-resort timer. -/
def execShepherdStatus (c : Cmd) (s : State) : Res := runOp specShepherdStatus c s

/-! ### Firmware images (R366, Table 15.8 group 0xB) -/

/-- The slot in use: the one the running firmware came from, or the one the Shepherd runs from. -/
def State.slotActive (s : State) (c : Cmd) : Bool :=
  if loadsShep c then bootSlot s.sec.shep s.kennel.settings.bootPref s.sec.rollback == some (loadSlot c)
  else decide (s.dev.bootSrc < 2) && b2n s.dev.fwSlot == loadSlot c
/-- FW_LOAD: the channel's own extent is the image, within the slot's size (R523). -/
def specFwLoad : OpSpec :=
  { code := 0xB00, cls := .long, len := lenIs 2, ranges := [rngChan]
    target := fun _ k i b => k == 0 && i == 0 && (b == 0 || b == 1 || b == 0x100 || b == 0x101)
    refuse := fun s c =>
      let d := s.dc (cmdChan c)
      if s.slotActive c then some (.imageInvalid, 0)
      else if (if loadsShep c then 0x100000 else 0x800000) < d.lineLen * d.lineCount then some (.parameterInvalid, 1)
      else dmaRefusal s c (d.lineLen * d.lineCount)
    chan := fun c => some (cmdChan c), eff := .long dmaEffect }
/-- FW_LOAD: an image is read into an inactive slot by DMA. -/
def execFwLoad (c : Cmd) (s : State) : Res := runOp specFwLoad c s
/-- The end DONE of an FW_LOAD: a valid signature and SVN at least ROLLBACK commit it, else the slot is empty (R366). -/
def State.imageCommit (c : Cmd) (image : List Octet) (s : State) : State × Bool :=
  match imageSlot image with
  | some x => if s.sec.rollback ≤ x.svn then (s.setSlot c x, true) else (s.setSlot c .reset, false)
  | none => (s.setSlot c .reset, false)
/-- FW_ACTIVATE (R366): the mirror is written, boot preference and trial flag are set, and firmware restarts under the rules of
MGMT_RST_N. -/
def activate (c : Cmd) (s : State) : State :=
  let s := s.mirrorLife.modSettings (fun k => { k with bootPref := cSub c == 1, trial := true })
  (s.mgmtReset true).mgmtRelease
/-- FW_ACTIVATE. -/
def specFwActivate : OpSpec :=
  { code := 0xB01, len := lenIs 1, target := tgtDeviceSub 2
    refuse := fun s c => if (vget s.sec.fw (cSub c) FwSlot.reset).valid then none else some (.imageInvalid, 0)
    eff := .silent activate }
/-- FW_ACTIVATE: firmware restarts from a slot on trial. -/
def execFwActivate (c : Cmd) (s : State) : Res := runOp specFwActivate c s
/-- FW_COMMIT (R366, R522). -/
def specFwCommit : OpSpec :=
  { code := 0xB02, len := lenIs 1, target := tgtDevice
    refuse := fun s _ => if s.kennel.settings.trial && decide (s.dev.bootSrc < 2) then none else some (.mode, 0)
    eff := .now (fun _ s =>
      (({ s with sec := { s.sec with rollback := max s.sec.rollback s.sec.running.svn } }).modSettings (fun k => { k with trial := false }), [])) }
/-- FW_COMMIT: the trial ends and ROLLBACK rises to the running image's SVN. -/
def execFwCommit (c : Cmd) (s : State) : Res := runOp specFwCommit c s
/-- FW_STATUS. -/
def specFwStatus : OpSpec :=
  { code := 0xB03, len := lenIs 1, target := tgtDevice
    eff := .now (fun _ s =>
      let a := vget s.sec.fw 0 FwSlot.reset
      let b := vget s.sec.fw 1 FwSlot.reset
      (s, [Config.flagPairWord 2 (b2n a.valid) (b2n b.valid)] ++ w1 a.version ++ w1 b.version ++ [Config.flagPairWord 3 a.svn.val b.svn.val]
        ++ w1 s.sec.rollback.val ++ [Config.flagPairWord 4 (b2n s.dev.fwSlot) (b2n s.kennel.settings.trial)])) }
/-- FW_STATUS: slots, versions, SVN, ROLLBACK, boot slot and trial flag. -/
def execFwStatus (c : Cmd) (s : State) : Res := runOp specFwStatus c s

end Sys2Proof.Machine
end

