-- ==== Sys2Proof/Machine/Device.lean ====
section
/-! DEFINITION. The device commands (Table 15.1), FE_PROFILE_LOAD (R445), and the end of a DMA channel with what it commits (R426,
R473).
What it chooses or infers where the manual is silent, with its marks: log entries 33, 36. -/
namespace Sys2Proof.Machine

/-! ### Group 0x0 -/

/-- DEVICE_NOP. -/
def specDeviceNop : OpSpec :=
  { code := 0x000, len := lenIs 1, target := tgtDevice, eff := .now (fun _ s => (s, [])) }
/-- DEVICE_NOP: answered OK, with no effect. -/
def execDeviceNop (c : Cmd) (s : State) : Res := runOp specDeviceNop c s
/-- DEVICE_IDENTITY. -/
def specDeviceIdentity : OpSpec :=
  { code := 0x001, len := lenIs 1, target := tgtDevice
    eff := .now (fun _ s => (s, w1 0x4816 ++ w1 0x00A1 ++ packOctets (octetsBE 16 Config.serial.toNat) ++ w1 s.sec.running.version
      ++ w1 s.sec.shepRunning.version)) }
/-- DEVICE_IDENTITY: part code, stepping, SERIAL, FW_VERSION and Shepherd version. -/
def execDeviceIdentity (c : Cmd) (s : State) : Res := runOp specDeviceIdentity c s
/-- The hottest junction temperature last read, in 0.25 °C. -/
def State.hottest (s : State) : Int := s.power.tj.toList.foldl max (vget s.power.tj 0 roomTemp)
/-- DEVICE_STATUS (Table 15.1): the command's own tag is in flight. -/
def specDeviceStatus : OpSpec :=
  { code := 0x002, len := lenIs 1, target := tgtDevice
    eff := .now (fun c s => (s, w1 s.devFlags ++ w2 s.tn ++ wi s.hottest ++ w1 s.proto.eventQueue.length
      ++ w1 (s.tagsInFlight.length + b2n c.src.isHost))) }
/-- DEVICE_STATUS: flags, TN, hottest junction, event queue fill and tags in flight. -/
def execDeviceStatus (c : Cmd) (s : State) : Res := runOp specDeviceStatus c s
/-- The selector of EVENT_MASK_SET names an assigned event. -/
def maskSelOk (w : Nat) : Bool := Ev.all.any (fun e => e.code == field w 16 12)
/-- A rising list with a number in it or not. -/
def setMember (n : Nat) (on : Bool) (l : List Nat) : List Nat :=
  let rest := l.filter (· != n)
  if on then (rest.filter (fun x => decide (x < n))) ++ [n] ++ (rest.filter (fun x => decide (n < x))) else rest
/-- EVENT_MASK_SET (Table 15.1). -/
def specEventMaskSet : OpSpec :=
  { code := 0x003, len := lenIs 2, target := tgtDevice
    ranges := [rngP 1 (fun w => decide (w < 2 ^ 28) && field w 1 15 == 0 && maskSelOk w)]
    eff := .now (fun c s => (s.modProto (fun p => { p with masked := setMember (field (cw c 1) 16 12) (bit (cw c 1) 0) p.masked }), []))
    read := some {
      selectors := 1
      ok := fun c _ => decide (cw c 1 < 2 ^ 28) && field (cw c 1) 1 15 == 0 && maskSelOk (cw c 1)
      get := fun c s => w1 (field (cw c 1) 16 12 * 2 ^ 16 + b2n (s.proto.masked.contains (field (cw c 1) 16 12))) } }
/-- EVENT_MASK_SET: a masked event is counted and not posted. -/
def execEventMaskSet (c : Cmd) (s : State) : Res := runOp specEventMaskSet c s

/-! ### Ends of DMA channels -/

/-- The 32-bit words of an image, little-endian. -/
def wordsLE : List Octet → List Nat
  | a :: b :: c :: d :: r => (a.toNat + b.toNat * 2 ^ 8 + c.toNat * 2 ^ 16 + d.toNat * 2 ^ 24) :: wordsLE r
  | _ => []
/-- FE_PROFILE_LOAD (R445). -/
def specFeProfileLoad : OpSpec :=
  { code := 0x610, cls := .long, len := lenIs 2, target := tgtEngine, fence := fenceEngine, ranges := [rngChan]
    refuse := fun s c => firstRefusal [inTraffic s c, dmaRefusal s c 1024]
    chan := fun c => some (cmdChan c), eff := .long dmaEffect }
/-- FE_PROFILE_LOAD: a front-end profile of 256 words is loaded by DMA. -/
def execFeProfileLoad (c : Cmd) (s : State) : Res := runOp specFeProfileLoad c s
/-- What a DMA-backed command does with its image when its channel ends DONE (R426): the state, and the outcome told. DESIGN CHOICE (log
entry 27): bits [63:48] of a calendar image are no check of Table 8.2, and their entry is told with check number 0. -/
def State.commitLoad (op : Nat) (c : Cmd) (im : List Octet) (s : State) : State × Status × Nat :=
  let e := cIdx c
  if op = 0x200 then
    match s.calCommit (cw c 2) im with | .ok t => (t, .ok, 0) | .error i => (s, .calendarInvalid, 256 * i)
  else if op = 0x10B then
    (s.modTx e (fun t => { t with nlcShadow := (wordsLE im).map (BitVec.ofNat 32), nlcWindowNext := 8 * cw c 2 }), .ok, 0)
  else if op = 0x132 then
    match s.convCommit e im with | .ok t => (t, .ok, 0) | .error x => (s, x.1, x.2)
  else if op = 0x610 then
    match parseProfile (wordsLE im) with | .ok p => (s.commitProfile e p, .ok, 0) | .error k => (s, .parameterInvalid, k)
  else if op = 0xB00 then
    match s.imageCommit c im with | (t, true) => (t, .ok, 0) | (t, false) => (t, .imageInvalid, 0)
  else (s, .ok, 0)
/-- The FINAL of the command whose channel ended DONE, with what it commits; a channel whose command is gone commits nothing. -/
def State.doneChannel (c : Nat) (s : State) : State :=
  match s.proto.jobs.find? (onChannel c) with
  | none => s
  | some j =>
    let r := s.commitLoad j.ticket.opcode j.cmd (s.dc c).staged
    r.1.finishJobs (onChannel c) r.2.1 r.2.2 []
/-- How a channel that reads from the host ends now, if it can (Table 17.7). -/
def DmaChannel.loadEnd (d : DmaChannel) (err : Bool) : Option DmaEnd :=
  if !d.bad && !err && decide (d.lineLen * d.lineCount ≤ d.staged.length) then some .done
  else if d.abort then some .aborted
  else if d.bad || err then some .doneWithError else none
/-- How a channel that writes to the host ends now, having moved a number of octets (Table 17.7). -/
def State.sendEnd (s : State) (d : DmaChannel) (err : Bool) (moved : Nat) : Option DmaEnd :=
  let cap := (s.tile d.tile).capture
  if d.withdrawn then some .sourceWithdrawn
  else if d.abort then some .aborted
  else if d.devSel && cap.state == .done && decide (cap.filled < d.extentEnd) then some .sourceWithdrawn
  else if err then some .doneWithError
  else if moved = d.lineLen * d.lineCount then some .done else none
/-- The boot ROM's channel ends: the image is complete, or the load has failed with 0x0005 (R522). -/
def State.bootChannel (e : DmaEnd) (s : State) : State :=
  if e == .done then
    let im := (s.dc 0).staged
    (s.modDev (fun d => { d with stage := .verifying, bootStage := im })).modRec (fun r => { r with bootStart := s.ticks })
  else s.bootFailed 5
/-- The end `e` of channel c, with the answer of its command. -/
def State.finishChannel (c : Nat) (e : DmaEnd) (s : State) : State :=
  if c = 0 ∧ s.dev.bootGo then ((s.endChannel 0 e).bootChannel e).modDc 0 (fun d => { d with staged := [] })
  else
    let s := s.endChannel c e
    let s := if e == .done then s.doneChannel c else s.answerChannel c e
    (s.modDc c (fun d => { d with staged := [], out := [] })).dumpOver
/-- DMA_CHANNEL_END: a channel ends: the last completion or write is done, `err` for a bad one, having moved `moved` octets to the
host (R473). -/
def execDmaChannelEnd (c : Fin 16) (err : Bool) (moved : Nat) (s : State) : Res :=
  let d := s.dc c
  if d.state ≠ .running then .next s
  else if s.hostToDevice c then
    match d.loadEnd err with | some e => .next (s.finishChannel c e) | none => .next s
  else
    let t := s.dumpRest c
    match t.sendEnd (t.dc c) err moved with
    | some e => .next ((t.place c (t.movedAt (t.dc c) e moved) e).finishChannel c e)
    | none => .next s

end Sys2Proof.Machine
end

