-- ==== Sys2Proof/Machine/Monitor.lean ====
section
/-! DEFINITION. Monitor converters (R431 to R442): conversions and their correction, sequences, injected requests,
self-calibration, and the result queues.
What it chooses or infers where the manual is silent, with its marks: log entry 34. -/
namespace Sys2Proof.Machine

/-- The converter a command targets. -/
def tgtMon : State → Nat → Nat → Nat → Bool := tgtKind 6 4

/-! ### Result queues (R441) -/

/-- WM_LIVE of a result queue of capacity `cap`. -/
def Watermark.live (w : Watermark) (fill cap : Nat) : Bool := decide (effLevel w.level cap ≤ fill)
/-- The watermark after the fill has risen from `old` to `new`, and whether this is a new crossing (R415). -/
def Watermark.cross (w : Watermark) (old new cap : Nat) : Watermark × Bool :=
  let lv := effLevel w.level cap
  if decide (old < lv) && decide (lv ≤ new) && !w.latched then ({ w with latched := true, wmAt := new }, true) else (w, false)
/-- A crossing of result queue q raises its interrupt, vector 32 + q, and MON_RESULT_WM (R441, Table 19.3). -/
def State.resultCrossed (q at' : Nat) (s : State) : State :=
  (s.signal (32 + q)).raise .monResultWm .monConv q (w1 at')
/-- A result item enters the queue of converter k. -/
def State.monPush (k item : Nat) (s : State) : State :=
  let m := s.mc k
  let x := m.wm.cross m.queue.length (m.queue.length + 1) 512
  let s := s.modMc k (fun m => { m with queue := m.queue ++ [item], wm := x.1 })
  if x.2 then s.resultCrossed k x.1.wmAt else s
/-- A telemetry item enters the telemetry output queue, or is held while the queue is full (R411). -/
def State.tlmPush (item : Nat) (s : State) : State :=
  let q := s.tlmq
  if q.queue.length < 1024 then
    let x := q.wm.cross q.queue.length (q.queue.length + 1) 1024
    let s := { s with tlmq := { q with queue := q.queue ++ [item], wm := x.1 } }
    if x.2 then s.resultCrossed 4 x.1.wmAt else s
  else { s with tlmq := { q with waiting := q.waiting ++ [item] } }

/-! ### Conversions -/

/-- The correction of R432: v and OVERRANGE of raw code `c` of an input with CH_OFFSET and CH_GAIN `h`. -/
def monCorrect (m : MonConv) (h : Int × Nat) (c : Nat) : Nat × Bool :=
  let num : Int := ((16 * (c : Int) - m.calOffset) * m.calGain - 32768 * h.1) * h.2
  let v := roundDiv num (32768 * 16384)
  let edge := c == 0 || c == 4095
  if v < 0 then (0, true) else if 65535 < v then (65535, true) else (v.toNat, edge)
/-- What a monitor input is connected to (Table 16.1): front-end monitor m of an engine, a board input, the converter's own test DAC, the
junction sensor of a line or a host tile, or a supply as one quadrant senses it. -/
inductive MonSource where
  | frontEnd (engine m : Nat) | board (n : Nat) | testDac | lineSensor (tile : Nat) | hostSensor (tile : Nat)
  | vddCore (quadrant : Nat) | vddConv (quadrant : Nat) | vddHsl (quadrant : Nat)
  deriving DecidableEq, Repr
/-- Local input i of MCk, which is MI(64k + i) (R431, Table 16.1). -/
def monSource (k i : Nat) : MonSource :=
  if i < 48 then .frontEnd (12 * k + i / 4) (i % 4)
  else if i < 56 then .board (8 * k + (i - 48))
  else if i = 56 then .testDac
  else if i < 60 then .lineSensor (3 * k + (i - 57))
  else if i = 60 then .hostSensor k
  else if i = 61 then .vddCore k
  else if i = 62 then .vddConv k
  else .vddHsl k
/-- Whether local input i of MCk is the junction sensor of a fenced tile (R431). -/
def sensorFenced (s : State) (k i : Nat) : Bool := match monSource k i with | .lineSensor t => (s.tile t).fenced | _ => false
/-- The scale of internal inputs (R431), v being in 1/16 LSB: a supply in 1/32 mV, and a temperature in 1/256 °C. -/
def supplyOf (v : Nat) : Nat := v
def junctionOf (v : Nat) : Int := (v : Int) - 25600
/-- A result of the test DAC's input at code d that a healthy path gives, converter calibrated and input factors at their defaults
(R433). -/
def testDacHealthy (d v : Nat) : Bool := decide (64 * d + 24 ≤ v + 32) && decide (v ≤ 64 * d + 56)
/-- Takes up a converter's next conversion when none is in progress: pending injected requests first, then the calibration
that waits for them, then the sequence (R435, R437, R439); a result for a full queue waits (R438). -/
def MonConv.begin (m : MonConv) (now tn : Nat) : MonConv :=
  if m.current.isSome then m
  else
    let room := decide (m.queue.length < 512)
    let early := m.injected.any (fun i => !i.held)
    match m.cal with
    | .running _ => m
    | cal =>
      if cal == .waiting && !early then { m with cal := .running now, stalled := false }
      else match m.injected with
        | i :: rest =>
          if room then { m with
            injected := rest, stalled := false
            heldLeft := m.heldLeft - b2n i.delayed
            heldLongest := if i.delayed then max m.heldLongest (now - i.asked) else m.heldLongest
            current := some { input := i.input, step := none, toQueue := true, delayed := i.delayed, startTn := tn, ends := false
                              corr := vget m.corr i.input (0, 16384) } }
          else { m with stalled := true }
        | [] => match m.run with
          | none => { m with stalled := false }
          | some cont =>
            let o := m.seq.getD m.nextStep 0
            if bit o 7 && !room then { m with stalled := true }
            else
              let last := decide (m.seq.length ≤ m.nextStep + 1)
              { m with stalled := false
                       nextStep := if last then 0 else m.nextStep + 1
                       current := some { input := field o 0 6, step := some m.nextStep, toQueue := bit o 7
                                         delayed := false, startTn := tn, ends := last && !cont
                                         corr := vget m.corr (field o 0 6) (0, 16384) } }
/-- The converter of MCk takes up what is next. -/
def State.monNext (k : Nat) (s : State) : State := s.modMc k (fun m => m.begin s.ticks s.tn)
/-- The longest delay in µs of the held requests, all started (R440): a request that starts d ticks after the tick of its request is
done 1 µs later. The places of request and start within their ticks are not state: what calibration's end told is taken within
the bounds they leave. -/
def MonConv.longestDelay (m : MonConv) : Nat :=
  max (8 * (m.heldLongest - 1) / 5 + 1) (min m.heldTold ((8 * (m.heldLongest + 1) + 4) / 5 + 1))
/-- The converter of MCk takes up what is next; as the last held request starts, MON_INJECT_DELAYED is raised (R440, Table 16.2). -/
def State.monNextTold (k : Nat) (s : State) : State :=
  let left := (s.mc k).heldLeft
  let s := s.monNext k
  let m := s.mc k
  if left != 0 && m.heldLeft == 0 then s.raise .monInjectDelayed .monConv k (w1 m.heldCount ++ w1 m.longestDelay) else s
/-- A monitor result item (Table 16.3). -/
def monItem (k : Nat) (m : MonConv) (c : Conversion) (v : Nat) (beyond : Bool) : Nat :=
  (if c.step.isSome then 1 else 2) * 2 ^ 60 + k * 2 ^ 58 + b2n c.delayed * 2 ^ 57 + b2n beyond * 2 ^ 56
    + (64 * k + c.input) * 2 ^ 48 + c.step.getD 0 * 2 ^ 42 + b2n (!m.calValid) * 2 ^ 40 + (c.startTn % 2 ^ 24) * 2 ^ 16 + v
/-- MON_CONVERSION_DONE: the conversion in progress completes with raw code `code`; it is corrected, and updates the
latest-value table and, where asked, the result queue (R432, R436). A result of the test DAC's input is held to the band of its
code (R433), on a calibrated converter with default input factors and no new code settling. -/
def execMonConversionDone (k : Fin 4) (code : Fin 4096) (s : State) : Res :=
  let m := s.mc k
  match m.current with
  | none => .next s
  | some c =>
    let r := if sensorFenced s k c.input then (0, true) else monCorrect m c.corr code
    let judged := c.input == 56 && m.calValid && decide (c.corr = (0, 16384)) && m.testDacNext.isNone
    let s := s.modMc k (fun m => { m with
      pathFault := if judged then !testDacHealthy m.testDac r.1 else m.pathFault
      current := none, run := if c.ends then none else m.run, latest := vmod m.latest c.input (fun _ =>
      { v := r.1, overrange := r.2, tn16 := c.startTn % 65536, doneAt := some s.ticks }) })
    let s := if c.toQueue then s.monPush k (monItem k m c r.1 r.2) else s
    .next (s.monNextTold k)
/-- Stalled time of a tick: 1.6 µs, each whole 1.0 µs of which counts (R438). -/
def State.monStall (k : Nat) (s : State) : State :=
  let m := s.mc k
  if m.stalled then
    (s.modMc k (fun m => { m with stallAcc := (m.stallAcc + 8) % 5 })).count .monStallUs .monConv k ((m.stallAcc + 8) / 5)
  else s.modMc k (fun m => { m with stallAcc := 0 })
/-- MON_TESTDAC_SETTLE: a new test DAC code takes effect 10 µs after its command (R433): 7 ticks are the first to have
passed. -/
def execMonTestdacSettle (k : Fin 4) (s : State) : Res :=
  match (s.mc k).testDacNext with
  | some (d, t) => if t + 6 ≤ s.ticks then .next (s.modMc k (fun m => { m with testDac := d, testDacNext := none })) else .next s
  | none => .next s

/-! ### Self-calibration -/

/-- A held request after its calibration's end (R439). -/
def Inject.freed (i : Inject) : Inject := { i with held := false, delayed := i.delayed || i.held }
/-- MON_CAL_COMPLETE: 2.4 ms of calibration end with new factors, stored or rejected (R439, R440); `longest` is the longest
delay in µs among the requests it held, which now run. -/
def execMonCalComplete (k : Fin 4) (offset : Int) (gain longest : Nat) (s : State) : Res :=
  let m := s.mc k
  match m.cal with
  | .running since =>
    if since + 1500 ≤ s.ticks then
      let pass := decide (offset.natAbs ≤ 1024) && decide (29491 ≤ gain) && decide (gain ≤ 36045)
      let s := s.modMc k (fun m => { m with
        cal := .none
        calValid := m.calValid || pass, calOffset := if pass then offset else m.calOffset
        calGain := if pass then gain else m.calGain
        run := m.startWait.orElse (fun _ => m.run), nextStep := if m.startWait.isSome then 0 else m.nextStep
        startWait := none
        injected := m.injected.map Inject.freed
        heldCount := (m.injected.filter (·.held)).length, heldLeft := (m.injected.filter (·.held)).length
        heldLongest := 0, heldTold := longest })
      let mine : Job → Bool := fun j => j.ticket.opcode == 0x600 && cIdx j.cmd == k.val
      let s := if pass then s.finishJobs mine .ok 0 [] else s.finishJobs mine .cancelled 0x600 []
      let s := s.raise .monCalDone .monConv k (w1 (b2n !pass) ++ wi offset ++ w1 gain)
      .next (s.monNextTold k)
    else .next s
  | _ => .next s
/-- MON_CAL (R439). -/
def specMonCal : OpSpec :=
  { code := 0x600, cls := .long, len := lenIs 1, target := tgtMon
    refuse := fun s c => if (s.mc (cIdx c)).cal != .none then some (.busy, 0) else none
    eff := .long (fun j c s =>
      ((s.modProto (fun p => { p with jobs := p.jobs ++ [j] })).modMc (cIdx c) (fun m => { m with cal := .waiting })).monNext
        (cIdx c)) }
/-- MON_CAL: calibrates one monitor converter. -/
def execMonCal (c : Cmd) (s : State) : Res := runOp specMonCal c s

/-! ### Sequences and injected conversions -/

/-- Octet i of the step list of MON_SEQ_SET. -/
def seqOctet (c : Cmd) (i : Nat) : Nat := field (cw c (2 + i / 4)) (24 - 8 * (i % 4)) 8
/-- MON_SEQ_SET (R434). -/
def specMonSeqSet : OpSpec :=
  { code := 0x601, len := lenIs 18, target := tgtMon
    ranges := rngU 1 1 64 :: (List.range 16).map (fun j => (j + 2, fun _ c =>
      (List.range 4).all (fun i => !bit (seqOctet c (4 * j + i)) 6)))
    refuse := fun s c => if (s.mc (cIdx c)).run.isSome then some (.busy, 0) else none
    eff := .now (fun c s => (s.modMc (cIdx c) (fun m => { m with
      seq := (List.range (cw c 1)).map (seqOctet c), nextStep := 0 }), []))
    read := some {
      selectors := 0, ok := fun _ _ => true, get := fun c s =>
      let l := (s.mc (cIdx c)).seq
      w1 l.length ++ packOctets ((List.range 64).map (fun i => BitVec.ofNat 8 (l.getD i 0))) } }
/-- MON_SEQ_SET: writes a converter's regular sequence. -/
def execMonSeqSet (c : Cmd) (s : State) : Res := runOp specMonSeqSet c s
/-- MON_SEQ_START at its boundary: a start whose TN falls in calibration waits for its end (R435, R439). -/
def applySeqStart (c : Cmd) (s : State) : State :=
  let k := cIdx c
  match (s.mc k).cal with
  | .running _ => s.modMc k (fun m => { m with startWait := some (cw c 1 == 1) })
  | _ => (s.modMc k (fun m => { m with
      run := some (cw c 1 == 1), nextStep := 0, current := m.current.map (fun x => { x with ends := false }) })).monNext k
/-- MON_SEQ_START (R435). -/
def specMonSeqStart : OpSpec :=
  { code := 0x602, align := .yes, len := lenIs 2, target := tgtMon, ranges := [rngU 1 0 1]
    eff := .boundary 0x602 applySeqStart }
/-- MON_SEQ_START: starts a sequence ONCE or CONTINUOUS. -/
def execMonSeqStart (c : Cmd) (s : State) : Res := runOp specMonSeqStart c s
/-- MON_SEQ_STOP (R435): the conversion in progress completes; a start that waits for the same tick is superseded
(Table 16.8). -/
def specMonSeqStop : OpSpec :=
  { code := 0x603, len := lenIs 1, target := tgtMon
    eff := .now (fun c s =>
      let s := s.cancelArmed (fun a => a.key.cls == 0x602 && a.key.index == cIdx c && a.due == s.tn + 1) .superseded c.tag.val
      ((s.modMc (cIdx c) (fun m => { m with run := none, startWait := none })).monNext (cIdx c), [])) }
/-- MON_SEQ_STOP: stops a sequence after the current conversion. -/
def execMonSeqStop (c : Cmd) (s : State) : Res := runOp specMonSeqStop c s
/-- MON_INJECT (R437, R439): at most four pending. -/
def specMonInject : OpSpec :=
  { code := 0x604, len := lenIs 2, target := tgtMon, ranges := [rngU 1 0 63]
    refuse := fun s c => if 4 ≤ (s.mc (cIdx c)).injected.length then some (.queueFull, 0) else none
    eff := .now (fun c s => ((s.modMc (cIdx c) (fun m => { m with
      injected := m.injected ++ [{ input := cw c 1, held := m.cal != .none, delayed := false, asked := s.ticks }] })).monNext (cIdx c), [])) }
/-- MON_INJECT: requests one injected conversion. -/
def execMonInject (c : Cmd) (s : State) : Res := runOp specMonInject c s
/-- MON_CORR_SET (R432): from the next conversion of the input. -/
def specMonCorrSet : OpSpec :=
  { code := 0x605, len := lenIs 4, target := tgtMon, ranges := [rngU 1 0 63, rngS 2 (-2048) 2047, rngU 3 8192 32767]
    eff := .now (fun c s => (s.modMc (cIdx c) (fun m => { m with corr := vmod m.corr (cw c 1) (fun _ => (cz c 2, cw c 3)) }), []))
    read := some {
      selectors := 1, ok := fun c _ => decide (cw c 1 < 64), get := fun c s =>
      let h := vget (s.mc (cIdx c)).corr (cw c 1) (0, 16384)
      wi h.1 ++ w1 h.2 } }
/-- MON_CORR_SET: sets CH_OFFSET and CH_GAIN of one input. -/
def execMonCorrSet (c : Cmd) (s : State) : Res := runOp specMonCorrSet c s
/-- MON_TESTDAC_SET (R433): a code that still settles is replaced (R44). -/
def specMonTestdacSet : OpSpec :=
  { code := 0x606, len := lenIs 2, target := tgtMon, ranges := [rngU 1 0 1023]
    eff := .now (fun c s => (s.modMc (cIdx c) (fun m => { m with testDacNext := some (cw c 1, s.ticks) }), []))
    read := some { selectors := 0, ok := fun _ _ => true, get := fun c s => w1 (s.mc (cIdx c)).testDac } }
/-- MON_TESTDAC_SET: sets the test DAC code. -/
def execMonTestdacSet (c : Cmd) (s : State) : Res := runOp specMonTestdacSet c s

/-! ### Registers (Tables 16.4 and R441) -/

/-- STATE of Table 16.4. -/
def MonConv.stateCode (m : MonConv) : Nat :=
  match m.cal with
  | .running _ => 3
  | _ => if m.stalled then 4 else match m.run with | none => 0 | some false => 1 | some true => 2
/-- A read of RESULT_LO of queue q, 0 to 3 a converter, 4 the telemetry output queue: the oldest item's low word, its high
word latched; the NOT_VALID marker on an empty queue (R412, R441). -/
def execMonResultRead (q : Fin 5) (s : State) : Res :=
  if !s.mapOpen then .next s
  else if q.val = 4 then
    match s.tlmq.queue with
    | [] => .next { s with tlmq := { s.tlmq with hi := 0xFFF00000 }, readWord := some 0 }
    | x :: r => .next { s with tlmq := { s.tlmq with queue := r ++ s.tlmq.waiting.take 1, waiting := s.tlmq.waiting.drop 1, hi := x >>> 32 }, readWord := some (BitVec.ofNat 32 x) }
  else
    match (s.mc q.val).queue with
    | [] => .next { (s.modMc q (fun m => { m with hi := 0xFFF00000 })) with readWord := some 0 }
    | x :: r => .next { ((s.modMc q (fun m => { m with queue := r, hi := x >>> 32 })).monNextTold q.val) with
        readWord := some (BitVec.ofNat 32 x) }
/-- A flush of result queue q (R414, Table 16.8): the items are discarded, counted and told; a stalled converter goes on, and held
telemetry outputs enter. -/
def State.resultFlush (q : Nat) (s : State) : State :=
  if q < 4 then
    let n := (s.mc q).queue.length
    (((s.modMc q (fun m => { m with queue := [] })).monNextTold q).count .flushedItems .queue (12 + q) n).raise
      .queueFlushed .queue (12 + q) (w1 n ++ w1 0)
  else
    let n := s.tlmq.queue.length
    let l := s.tlmq.waiting.take 1024
    let x := s.tlmq.wm.cross 0 l.length 1024
    let s : State := { s with tlmq := { s.tlmq with queue := l, waiting := s.tlmq.waiting.drop 1024, wm := x.1 } }
    let s := (s.count .flushedItems .queue 16 n).raise .queueFlushed .queue 16 (w1 n ++ w1 0)
    if x.2 then s.resultCrossed 4 x.1.wmAt else s

end Sys2Proof.Machine
end

