-- ==== Sys2Proof/Machine/Queues.lean ====
section
/-! DEFINITION. The queues of the Smiulo protocol and their registers: commits of command words (R392 to R394, R409, R410), flushes
(R414), rings (R416, R417, R515, R516), the SPI windows (R418, R518), held responses and events (R411), the event ring (R413), and
interrupts (R509, R510).
What it chooses or infers where the manual is silent, with its marks: log entry 16. -/
namespace Sys2Proof.Machine

/-! ### Items as words and octets -/

/-- Words a command with this header occupies (R394). -/
def headerSpan (h : Nat) : Nat := 1 + field h 31 1 + (field h 32 10 + 1) / 2
/-- The two 32-bit halves of queue words. -/
def halves (ws : List QWord) : List Word := (ws.map (fun w => w2 w.toNat)).flatten
/-- The command item that starts a list of queue words: its opcode and its content (Table 14.2). -/
def itemOf (src : Source) (ws : List QWord) : Nat × Cmd :=
  let h := (ws.headD 0).toNat
  let body := ws.tail
  let params := if bit h 31 then body.tail else body
  (field h 52 12,
    { src := src, tag := Fin.ofNat 1024 (field h 42 10), tn := if bit h 31 then some (body.headD 0).toNat else none
      noResponse := bit h 30, barrier := bit h 29, urgent := bit h 28, reserved := BitVec.ofNat 4 (field h 24 4)
      issuer := BitVec.ofNat 8 (field h 16 8), words := (halves params).take (field h 32 10) })
/-- Whether a command item's CHECK is correct (R393); on the NOT_VALID marker it is not checked (R400). -/
def checkGood (ws : List QWord) (op : Nat) (c : Cmd) : Bool :=
  (ws.headD 0).toNat == 0xFFF0000000000000 || checkOf op c == field (ws.headD 0).toNat 0 16
/-- Items of committed words, each word with the doorbell that committed it, and the words of an incomplete last item. A bad item
takes every word up to the PI of the doorbell that committed its header (R417); on SPI (`own`) its own words. -/
def parseWords (src : Source) (own : Bool) : Nat → List (QWord × Nat) → List CmdItem × List (QWord × Nat)
  | 0, ws => ([], ws)
  | fuel + 1, ws =>
    match ws with
    | [] => ([], [])
    | x :: _ =>
      let n := headerSpan x.1.toNat
      if ws.length < n then ([], ws)
      else
        let mine := (ws.take n).map (·.1)
        let it := itemOf src mine
        if checkGood mine it.1 it.2 then
          let r := parseWords src own fuel (ws.drop n)
          ({ opcode := it.1, cmd := it.2, span := n, bad := none } :: r.1, r.2)
        else
          let k := if own then n else (ws.takeWhile (fun y => y.2 == x.2)).length
          let r := parseWords src own fuel (ws.drop k)
          ({ opcode := it.1, cmd := it.2, span := k, bad := some x.1.toNat } :: r.1, r.2)
/-- Octets of 32-bit words, most significant first, padded to whole queue words (R394). -/
def paddedOctets (ws : List Word) : List Octet := unpackWords (if ws.length % 2 = 0 then ws else ws ++ [0])
/-- The first 8 octets of an item whose header bits above CHECK are `bits`, with its CHECK (R393). -/
def withCheck (bits : Nat) (body : List Octet) (ws : List Word) : List Octet :=
  octetsBE 6 bits ++ octetsBE 2 (crc16 (octetsBE 6 bits ++ body ++ unpackWords ws)) ++ body ++ paddedOctets ws
/-- A response item as sent (Table 14.4). -/
def Resp.octets (r : Resp) : List Octet :=
  withCheck (r.opcode * 2 ^ 36 + r.tag * 2 ^ 26 + r.words.length * 2 ^ 16 + r.status * 256 + r.issuer)
    (octetsBE 8 ((if r.final then 0 else 2 ^ 62) + r.detail) ++ octetsBE 8 r.tn) r.words
/-- An event item as sent (Table 14.5). -/
def EventItem.octets (e : EventItem) : List Octet :=
  withCheck (e.code * 2 ^ 36 + e.prio * 2 ^ 34 + e.coalesced * 2 ^ 26 + e.words.length * 2 ^ 16 + e.kind * 2 ^ 12 + e.index)
    (octetsBE 8 e.tn) e.words
/-- The NOT_VALID marker (R400). -/
def notValid : List Octet := octetsBE 8 0xFFF0000000000000

/-! ### Flushes (R414) -/

/-- The transport of command queue set `n`: 0 to 3 the rings, 4 SPI. -/
def portSource (n : Nat) : Source := if h : n < 4 then .ring ⟨n, h⟩ else .spi
/-- Command queue set of transport `n`. -/
def cmdSetOf (n : Nat) : Nat := if n < 4 then n else 9
/-- Posts QUEUE_FLUSHED: items discarded and orphans. -/
def State.queueFlushed (q items orphans : Nat) (s : State) : State := s.raise .queueFlushed .queue q (w1 items ++ w1 orphans)
/-- The orphan period of transport `n` ends: QUEUE_FLUSHED is posted with its counts. -/
def State.endOrphans (n : Nat) (s : State) : State :=
  match (s.cmdq n).orphan with
  | some x => (s.modCmdq n (fun q => { q with orphan := none })).queueFlushed (cmdSetOf n) x.1 x.2
  | none => s
/-- Discards the items and the partial item of transport `n`, and begins an orphan period or, with none to come, posts
QUEUE_FLUSHED at once. -/
def State.flushCmd (n : Nat) (orphans : Bool) (s : State) : State :=
  let s := s.endOrphans n
  let k := (s.cmdq n).items.length
  let s := (s.modCmdq n (fun q => { q with items := [], partialWords := [] })).count .flushedItems .queue (cmdSetOf n) k
  if orphans then s.modCmdq n (fun q => { q with orphan := some (k, 0) }) else s.queueFlushed (cmdSetOf n) k 0
/-- MGMT_RDY after words have left the SPI command queue (R418). -/
def State.raiseRdy (s : State) : State := s.modProto (fun p => { p with mgmtRdy := p.mgmtRdy || decide (p.spi.fill + 64 ≤ 512) })
/-- A flush of a response queue: the items not yet consumed are discarded, but for one whose SPI read is in progress (R524). -/
def State.flushResp (n : Nat) (s : State) : State :=
  let l := vget s.proto.resp n []
  let keep := if n = 4 ∧ s.proto.spiRespRead ≠ 0 then l.take 1 else []
  let k := l.length - keep.length
  let s := s.modProto (fun p => { p with resp := vmod p.resp n (fun _ => keep) })
  let s := if n < 4 then s.modQreg (4 + n) (fun r => { r with pi := r.ci }) else s
  (s.count .flushedItems .queue (respSet n) k).queueFlushed (respSet n) k 0
/-- A flush of the event queue: its items are discarded; held source items are not. -/
def State.flushEvents (s : State) : State :=
  let keep := if s.proto.spiEventRead ≠ 0 then s.proto.eventQueue.take 1 else []
  let k := s.proto.eventQueue.length - keep.length
  (((s.modProto (fun p => { p with eventQueue := keep })).count .flushedItems .queue 11 k).queueFlushed 11 k 0).refreshAlert
/-- The FLUSH bit of queue set q (Table 19.6). -/
def State.flushSet (q : Nat) (s : State) : State :=
  if q < 4 then (s.flushCmd q true).modQreg q (fun r => { r with ci := r.pi })
  else if q < 8 then s.flushResp (q - 4)
  else if q = 8 then
    let k := s.proto.eventRing.length
    let s := (s.modProto (fun p => { p with eventRing := [] })).modQreg 8 (fun r => { r with pi := r.ci })
    (s.count .flushedItems .queue 8 k).queueFlushed 8 k 0
  else if q = 9 then (s.flushCmd 4 s.proto.spiOpen).raiseRdy
  else if q = 10 then (s.flushResp 4).refreshAlert
  else s.flushEvents
/-- QUEUE_FLUSH: FLUSH of queue sets 0 to 11, or of a monitor result queue (12 to 15) or the telemetry output queue (16). -/
def execQueueFlush (q : Fin 17) (s : State) : Res :=
  if !s.mapOpen then .next s else if q.val < 12 then .next (s.flushSet q) else .next (s.resultFlush (q - 12))

/-! ### Command rings (R417) -/

/-- Commits words to a command ring, items and an incomplete last one (R409). -/
def State.commitWords (q pi : Nat) (words : List QWord) (s : State) : State :=
  let old := s.fill q
  let s := s.modQreg q (fun r => { r with pi := pi })
  let all := (s.cmdq q).partialWords ++ words.map (fun w => (w, pi))
  let r := parseWords (portSource q) false all.length all
  ((s.modCmdq q (fun c => { c with items := c.items ++ r.1, partialWords := r.2 })).wmCross q old).dropBad q 64
/-- The device drops the words of a ring up to PI: CI moves there. -/
def State.dropToPi (q : Nat) (s : State) : State := (s.modQreg q (fun r => { r with ci := r.pi })).advanced q
/-- A doorbell on an enabled command ring, within its size: `words` are what host memory holds from the old PI on. -/
def State.doorbell (q pi : Nat) (sync : Bool) (words : List QWord) (s : State) : State :=
  let r := s.qreg q
  let size := 2 ^ r.log2
  let n := (pi + size - r.pi) % size
  let used := (r.pi + size - r.ci) % size
  let cq := s.cmdq q
  let ws := (words ++ List.replicate n 0).take n
  if n + used < size then
    match cq.orphan with
    | some x =>
      if sync then (s.endOrphans q).commitWords q pi ws
      else
        let s := (s.modQreg q (fun r => { r with pi := pi })).modCmdq q (fun c => { c with orphan := some (x.1, x.2 + n) })
        if n = 0 then s else (s.count .orphanWords .queue q n).dropToPi q
    | none => s.commitWords q pi ws
  else if cq.partialWords.length ≠ 0 ∧ (r.pi + size - pi) % size = cq.partialWords.length then
    ((s.modQreg q (fun r => { r with pi := pi })).modCmdq q (fun c => { c with partialWords := [] })).rewind q .abandoned
      ((cq.partialWords.head?.map (·.1.toNat)).getD 0)
  else (s.flushCmd q true).modQreg q (fun r => { r with pi := pi, ci := pi })
/-- COMMAND_RING_DOORBELL: a write of PI and SYNC; one with a bit at or above LOG2_SIZE, or on a disabled ring, is ignored (R515,
R524). -/
def execCommandRingDoorbell (q : Fin 4) (pi : Nat) (sync : Bool) (words : List QWord) (s : State) : Res :=
  if s.mapOpen && (s.qreg q).enable && decide (pi < 2 ^ (s.qreg q).log2) then .next (s.doorbell q pi sync words) else .next s

/-! ### Ring registers (R515) -/

/-- ENABLE of a ring written from 0 to 1. -/
def State.enableRing (q : Nat) (s : State) : State :=
  let s := s.modQreg q (fun r => { r with enable := true, pi := 0, ci := 0, shadowWord := 0, wm := { r.wm with latched := false } })
  if q < 4 then (s.endOrphans q).modCmdq q (fun c => { c with items := [], partialWords := [] })
  else if q < 8 then s.modProto (fun p => { p with resp := vmod p.resp (q - 4) (fun _ => []) })
  else (s.modProto (fun p => { p with eventRing := [], spiEventRead := 0 })).refreshAlert
/-- ENABLE of a ring written from 1 to 0: on a command ring a flush, PI and CI kept. -/
def State.disableRing (q : Nat) (s : State) : State :=
  let s := s.modQreg q (fun r => { r with enable := false })
  if q < 4 then s.flushCmd q true else s.refreshAlert
/-- A write of the control word of a ring, offset 0x10 of its set. -/
def State.writeControl (q w : Nat) (s : State) : State :=
  let on := (s.qreg q).enable
  let s := s.modQreg q (fun r => { r with log2 := if on then r.log2 else field w 16 5, intOnItem := bit w 10, intHoldoff := field w 0 10 })
  let k := (s.qreg q).log2
  let s := if bit w 31 && !on && decide (10 ≤ k) && decide (k ≤ 20) then s.enableRing q
    else if !bit w 31 && on then s.disableRing q else s
  if bit w 30 then s.flushSet q else s
/-- RING_ENABLE_WRITE: a write of the control word of rings 0 to 8: ENABLE, FLUSH, LOG2_SIZE, INT_ON_ITEM, INT_HOLDOFF. -/
def execRingEnableWrite (q : Fin 9) (w : Word) (s : State) : Res :=
  if s.mapOpen then .next (s.writeControl q w.toNat) else .next s
/-- Items of a device-produced ring that are not wholly consumed when `left` words remain. -/
def unconsumed {α : Type} (f : α → Nat) (left : Nat) : List α → List α
  | [] => []
  | x :: r => if left ≤ total f r then unconsumed f left r else x :: r
/-- A write of CI on a device-produced ring: it returns space; one that would pass PI, or with a bit at or above LOG2_SIZE, is
ignored. -/
def State.writeCi (q ci : Nat) (s : State) : State :=
  let r := s.qreg q
  let size := 2 ^ r.log2
  if ci < size ∧ (ci + size - r.ci) % size ≤ s.fill q then
    let s := s.modQreg q (fun r => { r with ci := ci })
    let left := s.fill q
    if q = 8 then s.modProto (fun p => { p with eventRing := unconsumed EventItem.size left p.eventRing })
    else s.modProto (fun p => { p with resp := vmod p.resp (q - 4) (unconsumed Resp.size left) })
  else s
/-- RING_CI_WRITE: CI of response rings 0 to 3 (sets 4 to 7) or of the event ring (set 8). -/
def execRingCiWrite (q : Fin 9) (ci : Nat) (s : State) : Res :=
  if s.mapOpen && decide (4 ≤ q.val) then .next (s.writeCi q ci) else .next s
/-- WM_LATCHED written 1 (R415). -/
def State.wmClear (q : Nat) (s : State) : State :=
  if q < 12 then s.modQreg q (fun r => { r with wm := { r.wm with latched := false } })
  else if q < 16 then s.modMc (q - 12) (fun m => { m with wm := { m.wm with latched := false } })
  else { s with tlmq := { s.tlmq with wm := { s.tlmq.wm with latched := false } } }
/-- WM_LATCHED_CLEAR: queue sets 0 to 11, the result queues 12 to 15, the telemetry output queue 16. -/
def execWmLatchedClear (q : Fin 17) (s : State) : Res := if s.mapOpen then .next (s.wmClear q) else .next s

/-! ### Held items (R411) -/

/-- HELD_RESPONSE_COMMIT: the oldest response held for a transport's response queue is committed when it fits. -/
def execHeldResponseCommit (n : Fin 5) (s : State) : Res :=
  match vget s.proto.heldResp n [] with
  | [] => .next s
  | r :: rest =>
    if s.respFits n r.size then
      .next ((s.modProto (fun p => { p with heldResp := vmod p.heldResp n (fun _ => rest) })).commitResp n r)
    else .next s
/-- HELD_EVENT_ENTRY: the item of the source that has waited longest enters the event queue when it has space. -/
def execHeldEventEntry (s : State) : Res :=
  match s.proto.heldEvents with
  | [] => .next s
  | e :: rest =>
    if s.proto.eventQueue.length < 4096 then .next ((s.modProto (fun p => { p with heldEvents := rest })).postEvent e) else .next s
/-- EVENT_RING_DRAIN: the first item of the event queue moves into the enabled event ring when it fits (R390, R413). -/
def execEventRingDrain (s : State) : Res :=
  match s.proto.eventQueue with
  | [] => .next s
  | e :: rest =>
    let old := s.fill 8
    if (s.qreg 8).enable && s.dev.endpointUp && !s.dev.d3hot && decide (old + e.size < s.capacity 8) then
      let s := s.modProto (fun p => { p with eventQueue := rest, eventRing := p.eventRing ++ [e] })
      let s := (s.modQreg 8 (fun r => { r with pi := (r.pi + e.size) % 2 ^ r.log2 })).advanced 8
      .next ((s.wmCross 8 old).refreshAlert)
    else .next s

/-! ### Interrupts -/

/-- INT_HOLDOFF_EXPIRY: an advance that fell inside the hold-off of a ring is signalled when it ends (R510). -/
def execIntHoldoffExpiry (q : Fin 9) (s : State) : Res :=
  if (s.qreg q).deferred && holdoffOver (s.qreg q) s.ticks then .next (s.signalRing q) else .next s
/-- A vector is unmasked: a pending message is sent (R509). -/
def State.unmask (v : Nat) (s : State) : State :=
  s.modDev (fun d => { d with
    msix := vmod d.msix v (fun m =>
    { m with masked := false, pendingBit := false, sent := m.sent + b2n m.pendingBit }) })
/-- MSIX_UNMASK: the mask bit of a vector is cleared. -/
def execMsixUnmask (v : Fin 64) (s : State) : Res := if s.pathOpen .pcie then .next (s.unmask v) else .next s

/-! ### The SPI windows (R418, R518) -/

/-- A word of the command window with no flush or drop in force. -/
def State.spiWord (w : QWord) (s : State) : State :=
  let q := s.proto.spi
  let first := match q.partialWords.head? with | some x => x.1.toNat | none => w.toNat
  let drop := fun (r : BadReason) (s : State) =>
    (((s.modCmdq 4 (fun q => { q with partialWords := [] })).modProto (fun p => { p with spiDrop := true })).raiseRdy).rewind 9 r first
  if 512 ≤ q.fill then drop .abandoned (s.count .spiOverrun .queue 9 1)
  else
    let old := s.fill 9
    let ws := q.partialWords ++ [(w, 0)]
    if 512 < headerSpan first then drop .oversize s
    else
      let r := parseWords .spi true ws.length ws
      let s := s.modCmdq 4 (fun q => { q with items := q.items ++ r.1, partialWords := r.2 })
      let s := s.modProto (fun p => { p with mgmtRdy := p.mgmtRdy && decide (p.spi.fill + 16 ≤ 512) })
      (s.wmCross 9 old).dropBad 4 64
/-- One word of a write transaction to the command window. -/
def State.spiIn (w : QWord) (s : State) : State :=
  match s.proto.spi.orphan with
  | some x => (s.modCmdq 4 (fun q => { q with orphan := some (x.1, x.2 + 1) })).count .orphanWords .queue 9 1
  | none => if s.proto.spiDrop then s.count .orphanWords .queue 9 1 else s.spiWord w
/-- The IO domain is in reset: no SPI transaction reaches the device, and MISO is high impedance (Table 18.4; log entry 18). -/
def State.ioHeld (s : State) : Bool := s.power.inReset.any (fun d => d.1 == .io)
/-- Words for a host image that is loading over SPI (R522). -/
def State.bootOverSpi (s : State) : Bool := s.dev.stage == .loading && s.dev.bootSrc == 3
/-- SPI_COMMAND_WINDOW_WRITE: whole words of a write transaction; `first` begins it, `last` ends it with SPI_CS_N rising. In a reset of the
MGMT domain or of the whole device the queue takes nothing (R419). -/
def execSpiCommandWindowWrite (first last : Bool) (words : List QWord) (s : State) : Res :=
  if !s.mapOpen || s.ioHeld then .next s
  else if s.bootOverSpi then
    .next (s.modDev (fun d => { d with bootStage := (d.bootStage ++ (words.map (fun w => octetsBE 8 w.toNat)).flatten).take d.bootImgLen }))
  else if s.proto.spiDead && !first then .next (s.modProto (fun p => { p with spiDead := p.spiDead && !last }))
  else
    let s := if first then (s.endOrphans 4).modProto (fun p => { p with spiOpen := true, spiDrop := false, spiDead := false }) else s
    let s := words.foldl (fun s w => s.spiIn w) s
    if last then
      let part := s.proto.spi.partialWords
      let s := s.modProto (fun p => { p with spiOpen := false })
      match part with
      | [] => .next s
      | x :: _ => .next (((s.modCmdq 4 (fun q => { q with partialWords := [] })).raiseRdy).rewind 9 .abandoned x.1.toNat)
    else .next s
/-- `n` octets clocked from a list of items, the first of which has had `pos` octets clocked: the octets, the items that have left,
and the octets clocked of the next. -/
def clockOut {α : Type} (f : α → List Octet) : Nat → Nat → List α → Nat → List Octet × Nat × Nat
  | 0, _, _, _ => ([], 0, 0)
  | _, n, [], _ => ((List.replicate (n / 8 + 1) notValid).flatten.take n, 0, 0)
  | fuel + 1, n, x :: r, pos =>
    let o := (f x).drop pos
    if n < o.length then (o.take n, 0, pos + n)
    else
      let y := clockOut f fuel (n - o.length) r 0
      (o ++ y.1, 1 + y.2.1, y.2.2)
/-- SPI_RESPONSE_WINDOW_READ: `n` data octets of a READ transaction; `last` ends it with SPI_CS_N rising, and an item not wholly
clocked out then stays. -/
def execSpiResponseWindowRead (n : Nat) (last : Bool) (s : State) : Res :=
  if s.ioHeld then .next { s with spiReply := [] }
  else if s.proto.spiDead then
    .next { s.modProto (fun p => { p with spiDead := !last }) with spiReply := List.replicate n 0 }
  else
    let l := vget s.proto.resp 4 []
    let y := clockOut Resp.octets (l.length + 1) n l s.proto.spiRespRead
    let t : State := { s.modProto (fun p => { p with
      resp := vmod p.resp 4 (fun l => l.drop y.2.1), spiRespRead := if last then 0 else y.2.2 }) with spiReply := y.1 }
    .next (if y.2.1 = 0 then t else t.refreshAlert)
/-- SPI_EVENT_WINDOW_READ: the same for the event queue, while the event ring is disabled (R390). -/
def execSpiEventWindowRead (n : Nat) (last : Bool) (s : State) : Res :=
  if s.ioHeld then .next { s with spiReply := [] }
  else if s.proto.spiDead then
    .next { s.modProto (fun p => { p with spiDead := !last }) with spiReply := List.replicate n 0 }
  else
    let l := if (s.qreg 8).enable then [] else s.proto.eventQueue
    let y := clockOut EventItem.octets (l.length + 1) n l s.proto.spiEventRead
    let t : State := { s.modProto (fun p => { p with
      eventQueue := p.eventQueue.drop y.2.1, spiEventRead := if last then 0 else y.2.2 }) with spiReply := y.1 }
    .next (if y.2.1 = 0 then t else t.refreshAlert)
/-- MGMT_RDY (R418, R519): none for high impedance, in a reset of the IO domain; low while the SPI command queue is in reset, and, from
an SPI boot source, while the ROM cannot take image words. -/
def State.mgmtRdyPin (s : State) : Option Bool :=
  if s.ioHeld then none
  else if s.sysHeld || s.proto.mgmtResetArmed.isSome then some false
  else if s.dev.bootSrc == 3 && s.dev.stage != .running then
    some (s.bootOverSpi && decide (s.dev.bootStage.length < s.dev.bootImgLen))
  else some s.proto.mgmtRdy
/-- The status octet of the SPI target (R517). -/
def State.spiStatus (s : State) : Nat :=
  b2n s.dev.alertAsserted * 128 + b2n (!(s.qreg 8).enable && !s.proto.eventQueue.isEmpty) * 4
    + b2n (!(vget s.proto.resp 4 []).isEmpty) * 2 + b2n (s.mgmtRdyPin == some true)
/-- SPI_STATUS: the status octet is clocked out. -/
def execSpiStatus (s : State) : Res :=
  if s.ioHeld then .next { s with spiReply := [] } else .next { s with spiReply := [BitVec.ofNat 8 s.spiStatus] }

/-! ### Progress (R428) -/

/-- PROGRESS: the running class L command at a place in parse order posts PROGRESS with the fraction completed in 1/256. -/
def execProgress (seq : Nat) (fraction : Fin 257) (s : State) : Res :=
  match s.proto.jobs.find? (fun j => j.ticket.seq == seq) with
  | none => .next s
  | some j =>
    let s := s.modProto (fun p => { p with jobs := p.jobs.map (fun x => if x.ticket.seq = seq then { x with lastProgress := s.ticks } else x) })
    .next (s.raise .progress .device 0 (w1 j.ticket.tag ++ w1 j.ticket.issuer ++ w1 fraction))

end Sys2Proof.Machine
end

