-- ==== Sys2Proof/Machine/Registers.lean ====
section
/-! DEFINITION. Register writes over the map of Table 19.4 (R12, R13, R511 to R513), and the MSI-X table in BAR2 (R507, R509).
What it chooses or infers where the manual is silent, with its marks: log entry 37. -/
namespace Sys2Proof.Machine

/-! ### Writes by block -/

/-- The device block (Table 19.5). -/
def State.writeDevice (o v : Nat) (s : State) : State :=
  if o = 0x010 then (s.modDev (fun d => { d with alertMask := v })).refreshAlert
  else if o = 0x014 then s.modDev (fun d => { d with scratch := v })
  else if o = 0x018 then s.modDev (fun d => { d with bootImgAddrLo := v })
  else if o = 0x01C then s.modDev (fun d => { d with bootImgAddrHi := v })
  else if o = 0x020 then s.modDev (fun d => { d with bootImgLen := field v 0 24 })
  else if o = 0x024 ∧ bit v 0 then s.bootGoWrite
  else s
/-- A queue register set (Table 19.6, R515). The PI of a command ring is written by its doorbell row, which delivers the words that
become visible. -/
def State.writeQueue (q o v : Nat) (s : State) : State :=
  let free := decide (q < 9) && !(s.qreg q).enable
  if o = 0x00 then if free then s.modQreg q (fun r => { r with baseLo := v / 4096 * 4096 }) else s
  else if o = 0x04 then if free then s.modQreg q (fun r => { r with baseHi := v }) else s
  else if o = 0x08 then if free then s.modQreg q (fun r => { r with shadowLo := v / 8 * 8 }) else s
  else if o = 0x0C then if free then s.modQreg q (fun r => { r with shadowHi := v }) else s
  else if o = 0x10 then if q < 9 then s.writeControl q v else if bit v 30 then s.flushSet q else s
  else if o = 0x18 then if 4 ≤ q ∧ q < 9 then s.writeCi q (field v 0 20) else s
  else if o = 0x1C then s.modQreg q (fun r => { r with wm := { r.wm with level := field v 0 20 } })
  else if o = 0x20 ∧ bit v 31 then s.wmClear q
  else s
/-- The control word of a result queue (Table 16.4, offset 0x00C): k below 4 the monitor converters, 4 the telemetry queue. -/
def State.writeResult (k v : Nat) (s : State) : State :=
  let s := if k < 4 then s.modMc k (fun m => { m with wm := { m.wm with level := field v 16 11 } })
    else { s with tlmq := { s.tlmq with wm := { s.tlmq.wm with level := field v 16 11 } } }
  let s := if bit v 0 then s.wmClear (12 + k) else s
  if bit v 31 then s.resultFlush k else s
/-- A configuration register of a DMA channel (Table 17.6). -/
def DmaChannel.write (d : DmaChannel) (o v : Nat) : DmaChannel :=
  if o = 0x00 then { d with hostLo := v }
  else if o = 0x04 then { d with hostHi := v }
  else if o = 0x08 then { d with devOffset := field v 0 23 }
  else if o = 0x0C then { d with lineLen := field v 0 21 }
  else if o = 0x10 then { d with lineCount := field v 0 17 }
  else if o = 0x14 then { d with hostStride := v }
  else if o = 0x18 then { d with devStride := field v 0 24 }
  else if o = 0x1C then { d with planeStride := v }
  else if o = 0x20 then { d with complLo := v }
  else if o = 0x24 then { d with complHi := v }
  else if o = 0x28 then { d with devSel := bit v 12, tile := field v 8 4, intEn := bit v 2, sext := bit v 1, deint := bit v 0 }
  else d
/-- The DMA block: writes other than GO and ABORT are ignored while STATE is WAITING or RUNNING (R470). -/
def State.writeDma (c o v : Nat) (s : State) : State :=
  let busy := (s.dc c).state == .waiting || (s.dc c).state == .running
  let s := if busy then s else s.modDc c (fun d => d.write o v)
  if o = 0x28 then
    let s := if bit v 31 then s.channelGo c else s
    if bit v 30 then s.channelAbort c else s
  else s
/-- The MSI-X table in BAR2 (R507): 16 octets to a vector; clearing a vector's mask sends what is pending. -/
def State.writeMsix (o v : Nat) (s : State) : State :=
  let i := o / 16
  if 64 ≤ i then s
  else if o % 16 = 0 then s.modDev (fun d => { d with msix := vmod d.msix i (fun m => { m with addrLo := v / 4 * 4 }) })
  else if o % 16 = 4 then s.modDev (fun d => { d with msix := vmod d.msix i (fun m => { m with addrHi := v }) })
  else if o % 16 = 8 then s.modDev (fun d => { d with msix := vmod d.msix i (fun m => { m with data := v }) })
  else if bit v 0 then s.modDev (fun d => { d with msix := vmod d.msix i (fun m => { m with masked := true }) })
  else s.unmask i
/-- A write at an offset of the register map (Table 19.4); reserved addresses and read-only registers ignore it (R512). -/
def State.writeMap (a v : Nat) (s : State) : State :=
  if a < 0x1000 then s.writeDevice a v
  else if 0x1000 ≤ a ∧ a < 0x1300 then s.writeQueue ((a - 0x1000) / 0x40) ((a - 0x1000) % 0x40) v
  else if a = 0x3000 then if bit v 0 then s.snapAsk else s
  else if 0x4000 ≤ a ∧ a < 0x4800 then if (a - 0x4000) % 0x200 = 0x00C then s.writeResult ((a - 0x4000) / 0x200) v else s
  else if a = 0x480C then s.writeResult 4 v
  else if 0x5000 ≤ a ∧ a < 0x5400 then s.writeDma ((a - 0x5000) / 0x40) ((a - 0x5000) % 0x40) v
  else s

/-! ### What the registers hold (R11, R512)

A read of one of these changes nothing; reads that take or latch, V0 and RESULT_LO, are rows of their own. -/

/-- A 64-bit quantity in two registers, the low half at the lower address (R11): half k. -/
def halfOf (n k : Nat) : Nat := n / 2 ^ (32 * k) % 2 ^ 32
/-- A register's octets on PCIe and SPI, in ascending address order (R11). -/
def registerOctets (v : Nat) : List Octet := octetsLE 4 v
/-- The device block (Table 19.5). -/
def State.readDevice (s : State) (o : Nat) : Nat :=
  if o = 0x000 then 0x481600A1 else if o = 0x004 then s.devFlags
  else if o = 0x008 then s.dev.bootSrc * 2 ^ 30 + s.dev.stage.code * 2 ^ 24 + b2n s.dev.fwSlot * 2 ^ 16 + s.dev.bootErr
  else if o = 0x00C then s.alertCause else if o = 0x010 then s.dev.alertMask else if o = 0x014 then s.dev.scratch
  else if o = 0x018 then s.dev.bootImgAddrLo else if o = 0x01C then s.dev.bootImgAddrHi
  else if o = 0x020 then s.dev.bootImgLen else if o = 0x024 then b2n s.dev.bootGo else 0
/-- A queue register set (Table 19.6): in sets 9 to 11 the ring fields read 0 and ENABLE reads 1 (R514). -/
def State.readQueue (s : State) (q o : Nat) : Nat :=
  let r := s.qreg q
  let ring := decide (q < 9)
  if o = 0x1C then r.wm.level
  else if o = 0x20 then b2n r.wm.latched * 2 ^ 31 + b2n (s.wmLive q) * 2 ^ 30 + r.wm.wmAt
  else if o = 0x24 then s.fill q
  else if !ring then (if o = 0x10 then 2 ^ 31 else 0)
  else if o = 0x00 then r.baseLo else if o = 0x04 then r.baseHi else if o = 0x08 then r.shadowLo else if o = 0x0C then r.shadowHi
  else if o = 0x10 then b2n r.enable * 2 ^ 31 + r.log2 * 2 ^ 16 + b2n r.intOnItem * 2 ^ 10 + r.intHoldoff
  else if o = 0x14 then r.pi else if o = 0x18 then r.ci else 0
/-- The time snapshot block (Table 10.8). -/
def SnapRegs.read (r : SnapRegs) (o : Nat) : Nat :=
  if o = 0x00 then b2n r.req else if o = 0x04 then r.seq * 65536 + r.flags
  else if o = 0x08 then halfOf r.tn 0 else if o = 0x0C then halfOf r.tn 1
  else if o = 0x10 then halfOf r.offset 0 else if o = 0x14 then halfOf r.offset 1 else if o = 0x18 then halfOf r.offset 2
  else if o = 0x1C then ux 32 r.freq else 0
/-- The queue registers of Table 16.4: HI as latched, fill and watermark; `cap` is the queue's capacity. -/
def resultRead (hi fill cap : Nat) (w : Watermark) (o : Nat) : Nat :=
  if o = 0x004 then hi else if o = 0x008 then w.wmAt * 2 ^ 16 + fill
  else if o = 0x00C then w.level * 2 ^ 16 + b2n (decide (effLevel w.level cap ≤ fill)) * 2 + b2n w.latched else 0
/-- A monitor converter's registers (Table 16.4). -/
def MonConv.read (m : MonConv) (o : Nat) : Nat :=
  if o < 0x010 then resultRead m.hi m.queue.length 512 m.wm o
  else if o = 0x010 then b2n m.calValid * 2 ^ 31 + ux 12 m.calOffset * 2 ^ 16 + m.calGain
  else if o = 0x014 then m.nextStep * 2 ^ 16 + m.injected.length * 2 ^ 8 + m.stateCode
  else if 0x100 ≤ o then let l := vget m.latest ((o - 0x100) / 4) .reset; l.tn16 * 2 ^ 16 + l.v else 0
/-- A DMA channel's registers (Table 17.6). GO and ABORT read 0 once the hardware has cleared them. -/
def DmaChannel.read (d : DmaChannel) (o : Nat) : Nat :=
  if o = 0x00 then d.hostLo else if o = 0x04 then d.hostHi else if o = 0x08 then d.devOffset else if o = 0x0C then d.lineLen
  else if o = 0x10 then d.lineCount else if o = 0x14 then d.hostStride else if o = 0x18 then d.devStride
  else if o = 0x1C then d.planeStride else if o = 0x20 then d.complLo else if o = 0x24 then d.complHi
  else if o = 0x28 then b2n d.abort * 2 ^ 30 + b2n d.devSel * 2 ^ 12 + d.tile * 2 ^ 8 + b2n d.intEn * 4 + b2n d.sext * 2 + b2n d.deint
  else if o = 0x2C then d.state.code * 2 ^ 28 + d.ended.code * 2 ^ 24 + d.linesDone else if o = 0x30 then d.bytesDone else 0
/-- The register at an aligned offset of the map (Table 19.4); reserved addresses read 0 (R512). V1 and V2 of a counter slot come from
the path's latch where it names the slot (R459). -/
def State.readMap (s : State) (p : Path) (a : Nat) : Nat :=
  if a < 0x1000 then s.readDevice a
  else if 0x1000 ≤ a ∧ a < 0x1300 then s.readQueue ((a - 0x1000) / 0x40) ((a - 0x1000) % 0x40)
  else if 0x3000 ≤ a ∧ a < 0x3020 then s.time.snap.read (a - 0x3000)
  else if 0x4000 ≤ a ∧ a < 0x4800 then (s.mc ((a - 0x4000) / 0x200)).read ((a - 0x4000) % 0x200)
  else if 0x4800 ≤ a ∧ a < 0x4810 then resultRead s.tlmq.hi s.tlmq.queue.length 1024 s.tlmq.wm (a - 0x4800)
  else if 0x5000 ≤ a ∧ a < 0x5400 then (s.dc ((a - 0x5000) / 0x40)).read ((a - 0x5000) % 0x40)
  else if 0x1C0000 ≤ a ∧ a < 0x1C000C then (s.snapStatus.getD ((a - 0x1C0000) / 4) 0).toNat
  else if 0x100000 ≤ a ∧ a < 0x1C0000 then
    let slot := (a - 0x100000) / 16
    let k := a % 16 / 4
    if k = 0 then s.ctr.wordNow slot 0 else if k < 3 then s.ctr.readUpper p slot k else 0
  else 0
/-- REGISTER_WRITE: a 32-bit write by one path; `bar2` names the MSI-X table, which only PCIe reaches. A write that is not aligned to
4 octets is ignored (R512). -/
def execRegisterWrite (path : Path) (bar2 : Bool) (offset : Nat) (value : Word) (s : State) : Res :=
  if !s.pathOpen path || offset % 4 != 0 then .next s
  else if bar2 then if path == .pcie then .next (s.writeMsix offset value.toNat) else .next s
  else .next (s.writeMap offset value.toNat)

end Sys2Proof.Machine
end

