-- ==== Sys2Proof/Machine/Telemetry.lean ====
section
/-! DEFINITION. Telemetry filter chains (R448 to R453): sources, the four stages in both overflow modes, coefficient banks and
synchronising resets.
What it chooses or infers where the manual is silent, with its marks: log entry 34. -/
namespace Sys2Proof.Machine

/-- The source a source word names (R448). -/
def tlmSourceOf (w : Nat) : TlmSource :=
  match field w 28 4 with
  | 1 => .monitor (field w 16 12)
  | 2 => .estimate (field w 16 12) (field w 0 16)
  | _ => .none
/-- A source word within R448. -/
def tlmSourceOk (w : Nat) : Bool :=
  match field w 28 4 with
  | 0 => w == 0
  | 1 => decide (field w 16 12 < 256) && field w 0 16 == 0
  | 2 => decide (field w 16 12 < 48) && decide (field w 0 16 < 15)
  | _ => false
/-- LEGACY_SHIFT is selected (R450). -/
def TlmCfg.legacy (c : TlmCfg) : Bool := bit c.overflow 24
/-- Applies `f` to a telemetry chain. -/
def State.modChain (n : Nat) (f : TlmChain → TlmChain) (s : State) : State := { s with chains := vmod s.chains n f }
/-- A telemetry chain. -/
def State.chain (s : State) (n : Nat) : TlmChain := vget s.chains n TlmChain.reset

/-- The synchronising reset of R453: every stage's memory and phase cleared, OUT_SEQ 0. The banks are kept; a pending swap
waits for the first output after the reset (Table 16.8). -/
def TlmChain.sync (c : TlmChain) : TlmChain :=
  { c with integ := List.replicate 4 0, comb := List.replicate 4 0, hb1Mem := [], hb2Mem := [], firMem := []
           counts := [0, 0, 0, 0], lastStale := none, lastSample := 0, sampledAt := none, outputs := 0 }

/-! ### Stages -/

/-- 32-bit two's complement wrap, and whether it changed the value. -/
def wrap32 (z : Int) : Int × Bool := let v := sx 32 (ux 32 z); (v, v != z)
/-- One input through the four integrators; in LEGACY_SHIFT each wraps at 32 bits. -/
def integrate (legacy : Bool) : Int → List Int → List Int × Nat
  | _, [] => ([], 0)
  | x, a :: r =>
    let y := if legacy then wrap32 (a + x) else (a + x, false)
    let t := integrate legacy y.1 r
    (y.1 :: t.1, b2n y.2 + t.2)
/-- One decimated value through the four combs: the output, the delays, and the wraps. -/
def combs (legacy : Bool) : Int → List Int → Int × List Int × Nat
  | x, [] => (x, [], 0)
  | x, a :: r =>
    let y := if legacy then wrap32 (x - a) else (x - a, false)
    let t := combs legacy y.1 r
    (t.1, x :: t.2.1, b2n y.2 + t.2.2)
/-- Half-band coefficients, in 1/512 (R449). -/
def halfBand : List Int := [3, 0, -25, 0, 150, 256, 150, 0, -25, 0, 3]
/-- Σ h_k x_{n−k} over a delay line, newest first. -/
def fir (h : List Int) (x : List (Rat × Bool)) : Rat := (List.zipWith (fun (a : Int) (b : Rat × Bool) => (a : Rat) * b.1) h x).foldl (· + ·) 0
/-- A sample that a filter's output depends on, one under a coefficient that is not 0, is STALE (R448). -/
def anyStale (h : List Int) (x : List (Rat × Bool)) : Bool := (List.zipWith (fun (a : Int) (b : Rat × Bool) => a != 0 && b.2) h x).any id
/-- A stage's output in LEGACY_SHIFT: wrapped at 32 bits, then shifted right. -/
def legacyOut (z : Int) (shift : Nat) : Rat × Nat := let w := wrap32 z; (((w.1 / (2 ^ shift : Nat) : Int) : Rat), b2n w.2)
/-- One half-band: its memory, whether it puts out a value, and the value with the mark and the wraps. -/
def halfStep (legacy : Bool) (shift n : Nat) (mem : List (Rat × Bool)) (x : Rat × Bool) :
    List (Rat × Bool) × Option (Rat × Bool) × Nat :=
  let mem := (x :: mem).take 11
  if n % 2 = 0 then
    let y := fir halfBand mem / 512
    if legacy then let o := legacyOut y.floor shift; (mem, some (o.1, anyStale halfBand mem), o.2)
    else (mem, some (y, anyStale halfBand mem), 0)
  else (mem, none, 0)
/-- First settled output of a stage (R453). -/
def settledFrom (l d sIn : Nat) : Nat := (sIn + l - 1 + d - 1) / d
/-- The first settled output of a chain. -/
def TlmCfg.settled (c : TlmCfg) : Nat :=
  let a := settledFrom (4 * c.cic - 3) c.cic 1
  let b := if c.hb1 then settledFrom 11 2 a else a
  let d := if c.hb2 then settledFrom 11 2 b else b
  settledFrom 64 c.fir d
/-- A telemetry output item (Table 16.6). -/
def tlmItem (n : Nat) (settled sat stale : Bool) (seq : Nat) (v : Int) : Nat :=
  3 * 2 ^ 60 + n * 2 ^ 54 + b2n settled * 2 ^ 53 + b2n sat * 2 ^ 52 + b2n stale * 2 ^ 51 + (seq % 65536) * 2 ^ 32 + ux 32 v

/-- A value reaches the FIR of chain n (R449, R451, R452): every F-th is an output instant, at which a pending swap takes
effect first. -/
def State.tlmFir (n : Nat) (x : Rat × Bool) (s : State) : State :=
  let c := s.chain n
  let k := c.counts.getD 3 0 + 1
  let mem := (x :: c.firMem).take 64
  let s := s.modChain n (fun c => { c with firMem := mem, counts := c.counts.set 3 k })
  if k % c.cfg.fir ≠ 0 then s
  else
    let active := if c.swapPending then c.shadow.getD c.active else c.active
    let y := fir active mem / 16384
    let out : Int × Bool × Nat :=
      if c.cfg.legacy then let o := legacyOut y.floor (field c.cfg.overflow 0 4); (o.1.floor, false, o.2)
      else
        let v := (y * 16 + 1 / 2).floor
        (clampI (-(2 ^ 31 - 1)) (2 ^ 31 - 1) v, decide (2 ^ 31 - 1 < v) || decide (v < -(2 ^ 31 - 1)), 0)
    let tell := out.2.1 && c.lastSat.all (fun t => decide (t + 625000 < s.ticks))
    let s := s.modChain n (fun c => { c with
      active := active, shadow := if c.swapPending then some c.active else c.shadow, swapPending := false
      outputs := c.outputs + 1, lastSat := if out.2.1 then some s.ticks else c.lastSat })
    let s := s.countSub .tlmWraps .monConv 4 n out.2.2
    let s := s.tlmPush (tlmItem n (decide (c.cfg.settled ≤ c.outputs + 1)) out.2.1 (anyStale active mem) c.outputs out.1)
    if tell then s.raise .tlmSaturated .device 0 (w1 n ++ w2 s.tn) else s
/-- A value reaches HB2. -/
def State.tlmHb2 (n : Nat) (x : Rat × Bool) (s : State) : State :=
  let c := s.chain n
  if !c.cfg.hb2 then s.tlmFir n x
  else
    let k := c.counts.getD 2 0 + 1
    let r := halfStep c.cfg.legacy (field c.cfg.overflow 8 2) k c.hb2Mem x
    let s := (s.modChain n (fun c => { c with hb2Mem := r.1, counts := c.counts.set 2 k })).countSub .tlmWraps .monConv 4 n r.2.2
    match r.2.1 with | some y => s.tlmFir n y | none => s
/-- A value reaches HB1. -/
def State.tlmHb1 (n : Nat) (x : Rat × Bool) (s : State) : State :=
  let c := s.chain n
  if !c.cfg.hb1 then s.tlmHb2 n x
  else
    let k := c.counts.getD 1 0 + 1
    let r := halfStep c.cfg.legacy (field c.cfg.overflow 12 2) k c.hb1Mem x
    let s := (s.modChain n (fun c => { c with hb1Mem := r.1, counts := c.counts.set 1 k })).countSub .tlmWraps .monConv 4 n r.2.2
    match r.2.1 with | some y => s.tlmHb2 n y | none => s
/-- One source sample enters chain n (R449). -/
def State.tlmInput (n : Nat) (v : Int) (stale : Bool) (s : State) : State :=
  let c := s.chain n
  let x := if stale then c.lastSample else v
  let k := c.counts.getD 0 0 + 1
  let i := integrate c.cfg.legacy x c.integ
  let lastStale := if stale then some k else c.lastStale
  let s := (s.modChain n (fun c => { c with
    integ := i.1, counts := c.counts.set 0 k, lastStale := lastStale, lastSample := x, sampledAt := some s.ticks })).countSub
      .tlmWraps .monConv 4 n i.2
  if k % c.cfg.cic ≠ 0 then s
  else
    let o := combs c.cfg.legacy (i.1.getD 3 0) c.comb
    let mark := lastStale.any (fun t => decide (k < t + (4 * c.cfg.cic - 3)))
    let y : Rat × Nat := if c.cfg.legacy then legacyOut o.1 (field c.cfg.overflow 16 5)
      else ((o.1 : Rat) / ((c.cfg.cic ^ 4 : Nat) : Rat), 0)
    let s := (s.modChain n (fun c => { c with comb := o.2.1 })).countSub .tlmWraps .monConv 4 n (o.2.2 + y.2)
    s.tlmHb1 n (y.1, mark)

/-! ### Sources -/

/-- An estimate by code (Table of R448), in its units, PRE_FEC_BER in 2⁻²⁴, and whether it is STALE or not VALID. -/
def tlmEstimate (s : State) (e code : Nat) : Int × Bool :=
  let g := s.eng e
  let t := g.eq.est
  let stale := !g.inFrame || (staleFlags g.eq.freeze).getD code false
  ((if code < 8 then t.snr.getD code 0
    else if code = 8 then (t.preFecBer / 256 : Nat)
    else if code = 9 then t.cdEst
    else if code = 10 then (t.dgd : Int)
    else if code = 11 then (t.pdl : Int)
    else if code = 12 then (t.sopRate : Int)
    else if code = 13 then g.acq.freqOffset
    else t.timingFo), stale)
/-- Estimates updated only every 64 ticks (Table 6.10): SNR, CD, DGD, PDL. -/
def tlmSlow (code : Nat) : Bool := decide (code < 8) || (decide (9 ≤ code) && decide (code ≤ 11))
/-- TLM_SAMPLE: a telemetry chain takes one source sample through its stages, at most one in a tick, and of an estimate only
in the tick of its update (R448). -/
def execTlmSample (n : Fin 64) (s : State) : Res :=
  let c := s.chain n
  if c.sampledAt = some s.ticks then .next s
  else match c.cfg.source with
    | .none => .next s
    | .monitor mi => .next (s.tlmInput n (vget (s.mc (mi / 64)).latest (mi % 64) Latest.reset).v false)
    | .estimate e code =>
      if tlmSlow code && s.tn % 64 != 0 then .next s
      else let r := tlmEstimate s e code; .next (s.tlmInput n r.1 r.2)

/-! ### Commands -/

/-- The overflow word of R450. -/
def overflowOk (w : Nat) : Bool := (w &&& 0x011F330F) == w
/-- TLM_CHAIN_SET at its boundary: the configuration, and a synchronising reset (R448, R453). -/
def applyChainSet (c : Cmd) (s : State) : State :=
  s.modChain (cSub c) (fun ch => { ch.sync with
    cfg :=
    { source := tlmSourceOf (cw c 1), sourceWord := cw c 1, cic := cw c 2, hb1 := bit (cw c 3) 0, hb2 := bit (cw c 3) 1
      fir := cw c 4, overflow := cw c 5 } })
/-- TLM_CHAIN_SET (R448): half-band enables [0] HB1, [1] HB2. -/
def specTlmChainSet : OpSpec :=
  { code := 0x620, len := lenIs 6, target := tgtDeviceSub 64
    ranges := [rngP 1 tlmSourceOk, rngU 2 2 256, rngU 3 0 3, rngU 4 1 16, rngP 5 overflowOk]
    eff := .boundary 0x620 applyChainSet
    read := some {
      selectors := 0, ok := fun _ _ => true, get := fun c s =>
      let g := (s.chain (cSub c)).cfg
      w1 g.sourceWord ++ w1 g.cic ++ w1 (b2n g.hb1 + 2 * b2n g.hb2) ++ w1 g.fir ++ w1 g.overflow } }
/-- TLM_CHAIN_SET: configures and resets a telemetry chain. -/
def execTlmChainSet (c : Cmd) (s : State) : Res := runOp specTlmChainSet c s
/-- FIR tap i of TLM_COEF_LOAD, two to a word from word 2. -/
def firTap (c : Cmd) (i : Nat) : Int := sx 16 (field (cw c (2 + i / 2)) (if i % 2 = 0 then 16 else 0) 16)
/-- TLM_COEF_LOAD (R452): word 1 is reserved. -/
def specTlmCoefLoad : OpSpec :=
  { code := 0x621, len := lenIs 34, target := tgtDeviceSub 64, ranges := [rngU 1 0 0]
    refuse := fun s c =>
      let taps := (List.range 64).map (firTap c)
      if (s.chain (cSub c)).swapPending then some (.bankInUse, 0)
      else if taps.all (· == 0) || decide (131072 < (taps.map Int.natAbs).foldl (· + ·) 0) then some (.coefficientInvalid, 2)
      else none
    eff := .now (fun c s => (s.modChain (cSub c) (fun ch => { ch with shadow := some ((List.range 64).map (firTap c)) }), [])) }
/-- TLM_COEF_LOAD: writes a chain's FIR shadow bank. -/
def execTlmCoefLoad (c : Cmd) (s : State) : Res := runOp specTlmCoefLoad c s
/-- TLM_COEF_SWAP (R452). -/
def specTlmCoefSwap : OpSpec :=
  { code := 0x622, len := lenIs 1, target := tgtDeviceSub 64
    refuse := fun s c =>
      let ch := s.chain (cSub c)
      if ch.shadow.isNone || ch.swapPending then some (.bankEmpty, 0) else none
    eff := .now (fun c s => (s.modChain (cSub c) (fun ch => { ch with swapPending := true }), [])) }
/-- TLM_COEF_SWAP: makes a FIR bank swap pending. -/
def execTlmCoefSwap (c : Cmd) (s : State) : Res := runOp specTlmCoefSwap c s
/-- TLM_RESET (R453). -/
def specTlmReset : OpSpec :=
  { code := 0x623, align := .yes, len := lenIs 1, target := tgtDeviceSub 64
    eff := .boundary 0x623 (fun c s => s.modChain (cSub c) TlmChain.sync) }
/-- TLM_RESET: synchronously resets a chain. -/
def execTlmReset (c : Cmd) (s : State) : Res := runOp specTlmReset c s

end Sys2Proof.Machine
end

