-- ==== Sys2Proof/Machine/OpTable.lean ====
section
/-! DEFINITION. The opcode table of Command Reference (Tables 15.1 to 15.8) with the read counterparts of R427, and the parsing of
what waits (R403 to R406).
What it chooses or infers where the manual is silent, with its marks: log entry 14. -/
namespace Sys2Proof.Machine

/-- Every assigned opcode that is not a read counterpart. -/
def allSpecs : List OpSpec :=
  ([
    [specDeviceNop, specDeviceIdentity, specDeviceStatus, specEventMaskSet, specFeProfileLoad, specEngineIterCapSet, specEngineLoadSet, specEngineLoadAnnounce, specEngineCapacitySet, specEngineProfileSet, specEngineSynthSet, specEngineTxcorrSet],
    [specEnginePreemphLoad, specEnginePreemphSwap, specEngineNlcSet, specEngineNlcCoefLoad, specEngineNlcCoefSwap, specSpectralMapSet, specEngineNbrStatus, specEngineMuzzle, specEngineUnmuzzle, specEngineMuzzleClear, specEngineMuzzleCfgSet, specEngineAcqSet],
    [specEngineAcqRestart, specEngineAcqStatus, specEngineLeashSet, specEngineRxfeSet, specEngineCdSet, specEngineCdLoad, specEngineCdSwap, specEngineEqSet, specEngineRxQuality, specConvStatus, specConvCalRead, specConvCalLoad],
    [specConvCalFactory, specConvRetireCmd, specConvRestore, specConvCalSet, specEngineTtiSet, specEngineTtiRead, specEngineLock, specEngineUnlock, specEngineSvcWrite, specEngineSvcRead, specEngineOpareaSet, specEngineOpareaRead],
    [specCalLoad, specCalRead, specCalSwap, specPackSet, specPackDelete, specPackCapacitySet, specPackSkewSet, specPackStatus, specStoreSet, specCalStatus, specHostClkSet, specLaneSet],
    [specLaneLoopback, specLanePrbsSet, specLanePrbsStatus, specPortSet, specPortDelete, specPortEnable, specPortDisable, specPortRestart, specPortTest, specPortTrainSet, specPortTxFfe, specPortDefectSet],
    [specPortStatus, specPortTapSet, specPtpClockSet, specPtpPortSet, specPtpPortStatus, specTimeStatus, specTimeSourceSet, specTimeParamSet, specTimeSet, specTimeUtcSet, specTimeOscSet, specTimeEpochForce],
    [specTimePpsInSet, specTimePpsOutSet, specTimeTodSet, specLttSet, specLttStatus, specEngineDelayCert, specCertDump, specAsymSet, specAsymValidate, specAsymClear, specRouteSet, specTimeFreqRefSet],
    [specEngineCryptoSet, specKeyLoad, specKeyErase, specKeyTxSwitch, specKeyRxSwitch, specKeyRxFollow, specKeyStatus, specDomainEnrol, specDomainClear, specTagCertRead, specAttestReport, specTestportChallenge],
    [specTestportUnlock, specFeBusAccess, specMonCal, specMonSeqSet, specMonSeqStart, specMonSeqStop, specMonInject, specMonCorrSet, specMonTestdacSet, specTlmChainSet, specTlmCoefLoad, specTlmCoefSwap],
    [specTlmReset, specEngineDefectSet, specCtrRead, specCtrChainSet, specCtrFilterSet, specCtrBwSet, specCtrSnapshot, specCtrDump, specCtrIndex, specCapSet, specCapArm, specCapWithdraw],
    [specCapStatus, specEngineIsolate, specEngineRestore, specTileFence, specTileUnfence, specLifeExport, specKennelExport, specKennelStatus, specShepherdStatus, specFwLoad, specFwActivate, specFwCommit],
    [specFwStatus] ] : List (List OpSpec)).flatten
/-- The row of an opcode: assigned, or the read counterpart of a setter at setter code + 0x080 (R427). -/
def opTable (op : Nat) : Option OpSpec :=
  match allSpecs.find? (fun sp => sp.code == op) with
  | some sp => some sp
  | none => if op < 128 then none
    else (allSpecs.find? (fun sp => sp.code == op - 128)).bind (fun sp => sp.read.map (readSpec sp))
/-- UNKNOWN_OPCODE: an item whose opcode is unassigned is refused (R395). -/
def execUnknownOpcode (op : Fin 4096) (c : Cmd) (s : State) : Res :=
  match opTable op with
  | none => .next (runSpec none op c s)
  | some _ => .next s
/-- READ_COUNTERPART: the read counterpart of a setter, by its own opcode, returns the values in effect (R427). -/
def execReadCounterpart (op : Fin 4096) (c : Cmd) (s : State) : Res :=
  match (allSpecs.find? (fun sp => sp.code + 128 == op.val)).bind (fun sp => sp.read.map (readSpec sp)) with
  | some sp => .next (runSpec (some sp) op c s)
  | none => .next s

/-! ### Parsing at a tick -/

/-- The visible items of all transports. -/
def State.visibleCount (s : State) : Nat := (itemLists.map (fun n => (s.visible n).length)).foldl (· + ·) 0
/-- A transport's next item is parsed, if it parses one now. -/
def State.parseOne (n : Nat) (s : State) : State :=
  let s := s.dropBad n 64
  match s.nextItem n with
  | none => s
  | some k => match (s.visible n)[k]? with
    | none => s
    | some it => parseCmd (opTable it.opcode) it.opcode it.cmd (s.takeVisible n k)
/-- URGENT items are parsed before the ordinary items of all transports (R406); at most `fuel` of them. -/
def State.parseUrgent : Nat → State → State
  | 0, s => s
  | k + 1, s =>
    match itemLists.find? (fun n => s.urgentOn n) with
    | some n => (s.parseOne n).parseUrgent k
    | none => s
/-- Rounds over the transports: the internal queues, rings 0 to 3, SPI (R404), URGENT items first. -/
def State.parseRounds : Nat → State → State
  | 0, s => s
  | k + 1, s => (itemLists.foldl (fun s n =>
      (s.parseUrgent (s.visibleCount)).parseOne n) s).parseRounds k
/-- Everything parsable is parsed. -/
def State.parseAll (s : State) : State :=
  s.parseRounds (itemLists.foldl (fun m n => max m (s.visible n).length) 0)
/-- A held command starts (R405, R41). -/
def State.startHeld (h : HeldCmd) (s : State) : State :=
  let s := s.modProto (fun p => { p with held := p.held.filter (fun x => x.seq != h.seq) })
  match opTable h.opcode with
  | some sp => startCmd sp h.cmd { ticketOf h.opcode h.cmd h.seq with dead := h.dead } s
  | none => s
/-- A held command goes on waiting: for what holds it, for an earlier command on its resource, or for firmware (R404, R405, R41,
R419). -/
def State.holds (s : State) (h : HeldCmd) : Bool :=
  !s.fwUp || orderWaits h.opcode h.cmd h.seq s
    || (match h.why with | .barrier => barrierWaits h.seq s | .realign => s.realignHolds | .order => false)
/-- Commands whose hold has ended start, in the order of parsing. -/
def State.releaseHeld (s : State) : State :=
  (s.proto.held.insertionSort (fun a b => a.seq ≤ b.seq)).foldl (fun s h => if s.holds h then s else s.startHeld h) s

/-! ### Changes at a boundary (R43, R408) -/

/-- What an armed change does. -/
def boundaryEffect (op : Nat) : Cmd → State → State :=
  if op = 0x101 then applyCapacity
  else if op = 0xA02 then applyFence
  else match opTable op with
  | some sp => match sp.eff with
    | .boundary _ f => f
    | .atBoundary _ f => f
    | _ => fun _ s => s
  | none => fun _ s => s
/-- One armed change takes effect, with its FINAL response if that is still owed (R408). -/
def State.applyArmed (a : Armed) (s : State) : State :=
  if s.proto.armed.contains a then
    let s := s.modProto (fun p => { p with armed := p.armed.filter (fun b => b != a) })
    let s := boundaryEffect a.opcode a.cmd s
    match a.ticket with | some t => s.final t .ok 0 [] | none => s
  else s
/-- Every change due now: snapshots of the counters first (Table 17.8), then fences (Table 18.9), then the rest in the order they were
armed. -/
def State.applyDue (s : State) : State :=
  let due := s.proto.armed.filter (fun a => decide (a.due ≤ s.tn))
  let first := due.filter (fun a => a.opcode == 0x804)
  let fences := due.filter (fun a => a.opcode == 0xA02)
  let rest := due.filter (fun a => a.opcode != 0x804 && a.opcode != 0xA02)
  (first ++ fences ++ rest).foldl (fun s a => s.applyArmed a) s
/-- TICK_ALIGNED_CHANGE_EFFECT: the changes due at the boundary that has been reached take effect together. -/
def execTickAlignedChangeEffect (s : State) : Res := .next s.applyDue

end Sys2Proof.Machine
end

