-- ==== Sys2Proof/Machine/Realign.lean ====
section
/-! DEFINITION. The realignment of tick phase and TN (R37 to R41).
What it chooses or infers where the manual is silent, with its marks: log entry 17. -/
namespace Sys2Proof.Machine

/-- A calendar swap that is under way: due at or before TN + 2 (R237, R238). -/
def Armed.underWay (a : Armed) (tn : Nat) : Bool := a.key.cls == 0x202 && decide (a.due ≤ tn + 2)
/-- Pending changes and TN-keyed state at a realignment from TN `old` to TN `new` (R40): tick-aligned commands are cancelled, the others
keep their boundary, and so does a capture whose trigger has come. A calendar swap that is under way is no longer pending: it completes, at its own boundary (R237, R238). -/
def State.realignPending (old new : Nat) (s : State) : State :=
  let s := s.cancelArmed (fun a => a.cmd.tn.isSome && !a.underWay s.tn) .cancelledByRealignment 0
  let out := s.proto.held.filter (fun h => h.cmd.tn.isSome)
  let s := s.modProto (fun p => { p with
    held := p.held.filter (fun h => h.cmd.tn.isNone), armed := p.armed.map (fun a => { a with due := a.due - old + new }) })
  let s := { s with tiles := s.tiles.map (fun (t : Tile) => { t with
    capture := { t.capture with start := t.capture.start.map (fun n => n - old + new) } }) }
  out.foldl (fun s h => s.final { ticketOf h.opcode h.cmd h.seq with dead := h.dead } .cancelledByRealignment 0 []) s
/-- The realignment takes effect (R37): boundaries lie on the grid of EPOCH_TAI and TN is k. DESIGN CHOICE (log entry 17): the manual
gives no direction of the phase step, and where the core's time lies between two grid points the boundary takes the earlier one; it
is silent on a core's time before EPOCH_TAI, and there the boundary is the grid's first, with TN 0. -/
def State.realignNow (r : Realign) (s : State) : State :=
  let epoch := r.second.getD s.kennel.settings.epochTai
  let old := s.tn
  let new := ((s.nowTai - epoch) / tickUnits).toNat
  let s := s.realignPending old new
  let s : State := { s with tn := new, tickOffset := epoch, tnProvisional := false, realign := none, cal := { s.cal with guards := [] } }
  let s := s.modSettings (fun k => { k with epochSet := true, epochTai := epoch })
  let s := if r.kind = .provisional then s else s.raise .tickEpochSet .device 0 []
  let s := s.raise .tickRealign .device 0 (w2 old ++ w2 new)
  let s := (List.range 48).foldl (fun s e => (s.emptySlots e [0, 1] .realign).modEng e (fun g =>
    { g with ltt := { g.ltt with history := [], cut := true } })) s
  (List.range 48).foldl (fun s e => (s.windowRealign e).reassemble e) s.ivAdvance.bwRealign
/-- A realignment that finds traffic is abandoned (R37). -/
def State.realignAbandon (r : Realign) (s : State) : State :=
  let s : State := { s with realign := none }
  if r.fromSet then s else s.epochInPlace
/-- The boundary of a scheduled realignment has come: the one fixed when it was decided, whatever the time has done since (R37,
Table 10.9). -/
def Realign.due (r : Realign) (s : State) : Bool := decide (r.dueAt ≤ s.ticks)
/-- REALIGNMENT: at its scheduled boundary a realignment takes effect, or is abandoned because an engine carries traffic; a step due
there is applied first (Table 10.9). -/
def execRealignment (s : State) : Res :=
  match s.realign with
  | none => .next s
  | some r =>
    if r.due s then
      .next (if s.trafficLast then s.stepNow.realignAbandon r else s.stepNow.realignNow r).releaseHeld
    else .next s

end Sys2Proof.Machine
end

