-- ==== Sys2Proof/Machine/Tick.lean ====
section
/-! DEFINITION. TICK: the end of the running tick with what it brought, and the boundary at which the next one begins (R29, R33, R43,
R229, R371).
What it chooses or infers where the manual is silent, with its marks: log entries 5, 6. -/
namespace Sys2Proof.Machine

/-! ### The work of a tick (R29) -/

end Sys2Proof.Machine
namespace Sys2Proof
/-- The engines' observations by number. -/
def TickObs.ofEngine (o : TickObs) (e : Nat) : Option EngineObs := o.engines.find? (fun x => x.engine == e)
/-- The ports' observations by lowest lane. -/
def TickObs.ofPort (o : TickObs) (n : Nat) : Option ClientObs := o.clients.find? (fun x => x.port == n)
/-- SUBs that failed parity at a check point (R260). -/
def TickObs.parityAt (o : TickObs) (loc idx : Nat) : List Nat := (o.parity.filter (fun x => x.1 == loc && x.2.1 == idx)).map (·.2.2)
end Sys2Proof
namespace Sys2Proof.Machine
/-- An engine's signal processing in a tick: the samples it sends (R126), and what it receives (R167, R189 to R202). -/
def State.engineSeen (e : Nat) (o : Option EngineObs) (s : State) : State :=
  let s := s.clipSeen e (s.clipped e)
  match o with
  | none => (s.freezeStep e false false).modEq e (fun q => { q with trail := [], newest := none, nbrValid := false, slipped := [] })
  | some o => s.receiverSeen e o
/-- A line tile that is fenced or in reset does nothing. -/
def State.ltDown (s : State) (k : Nat) : Bool := (s.tile k).fenced || s.power.inReset.any (fun d => d.1.idx == k)
/-- A host tile in reset. -/
def State.htDown (s : State) (k : Nat) : Bool := s.power.inReset.any (fun d => d.1.idx == 12 + k)
/-- The hub in reset. -/
def State.hubDown (s : State) : Bool := s.power.inReset.any (fun d => d.1 == .hub)
/-- The client port whose grain a line slot takes in frame TN + `ahead`: by the bank its label falls under (R25). -/
def State.portOfSlot (s : State) (ahead e slot : Nat) : Option Nat :=
  ((s.slotMap (s.bankAt ahead)).find? (fun x => x.1 == (e, slot))).map (·.2.1)
/-- A poisoned transmit grain of a line slot counts at its client port (R259). -/
def State.poisonSlot (ahead e slot : Nat) (s : State) : State :=
  match s.portOfSlot ahead e slot with | some n => s.count .poisonedGrains .port n 1 | none => s
/-- Transmit side of one engine: the slots the hub moved go to frame assembly, then the hub's pass for the frame after (R26, R229,
R259). -/
def State.sendSide (o : TickObs) (e : Nat) (s : State) : State :=
  if s.ltDown (tileOf e) then s.modEng e (fun g => { g with hubSlots := [], frameSlots := [], tx := { g.tx with backward := 0 } })
  else
    let s := s.modTx e (fun t => { t with backward := s.backwardOf e })
    let bad := o.parityAt 2 e
    let s := s.modEng e (fun g => { g with
      frameSlots := g.hubSlots.zipIdx.map (fun x => if bad.contains x.2 then markGrain 0xFD else x.1) })
    let s := s.labelled 1 (fun s => bad.foldl (fun s k => s.poisonSlot 1 e k) s)
    if s.hubDown then s.modEng e (fun g => { g with hubSlots := [] })
    else s.labelled 2 (fun s => (o.parityAt 1 e).foldl (fun s k => s.poisonSlot 2 e k) (s.hubTx e (o.parityAt 1 e)))
/-- Slots of a store's owner whose grains failed parity in the line tile or the hub: of a Pack in its deskew and store, or at LT_STORE or
HUB_RX of the member that carries the slot (R232, R258). -/
def State.deadSlots (o : TickObs) (k : Kind) (i : Nat) (s : State) : List Nat :=
  let at' := fun (e : Nat) => o.parityAt 3 e ++ o.parityAt 5 e
  if k = .pack then
    let m := (s.pack i).members
    o.parityAt 4 i ++ (m.zipIdx.map (fun x => (at' x.1).map (fun l => l * m.length + x.2))).flatten
  else at' i
/-- Client ports of a store whose tick failed parity on its way out, with the poisoned grains of each (R259). -/
def State.deadPorts (o : TickObs) (k : Kind) (i : Nat) (s : State) : List (Nat × Nat) :=
  let slots := s.deadSlots o k i
  ((s.clientsOf k i).map (fun c =>
    (c.1, ((c.2.filter (fun x => slots.contains x.2)).map (·.1) ++ o.parityAt 6 c.1).dedup.length))).filter (fun x => x.2 != 0)
/-- Receive side of one store: its output of the tick and its report (R247 to R250). -/
def State.takeSide (o : TickObs) (k : Kind) (i : Nat) (s : State) : State :=
  if s.hubDown then s.modStore k i (fun st => { st with queues := st.queues.map StoreQueue.flush })
  else
    let q0 := (s.queuesNow k i).head?
    let s := s.storeOutput k i (s.deadPorts o k i)
    let out : Option Nat := match q0, (s.storeOf k i).queues.head? with
      | some q, some r => if r.filling && !q.filling then none else some (q.blocks.length - r.blocks.length)
      | _, _ => some 0
    s.storeReport k i out
/-- The mapper of a port takes the blocks of the tick, idle ones in place of those of tapped frames (R244, R289). -/
def State.mapSide (o : TickObs) (n : Nat) (s : State) : State :=
  if s.htDown (n / 96) then s
  else
    let x := o.ofPort n
    let bad := o.parityAt 0 n
    let ty := match s.port? n with | some p => p.ty | none => 0
    let gone := match s.port? n with | some p => p.data.tapped | none => []
    let bs := (match x with | some x => x.blocks ty | none => []).zipIdx.map (fun (b : Option (BitVec 257) × Nat) =>
      if gone.contains b.2 then Config.idleBlock else b.1.getD Config.errorBlock)
    let s := (s.modData n (fun d => { d with tapped := [] })).mapClient n bs bad
    s.labelled 3 (fun s => s.count .poisonedGrains .port n bad.length)
/-- The grains the hub moves toward the line in this tick, by the entries of its bank, as they arrive in the line tiles; it drops those bound
for a tile that is fenced or in reset (R463, R495). -/
def State.txMoved (s : State) : List Coming :=
  s.txBank.filterMap (fun x =>
    let d := calDecode x.2
    match s.resolve d with
    | some (e, k) => if s.ltDown (tileOf e) then none
      else ((s.eng e).hubSlots[k]?).map (fun g => .grain x.1 e d.port (if d.ty = 2 then some d.engine else none) g.jc)
    | none => none)
/-- The fabric's pass of a tick. -/
def State.fabricPass (o : TickObs) (s : State) : State :=
  let s := s.calParitySeen o.calParity
  let s := o.parity.foldl (fun s x => s.labelled (if x.1 < 3 then 3 - x.1 else 0) (fun s => s.parityFail x.1 x.2.1 1)) s
  let s := (List.range 48).foldl (fun s e => s.sendSide o e) s
  let s := if s.hubDown then s else s.expect 2 s.txMoved
  let s := s.ports.foldl (fun s p => s.mapSide o p.1) s
  let s := (List.range 24).foldl (fun s p => s.packRelease p) s
  let s := (List.range 48).foldl (fun s e => s.takeSide o .engine e) s
  (List.range 24).foldl (fun s p => if (s.pack p).members.isEmpty then s else s.takeSide o .pack p) s
/-- What the PCS of a port decoded in a tick enters its counters (R286). -/
def State.countClient (x : ClientObs) (s : State) : State :=
  let s := (s.count .clientFecCw .port x.port x.fecWords).count .clientFecCorrCw .port x.port x.fecCorr
  (s.count .clientFecUncorrCw .port x.port x.fecUncorr).count .clientFecSymbols .port x.port x.fecErrors
/-- What one port carried in a tick: its ingress enters grains labelled three ticks on (R26), its egress counts now (R33, R463, R465). -/
def State.countPort (s : State) (x : ClientObs) : State :=
  match s.port? x.port with
  | none => s
  | some p =>
    if p.state ≠ .up then s
    else
      let cls := fun (egress : Bool) => (x.frames.filter (fun f => f.2 == egress)).map (fun f => p.frameClass f.1)
      let s := (s.labelled 3 (State.countClient x)).expect 3 (.octets x.port x.ingress :: (cls false).map (Coming.frame x.port))
      ((cls true).foldl (fun s c => s.countFrame true x.port c) s).bwCount x.port 0 x.egress
/-- Counts of a tick, carried into the counter array at its end (R33, R456, R463, R465). -/
def State.countTick (o : TickObs) (s : State) : State :=
  (o.clients.foldl State.countPort s.countClasses.comeIn).modCtr (fun c => c.mature.accumulate)
/-- The end of the running tick. -/
def State.closeTick (o : TickObs) (s : State) : State :=
  let s := s.sensorsSeen o.temps
  let s := (List.range 48).foldl (fun s e => if s.ltDown (tileOf e) then s else s.engineSeen e (o.ofEngine e)) s
  let s := (List.range 48).foldl (fun s e => if s.ltDown (tileOf e) then s else s.neighbourAid e) s
  let s := s.ports.foldl (fun s p => if s.htDown (p.1 / 96) then s else s.portEgress p.1 (o.ofPort p.1)) s
  let s := s.fabricPass o
  let r := s
  let s := (List.range 48).foldl (fun s e => s.lineStep e) s
  let s := (List.range 24).foldl (fun s p => (s.packJudge p).packStep p) s
  let s := s.ports.foldl (fun s p => s.portStep p.1 (if s.htDown (p.1 / 96) then none else o.ofPort p.1)) s
  let s := s.tellDefects r
  let s := (List.range 48).foldl (fun s e => (s.secondTick e).calTick e (if s.ltDown (tileOf e) then none else o.ofEngine e)) s
  let s := (List.range 4).foldl (fun s k => s.monStall k) s.freqSample
  let s := (List.range 12).foldl (fun s k => (s.captureTick k).captureTake k (o.ofEngine ((s.tile k).capture.engine k))) s
  let s := (List.range 16).foldl (fun s c => s.dumpTick c) (s.countTick o)
  let s := (List.range 48).foldl (fun s e => s.keepFrame e) s
  { s with trafficLast := s.anyTraffic }

/-! ### The boundary (R29, R43) -/

/-- The averaging interval of an engine's loading policy turns at its multiples of TN (R112). -/
def Loading.boundary (tn : Nat) (l : Loading) : Loading :=
  let clear : Loading := { l with snrSum := List.replicate 8 0, snrCount := 0, snrBad := false }
  match l.intervalNext with
  | some n => if tn % n = 0 then { clear with interval := n, intervalNext := none, whole := none }
    else if tn % l.interval = 0 then { clear with whole := some (l.snrSum, l.snrCount, l.snrBad) } else l
  | none => if tn % l.interval = 0 then { clear with whole := some (l.snrSum, l.snrCount, l.snrBad) } else l
/-- What the receive processing of an engine does at a tick boundary: RX_FE_AUTO as commanded (Table 6.1), taps off centre shift (R190), and
one tick of a cross-fade (R184). T_RX of the tick that ends is kept for the stamps made by it (R195). -/
def State.fadeTick (e : Nat) (s : State) : State :=
  let s := s.modEng e (fun g => { g with rx := { g.rx with delayBefore := s.rxDelay e } })
  let s := s.modEq e (fun q => { q with rxFeAuto := q.rxFeAutoNext.getD q.rxFeAuto, rxFeAutoNext := none })
  (s.recentreTaps e).modEq e (fun q => match q.fade with
    | some f => if f.over then q else { q with fade := some f.step }
    | none => q)
/-- What happens to an engine at a boundary besides the changes due. -/
def State.engineBoundary (e : Nat) (s : State) : State :=
  let s := ((s.convBoundary e).lttBoundary e).abortOver e
  let s := s.modLoad e (Loading.boundary s.tn)
  let s := if s.tn % 64 = 0 then s.leashInstant e else s
  (s.muzzleStep e).iterCapStep e
/-- The effects of brace apply from the boundary after entry to the one after exit; host-lane adaptation is held for as long (R274,
R480, R481). -/
def State.braceBoundary (s : State) : State :=
  let now := s.power.braceOn.isSome
  if now == s.power.braceEffect then s
  else
    let s := s.modPower (fun p => { p with braceEffect := now })
    if now then ((List.range 384).filter s.laneRuns).foldl (fun s l => s.laneFreeze l .brace) s
    else ((List.range 384).filter (fun l => (s.lane l).braceHold)).foldl (fun s l => s.laneThaw l true) s
/-- The cores that a restart held in reset boot again (R487). -/
def State.bootBoundary (s : State) : State :=
  if s.recovery.bootAt.any (fun t => decide (t ≤ s.ticks)) then
    (s.modRec (fun r => { r with fw := .booting, bootAt := none, bootStart := s.ticks })).modDev (fun d => { d with stage := .rom, bootGo := false })
  else s
/-- TN advances by 1, and the Kennel counter runs on (R315). -/
def State.advanceTick (s : State) : State :=
  ({ s with tn := s.tn + 1, ticks := s.ticks + 1 }).modKennel (Kennel.counted (Config.rtcError s.ticks) 1)
/-- The line frame of the tick that begins; a line tile in reset sends none. -/
def State.frameBoundary (e : Nat) (s : State) : State :=
  if s.ltDown (tileOf e) then s.modTx e (fun t => { t with sent := none }) else s.assembleFrame e
/-- The boundary at which the present tick begins. -/
def State.boundary (s : State) : State :=
  let s := s.ports.foldl (fun s p => ((s.modPort p.1 Port.boundary).tapSecond p.1).bwBoundary p.1) s
  let s := (List.range 48).foldl (fun s e => s.fadeTick e) s
  let s := (List.range 48).foldl (fun s e => s.modEq e Equaliser.slewStep) s.applyDue
  let s := s.preGuardStep.braceBoundary
  let s := ((List.range 48).foldl (fun s e => s.engineBoundary e) s).nbrAll
  let s := if s.tn % 625000 = 0 then (List.range 24).foldl (fun s p => s.packSecond p) s else s
  let s := (s.slewStep.freqStep).judgeCandidates
  let s := if s.time.state == .locked then s.epochAtLock false else s
  let s := s.bootBoundary
  (List.range 48).foldl (fun s e => s.frameBoundary e) s
/-- TICK: the running tick ends with what it brought, TN advances by exactly 1, the changes due take effect, and waiting commands are
parsed. -/
def execTick (obs : TickObs) (s : State) : Res :=
  if s.sysHeld then .next s
  else .next ((s.closeTick obs).advanceTick.boundary.releaseHeld.parseAll.refreshAlert)

end Sys2Proof.Machine
end

