-- ==== Sys2Proof/Machine/BusTick.lean ====
section
/-! DEFINITION. Monitor Converters, Front-End Control and Telemetry Filters, the front-end control bus in a tick: which transactions it
serves (R443, R444) and the poll of the fault register (R447).
What it chooses or infers where the manual is silent, with its marks: log entry 34. -/
namespace Sys2Proof.Machine

/-- The release value of R147 goes out in this tick: as things stand, the next boundary takes the transmitter out of MUZZLED. DEDUCED (log
entry 34): it is due before the frame of that boundary, so in the tick before; what comes up later in a tick, after its transaction,
is not foreseen. -/
def feReleaseDue (s : State) (e : Nat) : Bool :=
  let g := s.eng e
  g.tx.muzzle == .muzzled && g.fe.profile.any (fun p => p.squelch.isSome) && (s.advanceTick.boundary.eng e).tx.muzzle != .muzzled
/-- A squelch or fine-tune write falls in this tick, so that no other transaction is served (R444). -/
def feHwDue (s : State) (e : Nat) : Bool := feWriteDue s e || feReleaseDue s e

/-- FE_FAULT_POLL: every FAULT_POLL ticks the fault register is read; `value` is what the front end returns when the read is
served at once, else the read waits for the bus. -/
def execFeFaultPoll (e : Fin 48) (value : Nat) (s : State) : Res :=
  let f := (s.eng e).fe
  match f.profile.bind (·.fault) with
  | none => .next s
  | some (addr, width, mask, period) =>
    if feRuns s e ∧ f.lastPoll + period ≤ s.ticks then
      let s := s.modFe e (fun f => { f with lastPoll := s.ticks })
      let t : FeTxn := { origin := .poll, write := false, addr := addr, width := width, value := value % 2 ^ width }
      if feHwDue s e || !f.queue.isEmpty then .next (s.feQueue e t)
      else .next ((s.feDrive e t).fePolled e t.value mask)
    else .next s
/-- FE_BUS_TRANSACTION: at a tick boundary with no squelch or fine-tune write due, the oldest waiting transaction is served;
`data` is what the front end returns on a read. An FE_BUS_ACCESS then has its FINAL response with the value read; a write
reads nothing, and the value it answers is free. -/
def execFeBusTransaction (e : Fin 48) (data : Nat) (s : State) : Res :=
  let f := (s.eng e).fe
  match f.queue with
  | [] => .next s
  | t :: rest =>
    if feHwDue s e || s.fenced e then .next s
    else
      let got := data % 2 ^ t.width
      let s := (s.modFe e (fun f => { f with queue := rest })).feDrive e (if t.write then t else { t with value := got })
      match t.origin with
      | .poll => match f.profile.bind (·.fault) with
        | some (_, _, mask, _) => .next (s.fePolled e got mask)
        | none => .next s
      | .access seq =>
        if t.write then let r := s.fresh; .next (r.2.finishJobs (fun j => j.ticket.seq == seq) .ok 0 (w1 r.1))
        else .next (s.finishJobs (fun j => j.ticket.seq == seq) .ok 0 (w1 got))
      | _ => .next s
end Sys2Proof.Machine
end

