-- ==== Sys2Proof/Machine/Dispatch.lean ====
section
/-! DEFINITION. The dispatch: one arm for each command, one meaning for each arm. -/
namespace Sys2Proof.Machine

/-- The effect of a command on everything but the queue. -/
def exec (i : Instr) (s : State) : Host.Outcome State Fault Refusal :=
  match i with
  | .tick obs => Sys2Proof.Machine.execTick obs s
  | .tickAlignedChangeEffect => Sys2Proof.Machine.execTickAlignedChangeEffect s
  | .realignment => Sys2Proof.Machine.execRealignment s
  | .sfHoldoffExpiry pack ix => Sys2Proof.Machine.execSfHoldoffExpiry pack ix s
  | .muzzleRampEnd e => Sys2Proof.Machine.execMuzzleRampEnd e s
  | .rxFrameDecode e f => Sys2Proof.Machine.execRxFrameDecode e f s
  | .rxSyncCheck e seen x => Sys2Proof.Machine.execRxSyncCheck e seen x s
  | .searchSyncFound e found cd => Sys2Proof.Machine.execSearchSyncFound e found cd s
  | .powerQualification e powers => Sys2Proof.Machine.execPowerQualification e powers s
  | .oofTimerExpiry e => Sys2Proof.Machine.execOofTimerExpiry e s
  | .acqNoSync e => Sys2Proof.Machine.execAcqNoSync e s
  | .freqRecentre e => Sys2Proof.Machine.execFreqRecentre e s
  | .leashWriteInstant e => Sys2Proof.Machine.execLeashWriteInstant e s
  | .rxThaw e => Sys2Proof.Machine.execRxThaw e s
  | .rxFeAutoUpdate e m => Sys2Proof.Machine.execRxFeAutoUpdate e m s
  | .cdFilterReady e => Sys2Proof.Machine.execCdFilterReady e s
  | .cdSwapDone e => Sys2Proof.Machine.execCdSwapDone e s
  | .cdDelaySettled e => Sys2Proof.Machine.execCdDelaySettled e s
  | .cdTrackEstimate e residual => Sys2Proof.Machine.execCdTrackEstimate e residual s
  | .estimatorUpdate e m => Sys2Proof.Machine.execEstimatorUpdate e m s
  | .loadPolicyRun e => Sys2Proof.Machine.execLoadPolicyRun e s
  | .loadAckDeadline e => Sys2Proof.Machine.execLoadAckDeadline e s
  | .loadTxSwitch e => Sys2Proof.Machine.execLoadTxSwitch e s
  | .converterSensorRead e temp => Sys2Proof.Machine.execConverterSensorRead e temp s
  | .calWindowCheck e offset gain skew => Sys2Proof.Machine.execCalWindowCheck e offset gain skew s
  | .calApply e => Sys2Proof.Machine.execCalApply e s
  | .retirementEntryWrite => Sys2Proof.Machine.execRetirementEntryWrite s
  | .shadowScrubPass read => Sys2Proof.Machine.execShadowScrubPass read s
  | .hostRefclkLoss t => Sys2Proof.Machine.execHostRefclkLoss t s
  | .hostRefclkOk t => Sys2Proof.Machine.execHostRefclkOk t s
  | .hlAdaptWindowEnd l changes w => Sys2Proof.Machine.execHlAdaptWindowEnd l changes w s
  | .trainTimeoutExpiry port silent slow => Sys2Proof.Machine.execTrainTimeoutExpiry port silent slow s
  | .partnerLostTimer port lane => Sys2Proof.Machine.execPartnerLostTimer port lane s
  | .alignTimeout port lane => Sys2Proof.Machine.execAlignTimeout port lane s
  | .pcsAligned port => Sys2Proof.Machine.execPcsAligned port s
  | .trainHoldoffExpiry port => Sys2Proof.Machine.execTrainHoldoffExpiry port s
  | .pcsAlignmentLoss port signal => Sys2Proof.Machine.execPcsAlignmentLoss port signal s
  | .retrainHoldExpiry port => Sys2Proof.Machine.execRetrainHoldExpiry port s
  | .prbsCheckWindow l symbols bits => Sys2Proof.Machine.execPrbsCheckWindow l symbols bits s
  | .tapFrameRx port octets fcs blocks sub => Sys2Proof.Machine.execTapFrameRx port octets fcs blocks sub s
  | .tapFrameInsert port sub => Sys2Proof.Machine.execTapFrameInsert port sub s
  | .tapInsertTimeout port => Sys2Proof.Machine.execTapInsertTimeout port s
  | .ppsInPulse n sub => Sys2Proof.Machine.execPpsInPulse n sub s
  | .ppsMissing n => Sys2Proof.Machine.execPpsMissing n s
  | .todSentenceRx n line sub => Sys2Proof.Machine.execTodSentenceRx n line sub s
  | .timeMeasurement => Sys2Proof.Machine.execTimeMeasurement s
  | .timeStep => Sys2Proof.Machine.execTimeStep s
  | .sourceQualified ix => Sys2Proof.Machine.execSourceQualified ix s
  | .wtrExpiry => Sys2Proof.Machine.execWtrExpiry s
  | .holdoverTraceExpiry => Sys2Proof.Machine.execHoldoverTraceExpiry s
  | .leapApplied => Sys2Proof.Machine.execLeapApplied s
  | .ppsOutPulse n => Sys2Proof.Machine.execPpsOutPulse n s
  | .todOutSentence => Sys2Proof.Machine.execTodOutSentence s
  | .kennelRtcUpdate trim => Sys2Proof.Machine.execKennelRtcUpdate trim s
  | .oscLoss => Sys2Proof.Machine.execOscLoss s
  | .oscOk => Sys2Proof.Machine.execOscOk s
  | .oscRelockDone => Sys2Proof.Machine.execOscRelockDone s
  | .freqLoopUpdate err => Sys2Proof.Machine.execFreqLoopUpdate err s
  | .freqRefQualification offset => Sys2Proof.Machine.execFreqRefQualification offset s
  | .lttIntervalEnd e => Sys2Proof.Machine.execLttIntervalEnd e s
  | .delayCertFormation => Sys2Proof.Machine.execDelayCertFormation s
  | .ptpMessageRx port => Sys2Proof.Machine.execPtpMessageRx port s
  | .ptpSyncTx port => Sys2Proof.Machine.execPtpSyncTx port s
  | .ptpAnnounceTx port => Sys2Proof.Machine.execPtpAnnounceTx port s
  | .ptpDelayReqTx port => Sys2Proof.Machine.execPtpDelayReqTx port s
  | .announceReceiptTimeout port => Sys2Proof.Machine.execAnnounceReceiptTimeout port s
  | .ptpMeasPeriodEnd port => Sys2Proof.Machine.execPtpMeasPeriodEnd port s
  | .esmcInfoTx port => Sys2Proof.Machine.execEsmcInfoTx port s
  | .esmcEventTx port => Sys2Proof.Machine.execEsmcEventTx port s
  | .esmcPduRx port => Sys2Proof.Machine.execEsmcPduRx port s
  | .keyExpiry e slot => Sys2Proof.Machine.execKeyExpiry e slot s
  | .testportInstruction ir => Sys2Proof.Machine.execTestportInstruction ir s
  | .tagSignatureDone => Sys2Proof.Machine.execTagSignatureDone s
  | .monConversionDone k code => Sys2Proof.Machine.execMonConversionDone k code s
  | .monCalComplete k offset gain longest => Sys2Proof.Machine.execMonCalComplete k offset gain longest s
  | .monTestdacSettle k => Sys2Proof.Machine.execMonTestdacSettle k s
  | .biasLoopRun e num => Sys2Proof.Machine.execBiasLoopRun e num s
  | .feFaultPoll e value => Sys2Proof.Machine.execFeFaultPoll e value s
  | .feBusTransaction e data => Sys2Proof.Machine.execFeBusTransaction e data s
  | .tlmSample n => Sys2Proof.Machine.execTlmSample n s
  | .bandwidthWindowEnd port => Sys2Proof.Machine.execBandwidthWindowEnd port s
  | .captureTrigger k => Sys2Proof.Machine.execCaptureTrigger k s
  | .captureFillDone k data => Sys2Proof.Machine.execCaptureFillDone k data s
  | .dmaGo c => Sys2Proof.Machine.execDmaGo c s
  | .dmaAbort c => Sys2Proof.Machine.execDmaAbort c s
  | .dmaReadCompletion c good data => Sys2Proof.Machine.execDmaReadCompletion c good data s
  | .dmaChannelEnd c err moved => Sys2Proof.Machine.execDmaChannelEnd c err moved s
  | .sysRstAssert => Sys2Proof.Machine.execSysRstAssert s
  | .sysRstRelease elapsed => Sys2Proof.Machine.execSysRstRelease elapsed s
  | .mgmtRstAssert => Sys2Proof.Machine.execMgmtRstAssert s
  | .mgmtRstRelease => Sys2Proof.Machine.execMgmtRstRelease s
  | .perst => Sys2Proof.Machine.execPerst s
  | .hotReset => Sys2Proof.Machine.execHotReset s
  | .functionLevelReset => Sys2Proof.Machine.execFunctionLevelReset s
  | .d3hotEntry => Sys2Proof.Machine.execD3hotEntry s
  | .d0Return => Sys2Proof.Machine.execD0Return s
  | .pcieRefclkLoss => Sys2Proof.Machine.execPcieRefclkLoss s
  | .railWarning d r level => Sys2Proof.Machine.execRailWarning d r level s
  | .braceExit => Sys2Proof.Machine.execBraceExit s
  | .railResetLevel d r level => Sys2Proof.Machine.execRailResetLevel d r level s
  | .domainResetRelease d elapsed => Sys2Proof.Machine.execDomainResetRelease d elapsed s
  | .avsLoopStep step acked => Sys2Proof.Machine.execAvsLoopStep step acked s
  | .vbatMeasurement mv => Sys2Proof.Machine.execVbatMeasurement mv s
  | .kennelPowerLoss => Sys2Proof.Machine.execKennelPowerLoss s
  | .fwHeartbeat => Sys2Proof.Machine.execFwHeartbeat s
  | .shepherdHeartbeat => Sys2Proof.Machine.execShepherdHeartbeat s
  | .heartbeatTimeout => Sys2Proof.Machine.execHeartbeatTimeout s
  | .fwFatalTrap => Sys2Proof.Machine.execFwFatalTrap s
  | .fwBootTimeout => Sys2Proof.Machine.execFwBootTimeout s
  | .fwRunningReport => Sys2Proof.Machine.execFwRunningReport s
  | .shepherdHeartbeatTimeout => Sys2Proof.Machine.execShepherdHeartbeatTimeout s
  | .lastResortKick => Sys2Proof.Machine.execLastResortKick s
  | .lastResortExpiry => Sys2Proof.Machine.execLastResortExpiry s
  | .firmwareBoot => Sys2Proof.Machine.execFirmwareBoot s
  | .lifeRecordSecond temps => Sys2Proof.Machine.execLifeRecordSecond temps s
  | .lifeMirrorWrite => Sys2Proof.Machine.execLifeMirrorWrite s
  | .progress seq fraction => Sys2Proof.Machine.execProgress seq fraction s
  | .commandRingDoorbell q pi sync words => Sys2Proof.Machine.execCommandRingDoorbell q pi sync words s
  | .ringEnableWrite q w => Sys2Proof.Machine.execRingEnableWrite q w s
  | .ringCiWrite q ci => Sys2Proof.Machine.execRingCiWrite q ci s
  | .queueFlush q => Sys2Proof.Machine.execQueueFlush q s
  | .wmLatchedClear q => Sys2Proof.Machine.execWmLatchedClear q s
  | .heldResponseCommit n => Sys2Proof.Machine.execHeldResponseCommit n s
  | .eventRingDrain => Sys2Proof.Machine.execEventRingDrain s
  | .heldEventEntry => Sys2Proof.Machine.execHeldEventEntry s
  | .intHoldoffExpiry q => Sys2Proof.Machine.execIntHoldoffExpiry q s
  | .msixUnmask v => Sys2Proof.Machine.execMsixUnmask v s
  | .spiCommandWindowWrite first last words => Sys2Proof.Machine.execSpiCommandWindowWrite first last words s
  | .spiResponseWindowRead n last => Sys2Proof.Machine.execSpiResponseWindowRead n last s
  | .spiEventWindowRead n last => Sys2Proof.Machine.execSpiEventWindowRead n last s
  | .spiStatus => Sys2Proof.Machine.execSpiStatus s
  | .counterV0Read path slot => Sys2Proof.Machine.execCounterV0Read path slot s
  | .monResultRead q => Sys2Proof.Machine.execMonResultRead q s
  | .timeSnapReq => Sys2Proof.Machine.execTimeSnapReq s
  | .timeSnapshotCapture => Sys2Proof.Machine.execTimeSnapshotCapture s
  | .bootGo => Sys2Proof.Machine.execBootGo s
  | .registerWrite path bar2 offset value => Sys2Proof.Machine.execRegisterWrite path bar2 offset value s
  | .unknownOpcode op c => Sys2Proof.Machine.execUnknownOpcode op c s
  | .readCounterpart op c => Sys2Proof.Machine.execReadCounterpart op c s
  | .deviceNop c => Sys2Proof.Machine.execDeviceNop c s
  | .deviceIdentity c => Sys2Proof.Machine.execDeviceIdentity c s
  | .deviceStatus c => Sys2Proof.Machine.execDeviceStatus c s
  | .eventMaskSet c => Sys2Proof.Machine.execEventMaskSet c s
  | .engineProfileSet c => Sys2Proof.Machine.execEngineProfileSet c s
  | .engineCapacitySet c => Sys2Proof.Machine.execEngineCapacitySet c s
  | .engineIterCapSet c => Sys2Proof.Machine.execEngineIterCapSet c s
  | .engineLoadSet c => Sys2Proof.Machine.execEngineLoadSet c s
  | .engineLoadAnnounce c => Sys2Proof.Machine.execEngineLoadAnnounce c s
  | .engineSynthSet c => Sys2Proof.Machine.execEngineSynthSet c s
  | .engineTxcorrSet c => Sys2Proof.Machine.execEngineTxcorrSet c s
  | .enginePreemphLoad c => Sys2Proof.Machine.execEnginePreemphLoad c s
  | .enginePreemphSwap c => Sys2Proof.Machine.execEnginePreemphSwap c s
  | .spectralMapSet c => Sys2Proof.Machine.execSpectralMapSet c s
  | .engineNlcSet c => Sys2Proof.Machine.execEngineNlcSet c s
  | .engineNlcCoefLoad c => Sys2Proof.Machine.execEngineNlcCoefLoad c s
  | .engineNlcCoefSwap c => Sys2Proof.Machine.execEngineNlcCoefSwap c s
  | .engineMuzzle c => Sys2Proof.Machine.execEngineMuzzle c s
  | .engineUnmuzzle c => Sys2Proof.Machine.execEngineUnmuzzle c s
  | .engineMuzzleClear c => Sys2Proof.Machine.execEngineMuzzleClear c s
  | .engineMuzzleCfgSet c => Sys2Proof.Machine.execEngineMuzzleCfgSet c s
  | .engineAcqSet c => Sys2Proof.Machine.execEngineAcqSet c s
  | .engineAcqRestart c => Sys2Proof.Machine.execEngineAcqRestart c s
  | .engineAcqStatus c => Sys2Proof.Machine.execEngineAcqStatus c s
  | .engineLeashSet c => Sys2Proof.Machine.execEngineLeashSet c s
  | .engineRxfeSet c => Sys2Proof.Machine.execEngineRxfeSet c s
  | .engineCdSet c => Sys2Proof.Machine.execEngineCdSet c s
  | .engineCdLoad c => Sys2Proof.Machine.execEngineCdLoad c s
  | .engineCdSwap c => Sys2Proof.Machine.execEngineCdSwap c s
  | .engineEqSet c => Sys2Proof.Machine.execEngineEqSet c s
  | .engineRxQuality c => Sys2Proof.Machine.execEngineRxQuality c s
  | .engineNbrStatus c => Sys2Proof.Machine.execEngineNbrStatus c s
  | .engineTtiSet c => Sys2Proof.Machine.execEngineTtiSet c s
  | .engineTtiRead c => Sys2Proof.Machine.execEngineTtiRead c s
  | .engineDefectSet c => Sys2Proof.Machine.execEngineDefectSet c s
  | .engineLock c => Sys2Proof.Machine.execEngineLock c s
  | .engineUnlock c => Sys2Proof.Machine.execEngineUnlock c s
  | .engineSvcWrite c => Sys2Proof.Machine.execEngineSvcWrite c s
  | .engineSvcRead c => Sys2Proof.Machine.execEngineSvcRead c s
  | .engineOpareaSet c => Sys2Proof.Machine.execEngineOpareaSet c s
  | .engineOpareaRead c => Sys2Proof.Machine.execEngineOpareaRead c s
  | .convStatus c => Sys2Proof.Machine.execConvStatus c s
  | .convCalRead c => Sys2Proof.Machine.execConvCalRead c s
  | .convCalLoad c => Sys2Proof.Machine.execConvCalLoad c s
  | .convCalFactory c => Sys2Proof.Machine.execConvCalFactory c s
  | .convRetireCmd c => Sys2Proof.Machine.execConvRetireCmd c s
  | .convRestore c => Sys2Proof.Machine.execConvRestore c s
  | .convCalSet c => Sys2Proof.Machine.execConvCalSet c s
  | .calLoad c => Sys2Proof.Machine.execCalLoad c s
  | .calRead c => Sys2Proof.Machine.execCalRead c s
  | .calSwap c => Sys2Proof.Machine.execCalSwap c s
  | .calStatus c => Sys2Proof.Machine.execCalStatus c s
  | .packSet c => Sys2Proof.Machine.execPackSet c s
  | .packDelete c => Sys2Proof.Machine.execPackDelete c s
  | .packCapacitySet c => Sys2Proof.Machine.execPackCapacitySet c s
  | .packSkewSet c => Sys2Proof.Machine.execPackSkewSet c s
  | .packStatus c => Sys2Proof.Machine.execPackStatus c s
  | .storeSet c => Sys2Proof.Machine.execStoreSet c s
  | .portSet c => Sys2Proof.Machine.execPortSet c s
  | .portDelete c => Sys2Proof.Machine.execPortDelete c s
  | .portEnable c => Sys2Proof.Machine.execPortEnable c s
  | .portDisable c => Sys2Proof.Machine.execPortDisable c s
  | .portRestart c => Sys2Proof.Machine.execPortRestart c s
  | .portTest c => Sys2Proof.Machine.execPortTest c s
  | .portTrainSet c => Sys2Proof.Machine.execPortTrainSet c s
  | .portTxFfe c => Sys2Proof.Machine.execPortTxFfe c s
  | .portTapSet c => Sys2Proof.Machine.execPortTapSet c s
  | .portDefectSet c => Sys2Proof.Machine.execPortDefectSet c s
  | .portStatus c => Sys2Proof.Machine.execPortStatus c s
  | .hostClkSet c => Sys2Proof.Machine.execHostClkSet c s
  | .laneSet c => Sys2Proof.Machine.execLaneSet c s
  | .laneLoopback c => Sys2Proof.Machine.execLaneLoopback c s
  | .lanePrbsSet c => Sys2Proof.Machine.execLanePrbsSet c s
  | .lanePrbsStatus c => Sys2Proof.Machine.execLanePrbsStatus c s
  | .timeStatus c => Sys2Proof.Machine.execTimeStatus c s
  | .timeSourceSet c => Sys2Proof.Machine.execTimeSourceSet c s
  | .timeParamSet c => Sys2Proof.Machine.execTimeParamSet c s
  | .timeSet c => Sys2Proof.Machine.execTimeSet c s
  | .timeUtcSet c => Sys2Proof.Machine.execTimeUtcSet c s
  | .timeOscSet c => Sys2Proof.Machine.execTimeOscSet c s
  | .timeEpochForce c => Sys2Proof.Machine.execTimeEpochForce c s
  | .timePpsInSet c => Sys2Proof.Machine.execTimePpsInSet c s
  | .timePpsOutSet c => Sys2Proof.Machine.execTimePpsOutSet c s
  | .timeTodSet c => Sys2Proof.Machine.execTimeTodSet c s
  | .timeFreqRefSet c => Sys2Proof.Machine.execTimeFreqRefSet c s
  | .lttSet c => Sys2Proof.Machine.execLttSet c s
  | .lttStatus c => Sys2Proof.Machine.execLttStatus c s
  | .engineDelayCert c => Sys2Proof.Machine.execEngineDelayCert c s
  | .certDump c => Sys2Proof.Machine.execCertDump c s
  | .asymSet c => Sys2Proof.Machine.execAsymSet c s
  | .asymValidate c => Sys2Proof.Machine.execAsymValidate c s
  | .asymClear c => Sys2Proof.Machine.execAsymClear c s
  | .routeSet c => Sys2Proof.Machine.execRouteSet c s
  | .ptpClockSet c => Sys2Proof.Machine.execPtpClockSet c s
  | .ptpPortSet c => Sys2Proof.Machine.execPtpPortSet c s
  | .ptpPortStatus c => Sys2Proof.Machine.execPtpPortStatus c s
  | .engineCryptoSet c => Sys2Proof.Machine.execEngineCryptoSet c s
  | .keyLoad c => Sys2Proof.Machine.execKeyLoad c s
  | .keyErase c => Sys2Proof.Machine.execKeyErase c s
  | .keyTxSwitch c => Sys2Proof.Machine.execKeyTxSwitch c s
  | .keyRxSwitch c => Sys2Proof.Machine.execKeyRxSwitch c s
  | .keyRxFollow c => Sys2Proof.Machine.execKeyRxFollow c s
  | .keyStatus c => Sys2Proof.Machine.execKeyStatus c s
  | .domainEnrol c => Sys2Proof.Machine.execDomainEnrol c s
  | .domainClear c => Sys2Proof.Machine.execDomainClear c s
  | .tagCertRead c => Sys2Proof.Machine.execTagCertRead c s
  | .attestReport c => Sys2Proof.Machine.execAttestReport c s
  | .testportChallenge c => Sys2Proof.Machine.execTestportChallenge c s
  | .testportUnlock c => Sys2Proof.Machine.execTestportUnlock c s
  | .monCal c => Sys2Proof.Machine.execMonCal c s
  | .monSeqSet c => Sys2Proof.Machine.execMonSeqSet c s
  | .monSeqStart c => Sys2Proof.Machine.execMonSeqStart c s
  | .monSeqStop c => Sys2Proof.Machine.execMonSeqStop c s
  | .monInject c => Sys2Proof.Machine.execMonInject c s
  | .monCorrSet c => Sys2Proof.Machine.execMonCorrSet c s
  | .monTestdacSet c => Sys2Proof.Machine.execMonTestdacSet c s
  | .feProfileLoad c => Sys2Proof.Machine.execFeProfileLoad c s
  | .feBusAccess c => Sys2Proof.Machine.execFeBusAccess c s
  | .tlmChainSet c => Sys2Proof.Machine.execTlmChainSet c s
  | .tlmCoefLoad c => Sys2Proof.Machine.execTlmCoefLoad c s
  | .tlmCoefSwap c => Sys2Proof.Machine.execTlmCoefSwap c s
  | .tlmReset c => Sys2Proof.Machine.execTlmReset c s
  | .capSet c => Sys2Proof.Machine.execCapSet c s
  | .capArm c => Sys2Proof.Machine.execCapArm c s
  | .capWithdraw c => Sys2Proof.Machine.execCapWithdraw c s
  | .capStatus c => Sys2Proof.Machine.execCapStatus c s
  | .ctrRead c => Sys2Proof.Machine.execCtrRead c s
  | .ctrChainSet c => Sys2Proof.Machine.execCtrChainSet c s
  | .ctrFilterSet c => Sys2Proof.Machine.execCtrFilterSet c s
  | .ctrBwSet c => Sys2Proof.Machine.execCtrBwSet c s
  | .ctrSnapshot c => Sys2Proof.Machine.execCtrSnapshot c s
  | .ctrDump c => Sys2Proof.Machine.execCtrDump c s
  | .ctrIndex c => Sys2Proof.Machine.execCtrIndex c s
  | .kennelStatus c => Sys2Proof.Machine.execKennelStatus c s
  | .lifeExport c => Sys2Proof.Machine.execLifeExport c s
  | .kennelExport c => Sys2Proof.Machine.execKennelExport c s
  | .engineIsolate c => Sys2Proof.Machine.execEngineIsolate c s
  | .engineRestore c => Sys2Proof.Machine.execEngineRestore c s
  | .tileFence c => Sys2Proof.Machine.execTileFence c s
  | .tilePowerDownDone k => Sys2Proof.Machine.execTilePowerDownDone k s
  | .tileUnfence c => Sys2Proof.Machine.execTileUnfence c s
  | .tilePowerUpDone k => Sys2Proof.Machine.execTilePowerUpDone k s
  | .shepherdStatus c => Sys2Proof.Machine.execShepherdStatus c s
  | .fwLoad c => Sys2Proof.Machine.execFwLoad c s
  | .fwActivate c => Sys2Proof.Machine.execFwActivate c s
  | .fwCommit c => Sys2Proof.Machine.execFwCommit c s
  | .fwStatus c => Sys2Proof.Machine.execFwStatus c s
  | .linkTrainingComplete x => Sys2Proof.Machine.execLinkTrainingComplete x s
  | .searchPassEnd p => Sys2Proof.Machine.execSearchPassEnd p s
  | .prbsCheckerLock l => Sys2Proof.Machine.execPrbsCheckerLock l s
  | .pcieRefclkReturn => Sys2Proof.Machine.execPcieRefclkReturn s
  | .perstRelease => Sys2Proof.Machine.execPerstRelease s
  | .vddAuxPowerUp => Sys2Proof.Machine.execVddAuxPowerUp s

end Sys2Proof.Machine
end

