-- ==== Sys2Proof/Safety.lean ====
section
/-! DEFINITION. The terms the statements use: safe states, frames, an accepted command, an answer. -/
namespace Sys2Proof.Machine

/-- Every sparse memory of the block is in its canonical form: both calendar banks, their parity bits (63 for an EMPTY entry), and the
counter array. -/
def State.memoriesWf (s : State) : Bool :=
  cellsWf 0 s.cal.active && cellsWf 0 s.cal.shadow && cellsWf 63 s.cal.activeParity && cellsWf 63 s.cal.shadowParity
    && cellsWf 0 s.ctr.slots

/-- The answer is a next state of which `P` holds. -/
def Completes (r : Res) (P : State → Prop) : Prop := ∃ t, r = .next t ∧ P t

/-! ### Frames -/

/-- A tile with its capture unit's trigger flag cleared. -/
def Tile.untriggered (x : Tile) : Tile := { x with capture := { x.capture with start := none } }
/-- The parts of the state, at the grain at which frames name them. -/
inductive Part where
  | tn | tickOffset | ticks | tnProvisional | realign | trafficLast | engines | tiles
  | triggers | htiles | lanes | ports | packs | cal | map | mapCentre
  | mons | tlmq | chains | dma | power | recovery | time | sec
  | clockIdentity | parityLast | readWord | spiReply | freeCtr | pending | queueRegs | queueItems
  | responses | events | armed | jobs | held | seq | masks | mgmtReset
  | msix | alertN | devRegs | happened | counters | settings | life | kennelRest
  deriving DecidableEq, Repr

/-- A part is the same in two states. -/
def Part.same (s t : State) : Part → Prop
  | .tn => t.tn = s.tn
  | .tickOffset => t.tickOffset = s.tickOffset
  | .ticks => t.ticks = s.ticks
  | .tnProvisional => t.tnProvisional = s.tnProvisional
  | .realign => t.realign = s.realign
  | .trafficLast => t.trafficLast = s.trafficLast
  | .engines => t.engines = s.engines
  -- The line tiles, but for the trigger flag of their capture units.
  | .tiles => (∀ k, (t.tile k).untriggered = (s.tile k).untriggered)
  -- The trigger flags of the capture units.
  | .triggers => (∀ k, (t.tile k).capture.start = (s.tile k).capture.start)
  | .htiles => t.htiles = s.htiles
  | .lanes => t.lanes = s.lanes
  | .ports => t.ports = s.ports
  | .packs => t.packs = s.packs
  | .cal => t.cal = s.cal
  | .map => t.map = s.map
  | .mapCentre => t.mapCentre = s.mapCentre
  | .mons => t.mons = s.mons
  | .tlmq => t.tlmq = s.tlmq
  | .chains => t.chains = s.chains
  | .dma => t.dma = s.dma
  | .power => t.power = s.power
  | .recovery => t.recovery = s.recovery
  | .time => t.time = s.time
  | .sec => t.sec = s.sec
  | .clockIdentity => t.clockIdentity = s.clockIdentity
  | .parityLast => t.parityLast = s.parityLast
  | .readWord => t.readWord = s.readWord
  | .spiReply => t.spiReply = s.spiReply
  | .freeCtr => t.freeCtr = s.freeCtr
  | .pending => t.pending = s.pending
  -- The register sets of the queues.
  | .queueRegs => t.proto.regs = s.proto.regs
  -- The items of the command queues, the event ring and the windows of the SPI target.
  | .queueItems =>
    t.proto.ring = s.proto.ring ∧ t.proto.spi = s.proto.spi ∧ t.proto.internal = s.proto.internal ∧
      t.proto.shepInternal = s.proto.shepInternal ∧ t.proto.mgmtRdy = s.proto.mgmtRdy ∧
      t.proto.spiRespRead = s.proto.spiRespRead ∧ t.proto.spiEventRead = s.proto.spiEventRead ∧
      t.proto.spiOpen = s.proto.spiOpen ∧ t.proto.spiDrop = s.proto.spiDrop ∧ t.proto.spiDead = s.proto.spiDead ∧
      t.proto.eventRing = s.proto.eventRing
  -- Responses posted, held under back-pressure, or owed.
  | .responses =>
    t.proto.resp = s.proto.resp ∧ t.proto.heldResp = s.proto.heldResp ∧ t.proto.internalResp = s.proto.internalResp ∧
      t.proto.owedFinals = s.proto.owedFinals
  -- Event items queued or held.
  | .events =>
    t.proto.eventQueue = s.proto.eventQueue ∧ t.proto.heldEvents = s.proto.heldEvents
  -- Pending changes.
  | .armed => t.proto.armed = s.proto.armed
  -- Running class L commands.
  | .jobs => t.proto.jobs = s.proto.jobs
  -- Held commands.
  | .held => t.proto.held = s.proto.held
  -- The number of the next command parsed.
  | .seq => t.proto.nextSeq = s.proto.nextSeq
  -- Masked event codes.
  | .masks => t.proto.masked = s.proto.masked
  -- What the last MGMT reset left to be told.
  | .mgmtReset => t.proto.mgmtResetArmed = s.proto.mgmtResetArmed
  -- MSI-X vectors.
  | .msix => t.dev.msix = s.dev.msix
  -- ALERT_N.
  | .alertN => t.dev.alertAsserted = s.dev.alertAsserted
  -- The registers of the device block.
  | .devRegs =>
    t.dev.stage = s.dev.stage ∧ t.dev.fwSlot = s.dev.fwSlot ∧ t.dev.bootErr = s.dev.bootErr ∧
      t.dev.alertMask = s.dev.alertMask ∧ t.dev.scratch = s.dev.scratch ∧ t.dev.bootImgAddrLo = s.dev.bootImgAddrLo ∧
      t.dev.bootImgAddrHi = s.dev.bootImgAddrHi ∧ t.dev.bootImgLen = s.dev.bootImgLen ∧ t.dev.bootGo = s.dev.bootGo ∧
      t.dev.bootSrc = s.dev.bootSrc ∧ t.dev.bootStage = s.dev.bootStage ∧ t.dev.endpointUp = s.dev.endpointUp ∧
      t.dev.linkUp = s.dev.linkUp ∧ t.dev.d3hot = s.dev.d3hot
  -- Happenings of the running tick, and what awaits the end of its labelled tick.
  | .happened =>
    t.ctr.happened = s.ctr.happened ∧ t.ctr.coming = s.ctr.coming
  -- The counter array, chains, filters, windows and images.
  | .counters =>
    t.ctr.slots = s.ctr.slots ∧ t.ctr.later = s.ctr.later ∧ t.ctr.carries = s.ctr.carries ∧
      t.ctr.heads = s.ctr.heads ∧ t.ctr.filters = s.ctr.filters ∧ t.ctr.bw = s.ctr.bw ∧
      t.ctr.latchPcie = s.ctr.latchPcie ∧ t.ctr.latchSpi = s.ctr.latchSpi ∧ t.ctr.latchFw = s.ctr.latchFw ∧
      t.ctr.image = s.ctr.image ∧ t.ctr.waiting = s.ctr.waiting ∧ t.ctr.snapSeq = s.ctr.snapSeq ∧
      t.ctr.snapValid = s.ctr.snapValid
  -- The Kennel settings and their check.
  | .settings =>
    t.kennel.settings = s.kennel.settings ∧ t.kennel.settingsCrc = s.kennel.settingsCrc
  -- The life record and its check.
  | .life =>
    t.kennel.life = s.kennel.life ∧ t.kennel.lifeCrc = s.kennel.lifeCrc ∧ t.kennel.fullRaised = s.kennel.fullRaised
  -- Accumulation, real-time counter and mirror of the Kennel.
  | .kennelRest =>
    t.kennel.pohSeconds = s.kennel.pohSeconds ∧ t.kennel.tjSub = s.kennel.tjSub ∧
      t.kennel.thermal = s.kennel.thermal ∧ t.kennel.ucfSeen = s.kennel.ucfSeen ∧
      t.kennel.ucfSeconds = s.kennel.ucfSeconds ∧ t.kennel.rtc = s.kennel.rtc ∧ t.kennel.rtcPart = s.kennel.rtcPart ∧
      t.kennel.rtcKept = s.kennel.rtcKept ∧ t.kennel.mirror = s.kennel.mirror ∧
      t.kennel.retireQueue = s.kennel.retireQueue
/-- Only the listed parts may differ: the frame of a step. -/
def Only (l : List Part) (s t : State) : Prop := ∀ p, p ∉ l → p.same s t
/-- Every engine but `e` is the same. -/
def OtherEngines (e : Nat) (s t : State) : Prop := ∀ j, j ≠ e → t.eng j = s.eng j
/-- What parsing and answering a command touches: its queue, its number, its responses, the PRIVILEGE counts, the interrupt and
ALERT_N of its response queue. -/
def answerParts : List Part := [.queueRegs, .queueItems, .responses, .seq, .happened, .msix, .alertN]
/-- What raising an event touches: its counter, the event queue, its interrupt and ALERT_N, a capture armed for it. -/
def eventParts : List Part := [.queueRegs, .events, .happened, .msix, .alertN, .triggers]
/-- Parts, and what raising an event touches. -/
def withEvent (l : List Part) : List Part := l ++ eventParts

/-! ### An accepted command -/

/-- The state in which a command that stands alone in its queue is judged: its item taken, numbered, and counted. -/
def State.atParse (op : Nat) (c : Cmd) (s : State) : State :=
  let n := c.src.list
  (((s.setVisible n [{ opcode := op, cmd := c, span := 0, bad := none }]).takeVisible n 0).modProto
    (fun p => { p with nextSeq := p.nextSeq + 1 })).countPrivilege op c.src
/-- A command is parsed at once: its transport parses items now, nothing waits before it, no URGENT item of another transport goes first,
and its tag is free (R401, R404 to R406). -/
def parsedNow (c : Cmd) (s : State) : Bool :=
  (s.visible c.src.list).isEmpty && s.parses c.src && !s.barred c.src && (c.urgent || !s.urgentElse c.src.list)
    && !(c.src.isHost && s.tagsInFlight.contains c.tag.val)
/-- A realignment is scheduled and the command would make an engine carry traffic: it is held (R41). -/
def heldBack (sp : OpSpec) (c : Cmd) (s : State) : Bool :=
  s.realignHolds && newlyCarries (s.atParse sp.code c) (effectOn sp c (s.atParse sp.code c))
/-- A command is accepted: it is parsed at once, no check of Table 14.3 and none of its opcode's own conditions refuses it, and
neither a barrier, nor an earlier command on its resource, nor a scheduled realignment holds it. -/
def Ready (sp : OpSpec) (c : Cmd) (s : State) : Bool :=
  parsedNow c s && (parseRefusal sp c s).isNone && !(c.barrier && barrierWaits s.proto.nextSeq s)
    && !orderWaits sp.code c s.proto.nextSeq s
    && (ownRefusal sp c (s.atParse sp.code c)).isNone && !heldBack sp c s
/-- The ticket of a command parsed in this state. -/
def ticketNow (op : Nat) (c : Cmd) (s : State) : Ticket := ticketOf op c s.proto.nextSeq
/-- A response of a command stands in the response queue of its transport, is held there, or is owed; a command of the internal
queues has it as their last response. -/
def PostedAt (src : Source) (r : Resp) (t : State) : Prop :=
  match src.port with
  | some n => r ∈ vget t.proto.resp n [] ∨ r ∈ vget t.proto.heldResp n [] ∨ (src, r) ∈ t.proto.owedFinals
  | none => t.proto.internalResp = some r ∨ (src, r) ∈ t.proto.owedFinals
/-- A response of a command has been posted. -/
abbrev Posted (c : Cmd) (r : Resp) (t : State) : Prop := PostedAt c.src r t
/-- The command has been answered as R396 says, unless NO_RESPONSE suppresses an OK (R397). -/
def Answered (op : Nat) (c : Cmd) (final : Bool) (st : Status) (detail tn : Nat) (ws : List Word) (t : State) : Prop :=
  (c.noResponse = true ∧ st = .ok) ∨
    Posted c { opcode := op, tag := c.tag.val, issuer := c.issuer.toNat, status := st.code, final := final, detail := detail,
               tn := tn, words := ws } t
/-- FINAL OK in the present tick, with results. -/
def AnsweredOk (op : Nat) (c : Cmd) (ws : List Word) (s t : State) : Prop := Answered op c true .ok 0 s.tn ws t
/-- A change of the command's resource is pending for tick `due`. -/
def Pending (cls op due : Nat) (c : Cmd) (t : State) : Prop :=
  ∃ a ∈ t.proto.armed, a.due = due ∧ a.key = keyOf cls c ∧ a.opcode = op ∧ a.cmd = c
/-- A command is answered FINAL OK with the words, `P` holds after it, and only the parts and its own answer differ. -/
def Does (op : Nat) (c : Cmd) (ws : List Word) (parts : List Part) (P : State → Prop) (s : State) (r : Res) : Prop :=
  Completes r (fun t => P t ∧ AnsweredOk op c ws s t ∧ Only (parts ++ answerParts) s t)
/-- A command that changes nothing is answered FINAL OK with the words. -/
def Reports (op : Nat) (c : Cmd) (ws : List Word) (s : State) (r : Res) : Prop := Does op c ws [] (fun _ => True) s r
/-- A command changes one engine, as `f` says, and nothing else. -/
def SetsEngine (op : Nat) (c : Cmd) (f : Engine → Engine) (s : State) (r : Res) : Prop :=
  Does op c [] [.engines] (fun t => t.eng (cIdx c) = f (s.eng (cIdx c)) ∧ OtherEngines (cIdx c) s t) s r
/-- A command arms its change for its TN, or without one for the next boundary (R424): it is answered ACCEPTED, without a TN at once
FINAL OK; a change of the same resource that was pending is replaced (R44). -/
def Arms (cls op : Nat) (c : Cmd) (s : State) (r : Res) : Prop :=
  Completes r (fun t => Pending cls op (c.tn.getD (s.tn + 1)) c t
    ∧ (∀ a ∈ t.proto.armed, a.key = keyOf cls c → a.cmd = c)
    ∧ (∀ a ∈ s.proto.armed, a.key ≠ keyOf cls c → a ∈ t.proto.armed)
    ∧ Answered op c c.tn.isNone .ok 0 s.tn [] t ∧ Only (.armed :: answerParts) s t)
/-- A command arms its change as `Arms` says, and besides `P` holds after it and the parts may differ. -/
def ArmsAnd (cls op : Nat) (c : Cmd) (parts : List Part) (P : State → Prop) (s : State) (r : Res) : Prop :=
  Completes r (fun t => P t ∧ Pending cls op (c.tn.getD (s.tn + 1)) c t
    ∧ (∀ a ∈ t.proto.armed, a.key = keyOf cls c → a.cmd = c)
    ∧ (∀ a ∈ s.proto.armed, a.key ≠ keyOf cls c → a ∈ t.proto.armed)
    ∧ Answered op c c.tn.isNone .ok 0 s.tn [] t ∧ Only (parts ++ .armed :: answerParts) s t)
/-- A command arms its change and is answered FINAL only when it takes effect: ACCEPTED with a TN, without one nothing before. -/
def ArmsLate (cls op : Nat) (c : Cmd) (s : State) (r : Res) : Prop :=
  Completes r (fun t => Pending cls op (c.tn.getD (s.tn + 1)) c t
    ∧ (∀ a ∈ t.proto.armed, a.key = keyOf cls c → a.cmd = c)
    ∧ (∀ a ∈ s.proto.armed, a.key ≠ keyOf cls c → a ∈ t.proto.armed)
    ∧ (c.tn ≠ none → Answered op c false .ok 0 s.tn [] t) ∧ Only (.armed :: answerParts) s t)
/-- The pending change of a command takes effect at its boundary: `P` holds after it, and only the parts differ. -/
def TakesEffect (op : Nat) (c : Cmd) (parts : List Part) (P : State → Prop) (s : State) : Prop :=
  ∀ a, s.proto.armed = [a] → a.due ≤ s.tn → a.opcode = op → a.cmd = c →
    Completes (exec .tickAlignedChangeEffect s) (fun t => P t ∧ t.proto.armed = []
      ∧ Only (parts ++ [.armed, .queueRegs, .responses, .msix, .alertN]) s t)
/-- The pending change of a command takes effect on one engine, as `f` says, and on nothing else. -/
def EngineChange (op : Nat) (c : Cmd) (f : Engine → Engine) (s : State) : Prop :=
  TakesEffect op c [.engines] (fun t => t.eng (cIdx c) = f (s.eng (cIdx c)) ∧ OtherEngines (cIdx c) s t) s
/-- The command runs as a class L command. -/
def Running (op : Nat) (c : Cmd) (t : State) : Prop := ∃ j ∈ t.proto.jobs, j.cmd = c ∧ j.ticket.opcode = op
/-- A class L command has ended: it runs no more, and a host transport has its FINAL response (R398), unless its tag was withdrawn or
NO_RESPONSE suppresses an OK. -/
def Ended (j : Job) (st : Status) (detail tn : Nat) (ws : List Word) (t : State) : Prop :=
  j ∉ t.proto.jobs ∧ (j.ticket.src.isHost = true → j.ticket.dead = true ∨ (j.ticket.noResponse = true ∧ st = .ok)
    ∨ PostedAt j.ticket.src { opcode := j.ticket.opcode, tag := j.ticket.tag, issuer := j.ticket.issuer, status := st.code
                              final := true, detail := detail, tn := tn, words := ws } t)
/-- A class L command begins (R407): it runs, on a host transport it is answered ACCEPTED, `P` holds after it, and only the parts
and its own answer differ. -/
def Begins (op : Nat) (c : Cmd) (parts : List Part) (P : State → Prop) (s : State) (r : Res) : Prop :=
  Completes r (fun t => P t ∧ Running op c t ∧ (c.src.isHost = true → Answered op c false .ok 0 s.tn [] t) ∧ Only (.jobs :: (parts ++ answerParts)) s t)
/-- `n` happenings of a named counter are recorded in the running tick. -/
def Counted (x : Ctr) (k : Kind) (i n : Nat) (t : State) : Prop := (ctrSlot k i 0 x.code, n) ∈ t.ctr.happened
/-- An event of a resource has been raised with these words and EVENT_TN (R399, R411): it is counted, and, unless its code is masked
or a reset of the MGMT domain has the queue, its item stands in the event queue or in what its source holds. -/
def Raised (ev : Ev) (k : Kind) (i : Nat) (ws : List Word) (tn : Nat) (t : State) : Prop :=
  (ctrSlot k i 0 ev.code, 1) ∈ t.ctr.happened
    ∧ (ev.code ∈ t.proto.masked ∨ t.proto.mgmtResetArmed ≠ none
      ∨ (∃ x ∈ t.proto.eventQueue, x.code = ev.code ∧ x.kind = kindCode k ∧ x.index = i ∧ x.tn = tn ∧ x.words = ws)
      ∨ ∃ x ∈ t.proto.heldEvents, x.code = ev.code ∧ x.kind = kindCode k ∧ x.index = i)
/-- A change of one Pack, as `f` says, and of no other. -/
def PackIs (p : Nat) (f : Pack → Pack) (s t : State) : Prop := t.pack p = f (s.pack p) ∧ ∀ q, q ≠ p → t.pack q = s.pack q
/-- A change of one DMA channel, as `f` says, and of no other. -/
def ChannelIs (n : Nat) (f : DmaChannel → DmaChannel) (s t : State) : Prop := t.dc n = f (s.dc n) ∧ ∀ q, q ≠ n → t.dc q = s.dc q
/-- A change of one monitor converter, as `f` says, and of no other. -/
def MonIs (k : Nat) (f : MonConv → MonConv) (s t : State) : Prop := t.mc k = f (s.mc k) ∧ ∀ q, q ≠ k → t.mc q = s.mc q
/-- A change of one telemetry chain, as `f` says, and of no other. -/
def ChainIs (n : Nat) (f : TlmChain → TlmChain) (s t : State) : Prop := t.chain n = f (s.chain n) ∧ ∀ q, q ≠ n → t.chain q = s.chain q
/-- A change of one client port, as `f` says, and of no other. -/
def PortIs (n : Nat) (f : Port → Port) (s t : State) : Prop := t.port? n = (s.port? n).map f ∧ ∀ q, q ≠ n → t.port? q = s.port? q
/-- A change of one host lane, as `f` says, and of no other. -/
def LaneIs (l : Nat) (f : HostLane → HostLane) (s t : State) : Prop := t.lane l = f (s.lane l) ∧ ∀ q, q ≠ l → t.lane q = s.lane q
/-- A port's settings after TRAIN_RESULT has told that a round in progress ended DOWN (R279). -/
def Port.roundTold (p : Port) : Port :=
  if p.state = .training ∨ p.state = .aligning then { p with lastOutcome := 3, lastAttempts := p.round.attempts } else p
/-- A round in progress has ended without an attempt's outcome: TRAIN_RESULT tells DOWN (R279). -/
def RoundTold (n : Nat) (p : Port) (s t : State) : Prop :=
  p.state = .training ∨ p.state = .aligning →
    ∃ w, Raised .trainResult .port n (w1 3 ++ w1 p.round.attempts ++ (p.round.causes.map w1).flatten ++ w1 w) s.tn t
/-- The messages port n has sent in the running TAI second leave room for one more (R341). -/
def PtpPort.room (q : PtpPort) (s : State) : Bool := decide ((if q.sentSecond = s.taiSecond then q.sent else 0) < 128)
/-- The slot a command names is loaded anew or emptied at the command's boundary; a key in it whose EXPIRY_TN has come is told first. -/
def SlotChange (op : Nat) (c : Cmd) (x : Option KeySlot) (s : State) : Prop :=
  TakesEffect op c (.engines :: eventParts) (fun t =>
    t.eng (cIdx c) = { s.eng (cIdx c) with key := { s.keys (cIdx c) with slots := vmod (s.keys (cIdx c)).slots (cSub c) (fun _ => x) } }
    ∧ OtherEngines (cIdx c) s t
    ∧ ∀ k, (s.keys (cIdx c)).slot (cSub c) = some k → k.expiry ≠ 0 → k.expiry ≤ s.tn →
      Raised .keyExpired .engine (cIdx c) (w1 (cSub c) ++ w1 k.id) s.tn t) s
/-- No FW_LOAD runs, so no reset empties a flash slot (R366). -/
def NoFwLoad (s : State) : Prop := ∀ j ∈ s.proto.jobs, j.ticket.opcode ≠ 0xB00
/-- A lane that has started: in brace it is held from the start (R263, R274). -/
def HostLane.begun (brace : Bool) (h : HostLane) : HostLane := { h.start with braceHold := brace }
/-- A lane with its diagnostics set: a changed pattern starts in this tick (R282). -/
def HostLane.given (f : HostLane → HostLane) (now : Nat) (h : HostLane) : HostLane :=
  if (f h).generator = h.generator then f h else { f h with generatedFrom := now }
/-- A round has started on a port (R276): its first attempt runs in TRAINING, or in ALIGNING with FIXED; taps and inversions that waited
apply and its lanes start. Without a clock it is in HOLDOFF (R269). Other ports and the lanes of other ports are the same. -/
def RoundStarted (n : Nat) (p : Port) (s t : State) : Prop :=
  (s.clocked n = true → ∃ q, t.port? n = some q ∧ q.state = (if p.trainFixed.getD p.c2m then .aligning else .training)
    ∧ q.round.attempts = 1 ∧ q.round.started = s.ticks ∧ q.round.fixed = p.trainFixed.getD p.c2m ∧ q.round.fallback = false
    ∧ q.round.causes = [] ∧ q.ffe = p.ffeNext ∧ q.fallbackUp = false ∧ q.lossAt = none
    ∧ q.ty = p.ty ∧ q.tap = p.tap ∧ q.data = p.data ∧ q.ptp = p.ptp ∧ q.present = p.present)
  ∧ (s.clocked n = false → ∃ q, t.port? n = some q ∧ q.state = .holdoff ∧ q.round.holdStart = s.ticks ∧ q.round.holdFor = p.trainHoldoff)
  ∧ (∀ q, q ≠ n → t.port? q = s.port? q)
  ∧ (s.clocked n = true → ∀ l ∈ p.lanes n, l < 384 → t.lane l = { (s.lane l).begun s.power.braceEffect with txFfe := p.ffeNext }
      ∧ (s.power.braceEffect = true → Raised .hlFreeze .hostLane l (w1 2 ++ w2 s.tn) s.tn t))
  ∧ ∀ l, l ∉ p.lanes n → t.lane l = s.lane l
/-- An attempt on lane `lane` of a port has failed with a cause (R276, R277, R279): it is counted and the next attempt starts at the
following tick; after the fourth the fallback is tried where it is enabled, and else, as after a failed fallback, TRAIN_RESULT tells
DOWN and the port is in HOLDOFF. Other ports are the same. -/
def AttemptFailed (n cause lane : Nat) (p : Port) (s t : State) : Prop :=
  (∀ q, q ≠ n → t.port? q = s.port? q) ∧ (∀ l, l ∉ p.lanes n → t.lane l = s.lane l) ∧ ∃ q, t.port? n = some q ∧
    (p.round.fallback = true → q.state = .holdoff ∧ q.round.holdStart = s.ticks
      ∧ ∃ w, Raised .trainResult .port n (w1 3 ++ w1 p.round.attempts ++ (p.round.causes.map w1).flatten ++ w1 w) s.tn t)
    ∧ (p.round.fallback = false → q.round.causes = p.round.causes ++ [cause]
      ∧ q.round.firstLane = some (p.round.firstLane.getD lane) ∧ Counted .trainFails .port n 1 t
      ∧ (p.round.attempts < 4 → q.state = (if p.round.fixed then .aligning else .training)
          ∧ q.round.attempts = p.round.attempts + 1 ∧ q.round.started = s.ticks + 1)
      ∧ (4 ≤ p.round.attempts → p.round.fixed = false → p.round.fallbackEn = true →
          q.state = .aligning ∧ q.round.fallback = true ∧ q.ffe = p.fallbackTx
          ∧ ∀ l ∈ p.lanes n, l < 384 → t.lane l = { (s.lane l).startValues with txFfe := p.fallbackTx })
      ∧ (4 ≤ p.round.attempts → p.round.fixed = true ∨ p.round.fallbackEn = false → q.state = .holdoff
          ∧ Raised .trainResult .port n (w1 3 ++ w1 p.round.attempts ++ ((p.round.causes ++ [cause]).map w1).flatten
              ++ w1 (targetNat .hostLane (p.round.firstLane.getD lane) 0)) s.tn t))
/-- A channel that has started to run for its command. -/
def DmaChannel.started (d : DmaChannel) : DmaChannel :=
  { d with state := .running, ended := .none, linesDone := 0, bytesDone := 0, staged := [], out := [], placed := []
           bad := false, abort := false, withdrawn := false }
/-- A class L command that moves data by its DMA channel begins: the channel runs, and sends the octets, if it sends any. -/
def BeginsDma (op : Nat) (c : Cmd) (out : Option (List Octet)) (s : State) (r : Res) : Prop :=
  Begins op c [.dma] (ChannelIs (cmdChan c) (fun d => { d.started with out := out.getD [] }) s) s r
/-- The Shepherd has declared firmware down (R487, R488): headless hold is on, the cores are in reset, and boot again after 1 ms unless
three restarts lie in the last 600 s; then they stay in reset and the Shepherd is HELD. -/
def DeclaredDown (cause : Nat) (s t : State) : Prop :=
  (s.recovery.headless = none → t.recovery.headless = some (s.ticks, s.tn) ∧ Raised .headlessEnter .device 0 [] s.tn t)
    ∧ (s.recovery.headless ≠ none → t.recovery.headless = s.recovery.headless) ∧ t.recovery.fw = .inReset
    ∧ ((recentRestarts s.ticks s.recovery.fwRestarts).length < 3 → t.recovery.bootAt = some (s.ticks + 625)
        ∧ t.recovery.shep = .restarting ∧ t.recovery.lastCause = cause ∧ t.recovery.restartCause = some cause
        ∧ t.recovery.fwRestarts = s.ticks :: recentRestarts s.ticks s.recovery.fwRestarts)
    ∧ (3 ≤ (recentRestarts s.ticks s.recovery.fwRestarts).length → t.recovery.bootAt = none ∧ t.recovery.shep = .held
        ∧ t.recovery.lastCause = 4)
/-- The endpoint has been reset (Table 18.5, R505): rings, what they held and the responses bound for them are gone, the MSI-X table and
every channel are at reset, armed changes stay, and accepted ring commands go on without a response. -/
def EndpointReset (s t : State) : Prop :=
  (∀ q, q < 9 → t.qreg q = QueueRegs.reset)
    ∧ (∀ n, n < 4 → t.cmdq n = CmdQueue.reset ∧ vget t.proto.resp n [] = [] ∧ vget t.proto.heldResp n [] = [])
    ∧ t.proto.eventRing = [] ∧ t.dev.msix = msixReset ∧ t.dev.d3hot = false ∧ t.dma = Vector.replicate 16 .reset
    ∧ t.proto.armed.map (fun a => (a.due, a.key, a.cmd)) = s.proto.armed.map (fun a => (a.due, a.key, a.cmd))
    ∧ (∀ j ∈ t.proto.jobs, j.ticket.ofRing = true → j.ticket.dead = true)
    ∧ (s.dev.stage = .loading → s.dev.bootSrc ≠ 3 → t.dev.stage = .failed ∧ t.dev.bootErr = 5)
/-- Everything the SYS_RST_N reset clears is at reset; what the Kennel and the boot flash hold, and the inputs from outside, stay
(R483, R484, R498). -/
def SystemReset (s t : State) : Prop :=
  t.engines = s.engines.map Engine.resetSquelch ∧ t.ports = State.reset.ports ∧ t.packs = State.reset.packs ∧ t.cal = State.reset.cal
    ∧ t.map = State.reset.map ∧ t.mapCentre = State.reset.mapCentre ∧ t.time = State.reset.time ∧ t.recovery = State.reset.recovery ∧ t.dma = State.reset.dma
    ∧ t.lanes = State.reset.lanes ∧ t.htiles = State.reset.htiles ∧ t.mons = State.reset.mons ∧ t.chains = State.reset.chains
    ∧ t.proto.armed = [] ∧ t.proto.jobs = [] ∧ t.proto.held = [] ∧ t.proto.masked = [] ∧ t.tn = State.reset.tn
    ∧ t.sec = { Security.reset with
        fw := (s.emptySlot? (fun _ => true)).sec.fw, shep := (s.emptySlot? (fun _ => true)).sec.shep, rollback := s.sec.rollback }
    ∧ t.kennel.settings = s.kennel.settings ∧ t.pending = s.pending ∧ t.freeCtr = s.freeCtr
    ∧ (∀ e : Fin 48, ∀ i, i < 4 → ((s.keys e).slot i).isSome = true → Raised .keyErased .engine e (w1 0) s.tn t)
/-- A row that is no tick, no realignment and no reset of the device (R29, R37, R483, R484). -/
def keepsTn : Instr → Bool
  | .tick _ | .realignment | .sysRstAssert | .sysRstRelease _ | .railResetLevel _ _ _ | .domainResetRelease _ _
  | .kennelPowerLoss | .vddAuxPowerUp => false
  | _ => true
/-- What the acceptance of a command leads to at once, by its latency class (R397, R407, R424): its effect and its results, its change
pending, or its acceptance and what it begins. -/
def Settled (sp : OpSpec) (c : Cmd) (s : State) (r : Res) : Prop :=
  let u := sp.onAccept c (s.atParse sp.code c)
  Completes r (fun t => match sp.eff with
    | .now f => t = (f c u).1.final (ticketNow sp.code c s) .ok 0 (f c u).2 ∧ ∃ tn, Answered sp.code c true .ok 0 tn (f c u).2 t
    | .boundary cls _ => Pending cls sp.code (c.tn.getD (u.tn + 1)) c t
    | .atBoundary cls _ => Pending cls sp.code (c.tn.getD (u.tn + 1)) c t
    | .silent f => t = f c u
    | .long f => t = f { ticket := ticketNow sp.code c s, cmd := c, chan := sp.chan c, lastProgress := u.ticks } c
        (u.respond (ticketNow sp.code c s) false .ok 0 u.tn []))
/-- Accepted, a command of a row completes so. -/
def Runs (sp : OpSpec) (c : Cmd) (s : State) (r : Res) : Prop := Ready sp c s = true → Settled sp c s r
/-- A change of one line tile, as `f` says, and of no other. -/
def TileIs (k : Nat) (f : Tile → Tile) (s t : State) : Prop := t.tile k = f (s.tile k) ∧ ∀ q, q ≠ k → t.tile q = s.tile q
/-- A happening: `P` holds after it, and only the parts differ. -/
def Happens (parts : List Part) (P : State → Prop) (s : State) (r : Res) : Prop := Completes r (fun t => P t ∧ Only parts s t)
/-- A happening at one engine. -/
def AtEngine (e : Nat) (parts : List Part) (P : State → Prop) (s : State) (r : Res) : Prop :=
  Happens (.engines :: parts) (fun t => P t ∧ OtherEngines e s t) s r
/-! ### Where each row completes -/

/-- Accepted commands complete: part 1. -/
def CommandsComplete1 (c : Cmd) (s : State) : Prop :=
  Runs specDeviceNop c s (exec (.deviceNop c) s)
  ∧ Runs specDeviceIdentity c s (exec (.deviceIdentity c) s)
  ∧ Runs specDeviceStatus c s (exec (.deviceStatus c) s)
  ∧ Runs specEventMaskSet c s (exec (.eventMaskSet c) s)
  ∧ Runs specEngineProfileSet c s (exec (.engineProfileSet c) s)
  ∧ Runs specEngineCapacitySet c s (exec (.engineCapacitySet c) s)
  ∧ Runs specEngineIterCapSet c s (exec (.engineIterCapSet c) s)
  ∧ Runs specEngineLoadSet c s (exec (.engineLoadSet c) s)
  ∧ Runs specEngineLoadAnnounce c s (exec (.engineLoadAnnounce c) s)
  ∧ Runs specEngineSynthSet c s (exec (.engineSynthSet c) s)
  ∧ Runs specEngineTxcorrSet c s (exec (.engineTxcorrSet c) s)
  ∧ Runs specEnginePreemphLoad c s (exec (.enginePreemphLoad c) s)
  ∧ Runs specEnginePreemphSwap c s (exec (.enginePreemphSwap c) s)
  ∧ Runs specSpectralMapSet c s (exec (.spectralMapSet c) s)
  ∧ Runs specEngineNlcSet c s (exec (.engineNlcSet c) s)
  ∧ Runs specEngineNlcCoefLoad c s (exec (.engineNlcCoefLoad c) s)
  ∧ Runs specEngineNlcCoefSwap c s (exec (.engineNlcCoefSwap c) s)
  ∧ Runs specEngineMuzzle c s (exec (.engineMuzzle c) s)
  ∧ Runs specEngineUnmuzzle c s (exec (.engineUnmuzzle c) s)
  ∧ Runs specEngineMuzzleClear c s (exec (.engineMuzzleClear c) s)
  ∧ Runs specEngineMuzzleCfgSet c s (exec (.engineMuzzleCfgSet c) s)
  ∧ Runs specEngineAcqSet c s (exec (.engineAcqSet c) s)
  ∧ Runs specEngineAcqRestart c s (exec (.engineAcqRestart c) s)
  ∧ Runs specEngineAcqStatus c s (exec (.engineAcqStatus c) s)
  ∧ Runs specEngineLeashSet c s (exec (.engineLeashSet c) s)
  ∧ Runs specEngineRxfeSet c s (exec (.engineRxfeSet c) s)
  ∧ Runs specEngineCdSet c s (exec (.engineCdSet c) s)
  ∧ Runs specEngineCdLoad c s (exec (.engineCdLoad c) s)
  ∧ Runs specEngineCdSwap c s (exec (.engineCdSwap c) s)
/-- Accepted commands complete: part 2. -/
def CommandsComplete2 (c : Cmd) (s : State) : Prop :=
  Runs specEngineEqSet c s (exec (.engineEqSet c) s)
  ∧ Runs specEngineRxQuality c s (exec (.engineRxQuality c) s)
  ∧ Runs specEngineNbrStatus c s (exec (.engineNbrStatus c) s)
  ∧ Runs specEngineTtiSet c s (exec (.engineTtiSet c) s)
  ∧ Runs specEngineTtiRead c s (exec (.engineTtiRead c) s)
  ∧ Runs specEngineDefectSet c s (exec (.engineDefectSet c) s)
  ∧ Runs specEngineLock c s (exec (.engineLock c) s)
  ∧ Runs specEngineUnlock c s (exec (.engineUnlock c) s)
  ∧ Runs specEngineSvcWrite c s (exec (.engineSvcWrite c) s)
  ∧ Runs specEngineSvcRead c s (exec (.engineSvcRead c) s)
  ∧ Runs specEngineOpareaSet c s (exec (.engineOpareaSet c) s)
  ∧ Runs specEngineOpareaRead c s (exec (.engineOpareaRead c) s)
  ∧ Runs specConvStatus c s (exec (.convStatus c) s)
  ∧ Runs specConvCalRead c s (exec (.convCalRead c) s)
  ∧ Runs specConvCalLoad c s (exec (.convCalLoad c) s)
  ∧ Runs specConvCalFactory c s (exec (.convCalFactory c) s)
  ∧ Runs specConvRetireCmd c s (exec (.convRetireCmd c) s)
  ∧ Runs specConvRestore c s (exec (.convRestore c) s)
  ∧ Runs specConvCalSet c s (exec (.convCalSet c) s)
  ∧ Runs specCalLoad c s (exec (.calLoad c) s)
  ∧ Runs specCalRead c s (exec (.calRead c) s)
  ∧ Runs specCalSwap c s (exec (.calSwap c) s)
  ∧ Runs specCalStatus c s (exec (.calStatus c) s)
  ∧ Runs specPackSet c s (exec (.packSet c) s)
  ∧ Runs specPackDelete c s (exec (.packDelete c) s)
  ∧ Runs specPackCapacitySet c s (exec (.packCapacitySet c) s)
  ∧ Runs specPackSkewSet c s (exec (.packSkewSet c) s)
  ∧ Runs specPackStatus c s (exec (.packStatus c) s)
  ∧ Runs specStoreSet c s (exec (.storeSet c) s)
/-- Accepted commands complete: part 3. -/
def CommandsComplete3 (c : Cmd) (s : State) : Prop :=
  Runs specPortSet c s (exec (.portSet c) s)
  ∧ Runs specPortDelete c s (exec (.portDelete c) s)
  ∧ Runs specPortEnable c s (exec (.portEnable c) s)
  ∧ Runs specPortDisable c s (exec (.portDisable c) s)
  ∧ Runs specPortRestart c s (exec (.portRestart c) s)
  ∧ Runs specPortTest c s (exec (.portTest c) s)
  ∧ Runs specPortTrainSet c s (exec (.portTrainSet c) s)
  ∧ Runs specPortTxFfe c s (exec (.portTxFfe c) s)
  ∧ Runs specPortTapSet c s (exec (.portTapSet c) s)
  ∧ Runs specPortDefectSet c s (exec (.portDefectSet c) s)
  ∧ Runs specPortStatus c s (exec (.portStatus c) s)
  ∧ Runs specHostClkSet c s (exec (.hostClkSet c) s)
  ∧ Runs specLaneSet c s (exec (.laneSet c) s)
  ∧ Runs specLaneLoopback c s (exec (.laneLoopback c) s)
  ∧ Runs specLanePrbsSet c s (exec (.lanePrbsSet c) s)
  ∧ Runs specLanePrbsStatus c s (exec (.lanePrbsStatus c) s)
  ∧ Runs specTimeStatus c s (exec (.timeStatus c) s)
  ∧ Runs specTimeSourceSet c s (exec (.timeSourceSet c) s)
  ∧ Runs specTimeParamSet c s (exec (.timeParamSet c) s)
  ∧ Runs specTimeSet c s (exec (.timeSet c) s)
  ∧ Runs specTimeUtcSet c s (exec (.timeUtcSet c) s)
  ∧ Runs specTimeOscSet c s (exec (.timeOscSet c) s)
  ∧ Runs specTimeEpochForce c s (exec (.timeEpochForce c) s)
  ∧ Runs specTimePpsInSet c s (exec (.timePpsInSet c) s)
  ∧ Runs specTimePpsOutSet c s (exec (.timePpsOutSet c) s)
  ∧ Runs specTimeTodSet c s (exec (.timeTodSet c) s)
  ∧ Runs specTimeFreqRefSet c s (exec (.timeFreqRefSet c) s)
  ∧ Runs specLttSet c s (exec (.lttSet c) s)
  ∧ Runs specLttStatus c s (exec (.lttStatus c) s)
/-- Accepted commands complete: part 4. -/
def CommandsComplete4 (c : Cmd) (s : State) : Prop :=
  Runs specEngineDelayCert c s (exec (.engineDelayCert c) s)
  ∧ Runs specCertDump c s (exec (.certDump c) s)
  ∧ Runs specAsymSet c s (exec (.asymSet c) s)
  ∧ Runs specAsymValidate c s (exec (.asymValidate c) s)
  ∧ Runs specAsymClear c s (exec (.asymClear c) s)
  ∧ Runs specRouteSet c s (exec (.routeSet c) s)
  ∧ Runs specPtpClockSet c s (exec (.ptpClockSet c) s)
  ∧ Runs specPtpPortSet c s (exec (.ptpPortSet c) s)
  ∧ Runs specPtpPortStatus c s (exec (.ptpPortStatus c) s)
  ∧ Runs specEngineCryptoSet c s (exec (.engineCryptoSet c) s)
  ∧ Runs specKeyLoad c s (exec (.keyLoad c) s)
  ∧ Runs specKeyErase c s (exec (.keyErase c) s)
  ∧ Runs specKeyTxSwitch c s (exec (.keyTxSwitch c) s)
  ∧ Runs specKeyRxSwitch c s (exec (.keyRxSwitch c) s)
  ∧ Runs specKeyRxFollow c s (exec (.keyRxFollow c) s)
  ∧ Runs specKeyStatus c s (exec (.keyStatus c) s)
  ∧ Runs specDomainEnrol c s (exec (.domainEnrol c) s)
  ∧ Runs specDomainClear c s (exec (.domainClear c) s)
  ∧ Runs specTagCertRead c s (exec (.tagCertRead c) s)
  ∧ Runs specAttestReport c s (exec (.attestReport c) s)
  ∧ Runs specTestportChallenge c s (exec (.testportChallenge c) s)
  ∧ Runs specTestportUnlock c s (exec (.testportUnlock c) s)
  ∧ Runs specMonCal c s (exec (.monCal c) s)
  ∧ Runs specMonSeqSet c s (exec (.monSeqSet c) s)
  ∧ Runs specMonSeqStart c s (exec (.monSeqStart c) s)
  ∧ Runs specMonSeqStop c s (exec (.monSeqStop c) s)
  ∧ Runs specMonInject c s (exec (.monInject c) s)
  ∧ Runs specMonCorrSet c s (exec (.monCorrSet c) s)
  ∧ Runs specMonTestdacSet c s (exec (.monTestdacSet c) s)
/-- Accepted commands complete: part 5. -/
def CommandsComplete5 (c : Cmd) (s : State) : Prop :=
  Runs specFeProfileLoad c s (exec (.feProfileLoad c) s)
  ∧ Runs specFeBusAccess c s (exec (.feBusAccess c) s)
  ∧ Runs specTlmChainSet c s (exec (.tlmChainSet c) s)
  ∧ Runs specTlmCoefLoad c s (exec (.tlmCoefLoad c) s)
  ∧ Runs specTlmCoefSwap c s (exec (.tlmCoefSwap c) s)
  ∧ Runs specTlmReset c s (exec (.tlmReset c) s)
  ∧ Runs specCapSet c s (exec (.capSet c) s)
  ∧ Runs specCapArm c s (exec (.capArm c) s)
  ∧ Runs specCapWithdraw c s (exec (.capWithdraw c) s)
  ∧ Runs specCapStatus c s (exec (.capStatus c) s)
  ∧ Runs specCtrRead c s (exec (.ctrRead c) s)
  ∧ Runs specCtrChainSet c s (exec (.ctrChainSet c) s)
  ∧ Runs specCtrFilterSet c s (exec (.ctrFilterSet c) s)
  ∧ Runs specCtrBwSet c s (exec (.ctrBwSet c) s)
  ∧ Runs specCtrSnapshot c s (exec (.ctrSnapshot c) s)
  ∧ Runs specCtrDump c s (exec (.ctrDump c) s)
  ∧ Runs specCtrIndex c s (exec (.ctrIndex c) s)
  ∧ Runs specKennelStatus c s (exec (.kennelStatus c) s)
  ∧ Runs specLifeExport c s (exec (.lifeExport c) s)
  ∧ Runs specKennelExport c s (exec (.kennelExport c) s)
  ∧ Runs specEngineIsolate c s (exec (.engineIsolate c) s)
  ∧ Runs specEngineRestore c s (exec (.engineRestore c) s)
  ∧ Runs specTileFence c s (exec (.tileFence c) s)
  ∧ Runs specTileUnfence c s (exec (.tileUnfence c) s)
  ∧ Runs specShepherdStatus c s (exec (.shepherdStatus c) s)
  ∧ Runs specFwLoad c s (exec (.fwLoad c) s)
  ∧ Runs specFwActivate c s (exec (.fwActivate c) s)
  ∧ Runs specFwCommit c s (exec (.fwCommit c) s)
  ∧ Runs specFwStatus c s (exec (.fwStatus c) s)
/-- Where the rows of tick boundaries, realignment and defects complete. -/
def BoundaryRowsComplete (s : State) : Prop :=
  (∀ (o : TickObs), s.sysHeld = false → exec (.tick o) s = .next (((s.closeTick o).advanceTick.boundary.releaseHeld.parseAll.refreshAlert)))
  ∧ (exec .tickAlignedChangeEffect s = .next s.applyDue)
  ∧ (∀ (q : Realign), s.realign = some q → q.due s = true → s.trafficLast = false →
    exec .realignment s = .next ((s.stepNow.realignNow q).releaseHeld))
  ∧ (∀ (i : Fin 48) (x h : Nat), (s.pack i).psf = some (x, h) → x + h ≤ s.ticks →
    exec (.sfHoldoffExpiry true i) s = .next (s.modPack i (fun k => { k with psfFault := true })))
  ∧ (∀ (i : Fin 48) (x h : Nat), (s.eng i).defect.sf = some (x, h) → x + h ≤ s.ticks →
    Completes (exec (.sfHoldoffExpiry false i) s) (fun t => (t.eng i).defect.sfFault = true))
/-- Where the rows of the line side complete. -/
def LineRowsComplete (s : State) : Prop :=
  (∀ (e : Fin 48), (s.eng e).tx.muzzle = .rampUp → (s.eng e).tx.amp = 1 →
    exec (.muzzleRampEnd e) s = .next ((s.muzzleTo e .unmuzzled 1).nbrAll))
  ∧ (∀ (e : Fin 48), (s.eng e).tx.muzzle = .rampDown → (s.eng e).tx.amp = 0 →
    exec (.muzzleRampEnd e) s = .next ((s.muzzleTo e .muzzled 0).nbrAll))
  ∧ (∀ (e : Fin 48) (f : RxSignal), (s.eng e).kRx ≠ 0 → (s.eng e).acq.state = .inFrame ∨ (s.eng e).acq.state = .oof →
    exec (.rxFrameDecode e f) s = .next ((((s.beforeDecode e).decodeSignal e ((s.eng e).heard f)).1.receiveFrame e ((s.beforeDecode e).decodeSignal e ((s.eng e).heard f)).2).captureSymbols e (s.eng e).rxLayout ((s.eng e).heard f)))
  ∧ (∀ (e : Fin 48) (d : SyncSeen) (x : Option Contender), (s.eng e).acq.state = .confirm →
    exec (.rxSyncCheck e d x) s = .next (s.confirmCheck e ((s.eng e).checkErrs d.decided) x))
  ∧ (∀ (e : Fin 48) (d : SyncSeen) (x : Option Contender), (s.eng e).acq.state = .inFrame ∨ (s.eng e).acq.state = .oof →
    exec (.rxSyncCheck e d x) s = .next (s.frameCheck e ((s.eng e).checkErrs d.decided) x d.phase))
  ∧ (∀ (e : Fin 48) (l : List SyncMeas) (cd : Int) (m : SyncMeas), (s.eng e).acq.state = .search → (s.eng e).bestCandidate l = some m →
    exec (.searchSyncFound e l cd) s = .next (((((s.candidate e m).modAcq e (fun a => { a with state := .confirm })).loadScan e cd).count .syncCandidates .engine e 1)))
  ∧ (∀ (e : Fin 48) (l : List Int), l.length = 16 → (∀ p ∈ l, (s.eng e).acq.minPower ≤ p) → (s.eng e).acq.state = .noSignal →
    ∃ t, exec (.powerQualification e l) s = .next t)
  ∧ (∀ (e : Fin 48) (l : List Int), l.length = 16 → (∀ p ∈ l, p < (s.eng e).acq.minPower) →
    (s.eng e).acq.state = .search ∨ (s.eng e).acq.state = .confirm → ∃ t, exec (.powerQualification e l) s = .next t)
  ∧ (∀ (e : Fin 48), (s.eng e).acq.state = .oof → (s.eng e).acq.oofEntry + 1250 ≤ s.ticks →
    exec (.oofTimerExpiry e) s = .next (((s.searchClock e).alignRelease e .search).startPass e))
  ∧ (∀ (e : Fin 48), (s.eng e).acq.state = .search ∨ (s.eng e).acq.state = .confirm → (s.eng e).acq.noSyncRaised = false →
    (s.eng e).acq.searchStart + 625000 ≤ s.ticks → Completes (exec (.acqNoSync e) s) (fun t => (t.eng e).acq.noSyncRaised = true))
  ∧ (∀ (e : Fin 48) (x : Int), (s.eng e).acq.recentre = some x → (s.eng e).acq.state = .inFrame →
    Completes (exec (.freqRecentre e) s) (fun t => (t.eng e).acq.recentre = none))
  ∧ (∀ (e : Fin 48) (p : FeProfile) (ft : FineTune), s.tn % 64 = 0 → (s.eng e).acq.leash.enable = true → (s.eng e).inFrame = true →
    s.fenced e = false → (s.eng e).acq.offsetsBefore s.ticks ≠ [] → (s.eng e).acq.lastWrite ≠ some s.ticks → (s.eng e).fe.profile = some p →
    p.fineTune = some ft →
    exec (.leashWriteInstant e) s = .next ((s.modAcq e (fun a => { a with lastWrite := some s.ticks })).leashWrite e (roundDiv (((s.eng e).acq.offsetsBefore s.ticks).foldl (· + ·) 0) ((s.eng e).acq.offsetsBefore s.ticks).length) ft))
  ∧ (∀ (e : Fin 48) (x : Nat), (s.eng e).eq.freezeStart = some x → (s.eng e).eq.freeze.any = false →
    Completes (exec (.rxThaw e) s) (fun t => (t.eng e).eq.freezeStart = none))
  ∧ (∀ (e : Fin 48) (m : FeEstimate), (s.eng e).eq.rxFeAuto = true → (s.eng e).eq.freeze.brace = false →
    (∀ x, (s.eng e).eq.lastFeUpdate = some x → x + 625 ≤ s.ticks) →
    Completes (exec (.rxFeAutoUpdate e m) s) (fun t => (t.eng e).eq.lastFeUpdate = some s.ticks))
  ∧ (∀ (e : Fin 48) (b : CdBank), (s.eng e).eq.cdLoading = some b →
    Completes (exec (.cdFilterReady e) s) (fun t => (t.eng e).eq.cdShadow = some b))
  ∧ (∀ (e : Fin 48) (f : Fade), (s.eng e).eq.fade = some f → f.over = true → exec (.cdSwapDone e) s = .next (s.cdSwapEnd e (!f.rising)))
  ∧ (∀ (e : Fin 48), (s.eng e).eq.slewing = true → (s.eng e).eq.fade = none → (s.eng e).eq.align = 64 * alignSamples (s.eng e).eq.cdActive →
    Completes (exec (.cdDelaySettled e) s) (fun t => (t.eng e).eq.slewing = false))
  ∧ (∀ (e : Fin 48) (x : Int), s.tn % 64 = 0 → (s.eng e).eq.estimatedAt ≠ some s.ticks →
    Completes (exec (.cdTrackEstimate e x) s) (fun t => (t.eng e).eq.estimatedAt = some s.ticks))
  ∧ (∀ (e : Fin 48) (m : QualityMeas), s.tn % 64 = 0 → (s.eng e).inFrame = true → (s.eng e).eq.freeze.holdsSnr = false →
    Completes (exec (.estimatorUpdate e m) s) (fun t => (t.eng e).eq.est.snr = (s.eng e).eq.snrNow))
  ∧ (∀ (e : Fin 48), (s.eng e).load.mode = 2 → s.tn % (s.eng e).load.interval = 0 → (s.eng e).load.ann = none →
    (s.eng e).load.ranAt ≠ some s.tn → s.recovery.headless = none → s.power.braceEffect = false → (s.eng e).zr = false →
    ∃ t, exec (.loadPolicyRun e) s = .next t)
  ∧ (∀ (e : Fin 48) (a : Announce), (s.eng e).load.ann = some a → a.made = true → a.why ≠ .abort → a.accepted = false → a.deadline ≤ s.tn →
    exec (.loadAckDeadline e) s = .next (s.abortAnn e .deadline))
  ∧ (∀ (e : Fin 48) (a : Announce), (s.eng e).load.ann = some a → a.accepted = true → a.why ≠ .abort → a.loadTn ≤ s.tn →
    exec (.loadTxSwitch e) s = .next (s.loadTxSwitch e a))
  ∧ (∀ (e : Fin 48) (x : Int), s.tn % 64 = 0 → Completes (exec (.converterSensorRead e x) s) (fun t => (t.eng e).conv.tempNext = some x))
  ∧ (∀ (e : Fin 48) (x : Nat) (va vd : Bool) (z : Rat × Rat × Rat), (s.eng e).conv.ended = some (x, va, vd) → s.tn = x + 1 →
    Completes (exec (.calWindowCheck e z.1 z.2.1 z.2.2) s) (fun t => (t.eng e).conv.ended = none))
  ∧ (∀ (e : Fin 48) (x : Nat), (s.eng e).conv.applyAt = some x → x ≤ s.ticks → s.power.braceEffect = false →
    ∃ t, exec (.calApply e) s = .next t)
  ∧ (∀ (x : Retirement) (l : List Retirement), s.kennel.retireQueue = x :: l →
    Completes (exec .retirementEntryWrite s) (fun t => t.kennel.retireQueue = l))
  ∧ (∀ (l : List (Fin 122880 × Nat)), ∃ t, exec (.shadowScrubPass l) s = .next t)
/-- Where the rows of the client ports complete. -/
def HostRowsComplete (s : State) : Prop :=
  (∀ (i : Fin 4), (s.htile i).refclk = true → (s.htile i).syntonised = false → ∃ t, exec (.hostRefclkLoss i) s = .next t)
  ∧ (∀ (i : Fin 4), Completes (exec (.hostRefclkOk i) s) (fun t => (t.htile i).refclk = true))
  ∧ (∀ (l : Fin 384) (x : Nat) (y : LaneWindow), s.laneRuns l = true → ∃ t, exec (.hlAdaptWindowEnd l x y) s = .next t)
  ∧ (∀ (n : Fin 384) (p : Port) (l : Nat), s.port? n = some p → p.state = .training → p.round.started + 625 * p.round.timeout ≤ s.ticks →
    exec (.trainTimeoutExpiry n (some l) 0) s = .next (s.attemptFails n 1 l))
  ∧ (∀ (n : Fin 384) (p : Port) (l : Nat), s.port? n = some p → p.state = .training → p.round.started + 625 * p.round.timeout ≤ s.ticks →
    exec (.trainTimeoutExpiry n none l) s = .next (s.attemptFails n 3 l))
  ∧ (∀ (n : Fin 384) (p : Port) (l : Nat), s.port? n = some p → p.state = .training → p.round.started + 1250 ≤ s.ticks →
    s.ticks ≤ p.round.started + 625 * p.round.timeout → exec (.partnerLostTimer n l) s = .next (s.attemptFails n 2 l))
  ∧ (∀ (n : Fin 384) (p : Port) (l : Nat), s.port? n = some p → p.state = .aligning → p.round.alignStart + 62500 ≤ s.ticks →
    exec (.alignTimeout n l) s = .next (s.attemptFails n 4 l))
  ∧ (∀ (n : Fin 384) (p : Port), s.port? n = some p → p.state = .aligning → s.ticks ≤ p.round.alignStart + 62500 →
    Completes (exec (.pcsAligned n) s) (fun t => (∃ q, t.port? n = some q ∧ q.state = .up)))
  ∧ (∀ (n : Fin 384) (p : Port), s.port? n = some p → p.state = .holdoff → p.round.holdFor ≠ 0 →
    p.round.holdStart + 625000 * p.round.holdFor ≤ s.ticks → s.clocked n = true → exec (.trainHoldoffExpiry n) s = .next (s.startRound n))
  ∧ (∀ (n : Fin 384) (p : Port) (b : Bool), s.port? n = some p → p.state = .up →
    Completes (exec (.pcsAlignmentLoss n b) s) (fun t => (∃ q, t.port? n = some q ∧ q.lossAlign = true)))
  ∧ (∀ (n : Fin 384) (p : Port) (x : Nat), s.port? n = some p → p.state = .up → p.lossAt = some x → x + 625 * p.retrainHold ≤ s.ticks →
    exec (.retrainHoldExpiry n) s = .next (s.startRound n))
  ∧ (∀ (l : Fin 384) (x y : Nat), (s.lane l).checker ≠ 0 → (s.lane l).locked = true → (s.lane l).lockedInside = false →
    Completes (exec (.prbsCheckWindow l x y) s) (fun t => Counted .prbsBits .hostLane l 131072 t))
  ∧ (∀ (n : Fin 384) (p : Port) (l fcs : List Octet) (b : List Nat) (x : Nat), s.port? n = some p → p.state = .up → p.tap.esmc = true →
    p.tapClass l = some true → fcsOk l fcs = false → Completes (exec (.tapFrameRx n l fcs b x) s) (fun t => Counted .tapFcsErr .port n 1 t))
  ∧ (∀ (n : Fin 384) (p : Port) (l fcs : List Octet) (b : List Nat) (x : Nat), s.port? n = some p → p.state = .up → p.tap.ptp = true →
    p.tapClass l = some false → fcsOk l fcs = true → ofClass false p.tap.accepted < 512 → p.tap.second = s.taiSecond →
    (s.htile (n / 96)).waiting.length < 1024 →
    Completes (exec (.tapFrameRx n l fcs b x) s) (fun t => (t.htile (n / 96)).waiting = (s.htile (n / 96)).waiting ++ [(n.val, false, l, s.taiAt s.tn + x - p.rxDelay)]))
  ∧ (∀ (n : Fin 384) (p : Port) (f : OutFrame) (l : List OutFrame) (x : Nat), s.port? n = some p → p.tap.queue = f :: l → p.state = .up →
    p.data.egress.length ≤ 1024 → ∃ t, exec (.tapFrameInsert n x) s = .next t)
  ∧ (∀ (n : Fin 384) (p : Port) (f : OutFrame) (l : List OutFrame), s.port? n = some p → p.tap.queue = f :: l →
    p.tap.insertWait * 625 < (s.ticks - f.queuedAt) * 10 →
    Completes (exec (.tapInsertTimeout n) s) (fun t => (∃ q, t.port? n = some q ∧ q.tap.queue = l ∧ q.tap.lastDiscard = some s.ticks)))
/-- Where the rows of the time core and the transfer of time complete. -/
def TimeRowsComplete (s : State) : Prop :=
  (∀ (n : Fin 2) (x : Nat), ∃ t, exec (.ppsInPulse n x) s = .next t)
  ∧ (∀ (n : Fin 2) (x : Int), (s.ppsIn n).last = some x → ∃ t, exec (.ppsMissing n) s = .next t)
  ∧ (∀ (n : Fin 2) (l : List Octet) (x : Nat), l.take 6 = ctodHead → 72 < l.length →
    exec (.todSentenceRx n l x) s = .next (s.count .todInErr .device n 1))
  ∧ (∀ (n : Fin 2) (l : List Octet) (x : Nat) (y : Sentence), l.take 6 = ctodHead → l.length ≤ 72 → sentenceOf l = some y →
    ∃ t, exec (.todSentenceRx n l x) s = .next t)
  ∧ (∀ (x : TimeSrc) (y : Int), s.time.meas = some (x, y) → ∃ t, exec .timeMeasurement s = .next t)
  ∧ (exec .timeStep s = .next s.stepNow)
  ∧ (∀ (i : Fin 4) (c : Candidate), s.time.candidates[i.val]? = some c → c.st = .qualifying → c.since + c.qualTime * secTicks ≤ s.ticks →
    exec (.sourceQualified i) s = .next (s.qualify c.src .qualified .timePassed))
  ∧ (exec .wtrExpiry s = .next s.reselect)
  ∧ (∀ (x : Nat), s.time.traceUntil = some x → x ≤ s.ticks →
    exec .holdoverTraceExpiry s = .next ((s.modTime (fun k => { k with traceUntil := none })).refreshTrace))
  ∧ (exec .leapApplied s = .next s.leapDue)
  ∧ (∀ (n : Fin 4) (w : Int), w = nearestSecond s.nowTai / secondUnits → (vget s.time.ppsOut n PpsOut.reset).second < w →
    s.nowTai ≤ w * secondUnits - ((vget s.time.ppsOut n PpsOut.reset).at w).cfg.delay →
    w * secondUnits - ((vget s.time.ppsOut n PpsOut.reset).at w).cfg.delay < s.taiAt (s.tn + 1) →
    Completes (exec (.ppsOutPulse n) s) (fun t => (vget t.time.ppsOut n PpsOut.reset).second = w))
  ∧ (secondUnits * 3 / 10 ≤ s.nowTai - s.nowTai / secondUnits * secondUnits → s.nowTai / secondUnits + 1 ≠ s.time.todOut.second →
    Completes (exec .todOutSentence s) (fun t => t.time.todOut.line = s.todLine (s.nowTai / secondUnits + 1)))
  ∧ (∀ (x : Int), s.time.state = .locked → s.nowTai - s.nowTai / secondUnits * secondUnits < tickUnits →
    Completes (exec (.kennelRtcUpdate x) s) (fun t => t.kennel.rtc = s.nowTai / secondUnits * secondUnits))
  ∧ (s.time.oscLost = false → ∃ t, exec .oscLoss s = .next t)
  ∧ (s.time.oscLost = true → ∃ t, exec .oscOk s = .next t)
  ∧ (∀ (x : Nat), s.time.relockAt = some x → x ≤ s.ticks → Completes (exec .oscRelockDone s) (fun t => t.time.oscFreq = s.time.oscNext))
  ∧ (∀ (x : Int) (k : Nat), (s.time.steering = .line k ∨ s.time.steering = .synce k) → s.time.freq.lastLoop + 64 ≤ s.ticks →
    exec (.freqLoopUpdate x) s = .next ((s.modTime (fun k => { k with demand := Config.freqLoop k.freq.bw k.demand (k.freq.meanErr x), freq := { k.freq with lastLoop := s.ticks, errSum := 0, errTicks := 0 } })).freqJudge 64))
  ∧ (∀ (x : Int), s.time.freq.ref ≠ .same → s.time.freq.ref ≠ .free → s.freqRefOk x = true → ∃ t, exec (.freqRefQualification x) s = .next t)
  ∧ (∀ (e : Fin 48), s.tn % (s.ltt e).interval = 0 → ∃ t, exec (.lttIntervalEnd e) s = .next t)
  ∧ (s.tn % 625000 = 0 → (s.ltt 0).sums.ticks ≠ 0 → exec .delayCertFormation s = .next ((List.range 48).foldl (fun s e => s.certify e) s))
/-- Where the rows of PTP and synchronisation messages complete. -/
def PtpRowsComplete (s : State) : Prop :=
  (∀ (n : Fin 384) (f : List Octet) (x : Int), s.fwUp = true → (takeWaiting n false (s.htile (n / 96)).waiting).1 = some (f, x) →
    ∃ t, exec (.ptpMessageRx n) s = .next t)
  ∧ (∀ (n : Fin 384), s.ptpIs n .transmitter = true → (s.ptp n).syncAt + logTicks (s.ptp n).cfg.logSync ≤ s.ticks →
    ∃ t, exec (.ptpSyncTx n) s = .next t)
  ∧ (∀ (n : Fin 384), s.ptpIs n .transmitter = true → (s.ptp n).announceAt + logTicks (s.ptp n).cfg.logAnnounce ≤ s.ticks →
    ∃ t, exec (.ptpAnnounceTx n) s = .next t)
  ∧ (∀ (n : Fin 384), (s.ptpIs n .receiver = true ∨ s.ptpIs n .uncalibrated = true) →
    (s.ptp n).delayAt + logTicks (s.ptp n).cfg.logDelayReq ≤ s.ticks → ∃ t, exec (.ptpDelayReqTx n) s = .next t)
  ∧ (∀ (n : Fin 384), s.fwUp = true → (s.ptp n).cfg.profile ≠ 0 → (s.ptp n).state = .receiver →
    (s.ptp n).heardAt + (s.ptp n).cfg.timeout * logTicks (s.ptp n).cfg.logAnnounce ≤ s.ticks →
    ∃ t, exec (.announceReceiptTimeout n) s = .next t)
  ∧ (∀ (n : Fin 384), s.fwUp = true → (s.ptp n).state = .receiver → (s.ptp n).measAt + logTicks (s.ptp n).cfg.meas ≤ s.ticks →
    ∃ t, exec (.ptpMeasPeriodEnd n) s = .next t)
  ∧ (∀ (n : Fin 384), s.esmcOn n = true → (s.ptp n).esmcAt + secTicks ≤ s.ticks → exec (.esmcInfoTx n) s = .next (s.esmcSend n false))
  ∧ (∀ (n : Fin 384), s.esmcOn n = true → s.txQl n ≠ (s.ptp n).eventQl → exec (.esmcEventTx n) s = .next (s.esmcSend n true))
  ∧ (∀ (n : Fin 384) (f : List Octet) (x : Int), s.fwUp = true → (takeWaiting n true (s.htile (n / 96)).waiting).1 = some (f, x) →
    Completes (exec (.esmcPduRx n) s) (fun t => (t.htile (n / 96)).waiting = (takeWaiting n true (s.htile (n / 96)).waiting).2))
/-- Where the rows of keys, the test port, the monitor, the front end and telemetry complete. -/
def UnitRowsComplete (s : State) : Prop :=
  (∀ (e : Fin 48) (i : Fin 4) (k : KeySlot), (s.keys e).slot i = some k → k.expiry ≠ 0 → k.expiry ≤ s.tn →
    Completes (exec (.keyExpiry e i) s) (fun t => (t.keys e).slot i = none))
  ∧ (∀ (i : TestIr), (i = .idcode ∨ i = .bypass ∨ s.sec.testOpen = false) → exec (.testportInstruction i) s = .next s)
  ∧ (∀ (q : Nat) (w : List Word) (l : List (Nat × List Word)), s.sec.signing = (q, w) :: l →
    Completes (exec .tagSignatureDone s) (fun t => t.sec.signing = l))
  ∧ (∀ (k : Fin 4) (x : Fin 4096) (c : Conversion), (s.mc k).current = some c → ∃ t, exec (.monConversionDone k x) s = .next t)
  ∧ (∀ (k : Fin 4) (o : Int) (g l since : Nat), (s.mc k).cal = .running since → since + 1500 ≤ s.ticks →
    ∃ t, exec (.monCalComplete k o g l) s = .next t)
  ∧ (∀ (k : Fin 4) (d x : Nat), (s.mc k).testDacNext = some (d, x) → x + 6 ≤ s.ticks →
    Completes (exec (.monTestdacSettle k) s) (fun t => (t.mc k).testDac = d))
  ∧ (∀ (e : Fin 48) (i : Fin 8) (p : FeProfile) (l : BiasLoop) (q : LoopRun), (s.eng e).fe.profile = some p →
    p.loops.find? (fun l => l.num == i.val) = some l → (s.eng e).fe.loops.find? (fun r => r.num == i.val) = some q → feRuns s e = true →
    q.lastRun + l.period ≤ s.ticks → ∃ t, exec (.biasLoopRun e i) s = .next t)
  ∧ (∀ (e : Fin 48) (p : FeProfile) (a w m d v : Nat), (s.eng e).fe.profile = some p → p.fault = some (a, w, m, d) → feRuns s e = true →
    (s.eng e).fe.lastPoll + d ≤ s.ticks → ∃ t, exec (.feFaultPoll e v) s = .next t)
  ∧ (∀ (e : Fin 48) (x : FeTxn) (l : List FeTxn) (v : Nat), (s.eng e).fe.queue = x :: l → feHwDue s e = false → s.fenced e = false →
    ∃ t, exec (.feBusTransaction e v) s = .next t)
  ∧ (∀ (n : Fin 64) (m : Nat), (s.chain n).sampledAt ≠ some s.ticks → (s.chain n).cfg.source = .monitor m →
    exec (.tlmSample n) s = .next (s.tlmInput n (vget (s.mc (m / 64)).latest (m % 64) Latest.reset).v false))
  ∧ (∀ (n : Fin 384) (p : Port), s.port? n = some p → exec (.bandwidthWindowEnd n) s = .next (s.bwBoundary n))
/-- Where the rows of capture and DMA complete. -/
def DmaRowsComplete (s : State) : Prop :=
  (∀ (k : Fin 12) (x : Nat), (s.tile k).capture.state = .armed → (s.tile k).capture.start = some x → x ≤ s.tn → s.captureUnframed k = false →
    Completes (exec (.captureTrigger k) s) (fun t => (t.tile k).capture.state = .filling))
  ∧ (∀ (k : Fin 12) (l : List Octet), (s.tile k).capture.state = .filling → s.captureUnframed k = false →
    (s.tile k).capture.begun + (s.tile k).capture.ticksNeeded (s.eng ((s.tile k).capture.engine k)).rxLayout ≤ s.ticks + 1 →
    Completes (exec (.captureFillDone k l) s) (fun t => (t.tile k).capture.state = .done))
  ∧ (∀ (n : Fin 16), s.mapOpen = true → exec (.dmaGo n) s = .next (s.channelGo n))
  ∧ (∀ (n : Fin 16), s.mapOpen = true → exec (.dmaAbort n) s = .next (s.channelAbort n))
  ∧ (∀ (n : Fin 16) (b : Bool) (l : List Octet), (s.dc n).state = .running → (s.dc n).devSel = false →
    Completes (exec (.dmaReadCompletion n b l) s) (fun t => (t.dc n).bytesDone = (s.dc n).bytesDone + l.length))
  ∧ (∀ (n : Fin 16) (b : Bool) (x : Nat) (d : DmaEnd), (s.dc n).state = .running → s.hostToDevice n = true → (s.dc n).loadEnd b = some d →
    exec (.dmaChannelEnd n b x) s = .next (s.finishChannel n d))
/-- Where the rows of resets and power complete. -/
def ResetRowsComplete (s : State) : Prop :=
  (s.power.sysRstLow = false → ∃ t, exec .sysRstAssert s = .next t)
  ∧ (∀ (x : Nat), s.power.sysRstLow = true → (s.modPower (fun p => { p with sysRstLow := false })).sysHeld = false →
    exec (.sysRstRelease x) s = .next ((s.modPower (fun p => { p with sysRstLow := false })).sysStart x))
  ∧ (s.power.mgmtRstLow = false → ∃ t, exec .mgmtRstAssert s = .next t)
  ∧ (s.power.mgmtRstLow = true → (s.modPower (fun p => { p with mgmtRstLow := false })).sysHeld = false →
    exec .mgmtRstRelease s = .next ((s.modPower (fun p => { p with mgmtRstLow := false })).mgmtRelease))
  ∧ (s.power.perstLow = false → ∃ t, exec .perst s = .next t)
  ∧ (s.dev.linkUp = true → exec .hotReset s = .next s.pcieReset.endpointNow)
  ∧ (s.dev.endpointUp = true → exec .functionLevelReset s = .next s.pcieReset)
  ∧ (s.dev.endpointUp = true → s.dev.d3hot = false → ∃ t, exec .d3hotEntry s = .next t)
  ∧ (Completes (exec .d0Return s) (fun t => t.dev.d3hot = false))
  ∧ (exec .pcieRefclkLoss s = .next ((s.modPower (fun p => { p with pcieRefclk := false })).endpointNow))
  ∧ (∀ (d : Domain) (x : Rail) (v : Nat), s.watching d x = true → 50 ≤ v → v ≤ 100 →
    Completes (exec (.railWarning d x v) s) (fun t => t.power.braceOn.isSome = true))
  ∧ (∀ (b : Brace), s.power.braceOn = some b → b.warnedAt + 31 ≤ s.ticks → Completes (exec .braceExit s) (fun t => t.power.braceOn = none))
  ∧ (∀ (d : Domain) (x : Rail) (v : Nat), s.watching d x = true → 100 ≤ v → ∃ t, exec (.railResetLevel d x v) s = .next t)
  ∧ (∀ (d : Domain) (x : Nat), s.holdServed d x = true →
    exec (.domainResetRelease d x) s = .next ((s.modPower (fun p => { p with inReset := p.inReset.filter (fun x => decide (x.1 ≠ d)) })).domainRelease d x))
  ∧ (∀ (x : Int), s.sysHeld = false → s.power.braceOn = none → s.power.avsLast + 6250 ≤ s.ticks →
    Completes (exec (.avsLoopStep x true) s) (fun t => t.power.avsTarget = (clampI 600 720 ((s.power.avsTarget : Int) + clampI (-5) 5 x)).toNat))
  ∧ (∀ (v : Nat), s.power.vddAux = true → Completes (exec (.vbatMeasurement v) s) (fun t => t.power.vbatMv = v))
  ∧ (∃ t, exec .kennelPowerLoss s = .next t)
/-- Where the rows of recovery and boot complete. -/
def RecoveryRowsComplete (s : State) : Prop :=
  (s.recovery.fw = .running → exec .fwHeartbeat s = .next (s.modRec (fun r => { r with fwBeat := s.ticks })))
  ∧ (s.shepWatches = true → exec .shepherdHeartbeat s = .next (s.modRec (fun r => { r with shepBeat := s.ticks })))
  ∧ (s.recovery.fw = .running → s.shepWatches = true → s.recovery.fwBeat + 62500 ≤ s.ticks →
    exec .heartbeatTimeout s = .next (s.declareDown causeHeartbeat))
  ∧ (s.recovery.fw = .running → s.shepWatches = true → exec .fwFatalTrap s = .next (s.declareDown causeTrap))
  ∧ (s.recovery.fw = .booting → s.dev.stage = .running → s.shepWatches = true → s.recovery.bootStart + 6250000 ≤ s.ticks →
    ∃ t, exec .fwBootTimeout s = .next t)
  ∧ (s.recovery.fw = .booting → s.dev.stage = .running → s.recovery.expired = false → s.proto.mgmtResetArmed = none → s.sysHeld = false →
    ∃ t, exec .fwRunningReport s = .next t)
  ∧ (s.fwUp = true → s.shepWatches = true → s.recovery.shepBeat + 62500 ≤ s.ticks → ∃ t, exec .shepherdHeartbeatTimeout s = .next t)
  ∧ (s.recovery.fw = .running → s.recovery.expired = false → exec .lastResortKick s = .next (s.modRec (fun r => { r with kick := s.ticks })))
  ∧ (s.recovery.expired = false → s.sysHeld = false → s.power.mgmtRstLow = false → s.recovery.kick + 1250000 ≤ s.ticks →
    ∃ t, exec .lastResortExpiry s = .next t)
  ∧ (s.recovery.fw = .booting → s.sysHeld = false → s.dev.stage = .rom → s.dev.bootSrc < 2 → exec .firmwareBoot s = .next s.bootFlash)
  ∧ (∀ (l : List (Option Int)), s.sysHeld = false → s.power.vddAux = true → ∃ t, exec (.lifeRecordSecond l) s = .next t)
  ∧ (s.fwUp = true → exec .lifeMirrorWrite s = .next s.mirrorLife)
  ∧ (s.mapOpen = true → exec .bootGo s = .next s.bootGoWrite)
/-- Where the rows of queues, windows and registers complete. -/
def QueueRowsComplete (s : State) : Prop :=
  (∀ (q : Nat) (x : Fin 257) (j : Job), s.proto.jobs.find? (fun j => j.ticket.seq == q) = some j → ∃ t, exec (.progress q x) s = .next t)
  ∧ (∀ (q : Fin 4) (x : Nat) (b : Bool) (l : List QWord), s.mapOpen = true → (s.qreg q).enable = true → x < 2 ^ (s.qreg q).log2 →
    exec (.commandRingDoorbell q x b l) s = .next (s.doorbell q x b l))
  ∧ (∀ (q : Fin 9) (w : Word), s.mapOpen = true → exec (.ringEnableWrite q w) s = .next (s.writeControl q w.toNat))
  ∧ (∀ (q : Fin 9) (x : Nat), s.mapOpen = true → 4 ≤ q.val → exec (.ringCiWrite q x) s = .next (s.writeCi q x))
  ∧ (∀ (q : Fin 17), s.mapOpen = true → q.val < 12 → exec (.queueFlush q) s = .next (s.flushSet q))
  ∧ (∀ (q : Fin 17), s.mapOpen = true → exec (.wmLatchedClear q) s = .next (s.wmClear q))
  ∧ (∀ (n : Fin 5) (x : Resp) (l : List Resp), vget s.proto.heldResp n [] = x :: l → s.respFits n x.size = true →
    exec (.heldResponseCommit n) s = .next ((s.modProto (fun p => { p with heldResp := vmod p.heldResp n (fun _ => l) })).commitResp n x))
  ∧ (∀ (x : EventItem) (l : List EventItem), s.proto.eventQueue = x :: l → (s.qreg 8).enable = true → s.dev.endpointUp = true →
    s.dev.d3hot = false → s.fill 8 + x.size < s.capacity 8 → ∃ t, exec .eventRingDrain s = .next t)
  ∧ (∀ (x : EventItem) (l : List EventItem), s.proto.heldEvents = x :: l → s.proto.eventQueue.length < 4096 →
    exec .heldEventEntry s = .next ((s.modProto (fun p => { p with heldEvents := l })).postEvent x))
  ∧ (∀ (q : Fin 9), (s.qreg q).deferred = true → holdoffOver (s.qreg q) s.ticks = true →
    exec (.intHoldoffExpiry q) s = .next (s.signalRing q))
  ∧ (∀ (v : Fin 64), s.pathOpen .pcie = true → exec (.msixUnmask v) s = .next (s.unmask v))
  ∧ (∀ (a b : Bool) (l : List QWord), s.mapOpen = true → s.ioHeld = false → s.bootOverSpi = false → s.proto.spiDead = false →
    ∃ t, exec (.spiCommandWindowWrite a b l) s = .next t)
  ∧ (∀ (n : Nat) (b : Bool), s.ioHeld = false → s.proto.spiDead = false →
    Completes (exec (.spiResponseWindowRead n b) s) (fun t => t.spiReply = (clockOut Resp.octets ((vget s.proto.resp 4 []).length + 1) n (vget s.proto.resp 4 []) s.proto.spiRespRead).1))
  ∧ (∀ (n : Nat) (b : Bool), s.ioHeld = false → s.proto.spiDead = false → (s.qreg 8).enable = false →
    Completes (exec (.spiEventWindowRead n b) s) (fun t => t.spiReply = (clockOut EventItem.octets (s.proto.eventQueue.length + 1) n s.proto.eventQueue s.proto.spiEventRead).1))
  ∧ (s.ioHeld = false → Completes (exec .spiStatus s) (fun t => t.spiReply = [BitVec.ofNat 8 s.spiStatus]))
  ∧ (∀ (p : Path) (n : Fin 49152), s.pathOpen p = true →
    Completes (exec (.counterV0Read p n) s) (fun t => t.readWord = some (BitVec.ofNat 32 (s.ctr.wordNow n 0))))
  ∧ (∀ (x : Nat) (l : List Nat), s.mapOpen = true → s.tlmq.queue = x :: l →
    Completes (exec (.monResultRead 4) s) (fun t => t.readWord = some (BitVec.ofNat 32 x)))
  ∧ (∀ (q : Fin 5) (x : Nat) (l : List Nat), s.mapOpen = true → q.val ≠ 4 → (s.mc q).queue = x :: l →
    Completes (exec (.monResultRead q) s) (fun t => t.readWord = some (BitVec.ofNat 32 x)))
  ∧ (s.mapOpen = true → Completes (exec .timeSnapReq s) (fun t => t.time.snap.req = true))
  ∧ (s.time.snap.req = true → s.time.snap.reqAt < s.ticks →
    Completes (exec .timeSnapshotCapture s) (fun t => (t.time.snap.req = false ∧ t.time.snap.tn = s.tn)))
  ∧ (∀ (p : Path) (o : Nat) (w : Word), s.pathOpen p = true → o % 4 = 0 → exec (.registerWrite p false o w) s = .next (s.writeMap o w.toNat))
  ∧ (∀ (o : Nat) (w : Word), s.pathOpen .pcie = true → o % 4 = 0 → exec (.registerWrite .pcie true o w) s = .next (s.writeMsix o w.toNat))
/-- Where the rows of tiles, training and the lines of the host complete. -/
def RestRowsComplete (s : State) : Prop :=
  (∀ (k : Fin 12), (s.tile k).power = .goingDown →
    exec (.tilePowerDownDone k) s = .next ((s.modTile k (fun x => { x with power := .off })).fenceDone 0xA02 k))
  ∧ (∀ (k : Fin 12), (s.tile k).power = .comingUp → ∃ t, exec (.tilePowerUpDone k) s = .next t)
  ∧ (∀ (x : Trained) (p : Port), s.port? x.port = some p → p.state = .training → p.round.started ≤ s.ticks →
    s.ticks ≤ p.round.started + 625 * p.round.timeout →
    Completes (exec (.linkTrainingComplete x) s) (fun t => (∃ q, t.port? x.port = some q ∧ q.state = .aligning)))
  ∧ (∀ (e : Fin 48) (cd : Int), (s.eng e).acq.state = .search →
    exec (.searchPassEnd { engine := e, cd := cd }) s = .next (((s.loadScan e cd).count .searchPasses .engine e 1).startPass e))
  ∧ (∀ (l : Fin 384), (s.lane l).checker ≠ 0 → (s.lane l).locked = false → s.patternHeard l = true →
    Completes (exec (.prbsCheckerLock l) s) (fun t => (t.lane l).locked = true))
  ∧ (exec .pcieRefclkReturn s = .next ((s.modPower (fun p => { p with pcieRefclk := true })).endpointNow))
  ∧ (exec .perstRelease s = .next ((s.modPower (fun p => { p with perstLow := false })).endpointNow))
  ∧ (∃ t, exec .vddAuxPowerUp s = .next t)
/-! ### End of rows -/
end Sys2Proof.Machine
end

