-- ==== Sys2Proof/Certificates/Slice0/Obligations.lean ====
section
/-! DEFINITION. The statements about the block. -/
open Sys2Proof Sys2Proof.Machine

/-- What stands for fetching in a block: the front of the queue of waiting commands. The idling is the model's choice. -/
def Obligations.StepRunsTheFront : Prop :=
  (∀ (c : Instr) (rest : List Instr) (s : State), step { s with pending := c :: rest } = exec c { s with pending := rest })
  ∧ (∀ s : State, s.pending = [] → step s = .next s)
  ∧ (∀ (s : State) (nbits w : Nat), decodeTableWord nbits w = none ∧ s.withFetchWord nbits w = s)

/-- The invariant of `StepKeepsMemories` holds at reset. -/
def Obligations.ResetMemoriesCanonical : Prop := State.reset.memoriesWf = true

/-- Every command, from every such state, keeps the canonical form. -/
def Obligations.StepKeepsMemories : Prop :=
  ∀ s t : State, s.memoriesWf = true → step s = .next t → t.memoriesWf = true

/-- TN advances by exactly 1 at a tick boundary and never otherwise, but for realignments and resets (R29). -/
def Obligations.TickNumberMoves : Prop :=
  (∀ (c : Instr) (s t : State), keepsTn c = true → exec c s = .next t → t.tn = s.tn ∧ t.ticks = s.ticks)
  ∧ (∀ (obs : TickObs) (s : State), s.sysHeld = false → Completes (exec (.tick obs) s) (fun t => t.tn = s.tn + 1
      ∧ t.ticks = s.ticks + 1 ∧ t.kennel.rtc = (s.kennel.counted (Config.rtcError s.ticks) 1).rtc ∧ t.pending = s.pending))
  ∧ (∀ (obs : TickObs) (s : State), s.sysHeld = true → exec (.tick obs) s = .next s)

/-- The realignment (R36, R37, R40), and a boundary with nothing due (R43). -/
def Obligations.RealignmentAndDueChanges : Prop :=
  ∀ s : State,
    (s.realign = none → exec .realignment s = .next s)
    ∧ (∀ r : Realign, s.realign = some r → r.due s = false → exec .realignment s = .next s)
    ∧ (∀ r : Realign, s.realign = some r → r.due s = true → s.trafficLast = false → s.proto.held = [] →
      s.kennel.settings.ivGen < 65535 →
      Completes (exec .realignment s) (fun t =>
        t.tickOffset = r.second.getD s.kennel.settings.epochTai
        ∧ t.tn = ((s.stepNow.nowTai - r.second.getD s.kennel.settings.epochTai) / tickUnits).toNat
        ∧ t.tnProvisional = false ∧ t.realign = none ∧ t.ticks = s.ticks
        ∧ t.kennel.settings = { s.stepNow.kennel.settings with
            epochSet := true, epochTai := r.second.getD s.kennel.settings.epochTai, ivGen := s.kennel.settings.ivGen + 1 }
        ∧ Raised .tickRealign .device 0 (w2 s.tn ++ w2 t.tn) t.tn t
        ∧ (∀ a ∈ t.proto.armed, a.cmd.tn = none ∨ a.key.cls = 0x202)
        ∧ (∀ e : Fin 48, (t.keys e).slot 0 = none ∧ (t.keys e).slot 1 = none ∧ (t.keys e).slot 2 = (s.keys e).slot 2
            ∧ (t.keys e).slot 3 = (s.keys e).slot 3)
        ∧ t.ports = s.ports ∧ t.packs = s.packs ∧ t.map = s.map))
    ∧ (∀ r : Realign, s.realign = some r → r.due s = true → s.trafficLast = true → s.proto.held = [] →
      Completes (exec .realignment s) (fun t => t.tn = s.tn ∧ t.tickOffset = s.stepNow.tickOffset ∧ t.engines = s.stepNow.engines
        ∧ (r.fromSet = true → t = { s.stepNow with realign := none })))
    ∧ ((∀ a ∈ s.proto.armed, s.tn < a.due) → exec .tickAlignedChangeEffect s = .next s)

/-- R402 and R403, for every row of the opcode table and every unassigned opcode. -/
def Obligations.TagInFlight : Prop :=
  ∀ (row : Option OpSpec) (op : Nat) (c : Cmd) (s : State), c.src.isHost = true →
    ((s.visible c.src.list).isEmpty = true → s.parses c.src = true → s.barred c.src = false →
      c.urgent = true ∨ s.urgentElse c.src.list = false → s.tagsInFlight.contains c.tag.val = true →
      Only (withEvent [.queueItems]) s (runSpec row op c s) ∧ (runSpec row op c s).visible c.src.list = []
      ∧ Raised .badItem .queue c.src.cmdSet (w1 3 ++ w2 (headerNat op c)) s.tn (runSpec row op c s)
      ∧ Counted .tagCollisions .device 0 1 (runSpec row op c s))
    ∧ (1024 ≤ s.tagsInFlight.length → (∀ it ∈ s.visible c.src.list, it.cmd.src = c.src) →
      Only [.queueItems] s (runSpec row op c s)
      ∧ ∃ l, (runSpec row op c s).visible c.src.list = s.visible c.src.list ++ l)

/-- Parsing of one item (R395, R405, R41, R423, R425, R427), for every row of the opcode table. -/
def Obligations.ParsingAndRefusal : Prop :=
  ∀ (c : Cmd) (s : State),
    (∀ sp : OpSpec, parsedNow c s = true →
      (∀ st d, parseRefusal sp c (s.atParse sp.code c) = some (st, d) → Completes (runOp sp c s) (fun t =>
        Answered sp.code c true st d s.tn [] t ∧ Only answerParts s t))
      ∧ (∀ st d, parseRefusal sp c (s.atParse sp.code c) = none → orderWaits sp.code c s.proto.nextSeq s = false →
        ¬(c.barrier = true ∧ barrierWaits s.proto.nextSeq s = true) →
        ownRefusal sp c (s.atParse sp.code c) = some (st, d) → sp.onRefuse = (fun _ _ s => s) →
        Completes (runOp sp c s) (fun t => Answered sp.code c true st d s.tn [] t ∧ Only answerParts s t))
      ∧ (∀ k, sp.fence c = some k → (s.tile k).fenced = true → rangeRefusal sp c (s.atParse sp.code c) = none →
        ownRefusal sp c (s.atParse sp.code c) = some (.tileFenced, k))
      ∧ (parseRefusal sp c (s.atParse sp.code c) = none → c.barrier = true → barrierWaits s.proto.nextSeq s = true →
        Completes (runOp sp c s) (fun t =>
          t.proto.held = s.proto.held ++ [{ opcode := sp.code, cmd := c, seq := s.proto.nextSeq, why := .barrier, dead := false }]
          ∧ Only [.held, .queueItems, .queueRegs, .seq, .happened] s t))
      ∧ (parseRefusal sp c (s.atParse sp.code c) = none → ¬(c.barrier = true ∧ barrierWaits s.proto.nextSeq s = true) →
        orderWaits sp.code c s.proto.nextSeq s = true →
        Completes (runOp sp c s) (fun t =>
          t.proto.held = s.proto.held ++ [{ opcode := sp.code, cmd := c, seq := s.proto.nextSeq, why := .order, dead := false }]
          ∧ Only [.held, .queueItems, .queueRegs, .seq, .happened] s t))
      ∧ (parseRefusal sp c (s.atParse sp.code c) = none → ¬(c.barrier = true ∧ barrierWaits s.proto.nextSeq s = true) →
        orderWaits sp.code c s.proto.nextSeq s = false → ownRefusal sp c (s.atParse sp.code c) = none → heldBack sp c s = true → (∀ d, c.tn = some d → s.tn < d) →
        Completes (runOp sp c s) (fun t =>
          t.proto.held = s.proto.held ++ [{ opcode := sp.code, cmd := c, seq := s.proto.nextSeq, why := .realign, dead := false }]
          ∧ Only [.held, .queueItems, .queueRegs, .seq, .happened] s t)))
    ∧ (∀ sp : OpSpec, (s.visible c.src.list).isEmpty = true → s.parses c.src = false →
      Completes (runOp sp c s) (fun t => t.visible c.src.list = [{ opcode := sp.code, cmd := c, span := 0, bad := none }]
        ∧ Only [.queueItems] s t))
    ∧ (∀ op : Fin 4096, opTable op = none → parsedNow c s = true →
      Completes (exec (.unknownOpcode op c) s) (fun t => Only answerParts s t
        ∧ (c.reserved = 0 → ¬(c.urgent = true ∧ c.tn.isSome = true) → Answered op c true .unknownOpcode 0 s.tn [] t)
        ∧ (c.reserved ≠ 0 ∨ (c.urgent = true ∧ c.tn.isSome = true) → Answered op c true .flagsInvalid 0 s.tn [] t)))
    ∧ (∀ (op : Fin 4096) (sp : OpSpec) (rb : ReadBack), allSpecs.find? (fun x => x.code + 128 == op.val) = some sp →
      sp.read = some rb → Ready (readSpec sp rb) c s = true →
      Reports op c (rb.get c (s.atParse op c)) s (exec (.readCounterpart op c) s))

/-- R412. That no item is part-read where none is there is a premise: no run reaches the other case. -/
def Obligations.EmptyWindowsReadNotValid : Prop :=
  ∀ (n : Nat) (last : Bool) (s : State), s.ioHeld = false → s.proto.spiDead = false →
    (vget s.proto.resp 4 [] = [] → s.proto.spiRespRead = 0 →
      exec (.spiResponseWindowRead n last) s = .next { s with spiReply := (List.replicate (n / 8 + 1) notValid).flatten.take n })
    ∧ (s.proto.eventQueue = [] ∨ (s.qreg 8).enable = true → s.proto.spiEventRead = 0 →
      exec (.spiEventWindowRead n last) s = .next { s with spiReply := (List.replicate (n / 8 + 1) notValid).flatten.take n })
    ∧ (n = 8 → (List.replicate (n / 8 + 1) notValid).flatten.take n = notValid)

/-- R462, for a head that wraps once; the snapshot is that of R466. -/
def Obligations.ChainCarry : Prop :=
  ∀ (s : State) (h n tn : Nat), cellsWf 0 s.ctr.slots = true → s.ctr.heads.contains h = true → h + 1 < bwBase →
    s.ctr.heads.contains (h + 1) = false → s.ctr.upper h = false → s.ctr.carries = [] →
    cellGet s.ctr.slots h 0 < 2 ^ 40 → cellGet s.ctr.slots (h + 1) 0 < 2 ^ 40 →
    n = ((s.ctr.happened.filter (fun x => x.1 == h)).map Prod.snd).sum → 2 ^ 40 ≤ cellGet s.ctr.slots h 0 + n → n < 2 ^ 40 →
    cellGet s.ctr.accumulate.slots h 0 = cellGet s.ctr.slots h 0 + n - 2 ^ 40
    ∧ cellGet s.ctr.accumulate.slots (h + 1) 0 = cellGet s.ctr.slots (h + 1) 0
    ∧ s.ctr.accumulate.live h = cellGet s.ctr.accumulate.slots h 0
        + 2 ^ 40 * ((cellGet s.ctr.slots (h + 1) 0 + 1) % 2 ^ 40)
    ∧ cellGet (s.ctr.accumulate.snapshot tn).slots h 0 = cellGet s.ctr.accumulate.slots h 0 + 2 ^ 40 * cellGet s.ctr.slots (h + 1) 0
    ∧ (∀ l, cellGet ({ s.ctr.accumulate with happened := l } : Counters).accumulate.slots (h + 1) 0
        = (cellGet s.ctr.slots (h + 1) 0 + 1) % 2 ^ 40)
    ∧ (∀ c : Cmd, Ready specCtrRead c { s with ctr := s.ctr.accumulate } = true → cw c 1 = h →
      Reports 0x800 c (w1 (valueWordAt (s.ctr.accumulate.live h) 2) ++ w1 (valueWordAt (s.ctr.accumulate.live h) 1)
        ++ w1 (valueWordAt (s.ctr.accumulate.live h) 0)) { s with ctr := s.ctr.accumulate }
        (exec (.ctrRead c) { s with ctr := s.ctr.accumulate }))

/-- Reset values that the spec gives (values the model chose are in its assumption log, none is here). -/
def Obligations.ResetState : Prop :=
  State.reset.tnProvisional = true
  ∧ (∀ e : Fin 48, (State.reset.eng e).kTx = 0 ∧ (State.reset.eng e).kRx = 0 ∧ (State.reset.eng e).acq.state = .disabled
      ∧ (State.reset.keys e).slots = Vector.replicate 4 none ∧ (State.reset.eng e).iso = none)
  ∧ (∀ n : Fin 64, (State.reset.chain n).active = 16384 :: List.replicate 63 0 ∧ (State.reset.chain n).shadow = none)
  ∧ State.reset.ctr.filters = [] ∧ (∀ p, (State.reset.bwOf p).window = 625000)
  ∧ State.reset.proto.masked = [] ∧ State.reset.proto.armed = [] ∧ State.reset.proto.jobs = [] ∧ State.reset.proto.held = []
  ∧ State.reset.ports = [] ∧ State.reset.tlmq.wm.level = 768 ∧ State.reset.kennel.settings.ivGen = 1 ∧ State.reset.pending = []

/-- The transmit settings of Tables 4.1 to 4.7: each is armed when accepted (R424, R44), and at its boundary writes its fields of its
engine, or the spectral map. -/
def Obligations.TransmitSettingsArmAndTakeEffect : Prop :=
  ∀ (c : Cmd) (s : State),
    (Ready specEngineSynthSet c s = true → Arms 0x105 0x105 c s (exec (.engineSynthSet c) s))
    ∧ (Ready specEngineTxcorrSet c s = true → Arms 0x106 0x106 c s (exec (.engineTxcorrSet c) s))
    ∧ (Ready specEnginePreemphSwap c s = true → Arms 0x108 0x108 c s (exec (.enginePreemphSwap c) s))
    ∧ (Ready specEngineNlcSet c s = true → Arms 0x10A 0x10A c s (exec (.engineNlcSet c) s))
    ∧ (Ready specEngineNlcCoefSwap c s = true → Arms 0x10C 0x10C c s (exec (.engineNlcCoefSwap c) s))
    ∧ (Ready specSpectralMapSet c s = true → Arms 0x109 0x109 c s (exec (.spectralMapSet c) s))
    ∧ (Ready specEngineMuzzle c s = true → Arms 0x10D 0x10D c s (exec (.engineMuzzle c) s))
    ∧ (Ready specEngineUnmuzzle c s = true → Arms 0x10D 0x10E c s (exec (.engineUnmuzzle c) s))
    ∧ (Ready specEngineMuzzleCfgSet c s = true → Arms 0x110 0x110 c s (exec (.engineMuzzleCfgSet c) s))
    ∧ (cIdx c < 48 →
      EngineChange 0x105 c (fun g => { g with tx := { g.tx with
        rollOff := cw c 1, scPower := octetsOf2 c 2, xyBalance := cz c 4, dacBackoff := cz c 5 } }) s
      ∧ EngineChange 0x106 c (fun g => { g with tx := { g.tx with
        txSkew := [cHi c 1, cLo c 1, cHi c 2, cLo c 2], iqGain := [cHi c 3, cLo c 3], iqPhase := [cHi c 4, cLo c 4]
        dcOffset := [cHi c 5, cLo c 5, cHi c 6, cLo c 6] } }) s
      ∧ EngineChange 0x108 c (fun g => { g with tx := { g.tx with preActive := g.tx.preShadow, preShadow := g.tx.preActive } }) s
      ∧ EngineChange 0x10A c (fun g => { g with tx := { g.tx with nlcMode := cw c 1, nlcGain := cw c 2 } }) s
      ∧ EngineChange 0x10C c (fun g => { g with tx := { g.tx with
        nlcActive := g.tx.nlcShadow, nlcShadow := g.tx.nlcActive, nlcWindow := g.tx.nlcWindowNext
        nlcWindowNext := g.tx.nlcWindow } }) s
      ∧ EngineChange 0x10D c (fun g => { g with tx := { g.tx with reason := { g.tx.reason with mgmt := true } } }) s
      ∧ EngineChange 0x10E c (fun g => { g with tx := { g.tx with reason := { g.tx.reason with mgmt := false } } }) s
      ∧ EngineChange 0x110 c (fun g => { g with tx := { g.tx with rampNext := some (cw c 1), untilHeel := cw c 2 == 1 } }) s)
    ∧ TakesEffect 0x109 c [.map, .mapCentre] (fun t => ∀ n : Fin 48, t.map[n] = mapEntry c n ∧ t.mapCentre[n] = mapCentreOf c n) s

/-- The transmit commands that act at once (R127, R135, R143). -/
def Obligations.TransmitCommandsActAtOnce : Prop :=
  ∀ (c : Cmd) (s : State),
    (Ready specEnginePreemphLoad c s = true →
      SetsEngine 0x107 c (fun g => { g with tx := { g.tx with preShadow := preTaps c } }) s (exec (.enginePreemphLoad c) s))
    ∧ (Ready specEngineMuzzleClear c s = true →
      SetsEngine 0x10F c (fun g => { g with tx := { g.tx with reason := { g.tx.reason with
        power := g.tx.reason.power && !bit (cw c 1) 6, feFault := g.tx.reason.feFault && !bit (cw c 1) 5 } } }) s
        (exec (.engineMuzzleClear c) s))
    ∧ (Ready specEngineNbrStatus c s = true →
      Reports 0x11B c
        (w1 (nbrField (s.eng (cIdx c)).tx.nbrTx * 65536 + nbrField (s.eng (cIdx c)).tx.nbrRx)
          ++ w1 ((neighbour s.map (cIdx c) 3).getD 0xFF * 2 ^ 24 + (neighbour s.map (cIdx c) 2).getD 0xFF * 2 ^ 16
            + (neighbour s.map (cIdx c) 1).getD 0xFF * 256 + (neighbour s.map (cIdx c) 0).getD 0xFF)) s
        (exec (.engineNbrStatus c) s))

/-- MUZZLE_RAMP_END: the two ends of a ramp (R144, Table 4.8), and the statuses that follow it (R136). -/
def Obligations.MuzzleRampEndEndsTheRamp : Prop :=
  ∀ (e : Fin 48) (s : State),
    let ends := fun (a b : Muzzle) (amp : Rat) => Happens (.engines :: eventParts) (fun t =>
      (t.eng e).tx.muzzle = b ∧ (t.eng e).tx.amp = amp ∧ (t.eng e).tx.reason = (s.eng e).tx.reason
      ∧ Raised .muzzleChange .engine e (w1 a.code ++ w1 b.code ++ w1 (s.eng e).tx.reason.code ++ w2 s.tn) s.tn t
      ∧ (∀ j : Fin 48, ∀ p, p < 4 →
          ((s.eng j).tx.nbrTx.length = 4 → (t.eng j).tx.nbrTx.getD p 1 = nbrStatus t j p false)
          ∧ ((s.eng j).tx.nbrRx.length = 4 → (t.eng j).tx.nbrRx.getD p 1 = nbrStatus t j p true))
      ∧ (∀ j, j ≠ e.val → t.eng j = { s.eng j with
          tx := { (s.eng j).tx with nbrTx := (t.eng j).tx.nbrTx, nbrRx := (t.eng j).tx.nbrRx } })) s (exec (.muzzleRampEnd e) s)
    ((s.eng e).tx.muzzle = .rampUp → (s.eng e).tx.amp = 1 → ends .rampUp .unmuzzled 1)
    ∧ ((s.eng e).tx.muzzle = .rampDown → (s.eng e).tx.amp = 0 → ends .rampDown .muzzled 0)
    ∧ (((s.eng e).tx.muzzle = .rampUp → (s.eng e).tx.amp ≠ 1) → ((s.eng e).tx.muzzle = .rampDown → (s.eng e).tx.amp ≠ 0) →
      exec (.muzzleRampEnd e) s = .next s)

/-- The commands of Receive Acquisition (R153, R156, R157, R169, Table 5.4). -/
def Obligations.AcquisitionCommands : Prop :=
  ∀ (c : Cmd) (s : State),
    (Ready specEngineAcqSet c s = true → ArmsAnd 0x111 0x111 c [.engines] (fun t =>
        t.eng (cIdx c) = { s.eng (cIdx c) with acq := { (s.eng (cIdx c)).acq with layoutsNext := some (acqLayoutsOf (cw c 2)) } }
        ∧ OtherEngines (cIdx c) s t) s (exec (.engineAcqSet c) s))
    ∧ (cIdx c < 48 → EngineChange 0x111 c (fun g => { g with acq := { g.acq with
        syncTol := cw c 1, minPower := cz c 3 } }) s)
    ∧ (Ready specEngineLeashSet c s = true →
      SetsEngine 0x114 c (fun g => { g with acq := { g.acq with
        leashNext := some { enable := cw c 1 == 1, gain := cw c 2, stepMax := cw c 3 } } }) s (exec (.engineLeashSet c) s))
    ∧ (Ready specEngineAcqStatus c s = true →
      Reports 0x113 c (acqWords (s.eng (cIdx c)).acq) s (exec (.engineAcqStatus c) s))
    ∧ (Ready specEngineAcqRestart c s = true → (s.eng (cIdx c)).acq.state ≠ .disabled → (s.eng (cIdx c)).acq.state ≠ .noSignal →
      Does 0x112 c [] (.engines :: .armed :: .jobs :: eventParts) (fun t => (t.eng (cIdx c)).acq.state = .search
        ∧ (t.eng (cIdx c)).acq.lof = true ∧ OtherEngines (cIdx c) s t) s (exec (.engineAcqRestart c) s))

/-- The transitions of the alignment state (Table 5.4): each on its own engine. -/
def Obligations.AlignmentTransitions : Prop :=
  ∀ (e : Fin 48) (s : State),
    let a := (s.eng e).acq
    let quiet : List Part := [.armed, .jobs, .queueRegs, .responses, .msix, .alertN]
    let loaded := fun (cd : Int) (t : State) =>
      (t.eng e).eq.cdActive = { d := scanClip (s.eng e).eq.scanCentre (s.eng e).eq.scanSpan cd, centreN := s.slotCentre e }
      ∧ (t.eng e).eq.cdShadow = none
    let displaces := fun (x : Contender) =>
      (s.eng e).goodSync x.meas = true ∧ x.first = true ∧ a.held.syncPower + 30 ≤ x.meas.syncPower
    (∀ powers : List Int, powers.length = 16 → (∀ p ∈ powers, a.minPower ≤ p) → a.state = .noSignal →
      AtEngine e quiet (fun t => (t.eng e).acq.state = .search ∧ (t.eng e).losIn = false) s (exec (.powerQualification e powers) s))
    ∧ (∀ powers : List Int, powers.length = 16 → (∀ p ∈ powers, p < a.minPower) → a.state = .search ∨ a.state = .confirm →
      AtEngine e quiet (fun t => (t.eng e).acq.state = .noSignal ∧ (t.eng e).losIn = true) s (exec (.powerQualification e powers) s))
    ∧ (∀ (found : List SyncMeas) (cd : Int), a.state = .search →
      (∀ m : SyncMeas, (s.eng e).bestCandidate found = some m →
        AtEngine e [.happened] (fun t => (t.eng e).acq.state = .confirm ∧ (t.eng e).acq.record = SyncMeas.latch (s.eng e).zr m s.tn
          ∧ (t.eng e).acq.held = SyncMeas.latch (s.eng e).zr m s.tn ∧ (t.eng e).acq.coarseFo = m.coarseFo
          ∧ (t.eng e).acq.position = m.position ∧ loaded cd t ∧ Counted .syncCandidates .engine e 1 t) s
          (exec (.searchSyncFound e found cd) s))
      ∧ ((s.eng e).bestCandidate found = none → exec (.searchSyncFound e found cd) s = .next s))
    ∧ (∀ cd : Int, a.state = .search →
      AtEngine e (.happened :: quiet) (fun t => (t.eng e).acq.state = .search ∧ loaded cd t ∧ Counted .searchPasses .engine e 1 t) s
        (exec (.searchPassEnd { engine := e, cd := cd }) s))
    ∧ (a.state = .search ∨ a.state = .confirm → a.noSyncRaised = false → a.searchStart + 625000 ≤ s.ticks →
      AtEngine e eventParts (fun t => t.eng e = { s.eng e with acq := { a with noSyncRaised := true } }
        ∧ Raised .acqNoSync .engine e (wi a.record.rxPower) s.tn t) s (exec (.acqNoSync e) s))
    ∧ (∀ (d : List (BitVec 128)) (x : Option Contender) (phase : List (Nat × Int)),
      let good := (s.eng e).checkErrs d ≤ effTol (s.eng e).zr a.syncTol a.held.layout
      let held := (s.eng e).checkErrs d ≤ effTol (s.eng e).zr a.syncTol (s.eng e).rxLayout
      let check := exec (.rxSyncCheck e { decided := d, phase := phase } x) s
      (∀ y, a.state = .confirm → x = some y → displaces y →
        AtEngine e [.happened] (fun t => (t.eng e).acq.state = .confirm ∧ (t.eng e).acq.held = SyncMeas.latch (s.eng e).zr y.meas s.tn
          ∧ (t.eng e).acq.position = y.meas.position ∧ Counted .contestReplaced .engine e 1 t) s check)
      ∧ (a.state = .confirm → (∀ y, x = some y → ¬ displaces y) → good →
        AtEngine e (.packs :: eventParts) (fun t => (t.eng e).acq.state = .inFrame ∧ (t.eng e).acq.lof = false
          ∧ Raised .acqDone .engine e (acqWords { a with
              state := .inFrame, lof := false, coarseFo := a.held.coarseFo, contestSeen := false, contestPower := none
              record := a.held }) s.tn t) s check)
      ∧ (a.state = .confirm → (∀ y, x = some y → ¬ displaces y) → ¬ good →
        AtEngine e [.happened] (fun t => (t.eng e).acq.state = .search ∧ (t.eng e).acq.searchFrom = a.position + 1
          ∧ Counted .pseudoSync .engine e 1 t) s check)
      ∧ (a.state = .inFrame → held →
        AtEngine e eventParts (fun t => (t.eng e).acq.state = .inFrame ∧ (t.eng e).acq.missRun = 0
          ∧ (t.eng e).acq.position = a.position + (s.eng e).spacing) s check)
      ∧ (a.state = .inFrame → ¬ held → a.missRun < 3 →
        AtEngine e eventParts (fun t => (t.eng e).acq.state = .inFrame ∧ (t.eng e).acq.missRun = a.missRun + 1
          ∧ Counted .syncMissed .engine e 1 t) s check)
      ∧ (a.state = .inFrame → ¬ held → 3 ≤ a.missRun →
        AtEngine e eventParts (fun t => (t.eng e).acq.state = .oof ∧ (t.eng e).acq.oofEntry = s.ticks
          ∧ Counted .syncMissed .engine e 1 t
          ∧ Raised .oofEnter .engine e (w2 s.tn ++ w2 ((s.counted .syncMissed .engine e + 1) % 2 ^ 40)) s.tn t) s check)
      ∧ (a.state = .oof → held → 1 ≤ a.goodRun →
        AtEngine e (.packs :: eventParts) (fun t => (t.eng e).acq.state = .inFrame
          ∧ Raised .oofExit .engine e (w2 s.tn ++ w1 (s.ticks - a.oofEntry)) s.tn t) s check))
    ∧ (a.state = .oof → a.oofEntry + 1250 ≤ s.ticks →
      AtEngine e (.jobs :: .armed :: .responses :: eventParts) (fun t => (t.eng e).acq.state = .search ∧ (t.eng e).acq.lof = true) s
        (exec (.oofTimerExpiry e) s))

/-- The re-centring step and the Leash write (R167, R168, R170). -/
def Obligations.FrequencyTracking : Prop :=
  ∀ (e : Fin 48) (s : State),
    (∀ r : Int, (s.eng e).acq.recentre = some r → (s.eng e).acq.state = .inFrame →
      -6000 ≤ (s.eng e).acq.coarseFo + 10 * roundDiv r 100 → (s.eng e).acq.coarseFo + 10 * roundDiv r 100 ≤ 6000 →
      AtEngine e eventParts (fun t =>
        t.eng e = { s.eng e with acq := { (s.eng e).acq with
          recentre := none, coarseFo := (s.eng e).acq.coarseFo + 10 * roundDiv r 100
          residual := (s.eng e).acq.residual - 10 * (10 * roundDiv r 100), lastStep := some s.ticks } }
        ∧ Raised .freqRecentre .engine e (wi (10 * (10 * roundDiv r 100)) ++ w1 (b2n (s.eng e).acq.leash.enable)
            ++ wi ((s.eng e).acq.coarseFo + 10 * roundDiv r 100) ++ w2 s.tn) s.tn t
        ∧ Counted .freqRecentres .engine e 1 t) s (exec (.freqRecentre e) s))
    ∧ (∀ r : Int, (s.eng e).acq.recentre = some r → (s.eng e).acq.state = .inFrame →
      (s.eng e).acq.coarseFo + 10 * roundDiv r 100 < -6000 ∨ 6000 < (s.eng e).acq.coarseFo + 10 * roundDiv r 100 →
      AtEngine e eventParts (fun t => (t.eng e).acq.coarseFo = (s.eng e).acq.coarseFo ∧ (t.eng e).acq.recentre = none
        ∧ ((s.eng e).acq.limitRaised = false →
          Raised .freqLimit .engine e (wi (s.eng e).acq.coarseFo ++ wi (s.eng e).acq.residual) s.tn t)) s (exec (.freqRecentre e) s))
    ∧ (∀ (p : FeProfile) (ft : FineTune), s.tn % 64 = 0 → (s.eng e).acq.leash.enable = true → (s.eng e).inFrame = true →
      s.fenced e = false → (s.eng e).acq.offsetsBefore s.ticks ≠ [] → (s.eng e).acq.lastWrite ≠ some s.ticks → (s.eng e).fe.profile = some p → p.fineTune = some ft →
      AtEngine e (.life :: eventParts) (fun t => (t.eng e).acq.lastWrite = some s.ticks
        ∧ -((2 ^ (ft.width - 1) : Nat) : Int) ≤ (t.eng e).acq.leashWritten
        ∧ (t.eng e).acq.leashWritten ≤ ((2 ^ (ft.width - 1) : Nat) : Int) - 1) s (exec (.leashWriteInstant e) s))

/-- The calendar commands and the shadow scrub (R234 to R243). -/
def Obligations.CalendarCommands : Prop :=
  ∀ (c : Cmd) (s : State),
    (Ready specCalLoad c s = true → BeginsDma 0x200 c none s (exec (.calLoad c) s))
    ∧ (Ready specCalRead c s = true →
      BeginsDma 0x201 c (some (((List.range (cw c 3)).map (fun i =>
        octetsLE 8 (cellGet (if cSub c = 0 then s.cal.active else s.cal.shadow) (cw c 2 + i) 0))).flatten)) s (exec (.calRead c) s))
    ∧ (Ready specCalSwap c s = true → Arms 0x202 0x202 c s (exec (.calSwap c) s))
    ∧ TakesEffect 0x202 c (.cal :: .engines :: .packs :: eventParts) (fun t =>
        t.cal.active = s.cal.shadow ∧ t.cal.shadow = s.cal.active ∧ t.cal.activeParity = s.cal.shadowParity
        ∧ t.cal.shadowParity = s.cal.activeParity ∧ t.cal.frozen = [] ∧ t.cal.bad = []
        ∧ (cw c 2 ≠ 0 → { swapTn := s.tn, first := s.tn, last := s.tn + cw c 2, slots := s.changedSlots } ∈ t.cal.guards)
        ∧ Raised .calSwapDone .device 0 (w2 s.tn ++ w1 s.changedSlots.length) s.tn t
        ∧ (∀ e, ∃ st, t.eng e = { s.eng e with store := st }) ∧ ∀ p, ∃ st, t.pack p = { s.pack p with store := st }) s
    ∧ (Ready specCalStatus c s = true →
      Reports 0x203 c (w2 ((s.swapPending.map (·.due)).getD 0)
        ++ w1 s.calendarTotal
        ++ w1 s.cal.bad.length ++ w1 s.cal.frozen.length) s (exec (.calStatus c) s))
    ∧ (∀ read : List (Fin 122880 × Nat),
      Happens (.cal :: eventParts) (fun t => t.cal = { s.cal with bad := t.cal.bad }
        ∧ (∀ i : Nat, i ∈ t.cal.bad ↔ i ∈ s.cal.bad ∨ ∃ f ∈ read, parityBad f.2 = true ∧ f.1.val = i)
        ∧ ∀ f, read = [f] → parityBad f.2 = true → f.1.val ∉ s.cal.bad →
          Raised .calParity .device 0 (w1 1 ++ w1 f.1.val ++ w2 (field f.2 0 48) ++ w1 2) s.tn t) s (exec (.shadowScrubPass read) s))

/-- The Pack commands and STORE_SET (R247, R251 to R254). -/
def Obligations.PackCommands : Prop :=
  ∀ (c : Cmd) (s : State),
    (Ready specPackSet c s = true → Does 0x210 c [] [.packs] (PackIs (cIdx c) (fun k => { k with
        members := memberList c, gen := (k.gen + 1) % 256, pool := [], released := [], judged := [], late := [], skews := List.replicate 8 0
        largest := List.replicate 8 0, running := List.replicate 8 0, skewPresent := false, goodRun := 0
        mismatchPresent := false, failRuns := List.replicate 8 0, passRuns := List.replicate 8 0 }) s) s (exec (.packSet c) s))
    ∧ (Ready specPackDelete c s = true → Does 0x211 c [] (.packs :: eventParts) (fun t => PackIs (cIdx c) (fun k => { k with
          reported := [], psf := none, psfFault := false, members := [], pool := [], released := [], judged := [], late := []
          skewPresent := false, goodRun := 0, mismatchPresent := false }) s t
        ∧ ∀ d ∈ (s.pack (cIdx c)).reported, Raised .defectChange .pack (cIdx c) (w1 (packOrd d) ++ w1 0 ++ w2 s.tn) s.tn t) s
        (exec (.packDelete c) s))
    ∧ (Ready specPackStatus c s = true → Reports 0x214 c
        ([Config.packGenWord (s.pack (cIdx c)).gen (s.pack (cIdx c)).members.length]
          ++ w1 (if (s.pack (cIdx c)).members.isEmpty then 0 else s.packSlotsNow (cIdx c))
          ++ [Config.packNibbles (s.pack (cIdx c)).skews, Config.packNibbles (s.pack (cIdx c)).largest]
          ++ w1 (b2n (s.pack (cIdx c)).skewPresent + 2 * b2n (s.pack (cIdx c)).mismatchPresent) ++ w1 (s.pagesOf (cIdx c)))
        s (exec (.packStatus c) s))
    ∧ (Ready specPackSkewSet c s = true → Arms 0x213 0x213 c s (exec (.packSkewSet c) s))
    ∧ (cIdx c < 24 → TakesEffect 0x213 c [.packs] (PackIs (cIdx c) (fun k => { k with skewMax := cw c 1 }) s) s)
    ∧ (Ready specStoreSet c s = true → Arms 0x215 0x215 c s (exec (.storeSet c) s))
    ∧ (cKind c = 1 → cIdx c < 48 →
      EngineChange 0x215 c (fun g => { g with store := { g.store with target := cw c 1 } }) s)
    ∧ (cKind c = 5 → cIdx c < 24 → TakesEffect 0x215 c [.packs]
        (PackIs (cIdx c) (fun k => { k with store := { k.store with target := cw c 1 } }) s) s)
    ∧ (Ready specPackCapacitySet c s = true → (s.pack (cIdx c)).members ≠ [] →
      Begins 0x212 c (.packs :: .engines :: .armed :: eventParts) (fun t =>
        PackIs (cIdx c) (fun k => { k with capPending := some (cw c 1, k.members) }) s t
        ∧ (∀ e ∈ (s.pack (cIdx c)).members, e < 48 → ∃ x, (t.eng e).cap = some x ∧ x.kNew = cw c 1)
        ∧ ∀ e, e ∉ (s.pack (cIdx c)).members → t.eng e = s.eng e) s (exec (.packCapacitySet c) s))

/-- The capture commands (R467 to R469). -/
def Obligations.CaptureCommands : Prop :=
  ∀ (c : Cmd) (s : State),
    (Ready specCapSet c s = true → Does 0x700 c [] [.tiles] (TileIs (cIdx c) (fun x => { x with capture := { x.capture with
        source := cw c 1, sub := cSub c, length := cw c 2, trigger := cw c 3 } }) s) s (exec (.capSet c) s))
    ∧ (Ready specCapArm c s = true → Completes (exec (.capArm c) s) (fun t =>
        Pending 0x701 0x701 (c.tn.getD (s.tn + 1)) c t
        ∧ (t.tile (cIdx c)).capture.state = .armed ∧ (t.tile (cIdx c)).capture.start = none
        ∧ (t.tile (cIdx c)).capture.filled = 0 ∧ (∀ q, q ≠ cIdx c → t.tile q = s.tile q)
        ∧ ((s.tile (cIdx c)).capture.state = .done → Raised .capWithdrawn .lineTile (cIdx c) (w1 0) s.tn t)
        ∧ Answered 0x701 c c.tn.isNone .ok 0 s.tn [] t
        ∧ Only (.tiles :: .dma :: .armed :: (eventParts ++ answerParts)) s t))
    ∧ (cIdx c < 12 → TakesEffect 0x701 c [.triggers] (TileIs (cIdx c) (fun x =>
        if x.capture.state = .armed ∧ field x.capture.trigger 28 4 = 0
        then { x with capture := { x.capture with start := some s.tn } } else x) s) s)
    ∧ (Ready specCapWithdraw c s = true → Does 0x702 c [] (.tiles :: .dma :: .armed :: eventParts) (fun t =>
        TileIs (cIdx c) (fun x => { x with capture := { x.capture with state := .idle, start := none, taken := [], filled := 0, mem := [] } }) s t
        ∧ (∀ n, (s.dc n).devSel = true → (s.dc n).tile = cIdx c →
          ((s.dc n).state = .waiting → (t.dc n).state = .ended ∧ (t.dc n).ended = .sourceWithdrawn)
          ∧ ((s.dc n).state = .running → (t.dc n).state = .running ∧ (t.dc n).withdrawn = true))
        ∧ (∀ n, (s.dc n).state ≠ .waiting → (s.dc n).state ≠ .running → t.dc n = s.dc n)
        ∧ (∀ a ∈ t.proto.armed, ¬(a.opcode = 0x701 ∧ cIdx a.cmd = cIdx c))
        ∧ Raised .capWithdrawn .lineTile (cIdx c) (w1 0) s.tn t) s (exec (.capWithdraw c) s))
    ∧ (Ready specCapStatus c s = true → Reports 0x703 c
        (w1 (s.tile (cIdx c)).capture.state.code ++ w2 (s.tile (cIdx c)).capture.trigTn) s (exec (.capStatus c) s))

/-- The two happenings of a capture unit (R468, R469). -/
def Obligations.CaptureHappenings : Prop :=
  ∀ (k : Fin 12) (n : Nat) (s : State),
    ((s.tile k).capture.state = .armed → (s.tile k).capture.start = some n → n ≤ s.tn →
      ((s.tile k).capture.needsFrame = false ∨ (s.eng ((s.tile k).capture.engine k)).inFrame = true →
        Happens [.tiles, .triggers, .dma] (fun t => TileIs k (fun x => { x with capture := { x.capture with
            state := .filling, start := none, trigTn := n, begun := s.ticks - (s.tn - n), taken := [], filled := 0, mem := [] } }) s t
          ∧ ∀ q, t.dc q = (if (s.dc q).devSel = true ∧ (s.dc q).tile = k ∧ (s.dc q).state = .waiting
            then { s.dc q with state := .running } else s.dc q)) s (exec (.captureTrigger k) s))
      ∧ ((s.tile k).capture.needsFrame = true → (s.eng ((s.tile k).capture.engine k)).inFrame = false →
        Happens (.tiles :: .dma :: eventParts) (fun t => TileIs k (fun x => { x with capture := { x.capture with
            state := .idle, start := none, taken := [], filled := 0, mem := [] } }) s t
          ∧ Raised .capWithdrawn .lineTile k (w1 2) s.tn t) s (exec (.captureTrigger k) s)))
    ∧ (∀ data : List Octet, (s.tile k).capture.state = .filling → s.captureUnframed k = false →
      (s.tile k).capture.begun + (s.tile k).capture.ticksNeeded (s.eng ((s.tile k).capture.engine k)).rxLayout ≤ s.ticks + 1 →
      Happens (.tiles :: eventParts) (fun t => TileIs k (fun x => { x with capture := { x.capture with
          state := .done, taken := [], filled := x.capture.extent, mem := x.capture.placed data } }) s t
        ∧ Raised .capDone .lineTile k [] s.tn t) s (exec (.captureFillDone k data) s))

/-- The DMA channels (R471 to R473, R426). -/
def Obligations.DmaChannels : Prop :=
  ∀ (n : Fin 16) (s : State),
    (s.mapOpen = true → (s.dc n).devSel = true → (s.dc n).state ≠ .waiting → (s.dc n).state ≠ .running → ¬(n = 0 ∧ s.dev.bootGo = true) →
      Happens [.dma, .happened, .msix] (fun t => (∀ q, q ≠ n.val → t.dc q = s.dc q)
        ∧ ((s.dc n).captureOk = true → t.dc n = { s.dc n with
            linesDone := 0, bytesDone := 0, ended := .none, bad := false, abort := false, withdrawn := false, staged := [], out := [], placed := []
            state := if (s.tile (s.dc n).tile).capture.state = .filling ∨ (s.tile (s.dc n).tile).capture.state = .done
              then .running else .waiting })
        ∧ ((s.dc n).captureOk = false → (t.dc n).state = .ended ∧ (t.dc n).ended = .descInvalid ∧ (t.dc n).record ≠ none)) s
        (exec (.dmaGo n) s))
    ∧ (s.mapOpen = false → exec (.dmaGo n) s = .next s ∧ exec (.dmaAbort n) s = .next s)
    ∧ (s.mapOpen = true → (s.dc n).state = .waiting →
      Happens [.dma, .happened, .jobs, .responses, .msix, .queueRegs, .alertN, .sec] (fun t => (∀ q, q ≠ n.val → t.dc q = s.dc q)
        ∧ (t.dc n).state = .ended ∧ (t.dc n).ended = .aborted
        ∧ ((∀ j ∈ s.proto.jobs, j.chan = some n.val → j.ticket.opcode ≠ 0xB00) → t.sec = s.sec)) s (exec (.dmaAbort n) s))
    ∧ (s.mapOpen = true → (s.dc n).state = .running → (s.dc n).devSel = true ∨ (s.dc n).staged.length ≠ (s.dc n).lineLen * (s.dc n).lineCount →
      Happens [.dma] (ChannelIs n (fun d => { d with abort := true }) s) s (exec (.dmaAbort n) s))
    ∧ (∀ (good : Bool) (data : List Octet), (s.dc n).state = .running → (s.dc n).devSel = false →
      Happens [.dma] (ChannelIs n (fun d => { d with
        staged := d.staged ++ (if good then data else []), bad := d.bad || !good, bytesDone := d.bytesDone + data.length
        linesDone := if d.lineLen = 0 then 0 else (d.bytesDone + data.length) / d.lineLen }) s) s
        (exec (.dmaReadCompletion n good data) s))
    ∧ (∀ (err : Bool) (moved : Nat) (e : DmaEnd), (s.dc n).state = .running → ¬(n = 0 ∧ s.dev.bootGo = true) →
      (s.hostToDevice n = true → (s.dc n).loadEnd err = some e →
        Completes (exec (.dmaChannelEnd n err moved) s) (fun t =>
          (t.dc n).state = .ended ∧ (t.dc n).ended = e ∧ (t.dc n).staged = [] ∧ (∀ q, q ≠ n.val → t.dc q = s.dc q)
          ∧ (t.dc n).record = some (completionRecord n (s.dc n) e (e.isPartial true) s.tn)
          ∧ (∀ j ∈ t.proto.jobs, j.chan ≠ some n.val)
          ∧ (∀ j, e = .done → s.proto.jobs.find? (fun j => j.chan == some n.val) = some j →
            (j.ticket.opcode = 0x200 → ∀ u, s.calCommit (cw j.cmd 2) (s.dc n).staged = .ok u → t.cal = u.cal)
            ∧ (j.ticket.opcode = 0x10B → cIdx j.cmd < 48 → (t.eng (cIdx j.cmd)).tx = { (s.eng (cIdx j.cmd)).tx with
                nlcShadow := (wordsLE (s.dc n).staged).map (BitVec.ofNat 32), nlcWindowNext := 8 * cw j.cmd 2 })
            ∧ (j.ticket.opcode = 0x610 → cIdx j.cmd < 48 → ∀ p, parseProfile (wordsLE (s.dc n).staged) = .ok p →
                (t.eng (cIdx j.cmd)).fe.profile = some p))
          ∧ (e ≠ .done → t.cal = s.cal ∧ t.engines = s.engines
            ∧ ((∀ j ∈ s.proto.jobs, j.chan = some n.val → j.ticket.opcode ≠ 0xB00) → t.sec = s.sec))
          ∧ t.tn = s.tn ∧ t.ports = s.ports ∧ t.packs = s.packs ∧ t.time = s.time ∧ t.map = s.map))
      ∧ (∀ u, u = s.dumpRest n → s.hostToDevice n = false → u.sendEnd (u.dc n) err moved = some e →
        Completes (exec (.dmaChannelEnd n err moved) s) (fun t =>
          (t.dc n).state = .ended ∧ (t.dc n).ended = e ∧ (∀ q, q ≠ n.val → t.dc q = s.dc q)
          ∧ (t.dc n).bytesDone = u.movedAt (u.dc n) e moved
          ∧ (e = .done → (t.dc n).bytesDone = (s.dc n).lineLen * (s.dc n).lineCount)
          ∧ (e ≠ .doneWithError → ∀ k, k < (t.dc n).bytesDone → k < (u.sends (u.dc n)).length → ∃ x,
              (u.sends (u.dc n))[k]? = some x ∧ ∀ y ∈ (s.dc n).hostWrite k x, y ∈ (t.dc n).placed)
          ∧ (∀ j ∈ t.proto.jobs, j.chan ≠ some n.val)
          ∧ t.tn = s.tn ∧ t.ports = s.ports ∧ t.packs = s.packs ∧ t.time = s.time ∧ t.map = s.map)))

/-- The front-end control bus (R443 to R447). -/
def Obligations.FrontEndBus : Prop :=
  (∀ (c : Cmd) (s : State),
    (Ready specFeProfileLoad c s = true → BeginsDma 0x610 c none s (exec (.feProfileLoad c) s))
    ∧ (Ready specFeBusAccess c s = true → ∀ p, (s.eng (cIdx c)).fe.profile = some p →
      Begins 0x611 c [.engines] (fun t => (∃ x : FeTxn, x.write = (cw c 1 == 1) ∧ x.addr = cw c 2 ∧ x.value = cw c 3
          ∧ x.width = accessWidth p (cw c 2)
          ∧ t.eng (cIdx c) = { s.eng (cIdx c) with fe := { (s.eng (cIdx c)).fe with queue := (s.eng (cIdx c)).fe.queue ++ [x] } })
        ∧ OtherEngines (cIdx c) s t) s (exec (.feBusAccess c) s)))
  ∧ ∀ (e : Fin 48) (s : State),
    (∀ (data : Nat) (x : FeTxn) (rest : List FeTxn), (s.eng e).fe.queue = x :: rest → feHwDue s e = false → s.fenced e = false →
      AtEngine e (.freeCtr :: .jobs :: .responses :: eventParts) (fun t => (t.eng e).fe.queue = rest
        ∧ (if x.write then x else { x with value := data % 2 ^ x.width }) ∈ (t.eng e).fe.served ∧ (t.eng e).fe.servedAt = s.ticks
        ∧ (x.write = false → ∀ j ∈ s.proto.jobs, x.origin = .access j.ticket.seq →
          Ended j .ok 0 s.tn (w1 (data % 2 ^ x.width)) t)
        ∧ (x.write = true → ∀ j ∈ s.proto.jobs, x.origin = .access j.ticket.seq → ∃ v, Ended j .ok 0 s.tn (w1 v) t)
        ∧ (∀ j ∈ s.proto.jobs, x.origin ≠ .access j.ticket.seq → j ∈ t.proto.jobs)) s (exec (.feBusTransaction e data) s))
    ∧ (∀ (num : Fin 8) (p : FeProfile) (l : BiasLoop) (r : LoopRun), (s.eng e).fe.profile = some p →
      p.loops.find? (fun l => l.num == num.val) = some l → (s.eng e).fe.loops.find? (fun r => r.num == num.val) = some r →
      feRuns s e = true → r.lastRun + l.period ≤ s.ticks → l.least ≤ l.greatest →
      (vget (s.mc (e.val / 12)).latest (4 * (e.val % 12) + l.mon) Latest.reset).doneAt.any (fun t => decide (s.ticks ≤ t + l.period)) = true →
      AtEngine e eventParts (fun t => ∃ next, l.least ≤ next ∧ next ≤ l.greatest
        ∧ (next : Int) = clampI l.least l.greatest ((r.written : Int) + (if l.invert then
            -(roundDiv ((l.target : Int) - (vget (s.mc (e.val / 12)).latest (4 * (e.val % 12) + l.mon) Latest.reset).v) (2 ^ l.shift))
            else roundDiv ((l.target : Int) - (vget (s.mc (e.val / 12)).latest (4 * (e.val % 12) + l.mon) Latest.reset).v) (2 ^ l.shift)))
        ∧ (t.eng e).fe.queue = (s.eng e).fe.queue ++ (if next = r.written then [] else
            [{ origin := .loop, write := true, addr := l.addr, width := l.width, value := next }])) s (exec (.biasLoopRun e num) s))
    ∧ (∀ (value addr width mask period : Nat) (p : FeProfile), (s.eng e).fe.profile = some p →
      p.fault = some (addr, width, mask, period) → feRuns s e = true → (s.eng e).fe.lastPoll + period ≤ s.ticks →
      feHwDue s e = false → (s.eng e).fe.queue = [] →
      AtEngine e (.freeCtr :: eventParts) (fun t => (t.eng e).fe.lastPoll = s.ticks
        ∧ (value % 2 ^ width &&& mask = 0 → (t.eng e).fe.pollFault = false ∧ (t.eng e).tx = (s.eng e).tx)
        ∧ (value % 2 ^ width &&& mask ≠ 0 → (t.eng e).fe.pollFault = true ∧ (t.eng e).tx.reason.feFault = true
          ∧ ((s.eng e).tx.reason.feFault = false → ∃ w, Raised .feFault .engine e (w1 1 ++ w1 w ++ w1 (value % 2 ^ width)) s.tn t))) s
        (exec (.feFaultPoll e value) s))

/-- The commands of Receive Equalisation (R180, R183 to R185, R189, R201). -/
def Obligations.EqualiserCommands : Prop :=
  ∀ (c : Cmd) (s : State),
    (Ready specEngineRxfeSet c s = true → ArmsAnd 0x115 0x115 c [.engines] (fun t =>
        t.eng (cIdx c) = { s.eng (cIdx c) with eq := { (s.eng (cIdx c)).eq with rxFeAutoNext := some (cw c 5 == 1), rxFeKeep := (s.eng (cIdx c)).eq.rxFeAuto } }
        ∧ OtherEngines (cIdx c) s t) s (exec (.engineRxfeSet c) s))
    ∧ (Ready specEngineCdSet c s = true → Arms 0x116 0x116 c s (exec (.engineCdSet c) s))
    ∧ (Ready specEngineCdSwap c s = true → Arms 0x118 0x118 c s (exec (.engineCdSwap c) s))
    ∧ (Ready specEngineEqSet c s = true → Arms 0x119 0x119 c s (exec (.engineEqSet c) s))
    ∧ (Ready specEngineCdLoad c s = true → Begins 0x117 c [.engines] (fun t =>
        t.eng (cIdx c) = { s.eng (cIdx c) with eq := { (s.eng (cIdx c)).eq with
          cdShadow := none, cdLoading := some { d := 2 * cz c 1, centreN := s.slotCentre (cIdx c) } } }
        ∧ OtherEngines (cIdx c) s t) s (exec (.engineCdLoad c) s))
    ∧ (Ready specEngineRxQuality c s = true → Reports 0x11A c
        ([Config.qualityBitmap (s.eng (cIdx c)).inFrame (staleFlags (s.eng (cIdx c)).eq.freeze)]
          ++ ((List.range 4).map (fun i => pair16 ((s.eng (cIdx c)).eq.est.snr.getD (2 * i) 0)
            ((s.eng (cIdx c)).eq.est.snr.getD (2 * i + 1) 0))).flatten
          ++ w1 (s.eng (cIdx c)).eq.est.preFecBer ++ wi (s.eng (cIdx c)).eq.est.cdEst ++ w1 (s.eng (cIdx c)).eq.est.dgd
          ++ w1 (s.eng (cIdx c)).eq.est.pdl ++ w1 (s.eng (cIdx c)).eq.est.sopRate
          ++ wi (s.eng (cIdx c)).acq.freqOffset ++ wi (s.eng (cIdx c)).eq.est.timingFo) s
        (exec (.engineRxQuality c) s))
    ∧ (cIdx c < 48 →
      ((s.eng (cIdx c)).eq.rxFeKeep = false → EngineChange 0x115 c (fun g => { g with eq := { g.eq with
        rxSkew := [cHi c 1, cLo c 1, cHi c 2, cLo c 2], skewApplied := skewLessMean [cHi c 1, cLo c 1, cHi c 2, cLo c 2]
        rxIqGain := [cHi c 3, cLo c 3], rxIqPhase := [cHi c 4, cLo c 4] } }) s)
      ∧ ((s.eng (cIdx c)).eq.rxFeKeep = true → EngineChange 0x115 c id s)
      ∧ EngineChange 0x116 c (fun g => { g with eq := { g.eq with
        scanNext := some (100 * cz c 1, 1000 * cw c 2), cdAuto := cw c 3 == 1, trackThresh := 2 * cw c 4, xfade := cw c 5, delaySlew := cw c 6 } }) s
      ∧ EngineChange 0x119 c (fun g => { g with eq := { g.eq with
        eqMode := cw c 1, eqMu := cw c 2, trBw := cw c 3, crAvg := cw c 4, nbrCr := cw c 5 == 1, nbrSop := cw c 6 == 1 } }) s
      ∧ (∀ b, (s.eng (cIdx c)).eq.fade = none → (s.eng (cIdx c)).eq.cdShadow = some b →
        ((s.eng (cIdx c)).eq.xfade ≠ 0 → EngineChange 0x118 c (fun g => { g with eq := { g.eq with
          fade := some { x := g.eq.xfade, w := 1, rising := true }, slewing := false } }) s)
        ∧ ((s.eng (cIdx c)).eq.xfade = 0 → TakesEffect 0x118 c (.engines :: eventParts) (fun t =>
          (t.eng (cIdx c)).eq.cdActive = b ∧ (t.eng (cIdx c)).eq.cdShadow = some (s.eng (cIdx c)).eq.cdActive
          ∧ (t.eng (cIdx c)).eq.fade = none ∧ Raised .cdSwapDone .engine (cIdx c) (wi b.d ++ w1 0 ++ w2 s.tn) s.tn t
          ∧ OtherEngines (cIdx c) s t) s))
      ∧ (∀ f, (s.eng (cIdx c)).eq.fade = some f → f.over = false →
        (f.rising = true → TakesEffect 0x118 c (.engines :: eventParts) (fun t =>
          t.eng (cIdx c) = { s.eng (cIdx c) with eq := { (s.eng (cIdx c)).eq with
            fade := some { f with w := f.w - 2, rising := false } } }
          ∧ Raised .cdSwapReversed .engine (cIdx c) (w1 (f.w - 2) ++ w2 s.tn) s.tn t ∧ OtherEngines (cIdx c) s t) s)
        ∧ (f.rising = false → EngineChange 0x118 c (fun g => { g with eq := { g.eq with
            fade := some { f with w := min f.x (f.w + 2), rising := true } } }) s)))

/-- The happenings of Receive Equalisation (R180, R183 to R188, R200, R202). -/
def Obligations.EqualiserHappenings : Prop :=
  ∀ (e : Fin 48) (s : State),
    (∀ f, (s.eng e).eq.fade = some f → f.over = true →
      AtEngine e eventParts (fun t => (t.eng e).eq.fade = none
        ∧ (t.eng e).eq.cdActive = (if f.rising then (s.eng e).eq.cdShadow.getD (s.eng e).eq.cdActive else (s.eng e).eq.cdActive)
        ∧ (t.eng e).eq.cdShadow = (if f.rising then some (s.eng e).eq.cdActive else (s.eng e).eq.cdShadow)
        ∧ Raised .cdSwapDone .engine e (wi (t.eng e).eq.cdActive.d ++ w1 (if f.rising then 0 else 1) ++ w2 s.tn) s.tn t) s
        (exec (.cdSwapDone e) s))
    ∧ ((s.eng e).eq.slewing = true → (s.eng e).eq.fade = none → (s.eng e).eq.align = 64 * alignSamples (s.eng e).eq.cdActive →
      AtEngine e eventParts (fun t => t.eng e = { s.eng e with eq := { (s.eng e).eq with slewing := false } }
        ∧ Raised .cdDelaySettled .engine e (w1 (alignSamples (s.eng e).eq.cdActive)
            ++ wi2 (rxCdDelay (64 * alignSamples (s.eng e).eq.cdActive)) ++ w2 s.tn) s.tn t) s (exec (.cdDelaySettled e) s))
    ∧ (∀ b, (s.eng e).eq.cdLoading = some b →
      AtEngine e [.jobs, .responses, .queueRegs, .msix, .alertN] (fun t =>
        t.eng e = { s.eng e with eq := { (s.eng e).eq with cdShadow := some b, cdLoading := none } }
        ∧ ∀ j ∈ s.proto.jobs, j.ticket.opcode = 0x117 → cIdx j.cmd = e → Ended j .ok 0 s.tn [] t) s (exec (.cdFilterReady e) s))
    ∧ (∀ r : Int, s.tn % 64 = 0 → (s.eng e).eq.estimatedAt ≠ some s.ticks → (s.eng e).inFrame = true →
      (s.eng e).eq.freeze.any = false → (s.eng e).eq.freeze.holdsCd = false →
      ((s.eng e).eq.cdAuto = false →
        AtEngine e [] (fun t => t.eng e = { s.eng e with eq := { (s.eng e).eq with
          est := { (s.eng e).eq.est with cdEst := clampI (-51000) 51000 (roundDiv ((s.eng e).eq.cdActive.d + r) 2) }
          estimatedAt := some s.ticks
          residualRun := if (s.eng e).eq.trackThresh < r.natAbs then (s.eng e).eq.residualRun + 1 else 0 } }) s
          (exec (.cdTrackEstimate e r) s))
      ∧ ((s.eng e).eq.cdAuto = true → s.cdPending e = false → (s.eng e).eq.fade = none → (s.eng e).eq.slewing = false →
        3 ≤ (s.eng e).eq.residualRun → (s.eng e).eq.trackThresh < r.natAbs →
        AtEngine e (.armed :: .jobs :: .responses :: eventParts) (fun t =>
          (∃ a ∈ t.proto.armed, a.due = s.tn + 8 ∧ a.opcode = 0x118 ∧ a.key = { cls := 0x118, kind := 1, index := e, sub := 0 })
          ∧ (t.eng e).eq.residualRun = 0 ∧ Counted .cdTrackSwaps .engine e 1 t
          ∧ ∃ b, (t.eng e).eq.cdShadow = some b ∧ b.centreN = s.slotCentre e ∧ -100000 ≤ b.d ∧ b.d ≤ 100000) s
          (exec (.cdTrackEstimate e r) s)))
    ∧ (∀ m : QualityMeas, s.tn % 64 = 0 → (s.eng e).inFrame = true →
      AtEngine e [] (fun t => t.eng e = { s.eng e with eq := { (s.eng e).eq with est := { (s.eng e).eq.est with
          snr := if (s.eng e).eq.freeze.holdsSnr then (s.eng e).eq.est.snr
            else (s.eng e).eq.snrNow
          dgd := if (s.eng e).eq.freeze.holdsSnr then (s.eng e).eq.est.dgd else min 4000 m.dgd
          pdl := if (s.eng e).eq.freeze.holdsSnr then (s.eng e).eq.est.pdl else min 100 m.pdl } } }) s (exec (.estimatorUpdate e m) s))
    ∧ (∀ m : FeEstimate, (s.eng e).eq.rxFeAuto = true → (s.eng e).eq.freeze.brace = false →
      (∀ t0, (s.eng e).eq.lastFeUpdate = some t0 → t0 + 625 ≤ s.ticks) →
      AtEngine e [] (fun t => (t.eng e).eq.lastFeUpdate = some s.ticks
        ∧ (t.eng e).eq.rxSkew = (List.zipWith (toward 5) (s.eng e).eq.rxSkew m.skew).map (clampI (-4000) 4000)
        ∧ (t.eng e).eq.rxIqGain = (List.zipWith (toward 1) (s.eng e).eq.rxIqGain m.gain).map (clampI (-100) 100)
        ∧ (t.eng e).eq.rxIqPhase = (List.zipWith (toward 1) (s.eng e).eq.rxIqPhase m.phase).map (clampI (-1000) 1000)
        ∧ (∀ x ∈ (t.eng e).eq.rxSkew, -4000 ≤ x ∧ x ≤ 4000
            ∧ ∃ v ∈ (s.eng e).eq.rxSkew, -4000 ≤ v → v ≤ 4000 → v - 5 ≤ x ∧ x ≤ v + 5)
        ∧ ((s.eng e).eq.rxSkew.length = 4 → m.skew.length = 4 → (t.eng e).eq.skewApplied.sum = 0)) s (exec (.rxFeAutoUpdate e m) s))
    ∧ (∀ t0, (s.eng e).eq.freezeStart = some t0 → (s.eng e).eq.freeze.any = false →
      AtEngine e eventParts (fun t => t.eng e = { s.eng e with eq := { (s.eng e).eq with freezeStart := none } }
        ∧ Raised .rxThaw .engine e (w1 (s.eng e).eq.frozenTicks ++ w2 s.tn) s.tn t) s (exec (.rxThaw e) s))

/-- The commands of the coding chapter (R101, R112, R118 to R122). -/
def Obligations.LoadingCommands : Prop :=
  ∀ (c : Cmd) (s : State),
    (Ready specEngineIterCapSet c s = true →
      SetsEngine 0x102 c (fun g => { g with iterCap := cw c 1 }) s (exec (.engineIterCapSet c) s))
    ∧ (Ready specEngineLoadSet c s = true →
      SetsEngine 0x103 c (fun g => { g with load := { g.load with
        mode := cw c 1, lead := cw c 3, guard := cw c 4, hyst := cw c 5, maxSteps := cw c 6
        intervalNext := if cw c 2 = g.load.interval then g.load.intervalNext.filter (· == g.load.interval) else some (cw c 2) } }) s (exec (.engineLoadSet c) s))
    ∧ (Ready specEngineLoadAnnounce c s = true →
      Begins 0x104 c (.engines :: eventParts) (fun t => OtherEngines (cIdx c) s t
        ∧ t.eng (cIdx c) = { s.eng (cIdx c) with
          cap := (s.eng (cIdx c)).cap.map (fun x => if x.kNew = cw c 1 then { x with userVec := some (cmdVec c) } else x)
          load := { (s.eng (cIdx c)).load with
            seq := ((s.eng (cIdx c)).load.seq + 1) % 256
            ann := some { seq := ((s.eng (cIdx c)).load.seq + 1) % 256, k := cw c 1, vec := cmdVec c
                          loadTn := 0, deadline := 0, firstTn := s.tn + 2, givenTn := none, made := false, accepted := false, committed := false, why := .manual } } }
        ∧ Raised .loadAnnounced .engine (cIdx c) [] s.tn t) s (exec (.engineLoadAnnounce c) s))
    ∧ (Ready specEngineCapacitySet c s = true → s.carries (cIdx c) = true → (s.eng (cIdx c)).cap = none →
      Begins 0x101 c (.engines :: eventParts) (fun t => OtherEngines (cIdx c) s t
        ∧ (t.eng (cIdx c)).cap = some { kOld := (s.eng (cIdx c)).kTx, kNew := cw c 1, txDone := false, rxDone := false
                                        accepted := false, userVec := none }
        ∧ (t.eng (cIdx c)).kTx = (s.eng (cIdx c)).kTx ∧ (t.eng (cIdx c)).kRx = (s.eng (cIdx c)).kRx
        ∧ (∃ a, (t.eng (cIdx c)).load.ann = some a ∧ a.k = cw c 1 ∧ a.firstTn = s.tn + 2 ∧ a.made = false ∧ a.givenTn = none
            ∧ a.vec = capVector (s.eng (cIdx c)) (cw c 1) ∧ a.why = .capacity ∧ a.accepted = false)
        ∧ Raised .loadAnnounced .engine (cIdx c) [] s.tn t) s (exec (.engineCapacitySet c) s))
    ∧ (Ready specEngineCapacitySet c s = true → s.carries (cIdx c) = false →
      Begins 0x101 c [.engines, .armed] (fun t => OtherEngines (cIdx c) s t
        ∧ (t.eng (cIdx c)).cap = some { kOld := (s.eng (cIdx c)).kTx, kNew := cw c 1, txDone := false, rxDone := false
                                        accepted := false, userVec := none }
        ∧ Pending 0x101 0x101 (s.tn + 1) c t) s (exec (.engineCapacitySet c) s))
    ∧ (∀ k, cIdx c < 48 → (s.eng (cIdx c)).cap ≠ none → k = (if (s.eng (cIdx c)).zr = true ∧ cw c 1 ≠ 0 then 2 else cw c 1) →
      TakesEffect 0x101 c (.engines :: .packs :: .tiles :: .dma :: .jobs :: eventParts) (fun t => OtherEngines (cIdx c) s t
        ∧ (t.eng (cIdx c)).kTx = k ∧ (t.eng (cIdx c)).kRx = k ∧ (t.eng (cIdx c)).cap = none
        ∧ (t.eng (cIdx c)).load.vecTx = defaultVec k (s.eng (cIdx c)).txLayout
        ∧ (t.eng (cIdx c)).load.vecRx = defaultVec k (s.eng (cIdx c)).rxLayout
        ∧ (k = 0 → (t.eng (cIdx c)).acq.state = .disabled)
        ∧ Raised .capacityDone .engine (cIdx c) (w1 k) s.tn t
        ∧ ∀ j ∈ s.proto.jobs, j.ticket.opcode = 0x101 → cIdx j.cmd = cIdx c → Ended j .ok 0 s.tn [] t) s)
    ∧ (Ready specEngineProfileSet c s = true →
      Does 0x100 c [] (.engines :: .tiles :: .dma :: .armed :: .jobs :: eventParts) (fun t => OtherEngines (cIdx c) s t
        ∧ (t.eng (cIdx c)).zr = (cw c 1 == 1) ∧ (t.eng (cIdx c)).txLayout = field (cw c 2) 0 4
        ∧ (t.eng (cIdx c)).rxLayout = field (cw c 2) 4 4
        ∧ (t.eng (cIdx c)).kTx = (if cw c 1 = 1 ∧ (s.eng (cIdx c)).kTx ≠ 0 then 2 else (s.eng (cIdx c)).kTx)
        ∧ (t.eng (cIdx c)).load.ann = none ∧ (t.eng (cIdx c)).load.vecTx = defaultVec (t.eng (cIdx c)).kTx (field (cw c 2) 0 4)) s
        (exec (.engineProfileSet c) s))

/-- The sender's side of the loading exchange (R112, R115). -/
def Obligations.LoadingExchange : Prop :=
  ∀ (e : Fin 48) (s : State),
    (∀ sums count, (s.eng e).load.mode = 2 → s.tn % (s.eng e).load.interval = 0 → (s.eng e).load.ann = none →
      (s.eng e).load.ranAt ≠ some s.tn → s.recovery.headless = none → s.power.braceEffect = false → (s.eng e).zr = false →
      (s.eng e).load.whole = some (sums, count, false) → count ≠ 0 →
      (policySteps (s.eng e).txLayout count (s.eng e).load.hyst sums (s.eng e).load.maxSteps (s.eng e).load.vecTx = (s.eng e).load.vecTx →
        AtEngine e [] (fun t => t.eng e = { s.eng e with load := { (s.eng e).load with ranAt := some s.tn } }) s
          (exec (.loadPolicyRun e) s))
      ∧ (policySteps (s.eng e).txLayout count (s.eng e).load.hyst sums (s.eng e).load.maxSteps (s.eng e).load.vecTx ≠ (s.eng e).load.vecTx →
        AtEngine e eventParts (fun t => (∃ a, (t.eng e).load.ann = some a ∧ a.k = (s.eng e).kTx ∧ a.seq = ((s.eng e).load.seq + 1) % 256
            ∧ a.vec = policySteps (s.eng e).txLayout count (s.eng e).load.hyst sums (s.eng e).load.maxSteps (s.eng e).load.vecTx
            ∧ a.firstTn = s.tn + 2 ∧ a.made = false ∧ a.givenTn = none ∧ a.accepted = false)
          ∧ (t.eng e).load.vecTx = (s.eng e).load.vecTx ∧ Raised .loadAnnounced .engine e [] s.tn t) s (exec (.loadPolicyRun e) s)))
    ∧ (∀ a, (s.eng e).load.ann = some a → a.made = true → a.why ≠ .abort → a.accepted = false → a.committed = false → a.deadline ≤ s.tn →
      AtEngine e (.jobs :: .responses :: eventParts) (fun t =>
        (t.eng e).load.ann = some { a with
          seq := ((s.eng e).load.seq + 1) % 256, k := (s.eng e).kTx, vec := (s.eng e).load.vecTx, accepted := false
          committed := false, why := .abort }
        ∧ Raised .loadAborted .engine e (w1 0) s.tn t ∧ Raised .loadAnnounced .engine e [] s.tn t
        ∧ ∀ j ∈ s.proto.jobs, cIdx j.cmd = e → j.ticket.opcode = 0x104 ∨ (j.ticket.opcode = 0x101 ∧ (s.eng e).annOfChange a = true) →
            Ended j .cancelled 0x105 s.tn [] t) s
        (exec (.loadAckDeadline e) s))
    ∧ (∀ a, (s.eng e).load.ann = some a → a.why ≠ .abort → a.accepted = true → a.loadTn ≤ s.tn →
      AtEngine e (.packs :: .jobs :: .responses :: eventParts) (fun t =>
        (t.eng e).kTx = a.k ∧ (t.eng e).load.vecTx = a.vec ∧ (t.eng e).load.curSeq = a.seq ∧ (t.eng e).load.curTn = a.loadTn
        ∧ (t.eng e).load.ann = none ∧ (t.eng e).kRx = (s.eng e).kRx ∧ Raised .loadTxSwitch .engine e [] s.tn t
        ∧ ∀ j ∈ s.proto.jobs, j.ticket.opcode = 0x104 → cIdx j.cmd = e → Ended j .ok 0 s.tn [] t) s (exec (.loadTxSwitch e) s))
    ∧ (∀ (l : Loading) (a : Announce) (tn : Nat), l.ann = some a → a.made = false → a.firstTn ≤ tn →
      (l.makeAnn tn).ann = some { a with
        made := true, firstTn := tn, loadTn := a.givenTn.getD (tn + l.lead), deadline := a.givenTn.getD (tn + l.lead) - l.guard - 1 })

/-- The monitor commands (R432 to R439). -/
def Obligations.MonitorCommands : Prop :=
  ∀ (c : Cmd) (s : State),
    (Ready specMonSeqSet c s = true → Does 0x601 c [] [.mons] (MonIs (cIdx c) (fun m => { m with
        seq := (List.range (cw c 1)).map (seqOctet c), nextStep := 0 }) s) s (exec (.monSeqSet c) s))
    ∧ (Ready specMonSeqStart c s = true → Arms 0x602 0x602 c s (exec (.monSeqStart c) s))
    ∧ (cIdx c < 4 →
      (∀ since, (s.mc (cIdx c)).cal = .running since → TakesEffect 0x602 c [.mons] (MonIs (cIdx c)
        (fun m => { m with startWait := some (cw c 1 == 1) }) s) s)
      ∧ ((∀ since, (s.mc (cIdx c)).cal ≠ .running since) → TakesEffect 0x602 c [.mons] (MonIs (cIdx c)
        (fun m => MonConv.begin { m with run := some (cw c 1 == 1), nextStep := 0
                                         current := m.current.map (fun x => { x with ends := false }) } s.ticks s.tn) s) s))
    ∧ (Ready specMonSeqStop c s = true → Does 0x603 c [] [.mons, .armed] (fun t =>
        (t.mc (cIdx c)).run = none ∧ (t.mc (cIdx c)).startWait = none ∧ (t.mc (cIdx c)).seq = (s.mc (cIdx c)).seq
        ∧ (t.mc (cIdx c)).queue = (s.mc (cIdx c)).queue ∧ (t.mc (cIdx c)).latest = (s.mc (cIdx c)).latest
        ∧ (∀ a ∈ t.proto.armed, ¬(a.key.cls = 0x602 ∧ a.key.index = cIdx c ∧ a.due = s.tn + 1))
        ∧ ∀ q, q ≠ cIdx c → t.mc q = s.mc q) s (exec (.monSeqStop c) s))
    ∧ (Ready specMonInject c s = true → Does 0x604 c [] [.mons] (MonIs (cIdx c) (fun m => MonConv.begin { m with
        injected := m.injected ++ [{ input := cw c 1, held := m.cal != .none, delayed := false, asked := s.ticks }] } s.ticks s.tn) s) s (exec (.monInject c) s))
    ∧ (Ready specMonInject c s = true → (s.mc (cIdx c)).current = none → (s.mc (cIdx c)).cal = .none →
      (s.mc (cIdx c)).injected = [] → (s.mc (cIdx c)).queue.length < 512 → Completes (exec (.monInject c) s) (fun t =>
        (t.mc (cIdx c)).current = some { input := cw c 1, step := none, toQueue := true, delayed := false, startTn := s.tn, ends := false
                                         corr := vget (s.mc (cIdx c)).corr (cw c 1) (0, 16384) }
        ∧ (t.mc (cIdx c)).injected = []))
    ∧ (Ready specMonCal c s = true → Begins 0x600 c [.mons] (fun t =>
        ((t.mc (cIdx c)).cal = .waiting ∨ (t.mc (cIdx c)).cal = .running s.ticks)
        ∧ ((s.mc (cIdx c)).current = none → (s.mc (cIdx c)).injected = [] → (t.mc (cIdx c)).cal = .running s.ticks)
        ∧ ∀ q, q ≠ cIdx c → t.mc q = s.mc q) s (exec (.monCal c) s))
    ∧ (Ready specMonCorrSet c s = true → Does 0x605 c [] [.mons] (fun t =>
        MonIs (cIdx c) (fun m => { m with corr := (t.mc (cIdx c)).corr }) s t
        ∧ vget (t.mc (cIdx c)).corr (cw c 1) (0, 0) = (cz c 2, cw c 3)
        ∧ ∀ i, i ≠ cw c 1 → vget (t.mc (cIdx c)).corr i (0, 0) = vget (s.mc (cIdx c)).corr i (0, 0)) s (exec (.monCorrSet c) s))
    ∧ (Ready specMonTestdacSet c s = true → Does 0x606 c [] [.mons] (MonIs (cIdx c)
        (fun m => { m with testDacNext := some (cw c 1, s.ticks) }) s) s (exec (.monTestdacSet c) s))

/-- The happenings of the monitor converters (R431 to R441). -/
def Obligations.MonitorHappenings : Prop :=
  (∀ (k : Fin 4) (s : State),
    (∀ (code : Fin 4096) (x : Conversion), (s.mc k).current = some x → x.input < 64 →
      Happens (.mons :: eventParts) (fun t => (∀ q, q ≠ k.val → t.mc q = s.mc q)
        ∧ (t.mc k).queue = (s.mc k).queue ++ (if x.toQueue then
            [monItem k (s.mc k) x (vget (t.mc k).latest x.input Latest.reset).v (vget (t.mc k).latest x.input Latest.reset).overrange]
            else [])
        ∧ (vget (t.mc k).latest x.input Latest.reset).v ≤ 65535
        ∧ (vget (t.mc k).latest x.input Latest.reset).tn16 = x.startTn % 65536
        ∧ (vget (t.mc k).latest x.input Latest.reset).doneAt = some s.ticks
        ∧ (sensorFenced s k x.input = true → (vget (t.mc k).latest x.input Latest.reset).v = 0
            ∧ (vget (t.mc k).latest x.input Latest.reset).overrange = true)
        ∧ (sensorFenced s k x.input = false → ∀ v : Int, v = roundDiv (((16 * (code.val : Int) - (s.mc k).calOffset) * (s.mc k).calGain
              - 32768 * x.corr.1) * x.corr.2) (32768 * 16384) →
            0 ≤ v → v ≤ 65535 → ((vget (t.mc k).latest x.input Latest.reset).v : Int) = v
              ∧ (vget (t.mc k).latest x.input Latest.reset).overrange = (code.val == 0 || code.val == 4095))
        ∧ (∀ i, i ≠ x.input → vget (t.mc k).latest i Latest.reset = vget (s.mc k).latest i Latest.reset)
        ∧ (∀ i, (s.mc k).injected = [i] → i.delayed = true → (s.mc k).heldLeft = 1 → (s.mc k).cal = .none →
            (s.mc k).queue.length + 1 < 512 →
            Raised .monInjectDelayed .monConv k (w1 (s.mc k).heldCount ++ w1 (t.mc k).longestDelay) s.tn t)) s
        (exec (.monConversionDone k code) s))
    ∧ (∀ d t0, (s.mc k).testDacNext = some (d, t0) → t0 + 6 ≤ s.ticks →
      Happens [.mons] (MonIs k (fun m => { m with testDac := d, testDacNext := none }) s) s (exec (.monTestdacSettle k) s))
    ∧ (∀ (offset : Int) (gain longest since : Nat), (s.mc k).cal = .running since → since + 1500 ≤ s.ticks →
      Happens (.mons :: .jobs :: .responses :: eventParts) (fun t => (∀ q, q ≠ k.val → t.mc q = s.mc q)
        ∧ (t.mc k).cal = .none
        ∧ (offset.natAbs ≤ 1024 ∧ 29491 ≤ gain ∧ gain ≤ 36045 → (t.mc k).calOffset = offset ∧ (t.mc k).calGain = gain
            ∧ (t.mc k).calValid = true ∧ Raised .monCalDone .monConv k (w1 0 ++ wi offset ++ w1 gain) s.tn t
            ∧ ∀ j ∈ s.proto.jobs, j.ticket.opcode = 0x600 → cIdx j.cmd = k → Ended j .ok 0 s.tn [] t)
        ∧ (¬(offset.natAbs ≤ 1024 ∧ 29491 ≤ gain ∧ gain ≤ 36045) → (t.mc k).calOffset = (s.mc k).calOffset
            ∧ (t.mc k).calGain = (s.mc k).calGain ∧ (t.mc k).calValid = (s.mc k).calValid
            ∧ Raised .monCalDone .monConv k (w1 1 ++ wi offset ++ w1 gain) s.tn t
            ∧ ∀ j ∈ s.proto.jobs, j.ticket.opcode = 0x600 → cIdx j.cmd = k → Ended j .cancelled 0x600 s.tn [] t)
        ∧ (t.mc k).heldCount = ((s.mc k).injected.filter (·.held)).length ∧ (t.mc k).heldTold = longest
        ∧ (∀ i, (s.mc k).injected = [i] → i.held = true → (s.mc k).current = none → (s.mc k).queue.length < 512 →
            (∃ x, (t.mc k).current = some x ∧ x.input = i.input ∧ x.delayed = true)
            ∧ Raised .monInjectDelayed .monConv k (w1 1 ++ w1 (t.mc k).longestDelay) s.tn t)) s
        (exec (.monCalComplete k offset gain longest) s))
    ∧ (s.mapOpen = true → (s.mc k).queue = [] → Happens [.mons, .readWord] (fun t => MonIs k (fun m => { m with hi := 0xFFF00000 }) s t
        ∧ t.readWord = some 0) s (exec (.monResultRead ⟨k.val, by omega⟩) s))
    ∧ (∀ x rest, s.mapOpen = true → (s.mc k).queue = x :: rest → Happens (.mons :: .readWord :: eventParts) (fun t => (t.mc k).queue = rest
        ∧ (t.mc k).hi = x >>> 32 ∧ t.readWord = some (BitVec.ofNat 32 x) ∧ ∀ q, q ≠ k.val → t.mc q = s.mc q) s
        (exec (.monResultRead ⟨k.val, by omega⟩) s)))
  ∧ ∀ s : State,
    (s.mapOpen = false → ∀ q, exec (.monResultRead q) s = .next s)
    ∧ (s.mapOpen = true → s.tlmq.queue = [] → Happens [.tlmq, .readWord] (fun t => t.tlmq = { s.tlmq with hi := 0xFFF00000 } ∧ t.readWord = some 0) s
      (exec (.monResultRead 4) s))
    ∧ (∀ x rest, s.mapOpen = true → s.tlmq.queue = x :: rest → Happens [.tlmq, .readWord] (fun t =>
        t.tlmq = { s.tlmq with queue := rest ++ s.tlmq.waiting.take 1, waiting := s.tlmq.waiting.drop 1, hi := x >>> 32 } ∧ t.readWord = some (BitVec.ofNat 32 x)) s (exec (.monResultRead 4) s))

/-- The telemetry chains (R448 to R453). -/
def Obligations.TelemetryChains : Prop :=
  (∀ (c : Cmd) (s : State),
    (Ready specTlmChainSet c s = true → Arms 0x620 0x620 c s (exec (.tlmChainSet c) s))
    ∧ (Ready specTlmReset c s = true → Arms 0x623 0x623 c s (exec (.tlmReset c) s))
    ∧ (cSub c < 64 →
      TakesEffect 0x620 c [.chains] (ChainIs (cSub c) (fun ch => { ch with
        integ := List.replicate 4 0, comb := List.replicate 4 0, hb1Mem := [], hb2Mem := [], firMem := []
        counts := [0, 0, 0, 0], lastStale := none, lastSample := 0, sampledAt := none, outputs := 0
        cfg := { source := tlmSourceOf (cw c 1), sourceWord := cw c 1, cic := cw c 2, hb1 := bit (cw c 3) 0, hb2 := bit (cw c 3) 1
                 fir := cw c 4, overflow := cw c 5 } }) s) s
      ∧ TakesEffect 0x623 c [.chains] (ChainIs (cSub c) (fun ch => { ch with
        integ := List.replicate 4 0, comb := List.replicate 4 0, hb1Mem := [], hb2Mem := [], firMem := []
        counts := [0, 0, 0, 0], lastStale := none, lastSample := 0, sampledAt := none, outputs := 0 }) s) s)
    ∧ (Ready specTlmCoefLoad c s = true → Does 0x621 c [] [.chains] (ChainIs (cSub c)
        (fun ch => { ch with shadow := some ((List.range 64).map (firTap c)) }) s) s (exec (.tlmCoefLoad c) s))
    ∧ (Ready specTlmCoefSwap c s = true → Does 0x622 c [] [.chains] (ChainIs (cSub c)
        (fun ch => { ch with swapPending := true }) s) s (exec (.tlmCoefSwap c) s)))
  ∧ ∀ (n : Fin 64) (s : State),
    ((s.chain n).sampledAt = some s.ticks ∨ (s.chain n).cfg.source = .none → exec (.tlmSample n) s = .next s)
    ∧ (∀ mi, (s.chain n).sampledAt ≠ some s.ticks → (s.chain n).cfg.source = .monitor mi → (s.chain n).counts.length = 4 →
      Happens (.chains :: .tlmq :: eventParts) (fun t => (∀ q, q ≠ n.val → t.chain q = s.chain q)
        ∧ (t.chain n).sampledAt = some s.ticks ∧ (t.chain n).cfg = (s.chain n).cfg
        ∧ (t.chain n).lastSample = ((vget (s.mc (mi / 64)).latest (mi % 64) Latest.reset).v : Int)
        ∧ (t.chain n).counts.getD 0 0 = (s.chain n).counts.getD 0 0 + 1
        ∧ (((s.chain n).counts.getD 0 0 + 1) % (s.chain n).cfg.cic ≠ 0 → (t.chain n).comb = (s.chain n).comb
          ∧ (t.chain n).hb1Mem = (s.chain n).hb1Mem ∧ (t.chain n).hb2Mem = (s.chain n).hb2Mem
          ∧ (t.chain n).firMem = (s.chain n).firMem ∧ (t.chain n).outputs = (s.chain n).outputs ∧ t.tlmq = s.tlmq)) s
        (exec (.tlmSample n) s))
    ∧ (∀ e code, (s.chain n).sampledAt ≠ some s.ticks → (s.chain n).cfg.source = .estimate e code → (s.chain n).counts.length = 4 →
      (tlmSlow code = true → s.tn % 64 = 0) →
      Happens (.chains :: .tlmq :: eventParts) (fun t => (∀ q, q ≠ n.val → t.chain q = s.chain q)
        ∧ (t.chain n).sampledAt = some s.ticks
        ∧ (t.chain n).lastSample = (if (tlmEstimate s e code).2 then (s.chain n).lastSample else (tlmEstimate s e code).1)
        ∧ (t.chain n).counts.getD 0 0 = (s.chain n).counts.getD 0 0 + 1) s (exec (.tlmSample n) s))

/-- The port commands (R265 to R280). -/
def Obligations.PortCommands : Prop :=
  ∀ (c : Cmd) (s : State),
    (Ready specPortSet c s = true → Does 0x300 c [] [.ports] (fun t =>
        (∃ q, t.port? (cIdx c) = some q ∧ q.ty = cw c 1 ∧ q.fast = (cw c 2 == 0) ∧ q.c2m = (cw c 3 == 1) ∧ q.state = .disabled
          ∧ ∀ p, s.port? (cIdx c) = some p → q.trainTimeout = p.trainTimeout ∧ q.ffeNext = p.ffeNext ∧ q.tap = p.tap
            ∧ q.cDegSet = p.cDegSet ∧ q.ptp = p.ptp)
        ∧ ∀ n, n ≠ cIdx c → t.port? n = s.port? n) s (exec (.portSet c) s))
    ∧ (Ready specPortDelete c s = true → Does 0x301 c [] (.ports :: .counters :: eventParts) (fun t => t.port? (cIdx c) = none
        ∧ (∀ p, s.port? (cIdx c) = some p → ∀ d ∈ clientDefects, d ∈ p.reported →
            Raised .defectChange .port (cIdx c) (w1 (clientOrd d) ++ w1 0 ++ w2 s.tn) s.tn t)
        ∧ ∀ n, n ≠ cIdx c → t.port? n = s.port? n) s (exec (.portDelete c) s))
    ∧ (Ready specPortEnable c s = true → Arms 0x302 0x302 c s (exec (.portEnable c) s))
    ∧ (∀ p, s.port? (cIdx c) = some p →
        (p.state = .disabled → TakesEffect 0x302 c (.ports :: .lanes :: .freeCtr :: eventParts) (RoundStarted (cIdx c) p s) s)
        ∧ (p.state = .test → TakesEffect 0x302 c (.ports :: .lanes :: .freeCtr :: eventParts)
          (RoundStarted (cIdx c) p (s.stopDiagnostics (cIdx c))) s))
    ∧ (∀ p, s.port? (cIdx c) = some p → p.state ≠ .disabled → p.state ≠ .test →
        TakesEffect 0x302 c [] (fun _ => True) s)
    ∧ (Ready specPortDisable c s = true → Does 0x303 c [] (.ports :: .lanes :: .armed :: .freeCtr :: eventParts) (fun t =>
        PortIs (cIdx c) (fun p => { p.roundTold with
          state := .disabled, fallbackUp := false, lossAt := none, lossSignal := false, lossAlign := false }) s t
        ∧ (∀ a ∈ t.proto.armed, a.key ≠ keyOf 0x302 c) ∧ (∀ a ∈ s.proto.armed, a.key ≠ keyOf 0x302 c → a ∈ t.proto.armed)
        ∧ ∀ p, s.port? (cIdx c) = some p → RoundTold (cIdx c) p s t
          ∧ (∀ l ∈ p.lanes (cIdx c), l < 384 → t.lane l = { s.lane l with loopback := 0, generator := 0, checker := 0, locked := false })
          ∧ ∀ l, l ∉ p.lanes (cIdx c) → t.lane l = s.lane l) s (exec (.portDisable c) s))
    ∧ (Ready specPortRestart c s = true → ∀ p, s.port? (cIdx c) = some p →
        Does 0x304 c [] (.ports :: .lanes :: .armed :: .freeCtr :: eventParts) (fun t => RoundStarted (cIdx c) p s t ∧ RoundTold (cIdx c) p s t
          ∧ ∀ a ∈ t.proto.armed, a.key ≠ keyOf 0x302 c) s (exec (.portRestart c) s))
    ∧ (Ready specPortTest c s = true → Arms 0x302 0x305 c s (exec (.portTest c) s))
    ∧ (∀ p, s.port? (cIdx c) = some p → TakesEffect 0x305 c (.ports :: .lanes :: .freeCtr :: eventParts) (fun t =>
        PortIs (cIdx c) (fun p => { p.roundTold with
          state := .test, fallbackUp := false, lossAt := none, lossSignal := false, lossAlign := false }) s t
        ∧ RoundTold (cIdx c) p s t
        ∧ (∀ l ∈ p.lanes (cIdx c), l < 384 → s.laneRuns l = false → t.lane l = (s.lane l).begun s.power.braceEffect)
        ∧ ∀ l, l ∉ p.lanes (cIdx c) ∨ s.laneRuns l = true → t.lane l = s.lane l) s)
    ∧ (s.port? (cIdx c) = none → TakesEffect 0x305 c [] (fun _ => True) s)
    ∧ (Ready specPortTrainSet c s = true → Does 0x306 c [] [.ports] (PortIs (cIdx c) (fun p => { p with
        trainFixed := some (cw c 1 == 1), trainTimeout := cw c 2, fallbackEn := cw c 3 == 1, fallbackTx := ffeTaps c 4
        trainHoldoff := cw c 7, retrainNext := some (cw c 8) }) s) s (exec (.portTrainSet c) s))
    ∧ (Ready specPortTxFfe c s = true → Does 0x307 c [] [.ports] (PortIs (cIdx c)
        (fun p => { p with ffeNext := ffeTaps c 1 }) s) s (exec (.portTxFfe c) s))
    ∧ (Ready specPortDefectSet c s = true → Does 0x309 c [] [.ports] (PortIs (cIdx c)
        (fun p => { p with degNext := some (cw c 1, cw c 2) }) s) s (exec (.portDefectSet c) s))
    ∧ (Ready specPortStatus c s = true → ∀ p, s.port? (cIdx c) = some p → Reports 0x30A c
        ([Config.portStateWord p.state.code p.fallbackUp] ++ w1 (bitmapOf (p.present.map clientOrd))
          ++ w1 (bitmapOf (p.reported.map clientOrd)) ++ wi p.rxDelay ++ wi p.txDelay
          ++ [Config.portResultWord p.lastOutcome p.lastAttempts]) s (exec (.portStatus c) s))

/-- The lane commands and HOST_CLK_SET (R263, R268, R281 to R283). -/
def Obligations.LaneCommands : Prop :=
  ∀ (c : Cmd) (s : State),
    (Ready specLaneSet c s = true → Does 0x311 c [] [.lanes] (LaneIs (cIdx c) (fun h => { h with
        invertNext := some (bit (cw c 1) 1, bit (cw c 1) 0), tdFloorNext := some (cw c 2) }) s) s (exec (.laneSet c) s))
    ∧ (Ready specLaneLoopback c s = true → Arms 0x312 0x312 c s (exec (.laneLoopback c) s))
    ∧ (Ready specLanePrbsSet c s = true → Arms 0x313 0x313 c s (exec (.lanePrbsSet c) s))
    ∧ (cIdx c < 384 → s.laneFree (cIdx c) = true →
      ∀ f : HostLane → HostLane,
      (f = (fun h => { h with loopback := cw c 1 }) → TakesEffect 0x312 c (.lanes :: eventParts) (LaneIs (cIdx c) (fun h =>
        if !s.laneRuns (cIdx c) && (h.given f s.ticks).busy then (h.given f s.ticks).begun s.power.braceEffect else h.given f s.ticks) s) s)
      ∧ (f = (fun h => { h with generator := cw c 1, checker := cw c 2, locked := h.locked && h.checker == cw c 2 }) →
        TakesEffect 0x313 c (.lanes :: eventParts) (LaneIs (cIdx c) (fun h =>
        if !s.laneRuns (cIdx c) && (h.given f s.ticks).busy then (h.given f s.ticks).begun s.power.braceEffect else h.given f s.ticks) s) s))
    ∧ (s.laneFree (cIdx c) = false → TakesEffect 0x312 c [] (fun _ => True) s ∧ TakesEffect 0x313 c [] (fun _ => True) s)
    ∧ (Ready specLanePrbsStatus c s = true → Reports 0x314 c
        ([Config.prbsPatternWord (s.lane (cIdx c)).generator (s.lane (cIdx c)).checker] ++ w1 (b2n (s.lane (cIdx c)).locked)) s
        (exec (.lanePrbsStatus c) s))
    ∧ (Ready specHostClkSet c s = true → Arms 0x310 0x310 c s (exec (.hostClkSet c) s))
    ∧ (cIdx c < 4 → TakesEffect 0x310 c (.htiles :: .lanes :: eventParts) (fun t =>
        t.htile (cIdx c) = { s.htile (cIdx c) with syntonised := cw c 1 == 1 } ∧ (∀ q, q ≠ cIdx c → t.htile q = s.htile q)
        ∧ (∀ l, l / 96 = cIdx c → l < 384 → t.lane l = { (if (s.lane l).busy then (s.lane l).begun s.power.braceEffect else s.lane l) with
            locked := false, generatedFrom := s.ticks })
        ∧ ∀ l, l / 96 ≠ cIdx c → t.lane l = s.lane l) s)

/-- The training of a port (R275 to R279). -/
def Obligations.PortTraining : Prop :=
  ∀ (n : Fin 384) (s : State) (p : Port), s.port? n = some p →
    (∀ slow : Nat, p.state = .training → p.round.started + 625 * p.round.timeout ≤ s.ticks →
      (∀ l, Happens (.ports :: .lanes :: .freeCtr :: eventParts) (AttemptFailed n 1 l p s) s (exec (.trainTimeoutExpiry n (some l) slow) s))
      ∧ Happens (.ports :: .lanes :: .freeCtr :: eventParts) (AttemptFailed n 3 slow p s) s (exec (.trainTimeoutExpiry n none slow) s))
    ∧ (∀ lane, p.state = .training → p.round.started + 1250 ≤ s.ticks → s.ticks ≤ p.round.started + 625 * p.round.timeout →
      Happens (.ports :: .lanes :: .freeCtr :: eventParts) (AttemptFailed n 2 lane p s) s (exec (.partnerLostTimer n lane) s))
    ∧ (∀ lane, p.state = .aligning → p.round.alignStart + 62500 ≤ s.ticks →
      Happens (.ports :: .lanes :: .freeCtr :: eventParts) (AttemptFailed n 4 lane p s) s (exec (.alignTimeout n lane) s))
    ∧ (∀ x : Trained, x.port = n → p.state = .training → p.round.started ≤ s.ticks → s.ticks ≤ p.round.started + 625 * p.round.timeout →
      Happens [.ports, .lanes] (fun t => PortIs n (fun p => { p with
          state := .aligning, round := { p.round with alignStart := s.ticks } }) s t
        ∧ (∀ l, l ∉ p.lanes n → t.lane l = s.lane l)
        ∧ ∀ i, i < laneCount p.ty p.fast → n.val + i < 384 → t.lane (n.val + i) = { s.lane (n.val + i) with
            txFfe := (x.requests.getD i []).foldl (CoefRequest.apply p.fast) p.ffe }
          ∧ (ffeOk p.ffe = true → ffeOk (t.lane (n.val + i)).txFfe = true)) s (exec (.linkTrainingComplete x) s))
    ∧ (p.state = .aligning → s.ticks ≤ p.round.alignStart + 62500 → Happens (.ports :: .freeCtr :: eventParts) (fun t => (∀ q, q ≠ n.val → t.port? q = s.port? q)
        ∧ (∃ q, t.port? n = some q ∧ q.state = .up ∧ q.fallbackUp = p.round.fallback ∧ q.lossAt = none)
        ∧ ∃ w, Raised .trainResult .port n (w1 (if p.round.fallback then 2 else if p.round.fixed then 1 else 0)
            ++ w1 p.round.attempts ++ (p.round.causes.map w1).flatten ++ w1 w) s.tn t) s (exec (.pcsAligned n) s))
    ∧ (p.state = .up → (∀ x, p.lossAt = some x → s.ticks ≤ x + 625 * p.retrainHold) →
      Happens [.ports] (PortIs n (fun p => { p with lossAt := none, lossSignal := false, lossAlign := false }) s) s
        (exec (.pcsAligned n) s))
    ∧ (∀ signal, p.state = .up → Happens [.ports] (PortIs n (fun p => { p with
        lossAt := some (p.lossAt.getD s.ticks), lossSignal := signal, lossAlign := true }) s) s
        (exec (.pcsAlignmentLoss n signal) s))
    ∧ (p.state = .holdoff → p.round.holdFor ≠ 0 → p.round.holdStart + 625000 * p.round.holdFor ≤ s.ticks →
      s.clocked n = true →
      Happens (.ports :: .lanes :: .freeCtr :: eventParts) (RoundStarted n p s) s (exec (.trainHoldoffExpiry n) s))
    ∧ (∀ t0, p.state = .up → p.lossAt = some t0 → t0 + 625 * p.retrainHold ≤ s.ticks →
      Happens (.ports :: .lanes :: .freeCtr :: eventParts) (RoundStarted n p s) s (exec (.retrainHoldExpiry n) s))

/-- Host clocking, lane adaptation, checkers and the frame tap (R269, R273, R274, R283, R288 to R291). -/
def Obligations.HostSideHappenings : Prop :=
  (∀ (k : Fin 4) (s : State),
    ((s.htile k).refclk = true → (s.htile k).syntonised = false →
      Happens (.htiles :: .ports :: .lanes :: .freeCtr :: eventParts) (fun t => t.htile k = { s.htile k with refclk := false }
        ∧ (∀ q, q ≠ k.val → t.htile q = s.htile q)
        ∧ (∀ n p, s.port? n = some p → n / 96 = k → p.state ≠ .disabled → ∃ q, t.port? n = some q ∧ q.state = .holdoff
            ∧ q.round.holdStart = s.ticks ∧ q.round.holdFor = p.trainHoldoff
            ∧ RoundTold n p s t)
        ∧ (∀ l, (∀ n p, s.port? n = some p → n / 96 = k → l ∉ p.lanes n) → t.lane l = s.lane l)
        ∧ (∀ n, n / 96 ≠ k → t.port? n = s.port? n) ∧ Raised .hostRefclkLoss .hostTile k (w2 s.tn) s.tn t) s
        (exec (.hostRefclkLoss k) s))
    ∧ ((s.htile k).refclk = false → (s.htile k).syntonised = false →
      Happens (.htiles :: eventParts) (fun t => t.htile k = { s.htile k with refclk := true }
        ∧ (∀ q, q ≠ k.val → t.htile q = s.htile q) ∧ Raised .hostRefclkOk .hostTile k (w2 s.tn) s.tn t) s (exec (.hostRefclkOk k) s)))
  ∧ (∀ (l : Fin 384) (s : State),
    (∀ (changes : Nat) (w : LaneWindow), s.laneRuns l = true →
      (changes < (s.lane l).tdFloor * 1024 → Happens (.lanes :: eventParts) (fun t => (∀ q, q ≠ l.val → t.lane q = s.lane q)
        ∧ (t.lane l).shortHold = true ∧ (t.lane l).goodWindows = 0 ∧ Counted .hlFreezeWindows .hostLane l 1 t
        ∧ ((s.lane l).shortHold = true ∨ (s.lane l).braceHold = true → (t.lane l).rxFfe = (s.lane l).rxFfe
          ∧ (t.lane l).dfe = (s.lane l).dfe ∧ (t.lane l).ctle = (s.lane l).ctle ∧ (t.lane l).cdrFreq = (s.lane l).cdrFreq)
        ∧ ((s.lane l).shortHold = false → (s.lane l).braceHold = false → Raised .hlFreeze .hostLane l (w1 0 ++ w2 s.tn) s.tn t)) s
        (exec (.hlAdaptWindowEnd l changes w) s))
      ∧ ((s.lane l).tdFloor * 1024 ≤ changes → (∃ n ∈ w.levels, n < 1024) → Happens (.lanes :: eventParts) (fun t =>
        (∀ q, q ≠ l.val → t.lane q = s.lane q) ∧ (t.lane l).shortHold = true ∧ Counted .hlFreezeWindows .hostLane l 1 t
        ∧ ((s.lane l).shortHold = false → (s.lane l).braceHold = false → Raised .hlFreeze .hostLane l (w1 1 ++ w2 s.tn) s.tn t)) s
        (exec (.hlAdaptWindowEnd l changes w) s))
      ∧ (((s.lane l).tdFloor + 1) * 1024 ≤ changes → (∀ n ∈ w.levels, 2048 ≤ n) → (s.lane l).shortHold = true →
        Happens (.lanes :: eventParts) (fun t => (∀ q, q ≠ l.val → t.lane q = s.lane q)
          ∧ (t.lane l).goodWindows = (s.lane l).goodWindows + 1
          ∧ (t.lane l).shortHold = decide ((s.lane l).goodWindows < 3)
          ∧ (3 ≤ (s.lane l).goodWindows → (s.lane l).braceHold = false →
            Raised .hlThaw .hostLane l (w1 ((s.lane l).heldWindows + 1) ++ w2 s.tn) s.tn t)) s
          (exec (.hlAdaptWindowEnd l changes w) s)))
    ∧ ((s.lane l).checker ≠ 0 → (s.lane l).locked = false → s.patternHeard l = true →
      Happens [.lanes] (LaneIs l (fun h => { h with locked := true, lockedInside := true }) s) s (exec (.prbsCheckerLock l) s))
    ∧ (∀ symbols bits : Nat, (s.lane l).checker ≠ 0 → (s.lane l).locked = true → (s.lane l).lockedInside = true →
      Happens [.lanes, .happened, .freeCtr] (fun t => (∀ q, q ≠ l.val → t.lane q = s.lane q) ∧ (t.lane l).lockedInside = false) s
        (exec (.prbsCheckWindow l symbols bits) s))
    ∧ (∀ symbols bits : Nat, (s.lane l).checker ≠ 0 → (s.lane l).locked = true → bits ≠ 0 → (s.lane l).lockedInside = false →
      ((s.lane l).loopback = 2 → (s.lane l).generator ≠ (s.lane l).checker) →
      Happens [.lanes, .happened] (fun t => LaneIs l (fun h => { h with locked := decide (symbols ≤ 8192) }) s t
        ∧ Counted .prbsBits .hostLane l 131072 t ∧ Counted .prbsErr .hostLane l bits t
        ∧ (8192 < symbols → Counted .prbsLockLost .hostLane l 1 t)) s (exec (.prbsCheckWindow l symbols bits) s)))
  ∧ ∀ (n : Fin 384) (s : State) (p : Port), s.port? n = some p →
    (∀ (esmc : Bool) (octets fcs : List Octet) (blocks : List Nat) (sub : Nat), p.state = .up → p.tapClass octets = some esmc →
      (if esmc then p.tap.esmc else p.tap.ptp) = true →
      (fcsOk octets fcs = false → Happens [.ports, .happened] (fun t =>
        PortIs n (fun p => { p with data := { p.data with tapped := p.data.tapped ++ blocks } }) s t ∧ Counted .tapFcsErr .port n 1 t) s
        (exec (.tapFrameRx n octets fcs blocks sub) s))
      ∧ (fcsOk octets fcs = true → p.tap.second = s.taiSecond → ofClass esmc p.tap.accepted < 512 → (s.htile (n / 96)).waiting.length < 1024 →
        Happens [.ports, .htiles] (fun t => PortIs n (fun p => { p with
              tap := { p.tap with accepted := bumpClass esmc p.tap.accepted }
              data := { p.data with tapped := p.data.tapped ++ blocks } }) s t
          ∧ t.htile (n / 96) = { s.htile (n / 96) with
              waiting := (s.htile (n / 96)).waiting ++ [(n.val, esmc, octets, s.taiAt s.tn + sub - p.rxDelay)] }
          ∧ ∀ q, q ≠ n / 96 → t.htile q = s.htile q) s (exec (.tapFrameRx n octets fcs blocks sub) s))
      ∧ (fcsOk octets fcs = true → p.tap.second = s.taiSecond → 512 ≤ ofClass esmc p.tap.accepted ∨ 1024 ≤ (s.htile (n / 96)).waiting.length →
        Happens [.ports, .happened] (fun t =>
          PortIs n (fun p => { p with
            tap := { p.tap with dropped := bumpClass esmc p.tap.dropped }
            data := { p.data with tapped := p.data.tapped ++ blocks } }) s t
          ∧ Counted .tapRxDrop .port n 1 t) s
          (exec (.tapFrameRx n octets fcs blocks sub) s)))
    ∧ (∀ f rest, p.tap.queue = f :: rest → p.tap.insertWait * 625 < (s.ticks - f.queuedAt) * 10 →
      Happens (.ports :: eventParts) (fun t =>
        PortIs n (fun p => { p with tap := { p.tap with queue := rest, lastDiscard := some s.ticks } }) s t
        ∧ Counted .tapTxDrop .port n 1 t) s (exec (.tapInsertTimeout n) s))

/-- The commands of the time core (R294 to R314, Table 1.3). -/
def Obligations.TimeCommands : Prop :=
  ∀ (c : Cmd) (s : State),
    (Ready specTimeStatus c s = true → Reports 0x400 c
      (w1 (s.time.snap.seq * 65536 + s.timeFlags + s.time.snap.flags % 2) ++ w1 (srcWord s.time.selected)
        ++ w1 ((List.range 4).foldl (fun n i => n + (((s.time.candidates[i]?).map (fun x => x.st.code)).getD 3) * 4 ^ i) 0)
        ++ w2 (if s.time.timeValid then ((s.time.uncertNow s.ticks + 65535) / 65536).toNat else 2 ^ 64 - 1)
        ++ wi s.time.freqCtrl ++ wi s.kennel.settings.utcOffset ++ w2 s.kennel.settings.leapAt) s (exec (.timeStatus c) s))
    ∧ (Ready specTimeSourceSet c s = true →
      Does 0x401 c [] (.time :: .settings :: .realign :: .tnProvisional :: eventParts) (fun t =>
        t.time.candidates = (candsOf s c).map (fun x => (s.cand? x).getD
          { src := x, st := .disqualified, since := s.ticks, qualifiedAt := 0, qualTime := s.time.params.qualTime
            wtr := s.time.params.wtr })
        ∧ (candsOf s c = [] → t.time.selected = none ∧ t.time.state = .freerun)) s (exec (.timeSourceSet c) s))
    ∧ (Ready specTimeParamSet c s = true → Does 0x402 c [] [.time] (fun t => t.time = { s.time with
        params := { ki := cw c 1, slewMax := cw c 2, stepPolicy := cw c 3, stepThresh := cw c 4, lockPhase := cw c 5
                    qualTime := cw c 6, revertive := cw c 7, wtr := cw c 8, holdoverAvg := cw c 9, holdoverTrace := cw c 10
                    utcSource := cw c 11 } }) s (exec (.timeParamSet c) s))
    ∧ (Ready specTimeSet c s = true → Arms 0x403 0x403 c s (exec (.timeSet c) s))
    ∧ TakesEffect 0x403 c (.time :: .tickOffset :: .settings :: .engines :: eventParts) (fun t =>
        t.nowTai = ofStamp96 (cStamp c) ∧ t.time.timeValid = true ∧ t.time.traceable = false ∧ t.time.slew = 0
        ∧ t.time.stepDue = none ∧ t.time.meas = none
        ∧ Raised .timeStep .device 0 (wi2 (ofStamp96 (cStamp c) - s.nowTai) ++ w2 s.tn) s.tn t
        ∧ ∀ e, t.eng e = s.eng e ∨ t.eng e = { s.eng e with ltt := { (s.eng e).ltt with voidNow := true } }) s
    ∧ (Ready specTimeUtcSet c s = true → Does 0x404 c [] (.settings :: eventParts) (fun t =>
        t.kennel.settings = { s.kennel.settings with
          utcOffset := cz c 1, leapAt := cw2 c 2, leapDir := cz c 4 }
        ∧ (s.kennel.settings.utcOffset ≠ cz c 1 ∨ s.kennel.settings.leapAt ≠ cw2 c 2 ∨ s.kennel.settings.leapDir ≠ cz c 4 → Raised .utcChange .device 0 (wi s.kennel.settings.utcOffset
            ++ wi s.kennel.settings.leapDir ++ w2 s.kennel.settings.leapAt ++ wi (cz c 1) ++ wi (cz c 4) ++ w2 (cw2 c 2) ++ w1 0) s.tn t)) s
        (exec (.timeUtcSet c) s))
    ∧ (Ready specTimeOscSet c s = true → Begins 0x405 c [.time] (fun t =>
        t.time = { s.time with oscNext := cw c 1, relockAt := some (s.ticks + 6250) }) s (exec (.timeOscSet c) s))
    ∧ (Ready specTimeEpochForce c s = true →
      Does 0x406 c [] (.realign :: .settings :: .tnProvisional :: eventParts) (fun t =>
        (s.kennel.settings.epochSet = false → s.anyTraffic = true → t.kennel.settings.epochSet = true
          ∧ t.kennel.settings.epochTai = s.tickOffset ∧ t.tnProvisional = false ∧ Raised .tickEpochSet .device 0 [] s.tn t
          ∧ t.realign = s.realign)
        ∧ (s.kennel.settings.epochSet = true ∨ s.anyTraffic = false → t.kennel.settings = s.kennel.settings
          ∧ t.realign = some (s.realignAt .force s.kennel.settings.epochSet))) s
        (exec (.timeEpochForce c) s))
    ∧ (Ready specTimePpsInSet c s = true → Does 0x407 c [] [.time] (fun t =>
        (t.ppsIn (cSub c)).falling = (cw c 1 == 1) ∧ (t.ppsIn (cSub c)).delay = sx 64 (cw2 c 2) ∧ (t.ppsIn (cSub c)).gate = cw c 4
        ∧ (t.ppsIn (cSub c)).last = none ∧ (t.todIn (cSub c)).windowed = false ∧ (t.todIn (cSub c)).baud = (s.todIn (cSub c)).baud
        ∧ t.time = { s.time with pps := t.time.pps, tod := t.time.tod }
        ∧ ∀ n, n ≠ cSub c → t.ppsIn n = s.ppsIn n ∧ t.todIn n = s.todIn n) s (exec (.timePpsInSet c) s))
    ∧ (Ready specTimePpsOutSet c s = true → Does 0x408 c [] [.time] (fun t =>
        vget t.time.ppsOut (cSub c) PpsOut.reset = { vget s.time.ppsOut (cSub c) PpsOut.reset with
          next := some ({ enable := cw c 1 == 1, activeLow := cw c 2 == 1, width := cw c 3, delay := sx 64 (cw2 c 4)
                          always := cw c 6 == 0 }, s.nowTai / secondUnits + 1) }
        ∧ t.time = { s.time with ppsOut := t.time.ppsOut }
        ∧ ∀ n, n ≠ cSub c → vget t.time.ppsOut n PpsOut.reset = vget s.time.ppsOut n PpsOut.reset) s (exec (.timePpsOutSet c) s))
    ∧ (Ready specTimeTodSet c s = true → Does 0x409 c [] [.time] (fun t =>
        (cSub c = 2 → t.time = { s.time with todOut := { s.time.todOut with baud := cw c 1 } })
        ∧ (cSub c < 2 → (t.todIn (cSub c)).baud = cw c 1 ∧ (t.todIn (cSub c)).windowed = false ∧ (t.todIn (cSub c)).last = none
          ∧ t.time = { s.time with tod := t.time.tod } ∧ ∀ n, n ≠ cSub c → t.todIn n = s.todIn n)) s (exec (.timeTodSet c) s))

/-- The servo, its state machine and its registers (R294 to R316). -/
def Obligations.TimeServo : Prop :=
  ∀ s : State,
    (∀ x e, s.time.meas = some (x, e) → s.time.selected = some x → s.time.state = .acquiring ∨ s.time.state = .locked →
      Happens (.time :: .settings :: .realign :: .tnProvisional :: eventParts) (fun t =>
        t.time.meas = none ∧ t.time.timeValid = true ∧ t.time.uncert = e.natAbs
        ∧ (nsUnits s.time.params.stepThresh < e.natAbs → s.time.mayStep = true → t.time.stepDue = some e ∧ t.time.slew = 0)
        ∧ (e.natAbs ≤ nsUnits s.time.params.stepThresh ∨ s.time.mayStep = false → t.time.stepDue = none ∧ t.time.slew = -e)
        ∧ (s.time.state = .acquiring → nsUnits s.time.params.lockPhase < e.natAbs → t.time.state = .acquiring ∧ t.time.goodRun = 0)
        ∧ (s.time.state = .acquiring → e.natAbs ≤ nsUnits s.time.params.lockPhase → t.time.freqLimit = false → (s.time.goodRun = 15 → t.time.state = .locked
              ∧ Raised .timeState .device 0 (w1 1 ++ w1 2 ++ w2 s.tn) s.tn t)
            ∧ (s.time.goodRun ≠ 15 → t.time.state = .acquiring ∧ t.time.goodRun = s.time.goodRun + 1))
        ∧ (s.time.state = .locked → 4 * nsUnits s.time.params.lockPhase < e.natAbs →
          (s.time.badRun = 3 → t.time.state = .acquiring ∧ Raised .timeState .device 0 (w1 2 ++ w1 1 ++ w2 s.tn) s.tn t)
          ∧ (s.time.badRun ≠ 3 → t.time.state = .locked ∧ t.time.badRun = s.time.badRun + 1))
        ∧ (s.time.state = .locked → e.natAbs ≤ 4 * nsUnits s.time.params.lockPhase → t.time.state = .locked ∧ t.time.badRun = 0)) s
        (exec .timeMeasurement s))
    ∧ (∀ e, s.time.stepDue = some e → s.time.measAt < s.ticks → Happens (.time :: .tickOffset :: .settings :: .engines :: eventParts) (fun t =>
        t.tickOffset = s.tickOffset - e ∧ t.time.stepDue = none ∧ t.time.slew = 0 ∧ t.time.todOut.stepped = true
        ∧ Raised .timeStep .device 0 (wi2 (-e) ++ w2 s.tn) s.tn t) s (exec .timeStep s))
    ∧ (∀ (i : Fin 4) (x : Candidate), s.time.candidates[i.val]? = some x → s.cand? x.src = some x → x.st = .qualifying →
      x.since + x.qualTime * 625000 ≤ s.ticks →
      Happens (.time :: .settings :: .realign :: .tnProvisional :: eventParts) (fun t =>
        t.cand? x.src = some { x with st := .qualified, since := s.ticks, qualifiedAt := s.ticks }
        ∧ Raised .sourceQual .device 0 (w1 x.src.word ++ w1 2 ++ w1 8) s.tn t
        ∧ (s.time.selected = none → t.time.selected ≠ none)) s (exec (.sourceQualified i) s))
    ∧ (∀ x y, s.time.selected = some x →
      (s.time.candidates.filter (fun z => z.st == .qualified)).any (fun z => decide (z.src = x)) = true →
      (s.time.candidates.takeWhile (fun z => decide (some z.src ≠ s.time.selected))).find? (fun z => z.st == .qualified
        && s.time.params.revertive == 1 && decide (z.qualifiedAt + z.wtr * 625000 ≤ s.ticks)) = some y →
      Happens (.time :: .settings :: .realign :: .tnProvisional :: eventParts) (fun t => t.time.selected = some y.src
        ∧ t.time.state = .acquiring ∧ t.time.candidates = s.time.candidates
        ∧ Raised .timeSourceChange .device 0 (w1 x.word ++ w1 y.src.word ++ w2 s.tn) s.tn t) s (exec .wtrExpiry s))
    ∧ (∀ u, s.time.traceUntil = some u → u ≤ s.ticks → Happens [.time] (fun t => t.time.traceUntil = none
        ∧ (s.time.state ≠ .locked → t.time.traceable = false) ∧ t.time.state = s.time.state) s (exec .holdoverTraceExpiry s))
    ∧ (s.kennel.settings.leapAt ≠ 0 → (s.kennel.settings.leapAt : Int) * secondUnits ≤ s.nowTai →
      Happens (.settings :: eventParts) (fun t =>
        t.kennel.settings = { s.kennel.settings with
          utcOffset := s.kennel.settings.utcOffset + s.kennel.settings.leapDir, leapAt := 0 }
        ∧ Raised .leapApplied .device 0 (wi (s.kennel.settings.utcOffset + s.kennel.settings.leapDir)) s.tn t) s (exec .leapApplied s))
    ∧ (s.time.oscLost = false → Happens (.time :: .power :: eventParts) (fun t => t.time.oscLost = true ∧ t.time.traceable = false
        ∧ t.time.freqTraceable = false ∧ t.time.applied = s.time.applied ∧ t.power = { s.power with ocxo := false }
        ∧ Raised .oscLoss .device 0 (w2 s.tn) s.tn t) s (exec .oscLoss s))
    ∧ (s.time.oscLost = true → Happens (.time :: .power :: eventParts) (fun t => t.time.oscLost = false
        ∧ t.power = { s.power with ocxo := true } ∧ Raised .oscOk .device 0 (w2 s.tn) s.tn t) s (exec .oscOk s))
    ∧ (∀ k, s.time.relockAt = some k → k ≤ s.ticks →
      Happens [.time, .jobs, .responses, .queueRegs, .msix, .alertN] (fun t =>
        t.time = { s.time with relockAt := none, oscFreq := s.time.oscNext }
        ∧ ∀ j ∈ s.proto.jobs, j.ticket.opcode = 0x405 → Ended j .ok 0 s.tn [] t) s (exec .oscRelockDone s))
    ∧ (∀ trim : Int, s.time.state = .locked → s.nowTai - s.nowTai / secondUnits * secondUnits < tickUnits →
      Happens [.kennelRest, .settings] (fun t => t.kennel.rtc = s.nowTai / secondUnits * secondUnits ∧ t.kennel.rtcKept = true
        ∧ t.kennel.settings = { s.kennel.settings with rtcTrim := trim }) s (exec (.kennelRtcUpdate trim) s))
    ∧ (s.mapOpen = true → Happens [.time] (fun t => t.time.snap.req = true ∧ t.time = { s.time with snap := t.time.snap }
        ∧ (s.time.snap.req = false → t.time.snap = { s.time.snap with req := true, reqAt := s.ticks })) s (exec .timeSnapReq s))
    ∧ (∀ u, u = s.stepNow → s.time.snap.req = true → s.time.snap.reqAt < s.ticks →
      Happens (.time :: .tickOffset :: .settings :: .engines :: eventParts) (fun t => t.tickOffset = u.tickOffset ∧ t.time = { u.time with
        snap := { req := false, reqAt := s.time.snap.reqAt, seq := (s.time.snap.seq + 1) % 65536, flags := u.timeFlags + 1, tn := s.tn
                  offset := stamp96 u.tickOffset, freq := roundDiv u.time.applied 10240 } }) s (exec .timeSnapshotCapture s))
    ∧ (s.time.stepDue = none → s.time.snap.req = true → s.time.snap.reqAt < s.ticks → Happens [.time] (fun t => t.time = { s.time with
        snap := { req := false, reqAt := s.time.snap.reqAt, seq := (s.time.snap.seq + 1) % 65536, flags := s.timeFlags + 1, tn := s.tn
                  offset := stamp96 s.tickOffset, freq := roundDiv s.time.applied 10240 } }) s (exec .timeSnapshotCapture s))

/-- The PPS and ToD lines (R305, R310 to R314). -/
def Obligations.PpsAndTod : Prop :=
  (∀ (n : Fin 2) (sub : Nat) (s : State) (stamp : Int), stamp = s.nowTai + sub + (s.ppsIn n).delay →
    (s.gated n = true → nsUnits (s.ppsIn n).gate < (stamp - nearestSecond stamp).natAbs →
      Happens (.time :: .settings :: .realign :: .tnProvisional :: eventParts) (fun t => (t.ppsIn n).last = some stamp
        ∧ (t.ppsIn n).outRun = (s.ppsIn n).outRun + 1 ∧ Counted .ppsOutliers .device n 1 t
        ∧ (2 ≤ (s.ppsIn n).outRun → ∀ x, s.cand? (.pps n) = some x → ∃ y, t.cand? (.pps n) = some y ∧ y.st = .disqualified)) s
        (exec (.ppsInPulse n sub) s))
    ∧ (∀ y at0, s.gated n = false ∨ (stamp - nearestSecond stamp).natAbs ≤ nsUnits (s.ppsIn n).gate →
      (s.todIn n).waiting = some (y, at0) → ((stamp - at0).natAbs : Int) * 2 < secondUnits →
      s.time.selected = some (.pps n) → (s.cand? (.pps n)).any (fun x => x.st == .qualified) = true →
      Happens [.time] (fun t => t.time.meas = some (.pps n, stamp - (y.sec : Int) * secondUnits) ∧ t.time.quality = y.quality
        ∧ (t.ppsIn n).last = some stamp ∧ (t.ppsIn n).silentRun = 0 ∧ (t.todIn n).waiting = none) s (exec (.ppsInPulse n sub) s))
    ∧ (s.gated n = false ∨ (stamp - nearestSecond stamp).natAbs ≤ nsUnits (s.ppsIn n).gate → (s.todIn n).waiting = none →
      Happens (.time :: .settings :: .realign :: .tnProvisional :: eventParts) (fun t => (t.ppsIn n).last = some stamp
        ∧ (t.ppsIn n).silentRun = (s.ppsIn n).silentRun + 1
        ∧ (2 ≤ (s.ppsIn n).silentRun → ∀ x, s.cand? (.pps n) = some x → ∃ y, t.cand? (.pps n) = some y ∧ y.st = .disqualified)) s
        (exec (.ppsInPulse n sub) s)))
  ∧ (∀ (n : Fin 2) (s : State) (last due : Int), (s.ppsIn n).last = some last → s.gated n = true →
    due = (s.taiAt (s.tn + 1) - nsUnits (s.ppsIn n).gate) / secondUnits * secondUnits → last + secondUnits / 2 ≤ due →
    (s.ppsIn n).missedAt = none →
    Happens (.time :: .settings :: .realign :: .tnProvisional :: eventParts) (fun t => (t.ppsIn n).missedAt = some due
      ∧ (t.ppsIn n).missRun = (s.ppsIn n).missRun + 1
      ∧ (1 ≤ (s.ppsIn n).missRun → ∀ x, s.cand? (.pps n) = some x → ∃ y, t.cand? (.pps n) = some y ∧ y.st = .disqualified)) s
      (exec (.ppsMissing n) s))
  ∧ (∀ (n : Fin 2) (line : List Octet) (sub : Nat) (s : State), line.take 6 = ctodHead →
    (72 < line.length ∨ sentenceOf line = none → Happens [.happened] (fun t => Counted .todInErr .device n 1 t) s
      (exec (.todSentenceRx n line sub) s))
    ∧ (∀ y start base, line.length ≤ 72 → sentenceOf line = some y →
      start = s.nowTai + sub - ((line.length + 2) * 10 * secondUnits) / (s.todIn n).baud →
      base = ((s.ppsIn n).last.getD 0) + (s.nowTai + sub - (s.ppsIn n).last.getD 0) / secondUnits * secondUnits →
      ((s.todIn n).windowed = false ∨ (s.ppsIn n).last = none ∨ start < base + secondUnits / 100
          ∨ base + secondUnits * 9 / 10 < s.nowTai + sub →
        Happens [.happened] (fun t => Counted .todInLate .device n 1 t) s (exec (.todSentenceRx n line sub) s))
      ∧ ((s.todIn n).windowed = true → (s.ppsIn n).last ≠ none → base + secondUnits / 100 ≤ start →
          s.nowTai + sub ≤ base + secondUnits * 9 / 10 →
        Happens (.time :: .settings :: .realign :: .tnProvisional :: eventParts) (fun t =>
          (t.todIn n).waiting = some (y, base + secondUnits) ∧ (t.todIn n).last = some (y.sec, base + secondUnits)) s
          (exec (.todSentenceRx n line sub) s))))
  ∧ (∀ (n : Fin 4) (s : State) (o : PpsOut) (w : Int), o = vget s.time.ppsOut n PpsOut.reset →
    w = nearestSecond s.nowTai / secondUnits → o.second < w → s.nowTai ≤ w * secondUnits - (o.at w).cfg.delay →
    w * secondUnits - (o.at w).cfg.delay < s.taiAt (s.tn + 1) →
    Happens [.time] (fun t => (vget t.time.ppsOut n PpsOut.reset).second = w
      ∧ (((o.at w).cfg.enable = true ∧ s.time.timeValid = true ∧ ((o.at w).cfg.always = true ∨ s.time.traceable = true)) →
        (vget t.time.ppsOut n PpsOut.reset).emitted = some (w * secondUnits - (o.at w).cfg.delay))
      ∧ ((o.at w).cfg.enable = false ∨ s.time.timeValid = false → (vget t.time.ppsOut n PpsOut.reset).emitted = o.emitted)
      ∧ ∀ k, k ≠ n.val → vget t.time.ppsOut k PpsOut.reset = vget s.time.ppsOut k PpsOut.reset) s (exec (.ppsOutPulse n) s))
  ∧ ∀ (s : State) (w : Int), w = s.nowTai / secondUnits → secondUnits * 3 / 10 ≤ s.nowTai - w * secondUnits →
    w + 1 ≠ s.time.todOut.second →
    Happens [.time] (fun t => t.time = { s.time with todOut := { s.time.todOut with
      line := s.todLine (w + 1), seq := (s.time.todOut.seq + 1) % 256, stepped := false, second := w + 1 } }) s (exec .todOutSentence s)

/-- The commands of line time transfer (R324 to R334). -/
def Obligations.TransferCommands : Prop :=
  ∀ (c : Cmd) (s : State),
    (Ready specLttSet c s = true → SetsEngine 0x410 c (fun g => { g with ltt := { g.ltt with
        intervalNext := if 625 * cw c 1 = g.ltt.interval then none else some (625 * cw c 1)
        minFillNext := cw c 2, maxSteps := cw c 3, allowClear := cw c 4 == 1, feNext := some (cw c 5, cw c 6)
        certNotify := cw c 7 == 1 } }) s (exec (.lttSet c) s))
    ∧ (Ready specLttStatus c s = true → Reports 0x411 c (w2 (s.ltt (cIdx c)).result.endTn ++ wi2 (s.ltt (cIdx c)).result.eps
        ++ wi2 (s.ltt (cIdx c)).result.rtd ++ w1 (s.ltt (cIdx c)).result.n ++ wi2 (s.ltt (cIdx c)).result.epsZero
        ++ w1 (b2n (s.ltt (cIdx c)).result.delivered + b2n (s.ltt (cIdx c)).result.void * 2)) s (exec (.lttStatus c) s))
    ∧ (Ready specEngineDelayCert c s = true → Reports 0x412 c (packOctets (s.ltt (cIdx c)).cert) s (exec (.engineDelayCert c) s))
    ∧ (Ready specCertDump c s = true →
      BeginsDma 0x413 c (some (((List.range 48).map (fun e => (s.ltt e).cert)).flatten)) s (exec (.certDump c) s))
    ∧ (Ready specAsymSet c s = true → Does 0x414 c [] (.settings :: eventParts) (fun t =>
        t.route (cIdx c) = { s.route (cIdx c) with fibreAsym := cz c 1, farFeSkew := cz c 2 }
        ∧ (∀ e, e ≠ cIdx c → t.route e = s.route e) ∧ t.kennel.settings = { s.kennel.settings with route := t.kennel.settings.route }
        ∧ Raised .asymChange .engine (cIdx c) (wi (cz c 1) ++ wi (cz c 2)) s.tn t) s (exec (.asymSet c) s))
    ∧ (Ready specAsymValidate c s = true → Does 0x415 c [] (.settings :: .engines :: eventParts) (fun t =>
        t.route (cIdx c) = { s.route (cIdx c) with
          fibreAsym := if cw c 1 = 1 then cz c 2 else (s.route (cIdx c)).fibreAsym
          farFeSkew := if cw c 1 = 1 then cz c 3 else (s.route (cIdx c)).farFeSkew
          cdRef := (s.ltt (cIdx c)).lastQual.1, cdTrk := (s.ltt (cIdx c)).lastQual.1 * 65536
          rtdRef := (s.ltt (cIdx c)).lastQual.2, rtdTrk := (s.ltt (cIdx c)).lastQual.2 * 65536, asymState := .valid }
        ∧ (∀ e, e ≠ cIdx c → t.route e = s.route e) ∧ OtherEngines (cIdx c) s t
        ∧ t.eng (cIdx c) = { s.eng (cIdx c) with ltt := { (s.eng (cIdx c)).ltt with routeFlags := 0 } }
        ∧ Raised .asymValidated .engine (cIdx c) (wi (t.route (cIdx c)).fibreAsym ++ wi (t.route (cIdx c)).farFeSkew) s.tn t) s
        (exec (.asymValidate c) s))
    ∧ (Ready specAsymClear c s = true →
      Does 0x416 c [] (.settings :: .time :: .realign :: .tnProvisional :: eventParts) (fun t =>
        t.route (cIdx c) = { s.route (cIdx c) with asymState := .unset } ∧ (∀ e, e ≠ cIdx c → t.route e = s.route e)
        ∧ ∀ x, s.cand? (.engine (cIdx c)) = some x → ∃ y, t.cand? (.engine (cIdx c)) = some y ∧ y.st = .disqualified) s
        (exec (.asymClear c) s))
    ∧ (Ready specRouteSet c s = true → Does 0x417 c [] [.settings] (fun t =>
        t.route (cIdx c) = { s.route (cIdx c) with
          routeCdStep := 2 * cw c 1, routeLenTol := cw c 2, routeRtdStep := cw c 3, routeTrack := cw c 4 }
        ∧ (∀ e, e ≠ cIdx c → t.route e = s.route e) ∧ t.kennel.settings = { s.kennel.settings with route := t.kennel.settings.route }) s
        (exec (.routeSet c) s))
    ∧ (Ready specTimeFreqRefSet c s = true → Arms 0x40A 0x40A c s (exec (.timeFreqRefSet c) s))
    ∧ (∀ r, freqRefOf s (cw c 1) = some r → TakesEffect 0x40A c [.time] (fun t =>
        (r = s.time.freq.ref → t.time.freq = { s.time.freq with bw := cw c 2 })
        ∧ (r ≠ s.time.freq.ref → t.time.freq = {
            ref := r, bw := cw c 2, qualified := false, since := none, lastLoop := s.ticks, errSum := 0, errTicks := 0 })
        ∧ t.time.demand = (if r = .free then s.time.applied else s.time.demand) ∧ t.time.applied = s.time.applied ∧ t.time.state = s.time.state) s)

/-- The happenings of line time transfer (R324 to R335). -/
def Obligations.TransferHappenings : Prop :=
  (∀ (e : Fin 48) (s : State), s.tn % (s.ltt e).interval = 0 →
    ((s.ltt e).intervalNext = none → (s.ltt e).voidNow = false → (s.ltt e).voidBefore = false → (s.ltt e).cut = false → (s.ltt e).count ≠ 0 →
      (s.ltt e).minFill * (s.ltt e).interval ≤ (s.ltt e).count * 100 →
      AtEngine e [.time] (fun t => (t.ltt e).result = { endTn := s.tn, eps := roundDiv (s.ltt e).epsSum (2 * (s.ltt e).count)
                                                        rtd := roundDiv (s.ltt e).rtdSum (s.ltt e).count, n := (s.ltt e).count
                                                        epsZero := roundDiv (s.ltt e).zeroSum (2 * (s.ltt e).count)
                                                        delivered := true, void := false }
        ∧ (t.ltt e).count = 0 ∧ (t.ltt e).epsSum = 0 ∧ (t.ltt e).rtdSum = 0 ∧ (t.ltt e).voidBefore = false
        ∧ (s.time.selected = some (.engine e.val) →
          t.time = { s.time with meas := some (.engine e, roundDiv (s.ltt e).epsSum (2 * (s.ltt e).count)) })
        ∧ (s.time.selected ≠ some (.engine e.val) → t.time = s.time)) s (exec (.lttIntervalEnd e) s))
    ∧ ((s.ltt e).voidNow = true ∨ (s.ltt e).voidBefore = true ∨ (s.ltt e).cut = true
        ∨ ((s.ltt e).intervalNext.any (fun n => s.tn % n == 0) = false
          ∧ ((s.ltt e).count = 0 ∨ (s.ltt e).count * 100 < (s.ltt e).minFill * (s.ltt e).interval)) →
      AtEngine e (.time :: .settings :: .realign :: .tnProvisional :: eventParts) (fun t => (t.ltt e).result.void = true
        ∧ (t.ltt e).result.delivered = false ∧ (t.ltt e).count = 0 ∧ (t.ltt e).voidNow = false
        ∧ (t.ltt e).voidBefore = (s.ltt e).voidNow ∧ Counted .lttVoid .engine e 1 t
        ∧ ∀ x, s.cand? (.engine e) = some x → ∃ y, t.cand? (.engine e) = some y ∧ y.st = .disqualified) s
        (exec (.lttIntervalEnd e) s))
    ∧ (∀ n, (s.ltt e).intervalNext = some n → s.tn % n = 0 →
      AtEngine e (.time :: .settings :: .realign :: .tnProvisional :: eventParts) (fun t => (t.ltt e).interval = n
        ∧ (t.ltt e).intervalNext = none ∧ (t.ltt e).result.void = true ∧ (t.ltt e).result.delivered = false
        ∧ Counted .lttVoid .engine e 1 t
        ∧ (s.time.selected = some (.engine e.val) → (s.ltt e).voidNow = false → (s.ltt e).voidBefore = false → (s.ltt e).cut = false →
          t.time = s.time ∧ (t.ltt e).resized = true)
        ∧ (s.time.selected ≠ some (.engine e.val) →
          ∀ x, s.cand? (.engine e) = some x → ∃ y, t.cand? (.engine e) = some y ∧ y.st = .disqualified)) s
        (exec (.lttIntervalEnd e) s)))
  ∧ (∀ s : State, s.tn % 625000 = 0 → (s.ltt 0).sums.ticks ≠ 0 →
    Happens (.engines :: .time :: .settings :: .realign :: .tnProvisional :: eventParts) (fun t => ∀ e, e < 48 →
      (t.ltt e).certSeq = ((s.ltt e).certSeq + 1) % 256 ∧ (t.ltt e).sums = .reset
      ∧ ((s.ltt e).certNotify = true → Raised .delayCert .engine e (w2 s.tn) s.tn t)
      ∧ ((s.route e).asymState ≠ .valid → t.route e = s.route e)
      ∧ ∀ cd rtd : Int, (s.route e).asymState = .valid → (s.eng e).zr = false → (s.ltt e).sums.isolated = false →
        (s.ltt e).sums.ticks ≤ 2 * (s.ltt e).sums.inFrame → (s.ltt e).sums.ticks ≤ 2 * (s.ltt e).sums.cdValid →
        cd = (s.secondMeans e (s.ltt e).sums).1 → rtd = (s.secondMeans e (s.ltt e).sums).2.1 →
        (t.ltt e).lastOk = true ∧ (t.ltt e).lastQual = (cd, rtd) ∧ (t.ltt e).routeFlags = ((s.route e).check cd rtd).1
        ∧ (((s.route e).check cd rtd).2 = true → t.route e = { s.route e with asymState := .invalid })
        ∧ (((s.route e).check cd rtd).2 = false → (t.route e).asymState = .valid)) s (exec .delayCertFormation s))
  ∧ ∀ s : State,
    (∀ err : Int, s.time.freq.qualified = true → ((∃ e, s.time.freq.ref = .line e) ∨ ∃ p, s.time.freq.ref = .synce p) →
      s.time.freq.lastLoop + 64 ≤ s.ticks → Happens (.time :: eventParts) (fun t =>
        t.time.demand = Config.freqLoop s.time.freq.bw s.time.demand (s.time.freq.meanErr err)
        ∧ t.time.freq = { s.time.freq with lastLoop := s.ticks, errSum := 0, errTicks := 0 }
        ∧ t.time.applied = s.time.applied ∧ t.time.state = s.time.state) s (exec (.freqLoopUpdate err) s))
    ∧ (∀ offset : Int, s.time.freq.ref ≠ .same → s.time.freq.ref ≠ .free →
      (s.freqRefOk offset = true → Happens (.time :: eventParts) (fun t =>
        t.time.freq.since = some (s.time.freq.since.getD s.ticks)
        ∧ (s.time.freq.since.getD s.ticks + s.time.params.qualTime * 625000 ≤ s.ticks → s.time.freq.qualified = false →
          t.time.freq.qualified = true
          ∧ Raised .freqRefChange .device 0 (w1 FreqRef.same.word ++ w1 s.time.freq.ref.word ++ w1 1) s.tn t)
        ∧ (s.ticks < s.time.freq.since.getD s.ticks + s.time.params.qualTime * 625000 →
          t.time.freq.qualified = s.time.freq.qualified)) s (exec (.freqRefQualification offset) s))
      ∧ (s.freqRefOk offset = false → Happens (.time :: eventParts) (fun t =>
        t.time.freq = { s.time.freq with since := none, qualified := false }
        ∧ (s.time.freq.qualified = true →
          Raised .freqRefChange .device 0 (w1 s.time.freq.ref.word ++ w1 FreqRef.same.word ++ w1 0) s.tn t)) s
        (exec (.freqRefQualification offset) s)))

/-- The PTP port, its commands and what it sends (R288, R291, R292, R339 to R344). -/
def Obligations.PtpCommandsAndSending : Prop :=
  (∀ (c : Cmd) (s : State),
    (Ready specPortTapSet c s = true →
      Does 0x308 c [] (.ports :: .time :: .settings :: .realign :: .tnProvisional :: eventParts) (fun t =>
        (∀ p, s.port? (cIdx c) = some p → ∃ q, t.port? (cIdx c) = some q ∧ q.state = p.state
          ∧ q.tap = { p.tap with ptp := cw c 1 == 1, esmc := cw c 2 == 1, insertWait := cw c 3 })
        ∧ ∀ n p, n ≠ cIdx c → s.port? n = some p → ∃ q, t.port? n = some q ∧ q.tap = p.tap ∧ q.state = p.state) s
        (exec (.portTapSet c) s))
    ∧ (Ready specPtpClockSet c s = true →
      Does 0x420 c [] (.clockIdentity :: .ports :: .time :: .settings :: .realign :: .tnProvisional :: eventParts) (fun t =>
        t.clockIdentity = some (cw2 c 1) ∧ ∀ n, (t.ptp n).cfg = (s.ptp n).cfg) s (exec (.ptpClockSet c) s))
    ∧ (Ready specPtpPortSet c s = true →
      Does 0x421 c [] (.ports :: .time :: .settings :: .realign :: .tnProvisional :: eventParts) (fun t =>
        (t.ptp (cIdx c)).cfg = ptpCfgOf c ∧ (∀ n, n ≠ cIdx c → (t.ptp n).cfg = (s.ptp n).cfg)
        ∧ (ptpCfgOf c = (s.ptp (cIdx c)).cfg → t.ports = s.ports ∧ t.time = s.time)) s (exec (.ptpPortSet c) s))
    ∧ (Ready specPtpPortStatus c s = true → Reports 0x422 c
        (w1 (s.ptp (cIdx c)).state.code ++ w3 (((s.ptp (cIdx c)).parent.map (·.sender)).getD 0) ++ wi2 (s.ptp (cIdx c)).lastOffset
          ++ [((s.ptp (cIdx c)).rxQl.map (fun x => Config.qlWord x.1 x.2.1)).getD (Config.qlWord 0xF 0xFF),
              Config.qlWord (s.txQl (cIdx c)).1 (s.txQl (cIdx c)).2]) s (exec (.ptpPortStatus c) s)))
  ∧ ∀ (n : Fin 384) (s : State) (p : Port), s.port? n = some p →
    (16 ≤ p.tap.queue.length → s.esmcOn n = true → p.ptp.esmcAt + secTicks ≤ s.ticks →
      Completes (exec (.esmcInfoTx n) s) (fun t => ∃ q, t.port? n = some q ∧ q.tap = { p.tap with refused := true }))
    ∧ (p.ptp.room s = false → s.ptpIs n .transmitter = true → p.ptp.syncAt + logTicks p.ptp.cfg.logSync ≤ s.ticks →
      Completes (exec (.ptpSyncTx n) s) (fun t => ∃ q, t.port? n = some q ∧ q.tap = p.tap))
    ∧ (p.tap.queue.length < 16 →
    (p.ptp.room s = true → s.ptpIs n .transmitter = true → p.ptp.syncAt + logTicks p.ptp.cfg.logSync ≤ s.ticks →
      Happens [.ports] (PortIs n (fun p => { p with
        ptp := { p.ptp with
                 seqSync := (p.ptp.seqSync + 1) % 65536, syncAt := s.ticks, sentSecond := s.taiSecond
                 sent := (if p.ptp.sentSecond = s.taiSecond then p.ptp.sent else 0) + 1 }
        tap := { p.tap with refused := false, queue := p.tap.queue ++ [{
          octets := s.ptpFrame n 0 (if p.ptp.cfg.twoStep then 0x0200 else 0) p.ptp.seqSync 0 p.ptp.cfg.logSync (List.replicate 10 0)
          stampAt := if p.ptp.cfg.twoStep then none else some 48, purpose := if p.ptp.cfg.twoStep then 2 else 1
          queuedAt := s.ticks }] } }) s) s (exec (.ptpSyncTx n) s))
    ∧ (p.ptp.room s = true → s.ptpIs n .transmitter = true → p.ptp.announceAt + logTicks p.ptp.cfg.logAnnounce ≤ s.ticks →
      Happens [.ports] (PortIs n (fun p => { p with
        ptp := { p.ptp with
                 seqAnnounce := (p.ptp.seqAnnounce + 1) % 65536, announceAt := s.ticks, sentSecond := s.taiSecond
                 sent := (if p.ptp.sentSecond = s.taiSecond then p.ptp.sent else 0) + 1 }
        tap := { p.tap with refused := false, queue := p.tap.queue ++ [{
          octets := s.ptpFrame n 0xB s.announceFlags p.ptp.seqAnnounce 0 p.ptp.cfg.logAnnounce (s.announceBody n)
          stampAt := none, purpose := 0, queuedAt := s.ticks }] } }) s) s (exec (.ptpAnnounceTx n) s))
    ∧ (p.ptp.room s = true → s.ptpIs n .receiver = true ∨ s.ptpIs n .uncalibrated = true → p.ptp.delayAt + logTicks p.ptp.cfg.logDelayReq ≤ s.ticks →
      Happens [.ports] (PortIs n (fun p => { p with
        ptp := { p.ptp with
                 seqDelay := (p.ptp.seqDelay + 1) % 65536, delayAt := s.ticks, delayWait := some (p.ptp.seqDelay, none), sentSecond := s.taiSecond
                 sent := (if p.ptp.sentSecond = s.taiSecond then p.ptp.sent else 0) + 1 }
        tap := { p.tap with refused := false, queue := p.tap.queue ++ [{
          octets := s.ptpFrame n 1 0 p.ptp.seqDelay (-(psUnits p.ptp.cfg.asym)) 0x7F (List.replicate 10 0)
          stampAt := none, purpose := 3, queuedAt := s.ticks }] } }) s) s (exec (.ptpDelayReqTx n) s))
    ∧ (∀ event : Bool, s.esmcOn n = true →
      (if event then s.txQl n ≠ p.ptp.eventQl else p.ptp.esmcAt + secTicks ≤ s.ticks) →
      Happens (.ports :: eventParts) (fun t => PortIs n (fun p => { p with
          ptp := { p.ptp with
                            txQl := s.txQl n, eventQl := if event then s.txQl n else p.ptp.eventQl
                            esmcAt := if event then p.ptp.esmcAt else s.ticks }
          tap := { p.tap with refused := false, queue := p.tap.queue ++ [{
            octets := s.esmcFrame n event (s.txQl n), stampAt := none, purpose := 5, queuedAt := s.ticks }] } }) s t
        ∧ (s.txQl n ≠ p.ptp.txQl → Raised .esmcQlChange .port n
            (w1 0 ++ [Config.qlWord p.ptp.txQl.1 p.ptp.txQl.2, Config.qlWord (s.txQl n).1 (s.txQl n).2]) s.tn t)) s
        (if event then exec (.esmcEventTx n) s else exec (.esmcInfoTx n) s))
    ∧ (∀ f rest, ∀ sub : Nat, ∀ stamp : Int, stamp = s.nowTai + sub + p.txDelay → p.tap.queue = f :: rest → p.state = .up → p.data.egress.length ≤ 1024 →
      Happens [.ports] (fun t => (∀ q, q ≠ n.val → t.port? q = s.port? q) ∧ ∃ q, t.port? n = some q
        ∧ (∀ k, f.stampAt = some k → q.tap.sent = some (overwrite f.octets k (ptpStamp stamp)
            ++ octetsLE 4 (crc32 (overwrite f.octets k (ptpStamp stamp))), stamp))
        ∧ (f.stampAt = none → q.tap.sent = some (f.octets ++ octetsLE 4 (crc32 f.octets), stamp))
        ∧ (f.purpose ≠ 2 → q.tap.queue = rest) ∧ (f.purpose = 2 → p.ptp.room s = true → ∃ g, q.tap.queue = rest ++ [g] ∧ g.purpose = 4)
        ∧ (f.purpose = 3 → p.ptp.delayWait = some (at_ (ptpBody f.octets) 30 2, none) →
          q.ptp.delayWait = some (at_ (ptpBody f.octets) 30 2, some stamp))
        ∧ (f.stampAt = none → q.data.inserted.length = p.data.inserted.length + (f.octets.length + 43) / 32)) s
        (exec (.tapFrameInsert n sub) s)))

/-- What a PTP port does with what it receives (R338, R340 to R343). -/
def Obligations.PtpReception : Prop :=
  ∀ (n : Fin 384) (s : State) (p : Port), s.port? n = some p → s.fwUp = true →
    (∀ f stamp rest, takeWaiting n false (s.htile (n / 96)).waiting = (some (f, stamp), rest) → p.ptp.cfg.profile ≠ 0 →
      p.ptp.second = s.taiSecond →
      (128 ≤ p.ptp.received → Happens [.ports, .htiles, .happened] (fun t =>
        PortIs n (fun p => { p with ptp := { p.ptp with received := p.ptp.received + 1 } }) s t
        ∧ (t.htile (n / 96)).waiting = rest ∧ Counted .ptpRxDrop .port n 1 t) s (exec (.ptpMessageRx n) s))
      ∧ (p.ptp.received < 128 → at_ (ptpBody f) 4 1 = p.ptp.cfg.domain → at_ (ptpBody f) 1 1 % 16 = 2 →
        (at_ (ptpBody f) 0 1 % 16 = 0 → p.ptp.fromParent (ptpBody f) = true → bit (at_ (ptpBody f) 6 1) 1 = false →
          Happens [.ports, .htiles] (fun t => PortIs n (fun p => { p with ptp := { p.ptp with
              received := p.ptp.received + 1, sync := some (stampAt (ptpBody f) 34 + correction (ptpBody f), stamp)
              syncWait := none } }) s t ∧ (t.htile (n / 96)).waiting = rest) s (exec (.ptpMessageRx n) s))
        ∧ (at_ (ptpBody f) 0 1 % 16 = 0 → p.ptp.fromParent (ptpBody f) = true → bit (at_ (ptpBody f) 6 1) 1 = true →
          Happens [.ports, .htiles] (fun t => PortIs n (fun p => { p with ptp := { p.ptp with
              received := p.ptp.received + 1, syncWait := some (at_ (ptpBody f) 30 2, stamp, correction (ptpBody f)) } }) s t
            ∧ (t.htile (n / 96)).waiting = rest) s (exec (.ptpMessageRx n) s))
        ∧ (at_ (ptpBody f) 0 1 % 16 ∉ [0, 1, 8, 9, 11] → Happens [.ports, .htiles, .happened] (fun t =>
          PortIs n (fun p => { p with ptp := { p.ptp with received := p.ptp.received + 1 } }) s t
          ∧ (t.htile (n / 96)).waiting = rest ∧ Counted .ptpRxUnsupp .port n 1 t) s (exec (.ptpMessageRx n) s))))
    ∧ (p.ptp.cfg.profile ≠ 0 → p.ptp.state = .listening ∨ p.ptp.state = .receiver ∨ p.ptp.state = .uncalibrated ∨ p.ptp.state = .passive →
      p.ptp.heardAt + p.ptp.cfg.timeout * logTicks p.ptp.cfg.logAnnounce ≤ s.ticks →
      p.ptp.foreign.filter (fun f => p.ptp.parent.all (fun a => a.sender != f.ann.sender)) = [] →
      Happens (.ports :: .time :: .settings :: .realign :: .tnProvisional :: eventParts) (fun t => (t.ptp n).state = .transmitter
        ∧ (t.ptp n).parent = none ∧ (t.ptp n).foreign = []
        ∧ Raised .ptpPortState .port n (w1 p.ptp.state.code ++ w1 6 ++ w2 s.tn) s.tn t) s (exec (.announceReceiptTimeout n) s))
    ∧ (∀ expected : Nat, p.ptp.state = .receiver → p.ptp.measAt + logTicks p.ptp.cfg.meas ≤ s.ticks →
      expected = logTicks p.ptp.cfg.meas / max (logTicks p.ptp.cfg.logSync) (logTicks p.ptp.cfg.logDelayReq) →
      (expected ≤ 2 * p.ptp.offCount → p.ptp.offCount ≠ 0 → Happens [.ports, .time] (fun t =>
        PortIs n (fun p => { p with ptp := { p.ptp with offSum := 0, offCount := 0, measAt := s.ticks } }) s t
        ∧ (s.time.selected = some (.port n.val) →
          t.time = { s.time with meas := some (.port n, roundDiv p.ptp.offSum (2 * p.ptp.offCount)) })
        ∧ (s.time.selected ≠ some (.port n.val) → t.time = s.time)) s (exec (.ptpMeasPeriodEnd n) s))
      ∧ (2 * p.ptp.offCount < expected ∨ p.ptp.offCount = 0 →
        Happens (.ports :: .time :: .settings :: .realign :: .tnProvisional :: eventParts) (fun t => (t.ptp n).voidAt = some s.ticks
          ∧ (t.ptp n).offCount = 0 ∧ Counted .ptpVoid .port n 1 t
          ∧ ∀ x, s.cand? (.port n) = some x → ∃ y, t.cand? (.port n) = some y ∧ y.st = .disqualified) s
          (exec (.ptpMeasPeriodEnd n) s)))
    ∧ (∀ f stamp rest, takeWaiting n true (s.htile (n / 96)).waiting = (some (f, stamp), rest) →
      (esmcQl f = none → Happens [.htiles, .happened] (fun t => (t.htile (n / 96)).waiting = rest
        ∧ Counted .esmcRxErr .port n 1 t) s (exec (.esmcPduRx n) s))
      ∧ (∀ q, esmcQl f = some q → Happens (.ports :: .htiles :: .time :: eventParts) (fun t =>
        PortIs n (fun p => { p with ptp := { p.ptp with rxQl := some (q.1, q.2, s.ticks), qlHeardAt := if q.1 = 0xF then p.ptp.qlHeardAt else some s.ticks } }) s t
        ∧ (t.htile (n / 96)).waiting = rest
        ∧ (p.ptp.rxQl = none → Raised .esmcQlChange .port n (w1 1 ++ [Config.qlWord 0xF 0xFF, Config.qlWord q.1 q.2]) s.tn t)
        ∧ (∀ a b u, p.ptp.rxQl = some (a, b, u) → a ≠ q.1 ∨ b ≠ q.2 →
          Raised .esmcQlChange .port n (w1 1 ++ [Config.qlWord a b, Config.qlWord q.1 q.2]) s.tn t)) s (exec (.esmcPduRx n) s)))

/-- The key commands of an engine (R348, R355 to R359). -/
def Obligations.KeyCommands : Prop :=
  ∀ (c : Cmd) (s : State),
    (Ready specEngineCryptoSet c s = true → Does 0x500 c [] (.engines :: eventParts) (fun t =>
        t.eng (cIdx c) = { s.eng (cIdx c) with key := { s.keys (cIdx c) with none := cw c 1 == 1, linkSide := cw c 2 == 1 } }
        ∧ OtherEngines (cIdx c) s t
        ∧ (cw c 1 = 1 → (s.keys (cIdx c)).none = false → Raised .cryptoClear .engine (cIdx c) [] s.tn t)) s
        (exec (.engineCryptoSet c) s))
    ∧ (Ready specKeyLoad c s = true → ArmsLate 0x501 0x501 c s (exec (.keyLoad c) s))
    ∧ (cIdx c < 48 → cSub c < 4 → (∀ x, s.openBlob c = some x → SlotChange 0x501 c (some x) s)
      ∧ (s.openBlob c = none → TakesEffect 0x501 c [] (fun _ => True) s))
    ∧ (Ready specKeyErase c s = true → Arms 0x501 0x502 c s (exec (.keyErase c) s))
    ∧ (cIdx c < 48 → cSub c < 4 → SlotChange 0x502 c none s)
    ∧ (Ready specKeyTxSwitch c s = true → Arms 0x503 0x503 c s (exec (.keyTxSwitch c) s))
    ∧ (cIdx c < 48 → TakesEffect 0x503 c (.engines :: eventParts) (fun t =>
        t.eng (cIdx c) = { s.eng (cIdx c) with key := { s.keys (cIdx c) with index := cw c 1 } }
        ∧ OtherEngines (cIdx c) s t
        ∧ Raised .keySwitched .engine (cIdx c) (w1 0 ++ w1 (cw c 1) ++ w2 s.tn) s.tn t) s)
    ∧ (Ready specKeyRxSwitch c s = true → Does 0x504 c [] [.engines, .armed] (fun t =>
        t.eng (cIdx c) = { s.eng (cIdx c) with key := { s.keys (cIdx c) with rxSwitch := some (cw c 1, cw2 c 2) } }
        ∧ OtherEngines (cIdx c) s t ∧ (∀ a ∈ t.proto.armed, a.key ≠ keyOf 0x505 c)
        ∧ ∀ a ∈ s.proto.armed, a.key ≠ keyOf 0x505 c → a ∈ t.proto.armed) s (exec (.keyRxSwitch c) s))
    ∧ (Ready specKeyRxFollow c s = true → Arms 0x505 0x505 c s (exec (.keyRxFollow c) s))
    ∧ (cIdx c < 48 → EngineChange 0x505 c (fun g => { g with key := { g.key with expect := none, rxSwitch := none } }) s)
    ∧ (Ready specKeyStatus c s = true →
      Reports 0x506 c (keyStatusWords s.tn (s.keys (cIdx c))) s (exec (.keyStatus c) s))

/-- The domain, the Tag block and the test port (R356, R361 to R368). -/
def Obligations.DomainAndTestPort : Prop :=
  ∀ (c : Cmd) (s : State),
    (Ready specDomainEnrol c s = true → Begins 0x510 c [.freeCtr, .settings, .sec] (fun t =>
        t.kennel.settings = { s.kennel.settings with
          domainSet := true, odv := unpackWords ((c.words.drop 1).take 8)
          kek := deriveKek (unpackWords ((c.words.drop 1).take 8))
          binding := randomOctets 32 s.freeCtr, ivGen := 0 }
        ∧ t.freeCtr = s.freeCtr + 3
        ∧ t.sec = { s.sec with signing := s.sec.signing ++ [(s.proto.nextSeq,
            enrolWords c (deriveKek (unpackWords ((c.words.drop 1).take 8))) (s.freeCtr + 1))] }) s (exec (.domainEnrol c) s))
    ∧ (Ready specDomainClear c s = true → Does 0x511 c [] (.engines :: .armed :: .settings :: eventParts) (fun t =>
        t.kennel.settings = { s.kennel.settings with domainSet := false, odv := [], kek := [], binding := [] }
        ∧ ∀ e : Fin 48, t.eng e = { s.eng e with key := { s.keys e with slots := Vector.replicate 4 none } }
          ∧ ∀ i, i < 4 → ((s.keys e).slot i).isSome = true → Raised .keyErased .engine e (w1 4) s.tn t) s (exec (.domainClear c) s))
    ∧ (Ready specTagCertRead c s = true → BeginsDma 0x512 c (some certImage) s (exec (.tagCertRead c) s))
    ∧ (Ready specAttestReport c s = true → Begins 0x513 c [.freeCtr, .sec] (fun t => t.freeCtr = s.freeCtr + 1
        ∧ t.sec = { s.sec with signing := s.sec.signing ++ [(s.proto.nextSeq, s.attestWords c)] }) s (exec (.attestReport c) s))
    ∧ (Ready specTestportChallenge c s = true →
      Does 0x514 c (packOctets (randomOctets 32 s.freeCtr)) [.freeCtr, .sec] (fun t => t.freeCtr = s.freeCtr + 1
        ∧ t.sec = { s.sec with challenge := some (randomOctets 32 s.freeCtr) }) s (exec (.testportChallenge c) s))
    ∧ (Ready specTestportUnlock c s = true → Does 0x515 c [] (.engines :: .armed :: .settings :: .sec :: eventParts) (fun t =>
        t.kennel.settings = { s.kennel.settings with domainSet := false, odv := [], kek := [], binding := [] }
        ∧ t.sec = { s.sec with testOpen := true }
        ∧ (∀ e : Fin 48, t.eng e = { s.eng e with key := { s.keys e with slots := Vector.replicate 4 none } })
        ∧ Raised .testportOpened .device 0 (w2 s.tn) s.tn t) s (exec (.testportUnlock c) s))
    ∧ (∀ q ws r, s.sec.signing = (q, ws) :: r →
      Happens [.sec, .jobs, .responses, .queueRegs, .msix, .alertN] (fun t => t.sec = { s.sec with signing := r }
        ∧ ∀ j ∈ s.proto.jobs, j.ticket.seq = q → j.ticket.opcode = 0x510 ∨ j.ticket.opcode = 0x513 → Ended j .ok 0 s.tn ws t) s
        (exec .tagSignatureDone s))
    ∧ (∀ (e : Fin 48) (i : Fin 4) (k : KeySlot), (s.keys e).slot i = some k → k.expiry ≠ 0 → k.expiry ≤ s.tn →
      AtEngine e eventParts (fun t => t.eng e = { s.eng e with key := { s.keys e with
          slots := vmod (s.keys e).slots i (fun _ => none) } }
        ∧ Raised .keyExpired .engine e (w1 i ++ w1 k.id) s.tn t) s (exec (.keyExpiry e i) s))
    ∧ exec (.testportInstruction .idcode) s = .next s ∧ exec (.testportInstruction .bypass) s = .next s
    ∧ (s.sec.testOpen = false → exec (.testportInstruction .other) s = .next s)
    ∧ (s.sec.testOpen = true → exec (.testportInstruction .other) s = .refused .testPortInstructionUnspecified)

/-- The overhead and defect commands of an engine (R81, R86, R87, R375, R378, R389). -/
def Obligations.OverheadCommands : Prop :=
  ∀ (c : Cmd) (s : State),
    (Ready specEngineTtiSet c s = true → SetsEngine 0x11C c (fun g => { g with
        tx := { g.tx with ttiNext := some ((unpackWords (c.words.drop 1)).take 64) }
        defect := { g.defect with sapi := ((unpackWords (c.words.drop 1)).drop 64).take 16
                                  dapi := ((unpackWords (c.words.drop 1)).drop 80).take 16 } }) s (exec (.engineTtiSet c) s))
    ∧ (Ready specEngineTtiRead c s = true → Reports 0x11D c (w1 (b2n (s.eng (cIdx c)).defect.ttiAccepted.isSome)
        ++ packOctets ((s.eng (cIdx c)).defect.ttiAccepted.getD (List.replicate 64 0))
        ++ packOctets (s.eng (cIdx c)).defect.ttiLatest) s (exec (.engineTtiRead c) s))
    ∧ (Ready specEngineLock c s = true → Arms 0x11F 0x11F c s (exec (.engineLock c) s))
    ∧ (Ready specEngineUnlock c s = true → Arms 0x11F 0x120 c s (exec (.engineUnlock c) s))
    ∧ (Ready specEngineSvcWrite c s = true → SetsEngine 0x121 c (fun g => { g with tx := { g.tx with
        svcTx := g.tx.svcTx ++ (unpackWords (c.words.drop 2)).take (cw c 1) } }) s (exec (.engineSvcWrite c) s))
    ∧ (Ready specEngineSvcRead c s = true → Does 0x122 c
        (w1 ((s.eng (cIdx c)).rx.svcRx.take (cw c 1)).length ++ packOctets ((s.eng (cIdx c)).rx.svcRx.take (cw c 1))) [.engines]
        (fun t => t.eng (cIdx c) = { s.eng (cIdx c) with rx := { (s.eng (cIdx c)).rx with
            svcRx := (s.eng (cIdx c)).rx.svcRx.drop (cw c 1) } } ∧ OtherEngines (cIdx c) s t) s (exec (.engineSvcRead c) s))
    ∧ (Ready specEngineOpareaSet c s = true → Arms 0x123 0x123 c s (exec (.engineOpareaSet c) s))
    ∧ (Ready specEngineOpareaRead c s = true → Reports 0x124 c (w1 (b2n (s.eng (cIdx c)).rx.opArea.isSome)
        ++ packOctets ((s.eng (cIdx c)).rx.opArea.getD (List.replicate 64 0))) s (exec (.engineOpareaRead c) s))
    ∧ (Ready specEngineDefectSet c s = true → Arms 0x11E 0x11E c s (exec (.engineDefectSet c) s))
    ∧ (Ready specEngineNlcCoefLoad c s = true → BeginsDma 0x10B c none s (exec (.engineNlcCoefLoad c) s))
    ∧ (cIdx c < 48 →
      EngineChange 0x11F c (fun g => { g with tx := { g.tx with lck := true } }) s
      ∧ EngineChange 0x120 c (fun g => { g with tx := { g.tx with lck := false } }) s
      ∧ EngineChange 0x123 c (fun g => { g with tx := { g.tx with opArea := unpackWords (c.words.drop 1) } }) s
      ∧ EngineChange 0x11E c (fun g => { g with defect := { g.defect with
          cfg := { sfHoldoff := cw c 1, ucfSet := cw c 2, degInterval := 625 * cw c 3, degM := cw c 4, degSet := cw c 5, degClr := cw c 6
                   expectedSrc := cw c 7, timMode := cw c 8, timAct := cw c 9 == 1 } } }) s)

/-- Acceptance and discard of a received frame (R92 to R94, R360), and the end of a signal-fail hold-off (R383). The number of
service octets a discarded frame loses, and what the FEC of the 400ZR profile makes of noise, are free values. -/
def Obligations.FrameReception : Prop :=
  ∀ (e : Fin 48) (x : RxSignal) (s : State),
    let y := (s.eng e).heard x
    let f := (s.eng e).decodeFrame y
    ((s.eng e).kRx ≠ 0 → (s.eng e).acq.state = .inFrame ∨ (s.eng e).acq.state = .oof →
      (∀ a t, (s.eng e).load.armed = some a → (s.eng e).rx.expected = some t → t < a.loadTn) →
      ((s.eng e).zr = false →
        (∀ v : List (Ctr × Verdict), v = [(.uncorrFrame, .uncorrected), (.hdrErr, .header), (.fmtMismatch, .format), (.authErrMode, .authMode)
            , (.authErrIndex, .authIndex), (.authErrEmpty, .authEmpty), (.authErrTag, .authTag)] →
          ∀ y ∈ v, (s.eng e).judge s.tn f = y.2 →
            AtEngine e (withEvent ([.freeCtr, .kennelRest, .packs, .ports] ++ if s.takesSymbols e then [.tiles] else [])) (fun t =>
              Counted y.1 .engine e 1 t ∧ (t.eng e).rx.framesSince = (s.eng e).rx.framesSince + 1
              ∧ (t.eng e).rx.lastTn = (s.eng e).rx.lastTn ∧ (t.eng e).rx.opArea = (s.eng e).rx.opArea
              ∧ (t.eng e).rx.svcRx = (s.eng e).rx.svcRx ∧ (t.eng e).rx.echoTn = (s.eng e).rx.echoTn
              ∧ (t.eng e).rx.stamps = (s.eng e).rx.stamps.drop 1 ∧ (t.eng e).rx.beiCw = min f.badWords 0xFFFF
              ∧ (f.errBits ≠ 0 → Counted .fecCorrBits .engine e f.errBits t)
              ∧ (Config.freeValue s.freeCtr % 32 ≠ 0 → Counted .svcLostOctets .engine e (Config.freeValue s.freeCtr % 32) t)) s
              (exec (.rxFrameDecode e x) s))
        ∧ (∀ plain slot, (s.eng e).load.trial = 0 → (s.eng e).judge s.tn f = .accepted plain slot →
          Completes (exec (.rxFrameDecode e x) s) (fun t =>
            (t.eng e).rx.lastTn = some (headerTn f.header) ∧ (t.eng e).rx.framesSince = 0
            ∧ (∀ a, (s.eng e).rx.stamp = some a → (t.eng e).rx.echoTn = headerTn f.header ∧ (t.eng e).rx.echoValid = true
                ∧ (t.eng e).rx.echoArrival = a)
            ∧ (t.eng e).rx.txTime = ofStamp96 (at_ plain 0 12)
            ∧ (t.eng e).rx.opArea = some (((plain.take 480).drop 168).take 64)
            ∧ (t.eng e).rx.svcRx = (s.eng e).rx.svcRx ++
                (((plain.take 480).drop 137).take (at_ (plain.take 480) 136 1 % 32)).take (65536 - (s.eng e).rx.svcRx.length)
            ∧ (∀ w, (s.eng e).rx.expected = some w → w ≠ headerTn f.header →
                Raised .tnJump .engine e (w2 w ++ w2 (headerTn f.header)) s.tn t)
            ∧ t.tn = s.tn)))
      ∧ ((s.eng e).zr = true → AtEngine e ([.freeCtr, .happened, .kennelRest, .packs, .ports] ++ if s.takesSymbols e then [.tiles] else []) (fun t =>
          ((s.zrDecode y).2.badWords ≠ 0 → Counted .uncorrFrame .engine e 1 t)
          ∧ (y.noise = [] → (s.zrDecode y).2 = RxSignal.clean y ∧ t.freeCtr = s.freeCtr)) s (exec (.rxFrameDecode e x) s)))
    ∧ ((s.eng e).kRx = 0 ∨ ((s.eng e).acq.state ≠ .inFrame ∧ (s.eng e).acq.state ≠ .oof) → exec (.rxFrameDecode e x) s = .next s)
    ∧ (∀ g : Engine, x.noise = [] → x.vec = g.rxVec → x.jc.length = grains g.rxCap → g.decodeFrame x = RxSignal.clean x)
    ∧ (∀ (g : Engine) (tn : Nat) (f : RxFrame), f.badWords ≠ 0 → g.judge tn f = .uncorrected)
    ∧ (∀ (g : Engine) (tn : Nat) (f : RxFrame) plain slot, g.judge tn f = .accepted plain slot → f.badWords = 0 ∧ f.header.length = 16
        ∧ crc16 (f.header.take 14) = at_ f.header 14 2 ∧ f.header.getD 0 0 = 0xB1
        ∧ (f.header.getD 1 0).toNat = g.rxCap * 16 + g.rxLayout
        ∧ (g.key.none = true → plain = f.overhead ++ f.jc.map (BitVec.ofNat 8) ++ f.slots.flatten))
    ∧ (∀ t h, (s.eng e).defect.sf = some (t, h) → t + h ≤ s.ticks →
      AtEngine e [] (fun u => u.eng e = { s.eng e with defect := { (s.eng e).defect with sfFault := true } }) s
        (exec (.sfHoldoffExpiry false e) s))
    ∧ (∀ t h, e.val < 24 → (s.pack e).psf = some (t, h) → t + h ≤ s.ticks →
      Happens [.packs] (PackIs e (fun k => { k with psfFault := true }) s) s (exec (.sfHoldoffExpiry true e) s))

/-- The converter commands (Table 7.5). That AUTO_RETIRE applies at once is the model's reading (log 26). -/
def Obligations.ConverterCommands : Prop :=
  ∀ (c : Cmd) (s : State),
    (Ready specConvStatus c s = true →
      Reports 0x130 c ((s.eng (cIdx c)).conv.statusWords (cw c 1)) s (exec (.convStatus c) s))
    ∧ (Ready specConvCalRead c s = true → BeginsDma 0x131 c (some (s.convImage (cIdx c))) s (exec (.convCalRead c) s))
    ∧ (Ready specConvCalLoad c s = true → BeginsDma 0x132 c none s (exec (.convCalLoad c) s))
    ∧ (Ready specConvCalFactory c s = true → Arms 0x133 0x133 c s (exec (.convCalFactory c) s))
    ∧ (cIdx c < 48 → TakesEffect 0x133 c [.engines] (fun t => OtherEngines (cIdx c) s t
        ∧ ((∀ l, ∀ n ∈ (vget (s.eng (cIdx c)).conv.adc l (.reset 96 8)).inService, n < 104) →
            ∀ i, i % 392 < 208 ∨ (312 ≤ i % 392 ∧ i % 392 < 320) ∨ 324 ≤ i % 392 →
              t.learnedAt (cIdx c) i = Config.factory (cIdx c) i)
        ∧ ∀ u, ((t.eng (cIdx c)).conv.pool u).inService = ((s.eng (cIdx c)).conv.pool u).inService
          ∧ ((t.eng (cIdx c)).conv.pool u).spare = ((s.eng (cIdx c)).conv.pool u).spare
          ∧ ((t.eng (cIdx c)).conv.pool u).retired = ((s.eng (cIdx c)).conv.pool u).retired) s)
    ∧ (Ready specConvRetireCmd c s = true → SetsEngine 0x134 c (fun g => { g with conv := (
        if g.conv.due.any (fun d => d.unit == cmdUnit c) = true then g.conv
        else { g.conv with due := g.conv.due ++
          [{ unit := cmdUnit c, cause := 2, fromTick := s.ticks + 2, raised := false, recorded := false }] }) }) s
        (exec (.convRetireCmd c) s))
    ∧ (Ready specConvRestore c s = true → Does 0x135 c [] [.engines, .kennelRest, .life] (fun t =>
        t.eng (cIdx c) = { s.eng (cIdx c) with
          conv := (s.eng (cIdx c)).conv.modPool (cmdUnit c) (UnitPool.restored (cw c 1)) }
        ∧ OtherEngines (cIdx c) s t
        ∧ t.kennel.retireQueue = markRestored (cIdx c) (cSub c) (cw c 1) s.kennel.retireQueue
        ∧ t.kennel.life = { s.kennel.life with
            retirements := markRestored (cIdx c) (cSub c) (cw c 1) s.kennel.life.retirements }) s (exec (.convRestore c) s))
    ∧ (Ready specConvCalSet c s = true → SetsEngine 0x136 c (fun g => { g with conv := { g.conv with
        cfgNext := some { adc := cw c 1 == 1, dac := cw c 2 == 1, window := 125 * cw c 3, autoRetire := cw c 4 == 1 }
        cfg := { g.conv.cfg with autoRetire := cw c 4 == 1 } } }) s (exec (.convCalSet c) s))

/-- The happenings of the converters (R211, R216 to R218, R225). -/
def Obligations.CalibrationHappenings : Prop :=
  ∀ (e : Fin 48) (s : State),
    (∀ temp : Int, (s.tn % 64 = 0 → AtEngine e [] (fun t => t.eng e = { s.eng e with conv := { (s.eng e).conv with tempNext := some temp } }) s
        (exec (.converterSensorRead e temp) s))
      ∧ (s.tn % 64 ≠ 0 → exec (.converterSensorRead e temp) s = .next s))
    ∧ (∀ (tn : Nat) (va vd : Bool) (z : FlatCal), (s.eng e).conv.ended = some (tn, va, vd) → s.tn = tn + 1 →
      AtEngine e eventParts (fun t => (t.eng e).conv.ended = none ∧ (t.eng e).conv.applyAt = some ((s.eng e).conv.applyAt.getD (s.ticks + 1))
        ∧ (t.eng e).conv.applyMore = (s.eng e).conv.applyMore + b2n (s.eng e).conv.applyAt.isSome
        ∧ (t.eng e).conv.learned = (s.eng e).conv.learned
        ∧ (∀ u, ((t.eng e).conv.pool u).inService = ((s.eng e).conv.pool u).inService
            ∧ ((t.eng e).conv.pool u).retired = ((s.eng e).conv.pool u).retired)
        ∧ (∀ x, x ∈ (t.eng e).conv.waiting ↔ x ∈ (s.eng e).conv.waiting ∨ ∃ m ∈ s.calResults z e va vd,
            s.resultOk e (s.eng e).conv.meanTemp ((s.eng e).conv.variances z) m = true
            ∧ m.unit.unit ∉ ((s.eng e).conv.pool m.unit).retired
            ∧ x = { unit := m.unit, value := m.value, result := m.result, temp := (s.eng e).conv.meanTemp })) s
        (exec (.calWindowCheck e z.offset z.gain z.skew) s))
    ∧ ((∀ tn va vd, (s.eng e).conv.ended = some (tn, va, vd) → s.tn ≠ tn + 1) → ∀ a b c : Rat, exec (.calWindowCheck e a b c) s = .next s)
    ∧ (∀ a : Nat, (s.eng e).conv.applyAt = some a →
      (s.ticks < a ∨ s.power.braceEffect = true → exec (.calApply e) s = .next s)
      ∧ (a ≤ s.ticks → s.power.braceEffect = false → AtEngine e (withEvent [.kennelRest, .life]) (fun t =>
          (t.eng e).conv.applyAt = none ∧ (t.eng e).conv.applyMore = 0 ∧ (t.eng e).conv.waiting = []
          ∧ (s.fenced e = true → (t.eng e).conv.learned = (s.eng e).conv.learned
              ∧ (t.eng e).conv.adc = (s.eng e).conv.adc ∧ (t.eng e).conv.dac = (s.eng e).conv.dac)) s (exec (.calApply e) s)))
    ∧ (∀ (r : Retirement) (q : List Retirement), s.kennel.retireQueue = r :: q →
      Happens (withEvent [.kennelRest, .life]) (fun t => t.kennel.retireQueue = q
        ∧ t.kennel.life.retireCount = min 4294967295 (s.kennel.life.retireCount + 1)
        ∧ (s.kennel.life.retirements.length < 256 → t.kennel.life.retirements = s.kennel.life.retirements ++ [r])
        ∧ (256 ≤ s.kennel.life.retirements.length → t.kennel.life.retirements = s.kennel.life.retirements
          ∧ Raised .retireListFull .engine r.engine (w1 (r.place * 256 + r.unit)) s.tn t)) s (exec .retirementEntryWrite s))
    ∧ (s.kennel.retireQueue = [] → exec .retirementEntryWrite s = .next s)

/-- The counter commands (R457 to R466). -/
def Obligations.CounterCommands : Prop :=
  ∀ (c : Cmd) (s : State),
    (Ready specCtrRead c s = true → Reports 0x800 c (w1 (valueWordAt (s.ctr.live (cw c 1)) 2)
        ++ w1 (valueWordAt (s.ctr.live (cw c 1)) 1) ++ w1 (valueWordAt (s.ctr.live (cw c 1)) 0)) s (exec (.ctrRead c) s))
    ∧ (Ready specCtrChainSet c s = true → Arms 0x801 0x801 c s (exec (.ctrChainSet c) s))
    ∧ (cw c 2 = 1 → s.ctr.heads.contains (cw c 1) = false → TakesEffect 0x801 c [.counters] (fun t =>
        t.ctr = { s.ctr with heads := cw c 1 :: s.ctr.heads, slots := cellSet s.ctr.slots (cw c 1 + 1) 0 0 }) s)
    ∧ (cw c 2 = 1 → s.ctr.heads.contains (cw c 1) = true → TakesEffect 0x801 c [.counters] (fun t =>
        t.ctr = { s.ctr with slots := cellSet s.ctr.slots (cw c 1 + 1) 0 0 }) s)
    ∧ (cw c 2 = 0 → TakesEffect 0x801 c [.counters] (fun t =>
        t.ctr = { s.ctr with heads := s.ctr.heads.filter (fun h => h != cw c 1) }) s)
    ∧ (Ready specCtrFilterSet c s = true → ArmsLate 0x802 0x802 c s (exec (.ctrFilterSet c) s))
    ∧ TakesEffect 0x802 c [.counters] (fun t => t.ctr = { s.ctr with
        filters := cellSet s.ctr.filters (cw c 1) { kind := cw c 2, lo := cw c 3, hi := cw c 4 } Filter.off }) s
    ∧ (Ready specCtrBwSet c s = true → Does 0x803 c [] [.counters] (fun t =>
        t.ctr.bw = cellSet s.ctr.bw (cw c 1) { s.bwOf (cw c 1) with next := some (cw c 2) } BwWindow.reset
        ∧ t.ctr.slots = s.ctr.slots ∧ t.ctr.heads = s.ctr.heads ∧ t.ctr.image = s.ctr.image) s (exec (.ctrBwSet c) s))
    ∧ (Ready specCtrSnapshot c s = true → Arms 0x804 0x804 c s (exec (.ctrSnapshot c) s))
    ∧ (s.imageDumps = [] → TakesEffect 0x804 c (.counters :: eventParts) (fun t =>
        t.ctr.image = s.ctr.snapshot s.tn ∧ t.ctr.snapValid = true ∧ t.ctr.snapSeq = (s.ctr.snapSeq + 1) % 65536
        ∧ t.ctr.slots = s.ctr.slots
        ∧ Raised .ctrSnapshotDone .device 0 (w2 s.tn ++ w1 ((s.ctr.snapSeq + 1) % 65536)) s.tn t) s)
    ∧ (s.imageDumps ≠ [] → TakesEffect 0x804 c [.counters] (fun t =>
        t.ctr = { s.ctr with waiting := some (s.ctr.snapshot s.tn, s.imageDumps) }) s)
    ∧ (Ready specCtrDump c s = true → BeginsDma 0x805 c (some (if cSub c = 0 then dumpOctets c s else [])) s (exec (.ctrDump c) s))
    ∧ (Ready specCtrIndex c s = true → ∃ k, kindOf? (cKind c) = some k
        ∧ Reports 0x806 c (w1 (ctrSlot k (cIdx c) (cSub c) (cw c 1))) s (exec (.ctrIndex c) s))

/-- The counter array (R456, R459, R462, R465). -/
def Obligations.CounterHappenings : Prop :=
  ∀ s : State,
    (∀ (p : Path) (slot : Fin 49152), (s.pathOpen p = false → exec (.counterV0Read p slot) s = .next s)
      ∧ (s.pathOpen p = true → Happens [.counters, .readWord] (fun t =>
        t.readWord = some (BitVec.ofNat 32 (s.ctr.wordNow slot 0))
        ∧ t.ctr.latch p = { slot := slot, v1 := s.ctr.wordNow slot 1, v2 := s.ctr.wordNow slot 2 }
        ∧ (∀ q, q ≠ p → t.ctr.latch q = s.ctr.latch q) ∧ t.ctr.slots = s.ctr.slots ∧ t.ctr.image = s.ctr.image) s
        (exec (.counterV0Read p slot) s)))
    ∧ (∀ p : Fin 384, (s.port? p).isSome = true → cellsWf 0 s.ctr.slots = true → s.tn % (s.bwOf p).window = 0 →
      (s.bwOf p).start ≠ some s.tn → (s.bwOf p).start ≠ none →
      Happens [.counters] (fun t =>
        cellGet t.ctr.slots (bwBase + 2 * p) 0 = bwSlotValue (s.bwOf p).ingress ((s.bwOf p).seq + 1) (s.tn - 1)
        ∧ cellGet t.ctr.slots (bwBase + 2 * p + 1) 0 = bwSlotValue (s.bwOf p).egress ((s.bwOf p).seq + 1) (s.tn - 1)
        ∧ (∀ i, i ≠ bwBase + 2 * p → i ≠ bwBase + 2 * p + 1 → cellGet t.ctr.slots i 0 = cellGet s.ctr.slots i 0)
        ∧ cellsWf 0 t.ctr.slots = true) s (exec (.bandwidthWindowEnd p) s))
    ∧ (∀ p : Fin 384, s.port? p = none → exec (.bandwidthWindowEnd p) s = .next s)
    ∧ (∀ i : Nat, cellsWf 0 s.ctr.slots = true → s.ctr.upper i = false → (∀ j ∈ s.ctr.carries, j + 1 ≠ i) →
      cellGet s.ctr.slots i 0 < 2 ^ 40 →
      cellGet s.ctr.accumulate.slots i 0
        = (cellGet s.ctr.slots i 0 + ((s.ctr.happened.filter (fun x => x.1 == i)).map Prod.snd).sum) % 2 ^ 40)

/-- The registers of the queues (R409, R414 to R417, R515, R524). -/
def Obligations.QueueRegisters : Prop :=
  ∀ s : State,
    (s.mapOpen = false → (∀ q, exec (.queueFlush q) s = .next s) ∧ (∀ q pi y ws, exec (.commandRingDoorbell q pi y ws) s = .next s)
      ∧ (∀ q w, exec (.ringEnableWrite q w) s = .next s) ∧ (∀ q ci, exec (.ringCiWrite q ci) s = .next s)
      ∧ ∀ q, exec (.wmLatchedClear q) s = .next s)
    ∧ (s.mapOpen = true → (∀ q : Fin 17, Happens (withEvent [.queueItems, .responses, .mons, .tlmq]) (fun t =>
        (∀ k : Nat, q.val = k → k < 4 → (s.cmdq k).orphan = none →
          (t.cmdq k).items = [] ∧ (t.cmdq k).partialWords = [] ∧ (t.cmdq k).orphan = some ((s.cmdq k).items.length, 0)
          ∧ (t.qreg k).ci = (s.qreg k).pi ∧ (t.qreg k).pi = (s.qreg k).pi ∧ ∀ j, j ≠ k → t.cmdq j = s.cmdq j)
        ∧ (∀ k : Nat, q.val = 4 + k → k < 4 → vget t.proto.resp k [] = []
          ∧ Raised .queueFlushed .queue (4 + k) (w1 (vget s.proto.resp k []).length ++ w1 0) s.tn t)
        ∧ (q.val = 8 → t.proto.eventRing = [] ∧ Raised .queueFlushed .queue 8 (w1 s.proto.eventRing.length ++ w1 0) s.tn t)
        ∧ (q.val = 9 → s.proto.spi.orphan = none → t.proto.spi.items = [] ∧ t.proto.spi.partialWords = []
          ∧ (s.proto.spiOpen = false → Raised .queueFlushed .queue 9 (w1 s.proto.spi.items.length ++ w1 0) s.tn t))
        ∧ (q.val = 10 → s.proto.spiRespRead = 0 → vget t.proto.resp 4 [] = []
          ∧ Raised .queueFlushed .queue 10 (w1 (vget s.proto.resp 4 []).length ++ w1 0) s.tn t)
        ∧ (q.val = 11 → s.proto.spiEventRead = 0 →
          Raised .queueFlushed .queue 11 (w1 s.proto.eventQueue.length ++ w1 0) s.tn t)
        ∧ (∀ k : Nat, q.val = 12 + k → k < 4 → (t.mc k).queue = []
          ∧ Raised .queueFlushed .queue (12 + k) (w1 (s.mc k).queue.length ++ w1 0) s.tn t)
        ∧ (q.val = 16 → t.tlmq.queue = s.tlmq.waiting.take 1024 ∧ Raised .queueFlushed .queue 16 (w1 s.tlmq.queue.length ++ w1 0) s.tn t)) s
        (exec (.queueFlush q) s))
    ∧ (∀ (q : Fin 4) (pi : Nat) (sync : Bool) (ws : List QWord),
      ((s.qreg q).enable = false ∨ 2 ^ (s.qreg q).log2 ≤ pi → exec (.commandRingDoorbell q pi sync ws) s = .next s)
      ∧ ((s.qreg q).enable = true → pi < 2 ^ (s.qreg q).log2 → (s.cmdq q).orphan = none →
        ws.length = (pi + 2 ^ (s.qreg q).log2 - (s.qreg q).pi) % 2 ^ (s.qreg q).log2 →
        ws.length + ((s.qreg q).pi + 2 ^ (s.qreg q).log2 - (s.qreg q).ci) % 2 ^ (s.qreg q).log2 < 2 ^ (s.qreg q).log2 →
        (∀ it ∈ (s.cmdq q).items ++ (parseWords (portSource q) false ((s.cmdq q).partialWords ++ ws.map (fun w => (w, pi))).length
          ((s.cmdq q).partialWords ++ ws.map (fun w => (w, pi)))).1, it.bad = none) →
        Happens (.queueItems :: eventParts) (fun t => (t.qreg q).pi = pi ∧ (t.qreg q).ci = (s.qreg q).ci
          ∧ (t.cmdq q).items = (s.cmdq q).items ++ (parseWords (portSource q) false
              ((s.cmdq q).partialWords ++ ws.map (fun w => (w, pi))).length
              ((s.cmdq q).partialWords ++ ws.map (fun w => (w, pi)))).1
          ∧ (∀ j, j ≠ q.val → t.cmdq j = s.cmdq j)) s (exec (.commandRingDoorbell q pi sync ws) s)))
    ∧ (∀ (q : Fin 9) (w : Word), bit w.toNat 30 = false →
      (bit w.toNat 31 = true → (s.qreg q).enable = false → 10 ≤ field w.toNat 16 5 → field w.toNat 16 5 ≤ 20 →
        Happens (withEvent [.queueItems, .responses]) (fun t => (t.qreg q).enable = true ∧ (t.qreg q).pi = 0 ∧ (t.qreg q).ci = 0
          ∧ (t.qreg q).log2 = field w.toNat 16 5 ∧ (t.qreg q).intOnItem = bit w.toNat 10
          ∧ (t.qreg q).intHoldoff = field w.toNat 0 10) s (exec (.ringEnableWrite q w) s))
      ∧ (bit w.toNat 31 = false → (s.qreg q).enable = true →
        Happens (withEvent [.queueItems, .responses]) (fun t => (t.qreg q).enable = false ∧ (t.qreg q).pi = (s.qreg q).pi
          ∧ (t.qreg q).ci = (s.qreg q).ci ∧ (t.qreg q).log2 = (s.qreg q).log2) s (exec (.ringEnableWrite q w) s)))
    ∧ (∀ (q : Fin 9) (ci : Nat),
      (q.val < 4 ∨ 2 ^ (s.qreg q).log2 ≤ ci ∨ s.fill q < (ci + 2 ^ (s.qreg q).log2 - (s.qreg q).ci) % 2 ^ (s.qreg q).log2 →
        exec (.ringCiWrite q ci) s = .next s)
      ∧ (4 ≤ q.val → ci < 2 ^ (s.qreg q).log2 → (ci + 2 ^ (s.qreg q).log2 - (s.qreg q).ci) % 2 ^ (s.qreg q).log2 ≤ s.fill q →
        Happens [.queueRegs, .queueItems, .responses] (fun t => (t.qreg q).ci = ci ∧ (t.qreg q).pi = (s.qreg q).pi
          ∧ ∀ j, j ≠ q.val → t.qreg j = s.qreg j) s (exec (.ringCiWrite q ci) s)))
    ∧ (∀ q : Fin 17, Happens [.queueRegs, .mons, .tlmq] (fun t =>
        (q.val < 12 → (t.qreg q).wm = { (s.qreg q).wm with latched := false })
        ∧ (∀ k : Nat, q.val = 12 + k → k < 4 → MonIs k (fun m => { m with wm := { m.wm with latched := false } }) s t)
        ∧ (q.val = 16 → t.tlmq = { s.tlmq with wm := { s.tlmq.wm with latched := false } })) s (exec (.wmLatchedClear q) s)))

/-- What waits in the protocol leaves when it can (R411, R413, R509, R510, R428). -/
def Obligations.HeldItemsAndInterrupts : Prop :=
  ∀ s : State,
    (∀ (n : Fin 5) (r : Resp) (l : List Resp), vget s.proto.heldResp n [] = r :: l →
      (s.respFits n r.size = true → Happens [.responses, .queueRegs, .msix, .alertN] (fun t =>
        vget t.proto.heldResp n [] = l ∧ vget t.proto.resp n [] = vget s.proto.resp n [] ++ [r]
        ∧ ∀ m, m < 5 → m ≠ n.val → vget t.proto.resp m [] = vget s.proto.resp m []
          ∧ vget t.proto.heldResp m [] = vget s.proto.heldResp m []) s (exec (.heldResponseCommit n) s))
      ∧ (s.respFits n r.size = false → exec (.heldResponseCommit n) s = .next s))
    ∧ (∀ (e : EventItem) (l : List EventItem), s.proto.heldEvents = e :: l →
      (s.proto.eventQueue.length < 4096 → l.any (sameSource e) = false → s.proto.mgmtResetArmed = none →
        Happens [.events, .queueRegs, .msix, .alertN] (fun t => t.proto.heldEvents = l
          ∧ t.proto.eventQueue = enterEvent (s.proto.spiEventRead != 0) e s.proto.eventQueue) s (exec .heldEventEntry s))
      ∧ (4096 ≤ s.proto.eventQueue.length → exec .heldEventEntry s = .next s))
    ∧ (∀ (e : EventItem) (l : List EventItem), s.proto.eventQueue = e :: l →
      ((s.qreg 8).enable = true → s.dev.endpointUp = true → s.dev.d3hot = false → s.fill 8 + e.size < s.capacity 8 →
        Happens [.events, .queueItems, .queueRegs, .msix, .alertN] (fun t => t.proto.eventQueue = l
          ∧ t.proto.eventRing = s.proto.eventRing ++ [e] ∧ t.proto.heldEvents = s.proto.heldEvents
          ∧ (t.qreg 8).pi = ((s.qreg 8).pi + e.size) % 2 ^ (s.qreg 8).log2) s (exec .eventRingDrain s))
      ∧ ((s.qreg 8).enable = false ∨ s.dev.endpointUp = false ∨ s.dev.d3hot = true ∨ s.capacity 8 ≤ s.fill 8 + e.size →
        exec .eventRingDrain s = .next s))
    ∧ (∀ q : Fin 9,
      ((s.qreg q).deferred = true → holdoffOver (s.qreg q) s.ticks = true → Happens [.queueRegs, .msix] (fun t =>
          t.qreg q = { s.qreg q with lastSignal := some s.ticks, deferred := false } ∧ (∀ j, j ≠ q.val → t.qreg j = s.qreg j))
          s (exec (.intHoldoffExpiry q) s))
      ∧ ((s.qreg q).deferred = false ∨ holdoffOver (s.qreg q) s.ticks = false → exec (.intHoldoffExpiry q) s = .next s))
    ∧ (∀ v : Fin 64, s.pathOpen .pcie = true → Happens [.msix] (fun t =>
        t.dev.msix[v] = { s.dev.msix[v] with masked := false, pendingBit := false
                                             sent := s.dev.msix[v].sent + b2n s.dev.msix[v].pendingBit }
        ∧ ∀ u : Fin 64, u ≠ v → t.dev.msix[u] = s.dev.msix[u]) s (exec (.msixUnmask v) s))
    ∧ (∀ (q : Nat) (f : Fin 257),
      (∀ j, s.proto.jobs.find? (fun j => j.ticket.seq == q) = some j →
        Happens (.jobs :: eventParts) (fun t => Raised .progress .device 0 (w1 j.ticket.tag ++ w1 j.ticket.issuer ++ w1 f) s.tn t
          ∧ t.proto.jobs = s.proto.jobs.map (fun x => if x.ticket.seq = q then { x with lastProgress := s.ticks } else x)) s
          (exec (.progress q f) s))
      ∧ (s.proto.jobs.find? (fun j => j.ticket.seq == q) = none → exec (.progress q f) s = .next s))

/-- The SPI target (R390, R418, R517, R518). -/
def Obligations.SpiWindows : Prop :=
  ∀ s : State,
    (s.ioHeld = false → Happens [.spiReply] (fun t => t.spiReply = [BitVec.ofNat 8 s.spiStatus]) s (exec .spiStatus s))
    ∧ (s.ioHeld = true → exec .spiStatus s = .next { s with spiReply := [] }
      ∧ ∀ n last, exec (.spiResponseWindowRead n last) s = .next { s with spiReply := [] }
        ∧ exec (.spiEventWindowRead n last) s = .next { s with spiReply := [] })
    ∧ (∀ (n : Nat) (last : Bool), s.ioHeld = false → s.proto.spiDead = false →
      Happens [.spiReply, .responses, .queueItems, .msix, .alertN] (fun t => t.spiReply.length = n
        ∧ (∃ k, vget t.proto.resp 4 [] = (vget s.proto.resp 4 []).drop k)
        ∧ (vget s.proto.resp 4 [] = [] → t.spiReply = (List.replicate (n / 8 + 1) notValid).flatten.take n)
        ∧ (∀ r l, vget s.proto.resp 4 [] = r :: l → n = r.octets.length - s.proto.spiRespRead →
          s.proto.spiRespRead < r.octets.length →
          t.spiReply = r.octets.drop s.proto.spiRespRead ∧ vget t.proto.resp 4 [] = l ∧ t.proto.spiRespRead = 0)) s
        (exec (.spiResponseWindowRead n last) s))
    ∧ (∀ (n : Nat) (last : Bool), s.ioHeld = false → s.proto.spiDead = false →
      Happens [.spiReply, .events, .queueItems, .msix, .alertN] (fun t => t.spiReply.length = n
        ∧ t.proto.heldEvents = s.proto.heldEvents
        ∧ ((s.qreg 8).enable = true → t.proto.eventQueue = s.proto.eventQueue
          ∧ t.spiReply = (List.replicate (n / 8 + 1) notValid).flatten.take n)
        ∧ ((s.qreg 8).enable = false → ∀ x l, s.proto.eventQueue = x :: l → n = x.octets.length - s.proto.spiEventRead →
          s.proto.spiEventRead < x.octets.length →
          t.spiReply = x.octets.drop s.proto.spiEventRead ∧ t.proto.eventQueue = l ∧ t.proto.spiEventRead = 0)) s
        (exec (.spiEventWindowRead n last) s))
    ∧ (∀ (n : Nat) (last : Bool), s.ioHeld = false → s.proto.spiDead = true →
      Happens [.spiReply, .queueItems] (fun t => t.spiReply = List.replicate n 0 ∧ t.proto.spiDead = !last) s
        (exec (.spiResponseWindowRead n last) s)
      ∧ Happens [.spiReply, .queueItems] (fun t => t.spiReply = List.replicate n 0 ∧ t.proto.spiDead = !last) s
        (exec (.spiEventWindowRead n last) s))
    ∧ (∀ (first last : Bool) (ws : List QWord),
      (s.mapOpen = false ∨ s.ioHeld = true → exec (.spiCommandWindowWrite first last ws) s = .next s)
      ∧ (s.mapOpen = true → s.ioHeld = false →
      (s.bootOverSpi = true → Happens [.devRegs] (fun t => t.dev.bootStage =
          (s.dev.bootStage ++ (ws.map (fun w => octetsBE 8 w.toNat)).flatten).take s.dev.bootImgLen) s
          (exec (.spiCommandWindowWrite first last ws) s))
      ∧ (s.bootOverSpi = false → s.proto.spiDead = true → first = false →
        Happens [.queueItems] (fun t => t.proto.spiDead = (!last) ∧ t.proto.spi = s.proto.spi) s
          (exec (.spiCommandWindowWrite first last ws) s))
      ∧ (s.bootOverSpi = false → s.proto.spiDead = false ∨ first = true →
        Happens (.queueItems :: eventParts) (fun t =>
          (t.proto.spiOpen = if last = true then false else if first = true then true else s.proto.spiOpen)
          ∧ (last = true → t.proto.spi.partialWords = [])
          ∧ (last = true → ws = [] → first = false → ∀ x r, s.proto.spi.partialWords = x :: r →
            Raised .badItem .queue 9 (w1 1 ++ w2 x.1.toNat) s.tn t)
          ∧ (first = false → ∀ o, s.proto.spi.orphan = some o → ws ≠ [] → s.proto.spi.partialWords = [] →
            t.proto.spi.items = s.proto.spi.items ∧ t.proto.spi.orphan = some (o.1, o.2 + ws.length)
            ∧ Counted .orphanWords .queue 9 1 t)) s (exec (.spiCommandWindowWrite first last ws) s))))

/-- Isolation and fencing (R490 to R496). -/
def Obligations.IsolationAndFencing : Prop :=
  ∀ (c : Cmd) (s : State),
    (Ready specEngineIsolate c s = true → Arms 0xA00 0xA00 c s (exec (.engineIsolate c) s))
    ∧ (Ready specEngineRestore c s = true → Arms 0xA00 0xA01 c s (exec (.engineRestore c) s))
    ∧ (cIdx c < 48 → TakesEffect 0xA00 c (withEvent [.engines, .jobs, .life]) (fun t =>
        (t.eng (cIdx c)).iso = some (isoOf c) ∧ (t.eng (cIdx c)).tx.reason.isolate = (isoOf c).squelch
        ∧ OtherEngines (cIdx c) s t ∧ Raised .isolateChange .engine (cIdx c) [] s.tn t) s)
    ∧ (cIdx c < 48 → (s.eng (cIdx c)).iso ≠ none → TakesEffect 0xA01 c (withEvent [.engines, .jobs, .life]) (fun t =>
        (t.eng (cIdx c)).iso = none ∧ (t.eng (cIdx c)).tx.reason.isolate = false
        ∧ OtherEngines (cIdx c) s t ∧ Raised .isolateChange .engine (cIdx c) [] s.tn t) s)
    ∧ (Ready specTileFence c s = true → Begins 0xA02 c [.armed] (Pending 0xA02 0xA02 (s.tn + 1) c) s (exec (.tileFence c) s))
    ∧ (cIdx c < 12 → (s.tile (cIdx c)).fenced = false →
      TakesEffect 0xA02 c (withEvent [.engines, .tiles, .dma, .jobs, .life, .packs]) (fun t =>
        (t.tile (cIdx c)).fenced = true ∧ (t.tile (cIdx c)).power = .goingDown ∧ (t.tile (cIdx c)).capture.state = .idle
        ∧ (∀ e ∈ tileEngines (cIdx c), (t.eng e).tx.reason.fence = true ∧ (t.eng e).acq.state = .disabled
          ∧ (t.eng e).key.slots = Vector.replicate 4 none ∧ (t.eng e).iso = none ∧ (t.eng e).hubSlots = [])
        ∧ (∀ e, e ∉ tileEngines (cIdx c) → t.eng e = s.eng e)
        ∧ (∀ j ∈ s.proto.jobs, onTile (cIdx c) j.cmd = true → Ended j .cancelled 0xA08 s.tn [] t)
        ∧ (∀ p, p < 24 → (s.pack p).capPending.any (fun x => x.2.any (fun e => tileOf e == cIdx c)) = true →
          (t.pack p).capPending = none ∧ ∀ j ∈ s.proto.jobs, jobOn 0x212 p j = true → Ended j .cancelled 0xA08 s.tn [] t)
        ∧ Raised .capWithdrawn .lineTile (cIdx c) (w1 1) s.tn t) s)
    ∧ (Ready specTileUnfence c s = true → (s.tile (cIdx c)).fenced = true →
      Begins 0xA03 c [.tiles] (fun t => TileIs (cIdx c) (fun x => { x with power := .comingUp }) s t
        ∧ ((s.tile (cIdx c)).power = .goingDown → ∀ j ∈ s.proto.jobs, jobOn 0xA02 (cIdx c) j = true →
            Ended j .cancelled 0xA08 s.tn [] t)) s (exec (.tileUnfence c) s))
    ∧ (Ready specTileUnfence c s = true → (s.tile (cIdx c)).fenced = false →
      Does 0xA03 c [] [.jobs] (fun t => ∀ j ∈ s.proto.jobs, jobOn 0xA03 (cIdx c) j = false → j ∈ t.proto.jobs) s
        (exec (.tileUnfence c) s))
    ∧ (∀ k : Fin 12,
      ((s.tile k).power = .goingDown → Happens (withEvent [.tiles, .jobs, .responses]) (fun t =>
          TileIs k (fun x => { x with power := .off }) s t ∧ Raised .fenceChange .lineTile k [] s.tn t
          ∧ ∀ j ∈ s.proto.jobs, jobOn 0xA02 k j = true → Ended j .ok 0 s.tn [] t) s (exec (.tilePowerDownDone k) s))
      ∧ ((s.tile k).power ≠ .goingDown → exec (.tilePowerDownDone k) s = .next s)
      ∧ ((s.tile k).power = .comingUp → Happens (withEvent [.tiles, .engines, .jobs, .responses]) (fun t =>
          TileIs k (fun x => { x with power := .on, fenced := false }) s t ∧ Raised .fenceChange .lineTile k [] s.tn t
          ∧ (∀ e ∈ tileEngines k, (t.eng e).tx.reason.fence = false
            ∧ ((s.eng e).kRx ≠ 0 → (s.eng e).acq.state = .disabled → (t.eng e).acq.state = .noSignal))
          ∧ (∀ e, e ∉ tileEngines k → t.eng e = s.eng e)
          ∧ ∀ j ∈ s.proto.jobs, jobOn 0xA03 k j = true → Ended j .ok 0 s.tn [] t) s (exec (.tilePowerUpDone k) s))
      ∧ ((s.tile k).power ≠ .comingUp → exec (.tilePowerUpDone k) s = .next s))

/-- The watchers and the last-resort timer (R485, R487 to R489). -/
def Obligations.Watchers : Prop :=
  ∀ s : State,
    (s.recovery.fw = .running → Happens [.recovery] (fun t => t.recovery = { s.recovery with fwBeat := s.ticks }) s
      (exec .fwHeartbeat s))
    ∧ (s.recovery.fw ≠ .running → exec .fwHeartbeat s = .next s)
    ∧ (s.shepWatches = true → Happens [.recovery] (fun t => t.recovery = { s.recovery with shepBeat := s.ticks }) s
      (exec .shepherdHeartbeat s))
    ∧ (s.shepWatches = false → exec .shepherdHeartbeat s = .next s)
    ∧ (s.recovery.fw = .running ∨ s.shepRuns = true → s.recovery.expired = false →
      Happens [.recovery] (fun t => t.recovery = { s.recovery with kick := s.ticks }) s (exec .lastResortKick s))
    ∧ (s.recovery.expired = true → exec .lastResortKick s = .next s)
    ∧ (s.recovery.fw = .running → s.shepWatches = true →
      (s.recovery.fwBeat + 62500 ≤ s.ticks →
        Happens (withEvent [.recovery, .life]) (DeclaredDown 1 s) s (exec .heartbeatTimeout s))
      ∧ Happens (withEvent [.recovery, .life]) (DeclaredDown 2 s) s (exec .fwFatalTrap s))
    ∧ (s.ticks < s.recovery.fwBeat + 62500 → exec .heartbeatTimeout s = .next s)
    ∧ (s.shepWatches = false → exec .fwFatalTrap s = .next s)
    ∧ (s.recovery.fw = .booting → s.dev.stage = .running → s.shepWatches = true → s.recovery.bootStart + 6250000 ≤ s.ticks →
      Happens (withEvent [.recovery, .life, .devRegs, .settings]) (fun t => DeclaredDown 3 s t ∧ t.dev.bootErr = 6
        ∧ (s.sec.trialBoot = true → t.kennel.settings =
            { s.kennel.settings with trial := false, bootPref := !s.kennel.settings.bootPref })
        ∧ (s.sec.trialBoot = false → t.kennel.settings = s.kennel.settings)) s (exec .fwBootTimeout s))
    ∧ (s.ticks < s.recovery.bootStart + 6250000 → exec .fwBootTimeout s = .next s)
    ∧ (s.fwUp = true → s.shepWatches = true → s.recovery.shepBeat + 62500 ≤ s.ticks →
      Happens (withEvent [.recovery, .life]) (fun t =>
        ((recentRestarts s.ticks s.recovery.shepRestarts).length < 3 → Raised .shepherdRestarted .device 0 [] s.tn t
          ∧ t.recovery = { s.recovery with
              shepBeat := s.ticks, shepRestarts := s.ticks :: recentRestarts s.ticks s.recovery.shepRestarts })
        ∧ (3 ≤ (recentRestarts s.ticks s.recovery.shepRestarts).length → t.recovery.shep = .stopped)) s
        (exec .shepherdHeartbeatTimeout s))
    ∧ (s.ticks < s.recovery.shepBeat + 62500 → exec .shepherdHeartbeatTimeout s = .next s)
    ∧ (s.recovery.expired = false → s.sysHeld = false → s.power.mgmtRstLow = false → s.recovery.kick + 1250000 ≤ s.ticks →
      Happens (withEvent [.recovery, .life]) (fun t => t.recovery.expired = true ∧ t.recovery.fw = .inReset
        ∧ t.recovery.bootAt = none ∧ t.recovery.shep = .lastResort ∧ t.recovery.lastCause = 5
        ∧ t.recovery.headless = some (s.recovery.headless.getD (s.ticks, s.tn))) s (exec .lastResortExpiry s))
    ∧ (s.ticks < s.recovery.kick + 1250000 → exec .lastResortExpiry s = .next s)

/-- The boot of firmware (R366, R367, R485, R487, R521, R522). -/
def Obligations.BootOfFirmware : Prop :=
  ∀ s : State,
    (s.recovery.fw = .booting → s.sysHeld = false →
      (s.dev.stage = .rom → s.dev.bootSrc < 2 →
        Happens (withEvent [.devRegs, .recovery, .sec]) (fun t =>
          (∀ i, bootSlot s.sec.fw s.kennel.settings.bootPref s.sec.rollback = some i →
            t.dev.stage = .running ∧ t.dev.fwSlot = (i == 1) ∧ t.dev.bootErr = 0 ∧ t.sec.running = vget s.sec.fw i FwSlot.reset
            ∧ t.recovery.bootStart = s.ticks ∧ t.recovery.fw = .booting)
          ∧ (bootSlot s.sec.fw s.kennel.settings.bootPref s.sec.rollback = none → t.dev.bootErr = 1
            ∧ (s.dev.bootSrc = 0 → t.dev.stage = .failed) ∧ (s.dev.bootSrc ≠ 0 → t.dev.stage = .waitHost))) s (exec .firmwareBoot s))
      ∧ (s.dev.stage = .rom → 2 ≤ s.dev.bootSrc →
        Happens [.devRegs, .sec] (fun t => t.dev.stage = .waitHost) s (exec .firmwareBoot s))
      ∧ (s.dev.stage = .verifying → Happens ([.devRegs, .recovery, .sec, .msix, .alertN]) (fun t =>
          (∀ f h, imageSlot (Config.splitImage s.dev.bootStage).1 = some f → imageSlot (Config.splitImage s.dev.bootStage).2 = some h →
            (s.sec.rollback ≤ f.svn → s.sec.rollback ≤ h.svn → t.dev.stage = .running ∧ t.sec.running = f ∧ t.sec.shepRunning = h)
            ∧ (f.svn < s.sec.rollback ∨ h.svn < s.sec.rollback → t.dev.stage = .failed ∧ t.dev.bootErr = 3 ∧ t.sec = s.sec))
          ∧ (imageSlot (Config.splitImage s.dev.bootStage).1 = none ∨ imageSlot (Config.splitImage s.dev.bootStage).2 = none →
            t.dev.stage = .failed ∧ t.dev.bootErr = 2 ∧ t.sec = s.sec)) s (exec .firmwareBoot s)))
    ∧ (s.recovery.fw ≠ .booting ∨ s.sysHeld = true → exec .firmwareBoot s = .next s)
    ∧ (s.mapOpen = true → s.dev.stage = .waitHost ∨ s.dev.stage = .failed →
      Happens [.devRegs, .dma, .msix, .alertN] (fun t =>
        (s.dev.bootImgLen % 8 = 0 → s.dev.bootImgLen ≤ 8388608 → s.dev.bootImgLen ≠ 0 →
          t.dev.stage = .loading ∧ t.dev.bootErr = 0 ∧ t.dev.bootGo = true ∧ t.dev.bootStage = []
          ∧ (s.dev.bootSrc ≠ 3 → (t.dc 0).state = .running ∧ 8 * (t.dc 0).lineLen = s.dev.bootImgLen
            ∧ (t.dc 0).lineCount = 8)
          ∧ (∀ q, q ≠ 0 → t.dc q = s.dc q))
        ∧ (s.dev.bootImgLen % 8 ≠ 0 ∨ 8388608 < s.dev.bootImgLen ∨ s.dev.bootImgLen = 0 →
          t.dev.stage = .failed ∧ t.dev.bootErr = 4 ∧ t.dma = s.dma)) s (exec .bootGo s))
    ∧ (s.mapOpen = false ∨ (s.dev.stage ≠ .waitHost ∧ s.dev.stage ≠ .failed) → exec .bootGo s = .next s)
    ∧ (s.recovery.fw = .booting → s.dev.stage = .running → s.recovery.expired = false → s.proto.mgmtResetArmed = none →
      s.sysHeld = false →
      Happens (withEvent [.recovery, .sec, .jobs, .responses, .ports, .held]) (fun t => t.recovery.fw = .running
        ∧ t.recovery.fwBeat = s.ticks ∧ t.recovery.headless = none ∧ t.recovery.restartCause = none ∧ t.sec.trialBoot = false
        ∧ (∀ x, s.recovery.restartCause = some x → Raised .fwRestarted .device 0 (w1 x) s.tn t)
        ∧ (∀ h, s.recovery.headless = some h → Raised .headlessExit .device 0 (w1 (s.ticks - h.1)) s.tn t
          ∧ t.proto.held = []
          ∧ ∀ j ∈ s.proto.jobs, (∀ a ∈ s.proto.armed, a.cmd ≠ j.cmd) → Ended j .restartAborted 0 s.tn [] t)) s
        (exec .fwRunningReport s))
    ∧ (s.recovery.fw ≠ .booting ∨ s.dev.stage ≠ .running → exec .fwRunningReport s = .next s)

/-- The resets of the endpoint and of the MGMT domain (R419, R473, R505, R506). -/
def Obligations.EndpointAndMgmtResets : Prop :=
  ∀ s : State,
    (s.power.perstLow = false → s.sysHeld = false →
      Happens (withEvent [.queueItems, .responses, .armed, .jobs, .held, .devRegs, .dma, .life, .power, .counters, .sec]) (fun t =>
        EndpointReset s t ∧ (NoFwLoad s → t.sec = s.sec) ∧ t.power = { s.power with perstLow := true } ∧ t.dev.endpointUp = false ∧ t.dev.linkUp = false) s
        (exec .perst s))
    ∧ (s.power.perstLow = true → exec .perst s = .next s)
    ∧ Happens [.devRegs, .power] (fun t => t.power = { s.power with perstLow := false } ∧ t.dev.endpointUp = t.endpointFree
        ∧ t.dev.linkUp = t.endpointFree) s (exec .perstRelease s)
    ∧ (s.dev.linkUp = true →
      Happens (withEvent [.queueItems, .responses, .armed, .jobs, .held, .devRegs, .dma, .counters, .sec])
        (fun t => EndpointReset s t ∧ (NoFwLoad s → t.sec = s.sec) ∧ t.dev.endpointUp = s.endpointFree) s (exec .hotReset s))
    ∧ (s.dev.linkUp = false → exec .hotReset s = .next s)
    ∧ (s.dev.endpointUp = true →
      Happens (withEvent [.queueItems, .responses, .armed, .jobs, .held, .devRegs, .dma, .counters, .sec])
        (fun t => EndpointReset s t ∧ (NoFwLoad s → t.sec = s.sec) ∧ t.dev.endpointUp = true ∧ t.dev.linkUp = s.dev.linkUp) s (exec .functionLevelReset s))
    ∧ (s.dev.endpointUp = false → exec .functionLevelReset s = .next s)
    ∧ (s.dev.endpointUp = true → s.dev.d3hot = false →
      Happens (withEvent [.responses, .jobs, .devRegs, .dma, .counters, .sec]) (fun t => t.dev.d3hot = true ∧ (NoFwLoad s → t.sec = s.sec)
        ∧ (∀ n, (s.dc n).state = .waiting ∨ (s.dc n).state = .running → (t.dc n).state = .ended ∧ (t.dc n).ended = .aborted
            ∧ (t.dc n).record = (s.dc n).record)
        ∧ (∀ n, (s.dc n).state ≠ .waiting → (s.dc n).state ≠ .running → t.dc n = s.dc n)
        ∧ (∀ q, q < 4 → t.qreg q = s.qreg q)) s (exec .d3hotEntry s))
    ∧ (s.dev.endpointUp = false ∨ s.dev.d3hot = true → exec .d3hotEntry s = .next s)
    ∧ Happens [.devRegs] (fun t => t.dev = { s.dev with
        d3hot := false, msix := if s.dev.d3hot then s.dev.msix.map MsixVector.flushed else s.dev.msix }) s (exec .d0Return s)
    ∧ Happens [.devRegs, .power] (fun t => t.power = { s.power with pcieRefclk := false } ∧ t.dev.endpointUp = false) s
        (exec .pcieRefclkLoss s)
    ∧ Happens [.devRegs, .power] (fun t => t.power = { s.power with pcieRefclk := true } ∧ t.dev.endpointUp = t.endpointFree) s
        (exec .pcieRefclkReturn s)
    ∧ (s.power.mgmtRstLow = false → s.sysHeld = false →
      Happens (withEvent [.queueItems, .responses, .armed, .jobs, .held, .mgmtReset, .devRegs, .dma, .life, .power, .counters, .mons, .chains
                , .tlmq, .sec, .recovery]) (fun t =>
        t.power = { s.power with mgmtRstLow := true } ∧ t.recovery.fw = .inReset ∧ t.recovery.shep = .watching
        ∧ t.recovery.expired = false ∧ t.recovery.headless = some (s.recovery.headless.getD (s.ticks, s.tn))
        ∧ t.dev.stage = .rom ∧ t.dev.bootErr = 0 ∧ t.dev.endpointUp = false
        ∧ t.proto.jobs = [] ∧ t.proto.held = [] ∧ t.proto.eventQueue = [] ∧ t.proto.heldEvents = [] ∧ t.proto.spi.items = []
        ∧ (∀ n, n < 4 → t.cmdq n = CmdQueue.reset)
        ∧ t.proto.armed = s.proto.armed.map (fun a => { a with ticket := none })
        ∧ t.proto.mgmtResetArmed = some (s.proto.mgmtResetArmed.getD s.proto.armed.length)
        ∧ t.dma = Vector.replicate 16 .reset ∧ t.sec.signing = [] ∧ t.sec.challenge = none) s (exec .mgmtRstAssert s))
    ∧ (s.power.mgmtRstLow = true → exec .mgmtRstAssert s = .next s)
    ∧ (s.power.mgmtRstLow = true → s.sysHeld = false → s.power.inReset.any (fun d => d.1 == .mgmt) = false →
      Happens (withEvent [.devRegs, .mgmtReset, .power, .recovery]) (fun t =>
        t.power = { s.power with mgmtRstLow := false } ∧ t.proto.mgmtResetArmed = none
        ∧ Raised .mgmtResetSeen .device 0 (w1 (s.proto.mgmtResetArmed.getD 0)) s.tn t
        ∧ (∀ tn, s.recovery.enterOwed = some tn → Raised .headlessEnter .device 0 [] tn t)
        ∧ (s.recovery.expired = false → s.recovery.shep ≠ .held → t.recovery.fw = .booting ∧ t.recovery.bootStart = s.ticks)
        ∧ (s.recovery.expired = true ∨ s.recovery.shep = .held → t.recovery.fw = s.recovery.fw)) s (exec .mgmtRstRelease s))
    ∧ (s.power.mgmtRstLow = false → exec .mgmtRstRelease s = .next s)

/-- SYS_RST_N and power (R352, R353, R483, R484, R497, R498, R501). -/
def Obligations.SystemResets : Prop :=
  ∀ s : State,
    (s.power.sysRstLow = false → Completes (exec .sysRstAssert s) (fun t => SystemReset s t ∧ t.power.sysRstLow = true
        ∧ t.dev.endpointUp = false
        ∧ t.kennel.life = { s.kennel.life with sysResets := min 4294967295 (s.kennel.life.sysResets + 1) }))
    ∧ (s.power.sysRstLow = true → exec .sysRstAssert s = .next s)
    ∧ (∀ elapsed : Nat,
      (s.power.sysRstLow = false → exec (.sysRstRelease elapsed) s = .next s)
      ∧ (s.power.sysRstLow = true → s.power.inReset.any (fun d => d.1 == .aux) = false → s.kennel.settingsCrc = true →
        s.kennel.lifeCrc = true → s.power.mgmtRstLow = false → s.kennel.settings.ivGen < 65535 →
        Completes (exec (.sysRstRelease elapsed) s) (fun t => t.power.sysRstLow = false
          ∧ t.kennel.settings = { s.kennel.settings with ivGen := s.kennel.settings.ivGen + 1 }
          ∧ t.kennel.life = s.kennel.life ∧ t.kennel.rtcKept = true
          ∧ t.kennel.rtc = (if s.kennel.rtcKept = true then (s.kennel.counted (Config.rtcError s.ticks) elapsed).rtc else 0)
          ∧ t.tn = (if s.kennel.settings.epochSet = true then ((t.kennel.rtcRead - s.kennel.settings.epochTai) / tickUnits).toNat else 0)
          ∧ t.nowTai = t.kennel.rtcRead ∧ t.tnProvisional = true ∧ t.time.timeValid = s.kennel.rtcKept)))
    ∧ Completes (exec .kennelPowerLoss s) (fun t => SystemReset s t ∧ t.power.sysRstLow = true ∧ t.power.vddAux = false
        ∧ t.power.vbat = false ∧ t.kennel.settingsCrc = false ∧ t.kennel.lifeCrc = false ∧ t.kennel.rtcKept = false)
    ∧ Completes (exec .vddAuxPowerUp s) (fun t => SystemReset s t ∧ t.power.sysRstLow = true ∧ t.power.vddAux = true
        ∧ t.kennel.life = { s.kennel.life with powerUps := min 4294967295 (s.kennel.life.powerUps + 1) }
        ∧ t.kennel.rtcKept = s.kennel.rtcKept)

/-- Rails and supplies (R478, R480 to R482, R497). -/
def Obligations.RailsAndDomains : Prop :=
  ∀ s : State,
    (∀ (d : Domain) (r : Rail) (level : Nat),
      (s.watching d r = true → 50 ≤ level → level ≤ 100 → Happens (withEvent [.power, .life]) (fun t => (d, r) ∈ t.power.warned
          ∧ (s.power.braceOn = none → t.power.braceOn = some { entry := s.ticks, warnedAt := s.ticks, deepest := level }
            ∧ Raised .braceEnter .device 0 (w1 d.idx ++ w1 r.code ++ w2 s.tn) s.tn t)
          ∧ (∀ b, s.power.braceOn = some b → t.power.braceOn = some { b with warnedAt := s.ticks, deepest := max b.deepest level })
          ∧ t.power.inReset = s.power.inReset) s (exec (.railWarning d r level) s))
      ∧ (s.watching d r = false ∨ level < 50 ∨ 100 < level → exec (.railWarning d r level) s = .next s)
      ∧ (s.watching d r = false ∨ level < 100 → exec (.railResetLevel d r level) s = .next s)
      ∧ (s.watching d r = true → 100 ≤ level → Completes (exec (.railResetLevel d r level) s) (fun t => t.domainHeld d = true
          ∧ (∀ x, x ≠ d → d ≠ .aux → t.domainHeld x = s.domainHeld x)
          ∧ (d ≠ .hub → d ≠ .mgmt → Raised .domainReset .device 0 (w1 d.idx ++ w1 r.code ++ w1 level) s.tn t)
          ∧ (∀ k, d = .lt k → (∀ e ∈ tileEngines k, (t.eng e).tx.reason.power = true ∧ (t.eng e).acq.state = .disabled
                ∧ (t.eng e).key.slots = Vector.replicate 4 none ∧ (t.eng e).hubSlots = [])
              ∧ (t.tile k).capture.state = .idle ∧ (∀ e, e ∉ tileEngines k → t.eng e = s.eng e)
              ∧ Only (withEvent [.engines, .tiles, .dma, .armed, .jobs, .responses, .life, .power]) s t)
          ∧ (∀ k, d = .ht k → t.engines = s.engines ∧ t.tiles.map (fun x => x.power) = s.tiles.map (fun x => x.power)
              ∧ ∀ n p, t.port? n = some p → n / 96 = k.val → p.state = .disabled ∨ p.state = .training)
          ∧ (d = .hub → t.ctr.slots = [] ∧ t.ctr.heads = [] ∧ t.engines.map (fun g => g.key) = s.engines.map (fun g => g.key))
          ∧ (d = .mgmt → t.recovery.fw = .inReset ∧ t.proto.jobs = [] ∧ t.proto.eventQueue = [] ∧ t.engines = s.engines)
          ∧ (d = .io → Only (withEvent [.life, .power]) s t)
          ∧ (d = .aux → SystemReset s t))))
    ∧ (s.power.braceOn = none → exec .braceExit s = .next s)
    ∧ (∀ b, s.power.braceOn = some b → s.ticks < b.warnedAt + 31 → exec .braceExit s = .next s)
    ∧ (∀ b, s.power.braceOn = some b → b.warnedAt + 31 ≤ s.ticks → Happens (.power :: eventParts) (fun t =>
        t.power = { s.power with
          braceOn := none, warned := [], avsLast := s.power.avsLast + (s.ticks - s.power.avsLast) / 6250 * 6250
          avsWas := if s.ticks < s.power.avsLast + 6250 then s.power.avsWas else s.power.avsTarget }
        ∧ Raised .braceExit .device 0 (w1 (s.ticks - b.entry) ++ w1 b.deepest) s.tn t) s (exec .braceExit s))
    ∧ (∀ (d : Domain) (elapsed : Nat),
      (s.holdServed d elapsed = false → exec (.domainResetRelease d elapsed) s = .next s)
      ∧ (s.domainHeld d = false → s.holdServed d elapsed = false)
      ∧ (∀ x, d ≠ .aux → s.power.inReset = [(d, x)] → (s.holdServed d elapsed = true ↔ x + 625 ≤ s.ticks))
      ∧ (s.holdServed d elapsed = true → Completes (exec (.domainResetRelease d elapsed) s) (fun t => t.domainHeld d = false
          ∧ (∀ k, d = .lt k → (∀ e ∈ tileEngines k, (t.eng e).tx = (s.eng e).tx
                ∧ ((s.eng e).kRx ≠ 0 → (s.eng e).acq.state = .disabled → (t.eng e).acq.state = .noSignal))
              ∧ (∀ e, e ∉ tileEngines k → t.eng e = s.eng e) ∧ Only [.engines, .power] s t)
          ∧ (d = .hub → Only [.power] s t)
          ∧ (d = .mgmt → s.power.mgmtRstLow = false → t.proto.mgmtResetArmed = none
              ∧ Raised .mgmtResetSeen .device 0 (w1 (s.proto.mgmtResetArmed.getD 0)) s.tn t)
          ∧ (d = .aux → s.power.sysRstLow = true → Only [.power] s t))))
    ∧ (∀ (step : Int) (ok : Bool),
      (s.sysHeld = true ∨ s.power.braceOn ≠ none ∨ s.ticks < s.power.avsLast + 6250 → exec (.avsLoopStep step ok) s = .next s)
      ∧ (s.sysHeld = false → s.power.braceOn = none → s.power.avsLast + 6250 ≤ s.ticks →
        Happens (withEvent [.power, .life]) (fun t => t.power.avsLast = s.ticks ∧ t.power.avsWas = s.power.avsTarget
          ∧ (ok = true → t.power.avsTarget = (clampI 600 720 ((s.power.avsTarget : Int) + clampI (-5) 5 step)).toNat)
          ∧ (ok = false → t.power.avsTarget = s.power.avsTarget
            ∧ t.kennel.life.avsFaults = min 4294967295 (s.kennel.life.avsFaults + 1))) s (exec (.avsLoopStep step ok) s)))
    ∧ (∀ mv : Nat, s.power.vddAux = true → Happens (withEvent [.power, .life]) (fun t =>
        t.power = { s.power with vbatMv := mv, vbat := mv != 0 }
        ∧ (mv < 2200 → t.kennel.life.vbatLowCount = min 4294967295 (s.kennel.life.vbatLowCount + 1)
          ∧ Raised .vbatLow .device 0 [] s.tn t)
        ∧ (2200 ≤ mv → t.kennel.life = s.kennel.life)) s (exec (.vbatMeasurement mv) s))

/-- The commands of groups 0x0, 0x9 and 0xB, SHEPHERD_STATUS and FE_PROFILE_LOAD. -/
def Obligations.DeviceAndKennelCommands : Prop :=
  ∀ (c : Cmd) (s : State),
    (Ready specDeviceNop c s = true → Reports 0x000 c [] s (exec (.deviceNop c) s))
    ∧ (Ready specDeviceIdentity c s = true → Reports 0x001 c (w1 0x4816 ++ w1 0x00A1 ++ packOctets (octetsBE 16 Config.serial.toNat)
        ++ w1 s.sec.running.version ++ w1 s.sec.shepRunning.version) s (exec (.deviceIdentity c) s))
    ∧ (Ready specDeviceStatus c s = true → Reports 0x002 c (w1 s.devFlags ++ w2 s.tn ++ wi s.hottest
        ++ w1 s.proto.eventQueue.length ++ w1 (s.tagsInFlight.length + b2n c.src.isHost)) s (exec (.deviceStatus c) s))
    ∧ (Ready specEventMaskSet c s = true → Does 0x003 c [] [.masks] (fun t =>
        (t.proto.masked.contains (field (cw c 1) 16 12) = bit (cw c 1) 0)
        ∧ ∀ n, n ≠ field (cw c 1) 16 12 → t.proto.masked.contains n = s.proto.masked.contains n) s (exec (.eventMaskSet c) s))
    ∧ (Ready specFeProfileLoad c s = true → BeginsDma 0x610 c none s (exec (.feProfileLoad c) s))
    ∧ (Ready specKennelStatus c s = true → Reports 0x900 c (w1 s.power.vbatMv
        ++ [Config.flagPairWord 0 (b2n s.kennel.settings.epochSet) (b2n s.kennel.settings.domainSet)
          , Config.flagPairWord 1 (b2n s.kennel.settings.bootPref) (b2n s.kennel.settings.trial)]
        ++ w1 (s.kennel.rtc / secondUnits).toNat) s (exec (.kennelStatus c) s))
    ∧ (Ready specLifeExport c s = true → BeginsDma 0x901 c (some s.kennel.life.image) s (exec (.lifeExport c) s))
    ∧ (Ready specKennelExport c s = true → BeginsDma 0x902 c (some s.kennel.settings.image) s (exec (.kennelExport c) s))
    ∧ (Ready specShepherdStatus c s = true → Reports 0xA04 c (w1 s.recovery.shep.code ++ w1 s.recovery.interventions
        ++ w1 s.recovery.lastCause ++ w1 (b2n s.recovery.expired)) s (exec (.shepherdStatus c) s))
    ∧ (Ready specFwLoad c s = true → BeginsDma 0xB00 c none s (exec (.fwLoad c) s))
    ∧ (Ready specFwActivate c s = true → s.power.mgmtRstLow = false → s.power.inReset.any (fun d => d.1 == .mgmt) = false →
      s.proto.mgmtResetArmed = none → Completes (exec (.fwActivate c) s) (fun t =>
        t.kennel.mirror = some s.kennel.life
        ∧ t.kennel.settings = { s.kennel.settings with bootPref := cSub c == 1, trial := true }
        ∧ t.recovery.fw = .booting ∧ t.recovery.bootStart = s.ticks ∧ t.proto.jobs = [] ∧ t.proto.held = []
        ∧ t.proto.armed = s.proto.armed.map (fun a => { a with ticket := none })
        ∧ Raised .mgmtResetSeen .device 0 (w1 s.proto.armed.length) s.tn t
        ∧ Only (withEvent [.queueItems, .responses, .armed, .jobs, .held, .mgmtReset, .devRegs, .dma, .counters, .mons, .chains, .tlmq, .sec
          , .recovery, .settings, .kennelRest, .seq]) s t))
    ∧ (Ready specFwCommit c s = true → Does 0xB02 c [] [.sec, .settings] (fun t =>
        t.sec = { s.sec with rollback := max s.sec.rollback s.sec.running.svn }
        ∧ t.kennel.settings = { s.kennel.settings with trial := false }) s (exec (.fwCommit c) s))
    ∧ (Ready specFwStatus c s = true → Reports 0xB03 c
        ([Config.flagPairWord 2 (b2n (vget s.sec.fw 0 FwSlot.reset).valid) (b2n (vget s.sec.fw 1 FwSlot.reset).valid)]
        ++ w1 (vget s.sec.fw 0 FwSlot.reset).version ++ w1 (vget s.sec.fw 1 FwSlot.reset).version
        ++ [Config.flagPairWord 3 (vget s.sec.fw 0 FwSlot.reset).svn.val (vget s.sec.fw 1 FwSlot.reset).svn.val]
        ++ w1 s.sec.rollback.val ++ [Config.flagPairWord 4 (b2n s.dev.fwSlot) (b2n s.kennel.settings.trial)]) s (exec (.fwStatus c) s))

/-- The life record, images, and the register map (R366, R470, R500, R501, R512, R522). -/
def Obligations.LifeRecordImagesAndRegisters : Prop :=
  ∀ s : State,
    (∀ temps : List (Option Int), (s.sysHeld = true ∨ s.power.vddAux = false → exec (.lifeRecordSecond temps) s = .next s)
      ∧ (s.sysHeld = false → s.power.vddAux = true → Happens (withEvent [.power, .life, .kennelRest]) (fun t =>
        (∀ k x, k < 18 → temps[k]? = some (some x) → vget t.power.tj k 0 = x)
        ∧ (s.kennel.pohSeconds + 1 < 3600 → t.kennel.pohSeconds = s.kennel.pohSeconds + 1 ∧ t.kennel.life.poh = s.kennel.life.poh)
        ∧ (3600 ≤ s.kennel.pohSeconds + 1 → t.kennel.pohSeconds = 0
          ∧ t.kennel.life.poh = min 4294967295 (s.kennel.life.poh + 1))) s (exec (.lifeRecordSecond temps) s)))
    ∧ (s.fwUp = true → Happens [.kennelRest] (fun t => t.kennel = { s.kennel with mirror := some s.kennel.life }) s (exec .lifeMirrorWrite s))
    ∧ (s.fwUp = false → exec .lifeMirrorWrite s = .next s)
    ∧ (∀ (n : Fin 16) (err : Bool) (moved : Nat) (j : Job), (s.dc n).state = .running → s.hostToDevice n = true →
      ¬(n.val = 0 ∧ s.dev.bootGo = true) → (s.dc n).loadEnd err = some .done → s.proto.jobs.find? (onChannel n) = some j →
      Completes (exec (.dmaChannelEnd n err moved) s) (fun t =>
        (j.ticket.opcode = 0xB00 →
          (∀ x, imageSlot (s.dc n).staged = some x → s.sec.rollback ≤ x.svn → t.sec = (s.setSlot j.cmd x).sec)
          ∧ (imageSlot (s.dc n).staged = none → t.sec = (s.setSlot j.cmd .reset).sec)
          ∧ (∀ x, imageSlot (s.dc n).staged = some x → x.svn < s.sec.rollback → t.sec = (s.setSlot j.cmd .reset).sec))
        ∧ (j.ticket.opcode = 0x132 →
          (∀ u, s.convCommit (cIdx j.cmd) (s.dc n).staged = .ok u → t.engines = u.engines)
          ∧ (∀ x, s.convCommit (cIdx j.cmd) (s.dc n).staged = .error x → t.engines = s.engines))))
    ∧ (∀ (err : Bool) (moved : Nat) (e : DmaEnd), (s.dc 0).state = .running → s.hostToDevice 0 = true → s.dev.bootGo = true →
      (s.dc 0).loadEnd err = some e → Happens [.dma, .devRegs, .recovery, .happened, .msix, .alertN] (fun t =>
        (t.dc 0).state = .ended ∧ (t.dc 0).ended = e ∧ (t.dc 0).abort = false
        ∧ (e = .done → t.dev.stage = .verifying ∧ t.dev.bootStage = (s.dc 0).staged ∧ t.recovery.bootStart = s.ticks)
        ∧ (e ≠ .done → t.dev.stage = .failed ∧ t.dev.bootErr = 5)) s (exec (.dmaChannelEnd 0 err moved) s))
    ∧ (∀ (p : Path) (b : Bool) (o : Nat) (v : Word),
      (s.pathOpen p = false ∨ o % 4 ≠ 0 → exec (.registerWrite p b o v) s = .next s)
      ∧ (b = false → 0x5400 ≤ o ∨ (0x1300 ≤ o ∧ o < 0x3000) → exec (.registerWrite p b o v) s = .next s)
      ∧ (b = true → p ≠ .pcie → exec (.registerWrite p b o v) s = .next s)
      ∧ (b = false → Happens (withEvent [.devRegs, .dma, .jobs, .mons, .queueItems, .responses, .time, .tlmq]) (fun t =>
          t.time = { s.time with snap := t.time.snap }
          ∧ (s.pathOpen p = true → o = 0x014 → t.dev = { s.dev with scratch := v.toNat })
          ∧ (s.pathOpen p = true → o = 0x010 → t.dev.alertMask = v.toNat)
          ∧ (s.pathOpen p = true → ∀ q : Nat, q < 9 → o = 0x1000 + 0x40 * q →
            ((s.qreg q).enable = false → (t.qreg q).baseLo = v.toNat / 4096 * 4096)
            ∧ ((s.qreg q).enable = true → t = s))
          ∧ (s.pathOpen p = true → ∀ n : Nat, n < 16 → o = 0x5000 + 0x40 * n + 0x0C →
            ((s.dc n).state ≠ .waiting → (s.dc n).state ≠ .running → ChannelIs n (fun d => { d with lineLen := field v.toNat 0 21 }) s t)
            ∧ ((s.dc n).state = .waiting ∨ (s.dc n).state = .running → t.dma = s.dma))) s (exec (.registerWrite p b o v) s))
      ∧ (b = true → Happens [.msix] (fun t => ∀ k : Fin 64, o / 16 ≠ k.val → t.dev.msix[k] = s.dev.msix[k]) s
          (exec (.registerWrite p b o v) s)))

/-- Where each row answers a next state, and what that state holds: the commands by their latency class (R397, R407, R424), the happenings
under the conditions of their own rules; the rows are listed in the definitions named. -/
def Obligations.EveryRowCompletes : Prop :=
  (∀ (c : Cmd) (s : State), CommandsComplete1 c s ∧ CommandsComplete2 c s ∧ CommandsComplete3 c s ∧ CommandsComplete4 c s
      ∧ CommandsComplete5 c s)
  ∧ ∀ s : State,
    (∀ (op : Fin 4096) (c : Cmd), opTable op = none → exec (.unknownOpcode op c) s = .next (runSpec none op c s))
    ∧ (∀ (op : Fin 4096) (c : Cmd) (sp : OpSpec) (rb : ReadBack), allSpecs.find? (fun x => x.code + 128 == op.val) = some sp →
      sp.read = some rb → exec (.readCounterpart op c) s = .next (runSpec (some (readSpec sp rb)) op c s))
    ∧ BoundaryRowsComplete s ∧ LineRowsComplete s ∧ HostRowsComplete s ∧ TimeRowsComplete s ∧ PtpRowsComplete s ∧ UnitRowsComplete s
      ∧ DmaRowsComplete s ∧ ResetRowsComplete s ∧ RecoveryRowsComplete s ∧ QueueRowsComplete s ∧ RestRowsComplete s
end

