-- ==== Sys2Proof/Laws/Cells.lean ====
section
/-! SUPPORT. The sparse memories: reads after writes, and that every write keeps the canonical form. -/
namespace Sys2Proof.Machine
variable {β : Type} [DecidableEq β]

/-- Every key of a memory lies above `k`. -/
def above (k : Nat) (m : List (Nat × β)) : Prop := ∀ x ∈ m, k < x.1
/-- The canonical form, one entry at a time. -/
theorem cellsWf_cons (d : β) (j : Nat) (b : β) (r : List (Nat × β)) :
    cellsWf d ((j, b) :: r) = true ↔ b ≠ d ∧ above j r ∧ cellsWf d r = true := by
  induction r generalizing j b with
  | nil => simp [cellsWf, above]
  | cons x r ih =>
    obtain ⟨k, c⟩ := x
    simp only [cellsWf, Bool.and_eq_true, decide_eq_true_eq, bne_iff_ne, ne_eq]
    constructor
    · rintro ⟨⟨hjk, hb⟩, hr⟩
      refine ⟨hb, ?_, hr⟩
      have h := ((ih k c).mp hr).2.1
      intro y hy
      rcases List.mem_cons.mp hy with rfl | hy
      · exact hjk
      · exact Nat.lt_trans hjk (h y hy)
    · rintro ⟨hb, ha, hr⟩
      exact ⟨⟨ha (k, c) (by simp), hb⟩, hr⟩
/-- A write adds no key but its own. -/
theorem mem_cellSet (m : List (Nat × β)) (k : Nat) (v d : β) (x : Nat × β) (h : x ∈ cellSet m k v d) : x ∈ m ∨ x = (k, v) := by
  induction m with
  | nil =>
    simp only [cellSet] at h
    split at h <;> simp_all
  | cons y r ih =>
    obtain ⟨j, b⟩ := y
    simp only [cellSet] at h
    repeat' split at h
    all_goals simp only [List.mem_cons] at h ⊢
    · rcases h with h | h
      · exact .inl (.inl h)
      · rcases ih h with h | h
        · exact .inl (.inr h)
        · exact .inr h
    all_goals tauto
/-- A write keeps the keys above a bound that its own key is above. -/
theorem above_cellSet (m : List (Nat × β)) (j k : Nat) (v d : β) (hm : above j m) (hk : j < k) : above j (cellSet m k v d) := by
  intro x hx
  rcases mem_cellSet m k v d x hx with h | rfl
  · exact hm x h
  · exact hk
/-- A write keeps the canonical form. -/
theorem cellsWf_cellSet (m : List (Nat × β)) (k : Nat) (v d : β) (h : cellsWf d m = true) : cellsWf d (cellSet m k v d) = true := by
  induction m with
  | nil =>
    simp only [cellSet]
    split
    · rfl
    · simp only [cellsWf, bne_iff_ne]; assumption
  | cons y r ih =>
    obtain ⟨j, b⟩ := y
    obtain ⟨hb, ha, hr⟩ := (cellsWf_cons d j b r).mp h
    simp only [cellSet]
    split
    · rename_i hjk
      exact (cellsWf_cons d j b _).mpr ⟨hb, above_cellSet r j k v d ha hjk, ih hr⟩
    · split
      · rename_i _ hjk
        subst hjk
        split
        · exact hr
        · exact (cellsWf_cons d _ v r).mpr ⟨by assumption, ha, hr⟩
      · split
        · exact h
        · rename_i h1 h2 h3
          refine (cellsWf_cons d k v _).mpr ⟨h3, ?_, h⟩
          intro x hx
          rcases List.mem_cons.mp hx with rfl | hx
          · omega
          · have := ha x hx; omega
/-- Writing consecutive values keeps the canonical form. -/
theorem cellsWf_cellSetMany (d : β) (l : List β) : ∀ (m : List (Nat × β)) (k : Nat), cellsWf d m = true →
    cellsWf d (cellSetMany d m k l) = true := by
  induction l with
  | nil => intro m k h; exact h
  | cons v r ih => intro m k h; exact ih _ _ (cellsWf_cellSet m k v d h)
omit [DecidableEq β] in
/-- A key below every listed one reads the unlisted value. -/
theorem cellGet_above (m : List (Nat × β)) (k : Nat) (d : β) (h : above k m) : cellGet m k d = d := by
  induction m with
  | nil => rfl
  | cons x r ih =>
    obtain ⟨j, b⟩ := x
    have hj : j ≠ k := by have := h (j, b) (by simp); simp at this; omega
    simp only [cellGet, if_neg hj]
    exact ih (fun x hx => h x (by simp [hx]))
/-- A read after a write to the same key gives the value written. -/
theorem cellGet_cellSet_same (m : List (Nat × β)) (k : Nat) (v d : β) (h : cellsWf d m = true) : cellGet (cellSet m k v d) k d = v := by
  induction m with
  | nil => simp only [cellSet]; split <;> simp_all [cellGet]
  | cons y r ih =>
    obtain ⟨j, b⟩ := y
    obtain ⟨_, ha, hr⟩ := (cellsWf_cons d j b r).mp h
    simp only [cellSet]
    split
    · rename_i hjk
      simp only [cellGet, if_neg (Nat.ne_of_lt hjk)]
      exact ih hr
    · split
      · rename_i _ hjk
        subst hjk
        split
        · rename_i hv; rw [hv]; exact cellGet_above r _ d ha
        · simp [cellGet]
      · rename_i h1 h2
        split
        · rename_i hv
          rw [hv]
          refine cellGet_above _ k d ?_
          intro x hx
          rcases List.mem_cons.mp hx with rfl | hx
          · omega
          · have := ha x hx; omega
        · simp [cellGet]
/-- A write leaves every other key alone. -/
theorem cellGet_cellSet_other (m : List (Nat × β)) (k i : Nat) (v d : β) (hi : i ≠ k) (h : cellsWf d m = true) :
    cellGet (cellSet m k v d) i d = cellGet m i d := by
  induction m with
  | nil => simp only [cellSet]; split <;> simp [cellGet, Ne.symm hi]
  | cons y r ih =>
    obtain ⟨j, b⟩ := y
    obtain ⟨_, ha, hr⟩ := (cellsWf_cons d j b r).mp h
    simp only [cellSet]
    split
    · simp only [cellGet]; split
      · rfl
      · exact ih hr
    · split
      · rename_i _ hjk
        subst hjk
        split
        · simp [cellGet, Ne.symm hi]
        · simp [cellGet, Ne.symm hi]
      · split
        · rfl
        · simp [cellGet, Ne.symm hi]
/-- What one write to the counter array or a calendar bank does: its key, every other key, and the canonical form. -/
theorem cellSet_spec (m : List (Nat × β)) (k : Nat) (v d : β) (h : cellsWf d m = true) :
    cellGet (cellSet m k v d) k d = v ∧ (∀ i, i ≠ k → cellGet (cellSet m k v d) i d = cellGet m i d)
      ∧ cellsWf d (cellSet m k v d) = true :=
  ⟨cellGet_cellSet_same m k v d h, fun i hi => cellGet_cellSet_other m k i v d hi h, cellsWf_cellSet m k v d h⟩
end Sys2Proof.Machine
end

