-- ==== Sys2Proof/Laws/OpTable.lean ====
section
/-! SUPPORT. The row of each opcode, looked up once. -/
namespace Sys2Proof.Machine

theorem opTable_DeviceNop : opTable 0x000 = some specDeviceNop := rfl
theorem opTable_DeviceIdentity : opTable 0x001 = some specDeviceIdentity := rfl
theorem opTable_DeviceStatus : opTable 0x002 = some specDeviceStatus := rfl
theorem opTable_EventMaskSet : opTable 0x003 = some specEventMaskSet := rfl
theorem opTable_FeProfileLoad : opTable 0x610 = some specFeProfileLoad := rfl
theorem opTable_EngineIterCapSet : opTable 0x102 = some specEngineIterCapSet := rfl
theorem opTable_EngineLoadSet : opTable 0x103 = some specEngineLoadSet := rfl
theorem opTable_EngineLoadAnnounce : opTable 0x104 = some specEngineLoadAnnounce := rfl
theorem opTable_EngineCapacitySet : opTable 0x101 = some specEngineCapacitySet := rfl
theorem opTable_EngineProfileSet : opTable 0x100 = some specEngineProfileSet := rfl
theorem opTable_EngineSynthSet : opTable 0x105 = some specEngineSynthSet := rfl
theorem opTable_EngineTxcorrSet : opTable 0x106 = some specEngineTxcorrSet := rfl
theorem opTable_EnginePreemphLoad : opTable 0x107 = some specEnginePreemphLoad := rfl
theorem opTable_EnginePreemphSwap : opTable 0x108 = some specEnginePreemphSwap := rfl
theorem opTable_EngineNlcSet : opTable 0x10A = some specEngineNlcSet := rfl
theorem opTable_EngineNlcCoefLoad : opTable 0x10B = some specEngineNlcCoefLoad := rfl
theorem opTable_EngineNlcCoefSwap : opTable 0x10C = some specEngineNlcCoefSwap := rfl
theorem opTable_SpectralMapSet : opTable 0x109 = some specSpectralMapSet := rfl
theorem opTable_EngineNbrStatus : opTable 0x11B = some specEngineNbrStatus := rfl
theorem opTable_EngineMuzzle : opTable 0x10D = some specEngineMuzzle := rfl
theorem opTable_EngineUnmuzzle : opTable 0x10E = some specEngineUnmuzzle := rfl
theorem opTable_EngineMuzzleClear : opTable 0x10F = some specEngineMuzzleClear := rfl
theorem opTable_EngineMuzzleCfgSet : opTable 0x110 = some specEngineMuzzleCfgSet := rfl
theorem opTable_EngineAcqSet : opTable 0x111 = some specEngineAcqSet := rfl
theorem opTable_EngineAcqRestart : opTable 0x112 = some specEngineAcqRestart := rfl
theorem opTable_EngineAcqStatus : opTable 0x113 = some specEngineAcqStatus := rfl
theorem opTable_EngineLeashSet : opTable 0x114 = some specEngineLeashSet := rfl
theorem opTable_EngineRxfeSet : opTable 0x115 = some specEngineRxfeSet := rfl
theorem opTable_EngineCdSet : opTable 0x116 = some specEngineCdSet := rfl
theorem opTable_EngineCdLoad : opTable 0x117 = some specEngineCdLoad := rfl
theorem opTable_EngineCdSwap : opTable 0x118 = some specEngineCdSwap := rfl
theorem opTable_EngineEqSet : opTable 0x119 = some specEngineEqSet := rfl
theorem opTable_EngineRxQuality : opTable 0x11A = some specEngineRxQuality := rfl
theorem opTable_ConvStatus : opTable 0x130 = some specConvStatus := rfl
theorem opTable_ConvCalRead : opTable 0x131 = some specConvCalRead := rfl
theorem opTable_ConvCalLoad : opTable 0x132 = some specConvCalLoad := rfl
theorem opTable_ConvCalFactory : opTable 0x133 = some specConvCalFactory := rfl
theorem opTable_ConvRetireCmd : opTable 0x134 = some specConvRetireCmd := rfl
theorem opTable_ConvRestore : opTable 0x135 = some specConvRestore := rfl
theorem opTable_ConvCalSet : opTable 0x136 = some specConvCalSet := rfl
theorem opTable_EngineTtiSet : opTable 0x11C = some specEngineTtiSet := rfl
theorem opTable_EngineTtiRead : opTable 0x11D = some specEngineTtiRead := rfl
theorem opTable_EngineLock : opTable 0x11F = some specEngineLock := rfl
theorem opTable_EngineUnlock : opTable 0x120 = some specEngineUnlock := rfl
theorem opTable_EngineSvcWrite : opTable 0x121 = some specEngineSvcWrite := rfl
theorem opTable_EngineSvcRead : opTable 0x122 = some specEngineSvcRead := rfl
theorem opTable_EngineOpareaSet : opTable 0x123 = some specEngineOpareaSet := rfl
theorem opTable_EngineOpareaRead : opTable 0x124 = some specEngineOpareaRead := rfl
theorem opTable_CalLoad : opTable 0x200 = some specCalLoad := rfl
theorem opTable_CalRead : opTable 0x201 = some specCalRead := rfl
theorem opTable_CalSwap : opTable 0x202 = some specCalSwap := rfl
theorem opTable_PackSet : opTable 0x210 = some specPackSet := rfl
theorem opTable_PackDelete : opTable 0x211 = some specPackDelete := rfl
theorem opTable_PackCapacitySet : opTable 0x212 = some specPackCapacitySet := rfl
theorem opTable_PackSkewSet : opTable 0x213 = some specPackSkewSet := rfl
theorem opTable_PackStatus : opTable 0x214 = some specPackStatus := rfl
theorem opTable_StoreSet : opTable 0x215 = some specStoreSet := rfl
theorem opTable_CalStatus : opTable 0x203 = some specCalStatus := rfl
theorem opTable_HostClkSet : opTable 0x310 = some specHostClkSet := rfl
theorem opTable_LaneSet : opTable 0x311 = some specLaneSet := rfl
theorem opTable_LaneLoopback : opTable 0x312 = some specLaneLoopback := rfl
theorem opTable_LanePrbsSet : opTable 0x313 = some specLanePrbsSet := rfl
theorem opTable_LanePrbsStatus : opTable 0x314 = some specLanePrbsStatus := rfl
theorem opTable_PortSet : opTable 0x300 = some specPortSet := rfl
theorem opTable_PortDelete : opTable 0x301 = some specPortDelete := rfl
theorem opTable_PortEnable : opTable 0x302 = some specPortEnable := rfl
theorem opTable_PortDisable : opTable 0x303 = some specPortDisable := rfl
theorem opTable_PortRestart : opTable 0x304 = some specPortRestart := rfl
theorem opTable_PortTest : opTable 0x305 = some specPortTest := rfl
theorem opTable_PortTrainSet : opTable 0x306 = some specPortTrainSet := rfl
theorem opTable_PortTxFfe : opTable 0x307 = some specPortTxFfe := rfl
theorem opTable_PortDefectSet : opTable 0x309 = some specPortDefectSet := rfl
theorem opTable_PortStatus : opTable 0x30A = some specPortStatus := rfl
theorem opTable_PortTapSet : opTable 0x308 = some specPortTapSet := rfl
theorem opTable_PtpClockSet : opTable 0x420 = some specPtpClockSet := rfl
theorem opTable_PtpPortSet : opTable 0x421 = some specPtpPortSet := rfl
theorem opTable_PtpPortStatus : opTable 0x422 = some specPtpPortStatus := rfl
theorem opTable_TimeStatus : opTable 0x400 = some specTimeStatus := rfl
theorem opTable_TimeSourceSet : opTable 0x401 = some specTimeSourceSet := rfl
theorem opTable_TimeParamSet : opTable 0x402 = some specTimeParamSet := rfl
theorem opTable_TimeSet : opTable 0x403 = some specTimeSet := rfl
theorem opTable_TimeUtcSet : opTable 0x404 = some specTimeUtcSet := rfl
theorem opTable_TimeOscSet : opTable 0x405 = some specTimeOscSet := rfl
theorem opTable_TimeEpochForce : opTable 0x406 = some specTimeEpochForce := rfl
theorem opTable_TimePpsInSet : opTable 0x407 = some specTimePpsInSet := rfl
theorem opTable_TimePpsOutSet : opTable 0x408 = some specTimePpsOutSet := rfl
theorem opTable_TimeTodSet : opTable 0x409 = some specTimeTodSet := rfl
theorem opTable_LttSet : opTable 0x410 = some specLttSet := rfl
theorem opTable_LttStatus : opTable 0x411 = some specLttStatus := rfl
theorem opTable_EngineDelayCert : opTable 0x412 = some specEngineDelayCert := rfl
theorem opTable_CertDump : opTable 0x413 = some specCertDump := rfl
theorem opTable_AsymSet : opTable 0x414 = some specAsymSet := rfl
theorem opTable_AsymValidate : opTable 0x415 = some specAsymValidate := rfl
theorem opTable_AsymClear : opTable 0x416 = some specAsymClear := rfl
theorem opTable_RouteSet : opTable 0x417 = some specRouteSet := rfl
theorem opTable_TimeFreqRefSet : opTable 0x40A = some specTimeFreqRefSet := rfl
theorem opTable_EngineCryptoSet : opTable 0x500 = some specEngineCryptoSet := rfl
theorem opTable_KeyLoad : opTable 0x501 = some specKeyLoad := rfl
theorem opTable_KeyErase : opTable 0x502 = some specKeyErase := rfl
theorem opTable_KeyTxSwitch : opTable 0x503 = some specKeyTxSwitch := rfl
theorem opTable_KeyRxSwitch : opTable 0x504 = some specKeyRxSwitch := rfl
theorem opTable_KeyRxFollow : opTable 0x505 = some specKeyRxFollow := rfl
theorem opTable_KeyStatus : opTable 0x506 = some specKeyStatus := rfl
theorem opTable_DomainEnrol : opTable 0x510 = some specDomainEnrol := rfl
theorem opTable_DomainClear : opTable 0x511 = some specDomainClear := rfl
theorem opTable_TagCertRead : opTable 0x512 = some specTagCertRead := rfl
theorem opTable_AttestReport : opTable 0x513 = some specAttestReport := rfl
theorem opTable_TestportChallenge : opTable 0x514 = some specTestportChallenge := rfl
theorem opTable_TestportUnlock : opTable 0x515 = some specTestportUnlock := rfl
theorem opTable_FeBusAccess : opTable 0x611 = some specFeBusAccess := rfl
theorem opTable_MonCal : opTable 0x600 = some specMonCal := rfl
theorem opTable_MonSeqSet : opTable 0x601 = some specMonSeqSet := rfl
theorem opTable_MonSeqStart : opTable 0x602 = some specMonSeqStart := rfl
theorem opTable_MonSeqStop : opTable 0x603 = some specMonSeqStop := rfl
theorem opTable_MonInject : opTable 0x604 = some specMonInject := rfl
theorem opTable_MonCorrSet : opTable 0x605 = some specMonCorrSet := rfl
theorem opTable_MonTestdacSet : opTable 0x606 = some specMonTestdacSet := rfl
theorem opTable_TlmChainSet : opTable 0x620 = some specTlmChainSet := rfl
theorem opTable_TlmCoefLoad : opTable 0x621 = some specTlmCoefLoad := rfl
theorem opTable_TlmCoefSwap : opTable 0x622 = some specTlmCoefSwap := rfl
theorem opTable_TlmReset : opTable 0x623 = some specTlmReset := rfl
theorem opTable_EngineDefectSet : opTable 0x11E = some specEngineDefectSet := rfl
theorem opTable_CtrRead : opTable 0x800 = some specCtrRead := rfl
theorem opTable_CtrChainSet : opTable 0x801 = some specCtrChainSet := rfl
theorem opTable_CtrFilterSet : opTable 0x802 = some specCtrFilterSet := rfl
theorem opTable_CtrBwSet : opTable 0x803 = some specCtrBwSet := rfl
theorem opTable_CtrSnapshot : opTable 0x804 = some specCtrSnapshot := rfl
theorem opTable_CtrDump : opTable 0x805 = some specCtrDump := rfl
theorem opTable_CtrIndex : opTable 0x806 = some specCtrIndex := rfl
theorem opTable_CapSet : opTable 0x700 = some specCapSet := rfl
theorem opTable_CapArm : opTable 0x701 = some specCapArm := rfl
theorem opTable_CapWithdraw : opTable 0x702 = some specCapWithdraw := rfl
theorem opTable_CapStatus : opTable 0x703 = some specCapStatus := rfl
theorem opTable_EngineIsolate : opTable 0xA00 = some specEngineIsolate := rfl
theorem opTable_EngineRestore : opTable 0xA01 = some specEngineRestore := rfl
theorem opTable_TileFence : opTable 0xA02 = some specTileFence := rfl
theorem opTable_TileUnfence : opTable 0xA03 = some specTileUnfence := rfl
theorem opTable_LifeExport : opTable 0x901 = some specLifeExport := rfl
theorem opTable_KennelExport : opTable 0x902 = some specKennelExport := rfl
theorem opTable_KennelStatus : opTable 0x900 = some specKennelStatus := rfl
theorem opTable_ShepherdStatus : opTable 0xA04 = some specShepherdStatus := rfl
theorem opTable_FwLoad : opTable 0xB00 = some specFwLoad := rfl
theorem opTable_FwActivate : opTable 0xB01 = some specFwActivate := rfl
theorem opTable_FwCommit : opTable 0xB02 = some specFwCommit := rfl
theorem opTable_FwStatus : opTable 0xB03 = some specFwStatus := rfl

end Sys2Proof.Machine
end

