-- ==== Sys2Proof/Laws/State.lean ====
section
/-! SUPPORT. What each update of the state leaves and what it changes: one lemma per field per update, so that no proof unfolds a record
update. -/
namespace Sys2Proof.Machine

/-! ### Arrays -/

@[simp] theorem vget_vmod_same {α : Type} {n : Nat} (v : Vector α n) (i : Nat) (f : α → α) (d : α) (h : i < n) :
    vget (vmod v i f) i d = f (vget v i d) := by
  simp [vget, vmod, h]
@[simp] theorem vget_vmod_ne {α : Type} {n : Nat} (v : Vector α n) (i j : Nat) (f : α → α) (d : α) (h : j ≠ i) :
    vget (vmod v i f) j d = vget v j d := by
  unfold vget vmod
  split
  · split
    · rw [Vector.getElem_set_ne]; exact fun e => h e.symm
    · rfl
  · rfl
theorem vmod_out {α : Type} {n : Nat} (v : Vector α n) (i : Nat) (f : α → α) (h : ¬ i < n) : vmod v i f = v := by
  simp [vmod, h]

/-! ### modEng -/

@[simp] theorem State.modEng_tn (i : Nat) (f : Engine → Engine) (s : State) : (s.modEng i f).tn = s.tn := rfl
@[simp] theorem State.modEng_tickOffset (i : Nat) (f : Engine → Engine) (s : State) : (s.modEng i f).tickOffset = s.tickOffset := rfl
@[simp] theorem State.modEng_ticks (i : Nat) (f : Engine → Engine) (s : State) : (s.modEng i f).ticks = s.ticks := rfl
@[simp] theorem State.modEng_tnProvisional (i : Nat) (f : Engine → Engine) (s : State) : (s.modEng i f).tnProvisional = s.tnProvisional := rfl
@[simp] theorem State.modEng_realign (i : Nat) (f : Engine → Engine) (s : State) : (s.modEng i f).realign = s.realign := rfl
@[simp] theorem State.modEng_trafficLast (i : Nat) (f : Engine → Engine) (s : State) : (s.modEng i f).trafficLast = s.trafficLast := rfl
@[simp] theorem State.modEng_tiles (i : Nat) (f : Engine → Engine) (s : State) : (s.modEng i f).tiles = s.tiles := rfl
@[simp] theorem State.modEng_htiles (i : Nat) (f : Engine → Engine) (s : State) : (s.modEng i f).htiles = s.htiles := rfl
@[simp] theorem State.modEng_lanes (i : Nat) (f : Engine → Engine) (s : State) : (s.modEng i f).lanes = s.lanes := rfl
@[simp] theorem State.modEng_ports (i : Nat) (f : Engine → Engine) (s : State) : (s.modEng i f).ports = s.ports := rfl
@[simp] theorem State.modEng_packs (i : Nat) (f : Engine → Engine) (s : State) : (s.modEng i f).packs = s.packs := rfl
@[simp] theorem State.modEng_cal (i : Nat) (f : Engine → Engine) (s : State) : (s.modEng i f).cal = s.cal := rfl
@[simp] theorem State.modEng_map (i : Nat) (f : Engine → Engine) (s : State) : (s.modEng i f).map = s.map := rfl
@[simp] theorem State.modEng_mapCentre (i : Nat) (f : Engine → Engine) (s : State) : (s.modEng i f).mapCentre = s.mapCentre := rfl
@[simp] theorem State.modEng_mons (i : Nat) (f : Engine → Engine) (s : State) : (s.modEng i f).mons = s.mons := rfl
@[simp] theorem State.modEng_tlmq (i : Nat) (f : Engine → Engine) (s : State) : (s.modEng i f).tlmq = s.tlmq := rfl
@[simp] theorem State.modEng_chains (i : Nat) (f : Engine → Engine) (s : State) : (s.modEng i f).chains = s.chains := rfl
@[simp] theorem State.modEng_dma (i : Nat) (f : Engine → Engine) (s : State) : (s.modEng i f).dma = s.dma := rfl
@[simp] theorem State.modEng_proto (i : Nat) (f : Engine → Engine) (s : State) : (s.modEng i f).proto = s.proto := rfl
@[simp] theorem State.modEng_dev (i : Nat) (f : Engine → Engine) (s : State) : (s.modEng i f).dev = s.dev := rfl
@[simp] theorem State.modEng_ctr (i : Nat) (f : Engine → Engine) (s : State) : (s.modEng i f).ctr = s.ctr := rfl
@[simp] theorem State.modEng_power (i : Nat) (f : Engine → Engine) (s : State) : (s.modEng i f).power = s.power := rfl
@[simp] theorem State.modEng_recovery (i : Nat) (f : Engine → Engine) (s : State) : (s.modEng i f).recovery = s.recovery := rfl
@[simp] theorem State.modEng_kennel (i : Nat) (f : Engine → Engine) (s : State) : (s.modEng i f).kennel = s.kennel := rfl
@[simp] theorem State.modEng_time (i : Nat) (f : Engine → Engine) (s : State) : (s.modEng i f).time = s.time := rfl
@[simp] theorem State.modEng_sec (i : Nat) (f : Engine → Engine) (s : State) : (s.modEng i f).sec = s.sec := rfl
@[simp] theorem State.modEng_clockIdentity (i : Nat) (f : Engine → Engine) (s : State) : (s.modEng i f).clockIdentity = s.clockIdentity := rfl
@[simp] theorem State.modEng_parityLast (i : Nat) (f : Engine → Engine) (s : State) : (s.modEng i f).parityLast = s.parityLast := rfl
@[simp] theorem State.modEng_readWord (i : Nat) (f : Engine → Engine) (s : State) : (s.modEng i f).readWord = s.readWord := rfl
@[simp] theorem State.modEng_spiReply (i : Nat) (f : Engine → Engine) (s : State) : (s.modEng i f).spiReply = s.spiReply := rfl
@[simp] theorem State.modEng_freeCtr (i : Nat) (f : Engine → Engine) (s : State) : (s.modEng i f).freeCtr = s.freeCtr := rfl
@[simp] theorem State.modEng_pending (i : Nat) (f : Engine → Engine) (s : State) : (s.modEng i f).pending = s.pending := rfl

/-! ### modTile -/

@[simp] theorem State.modTile_tn (i : Nat) (f : Tile → Tile) (s : State) : (s.modTile i f).tn = s.tn := rfl
@[simp] theorem State.modTile_tickOffset (i : Nat) (f : Tile → Tile) (s : State) : (s.modTile i f).tickOffset = s.tickOffset := rfl
@[simp] theorem State.modTile_ticks (i : Nat) (f : Tile → Tile) (s : State) : (s.modTile i f).ticks = s.ticks := rfl
@[simp] theorem State.modTile_tnProvisional (i : Nat) (f : Tile → Tile) (s : State) : (s.modTile i f).tnProvisional = s.tnProvisional := rfl
@[simp] theorem State.modTile_realign (i : Nat) (f : Tile → Tile) (s : State) : (s.modTile i f).realign = s.realign := rfl
@[simp] theorem State.modTile_trafficLast (i : Nat) (f : Tile → Tile) (s : State) : (s.modTile i f).trafficLast = s.trafficLast := rfl
@[simp] theorem State.modTile_engines (i : Nat) (f : Tile → Tile) (s : State) : (s.modTile i f).engines = s.engines := rfl
@[simp] theorem State.modTile_htiles (i : Nat) (f : Tile → Tile) (s : State) : (s.modTile i f).htiles = s.htiles := rfl
@[simp] theorem State.modTile_lanes (i : Nat) (f : Tile → Tile) (s : State) : (s.modTile i f).lanes = s.lanes := rfl
@[simp] theorem State.modTile_ports (i : Nat) (f : Tile → Tile) (s : State) : (s.modTile i f).ports = s.ports := rfl
@[simp] theorem State.modTile_packs (i : Nat) (f : Tile → Tile) (s : State) : (s.modTile i f).packs = s.packs := rfl
@[simp] theorem State.modTile_cal (i : Nat) (f : Tile → Tile) (s : State) : (s.modTile i f).cal = s.cal := rfl
@[simp] theorem State.modTile_map (i : Nat) (f : Tile → Tile) (s : State) : (s.modTile i f).map = s.map := rfl
@[simp] theorem State.modTile_mapCentre (i : Nat) (f : Tile → Tile) (s : State) : (s.modTile i f).mapCentre = s.mapCentre := rfl
@[simp] theorem State.modTile_mons (i : Nat) (f : Tile → Tile) (s : State) : (s.modTile i f).mons = s.mons := rfl
@[simp] theorem State.modTile_tlmq (i : Nat) (f : Tile → Tile) (s : State) : (s.modTile i f).tlmq = s.tlmq := rfl
@[simp] theorem State.modTile_chains (i : Nat) (f : Tile → Tile) (s : State) : (s.modTile i f).chains = s.chains := rfl
@[simp] theorem State.modTile_dma (i : Nat) (f : Tile → Tile) (s : State) : (s.modTile i f).dma = s.dma := rfl
@[simp] theorem State.modTile_proto (i : Nat) (f : Tile → Tile) (s : State) : (s.modTile i f).proto = s.proto := rfl
@[simp] theorem State.modTile_dev (i : Nat) (f : Tile → Tile) (s : State) : (s.modTile i f).dev = s.dev := rfl
@[simp] theorem State.modTile_ctr (i : Nat) (f : Tile → Tile) (s : State) : (s.modTile i f).ctr = s.ctr := rfl
@[simp] theorem State.modTile_power (i : Nat) (f : Tile → Tile) (s : State) : (s.modTile i f).power = s.power := rfl
@[simp] theorem State.modTile_recovery (i : Nat) (f : Tile → Tile) (s : State) : (s.modTile i f).recovery = s.recovery := rfl
@[simp] theorem State.modTile_kennel (i : Nat) (f : Tile → Tile) (s : State) : (s.modTile i f).kennel = s.kennel := rfl
@[simp] theorem State.modTile_time (i : Nat) (f : Tile → Tile) (s : State) : (s.modTile i f).time = s.time := rfl
@[simp] theorem State.modTile_sec (i : Nat) (f : Tile → Tile) (s : State) : (s.modTile i f).sec = s.sec := rfl
@[simp] theorem State.modTile_clockIdentity (i : Nat) (f : Tile → Tile) (s : State) : (s.modTile i f).clockIdentity = s.clockIdentity := rfl
@[simp] theorem State.modTile_parityLast (i : Nat) (f : Tile → Tile) (s : State) : (s.modTile i f).parityLast = s.parityLast := rfl
@[simp] theorem State.modTile_readWord (i : Nat) (f : Tile → Tile) (s : State) : (s.modTile i f).readWord = s.readWord := rfl
@[simp] theorem State.modTile_spiReply (i : Nat) (f : Tile → Tile) (s : State) : (s.modTile i f).spiReply = s.spiReply := rfl
@[simp] theorem State.modTile_freeCtr (i : Nat) (f : Tile → Tile) (s : State) : (s.modTile i f).freeCtr = s.freeCtr := rfl
@[simp] theorem State.modTile_pending (i : Nat) (f : Tile → Tile) (s : State) : (s.modTile i f).pending = s.pending := rfl

/-! ### modLane -/

@[simp] theorem State.modLane_tn (i : Nat) (f : HostLane → HostLane) (s : State) : (s.modLane i f).tn = s.tn := rfl
@[simp] theorem State.modLane_tickOffset (i : Nat) (f : HostLane → HostLane) (s : State) : (s.modLane i f).tickOffset = s.tickOffset := rfl
@[simp] theorem State.modLane_ticks (i : Nat) (f : HostLane → HostLane) (s : State) : (s.modLane i f).ticks = s.ticks := rfl
@[simp] theorem State.modLane_tnProvisional (i : Nat) (f : HostLane → HostLane) (s : State) : (s.modLane i f).tnProvisional = s.tnProvisional := rfl
@[simp] theorem State.modLane_realign (i : Nat) (f : HostLane → HostLane) (s : State) : (s.modLane i f).realign = s.realign := rfl
@[simp] theorem State.modLane_trafficLast (i : Nat) (f : HostLane → HostLane) (s : State) : (s.modLane i f).trafficLast = s.trafficLast := rfl
@[simp] theorem State.modLane_engines (i : Nat) (f : HostLane → HostLane) (s : State) : (s.modLane i f).engines = s.engines := rfl
@[simp] theorem State.modLane_tiles (i : Nat) (f : HostLane → HostLane) (s : State) : (s.modLane i f).tiles = s.tiles := rfl
@[simp] theorem State.modLane_htiles (i : Nat) (f : HostLane → HostLane) (s : State) : (s.modLane i f).htiles = s.htiles := rfl
@[simp] theorem State.modLane_ports (i : Nat) (f : HostLane → HostLane) (s : State) : (s.modLane i f).ports = s.ports := rfl
@[simp] theorem State.modLane_packs (i : Nat) (f : HostLane → HostLane) (s : State) : (s.modLane i f).packs = s.packs := rfl
@[simp] theorem State.modLane_cal (i : Nat) (f : HostLane → HostLane) (s : State) : (s.modLane i f).cal = s.cal := rfl
@[simp] theorem State.modLane_map (i : Nat) (f : HostLane → HostLane) (s : State) : (s.modLane i f).map = s.map := rfl
@[simp] theorem State.modLane_mapCentre (i : Nat) (f : HostLane → HostLane) (s : State) : (s.modLane i f).mapCentre = s.mapCentre := rfl
@[simp] theorem State.modLane_mons (i : Nat) (f : HostLane → HostLane) (s : State) : (s.modLane i f).mons = s.mons := rfl
@[simp] theorem State.modLane_tlmq (i : Nat) (f : HostLane → HostLane) (s : State) : (s.modLane i f).tlmq = s.tlmq := rfl
@[simp] theorem State.modLane_chains (i : Nat) (f : HostLane → HostLane) (s : State) : (s.modLane i f).chains = s.chains := rfl
@[simp] theorem State.modLane_dma (i : Nat) (f : HostLane → HostLane) (s : State) : (s.modLane i f).dma = s.dma := rfl
@[simp] theorem State.modLane_proto (i : Nat) (f : HostLane → HostLane) (s : State) : (s.modLane i f).proto = s.proto := rfl
@[simp] theorem State.modLane_dev (i : Nat) (f : HostLane → HostLane) (s : State) : (s.modLane i f).dev = s.dev := rfl
@[simp] theorem State.modLane_ctr (i : Nat) (f : HostLane → HostLane) (s : State) : (s.modLane i f).ctr = s.ctr := rfl
@[simp] theorem State.modLane_power (i : Nat) (f : HostLane → HostLane) (s : State) : (s.modLane i f).power = s.power := rfl
@[simp] theorem State.modLane_recovery (i : Nat) (f : HostLane → HostLane) (s : State) : (s.modLane i f).recovery = s.recovery := rfl
@[simp] theorem State.modLane_kennel (i : Nat) (f : HostLane → HostLane) (s : State) : (s.modLane i f).kennel = s.kennel := rfl
@[simp] theorem State.modLane_time (i : Nat) (f : HostLane → HostLane) (s : State) : (s.modLane i f).time = s.time := rfl
@[simp] theorem State.modLane_sec (i : Nat) (f : HostLane → HostLane) (s : State) : (s.modLane i f).sec = s.sec := rfl
@[simp] theorem State.modLane_clockIdentity (i : Nat) (f : HostLane → HostLane) (s : State) : (s.modLane i f).clockIdentity = s.clockIdentity := rfl
@[simp] theorem State.modLane_parityLast (i : Nat) (f : HostLane → HostLane) (s : State) : (s.modLane i f).parityLast = s.parityLast := rfl
@[simp] theorem State.modLane_readWord (i : Nat) (f : HostLane → HostLane) (s : State) : (s.modLane i f).readWord = s.readWord := rfl
@[simp] theorem State.modLane_spiReply (i : Nat) (f : HostLane → HostLane) (s : State) : (s.modLane i f).spiReply = s.spiReply := rfl
@[simp] theorem State.modLane_freeCtr (i : Nat) (f : HostLane → HostLane) (s : State) : (s.modLane i f).freeCtr = s.freeCtr := rfl
@[simp] theorem State.modLane_pending (i : Nat) (f : HostLane → HostLane) (s : State) : (s.modLane i f).pending = s.pending := rfl

/-! ### modHtile -/

@[simp] theorem State.modHtile_tn (i : Nat) (f : HostTile → HostTile) (s : State) : (s.modHtile i f).tn = s.tn := rfl
@[simp] theorem State.modHtile_tickOffset (i : Nat) (f : HostTile → HostTile) (s : State) : (s.modHtile i f).tickOffset = s.tickOffset := rfl
@[simp] theorem State.modHtile_ticks (i : Nat) (f : HostTile → HostTile) (s : State) : (s.modHtile i f).ticks = s.ticks := rfl
@[simp] theorem State.modHtile_tnProvisional (i : Nat) (f : HostTile → HostTile) (s : State) : (s.modHtile i f).tnProvisional = s.tnProvisional := rfl
@[simp] theorem State.modHtile_realign (i : Nat) (f : HostTile → HostTile) (s : State) : (s.modHtile i f).realign = s.realign := rfl
@[simp] theorem State.modHtile_trafficLast (i : Nat) (f : HostTile → HostTile) (s : State) : (s.modHtile i f).trafficLast = s.trafficLast := rfl
@[simp] theorem State.modHtile_engines (i : Nat) (f : HostTile → HostTile) (s : State) : (s.modHtile i f).engines = s.engines := rfl
@[simp] theorem State.modHtile_tiles (i : Nat) (f : HostTile → HostTile) (s : State) : (s.modHtile i f).tiles = s.tiles := rfl
@[simp] theorem State.modHtile_lanes (i : Nat) (f : HostTile → HostTile) (s : State) : (s.modHtile i f).lanes = s.lanes := rfl
@[simp] theorem State.modHtile_ports (i : Nat) (f : HostTile → HostTile) (s : State) : (s.modHtile i f).ports = s.ports := rfl
@[simp] theorem State.modHtile_packs (i : Nat) (f : HostTile → HostTile) (s : State) : (s.modHtile i f).packs = s.packs := rfl
@[simp] theorem State.modHtile_cal (i : Nat) (f : HostTile → HostTile) (s : State) : (s.modHtile i f).cal = s.cal := rfl
@[simp] theorem State.modHtile_map (i : Nat) (f : HostTile → HostTile) (s : State) : (s.modHtile i f).map = s.map := rfl
@[simp] theorem State.modHtile_mapCentre (i : Nat) (f : HostTile → HostTile) (s : State) : (s.modHtile i f).mapCentre = s.mapCentre := rfl
@[simp] theorem State.modHtile_mons (i : Nat) (f : HostTile → HostTile) (s : State) : (s.modHtile i f).mons = s.mons := rfl
@[simp] theorem State.modHtile_tlmq (i : Nat) (f : HostTile → HostTile) (s : State) : (s.modHtile i f).tlmq = s.tlmq := rfl
@[simp] theorem State.modHtile_chains (i : Nat) (f : HostTile → HostTile) (s : State) : (s.modHtile i f).chains = s.chains := rfl
@[simp] theorem State.modHtile_dma (i : Nat) (f : HostTile → HostTile) (s : State) : (s.modHtile i f).dma = s.dma := rfl
@[simp] theorem State.modHtile_proto (i : Nat) (f : HostTile → HostTile) (s : State) : (s.modHtile i f).proto = s.proto := rfl
@[simp] theorem State.modHtile_dev (i : Nat) (f : HostTile → HostTile) (s : State) : (s.modHtile i f).dev = s.dev := rfl
@[simp] theorem State.modHtile_ctr (i : Nat) (f : HostTile → HostTile) (s : State) : (s.modHtile i f).ctr = s.ctr := rfl
@[simp] theorem State.modHtile_power (i : Nat) (f : HostTile → HostTile) (s : State) : (s.modHtile i f).power = s.power := rfl
@[simp] theorem State.modHtile_recovery (i : Nat) (f : HostTile → HostTile) (s : State) : (s.modHtile i f).recovery = s.recovery := rfl
@[simp] theorem State.modHtile_kennel (i : Nat) (f : HostTile → HostTile) (s : State) : (s.modHtile i f).kennel = s.kennel := rfl
@[simp] theorem State.modHtile_time (i : Nat) (f : HostTile → HostTile) (s : State) : (s.modHtile i f).time = s.time := rfl
@[simp] theorem State.modHtile_sec (i : Nat) (f : HostTile → HostTile) (s : State) : (s.modHtile i f).sec = s.sec := rfl
@[simp] theorem State.modHtile_clockIdentity (i : Nat) (f : HostTile → HostTile) (s : State) : (s.modHtile i f).clockIdentity = s.clockIdentity := rfl
@[simp] theorem State.modHtile_parityLast (i : Nat) (f : HostTile → HostTile) (s : State) : (s.modHtile i f).parityLast = s.parityLast := rfl
@[simp] theorem State.modHtile_readWord (i : Nat) (f : HostTile → HostTile) (s : State) : (s.modHtile i f).readWord = s.readWord := rfl
@[simp] theorem State.modHtile_spiReply (i : Nat) (f : HostTile → HostTile) (s : State) : (s.modHtile i f).spiReply = s.spiReply := rfl
@[simp] theorem State.modHtile_freeCtr (i : Nat) (f : HostTile → HostTile) (s : State) : (s.modHtile i f).freeCtr = s.freeCtr := rfl
@[simp] theorem State.modHtile_pending (i : Nat) (f : HostTile → HostTile) (s : State) : (s.modHtile i f).pending = s.pending := rfl

/-! ### modPort -/

@[simp] theorem State.modPort_tn (i : Nat) (f : Port → Port) (s : State) : (s.modPort i f).tn = s.tn := rfl
@[simp] theorem State.modPort_tickOffset (i : Nat) (f : Port → Port) (s : State) : (s.modPort i f).tickOffset = s.tickOffset := rfl
@[simp] theorem State.modPort_ticks (i : Nat) (f : Port → Port) (s : State) : (s.modPort i f).ticks = s.ticks := rfl
@[simp] theorem State.modPort_tnProvisional (i : Nat) (f : Port → Port) (s : State) : (s.modPort i f).tnProvisional = s.tnProvisional := rfl
@[simp] theorem State.modPort_realign (i : Nat) (f : Port → Port) (s : State) : (s.modPort i f).realign = s.realign := rfl
@[simp] theorem State.modPort_trafficLast (i : Nat) (f : Port → Port) (s : State) : (s.modPort i f).trafficLast = s.trafficLast := rfl
@[simp] theorem State.modPort_engines (i : Nat) (f : Port → Port) (s : State) : (s.modPort i f).engines = s.engines := rfl
@[simp] theorem State.modPort_tiles (i : Nat) (f : Port → Port) (s : State) : (s.modPort i f).tiles = s.tiles := rfl
@[simp] theorem State.modPort_htiles (i : Nat) (f : Port → Port) (s : State) : (s.modPort i f).htiles = s.htiles := rfl
@[simp] theorem State.modPort_lanes (i : Nat) (f : Port → Port) (s : State) : (s.modPort i f).lanes = s.lanes := rfl
@[simp] theorem State.modPort_packs (i : Nat) (f : Port → Port) (s : State) : (s.modPort i f).packs = s.packs := rfl
@[simp] theorem State.modPort_cal (i : Nat) (f : Port → Port) (s : State) : (s.modPort i f).cal = s.cal := rfl
@[simp] theorem State.modPort_map (i : Nat) (f : Port → Port) (s : State) : (s.modPort i f).map = s.map := rfl
@[simp] theorem State.modPort_mapCentre (i : Nat) (f : Port → Port) (s : State) : (s.modPort i f).mapCentre = s.mapCentre := rfl
@[simp] theorem State.modPort_mons (i : Nat) (f : Port → Port) (s : State) : (s.modPort i f).mons = s.mons := rfl
@[simp] theorem State.modPort_tlmq (i : Nat) (f : Port → Port) (s : State) : (s.modPort i f).tlmq = s.tlmq := rfl
@[simp] theorem State.modPort_chains (i : Nat) (f : Port → Port) (s : State) : (s.modPort i f).chains = s.chains := rfl
@[simp] theorem State.modPort_dma (i : Nat) (f : Port → Port) (s : State) : (s.modPort i f).dma = s.dma := rfl
@[simp] theorem State.modPort_proto (i : Nat) (f : Port → Port) (s : State) : (s.modPort i f).proto = s.proto := rfl
@[simp] theorem State.modPort_dev (i : Nat) (f : Port → Port) (s : State) : (s.modPort i f).dev = s.dev := rfl
@[simp] theorem State.modPort_ctr (i : Nat) (f : Port → Port) (s : State) : (s.modPort i f).ctr = s.ctr := rfl
@[simp] theorem State.modPort_power (i : Nat) (f : Port → Port) (s : State) : (s.modPort i f).power = s.power := rfl
@[simp] theorem State.modPort_recovery (i : Nat) (f : Port → Port) (s : State) : (s.modPort i f).recovery = s.recovery := rfl
@[simp] theorem State.modPort_kennel (i : Nat) (f : Port → Port) (s : State) : (s.modPort i f).kennel = s.kennel := rfl
@[simp] theorem State.modPort_time (i : Nat) (f : Port → Port) (s : State) : (s.modPort i f).time = s.time := rfl
@[simp] theorem State.modPort_sec (i : Nat) (f : Port → Port) (s : State) : (s.modPort i f).sec = s.sec := rfl
@[simp] theorem State.modPort_clockIdentity (i : Nat) (f : Port → Port) (s : State) : (s.modPort i f).clockIdentity = s.clockIdentity := rfl
@[simp] theorem State.modPort_parityLast (i : Nat) (f : Port → Port) (s : State) : (s.modPort i f).parityLast = s.parityLast := rfl
@[simp] theorem State.modPort_readWord (i : Nat) (f : Port → Port) (s : State) : (s.modPort i f).readWord = s.readWord := rfl
@[simp] theorem State.modPort_spiReply (i : Nat) (f : Port → Port) (s : State) : (s.modPort i f).spiReply = s.spiReply := rfl
@[simp] theorem State.modPort_freeCtr (i : Nat) (f : Port → Port) (s : State) : (s.modPort i f).freeCtr = s.freeCtr := rfl
@[simp] theorem State.modPort_pending (i : Nat) (f : Port → Port) (s : State) : (s.modPort i f).pending = s.pending := rfl

/-! ### modPack -/

@[simp] theorem State.modPack_tn (i : Nat) (f : Pack → Pack) (s : State) : (s.modPack i f).tn = s.tn := rfl
@[simp] theorem State.modPack_tickOffset (i : Nat) (f : Pack → Pack) (s : State) : (s.modPack i f).tickOffset = s.tickOffset := rfl
@[simp] theorem State.modPack_ticks (i : Nat) (f : Pack → Pack) (s : State) : (s.modPack i f).ticks = s.ticks := rfl
@[simp] theorem State.modPack_tnProvisional (i : Nat) (f : Pack → Pack) (s : State) : (s.modPack i f).tnProvisional = s.tnProvisional := rfl
@[simp] theorem State.modPack_realign (i : Nat) (f : Pack → Pack) (s : State) : (s.modPack i f).realign = s.realign := rfl
@[simp] theorem State.modPack_trafficLast (i : Nat) (f : Pack → Pack) (s : State) : (s.modPack i f).trafficLast = s.trafficLast := rfl
@[simp] theorem State.modPack_engines (i : Nat) (f : Pack → Pack) (s : State) : (s.modPack i f).engines = s.engines := rfl
@[simp] theorem State.modPack_tiles (i : Nat) (f : Pack → Pack) (s : State) : (s.modPack i f).tiles = s.tiles := rfl
@[simp] theorem State.modPack_htiles (i : Nat) (f : Pack → Pack) (s : State) : (s.modPack i f).htiles = s.htiles := rfl
@[simp] theorem State.modPack_lanes (i : Nat) (f : Pack → Pack) (s : State) : (s.modPack i f).lanes = s.lanes := rfl
@[simp] theorem State.modPack_ports (i : Nat) (f : Pack → Pack) (s : State) : (s.modPack i f).ports = s.ports := rfl
@[simp] theorem State.modPack_cal (i : Nat) (f : Pack → Pack) (s : State) : (s.modPack i f).cal = s.cal := rfl
@[simp] theorem State.modPack_map (i : Nat) (f : Pack → Pack) (s : State) : (s.modPack i f).map = s.map := rfl
@[simp] theorem State.modPack_mapCentre (i : Nat) (f : Pack → Pack) (s : State) : (s.modPack i f).mapCentre = s.mapCentre := rfl
@[simp] theorem State.modPack_mons (i : Nat) (f : Pack → Pack) (s : State) : (s.modPack i f).mons = s.mons := rfl
@[simp] theorem State.modPack_tlmq (i : Nat) (f : Pack → Pack) (s : State) : (s.modPack i f).tlmq = s.tlmq := rfl
@[simp] theorem State.modPack_chains (i : Nat) (f : Pack → Pack) (s : State) : (s.modPack i f).chains = s.chains := rfl
@[simp] theorem State.modPack_dma (i : Nat) (f : Pack → Pack) (s : State) : (s.modPack i f).dma = s.dma := rfl
@[simp] theorem State.modPack_proto (i : Nat) (f : Pack → Pack) (s : State) : (s.modPack i f).proto = s.proto := rfl
@[simp] theorem State.modPack_dev (i : Nat) (f : Pack → Pack) (s : State) : (s.modPack i f).dev = s.dev := rfl
@[simp] theorem State.modPack_ctr (i : Nat) (f : Pack → Pack) (s : State) : (s.modPack i f).ctr = s.ctr := rfl
@[simp] theorem State.modPack_power (i : Nat) (f : Pack → Pack) (s : State) : (s.modPack i f).power = s.power := rfl
@[simp] theorem State.modPack_recovery (i : Nat) (f : Pack → Pack) (s : State) : (s.modPack i f).recovery = s.recovery := rfl
@[simp] theorem State.modPack_kennel (i : Nat) (f : Pack → Pack) (s : State) : (s.modPack i f).kennel = s.kennel := rfl
@[simp] theorem State.modPack_time (i : Nat) (f : Pack → Pack) (s : State) : (s.modPack i f).time = s.time := rfl
@[simp] theorem State.modPack_sec (i : Nat) (f : Pack → Pack) (s : State) : (s.modPack i f).sec = s.sec := rfl
@[simp] theorem State.modPack_clockIdentity (i : Nat) (f : Pack → Pack) (s : State) : (s.modPack i f).clockIdentity = s.clockIdentity := rfl
@[simp] theorem State.modPack_parityLast (i : Nat) (f : Pack → Pack) (s : State) : (s.modPack i f).parityLast = s.parityLast := rfl
@[simp] theorem State.modPack_readWord (i : Nat) (f : Pack → Pack) (s : State) : (s.modPack i f).readWord = s.readWord := rfl
@[simp] theorem State.modPack_spiReply (i : Nat) (f : Pack → Pack) (s : State) : (s.modPack i f).spiReply = s.spiReply := rfl
@[simp] theorem State.modPack_freeCtr (i : Nat) (f : Pack → Pack) (s : State) : (s.modPack i f).freeCtr = s.freeCtr := rfl
@[simp] theorem State.modPack_pending (i : Nat) (f : Pack → Pack) (s : State) : (s.modPack i f).pending = s.pending := rfl

/-! ### modMc -/

@[simp] theorem State.modMc_tn (i : Nat) (f : MonConv → MonConv) (s : State) : (s.modMc i f).tn = s.tn := rfl
@[simp] theorem State.modMc_tickOffset (i : Nat) (f : MonConv → MonConv) (s : State) : (s.modMc i f).tickOffset = s.tickOffset := rfl
@[simp] theorem State.modMc_ticks (i : Nat) (f : MonConv → MonConv) (s : State) : (s.modMc i f).ticks = s.ticks := rfl
@[simp] theorem State.modMc_tnProvisional (i : Nat) (f : MonConv → MonConv) (s : State) : (s.modMc i f).tnProvisional = s.tnProvisional := rfl
@[simp] theorem State.modMc_realign (i : Nat) (f : MonConv → MonConv) (s : State) : (s.modMc i f).realign = s.realign := rfl
@[simp] theorem State.modMc_trafficLast (i : Nat) (f : MonConv → MonConv) (s : State) : (s.modMc i f).trafficLast = s.trafficLast := rfl
@[simp] theorem State.modMc_engines (i : Nat) (f : MonConv → MonConv) (s : State) : (s.modMc i f).engines = s.engines := rfl
@[simp] theorem State.modMc_tiles (i : Nat) (f : MonConv → MonConv) (s : State) : (s.modMc i f).tiles = s.tiles := rfl
@[simp] theorem State.modMc_htiles (i : Nat) (f : MonConv → MonConv) (s : State) : (s.modMc i f).htiles = s.htiles := rfl
@[simp] theorem State.modMc_lanes (i : Nat) (f : MonConv → MonConv) (s : State) : (s.modMc i f).lanes = s.lanes := rfl
@[simp] theorem State.modMc_ports (i : Nat) (f : MonConv → MonConv) (s : State) : (s.modMc i f).ports = s.ports := rfl
@[simp] theorem State.modMc_packs (i : Nat) (f : MonConv → MonConv) (s : State) : (s.modMc i f).packs = s.packs := rfl
@[simp] theorem State.modMc_cal (i : Nat) (f : MonConv → MonConv) (s : State) : (s.modMc i f).cal = s.cal := rfl
@[simp] theorem State.modMc_map (i : Nat) (f : MonConv → MonConv) (s : State) : (s.modMc i f).map = s.map := rfl
@[simp] theorem State.modMc_mapCentre (i : Nat) (f : MonConv → MonConv) (s : State) : (s.modMc i f).mapCentre = s.mapCentre := rfl
@[simp] theorem State.modMc_tlmq (i : Nat) (f : MonConv → MonConv) (s : State) : (s.modMc i f).tlmq = s.tlmq := rfl
@[simp] theorem State.modMc_chains (i : Nat) (f : MonConv → MonConv) (s : State) : (s.modMc i f).chains = s.chains := rfl
@[simp] theorem State.modMc_dma (i : Nat) (f : MonConv → MonConv) (s : State) : (s.modMc i f).dma = s.dma := rfl
@[simp] theorem State.modMc_proto (i : Nat) (f : MonConv → MonConv) (s : State) : (s.modMc i f).proto = s.proto := rfl
@[simp] theorem State.modMc_dev (i : Nat) (f : MonConv → MonConv) (s : State) : (s.modMc i f).dev = s.dev := rfl
@[simp] theorem State.modMc_ctr (i : Nat) (f : MonConv → MonConv) (s : State) : (s.modMc i f).ctr = s.ctr := rfl
@[simp] theorem State.modMc_power (i : Nat) (f : MonConv → MonConv) (s : State) : (s.modMc i f).power = s.power := rfl
@[simp] theorem State.modMc_recovery (i : Nat) (f : MonConv → MonConv) (s : State) : (s.modMc i f).recovery = s.recovery := rfl
@[simp] theorem State.modMc_kennel (i : Nat) (f : MonConv → MonConv) (s : State) : (s.modMc i f).kennel = s.kennel := rfl
@[simp] theorem State.modMc_time (i : Nat) (f : MonConv → MonConv) (s : State) : (s.modMc i f).time = s.time := rfl
@[simp] theorem State.modMc_sec (i : Nat) (f : MonConv → MonConv) (s : State) : (s.modMc i f).sec = s.sec := rfl
@[simp] theorem State.modMc_clockIdentity (i : Nat) (f : MonConv → MonConv) (s : State) : (s.modMc i f).clockIdentity = s.clockIdentity := rfl
@[simp] theorem State.modMc_parityLast (i : Nat) (f : MonConv → MonConv) (s : State) : (s.modMc i f).parityLast = s.parityLast := rfl
@[simp] theorem State.modMc_readWord (i : Nat) (f : MonConv → MonConv) (s : State) : (s.modMc i f).readWord = s.readWord := rfl
@[simp] theorem State.modMc_spiReply (i : Nat) (f : MonConv → MonConv) (s : State) : (s.modMc i f).spiReply = s.spiReply := rfl
@[simp] theorem State.modMc_freeCtr (i : Nat) (f : MonConv → MonConv) (s : State) : (s.modMc i f).freeCtr = s.freeCtr := rfl
@[simp] theorem State.modMc_pending (i : Nat) (f : MonConv → MonConv) (s : State) : (s.modMc i f).pending = s.pending := rfl

/-! ### modDc -/

@[simp] theorem State.modDc_tn (i : Nat) (f : DmaChannel → DmaChannel) (s : State) : (s.modDc i f).tn = s.tn := rfl
@[simp] theorem State.modDc_tickOffset (i : Nat) (f : DmaChannel → DmaChannel) (s : State) : (s.modDc i f).tickOffset = s.tickOffset := rfl
@[simp] theorem State.modDc_ticks (i : Nat) (f : DmaChannel → DmaChannel) (s : State) : (s.modDc i f).ticks = s.ticks := rfl
@[simp] theorem State.modDc_tnProvisional (i : Nat) (f : DmaChannel → DmaChannel) (s : State) : (s.modDc i f).tnProvisional = s.tnProvisional := rfl
@[simp] theorem State.modDc_realign (i : Nat) (f : DmaChannel → DmaChannel) (s : State) : (s.modDc i f).realign = s.realign := rfl
@[simp] theorem State.modDc_trafficLast (i : Nat) (f : DmaChannel → DmaChannel) (s : State) : (s.modDc i f).trafficLast = s.trafficLast := rfl
@[simp] theorem State.modDc_engines (i : Nat) (f : DmaChannel → DmaChannel) (s : State) : (s.modDc i f).engines = s.engines := rfl
@[simp] theorem State.modDc_tiles (i : Nat) (f : DmaChannel → DmaChannel) (s : State) : (s.modDc i f).tiles = s.tiles := rfl
@[simp] theorem State.modDc_htiles (i : Nat) (f : DmaChannel → DmaChannel) (s : State) : (s.modDc i f).htiles = s.htiles := rfl
@[simp] theorem State.modDc_lanes (i : Nat) (f : DmaChannel → DmaChannel) (s : State) : (s.modDc i f).lanes = s.lanes := rfl
@[simp] theorem State.modDc_ports (i : Nat) (f : DmaChannel → DmaChannel) (s : State) : (s.modDc i f).ports = s.ports := rfl
@[simp] theorem State.modDc_packs (i : Nat) (f : DmaChannel → DmaChannel) (s : State) : (s.modDc i f).packs = s.packs := rfl
@[simp] theorem State.modDc_cal (i : Nat) (f : DmaChannel → DmaChannel) (s : State) : (s.modDc i f).cal = s.cal := rfl
@[simp] theorem State.modDc_map (i : Nat) (f : DmaChannel → DmaChannel) (s : State) : (s.modDc i f).map = s.map := rfl
@[simp] theorem State.modDc_mapCentre (i : Nat) (f : DmaChannel → DmaChannel) (s : State) : (s.modDc i f).mapCentre = s.mapCentre := rfl
@[simp] theorem State.modDc_mons (i : Nat) (f : DmaChannel → DmaChannel) (s : State) : (s.modDc i f).mons = s.mons := rfl
@[simp] theorem State.modDc_tlmq (i : Nat) (f : DmaChannel → DmaChannel) (s : State) : (s.modDc i f).tlmq = s.tlmq := rfl
@[simp] theorem State.modDc_chains (i : Nat) (f : DmaChannel → DmaChannel) (s : State) : (s.modDc i f).chains = s.chains := rfl
@[simp] theorem State.modDc_proto (i : Nat) (f : DmaChannel → DmaChannel) (s : State) : (s.modDc i f).proto = s.proto := rfl
@[simp] theorem State.modDc_dev (i : Nat) (f : DmaChannel → DmaChannel) (s : State) : (s.modDc i f).dev = s.dev := rfl
@[simp] theorem State.modDc_ctr (i : Nat) (f : DmaChannel → DmaChannel) (s : State) : (s.modDc i f).ctr = s.ctr := rfl
@[simp] theorem State.modDc_power (i : Nat) (f : DmaChannel → DmaChannel) (s : State) : (s.modDc i f).power = s.power := rfl
@[simp] theorem State.modDc_recovery (i : Nat) (f : DmaChannel → DmaChannel) (s : State) : (s.modDc i f).recovery = s.recovery := rfl
@[simp] theorem State.modDc_kennel (i : Nat) (f : DmaChannel → DmaChannel) (s : State) : (s.modDc i f).kennel = s.kennel := rfl
@[simp] theorem State.modDc_time (i : Nat) (f : DmaChannel → DmaChannel) (s : State) : (s.modDc i f).time = s.time := rfl
@[simp] theorem State.modDc_sec (i : Nat) (f : DmaChannel → DmaChannel) (s : State) : (s.modDc i f).sec = s.sec := rfl
@[simp] theorem State.modDc_clockIdentity (i : Nat) (f : DmaChannel → DmaChannel) (s : State) : (s.modDc i f).clockIdentity = s.clockIdentity := rfl
@[simp] theorem State.modDc_parityLast (i : Nat) (f : DmaChannel → DmaChannel) (s : State) : (s.modDc i f).parityLast = s.parityLast := rfl
@[simp] theorem State.modDc_readWord (i : Nat) (f : DmaChannel → DmaChannel) (s : State) : (s.modDc i f).readWord = s.readWord := rfl
@[simp] theorem State.modDc_spiReply (i : Nat) (f : DmaChannel → DmaChannel) (s : State) : (s.modDc i f).spiReply = s.spiReply := rfl
@[simp] theorem State.modDc_freeCtr (i : Nat) (f : DmaChannel → DmaChannel) (s : State) : (s.modDc i f).freeCtr = s.freeCtr := rfl
@[simp] theorem State.modDc_pending (i : Nat) (f : DmaChannel → DmaChannel) (s : State) : (s.modDc i f).pending = s.pending := rfl

/-! ### modQreg -/

@[simp] theorem State.modQreg_tn (i : Nat) (f : QueueRegs → QueueRegs) (s : State) : (s.modQreg i f).tn = s.tn := rfl
@[simp] theorem State.modQreg_tickOffset (i : Nat) (f : QueueRegs → QueueRegs) (s : State) : (s.modQreg i f).tickOffset = s.tickOffset := rfl
@[simp] theorem State.modQreg_ticks (i : Nat) (f : QueueRegs → QueueRegs) (s : State) : (s.modQreg i f).ticks = s.ticks := rfl
@[simp] theorem State.modQreg_tnProvisional (i : Nat) (f : QueueRegs → QueueRegs) (s : State) : (s.modQreg i f).tnProvisional = s.tnProvisional := rfl
@[simp] theorem State.modQreg_realign (i : Nat) (f : QueueRegs → QueueRegs) (s : State) : (s.modQreg i f).realign = s.realign := rfl
@[simp] theorem State.modQreg_trafficLast (i : Nat) (f : QueueRegs → QueueRegs) (s : State) : (s.modQreg i f).trafficLast = s.trafficLast := rfl
@[simp] theorem State.modQreg_engines (i : Nat) (f : QueueRegs → QueueRegs) (s : State) : (s.modQreg i f).engines = s.engines := rfl
@[simp] theorem State.modQreg_tiles (i : Nat) (f : QueueRegs → QueueRegs) (s : State) : (s.modQreg i f).tiles = s.tiles := rfl
@[simp] theorem State.modQreg_htiles (i : Nat) (f : QueueRegs → QueueRegs) (s : State) : (s.modQreg i f).htiles = s.htiles := rfl
@[simp] theorem State.modQreg_lanes (i : Nat) (f : QueueRegs → QueueRegs) (s : State) : (s.modQreg i f).lanes = s.lanes := rfl
@[simp] theorem State.modQreg_ports (i : Nat) (f : QueueRegs → QueueRegs) (s : State) : (s.modQreg i f).ports = s.ports := rfl
@[simp] theorem State.modQreg_packs (i : Nat) (f : QueueRegs → QueueRegs) (s : State) : (s.modQreg i f).packs = s.packs := rfl
@[simp] theorem State.modQreg_cal (i : Nat) (f : QueueRegs → QueueRegs) (s : State) : (s.modQreg i f).cal = s.cal := rfl
@[simp] theorem State.modQreg_map (i : Nat) (f : QueueRegs → QueueRegs) (s : State) : (s.modQreg i f).map = s.map := rfl
@[simp] theorem State.modQreg_mapCentre (i : Nat) (f : QueueRegs → QueueRegs) (s : State) : (s.modQreg i f).mapCentre = s.mapCentre := rfl
@[simp] theorem State.modQreg_mons (i : Nat) (f : QueueRegs → QueueRegs) (s : State) : (s.modQreg i f).mons = s.mons := rfl
@[simp] theorem State.modQreg_tlmq (i : Nat) (f : QueueRegs → QueueRegs) (s : State) : (s.modQreg i f).tlmq = s.tlmq := rfl
@[simp] theorem State.modQreg_chains (i : Nat) (f : QueueRegs → QueueRegs) (s : State) : (s.modQreg i f).chains = s.chains := rfl
@[simp] theorem State.modQreg_dma (i : Nat) (f : QueueRegs → QueueRegs) (s : State) : (s.modQreg i f).dma = s.dma := rfl
@[simp] theorem State.modQreg_dev (i : Nat) (f : QueueRegs → QueueRegs) (s : State) : (s.modQreg i f).dev = s.dev := rfl
@[simp] theorem State.modQreg_ctr (i : Nat) (f : QueueRegs → QueueRegs) (s : State) : (s.modQreg i f).ctr = s.ctr := rfl
@[simp] theorem State.modQreg_power (i : Nat) (f : QueueRegs → QueueRegs) (s : State) : (s.modQreg i f).power = s.power := rfl
@[simp] theorem State.modQreg_recovery (i : Nat) (f : QueueRegs → QueueRegs) (s : State) : (s.modQreg i f).recovery = s.recovery := rfl
@[simp] theorem State.modQreg_kennel (i : Nat) (f : QueueRegs → QueueRegs) (s : State) : (s.modQreg i f).kennel = s.kennel := rfl
@[simp] theorem State.modQreg_time (i : Nat) (f : QueueRegs → QueueRegs) (s : State) : (s.modQreg i f).time = s.time := rfl
@[simp] theorem State.modQreg_sec (i : Nat) (f : QueueRegs → QueueRegs) (s : State) : (s.modQreg i f).sec = s.sec := rfl
@[simp] theorem State.modQreg_clockIdentity (i : Nat) (f : QueueRegs → QueueRegs) (s : State) : (s.modQreg i f).clockIdentity = s.clockIdentity := rfl
@[simp] theorem State.modQreg_parityLast (i : Nat) (f : QueueRegs → QueueRegs) (s : State) : (s.modQreg i f).parityLast = s.parityLast := rfl
@[simp] theorem State.modQreg_readWord (i : Nat) (f : QueueRegs → QueueRegs) (s : State) : (s.modQreg i f).readWord = s.readWord := rfl
@[simp] theorem State.modQreg_spiReply (i : Nat) (f : QueueRegs → QueueRegs) (s : State) : (s.modQreg i f).spiReply = s.spiReply := rfl
@[simp] theorem State.modQreg_freeCtr (i : Nat) (f : QueueRegs → QueueRegs) (s : State) : (s.modQreg i f).freeCtr = s.freeCtr := rfl
@[simp] theorem State.modQreg_pending (i : Nat) (f : QueueRegs → QueueRegs) (s : State) : (s.modQreg i f).pending = s.pending := rfl

/-! ### modProto -/

@[simp] theorem State.modProto_tn (f : Protocol → Protocol) (s : State) : (s.modProto f).tn = s.tn := rfl
@[simp] theorem State.modProto_tickOffset (f : Protocol → Protocol) (s : State) : (s.modProto f).tickOffset = s.tickOffset := rfl
@[simp] theorem State.modProto_ticks (f : Protocol → Protocol) (s : State) : (s.modProto f).ticks = s.ticks := rfl
@[simp] theorem State.modProto_tnProvisional (f : Protocol → Protocol) (s : State) : (s.modProto f).tnProvisional = s.tnProvisional := rfl
@[simp] theorem State.modProto_realign (f : Protocol → Protocol) (s : State) : (s.modProto f).realign = s.realign := rfl
@[simp] theorem State.modProto_trafficLast (f : Protocol → Protocol) (s : State) : (s.modProto f).trafficLast = s.trafficLast := rfl
@[simp] theorem State.modProto_engines (f : Protocol → Protocol) (s : State) : (s.modProto f).engines = s.engines := rfl
@[simp] theorem State.modProto_tiles (f : Protocol → Protocol) (s : State) : (s.modProto f).tiles = s.tiles := rfl
@[simp] theorem State.modProto_htiles (f : Protocol → Protocol) (s : State) : (s.modProto f).htiles = s.htiles := rfl
@[simp] theorem State.modProto_lanes (f : Protocol → Protocol) (s : State) : (s.modProto f).lanes = s.lanes := rfl
@[simp] theorem State.modProto_ports (f : Protocol → Protocol) (s : State) : (s.modProto f).ports = s.ports := rfl
@[simp] theorem State.modProto_packs (f : Protocol → Protocol) (s : State) : (s.modProto f).packs = s.packs := rfl
@[simp] theorem State.modProto_cal (f : Protocol → Protocol) (s : State) : (s.modProto f).cal = s.cal := rfl
@[simp] theorem State.modProto_map (f : Protocol → Protocol) (s : State) : (s.modProto f).map = s.map := rfl
@[simp] theorem State.modProto_mapCentre (f : Protocol → Protocol) (s : State) : (s.modProto f).mapCentre = s.mapCentre := rfl
@[simp] theorem State.modProto_mons (f : Protocol → Protocol) (s : State) : (s.modProto f).mons = s.mons := rfl
@[simp] theorem State.modProto_tlmq (f : Protocol → Protocol) (s : State) : (s.modProto f).tlmq = s.tlmq := rfl
@[simp] theorem State.modProto_chains (f : Protocol → Protocol) (s : State) : (s.modProto f).chains = s.chains := rfl
@[simp] theorem State.modProto_dma (f : Protocol → Protocol) (s : State) : (s.modProto f).dma = s.dma := rfl
@[simp] theorem State.modProto_dev (f : Protocol → Protocol) (s : State) : (s.modProto f).dev = s.dev := rfl
@[simp] theorem State.modProto_ctr (f : Protocol → Protocol) (s : State) : (s.modProto f).ctr = s.ctr := rfl
@[simp] theorem State.modProto_power (f : Protocol → Protocol) (s : State) : (s.modProto f).power = s.power := rfl
@[simp] theorem State.modProto_recovery (f : Protocol → Protocol) (s : State) : (s.modProto f).recovery = s.recovery := rfl
@[simp] theorem State.modProto_kennel (f : Protocol → Protocol) (s : State) : (s.modProto f).kennel = s.kennel := rfl
@[simp] theorem State.modProto_time (f : Protocol → Protocol) (s : State) : (s.modProto f).time = s.time := rfl
@[simp] theorem State.modProto_sec (f : Protocol → Protocol) (s : State) : (s.modProto f).sec = s.sec := rfl
@[simp] theorem State.modProto_clockIdentity (f : Protocol → Protocol) (s : State) : (s.modProto f).clockIdentity = s.clockIdentity := rfl
@[simp] theorem State.modProto_parityLast (f : Protocol → Protocol) (s : State) : (s.modProto f).parityLast = s.parityLast := rfl
@[simp] theorem State.modProto_readWord (f : Protocol → Protocol) (s : State) : (s.modProto f).readWord = s.readWord := rfl
@[simp] theorem State.modProto_spiReply (f : Protocol → Protocol) (s : State) : (s.modProto f).spiReply = s.spiReply := rfl
@[simp] theorem State.modProto_freeCtr (f : Protocol → Protocol) (s : State) : (s.modProto f).freeCtr = s.freeCtr := rfl
@[simp] theorem State.modProto_pending (f : Protocol → Protocol) (s : State) : (s.modProto f).pending = s.pending := rfl

/-! ### modCtr -/

@[simp] theorem State.modCtr_tn (f : Counters → Counters) (s : State) : (s.modCtr f).tn = s.tn := rfl
@[simp] theorem State.modCtr_tickOffset (f : Counters → Counters) (s : State) : (s.modCtr f).tickOffset = s.tickOffset := rfl
@[simp] theorem State.modCtr_ticks (f : Counters → Counters) (s : State) : (s.modCtr f).ticks = s.ticks := rfl
@[simp] theorem State.modCtr_tnProvisional (f : Counters → Counters) (s : State) : (s.modCtr f).tnProvisional = s.tnProvisional := rfl
@[simp] theorem State.modCtr_realign (f : Counters → Counters) (s : State) : (s.modCtr f).realign = s.realign := rfl
@[simp] theorem State.modCtr_trafficLast (f : Counters → Counters) (s : State) : (s.modCtr f).trafficLast = s.trafficLast := rfl
@[simp] theorem State.modCtr_engines (f : Counters → Counters) (s : State) : (s.modCtr f).engines = s.engines := rfl
@[simp] theorem State.modCtr_tiles (f : Counters → Counters) (s : State) : (s.modCtr f).tiles = s.tiles := rfl
@[simp] theorem State.modCtr_htiles (f : Counters → Counters) (s : State) : (s.modCtr f).htiles = s.htiles := rfl
@[simp] theorem State.modCtr_lanes (f : Counters → Counters) (s : State) : (s.modCtr f).lanes = s.lanes := rfl
@[simp] theorem State.modCtr_ports (f : Counters → Counters) (s : State) : (s.modCtr f).ports = s.ports := rfl
@[simp] theorem State.modCtr_packs (f : Counters → Counters) (s : State) : (s.modCtr f).packs = s.packs := rfl
@[simp] theorem State.modCtr_cal (f : Counters → Counters) (s : State) : (s.modCtr f).cal = s.cal := rfl
@[simp] theorem State.modCtr_map (f : Counters → Counters) (s : State) : (s.modCtr f).map = s.map := rfl
@[simp] theorem State.modCtr_mapCentre (f : Counters → Counters) (s : State) : (s.modCtr f).mapCentre = s.mapCentre := rfl
@[simp] theorem State.modCtr_mons (f : Counters → Counters) (s : State) : (s.modCtr f).mons = s.mons := rfl
@[simp] theorem State.modCtr_tlmq (f : Counters → Counters) (s : State) : (s.modCtr f).tlmq = s.tlmq := rfl
@[simp] theorem State.modCtr_chains (f : Counters → Counters) (s : State) : (s.modCtr f).chains = s.chains := rfl
@[simp] theorem State.modCtr_dma (f : Counters → Counters) (s : State) : (s.modCtr f).dma = s.dma := rfl
@[simp] theorem State.modCtr_proto (f : Counters → Counters) (s : State) : (s.modCtr f).proto = s.proto := rfl
@[simp] theorem State.modCtr_dev (f : Counters → Counters) (s : State) : (s.modCtr f).dev = s.dev := rfl
@[simp] theorem State.modCtr_power (f : Counters → Counters) (s : State) : (s.modCtr f).power = s.power := rfl
@[simp] theorem State.modCtr_recovery (f : Counters → Counters) (s : State) : (s.modCtr f).recovery = s.recovery := rfl
@[simp] theorem State.modCtr_kennel (f : Counters → Counters) (s : State) : (s.modCtr f).kennel = s.kennel := rfl
@[simp] theorem State.modCtr_time (f : Counters → Counters) (s : State) : (s.modCtr f).time = s.time := rfl
@[simp] theorem State.modCtr_sec (f : Counters → Counters) (s : State) : (s.modCtr f).sec = s.sec := rfl
@[simp] theorem State.modCtr_clockIdentity (f : Counters → Counters) (s : State) : (s.modCtr f).clockIdentity = s.clockIdentity := rfl
@[simp] theorem State.modCtr_parityLast (f : Counters → Counters) (s : State) : (s.modCtr f).parityLast = s.parityLast := rfl
@[simp] theorem State.modCtr_readWord (f : Counters → Counters) (s : State) : (s.modCtr f).readWord = s.readWord := rfl
@[simp] theorem State.modCtr_spiReply (f : Counters → Counters) (s : State) : (s.modCtr f).spiReply = s.spiReply := rfl
@[simp] theorem State.modCtr_freeCtr (f : Counters → Counters) (s : State) : (s.modCtr f).freeCtr = s.freeCtr := rfl
@[simp] theorem State.modCtr_pending (f : Counters → Counters) (s : State) : (s.modCtr f).pending = s.pending := rfl

/-! ### modKennel -/

@[simp] theorem State.modKennel_tn (f : Kennel → Kennel) (s : State) : (s.modKennel f).tn = s.tn := rfl
@[simp] theorem State.modKennel_tickOffset (f : Kennel → Kennel) (s : State) : (s.modKennel f).tickOffset = s.tickOffset := rfl
@[simp] theorem State.modKennel_ticks (f : Kennel → Kennel) (s : State) : (s.modKennel f).ticks = s.ticks := rfl
@[simp] theorem State.modKennel_tnProvisional (f : Kennel → Kennel) (s : State) : (s.modKennel f).tnProvisional = s.tnProvisional := rfl
@[simp] theorem State.modKennel_realign (f : Kennel → Kennel) (s : State) : (s.modKennel f).realign = s.realign := rfl
@[simp] theorem State.modKennel_trafficLast (f : Kennel → Kennel) (s : State) : (s.modKennel f).trafficLast = s.trafficLast := rfl
@[simp] theorem State.modKennel_engines (f : Kennel → Kennel) (s : State) : (s.modKennel f).engines = s.engines := rfl
@[simp] theorem State.modKennel_tiles (f : Kennel → Kennel) (s : State) : (s.modKennel f).tiles = s.tiles := rfl
@[simp] theorem State.modKennel_htiles (f : Kennel → Kennel) (s : State) : (s.modKennel f).htiles = s.htiles := rfl
@[simp] theorem State.modKennel_lanes (f : Kennel → Kennel) (s : State) : (s.modKennel f).lanes = s.lanes := rfl
@[simp] theorem State.modKennel_ports (f : Kennel → Kennel) (s : State) : (s.modKennel f).ports = s.ports := rfl
@[simp] theorem State.modKennel_packs (f : Kennel → Kennel) (s : State) : (s.modKennel f).packs = s.packs := rfl
@[simp] theorem State.modKennel_cal (f : Kennel → Kennel) (s : State) : (s.modKennel f).cal = s.cal := rfl
@[simp] theorem State.modKennel_map (f : Kennel → Kennel) (s : State) : (s.modKennel f).map = s.map := rfl
@[simp] theorem State.modKennel_mapCentre (f : Kennel → Kennel) (s : State) : (s.modKennel f).mapCentre = s.mapCentre := rfl
@[simp] theorem State.modKennel_mons (f : Kennel → Kennel) (s : State) : (s.modKennel f).mons = s.mons := rfl
@[simp] theorem State.modKennel_tlmq (f : Kennel → Kennel) (s : State) : (s.modKennel f).tlmq = s.tlmq := rfl
@[simp] theorem State.modKennel_chains (f : Kennel → Kennel) (s : State) : (s.modKennel f).chains = s.chains := rfl
@[simp] theorem State.modKennel_dma (f : Kennel → Kennel) (s : State) : (s.modKennel f).dma = s.dma := rfl
@[simp] theorem State.modKennel_proto (f : Kennel → Kennel) (s : State) : (s.modKennel f).proto = s.proto := rfl
@[simp] theorem State.modKennel_dev (f : Kennel → Kennel) (s : State) : (s.modKennel f).dev = s.dev := rfl
@[simp] theorem State.modKennel_ctr (f : Kennel → Kennel) (s : State) : (s.modKennel f).ctr = s.ctr := rfl
@[simp] theorem State.modKennel_power (f : Kennel → Kennel) (s : State) : (s.modKennel f).power = s.power := rfl
@[simp] theorem State.modKennel_recovery (f : Kennel → Kennel) (s : State) : (s.modKennel f).recovery = s.recovery := rfl
@[simp] theorem State.modKennel_time (f : Kennel → Kennel) (s : State) : (s.modKennel f).time = s.time := rfl
@[simp] theorem State.modKennel_sec (f : Kennel → Kennel) (s : State) : (s.modKennel f).sec = s.sec := rfl
@[simp] theorem State.modKennel_clockIdentity (f : Kennel → Kennel) (s : State) : (s.modKennel f).clockIdentity = s.clockIdentity := rfl
@[simp] theorem State.modKennel_parityLast (f : Kennel → Kennel) (s : State) : (s.modKennel f).parityLast = s.parityLast := rfl
@[simp] theorem State.modKennel_readWord (f : Kennel → Kennel) (s : State) : (s.modKennel f).readWord = s.readWord := rfl
@[simp] theorem State.modKennel_spiReply (f : Kennel → Kennel) (s : State) : (s.modKennel f).spiReply = s.spiReply := rfl
@[simp] theorem State.modKennel_freeCtr (f : Kennel → Kennel) (s : State) : (s.modKennel f).freeCtr = s.freeCtr := rfl
@[simp] theorem State.modKennel_pending (f : Kennel → Kennel) (s : State) : (s.modKennel f).pending = s.pending := rfl

/-! ### modSettings -/

@[simp] theorem State.modSettings_tn (f : Settings → Settings) (s : State) : (s.modSettings f).tn = s.tn := rfl
@[simp] theorem State.modSettings_tickOffset (f : Settings → Settings) (s : State) : (s.modSettings f).tickOffset = s.tickOffset := rfl
@[simp] theorem State.modSettings_ticks (f : Settings → Settings) (s : State) : (s.modSettings f).ticks = s.ticks := rfl
@[simp] theorem State.modSettings_tnProvisional (f : Settings → Settings) (s : State) : (s.modSettings f).tnProvisional = s.tnProvisional := rfl
@[simp] theorem State.modSettings_realign (f : Settings → Settings) (s : State) : (s.modSettings f).realign = s.realign := rfl
@[simp] theorem State.modSettings_trafficLast (f : Settings → Settings) (s : State) : (s.modSettings f).trafficLast = s.trafficLast := rfl
@[simp] theorem State.modSettings_engines (f : Settings → Settings) (s : State) : (s.modSettings f).engines = s.engines := rfl
@[simp] theorem State.modSettings_tiles (f : Settings → Settings) (s : State) : (s.modSettings f).tiles = s.tiles := rfl
@[simp] theorem State.modSettings_htiles (f : Settings → Settings) (s : State) : (s.modSettings f).htiles = s.htiles := rfl
@[simp] theorem State.modSettings_lanes (f : Settings → Settings) (s : State) : (s.modSettings f).lanes = s.lanes := rfl
@[simp] theorem State.modSettings_ports (f : Settings → Settings) (s : State) : (s.modSettings f).ports = s.ports := rfl
@[simp] theorem State.modSettings_packs (f : Settings → Settings) (s : State) : (s.modSettings f).packs = s.packs := rfl
@[simp] theorem State.modSettings_cal (f : Settings → Settings) (s : State) : (s.modSettings f).cal = s.cal := rfl
@[simp] theorem State.modSettings_map (f : Settings → Settings) (s : State) : (s.modSettings f).map = s.map := rfl
@[simp] theorem State.modSettings_mapCentre (f : Settings → Settings) (s : State) : (s.modSettings f).mapCentre = s.mapCentre := rfl
@[simp] theorem State.modSettings_mons (f : Settings → Settings) (s : State) : (s.modSettings f).mons = s.mons := rfl
@[simp] theorem State.modSettings_tlmq (f : Settings → Settings) (s : State) : (s.modSettings f).tlmq = s.tlmq := rfl
@[simp] theorem State.modSettings_chains (f : Settings → Settings) (s : State) : (s.modSettings f).chains = s.chains := rfl
@[simp] theorem State.modSettings_dma (f : Settings → Settings) (s : State) : (s.modSettings f).dma = s.dma := rfl
@[simp] theorem State.modSettings_proto (f : Settings → Settings) (s : State) : (s.modSettings f).proto = s.proto := rfl
@[simp] theorem State.modSettings_dev (f : Settings → Settings) (s : State) : (s.modSettings f).dev = s.dev := rfl
@[simp] theorem State.modSettings_ctr (f : Settings → Settings) (s : State) : (s.modSettings f).ctr = s.ctr := rfl
@[simp] theorem State.modSettings_power (f : Settings → Settings) (s : State) : (s.modSettings f).power = s.power := rfl
@[simp] theorem State.modSettings_recovery (f : Settings → Settings) (s : State) : (s.modSettings f).recovery = s.recovery := rfl
@[simp] theorem State.modSettings_time (f : Settings → Settings) (s : State) : (s.modSettings f).time = s.time := rfl
@[simp] theorem State.modSettings_sec (f : Settings → Settings) (s : State) : (s.modSettings f).sec = s.sec := rfl
@[simp] theorem State.modSettings_clockIdentity (f : Settings → Settings) (s : State) : (s.modSettings f).clockIdentity = s.clockIdentity := rfl
@[simp] theorem State.modSettings_parityLast (f : Settings → Settings) (s : State) : (s.modSettings f).parityLast = s.parityLast := rfl
@[simp] theorem State.modSettings_readWord (f : Settings → Settings) (s : State) : (s.modSettings f).readWord = s.readWord := rfl
@[simp] theorem State.modSettings_spiReply (f : Settings → Settings) (s : State) : (s.modSettings f).spiReply = s.spiReply := rfl
@[simp] theorem State.modSettings_freeCtr (f : Settings → Settings) (s : State) : (s.modSettings f).freeCtr = s.freeCtr := rfl
@[simp] theorem State.modSettings_pending (f : Settings → Settings) (s : State) : (s.modSettings f).pending = s.pending := rfl

/-! ### modLife -/

@[simp] theorem State.modLife_tn (f : LifeRecord → LifeRecord) (s : State) : (s.modLife f).tn = s.tn := rfl
@[simp] theorem State.modLife_tickOffset (f : LifeRecord → LifeRecord) (s : State) : (s.modLife f).tickOffset = s.tickOffset := rfl
@[simp] theorem State.modLife_ticks (f : LifeRecord → LifeRecord) (s : State) : (s.modLife f).ticks = s.ticks := rfl
@[simp] theorem State.modLife_tnProvisional (f : LifeRecord → LifeRecord) (s : State) : (s.modLife f).tnProvisional = s.tnProvisional := rfl
@[simp] theorem State.modLife_realign (f : LifeRecord → LifeRecord) (s : State) : (s.modLife f).realign = s.realign := rfl
@[simp] theorem State.modLife_trafficLast (f : LifeRecord → LifeRecord) (s : State) : (s.modLife f).trafficLast = s.trafficLast := rfl
@[simp] theorem State.modLife_engines (f : LifeRecord → LifeRecord) (s : State) : (s.modLife f).engines = s.engines := rfl
@[simp] theorem State.modLife_tiles (f : LifeRecord → LifeRecord) (s : State) : (s.modLife f).tiles = s.tiles := rfl
@[simp] theorem State.modLife_htiles (f : LifeRecord → LifeRecord) (s : State) : (s.modLife f).htiles = s.htiles := rfl
@[simp] theorem State.modLife_lanes (f : LifeRecord → LifeRecord) (s : State) : (s.modLife f).lanes = s.lanes := rfl
@[simp] theorem State.modLife_ports (f : LifeRecord → LifeRecord) (s : State) : (s.modLife f).ports = s.ports := rfl
@[simp] theorem State.modLife_packs (f : LifeRecord → LifeRecord) (s : State) : (s.modLife f).packs = s.packs := rfl
@[simp] theorem State.modLife_cal (f : LifeRecord → LifeRecord) (s : State) : (s.modLife f).cal = s.cal := rfl
@[simp] theorem State.modLife_map (f : LifeRecord → LifeRecord) (s : State) : (s.modLife f).map = s.map := rfl
@[simp] theorem State.modLife_mapCentre (f : LifeRecord → LifeRecord) (s : State) : (s.modLife f).mapCentre = s.mapCentre := rfl
@[simp] theorem State.modLife_mons (f : LifeRecord → LifeRecord) (s : State) : (s.modLife f).mons = s.mons := rfl
@[simp] theorem State.modLife_tlmq (f : LifeRecord → LifeRecord) (s : State) : (s.modLife f).tlmq = s.tlmq := rfl
@[simp] theorem State.modLife_chains (f : LifeRecord → LifeRecord) (s : State) : (s.modLife f).chains = s.chains := rfl
@[simp] theorem State.modLife_dma (f : LifeRecord → LifeRecord) (s : State) : (s.modLife f).dma = s.dma := rfl
@[simp] theorem State.modLife_proto (f : LifeRecord → LifeRecord) (s : State) : (s.modLife f).proto = s.proto := rfl
@[simp] theorem State.modLife_dev (f : LifeRecord → LifeRecord) (s : State) : (s.modLife f).dev = s.dev := rfl
@[simp] theorem State.modLife_ctr (f : LifeRecord → LifeRecord) (s : State) : (s.modLife f).ctr = s.ctr := rfl
@[simp] theorem State.modLife_power (f : LifeRecord → LifeRecord) (s : State) : (s.modLife f).power = s.power := rfl
@[simp] theorem State.modLife_recovery (f : LifeRecord → LifeRecord) (s : State) : (s.modLife f).recovery = s.recovery := rfl
@[simp] theorem State.modLife_time (f : LifeRecord → LifeRecord) (s : State) : (s.modLife f).time = s.time := rfl
@[simp] theorem State.modLife_sec (f : LifeRecord → LifeRecord) (s : State) : (s.modLife f).sec = s.sec := rfl
@[simp] theorem State.modLife_clockIdentity (f : LifeRecord → LifeRecord) (s : State) : (s.modLife f).clockIdentity = s.clockIdentity := rfl
@[simp] theorem State.modLife_parityLast (f : LifeRecord → LifeRecord) (s : State) : (s.modLife f).parityLast = s.parityLast := rfl
@[simp] theorem State.modLife_readWord (f : LifeRecord → LifeRecord) (s : State) : (s.modLife f).readWord = s.readWord := rfl
@[simp] theorem State.modLife_spiReply (f : LifeRecord → LifeRecord) (s : State) : (s.modLife f).spiReply = s.spiReply := rfl
@[simp] theorem State.modLife_freeCtr (f : LifeRecord → LifeRecord) (s : State) : (s.modLife f).freeCtr = s.freeCtr := rfl
@[simp] theorem State.modLife_pending (f : LifeRecord → LifeRecord) (s : State) : (s.modLife f).pending = s.pending := rfl

/-! ### modRec -/

@[simp] theorem State.modRec_tn (f : Recovery → Recovery) (s : State) : (s.modRec f).tn = s.tn := rfl
@[simp] theorem State.modRec_tickOffset (f : Recovery → Recovery) (s : State) : (s.modRec f).tickOffset = s.tickOffset := rfl
@[simp] theorem State.modRec_ticks (f : Recovery → Recovery) (s : State) : (s.modRec f).ticks = s.ticks := rfl
@[simp] theorem State.modRec_tnProvisional (f : Recovery → Recovery) (s : State) : (s.modRec f).tnProvisional = s.tnProvisional := rfl
@[simp] theorem State.modRec_realign (f : Recovery → Recovery) (s : State) : (s.modRec f).realign = s.realign := rfl
@[simp] theorem State.modRec_trafficLast (f : Recovery → Recovery) (s : State) : (s.modRec f).trafficLast = s.trafficLast := rfl
@[simp] theorem State.modRec_engines (f : Recovery → Recovery) (s : State) : (s.modRec f).engines = s.engines := rfl
@[simp] theorem State.modRec_tiles (f : Recovery → Recovery) (s : State) : (s.modRec f).tiles = s.tiles := rfl
@[simp] theorem State.modRec_htiles (f : Recovery → Recovery) (s : State) : (s.modRec f).htiles = s.htiles := rfl
@[simp] theorem State.modRec_lanes (f : Recovery → Recovery) (s : State) : (s.modRec f).lanes = s.lanes := rfl
@[simp] theorem State.modRec_ports (f : Recovery → Recovery) (s : State) : (s.modRec f).ports = s.ports := rfl
@[simp] theorem State.modRec_packs (f : Recovery → Recovery) (s : State) : (s.modRec f).packs = s.packs := rfl
@[simp] theorem State.modRec_cal (f : Recovery → Recovery) (s : State) : (s.modRec f).cal = s.cal := rfl
@[simp] theorem State.modRec_map (f : Recovery → Recovery) (s : State) : (s.modRec f).map = s.map := rfl
@[simp] theorem State.modRec_mapCentre (f : Recovery → Recovery) (s : State) : (s.modRec f).mapCentre = s.mapCentre := rfl
@[simp] theorem State.modRec_mons (f : Recovery → Recovery) (s : State) : (s.modRec f).mons = s.mons := rfl
@[simp] theorem State.modRec_tlmq (f : Recovery → Recovery) (s : State) : (s.modRec f).tlmq = s.tlmq := rfl
@[simp] theorem State.modRec_chains (f : Recovery → Recovery) (s : State) : (s.modRec f).chains = s.chains := rfl
@[simp] theorem State.modRec_dma (f : Recovery → Recovery) (s : State) : (s.modRec f).dma = s.dma := rfl
@[simp] theorem State.modRec_proto (f : Recovery → Recovery) (s : State) : (s.modRec f).proto = s.proto := rfl
@[simp] theorem State.modRec_dev (f : Recovery → Recovery) (s : State) : (s.modRec f).dev = s.dev := rfl
@[simp] theorem State.modRec_ctr (f : Recovery → Recovery) (s : State) : (s.modRec f).ctr = s.ctr := rfl
@[simp] theorem State.modRec_power (f : Recovery → Recovery) (s : State) : (s.modRec f).power = s.power := rfl
@[simp] theorem State.modRec_kennel (f : Recovery → Recovery) (s : State) : (s.modRec f).kennel = s.kennel := rfl
@[simp] theorem State.modRec_time (f : Recovery → Recovery) (s : State) : (s.modRec f).time = s.time := rfl
@[simp] theorem State.modRec_sec (f : Recovery → Recovery) (s : State) : (s.modRec f).sec = s.sec := rfl
@[simp] theorem State.modRec_clockIdentity (f : Recovery → Recovery) (s : State) : (s.modRec f).clockIdentity = s.clockIdentity := rfl
@[simp] theorem State.modRec_parityLast (f : Recovery → Recovery) (s : State) : (s.modRec f).parityLast = s.parityLast := rfl
@[simp] theorem State.modRec_readWord (f : Recovery → Recovery) (s : State) : (s.modRec f).readWord = s.readWord := rfl
@[simp] theorem State.modRec_spiReply (f : Recovery → Recovery) (s : State) : (s.modRec f).spiReply = s.spiReply := rfl
@[simp] theorem State.modRec_freeCtr (f : Recovery → Recovery) (s : State) : (s.modRec f).freeCtr = s.freeCtr := rfl
@[simp] theorem State.modRec_pending (f : Recovery → Recovery) (s : State) : (s.modRec f).pending = s.pending := rfl

/-! ### modPower -/

@[simp] theorem State.modPower_tn (f : Power → Power) (s : State) : (s.modPower f).tn = s.tn := rfl
@[simp] theorem State.modPower_tickOffset (f : Power → Power) (s : State) : (s.modPower f).tickOffset = s.tickOffset := rfl
@[simp] theorem State.modPower_ticks (f : Power → Power) (s : State) : (s.modPower f).ticks = s.ticks := rfl
@[simp] theorem State.modPower_tnProvisional (f : Power → Power) (s : State) : (s.modPower f).tnProvisional = s.tnProvisional := rfl
@[simp] theorem State.modPower_realign (f : Power → Power) (s : State) : (s.modPower f).realign = s.realign := rfl
@[simp] theorem State.modPower_trafficLast (f : Power → Power) (s : State) : (s.modPower f).trafficLast = s.trafficLast := rfl
@[simp] theorem State.modPower_engines (f : Power → Power) (s : State) : (s.modPower f).engines = s.engines := rfl
@[simp] theorem State.modPower_tiles (f : Power → Power) (s : State) : (s.modPower f).tiles = s.tiles := rfl
@[simp] theorem State.modPower_htiles (f : Power → Power) (s : State) : (s.modPower f).htiles = s.htiles := rfl
@[simp] theorem State.modPower_lanes (f : Power → Power) (s : State) : (s.modPower f).lanes = s.lanes := rfl
@[simp] theorem State.modPower_ports (f : Power → Power) (s : State) : (s.modPower f).ports = s.ports := rfl
@[simp] theorem State.modPower_packs (f : Power → Power) (s : State) : (s.modPower f).packs = s.packs := rfl
@[simp] theorem State.modPower_cal (f : Power → Power) (s : State) : (s.modPower f).cal = s.cal := rfl
@[simp] theorem State.modPower_map (f : Power → Power) (s : State) : (s.modPower f).map = s.map := rfl
@[simp] theorem State.modPower_mapCentre (f : Power → Power) (s : State) : (s.modPower f).mapCentre = s.mapCentre := rfl
@[simp] theorem State.modPower_mons (f : Power → Power) (s : State) : (s.modPower f).mons = s.mons := rfl
@[simp] theorem State.modPower_tlmq (f : Power → Power) (s : State) : (s.modPower f).tlmq = s.tlmq := rfl
@[simp] theorem State.modPower_chains (f : Power → Power) (s : State) : (s.modPower f).chains = s.chains := rfl
@[simp] theorem State.modPower_dma (f : Power → Power) (s : State) : (s.modPower f).dma = s.dma := rfl
@[simp] theorem State.modPower_proto (f : Power → Power) (s : State) : (s.modPower f).proto = s.proto := rfl
@[simp] theorem State.modPower_dev (f : Power → Power) (s : State) : (s.modPower f).dev = s.dev := rfl
@[simp] theorem State.modPower_ctr (f : Power → Power) (s : State) : (s.modPower f).ctr = s.ctr := rfl
@[simp] theorem State.modPower_recovery (f : Power → Power) (s : State) : (s.modPower f).recovery = s.recovery := rfl
@[simp] theorem State.modPower_kennel (f : Power → Power) (s : State) : (s.modPower f).kennel = s.kennel := rfl
@[simp] theorem State.modPower_time (f : Power → Power) (s : State) : (s.modPower f).time = s.time := rfl
@[simp] theorem State.modPower_sec (f : Power → Power) (s : State) : (s.modPower f).sec = s.sec := rfl
@[simp] theorem State.modPower_clockIdentity (f : Power → Power) (s : State) : (s.modPower f).clockIdentity = s.clockIdentity := rfl
@[simp] theorem State.modPower_parityLast (f : Power → Power) (s : State) : (s.modPower f).parityLast = s.parityLast := rfl
@[simp] theorem State.modPower_readWord (f : Power → Power) (s : State) : (s.modPower f).readWord = s.readWord := rfl
@[simp] theorem State.modPower_spiReply (f : Power → Power) (s : State) : (s.modPower f).spiReply = s.spiReply := rfl
@[simp] theorem State.modPower_freeCtr (f : Power → Power) (s : State) : (s.modPower f).freeCtr = s.freeCtr := rfl
@[simp] theorem State.modPower_pending (f : Power → Power) (s : State) : (s.modPower f).pending = s.pending := rfl

/-! ### modDev -/

@[simp] theorem State.modDev_tn (f : DeviceBlock → DeviceBlock) (s : State) : (s.modDev f).tn = s.tn := rfl
@[simp] theorem State.modDev_tickOffset (f : DeviceBlock → DeviceBlock) (s : State) : (s.modDev f).tickOffset = s.tickOffset := rfl
@[simp] theorem State.modDev_ticks (f : DeviceBlock → DeviceBlock) (s : State) : (s.modDev f).ticks = s.ticks := rfl
@[simp] theorem State.modDev_tnProvisional (f : DeviceBlock → DeviceBlock) (s : State) : (s.modDev f).tnProvisional = s.tnProvisional := rfl
@[simp] theorem State.modDev_realign (f : DeviceBlock → DeviceBlock) (s : State) : (s.modDev f).realign = s.realign := rfl
@[simp] theorem State.modDev_trafficLast (f : DeviceBlock → DeviceBlock) (s : State) : (s.modDev f).trafficLast = s.trafficLast := rfl
@[simp] theorem State.modDev_engines (f : DeviceBlock → DeviceBlock) (s : State) : (s.modDev f).engines = s.engines := rfl
@[simp] theorem State.modDev_tiles (f : DeviceBlock → DeviceBlock) (s : State) : (s.modDev f).tiles = s.tiles := rfl
@[simp] theorem State.modDev_htiles (f : DeviceBlock → DeviceBlock) (s : State) : (s.modDev f).htiles = s.htiles := rfl
@[simp] theorem State.modDev_lanes (f : DeviceBlock → DeviceBlock) (s : State) : (s.modDev f).lanes = s.lanes := rfl
@[simp] theorem State.modDev_ports (f : DeviceBlock → DeviceBlock) (s : State) : (s.modDev f).ports = s.ports := rfl
@[simp] theorem State.modDev_packs (f : DeviceBlock → DeviceBlock) (s : State) : (s.modDev f).packs = s.packs := rfl
@[simp] theorem State.modDev_cal (f : DeviceBlock → DeviceBlock) (s : State) : (s.modDev f).cal = s.cal := rfl
@[simp] theorem State.modDev_map (f : DeviceBlock → DeviceBlock) (s : State) : (s.modDev f).map = s.map := rfl
@[simp] theorem State.modDev_mapCentre (f : DeviceBlock → DeviceBlock) (s : State) : (s.modDev f).mapCentre = s.mapCentre := rfl
@[simp] theorem State.modDev_mons (f : DeviceBlock → DeviceBlock) (s : State) : (s.modDev f).mons = s.mons := rfl
@[simp] theorem State.modDev_tlmq (f : DeviceBlock → DeviceBlock) (s : State) : (s.modDev f).tlmq = s.tlmq := rfl
@[simp] theorem State.modDev_chains (f : DeviceBlock → DeviceBlock) (s : State) : (s.modDev f).chains = s.chains := rfl
@[simp] theorem State.modDev_dma (f : DeviceBlock → DeviceBlock) (s : State) : (s.modDev f).dma = s.dma := rfl
@[simp] theorem State.modDev_proto (f : DeviceBlock → DeviceBlock) (s : State) : (s.modDev f).proto = s.proto := rfl
@[simp] theorem State.modDev_ctr (f : DeviceBlock → DeviceBlock) (s : State) : (s.modDev f).ctr = s.ctr := rfl
@[simp] theorem State.modDev_power (f : DeviceBlock → DeviceBlock) (s : State) : (s.modDev f).power = s.power := rfl
@[simp] theorem State.modDev_recovery (f : DeviceBlock → DeviceBlock) (s : State) : (s.modDev f).recovery = s.recovery := rfl
@[simp] theorem State.modDev_kennel (f : DeviceBlock → DeviceBlock) (s : State) : (s.modDev f).kennel = s.kennel := rfl
@[simp] theorem State.modDev_time (f : DeviceBlock → DeviceBlock) (s : State) : (s.modDev f).time = s.time := rfl
@[simp] theorem State.modDev_sec (f : DeviceBlock → DeviceBlock) (s : State) : (s.modDev f).sec = s.sec := rfl
@[simp] theorem State.modDev_clockIdentity (f : DeviceBlock → DeviceBlock) (s : State) : (s.modDev f).clockIdentity = s.clockIdentity := rfl
@[simp] theorem State.modDev_parityLast (f : DeviceBlock → DeviceBlock) (s : State) : (s.modDev f).parityLast = s.parityLast := rfl
@[simp] theorem State.modDev_readWord (f : DeviceBlock → DeviceBlock) (s : State) : (s.modDev f).readWord = s.readWord := rfl
@[simp] theorem State.modDev_spiReply (f : DeviceBlock → DeviceBlock) (s : State) : (s.modDev f).spiReply = s.spiReply := rfl
@[simp] theorem State.modDev_freeCtr (f : DeviceBlock → DeviceBlock) (s : State) : (s.modDev f).freeCtr = s.freeCtr := rfl
@[simp] theorem State.modDev_pending (f : DeviceBlock → DeviceBlock) (s : State) : (s.modDev f).pending = s.pending := rfl

/-! ### modTime -/

@[simp] theorem State.modTime_tn (f : TimeCore → TimeCore) (s : State) : (s.modTime f).tn = s.tn := rfl
@[simp] theorem State.modTime_tickOffset (f : TimeCore → TimeCore) (s : State) : (s.modTime f).tickOffset = s.tickOffset := rfl
@[simp] theorem State.modTime_ticks (f : TimeCore → TimeCore) (s : State) : (s.modTime f).ticks = s.ticks := rfl
@[simp] theorem State.modTime_tnProvisional (f : TimeCore → TimeCore) (s : State) : (s.modTime f).tnProvisional = s.tnProvisional := rfl
@[simp] theorem State.modTime_realign (f : TimeCore → TimeCore) (s : State) : (s.modTime f).realign = s.realign := rfl
@[simp] theorem State.modTime_trafficLast (f : TimeCore → TimeCore) (s : State) : (s.modTime f).trafficLast = s.trafficLast := rfl
@[simp] theorem State.modTime_engines (f : TimeCore → TimeCore) (s : State) : (s.modTime f).engines = s.engines := rfl
@[simp] theorem State.modTime_tiles (f : TimeCore → TimeCore) (s : State) : (s.modTime f).tiles = s.tiles := rfl
@[simp] theorem State.modTime_htiles (f : TimeCore → TimeCore) (s : State) : (s.modTime f).htiles = s.htiles := rfl
@[simp] theorem State.modTime_lanes (f : TimeCore → TimeCore) (s : State) : (s.modTime f).lanes = s.lanes := rfl
@[simp] theorem State.modTime_ports (f : TimeCore → TimeCore) (s : State) : (s.modTime f).ports = s.ports := rfl
@[simp] theorem State.modTime_packs (f : TimeCore → TimeCore) (s : State) : (s.modTime f).packs = s.packs := rfl
@[simp] theorem State.modTime_cal (f : TimeCore → TimeCore) (s : State) : (s.modTime f).cal = s.cal := rfl
@[simp] theorem State.modTime_map (f : TimeCore → TimeCore) (s : State) : (s.modTime f).map = s.map := rfl
@[simp] theorem State.modTime_mapCentre (f : TimeCore → TimeCore) (s : State) : (s.modTime f).mapCentre = s.mapCentre := rfl
@[simp] theorem State.modTime_mons (f : TimeCore → TimeCore) (s : State) : (s.modTime f).mons = s.mons := rfl
@[simp] theorem State.modTime_tlmq (f : TimeCore → TimeCore) (s : State) : (s.modTime f).tlmq = s.tlmq := rfl
@[simp] theorem State.modTime_chains (f : TimeCore → TimeCore) (s : State) : (s.modTime f).chains = s.chains := rfl
@[simp] theorem State.modTime_dma (f : TimeCore → TimeCore) (s : State) : (s.modTime f).dma = s.dma := rfl
@[simp] theorem State.modTime_proto (f : TimeCore → TimeCore) (s : State) : (s.modTime f).proto = s.proto := rfl
@[simp] theorem State.modTime_dev (f : TimeCore → TimeCore) (s : State) : (s.modTime f).dev = s.dev := rfl
@[simp] theorem State.modTime_ctr (f : TimeCore → TimeCore) (s : State) : (s.modTime f).ctr = s.ctr := rfl
@[simp] theorem State.modTime_power (f : TimeCore → TimeCore) (s : State) : (s.modTime f).power = s.power := rfl
@[simp] theorem State.modTime_recovery (f : TimeCore → TimeCore) (s : State) : (s.modTime f).recovery = s.recovery := rfl
@[simp] theorem State.modTime_kennel (f : TimeCore → TimeCore) (s : State) : (s.modTime f).kennel = s.kennel := rfl
@[simp] theorem State.modTime_sec (f : TimeCore → TimeCore) (s : State) : (s.modTime f).sec = s.sec := rfl
@[simp] theorem State.modTime_clockIdentity (f : TimeCore → TimeCore) (s : State) : (s.modTime f).clockIdentity = s.clockIdentity := rfl
@[simp] theorem State.modTime_parityLast (f : TimeCore → TimeCore) (s : State) : (s.modTime f).parityLast = s.parityLast := rfl
@[simp] theorem State.modTime_readWord (f : TimeCore → TimeCore) (s : State) : (s.modTime f).readWord = s.readWord := rfl
@[simp] theorem State.modTime_spiReply (f : TimeCore → TimeCore) (s : State) : (s.modTime f).spiReply = s.spiReply := rfl
@[simp] theorem State.modTime_freeCtr (f : TimeCore → TimeCore) (s : State) : (s.modTime f).freeCtr = s.freeCtr := rfl
@[simp] theorem State.modTime_pending (f : TimeCore → TimeCore) (s : State) : (s.modTime f).pending = s.pending := rfl

/-! ### The changed part -/

@[simp] theorem State.modProto_proto (f : Protocol → Protocol) (s : State) : (s.modProto f).proto = f s.proto := rfl
@[simp] theorem State.modCtr_ctr (f : Counters → Counters) (s : State) : (s.modCtr f).ctr = f s.ctr := rfl
@[simp] theorem State.modKennel_kennel (f : Kennel → Kennel) (s : State) : (s.modKennel f).kennel = f s.kennel := rfl
@[simp] theorem State.modSettings_kennel (f : Settings → Settings) (s : State) :
    (s.modSettings f).kennel = { s.kennel with settings := f s.kennel.settings } := rfl
@[simp] theorem State.modLife_kennel (f : LifeRecord → LifeRecord) (s : State) :
    (s.modLife f).kennel = { s.kennel with life := f s.kennel.life } := rfl
@[simp] theorem State.modRec_recovery (f : Recovery → Recovery) (s : State) : (s.modRec f).recovery = f s.recovery := rfl
@[simp] theorem State.modPower_power (f : Power → Power) (s : State) : (s.modPower f).power = f s.power := rfl
@[simp] theorem State.modDev_dev (f : DeviceBlock → DeviceBlock) (s : State) : (s.modDev f).dev = f s.dev := rfl
@[simp] theorem State.modTime_time (f : TimeCore → TimeCore) (s : State) : (s.modTime f).time = f s.time := rfl
@[simp] theorem State.eng_modEng_same (i : Nat) (f : Engine → Engine) (s : State) (h : i < 48) : (s.modEng i f).eng i = f (s.eng i) :=
  vget_vmod_same _ _ _ _ h
@[simp] theorem State.eng_modEng_ne (i j : Nat) (f : Engine → Engine) (s : State) (h : j ≠ i) : (s.modEng i f).eng j = s.eng j :=
  vget_vmod_ne _ _ _ _ _ h
@[simp] theorem State.tile_modTile_same (i : Nat) (f : Tile → Tile) (s : State) (h : i < 12) : (s.modTile i f).tile i = f (s.tile i) :=
  vget_vmod_same _ _ _ _ h
@[simp] theorem State.tile_modTile_ne (i j : Nat) (f : Tile → Tile) (s : State) (h : j ≠ i) : (s.modTile i f).tile j = s.tile j :=
  vget_vmod_ne _ _ _ _ _ h
@[simp] theorem State.lane_modLane_same (i : Nat) (f : HostLane → HostLane) (s : State) (h : i < 384) : (s.modLane i f).lane i = f (s.lane i) :=
  vget_vmod_same _ _ _ _ h
@[simp] theorem State.lane_modLane_ne (i j : Nat) (f : HostLane → HostLane) (s : State) (h : j ≠ i) : (s.modLane i f).lane j = s.lane j :=
  vget_vmod_ne _ _ _ _ _ h
@[simp] theorem State.htile_modHtile_same (i : Nat) (f : HostTile → HostTile) (s : State) (h : i < 4) : (s.modHtile i f).htile i = f (s.htile i) :=
  vget_vmod_same _ _ _ _ h
@[simp] theorem State.htile_modHtile_ne (i j : Nat) (f : HostTile → HostTile) (s : State) (h : j ≠ i) : (s.modHtile i f).htile j = s.htile j :=
  vget_vmod_ne _ _ _ _ _ h
@[simp] theorem State.pack_modPack_same (i : Nat) (f : Pack → Pack) (s : State) (h : i < 24) : (s.modPack i f).pack i = f (s.pack i) :=
  vget_vmod_same _ _ _ _ h
@[simp] theorem State.pack_modPack_ne (i j : Nat) (f : Pack → Pack) (s : State) (h : j ≠ i) : (s.modPack i f).pack j = s.pack j :=
  vget_vmod_ne _ _ _ _ _ h
@[simp] theorem State.mc_modMc_same (i : Nat) (f : MonConv → MonConv) (s : State) (h : i < 4) : (s.modMc i f).mc i = f (s.mc i) :=
  vget_vmod_same _ _ _ _ h
@[simp] theorem State.mc_modMc_ne (i j : Nat) (f : MonConv → MonConv) (s : State) (h : j ≠ i) : (s.modMc i f).mc j = s.mc j :=
  vget_vmod_ne _ _ _ _ _ h
@[simp] theorem State.dc_modDc_same (i : Nat) (f : DmaChannel → DmaChannel) (s : State) (h : i < 16) : (s.modDc i f).dc i = f (s.dc i) :=
  vget_vmod_same _ _ _ _ h
@[simp] theorem State.dc_modDc_ne (i j : Nat) (f : DmaChannel → DmaChannel) (s : State) (h : j ≠ i) : (s.modDc i f).dc j = s.dc j :=
  vget_vmod_ne _ _ _ _ _ h
@[simp] theorem State.qreg_modQreg_same (i : Nat) (f : QueueRegs → QueueRegs) (s : State) (h : i < 12) :
    (s.modQreg i f).qreg i = f (s.qreg i) := vget_vmod_same _ _ _ _ h
@[simp] theorem State.qreg_modQreg_ne (i j : Nat) (f : QueueRegs → QueueRegs) (s : State) (h : j ≠ i) :
    (s.modQreg i f).qreg j = s.qreg j := vget_vmod_ne _ _ _ _ _ h

/-! ### Accessors of the other parts -/

@[simp] theorem State.tile_modEng (i : Nat) (f : Engine → Engine) (j : Nat) (s : State) : (s.modEng i f).tile j = s.tile j := rfl
@[simp] theorem State.fenced_modEng (i : Nat) (f : Engine → Engine) (j : Nat) (s : State) : (s.modEng i f).fenced j = s.fenced j := rfl
@[simp] theorem State.lane_modEng (i : Nat) (f : Engine → Engine) (j : Nat) (s : State) : (s.modEng i f).lane j = s.lane j := rfl
@[simp] theorem State.htile_modEng (i : Nat) (f : Engine → Engine) (j : Nat) (s : State) : (s.modEng i f).htile j = s.htile j := rfl
@[simp] theorem State.portOpt_modEng (i : Nat) (f : Engine → Engine) (j : Nat) (s : State) : (s.modEng i f).port? j = s.port? j := rfl
@[simp] theorem State.pack_modEng (i : Nat) (f : Engine → Engine) (j : Nat) (s : State) : (s.modEng i f).pack j = s.pack j := rfl
@[simp] theorem State.mc_modEng (i : Nat) (f : Engine → Engine) (j : Nat) (s : State) : (s.modEng i f).mc j = s.mc j := rfl
@[simp] theorem State.dc_modEng (i : Nat) (f : Engine → Engine) (j : Nat) (s : State) : (s.modEng i f).dc j = s.dc j := rfl
@[simp] theorem State.qreg_modEng (i : Nat) (f : Engine → Engine) (j : Nat) (s : State) : (s.modEng i f).qreg j = s.qreg j := rfl
@[simp] theorem State.cmdq_modEng (i : Nat) (f : Engine → Engine) (j : Nat) (s : State) : (s.modEng i f).cmdq j = s.cmdq j := rfl
@[simp] theorem State.sysHeld_modEng (i : Nat) (f : Engine → Engine)  (s : State) : (s.modEng i f).sysHeld = s.sysHeld := rfl
@[simp] theorem State.eng_modTile (i : Nat) (f : Tile → Tile) (j : Nat) (s : State) : (s.modTile i f).eng j = s.eng j := rfl
@[simp] theorem State.lane_modTile (i : Nat) (f : Tile → Tile) (j : Nat) (s : State) : (s.modTile i f).lane j = s.lane j := rfl
@[simp] theorem State.htile_modTile (i : Nat) (f : Tile → Tile) (j : Nat) (s : State) : (s.modTile i f).htile j = s.htile j := rfl
@[simp] theorem State.portOpt_modTile (i : Nat) (f : Tile → Tile) (j : Nat) (s : State) : (s.modTile i f).port? j = s.port? j := rfl
@[simp] theorem State.pack_modTile (i : Nat) (f : Tile → Tile) (j : Nat) (s : State) : (s.modTile i f).pack j = s.pack j := rfl
@[simp] theorem State.mc_modTile (i : Nat) (f : Tile → Tile) (j : Nat) (s : State) : (s.modTile i f).mc j = s.mc j := rfl
@[simp] theorem State.dc_modTile (i : Nat) (f : Tile → Tile) (j : Nat) (s : State) : (s.modTile i f).dc j = s.dc j := rfl
@[simp] theorem State.qreg_modTile (i : Nat) (f : Tile → Tile) (j : Nat) (s : State) : (s.modTile i f).qreg j = s.qreg j := rfl
@[simp] theorem State.cmdq_modTile (i : Nat) (f : Tile → Tile) (j : Nat) (s : State) : (s.modTile i f).cmdq j = s.cmdq j := rfl
@[simp] theorem State.sysHeld_modTile (i : Nat) (f : Tile → Tile)  (s : State) : (s.modTile i f).sysHeld = s.sysHeld := rfl
@[simp] theorem State.tileTemp_modTile (i : Nat) (f : Tile → Tile) (j : Nat) (s : State) : (s.modTile i f).tileTemp j = s.tileTemp j := rfl
@[simp] theorem State.eng_modLane (i : Nat) (f : HostLane → HostLane) (j : Nat) (s : State) : (s.modLane i f).eng j = s.eng j := rfl
@[simp] theorem State.tile_modLane (i : Nat) (f : HostLane → HostLane) (j : Nat) (s : State) : (s.modLane i f).tile j = s.tile j := rfl
@[simp] theorem State.fenced_modLane (i : Nat) (f : HostLane → HostLane) (j : Nat) (s : State) : (s.modLane i f).fenced j = s.fenced j := rfl
@[simp] theorem State.htile_modLane (i : Nat) (f : HostLane → HostLane) (j : Nat) (s : State) : (s.modLane i f).htile j = s.htile j := rfl
@[simp] theorem State.portOpt_modLane (i : Nat) (f : HostLane → HostLane) (j : Nat) (s : State) : (s.modLane i f).port? j = s.port? j := rfl
@[simp] theorem State.pack_modLane (i : Nat) (f : HostLane → HostLane) (j : Nat) (s : State) : (s.modLane i f).pack j = s.pack j := rfl
@[simp] theorem State.mc_modLane (i : Nat) (f : HostLane → HostLane) (j : Nat) (s : State) : (s.modLane i f).mc j = s.mc j := rfl
@[simp] theorem State.dc_modLane (i : Nat) (f : HostLane → HostLane) (j : Nat) (s : State) : (s.modLane i f).dc j = s.dc j := rfl
@[simp] theorem State.qreg_modLane (i : Nat) (f : HostLane → HostLane) (j : Nat) (s : State) : (s.modLane i f).qreg j = s.qreg j := rfl
@[simp] theorem State.cmdq_modLane (i : Nat) (f : HostLane → HostLane) (j : Nat) (s : State) : (s.modLane i f).cmdq j = s.cmdq j := rfl
@[simp] theorem State.sysHeld_modLane (i : Nat) (f : HostLane → HostLane)  (s : State) : (s.modLane i f).sysHeld = s.sysHeld := rfl
@[simp] theorem State.tileTemp_modLane (i : Nat) (f : HostLane → HostLane) (j : Nat) (s : State) : (s.modLane i f).tileTemp j = s.tileTemp j := rfl
@[simp] theorem State.eng_modHtile (i : Nat) (f : HostTile → HostTile) (j : Nat) (s : State) : (s.modHtile i f).eng j = s.eng j := rfl
@[simp] theorem State.tile_modHtile (i : Nat) (f : HostTile → HostTile) (j : Nat) (s : State) : (s.modHtile i f).tile j = s.tile j := rfl
@[simp] theorem State.fenced_modHtile (i : Nat) (f : HostTile → HostTile) (j : Nat) (s : State) : (s.modHtile i f).fenced j = s.fenced j := rfl
@[simp] theorem State.lane_modHtile (i : Nat) (f : HostTile → HostTile) (j : Nat) (s : State) : (s.modHtile i f).lane j = s.lane j := rfl
@[simp] theorem State.portOpt_modHtile (i : Nat) (f : HostTile → HostTile) (j : Nat) (s : State) : (s.modHtile i f).port? j = s.port? j := rfl
@[simp] theorem State.pack_modHtile (i : Nat) (f : HostTile → HostTile) (j : Nat) (s : State) : (s.modHtile i f).pack j = s.pack j := rfl
@[simp] theorem State.mc_modHtile (i : Nat) (f : HostTile → HostTile) (j : Nat) (s : State) : (s.modHtile i f).mc j = s.mc j := rfl
@[simp] theorem State.dc_modHtile (i : Nat) (f : HostTile → HostTile) (j : Nat) (s : State) : (s.modHtile i f).dc j = s.dc j := rfl
@[simp] theorem State.qreg_modHtile (i : Nat) (f : HostTile → HostTile) (j : Nat) (s : State) : (s.modHtile i f).qreg j = s.qreg j := rfl
@[simp] theorem State.cmdq_modHtile (i : Nat) (f : HostTile → HostTile) (j : Nat) (s : State) : (s.modHtile i f).cmdq j = s.cmdq j := rfl
@[simp] theorem State.sysHeld_modHtile (i : Nat) (f : HostTile → HostTile)  (s : State) : (s.modHtile i f).sysHeld = s.sysHeld := rfl
@[simp] theorem State.tileTemp_modHtile (i : Nat) (f : HostTile → HostTile) (j : Nat) (s : State) : (s.modHtile i f).tileTemp j = s.tileTemp j := rfl
@[simp] theorem State.eng_modPort (i : Nat) (f : Port → Port) (j : Nat) (s : State) : (s.modPort i f).eng j = s.eng j := rfl
@[simp] theorem State.tile_modPort (i : Nat) (f : Port → Port) (j : Nat) (s : State) : (s.modPort i f).tile j = s.tile j := rfl
@[simp] theorem State.fenced_modPort (i : Nat) (f : Port → Port) (j : Nat) (s : State) : (s.modPort i f).fenced j = s.fenced j := rfl
@[simp] theorem State.lane_modPort (i : Nat) (f : Port → Port) (j : Nat) (s : State) : (s.modPort i f).lane j = s.lane j := rfl
@[simp] theorem State.htile_modPort (i : Nat) (f : Port → Port) (j : Nat) (s : State) : (s.modPort i f).htile j = s.htile j := rfl
@[simp] theorem State.pack_modPort (i : Nat) (f : Port → Port) (j : Nat) (s : State) : (s.modPort i f).pack j = s.pack j := rfl
@[simp] theorem State.mc_modPort (i : Nat) (f : Port → Port) (j : Nat) (s : State) : (s.modPort i f).mc j = s.mc j := rfl
@[simp] theorem State.dc_modPort (i : Nat) (f : Port → Port) (j : Nat) (s : State) : (s.modPort i f).dc j = s.dc j := rfl
@[simp] theorem State.qreg_modPort (i : Nat) (f : Port → Port) (j : Nat) (s : State) : (s.modPort i f).qreg j = s.qreg j := rfl
@[simp] theorem State.cmdq_modPort (i : Nat) (f : Port → Port) (j : Nat) (s : State) : (s.modPort i f).cmdq j = s.cmdq j := rfl
@[simp] theorem State.sysHeld_modPort (i : Nat) (f : Port → Port)  (s : State) : (s.modPort i f).sysHeld = s.sysHeld := rfl
@[simp] theorem State.tileTemp_modPort (i : Nat) (f : Port → Port) (j : Nat) (s : State) : (s.modPort i f).tileTemp j = s.tileTemp j := rfl
@[simp] theorem State.eng_modPack (i : Nat) (f : Pack → Pack) (j : Nat) (s : State) : (s.modPack i f).eng j = s.eng j := rfl
@[simp] theorem State.tile_modPack (i : Nat) (f : Pack → Pack) (j : Nat) (s : State) : (s.modPack i f).tile j = s.tile j := rfl
@[simp] theorem State.fenced_modPack (i : Nat) (f : Pack → Pack) (j : Nat) (s : State) : (s.modPack i f).fenced j = s.fenced j := rfl
@[simp] theorem State.lane_modPack (i : Nat) (f : Pack → Pack) (j : Nat) (s : State) : (s.modPack i f).lane j = s.lane j := rfl
@[simp] theorem State.htile_modPack (i : Nat) (f : Pack → Pack) (j : Nat) (s : State) : (s.modPack i f).htile j = s.htile j := rfl
@[simp] theorem State.portOpt_modPack (i : Nat) (f : Pack → Pack) (j : Nat) (s : State) : (s.modPack i f).port? j = s.port? j := rfl
@[simp] theorem State.mc_modPack (i : Nat) (f : Pack → Pack) (j : Nat) (s : State) : (s.modPack i f).mc j = s.mc j := rfl
@[simp] theorem State.dc_modPack (i : Nat) (f : Pack → Pack) (j : Nat) (s : State) : (s.modPack i f).dc j = s.dc j := rfl
@[simp] theorem State.qreg_modPack (i : Nat) (f : Pack → Pack) (j : Nat) (s : State) : (s.modPack i f).qreg j = s.qreg j := rfl
@[simp] theorem State.cmdq_modPack (i : Nat) (f : Pack → Pack) (j : Nat) (s : State) : (s.modPack i f).cmdq j = s.cmdq j := rfl
@[simp] theorem State.sysHeld_modPack (i : Nat) (f : Pack → Pack)  (s : State) : (s.modPack i f).sysHeld = s.sysHeld := rfl
@[simp] theorem State.tileTemp_modPack (i : Nat) (f : Pack → Pack) (j : Nat) (s : State) : (s.modPack i f).tileTemp j = s.tileTemp j := rfl
@[simp] theorem State.eng_modMc (i : Nat) (f : MonConv → MonConv) (j : Nat) (s : State) : (s.modMc i f).eng j = s.eng j := rfl
@[simp] theorem State.tile_modMc (i : Nat) (f : MonConv → MonConv) (j : Nat) (s : State) : (s.modMc i f).tile j = s.tile j := rfl
@[simp] theorem State.fenced_modMc (i : Nat) (f : MonConv → MonConv) (j : Nat) (s : State) : (s.modMc i f).fenced j = s.fenced j := rfl
@[simp] theorem State.lane_modMc (i : Nat) (f : MonConv → MonConv) (j : Nat) (s : State) : (s.modMc i f).lane j = s.lane j := rfl
@[simp] theorem State.htile_modMc (i : Nat) (f : MonConv → MonConv) (j : Nat) (s : State) : (s.modMc i f).htile j = s.htile j := rfl
@[simp] theorem State.portOpt_modMc (i : Nat) (f : MonConv → MonConv) (j : Nat) (s : State) : (s.modMc i f).port? j = s.port? j := rfl
@[simp] theorem State.pack_modMc (i : Nat) (f : MonConv → MonConv) (j : Nat) (s : State) : (s.modMc i f).pack j = s.pack j := rfl
@[simp] theorem State.dc_modMc (i : Nat) (f : MonConv → MonConv) (j : Nat) (s : State) : (s.modMc i f).dc j = s.dc j := rfl
@[simp] theorem State.qreg_modMc (i : Nat) (f : MonConv → MonConv) (j : Nat) (s : State) : (s.modMc i f).qreg j = s.qreg j := rfl
@[simp] theorem State.cmdq_modMc (i : Nat) (f : MonConv → MonConv) (j : Nat) (s : State) : (s.modMc i f).cmdq j = s.cmdq j := rfl
@[simp] theorem State.sysHeld_modMc (i : Nat) (f : MonConv → MonConv)  (s : State) : (s.modMc i f).sysHeld = s.sysHeld := rfl
@[simp] theorem State.tileTemp_modMc (i : Nat) (f : MonConv → MonConv) (j : Nat) (s : State) : (s.modMc i f).tileTemp j = s.tileTemp j := rfl
@[simp] theorem State.eng_modDc (i : Nat) (f : DmaChannel → DmaChannel) (j : Nat) (s : State) : (s.modDc i f).eng j = s.eng j := rfl
@[simp] theorem State.tile_modDc (i : Nat) (f : DmaChannel → DmaChannel) (j : Nat) (s : State) : (s.modDc i f).tile j = s.tile j := rfl
@[simp] theorem State.fenced_modDc (i : Nat) (f : DmaChannel → DmaChannel) (j : Nat) (s : State) : (s.modDc i f).fenced j = s.fenced j := rfl
@[simp] theorem State.lane_modDc (i : Nat) (f : DmaChannel → DmaChannel) (j : Nat) (s : State) : (s.modDc i f).lane j = s.lane j := rfl
@[simp] theorem State.htile_modDc (i : Nat) (f : DmaChannel → DmaChannel) (j : Nat) (s : State) : (s.modDc i f).htile j = s.htile j := rfl
@[simp] theorem State.portOpt_modDc (i : Nat) (f : DmaChannel → DmaChannel) (j : Nat) (s : State) : (s.modDc i f).port? j = s.port? j := rfl
@[simp] theorem State.pack_modDc (i : Nat) (f : DmaChannel → DmaChannel) (j : Nat) (s : State) : (s.modDc i f).pack j = s.pack j := rfl
@[simp] theorem State.mc_modDc (i : Nat) (f : DmaChannel → DmaChannel) (j : Nat) (s : State) : (s.modDc i f).mc j = s.mc j := rfl
@[simp] theorem State.qreg_modDc (i : Nat) (f : DmaChannel → DmaChannel) (j : Nat) (s : State) : (s.modDc i f).qreg j = s.qreg j := rfl
@[simp] theorem State.cmdq_modDc (i : Nat) (f : DmaChannel → DmaChannel) (j : Nat) (s : State) : (s.modDc i f).cmdq j = s.cmdq j := rfl
@[simp] theorem State.sysHeld_modDc (i : Nat) (f : DmaChannel → DmaChannel)  (s : State) : (s.modDc i f).sysHeld = s.sysHeld := rfl
@[simp] theorem State.tileTemp_modDc (i : Nat) (f : DmaChannel → DmaChannel) (j : Nat) (s : State) : (s.modDc i f).tileTemp j = s.tileTemp j := rfl
@[simp] theorem State.eng_modQreg (i : Nat) (f : QueueRegs → QueueRegs) (j : Nat) (s : State) : (s.modQreg i f).eng j = s.eng j := rfl
@[simp] theorem State.tile_modQreg (i : Nat) (f : QueueRegs → QueueRegs) (j : Nat) (s : State) : (s.modQreg i f).tile j = s.tile j := rfl
@[simp] theorem State.fenced_modQreg (i : Nat) (f : QueueRegs → QueueRegs) (j : Nat) (s : State) : (s.modQreg i f).fenced j = s.fenced j := rfl
@[simp] theorem State.lane_modQreg (i : Nat) (f : QueueRegs → QueueRegs) (j : Nat) (s : State) : (s.modQreg i f).lane j = s.lane j := rfl
@[simp] theorem State.htile_modQreg (i : Nat) (f : QueueRegs → QueueRegs) (j : Nat) (s : State) : (s.modQreg i f).htile j = s.htile j := rfl
@[simp] theorem State.portOpt_modQreg (i : Nat) (f : QueueRegs → QueueRegs) (j : Nat) (s : State) : (s.modQreg i f).port? j = s.port? j := rfl
@[simp] theorem State.pack_modQreg (i : Nat) (f : QueueRegs → QueueRegs) (j : Nat) (s : State) : (s.modQreg i f).pack j = s.pack j := rfl
@[simp] theorem State.mc_modQreg (i : Nat) (f : QueueRegs → QueueRegs) (j : Nat) (s : State) : (s.modQreg i f).mc j = s.mc j := rfl
@[simp] theorem State.dc_modQreg (i : Nat) (f : QueueRegs → QueueRegs) (j : Nat) (s : State) : (s.modQreg i f).dc j = s.dc j := rfl
@[simp] theorem State.sysHeld_modQreg (i : Nat) (f : QueueRegs → QueueRegs)  (s : State) : (s.modQreg i f).sysHeld = s.sysHeld := rfl
@[simp] theorem State.tileTemp_modQreg (i : Nat) (f : QueueRegs → QueueRegs) (j : Nat) (s : State) : (s.modQreg i f).tileTemp j = s.tileTemp j := rfl
@[simp] theorem State.eng_modProto (f : Protocol → Protocol) (j : Nat) (s : State) : (s.modProto f).eng j = s.eng j := rfl
@[simp] theorem State.tile_modProto (f : Protocol → Protocol) (j : Nat) (s : State) : (s.modProto f).tile j = s.tile j := rfl
@[simp] theorem State.fenced_modProto (f : Protocol → Protocol) (j : Nat) (s : State) : (s.modProto f).fenced j = s.fenced j := rfl
@[simp] theorem State.lane_modProto (f : Protocol → Protocol) (j : Nat) (s : State) : (s.modProto f).lane j = s.lane j := rfl
@[simp] theorem State.htile_modProto (f : Protocol → Protocol) (j : Nat) (s : State) : (s.modProto f).htile j = s.htile j := rfl
@[simp] theorem State.portOpt_modProto (f : Protocol → Protocol) (j : Nat) (s : State) : (s.modProto f).port? j = s.port? j := rfl
@[simp] theorem State.pack_modProto (f : Protocol → Protocol) (j : Nat) (s : State) : (s.modProto f).pack j = s.pack j := rfl
@[simp] theorem State.mc_modProto (f : Protocol → Protocol) (j : Nat) (s : State) : (s.modProto f).mc j = s.mc j := rfl
@[simp] theorem State.dc_modProto (f : Protocol → Protocol) (j : Nat) (s : State) : (s.modProto f).dc j = s.dc j := rfl
@[simp] theorem State.sysHeld_modProto (f : Protocol → Protocol)  (s : State) : (s.modProto f).sysHeld = s.sysHeld := rfl
@[simp] theorem State.tileTemp_modProto (f : Protocol → Protocol) (j : Nat) (s : State) : (s.modProto f).tileTemp j = s.tileTemp j := rfl
@[simp] theorem State.eng_modCtr (f : Counters → Counters) (j : Nat) (s : State) : (s.modCtr f).eng j = s.eng j := rfl
@[simp] theorem State.tile_modCtr (f : Counters → Counters) (j : Nat) (s : State) : (s.modCtr f).tile j = s.tile j := rfl
@[simp] theorem State.fenced_modCtr (f : Counters → Counters) (j : Nat) (s : State) : (s.modCtr f).fenced j = s.fenced j := rfl
@[simp] theorem State.lane_modCtr (f : Counters → Counters) (j : Nat) (s : State) : (s.modCtr f).lane j = s.lane j := rfl
@[simp] theorem State.htile_modCtr (f : Counters → Counters) (j : Nat) (s : State) : (s.modCtr f).htile j = s.htile j := rfl
@[simp] theorem State.portOpt_modCtr (f : Counters → Counters) (j : Nat) (s : State) : (s.modCtr f).port? j = s.port? j := rfl
@[simp] theorem State.pack_modCtr (f : Counters → Counters) (j : Nat) (s : State) : (s.modCtr f).pack j = s.pack j := rfl
@[simp] theorem State.mc_modCtr (f : Counters → Counters) (j : Nat) (s : State) : (s.modCtr f).mc j = s.mc j := rfl
@[simp] theorem State.dc_modCtr (f : Counters → Counters) (j : Nat) (s : State) : (s.modCtr f).dc j = s.dc j := rfl
@[simp] theorem State.qreg_modCtr (f : Counters → Counters) (j : Nat) (s : State) : (s.modCtr f).qreg j = s.qreg j := rfl
@[simp] theorem State.cmdq_modCtr (f : Counters → Counters) (j : Nat) (s : State) : (s.modCtr f).cmdq j = s.cmdq j := rfl
@[simp] theorem State.sysHeld_modCtr (f : Counters → Counters)  (s : State) : (s.modCtr f).sysHeld = s.sysHeld := rfl
@[simp] theorem State.tileTemp_modCtr (f : Counters → Counters) (j : Nat) (s : State) : (s.modCtr f).tileTemp j = s.tileTemp j := rfl
@[simp] theorem State.eng_modKennel (f : Kennel → Kennel) (j : Nat) (s : State) : (s.modKennel f).eng j = s.eng j := rfl
@[simp] theorem State.tile_modKennel (f : Kennel → Kennel) (j : Nat) (s : State) : (s.modKennel f).tile j = s.tile j := rfl
@[simp] theorem State.fenced_modKennel (f : Kennel → Kennel) (j : Nat) (s : State) : (s.modKennel f).fenced j = s.fenced j := rfl
@[simp] theorem State.lane_modKennel (f : Kennel → Kennel) (j : Nat) (s : State) : (s.modKennel f).lane j = s.lane j := rfl
@[simp] theorem State.htile_modKennel (f : Kennel → Kennel) (j : Nat) (s : State) : (s.modKennel f).htile j = s.htile j := rfl
@[simp] theorem State.portOpt_modKennel (f : Kennel → Kennel) (j : Nat) (s : State) : (s.modKennel f).port? j = s.port? j := rfl
@[simp] theorem State.pack_modKennel (f : Kennel → Kennel) (j : Nat) (s : State) : (s.modKennel f).pack j = s.pack j := rfl
@[simp] theorem State.mc_modKennel (f : Kennel → Kennel) (j : Nat) (s : State) : (s.modKennel f).mc j = s.mc j := rfl
@[simp] theorem State.dc_modKennel (f : Kennel → Kennel) (j : Nat) (s : State) : (s.modKennel f).dc j = s.dc j := rfl
@[simp] theorem State.qreg_modKennel (f : Kennel → Kennel) (j : Nat) (s : State) : (s.modKennel f).qreg j = s.qreg j := rfl
@[simp] theorem State.cmdq_modKennel (f : Kennel → Kennel) (j : Nat) (s : State) : (s.modKennel f).cmdq j = s.cmdq j := rfl
@[simp] theorem State.sysHeld_modKennel (f : Kennel → Kennel)  (s : State) : (s.modKennel f).sysHeld = s.sysHeld := rfl
@[simp] theorem State.tileTemp_modKennel (f : Kennel → Kennel) (j : Nat) (s : State) : (s.modKennel f).tileTemp j = s.tileTemp j := rfl
@[simp] theorem State.eng_modSettings (f : Settings → Settings) (j : Nat) (s : State) : (s.modSettings f).eng j = s.eng j := rfl
@[simp] theorem State.tile_modSettings (f : Settings → Settings) (j : Nat) (s : State) : (s.modSettings f).tile j = s.tile j := rfl
@[simp] theorem State.fenced_modSettings (f : Settings → Settings) (j : Nat) (s : State) : (s.modSettings f).fenced j = s.fenced j := rfl
@[simp] theorem State.lane_modSettings (f : Settings → Settings) (j : Nat) (s : State) : (s.modSettings f).lane j = s.lane j := rfl
@[simp] theorem State.htile_modSettings (f : Settings → Settings) (j : Nat) (s : State) : (s.modSettings f).htile j = s.htile j := rfl
@[simp] theorem State.portOpt_modSettings (f : Settings → Settings) (j : Nat) (s : State) : (s.modSettings f).port? j = s.port? j := rfl
@[simp] theorem State.pack_modSettings (f : Settings → Settings) (j : Nat) (s : State) : (s.modSettings f).pack j = s.pack j := rfl
@[simp] theorem State.mc_modSettings (f : Settings → Settings) (j : Nat) (s : State) : (s.modSettings f).mc j = s.mc j := rfl
@[simp] theorem State.dc_modSettings (f : Settings → Settings) (j : Nat) (s : State) : (s.modSettings f).dc j = s.dc j := rfl
@[simp] theorem State.qreg_modSettings (f : Settings → Settings) (j : Nat) (s : State) : (s.modSettings f).qreg j = s.qreg j := rfl
@[simp] theorem State.cmdq_modSettings (f : Settings → Settings) (j : Nat) (s : State) : (s.modSettings f).cmdq j = s.cmdq j := rfl
@[simp] theorem State.sysHeld_modSettings (f : Settings → Settings)  (s : State) : (s.modSettings f).sysHeld = s.sysHeld := rfl
@[simp] theorem State.tileTemp_modSettings (f : Settings → Settings) (j : Nat) (s : State) : (s.modSettings f).tileTemp j = s.tileTemp j := rfl
@[simp] theorem State.eng_modLife (f : LifeRecord → LifeRecord) (j : Nat) (s : State) : (s.modLife f).eng j = s.eng j := rfl
@[simp] theorem State.tile_modLife (f : LifeRecord → LifeRecord) (j : Nat) (s : State) : (s.modLife f).tile j = s.tile j := rfl
@[simp] theorem State.fenced_modLife (f : LifeRecord → LifeRecord) (j : Nat) (s : State) : (s.modLife f).fenced j = s.fenced j := rfl
@[simp] theorem State.lane_modLife (f : LifeRecord → LifeRecord) (j : Nat) (s : State) : (s.modLife f).lane j = s.lane j := rfl
@[simp] theorem State.htile_modLife (f : LifeRecord → LifeRecord) (j : Nat) (s : State) : (s.modLife f).htile j = s.htile j := rfl
@[simp] theorem State.portOpt_modLife (f : LifeRecord → LifeRecord) (j : Nat) (s : State) : (s.modLife f).port? j = s.port? j := rfl
@[simp] theorem State.pack_modLife (f : LifeRecord → LifeRecord) (j : Nat) (s : State) : (s.modLife f).pack j = s.pack j := rfl
@[simp] theorem State.mc_modLife (f : LifeRecord → LifeRecord) (j : Nat) (s : State) : (s.modLife f).mc j = s.mc j := rfl
@[simp] theorem State.dc_modLife (f : LifeRecord → LifeRecord) (j : Nat) (s : State) : (s.modLife f).dc j = s.dc j := rfl
@[simp] theorem State.qreg_modLife (f : LifeRecord → LifeRecord) (j : Nat) (s : State) : (s.modLife f).qreg j = s.qreg j := rfl
@[simp] theorem State.cmdq_modLife (f : LifeRecord → LifeRecord) (j : Nat) (s : State) : (s.modLife f).cmdq j = s.cmdq j := rfl
@[simp] theorem State.sysHeld_modLife (f : LifeRecord → LifeRecord)  (s : State) : (s.modLife f).sysHeld = s.sysHeld := rfl
@[simp] theorem State.tileTemp_modLife (f : LifeRecord → LifeRecord) (j : Nat) (s : State) : (s.modLife f).tileTemp j = s.tileTemp j := rfl
@[simp] theorem State.eng_modRec (f : Recovery → Recovery) (j : Nat) (s : State) : (s.modRec f).eng j = s.eng j := rfl
@[simp] theorem State.tile_modRec (f : Recovery → Recovery) (j : Nat) (s : State) : (s.modRec f).tile j = s.tile j := rfl
@[simp] theorem State.fenced_modRec (f : Recovery → Recovery) (j : Nat) (s : State) : (s.modRec f).fenced j = s.fenced j := rfl
@[simp] theorem State.lane_modRec (f : Recovery → Recovery) (j : Nat) (s : State) : (s.modRec f).lane j = s.lane j := rfl
@[simp] theorem State.htile_modRec (f : Recovery → Recovery) (j : Nat) (s : State) : (s.modRec f).htile j = s.htile j := rfl
@[simp] theorem State.portOpt_modRec (f : Recovery → Recovery) (j : Nat) (s : State) : (s.modRec f).port? j = s.port? j := rfl
@[simp] theorem State.pack_modRec (f : Recovery → Recovery) (j : Nat) (s : State) : (s.modRec f).pack j = s.pack j := rfl
@[simp] theorem State.mc_modRec (f : Recovery → Recovery) (j : Nat) (s : State) : (s.modRec f).mc j = s.mc j := rfl
@[simp] theorem State.dc_modRec (f : Recovery → Recovery) (j : Nat) (s : State) : (s.modRec f).dc j = s.dc j := rfl
@[simp] theorem State.qreg_modRec (f : Recovery → Recovery) (j : Nat) (s : State) : (s.modRec f).qreg j = s.qreg j := rfl
@[simp] theorem State.cmdq_modRec (f : Recovery → Recovery) (j : Nat) (s : State) : (s.modRec f).cmdq j = s.cmdq j := rfl
@[simp] theorem State.sysHeld_modRec (f : Recovery → Recovery)  (s : State) : (s.modRec f).sysHeld = s.sysHeld := rfl
@[simp] theorem State.tileTemp_modRec (f : Recovery → Recovery) (j : Nat) (s : State) : (s.modRec f).tileTemp j = s.tileTemp j := rfl
@[simp] theorem State.eng_modPower (f : Power → Power) (j : Nat) (s : State) : (s.modPower f).eng j = s.eng j := rfl
@[simp] theorem State.tile_modPower (f : Power → Power) (j : Nat) (s : State) : (s.modPower f).tile j = s.tile j := rfl
@[simp] theorem State.fenced_modPower (f : Power → Power) (j : Nat) (s : State) : (s.modPower f).fenced j = s.fenced j := rfl
@[simp] theorem State.lane_modPower (f : Power → Power) (j : Nat) (s : State) : (s.modPower f).lane j = s.lane j := rfl
@[simp] theorem State.htile_modPower (f : Power → Power) (j : Nat) (s : State) : (s.modPower f).htile j = s.htile j := rfl
@[simp] theorem State.portOpt_modPower (f : Power → Power) (j : Nat) (s : State) : (s.modPower f).port? j = s.port? j := rfl
@[simp] theorem State.pack_modPower (f : Power → Power) (j : Nat) (s : State) : (s.modPower f).pack j = s.pack j := rfl
@[simp] theorem State.mc_modPower (f : Power → Power) (j : Nat) (s : State) : (s.modPower f).mc j = s.mc j := rfl
@[simp] theorem State.dc_modPower (f : Power → Power) (j : Nat) (s : State) : (s.modPower f).dc j = s.dc j := rfl
@[simp] theorem State.qreg_modPower (f : Power → Power) (j : Nat) (s : State) : (s.modPower f).qreg j = s.qreg j := rfl
@[simp] theorem State.cmdq_modPower (f : Power → Power) (j : Nat) (s : State) : (s.modPower f).cmdq j = s.cmdq j := rfl
@[simp] theorem State.eng_modDev (f : DeviceBlock → DeviceBlock) (j : Nat) (s : State) : (s.modDev f).eng j = s.eng j := rfl
@[simp] theorem State.tile_modDev (f : DeviceBlock → DeviceBlock) (j : Nat) (s : State) : (s.modDev f).tile j = s.tile j := rfl
@[simp] theorem State.fenced_modDev (f : DeviceBlock → DeviceBlock) (j : Nat) (s : State) : (s.modDev f).fenced j = s.fenced j := rfl
@[simp] theorem State.lane_modDev (f : DeviceBlock → DeviceBlock) (j : Nat) (s : State) : (s.modDev f).lane j = s.lane j := rfl
@[simp] theorem State.htile_modDev (f : DeviceBlock → DeviceBlock) (j : Nat) (s : State) : (s.modDev f).htile j = s.htile j := rfl
@[simp] theorem State.portOpt_modDev (f : DeviceBlock → DeviceBlock) (j : Nat) (s : State) : (s.modDev f).port? j = s.port? j := rfl
@[simp] theorem State.pack_modDev (f : DeviceBlock → DeviceBlock) (j : Nat) (s : State) : (s.modDev f).pack j = s.pack j := rfl
@[simp] theorem State.mc_modDev (f : DeviceBlock → DeviceBlock) (j : Nat) (s : State) : (s.modDev f).mc j = s.mc j := rfl
@[simp] theorem State.dc_modDev (f : DeviceBlock → DeviceBlock) (j : Nat) (s : State) : (s.modDev f).dc j = s.dc j := rfl
@[simp] theorem State.qreg_modDev (f : DeviceBlock → DeviceBlock) (j : Nat) (s : State) : (s.modDev f).qreg j = s.qreg j := rfl
@[simp] theorem State.cmdq_modDev (f : DeviceBlock → DeviceBlock) (j : Nat) (s : State) : (s.modDev f).cmdq j = s.cmdq j := rfl
@[simp] theorem State.sysHeld_modDev (f : DeviceBlock → DeviceBlock)  (s : State) : (s.modDev f).sysHeld = s.sysHeld := rfl
@[simp] theorem State.tileTemp_modDev (f : DeviceBlock → DeviceBlock) (j : Nat) (s : State) : (s.modDev f).tileTemp j = s.tileTemp j := rfl
@[simp] theorem State.eng_modTime (f : TimeCore → TimeCore) (j : Nat) (s : State) : (s.modTime f).eng j = s.eng j := rfl
@[simp] theorem State.tile_modTime (f : TimeCore → TimeCore) (j : Nat) (s : State) : (s.modTime f).tile j = s.tile j := rfl
@[simp] theorem State.fenced_modTime (f : TimeCore → TimeCore) (j : Nat) (s : State) : (s.modTime f).fenced j = s.fenced j := rfl
@[simp] theorem State.lane_modTime (f : TimeCore → TimeCore) (j : Nat) (s : State) : (s.modTime f).lane j = s.lane j := rfl
@[simp] theorem State.htile_modTime (f : TimeCore → TimeCore) (j : Nat) (s : State) : (s.modTime f).htile j = s.htile j := rfl
@[simp] theorem State.portOpt_modTime (f : TimeCore → TimeCore) (j : Nat) (s : State) : (s.modTime f).port? j = s.port? j := rfl
@[simp] theorem State.pack_modTime (f : TimeCore → TimeCore) (j : Nat) (s : State) : (s.modTime f).pack j = s.pack j := rfl
@[simp] theorem State.mc_modTime (f : TimeCore → TimeCore) (j : Nat) (s : State) : (s.modTime f).mc j = s.mc j := rfl
@[simp] theorem State.dc_modTime (f : TimeCore → TimeCore) (j : Nat) (s : State) : (s.modTime f).dc j = s.dc j := rfl
@[simp] theorem State.qreg_modTime (f : TimeCore → TimeCore) (j : Nat) (s : State) : (s.modTime f).qreg j = s.qreg j := rfl
@[simp] theorem State.cmdq_modTime (f : TimeCore → TimeCore) (j : Nat) (s : State) : (s.modTime f).cmdq j = s.cmdq j := rfl
@[simp] theorem State.sysHeld_modTime (f : TimeCore → TimeCore)  (s : State) : (s.modTime f).sysHeld = s.sysHeld := rfl
@[simp] theorem State.tileTemp_modTime (f : TimeCore → TimeCore) (j : Nat) (s : State) : (s.modTime f).tileTemp j = s.tileTemp j := rfl

end Sys2Proof.Machine
end

