-- ==== Sys2Proof/Laws/Ops.lean ====
section
/-! SUPPORT. What the shared operations leave unchanged: one lemma per field the operation does not touch. -/
namespace Sys2Proof.Machine

theorem State.foldl_same {α β : Type} (g : State → β) (f : State → α → State) (h : ∀ s a, g (f s a) = g s) :
    ∀ (l : List α) (s : State), g (l.foldl f s) = g s
  | [], _ => rfl
  | a :: r, s => (State.foldl_same g f h r (f s a)).trans (h s a)

/-! ### happen -/

@[simp] theorem State.happen_tn (slot n : Nat) (s : State) : (s.happen slot n).tn = s.tn := by
  unfold State.happen; split <;> rfl
@[simp] theorem State.happen_tickOffset (slot n : Nat) (s : State) : (s.happen slot n).tickOffset = s.tickOffset := by
  unfold State.happen; split <;> rfl
@[simp] theorem State.happen_ticks (slot n : Nat) (s : State) : (s.happen slot n).ticks = s.ticks := by
  unfold State.happen; split <;> rfl
@[simp] theorem State.happen_tnProvisional (slot n : Nat) (s : State) : (s.happen slot n).tnProvisional = s.tnProvisional := by
  unfold State.happen; split <;> rfl
@[simp] theorem State.happen_realign (slot n : Nat) (s : State) : (s.happen slot n).realign = s.realign := by
  unfold State.happen; split <;> rfl
@[simp] theorem State.happen_trafficLast (slot n : Nat) (s : State) : (s.happen slot n).trafficLast = s.trafficLast := by
  unfold State.happen; split <;> rfl
@[simp] theorem State.happen_engines (slot n : Nat) (s : State) : (s.happen slot n).engines = s.engines := by
  unfold State.happen; split <;> rfl
@[simp] theorem State.happen_tiles (slot n : Nat) (s : State) : (s.happen slot n).tiles = s.tiles := by
  unfold State.happen; split <;> rfl
@[simp] theorem State.happen_htiles (slot n : Nat) (s : State) : (s.happen slot n).htiles = s.htiles := by
  unfold State.happen; split <;> rfl
@[simp] theorem State.happen_lanes (slot n : Nat) (s : State) : (s.happen slot n).lanes = s.lanes := by
  unfold State.happen; split <;> rfl
@[simp] theorem State.happen_ports (slot n : Nat) (s : State) : (s.happen slot n).ports = s.ports := by
  unfold State.happen; split <;> rfl
@[simp] theorem State.happen_packs (slot n : Nat) (s : State) : (s.happen slot n).packs = s.packs := by
  unfold State.happen; split <;> rfl
@[simp] theorem State.happen_cal (slot n : Nat) (s : State) : (s.happen slot n).cal = s.cal := by
  unfold State.happen; split <;> rfl
@[simp] theorem State.happen_map (slot n : Nat) (s : State) : (s.happen slot n).map = s.map := by
  unfold State.happen; split <;> rfl
@[simp] theorem State.happen_mapCentre (slot n : Nat) (s : State) : (s.happen slot n).mapCentre = s.mapCentre := by
  unfold State.happen; split <;> rfl
@[simp] theorem State.happen_mons (slot n : Nat) (s : State) : (s.happen slot n).mons = s.mons := by
  unfold State.happen; split <;> rfl
@[simp] theorem State.happen_tlmq (slot n : Nat) (s : State) : (s.happen slot n).tlmq = s.tlmq := by
  unfold State.happen; split <;> rfl
@[simp] theorem State.happen_chains (slot n : Nat) (s : State) : (s.happen slot n).chains = s.chains := by
  unfold State.happen; split <;> rfl
@[simp] theorem State.happen_dma (slot n : Nat) (s : State) : (s.happen slot n).dma = s.dma := by
  unfold State.happen; split <;> rfl
@[simp] theorem State.happen_proto (slot n : Nat) (s : State) : (s.happen slot n).proto = s.proto := by
  unfold State.happen; split <;> rfl
@[simp] theorem State.happen_dev (slot n : Nat) (s : State) : (s.happen slot n).dev = s.dev := by
  unfold State.happen; split <;> rfl
@[simp] theorem State.happen_power (slot n : Nat) (s : State) : (s.happen slot n).power = s.power := by
  unfold State.happen; split <;> rfl
@[simp] theorem State.happen_recovery (slot n : Nat) (s : State) : (s.happen slot n).recovery = s.recovery := by
  unfold State.happen; split <;> rfl
@[simp] theorem State.happen_kennel (slot n : Nat) (s : State) : (s.happen slot n).kennel = s.kennel := by
  unfold State.happen; split <;> rfl
@[simp] theorem State.happen_time (slot n : Nat) (s : State) : (s.happen slot n).time = s.time := by
  unfold State.happen; split <;> rfl
@[simp] theorem State.happen_sec (slot n : Nat) (s : State) : (s.happen slot n).sec = s.sec := by
  unfold State.happen; split <;> rfl
@[simp] theorem State.happen_clockIdentity (slot n : Nat) (s : State) : (s.happen slot n).clockIdentity = s.clockIdentity := by
  unfold State.happen; split <;> rfl
@[simp] theorem State.happen_parityLast (slot n : Nat) (s : State) : (s.happen slot n).parityLast = s.parityLast := by
  unfold State.happen; split <;> rfl
@[simp] theorem State.happen_readWord (slot n : Nat) (s : State) : (s.happen slot n).readWord = s.readWord := by
  unfold State.happen; split <;> rfl
@[simp] theorem State.happen_spiReply (slot n : Nat) (s : State) : (s.happen slot n).spiReply = s.spiReply := by
  unfold State.happen; split <;> rfl
@[simp] theorem State.happen_freeCtr (slot n : Nat) (s : State) : (s.happen slot n).freeCtr = s.freeCtr := by
  unfold State.happen; split <;> rfl
@[simp] theorem State.happen_pending (slot n : Nat) (s : State) : (s.happen slot n).pending = s.pending := by
  unfold State.happen; split <;> rfl
@[simp] theorem State.eng_happen (slot n : Nat) (j : Nat) (s : State) : (s.happen slot n).eng j = s.eng j := by
  simp [State.eng]
@[simp] theorem State.tile_happen (slot n : Nat) (j : Nat) (s : State) : (s.happen slot n).tile j = s.tile j := by
  simp [State.tile]
@[simp] theorem State.fenced_happen (slot n : Nat) (j : Nat) (s : State) : (s.happen slot n).fenced j = s.fenced j := by
  simp [State.fenced]
@[simp] theorem State.lane_happen (slot n : Nat) (j : Nat) (s : State) : (s.happen slot n).lane j = s.lane j := by
  simp [State.lane]
@[simp] theorem State.htile_happen (slot n : Nat) (j : Nat) (s : State) : (s.happen slot n).htile j = s.htile j := by
  simp [State.htile]
@[simp] theorem State.portOpt_happen (slot n : Nat) (j : Nat) (s : State) : (s.happen slot n).port? j = s.port? j := by
  simp [State.port?]
@[simp] theorem State.pack_happen (slot n : Nat) (j : Nat) (s : State) : (s.happen slot n).pack j = s.pack j := by
  simp [State.pack]
@[simp] theorem State.mc_happen (slot n : Nat) (j : Nat) (s : State) : (s.happen slot n).mc j = s.mc j := by
  simp [State.mc]
@[simp] theorem State.dc_happen (slot n : Nat) (j : Nat) (s : State) : (s.happen slot n).dc j = s.dc j := by
  simp [State.dc]
@[simp] theorem State.qreg_happen (slot n : Nat) (j : Nat) (s : State) : (s.happen slot n).qreg j = s.qreg j := by
  simp [State.qreg]
@[simp] theorem State.cmdq_happen (slot n : Nat) (j : Nat) (s : State) : (s.happen slot n).cmdq j = s.cmdq j := by
  simp [State.cmdq]
@[simp] theorem State.sysHeld_happen (slot n : Nat)  (s : State) : (s.happen slot n).sysHeld = s.sysHeld := by
  simp [State.sysHeld]
@[simp] theorem State.tileTemp_happen (slot n : Nat) (j : Nat) (s : State) : (s.happen slot n).tileTemp j = s.tileTemp j := by
  simp [State.tileTemp]

/-! ### count -/

@[simp] theorem State.count_tn (c : Ctr) (k : Kind) (i n : Nat) (s : State) : (s.count c k i n).tn = s.tn := by
  simp [State.count]
@[simp] theorem State.count_tickOffset (c : Ctr) (k : Kind) (i n : Nat) (s : State) : (s.count c k i n).tickOffset = s.tickOffset := by
  simp [State.count]
@[simp] theorem State.count_ticks (c : Ctr) (k : Kind) (i n : Nat) (s : State) : (s.count c k i n).ticks = s.ticks := by
  simp [State.count]
@[simp] theorem State.count_tnProvisional (c : Ctr) (k : Kind) (i n : Nat) (s : State) : (s.count c k i n).tnProvisional = s.tnProvisional := by
  simp [State.count]
@[simp] theorem State.count_realign (c : Ctr) (k : Kind) (i n : Nat) (s : State) : (s.count c k i n).realign = s.realign := by
  simp [State.count]
@[simp] theorem State.count_trafficLast (c : Ctr) (k : Kind) (i n : Nat) (s : State) : (s.count c k i n).trafficLast = s.trafficLast := by
  simp [State.count]
@[simp] theorem State.count_engines (c : Ctr) (k : Kind) (i n : Nat) (s : State) : (s.count c k i n).engines = s.engines := by
  simp [State.count]
@[simp] theorem State.count_tiles (c : Ctr) (k : Kind) (i n : Nat) (s : State) : (s.count c k i n).tiles = s.tiles := by
  simp [State.count]
@[simp] theorem State.count_htiles (c : Ctr) (k : Kind) (i n : Nat) (s : State) : (s.count c k i n).htiles = s.htiles := by
  simp [State.count]
@[simp] theorem State.count_lanes (c : Ctr) (k : Kind) (i n : Nat) (s : State) : (s.count c k i n).lanes = s.lanes := by
  simp [State.count]
@[simp] theorem State.count_ports (c : Ctr) (k : Kind) (i n : Nat) (s : State) : (s.count c k i n).ports = s.ports := by
  simp [State.count]
@[simp] theorem State.count_packs (c : Ctr) (k : Kind) (i n : Nat) (s : State) : (s.count c k i n).packs = s.packs := by
  simp [State.count]
@[simp] theorem State.count_cal (c : Ctr) (k : Kind) (i n : Nat) (s : State) : (s.count c k i n).cal = s.cal := by
  simp [State.count]
@[simp] theorem State.count_map (c : Ctr) (k : Kind) (i n : Nat) (s : State) : (s.count c k i n).map = s.map := by
  simp [State.count]
@[simp] theorem State.count_mapCentre (c : Ctr) (k : Kind) (i n : Nat) (s : State) : (s.count c k i n).mapCentre = s.mapCentre := by
  simp [State.count]
@[simp] theorem State.count_mons (c : Ctr) (k : Kind) (i n : Nat) (s : State) : (s.count c k i n).mons = s.mons := by
  simp [State.count]
@[simp] theorem State.count_tlmq (c : Ctr) (k : Kind) (i n : Nat) (s : State) : (s.count c k i n).tlmq = s.tlmq := by
  simp [State.count]
@[simp] theorem State.count_chains (c : Ctr) (k : Kind) (i n : Nat) (s : State) : (s.count c k i n).chains = s.chains := by
  simp [State.count]
@[simp] theorem State.count_dma (c : Ctr) (k : Kind) (i n : Nat) (s : State) : (s.count c k i n).dma = s.dma := by
  simp [State.count]
@[simp] theorem State.count_proto (c : Ctr) (k : Kind) (i n : Nat) (s : State) : (s.count c k i n).proto = s.proto := by
  simp [State.count]
@[simp] theorem State.count_dev (c : Ctr) (k : Kind) (i n : Nat) (s : State) : (s.count c k i n).dev = s.dev := by
  simp [State.count]
@[simp] theorem State.count_power (c : Ctr) (k : Kind) (i n : Nat) (s : State) : (s.count c k i n).power = s.power := by
  simp [State.count]
@[simp] theorem State.count_recovery (c : Ctr) (k : Kind) (i n : Nat) (s : State) : (s.count c k i n).recovery = s.recovery := by
  simp [State.count]
@[simp] theorem State.count_kennel (c : Ctr) (k : Kind) (i n : Nat) (s : State) : (s.count c k i n).kennel = s.kennel := by
  simp [State.count]
@[simp] theorem State.count_time (c : Ctr) (k : Kind) (i n : Nat) (s : State) : (s.count c k i n).time = s.time := by
  simp [State.count]
@[simp] theorem State.count_sec (c : Ctr) (k : Kind) (i n : Nat) (s : State) : (s.count c k i n).sec = s.sec := by
  simp [State.count]
@[simp] theorem State.count_clockIdentity (c : Ctr) (k : Kind) (i n : Nat) (s : State) : (s.count c k i n).clockIdentity = s.clockIdentity := by
  simp [State.count]
@[simp] theorem State.count_parityLast (c : Ctr) (k : Kind) (i n : Nat) (s : State) : (s.count c k i n).parityLast = s.parityLast := by
  simp [State.count]
@[simp] theorem State.count_readWord (c : Ctr) (k : Kind) (i n : Nat) (s : State) : (s.count c k i n).readWord = s.readWord := by
  simp [State.count]
@[simp] theorem State.count_spiReply (c : Ctr) (k : Kind) (i n : Nat) (s : State) : (s.count c k i n).spiReply = s.spiReply := by
  simp [State.count]
@[simp] theorem State.count_freeCtr (c : Ctr) (k : Kind) (i n : Nat) (s : State) : (s.count c k i n).freeCtr = s.freeCtr := by
  simp [State.count]
@[simp] theorem State.count_pending (c : Ctr) (k : Kind) (i n : Nat) (s : State) : (s.count c k i n).pending = s.pending := by
  simp [State.count]
@[simp] theorem State.eng_count (c : Ctr) (k : Kind) (i n : Nat) (j : Nat) (s : State) : (s.count c k i n).eng j = s.eng j := by
  simp [State.eng]
@[simp] theorem State.tile_count (c : Ctr) (k : Kind) (i n : Nat) (j : Nat) (s : State) : (s.count c k i n).tile j = s.tile j := by
  simp [State.tile]
@[simp] theorem State.fenced_count (c : Ctr) (k : Kind) (i n : Nat) (j : Nat) (s : State) : (s.count c k i n).fenced j = s.fenced j := by
  simp [State.fenced]
@[simp] theorem State.lane_count (c : Ctr) (k : Kind) (i n : Nat) (j : Nat) (s : State) : (s.count c k i n).lane j = s.lane j := by
  simp [State.lane]
@[simp] theorem State.htile_count (c : Ctr) (k : Kind) (i n : Nat) (j : Nat) (s : State) : (s.count c k i n).htile j = s.htile j := by
  simp [State.htile]
@[simp] theorem State.portOpt_count (c : Ctr) (k : Kind) (i n : Nat) (j : Nat) (s : State) : (s.count c k i n).port? j = s.port? j := by
  simp [State.port?]
@[simp] theorem State.pack_count (c : Ctr) (k : Kind) (i n : Nat) (j : Nat) (s : State) : (s.count c k i n).pack j = s.pack j := by
  simp [State.pack]
@[simp] theorem State.mc_count (c : Ctr) (k : Kind) (i n : Nat) (j : Nat) (s : State) : (s.count c k i n).mc j = s.mc j := by
  simp [State.mc]
@[simp] theorem State.dc_count (c : Ctr) (k : Kind) (i n : Nat) (j : Nat) (s : State) : (s.count c k i n).dc j = s.dc j := by
  simp [State.dc]
@[simp] theorem State.qreg_count (c : Ctr) (k : Kind) (i n : Nat) (j : Nat) (s : State) : (s.count c k i n).qreg j = s.qreg j := by
  simp [State.qreg]
@[simp] theorem State.cmdq_count (c : Ctr) (k : Kind) (i n : Nat) (j : Nat) (s : State) : (s.count c k i n).cmdq j = s.cmdq j := by
  simp [State.cmdq]
@[simp] theorem State.sysHeld_count (c : Ctr) (k : Kind) (i n : Nat)  (s : State) : (s.count c k i n).sysHeld = s.sysHeld := by
  simp [State.sysHeld]
@[simp] theorem State.tileTemp_count (c : Ctr) (k : Kind) (i n : Nat) (j : Nat) (s : State) : (s.count c k i n).tileTemp j = s.tileTemp j := by
  simp [State.tileTemp]

/-! ### countSub -/

@[simp] theorem State.countSub_tn (c : Ctr) (k : Kind) (i b n : Nat) (s : State) : (s.countSub c k i b n).tn = s.tn := by
  simp [State.countSub]
@[simp] theorem State.countSub_tickOffset (c : Ctr) (k : Kind) (i b n : Nat) (s : State) : (s.countSub c k i b n).tickOffset = s.tickOffset := by
  simp [State.countSub]
@[simp] theorem State.countSub_ticks (c : Ctr) (k : Kind) (i b n : Nat) (s : State) : (s.countSub c k i b n).ticks = s.ticks := by
  simp [State.countSub]
@[simp] theorem State.countSub_tnProvisional (c : Ctr) (k : Kind) (i b n : Nat) (s : State) : (s.countSub c k i b n).tnProvisional = s.tnProvisional := by
  simp [State.countSub]
@[simp] theorem State.countSub_realign (c : Ctr) (k : Kind) (i b n : Nat) (s : State) : (s.countSub c k i b n).realign = s.realign := by
  simp [State.countSub]
@[simp] theorem State.countSub_trafficLast (c : Ctr) (k : Kind) (i b n : Nat) (s : State) : (s.countSub c k i b n).trafficLast = s.trafficLast := by
  simp [State.countSub]
@[simp] theorem State.countSub_engines (c : Ctr) (k : Kind) (i b n : Nat) (s : State) : (s.countSub c k i b n).engines = s.engines := by
  simp [State.countSub]
@[simp] theorem State.countSub_tiles (c : Ctr) (k : Kind) (i b n : Nat) (s : State) : (s.countSub c k i b n).tiles = s.tiles := by
  simp [State.countSub]
@[simp] theorem State.countSub_htiles (c : Ctr) (k : Kind) (i b n : Nat) (s : State) : (s.countSub c k i b n).htiles = s.htiles := by
  simp [State.countSub]
@[simp] theorem State.countSub_lanes (c : Ctr) (k : Kind) (i b n : Nat) (s : State) : (s.countSub c k i b n).lanes = s.lanes := by
  simp [State.countSub]
@[simp] theorem State.countSub_ports (c : Ctr) (k : Kind) (i b n : Nat) (s : State) : (s.countSub c k i b n).ports = s.ports := by
  simp [State.countSub]
@[simp] theorem State.countSub_packs (c : Ctr) (k : Kind) (i b n : Nat) (s : State) : (s.countSub c k i b n).packs = s.packs := by
  simp [State.countSub]
@[simp] theorem State.countSub_cal (c : Ctr) (k : Kind) (i b n : Nat) (s : State) : (s.countSub c k i b n).cal = s.cal := by
  simp [State.countSub]
@[simp] theorem State.countSub_map (c : Ctr) (k : Kind) (i b n : Nat) (s : State) : (s.countSub c k i b n).map = s.map := by
  simp [State.countSub]
@[simp] theorem State.countSub_mapCentre (c : Ctr) (k : Kind) (i b n : Nat) (s : State) : (s.countSub c k i b n).mapCentre = s.mapCentre := by
  simp [State.countSub]
@[simp] theorem State.countSub_mons (c : Ctr) (k : Kind) (i b n : Nat) (s : State) : (s.countSub c k i b n).mons = s.mons := by
  simp [State.countSub]
@[simp] theorem State.countSub_tlmq (c : Ctr) (k : Kind) (i b n : Nat) (s : State) : (s.countSub c k i b n).tlmq = s.tlmq := by
  simp [State.countSub]
@[simp] theorem State.countSub_chains (c : Ctr) (k : Kind) (i b n : Nat) (s : State) : (s.countSub c k i b n).chains = s.chains := by
  simp [State.countSub]
@[simp] theorem State.countSub_dma (c : Ctr) (k : Kind) (i b n : Nat) (s : State) : (s.countSub c k i b n).dma = s.dma := by
  simp [State.countSub]
@[simp] theorem State.countSub_proto (c : Ctr) (k : Kind) (i b n : Nat) (s : State) : (s.countSub c k i b n).proto = s.proto := by
  simp [State.countSub]
@[simp] theorem State.countSub_dev (c : Ctr) (k : Kind) (i b n : Nat) (s : State) : (s.countSub c k i b n).dev = s.dev := by
  simp [State.countSub]
@[simp] theorem State.countSub_power (c : Ctr) (k : Kind) (i b n : Nat) (s : State) : (s.countSub c k i b n).power = s.power := by
  simp [State.countSub]
@[simp] theorem State.countSub_recovery (c : Ctr) (k : Kind) (i b n : Nat) (s : State) : (s.countSub c k i b n).recovery = s.recovery := by
  simp [State.countSub]
@[simp] theorem State.countSub_kennel (c : Ctr) (k : Kind) (i b n : Nat) (s : State) : (s.countSub c k i b n).kennel = s.kennel := by
  simp [State.countSub]
@[simp] theorem State.countSub_time (c : Ctr) (k : Kind) (i b n : Nat) (s : State) : (s.countSub c k i b n).time = s.time := by
  simp [State.countSub]
@[simp] theorem State.countSub_sec (c : Ctr) (k : Kind) (i b n : Nat) (s : State) : (s.countSub c k i b n).sec = s.sec := by
  simp [State.countSub]
@[simp] theorem State.countSub_clockIdentity (c : Ctr) (k : Kind) (i b n : Nat) (s : State) : (s.countSub c k i b n).clockIdentity = s.clockIdentity := by
  simp [State.countSub]
@[simp] theorem State.countSub_parityLast (c : Ctr) (k : Kind) (i b n : Nat) (s : State) : (s.countSub c k i b n).parityLast = s.parityLast := by
  simp [State.countSub]
@[simp] theorem State.countSub_readWord (c : Ctr) (k : Kind) (i b n : Nat) (s : State) : (s.countSub c k i b n).readWord = s.readWord := by
  simp [State.countSub]
@[simp] theorem State.countSub_spiReply (c : Ctr) (k : Kind) (i b n : Nat) (s : State) : (s.countSub c k i b n).spiReply = s.spiReply := by
  simp [State.countSub]
@[simp] theorem State.countSub_freeCtr (c : Ctr) (k : Kind) (i b n : Nat) (s : State) : (s.countSub c k i b n).freeCtr = s.freeCtr := by
  simp [State.countSub]
@[simp] theorem State.countSub_pending (c : Ctr) (k : Kind) (i b n : Nat) (s : State) : (s.countSub c k i b n).pending = s.pending := by
  simp [State.countSub]
@[simp] theorem State.eng_countSub (c : Ctr) (k : Kind) (i b n : Nat) (j : Nat) (s : State) : (s.countSub c k i b n).eng j = s.eng j := by
  simp [State.eng]
@[simp] theorem State.tile_countSub (c : Ctr) (k : Kind) (i b n : Nat) (j : Nat) (s : State) : (s.countSub c k i b n).tile j = s.tile j := by
  simp [State.tile]
@[simp] theorem State.fenced_countSub (c : Ctr) (k : Kind) (i b n : Nat) (j : Nat) (s : State) : (s.countSub c k i b n).fenced j = s.fenced j := by
  simp [State.fenced]
@[simp] theorem State.lane_countSub (c : Ctr) (k : Kind) (i b n : Nat) (j : Nat) (s : State) : (s.countSub c k i b n).lane j = s.lane j := by
  simp [State.lane]
@[simp] theorem State.htile_countSub (c : Ctr) (k : Kind) (i b n : Nat) (j : Nat) (s : State) : (s.countSub c k i b n).htile j = s.htile j := by
  simp [State.htile]
@[simp] theorem State.portOpt_countSub (c : Ctr) (k : Kind) (i b n : Nat) (j : Nat) (s : State) : (s.countSub c k i b n).port? j = s.port? j := by
  simp [State.port?]
@[simp] theorem State.pack_countSub (c : Ctr) (k : Kind) (i b n : Nat) (j : Nat) (s : State) : (s.countSub c k i b n).pack j = s.pack j := by
  simp [State.pack]
@[simp] theorem State.mc_countSub (c : Ctr) (k : Kind) (i b n : Nat) (j : Nat) (s : State) : (s.countSub c k i b n).mc j = s.mc j := by
  simp [State.mc]
@[simp] theorem State.dc_countSub (c : Ctr) (k : Kind) (i b n : Nat) (j : Nat) (s : State) : (s.countSub c k i b n).dc j = s.dc j := by
  simp [State.dc]
@[simp] theorem State.qreg_countSub (c : Ctr) (k : Kind) (i b n : Nat) (j : Nat) (s : State) : (s.countSub c k i b n).qreg j = s.qreg j := by
  simp [State.qreg]
@[simp] theorem State.cmdq_countSub (c : Ctr) (k : Kind) (i b n : Nat) (j : Nat) (s : State) : (s.countSub c k i b n).cmdq j = s.cmdq j := by
  simp [State.cmdq]
@[simp] theorem State.sysHeld_countSub (c : Ctr) (k : Kind) (i b n : Nat)  (s : State) : (s.countSub c k i b n).sysHeld = s.sysHeld := by
  simp [State.sysHeld]
@[simp] theorem State.tileTemp_countSub (c : Ctr) (k : Kind) (i b n : Nat) (j : Nat) (s : State) : (s.countSub c k i b n).tileTemp j = s.tileTemp j := by
  simp [State.tileTemp]

/-! ### signal -/

@[simp] theorem State.signal_tn (v : Nat) (s : State) : (s.signal v).tn = s.tn := by
  unfold State.signal; split <;> rfl
@[simp] theorem State.signal_tickOffset (v : Nat) (s : State) : (s.signal v).tickOffset = s.tickOffset := by
  unfold State.signal; split <;> rfl
@[simp] theorem State.signal_ticks (v : Nat) (s : State) : (s.signal v).ticks = s.ticks := by
  unfold State.signal; split <;> rfl
@[simp] theorem State.signal_tnProvisional (v : Nat) (s : State) : (s.signal v).tnProvisional = s.tnProvisional := by
  unfold State.signal; split <;> rfl
@[simp] theorem State.signal_realign (v : Nat) (s : State) : (s.signal v).realign = s.realign := by
  unfold State.signal; split <;> rfl
@[simp] theorem State.signal_trafficLast (v : Nat) (s : State) : (s.signal v).trafficLast = s.trafficLast := by
  unfold State.signal; split <;> rfl
@[simp] theorem State.signal_engines (v : Nat) (s : State) : (s.signal v).engines = s.engines := by
  unfold State.signal; split <;> rfl
@[simp] theorem State.signal_tiles (v : Nat) (s : State) : (s.signal v).tiles = s.tiles := by
  unfold State.signal; split <;> rfl
@[simp] theorem State.signal_htiles (v : Nat) (s : State) : (s.signal v).htiles = s.htiles := by
  unfold State.signal; split <;> rfl
@[simp] theorem State.signal_lanes (v : Nat) (s : State) : (s.signal v).lanes = s.lanes := by
  unfold State.signal; split <;> rfl
@[simp] theorem State.signal_ports (v : Nat) (s : State) : (s.signal v).ports = s.ports := by
  unfold State.signal; split <;> rfl
@[simp] theorem State.signal_packs (v : Nat) (s : State) : (s.signal v).packs = s.packs := by
  unfold State.signal; split <;> rfl
@[simp] theorem State.signal_cal (v : Nat) (s : State) : (s.signal v).cal = s.cal := by
  unfold State.signal; split <;> rfl
@[simp] theorem State.signal_map (v : Nat) (s : State) : (s.signal v).map = s.map := by
  unfold State.signal; split <;> rfl
@[simp] theorem State.signal_mapCentre (v : Nat) (s : State) : (s.signal v).mapCentre = s.mapCentre := by
  unfold State.signal; split <;> rfl
@[simp] theorem State.signal_mons (v : Nat) (s : State) : (s.signal v).mons = s.mons := by
  unfold State.signal; split <;> rfl
@[simp] theorem State.signal_tlmq (v : Nat) (s : State) : (s.signal v).tlmq = s.tlmq := by
  unfold State.signal; split <;> rfl
@[simp] theorem State.signal_chains (v : Nat) (s : State) : (s.signal v).chains = s.chains := by
  unfold State.signal; split <;> rfl
@[simp] theorem State.signal_dma (v : Nat) (s : State) : (s.signal v).dma = s.dma := by
  unfold State.signal; split <;> rfl
@[simp] theorem State.signal_proto (v : Nat) (s : State) : (s.signal v).proto = s.proto := by
  unfold State.signal; split <;> rfl
@[simp] theorem State.signal_ctr (v : Nat) (s : State) : (s.signal v).ctr = s.ctr := by
  unfold State.signal; split <;> rfl
@[simp] theorem State.signal_power (v : Nat) (s : State) : (s.signal v).power = s.power := by
  unfold State.signal; split <;> rfl
@[simp] theorem State.signal_recovery (v : Nat) (s : State) : (s.signal v).recovery = s.recovery := by
  unfold State.signal; split <;> rfl
@[simp] theorem State.signal_kennel (v : Nat) (s : State) : (s.signal v).kennel = s.kennel := by
  unfold State.signal; split <;> rfl
@[simp] theorem State.signal_time (v : Nat) (s : State) : (s.signal v).time = s.time := by
  unfold State.signal; split <;> rfl
@[simp] theorem State.signal_sec (v : Nat) (s : State) : (s.signal v).sec = s.sec := by
  unfold State.signal; split <;> rfl
@[simp] theorem State.signal_clockIdentity (v : Nat) (s : State) : (s.signal v).clockIdentity = s.clockIdentity := by
  unfold State.signal; split <;> rfl
@[simp] theorem State.signal_parityLast (v : Nat) (s : State) : (s.signal v).parityLast = s.parityLast := by
  unfold State.signal; split <;> rfl
@[simp] theorem State.signal_readWord (v : Nat) (s : State) : (s.signal v).readWord = s.readWord := by
  unfold State.signal; split <;> rfl
@[simp] theorem State.signal_spiReply (v : Nat) (s : State) : (s.signal v).spiReply = s.spiReply := by
  unfold State.signal; split <;> rfl
@[simp] theorem State.signal_freeCtr (v : Nat) (s : State) : (s.signal v).freeCtr = s.freeCtr := by
  unfold State.signal; split <;> rfl
@[simp] theorem State.signal_pending (v : Nat) (s : State) : (s.signal v).pending = s.pending := by
  unfold State.signal; split <;> rfl
@[simp] theorem State.eng_signal (v : Nat) (j : Nat) (s : State) : (s.signal v).eng j = s.eng j := by
  simp [State.eng]
@[simp] theorem State.tile_signal (v : Nat) (j : Nat) (s : State) : (s.signal v).tile j = s.tile j := by
  simp [State.tile]
@[simp] theorem State.fenced_signal (v : Nat) (j : Nat) (s : State) : (s.signal v).fenced j = s.fenced j := by
  simp [State.fenced]
@[simp] theorem State.lane_signal (v : Nat) (j : Nat) (s : State) : (s.signal v).lane j = s.lane j := by
  simp [State.lane]
@[simp] theorem State.htile_signal (v : Nat) (j : Nat) (s : State) : (s.signal v).htile j = s.htile j := by
  simp [State.htile]
@[simp] theorem State.portOpt_signal (v : Nat) (j : Nat) (s : State) : (s.signal v).port? j = s.port? j := by
  simp [State.port?]
@[simp] theorem State.pack_signal (v : Nat) (j : Nat) (s : State) : (s.signal v).pack j = s.pack j := by
  simp [State.pack]
@[simp] theorem State.mc_signal (v : Nat) (j : Nat) (s : State) : (s.signal v).mc j = s.mc j := by
  simp [State.mc]
@[simp] theorem State.dc_signal (v : Nat) (j : Nat) (s : State) : (s.signal v).dc j = s.dc j := by
  simp [State.dc]
@[simp] theorem State.qreg_signal (v : Nat) (j : Nat) (s : State) : (s.signal v).qreg j = s.qreg j := by
  simp [State.qreg]
@[simp] theorem State.cmdq_signal (v : Nat) (j : Nat) (s : State) : (s.signal v).cmdq j = s.cmdq j := by
  simp [State.cmdq]
@[simp] theorem State.sysHeld_signal (v : Nat)  (s : State) : (s.signal v).sysHeld = s.sysHeld := by
  simp [State.sysHeld]
@[simp] theorem State.tileTemp_signal (v : Nat) (j : Nat) (s : State) : (s.signal v).tileTemp j = s.tileTemp j := by
  simp [State.tileTemp]

/-! ### signalRing -/

@[simp] theorem State.signalRing_tn (q : Nat) (s : State) : (s.signalRing q).tn = s.tn := by
  unfold State.signalRing; split <;> simp
@[simp] theorem State.signalRing_tickOffset (q : Nat) (s : State) : (s.signalRing q).tickOffset = s.tickOffset := by
  unfold State.signalRing; split <;> simp
@[simp] theorem State.signalRing_ticks (q : Nat) (s : State) : (s.signalRing q).ticks = s.ticks := by
  unfold State.signalRing; split <;> simp
@[simp] theorem State.signalRing_tnProvisional (q : Nat) (s : State) : (s.signalRing q).tnProvisional = s.tnProvisional := by
  unfold State.signalRing; split <;> simp
@[simp] theorem State.signalRing_realign (q : Nat) (s : State) : (s.signalRing q).realign = s.realign := by
  unfold State.signalRing; split <;> simp
@[simp] theorem State.signalRing_trafficLast (q : Nat) (s : State) : (s.signalRing q).trafficLast = s.trafficLast := by
  unfold State.signalRing; split <;> simp
@[simp] theorem State.signalRing_engines (q : Nat) (s : State) : (s.signalRing q).engines = s.engines := by
  unfold State.signalRing; split <;> simp
@[simp] theorem State.signalRing_tiles (q : Nat) (s : State) : (s.signalRing q).tiles = s.tiles := by
  unfold State.signalRing; split <;> simp
@[simp] theorem State.signalRing_htiles (q : Nat) (s : State) : (s.signalRing q).htiles = s.htiles := by
  unfold State.signalRing; split <;> simp
@[simp] theorem State.signalRing_lanes (q : Nat) (s : State) : (s.signalRing q).lanes = s.lanes := by
  unfold State.signalRing; split <;> simp
@[simp] theorem State.signalRing_ports (q : Nat) (s : State) : (s.signalRing q).ports = s.ports := by
  unfold State.signalRing; split <;> simp
@[simp] theorem State.signalRing_packs (q : Nat) (s : State) : (s.signalRing q).packs = s.packs := by
  unfold State.signalRing; split <;> simp
@[simp] theorem State.signalRing_cal (q : Nat) (s : State) : (s.signalRing q).cal = s.cal := by
  unfold State.signalRing; split <;> simp
@[simp] theorem State.signalRing_map (q : Nat) (s : State) : (s.signalRing q).map = s.map := by
  unfold State.signalRing; split <;> simp
@[simp] theorem State.signalRing_mapCentre (q : Nat) (s : State) : (s.signalRing q).mapCentre = s.mapCentre := by
  unfold State.signalRing; split <;> simp
@[simp] theorem State.signalRing_mons (q : Nat) (s : State) : (s.signalRing q).mons = s.mons := by
  unfold State.signalRing; split <;> simp
@[simp] theorem State.signalRing_tlmq (q : Nat) (s : State) : (s.signalRing q).tlmq = s.tlmq := by
  unfold State.signalRing; split <;> simp
@[simp] theorem State.signalRing_chains (q : Nat) (s : State) : (s.signalRing q).chains = s.chains := by
  unfold State.signalRing; split <;> simp
@[simp] theorem State.signalRing_dma (q : Nat) (s : State) : (s.signalRing q).dma = s.dma := by
  unfold State.signalRing; split <;> simp
@[simp] theorem State.signalRing_ctr (q : Nat) (s : State) : (s.signalRing q).ctr = s.ctr := by
  unfold State.signalRing; split <;> simp
@[simp] theorem State.signalRing_power (q : Nat) (s : State) : (s.signalRing q).power = s.power := by
  unfold State.signalRing; split <;> simp
@[simp] theorem State.signalRing_recovery (q : Nat) (s : State) : (s.signalRing q).recovery = s.recovery := by
  unfold State.signalRing; split <;> simp
@[simp] theorem State.signalRing_kennel (q : Nat) (s : State) : (s.signalRing q).kennel = s.kennel := by
  unfold State.signalRing; split <;> simp
@[simp] theorem State.signalRing_time (q : Nat) (s : State) : (s.signalRing q).time = s.time := by
  unfold State.signalRing; split <;> simp
@[simp] theorem State.signalRing_sec (q : Nat) (s : State) : (s.signalRing q).sec = s.sec := by
  unfold State.signalRing; split <;> simp
@[simp] theorem State.signalRing_clockIdentity (q : Nat) (s : State) : (s.signalRing q).clockIdentity = s.clockIdentity := by
  unfold State.signalRing; split <;> simp
@[simp] theorem State.signalRing_parityLast (q : Nat) (s : State) : (s.signalRing q).parityLast = s.parityLast := by
  unfold State.signalRing; split <;> simp
@[simp] theorem State.signalRing_readWord (q : Nat) (s : State) : (s.signalRing q).readWord = s.readWord := by
  unfold State.signalRing; split <;> simp
@[simp] theorem State.signalRing_spiReply (q : Nat) (s : State) : (s.signalRing q).spiReply = s.spiReply := by
  unfold State.signalRing; split <;> simp
@[simp] theorem State.signalRing_freeCtr (q : Nat) (s : State) : (s.signalRing q).freeCtr = s.freeCtr := by
  unfold State.signalRing; split <;> simp
@[simp] theorem State.signalRing_pending (q : Nat) (s : State) : (s.signalRing q).pending = s.pending := by
  unfold State.signalRing; split <;> simp
@[simp] theorem State.eng_signalRing (q : Nat) (j : Nat) (s : State) : (s.signalRing q).eng j = s.eng j := by
  simp [State.eng]
@[simp] theorem State.tile_signalRing (q : Nat) (j : Nat) (s : State) : (s.signalRing q).tile j = s.tile j := by
  simp [State.tile]
@[simp] theorem State.fenced_signalRing (q : Nat) (j : Nat) (s : State) : (s.signalRing q).fenced j = s.fenced j := by
  simp [State.fenced]
@[simp] theorem State.lane_signalRing (q : Nat) (j : Nat) (s : State) : (s.signalRing q).lane j = s.lane j := by
  simp [State.lane]
@[simp] theorem State.htile_signalRing (q : Nat) (j : Nat) (s : State) : (s.signalRing q).htile j = s.htile j := by
  simp [State.htile]
@[simp] theorem State.portOpt_signalRing (q : Nat) (j : Nat) (s : State) : (s.signalRing q).port? j = s.port? j := by
  simp [State.port?]
@[simp] theorem State.pack_signalRing (q : Nat) (j : Nat) (s : State) : (s.signalRing q).pack j = s.pack j := by
  simp [State.pack]
@[simp] theorem State.mc_signalRing (q : Nat) (j : Nat) (s : State) : (s.signalRing q).mc j = s.mc j := by
  simp [State.mc]
@[simp] theorem State.dc_signalRing (q : Nat) (j : Nat) (s : State) : (s.signalRing q).dc j = s.dc j := by
  simp [State.dc]
@[simp] theorem State.sysHeld_signalRing (q : Nat)  (s : State) : (s.signalRing q).sysHeld = s.sysHeld := by
  simp [State.sysHeld]
@[simp] theorem State.tileTemp_signalRing (q : Nat) (j : Nat) (s : State) : (s.signalRing q).tileTemp j = s.tileTemp j := by
  simp [State.tileTemp]

/-! ### advanced -/

@[simp] theorem State.advanced_tn (q : Nat) (s : State) : (s.advanced q).tn = s.tn := by
  simp only [State.advanced]; (repeat' split) <;> simp
@[simp] theorem State.advanced_tickOffset (q : Nat) (s : State) : (s.advanced q).tickOffset = s.tickOffset := by
  simp only [State.advanced]; (repeat' split) <;> simp
@[simp] theorem State.advanced_ticks (q : Nat) (s : State) : (s.advanced q).ticks = s.ticks := by
  simp only [State.advanced]; (repeat' split) <;> simp
@[simp] theorem State.advanced_tnProvisional (q : Nat) (s : State) : (s.advanced q).tnProvisional = s.tnProvisional := by
  simp only [State.advanced]; (repeat' split) <;> simp
@[simp] theorem State.advanced_realign (q : Nat) (s : State) : (s.advanced q).realign = s.realign := by
  simp only [State.advanced]; (repeat' split) <;> simp
@[simp] theorem State.advanced_trafficLast (q : Nat) (s : State) : (s.advanced q).trafficLast = s.trafficLast := by
  simp only [State.advanced]; (repeat' split) <;> simp
@[simp] theorem State.advanced_engines (q : Nat) (s : State) : (s.advanced q).engines = s.engines := by
  simp only [State.advanced]; (repeat' split) <;> simp
@[simp] theorem State.advanced_tiles (q : Nat) (s : State) : (s.advanced q).tiles = s.tiles := by
  simp only [State.advanced]; (repeat' split) <;> simp
@[simp] theorem State.advanced_htiles (q : Nat) (s : State) : (s.advanced q).htiles = s.htiles := by
  simp only [State.advanced]; (repeat' split) <;> simp
@[simp] theorem State.advanced_lanes (q : Nat) (s : State) : (s.advanced q).lanes = s.lanes := by
  simp only [State.advanced]; (repeat' split) <;> simp
@[simp] theorem State.advanced_ports (q : Nat) (s : State) : (s.advanced q).ports = s.ports := by
  simp only [State.advanced]; (repeat' split) <;> simp
@[simp] theorem State.advanced_packs (q : Nat) (s : State) : (s.advanced q).packs = s.packs := by
  simp only [State.advanced]; (repeat' split) <;> simp
@[simp] theorem State.advanced_cal (q : Nat) (s : State) : (s.advanced q).cal = s.cal := by
  simp only [State.advanced]; (repeat' split) <;> simp
@[simp] theorem State.advanced_map (q : Nat) (s : State) : (s.advanced q).map = s.map := by
  simp only [State.advanced]; (repeat' split) <;> simp
@[simp] theorem State.advanced_mapCentre (q : Nat) (s : State) : (s.advanced q).mapCentre = s.mapCentre := by
  simp only [State.advanced]; (repeat' split) <;> simp
@[simp] theorem State.advanced_mons (q : Nat) (s : State) : (s.advanced q).mons = s.mons := by
  simp only [State.advanced]; (repeat' split) <;> simp
@[simp] theorem State.advanced_tlmq (q : Nat) (s : State) : (s.advanced q).tlmq = s.tlmq := by
  simp only [State.advanced]; (repeat' split) <;> simp
@[simp] theorem State.advanced_chains (q : Nat) (s : State) : (s.advanced q).chains = s.chains := by
  simp only [State.advanced]; (repeat' split) <;> simp
@[simp] theorem State.advanced_dma (q : Nat) (s : State) : (s.advanced q).dma = s.dma := by
  simp only [State.advanced]; (repeat' split) <;> simp
@[simp] theorem State.advanced_ctr (q : Nat) (s : State) : (s.advanced q).ctr = s.ctr := by
  simp only [State.advanced]; (repeat' split) <;> simp
@[simp] theorem State.advanced_power (q : Nat) (s : State) : (s.advanced q).power = s.power := by
  simp only [State.advanced]; (repeat' split) <;> simp
@[simp] theorem State.advanced_recovery (q : Nat) (s : State) : (s.advanced q).recovery = s.recovery := by
  simp only [State.advanced]; (repeat' split) <;> simp
@[simp] theorem State.advanced_kennel (q : Nat) (s : State) : (s.advanced q).kennel = s.kennel := by
  simp only [State.advanced]; (repeat' split) <;> simp
@[simp] theorem State.advanced_time (q : Nat) (s : State) : (s.advanced q).time = s.time := by
  simp only [State.advanced]; (repeat' split) <;> simp
@[simp] theorem State.advanced_sec (q : Nat) (s : State) : (s.advanced q).sec = s.sec := by
  simp only [State.advanced]; (repeat' split) <;> simp
@[simp] theorem State.advanced_clockIdentity (q : Nat) (s : State) : (s.advanced q).clockIdentity = s.clockIdentity := by
  simp only [State.advanced]; (repeat' split) <;> simp
@[simp] theorem State.advanced_parityLast (q : Nat) (s : State) : (s.advanced q).parityLast = s.parityLast := by
  simp only [State.advanced]; (repeat' split) <;> simp
@[simp] theorem State.advanced_readWord (q : Nat) (s : State) : (s.advanced q).readWord = s.readWord := by
  simp only [State.advanced]; (repeat' split) <;> simp
@[simp] theorem State.advanced_spiReply (q : Nat) (s : State) : (s.advanced q).spiReply = s.spiReply := by
  simp only [State.advanced]; (repeat' split) <;> simp
@[simp] theorem State.advanced_freeCtr (q : Nat) (s : State) : (s.advanced q).freeCtr = s.freeCtr := by
  simp only [State.advanced]; (repeat' split) <;> simp
@[simp] theorem State.advanced_pending (q : Nat) (s : State) : (s.advanced q).pending = s.pending := by
  simp only [State.advanced]; (repeat' split) <;> simp
@[simp] theorem State.eng_advanced (q : Nat) (j : Nat) (s : State) : (s.advanced q).eng j = s.eng j := by
  simp [State.eng]
@[simp] theorem State.tile_advanced (q : Nat) (j : Nat) (s : State) : (s.advanced q).tile j = s.tile j := by
  simp [State.tile]
@[simp] theorem State.fenced_advanced (q : Nat) (j : Nat) (s : State) : (s.advanced q).fenced j = s.fenced j := by
  simp [State.fenced]
@[simp] theorem State.lane_advanced (q : Nat) (j : Nat) (s : State) : (s.advanced q).lane j = s.lane j := by
  simp [State.lane]
@[simp] theorem State.htile_advanced (q : Nat) (j : Nat) (s : State) : (s.advanced q).htile j = s.htile j := by
  simp [State.htile]
@[simp] theorem State.portOpt_advanced (q : Nat) (j : Nat) (s : State) : (s.advanced q).port? j = s.port? j := by
  simp [State.port?]
@[simp] theorem State.pack_advanced (q : Nat) (j : Nat) (s : State) : (s.advanced q).pack j = s.pack j := by
  simp [State.pack]
@[simp] theorem State.mc_advanced (q : Nat) (j : Nat) (s : State) : (s.advanced q).mc j = s.mc j := by
  simp [State.mc]
@[simp] theorem State.dc_advanced (q : Nat) (j : Nat) (s : State) : (s.advanced q).dc j = s.dc j := by
  simp [State.dc]
@[simp] theorem State.sysHeld_advanced (q : Nat)  (s : State) : (s.advanced q).sysHeld = s.sysHeld := by
  simp [State.sysHeld]
@[simp] theorem State.tileTemp_advanced (q : Nat) (j : Nat) (s : State) : (s.advanced q).tileTemp j = s.tileTemp j := by
  simp [State.tileTemp]

/-! ### wmCross -/

@[simp] theorem State.wmCross_tn (q old : Nat) (s : State) : (s.wmCross q old).tn = s.tn := by
  simp only [State.wmCross]; split <;> simp
@[simp] theorem State.wmCross_tickOffset (q old : Nat) (s : State) : (s.wmCross q old).tickOffset = s.tickOffset := by
  simp only [State.wmCross]; split <;> simp
@[simp] theorem State.wmCross_ticks (q old : Nat) (s : State) : (s.wmCross q old).ticks = s.ticks := by
  simp only [State.wmCross]; split <;> simp
@[simp] theorem State.wmCross_tnProvisional (q old : Nat) (s : State) : (s.wmCross q old).tnProvisional = s.tnProvisional := by
  simp only [State.wmCross]; split <;> simp
@[simp] theorem State.wmCross_realign (q old : Nat) (s : State) : (s.wmCross q old).realign = s.realign := by
  simp only [State.wmCross]; split <;> simp
@[simp] theorem State.wmCross_trafficLast (q old : Nat) (s : State) : (s.wmCross q old).trafficLast = s.trafficLast := by
  simp only [State.wmCross]; split <;> simp
@[simp] theorem State.wmCross_engines (q old : Nat) (s : State) : (s.wmCross q old).engines = s.engines := by
  simp only [State.wmCross]; split <;> simp
@[simp] theorem State.wmCross_tiles (q old : Nat) (s : State) : (s.wmCross q old).tiles = s.tiles := by
  simp only [State.wmCross]; split <;> simp
@[simp] theorem State.wmCross_htiles (q old : Nat) (s : State) : (s.wmCross q old).htiles = s.htiles := by
  simp only [State.wmCross]; split <;> simp
@[simp] theorem State.wmCross_lanes (q old : Nat) (s : State) : (s.wmCross q old).lanes = s.lanes := by
  simp only [State.wmCross]; split <;> simp
@[simp] theorem State.wmCross_ports (q old : Nat) (s : State) : (s.wmCross q old).ports = s.ports := by
  simp only [State.wmCross]; split <;> simp
@[simp] theorem State.wmCross_packs (q old : Nat) (s : State) : (s.wmCross q old).packs = s.packs := by
  simp only [State.wmCross]; split <;> simp
@[simp] theorem State.wmCross_cal (q old : Nat) (s : State) : (s.wmCross q old).cal = s.cal := by
  simp only [State.wmCross]; split <;> simp
@[simp] theorem State.wmCross_map (q old : Nat) (s : State) : (s.wmCross q old).map = s.map := by
  simp only [State.wmCross]; split <;> simp
@[simp] theorem State.wmCross_mapCentre (q old : Nat) (s : State) : (s.wmCross q old).mapCentre = s.mapCentre := by
  simp only [State.wmCross]; split <;> simp
@[simp] theorem State.wmCross_mons (q old : Nat) (s : State) : (s.wmCross q old).mons = s.mons := by
  simp only [State.wmCross]; split <;> simp
@[simp] theorem State.wmCross_tlmq (q old : Nat) (s : State) : (s.wmCross q old).tlmq = s.tlmq := by
  simp only [State.wmCross]; split <;> simp
@[simp] theorem State.wmCross_chains (q old : Nat) (s : State) : (s.wmCross q old).chains = s.chains := by
  simp only [State.wmCross]; split <;> simp
@[simp] theorem State.wmCross_dma (q old : Nat) (s : State) : (s.wmCross q old).dma = s.dma := by
  simp only [State.wmCross]; split <;> simp
@[simp] theorem State.wmCross_ctr (q old : Nat) (s : State) : (s.wmCross q old).ctr = s.ctr := by
  simp only [State.wmCross]; split <;> simp
@[simp] theorem State.wmCross_power (q old : Nat) (s : State) : (s.wmCross q old).power = s.power := by
  simp only [State.wmCross]; split <;> simp
@[simp] theorem State.wmCross_recovery (q old : Nat) (s : State) : (s.wmCross q old).recovery = s.recovery := by
  simp only [State.wmCross]; split <;> simp
@[simp] theorem State.wmCross_kennel (q old : Nat) (s : State) : (s.wmCross q old).kennel = s.kennel := by
  simp only [State.wmCross]; split <;> simp
@[simp] theorem State.wmCross_time (q old : Nat) (s : State) : (s.wmCross q old).time = s.time := by
  simp only [State.wmCross]; split <;> simp
@[simp] theorem State.wmCross_sec (q old : Nat) (s : State) : (s.wmCross q old).sec = s.sec := by
  simp only [State.wmCross]; split <;> simp
@[simp] theorem State.wmCross_clockIdentity (q old : Nat) (s : State) : (s.wmCross q old).clockIdentity = s.clockIdentity := by
  simp only [State.wmCross]; split <;> simp
@[simp] theorem State.wmCross_parityLast (q old : Nat) (s : State) : (s.wmCross q old).parityLast = s.parityLast := by
  simp only [State.wmCross]; split <;> simp
@[simp] theorem State.wmCross_readWord (q old : Nat) (s : State) : (s.wmCross q old).readWord = s.readWord := by
  simp only [State.wmCross]; split <;> simp
@[simp] theorem State.wmCross_spiReply (q old : Nat) (s : State) : (s.wmCross q old).spiReply = s.spiReply := by
  simp only [State.wmCross]; split <;> simp
@[simp] theorem State.wmCross_freeCtr (q old : Nat) (s : State) : (s.wmCross q old).freeCtr = s.freeCtr := by
  simp only [State.wmCross]; split <;> simp
@[simp] theorem State.wmCross_pending (q old : Nat) (s : State) : (s.wmCross q old).pending = s.pending := by
  simp only [State.wmCross]; split <;> simp
@[simp] theorem State.eng_wmCross (q old : Nat) (j : Nat) (s : State) : (s.wmCross q old).eng j = s.eng j := by
  simp [State.eng]
@[simp] theorem State.tile_wmCross (q old : Nat) (j : Nat) (s : State) : (s.wmCross q old).tile j = s.tile j := by
  simp [State.tile]
@[simp] theorem State.fenced_wmCross (q old : Nat) (j : Nat) (s : State) : (s.wmCross q old).fenced j = s.fenced j := by
  simp [State.fenced]
@[simp] theorem State.lane_wmCross (q old : Nat) (j : Nat) (s : State) : (s.wmCross q old).lane j = s.lane j := by
  simp [State.lane]
@[simp] theorem State.htile_wmCross (q old : Nat) (j : Nat) (s : State) : (s.wmCross q old).htile j = s.htile j := by
  simp [State.htile]
@[simp] theorem State.portOpt_wmCross (q old : Nat) (j : Nat) (s : State) : (s.wmCross q old).port? j = s.port? j := by
  simp [State.port?]
@[simp] theorem State.pack_wmCross (q old : Nat) (j : Nat) (s : State) : (s.wmCross q old).pack j = s.pack j := by
  simp [State.pack]
@[simp] theorem State.mc_wmCross (q old : Nat) (j : Nat) (s : State) : (s.wmCross q old).mc j = s.mc j := by
  simp [State.mc]
@[simp] theorem State.dc_wmCross (q old : Nat) (j : Nat) (s : State) : (s.wmCross q old).dc j = s.dc j := by
  simp [State.dc]
@[simp] theorem State.sysHeld_wmCross (q old : Nat)  (s : State) : (s.wmCross q old).sysHeld = s.sysHeld := by
  simp [State.sysHeld]
@[simp] theorem State.tileTemp_wmCross (q old : Nat) (j : Nat) (s : State) : (s.wmCross q old).tileTemp j = s.tileTemp j := by
  simp [State.tileTemp]

/-! ### refreshAlert -/

@[simp] theorem State.refreshAlert_tn  (s : State) : (s.refreshAlert ).tn = s.tn := by
  unfold State.refreshAlert; (repeat' split) <;> simp
@[simp] theorem State.refreshAlert_tickOffset  (s : State) : (s.refreshAlert ).tickOffset = s.tickOffset := by
  unfold State.refreshAlert; (repeat' split) <;> simp
@[simp] theorem State.refreshAlert_ticks  (s : State) : (s.refreshAlert ).ticks = s.ticks := by
  unfold State.refreshAlert; (repeat' split) <;> simp
@[simp] theorem State.refreshAlert_tnProvisional  (s : State) : (s.refreshAlert ).tnProvisional = s.tnProvisional := by
  unfold State.refreshAlert; (repeat' split) <;> simp
@[simp] theorem State.refreshAlert_realign  (s : State) : (s.refreshAlert ).realign = s.realign := by
  unfold State.refreshAlert; (repeat' split) <;> simp
@[simp] theorem State.refreshAlert_trafficLast  (s : State) : (s.refreshAlert ).trafficLast = s.trafficLast := by
  unfold State.refreshAlert; (repeat' split) <;> simp
@[simp] theorem State.refreshAlert_engines  (s : State) : (s.refreshAlert ).engines = s.engines := by
  unfold State.refreshAlert; (repeat' split) <;> simp
@[simp] theorem State.refreshAlert_tiles  (s : State) : (s.refreshAlert ).tiles = s.tiles := by
  unfold State.refreshAlert; (repeat' split) <;> simp
@[simp] theorem State.refreshAlert_htiles  (s : State) : (s.refreshAlert ).htiles = s.htiles := by
  unfold State.refreshAlert; (repeat' split) <;> simp
@[simp] theorem State.refreshAlert_lanes  (s : State) : (s.refreshAlert ).lanes = s.lanes := by
  unfold State.refreshAlert; (repeat' split) <;> simp
@[simp] theorem State.refreshAlert_ports  (s : State) : (s.refreshAlert ).ports = s.ports := by
  unfold State.refreshAlert; (repeat' split) <;> simp
@[simp] theorem State.refreshAlert_packs  (s : State) : (s.refreshAlert ).packs = s.packs := by
  unfold State.refreshAlert; (repeat' split) <;> simp
@[simp] theorem State.refreshAlert_cal  (s : State) : (s.refreshAlert ).cal = s.cal := by
  unfold State.refreshAlert; (repeat' split) <;> simp
@[simp] theorem State.refreshAlert_map  (s : State) : (s.refreshAlert ).map = s.map := by
  unfold State.refreshAlert; (repeat' split) <;> simp
@[simp] theorem State.refreshAlert_mapCentre  (s : State) : (s.refreshAlert ).mapCentre = s.mapCentre := by
  unfold State.refreshAlert; (repeat' split) <;> simp
@[simp] theorem State.refreshAlert_mons  (s : State) : (s.refreshAlert ).mons = s.mons := by
  unfold State.refreshAlert; (repeat' split) <;> simp
@[simp] theorem State.refreshAlert_tlmq  (s : State) : (s.refreshAlert ).tlmq = s.tlmq := by
  unfold State.refreshAlert; (repeat' split) <;> simp
@[simp] theorem State.refreshAlert_chains  (s : State) : (s.refreshAlert ).chains = s.chains := by
  unfold State.refreshAlert; (repeat' split) <;> simp
@[simp] theorem State.refreshAlert_dma  (s : State) : (s.refreshAlert ).dma = s.dma := by
  unfold State.refreshAlert; (repeat' split) <;> simp
@[simp] theorem State.refreshAlert_proto  (s : State) : (s.refreshAlert ).proto = s.proto := by
  unfold State.refreshAlert; (repeat' split) <;> simp
@[simp] theorem State.refreshAlert_ctr  (s : State) : (s.refreshAlert ).ctr = s.ctr := by
  unfold State.refreshAlert; (repeat' split) <;> simp
@[simp] theorem State.refreshAlert_power  (s : State) : (s.refreshAlert ).power = s.power := by
  unfold State.refreshAlert; (repeat' split) <;> simp
@[simp] theorem State.refreshAlert_recovery  (s : State) : (s.refreshAlert ).recovery = s.recovery := by
  unfold State.refreshAlert; (repeat' split) <;> simp
@[simp] theorem State.refreshAlert_kennel  (s : State) : (s.refreshAlert ).kennel = s.kennel := by
  unfold State.refreshAlert; (repeat' split) <;> simp
@[simp] theorem State.refreshAlert_time  (s : State) : (s.refreshAlert ).time = s.time := by
  unfold State.refreshAlert; (repeat' split) <;> simp
@[simp] theorem State.refreshAlert_sec  (s : State) : (s.refreshAlert ).sec = s.sec := by
  unfold State.refreshAlert; (repeat' split) <;> simp
@[simp] theorem State.refreshAlert_clockIdentity  (s : State) : (s.refreshAlert ).clockIdentity = s.clockIdentity := by
  unfold State.refreshAlert; (repeat' split) <;> simp
@[simp] theorem State.refreshAlert_parityLast  (s : State) : (s.refreshAlert ).parityLast = s.parityLast := by
  unfold State.refreshAlert; (repeat' split) <;> simp
@[simp] theorem State.refreshAlert_readWord  (s : State) : (s.refreshAlert ).readWord = s.readWord := by
  unfold State.refreshAlert; (repeat' split) <;> simp
@[simp] theorem State.refreshAlert_spiReply  (s : State) : (s.refreshAlert ).spiReply = s.spiReply := by
  unfold State.refreshAlert; (repeat' split) <;> simp
@[simp] theorem State.refreshAlert_freeCtr  (s : State) : (s.refreshAlert ).freeCtr = s.freeCtr := by
  unfold State.refreshAlert; (repeat' split) <;> simp
@[simp] theorem State.refreshAlert_pending  (s : State) : (s.refreshAlert ).pending = s.pending := by
  unfold State.refreshAlert; (repeat' split) <;> simp
@[simp] theorem State.eng_refreshAlert  (j : Nat) (s : State) : (s.refreshAlert ).eng j = s.eng j := by
  simp [State.eng]
@[simp] theorem State.tile_refreshAlert  (j : Nat) (s : State) : (s.refreshAlert ).tile j = s.tile j := by
  simp [State.tile]
@[simp] theorem State.fenced_refreshAlert  (j : Nat) (s : State) : (s.refreshAlert ).fenced j = s.fenced j := by
  simp [State.fenced]
@[simp] theorem State.lane_refreshAlert  (j : Nat) (s : State) : (s.refreshAlert ).lane j = s.lane j := by
  simp [State.lane]
@[simp] theorem State.htile_refreshAlert  (j : Nat) (s : State) : (s.refreshAlert ).htile j = s.htile j := by
  simp [State.htile]
@[simp] theorem State.portOpt_refreshAlert  (j : Nat) (s : State) : (s.refreshAlert ).port? j = s.port? j := by
  simp [State.port?]
@[simp] theorem State.pack_refreshAlert  (j : Nat) (s : State) : (s.refreshAlert ).pack j = s.pack j := by
  simp [State.pack]
@[simp] theorem State.mc_refreshAlert  (j : Nat) (s : State) : (s.refreshAlert ).mc j = s.mc j := by
  simp [State.mc]
@[simp] theorem State.dc_refreshAlert  (j : Nat) (s : State) : (s.refreshAlert ).dc j = s.dc j := by
  simp [State.dc]
@[simp] theorem State.qreg_refreshAlert  (j : Nat) (s : State) : (s.refreshAlert ).qreg j = s.qreg j := by
  simp [State.qreg]
@[simp] theorem State.cmdq_refreshAlert  (j : Nat) (s : State) : (s.refreshAlert ).cmdq j = s.cmdq j := by
  simp [State.cmdq]
@[simp] theorem State.sysHeld_refreshAlert   (s : State) : (s.refreshAlert ).sysHeld = s.sysHeld := by
  simp [State.sysHeld]
@[simp] theorem State.tileTemp_refreshAlert  (j : Nat) (s : State) : (s.refreshAlert ).tileTemp j = s.tileTemp j := by
  simp [State.tileTemp]

/-! ### postEvent -/

@[simp] theorem State.postEvent_tn (e : EventItem) (s : State) : (s.postEvent e).tn = s.tn := by
  simp only [State.postEvent]; (repeat' split) <;> simp
@[simp] theorem State.postEvent_tickOffset (e : EventItem) (s : State) : (s.postEvent e).tickOffset = s.tickOffset := by
  simp only [State.postEvent]; (repeat' split) <;> simp
@[simp] theorem State.postEvent_ticks (e : EventItem) (s : State) : (s.postEvent e).ticks = s.ticks := by
  simp only [State.postEvent]; (repeat' split) <;> simp
@[simp] theorem State.postEvent_tnProvisional (e : EventItem) (s : State) : (s.postEvent e).tnProvisional = s.tnProvisional := by
  simp only [State.postEvent]; (repeat' split) <;> simp
@[simp] theorem State.postEvent_realign (e : EventItem) (s : State) : (s.postEvent e).realign = s.realign := by
  simp only [State.postEvent]; (repeat' split) <;> simp
@[simp] theorem State.postEvent_trafficLast (e : EventItem) (s : State) : (s.postEvent e).trafficLast = s.trafficLast := by
  simp only [State.postEvent]; (repeat' split) <;> simp
@[simp] theorem State.postEvent_engines (e : EventItem) (s : State) : (s.postEvent e).engines = s.engines := by
  simp only [State.postEvent]; (repeat' split) <;> simp
@[simp] theorem State.postEvent_tiles (e : EventItem) (s : State) : (s.postEvent e).tiles = s.tiles := by
  simp only [State.postEvent]; (repeat' split) <;> simp
@[simp] theorem State.postEvent_htiles (e : EventItem) (s : State) : (s.postEvent e).htiles = s.htiles := by
  simp only [State.postEvent]; (repeat' split) <;> simp
@[simp] theorem State.postEvent_lanes (e : EventItem) (s : State) : (s.postEvent e).lanes = s.lanes := by
  simp only [State.postEvent]; (repeat' split) <;> simp
@[simp] theorem State.postEvent_ports (e : EventItem) (s : State) : (s.postEvent e).ports = s.ports := by
  simp only [State.postEvent]; (repeat' split) <;> simp
@[simp] theorem State.postEvent_packs (e : EventItem) (s : State) : (s.postEvent e).packs = s.packs := by
  simp only [State.postEvent]; (repeat' split) <;> simp
@[simp] theorem State.postEvent_cal (e : EventItem) (s : State) : (s.postEvent e).cal = s.cal := by
  simp only [State.postEvent]; (repeat' split) <;> simp
@[simp] theorem State.postEvent_map (e : EventItem) (s : State) : (s.postEvent e).map = s.map := by
  simp only [State.postEvent]; (repeat' split) <;> simp
@[simp] theorem State.postEvent_mapCentre (e : EventItem) (s : State) : (s.postEvent e).mapCentre = s.mapCentre := by
  simp only [State.postEvent]; (repeat' split) <;> simp
@[simp] theorem State.postEvent_mons (e : EventItem) (s : State) : (s.postEvent e).mons = s.mons := by
  simp only [State.postEvent]; (repeat' split) <;> simp
@[simp] theorem State.postEvent_tlmq (e : EventItem) (s : State) : (s.postEvent e).tlmq = s.tlmq := by
  simp only [State.postEvent]; (repeat' split) <;> simp
@[simp] theorem State.postEvent_chains (e : EventItem) (s : State) : (s.postEvent e).chains = s.chains := by
  simp only [State.postEvent]; (repeat' split) <;> simp
@[simp] theorem State.postEvent_dma (e : EventItem) (s : State) : (s.postEvent e).dma = s.dma := by
  simp only [State.postEvent]; (repeat' split) <;> simp
@[simp] theorem State.postEvent_ctr (e : EventItem) (s : State) : (s.postEvent e).ctr = s.ctr := by
  simp only [State.postEvent]; (repeat' split) <;> simp
@[simp] theorem State.postEvent_power (e : EventItem) (s : State) : (s.postEvent e).power = s.power := by
  simp only [State.postEvent]; (repeat' split) <;> simp
@[simp] theorem State.postEvent_recovery (e : EventItem) (s : State) : (s.postEvent e).recovery = s.recovery := by
  simp only [State.postEvent]; (repeat' split) <;> simp
@[simp] theorem State.postEvent_kennel (e : EventItem) (s : State) : (s.postEvent e).kennel = s.kennel := by
  simp only [State.postEvent]; (repeat' split) <;> simp
@[simp] theorem State.postEvent_time (e : EventItem) (s : State) : (s.postEvent e).time = s.time := by
  simp only [State.postEvent]; (repeat' split) <;> simp
@[simp] theorem State.postEvent_sec (e : EventItem) (s : State) : (s.postEvent e).sec = s.sec := by
  simp only [State.postEvent]; (repeat' split) <;> simp
@[simp] theorem State.postEvent_clockIdentity (e : EventItem) (s : State) : (s.postEvent e).clockIdentity = s.clockIdentity := by
  simp only [State.postEvent]; (repeat' split) <;> simp
@[simp] theorem State.postEvent_parityLast (e : EventItem) (s : State) : (s.postEvent e).parityLast = s.parityLast := by
  simp only [State.postEvent]; (repeat' split) <;> simp
@[simp] theorem State.postEvent_readWord (e : EventItem) (s : State) : (s.postEvent e).readWord = s.readWord := by
  simp only [State.postEvent]; (repeat' split) <;> simp
@[simp] theorem State.postEvent_spiReply (e : EventItem) (s : State) : (s.postEvent e).spiReply = s.spiReply := by
  simp only [State.postEvent]; (repeat' split) <;> simp
@[simp] theorem State.postEvent_freeCtr (e : EventItem) (s : State) : (s.postEvent e).freeCtr = s.freeCtr := by
  simp only [State.postEvent]; (repeat' split) <;> simp
@[simp] theorem State.postEvent_pending (e : EventItem) (s : State) : (s.postEvent e).pending = s.pending := by
  simp only [State.postEvent]; (repeat' split) <;> simp
@[simp] theorem State.eng_postEvent (e : EventItem) (j : Nat) (s : State) : (s.postEvent e).eng j = s.eng j := by
  simp [State.eng]
@[simp] theorem State.tile_postEvent (e : EventItem) (j : Nat) (s : State) : (s.postEvent e).tile j = s.tile j := by
  simp [State.tile]
@[simp] theorem State.fenced_postEvent (e : EventItem) (j : Nat) (s : State) : (s.postEvent e).fenced j = s.fenced j := by
  simp [State.fenced]
@[simp] theorem State.lane_postEvent (e : EventItem) (j : Nat) (s : State) : (s.postEvent e).lane j = s.lane j := by
  simp [State.lane]
@[simp] theorem State.htile_postEvent (e : EventItem) (j : Nat) (s : State) : (s.postEvent e).htile j = s.htile j := by
  simp [State.htile]
@[simp] theorem State.portOpt_postEvent (e : EventItem) (j : Nat) (s : State) : (s.postEvent e).port? j = s.port? j := by
  simp [State.port?]
@[simp] theorem State.pack_postEvent (e : EventItem) (j : Nat) (s : State) : (s.postEvent e).pack j = s.pack j := by
  simp [State.pack]
@[simp] theorem State.mc_postEvent (e : EventItem) (j : Nat) (s : State) : (s.postEvent e).mc j = s.mc j := by
  simp [State.mc]
@[simp] theorem State.dc_postEvent (e : EventItem) (j : Nat) (s : State) : (s.postEvent e).dc j = s.dc j := by
  simp [State.dc]
@[simp] theorem State.sysHeld_postEvent (e : EventItem)  (s : State) : (s.postEvent e).sysHeld = s.sysHeld := by
  simp [State.sysHeld]
@[simp] theorem State.tileTemp_postEvent (e : EventItem) (j : Nat) (s : State) : (s.postEvent e).tileTemp j = s.tileTemp j := by
  simp [State.tileTemp]

/-! ### captureNotice -/

@[simp] theorem State.captureNotice_tn (k c e : Nat) (s : State) : (s.captureNotice k c e).tn = s.tn := by
  simp [State.captureNotice]
@[simp] theorem State.captureNotice_tickOffset (k c e : Nat) (s : State) : (s.captureNotice k c e).tickOffset = s.tickOffset := by
  simp [State.captureNotice]
@[simp] theorem State.captureNotice_ticks (k c e : Nat) (s : State) : (s.captureNotice k c e).ticks = s.ticks := by
  simp [State.captureNotice]
@[simp] theorem State.captureNotice_tnProvisional (k c e : Nat) (s : State) : (s.captureNotice k c e).tnProvisional = s.tnProvisional := by
  simp [State.captureNotice]
@[simp] theorem State.captureNotice_realign (k c e : Nat) (s : State) : (s.captureNotice k c e).realign = s.realign := by
  simp [State.captureNotice]
@[simp] theorem State.captureNotice_trafficLast (k c e : Nat) (s : State) : (s.captureNotice k c e).trafficLast = s.trafficLast := by
  simp [State.captureNotice]
@[simp] theorem State.captureNotice_engines (k c e : Nat) (s : State) : (s.captureNotice k c e).engines = s.engines := by
  simp [State.captureNotice]
@[simp] theorem State.captureNotice_htiles (k c e : Nat) (s : State) : (s.captureNotice k c e).htiles = s.htiles := by
  simp [State.captureNotice]
@[simp] theorem State.captureNotice_lanes (k c e : Nat) (s : State) : (s.captureNotice k c e).lanes = s.lanes := by
  simp [State.captureNotice]
@[simp] theorem State.captureNotice_ports (k c e : Nat) (s : State) : (s.captureNotice k c e).ports = s.ports := by
  simp [State.captureNotice]
@[simp] theorem State.captureNotice_packs (k c e : Nat) (s : State) : (s.captureNotice k c e).packs = s.packs := by
  simp [State.captureNotice]
@[simp] theorem State.captureNotice_cal (k c e : Nat) (s : State) : (s.captureNotice k c e).cal = s.cal := by
  simp [State.captureNotice]
@[simp] theorem State.captureNotice_map (k c e : Nat) (s : State) : (s.captureNotice k c e).map = s.map := by
  simp [State.captureNotice]
@[simp] theorem State.captureNotice_mapCentre (k c e : Nat) (s : State) : (s.captureNotice k c e).mapCentre = s.mapCentre := by
  simp [State.captureNotice]
@[simp] theorem State.captureNotice_mons (k c e : Nat) (s : State) : (s.captureNotice k c e).mons = s.mons := by
  simp [State.captureNotice]
@[simp] theorem State.captureNotice_tlmq (k c e : Nat) (s : State) : (s.captureNotice k c e).tlmq = s.tlmq := by
  simp [State.captureNotice]
@[simp] theorem State.captureNotice_chains (k c e : Nat) (s : State) : (s.captureNotice k c e).chains = s.chains := by
  simp [State.captureNotice]
@[simp] theorem State.captureNotice_dma (k c e : Nat) (s : State) : (s.captureNotice k c e).dma = s.dma := by
  simp [State.captureNotice]
@[simp] theorem State.captureNotice_proto (k c e : Nat) (s : State) : (s.captureNotice k c e).proto = s.proto := by
  simp [State.captureNotice]
@[simp] theorem State.captureNotice_dev (k c e : Nat) (s : State) : (s.captureNotice k c e).dev = s.dev := by
  simp [State.captureNotice]
@[simp] theorem State.captureNotice_ctr (k c e : Nat) (s : State) : (s.captureNotice k c e).ctr = s.ctr := by
  simp [State.captureNotice]
@[simp] theorem State.captureNotice_power (k c e : Nat) (s : State) : (s.captureNotice k c e).power = s.power := by
  simp [State.captureNotice]
@[simp] theorem State.captureNotice_recovery (k c e : Nat) (s : State) : (s.captureNotice k c e).recovery = s.recovery := by
  simp [State.captureNotice]
@[simp] theorem State.captureNotice_kennel (k c e : Nat) (s : State) : (s.captureNotice k c e).kennel = s.kennel := by
  simp [State.captureNotice]
@[simp] theorem State.captureNotice_time (k c e : Nat) (s : State) : (s.captureNotice k c e).time = s.time := by
  simp [State.captureNotice]
@[simp] theorem State.captureNotice_sec (k c e : Nat) (s : State) : (s.captureNotice k c e).sec = s.sec := by
  simp [State.captureNotice]
@[simp] theorem State.captureNotice_clockIdentity (k c e : Nat) (s : State) : (s.captureNotice k c e).clockIdentity = s.clockIdentity := by
  simp [State.captureNotice]
@[simp] theorem State.captureNotice_parityLast (k c e : Nat) (s : State) : (s.captureNotice k c e).parityLast = s.parityLast := by
  simp [State.captureNotice]
@[simp] theorem State.captureNotice_readWord (k c e : Nat) (s : State) : (s.captureNotice k c e).readWord = s.readWord := by
  simp [State.captureNotice]
@[simp] theorem State.captureNotice_spiReply (k c e : Nat) (s : State) : (s.captureNotice k c e).spiReply = s.spiReply := by
  simp [State.captureNotice]
@[simp] theorem State.captureNotice_freeCtr (k c e : Nat) (s : State) : (s.captureNotice k c e).freeCtr = s.freeCtr := by
  simp [State.captureNotice]
@[simp] theorem State.captureNotice_pending (k c e : Nat) (s : State) : (s.captureNotice k c e).pending = s.pending := by
  simp [State.captureNotice]
@[simp] theorem State.eng_captureNotice (k c e : Nat) (j : Nat) (s : State) : (s.captureNotice k c e).eng j = s.eng j := by
  simp [State.eng]
@[simp] theorem State.lane_captureNotice (k c e : Nat) (j : Nat) (s : State) : (s.captureNotice k c e).lane j = s.lane j := by
  simp [State.lane]
@[simp] theorem State.htile_captureNotice (k c e : Nat) (j : Nat) (s : State) : (s.captureNotice k c e).htile j = s.htile j := by
  simp [State.htile]
@[simp] theorem State.portOpt_captureNotice (k c e : Nat) (j : Nat) (s : State) : (s.captureNotice k c e).port? j = s.port? j := by
  simp [State.port?]
@[simp] theorem State.pack_captureNotice (k c e : Nat) (j : Nat) (s : State) : (s.captureNotice k c e).pack j = s.pack j := by
  simp [State.pack]
@[simp] theorem State.mc_captureNotice (k c e : Nat) (j : Nat) (s : State) : (s.captureNotice k c e).mc j = s.mc j := by
  simp [State.mc]
@[simp] theorem State.dc_captureNotice (k c e : Nat) (j : Nat) (s : State) : (s.captureNotice k c e).dc j = s.dc j := by
  simp [State.dc]
@[simp] theorem State.qreg_captureNotice (k c e : Nat) (j : Nat) (s : State) : (s.captureNotice k c e).qreg j = s.qreg j := by
  simp [State.qreg]
@[simp] theorem State.cmdq_captureNotice (k c e : Nat) (j : Nat) (s : State) : (s.captureNotice k c e).cmdq j = s.cmdq j := by
  simp [State.cmdq]
@[simp] theorem State.sysHeld_captureNotice (k c e : Nat)  (s : State) : (s.captureNotice k c e).sysHeld = s.sysHeld := by
  simp [State.sysHeld]
@[simp] theorem State.tileTemp_captureNotice (k c e : Nat) (j : Nat) (s : State) : (s.captureNotice k c e).tileTemp j = s.tileTemp j := by
  simp [State.tileTemp]

/-! ### raiseAt -/

@[simp] theorem State.raiseAt_tn (ev : Ev) (k : Kind) (i : Nat) (ws : List Word) (n : Nat) (s : State) : (s.raiseAt ev k i ws n).tn = s.tn := by
  simp only [State.raiseAt]; (repeat' split) <;> simp
@[simp] theorem State.raiseAt_tickOffset (ev : Ev) (k : Kind) (i : Nat) (ws : List Word) (n : Nat) (s : State) : (s.raiseAt ev k i ws n).tickOffset = s.tickOffset := by
  simp only [State.raiseAt]; (repeat' split) <;> simp
@[simp] theorem State.raiseAt_ticks (ev : Ev) (k : Kind) (i : Nat) (ws : List Word) (n : Nat) (s : State) : (s.raiseAt ev k i ws n).ticks = s.ticks := by
  simp only [State.raiseAt]; (repeat' split) <;> simp
@[simp] theorem State.raiseAt_tnProvisional (ev : Ev) (k : Kind) (i : Nat) (ws : List Word) (n : Nat) (s : State) : (s.raiseAt ev k i ws n).tnProvisional = s.tnProvisional := by
  simp only [State.raiseAt]; (repeat' split) <;> simp
@[simp] theorem State.raiseAt_realign (ev : Ev) (k : Kind) (i : Nat) (ws : List Word) (n : Nat) (s : State) : (s.raiseAt ev k i ws n).realign = s.realign := by
  simp only [State.raiseAt]; (repeat' split) <;> simp
@[simp] theorem State.raiseAt_trafficLast (ev : Ev) (k : Kind) (i : Nat) (ws : List Word) (n : Nat) (s : State) : (s.raiseAt ev k i ws n).trafficLast = s.trafficLast := by
  simp only [State.raiseAt]; (repeat' split) <;> simp
@[simp] theorem State.raiseAt_engines (ev : Ev) (k : Kind) (i : Nat) (ws : List Word) (n : Nat) (s : State) : (s.raiseAt ev k i ws n).engines = s.engines := by
  simp only [State.raiseAt]; (repeat' split) <;> simp
@[simp] theorem State.raiseAt_htiles (ev : Ev) (k : Kind) (i : Nat) (ws : List Word) (n : Nat) (s : State) : (s.raiseAt ev k i ws n).htiles = s.htiles := by
  simp only [State.raiseAt]; (repeat' split) <;> simp
@[simp] theorem State.raiseAt_lanes (ev : Ev) (k : Kind) (i : Nat) (ws : List Word) (n : Nat) (s : State) : (s.raiseAt ev k i ws n).lanes = s.lanes := by
  simp only [State.raiseAt]; (repeat' split) <;> simp
@[simp] theorem State.raiseAt_ports (ev : Ev) (k : Kind) (i : Nat) (ws : List Word) (n : Nat) (s : State) : (s.raiseAt ev k i ws n).ports = s.ports := by
  simp only [State.raiseAt]; (repeat' split) <;> simp
@[simp] theorem State.raiseAt_packs (ev : Ev) (k : Kind) (i : Nat) (ws : List Word) (n : Nat) (s : State) : (s.raiseAt ev k i ws n).packs = s.packs := by
  simp only [State.raiseAt]; (repeat' split) <;> simp
@[simp] theorem State.raiseAt_cal (ev : Ev) (k : Kind) (i : Nat) (ws : List Word) (n : Nat) (s : State) : (s.raiseAt ev k i ws n).cal = s.cal := by
  simp only [State.raiseAt]; (repeat' split) <;> simp
@[simp] theorem State.raiseAt_map (ev : Ev) (k : Kind) (i : Nat) (ws : List Word) (n : Nat) (s : State) : (s.raiseAt ev k i ws n).map = s.map := by
  simp only [State.raiseAt]; (repeat' split) <;> simp
@[simp] theorem State.raiseAt_mapCentre (ev : Ev) (k : Kind) (i : Nat) (ws : List Word) (n : Nat) (s : State) : (s.raiseAt ev k i ws n).mapCentre = s.mapCentre := by
  simp only [State.raiseAt]; (repeat' split) <;> simp
@[simp] theorem State.raiseAt_mons (ev : Ev) (k : Kind) (i : Nat) (ws : List Word) (n : Nat) (s : State) : (s.raiseAt ev k i ws n).mons = s.mons := by
  simp only [State.raiseAt]; (repeat' split) <;> simp
@[simp] theorem State.raiseAt_tlmq (ev : Ev) (k : Kind) (i : Nat) (ws : List Word) (n : Nat) (s : State) : (s.raiseAt ev k i ws n).tlmq = s.tlmq := by
  simp only [State.raiseAt]; (repeat' split) <;> simp
@[simp] theorem State.raiseAt_chains (ev : Ev) (k : Kind) (i : Nat) (ws : List Word) (n : Nat) (s : State) : (s.raiseAt ev k i ws n).chains = s.chains := by
  simp only [State.raiseAt]; (repeat' split) <;> simp
@[simp] theorem State.raiseAt_dma (ev : Ev) (k : Kind) (i : Nat) (ws : List Word) (n : Nat) (s : State) : (s.raiseAt ev k i ws n).dma = s.dma := by
  simp only [State.raiseAt]; (repeat' split) <;> simp
@[simp] theorem State.raiseAt_power (ev : Ev) (k : Kind) (i : Nat) (ws : List Word) (n : Nat) (s : State) : (s.raiseAt ev k i ws n).power = s.power := by
  simp only [State.raiseAt]; (repeat' split) <;> simp
@[simp] theorem State.raiseAt_recovery (ev : Ev) (k : Kind) (i : Nat) (ws : List Word) (n : Nat) (s : State) : (s.raiseAt ev k i ws n).recovery = s.recovery := by
  simp only [State.raiseAt]; (repeat' split) <;> simp
@[simp] theorem State.raiseAt_kennel (ev : Ev) (k : Kind) (i : Nat) (ws : List Word) (n : Nat) (s : State) : (s.raiseAt ev k i ws n).kennel = s.kennel := by
  simp only [State.raiseAt]; (repeat' split) <;> simp
@[simp] theorem State.raiseAt_time (ev : Ev) (k : Kind) (i : Nat) (ws : List Word) (n : Nat) (s : State) : (s.raiseAt ev k i ws n).time = s.time := by
  simp only [State.raiseAt]; (repeat' split) <;> simp
@[simp] theorem State.raiseAt_sec (ev : Ev) (k : Kind) (i : Nat) (ws : List Word) (n : Nat) (s : State) : (s.raiseAt ev k i ws n).sec = s.sec := by
  simp only [State.raiseAt]; (repeat' split) <;> simp
@[simp] theorem State.raiseAt_clockIdentity (ev : Ev) (k : Kind) (i : Nat) (ws : List Word) (n : Nat) (s : State) : (s.raiseAt ev k i ws n).clockIdentity = s.clockIdentity := by
  simp only [State.raiseAt]; (repeat' split) <;> simp
@[simp] theorem State.raiseAt_parityLast (ev : Ev) (k : Kind) (i : Nat) (ws : List Word) (n : Nat) (s : State) : (s.raiseAt ev k i ws n).parityLast = s.parityLast := by
  simp only [State.raiseAt]; (repeat' split) <;> simp
@[simp] theorem State.raiseAt_readWord (ev : Ev) (k : Kind) (i : Nat) (ws : List Word) (n : Nat) (s : State) : (s.raiseAt ev k i ws n).readWord = s.readWord := by
  simp only [State.raiseAt]; (repeat' split) <;> simp
@[simp] theorem State.raiseAt_spiReply (ev : Ev) (k : Kind) (i : Nat) (ws : List Word) (n : Nat) (s : State) : (s.raiseAt ev k i ws n).spiReply = s.spiReply := by
  simp only [State.raiseAt]; (repeat' split) <;> simp
@[simp] theorem State.raiseAt_freeCtr (ev : Ev) (k : Kind) (i : Nat) (ws : List Word) (n : Nat) (s : State) : (s.raiseAt ev k i ws n).freeCtr = s.freeCtr := by
  simp only [State.raiseAt]; (repeat' split) <;> simp
@[simp] theorem State.raiseAt_pending (ev : Ev) (k : Kind) (i : Nat) (ws : List Word) (n : Nat) (s : State) : (s.raiseAt ev k i ws n).pending = s.pending := by
  simp only [State.raiseAt]; (repeat' split) <;> simp
@[simp] theorem State.eng_raiseAt (ev : Ev) (k : Kind) (i : Nat) (ws : List Word) (n : Nat) (j : Nat) (s : State) : (s.raiseAt ev k i ws n).eng j = s.eng j := by
  simp [State.eng]
@[simp] theorem State.lane_raiseAt (ev : Ev) (k : Kind) (i : Nat) (ws : List Word) (n : Nat) (j : Nat) (s : State) : (s.raiseAt ev k i ws n).lane j = s.lane j := by
  simp [State.lane]
@[simp] theorem State.htile_raiseAt (ev : Ev) (k : Kind) (i : Nat) (ws : List Word) (n : Nat) (j : Nat) (s : State) : (s.raiseAt ev k i ws n).htile j = s.htile j := by
  simp [State.htile]
@[simp] theorem State.portOpt_raiseAt (ev : Ev) (k : Kind) (i : Nat) (ws : List Word) (n : Nat) (j : Nat) (s : State) : (s.raiseAt ev k i ws n).port? j = s.port? j := by
  simp [State.port?]
@[simp] theorem State.pack_raiseAt (ev : Ev) (k : Kind) (i : Nat) (ws : List Word) (n : Nat) (j : Nat) (s : State) : (s.raiseAt ev k i ws n).pack j = s.pack j := by
  simp [State.pack]
@[simp] theorem State.mc_raiseAt (ev : Ev) (k : Kind) (i : Nat) (ws : List Word) (n : Nat) (j : Nat) (s : State) : (s.raiseAt ev k i ws n).mc j = s.mc j := by
  simp [State.mc]
@[simp] theorem State.dc_raiseAt (ev : Ev) (k : Kind) (i : Nat) (ws : List Word) (n : Nat) (j : Nat) (s : State) : (s.raiseAt ev k i ws n).dc j = s.dc j := by
  simp [State.dc]
@[simp] theorem State.sysHeld_raiseAt (ev : Ev) (k : Kind) (i : Nat) (ws : List Word) (n : Nat)  (s : State) : (s.raiseAt ev k i ws n).sysHeld = s.sysHeld := by
  simp [State.sysHeld]
@[simp] theorem State.tileTemp_raiseAt (ev : Ev) (k : Kind) (i : Nat) (ws : List Word) (n : Nat) (j : Nat) (s : State) : (s.raiseAt ev k i ws n).tileTemp j = s.tileTemp j := by
  simp [State.tileTemp]

/-! ### raise -/

@[simp] theorem State.raise_tn (ev : Ev) (k : Kind) (i : Nat) (ws : List Word) (s : State) : (s.raise ev k i ws).tn = s.tn := by
  simp [State.raise]
@[simp] theorem State.raise_tickOffset (ev : Ev) (k : Kind) (i : Nat) (ws : List Word) (s : State) : (s.raise ev k i ws).tickOffset = s.tickOffset := by
  simp [State.raise]
@[simp] theorem State.raise_ticks (ev : Ev) (k : Kind) (i : Nat) (ws : List Word) (s : State) : (s.raise ev k i ws).ticks = s.ticks := by
  simp [State.raise]
@[simp] theorem State.raise_tnProvisional (ev : Ev) (k : Kind) (i : Nat) (ws : List Word) (s : State) : (s.raise ev k i ws).tnProvisional = s.tnProvisional := by
  simp [State.raise]
@[simp] theorem State.raise_realign (ev : Ev) (k : Kind) (i : Nat) (ws : List Word) (s : State) : (s.raise ev k i ws).realign = s.realign := by
  simp [State.raise]
@[simp] theorem State.raise_trafficLast (ev : Ev) (k : Kind) (i : Nat) (ws : List Word) (s : State) : (s.raise ev k i ws).trafficLast = s.trafficLast := by
  simp [State.raise]
@[simp] theorem State.raise_engines (ev : Ev) (k : Kind) (i : Nat) (ws : List Word) (s : State) : (s.raise ev k i ws).engines = s.engines := by
  simp [State.raise]
@[simp] theorem State.raise_htiles (ev : Ev) (k : Kind) (i : Nat) (ws : List Word) (s : State) : (s.raise ev k i ws).htiles = s.htiles := by
  simp [State.raise]
@[simp] theorem State.raise_lanes (ev : Ev) (k : Kind) (i : Nat) (ws : List Word) (s : State) : (s.raise ev k i ws).lanes = s.lanes := by
  simp [State.raise]
@[simp] theorem State.raise_ports (ev : Ev) (k : Kind) (i : Nat) (ws : List Word) (s : State) : (s.raise ev k i ws).ports = s.ports := by
  simp [State.raise]
@[simp] theorem State.raise_packs (ev : Ev) (k : Kind) (i : Nat) (ws : List Word) (s : State) : (s.raise ev k i ws).packs = s.packs := by
  simp [State.raise]
@[simp] theorem State.raise_cal (ev : Ev) (k : Kind) (i : Nat) (ws : List Word) (s : State) : (s.raise ev k i ws).cal = s.cal := by
  simp [State.raise]
@[simp] theorem State.raise_map (ev : Ev) (k : Kind) (i : Nat) (ws : List Word) (s : State) : (s.raise ev k i ws).map = s.map := by
  simp [State.raise]
@[simp] theorem State.raise_mapCentre (ev : Ev) (k : Kind) (i : Nat) (ws : List Word) (s : State) : (s.raise ev k i ws).mapCentre = s.mapCentre := by
  simp [State.raise]
@[simp] theorem State.raise_mons (ev : Ev) (k : Kind) (i : Nat) (ws : List Word) (s : State) : (s.raise ev k i ws).mons = s.mons := by
  simp [State.raise]
@[simp] theorem State.raise_tlmq (ev : Ev) (k : Kind) (i : Nat) (ws : List Word) (s : State) : (s.raise ev k i ws).tlmq = s.tlmq := by
  simp [State.raise]
@[simp] theorem State.raise_chains (ev : Ev) (k : Kind) (i : Nat) (ws : List Word) (s : State) : (s.raise ev k i ws).chains = s.chains := by
  simp [State.raise]
@[simp] theorem State.raise_dma (ev : Ev) (k : Kind) (i : Nat) (ws : List Word) (s : State) : (s.raise ev k i ws).dma = s.dma := by
  simp [State.raise]
@[simp] theorem State.raise_power (ev : Ev) (k : Kind) (i : Nat) (ws : List Word) (s : State) : (s.raise ev k i ws).power = s.power := by
  simp [State.raise]
@[simp] theorem State.raise_recovery (ev : Ev) (k : Kind) (i : Nat) (ws : List Word) (s : State) : (s.raise ev k i ws).recovery = s.recovery := by
  simp [State.raise]
@[simp] theorem State.raise_kennel (ev : Ev) (k : Kind) (i : Nat) (ws : List Word) (s : State) : (s.raise ev k i ws).kennel = s.kennel := by
  simp [State.raise]
@[simp] theorem State.raise_time (ev : Ev) (k : Kind) (i : Nat) (ws : List Word) (s : State) : (s.raise ev k i ws).time = s.time := by
  simp [State.raise]
@[simp] theorem State.raise_sec (ev : Ev) (k : Kind) (i : Nat) (ws : List Word) (s : State) : (s.raise ev k i ws).sec = s.sec := by
  simp [State.raise]
@[simp] theorem State.raise_clockIdentity (ev : Ev) (k : Kind) (i : Nat) (ws : List Word) (s : State) : (s.raise ev k i ws).clockIdentity = s.clockIdentity := by
  simp [State.raise]
@[simp] theorem State.raise_parityLast (ev : Ev) (k : Kind) (i : Nat) (ws : List Word) (s : State) : (s.raise ev k i ws).parityLast = s.parityLast := by
  simp [State.raise]
@[simp] theorem State.raise_readWord (ev : Ev) (k : Kind) (i : Nat) (ws : List Word) (s : State) : (s.raise ev k i ws).readWord = s.readWord := by
  simp [State.raise]
@[simp] theorem State.raise_spiReply (ev : Ev) (k : Kind) (i : Nat) (ws : List Word) (s : State) : (s.raise ev k i ws).spiReply = s.spiReply := by
  simp [State.raise]
@[simp] theorem State.raise_freeCtr (ev : Ev) (k : Kind) (i : Nat) (ws : List Word) (s : State) : (s.raise ev k i ws).freeCtr = s.freeCtr := by
  simp [State.raise]
@[simp] theorem State.raise_pending (ev : Ev) (k : Kind) (i : Nat) (ws : List Word) (s : State) : (s.raise ev k i ws).pending = s.pending := by
  simp [State.raise]
@[simp] theorem State.eng_raise (ev : Ev) (k : Kind) (i : Nat) (ws : List Word) (j : Nat) (s : State) : (s.raise ev k i ws).eng j = s.eng j := by
  simp [State.eng]
@[simp] theorem State.lane_raise (ev : Ev) (k : Kind) (i : Nat) (ws : List Word) (j : Nat) (s : State) : (s.raise ev k i ws).lane j = s.lane j := by
  simp [State.lane]
@[simp] theorem State.htile_raise (ev : Ev) (k : Kind) (i : Nat) (ws : List Word) (j : Nat) (s : State) : (s.raise ev k i ws).htile j = s.htile j := by
  simp [State.htile]
@[simp] theorem State.portOpt_raise (ev : Ev) (k : Kind) (i : Nat) (ws : List Word) (j : Nat) (s : State) : (s.raise ev k i ws).port? j = s.port? j := by
  simp [State.port?]
@[simp] theorem State.pack_raise (ev : Ev) (k : Kind) (i : Nat) (ws : List Word) (j : Nat) (s : State) : (s.raise ev k i ws).pack j = s.pack j := by
  simp [State.pack]
@[simp] theorem State.mc_raise (ev : Ev) (k : Kind) (i : Nat) (ws : List Word) (j : Nat) (s : State) : (s.raise ev k i ws).mc j = s.mc j := by
  simp [State.mc]
@[simp] theorem State.dc_raise (ev : Ev) (k : Kind) (i : Nat) (ws : List Word) (j : Nat) (s : State) : (s.raise ev k i ws).dc j = s.dc j := by
  simp [State.dc]
@[simp] theorem State.sysHeld_raise (ev : Ev) (k : Kind) (i : Nat) (ws : List Word)  (s : State) : (s.raise ev k i ws).sysHeld = s.sysHeld := by
  simp [State.sysHeld]
@[simp] theorem State.tileTemp_raise (ev : Ev) (k : Kind) (i : Nat) (ws : List Word) (j : Nat) (s : State) : (s.raise ev k i ws).tileTemp j = s.tileTemp j := by
  simp [State.tileTemp]

/-! ### lifeFull -/

@[simp] theorem State.lifeFull_tn (o : Nat) (s : State) : (s.lifeFull o).tn = s.tn := by
  unfold State.lifeFull; split <;> simp
@[simp] theorem State.lifeFull_tickOffset (o : Nat) (s : State) : (s.lifeFull o).tickOffset = s.tickOffset := by
  unfold State.lifeFull; split <;> simp
@[simp] theorem State.lifeFull_ticks (o : Nat) (s : State) : (s.lifeFull o).ticks = s.ticks := by
  unfold State.lifeFull; split <;> simp
@[simp] theorem State.lifeFull_tnProvisional (o : Nat) (s : State) : (s.lifeFull o).tnProvisional = s.tnProvisional := by
  unfold State.lifeFull; split <;> simp
@[simp] theorem State.lifeFull_realign (o : Nat) (s : State) : (s.lifeFull o).realign = s.realign := by
  unfold State.lifeFull; split <;> simp
@[simp] theorem State.lifeFull_trafficLast (o : Nat) (s : State) : (s.lifeFull o).trafficLast = s.trafficLast := by
  unfold State.lifeFull; split <;> simp
@[simp] theorem State.lifeFull_engines (o : Nat) (s : State) : (s.lifeFull o).engines = s.engines := by
  unfold State.lifeFull; split <;> simp
@[simp] theorem State.lifeFull_htiles (o : Nat) (s : State) : (s.lifeFull o).htiles = s.htiles := by
  unfold State.lifeFull; split <;> simp
@[simp] theorem State.lifeFull_lanes (o : Nat) (s : State) : (s.lifeFull o).lanes = s.lanes := by
  unfold State.lifeFull; split <;> simp
@[simp] theorem State.lifeFull_ports (o : Nat) (s : State) : (s.lifeFull o).ports = s.ports := by
  unfold State.lifeFull; split <;> simp
@[simp] theorem State.lifeFull_packs (o : Nat) (s : State) : (s.lifeFull o).packs = s.packs := by
  unfold State.lifeFull; split <;> simp
@[simp] theorem State.lifeFull_cal (o : Nat) (s : State) : (s.lifeFull o).cal = s.cal := by
  unfold State.lifeFull; split <;> simp
@[simp] theorem State.lifeFull_map (o : Nat) (s : State) : (s.lifeFull o).map = s.map := by
  unfold State.lifeFull; split <;> simp
@[simp] theorem State.lifeFull_mapCentre (o : Nat) (s : State) : (s.lifeFull o).mapCentre = s.mapCentre := by
  unfold State.lifeFull; split <;> simp
@[simp] theorem State.lifeFull_mons (o : Nat) (s : State) : (s.lifeFull o).mons = s.mons := by
  unfold State.lifeFull; split <;> simp
@[simp] theorem State.lifeFull_tlmq (o : Nat) (s : State) : (s.lifeFull o).tlmq = s.tlmq := by
  unfold State.lifeFull; split <;> simp
@[simp] theorem State.lifeFull_chains (o : Nat) (s : State) : (s.lifeFull o).chains = s.chains := by
  unfold State.lifeFull; split <;> simp
@[simp] theorem State.lifeFull_dma (o : Nat) (s : State) : (s.lifeFull o).dma = s.dma := by
  unfold State.lifeFull; split <;> simp
@[simp] theorem State.lifeFull_power (o : Nat) (s : State) : (s.lifeFull o).power = s.power := by
  unfold State.lifeFull; split <;> simp
@[simp] theorem State.lifeFull_recovery (o : Nat) (s : State) : (s.lifeFull o).recovery = s.recovery := by
  unfold State.lifeFull; split <;> simp
@[simp] theorem State.lifeFull_time (o : Nat) (s : State) : (s.lifeFull o).time = s.time := by
  unfold State.lifeFull; split <;> simp
@[simp] theorem State.lifeFull_sec (o : Nat) (s : State) : (s.lifeFull o).sec = s.sec := by
  unfold State.lifeFull; split <;> simp
@[simp] theorem State.lifeFull_clockIdentity (o : Nat) (s : State) : (s.lifeFull o).clockIdentity = s.clockIdentity := by
  unfold State.lifeFull; split <;> simp
@[simp] theorem State.lifeFull_parityLast (o : Nat) (s : State) : (s.lifeFull o).parityLast = s.parityLast := by
  unfold State.lifeFull; split <;> simp
@[simp] theorem State.lifeFull_readWord (o : Nat) (s : State) : (s.lifeFull o).readWord = s.readWord := by
  unfold State.lifeFull; split <;> simp
@[simp] theorem State.lifeFull_spiReply (o : Nat) (s : State) : (s.lifeFull o).spiReply = s.spiReply := by
  unfold State.lifeFull; split <;> simp
@[simp] theorem State.lifeFull_freeCtr (o : Nat) (s : State) : (s.lifeFull o).freeCtr = s.freeCtr := by
  unfold State.lifeFull; split <;> simp
@[simp] theorem State.lifeFull_pending (o : Nat) (s : State) : (s.lifeFull o).pending = s.pending := by
  unfold State.lifeFull; split <;> simp
@[simp] theorem State.eng_lifeFull (o : Nat) (j : Nat) (s : State) : (s.lifeFull o).eng j = s.eng j := by
  simp [State.eng]
@[simp] theorem State.lane_lifeFull (o : Nat) (j : Nat) (s : State) : (s.lifeFull o).lane j = s.lane j := by
  simp [State.lane]
@[simp] theorem State.htile_lifeFull (o : Nat) (j : Nat) (s : State) : (s.lifeFull o).htile j = s.htile j := by
  simp [State.htile]
@[simp] theorem State.portOpt_lifeFull (o : Nat) (j : Nat) (s : State) : (s.lifeFull o).port? j = s.port? j := by
  simp [State.port?]
@[simp] theorem State.pack_lifeFull (o : Nat) (j : Nat) (s : State) : (s.lifeFull o).pack j = s.pack j := by
  simp [State.pack]
@[simp] theorem State.mc_lifeFull (o : Nat) (j : Nat) (s : State) : (s.lifeFull o).mc j = s.mc j := by
  simp [State.mc]
@[simp] theorem State.dc_lifeFull (o : Nat) (j : Nat) (s : State) : (s.lifeFull o).dc j = s.dc j := by
  simp [State.dc]
@[simp] theorem State.sysHeld_lifeFull (o : Nat)  (s : State) : (s.lifeFull o).sysHeld = s.sysHeld := by
  simp [State.sysHeld]
@[simp] theorem State.tileTemp_lifeFull (o : Nat) (j : Nat) (s : State) : (s.lifeFull o).tileTemp j = s.tileTemp j := by
  simp [State.tileTemp]

/-! ### lifeBump -/

@[simp] theorem State.lifeBump_tn (o p n : Nat) (g : LifeRecord → Nat) (w : Nat → LifeRecord → LifeRecord) (s : State) : (s.lifeBump o p n g w).tn = s.tn := by
  simp only [State.lifeBump]; split <;> simp
@[simp] theorem State.lifeBump_tickOffset (o p n : Nat) (g : LifeRecord → Nat) (w : Nat → LifeRecord → LifeRecord) (s : State) : (s.lifeBump o p n g w).tickOffset = s.tickOffset := by
  simp only [State.lifeBump]; split <;> simp
@[simp] theorem State.lifeBump_ticks (o p n : Nat) (g : LifeRecord → Nat) (w : Nat → LifeRecord → LifeRecord) (s : State) : (s.lifeBump o p n g w).ticks = s.ticks := by
  simp only [State.lifeBump]; split <;> simp
@[simp] theorem State.lifeBump_tnProvisional (o p n : Nat) (g : LifeRecord → Nat) (w : Nat → LifeRecord → LifeRecord) (s : State) : (s.lifeBump o p n g w).tnProvisional = s.tnProvisional := by
  simp only [State.lifeBump]; split <;> simp
@[simp] theorem State.lifeBump_realign (o p n : Nat) (g : LifeRecord → Nat) (w : Nat → LifeRecord → LifeRecord) (s : State) : (s.lifeBump o p n g w).realign = s.realign := by
  simp only [State.lifeBump]; split <;> simp
@[simp] theorem State.lifeBump_trafficLast (o p n : Nat) (g : LifeRecord → Nat) (w : Nat → LifeRecord → LifeRecord) (s : State) : (s.lifeBump o p n g w).trafficLast = s.trafficLast := by
  simp only [State.lifeBump]; split <;> simp
@[simp] theorem State.lifeBump_engines (o p n : Nat) (g : LifeRecord → Nat) (w : Nat → LifeRecord → LifeRecord) (s : State) : (s.lifeBump o p n g w).engines = s.engines := by
  simp only [State.lifeBump]; split <;> simp
@[simp] theorem State.lifeBump_htiles (o p n : Nat) (g : LifeRecord → Nat) (w : Nat → LifeRecord → LifeRecord) (s : State) : (s.lifeBump o p n g w).htiles = s.htiles := by
  simp only [State.lifeBump]; split <;> simp
@[simp] theorem State.lifeBump_lanes (o p n : Nat) (g : LifeRecord → Nat) (w : Nat → LifeRecord → LifeRecord) (s : State) : (s.lifeBump o p n g w).lanes = s.lanes := by
  simp only [State.lifeBump]; split <;> simp
@[simp] theorem State.lifeBump_ports (o p n : Nat) (g : LifeRecord → Nat) (w : Nat → LifeRecord → LifeRecord) (s : State) : (s.lifeBump o p n g w).ports = s.ports := by
  simp only [State.lifeBump]; split <;> simp
@[simp] theorem State.lifeBump_packs (o p n : Nat) (g : LifeRecord → Nat) (w : Nat → LifeRecord → LifeRecord) (s : State) : (s.lifeBump o p n g w).packs = s.packs := by
  simp only [State.lifeBump]; split <;> simp
@[simp] theorem State.lifeBump_cal (o p n : Nat) (g : LifeRecord → Nat) (w : Nat → LifeRecord → LifeRecord) (s : State) : (s.lifeBump o p n g w).cal = s.cal := by
  simp only [State.lifeBump]; split <;> simp
@[simp] theorem State.lifeBump_map (o p n : Nat) (g : LifeRecord → Nat) (w : Nat → LifeRecord → LifeRecord) (s : State) : (s.lifeBump o p n g w).map = s.map := by
  simp only [State.lifeBump]; split <;> simp
@[simp] theorem State.lifeBump_mapCentre (o p n : Nat) (g : LifeRecord → Nat) (w : Nat → LifeRecord → LifeRecord) (s : State) : (s.lifeBump o p n g w).mapCentre = s.mapCentre := by
  simp only [State.lifeBump]; split <;> simp
@[simp] theorem State.lifeBump_mons (o p n : Nat) (g : LifeRecord → Nat) (w : Nat → LifeRecord → LifeRecord) (s : State) : (s.lifeBump o p n g w).mons = s.mons := by
  simp only [State.lifeBump]; split <;> simp
@[simp] theorem State.lifeBump_tlmq (o p n : Nat) (g : LifeRecord → Nat) (w : Nat → LifeRecord → LifeRecord) (s : State) : (s.lifeBump o p n g w).tlmq = s.tlmq := by
  simp only [State.lifeBump]; split <;> simp
@[simp] theorem State.lifeBump_chains (o p n : Nat) (g : LifeRecord → Nat) (w : Nat → LifeRecord → LifeRecord) (s : State) : (s.lifeBump o p n g w).chains = s.chains := by
  simp only [State.lifeBump]; split <;> simp
@[simp] theorem State.lifeBump_dma (o p n : Nat) (g : LifeRecord → Nat) (w : Nat → LifeRecord → LifeRecord) (s : State) : (s.lifeBump o p n g w).dma = s.dma := by
  simp only [State.lifeBump]; split <;> simp
@[simp] theorem State.lifeBump_power (o p n : Nat) (g : LifeRecord → Nat) (w : Nat → LifeRecord → LifeRecord) (s : State) : (s.lifeBump o p n g w).power = s.power := by
  simp only [State.lifeBump]; split <;> simp
@[simp] theorem State.lifeBump_recovery (o p n : Nat) (g : LifeRecord → Nat) (w : Nat → LifeRecord → LifeRecord) (s : State) : (s.lifeBump o p n g w).recovery = s.recovery := by
  simp only [State.lifeBump]; split <;> simp
@[simp] theorem State.lifeBump_time (o p n : Nat) (g : LifeRecord → Nat) (w : Nat → LifeRecord → LifeRecord) (s : State) : (s.lifeBump o p n g w).time = s.time := by
  simp only [State.lifeBump]; split <;> simp
@[simp] theorem State.lifeBump_sec (o p n : Nat) (g : LifeRecord → Nat) (w : Nat → LifeRecord → LifeRecord) (s : State) : (s.lifeBump o p n g w).sec = s.sec := by
  simp only [State.lifeBump]; split <;> simp
@[simp] theorem State.lifeBump_clockIdentity (o p n : Nat) (g : LifeRecord → Nat) (w : Nat → LifeRecord → LifeRecord) (s : State) : (s.lifeBump o p n g w).clockIdentity = s.clockIdentity := by
  simp only [State.lifeBump]; split <;> simp
@[simp] theorem State.lifeBump_parityLast (o p n : Nat) (g : LifeRecord → Nat) (w : Nat → LifeRecord → LifeRecord) (s : State) : (s.lifeBump o p n g w).parityLast = s.parityLast := by
  simp only [State.lifeBump]; split <;> simp
@[simp] theorem State.lifeBump_readWord (o p n : Nat) (g : LifeRecord → Nat) (w : Nat → LifeRecord → LifeRecord) (s : State) : (s.lifeBump o p n g w).readWord = s.readWord := by
  simp only [State.lifeBump]; split <;> simp
@[simp] theorem State.lifeBump_spiReply (o p n : Nat) (g : LifeRecord → Nat) (w : Nat → LifeRecord → LifeRecord) (s : State) : (s.lifeBump o p n g w).spiReply = s.spiReply := by
  simp only [State.lifeBump]; split <;> simp
@[simp] theorem State.lifeBump_freeCtr (o p n : Nat) (g : LifeRecord → Nat) (w : Nat → LifeRecord → LifeRecord) (s : State) : (s.lifeBump o p n g w).freeCtr = s.freeCtr := by
  simp only [State.lifeBump]; split <;> simp
@[simp] theorem State.lifeBump_pending (o p n : Nat) (g : LifeRecord → Nat) (w : Nat → LifeRecord → LifeRecord) (s : State) : (s.lifeBump o p n g w).pending = s.pending := by
  simp only [State.lifeBump]; split <;> simp
@[simp] theorem State.eng_lifeBump (o p n : Nat) (g : LifeRecord → Nat) (w : Nat → LifeRecord → LifeRecord) (j : Nat) (s : State) : (s.lifeBump o p n g w).eng j = s.eng j := by
  simp [State.eng]
@[simp] theorem State.lane_lifeBump (o p n : Nat) (g : LifeRecord → Nat) (w : Nat → LifeRecord → LifeRecord) (j : Nat) (s : State) : (s.lifeBump o p n g w).lane j = s.lane j := by
  simp [State.lane]
@[simp] theorem State.htile_lifeBump (o p n : Nat) (g : LifeRecord → Nat) (w : Nat → LifeRecord → LifeRecord) (j : Nat) (s : State) : (s.lifeBump o p n g w).htile j = s.htile j := by
  simp [State.htile]
@[simp] theorem State.portOpt_lifeBump (o p n : Nat) (g : LifeRecord → Nat) (w : Nat → LifeRecord → LifeRecord) (j : Nat) (s : State) : (s.lifeBump o p n g w).port? j = s.port? j := by
  simp [State.port?]
@[simp] theorem State.pack_lifeBump (o p n : Nat) (g : LifeRecord → Nat) (w : Nat → LifeRecord → LifeRecord) (j : Nat) (s : State) : (s.lifeBump o p n g w).pack j = s.pack j := by
  simp [State.pack]
@[simp] theorem State.mc_lifeBump (o p n : Nat) (g : LifeRecord → Nat) (w : Nat → LifeRecord → LifeRecord) (j : Nat) (s : State) : (s.lifeBump o p n g w).mc j = s.mc j := by
  simp [State.mc]
@[simp] theorem State.dc_lifeBump (o p n : Nat) (g : LifeRecord → Nat) (w : Nat → LifeRecord → LifeRecord) (j : Nat) (s : State) : (s.lifeBump o p n g w).dc j = s.dc j := by
  simp [State.dc]
@[simp] theorem State.sysHeld_lifeBump (o p n : Nat) (g : LifeRecord → Nat) (w : Nat → LifeRecord → LifeRecord)  (s : State) : (s.lifeBump o p n g w).sysHeld = s.sysHeld := by
  simp [State.sysHeld]
@[simp] theorem State.tileTemp_lifeBump (o p n : Nat) (g : LifeRecord → Nat) (w : Nat → LifeRecord → LifeRecord) (j : Nat) (s : State) : (s.lifeBump o p n g w).tileTemp j = s.tileTemp j := by
  simp [State.tileTemp]

/-! ### commitResp -/

@[simp] theorem State.commitResp_tn (n : Nat) (r : Resp) (s : State) : (s.commitResp n r).tn = s.tn := by
  simp only [State.commitResp]; split <;> simp
@[simp] theorem State.commitResp_tickOffset (n : Nat) (r : Resp) (s : State) : (s.commitResp n r).tickOffset = s.tickOffset := by
  simp only [State.commitResp]; split <;> simp
@[simp] theorem State.commitResp_ticks (n : Nat) (r : Resp) (s : State) : (s.commitResp n r).ticks = s.ticks := by
  simp only [State.commitResp]; split <;> simp
@[simp] theorem State.commitResp_tnProvisional (n : Nat) (r : Resp) (s : State) : (s.commitResp n r).tnProvisional = s.tnProvisional := by
  simp only [State.commitResp]; split <;> simp
@[simp] theorem State.commitResp_realign (n : Nat) (r : Resp) (s : State) : (s.commitResp n r).realign = s.realign := by
  simp only [State.commitResp]; split <;> simp
@[simp] theorem State.commitResp_trafficLast (n : Nat) (r : Resp) (s : State) : (s.commitResp n r).trafficLast = s.trafficLast := by
  simp only [State.commitResp]; split <;> simp
@[simp] theorem State.commitResp_engines (n : Nat) (r : Resp) (s : State) : (s.commitResp n r).engines = s.engines := by
  simp only [State.commitResp]; split <;> simp
@[simp] theorem State.commitResp_tiles (n : Nat) (r : Resp) (s : State) : (s.commitResp n r).tiles = s.tiles := by
  simp only [State.commitResp]; split <;> simp
@[simp] theorem State.commitResp_htiles (n : Nat) (r : Resp) (s : State) : (s.commitResp n r).htiles = s.htiles := by
  simp only [State.commitResp]; split <;> simp
@[simp] theorem State.commitResp_lanes (n : Nat) (r : Resp) (s : State) : (s.commitResp n r).lanes = s.lanes := by
  simp only [State.commitResp]; split <;> simp
@[simp] theorem State.commitResp_ports (n : Nat) (r : Resp) (s : State) : (s.commitResp n r).ports = s.ports := by
  simp only [State.commitResp]; split <;> simp
@[simp] theorem State.commitResp_packs (n : Nat) (r : Resp) (s : State) : (s.commitResp n r).packs = s.packs := by
  simp only [State.commitResp]; split <;> simp
@[simp] theorem State.commitResp_cal (n : Nat) (r : Resp) (s : State) : (s.commitResp n r).cal = s.cal := by
  simp only [State.commitResp]; split <;> simp
@[simp] theorem State.commitResp_map (n : Nat) (r : Resp) (s : State) : (s.commitResp n r).map = s.map := by
  simp only [State.commitResp]; split <;> simp
@[simp] theorem State.commitResp_mapCentre (n : Nat) (r : Resp) (s : State) : (s.commitResp n r).mapCentre = s.mapCentre := by
  simp only [State.commitResp]; split <;> simp
@[simp] theorem State.commitResp_mons (n : Nat) (r : Resp) (s : State) : (s.commitResp n r).mons = s.mons := by
  simp only [State.commitResp]; split <;> simp
@[simp] theorem State.commitResp_tlmq (n : Nat) (r : Resp) (s : State) : (s.commitResp n r).tlmq = s.tlmq := by
  simp only [State.commitResp]; split <;> simp
@[simp] theorem State.commitResp_chains (n : Nat) (r : Resp) (s : State) : (s.commitResp n r).chains = s.chains := by
  simp only [State.commitResp]; split <;> simp
@[simp] theorem State.commitResp_dma (n : Nat) (r : Resp) (s : State) : (s.commitResp n r).dma = s.dma := by
  simp only [State.commitResp]; split <;> simp
@[simp] theorem State.commitResp_ctr (n : Nat) (r : Resp) (s : State) : (s.commitResp n r).ctr = s.ctr := by
  simp only [State.commitResp]; split <;> simp
@[simp] theorem State.commitResp_power (n : Nat) (r : Resp) (s : State) : (s.commitResp n r).power = s.power := by
  simp only [State.commitResp]; split <;> simp
@[simp] theorem State.commitResp_recovery (n : Nat) (r : Resp) (s : State) : (s.commitResp n r).recovery = s.recovery := by
  simp only [State.commitResp]; split <;> simp
@[simp] theorem State.commitResp_kennel (n : Nat) (r : Resp) (s : State) : (s.commitResp n r).kennel = s.kennel := by
  simp only [State.commitResp]; split <;> simp
@[simp] theorem State.commitResp_time (n : Nat) (r : Resp) (s : State) : (s.commitResp n r).time = s.time := by
  simp only [State.commitResp]; split <;> simp
@[simp] theorem State.commitResp_sec (n : Nat) (r : Resp) (s : State) : (s.commitResp n r).sec = s.sec := by
  simp only [State.commitResp]; split <;> simp
@[simp] theorem State.commitResp_clockIdentity (n : Nat) (r : Resp) (s : State) : (s.commitResp n r).clockIdentity = s.clockIdentity := by
  simp only [State.commitResp]; split <;> simp
@[simp] theorem State.commitResp_parityLast (n : Nat) (r : Resp) (s : State) : (s.commitResp n r).parityLast = s.parityLast := by
  simp only [State.commitResp]; split <;> simp
@[simp] theorem State.commitResp_readWord (n : Nat) (r : Resp) (s : State) : (s.commitResp n r).readWord = s.readWord := by
  simp only [State.commitResp]; split <;> simp
@[simp] theorem State.commitResp_spiReply (n : Nat) (r : Resp) (s : State) : (s.commitResp n r).spiReply = s.spiReply := by
  simp only [State.commitResp]; split <;> simp
@[simp] theorem State.commitResp_freeCtr (n : Nat) (r : Resp) (s : State) : (s.commitResp n r).freeCtr = s.freeCtr := by
  simp only [State.commitResp]; split <;> simp
@[simp] theorem State.commitResp_pending (n : Nat) (r : Resp) (s : State) : (s.commitResp n r).pending = s.pending := by
  simp only [State.commitResp]; split <;> simp
@[simp] theorem State.eng_commitResp (n : Nat) (r : Resp) (j : Nat) (s : State) : (s.commitResp n r).eng j = s.eng j := by
  simp [State.eng]
@[simp] theorem State.tile_commitResp (n : Nat) (r : Resp) (j : Nat) (s : State) : (s.commitResp n r).tile j = s.tile j := by
  simp [State.tile]
@[simp] theorem State.fenced_commitResp (n : Nat) (r : Resp) (j : Nat) (s : State) : (s.commitResp n r).fenced j = s.fenced j := by
  simp [State.fenced]
@[simp] theorem State.lane_commitResp (n : Nat) (r : Resp) (j : Nat) (s : State) : (s.commitResp n r).lane j = s.lane j := by
  simp [State.lane]
@[simp] theorem State.htile_commitResp (n : Nat) (r : Resp) (j : Nat) (s : State) : (s.commitResp n r).htile j = s.htile j := by
  simp [State.htile]
@[simp] theorem State.portOpt_commitResp (n : Nat) (r : Resp) (j : Nat) (s : State) : (s.commitResp n r).port? j = s.port? j := by
  simp [State.port?]
@[simp] theorem State.pack_commitResp (n : Nat) (r : Resp) (j : Nat) (s : State) : (s.commitResp n r).pack j = s.pack j := by
  simp [State.pack]
@[simp] theorem State.mc_commitResp (n : Nat) (r : Resp) (j : Nat) (s : State) : (s.commitResp n r).mc j = s.mc j := by
  simp [State.mc]
@[simp] theorem State.dc_commitResp (n : Nat) (r : Resp) (j : Nat) (s : State) : (s.commitResp n r).dc j = s.dc j := by
  simp [State.dc]
@[simp] theorem State.sysHeld_commitResp (n : Nat) (r : Resp)  (s : State) : (s.commitResp n r).sysHeld = s.sysHeld := by
  simp [State.sysHeld]
@[simp] theorem State.tileTemp_commitResp (n : Nat) (r : Resp) (j : Nat) (s : State) : (s.commitResp n r).tileTemp j = s.tileTemp j := by
  simp [State.tileTemp]

/-! ### postResp -/

@[simp] theorem State.postResp_tn (src : Source) (r : Resp) (s : State) : (s.postResp src r).tn = s.tn := by
  simp only [State.postResp]; (repeat' split) <;> simp
@[simp] theorem State.postResp_tickOffset (src : Source) (r : Resp) (s : State) : (s.postResp src r).tickOffset = s.tickOffset := by
  simp only [State.postResp]; (repeat' split) <;> simp
@[simp] theorem State.postResp_ticks (src : Source) (r : Resp) (s : State) : (s.postResp src r).ticks = s.ticks := by
  simp only [State.postResp]; (repeat' split) <;> simp
@[simp] theorem State.postResp_tnProvisional (src : Source) (r : Resp) (s : State) : (s.postResp src r).tnProvisional = s.tnProvisional := by
  simp only [State.postResp]; (repeat' split) <;> simp
@[simp] theorem State.postResp_realign (src : Source) (r : Resp) (s : State) : (s.postResp src r).realign = s.realign := by
  simp only [State.postResp]; (repeat' split) <;> simp
@[simp] theorem State.postResp_trafficLast (src : Source) (r : Resp) (s : State) : (s.postResp src r).trafficLast = s.trafficLast := by
  simp only [State.postResp]; (repeat' split) <;> simp
@[simp] theorem State.postResp_engines (src : Source) (r : Resp) (s : State) : (s.postResp src r).engines = s.engines := by
  simp only [State.postResp]; (repeat' split) <;> simp
@[simp] theorem State.postResp_tiles (src : Source) (r : Resp) (s : State) : (s.postResp src r).tiles = s.tiles := by
  simp only [State.postResp]; (repeat' split) <;> simp
@[simp] theorem State.postResp_htiles (src : Source) (r : Resp) (s : State) : (s.postResp src r).htiles = s.htiles := by
  simp only [State.postResp]; (repeat' split) <;> simp
@[simp] theorem State.postResp_lanes (src : Source) (r : Resp) (s : State) : (s.postResp src r).lanes = s.lanes := by
  simp only [State.postResp]; (repeat' split) <;> simp
@[simp] theorem State.postResp_ports (src : Source) (r : Resp) (s : State) : (s.postResp src r).ports = s.ports := by
  simp only [State.postResp]; (repeat' split) <;> simp
@[simp] theorem State.postResp_packs (src : Source) (r : Resp) (s : State) : (s.postResp src r).packs = s.packs := by
  simp only [State.postResp]; (repeat' split) <;> simp
@[simp] theorem State.postResp_cal (src : Source) (r : Resp) (s : State) : (s.postResp src r).cal = s.cal := by
  simp only [State.postResp]; (repeat' split) <;> simp
@[simp] theorem State.postResp_map (src : Source) (r : Resp) (s : State) : (s.postResp src r).map = s.map := by
  simp only [State.postResp]; (repeat' split) <;> simp
@[simp] theorem State.postResp_mapCentre (src : Source) (r : Resp) (s : State) : (s.postResp src r).mapCentre = s.mapCentre := by
  simp only [State.postResp]; (repeat' split) <;> simp
@[simp] theorem State.postResp_mons (src : Source) (r : Resp) (s : State) : (s.postResp src r).mons = s.mons := by
  simp only [State.postResp]; (repeat' split) <;> simp
@[simp] theorem State.postResp_tlmq (src : Source) (r : Resp) (s : State) : (s.postResp src r).tlmq = s.tlmq := by
  simp only [State.postResp]; (repeat' split) <;> simp
@[simp] theorem State.postResp_chains (src : Source) (r : Resp) (s : State) : (s.postResp src r).chains = s.chains := by
  simp only [State.postResp]; (repeat' split) <;> simp
@[simp] theorem State.postResp_dma (src : Source) (r : Resp) (s : State) : (s.postResp src r).dma = s.dma := by
  simp only [State.postResp]; (repeat' split) <;> simp
@[simp] theorem State.postResp_ctr (src : Source) (r : Resp) (s : State) : (s.postResp src r).ctr = s.ctr := by
  simp only [State.postResp]; (repeat' split) <;> simp
@[simp] theorem State.postResp_power (src : Source) (r : Resp) (s : State) : (s.postResp src r).power = s.power := by
  simp only [State.postResp]; (repeat' split) <;> simp
@[simp] theorem State.postResp_recovery (src : Source) (r : Resp) (s : State) : (s.postResp src r).recovery = s.recovery := by
  simp only [State.postResp]; (repeat' split) <;> simp
@[simp] theorem State.postResp_kennel (src : Source) (r : Resp) (s : State) : (s.postResp src r).kennel = s.kennel := by
  simp only [State.postResp]; (repeat' split) <;> simp
@[simp] theorem State.postResp_time (src : Source) (r : Resp) (s : State) : (s.postResp src r).time = s.time := by
  simp only [State.postResp]; (repeat' split) <;> simp
@[simp] theorem State.postResp_sec (src : Source) (r : Resp) (s : State) : (s.postResp src r).sec = s.sec := by
  simp only [State.postResp]; (repeat' split) <;> simp
@[simp] theorem State.postResp_clockIdentity (src : Source) (r : Resp) (s : State) : (s.postResp src r).clockIdentity = s.clockIdentity := by
  simp only [State.postResp]; (repeat' split) <;> simp
@[simp] theorem State.postResp_parityLast (src : Source) (r : Resp) (s : State) : (s.postResp src r).parityLast = s.parityLast := by
  simp only [State.postResp]; (repeat' split) <;> simp
@[simp] theorem State.postResp_readWord (src : Source) (r : Resp) (s : State) : (s.postResp src r).readWord = s.readWord := by
  simp only [State.postResp]; (repeat' split) <;> simp
@[simp] theorem State.postResp_spiReply (src : Source) (r : Resp) (s : State) : (s.postResp src r).spiReply = s.spiReply := by
  simp only [State.postResp]; (repeat' split) <;> simp
@[simp] theorem State.postResp_freeCtr (src : Source) (r : Resp) (s : State) : (s.postResp src r).freeCtr = s.freeCtr := by
  simp only [State.postResp]; (repeat' split) <;> simp
@[simp] theorem State.postResp_pending (src : Source) (r : Resp) (s : State) : (s.postResp src r).pending = s.pending := by
  simp only [State.postResp]; (repeat' split) <;> simp
@[simp] theorem State.eng_postResp (src : Source) (r : Resp) (j : Nat) (s : State) : (s.postResp src r).eng j = s.eng j := by
  simp [State.eng]
@[simp] theorem State.tile_postResp (src : Source) (r : Resp) (j : Nat) (s : State) : (s.postResp src r).tile j = s.tile j := by
  simp [State.tile]
@[simp] theorem State.fenced_postResp (src : Source) (r : Resp) (j : Nat) (s : State) : (s.postResp src r).fenced j = s.fenced j := by
  simp [State.fenced]
@[simp] theorem State.lane_postResp (src : Source) (r : Resp) (j : Nat) (s : State) : (s.postResp src r).lane j = s.lane j := by
  simp [State.lane]
@[simp] theorem State.htile_postResp (src : Source) (r : Resp) (j : Nat) (s : State) : (s.postResp src r).htile j = s.htile j := by
  simp [State.htile]
@[simp] theorem State.portOpt_postResp (src : Source) (r : Resp) (j : Nat) (s : State) : (s.postResp src r).port? j = s.port? j := by
  simp [State.port?]
@[simp] theorem State.pack_postResp (src : Source) (r : Resp) (j : Nat) (s : State) : (s.postResp src r).pack j = s.pack j := by
  simp [State.pack]
@[simp] theorem State.mc_postResp (src : Source) (r : Resp) (j : Nat) (s : State) : (s.postResp src r).mc j = s.mc j := by
  simp [State.mc]
@[simp] theorem State.dc_postResp (src : Source) (r : Resp) (j : Nat) (s : State) : (s.postResp src r).dc j = s.dc j := by
  simp [State.dc]
@[simp] theorem State.sysHeld_postResp (src : Source) (r : Resp)  (s : State) : (s.postResp src r).sysHeld = s.sysHeld := by
  simp [State.sysHeld]
@[simp] theorem State.tileTemp_postResp (src : Source) (r : Resp) (j : Nat) (s : State) : (s.postResp src r).tileTemp j = s.tileTemp j := by
  simp [State.tileTemp]

/-! ### respond -/

@[simp] theorem State.respond_tn (t : Ticket) (fin : Bool) (st : Status) (d n : Nat) (ws : List Word) (s : State) : (s.respond t fin st d n ws).tn = s.tn := by
  simp only [State.respond]; (repeat' split) <;> simp
@[simp] theorem State.respond_tickOffset (t : Ticket) (fin : Bool) (st : Status) (d n : Nat) (ws : List Word) (s : State) : (s.respond t fin st d n ws).tickOffset = s.tickOffset := by
  simp only [State.respond]; (repeat' split) <;> simp
@[simp] theorem State.respond_ticks (t : Ticket) (fin : Bool) (st : Status) (d n : Nat) (ws : List Word) (s : State) : (s.respond t fin st d n ws).ticks = s.ticks := by
  simp only [State.respond]; (repeat' split) <;> simp
@[simp] theorem State.respond_tnProvisional (t : Ticket) (fin : Bool) (st : Status) (d n : Nat) (ws : List Word) (s : State) : (s.respond t fin st d n ws).tnProvisional = s.tnProvisional := by
  simp only [State.respond]; (repeat' split) <;> simp
@[simp] theorem State.respond_realign (t : Ticket) (fin : Bool) (st : Status) (d n : Nat) (ws : List Word) (s : State) : (s.respond t fin st d n ws).realign = s.realign := by
  simp only [State.respond]; (repeat' split) <;> simp
@[simp] theorem State.respond_trafficLast (t : Ticket) (fin : Bool) (st : Status) (d n : Nat) (ws : List Word) (s : State) : (s.respond t fin st d n ws).trafficLast = s.trafficLast := by
  simp only [State.respond]; (repeat' split) <;> simp
@[simp] theorem State.respond_engines (t : Ticket) (fin : Bool) (st : Status) (d n : Nat) (ws : List Word) (s : State) : (s.respond t fin st d n ws).engines = s.engines := by
  simp only [State.respond]; (repeat' split) <;> simp
@[simp] theorem State.respond_tiles (t : Ticket) (fin : Bool) (st : Status) (d n : Nat) (ws : List Word) (s : State) : (s.respond t fin st d n ws).tiles = s.tiles := by
  simp only [State.respond]; (repeat' split) <;> simp
@[simp] theorem State.respond_htiles (t : Ticket) (fin : Bool) (st : Status) (d n : Nat) (ws : List Word) (s : State) : (s.respond t fin st d n ws).htiles = s.htiles := by
  simp only [State.respond]; (repeat' split) <;> simp
@[simp] theorem State.respond_lanes (t : Ticket) (fin : Bool) (st : Status) (d n : Nat) (ws : List Word) (s : State) : (s.respond t fin st d n ws).lanes = s.lanes := by
  simp only [State.respond]; (repeat' split) <;> simp
@[simp] theorem State.respond_ports (t : Ticket) (fin : Bool) (st : Status) (d n : Nat) (ws : List Word) (s : State) : (s.respond t fin st d n ws).ports = s.ports := by
  simp only [State.respond]; (repeat' split) <;> simp
@[simp] theorem State.respond_packs (t : Ticket) (fin : Bool) (st : Status) (d n : Nat) (ws : List Word) (s : State) : (s.respond t fin st d n ws).packs = s.packs := by
  simp only [State.respond]; (repeat' split) <;> simp
@[simp] theorem State.respond_cal (t : Ticket) (fin : Bool) (st : Status) (d n : Nat) (ws : List Word) (s : State) : (s.respond t fin st d n ws).cal = s.cal := by
  simp only [State.respond]; (repeat' split) <;> simp
@[simp] theorem State.respond_map (t : Ticket) (fin : Bool) (st : Status) (d n : Nat) (ws : List Word) (s : State) : (s.respond t fin st d n ws).map = s.map := by
  simp only [State.respond]; (repeat' split) <;> simp
@[simp] theorem State.respond_mapCentre (t : Ticket) (fin : Bool) (st : Status) (d n : Nat) (ws : List Word) (s : State) : (s.respond t fin st d n ws).mapCentre = s.mapCentre := by
  simp only [State.respond]; (repeat' split) <;> simp
@[simp] theorem State.respond_mons (t : Ticket) (fin : Bool) (st : Status) (d n : Nat) (ws : List Word) (s : State) : (s.respond t fin st d n ws).mons = s.mons := by
  simp only [State.respond]; (repeat' split) <;> simp
@[simp] theorem State.respond_tlmq (t : Ticket) (fin : Bool) (st : Status) (d n : Nat) (ws : List Word) (s : State) : (s.respond t fin st d n ws).tlmq = s.tlmq := by
  simp only [State.respond]; (repeat' split) <;> simp
@[simp] theorem State.respond_chains (t : Ticket) (fin : Bool) (st : Status) (d n : Nat) (ws : List Word) (s : State) : (s.respond t fin st d n ws).chains = s.chains := by
  simp only [State.respond]; (repeat' split) <;> simp
@[simp] theorem State.respond_dma (t : Ticket) (fin : Bool) (st : Status) (d n : Nat) (ws : List Word) (s : State) : (s.respond t fin st d n ws).dma = s.dma := by
  simp only [State.respond]; (repeat' split) <;> simp
@[simp] theorem State.respond_ctr (t : Ticket) (fin : Bool) (st : Status) (d n : Nat) (ws : List Word) (s : State) : (s.respond t fin st d n ws).ctr = s.ctr := by
  simp only [State.respond]; (repeat' split) <;> simp
@[simp] theorem State.respond_power (t : Ticket) (fin : Bool) (st : Status) (d n : Nat) (ws : List Word) (s : State) : (s.respond t fin st d n ws).power = s.power := by
  simp only [State.respond]; (repeat' split) <;> simp
@[simp] theorem State.respond_recovery (t : Ticket) (fin : Bool) (st : Status) (d n : Nat) (ws : List Word) (s : State) : (s.respond t fin st d n ws).recovery = s.recovery := by
  simp only [State.respond]; (repeat' split) <;> simp
@[simp] theorem State.respond_kennel (t : Ticket) (fin : Bool) (st : Status) (d n : Nat) (ws : List Word) (s : State) : (s.respond t fin st d n ws).kennel = s.kennel := by
  simp only [State.respond]; (repeat' split) <;> simp
@[simp] theorem State.respond_time (t : Ticket) (fin : Bool) (st : Status) (d n : Nat) (ws : List Word) (s : State) : (s.respond t fin st d n ws).time = s.time := by
  simp only [State.respond]; (repeat' split) <;> simp
@[simp] theorem State.respond_sec (t : Ticket) (fin : Bool) (st : Status) (d n : Nat) (ws : List Word) (s : State) : (s.respond t fin st d n ws).sec = s.sec := by
  simp only [State.respond]; (repeat' split) <;> simp
@[simp] theorem State.respond_clockIdentity (t : Ticket) (fin : Bool) (st : Status) (d n : Nat) (ws : List Word) (s : State) : (s.respond t fin st d n ws).clockIdentity = s.clockIdentity := by
  simp only [State.respond]; (repeat' split) <;> simp
@[simp] theorem State.respond_parityLast (t : Ticket) (fin : Bool) (st : Status) (d n : Nat) (ws : List Word) (s : State) : (s.respond t fin st d n ws).parityLast = s.parityLast := by
  simp only [State.respond]; (repeat' split) <;> simp
@[simp] theorem State.respond_readWord (t : Ticket) (fin : Bool) (st : Status) (d n : Nat) (ws : List Word) (s : State) : (s.respond t fin st d n ws).readWord = s.readWord := by
  simp only [State.respond]; (repeat' split) <;> simp
@[simp] theorem State.respond_spiReply (t : Ticket) (fin : Bool) (st : Status) (d n : Nat) (ws : List Word) (s : State) : (s.respond t fin st d n ws).spiReply = s.spiReply := by
  simp only [State.respond]; (repeat' split) <;> simp
@[simp] theorem State.respond_freeCtr (t : Ticket) (fin : Bool) (st : Status) (d n : Nat) (ws : List Word) (s : State) : (s.respond t fin st d n ws).freeCtr = s.freeCtr := by
  simp only [State.respond]; (repeat' split) <;> simp
@[simp] theorem State.respond_pending (t : Ticket) (fin : Bool) (st : Status) (d n : Nat) (ws : List Word) (s : State) : (s.respond t fin st d n ws).pending = s.pending := by
  simp only [State.respond]; (repeat' split) <;> simp
@[simp] theorem State.eng_respond (t : Ticket) (fin : Bool) (st : Status) (d n : Nat) (ws : List Word) (j : Nat) (s : State) : (s.respond t fin st d n ws).eng j = s.eng j := by
  simp [State.eng]
@[simp] theorem State.tile_respond (t : Ticket) (fin : Bool) (st : Status) (d n : Nat) (ws : List Word) (j : Nat) (s : State) : (s.respond t fin st d n ws).tile j = s.tile j := by
  simp [State.tile]
@[simp] theorem State.fenced_respond (t : Ticket) (fin : Bool) (st : Status) (d n : Nat) (ws : List Word) (j : Nat) (s : State) : (s.respond t fin st d n ws).fenced j = s.fenced j := by
  simp [State.fenced]
@[simp] theorem State.lane_respond (t : Ticket) (fin : Bool) (st : Status) (d n : Nat) (ws : List Word) (j : Nat) (s : State) : (s.respond t fin st d n ws).lane j = s.lane j := by
  simp [State.lane]
@[simp] theorem State.htile_respond (t : Ticket) (fin : Bool) (st : Status) (d n : Nat) (ws : List Word) (j : Nat) (s : State) : (s.respond t fin st d n ws).htile j = s.htile j := by
  simp [State.htile]
@[simp] theorem State.portOpt_respond (t : Ticket) (fin : Bool) (st : Status) (d n : Nat) (ws : List Word) (j : Nat) (s : State) : (s.respond t fin st d n ws).port? j = s.port? j := by
  simp [State.port?]
@[simp] theorem State.pack_respond (t : Ticket) (fin : Bool) (st : Status) (d n : Nat) (ws : List Word) (j : Nat) (s : State) : (s.respond t fin st d n ws).pack j = s.pack j := by
  simp [State.pack]
@[simp] theorem State.mc_respond (t : Ticket) (fin : Bool) (st : Status) (d n : Nat) (ws : List Word) (j : Nat) (s : State) : (s.respond t fin st d n ws).mc j = s.mc j := by
  simp [State.mc]
@[simp] theorem State.dc_respond (t : Ticket) (fin : Bool) (st : Status) (d n : Nat) (ws : List Word) (j : Nat) (s : State) : (s.respond t fin st d n ws).dc j = s.dc j := by
  simp [State.dc]
@[simp] theorem State.sysHeld_respond (t : Ticket) (fin : Bool) (st : Status) (d n : Nat) (ws : List Word)  (s : State) : (s.respond t fin st d n ws).sysHeld = s.sysHeld := by
  simp [State.sysHeld]
@[simp] theorem State.tileTemp_respond (t : Ticket) (fin : Bool) (st : Status) (d n : Nat) (ws : List Word) (j : Nat) (s : State) : (s.respond t fin st d n ws).tileTemp j = s.tileTemp j := by
  simp [State.tileTemp]

/-! ### final -/

@[simp] theorem State.final_tn (t : Ticket) (st : Status) (d : Nat) (ws : List Word) (s : State) : (s.final t st d ws).tn = s.tn := by
  simp [State.final]
@[simp] theorem State.final_tickOffset (t : Ticket) (st : Status) (d : Nat) (ws : List Word) (s : State) : (s.final t st d ws).tickOffset = s.tickOffset := by
  simp [State.final]
@[simp] theorem State.final_ticks (t : Ticket) (st : Status) (d : Nat) (ws : List Word) (s : State) : (s.final t st d ws).ticks = s.ticks := by
  simp [State.final]
@[simp] theorem State.final_tnProvisional (t : Ticket) (st : Status) (d : Nat) (ws : List Word) (s : State) : (s.final t st d ws).tnProvisional = s.tnProvisional := by
  simp [State.final]
@[simp] theorem State.final_realign (t : Ticket) (st : Status) (d : Nat) (ws : List Word) (s : State) : (s.final t st d ws).realign = s.realign := by
  simp [State.final]
@[simp] theorem State.final_trafficLast (t : Ticket) (st : Status) (d : Nat) (ws : List Word) (s : State) : (s.final t st d ws).trafficLast = s.trafficLast := by
  simp [State.final]
@[simp] theorem State.final_engines (t : Ticket) (st : Status) (d : Nat) (ws : List Word) (s : State) : (s.final t st d ws).engines = s.engines := by
  simp [State.final]
@[simp] theorem State.final_tiles (t : Ticket) (st : Status) (d : Nat) (ws : List Word) (s : State) : (s.final t st d ws).tiles = s.tiles := by
  simp [State.final]
@[simp] theorem State.final_htiles (t : Ticket) (st : Status) (d : Nat) (ws : List Word) (s : State) : (s.final t st d ws).htiles = s.htiles := by
  simp [State.final]
@[simp] theorem State.final_lanes (t : Ticket) (st : Status) (d : Nat) (ws : List Word) (s : State) : (s.final t st d ws).lanes = s.lanes := by
  simp [State.final]
@[simp] theorem State.final_ports (t : Ticket) (st : Status) (d : Nat) (ws : List Word) (s : State) : (s.final t st d ws).ports = s.ports := by
  simp [State.final]
@[simp] theorem State.final_packs (t : Ticket) (st : Status) (d : Nat) (ws : List Word) (s : State) : (s.final t st d ws).packs = s.packs := by
  simp [State.final]
@[simp] theorem State.final_cal (t : Ticket) (st : Status) (d : Nat) (ws : List Word) (s : State) : (s.final t st d ws).cal = s.cal := by
  simp [State.final]
@[simp] theorem State.final_map (t : Ticket) (st : Status) (d : Nat) (ws : List Word) (s : State) : (s.final t st d ws).map = s.map := by
  simp [State.final]
@[simp] theorem State.final_mapCentre (t : Ticket) (st : Status) (d : Nat) (ws : List Word) (s : State) : (s.final t st d ws).mapCentre = s.mapCentre := by
  simp [State.final]
@[simp] theorem State.final_mons (t : Ticket) (st : Status) (d : Nat) (ws : List Word) (s : State) : (s.final t st d ws).mons = s.mons := by
  simp [State.final]
@[simp] theorem State.final_tlmq (t : Ticket) (st : Status) (d : Nat) (ws : List Word) (s : State) : (s.final t st d ws).tlmq = s.tlmq := by
  simp [State.final]
@[simp] theorem State.final_chains (t : Ticket) (st : Status) (d : Nat) (ws : List Word) (s : State) : (s.final t st d ws).chains = s.chains := by
  simp [State.final]
@[simp] theorem State.final_dma (t : Ticket) (st : Status) (d : Nat) (ws : List Word) (s : State) : (s.final t st d ws).dma = s.dma := by
  simp [State.final]
@[simp] theorem State.final_ctr (t : Ticket) (st : Status) (d : Nat) (ws : List Word) (s : State) : (s.final t st d ws).ctr = s.ctr := by
  simp [State.final]
@[simp] theorem State.final_power (t : Ticket) (st : Status) (d : Nat) (ws : List Word) (s : State) : (s.final t st d ws).power = s.power := by
  simp [State.final]
@[simp] theorem State.final_recovery (t : Ticket) (st : Status) (d : Nat) (ws : List Word) (s : State) : (s.final t st d ws).recovery = s.recovery := by
  simp [State.final]
@[simp] theorem State.final_kennel (t : Ticket) (st : Status) (d : Nat) (ws : List Word) (s : State) : (s.final t st d ws).kennel = s.kennel := by
  simp [State.final]
@[simp] theorem State.final_time (t : Ticket) (st : Status) (d : Nat) (ws : List Word) (s : State) : (s.final t st d ws).time = s.time := by
  simp [State.final]
@[simp] theorem State.final_sec (t : Ticket) (st : Status) (d : Nat) (ws : List Word) (s : State) : (s.final t st d ws).sec = s.sec := by
  simp [State.final]
@[simp] theorem State.final_clockIdentity (t : Ticket) (st : Status) (d : Nat) (ws : List Word) (s : State) : (s.final t st d ws).clockIdentity = s.clockIdentity := by
  simp [State.final]
@[simp] theorem State.final_parityLast (t : Ticket) (st : Status) (d : Nat) (ws : List Word) (s : State) : (s.final t st d ws).parityLast = s.parityLast := by
  simp [State.final]
@[simp] theorem State.final_readWord (t : Ticket) (st : Status) (d : Nat) (ws : List Word) (s : State) : (s.final t st d ws).readWord = s.readWord := by
  simp [State.final]
@[simp] theorem State.final_spiReply (t : Ticket) (st : Status) (d : Nat) (ws : List Word) (s : State) : (s.final t st d ws).spiReply = s.spiReply := by
  simp [State.final]
@[simp] theorem State.final_freeCtr (t : Ticket) (st : Status) (d : Nat) (ws : List Word) (s : State) : (s.final t st d ws).freeCtr = s.freeCtr := by
  simp [State.final]
@[simp] theorem State.final_pending (t : Ticket) (st : Status) (d : Nat) (ws : List Word) (s : State) : (s.final t st d ws).pending = s.pending := by
  simp [State.final]
@[simp] theorem State.eng_final (t : Ticket) (st : Status) (d : Nat) (ws : List Word) (j : Nat) (s : State) : (s.final t st d ws).eng j = s.eng j := by
  simp [State.eng]
@[simp] theorem State.tile_final (t : Ticket) (st : Status) (d : Nat) (ws : List Word) (j : Nat) (s : State) : (s.final t st d ws).tile j = s.tile j := by
  simp [State.tile]
@[simp] theorem State.fenced_final (t : Ticket) (st : Status) (d : Nat) (ws : List Word) (j : Nat) (s : State) : (s.final t st d ws).fenced j = s.fenced j := by
  simp [State.fenced]
@[simp] theorem State.lane_final (t : Ticket) (st : Status) (d : Nat) (ws : List Word) (j : Nat) (s : State) : (s.final t st d ws).lane j = s.lane j := by
  simp [State.lane]
@[simp] theorem State.htile_final (t : Ticket) (st : Status) (d : Nat) (ws : List Word) (j : Nat) (s : State) : (s.final t st d ws).htile j = s.htile j := by
  simp [State.htile]
@[simp] theorem State.portOpt_final (t : Ticket) (st : Status) (d : Nat) (ws : List Word) (j : Nat) (s : State) : (s.final t st d ws).port? j = s.port? j := by
  simp [State.port?]
@[simp] theorem State.pack_final (t : Ticket) (st : Status) (d : Nat) (ws : List Word) (j : Nat) (s : State) : (s.final t st d ws).pack j = s.pack j := by
  simp [State.pack]
@[simp] theorem State.mc_final (t : Ticket) (st : Status) (d : Nat) (ws : List Word) (j : Nat) (s : State) : (s.final t st d ws).mc j = s.mc j := by
  simp [State.mc]
@[simp] theorem State.dc_final (t : Ticket) (st : Status) (d : Nat) (ws : List Word) (j : Nat) (s : State) : (s.final t st d ws).dc j = s.dc j := by
  simp [State.dc]
@[simp] theorem State.sysHeld_final (t : Ticket) (st : Status) (d : Nat) (ws : List Word)  (s : State) : (s.final t st d ws).sysHeld = s.sysHeld := by
  simp [State.sysHeld]
@[simp] theorem State.tileTemp_final (t : Ticket) (st : Status) (d : Nat) (ws : List Word) (j : Nat) (s : State) : (s.final t st d ws).tileTemp j = s.tileTemp j := by
  simp [State.tileTemp]

/-! ### setVisible -/

@[simp] theorem State.setVisible_tn (n : Nat) (l : List CmdItem) (s : State) : (s.setVisible n l).tn = s.tn := by
  simp only [State.setVisible, State.modCmdq, State.modProto]; (repeat' split) <;> rfl
@[simp] theorem State.setVisible_tickOffset (n : Nat) (l : List CmdItem) (s : State) : (s.setVisible n l).tickOffset = s.tickOffset := by
  simp only [State.setVisible, State.modCmdq, State.modProto]; (repeat' split) <;> rfl
@[simp] theorem State.setVisible_ticks (n : Nat) (l : List CmdItem) (s : State) : (s.setVisible n l).ticks = s.ticks := by
  simp only [State.setVisible, State.modCmdq, State.modProto]; (repeat' split) <;> rfl
@[simp] theorem State.setVisible_tnProvisional (n : Nat) (l : List CmdItem) (s : State) : (s.setVisible n l).tnProvisional = s.tnProvisional := by
  simp only [State.setVisible, State.modCmdq, State.modProto]; (repeat' split) <;> rfl
@[simp] theorem State.setVisible_realign (n : Nat) (l : List CmdItem) (s : State) : (s.setVisible n l).realign = s.realign := by
  simp only [State.setVisible, State.modCmdq, State.modProto]; (repeat' split) <;> rfl
@[simp] theorem State.setVisible_trafficLast (n : Nat) (l : List CmdItem) (s : State) : (s.setVisible n l).trafficLast = s.trafficLast := by
  simp only [State.setVisible, State.modCmdq, State.modProto]; (repeat' split) <;> rfl
@[simp] theorem State.setVisible_engines (n : Nat) (l : List CmdItem) (s : State) : (s.setVisible n l).engines = s.engines := by
  simp only [State.setVisible, State.modCmdq, State.modProto]; (repeat' split) <;> rfl
@[simp] theorem State.setVisible_tiles (n : Nat) (l : List CmdItem) (s : State) : (s.setVisible n l).tiles = s.tiles := by
  simp only [State.setVisible, State.modCmdq, State.modProto]; (repeat' split) <;> rfl
@[simp] theorem State.setVisible_htiles (n : Nat) (l : List CmdItem) (s : State) : (s.setVisible n l).htiles = s.htiles := by
  simp only [State.setVisible, State.modCmdq, State.modProto]; (repeat' split) <;> rfl
@[simp] theorem State.setVisible_lanes (n : Nat) (l : List CmdItem) (s : State) : (s.setVisible n l).lanes = s.lanes := by
  simp only [State.setVisible, State.modCmdq, State.modProto]; (repeat' split) <;> rfl
@[simp] theorem State.setVisible_ports (n : Nat) (l : List CmdItem) (s : State) : (s.setVisible n l).ports = s.ports := by
  simp only [State.setVisible, State.modCmdq, State.modProto]; (repeat' split) <;> rfl
@[simp] theorem State.setVisible_packs (n : Nat) (l : List CmdItem) (s : State) : (s.setVisible n l).packs = s.packs := by
  simp only [State.setVisible, State.modCmdq, State.modProto]; (repeat' split) <;> rfl
@[simp] theorem State.setVisible_cal (n : Nat) (l : List CmdItem) (s : State) : (s.setVisible n l).cal = s.cal := by
  simp only [State.setVisible, State.modCmdq, State.modProto]; (repeat' split) <;> rfl
@[simp] theorem State.setVisible_map (n : Nat) (l : List CmdItem) (s : State) : (s.setVisible n l).map = s.map := by
  simp only [State.setVisible, State.modCmdq, State.modProto]; (repeat' split) <;> rfl
@[simp] theorem State.setVisible_mapCentre (n : Nat) (l : List CmdItem) (s : State) : (s.setVisible n l).mapCentre = s.mapCentre := by
  simp only [State.setVisible, State.modCmdq, State.modProto]; (repeat' split) <;> rfl
@[simp] theorem State.setVisible_mons (n : Nat) (l : List CmdItem) (s : State) : (s.setVisible n l).mons = s.mons := by
  simp only [State.setVisible, State.modCmdq, State.modProto]; (repeat' split) <;> rfl
@[simp] theorem State.setVisible_tlmq (n : Nat) (l : List CmdItem) (s : State) : (s.setVisible n l).tlmq = s.tlmq := by
  simp only [State.setVisible, State.modCmdq, State.modProto]; (repeat' split) <;> rfl
@[simp] theorem State.setVisible_chains (n : Nat) (l : List CmdItem) (s : State) : (s.setVisible n l).chains = s.chains := by
  simp only [State.setVisible, State.modCmdq, State.modProto]; (repeat' split) <;> rfl
@[simp] theorem State.setVisible_dma (n : Nat) (l : List CmdItem) (s : State) : (s.setVisible n l).dma = s.dma := by
  simp only [State.setVisible, State.modCmdq, State.modProto]; (repeat' split) <;> rfl
@[simp] theorem State.setVisible_dev (n : Nat) (l : List CmdItem) (s : State) : (s.setVisible n l).dev = s.dev := by
  simp only [State.setVisible, State.modCmdq, State.modProto]; (repeat' split) <;> rfl
@[simp] theorem State.setVisible_ctr (n : Nat) (l : List CmdItem) (s : State) : (s.setVisible n l).ctr = s.ctr := by
  simp only [State.setVisible, State.modCmdq, State.modProto]; (repeat' split) <;> rfl
@[simp] theorem State.setVisible_power (n : Nat) (l : List CmdItem) (s : State) : (s.setVisible n l).power = s.power := by
  simp only [State.setVisible, State.modCmdq, State.modProto]; (repeat' split) <;> rfl
@[simp] theorem State.setVisible_recovery (n : Nat) (l : List CmdItem) (s : State) : (s.setVisible n l).recovery = s.recovery := by
  simp only [State.setVisible, State.modCmdq, State.modProto]; (repeat' split) <;> rfl
@[simp] theorem State.setVisible_kennel (n : Nat) (l : List CmdItem) (s : State) : (s.setVisible n l).kennel = s.kennel := by
  simp only [State.setVisible, State.modCmdq, State.modProto]; (repeat' split) <;> rfl
@[simp] theorem State.setVisible_time (n : Nat) (l : List CmdItem) (s : State) : (s.setVisible n l).time = s.time := by
  simp only [State.setVisible, State.modCmdq, State.modProto]; (repeat' split) <;> rfl
@[simp] theorem State.setVisible_sec (n : Nat) (l : List CmdItem) (s : State) : (s.setVisible n l).sec = s.sec := by
  simp only [State.setVisible, State.modCmdq, State.modProto]; (repeat' split) <;> rfl
@[simp] theorem State.setVisible_clockIdentity (n : Nat) (l : List CmdItem) (s : State) : (s.setVisible n l).clockIdentity = s.clockIdentity := by
  simp only [State.setVisible, State.modCmdq, State.modProto]; (repeat' split) <;> rfl
@[simp] theorem State.setVisible_parityLast (n : Nat) (l : List CmdItem) (s : State) : (s.setVisible n l).parityLast = s.parityLast := by
  simp only [State.setVisible, State.modCmdq, State.modProto]; (repeat' split) <;> rfl
@[simp] theorem State.setVisible_readWord (n : Nat) (l : List CmdItem) (s : State) : (s.setVisible n l).readWord = s.readWord := by
  simp only [State.setVisible, State.modCmdq, State.modProto]; (repeat' split) <;> rfl
@[simp] theorem State.setVisible_spiReply (n : Nat) (l : List CmdItem) (s : State) : (s.setVisible n l).spiReply = s.spiReply := by
  simp only [State.setVisible, State.modCmdq, State.modProto]; (repeat' split) <;> rfl
@[simp] theorem State.setVisible_freeCtr (n : Nat) (l : List CmdItem) (s : State) : (s.setVisible n l).freeCtr = s.freeCtr := by
  simp only [State.setVisible, State.modCmdq, State.modProto]; (repeat' split) <;> rfl
@[simp] theorem State.setVisible_pending (n : Nat) (l : List CmdItem) (s : State) : (s.setVisible n l).pending = s.pending := by
  simp only [State.setVisible, State.modCmdq, State.modProto]; (repeat' split) <;> rfl
@[simp] theorem State.eng_setVisible (n : Nat) (l : List CmdItem) (j : Nat) (s : State) : (s.setVisible n l).eng j = s.eng j := by
  simp [State.eng]
@[simp] theorem State.tile_setVisible (n : Nat) (l : List CmdItem) (j : Nat) (s : State) : (s.setVisible n l).tile j = s.tile j := by
  simp [State.tile]
@[simp] theorem State.fenced_setVisible (n : Nat) (l : List CmdItem) (j : Nat) (s : State) : (s.setVisible n l).fenced j = s.fenced j := by
  simp [State.fenced]
@[simp] theorem State.lane_setVisible (n : Nat) (l : List CmdItem) (j : Nat) (s : State) : (s.setVisible n l).lane j = s.lane j := by
  simp [State.lane]
@[simp] theorem State.htile_setVisible (n : Nat) (l : List CmdItem) (j : Nat) (s : State) : (s.setVisible n l).htile j = s.htile j := by
  simp [State.htile]
@[simp] theorem State.portOpt_setVisible (n : Nat) (l : List CmdItem) (j : Nat) (s : State) : (s.setVisible n l).port? j = s.port? j := by
  simp [State.port?]
@[simp] theorem State.pack_setVisible (n : Nat) (l : List CmdItem) (j : Nat) (s : State) : (s.setVisible n l).pack j = s.pack j := by
  simp [State.pack]
@[simp] theorem State.mc_setVisible (n : Nat) (l : List CmdItem) (j : Nat) (s : State) : (s.setVisible n l).mc j = s.mc j := by
  simp [State.mc]
@[simp] theorem State.dc_setVisible (n : Nat) (l : List CmdItem) (j : Nat) (s : State) : (s.setVisible n l).dc j = s.dc j := by
  simp [State.dc]
@[simp] theorem State.sysHeld_setVisible (n : Nat) (l : List CmdItem)  (s : State) : (s.setVisible n l).sysHeld = s.sysHeld := by
  simp [State.sysHeld]
@[simp] theorem State.tileTemp_setVisible (n : Nat) (l : List CmdItem) (j : Nat) (s : State) : (s.setVisible n l).tileTemp j = s.tileTemp j := by
  simp [State.tileTemp]

/-! ### finishJobs -/

@[simp] theorem State.finishJobs_tn (p : Job → Bool) (st : Status) (d : Nat) (ws : List Word) (s : State) : (s.finishJobs p st d ws).tn = s.tn := by
  simp only [State.finishJobs]
  refine (State.foldl_same (fun s => s.tn) _ (fun s a => ?_) _ _).trans (by simp)
  simp
@[simp] theorem State.finishJobs_tickOffset (p : Job → Bool) (st : Status) (d : Nat) (ws : List Word) (s : State) : (s.finishJobs p st d ws).tickOffset = s.tickOffset := by
  simp only [State.finishJobs]
  refine (State.foldl_same (fun s => s.tickOffset) _ (fun s a => ?_) _ _).trans (by simp)
  simp
@[simp] theorem State.finishJobs_ticks (p : Job → Bool) (st : Status) (d : Nat) (ws : List Word) (s : State) : (s.finishJobs p st d ws).ticks = s.ticks := by
  simp only [State.finishJobs]
  refine (State.foldl_same (fun s => s.ticks) _ (fun s a => ?_) _ _).trans (by simp)
  simp
@[simp] theorem State.finishJobs_tnProvisional (p : Job → Bool) (st : Status) (d : Nat) (ws : List Word) (s : State) : (s.finishJobs p st d ws).tnProvisional = s.tnProvisional := by
  simp only [State.finishJobs]
  refine (State.foldl_same (fun s => s.tnProvisional) _ (fun s a => ?_) _ _).trans (by simp)
  simp
@[simp] theorem State.finishJobs_realign (p : Job → Bool) (st : Status) (d : Nat) (ws : List Word) (s : State) : (s.finishJobs p st d ws).realign = s.realign := by
  simp only [State.finishJobs]
  refine (State.foldl_same (fun s => s.realign) _ (fun s a => ?_) _ _).trans (by simp)
  simp
@[simp] theorem State.finishJobs_trafficLast (p : Job → Bool) (st : Status) (d : Nat) (ws : List Word) (s : State) : (s.finishJobs p st d ws).trafficLast = s.trafficLast := by
  simp only [State.finishJobs]
  refine (State.foldl_same (fun s => s.trafficLast) _ (fun s a => ?_) _ _).trans (by simp)
  simp
@[simp] theorem State.finishJobs_engines (p : Job → Bool) (st : Status) (d : Nat) (ws : List Word) (s : State) : (s.finishJobs p st d ws).engines = s.engines := by
  simp only [State.finishJobs]
  refine (State.foldl_same (fun s => s.engines) _ (fun s a => ?_) _ _).trans (by simp)
  simp
@[simp] theorem State.finishJobs_tiles (p : Job → Bool) (st : Status) (d : Nat) (ws : List Word) (s : State) : (s.finishJobs p st d ws).tiles = s.tiles := by
  simp only [State.finishJobs]
  refine (State.foldl_same (fun s => s.tiles) _ (fun s a => ?_) _ _).trans (by simp)
  simp
@[simp] theorem State.finishJobs_htiles (p : Job → Bool) (st : Status) (d : Nat) (ws : List Word) (s : State) : (s.finishJobs p st d ws).htiles = s.htiles := by
  simp only [State.finishJobs]
  refine (State.foldl_same (fun s => s.htiles) _ (fun s a => ?_) _ _).trans (by simp)
  simp
@[simp] theorem State.finishJobs_lanes (p : Job → Bool) (st : Status) (d : Nat) (ws : List Word) (s : State) : (s.finishJobs p st d ws).lanes = s.lanes := by
  simp only [State.finishJobs]
  refine (State.foldl_same (fun s => s.lanes) _ (fun s a => ?_) _ _).trans (by simp)
  simp
@[simp] theorem State.finishJobs_ports (p : Job → Bool) (st : Status) (d : Nat) (ws : List Word) (s : State) : (s.finishJobs p st d ws).ports = s.ports := by
  simp only [State.finishJobs]
  refine (State.foldl_same (fun s => s.ports) _ (fun s a => ?_) _ _).trans (by simp)
  simp
@[simp] theorem State.finishJobs_packs (p : Job → Bool) (st : Status) (d : Nat) (ws : List Word) (s : State) : (s.finishJobs p st d ws).packs = s.packs := by
  simp only [State.finishJobs]
  refine (State.foldl_same (fun s => s.packs) _ (fun s a => ?_) _ _).trans (by simp)
  simp
@[simp] theorem State.finishJobs_cal (p : Job → Bool) (st : Status) (d : Nat) (ws : List Word) (s : State) : (s.finishJobs p st d ws).cal = s.cal := by
  simp only [State.finishJobs]
  refine (State.foldl_same (fun s => s.cal) _ (fun s a => ?_) _ _).trans (by simp)
  simp
@[simp] theorem State.finishJobs_map (p : Job → Bool) (st : Status) (d : Nat) (ws : List Word) (s : State) : (s.finishJobs p st d ws).map = s.map := by
  simp only [State.finishJobs]
  refine (State.foldl_same (fun s => s.map) _ (fun s a => ?_) _ _).trans (by simp)
  simp
@[simp] theorem State.finishJobs_mapCentre (p : Job → Bool) (st : Status) (d : Nat) (ws : List Word) (s : State) : (s.finishJobs p st d ws).mapCentre = s.mapCentre := by
  simp only [State.finishJobs]
  refine (State.foldl_same (fun s => s.mapCentre) _ (fun s a => ?_) _ _).trans (by simp)
  simp
@[simp] theorem State.finishJobs_mons (p : Job → Bool) (st : Status) (d : Nat) (ws : List Word) (s : State) : (s.finishJobs p st d ws).mons = s.mons := by
  simp only [State.finishJobs]
  refine (State.foldl_same (fun s => s.mons) _ (fun s a => ?_) _ _).trans (by simp)
  simp
@[simp] theorem State.finishJobs_tlmq (p : Job → Bool) (st : Status) (d : Nat) (ws : List Word) (s : State) : (s.finishJobs p st d ws).tlmq = s.tlmq := by
  simp only [State.finishJobs]
  refine (State.foldl_same (fun s => s.tlmq) _ (fun s a => ?_) _ _).trans (by simp)
  simp
@[simp] theorem State.finishJobs_chains (p : Job → Bool) (st : Status) (d : Nat) (ws : List Word) (s : State) : (s.finishJobs p st d ws).chains = s.chains := by
  simp only [State.finishJobs]
  refine (State.foldl_same (fun s => s.chains) _ (fun s a => ?_) _ _).trans (by simp)
  simp
@[simp] theorem State.finishJobs_dma (p : Job → Bool) (st : Status) (d : Nat) (ws : List Word) (s : State) : (s.finishJobs p st d ws).dma = s.dma := by
  simp only [State.finishJobs]
  refine (State.foldl_same (fun s => s.dma) _ (fun s a => ?_) _ _).trans (by simp)
  simp
@[simp] theorem State.finishJobs_ctr (p : Job → Bool) (st : Status) (d : Nat) (ws : List Word) (s : State) : (s.finishJobs p st d ws).ctr = s.ctr := by
  simp only [State.finishJobs]
  refine (State.foldl_same (fun s => s.ctr) _ (fun s a => ?_) _ _).trans (by simp)
  simp
@[simp] theorem State.finishJobs_power (p : Job → Bool) (st : Status) (d : Nat) (ws : List Word) (s : State) : (s.finishJobs p st d ws).power = s.power := by
  simp only [State.finishJobs]
  refine (State.foldl_same (fun s => s.power) _ (fun s a => ?_) _ _).trans (by simp)
  simp
@[simp] theorem State.finishJobs_recovery (p : Job → Bool) (st : Status) (d : Nat) (ws : List Word) (s : State) : (s.finishJobs p st d ws).recovery = s.recovery := by
  simp only [State.finishJobs]
  refine (State.foldl_same (fun s => s.recovery) _ (fun s a => ?_) _ _).trans (by simp)
  simp
@[simp] theorem State.finishJobs_kennel (p : Job → Bool) (st : Status) (d : Nat) (ws : List Word) (s : State) : (s.finishJobs p st d ws).kennel = s.kennel := by
  simp only [State.finishJobs]
  refine (State.foldl_same (fun s => s.kennel) _ (fun s a => ?_) _ _).trans (by simp)
  simp
@[simp] theorem State.finishJobs_time (p : Job → Bool) (st : Status) (d : Nat) (ws : List Word) (s : State) : (s.finishJobs p st d ws).time = s.time := by
  simp only [State.finishJobs]
  refine (State.foldl_same (fun s => s.time) _ (fun s a => ?_) _ _).trans (by simp)
  simp
@[simp] theorem State.finishJobs_sec (p : Job → Bool) (st : Status) (d : Nat) (ws : List Word) (s : State) : (s.finishJobs p st d ws).sec = s.sec := by
  simp only [State.finishJobs]
  refine (State.foldl_same (fun s => s.sec) _ (fun s a => ?_) _ _).trans (by simp)
  simp
@[simp] theorem State.finishJobs_clockIdentity (p : Job → Bool) (st : Status) (d : Nat) (ws : List Word) (s : State) : (s.finishJobs p st d ws).clockIdentity = s.clockIdentity := by
  simp only [State.finishJobs]
  refine (State.foldl_same (fun s => s.clockIdentity) _ (fun s a => ?_) _ _).trans (by simp)
  simp
@[simp] theorem State.finishJobs_parityLast (p : Job → Bool) (st : Status) (d : Nat) (ws : List Word) (s : State) : (s.finishJobs p st d ws).parityLast = s.parityLast := by
  simp only [State.finishJobs]
  refine (State.foldl_same (fun s => s.parityLast) _ (fun s a => ?_) _ _).trans (by simp)
  simp
@[simp] theorem State.finishJobs_readWord (p : Job → Bool) (st : Status) (d : Nat) (ws : List Word) (s : State) : (s.finishJobs p st d ws).readWord = s.readWord := by
  simp only [State.finishJobs]
  refine (State.foldl_same (fun s => s.readWord) _ (fun s a => ?_) _ _).trans (by simp)
  simp
@[simp] theorem State.finishJobs_spiReply (p : Job → Bool) (st : Status) (d : Nat) (ws : List Word) (s : State) : (s.finishJobs p st d ws).spiReply = s.spiReply := by
  simp only [State.finishJobs]
  refine (State.foldl_same (fun s => s.spiReply) _ (fun s a => ?_) _ _).trans (by simp)
  simp
@[simp] theorem State.finishJobs_freeCtr (p : Job → Bool) (st : Status) (d : Nat) (ws : List Word) (s : State) : (s.finishJobs p st d ws).freeCtr = s.freeCtr := by
  simp only [State.finishJobs]
  refine (State.foldl_same (fun s => s.freeCtr) _ (fun s a => ?_) _ _).trans (by simp)
  simp
@[simp] theorem State.finishJobs_pending (p : Job → Bool) (st : Status) (d : Nat) (ws : List Word) (s : State) : (s.finishJobs p st d ws).pending = s.pending := by
  simp only [State.finishJobs]
  refine (State.foldl_same (fun s => s.pending) _ (fun s a => ?_) _ _).trans (by simp)
  simp
@[simp] theorem State.eng_finishJobs (p : Job → Bool) (st : Status) (d : Nat) (ws : List Word) (j : Nat) (s : State) : (s.finishJobs p st d ws).eng j = s.eng j := by
  simp [State.eng]
@[simp] theorem State.tile_finishJobs (p : Job → Bool) (st : Status) (d : Nat) (ws : List Word) (j : Nat) (s : State) : (s.finishJobs p st d ws).tile j = s.tile j := by
  simp [State.tile]
@[simp] theorem State.fenced_finishJobs (p : Job → Bool) (st : Status) (d : Nat) (ws : List Word) (j : Nat) (s : State) : (s.finishJobs p st d ws).fenced j = s.fenced j := by
  simp [State.fenced]
@[simp] theorem State.lane_finishJobs (p : Job → Bool) (st : Status) (d : Nat) (ws : List Word) (j : Nat) (s : State) : (s.finishJobs p st d ws).lane j = s.lane j := by
  simp [State.lane]
@[simp] theorem State.htile_finishJobs (p : Job → Bool) (st : Status) (d : Nat) (ws : List Word) (j : Nat) (s : State) : (s.finishJobs p st d ws).htile j = s.htile j := by
  simp [State.htile]
@[simp] theorem State.portOpt_finishJobs (p : Job → Bool) (st : Status) (d : Nat) (ws : List Word) (j : Nat) (s : State) : (s.finishJobs p st d ws).port? j = s.port? j := by
  simp [State.port?]
@[simp] theorem State.pack_finishJobs (p : Job → Bool) (st : Status) (d : Nat) (ws : List Word) (j : Nat) (s : State) : (s.finishJobs p st d ws).pack j = s.pack j := by
  simp [State.pack]
@[simp] theorem State.mc_finishJobs (p : Job → Bool) (st : Status) (d : Nat) (ws : List Word) (j : Nat) (s : State) : (s.finishJobs p st d ws).mc j = s.mc j := by
  simp [State.mc]
@[simp] theorem State.dc_finishJobs (p : Job → Bool) (st : Status) (d : Nat) (ws : List Word) (j : Nat) (s : State) : (s.finishJobs p st d ws).dc j = s.dc j := by
  simp [State.dc]
@[simp] theorem State.sysHeld_finishJobs (p : Job → Bool) (st : Status) (d : Nat) (ws : List Word)  (s : State) : (s.finishJobs p st d ws).sysHeld = s.sysHeld := by
  simp [State.sysHeld]
@[simp] theorem State.tileTemp_finishJobs (p : Job → Bool) (st : Status) (d : Nat) (ws : List Word) (j : Nat) (s : State) : (s.finishJobs p st d ws).tileTemp j = s.tileTemp j := by
  simp [State.tileTemp]

/-! ### cancelArmed -/

@[simp] theorem State.cancelArmed_tn (p : Armed → Bool) (st : Status) (d : Nat) (s : State) : (s.cancelArmed p st d).tn = s.tn := by
  simp only [State.cancelArmed]
  refine (State.foldl_same (fun s => s.tn) _ (fun s a => ?_) _ _).trans (by simp)
  split <;> simp
@[simp] theorem State.cancelArmed_tickOffset (p : Armed → Bool) (st : Status) (d : Nat) (s : State) : (s.cancelArmed p st d).tickOffset = s.tickOffset := by
  simp only [State.cancelArmed]
  refine (State.foldl_same (fun s => s.tickOffset) _ (fun s a => ?_) _ _).trans (by simp)
  split <;> simp
@[simp] theorem State.cancelArmed_ticks (p : Armed → Bool) (st : Status) (d : Nat) (s : State) : (s.cancelArmed p st d).ticks = s.ticks := by
  simp only [State.cancelArmed]
  refine (State.foldl_same (fun s => s.ticks) _ (fun s a => ?_) _ _).trans (by simp)
  split <;> simp
@[simp] theorem State.cancelArmed_tnProvisional (p : Armed → Bool) (st : Status) (d : Nat) (s : State) : (s.cancelArmed p st d).tnProvisional = s.tnProvisional := by
  simp only [State.cancelArmed]
  refine (State.foldl_same (fun s => s.tnProvisional) _ (fun s a => ?_) _ _).trans (by simp)
  split <;> simp
@[simp] theorem State.cancelArmed_realign (p : Armed → Bool) (st : Status) (d : Nat) (s : State) : (s.cancelArmed p st d).realign = s.realign := by
  simp only [State.cancelArmed]
  refine (State.foldl_same (fun s => s.realign) _ (fun s a => ?_) _ _).trans (by simp)
  split <;> simp
@[simp] theorem State.cancelArmed_trafficLast (p : Armed → Bool) (st : Status) (d : Nat) (s : State) : (s.cancelArmed p st d).trafficLast = s.trafficLast := by
  simp only [State.cancelArmed]
  refine (State.foldl_same (fun s => s.trafficLast) _ (fun s a => ?_) _ _).trans (by simp)
  split <;> simp
@[simp] theorem State.cancelArmed_engines (p : Armed → Bool) (st : Status) (d : Nat) (s : State) : (s.cancelArmed p st d).engines = s.engines := by
  simp only [State.cancelArmed]
  refine (State.foldl_same (fun s => s.engines) _ (fun s a => ?_) _ _).trans (by simp)
  split <;> simp
@[simp] theorem State.cancelArmed_tiles (p : Armed → Bool) (st : Status) (d : Nat) (s : State) : (s.cancelArmed p st d).tiles = s.tiles := by
  simp only [State.cancelArmed]
  refine (State.foldl_same (fun s => s.tiles) _ (fun s a => ?_) _ _).trans (by simp)
  split <;> simp
@[simp] theorem State.cancelArmed_htiles (p : Armed → Bool) (st : Status) (d : Nat) (s : State) : (s.cancelArmed p st d).htiles = s.htiles := by
  simp only [State.cancelArmed]
  refine (State.foldl_same (fun s => s.htiles) _ (fun s a => ?_) _ _).trans (by simp)
  split <;> simp
@[simp] theorem State.cancelArmed_lanes (p : Armed → Bool) (st : Status) (d : Nat) (s : State) : (s.cancelArmed p st d).lanes = s.lanes := by
  simp only [State.cancelArmed]
  refine (State.foldl_same (fun s => s.lanes) _ (fun s a => ?_) _ _).trans (by simp)
  split <;> simp
@[simp] theorem State.cancelArmed_ports (p : Armed → Bool) (st : Status) (d : Nat) (s : State) : (s.cancelArmed p st d).ports = s.ports := by
  simp only [State.cancelArmed]
  refine (State.foldl_same (fun s => s.ports) _ (fun s a => ?_) _ _).trans (by simp)
  split <;> simp
@[simp] theorem State.cancelArmed_packs (p : Armed → Bool) (st : Status) (d : Nat) (s : State) : (s.cancelArmed p st d).packs = s.packs := by
  simp only [State.cancelArmed]
  refine (State.foldl_same (fun s => s.packs) _ (fun s a => ?_) _ _).trans (by simp)
  split <;> simp
@[simp] theorem State.cancelArmed_cal (p : Armed → Bool) (st : Status) (d : Nat) (s : State) : (s.cancelArmed p st d).cal = s.cal := by
  simp only [State.cancelArmed]
  refine (State.foldl_same (fun s => s.cal) _ (fun s a => ?_) _ _).trans (by simp)
  split <;> simp
@[simp] theorem State.cancelArmed_map (p : Armed → Bool) (st : Status) (d : Nat) (s : State) : (s.cancelArmed p st d).map = s.map := by
  simp only [State.cancelArmed]
  refine (State.foldl_same (fun s => s.map) _ (fun s a => ?_) _ _).trans (by simp)
  split <;> simp
@[simp] theorem State.cancelArmed_mapCentre (p : Armed → Bool) (st : Status) (d : Nat) (s : State) : (s.cancelArmed p st d).mapCentre = s.mapCentre := by
  simp only [State.cancelArmed]
  refine (State.foldl_same (fun s => s.mapCentre) _ (fun s a => ?_) _ _).trans (by simp)
  split <;> simp
@[simp] theorem State.cancelArmed_mons (p : Armed → Bool) (st : Status) (d : Nat) (s : State) : (s.cancelArmed p st d).mons = s.mons := by
  simp only [State.cancelArmed]
  refine (State.foldl_same (fun s => s.mons) _ (fun s a => ?_) _ _).trans (by simp)
  split <;> simp
@[simp] theorem State.cancelArmed_tlmq (p : Armed → Bool) (st : Status) (d : Nat) (s : State) : (s.cancelArmed p st d).tlmq = s.tlmq := by
  simp only [State.cancelArmed]
  refine (State.foldl_same (fun s => s.tlmq) _ (fun s a => ?_) _ _).trans (by simp)
  split <;> simp
@[simp] theorem State.cancelArmed_chains (p : Armed → Bool) (st : Status) (d : Nat) (s : State) : (s.cancelArmed p st d).chains = s.chains := by
  simp only [State.cancelArmed]
  refine (State.foldl_same (fun s => s.chains) _ (fun s a => ?_) _ _).trans (by simp)
  split <;> simp
@[simp] theorem State.cancelArmed_dma (p : Armed → Bool) (st : Status) (d : Nat) (s : State) : (s.cancelArmed p st d).dma = s.dma := by
  simp only [State.cancelArmed]
  refine (State.foldl_same (fun s => s.dma) _ (fun s a => ?_) _ _).trans (by simp)
  split <;> simp
@[simp] theorem State.cancelArmed_ctr (p : Armed → Bool) (st : Status) (d : Nat) (s : State) : (s.cancelArmed p st d).ctr = s.ctr := by
  simp only [State.cancelArmed]
  refine (State.foldl_same (fun s => s.ctr) _ (fun s a => ?_) _ _).trans (by simp)
  split <;> simp
@[simp] theorem State.cancelArmed_power (p : Armed → Bool) (st : Status) (d : Nat) (s : State) : (s.cancelArmed p st d).power = s.power := by
  simp only [State.cancelArmed]
  refine (State.foldl_same (fun s => s.power) _ (fun s a => ?_) _ _).trans (by simp)
  split <;> simp
@[simp] theorem State.cancelArmed_recovery (p : Armed → Bool) (st : Status) (d : Nat) (s : State) : (s.cancelArmed p st d).recovery = s.recovery := by
  simp only [State.cancelArmed]
  refine (State.foldl_same (fun s => s.recovery) _ (fun s a => ?_) _ _).trans (by simp)
  split <;> simp
@[simp] theorem State.cancelArmed_kennel (p : Armed → Bool) (st : Status) (d : Nat) (s : State) : (s.cancelArmed p st d).kennel = s.kennel := by
  simp only [State.cancelArmed]
  refine (State.foldl_same (fun s => s.kennel) _ (fun s a => ?_) _ _).trans (by simp)
  split <;> simp
@[simp] theorem State.cancelArmed_time (p : Armed → Bool) (st : Status) (d : Nat) (s : State) : (s.cancelArmed p st d).time = s.time := by
  simp only [State.cancelArmed]
  refine (State.foldl_same (fun s => s.time) _ (fun s a => ?_) _ _).trans (by simp)
  split <;> simp
@[simp] theorem State.cancelArmed_sec (p : Armed → Bool) (st : Status) (d : Nat) (s : State) : (s.cancelArmed p st d).sec = s.sec := by
  simp only [State.cancelArmed]
  refine (State.foldl_same (fun s => s.sec) _ (fun s a => ?_) _ _).trans (by simp)
  split <;> simp
@[simp] theorem State.cancelArmed_clockIdentity (p : Armed → Bool) (st : Status) (d : Nat) (s : State) : (s.cancelArmed p st d).clockIdentity = s.clockIdentity := by
  simp only [State.cancelArmed]
  refine (State.foldl_same (fun s => s.clockIdentity) _ (fun s a => ?_) _ _).trans (by simp)
  split <;> simp
@[simp] theorem State.cancelArmed_parityLast (p : Armed → Bool) (st : Status) (d : Nat) (s : State) : (s.cancelArmed p st d).parityLast = s.parityLast := by
  simp only [State.cancelArmed]
  refine (State.foldl_same (fun s => s.parityLast) _ (fun s a => ?_) _ _).trans (by simp)
  split <;> simp
@[simp] theorem State.cancelArmed_readWord (p : Armed → Bool) (st : Status) (d : Nat) (s : State) : (s.cancelArmed p st d).readWord = s.readWord := by
  simp only [State.cancelArmed]
  refine (State.foldl_same (fun s => s.readWord) _ (fun s a => ?_) _ _).trans (by simp)
  split <;> simp
@[simp] theorem State.cancelArmed_spiReply (p : Armed → Bool) (st : Status) (d : Nat) (s : State) : (s.cancelArmed p st d).spiReply = s.spiReply := by
  simp only [State.cancelArmed]
  refine (State.foldl_same (fun s => s.spiReply) _ (fun s a => ?_) _ _).trans (by simp)
  split <;> simp
@[simp] theorem State.cancelArmed_freeCtr (p : Armed → Bool) (st : Status) (d : Nat) (s : State) : (s.cancelArmed p st d).freeCtr = s.freeCtr := by
  simp only [State.cancelArmed]
  refine (State.foldl_same (fun s => s.freeCtr) _ (fun s a => ?_) _ _).trans (by simp)
  split <;> simp
@[simp] theorem State.cancelArmed_pending (p : Armed → Bool) (st : Status) (d : Nat) (s : State) : (s.cancelArmed p st d).pending = s.pending := by
  simp only [State.cancelArmed]
  refine (State.foldl_same (fun s => s.pending) _ (fun s a => ?_) _ _).trans (by simp)
  split <;> simp
@[simp] theorem State.eng_cancelArmed (p : Armed → Bool) (st : Status) (d : Nat) (j : Nat) (s : State) : (s.cancelArmed p st d).eng j = s.eng j := by
  simp [State.eng]
@[simp] theorem State.tile_cancelArmed (p : Armed → Bool) (st : Status) (d : Nat) (j : Nat) (s : State) : (s.cancelArmed p st d).tile j = s.tile j := by
  simp [State.tile]
@[simp] theorem State.fenced_cancelArmed (p : Armed → Bool) (st : Status) (d : Nat) (j : Nat) (s : State) : (s.cancelArmed p st d).fenced j = s.fenced j := by
  simp [State.fenced]
@[simp] theorem State.lane_cancelArmed (p : Armed → Bool) (st : Status) (d : Nat) (j : Nat) (s : State) : (s.cancelArmed p st d).lane j = s.lane j := by
  simp [State.lane]
@[simp] theorem State.htile_cancelArmed (p : Armed → Bool) (st : Status) (d : Nat) (j : Nat) (s : State) : (s.cancelArmed p st d).htile j = s.htile j := by
  simp [State.htile]
@[simp] theorem State.portOpt_cancelArmed (p : Armed → Bool) (st : Status) (d : Nat) (j : Nat) (s : State) : (s.cancelArmed p st d).port? j = s.port? j := by
  simp [State.port?]
@[simp] theorem State.pack_cancelArmed (p : Armed → Bool) (st : Status) (d : Nat) (j : Nat) (s : State) : (s.cancelArmed p st d).pack j = s.pack j := by
  simp [State.pack]
@[simp] theorem State.mc_cancelArmed (p : Armed → Bool) (st : Status) (d : Nat) (j : Nat) (s : State) : (s.cancelArmed p st d).mc j = s.mc j := by
  simp [State.mc]
@[simp] theorem State.dc_cancelArmed (p : Armed → Bool) (st : Status) (d : Nat) (j : Nat) (s : State) : (s.cancelArmed p st d).dc j = s.dc j := by
  simp [State.dc]
@[simp] theorem State.sysHeld_cancelArmed (p : Armed → Bool) (st : Status) (d : Nat)  (s : State) : (s.cancelArmed p st d).sysHeld = s.sysHeld := by
  simp [State.sysHeld]
@[simp] theorem State.tileTemp_cancelArmed (p : Armed → Bool) (st : Status) (d : Nat) (j : Nat) (s : State) : (s.cancelArmed p st d).tileTemp j = s.tileTemp j := by
  simp [State.tileTemp]

/-! ### arm -/

@[simp] theorem State.arm_tn (a : Armed) (s : State) : (s.arm a).tn = s.tn := by
  simp [State.arm]
@[simp] theorem State.arm_tickOffset (a : Armed) (s : State) : (s.arm a).tickOffset = s.tickOffset := by
  simp [State.arm]
@[simp] theorem State.arm_ticks (a : Armed) (s : State) : (s.arm a).ticks = s.ticks := by
  simp [State.arm]
@[simp] theorem State.arm_tnProvisional (a : Armed) (s : State) : (s.arm a).tnProvisional = s.tnProvisional := by
  simp [State.arm]
@[simp] theorem State.arm_realign (a : Armed) (s : State) : (s.arm a).realign = s.realign := by
  simp [State.arm]
@[simp] theorem State.arm_trafficLast (a : Armed) (s : State) : (s.arm a).trafficLast = s.trafficLast := by
  simp [State.arm]
@[simp] theorem State.arm_engines (a : Armed) (s : State) : (s.arm a).engines = s.engines := by
  simp [State.arm]
@[simp] theorem State.arm_tiles (a : Armed) (s : State) : (s.arm a).tiles = s.tiles := by
  simp [State.arm]
@[simp] theorem State.arm_htiles (a : Armed) (s : State) : (s.arm a).htiles = s.htiles := by
  simp [State.arm]
@[simp] theorem State.arm_lanes (a : Armed) (s : State) : (s.arm a).lanes = s.lanes := by
  simp [State.arm]
@[simp] theorem State.arm_ports (a : Armed) (s : State) : (s.arm a).ports = s.ports := by
  simp [State.arm]
@[simp] theorem State.arm_packs (a : Armed) (s : State) : (s.arm a).packs = s.packs := by
  simp [State.arm]
@[simp] theorem State.arm_cal (a : Armed) (s : State) : (s.arm a).cal = s.cal := by
  simp [State.arm]
@[simp] theorem State.arm_map (a : Armed) (s : State) : (s.arm a).map = s.map := by
  simp [State.arm]
@[simp] theorem State.arm_mapCentre (a : Armed) (s : State) : (s.arm a).mapCentre = s.mapCentre := by
  simp [State.arm]
@[simp] theorem State.arm_mons (a : Armed) (s : State) : (s.arm a).mons = s.mons := by
  simp [State.arm]
@[simp] theorem State.arm_tlmq (a : Armed) (s : State) : (s.arm a).tlmq = s.tlmq := by
  simp [State.arm]
@[simp] theorem State.arm_chains (a : Armed) (s : State) : (s.arm a).chains = s.chains := by
  simp [State.arm]
@[simp] theorem State.arm_dma (a : Armed) (s : State) : (s.arm a).dma = s.dma := by
  simp [State.arm]
@[simp] theorem State.arm_ctr (a : Armed) (s : State) : (s.arm a).ctr = s.ctr := by
  simp [State.arm]
@[simp] theorem State.arm_power (a : Armed) (s : State) : (s.arm a).power = s.power := by
  simp [State.arm]
@[simp] theorem State.arm_recovery (a : Armed) (s : State) : (s.arm a).recovery = s.recovery := by
  simp [State.arm]
@[simp] theorem State.arm_kennel (a : Armed) (s : State) : (s.arm a).kennel = s.kennel := by
  simp [State.arm]
@[simp] theorem State.arm_time (a : Armed) (s : State) : (s.arm a).time = s.time := by
  simp [State.arm]
@[simp] theorem State.arm_sec (a : Armed) (s : State) : (s.arm a).sec = s.sec := by
  simp [State.arm]
@[simp] theorem State.arm_clockIdentity (a : Armed) (s : State) : (s.arm a).clockIdentity = s.clockIdentity := by
  simp [State.arm]
@[simp] theorem State.arm_parityLast (a : Armed) (s : State) : (s.arm a).parityLast = s.parityLast := by
  simp [State.arm]
@[simp] theorem State.arm_readWord (a : Armed) (s : State) : (s.arm a).readWord = s.readWord := by
  simp [State.arm]
@[simp] theorem State.arm_spiReply (a : Armed) (s : State) : (s.arm a).spiReply = s.spiReply := by
  simp [State.arm]
@[simp] theorem State.arm_freeCtr (a : Armed) (s : State) : (s.arm a).freeCtr = s.freeCtr := by
  simp [State.arm]
@[simp] theorem State.arm_pending (a : Armed) (s : State) : (s.arm a).pending = s.pending := by
  simp [State.arm]
@[simp] theorem State.eng_arm (a : Armed) (j : Nat) (s : State) : (s.arm a).eng j = s.eng j := by
  simp [State.eng]
@[simp] theorem State.tile_arm (a : Armed) (j : Nat) (s : State) : (s.arm a).tile j = s.tile j := by
  simp [State.tile]
@[simp] theorem State.fenced_arm (a : Armed) (j : Nat) (s : State) : (s.arm a).fenced j = s.fenced j := by
  simp [State.fenced]
@[simp] theorem State.lane_arm (a : Armed) (j : Nat) (s : State) : (s.arm a).lane j = s.lane j := by
  simp [State.lane]
@[simp] theorem State.htile_arm (a : Armed) (j : Nat) (s : State) : (s.arm a).htile j = s.htile j := by
  simp [State.htile]
@[simp] theorem State.portOpt_arm (a : Armed) (j : Nat) (s : State) : (s.arm a).port? j = s.port? j := by
  simp [State.port?]
@[simp] theorem State.pack_arm (a : Armed) (j : Nat) (s : State) : (s.arm a).pack j = s.pack j := by
  simp [State.pack]
@[simp] theorem State.mc_arm (a : Armed) (j : Nat) (s : State) : (s.arm a).mc j = s.mc j := by
  simp [State.mc]
@[simp] theorem State.dc_arm (a : Armed) (j : Nat) (s : State) : (s.arm a).dc j = s.dc j := by
  simp [State.dc]
@[simp] theorem State.sysHeld_arm (a : Armed)  (s : State) : (s.arm a).sysHeld = s.sysHeld := by
  simp [State.sysHeld]
@[simp] theorem State.tileTemp_arm (a : Armed) (j : Nat) (s : State) : (s.arm a).tileTemp j = s.tileTemp j := by
  simp [State.tileTemp]

end Sys2Proof.Machine
end

