-- ==== Sys2Proof/Laws/Fields.lean ====
section
/-! SUPPORT. What the shared operations leave unchanged inside the parts they touch. -/
namespace Sys2Proof.Machine

@[simp] theorem State.modQreg_proto (i : Nat) (f : QueueRegs → QueueRegs) (s : State) :
    (s.modQreg i f).proto = { s.proto with regs := vmod s.proto.regs i f } := rfl
@[simp] theorem State.happen_happened (slot n : Nat) (s : State) (h : n ≠ 0) :
    (s.happen slot n).ctr.happened = (slot, n) :: s.ctr.happened := by simp [State.happen, h]

/-! ### happen -/

@[simp] theorem State.happen_ctr_slots (slot n : Nat) (s : State) : (s.happen slot n).ctr.slots = s.ctr.slots := by
  unfold State.happen; split <;> simp
@[simp] theorem State.happen_ctr_later (slot n : Nat) (s : State) : (s.happen slot n).ctr.later = s.ctr.later := by
  unfold State.happen; split <;> simp
@[simp] theorem State.happen_ctr_coming (slot n : Nat) (s : State) : (s.happen slot n).ctr.coming = s.ctr.coming := by
  unfold State.happen; split <;> simp
@[simp] theorem State.happen_ctr_carries (slot n : Nat) (s : State) : (s.happen slot n).ctr.carries = s.ctr.carries := by
  unfold State.happen; split <;> simp
@[simp] theorem State.happen_ctr_heads (slot n : Nat) (s : State) : (s.happen slot n).ctr.heads = s.ctr.heads := by
  unfold State.happen; split <;> simp
@[simp] theorem State.happen_ctr_filters (slot n : Nat) (s : State) : (s.happen slot n).ctr.filters = s.ctr.filters := by
  unfold State.happen; split <;> simp
@[simp] theorem State.happen_ctr_bw (slot n : Nat) (s : State) : (s.happen slot n).ctr.bw = s.ctr.bw := by
  unfold State.happen; split <;> simp
@[simp] theorem State.happen_ctr_latchPcie (slot n : Nat) (s : State) : (s.happen slot n).ctr.latchPcie = s.ctr.latchPcie := by
  unfold State.happen; split <;> simp
@[simp] theorem State.happen_ctr_latchSpi (slot n : Nat) (s : State) : (s.happen slot n).ctr.latchSpi = s.ctr.latchSpi := by
  unfold State.happen; split <;> simp
@[simp] theorem State.happen_ctr_latchFw (slot n : Nat) (s : State) : (s.happen slot n).ctr.latchFw = s.ctr.latchFw := by
  unfold State.happen; split <;> simp
@[simp] theorem State.happen_ctr_image (slot n : Nat) (s : State) : (s.happen slot n).ctr.image = s.ctr.image := by
  unfold State.happen; split <;> simp
@[simp] theorem State.happen_ctr_waiting (slot n : Nat) (s : State) : (s.happen slot n).ctr.waiting = s.ctr.waiting := by
  unfold State.happen; split <;> simp
@[simp] theorem State.happen_ctr_snapSeq (slot n : Nat) (s : State) : (s.happen slot n).ctr.snapSeq = s.ctr.snapSeq := by
  unfold State.happen; split <;> simp
@[simp] theorem State.happen_ctr_snapValid (slot n : Nat) (s : State) : (s.happen slot n).ctr.snapValid = s.ctr.snapValid := by
  unfold State.happen; split <;> simp

/-! ### count -/

@[simp] theorem State.count_ctr_slots (c : Ctr) (k : Kind) (i n : Nat) (s : State) : (s.count c k i n).ctr.slots = s.ctr.slots := by
  simp [State.count]
@[simp] theorem State.count_ctr_later (c : Ctr) (k : Kind) (i n : Nat) (s : State) : (s.count c k i n).ctr.later = s.ctr.later := by
  simp [State.count]
@[simp] theorem State.count_ctr_coming (c : Ctr) (k : Kind) (i n : Nat) (s : State) : (s.count c k i n).ctr.coming = s.ctr.coming := by
  simp [State.count]
@[simp] theorem State.count_ctr_carries (c : Ctr) (k : Kind) (i n : Nat) (s : State) : (s.count c k i n).ctr.carries = s.ctr.carries := by
  simp [State.count]
@[simp] theorem State.count_ctr_heads (c : Ctr) (k : Kind) (i n : Nat) (s : State) : (s.count c k i n).ctr.heads = s.ctr.heads := by
  simp [State.count]
@[simp] theorem State.count_ctr_filters (c : Ctr) (k : Kind) (i n : Nat) (s : State) : (s.count c k i n).ctr.filters = s.ctr.filters := by
  simp [State.count]
@[simp] theorem State.count_ctr_bw (c : Ctr) (k : Kind) (i n : Nat) (s : State) : (s.count c k i n).ctr.bw = s.ctr.bw := by
  simp [State.count]
@[simp] theorem State.count_ctr_latchPcie (c : Ctr) (k : Kind) (i n : Nat) (s : State) : (s.count c k i n).ctr.latchPcie = s.ctr.latchPcie := by
  simp [State.count]
@[simp] theorem State.count_ctr_latchSpi (c : Ctr) (k : Kind) (i n : Nat) (s : State) : (s.count c k i n).ctr.latchSpi = s.ctr.latchSpi := by
  simp [State.count]
@[simp] theorem State.count_ctr_latchFw (c : Ctr) (k : Kind) (i n : Nat) (s : State) : (s.count c k i n).ctr.latchFw = s.ctr.latchFw := by
  simp [State.count]
@[simp] theorem State.count_ctr_image (c : Ctr) (k : Kind) (i n : Nat) (s : State) : (s.count c k i n).ctr.image = s.ctr.image := by
  simp [State.count]
@[simp] theorem State.count_ctr_waiting (c : Ctr) (k : Kind) (i n : Nat) (s : State) : (s.count c k i n).ctr.waiting = s.ctr.waiting := by
  simp [State.count]
@[simp] theorem State.count_ctr_snapSeq (c : Ctr) (k : Kind) (i n : Nat) (s : State) : (s.count c k i n).ctr.snapSeq = s.ctr.snapSeq := by
  simp [State.count]
@[simp] theorem State.count_ctr_snapValid (c : Ctr) (k : Kind) (i n : Nat) (s : State) : (s.count c k i n).ctr.snapValid = s.ctr.snapValid := by
  simp [State.count]

/-! ### countSub -/

@[simp] theorem State.countSub_ctr_slots (c : Ctr) (k : Kind) (i b n : Nat) (s : State) : (s.countSub c k i b n).ctr.slots = s.ctr.slots := by
  simp [State.countSub]
@[simp] theorem State.countSub_ctr_later (c : Ctr) (k : Kind) (i b n : Nat) (s : State) : (s.countSub c k i b n).ctr.later = s.ctr.later := by
  simp [State.countSub]
@[simp] theorem State.countSub_ctr_coming (c : Ctr) (k : Kind) (i b n : Nat) (s : State) : (s.countSub c k i b n).ctr.coming = s.ctr.coming := by
  simp [State.countSub]
@[simp] theorem State.countSub_ctr_carries (c : Ctr) (k : Kind) (i b n : Nat) (s : State) : (s.countSub c k i b n).ctr.carries = s.ctr.carries := by
  simp [State.countSub]
@[simp] theorem State.countSub_ctr_heads (c : Ctr) (k : Kind) (i b n : Nat) (s : State) : (s.countSub c k i b n).ctr.heads = s.ctr.heads := by
  simp [State.countSub]
@[simp] theorem State.countSub_ctr_filters (c : Ctr) (k : Kind) (i b n : Nat) (s : State) : (s.countSub c k i b n).ctr.filters = s.ctr.filters := by
  simp [State.countSub]
@[simp] theorem State.countSub_ctr_bw (c : Ctr) (k : Kind) (i b n : Nat) (s : State) : (s.countSub c k i b n).ctr.bw = s.ctr.bw := by
  simp [State.countSub]
@[simp] theorem State.countSub_ctr_latchPcie (c : Ctr) (k : Kind) (i b n : Nat) (s : State) : (s.countSub c k i b n).ctr.latchPcie = s.ctr.latchPcie := by
  simp [State.countSub]
@[simp] theorem State.countSub_ctr_latchSpi (c : Ctr) (k : Kind) (i b n : Nat) (s : State) : (s.countSub c k i b n).ctr.latchSpi = s.ctr.latchSpi := by
  simp [State.countSub]
@[simp] theorem State.countSub_ctr_latchFw (c : Ctr) (k : Kind) (i b n : Nat) (s : State) : (s.countSub c k i b n).ctr.latchFw = s.ctr.latchFw := by
  simp [State.countSub]
@[simp] theorem State.countSub_ctr_image (c : Ctr) (k : Kind) (i b n : Nat) (s : State) : (s.countSub c k i b n).ctr.image = s.ctr.image := by
  simp [State.countSub]
@[simp] theorem State.countSub_ctr_waiting (c : Ctr) (k : Kind) (i b n : Nat) (s : State) : (s.countSub c k i b n).ctr.waiting = s.ctr.waiting := by
  simp [State.countSub]
@[simp] theorem State.countSub_ctr_snapSeq (c : Ctr) (k : Kind) (i b n : Nat) (s : State) : (s.countSub c k i b n).ctr.snapSeq = s.ctr.snapSeq := by
  simp [State.countSub]
@[simp] theorem State.countSub_ctr_snapValid (c : Ctr) (k : Kind) (i b n : Nat) (s : State) : (s.countSub c k i b n).ctr.snapValid = s.ctr.snapValid := by
  simp [State.countSub]

/-! ### signal -/

@[simp] theorem State.signal_dev_stage (v : Nat) (s : State) : (s.signal v).dev.stage = s.dev.stage := by
  unfold State.signal; split <;> simp
@[simp] theorem State.signal_dev_fwSlot (v : Nat) (s : State) : (s.signal v).dev.fwSlot = s.dev.fwSlot := by
  unfold State.signal; split <;> simp
@[simp] theorem State.signal_dev_bootErr (v : Nat) (s : State) : (s.signal v).dev.bootErr = s.dev.bootErr := by
  unfold State.signal; split <;> simp
@[simp] theorem State.signal_dev_alertMask (v : Nat) (s : State) : (s.signal v).dev.alertMask = s.dev.alertMask := by
  unfold State.signal; split <;> simp
@[simp] theorem State.signal_dev_scratch (v : Nat) (s : State) : (s.signal v).dev.scratch = s.dev.scratch := by
  unfold State.signal; split <;> simp
@[simp] theorem State.signal_dev_bootImgAddrLo (v : Nat) (s : State) : (s.signal v).dev.bootImgAddrLo = s.dev.bootImgAddrLo := by
  unfold State.signal; split <;> simp
@[simp] theorem State.signal_dev_bootImgAddrHi (v : Nat) (s : State) : (s.signal v).dev.bootImgAddrHi = s.dev.bootImgAddrHi := by
  unfold State.signal; split <;> simp
@[simp] theorem State.signal_dev_bootImgLen (v : Nat) (s : State) : (s.signal v).dev.bootImgLen = s.dev.bootImgLen := by
  unfold State.signal; split <;> simp
@[simp] theorem State.signal_dev_bootGo (v : Nat) (s : State) : (s.signal v).dev.bootGo = s.dev.bootGo := by
  unfold State.signal; split <;> simp
@[simp] theorem State.signal_dev_bootSrc (v : Nat) (s : State) : (s.signal v).dev.bootSrc = s.dev.bootSrc := by
  unfold State.signal; split <;> simp
@[simp] theorem State.signal_dev_bootStage (v : Nat) (s : State) : (s.signal v).dev.bootStage = s.dev.bootStage := by
  unfold State.signal; split <;> simp
@[simp] theorem State.signal_dev_alertAsserted (v : Nat) (s : State) : (s.signal v).dev.alertAsserted = s.dev.alertAsserted := by
  unfold State.signal; split <;> simp
@[simp] theorem State.signal_dev_endpointUp (v : Nat) (s : State) : (s.signal v).dev.endpointUp = s.dev.endpointUp := by
  unfold State.signal; split <;> simp
@[simp] theorem State.signal_dev_linkUp (v : Nat) (s : State) : (s.signal v).dev.linkUp = s.dev.linkUp := by
  unfold State.signal; split <;> simp
@[simp] theorem State.signal_dev_d3hot (v : Nat) (s : State) : (s.signal v).dev.d3hot = s.dev.d3hot := by
  unfold State.signal; split <;> simp

/-! ### signalRing -/

@[simp] theorem State.signalRing_dev_stage (q : Nat) (s : State) : (s.signalRing q).dev.stage = s.dev.stage := by
  unfold State.signalRing; split <;> simp
@[simp] theorem State.signalRing_dev_fwSlot (q : Nat) (s : State) : (s.signalRing q).dev.fwSlot = s.dev.fwSlot := by
  unfold State.signalRing; split <;> simp
@[simp] theorem State.signalRing_dev_bootErr (q : Nat) (s : State) : (s.signalRing q).dev.bootErr = s.dev.bootErr := by
  unfold State.signalRing; split <;> simp
@[simp] theorem State.signalRing_dev_alertMask (q : Nat) (s : State) : (s.signalRing q).dev.alertMask = s.dev.alertMask := by
  unfold State.signalRing; split <;> simp
@[simp] theorem State.signalRing_dev_scratch (q : Nat) (s : State) : (s.signalRing q).dev.scratch = s.dev.scratch := by
  unfold State.signalRing; split <;> simp
@[simp] theorem State.signalRing_dev_bootImgAddrLo (q : Nat) (s : State) : (s.signalRing q).dev.bootImgAddrLo = s.dev.bootImgAddrLo := by
  unfold State.signalRing; split <;> simp
@[simp] theorem State.signalRing_dev_bootImgAddrHi (q : Nat) (s : State) : (s.signalRing q).dev.bootImgAddrHi = s.dev.bootImgAddrHi := by
  unfold State.signalRing; split <;> simp
@[simp] theorem State.signalRing_dev_bootImgLen (q : Nat) (s : State) : (s.signalRing q).dev.bootImgLen = s.dev.bootImgLen := by
  unfold State.signalRing; split <;> simp
@[simp] theorem State.signalRing_dev_bootGo (q : Nat) (s : State) : (s.signalRing q).dev.bootGo = s.dev.bootGo := by
  unfold State.signalRing; split <;> simp
@[simp] theorem State.signalRing_dev_bootSrc (q : Nat) (s : State) : (s.signalRing q).dev.bootSrc = s.dev.bootSrc := by
  unfold State.signalRing; split <;> simp
@[simp] theorem State.signalRing_dev_bootStage (q : Nat) (s : State) : (s.signalRing q).dev.bootStage = s.dev.bootStage := by
  unfold State.signalRing; split <;> simp
@[simp] theorem State.signalRing_dev_alertAsserted (q : Nat) (s : State) : (s.signalRing q).dev.alertAsserted = s.dev.alertAsserted := by
  unfold State.signalRing; split <;> simp
@[simp] theorem State.signalRing_dev_endpointUp (q : Nat) (s : State) : (s.signalRing q).dev.endpointUp = s.dev.endpointUp := by
  unfold State.signalRing; split <;> simp
@[simp] theorem State.signalRing_dev_linkUp (q : Nat) (s : State) : (s.signalRing q).dev.linkUp = s.dev.linkUp := by
  unfold State.signalRing; split <;> simp
@[simp] theorem State.signalRing_dev_d3hot (q : Nat) (s : State) : (s.signalRing q).dev.d3hot = s.dev.d3hot := by
  unfold State.signalRing; split <;> simp
@[simp] theorem State.signalRing_proto_ring (q : Nat) (s : State) : (s.signalRing q).proto.ring = s.proto.ring := by
  unfold State.signalRing; split <;> simp
@[simp] theorem State.signalRing_proto_spi (q : Nat) (s : State) : (s.signalRing q).proto.spi = s.proto.spi := by
  unfold State.signalRing; split <;> simp
@[simp] theorem State.signalRing_proto_internal (q : Nat) (s : State) : (s.signalRing q).proto.internal = s.proto.internal := by
  unfold State.signalRing; split <;> simp
@[simp] theorem State.signalRing_proto_shepInternal (q : Nat) (s : State) : (s.signalRing q).proto.shepInternal = s.proto.shepInternal := by
  unfold State.signalRing; split <;> simp
@[simp] theorem State.signalRing_proto_resp (q : Nat) (s : State) : (s.signalRing q).proto.resp = s.proto.resp := by
  unfold State.signalRing; split <;> simp
@[simp] theorem State.signalRing_proto_heldResp (q : Nat) (s : State) : (s.signalRing q).proto.heldResp = s.proto.heldResp := by
  unfold State.signalRing; split <;> simp
@[simp] theorem State.signalRing_proto_internalResp (q : Nat) (s : State) : (s.signalRing q).proto.internalResp = s.proto.internalResp := by
  unfold State.signalRing; split <;> simp
@[simp] theorem State.signalRing_proto_eventRing (q : Nat) (s : State) : (s.signalRing q).proto.eventRing = s.proto.eventRing := by
  unfold State.signalRing; split <;> simp
@[simp] theorem State.signalRing_proto_eventQueue (q : Nat) (s : State) : (s.signalRing q).proto.eventQueue = s.proto.eventQueue := by
  unfold State.signalRing; split <;> simp
@[simp] theorem State.signalRing_proto_heldEvents (q : Nat) (s : State) : (s.signalRing q).proto.heldEvents = s.proto.heldEvents := by
  unfold State.signalRing; split <;> simp
@[simp] theorem State.signalRing_proto_mgmtRdy (q : Nat) (s : State) : (s.signalRing q).proto.mgmtRdy = s.proto.mgmtRdy := by
  unfold State.signalRing; split <;> simp
@[simp] theorem State.signalRing_proto_spiRespRead (q : Nat) (s : State) : (s.signalRing q).proto.spiRespRead = s.proto.spiRespRead := by
  unfold State.signalRing; split <;> simp
@[simp] theorem State.signalRing_proto_spiEventRead (q : Nat) (s : State) : (s.signalRing q).proto.spiEventRead = s.proto.spiEventRead := by
  unfold State.signalRing; split <;> simp
@[simp] theorem State.signalRing_proto_spiOpen (q : Nat) (s : State) : (s.signalRing q).proto.spiOpen = s.proto.spiOpen := by
  unfold State.signalRing; split <;> simp
@[simp] theorem State.signalRing_proto_spiDrop (q : Nat) (s : State) : (s.signalRing q).proto.spiDrop = s.proto.spiDrop := by
  unfold State.signalRing; split <;> simp
@[simp] theorem State.signalRing_proto_spiDead (q : Nat) (s : State) : (s.signalRing q).proto.spiDead = s.proto.spiDead := by
  unfold State.signalRing; split <;> simp
@[simp] theorem State.signalRing_proto_armed (q : Nat) (s : State) : (s.signalRing q).proto.armed = s.proto.armed := by
  unfold State.signalRing; split <;> simp
@[simp] theorem State.signalRing_proto_jobs (q : Nat) (s : State) : (s.signalRing q).proto.jobs = s.proto.jobs := by
  unfold State.signalRing; split <;> simp
@[simp] theorem State.signalRing_proto_held (q : Nat) (s : State) : (s.signalRing q).proto.held = s.proto.held := by
  unfold State.signalRing; split <;> simp
@[simp] theorem State.signalRing_proto_nextSeq (q : Nat) (s : State) : (s.signalRing q).proto.nextSeq = s.proto.nextSeq := by
  unfold State.signalRing; split <;> simp
@[simp] theorem State.signalRing_proto_mgmtResetArmed (q : Nat) (s : State) : (s.signalRing q).proto.mgmtResetArmed = s.proto.mgmtResetArmed := by
  unfold State.signalRing; split <;> simp
@[simp] theorem State.signalRing_proto_masked (q : Nat) (s : State) : (s.signalRing q).proto.masked = s.proto.masked := by
  unfold State.signalRing; split <;> simp
@[simp] theorem State.signalRing_proto_owedFinals (q : Nat) (s : State) : (s.signalRing q).proto.owedFinals = s.proto.owedFinals := by
  unfold State.signalRing; split <;> simp

/-! ### advanced -/

@[simp] theorem State.advanced_dev_stage (q : Nat) (s : State) : (s.advanced q).dev.stage = s.dev.stage := by
  simp only [State.advanced]; (repeat' split) <;> simp
@[simp] theorem State.advanced_dev_fwSlot (q : Nat) (s : State) : (s.advanced q).dev.fwSlot = s.dev.fwSlot := by
  simp only [State.advanced]; (repeat' split) <;> simp
@[simp] theorem State.advanced_dev_bootErr (q : Nat) (s : State) : (s.advanced q).dev.bootErr = s.dev.bootErr := by
  simp only [State.advanced]; (repeat' split) <;> simp
@[simp] theorem State.advanced_dev_alertMask (q : Nat) (s : State) : (s.advanced q).dev.alertMask = s.dev.alertMask := by
  simp only [State.advanced]; (repeat' split) <;> simp
@[simp] theorem State.advanced_dev_scratch (q : Nat) (s : State) : (s.advanced q).dev.scratch = s.dev.scratch := by
  simp only [State.advanced]; (repeat' split) <;> simp
@[simp] theorem State.advanced_dev_bootImgAddrLo (q : Nat) (s : State) : (s.advanced q).dev.bootImgAddrLo = s.dev.bootImgAddrLo := by
  simp only [State.advanced]; (repeat' split) <;> simp
@[simp] theorem State.advanced_dev_bootImgAddrHi (q : Nat) (s : State) : (s.advanced q).dev.bootImgAddrHi = s.dev.bootImgAddrHi := by
  simp only [State.advanced]; (repeat' split) <;> simp
@[simp] theorem State.advanced_dev_bootImgLen (q : Nat) (s : State) : (s.advanced q).dev.bootImgLen = s.dev.bootImgLen := by
  simp only [State.advanced]; (repeat' split) <;> simp
@[simp] theorem State.advanced_dev_bootGo (q : Nat) (s : State) : (s.advanced q).dev.bootGo = s.dev.bootGo := by
  simp only [State.advanced]; (repeat' split) <;> simp
@[simp] theorem State.advanced_dev_bootSrc (q : Nat) (s : State) : (s.advanced q).dev.bootSrc = s.dev.bootSrc := by
  simp only [State.advanced]; (repeat' split) <;> simp
@[simp] theorem State.advanced_dev_bootStage (q : Nat) (s : State) : (s.advanced q).dev.bootStage = s.dev.bootStage := by
  simp only [State.advanced]; (repeat' split) <;> simp
@[simp] theorem State.advanced_dev_alertAsserted (q : Nat) (s : State) : (s.advanced q).dev.alertAsserted = s.dev.alertAsserted := by
  simp only [State.advanced]; (repeat' split) <;> simp
@[simp] theorem State.advanced_dev_endpointUp (q : Nat) (s : State) : (s.advanced q).dev.endpointUp = s.dev.endpointUp := by
  simp only [State.advanced]; (repeat' split) <;> simp
@[simp] theorem State.advanced_dev_linkUp (q : Nat) (s : State) : (s.advanced q).dev.linkUp = s.dev.linkUp := by
  simp only [State.advanced]; (repeat' split) <;> simp
@[simp] theorem State.advanced_dev_d3hot (q : Nat) (s : State) : (s.advanced q).dev.d3hot = s.dev.d3hot := by
  simp only [State.advanced]; (repeat' split) <;> simp
@[simp] theorem State.advanced_proto_ring (q : Nat) (s : State) : (s.advanced q).proto.ring = s.proto.ring := by
  simp only [State.advanced]; (repeat' split) <;> simp
@[simp] theorem State.advanced_proto_spi (q : Nat) (s : State) : (s.advanced q).proto.spi = s.proto.spi := by
  simp only [State.advanced]; (repeat' split) <;> simp
@[simp] theorem State.advanced_proto_internal (q : Nat) (s : State) : (s.advanced q).proto.internal = s.proto.internal := by
  simp only [State.advanced]; (repeat' split) <;> simp
@[simp] theorem State.advanced_proto_shepInternal (q : Nat) (s : State) : (s.advanced q).proto.shepInternal = s.proto.shepInternal := by
  simp only [State.advanced]; (repeat' split) <;> simp
@[simp] theorem State.advanced_proto_resp (q : Nat) (s : State) : (s.advanced q).proto.resp = s.proto.resp := by
  simp only [State.advanced]; (repeat' split) <;> simp
@[simp] theorem State.advanced_proto_heldResp (q : Nat) (s : State) : (s.advanced q).proto.heldResp = s.proto.heldResp := by
  simp only [State.advanced]; (repeat' split) <;> simp
@[simp] theorem State.advanced_proto_internalResp (q : Nat) (s : State) : (s.advanced q).proto.internalResp = s.proto.internalResp := by
  simp only [State.advanced]; (repeat' split) <;> simp
@[simp] theorem State.advanced_proto_eventRing (q : Nat) (s : State) : (s.advanced q).proto.eventRing = s.proto.eventRing := by
  simp only [State.advanced]; (repeat' split) <;> simp
@[simp] theorem State.advanced_proto_eventQueue (q : Nat) (s : State) : (s.advanced q).proto.eventQueue = s.proto.eventQueue := by
  simp only [State.advanced]; (repeat' split) <;> simp
@[simp] theorem State.advanced_proto_heldEvents (q : Nat) (s : State) : (s.advanced q).proto.heldEvents = s.proto.heldEvents := by
  simp only [State.advanced]; (repeat' split) <;> simp
@[simp] theorem State.advanced_proto_mgmtRdy (q : Nat) (s : State) : (s.advanced q).proto.mgmtRdy = s.proto.mgmtRdy := by
  simp only [State.advanced]; (repeat' split) <;> simp
@[simp] theorem State.advanced_proto_spiRespRead (q : Nat) (s : State) : (s.advanced q).proto.spiRespRead = s.proto.spiRespRead := by
  simp only [State.advanced]; (repeat' split) <;> simp
@[simp] theorem State.advanced_proto_spiEventRead (q : Nat) (s : State) : (s.advanced q).proto.spiEventRead = s.proto.spiEventRead := by
  simp only [State.advanced]; (repeat' split) <;> simp
@[simp] theorem State.advanced_proto_spiOpen (q : Nat) (s : State) : (s.advanced q).proto.spiOpen = s.proto.spiOpen := by
  simp only [State.advanced]; (repeat' split) <;> simp
@[simp] theorem State.advanced_proto_spiDrop (q : Nat) (s : State) : (s.advanced q).proto.spiDrop = s.proto.spiDrop := by
  simp only [State.advanced]; (repeat' split) <;> simp
@[simp] theorem State.advanced_proto_spiDead (q : Nat) (s : State) : (s.advanced q).proto.spiDead = s.proto.spiDead := by
  simp only [State.advanced]; (repeat' split) <;> simp
@[simp] theorem State.advanced_proto_armed (q : Nat) (s : State) : (s.advanced q).proto.armed = s.proto.armed := by
  simp only [State.advanced]; (repeat' split) <;> simp
@[simp] theorem State.advanced_proto_jobs (q : Nat) (s : State) : (s.advanced q).proto.jobs = s.proto.jobs := by
  simp only [State.advanced]; (repeat' split) <;> simp
@[simp] theorem State.advanced_proto_held (q : Nat) (s : State) : (s.advanced q).proto.held = s.proto.held := by
  simp only [State.advanced]; (repeat' split) <;> simp
@[simp] theorem State.advanced_proto_nextSeq (q : Nat) (s : State) : (s.advanced q).proto.nextSeq = s.proto.nextSeq := by
  simp only [State.advanced]; (repeat' split) <;> simp
@[simp] theorem State.advanced_proto_mgmtResetArmed (q : Nat) (s : State) : (s.advanced q).proto.mgmtResetArmed = s.proto.mgmtResetArmed := by
  simp only [State.advanced]; (repeat' split) <;> simp
@[simp] theorem State.advanced_proto_masked (q : Nat) (s : State) : (s.advanced q).proto.masked = s.proto.masked := by
  simp only [State.advanced]; (repeat' split) <;> simp
@[simp] theorem State.advanced_proto_owedFinals (q : Nat) (s : State) : (s.advanced q).proto.owedFinals = s.proto.owedFinals := by
  simp only [State.advanced]; (repeat' split) <;> simp

/-! ### wmCross -/

@[simp] theorem State.wmCross_dev_stage (q old : Nat) (s : State) : (s.wmCross q old).dev.stage = s.dev.stage := by
  simp only [State.wmCross]; split <;> simp
@[simp] theorem State.wmCross_dev_fwSlot (q old : Nat) (s : State) : (s.wmCross q old).dev.fwSlot = s.dev.fwSlot := by
  simp only [State.wmCross]; split <;> simp
@[simp] theorem State.wmCross_dev_bootErr (q old : Nat) (s : State) : (s.wmCross q old).dev.bootErr = s.dev.bootErr := by
  simp only [State.wmCross]; split <;> simp
@[simp] theorem State.wmCross_dev_alertMask (q old : Nat) (s : State) : (s.wmCross q old).dev.alertMask = s.dev.alertMask := by
  simp only [State.wmCross]; split <;> simp
@[simp] theorem State.wmCross_dev_scratch (q old : Nat) (s : State) : (s.wmCross q old).dev.scratch = s.dev.scratch := by
  simp only [State.wmCross]; split <;> simp
@[simp] theorem State.wmCross_dev_bootImgAddrLo (q old : Nat) (s : State) : (s.wmCross q old).dev.bootImgAddrLo = s.dev.bootImgAddrLo := by
  simp only [State.wmCross]; split <;> simp
@[simp] theorem State.wmCross_dev_bootImgAddrHi (q old : Nat) (s : State) : (s.wmCross q old).dev.bootImgAddrHi = s.dev.bootImgAddrHi := by
  simp only [State.wmCross]; split <;> simp
@[simp] theorem State.wmCross_dev_bootImgLen (q old : Nat) (s : State) : (s.wmCross q old).dev.bootImgLen = s.dev.bootImgLen := by
  simp only [State.wmCross]; split <;> simp
@[simp] theorem State.wmCross_dev_bootGo (q old : Nat) (s : State) : (s.wmCross q old).dev.bootGo = s.dev.bootGo := by
  simp only [State.wmCross]; split <;> simp
@[simp] theorem State.wmCross_dev_bootSrc (q old : Nat) (s : State) : (s.wmCross q old).dev.bootSrc = s.dev.bootSrc := by
  simp only [State.wmCross]; split <;> simp
@[simp] theorem State.wmCross_dev_bootStage (q old : Nat) (s : State) : (s.wmCross q old).dev.bootStage = s.dev.bootStage := by
  simp only [State.wmCross]; split <;> simp
@[simp] theorem State.wmCross_dev_alertAsserted (q old : Nat) (s : State) : (s.wmCross q old).dev.alertAsserted = s.dev.alertAsserted := by
  simp only [State.wmCross]; split <;> simp
@[simp] theorem State.wmCross_dev_endpointUp (q old : Nat) (s : State) : (s.wmCross q old).dev.endpointUp = s.dev.endpointUp := by
  simp only [State.wmCross]; split <;> simp
@[simp] theorem State.wmCross_dev_linkUp (q old : Nat) (s : State) : (s.wmCross q old).dev.linkUp = s.dev.linkUp := by
  simp only [State.wmCross]; split <;> simp
@[simp] theorem State.wmCross_dev_d3hot (q old : Nat) (s : State) : (s.wmCross q old).dev.d3hot = s.dev.d3hot := by
  simp only [State.wmCross]; split <;> simp
@[simp] theorem State.wmCross_proto_ring (q old : Nat) (s : State) : (s.wmCross q old).proto.ring = s.proto.ring := by
  simp only [State.wmCross]; split <;> simp
@[simp] theorem State.wmCross_proto_spi (q old : Nat) (s : State) : (s.wmCross q old).proto.spi = s.proto.spi := by
  simp only [State.wmCross]; split <;> simp
@[simp] theorem State.wmCross_proto_internal (q old : Nat) (s : State) : (s.wmCross q old).proto.internal = s.proto.internal := by
  simp only [State.wmCross]; split <;> simp
@[simp] theorem State.wmCross_proto_shepInternal (q old : Nat) (s : State) : (s.wmCross q old).proto.shepInternal = s.proto.shepInternal := by
  simp only [State.wmCross]; split <;> simp
@[simp] theorem State.wmCross_proto_resp (q old : Nat) (s : State) : (s.wmCross q old).proto.resp = s.proto.resp := by
  simp only [State.wmCross]; split <;> simp
@[simp] theorem State.wmCross_proto_heldResp (q old : Nat) (s : State) : (s.wmCross q old).proto.heldResp = s.proto.heldResp := by
  simp only [State.wmCross]; split <;> simp
@[simp] theorem State.wmCross_proto_internalResp (q old : Nat) (s : State) : (s.wmCross q old).proto.internalResp = s.proto.internalResp := by
  simp only [State.wmCross]; split <;> simp
@[simp] theorem State.wmCross_proto_eventRing (q old : Nat) (s : State) : (s.wmCross q old).proto.eventRing = s.proto.eventRing := by
  simp only [State.wmCross]; split <;> simp
@[simp] theorem State.wmCross_proto_eventQueue (q old : Nat) (s : State) : (s.wmCross q old).proto.eventQueue = s.proto.eventQueue := by
  simp only [State.wmCross]; split <;> simp
@[simp] theorem State.wmCross_proto_heldEvents (q old : Nat) (s : State) : (s.wmCross q old).proto.heldEvents = s.proto.heldEvents := by
  simp only [State.wmCross]; split <;> simp
@[simp] theorem State.wmCross_proto_mgmtRdy (q old : Nat) (s : State) : (s.wmCross q old).proto.mgmtRdy = s.proto.mgmtRdy := by
  simp only [State.wmCross]; split <;> simp
@[simp] theorem State.wmCross_proto_spiRespRead (q old : Nat) (s : State) : (s.wmCross q old).proto.spiRespRead = s.proto.spiRespRead := by
  simp only [State.wmCross]; split <;> simp
@[simp] theorem State.wmCross_proto_spiEventRead (q old : Nat) (s : State) : (s.wmCross q old).proto.spiEventRead = s.proto.spiEventRead := by
  simp only [State.wmCross]; split <;> simp
@[simp] theorem State.wmCross_proto_spiOpen (q old : Nat) (s : State) : (s.wmCross q old).proto.spiOpen = s.proto.spiOpen := by
  simp only [State.wmCross]; split <;> simp
@[simp] theorem State.wmCross_proto_spiDrop (q old : Nat) (s : State) : (s.wmCross q old).proto.spiDrop = s.proto.spiDrop := by
  simp only [State.wmCross]; split <;> simp
@[simp] theorem State.wmCross_proto_spiDead (q old : Nat) (s : State) : (s.wmCross q old).proto.spiDead = s.proto.spiDead := by
  simp only [State.wmCross]; split <;> simp
@[simp] theorem State.wmCross_proto_armed (q old : Nat) (s : State) : (s.wmCross q old).proto.armed = s.proto.armed := by
  simp only [State.wmCross]; split <;> simp
@[simp] theorem State.wmCross_proto_jobs (q old : Nat) (s : State) : (s.wmCross q old).proto.jobs = s.proto.jobs := by
  simp only [State.wmCross]; split <;> simp
@[simp] theorem State.wmCross_proto_held (q old : Nat) (s : State) : (s.wmCross q old).proto.held = s.proto.held := by
  simp only [State.wmCross]; split <;> simp
@[simp] theorem State.wmCross_proto_nextSeq (q old : Nat) (s : State) : (s.wmCross q old).proto.nextSeq = s.proto.nextSeq := by
  simp only [State.wmCross]; split <;> simp
@[simp] theorem State.wmCross_proto_mgmtResetArmed (q old : Nat) (s : State) : (s.wmCross q old).proto.mgmtResetArmed = s.proto.mgmtResetArmed := by
  simp only [State.wmCross]; split <;> simp
@[simp] theorem State.wmCross_proto_masked (q old : Nat) (s : State) : (s.wmCross q old).proto.masked = s.proto.masked := by
  simp only [State.wmCross]; split <;> simp
@[simp] theorem State.wmCross_proto_owedFinals (q old : Nat) (s : State) : (s.wmCross q old).proto.owedFinals = s.proto.owedFinals := by
  simp only [State.wmCross]; split <;> simp

/-! ### refreshAlert -/

@[simp] theorem State.refreshAlert_dev_stage  (s : State) : (s.refreshAlert ).dev.stage = s.dev.stage := by
  unfold State.refreshAlert; (repeat' split) <;> simp
@[simp] theorem State.refreshAlert_dev_fwSlot  (s : State) : (s.refreshAlert ).dev.fwSlot = s.dev.fwSlot := by
  unfold State.refreshAlert; (repeat' split) <;> simp
@[simp] theorem State.refreshAlert_dev_bootErr  (s : State) : (s.refreshAlert ).dev.bootErr = s.dev.bootErr := by
  unfold State.refreshAlert; (repeat' split) <;> simp
@[simp] theorem State.refreshAlert_dev_alertMask  (s : State) : (s.refreshAlert ).dev.alertMask = s.dev.alertMask := by
  unfold State.refreshAlert; (repeat' split) <;> simp
@[simp] theorem State.refreshAlert_dev_scratch  (s : State) : (s.refreshAlert ).dev.scratch = s.dev.scratch := by
  unfold State.refreshAlert; (repeat' split) <;> simp
@[simp] theorem State.refreshAlert_dev_bootImgAddrLo  (s : State) : (s.refreshAlert ).dev.bootImgAddrLo = s.dev.bootImgAddrLo := by
  unfold State.refreshAlert; (repeat' split) <;> simp
@[simp] theorem State.refreshAlert_dev_bootImgAddrHi  (s : State) : (s.refreshAlert ).dev.bootImgAddrHi = s.dev.bootImgAddrHi := by
  unfold State.refreshAlert; (repeat' split) <;> simp
@[simp] theorem State.refreshAlert_dev_bootImgLen  (s : State) : (s.refreshAlert ).dev.bootImgLen = s.dev.bootImgLen := by
  unfold State.refreshAlert; (repeat' split) <;> simp
@[simp] theorem State.refreshAlert_dev_bootGo  (s : State) : (s.refreshAlert ).dev.bootGo = s.dev.bootGo := by
  unfold State.refreshAlert; (repeat' split) <;> simp
@[simp] theorem State.refreshAlert_dev_bootSrc  (s : State) : (s.refreshAlert ).dev.bootSrc = s.dev.bootSrc := by
  unfold State.refreshAlert; (repeat' split) <;> simp
@[simp] theorem State.refreshAlert_dev_bootStage  (s : State) : (s.refreshAlert ).dev.bootStage = s.dev.bootStage := by
  unfold State.refreshAlert; (repeat' split) <;> simp
@[simp] theorem State.refreshAlert_dev_endpointUp  (s : State) : (s.refreshAlert ).dev.endpointUp = s.dev.endpointUp := by
  unfold State.refreshAlert; (repeat' split) <;> simp
@[simp] theorem State.refreshAlert_dev_linkUp  (s : State) : (s.refreshAlert ).dev.linkUp = s.dev.linkUp := by
  unfold State.refreshAlert; (repeat' split) <;> simp
@[simp] theorem State.refreshAlert_dev_d3hot  (s : State) : (s.refreshAlert ).dev.d3hot = s.dev.d3hot := by
  unfold State.refreshAlert; (repeat' split) <;> simp

/-! ### postEvent -/

@[simp] theorem State.postEvent_dev_stage (e : EventItem) (s : State) : (s.postEvent e).dev.stage = s.dev.stage := by
  simp only [State.postEvent]; (repeat' split) <;> simp
@[simp] theorem State.postEvent_dev_fwSlot (e : EventItem) (s : State) : (s.postEvent e).dev.fwSlot = s.dev.fwSlot := by
  simp only [State.postEvent]; (repeat' split) <;> simp
@[simp] theorem State.postEvent_dev_bootErr (e : EventItem) (s : State) : (s.postEvent e).dev.bootErr = s.dev.bootErr := by
  simp only [State.postEvent]; (repeat' split) <;> simp
@[simp] theorem State.postEvent_dev_alertMask (e : EventItem) (s : State) : (s.postEvent e).dev.alertMask = s.dev.alertMask := by
  simp only [State.postEvent]; (repeat' split) <;> simp
@[simp] theorem State.postEvent_dev_scratch (e : EventItem) (s : State) : (s.postEvent e).dev.scratch = s.dev.scratch := by
  simp only [State.postEvent]; (repeat' split) <;> simp
@[simp] theorem State.postEvent_dev_bootImgAddrLo (e : EventItem) (s : State) : (s.postEvent e).dev.bootImgAddrLo = s.dev.bootImgAddrLo := by
  simp only [State.postEvent]; (repeat' split) <;> simp
@[simp] theorem State.postEvent_dev_bootImgAddrHi (e : EventItem) (s : State) : (s.postEvent e).dev.bootImgAddrHi = s.dev.bootImgAddrHi := by
  simp only [State.postEvent]; (repeat' split) <;> simp
@[simp] theorem State.postEvent_dev_bootImgLen (e : EventItem) (s : State) : (s.postEvent e).dev.bootImgLen = s.dev.bootImgLen := by
  simp only [State.postEvent]; (repeat' split) <;> simp
@[simp] theorem State.postEvent_dev_bootGo (e : EventItem) (s : State) : (s.postEvent e).dev.bootGo = s.dev.bootGo := by
  simp only [State.postEvent]; (repeat' split) <;> simp
@[simp] theorem State.postEvent_dev_bootSrc (e : EventItem) (s : State) : (s.postEvent e).dev.bootSrc = s.dev.bootSrc := by
  simp only [State.postEvent]; (repeat' split) <;> simp
@[simp] theorem State.postEvent_dev_bootStage (e : EventItem) (s : State) : (s.postEvent e).dev.bootStage = s.dev.bootStage := by
  simp only [State.postEvent]; (repeat' split) <;> simp
@[simp] theorem State.postEvent_dev_endpointUp (e : EventItem) (s : State) : (s.postEvent e).dev.endpointUp = s.dev.endpointUp := by
  simp only [State.postEvent]; (repeat' split) <;> simp
@[simp] theorem State.postEvent_dev_linkUp (e : EventItem) (s : State) : (s.postEvent e).dev.linkUp = s.dev.linkUp := by
  simp only [State.postEvent]; (repeat' split) <;> simp
@[simp] theorem State.postEvent_dev_d3hot (e : EventItem) (s : State) : (s.postEvent e).dev.d3hot = s.dev.d3hot := by
  simp only [State.postEvent]; (repeat' split) <;> simp
@[simp] theorem State.postEvent_proto_ring (e : EventItem) (s : State) : (s.postEvent e).proto.ring = s.proto.ring := by
  simp only [State.postEvent]; (repeat' split) <;> simp
@[simp] theorem State.postEvent_proto_spi (e : EventItem) (s : State) : (s.postEvent e).proto.spi = s.proto.spi := by
  simp only [State.postEvent]; (repeat' split) <;> simp
@[simp] theorem State.postEvent_proto_internal (e : EventItem) (s : State) : (s.postEvent e).proto.internal = s.proto.internal := by
  simp only [State.postEvent]; (repeat' split) <;> simp
@[simp] theorem State.postEvent_proto_shepInternal (e : EventItem) (s : State) : (s.postEvent e).proto.shepInternal = s.proto.shepInternal := by
  simp only [State.postEvent]; (repeat' split) <;> simp
@[simp] theorem State.postEvent_proto_resp (e : EventItem) (s : State) : (s.postEvent e).proto.resp = s.proto.resp := by
  simp only [State.postEvent]; (repeat' split) <;> simp
@[simp] theorem State.postEvent_proto_heldResp (e : EventItem) (s : State) : (s.postEvent e).proto.heldResp = s.proto.heldResp := by
  simp only [State.postEvent]; (repeat' split) <;> simp
@[simp] theorem State.postEvent_proto_internalResp (e : EventItem) (s : State) : (s.postEvent e).proto.internalResp = s.proto.internalResp := by
  simp only [State.postEvent]; (repeat' split) <;> simp
@[simp] theorem State.postEvent_proto_eventRing (e : EventItem) (s : State) : (s.postEvent e).proto.eventRing = s.proto.eventRing := by
  simp only [State.postEvent]; (repeat' split) <;> simp
@[simp] theorem State.postEvent_proto_mgmtRdy (e : EventItem) (s : State) : (s.postEvent e).proto.mgmtRdy = s.proto.mgmtRdy := by
  simp only [State.postEvent]; (repeat' split) <;> simp
@[simp] theorem State.postEvent_proto_spiRespRead (e : EventItem) (s : State) : (s.postEvent e).proto.spiRespRead = s.proto.spiRespRead := by
  simp only [State.postEvent]; (repeat' split) <;> simp
@[simp] theorem State.postEvent_proto_spiEventRead (e : EventItem) (s : State) : (s.postEvent e).proto.spiEventRead = s.proto.spiEventRead := by
  simp only [State.postEvent]; (repeat' split) <;> simp
@[simp] theorem State.postEvent_proto_spiOpen (e : EventItem) (s : State) : (s.postEvent e).proto.spiOpen = s.proto.spiOpen := by
  simp only [State.postEvent]; (repeat' split) <;> simp
@[simp] theorem State.postEvent_proto_spiDrop (e : EventItem) (s : State) : (s.postEvent e).proto.spiDrop = s.proto.spiDrop := by
  simp only [State.postEvent]; (repeat' split) <;> simp
@[simp] theorem State.postEvent_proto_spiDead (e : EventItem) (s : State) : (s.postEvent e).proto.spiDead = s.proto.spiDead := by
  simp only [State.postEvent]; (repeat' split) <;> simp
@[simp] theorem State.postEvent_proto_armed (e : EventItem) (s : State) : (s.postEvent e).proto.armed = s.proto.armed := by
  simp only [State.postEvent]; (repeat' split) <;> simp
@[simp] theorem State.postEvent_proto_jobs (e : EventItem) (s : State) : (s.postEvent e).proto.jobs = s.proto.jobs := by
  simp only [State.postEvent]; (repeat' split) <;> simp
@[simp] theorem State.postEvent_proto_held (e : EventItem) (s : State) : (s.postEvent e).proto.held = s.proto.held := by
  simp only [State.postEvent]; (repeat' split) <;> simp
@[simp] theorem State.postEvent_proto_nextSeq (e : EventItem) (s : State) : (s.postEvent e).proto.nextSeq = s.proto.nextSeq := by
  simp only [State.postEvent]; (repeat' split) <;> simp
@[simp] theorem State.postEvent_proto_mgmtResetArmed (e : EventItem) (s : State) : (s.postEvent e).proto.mgmtResetArmed = s.proto.mgmtResetArmed := by
  simp only [State.postEvent]; (repeat' split) <;> simp
@[simp] theorem State.postEvent_proto_masked (e : EventItem) (s : State) : (s.postEvent e).proto.masked = s.proto.masked := by
  simp only [State.postEvent]; (repeat' split) <;> simp
@[simp] theorem State.postEvent_proto_owedFinals (e : EventItem) (s : State) : (s.postEvent e).proto.owedFinals = s.proto.owedFinals := by
  simp only [State.postEvent]; (repeat' split) <;> simp

/-! ### raiseAt -/

@[simp] theorem State.raiseAt_ctr_slots (ev : Ev) (k : Kind) (i : Nat) (ws : List Word) (n : Nat) (s : State) : (s.raiseAt ev k i ws n).ctr.slots = s.ctr.slots := by
  simp only [State.raiseAt]; (repeat' split) <;> simp
@[simp] theorem State.raiseAt_ctr_later (ev : Ev) (k : Kind) (i : Nat) (ws : List Word) (n : Nat) (s : State) : (s.raiseAt ev k i ws n).ctr.later = s.ctr.later := by
  simp only [State.raiseAt]; (repeat' split) <;> simp
@[simp] theorem State.raiseAt_ctr_coming (ev : Ev) (k : Kind) (i : Nat) (ws : List Word) (n : Nat) (s : State) : (s.raiseAt ev k i ws n).ctr.coming = s.ctr.coming := by
  simp only [State.raiseAt]; (repeat' split) <;> simp
@[simp] theorem State.raiseAt_ctr_carries (ev : Ev) (k : Kind) (i : Nat) (ws : List Word) (n : Nat) (s : State) : (s.raiseAt ev k i ws n).ctr.carries = s.ctr.carries := by
  simp only [State.raiseAt]; (repeat' split) <;> simp
@[simp] theorem State.raiseAt_ctr_heads (ev : Ev) (k : Kind) (i : Nat) (ws : List Word) (n : Nat) (s : State) : (s.raiseAt ev k i ws n).ctr.heads = s.ctr.heads := by
  simp only [State.raiseAt]; (repeat' split) <;> simp
@[simp] theorem State.raiseAt_ctr_filters (ev : Ev) (k : Kind) (i : Nat) (ws : List Word) (n : Nat) (s : State) : (s.raiseAt ev k i ws n).ctr.filters = s.ctr.filters := by
  simp only [State.raiseAt]; (repeat' split) <;> simp
@[simp] theorem State.raiseAt_ctr_bw (ev : Ev) (k : Kind) (i : Nat) (ws : List Word) (n : Nat) (s : State) : (s.raiseAt ev k i ws n).ctr.bw = s.ctr.bw := by
  simp only [State.raiseAt]; (repeat' split) <;> simp
@[simp] theorem State.raiseAt_ctr_latchPcie (ev : Ev) (k : Kind) (i : Nat) (ws : List Word) (n : Nat) (s : State) : (s.raiseAt ev k i ws n).ctr.latchPcie = s.ctr.latchPcie := by
  simp only [State.raiseAt]; (repeat' split) <;> simp
@[simp] theorem State.raiseAt_ctr_latchSpi (ev : Ev) (k : Kind) (i : Nat) (ws : List Word) (n : Nat) (s : State) : (s.raiseAt ev k i ws n).ctr.latchSpi = s.ctr.latchSpi := by
  simp only [State.raiseAt]; (repeat' split) <;> simp
@[simp] theorem State.raiseAt_ctr_latchFw (ev : Ev) (k : Kind) (i : Nat) (ws : List Word) (n : Nat) (s : State) : (s.raiseAt ev k i ws n).ctr.latchFw = s.ctr.latchFw := by
  simp only [State.raiseAt]; (repeat' split) <;> simp
@[simp] theorem State.raiseAt_ctr_image (ev : Ev) (k : Kind) (i : Nat) (ws : List Word) (n : Nat) (s : State) : (s.raiseAt ev k i ws n).ctr.image = s.ctr.image := by
  simp only [State.raiseAt]; (repeat' split) <;> simp
@[simp] theorem State.raiseAt_ctr_waiting (ev : Ev) (k : Kind) (i : Nat) (ws : List Word) (n : Nat) (s : State) : (s.raiseAt ev k i ws n).ctr.waiting = s.ctr.waiting := by
  simp only [State.raiseAt]; (repeat' split) <;> simp
@[simp] theorem State.raiseAt_ctr_snapSeq (ev : Ev) (k : Kind) (i : Nat) (ws : List Word) (n : Nat) (s : State) : (s.raiseAt ev k i ws n).ctr.snapSeq = s.ctr.snapSeq := by
  simp only [State.raiseAt]; (repeat' split) <;> simp
@[simp] theorem State.raiseAt_ctr_snapValid (ev : Ev) (k : Kind) (i : Nat) (ws : List Word) (n : Nat) (s : State) : (s.raiseAt ev k i ws n).ctr.snapValid = s.ctr.snapValid := by
  simp only [State.raiseAt]; (repeat' split) <;> simp
@[simp] theorem State.raiseAt_dev_stage (ev : Ev) (k : Kind) (i : Nat) (ws : List Word) (n : Nat) (s : State) : (s.raiseAt ev k i ws n).dev.stage = s.dev.stage := by
  simp only [State.raiseAt]; (repeat' split) <;> simp
@[simp] theorem State.raiseAt_dev_fwSlot (ev : Ev) (k : Kind) (i : Nat) (ws : List Word) (n : Nat) (s : State) : (s.raiseAt ev k i ws n).dev.fwSlot = s.dev.fwSlot := by
  simp only [State.raiseAt]; (repeat' split) <;> simp
@[simp] theorem State.raiseAt_dev_bootErr (ev : Ev) (k : Kind) (i : Nat) (ws : List Word) (n : Nat) (s : State) : (s.raiseAt ev k i ws n).dev.bootErr = s.dev.bootErr := by
  simp only [State.raiseAt]; (repeat' split) <;> simp
@[simp] theorem State.raiseAt_dev_alertMask (ev : Ev) (k : Kind) (i : Nat) (ws : List Word) (n : Nat) (s : State) : (s.raiseAt ev k i ws n).dev.alertMask = s.dev.alertMask := by
  simp only [State.raiseAt]; (repeat' split) <;> simp
@[simp] theorem State.raiseAt_dev_scratch (ev : Ev) (k : Kind) (i : Nat) (ws : List Word) (n : Nat) (s : State) : (s.raiseAt ev k i ws n).dev.scratch = s.dev.scratch := by
  simp only [State.raiseAt]; (repeat' split) <;> simp
@[simp] theorem State.raiseAt_dev_bootImgAddrLo (ev : Ev) (k : Kind) (i : Nat) (ws : List Word) (n : Nat) (s : State) : (s.raiseAt ev k i ws n).dev.bootImgAddrLo = s.dev.bootImgAddrLo := by
  simp only [State.raiseAt]; (repeat' split) <;> simp
@[simp] theorem State.raiseAt_dev_bootImgAddrHi (ev : Ev) (k : Kind) (i : Nat) (ws : List Word) (n : Nat) (s : State) : (s.raiseAt ev k i ws n).dev.bootImgAddrHi = s.dev.bootImgAddrHi := by
  simp only [State.raiseAt]; (repeat' split) <;> simp
@[simp] theorem State.raiseAt_dev_bootImgLen (ev : Ev) (k : Kind) (i : Nat) (ws : List Word) (n : Nat) (s : State) : (s.raiseAt ev k i ws n).dev.bootImgLen = s.dev.bootImgLen := by
  simp only [State.raiseAt]; (repeat' split) <;> simp
@[simp] theorem State.raiseAt_dev_bootGo (ev : Ev) (k : Kind) (i : Nat) (ws : List Word) (n : Nat) (s : State) : (s.raiseAt ev k i ws n).dev.bootGo = s.dev.bootGo := by
  simp only [State.raiseAt]; (repeat' split) <;> simp
@[simp] theorem State.raiseAt_dev_bootSrc (ev : Ev) (k : Kind) (i : Nat) (ws : List Word) (n : Nat) (s : State) : (s.raiseAt ev k i ws n).dev.bootSrc = s.dev.bootSrc := by
  simp only [State.raiseAt]; (repeat' split) <;> simp
@[simp] theorem State.raiseAt_dev_bootStage (ev : Ev) (k : Kind) (i : Nat) (ws : List Word) (n : Nat) (s : State) : (s.raiseAt ev k i ws n).dev.bootStage = s.dev.bootStage := by
  simp only [State.raiseAt]; (repeat' split) <;> simp
@[simp] theorem State.raiseAt_dev_endpointUp (ev : Ev) (k : Kind) (i : Nat) (ws : List Word) (n : Nat) (s : State) : (s.raiseAt ev k i ws n).dev.endpointUp = s.dev.endpointUp := by
  simp only [State.raiseAt]; (repeat' split) <;> simp
@[simp] theorem State.raiseAt_dev_linkUp (ev : Ev) (k : Kind) (i : Nat) (ws : List Word) (n : Nat) (s : State) : (s.raiseAt ev k i ws n).dev.linkUp = s.dev.linkUp := by
  simp only [State.raiseAt]; (repeat' split) <;> simp
@[simp] theorem State.raiseAt_dev_d3hot (ev : Ev) (k : Kind) (i : Nat) (ws : List Word) (n : Nat) (s : State) : (s.raiseAt ev k i ws n).dev.d3hot = s.dev.d3hot := by
  simp only [State.raiseAt]; (repeat' split) <;> simp
@[simp] theorem State.raiseAt_proto_ring (ev : Ev) (k : Kind) (i : Nat) (ws : List Word) (n : Nat) (s : State) : (s.raiseAt ev k i ws n).proto.ring = s.proto.ring := by
  simp only [State.raiseAt]; (repeat' split) <;> simp
@[simp] theorem State.raiseAt_proto_spi (ev : Ev) (k : Kind) (i : Nat) (ws : List Word) (n : Nat) (s : State) : (s.raiseAt ev k i ws n).proto.spi = s.proto.spi := by
  simp only [State.raiseAt]; (repeat' split) <;> simp
@[simp] theorem State.raiseAt_proto_internal (ev : Ev) (k : Kind) (i : Nat) (ws : List Word) (n : Nat) (s : State) : (s.raiseAt ev k i ws n).proto.internal = s.proto.internal := by
  simp only [State.raiseAt]; (repeat' split) <;> simp
@[simp] theorem State.raiseAt_proto_shepInternal (ev : Ev) (k : Kind) (i : Nat) (ws : List Word) (n : Nat) (s : State) : (s.raiseAt ev k i ws n).proto.shepInternal = s.proto.shepInternal := by
  simp only [State.raiseAt]; (repeat' split) <;> simp
@[simp] theorem State.raiseAt_proto_resp (ev : Ev) (k : Kind) (i : Nat) (ws : List Word) (n : Nat) (s : State) : (s.raiseAt ev k i ws n).proto.resp = s.proto.resp := by
  simp only [State.raiseAt]; (repeat' split) <;> simp
@[simp] theorem State.raiseAt_proto_heldResp (ev : Ev) (k : Kind) (i : Nat) (ws : List Word) (n : Nat) (s : State) : (s.raiseAt ev k i ws n).proto.heldResp = s.proto.heldResp := by
  simp only [State.raiseAt]; (repeat' split) <;> simp
@[simp] theorem State.raiseAt_proto_internalResp (ev : Ev) (k : Kind) (i : Nat) (ws : List Word) (n : Nat) (s : State) : (s.raiseAt ev k i ws n).proto.internalResp = s.proto.internalResp := by
  simp only [State.raiseAt]; (repeat' split) <;> simp
@[simp] theorem State.raiseAt_proto_eventRing (ev : Ev) (k : Kind) (i : Nat) (ws : List Word) (n : Nat) (s : State) : (s.raiseAt ev k i ws n).proto.eventRing = s.proto.eventRing := by
  simp only [State.raiseAt]; (repeat' split) <;> simp
@[simp] theorem State.raiseAt_proto_mgmtRdy (ev : Ev) (k : Kind) (i : Nat) (ws : List Word) (n : Nat) (s : State) : (s.raiseAt ev k i ws n).proto.mgmtRdy = s.proto.mgmtRdy := by
  simp only [State.raiseAt]; (repeat' split) <;> simp
@[simp] theorem State.raiseAt_proto_spiRespRead (ev : Ev) (k : Kind) (i : Nat) (ws : List Word) (n : Nat) (s : State) : (s.raiseAt ev k i ws n).proto.spiRespRead = s.proto.spiRespRead := by
  simp only [State.raiseAt]; (repeat' split) <;> simp
@[simp] theorem State.raiseAt_proto_spiEventRead (ev : Ev) (k : Kind) (i : Nat) (ws : List Word) (n : Nat) (s : State) : (s.raiseAt ev k i ws n).proto.spiEventRead = s.proto.spiEventRead := by
  simp only [State.raiseAt]; (repeat' split) <;> simp
@[simp] theorem State.raiseAt_proto_spiOpen (ev : Ev) (k : Kind) (i : Nat) (ws : List Word) (n : Nat) (s : State) : (s.raiseAt ev k i ws n).proto.spiOpen = s.proto.spiOpen := by
  simp only [State.raiseAt]; (repeat' split) <;> simp
@[simp] theorem State.raiseAt_proto_spiDrop (ev : Ev) (k : Kind) (i : Nat) (ws : List Word) (n : Nat) (s : State) : (s.raiseAt ev k i ws n).proto.spiDrop = s.proto.spiDrop := by
  simp only [State.raiseAt]; (repeat' split) <;> simp
@[simp] theorem State.raiseAt_proto_spiDead (ev : Ev) (k : Kind) (i : Nat) (ws : List Word) (n : Nat) (s : State) : (s.raiseAt ev k i ws n).proto.spiDead = s.proto.spiDead := by
  simp only [State.raiseAt]; (repeat' split) <;> simp
@[simp] theorem State.raiseAt_proto_armed (ev : Ev) (k : Kind) (i : Nat) (ws : List Word) (n : Nat) (s : State) : (s.raiseAt ev k i ws n).proto.armed = s.proto.armed := by
  simp only [State.raiseAt]; (repeat' split) <;> simp
@[simp] theorem State.raiseAt_proto_jobs (ev : Ev) (k : Kind) (i : Nat) (ws : List Word) (n : Nat) (s : State) : (s.raiseAt ev k i ws n).proto.jobs = s.proto.jobs := by
  simp only [State.raiseAt]; (repeat' split) <;> simp
@[simp] theorem State.raiseAt_proto_held (ev : Ev) (k : Kind) (i : Nat) (ws : List Word) (n : Nat) (s : State) : (s.raiseAt ev k i ws n).proto.held = s.proto.held := by
  simp only [State.raiseAt]; (repeat' split) <;> simp
@[simp] theorem State.raiseAt_proto_nextSeq (ev : Ev) (k : Kind) (i : Nat) (ws : List Word) (n : Nat) (s : State) : (s.raiseAt ev k i ws n).proto.nextSeq = s.proto.nextSeq := by
  simp only [State.raiseAt]; (repeat' split) <;> simp
@[simp] theorem State.raiseAt_proto_mgmtResetArmed (ev : Ev) (k : Kind) (i : Nat) (ws : List Word) (n : Nat) (s : State) : (s.raiseAt ev k i ws n).proto.mgmtResetArmed = s.proto.mgmtResetArmed := by
  simp only [State.raiseAt]; (repeat' split) <;> simp
@[simp] theorem State.raiseAt_proto_masked (ev : Ev) (k : Kind) (i : Nat) (ws : List Word) (n : Nat) (s : State) : (s.raiseAt ev k i ws n).proto.masked = s.proto.masked := by
  simp only [State.raiseAt]; (repeat' split) <;> simp
@[simp] theorem State.raiseAt_proto_owedFinals (ev : Ev) (k : Kind) (i : Nat) (ws : List Word) (n : Nat) (s : State) : (s.raiseAt ev k i ws n).proto.owedFinals = s.proto.owedFinals := by
  simp only [State.raiseAt]; (repeat' split) <;> simp

/-! ### raise -/

@[simp] theorem State.raise_ctr_slots (ev : Ev) (k : Kind) (i : Nat) (ws : List Word) (s : State) : (s.raise ev k i ws).ctr.slots = s.ctr.slots := by
  simp [State.raise]
@[simp] theorem State.raise_ctr_later (ev : Ev) (k : Kind) (i : Nat) (ws : List Word) (s : State) : (s.raise ev k i ws).ctr.later = s.ctr.later := by
  simp [State.raise]
@[simp] theorem State.raise_ctr_coming (ev : Ev) (k : Kind) (i : Nat) (ws : List Word) (s : State) : (s.raise ev k i ws).ctr.coming = s.ctr.coming := by
  simp [State.raise]
@[simp] theorem State.raise_ctr_carries (ev : Ev) (k : Kind) (i : Nat) (ws : List Word) (s : State) : (s.raise ev k i ws).ctr.carries = s.ctr.carries := by
  simp [State.raise]
@[simp] theorem State.raise_ctr_heads (ev : Ev) (k : Kind) (i : Nat) (ws : List Word) (s : State) : (s.raise ev k i ws).ctr.heads = s.ctr.heads := by
  simp [State.raise]
@[simp] theorem State.raise_ctr_filters (ev : Ev) (k : Kind) (i : Nat) (ws : List Word) (s : State) : (s.raise ev k i ws).ctr.filters = s.ctr.filters := by
  simp [State.raise]
@[simp] theorem State.raise_ctr_bw (ev : Ev) (k : Kind) (i : Nat) (ws : List Word) (s : State) : (s.raise ev k i ws).ctr.bw = s.ctr.bw := by
  simp [State.raise]
@[simp] theorem State.raise_ctr_latchPcie (ev : Ev) (k : Kind) (i : Nat) (ws : List Word) (s : State) : (s.raise ev k i ws).ctr.latchPcie = s.ctr.latchPcie := by
  simp [State.raise]
@[simp] theorem State.raise_ctr_latchSpi (ev : Ev) (k : Kind) (i : Nat) (ws : List Word) (s : State) : (s.raise ev k i ws).ctr.latchSpi = s.ctr.latchSpi := by
  simp [State.raise]
@[simp] theorem State.raise_ctr_latchFw (ev : Ev) (k : Kind) (i : Nat) (ws : List Word) (s : State) : (s.raise ev k i ws).ctr.latchFw = s.ctr.latchFw := by
  simp [State.raise]
@[simp] theorem State.raise_ctr_image (ev : Ev) (k : Kind) (i : Nat) (ws : List Word) (s : State) : (s.raise ev k i ws).ctr.image = s.ctr.image := by
  simp [State.raise]
@[simp] theorem State.raise_ctr_waiting (ev : Ev) (k : Kind) (i : Nat) (ws : List Word) (s : State) : (s.raise ev k i ws).ctr.waiting = s.ctr.waiting := by
  simp [State.raise]
@[simp] theorem State.raise_ctr_snapSeq (ev : Ev) (k : Kind) (i : Nat) (ws : List Word) (s : State) : (s.raise ev k i ws).ctr.snapSeq = s.ctr.snapSeq := by
  simp [State.raise]
@[simp] theorem State.raise_ctr_snapValid (ev : Ev) (k : Kind) (i : Nat) (ws : List Word) (s : State) : (s.raise ev k i ws).ctr.snapValid = s.ctr.snapValid := by
  simp [State.raise]
@[simp] theorem State.raise_dev_stage (ev : Ev) (k : Kind) (i : Nat) (ws : List Word) (s : State) : (s.raise ev k i ws).dev.stage = s.dev.stage := by
  simp [State.raise]
@[simp] theorem State.raise_dev_fwSlot (ev : Ev) (k : Kind) (i : Nat) (ws : List Word) (s : State) : (s.raise ev k i ws).dev.fwSlot = s.dev.fwSlot := by
  simp [State.raise]
@[simp] theorem State.raise_dev_bootErr (ev : Ev) (k : Kind) (i : Nat) (ws : List Word) (s : State) : (s.raise ev k i ws).dev.bootErr = s.dev.bootErr := by
  simp [State.raise]
@[simp] theorem State.raise_dev_alertMask (ev : Ev) (k : Kind) (i : Nat) (ws : List Word) (s : State) : (s.raise ev k i ws).dev.alertMask = s.dev.alertMask := by
  simp [State.raise]
@[simp] theorem State.raise_dev_scratch (ev : Ev) (k : Kind) (i : Nat) (ws : List Word) (s : State) : (s.raise ev k i ws).dev.scratch = s.dev.scratch := by
  simp [State.raise]
@[simp] theorem State.raise_dev_bootImgAddrLo (ev : Ev) (k : Kind) (i : Nat) (ws : List Word) (s : State) : (s.raise ev k i ws).dev.bootImgAddrLo = s.dev.bootImgAddrLo := by
  simp [State.raise]
@[simp] theorem State.raise_dev_bootImgAddrHi (ev : Ev) (k : Kind) (i : Nat) (ws : List Word) (s : State) : (s.raise ev k i ws).dev.bootImgAddrHi = s.dev.bootImgAddrHi := by
  simp [State.raise]
@[simp] theorem State.raise_dev_bootImgLen (ev : Ev) (k : Kind) (i : Nat) (ws : List Word) (s : State) : (s.raise ev k i ws).dev.bootImgLen = s.dev.bootImgLen := by
  simp [State.raise]
@[simp] theorem State.raise_dev_bootGo (ev : Ev) (k : Kind) (i : Nat) (ws : List Word) (s : State) : (s.raise ev k i ws).dev.bootGo = s.dev.bootGo := by
  simp [State.raise]
@[simp] theorem State.raise_dev_bootSrc (ev : Ev) (k : Kind) (i : Nat) (ws : List Word) (s : State) : (s.raise ev k i ws).dev.bootSrc = s.dev.bootSrc := by
  simp [State.raise]
@[simp] theorem State.raise_dev_bootStage (ev : Ev) (k : Kind) (i : Nat) (ws : List Word) (s : State) : (s.raise ev k i ws).dev.bootStage = s.dev.bootStage := by
  simp [State.raise]
@[simp] theorem State.raise_dev_endpointUp (ev : Ev) (k : Kind) (i : Nat) (ws : List Word) (s : State) : (s.raise ev k i ws).dev.endpointUp = s.dev.endpointUp := by
  simp [State.raise]
@[simp] theorem State.raise_dev_linkUp (ev : Ev) (k : Kind) (i : Nat) (ws : List Word) (s : State) : (s.raise ev k i ws).dev.linkUp = s.dev.linkUp := by
  simp [State.raise]
@[simp] theorem State.raise_dev_d3hot (ev : Ev) (k : Kind) (i : Nat) (ws : List Word) (s : State) : (s.raise ev k i ws).dev.d3hot = s.dev.d3hot := by
  simp [State.raise]
@[simp] theorem State.raise_proto_ring (ev : Ev) (k : Kind) (i : Nat) (ws : List Word) (s : State) : (s.raise ev k i ws).proto.ring = s.proto.ring := by
  simp [State.raise]
@[simp] theorem State.raise_proto_spi (ev : Ev) (k : Kind) (i : Nat) (ws : List Word) (s : State) : (s.raise ev k i ws).proto.spi = s.proto.spi := by
  simp [State.raise]
@[simp] theorem State.raise_proto_internal (ev : Ev) (k : Kind) (i : Nat) (ws : List Word) (s : State) : (s.raise ev k i ws).proto.internal = s.proto.internal := by
  simp [State.raise]
@[simp] theorem State.raise_proto_shepInternal (ev : Ev) (k : Kind) (i : Nat) (ws : List Word) (s : State) : (s.raise ev k i ws).proto.shepInternal = s.proto.shepInternal := by
  simp [State.raise]
@[simp] theorem State.raise_proto_resp (ev : Ev) (k : Kind) (i : Nat) (ws : List Word) (s : State) : (s.raise ev k i ws).proto.resp = s.proto.resp := by
  simp [State.raise]
@[simp] theorem State.raise_proto_heldResp (ev : Ev) (k : Kind) (i : Nat) (ws : List Word) (s : State) : (s.raise ev k i ws).proto.heldResp = s.proto.heldResp := by
  simp [State.raise]
@[simp] theorem State.raise_proto_internalResp (ev : Ev) (k : Kind) (i : Nat) (ws : List Word) (s : State) : (s.raise ev k i ws).proto.internalResp = s.proto.internalResp := by
  simp [State.raise]
@[simp] theorem State.raise_proto_eventRing (ev : Ev) (k : Kind) (i : Nat) (ws : List Word) (s : State) : (s.raise ev k i ws).proto.eventRing = s.proto.eventRing := by
  simp [State.raise]
@[simp] theorem State.raise_proto_mgmtRdy (ev : Ev) (k : Kind) (i : Nat) (ws : List Word) (s : State) : (s.raise ev k i ws).proto.mgmtRdy = s.proto.mgmtRdy := by
  simp [State.raise]
@[simp] theorem State.raise_proto_spiRespRead (ev : Ev) (k : Kind) (i : Nat) (ws : List Word) (s : State) : (s.raise ev k i ws).proto.spiRespRead = s.proto.spiRespRead := by
  simp [State.raise]
@[simp] theorem State.raise_proto_spiEventRead (ev : Ev) (k : Kind) (i : Nat) (ws : List Word) (s : State) : (s.raise ev k i ws).proto.spiEventRead = s.proto.spiEventRead := by
  simp [State.raise]
@[simp] theorem State.raise_proto_spiOpen (ev : Ev) (k : Kind) (i : Nat) (ws : List Word) (s : State) : (s.raise ev k i ws).proto.spiOpen = s.proto.spiOpen := by
  simp [State.raise]
@[simp] theorem State.raise_proto_spiDrop (ev : Ev) (k : Kind) (i : Nat) (ws : List Word) (s : State) : (s.raise ev k i ws).proto.spiDrop = s.proto.spiDrop := by
  simp [State.raise]
@[simp] theorem State.raise_proto_spiDead (ev : Ev) (k : Kind) (i : Nat) (ws : List Word) (s : State) : (s.raise ev k i ws).proto.spiDead = s.proto.spiDead := by
  simp [State.raise]
@[simp] theorem State.raise_proto_armed (ev : Ev) (k : Kind) (i : Nat) (ws : List Word) (s : State) : (s.raise ev k i ws).proto.armed = s.proto.armed := by
  simp [State.raise]
@[simp] theorem State.raise_proto_jobs (ev : Ev) (k : Kind) (i : Nat) (ws : List Word) (s : State) : (s.raise ev k i ws).proto.jobs = s.proto.jobs := by
  simp [State.raise]
@[simp] theorem State.raise_proto_held (ev : Ev) (k : Kind) (i : Nat) (ws : List Word) (s : State) : (s.raise ev k i ws).proto.held = s.proto.held := by
  simp [State.raise]
@[simp] theorem State.raise_proto_nextSeq (ev : Ev) (k : Kind) (i : Nat) (ws : List Word) (s : State) : (s.raise ev k i ws).proto.nextSeq = s.proto.nextSeq := by
  simp [State.raise]
@[simp] theorem State.raise_proto_mgmtResetArmed (ev : Ev) (k : Kind) (i : Nat) (ws : List Word) (s : State) : (s.raise ev k i ws).proto.mgmtResetArmed = s.proto.mgmtResetArmed := by
  simp [State.raise]
@[simp] theorem State.raise_proto_masked (ev : Ev) (k : Kind) (i : Nat) (ws : List Word) (s : State) : (s.raise ev k i ws).proto.masked = s.proto.masked := by
  simp [State.raise]
@[simp] theorem State.raise_proto_owedFinals (ev : Ev) (k : Kind) (i : Nat) (ws : List Word) (s : State) : (s.raise ev k i ws).proto.owedFinals = s.proto.owedFinals := by
  simp [State.raise]

/-! ### lifeFull -/

@[simp] theorem State.lifeFull_ctr_slots (o : Nat) (s : State) : (s.lifeFull o).ctr.slots = s.ctr.slots := by
  unfold State.lifeFull; split <;> simp
@[simp] theorem State.lifeFull_ctr_later (o : Nat) (s : State) : (s.lifeFull o).ctr.later = s.ctr.later := by
  unfold State.lifeFull; split <;> simp
@[simp] theorem State.lifeFull_ctr_coming (o : Nat) (s : State) : (s.lifeFull o).ctr.coming = s.ctr.coming := by
  unfold State.lifeFull; split <;> simp
@[simp] theorem State.lifeFull_ctr_carries (o : Nat) (s : State) : (s.lifeFull o).ctr.carries = s.ctr.carries := by
  unfold State.lifeFull; split <;> simp
@[simp] theorem State.lifeFull_ctr_heads (o : Nat) (s : State) : (s.lifeFull o).ctr.heads = s.ctr.heads := by
  unfold State.lifeFull; split <;> simp
@[simp] theorem State.lifeFull_ctr_filters (o : Nat) (s : State) : (s.lifeFull o).ctr.filters = s.ctr.filters := by
  unfold State.lifeFull; split <;> simp
@[simp] theorem State.lifeFull_ctr_bw (o : Nat) (s : State) : (s.lifeFull o).ctr.bw = s.ctr.bw := by
  unfold State.lifeFull; split <;> simp
@[simp] theorem State.lifeFull_ctr_latchPcie (o : Nat) (s : State) : (s.lifeFull o).ctr.latchPcie = s.ctr.latchPcie := by
  unfold State.lifeFull; split <;> simp
@[simp] theorem State.lifeFull_ctr_latchSpi (o : Nat) (s : State) : (s.lifeFull o).ctr.latchSpi = s.ctr.latchSpi := by
  unfold State.lifeFull; split <;> simp
@[simp] theorem State.lifeFull_ctr_latchFw (o : Nat) (s : State) : (s.lifeFull o).ctr.latchFw = s.ctr.latchFw := by
  unfold State.lifeFull; split <;> simp
@[simp] theorem State.lifeFull_ctr_image (o : Nat) (s : State) : (s.lifeFull o).ctr.image = s.ctr.image := by
  unfold State.lifeFull; split <;> simp
@[simp] theorem State.lifeFull_ctr_waiting (o : Nat) (s : State) : (s.lifeFull o).ctr.waiting = s.ctr.waiting := by
  unfold State.lifeFull; split <;> simp
@[simp] theorem State.lifeFull_ctr_snapSeq (o : Nat) (s : State) : (s.lifeFull o).ctr.snapSeq = s.ctr.snapSeq := by
  unfold State.lifeFull; split <;> simp
@[simp] theorem State.lifeFull_ctr_snapValid (o : Nat) (s : State) : (s.lifeFull o).ctr.snapValid = s.ctr.snapValid := by
  unfold State.lifeFull; split <;> simp
@[simp] theorem State.lifeFull_dev_stage (o : Nat) (s : State) : (s.lifeFull o).dev.stage = s.dev.stage := by
  unfold State.lifeFull; split <;> simp
@[simp] theorem State.lifeFull_dev_fwSlot (o : Nat) (s : State) : (s.lifeFull o).dev.fwSlot = s.dev.fwSlot := by
  unfold State.lifeFull; split <;> simp
@[simp] theorem State.lifeFull_dev_bootErr (o : Nat) (s : State) : (s.lifeFull o).dev.bootErr = s.dev.bootErr := by
  unfold State.lifeFull; split <;> simp
@[simp] theorem State.lifeFull_dev_alertMask (o : Nat) (s : State) : (s.lifeFull o).dev.alertMask = s.dev.alertMask := by
  unfold State.lifeFull; split <;> simp
@[simp] theorem State.lifeFull_dev_scratch (o : Nat) (s : State) : (s.lifeFull o).dev.scratch = s.dev.scratch := by
  unfold State.lifeFull; split <;> simp
@[simp] theorem State.lifeFull_dev_bootImgAddrLo (o : Nat) (s : State) : (s.lifeFull o).dev.bootImgAddrLo = s.dev.bootImgAddrLo := by
  unfold State.lifeFull; split <;> simp
@[simp] theorem State.lifeFull_dev_bootImgAddrHi (o : Nat) (s : State) : (s.lifeFull o).dev.bootImgAddrHi = s.dev.bootImgAddrHi := by
  unfold State.lifeFull; split <;> simp
@[simp] theorem State.lifeFull_dev_bootImgLen (o : Nat) (s : State) : (s.lifeFull o).dev.bootImgLen = s.dev.bootImgLen := by
  unfold State.lifeFull; split <;> simp
@[simp] theorem State.lifeFull_dev_bootGo (o : Nat) (s : State) : (s.lifeFull o).dev.bootGo = s.dev.bootGo := by
  unfold State.lifeFull; split <;> simp
@[simp] theorem State.lifeFull_dev_bootSrc (o : Nat) (s : State) : (s.lifeFull o).dev.bootSrc = s.dev.bootSrc := by
  unfold State.lifeFull; split <;> simp
@[simp] theorem State.lifeFull_dev_bootStage (o : Nat) (s : State) : (s.lifeFull o).dev.bootStage = s.dev.bootStage := by
  unfold State.lifeFull; split <;> simp
@[simp] theorem State.lifeFull_dev_endpointUp (o : Nat) (s : State) : (s.lifeFull o).dev.endpointUp = s.dev.endpointUp := by
  unfold State.lifeFull; split <;> simp
@[simp] theorem State.lifeFull_dev_linkUp (o : Nat) (s : State) : (s.lifeFull o).dev.linkUp = s.dev.linkUp := by
  unfold State.lifeFull; split <;> simp
@[simp] theorem State.lifeFull_dev_d3hot (o : Nat) (s : State) : (s.lifeFull o).dev.d3hot = s.dev.d3hot := by
  unfold State.lifeFull; split <;> simp
@[simp] theorem State.lifeFull_proto_ring (o : Nat) (s : State) : (s.lifeFull o).proto.ring = s.proto.ring := by
  unfold State.lifeFull; split <;> simp
@[simp] theorem State.lifeFull_proto_spi (o : Nat) (s : State) : (s.lifeFull o).proto.spi = s.proto.spi := by
  unfold State.lifeFull; split <;> simp
@[simp] theorem State.lifeFull_proto_internal (o : Nat) (s : State) : (s.lifeFull o).proto.internal = s.proto.internal := by
  unfold State.lifeFull; split <;> simp
@[simp] theorem State.lifeFull_proto_shepInternal (o : Nat) (s : State) : (s.lifeFull o).proto.shepInternal = s.proto.shepInternal := by
  unfold State.lifeFull; split <;> simp
@[simp] theorem State.lifeFull_proto_resp (o : Nat) (s : State) : (s.lifeFull o).proto.resp = s.proto.resp := by
  unfold State.lifeFull; split <;> simp
@[simp] theorem State.lifeFull_proto_heldResp (o : Nat) (s : State) : (s.lifeFull o).proto.heldResp = s.proto.heldResp := by
  unfold State.lifeFull; split <;> simp
@[simp] theorem State.lifeFull_proto_internalResp (o : Nat) (s : State) : (s.lifeFull o).proto.internalResp = s.proto.internalResp := by
  unfold State.lifeFull; split <;> simp
@[simp] theorem State.lifeFull_proto_eventRing (o : Nat) (s : State) : (s.lifeFull o).proto.eventRing = s.proto.eventRing := by
  unfold State.lifeFull; split <;> simp
@[simp] theorem State.lifeFull_proto_mgmtRdy (o : Nat) (s : State) : (s.lifeFull o).proto.mgmtRdy = s.proto.mgmtRdy := by
  unfold State.lifeFull; split <;> simp
@[simp] theorem State.lifeFull_proto_spiRespRead (o : Nat) (s : State) : (s.lifeFull o).proto.spiRespRead = s.proto.spiRespRead := by
  unfold State.lifeFull; split <;> simp
@[simp] theorem State.lifeFull_proto_spiEventRead (o : Nat) (s : State) : (s.lifeFull o).proto.spiEventRead = s.proto.spiEventRead := by
  unfold State.lifeFull; split <;> simp
@[simp] theorem State.lifeFull_proto_spiOpen (o : Nat) (s : State) : (s.lifeFull o).proto.spiOpen = s.proto.spiOpen := by
  unfold State.lifeFull; split <;> simp
@[simp] theorem State.lifeFull_proto_spiDrop (o : Nat) (s : State) : (s.lifeFull o).proto.spiDrop = s.proto.spiDrop := by
  unfold State.lifeFull; split <;> simp
@[simp] theorem State.lifeFull_proto_spiDead (o : Nat) (s : State) : (s.lifeFull o).proto.spiDead = s.proto.spiDead := by
  unfold State.lifeFull; split <;> simp
@[simp] theorem State.lifeFull_proto_armed (o : Nat) (s : State) : (s.lifeFull o).proto.armed = s.proto.armed := by
  unfold State.lifeFull; split <;> simp
@[simp] theorem State.lifeFull_proto_jobs (o : Nat) (s : State) : (s.lifeFull o).proto.jobs = s.proto.jobs := by
  unfold State.lifeFull; split <;> simp
@[simp] theorem State.lifeFull_proto_held (o : Nat) (s : State) : (s.lifeFull o).proto.held = s.proto.held := by
  unfold State.lifeFull; split <;> simp
@[simp] theorem State.lifeFull_proto_nextSeq (o : Nat) (s : State) : (s.lifeFull o).proto.nextSeq = s.proto.nextSeq := by
  unfold State.lifeFull; split <;> simp
@[simp] theorem State.lifeFull_proto_mgmtResetArmed (o : Nat) (s : State) : (s.lifeFull o).proto.mgmtResetArmed = s.proto.mgmtResetArmed := by
  unfold State.lifeFull; split <;> simp
@[simp] theorem State.lifeFull_proto_masked (o : Nat) (s : State) : (s.lifeFull o).proto.masked = s.proto.masked := by
  unfold State.lifeFull; split <;> simp
@[simp] theorem State.lifeFull_proto_owedFinals (o : Nat) (s : State) : (s.lifeFull o).proto.owedFinals = s.proto.owedFinals := by
  unfold State.lifeFull; split <;> simp
@[simp] theorem State.lifeFull_kennel_settings (o : Nat) (s : State) : (s.lifeFull o).kennel.settings = s.kennel.settings := by
  unfold State.lifeFull; split <;> simp
@[simp] theorem State.lifeFull_kennel_settingsCrc (o : Nat) (s : State) : (s.lifeFull o).kennel.settingsCrc = s.kennel.settingsCrc := by
  unfold State.lifeFull; split <;> simp
@[simp] theorem State.lifeFull_kennel_life (o : Nat) (s : State) : (s.lifeFull o).kennel.life = s.kennel.life := by
  unfold State.lifeFull; split <;> simp
@[simp] theorem State.lifeFull_kennel_lifeCrc (o : Nat) (s : State) : (s.lifeFull o).kennel.lifeCrc = s.kennel.lifeCrc := by
  unfold State.lifeFull; split <;> simp
@[simp] theorem State.lifeFull_kennel_pohSeconds (o : Nat) (s : State) : (s.lifeFull o).kennel.pohSeconds = s.kennel.pohSeconds := by
  unfold State.lifeFull; split <;> simp
@[simp] theorem State.lifeFull_kennel_tjSub (o : Nat) (s : State) : (s.lifeFull o).kennel.tjSub = s.kennel.tjSub := by
  unfold State.lifeFull; split <;> simp
@[simp] theorem State.lifeFull_kennel_thermal (o : Nat) (s : State) : (s.lifeFull o).kennel.thermal = s.kennel.thermal := by
  unfold State.lifeFull; split <;> simp
@[simp] theorem State.lifeFull_kennel_ucfSeen (o : Nat) (s : State) : (s.lifeFull o).kennel.ucfSeen = s.kennel.ucfSeen := by
  unfold State.lifeFull; split <;> simp
@[simp] theorem State.lifeFull_kennel_ucfSeconds (o : Nat) (s : State) : (s.lifeFull o).kennel.ucfSeconds = s.kennel.ucfSeconds := by
  unfold State.lifeFull; split <;> simp
@[simp] theorem State.lifeFull_kennel_rtc (o : Nat) (s : State) : (s.lifeFull o).kennel.rtc = s.kennel.rtc := by
  unfold State.lifeFull; split <;> simp
@[simp] theorem State.lifeFull_kennel_rtcPart (o : Nat) (s : State) : (s.lifeFull o).kennel.rtcPart = s.kennel.rtcPart := by
  unfold State.lifeFull; split <;> simp
@[simp] theorem State.lifeFull_kennel_rtcKept (o : Nat) (s : State) : (s.lifeFull o).kennel.rtcKept = s.kennel.rtcKept := by
  unfold State.lifeFull; split <;> simp
@[simp] theorem State.lifeFull_kennel_mirror (o : Nat) (s : State) : (s.lifeFull o).kennel.mirror = s.kennel.mirror := by
  unfold State.lifeFull; split <;> simp
@[simp] theorem State.lifeFull_kennel_retireQueue (o : Nat) (s : State) : (s.lifeFull o).kennel.retireQueue = s.kennel.retireQueue := by
  unfold State.lifeFull; split <;> simp

/-! ### lifeBump -/

@[simp] theorem State.lifeBump_ctr_slots (o p n : Nat) (g : LifeRecord → Nat) (w : Nat → LifeRecord → LifeRecord) (s : State) : (s.lifeBump o p n g w).ctr.slots = s.ctr.slots := by
  simp only [State.lifeBump]; split <;> simp
@[simp] theorem State.lifeBump_ctr_later (o p n : Nat) (g : LifeRecord → Nat) (w : Nat → LifeRecord → LifeRecord) (s : State) : (s.lifeBump o p n g w).ctr.later = s.ctr.later := by
  simp only [State.lifeBump]; split <;> simp
@[simp] theorem State.lifeBump_ctr_coming (o p n : Nat) (g : LifeRecord → Nat) (w : Nat → LifeRecord → LifeRecord) (s : State) : (s.lifeBump o p n g w).ctr.coming = s.ctr.coming := by
  simp only [State.lifeBump]; split <;> simp
@[simp] theorem State.lifeBump_ctr_carries (o p n : Nat) (g : LifeRecord → Nat) (w : Nat → LifeRecord → LifeRecord) (s : State) : (s.lifeBump o p n g w).ctr.carries = s.ctr.carries := by
  simp only [State.lifeBump]; split <;> simp
@[simp] theorem State.lifeBump_ctr_heads (o p n : Nat) (g : LifeRecord → Nat) (w : Nat → LifeRecord → LifeRecord) (s : State) : (s.lifeBump o p n g w).ctr.heads = s.ctr.heads := by
  simp only [State.lifeBump]; split <;> simp
@[simp] theorem State.lifeBump_ctr_filters (o p n : Nat) (g : LifeRecord → Nat) (w : Nat → LifeRecord → LifeRecord) (s : State) : (s.lifeBump o p n g w).ctr.filters = s.ctr.filters := by
  simp only [State.lifeBump]; split <;> simp
@[simp] theorem State.lifeBump_ctr_bw (o p n : Nat) (g : LifeRecord → Nat) (w : Nat → LifeRecord → LifeRecord) (s : State) : (s.lifeBump o p n g w).ctr.bw = s.ctr.bw := by
  simp only [State.lifeBump]; split <;> simp
@[simp] theorem State.lifeBump_ctr_latchPcie (o p n : Nat) (g : LifeRecord → Nat) (w : Nat → LifeRecord → LifeRecord) (s : State) : (s.lifeBump o p n g w).ctr.latchPcie = s.ctr.latchPcie := by
  simp only [State.lifeBump]; split <;> simp
@[simp] theorem State.lifeBump_ctr_latchSpi (o p n : Nat) (g : LifeRecord → Nat) (w : Nat → LifeRecord → LifeRecord) (s : State) : (s.lifeBump o p n g w).ctr.latchSpi = s.ctr.latchSpi := by
  simp only [State.lifeBump]; split <;> simp
@[simp] theorem State.lifeBump_ctr_latchFw (o p n : Nat) (g : LifeRecord → Nat) (w : Nat → LifeRecord → LifeRecord) (s : State) : (s.lifeBump o p n g w).ctr.latchFw = s.ctr.latchFw := by
  simp only [State.lifeBump]; split <;> simp
@[simp] theorem State.lifeBump_ctr_image (o p n : Nat) (g : LifeRecord → Nat) (w : Nat → LifeRecord → LifeRecord) (s : State) : (s.lifeBump o p n g w).ctr.image = s.ctr.image := by
  simp only [State.lifeBump]; split <;> simp
@[simp] theorem State.lifeBump_ctr_waiting (o p n : Nat) (g : LifeRecord → Nat) (w : Nat → LifeRecord → LifeRecord) (s : State) : (s.lifeBump o p n g w).ctr.waiting = s.ctr.waiting := by
  simp only [State.lifeBump]; split <;> simp
@[simp] theorem State.lifeBump_ctr_snapSeq (o p n : Nat) (g : LifeRecord → Nat) (w : Nat → LifeRecord → LifeRecord) (s : State) : (s.lifeBump o p n g w).ctr.snapSeq = s.ctr.snapSeq := by
  simp only [State.lifeBump]; split <;> simp
@[simp] theorem State.lifeBump_ctr_snapValid (o p n : Nat) (g : LifeRecord → Nat) (w : Nat → LifeRecord → LifeRecord) (s : State) : (s.lifeBump o p n g w).ctr.snapValid = s.ctr.snapValid := by
  simp only [State.lifeBump]; split <;> simp
@[simp] theorem State.lifeBump_dev_stage (o p n : Nat) (g : LifeRecord → Nat) (w : Nat → LifeRecord → LifeRecord) (s : State) : (s.lifeBump o p n g w).dev.stage = s.dev.stage := by
  simp only [State.lifeBump]; split <;> simp
@[simp] theorem State.lifeBump_dev_fwSlot (o p n : Nat) (g : LifeRecord → Nat) (w : Nat → LifeRecord → LifeRecord) (s : State) : (s.lifeBump o p n g w).dev.fwSlot = s.dev.fwSlot := by
  simp only [State.lifeBump]; split <;> simp
@[simp] theorem State.lifeBump_dev_bootErr (o p n : Nat) (g : LifeRecord → Nat) (w : Nat → LifeRecord → LifeRecord) (s : State) : (s.lifeBump o p n g w).dev.bootErr = s.dev.bootErr := by
  simp only [State.lifeBump]; split <;> simp
@[simp] theorem State.lifeBump_dev_alertMask (o p n : Nat) (g : LifeRecord → Nat) (w : Nat → LifeRecord → LifeRecord) (s : State) : (s.lifeBump o p n g w).dev.alertMask = s.dev.alertMask := by
  simp only [State.lifeBump]; split <;> simp
@[simp] theorem State.lifeBump_dev_scratch (o p n : Nat) (g : LifeRecord → Nat) (w : Nat → LifeRecord → LifeRecord) (s : State) : (s.lifeBump o p n g w).dev.scratch = s.dev.scratch := by
  simp only [State.lifeBump]; split <;> simp
@[simp] theorem State.lifeBump_dev_bootImgAddrLo (o p n : Nat) (g : LifeRecord → Nat) (w : Nat → LifeRecord → LifeRecord) (s : State) : (s.lifeBump o p n g w).dev.bootImgAddrLo = s.dev.bootImgAddrLo := by
  simp only [State.lifeBump]; split <;> simp
@[simp] theorem State.lifeBump_dev_bootImgAddrHi (o p n : Nat) (g : LifeRecord → Nat) (w : Nat → LifeRecord → LifeRecord) (s : State) : (s.lifeBump o p n g w).dev.bootImgAddrHi = s.dev.bootImgAddrHi := by
  simp only [State.lifeBump]; split <;> simp
@[simp] theorem State.lifeBump_dev_bootImgLen (o p n : Nat) (g : LifeRecord → Nat) (w : Nat → LifeRecord → LifeRecord) (s : State) : (s.lifeBump o p n g w).dev.bootImgLen = s.dev.bootImgLen := by
  simp only [State.lifeBump]; split <;> simp
@[simp] theorem State.lifeBump_dev_bootGo (o p n : Nat) (g : LifeRecord → Nat) (w : Nat → LifeRecord → LifeRecord) (s : State) : (s.lifeBump o p n g w).dev.bootGo = s.dev.bootGo := by
  simp only [State.lifeBump]; split <;> simp
@[simp] theorem State.lifeBump_dev_bootSrc (o p n : Nat) (g : LifeRecord → Nat) (w : Nat → LifeRecord → LifeRecord) (s : State) : (s.lifeBump o p n g w).dev.bootSrc = s.dev.bootSrc := by
  simp only [State.lifeBump]; split <;> simp
@[simp] theorem State.lifeBump_dev_bootStage (o p n : Nat) (g : LifeRecord → Nat) (w : Nat → LifeRecord → LifeRecord) (s : State) : (s.lifeBump o p n g w).dev.bootStage = s.dev.bootStage := by
  simp only [State.lifeBump]; split <;> simp
@[simp] theorem State.lifeBump_dev_endpointUp (o p n : Nat) (g : LifeRecord → Nat) (w : Nat → LifeRecord → LifeRecord) (s : State) : (s.lifeBump o p n g w).dev.endpointUp = s.dev.endpointUp := by
  simp only [State.lifeBump]; split <;> simp
@[simp] theorem State.lifeBump_dev_linkUp (o p n : Nat) (g : LifeRecord → Nat) (w : Nat → LifeRecord → LifeRecord) (s : State) : (s.lifeBump o p n g w).dev.linkUp = s.dev.linkUp := by
  simp only [State.lifeBump]; split <;> simp
@[simp] theorem State.lifeBump_dev_d3hot (o p n : Nat) (g : LifeRecord → Nat) (w : Nat → LifeRecord → LifeRecord) (s : State) : (s.lifeBump o p n g w).dev.d3hot = s.dev.d3hot := by
  simp only [State.lifeBump]; split <;> simp
@[simp] theorem State.lifeBump_proto_ring (o p n : Nat) (g : LifeRecord → Nat) (w : Nat → LifeRecord → LifeRecord) (s : State) : (s.lifeBump o p n g w).proto.ring = s.proto.ring := by
  simp only [State.lifeBump]; split <;> simp
@[simp] theorem State.lifeBump_proto_spi (o p n : Nat) (g : LifeRecord → Nat) (w : Nat → LifeRecord → LifeRecord) (s : State) : (s.lifeBump o p n g w).proto.spi = s.proto.spi := by
  simp only [State.lifeBump]; split <;> simp
@[simp] theorem State.lifeBump_proto_internal (o p n : Nat) (g : LifeRecord → Nat) (w : Nat → LifeRecord → LifeRecord) (s : State) : (s.lifeBump o p n g w).proto.internal = s.proto.internal := by
  simp only [State.lifeBump]; split <;> simp
@[simp] theorem State.lifeBump_proto_shepInternal (o p n : Nat) (g : LifeRecord → Nat) (w : Nat → LifeRecord → LifeRecord) (s : State) : (s.lifeBump o p n g w).proto.shepInternal = s.proto.shepInternal := by
  simp only [State.lifeBump]; split <;> simp
@[simp] theorem State.lifeBump_proto_resp (o p n : Nat) (g : LifeRecord → Nat) (w : Nat → LifeRecord → LifeRecord) (s : State) : (s.lifeBump o p n g w).proto.resp = s.proto.resp := by
  simp only [State.lifeBump]; split <;> simp
@[simp] theorem State.lifeBump_proto_heldResp (o p n : Nat) (g : LifeRecord → Nat) (w : Nat → LifeRecord → LifeRecord) (s : State) : (s.lifeBump o p n g w).proto.heldResp = s.proto.heldResp := by
  simp only [State.lifeBump]; split <;> simp
@[simp] theorem State.lifeBump_proto_internalResp (o p n : Nat) (g : LifeRecord → Nat) (w : Nat → LifeRecord → LifeRecord) (s : State) : (s.lifeBump o p n g w).proto.internalResp = s.proto.internalResp := by
  simp only [State.lifeBump]; split <;> simp
@[simp] theorem State.lifeBump_proto_eventRing (o p n : Nat) (g : LifeRecord → Nat) (w : Nat → LifeRecord → LifeRecord) (s : State) : (s.lifeBump o p n g w).proto.eventRing = s.proto.eventRing := by
  simp only [State.lifeBump]; split <;> simp
@[simp] theorem State.lifeBump_proto_mgmtRdy (o p n : Nat) (g : LifeRecord → Nat) (w : Nat → LifeRecord → LifeRecord) (s : State) : (s.lifeBump o p n g w).proto.mgmtRdy = s.proto.mgmtRdy := by
  simp only [State.lifeBump]; split <;> simp
@[simp] theorem State.lifeBump_proto_spiRespRead (o p n : Nat) (g : LifeRecord → Nat) (w : Nat → LifeRecord → LifeRecord) (s : State) : (s.lifeBump o p n g w).proto.spiRespRead = s.proto.spiRespRead := by
  simp only [State.lifeBump]; split <;> simp
@[simp] theorem State.lifeBump_proto_spiEventRead (o p n : Nat) (g : LifeRecord → Nat) (w : Nat → LifeRecord → LifeRecord) (s : State) : (s.lifeBump o p n g w).proto.spiEventRead = s.proto.spiEventRead := by
  simp only [State.lifeBump]; split <;> simp
@[simp] theorem State.lifeBump_proto_spiOpen (o p n : Nat) (g : LifeRecord → Nat) (w : Nat → LifeRecord → LifeRecord) (s : State) : (s.lifeBump o p n g w).proto.spiOpen = s.proto.spiOpen := by
  simp only [State.lifeBump]; split <;> simp
@[simp] theorem State.lifeBump_proto_spiDrop (o p n : Nat) (g : LifeRecord → Nat) (w : Nat → LifeRecord → LifeRecord) (s : State) : (s.lifeBump o p n g w).proto.spiDrop = s.proto.spiDrop := by
  simp only [State.lifeBump]; split <;> simp
@[simp] theorem State.lifeBump_proto_spiDead (o p n : Nat) (g : LifeRecord → Nat) (w : Nat → LifeRecord → LifeRecord) (s : State) : (s.lifeBump o p n g w).proto.spiDead = s.proto.spiDead := by
  simp only [State.lifeBump]; split <;> simp
@[simp] theorem State.lifeBump_proto_armed (o p n : Nat) (g : LifeRecord → Nat) (w : Nat → LifeRecord → LifeRecord) (s : State) : (s.lifeBump o p n g w).proto.armed = s.proto.armed := by
  simp only [State.lifeBump]; split <;> simp
@[simp] theorem State.lifeBump_proto_jobs (o p n : Nat) (g : LifeRecord → Nat) (w : Nat → LifeRecord → LifeRecord) (s : State) : (s.lifeBump o p n g w).proto.jobs = s.proto.jobs := by
  simp only [State.lifeBump]; split <;> simp
@[simp] theorem State.lifeBump_proto_held (o p n : Nat) (g : LifeRecord → Nat) (w : Nat → LifeRecord → LifeRecord) (s : State) : (s.lifeBump o p n g w).proto.held = s.proto.held := by
  simp only [State.lifeBump]; split <;> simp
@[simp] theorem State.lifeBump_proto_nextSeq (o p n : Nat) (g : LifeRecord → Nat) (w : Nat → LifeRecord → LifeRecord) (s : State) : (s.lifeBump o p n g w).proto.nextSeq = s.proto.nextSeq := by
  simp only [State.lifeBump]; split <;> simp
@[simp] theorem State.lifeBump_proto_mgmtResetArmed (o p n : Nat) (g : LifeRecord → Nat) (w : Nat → LifeRecord → LifeRecord) (s : State) : (s.lifeBump o p n g w).proto.mgmtResetArmed = s.proto.mgmtResetArmed := by
  simp only [State.lifeBump]; split <;> simp
@[simp] theorem State.lifeBump_proto_masked (o p n : Nat) (g : LifeRecord → Nat) (w : Nat → LifeRecord → LifeRecord) (s : State) : (s.lifeBump o p n g w).proto.masked = s.proto.masked := by
  simp only [State.lifeBump]; split <;> simp
@[simp] theorem State.lifeBump_proto_owedFinals (o p n : Nat) (g : LifeRecord → Nat) (w : Nat → LifeRecord → LifeRecord) (s : State) : (s.lifeBump o p n g w).proto.owedFinals = s.proto.owedFinals := by
  simp only [State.lifeBump]; split <;> simp
@[simp] theorem State.lifeBump_kennel_settings (o p n : Nat) (g : LifeRecord → Nat) (w : Nat → LifeRecord → LifeRecord) (s : State) : (s.lifeBump o p n g w).kennel.settings = s.kennel.settings := by
  simp only [State.lifeBump]; split <;> simp
@[simp] theorem State.lifeBump_kennel_settingsCrc (o p n : Nat) (g : LifeRecord → Nat) (w : Nat → LifeRecord → LifeRecord) (s : State) : (s.lifeBump o p n g w).kennel.settingsCrc = s.kennel.settingsCrc := by
  simp only [State.lifeBump]; split <;> simp
@[simp] theorem State.lifeBump_kennel_lifeCrc (o p n : Nat) (g : LifeRecord → Nat) (w : Nat → LifeRecord → LifeRecord) (s : State) : (s.lifeBump o p n g w).kennel.lifeCrc = s.kennel.lifeCrc := by
  simp only [State.lifeBump]; split <;> simp
@[simp] theorem State.lifeBump_kennel_pohSeconds (o p n : Nat) (g : LifeRecord → Nat) (w : Nat → LifeRecord → LifeRecord) (s : State) : (s.lifeBump o p n g w).kennel.pohSeconds = s.kennel.pohSeconds := by
  simp only [State.lifeBump]; split <;> simp
@[simp] theorem State.lifeBump_kennel_tjSub (o p n : Nat) (g : LifeRecord → Nat) (w : Nat → LifeRecord → LifeRecord) (s : State) : (s.lifeBump o p n g w).kennel.tjSub = s.kennel.tjSub := by
  simp only [State.lifeBump]; split <;> simp
@[simp] theorem State.lifeBump_kennel_thermal (o p n : Nat) (g : LifeRecord → Nat) (w : Nat → LifeRecord → LifeRecord) (s : State) : (s.lifeBump o p n g w).kennel.thermal = s.kennel.thermal := by
  simp only [State.lifeBump]; split <;> simp
@[simp] theorem State.lifeBump_kennel_ucfSeen (o p n : Nat) (g : LifeRecord → Nat) (w : Nat → LifeRecord → LifeRecord) (s : State) : (s.lifeBump o p n g w).kennel.ucfSeen = s.kennel.ucfSeen := by
  simp only [State.lifeBump]; split <;> simp
@[simp] theorem State.lifeBump_kennel_ucfSeconds (o p n : Nat) (g : LifeRecord → Nat) (w : Nat → LifeRecord → LifeRecord) (s : State) : (s.lifeBump o p n g w).kennel.ucfSeconds = s.kennel.ucfSeconds := by
  simp only [State.lifeBump]; split <;> simp
@[simp] theorem State.lifeBump_kennel_rtc (o p n : Nat) (g : LifeRecord → Nat) (w : Nat → LifeRecord → LifeRecord) (s : State) : (s.lifeBump o p n g w).kennel.rtc = s.kennel.rtc := by
  simp only [State.lifeBump]; split <;> simp
@[simp] theorem State.lifeBump_kennel_rtcPart (o p n : Nat) (g : LifeRecord → Nat) (w : Nat → LifeRecord → LifeRecord) (s : State) : (s.lifeBump o p n g w).kennel.rtcPart = s.kennel.rtcPart := by
  simp only [State.lifeBump]; split <;> simp
@[simp] theorem State.lifeBump_kennel_rtcKept (o p n : Nat) (g : LifeRecord → Nat) (w : Nat → LifeRecord → LifeRecord) (s : State) : (s.lifeBump o p n g w).kennel.rtcKept = s.kennel.rtcKept := by
  simp only [State.lifeBump]; split <;> simp
@[simp] theorem State.lifeBump_kennel_mirror (o p n : Nat) (g : LifeRecord → Nat) (w : Nat → LifeRecord → LifeRecord) (s : State) : (s.lifeBump o p n g w).kennel.mirror = s.kennel.mirror := by
  simp only [State.lifeBump]; split <;> simp
@[simp] theorem State.lifeBump_kennel_retireQueue (o p n : Nat) (g : LifeRecord → Nat) (w : Nat → LifeRecord → LifeRecord) (s : State) : (s.lifeBump o p n g w).kennel.retireQueue = s.kennel.retireQueue := by
  simp only [State.lifeBump]; split <;> simp

/-! ### commitResp -/

@[simp] theorem State.commitResp_dev_stage (n : Nat) (r : Resp) (s : State) : (s.commitResp n r).dev.stage = s.dev.stage := by
  simp only [State.commitResp]; split <;> simp
@[simp] theorem State.commitResp_dev_fwSlot (n : Nat) (r : Resp) (s : State) : (s.commitResp n r).dev.fwSlot = s.dev.fwSlot := by
  simp only [State.commitResp]; split <;> simp
@[simp] theorem State.commitResp_dev_bootErr (n : Nat) (r : Resp) (s : State) : (s.commitResp n r).dev.bootErr = s.dev.bootErr := by
  simp only [State.commitResp]; split <;> simp
@[simp] theorem State.commitResp_dev_alertMask (n : Nat) (r : Resp) (s : State) : (s.commitResp n r).dev.alertMask = s.dev.alertMask := by
  simp only [State.commitResp]; split <;> simp
@[simp] theorem State.commitResp_dev_scratch (n : Nat) (r : Resp) (s : State) : (s.commitResp n r).dev.scratch = s.dev.scratch := by
  simp only [State.commitResp]; split <;> simp
@[simp] theorem State.commitResp_dev_bootImgAddrLo (n : Nat) (r : Resp) (s : State) : (s.commitResp n r).dev.bootImgAddrLo = s.dev.bootImgAddrLo := by
  simp only [State.commitResp]; split <;> simp
@[simp] theorem State.commitResp_dev_bootImgAddrHi (n : Nat) (r : Resp) (s : State) : (s.commitResp n r).dev.bootImgAddrHi = s.dev.bootImgAddrHi := by
  simp only [State.commitResp]; split <;> simp
@[simp] theorem State.commitResp_dev_bootImgLen (n : Nat) (r : Resp) (s : State) : (s.commitResp n r).dev.bootImgLen = s.dev.bootImgLen := by
  simp only [State.commitResp]; split <;> simp
@[simp] theorem State.commitResp_dev_bootGo (n : Nat) (r : Resp) (s : State) : (s.commitResp n r).dev.bootGo = s.dev.bootGo := by
  simp only [State.commitResp]; split <;> simp
@[simp] theorem State.commitResp_dev_bootSrc (n : Nat) (r : Resp) (s : State) : (s.commitResp n r).dev.bootSrc = s.dev.bootSrc := by
  simp only [State.commitResp]; split <;> simp
@[simp] theorem State.commitResp_dev_bootStage (n : Nat) (r : Resp) (s : State) : (s.commitResp n r).dev.bootStage = s.dev.bootStage := by
  simp only [State.commitResp]; split <;> simp
@[simp] theorem State.commitResp_dev_endpointUp (n : Nat) (r : Resp) (s : State) : (s.commitResp n r).dev.endpointUp = s.dev.endpointUp := by
  simp only [State.commitResp]; split <;> simp
@[simp] theorem State.commitResp_dev_linkUp (n : Nat) (r : Resp) (s : State) : (s.commitResp n r).dev.linkUp = s.dev.linkUp := by
  simp only [State.commitResp]; split <;> simp
@[simp] theorem State.commitResp_dev_d3hot (n : Nat) (r : Resp) (s : State) : (s.commitResp n r).dev.d3hot = s.dev.d3hot := by
  simp only [State.commitResp]; split <;> simp
@[simp] theorem State.commitResp_proto_ring (n : Nat) (r : Resp) (s : State) : (s.commitResp n r).proto.ring = s.proto.ring := by
  simp only [State.commitResp]; split <;> simp
@[simp] theorem State.commitResp_proto_spi (n : Nat) (r : Resp) (s : State) : (s.commitResp n r).proto.spi = s.proto.spi := by
  simp only [State.commitResp]; split <;> simp
@[simp] theorem State.commitResp_proto_internal (n : Nat) (r : Resp) (s : State) : (s.commitResp n r).proto.internal = s.proto.internal := by
  simp only [State.commitResp]; split <;> simp
@[simp] theorem State.commitResp_proto_shepInternal (n : Nat) (r : Resp) (s : State) : (s.commitResp n r).proto.shepInternal = s.proto.shepInternal := by
  simp only [State.commitResp]; split <;> simp
@[simp] theorem State.commitResp_proto_heldResp (n : Nat) (r : Resp) (s : State) : (s.commitResp n r).proto.heldResp = s.proto.heldResp := by
  simp only [State.commitResp]; split <;> simp
@[simp] theorem State.commitResp_proto_internalResp (n : Nat) (r : Resp) (s : State) : (s.commitResp n r).proto.internalResp = s.proto.internalResp := by
  simp only [State.commitResp]; split <;> simp
@[simp] theorem State.commitResp_proto_eventRing (n : Nat) (r : Resp) (s : State) : (s.commitResp n r).proto.eventRing = s.proto.eventRing := by
  simp only [State.commitResp]; split <;> simp
@[simp] theorem State.commitResp_proto_eventQueue (n : Nat) (r : Resp) (s : State) : (s.commitResp n r).proto.eventQueue = s.proto.eventQueue := by
  simp only [State.commitResp]; split <;> simp
@[simp] theorem State.commitResp_proto_heldEvents (n : Nat) (r : Resp) (s : State) : (s.commitResp n r).proto.heldEvents = s.proto.heldEvents := by
  simp only [State.commitResp]; split <;> simp
@[simp] theorem State.commitResp_proto_mgmtRdy (n : Nat) (r : Resp) (s : State) : (s.commitResp n r).proto.mgmtRdy = s.proto.mgmtRdy := by
  simp only [State.commitResp]; split <;> simp
@[simp] theorem State.commitResp_proto_spiRespRead (n : Nat) (r : Resp) (s : State) : (s.commitResp n r).proto.spiRespRead = s.proto.spiRespRead := by
  simp only [State.commitResp]; split <;> simp
@[simp] theorem State.commitResp_proto_spiEventRead (n : Nat) (r : Resp) (s : State) : (s.commitResp n r).proto.spiEventRead = s.proto.spiEventRead := by
  simp only [State.commitResp]; split <;> simp
@[simp] theorem State.commitResp_proto_spiOpen (n : Nat) (r : Resp) (s : State) : (s.commitResp n r).proto.spiOpen = s.proto.spiOpen := by
  simp only [State.commitResp]; split <;> simp
@[simp] theorem State.commitResp_proto_spiDrop (n : Nat) (r : Resp) (s : State) : (s.commitResp n r).proto.spiDrop = s.proto.spiDrop := by
  simp only [State.commitResp]; split <;> simp
@[simp] theorem State.commitResp_proto_spiDead (n : Nat) (r : Resp) (s : State) : (s.commitResp n r).proto.spiDead = s.proto.spiDead := by
  simp only [State.commitResp]; split <;> simp
@[simp] theorem State.commitResp_proto_armed (n : Nat) (r : Resp) (s : State) : (s.commitResp n r).proto.armed = s.proto.armed := by
  simp only [State.commitResp]; split <;> simp
@[simp] theorem State.commitResp_proto_jobs (n : Nat) (r : Resp) (s : State) : (s.commitResp n r).proto.jobs = s.proto.jobs := by
  simp only [State.commitResp]; split <;> simp
@[simp] theorem State.commitResp_proto_held (n : Nat) (r : Resp) (s : State) : (s.commitResp n r).proto.held = s.proto.held := by
  simp only [State.commitResp]; split <;> simp
@[simp] theorem State.commitResp_proto_nextSeq (n : Nat) (r : Resp) (s : State) : (s.commitResp n r).proto.nextSeq = s.proto.nextSeq := by
  simp only [State.commitResp]; split <;> simp
@[simp] theorem State.commitResp_proto_mgmtResetArmed (n : Nat) (r : Resp) (s : State) : (s.commitResp n r).proto.mgmtResetArmed = s.proto.mgmtResetArmed := by
  simp only [State.commitResp]; split <;> simp
@[simp] theorem State.commitResp_proto_masked (n : Nat) (r : Resp) (s : State) : (s.commitResp n r).proto.masked = s.proto.masked := by
  simp only [State.commitResp]; split <;> simp
@[simp] theorem State.commitResp_proto_owedFinals (n : Nat) (r : Resp) (s : State) : (s.commitResp n r).proto.owedFinals = s.proto.owedFinals := by
  simp only [State.commitResp]; split <;> simp

/-! ### postResp -/

@[simp] theorem State.postResp_dev_stage (src : Source) (r : Resp) (s : State) : (s.postResp src r).dev.stage = s.dev.stage := by
  simp only [State.postResp]; (repeat' split) <;> simp
@[simp] theorem State.postResp_dev_fwSlot (src : Source) (r : Resp) (s : State) : (s.postResp src r).dev.fwSlot = s.dev.fwSlot := by
  simp only [State.postResp]; (repeat' split) <;> simp
@[simp] theorem State.postResp_dev_bootErr (src : Source) (r : Resp) (s : State) : (s.postResp src r).dev.bootErr = s.dev.bootErr := by
  simp only [State.postResp]; (repeat' split) <;> simp
@[simp] theorem State.postResp_dev_alertMask (src : Source) (r : Resp) (s : State) : (s.postResp src r).dev.alertMask = s.dev.alertMask := by
  simp only [State.postResp]; (repeat' split) <;> simp
@[simp] theorem State.postResp_dev_scratch (src : Source) (r : Resp) (s : State) : (s.postResp src r).dev.scratch = s.dev.scratch := by
  simp only [State.postResp]; (repeat' split) <;> simp
@[simp] theorem State.postResp_dev_bootImgAddrLo (src : Source) (r : Resp) (s : State) : (s.postResp src r).dev.bootImgAddrLo = s.dev.bootImgAddrLo := by
  simp only [State.postResp]; (repeat' split) <;> simp
@[simp] theorem State.postResp_dev_bootImgAddrHi (src : Source) (r : Resp) (s : State) : (s.postResp src r).dev.bootImgAddrHi = s.dev.bootImgAddrHi := by
  simp only [State.postResp]; (repeat' split) <;> simp
@[simp] theorem State.postResp_dev_bootImgLen (src : Source) (r : Resp) (s : State) : (s.postResp src r).dev.bootImgLen = s.dev.bootImgLen := by
  simp only [State.postResp]; (repeat' split) <;> simp
@[simp] theorem State.postResp_dev_bootGo (src : Source) (r : Resp) (s : State) : (s.postResp src r).dev.bootGo = s.dev.bootGo := by
  simp only [State.postResp]; (repeat' split) <;> simp
@[simp] theorem State.postResp_dev_bootSrc (src : Source) (r : Resp) (s : State) : (s.postResp src r).dev.bootSrc = s.dev.bootSrc := by
  simp only [State.postResp]; (repeat' split) <;> simp
@[simp] theorem State.postResp_dev_bootStage (src : Source) (r : Resp) (s : State) : (s.postResp src r).dev.bootStage = s.dev.bootStage := by
  simp only [State.postResp]; (repeat' split) <;> simp
@[simp] theorem State.postResp_dev_endpointUp (src : Source) (r : Resp) (s : State) : (s.postResp src r).dev.endpointUp = s.dev.endpointUp := by
  simp only [State.postResp]; (repeat' split) <;> simp
@[simp] theorem State.postResp_dev_linkUp (src : Source) (r : Resp) (s : State) : (s.postResp src r).dev.linkUp = s.dev.linkUp := by
  simp only [State.postResp]; (repeat' split) <;> simp
@[simp] theorem State.postResp_dev_d3hot (src : Source) (r : Resp) (s : State) : (s.postResp src r).dev.d3hot = s.dev.d3hot := by
  simp only [State.postResp]; (repeat' split) <;> simp
@[simp] theorem State.postResp_proto_ring (src : Source) (r : Resp) (s : State) : (s.postResp src r).proto.ring = s.proto.ring := by
  simp only [State.postResp]; (repeat' split) <;> simp
@[simp] theorem State.postResp_proto_spi (src : Source) (r : Resp) (s : State) : (s.postResp src r).proto.spi = s.proto.spi := by
  simp only [State.postResp]; (repeat' split) <;> simp
@[simp] theorem State.postResp_proto_internal (src : Source) (r : Resp) (s : State) : (s.postResp src r).proto.internal = s.proto.internal := by
  simp only [State.postResp]; (repeat' split) <;> simp
@[simp] theorem State.postResp_proto_shepInternal (src : Source) (r : Resp) (s : State) : (s.postResp src r).proto.shepInternal = s.proto.shepInternal := by
  simp only [State.postResp]; (repeat' split) <;> simp
@[simp] theorem State.postResp_proto_eventRing (src : Source) (r : Resp) (s : State) : (s.postResp src r).proto.eventRing = s.proto.eventRing := by
  simp only [State.postResp]; (repeat' split) <;> simp
@[simp] theorem State.postResp_proto_eventQueue (src : Source) (r : Resp) (s : State) : (s.postResp src r).proto.eventQueue = s.proto.eventQueue := by
  simp only [State.postResp]; (repeat' split) <;> simp
@[simp] theorem State.postResp_proto_heldEvents (src : Source) (r : Resp) (s : State) : (s.postResp src r).proto.heldEvents = s.proto.heldEvents := by
  simp only [State.postResp]; (repeat' split) <;> simp
@[simp] theorem State.postResp_proto_mgmtRdy (src : Source) (r : Resp) (s : State) : (s.postResp src r).proto.mgmtRdy = s.proto.mgmtRdy := by
  simp only [State.postResp]; (repeat' split) <;> simp
@[simp] theorem State.postResp_proto_spiRespRead (src : Source) (r : Resp) (s : State) : (s.postResp src r).proto.spiRespRead = s.proto.spiRespRead := by
  simp only [State.postResp]; (repeat' split) <;> simp
@[simp] theorem State.postResp_proto_spiEventRead (src : Source) (r : Resp) (s : State) : (s.postResp src r).proto.spiEventRead = s.proto.spiEventRead := by
  simp only [State.postResp]; (repeat' split) <;> simp
@[simp] theorem State.postResp_proto_spiOpen (src : Source) (r : Resp) (s : State) : (s.postResp src r).proto.spiOpen = s.proto.spiOpen := by
  simp only [State.postResp]; (repeat' split) <;> simp
@[simp] theorem State.postResp_proto_spiDrop (src : Source) (r : Resp) (s : State) : (s.postResp src r).proto.spiDrop = s.proto.spiDrop := by
  simp only [State.postResp]; (repeat' split) <;> simp
@[simp] theorem State.postResp_proto_spiDead (src : Source) (r : Resp) (s : State) : (s.postResp src r).proto.spiDead = s.proto.spiDead := by
  simp only [State.postResp]; (repeat' split) <;> simp
@[simp] theorem State.postResp_proto_armed (src : Source) (r : Resp) (s : State) : (s.postResp src r).proto.armed = s.proto.armed := by
  simp only [State.postResp]; (repeat' split) <;> simp
@[simp] theorem State.postResp_proto_jobs (src : Source) (r : Resp) (s : State) : (s.postResp src r).proto.jobs = s.proto.jobs := by
  simp only [State.postResp]; (repeat' split) <;> simp
@[simp] theorem State.postResp_proto_held (src : Source) (r : Resp) (s : State) : (s.postResp src r).proto.held = s.proto.held := by
  simp only [State.postResp]; (repeat' split) <;> simp
@[simp] theorem State.postResp_proto_nextSeq (src : Source) (r : Resp) (s : State) : (s.postResp src r).proto.nextSeq = s.proto.nextSeq := by
  simp only [State.postResp]; (repeat' split) <;> simp
@[simp] theorem State.postResp_proto_mgmtResetArmed (src : Source) (r : Resp) (s : State) : (s.postResp src r).proto.mgmtResetArmed = s.proto.mgmtResetArmed := by
  simp only [State.postResp]; (repeat' split) <;> simp
@[simp] theorem State.postResp_proto_masked (src : Source) (r : Resp) (s : State) : (s.postResp src r).proto.masked = s.proto.masked := by
  simp only [State.postResp]; (repeat' split) <;> simp
@[simp] theorem State.postResp_proto_owedFinals (src : Source) (r : Resp) (s : State) : (s.postResp src r).proto.owedFinals = s.proto.owedFinals := by
  simp only [State.postResp]; (repeat' split) <;> simp

/-! ### respond -/

@[simp] theorem State.respond_dev_stage (t : Ticket) (fin : Bool) (st : Status) (d n : Nat) (ws : List Word) (s : State) : (s.respond t fin st d n ws).dev.stage = s.dev.stage := by
  simp only [State.respond]; (repeat' split) <;> simp
@[simp] theorem State.respond_dev_fwSlot (t : Ticket) (fin : Bool) (st : Status) (d n : Nat) (ws : List Word) (s : State) : (s.respond t fin st d n ws).dev.fwSlot = s.dev.fwSlot := by
  simp only [State.respond]; (repeat' split) <;> simp
@[simp] theorem State.respond_dev_bootErr (t : Ticket) (fin : Bool) (st : Status) (d n : Nat) (ws : List Word) (s : State) : (s.respond t fin st d n ws).dev.bootErr = s.dev.bootErr := by
  simp only [State.respond]; (repeat' split) <;> simp
@[simp] theorem State.respond_dev_alertMask (t : Ticket) (fin : Bool) (st : Status) (d n : Nat) (ws : List Word) (s : State) : (s.respond t fin st d n ws).dev.alertMask = s.dev.alertMask := by
  simp only [State.respond]; (repeat' split) <;> simp
@[simp] theorem State.respond_dev_scratch (t : Ticket) (fin : Bool) (st : Status) (d n : Nat) (ws : List Word) (s : State) : (s.respond t fin st d n ws).dev.scratch = s.dev.scratch := by
  simp only [State.respond]; (repeat' split) <;> simp
@[simp] theorem State.respond_dev_bootImgAddrLo (t : Ticket) (fin : Bool) (st : Status) (d n : Nat) (ws : List Word) (s : State) : (s.respond t fin st d n ws).dev.bootImgAddrLo = s.dev.bootImgAddrLo := by
  simp only [State.respond]; (repeat' split) <;> simp
@[simp] theorem State.respond_dev_bootImgAddrHi (t : Ticket) (fin : Bool) (st : Status) (d n : Nat) (ws : List Word) (s : State) : (s.respond t fin st d n ws).dev.bootImgAddrHi = s.dev.bootImgAddrHi := by
  simp only [State.respond]; (repeat' split) <;> simp
@[simp] theorem State.respond_dev_bootImgLen (t : Ticket) (fin : Bool) (st : Status) (d n : Nat) (ws : List Word) (s : State) : (s.respond t fin st d n ws).dev.bootImgLen = s.dev.bootImgLen := by
  simp only [State.respond]; (repeat' split) <;> simp
@[simp] theorem State.respond_dev_bootGo (t : Ticket) (fin : Bool) (st : Status) (d n : Nat) (ws : List Word) (s : State) : (s.respond t fin st d n ws).dev.bootGo = s.dev.bootGo := by
  simp only [State.respond]; (repeat' split) <;> simp
@[simp] theorem State.respond_dev_bootSrc (t : Ticket) (fin : Bool) (st : Status) (d n : Nat) (ws : List Word) (s : State) : (s.respond t fin st d n ws).dev.bootSrc = s.dev.bootSrc := by
  simp only [State.respond]; (repeat' split) <;> simp
@[simp] theorem State.respond_dev_bootStage (t : Ticket) (fin : Bool) (st : Status) (d n : Nat) (ws : List Word) (s : State) : (s.respond t fin st d n ws).dev.bootStage = s.dev.bootStage := by
  simp only [State.respond]; (repeat' split) <;> simp
@[simp] theorem State.respond_dev_endpointUp (t : Ticket) (fin : Bool) (st : Status) (d n : Nat) (ws : List Word) (s : State) : (s.respond t fin st d n ws).dev.endpointUp = s.dev.endpointUp := by
  simp only [State.respond]; (repeat' split) <;> simp
@[simp] theorem State.respond_dev_linkUp (t : Ticket) (fin : Bool) (st : Status) (d n : Nat) (ws : List Word) (s : State) : (s.respond t fin st d n ws).dev.linkUp = s.dev.linkUp := by
  simp only [State.respond]; (repeat' split) <;> simp
@[simp] theorem State.respond_dev_d3hot (t : Ticket) (fin : Bool) (st : Status) (d n : Nat) (ws : List Word) (s : State) : (s.respond t fin st d n ws).dev.d3hot = s.dev.d3hot := by
  simp only [State.respond]; (repeat' split) <;> simp
@[simp] theorem State.respond_proto_ring (t : Ticket) (fin : Bool) (st : Status) (d n : Nat) (ws : List Word) (s : State) : (s.respond t fin st d n ws).proto.ring = s.proto.ring := by
  simp only [State.respond]; (repeat' split) <;> simp
@[simp] theorem State.respond_proto_spi (t : Ticket) (fin : Bool) (st : Status) (d n : Nat) (ws : List Word) (s : State) : (s.respond t fin st d n ws).proto.spi = s.proto.spi := by
  simp only [State.respond]; (repeat' split) <;> simp
@[simp] theorem State.respond_proto_internal (t : Ticket) (fin : Bool) (st : Status) (d n : Nat) (ws : List Word) (s : State) : (s.respond t fin st d n ws).proto.internal = s.proto.internal := by
  simp only [State.respond]; (repeat' split) <;> simp
@[simp] theorem State.respond_proto_shepInternal (t : Ticket) (fin : Bool) (st : Status) (d n : Nat) (ws : List Word) (s : State) : (s.respond t fin st d n ws).proto.shepInternal = s.proto.shepInternal := by
  simp only [State.respond]; (repeat' split) <;> simp
@[simp] theorem State.respond_proto_eventRing (t : Ticket) (fin : Bool) (st : Status) (d n : Nat) (ws : List Word) (s : State) : (s.respond t fin st d n ws).proto.eventRing = s.proto.eventRing := by
  simp only [State.respond]; (repeat' split) <;> simp
@[simp] theorem State.respond_proto_eventQueue (t : Ticket) (fin : Bool) (st : Status) (d n : Nat) (ws : List Word) (s : State) : (s.respond t fin st d n ws).proto.eventQueue = s.proto.eventQueue := by
  simp only [State.respond]; (repeat' split) <;> simp
@[simp] theorem State.respond_proto_heldEvents (t : Ticket) (fin : Bool) (st : Status) (d n : Nat) (ws : List Word) (s : State) : (s.respond t fin st d n ws).proto.heldEvents = s.proto.heldEvents := by
  simp only [State.respond]; (repeat' split) <;> simp
@[simp] theorem State.respond_proto_mgmtRdy (t : Ticket) (fin : Bool) (st : Status) (d n : Nat) (ws : List Word) (s : State) : (s.respond t fin st d n ws).proto.mgmtRdy = s.proto.mgmtRdy := by
  simp only [State.respond]; (repeat' split) <;> simp
@[simp] theorem State.respond_proto_spiRespRead (t : Ticket) (fin : Bool) (st : Status) (d n : Nat) (ws : List Word) (s : State) : (s.respond t fin st d n ws).proto.spiRespRead = s.proto.spiRespRead := by
  simp only [State.respond]; (repeat' split) <;> simp
@[simp] theorem State.respond_proto_spiEventRead (t : Ticket) (fin : Bool) (st : Status) (d n : Nat) (ws : List Word) (s : State) : (s.respond t fin st d n ws).proto.spiEventRead = s.proto.spiEventRead := by
  simp only [State.respond]; (repeat' split) <;> simp
@[simp] theorem State.respond_proto_spiOpen (t : Ticket) (fin : Bool) (st : Status) (d n : Nat) (ws : List Word) (s : State) : (s.respond t fin st d n ws).proto.spiOpen = s.proto.spiOpen := by
  simp only [State.respond]; (repeat' split) <;> simp
@[simp] theorem State.respond_proto_spiDrop (t : Ticket) (fin : Bool) (st : Status) (d n : Nat) (ws : List Word) (s : State) : (s.respond t fin st d n ws).proto.spiDrop = s.proto.spiDrop := by
  simp only [State.respond]; (repeat' split) <;> simp
@[simp] theorem State.respond_proto_spiDead (t : Ticket) (fin : Bool) (st : Status) (d n : Nat) (ws : List Word) (s : State) : (s.respond t fin st d n ws).proto.spiDead = s.proto.spiDead := by
  simp only [State.respond]; (repeat' split) <;> simp
@[simp] theorem State.respond_proto_armed (t : Ticket) (fin : Bool) (st : Status) (d n : Nat) (ws : List Word) (s : State) : (s.respond t fin st d n ws).proto.armed = s.proto.armed := by
  simp only [State.respond]; (repeat' split) <;> simp
@[simp] theorem State.respond_proto_jobs (t : Ticket) (fin : Bool) (st : Status) (d n : Nat) (ws : List Word) (s : State) : (s.respond t fin st d n ws).proto.jobs = s.proto.jobs := by
  simp only [State.respond]; (repeat' split) <;> simp
@[simp] theorem State.respond_proto_held (t : Ticket) (fin : Bool) (st : Status) (d n : Nat) (ws : List Word) (s : State) : (s.respond t fin st d n ws).proto.held = s.proto.held := by
  simp only [State.respond]; (repeat' split) <;> simp
@[simp] theorem State.respond_proto_nextSeq (t : Ticket) (fin : Bool) (st : Status) (d n : Nat) (ws : List Word) (s : State) : (s.respond t fin st d n ws).proto.nextSeq = s.proto.nextSeq := by
  simp only [State.respond]; (repeat' split) <;> simp
@[simp] theorem State.respond_proto_mgmtResetArmed (t : Ticket) (fin : Bool) (st : Status) (d n : Nat) (ws : List Word) (s : State) : (s.respond t fin st d n ws).proto.mgmtResetArmed = s.proto.mgmtResetArmed := by
  simp only [State.respond]; (repeat' split) <;> simp
@[simp] theorem State.respond_proto_masked (t : Ticket) (fin : Bool) (st : Status) (d n : Nat) (ws : List Word) (s : State) : (s.respond t fin st d n ws).proto.masked = s.proto.masked := by
  simp only [State.respond]; (repeat' split) <;> simp

/-! ### final -/

@[simp] theorem State.final_dev_stage (t : Ticket) (st : Status) (d : Nat) (ws : List Word) (s : State) : (s.final t st d ws).dev.stage = s.dev.stage := by
  simp [State.final]
@[simp] theorem State.final_dev_fwSlot (t : Ticket) (st : Status) (d : Nat) (ws : List Word) (s : State) : (s.final t st d ws).dev.fwSlot = s.dev.fwSlot := by
  simp [State.final]
@[simp] theorem State.final_dev_bootErr (t : Ticket) (st : Status) (d : Nat) (ws : List Word) (s : State) : (s.final t st d ws).dev.bootErr = s.dev.bootErr := by
  simp [State.final]
@[simp] theorem State.final_dev_alertMask (t : Ticket) (st : Status) (d : Nat) (ws : List Word) (s : State) : (s.final t st d ws).dev.alertMask = s.dev.alertMask := by
  simp [State.final]
@[simp] theorem State.final_dev_scratch (t : Ticket) (st : Status) (d : Nat) (ws : List Word) (s : State) : (s.final t st d ws).dev.scratch = s.dev.scratch := by
  simp [State.final]
@[simp] theorem State.final_dev_bootImgAddrLo (t : Ticket) (st : Status) (d : Nat) (ws : List Word) (s : State) : (s.final t st d ws).dev.bootImgAddrLo = s.dev.bootImgAddrLo := by
  simp [State.final]
@[simp] theorem State.final_dev_bootImgAddrHi (t : Ticket) (st : Status) (d : Nat) (ws : List Word) (s : State) : (s.final t st d ws).dev.bootImgAddrHi = s.dev.bootImgAddrHi := by
  simp [State.final]
@[simp] theorem State.final_dev_bootImgLen (t : Ticket) (st : Status) (d : Nat) (ws : List Word) (s : State) : (s.final t st d ws).dev.bootImgLen = s.dev.bootImgLen := by
  simp [State.final]
@[simp] theorem State.final_dev_bootGo (t : Ticket) (st : Status) (d : Nat) (ws : List Word) (s : State) : (s.final t st d ws).dev.bootGo = s.dev.bootGo := by
  simp [State.final]
@[simp] theorem State.final_dev_bootSrc (t : Ticket) (st : Status) (d : Nat) (ws : List Word) (s : State) : (s.final t st d ws).dev.bootSrc = s.dev.bootSrc := by
  simp [State.final]
@[simp] theorem State.final_dev_bootStage (t : Ticket) (st : Status) (d : Nat) (ws : List Word) (s : State) : (s.final t st d ws).dev.bootStage = s.dev.bootStage := by
  simp [State.final]
@[simp] theorem State.final_dev_endpointUp (t : Ticket) (st : Status) (d : Nat) (ws : List Word) (s : State) : (s.final t st d ws).dev.endpointUp = s.dev.endpointUp := by
  simp [State.final]
@[simp] theorem State.final_dev_linkUp (t : Ticket) (st : Status) (d : Nat) (ws : List Word) (s : State) : (s.final t st d ws).dev.linkUp = s.dev.linkUp := by
  simp [State.final]
@[simp] theorem State.final_dev_d3hot (t : Ticket) (st : Status) (d : Nat) (ws : List Word) (s : State) : (s.final t st d ws).dev.d3hot = s.dev.d3hot := by
  simp [State.final]
@[simp] theorem State.final_proto_ring (t : Ticket) (st : Status) (d : Nat) (ws : List Word) (s : State) : (s.final t st d ws).proto.ring = s.proto.ring := by
  simp [State.final]
@[simp] theorem State.final_proto_spi (t : Ticket) (st : Status) (d : Nat) (ws : List Word) (s : State) : (s.final t st d ws).proto.spi = s.proto.spi := by
  simp [State.final]
@[simp] theorem State.final_proto_internal (t : Ticket) (st : Status) (d : Nat) (ws : List Word) (s : State) : (s.final t st d ws).proto.internal = s.proto.internal := by
  simp [State.final]
@[simp] theorem State.final_proto_shepInternal (t : Ticket) (st : Status) (d : Nat) (ws : List Word) (s : State) : (s.final t st d ws).proto.shepInternal = s.proto.shepInternal := by
  simp [State.final]
@[simp] theorem State.final_proto_eventRing (t : Ticket) (st : Status) (d : Nat) (ws : List Word) (s : State) : (s.final t st d ws).proto.eventRing = s.proto.eventRing := by
  simp [State.final]
@[simp] theorem State.final_proto_eventQueue (t : Ticket) (st : Status) (d : Nat) (ws : List Word) (s : State) : (s.final t st d ws).proto.eventQueue = s.proto.eventQueue := by
  simp [State.final]
@[simp] theorem State.final_proto_heldEvents (t : Ticket) (st : Status) (d : Nat) (ws : List Word) (s : State) : (s.final t st d ws).proto.heldEvents = s.proto.heldEvents := by
  simp [State.final]
@[simp] theorem State.final_proto_mgmtRdy (t : Ticket) (st : Status) (d : Nat) (ws : List Word) (s : State) : (s.final t st d ws).proto.mgmtRdy = s.proto.mgmtRdy := by
  simp [State.final]
@[simp] theorem State.final_proto_spiRespRead (t : Ticket) (st : Status) (d : Nat) (ws : List Word) (s : State) : (s.final t st d ws).proto.spiRespRead = s.proto.spiRespRead := by
  simp [State.final]
@[simp] theorem State.final_proto_spiEventRead (t : Ticket) (st : Status) (d : Nat) (ws : List Word) (s : State) : (s.final t st d ws).proto.spiEventRead = s.proto.spiEventRead := by
  simp [State.final]
@[simp] theorem State.final_proto_spiOpen (t : Ticket) (st : Status) (d : Nat) (ws : List Word) (s : State) : (s.final t st d ws).proto.spiOpen = s.proto.spiOpen := by
  simp [State.final]
@[simp] theorem State.final_proto_spiDrop (t : Ticket) (st : Status) (d : Nat) (ws : List Word) (s : State) : (s.final t st d ws).proto.spiDrop = s.proto.spiDrop := by
  simp [State.final]
@[simp] theorem State.final_proto_spiDead (t : Ticket) (st : Status) (d : Nat) (ws : List Word) (s : State) : (s.final t st d ws).proto.spiDead = s.proto.spiDead := by
  simp [State.final]
@[simp] theorem State.final_proto_armed (t : Ticket) (st : Status) (d : Nat) (ws : List Word) (s : State) : (s.final t st d ws).proto.armed = s.proto.armed := by
  simp [State.final]
@[simp] theorem State.final_proto_jobs (t : Ticket) (st : Status) (d : Nat) (ws : List Word) (s : State) : (s.final t st d ws).proto.jobs = s.proto.jobs := by
  simp [State.final]
@[simp] theorem State.final_proto_held (t : Ticket) (st : Status) (d : Nat) (ws : List Word) (s : State) : (s.final t st d ws).proto.held = s.proto.held := by
  simp [State.final]
@[simp] theorem State.final_proto_nextSeq (t : Ticket) (st : Status) (d : Nat) (ws : List Word) (s : State) : (s.final t st d ws).proto.nextSeq = s.proto.nextSeq := by
  simp [State.final]
@[simp] theorem State.final_proto_mgmtResetArmed (t : Ticket) (st : Status) (d : Nat) (ws : List Word) (s : State) : (s.final t st d ws).proto.mgmtResetArmed = s.proto.mgmtResetArmed := by
  simp [State.final]
@[simp] theorem State.final_proto_masked (t : Ticket) (st : Status) (d : Nat) (ws : List Word) (s : State) : (s.final t st d ws).proto.masked = s.proto.masked := by
  simp [State.final]

/-! ### finishJobs -/

@[simp] theorem State.finishJobs_dev_stage (p : Job → Bool) (st : Status) (d : Nat) (ws : List Word) (s : State) : (s.finishJobs p st d ws).dev.stage = s.dev.stage := by
  simp only [State.finishJobs]
  refine (State.foldl_same (fun s => s.dev.stage) _ (fun s a => ?_) _ _).trans (by simp)
  simp
@[simp] theorem State.finishJobs_dev_fwSlot (p : Job → Bool) (st : Status) (d : Nat) (ws : List Word) (s : State) : (s.finishJobs p st d ws).dev.fwSlot = s.dev.fwSlot := by
  simp only [State.finishJobs]
  refine (State.foldl_same (fun s => s.dev.fwSlot) _ (fun s a => ?_) _ _).trans (by simp)
  simp
@[simp] theorem State.finishJobs_dev_bootErr (p : Job → Bool) (st : Status) (d : Nat) (ws : List Word) (s : State) : (s.finishJobs p st d ws).dev.bootErr = s.dev.bootErr := by
  simp only [State.finishJobs]
  refine (State.foldl_same (fun s => s.dev.bootErr) _ (fun s a => ?_) _ _).trans (by simp)
  simp
@[simp] theorem State.finishJobs_dev_alertMask (p : Job → Bool) (st : Status) (d : Nat) (ws : List Word) (s : State) : (s.finishJobs p st d ws).dev.alertMask = s.dev.alertMask := by
  simp only [State.finishJobs]
  refine (State.foldl_same (fun s => s.dev.alertMask) _ (fun s a => ?_) _ _).trans (by simp)
  simp
@[simp] theorem State.finishJobs_dev_scratch (p : Job → Bool) (st : Status) (d : Nat) (ws : List Word) (s : State) : (s.finishJobs p st d ws).dev.scratch = s.dev.scratch := by
  simp only [State.finishJobs]
  refine (State.foldl_same (fun s => s.dev.scratch) _ (fun s a => ?_) _ _).trans (by simp)
  simp
@[simp] theorem State.finishJobs_dev_bootImgAddrLo (p : Job → Bool) (st : Status) (d : Nat) (ws : List Word) (s : State) : (s.finishJobs p st d ws).dev.bootImgAddrLo = s.dev.bootImgAddrLo := by
  simp only [State.finishJobs]
  refine (State.foldl_same (fun s => s.dev.bootImgAddrLo) _ (fun s a => ?_) _ _).trans (by simp)
  simp
@[simp] theorem State.finishJobs_dev_bootImgAddrHi (p : Job → Bool) (st : Status) (d : Nat) (ws : List Word) (s : State) : (s.finishJobs p st d ws).dev.bootImgAddrHi = s.dev.bootImgAddrHi := by
  simp only [State.finishJobs]
  refine (State.foldl_same (fun s => s.dev.bootImgAddrHi) _ (fun s a => ?_) _ _).trans (by simp)
  simp
@[simp] theorem State.finishJobs_dev_bootImgLen (p : Job → Bool) (st : Status) (d : Nat) (ws : List Word) (s : State) : (s.finishJobs p st d ws).dev.bootImgLen = s.dev.bootImgLen := by
  simp only [State.finishJobs]
  refine (State.foldl_same (fun s => s.dev.bootImgLen) _ (fun s a => ?_) _ _).trans (by simp)
  simp
@[simp] theorem State.finishJobs_dev_bootGo (p : Job → Bool) (st : Status) (d : Nat) (ws : List Word) (s : State) : (s.finishJobs p st d ws).dev.bootGo = s.dev.bootGo := by
  simp only [State.finishJobs]
  refine (State.foldl_same (fun s => s.dev.bootGo) _ (fun s a => ?_) _ _).trans (by simp)
  simp
@[simp] theorem State.finishJobs_dev_bootSrc (p : Job → Bool) (st : Status) (d : Nat) (ws : List Word) (s : State) : (s.finishJobs p st d ws).dev.bootSrc = s.dev.bootSrc := by
  simp only [State.finishJobs]
  refine (State.foldl_same (fun s => s.dev.bootSrc) _ (fun s a => ?_) _ _).trans (by simp)
  simp
@[simp] theorem State.finishJobs_dev_bootStage (p : Job → Bool) (st : Status) (d : Nat) (ws : List Word) (s : State) : (s.finishJobs p st d ws).dev.bootStage = s.dev.bootStage := by
  simp only [State.finishJobs]
  refine (State.foldl_same (fun s => s.dev.bootStage) _ (fun s a => ?_) _ _).trans (by simp)
  simp
@[simp] theorem State.finishJobs_dev_endpointUp (p : Job → Bool) (st : Status) (d : Nat) (ws : List Word) (s : State) : (s.finishJobs p st d ws).dev.endpointUp = s.dev.endpointUp := by
  simp only [State.finishJobs]
  refine (State.foldl_same (fun s => s.dev.endpointUp) _ (fun s a => ?_) _ _).trans (by simp)
  simp
@[simp] theorem State.finishJobs_dev_linkUp (p : Job → Bool) (st : Status) (d : Nat) (ws : List Word) (s : State) : (s.finishJobs p st d ws).dev.linkUp = s.dev.linkUp := by
  simp only [State.finishJobs]
  refine (State.foldl_same (fun s => s.dev.linkUp) _ (fun s a => ?_) _ _).trans (by simp)
  simp
@[simp] theorem State.finishJobs_dev_d3hot (p : Job → Bool) (st : Status) (d : Nat) (ws : List Word) (s : State) : (s.finishJobs p st d ws).dev.d3hot = s.dev.d3hot := by
  simp only [State.finishJobs]
  refine (State.foldl_same (fun s => s.dev.d3hot) _ (fun s a => ?_) _ _).trans (by simp)
  simp
@[simp] theorem State.finishJobs_proto_ring (p : Job → Bool) (st : Status) (d : Nat) (ws : List Word) (s : State) : (s.finishJobs p st d ws).proto.ring = s.proto.ring := by
  simp only [State.finishJobs]
  refine (State.foldl_same (fun s => s.proto.ring) _ (fun s a => ?_) _ _).trans (by simp)
  simp
@[simp] theorem State.finishJobs_proto_spi (p : Job → Bool) (st : Status) (d : Nat) (ws : List Word) (s : State) : (s.finishJobs p st d ws).proto.spi = s.proto.spi := by
  simp only [State.finishJobs]
  refine (State.foldl_same (fun s => s.proto.spi) _ (fun s a => ?_) _ _).trans (by simp)
  simp
@[simp] theorem State.finishJobs_proto_internal (p : Job → Bool) (st : Status) (d : Nat) (ws : List Word) (s : State) : (s.finishJobs p st d ws).proto.internal = s.proto.internal := by
  simp only [State.finishJobs]
  refine (State.foldl_same (fun s => s.proto.internal) _ (fun s a => ?_) _ _).trans (by simp)
  simp
@[simp] theorem State.finishJobs_proto_shepInternal (p : Job → Bool) (st : Status) (d : Nat) (ws : List Word) (s : State) : (s.finishJobs p st d ws).proto.shepInternal = s.proto.shepInternal := by
  simp only [State.finishJobs]
  refine (State.foldl_same (fun s => s.proto.shepInternal) _ (fun s a => ?_) _ _).trans (by simp)
  simp
@[simp] theorem State.finishJobs_proto_eventRing (p : Job → Bool) (st : Status) (d : Nat) (ws : List Word) (s : State) : (s.finishJobs p st d ws).proto.eventRing = s.proto.eventRing := by
  simp only [State.finishJobs]
  refine (State.foldl_same (fun s => s.proto.eventRing) _ (fun s a => ?_) _ _).trans (by simp)
  simp
@[simp] theorem State.finishJobs_proto_eventQueue (p : Job → Bool) (st : Status) (d : Nat) (ws : List Word) (s : State) : (s.finishJobs p st d ws).proto.eventQueue = s.proto.eventQueue := by
  simp only [State.finishJobs]
  refine (State.foldl_same (fun s => s.proto.eventQueue) _ (fun s a => ?_) _ _).trans (by simp)
  simp
@[simp] theorem State.finishJobs_proto_heldEvents (p : Job → Bool) (st : Status) (d : Nat) (ws : List Word) (s : State) : (s.finishJobs p st d ws).proto.heldEvents = s.proto.heldEvents := by
  simp only [State.finishJobs]
  refine (State.foldl_same (fun s => s.proto.heldEvents) _ (fun s a => ?_) _ _).trans (by simp)
  simp
@[simp] theorem State.finishJobs_proto_mgmtRdy (p : Job → Bool) (st : Status) (d : Nat) (ws : List Word) (s : State) : (s.finishJobs p st d ws).proto.mgmtRdy = s.proto.mgmtRdy := by
  simp only [State.finishJobs]
  refine (State.foldl_same (fun s => s.proto.mgmtRdy) _ (fun s a => ?_) _ _).trans (by simp)
  simp
@[simp] theorem State.finishJobs_proto_spiRespRead (p : Job → Bool) (st : Status) (d : Nat) (ws : List Word) (s : State) : (s.finishJobs p st d ws).proto.spiRespRead = s.proto.spiRespRead := by
  simp only [State.finishJobs]
  refine (State.foldl_same (fun s => s.proto.spiRespRead) _ (fun s a => ?_) _ _).trans (by simp)
  simp
@[simp] theorem State.finishJobs_proto_spiEventRead (p : Job → Bool) (st : Status) (d : Nat) (ws : List Word) (s : State) : (s.finishJobs p st d ws).proto.spiEventRead = s.proto.spiEventRead := by
  simp only [State.finishJobs]
  refine (State.foldl_same (fun s => s.proto.spiEventRead) _ (fun s a => ?_) _ _).trans (by simp)
  simp
@[simp] theorem State.finishJobs_proto_spiOpen (p : Job → Bool) (st : Status) (d : Nat) (ws : List Word) (s : State) : (s.finishJobs p st d ws).proto.spiOpen = s.proto.spiOpen := by
  simp only [State.finishJobs]
  refine (State.foldl_same (fun s => s.proto.spiOpen) _ (fun s a => ?_) _ _).trans (by simp)
  simp
@[simp] theorem State.finishJobs_proto_spiDrop (p : Job → Bool) (st : Status) (d : Nat) (ws : List Word) (s : State) : (s.finishJobs p st d ws).proto.spiDrop = s.proto.spiDrop := by
  simp only [State.finishJobs]
  refine (State.foldl_same (fun s => s.proto.spiDrop) _ (fun s a => ?_) _ _).trans (by simp)
  simp
@[simp] theorem State.finishJobs_proto_spiDead (p : Job → Bool) (st : Status) (d : Nat) (ws : List Word) (s : State) : (s.finishJobs p st d ws).proto.spiDead = s.proto.spiDead := by
  simp only [State.finishJobs]
  refine (State.foldl_same (fun s => s.proto.spiDead) _ (fun s a => ?_) _ _).trans (by simp)
  simp
@[simp] theorem State.finishJobs_proto_armed (p : Job → Bool) (st : Status) (d : Nat) (ws : List Word) (s : State) : (s.finishJobs p st d ws).proto.armed = s.proto.armed := by
  simp only [State.finishJobs]
  refine (State.foldl_same (fun s => s.proto.armed) _ (fun s a => ?_) _ _).trans (by simp)
  simp
@[simp] theorem State.finishJobs_proto_held (p : Job → Bool) (st : Status) (d : Nat) (ws : List Word) (s : State) : (s.finishJobs p st d ws).proto.held = s.proto.held := by
  simp only [State.finishJobs]
  refine (State.foldl_same (fun s => s.proto.held) _ (fun s a => ?_) _ _).trans (by simp)
  simp
@[simp] theorem State.finishJobs_proto_nextSeq (p : Job → Bool) (st : Status) (d : Nat) (ws : List Word) (s : State) : (s.finishJobs p st d ws).proto.nextSeq = s.proto.nextSeq := by
  simp only [State.finishJobs]
  refine (State.foldl_same (fun s => s.proto.nextSeq) _ (fun s a => ?_) _ _).trans (by simp)
  simp
@[simp] theorem State.finishJobs_proto_mgmtResetArmed (p : Job → Bool) (st : Status) (d : Nat) (ws : List Word) (s : State) : (s.finishJobs p st d ws).proto.mgmtResetArmed = s.proto.mgmtResetArmed := by
  simp only [State.finishJobs]
  refine (State.foldl_same (fun s => s.proto.mgmtResetArmed) _ (fun s a => ?_) _ _).trans (by simp)
  simp
@[simp] theorem State.finishJobs_proto_masked (p : Job → Bool) (st : Status) (d : Nat) (ws : List Word) (s : State) : (s.finishJobs p st d ws).proto.masked = s.proto.masked := by
  simp only [State.finishJobs]
  refine (State.foldl_same (fun s => s.proto.masked) _ (fun s a => ?_) _ _).trans (by simp)
  simp

/-! ### cancelArmed -/

@[simp] theorem State.cancelArmed_dev_stage (p : Armed → Bool) (st : Status) (d : Nat) (s : State) : (s.cancelArmed p st d).dev.stage = s.dev.stage := by
  simp only [State.cancelArmed]
  refine (State.foldl_same (fun s => s.dev.stage) _ (fun s a => ?_) _ _).trans (by simp)
  split <;> simp
@[simp] theorem State.cancelArmed_dev_fwSlot (p : Armed → Bool) (st : Status) (d : Nat) (s : State) : (s.cancelArmed p st d).dev.fwSlot = s.dev.fwSlot := by
  simp only [State.cancelArmed]
  refine (State.foldl_same (fun s => s.dev.fwSlot) _ (fun s a => ?_) _ _).trans (by simp)
  split <;> simp
@[simp] theorem State.cancelArmed_dev_bootErr (p : Armed → Bool) (st : Status) (d : Nat) (s : State) : (s.cancelArmed p st d).dev.bootErr = s.dev.bootErr := by
  simp only [State.cancelArmed]
  refine (State.foldl_same (fun s => s.dev.bootErr) _ (fun s a => ?_) _ _).trans (by simp)
  split <;> simp
@[simp] theorem State.cancelArmed_dev_alertMask (p : Armed → Bool) (st : Status) (d : Nat) (s : State) : (s.cancelArmed p st d).dev.alertMask = s.dev.alertMask := by
  simp only [State.cancelArmed]
  refine (State.foldl_same (fun s => s.dev.alertMask) _ (fun s a => ?_) _ _).trans (by simp)
  split <;> simp
@[simp] theorem State.cancelArmed_dev_scratch (p : Armed → Bool) (st : Status) (d : Nat) (s : State) : (s.cancelArmed p st d).dev.scratch = s.dev.scratch := by
  simp only [State.cancelArmed]
  refine (State.foldl_same (fun s => s.dev.scratch) _ (fun s a => ?_) _ _).trans (by simp)
  split <;> simp
@[simp] theorem State.cancelArmed_dev_bootImgAddrLo (p : Armed → Bool) (st : Status) (d : Nat) (s : State) : (s.cancelArmed p st d).dev.bootImgAddrLo = s.dev.bootImgAddrLo := by
  simp only [State.cancelArmed]
  refine (State.foldl_same (fun s => s.dev.bootImgAddrLo) _ (fun s a => ?_) _ _).trans (by simp)
  split <;> simp
@[simp] theorem State.cancelArmed_dev_bootImgAddrHi (p : Armed → Bool) (st : Status) (d : Nat) (s : State) : (s.cancelArmed p st d).dev.bootImgAddrHi = s.dev.bootImgAddrHi := by
  simp only [State.cancelArmed]
  refine (State.foldl_same (fun s => s.dev.bootImgAddrHi) _ (fun s a => ?_) _ _).trans (by simp)
  split <;> simp
@[simp] theorem State.cancelArmed_dev_bootImgLen (p : Armed → Bool) (st : Status) (d : Nat) (s : State) : (s.cancelArmed p st d).dev.bootImgLen = s.dev.bootImgLen := by
  simp only [State.cancelArmed]
  refine (State.foldl_same (fun s => s.dev.bootImgLen) _ (fun s a => ?_) _ _).trans (by simp)
  split <;> simp
@[simp] theorem State.cancelArmed_dev_bootGo (p : Armed → Bool) (st : Status) (d : Nat) (s : State) : (s.cancelArmed p st d).dev.bootGo = s.dev.bootGo := by
  simp only [State.cancelArmed]
  refine (State.foldl_same (fun s => s.dev.bootGo) _ (fun s a => ?_) _ _).trans (by simp)
  split <;> simp
@[simp] theorem State.cancelArmed_dev_bootSrc (p : Armed → Bool) (st : Status) (d : Nat) (s : State) : (s.cancelArmed p st d).dev.bootSrc = s.dev.bootSrc := by
  simp only [State.cancelArmed]
  refine (State.foldl_same (fun s => s.dev.bootSrc) _ (fun s a => ?_) _ _).trans (by simp)
  split <;> simp
@[simp] theorem State.cancelArmed_dev_bootStage (p : Armed → Bool) (st : Status) (d : Nat) (s : State) : (s.cancelArmed p st d).dev.bootStage = s.dev.bootStage := by
  simp only [State.cancelArmed]
  refine (State.foldl_same (fun s => s.dev.bootStage) _ (fun s a => ?_) _ _).trans (by simp)
  split <;> simp
@[simp] theorem State.cancelArmed_dev_endpointUp (p : Armed → Bool) (st : Status) (d : Nat) (s : State) : (s.cancelArmed p st d).dev.endpointUp = s.dev.endpointUp := by
  simp only [State.cancelArmed]
  refine (State.foldl_same (fun s => s.dev.endpointUp) _ (fun s a => ?_) _ _).trans (by simp)
  split <;> simp
@[simp] theorem State.cancelArmed_dev_linkUp (p : Armed → Bool) (st : Status) (d : Nat) (s : State) : (s.cancelArmed p st d).dev.linkUp = s.dev.linkUp := by
  simp only [State.cancelArmed]
  refine (State.foldl_same (fun s => s.dev.linkUp) _ (fun s a => ?_) _ _).trans (by simp)
  split <;> simp
@[simp] theorem State.cancelArmed_dev_d3hot (p : Armed → Bool) (st : Status) (d : Nat) (s : State) : (s.cancelArmed p st d).dev.d3hot = s.dev.d3hot := by
  simp only [State.cancelArmed]
  refine (State.foldl_same (fun s => s.dev.d3hot) _ (fun s a => ?_) _ _).trans (by simp)
  split <;> simp
@[simp] theorem State.cancelArmed_proto_ring (p : Armed → Bool) (st : Status) (d : Nat) (s : State) : (s.cancelArmed p st d).proto.ring = s.proto.ring := by
  simp only [State.cancelArmed]
  refine (State.foldl_same (fun s => s.proto.ring) _ (fun s a => ?_) _ _).trans (by simp)
  split <;> simp
@[simp] theorem State.cancelArmed_proto_spi (p : Armed → Bool) (st : Status) (d : Nat) (s : State) : (s.cancelArmed p st d).proto.spi = s.proto.spi := by
  simp only [State.cancelArmed]
  refine (State.foldl_same (fun s => s.proto.spi) _ (fun s a => ?_) _ _).trans (by simp)
  split <;> simp
@[simp] theorem State.cancelArmed_proto_internal (p : Armed → Bool) (st : Status) (d : Nat) (s : State) : (s.cancelArmed p st d).proto.internal = s.proto.internal := by
  simp only [State.cancelArmed]
  refine (State.foldl_same (fun s => s.proto.internal) _ (fun s a => ?_) _ _).trans (by simp)
  split <;> simp
@[simp] theorem State.cancelArmed_proto_shepInternal (p : Armed → Bool) (st : Status) (d : Nat) (s : State) : (s.cancelArmed p st d).proto.shepInternal = s.proto.shepInternal := by
  simp only [State.cancelArmed]
  refine (State.foldl_same (fun s => s.proto.shepInternal) _ (fun s a => ?_) _ _).trans (by simp)
  split <;> simp
@[simp] theorem State.cancelArmed_proto_eventRing (p : Armed → Bool) (st : Status) (d : Nat) (s : State) : (s.cancelArmed p st d).proto.eventRing = s.proto.eventRing := by
  simp only [State.cancelArmed]
  refine (State.foldl_same (fun s => s.proto.eventRing) _ (fun s a => ?_) _ _).trans (by simp)
  split <;> simp
@[simp] theorem State.cancelArmed_proto_eventQueue (p : Armed → Bool) (st : Status) (d : Nat) (s : State) : (s.cancelArmed p st d).proto.eventQueue = s.proto.eventQueue := by
  simp only [State.cancelArmed]
  refine (State.foldl_same (fun s => s.proto.eventQueue) _ (fun s a => ?_) _ _).trans (by simp)
  split <;> simp
@[simp] theorem State.cancelArmed_proto_heldEvents (p : Armed → Bool) (st : Status) (d : Nat) (s : State) : (s.cancelArmed p st d).proto.heldEvents = s.proto.heldEvents := by
  simp only [State.cancelArmed]
  refine (State.foldl_same (fun s => s.proto.heldEvents) _ (fun s a => ?_) _ _).trans (by simp)
  split <;> simp
@[simp] theorem State.cancelArmed_proto_mgmtRdy (p : Armed → Bool) (st : Status) (d : Nat) (s : State) : (s.cancelArmed p st d).proto.mgmtRdy = s.proto.mgmtRdy := by
  simp only [State.cancelArmed]
  refine (State.foldl_same (fun s => s.proto.mgmtRdy) _ (fun s a => ?_) _ _).trans (by simp)
  split <;> simp
@[simp] theorem State.cancelArmed_proto_spiRespRead (p : Armed → Bool) (st : Status) (d : Nat) (s : State) : (s.cancelArmed p st d).proto.spiRespRead = s.proto.spiRespRead := by
  simp only [State.cancelArmed]
  refine (State.foldl_same (fun s => s.proto.spiRespRead) _ (fun s a => ?_) _ _).trans (by simp)
  split <;> simp
@[simp] theorem State.cancelArmed_proto_spiEventRead (p : Armed → Bool) (st : Status) (d : Nat) (s : State) : (s.cancelArmed p st d).proto.spiEventRead = s.proto.spiEventRead := by
  simp only [State.cancelArmed]
  refine (State.foldl_same (fun s => s.proto.spiEventRead) _ (fun s a => ?_) _ _).trans (by simp)
  split <;> simp
@[simp] theorem State.cancelArmed_proto_spiOpen (p : Armed → Bool) (st : Status) (d : Nat) (s : State) : (s.cancelArmed p st d).proto.spiOpen = s.proto.spiOpen := by
  simp only [State.cancelArmed]
  refine (State.foldl_same (fun s => s.proto.spiOpen) _ (fun s a => ?_) _ _).trans (by simp)
  split <;> simp
@[simp] theorem State.cancelArmed_proto_spiDrop (p : Armed → Bool) (st : Status) (d : Nat) (s : State) : (s.cancelArmed p st d).proto.spiDrop = s.proto.spiDrop := by
  simp only [State.cancelArmed]
  refine (State.foldl_same (fun s => s.proto.spiDrop) _ (fun s a => ?_) _ _).trans (by simp)
  split <;> simp
@[simp] theorem State.cancelArmed_proto_spiDead (p : Armed → Bool) (st : Status) (d : Nat) (s : State) : (s.cancelArmed p st d).proto.spiDead = s.proto.spiDead := by
  simp only [State.cancelArmed]
  refine (State.foldl_same (fun s => s.proto.spiDead) _ (fun s a => ?_) _ _).trans (by simp)
  split <;> simp
@[simp] theorem State.cancelArmed_proto_jobs (p : Armed → Bool) (st : Status) (d : Nat) (s : State) : (s.cancelArmed p st d).proto.jobs = s.proto.jobs := by
  simp only [State.cancelArmed]
  refine (State.foldl_same (fun s => s.proto.jobs) _ (fun s a => ?_) _ _).trans (by simp)
  split <;> simp
@[simp] theorem State.cancelArmed_proto_held (p : Armed → Bool) (st : Status) (d : Nat) (s : State) : (s.cancelArmed p st d).proto.held = s.proto.held := by
  simp only [State.cancelArmed]
  refine (State.foldl_same (fun s => s.proto.held) _ (fun s a => ?_) _ _).trans (by simp)
  split <;> simp
@[simp] theorem State.cancelArmed_proto_nextSeq (p : Armed → Bool) (st : Status) (d : Nat) (s : State) : (s.cancelArmed p st d).proto.nextSeq = s.proto.nextSeq := by
  simp only [State.cancelArmed]
  refine (State.foldl_same (fun s => s.proto.nextSeq) _ (fun s a => ?_) _ _).trans (by simp)
  split <;> simp
@[simp] theorem State.cancelArmed_proto_mgmtResetArmed (p : Armed → Bool) (st : Status) (d : Nat) (s : State) : (s.cancelArmed p st d).proto.mgmtResetArmed = s.proto.mgmtResetArmed := by
  simp only [State.cancelArmed]
  refine (State.foldl_same (fun s => s.proto.mgmtResetArmed) _ (fun s a => ?_) _ _).trans (by simp)
  split <;> simp
@[simp] theorem State.cancelArmed_proto_masked (p : Armed → Bool) (st : Status) (d : Nat) (s : State) : (s.cancelArmed p st d).proto.masked = s.proto.masked := by
  simp only [State.cancelArmed]
  refine (State.foldl_same (fun s => s.proto.masked) _ (fun s a => ?_) _ _).trans (by simp)
  split <;> simp

/-! ### arm -/

@[simp] theorem State.arm_dev_stage (a : Armed) (s : State) : (s.arm a).dev.stage = s.dev.stage := by
  simp [State.arm]
@[simp] theorem State.arm_dev_fwSlot (a : Armed) (s : State) : (s.arm a).dev.fwSlot = s.dev.fwSlot := by
  simp [State.arm]
@[simp] theorem State.arm_dev_bootErr (a : Armed) (s : State) : (s.arm a).dev.bootErr = s.dev.bootErr := by
  simp [State.arm]
@[simp] theorem State.arm_dev_alertMask (a : Armed) (s : State) : (s.arm a).dev.alertMask = s.dev.alertMask := by
  simp [State.arm]
@[simp] theorem State.arm_dev_scratch (a : Armed) (s : State) : (s.arm a).dev.scratch = s.dev.scratch := by
  simp [State.arm]
@[simp] theorem State.arm_dev_bootImgAddrLo (a : Armed) (s : State) : (s.arm a).dev.bootImgAddrLo = s.dev.bootImgAddrLo := by
  simp [State.arm]
@[simp] theorem State.arm_dev_bootImgAddrHi (a : Armed) (s : State) : (s.arm a).dev.bootImgAddrHi = s.dev.bootImgAddrHi := by
  simp [State.arm]
@[simp] theorem State.arm_dev_bootImgLen (a : Armed) (s : State) : (s.arm a).dev.bootImgLen = s.dev.bootImgLen := by
  simp [State.arm]
@[simp] theorem State.arm_dev_bootGo (a : Armed) (s : State) : (s.arm a).dev.bootGo = s.dev.bootGo := by
  simp [State.arm]
@[simp] theorem State.arm_dev_bootSrc (a : Armed) (s : State) : (s.arm a).dev.bootSrc = s.dev.bootSrc := by
  simp [State.arm]
@[simp] theorem State.arm_dev_bootStage (a : Armed) (s : State) : (s.arm a).dev.bootStage = s.dev.bootStage := by
  simp [State.arm]
@[simp] theorem State.arm_dev_endpointUp (a : Armed) (s : State) : (s.arm a).dev.endpointUp = s.dev.endpointUp := by
  simp [State.arm]
@[simp] theorem State.arm_dev_linkUp (a : Armed) (s : State) : (s.arm a).dev.linkUp = s.dev.linkUp := by
  simp [State.arm]
@[simp] theorem State.arm_dev_d3hot (a : Armed) (s : State) : (s.arm a).dev.d3hot = s.dev.d3hot := by
  simp [State.arm]
@[simp] theorem State.arm_proto_ring (a : Armed) (s : State) : (s.arm a).proto.ring = s.proto.ring := by
  simp [State.arm]
@[simp] theorem State.arm_proto_spi (a : Armed) (s : State) : (s.arm a).proto.spi = s.proto.spi := by
  simp [State.arm]
@[simp] theorem State.arm_proto_internal (a : Armed) (s : State) : (s.arm a).proto.internal = s.proto.internal := by
  simp [State.arm]
@[simp] theorem State.arm_proto_shepInternal (a : Armed) (s : State) : (s.arm a).proto.shepInternal = s.proto.shepInternal := by
  simp [State.arm]
@[simp] theorem State.arm_proto_eventRing (a : Armed) (s : State) : (s.arm a).proto.eventRing = s.proto.eventRing := by
  simp [State.arm]
@[simp] theorem State.arm_proto_eventQueue (a : Armed) (s : State) : (s.arm a).proto.eventQueue = s.proto.eventQueue := by
  simp [State.arm]
@[simp] theorem State.arm_proto_heldEvents (a : Armed) (s : State) : (s.arm a).proto.heldEvents = s.proto.heldEvents := by
  simp [State.arm]
@[simp] theorem State.arm_proto_mgmtRdy (a : Armed) (s : State) : (s.arm a).proto.mgmtRdy = s.proto.mgmtRdy := by
  simp [State.arm]
@[simp] theorem State.arm_proto_spiRespRead (a : Armed) (s : State) : (s.arm a).proto.spiRespRead = s.proto.spiRespRead := by
  simp [State.arm]
@[simp] theorem State.arm_proto_spiEventRead (a : Armed) (s : State) : (s.arm a).proto.spiEventRead = s.proto.spiEventRead := by
  simp [State.arm]
@[simp] theorem State.arm_proto_spiOpen (a : Armed) (s : State) : (s.arm a).proto.spiOpen = s.proto.spiOpen := by
  simp [State.arm]
@[simp] theorem State.arm_proto_spiDrop (a : Armed) (s : State) : (s.arm a).proto.spiDrop = s.proto.spiDrop := by
  simp [State.arm]
@[simp] theorem State.arm_proto_spiDead (a : Armed) (s : State) : (s.arm a).proto.spiDead = s.proto.spiDead := by
  simp [State.arm]
@[simp] theorem State.arm_proto_jobs (a : Armed) (s : State) : (s.arm a).proto.jobs = s.proto.jobs := by
  simp [State.arm]
@[simp] theorem State.arm_proto_held (a : Armed) (s : State) : (s.arm a).proto.held = s.proto.held := by
  simp [State.arm]
@[simp] theorem State.arm_proto_nextSeq (a : Armed) (s : State) : (s.arm a).proto.nextSeq = s.proto.nextSeq := by
  simp [State.arm]
@[simp] theorem State.arm_proto_mgmtResetArmed (a : Armed) (s : State) : (s.arm a).proto.mgmtResetArmed = s.proto.mgmtResetArmed := by
  simp [State.arm]
@[simp] theorem State.arm_proto_masked (a : Armed) (s : State) : (s.arm a).proto.masked = s.proto.masked := by
  simp [State.arm]

/-! ### setVisible -/

@[simp] theorem State.setVisible_proto_regs (n : Nat) (l : List CmdItem) (s : State) : (s.setVisible n l).proto.regs = s.proto.regs := by
  simp only [State.setVisible, State.modCmdq, State.modProto]; (repeat' split) <;> rfl
@[simp] theorem State.setVisible_proto_resp (n : Nat) (l : List CmdItem) (s : State) : (s.setVisible n l).proto.resp = s.proto.resp := by
  simp only [State.setVisible, State.modCmdq, State.modProto]; (repeat' split) <;> rfl
@[simp] theorem State.setVisible_proto_heldResp (n : Nat) (l : List CmdItem) (s : State) : (s.setVisible n l).proto.heldResp = s.proto.heldResp := by
  simp only [State.setVisible, State.modCmdq, State.modProto]; (repeat' split) <;> rfl
@[simp] theorem State.setVisible_proto_internalResp (n : Nat) (l : List CmdItem) (s : State) : (s.setVisible n l).proto.internalResp = s.proto.internalResp := by
  simp only [State.setVisible, State.modCmdq, State.modProto]; (repeat' split) <;> rfl
@[simp] theorem State.setVisible_proto_eventRing (n : Nat) (l : List CmdItem) (s : State) : (s.setVisible n l).proto.eventRing = s.proto.eventRing := by
  simp only [State.setVisible, State.modCmdq, State.modProto]; (repeat' split) <;> rfl
@[simp] theorem State.setVisible_proto_eventQueue (n : Nat) (l : List CmdItem) (s : State) : (s.setVisible n l).proto.eventQueue = s.proto.eventQueue := by
  simp only [State.setVisible, State.modCmdq, State.modProto]; (repeat' split) <;> rfl
@[simp] theorem State.setVisible_proto_heldEvents (n : Nat) (l : List CmdItem) (s : State) : (s.setVisible n l).proto.heldEvents = s.proto.heldEvents := by
  simp only [State.setVisible, State.modCmdq, State.modProto]; (repeat' split) <;> rfl
@[simp] theorem State.setVisible_proto_mgmtRdy (n : Nat) (l : List CmdItem) (s : State) : (s.setVisible n l).proto.mgmtRdy = s.proto.mgmtRdy := by
  simp only [State.setVisible, State.modCmdq, State.modProto]; (repeat' split) <;> rfl
@[simp] theorem State.setVisible_proto_spiRespRead (n : Nat) (l : List CmdItem) (s : State) : (s.setVisible n l).proto.spiRespRead = s.proto.spiRespRead := by
  simp only [State.setVisible, State.modCmdq, State.modProto]; (repeat' split) <;> rfl
@[simp] theorem State.setVisible_proto_spiEventRead (n : Nat) (l : List CmdItem) (s : State) : (s.setVisible n l).proto.spiEventRead = s.proto.spiEventRead := by
  simp only [State.setVisible, State.modCmdq, State.modProto]; (repeat' split) <;> rfl
@[simp] theorem State.setVisible_proto_spiOpen (n : Nat) (l : List CmdItem) (s : State) : (s.setVisible n l).proto.spiOpen = s.proto.spiOpen := by
  simp only [State.setVisible, State.modCmdq, State.modProto]; (repeat' split) <;> rfl
@[simp] theorem State.setVisible_proto_spiDrop (n : Nat) (l : List CmdItem) (s : State) : (s.setVisible n l).proto.spiDrop = s.proto.spiDrop := by
  simp only [State.setVisible, State.modCmdq, State.modProto]; (repeat' split) <;> rfl
@[simp] theorem State.setVisible_proto_spiDead (n : Nat) (l : List CmdItem) (s : State) : (s.setVisible n l).proto.spiDead = s.proto.spiDead := by
  simp only [State.setVisible, State.modCmdq, State.modProto]; (repeat' split) <;> rfl
@[simp] theorem State.setVisible_proto_armed (n : Nat) (l : List CmdItem) (s : State) : (s.setVisible n l).proto.armed = s.proto.armed := by
  simp only [State.setVisible, State.modCmdq, State.modProto]; (repeat' split) <;> rfl
@[simp] theorem State.setVisible_proto_jobs (n : Nat) (l : List CmdItem) (s : State) : (s.setVisible n l).proto.jobs = s.proto.jobs := by
  simp only [State.setVisible, State.modCmdq, State.modProto]; (repeat' split) <;> rfl
@[simp] theorem State.setVisible_proto_held (n : Nat) (l : List CmdItem) (s : State) : (s.setVisible n l).proto.held = s.proto.held := by
  simp only [State.setVisible, State.modCmdq, State.modProto]; (repeat' split) <;> rfl
@[simp] theorem State.setVisible_proto_nextSeq (n : Nat) (l : List CmdItem) (s : State) : (s.setVisible n l).proto.nextSeq = s.proto.nextSeq := by
  simp only [State.setVisible, State.modCmdq, State.modProto]; (repeat' split) <;> rfl
@[simp] theorem State.setVisible_proto_mgmtResetArmed (n : Nat) (l : List CmdItem) (s : State) : (s.setVisible n l).proto.mgmtResetArmed = s.proto.mgmtResetArmed := by
  simp only [State.setVisible, State.modCmdq, State.modProto]; (repeat' split) <;> rfl
@[simp] theorem State.setVisible_proto_masked (n : Nat) (l : List CmdItem) (s : State) : (s.setVisible n l).proto.masked = s.proto.masked := by
  simp only [State.setVisible, State.modCmdq, State.modProto]; (repeat' split) <;> rfl
@[simp] theorem State.setVisible_proto_owedFinals (n : Nat) (l : List CmdItem) (s : State) : (s.setVisible n l).proto.owedFinals = s.proto.owedFinals := by
  simp only [State.setVisible, State.modCmdq, State.modProto]; (repeat' split) <;> rfl

end Sys2Proof.Machine
end

