-- ==== Sys2Proof/Laws/Smiulo.lean ====
section
/-! SUPPORT. What the Smiulo pipeline does with a command that is accepted, and what parsing leaves unchanged. -/
namespace Sys2Proof.Machine

/-! ### Queues of the transports -/

theorem vmod_vget_self {α : Type} {n : Nat} (v : Vector α n) (i : Nat) (f : α → α) (d : α) (h : i < n) (e : f (vget v i d) = vget v i d) :
    vmod v i f = v := by
  unfold vget at e; unfold vmod
  rw [dif_pos h] at e; rw [dif_pos h, e]
  exact Vector.set_getElem_self h
theorem source_list_le (x : Source) : x.list ≤ 6 := by
  cases x with
  | ring n => exact Nat.le_of_lt (Nat.lt_of_lt_of_le n.isLt (by decide))
  | _ => exact Nat.le_of_ble_eq_true rfl
theorem itemLists_le (m : Nat) (h : m ∈ itemLists) : m ≤ 6 := by
  simp only [itemLists, List.mem_cons, List.not_mem_nil, or_false] at h; omega
/-- The command queue that a list number below the internal queues names, and that of another number. -/
theorem State.visible_setVisible_queue (n m : Nat) (l : List CmdItem) (s : State) (hn : n ≤ 4) (hm : m ≤ 4) :
    (s.setVisible n l).visible m = if m = n then l else s.visible m := by
  have n5 : n ≠ 5 := by omega
  have n6 : n ≠ 6 := by omega
  have m5 : m ≠ 5 := by omega
  have m6 : m ≠ 6 := by omega
  by_cases h4 : n < 4 <;> by_cases m4 : m < 4
  · by_cases h : m = n
    · subst h; simp [State.setVisible, State.visible, State.cmdq, State.modCmdq, n5, n6, h4]
    · simp [State.setVisible, State.visible, State.cmdq, State.modCmdq, n5, n6, m5, m6, h4, m4, h]
  · have : m ≠ n := by omega
    simp [State.setVisible, State.visible, State.cmdq, State.modCmdq, n5, n6, m5, m6, h4, m4, this]
  · have : m ≠ n := by omega
    simp [State.setVisible, State.visible, State.cmdq, State.modCmdq, n5, n6, m5, m6, h4, m4, this]
  · have : m = n := by omega
    subst this
    simp [State.setVisible, State.visible, State.cmdq, State.modCmdq, n5, n6, h4]
theorem State.visible_setVisible_if (n m : Nat) (l : List CmdItem) (s : State) (hn : n ≤ 6) (hm : m ≤ 6) :
    (s.setVisible n l).visible m = if m = n then l else s.visible m := by
  by_cases n5 : n = 5
  · subst n5
    by_cases h : m = 5 <;> simp [State.setVisible, State.visible, State.cmdq, h]
  · by_cases n6 : n = 6
    · subst n6
      by_cases h : m = 6 <;> simp [State.setVisible, State.visible, State.cmdq, h]
    · by_cases m5 : m = 5
      · subst m5; simp [State.setVisible, State.visible, State.modCmdq, n5, n6, Ne.symm n5]; split <;> rfl
      · by_cases m6 : m = 6
        · subst m6; simp [State.setVisible, State.visible, State.modCmdq, n5, n6, Ne.symm n6]; split <;> rfl
        · exact State.visible_setVisible_queue n m l s (by omega) (by omega)
@[simp] theorem State.visible_setVisible (n : Nat) (l : List CmdItem) (s : State) (h : n ≤ 6) : (s.setVisible n l).visible n = l := by
  simp [State.visible_setVisible_if n n l s h h]
@[simp] theorem State.heldFinals_setVisible (n : Nat) (l : List CmdItem) (s : State) : (s.setVisible n l).heldFinals = s.heldFinals := by
  simp [State.heldFinals]
@[simp] theorem State.tagsInFlight_setVisible (n : Nat) (l : List CmdItem) (s : State) :
    (s.setVisible n l).tagsInFlight = s.tagsInFlight := by
  simp [State.tagsInFlight]
@[simp] theorem State.parses_setVisible (n : Nat) (l : List CmdItem) (x : Source) (s : State) :
    (s.setVisible n l).parses x = s.parses x := by
  simp [State.parses, State.fwUp]
theorem State.urgentElse_setVisible (n : Nat) (l : List CmdItem) (s : State) (hn : n ≤ 6) :
    (s.setVisible n l).urgentElse n = s.urgentElse n := by
  have same : ∀ (g h : Nat → Bool) (ls : List Nat), (∀ m ∈ ls, g m = h m) → ls.any g = ls.any h := by
    intro g h ls
    induction ls with
    | nil => intro _; rfl
    | cons a ls ih => intro k; rw [List.any_cons, List.any_cons, k a (by simp), ih (fun m hm => k m (by simp [hm]))]
  refine same _ _ _ (fun m hm => ?_)
  by_cases h : m = n
  · simp [h]
  · simp [State.urgentOn, State.visible_setVisible_if n m l s hn (itemLists_le m hm), h]
@[simp] theorem State.barred_setVisible (n : Nat) (l : List CmdItem) (x : Source) (s : State) :
    (s.setVisible n l).barred x = s.barred x := by
  simp [State.barred]
theorem State.takeVisible_frame {β : Type} (g : State → β) (hp : ∀ f s, g (s.modProto f) = g s)
    (hq : ∀ q f s, g (s.modQreg q f) = g s) (ha : ∀ q s, g (s.advanced q) = g s) (n k : Nat) (s : State) :
    g (s.takeVisible n k) = g s := by
  have hs : ∀ l, g (s.setVisible n l) = g s := by
    intro l; unfold State.setVisible; (repeat' split) <;> exact hp _ _
  simp only [State.takeVisible]
  split
  · rw [ha, hq, hs]
  · split
    · rw [hp, hs]
    · exact hs _

/-! ### An accepted command -/

/-- A command that stands alone is parsed at once. -/
theorem runSpec_parsedNow (spec : Option OpSpec) (op : Nat) (c : Cmd) (s : State) (h : parsedNow c s = true) :
    runSpec spec op c s = parseCmd spec op c
      ((s.setVisible c.src.list [{ opcode := op, cmd := c, span := 0, bad := none }]).takeVisible c.src.list 0) := by
  simp only [parsedNow, Bool.and_eq_true, List.isEmpty_iff, Bool.not_eq_true'] at h
  obtain ⟨⟨⟨⟨hv, hp⟩, hb⟩, hq⟩, -⟩ := h
  have h5 := source_list_le c.src
  have ens : s.ensureVisible op c = s.setVisible c.src.list [{ opcode := op, cmd := c, span := 0, bad := none }] := by
    simp [State.ensureVisible, hv]
  have drop : ∀ k, (s.setVisible c.src.list [{ opcode := op, cmd := c, span := 0, bad := none }]).dropBad c.src.list k
      = s.setVisible c.src.list [{ opcode := op, cmd := c, span := 0, bad := none }] := by
    intro k; cases k with
    | zero => rfl
    | succ k => simp [State.dropBad, h5]
  have next : (s.setVisible c.src.list [{ opcode := op, cmd := c, span := 0, bad := none }]).nextItem c.src.list = some 0 := by
    by_cases hu : c.urgent = true <;> simp [State.nextItem, h5, hu, hp, hb]
  simp only [runSpec, ens, drop, next]
  simpa [h5, State.urgentElse_setVisible _ _ _ h5] using fun a b => absurd hq (by simp [a, b])
theorem happen_frame {β : Type} (g : State → β) (hc : ∀ f s, g (s.modCtr f) = g s) (slot n : Nat) (s : State) :
    g (s.happen slot n) = g s := by
  unfold State.happen; split
  · rfl
  · exact hc _ _
theorem countPrivilege_frame {β : Type} (g : State → β) (hc : ∀ f s, g (s.modCtr f) = g s) (op : Nat) (x : Source) (s : State) :
    g (s.countPrivilege op x) = g s := by
  unfold State.countPrivilege
  refine State.foldl_same g _ (fun s a => ?_) _ _
  (repeat' split) <;> first | rfl | exact happen_frame g hc _ _ _
theorem State.setVisible_nextSeq (n : Nat) (l : List CmdItem) (s : State) : (s.setVisible n l).proto.nextSeq = s.proto.nextSeq := by simp
theorem State.takeVisible_nextSeq (n k : Nat) (s : State) : (s.takeVisible n k).proto.nextSeq = s.proto.nextSeq := by
  simp only [State.takeVisible]; (repeat' split) <;> simp
theorem State.takeVisible_tags (n k : Nat) (s : State) : (s.takeVisible n k).tagsInFlight = s.tagsInFlight := by
  simp only [State.takeVisible]; (repeat' split) <;> simp [State.tagsInFlight, State.heldFinals]
@[simp] theorem State.takeVisible_tn (n k : Nat) (s : State) : (s.takeVisible n k).tn = s.tn :=
  State.takeVisible_frame (fun s => s.tn) (fun _ _ => rfl) (fun _ _ _ => rfl) (fun _ _ => by simp) n k s
@[simp] theorem State.countPrivilege_tn (op : Nat) (x : Source) (s : State) : (s.countPrivilege op x).tn = s.tn :=
  countPrivilege_frame (fun s => s.tn) (fun _ _ => rfl) op x s
@[simp] theorem State.atParse_tn (op : Nat) (c : Cmd) (s : State) : (s.atParse op c).tn = s.tn := by
  simp [State.atParse]
theorem held_atParse (op : Nat) (c : Cmd) (s : State) : (s.atParse op c).proto.held = s.proto.held := by
  rw [State.atParse, countPrivilege_frame (fun s => s.proto.held) (fun _ _ => rfl)]
  simp only [State.takeVisible, State.modProto_proto]; (repeat' split) <;> simp
theorem orderWaits_atParse (k op op' : Nat) (c c' : Cmd) (s : State) : orderWaits op' c' k (s.atParse op c) = orderWaits op' c' k s := by
  rw [orderWaits, orderWaits, held_atParse]
theorem barrierWaits_atParse (k op : Nat) (c : Cmd) (s : State) : barrierWaits k (s.atParse op c) = barrierWaits k s := by
  have h1 : (s.atParse op c).proto.jobs = s.proto.jobs := by
    rw [State.atParse, countPrivilege_frame (fun s => s.proto.jobs) (fun _ _ => rfl)]
    simp only [State.takeVisible, State.modProto_proto]; (repeat' split) <;> simp
  have h2 := held_atParse op c s
  have h3 : (s.atParse op c).proto.armed = s.proto.armed := by
    rw [State.atParse, countPrivilege_frame (fun s => s.proto.armed) (fun _ _ => rfl)]
    simp only [State.takeVisible, State.modProto_proto]; (repeat' split) <;> simp
  rw [barrierWaits, barrierWaits, h1, h2, h3]
theorem parseRefusal_tn (sp : OpSpec) (c : Cmd) (s t : State) (h : t.tn = s.tn) : parseRefusal sp c t = parseRefusal sp c s := by
  simp only [parseRefusal, h]
/-- The meaning of every accepted command: it is carried out on the state in which it is judged. -/
theorem runOp_ready (sp : OpSpec) (c : Cmd) (s : State) (h : Ready sp c s = true) :
    runOp sp c s = .next (carryOut sp c (ticketNow sp.code c s) (s.atParse sp.code c)) := by
  simp only [Ready, Bool.and_eq_true, Bool.not_eq_true', Option.isNone_iff_eq_none] at h
  obtain ⟨⟨⟨⟨⟨hn, hr⟩, hb⟩, hw⟩, ho⟩, hh⟩ := h
  have htag : (c.src.isHost && s.tagsInFlight.contains c.tag.val) = false := by
    simp only [parsedNow, Bool.and_eq_true, Bool.not_eq_true'] at hn; exact hn.2
  have htn : (match c.tn with | some due => decide (due ≤ s.tn) | none => false) = false := by
    cases hc : c.tn with
    | none => rfl
    | some t =>
      simp only [decide_eq_false_iff_not, Nat.not_le]
      simp only [parseRefusal, hc] at hr
      repeat' split at hr
      all_goals first | omega | (exfalso; simp_all; done)
  rw [runOp, runSpec_parsedNow _ _ _ _ hn, parseCmd, State.takeVisible_tags, State.tagsInFlight_setVisible, if_neg (by rw [htag]; decide)]
  have hseq : ((s.setVisible c.src.list [{ opcode := sp.code, cmd := c, span := 0, bad := none }]).takeVisible c.src.list 0).proto.nextSeq
      = s.proto.nextSeq := by rw [State.takeVisible_nextSeq]; simp
  have hs : (((s.setVisible c.src.list [{ opcode := sp.code, cmd := c, span := 0, bad := none }]).takeVisible c.src.list 0).modProto
      (fun p => { p with nextSeq := p.nextSeq + 1 })).countPrivilege sp.code c.src = s.atParse sp.code c := rfl
  simp only [hs, hseq]
  rw [parseRefusal_tn sp c s _ (State.atParse_tn _ _ _), hr]
  have ht : ticketOf sp.code c s.proto.nextSeq = ticketNow sp.code c s := rfl
  have hbar : (c.barrier && barrierWaits (ticketOf sp.code c s.proto.nextSeq).seq (s.atParse sp.code c)) = false := by
    rw [barrierWaits_atParse]; exact hb
  have hre : (s.atParse sp.code c).realign = s.realign := by
    rw [State.atParse, countPrivilege_frame (fun s => s.realign) (fun _ _ => rfl), State.modProto_realign,
      State.takeVisible_frame (fun s => s.realign) (fun _ _ => rfl) (fun _ _ _ => rfl) (fun _ _ => by simp)]
    simp
  have htk : (s.atParse sp.code c).ticks = s.ticks := by
    rw [State.atParse, countPrivilege_frame (fun s => s.ticks) (fun _ _ => rfl), State.modProto_ticks,
      State.takeVisible_frame (fun s => s.ticks) (fun _ _ => rfl) (fun _ _ _ => rfl) (fun _ _ => by simp)]
    simp
  have hheld : ((s.atParse sp.code c).realignHolds && newlyCarries (s.atParse sp.code c) (effectOn sp c (s.atParse sp.code c))) = false := by
    rw [State.realignHolds, hre, htk]; exact hh
  have hany : c.tn.any (fun due => decide (due ≤ (s.atParse sp.code c).tn)) = false := by
    rw [State.atParse_tn]; cases hc : c.tn with
    | none => rfl
    | some t => rw [hc] at htn; exact htn
  have hord : orderWaits sp.code c (ticketOf sp.code c s.proto.nextSeq).seq (s.atParse sp.code c) = false := by
    rw [orderWaits_atParse]; exact hw
  rw [ht] at hbar hord
  simp only [ht, hbar, hord, startCmd, ho, hany, hheld, Bool.false_eq_true, ↓reduceIte]

end Sys2Proof.Machine
end

