-- ==== Sys2Proof/Laws/Parse.lean ====
section
/-! SUPPORT. What parsing an accepted command leaves unchanged, and that an answer is posted. -/
namespace Sys2Proof.Machine

@[simp] theorem State.takeVisible_tickOffset (n k : Nat) (s : State) : (s.takeVisible n k).tickOffset = s.tickOffset :=
  State.takeVisible_frame (fun s => s.tickOffset) (fun _ _ => rfl) (fun _ _ _ => rfl) (fun _ _ => by simp) n k s
@[simp] theorem State.countPrivilege_tickOffset (op : Nat) (x : Source) (s : State) : (s.countPrivilege op x).tickOffset = s.tickOffset :=
  countPrivilege_frame (fun s => s.tickOffset) (fun _ _ => rfl) op x s
@[simp] theorem State.atParse_tickOffset (op : Nat) (c : Cmd) (s : State) : (s.atParse op c).tickOffset = s.tickOffset := by simp [State.atParse]
@[simp] theorem State.takeVisible_ticks (n k : Nat) (s : State) : (s.takeVisible n k).ticks = s.ticks :=
  State.takeVisible_frame (fun s => s.ticks) (fun _ _ => rfl) (fun _ _ _ => rfl) (fun _ _ => by simp) n k s
@[simp] theorem State.countPrivilege_ticks (op : Nat) (x : Source) (s : State) : (s.countPrivilege op x).ticks = s.ticks :=
  countPrivilege_frame (fun s => s.ticks) (fun _ _ => rfl) op x s
@[simp] theorem State.atParse_ticks (op : Nat) (c : Cmd) (s : State) : (s.atParse op c).ticks = s.ticks := by simp [State.atParse]
@[simp] theorem State.takeVisible_tnProvisional (n k : Nat) (s : State) : (s.takeVisible n k).tnProvisional = s.tnProvisional :=
  State.takeVisible_frame (fun s => s.tnProvisional) (fun _ _ => rfl) (fun _ _ _ => rfl) (fun _ _ => by simp) n k s
@[simp] theorem State.countPrivilege_tnProvisional (op : Nat) (x : Source) (s : State) : (s.countPrivilege op x).tnProvisional = s.tnProvisional :=
  countPrivilege_frame (fun s => s.tnProvisional) (fun _ _ => rfl) op x s
@[simp] theorem State.atParse_tnProvisional (op : Nat) (c : Cmd) (s : State) : (s.atParse op c).tnProvisional = s.tnProvisional := by simp [State.atParse]
@[simp] theorem State.takeVisible_realign (n k : Nat) (s : State) : (s.takeVisible n k).realign = s.realign :=
  State.takeVisible_frame (fun s => s.realign) (fun _ _ => rfl) (fun _ _ _ => rfl) (fun _ _ => by simp) n k s
@[simp] theorem State.countPrivilege_realign (op : Nat) (x : Source) (s : State) : (s.countPrivilege op x).realign = s.realign :=
  countPrivilege_frame (fun s => s.realign) (fun _ _ => rfl) op x s
@[simp] theorem State.atParse_realign (op : Nat) (c : Cmd) (s : State) : (s.atParse op c).realign = s.realign := by simp [State.atParse]
@[simp] theorem State.takeVisible_trafficLast (n k : Nat) (s : State) : (s.takeVisible n k).trafficLast = s.trafficLast :=
  State.takeVisible_frame (fun s => s.trafficLast) (fun _ _ => rfl) (fun _ _ _ => rfl) (fun _ _ => by simp) n k s
@[simp] theorem State.countPrivilege_trafficLast (op : Nat) (x : Source) (s : State) : (s.countPrivilege op x).trafficLast = s.trafficLast :=
  countPrivilege_frame (fun s => s.trafficLast) (fun _ _ => rfl) op x s
@[simp] theorem State.atParse_trafficLast (op : Nat) (c : Cmd) (s : State) : (s.atParse op c).trafficLast = s.trafficLast := by simp [State.atParse]
@[simp] theorem State.takeVisible_engines (n k : Nat) (s : State) : (s.takeVisible n k).engines = s.engines :=
  State.takeVisible_frame (fun s => s.engines) (fun _ _ => rfl) (fun _ _ _ => rfl) (fun _ _ => by simp) n k s
@[simp] theorem State.countPrivilege_engines (op : Nat) (x : Source) (s : State) : (s.countPrivilege op x).engines = s.engines :=
  countPrivilege_frame (fun s => s.engines) (fun _ _ => rfl) op x s
@[simp] theorem State.atParse_engines (op : Nat) (c : Cmd) (s : State) : (s.atParse op c).engines = s.engines := by simp [State.atParse]
@[simp] theorem State.takeVisible_tiles (n k : Nat) (s : State) : (s.takeVisible n k).tiles = s.tiles :=
  State.takeVisible_frame (fun s => s.tiles) (fun _ _ => rfl) (fun _ _ _ => rfl) (fun _ _ => by simp) n k s
@[simp] theorem State.countPrivilege_tiles (op : Nat) (x : Source) (s : State) : (s.countPrivilege op x).tiles = s.tiles :=
  countPrivilege_frame (fun s => s.tiles) (fun _ _ => rfl) op x s
@[simp] theorem State.atParse_tiles (op : Nat) (c : Cmd) (s : State) : (s.atParse op c).tiles = s.tiles := by simp [State.atParse]
@[simp] theorem State.takeVisible_htiles (n k : Nat) (s : State) : (s.takeVisible n k).htiles = s.htiles :=
  State.takeVisible_frame (fun s => s.htiles) (fun _ _ => rfl) (fun _ _ _ => rfl) (fun _ _ => by simp) n k s
@[simp] theorem State.countPrivilege_htiles (op : Nat) (x : Source) (s : State) : (s.countPrivilege op x).htiles = s.htiles :=
  countPrivilege_frame (fun s => s.htiles) (fun _ _ => rfl) op x s
@[simp] theorem State.atParse_htiles (op : Nat) (c : Cmd) (s : State) : (s.atParse op c).htiles = s.htiles := by simp [State.atParse]
@[simp] theorem State.takeVisible_lanes (n k : Nat) (s : State) : (s.takeVisible n k).lanes = s.lanes :=
  State.takeVisible_frame (fun s => s.lanes) (fun _ _ => rfl) (fun _ _ _ => rfl) (fun _ _ => by simp) n k s
@[simp] theorem State.countPrivilege_lanes (op : Nat) (x : Source) (s : State) : (s.countPrivilege op x).lanes = s.lanes :=
  countPrivilege_frame (fun s => s.lanes) (fun _ _ => rfl) op x s
@[simp] theorem State.atParse_lanes (op : Nat) (c : Cmd) (s : State) : (s.atParse op c).lanes = s.lanes := by simp [State.atParse]
@[simp] theorem State.takeVisible_ports (n k : Nat) (s : State) : (s.takeVisible n k).ports = s.ports :=
  State.takeVisible_frame (fun s => s.ports) (fun _ _ => rfl) (fun _ _ _ => rfl) (fun _ _ => by simp) n k s
@[simp] theorem State.countPrivilege_ports (op : Nat) (x : Source) (s : State) : (s.countPrivilege op x).ports = s.ports :=
  countPrivilege_frame (fun s => s.ports) (fun _ _ => rfl) op x s
@[simp] theorem State.atParse_ports (op : Nat) (c : Cmd) (s : State) : (s.atParse op c).ports = s.ports := by simp [State.atParse]
@[simp] theorem State.takeVisible_packs (n k : Nat) (s : State) : (s.takeVisible n k).packs = s.packs :=
  State.takeVisible_frame (fun s => s.packs) (fun _ _ => rfl) (fun _ _ _ => rfl) (fun _ _ => by simp) n k s
@[simp] theorem State.countPrivilege_packs (op : Nat) (x : Source) (s : State) : (s.countPrivilege op x).packs = s.packs :=
  countPrivilege_frame (fun s => s.packs) (fun _ _ => rfl) op x s
@[simp] theorem State.atParse_packs (op : Nat) (c : Cmd) (s : State) : (s.atParse op c).packs = s.packs := by simp [State.atParse]
@[simp] theorem State.takeVisible_cal (n k : Nat) (s : State) : (s.takeVisible n k).cal = s.cal :=
  State.takeVisible_frame (fun s => s.cal) (fun _ _ => rfl) (fun _ _ _ => rfl) (fun _ _ => by simp) n k s
@[simp] theorem State.countPrivilege_cal (op : Nat) (x : Source) (s : State) : (s.countPrivilege op x).cal = s.cal :=
  countPrivilege_frame (fun s => s.cal) (fun _ _ => rfl) op x s
@[simp] theorem State.atParse_cal (op : Nat) (c : Cmd) (s : State) : (s.atParse op c).cal = s.cal := by simp [State.atParse]
@[simp] theorem State.takeVisible_map (n k : Nat) (s : State) : (s.takeVisible n k).map = s.map :=
  State.takeVisible_frame (fun s => s.map) (fun _ _ => rfl) (fun _ _ _ => rfl) (fun _ _ => by simp) n k s
@[simp] theorem State.countPrivilege_map (op : Nat) (x : Source) (s : State) : (s.countPrivilege op x).map = s.map :=
  countPrivilege_frame (fun s => s.map) (fun _ _ => rfl) op x s
@[simp] theorem State.atParse_map (op : Nat) (c : Cmd) (s : State) : (s.atParse op c).map = s.map := by simp [State.atParse]
@[simp] theorem State.takeVisible_mapCentre (n k : Nat) (s : State) : (s.takeVisible n k).mapCentre = s.mapCentre :=
  State.takeVisible_frame (fun s => s.mapCentre) (fun _ _ => rfl) (fun _ _ _ => rfl) (fun _ _ => by simp) n k s
@[simp] theorem State.countPrivilege_mapCentre (op : Nat) (x : Source) (s : State) : (s.countPrivilege op x).mapCentre = s.mapCentre :=
  countPrivilege_frame (fun s => s.mapCentre) (fun _ _ => rfl) op x s
@[simp] theorem State.atParse_mapCentre (op : Nat) (c : Cmd) (s : State) : (s.atParse op c).mapCentre = s.mapCentre := by simp [State.atParse]
@[simp] theorem State.takeVisible_mons (n k : Nat) (s : State) : (s.takeVisible n k).mons = s.mons :=
  State.takeVisible_frame (fun s => s.mons) (fun _ _ => rfl) (fun _ _ _ => rfl) (fun _ _ => by simp) n k s
@[simp] theorem State.countPrivilege_mons (op : Nat) (x : Source) (s : State) : (s.countPrivilege op x).mons = s.mons :=
  countPrivilege_frame (fun s => s.mons) (fun _ _ => rfl) op x s
@[simp] theorem State.atParse_mons (op : Nat) (c : Cmd) (s : State) : (s.atParse op c).mons = s.mons := by simp [State.atParse]
@[simp] theorem State.takeVisible_tlmq (n k : Nat) (s : State) : (s.takeVisible n k).tlmq = s.tlmq :=
  State.takeVisible_frame (fun s => s.tlmq) (fun _ _ => rfl) (fun _ _ _ => rfl) (fun _ _ => by simp) n k s
@[simp] theorem State.countPrivilege_tlmq (op : Nat) (x : Source) (s : State) : (s.countPrivilege op x).tlmq = s.tlmq :=
  countPrivilege_frame (fun s => s.tlmq) (fun _ _ => rfl) op x s
@[simp] theorem State.atParse_tlmq (op : Nat) (c : Cmd) (s : State) : (s.atParse op c).tlmq = s.tlmq := by simp [State.atParse]
@[simp] theorem State.takeVisible_chains (n k : Nat) (s : State) : (s.takeVisible n k).chains = s.chains :=
  State.takeVisible_frame (fun s => s.chains) (fun _ _ => rfl) (fun _ _ _ => rfl) (fun _ _ => by simp) n k s
@[simp] theorem State.countPrivilege_chains (op : Nat) (x : Source) (s : State) : (s.countPrivilege op x).chains = s.chains :=
  countPrivilege_frame (fun s => s.chains) (fun _ _ => rfl) op x s
@[simp] theorem State.atParse_chains (op : Nat) (c : Cmd) (s : State) : (s.atParse op c).chains = s.chains := by simp [State.atParse]
@[simp] theorem State.takeVisible_dma (n k : Nat) (s : State) : (s.takeVisible n k).dma = s.dma :=
  State.takeVisible_frame (fun s => s.dma) (fun _ _ => rfl) (fun _ _ _ => rfl) (fun _ _ => by simp) n k s
@[simp] theorem State.countPrivilege_dma (op : Nat) (x : Source) (s : State) : (s.countPrivilege op x).dma = s.dma :=
  countPrivilege_frame (fun s => s.dma) (fun _ _ => rfl) op x s
@[simp] theorem State.atParse_dma (op : Nat) (c : Cmd) (s : State) : (s.atParse op c).dma = s.dma := by simp [State.atParse]
@[simp] theorem State.takeVisible_power (n k : Nat) (s : State) : (s.takeVisible n k).power = s.power :=
  State.takeVisible_frame (fun s => s.power) (fun _ _ => rfl) (fun _ _ _ => rfl) (fun _ _ => by simp) n k s
@[simp] theorem State.countPrivilege_power (op : Nat) (x : Source) (s : State) : (s.countPrivilege op x).power = s.power :=
  countPrivilege_frame (fun s => s.power) (fun _ _ => rfl) op x s
@[simp] theorem State.atParse_power (op : Nat) (c : Cmd) (s : State) : (s.atParse op c).power = s.power := by simp [State.atParse]
@[simp] theorem State.takeVisible_recovery (n k : Nat) (s : State) : (s.takeVisible n k).recovery = s.recovery :=
  State.takeVisible_frame (fun s => s.recovery) (fun _ _ => rfl) (fun _ _ _ => rfl) (fun _ _ => by simp) n k s
@[simp] theorem State.countPrivilege_recovery (op : Nat) (x : Source) (s : State) : (s.countPrivilege op x).recovery = s.recovery :=
  countPrivilege_frame (fun s => s.recovery) (fun _ _ => rfl) op x s
@[simp] theorem State.atParse_recovery (op : Nat) (c : Cmd) (s : State) : (s.atParse op c).recovery = s.recovery := by simp [State.atParse]
@[simp] theorem State.takeVisible_kennel (n k : Nat) (s : State) : (s.takeVisible n k).kennel = s.kennel :=
  State.takeVisible_frame (fun s => s.kennel) (fun _ _ => rfl) (fun _ _ _ => rfl) (fun _ _ => by simp) n k s
@[simp] theorem State.countPrivilege_kennel (op : Nat) (x : Source) (s : State) : (s.countPrivilege op x).kennel = s.kennel :=
  countPrivilege_frame (fun s => s.kennel) (fun _ _ => rfl) op x s
@[simp] theorem State.atParse_kennel (op : Nat) (c : Cmd) (s : State) : (s.atParse op c).kennel = s.kennel := by simp [State.atParse]
@[simp] theorem State.takeVisible_time (n k : Nat) (s : State) : (s.takeVisible n k).time = s.time :=
  State.takeVisible_frame (fun s => s.time) (fun _ _ => rfl) (fun _ _ _ => rfl) (fun _ _ => by simp) n k s
@[simp] theorem State.countPrivilege_time (op : Nat) (x : Source) (s : State) : (s.countPrivilege op x).time = s.time :=
  countPrivilege_frame (fun s => s.time) (fun _ _ => rfl) op x s
@[simp] theorem State.atParse_time (op : Nat) (c : Cmd) (s : State) : (s.atParse op c).time = s.time := by simp [State.atParse]
@[simp] theorem State.takeVisible_sec (n k : Nat) (s : State) : (s.takeVisible n k).sec = s.sec :=
  State.takeVisible_frame (fun s => s.sec) (fun _ _ => rfl) (fun _ _ _ => rfl) (fun _ _ => by simp) n k s
@[simp] theorem State.countPrivilege_sec (op : Nat) (x : Source) (s : State) : (s.countPrivilege op x).sec = s.sec :=
  countPrivilege_frame (fun s => s.sec) (fun _ _ => rfl) op x s
@[simp] theorem State.atParse_sec (op : Nat) (c : Cmd) (s : State) : (s.atParse op c).sec = s.sec := by simp [State.atParse]
@[simp] theorem State.takeVisible_clockIdentity (n k : Nat) (s : State) : (s.takeVisible n k).clockIdentity = s.clockIdentity :=
  State.takeVisible_frame (fun s => s.clockIdentity) (fun _ _ => rfl) (fun _ _ _ => rfl) (fun _ _ => by simp) n k s
@[simp] theorem State.countPrivilege_clockIdentity (op : Nat) (x : Source) (s : State) : (s.countPrivilege op x).clockIdentity = s.clockIdentity :=
  countPrivilege_frame (fun s => s.clockIdentity) (fun _ _ => rfl) op x s
@[simp] theorem State.atParse_clockIdentity (op : Nat) (c : Cmd) (s : State) : (s.atParse op c).clockIdentity = s.clockIdentity := by simp [State.atParse]
@[simp] theorem State.takeVisible_parityLast (n k : Nat) (s : State) : (s.takeVisible n k).parityLast = s.parityLast :=
  State.takeVisible_frame (fun s => s.parityLast) (fun _ _ => rfl) (fun _ _ _ => rfl) (fun _ _ => by simp) n k s
@[simp] theorem State.countPrivilege_parityLast (op : Nat) (x : Source) (s : State) : (s.countPrivilege op x).parityLast = s.parityLast :=
  countPrivilege_frame (fun s => s.parityLast) (fun _ _ => rfl) op x s
@[simp] theorem State.atParse_parityLast (op : Nat) (c : Cmd) (s : State) : (s.atParse op c).parityLast = s.parityLast := by simp [State.atParse]
@[simp] theorem State.takeVisible_readWord (n k : Nat) (s : State) : (s.takeVisible n k).readWord = s.readWord :=
  State.takeVisible_frame (fun s => s.readWord) (fun _ _ => rfl) (fun _ _ _ => rfl) (fun _ _ => by simp) n k s
@[simp] theorem State.countPrivilege_readWord (op : Nat) (x : Source) (s : State) : (s.countPrivilege op x).readWord = s.readWord :=
  countPrivilege_frame (fun s => s.readWord) (fun _ _ => rfl) op x s
@[simp] theorem State.atParse_readWord (op : Nat) (c : Cmd) (s : State) : (s.atParse op c).readWord = s.readWord := by simp [State.atParse]
@[simp] theorem State.takeVisible_spiReply (n k : Nat) (s : State) : (s.takeVisible n k).spiReply = s.spiReply :=
  State.takeVisible_frame (fun s => s.spiReply) (fun _ _ => rfl) (fun _ _ _ => rfl) (fun _ _ => by simp) n k s
@[simp] theorem State.countPrivilege_spiReply (op : Nat) (x : Source) (s : State) : (s.countPrivilege op x).spiReply = s.spiReply :=
  countPrivilege_frame (fun s => s.spiReply) (fun _ _ => rfl) op x s
@[simp] theorem State.atParse_spiReply (op : Nat) (c : Cmd) (s : State) : (s.atParse op c).spiReply = s.spiReply := by simp [State.atParse]
@[simp] theorem State.takeVisible_freeCtr (n k : Nat) (s : State) : (s.takeVisible n k).freeCtr = s.freeCtr :=
  State.takeVisible_frame (fun s => s.freeCtr) (fun _ _ => rfl) (fun _ _ _ => rfl) (fun _ _ => by simp) n k s
@[simp] theorem State.countPrivilege_freeCtr (op : Nat) (x : Source) (s : State) : (s.countPrivilege op x).freeCtr = s.freeCtr :=
  countPrivilege_frame (fun s => s.freeCtr) (fun _ _ => rfl) op x s
@[simp] theorem State.atParse_freeCtr (op : Nat) (c : Cmd) (s : State) : (s.atParse op c).freeCtr = s.freeCtr := by simp [State.atParse]
@[simp] theorem State.takeVisible_pending (n k : Nat) (s : State) : (s.takeVisible n k).pending = s.pending :=
  State.takeVisible_frame (fun s => s.pending) (fun _ _ => rfl) (fun _ _ _ => rfl) (fun _ _ => by simp) n k s
@[simp] theorem State.countPrivilege_pending (op : Nat) (x : Source) (s : State) : (s.countPrivilege op x).pending = s.pending :=
  countPrivilege_frame (fun s => s.pending) (fun _ _ => rfl) op x s
@[simp] theorem State.atParse_pending (op : Nat) (c : Cmd) (s : State) : (s.atParse op c).pending = s.pending := by simp [State.atParse]
@[simp] theorem State.eng_atParse (op : Nat) (c : Cmd) (j : Nat) (s : State) : (s.atParse op c).eng j = s.eng j := by
  simp [State.eng]
@[simp] theorem State.tile_atParse (op : Nat) (c : Cmd) (j : Nat) (s : State) : (s.atParse op c).tile j = s.tile j := by
  simp [State.tile]
@[simp] theorem State.fenced_atParse (op : Nat) (c : Cmd) (j : Nat) (s : State) : (s.atParse op c).fenced j = s.fenced j := by
  simp [State.fenced]
@[simp] theorem State.lane_atParse (op : Nat) (c : Cmd) (j : Nat) (s : State) : (s.atParse op c).lane j = s.lane j := by
  simp [State.lane]
@[simp] theorem State.htile_atParse (op : Nat) (c : Cmd) (j : Nat) (s : State) : (s.atParse op c).htile j = s.htile j := by
  simp [State.htile]
@[simp] theorem State.portOpt_atParse (op : Nat) (c : Cmd) (j : Nat) (s : State) : (s.atParse op c).port? j = s.port? j := by
  simp [State.port?]
@[simp] theorem State.pack_atParse (op : Nat) (c : Cmd) (j : Nat) (s : State) : (s.atParse op c).pack j = s.pack j := by
  simp [State.pack]
@[simp] theorem State.mc_atParse (op : Nat) (c : Cmd) (j : Nat) (s : State) : (s.atParse op c).mc j = s.mc j := by
  simp [State.mc]
@[simp] theorem State.dc_atParse (op : Nat) (c : Cmd) (j : Nat) (s : State) : (s.atParse op c).dc j = s.dc j := by
  simp [State.dc]
@[simp] theorem State.sysHeld_atParse (op : Nat) (c : Cmd)  (s : State) : (s.atParse op c).sysHeld = s.sysHeld := by
  simp [State.sysHeld]
@[simp] theorem State.tileTemp_atParse (op : Nat) (c : Cmd) (j : Nat) (s : State) : (s.atParse op c).tileTemp j = s.tileTemp j := by
  simp [State.tileTemp]
@[simp] theorem State.takeVisible_proto_resp (n k : Nat) (s : State) : (s.takeVisible n k).proto.resp = s.proto.resp := by
  simp only [State.takeVisible]; (repeat' split) <;> simp
@[simp] theorem State.countPrivilege_proto_resp (op : Nat) (x : Source) (s : State) : (s.countPrivilege op x).proto.resp = s.proto.resp :=
  countPrivilege_frame (fun s => s.proto.resp) (fun _ _ => rfl) op x s
@[simp] theorem State.atParse_proto_resp (op : Nat) (c : Cmd) (s : State) : (s.atParse op c).proto.resp = s.proto.resp := by simp [State.atParse]
@[simp] theorem State.takeVisible_proto_heldResp (n k : Nat) (s : State) : (s.takeVisible n k).proto.heldResp = s.proto.heldResp := by
  simp only [State.takeVisible]; (repeat' split) <;> simp
@[simp] theorem State.countPrivilege_proto_heldResp (op : Nat) (x : Source) (s : State) : (s.countPrivilege op x).proto.heldResp = s.proto.heldResp :=
  countPrivilege_frame (fun s => s.proto.heldResp) (fun _ _ => rfl) op x s
@[simp] theorem State.atParse_proto_heldResp (op : Nat) (c : Cmd) (s : State) : (s.atParse op c).proto.heldResp = s.proto.heldResp := by simp [State.atParse]
@[simp] theorem State.takeVisible_proto_internalResp (n k : Nat) (s : State) : (s.takeVisible n k).proto.internalResp = s.proto.internalResp := by
  simp only [State.takeVisible]; (repeat' split) <;> simp
@[simp] theorem State.countPrivilege_proto_internalResp (op : Nat) (x : Source) (s : State) : (s.countPrivilege op x).proto.internalResp = s.proto.internalResp :=
  countPrivilege_frame (fun s => s.proto.internalResp) (fun _ _ => rfl) op x s
@[simp] theorem State.atParse_proto_internalResp (op : Nat) (c : Cmd) (s : State) : (s.atParse op c).proto.internalResp = s.proto.internalResp := by simp [State.atParse]
@[simp] theorem State.takeVisible_proto_eventRing (n k : Nat) (s : State) : (s.takeVisible n k).proto.eventRing = s.proto.eventRing := by
  simp only [State.takeVisible]; (repeat' split) <;> simp
@[simp] theorem State.countPrivilege_proto_eventRing (op : Nat) (x : Source) (s : State) : (s.countPrivilege op x).proto.eventRing = s.proto.eventRing :=
  countPrivilege_frame (fun s => s.proto.eventRing) (fun _ _ => rfl) op x s
@[simp] theorem State.atParse_proto_eventRing (op : Nat) (c : Cmd) (s : State) : (s.atParse op c).proto.eventRing = s.proto.eventRing := by simp [State.atParse]
@[simp] theorem State.takeVisible_proto_eventQueue (n k : Nat) (s : State) : (s.takeVisible n k).proto.eventQueue = s.proto.eventQueue := by
  simp only [State.takeVisible]; (repeat' split) <;> simp
@[simp] theorem State.countPrivilege_proto_eventQueue (op : Nat) (x : Source) (s : State) : (s.countPrivilege op x).proto.eventQueue = s.proto.eventQueue :=
  countPrivilege_frame (fun s => s.proto.eventQueue) (fun _ _ => rfl) op x s
@[simp] theorem State.atParse_proto_eventQueue (op : Nat) (c : Cmd) (s : State) : (s.atParse op c).proto.eventQueue = s.proto.eventQueue := by simp [State.atParse]
@[simp] theorem State.takeVisible_proto_heldEvents (n k : Nat) (s : State) : (s.takeVisible n k).proto.heldEvents = s.proto.heldEvents := by
  simp only [State.takeVisible]; (repeat' split) <;> simp
@[simp] theorem State.countPrivilege_proto_heldEvents (op : Nat) (x : Source) (s : State) : (s.countPrivilege op x).proto.heldEvents = s.proto.heldEvents :=
  countPrivilege_frame (fun s => s.proto.heldEvents) (fun _ _ => rfl) op x s
@[simp] theorem State.atParse_proto_heldEvents (op : Nat) (c : Cmd) (s : State) : (s.atParse op c).proto.heldEvents = s.proto.heldEvents := by simp [State.atParse]
@[simp] theorem State.takeVisible_proto_spiRespRead (n k : Nat) (s : State) : (s.takeVisible n k).proto.spiRespRead = s.proto.spiRespRead := by
  simp only [State.takeVisible]; (repeat' split) <;> simp
@[simp] theorem State.countPrivilege_proto_spiRespRead (op : Nat) (x : Source) (s : State) : (s.countPrivilege op x).proto.spiRespRead = s.proto.spiRespRead :=
  countPrivilege_frame (fun s => s.proto.spiRespRead) (fun _ _ => rfl) op x s
@[simp] theorem State.atParse_proto_spiRespRead (op : Nat) (c : Cmd) (s : State) : (s.atParse op c).proto.spiRespRead = s.proto.spiRespRead := by simp [State.atParse]
@[simp] theorem State.takeVisible_proto_spiEventRead (n k : Nat) (s : State) : (s.takeVisible n k).proto.spiEventRead = s.proto.spiEventRead := by
  simp only [State.takeVisible]; (repeat' split) <;> simp
@[simp] theorem State.countPrivilege_proto_spiEventRead (op : Nat) (x : Source) (s : State) : (s.countPrivilege op x).proto.spiEventRead = s.proto.spiEventRead :=
  countPrivilege_frame (fun s => s.proto.spiEventRead) (fun _ _ => rfl) op x s
@[simp] theorem State.atParse_proto_spiEventRead (op : Nat) (c : Cmd) (s : State) : (s.atParse op c).proto.spiEventRead = s.proto.spiEventRead := by simp [State.atParse]
@[simp] theorem State.takeVisible_proto_spiOpen (n k : Nat) (s : State) : (s.takeVisible n k).proto.spiOpen = s.proto.spiOpen := by
  simp only [State.takeVisible]; (repeat' split) <;> simp
@[simp] theorem State.countPrivilege_proto_spiOpen (op : Nat) (x : Source) (s : State) : (s.countPrivilege op x).proto.spiOpen = s.proto.spiOpen :=
  countPrivilege_frame (fun s => s.proto.spiOpen) (fun _ _ => rfl) op x s
@[simp] theorem State.atParse_proto_spiOpen (op : Nat) (c : Cmd) (s : State) : (s.atParse op c).proto.spiOpen = s.proto.spiOpen := by simp [State.atParse]
@[simp] theorem State.takeVisible_proto_spiDrop (n k : Nat) (s : State) : (s.takeVisible n k).proto.spiDrop = s.proto.spiDrop := by
  simp only [State.takeVisible]; (repeat' split) <;> simp
@[simp] theorem State.countPrivilege_proto_spiDrop (op : Nat) (x : Source) (s : State) : (s.countPrivilege op x).proto.spiDrop = s.proto.spiDrop :=
  countPrivilege_frame (fun s => s.proto.spiDrop) (fun _ _ => rfl) op x s
@[simp] theorem State.atParse_proto_spiDrop (op : Nat) (c : Cmd) (s : State) : (s.atParse op c).proto.spiDrop = s.proto.spiDrop := by simp [State.atParse]
@[simp] theorem State.takeVisible_proto_spiDead (n k : Nat) (s : State) : (s.takeVisible n k).proto.spiDead = s.proto.spiDead := by
  simp only [State.takeVisible]; (repeat' split) <;> simp
@[simp] theorem State.countPrivilege_proto_spiDead (op : Nat) (x : Source) (s : State) : (s.countPrivilege op x).proto.spiDead = s.proto.spiDead :=
  countPrivilege_frame (fun s => s.proto.spiDead) (fun _ _ => rfl) op x s
@[simp] theorem State.atParse_proto_spiDead (op : Nat) (c : Cmd) (s : State) : (s.atParse op c).proto.spiDead = s.proto.spiDead := by simp [State.atParse]
@[simp] theorem State.takeVisible_proto_armed (n k : Nat) (s : State) : (s.takeVisible n k).proto.armed = s.proto.armed := by
  simp only [State.takeVisible]; (repeat' split) <;> simp
@[simp] theorem State.countPrivilege_proto_armed (op : Nat) (x : Source) (s : State) : (s.countPrivilege op x).proto.armed = s.proto.armed :=
  countPrivilege_frame (fun s => s.proto.armed) (fun _ _ => rfl) op x s
@[simp] theorem State.atParse_proto_armed (op : Nat) (c : Cmd) (s : State) : (s.atParse op c).proto.armed = s.proto.armed := by simp [State.atParse]
@[simp] theorem State.takeVisible_proto_jobs (n k : Nat) (s : State) : (s.takeVisible n k).proto.jobs = s.proto.jobs := by
  simp only [State.takeVisible]; (repeat' split) <;> simp
@[simp] theorem State.countPrivilege_proto_jobs (op : Nat) (x : Source) (s : State) : (s.countPrivilege op x).proto.jobs = s.proto.jobs :=
  countPrivilege_frame (fun s => s.proto.jobs) (fun _ _ => rfl) op x s
@[simp] theorem State.atParse_proto_jobs (op : Nat) (c : Cmd) (s : State) : (s.atParse op c).proto.jobs = s.proto.jobs := by simp [State.atParse]
@[simp] theorem State.takeVisible_proto_held (n k : Nat) (s : State) : (s.takeVisible n k).proto.held = s.proto.held := by
  simp only [State.takeVisible]; (repeat' split) <;> simp
@[simp] theorem State.countPrivilege_proto_held (op : Nat) (x : Source) (s : State) : (s.countPrivilege op x).proto.held = s.proto.held :=
  countPrivilege_frame (fun s => s.proto.held) (fun _ _ => rfl) op x s
@[simp] theorem State.atParse_proto_held (op : Nat) (c : Cmd) (s : State) : (s.atParse op c).proto.held = s.proto.held := by simp [State.atParse]
@[simp] theorem State.takeVisible_proto_mgmtResetArmed (n k : Nat) (s : State) : (s.takeVisible n k).proto.mgmtResetArmed = s.proto.mgmtResetArmed := by
  simp only [State.takeVisible]; (repeat' split) <;> simp
@[simp] theorem State.countPrivilege_proto_mgmtResetArmed (op : Nat) (x : Source) (s : State) : (s.countPrivilege op x).proto.mgmtResetArmed = s.proto.mgmtResetArmed :=
  countPrivilege_frame (fun s => s.proto.mgmtResetArmed) (fun _ _ => rfl) op x s
@[simp] theorem State.atParse_proto_mgmtResetArmed (op : Nat) (c : Cmd) (s : State) : (s.atParse op c).proto.mgmtResetArmed = s.proto.mgmtResetArmed := by simp [State.atParse]
@[simp] theorem State.takeVisible_proto_masked (n k : Nat) (s : State) : (s.takeVisible n k).proto.masked = s.proto.masked := by
  simp only [State.takeVisible]; (repeat' split) <;> simp
@[simp] theorem State.countPrivilege_proto_masked (op : Nat) (x : Source) (s : State) : (s.countPrivilege op x).proto.masked = s.proto.masked :=
  countPrivilege_frame (fun s => s.proto.masked) (fun _ _ => rfl) op x s
@[simp] theorem State.atParse_proto_masked (op : Nat) (c : Cmd) (s : State) : (s.atParse op c).proto.masked = s.proto.masked := by simp [State.atParse]
@[simp] theorem State.takeVisible_proto_owedFinals (n k : Nat) (s : State) : (s.takeVisible n k).proto.owedFinals = s.proto.owedFinals := by
  simp only [State.takeVisible]; (repeat' split) <;> simp
@[simp] theorem State.countPrivilege_proto_owedFinals (op : Nat) (x : Source) (s : State) : (s.countPrivilege op x).proto.owedFinals = s.proto.owedFinals :=
  countPrivilege_frame (fun s => s.proto.owedFinals) (fun _ _ => rfl) op x s
@[simp] theorem State.atParse_proto_owedFinals (op : Nat) (c : Cmd) (s : State) : (s.atParse op c).proto.owedFinals = s.proto.owedFinals := by simp [State.atParse]
@[simp] theorem State.takeVisible_dev_stage (n k : Nat) (s : State) : (s.takeVisible n k).dev.stage = s.dev.stage := by
  simp only [State.takeVisible]; (repeat' split) <;> simp
@[simp] theorem State.countPrivilege_dev_stage (op : Nat) (x : Source) (s : State) : (s.countPrivilege op x).dev.stage = s.dev.stage :=
  countPrivilege_frame (fun s => s.dev.stage) (fun _ _ => rfl) op x s
@[simp] theorem State.atParse_dev_stage (op : Nat) (c : Cmd) (s : State) : (s.atParse op c).dev.stage = s.dev.stage := by simp [State.atParse]
@[simp] theorem State.takeVisible_dev_fwSlot (n k : Nat) (s : State) : (s.takeVisible n k).dev.fwSlot = s.dev.fwSlot := by
  simp only [State.takeVisible]; (repeat' split) <;> simp
@[simp] theorem State.countPrivilege_dev_fwSlot (op : Nat) (x : Source) (s : State) : (s.countPrivilege op x).dev.fwSlot = s.dev.fwSlot :=
  countPrivilege_frame (fun s => s.dev.fwSlot) (fun _ _ => rfl) op x s
@[simp] theorem State.atParse_dev_fwSlot (op : Nat) (c : Cmd) (s : State) : (s.atParse op c).dev.fwSlot = s.dev.fwSlot := by simp [State.atParse]
@[simp] theorem State.takeVisible_dev_bootErr (n k : Nat) (s : State) : (s.takeVisible n k).dev.bootErr = s.dev.bootErr := by
  simp only [State.takeVisible]; (repeat' split) <;> simp
@[simp] theorem State.countPrivilege_dev_bootErr (op : Nat) (x : Source) (s : State) : (s.countPrivilege op x).dev.bootErr = s.dev.bootErr :=
  countPrivilege_frame (fun s => s.dev.bootErr) (fun _ _ => rfl) op x s
@[simp] theorem State.atParse_dev_bootErr (op : Nat) (c : Cmd) (s : State) : (s.atParse op c).dev.bootErr = s.dev.bootErr := by simp [State.atParse]
@[simp] theorem State.takeVisible_dev_alertMask (n k : Nat) (s : State) : (s.takeVisible n k).dev.alertMask = s.dev.alertMask := by
  simp only [State.takeVisible]; (repeat' split) <;> simp
@[simp] theorem State.countPrivilege_dev_alertMask (op : Nat) (x : Source) (s : State) : (s.countPrivilege op x).dev.alertMask = s.dev.alertMask :=
  countPrivilege_frame (fun s => s.dev.alertMask) (fun _ _ => rfl) op x s
@[simp] theorem State.atParse_dev_alertMask (op : Nat) (c : Cmd) (s : State) : (s.atParse op c).dev.alertMask = s.dev.alertMask := by simp [State.atParse]
@[simp] theorem State.takeVisible_dev_scratch (n k : Nat) (s : State) : (s.takeVisible n k).dev.scratch = s.dev.scratch := by
  simp only [State.takeVisible]; (repeat' split) <;> simp
@[simp] theorem State.countPrivilege_dev_scratch (op : Nat) (x : Source) (s : State) : (s.countPrivilege op x).dev.scratch = s.dev.scratch :=
  countPrivilege_frame (fun s => s.dev.scratch) (fun _ _ => rfl) op x s
@[simp] theorem State.atParse_dev_scratch (op : Nat) (c : Cmd) (s : State) : (s.atParse op c).dev.scratch = s.dev.scratch := by simp [State.atParse]
@[simp] theorem State.takeVisible_dev_bootImgAddrLo (n k : Nat) (s : State) : (s.takeVisible n k).dev.bootImgAddrLo = s.dev.bootImgAddrLo := by
  simp only [State.takeVisible]; (repeat' split) <;> simp
@[simp] theorem State.countPrivilege_dev_bootImgAddrLo (op : Nat) (x : Source) (s : State) : (s.countPrivilege op x).dev.bootImgAddrLo = s.dev.bootImgAddrLo :=
  countPrivilege_frame (fun s => s.dev.bootImgAddrLo) (fun _ _ => rfl) op x s
@[simp] theorem State.atParse_dev_bootImgAddrLo (op : Nat) (c : Cmd) (s : State) : (s.atParse op c).dev.bootImgAddrLo = s.dev.bootImgAddrLo := by simp [State.atParse]
@[simp] theorem State.takeVisible_dev_bootImgAddrHi (n k : Nat) (s : State) : (s.takeVisible n k).dev.bootImgAddrHi = s.dev.bootImgAddrHi := by
  simp only [State.takeVisible]; (repeat' split) <;> simp
@[simp] theorem State.countPrivilege_dev_bootImgAddrHi (op : Nat) (x : Source) (s : State) : (s.countPrivilege op x).dev.bootImgAddrHi = s.dev.bootImgAddrHi :=
  countPrivilege_frame (fun s => s.dev.bootImgAddrHi) (fun _ _ => rfl) op x s
@[simp] theorem State.atParse_dev_bootImgAddrHi (op : Nat) (c : Cmd) (s : State) : (s.atParse op c).dev.bootImgAddrHi = s.dev.bootImgAddrHi := by simp [State.atParse]
@[simp] theorem State.takeVisible_dev_bootImgLen (n k : Nat) (s : State) : (s.takeVisible n k).dev.bootImgLen = s.dev.bootImgLen := by
  simp only [State.takeVisible]; (repeat' split) <;> simp
@[simp] theorem State.countPrivilege_dev_bootImgLen (op : Nat) (x : Source) (s : State) : (s.countPrivilege op x).dev.bootImgLen = s.dev.bootImgLen :=
  countPrivilege_frame (fun s => s.dev.bootImgLen) (fun _ _ => rfl) op x s
@[simp] theorem State.atParse_dev_bootImgLen (op : Nat) (c : Cmd) (s : State) : (s.atParse op c).dev.bootImgLen = s.dev.bootImgLen := by simp [State.atParse]
@[simp] theorem State.takeVisible_dev_bootGo (n k : Nat) (s : State) : (s.takeVisible n k).dev.bootGo = s.dev.bootGo := by
  simp only [State.takeVisible]; (repeat' split) <;> simp
@[simp] theorem State.countPrivilege_dev_bootGo (op : Nat) (x : Source) (s : State) : (s.countPrivilege op x).dev.bootGo = s.dev.bootGo :=
  countPrivilege_frame (fun s => s.dev.bootGo) (fun _ _ => rfl) op x s
@[simp] theorem State.atParse_dev_bootGo (op : Nat) (c : Cmd) (s : State) : (s.atParse op c).dev.bootGo = s.dev.bootGo := by simp [State.atParse]
@[simp] theorem State.takeVisible_dev_bootSrc (n k : Nat) (s : State) : (s.takeVisible n k).dev.bootSrc = s.dev.bootSrc := by
  simp only [State.takeVisible]; (repeat' split) <;> simp
@[simp] theorem State.countPrivilege_dev_bootSrc (op : Nat) (x : Source) (s : State) : (s.countPrivilege op x).dev.bootSrc = s.dev.bootSrc :=
  countPrivilege_frame (fun s => s.dev.bootSrc) (fun _ _ => rfl) op x s
@[simp] theorem State.atParse_dev_bootSrc (op : Nat) (c : Cmd) (s : State) : (s.atParse op c).dev.bootSrc = s.dev.bootSrc := by simp [State.atParse]
@[simp] theorem State.takeVisible_dev_bootStage (n k : Nat) (s : State) : (s.takeVisible n k).dev.bootStage = s.dev.bootStage := by
  simp only [State.takeVisible]; (repeat' split) <;> simp
@[simp] theorem State.countPrivilege_dev_bootStage (op : Nat) (x : Source) (s : State) : (s.countPrivilege op x).dev.bootStage = s.dev.bootStage :=
  countPrivilege_frame (fun s => s.dev.bootStage) (fun _ _ => rfl) op x s
@[simp] theorem State.atParse_dev_bootStage (op : Nat) (c : Cmd) (s : State) : (s.atParse op c).dev.bootStage = s.dev.bootStage := by simp [State.atParse]
@[simp] theorem State.takeVisible_dev_alertAsserted (n k : Nat) (s : State) : (s.takeVisible n k).dev.alertAsserted = s.dev.alertAsserted := by
  simp only [State.takeVisible]; (repeat' split) <;> simp
@[simp] theorem State.countPrivilege_dev_alertAsserted (op : Nat) (x : Source) (s : State) : (s.countPrivilege op x).dev.alertAsserted = s.dev.alertAsserted :=
  countPrivilege_frame (fun s => s.dev.alertAsserted) (fun _ _ => rfl) op x s
@[simp] theorem State.atParse_dev_alertAsserted (op : Nat) (c : Cmd) (s : State) : (s.atParse op c).dev.alertAsserted = s.dev.alertAsserted := by simp [State.atParse]
@[simp] theorem State.takeVisible_dev_endpointUp (n k : Nat) (s : State) : (s.takeVisible n k).dev.endpointUp = s.dev.endpointUp := by
  simp only [State.takeVisible]; (repeat' split) <;> simp
@[simp] theorem State.countPrivilege_dev_endpointUp (op : Nat) (x : Source) (s : State) : (s.countPrivilege op x).dev.endpointUp = s.dev.endpointUp :=
  countPrivilege_frame (fun s => s.dev.endpointUp) (fun _ _ => rfl) op x s
@[simp] theorem State.atParse_dev_endpointUp (op : Nat) (c : Cmd) (s : State) : (s.atParse op c).dev.endpointUp = s.dev.endpointUp := by simp [State.atParse]
@[simp] theorem State.takeVisible_dev_linkUp (n k : Nat) (s : State) : (s.takeVisible n k).dev.linkUp = s.dev.linkUp := by
  simp only [State.takeVisible]; (repeat' split) <;> simp
@[simp] theorem State.countPrivilege_dev_linkUp (op : Nat) (x : Source) (s : State) : (s.countPrivilege op x).dev.linkUp = s.dev.linkUp :=
  countPrivilege_frame (fun s => s.dev.linkUp) (fun _ _ => rfl) op x s
@[simp] theorem State.atParse_dev_linkUp (op : Nat) (c : Cmd) (s : State) : (s.atParse op c).dev.linkUp = s.dev.linkUp := by simp [State.atParse]
@[simp] theorem State.takeVisible_dev_d3hot (n k : Nat) (s : State) : (s.takeVisible n k).dev.d3hot = s.dev.d3hot := by
  simp only [State.takeVisible]; (repeat' split) <;> simp
@[simp] theorem State.countPrivilege_dev_d3hot (op : Nat) (x : Source) (s : State) : (s.countPrivilege op x).dev.d3hot = s.dev.d3hot :=
  countPrivilege_frame (fun s => s.dev.d3hot) (fun _ _ => rfl) op x s
@[simp] theorem State.atParse_dev_d3hot (op : Nat) (c : Cmd) (s : State) : (s.atParse op c).dev.d3hot = s.dev.d3hot := by simp [State.atParse]
@[simp] theorem State.takeVisible_ctr_slots (n k : Nat) (s : State) : (s.takeVisible n k).ctr.slots = s.ctr.slots := by
  simp only [State.takeVisible]; (repeat' split) <;> simp
@[simp] theorem State.countPrivilege_ctr_slots (op : Nat) (x : Source) (s : State) : (s.countPrivilege op x).ctr.slots = s.ctr.slots := by
  unfold State.countPrivilege
  refine State.foldl_same (fun s => s.ctr.slots) _ (fun s a => ?_) _ _
  (repeat' split) <;> simp
@[simp] theorem State.atParse_ctr_slots (op : Nat) (c : Cmd) (s : State) : (s.atParse op c).ctr.slots = s.ctr.slots := by simp [State.atParse]
@[simp] theorem State.takeVisible_ctr_later (n k : Nat) (s : State) : (s.takeVisible n k).ctr.later = s.ctr.later := by
  simp only [State.takeVisible]; (repeat' split) <;> simp
@[simp] theorem State.countPrivilege_ctr_later (op : Nat) (x : Source) (s : State) : (s.countPrivilege op x).ctr.later = s.ctr.later := by
  unfold State.countPrivilege
  refine State.foldl_same (fun s => s.ctr.later) _ (fun s a => ?_) _ _
  (repeat' split) <;> simp
@[simp] theorem State.atParse_ctr_later (op : Nat) (c : Cmd) (s : State) : (s.atParse op c).ctr.later = s.ctr.later := by simp [State.atParse]
@[simp] theorem State.takeVisible_ctr_coming (n k : Nat) (s : State) : (s.takeVisible n k).ctr.coming = s.ctr.coming := by
  simp only [State.takeVisible]; (repeat' split) <;> simp
@[simp] theorem State.countPrivilege_ctr_coming (op : Nat) (x : Source) (s : State) : (s.countPrivilege op x).ctr.coming = s.ctr.coming := by
  unfold State.countPrivilege
  refine State.foldl_same (fun s => s.ctr.coming) _ (fun s a => ?_) _ _
  (repeat' split) <;> simp
@[simp] theorem State.atParse_ctr_coming (op : Nat) (c : Cmd) (s : State) : (s.atParse op c).ctr.coming = s.ctr.coming := by simp [State.atParse]
@[simp] theorem State.takeVisible_ctr_carries (n k : Nat) (s : State) : (s.takeVisible n k).ctr.carries = s.ctr.carries := by
  simp only [State.takeVisible]; (repeat' split) <;> simp
@[simp] theorem State.countPrivilege_ctr_carries (op : Nat) (x : Source) (s : State) : (s.countPrivilege op x).ctr.carries = s.ctr.carries := by
  unfold State.countPrivilege
  refine State.foldl_same (fun s => s.ctr.carries) _ (fun s a => ?_) _ _
  (repeat' split) <;> simp
@[simp] theorem State.atParse_ctr_carries (op : Nat) (c : Cmd) (s : State) : (s.atParse op c).ctr.carries = s.ctr.carries := by simp [State.atParse]
@[simp] theorem State.takeVisible_ctr_heads (n k : Nat) (s : State) : (s.takeVisible n k).ctr.heads = s.ctr.heads := by
  simp only [State.takeVisible]; (repeat' split) <;> simp
@[simp] theorem State.countPrivilege_ctr_heads (op : Nat) (x : Source) (s : State) : (s.countPrivilege op x).ctr.heads = s.ctr.heads := by
  unfold State.countPrivilege
  refine State.foldl_same (fun s => s.ctr.heads) _ (fun s a => ?_) _ _
  (repeat' split) <;> simp
@[simp] theorem State.atParse_ctr_heads (op : Nat) (c : Cmd) (s : State) : (s.atParse op c).ctr.heads = s.ctr.heads := by simp [State.atParse]
@[simp] theorem State.takeVisible_ctr_filters (n k : Nat) (s : State) : (s.takeVisible n k).ctr.filters = s.ctr.filters := by
  simp only [State.takeVisible]; (repeat' split) <;> simp
@[simp] theorem State.countPrivilege_ctr_filters (op : Nat) (x : Source) (s : State) : (s.countPrivilege op x).ctr.filters = s.ctr.filters := by
  unfold State.countPrivilege
  refine State.foldl_same (fun s => s.ctr.filters) _ (fun s a => ?_) _ _
  (repeat' split) <;> simp
@[simp] theorem State.atParse_ctr_filters (op : Nat) (c : Cmd) (s : State) : (s.atParse op c).ctr.filters = s.ctr.filters := by simp [State.atParse]
@[simp] theorem State.takeVisible_ctr_bw (n k : Nat) (s : State) : (s.takeVisible n k).ctr.bw = s.ctr.bw := by
  simp only [State.takeVisible]; (repeat' split) <;> simp
@[simp] theorem State.countPrivilege_ctr_bw (op : Nat) (x : Source) (s : State) : (s.countPrivilege op x).ctr.bw = s.ctr.bw := by
  unfold State.countPrivilege
  refine State.foldl_same (fun s => s.ctr.bw) _ (fun s a => ?_) _ _
  (repeat' split) <;> simp
@[simp] theorem State.atParse_ctr_bw (op : Nat) (c : Cmd) (s : State) : (s.atParse op c).ctr.bw = s.ctr.bw := by simp [State.atParse]
@[simp] theorem State.takeVisible_ctr_latchPcie (n k : Nat) (s : State) : (s.takeVisible n k).ctr.latchPcie = s.ctr.latchPcie := by
  simp only [State.takeVisible]; (repeat' split) <;> simp
@[simp] theorem State.countPrivilege_ctr_latchPcie (op : Nat) (x : Source) (s : State) : (s.countPrivilege op x).ctr.latchPcie = s.ctr.latchPcie := by
  unfold State.countPrivilege
  refine State.foldl_same (fun s => s.ctr.latchPcie) _ (fun s a => ?_) _ _
  (repeat' split) <;> simp
@[simp] theorem State.atParse_ctr_latchPcie (op : Nat) (c : Cmd) (s : State) : (s.atParse op c).ctr.latchPcie = s.ctr.latchPcie := by simp [State.atParse]
@[simp] theorem State.takeVisible_ctr_latchSpi (n k : Nat) (s : State) : (s.takeVisible n k).ctr.latchSpi = s.ctr.latchSpi := by
  simp only [State.takeVisible]; (repeat' split) <;> simp
@[simp] theorem State.countPrivilege_ctr_latchSpi (op : Nat) (x : Source) (s : State) : (s.countPrivilege op x).ctr.latchSpi = s.ctr.latchSpi := by
  unfold State.countPrivilege
  refine State.foldl_same (fun s => s.ctr.latchSpi) _ (fun s a => ?_) _ _
  (repeat' split) <;> simp
@[simp] theorem State.atParse_ctr_latchSpi (op : Nat) (c : Cmd) (s : State) : (s.atParse op c).ctr.latchSpi = s.ctr.latchSpi := by simp [State.atParse]
@[simp] theorem State.takeVisible_ctr_latchFw (n k : Nat) (s : State) : (s.takeVisible n k).ctr.latchFw = s.ctr.latchFw := by
  simp only [State.takeVisible]; (repeat' split) <;> simp
@[simp] theorem State.countPrivilege_ctr_latchFw (op : Nat) (x : Source) (s : State) : (s.countPrivilege op x).ctr.latchFw = s.ctr.latchFw := by
  unfold State.countPrivilege
  refine State.foldl_same (fun s => s.ctr.latchFw) _ (fun s a => ?_) _ _
  (repeat' split) <;> simp
@[simp] theorem State.atParse_ctr_latchFw (op : Nat) (c : Cmd) (s : State) : (s.atParse op c).ctr.latchFw = s.ctr.latchFw := by simp [State.atParse]
@[simp] theorem State.takeVisible_ctr_image (n k : Nat) (s : State) : (s.takeVisible n k).ctr.image = s.ctr.image := by
  simp only [State.takeVisible]; (repeat' split) <;> simp
@[simp] theorem State.countPrivilege_ctr_image (op : Nat) (x : Source) (s : State) : (s.countPrivilege op x).ctr.image = s.ctr.image := by
  unfold State.countPrivilege
  refine State.foldl_same (fun s => s.ctr.image) _ (fun s a => ?_) _ _
  (repeat' split) <;> simp
@[simp] theorem State.atParse_ctr_image (op : Nat) (c : Cmd) (s : State) : (s.atParse op c).ctr.image = s.ctr.image := by simp [State.atParse]
@[simp] theorem State.takeVisible_ctr_waiting (n k : Nat) (s : State) : (s.takeVisible n k).ctr.waiting = s.ctr.waiting := by
  simp only [State.takeVisible]; (repeat' split) <;> simp
@[simp] theorem State.countPrivilege_ctr_waiting (op : Nat) (x : Source) (s : State) : (s.countPrivilege op x).ctr.waiting = s.ctr.waiting := by
  unfold State.countPrivilege
  refine State.foldl_same (fun s => s.ctr.waiting) _ (fun s a => ?_) _ _
  (repeat' split) <;> simp
@[simp] theorem State.atParse_ctr_waiting (op : Nat) (c : Cmd) (s : State) : (s.atParse op c).ctr.waiting = s.ctr.waiting := by simp [State.atParse]
@[simp] theorem State.takeVisible_ctr_snapSeq (n k : Nat) (s : State) : (s.takeVisible n k).ctr.snapSeq = s.ctr.snapSeq := by
  simp only [State.takeVisible]; (repeat' split) <;> simp
@[simp] theorem State.countPrivilege_ctr_snapSeq (op : Nat) (x : Source) (s : State) : (s.countPrivilege op x).ctr.snapSeq = s.ctr.snapSeq := by
  unfold State.countPrivilege
  refine State.foldl_same (fun s => s.ctr.snapSeq) _ (fun s a => ?_) _ _
  (repeat' split) <;> simp
@[simp] theorem State.atParse_ctr_snapSeq (op : Nat) (c : Cmd) (s : State) : (s.atParse op c).ctr.snapSeq = s.ctr.snapSeq := by simp [State.atParse]
@[simp] theorem State.takeVisible_ctr_snapValid (n k : Nat) (s : State) : (s.takeVisible n k).ctr.snapValid = s.ctr.snapValid := by
  simp only [State.takeVisible]; (repeat' split) <;> simp
@[simp] theorem State.countPrivilege_ctr_snapValid (op : Nat) (x : Source) (s : State) : (s.countPrivilege op x).ctr.snapValid = s.ctr.snapValid := by
  unfold State.countPrivilege
  refine State.foldl_same (fun s => s.ctr.snapValid) _ (fun s a => ?_) _ _
  (repeat' split) <;> simp
@[simp] theorem State.atParse_ctr_snapValid (op : Nat) (c : Cmd) (s : State) : (s.atParse op c).ctr.snapValid = s.ctr.snapValid := by simp [State.atParse]

/-! ### Answers -/

theorem Source.port_lt (x : Source) (n : Nat) (h : x.port = some n) : n < 5 := by
  cases x with
  | ring k => simp only [Source.port, Option.some.injEq] at h; omega
  | spi => simp only [Source.port, Option.some.injEq] at h; omega
  | firmware => simp [Source.port] at h
  | shepherd => simp [Source.port] at h
/-- A response that is not suppressed is posted. -/
theorem respond_posted (t : Ticket) (c : Cmd) (fin : Bool) (st : Status) (d n : Nat) (ws : List Word) (s : State)
    (hsrc : t.src = c.src) (hdead : t.dead = false) (hno : (t.noResponse && st == .ok) = false) :
    Posted c { opcode := t.opcode, tag := t.tag, issuer := t.issuer, status := st.code, final := fin, detail := d, tn := n, words := ws }
      (s.respond t fin st d n ws) := by
  simp only [State.respond, hdead, hno, Bool.or_self, Bool.false_eq_true, ↓reduceIte]
  split
  · simp only [Posted, PostedAt, State.postResp, hsrc]
    cases hp : c.src.port with
    | none => simp
    | some k =>
      have hk := Source.port_lt _ _ hp
      simp only
      split
      · left
        simp only [State.commitResp]
        split <;> simp [hk]
      · right; left
        simp [hk]
  · simp only [Posted, PostedAt]
    cases hp : c.src.port with
    | none => right; simp [hsrc]
    | some k => right; right; simp [hsrc]
theorem answered_respond (op : Nat) (c : Cmd) (fin : Bool) (st : Status) (d n : Nat) (ws : List Word) (k : Nat) (s : State) :
    Answered op c fin st d n ws (s.respond (ticketOf op c k) fin st d n ws) := by
  cases h : (c.noResponse && st == .ok) with
  | true => left; simpa using h
  | false => right; exact respond_posted (ticketOf op c k) c fin st d n ws s rfl rfl h
theorem answered_final (op : Nat) (c : Cmd) (st : Status) (d : Nat) (ws : List Word) (k : Nat) (s : State) :
    Answered op c true st d s.tn ws (s.final (ticketOf op c k) st d ws) := answered_respond op c true st d s.tn ws k s
/-- The FINAL OK of a command that changes nothing but its state before. -/
theorem answeredOk_final (op : Nat) (c : Cmd) (ws : List Word) (s t : State) (h : t.tn = s.tn) :
    AnsweredOk op c ws s (t.final (ticketNow op c s) .ok 0 ws) := by
  have := answered_final op c .ok 0 ws s.proto.nextSeq t
  rw [h] at this; exact this

end Sys2Proof.Machine
end

