-- ==== Sys2Proof/Laws/Commands.lean ====
section
/-! SUPPORT. What each kind of accepted command does, said once: at once, armed, at its boundary, over time. -/
namespace Sys2Proof.Machine

/-! ### What acceptance says of the operands -/

/-- The target word of an accepted command is one its opcode takes (R421). -/
theorem ready_target (sp : OpSpec) (c : Cmd) (s : State) (h : Ready sp c s = true) :
    sp.target (s.atParse sp.code c) (cKind c) (cIdx c) (cSub c) = true := by
  simp only [Ready, Bool.and_eq_true, Option.isNone_iff_eq_none] at h
  have ho := h.1.2
  simp only [ownRefusal, rangeRefusal] at ho
  cases ht : sp.target (s.atParse sp.code c) (cKind c) (cIdx c) (cSub c) with
  | true => rfl
  | false => simp [ht] at ho
/-- Every value of an accepted command is in its range (R422). -/
theorem ready_ranges (sp : OpSpec) (c : Cmd) (s : State) (h : Ready sp c s = true) :
    ∀ r ∈ sp.ranges, r.2 (s.atParse sp.code c) c = true := by
  have ht := ready_target sp c s h
  simp only [Ready, Bool.and_eq_true, Option.isNone_iff_eq_none] at h
  have ho := h.1.2
  intro r hr
  simp only [ownRefusal, rangeRefusal, ht, Bool.not_true, Bool.false_eq_true, if_false] at ho
  cases hf : sp.ranges.find? (fun r => !r.2 (s.atParse sp.code c) c) with
  | some x => simp [hf] at ho
  | none =>
    rw [List.find?_eq_none] at hf
    simpa using hf r hr
/-- An accepted command of a line tile's resources finds the tile not fenced (R425). -/
theorem ready_fence (sp : OpSpec) (c : Cmd) (s : State) (k : Nat) (h : Ready sp c s = true) (hk : sp.fence c = some k) :
    (s.tile k).fenced = false := by
  simp only [Ready, Bool.and_eq_true, Option.isNone_iff_eq_none] at h
  have ho := h.1.2
  simp only [ownRefusal] at ho
  split at ho
  · simp at ho
  · split at ho
    · simp at ho
    · rename_i hf
      simp only [fenceRefusal, hk] at hf
      cases hx : (s.tile k).fenced with
      | false => rfl
      | true => simp [hx] at hf
/-- An accepted command finds none of its opcode's own refusals. -/
theorem ready_refuse (sp : OpSpec) (c : Cmd) (s : State) (h : Ready sp c s = true) : sp.refuse (s.atParse sp.code c) c = none := by
  simp only [Ready, Bool.and_eq_true, Option.isNone_iff_eq_none] at h
  have ho := h.1.2
  simp only [ownRefusal] at ho
  split at ho
  · simp at ho
  · split at ho
    · simp at ho
    · exact ho
theorem ready_kind (sp : OpSpec) (c : Cmd) (s : State) (kd n : Nat) (h : Ready sp c s = true) (ht : sp.target = tgtKind kd n) :
    cIdx c < n := by
  have := ready_target sp c s h
  simp only [ht, tgtKind, Bool.and_eq_true, decide_eq_true_eq] at this
  exact this.1.2
/-- The index of an accepted engine command is an engine's. -/
theorem ready_engine (sp : OpSpec) (c : Cmd) (s : State) (h : Ready sp c s = true) (ht : sp.target = tgtEngine) : cIdx c < 48 :=
  ready_kind sp c s 1 48 h ht

/-! ### Commands that act at once -/

theorem does_now (sp : OpSpec) (f : Cmd → State → State × List Word) (parts : List Part) (P : State → Prop) (c : Cmd) (s : State)
    (ws : List Word) (h : Ready sp c s = true) (he : sp.eff = .now f) (ha : sp.onAccept = fun _ s => s)
    (hw : (f c (s.atParse sp.code c)).2 = ws) (ht : (f c (s.atParse sp.code c)).1.tn = s.tn)
    (hP : P ((f c (s.atParse sp.code c)).1.final (ticketNow sp.code c s) .ok 0 ws))
    (ho : Only (parts ++ answerParts) s ((f c (s.atParse sp.code c)).1.final (ticketNow sp.code c s) .ok 0 ws)) :
    Does sp.code c ws parts P s (runOp sp c s) := by
  refine ⟨_, ?_, hP, ?_, ho⟩
  · rw [runOp_ready _ _ _ h]; simp only [carryOut, he, ha, hw]
  · exact answeredOk_final _ _ _ _ _ ht

/-! ### Commands that arm a change -/

theorem arm_armed (a : Armed) (s : State) : (s.arm a).proto.armed = s.proto.armed.filter (fun b => !(b.key == a.key)) ++ [a] := by
  simp only [State.arm, State.modProto_proto, State.cancelArmed]
  congr 1
  refine (State.foldl_same (fun s => s.proto.armed) _ (fun s a => ?_) _ _).trans ?_
  · split <;> simp
  · simp
theorem only_cons (p : Part) (l : List Part) (s t : State) (h : Only l s t) : Only (p :: l) s t :=
  fun q hq => h q (fun hm => hq (List.mem_cons_of_mem _ hm))
theorem arms_boundary (sp : OpSpec) (cls : Nat) (f : Cmd → State → State) (c : Cmd) (s : State) (h : Ready sp c s = true)
    (he : sp.eff = .boundary cls f) (ha : sp.onAccept = fun _ s => s) : Arms cls sp.code c s (runOp sp c s) := by
  have hr := runOp_ready _ _ _ h
  cases ht : c.tn with
  | none =>
    refine ⟨_, hr, ?_⟩
    simp only [carryOut, he, ha, ht, Option.getD_none, Option.isNone_none]
    refine ⟨⟨_, by rw [State.final_proto_armed, arm_armed]; exact List.mem_append_right _ (List.mem_singleton.2 rfl), by simp⟩, ?_, ?_, ?_, ?_⟩
    · intro a hm hk
      rw [State.final_proto_armed, arm_armed, List.mem_append, List.mem_filter] at hm
      rcases hm with ⟨-, hm⟩ | hm
      · simp [hk] at hm
      · rw [List.mem_singleton.1 hm]
    · intro a hm hk
      rw [State.final_proto_armed, arm_armed, List.mem_append, List.mem_filter]
      left; exact ⟨by simpa using hm, by simp [hk]⟩
    · have := answered_final sp.code c .ok 0 [] s.proto.nextSeq
        ((s.atParse sp.code c).arm { due := (s.atParse sp.code c).tn + 1, key := keyOf cls c, opcode := sp.code, cmd := c, ticket := none })
      simpa [ticketNow] using this
    · intro p hp; cases p <;> simp [answerParts, Part.same] at hp ⊢
  | some due =>
    refine ⟨_, hr, ?_⟩
    simp only [carryOut, he, ha, ht, Option.getD_some, Option.isNone_some]
    refine ⟨⟨_, by rw [State.respond_proto_armed, arm_armed]; exact List.mem_append_right _ (List.mem_singleton.2 rfl), by simp⟩, ?_, ?_, ?_, ?_⟩
    · intro a hm hk
      rw [State.respond_proto_armed, arm_armed, List.mem_append, List.mem_filter] at hm
      rcases hm with ⟨-, hm⟩ | hm
      · simp [hk] at hm
      · rw [List.mem_singleton.1 hm]
    · intro a hm hk
      rw [State.respond_proto_armed, arm_armed, List.mem_append, List.mem_filter]
      left; exact ⟨by simpa using hm, by simp [hk]⟩
    · have := answered_respond sp.code c false .ok 0 s.tn [] s.proto.nextSeq
        ((s.atParse sp.code c).arm { due := due, key := keyOf cls c, opcode := sp.code, cmd := c, ticket := some (ticketNow sp.code c s) })
      simpa [ticketNow] using this
    · intro p hp; cases p <;> simp [answerParts, Part.same] at hp ⊢

/-! ### Changes at their boundary -/

/-- With one change pending and due, the boundary carries out that change and answers a command that still waits for it. -/
theorem applyDue_single (a : Armed) (s : State) (h : s.proto.armed = [a]) (hd : a.due ≤ s.tn) :
    s.applyDue = (match a.ticket with
      | some t => (boundaryEffect a.opcode a.cmd (s.modProto (fun p => { p with armed := [] }))).final t .ok 0 []
      | none => boundaryEffect a.opcode a.cmd (s.modProto (fun p => { p with armed := [] }))) := by
  have hf : s.proto.armed.filter (fun a => decide (a.due ≤ s.tn)) = [a] := by rw [h]; simp [hd]
  have he : s.modProto (fun p => { p with armed := p.armed.filter (fun b => b != a) }) = s.modProto (fun p => { p with armed := [] }) := by
    simp [State.modProto, h]
  have hc : a ∈ s.proto.armed := by simp [h]
  simp only [State.applyDue, hf]
  by_cases h1 : a.opcode = 2052
  · simp [h1, State.applyArmed, hc, he] <;> cases a.ticket <;> rfl
  · by_cases h2 : a.opcode = 2562
    · simp [h2, State.applyArmed, hc, he] <;> cases a.ticket <;> rfl
    · simp [h1, h2, State.applyArmed, hc, he] <;> cases a.ticket <;> rfl
theorem takesEffect_of (op : Nat) (c : Cmd) (f : Cmd → State → State) (parts : List Part) (P : State → Prop) (s : State)
    (hf : boundaryEffect op = f)
    (hP : P (f c (s.modProto (fun p => { p with armed := [] }))))
    (hPf : ∀ t st d ws u, P u → P (u.final t st d ws))
    (ha : (f c (s.modProto (fun p => { p with armed := [] }))).proto.armed = [])
    (ho : Only (parts ++ [.armed, .queueRegs, .responses, .msix, .alertN]) s (f c (s.modProto (fun p => { p with armed := [] }))))
    (hof : ∀ t st d ws u, Only (parts ++ [.armed, .queueRegs, .responses, .msix, .alertN]) s u →
      Only (parts ++ [.armed, .queueRegs, .responses, .msix, .alertN]) s (u.final t st d ws)) :
    TakesEffect op c parts P s := by
  intro a h1 h2 h3 h4
  subst h3 h4
  refine ⟨_, rfl, ?_⟩
  rw [applyDue_single a s h1 h2, hf]
  cases a.ticket with
  | none => exact ⟨hP, ha, ho⟩
  | some t => exact ⟨hPf _ _ _ _ _ hP, by simpa using ha, hof _ _ _ _ _ ho⟩
/-- Answering keeps a frame that lets the queues, responses and interrupts differ. -/
theorem only_final (l : List Part) (s u : State) (t : Ticket) (st : Status) (d : Nat) (ws : List Word) (h : Only l s u)
    (hq : Part.queueRegs ∈ l) (hr : Part.responses ∈ l) (hm : Part.msix ∈ l) (hn : Part.alertN ∈ l) : Only l s (u.final t st d ws) := by
  intro p hp
  have := h p hp
  cases p <;> simp_all [Part.same]

/-! ### Commands that run over time -/

theorem answered_same (op : Nat) (c : Cmd) (fin : Bool) (st : Status) (d tn : Nat) (ws : List Word) (u t : State)
    (h : Part.same u t .responses) (ha : Answered op c fin st d tn ws u) : Answered op c fin st d tn ws t := by
  simp only [Part.same] at h
  simp only [Answered, Posted, PostedAt, h.1, h.2.1, h.2.2.1, h.2.2.2] at ha ⊢
  exact ha
theorem begins_long (sp : OpSpec) (f : Job → Cmd → State → State) (parts : List Part) (P : State → Prop) (c : Cmd) (s : State)
    (h : Ready sp c s = true) (he : sp.eff = .long f) (ha : sp.onAccept = fun _ s => s)
    (hf : ∀ j u, j.cmd = c → j.ticket.opcode = sp.code → Only answerParts s u → Answered sp.code c false .ok 0 s.tn [] u →
      P (f j c u) ∧ Running sp.code c (f j c u) ∧ (c.src.isHost = true → Answered sp.code c false .ok 0 s.tn [] (f j c u))
        ∧ Only (.jobs :: (parts ++ answerParts)) s (f j c u)) :
    Begins sp.code c parts P s (runOp sp c s) := by
  have hr := runOp_ready _ _ _ h
  refine ⟨_, hr, ?_⟩
  simp only [carryOut, he, ha]
  refine hf _ _ rfl rfl ?_ ?_
  · intro p hp; cases p <;> simp [answerParts, Part.same] at hp ⊢
  · have := answered_respond sp.code c false .ok 0 s.tn [] s.proto.nextSeq (s.atParse sp.code c)
    simpa [ticketNow] using this
theorem Part.same_trans (p : Part) (s u t : State) (h : p.same s u) (h' : p.same u t) : p.same s t := by
  cases p <;> simp only [Part.same] at h h' ⊢ <;> first | exact h'.trans h | (intro k; rw [h' k, h k]) | simp_all
theorem only_trans (l m : List Part) (s u t : State) (h : Only l s u) (h' : Only m u t) (hl : ∀ p ∈ l, p ∈ m) : Only m s t :=
  fun p hp => Part.same_trans p s u t (h p (fun hm => hp (hl p hm))) (h' p hp)
theorem cmdChan_lt (c : Cmd) : cmdChan c < 16 := by unfold cmdChan field; omega
theorem dma_begun (op : Nat) (c : Cmd) (j : Job) (s u v : State) (out : Option (List Octet)) (hc : j.cmd = c)
    (ht : j.ticket.opcode = op) (hu : Only answerParts s u) (hA : Answered op c false .ok 0 s.tn [] u)
    (hv : v = { (u.modProto (fun p => { p with jobs := p.jobs ++ [{ j with chan := some (cmdChan c) }] })) with
      dma := vmod u.dma (cmdChan c) (fun d => { d.started with out := out.getD [] }) }) :
    ChannelIs (cmdChan c) (fun d => { d.started with out := out.getD [] }) s v ∧ Running op c v
      ∧ (c.src.isHost = true → Answered op c false .ok 0 s.tn [] v) ∧ Only (.jobs :: ([.dma] ++ answerParts)) s v := by
  have hd : u.dma = s.dma := hu .dma (by simp [answerParts])
  have hlt := cmdChan_lt c
  subst hv
  refine ⟨⟨?_, ?_⟩, ⟨_, List.mem_append_right _ (List.mem_singleton.2 rfl), hc, ht⟩, ?_, ?_⟩
  · simp [State.dc, hd, vget, vmod, hlt]
  · intro q hq; simp [State.dc, hd, vget, vmod, hlt, hq.symm]
  · exact fun _ => answered_same _ _ _ _ _ _ _ u _ (by simp [Part.same]) hA
  · refine only_trans answerParts _ s u _ hu ?_ (by intro p hp; simp [hp])
    intro p hp; cases p <;> simp [answerParts, Part.same, State.tile] at hp ⊢
theorem beginsDma_load (sp : OpSpec) (c : Cmd) (s : State) (h : Ready sp c s = true) (ha : sp.onAccept = fun _ s => s)
    (he : sp.eff = .long dmaEffect) : BeginsDma sp.code c none s (runOp sp c s) := by
  refine begins_long _ _ _ _ _ _ h he ha ?_
  intro j u hc ht hu hA
  refine dma_begun _ _ j s u _ none hc ht hu hA ?_
  simp [dmaEffect, State.startChannel, State.modDc, DmaChannel.started]
theorem beginsDma_send (sp : OpSpec) (f : Cmd → State → List Octet) (out : List Octet) (c : Cmd) (s : State)
    (h : Ready sp c s = true) (ha : sp.onAccept = fun _ s => s) (he : sp.eff = .long (dmaSend f))
    (ho : ∀ u, Only answerParts s u → f c u = out) : BeginsDma sp.code c (some out) s (runOp sp c s) := by
  refine begins_long _ _ _ _ _ _ h he ha ?_
  intro j u hc ht hu hA
  refine dma_begun _ _ j s u _ (some out) hc ht hu hA ?_
  have hlt := cmdChan_lt c
  simp [dmaSend, dmaEffect, State.startChannel, State.modDc, DmaChannel.started, ho u hu, vmod, hlt]
end Sys2Proof.Machine
end

