-- ==== Sys2Proof/Laws/Events.lean ====
section
/-! SUPPORT. What raising an event does, said once: it is raised, only the parts of an event differ, and an event raised before stays. -/
namespace Sys2Proof.Machine

/-- Entering an item by priority adds that item and nothing else. -/
theorem mem_insertEvent (e x : EventItem) (l : List EventItem) : x ∈ insertEvent e l ↔ x = e ∨ x ∈ l := by
  induction l with
  | nil => simp [insertEvent]
  | cons y r ih =>
    simp only [insertEvent]
    split
    · simp only [List.mem_cons, ih]; tauto
    · simp only [List.mem_cons]
/-- Entering an item, with the head kept where it is being read, adds that item and nothing else. -/
theorem mem_enterEvent (b : Bool) (e x : EventItem) (l : List EventItem) : x ∈ enterEvent b e l ↔ x = e ∨ x ∈ l := by
  cases b <;> cases l <;> simp only [enterEvent, mem_insertEvent, List.mem_cons] <;> tauto

/-- What stands in the event queue or is held after an item is posted, given that the queue takes items: the new one stands there, or its
source holds one; items that stood there stay; sources that held one hold one. -/
theorem postEvent_items (e : EventItem) (s : State) (h : s.proto.mgmtResetArmed = none) :
    (e ∈ (s.postEvent e).proto.eventQueue ∨ ∃ x ∈ (s.postEvent e).proto.heldEvents, sameSource e x = true)
    ∧ (∀ x ∈ s.proto.eventQueue, x ∈ (s.postEvent e).proto.eventQueue)
    ∧ (∀ x ∈ s.proto.heldEvents, ∃ y ∈ (s.postEvent e).proto.heldEvents, y.code = x.code ∧ y.kind = x.kind ∧ y.index = x.index) := by
  unfold State.postEvent
  simp only [h, Option.isSome_none, Bool.false_eq_true, if_false]
  by_cases hs : s.proto.heldEvents.any (sameSource e) = true
  · simp only [hs, if_true, State.modProto]
    obtain ⟨x, hx, hxs⟩ := List.any_eq_true.mp hs
    have hmap : ∀ y ∈ s.proto.heldEvents, ∃ z ∈ s.proto.heldEvents.map (fun x =>
        if sameSource e x = true then { x with coalesced := min 255 (x.coalesced + 1) } else x),
        z.code = y.code ∧ z.kind = y.kind ∧ z.index = y.index := by
      intro y hy
      exact ⟨_, List.mem_map_of_mem hy, by split <;> simp, by split <;> simp, by split <;> simp⟩
    refine ⟨.inr ?_, fun _ hx => hx, hmap⟩
    obtain ⟨z, hz, h1, h2, h3⟩ := hmap x hx
    exact ⟨z, hz, by simpa [sameSource, h1, h2, h3] using hxs⟩
  · simp only [hs, if_false, Bool.false_eq_true]
    split
    · refine ⟨.inl ?_, ?_, ?_⟩
      · simp [State.modProto, mem_enterEvent]
      · intro x hx; simp [State.modProto, mem_enterEvent, hx]
      · intro x hx; exact ⟨x, by simpa [State.modProto] using hx, rfl, rfl, rfl⟩
    · refine ⟨.inr ⟨e, by simp [State.modProto], by simp [sameSource]⟩, ?_, ?_⟩
      · intro x hx; simpa [State.modProto] using hx
      · intro x hx; exact ⟨x, by simp [State.modProto, hx], rfl, rfl, rfl⟩

/-- What raising does, in two steps: it is counted and noticed, then it is posted unless masked. -/
theorem raiseAt_eq (ev : Ev) (k : Kind) (i : Nat) (ws : List Word) (tn : Nat) (s u : State)
    (hu : u = if k = .engine then (s.happen (ctrSlot k i 0 ev.code) 1).captureNotice 1 ev.code i
      else s.happen (ctrSlot k i 0 ev.code) 1) :
    s.raiseAt ev k i ws tn = if u.proto.masked.contains ev.code = true then u
      else u.postEvent { code := ev.code, prio := ev.prio, coalesced := 0, kind := kindCode k, index := i, tn := tn, words := ws } := by
  rw [hu]; rfl
/-- Raising an event leaves what is owed to each tile's capture unit. -/
theorem raise_untriggered (ev : Ev) (k : Kind) (i : Nat) (ws : List Word) (s : State) (n : Nat) :
    ((s.raise ev k i ws).tile n).untriggered = (s.tile n).untriggered := by
  have hc : ∀ (t : State) a b c, ((t.captureNotice a b c).tile n).untriggered = (t.tile n).untriggered := by
    intro t a b c
    simp only [State.captureNotice, State.modTile, State.tile, vget, vmod]
    split
    · split
      · simp only [Vector.getElem_set]
        split
        · split <;> simp_all [Tile.untriggered]
        · rfl
      · rfl
    · rfl
  rw [State.raise, raiseAt_eq _ _ _ _ _ _ _ rfl]
  split <;> split <;> simp [hc]
/-- Raising an event touches only the parts of an event. -/
theorem only_raise (ev : Ev) (k : Kind) (i : Nat) (ws : List Word) (s : State) : Only eventParts s (s.raise ev k i ws) := by
  intro p hp
  cases p <;> simp [eventParts, Part.same, raise_untriggered] at hp ⊢
/-- What stands before the masks are asked: the counter advances, a capture armed for the event starts. -/
theorem noticed (ev : Ev) (k : Kind) (i : Nat) (s : State) :
    (if k = .engine then (s.happen (ctrSlot k i 0 ev.code) 1).captureNotice 1 ev.code i
      else s.happen (ctrSlot k i 0 ev.code) 1).proto = s.proto
    ∧ (if k = .engine then (s.happen (ctrSlot k i 0 ev.code) 1).captureNotice 1 ev.code i
      else s.happen (ctrSlot k i 0 ev.code) 1).ctr.happened = (ctrSlot k i 0 ev.code, 1) :: s.ctr.happened := by
  split <;> simp [State.happen, State.modCtr, State.captureNotice, State.modTile]
/-- Posting an item leaves the counts and the masks. -/
theorem postEvent_counts (e : EventItem) (s : State) : (s.postEvent e).ctr.happened = s.ctr.happened
    ∧ (s.postEvent e).proto.masked = s.proto.masked ∧ (s.postEvent e).proto.mgmtResetArmed = s.proto.mgmtResetArmed := by
  refine ⟨by simp, by simp, by simp⟩
/-- An event that is raised is raised: counted, and posted or held unless masked or the MGMT domain has the queue. -/
theorem raised_raiseAt (ev : Ev) (k : Kind) (i : Nat) (ws : List Word) (tn : Nat) (s : State) :
    Raised ev k i ws tn (s.raiseAt ev k i ws tn) := by
  obtain ⟨hp, hc⟩ := noticed ev k i s
  generalize hu : (if k = .engine then (s.happen (ctrSlot k i 0 ev.code) 1).captureNotice 1 ev.code i
      else s.happen (ctrSlot k i 0 ev.code) 1) = u at hp hc
  rw [raiseAt_eq _ _ _ _ _ _ u hu.symm]
  by_cases hm : u.proto.masked.contains ev.code = true
  · simp only [hm, if_true]
    exact ⟨by simp [hc], .inl (by simpa using hm)⟩
  · simp only [hm, if_false, Bool.false_eq_true]
    generalize hi : ({ code := ev.code, prio := ev.prio, coalesced := 0, kind := kindCode k, index := i, tn := tn, words := ws }
      : EventItem) = it
    obtain ⟨h1, h2, h3⟩ := postEvent_counts it u
    refine ⟨by rw [h1, hc]; simp, ?_⟩
    by_cases hr : u.proto.mgmtResetArmed = none
    · refine .inr (.inr ?_)
      rcases (postEvent_items it u hr).1 with h | ⟨x, hx, hs⟩
      · exact .inl ⟨it, h, by simp [← hi]⟩
      · refine .inr ⟨x, hx, ?_⟩
        simp only [sameSource, Bool.and_eq_true, beq_iff_eq, ← hi] at hs
        exact ⟨hs.1.1.symm, hs.1.2.symm, hs.2.symm⟩
    · exact .inr (.inl (by rw [h3]; exact hr))
/-- The same in the present tick. -/
theorem raised_raise (ev : Ev) (k : Kind) (i : Nat) (ws : List Word) (s : State) : Raised ev k i ws s.tn (s.raise ev k i ws) :=
  raised_raiseAt ev k i ws s.tn s
/-- An event raised before stays raised when another is. -/
theorem raised_raise_of (ev ev' : Ev) (k k' : Kind) (i i' : Nat) (ws ws' : List Word) (tn tn' : Nat) (s : State)
    (h : Raised ev k i ws tn s) : Raised ev k i ws tn (s.raiseAt ev' k' i' ws' tn') := by
  obtain ⟨hp, hc⟩ := noticed ev' k' i' s
  obtain ⟨h0, h⟩ := h
  generalize hu : (if k' = .engine then (s.happen (ctrSlot k' i' 0 ev'.code) 1).captureNotice 1 ev'.code i'
      else s.happen (ctrSlot k' i' 0 ev'.code) 1) = u at hp hc
  rw [raiseAt_eq _ _ _ _ _ _ u hu.symm]
  split
  · exact ⟨by simp [hc, h0], by simpa [hp] using h⟩
  · obtain ⟨h1, h2, h3⟩ := postEvent_counts { code := ev'.code, prio := ev'.prio, coalesced := 0, kind := kindCode k', index := i'
                                              tn := tn', words := ws' } u
    refine ⟨by rw [h1, hc]; simp [h0], ?_⟩
    rw [h2, h3, hp]
    by_cases hr : s.proto.mgmtResetArmed = none
    · have hi := postEvent_items { code := ev'.code, prio := ev'.prio, coalesced := 0, kind := kindCode k', index := i'
                                   tn := tn', words := ws' } u (by rw [hp]; exact hr)
      rcases h with h | h | ⟨x, hx, hxs⟩ | ⟨x, hx, hxs⟩
      · exact .inl h
      · exact .inr (.inl h)
      · exact .inr (.inr (.inl ⟨x, hi.2.1 x (by rw [hp]; exact hx), hxs⟩))
      · obtain ⟨y, hy, e1, e2, e3⟩ := hi.2.2 x (by rw [hp]; exact hx)
        exact .inr (.inr (.inr ⟨y, hy, by rw [e1, e2, e3]; exact hxs⟩))
    · exact .inr (.inl hr)
/-- An event stays raised in every state that keeps what an event leaves. -/
theorem raised_same (ev : Ev) (k : Kind) (i : Nat) (ws : List Word) (tn : Nat) (s t : State) (h : Raised ev k i ws tn s)
    (hc : t.ctr.happened = s.ctr.happened) (hm : t.proto.masked = s.proto.masked)
    (hr : t.proto.mgmtResetArmed = s.proto.mgmtResetArmed) (hq : t.proto.eventQueue = s.proto.eventQueue)
    (hh : t.proto.heldEvents = s.proto.heldEvents) : Raised ev k i ws tn t := by
  unfold Raised at h ⊢
  rw [hc, hm, hr, hq, hh]; exact h
/-- Counting happenings records them and touches nothing else. -/
theorem counted_count (x : Ctr) (k : Kind) (i n : Nat) (s : State) (hn : n ≠ 0) :
    Counted x k i n (s.count x k i n) ∧ Only [.happened] s (s.count x k i n) := by
  refine ⟨by simp [Counted, State.count, State.happen, hn, State.modCtr], ?_⟩
  intro p hp
  cases p <;> simp [Part.same, State.tile, State.count, State.happen, hn, State.modCtr] at hp ⊢
end Sys2Proof.Machine
end

