-- ==== Sys2Proof/Laws/FrontBus.lean ====
section
/-! SUPPORT. What the serial transactions of a front-end bus carry. -/
namespace Sys2Proof.Machine

/-- A transaction drives one read/write bit, 15 address bits and its data bits (R443). -/
theorem FeTxn.mosi_length (t : FeTxn) : t.mosi.length = 16 + t.width := by
  simp [FeTxn.mosi]; omega
/-- A write samples nothing; a read samples its data bits. -/
theorem FeTxn.miso_length (t : FeTxn) : t.miso.length = if t.write then 0 else t.width := by
  unfold FeTxn.miso; split <;> simp
theorem bitsValue_cons (b : Bool) (l : List Bool) : bitsValue (b :: l) = b2n b * 2 ^ l.length + bitsValue l := by
  have acc : ∀ (l : List Bool) (n : Nat), l.foldl (fun n b => 2 * n + b2n b) n = n * 2 ^ l.length + l.foldl (fun n b => 2 * n + b2n b) 0 := by
    intro l
    induction l with
    | nil => intro n; simp
    | cons a l ih => intro n; rw [List.foldl_cons, List.foldl_cons, ih, ih (2 * 0 + b2n a), List.length_cons, Nat.pow_succ]; ring
  simp only [bitsValue, List.foldl_cons]; rw [acc]; simp
/-- The bits of a number, most significant first, make the number again, cut to their count. -/
theorem bitsValue_testBits (v : Nat) : ∀ w, bitsValue ((List.range w).map (fun i => v.testBit (w - 1 - i))) = v % 2 ^ w
  | 0 => by simp [bitsValue, Nat.mod_one]
  | w + 1 => by
    have h : ((fun i => v.testBit (w + 1 - 1 - i)) ∘ Nat.succ) = fun i => v.testBit (w - 1 - i) := by
      funext i; simp only [Function.comp]; congr 1; omega
    rw [List.range_succ_eq_map, List.map_cons, List.map_map, h, bitsValue_cons, bitsValue_testBits v w, Nat.mod_pow_succ]
    simp only [List.length_map, List.length_range, Nat.add_sub_cancel, Nat.sub_zero, Nat.testBit_eq_decide_div_mod_eq, b2n]
    rcases Nat.mod_two_eq_zero_or_one (v / 2 ^ w) with e | e <;> simp [e] <;> omega
/-- What a read samples makes its value, cut to WIDTH bits (R443). -/
theorem FeTxn.miso_value (t : FeTxn) (h : t.write = false) : bitsValue t.miso = t.value % 2 ^ t.width := by
  simp [FeTxn.miso, h, bitsValue_testBits]

end Sys2Proof.Machine
end

