-- ==== Sys2Proof/Machine/Ratings.lean ====
section
/-! DEFINITION. What the ratings chapter computes from the device's state: typical power (R530, R531), junction temperature (R532), life
consumed (R549), and where connectors and lands lie (R536, R545, R546). No step reads these; the chapter's limits are in Machine/Limits.lean.
What it chooses or infers where the manual is silent, with its marks: log entry 39. -/
namespace Sys2Proof.Machine

/-! ### Power (Tables 20.3 and 20.4), in mW -/

/-- A line engine on a tile that is not fenced. -/
def Engine.typicalPower (g : Engine) : Nat :=
  let k := max g.kTx g.kRx
  if k = 0 then 600 else if g.zr then 7400 else 6100 + 1050 * k - ([1200, 900, 500, 0] : List Nat).getD g.tx.nlcMode 0
/-- A line tile: its four engines, or the whole of it fenced. -/
def State.tilePower (s : State) (k : Nat) : Nat :=
  if (s.tile k).fenced then 200 else ((List.range 4).map (fun j => (s.eng (4 * k + j)).typicalPower)).sum
/-- A host lane: `fast` is the rate of diagnostics on a lane that is in no port. -/
def State.lanePower (s : State) (l : Nat) (fast : Bool) : Nat :=
  match s.portOfLane l with
  | some p => if p.2.fast then 650 else 420
  | none => if (s.lane l).busy then (if fast then 650 else 420) else 20
/-- A host tile with its 96 lanes. -/
def State.hostTilePower (s : State) (k : Nat) (fast : Nat → Bool) : Nat :=
  6600 + ((List.range 96).map (fun i => s.lanePower (96 * k + i) (fast (96 * k + i)))).sum
/-- Typical power of the device at a junction temperature of 85 °C: line tiles, host tiles, hub and control die (R530). -/
def State.typicalPower (s : State) (fast : Nat → Bool) : Nat :=
  ((List.range 12).map s.tilePower).sum + ((List.range 4).map (fun k => s.hostTilePower k fast)).sum + 38000 + 10000
/-- Maximum power in µW at 85, 125 or 150 °C, from the typical power in mW (Table 20.4). -/
def maxPower (typical tj : Nat) : Option Nat :=
  if tj = 85 then some (typical * 1100) else if tj = 125 then some (typical * 1216) else if tj = 150 then some (typical * 1353) else none
/-- Junction temperature in units of 0.001 °C, from the lid's, the die's power in mW and its resistance in 0.01 °C/W (R532). -/
def junctionTemp (lid : Int) (power theta : Nat) : Int := lid + ((power * theta / 100 : Nat) : Int)

/-! ### Life (R549) -/

/-- Acceleration factors by TJ_HIST bin, in units of 0.00001 (Table 20.14). -/
def lifeFactors : List Nat :=
  [4, 46, 350, 2100, 9900, 28200, 54000, 100000, 179200, 311700, 527300, 869300, 1106000, 1399000, 1760000, 1760000]
/-- Equivalent hours of a die, in units of 0.000001 h. -/
def LifeRecord.equivalent (l : LifeRecord) (d : Nat) : Nat :=
  ((List.range 16).map (fun b => cellGet l.tjHist (16 * d + b) 0 * lifeFactors.getD b 0)).sum
/-- Life consumed by a die, in millionths of the 424,000 h of the mission profile. -/
def LifeRecord.consumed (l : LifeRecord) (d : Nat) : Nat := l.equivalent d / 424000
/-- Life consumed by the device: that of the die that has consumed most. -/
def LifeRecord.consumedMost (l : LifeRecord) : Nat := ((List.range 18).map l.consumed).foldl max 0

/-! ### Placement -/

/-- Side of a line-port connector, 0 upper, 1 right, 2 lower, 3 left, and its place along it in the order of R536. -/
def connectorPlace (n : Fin 48) : Nat × Nat := (n.val / 12, n.val % 12)
/-- Number of a land in its quadrant, from its row 1 to 37 and its position 1 to 64 (R545). -/
def landNumber (row position : Nat) : Nat := 64 * (row - 1) + position
/-- Quadrant of a host lane, of a host tile's reference clock, and of a board input (R546). -/
def laneQuadrant (l : Fin 384) : Nat := l.val / 96 + 1
def refclkQuadrant (k : Fin 4) : Nat := k.val + 1
def boardQuadrant (b : Fin 32) : Nat := b.val / 8 + 1

end Sys2Proof.Machine
end

