-- ==== Sys2Proof/Machine/Limits.lean ====
section
/-! DEFINITION. The limits of the electrical chapter as tables and tests of a measured value: rails (R525 to R528), junction temperatures and
lid (R529, R532, R534), line-port contacts (R535, R537), the front-end control bus (R538), monitor inputs (R539), clock inputs (R541, R542),
pins at VDD_IO (R543, R544), lands (R546, R547), and service life (R548). No step reads these: they bind the board, not the block (R525).
What it chooses or infers where the manual is silent, with its marks: log entry 39. -/
namespace Sys2Proof.Machine

/-- Bounds of a quantity, none where the table gives none. -/
structure Bounds where
  least : Option Int
  most : Option Int
  deriving DecidableEq, Repr
/-- A value lies within its bounds. -/
def Bounds.admits (b : Bounds) (x : Int) : Bool := b.least.all (fun l => decide (l ≤ x)) && b.most.all (fun m => decide (x ≤ m))
/-- Bounds from `a` to `b`. -/
def between (a b : Int) : Bounds := { least := some a, most := some b }
/-- An upper bound alone. -/
def atMost (b : Int) : Bounds := { least := none, most := some b }

/-! ### Rails, in 0.1 mV -/

/-- Absolute maximum ratings of a rail's voltages, the lower nominal first (Table 20.1). -/
def Rail.absolute : Rail → List Bounds
  | .core => [between (-3000) 8000] | .sram => [between (-3000) 9000]
  | .conv => [between (-3000) 10500, between (-3000) 14000] | .hsl => [between (-3000) 9000, between (-3000) 14000]
  | .aux => [between (-3000) 21000] | .io => [between (-3000) 21000]
/-- Absolute maximum ratings of what is no rail: VBAT, pins at a VDD_IO of `io`, bus contacts at a VDD_CONV of `conv`, monitor and board
inputs, ADC inputs differential and common, a voltage on a DAC output, and a host lane's receiver (Table 20.1). -/
def absoluteOthers (io conv : Int) : List Bounds :=
  [between (-3000) 40000, between (-3000) (min (io + 3000) 21000), between (-3000) (conv + 3000), between (-3000) 15000, atMost 12000
  , between 0 10000, between (-3000) 12000, atMost 12000]
/-- Operating limits of a rail's voltages (Table 20.2); VDD_CORE's are 3% about the AVSBus target in mV (R526). -/
def Rail.operating (target : Nat) : Rail → List Bounds
  | .core => [between (10 * target - 3 * target / 10) (10 * target + 3 * target / 10)] | .sram => [between 7275 7725]
  | .conv => [between 8730 9270, between 11640 12360] | .hsl => [between 7275 7725, between 11640 12360]
  | .aux => [between 17460 18540] | .io => [between 17460 18540]
/-- Operating limits of VBAT. -/
def vbatOperating : Bounds := between 20000 36000
/-- Typical and maximum currents that the regulator must supply, in mA, the lower nominal voltage first (Table 20.2). -/
def Rail.current : Rail → List (Nat × Nat)
  | .core => [(1050000, 1400000)] | .sram => [(110000, 160000)] | .conv => [(150000, 200000), (50000, 70000)]
  | .hsl => [(60000, 90000), (10000, 14000)] | .aux => [(1000, 1500)] | .io => [(670, 1000)]
/-- The largest step of the VDD_CORE current within 1 µs, in mA (R528). -/
def coreCurrentStep : Nat := 350000
/-- Levels of Table 18.1's monitors for a voltage v against a target (R479), in one unit: below warning, below reset, recovered. -/
def belowWarning (target v : Nat) : Bool := decide (100 * v < 95 * target)
def belowReset (target v : Nat) : Bool := decide (100 * v < 90 * target)
def isRecovered (target v : Nat) : Bool := decide (96 * target ≤ 100 * v)
/-- How far a voltage lies below a target, in 0.1%: the level of a rail's rows and of BRACE_EXIT (R481). -/
def levelOf (target v : Nat) : Nat := 1000 * (target - v) / target
/-- Between the operating minimum and the warning level every functional rule holds, and no limit of the chapter (R527). -/
def Rail.functionalOnly (target : Nat) (v : Nat) : Bool := !((Rail.operating target .core).all (fun b => b.admits v)) && !belowWarning (10 * target) v

/-! ### Temperatures in °C, and the lid -/

/-- Junction temperatures of full function, and the absolute maximum (R525, R529). -/
def junctionOperating : Bounds := between (-40) 150
def junctionAbsolute : Bounds := atMost 160
def storageTemperature : Bounds := between (-55) 125
/-- Junction-to-lid resistance of a die, typical and maximum, in 0.01 °C/W, and its junction sensors (Table 20.6), by the index of R499. -/
def dieThermal (d : Nat) : Nat × Nat × Nat :=
  if d < 12 then (22, 26, 6) else if d < 16 then (16, 19, 4) else if d = 16 then (30, 36, 4) else (80, 95, 2)
/-- A junction sensor's reading, both in 0.25 °C: within 2 °C of the junction (R533). -/
def sensorReads (junction reading : Int) : Bool := decide ((reading - junction).natAbs ≤ 8)
/-- The loading frame's force in N, and the lid's pressure in kPa (R534). -/
def frameForce : Bounds := between 2160 2640
def lidPressure : Bounds := atMost 350

/-! ### Line-port connectors -/

/-- What a contact carries (Table 20.7): ground, a transmit or receive lane with its polarity, a wire of the front-end bus, a monitor, MON_RTN,
or nothing. -/
inductive Contact where
  | ground | tx (lane : Nat) (negative : Bool) | rx (lane : Nat) (negative : Bool) | feSck | feCsN | feMosi | feMiso
  | monitor (n : Nat) | monRtn | reserved
  deriving DecidableEq, Repr
/-- Contact n, from 1, of row A. -/
def contactA (n : Nat) : Contact :=
  if n % 3 = 1 then .ground
  else
    let pair := (n - 2) / 3
    if pair < 4 then .tx pair (n % 3 == 0) else .rx (pair - 4) (n % 3 == 0)
/-- Contact n, from 1, of row B. -/
def contactB (n : Nat) : Contact :=
  if n = 1 then .feSck else if n = 2 then .feCsN else if n = 3 then .feMosi else if n = 4 then .feMiso else if n = 5 then .ground
  else if n < 10 then .monitor (n - 6) else if n = 10 then .monRtn else .reserved
/-- Analog characteristics of Table 20.8: DAC output impedance and ADC input impedance in Ω, DAC full scale in mVppd, DAC and ADC common mode
in 10 mV, residual output in MUZZLED in mVppd, and lane-to-lane skew in ps. -/
def dacImpedance : Bounds := between 90 110
def dacFullScale : Bounds := between 540 660
def dacCommonMode : Bounds := between 50 60
def muzzledResidual : Bounds := atMost 5
def adcImpedance : Bounds := between 90 110
def adcFullScale : Nat := 500
def adcCommonMode : Bounds := between 55 65
def laneSkew : Bounds := between (-2) 2
/-- Timing of the front-end control bus in ns (Table 20.9): the least and typical times of select and of rest, and MOSI's about a rise. -/
def feSelectTime : Nat := 10
def feRestTime : Nat := 40
def feMosiTime : Nat := 8
def feMisoSetup : Nat := 4

/-! ### Inputs -/

/-- The code of a monitor or board input of v µV: 0 to 1.2 V over 4,096 codes, and full scale above (R432, R539). -/
def monitorCode (v : Nat) : Nat := min 4095 (v * 4096 / 1200000)
/-- The error of an input after MON_CAL, in LSB (R539). -/
def monitorError : Bounds := between (-4) 4
/-- The clock inputs (Table 20.10). -/
inductive ClockIn where
  | ocxo | refclkHost | pcieRefclk | xtal
  deriving DecidableEq, Repr
/-- Nominal frequency in Hz, OSC_FREQ for OCXO_IN, and tolerance in 0.1 ppm. -/
def ClockIn.frequency (osc : Nat) : ClockIn → Nat × Nat
  | .ocxo => (osc, 46) | .refclkHost => (156250000, 1000) | .pcieRefclk => (100000000, 3000) | .xtal => (32768, 200)
/-- A frequency in mHz lies within the tolerance of its input. -/
def ClockIn.accepts (osc : Nat) (c : ClockIn) (mhz : Nat) : Bool :=
  decide (((mhz : Int) - 1000 * (c.frequency osc).1).natAbs * 10000 ≤ (c.frequency osc).1 * (c.frequency osc).2)
/-- OCXO_IN's frequency error in ppb for the enhanced EEC holdover (R542). -/
def enhancedOscillator : Bounds := between (-1) 1
/-- Levels at VDD_IO in mV: a low and a high input, a low and a high output (Table 20.11). -/
def ioInputLow : Bounds := atMost 630
def ioInputHigh : Bounds := { least := some 1170, most := none }
def ioOutputLow : Bounds := atMost 450
def ioOutputHigh : Bounds := { least := some 1350, most := none }
/-- The least low pulses of SYS_RST_N and MGMT_RST_N, and of a PPS input, in ns (R544). -/
def sysRstPulse : Nat := 10000
def mgmtRstPulse : Nat := 1000
def ppsInPulse : Nat := 100

/-! ### Lands and life -/

/-- Lands of quadrant 1 to 4 by function, in the order of Table 20.12: host lanes, REFCLK_HOST, board inputs, VDD_CORE, VDD_SRAM, VDD_CONV,
VDD_HSL, control-die signals with VCORE_SNS, VDD_AUX with VDD_IO, reserved, ground. -/
def landsOf (q : Nat) : List Nat :=
  [384, 2, 8, 720, 96, 72 + 24, 64 + 24] ++ (if q = 1 then [59, 12 + 8, 8, 887] else [0, 0, 8, 966])
/-- The most a power or ground land carries, in mA (R547). -/
def landCurrent : Nat := 1000
/-- Service life in hours, and thermal cycles of a die in it (R548). -/
def serviceHours : Nat := 219150
def thermalCycleLimit : Nat := 20000
/-- The mission profile: shares of life in percent, and temperatures (Table 20.13). -/
def missionProfile : List (Nat × Nat) := [(89, 91), (10, 125), (1, 150)]
/-- A die is within its rated cycles (R500, R548). -/
def LifeRecord.cyclesOk (l : LifeRecord) (d : Nat) : Bool := decide (vget l.thermalCycles d 0 ≤ thermalCycleLimit)
/-- The most failures in 10⁹ h, and the ESD robustness in V of the lands and of the row A contacts, HBM and CDM (R550). -/
def failureRate : Nat := 500
def esdLands : Nat × Nat := (1000, 250)
def esdRowA : Nat × Nat := (250, 150)

end Sys2Proof.Machine
end

