-- ==== Sys2Proof/Machine/Reception.lean ====
section
/-! DEFINITION. The receive stages in the order of R178: from the corrected samples of an engine's four lanes (R208) to the symbols that
soft demapping takes, with the settings and taps in force. No step reads them: RX_FRAME_DECODE brings the symbols at the end of the stages.
What it chooses or infers where the manual is silent, with its marks: log entry 25. -/
namespace Sys2Proof.Machine

/-- The samples of the lanes XI, XQ, YI and YQ, by number from the start of a tick. -/
abbrev LaneSamples := Nat → Int → Rat

/-- A lane between its samples: band-limited, from the 64 samples around. DESIGN CHOICE (log entry 25). -/
def LaneSamples.between (r : LaneSamples) (lane : Nat) (x : Rat) : Rat :=
  sumBelow 64 (fun k => let n := x.floor - 31 + (k : Int); rrc 0 (x - (n : Rat)) * r lane n)
/-- Stage 1, front-end correction (R180): a lane's RX_SKEW, less the mean of the four, delays it; Q by RX_IQ_GAIN against I, turned toward
I by RX_IQ_PHASE. DESIGN CHOICE (log entry 25): the signs are those of the transmitter's corrections. -/
def Equaliser.frontEnd (q : Equaliser) (r : LaneSamples) (pol : Nat) (x : Rat) : Cx :=
  let v := fun lane => r.between lane (x - (q.skewApplied.getD lane 0 : Rat) * 9 / 16000)
  let a : Rat := (q.rxIqPhase.getD pol 0 : Rat) / 36000
  (v (2 * pol), decibels (q.rxIqGain.getD pol 0) 100 * (v (2 * pol + 1) * cosTurn a + v (2 * pol) * sinTurn a))
/-- What the filter of a bank makes of a field at a sample (R181). -/
def CdBank.filter (b : CdBank) (f : Rat → Cx) (x : Rat) : Cx :=
  (List.range 65536).foldl (fun (a : Cx) (k : Nat) =>
    let n : Int := (k : Int) - 32768
    let y := Cx.mul (Config.cdResponse b.d b.centreN n) (f (x - (n : Rat)))
    (a.1 + y.1, a.2 + y.2)) (0, 0)
/-- Stage 2, CD compensation (R181, R184 to R186): the active bank's output, or in a fade (1 − w) of the old bank's and w of the new one's,
all at the engine's alignment A. -/
def Equaliser.compensated (q : Equaliser) (r : LaneSamples) (pol : Nat) (x : Rat) : Cx :=
  let y := fun (b : CdBank) => b.filter (q.frontEnd r pol) (x - (q.align : Rat) / 64)
  match q.fade with
  | none => y q.cdActive
  | some f =>
    let w : Rat := (min f.w f.x : Nat) / (f.x : Rat)
    let a := Cx.scale (1 - w) (y q.cdActive)
    let b := Cx.scale w (y (q.cdShadow.getD q.cdActive))
    (a.1 + b.1, a.2 + b.2)
/-- Stage 3, the subcarrier split: COARSE_FO is taken off ahead of it (R166), then subcarrier `sc` is brought to the middle of the band
(R124) and filtered by itself. Samples are 1/225 GHz, and the layout's symbol has 360,000 / N_s of them. -/
def Engine.split (g : Engine) (r : LaneSamples) (sc pol : Nat) (x : Rat) : Cx :=
  let turn : Rat := (2 * (sc : Rat) - 7) * 17 / 288 + (g.acq.coarseFo : Rat) / 225000
  let period : Rat := 360000 / (symbolsPerTick g.rxLayout : Rat)
  (List.range 4096).foldl (fun (a : Cx) (k : Nat) =>
    let u : Rat := x - (x.floor : Rat) + (k : Rat) - 2048
    let y := Cx.mul (g.eq.compensated r pol (x - u)) (cosTurn (turn * (x - u)), -sinTurn (turn * (x - u)))
    (a.1 + Config.splitPulse g.rxLayout (u / period) * y.1, a.2 + Config.splitPulse g.rxLayout (u / period) * y.2)) (0, 0)
/-- One of the four filters of a subcarrier's butterfly, 31 taps half a symbol apart with tap 15 in the centre, on what `f` gives (R189). -/
def Equaliser.fir (q : Equaliser) (sc filter : Nat) (period : Rat) (f : Rat → Cx) (x : Rat) : Cx :=
  (List.range 31).foldl (fun (a : Cx) (k : Nat) =>
    let t := ((q.taps.getD sc []).getD filter []).getD k (0, 0)
    let y := Cx.mul ((t.1 : Rat) / 65536, (t.2 : Rat) / 65536) (f (x - ((k : Rat) - 15) * period / 2))
    (a.1 + y.1, a.2 + y.2)) (0, 0)
/-- Stage 4, the butterfly (R189): each polarisation from both, under the polarisation and quadrant choices of R155. -/
def Engine.butterfly (g : Engine) (r : LaneSamples) (sc pol : Nat) (x : Rat) : Cx :=
  let period : Rat := 360000 / (symbolsPerTick g.rxLayout : Rat)
  let c := resolveOf g.acq.held.resolve sc
  let p := if 8 ≤ c then 1 - pol else pol
  let a := g.eq.fir sc (2 * p) period (g.split r sc 0) x
  let b := g.eq.fir sc (2 * p + 1) period (g.split r sc 1) x
  (List.range (c % 4)).foldl (fun (y : Cx) _ => (-y.2, y.1)) (a.1 + b.1, a.2 + b.2)
/-- Stage 5, timing recovery (R190, R192): symbol k of a stream, at the timing loop's phase in samples and the subcarrier's alignment. -/
def Engine.timed (g : Engine) (r : LaneSamples) (phase : Nat → Rat) (sc pol k : Nat) : Cx :=
  let period : Rat := 360000 / (symbolsPerTick g.rxLayout : Rat)
  g.butterfly r sc pol (((k : Rat) + (g.eq.symAlign.getD sc 0 : Rat)) * period + phase k)
/-- The carrier phase of symbol k of the i-th active stream, in turns: that of its sync is the first pilot's, then linear between pilots
(R196). -/
def Equaliser.carrierPhase (q : Equaliser) (i k : Nat) : Rat :=
  (phaseAt (q.phases.getD i []) ((k - 64) / 32) ((k - 64) % 32) : Rat) / 65536
/-- Stage 6, carrier recovery (R196): the symbol turned back by its stream's phase. This is what soft demapping takes (R178). -/
def Engine.recovered (g : Engine) (r : LaneSamples) (phase : Nat → Rat) (sc pol k : Nat) : Cx :=
  let i := ((activeOf g.rxLayout).find? (fun a => a.1 == sc)).elim 0 (fun a => 2 * a.2 + pol)
  let t := g.eq.carrierPhase i k
  Cx.mul (g.timed r phase sc pol k) (cosTurn t, -sinTurn t)

end Sys2Proof.Machine
end

