-- ==== Sys2Proof/Machine/SpiWire.lean ====
section
/-! DEFINITION. Reads of the register map that take or latch, 64-bit PCIe reads (R459, R512), what a whole SPI transaction does (R11, R517,
R518), the MSI-X table and pending bits as read (R507), the shadow word as written (R516), and the endpoint's fixed configuration (R504).
The rows of the table name the steps of a transaction one by one; no step reads these.
What it chooses or infers where the manual is silent, with its marks: log entry 37. -/
namespace Sys2Proof.Machine

/-- The end of the block of Table 19.4 that holds an address. -/
def blockEnd (a : Nat) : Nat :=
  if a < 0x1000 then 0x1000 else if 0x1000 ≤ a ∧ a < 0x1300 then 0x1300 else if 0x1800 ≤ a ∧ a < 0x1818 then 0x1818
  else if 0x3000 ≤ a ∧ a < 0x3020 then 0x3020 else if 0x4000 ≤ a ∧ a < 0x4800 then 0x4800 else if 0x4800 ≤ a ∧ a < 0x4810 then 0x4810
  else if 0x5000 ≤ a ∧ a < 0x5400 then 0x5400 else if 0x100000 ≤ a ∧ a < 0x1C1000 then 0x1C1000 else a
/-- The state a step leaves, or the one before where it has none. -/
def resOr (s : State) (r : Res) : State := match r with | .next t => t | _ => s
/-- A read of an aligned register by a path: V0 loads the path's latch (R459), RESULT_LO takes an item, any other read changes nothing. -/
def State.readAt (p : Path) (a : Nat) (s : State) : State × Nat :=
  if !s.pathOpen p then (s, 0)
  else if 0x100000 ≤ a ∧ a < 0x1C0000 ∧ a % 16 = 0 then
    (resOr s (execCounterV0Read p (Fin.ofNat 49152 ((a - 0x100000) / 16)) s), s.readMap p a)
  else if (0x4000 ≤ a ∧ a < 0x4800 ∧ (a - 0x4000) % 0x200 = 0) ∨ a = 0x4800 then
    let t := resOr s (execMonResultRead (Fin.ofNat 5 ((a - 0x4000) / 0x200)) s)
    (t, (t.readWord.getD 0).toNat)
  else (s, s.readMap p a)
/-- n words from an address on, in one transaction: the address advances by 4, and words beyond the block read 0 (R517). -/
def State.readWords (p : Path) (last : Nat) : Nat → Nat → State → State × List Nat
  | 0, _, s => (s, [])
  | n + 1, a, s =>
    let x := if a < last then s.readAt p a else (s, 0)
    let y := State.readWords p last n (a + 4) x.1
    (y.1, x.2 :: y.2)
/-- A PCIe read of 64 bits: two reads of 32 in ascending address order (R512). -/
def State.readPair (a : Nat) (s : State) : State × List Nat := s.readWords .pcie (a + 8) 2 a
/-- Words written from an address on; words beyond the block, and octets short of a word, are not written (R517). -/
def State.writeWords (last : Nat) : Nat → Nat → List Octet → State → State
  | 0, _, _, s => s
  | n + 1, a, data, s =>
    if data.length < 4 then s
    else
      let t := if a < last then s.writeMap a (ofOctets (data.take 4).reverse) else s
      State.writeWords last n (a + 4) (data.drop 4) t
/-- A whole SPI transaction, SPI_CS_N low to high: the octets on MOSI, the dummy ones of a read among them (R517, R518). -/
def State.spiTransaction (mosi : List Octet) (s : State) : State :=
  let a := ofOctets ((mosi.drop 1).take 3)
  let words := mosi.drop 4
  match mosi.head?.map BitVec.toNat with
  | some 0x02 =>
    if a = 0x1800 then resOr s (execSpiCommandWindowWrite true true
      ((List.range (words.length / 8)).map (fun k => BitVec.ofNat 64 (ofOctets ((words.drop (8 * k)).take 8)))) s)
    else if s.pathOpen .spi ∧ a % 4 = 0 then s.writeWords (blockEnd a) (words.length / 4) a words else s
  | some 0x0B =>
    let n := words.length - 1
    if a = 0x1808 then resOr s (execSpiResponseWindowRead n true s)
    else if a = 0x1810 then resOr s (execSpiEventWindowRead n true s)
    else
      let r := s.readWords .spi (blockEnd a) ((n + 3) / 4) a
      { r.1 with spiReply := (r.2.flatMap registerOctets).take n }
  | some 0x05 => { s with spiReply := List.replicate (mosi.length - 1) (BitVec.ofNat 8 s.spiStatus) }
  | _ => s
/-- BAR2: the MSI-X table at 0x000, the pending bits at 0x800 (R507). -/
def State.readMsix (s : State) (o : Nat) : Nat :=
  let v := fun (i : Nat) => s.dev.msix.toList.getD i { addrLo := 0, addrHi := 0, data := 0, masked := false, pendingBit := false, sent := 0 }
  if 0x800 ≤ o then
    if o < 0x808 then ((List.range 32).map (fun i => b2n (v (8 * (o - 0x800) + i)).pendingBit * 2 ^ i)).sum else 0
  else if 0x400 ≤ o then 0
  else if o % 16 = 0 then (v (o / 16)).addrLo else if o % 16 = 4 then (v (o / 16)).addrHi
  else if o % 16 = 8 then (v (o / 16)).data else b2n (v (o / 16)).masked
/-- The octets of a ring's shadow word in host memory (R516). -/
def QueueRegs.shadowOctets (r : QueueRegs) : List Octet := octetsLE 8 r.shadowWord
/-- Words of the configuration header that Table 19.1 fixes, by offset: Device and Vendor ID, class code and Revision ID, Subsystem IDs, and
an Interrupt Pin of 0. -/
def configHeader : List (Nat × Nat) :=
  [(0x00, 0x4816 * 2 ^ 16 + 0x1DF5), (0x08, 0x028000 * 2 ^ 8 + 0xA1), (0x2C, 0x4816 * 2 ^ 16 + 0x1DF5), (0x3C, 0)]
/-- Max payload sizes and max read request sizes the endpoint takes, and the sizes of its BARs (Tables 19.1 and 19.2). -/
def payloadSizes : List Nat := [128, 256, 512]
def readRequestSizes : List Nat := [128, 256, 512, 1024, 2048, 4096]
def barSizes : List (Nat × Nat) := [(0, 2 ^ 21), (2, 2 ^ 12)]

end Sys2Proof.Machine
end

