-- ==== Sys2Proof/WellFormed.lean ====
section
/-! DEFINITION. What the data of a command may be: the widths of Table 14.2 and of the registers, and the counts of measurements that a
row names. -/
namespace Sys2Proof

/-- A command packet has at most 1,023 parameter words and a 64-bit TN (Table 14.2). -/
def Cmd.wf (c : Cmd) : Bool := decide (c.words.length ≤ 1023) && (match c.tn with | some t => decide (t < 2 ^ 64) | none => true)
/-- Ports, engines, line slots and calendar words in range, and 8-bit samples of four lanes, at most a tick of them. -/
def TickObs.wf (o : TickObs) : Bool :=
  o.clients.all (fun x => decide (x.port < 384)) && o.engines.all (fun x => decide (x.engine < 48) && decide (x.adc.length ≤ 4)
    && x.adc.all (fun l => decide (l.length ≤ 360000) && l.all (fun c => decide (-128 ≤ c) && decide (c ≤ 127))))
    && o.parity.all (fun x => decide (x.1 < 7)) && o.calParity.all (fun x => decide (x.1 < 122880) && decide (x.2 < 2 ^ 54))
    && o.temps.all (fun x => decide (x.1 < 18))
/-- A far-end frame: 16 header octets, 480 overhead octets, a 16-octet tag, and 128 octets to a slot. -/
def RxSignal.wf (f : RxSignal) : Bool :=
  f.header.length == 16 && f.overhead.length == 480 && f.tag.length == 16 && f.slots.all (fun x => x.length == 128)
    && f.jc.length == f.slots.length
/-- The well-formed commands. -/
def Instr.wf : Instr → Bool
  | .tick obs => obs.wf
  | .tickAlignedChangeEffect => true
  | .realignment => true
  | .sfHoldoffExpiry _ _ => true
  | .muzzleRampEnd _ => true
  | .rxFrameDecode _ f => f.wf
  | .rxSyncCheck _ _ _ => true
  | .searchSyncFound _ _ _ => true
  | .powerQualification _ powers => powers.length == 16
  | .oofTimerExpiry _ => true
  | .acqNoSync _ => true
  | .freqRecentre _ => true
  | .leashWriteInstant _ => true
  | .rxThaw _ => true
  | .rxFeAutoUpdate _ _ => true
  | .cdFilterReady _ => true
  | .cdSwapDone _ => true
  | .cdDelaySettled _ => true
  | .cdTrackEstimate _ _ => true
  | .estimatorUpdate _ _ => true
  | .loadPolicyRun _ => true
  | .loadAckDeadline _ => true
  | .loadTxSwitch _ => true
  | .converterSensorRead _ _ => true
  | .calWindowCheck _ _ _ _ => true
  | .calApply _ => true
  | .retirementEntryWrite => true
  | .shadowScrubPass _ => true
  | .hostRefclkLoss _ => true
  | .hostRefclkOk _ => true
  | .hlAdaptWindowEnd _ _ _ => true
  | .trainTimeoutExpiry _ _ _ => true
  | .partnerLostTimer _ _ => true
  | .alignTimeout _ _ => true
  | .pcsAligned _ => true
  | .trainHoldoffExpiry _ => true
  | .pcsAlignmentLoss _ _ => true
  | .retrainHoldExpiry _ => true
  | .prbsCheckWindow _ _ _ => true
  | .tapFrameRx _ _ _ _ _ => true
  | .tapFrameInsert _ _ => true
  | .tapInsertTimeout _ => true
  | .ppsInPulse _ _ => true
  | .ppsMissing _ => true
  | .todSentenceRx _ _ _ => true
  | .timeMeasurement => true
  | .timeStep => true
  | .sourceQualified _ => true
  | .wtrExpiry => true
  | .holdoverTraceExpiry => true
  | .leapApplied => true
  | .ppsOutPulse _ => true
  | .todOutSentence => true
  | .kennelRtcUpdate _ => true
  | .oscLoss => true
  | .oscOk => true
  | .oscRelockDone => true
  | .freqLoopUpdate _ => true
  | .freqRefQualification _ => true
  | .lttIntervalEnd _ => true
  | .delayCertFormation => true
  | .ptpMessageRx _ => true
  | .ptpSyncTx _ => true
  | .ptpAnnounceTx _ => true
  | .ptpDelayReqTx _ => true
  | .announceReceiptTimeout _ => true
  | .ptpMeasPeriodEnd _ => true
  | .esmcInfoTx _ => true
  | .esmcEventTx _ => true
  | .esmcPduRx _ => true
  | .keyExpiry _ _ => true
  | .testportInstruction _ => true
  | .tagSignatureDone => true
  | .monConversionDone _ _ => true
  | .monCalComplete _ _ gain _ => decide (gain < 2 ^ 16)
  | .monTestdacSettle _ => true
  | .biasLoopRun _ _ => true
  | .feFaultPoll _ _ => true
  | .feBusTransaction _ _ => true
  | .tlmSample _ => true
  | .bandwidthWindowEnd _ => true
  | .captureTrigger _ => true
  | .captureFillDone _ data => decide (data.length ≤ 8388608)
  | .dmaGo _ => true
  | .dmaAbort _ => true
  | .dmaReadCompletion _ _ _ => true
  | .dmaChannelEnd _ _ _ => true
  | .sysRstAssert => true
  | .sysRstRelease _ => true
  | .mgmtRstAssert => true
  | .mgmtRstRelease => true
  | .perst => true
  | .hotReset => true
  | .functionLevelReset => true
  | .d3hotEntry => true
  | .d0Return => true
  | .pcieRefclkLoss => true
  | .railWarning _ _ level => decide (level ≤ 1000)
  | .braceExit => true
  | .railResetLevel _ _ level => decide (level ≤ 1000)
  | .domainResetRelease _ _ => true
  | .avsLoopStep _ _ => true
  | .vbatMeasurement _ => true
  | .kennelPowerLoss => true
  | .fwHeartbeat => true
  | .shepherdHeartbeat => true
  | .heartbeatTimeout => true
  | .fwFatalTrap => true
  | .fwBootTimeout => true
  | .fwRunningReport => true
  | .shepherdHeartbeatTimeout => true
  | .lastResortKick => true
  | .lastResortExpiry => true
  | .firmwareBoot => true
  | .lifeRecordSecond temps => temps.length == 18
  | .lifeMirrorWrite => true
  | .progress _ _ => true
  | .commandRingDoorbell _ pi _ words => decide (pi < 2 ^ 20) && decide (words.length < 2 ^ 20)
  | .ringEnableWrite _ _ => true
  | .ringCiWrite _ ci => decide (ci < 2 ^ 20)
  | .queueFlush _ => true
  | .wmLatchedClear _ => true
  | .heldResponseCommit _ => true
  | .eventRingDrain => true
  | .heldEventEntry => true
  | .intHoldoffExpiry _ => true
  | .msixUnmask _ => true
  | .spiCommandWindowWrite _ _ _ => true
  | .spiResponseWindowRead _ _ => true
  | .spiEventWindowRead _ _ => true
  | .spiStatus => true
  | .counterV0Read _ _ => true
  | .monResultRead _ => true
  | .timeSnapReq => true
  | .timeSnapshotCapture => true
  | .bootGo => true
  | .registerWrite _ bar2 offset _ => if bar2 then decide (offset < 0x1000) else decide (offset < 0x200000)
  | .unknownOpcode _ c => c.wf
  | .readCounterpart _ c => c.wf
  | .deviceNop c => c.wf
  | .deviceIdentity c => c.wf
  | .deviceStatus c => c.wf
  | .eventMaskSet c => c.wf
  | .engineProfileSet c => c.wf
  | .engineCapacitySet c => c.wf
  | .engineIterCapSet c => c.wf
  | .engineLoadSet c => c.wf
  | .engineLoadAnnounce c => c.wf
  | .engineSynthSet c => c.wf
  | .engineTxcorrSet c => c.wf
  | .enginePreemphLoad c => c.wf
  | .enginePreemphSwap c => c.wf
  | .spectralMapSet c => c.wf
  | .engineNlcSet c => c.wf
  | .engineNlcCoefLoad c => c.wf
  | .engineNlcCoefSwap c => c.wf
  | .engineMuzzle c => c.wf
  | .engineUnmuzzle c => c.wf
  | .engineMuzzleClear c => c.wf
  | .engineMuzzleCfgSet c => c.wf
  | .engineAcqSet c => c.wf
  | .engineAcqRestart c => c.wf
  | .engineAcqStatus c => c.wf
  | .engineLeashSet c => c.wf
  | .engineRxfeSet c => c.wf
  | .engineCdSet c => c.wf
  | .engineCdLoad c => c.wf
  | .engineCdSwap c => c.wf
  | .engineEqSet c => c.wf
  | .engineRxQuality c => c.wf
  | .engineNbrStatus c => c.wf
  | .engineTtiSet c => c.wf
  | .engineTtiRead c => c.wf
  | .engineDefectSet c => c.wf
  | .engineLock c => c.wf
  | .engineUnlock c => c.wf
  | .engineSvcWrite c => c.wf
  | .engineSvcRead c => c.wf
  | .engineOpareaSet c => c.wf
  | .engineOpareaRead c => c.wf
  | .convStatus c => c.wf
  | .convCalRead c => c.wf
  | .convCalLoad c => c.wf
  | .convCalFactory c => c.wf
  | .convRetireCmd c => c.wf
  | .convRestore c => c.wf
  | .convCalSet c => c.wf
  | .calLoad c => c.wf
  | .calRead c => c.wf
  | .calSwap c => c.wf
  | .calStatus c => c.wf
  | .packSet c => c.wf
  | .packDelete c => c.wf
  | .packCapacitySet c => c.wf
  | .packSkewSet c => c.wf
  | .packStatus c => c.wf
  | .storeSet c => c.wf
  | .portSet c => c.wf
  | .portDelete c => c.wf
  | .portEnable c => c.wf
  | .portDisable c => c.wf
  | .portRestart c => c.wf
  | .portTest c => c.wf
  | .portTrainSet c => c.wf
  | .portTxFfe c => c.wf
  | .portTapSet c => c.wf
  | .portDefectSet c => c.wf
  | .portStatus c => c.wf
  | .hostClkSet c => c.wf
  | .laneSet c => c.wf
  | .laneLoopback c => c.wf
  | .lanePrbsSet c => c.wf
  | .lanePrbsStatus c => c.wf
  | .timeStatus c => c.wf
  | .timeSourceSet c => c.wf
  | .timeParamSet c => c.wf
  | .timeSet c => c.wf
  | .timeUtcSet c => c.wf
  | .timeOscSet c => c.wf
  | .timeEpochForce c => c.wf
  | .timePpsInSet c => c.wf
  | .timePpsOutSet c => c.wf
  | .timeTodSet c => c.wf
  | .timeFreqRefSet c => c.wf
  | .lttSet c => c.wf
  | .lttStatus c => c.wf
  | .engineDelayCert c => c.wf
  | .certDump c => c.wf
  | .asymSet c => c.wf
  | .asymValidate c => c.wf
  | .asymClear c => c.wf
  | .routeSet c => c.wf
  | .ptpClockSet c => c.wf
  | .ptpPortSet c => c.wf
  | .ptpPortStatus c => c.wf
  | .engineCryptoSet c => c.wf
  | .keyLoad c => c.wf
  | .keyErase c => c.wf
  | .keyTxSwitch c => c.wf
  | .keyRxSwitch c => c.wf
  | .keyRxFollow c => c.wf
  | .keyStatus c => c.wf
  | .domainEnrol c => c.wf
  | .domainClear c => c.wf
  | .tagCertRead c => c.wf
  | .attestReport c => c.wf
  | .testportChallenge c => c.wf
  | .testportUnlock c => c.wf
  | .monCal c => c.wf
  | .monSeqSet c => c.wf
  | .monSeqStart c => c.wf
  | .monSeqStop c => c.wf
  | .monInject c => c.wf
  | .monCorrSet c => c.wf
  | .monTestdacSet c => c.wf
  | .feProfileLoad c => c.wf
  | .feBusAccess c => c.wf
  | .tlmChainSet c => c.wf
  | .tlmCoefLoad c => c.wf
  | .tlmCoefSwap c => c.wf
  | .tlmReset c => c.wf
  | .capSet c => c.wf
  | .capArm c => c.wf
  | .capWithdraw c => c.wf
  | .capStatus c => c.wf
  | .ctrRead c => c.wf
  | .ctrChainSet c => c.wf
  | .ctrFilterSet c => c.wf
  | .ctrBwSet c => c.wf
  | .ctrSnapshot c => c.wf
  | .ctrDump c => c.wf
  | .ctrIndex c => c.wf
  | .kennelStatus c => c.wf
  | .lifeExport c => c.wf
  | .kennelExport c => c.wf
  | .engineIsolate c => c.wf
  | .engineRestore c => c.wf
  | .tileFence c => c.wf
  | .tilePowerDownDone _ => true
  | .tileUnfence c => c.wf
  | .tilePowerUpDone _ => true
  | .shepherdStatus c => c.wf
  | .fwLoad c => c.wf
  | .fwActivate c => c.wf
  | .fwCommit c => c.wf
  | .fwStatus c => c.wf
  | .linkTrainingComplete _ => true
  | .searchPassEnd _ => true
  | .prbsCheckerLock _ => true
  | .pcieRefclkReturn => true
  | .perstRelease => true
  | .vddAuxPowerUp => true

end Sys2Proof
end

