-- ==== Sys2Proof/Tests/Slice0.lean ====
section
/-! SUPPORT. Smoke tests of well-formedness, small tests against the manual, and for every statement with hypotheses a state and
operands that meet them. -/
namespace Sys2Proof.Machine
set_option Elab.async false

/-! ### Small states and commands -/

/-- The reset state with firmware running. -/
def up : State := { State.reset with recovery := { State.reset.recovery with fw := .running } }
/-- A command of ring 0 with tag 7. -/
def host (ws : List Word) : Cmd :=
  { src := .ring 0, tag := 7, tn := none, noResponse := false, barrier := false, urgent := false, reserved := 0, issuer := 0
    words := ws }
/-- The same with a target word and parameters. -/
def cmd (k i sub : Nat) (ws : List Nat) : Cmd := host (BitVec.ofNat 32 (k * 2 ^ 28 + i * 2 ^ 16 + sub) :: ws.map (BitVec.ofNat 32))
/-- TICK_ALIGNED. -/
def atTn (t : Nat) (c : Cmd) : Cmd := { c with tn := some t }
/-- One engine changed. -/
def withEng (f : Engine → Engine) : State := up.modEng 0 f
/-- Ticks and TN counted up. -/
def State.later (n : Nat) (s : State) : State := { s with tn := n, ticks := n }
/-- Port 0 in a state. -/
def withPort (f : Port → Port) : State := { up with ports := [(0, f (Port.fresh 1 true false))] }
/-- A channel whose descriptor moves `len` octets. -/
def withDma (len : Nat) (f : DmaChannel → DmaChannel) (s : State) : State :=
  s.modDc 1 (fun d => f { d with lineLen := len, lineCount := 1, hostStride := len, devStride := len })
/-- A running job. -/
def jobOf (op : Nat) (c : Cmd) (chan : Option Nat) : Job := { ticket := ticketOf op c 0, cmd := c, chan := chan, lastProgress := 0 }
/-- With a job that runs. -/
def State.withJob (j : Job) (s : State) : State := s.modProto (fun p => { p with jobs := [j] })

/-- The hypotheses of every TakesEffect statement can be met from any state: one change is armed and due. -/
theorem witness_TakesEffect (op cls : Nat) (c : Cmd) (s : State) :
    let a : Armed := { due := s.tn, key := keyOf cls c, opcode := op, cmd := c, ticket := none }
    let t := s.modProto (fun p => { p with armed := [a] })
    t.proto.armed = [a] ∧ a.due ≤ t.tn ∧ a.opcode = op ∧ a.cmd = c ∧ t.engines = s.engines ∧ t.packs = s.packs ∧ t.mons = s.mons
      ∧ t.ports = s.ports ∧ t.tiles = s.tiles ∧ t.ctr = s.ctr :=
  ⟨rfl, Nat.le_refl _, rfl, rfl, rfl, rfl, rfl, rfl, rfl, rfl⟩

/-! ### Well-formedness: a term that each check refuses, and one that it admits -/

def smallFrame : RxSignal :=
  { vec := [], header := List.replicate 16 0, overhead := List.replicate 480 0, jc := [], slots := [], tag := List.replicate 16 0
    noise := [] }
def emptyObs : TickObs := { clients := [], engines := [], parity := [], calParity := [], temps := [] }
theorem test_wf_admits : (Instr.deviceNop (cmd 0 0 0 [])).wf = true ∧ (Instr.tick emptyObs).wf = true
    ∧ (Instr.rxFrameDecode 0 smallFrame).wf = true := by decide +kernel
theorem test_wf_too_many_words : (Instr.deviceNop (host (List.replicate 1024 0))).wf = false := by decide +kernel
theorem test_wf_tn_too_wide : (Instr.deviceNop (atTn (2 ^ 64) (cmd 0 0 0 []))).wf = false := by decide +kernel
def smallClient (p : Nat) : ClientObs :=
  { port := p, groups := [], localFault := [], remoteFault := [], ingress := 0, egress := 0, frames := [], consumed := 0
    idleIns := 0, idleDel := 0 }
def smallEngine (e : Nat) (adc : List (List Int)) : EngineObs :=
  { engine := e, adc := adc, spares := [], observers := [], noClock := false, pilotOnly := false, residual := none, pilots := []
    decisions := [], pilotSteps := [], decisionSteps := [], rotRate := 0, sopRate := 0, timingFo := 0, pilotPow := [] }
theorem test_wf_observations : (Instr.tick { emptyObs with clients := [smallClient 384] }).wf = false
    ∧ (Instr.tick { emptyObs with engines := [smallEngine 48 []] }).wf = false
    ∧ (Instr.tick { emptyObs with engines := [smallEngine 0 [[128]]] }).wf = false
    ∧ (Instr.tick { emptyObs with engines := [smallEngine 0 (List.replicate 5 [])] }).wf = false
    ∧ (Instr.tick { emptyObs with engines := [smallEngine 0 [[127, -128]]] }).wf = true := by decide +kernel
theorem test_wf_parity_location : (Instr.tick { emptyObs with parity := [(7, 0, 0)] }).wf = false := by decide +kernel
theorem test_wf_cal_parity : (Instr.tick { emptyObs with calParity := [(122880, 0)] }).wf = false
    ∧ (Instr.tick { emptyObs with calParity := [(0, 2 ^ 54)] }).wf = false := by decide +kernel
theorem test_wf_frame : (Instr.rxFrameDecode 0 { smallFrame with header := [] }).wf = false
    ∧ (Instr.rxFrameDecode 0 { smallFrame with overhead := [] }).wf = false
    ∧ (Instr.rxFrameDecode 0 { smallFrame with tag := [] }).wf = false
    ∧ (Instr.rxFrameDecode 0 { smallFrame with slots := [[]], jc := [0] }).wf = false
    ∧ (Instr.rxFrameDecode 0 { smallFrame with jc := [0] }).wf = false := by decide +kernel
theorem test_wf_counts : (Instr.powerQualification 0 []).wf = false ∧ (Instr.lifeRecordSecond []).wf = false := by decide +kernel
theorem test_wf_widths : (Instr.monCalComplete 0 0 (2 ^ 16) 0).wf = false ∧ (Instr.railWarning .hub .core 1001).wf = false
    ∧ (Instr.railResetLevel .hub .core 1001).wf = false ∧ (Instr.ringCiWrite 0 (2 ^ 20)).wf = false
    ∧ (Instr.commandRingDoorbell 0 (2 ^ 20) false []).wf = false ∧ (Instr.registerWrite .pcie true 0x1000 0).wf = false
    ∧ (Instr.registerWrite .pcie false 0x200000 0).wf = false := by decide +kernel

/-! ### Witnesses: a state and operands that meet the hypotheses of each statement, clause by clause -/

def isNext (r : Res) : Bool := match r with | .next _ => true | _ => false
theorem witness_StepRunsTheFront : up.pending = [] := rfl
/-- A state whose memories are canonical and whose step answers a next state. -/
theorem witness_StepKeepsMemories : { up with pending := [.lastResortKick] }.memoriesWf = true
    ∧ isNext (step { up with pending := [.lastResortKick] }) = true := by
  and_intros <;> decide +kernel
theorem witness_TickNumberMoves : keepsTn .lastResortKick = true ∧ isNext (exec .lastResortKick up) = true ∧ up.sysHeld = false
    ∧ { up with power := { up.power with sysRstLow := true } }.sysHeld = true := by
  and_intros <;> decide +kernel
def dueRealign : Realign := { kind := .force, fromSet := true, second := some 0, decided := 0, dueAt := 0 }
theorem witness_RealignmentAndDueChanges : up.realign = none
    ∧ { dueRealign with dueAt := 1 }.due up = false
    ∧ dueRealign.due up = true ∧ up.trafficLast = false ∧ up.proto.held = [] ∧ up.kennel.settings.ivGen < 65535
    ∧ dueRealign.due { up with trafficLast := true, realign := some dueRealign } = true
    ∧ up.proto.armed = [] := by
  and_intros <;> decide +kernel
theorem witness_ResetMemoriesCanonical : cellsWf 63 [(0, 62)] = true ∧ cellsWf 63 [(0, 63)] = false := by decide +kernel
/-- A tag in flight, and 1,024 tags in flight. -/
theorem witness_TagInFlight :
    let s := up.withJob (jobOf 0x200 (cmd 0 0 0 [0, 0, 1]) none)
    let c := cmd 0 0 0 []
    let full := up.modProto (fun p => { p with jobs := List.replicate 1024 (jobOf 0x200 (cmd 0 0 0 [0, 0, 1]) none) })
    c.src.isHost = true ∧ (s.visible c.src.list).isEmpty = true ∧ s.parses c.src = true ∧ s.barred c.src = false
      ∧ s.urgentElse c.src.list = false ∧ s.tagsInFlight.contains c.tag.val = true ∧ 1024 ≤ full.tagsInFlight.length ∧ full.visible c.src.list = [] := by
  decide +kernel
/-- A refused command, one refused by its own conditions, one refused by a fence, a barrier that waits, one held for a realignment,
one whose transport does not parse, an unassigned opcode with and without reserved bits, and a read counterpart. -/
theorem witness_ParsingAndRefusal :
    let c := cmd 0 0 0 []
    let busy := (up.modProto (fun p => { p with nextSeq := 1 })).withJob { jobOf 0x200 c none with ticket := { ticketOf 0x200 c 0 with tag := 9 } }
    let fenced := up.modTile 0 (fun x => { x with fenced := true })
    let realigning := { up.modEng 0 (fun g => { g with
      kTx := 2, key := { g.key with none := true }, tx := { g.tx with reason := { g.tx.reason with key := false, mgmt := true } } }) with
      realign := some dueRealign }
    let waiting := (realigning.modProto (fun p => { p with nextSeq := 1 })).hold 0x10E { cmd 1 0 0 [] with tag := 9 } 0 .realign
    parsedNow c up = true
      ∧ parseRefusal specDeviceNop (cmd 0 0 0 [0]) (up.atParse 0x000 (cmd 0 0 0 [0])) = some (.parameterLength, 1)
      ∧ parseRefusal specEngineRestore (cmd 1 0 0 []) (up.atParse 0xA01 (cmd 1 0 0 [])) = none
      ∧ ownRefusal specEngineRestore (cmd 1 0 0 []) (up.atParse 0xA01 (cmd 1 0 0 [])) = some (.mode, 0)
      ∧ specEngineLock.fence (cmd 1 0 0 []) = some 0 ∧ (fenced.tile 0).fenced = true
      ∧ rangeRefusal specEngineLock (cmd 1 0 0 []) (fenced.atParse 0x11F (cmd 1 0 0 [])) = none
      ∧ parsedNow { c with barrier := true } busy = true ∧ barrierWaits busy.proto.nextSeq busy = true
      ∧ parseRefusal specDeviceNop { c with barrier := true } (busy.atParse 0 { c with barrier := true }) = none
      ∧ parsedNow (cmd 1 0 0 []) waiting = true ∧ orderWaits 0x10E (cmd 1 0 0 []) waiting.proto.nextSeq waiting = true
      ∧ orderWaits 0x10E (cmd 1 1 0 []) waiting.proto.nextSeq waiting = false
      ∧ parsedNow (cmd 1 0 0 []) realigning = true
      ∧ ownRefusal specEngineUnmuzzle (cmd 1 0 0 []) (realigning.atParse 0x10E (cmd 1 0 0 [])) = none
      ∧ parseRefusal specEngineUnmuzzle (cmd 1 0 0 []) (realigning.atParse 0x10E (cmd 1 0 0 [])) = none
      ∧ heldBack specEngineUnmuzzle (cmd 1 0 0 []) realigning = true ∧ (cmd 1 0 0 []).tn = none
      ∧ (State.reset.visible 0).isEmpty = true ∧ State.reset.parses c.src = false
      ∧ opTable 0xFFF = none ∧ c.reserved = 0 ∧ { c with reserved := 1 }.reserved ≠ 0 := by
  and_intros <;> decide +kernel
/-- The read counterpart of EVENT_MASK_SET. -/
theorem witness_readCounterpart : ((allSpecs.find? (fun x => x.code + 128 == 0x083)).bind (·.read)).any (fun rb =>
    Ready (readSpec specEventMaskSet rb) (cmd 0 0 0 [0x10000]) up) = true := by
  and_intros <;> decide +kernel
theorem witness_EmptyWindowsReadNotValid : up.ioHeld = false ∧ up.proto.spiDead = false ∧ vget up.proto.resp 4 [] = [] ∧ up.proto.spiRespRead = 0
    ∧ up.proto.eventQueue = [] ∧ (up.modProto (fun p => { p with regs := vmod p.regs 8 (fun r => { r with enable := true }) }) |>.qreg 8).enable = true
    ∧ up.proto.spiEventRead = 0 := by
  and_intros <;> decide +kernel
/-- A head at the top of its count that advances by one. -/
def chainState : State := { up with ctr := { up.ctr with
  slots := [(0, 2 ^ 40 - 1)], heads := [0], happened := [(0, 1)] } }
theorem witness_ChainCarry : cellsWf 0 chainState.ctr.slots = true ∧ chainState.ctr.heads.contains 0 = true ∧ 0 + 1 < bwBase
    ∧ chainState.ctr.heads.contains 1 = false ∧ chainState.ctr.upper 0 = false ∧ chainState.ctr.carries = []
    ∧ cellGet chainState.ctr.slots 0 0 < 2 ^ 40 ∧ cellGet chainState.ctr.slots 1 0 < 2 ^ 40
    ∧ ((chainState.ctr.happened.filter (fun x => x.1 == 0)).map Prod.snd).sum = 1 ∧ 2 ^ 40 ≤ cellGet chainState.ctr.slots 0 0 + 1
    ∧ Ready specCtrRead (cmd 0 0 0 [0]) { chainState with ctr := chainState.ctr.accumulate } = true := by
  and_intros <;> decide +kernel

/-! ### The line side -/

theorem witness_TransmitSettings :
    Ready specEngineSynthSet (cmd 1 0 0 [up.eng 0 |>.tx.rollOff, 0, 0, 0, 0xFFFFFFB0]) up = true
    ∧ Ready specEngineTxcorrSet (cmd 1 47 0 [0, 0, 0, 0, 0, 0]) up = true ∧ Ready specEnginePreemphSwap (cmd 1 0 0 []) up = true
    ∧ Ready specEngineNlcSet (cmd 1 0 0 [0, 0]) up = true ∧ Ready specEngineNlcCoefSwap (cmd 1 0 0 []) up = true
    ∧ Ready specSpectralMapSet (cmd 0 0 0 (List.replicate 48 0)) up = true ∧ Ready specEngineMuzzle (cmd 1 0 0 []) up = true
    ∧ Ready specEngineUnmuzzle (cmd 1 0 0 []) up = true ∧ Ready specEngineMuzzleCfgSet (cmd 1 0 0 [0, 0]) up = true
    ∧ cIdx (cmd 1 47 0 []) < 48 := by
  and_intros <;> decide +kernel
theorem witness_TransmitCommandsActAtOnce :
    Ready specEnginePreemphLoad (cmd 1 0 0 (List.replicate 34 0x00010001)) up = true
    ∧ Ready specEngineMuzzleClear (cmd 1 0 0 [0]) up = true ∧ Ready specEngineNbrStatus (cmd 1 0 0 []) up = true := by
  and_intros <;> decide +kernel
def ramp (m : Muzzle) (a : Nat) : State := withEng (fun g => { g with tx := { g.tx with muzzle := m, amp := a } })
theorem witness_MuzzleRampEnd : ((ramp .rampUp 1).eng 0).tx.muzzle = .rampUp ∧ ((ramp .rampUp 1).eng 0).tx.amp = 1
    ∧ ((ramp .rampDown 0).eng 0).tx.muzzle = .rampDown ∧ ((ramp .rampDown 0).eng 0).tx.amp = 0
    ∧ (up.eng 1).tx.nbrTx.length = 4 ∧ (up.eng 1).tx.nbrRx.length = 4
    ∧ ((ramp .rampDown 1).eng 0).tx.muzzle ≠ .rampUp ∧ ((ramp .rampDown 1).eng 0).tx.amp ≠ 0 := by
  and_intros <;> decide +kernel
/-- Engine 0 in an alignment state. -/
def acqState (a : AcqState) (f : Acquisition → Acquisition) : State :=
  withEng (fun g => { g with kTx := 2, kRx := 2, acq := f { g.acq with state := a } })
def tuned : FeProfile := { squelch := none, fineTune := some { addr := 0, width := 16, scaleKhz := 1, negative := false }
                           fault := some (4, 8, 1, 1), loops := [] }
theorem witness_AcquisitionCommands :
    Ready specEngineAcqSet (cmd 1 0 0 [0, acqLayoutsWord [0], 0xFFFFFF00]) up = true ∧ cIdx (cmd 1 0 0 []) < 48
    ∧ Ready specEngineLeashSet (cmd 1 0 0 [1, 1, 1]) (withEng (fun g => { g with fe := { g.fe with profile := some tuned } })) = true
    ∧ Ready specEngineAcqStatus (cmd 1 0 0 []) up = true ∧ Ready specEngineAcqRestart (cmd 1 0 0 []) (acqState .inFrame id) = true
    ∧ ((acqState .inFrame id).eng 0).acq.state ≠ .disabled ∧ ((acqState .inFrame id).eng 0).acq.state ≠ .noSignal := by
  and_intros <;> decide +kernel
/-- The sync words of layout 0 as a detector without errors decides them. -/
def decidedSync : List (BitVec 128) := (streamsOf 0).map (fun q =>
  BitVec.ofNat 128 (((syncBits.drop (128 * q)).take 128).zipIdx.foldl (fun n x => n + b2n x.1 * 2 ^ x.2) 0))
def candidate : SyncMeas :=
  { layout := 0, position := 5, decided := decidedSync, rxPower := -100, syncPower := -100, snr := 100, coarseFo := 6000 }
/-- Decisions that match no sync word. -/
def noise : List (BitVec 128) := List.replicate 16 0
theorem witness_AlignmentTransitions :
    let s := acqState .noSignal id
    let se := acqState .search id
    let co := (acqState .confirm (fun a => { a with held := { a.held with syncPower := -200 } })).later 625000
    let fr := acqState .inFrame id
    let oo := (acqState .oof (fun a => { a with goodRun := 1 })).later 1250
    let y : Contender := { meas := candidate, offset := 7, first := true }
    let tol := effTol false (co.eng 0).acq.syncTol 0
    (List.replicate 16 (0 : Int)).length = 16 ∧ (∀ p ∈ List.replicate 16 (0 : Int), (s.eng 0).acq.minPower ≤ p)
    ∧ (s.eng 0).acq.state = .noSignal ∧ (∀ p ∈ List.replicate 16 (-999 : Int), p < (se.eng 0).acq.minPower)
    ∧ (se.eng 0).acq.state = .search ∧ (se.eng 0).bestCandidate [candidate] = some candidate ∧ (se.eng 0).bestCandidate [] = none
    ∧ (co.eng 0).acq.state = .confirm ∧ (co.eng 0).acq.noSyncRaised = false ∧ (co.eng 0).acq.searchStart + 625000 ≤ co.ticks
    ∧ (co.eng 0).goodSync y.meas = true ∧ y.first = true ∧ (co.eng 0).acq.held.syncPower + 30 ≤ y.meas.syncPower
    ∧ (co.eng 0).zr = false ∧ (co.eng 0).acq.held.layout = 0 ∧ (co.eng 0).checkErrs decidedSync ≤ tol
    ∧ tol < (co.eng 0).checkErrs noise ∧ (fr.eng 0).acq.state = .inFrame ∧ (fr.eng 0).rxLayout = 0 ∧ (fr.eng 0).acq.missRun < 3
    ∧ 3 ≤ ((acqState .inFrame (fun a => { a with missRun := 3 })).eng 0).acq.missRun
    ∧ (oo.eng 0).acq.state = .oof ∧ 1 ≤ (oo.eng 0).acq.goodRun ∧ (oo.eng 0).acq.oofEntry + 1250 ≤ oo.ticks := by
  intro s se co fr oo y tol
  and_intros <;> decide +kernel
theorem witness_FrequencyTracking :
    let a := acqState .inFrame (fun a => { a with recentre := some 100, coarseFo := 5990 })
    let b := acqState .inFrame (fun a => { a with recentre := some 100, coarseFo := 6000 })
    let l := (acqState .inFrame (fun a => { a with leash := { enable := true, gain := 1, stepMax := 1 }, offsets := [(0, 5)] })).modEng 0
      (fun g => { g with fe := { g.fe with profile := some tuned } }) |>.later 64
    (a.eng 0).acq.recentre = some 100 ∧ (a.eng 0).acq.state = .inFrame ∧ -6000 ≤ (a.eng 0).acq.coarseFo + 10 * roundDiv 100 100
    ∧ (a.eng 0).acq.coarseFo + 10 * roundDiv 100 100 ≤ 6000 ∧ 6000 < (b.eng 0).acq.coarseFo + 10 * roundDiv 100 100
    ∧ l.tn % 64 = 0 ∧ (l.eng 0).acq.leash.enable = true ∧ (l.eng 0).inFrame = true ∧ l.fenced 0 = false
    ∧ (l.eng 0).acq.offsetsBefore l.ticks ≠ [] ∧ (l.eng 0).acq.lastWrite ≠ some l.ticks ∧ (l.eng 0).fe.profile = some tuned
    ∧ tuned.fineTune = some { addr := 0, width := 16, scaleKhz := 1, negative := false } := by
  intro a b l
  and_intros <;> decide +kernel
theorem witness_EqualiserCommands :
    let fr := acqState .inFrame id
    let b : CdBank := { d := 100, centreN := 0 }
    let full := acqState .inFrame id |>.modEq 0 (fun q => { q with cdShadow := some b })
    let quick := full.modEq 0 (fun q => { q with xfade := 0 })
    let fade : Fade := { x := 8, w := 4, rising := true }
    Ready specEngineRxfeSet (cmd 1 0 0 [0, 0, 0, 0, 0]) up = true
    ∧ Ready specEngineCdSet (cmd 1 0 0 [0xFFFFFC18, 200, 0, 1000, 0, 1]) up = true
    ∧ Ready specEngineCdSwap (cmd 1 0 0 []) (full.modEq 0 (fun q => { q with cdAuto := false })) = true
    ∧ Ready specEngineEqSet (cmd 1 0 0 [0, 6, 1, 1, 0, 0]) up = true
    ∧ Ready specEngineCdLoad (cmd 1 0 0 [50000]) (fr.modEq 0 (fun q => { q with cdAuto := false })) = true
    ∧ Ready specEngineRxQuality (cmd 1 0 0 []) up = true
    ∧ (full.eng 0).eq.fade = none ∧ (full.eng 0).eq.cdShadow = some b ∧ (full.eng 0).eq.xfade ≠ 0 ∧ (quick.eng 0).eq.xfade = 0
    ∧ fade.over = false ∧ fade.rising = true ∧ { fade with rising := false }.over = false := by
  intro fr b full quick fade
  and_intros <;> decide +kernel
theorem witness_EqualiserHappenings :
    let fr := acqState .inFrame id
    let done : Fade := { x := 8, w := 9, rising := true }
    let low : Fade := { x := 8, w := 0, rising := false }
    let settled := fr.modEq 0 (fun q => { q with slewing := true, align := 64 * alignSamples q.cdActive })
    let track := fr.modEq 0 (fun q => { q with cdAuto := true, residualRun := 3 })
    done.over = true ∧ low.over = true ∧ (settled.eng 0).eq.slewing = true ∧ (settled.eng 0).eq.fade = none
    ∧ (settled.eng 0).eq.align = 64 * alignSamples (settled.eng 0).eq.cdActive
    ∧ fr.tn % 64 = 0 ∧ (fr.eng 0).inFrame = true ∧ (fr.eng 0).eq.freeze.any = false ∧ (fr.eng 0).eq.freeze.holdsCd = false
    ∧ ((fr.modEq 0 (fun q => { q with cdAuto := false })).eng 0).eq.cdAuto = false
    ∧ (track.eng 0).eq.cdAuto = true ∧ track.cdPending 0 = false ∧ (track.eng 0).eq.slewing = false
    ∧ 3 ≤ (track.eng 0).eq.residualRun ∧ (track.eng 0).eq.trackThresh < (2001 : Int).natAbs
    ∧ ((fr.modEq 0 (fun q => { q with rxFeAuto := true })).eng 0).eq.rxFeAuto = true ∧ (fr.eng 0).eq.freeze.brace = false
    ∧ (fr.eng 0).eq.lastFeUpdate = none ∧ (fr.eng 0).eq.estimatedAt ≠ some fr.ticks
    ∧ ((fr.modEq 0 (fun q => { q with freezeStart := some 0 })).eng 0).eq.freezeStart = some 0 := by
  intro fr done low settled track
  and_intros <;> decide +kernel
/-- The words of a vector of bit counts. -/
def vecWords (v : List Nat) : List Nat := (packOctets (v.map (BitVec.ofNat 8))).map BitVec.toNat
theorem witness_LoadingCommands :
    let manual := acqState .inFrame id |>.modLoad 0 (fun l => { l with mode := 1 })
    let lit := acqState .inFrame id |>.modEng 0 (fun g => { g with tx := { g.tx with muzzle := .unmuzzled } })
    let x : CapChange := { kOld := 0, kNew := 2, txDone := true, rxDone := true, accepted := false, userVec := none }
    Ready specEngineIterCapSet (cmd 1 0 0 [16]) up = true ∧ Ready specEngineLoadSet (cmd 1 0 0 [0, 62500, 625, 16, 1, 1]) up = true
    ∧ Ready specEngineLoadAnnounce (cmd 1 0 0 (2 :: vecWords (defaultVec 2 0))) manual = true
    ∧ Ready specEngineCapacitySet (cmd 1 0 0 [2]) lit = true ∧ lit.carries 0 = true ∧ (lit.eng 0).cap = none
    ∧ Ready specEngineCapacitySet (cmd 1 0 0 [2]) up = true ∧ up.carries 0 = false
    ∧ cIdx (cmd 1 0 0 [2]) < 48 ∧ ((withEng (fun g => { g with cap := some x })).eng 0).cap ≠ none
    ∧ ((withEng (fun g => { g with cap := some x })).eng 0).cap = some x ∧ x.txDone = true ∧ x.rxDone = true
    ∧ Ready specEngineProfileSet (cmd 1 0 0 [0, 0]) up = true := by
  intro manual lit x
  and_intros <;> decide +kernel
def announced (f : Announce → Announce) : Announce :=
  f { seq := 1, k := 2, vec := defaultVec 2 0, loadTn := 0, deadline := 0, firstTn := 0, accepted := false, committed := false
      why := .manual, givenTn := none, made := true }
theorem witness_LoadingExchange :
    let pol := acqState .inFrame id |>.modLoad 0 (fun l => { l with
      mode := 2, hyst := 1000, vecTx := defaultVec 2 0, whole := some (List.replicate 8 100, 1, false) })
    let uneven := pol.modLoad 0 (fun l => { l with hyst := 1, maxSteps := 1, whole := some ([400, 0, 0, 0, 0, 0, 0, 0], 1, false) })
    (pol.eng 0).load.mode = 2 ∧ pol.tn % (pol.eng 0).load.interval = 0 ∧ (pol.eng 0).load.ann = none
    ∧ (pol.eng 0).load.ranAt ≠ some pol.tn ∧ pol.recovery.headless = none ∧ pol.power.braceOn = none ∧ (pol.eng 0).zr = false
    ∧ (pol.eng 0).load.whole = some (List.replicate 8 100, 1, false)
    ∧ policySteps (pol.eng 0).txLayout 1 (pol.eng 0).load.hyst (List.replicate 8 100) (pol.eng 0).load.maxSteps
        (pol.eng 0).load.vecTx = (pol.eng 0).load.vecTx
    ∧ policySteps (uneven.eng 0).txLayout 1 (uneven.eng 0).load.hyst [400, 0, 0, 0, 0, 0, 0, 0] (uneven.eng 0).load.maxSteps
        (uneven.eng 0).load.vecTx ≠ (uneven.eng 0).load.vecTx
    ∧ (announced id).made = true ∧ (announced (fun a => { a with made := false })).made = false
    ∧ (announced (fun a => { a with made := false })).firstTn ≤ up.tn ∧ (announced id).why ≠ .abort ∧ (announced id).accepted = false ∧ (announced id).committed = false
    ∧ (announced id).deadline ≤ up.tn ∧ (announced (fun a => { a with accepted := true })).accepted = true
    ∧ (announced id).loadTn ≤ up.tn := by
  intro pol uneven
  and_intros <;> decide +kernel

/-! ### Calendar, Packs, capture, DMA, front-end bus, monitors -/

theorem witness_CalendarCommands :
    Ready specCalLoad (cmd 0 0 0 [1, 0, 1]) (withDma 8 id up) = true ∧ Ready specCalRead (cmd 0 0 1 [1, 122879, 1]) (withDma 8 id up) = true
    ∧ Ready specCalSwap (atTn 10 (cmd 0 0 0 [0, 0, 0, 0, 0])) up = true ∧ Ready specCalStatus (cmd 0 0 0 []) up = true
    ∧ cw (cmd 0 0 0 [0, 5]) 2 ≠ 0 ∧ (5 : Nat) ∉ up.cal.bad ∧ parityBad 0 = true := by
  and_intros <;> decide +kernel
def packed : State := up.modPack 0 (fun k => { k with members := [0, 1] })
theorem witness_PackCommands :
    Ready specPackSet (cmd 5 0 0 [0x0001FFFF, 0xFFFFFFFF]) up = true ∧ Ready specPackDelete (cmd 5 23 0 []) up = true
    ∧ Ready specPackStatus (cmd 5 0 0 []) up = true ∧ Ready specPackSkewSet (cmd 5 0 0 [8]) up = true
    ∧ cIdx (cmd 5 23 0 []) < 24 ∧ Ready specStoreSet (cmd 1 47 0 [16]) up = true ∧ Ready specStoreSet (cmd 5 0 0 [128]) up = true
    ∧ cKind (cmd 1 47 0 [16]) = 1 ∧ cKind (cmd 5 0 0 [16]) = 5
    ∧ Ready specPackCapacitySet (cmd 5 0 0 [2]) packed = true ∧ (packed.pack 0).members ≠ [] := by
  and_intros <;> decide +kernel
/-- Capture unit 0 in a state. -/
def capState (f : Capture → Capture) : State := up.modTile 0 (fun x => { x with capture := f x.capture })
def running (sel : Bool) (f : DmaChannel → DmaChannel) : State := withDma 4 (fun d => f { d with devSel := sel, state := .running }) up
theorem witness_CaptureCommands :
    Ready specCapSet (cmd 2 0 0 [1, 4096, 0]) up = true ∧ Ready specCapArm (cmd 2 0 0 []) up = true
    ∧ Ready specCapArm (cmd 2 0 0 []) (capState (fun c => { c with state := .done })) = true ∧ cIdx (cmd 2 11 0 []) < 12
    ∧ Ready specCapWithdraw (cmd 2 11 0 []) up = true ∧ Ready specCapStatus (cmd 2 0 0 []) up = true
    ∧ ((running true id).dc 1).devSel = true ∧ ((running true id).dc 1).tile = cIdx (cmd 2 0 0 []) ∧ ((running true id).dc 1).state = .running := by
  and_intros <;> decide +kernel
theorem witness_CaptureHappenings :
    let a := capState (fun c => { c with state := .armed, start := some 0, source := 1 })
    let b := capState (fun c => { c with state := .armed, start := some 0, source := 5 })
    let d := b.modEng 0 (fun g => { g with kRx := 2, acq := { g.acq with state := .inFrame } })
    let f := (capState (fun c => { c with state := .filling, source := 1, length := 4096 })).later 625
    (a.tile 0).capture.state = .armed ∧ (a.tile 0).capture.start = some 0 ∧ 0 ≤ a.tn
    ∧ (a.tile 0).capture.needsFrame = false
    ∧ (b.tile 0).capture.needsFrame = true
    ∧ (a.eng ((a.tile 0).capture.engine 0)).inFrame = false ∧ (d.eng 0).inFrame = true
    ∧ (f.tile 0).capture.state = .filling ∧ f.captureUnframed 0 = false
    ∧ (f.tile 0).capture.begun + (f.tile 0).capture.ticksNeeded (f.eng ((f.tile 0).capture.engine 0)).rxLayout ≤ f.ticks + 1 := by
  intro a b d f
  and_intros <;> decide +kernel
theorem witness_DmaChannels :
    let idle := withDma 4 (fun d => { d with devSel := true }) up
    let waiting := withDma 4 (fun d => { d with devSel := true, state := .waiting }) up
    let load := ((running false (fun d => { d with staged := [0, 0, 0, 0] })).withJob (jobOf 0x200 (cmd 0 0 0 [1, 0, 1]) (some 1)))
    idle.mapOpen = true ∧ waiting.mapOpen = true ∧ (running true id).mapOpen = true ∧ State.reset.mapOpen = true
    ∧ { up with power := { up.power with sysRstLow := true } }.mapOpen = false
    ∧ (idle.dc 1).devSel = true ∧ (idle.dc 1).state ≠ .waiting ∧ (idle.dc 1).state ≠ .running
    ∧ (idle.dc 1).captureOk = true ∧ ((withDma 3 (fun d => { d with devSel := true }) up).dc 1).captureOk = false
    ∧ (waiting.dc 1).state = .waiting ∧ ((running true id).dc 1).state = .running ∧ ((running true id).dc 1).devSel = true
    ∧ ((running false id).dc 1).devSel = false
    ∧ ¬((1 : Nat) = 0 ∧ load.dev.bootGo = true) ∧ load.hostToDevice 1 = true ∧ (load.dc 1).loadEnd false = some .done
    ∧ (load.dc 1).loadEnd true = some .doneWithError
    ∧ (running false id).hostToDevice 1 = false ∧ (running false id).sendEnd ((running false id).dc 1) false 4 = some .done := by
  intro idle waiting load
  and_intros <;> decide +kernel
def looping : FeProfile := { tuned with loops := [{ num := 0, width := 8, mon := 0, addr := 5, least := 0, greatest := 255, init := 0, target := 0
                                                    invert := false, shift := 0, thresh := 1, count := 1, period := 1 }] }
theorem witness_FrontEndBus :
    let p := withEng (fun g => { g with fe := { g.fe with profile := some tuned } })
    let x : FeTxn := { origin := .access 0, write := false, addr := 4, width := 8, value := 0 }
    let q := p.modFe 0 (fun f => { f with queue := [x] })
    let l := (withEng (fun g => { g with fe := { g.fe with profile := some looping, loops := [{ num := 0, written := 0, pinned := 0, lastRun := 0 }] } })
      |>.modMc 0 (fun m => { m with latest := vmod m.latest 0 (fun z => { z with doneAt := some 1 }) })).later 1
    Ready specFeProfileLoad (cmd 1 0 0 [1]) (withDma 1024 id up) = true
    ∧ Ready specFeBusAccess (cmd 1 0 0 [1, 32767, 0]) p = true ∧ (p.eng 0).fe.profile = some tuned
    ∧ (q.eng 0).fe.queue = [x] ∧ feHwDue q 0 = false ∧ q.fenced 0 = false ∧ x.write = false
    ∧ (l.eng 0).fe.profile = some looping ∧ (looping.loops.find? (fun l => l.num == 0)).isSome = true
    ∧ ((l.eng 0).fe.loops.find? (fun r => r.num == 0)).isSome = true ∧ feRuns l 0 = true
    ∧ (looping.loops.all (fun b => decide (0 + b.period ≤ l.ticks) && decide (b.least ≤ b.greatest)
        && (vget (l.mc 0).latest b.mon Latest.reset).doneAt.any (fun t => decide (l.ticks ≤ t + b.period)))) = true
    ∧ tuned.fault = some (4, 8, 1, 1) ∧ feRuns (p.later 1) 0 = true ∧ ((p.later 1).eng 0).fe.lastPoll + 1 ≤ (p.later 1).ticks
    ∧ feHwDue (p.later 1) 0 = false ∧ ((p.later 1).eng 0).fe.queue = []
    ∧ 2 % 2 ^ 8 &&& 1 = 0 ∧ 1 % 2 ^ 8 &&& 1 ≠ 0 ∧ ((p.eng 0).tx.reason.feFault = false) := by
  intro p x q l
  and_intros <;> decide +kernel
def monState (f : MonConv → MonConv) : State := up.modMc 0 f
theorem witness_MonitorCommands :
    Ready specMonSeqSet (cmd 6 0 0 (1 :: List.replicate 16 0)) up = true ∧ Ready specMonSeqStart (cmd 6 0 0 [1]) up = true
    ∧ cIdx (cmd 6 3 0 []) < 4 ∧ ((monState (fun m => { m with cal := .running 0 })).mc 0).cal = .running 0
    ∧ (up.mc 0).cal = .none ∧ Ready specMonSeqStop (cmd 6 0 0 []) up = true ∧ Ready specMonInject (cmd 6 0 0 [63]) up = true
    ∧ (up.mc 0).current = none ∧ (up.mc 0).injected = [] ∧ (up.mc 0).queue.length < 512 ∧ Ready specMonCal (cmd 6 0 0 []) up = true
    ∧ Ready specMonCorrSet (cmd 6 0 0 [63, 0, 8192]) up = true ∧ Ready specMonTestdacSet (cmd 6 0 0 [0]) up = true := by
  and_intros <;> decide +kernel
theorem witness_MonitorHappenings :
    let x : Conversion := { input := 63, step := none, toQueue := true, delayed := false, startTn := 0, ends := false, corr := (0, 16384) }
    let c := (monState (fun m => { m with cal := .running 0, current := some x, queue := [5], testDacNext := some (1, 0) })).later 1500
    let f := up.modTile 0 (fun t => { t with fenced := true })
    let i : Inject := { input := 56, held := false, delayed := true, asked := 0 }
    let h := monState (fun m => { m with current := some x, injected := [i], heldLeft := 1 })
    up.mapOpen = true ∧ c.mapOpen = true ∧ (c.mc 0).current = some x ∧ x.input < 64 ∧ sensorFenced c 0 63 = false ∧ ((List.range 64).any (fun i => sensorFenced f 0 i)) = true
    ∧ (h.mc 0).injected = [i] ∧ i.delayed = true ∧ (h.mc 0).heldLeft = 1 ∧ (h.mc 0).cal = .none ∧ (h.mc 0).queue.length + 1 < 512
    ∧ (c.mc 0).testDacNext = some (1, 0) ∧ 0 + 6 ≤ c.ticks ∧ (c.mc 0).cal = .running 0 ∧ 0 + 1500 ≤ c.ticks
    ∧ (1024 : Int).natAbs ≤ 1024 ∧ (29491 : Nat) ≤ 29491 ∧ ¬((1025 : Int).natAbs ≤ 1024) ∧ (up.mc 0).queue = [] ∧ (c.mc 0).queue = [5]
    ∧ up.tlmq.queue = [] ∧ { up with tlmq := { up.tlmq with queue := [5] } }.tlmq.queue = [5] := by
  intro x c f i h
  and_intros <;> decide +kernel
/-- Chain 0 with a source. -/
def chained (src : TlmSource) : State := up.modChain 0 (fun c => { c with cfg := { c.cfg with source := src } })
theorem witness_TelemetryChains :
    Ready specTlmChainSet (cmd 0 0 63 [0, 2, 0, 1, 0]) up = true ∧ Ready specTlmReset (cmd 0 0 0 []) up = true
    ∧ cSub (cmd 0 0 63 []) < 64 ∧ Ready specTlmCoefLoad (cmd 0 0 0 (0 :: List.replicate 32 1)) up = true
    ∧ Ready specTlmCoefSwap (cmd 0 0 0 []) (up.modChain 0 (fun c => { c with shadow := some c.active })) = true
    ∧ (up.chain 0).cfg.source = .none ∧ ((chained (.monitor 0)).chain 0).sampledAt ≠ some (chained (.monitor 0)).ticks
    ∧ ((chained (.monitor 0)).chain 0).cfg.source = .monitor 0 ∧ ((chained (.monitor 0)).chain 0).counts.length = 4
    ∧ (((chained (.monitor 0)).chain 0).counts.getD 0 0 + 1) % ((chained (.monitor 0)).chain 0).cfg.cic ≠ 0
    ∧ ((chained (.estimate 47 0)).chain 0).cfg.source = .estimate 47 0 ∧ (chained (.estimate 47 0)).tn % 64 = 0 := by
  and_intros <;> decide +kernel
/-- The worked example of chapter 17: sample 100,000 of YI, and the bursts moved when the channel is withdrawn. -/
theorem test_dma_placement :
    let d : DmaChannel := { DmaChannel.reset with devSel := true, deint := true, sext := true, lineLen := 4096, lineCount := 256
                                                  devStride := 4096, hostStride := 2048, planeStride := 524288 }
    d.hostAddr (4 * 100000 + 2) = 0x130D40 ∧ d.captureOk = true ∧ d.bursts (180 * 4096 + 3 * 512 + 512) = 739328
    ∧ d.hostWrite 4 0x80 = [(2, 0x80), (3, 0xFF)] := by
  and_intros <;> decide +kernel

/-! ### Client ports -/

theorem witness_PortCommands :
    let t := withPort (fun p => { p with state := .test })
    let w := withPort (fun p => { p with state := .up })
    Ready specPortSet (cmd 4 0 0 [1, 0, 0]) up = true ∧ Ready specPortDelete (cmd 4 0 0 []) (withPort id) = true
    ∧ Ready specPortEnable (cmd 4 0 0 []) (withPort id) = true ∧ Ready specPortDisable (cmd 4 0 0 []) w = true
    ∧ Ready specPortRestart (cmd 4 0 0 []) w = true ∧ Ready specPortTest (cmd 4 0 0 []) (withPort id) = true
    ∧ Ready specPortTrainSet (cmd 4 0 0 [0, 500, 0, 0, 0x00000080, 0, 600, 1000]) (withPort id) = true
    ∧ Ready specPortTxFfe (cmd 4 0 0 [0, 0x00000080, 0]) (withPort id) = true
    ∧ Ready specPortDefectSet (cmd 4 0 0 [42949672, 4295]) (withPort id) = true ∧ Ready specPortStatus (cmd 4 0 0 []) (withPort id) = true
    ∧ ((withPort id).port? 0).any (fun p => p.state == .disabled) = true ∧ (t.port? 0).any (fun p => p.state == .test) = true
    ∧ (w.port? 0).any (fun p => p.state != .disabled && p.state != .test) = true := by
  intro t w
  and_intros <;> decide +kernel
theorem witness_LaneCommands :
    Ready specLaneSet (cmd 3 383 0 [3, 16]) up = true ∧ Ready specLaneLoopback (cmd 3 0 0 [0]) up = true
    ∧ Ready specLanePrbsSet (cmd 3 0 0 [0, 0]) up = true ∧ cIdx (cmd 3 383 0 []) < 384 ∧ Ready specLanePrbsStatus (cmd 3 0 0 []) up = true
    ∧ Ready specHostClkSet (cmd 8 3 0 [1]) up = true ∧ cIdx (cmd 8 3 0 []) < 4 ∧ up.laneFree 383 = true
    ∧ (withPort (fun p => { p with state := .up })).laneFree 0 = false := by
  and_intros <;> decide +kernel
theorem witness_PortTraining :
    let tr := (withPort (fun p => { p with state := .training })).later (625 * 500)
    let al := (withPort (fun p => { p with state := .aligning })).later 62500
    let ho := (withPort (fun p => { p with state := .holdoff, round := { p.round with holdFor := 1 } })).later 625000
    let lo := (withPort (fun p => { p with state := .up, lossAt := some 0 })).later (625 * 1000)
    let re := (withPort (fun p => { p with state := .up, lossAt := some 0 })).later (625 * 50)
    (tr.port? 0).any (fun p => p.state == .training && decide (p.round.started + 625 * p.round.timeout ≤ tr.ticks)) = true
    ∧ (al.port? 0).any (fun p => p.state == .aligning && decide (p.round.alignStart + 62500 ≤ al.ticks)) = true
    ∧ (ho.port? 0).any (fun p => p.state == .holdoff && p.round.holdFor != 0
        && decide (p.round.holdStart + 625000 * p.round.holdFor ≤ ho.ticks)) = true
    ∧ ho.clocked 0 = true ∧ (tr.port? 0).any (fun p => decide (tr.ticks ≤ p.round.started + 625 * p.round.timeout)) = true
    ∧ (al.port? 0).any (fun p => decide (al.ticks ≤ p.round.alignStart + 62500)) = true
    ∧ (re.port? 0).any (fun p => p.state == .up && p.lossAt.all (fun x => decide (re.ticks ≤ x + 625 * p.retrainHold))) = true
    ∧ (lo.port? 0).any (fun p => p.state == .up && p.lossAt == some 0 && decide (0 + 625 * p.retrainHold ≤ lo.ticks)) = true := by
  intro tr al ho lo re
  and_intros <;> decide +kernel
/-- A PTP frame of the default profile without its FCS. -/
def ptpEther : List Octet := [0x01, 0x1B, 0x19, 0, 0, 0] ++ List.replicate 6 0 ++ [0x88, 0xF7] ++ List.replicate 46 0
theorem witness_HostSideHappenings :
    let common := { up with htiles := vmod up.htiles 0 (fun h => { h with syntonised := false, refclk := true }) }
    let lost := { up with htiles := vmod up.htiles 0 (fun h => { h with syntonised := false, refclk := false }) }
    let live := withPort (fun p => { p with
      state := .up, tap := { p.tap with ptp := true, second := up.taiSecond }
      ptp := { p.ptp with cfg := { p.ptp.cfg with profile := 2 } } })
    let fcs := octetsLE 4 (crc32 ptpEther)
    let held := live.modLane 0 (fun h => { h with shortHold := true, goodWindows := 3, checker := 1, locked := true })
    let fresh := held.modLane 0 (fun h => { h with lockedInside := true })
    let near := live.modLane 0 (fun h => { h with loopback := 1, generator := 2, checker := 2 })
    let wrong := live.modLane 0 (fun h => { h with loopback := 1, generator := 1, checker := 2 })
    (common.htile 0).refclk = true ∧ (common.htile 0).syntonised = false ∧ (lost.htile 0).refclk = false
    ∧ live.laneRuns 0 = true ∧ 0 < (live.lane 0).tdFloor * 1024 ∧ (live.lane 0).tdFloor * 1024 ≤ 131072
    ∧ ((live.lane 0).tdFloor + 1) * 1024 ≤ 131072 ∧ (held.lane 0).shortHold = true ∧ (held.lane 0).checker ≠ 0 ∧ (held.lane 0).locked = true
    ∧ (held.lane 0).lockedInside = false ∧ (fresh.lane 0).lockedInside = true ∧ (held.lane 0).loopback ≠ 2
    ∧ (near.lane 0).checker ≠ 0 ∧ (near.lane 0).locked = false ∧ near.patternHeard 0 = true ∧ wrong.patternHeard 0 = false
    ∧ (live.port? 0).any (fun p => p.state == .up && p.tap.ptp && p.tap.second == live.taiSecond
        && decide (ofClass false p.tap.accepted < 512)) = true
    ∧ (live.port? 0).any (fun p => p.tapClass ptpEther == some false) = true ∧ fcsOk ptpEther fcs = true ∧ fcsOk ptpEther [] = false
    ∧ (live.htile 0).waiting.length < 1024 ∧ (512 : Nat) ≤ ofClass false (512, 0)
    ∧ (10 : Nat) * 625 < ((626 : Nat) - 0) * 10 := by
  intro common lost live fcs held fresh near wrong
  and_intros <;> decide +kernel

/-! ### Time -/

theorem witness_TimeCommands :
    Ready specTimeStatus (cmd 0 0 0 []) up = true ∧ Ready specTimeSourceSet (cmd 0 0 0 [0, 0, 0, 0, 0]) up = true
    ∧ Ready specTimeParamSet (cmd 0 0 0 [1, 1, 0, 100, 10, 3, 0, 0, 10, 0, 0]) up = true ∧ Ready specTimeSet (cmd 0 0 0 [0, 0, 0]) up = true
    ∧ Ready specTimeUtcSet (cmd 0 0 0 [999, 0, 1, 0xFFFFFFFF]) up = true ∧ Ready specTimeOscSet (cmd 0 0 0 [100000]) up = true
    ∧ Ready specTimeEpochForce (cmd 0 0 0 []) up = true ∧ Ready specTimePpsInSet (cmd 0 0 1 [0, 0, 0, 100]) up = true
    ∧ Ready specTimePpsOutSet (cmd 0 0 3 [1, 0, 500000, 0, 0, 1]) up = true ∧ Ready specTimeTodSet (cmd 0 0 2 [9600]) up = true
    ∧ cw2 (cmd 0 0 0 [999, 0, 1, 0xFFFFFFFF]) 2 ≠ 0 ∧ up.kennel.settings.utcOffset ≠ cz (cmd 0 0 0 [999]) 1
    ∧ up.kennel.settings.epochSet = false ∧ up.anyTraffic = false
    ∧ (ramp .unmuzzled 1).anyTraffic = true := by
  and_intros <;> decide +kernel
def src0 (f : Candidate → Candidate) : Candidate :=
  f { src := .pps 0, st := .qualified, since := 0, qualifiedAt := 0, qualTime := 3, wtr := 0 }
/-- The time core selects PPS 0 in a state. -/
def timed (st : TimeState) (f : TimeCore → TimeCore) : State :=
  up.modTime (fun t => f { t with state := st, selected := some (.pps 0), candidates := [src0 id], meas := some (.pps 0, 5) })
theorem witness_TimeServo :
    let big : Int := nsUnits up.time.params.stepThresh + 1
    let a := timed .acquiring id
    let y : Candidate := { src := .pps 1, st := .qualified, since := 0, qualifiedAt := 0, qualTime := 3, wtr := 0 }
    let w := timed .locked (fun t => { t with candidates := [y, src0 id], params := { t.params with revertive := 1 } })
    let q := (timed .locked (fun t => { t with candidates := [src0 (fun x => { x with st := .qualifying })] })).later 1875000
    a.time.meas = some (.pps 0, 5) ∧ a.time.selected = some (.pps 0) ∧ a.time.state = .acquiring ∧ (timed .locked id).time.state = .locked
    ∧ nsUnits a.time.params.stepThresh < big.natAbs ∧ (a.time.mayStep = true ∨ (timed .acquiring (fun t => { t with everLocked := false })).time.mayStep = true)
    ∧ (5 : Int).natAbs ≤ nsUnits a.time.params.stepThresh ∧ (5 : Int).natAbs ≤ nsUnits a.time.params.lockPhase
    ∧ nsUnits a.time.params.lockPhase < big.natAbs ∧ 4 * nsUnits a.time.params.lockPhase < (4 * nsUnits a.time.params.lockPhase + 1)
    ∧ (timed .acquiring (fun t => { t with freq := { t.freq with ref := .free } })).time.steering ≠ .same ∧ a.time.freqLimit = false ∧ a.time.goodRun ≠ 15
    ∧ a.time.badRun ≠ 3 ∧ ((timed .locked (fun t => { t with stepDue := some 1 })).later 1).time.stepDue = some 1
    ∧ ((timed .locked (fun t => { t with stepDue := some 1 })).later 1).time.measAt < ((timed .locked (fun t => { t with stepDue := some 1 })).later 1).ticks
    ∧ q.time.candidates[0]? = some (src0 (fun x => { x with st := .qualifying }))
    ∧ q.cand? (.pps 0) = some (src0 (fun x => { x with st := .qualifying })) ∧ 0 + 3 * 625000 ≤ q.ticks
    ∧ w.time.selected = some (.pps 0) ∧ (w.time.candidates.filter (fun z => z.st == .qualified)).any (fun z => decide (z.src = .pps 0)) = true
    ∧ (w.time.candidates.takeWhile (fun z => decide (some z.src ≠ w.time.selected))).find? (fun z => z.st == .qualified
        && w.time.params.revertive == 1 && decide (z.qualifiedAt + z.wtr * 625000 ≤ w.ticks)) = some y
    ∧ (timed .holdover (fun t => { t with traceUntil := some 0 })).time.traceUntil = some 0
    ∧ ((up.modSettings (fun k => { k with leapAt := 1 })).kennel.settings.leapAt ≠ 0)
    ∧ ((1 : Int) * secondUnits ≤ ({ up with tickOffset := secondUnits } : State).nowTai)
    ∧ up.time.oscLost = false ∧ (up.modTime (fun t => { t with oscLost := true })).time.oscLost = true
    ∧ (timed .locked id).nowTai - (timed .locked id).nowTai / secondUnits * secondUnits < tickUnits
    ∧ (up.modTime (fun t => { t with relockAt := some 0 })).time.relockAt = some 0
    ∧ (up.snapAsk.later 1).time.snap.req = true ∧ (up.snapAsk.later 1).time.snap.reqAt < (up.snapAsk.later 1).ticks
    ∧ up.time.snap.req = false := by
  intro big a y w q
  and_intros <;> decide +kernel
theorem witness_PpsAndTod :
    let g := timed .locked id
    let line := (up.todLine 5).dropLast.dropLast
    let wait := (sentenceOf line).map (fun y => (y, (0 : Int)))
    let p := (timed .freerun id).modTod 0 (fun q => { q with waiting := wait, windowed := true })
    let m := { (timed .locked id).modPps 0 (fun x => { x with last := some 0 }) with tickOffset := 2 * secondUnits }
    let full := ((timed .locked id).modPps 0 (fun x => { x with last := some 0 })).modTod 0 (fun q => { q with windowed := true, baud := 460800 })
    g.gated 0 = true ∧ nsUnits (g.ppsIn 0).gate < ((secondUnits / 2 : Int) - nearestSecond (secondUnits / 2)).natAbs
    ∧ p.gated 0 = false ∧ (p.todIn 0).waiting = wait ∧ wait.isSome = true ∧ p.time.selected = some (.pps 0)
    ∧ (p.cand? (.pps 0)).any (fun x => x.st == .qualified) = true ∧ ((0 : Int) - 0).natAbs * 2 < secondUnits.natAbs
    ∧ ((timed .freerun id).todIn 0).waiting = none
    ∧ (m.ppsIn 0).last = some 0 ∧ m.gated 0 = true ∧ (m.ppsIn 0).missedAt = none
    ∧ 0 + secondUnits / 2 ≤ (m.taiAt (m.tn + 1) - nsUnits (m.ppsIn 0).gate) / secondUnits * secondUnits
    ∧ line.take 6 = ctodHead ∧ line.length ≤ 72 ∧ (sentenceOf line).isSome = true ∧ sentenceOf (ctodHead) = none
    ∧ ((timed .locked id).todIn 0).windowed = false ∧ (full.todIn 0).windowed = true ∧ (full.ppsIn 0).last ≠ none := by
  intro g line wait p m full
  and_intros <;> decide +kernel
/-- A whole second falls into the tick that begins, and the time of the ToD sentence is reached. -/
theorem witness_PpsAndTod_outputs :
    let o := vget up.time.ppsOut 0 PpsOut.reset
    let s := { up with tickOffset := secondUnits }
    let w := nearestSecond s.nowTai / secondUnits
    o.second < w ∧ s.nowTai ≤ w * secondUnits - (o.at w).cfg.delay ∧ w * secondUnits - (o.at w).cfg.delay < s.taiAt (s.tn + 1) ∧ (o.at w).cfg.enable = false
    ∧ secondUnits * 3 / 10 ≤ ({ up with tickOffset := secondUnits * 3 / 10 } : State).nowTai - 0 * secondUnits
    ∧ ({ up with tickOffset := secondUnits * 3 / 10 } : State).nowTai / secondUnits = 0
    ∧ ((0 : Int) + 1 ≠ up.time.todOut.second) := by
  intro o s w
  and_intros <;> decide +kernel

/-! ### Line time transfer, PTP -/

theorem witness_TransferCommands :
    let ok := up.modLtt 0 (fun l => { l with lastOk := true })
    Ready specLttSet (cmd 1 0 0 [1000, 100, 254, 1, 65536000, 0, 1]) up = true ∧ Ready specLttStatus (cmd 1 0 0 []) up = true
    ∧ Ready specEngineDelayCert (cmd 1 0 0 []) up = true ∧ Ready specCertDump (cmd 0 0 0 [1]) (withDma 6144 id up) = true
    ∧ Ready specAsymSet (cmd 1 0 0 [0, 0]) up = true ∧ Ready specAsymValidate (cmd 1 0 0 [1, 0, 0]) ok = true
    ∧ Ready specAsymClear (cmd 1 0 0 []) up = true ∧ Ready specRouteSet (cmd 1 0 0 [1000, 50, 10000000, 86400]) up = true
    ∧ Ready specTimeFreqRefSet (cmd 0 0 0 [0x102F0000, 1000]) up = true
    ∧ freqRefOf up (cw (cmd 0 0 0 [0x102F0000]) 1) = some (.line 47) ∧ FreqRef.line 47 ≠ up.time.freq.ref
    ∧ freqRefOf up 0 = some up.time.freq.ref := by
  intro ok
  and_intros <;> decide +kernel
theorem witness_TransferHappenings :
    let filled := (up.modLtt 0 (fun l => { l with count := l.interval, voidBefore := false })).modTime
      (fun t => { t with selected := some (.engine 0) })
    let resize := filled.modLtt 0 (fun l => { l with intervalNext := some 625 })
    let second := (up.modLtt 0 (fun l => { l with sums := { l.sums with
      ticks := 2, inFrame := 1, cdValid := 1, raw := 1, isolated := false } })).modRoute 0 (fun r => { r with asymState := .valid })
    let line := ((up.modTime (fun t => { t with freq := { t.freq with ref := .line 0, qualified := true, since := some 0 } })).modEng 0
      (fun g => { g with kRx := 2, acq := { g.acq with state := .inFrame }, rx := { g.rx with clockClass := 6 } })).later (3600 * 625000)
    (resize.ltt 0).intervalNext = some 625 ∧ resize.tn % 625 = 0 ∧ resize.tn % (resize.ltt 0).interval = 0
    ∧ resize.time.selected = some (.engine 0) ∧ (resize.ltt 0).cut = false
    ∧ filled.tn % (filled.ltt 0).interval = 0 ∧ (filled.ltt 0).intervalNext = none ∧ (filled.ltt 0).voidNow = false
    ∧ (filled.ltt 0).voidBefore = false ∧ (filled.ltt 0).cut = false ∧ (filled.ltt 0).count ≠ 0
    ∧ (filled.ltt 0).minFill * (filled.ltt 0).interval ≤ (filled.ltt 0).count * 100 ∧ filled.time.selected = some (.engine 0)
    ∧ (up.ltt 0).count = 0 ∧ second.tn % 625000 = 0 ∧ (second.ltt 0).sums.ticks ≠ 0 ∧ (second.route 0).asymState = .valid
    ∧ (second.eng 0).zr = false ∧ (second.ltt 0).sums.ticks ≤ 2 * (second.ltt 0).sums.inFrame
    ∧ (second.ltt 0).sums.cdValid ≠ 0
    ∧ line.time.freq.qualified = true ∧ line.time.freq.ref = .line 0 ∧ line.time.freq.lastLoop + 64 ≤ line.ticks
    ∧ line.freqRefOk 0 = true ∧ line.time.freq.since.getD line.ticks + line.time.params.qualTime * 625000 ≤ line.ticks
    ∧ (line.modRx 0 (fun r => { r with clockClass := 248 })).freqRefOk 0 = false := by
  intro filled resize second line
  and_intros <;> decide +kernel
/-- A PTP port in a state, its link up. -/
def ptpState (st : PtpState) (f : PtpPort → PtpPort) : State :=
  withPort (fun p => { p with
    state := .up, tap := { p.tap with ptp := true, esmc := true }
    ptp := f { p.ptp with state := st, cfg := { p.ptp.cfg with profile := 2 }, second := up.taiSecond } })
/-- A frame of a message type in domain `d`: 14 octets, then the PTP header. -/
def ptpMsg (ty flags : Nat) : List Octet :=
  List.replicate 14 0 ++ [BitVec.ofNat 8 ty, 2, 0, 44, 0, 0, BitVec.ofNat 8 flags] ++ List.replicate 37 0
theorem witness_PtpCommandsAndSending :
    let tapped := { withPort (fun p => { p with tap := { p.tap with ptp := true } }) with clockIdentity := some 1 }
    let tx := (ptpState .transmitter id).later (3600 * 625000)
    let rx := (ptpState .receiver id).later (3600 * 625000)
    let f : OutFrame := { octets := ptpMsg 1 0, stampAt := none, purpose := 3, queuedAt := 0 }
    Ready specPortTapSet (cmd 4 0 0 [1, 1, 100]) (withPort id) = true ∧ Ready specPtpClockSet (cmd 0 0 0 [0, 1]) up = true
    ∧ Ready specPtpPortSet (cmd 4 0 0 [0x02000000, 0x00808080, 0x00000103, 0, 0, 0, 1]) tapped = true
    ∧ Ready specPtpPortStatus (cmd 4 0 0 []) (withPort id) = true
    ∧ tx.ptpIs 0 .transmitter = true ∧ rx.ptpIs 0 .receiver = true ∧ (ptpState .uncalibrated id).ptpIs 0 .uncalibrated = true
    ∧ (tx.port? 0).all (fun p => decide (p.tap.queue.length < 16) && decide (p.ptp.syncAt + logTicks p.ptp.cfg.logSync ≤ tx.ticks)
        && p.ptp.room tx && decide (p.ptp.announceAt + logTicks p.ptp.cfg.logAnnounce ≤ tx.ticks)
        && decide (p.ptp.delayAt + logTicks p.ptp.cfg.logDelayReq ≤ tx.ticks) && decide (p.ptp.esmcAt + secTicks ≤ tx.ticks)) = true
    ∧ (tx.port? 0).all (fun p => { p.ptp with sentSecond := tx.taiSecond, sent := 128 }.room tx) = false ∧ tx.esmcOn 0 = true ∧ tx.txQl 0 ≠ ((ptpState .transmitter (fun p => { p with txQl := (99, 99) })).ptp 0).txQl
    ∧ tx.txQl 0 ≠ ((ptpState .transmitter (fun p => { p with eventQl := (99, 99) })).ptp 0).eventQl
    ∧ ((withPort (fun p => { p with state := .up, tap := { p.tap with queue := [f] } })).port? 0).any (fun p =>
        decide (p.tap.queue = [f]) && p.state == .up && decide (p.data.egress.length ≤ 1024)) = true := by
  intro tapped tx rx f
  and_intros <;> decide +kernel
theorem witness_PtpReception :
    let w := [(0, false, ptpMsg 0 0, (0 : Int))]
    let one := ptpState .receiver (fun p => { p with cfg := { p.cfg with domain := 0 }, parent := some {
      sender := 0, flags := 0, utcOffset := 0, prio1 := 0, quality := { clockClass := 6, accuracy := 0, variance := 0, steps := 0 }
      prio2 := 0, gm := 0, timeSource := 0 } })
    let quiet := (ptpState .listening id).later (3600 * 625000)
    let meas := (ptpState .receiver (fun p => { p with offCount := 1000, cfg := { p.cfg with meas := 0, logSync := 0, logDelayReq := 0 } })).later 625000
    takeWaiting 0 false w = (some (ptpMsg 0 0, 0), []) ∧ one.fwUp = true ∧ (one.ptp 0).cfg.profile ≠ 0 ∧ (one.ptp 0).second = one.taiSecond
    ∧ (one.ptp 0).received < 128 ∧ at_ (ptpBody (ptpMsg 0 0)) 4 1 = (one.ptp 0).cfg.domain ∧ at_ (ptpBody (ptpMsg 0 0)) 1 1 % 16 = 2
    ∧ at_ (ptpBody (ptpMsg 0 0)) 0 1 % 16 = 0 ∧ (one.ptp 0).fromParent (ptpBody (ptpMsg 0 0)) = true
    ∧ bit (at_ (ptpBody (ptpMsg 0 0)) 6 1) 1 = false ∧ bit (at_ (ptpBody (ptpMsg 0 2)) 6 1) 1 = true
    ∧ at_ (ptpBody (ptpMsg 13 0)) 0 1 % 16 ∉ [0, 1, 8, 9, 11]
    ∧ (quiet.ptp 0).state = .listening
    ∧ (quiet.ptp 0).heardAt + (quiet.ptp 0).cfg.timeout * logTicks (quiet.ptp 0).cfg.logAnnounce ≤ quiet.ticks ∧ (quiet.ptp 0).foreign = []
    ∧ (meas.ptp 0).state = .receiver ∧ (meas.ptp 0).measAt + logTicks (meas.ptp 0).cfg.meas ≤ meas.ticks ∧ (meas.ptp 0).offCount ≠ 0
    ∧ logTicks (meas.ptp 0).cfg.meas / max (logTicks (meas.ptp 0).cfg.logSync) (logTicks (meas.ptp 0).cfg.logDelayReq) ≤ 2 * (meas.ptp 0).offCount
    ∧ esmcQl (ptpMsg 0 0) = none
    ∧ esmcQl (List.replicate 14 0 ++ [0x0A, 0x00, 0x19, 0xA7, 0, 1, 0x10, 0, 0, 0, 1, 0, 4, 2]) = some (2, 0xFF)
    ∧ takeWaiting 0 true [(0, true, ptpMsg 0 0, 0)] = (some (ptpMsg 0 0, 0), []) := by
  intro w one quiet meas
  and_intros <;> decide +kernel

/-! ### Security -/

def slotKey : KeySlot := { key := List.replicate 32 0, id := 5, expiry := 1 }
def keyed (f : KeyState → KeyState) : State := withEng (fun g => { g with key := f { g.key with slots := vmod g.key.slots 0 (fun _ => some slotKey) } })
/-- Apart from KEY_LOAD, whose witness follows. -/
theorem witness_KeyCommands :
    let fr := acqState .inFrame id |>.modRx 0 (fun r => { r with lastTn := some 0, heard := true })
    Ready specEngineCryptoSet (cmd 1 0 0 [1, 1]) up = true ∧ Ready specKeyErase (cmd 1 0 3 []) up = true
    ∧ Ready specKeyTxSwitch (atTn 10 (cmd 1 0 0 [1])) up = true ∧ Ready specKeyRxSwitch (cmd 1 0 0 [1, 0, 8]) fr = true
    ∧ Ready specKeyRxFollow (cmd 1 0 0 []) up = true ∧ Ready specKeyStatus (cmd 1 0 0 []) up = true ∧ cIdx (cmd 1 47 0 []) < 48
    ∧ cw (cmd 1 0 0 [1, 1]) 1 = 1 ∧ (up.keys 0).none = false := by
  intro fr
  and_intros <;> decide +kernel
/-- The state and the command of `witness_KeyLoad`: a domain is set with a KEK of zeros, and the blob wraps 48 zeros: a key of zeros for
slot TX0 of engine 0, without expiry. -/
def enrolled : State := up.modSettings (fun k => { k with domainSet := true, kek := List.replicate 32 0 })
def keyBlob : Cmd := cmd 1 0 0 [1520946534, 3935973120, 4020175058, 1839399770, 1174196579, 3801785894, 1907001179, 3027101548, 4138602165,
  2566740357, 327864572, 2762787216, 792987146, 1240474333]
theorem witness_KeyLoad : Ready specKeyLoad keyBlob enrolled = true := by decide +kernel
theorem witness_DomainAndTestPort :
    Ready specDomainEnrol (cmd 0 0 0 (List.replicate 32 0)) up = true ∧ Ready specDomainClear (cmd 0 0 0 []) up = true
    ∧ Ready specTagCertRead (cmd 0 0 0 [1]) (withDma 4096 id up) = true ∧ Ready specAttestReport (cmd 0 0 0 (List.replicate 8 0)) up = true
    ∧ Ready specTestportChallenge (cmd 0 0 0 []) up = true ∧ { up with sec := { up.sec with signing := [(0, [])] } }.sec.signing = [(0, [])]
    ∧ ((keyed id).keys 0).slot 0 = some slotKey ∧ slotKey.expiry ≠ 0 ∧ slotKey.expiry ≤ ((keyed id).later 1).tn
    ∧ up.sec.testOpen = false ∧ { up with sec := { up.sec with testOpen := true } }.sec.testOpen = true := by
  and_intros <;> decide +kernel
/-- TESTPORT_UNLOCK is accepted when the token is valid; only the part can tell which tokens are. -/
def challenged : State := { up with sec := { up.sec with challenge := some [] } }
def token : Cmd := cmd 0 0 0 (List.replicate 24 0)
theorem unlock_refuse (c : Cmd) (s : State) (x : List Octet) (h : s.sec.challenge = some x)
    (ht : tokenValid (serialOctets ++ x) (unpackWords (c.words.drop 1)) = true) : specTestportUnlock.refuse s c = none := by
  simp only [specTestportUnlock, h, ht, if_true]
theorem witness_TestportUnlock (h : tokenValid serialOctets (List.replicate 96 0#8) = true) :
    Ready specTestportUnlock token challenged = true := by
  have h1 : (parsedNow token challenged && (parseRefusal specTestportUnlock token challenged).isNone
      && !(token.barrier && barrierWaits challenged.proto.nextSeq challenged)) = true := by decide +kernel
  have h2 : heldBack specTestportUnlock token challenged = false := by
    have h : challenged.realignHolds = false := by decide +kernel
    simp [heldBack, h]
  have h3 : rangeRefusal specTestportUnlock token (challenged.atParse specTestportUnlock.code token) = none := by decide +kernel
  have h4 : fenceRefusal specTestportUnlock token (challenged.atParse specTestportUnlock.code token) = none := by decide +kernel
  have h5 : (challenged.atParse specTestportUnlock.code token).sec.challenge = some [] := by decide +kernel
  have ha : unpackWords (token.words.drop 1) = List.replicate 96 0#8 := by decide +kernel
  have hc : specTestportUnlock.refuse (challenged.atParse specTestportUnlock.code token) token = none :=
    unlock_refuse _ _ _ h5 (by rw [List.append_nil, ha]; exact h)
  have hd : ownRefusal specTestportUnlock token (challenged.atParse specTestportUnlock.code token) = none := by
    simp only [ownRefusal, h3, h4, hc]
  simp only [Ready, h1, h2, hd]; rfl

/-! ### Overhead, frames, converters, counters -/

theorem witness_OverheadCommands :
    Ready specEngineTtiSet (cmd 1 0 0 (List.replicate 24 0)) up = true ∧ Ready specEngineTtiRead (cmd 1 0 0 []) up = true
    ∧ Ready specEngineLock (cmd 1 0 0 []) up = true ∧ Ready specEngineUnlock (cmd 1 0 0 []) up = true
    ∧ Ready specEngineSvcWrite (cmd 1 0 0 (4 :: [0])) up = true ∧ Ready specEngineSvcRead (cmd 1 0 0 [4088]) up = true
    ∧ Ready specEngineOpareaSet (cmd 1 0 0 (List.replicate 16 0)) up = true ∧ Ready specEngineOpareaRead (cmd 1 0 0 []) up = true
    ∧ Ready specEngineDefectSet (cmd 1 0 0 [62500, 64, 625, 10, 103079215, 4295, 0xFF, 3, 1]) up = true
    ∧ Ready specEngineNlcCoefLoad (cmd 1 0 0 [1, 8]) (withDma 8192 id up) = true := by
  and_intros <;> decide +kernel
/-- A frame with a bad codeword; one whose header does not check, is of another format, or is in order for an engine in CLEAR. -/
def header (format fields mode : Nat) : List Octet :=
  let h := [BitVec.ofNat 8 format, BitVec.ofNat 8 fields, BitVec.ofNat 8 mode] ++ List.replicate 11 0
  h ++ octetsBE 2 (crc16 h)
/-- A frame of capacity 2 without noise, mapped as an engine demaps it. -/
def clearFrame (h : List Octet) : RxSignal :=
  { smallFrame with vec := defaultVec 2 0, header := h, jc := List.replicate 630 0, slots := List.replicate 630 (List.replicate 128 0) }
/-- What an engine that expects it judges of such a frame. -/
def judged (g : Engine) (h : List Octet) : Verdict := g.judge 0 (g.decodeFrame (clearFrame h))
theorem witness_FrameReception :
    let r := acqState .inFrame id |>.modLoad 0 (fun l => { l with vecRx := defaultVec 2 0 })
    let s := r.modEng 0 (fun g => { g with key := { g.key with none := true } })
    (s.eng 0).heard smallFrame = smallFrame ∧ s.takesSymbols 0 = false
    ∧ (s.eng 0).kRx ≠ 0 ∧ (s.eng 0).acq.state = .inFrame ∧ (s.eng 0).load.armed = none ∧ (s.eng 0).zr = false
    ∧ judged (s.eng 0) (List.replicate 16 1) = .header ∧ judged (s.eng 0) (header 0xB2 0x20 0x80) = .format ∧ (s.eng 0).load.trial = 0
    ∧ (match judged (s.eng 0) (header 0xB1 0x20 0x80) with | .accepted _ _ => true | _ => false) = true
    ∧ judged (s.eng 0) (header 0xB1 0x20 0) = .authMode ∧ judged (r.eng 0) (header 0xB1 0x20 0) = .authEmpty
    ∧ judged ((r.modKey 0 (fun k => { k with expect := some 0 })).eng 0) (header 0xB1 0x20 0x20) = .authIndex
    ∧ ((s.modEng 0 (fun g => { g with zr := true })).eng 0).zr = true ∧ (up.eng 0).kRx = 0
    ∧ { RxSignal.clean smallFrame with badWords := 1 }.badWords ≠ 0
    ∧ ((up.modDefect 0 (fun d => { d with sf := some (0, 0) })).eng 0).defect.sf = some (0, 0)
    ∧ ((up.modPack 0 (fun k => { k with psf := some (0, 0) })).pack 0).psf = some (0, 0) := by
  intro r s
  and_intros <;> decide +kernel
theorem witness_ConverterCommands :
    let spare := up.modConv 0 (fun k => k.modPool (cmdUnit (cmd 1 0 0 [5])) (fun p => { p with retired := [5] }))
    Ready specConvStatus (cmd 1 0 0 [0]) up = true ∧ Ready specConvCalRead (cmd 1 0 0 [1]) (withDma 50192 id up) = true
    ∧ Ready specConvCalLoad (cmd 1 0 0 [1]) (withDma 50192 id up) = true ∧ Ready specConvCalFactory (cmd 1 0 0 []) up = true
    ∧ Ready specConvRetireCmd (cmd 1 0 0 [103]) up = true ∧ Ready specConvRestore (cmd 1 0 0 [5]) spare = true
    ∧ Ready specConvCalSet (cmd 1 0 0 [0, 0, 125, 1]) up = true := by
  intro spare
  and_intros <;> decide +kernel
def retired : Retirement := { engine := 0, place := 0, unit := 0, reason := 2, replacedBy := 0, poh := 0, restored := false }
theorem witness_CalibrationHappenings :
    let e := (up.modConv 0 (fun k => { k with ended := some (63, true, false), applyAt := some 64 })).later 64
    (e.eng 0).conv.ended = some (63, true, false) ∧ e.tn = 63 + 1 ∧ e.tn % 64 = 0 ∧ (e.later 65).tn % 64 ≠ 0
    ∧ (e.eng 0).conv.applyAt = some 64 ∧ up.power.braceEffect = false ∧ (e.later 63).ticks < 64
    ∧ (up.modKennel (fun k => { k with retireQueue := [retired] })).kennel.retireQueue = [retired]
    ∧ up.kennel.life.retirements.length < 256 ∧ 256 ≤ (List.replicate 256 retired).length ∧ up.kennel.retireQueue = [] := by
  intro e
  and_intros <;> decide +kernel
theorem witness_CounterCommands :
    let headed := { up with ctr := { up.ctr with heads := [4] } }
    Ready specCtrRead (cmd 0 0 0 [24575]) up = true ∧ Ready specCtrChainSet (cmd 0 0 0 [4, 1]) up = true
    ∧ Ready specCtrFilterSet (cmd 0 0 0 [0, 0, 0, 0]) up = true ∧ Ready specCtrBwSet (cmd 0 0 0 [383, 6250000]) up = true
    ∧ Ready specCtrSnapshot (atTn 10 (cmd 0 0 0 [])) up = true ∧ Ready specCtrDump (cmd 0 0 1 [1, 24575, 1]) (withDma 16 id up) = true
    ∧ Ready specCtrIndex (cmd 9 0 0 [0]) up = true ∧ up.imageDumps = []
    ∧ ((withDma 16 (fun d => { d with state := .running }) up).withJob (jobOf 0x805 (cmd 0 0 0 [1, 0, 1]) (some 1))).imageDumps ≠ []
    ∧ cw (cmd 0 0 0 [4, 1]) 2 = 1 ∧ up.ctr.heads.contains 4 = false ∧ cw (cmd 0 0 0 [4, 0]) 2 = 0 ∧ headed.ctr.heads.contains 4 = true := by
  intro headed
  and_intros <;> decide +kernel
theorem witness_CounterHappenings :
    let s := ((withPort id).setBw 0 { (up.bwOf 0) with start := some 0 }).later 625000
    up.pathOpen .pcie = true ∧ up.pathOpen .spi = true ∧ State.reset.pathOpen .firmware = false
    ∧ (s.port? 0).isSome = true ∧ cellsWf 0 s.ctr.slots = true ∧ s.tn % (s.bwOf 0).window = 0 ∧ (s.bwOf 0).start ≠ some s.tn
    ∧ (s.bwOf 0).start ≠ none ∧ up.port? 0 = none ∧ up.ctr.upper 7 = false ∧ up.ctr.carries = [] ∧ cellGet up.ctr.slots 7 0 < 2 ^ 40 := by
  intro s
  and_intros <;> decide +kernel

/-! ### Queues, isolation, recovery, resets, power -/

/-- A ring's register set changed. -/
def ringOf (q : Nat) (f : QueueRegs → QueueRegs) : State := up.modProto (fun p => { p with regs := vmod p.regs q f })
/-- DEVICE_NOP as two ring words: header (opcode 0, 1 word), parameter 0. -/
def anEvent : EventItem := { code := 1, prio := 0, coalesced := 0, kind := 0, index := 0, tn := 0, words := [] }
def aResp : Resp := { opcode := 0, tag := 7, issuer := 0, status := 0, final := true, detail := 0, tn := 0, words := [] }
theorem witness_QueueRegisters :
    let on := ringOf 0 (fun r => { r with enable := true })
    up.mapOpen = true ∧ on.mapOpen = true ∧ { up with power := { up.power with sysRstLow := true } }.mapOpen = false
    ∧ (up.cmdq 0).orphan = none ∧ up.proto.spi.orphan = none ∧ up.proto.spiOpen = false ∧ up.proto.spiRespRead = 0
    ∧ (up.qreg 0).enable = false ∧ (on.qreg 0).enable = true ∧ (1023 : Nat) < 2 ^ (on.qreg 0).log2 ∧ 2 ^ (on.qreg 0).log2 ≤ (1024 : Nat)
    ∧ ([] : List QWord).length = (0 + 2 ^ (on.qreg 0).log2 - (on.qreg 0).pi) % 2 ^ (on.qreg 0).log2
    ∧ ([] : List QWord).length + ((on.qreg 0).pi + 2 ^ (on.qreg 0).log2 - (on.qreg 0).ci) % 2 ^ (on.qreg 0).log2 < 2 ^ (on.qreg 0).log2
    ∧ ((on.cmdq 0).items ++ (parseWords (portSource 0) false 0 []).1).all (fun it => it.bad == none) = true
    ∧ bit (0x800A0000 : Word).toNat 31 = true ∧ bit (0x800A0000 : Word).toNat 30 = false ∧ field (0x800A0000 : Word).toNat 16 5 = 10
    ∧ field (0x80140000 : Word).toNat 16 5 = 20 ∧ bit (0 : Word).toNat 31 = false ∧ bit (0 : Word).toNat 30 = false
    ∧ on.fill 0 < (1 + 2 ^ (on.qreg 0).log2 - (on.qreg 0).ci) % 2 ^ (on.qreg 0).log2
    ∧ (0 + 2 ^ (up.qreg 8).log2 - (up.qreg 8).ci) % 2 ^ (up.qreg 8).log2 ≤ up.fill 8 := by
  intro on
  and_intros <;> decide +kernel
/-- One item of two words in a doorbell: its words parse to one good item. -/
theorem witness_doorbell_item : (parseWords (portSource 0) false 1 [(BitVec.ofNat 64 (crc16 (List.replicate 6 0)), 1)]).1.all (fun it => it.bad == none) = true := by
  decide +kernel
theorem witness_HeldItemsAndInterrupts :
    let held := up.modProto (fun p => { p with heldResp := vmod p.heldResp 4 (fun _ => [aResp]), heldEvents := [anEvent] })
    let full := (up.modProto (fun p => { p with heldResp := vmod p.heldResp 0 (fun _ => [aResp]) }))
    let drain := (ringOf 8 (fun r => { r with enable := true })).modProto (fun p => { p with eventQueue := [anEvent] })
    let def_ := (ringOf 0 (fun r => { r with deferred := true }))
    up.pathOpen .pcie = true ∧ vget held.proto.heldResp 4 [] = [aResp] ∧ held.respFits 4 aResp.size = true ∧ vget full.proto.heldResp 0 [] = [aResp]
    ∧ full.respFits 0 aResp.size = false
    ∧ held.proto.heldEvents = [anEvent] ∧ held.proto.eventQueue.length < 4096 ∧ ([] : List EventItem).any (sameSource anEvent) = false
    ∧ held.proto.mgmtResetArmed = none ∧ drain.proto.eventQueue = [anEvent] ∧ (drain.qreg 8).enable = true ∧ drain.dev.endpointUp = true
    ∧ drain.dev.d3hot = false ∧ drain.fill 8 + anEvent.size < drain.capacity 8 ∧ (up.qreg 8).enable = false
    ∧ (def_.qreg 0).deferred = true ∧ holdoffOver (def_.qreg 0) def_.ticks = true ∧ (up.qreg 0).deferred = false
    ∧ ((up.withJob (jobOf 0x200 (cmd 0 0 0 []) none)).proto.jobs.find? (fun j => j.ticket.seq == 0)).isSome = true
    ∧ up.proto.jobs.find? (fun j => j.ticket.seq == 0) = none := by
  intro held full drain def_
  and_intros <;> decide +kernel
theorem witness_SpiWindows :
    let r := up.modProto (fun p => { p with resp := vmod p.resp 4 (fun _ => [aResp]), eventQueue := [anEvent] })
    let o := up.modProto (fun p => { p with spi := { p.spi with orphan := some (0, 0) } })
    let part := up.modProto (fun p => { p with spi := { p.spi with partialWords := [(0, 0)] } })
    up.ioHeld = false ∧ r.ioHeld = false ∧ up.mapOpen = true ∧ { up with power := { up.power with inReset := [(.io, 0)] } }.ioHeld = true
    ∧ up.proto.spiDead = false ∧ vget r.proto.resp 4 [] = [aResp] ∧ r.proto.spiRespRead < aResp.octets.length
    ∧ (r.qreg 8).enable = false ∧ r.proto.eventQueue = [anEvent] ∧ r.proto.spiEventRead < anEvent.octets.length
    ∧ (up.modProto (fun p => { p with spiDead := true })).proto.spiDead = true
    ∧ up.bootOverSpi = false ∧ { up with dev := { up.dev with bootGo := true, bootSrc := 3, stage := .loading } }.bootOverSpi = true
    ∧ o.proto.spi.orphan = some (0, 0) ∧ o.proto.spi.partialWords = [] ∧ part.proto.spi.partialWords = [(0, 0)] := by
  intro r o part
  and_intros <;> decide +kernel
theorem witness_IsolationAndFencing :
    let iso := withEng (fun g => { g with iso := some { squelch := true, loopback := 0, pattern := false } })
    let down := up.modTile 11 (fun x => { x with fenced := true, power := .goingDown })
    let rise := up.modTile 11 (fun x => { x with power := .comingUp })
    Ready specEngineIsolate (cmd 1 0 0 [0, 0]) up = true ∧ Ready specEngineRestore (cmd 1 0 0 []) iso = true ∧ (iso.eng 0).iso ≠ none
    ∧ Ready specTileFence (cmd 2 11 0 []) up = true ∧ (up.tile 11).fenced = false ∧ cIdx (cmd 2 11 0 []) < 12
    ∧ Ready specTileUnfence (cmd 2 11 0 []) down = true ∧ (down.tile 11).fenced = true ∧ Ready specTileUnfence (cmd 2 11 0 []) up = true
    ∧ (down.tile 11).power = .goingDown ∧ (rise.tile 11).power = .comingUp ∧ (up.tile 11).power ≠ .goingDown ∧ (up.tile 11).power ≠ .comingUp := by
  intro iso down rise
  and_intros <;> decide +kernel
theorem witness_Watchers :
    let late := up.later 6250000
    let boot := { State.reset with dev := { State.reset.dev with stage := .running } }.later 6250000
    up.recovery.fw = .running ∧ State.reset.recovery.fw ≠ .running ∧ up.shepWatches = true
    ∧ { up with recovery := { up.recovery with shep := .stopped } }.shepWatches = false ∧ up.recovery.expired = false
    ∧ late.recovery.fwBeat + 62500 ≤ late.ticks ∧ up.ticks < up.recovery.fwBeat + 62500 ∧ boot.recovery.fw = .booting
    ∧ boot.dev.stage = .running ∧ boot.shepWatches = true ∧ boot.recovery.bootStart + 6250000 ≤ boot.ticks
    ∧ late.fwUp = true ∧ late.recovery.shepBeat + 62500 ≤ late.ticks ∧ late.sysHeld = false ∧ late.recovery.kick + 1250000 ≤ late.ticks
    ∧ (recentRestarts late.ticks late.recovery.fwRestarts).length < 3 ∧ 3 ≤ (recentRestarts 1 [0, 0, 0]).length := by
  intro late boot
  and_intros <;> decide +kernel
theorem witness_BootOfFirmware :
    let src := fun n => { State.reset with dev := { State.reset.dev with bootSrc := n } }
    let verify := { State.reset with dev := { State.reset.dev with stage := .verifying } }
    let wait := { State.reset with dev := { State.reset.dev with stage := .waitHost, bootImgLen := 8388608 } }
    let run := { State.reset with dev := { State.reset.dev with stage := .running } }
    let good : FwSlot := { valid := true, version := 1, svn := 0, length := 1, digest := [] }
    wait.mapOpen = true ∧ (src 0).recovery.fw = .booting ∧ (src 0).sysHeld = false ∧ (src 0).dev.stage = .rom ∧ (src 1).dev.bootSrc < 2 ∧ 2 ≤ (src 3).dev.bootSrc
    ∧ bootSlot (Vector.replicate 2 good) false 0 = some 0 ∧ bootSlot (Vector.replicate 2 .reset) false 0 = none
    ∧ verify.dev.stage = .verifying ∧ wait.dev.stage = .waitHost ∧ wait.dev.bootImgLen % 8 = 0 ∧ wait.dev.bootImgLen ≤ 8388608
    ∧ wait.dev.bootImgLen ≠ 0 ∧ (src 0).dev.stage ≠ .failed ∧ run.dev.stage = .running ∧ run.recovery.fw = .booting
    ∧ run.recovery.expired = false ∧ run.proto.mgmtResetArmed = none ∧ up.recovery.fw ≠ .booting := by
  intro src verify wait run good
  and_intros <;> decide +kernel
theorem witness_NoFwLoad : NoFwLoad up := fun _ h => absurd h List.not_mem_nil
theorem witness_EndpointAndMgmtResets :
    let lo := { up with power := { up.power with perstLow := true, mgmtRstLow := true } }
    up.power.perstLow = false ∧ up.sysHeld = false ∧ lo.power.perstLow = true ∧ up.dev.linkUp = true
    ∧ { up with dev := { up.dev with linkUp := false, endpointUp := false } }.dev.linkUp = false ∧ up.dev.endpointUp = true
    ∧ up.dev.d3hot = false ∧ up.power.mgmtRstLow = false ∧ lo.power.mgmtRstLow = true
    ∧ lo.power.inReset.any (fun d => d.1 == .mgmt) = false ∧ lo.recovery.shep ≠ .held := by
  intro lo
  and_intros <;> decide +kernel
theorem witness_SystemResets :
    let lo := { up with power := { up.power with sysRstLow := true } }
    up.power.sysRstLow = false ∧ lo.power.sysRstLow = true ∧ lo.power.inReset.any (fun d => d.1 == .aux) = false
    ∧ lo.kennel.settingsCrc = true ∧ lo.kennel.lifeCrc = true ∧ lo.power.mgmtRstLow = false ∧ lo.kennel.settings.ivGen < 65535 := by
  intro lo
  and_intros <;> decide +kernel
theorem witness_RailsAndDomains :
    let brace := { up with power := { up.power with braceOn := some { entry := 0, warnedAt := 0, deepest := 50 } } }
    let held := { up with power := { up.power with inReset := [(.lt 0, 0)] } }
    let later := up.later 6250
    ((List.finRange 12).all (fun k => up.watching (.lt k) .core)) = true ∧ up.watching .io .core = false ∧ (50 : Nat) ≤ 50 ∧ (100 : Nat) ≤ 100
    ∧ up.power.braceOn = none ∧ brace.power.braceOn = some { entry := 0, warnedAt := 0, deepest := 50 } ∧ brace.ticks < 0 + 31 ∧ 0 + 31 ≤ (brace.later 31).ticks ∧ up.domainHeld (.lt 0) = false
    ∧ later.power.avsLast + 6250 ≤ later.ticks ∧ later.sysHeld = false ∧ up.ticks < up.power.avsLast + 6250 ∧ up.power.vddAux = true
    ∧ (2199 : Nat) < 2200 ∧ held.power.inReset ≠ [] ∧ held.holdServed (.lt 0) 0 = false ∧ (held.later 625).holdServed (.lt 0) 0 = true
    ∧ { up with power := { up.power with inReset := [(.aux, 0)] } }.holdServed .aux 625 = true := by
  intro brace held later
  and_intros <;> decide +kernel
theorem witness_DeviceAndKennelCommands :
    let trial := { up with dev := { up.dev with bootSrc := 0 } }.modSettings (fun k => { k with trial := true })
    let slots := { up with dev := { up.dev with bootSrc := 0 }, sec := { up.sec with fw := Vector.replicate 2 { valid := true, version := 1, svn := 0, length := 1, digest := [] } } }
    Ready specDeviceNop (cmd 0 0 0 []) up = true ∧ Ready specDeviceIdentity (cmd 0 0 0 []) up = true ∧ Ready specDeviceStatus (cmd 0 0 0 []) up = true
    ∧ Ready specEventMaskSet (cmd 0 0 0 [0x00010001]) up = true ∧ Ready specFeProfileLoad (cmd 1 0 0 [1]) (withDma 1024 id up) = true
    ∧ Ready specKennelStatus (cmd 0 0 0 []) up = true ∧ Ready specLifeExport (cmd 0 0 0 [1]) (withDma 8192 id up) = true
    ∧ Ready specKennelExport (cmd 0 0 0 [1]) (withDma 4096 id up) = true
    ∧ Ready specShepherdStatus (cmd 0 0 0 []) up = true
    ∧ (Ready specFwLoad (cmd 0 0 0 [1]) (withDma 64 id slots) = true ∨ Ready specFwLoad (cmd 0 0 1 [1]) (withDma 64 id slots) = true)
    ∧ Ready specFwActivate (cmd 0 0 0 []) up = true ∧ up.power.mgmtRstLow = false ∧ up.power.inReset.any (fun d => d.1 == .mgmt) = false
    ∧ up.proto.mgmtResetArmed = none ∧ Ready specFwCommit (cmd 0 0 0 []) trial = true ∧ Ready specFwStatus (cmd 0 0 0 []) up = true := by
  intro trial slots
  and_intros <;> decide +kernel
theorem witness_LifeRecordImagesAndRegisters :
    let j := jobOf 0xB00 (cmd 0 0 1 [1]) (some 1)
    let load := (running false (fun d => { d with staged := [0, 0, 0, 0] })).withJob j
    let boot := { withDma 0 id up with dev := { up.dev with bootGo := true } }.modDc 0 (fun d => { d with state := .running })
    up.sysHeld = false ∧ up.power.vddAux = true ∧ { up with power := { up.power with vddAux := false } }.power.vddAux = false
    ∧ up.kennel.pohSeconds + 1 < 3600 ∧ 3600 ≤ (up.modKennel (fun k => { k with pohSeconds := 3599 })).kennel.pohSeconds + 1
    ∧ up.fwUp = true ∧ State.reset.fwUp = false ∧ (load.dc 1).state = .running ∧ load.hostToDevice 1 = true
    ∧ (load.dc 1).loadEnd false = some .done ∧ load.proto.jobs.find? (onChannel 1) = some j ∧ j.ticket.opcode = 0xB00
    ∧ (boot.dc 0).state = .running ∧ boot.hostToDevice 0 = true ∧ boot.dev.bootGo = true ∧ (boot.dc 0).loadEnd false = some .done
    ∧ up.pathOpen .pcie = true ∧ (0x014 : Nat) % 4 = 0 ∧ (up.qreg 8).enable = false ∧ (up.dc 15).state ≠ .waiting := by
  intro j load boot
  and_intros <;> decide +kernel
/-- The conditions of the single rows are met by the states of the witnesses of the statements about them; here a command, an
unassigned opcode, a read counterpart and a tick. -/
theorem witness_EveryRowCompletes : Ready specDeviceNop (cmd 0 0 0 []) up = true ∧ opTable 0xFFF = none ∧ up.sysHeld = false
    ∧ (allSpecs.find? (fun x => x.code + 128 == 0x083)).any (fun sp => sp.read.isSome) = true
    ∧ (up.chain 0).sampledAt ≠ some up.ticks ∧ TestIr.idcode = .idcode ∧ (up.modPower (fun p => { p with sysRstLow := false })).sysHeld = false
    ∧ (up.modPower (fun p => { p with mgmtRstLow := false })).sysHeld = false := by
  and_intros <;> decide +kernel

/-! ### Worked examples of the manual -/

/-- The sentence of ch. 10's worked example, `$CTOD,2A,1893456037,+37,0,D0,6,21,4E5D,0*2D`, as a decoded line. -/
def todLine : Option Sentence :=
  sentenceOf (("$CTOD,2A,1893456037,+37,0,D0,6,21,4E5D,0*2D".toList).map (fun c => BitVec.ofNat 8 c.toNat))
theorem test_tod_sentence :
    todLine.map (fun x => (x.sec, x.utcOff, x.leapAt, x.stat)) = some (1893456037, 37, 0, 0xD0)
      ∧ todLine.map (·.quality) = some { clockClass := 6, accuracy := 0x21, variance := 0x4E5D, steps := 0 } := by decide +kernel
/-- The same with a wrong checksum is none. -/
theorem test_tod_checksum :
    sentenceOf ((("$CTOD,2A,1893456037,+37,0,D0,6,21,4E5D,0*2C".toList).map (fun c => BitVec.ofNat 8 c.toNat))) = none := by
  decide +kernel
/-- The item of ch. 15's worked example. -/
theorem test_item_fields :
    let it := itemOf (.ring 0) [0x10D4B00110050000, 0x1014000000000000]
    it.1 = 0x10D ∧ it.2.tag = 300 ∧ it.2.urgent = true ∧ it.2.issuer = 5 ∧ it.2.words = [0x10140000] := by decide +kernel
/-- Alignments of ch. 6's worked example. -/
theorem test_alignment : alignSamples { d := 27200, centreN := -256 } = 5316 ∧ alignSamples { d := 27600, centreN := -256 } = 5394 := by
  decide +kernel
/-- RX_CD of 5316 samples: 343,626.67 ps. -/
theorem test_rx_cd_delay : rxCdDelay (64 * 5316) * 1000 / 65536 = 343626 := by decide +kernel
/-- The policy of ch. 3's worked example. -/
theorem test_policy : policySteps 0 1 3 [151, 159, 166, 168, 168, 166, 160, 154] 8 (defaultVec 8 0) = [76, 81, 82, 84, 84, 82, 81, 78] := by
  decide +kernel
/-- Capacity K = 8 (ch. 2). -/
theorem test_capacity : unitsOf 8 = 170 ∧ codedBits 8 = 3133440 ∧ grains 8 = 2520 ∧ grains 10 = 3150 := by decide +kernel
/-- Settling of ch. 16's worked example. -/
theorem test_settling : settledFrom 61 16 1 = 4 ∧ settledFrom 11 2 4 = 7 ∧ settledFrom 11 2 7 = 9 ∧ settledFrom 64 8 9 = 9 := by
  decide +kernel

/-- Power after SYS_RST_N (Table 20.5, configuration 5: 111 W) and the life of ch. 20's worked example (77,590.2 h, 18.3%). -/
theorem test_ratings : State.reset.typicalPower (fun _ => false) = 110880
    ∧ ({ LifeRecord.reset with tjHist := [(151, 100000), (152, 300000), (153, 30000), (154, 8000), (155, 300)] } : LifeRecord).equivalent 9 / 100000
      = 775901
    ∧ ({ LifeRecord.reset with tjHist := [(151, 100000), (152, 300000), (153, 30000), (154, 8000), (155, 300)] } : LifeRecord).consumedMost
      = 182995 := by
  and_intros <;> decide +kernel
/-- Weights at 97.5 °C of ch. 7's worked example: 0.3 of the 80 °C point and 0.7 of the 105 °C point. -/
theorem test_weights : calWeights 390 = [(4, 3 / 10), (5, 7 / 10)] := by decide +kernel
/-- Odd parity over each octet of an entry (R231). -/
theorem test_entry_parity : entryParity 0 = 63 ∧ entryParity 1 = 62 ∧ parityBad (63 * 2 ^ 48) = false ∧ parityBad 0 = true := by decide +kernel
/-- The sync word counts no errors, whether or not its decisions are turned and the polarisations exchanged (R155). -/
theorem test_sync_choices : freeErrs 0 decidedSync = 0 ∧ heldErrs 0 0 decidedSync = 0 ∧ 0 < heldErrs 0 0x90000000 decidedSync := by decide +kernel
/-- Table 16.1, the scales of R431 and the band of R433. -/
theorem test_monitor_inputs : monSource 2 (frontEndInput 27 3) = .frontEnd 27 3 ∧ monSource 3 55 = .board 31 ∧ monSource 1 59 = .lineSensor 5
    ∧ monSource 0 60 = .hostSensor 0 ∧ junctionOf (16 * 1600) = 0 ∧ testDacHealthy 1 56 = true ∧ testDacHealthy 1 121 = false := by
  and_intros <;> decide +kernel
end Sys2Proof.Machine
end

section
/-! What the clocks of the device show after each row (O4): a frame lemma for every operation on the state, for every row of the
operation table and for every row that is not a command. -/
-- One task for each of these many short proofs would ask for more threads than the memory limit allows at the check's stack size.
set_option Elab.async false
namespace Sys2Proof.Machine

/-! ### The clocks of the device -/

/-- What only a tick, a realignment, a reset of the device and KENNEL_RTC_UPDATE move: TN, the count of ticks, the Kennel's real-time
counter with its trim, and the queue of waiting commands. -/
structure Clocks where
  tn : Nat
  ticks : Nat
  rtc : Int
  rtcPart : Int
  rtcTrim : Int
  pending : List Instr
def State.clocks (s : State) : Clocks :=
  { tn := s.tn, ticks := s.ticks, rtc := s.kennel.rtc, rtcPart := s.kennel.rtcPart, rtcTrim := s.kennel.settings.rtcTrim
    pending := s.pending }

/-- An update of any other field of the state. -/
theorem clocks_update (s : State) (off : Int) (prov : Bool) (realign) (traffic : Bool) (engines tiles htiles lanes ports packs cal map mapCentre
    mons tlmq chains dma proto dev ctr power recovery time sec clockIdentity parityLast readWord spiReply freeCtr) :
    State.clocks { s with
      tickOffset := off, tnProvisional := prov, realign := realign, trafficLast := traffic, engines := engines, tiles := tiles
      htiles := htiles, lanes := lanes, ports := ports, packs := packs, cal := cal, map := map, mapCentre := mapCentre, mons := mons
      tlmq := tlmq, chains := chains, dma := dma, proto := proto, dev := dev, ctr := ctr, power := power, recovery := recovery
      time := time, sec := sec, clockIdentity := clockIdentity, parityLast := parityLast, readWord := readWord, spiReply := spiReply
      freeCtr := freeCtr } = s.clocks := rfl
theorem trafficLast_clocks (b : Bool) (s : State) : State.clocks { s with trafficLast := b } = s.clocks := rfl
@[simp] theorem clocks_ite {c : Prop} {_ : Decidable c} (a b : State) :
    (if c then a else b).clocks = if c then a.clocks else b.clocks := apply_ite State.clocks c a b
@[simp] theorem clocks_foldl {α : Type} {f : State → α → State} (h : ∀ s a, (f s a).clocks = s.clocks) (l : List α) (s : State) :
    (l.foldl f s).clocks = s.clocks := State.foldl_same State.clocks f h l s
@[simp] theorem State.modKennel_clocks {f : Kennel → Kennel} (s : State)
    (h : ∀ k, (f k).rtc = k.rtc ∧ (f k).rtcPart = k.rtcPart ∧ (f k).settings.rtcTrim = k.settings.rtcTrim) : (s.modKennel f).clocks = s.clocks := by
  simp [State.clocks, h]
@[simp] theorem State.modSettings_clocks {f : Settings → Settings} (s : State) (h : ∀ k, (f k).rtcTrim = k.rtcTrim) :
    (s.modSettings f).clocks = s.clocks := State.modKennel_clocks s (fun _ => ⟨rfl, rfl, h _⟩)
@[simp] theorem State.fresh_clocks (s : State) : s.fresh.2.clocks = s.clocks := by simp [State.fresh, State.clocks]
@[simp] theorem State.labelled_clocks (n) {f : State → State} (h : ∀ s, (f s).clocks = s.clocks) (s : State) : (s.labelled n f).clocks = s.clocks :=
  h (s.modCtr _)

/-- What a row answers leaves the clocks alone. -/
def KeepsClocks (s : State) (r : Res) : Prop := ∀ t, r = .next t → t.clocks = s.clocks
@[simp] theorem keepsClocks_next (s t : State) : KeepsClocks s (.next t) ↔ t.clocks = s.clocks := by simp [KeepsClocks]
@[simp] theorem keepsClocks_refused (s : State) (r : Refusal) : KeepsClocks s (.refused r) := by simp [KeepsClocks]
@[simp] theorem keepsClocks_ite (s : State) {c : Prop} {_ : Decidable c} (a b : Res) :
    KeepsClocks s (if c then a else b) ↔ if c then KeepsClocks s a else KeepsClocks s b := by
  split <;> rfl

@[simp] theorem State.modEng_clocks (i f) (s : State) : (s.modEng i f).clocks = s.clocks := by simp [State.clocks]
@[simp] theorem State.modTile_clocks (i f) (s : State) : (s.modTile i f).clocks = s.clocks := by simp [State.clocks]
@[simp] theorem State.modLane_clocks (i f) (s : State) : (s.modLane i f).clocks = s.clocks := by simp [State.clocks]
@[simp] theorem State.modHtile_clocks (i f) (s : State) : (s.modHtile i f).clocks = s.clocks := by simp [State.clocks]
@[simp] theorem State.modPort_clocks (n f) (s : State) : (s.modPort n f).clocks = s.clocks := by simp [State.clocks]
@[simp] theorem State.modPack_clocks (i f) (s : State) : (s.modPack i f).clocks = s.clocks := by simp [State.clocks]
@[simp] theorem State.modMc_clocks (i f) (s : State) : (s.modMc i f).clocks = s.clocks := by simp [State.clocks]
@[simp] theorem State.modDc_clocks (i f) (s : State) : (s.modDc i f).clocks = s.clocks := by simp [State.clocks]
@[simp] theorem State.modQreg_clocks (q f) (s : State) : (s.modQreg q f).clocks = s.clocks := by simp [State.clocks]
@[simp] theorem State.modProto_clocks (f) (s : State) : (s.modProto f).clocks = s.clocks := by simp [State.clocks]
@[simp] theorem State.modCtr_clocks (f) (s : State) : (s.modCtr f).clocks = s.clocks := by simp [State.clocks]
@[simp] theorem State.modLife_clocks (f) (s : State) : (s.modLife f).clocks = s.clocks := by simp [State.modLife]
@[simp] theorem State.modRec_clocks (f) (s : State) : (s.modRec f).clocks = s.clocks := by simp [State.clocks]
@[simp] theorem State.modPower_clocks (f) (s : State) : (s.modPower f).clocks = s.clocks := by simp [State.clocks]
@[simp] theorem State.modDev_clocks (f) (s : State) : (s.modDev f).clocks = s.clocks := by simp [State.clocks]
@[simp] theorem State.modTime_clocks (f) (s : State) : (s.modTime f).clocks = s.clocks := by simp [State.clocks]
@[simp] theorem State.happen_clocks (slot n) (s : State) : (s.happen slot n).clocks = s.clocks := by simp [State.happen]
@[simp] theorem State.count_clocks (c k idx n) (s : State) : (s.count c k idx n).clocks = s.clocks := by simp [State.count]
@[simp] theorem State.countSub_clocks (c k idx sub n) (s : State) : (s.countSub c k idx sub n).clocks = s.clocks := by simp [State.countSub]
@[simp] theorem State.signal_clocks (v) (s : State) : (s.signal v).clocks = s.clocks := by simp [State.signal]
@[simp] theorem State.signalRing_clocks (q) (s : State) : (s.signalRing q).clocks = s.clocks := by unfold State.signalRing; split <;> simp
@[simp] theorem State.advanced_clocks (q) (s : State) : (s.advanced q).clocks = s.clocks := by
  simp only [State.advanced]
  (repeat' split) <;> simp
@[simp] theorem State.modCmdq_clocks (n f) (s : State) : (s.modCmdq n f).clocks = s.clocks := by simp [State.modCmdq]
@[simp] theorem State.wmCross_clocks (q old) (s : State) : (s.wmCross q old).clocks = s.clocks := by simp [State.wmCross]
@[simp] theorem State.refreshAlert_clocks (s : State) : s.refreshAlert.clocks = s.clocks := by simp [State.refreshAlert]
@[simp] theorem State.postEvent_clocks (e) (s : State) : (s.postEvent e).clocks = s.clocks := by unfold State.postEvent; split <;> simp
@[simp] theorem State.captureNotice_clocks (kind code engine) (s : State) : (s.captureNotice kind code engine).clocks = s.clocks := by
  simp [State.captureNotice]
@[simp] theorem State.raiseAt_clocks (ev k idx ws tn) (s : State) : (s.raiseAt ev k idx ws tn).clocks = s.clocks := by simp [State.raiseAt]
@[simp] theorem State.raise_clocks (ev k idx ws) (s : State) : (s.raise ev k idx ws).clocks = s.clocks := by simp [State.raise]
@[simp] theorem State.defectChange_clocks (k idx ord now) (s : State) : (s.defectChange k idx ord now).clocks = s.clocks := by
  simp [State.defectChange]
@[simp] theorem State.lifeFull_clocks (offset) (s : State) : (s.lifeFull offset).clocks = s.clocks := by simp [State.lifeFull]
@[simp] theorem State.lifeBump_clocks (offset top n get put) (s : State) : (s.lifeBump offset top n get put).clocks = s.clocks := by
  simp [State.lifeBump]
@[simp] theorem State.lifeLeashSat_clocks (e) (s : State) : (s.lifeLeashSat e).clocks = s.clocks := by simp [State.lifeLeashSat]
@[simp] theorem State.lifeIsolation_clocks (e) (s : State) : (s.lifeIsolation e).clocks = s.clocks := by simp [State.lifeIsolation]
@[simp] theorem State.commitResp_clocks (n r) (s : State) : (s.commitResp n r).clocks = s.clocks := by simp [State.commitResp]
@[simp] theorem State.postResp_clocks (src r) (s : State) : (s.postResp src r).clocks = s.clocks := by unfold State.postResp; split <;> simp
@[simp] theorem State.respond_clocks (t final st detail tn ws) (s : State) : (s.respond t final st detail tn ws).clocks = s.clocks := by
  simp [State.respond]
@[simp] theorem State.final_clocks (t st detail ws) (s : State) : (s.final t st detail ws).clocks = s.clocks := by simp [State.final]
@[simp] theorem State.finishJobs_clocks (p st detail ws) (s : State) : (s.finishJobs p st detail ws).clocks = s.clocks := by
  simp [State.finishJobs]
@[simp] theorem State.cancelArmed_clocks (p st detail) (s : State) : (s.cancelArmed p st detail).clocks = s.clocks := by
  unfold State.cancelArmed
  refine clocks_foldl (fun s a => ?_) _ _
  (repeat' split) <;> simp
@[simp] theorem State.arm_clocks (a) (s : State) : (s.arm a).clocks = s.clocks := by simp [State.arm]

/-! ### Smiulo -/

@[simp] theorem State.badItem_clocks (q r header) (s : State) : (s.badItem q r header).clocks = s.clocks := by simp [State.badItem]
@[simp] theorem State.rewind_clocks (q r header) (s : State) : (s.rewind q r header).clocks = s.clocks := by simp [State.rewind]
/-- An effect leaves the clocks alone. -/
def Effect.Keeps : Effect → Prop
  | .now f => ∀ c s, (f c s).1.clocks = s.clocks
  | .boundary _ f => ∀ c s, (f c s).clocks = s.clocks
  | .atBoundary _ f => ∀ c s, (f c s).clocks = s.clocks
  | .silent f => ∀ c s, (f c s).clocks = s.clocks
  | .long f => ∀ j c s, (f j c s).clocks = s.clocks
/-- Whatever an opcode does leaves the clocks alone. -/
structure OpSpec.Keeps (sp : OpSpec) : Prop where
  eff : sp.eff.Keeps
  onRefuse : ∀ st c s, (sp.onRefuse st c s).clocks = s.clocks := by exact fun _ _ _ => rfl
  onAccept : ∀ c s, (sp.onAccept c s).clocks = s.clocks := by exact fun _ _ => rfl
@[simp] theorem carryOut_clocks {sp : OpSpec} (h : sp.Keeps) (c t) (s : State) : (carryOut sp c t s).clocks = s.clocks := by
  have he := h.eff
  unfold carryOut
  cases hf : sp.eff with
  | now f => rw [hf] at he; simpa [h.onAccept] using (he c _).trans (h.onAccept c s)
  | boundary cls f => cases c.tn <;> simp [h.onAccept]
  | atBoundary cls f => simp [h.onAccept]
  | silent f => rw [hf] at he; simpa [h.onAccept] using (he c _).trans (h.onAccept c s)
  | long f => rw [hf] at he; exact (he _ c _).trans (by simp [h.onAccept])
@[simp] theorem State.hold_clocks (op c seq why) (s : State) : (s.hold op c seq why).clocks = s.clocks := by simp [State.hold]
@[simp] theorem startCmd_clocks {sp : OpSpec} (h : sp.Keeps) (c t) (s : State) : (startCmd sp c t s).clocks = s.clocks := by
  unfold startCmd; split <;> simp [h, h.onRefuse]
@[simp] theorem State.countPrivilege_clocks (op src) (s : State) : (s.countPrivilege op src).clocks = s.clocks := by
  simp [State.countPrivilege]
@[simp] theorem parseCmd_clocks {spec : Option OpSpec} (h : ∀ sp, spec = some sp → sp.Keeps) (op c) (s : State) :
    (parseCmd spec op c s).clocks = s.clocks := by
  unfold parseCmd
  split
  · simp
  · cases spec with
    | none => simp
    | some sp =>
      simp only
      split <;> simp [h sp rfl]
@[simp] theorem State.setVisible_clocks (n l) (s : State) : (s.setVisible n l).clocks = s.clocks := by simp [State.setVisible]
@[simp] theorem State.takeVisible_clocks (n k) (s : State) : (s.takeVisible n k).clocks = s.clocks := by simp [State.takeVisible]
@[simp] theorem State.dropBad_clocks (n k) (s : State) : (s.dropBad n k).clocks = s.clocks := by
  induction k generalizing s with
  | zero => rfl
  | succ k ih => unfold State.dropBad; (repeat' split) <;> simp [ih]
@[simp] theorem State.ensureVisible_clocks (op c) (s : State) : (s.ensureVisible op c).clocks = s.clocks := by simp [State.ensureVisible]
@[simp] theorem runSpec_clocks {spec : Option OpSpec} (h : ∀ sp, spec = some sp → sp.Keeps) (op c) (s : State) :
    (runSpec spec op c s).clocks = s.clocks := by
  have hp : ∀ u, (parseCmd spec op c u).clocks = u.clocks := parseCmd_clocks h op c
  simp only [runSpec]
  (repeat' split) <;> simp [hp]
@[simp] theorem runOp_keeps {sp : OpSpec} (h : sp.Keeps) (c) (s : State) : KeepsClocks s (runOp sp c s) := by
  simp [runOp, h]

/-! ### CaptureDma -/

@[simp] theorem State.endChannel_clocks (c e) (s : State) : (s.endChannel c e).clocks = s.clocks := by simp [State.endChannel]
@[simp] theorem State.setSlot_clocks (c x) (s : State) : (s.setSlot c x).clocks = s.clocks := by simp [State.setSlot, State.clocks]
@[simp] theorem State.emptySlot?_clocks (hit) (s : State) : (s.emptySlot? hit).clocks = s.clocks := by simp [State.emptySlot?]
@[simp] theorem State.answerChannel_clocks (c e) (s : State) : (s.answerChannel c e).clocks = s.clocks := by
  unfold State.answerChannel
  (repeat' split) <;> simp
@[simp] theorem State.killChannels_clocks (drop) (s : State) : (s.killChannels drop).clocks = s.clocks := by
  unfold State.killChannels
  simp [↓clocks_update]
@[simp] theorem State.dropCapture_clocks (k) (s : State) : (s.dropCapture k).clocks = s.clocks := by
  unfold State.dropCapture
  simp [↓clocks_update]
@[simp] theorem State.withdrawCapture_clocks (k only why) (s : State) : (s.withdrawCapture k only why).clocks = s.clocks := by
  simp [State.withdrawCapture]
@[simp] theorem specCapSet_keeps : specCapSet.Keeps := { eff := fun _ _ => rfl }
@[simp] theorem applyCapArm_clocks (c) (s : State) : (applyCapArm c s).clocks = s.clocks := by simp [applyCapArm]
@[simp] theorem armCapture_clocks (k) (s : State) : (armCapture k s).clocks = s.clocks := by simp [armCapture]
@[simp] theorem specCapArm_keeps : specCapArm.Keeps := { eff := fun _ _ => by simp [applyCapArm_clocks], onAccept := fun _ _ => by simp [specCapArm] }
@[simp] theorem specCapWithdraw_keeps : specCapWithdraw.Keeps := { eff := by simp [specCapWithdraw, Effect.Keeps] }
@[simp] theorem specCapStatus_keeps : specCapStatus.Keeps := { eff := fun _ _ => rfl }
@[simp] theorem State.captureTick_clocks (k) (s : State) : (s.captureTick k).clocks = s.clocks := by simp [State.captureTick]
@[simp] theorem execCaptureTrigger_keeps (k) (s : State) : KeepsClocks s (execCaptureTrigger k s) := by
  unfold execCaptureTrigger
  simp [↓clocks_update]
@[simp] theorem execCaptureFillDone_keeps (k data) (s : State) : KeepsClocks s (execCaptureFillDone k data s) := by
  simp [execCaptureFillDone]
@[simp] theorem State.place_clocks (c n e) (s : State) : (s.place c n e).clocks = s.clocks := by unfold State.place; simp [↓clocks_update]
@[simp] theorem State.channelGo_clocks (c) (s : State) : (s.channelGo c).clocks = s.clocks := by simp [State.channelGo]
@[simp] theorem State.channelAbort_clocks (c) (s : State) : (s.channelAbort c).clocks = s.clocks := by simp [State.channelAbort]
@[simp] theorem execDmaGo_keeps (c) (s : State) : KeepsClocks s (execDmaGo c s) := by simp [execDmaGo]
@[simp] theorem execDmaAbort_keeps (c) (s : State) : KeepsClocks s (execDmaAbort c s) := by simp [execDmaAbort]
@[simp] theorem execDmaReadCompletion_keeps (c good data) (s : State) : KeepsClocks s (execDmaReadCompletion c good data s) := by
  simp [execDmaReadCompletion]
@[simp] theorem State.startChannel_clocks (c) (s : State) : (s.startChannel c).clocks = s.clocks := by simp [State.startChannel]
@[simp] theorem dmaEffect_clocks (x y) (z : State) : (dmaEffect x y z).clocks = z.clocks := by simp [dmaEffect]
@[simp] theorem dmaSend_clocks (f x y) (z : State) : (dmaSend f x y z).clocks = z.clocks := by simp [dmaSend]

/-! ### FrontBus -/

@[simp] theorem State.modFe_clocks (e f) (s : State) : (s.modFe e f).clocks = s.clocks := by simp [State.modFe]
@[simp] theorem State.feDrive_clocks (e t) (s : State) : (s.feDrive e t).clocks = s.clocks := by simp [State.feDrive]
@[simp] theorem State.feQueue_clocks (e t) (s : State) : (s.feQueue e t).clocks = s.clocks := by simp [State.feQueue]
@[simp] theorem State.feWrite_clocks (e addr value) (s : State) : (s.feWrite e addr value).clocks = s.clocks := by
  unfold State.feWrite
  split <;> simp
@[simp] theorem State.feSquelch_clocks (e assert) (s : State) : (s.feSquelch e assert).clocks = s.clocks := by
  unfold State.feSquelch
  split <;> simp
@[simp] theorem State.commitProfile_clocks (e p) (s : State) : (s.commitProfile e p).clocks = s.clocks := by simp [State.commitProfile]
@[simp] theorem State.feFaultRaise_clocks (e cause loop value) (s : State) : (s.feFaultRaise e cause loop value).clocks = s.clocks := by
  simp [State.feFaultRaise]
@[simp] theorem State.fePolled_clocks (e value mask) (s : State) : (s.fePolled e value mask).clocks = s.clocks := by simp [State.fePolled]
@[simp] theorem State.loopRun_clocks (e l r v) (s : State) : (s.loopRun e l r v).clocks = s.clocks := by simp [State.loopRun]
@[simp] theorem execBiasLoopRun_keeps (e num) (s : State) : KeepsClocks s (execBiasLoopRun e num s) := by
  simp only [execBiasLoopRun]
  (repeat' split) <;> simp
@[simp] theorem specFeBusAccess_keeps : specFeBusAccess.Keeps := { eff := fun j c s => by dsimp only; split <;> simp }

/-! ### Acquire -/

@[simp] theorem State.modAcq_clocks (e f) (s : State) : (s.modAcq e f).clocks = s.clocks := by simp [State.modAcq]
@[simp] theorem State.modEq_clocks (e f) (s : State) : (s.modEq e f).clocks = s.clocks := by simp [State.modEq]
@[simp] theorem State.setHeel_clocks (e heel m) (s : State) : (s.setHeel e heel m).clocks = s.clocks := by simp [State.setHeel]
@[simp] theorem State.dropCdSwap_clocks (e) (s : State) : (s.dropCdSwap e).clocks = s.clocks := by simp [State.dropCdSwap]
@[simp] theorem State.startPass_clocks (e) (s : State) : (s.startPass e).clocks = s.clocks := by simp [State.startPass]
@[simp] theorem State.alignRelease_clocks (e next) (s : State) : (s.alignRelease e next).clocks = s.clocks := by simp [State.alignRelease]
@[simp] theorem State.searchClock_clocks (e) (s : State) : (s.searchClock e).clocks = s.clocks := by simp [State.searchClock]
@[simp] theorem State.acqRestart_clocks (e) (s : State) : (s.acqRestart e).clocks = s.clocks := by simp [State.acqRestart]
@[simp] theorem execPowerQualification_keeps (e powers) (s : State) : KeepsClocks s (execPowerQualification e powers s) := by
  simp [execPowerQualification]
@[simp] theorem State.loadScan_clocks (e cd) (s : State) : (s.loadScan e cd).clocks = s.clocks := by simp [State.loadScan]
@[simp] theorem State.candidate_clocks (e m) (s : State) : (s.candidate e m).clocks = s.clocks := by simp [State.candidate]
@[simp] theorem execSearchSyncFound_keeps (e found cd) (s : State) : KeepsClocks s (execSearchSyncFound e found cd s) := by
  simp only [execSearchSyncFound]
  (repeat' split) <;> simp
@[simp] theorem execSearchPassEnd_keeps (p) (s : State) : KeepsClocks s (execSearchPassEnd p s) := by simp [execSearchPassEnd]
@[simp] theorem execAcqNoSync_keeps (e) (s : State) : KeepsClocks s (execAcqNoSync e s) := by simp [execAcqNoSync]
@[simp] theorem State.refillStores_clocks (e) (s : State) : (s.refillStores e).clocks = s.clocks := by
  simp only [State.refillStores]
  (repeat' split) <;> simp
@[simp] theorem State.enterFrame_clocks (e) (s : State) : (s.enterFrame e).clocks = s.clocks := by simp [State.enterFrame]
@[simp] theorem State.examined_clocks (e x) (s : State) : (s.examined e x).clocks = s.clocks := by simp [State.examined]
@[simp] theorem State.contest_clocks (e x) (s : State) : (s.contest e x).clocks = s.clocks := by unfold State.contest; split <;> simp
@[simp] theorem State.confirmCheck_clocks (e errs x) (s : State) : (s.confirmCheck e errs x).clocks = s.clocks := by
  simp only [State.confirmCheck]
  (repeat' split) <;> simp
@[simp] theorem State.heldCheck_clocks (e good) (s : State) : (s.heldCheck e good).clocks = s.clocks := by
  unfold State.heldCheck
  split <;> simp
@[simp] theorem State.frameCheck_clocks (e errs x phase) (s : State) : (s.frameCheck e errs x phase).clocks = s.clocks := by
  unfold State.frameCheck
  split <;> simp
@[simp] theorem execRxSyncCheck_keeps (e seen x) (s : State) : KeepsClocks s (execRxSyncCheck e seen x s) := by
  simp only [execRxSyncCheck]
  (repeat' split) <;> simp
@[simp] theorem execOofTimerExpiry_keeps (e) (s : State) : KeepsClocks s (execOofTimerExpiry e s) := by simp [execOofTimerExpiry]
@[simp] theorem execFreqRecentre_keeps (e) (s : State) : KeepsClocks s (execFreqRecentre e s) := by
  simp only [execFreqRecentre]
  (repeat' split) <;> simp
@[simp] theorem State.residualSeen_clocks (e r) (s : State) : (s.residualSeen e r).clocks = s.clocks := by simp [State.residualSeen]
@[simp] theorem State.leashWrite_clocks (e m p) (s : State) : (s.leashWrite e m p).clocks = s.clocks := by simp [State.leashWrite]
@[simp] theorem execLeashWriteInstant_keeps (e) (s : State) : KeepsClocks s (execLeashWriteInstant e s) := by
  simp only [execLeashWriteInstant]
  (repeat' split) <;> simp
@[simp] theorem State.leashInstant_clocks (e) (s : State) : (s.leashInstant e).clocks = s.clocks := by
  unfold State.leashInstant
  split <;> simp
@[simp] theorem specEngineAcqSet_keeps : specEngineAcqSet.Keeps := { eff := fun _ _ => rfl }
@[simp] theorem specEngineAcqRestart_keeps : specEngineAcqRestart.Keeps := { eff := by simp [specEngineAcqRestart, Effect.Keeps] }
@[simp] theorem specEngineAcqStatus_keeps : specEngineAcqStatus.Keeps := { eff := fun _ _ => rfl }
@[simp] theorem specEngineLeashSet_keeps : specEngineLeashSet.Keeps := { eff := fun _ _ => rfl }

/-! ### Calendar -/

@[simp] theorem State.modCal_clocks (f) (s : State) : (s.modCal f).clocks = s.clocks := by simp [State.modCal, State.clocks]
@[simp] theorem State.preGuardStep_clocks (s : State) : s.preGuardStep.clocks = s.clocks := by simp [State.preGuardStep]
@[simp] theorem applyCalSwapWith_clocks {flush : Nat → State → State} (h : ∀ n s, (flush n s).clocks = s.clocks) (c) (s : State) :
    (applyCalSwapWith flush c s).clocks = s.clocks := by simp [applyCalSwapWith, h]
@[simp] theorem specCalStatus_keeps : specCalStatus.Keeps := { eff := fun _ _ => rfl }
@[simp] theorem execShadowScrubPass_keeps (read) (s : State) : KeepsClocks s (execShadowScrubPass read s) := by simp [execShadowScrubPass]
@[simp] theorem State.calParitySeen_clocks (read) (s : State) : (s.calParitySeen read).clocks = s.clocks := by simp [State.calParitySeen]

/-! ### Loading -/

@[simp] theorem State.modLoad_clocks (e f) (s : State) : (s.modLoad e f).clocks = s.clocks := by simp [State.modLoad]
@[simp] theorem State.announceAt_clocks (e k vec why given) (s : State) : (s.announceAt e k vec why given).clocks = s.clocks := by
  simp [State.announceAt]
@[simp] theorem State.announce_clocks (e k vec why) (s : State) : (s.announce e k vec why).clocks = s.clocks := by simp [State.announce]
@[simp] theorem State.abortAnn_clocks (e cause) (s : State) : (s.abortAnn e cause).clocks = s.clocks := by
  unfold State.abortAnn
  split <;> simp
@[simp] theorem State.packCapacityCheck_clocks (e) (s : State) : (s.packCapacityCheck e).clocks = s.clocks := by
  refine clocks_foldl (fun s p => ?_) _ _
  simp only
  (repeat' split) <;> simp
@[simp] theorem State.capacityCheck_clocks (e) (s : State) : (s.capacityCheck e).clocks = s.clocks := by
  unfold State.capacityCheck
  split <;> simp
@[simp] theorem State.loadTxSwitch_clocks (e a) (s : State) : (s.loadTxSwitch e a).clocks = s.clocks := by simp [State.loadTxSwitch]
@[simp] theorem State.loadRxSwitch_clocks (e a) (s : State) : (s.loadRxSwitch e a).clocks = s.clocks := by simp [State.loadRxSwitch]
@[simp] theorem execLoadAckDeadline_keeps (e) (s : State) : KeepsClocks s (execLoadAckDeadline e s) := by
  unfold execLoadAckDeadline
  split <;> simp
@[simp] theorem execLoadTxSwitch_keeps (e) (s : State) : KeepsClocks s (execLoadTxSwitch e s) := by unfold execLoadTxSwitch; split <;> simp
@[simp] theorem execLoadPolicyRun_keeps (e) (s : State) : KeepsClocks s (execLoadPolicyRun e s) := by
  simp only [execLoadPolicyRun]
  (repeat' split) <;> simp
@[simp] theorem specEngineIterCapSet_keeps : specEngineIterCapSet.Keeps := { eff := fun _ _ => rfl }
@[simp] theorem specEngineLoadSet_keeps : specEngineLoadSet.Keeps := { eff := fun _ _ => rfl }
@[simp] theorem specEngineLoadAnnounce_keeps : specEngineLoadAnnounce.Keeps := { eff := by simp [specEngineLoadAnnounce, Effect.Keeps] }
@[simp] theorem State.dropSvc_clocks (e) (s : State) : (s.dropSvc e).clocks = s.clocks := by simp [State.dropSvc]
@[simp] theorem State.dropAnn_clocks (e) (s : State) : (s.dropAnn e).clocks = s.clocks := by simp [State.dropAnn]
@[simp] theorem State.setCapacity_clocks (e k) (s : State) : (s.setCapacity e k).clocks = s.clocks := by simp [State.setCapacity]
@[simp] theorem State.startCapacity_clocks (e k given tag) (s : State) : (s.startCapacity e k given tag).clocks = s.clocks := by
  simp [State.startCapacity]
@[simp] theorem applyCapacity_clocks (c) (s : State) : (applyCapacity c s).clocks = s.clocks := by simp [applyCapacity]
@[simp] theorem specEngineCapacitySet_keeps : specEngineCapacitySet.Keeps := { eff := by simp [specEngineCapacitySet, Effect.Keeps] }
@[simp] theorem specEngineProfileSet_keeps : specEngineProfileSet.Keeps := { eff := by simp [specEngineProfileSet, Effect.Keeps] }
@[simp] theorem State.iterCapStep_clocks (e) (s : State) : (s.iterCapStep e).clocks = s.clocks := by simp [State.iterCapStep]

/-! ### Fabric -/

@[simp] theorem State.countGrains_clocks (rx k idx gs) (s : State) : (s.countGrains rx k idx gs).clocks = s.clocks := by
  simp [State.countGrains]
@[simp] theorem State.countEntry_clocks (rx i) (s : State) : (s.countEntry rx i).clocks = s.clocks := by simp [State.countEntry]
@[simp] theorem State.modData_clocks (n f) (s : State) : (s.modData n f).clocks = s.clocks := by simp [State.modData]
@[simp] theorem State.mapClient_clocks (n arrived dead) (s : State) : (s.mapClient n arrived dead).clocks = s.clocks := by
  unfold State.mapClient
  split <;> simp
@[simp] theorem State.hubTx_clocks (e dead) (s : State) : (s.hubTx e dead).clocks = s.clocks := by simp [State.hubTx]
@[simp] theorem State.modStore_clocks (k i f) (s : State) : (s.modStore k i f).clocks = s.clocks := by simp [State.modStore]
@[simp] theorem State.flushClient_clocks (port) (s : State) : (s.flushClient port).clocks = s.clocks := by
  simp [State.flushClient, State.clocks]
@[simp] theorem State.storeFrame_clocks (k i slots carried) (s : State) : (s.storeFrame k i slots carried).clocks = s.clocks := by
  simp [State.storeFrame]
@[simp] theorem State.countOutput_clocks (k i port jcs) (s : State) : (s.countOutput k i port jcs).clocks = s.clocks := by
  simp [State.countOutput]
@[simp] theorem State.storeOutput_clocks (k i dead) (s : State) : (s.storeOutput k i dead).clocks = s.clocks := by
  refine (clocks_foldl (fun s q => ?_) _ _).trans (by simp)
  simp only
  (repeat' split) <;> simp
@[simp] theorem State.storeReport_clocks (k i out) (s : State) : (s.storeReport k i out).clocks = s.clocks := by simp [State.storeReport]
@[simp] theorem State.packArrive_clocks (p part carried) (s : State) : (s.packArrive p part carried).clocks = s.clocks := by
  unfold State.packArrive
  split <;> simp
@[simp] theorem State.packRelease_clocks (p) (s : State) : (s.packRelease p).clocks = s.clocks := by simp [State.packRelease]
@[simp] theorem State.packSecond_clocks (p) (s : State) : (s.packSecond p).clocks = s.clocks := by simp [State.packSecond]
@[simp] theorem State.parityFail_clocks (loc idx n) (s : State) : (s.parityFail loc idx n).clocks = s.clocks := by
  unfold State.parityFail
  simp [↓clocks_update]
@[simp] theorem specCalLoad_keeps : specCalLoad.Keeps := { eff := by simp [specCalLoad, Effect.Keeps] }
@[simp] theorem specCalRead_keeps : specCalRead.Keeps := { eff := by simp [specCalRead, Effect.Keeps] }
@[simp] theorem applyCalSwap_clocks (c) (s : State) : (applyCalSwap c s).clocks = s.clocks := by simp [applyCalSwap]
@[simp] theorem specCalSwap_keeps : specCalSwap.Keeps := { eff := by simp [specCalSwap, Effect.Keeps] }
@[simp] theorem specPackSet_keeps : specPackSet.Keeps := { eff := fun _ _ => rfl }
@[simp] theorem State.clearPackDefects_clocks (p) (s : State) : (s.clearPackDefects p).clocks = s.clocks := by simp [State.clearPackDefects]
@[simp] theorem specPackDelete_keeps : specPackDelete.Keeps := { eff := by simp [specPackDelete, Effect.Keeps] }
@[simp] theorem specPackCapacitySet_keeps : specPackCapacitySet.Keeps := { eff := by simp [specPackCapacitySet, Effect.Keeps] }
@[simp] theorem specPackSkewSet_keeps : specPackSkewSet.Keeps := { eff := fun _ _ => rfl }
@[simp] theorem specPackStatus_keeps : specPackStatus.Keeps := { eff := fun _ _ => rfl }
@[simp] theorem specStoreSet_keeps : specStoreSet.Keeps := { eff := by simp [specStoreSet, Effect.Keeps] }

/-! ### Counting -/

@[simp] theorem State.setBw_clocks (p w) (s : State) : (s.setBw p w).clocks = s.clocks := by simp [State.setBw]
@[simp] theorem State.bwCount_clocks (p ingress egress) (s : State) : (s.bwCount p ingress egress).clocks = s.clocks := by
  simp [State.bwCount]
@[simp] theorem State.bwBoundary_clocks (p) (s : State) : (s.bwBoundary p).clocks = s.clocks := by
  simp only [State.bwBoundary]
  (repeat' split) <;> simp
@[simp] theorem State.bwDiscard_clocks (p) (s : State) : (s.bwDiscard p).clocks = s.clocks := by simp [State.bwDiscard]
@[simp] theorem execBandwidthWindowEnd_keeps (port) (s : State) : KeepsClocks s (execBandwidthWindowEnd port s) := by
  simp [execBandwidthWindowEnd]
@[simp] theorem State.countClasses_clocks (s : State) : s.countClasses.clocks = s.clocks := by simp [State.countClasses]
@[simp] theorem State.countFrame_clocks (egress p cls) (s : State) : (s.countFrame egress p cls).clocks = s.clocks := by
  simp [State.countFrame]
@[simp] theorem State.comeDue_clocks (x) (s : State) : (s.comeDue x).clocks = s.clocks := by unfold State.comeDue; (repeat' split) <;> simp
@[simp] theorem State.comeIn_clocks (s : State) : s.comeIn.clocks = s.clocks := by simp [State.comeIn]
@[simp] theorem State.expect_clocks (ahead l) (s : State) : (s.expect ahead l).clocks = s.clocks := by simp [State.expect]
@[simp] theorem State.imageReadable_clocks (m) (s : State) : (s.imageReadable m).clocks = s.clocks := by simp [State.imageReadable]
@[simp] theorem applySnapshot_clocks (x) (s : State) : (applySnapshot x s).clocks = s.clocks := by simp [applySnapshot]
@[simp] theorem State.dumpOver_clocks (s : State) : s.dumpOver.clocks = s.clocks := by unfold State.dumpOver; split <;> simp
@[simp] theorem execCounterV0Read_keeps (path slot) (s : State) : KeepsClocks s (execCounterV0Read path slot s) := by
  unfold execCounterV0Read
  simp [↓clocks_update]
@[simp] theorem specCtrRead_keeps : specCtrRead.Keeps := { eff := fun _ _ => rfl }
@[simp] theorem applyChain_clocks (c) (s : State) : (applyChain c s).clocks = s.clocks := by simp [applyChain]
@[simp] theorem specCtrChainSet_keeps : specCtrChainSet.Keeps := { eff := by simp [specCtrChainSet, Effect.Keeps] }
@[simp] theorem specCtrFilterSet_keeps : specCtrFilterSet.Keeps := { eff := fun _ _ => rfl }
@[simp] theorem specCtrBwSet_keeps : specCtrBwSet.Keeps := { eff := fun _ _ => rfl }
@[simp] theorem specCtrSnapshot_keeps : specCtrSnapshot.Keeps := { eff := by simp [specCtrSnapshot, Effect.Keeps] }
@[simp] theorem State.dumpMore_clocks (c n) (s : State) : (s.dumpMore c n).clocks = s.clocks := by unfold State.dumpMore; split <;> simp
@[simp] theorem State.dumpTick_clocks (c) (s : State) : (s.dumpTick c).clocks = s.clocks := by simp [State.dumpTick]
@[simp] theorem State.dumpRest_clocks (c) (s : State) : (s.dumpRest c).clocks = s.clocks := by simp [State.dumpRest]
@[simp] theorem specCtrDump_keeps : specCtrDump.Keeps := { eff := by simp [specCtrDump, Effect.Keeps] }
@[simp] theorem specCtrIndex_keeps : specCtrIndex.Keeps := { eff := fun _ _ => rfl }

/-! ### Ports -/

@[simp] theorem State.stopDiagnostics_clocks (low) (s : State) : (s.stopDiagnostics low).clocks = s.clocks := by
  unfold State.stopDiagnostics
  split <;> simp
@[simp] theorem State.laneFreeze_clocks (l r) (s : State) : (s.laneFreeze l r).clocks = s.clocks := by simp [State.laneFreeze]
@[simp] theorem State.laneThaw_clocks (l ofBrace) (s : State) : (s.laneThaw l ofBrace).clocks = s.clocks := by simp [State.laneThaw]
@[simp] theorem State.laneStart_clocks (l) (s : State) : (s.laneStart l).clocks = s.clocks := by simp [State.laneStart]
@[simp] theorem State.diagnose_clocks (l f) (s : State) : (s.diagnose l f).clocks = s.clocks := by simp [State.diagnose]
@[simp] theorem State.enterHoldoff_clocks (low) (s : State) : (s.enterHoldoff low).clocks = s.clocks := by simp [State.enterHoldoff]
@[simp] theorem State.startRound_clocks (low) (s : State) : (s.startRound low).clocks = s.clocks := by
  unfold State.startRound
  (repeat' split) <;> simp
@[simp] theorem State.trainResult_clocks (low outcome) (s : State) : (s.trainResult low outcome).clocks = s.clocks := by
  unfold State.trainResult
  (repeat' split) <;> simp
@[simp] theorem State.endRound_clocks (low) (s : State) : (s.endRound low).clocks = s.clocks := by simp [State.endRound]
@[simp] theorem State.attemptFails_clocks (low cause lane) (s : State) : (s.attemptFails low cause lane).clocks = s.clocks := by
  unfold State.attemptFails
  (repeat' split) <;> simp
@[simp] theorem execTrainTimeoutExpiry_keeps (port silent slow) (s : State) : KeepsClocks s (execTrainTimeoutExpiry port silent slow s) := by
  unfold execTrainTimeoutExpiry
  (repeat' split) <;> simp
@[simp] theorem execPartnerLostTimer_keeps (port lane) (s : State) : KeepsClocks s (execPartnerLostTimer port lane s) := by
  unfold execPartnerLostTimer
  split <;> simp
@[simp] theorem execLinkTrainingComplete_keeps (x) (s : State) : KeepsClocks s (execLinkTrainingComplete x s) := by
  unfold execLinkTrainingComplete
  split <;> simp
@[simp] theorem execAlignTimeout_keeps (port lane) (s : State) : KeepsClocks s (execAlignTimeout port lane s) := by
  unfold execAlignTimeout
  split <;> simp
@[simp] theorem execPcsAligned_keeps (port) (s : State) : KeepsClocks s (execPcsAligned port s) := by unfold execPcsAligned; split <;> simp
@[simp] theorem execTrainHoldoffExpiry_keeps (port) (s : State) : KeepsClocks s (execTrainHoldoffExpiry port s) := by
  unfold execTrainHoldoffExpiry
  split <;> simp
@[simp] theorem execPcsAlignmentLoss_keeps (port signal) (s : State) : KeepsClocks s (execPcsAlignmentLoss port signal s) := by
  unfold execPcsAlignmentLoss
  split <;> simp
@[simp] theorem execRetrainHoldExpiry_keeps (port) (s : State) : KeepsClocks s (execRetrainHoldExpiry port s) := by
  unfold execRetrainHoldExpiry
  split <;> simp
@[simp] theorem execHostRefclkLoss_keeps (t) (s : State) : KeepsClocks s (execHostRefclkLoss t s) := by simp [execHostRefclkLoss]
@[simp] theorem execHostRefclkOk_keeps (t) (s : State) : KeepsClocks s (execHostRefclkOk t s) := by simp [execHostRefclkOk]
@[simp] theorem State.reclock_clocks (l) (s : State) : (s.reclock l).clocks = s.clocks := by simp [State.reclock]
@[simp] theorem applyHostClk_clocks (c) (s : State) : (applyHostClk c s).clocks = s.clocks := by simp [applyHostClk]
@[simp] theorem specHostClkSet_keeps : specHostClkSet.Keeps := { eff := by simp [specHostClkSet, Effect.Keeps] }
@[simp] theorem execHlAdaptWindowEnd_keeps (l changes w) (s : State) : KeepsClocks s (execHlAdaptWindowEnd l changes w s) := by
  unfold execHlAdaptWindowEnd
  split <;> simp
@[simp] theorem specLaneSet_keeps : specLaneSet.Keeps := { eff := fun _ _ => rfl }
@[simp] theorem setDiagnostics_clocks (f c) (s : State) : (setDiagnostics f c s).clocks = s.clocks := by simp [setDiagnostics]
@[simp] theorem specLaneLoopback_keeps : specLaneLoopback.Keeps := { eff := by simp [specLaneLoopback, Effect.Keeps] }
@[simp] theorem specLanePrbsSet_keeps : specLanePrbsSet.Keeps := { eff := by simp [specLanePrbsSet, Effect.Keeps] }
@[simp] theorem specLanePrbsStatus_keeps : specLanePrbsStatus.Keeps := { eff := fun _ _ => rfl }
@[simp] theorem execPrbsCheckerLock_keeps (l) (s : State) : KeepsClocks s (execPrbsCheckerLock l s) := by simp [execPrbsCheckerLock]
@[simp] theorem execPrbsCheckWindow_keeps (l symbols bits) (s : State) : KeepsClocks s (execPrbsCheckWindow l symbols bits s) := by
  simp [execPrbsCheckWindow]
@[simp] theorem specPortSet_keeps : specPortSet.Keeps := { eff := fun _ _ => rfl }
@[simp] theorem specPortDelete_keeps : specPortDelete.Keeps := { eff := fun c s => by simp [↓clocks_update] }
@[simp] theorem applyPortEnable_clocks (c) (s : State) : (applyPortEnable c s).clocks = s.clocks := by
  unfold applyPortEnable
  split <;> simp
@[simp] theorem State.dropPortChange_clocks (c) (s : State) : (s.dropPortChange c).clocks = s.clocks := by simp [State.dropPortChange]
@[simp] theorem specPortEnable_keeps : specPortEnable.Keeps := { eff := by simp [specPortEnable, Effect.Keeps] }
@[simp] theorem specPortDisable_keeps : specPortDisable.Keeps := { eff := by simp [specPortDisable, Effect.Keeps] }
@[simp] theorem specPortRestart_keeps : specPortRestart.Keeps := { eff := by simp [specPortRestart, Effect.Keeps] }
@[simp] theorem applyPortTest_clocks (c) (s : State) : (applyPortTest c s).clocks = s.clocks := by unfold applyPortTest; split <;> simp
@[simp] theorem specPortTest_keeps : specPortTest.Keeps := { eff := by simp [specPortTest, Effect.Keeps] }
@[simp] theorem specPortTrainSet_keeps : specPortTrainSet.Keeps := { eff := fun _ _ => rfl }
@[simp] theorem specPortTxFfe_keeps : specPortTxFfe.Keeps := { eff := fun _ _ => rfl }
@[simp] theorem specPortDefectSet_keeps : specPortDefectSet.Keeps := { eff := fun _ _ => rfl }
@[simp] theorem specPortStatus_keeps : specPortStatus.Keeps := { eff := fun c s => by dsimp only; split <;> simp }
@[simp] theorem State.tapDrop_clocks (port esmc) (s : State) : (s.tapDrop port esmc).clocks = s.clocks := by simp [State.tapDrop]
@[simp] theorem State.tapSecond_clocks (port) (s : State) : (s.tapSecond port).clocks = s.clocks := by
  unfold State.tapSecond
  split <;> simp
@[simp] theorem execTapFrameRx_keeps (port octets fcs blocks sub) (s : State) : KeepsClocks s (execTapFrameRx port octets fcs blocks sub s) := by
  unfold execTapFrameRx
  (repeat' split) <;> simp
@[simp] theorem State.tapQueue_clocks (port f) (s : State) : (s.tapQueue port f).clocks = s.clocks := by simp [State.tapQueue]
@[simp] theorem execTapInsertTimeout_keeps (port) (s : State) : KeepsClocks s (execTapInsertTimeout port s) := by
  unfold execTapInsertTimeout
  (repeat' split) <;> simp

/-! ### TimeCore -/

@[simp] theorem State.refreshTrace_clocks (s : State) : s.refreshTrace.clocks = s.clocks := by simp [State.refreshTrace, State.clocks]
@[simp] theorem State.epochInPlace_clocks (s : State) : s.epochInPlace.clocks = s.clocks := by
  unfold State.epochInPlace
  simp [↓clocks_update]
@[simp] theorem State.epochAtLock_clocks (first) (s : State) : (s.epochAtLock first).clocks = s.clocks := by
  unfold State.epochAtLock
  (repeat' split) <;> simp [↓clocks_update]
@[simp] theorem State.timeTo_clocks (st) (s : State) : (s.timeTo st).clocks = s.clocks := by unfold State.timeTo; simp [↓clocks_update]
@[simp] theorem State.modCand_clocks (x f) (s : State) : (s.modCand x f).clocks = s.clocks := by simp [State.modCand]
@[simp] theorem State.keepSteps_clocks (s : State) : s.keepSteps.clocks = s.clocks := by simp [State.keepSteps]
@[simp] theorem State.selectSource_clocks (x) (s : State) : (s.selectSource x).clocks = s.clocks := by
  unfold State.selectSource
  split <;> simp
@[simp] theorem State.reselect_clocks (s : State) : s.reselect.clocks = s.clocks := by simp only [State.reselect]; (repeat' split) <;> simp
@[simp] theorem State.qualify_clocks (x st why) (s : State) : (s.qualify x st why).clocks = s.clocks := by
  unfold State.qualify
  split <;> simp
@[simp] theorem State.disqualify_clocks (x why) (s : State) : (s.disqualify x why).clocks = s.clocks := by simp [State.disqualify]
@[simp] theorem State.restartCand_clocks (x) (s : State) : (s.restartCand x).clocks = s.clocks := by
  unfold State.restartCand
  split <;> simp
@[simp] theorem State.breakCand_clocks (x) (s : State) : (s.breakCand x).clocks = s.clocks := by simp [State.breakCand]
@[simp] theorem State.meets_clocks (x) (s : State) : (s.meets x).clocks = s.clocks := by unfold State.meets; split <;> simp
@[simp] theorem execSourceQualified_keeps (i) (s : State) : KeepsClocks s (execSourceQualified i s) := by
  unfold execSourceQualified
  split <;> simp
@[simp] theorem execWtrExpiry_keeps (s : State) : KeepsClocks s (execWtrExpiry s) := by simp [execWtrExpiry]
@[simp] theorem State.utcTo_clocks (off dir leapAt origin) (s : State) : (s.utcTo off dir leapAt origin).clocks = s.clocks := by
  simp [State.utcTo]
@[simp] theorem State.leapDue_clocks (s : State) : s.leapDue.clocks = s.clocks := by simp [State.leapDue]
@[simp] theorem execLeapApplied_keeps (s : State) : KeepsClocks s (execLeapApplied s) := by simp [execLeapApplied]
@[simp] theorem State.utcFrom_clocks (x off dir leapAt origin) (s : State) : (s.utcFrom x off dir leapAt origin).clocks = s.clocks := by
  simp [State.utcFrom]
@[simp] theorem State.slewStep_clocks (s : State) : s.slewStep.clocks = s.clocks := by unfold State.slewStep; simp [↓clocks_update]
@[simp] theorem State.freqStep_clocks (s : State) : s.freqStep.clocks = s.clocks := by unfold State.freqStep; simp [↓clocks_update]
@[simp] theorem State.freqJudge_clocks (interval) (s : State) : (s.freqJudge interval).clocks = s.clocks := by simp [State.freqJudge]
@[simp] theorem State.stepBy_clocks (d) (s : State) : (s.stepBy d).clocks = s.clocks := by unfold State.stepBy; simp [↓clocks_update]
@[simp] theorem State.stepNow_clocks (s : State) : s.stepNow.clocks = s.clocks := by unfold State.stepNow; split <;> simp
@[simp] theorem execTimeStep_keeps (s : State) : KeepsClocks s (execTimeStep s) := by simp [execTimeStep]
@[simp] theorem execTimeMeasurement_keeps (s : State) : KeepsClocks s (execTimeMeasurement s) := by
  unfold execTimeMeasurement
  split <;> simp
@[simp] theorem execHoldoverTraceExpiry_keeps (s : State) : KeepsClocks s (execHoldoverTraceExpiry s) := by simp [execHoldoverTraceExpiry]
@[simp] theorem State.modPps_clocks (n f) (s : State) : (s.modPps n f).clocks = s.clocks := by simp [State.modPps]
@[simp] theorem State.modTod_clocks (n f) (s : State) : (s.modTod n f).clocks = s.clocks := by simp [State.modTod]
@[simp] theorem execPpsInPulse_keeps (n sub) (s : State) : KeepsClocks s (execPpsInPulse n sub s) := by
  simp only [execPpsInPulse]
  (repeat' split) <;> simp
@[simp] theorem execPpsMissing_keeps (n) (s : State) : KeepsClocks s (execPpsMissing n s) := by
  simp only [execPpsMissing]
  (repeat' split) <;> simp
@[simp] theorem execTodSentenceRx_keeps (n line sub) (s : State) : KeepsClocks s (execTodSentenceRx n line sub s) := by
  unfold execTodSentenceRx
  (repeat' split) <;> simp
@[simp] theorem execPpsOutPulse_keeps (n) (s : State) : KeepsClocks s (execPpsOutPulse n s) := by simp [execPpsOutPulse]
@[simp] theorem execTodOutSentence_keeps (s : State) : KeepsClocks s (execTodOutSentence s) := by simp [execTodOutSentence]
@[simp] theorem execOscLoss_keeps (s : State) : KeepsClocks s (execOscLoss s) := by simp [execOscLoss]
@[simp] theorem execOscOk_keeps (s : State) : KeepsClocks s (execOscOk s) := by simp [execOscOk]
@[simp] theorem execOscRelockDone_keeps (s : State) : KeepsClocks s (execOscRelockDone s) := by simp [execOscRelockDone]
@[simp] theorem State.snapAsk_clocks (s : State) : s.snapAsk.clocks = s.clocks := by simp [State.snapAsk]
@[simp] theorem execTimeSnapReq_keeps (s : State) : KeepsClocks s (execTimeSnapReq s) := by simp [execTimeSnapReq]
@[simp] theorem execTimeSnapshotCapture_keeps (s : State) : KeepsClocks s (execTimeSnapshotCapture s) := by simp [execTimeSnapshotCapture]
@[simp] theorem specTimeStatus_keeps : specTimeStatus.Keeps := { eff := fun _ _ => rfl }
@[simp] theorem specTimeSourceSet_keeps : specTimeSourceSet.Keeps := { eff := fun c s => by dsimp only; split <;> simp }
@[simp] theorem specTimeParamSet_keeps : specTimeParamSet.Keeps := { eff := fun _ _ => rfl }
@[simp] theorem specTimeSet_keeps : specTimeSet.Keeps := { eff := by simp [specTimeSet, Effect.Keeps] }
@[simp] theorem specTimeUtcSet_keeps : specTimeUtcSet.Keeps := { eff := by simp [specTimeUtcSet, Effect.Keeps] }
@[simp] theorem specTimeOscSet_keeps : specTimeOscSet.Keeps := { eff := by simp [specTimeOscSet, Effect.Keeps] }
@[simp] theorem specTimeEpochForce_keeps : specTimeEpochForce.Keeps := { eff := fun c s => by dsimp only; split <;> simp [↓clocks_update] }
@[simp] theorem specTimePpsInSet_keeps : specTimePpsInSet.Keeps := { eff := fun _ _ => rfl }
@[simp] theorem specTimePpsOutSet_keeps : specTimePpsOutSet.Keeps := { eff := fun _ _ => rfl }
@[simp] theorem specTimeTodSet_keeps : specTimeTodSet.Keeps := { eff := fun c s => by dsimp only; split <;> simp }

/-! ### Security -/

@[simp] theorem State.modKey_clocks (e f) (s : State) : (s.modKey e f).clocks = s.clocks := by simp [State.modKey]
@[simp] theorem State.emptySlot_clocks (e i why) (s : State) : (s.emptySlot e i why).clocks = s.clocks := by simp [State.emptySlot]
@[simp] theorem State.emptySlots_clocks (e l why) (s : State) : (s.emptySlots e l why).clocks = s.clocks := by simp [State.emptySlots]
@[simp] theorem State.emptyAll_clocks (why) (s : State) : (s.emptyAll why).clocks = s.clocks := by simp [State.emptyAll]
@[simp] theorem State.domainClear_clocks (why) (s : State) : (s.domainClear why).clocks = s.clocks := by simp [State.domainClear]
@[simp] theorem State.expireSlot_clocks (e i) (s : State) : (s.expireSlot e i).clocks = s.clocks := by
  unfold State.expireSlot
  split <;> simp
@[simp] theorem execKeyExpiry_keeps (e slot) (s : State) : KeepsClocks s (execKeyExpiry e slot s) := by simp [execKeyExpiry]
@[simp] theorem specEngineCryptoSet_keeps : specEngineCryptoSet.Keeps := { eff := by simp [specEngineCryptoSet, Effect.Keeps] }
@[simp] theorem specKeyLoad_keeps : specKeyLoad.Keeps where
  eff := fun c s => by dsimp only; split <;> simp
  onRefuse := by simp [specKeyLoad]
@[simp] theorem specKeyErase_keeps : specKeyErase.Keeps := { eff := by simp [specKeyErase, Effect.Keeps] }
@[simp] theorem specKeyTxSwitch_keeps : specKeyTxSwitch.Keeps := { eff := by simp [specKeyTxSwitch, Effect.Keeps] }
@[simp] theorem specKeyRxSwitch_keeps : specKeyRxSwitch.Keeps := { eff := by simp [specKeyRxSwitch, Effect.Keeps] }
@[simp] theorem specKeyRxFollow_keeps : specKeyRxFollow.Keeps := { eff := fun _ _ => rfl }
@[simp] theorem specKeyStatus_keeps : specKeyStatus.Keeps := { eff := fun _ _ => rfl }
@[simp] theorem State.beginSigning_clocks (j words) (s : State) : (s.beginSigning j words).clocks = s.clocks := by
  unfold State.beginSigning
  simp [↓clocks_update]
@[simp] theorem execTagSignatureDone_keeps (s : State) : KeepsClocks s (execTagSignatureDone s) := by
  unfold execTagSignatureDone
  (repeat' split) <;> simp [↓clocks_update]
@[simp] theorem specDomainEnrol_keeps : specDomainEnrol.Keeps := { eff := fun c s => by simp [↓clocks_update] }
@[simp] theorem specDomainClear_keeps : specDomainClear.Keeps := { eff := by simp [specDomainClear, Effect.Keeps] }
@[simp] theorem specTagCertRead_keeps : specTagCertRead.Keeps := { eff := by simp [specTagCertRead, Effect.Keeps] }
@[simp] theorem specAttestReport_keeps : specAttestReport.Keeps := { eff := fun c s => by simp [↓clocks_update] }
@[simp] theorem specTestportChallenge_keeps : specTestportChallenge.Keeps := { eff := fun _ _ => rfl }
@[simp] theorem specTestportUnlock_keeps : specTestportUnlock.Keeps where
  eff := fun j c s => (State.final_clocks ..).trans ((State.raise_clocks ..).trans
    ((clocks_update (s.domainClear .testPort) ..).trans (State.domainClear_clocks ..)))
  onRefuse := fun st c s => by
    show State.clocks (if st == .tokenInvalid then _ else _) = _
    simp
@[simp] theorem execTestportInstruction_keeps (ir) (s : State) : KeepsClocks s (execTestportInstruction ir s) := by
  unfold execTestportInstruction
  split <;> simp

/-! ### Equalise -/

@[simp] theorem State.cdSwapDone_clocks (e reversed) (s : State) : (s.cdSwapDone e reversed).clocks = s.clocks := by simp [State.cdSwapDone]
@[simp] theorem State.cdSwapEnd_clocks (e reversed) (s : State) : (s.cdSwapEnd e reversed).clocks = s.clocks := by simp [State.cdSwapEnd]
@[simp] theorem applyCdSwap_clocks (c) (s : State) : (applyCdSwap c s).clocks = s.clocks := by
  simp only [applyCdSwap]
  (repeat' split) <;> simp
@[simp] theorem execCdSwapDone_keeps (e) (s : State) : KeepsClocks s (execCdSwapDone e s) := by unfold execCdSwapDone; split <;> simp
@[simp] theorem execCdDelaySettled_keeps (e) (s : State) : KeepsClocks s (execCdDelaySettled e s) := by simp [execCdDelaySettled]
@[simp] theorem execCdFilterReady_keeps (e) (s : State) : KeepsClocks s (execCdFilterReady e s) := by
  unfold execCdFilterReady
  split <;> simp
@[simp] theorem execCdTrackEstimate_keeps (e residual) (s : State) : KeepsClocks s (execCdTrackEstimate e residual s) := by
  simp [execCdTrackEstimate]
@[simp] theorem execEstimatorUpdate_keeps (e m) (s : State) : KeepsClocks s (execEstimatorUpdate e m s) := by simp [execEstimatorUpdate]
@[simp] theorem execRxFeAutoUpdate_keeps (e m) (s : State) : KeepsClocks s (execRxFeAutoUpdate e m s) := by simp [execRxFeAutoUpdate]
@[simp] theorem State.freezeStep_clocks (e noClock pilotOnly) (s : State) : (s.freezeStep e noClock pilotOnly).clocks = s.clocks := by
  simp [State.freezeStep]
@[simp] theorem execRxThaw_keeps (e) (s : State) : KeepsClocks s (execRxThaw e s) := by simp only [execRxThaw]; (repeat' split) <;> simp
@[simp] theorem State.recentreTaps_clocks (e) (s : State) : (s.recentreTaps e).clocks = s.clocks := by simp [State.recentreTaps]
@[simp] theorem State.receiverSeen_clocks (e o) (s : State) : (s.receiverSeen e o).clocks = s.clocks := by
  unfold State.receiverSeen
  split <;> simp
@[simp] theorem applyRxfe_clocks (c) (s : State) : (applyRxfe c s).clocks = s.clocks := by simp [applyRxfe]
@[simp] theorem specEngineRxfeSet_keeps : specEngineRxfeSet.Keeps := { eff := by simp [specEngineRxfeSet, Effect.Keeps] }
@[simp] theorem specEngineCdSet_keeps : specEngineCdSet.Keeps := { eff := fun _ _ => rfl }
@[simp] theorem specEngineCdLoad_keeps : specEngineCdLoad.Keeps := { eff := by simp [specEngineCdLoad, Effect.Keeps] }
@[simp] theorem specEngineCdSwap_keeps : specEngineCdSwap.Keeps := { eff := by simp [specEngineCdSwap, Effect.Keeps] }
@[simp] theorem specEngineEqSet_keeps : specEngineEqSet.Keeps := { eff := fun _ _ => rfl }
@[simp] theorem specEngineRxQuality_keeps : specEngineRxQuality.Keeps := { eff := fun _ _ => rfl }

/-! ### Transmit -/

@[simp] theorem State.modTx_clocks (e f) (s : State) : (s.modTx e f).clocks = s.clocks := by simp [State.modTx]
@[simp] theorem specEngineSynthSet_keeps : specEngineSynthSet.Keeps := { eff := fun _ _ => rfl }
@[simp] theorem specEngineTxcorrSet_keeps : specEngineTxcorrSet.Keeps := { eff := fun _ _ => rfl }
@[simp] theorem specEnginePreemphLoad_keeps : specEnginePreemphLoad.Keeps := { eff := fun _ _ => rfl }
@[simp] theorem specEnginePreemphSwap_keeps : specEnginePreemphSwap.Keeps := { eff := fun _ _ => rfl }
@[simp] theorem specEngineNlcSet_keeps : specEngineNlcSet.Keeps := { eff := fun _ _ => rfl }
@[simp] theorem specEngineNlcCoefLoad_keeps : specEngineNlcCoefLoad.Keeps := { eff := by simp [specEngineNlcCoefLoad, Effect.Keeps] }
@[simp] theorem specEngineNlcCoefSwap_keeps : specEngineNlcCoefSwap.Keeps := { eff := fun _ _ => rfl }
@[simp] theorem applyMap_clocks (c) (s : State) : (applyMap c s).clocks = s.clocks := by simp [applyMap, State.clocks]
@[simp] theorem specSpectralMapSet_keeps : specSpectralMapSet.Keeps := { eff := by simp [specSpectralMapSet, Effect.Keeps] }
@[simp] theorem State.nbrStep_clocks (a) (s : State) : (s.nbrStep a).clocks = s.clocks := by simp [State.nbrStep]
@[simp] theorem specEngineNbrStatus_keeps : specEngineNbrStatus.Keeps := { eff := fun _ _ => rfl }
@[simp] theorem State.neighbourAid_clocks (e) (s : State) : (s.neighbourAid e).clocks = s.clocks := by simp [State.neighbourAid]
@[simp] theorem State.clipSeen_clocks (e n) (s : State) : (s.clipSeen e n).clocks = s.clocks := by simp [State.clipSeen]
@[simp] theorem State.muzzleTo_clocks (e m amp) (s : State) : (s.muzzleTo e m amp).clocks = s.clocks := by
  unfold State.muzzleTo
  split <;> simp
@[simp] theorem State.muzzleStep_clocks (e) (s : State) : (s.muzzleStep e).clocks = s.clocks := by simp [State.muzzleStep]
@[simp] theorem State.nbrAll_clocks (s : State) : s.nbrAll.clocks = s.clocks := by simp [State.nbrAll]
@[simp] theorem execMuzzleRampEnd_keeps (e) (s : State) : KeepsClocks s (execMuzzleRampEnd e s) := by simp [execMuzzleRampEnd]
@[simp] theorem specEngineMuzzle_keeps : specEngineMuzzle.Keeps := { eff := fun _ _ => rfl }
@[simp] theorem specEngineUnmuzzle_keeps : specEngineUnmuzzle.Keeps := { eff := fun _ _ => rfl }
@[simp] theorem specEngineMuzzleClear_keeps : specEngineMuzzleClear.Keeps := { eff := fun _ _ => rfl }
@[simp] theorem specEngineMuzzleCfgSet_keeps : specEngineMuzzleCfgSet.Keeps := { eff := fun _ _ => rfl }

/-! ### Transfer -/

@[simp] theorem State.modLtt_clocks (e f) (s : State) : (s.modLtt e f).clocks = s.clocks := by simp [State.modLtt]
@[simp] theorem State.modRoute_clocks (e f) (s : State) : (s.modRoute e f).clocks = s.clocks := by simp [State.modRoute]
@[simp] theorem State.farStep_clocks (e d tn) (s : State) : (s.farStep e d tn).clocks = s.clocks := by simp [State.farStep]
@[simp] theorem State.farCheck_clocks (e tn txTime jump) (s : State) : (s.farCheck e tn txTime jump).clocks = s.clocks := by
  simp only [State.farCheck]
  (repeat' split) <;> simp
@[simp] theorem State.rawOffset_clocks (e echoTn t2 t3 t4) (s : State) : (s.rawOffset e echoTn t2 t3 t4).clocks = s.clocks := by
  simp only [State.rawOffset]
  (repeat' split) <;> simp
@[simp] theorem State.noteSent_clocks (e tn t) (s : State) : (s.noteSent e tn t).clocks = s.clocks := by simp [State.noteSent]
@[simp] theorem execLttIntervalEnd_keeps (e) (s : State) : KeepsClocks s (execLttIntervalEnd e s) := by simp [execLttIntervalEnd]
@[simp] theorem State.secondTick_clocks (e) (s : State) : (s.secondTick e).clocks = s.clocks := by simp [State.secondTick]
@[simp] theorem State.lttBoundary_clocks (e) (s : State) : (s.lttBoundary e).clocks = s.clocks := by simp [State.lttBoundary]
@[simp] theorem State.certify_clocks (e) (s : State) : (s.certify e).clocks = s.clocks := by simp [State.certify]
@[simp] theorem execDelayCertFormation_keeps (s : State) : KeepsClocks s (execDelayCertFormation s) := by simp [execDelayCertFormation]
@[simp] theorem specLttSet_keeps : specLttSet.Keeps := { eff := fun _ _ => rfl }
@[simp] theorem specLttStatus_keeps : specLttStatus.Keeps := { eff := fun _ _ => rfl }
@[simp] theorem specEngineDelayCert_keeps : specEngineDelayCert.Keeps := { eff := fun _ _ => rfl }
@[simp] theorem specCertDump_keeps : specCertDump.Keeps := { eff := by simp [specCertDump, Effect.Keeps] }
@[simp] theorem specAsymSet_keeps : specAsymSet.Keeps := { eff := by simp [specAsymSet, Effect.Keeps] }
@[simp] theorem specAsymValidate_keeps : specAsymValidate.Keeps := { eff := by simp [specAsymValidate, Effect.Keeps] }
@[simp] theorem specAsymClear_keeps : specAsymClear.Keeps := { eff := by simp [specAsymClear, Effect.Keeps] }
@[simp] theorem specRouteSet_keeps : specRouteSet.Keeps := { eff := fun _ _ => rfl }
@[simp] theorem specTimeFreqRefSet_keeps : specTimeFreqRefSet.Keeps := { eff := fun _ _ => rfl }
@[simp] theorem State.freqSample_clocks (s : State) : s.freqSample.clocks = s.clocks := by unfold State.freqSample; split <;> simp
@[simp] theorem execFreqLoopUpdate_keeps (err) (s : State) : KeepsClocks s (execFreqLoopUpdate err s) := by simp [execFreqLoopUpdate]
@[simp] theorem execFreqRefQualification_keeps (offset) (s : State) : KeepsClocks s (execFreqRefQualification offset s) := by
  simp only [execFreqRefQualification]
  (repeat' split) <;> simp

/-! ### Ptp -/

@[simp] theorem State.modPtp_clocks (n f) (s : State) : (s.modPtp n f).clocks = s.clocks := by simp [State.modPtp]
@[simp] theorem State.ptpTo_clocks (n st) (s : State) : (s.ptpTo n st).clocks = s.clocks := by simp [State.ptpTo]
@[simp] theorem State.takeParent_clocks (n a) (s : State) : (s.takeParent n a).clocks = s.clocks := by simp [State.takeParent]
@[simp] theorem State.ptpPrepare_clocks (n steps) (s : State) : (s.ptpPrepare n steps).clocks = s.clocks := by simp [State.ptpPrepare]
@[simp] theorem State.ptpPromote_clocks (s : State) : s.ptpPromote.clocks = s.clocks := by unfold State.ptpPromote; split <;> simp
@[simp] theorem State.bmca_clocks (s : State) : s.bmca.clocks = s.clocks := by
  unfold State.bmca
  refine clocks_foldl (fun s a => ?_) _ _
  (repeat' split) <;> simp
@[simp] theorem State.send_clocks (n purpose stamp f) (s : State) : (s.send n purpose stamp f).clocks = s.clocks := by simp [State.send]
@[simp] theorem execPtpSyncTx_keeps (port) (s : State) : KeepsClocks s (execPtpSyncTx port s) := by simp [execPtpSyncTx]
@[simp] theorem execPtpAnnounceTx_keeps (port) (s : State) : KeepsClocks s (execPtpAnnounceTx port s) := by simp [execPtpAnnounceTx]
@[simp] theorem execPtpDelayReqTx_keeps (port) (s : State) : KeepsClocks s (execPtpDelayReqTx port s) := by simp [execPtpDelayReqTx]
@[simp] theorem State.ptpSent_clocks (n f stamp) (s : State) : (s.ptpSent n f stamp).clocks = s.clocks := by simp [State.ptpSent]
@[simp] theorem execTapFrameInsert_keeps (port sub) (s : State) : KeepsClocks s (execTapFrameInsert port sub s) := by
  unfold execTapFrameInsert
  (repeat' split) <;> simp
@[simp] theorem State.onAnnounce_clocks (n m) (s : State) : (s.onAnnounce n m).clocks = s.clocks := by simp [State.onAnnounce]
@[simp] theorem State.onDelayResp_clocks (n m) (s : State) : (s.onDelayResp n m).clocks = s.clocks := by
  simp only [State.onDelayResp]
  (repeat' split) <;> simp
@[simp] theorem State.onMessage_clocks (n m stamp) (s : State) : (s.onMessage n m stamp).clocks = s.clocks := by
  simp only [State.onMessage]
  (repeat' split) <;> simp
@[simp] theorem execPtpMessageRx_keeps (port) (s : State) : KeepsClocks s (execPtpMessageRx port s) := by
  simp only [execPtpMessageRx]
  (repeat' split) <;> simp
@[simp] theorem execAnnounceReceiptTimeout_keeps (port) (s : State) : KeepsClocks s (execAnnounceReceiptTimeout port s) := by
  simp [execAnnounceReceiptTimeout]
@[simp] theorem execPtpMeasPeriodEnd_keeps (port) (s : State) : KeepsClocks s (execPtpMeasPeriodEnd port s) := by
  simp [execPtpMeasPeriodEnd]
@[simp] theorem State.judgeCandidates_clocks (s : State) : s.judgeCandidates.clocks = s.clocks := by
  unfold State.judgeCandidates
  refine (clocks_foldl (fun s a => ?_) _ _).trans (by simp)
  (repeat' split) <;> simp
@[simp] theorem State.esmcSend_clocks (n event) (s : State) : (s.esmcSend n event).clocks = s.clocks := by simp [State.esmcSend]
@[simp] theorem execEsmcInfoTx_keeps (port) (s : State) : KeepsClocks s (execEsmcInfoTx port s) := by simp [execEsmcInfoTx]
@[simp] theorem execEsmcEventTx_keeps (port) (s : State) : KeepsClocks s (execEsmcEventTx port s) := by simp [execEsmcEventTx]
@[simp] theorem execEsmcPduRx_keeps (port) (s : State) : KeepsClocks s (execEsmcPduRx port s) := by
  simp only [execEsmcPduRx]
  (repeat' split) <;> simp
@[simp] theorem specPortTapSet_keeps : specPortTapSet.Keeps := { eff := by simp [specPortTapSet, Effect.Keeps] }
@[simp] theorem specPtpClockSet_keeps : specPtpClockSet.Keeps := { eff := fun c s => by simp [↓clocks_update] }
@[simp] theorem specPtpPortSet_keeps : specPtpPortSet.Keeps := { eff := fun c s => by dsimp only; split <;> simp }
@[simp] theorem specPtpPortStatus_keeps : specPtpPortStatus.Keeps := { eff := fun _ _ => rfl }

/-! ### Frame -/

@[simp] theorem State.modRx_clocks (e f) (s : State) : (s.modRx e f).clocks = s.clocks := by simp [State.modRx]
@[simp] theorem State.modDefect_clocks (e f) (s : State) : (s.modDefect e f).clocks = s.clocks := by simp [State.modDefect]
@[simp] theorem State.assembleFrame_clocks (e) (s : State) : (s.assembleFrame e).clocks = s.clocks := by simp [State.assembleFrame]
@[simp] theorem State.abortOver_clocks (e) (s : State) : (s.abortOver e).clocks = s.clocks := by unfold State.abortOver; split <;> simp
@[simp] theorem State.takeTime_clocks (e tn oh arrival jump) (s : State) : (s.takeTime e tn oh arrival jump).clocks = s.clocks := by
  unfold State.takeTime
  split <;> simp
@[simp] theorem State.takeAck_clocks (e seq st) (s : State) : (s.takeAck e seq st).clocks = s.clocks := by
  unfold State.takeAck
  (repeat' split) <;> simp
@[simp] theorem State.takeAnnounce_clocks (e tn oh) (s : State) : (s.takeAnnounce e tn oh).clocks = s.clocks := by
  simp only [State.takeAnnounce]
  (repeat' split) <;> simp
@[simp] theorem State.takeTti_clocks (e tn seg) (s : State) : (s.takeTti e tn seg).clocks = s.clocks := by simp [State.takeTti]
@[simp] theorem State.breakTti_clocks (e) (s : State) : (s.breakTti e).clocks = s.clocks := by simp [State.breakTti]
@[simp] theorem State.takeDefect_clocks (e oh) (s : State) : (s.takeDefect e oh).clocks = s.clocks := by simp [State.takeDefect]
@[simp] theorem State.takeRest_clocks (e oh) (s : State) : (s.takeRest e oh).clocks = s.clocks := by simp [State.takeRest]
@[simp] theorem State.toFabric_clocks (e slots carried) (s : State) : (s.toFabric e slots carried).clocks = s.clocks := by
  unfold State.toFabric
  split <;> simp
@[simp] theorem State.takeKey_clocks (e slot tn) (s : State) : (s.takeKey e slot tn).clocks = s.clocks := by
  simp only [State.takeKey]
  (repeat' split) <;> simp
@[simp] theorem State.keepCandidate_clocks (e) (s : State) : (s.keepCandidate e).clocks = s.clocks := by simp [State.keepCandidate]
@[simp] theorem State.acceptFrame_clocks (e f arrival plain slot) (s : State) : (s.acceptFrame e f arrival plain slot).clocks = s.clocks := by
  simp [State.acceptFrame]
@[simp] theorem State.discardFrame_clocks (e carried) (s : State) : (s.discardFrame e carried).clocks = s.clocks := by
  simp [State.discardFrame]
@[simp] theorem State.armedSwitch_clocks (e) (s : State) : (s.armedSwitch e).clocks = s.clocks := by
  unfold State.armedSwitch
  split <;> simp
@[simp] theorem State.trialStep_clocks (e) (s : State) : (s.trialStep e).clocks = s.clocks := by simp [State.trialStep]
@[simp] theorem State.ucfMark_clocks (e) (s : State) : (s.ucfMark e).clocks = s.clocks := by simp [State.ucfMark]
@[simp] theorem State.zrFrame_clocks (e f) (s : State) : (s.zrFrame e f).clocks = s.clocks := by simp [State.zrFrame]
@[simp] theorem State.receiveFrame_clocks (e f) (s : State) : (s.receiveFrame e f).clocks = s.clocks := by
  simp only [State.receiveFrame]
  (repeat' split) <;> simp
@[simp] theorem State.decodeSignal_clocks (e f) (s : State) : (s.decodeSignal e f).1.clocks = s.clocks := by
  unfold State.decodeSignal State.zrDecode; (repeat' split) <;> simp
@[simp] theorem State.beforeDecode_clocks (e) (s : State) : (s.beforeDecode e).clocks = s.clocks := by simp [State.beforeDecode]
@[simp] theorem State.captureSymbols_clocks (e layout f) (s : State) : (s.captureSymbols e layout f).clocks = s.clocks := by
  simp [State.captureSymbols]
@[simp] theorem execRxFrameDecode_keeps (e f) (s : State) : KeepsClocks s (execRxFrameDecode e f s) := by
  simp only [execRxFrameDecode]; split <;> simp
@[simp] theorem specEngineTtiSet_keeps : specEngineTtiSet.Keeps := { eff := fun _ _ => rfl }
@[simp] theorem specEngineTtiRead_keeps : specEngineTtiRead.Keeps := { eff := fun _ _ => rfl }
@[simp] theorem specEngineLock_keeps : specEngineLock.Keeps := { eff := fun _ _ => rfl }
@[simp] theorem specEngineUnlock_keeps : specEngineUnlock.Keeps := { eff := fun _ _ => rfl }
@[simp] theorem specEngineSvcWrite_keeps : specEngineSvcWrite.Keeps := { eff := fun _ _ => rfl }
@[simp] theorem specEngineSvcRead_keeps : specEngineSvcRead.Keeps := { eff := fun _ _ => rfl }
@[simp] theorem specEngineOpareaSet_keeps : specEngineOpareaSet.Keeps := { eff := fun _ _ => rfl }
@[simp] theorem specEngineOpareaRead_keeps : specEngineOpareaRead.Keeps := { eff := fun _ _ => rfl }

/-! ### Defects -/

@[simp] theorem execSfHoldoffExpiry_keeps (pack i) (s : State) : KeepsClocks s (execSfHoldoffExpiry pack i s) := by
  unfold execSfHoldoffExpiry
  (repeat' split) <;> simp
@[simp] theorem State.tellDefects_clocks (r s : State) : (State.tellDefects r s).clocks = s.clocks := by
  refine (clocks_foldl (fun s d => clocks_foldl (fun s x => ?_) _ _) _ _).trans
    ((clocks_foldl (fun s d => clocks_foldl (fun s p => ?_) _ _) _ _).trans
      (clocks_foldl (fun s d => clocks_foldl (fun s e => ?_) _ _) _ _))
  all_goals
    simp only
    split <;> simp
@[simp] theorem State.portEgress_clocks (n o) (s : State) : (s.portEgress n o).clocks = s.clocks := by
  unfold State.portEgress
  (repeat' split) <;> simp
@[simp] theorem specEngineDefectSet_keeps : specEngineDefectSet.Keeps := { eff := fun _ _ => rfl }

/-! ### Waveform -/

@[simp] theorem State.keepFrame_clocks (e) (s : State) : (s.keepFrame e).clocks = s.clocks := by simp [State.keepFrame]

/-! ### Convert -/

@[simp] theorem State.modConv_clocks (e f) (s : State) : (s.modConv e f).clocks = s.clocks := by simp [State.modConv]
@[simp] theorem State.recentre_clocks (e dac lane) (s : State) : (s.recentre e dac lane).clocks = s.clocks := by simp [State.recentre]
@[simp] theorem State.recentreAll_clocks (e) (s : State) : (s.recentreAll e).clocks = s.clocks := by simp [State.recentreAll]
@[simp] theorem State.adcSeen_clocks (e o) (s : State) : (s.adcSeen e o).clocks = s.clocks := by simp [State.adcSeen]
@[simp] theorem State.dacSeen_clocks (e o) (s : State) : (s.dacSeen e o).clocks = s.clocks := by simp [State.dacSeen]
@[simp] theorem State.windowStart_clocks (e) (s : State) : (s.windowStart e).clocks = s.clocks := by simp [State.windowStart]
@[simp] theorem State.calTick_clocks (e o) (s : State) : (s.calTick e o).clocks = s.clocks := by unfold State.calTick; split <;> simp
@[simp] theorem State.queueRetirement_clocks (e r) (s : State) : (s.queueRetirement e r).clocks = s.clocks := by
  simp [State.queueRetirement]
@[simp] theorem State.spareLow_clocks (e u) (s : State) : (s.spareLow e u).clocks = s.clocks := by simp [State.spareLow]
@[simp] theorem State.retireUnit_clocks (d e) (s : State) : (s.retireUnit d e).clocks = s.clocks := by
  simp only [State.retireUnit]
  (repeat' split) <;> simp
@[simp] theorem State.recordDue_clocks (d e) (s : State) : (s.recordDue d e).clocks = s.clocks := by simp [State.recordDue]
@[simp] theorem State.makeDue_clocks (e p) (s : State) : (s.makeDue e p).clocks = s.clocks := by simp [State.makeDue]
@[simp] theorem State.checkResult_clocks (e temp vars m) (s : State) : (s.checkResult e temp vars m).clocks = s.clocks := by
  simp [State.checkResult]
@[simp] theorem State.checkWindow_clocks (e vars rs) (s : State) : (s.checkWindow e vars rs).clocks = s.clocks := by
  simp [State.checkWindow]
@[simp] theorem execCalWindowCheck_keeps (e offset gain skew) (s : State) : KeepsClocks s (execCalWindowCheck e offset gain skew s) := by
  unfold execCalWindowCheck
  split <;> simp
@[simp] theorem State.applyResult_clocks (e r) (s : State) : (s.applyResult e r).clocks = s.clocks := by simp [State.applyResult]
@[simp] theorem execCalApply_keeps (e) (s : State) : KeepsClocks s (execCalApply e s) := by unfold execCalApply; (repeat' split) <;> simp
@[simp] theorem State.convBoundary_clocks (e) (s : State) : (s.convBoundary e).clocks = s.clocks := by
  simp only [State.convBoundary]
  (repeat' split) <;> simp
@[simp] theorem execConverterSensorRead_keeps (e temp) (s : State) : KeepsClocks s (execConverterSensorRead e temp s) := by
  simp [execConverterSensorRead]
@[simp] theorem execRetirementEntryWrite_keeps (s : State) : KeepsClocks s (execRetirementEntryWrite s) := by
  unfold execRetirementEntryWrite
  split <;> simp
@[simp] theorem specConvStatus_keeps : specConvStatus.Keeps := { eff := fun _ _ => rfl }
@[simp] theorem specConvCalRead_keeps : specConvCalRead.Keeps := { eff := by simp [specConvCalRead, Effect.Keeps] }
@[simp] theorem specConvCalLoad_keeps : specConvCalLoad.Keeps := { eff := by simp [specConvCalLoad, Effect.Keeps] }
@[simp] theorem specConvCalFactory_keeps : specConvCalFactory.Keeps := { eff := by simp [specConvCalFactory, Effect.Keeps] }
@[simp] theorem specConvRetireCmd_keeps : specConvRetireCmd.Keeps := { eff := fun _ _ => rfl }
@[simp] theorem specConvRestore_keeps : specConvRestore.Keeps := { eff := fun _ _ => rfl }
@[simp] theorem specConvCalSet_keeps : specConvCalSet.Keeps := { eff := fun _ _ => rfl }

/-! ### CaptureTick -/

@[simp] theorem State.captureTake_clocks (k o) (s : State) : (s.captureTake k o).clocks = s.clocks := by simp [State.captureTake]

/-! ### Isolate -/

@[simp] theorem State.isolateTold_clocks (e) (s : State) : (s.isolateTold e).clocks = s.clocks := by simp [State.isolateTold]
@[simp] theorem State.setIso_clocks (e i) (s : State) : (s.setIso e i).clocks = s.clocks := by simp [State.setIso]
@[simp] theorem specEngineIsolate_keeps : specEngineIsolate.Keeps := { eff := by simp [specEngineIsolate, Effect.Keeps] }
@[simp] theorem specEngineRestore_keeps : specEngineRestore.Keeps := { eff := by simp [specEngineRestore, Effect.Keeps] }
@[simp] theorem State.fenceEngineStep_clocks (e) (s : State) : (s.fenceEngineStep e).clocks = s.clocks := by simp [State.fenceEngineStep]
@[simp] theorem State.fencePackChange_clocks (p k) (s : State) : (s.fencePackChange p k).clocks = s.clocks := by
  simp [State.fencePackChange]
@[simp] theorem State.fenceTile_clocks (k) (s : State) : (s.fenceTile k).clocks = s.clocks := by simp [State.fenceTile]
@[simp] theorem applyFence_clocks (c) (s : State) : (applyFence c s).clocks = s.clocks := by
  simp only [applyFence]
  (repeat' split) <;> simp
@[simp] theorem specTileFence_keeps : specTileFence.Keeps := { eff := by simp [specTileFence, Effect.Keeps] }
@[simp] theorem State.fenceDone_clocks (op k) (s : State) : (s.fenceDone op k).clocks = s.clocks := by simp [State.fenceDone]
@[simp] theorem execTilePowerDownDone_keeps (k) (s : State) : KeepsClocks s (execTilePowerDownDone k s) := by simp [execTilePowerDownDone]
@[simp] theorem startUnfence_clocks (j c) (s : State) : (startUnfence j c s).clocks = s.clocks := by simp [startUnfence]
@[simp] theorem State.unfenceEngine_clocks (e) (s : State) : (s.unfenceEngine e).clocks = s.clocks := by simp [State.unfenceEngine]
@[simp] theorem specTileUnfence_keeps : specTileUnfence.Keeps := { eff := by simp [specTileUnfence, Effect.Keeps] }
@[simp] theorem execTilePowerUpDone_keeps (k) (s : State) : KeepsClocks s (execTilePowerUpDone k s) := by simp [execTilePowerUpDone]

/-! ### Recovery -/

@[simp] theorem State.enterHeadless_clocks (s : State) : s.enterHeadless.clocks = s.clocks := by simp [State.enterHeadless]
@[simp] theorem State.intervene_clocks (actor cause) (s : State) : (s.intervene actor cause).clocks = s.clocks := by simp [State.intervene]
@[simp] theorem State.lifeRestart_clocks (cause) (s : State) : (s.lifeRestart cause).clocks = s.clocks := by simp [State.lifeRestart]
@[simp] theorem State.declareDown_clocks (cause) (s : State) : (s.declareDown cause).clocks = s.clocks := by simp [State.declareDown]
@[simp] theorem execFwHeartbeat_keeps (s : State) : KeepsClocks s (execFwHeartbeat s) := by simp [execFwHeartbeat]
@[simp] theorem execShepherdHeartbeat_keeps (s : State) : KeepsClocks s (execShepherdHeartbeat s) := by simp [execShepherdHeartbeat]
@[simp] theorem execHeartbeatTimeout_keeps (s : State) : KeepsClocks s (execHeartbeatTimeout s) := by simp [execHeartbeatTimeout]
@[simp] theorem execFwFatalTrap_keeps (s : State) : KeepsClocks s (execFwFatalTrap s) := by simp [execFwFatalTrap]
@[simp] theorem execFwBootTimeout_keeps (s : State) : KeepsClocks s (execFwBootTimeout s) := by
  simp only [execFwBootTimeout]
  (repeat' split) <;> simp
@[simp] theorem execShepherdHeartbeatTimeout_keeps (s : State) : KeepsClocks s (execShepherdHeartbeatTimeout s) := by
  simp [execShepherdHeartbeatTimeout]
@[simp] theorem execLastResortKick_keeps (s : State) : KeepsClocks s (execLastResortKick s) := by simp [execLastResortKick]
@[simp] theorem execLastResortExpiry_keeps (s : State) : KeepsClocks s (execLastResortExpiry s) := by simp [execLastResortExpiry]
@[simp] theorem State.bootFailed_clocks (err) (s : State) : (s.bootFailed err).clocks = s.clocks := by simp [State.bootFailed]
@[simp] theorem State.bootRuns_clocks (slot image shep trial) (s : State) : (s.bootRuns slot image shep trial).clocks = s.clocks := by
  unfold State.bootRuns
  simp [↓clocks_update]
@[simp] theorem State.bootFlash_clocks (s : State) : s.bootFlash.clocks = s.clocks := by
  simp only [State.bootFlash]
  (repeat' split) <;> simp
@[simp] theorem State.bootHost_clocks (s : State) : s.bootHost.clocks = s.clocks := by simp only [State.bootHost]; (repeat' split) <;> simp
@[simp] theorem execFirmwareBoot_keeps (s : State) : KeepsClocks s (execFirmwareBoot s) := by
  unfold execFirmwareBoot
  (repeat' split) <;> simp [↓clocks_update]
@[simp] theorem State.bootGoWrite_clocks (s : State) : s.bootGoWrite.clocks = s.clocks := by simp [State.bootGoWrite]
@[simp] theorem execBootGo_keeps (s : State) : KeepsClocks s (execBootGo s) := by simp [execBootGo]
@[simp] theorem State.resume_clocks (s : State) : s.resume.clocks = s.clocks := by unfold State.resume; simp [↓clocks_update]
@[simp] theorem execFwRunningReport_keeps (s : State) : KeepsClocks s (execFwRunningReport s) := by
  simp only [execFwRunningReport]
  (repeat' split) <;> simp [↓clocks_update]

/-! ### Reset -/

@[simp] theorem State.dmaReset_clocks (drop) (s : State) : (s.dmaReset drop).clocks = s.clocks := by
  unfold State.dmaReset
  simp [↓clocks_update]
@[simp] theorem State.pcieReset_clocks (s : State) : s.pcieReset.clocks = s.clocks := by simp [State.pcieReset]
@[simp] theorem State.endpointNow_clocks (s : State) : s.endpointNow.clocks = s.clocks := by simp [State.endpointNow]
@[simp] theorem execPerst_keeps (s : State) : KeepsClocks s (execPerst s) := by simp [execPerst]
@[simp] theorem execPerstRelease_keeps (s : State) : KeepsClocks s (execPerstRelease s) := by simp [execPerstRelease]
@[simp] theorem execHotReset_keeps (s : State) : KeepsClocks s (execHotReset s) := by simp [execHotReset]
@[simp] theorem execFunctionLevelReset_keeps (s : State) : KeepsClocks s (execFunctionLevelReset s) := by simp [execFunctionLevelReset]
@[simp] theorem execD3hotEntry_keeps (s : State) : KeepsClocks s (execD3hotEntry s) := by simp [execD3hotEntry]
@[simp] theorem execD0Return_keeps (s : State) : KeepsClocks s (execD0Return s) := by simp [execD0Return]
@[simp] theorem execPcieRefclkLoss_keeps (s : State) : KeepsClocks s (execPcieRefclkLoss s) := by simp [execPcieRefclkLoss]
@[simp] theorem execPcieRefclkReturn_keeps (s : State) : KeepsClocks s (execPcieRefclkReturn s) := by simp [execPcieRefclkReturn]
@[simp] theorem State.mgmtReset_clocks (shep) (s : State) : (s.mgmtReset shep).clocks = s.clocks := by
  unfold State.mgmtReset
  simp [↓clocks_update]
@[simp] theorem State.mgmtRelease_clocks (s : State) : s.mgmtRelease.clocks = s.clocks := by
  simp only [State.mgmtRelease]
  (repeat' split) <;> simp
@[simp] theorem execMgmtRstAssert_keeps (s : State) : KeepsClocks s (execMgmtRstAssert s) := by simp [execMgmtRstAssert]
@[simp] theorem execMgmtRstRelease_keeps (s : State) : KeepsClocks s (execMgmtRstRelease s) := by simp [execMgmtRstRelease]

/-! ### Power -/

@[simp] theorem State.lifeBrace_clocks (d) (s : State) : (s.lifeBrace d).clocks = s.clocks := by simp [State.lifeBrace]
@[simp] theorem State.lifeDeepest_clocks (d level) (s : State) : (s.lifeDeepest d level).clocks = s.clocks := by simp [State.lifeDeepest]
@[simp] theorem execRailWarning_keeps (d r level) (s : State) : KeepsClocks s (execRailWarning d r level s) := by
  simp only [execRailWarning]
  (repeat' split) <;> simp
@[simp] theorem execBraceExit_keeps (s : State) : KeepsClocks s (execBraceExit s) := by unfold execBraceExit; split <;> simp
@[simp] theorem execAvsLoopStep_keeps (step acked) (s : State) : KeepsClocks s (execAvsLoopStep step acked s) := by simp [execAvsLoopStep]
@[simp] theorem execVbatMeasurement_keeps (mv) (s : State) : KeepsClocks s (execVbatMeasurement mv s) := by simp [execVbatMeasurement]

/-! ### Kennel -/

@[simp] theorem State.tjCount_clocks (die t) (s : State) : (s.tjCount die t).clocks = s.clocks := by simp [State.tjCount]
@[simp] theorem State.thermalStep_clocks (die t) (s : State) : (s.thermalStep die t).clocks = s.clocks := by simp [State.thermalStep]
@[simp] theorem State.pohStep_clocks (s : State) : s.pohStep.clocks = s.clocks := by simp [State.pohStep]
@[simp] theorem State.ucfStep_clocks (s : State) : s.ucfStep.clocks = s.clocks := by simp [State.ucfStep]
@[simp] theorem State.dieRead_clocks (die t) (s : State) : (s.dieRead die t).clocks = s.clocks := by simp [State.dieRead]
@[simp] theorem State.sensorsSeen_clocks (l) (s : State) : (s.sensorsSeen l).clocks = s.clocks := by simp [State.sensorsSeen]
@[simp] theorem execLifeRecordSecond_keeps (temps) (s : State) : KeepsClocks s (execLifeRecordSecond temps s) := by
  unfold execLifeRecordSecond
  split
  · simp
  · simp only [keepsClocks_next, State.ucfStep_clocks, State.pohStep_clocks]
    refine clocks_foldl (fun s x => ?_) _ _
    split <;> simp
@[simp] theorem State.mirrorLife_clocks (s : State) : s.mirrorLife.clocks = s.clocks := by simp [State.mirrorLife]
@[simp] theorem execLifeMirrorWrite_keeps (s : State) : KeepsClocks s (execLifeMirrorWrite s) := by simp [execLifeMirrorWrite]
@[simp] theorem specLifeExport_keeps : specLifeExport.Keeps := { eff := fun c s => by simp }
@[simp] theorem specKennelExport_keeps : specKennelExport.Keeps := { eff := fun c s => by simp }
@[simp] theorem specKennelStatus_keeps : specKennelStatus.Keeps := { eff := fun _ _ => rfl }
@[simp] theorem specShepherdStatus_keeps : specShepherdStatus.Keeps := { eff := fun _ _ => rfl }
@[simp] theorem specFwLoad_keeps : specFwLoad.Keeps := { eff := by simp [specFwLoad, Effect.Keeps] }
@[simp] theorem activate_clocks (c) (s : State) : (activate c s).clocks = s.clocks := by simp [activate]
@[simp] theorem specFwActivate_keeps : specFwActivate.Keeps := { eff := by simp [specFwActivate, Effect.Keeps] }
@[simp] theorem specFwCommit_keeps : specFwCommit.Keeps := { eff := fun _ _ => rfl }
@[simp] theorem specFwStatus_keeps : specFwStatus.Keeps := { eff := fun _ _ => rfl }

/-! ### Device -/

@[simp] theorem specDeviceNop_keeps : specDeviceNop.Keeps := { eff := fun _ _ => rfl }
@[simp] theorem specDeviceIdentity_keeps : specDeviceIdentity.Keeps := { eff := fun _ _ => rfl }
@[simp] theorem specDeviceStatus_keeps : specDeviceStatus.Keeps := { eff := fun _ _ => rfl }
@[simp] theorem specEventMaskSet_keeps : specEventMaskSet.Keeps := { eff := fun _ _ => rfl }
@[simp] theorem specFeProfileLoad_keeps : specFeProfileLoad.Keeps := { eff := by simp [specFeProfileLoad, Effect.Keeps] }
theorem State.calCommit_clocks {n im} {s t : State} (h : s.calCommit n im = .ok t) : t.clocks = s.clocks := by
  simp only [State.calCommit] at h
  split at h
  · cases h
  · cases h; simp
theorem State.convCommit_clocks {e im} {s t : State} (h : s.convCommit e im = .ok t) : t.clocks = s.clocks := by
  simp only [State.convCommit] at h
  (repeat' split at h) <;> cases h
  simp
@[simp] theorem State.imageCommit_clocks (c im) (s : State) : (s.imageCommit c im).1.clocks = s.clocks := by
  unfold State.imageCommit; (repeat' split) <;> simp
@[simp] theorem State.commitLoad_clocks (op c im) (s : State) : (s.commitLoad op c im).1.clocks = s.clocks := by
  have hi := s.imageCommit_clocks c im
  unfold State.commitLoad
  dsimp only
  split
  · split
    case h_1 h => exact State.calCommit_clocks h
    case h_2 => rfl
  · split
    · simp
    · split
      · split
        case h_1 h => exact State.convCommit_clocks h
        case h_2 => rfl
      · split
        · split <;> simp
        · split
          · split <;> simp_all
          · rfl
@[simp] theorem State.doneChannel_clocks (c) (s : State) : (s.doneChannel c).clocks = s.clocks := by
  unfold State.doneChannel
  split <;> simp
@[simp] theorem State.bootChannel_clocks (e) (s : State) : (s.bootChannel e).clocks = s.clocks := by simp [State.bootChannel]
@[simp] theorem State.finishChannel_clocks (c e) (s : State) : (s.finishChannel c e).clocks = s.clocks := by simp [State.finishChannel]
@[simp] theorem execDmaChannelEnd_keeps (c err moved) (s : State) : KeepsClocks s (execDmaChannelEnd c err moved s) := by
  simp only [execDmaChannelEnd]
  (repeat' split) <;> simp

/-! ### Monitor -/

@[simp] theorem State.resultCrossed_clocks (q at') (s : State) : (s.resultCrossed q at').clocks = s.clocks := by simp [State.resultCrossed]
@[simp] theorem State.monPush_clocks (k item) (s : State) : (s.monPush k item).clocks = s.clocks := by simp [State.monPush]
@[simp] theorem State.tlmPush_clocks (item) (s : State) : (s.tlmPush item).clocks = s.clocks := by
  unfold State.tlmPush
  simp [↓clocks_update]
@[simp] theorem State.monNext_clocks (k) (s : State) : (s.monNext k).clocks = s.clocks := by simp [State.monNext]
@[simp] theorem State.monNextTold_clocks (k) (s : State) : (s.monNextTold k).clocks = s.clocks := by simp [State.monNextTold]
@[simp] theorem execMonConversionDone_keeps (k code) (s : State) : KeepsClocks s (execMonConversionDone k code s) := by
  simp only [execMonConversionDone]
  (repeat' split) <;> simp
@[simp] theorem State.monStall_clocks (k) (s : State) : (s.monStall k).clocks = s.clocks := by simp [State.monStall]
@[simp] theorem execMonTestdacSettle_keeps (k) (s : State) : KeepsClocks s (execMonTestdacSettle k s) := by
  unfold execMonTestdacSettle
  split <;> simp
@[simp] theorem execMonCalComplete_keeps (k offset gain longest) (s : State) : KeepsClocks s (execMonCalComplete k offset gain longest s) := by
  simp only [execMonCalComplete]
  (repeat' split) <;> simp
@[simp] theorem specMonCal_keeps : specMonCal.Keeps := { eff := by simp [specMonCal, Effect.Keeps] }
@[simp] theorem specMonSeqSet_keeps : specMonSeqSet.Keeps := { eff := fun _ _ => rfl }
@[simp] theorem applySeqStart_clocks (c) (s : State) : (applySeqStart c s).clocks = s.clocks := by
  simp only [applySeqStart]
  (repeat' split) <;> simp
@[simp] theorem specMonSeqStart_keeps : specMonSeqStart.Keeps := { eff := by simp [specMonSeqStart, Effect.Keeps] }
@[simp] theorem specMonSeqStop_keeps : specMonSeqStop.Keeps := { eff := by simp [specMonSeqStop, Effect.Keeps] }
@[simp] theorem specMonInject_keeps : specMonInject.Keeps := { eff := fun _ _ => rfl }
@[simp] theorem specMonCorrSet_keeps : specMonCorrSet.Keeps := { eff := fun _ _ => rfl }
@[simp] theorem specMonTestdacSet_keeps : specMonTestdacSet.Keeps := { eff := fun _ _ => rfl }
@[simp] theorem execMonResultRead_keeps (q) (s : State) : KeepsClocks s (execMonResultRead q s) := by
  unfold execMonResultRead
  (repeat' split) <;> simp [↓clocks_update]
@[simp] theorem State.resultFlush_clocks (q) (s : State) : (s.resultFlush q).clocks = s.clocks := by
  unfold State.resultFlush
  simp [↓clocks_update]

/-! ### Queues -/

@[simp] theorem State.queueFlushed_clocks (q items orphans) (s : State) : (s.queueFlushed q items orphans).clocks = s.clocks := by
  simp [State.queueFlushed]
@[simp] theorem State.endOrphans_clocks (n) (s : State) : (s.endOrphans n).clocks = s.clocks := by unfold State.endOrphans; split <;> simp
@[simp] theorem State.flushCmd_clocks (n orphans) (s : State) : (s.flushCmd n orphans).clocks = s.clocks := by simp [State.flushCmd]
@[simp] theorem State.raiseRdy_clocks (s : State) : s.raiseRdy.clocks = s.clocks := by simp [State.raiseRdy]
@[simp] theorem State.flushResp_clocks (n) (s : State) : (s.flushResp n).clocks = s.clocks := by simp [State.flushResp]
@[simp] theorem State.flushEvents_clocks (s : State) : s.flushEvents.clocks = s.clocks := by simp [State.flushEvents]
@[simp] theorem State.flushSet_clocks (q) (s : State) : (s.flushSet q).clocks = s.clocks := by
  unfold State.flushSet
  (repeat' split) <;> simp
@[simp] theorem execQueueFlush_keeps (q) (s : State) : KeepsClocks s (execQueueFlush q s) := by simp [execQueueFlush]
@[simp] theorem State.commitWords_clocks (q pi words) (s : State) : (s.commitWords q pi words).clocks = s.clocks := by
  simp [State.commitWords]
@[simp] theorem State.dropToPi_clocks (q) (s : State) : (s.dropToPi q).clocks = s.clocks := by simp [State.dropToPi]
@[simp] theorem State.doorbell_clocks (q pi sync words) (s : State) : (s.doorbell q pi sync words).clocks = s.clocks := by
  simp only [State.doorbell]
  (repeat' split) <;> simp
@[simp] theorem execCommandRingDoorbell_keeps (q pi sync words) (s : State) : KeepsClocks s (execCommandRingDoorbell q pi sync words s) := by
  simp [execCommandRingDoorbell]
@[simp] theorem State.enableRing_clocks (q) (s : State) : (s.enableRing q).clocks = s.clocks := by simp [State.enableRing]
@[simp] theorem State.disableRing_clocks (q) (s : State) : (s.disableRing q).clocks = s.clocks := by simp [State.disableRing]
@[simp] theorem State.writeControl_clocks (q w) (s : State) : (s.writeControl q w).clocks = s.clocks := by simp [State.writeControl]
@[simp] theorem execRingEnableWrite_keeps (q w) (s : State) : KeepsClocks s (execRingEnableWrite q w s) := by simp [execRingEnableWrite]
@[simp] theorem State.writeCi_clocks (q ci) (s : State) : (s.writeCi q ci).clocks = s.clocks := by simp [State.writeCi]
@[simp] theorem execRingCiWrite_keeps (q ci) (s : State) : KeepsClocks s (execRingCiWrite q ci s) := by simp [execRingCiWrite]
@[simp] theorem State.wmClear_clocks (q) (s : State) : (s.wmClear q).clocks = s.clocks := by
  unfold State.wmClear
  (repeat' split) <;> simp [↓clocks_update]
@[simp] theorem execWmLatchedClear_keeps (q) (s : State) : KeepsClocks s (execWmLatchedClear q s) := by simp [execWmLatchedClear]
@[simp] theorem execHeldResponseCommit_keeps (n) (s : State) : KeepsClocks s (execHeldResponseCommit n s) := by
  unfold execHeldResponseCommit
  split <;> simp
@[simp] theorem execHeldEventEntry_keeps (s : State) : KeepsClocks s (execHeldEventEntry s) := by unfold execHeldEventEntry; split <;> simp
@[simp] theorem execEventRingDrain_keeps (s : State) : KeepsClocks s (execEventRingDrain s) := by unfold execEventRingDrain; split <;> simp
@[simp] theorem execIntHoldoffExpiry_keeps (q) (s : State) : KeepsClocks s (execIntHoldoffExpiry q s) := by simp [execIntHoldoffExpiry]
@[simp] theorem State.unmask_clocks (v) (s : State) : (s.unmask v).clocks = s.clocks := by simp [State.unmask]
@[simp] theorem execMsixUnmask_keeps (v) (s : State) : KeepsClocks s (execMsixUnmask v s) := by simp [execMsixUnmask]
@[simp] theorem State.spiWord_clocks (w) (s : State) : (s.spiWord w).clocks = s.clocks := by simp [State.spiWord]
@[simp] theorem State.spiIn_clocks (w) (s : State) : (s.spiIn w).clocks = s.clocks := by unfold State.spiIn; split <;> simp
@[simp] theorem execSpiCommandWindowWrite_keeps (first last words) (s : State) : KeepsClocks s (execSpiCommandWindowWrite first last words s) := by
  simp only [execSpiCommandWindowWrite]
  (repeat' split) <;> simp
@[simp] theorem execSpiResponseWindowRead_keeps (n last) (s : State) : KeepsClocks s (execSpiResponseWindowRead n last s) := by
  unfold execSpiResponseWindowRead
  simp [↓clocks_update]
@[simp] theorem execSpiEventWindowRead_keeps (n last) (s : State) : KeepsClocks s (execSpiEventWindowRead n last s) := by
  unfold execSpiEventWindowRead
  simp [↓clocks_update]
@[simp] theorem execSpiStatus_keeps (s : State) : KeepsClocks s (execSpiStatus s) := by unfold execSpiStatus; simp [↓clocks_update]
@[simp] theorem execProgress_keeps (seq fraction) (s : State) : KeepsClocks s (execProgress seq fraction s) := by
  unfold execProgress
  split <;> simp

/-! ### Registers -/

@[simp] theorem State.writeDevice_clocks (o v) (s : State) : (s.writeDevice o v).clocks = s.clocks := by
  unfold State.writeDevice
  (repeat' split) <;> simp
@[simp] theorem State.writeQueue_clocks (q o v) (s : State) : (s.writeQueue q o v).clocks = s.clocks := by
  unfold State.writeQueue
  (repeat' split) <;> simp
@[simp] theorem State.writeResult_clocks (k v) (s : State) : (s.writeResult k v).clocks = s.clocks := by
  unfold State.writeResult
  (repeat' split) <;> simp [↓clocks_update]
@[simp] theorem State.writeDma_clocks (c o v) (s : State) : (s.writeDma c o v).clocks = s.clocks := by simp [State.writeDma]
@[simp] theorem State.writeMsix_clocks (o v) (s : State) : (s.writeMsix o v).clocks = s.clocks := by
  unfold State.writeMsix
  (repeat' split) <;> simp
@[simp] theorem State.writeMap_clocks (a v) (s : State) : (s.writeMap a v).clocks = s.clocks := by
  unfold State.writeMap
  (repeat' split) <;> simp
@[simp] theorem execRegisterWrite_keeps (path bar2 offset value) (s : State) : KeepsClocks s (execRegisterWrite path bar2 offset value s) := by
  unfold execRegisterWrite
  split <;> simp

/-! ### Telemetry -/

@[simp] theorem State.modChain_clocks (n f) (s : State) : (s.modChain n f).clocks = s.clocks := by simp [State.modChain, State.clocks]
@[simp] theorem State.tlmFir_clocks (n x) (s : State) : (s.tlmFir n x).clocks = s.clocks := by simp [State.tlmFir]
@[simp] theorem State.tlmHb2_clocks (n x) (s : State) : (s.tlmHb2 n x).clocks = s.clocks := by
  simp only [State.tlmHb2]
  (repeat' split) <;> simp
@[simp] theorem State.tlmHb1_clocks (n x) (s : State) : (s.tlmHb1 n x).clocks = s.clocks := by
  simp only [State.tlmHb1]
  (repeat' split) <;> simp
@[simp] theorem State.tlmInput_clocks (n v stale) (s : State) : (s.tlmInput n v stale).clocks = s.clocks := by simp [State.tlmInput]
@[simp] theorem execTlmSample_keeps (n) (s : State) : KeepsClocks s (execTlmSample n s) := by
  simp only [execTlmSample]
  (repeat' split) <;> simp
@[simp] theorem specTlmChainSet_keeps : specTlmChainSet.Keeps := { eff := fun _ _ => rfl }
@[simp] theorem specTlmCoefLoad_keeps : specTlmCoefLoad.Keeps := { eff := fun _ _ => rfl }
@[simp] theorem specTlmCoefSwap_keeps : specTlmCoefSwap.Keeps := { eff := fun _ _ => rfl }
@[simp] theorem specTlmReset_keeps : specTlmReset.Keeps := { eff := fun _ _ => rfl }

/-! ### OpTable -/

/-- Every assigned opcode and every read counterpart leaves the clocks alone. -/
theorem allSpecs_keeps : ∀ sp ∈ allSpecs, sp.Keeps := by simp [allSpecs]
theorem readSpec_keeps (sp r) : (readSpec sp r).Keeps := { eff := fun _ _ => rfl }
theorem opTable_keeps {op : Nat} {sp : OpSpec} (h : opTable op = some sp) : sp.Keeps := by
  unfold opTable at h
  split at h
  case h_1 hf => cases h; exact allSpecs_keeps _ (List.mem_of_find?_eq_some hf)
  case h_2 =>
    split at h
    · cases h
    · obtain ⟨x, -, hx⟩ := Option.bind_eq_some_iff.mp h
      obtain ⟨r, -, rfl⟩ := Option.map_eq_some_iff.mp hx
      exact readSpec_keeps x r
@[simp] theorem execUnknownOpcode_keeps (op c) (s : State) : KeepsClocks s (execUnknownOpcode op c s) := by
  unfold execUnknownOpcode; split <;> simp
@[simp] theorem execReadCounterpart_keeps (op c) (s : State) : KeepsClocks s (execReadCounterpart op c s) := by
  unfold execReadCounterpart
  split
  case h_1 hs =>
    obtain ⟨x, -, hx⟩ := Option.bind_eq_some_iff.mp hs
    obtain ⟨r, -, rfl⟩ := Option.map_eq_some_iff.mp hx
    simp [readSpec_keeps]
  case h_2 => simp
@[simp] theorem State.parseOne_clocks (n) (s : State) : (s.parseOne n).clocks = s.clocks := by
  have hp : ∀ op c s, (parseCmd (opTable op) op c s).clocks = s.clocks := fun op c s => parseCmd_clocks (fun _ h => opTable_keeps h) op c s
  simp only [State.parseOne]
  (repeat' split) <;> simp [hp]
@[simp] theorem State.parseUrgent_clocks (n) (s : State) : (s.parseUrgent n).clocks = s.clocks := by
  induction n generalizing s with
  | zero => rfl
  | succ n ih => unfold State.parseUrgent; split <;> simp [ih]
@[simp] theorem State.parseRounds_clocks (n) (s : State) : (s.parseRounds n).clocks = s.clocks := by
  induction n generalizing s with
  | zero => rfl
  | succ n ih => simp [State.parseRounds, ih]
@[simp] theorem State.parseAll_clocks (s : State) : s.parseAll.clocks = s.clocks := s.parseRounds_clocks _
@[simp] theorem State.startHeld_clocks (h) (s : State) : (s.startHeld h).clocks = s.clocks := by
  simp only [State.startHeld]
  split
  case h_1 hs => simp [opTable_keeps hs]
  case h_2 => simp
@[simp] theorem State.releaseHeld_clocks (s : State) : s.releaseHeld.clocks = s.clocks := by simp [State.releaseHeld]
@[simp] theorem boundaryEffect_clocks (op c) (s : State) : (boundaryEffect op c s).clocks = s.clocks := by
  unfold boundaryEffect
  split
  · simp
  · split
    · simp
    · cases ho : opTable op with
      | none => rfl
      | some sp =>
        have he := (opTable_keeps ho).eff
        cases hf : sp.eff <;> rw [hf] at he
        case boundary | atBoundary => simpa [hf] using he c s
        all_goals simp [hf]
@[simp] theorem State.applyArmed_clocks (a) (s : State) : (s.applyArmed a).clocks = s.clocks := by
  unfold State.applyArmed
  (repeat' split) <;> simp
@[simp] theorem State.applyDue_clocks (s : State) : s.applyDue.clocks = s.clocks := by simp [State.applyDue]
@[simp] theorem execTickAlignedChangeEffect_keeps (s : State) : KeepsClocks s (execTickAlignedChangeEffect s) := by
  simp [execTickAlignedChangeEffect]

/-! ### Tick -/

@[simp] theorem State.engineSeen_clocks (e o) (s : State) : (s.engineSeen e o).clocks = s.clocks := by
  unfold State.engineSeen
  split <;> simp
@[simp] theorem State.poisonSlot_clocks (ahead e slot) (s : State) : (s.poisonSlot ahead e slot).clocks = s.clocks := by
  unfold State.poisonSlot
  split <;> simp
@[simp] theorem State.sendSide_clocks (o e) (s : State) : (s.sendSide o e).clocks = s.clocks := by simp [State.sendSide]
@[simp] theorem State.takeSide_clocks (o k i) (s : State) : (s.takeSide o k i).clocks = s.clocks := by simp [State.takeSide]
@[simp] theorem State.mapSide_clocks (o n) (s : State) : (s.mapSide o n).clocks = s.clocks := by simp [State.mapSide]
@[simp] theorem State.fabricPass_clocks (o) (s : State) : (s.fabricPass o).clocks = s.clocks := by simp [State.fabricPass]
@[simp] theorem State.countClient_clocks (x) (s : State) : (s.countClient x).clocks = s.clocks := by simp [State.countClient]
@[simp] theorem State.countPort_clocks (x) (s : State) : (s.countPort x).clocks = s.clocks := by unfold State.countPort; split <;> simp
@[simp] theorem State.countTick_clocks (o) (s : State) : (s.countTick o).clocks = s.clocks := by simp [State.countTick]
@[simp] theorem State.closeTick_clocks (o) (s : State) : (s.closeTick o).clocks = s.clocks := by
  unfold State.closeTick
  refine (trafficLast_clocks _ _).trans ?_
  simp
@[simp] theorem State.fadeTick_clocks (e) (s : State) : (s.fadeTick e).clocks = s.clocks := by simp [State.fadeTick]
@[simp] theorem State.engineBoundary_clocks (e) (s : State) : (s.engineBoundary e).clocks = s.clocks := by simp [State.engineBoundary]
@[simp] theorem State.braceBoundary_clocks (s : State) : s.braceBoundary.clocks = s.clocks := by simp [State.braceBoundary]
@[simp] theorem State.bootBoundary_clocks (s : State) : s.bootBoundary.clocks = s.clocks := by simp [State.bootBoundary]
@[simp] theorem State.frameBoundary_clocks (e) (s : State) : (s.frameBoundary e).clocks = s.clocks := by simp [State.frameBoundary]
@[simp] theorem State.boundary_clocks (s : State) : s.boundary.clocks = s.clocks := by simp [State.boundary]

/-! ### BusTick -/

@[simp] theorem execFeFaultPoll_keeps (e value) (s : State) : KeepsClocks s (execFeFaultPoll e value s) := by
  simp only [execFeFaultPoll]
  (repeat' split) <;> simp
@[simp] theorem execFeBusTransaction_keeps (e data) (s : State) : KeepsClocks s (execFeBusTransaction e data s) := by
  simp only [execFeBusTransaction]
  (repeat' split) <;> simp

/-! ### The rows -/

/-- Of the rows that leave TN alone, only KENNEL_RTC_UPDATE moves a clock: it sets the Kennel's real-time counter. -/
theorem exec_keepsClocks (c : Instr) (s : State) (h : keepsTn c = true) (hr : ∀ trim, c ≠ .kennelRtcUpdate trim) :
    KeepsClocks s (exec c s) := by
  cases c with
  | deviceNop c | deviceIdentity c | deviceStatus c | eventMaskSet c | engineProfileSet c | engineCapacitySet c | engineIterCapSet c
  | engineLoadSet c | engineLoadAnnounce c | engineSynthSet c | engineTxcorrSet c | enginePreemphLoad c | enginePreemphSwap c
  | spectralMapSet c | engineNlcSet c | engineNlcCoefLoad c | engineNlcCoefSwap c | engineMuzzle c | engineUnmuzzle c
  | engineMuzzleClear c | engineMuzzleCfgSet c | engineAcqSet c | engineAcqRestart c | engineAcqStatus c | engineLeashSet c
  | engineRxfeSet c | engineCdSet c | engineCdLoad c | engineCdSwap c | engineEqSet c | engineRxQuality c | engineNbrStatus c
  | engineTtiSet c | engineTtiRead c | engineDefectSet c | engineLock c | engineUnlock c | engineSvcWrite c | engineSvcRead c
  | engineOpareaSet c | engineOpareaRead c | convStatus c | convCalRead c | convCalLoad c | convCalFactory c | convRetireCmd c
  | convRestore c | convCalSet c | calLoad c | calRead c | calSwap c | calStatus c | packSet c | packDelete c | packCapacitySet c
  | packSkewSet c | packStatus c | storeSet c | portSet c | portDelete c | portEnable c | portDisable c | portRestart c | portTest c
  | portTrainSet c | portTxFfe c | portTapSet c | portDefectSet c | portStatus c | hostClkSet c | laneSet c | laneLoopback c
  | lanePrbsSet c | lanePrbsStatus c | timeStatus c | timeSourceSet c | timeParamSet c | timeSet c | timeUtcSet c | timeOscSet c
  | timeEpochForce c | timePpsInSet c | timePpsOutSet c | timeTodSet c | timeFreqRefSet c | lttSet c | lttStatus c | engineDelayCert c
  | certDump c | asymSet c | asymValidate c | asymClear c | routeSet c | ptpClockSet c | ptpPortSet c | ptpPortStatus c
  | engineCryptoSet c | keyLoad c | keyErase c | keyTxSwitch c | keyRxSwitch c | keyRxFollow c | keyStatus c | domainEnrol c
  | domainClear c | tagCertRead c | attestReport c | testportChallenge c | testportUnlock c | monCal c | monSeqSet c | monSeqStart c
  | monSeqStop c | monInject c | monCorrSet c | monTestdacSet c | feProfileLoad c | feBusAccess c | tlmChainSet c | tlmCoefLoad c
  | tlmCoefSwap c | tlmReset c | capSet c | capArm c | capWithdraw c | capStatus c | ctrRead c | ctrChainSet c | ctrFilterSet c
  | ctrBwSet c | ctrSnapshot c | ctrDump c | ctrIndex c | kennelStatus c | lifeExport c | kennelExport c | engineIsolate c
  | engineRestore c | tileFence c | tileUnfence c | shepherdStatus c | fwLoad c | fwActivate c | fwCommit c | fwStatus c =>
    exact runOp_keeps (by simp) c s
  | tick | realignment | sysRstAssert | sysRstRelease | railResetLevel | domainResetRelease | kennelPowerLoss | vddAuxPowerUp => cases h
  | kennelRtcUpdate trim => exact absurd rfl (hr trim)
  | _ => unfold exec; simp
theorem clocks_eq_iff (s t : State) : t.clocks = s.clocks ↔ t.tn = s.tn ∧ t.ticks = s.ticks ∧ t.kennel.rtc = s.kennel.rtc
    ∧ t.kennel.rtcPart = s.kennel.rtcPart ∧ t.kennel.settings.rtcTrim = s.kennel.settings.rtcTrim ∧ t.pending = s.pending := by
  simp [State.clocks]
theorem execKennelRtcUpdate_keepsTn {trim} {s t : State} (h : execKennelRtcUpdate trim s = .next t) : t.tn = s.tn ∧ t.ticks = s.ticks := by
  simp only [execKennelRtcUpdate] at h
  split at h <;> cases h <;> simp
theorem exec_keepsTn (c : Instr) (s t : State) (h : keepsTn c = true) (ht : exec c s = .next t) : t.tn = s.tn ∧ t.ticks = s.ticks := by
  by_cases hr : ∃ trim, c = .kennelRtcUpdate trim
  · obtain ⟨trim, rfl⟩ := hr
    exact execKennelRtcUpdate_keepsTn ht
  · have hc := exec_keepsClocks c s h (fun trim e => hr ⟨trim, e⟩) t ht
    obtain ⟨htn, hticks, -⟩ := (clocks_eq_iff s t).mp hc
    exact ⟨htn, hticks⟩

/-! ### TICK -/

/-- The Kennel counter runs on from what the clocks hold. -/
theorem counted_rtc_of_clocks {s t : State} (h : t.clocks = s.clocks) (err : Int) (n : Nat) :
    (t.kennel.counted err n).rtc = (s.kennel.counted err n).rtc := by
  obtain ⟨-, -, hrtc, hpart, htrim, -⟩ := (clocks_eq_iff s t).mp h
  simp [Kennel.counted, hrtc, hpart, htrim]
/-- What the advance of the tick does to the clocks it finds. -/
theorem advanceTick_moves {s u t : State} (hu : u.clocks = s.clocks) (ht : t.clocks = u.advanceTick.clocks) :
    t.tn = s.tn + 1 ∧ t.ticks = s.ticks + 1 ∧ t.kennel.rtc = (s.kennel.counted (Config.rtcError s.ticks) 1).rtc ∧ t.pending = s.pending := by
  have hrtc := counted_rtc_of_clocks hu (Config.rtcError s.ticks) 1
  obtain ⟨utn, uticks, -, -, -, upending⟩ := (clocks_eq_iff s u).mp hu
  obtain ⟨tn, ticks, rtc, -, -, pending⟩ := (clocks_eq_iff u.advanceTick t).mp ht
  refine ⟨tn.trans ?_, ticks.trans ?_, rtc.trans ?_, pending.trans upending⟩
  · simp [State.advanceTick, utn]
  · simp [State.advanceTick, uticks]
  · simpa [State.advanceTick, uticks] using hrtc
/-- A tick outside a reset of the device advances the clocks once, after the running tick has closed; nothing at the boundary moves them
again. -/
theorem execTick_advances (obs : TickObs) (s : State) (h : s.sysHeld = false) :
    Completes (execTick obs s) (fun t => t.tn = s.tn + 1 ∧ t.ticks = s.ticks + 1
      ∧ t.kennel.rtc = (s.kennel.counted (Config.rtcError s.ticks) 1).rtc ∧ t.pending = s.pending) :=
  ⟨(s.closeTick obs).advanceTick.boundary.releaseHeld.parseAll.refreshAlert, by simp [execTick, h],
    advanceTick_moves (s.closeTick_clocks obs) (by simp)⟩
theorem execTick_held (obs : TickObs) (s : State) (h : s.sysHeld = true) : execTick obs s = .next s := by simp [execTick, h]

/-- Settles O4: the rows but a tick, a realignment and the resets leave the clocks alone, and TICK advances them once. -/
theorem tickNumberMoves : Obligations.TickNumberMoves := ⟨exec_keepsTn, execTick_advances, execTick_held⟩
end Sys2Proof.Machine
end

section
/-! The resets of the whole device and its start (O56): what a reset clears, and what the clocks hold after a start. -/
namespace Sys2Proof.Machine

/-! ### What a reset of the device clears -/

/-- What one step of a fold establishes, and every step keeps, holds after the fold. -/
theorem foldl_establishes {α : Type} {P : State → Prop} {f : State → α → State} (keep : ∀ s a, P s → P (f s a))
    {b : α} (once : ∀ s, P (f s b)) (l : List α) (s : State) (h : b ∈ l) : P (l.foldl f s) := by
  induction l generalizing s with
  | nil => cases h
  | cons a l ih =>
    rcases List.mem_cons.mp h with rfl | h
    · exact List.foldlRecOn l f (once s) (fun s hs a _ => keep s a hs)
    · exact ih (f s a) h
/-- Emptying flash slots depends on the commands that run and on the flash alone. -/
theorem State.emptySlot?_sec (hit : Job → Bool) {s t : State} (hj : t.proto.jobs = s.proto.jobs) (hs : t.sec = s.sec) :
    (t.emptySlot? hit).sec = (s.emptySlot? hit).sec := by
  simp only [State.emptySlot?, hj]
  generalize s.proto.jobs.filter (fun j => hit j && j.ticket.opcode == 0xB00) = l
  induction l generalizing s t with
  | nil => exact hs
  | cons j l ih => exact ih hj (by simp [State.setSlot, hs])
@[simp] theorem State.setSlot_rollback (c : Cmd) (x : FwSlot) (s : State) : (s.setSlot c x).sec.rollback = s.sec.rollback := by
  simp only [State.setSlot]; split <;> rfl
@[simp] theorem State.emptySlot?_rollback (hit : Job → Bool) (s : State) : (s.emptySlot? hit).sec.rollback = s.sec.rollback := by
  unfold State.emptySlot?
  generalize s.proto.jobs.filter (fun j => hit j && j.ticket.opcode == 0xB00) = l
  induction l generalizing s with
  | nil => rfl
  | cons j l ih => exact (ih _).trans (s.setSlot_rollback j.cmd .reset)

/-- Telling the erased keys and taking the endpoint down touch only what an event and the endpoint touch. -/
theorem State.sysReset_frame {β : Type} (g : State → β) (s : State)
    (hr : ∀ ev k i ws tn s, g (s.raiseAt ev k i ws tn) = g s := by simp) (hd : ∀ f s, g (s.modDev f) = g s := by simp) :
    g s.sysReset = g s.sysCleared := by
  unfold State.sysReset State.endpointNow
  dsimp only
  rw [hd]
  exact State.foldl_same g _ (fun _ _ => State.foldl_same g _ (fun _ _ => hr ..) _ _) _ _
/-- Each LOADED slot tells its erasure (R353). -/
theorem State.sysReset_raised (s : State) (e : Fin 48) (i : Nat) (hi : i < 4) (h : ((s.keys e).slot i).isSome = true) :
    Raised .keyErased .engine e (w1 0) s.tn s.sysReset := by
  have hslot : i ∈ (List.range 4).filter (fun i => ((s.keys e).slot i).isSome) := List.mem_filter.mpr ⟨List.mem_range.mpr hi, h⟩
  have hloaded : e.val ∈ (List.range 48).filter (fun e => (List.range 4).any (fun i => ((s.keys e).slot i).isSome)) :=
    List.mem_filter.mpr ⟨List.mem_range.mpr e.isLt, List.any_eq_true.mpr ⟨i, List.mem_range.mpr hi, h⟩⟩
  have hkeep : ∀ (e' : Nat) (t : State), Raised .keyErased .engine e (w1 0) s.tn t →
      Raised .keyErased .engine e (w1 0) s.tn (t.raiseAt .keyErased .engine e' (w1 EraseCause.sysRst.code) s.tn) :=
    fun e' t ht => raised_raise_of _ _ _ _ _ _ _ _ _ _ t ht
  unfold State.sysReset State.endpointNow
  dsimp only
  refine raised_same _ _ _ _ _ _ _ (foldl_establishes ?_ ?_ _ _ hloaded) rfl rfl rfl rfl rfl
  · exact fun t e' ht => List.foldlRecOn _ _ ht (fun t ht _ _ => hkeep e' t ht)
  · exact fun t => foldl_establishes (fun t _ ht => hkeep e t ht) (fun t => raised_raiseAt ..) _ t hslot

/-- A reset of the device after what leaves engines, running commands, flash and settings as they were (R483, R484, R498). -/
theorem systemReset_of {s u : State} (he : u.engines = s.engines) (hj : u.proto.jobs = s.proto.jobs) (hs : u.sec = s.sec)
    (hk : u.kennel.settings = s.kennel.settings) (hp : u.pending = s.pending) (hf : u.freeCtr = s.freeCtr) (ht : u.tn = s.tn) :
    SystemReset s u.sysReset := by
  have hflash := State.emptySlot?_sec (fun _ => true) hj hs
  have hkeys : ∀ e, u.keys e = s.keys e := fun e => by simp [State.keys, State.eng, he]
  refine ⟨(u.sysReset_frame (·.engines)).trans (by simp [State.sysCleared, he]), u.sysReset_frame (·.ports), u.sysReset_frame (·.packs),
    u.sysReset_frame (·.cal), u.sysReset_frame (·.map), u.sysReset_frame (·.mapCentre), u.sysReset_frame (·.time),
    u.sysReset_frame (·.recovery), u.sysReset_frame (·.dma), u.sysReset_frame (·.lanes), u.sysReset_frame (·.htiles),
    u.sysReset_frame (·.mons), u.sysReset_frame (·.chains), u.sysReset_frame (·.proto.armed), u.sysReset_frame (·.proto.jobs),
    u.sysReset_frame (·.proto.held), u.sysReset_frame (·.proto.masked), u.sysReset_frame (·.tn),
    (u.sysReset_frame (·.sec)).trans (by simp [State.sysCleared, hflash]), (u.sysReset_frame (·.kennel.settings)).trans hk,
    (u.sysReset_frame (·.pending)).trans hp, (u.sysReset_frame (·.freeCtr)).trans hf, fun e i hi h => ?_⟩
  rw [← ht]
  exact u.sysReset_raised e i hi (by rw [hkeys]; exact h)
theorem State.sysReset_power (s : State) : s.sysReset.power = s.power.held := s.sysReset_frame (·.power)
theorem State.sysReset_kennel (s : State) : s.sysReset.kennel = s.kennel := s.sysReset_frame (·.kennel)
theorem State.sysReset_endpointUp (s : State) (h : s.power.sysRstLow = true) : s.sysReset.dev.endpointUp = false := by
  have hp := s.sysReset_power
  unfold State.sysReset State.endpointNow at hp ⊢
  simp only [State.modDev_dev, State.modDev_power] at hp ⊢
  simp [State.endpointFree, State.sysHeld, hp, h, Power.held]

/-! ### Counts in the life record -/

/-- A count in the life record changes the record as it says. -/
theorem State.lifeBump_life (o p n : Nat) (get : LifeRecord → Nat) (put : Nat → LifeRecord → LifeRecord) (s : State) :
    (s.lifeBump o p n get put).kennel.life = put (min p (get s.kennel.life + n)) s.kennel.life := by
  simp only [State.lifeBump, State.lifeFull]
  (repeat' split) <;> simp [State.modKennel, State.modLife]
theorem raised_lifeBump {ev k i ws tn} (o p n get put) {s : State} (h : Raised ev k i ws tn s) :
    Raised ev k i ws tn (s.lifeBump o p n get put) := by
  simp only [State.lifeBump, State.lifeFull]
  (repeat' split)
  · exact raised_same _ _ _ _ _ s _ h rfl rfl rfl rfl rfl
  · exact raised_raise_of _ _ _ _ _ _ _ _ _ _ _ (raised_same _ _ _ _ _ s _ h rfl rfl rfl rfl rfl)
  · exact raised_same _ _ _ _ _ s _ h rfl rfl rfl rfl rfl
theorem SystemReset.lifeBump {s t : State} (h : SystemReset s t) (o p n get) {put : Nat → LifeRecord → LifeRecord} :
    SystemReset s (t.lifeBump o p n get put) := by
  obtain ⟨engines, ports, packs, cal, map, centre, time, recovery, dma, lanes, htiles, mons, chains, armed, jobs, held, masked, tn, sec,
    settings, pending, free, told⟩ := h
  refine ⟨?_, ?_, ?_, ?_, ?_, ?_, ?_, ?_, ?_, ?_, ?_, ?_, ?_, ?_, ?_, ?_, ?_, ?_, ?_, ?_, ?_, ?_,
    fun e i hi hs => raised_lifeBump _ _ _ _ _ (told e i hi hs)⟩
  all_goals simpa

/-! ### The start -/

theorem State.recentre_frame {β : Type} (g : State → β) (he : ∀ i f s, g (s.modEng i f) = g s) (e dac lane) (s : State) :
    g (s.recentre e dac lane) = g s := by
  unfold State.recentre
  refine State.foldl_same g _ (fun s t => ?_) _ _
  dsimp only
  split
  · rfl
  · exact State.foldl_same g _ (fun s i => he ..) _ _
theorem State.applyRetirements_frame {β : Type} (g : State → β) (he : ∀ i f s, g (s.modEng i f) = g s) (s : State) :
    g s.applyRetirements = g s := by
  refine State.foldl_same g _ (fun s r => ?_) _ _
  split
  · rfl
  · exact (State.recentre_frame g he ..).trans (he ..)
theorem State.refreshAlert_frame {β : Type} (g : State → β) (hd : ∀ f s, g (s.modDev f) = g s) (s : State) : g s.refreshAlert = g s := by
  unfold State.refreshAlert State.signal
  (repeat' split) <;> simp only [hd]
/-- The device with its clocks taken from the Kennel (R39, R315, R484), before its engines start. -/
def State.clocksTaken (elapsed : Nat) (s : State) : State :=
  let kept := s.kennel.rtcKept
  let run := s.kennel.counted (Config.rtcError s.ticks) elapsed
  let rtc := if kept then run.rtcRead else 0
  let s := (s.modKennel (fun k => { k with
    rtc := if kept then run.rtc else 0, rtcPart := if kept then run.rtcPart else 0, rtcKept := true })).ivAdvance
  let k := s.kennel.settings
  let tn := if k.epochSet then ((rtc - k.epochTai) / tickUnits).toNat else 0
  let s := { s with tn := tn, tickOffset := rtc - tn * tickUnits, tnProvisional := true }
  s.modTime (fun t => { t with
    timeValid := kept, uncert := if kept then nsUnits 31000 + roundDiv (elapsed * tickUnits) 20000 else 0, uncertAt := 0 })
/-- Its engines start: the asymmetry of the first interval, the first calibration window, the retirement list; then the endpoint. -/
def State.enginesStarted (s : State) : State :=
  let s := (List.range 48).foldl (fun s e => s.modLtt e (fun l => { l with
    asymNow := ((s.route e).fibreAsym, (s.route e).farFeSkew) })) s
  let s := (List.range 48).foldl (fun s e => s.modConv e (fun k => { k with winRunning := decide (s.tn % k.cfg.window = 0) })) s
  s.applyRetirements.endpointNow.refreshAlert
theorem State.enginesStarted_frame {β : Type} (g : State → β) (s : State) (he : ∀ i f s, g (s.modEng i f) = g s := by simp)
    (hd : ∀ f s, g (s.modDev f) = g s := by simp) : g s.enginesStarted = g s := by
  unfold State.enginesStarted State.endpointNow
  dsimp only
  rw [State.refreshAlert_frame g hd, hd, State.applyRetirements_frame g he]
  exact (State.foldl_same g _ (fun s e => he ..) _ _).trans (State.foldl_same g _ (fun s e => he ..) _ _)
/-- With valid Kennel images and MGMT_RST_N high the start is the clocks' and then the engines'. -/
theorem State.sysStart_eq (elapsed : Nat) (s : State) (hc : s.kennel.settingsCrc = true) (hl : s.kennel.lifeCrc = true)
    (hm : (s.clocksTaken elapsed).power.mgmtRstLow = false) : s.sysStart elapsed = (s.clocksTaken elapsed).enginesStarted := by
  have hs : s.checkSettings.checkLife = s := by simp [State.checkSettings, State.checkLife, hc, hl]
  have hp : (s.clocksTaken elapsed).enginesStarted.power.mgmtRstLow = false :=
    (State.enginesStarted_frame (·.power.mgmtRstLow) _).trans hm
  unfold State.sysStart
  rw [hs]
  exact if_neg (by rw [← Bool.not_eq_true] at hp; exact hp)
@[simp] theorem State.ivAdvance_of_lt (s : State) (h : s.kennel.settings.ivGen < 65535) :
    s.ivAdvance = s.modSettings (fun k => { k with ivGen := k.ivGen + 1 }) := if_neg (Nat.ne_of_lt h)
/-- What the device holds after a start of its clocks (R39, R315, R484): the counter where it was kept, TN from its whole cycles. -/
def ClocksStarted (elapsed : Nat) (s t : State) : Prop :=
  t.kennel.settings = { s.kennel.settings with ivGen := s.kennel.settings.ivGen + 1 }
    ∧ t.kennel.life = s.kennel.life ∧ t.kennel.rtcKept = true
    ∧ t.kennel.rtc = (if s.kennel.rtcKept = true then (s.kennel.counted (Config.rtcError s.ticks) elapsed).rtc else 0)
    ∧ t.tn = (if s.kennel.settings.epochSet = true then ((t.kennel.rtcRead - s.kennel.settings.epochTai) / tickUnits).toNat else 0)
    ∧ t.nowTai = t.kennel.rtcRead ∧ t.tnProvisional = true ∧ t.time.timeValid = s.kennel.rtcKept
theorem State.clocksTaken_power (elapsed : Nat) (s : State) (h : s.kennel.settings.ivGen < 65535) :
    (s.clocksTaken elapsed).power = s.power := by
  simp [State.clocksTaken, State.modKennel, h]
theorem State.clocksTaken_started (elapsed : Nat) (s : State) (h : s.kennel.settings.ivGen < 65535) :
    ClocksStarted elapsed s (s.clocksTaken elapsed) := by
  cases hk : s.kennel.rtcKept <;>
    simp [ClocksStarted, State.clocksTaken, State.modKennel, State.modSettings, State.modTime, h, hk, Kennel.rtcRead, State.nowTai, State.taiAt]
theorem ClocksStarted.enginesStarted {elapsed : Nat} {s t : State} (h : ClocksStarted elapsed s t) : ClocksStarted elapsed s t.enginesStarted := by
  have hkennel := t.enginesStarted_frame (·.kennel)
  have htn := t.enginesStarted_frame (·.tn)
  have hoffset := t.enginesStarted_frame (·.tickOffset)
  have hprovisional := t.enginesStarted_frame (·.tnProvisional)
  have htime := t.enginesStarted_frame (·.time)
  simpa only [ClocksStarted, State.nowTai, State.taiAt, hkennel, htn, hoffset, hprovisional, htime] using h
theorem execSysRstRelease_starts (elapsed : Nat) (s : State) (hlow : s.power.sysRstLow = true)
    (ha : s.power.inReset.any (fun d => d.1 == .aux) = false) :
    execSysRstRelease elapsed s = .next ((s.modPower (fun p => { p with sysRstLow := false })).sysStart elapsed) := by
  have hh : (s.modPower (fun p => { p with sysRstLow := false })).sysHeld = false := by simp only [State.sysHeld, State.modPower_power, ha]; rfl
  simp only [execSysRstRelease, hlow, hh]
  rfl

/-! ### The rows -/

/-- SYS_RST_N falls (R483): the reset, counted in the life record. -/
theorem execSysRstAssert_resets (s : State) (hhigh : s.power.sysRstLow = false) :
    Completes (execSysRstAssert s) (fun t => SystemReset s t ∧ t.power.sysRstLow = true ∧ t.dev.endpointUp = false
      ∧ t.kennel.life = { s.kennel.life with sysResets := min 4294967295 (s.kennel.life.sysResets + 1) }) := by
  refine ⟨_, by simp only [execSysRstAssert, hhigh]; rfl, ?_, ?_, ?_, ?_⟩
  · exact systemReset_of (by simp) (by simp) (by simp) (by simp) (by simp) (by simp) (by simp)
  · simp [State.sysReset_power, Power.held]
  · exact State.sysReset_endpointUp _ (by simp)
  · simp [State.sysReset_kennel, State.lifeBump_life]
theorem execSysRstAssert_low (s : State) (hlow : s.power.sysRstLow = true) : execSysRstAssert s = .next s := if_pos hlow
theorem execSysRstRelease_high (elapsed : Nat) (s : State) (hhigh : s.power.sysRstLow = false) : execSysRstRelease elapsed s = .next s := by
  simp [execSysRstRelease, hhigh]
/-- VDD_AUX and VBAT are lost (R497, R498): the reset, with the Kennel images and the counter invalid. -/
theorem execKennelPowerLoss_resets (s : State) :
    Completes (execKennelPowerLoss s) (fun t => SystemReset s t ∧ t.power.sysRstLow = true ∧ t.power.vddAux = false
      ∧ t.power.vbat = false ∧ t.kennel.settingsCrc = false ∧ t.kennel.lifeCrc = false ∧ t.kennel.rtcKept = false) := by
  refine ⟨_, rfl, systemReset_of ?_ ?_ ?_ ?_ ?_ ?_ ?_, ?_⟩
  case refine_8 => simp [State.sysReset_power, State.sysReset_kennel, Power.held]
  all_goals simp [Kennel.powerDown]
/-- VDD_AUX comes up (R477, R497): the reset with SYS_RST_N low, counted in the life record. -/
theorem execVddAuxPowerUp_resets (s : State) :
    Completes (execVddAuxPowerUp s) (fun t => SystemReset s t ∧ t.power.sysRstLow = true ∧ t.power.vddAux = true
      ∧ t.kennel.life = { s.kennel.life with powerUps := min 4294967295 (s.kennel.life.powerUps + 1) }
      ∧ t.kennel.rtcKept = s.kennel.rtcKept) := by
  refine ⟨_, rfl, SystemReset.lifeBump (systemReset_of ?_ ?_ ?_ ?_ ?_ ?_ ?_) .., ?_⟩
  all_goals split <;> simp [Kennel.powerDown, State.sysReset_power, State.sysReset_kennel, State.lifeBump_life, Power.held]
/-- SYS_RST_N rises with nothing else in reset and valid Kennel images (R39, R484). -/
theorem execSysRstRelease_restores (elapsed : Nat) (s : State) (hlow : s.power.sysRstLow = true)
    (haux : s.power.inReset.any (fun d => d.1 == .aux) = false) (hcrc : s.kennel.settingsCrc = true) (hlife : s.kennel.lifeCrc = true)
    (hmgmt : s.power.mgmtRstLow = false) (hiv : s.kennel.settings.ivGen < 65535) :
    Completes (execSysRstRelease elapsed s) (fun t => t.power.sysRstLow = false ∧ ClocksStarted elapsed s t) := by
  rw [execSysRstRelease_starts elapsed s hlow haux]
  generalize hu : s.modPower (fun p => { p with sysRstLow := false }) = u
  have hkennel : u.kennel = s.kennel := by simp [← hu]
  have hpower : (u.clocksTaken elapsed).power = { s.power with sysRstLow := false } := by
    rw [u.clocksTaken_power elapsed (by rwa [hkennel])]
    simp [← hu]
  have hticks : u.ticks = s.ticks := by simp [← hu]
  rw [u.sysStart_eq elapsed (by rwa [hkennel]) (by rwa [hkennel]) (by simpa [hpower] using hmgmt)]
  refine ⟨_, rfl, ?_, ClocksStarted.enginesStarted ?_⟩
  · exact (State.enginesStarted_frame (·.power.sysRstLow) _).trans (by rw [hpower])
  · have hstarted := u.clocksTaken_started elapsed (by rwa [hkennel])
    simpa only [ClocksStarted, hkennel, hticks] using hstarted

/-- Settles O56: each row is a reset of the whole device after what it does to the supplies and the Kennel, or the start of it. -/
theorem systemResets : Obligations.SystemResets := fun s =>
  ⟨execSysRstAssert_resets s, execSysRstAssert_low s,
    fun elapsed => ⟨execSysRstRelease_high elapsed s, execSysRstRelease_restores elapsed s⟩,
    execKennelPowerLoss_resets s, execVddAuxPowerUp_resets s⟩
end Sys2Proof.Machine
end
section
/-! The overhead and defect commands of an engine (O43), and what every command does that sets or reads one engine. -/
namespace Sys2Proof.Machine

/-! ### Commands of one engine -/

/-- A command that acts at once on its engine alone. -/
theorem does_engine_now (sp : OpSpec) (f : Cmd → State → State × List Word) (g : Engine → Engine) (c : Cmd) (s : State) (ws : List Word)
    (h : Ready sp c s = true) (ht : sp.target = tgtEngine) (he : sp.eff = .now f) (ha : sp.onAccept = fun _ s => s)
    (hf : (f c (s.atParse sp.code c)).1 = (s.atParse sp.code c).modEng (cIdx c) g) (hw : (f c (s.atParse sp.code c)).2 = ws) :
    Does sp.code c ws [.engines] (fun t => t.eng (cIdx c) = g (s.eng (cIdx c)) ∧ OtherEngines (cIdx c) s t) s (runOp sp c s) := by
  have hlt := ready_engine sp c s h ht
  refine does_now sp f _ _ c s ws h he ha hw ?_ ?_ ?_ <;> rw [hf]
  · simp
  · exact ⟨by simp [hlt], fun j hj => by simp [hj]⟩
  · intro p hp
    cases p <;> simp [answerParts, Part.same] at hp ⊢
/-- A command that reads its words and changes nothing. -/
theorem reports_now (sp : OpSpec) (f : Cmd → State → State × List Word) (c : Cmd) (s : State) (ws : List Word)
    (h : Ready sp c s = true) (he : sp.eff = .now f) (ha : sp.onAccept = fun _ s => s)
    (hf : (f c (s.atParse sp.code c)).1 = s.atParse sp.code c) (hw : (f c (s.atParse sp.code c)).2 = ws) : Reports sp.code c ws s (runOp sp c s) := by
  refine does_now sp f _ _ c s ws h he ha hw ?_ trivial ?_ <;> rw [hf]
  · simp
  · intro p hp
    cases p <;> simp [answerParts, Part.same] at hp ⊢
/-- A pending change whose effect is on its engine alone. -/
theorem engineChange_of (op : Nat) (f : Cmd → State → State) (g : Engine → Engine) (c : Cmd) (s : State) (hlt : cIdx c < 48)
    (hb : boundaryEffect op = f) (hf : ∀ u, f c u = u.modEng (cIdx c) g) : EngineChange op c g s := by
  refine takesEffect_of op c f _ _ s hb ?_ ?_ ?_ ?_ (fun t st d ws u hu => only_final _ s u t st d ws hu ?_ ?_ ?_ ?_)
  · rw [hf]
    exact ⟨by simp [hlt], fun j hj => by simp [hj]⟩
  · exact fun t st d ws u hu => ⟨by simpa using hu.1, fun j hj => by simpa using hu.2 j hj⟩
  · simp [hf]
  · rw [hf]
    intro p hp
    cases p <;> simp [Part.same] at hp ⊢
  all_goals simp

/-! ### The changes at their boundary -/

theorem boundaryEffect_engineLock : boundaryEffect 0x11F = fun c s => s.modTx (cIdx c) (fun t => { t with lck := true }) := by
  simp [boundaryEffect, opTable_EngineLock, specEngineLock]
theorem boundaryEffect_engineUnlock : boundaryEffect 0x120 = fun c s => s.modTx (cIdx c) (fun t => { t with lck := false }) := by
  simp [boundaryEffect, opTable_EngineUnlock, specEngineUnlock]
theorem boundaryEffect_engineOpareaSet : boundaryEffect 0x123 =
    fun c s => s.modTx (cIdx c) (fun t => { t with opArea := unpackWords (c.words.drop 1) }) := by
  simp [boundaryEffect, opTable_EngineOpareaSet, specEngineOpareaSet]
theorem boundaryEffect_engineDefectSet : boundaryEffect 0x11E =
    fun c s => s.modDefect (cIdx c) (fun d => { d with
      cfg := { sfHoldoff := cw c 1, ucfSet := cw c 2, degInterval := 625 * cw c 3, degM := cw c 4, degSet := cw c 5, degClr := cw c 6
               expectedSrc := cw c 7, timMode := cw c 8, timAct := cw c 9 == 1 } }) := by
  simp [boundaryEffect, opTable_EngineDefectSet, specEngineDefectSet]

/-- Settles O43: each command by the kind of its effect, at once, armed, at its boundary or over time. -/
theorem overheadCommands : Obligations.OverheadCommands := by
  intro c s
  refine ⟨fun h => ?_, fun h => ?_, fun h => ?_, fun h => ?_, fun h => ?_, fun h => ?_, fun h => ?_, fun h => ?_, fun h => ?_,
    fun h => ?_, fun hlt => ⟨?_, ?_, ?_, ?_⟩⟩
  · exact does_engine_now specEngineTtiSet _ _ c s [] h rfl rfl rfl rfl rfl
  · exact reports_now specEngineTtiRead _ c s _ h rfl rfl rfl (by simp)
  · exact arms_boundary specEngineLock 0x11F _ c s h rfl rfl
  · exact arms_boundary specEngineUnlock 0x11F _ c s h rfl rfl
  · exact does_engine_now specEngineSvcWrite _ _ c s [] h rfl rfl rfl rfl rfl
  · exact does_engine_now specEngineSvcRead _ _ c s _ h rfl rfl rfl rfl (by simp)
  · exact arms_boundary specEngineOpareaSet 0x123 _ c s h rfl rfl
  · exact reports_now specEngineOpareaRead _ c s _ h rfl rfl rfl (by simp)
  · exact arms_boundary specEngineDefectSet 0x11E _ c s h rfl rfl
  · exact beginsDma_load specEngineNlcCoefLoad c s h rfl rfl
  · exact engineChange_of _ _ _ c s hlt boundaryEffect_engineLock (fun _ => rfl)
  · exact engineChange_of _ _ _ c s hlt boundaryEffect_engineUnlock (fun _ => rfl)
  · exact engineChange_of _ _ _ c s hlt boundaryEffect_engineOpareaSet (fun _ => rfl)
  · exact engineChange_of _ _ _ c s hlt boundaryEffect_engineDefectSet (fun _ => rfl)
end Sys2Proof.Machine
end

section
/-! Reception of a frame (O44): the parts that a step may touch, and what it brings to its engine, counts and tells. -/
namespace Sys2Proof.Machine

/-! ### Which parts a step touches -/

/-- Only engine `e` and the parts of `l` may differ. -/
def Within (e : Nat) (l : List Part) (s t : State) : Prop := Only (.engines :: l) s t ∧ OtherEngines e s t
theorem Within.refl (e : Nat) (l : List Part) (s : State) : Within e l s s :=
  ⟨fun p _ => by cases p <;> simp [Part.same], fun _ _ => rfl⟩
theorem Within.mono {e : Nat} {l m : List Part} {s t : State} (h : Within e l s t) (hl : ∀ p ∈ l, p ∈ m) : Within e m s t :=
  ⟨fun p hp => h.1 p (fun hm => hp (by
    rcases List.mem_cons.mp hm with rfl | hm
    · exact List.mem_cons_self
    · exact List.mem_cons_of_mem _ (hl p hm))), h.2⟩
theorem Within.trans {e : Nat} {l : List Part} {s u t : State} (h : Within e l s u) (h' : Within e l u t) : Within e l s t :=
  ⟨only_trans _ _ s u t h.1 h'.1 (fun _ hp => hp), fun j hj => (h'.2 j hj).trans (h.2 j hj)⟩
theorem Within.foldl {α : Type} {e : Nat} {l : List Part} {f : State → α → State} (h : ∀ s a, Within e l s (f s a)) (as : List α)
    (s : State) : Within e l s (as.foldl f s) :=
  List.foldlRecOn as f (Within.refl e l s) (fun _ hu a _ => hu.trans (h _ a))
/-- A step that leaves every engine touches the parts it touches. -/
theorem Within.of_only {e : Nat} {l : List Part} {s t : State} (h : Only l s t) (he : t.engines = s.engines) : Within e l s t :=
  ⟨only_cons _ _ _ _ h, fun j _ => by simp [State.eng, he]⟩

theorem within_modEng (e : Nat) (f : Engine → Engine) (s : State) : Within e [] s (s.modEng e f) :=
  ⟨fun p hp => by cases p <;> simp [Part.same] at hp ⊢, fun j hj => by simp [hj]⟩
theorem within_count (e : Nat) (c : Ctr) (k : Kind) (i n : Nat) (s : State) : Within e [.happened] s (s.count c k i n) :=
  .of_only (fun p hp => by cases p <;> simp [Part.same] at hp ⊢) (by simp)
theorem within_happen (e slot n : Nat) (s : State) : Within e [.happened] s (s.happen slot n) :=
  .of_only (fun p hp => by cases p <;> simp [Part.same] at hp ⊢) (by simp)
theorem within_raise (e : Nat) (ev : Ev) (k : Kind) (i : Nat) (ws : List Word) (s : State) : Within e eventParts s (s.raise ev k i ws) :=
  .of_only (only_raise ev k i ws s) (by simp)
theorem within_modPort (e n : Nat) (f : Port → Port) (s : State) : Within e [.ports] s (s.modPort n f) :=
  .of_only (fun p hp => by cases p <;> simp [Part.same] at hp ⊢) (by simp)
theorem within_modPack (e n : Nat) (f : Pack → Pack) (s : State) : Within e [.packs] s (s.modPack n f) :=
  .of_only (fun p hp => by cases p <;> simp [Part.same] at hp ⊢) (by simp)
theorem within_fresh (e : Nat) (s : State) : Within e [.freeCtr] s s.fresh.2 :=
  .of_only (fun p hp => by cases p <;> simp [Part.same, State.fresh, State.tile] at hp ⊢) rfl
theorem within_ucfMark (e : Nat) (s : State) : Within e [.kennelRest] s (s.ucfMark e) := by
  unfold State.ucfMark
  split
  · exact .of_only (fun p hp => by cases p <;> simp [Part.same] at hp ⊢) (by simp)
  · exact .refl ..
theorem within_trialStep (e : Nat) (s : State) : Within e eventParts s (s.trialStep e) := by
  unfold State.trialStep
  dsimp only
  split
  · exact ((within_modEng e _ s).mono (by simp)).trans (within_raise ..)
  · exact (within_modEng e _ s).mono (by simp)
theorem within_countGrains (e : Nat) (rx : Bool) (k : Kind) (i : Nat) (gs : List Grain) (s : State) :
    Within e [.happened] s (s.countGrains rx k i gs) :=
  .foldl (fun s f => by dsimp only; split; exacts [within_happen .., .refl ..]) _ _
theorem within_modStore_engine (e : Nat) (f : Store → Store) (s : State) : Within e [] s (s.modStore .engine e f) := within_modEng ..
theorem within_storeFrame (e : Nat) (slots : Option (List Grain)) (carried : Nat) (s : State) :
    Within e [.ports] s (s.storeFrame .engine e slots carried) := by
  have hclient : ∀ (s : State) (c : Nat × List (Nat × Nat)) (f : Store → Store) (b : Prop) [Decidable b] ,
      Within e [.ports] s ((if b then s.modData c.1 (fun d => { d with csfSeen := true }) else s).modStore .engine e f) := by
    intro s c f b _
    refine .trans ?_ ((within_modStore_engine ..).mono (by simp))
    split
    exacts [within_modPort .., .refl ..]
  unfold State.storeFrame
  dsimp only
  split
  · exact (Within.foldl (fun s c => hclient s c _ _) _ s).trans ((within_modStore_engine ..).mono (by simp))
  · exact .foldl (fun s c => hclient s c _ _) _ s
theorem within_packArrive (e p : Nat) (part : PackPart) (carried : Nat) (s : State) : Within e [.packs] s (s.packArrive p part carried) := by
  unfold State.packArrive
  split <;> exact within_modPack ..
theorem within_toFabric (e : Nat) (slots : Option (List Grain)) (carried : Nat) (s : State) :
    Within e [.packs, .ports] s (s.toFabric e slots carried) := by
  unfold State.toFabric
  split
  · exact (within_storeFrame ..).mono (by simp)
  · exact (within_packArrive ..).mono (by simp)
/-- An update of a line tile keeps what its function keeps. -/
theorem State.tile_modTile_of {β : Type} (g : Tile → β) (i : Nat) (f : Tile → Tile) (h : ∀ t, g (f t) = g t) (j : Nat) (s : State) :
    g ((s.modTile i f).tile j) = g (s.tile j) := by
  by_cases hj : j = i
  · subst hj
    by_cases hlt : j < 12
    · rw [State.tile_modTile_same _ _ _ hlt, h]
    · simp [State.modTile, vmod_out _ _ _ hlt, State.tile]
  · rw [State.tile_modTile_ne _ _ _ _ hj]
theorem within_captureSymbols (e layout : Nat) (f : RxSignal) (s : State) :
    Within e (if s.takesSymbols e then [.tiles] else []) s (s.captureSymbols e layout f) := by
  unfold State.captureSymbols
  split
  · refine .of_only (fun p hp => ?_) (by simp)
    cases p <;> simp [Part.same] at hp ⊢
    exact fun k => State.tile_modTile_of (·.capture.start) _ _ (fun _ => by dsimp only) k s
  · exact .refl ..
theorem Tile.untriggered_capture {x y : Tile} (h : x.untriggered = y.untriggered) :
    x.capture.state = y.capture.state ∧ x.capture.source = y.capture.source ∧ x.capture.sub = y.capture.sub := by
  have hcapture : x.untriggered.capture = y.untriggered.capture := congrArg Tile.capture h
  simp only [Tile.untriggered, Capture.mk.injEq] at hcapture
  simp only [hcapture, and_self]
/-- Whether a capture takes the symbols does not depend on its trigger flag. -/
theorem Within.takesSymbols {e : Nat} {l : List Part} {s t : State} (h : Within e l s t) (hl : Part.tiles ∉ l) :
    t.takesSymbols e = s.takesSymbols e := by
  obtain ⟨hstate, hsource, hsub⟩ := Tile.untriggered_capture (h.1 .tiles (by simpa using hl) (tileOf e))
  simp only [State.takesSymbols, Capture.engine, hstate, hsource, hsub]

/-! ### What a step brings from a frame, and what it tells -/

/-- What `FrameReception` names of what an engine took from received frames. -/
structure Taken where
  lastTn : Option Nat
  framesSince : Nat
  stamps : List (Option (Nat × Int))
  echoTn : Nat
  echoArrival : Int
  echoValid : Bool
  txTime : Int
  opArea : Option (List Octet)
  svcRx : List Octet
  beiCw : Nat
def Received.taken (r : Received) : Taken :=
  { lastTn := r.lastTn, framesSince := r.framesSince, stamps := r.stamps, echoTn := r.echoTn, echoArrival := r.echoArrival
    echoValid := r.echoValid, txTime := r.txTime, opArea := r.opArea, svcRx := r.svcRx, beiCw := r.beiCw }
def State.taken (s : State) (e : Nat) : Taken := (s.eng e).rx.taken
/-- A step changes what engine `e` took as `φ` says; what has been counted stays counted, and what has been raised stays raised. -/
structure Brings (e : Nat) (φ : Taken → Taken) (s t : State) : Prop where
  counted : ∀ x ∈ s.ctr.happened, x ∈ t.ctr.happened
  raised : ∀ ev k i ws tn, Raised ev k i ws tn s → Raised ev k i ws tn t
  taken : t.taken e = φ (s.taken e)
/-- A step that brings nothing. -/
abbrev Leaves (e : Nat) : State → State → Prop := Brings e id
theorem Leaves.refl (e : Nat) (s : State) : Leaves e s s := ⟨fun _ h => h, fun _ _ _ _ _ h => h, rfl⟩
theorem Brings.trans {e : Nat} {φ ψ : Taken → Taken} {s u t : State} (h : Brings e φ s u) (h' : Brings e ψ u t) :
    Brings e (ψ ∘ φ) s t :=
  ⟨fun x hx => h'.counted x (h.counted x hx), fun _ _ _ _ _ hx => h'.raised _ _ _ _ _ (h.raised _ _ _ _ _ hx),
    by rw [h'.taken, h.taken]; rfl⟩
theorem Leaves.trans {e : Nat} {s u t : State} (h : Leaves e s u) (h' : Leaves e u t) : Leaves e s t := Brings.trans h h'
theorem Leaves.foldl {α : Type} {e : Nat} {f : State → α → State} (h : ∀ s a, Leaves e s (f s a)) (as : List α) (s : State) :
    Leaves e s (as.foldl f s) :=
  List.foldlRecOn as f (Leaves.refl e s) (fun _ hu a _ => hu.trans (h _ a))
theorem leaves_ite {e : Nat} {b : Prop} {_ : Decidable b} {s t u : State} (ht : Leaves e s t) (hu : Leaves e s u) :
    Leaves e s (if b then t else u) := by
  split
  exacts [ht, hu]
/-- A step that leaves the counters, the queues and the engines. -/
theorem leaves_of_same (e : Nat) {s t : State} (hc : t.ctr = s.ctr) (hp : t.proto = s.proto) (he : t.engines = s.engines) : Leaves e s t :=
  ⟨by simp [hc], fun _ _ _ _ _ h => raised_same _ _ _ _ _ s t h (by rw [hc]) (by rw [hp]) (by rw [hp]) (by rw [hp]) (by rw [hp]),
    by simp [State.taken, State.eng, he]⟩
/-- A change of the engine itself, which may be of what it took. -/
theorem brings_modEng_at {e : Nat} (he : e < 48) (φ : Taken → Taken) (f : Engine → Engine) (s : State)
    (h : (f (s.eng e)).rx.taken = φ (s.taken e)) : Brings e φ s (s.modEng e f) :=
  ⟨by simp, fun _ _ _ _ _ hr => raised_same _ _ _ _ _ s _ hr rfl rfl rfl rfl rfl, by rw [← h]; simp [State.taken, he]⟩
theorem brings_modEng {e : Nat} (he : e < 48) (φ : Taken → Taken) (f : Engine → Engine) (s : State)
    (h : ∀ g, (f g).rx.taken = φ g.rx.taken := by intro g; rfl) : Brings e φ s (s.modEng e f) := brings_modEng_at he φ f s (h _)
theorem leaves_modEng {e : Nat} (he : e < 48) (f : Engine → Engine) (s : State)
    (h : ∀ g, (f g).rx.taken = g.rx.taken := by intro g; rfl) : Leaves e s (s.modEng e f) := brings_modEng he id f s h
theorem brings_modRx {e : Nat} (he : e < 48) (φ : Taken → Taken) (f : Received → Received) (s : State)
    (h : ∀ r, (f r).taken = φ r.taken := by intro r; rfl) : Brings e φ s (s.modRx e f) := brings_modEng he φ _ s (fun g => h g.rx)
theorem leaves_fresh (e : Nat) (s : State) : Leaves e s s.fresh.2 := leaves_of_same e rfl rfl rfl
theorem leaves_happen (e slot n : Nat) (s : State) : Leaves e s (s.happen slot n) := by
  unfold State.happen
  split
  · exact .refl ..
  · exact ⟨fun x hx => List.mem_cons_of_mem _ hx, fun _ _ _ _ _ hr => ⟨List.mem_cons_of_mem _ hr.1, hr.2⟩, rfl⟩
theorem leaves_count (e : Nat) (c : Ctr) (k : Kind) (i n : Nat) (s : State) : Leaves e s (s.count c k i n) := leaves_happen ..
theorem leaves_modTime (e : Nat) (f : TimeCore → TimeCore) (s : State) : Leaves e s (s.modTime f) := leaves_of_same e rfl rfl rfl
theorem leaves_raise (e : Nat) (ev : Ev) (k : Kind) (i : Nat) (ws : List Word) (s : State) : Leaves e s (s.raise ev k i ws) := by
  refine ⟨fun x hx => ?_, fun _ _ _ _ _ hr => raised_raise_of _ _ _ _ _ _ _ _ _ _ s hr, by simp [State.taken]⟩
  obtain ⟨-, hc⟩ := noticed ev k i s
  rw [State.raise, raiseAt_eq _ _ _ _ _ _ _ rfl, apply_ite (fun t : State => t.ctr.happened), (postEvent_counts _ _).1, ite_self, hc]
  exact List.mem_cons_of_mem _ hx
theorem leaves_finishJobs (e : Nat) (p : Job → Bool) (st : Status) (d : Nat) (ws : List Word) (s : State) :
    Leaves e s (s.finishJobs p st d ws) :=
  ⟨by simp, fun _ _ _ _ _ hr => raised_same _ _ _ _ _ s _ hr (by simp) (by simp) (by simp) (by simp) (by simp), by simp [State.taken]⟩

end Sys2Proof.Machine
end

section
/-! Reception of a frame: what its steps bring to the fabric, the time core and the engine's overhead. -/
namespace Sys2Proof.Machine

/-! ### The fabric -/

theorem leaves_countGrains (e : Nat) (rx : Bool) (k : Kind) (i : Nat) (gs : List Grain) (s : State) : Leaves e s (s.countGrains rx k i gs) :=
  Leaves.foldl (fun _ _ => leaves_ite (leaves_happen ..) (.refl ..)) _ _
theorem leaves_modStore {e : Nat} (he : e < 48) (f : Store → Store) (s : State) : Leaves e s (s.modStore .engine e f) :=
  leaves_modEng he (fun g => { g with store := f g.store }) s
theorem leaves_storeFrame {e : Nat} (he : e < 48) (slots : Option (List Grain)) (carried : Nat) (s : State) :
    Leaves e s (s.storeFrame .engine e slots carried) := by
  unfold State.storeFrame
  dsimp only
  refine Leaves.trans (Leaves.foldl (fun s c => ?_) _ s) (leaves_ite (leaves_modStore he ..) (.refl ..))
  refine Leaves.trans ?_ (leaves_modStore he ..)
  exact leaves_ite (leaves_of_same e rfl rfl rfl) (.refl ..)
theorem leaves_packArrive (e p : Nat) (part : PackPart) (carried : Nat) (s : State) : Leaves e s (s.packArrive p part carried) := by
  unfold State.packArrive
  split <;> exact leaves_of_same e rfl rfl rfl
theorem leaves_toFabric {e : Nat} (he : e < 48) (slots : Option (List Grain)) (carried : Nat) (s : State) :
    Leaves e s (s.toFabric e slots carried) := by
  unfold State.toFabric
  split
  exacts [leaves_storeFrame he .., leaves_packArrive ..]
theorem leaves_captureSymbols (e layout : Nat) (f : RxSignal) (s : State) : Leaves e s (s.captureSymbols e layout f) :=
  leaves_ite (leaves_of_same e rfl rfl rfl) (.refl ..)

/-! ### The time core -/

theorem leaves_refreshTrace (e : Nat) (s : State) : Leaves e s s.refreshTrace := leaves_of_same e rfl rfl rfl
theorem leaves_epochInPlace (e : Nat) (s : State) : Leaves e s s.epochInPlace := by
  refine Leaves.trans ?_ (leaves_raise ..)
  exact leaves_of_same e rfl rfl rfl
theorem leaves_epochAtLock (e : Nat) (first : Bool) (s : State) : Leaves e s (s.epochAtLock first) := by
  unfold State.epochAtLock
  (repeat' split)
  exacts [.refl .., leaves_epochInPlace .., leaves_of_same e rfl rfl rfl, leaves_of_same e rfl rfl rfl, .refl ..]
theorem leaves_timeTo (e : Nat) (st : TimeState) (s : State) : Leaves e s (s.timeTo st) := by
  have hstate : ∀ (t : TimeCore) (ws : List Word),
      Leaves e s (({ s with time := t } : State).raise .timeState .device 0 ws).refreshTrace := by
    intro t ws
    refine (Leaves.trans ?_ (leaves_raise ..)).trans (leaves_refreshTrace ..)
    exact leaves_modTime e (fun _ => t) s
  unfold State.timeTo
  dsimp only
  split
  · exact .refl ..
  · split
    exacts [(hstate ..).trans (leaves_epochAtLock ..), hstate ..]
theorem leaves_keepSteps (e : Nat) (s : State) : Leaves e s s.keepSteps := leaves_ite (leaves_modTime ..) (.refl ..)
theorem leaves_selectSource (e : Nat) (x : Option TimeSrc) (s : State) : Leaves e s (s.selectSource x) := by
  unfold State.selectSource
  dsimp only
  (repeat' split)
  · exact .refl ..
  all_goals
    refine Leaves.trans ?_ (leaves_timeTo ..)
    exact ((leaves_keepSteps ..).trans (leaves_modTime ..)).trans (leaves_raise ..)
theorem leaves_reselect (e : Nat) (s : State) : Leaves e s s.reselect := by
  unfold State.reselect
  dsimp only
  (repeat' split)
  exacts [leaves_selectSource .., .refl .., leaves_selectSource ..]
theorem leaves_qualify (e : Nat) (x : TimeSrc) (st : CandState) (why : QualReason) (s : State) : Leaves e s (s.qualify x st why) := by
  unfold State.qualify
  split
  · exact .refl ..
  · refine leaves_ite (.refl ..) ((Leaves.trans ?_ (leaves_raise ..)).trans (leaves_reselect ..))
    exact leaves_modTime ..
theorem leaves_disqualify (e : Nat) (x : TimeSrc) (why : QualReason) (s : State) : Leaves e s (s.disqualify x why) := leaves_qualify ..

/-! ### The overhead of an accepted frame -/

theorem leaves_modLtt {e : Nat} (he : e < 48) (f : Ltt → Ltt) (s : State) : Leaves e s (s.modLtt e f) :=
  leaves_modEng he (fun g => { g with ltt := f g.ltt }) s
theorem leaves_modLoad {e : Nat} (he : e < 48) (f : Loading → Loading) (s : State) : Leaves e s (s.modLoad e f) :=
  leaves_modEng he (fun g => { g with load := f g.load }) s
theorem leaves_modKey {e : Nat} (he : e < 48) (f : KeyState → KeyState) (s : State) : Leaves e s (s.modKey e f) :=
  leaves_modEng he (fun g => { g with key := f g.key }) s
theorem leaves_modDefect {e : Nat} (he : e < 48) (f : DefectState → DefectState) (s : State) : Leaves e s (s.modDefect e f) :=
  leaves_modEng he (fun g => { g with defect := f g.defect }) s
theorem leaves_takeKey {e : Nat} (he : e < 48) (slot : Option Nat) (tn : Nat) (s : State) : Leaves e s (s.takeKey e slot tn) := by
  have hswitch : ∀ s : State, Leaves e s (match (s.keys e).rxSwitch with
      | some (j, x) => if x ≤ tn then
          (s.modKey e (fun k => { k with rxSwitch := Option.none, expect := some j })).raise .keySwitched .engine e
            (w1 1 ++ w1 j ++ w2 tn)
        else s
      | none => s) := by
    intro s
    split
    · exact leaves_ite ((leaves_modKey he ..).trans (leaves_raise ..)) (.refl ..)
    · exact .refl ..
  unfold State.takeKey
  dsimp only
  refine leaves_ite (.refl ..) ?_
  cases slot
  exacts [hswitch s, (leaves_modKey he ..).trans (hswitch _)]
theorem leaves_farCheck {e : Nat} (he : e < 48) (tn : Nat) (tx : Int) (jump : Bool) (s : State) : Leaves e s (s.farCheck e tn tx jump) := by
  have hstep : ∀ (d : Int) (s : State), Leaves e s (s.farStep e d tn) := fun d s =>
    ((leaves_modLtt he ..).trans (leaves_raise ..)).trans (leaves_disqualify ..)
  unfold State.farCheck
  dsimp only
  split <;> exact (leaves_modLtt he ..).trans (leaves_ite (hstep ..) (.refl ..))
theorem leaves_rawOffset {e : Nat} (he : e < 48) (echoTn : Nat) (t2 t3 t4 : Int) (s : State) :
    Leaves e s (s.rawOffset e echoTn t2 t3 t4) := by
  unfold State.rawOffset
  dsimp only
  (repeat' split)
  exacts [.refl .., leaves_count .., .refl .., .refl .., leaves_modLtt he .., leaves_modLtt he ..]
/-- What the time overhead of an accepted frame brings, with its carried TN and arrival stamp (R74, R193). -/
def Taken.time (tn : Nat) (oh : List Octet) (arrival : Option Int) (o : Taken) : Taken :=
  { o with txTime := ofStamp96 (at_ oh 0 12), echoTn := if arrival.isSome then tn else o.echoTn
           echoArrival := arrival.getD o.echoArrival, echoValid := o.echoValid || arrival.isSome }
theorem brings_takeTime {e : Nat} (he : e < 48) (tn : Nat) (oh : List Octet) (arrival : Option Int) (jump : Bool) (s : State) :
    Brings e (Taken.time tn oh arrival) s (s.takeTime e tn oh arrival jump) := by
  have hoffset : ∀ s : State, Leaves e s (match arrival with
      | some t => if bit (at_ oh 32 2) 15 && bit (at_ oh 32 2) 14
          then s.rawOffset e (at_ oh 12 8) (ofStamp96 (at_ oh 20 12)) (ofStamp96 (at_ oh 0 12)) t else s
      | none => s) := by
    intro s
    split
    exacts [leaves_ite (leaves_rawOffset he ..) (.refl ..), .refl ..]
  refine Brings.trans (φ := Taken.time tn oh arrival) (ψ := id) ?_ (leaves_refreshTrace ..)
  exact Brings.trans (φ := id) (Leaves.trans (leaves_farCheck he ..) (hoffset _)) (brings_modEng he (Taken.time tn oh arrival) _ _)
theorem leaves_abortAnn {e : Nat} (he : e < 48) (cause : AbortCause) (s : State) : Leaves e s (s.abortAnn e cause) := by
  unfold State.abortAnn
  split
  · exact .refl ..
  · refine leaves_ite (.refl ..) ?_
    dsimp only
    have hended : ∀ (f : Loading → Loading) (ws : List Word) (d : Nat), Leaves e s
        ((((s.modLoad e f).raise .loadAborted .engine e ws).raise .loadAnnounced .engine e []).finishJobs (jobOn 0x104 e) .cancelled d []) :=
      fun f ws d => (((leaves_modLoad he ..).trans (leaves_raise ..)).trans (leaves_raise ..)).trans (leaves_finishJobs ..)
    exact leaves_ite ((hended ..).trans (leaves_finishJobs ..)) (hended ..)
theorem leaves_takeAck {e : Nat} (he : e < 48) (seq st : Nat) (s : State) : Leaves e s (s.takeAck e seq st) := by
  unfold State.takeAck
  (repeat' split)
  exacts [.refl .., leaves_modEng he _ _, .refl .., leaves_abortAnn he .., .refl .., .refl ..]
theorem leaves_takeAnnounce {e : Nat} (he : e < 48) (tn : Nat) (oh : List Octet) (s : State) : Leaves e s (s.takeAnnounce e tn oh) := by
  unfold State.takeAnnounce
  dsimp only
  refine leaves_ite (leaves_modLoad he ..) ?_
  split
  · refine leaves_ite (leaves_ite (Leaves.trans ?_ (leaves_raise ..)) ?_) (leaves_modLoad he ..)
    exacts [((leaves_modLoad he ..).trans (leaves_modLoad he ..)).trans (leaves_modLoad he ..),
      (leaves_modLoad he ..).trans (leaves_modLoad he ..)]
  · exact leaves_modLoad he ..
theorem leaves_takeTti {e : Nat} (he : e < 48) (tn : Nat) (seg : List Octet) (s : State) : Leaves e s (s.takeTti e tn seg) := by
  unfold State.takeTti
  dsimp only
  refine leaves_ite (Leaves.trans ?_ (leaves_modDefect he ..)) ?_ <;> exact leaves_modEng he _ s
theorem leaves_breakTti {e : Nat} (he : e < 48) (s : State) : Leaves e s (s.breakTti e) := leaves_modEng he _ s
theorem leaves_takeDefect {e : Nat} (he : e < 48) (oh : List Octet) (s : State) : Leaves e s (s.takeDefect e oh) := by
  unfold State.takeDefect
  dsimp only
  refine Leaves.trans ?_ (leaves_modEng he _ _)
  exact leaves_ite ((leaves_count ..).trans (leaves_count ..)) (.refl ..)
/-- What the rest of the overhead brings: the operator area, and the service octets that find room (R86, R87). -/
def Taken.rest (oh : List Octet) (o : Taken) : Taken :=
  { o with opArea := some ((oh.drop 168).take 64)
           svcRx := o.svcRx ++ ((oh.drop 137).take (at_ oh 136 1 % 32)).take (65536 - o.svcRx.length) }
theorem brings_takeRest {e : Nat} (he : e < 48) (oh : List Octet) (s : State) : Brings e (Taken.rest oh) s (s.takeRest e oh) := by
  refine Brings.trans (φ := id) (ψ := Taken.rest oh) (leaves_count ..) (brings_modEng_at he _ _ _ ?_)
  simp only [State.taken, State.eng_count]
  rfl

end Sys2Proof.Machine
end

section
/-! Reception of a frame: its discard, its acceptance, the 400ZR profile, and the happening itself. -/
namespace Sys2Proof.Machine

/-! ### A frame that is discarded (R93) -/

theorem leaves_ucfMark (e : Nat) (s : State) : Leaves e s (s.ucfMark e) := leaves_ite (leaves_of_same e rfl rfl rfl) (.refl ..)
theorem leaves_trialStep {e : Nat} (he : e < 48) (s : State) : Leaves e s (s.trialStep e) :=
  leaves_ite ((leaves_modLoad he ..).trans (leaves_raise ..)) (leaves_modLoad he ..)
/-- What a discarded frame changes of what its engine took. -/
def Taken.missed (o : Taken) : Taken := { o with framesSince := o.framesSince + 1 }
/-- The parts that a discarded frame may touch, but for a capture of its symbols. -/
def discardParts : List Part := withEvent [.freeCtr, .kennelRest, .packs, .ports]
theorem Brings.keepsCounted {e : Nat} {φ : Taken → Taken} {s t : State} (h : Brings e φ s t) {x : Ctr} {k : Kind} {i n : Nat}
    (hx : Counted x k i n s) : Counted x k i n t := h.counted _ hx
/-- What discarding a frame does (R93): the frame is missed, and the service octets it loses are counted. -/
structure Discards (e : Nat) (s t : State) : Prop where
  brings : Brings e Taken.missed s t
  within : Within e discardParts s t
  lost : Config.freeValue s.freeCtr % 32 ≠ 0 → Counted .svcLostOctets .engine e (Config.freeValue s.freeCtr % 32) t
theorem Discards.andThen {e : Nat} {s u t : State} (h : Discards e s u) (hl : Leaves e u t) (hw : Within e discardParts u t) :
    Discards e s t :=
  ⟨Brings.trans (ψ := id) h.brings hl, h.within.trans hw, fun hn => hl.keepsCounted (h.lost hn)⟩
theorem Discards.after {e : Nat} {s u t : State} (hl : Leaves e s u) (hw : Within e [.happened, .kennelRest] s u) (h : Discards e u t) :
    Discards e s t := by
  have hfree : u.freeCtr = s.freeCtr := hw.1 .freeCtr (by decide)
  refine ⟨Brings.trans (φ := id) hl h.brings, (hw.mono (by decide)).trans h.within, fun hn => ?_⟩
  rw [← hfree] at hn ⊢
  exact h.lost hn
theorem discardFrame_discards {e : Nat} (he : e < 48) (carried : Nat) (s : State) : Discards e s (s.discardFrame e carried) := by
  unfold State.discardFrame
  dsimp only
  refine Discards.andThen (u := (((s.modRx e (fun r => { r with framesSince := r.framesSince + 1 })).fresh.2.breakTti e).count .svcLostOctets
    .engine e (Config.freeValue s.freeCtr % 32))) ⟨?_, ?_, fun hn => (counted_count _ _ _ _ _ hn).1⟩ ?_ ?_
  · exact Brings.trans (φ := Taken.missed) (ψ := id) (brings_modRx he Taken.missed _ _)
      (((leaves_fresh ..).trans (leaves_breakTti he ..)).trans (leaves_count ..))
  · exact (((within_modEng ..).mono (by decide)).trans ((within_fresh ..).mono (by decide))).trans
      (((within_modEng ..).mono (by decide)).trans ((within_count ..).mono (by decide)))
  · exact (leaves_ite (leaves_countGrains ..) (.refl ..)).trans (leaves_toFabric he ..)
  · refine Within.trans ?_ ((within_toFabric ..).mono (by decide))
    split
    exacts [(within_countGrains ..).mono (by decide), .refl ..]
/-- A frame discarded under a counter. -/
structure DiscardsAs (c : Ctr) (e : Nat) (s t : State) : Prop extends Discards e s t where
  counted : Counted c .engine e 1 t
theorem DiscardsAs.andThen {c : Ctr} {e : Nat} {s u t : State} (h : DiscardsAs c e s u) (hl : Leaves e u t) (hw : Within e discardParts u t) :
    DiscardsAs c e s t :=
  ⟨h.toDiscards.andThen hl hw, hl.keepsCounted h.counted⟩
theorem DiscardsAs.after {c : Ctr} {e : Nat} {s u t : State} (hl : Leaves e s u) (hw : Within e [.happened, .kennelRest] s u)
    (h : DiscardsAs c e u t) : DiscardsAs c e s t :=
  ⟨.after hl hw h.toDiscards, h.counted⟩
theorem DiscardsAs.trialStep {c : Ctr} {e : Nat} (he : e < 48) {s u : State} (h : DiscardsAs c e s u) : DiscardsAs c e s (u.trialStep e) :=
  h.andThen (leaves_trialStep he u) ((within_trialStep ..).mono (by decide))
theorem DiscardsAs.ucfMark {c : Ctr} {e : Nat} {s t : State} (h : DiscardsAs c e (s.ucfMark e) t) : DiscardsAs c e s t :=
  DiscardsAs.after (leaves_ucfMark e s) ((within_ucfMark e s).mono (by decide)) h
theorem DiscardsAs.modEng {c : Ctr} {e : Nat} (he : e < 48) {s u : State} {f : Engine → Engine} (h : DiscardsAs c e s u)
    (hf : ∀ g, (f g).rx.taken = g.rx.taken := by intro g; rfl) : DiscardsAs c e s (u.modEng e f) :=
  h.andThen (leaves_modEng he f u hf) ((within_modEng ..).mono (by decide))
theorem dropFrame_discards {e : Nat} (he : e < 48) (c : Ctr) (named : Nat) (s : State) :
    DiscardsAs c e s ((s.count c .engine e 1).discardFrame e named) := by
  have hdrop := discardFrame_discards he named (s.count c .engine e 1)
  exact ⟨.after (leaves_count ..) ((within_count ..).mono (by decide)) hdrop,
    hdrop.brings.keepsCounted (counted_count _ _ _ _ _ Nat.one_ne_zero).1⟩
/-- An authentication failure is counted under its own counter and under AUTH_ERR. -/
theorem authFrame_discards {e : Nat} (he : e < 48) (c : Ctr) (named : Nat) (s : State) :
    DiscardsAs c e s (((s.count c .engine e 1).count .authErr .engine e 1).discardFrame e named) := by
  have hdrop := dropFrame_discards he .authErr named (s.count c .engine e 1)
  exact ⟨.after (leaves_count ..) ((within_count ..).mono (by decide)) hdrop.toDiscards,
    hdrop.brings.keepsCounted (counted_count _ _ _ _ _ Nat.one_ne_zero).1⟩

/-! ### A decoded frame, judged -/

/-- The counter of a verdict that discards (Table 2.10). -/
def Verdict.counter : Verdict → Option Ctr
  | .uncorrected => some .uncorrFrame
  | .header => some .hdrErr
  | .format => some .fmtMismatch
  | .authMode => some .authErrMode
  | .authIndex => some .authErrIndex
  | .authEmpty => some .authErrEmpty
  | .authTag => some .authErrTag
  | .accepted _ _ => none
/-- The judgement does not ask what the engine took before, for its equaliser, or for its defects. -/
theorem Engine.judge_with (g : Engine) (rx : Received) (eq : Equaliser) (d : DefectState) (tn : Nat) (f : RxFrame) :
    ({ g with rx := rx, eq := eq, defect := d } : Engine).judge tn f = g.judge tn f := rfl
/-- What decoding a frame changes of what its engine took: its arrival stamp is used up, its bad words are told backwards. -/
def Taken.decoded (f : RxFrame) (o : Taken) : Taken := { o with stamps := o.stamps.drop 1, beiCw := min f.badWords 0xFFFF }
/-- What decoding a frame does, before it is judged: its corrected bits are counted. -/
structure Decodes (e : Nat) (f : RxFrame) (s t : State) : Prop where
  brings : Brings e (Taken.decoded f) s t
  within : Within e [.happened] s t
  corrected : f.errBits ≠ 0 → Counted .fecCorrBits .engine e f.errBits t
/-- The state of a frame that has been decoded and not yet judged. -/
def State.frameDecoded (e : Nat) (f : RxFrame) (s : State) : State :=
  (s.count .fecCorrBits .engine e f.errBits).modEng e (fun g => { g with
    rx := { g.rx with stamps := g.rx.stamps.drop 1 }
    eq := { g.eq with est := { g.eq.est with preFecBer := min (2 ^ 31) f.preFecBer } }, defect := g.defect.decoded (f.badWords != 0) })
theorem State.frameDecoded_eng {e : Nat} (he : e < 48) (f : RxFrame) (s : State) :
    ((s.frameDecoded e f).eng e).zr = (s.eng e).zr ∧ ((s.frameDecoded e f).eng e).load = (s.eng e).load
      ∧ ((s.frameDecoded e f).eng e).judge (s.frameDecoded e f).tn f = (s.eng e).judge s.tn f := by
  have heng : (s.frameDecoded e f).eng e = _ := State.eng_modEng_same e _ _ he
  have htn : (s.frameDecoded e f).tn = s.tn := by simp [State.frameDecoded]
  rw [heng, htn, State.eng_count]
  exact ⟨rfl, rfl, Engine.judge_with ..⟩
theorem frameDecoded_decodes {e : Nat} (he : e < 48) (f : RxFrame) (s : State) (bits named : Nat) :
    Decodes e f s ((s.frameDecoded e f).modRx e (fun r => { r with beiCw := min f.badWords 0xFFFF, beiBits := bits, beiTn := named })) where
  brings := Brings.trans (φ := id) (leaves_count ..) (Brings.trans (φ := fun o => { o with stamps := o.stamps.drop 1 })
    (ψ := fun o => { o with beiCw := min f.badWords 0xFFFF }) (brings_modEng he _ _ _) (brings_modRx he _ _ _))
  within := (within_count ..).trans (((within_modEng ..).mono (by decide)).trans ((within_modEng ..).mono (by decide)))
  corrected hn := (counted_count .fecCorrBits .engine e f.errBits s hn).1
theorem receiveFrame_discards {e : Nat} (he : e < 48) {f : RxFrame} {s : State} {x : Ctr} (hzr : (s.eng e).zr = false)
    (hx : ((s.eng e).judge s.tn f).counter = some x) :
    ∃ u, Decodes e f s u ∧ DiscardsAs x e u (s.receiveFrame e f) := by
  obtain ⟨hzr', -, hjudge⟩ := State.frameDecoded_eng he f s
  have hdecoded := frameDecoded_decodes he f s
  cases hv : (s.eng e).judge s.tn f <;> rw [hv] at hx <;> cases hx
  all_goals
    unfold State.receiveFrame
    rw [← State.frameDecoded]
    simp only [hzr', hzr, hjudge, hv, Bool.false_eq_true, if_false]
  case uncorrected => exact ⟨_, hdecoded _ _, .ucfMark (.trialStep he (((dropFrame_discards he ..).modEng he).modEng he))⟩
  case header => exact ⟨_, hdecoded _ _, ((dropFrame_discards he ..).modEng he).modEng he⟩
  case format => exact ⟨_, hdecoded _ _, ((dropFrame_discards he ..).modEng he).modEng he⟩
  all_goals exact ⟨_, hdecoded _ _, ((authFrame_discards he ..).modEng he).modEng he⟩

/-! ### A frame that is accepted (R92) -/

/-- What an accepted frame changes of what its engine took. -/
def Taken.accepted (tn : Nat) (oh : List Octet) (arrival : Option Int) (o : Taken) : Taken :=
  Taken.rest oh (Taken.time tn oh arrival { o with lastTn := some tn, framesSince := 0 })
theorem acceptFrame_brings {e : Nat} (he : e < 48) (f : RxFrame) (arrival : Option Int) (plain : List Octet) (slot : Option Nat) (s : State)
    (htrial : (s.eng e).load.trial = 0) :
    Brings e (Taken.accepted (headerTn f.header) (plain.take 480) arrival) s (s.acceptFrame e f arrival plain slot)
      ∧ ∀ w, (s.eng e).rx.expected = some w → w ≠ headerTn f.header →
          Raised .tnJump .engine e (w2 w ++ w2 (headerTn f.header)) s.tn (s.acceptFrame e f arrival plain slot) := by
  have hkept : s.keepCandidate e = s := if_pos htrial
  have hwant : (s.eng e).rx.lastTn.map (fun t => t + (s.eng e).rx.framesSince + 1) = (s.eng e).rx.expected := rfl
  unfold State.acceptFrame
  simp only [hkept, hwant]
  generalize hu : (if (s.eng e).rx.expected.any (fun w => w != headerTn f.header) = true then
    s.raise .tnJump .engine e (w2 ((s.eng e).rx.expected.getD 0) ++ w2 (headerTn f.header)) else s) = u
  have hleaves : Leaves e s u := hu ▸ leaves_ite (leaves_raise ..) (.refl ..)
  have hjump : ∀ w, (s.eng e).rx.expected = some w → w ≠ headerTn f.header →
      Raised .tnJump .engine e (w2 w ++ w2 (headerTn f.header)) s.tn u := by
    intro w hw hne
    rw [← hu, hw, if_pos (by simpa using hne)]
    exact raised_raise ..
  suffices hrest : Brings e (Taken.accepted (headerTn f.header) (plain.take 480) arrival) u _ from
    ⟨Brings.trans (φ := id) hleaves hrest, fun w hw hne => hrest.raised _ _ _ _ _ (hjump w hw hne)⟩
  refine Brings.trans (ψ := id) ?_ (leaves_toFabric he ..)
  refine Brings.trans (ψ := id) ?_ (leaves_ite (leaves_countGrains ..) (.refl ..))
  refine Brings.trans (ψ := Taken.rest (plain.take 480)) ?_ (brings_takeRest he ..)
  refine Brings.trans (ψ := id) ?_ (leaves_takeDefect he ..)
  refine Brings.trans (ψ := id) ?_ (leaves_takeTti he ..)
  refine Brings.trans (ψ := id) ?_ (leaves_takeAnnounce he ..)
  refine Brings.trans (ψ := id) ?_ (leaves_takeAck he ..)
  refine Brings.trans (ψ := Taken.time (headerTn f.header) (plain.take 480) arrival) ?_ (brings_takeTime he ..)
  refine Brings.trans (ψ := id) ?_ (leaves_takeKey he ..)
  exact brings_modEng he (fun o => { o with lastTn := some (headerTn f.header), framesSince := 0 }) _ _
/-- The expected carried TN of the next frame is a matter of what was taken (R94). -/
def Taken.expected (o : Taken) : Option Nat := o.lastTn.map (fun t => t + o.framesSince + 1)
theorem Brings.expected {e : Nat} {φ : Taken → Taken} {s t : State} (h : Brings e φ s t)
    (hφ : ∀ o, (φ o).expected = o.expected := by intro o; rfl) : (t.eng e).rx.expected = (s.eng e).rx.expected :=
  (congrArg Taken.expected h.taken).trans (hφ _)
theorem receiveFrame_accepts {e : Nat} (he : e < 48) {f : RxFrame} {s : State} {plain : List Octet} {slot : Option Nat}
    (hzr : (s.eng e).zr = false) (htrial : (s.eng e).load.trial = 0) (hv : (s.eng e).judge s.tn f = .accepted plain slot) :
    Brings e (Taken.accepted (headerTn f.header) (plain.take 480) (s.eng e).rx.stamp ∘ Taken.decoded f) s (s.receiveFrame e f)
      ∧ ∀ w, (s.eng e).rx.expected = some w → w ≠ headerTn f.header →
          Raised .tnJump .engine e (w2 w ++ w2 (headerTn f.header)) s.tn (s.receiveFrame e f) := by
  obtain ⟨hzr', hload, hjudge⟩ := State.frameDecoded_eng he f s
  have hdecoded := frameDecoded_decodes he f s (min f.errBits 0xFFFFFFFF) (headerTn f.header)
  unfold State.receiveFrame
  rw [← State.frameDecoded]
  simp only [hzr', hzr, hjudge, hv, Bool.false_eq_true, if_false]
  generalize hu : (s.frameDecoded e f).modRx e _ = u at hdecoded ⊢
  have htn : u.tn = s.tn := hdecoded.within.1 .tn (by decide)
  have hutrial : (u.eng e).load.trial = 0 := by
    rw [← hu, State.modRx, State.eng_modEng_same _ _ _ he, hload, htrial]
  obtain ⟨hbrings, hjump⟩ := acceptFrame_brings he f (s.eng e).rx.stamp plain slot u hutrial
  exact ⟨hdecoded.brings.trans hbrings, hdecoded.brings.expected ▸ htn ▸ hjump⟩

/-! ### The 400ZR profile (R122) -/

theorem zrDecode_within (e : Nat) (x : RxSignal) (s : State) : Within e [.freeCtr] s (s.zrDecode x).1 := by
  unfold State.zrDecode
  split
  exacts [.refl .., (within_fresh e s).trans (within_fresh e _)]
theorem State.eng_zrDecode (e : Nat) (x : RxSignal) (s : State) : (s.zrDecode x).1.eng e = s.eng e := by
  unfold State.zrDecode
  split <;> rfl
theorem zrDecode_of_clean {x : RxSignal} (s : State) (h : x.noise = []) : s.zrDecode x = (s, RxSignal.clean x) := if_pos h
theorem zrFrame_within (e : Nat) (f : RxFrame) (s : State) : Within e [.happened, .kennelRest, .ports] s (s.zrFrame e f) := by
  unfold State.zrFrame
  dsimp only
  have hequaliser := (within_modEng e (fun g => { g with eq := g.eq.decoded (f.badWords != 0) (f.badWords == 0) }) s).mono
    (m := [.happened, .kennelRest, .ports]) (by simp)
  refine hequaliser.trans ?_
  split
  · exact (within_storeFrame ..).mono (by decide)
  · exact (((within_count ..).mono (by decide)).trans ((within_ucfMark ..).mono (by decide))).trans
      ((within_storeFrame ..).mono (by decide))
theorem zrFrame_counts {e : Nat} (he : e < 48) {f : RxFrame} (s : State) (hbad : f.badWords ≠ 0) :
    Counted .uncorrFrame .engine e 1 (s.zrFrame e f) := by
  unfold State.zrFrame
  simp only [hbad, if_false]
  exact (Leaves.trans (leaves_ucfMark ..) (leaves_storeFrame he ..)).keepsCounted (counted_count _ _ _ _ _ Nat.one_ne_zero).1
theorem receiveFrame_zr {e : Nat} (he : e < 48) {f : RxFrame} {s : State} (hzr : (s.eng e).zr = true) :
    s.receiveFrame e f = (s.frameDecoded e f).zrFrame e f := by
  obtain ⟨hzr', -, -⟩ := State.frameDecoded_eng he f s
  unfold State.receiveFrame
  rw [← State.frameDecoded]
  simp only [hzr', hzr, if_true]
theorem frameDecoded_within (e : Nat) (f : RxFrame) (s : State) : Within e [.happened] s (s.frameDecoded e f) :=
  (within_count ..).trans ((within_modEng ..).mono (by simp))
theorem receiveFrame_zr_within {e : Nat} (he : e < 48) {f : RxFrame} {s : State} (hzr : (s.eng e).zr = true) :
    Within e [.happened, .kennelRest, .ports] s (s.receiveFrame e f) := by
  rw [receiveFrame_zr he hzr]
  exact ((frameDecoded_within ..).mono (by decide)).trans (zrFrame_within ..)

/-! ### RX_FRAME_DECODE -/

/-- A receiver that decodes a frame: IN_FRAME or OOF with capacity, and no armed switch is due before the frame expected next. -/
structure State.Decoding (s : State) (e : Nat) : Prop where
  capacity : (s.eng e).kRx ≠ 0
  acquired : (s.eng e).acq.state = .inFrame ∨ (s.eng e).acq.state = .oof
  notDue : ∀ a t, (s.eng e).load.armed = some a → (s.eng e).rx.expected = some t → t < a.loadTn
theorem State.Decoding.beforeDecode {e : Nat} {s : State} (h : s.Decoding e) : s.beforeDecode e = s := by
  unfold State.beforeDecode State.armedSwitch
  split
  · rfl
  · split
    · exact if_pos (h.notDue _ _ ‹_› ‹_›)
    · rfl
/-- A frame of a receiver that decodes, with no armed switch due: decoded, judged, and its symbols offered to a capture. -/
theorem exec_rxFrameDecode {e : Fin 48} {x : RxSignal} {s : State} (h : s.Decoding e) :
    exec (.rxFrameDecode e x) s =
      .next (((s.decodeSignal e ((s.eng e).heard x)).1.receiveFrame e (s.decodeSignal e ((s.eng e).heard x)).2).captureSymbols e
        (s.eng e).rxLayout ((s.eng e).heard x)) := by
  have hexec : exec (.rxFrameDecode e x) s = execRxFrameDecode e x s := rfl
  rw [hexec, execRxFrameDecode, if_pos ⟨h.capacity, h.acquired⟩, h.beforeDecode]
theorem exec_rxFrameDecode_idle {e : Fin 48} {x : RxSignal} {s : State}
    (h : (s.eng e).kRx = 0 ∨ (s.eng e).acq.state ≠ .inFrame ∧ (s.eng e).acq.state ≠ .oof) : exec (.rxFrameDecode e x) s = .next s :=
  if_neg (by rintro ⟨hk, hacq⟩; rcases h with h | ⟨h, h'⟩; exacts [hk h, hacq.elim h h'])
theorem Within.captureSymbols {e : Nat} {l : List Part} {s u : State} (h : Within e l s u) (hl : Part.tiles ∉ l) (layout : Nat)
    (f : RxSignal) : Within e (l ++ if s.takesSymbols e then [.tiles] else []) s (u.captureSymbols e layout f) := by
  have hcapture := within_captureSymbols e layout f u
  rw [h.takesSymbols hl] at hcapture
  exact (h.mono (fun _ hp => List.mem_append_left _ hp)).trans (hcapture.mono (fun _ hp => List.mem_append_right _ hp))
theorem decodeSignal_of_not_zr {e : Nat} {s : State} (h : (s.eng e).zr = false) (x : RxSignal) :
    s.decodeSignal e x = (s, (s.eng e).decodeFrame x) := by
  rw [State.decodeSignal, h, if_neg Bool.false_ne_true]
theorem decodeSignal_of_zr {e : Nat} {s : State} (h : (s.eng e).zr = true) (x : RxSignal) : s.decodeSignal e x = s.zrDecode x := if_pos h

/-- The tiles of a capture that fills, among the parts before what raising an event touches. -/
theorem mem_discardParts {s : State} {e : Nat} : ∀ p ∈ discardParts ++ (if s.takesSymbols e then [Part.tiles] else []),
    p ∈ withEvent ([.freeCtr, .kennelRest, .packs, .ports] ++ if s.takesSymbols e then [.tiles] else []) := by
  intro p hp
  simp only [discardParts, withEvent, List.mem_append] at hp ⊢
  exact hp.elim (·.imp_left .inl) (fun h => .inl (.inr h))
/-- A frame that fails a check of Table 2.10 is missed, and counted under the counter of its verdict. -/
theorem exec_rxFrameDecode_discards {e : Fin 48} {x : RxSignal} {s : State} {c : Ctr} {f : RxFrame}
    (h : s.Decoding e) (hzr : (s.eng e).zr = false)
    (hf : (s.eng e).decodeFrame ((s.eng e).heard x) = f) (hc : ((s.eng e).judge s.tn f).counter = some c) :
    AtEngine e (withEvent ([.freeCtr, .kennelRest, .packs, .ports] ++ if s.takesSymbols e then [.tiles] else [])) (fun t =>
      t.taken e = Taken.missed (Taken.decoded f (s.taken e)) ∧ Counted c .engine e 1 t
      ∧ (f.errBits ≠ 0 → Counted .fecCorrBits .engine e f.errBits t)
      ∧ (Config.freeValue s.freeCtr % 32 ≠ 0 → Counted .svcLostOctets .engine e (Config.freeValue s.freeCtr % 32) t)) s
      (exec (.rxFrameDecode e x) s) := by
  obtain ⟨u, hdecodes, hdiscards⟩ := receiveFrame_discards e.isLt hzr hc
  have hfree : u.freeCtr = s.freeCtr := hdecodes.within.1 .freeCtr (by decide)
  have hlost := hdiscards.lost
  rw [hfree] at hlost
  have hwithin := (hdecodes.within.mono (by decide)).trans hdiscards.within
  rw [exec_rxFrameDecode h, decodeSignal_of_not_zr hzr, hf]
  obtain ⟨honly, hothers⟩ := (hwithin.captureSymbols (by decide) (s.eng e).rxLayout ((s.eng e).heard x)).mono mem_discardParts
  have hcapture := leaves_captureSymbols e (s.eng e).rxLayout ((s.eng e).heard x) (s.receiveFrame e f)
  have hbrings := (hdecodes.brings.trans hdiscards.brings).trans hcapture
  exact ⟨_, rfl, ⟨⟨hbrings.taken, hcapture.keepsCounted hdiscards.counted,
    fun hn => hcapture.keepsCounted (hdiscards.brings.keepsCounted (hdecodes.corrected hn)),
    fun hn => hcapture.keepsCounted (hlost hn)⟩, hothers⟩, honly⟩
/-- A frame that passes every check brings its overhead, and tells a jump of the carried TN (R92, R94). -/
theorem exec_rxFrameDecode_accepts {e : Fin 48} {x : RxSignal} {s : State} {f : RxFrame} {plain : List Octet} {slot : Option Nat}
    (h : s.Decoding e) (hzr : (s.eng e).zr = false)
    (hf : (s.eng e).decodeFrame ((s.eng e).heard x) = f) (htrial : (s.eng e).load.trial = 0)
    (hv : (s.eng e).judge s.tn f = .accepted plain slot) :
    Completes (exec (.rxFrameDecode e x) s) (fun t =>
      t.taken e = Taken.accepted (headerTn f.header) (plain.take 480) (s.eng e).rx.stamp (Taken.decoded f (s.taken e))
      ∧ (∀ w, (s.eng e).rx.expected = some w → w ≠ headerTn f.header →
          Raised .tnJump .engine e (w2 w ++ w2 (headerTn f.header)) s.tn t)
      ∧ t.tn = s.tn) := by
  have hexec := exec_rxFrameDecode (x := x) h
  obtain ⟨htn, -⟩ := exec_keepsTn _ _ _ rfl hexec
  rw [decodeSignal_of_not_zr hzr, hf] at hexec htn
  obtain ⟨hbrings, hjump⟩ := receiveFrame_accepts e.isLt hzr htrial hv
  have hcapture := leaves_captureSymbols e (s.eng e).rxLayout ((s.eng e).heard x) (s.receiveFrame e f)
  exact ⟨_, hexec, (hbrings.trans hcapture).taken, fun w hw hne => hcapture.raised _ _ _ _ _ (hjump w hw hne), htn⟩
/-- A frame in the 400ZR profile (R122): a word left uncorrected is counted, and a frame without noise draws no free value. -/
theorem exec_rxFrameDecode_zr {e : Fin 48} {x : RxSignal} {s : State} (h : s.Decoding e) (hzr : (s.eng e).zr = true) :
    AtEngine e ([.freeCtr, .happened, .kennelRest, .packs, .ports] ++ if s.takesSymbols e then [.tiles] else []) (fun t =>
      ((s.zrDecode ((s.eng e).heard x)).2.badWords ≠ 0 → Counted .uncorrFrame .engine e 1 t)
      ∧ (((s.eng e).heard x).noise = [] →
          (s.zrDecode ((s.eng e).heard x)).2 = RxSignal.clean ((s.eng e).heard x) ∧ t.freeCtr = s.freeCtr)) s
      (exec (.rxFrameDecode e x) s) := by
  generalize hy : (s.eng e).heard x = y
  rw [exec_rxFrameDecode h, hy, decodeSignal_of_zr hzr]
  have hzr' : ((s.zrDecode y).1.eng e).zr = true := by rw [State.eng_zrDecode, hzr]
  have hreceive := receiveFrame_zr_within e.isLt (f := (s.zrDecode y).2) hzr'
  have hwithin := ((zrDecode_within e y s).mono (by decide)).trans
    (hreceive.mono (m := [.freeCtr, .happened, .kennelRest, .packs, .ports]) (by decide))
  obtain ⟨honly, hothers⟩ := hwithin.captureSymbols (by decide) (s.eng e).rxLayout y
  refine ⟨_, rfl, ⟨⟨fun hbad => ?_, fun hclean => ?_⟩, hothers⟩, honly⟩
  · rw [receiveFrame_zr e.isLt hzr']
    exact (leaves_captureSymbols ..).keepsCounted (zrFrame_counts e.isLt _ hbad)
  · rw [zrDecode_of_clean s hclean] at hreceive ⊢
    obtain ⟨hdraws, -⟩ := hreceive.captureSymbols (by decide) (s.eng e).rxLayout y
    exact ⟨rfl, hdraws .freeCtr (by split <;> decide)⟩

/-! ### The checks of Table 2.10 -/

theorem Engine.judge_of_badWords (g : Engine) (tn : Nat) (f : RxFrame) (h : f.badWords ≠ 0) : g.judge tn f = .uncorrected := if_pos h
/-- A frame is accepted only when its code words, its header and its format are in order; without a key it is taken as it came. -/
theorem Engine.judge_accepted {g : Engine} {tn : Nat} {f : RxFrame} {plain : List Octet} {slot : Option Nat}
    (h : g.judge tn f = .accepted plain slot) :
    f.badWords = 0 ∧ f.header.length = 16 ∧ crc16 (f.header.take 14) = at_ f.header 14 2 ∧ f.header.getD 0 0 = 0xB1
      ∧ (f.header.getD 1 0).toNat = g.rxCap * 16 + g.rxLayout
      ∧ (g.key.none = true → plain = f.overhead ++ f.jc.map (BitVec.ofNat 8) ++ f.slots.flatten) := by
  unfold Engine.judge at h
  dsimp only at h
  split at h
  · cases h
  split at h
  · cases h
  split at h
  · cases h
  next hbad hheader hformat =>
    push Not at hbad hheader hformat
    refine ⟨hbad, hheader.1, hheader.2, hformat.1, hformat.2, fun hnone => ?_⟩
    simp only [hnone, if_true] at h
    split at h
    · cases h
    · injection h with hplain
      exact hplain.symm

/-! ### The end of a signal-fail hold-off (R383) -/

theorem exec_sfHoldoffExpiry_engine {e : Fin 48} {s : State} {t h : Nat} (hsf : (s.eng e).defect.sf = some (t, h))
    (hdue : t + h ≤ s.ticks) :
    exec (.sfHoldoffExpiry false e) s = .next (s.modDefect e (fun d => { d with sfFault := true })) := by
  have hexec : exec (.sfHoldoffExpiry false e) s = execSfHoldoffExpiry false e s := rfl
  rw [hexec, execSfHoldoffExpiry]
  simp only [hsf, hdue, Bool.false_eq_true, if_false, if_true]
theorem exec_sfHoldoffExpiry_pack {e : Fin 48} {s : State} {t h : Nat} (hpsf : (s.pack e).psf = some (t, h)) (hdue : t + h ≤ s.ticks) :
    exec (.sfHoldoffExpiry true e) s = .next (s.modPack e (fun k => { k with psfFault := true })) := by
  have hexec : exec (.sfHoldoffExpiry true e) s = execSfHoldoffExpiry true e s := rfl
  rw [hexec, execSfHoldoffExpiry]
  simp only [hpsf, hdue, if_true]

/-- Settles O44: each step of the reception of a frame is followed by what it brings to its engine (`Brings`), by what has been counted and
raised, and by the parts it may touch (`Within`); the steps compose to the discard under each counter and to the acceptance. -/
theorem frameReception : Obligations.FrameReception := by
  intro e x s
  dsimp only
  refine ⟨fun hk hacq hdue => ⟨fun hzr => ⟨fun v hv y hy hjudge => ?_, fun plain slot htrial hv => ?_⟩,
      exec_rxFrameDecode_zr ⟨hk, hacq, hdue⟩⟩,
    exec_rxFrameDecode_idle, fun g hnoise hvec hlen => if_pos ⟨hnoise, hvec, hlen⟩, Engine.judge_of_badWords,
    fun g tn f plain slot => Engine.judge_accepted, fun t h hsf hdue => ?_, fun t h he hpsf hdue => ?_⟩
  · have hcounter : ((s.eng e).judge s.tn ((s.eng e).decodeFrame ((s.eng e).heard x))).counter = some y.1 := by
      subst hv
      rw [hjudge]
      fin_cases hy <;> rfl
    obtain ⟨t, hexec, ⟨⟨htaken, hcounted, hcorrected, hlost⟩, hothers⟩, honly⟩ :=
      exec_rxFrameDecode_discards ⟨hk, hacq, hdue⟩ hzr rfl hcounter
    exact ⟨t, hexec, ⟨⟨hcounted, congrArg Taken.framesSince htaken, congrArg Taken.lastTn htaken, congrArg Taken.opArea htaken,
      congrArg Taken.svcRx htaken, congrArg Taken.echoTn htaken, congrArg Taken.stamps htaken, congrArg Taken.beiCw htaken,
      hcorrected, hlost⟩, hothers⟩, honly⟩
  · obtain ⟨t, hexec, htaken, hjump, htn⟩ := exec_rxFrameDecode_accepts ⟨hk, hacq, hdue⟩ hzr rfl htrial hv
    refine ⟨t, hexec, congrArg Taken.lastTn htaken, congrArg Taken.framesSince htaken, fun a ha => ?_, ?_, congrArg Taken.opArea htaken,
      congrArg Taken.svcRx htaken, hjump, htn⟩
    · rw [ha] at htaken
      exact ⟨congrArg Taken.echoTn htaken, (congrArg Taken.echoValid htaken).trans (Bool.or_true _), congrArg Taken.echoArrival htaken⟩
    · have hstamp : at_ (plain.take 480) 0 12 = at_ plain 0 12 := by simp [at_, List.take_take]
      exact (congrArg Taken.txTime htaken).trans (congrArg ofStamp96 hstamp)
  · rw [exec_sfHoldoffExpiry_engine hsf hdue]
    obtain ⟨honly, hothers⟩ := within_modEng e (fun g => { g with defect := { g.defect with sfFault := true } }) s
    exact ⟨_, rfl, ⟨State.eng_modEng_same _ _ _ e.isLt, hothers⟩, honly⟩
  · rw [exec_sfHoldoffExpiry_pack hpsf hdue]
    refine ⟨_, rfl, ⟨State.pack_modPack_same _ _ _ he, fun q hq => State.pack_modPack_ne _ _ _ _ hq⟩, fun p hp => ?_⟩
    cases p <;> simp [Part.same] at hp ⊢
end Sys2Proof.Machine
end

section
/-! What a step leaves told, which class L commands it ends, and which parts it may touch: what the statements of the loading chapter
(O25, O26) ask of each step. -/
namespace Sys2Proof.Machine

/-! ### Responses that stay posted -/

theorem mem_vget_append {α : Type} {n : Nat} {v : Vector (List α) n} {j : Nat} {x : α} (i : Nat) (y : α) (h : x ∈ vget v j []) :
    x ∈ vget (vmod v i (fun l => l ++ [y])) j [] := by
  by_cases hj : j = i
  · subst hj
    by_cases hn : j < n
    · rw [vget_vmod_same _ _ _ _ hn]
      exact List.mem_append_left _ h
    · rwa [vmod_out _ _ _ hn]
  · rwa [vget_vmod_ne _ _ _ _ _ hj]
theorem State.commitResp_proto_resp (n : Nat) (r : Resp) (s : State) :
    (s.commitResp n r).proto.resp = vmod s.proto.resp n (fun l => l ++ [r]) := by
  simp only [State.commitResp]; split <;> simp
/-- A response to a host transport stays posted when another is. -/
theorem posted_postResp {src : Source} {r : Resp} {s : State} (src' : Source) (r' : Resp) (hsrc : src.isHost = true)
    (h : PostedAt src r s) : PostedAt src r (s.postResp src' r') := by
  obtain ⟨n, hport⟩ := Option.isSome_iff_exists.mp hsrc
  simp only [PostedAt, hport] at h ⊢
  unfold State.postResp
  split
  · exact h
  next m _ =>
    split
    · rw [State.commitResp_proto_resp, State.commitResp_proto_heldResp, State.commitResp_proto_owedFinals]
      exact h.imp_left (mem_vget_append m r')
    · exact h.imp_right (Or.imp_left (mem_vget_append m r'))
theorem posted_owe {src : Source} {r : Resp} {s : State} (x : Source × Resp) (hsrc : src.isHost = true) (h : PostedAt src r s) :
    PostedAt src r (s.modProto (fun p => { p with owedFinals := p.owedFinals ++ [x] })) := by
  obtain ⟨n, hport⟩ := Option.isSome_iff_exists.mp hsrc
  simp only [PostedAt, hport] at h ⊢
  exact h.imp_right (Or.imp_right (List.mem_append_left _))
theorem posted_final {src : Source} {r : Resp} {s : State} (t : Ticket) (st : Status) (d : Nat) (ws : List Word)
    (hsrc : src.isHost = true) (h : PostedAt src r s) : PostedAt src r (s.final t st d ws) := by
  unfold State.final State.respond
  dsimp only
  (repeat' split)
  exacts [h, posted_postResp _ _ hsrc h, posted_owe _ hsrc h]
theorem posted_same {src : Source} {r : Resp} {s t : State} (h : PostedAt src r s) (hs : Part.same s t .responses) : PostedAt src r t := by
  obtain ⟨hresp, hheld, hinternal, howed⟩ := hs
  unfold PostedAt at h ⊢
  rwa [hresp, hheld, hinternal, howed]

/-! ### What stays told -/

/-- What was told before a step stays told: the events raised, and the responses posted to a host transport. -/
structure KeepsTold (s t : State) : Prop where
  raised : ∀ ev k i ws tn, Raised ev k i ws tn s → Raised ev k i ws tn t
  posted : ∀ src r, src.isHost = true → PostedAt src r s → PostedAt src r t
theorem KeepsTold.refl (s : State) : KeepsTold s s := ⟨fun _ _ _ _ _ h => h, fun _ _ _ h => h⟩
theorem KeepsTold.trans {s u t : State} (h : KeepsTold s u) (h' : KeepsTold u t) : KeepsTold s t :=
  ⟨fun _ _ _ _ _ hr => h'.raised _ _ _ _ _ (h.raised _ _ _ _ _ hr), fun _ _ hsrc hp => h'.posted _ _ hsrc (h.posted _ _ hsrc hp)⟩
/-- A step that leaves the counts, the queue of events and the responses. -/
theorem keepsTold_of_same {s t : State} (hcounted : t.ctr.happened = s.ctr.happened) (hevents : Part.same s t .events)
    (hmasks : Part.same s t .masks) (hreset : Part.same s t .mgmtReset) (hresponses : Part.same s t .responses) : KeepsTold s t :=
  ⟨fun _ _ _ _ _ h => raised_same _ _ _ _ _ s t h hcounted hmasks hreset hevents.1 hevents.2, fun _ _ _ h => posted_same h hresponses⟩
theorem Brings.keepsTold {e : Nat} {φ : Taken → Taken} {s t : State} (h : Brings e φ s t) (hs : Part.same s t .responses) : KeepsTold s t :=
  ⟨h.raised, fun _ _ _ hp => posted_same hp hs⟩
theorem keepsTold_final (t : Ticket) (st : Status) (d : Nat) (ws : List Word) (s : State) : KeepsTold s (s.final t st d ws) :=
  ⟨fun _ _ _ _ _ h => raised_same _ _ _ _ _ s _ h (by simp) (by simp) (by simp) (by simp) (by simp), fun _ _ => posted_final t st d ws⟩

theorem raised_raise_tn {ev : Ev} {k : Kind} {i tn : Nat} {ws : List Word} {s : State} (h : s.tn = tn) :
    Raised ev k i ws tn (s.raise ev k i ws) := h ▸ raised_raise ev k i ws s

/-! ### Steps at an engine -/

/-- A step that touches engine `e` and the parts of `l` alone, leaves what was told, and starts no class L command. -/
structure Acts (e : Nat) (l : List Part) (s t : State) : Prop where
  within : Within e l s t
  told : KeepsTold s t
  jobs : ∀ j ∈ t.proto.jobs, j ∈ s.proto.jobs
theorem Acts.refl (e : Nat) (l : List Part) (s : State) : Acts e l s s := ⟨.refl .., .refl _, fun _ h => h⟩
theorem Acts.mono {e : Nat} {l m : List Part} {s t : State} (h : Acts e l s t) (hl : ∀ p ∈ l, p ∈ m) : Acts e m s t :=
  ⟨h.within.mono hl, h.told, h.jobs⟩
theorem Acts.trans {e : Nat} {l : List Part} {s u t : State} (h : Acts e l s u) (h' : Acts e l u t) : Acts e l s t :=
  ⟨h.within.trans h'.within, h.told.trans h'.told, fun j hj => h.jobs j (h'.jobs j hj)⟩
theorem Acts.foldl {α : Type} {e : Nat} {l : List Part} {f : State → α → State} (h : ∀ s a, Acts e l s (f s a)) (as : List α)
    (s : State) : Acts e l s (as.foldl f s) :=
  List.foldlRecOn as f (.refl e l s) (fun _ hu a _ => hu.trans (h _ a))
theorem acts_ite {e : Nat} {l : List Part} {b : Prop} {_ : Decidable b} {s t u : State} (ht : Acts e l s t) (hu : Acts e l s u) :
    Acts e l s (if b then t else u) := by
  split
  exacts [ht, hu]
theorem Acts.tn {e : Nat} {l : List Part} {s t : State} (h : Acts e l s t) (hl : Part.tn ∉ Part.engines :: l := by decide) : t.tn = s.tn :=
  h.within.1 .tn hl
/-- A step that leaves the counters and the protocol. -/
theorem acts_of_same {e : Nat} {l : List Part} {s t : State} (h : Within e l s t) (hc : t.ctr = s.ctr) (hp : t.proto = s.proto) : Acts e l s t :=
  ⟨h, keepsTold_of_same (by rw [hc]) (by simp [Part.same, hp]) (by simp [Part.same, hp]) (by simp [Part.same, hp]) (by simp [Part.same, hp]),
    by simp [hp]⟩
theorem acts_modEng (e : Nat) (f : Engine → Engine) (s : State) : Acts e [] s (s.modEng e f) := acts_of_same (within_modEng ..) rfl rfl
theorem acts_modPack (e n : Nat) (f : Pack → Pack) (s : State) : Acts e [.packs] s (s.modPack n f) := acts_of_same (within_modPack ..) rfl rfl
theorem acts_raise (e : Nat) (ev : Ev) (k : Kind) (i : Nat) (ws : List Word) (s : State) : Acts e eventParts s (s.raise ev k i ws) :=
  ⟨within_raise .., (leaves_raise e ev k i ws s).keepsTold (by simp [Part.same]), by simp⟩
theorem acts_count (e : Nat) (c : Ctr) (k : Kind) (i n : Nat) (s : State) : Acts e [.happened] s (s.count c k i n) :=
  ⟨within_count .., (leaves_count e c k i n s).keepsTold (by simp [Part.same]), by simp⟩
theorem acts_signal (e v : Nat) (s : State) : Acts e [.msix] s (s.signal v) :=
  acts_of_same (.of_only (fun p hp => by cases p <;> simp [Part.same] at hp ⊢) (by simp)) (by simp) (by simp)
/-- What answering a running or a pending command touches. -/
def finalParts : List Part := [.queueRegs, .responses, .msix, .alertN]
theorem acts_final (e : Nat) (t : Ticket) (st : Status) (d : Nat) (ws : List Word) (s : State) : Acts e finalParts s (s.final t st d ws) :=
  ⟨.of_only (fun p hp => by cases p <;> simp [finalParts, Part.same] at hp ⊢) (by simp), keepsTold_final .., by simp⟩

/-! ### Class L commands that end -/

theorem State.finishJobs_proto_jobs (p : Job → Bool) (st : Status) (d : Nat) (ws : List Word) (s : State) :
    (s.finishJobs p st d ws).proto.jobs = s.proto.jobs.filter (fun j => !p j) :=
  State.foldl_same (fun s => s.proto.jobs) _ (fun s j => by simp) _ _
theorem acts_finishJobs (e : Nat) (p : Job → Bool) (st : Status) (d : Nat) (ws : List Word) (s : State) :
    Acts e (.jobs :: finalParts) s (s.finishJobs p st d ws) := by
  refine .trans (u := s.modProto (fun q => { q with jobs := q.jobs.filter (fun j => !p j) })) ⟨?_, ?_, ?_⟩
    (.foldl (fun s j => (acts_final ..).mono (by decide)) _ _)
  · exact .of_only (fun p hp => by cases p <;> simp [finalParts, Part.same, State.tile] at hp ⊢) rfl
  · exact keepsTold_of_same rfl (by simp [Part.same]) (by simp [Part.same]) (by simp [Part.same]) (by simp [Part.same])
  · exact fun j hj => (List.mem_filter.mp hj).1
theorem acts_cancelArmed (e : Nat) (p : Armed → Bool) (st : Status) (d : Nat) (s : State) :
    Acts e (.armed :: finalParts) s (s.cancelArmed p st d) := by
  refine .trans (u := s.modProto (fun q => { q with armed := q.armed.filter (fun a => !p a) })) ⟨?_, ?_, ?_⟩
    (.foldl (fun s a => ?_) _ _)
  · exact .of_only (fun p hp => by cases p <;> simp [finalParts, Part.same, State.tile] at hp ⊢) rfl
  · exact keepsTold_of_same rfl (by simp [Part.same]) (by simp [Part.same]) (by simp [Part.same]) (by simp [Part.same])
  · exact fun j hj => hj
  · split
    exacts [(acts_final ..).mono (by decide), .refl ..]
/-- The FINAL response of a class L command on a host transport, unless it is suppressed. -/
theorem final_posted (j : Job) (st : Status) (d : Nat) (ws : List Word) (s : State) (hdead : j.ticket.dead = false)
    (hno : ¬(j.ticket.noResponse = true ∧ st = .ok)) :
    PostedAt j.ticket.src { opcode := j.ticket.opcode, tag := j.ticket.tag, issuer := j.ticket.issuer, status := st.code, final := true
                            detail := d, tn := s.tn, words := ws } (s.final j.ticket st d ws) :=
  respond_posted j.ticket { j.cmd with src := j.ticket.src } true st d s.tn ws s rfl hdead (by simpa using hno)
/-- Ending class L commands ends each that its test names. -/
theorem ended_finishJobs {p : Job → Bool} {j : Job} {s : State} (st : Status) (d : Nat) (ws : List Word) (hj : j ∈ s.proto.jobs)
    (hp : p j = true) : Ended j st d s.tn ws (s.finishJobs p st d ws) := by
  refine ⟨by simp [State.finishJobs_proto_jobs, hp], fun hsrc => ?_⟩
  by_cases hdead : j.ticket.dead = true
  · exact .inl hdead
  by_cases hno : j.ticket.noResponse = true ∧ st = .ok
  · exact .inr (.inl hno)
  refine .inr (.inr (foldl_establishes (b := j) (P := fun u => u.tn = s.tn → PostedAt j.ticket.src _ u) ?_ ?_ _
    (s.modProto (fun q => { q with jobs := q.jobs.filter (fun j => !p j) })) (List.mem_filter.mpr ⟨hj, hp⟩) ?_))
  case refine_3 => exact State.foldl_same (fun u => u.tn) _ (fun u i => by simp) _ _
  · exact fun u i hu htn => posted_final _ _ _ _ hsrc (hu (by simpa using htn))
  · intro u htn
    have hposted := final_posted j st d ws u (by simpa using hdead) hno
    rwa [show u.tn = s.tn by simpa using htn] at hposted
theorem Ended.keep {j : Job} {st : Status} {d tn : Nat} {ws : List Word} {e : Nat} {l : List Part} {s t : State}
    (h : Ended j st d tn ws s) (ht : Acts e l s t) : Ended j st d tn ws t :=
  ⟨fun hj => h.1 (ht.jobs j hj), fun hsrc => (h.2 hsrc).imp_right (Or.imp_right (ht.told.posted _ _ hsrc))⟩
end Sys2Proof.Machine
end

section
/-! The loading exchange at the sender (O26): announcements, their abort and their switch. -/
namespace Sys2Proof.Machine

/-! ### The end of a capacity change (R120, R252) -/

theorem State.eng_modLoad (e : Nat) (f : Loading → Loading) (s : State) (he : e < 48) :
    (s.modLoad e f).eng e = { s.eng e with load := f (s.eng e).load } := State.eng_modEng_same e _ s he
theorem vmod_congr {α : Type} {n : Nat} {v : Vector α n} {i : Nat} {f g : α → α} (d : α) (h : f (vget v i d) = g (vget v i d)) :
    vmod v i f = vmod v i g := by
  unfold vmod
  split
  next hi =>
    rw [vget, dif_pos hi] at h
    rw [h]
  · rfl
/-- An update of an engine's loading state is what it makes of the state there. -/
theorem State.modLoad_congr {e : Nat} {f g : Loading → Loading} {s : State} (h : f (s.eng e).load = g (s.eng e).load) :
    s.modLoad e f = s.modLoad e g := by
  have hengines := vmod_congr (f := fun x : Engine => { x with load := f x.load }) (g := fun x => { x with load := g x.load }) Engine.reset
    (congrArg (fun l => { s.eng e with load := l }) h)
  unfold State.modLoad State.modEng
  rw [hengines]
theorem acts_modLoad (e : Nat) (f : Loading → Loading) (s : State) : Acts e [] s (s.modLoad e f) := acts_modEng ..
/-- What the switch of a direction touches, and the end of a capacity change with it. -/
def switchParts : List Part := .packs :: .jobs :: .responses :: eventParts
theorem acts_packCapacityCheck (e : Nat) (s : State) : Acts e switchParts s (s.packCapacityCheck e) := by
  refine .foldl (fun s p => ?_) _ _
  dsimp only
  split
  · refine acts_ite (acts_ite ?_ ((acts_modPack ..).mono (by decide))) (.refl ..)
    exact (((acts_modPack ..).mono (by decide)).trans ((acts_raise ..).mono (by decide))).trans ((acts_finishJobs ..).mono (by decide))
  · exact .refl ..
@[simp] theorem State.eng_packCapacityCheck (e j : Nat) (s : State) : (s.packCapacityCheck e).eng j = s.eng j := by
  refine State.foldl_same (fun s => s.eng j) _ (fun s p => ?_) _ _
  dsimp only
  (repeat' split) <;> simp
theorem acts_capacityCheck (e : Nat) (s : State) : Acts e switchParts s (s.capacityCheck e) := by
  unfold State.capacityCheck
  split
  · exact .refl ..
  · refine acts_ite ?_ (.refl ..)
    refine .trans (.trans ?_ ((acts_finishJobs ..).mono (by decide))) (acts_packCapacityCheck ..)
    exact ((acts_modEng ..).mono (by decide)).trans ((acts_raise ..).mono (by decide))
/-- The end of a capacity change changes nothing of its engine but the pending change itself. -/
theorem State.eng_capacityCheck (e : Nat) (s : State) (he : e < 48) : ∃ cap, (s.capacityCheck e).eng e = { s.eng e with cap := cap } := by
  unfold State.capacityCheck
  split
  · exact ⟨_, rfl⟩
  · split
    · exact ⟨none, by simp [he]⟩
    · exact ⟨_, rfl⟩

/-! ### Announcements (R113, R115) -/

/-- The loading state with a vector newly announced for the frame two ticks on. -/
def Loading.announcing (l : Loading) (tn k : Nat) (vec : List Nat) (why : AnnWhy) (given : Option Nat) : Loading :=
  { l with
    seq := (l.seq + 1) % 256
    ann := some { seq := (l.seq + 1) % 256, k := k, vec := vec, loadTn := 0, deadline := 0, firstTn := tn + 2, givenTn := given
                  made := false, accepted := false, committed := false, why := why } }
theorem acts_announceAt (e k : Nat) (vec : List Nat) (why : AnnWhy) (given : Option Nat) (s : State) :
    Acts e eventParts s (s.announceAt e k vec why given) :=
  ((acts_modLoad ..).mono (by simp)).trans (acts_raise ..)
theorem State.eng_announceAt {e : Nat} (he : e < 48) (k : Nat) (vec : List Nat) (why : AnnWhy) (given : Option Nat) (s : State) :
    (s.announceAt e k vec why given).eng e = { s.eng e with load := (s.eng e).load.announcing s.tn k vec why given } := by
  unfold State.announceAt
  dsimp only
  rw [State.eng_raise, State.eng_modLoad _ _ _ he]
  rfl
theorem raised_announceAt {s : State} {tn : Nat} (h : s.tn = tn) (e k : Nat) (vec : List Nat) (why : AnnWhy) (given : Option Nat) :
    Raised .loadAnnounced .engine e [] tn (s.announceAt e k vec why given) := by
  unfold State.announceAt
  exact raised_raise_tn h
/-- The first announcing frame settles LOAD_TN and the deadline. -/
theorem Loading.makeAnn_ann {l : Loading} {a : Announce} {tn : Nat} (hann : l.ann = some a) (hmade : a.made = false) (htn : a.firstTn ≤ tn) :
    (l.makeAnn tn).ann = some { a with
      made := true, firstTn := tn, loadTn := a.givenTn.getD (tn + l.lead), deadline := a.givenTn.getD (tn + l.lead) - l.guard - 1 } := by
  simp [Loading.makeAnn, hann, hmade, htn]

/-! ### An announcement that is aborted (R115) -/

/-- The loading state whose announcement `a` is taken back: the same LOAD_TN with the vector and the capacity in force. -/
def Loading.takenBack (l : Loading) (k : Nat) (a : Announce) : Loading :=
  { l with
    seq := (l.seq + 1) % 256
    ann := some { a with seq := (l.seq + 1) % 256, k := k, vec := l.vecTx, accepted := false, committed := false, why := .abort } }
/-- What an abort tells, and the announcing command that it ends. -/
def State.abortTold (e : Nat) (cause : AbortCause) (s : State) : State :=
  ((s.raise .loadAborted .engine e (w1 cause.code)).raise .loadAnnounced .engine e []).finishJobs (jobOn 0x104 e) .cancelled 0x105 []
theorem State.abortAnn_of {e : Nat} {cause : AbortCause} {a : Announce} {s : State} (hann : (s.eng e).load.ann = some a)
    (hwhy : a.why ≠ .abort) (hcommitted : a.committed = false) :
    s.abortAnn e cause =
      let u := (s.modLoad e (fun l => l.takenBack (s.eng e).kTx a)).abortTold e cause
      if (s.eng e).annOfChange a then u.finishJobs (jobOn 0x101 e) .cancelled 0x105 [] else u := by
  unfold State.abortAnn
  simp only [hann]
  rw [if_neg (by simp [hwhy, hcommitted]), State.modLoad_congr (g := fun l => l.takenBack (s.eng e).kTx a) rfl]
  rfl
/-- What an abort touches. -/
def abortParts : List Part := .jobs :: .responses :: eventParts
theorem acts_abortTold (e : Nat) (cause : AbortCause) (s : State) : Acts e abortParts s (s.abortTold e cause) :=
  (((acts_raise ..).mono (by decide)).trans ((acts_raise ..).mono (by decide))).trans ((acts_finishJobs ..).mono (by decide))
theorem State.eng_abortTold (e : Nat) (cause : AbortCause) (j : Nat) (s : State) : (s.abortTold e cause).eng j = s.eng j := by
  simp [State.abortTold]
/-- What an abort tells has been told: LOAD_ABORTED with the cause, LOAD_ANNOUNCED, and the end of the announcing command. -/
theorem abortTold_tells (e : Nat) (cause : AbortCause) (s : State) :
    Raised .loadAborted .engine e (w1 cause.code) s.tn (s.abortTold e cause)
      ∧ Raised .loadAnnounced .engine e [] s.tn (s.abortTold e cause)
      ∧ ∀ j ∈ s.proto.jobs, jobOn 0x104 e j = true → Ended j .cancelled 0x105 s.tn [] (s.abortTold e cause) := by
  unfold State.abortTold
  generalize hu : s.raise .loadAborted .engine e (w1 cause.code) = u
  have htn : u.tn = s.tn := by simp [← hu]
  have hann := acts_raise e .loadAnnounced .engine e [] u
  have hend := acts_finishJobs e (jobOn 0x104 e) .cancelled 0x105 [] (u.raise .loadAnnounced .engine e [])
  refine ⟨(hann.told.trans hend.told).raised _ _ _ _ _ (hu ▸ raised_raise ..), hend.told.raised _ _ _ _ _ (raised_raise_tn htn),
    fun j hj hj' => ?_⟩
  have hended := ended_finishJobs (s := u.raise .loadAnnounced .engine e []) .cancelled 0x105 [] (by simpa [← hu] using hj) hj'
  rwa [State.raise_tn, htn] at hended
/-- An abort carries the vector in force, tells LOAD_ABORTED and LOAD_ANNOUNCED, and ends the announcing command and the capacity change. -/
theorem abortAnn_aborts {e : Nat} (he : e < 48) {cause : AbortCause} {a : Announce} {s : State} (hann : (s.eng e).load.ann = some a)
    (hwhy : a.why ≠ .abort) (hcommitted : a.committed = false) :
    Acts e abortParts s (s.abortAnn e cause)
      ∧ ((s.abortAnn e cause).eng e).load = (s.eng e).load.takenBack (s.eng e).kTx a
      ∧ Raised .loadAborted .engine e (w1 cause.code) s.tn (s.abortAnn e cause)
      ∧ Raised .loadAnnounced .engine e [] s.tn (s.abortAnn e cause)
      ∧ ∀ j ∈ s.proto.jobs, jobOn 0x104 e j = true ∨ (jobOn 0x101 e j = true ∧ (s.eng e).annOfChange a = true) →
          Ended j .cancelled 0x105 s.tn [] (s.abortAnn e cause) := by
  rw [State.abortAnn_of hann hwhy hcommitted]
  generalize hu : s.modLoad e (fun l => l.takenBack (s.eng e).kTx a) = u
  have hsu : Acts e abortParts s u := hu ▸ (acts_modLoad ..).mono (by simp)
  have heng : (u.eng e).load = (s.eng e).load.takenBack (s.eng e).kTx a := by rw [← hu, State.eng_modLoad _ _ _ he]
  have hjobs : u.proto.jobs = s.proto.jobs := by rw [← hu]; rfl
  obtain ⟨haborted, hannounced, hended⟩ := abortTold_tells e cause u
  have htold := acts_abortTold e cause u
  rw [hsu.tn] at haborted hannounced
  rw [hsu.tn, hjobs] at hended
  have hend : Acts e abortParts (u.abortTold e cause) (if (s.eng e).annOfChange a then _ else u.abortTold e cause) :=
    acts_ite ((acts_finishJobs e (jobOn 0x101 e) .cancelled 0x105 [] _).mono (by decide)) (.refl ..)
  refine ⟨(hsu.trans htold).trans hend, ?_, hend.told.raised _ _ _ _ _ haborted, hend.told.raised _ _ _ _ _ hannounced, fun j hj hj' => ?_⟩
  · rw [apply_ite (fun t : State => (t.eng e).load), State.eng_finishJobs, State.eng_abortTold, heng, ite_self]
  · by_cases hj104 : jobOn 0x104 e j = true
    · exact (hended j hj hj104).keep hend
    · obtain ⟨hj101, hchange⟩ := hj'.resolve_left hj104
      rw [if_pos hchange]
      have hchanged := ended_finishJobs (s := u.abortTold e cause) .cancelled 0x105 []
        (by simpa [State.abortTold, State.finishJobs_proto_jobs, hjobs, hj104] using hj) hj101
      rwa [htold.tn, hsu.tn] at hchanged

/-! ### The switch of the transmitter (R115, R120) -/

/-- The engine whose transmitter has switched to an announcement, before the end of a capacity change. -/
def Engine.txSwitched (g : Engine) (a : Announce) : Engine :=
  { g with kTx := a.k, load := { g.load with vecTx := a.vec, curSeq := a.seq, curTn := a.loadTn, ann := none } }
/-- A transmitter that has switched tells it, and the announcing command ends. -/
def State.txSwitchTold (e : Nat) (s : State) : State := (s.raise .loadTxSwitch .engine e []).finishJobs (jobOn 0x104 e) .ok 0 []
theorem txSwitchTold_tells (e : Nat) (s : State) :
    Acts e switchParts s (s.txSwitchTold e) ∧ (s.txSwitchTold e).eng e = s.eng e
      ∧ Raised .loadTxSwitch .engine e [] s.tn (s.txSwitchTold e)
      ∧ ∀ j ∈ s.proto.jobs, jobOn 0x104 e j = true → Ended j .ok 0 s.tn [] (s.txSwitchTold e) := by
  have hend := acts_finishJobs e (jobOn 0x104 e) .ok 0 [] (s.raise .loadTxSwitch .engine e [])
  refine ⟨((acts_raise ..).mono (by decide)).trans (hend.mono (by decide)), by simp [State.txSwitchTold],
    hend.told.raised _ _ _ _ _ (raised_raise ..), fun j hj hj' => ?_⟩
  have hended := ended_finishJobs (s := s.raise .loadTxSwitch .engine e []) .ok 0 [] (by simpa using hj) hj'
  rwa [State.raise_tn] at hended
theorem State.loadTxSwitch_eq (e : Nat) (a : Announce) (s : State) :
    s.loadTxSwitch e a =
      let v := (s.modEng e (fun g => g.txSwitched a)).txSwitchTold e
      if a.why == .capacity || (v.eng e).cap.any (fun c => c.kNew == a.k && c.kOld != a.k) then
        (v.modEng e (fun g => { g with cap := g.cap.map (fun c => { c with txDone := true }) })).capacityCheck e else v := rfl
/-- The transmitter takes the capacity and the vector announced, tells LOAD_TX_SWITCH, and ends the announcing command. -/
theorem loadTxSwitch_switches {e : Nat} (he : e < 48) (a : Announce) (s : State) :
    Acts e switchParts s (s.loadTxSwitch e a)
      ∧ (∃ cap, (s.loadTxSwitch e a).eng e = { (s.eng e).txSwitched a with cap := cap })
      ∧ Raised .loadTxSwitch .engine e [] s.tn (s.loadTxSwitch e a)
      ∧ ∀ j ∈ s.proto.jobs, jobOn 0x104 e j = true → Ended j .ok 0 s.tn [] (s.loadTxSwitch e a) := by
  have hsu : Acts e switchParts s (s.modEng e (fun g => g.txSwitched a)) := (acts_modEng ..).mono (by simp)
  obtain ⟨huv, heng, hraised, hended⟩ := txSwitchTold_tells e (s.modEng e (fun g => g.txSwitched a))
  rw [State.eng_modEng_same _ _ _ he] at heng
  rw [State.loadTxSwitch_eq]
  dsimp only
  generalize (s.modEng e (fun g => g.txSwitched a)).txSwitchTold e = v at huv heng hraised hended ⊢
  have hend : Acts e switchParts v (if a.why == .capacity || (v.eng e).cap.any (fun c => c.kNew == a.k && c.kOld != a.k) then
      (v.modEng e (fun g => { g with cap := g.cap.map (fun c => { c with txDone := true }) })).capacityCheck e else v) :=
    acts_ite (((acts_modEng ..).mono (by simp)).trans (acts_capacityCheck ..)) (.refl ..)
  refine ⟨(hsu.trans huv).trans hend, ?_, hend.told.raised _ _ _ _ _ hraised, fun j hj hj' => (hended j hj hj').keep hend⟩
  split
  · obtain ⟨cap, hcap⟩ := (v.modEng e (fun g => { g with cap := g.cap.map (fun c => { c with txDone := true }) })).eng_capacityCheck e he
    exact ⟨cap, by rw [hcap, State.eng_modEng_same _ _ _ he, heng]⟩
  · exact ⟨_, heng⟩

/-! ### The rows -/

theorem jobOn_iff (op e : Nat) (j : Job) : jobOn op e j = true ↔ j.ticket.opcode = op ∧ cIdx j.cmd = e := by simp [jobOn]
theorem Acts.atEngine {e : Nat} {l : List Part} {P : State → Prop} {s t : State} (h : Acts e l s t) (hP : P t) : AtEngine e l P s (.next t) :=
  ⟨t, rfl, ⟨hP, h.within.2⟩, h.within.1⟩
/-- The policy runs (R112): AUTO at a multiple of LOAD_INTERVAL, with nothing announced and nothing that stops it, after a whole interval. -/
structure Engine.PolicyDue (g : Engine) (s : State) (sums : List Int) (count : Nat) : Prop where
  auto : g.load.mode = 2
  multiple : s.tn % g.load.interval = 0
  idle : g.load.ann = none
  once : g.load.ranAt ≠ some s.tn
  up : s.recovery.headless = none
  free : s.power.braceEffect = false
  bunaten : g.zr = false
  whole : g.load.whole = some (sums, count, false)
  heard : count ≠ 0
/-- The loading state that remembers the policy's run. -/
def Loading.ran (l : Loading) (tn : Nat) : Loading := { l with ranAt := some tn }
theorem exec_loadPolicyRun {e : Fin 48} {s : State} {sums : List Int} {count : Nat} {v : List Nat} (h : (s.eng e).PolicyDue s sums count)
    (hv : policySteps (s.eng e).txLayout count (s.eng e).load.hyst sums (s.eng e).load.maxSteps (s.eng e).load.vecTx = v) :
    exec (.loadPolicyRun e) s = .next (if v = (s.eng e).load.vecTx then s.modLoad e (·.ran s.tn)
      else (s.modLoad e (·.ran s.tn)).announce e (s.eng e).kTx v .policy) := by
  obtain ⟨hauto, hmultiple, hidle, honce, hup, hfree, hbunaten, hwhole, hheard⟩ := h
  have hexec : exec (.loadPolicyRun e) s = execLoadPolicyRun e s := rfl
  rw [hexec, execLoadPolicyRun]
  dsimp only
  rw [if_pos ⟨hauto, hmultiple, hidle, honce, hup, hfree, hbunaten⟩]
  simp only [hwhole, Bool.false_or, hheard, decide_false, Bool.false_eq_true, if_false, hv]
  exact (apply_ite Host.Outcome.next ..).symm
theorem exec_loadAckDeadline {e : Fin 48} {s : State} {a : Announce} (hann : (s.eng e).load.ann = some a) (hmade : a.made = true)
    (hwhy : a.why ≠ .abort) (hunaccepted : a.accepted = false) (hdue : a.deadline ≤ s.tn) :
    exec (.loadAckDeadline e) s = .next (s.abortAnn e .deadline) := by
  have hexec : exec (.loadAckDeadline e) s = execLoadAckDeadline e s := rfl
  rw [hexec, execLoadAckDeadline]
  simp [hann, hmade, hwhy, hunaccepted, hdue]
theorem exec_loadTxSwitch {e : Fin 48} {s : State} {a : Announce} (hann : (s.eng e).load.ann = some a)
    (hwhy : a.why ≠ .abort) (haccepted : a.accepted = true) (hdue : a.loadTn ≤ s.tn) :
    exec (.loadTxSwitch e) s = .next (s.loadTxSwitch e a) := by
  have hexec : exec (.loadTxSwitch e) s = execLoadTxSwitch e s := rfl
  rw [hexec, execLoadTxSwitch]
  simp [hann, hwhy, haccepted, hdue]

/-- Settles O26: each row is the step it makes where its condition holds, and that step brings what the statement asks. -/
theorem loadingExchange : Obligations.LoadingExchange := by
  intro e s
  refine ⟨fun sums count hauto hmultiple hidle honce hup hfree hbunaten hwhole hheard => ?_, fun a hann hmade hwhy hun hcommitted hdue => ?_,
    fun a hann hwhy haccepted hdue => ?_, fun l a tn => Loading.makeAnn_ann⟩
  · have hexec := exec_loadPolicyRun ⟨hauto, hmultiple, hidle, honce, hup, hfree, hbunaten, hwhole, hheard⟩ rfl
    have hran := acts_modLoad e (·.ran s.tn) s
    have heng := State.eng_modLoad e (·.ran s.tn) s e.isLt
    refine ⟨fun hsame => ?_, fun hnew => ?_⟩
    · rw [hexec, if_pos hsame]
      exact hran.atEngine heng
    · rw [hexec, if_neg hnew]
      refine ((hran.mono (by simp)).trans (acts_announceAt ..)).atEngine ?_
      rw [State.eng_announceAt e.isLt, heng]
      exact ⟨⟨_, rfl, rfl, rfl, rfl, rfl, rfl, rfl, rfl⟩, rfl, raised_announceAt hran.tn ..⟩
  · obtain ⟨hacts, hback, haborted, hannounced, hended⟩ := abortAnn_aborts (cause := .deadline) e.isLt hann hwhy hcommitted
    rw [exec_loadAckDeadline hann hmade hwhy hun hdue]
    refine hacts.atEngine ⟨congrArg Loading.ann hback, haborted, hannounced, fun j hj hidx hop => hended j hj ?_⟩
    simp only [jobOn_iff, hidx, and_true]
    exact hop
  · obtain ⟨hacts, ⟨cap, heng⟩, hraised, hended⟩ := loadTxSwitch_switches e.isLt a s
    rw [exec_loadTxSwitch hann hwhy haccepted hdue]
    refine hacts.atEngine ?_
    rw [heng]
    exact ⟨rfl, rfl, rfl, rfl, rfl, rfl, hraised, fun j hj hop hidx => hended j hj ((jobOn_iff ..).mpr ⟨hop, hidx⟩)⟩
end Sys2Proof.Machine
end

section
/-! What the coding and loading commands use of other chapters (O25): the end of a search, of captured data and of an announcement, and the
change of an engine's capacity. -/
namespace Sys2Proof.Machine

/-! ### What this chapter holds of an engine -/

/-- Profile, layouts, capacity and loading of an engine. -/
structure Coding where
  zr : Bool
  txLayout : Nat
  rxLayout : Nat
  kTx : Nat
  kRx : Nat
  cap : Option CapChange
  load : Loading
def Engine.coding (g : Engine) : Coding :=
  { zr := g.zr, txLayout := g.txLayout, rxLayout := g.rxLayout, kTx := g.kTx, kRx := g.kRx, cap := g.cap, load := g.load }
/-- An update of an engine keeps what its function keeps. -/
theorem State.eng_modEng_of {β : Type} (g : Engine → β) (i : Nat) (f : Engine → Engine) (s : State) (j : Nat)
    (h : ∀ x, g (f x) = g x := by intro x; rfl) : g ((s.modEng i f).eng j) = g (s.eng j) := by
  by_cases hj : j = i
  · subst hj
    by_cases hlt : j < 48
    · rw [State.eng_modEng_same _ _ _ hlt, h]
    · simp [State.modEng, vmod_out _ _ _ hlt, State.eng]
  · rw [State.eng_modEng_ne _ _ _ _ hj]

/-! ### Acquisition (R172, R182, Table 5.4) -/

/-- What a release of alignment touches, and a new search pass with it. -/
def searchParts : List Part := .armed :: .jobs :: .responses :: eventParts
theorem acts_setHeel (e : Nat) (heel : Bool) (m : Int) (s : State) : Acts e eventParts s (s.setHeel e heel m) :=
  acts_ite (.refl ..) (((acts_modEng ..).mono (by simp)).trans (acts_raise ..))
theorem acts_alignRelease (e : Nat) (next : AcqState) (s : State) : Acts e eventParts s (s.alignRelease e next) :=
  (acts_setHeel ..).trans ((acts_modEng ..).mono (by simp))
theorem acts_dropCdSwap (e : Nat) (s : State) : Acts e searchParts s (s.dropCdSwap e) :=
  (((acts_cancelArmed ..).mono (by decide)).trans ((acts_finishJobs ..).mono (by decide))).trans ((acts_modEng ..).mono (by simp))
theorem acts_startPass (e : Nat) (s : State) : Acts e searchParts s (s.startPass e) :=
  ((acts_dropCdSwap ..).trans ((acts_modEng ..).mono (by simp))).trans ((acts_modEng ..).mono (by simp))
theorem acts_acqRestart (e : Nat) (s : State) : Acts e searchParts s (s.acqRestart e) := by
  refine acts_ite (.refl ..) (.trans (.trans (acts_ite (.refl ..) ?_) ((acts_alignRelease ..).mono (by decide))) (acts_startPass ..))
  exact (acts_modEng ..).mono (by simp)
theorem State.setHeel_coding (e : Nat) (heel : Bool) (m : Int) (j : Nat) (s : State) :
    ((s.setHeel e heel m).eng j).coding = (s.eng j).coding := by
  unfold State.setHeel
  split
  · rfl
  · rw [State.eng_raise]
    exact State.eng_modEng_of Engine.coding ..
theorem State.alignRelease_coding (e : Nat) (next : AcqState) (j : Nat) (s : State) :
    ((s.alignRelease e next).eng j).coding = (s.eng j).coding :=
  (State.eng_modEng_of Engine.coding ..).trans (State.setHeel_coding ..)
theorem State.startPass_coding (e j : Nat) (s : State) : ((s.startPass e).eng j).coding = (s.eng j).coding := by
  refine (State.eng_modEng_of Engine.coding ..).trans ((State.eng_modEng_of Engine.coding ..).trans
    ((State.eng_modEng_of Engine.coding ..).trans ?_))
  simp
theorem State.acqRestart_coding (e j : Nat) (s : State) : ((s.acqRestart e).eng j).coding = (s.eng j).coding := by
  unfold State.acqRestart State.searchClock
  dsimp only
  (repeat' split)
  · rfl
  · exact (State.startPass_coding ..).trans (State.alignRelease_coding ..)
  · exact ((State.startPass_coding ..).trans (State.alignRelease_coding ..)).trans (State.eng_modEng_of Engine.coding ..)
theorem State.alignRelease_state {e : Nat} (he : e < 48) (next : AcqState) (s : State) : ((s.alignRelease e next).eng e).acq.state = next := by
  unfold State.alignRelease
  rw [State.eng_modEng_same _ _ _ he]
theorem State.alignRelease_jobs (e : Nat) (next : AcqState) (s : State) : (s.alignRelease e next).proto.jobs = s.proto.jobs := by
  simp only [State.alignRelease, State.setHeel, State.modEng_proto, apply_ite (fun t : State => t.proto.jobs), State.raise_proto_jobs,
    State.modAcq, ite_self]

/-! ### Captured data that is withdrawn (R469, R473) -/

/-- What a withdrawal of captured data touches. -/
def withdrawParts : List Part := .tiles :: .dma :: eventParts
theorem acts_modDc (e n : Nat) (f : DmaChannel → DmaChannel) (s : State) : Acts e [.dma] s (s.modDc n f) :=
  acts_of_same (.of_only (fun p hp => by cases p <;> simp [Part.same] at hp ⊢) rfl) rfl rfl
theorem acts_endChannel (e c : Nat) (x : DmaEnd) (s : State) : Acts e withdrawParts s (s.endChannel c x) := by
  refine .trans (.trans (.trans ?_ (acts_ite ?_ (.refl ..))) (acts_ite ?_ (.refl ..))) (acts_ite ?_ (.refl ..))
  exacts [(acts_modDc ..).mono (by decide), (acts_count ..).mono (by decide), (acts_count ..).mono (by decide),
    (acts_signal ..).mono (by decide)]
theorem acts_dropCapture (e k : Nat) (s : State) : Acts e withdrawParts s (s.dropCapture k) := by
  refine .trans ?_ (.foldl (fun s i => acts_ite (acts_endChannel ..) (.refl ..)) _ _)
  refine acts_of_same (.of_only (fun p hp => ?_) rfl) rfl rfl
  cases p <;> simp [withdrawParts, eventParts, Part.same] at hp ⊢
theorem acts_withdrawCapture (e k : Nat) (only : Option Nat) (why : CapCause) (s : State) :
    Acts e withdrawParts s (s.withdrawCapture k only why) :=
  acts_ite (.refl ..) ((acts_dropCapture ..).trans ((acts_raise ..).mono (by decide)))
/-- A withdrawal leaves what an operation of the DMA channels and an event leave. -/
theorem State.withdrawCapture_frame {β : Type} (g : State → β) (k : Nat) (only : Option Nat) (why : CapCause) (s : State)
    (ht : ∀ i f s, g (s.modTile i f) = g s := by intros; rfl) (hd : ∀ (s : State) d, g { s with dma := d } = g s := by intros; rfl)
    (hend : ∀ c x s, g (State.endChannel c x s) = g s)
    (hraise : ∀ ev k i ws s, g (State.raise ev k i ws s) = g s := by simp) : g (s.withdrawCapture k only why) = g s := by
  unfold State.withdrawCapture
  dsimp only
  split
  · rfl
  · rw [hraise]
    refine (State.foldl_same g _ (fun s i => ?_) _ _).trans ((hd ..).trans (ht ..))
    split
    exacts [hend .., rfl]
theorem State.endChannel_engines (c : Nat) (x : DmaEnd) (s : State) : (s.endChannel c x).engines = s.engines := by
  unfold State.endChannel
  dsimp only
  (repeat' split) <;> simp
theorem State.endChannel_jobs (c : Nat) (x : DmaEnd) (s : State) : (s.endChannel c x).proto.jobs = s.proto.jobs := by
  unfold State.endChannel
  dsimp only
  (repeat' split) <;> simp
theorem State.eng_withdrawCapture (k : Nat) (only : Option Nat) (why : CapCause) (j : Nat) (s : State) :
    (s.withdrawCapture k only why).eng j = s.eng j := by
  have hengines := s.withdrawCapture_frame (·.engines) k only why (hend := State.endChannel_engines)
  simp only [State.eng, hengines]
theorem State.withdrawCapture_jobs (k : Nat) (only : Option Nat) (why : CapCause) (s : State) :
    (s.withdrawCapture k only why).proto.jobs = s.proto.jobs :=
  s.withdrawCapture_frame (·.proto.jobs) k only why (hend := State.endChannel_jobs)

/-! ### A change of capacity at its boundary (R111, R120, R121) -/

/-- What a capacity change at a boundary touches. -/
def capacityParts : List Part := .packs :: .tiles :: .dma :: .jobs :: .responses :: eventParts
theorem acts_dropAnn (e : Nat) (s : State) : Acts e (.jobs :: finalParts) s (s.dropAnn e) :=
  (acts_finishJobs ..).trans ((acts_modLoad ..).mono (by simp))
/-- An engine with nothing announced, by it or to it. -/
def Engine.unannounced (g : Engine) : Engine := { g with load := { g.load with ann := none, armed := none, dropped := none } }
theorem State.eng_dropAnn {e : Nat} (he : e < 48) (s : State) : (s.dropAnn e).eng e = (s.eng e).unannounced := by
  unfold State.dropAnn
  rw [State.eng_modLoad _ _ _ he, State.eng_finishJobs]
  rfl
theorem acts_setCapacity (e k : Nat) (s : State) : Acts e capacityParts s (s.setCapacity e k) := by
  refine .trans (((acts_dropAnn ..).mono (by decide)).trans ((acts_modEng ..).mono (by simp))) (acts_ite ?_ (acts_ite ?_ (.refl ..)))
  · exact (((acts_modEng ..).mono (by simp)).trans ((acts_alignRelease ..).mono (by decide))).trans
      ((acts_withdrawCapture ..).mono (by decide))
  · exact (acts_modEng ..).mono (by simp)
/-- Both directions at a new capacity, with its default vectors and nothing announced. -/
def Coding.atCapacity (x : Coding) (k tn : Nat) : Coding :=
  { x with
    kTx := k, kRx := k
    load := { x.load with
      ann := none, armed := none, dropped := none, toDefault := true, vecTx := defaultVec k x.txLayout, curTn := tn
      vecRx := defaultVec k x.rxLayout } }
/-- An engine at a new capacity, before what it does to its receiver. -/
def State.capacityTaken (e k : Nat) (s : State) : State :=
  (s.dropAnn e).modEng e (fun g =>
    { g with
      kTx := k, kRx := k
      load := { g.load with toDefault := true, vecTx := defaultVec k g.txLayout, curTn := s.tn, vecRx := defaultVec k g.rxLayout }
      tx := { g.tx with reason := { g.tx.reason with config := k == 0 } } })
theorem State.setCapacity_eq (e k : Nat) (s : State) :
    s.setCapacity e k =
      let u := s.capacityTaken e k
      if k = 0 then ((u.dropSvc e).alignRelease e .disabled).withdrawCapture (tileOf e) (some e) .config
      else if (u.eng e).acq.state == .disabled && !u.fenced e then
        u.modEng e (fun g => { g with acq := { g.acq with state := .noSignal, noSyncRaised := false }, losIn := false })
      else u := rfl
theorem State.capacityTaken_coding {e : Nat} (he : e < 48) (k : Nat) (s : State) :
    ((s.capacityTaken e k).eng e).coding = (s.eng e).coding.atCapacity k s.tn := by
  unfold State.capacityTaken
  rw [State.eng_modEng_same _ _ _ he, State.eng_dropAnn he]
  rfl
theorem State.capacityTaken_jobs (e k : Nat) (s : State) :
    (s.capacityTaken e k).proto.jobs = s.proto.jobs.filter (fun j => !jobOn 0x104 e j) := State.finishJobs_proto_jobs ..
theorem State.setCapacity_coding {e : Nat} (he : e < 48) (k : Nat) (s : State) :
    ((s.setCapacity e k).eng e).coding = (s.eng e).coding.atCapacity k s.tn := by
  rw [State.setCapacity_eq, ← State.capacityTaken_coding he]
  dsimp only
  (repeat' split)
  · rw [State.eng_withdrawCapture]
    exact (State.alignRelease_coding ..).trans (State.eng_modEng_of Engine.coding ..)
  · exact State.eng_modEng_of Engine.coding ..
  · rfl
theorem State.setCapacity_zero_state {e : Nat} (he : e < 48) (s : State) : ((s.setCapacity e 0).eng e).acq.state = .disabled := by
  rw [State.setCapacity_eq]
  dsimp only
  rw [if_pos rfl, State.eng_withdrawCapture, State.alignRelease_state he]
theorem State.setCapacity_jobs (e k : Nat) (s : State) :
    (s.setCapacity e k).proto.jobs = s.proto.jobs.filter (fun j => !jobOn 0x104 e j) := by
  rw [State.setCapacity_eq, ← State.capacityTaken_jobs e k]
  dsimp only
  (repeat' split)
  · rw [State.withdrawCapture_jobs, State.alignRelease_jobs]
    rfl
  · rfl
  · rfl
/-- A change that both directions have made is over: CAPACITY_DONE is told, and its command has ended. -/
theorem capacityCheck_completes {e : Nat} (he : e < 48) {s : State} {x : CapChange} (hx : (s.eng e).cap = some x) (htx : x.txDone = true)
    (hrx : x.rxDone = true) :
    (s.capacityCheck e).eng e = { s.eng e with cap := none } ∧ Raised .capacityDone .engine e (w1 x.kNew) s.tn (s.capacityCheck e)
      ∧ ∀ j ∈ s.proto.jobs, jobOn 0x101 e j = true → Ended j .ok 0 s.tn [] (s.capacityCheck e) := by
  generalize hu : (s.modEng e (fun g => { g with cap := none })).raise .capacityDone .engine e (w1 x.kNew) = u
  have hcheck : s.capacityCheck e = (u.finishJobs (jobOn 0x101 e) .ok 0 []).packCapacityCheck e := by
    simp only [State.capacityCheck, hx, htx, hrx, Bool.and_self, if_true, hu]
  have htn : u.tn = s.tn := by simp [← hu]
  have heng : u.eng e = { s.eng e with cap := none } := by rw [← hu, State.eng_raise, State.eng_modEng_same _ _ _ he]
  have hraised : Raised .capacityDone .engine e (w1 x.kNew) s.tn u := hu ▸ raised_raise_tn rfl
  have hend := acts_finishJobs e (jobOn 0x101 e) .ok 0 [] u
  have hpack := acts_packCapacityCheck e (u.finishJobs (jobOn 0x101 e) .ok 0 [])
  rw [hcheck]
  refine ⟨by rw [State.eng_packCapacityCheck, State.eng_finishJobs, heng], (hend.told.trans hpack.told).raised _ _ _ _ _ hraised,
    fun j hj hj' => Ended.keep ?_ hpack⟩
  rw [← htn]
  exact ended_finishJobs .ok 0 [] (by simpa [← hu] using hj) hj'
/-- The capacity that a pending change brings: in the 400ZR profile, K = 2 (R49). -/
def capacityAt (c : Cmd) (s : State) : Nat := if (s.eng (cIdx c)).zr = true ∧ cw c 1 ≠ 0 then 2 else cw c 1
/-- A pending change whose two directions have switched to `k`. -/
def Engine.bothDone (g : Engine) (k : Nat) : Engine :=
  { g with cap := g.cap.map (fun x => { x with kNew := k, txDone := true, rxDone := true }) }
theorem applyCapacity_eq (c : Cmd) (s : State) :
    applyCapacity c s =
      ((s.modEng (cIdx c) (·.bothDone (capacityAt c s))).setCapacity (cIdx c) (capacityAt c s)).capacityCheck (cIdx c) := by
  have hk : (if ((s.eng (cIdx c)).zr && cw c 1 != 0) = true then 2 else cw c 1) = capacityAt c s := by simp [capacityAt]
  unfold applyCapacity
  dsimp only
  rw [hk]
  rfl
/-- A pending change of capacity takes effect: both directions have it, and the change is over. -/
theorem applyCapacity_changes {c : Cmd} {s : State} (he : cIdx c < 48) (hcap : (s.eng (cIdx c)).cap ≠ none) :
    Acts (cIdx c) capacityParts s (applyCapacity c s)
      ∧ ((applyCapacity c s).eng (cIdx c)).coding =
        { (s.eng (cIdx c)).coding.atCapacity (capacityAt c s) s.tn with cap := none }
      ∧ (capacityAt c s = 0 → ((applyCapacity c s).eng (cIdx c)).acq.state = .disabled)
      ∧ Raised .capacityDone .engine (cIdx c) (w1 (capacityAt c s)) s.tn (applyCapacity c s)
      ∧ ∀ j ∈ s.proto.jobs, jobOn 0x101 (cIdx c) j = true → Ended j .ok 0 s.tn [] (applyCapacity c s) := by
  obtain ⟨x, hx⟩ := Option.ne_none_iff_exists'.mp hcap
  rw [applyCapacity_eq]
  generalize capacityAt c s = k
  generalize cIdx c = e at *
  generalize hu : s.modEng e (·.bothDone k) = u
  have hsu : Acts e capacityParts s u := hu ▸ (acts_modEng ..).mono (by simp)
  have heng : u.eng e = (s.eng e).bothDone k := by rw [← hu, State.eng_modEng_same _ _ _ he]
  have hset := acts_setCapacity e k u
  have hcoding := State.setCapacity_coding he k u
  have hjobs := State.setCapacity_jobs e k u
  have hstate : k = 0 → ((u.setCapacity e k).eng e).acq.state = .disabled := fun hk => hk ▸ State.setCapacity_zero_state he u
  have hpending : ((u.setCapacity e k).eng e).cap = some { x with kNew := k, txDone := true, rxDone := true } := by
    refine (congrArg Coding.cap hcoding).trans ?_
    simp [heng, Engine.bothDone, Engine.coding, Coding.atCapacity, hx]
  obtain ⟨hover, hdone, hended⟩ := capacityCheck_completes he hpending rfl rfl
  rw [hset.tn, hsu.tn] at hdone hended
  refine ⟨(hsu.trans hset).trans ((acts_capacityCheck ..).mono (by decide)), ?_, fun hk => ?_, hdone, fun j hj hj' => hended j ?_ hj'⟩
  · rw [hover]
    refine (congrArg (fun y : Coding => { y with cap := none }) hcoding).trans ?_
    rw [heng, hsu.tn]
    rfl
  · rw [hover]
    exact hstate hk
  · have hother : jobOn 0x104 e j = false := by
      rw [jobOn_iff] at hj'
      simp [jobOn, hj'.1]
    rw [hjobs, ← hu]
    exact List.mem_filter.mpr ⟨hj, by simp [hother]⟩

end Sys2Proof.Machine
end

section
/-! The coding and loading commands (O25). -/
namespace Sys2Proof.Machine

/-! ### Commands that begin (R407) -/

/-- A class L command runs from now on. -/
def State.startJob (j : Job) (s : State) : State := s.modProto (fun p => { p with jobs := p.jobs ++ [j] })
theorem within_startJob (e : Nat) (j : Job) (s : State) : Within e [.jobs] s (s.startJob j) :=
  .of_only (fun p hp => by cases p <;> simp [State.startJob, Part.same] at hp ⊢) rfl
theorem keepsTold_startJob (j : Job) (s : State) : KeepsTold s (s.startJob j) :=
  keepsTold_of_same rfl ⟨rfl, rfl⟩ rfl rfl ⟨rfl, rfl, rfl, rfl⟩
theorem mem_startJob (j : Job) (s : State) : j ∈ (s.startJob j).proto.jobs := List.mem_append_right _ (List.mem_singleton.mpr rfl)
theorem only_mono {l m : List Part} {s t : State} (h : Only l s t) (hl : ∀ p ∈ l, p ∈ m) : Only m s t :=
  fun p hp => h p (fun hm => hp (hl p hm))
/-- What a class L command begins at an engine is its running, its acceptance and the frame, besides what it does. -/
theorem begun_at_engine {op : Nat} {c : Cmd} {j : Job} {e : Nat} {l parts : List Part} {s u w : State} (hc : j.cmd = c)
    (ht : j.ticket.opcode = op) (hu : Only answerParts s u) (hA : Answered op c false .ok 0 s.tn [] u) (hw : Within e l u w)
    (htold : KeepsTold u w) (hj : j ∈ w.proto.jobs) (hl : ∀ p ∈ Part.engines :: l, p ∈ Part.jobs :: (parts ++ answerParts)) :
    Running op c w ∧ (c.src.isHost = true → Answered op c false .ok 0 s.tn [] w) ∧ Only (.jobs :: (parts ++ answerParts)) s w := by
  refine ⟨⟨j, hj, hc, ht⟩, fun hsrc => hA.imp_right (htold.posted _ _ hsrc), only_trans _ _ s u _ hu (only_mono hw.1 hl) (fun p hp => ?_)⟩
  exact List.mem_cons_of_mem _ (List.mem_append_right _ hp)
theorem eng_of_answer {s u : State} (h : Only answerParts s u) (j : Nat) : u.eng j = s.eng j := by
  have hengines : u.engines = s.engines := h .engines (by decide)
  simp only [State.eng, hengines]

/-! ### ENGINE_LOAD_ANNOUNCE (R118) -/

/-- The commands whose announcement another one replaces have ended. -/
def State.annReplaced (e tag : Nat) (s : State) : State :=
  let s := s.finishJobs (jobOn 0x104 e) .superseded tag []
  if (s.eng e).load.ann.any (fun a => a.why == .capacity) then s.finishJobs (jobOn 0x101 e) .superseded tag [] else s
theorem acts_annReplaced (e tag : Nat) (s : State) : Acts e (.jobs :: finalParts) s (s.annReplaced e tag) :=
  (acts_finishJobs ..).trans (acts_ite (acts_finishJobs ..) (.refl ..))
theorem State.eng_annReplaced (e tag j : Nat) (s : State) : (s.annReplaced e tag).eng j = s.eng j := by
  unfold State.annReplaced
  dsimp only
  split <;> simp
/-- A pending change to a capacity keeps the vector supplied for it. -/
def Engine.withUserVec (g : Engine) (k : Nat) (vec : List Nat) : Engine :=
  { g with cap := g.cap.map (fun x => if x.kNew = k then { x with userVec := some vec } else x) }
/-- What an accepted ENGINE_LOAD_ANNOUNCE does. -/
def announceEffect (j : Job) (c : Cmd) (s : State) : State :=
  (((s.annReplaced (cIdx c) c.tag.val).modEng (cIdx c) (·.withUserVec (cw c 1) (cmdVec c))).startJob j).announceAt (cIdx c) (cw c 1)
    (cmdVec c) .manual none
theorem specEngineLoadAnnounce_eff : specEngineLoadAnnounce.eff = .long announceEffect := rfl
theorem announceEffect_announces {j : Job} {c : Cmd} {s : State} (he : cIdx c < 48) :
    Within (cIdx c) (.jobs :: .responses :: eventParts) s (announceEffect j c s) ∧ KeepsTold s (announceEffect j c s)
      ∧ j ∈ (announceEffect j c s).proto.jobs ∧ Raised .loadAnnounced .engine (cIdx c) [] s.tn (announceEffect j c s)
      ∧ (announceEffect j c s).eng (cIdx c) = { (s.eng (cIdx c)).withUserVec (cw c 1) (cmdVec c) with
          load := (s.eng (cIdx c)).load.announcing s.tn (cw c 1) (cmdVec c) .manual none } := by
  unfold announceEffect
  generalize hu : (s.annReplaced (cIdx c) c.tag.val).modEng (cIdx c) (·.withUserVec (cw c 1) (cmdVec c)) = u
  have hsu : Acts (cIdx c) (.jobs :: .responses :: eventParts) s u :=
    hu ▸ ((acts_annReplaced ..).mono (by decide)).trans ((acts_modEng ..).mono (by simp))
  have heng : u.eng (cIdx c) = (s.eng (cIdx c)).withUserVec (cw c 1) (cmdVec c) := by
    rw [← hu, State.eng_modEng_same _ _ _ he, State.eng_annReplaced]
  have hann := acts_announceAt (cIdx c) (cw c 1) (cmdVec c) .manual none (u.startJob j)
  have htn : (u.startJob j).tn = s.tn := hsu.tn
  refine ⟨(hsu.within.trans ((within_startJob ..).mono (by simp))).trans (hann.within.mono (by decide)),
    (hsu.told.trans (keepsTold_startJob ..)).trans hann.told, ?_, raised_announceAt htn .., ?_⟩
  · have hjobs : ((u.startJob j).announceAt (cIdx c) (cw c 1) (cmdVec c) .manual none).proto.jobs = (u.startJob j).proto.jobs :=
      State.raise_proto_jobs ..
    exact hjobs ▸ mem_startJob j u
  · have hjob : (u.startJob j).eng (cIdx c) = u.eng (cIdx c) := rfl
    rw [State.eng_announceAt he, hjob, htn, heng]
    rfl

/-! ### ENGINE_CAPACITY_SET (R119 to R121) -/

theorem State.carries_of_same {s t : State} (he : t.engines = s.engines) (hc : t.cal = s.cal) (hp : t.packs = s.packs) (e : Nat) :
    t.carries e = s.carries e := by
  simp only [State.carries, State.eng, State.pack, he, hc, hp]
/-- A change to `k` that nothing has yet made. -/
def Engine.changing (g : Engine) (k : Nat) : Engine :=
  { g with cap := some { kOld := g.kTx, kNew := k, txDone := false, rxDone := false, accepted := false, userVec := none } }
/-- Under traffic a change that is not yet pending is announced. -/
theorem State.startCapacity_traffic {e k tag : Nat} {s : State} (hcarries : s.carries e = true) (hcap : (s.eng e).cap = none) :
    s.startCapacity e k none tag =
      ((s.finishJobs (jobOn 0x104 e) .superseded tag []).modEng e (fun g => { g with cap := ((s.eng e).changing k).cap })).announceAt e k
        (capVector (s.eng e) k) .capacity none := by
  have hcarries' : (s.finishJobs (jobOn 0x104 e) .superseded tag []).carries e = true :=
    (State.carries_of_same (by simp) (by simp) (by simp) e).trans hcarries
  unfold State.startCapacity
  simp only [hcarries', if_true, hcap]
  rfl
/-- Without traffic a change is pending, and no vector of another is announced. -/
theorem State.startCapacity_quiet {e k tag : Nat} {given : Option Nat} {s : State} (hcarries : s.carries e = false) :
    s.startCapacity e k given tag =
      (s.finishJobs (jobOn 0x104 e) .superseded tag []).modEng e (fun g => { g with
        cap := ((s.eng e).changing k).cap, load := { g.load with ann := g.load.ann.filter (fun a => a.why == .abort) } }) := by
  have hcarries' : (s.finishJobs (jobOn 0x104 e) .superseded tag []).carries e = false :=
    (State.carries_of_same (by simp) (by simp) (by simp) e).trans hcarries
  unfold State.startCapacity
  simp only [hcarries', Bool.false_eq_true, if_false]
  rfl
/-- The command runs, and one that it replaces has ended. -/
def State.capacityAsked (j : Job) (c : Cmd) (s : State) : State :=
  (s.finishJobs (jobOn 0x101 (cIdx c)) .superseded c.tag.val []).startJob j
/-- What an accepted ENGINE_CAPACITY_SET does. -/
def capacityEffect (j : Job) (c : Cmd) (s : State) : State :=
  let u := s.capacityAsked j c
  let v := u.startCapacity (cIdx c) (cw c 1) none c.tag.val
  if !u.carries (cIdx c) then v.arm { due := v.tn + 1, key := keyOf 0x101 c, opcode := 0x101, cmd := c, ticket := none } else v
theorem specEngineCapacitySet_eff : specEngineCapacitySet.eff = .long capacityEffect := rfl
theorem capacityAsked_asks (j : Job) (c : Cmd) (s : State) :
    Within (cIdx c) (.jobs :: finalParts) s (s.capacityAsked j c) ∧ KeepsTold s (s.capacityAsked j c)
      ∧ j ∈ (s.capacityAsked j c).proto.jobs ∧ (s.capacityAsked j c).tn = s.tn
      ∧ (s.capacityAsked j c).eng (cIdx c) = s.eng (cIdx c) ∧ (s.capacityAsked j c).carries (cIdx c) = s.carries (cIdx c) := by
  unfold State.capacityAsked
  have hend := acts_finishJobs (cIdx c) (jobOn 0x101 (cIdx c)) .superseded c.tag.val [] s
  refine ⟨hend.within.trans ((within_startJob ..).mono (by decide)), hend.told.trans (keepsTold_startJob ..), mem_startJob .., hend.tn, ?_, ?_⟩
  · exact State.eng_finishJobs ..
  · exact State.carries_of_same (State.finishJobs_engines ..) (State.finishJobs_cal ..) (State.finishJobs_packs ..) _
/-- A command that starts a capacity change is not an announcing one. -/
theorem mem_finishAnnouncing {e tag : Nat} {j : Job} {s : State} (hj : j ∈ s.proto.jobs) (hop : j.ticket.opcode = 0x101) :
    j ∈ (s.finishJobs (jobOn 0x104 e) .superseded tag []).proto.jobs := by
  rw [State.finishJobs_proto_jobs]
  exact List.mem_filter.mpr ⟨hj, by simp [jobOn, hop]⟩
theorem capacityEffect_announces {j : Job} {c : Cmd} {s : State} (he : cIdx c < 48) (hop : j.ticket.opcode = 0x101)
    (hcarries : s.carries (cIdx c) = true) (hcap : (s.eng (cIdx c)).cap = none) :
    Within (cIdx c) (.jobs :: .responses :: eventParts) s (capacityEffect j c s) ∧ KeepsTold s (capacityEffect j c s)
      ∧ j ∈ (capacityEffect j c s).proto.jobs ∧ Raised .loadAnnounced .engine (cIdx c) [] s.tn (capacityEffect j c s)
      ∧ (capacityEffect j c s).eng (cIdx c) = { (s.eng (cIdx c)).changing (cw c 1) with
          load := (s.eng (cIdx c)).load.announcing s.tn (cw c 1) (capVector (s.eng (cIdx c)) (cw c 1)) .capacity none } := by
  obtain ⟨hwithin, htold, hj, htn, heng, hcarries'⟩ := capacityAsked_asks j c s
  unfold capacityEffect
  generalize s.capacityAsked j c = u at *
  rw [hcarries] at hcarries'
  dsimp only
  rw [hcarries', Bool.not_true, if_neg Bool.false_ne_true, State.startCapacity_traffic hcarries' (by rw [heng, hcap]), heng]
  generalize hv : (u.finishJobs (jobOn 0x104 (cIdx c)) .superseded c.tag.val []).modEng (cIdx c)
    (fun g => { g with cap := ((s.eng (cIdx c)).changing (cw c 1)).cap }) = v
  have huv : Acts (cIdx c) (.jobs :: .responses :: eventParts) u v :=
    hv ▸ ((acts_finishJobs ..).mono (by decide)).trans ((acts_modEng ..).mono (by simp))
  have hann := acts_announceAt (cIdx c) (cw c 1) (capVector (s.eng (cIdx c)) (cw c 1)) .capacity none v
  have hveng : v.eng (cIdx c) = (s.eng (cIdx c)).changing (cw c 1) := by
    rw [← hv, State.eng_modEng_same _ _ _ he, State.eng_finishJobs, heng]
    rfl
  have hvtn : v.tn = s.tn := huv.tn.trans htn
  refine ⟨((hwithin.mono (by decide)).trans huv.within).trans (hann.within.mono (by decide)), (htold.trans huv.told).trans hann.told, ?_,
    raised_announceAt hvtn .., ?_⟩
  · have hjobs : (v.announceAt (cIdx c) (cw c 1) (capVector (s.eng (cIdx c)) (cw c 1)) .capacity none).proto.jobs = v.proto.jobs :=
      State.raise_proto_jobs ..
    rw [hjobs, ← hv]
    exact mem_finishAnnouncing hj hop
  · rw [State.eng_announceAt he, hveng, hvtn]
    rfl
theorem acts_arm (e : Nat) (a : Armed) (s : State) : Acts e (.armed :: finalParts) s (s.arm a) := by
  refine (acts_cancelArmed ..).trans ⟨.of_only (fun p hp => ?_) rfl, keepsTold_of_same rfl ⟨rfl, rfl⟩ rfl rfl ⟨rfl, rfl, rfl, rfl⟩,
    fun _ h => h⟩
  cases p <;> simp [finalParts, Part.same] at hp ⊢
theorem pending_arm {cls op due : Nat} {c : Cmd} {ticket : Option Ticket} (s : State) :
    Pending cls op due c (s.arm { due := due, key := keyOf cls c, opcode := op, cmd := c, ticket := ticket }) :=
  ⟨_, by rw [arm_armed]; exact List.mem_append_right _ (List.mem_singleton.mpr rfl), rfl, rfl, rfl, rfl⟩
theorem capacityEffect_arms {j : Job} {c : Cmd} {s : State} (he : cIdx c < 48) (hop : j.ticket.opcode = 0x101)
    (hcarries : s.carries (cIdx c) = false) :
    Within (cIdx c) (.armed :: .jobs :: finalParts) s (capacityEffect j c s) ∧ KeepsTold s (capacityEffect j c s)
      ∧ j ∈ (capacityEffect j c s).proto.jobs ∧ Pending 0x101 0x101 (s.tn + 1) c (capacityEffect j c s)
      ∧ ((capacityEffect j c s).eng (cIdx c)).cap = ((s.eng (cIdx c)).changing (cw c 1)).cap := by
  obtain ⟨hwithin, htold, hj, htn, heng, hcarries'⟩ := capacityAsked_asks j c s
  unfold capacityEffect
  generalize s.capacityAsked j c = u at *
  rw [hcarries] at hcarries'
  dsimp only
  rw [hcarries', Bool.not_false, if_pos rfl, State.startCapacity_quiet hcarries', heng]
  generalize hv : (u.finishJobs (jobOn 0x104 (cIdx c)) .superseded c.tag.val []).modEng (cIdx c) _ = v
  have huv : Acts (cIdx c) (.armed :: .jobs :: finalParts) u v :=
    hv ▸ ((acts_finishJobs ..).mono (by decide)).trans ((acts_modEng ..).mono (by simp))
  have hveng : (v.eng (cIdx c)).cap = ((s.eng (cIdx c)).changing (cw c 1)).cap := by
    rw [← hv, State.eng_modEng_same _ _ _ he]
  have harm := acts_arm (cIdx c) { due := v.tn + 1, key := keyOf 0x101 c, opcode := 0x101, cmd := c, ticket := none } v
  refine ⟨((hwithin.mono (by decide)).trans huv.within).trans (harm.within.mono (by decide)), (htold.trans huv.told).trans harm.told, ?_,
    huv.tn.trans htn ▸ pending_arm v, by rw [State.eng_arm, hveng]⟩
  rw [State.arm_proto_jobs, ← hv]
  exact mem_finishAnnouncing hj hop

end Sys2Proof.Machine
end

section
/-! The coding and loading commands (O25): ENGINE_PROFILE_SET, and the obligation. -/
namespace Sys2Proof.Machine

/-! ### ENGINE_PROFILE_SET (R111, R122) -/

theorem only_atParse (op : Nat) (c : Cmd) (s : State) : Only answerParts s (s.atParse op c) :=
  fun p hp => by cases p <;> simp [answerParts, Part.same] at hp ⊢

/-- What a change of profile touches. -/
def profileParts : List Part := .tiles :: .dma :: .armed :: .jobs :: .responses :: eventParts
/-- The engine with the profile and layouts of the command, back at its default vectors. -/
def Engine.profiled (g : Engine) (c : Cmd) (tn : Nat) : Engine :=
  let k := if cw c 1 == 1 && g.kTx != 0 then 2 else g.kTx
  let rxl := field (cw c 2) 4 4
  { g with
    zr := cw c 1 == 1, txLayout := field (cw c 2) 0 4, rxLayout := rxl, kTx := k, kRx := k
    acq := { g.acq with layouts := if g.acq.layoutsSet then g.acq.layouts else [rxl] }
    load := { g.load with vecTx := defaultVec k (field (cw c 2) 0 4), vecRx := defaultVec k rxl, toDefault := true, curTn := tn + 1 } }
/-- What an accepted ENGINE_PROFILE_SET does: a receiver whose profile or layout changes searches anew, and one whose profile changes
loses its captured data. -/
def profileEffect (c : Cmd) (s : State) : State :=
  let g := s.eng (cIdx c)
  let u := (s.dropAnn (cIdx c)).modEng (cIdx c) (·.profiled c s.tn)
  let v := if g.zr != (cw c 1 == 1) || g.rxLayout != field (cw c 2) 4 4 then u.acqRestart (cIdx c) else u
  if g.zr != (cw c 1 == 1) then v.withdrawCapture (tileOf (cIdx c)) (some (cIdx c)) .config else v
theorem specEngineProfileSet_eff : specEngineProfileSet.eff = .now (fun c s => (profileEffect c s, [])) := rfl
theorem acts_profileEffect (c : Cmd) (s : State) : Acts (cIdx c) profileParts s (profileEffect c s) := by
  refine .trans (.trans (.trans ((acts_dropAnn ..).mono (by decide)) ((acts_modEng ..).mono (by simp))) (acts_ite ?_ (.refl ..)))
    (acts_ite ?_ (.refl ..))
  exacts [(acts_acqRestart ..).mono (by decide), (acts_withdrawCapture ..).mono (by decide)]
theorem profileEffect_coding {c : Cmd} {s : State} (he : cIdx c < 48) :
    ((profileEffect c s).eng (cIdx c)).coding = ((s.eng (cIdx c)).unannounced.profiled c s.tn).coding := by
  have hu : ((s.dropAnn (cIdx c)).modEng (cIdx c) (·.profiled c s.tn)).eng (cIdx c) = (s.eng (cIdx c)).unannounced.profiled c s.tn := by
    rw [State.eng_modEng_same _ _ _ he, State.eng_dropAnn he]
  unfold profileEffect
  dsimp only
  generalize (s.dropAnn (cIdx c)).modEng (cIdx c) (·.profiled c s.tn) = u at *
  rw [apply_ite (fun t : State => (t.eng (cIdx c)).coding), State.eng_withdrawCapture, ite_self,
    apply_ite (fun t : State => (t.eng (cIdx c)).coding), State.acqRestart_coding, ite_self, hu]
/-- The profile, the layouts and the default vectors are the engine's, and nothing is announced. -/
theorem profileSet_does {c : Cmd} {s : State} (h : Ready specEngineProfileSet c s = true) :
    Does 0x100 c [] (.engines :: .tiles :: .dma :: .armed :: .jobs :: eventParts) (fun t => OtherEngines (cIdx c) s t
      ∧ (t.eng (cIdx c)).coding = ((s.eng (cIdx c)).unannounced.profiled c s.tn).coding) s (exec (.engineProfileSet c) s) := by
  have hacts := acts_profileEffect c (s.atParse 0x100 c)
  have hcoding := profileEffect_coding (s := s.atParse 0x100 c) (ready_engine _ _ _ h rfl)
  rw [State.eng_atParse, State.atParse_tn] at hcoding
  have hended := hacts.trans ((acts_final (cIdx c) (ticketNow 0x100 c s) .ok 0 [] (profileEffect c (s.atParse 0x100 c))).mono (by decide))
  refine does_now specEngineProfileSet _ _ _ c s [] h specEngineProfileSet_eff rfl rfl (hacts.tn.trans (State.atParse_tn ..)) ⟨?_, ?_⟩ ?_
  · exact fun j hj => (hended.within.2 j hj).trans (State.eng_atParse ..)
  · rw [State.eng_final]
    exact hcoding
  · exact only_trans answerParts _ s _ _ (only_atParse 0x100 c s) (only_mono hended.within.1 (by decide)) (by decide)

/-! ### The change of capacity at its boundary -/

theorem boundaryEffect_capacity : boundaryEffect 0x101 = applyCapacity := rfl
theorem only_disarm (s : State) : Only [.armed] s (s.modProto (fun p => { p with armed := [] })) :=
  fun p hp => by cases p <;> simp [Part.same] at hp ⊢

/-- Both directions have the capacity and its default vectors, CAPACITY_DONE is told, and the command has ended. -/
theorem capacity_takesEffect {c : Cmd} {s : State} (he : cIdx c < 48) (hcap : (s.eng (cIdx c)).cap ≠ none) :
    TakesEffect 0x101 c (.engines :: .packs :: .tiles :: .dma :: .jobs :: eventParts) (fun t => OtherEngines (cIdx c) s t
      ∧ (t.eng (cIdx c)).coding = { (s.eng (cIdx c)).coding.atCapacity (capacityAt c s) s.tn with cap := none }
      ∧ (capacityAt c s = 0 → (t.eng (cIdx c)).acq.state = .disabled)
      ∧ Raised .capacityDone .engine (cIdx c) (w1 (capacityAt c s)) s.tn t
      ∧ ∀ j ∈ s.proto.jobs, jobOn 0x101 (cIdx c) j = true → Ended j .ok 0 s.tn [] t) s := by
  obtain ⟨hacts, hcoding, hstate, hraised, hended⟩ := applyCapacity_changes (s := s.modProto (fun p => { p with armed := [] })) he hcap
  refine takesEffect_of 0x101 c _ _ _ s boundaryEffect_capacity ⟨hacts.within.2, hcoding, hstate, hraised, hended⟩ ?_
    (hacts.within.1 .armed (by decide)) ?_
    (fun t st d ws v hv => only_final _ s v t st d ws hv (by decide) (by decide) (by decide) (by decide))
  · rintro t st d ws v ⟨hothers, hvcoding, hvstate, hvraised, hvended⟩
    have hfinal := acts_final (cIdx c) t st d ws v
    rw [State.eng_final]
    exact ⟨fun j hj => (hfinal.within.2 j hj).trans (hothers j hj), hvcoding, hvstate, hfinal.told.raised _ _ _ _ _ hvraised,
      fun j hj hj' => (hvended j hj hj').keep hfinal⟩
  · exact only_trans [.armed] _ s _ _ (only_disarm s) (only_mono hacts.within.1 (by decide)) (by decide)

/-! ### The commands that begin -/

theorem loadAnnounce_begins {c : Cmd} {s : State} (h : Ready specEngineLoadAnnounce c s = true) :
    Begins 0x104 c (.engines :: eventParts) (fun t => OtherEngines (cIdx c) s t
      ∧ t.eng (cIdx c) = { (s.eng (cIdx c)).withUserVec (cw c 1) (cmdVec c) with
          load := (s.eng (cIdx c)).load.announcing s.tn (cw c 1) (cmdVec c) .manual none }
      ∧ Raised .loadAnnounced .engine (cIdx c) [] s.tn t) s (exec (.engineLoadAnnounce c) s) := by
  refine begins_long specEngineLoadAnnounce _ _ _ c s h specEngineLoadAnnounce_eff rfl (fun j u hc ht hu hA => ?_)
  obtain ⟨hwithin, htold, hj, hraised, heng⟩ := announceEffect_announces (j := j) (s := u) (ready_engine _ _ _ h rfl)
  have hueng := eng_of_answer hu
  have htn : u.tn = s.tn := hu .tn (by decide)
  rw [hueng, htn] at heng
  exact ⟨⟨fun i hi => (hwithin.2 i hi).trans (hueng i), heng, htn ▸ hraised⟩, begun_at_engine hc ht hu hA hwithin htold hj (by decide)⟩
theorem carries_of_answer {s u : State} (h : Only answerParts s u) (e : Nat) : u.carries e = s.carries e :=
  State.carries_of_same (h .engines (by decide)) (h .cal (by decide)) (h .packs (by decide)) e
theorem capacitySet_announces {c : Cmd} {s : State} (h : Ready specEngineCapacitySet c s = true) (hcarries : s.carries (cIdx c) = true)
    (hcap : (s.eng (cIdx c)).cap = none) :
    Begins 0x101 c (.engines :: eventParts) (fun t => OtherEngines (cIdx c) s t
      ∧ t.eng (cIdx c) = { (s.eng (cIdx c)).changing (cw c 1) with
          load := (s.eng (cIdx c)).load.announcing s.tn (cw c 1) (capVector (s.eng (cIdx c)) (cw c 1)) .capacity none }
      ∧ Raised .loadAnnounced .engine (cIdx c) [] s.tn t) s (exec (.engineCapacitySet c) s) := by
  refine begins_long specEngineCapacitySet _ _ _ c s h specEngineCapacitySet_eff rfl (fun j u hc ht hu hA => ?_)
  have hueng := eng_of_answer hu
  have htn : u.tn = s.tn := hu .tn (by decide)
  obtain ⟨hwithin, htold, hj, hraised, heng⟩ := capacityEffect_announces (j := j) (s := u) (ready_engine _ _ _ h rfl) ht
    ((carries_of_answer hu _).trans hcarries) (by rw [hueng, hcap])
  rw [hueng, htn] at heng
  exact ⟨⟨fun i hi => (hwithin.2 i hi).trans (hueng i), heng, htn ▸ hraised⟩, begun_at_engine hc ht hu hA hwithin htold hj (by decide)⟩
theorem capacitySet_arms {c : Cmd} {s : State} (h : Ready specEngineCapacitySet c s = true) (hcarries : s.carries (cIdx c) = false) :
    Begins 0x101 c [.engines, .armed] (fun t => OtherEngines (cIdx c) s t
      ∧ (t.eng (cIdx c)).cap = ((s.eng (cIdx c)).changing (cw c 1)).cap
      ∧ Pending 0x101 0x101 (s.tn + 1) c t) s (exec (.engineCapacitySet c) s) := by
  refine begins_long specEngineCapacitySet _ _ _ c s h specEngineCapacitySet_eff rfl (fun j u hc ht hu hA => ?_)
  have hueng := eng_of_answer hu
  have htn : u.tn = s.tn := hu .tn (by decide)
  obtain ⟨hwithin, htold, hj, hpending, hcap⟩ := capacityEffect_arms (j := j) (s := u) (ready_engine _ _ _ h rfl) ht
    ((carries_of_answer hu _).trans hcarries)
  rw [hueng] at hcap
  exact ⟨⟨fun i hi => (hwithin.2 i hi).trans (hueng i), hcap, htn ▸ hpending⟩, begun_at_engine hc ht hu hA hwithin htold hj (by decide)⟩

/-- Settles O25: the commands that act at once, those that begin, and the pending change at its boundary, each by what its effect does. -/
theorem loadingCommands : Obligations.LoadingCommands := by
  intro c s
  refine ⟨fun h => does_engine_now specEngineIterCapSet _ _ c s [] h rfl rfl rfl rfl rfl,
    fun h => does_engine_now specEngineLoadSet _ _ c s [] h rfl rfl rfl rfl rfl, fun h => loadAnnounce_begins h,
    fun h hcarries hcap => ?_, fun h hcarries => capacitySet_arms h hcarries, fun k he hcap hk => ?_, fun h => ?_⟩
  · obtain ⟨t, hexec, ⟨hothers, heng, hraised⟩, hbegun⟩ := capacitySet_announces h hcarries hcap
    refine ⟨t, hexec, ⟨hothers, ?_, ?_, ?_, ?_, hraised⟩, hbegun⟩
    all_goals rw [heng]
    exacts [rfl, rfl, rfl, ⟨_, rfl, rfl, rfl, rfl, rfl, rfl, rfl, rfl⟩]
  · obtain rfl : k = capacityAt c s := hk
    intro a harmed hdue hop hcmd
    obtain ⟨t, hexec, ⟨hothers, hcoding, hstate, hraised, hended⟩, hrest⟩ := capacity_takesEffect he hcap a harmed hdue hop hcmd
    exact ⟨t, hexec, ⟨hothers, congrArg Coding.kTx hcoding, congrArg Coding.kRx hcoding, congrArg Coding.cap hcoding,
      congrArg (·.load.vecTx) hcoding, congrArg (·.load.vecRx) hcoding, hstate, hraised,
      fun j hj hop hidx => hended j hj ((jobOn_iff ..).mpr ⟨hop, hidx⟩)⟩, hrest⟩
  · obtain ⟨t, hexec, ⟨hothers, hcoding⟩, hrest⟩ := profileSet_does h
    have hkTx : (t.eng (cIdx c)).kTx = _ := congrArg Coding.kTx hcoding
    refine ⟨t, hexec, ⟨hothers, congrArg Coding.zr hcoding, congrArg Coding.txLayout hcoding, congrArg Coding.rxLayout hcoding, ?_,
      congrArg (·.load.ann) hcoding, ?_⟩, hrest⟩
    · rw [hkTx]
      simp [Engine.coding, Engine.profiled, Engine.unannounced]
    · rw [hkTx]
      exact congrArg (·.load.vecTx) hcoding
end Sys2Proof.Machine
end

section
/-! The transmit settings and the transmit commands that act at once (O11, O12). -/
namespace Sys2Proof.Machine

/-! ### Settings at their boundary -/

/-- What a row that arms a change does at its boundary is the effect that stands in the row. -/
theorem boundaryEffect_of_row {op cls : Nat} {sp : OpSpec} {f : Cmd → State → State} (hrow : opTable op = some sp)
    (heff : sp.eff = .boundary cls f) (hcap : op ≠ 0x101) (hfence : op ≠ 0xA02) : boundaryEffect op = f := by
  simp [boundaryEffect, hrow, heff, hcap, hfence]
/-- A row that arms a change of its engine's transmitter writes that transmitter at its boundary, and nothing else. -/
theorem txChange_of_row {op cls : Nat} {sp : OpSpec} {f : Cmd → State → State} {g : Transmit → Transmit} {c : Cmd} (s : State)
    (hlt : cIdx c < 48) (hrow : opTable op = some sp) (heff : sp.eff = .boundary cls f)
    (hf : ∀ u, f c u = u.modTx (cIdx c) g := by intro u; rfl) (hcap : op ≠ 0x101 := by decide) (hfence : op ≠ 0xA02 := by decide) :
    EngineChange op c (fun x => { x with tx := g x.tx }) s :=
  engineChange_of op f _ c s hlt (boundaryEffect_of_row hrow heff hcap hfence) hf
/-- At its boundary SPECTRAL_MAP_SET writes every entry of the map and its CENTRE_N (R131). -/
theorem spectralMap_takesEffect (c : Cmd) (s : State) :
    TakesEffect 0x109 c [.map, .mapCentre] (fun t => ∀ n : Fin 48, t.map[n] = mapEntry c n ∧ t.mapCentre[n] = mapCentreOf c n) s := by
  refine takesEffect_of 0x109 c applyMap _ _ s (boundaryEffect_of_row opTable_SpectralMapSet rfl (by decide) (by decide))
    (fun n => by simp [applyMap]) (fun t st d ws u hu => by simpa using hu) rfl (fun p hp => ?_)
    (fun t st d ws u hu => only_final _ s u t st d ws hu (by decide) (by decide) (by decide) (by decide))
  cases p <;> simp [applyMap, Part.same, State.tile] at hp ⊢

/-- Settles O11: each command arms its row's change, and the row's effect at its boundary writes one transmitter, or the map. -/
theorem transmitSettingsArmAndTakeEffect : Obligations.TransmitSettingsArmAndTakeEffect := by
  intro c s
  refine ⟨fun h => ?_, fun h => ?_, fun h => ?_, fun h => ?_, fun h => ?_, fun h => ?_, fun h => ?_, fun h => ?_, fun h => ?_,
    fun hlt => ⟨?_, ?_, ?_, ?_, ?_, ?_, ?_, ?_⟩, spectralMap_takesEffect c s⟩
  · exact arms_boundary specEngineSynthSet 0x105 _ c s h rfl rfl
  · exact arms_boundary specEngineTxcorrSet 0x106 _ c s h rfl rfl
  · exact arms_boundary specEnginePreemphSwap 0x108 _ c s h rfl rfl
  · exact arms_boundary specEngineNlcSet 0x10A _ c s h rfl rfl
  · exact arms_boundary specEngineNlcCoefSwap 0x10C _ c s h rfl rfl
  · exact arms_boundary specSpectralMapSet 0x109 _ c s h rfl rfl
  · exact arms_boundary specEngineMuzzle 0x10D _ c s h rfl rfl
  · exact arms_boundary specEngineUnmuzzle 0x10D _ c s h rfl rfl
  · exact arms_boundary specEngineMuzzleCfgSet 0x110 _ c s h rfl rfl
  · exact txChange_of_row s hlt opTable_EngineSynthSet rfl
  · exact txChange_of_row s hlt opTable_EngineTxcorrSet rfl
  · exact txChange_of_row s hlt opTable_EnginePreemphSwap rfl
  · exact txChange_of_row s hlt opTable_EngineNlcSet rfl
  · exact txChange_of_row s hlt opTable_EngineNlcCoefSwap rfl
  · exact txChange_of_row s hlt opTable_EngineMuzzle rfl
  · exact txChange_of_row s hlt opTable_EngineUnmuzzle rfl
  · exact txChange_of_row s hlt opTable_EngineMuzzleCfgSet rfl

/-! ### Commands that act at once -/

/-- Settles O12: two commands change the transmitter of their engine, the third reads it and the map. -/
theorem transmitCommandsActAtOnce : Obligations.TransmitCommandsActAtOnce := by
  intro c s
  refine ⟨fun h => ?_, fun h => ?_, fun h => ?_⟩
  · exact does_engine_now specEnginePreemphLoad _ _ c s [] h rfl rfl rfl rfl rfl
  · exact does_engine_now specEngineMuzzleClear _ _ c s [] h rfl rfl rfl rfl rfl
  · exact reports_now specEngineNbrStatus _ c s _ h rfl rfl rfl (by simp)
end Sys2Proof.Machine
end

section
/-! The end of a ramp (O13): the neighbour statuses, each brought up to date in its turn, and the Muzzle whose ramp has ended. -/
namespace Sys2Proof.Machine

/-! ### Neighbour statuses (R136) -/

/-- The statuses of one direction, receive with `rx`. -/
def Transmit.statuses (t : Transmit) (rx : Bool) : List Nat := if rx then t.nbrRx else t.nbrTx
/-- The transmitter with one status written. -/
def Transmit.setStatus (p new : Nat) (rx : Bool) (t : Transmit) : Transmit :=
  if rx then { t with nbrRx := t.nbrRx.set p new } else { t with nbrTx := t.nbrTx.set p new }
theorem Transmit.statuses_setStatus (p new : Nat) (rx rx' : Bool) (t : Transmit) :
    (t.setStatus p new rx).statuses rx' = if rx = rx' then (t.statuses rx').set p new else t.statuses rx' := by
  cases rx <;> cases rx' <;> rfl
/-- The engine with other neighbour statuses. -/
def Engine.withStatuses (g : Engine) (tx rx : List Nat) : Engine := { g with tx := { g.tx with nbrTx := tx, nbrRx := rx } }
theorem Engine.withStatuses_setStatus (g : Engine) (p new : Nat) (rx : Bool) (a b : List Nat) :
    Engine.withStatuses { g with tx := g.tx.setStatus p new rx } a b = g.withStatuses a b := by
  cases rx <;> rfl

/-- The status of an engine at a position is the one that applies. -/
abbrev State.UpToDate (s : State) (a p : Nat) (rx : Bool) : Prop := ((s.eng a).tx.statuses rx).getD p 1 = nbrStatus s a p rx
theorem State.UpToDate.nbrTx {s : State} {a p : Nat} (h : s.UpToDate a p false) :
    (s.eng a).tx.nbrTx.getD p 1 = nbrStatus s a p false := h
theorem State.UpToDate.nbrRx {s : State} {a p : Nat} (h : s.UpToDate a p true) :
    (s.eng a).tx.nbrRx.getD p 1 = nbrStatus s a p true := h
/-- A status takes the code that applies, and NBR_CHANGE tells it. -/
def State.nbrChange (a p : Nat) (rx : Bool) (s : State) : State :=
  (s.modTx a (Transmit.setStatus p (nbrStatus s a p rx) rx)).raise .nbrChange .engine a
    (w1 p ++ w1 (b2n rx) ++ w1 (((s.eng a).tx.statuses rx).getD p 1) ++ w1 (nbrStatus s a p rx) ++ w2 s.tn)
/-- A status is brought up to date. -/
def State.nbrUpdate (a p : Nat) (rx : Bool) (s : State) : State := if s.UpToDate a p rx then s else s.nbrChange a p rx
/-- Every status that is kept, in the order in which they are brought up to date: engine, position, direction. -/
def nbrPlaces : List (Nat × Nat × Bool) :=
  (List.range 48).flatMap (fun a => (List.range 4).flatMap (fun p => [false, true].map (fun rx => (a, p, rx))))
theorem mem_nbrPlaces {a p : Nat} (rx : Bool) (ha : a < 48) (hp : p < 4) : (a, p, rx) ∈ nbrPlaces :=
  List.mem_flatMap.mpr ⟨a, List.mem_range.mpr ha, List.mem_flatMap.mpr ⟨p, List.mem_range.mpr hp, by cases rx <;> simp⟩⟩
theorem State.nbrAll_eq (s : State) : s.nbrAll = nbrPlaces.foldl (fun s x => s.nbrUpdate x.1 x.2.1 x.2.2) s := by
  simp only [nbrPlaces, List.foldl_flatMap, List.foldl_map]
  rfl

/-- Only neighbour statuses and what telling of them touches differ; what was told stays told, and no status is lost. -/
structure StatusesOnly (s t : State) : Prop where
  only : Only (.engines :: eventParts) s t
  told : KeepsTold s t
  engines : ∀ j, (t.eng j).withStatuses [] [] = (s.eng j).withStatuses [] []
  lengths : ∀ j rx, ((t.eng j).tx.statuses rx).length = ((s.eng j).tx.statuses rx).length
theorem StatusesOnly.refl (s : State) : StatusesOnly s s := ⟨(Within.refl 0 eventParts s).1, .refl s, fun _ => rfl, fun _ _ => rfl⟩
theorem StatusesOnly.trans {s u t : State} (h : StatusesOnly s u) (h' : StatusesOnly u t) : StatusesOnly s t where
  only := only_trans _ _ s u t h.only h'.only (fun _ hp => hp)
  told := h.told.trans h'.told
  engines j := (h'.engines j).trans (h.engines j)
  lengths j rx := (h'.lengths j rx).trans (h.lengths j rx)
theorem StatusesOnly.eng {s t : State} (h : StatusesOnly s t) (j : Nat) :
    t.eng j = (s.eng j).withStatuses (t.eng j).tx.nbrTx (t.eng j).tx.nbrRx :=
  calc t.eng j = ((t.eng j).withStatuses [] []).withStatuses (t.eng j).tx.nbrTx (t.eng j).tx.nbrRx := rfl
    _ = _ := by rw [h.engines j]; rfl
theorem StatusesOnly.muzzle {s t : State} (h : StatusesOnly s t) (j : Nat) : (t.eng j).tx.muzzle = (s.eng j).tx.muzzle
    ∧ (t.eng j).tx.amp = (s.eng j).tx.amp ∧ (t.eng j).tx.reason = (s.eng j).tx.reason := by
  rw [h.eng j]
  exact ⟨rfl, rfl, rfl⟩
/-- No status decides another: a step that touches only statuses leaves what applies. -/
theorem StatusesOnly.nbrStatus_eq {s t : State} (h : StatusesOnly s t) (a p : Nat) (rx : Bool) : nbrStatus t a p rx = nbrStatus s a p rx := by
  have hmap : t.map = s.map := h.only .map (by decide)
  have hfenced (n : Nat) : t.fenced n = s.fenced n := (congrArg Tile.fenced (h.only .tiles (by decide) (tileOf n)) :)
  unfold nbrStatus
  rw [hmap]
  split
  · rfl
  · next n _ =>
    rw [h.eng a, h.eng n, hfenced]
    rfl

theorem acts_nbrChange (a p : Nat) (rx : Bool) (s : State) : Acts a eventParts s (s.nbrChange a p rx) :=
  ((acts_modEng ..).mono (by simp)).trans (acts_raise ..)
theorem State.eng_nbrChange (a p : Nat) (rx : Bool) (j : Nat) (s : State) :
    (s.nbrChange a p rx).eng j = (s.modTx a (Transmit.setStatus p (nbrStatus s a p rx) rx)).eng j := State.eng_raise ..
theorem statusesOnly_nbrChange (a p : Nat) (rx : Bool) (s : State) : StatusesOnly s (s.nbrChange a p rx) where
  only := (acts_nbrChange a p rx s).within.1
  told := (acts_nbrChange a p rx s).told
  engines j := by
    rw [State.eng_nbrChange]
    exact State.eng_modEng_of (·.withStatuses [] []) a _ s j (fun g => g.withStatuses_setStatus ..)
  lengths j rx' := by
    rw [State.eng_nbrChange]
    refine State.eng_modEng_of (fun g => (g.tx.statuses rx').length) a _ s j (fun g => ?_)
    rw [Transmit.statuses_setStatus, apply_ite List.length, List.length_set, ite_self]
/-- The status that changes is up to date afterwards. -/
theorem upToDate_nbrChange {a p : Nat} {rx : Bool} {s : State} (ha : a < 48) (hp : p < ((s.eng a).tx.statuses rx).length) :
    (s.nbrChange a p rx).UpToDate a p rx := by
  rw [State.UpToDate, (statusesOnly_nbrChange a p rx s).nbrStatus_eq, State.eng_nbrChange, State.modTx, State.eng_modEng_same _ _ _ ha,
    Transmit.statuses_setStatus, if_pos rfl]
  simp [hp]
/-- The change of one status leaves every other. -/
theorem State.status_nbrChange_ne {a p b q : Nat} {rx r : Bool} (h : (b, q, r) ≠ (a, p, rx)) (s : State) :
    (((s.nbrChange b q r).eng a).tx.statuses rx).getD p 1 = ((s.eng a).tx.statuses rx).getD p 1 := by
  rw [State.eng_nbrChange]
  by_cases hab : a = b
  · refine State.eng_modEng_of (fun g => (g.tx.statuses rx).getD p 1) b _ s a (fun g => ?_)
    rw [Transmit.statuses_setStatus]
    split
    · next hr =>
      have hqp : q ≠ p := fun hq => h (by rw [hab, hq, hr])
      simp [List.getElem?_set_ne hqp]
    · rfl
  · rw [State.modTx, State.eng_modEng_ne _ _ _ _ hab]

theorem statusesOnly_nbrUpdate (a p : Nat) (rx : Bool) (s : State) : StatusesOnly s (s.nbrUpdate a p rx) := by
  unfold State.nbrUpdate
  split
  exacts [.refl s, statusesOnly_nbrChange a p rx s]
theorem upToDate_nbrUpdate {a p : Nat} {rx : Bool} {s : State} (ha : a < 48) (hp : p < ((s.eng a).tx.statuses rx).length) :
    (s.nbrUpdate a p rx).UpToDate a p rx := by
  unfold State.nbrUpdate
  split
  · assumption
  · exact upToDate_nbrChange ha hp
/-- What is up to date stays so: an update writes only a status that is not, and none that it does not write turns stale. -/
theorem State.UpToDate.nbrUpdate {a p : Nat} {rx : Bool} {s : State} (h : s.UpToDate a p rx) (b q : Nat) (r : Bool) :
    (s.nbrUpdate b q r).UpToDate a p rx := by
  unfold State.nbrUpdate
  split
  · exact h
  · next hstale =>
    have hne : (b, q, r) ≠ (a, p, rx) := by
      rintro ⟨⟩
      exact hstale h
    rw [State.UpToDate, State.status_nbrChange_ne hne, (statusesOnly_nbrChange b q r s).nbrStatus_eq]
    exact h
theorem statusesOnly_nbrAll (s : State) : StatusesOnly s s.nbrAll := by
  rw [State.nbrAll_eq]
  exact List.foldlRecOn _ _ (.refl s) (fun _ hu _ _ => hu.trans (statusesOnly_nbrUpdate ..))
/-- Afterwards every status that an engine keeps is the one that applies. -/
theorem upToDate_nbrAll {a p : Nat} {rx : Bool} {s : State} (ha : a < 48) (hp : p < 4) (hlen : ((s.eng a).tx.statuses rx).length = 4) :
    s.nbrAll.UpToDate a p rx := by
  have hkept := (statusesOnly_nbrAll s).lengths a rx
  rw [State.nbrAll_eq] at hkept ⊢
  refine foldl_establishes (b := (a, p, rx)) (P := fun u => ((u.eng a).tx.statuses rx).length = 4 → u.UpToDate a p rx)
    (fun u x hu hlen => ?_) (fun u hlen => ?_) nbrPlaces s (mem_nbrPlaces rx ha hp) (hkept.trans hlen)
  all_goals rw [(statusesOnly_nbrUpdate ..).lengths] at hlen
  · exact (hu hlen).nbrUpdate ..
  · exact upToDate_nbrUpdate ha (hlen ▸ hp)

/-! ### The end of a ramp (R144, R146) -/

theorem acts_feSquelch (e : Nat) (assert : Bool) (s : State) : Acts e [] s (s.feSquelch e assert) := by
  unfold State.feSquelch
  split
  exacts [acts_modEng .., .refl ..]
theorem State.feSquelch_tx (e : Nat) (assert : Bool) (j : Nat) (s : State) : ((s.feSquelch e assert).eng j).tx = (s.eng j).tx := by
  unfold State.feSquelch
  split
  exacts [State.eng_modEng_of (·.tx) .., rfl]
/-- The Muzzle has moved, and MUZZLE_CHANGE has told it. -/
def State.muzzleMoved (e : Nat) (m : Muzzle) (amp : Rat) (s : State) : State :=
  (s.modTx e (fun t => { t with muzzle := m, amp := amp })).raise .muzzleChange .engine e
    (w1 (s.eng e).tx.muzzle.code ++ w1 m.code ++ w1 (s.eng e).tx.reason.code ++ w2 s.tn)
theorem acts_muzzleMoved (e : Nat) (m : Muzzle) (amp : Rat) (s : State) : Acts e eventParts s (s.muzzleMoved e m amp) :=
  ((acts_modEng ..).mono (by simp)).trans (acts_raise ..)
theorem raised_muzzleMoved (e : Nat) (m : Muzzle) (amp : Rat) (s : State) :
    Raised .muzzleChange .engine e (w1 (s.eng e).tx.muzzle.code ++ w1 m.code ++ w1 (s.eng e).tx.reason.code ++ w2 s.tn) s.tn
      (s.muzzleMoved e m amp) := raised_raise_tn rfl
theorem State.muzzleMoved_tx {e : Nat} (he : e < 48) (m : Muzzle) (amp : Rat) (s : State) :
    ((s.muzzleMoved e m amp).eng e).tx = { (s.eng e).tx with muzzle := m, amp := amp } := by
  rw [State.muzzleMoved, State.eng_raise, State.modTx, State.eng_modEng_same _ _ _ he]
/-- From a ramp the Muzzle moves and, where it closes, the front end is squelched; no announcement is aborted and no vector is put back. -/
theorem State.muzzleTo_of_ramp {e : Nat} {a m : Muzzle} (amp : Rat) {s : State} (hold : (s.eng e).tx.muzzle = a)
    (hramp : a = .rampUp ∨ a = .rampDown) (hm : a ≠ m) :
    s.muzzleTo e m amp = if m = .muzzled then (s.muzzleMoved e m amp).feSquelch e true else s.muzzleMoved e m amp := by
  have hopen : a ≠ .unmuzzled := by rcases hramp with rfl | rfl <;> decide
  have hclosed : a ≠ .muzzled := by rcases hramp with rfl | rfl <;> decide
  simp [State.muzzleTo, State.muzzleMoved, State.modTx, hold, hm, hopen, hclosed]
/-- What the end of a ramp does to its engine's transmitter, and that it is told. -/
theorem muzzleTo_endsRamp {e : Nat} (he : e < 48) {a m : Muzzle} (amp : Rat) {s : State} (hold : (s.eng e).tx.muzzle = a)
    (hramp : a = .rampUp ∨ a = .rampDown) (hm : a ≠ m) :
    Acts e eventParts s (s.muzzleTo e m amp) ∧ ((s.muzzleTo e m amp).eng e).tx = { (s.eng e).tx with muzzle := m, amp := amp }
    ∧ Raised .muzzleChange .engine e (w1 a.code ++ w1 m.code ++ w1 (s.eng e).tx.reason.code ++ w2 s.tn) s.tn (s.muzzleTo e m amp) := by
  have hmoved := acts_muzzleMoved e m amp s
  have htx := State.muzzleMoved_tx he m amp s
  have hraised := raised_muzzleMoved e m amp s
  rw [hold] at hraised
  rw [State.muzzleTo_of_ramp amp hold hramp hm]
  split
  · have hsquelch := acts_feSquelch e true (s.muzzleMoved e m amp)
    exact ⟨hmoved.trans (hsquelch.mono (by simp)), (State.feSquelch_tx ..).trans htx, hsquelch.told.raised _ _ _ _ _ hraised⟩
  · exact ⟨hmoved, htx, hraised⟩

theorem exec_muzzleRampEnd (e : Fin 48) (s : State) : exec (.muzzleRampEnd e) s = execMuzzleRampEnd e s := rfl
theorem execMuzzleRampEnd_up {e : Fin 48} {s : State} (hm : (s.eng e).tx.muzzle = .rampUp) (hamp : (s.eng e).tx.amp = 1) :
    execMuzzleRampEnd e s = .next (s.muzzleTo e .unmuzzled 1).nbrAll := by
  simp [execMuzzleRampEnd, hm, hamp]
theorem execMuzzleRampEnd_down {e : Fin 48} {s : State} (hm : (s.eng e).tx.muzzle = .rampDown) (hamp : (s.eng e).tx.amp = 0) :
    execMuzzleRampEnd e s = .next (s.muzzleTo e .muzzled 0).nbrAll := by
  simp [execMuzzleRampEnd, hm, hamp]
theorem execMuzzleRampEnd_idle {e : Fin 48} {s : State} (hup : (s.eng e).tx.muzzle = .rampUp → (s.eng e).tx.amp ≠ 1)
    (hdown : (s.eng e).tx.muzzle = .rampDown → (s.eng e).tx.amp ≠ 0) : execMuzzleRampEnd e s = .next s := by
  rw [execMuzzleRampEnd, if_neg (by simpa using hup), if_neg (by simpa using hdown)]

/-- Settles O13: the Muzzle moves from its ramp to its end, and then every neighbour status is brought up to date. -/
theorem muzzleRampEndEndsTheRamp : Obligations.MuzzleRampEndEndsTheRamp := by
  intro e s ends
  have hends {a b : Muzzle} {amp : Rat} (hold : (s.eng e).tx.muzzle = a) (hramp : a = .rampUp ∨ a = .rampDown) (hab : a ≠ b)
      (hexec : execMuzzleRampEnd e s = .next (s.muzzleTo e b amp).nbrAll) : ends a b amp := by
    obtain ⟨hacts, htx, hraised⟩ := muzzleTo_endsRamp e.isLt amp hold hramp hab
    have hnbr := statusesOnly_nbrAll (s.muzzleTo e b amp)
    obtain ⟨hmuzzle, hamp, hreason⟩ := hnbr.muzzle e
    rw [htx] at hmuzzle hamp hreason
    have hstatuses (j : Nat) (rx : Bool) : ((s.muzzleTo e b amp).eng j).tx.statuses rx = (s.eng j).tx.statuses rx := by
      by_cases hj : j = e
      · rw [hj, htx]
        rfl
      · rw [hacts.within.2 j hj]
    refine ⟨_, (exec_muzzleRampEnd e s).trans hexec, ⟨hmuzzle, hamp, hreason, hnbr.told.raised _ _ _ _ _ hraised,
      fun j p hp => ⟨fun hlen => ?_, fun hlen => ?_⟩, fun j hj => ?_⟩, only_trans _ _ _ _ _ hacts.within.1 hnbr.only (fun _ hp => hp)⟩
    · exact (upToDate_nbrAll j.isLt hp ((congrArg List.length (hstatuses j false)).trans hlen)).nbrTx
    · exact (upToDate_nbrAll j.isLt hp ((congrArg List.length (hstatuses j true)).trans hlen)).nbrRx
    · rw [← hacts.within.2 j hj]
      exact hnbr.eng j
  exact ⟨fun hm hamp => hends hm (.inl rfl) (by decide) (execMuzzleRampEnd_up hm hamp),
    fun hm hamp => hends hm (.inr rfl) (by decide) (execMuzzleRampEnd_down hm hamp),
    fun hup hdown => (exec_muzzleRampEnd e s).trans (execMuzzleRampEnd_idle hup hdown)⟩
end Sys2Proof.Machine
end

section
/-! The acquisition commands (O14). -/
namespace Sys2Proof.Machine

/-! ### Commands that arm a change and act on their acceptance -/

/-- A row that arms a change: with a TN the command is answered ACCEPTED and its ticket waits, without one it is answered FINAL. -/
theorem carryOut_boundary {sp : OpSpec} {cls : Nat} {f : Cmd → State → State} (he : sp.eff = .boundary cls f) (c : Cmd) (t : Ticket)
    (s : State) :
    ∃ ticket, carryOut sp c t s = ((sp.onAccept c s).arm { due := c.tn.getD ((sp.onAccept c s).tn + 1), key := keyOf cls c, opcode := sp.code
                                                           cmd := c, ticket := ticket }).respond t c.tn.isNone .ok 0 (sp.onAccept c s).tn [] := by
  simp only [carryOut, he]
  cases c.tn with
  | some due => exact ⟨some t, rfl⟩
  | none => exact ⟨none, by rw [State.final, State.arm_tn]; rfl⟩
theorem eng_of_only {l : List Part} {s t : State} (h : Only l s t) (hl : Part.engines ∉ l) (j : Nat) : t.eng j = s.eng j := by
  have hengines : t.engines = s.engines := h .engines hl
  simp only [State.eng, hengines]
theorem only_arm_respond (a : Armed) (t : Ticket) (fin : Bool) (st : Status) (d tn : Nat) (ws : List Word) (s : State) :
    Only (.armed :: finalParts) s ((s.arm a).respond t fin st d tn ws) :=
  fun p hp => by cases p <;> simp [finalParts, Part.same] at hp ⊢
/-- A command that arms its change once its acceptance has led to `v`. -/
theorem armsAnd_boundary {sp : OpSpec} {cls : Nat} {f : Cmd → State → State} {parts : List Part} {P : State → Prop} {c : Cmd} {s v : State}
    (h : Ready sp c s = true) (he : sp.eff = .boundary cls f) (hv : sp.onAccept c (s.atParse sp.code c) = v)
    (ho : Only (parts ++ answerParts) s v) (htn : v.tn = s.tn) (harmed : v.proto.armed = s.proto.armed)
    (hP : ∀ t, Only (.armed :: finalParts) v t → P t) : ArmsAnd cls sp.code c parts P s (runOp sp c s) := by
  obtain ⟨ticket, hcarry⟩ := carryOut_boundary he c (ticketNow sp.code c s) (s.atParse sp.code c)
  rw [hv, htn] at hcarry
  generalize ha : ({ due := c.tn.getD (s.tn + 1), key := keyOf cls c, opcode := sp.code, cmd := c, ticket := ticket } : Armed) = a at hcarry
  have hlist : ((v.arm a).respond (ticketNow sp.code c s) c.tn.isNone .ok 0 s.tn []).proto.armed
      = s.proto.armed.filter (fun b => !(b.key == keyOf cls c)) ++ [a] := by
    rw [State.respond_proto_armed, arm_armed, harmed, ← ha]
  have honly := only_arm_respond a (ticketNow sp.code c s) c.tn.isNone .ok 0 s.tn [] v
  refine ⟨_, (runOp_ready sp c s h).trans (congrArg _ hcarry), hP _ honly, ⟨a, ?_, by simp [← ha]⟩, fun b hb hkey => ?_,
    fun b hb hkey => ?_, answered_respond .., fun p hp => Part.same_trans p _ _ _ (ho p ?_) (honly p ?_)⟩
  · exact hlist ▸ List.mem_append_right _ (List.mem_singleton.mpr rfl)
  · rw [hlist, List.mem_append, List.mem_filter, List.mem_singleton] at hb
    rcases hb with ⟨-, hb⟩ | rfl
    · simp [hkey] at hb
    · rw [← ha]
  · rw [hlist, List.mem_append, List.mem_filter]
    exact .inl ⟨hb, by simp [hkey]⟩
  · simp only [List.mem_append, List.mem_cons, not_or] at hp ⊢
    exact ⟨hp.1, hp.2.2⟩
  · simp only [List.mem_append, List.mem_cons, not_or, answerParts, finalParts] at hp ⊢
    tauto

/-! ### ENGINE_ACQ_SET (R153, R156) -/

theorem acqSet_arms {c : Cmd} {s : State} (h : Ready specEngineAcqSet c s = true) :
    ArmsAnd 0x111 0x111 c [.engines] (fun t =>
      t.eng (cIdx c) = { s.eng (cIdx c) with acq := { (s.eng (cIdx c)).acq with layoutsNext := some (acqLayoutsOf (cw c 2)) } }
      ∧ OtherEngines (cIdx c) s t) s (exec (.engineAcqSet c) s) := by
  have hlt := ready_engine _ _ _ h rfl
  have hwaits := within_modEng (cIdx c) (fun g => { g with acq := { g.acq with layoutsNext := some (acqLayoutsOf (cw c 2)) } })
    (s.atParse 0x111 c)
  refine armsAnd_boundary (sp := specEngineAcqSet) h rfl rfl
    (only_trans _ _ _ _ _ (only_atParse 0x111 c s) (only_mono hwaits.1 (by decide)) (by decide))
    ((hwaits.1 .tn (by decide)).trans (State.atParse_tn ..)) ((hwaits.1 .armed (by decide)).trans (State.atParse_proto_armed ..))
    (fun t ht => ⟨?_, fun j hj => ?_⟩)
  · refine ((eng_of_only ht (by decide) _).trans (State.eng_modEng_same _ _ _ hlt)).trans ?_
    rw [State.eng_atParse]
  · exact (eng_of_only ht (by decide) j).trans ((hwaits.2 j hj).trans (State.eng_atParse ..))

/-! ### ENGINE_ACQ_RESTART (Table 5.4, last row) -/

/-- A new search pass keeps LOF and the input power's LOS. -/
theorem State.startPass_lof (e j : Nat) (s : State) : ((s.startPass e).eng j).acq.lof = (s.eng j).acq.lof := by
  refine (State.eng_modEng_of (·.acq.lof) ..).trans ((State.eng_modEng_of (·.acq.lof) ..).trans
    ((State.eng_modEng_of (·.acq.lof) ..).trans ?_))
  simp
theorem State.startPass_state {e : Nat} (he : e < 48) (s : State) : ((s.startPass e).eng e).acq.state = .search := by
  unfold State.startPass
  rw [State.eng_modEng_same _ _ _ he]
theorem State.alignRelease_lof {e : Nat} (he : e < 48) (next : AcqState) (s : State) : ((s.alignRelease e next).eng e).acq.lof = true := by
  unfold State.alignRelease
  rw [State.eng_modEng_same _ _ _ he]
/-- An engine that is released and searches anew is in SEARCH with LOF set. -/
theorem State.released_searches {e : Nat} (he : e < 48) (next : AcqState) (s : State) :
    (((s.alignRelease e next).startPass e).eng e).acq.state = .search ∧ (((s.alignRelease e next).startPass e).eng e).acq.lof = true :=
  ⟨State.startPass_state he _, (State.startPass_lof ..).trans (State.alignRelease_lof he ..)⟩
theorem State.acqRestart_searches {e : Nat} (he : e < 48) {s : State} (hon : (s.eng e).acq.state ≠ .disabled)
    (hsignal : (s.eng e).acq.state ≠ .noSignal) :
    ((s.acqRestart e).eng e).acq.state = .search ∧ ((s.acqRestart e).eng e).acq.lof = true := by
  unfold State.acqRestart
  rw [if_neg (by simp [hon, hsignal])]
  exact State.released_searches he ..
theorem acqRestart_does {c : Cmd} {s : State} (h : Ready specEngineAcqRestart c s = true) (hon : (s.eng (cIdx c)).acq.state ≠ .disabled)
    (hsignal : (s.eng (cIdx c)).acq.state ≠ .noSignal) :
    Does 0x112 c [] (.engines :: .armed :: .jobs :: eventParts) (fun t => (t.eng (cIdx c)).acq.state = .search
      ∧ (t.eng (cIdx c)).acq.lof = true ∧ OtherEngines (cIdx c) s t) s (exec (.engineAcqRestart c) s) := by
  have hacts := acts_acqRestart (cIdx c) (s.atParse 0x112 c)
  obtain ⟨hstate, hlof⟩ := State.acqRestart_searches (s := s.atParse 0x112 c) (ready_engine _ _ _ h rfl) (by simpa using hon)
    (by simpa using hsignal)
  have hended := hacts.trans ((acts_final (cIdx c) (ticketNow 0x112 c s) .ok 0 [] ((s.atParse 0x112 c).acqRestart (cIdx c))).mono (by decide))
  refine does_now specEngineAcqRestart _ _ _ c s [] h rfl rfl rfl (hacts.tn.trans (State.atParse_tn ..)) ⟨?_, ?_, fun j hj => ?_⟩ ?_
  · exact (congrArg (·.acq.state) (State.eng_final ..)).trans hstate
  · exact (congrArg (·.acq.lof) (State.eng_final ..)).trans hlof
  · exact (hended.within.2 j hj).trans (State.eng_atParse ..)
  · exact only_trans answerParts _ s _ _ (only_atParse 0x112 c s) (only_mono hended.within.1 (by decide)) (by decide)

/-- Settles O14: the setting that waits on its acceptance and arms, the one that waits for an instant, the restart, and the record. -/
theorem acquisitionCommands : Obligations.AcquisitionCommands := by
  intro c s
  refine ⟨acqSet_arms, fun hlt => ?_, fun h => ?_, fun h => ?_, acqRestart_does⟩
  · exact engineChange_of 0x111 _ _ c s hlt (boundaryEffect_of_row opTable_EngineAcqSet rfl (by decide) (by decide)) (fun _ => rfl)
  · exact does_engine_now specEngineLeashSet _ _ c s [] h rfl rfl rfl rfl rfl
  · exact reports_now specEngineAcqStatus _ c s _ h rfl rfl rfl (by simp)
end Sys2Proof.Machine
end

section
/-! The transitions of the alignment (O15): what each step of acquisition does to its engine, and what it touches. -/
namespace Sys2Proof.Machine

/-! ### The acquisition state of an engine -/

theorem State.modAcq_acq {e : Nat} (he : e < 48) (f : Acquisition → Acquisition) (s : State) :
    ((s.modAcq e f).eng e).acq = f (s.eng e).acq := by
  rw [State.modAcq, State.eng_modEng_same _ _ _ he]
theorem acts_modAcq (e : Nat) (f : Acquisition → Acquisition) (s : State) : Acts e [] s (s.modAcq e f) := acts_modEng ..
/-- What has been counted stays counted where a step leaves the happenings of the tick. -/
theorem Counted.keep {x : Ctr} {k : Kind} {i n e : Nat} {l : List Part} {s t : State} (h : Counted x k i n s) (ht : Acts e l s t)
    (hl : Part.happened ∉ Part.engines :: l) : Counted x k i n t := by
  rw [Counted, (ht.within.1 .happened hl).1]
  exact h

/-! ### Input power (R158, R164) -/

/-- What the end of a search, or a new search pass, touches: the CD swap and the CD load that it answers. No event is told. -/
def passParts : List Part := .armed :: .jobs :: finalParts
theorem acts_droppedSwap (e : Nat) (s : State) : Acts e passParts s (s.dropCdSwap e) :=
  (((acts_cancelArmed ..).mono (by decide)).trans ((acts_finishJobs ..).mono (by decide))).trans ((acts_modEng ..).mono (by simp))
theorem acts_newPass (e : Nat) (s : State) : Acts e passParts s (s.startPass e) :=
  ((acts_droppedSwap ..).trans ((acts_modEng ..).mono (by simp))).trans ((acts_modEng ..).mono (by simp))
/-- What a search keeps of its engine when it ends or starts anew: LOS and the CD banks. -/
structure Searching where
  los : Bool
  active : CdBank
  shadow : Option CdBank
def Engine.searching (g : Engine) : Searching := { los := g.losIn, active := g.eq.cdActive, shadow := g.eq.cdShadow }
theorem State.dropCdSwap_searching (e j : Nat) (s : State) : ((s.dropCdSwap e).eng j).searching = (s.eng j).searching := by
  refine (State.eng_modEng_of Engine.searching ..).trans ?_
  simp
theorem State.startPass_searching (e j : Nat) (s : State) : ((s.startPass e).eng j).searching = (s.eng j).searching :=
  (State.eng_modEng_of Engine.searching ..).trans ((State.eng_modEng_of Engine.searching ..).trans (State.dropCdSwap_searching ..))
/-- The engine's input power and LOS as a qualification finds them. -/
def State.powerSeen (e : Nat) (powers : List Int) (los : Bool) (s : State) : State :=
  (s.modEng e (fun g => { g with inPower := powers.getLastD g.inPower })).modEng e (fun g => { g with losIn := los })
theorem acts_powerSeen (e : Nat) (powers : List Int) (los : Bool) (s : State) : Acts e [] s (s.powerSeen e powers los) :=
  (acts_modEng ..).trans (acts_modEng ..)
theorem State.powerSeen_los {e : Nat} (he : e < 48) (powers : List Int) (los : Bool) (s : State) :
    ((s.powerSeen e powers los).eng e).losIn = los := by
  rw [State.powerSeen, State.eng_modEng_same _ _ _ he]
theorem exec_powerQualification_above {e : Fin 48} {powers : List Int} {s : State} (hlen : powers.length = 16)
    (hall : ∀ p ∈ powers, (s.eng e).acq.minPower ≤ p) (hstate : (s.eng e).acq.state = .noSignal) :
    exec (.powerQualification e powers) s = .next (((s.powerSeen e powers false).searchClock e).startPass e) := by
  have hexec : exec (.powerQualification e powers) s = execPowerQualification e powers s := rfl
  have hpass : powers.all (fun p => decide ((s.eng e).acq.minPower ≤ p)) = true := by simpa using hall
  rw [hexec, execPowerQualification]
  simp [hlen, hpass, hstate, State.powerSeen]
theorem exec_powerQualification_below {e : Fin 48} {powers : List Int} {s : State} (hlen : powers.length = 16)
    (hall : ∀ p ∈ powers, p < (s.eng e).acq.minPower) (hstate : (s.eng e).acq.state = .search ∨ (s.eng e).acq.state = .confirm) :
    exec (.powerQualification e powers) s =
      .next (((s.powerSeen e powers true).dropCdSwap e).modAcq e (fun a => { a with state := .noSignal, noSyncRaised := false })) := by
  have hexec : exec (.powerQualification e powers) s = execPowerQualification e powers s := rfl
  have hbelow : powers.all (fun p => decide (p < (s.eng e).acq.minPower)) = true := by simpa using hall
  have hnot : powers.all (fun p => decide ((s.eng e).acq.minPower ≤ p)) = false := by
    obtain ⟨p, hp⟩ := List.exists_mem_of_length_pos (hlen ▸ Nat.succ_pos 15 : 0 < powers.length)
    exact List.all_eq_false.mpr ⟨p, hp, by simpa using hall p hp⟩
  rw [hexec, execPowerQualification]
  rcases hstate with hstate | hstate <;> simp [hlen, hnot, hbelow, hstate, State.powerSeen]

/-! ### The dispersion of a pass (R182) -/

/-- The dispersion that a pass scanned is in the active bank, and the shadow bank is empty (R182). -/
def ScanLoaded (e : Nat) (cd : Int) (s t : State) : Prop :=
  (t.eng e).eq.cdActive = { d := scanClip (s.eng e).eq.scanCentre (s.eng e).eq.scanSpan cd, centreN := s.slotCentre e }
    ∧ (t.eng e).eq.cdShadow = none
theorem acts_loadScan (e : Nat) (cd : Int) (s : State) : Acts e [] s (s.loadScan e cd) := acts_modEng ..
theorem State.loadScan_acq (e : Nat) (cd : Int) (j : Nat) (s : State) : ((s.loadScan e cd).eng j).acq = (s.eng j).acq :=
  State.eng_modEng_of (·.acq) ..
theorem loadScan_loads {e : Nat} (he : e < 48) (cd : Int) (s : State) : ScanLoaded e cd s (s.loadScan e cd) := by
  unfold State.loadScan State.modEq ScanLoaded
  rw [State.eng_modEng_same _ _ _ he]
  exact ⟨rfl, rfl⟩
theorem ScanLoaded.keep {e : Nat} {cd : Int} {s t u : State} (h : ScanLoaded e cd s t)
    (ht : (u.eng e).searching = (t.eng e).searching) : ScanLoaded e cd s u :=
  ⟨(congrArg Searching.active ht).trans h.1, (congrArg Searching.shadow ht).trans h.2⟩
theorem ScanLoaded.of_same {e : Nat} {cd : Int} {s t u : State} (h : ScanLoaded e cd u t) (heq : (u.eng e).eq = (s.eng e).eq)
    (hcentre : u.slotCentre e = s.slotCentre e) : ScanLoaded e cd s t := by
  rwa [ScanLoaded, heq, hcentre] at h

/-! ### Search and its candidates (R157, R161, R164) -/

theorem State.candidate_acq {e : Nat} (he : e < 48) (m : SyncMeas) (s : State) :
    ((s.candidate e m).eng e).acq = { (s.eng e).acq with
      record := SyncMeas.latch (s.eng e).zr m s.tn, held := SyncMeas.latch (s.eng e).zr m s.tn, coarseFo := m.coarseFo
      position := m.position } := by
  rw [State.candidate, State.eng_modEng_same _ _ _ he]
theorem acts_candidate (e : Nat) (m : SyncMeas) (s : State) : Acts e [] s (s.candidate e m) := acts_modEng ..
theorem exec_searchSyncFound {e : Fin 48} {found : List SyncMeas} {cd : Int} {m : SyncMeas} {s : State} (hstate : (s.eng e).acq.state = .search)
    (hm : (s.eng e).bestCandidate found = some m) :
    exec (.searchSyncFound e found cd) s =
      .next ((((s.candidate e m).modAcq e (fun a => { a with state := .confirm })).loadScan e cd).count .syncCandidates .engine e 1) := by
  have hexec : exec (.searchSyncFound e found cd) s = execSearchSyncFound e found cd s := rfl
  rw [hexec, execSearchSyncFound]
  simp [hstate, hm]
/-- The best good candidate enters CONFIRM with its record, and the dispersion scanned is loaded. -/
theorem searchSyncFound_confirms {e : Fin 48} {found : List SyncMeas} {cd : Int} {m : SyncMeas} {s : State}
    (hstate : (s.eng e).acq.state = .search) (hm : (s.eng e).bestCandidate found = some m) :
    AtEngine e [.happened] (fun t => (t.eng e).acq.state = .confirm ∧ (t.eng e).acq.record = SyncMeas.latch (s.eng e).zr m s.tn
      ∧ (t.eng e).acq.held = SyncMeas.latch (s.eng e).zr m s.tn ∧ (t.eng e).acq.coarseFo = m.coarseFo
      ∧ (t.eng e).acq.position = m.position ∧ ScanLoaded e cd s t ∧ Counted .syncCandidates .engine e 1 t) s
      (exec (.searchSyncFound e found cd) s) := by
  rw [exec_searchSyncFound hstate hm]
  generalize hu : (s.candidate e m).modAcq e _ = u
  have hsu : Acts e [] s u := hu ▸ (acts_candidate ..).trans (acts_modAcq ..)
  have hacq : ((u.loadScan e cd).eng e).acq = _ := (State.loadScan_acq ..).trans (hu ▸ State.modAcq_acq e.isLt _ _)
  rw [State.candidate_acq e.isLt] at hacq
  have hload : ScanLoaded e cd s (u.loadScan e cd) := (loadScan_loads e.isLt cd u).of_same
    (hu ▸ (State.eng_modEng_of (·.eq) ..).trans (State.eng_modEng_of (·.eq) ..)) (hu ▸ rfl)
  refine (((hsu.trans (acts_loadScan ..)).mono (by simp)).trans (acts_count ..)).atEngine ?_
  rw [ScanLoaded, State.eng_count, hacq]
  exact ⟨rfl, rfl, rfl, rfl, rfl, hload, (counted_count _ _ _ _ _ Nat.one_ne_zero).1⟩
theorem exec_searchSyncFound_none {e : Fin 48} {found : List SyncMeas} {cd : Int} {s : State} (hstate : (s.eng e).acq.state = .search)
    (hnone : (s.eng e).bestCandidate found = none) : exec (.searchSyncFound e found cd) s = .next s := by
  have hexec : exec (.searchSyncFound e found cd) s = execSearchSyncFound e found cd s := rfl
  rw [hexec, execSearchSyncFound]
  simp [hstate, hnone]
theorem exec_searchPassEnd {e : Fin 48} {cd : Int} {s : State} (hstate : (s.eng e).acq.state = .search) :
    exec (.searchPassEnd { engine := e, cd := cd }) s = .next (((s.loadScan e cd).count .searchPasses .engine e 1).startPass e) := by
  have hexec : exec (.searchPassEnd { engine := e, cd := cd }) s = execSearchPassEnd { engine := e, cd := cd } s := rfl
  rw [hexec, execSearchPassEnd]
  simp [hstate]
/-- A pass that ends loads the dispersion it scanned and is counted, and a new one starts. -/
theorem searchPassEnd_searches {e : Fin 48} {cd : Int} {s : State} (hstate : (s.eng e).acq.state = .search) :
    AtEngine e (.happened :: passParts) (fun t => (t.eng e).acq.state = .search ∧ ScanLoaded e cd s t
      ∧ Counted .searchPasses .engine e 1 t) s (exec (.searchPassEnd { engine := e, cd := cd }) s) := by
  have hpass := acts_newPass e ((s.loadScan e cd).count .searchPasses .engine e 1)
  have hload : ScanLoaded e cd s ((s.loadScan e cd).count .searchPasses .engine e 1) :=
    (loadScan_loads e.isLt cd s).keep (congrArg Engine.searching (State.eng_count ..))
  rw [exec_searchPassEnd hstate]
  exact ((((acts_loadScan ..).mono (by simp)).trans ((acts_count ..).mono (by simp))).trans (hpass.mono (by simp +contextual))).atEngine
    ⟨State.startPass_state e.isLt _, hload.keep (State.startPass_searching ..),
      (counted_count _ _ _ _ _ Nat.one_ne_zero).1.keep hpass (by decide)⟩

/-! ### Timers (R158, R164) -/

theorem exec_acqNoSync {e : Fin 48} {s : State} (hstate : (s.eng e).acq.state = .search ∨ (s.eng e).acq.state = .confirm)
    (hraised : (s.eng e).acq.noSyncRaised = false) (hdue : (s.eng e).acq.searchStart + 625000 ≤ s.ticks) :
    exec (.acqNoSync e) s = .next ((s.modAcq e (fun a => { a with noSyncRaised := true })).raise .acqNoSync .engine e
      (wi (s.eng e).acq.record.rxPower)) := by
  have hexec : exec (.acqNoSync e) s = execAcqNoSync e s := rfl
  rw [hexec, execAcqNoSync]
  rcases hstate with hstate | hstate <;> simp [hstate, hraised, hdue]
theorem exec_oofTimerExpiry {e : Fin 48} {s : State} (hstate : (s.eng e).acq.state = .oof) (hdue : (s.eng e).acq.oofEntry + 1250 ≤ s.ticks) :
    exec (.oofTimerExpiry e) s = .next (((s.searchClock e).alignRelease e .search).startPass e) := by
  have hexec : exec (.oofTimerExpiry e) s = execOofTimerExpiry e s := rfl
  rw [hexec, execOofTimerExpiry]
  simp [hstate, hdue]

end Sys2Proof.Machine
end

section
/-! The sync checks of CONFIRM, IN_FRAME and OOF (O15), and the obligation. -/
namespace Sys2Proof.Machine

/-! ### Contenders (R157, R162, R163) -/

/-- What the examination of a contender beside a sync keeps of the alignment. -/
structure Alignment where
  state : AcqState
  lof : Bool
  position : Nat
  missRun : Nat
  oofEntry : Nat
def Engine.alignment (g : Engine) : Alignment :=
  { state := g.acq.state, lof := g.acq.lof, position := g.acq.position, missRun := g.acq.missRun, oofEntry := g.acq.oofEntry }
/-- A good contender that begins before the confirming sync, at least 3 dB above the candidate (R162). -/
def Engine.Displaces (g : Engine) (x : Contender) : Prop :=
  g.goodSync x.meas = true ∧ x.first = true ∧ g.acq.held.syncPower + 30 ≤ x.meas.syncPower
/-- A contender, where there is one, is examined. -/
def State.examinedBeside (e : Nat) (x : Option Contender) (s : State) : State := x.elim s (fun x => s.examined e x)
/-- A contender, where there is one, contests the alignment. -/
def State.contestBeside (e : Nat) (x : Option Contender) (s : State) : State := x.elim s (fun x => s.contest e x)
theorem acts_examined (e : Nat) (x : Contender) (s : State) : Acts e [] s (s.examined e x) := acts_modEng ..
theorem leaves_examined {e : Nat} (he : e < 48) (x : Contender) (s : State) : Leaves e s (s.examined e x) := leaves_modEng he _ s
theorem acts_examinedBeside (e : Nat) (x : Option Contender) (s : State) : Acts e [] s (s.examinedBeside e x) := by
  cases x
  exacts [.refl .., acts_examined ..]
theorem State.eng_examinedBeside {e : Nat} (he : e < 48) (x : Option Contender) (s : State) :
    ∃ r, (s.examinedBeside e x).eng e = { s.eng e with acq := { (s.eng e).acq with record := r } } := by
  cases x
  · exact ⟨_, rfl⟩
  · exact ⟨_, State.eng_modEng_same _ _ _ he⟩
/-- A contest leaves the alignment, what has been counted and what has been told. -/
structure Contested (e : Nat) (s t : State) : Prop where
  acts : Acts e eventParts s t
  leaves : Leaves e s t
  alignment : (t.eng e).alignment = (s.eng e).alignment
theorem Contested.refl (e : Nat) (s : State) : Contested e s s := ⟨.refl .., .refl .., rfl⟩
theorem Contested.trans {e : Nat} {s u t : State} (h : Contested e s u) (h' : Contested e u t) : Contested e s t :=
  ⟨h.acts.trans h'.acts, h.leaves.trans h'.leaves, h'.alignment.trans h.alignment⟩
theorem contested_modAcq {e : Nat} (he : e < 48) (f : Acquisition → Acquisition) (s : State)
    (h : ∀ g : Engine, ({ g with acq := f g.acq } : Engine).alignment = g.alignment := by intro g; rfl) : Contested e s (s.modAcq e f) :=
  ⟨(acts_modEng ..).mono (by simp), leaves_modEng he _ s, State.eng_modEng_of Engine.alignment _ _ _ _ h⟩
theorem contested_raise (e : Nat) (ev : Ev) (k : Kind) (i : Nat) (ws : List Word) (s : State) : Contested e s (s.raise ev k i ws) :=
  ⟨acts_raise .., leaves_raise .., congrArg Engine.alignment (State.eng_raise ..)⟩
theorem contested_ite {e : Nat} {b : Prop} {_ : Decidable b} {s t u : State} (ht : Contested e s t) (hu : Contested e s u) :
    Contested e s (if b then t else u) := by
  split
  exacts [ht, hu]
theorem contest_contested {e : Nat} (he : e < 48) (x : Contender) (s : State) : Contested e s (s.contest e x) := by
  have hexamined : Contested e s (s.examined e x) :=
    ⟨(acts_examined ..).mono (by simp), leaves_examined he .., State.eng_modEng_of Engine.alignment ..⟩
  refine contested_ite (contested_ite hexamined (contested_ite ?_ ?_)) (.refl ..)
  exacts [hexamined.trans (contested_modAcq he ..), (hexamined.trans (contested_modAcq he ..)).trans (contested_raise ..)]
theorem contestBeside_contested {e : Nat} (he : e < 48) (x : Option Contender) (s : State) : Contested e s (s.contestBeside e x) := by
  cases x
  exacts [.refl .., contest_contested he ..]

/-! ### The confirming sync (R158, R161, R162) -/

theorem State.confirmCheck_of_displaces {e errs : Nat} {x : Contender} {s : State} (h : (s.eng e).Displaces x) :
    s.confirmCheck e errs (some x) = ((s.examined e x).candidate e x.meas).count .contestReplaced .engine e 1 := by
  obtain ⟨hgood, hfirst, hpower⟩ := h
  have hexamined : (some x).filter (fun x => (s.eng e).goodSync x.meas) = some x := Option.filter_some_pos hgood
  unfold State.confirmCheck
  dsimp only
  rw [hexamined, Option.filter_some_pos (by simp [hfirst, hpower])]
/-- With no contender that displaces the candidate, the confirming sync decides. -/
theorem State.confirmCheck_of_not_displaces {e errs : Nat} {x : Option Contender} {s : State}
    (h : ∀ y, x = some y → ¬ (s.eng e).Displaces y) :
    ∃ good, s.confirmCheck e errs x =
      if errs ≤ effTol (s.eng e).zr (s.eng e).acq.syncTol (s.eng e).acq.held.layout then
        (((s.examinedBeside e good).modAcq e (fun a => { a with position := a.position + (s.eng e).spacing })).enterFrame e).contestBeside e good
      else ((s.examinedBeside e good).modAcq e (fun a => { a with state := .search, searchFrom := a.position + 1 })).count .pseudoSync
        .engine e 1 := by
  refine ⟨x.filter (fun x => (s.eng e).goodSync x.meas), ?_⟩
  have hnone : (x.filter (fun x => (s.eng e).goodSync x.meas)).filter
      (fun x => x.first && decide ((s.eng e).acq.held.syncPower + 30 ≤ x.meas.syncPower)) = none := by
    rw [Option.filter_filter, Option.filter_eq_none_iff]
    intro y hy
    simpa [Engine.Displaces] using h y hy
  unfold State.confirmCheck
  dsimp only
  rw [hnone]
  cases x.filter (fun x => (s.eng e).goodSync x.meas) <;> rfl

theorem acts_refillStores (e : Nat) (s : State) : Acts e [.packs] s (s.refillStores e) := by
  unfold State.refillStores
  dsimp only
  split
  exacts [((acts_modEng ..).mono (by simp)).trans (acts_modPack ..), (acts_modEng ..).mono (by simp)]
theorem State.refillStores_acq (e j : Nat) (s : State) : ((s.refillStores e).eng j).acq = (s.eng j).acq := by
  unfold State.refillStores
  dsimp only
  split
  · exact (congrArg Engine.acq (State.eng_modPack ..)).trans (State.eng_modEng_of (·.acq) ..)
  · exact State.eng_modEng_of (·.acq) ..
/-- The record that ACQ_DONE carries is that of an engine in frame with its candidate's record. -/
def Acquisition.confirmed (a : Acquisition) : Acquisition :=
  { a with state := .inFrame, lof := false, coarseFo := a.held.coarseFo, contestSeen := false, contestPower := none, record := a.held }
theorem enterFrame_enters {e : Nat} (he : e < 48) (s : State) :
    Acts e (.packs :: eventParts) s (s.enterFrame e) ∧ ((s.enterFrame e).eng e).acq.state = .inFrame
      ∧ ((s.enterFrame e).eng e).acq.lof = false
      ∧ Raised .acqDone .engine e (acqWords (s.eng e).acq.confirmed) s.tn (s.enterFrame e) := by
  unfold State.enterFrame
  dsimp only
  generalize hu : s.modEng e _ = u
  have hsu : Acts e (.packs :: eventParts) s u := hu ▸ (acts_modEng ..).mono (by simp)
  have hfill : Acts e (.packs :: eventParts) s (u.refillStores e) := hsu.trans ((acts_refillStores ..).mono (by decide))
  have hacq := (State.refillStores_acq e e u).trans (congrArg Engine.acq (hu ▸ State.eng_modEng_same _ _ _ he))
  have htn : (u.refillStores e).tn = s.tn := hfill.tn
  generalize u.refillStores e = v at hfill hacq htn
  have hwords : acqWords { (v.eng e).acq with record := (v.eng e).acq.held } = acqWords (s.eng e).acq.confirmed := by rw [hacq]; rfl
  rw [hwords]
  have hdone := contested_raise e .acqDone .engine e (acqWords (s.eng e).acq.confirmed) v
  have hraised : Raised .acqDone .engine e (acqWords (s.eng e).acq.confirmed) s.tn _ := raised_raise_tn htn
  generalize v.raise .acqDone .engine e (acqWords (s.eng e).acq.confirmed) = w at hdone hraised
  suffices hadopted : Contested e w (if _ then w.raise .rxLayoutAdopted .engine e _ else w) by
    have hkept := hdone.trans hadopted
    exact ⟨hfill.trans (hkept.acts.mono (by simp +contextual)), (congrArg Alignment.state hkept.alignment).trans (congrArg (·.state) hacq),
      (congrArg Alignment.lof hkept.alignment).trans (congrArg (·.lof) hacq), hadopted.acts.told.raised _ _ _ _ _ hraised⟩
  exact contested_ite (contested_raise ..) (.refl ..)

/-! ### A sync in IN_FRAME or OOF (R158, R159, R163) -/

/-- The position and the arrival stamp of the frame whose sync is judged. -/
def State.nextFrame (e : Nat) (phase : List (Nat × Int)) (s : State) : State :=
  s.modEng e (fun g => { g with acq := { g.acq with position := g.acq.position + g.spacing }
                                rx := { g.rx with stamps := g.rx.stamps ++ [s.arrivalStamp e phase] } })
theorem State.frameCheck_eq (e errs : Nat) (x : Option Contender) (phase : List (Nat × Int)) (s : State) :
    s.frameCheck e errs x phase = ((s.nextFrame e phase).heldCheck e
      (decide (errs ≤ effTol (s.eng e).zr (s.eng e).acq.syncTol (s.eng e).rxLayout))).contestBeside e x := by
  cases x <;> rfl
theorem acts_nextFrame (e : Nat) (phase : List (Nat × Int)) (s : State) : Acts e [] s (s.nextFrame e phase) := acts_modEng ..
theorem State.nextFrame_acq {e : Nat} (he : e < 48) (phase : List (Nat × Int)) (s : State) :
    ((s.nextFrame e phase).eng e).acq = { (s.eng e).acq with position := (s.eng e).acq.position + (s.eng e).spacing } := by
  rw [State.nextFrame, State.eng_modEng_same _ _ _ he]
/-- A counter's value after one more happening. -/
theorem State.counted_count_one (x : Ctr) (k : Kind) (i : Nat) (s : State) :
    (s.count x k i 1).counted x k i = (s.counted x k i + 1) % 2 ^ 40 := by
  have hone (l : List (Nat × Nat)) (n : Nat) : l.foldl (fun n x => n + x.2) (n + 1) = l.foldl (fun n x => n + x.2) n + 1 :=
    List.foldl_hom (· + 1) (fun _ _ => by omega)
  simp [State.counted, State.count, State.happen, State.modCtr, hone]
theorem heldCheck_good {e : Nat} (he : e < 48) {s : State} (hstate : (s.eng e).acq.state = .inFrame) :
    Acts e eventParts s (s.heldCheck e true)
      ∧ ((s.heldCheck e true).eng e).alignment = { (s.eng e).alignment with missRun := 0 } := by
  have heq : s.heldCheck e true = s.modAcq e (fun a => { a with missRun := 0 }) := by simp [State.heldCheck, hstate]
  rw [heq, Engine.alignment, State.modAcq_acq he]
  exact ⟨(acts_modAcq ..).mono (by simp), rfl⟩
theorem heldCheck_missed {e : Nat} (he : e < 48) {s : State} (hstate : (s.eng e).acq.state = .inFrame) (hrun : (s.eng e).acq.missRun < 3) :
    Acts e eventParts s (s.heldCheck e false)
      ∧ ((s.heldCheck e false).eng e).alignment = { (s.eng e).alignment with missRun := (s.eng e).acq.missRun + 1 }
      ∧ Counted .syncMissed .engine e 1 (s.heldCheck e false) := by
  have hfew : ¬ 3 ≤ (s.eng e).acq.missRun := by omega
  have heq : s.heldCheck e false = (s.count .syncMissed .engine e 1).modAcq e (fun a => { a with missRun := a.missRun + 1 }) := by
    simp [State.heldCheck, hstate, hfew]
  have hmissed := acts_modAcq e (fun a => { a with missRun := a.missRun + 1 }) (s.count .syncMissed .engine e 1)
  rw [heq, Engine.alignment, State.modAcq_acq he, State.eng_count]
  exact ⟨((acts_count ..).mono (by decide)).trans (hmissed.mono (by simp)), rfl,
    (counted_count .syncMissed .engine e 1 s Nat.one_ne_zero).1.keep hmissed (by decide)⟩
theorem heldCheck_lost {e : Nat} (he : e < 48) {s : State} (hstate : (s.eng e).acq.state = .inFrame) (hrun : 3 ≤ (s.eng e).acq.missRun) :
    Acts e eventParts s (s.heldCheck e false)
      ∧ ((s.heldCheck e false).eng e).alignment = { (s.eng e).alignment with state := .oof, missRun := 0, oofEntry := s.ticks }
      ∧ Counted .syncMissed .engine e 1 (s.heldCheck e false)
      ∧ Raised .oofEnter .engine e (w2 s.tn ++ w2 ((s.counted .syncMissed .engine e + 1) % 2 ^ 40)) s.tn (s.heldCheck e false) := by
  have heq : s.heldCheck e false = ((s.count .syncMissed .engine e 1).modAcq e (fun a => { a with
      state := .oof, missRun := 0, goodRun := 0, oofEntry := s.ticks })).raise .oofEnter .engine e
        (w2 s.tn ++ w2 ((s.counted .syncMissed .engine e + 1) % 2 ^ 40)) := by
    rw [← State.counted_count_one]
    simp [State.heldCheck, hstate, hrun]
  have hcount : Acts e eventParts s (s.count .syncMissed .engine e 1) := (acts_count ..).mono (by decide)
  have hlost := acts_modAcq e (fun a => { a with state := .oof, missRun := 0, goodRun := 0, oofEntry := s.ticks })
    (s.count .syncMissed .engine e 1)
  have hcounted := (counted_count .syncMissed .engine e 1 s Nat.one_ne_zero).1.keep hlost (by decide)
  rw [heq, State.eng_raise, Engine.alignment, State.modAcq_acq he, State.eng_count]
  exact ⟨(hcount.trans (hlost.mono (by simp))).trans (acts_raise ..), rfl, (leaves_raise e ..).keepsCounted hcounted,
    raised_raise_tn (hlost.tn.trans hcount.tn)⟩
theorem heldCheck_regained {e : Nat} (he : e < 48) {s : State} (hstate : (s.eng e).acq.state = .oof) (hrun : 1 ≤ (s.eng e).acq.goodRun) :
    Acts e (.packs :: eventParts) s (s.heldCheck e true)
      ∧ ((s.heldCheck e true).eng e).alignment = { (s.eng e).alignment with state := .inFrame, missRun := 0 }
      ∧ Raised .oofExit .engine e (w2 s.tn ++ w1 (s.ticks - (s.eng e).acq.oofEntry)) s.tn (s.heldCheck e true) := by
  obtain ⟨u, hu, heq⟩ : ∃ u, u = s.modEng e (fun g => { g with
        acq := { g.acq with state := .inFrame, missRun := 0, goodRun := 0 }, rx := { g.rx with echoValid := false, heard := false } })
      ∧ s.heldCheck e true = (u.refillStores e).raise .oofExit .engine e (w2 s.tn ++ w1 (s.ticks - (s.eng e).acq.oofEntry)) := by
    refine ⟨_, rfl, ?_⟩
    simp [State.heldCheck, hstate, hrun]
  have hsu : Acts e (.packs :: eventParts) s u := hu ▸ (acts_modEng ..).mono (by simp)
  have hfill := hsu.trans ((acts_refillStores e u).mono (by decide))
  have hueng : u.eng e = _ := hu ▸ State.eng_modEng_same _ _ _ he
  rw [heq, State.eng_raise, Engine.alignment, State.refillStores_acq, hueng]
  exact ⟨hfill.trans ((acts_raise ..).mono (by decide)), rfl, raised_raise_tn hfill.tn⟩
/-- What a frame's sync check leads to holds after the contest beside it, as far as the alignment, the counts and the events go. -/
theorem exec_rxSyncCheck_frame {e : Fin 48} {d : List (BitVec 128)} {phase : List (Nat × Int)} {x : Option Contender} {s : State}
    (hstate : (s.eng e).acq.state = .inFrame ∨ (s.eng e).acq.state = .oof) {good : Bool}
    (hgood : good = decide ((s.eng e).checkErrs d ≤ effTol (s.eng e).zr (s.eng e).acq.syncTol (s.eng e).rxLayout)) :
    exec (.rxSyncCheck e { decided := d, phase := phase } x) s =
      .next (((s.nextFrame e phase).heldCheck e good).contestBeside e x) := by
  have hexec : exec (.rxSyncCheck e { decided := d, phase := phase } x) s = execRxSyncCheck e { decided := d, phase := phase } x s := rfl
  rw [hexec, execRxSyncCheck, hgood, ← State.frameCheck_eq]
  rcases hstate with hstate | hstate <;> simp only [hstate]
theorem exec_rxSyncCheck_confirm {e : Fin 48} {d : List (BitVec 128)} {phase : List (Nat × Int)} {x : Option Contender} {s : State}
    (hstate : (s.eng e).acq.state = .confirm) :
    exec (.rxSyncCheck e { decided := d, phase := phase } x) s = .next (s.confirmCheck e ((s.eng e).checkErrs d) x) := by
  have hexec : exec (.rxSyncCheck e { decided := d, phase := phase } x) s = execRxSyncCheck e { decided := d, phase := phase } x s := rfl
  rw [hexec, execRxSyncCheck]
  simp only [hstate]

/-! ### The row of the sync check -/

/-- The sync check of a frame, judged before a contest beside it: what the contest leaves is what the judgement brought. -/
theorem rxSyncCheck_frame {e : Fin 48} {d : List (BitVec 128)} {phase : List (Nat × Int)} {x : Option Contender} {parts : List Part}
    {P : State → Prop} {s v : State} (hstate : (s.eng e).acq.state = .inFrame ∨ (s.eng e).acq.state = .oof) {good : Bool}
    (hgood : good = decide ((s.eng e).checkErrs d ≤ effTol (s.eng e).zr (s.eng e).acq.syncTol (s.eng e).rxLayout))
    (hv : (s.nextFrame e phase).heldCheck e good = v) (hacts : Acts e parts (s.nextFrame e phase) v) (hparts : ∀ p ∈ eventParts, p ∈ parts)
    (hP : ∀ t, Contested e v t → P t) : AtEngine e parts P s (exec (.rxSyncCheck e { decided := d, phase := phase } x) s) := by
  have hcontest := contestBeside_contested e.isLt x v
  rw [exec_rxSyncCheck_frame hstate hgood, hv]
  exact ((((acts_nextFrame ..).mono (by simp)).trans hacts).trans (hcontest.acts.mono hparts)).atEngine (hP _ hcontest)
theorem rxSyncCheck_held {e : Fin 48} {d : List (BitVec 128)} {phase : List (Nat × Int)} {x : Option Contender} {s : State}
    (hstate : (s.eng e).acq.state = .inFrame)
    (hheld : (s.eng e).checkErrs d ≤ effTol (s.eng e).zr (s.eng e).acq.syncTol (s.eng e).rxLayout) :
    AtEngine e eventParts (fun t => (t.eng e).acq.state = .inFrame ∧ (t.eng e).acq.missRun = 0
      ∧ (t.eng e).acq.position = (s.eng e).acq.position + (s.eng e).spacing) s
      (exec (.rxSyncCheck e { decided := d, phase := phase } x) s) := by
  have hacq := State.nextFrame_acq e.isLt phase s
  obtain ⟨hacts, halign⟩ := heldCheck_good e.isLt ((congrArg (·.state) hacq).trans hstate)
  refine rxSyncCheck_frame (.inl hstate) (decide_eq_true hheld).symm rfl hacts (fun _ hp => hp) (fun t ht => ?_)
  have hend := ht.alignment.trans halign
  simp only [Engine.alignment, hacq, Alignment.mk.injEq] at hend
  obtain ⟨hframe, -, hposition, hrun, -⟩ := hend
  exact ⟨hframe.trans hstate, hrun, hposition⟩
theorem rxSyncCheck_missed {e : Fin 48} {d : List (BitVec 128)} {phase : List (Nat × Int)} {x : Option Contender} {s : State}
    (hstate : (s.eng e).acq.state = .inFrame)
    (hmissed : ¬ (s.eng e).checkErrs d ≤ effTol (s.eng e).zr (s.eng e).acq.syncTol (s.eng e).rxLayout)
    (hfew : (s.eng e).acq.missRun < 3) :
    AtEngine e eventParts (fun t => (t.eng e).acq.state = .inFrame ∧ (t.eng e).acq.missRun = (s.eng e).acq.missRun + 1
      ∧ Counted .syncMissed .engine e 1 t) s
      (exec (.rxSyncCheck e { decided := d, phase := phase } x) s) := by
  have hacq := State.nextFrame_acq e.isLt phase s
  obtain ⟨hacts, halign, hcounted⟩ := heldCheck_missed e.isLt ((congrArg (·.state) hacq).trans hstate)
    ((congrArg (·.missRun) hacq).trans_lt hfew)
  refine rxSyncCheck_frame (.inl hstate) (decide_eq_false hmissed).symm rfl hacts (fun _ hp => hp) (fun t ht => ?_)
  have hend := ht.alignment.trans halign
  simp only [Engine.alignment, hacq, Alignment.mk.injEq] at hend
  obtain ⟨hframe, -, -, hrun, -⟩ := hend
  exact ⟨hframe.trans hstate, hrun, ht.leaves.keepsCounted hcounted⟩
theorem rxSyncCheck_lost {e : Fin 48} {d : List (BitVec 128)} {phase : List (Nat × Int)} {x : Option Contender} {s : State}
    (hstate : (s.eng e).acq.state = .inFrame)
    (hmissed : ¬ (s.eng e).checkErrs d ≤ effTol (s.eng e).zr (s.eng e).acq.syncTol (s.eng e).rxLayout)
    (hmany : 3 ≤ (s.eng e).acq.missRun) :
    AtEngine e eventParts (fun t => (t.eng e).acq.state = .oof ∧ (t.eng e).acq.oofEntry = s.ticks ∧ Counted .syncMissed .engine e 1 t
      ∧ Raised .oofEnter .engine e (w2 s.tn ++ w2 ((s.counted .syncMissed .engine e + 1) % 2 ^ 40)) s.tn t) s
      (exec (.rxSyncCheck e { decided := d, phase := phase } x) s) := by
  have hacq := State.nextFrame_acq e.isLt phase s
  obtain ⟨hacts, halign, hcounted, hraised⟩ := heldCheck_lost e.isLt ((congrArg (·.state) hacq).trans hstate)
    (hmany.trans_eq (congrArg (·.missRun) hacq).symm)
  refine rxSyncCheck_frame (.inl hstate) (decide_eq_false hmissed).symm rfl hacts (fun _ hp => hp) (fun t ht => ?_)
  have hend := ht.alignment.trans halign
  exact ⟨congrArg Alignment.state hend, congrArg Alignment.oofEntry hend, ht.leaves.keepsCounted hcounted,
    ht.leaves.raised _ _ _ _ _ hraised⟩
theorem rxSyncCheck_regained {e : Fin 48} {d : List (BitVec 128)} {phase : List (Nat × Int)} {x : Option Contender} {s : State}
    (hstate : (s.eng e).acq.state = .oof) (hheld : (s.eng e).checkErrs d ≤ effTol (s.eng e).zr (s.eng e).acq.syncTol (s.eng e).rxLayout)
    (hrun : 1 ≤ (s.eng e).acq.goodRun) :
    AtEngine e (.packs :: eventParts) (fun t => (t.eng e).acq.state = .inFrame
      ∧ Raised .oofExit .engine e (w2 s.tn ++ w1 (s.ticks - (s.eng e).acq.oofEntry)) s.tn t) s
      (exec (.rxSyncCheck e { decided := d, phase := phase } x) s) := by
  have hacq := State.nextFrame_acq e.isLt phase s
  obtain ⟨hacts, halign, hraised⟩ := heldCheck_regained e.isLt ((congrArg (·.state) hacq).trans hstate)
    (hrun.trans (congrArg (·.goodRun) hacq).ge)
  rw [hacq] at hraised
  refine rxSyncCheck_frame (.inr hstate) (decide_eq_true hheld).symm rfl hacts (by simp +contextual) (fun t ht => ?_)
  exact ⟨congrArg Alignment.state (ht.alignment.trans halign), ht.leaves.raised _ _ _ _ _ hraised⟩
theorem rxSyncCheck_displaced {e : Fin 48} {d : List (BitVec 128)} {phase : List (Nat × Int)} {y : Contender} {s : State}
    (hstate : (s.eng e).acq.state = .confirm) (hy : (s.eng e).Displaces y) :
    AtEngine e [.happened] (fun t => (t.eng e).acq.state = .confirm ∧ (t.eng e).acq.held = SyncMeas.latch (s.eng e).zr y.meas s.tn
      ∧ (t.eng e).acq.position = y.meas.position ∧ Counted .contestReplaced .engine e 1 t) s
      (exec (.rxSyncCheck e { decided := d, phase := phase } (some y)) s) := by
  have hexamined := acts_examined e y s
  obtain ⟨r, heng⟩ := State.eng_examinedBeside e.isLt (some y) s
  have hacq := State.candidate_acq e.isLt y.meas (s.examined e y)
  rw [show (s.examined e y).eng e = _ from heng] at hacq
  rw [exec_rxSyncCheck_confirm hstate, State.confirmCheck_of_displaces hy]
  refine (((hexamined.trans (acts_candidate ..)).mono (by simp)).trans (acts_count ..)).atEngine ?_
  rw [State.eng_count, hacq]
  exact ⟨hstate, rfl, rfl, (counted_count _ _ _ _ _ Nat.one_ne_zero).1⟩
theorem rxSyncCheck_confirmed {e : Fin 48} {d : List (BitVec 128)} {phase : List (Nat × Int)} {x : Option Contender} {s : State}
    (hstate : (s.eng e).acq.state = .confirm) (hx : ∀ y, x = some y → ¬ (s.eng e).Displaces y)
    (hgood : (s.eng e).checkErrs d ≤ effTol (s.eng e).zr (s.eng e).acq.syncTol (s.eng e).acq.held.layout) :
    AtEngine e (.packs :: eventParts) (fun t => (t.eng e).acq.state = .inFrame ∧ (t.eng e).acq.lof = false
      ∧ Raised .acqDone .engine e (acqWords (s.eng e).acq.confirmed) s.tn t) s
      (exec (.rxSyncCheck e { decided := d, phase := phase } x) s) := by
  obtain ⟨good, hcheck⟩ := State.confirmCheck_of_not_displaces (errs := (s.eng e).checkErrs d) hx
  obtain ⟨r, heng⟩ := State.eng_examinedBeside e.isLt good s
  rw [exec_rxSyncCheck_confirm hstate, hcheck, if_pos hgood]
  generalize hu : (s.examinedBeside e good).modAcq e _ = u
  have hsu : Acts e [] s u := hu ▸ (acts_examinedBeside ..).trans (acts_modAcq ..)
  have huacq : (u.eng e).acq = _ := hu ▸ State.modAcq_acq e.isLt _ _
  obtain ⟨hacts, hframe, hlof, hraised⟩ := enterFrame_enters e.isLt u
  rw [huacq, heng, hsu.tn] at hraised
  have hcontest := contestBeside_contested e.isLt good (u.enterFrame e)
  exact (((hsu.mono (by simp)).trans hacts).trans (hcontest.acts.mono (by simp +contextual))).atEngine
    ⟨(congrArg Alignment.state hcontest.alignment).trans hframe, (congrArg Alignment.lof hcontest.alignment).trans hlof,
      hcontest.leaves.raised _ _ _ _ _ hraised⟩
theorem rxSyncCheck_rejected {e : Fin 48} {d : List (BitVec 128)} {phase : List (Nat × Int)} {x : Option Contender} {s : State}
    (hstate : (s.eng e).acq.state = .confirm) (hx : ∀ y, x = some y → ¬ (s.eng e).Displaces y)
    (hbad : ¬ (s.eng e).checkErrs d ≤ effTol (s.eng e).zr (s.eng e).acq.syncTol (s.eng e).acq.held.layout) :
    AtEngine e [.happened] (fun t => (t.eng e).acq.state = .search ∧ (t.eng e).acq.searchFrom = (s.eng e).acq.position + 1
      ∧ Counted .pseudoSync .engine e 1 t) s (exec (.rxSyncCheck e { decided := d, phase := phase } x) s) := by
  obtain ⟨good, hcheck⟩ := State.confirmCheck_of_not_displaces (errs := (s.eng e).checkErrs d) hx
  obtain ⟨r, heng⟩ := State.eng_examinedBeside e.isLt good s
  rw [exec_rxSyncCheck_confirm hstate, hcheck, if_neg hbad]
  refine ((((acts_examinedBeside ..).trans (acts_modAcq ..)).mono (by simp)).trans (acts_count ..)).atEngine ?_
  rw [State.eng_count, State.modAcq_acq e.isLt, heng]
  exact ⟨rfl, rfl, (counted_count _ _ _ _ _ Nat.one_ne_zero).1⟩

/-- Settles O15: each row is the step it makes where its condition holds; a sync check judges its sync first, and the contest of a
contender beside it leaves the alignment, the counts and the events (`Contested`). -/
theorem alignmentTransitions : Obligations.AlignmentTransitions := by
  intro e s a quiet loaded displaces
  have hlt := e.isLt
  refine ⟨fun powers hlen hall hstate => ?_, fun powers hlen hall hstate => ?_,
    fun found cd hstate => ⟨fun m hm => ?_, exec_searchSyncFound_none hstate⟩, fun cd hstate => ?_, fun hstate hraised hdue => ?_,
    fun d x phase => ⟨fun y hstate hx hy => ?_, rxSyncCheck_confirmed, rxSyncCheck_rejected, rxSyncCheck_held, rxSyncCheck_missed,
      rxSyncCheck_lost, rxSyncCheck_regained⟩,
    fun hstate hdue => ?_⟩
  · rw [exec_powerQualification_above hlen hall hstate]
    refine ((((acts_powerSeen ..).trans (acts_modAcq ..)).mono (by simp)).trans (acts_newPass ..)).atEngine ⟨State.startPass_state hlt _, ?_⟩
    refine (congrArg Searching.los (State.startPass_searching ..)).trans ?_
    exact (State.eng_modEng_of (·.losIn) ..).trans (State.powerSeen_los hlt ..)
  · rw [exec_powerQualification_below hlen hall hstate]
    refine ((((acts_powerSeen ..).mono (by simp)).trans (acts_droppedSwap ..)).trans ((acts_modAcq ..).mono (by simp))).atEngine ⟨?_, ?_⟩
    · rw [State.modAcq_acq hlt]
    · refine (State.eng_modEng_of (·.losIn) ..).trans ?_
      exact (congrArg Searching.los (State.dropCdSwap_searching ..)).trans (State.powerSeen_los hlt ..)
  · exact searchSyncFound_confirms hstate hm
  · exact searchPassEnd_searches hstate
  · rw [exec_acqNoSync hstate hraised hdue]
    have htold := acts_modAcq e (fun a => { a with noSyncRaised := true }) s
    refine ((htold.mono (by simp)).trans (acts_raise ..)).atEngine ⟨?_, raised_raise_tn htold.tn⟩
    rw [State.eng_raise, State.modAcq, State.eng_modEng_same _ _ _ hlt]
  · subst hx
    exact rxSyncCheck_displaced hstate hy
  · rw [exec_oofTimerExpiry hstate hdue]
    exact ((((acts_modAcq ..).mono (by simp)).trans ((acts_alignRelease ..).mono (by simp +contextual))).trans
      ((acts_newPass ..).mono (by decide))).atEngine (State.released_searches hlt ..)
end Sys2Proof.Machine
end

section
/-! The commands of Receive Equalisation (O23): settings and CD swaps at their boundary, and the load of the shadow bank. -/
namespace Sys2Proof.Machine

/-! ### The equaliser of an engine -/

theorem acts_modEq (e : Nat) (f : Equaliser → Equaliser) (s : State) : Acts e [] s (s.modEq e f) := acts_modEng ..
theorem State.eng_modEq_same {e : Nat} (he : e < 48) (f : Equaliser → Equaliser) (s : State) :
    (s.modEq e f).eng e = { s.eng e with eq := f (s.eng e).eq } := State.eng_modEng_same _ _ _ he

/-! ### A change at its boundary that looks at its engine -/

theorem TakesEffect.imp {op : Nat} {c : Cmd} {l : List Part} {P Q : State → Prop} {s : State} (h : TakesEffect op c l P s)
    (hPQ : ∀ t, P t → Q t) : TakesEffect op c l Q s := by
  intro a harmed hdue hop hcmd
  obtain ⟨t, hexec, hP, hrest⟩ := h a harmed hdue hop hcmd
  exact ⟨t, hexec, hPQ t hP, hrest⟩
/-- A pending change whose effect touches its engine and the parts of `l`: what it brings needs to hold only of states with the engines
and in the tick of the boundary, and to stay when the command is answered. -/
theorem takesEffect_at_engine {op : Nat} {c : Cmd} {f : Cmd → State → State} {l : List Part} {P : State → Prop} {s : State}
    (hb : boundaryEffect op = f) (harmed : Part.armed ∉ Part.engines :: l)
    (hf : ∀ u, (∀ j, u.eng j = s.eng j) → u.tn = s.tn → Acts (cIdx c) l u (f c u) ∧ P (f c u))
    (hkeep : ∀ u v, (∀ j, v.eng j = u.eng j) → KeepsTold u v → P u → P v) : TakesEffect op c (.engines :: l) P s := by
  have hdisarm := only_disarm s
  obtain ⟨hacts, hP⟩ := hf (s.modProto (fun p => { p with armed := [] })) (eng_of_only hdisarm (by decide)) (hdisarm .tn (by decide))
  refine takesEffect_of op c f _ P s hb hP (fun t st d ws u => ?_) (hacts.within.1 .armed harmed) ?_
    (fun t st d ws u hu => only_final _ s u t st d ws hu (by simp) (by simp) (by simp) (by simp))
  · exact hkeep u _ (fun j => State.eng_final ..) (keepsTold_final ..)
  · exact only_trans _ _ _ _ _ hdisarm (only_mono hacts.within.1 (fun p => List.mem_append_left _)) (by simp)
/-- A pending change whose effect is on its engine alone, and depends on the engine it finds. -/
theorem engineChange_at {op : Nat} {c : Cmd} {f : Cmd → State → State} {g : Engine → Engine} {s : State} (hb : boundaryEffect op = f)
    (hf : ∀ u, u.eng (cIdx c) = s.eng (cIdx c) → Acts (cIdx c) [] u (f c u) ∧ (f c u).eng (cIdx c) = g (s.eng (cIdx c))) :
    EngineChange op c g s := by
  refine takesEffect_at_engine hb (by decide) (fun u hu _ => ?_) (fun u v heng _ ⟨hg, hothers⟩ => ?_)
  · obtain ⟨hacts, hg⟩ := hf u (hu _)
    exact ⟨hacts, hg, fun j hj => (hacts.within.2 j hj).trans (hu j)⟩
  · exact ⟨(heng _).trans hg, fun j hj => (heng j).trans (hothers j hj)⟩
/-- A pending change that sets the equaliser of its engine, where that is the one found at the boundary. -/
theorem eqChange_at {op : Nat} {c : Cmd} {f : Cmd → State → State} {g : Equaliser → Equaliser} {s : State} (hlt : cIdx c < 48)
    (hb : boundaryEffect op = f) (hf : ∀ u, u.eng (cIdx c) = s.eng (cIdx c) → f c u = u.modEq (cIdx c) g) :
    EngineChange op c (fun x => { x with eq := g x.eq }) s := by
  refine engineChange_at hb (fun u hu => ?_)
  rw [hf u hu, State.eng_modEq_same hlt, hu]
  exact ⟨acts_modEq .., rfl⟩

/-! ### ENGINE_RXFE_SET (R180) -/

/-- A command that arms its change and on its acceptance sets something of its engine. -/
theorem armsAnd_engine {sp : OpSpec} {cls : Nat} {f : Cmd → State → State} {g : Engine → Engine} {c : Cmd} {s : State}
    (h : Ready sp c s = true) (ht : sp.target = tgtEngine) (he : sp.eff = .boundary cls f)
    (ha : sp.onAccept c (s.atParse sp.code c) = (s.atParse sp.code c).modEng (cIdx c) g) :
    ArmsAnd cls sp.code c [.engines] (fun t => t.eng (cIdx c) = g (s.eng (cIdx c)) ∧ OtherEngines (cIdx c) s t) s (runOp sp c s) := by
  have hlt := ready_engine _ _ _ h ht
  have hset := within_modEng (cIdx c) g (s.atParse sp.code c)
  refine armsAnd_boundary h he ha
    (only_trans _ _ _ _ _ (only_atParse sp.code c s) (only_mono hset.1 (by simp)) (fun p => List.mem_append_right _))
    ((hset.1 .tn (by decide)).trans (State.atParse_tn ..)) ((hset.1 .armed (by decide)).trans (State.atParse_proto_armed ..))
    (fun t ht => ⟨?_, fun j hj => ?_⟩)
  · exact (eng_of_only ht (by decide) _).trans ((State.eng_modEng_same _ _ _ hlt).trans (congrArg g (State.eng_atParse ..)))
  · exact (eng_of_only ht (by decide) j).trans ((hset.2 j hj).trans (State.eng_atParse ..))

/-! ### ENGINE_CD_LOAD (R183) -/

/-- The shadow bank is empty while the filter of a loaded D is computed. -/
def Equaliser.loading (b : CdBank) (q : Equaliser) : Equaliser := { q with cdShadow := none, cdLoading := some b }
/-- What an accepted ENGINE_CD_LOAD does. -/
def cdLoadEffect (j : Job) (c : Cmd) (s : State) : State :=
  let u := s.finishJobs (jobOn 0x117 (cIdx c)) .superseded c.tag.val []
  (u.startJob j).modEq (cIdx c) (·.loading { d := 2 * cz c 1, centreN := u.slotCentre (cIdx c) })
theorem specEngineCdLoad_eff : specEngineCdLoad.eff = .long cdLoadEffect := rfl
theorem State.slotCentre_of_same {s t : State} (h : t.map = s.map) (e : Nat) : t.slotCentre e = s.slotCentre e := by
  simp only [State.slotCentre, h]
theorem cdLoadEffect_loads {j : Job} {c : Cmd} {s : State} (he : cIdx c < 48) :
    Within (cIdx c) (.jobs :: finalParts) s (cdLoadEffect j c s) ∧ KeepsTold s (cdLoadEffect j c s) ∧ j ∈ (cdLoadEffect j c s).proto.jobs
      ∧ (cdLoadEffect j c s).eng (cIdx c) = { s.eng (cIdx c) with
          eq := (s.eng (cIdx c)).eq.loading { d := 2 * cz c 1, centreN := s.slotCentre (cIdx c) } } := by
  unfold cdLoadEffect
  have hended := acts_finishJobs (cIdx c) (jobOn 0x117 (cIdx c)) .superseded c.tag.val [] s
  have heng : (s.finishJobs (jobOn 0x117 (cIdx c)) .superseded c.tag.val []).eng (cIdx c) = s.eng (cIdx c) := State.eng_finishJobs ..
  have hcentre := State.slotCentre_of_same (hended.within.1 .map (by decide)) (cIdx c)
  generalize s.finishJobs (jobOn 0x117 (cIdx c)) .superseded c.tag.val [] = u at *
  dsimp only
  rw [hcentre]
  have hset := acts_modEq (cIdx c) (·.loading { d := 2 * cz c 1, centreN := s.slotCentre (cIdx c) }) (u.startJob j)
  refine ⟨(hended.within.trans ((within_startJob ..).mono (by simp))).trans (hset.within.mono (by simp)),
    (hended.told.trans (keepsTold_startJob ..)).trans hset.told, mem_startJob j u, ?_⟩
  have hjob : (u.startJob j).eng (cIdx c) = u.eng (cIdx c) := rfl
  rw [State.eng_modEq_same he, hjob, heng]
theorem cdLoad_begins {c : Cmd} {s : State} (h : Ready specEngineCdLoad c s = true) :
    Begins 0x117 c [.engines] (fun t => t.eng (cIdx c) = { s.eng (cIdx c) with
        eq := (s.eng (cIdx c)).eq.loading { d := 2 * cz c 1, centreN := s.slotCentre (cIdx c) } }
      ∧ OtherEngines (cIdx c) s t) s (exec (.engineCdLoad c) s) := by
  refine begins_long specEngineCdLoad _ _ _ c s h specEngineCdLoad_eff rfl (fun j u hc ht hu hA => ?_)
  obtain ⟨hwithin, htold, hj, heng⟩ := cdLoadEffect_loads (j := j) (s := u) (ready_engine _ _ _ h rfl)
  have hueng := eng_of_answer hu
  rw [hueng, State.slotCentre_of_same (hu .map (by decide))] at heng
  exact ⟨⟨heng, fun i hi => (hwithin.2 i hi).trans (hueng i)⟩, begun_at_engine hc ht hu hA hwithin htold hj (by decide)⟩

/-! ### ENGINE_CD_SWAP at its boundary (R184, R185) -/

/-- The equaliser after a fade: the banks have exchanged, unless a reversal led back (R184 to R186). -/
def Equaliser.swapped (reversed : Bool) (q : Equaliser) : Equaliser :=
  let active := if reversed then q.cdActive else q.cdShadow.getD q.cdActive
  { q with cdActive := active, cdShadow := if reversed then q.cdShadow else some q.cdActive, fade := none
           slewing := q.align != 64 * alignSamples active }
theorem cdSwapDone_swaps {e : Nat} (he : e < 48) (reversed : Bool) (s : State) :
    Acts e eventParts s (s.cdSwapDone e reversed) ∧ ((s.cdSwapDone e reversed).eng e).eq = (s.eng e).eq.swapped reversed
      ∧ Raised .cdSwapDone .engine e (wi ((s.eng e).eq.swapped reversed).cdActive.d ++ w1 (b2n reversed) ++ w2 s.tn) s.tn
          (s.cdSwapDone e reversed) := by
  refine ⟨((acts_modEq ..).mono (by simp)).trans (acts_raise ..), ?_, raised_raise_tn rfl⟩
  unfold State.cdSwapDone
  rw [State.eng_raise, State.eng_modEq_same he]
  rfl
theorem applyCdSwap_starts {c : Cmd} {s : State} {b : CdBank} (hfade : (s.eng (cIdx c)).eq.fade = none)
    (hshadow : (s.eng (cIdx c)).eq.cdShadow = some b) (hx : (s.eng (cIdx c)).eq.xfade ≠ 0) :
    applyCdSwap c s = s.modEq (cIdx c) (fun q => { q with
      fade := some { x := q.xfade, w := 1, rising := true }, slewing := false }) := by
  simp [applyCdSwap, hfade, hshadow, hx]
theorem applyCdSwap_exchanges {c : Cmd} {s : State} {b : CdBank} (hfade : (s.eng (cIdx c)).eq.fade = none)
    (hshadow : (s.eng (cIdx c)).eq.cdShadow = some b) (hx : (s.eng (cIdx c)).eq.xfade = 0) :
    applyCdSwap c s = s.cdSwapDone (cIdx c) false := by
  simp [applyCdSwap, hfade, hshadow, hx]
theorem applyCdSwap_reverses {c : Cmd} {s : State} {f : Fade} (hfade : (s.eng (cIdx c)).eq.fade = some f) (hover : f.over = false)
    (hrising : f.rising = true) :
    applyCdSwap c s = (s.modEq (cIdx c) (fun q => { q with fade := some { f with w := f.w - 2, rising := false } })).raise
      .cdSwapReversed .engine (cIdx c) (w1 (f.w - 2) ++ w2 s.tn) := by
  simp [applyCdSwap, hfade, hover, hrising]
theorem applyCdSwap_resumes {c : Cmd} {s : State} {f : Fade} (hfade : (s.eng (cIdx c)).eq.fade = some f) (hover : f.over = false)
    (hrising : f.rising = false) :
    applyCdSwap c s = s.modEq (cIdx c) (fun q => { q with fade := some { f with w := min f.x (f.w + 2), rising := true } }) := by
  simp [applyCdSwap, hfade, hover, hrising]
theorem boundaryEffect_rxfe : boundaryEffect 0x115 = applyRxfe :=
  boundaryEffect_of_row opTable_EngineRxfeSet rfl (by decide) (by decide)
theorem boundaryEffect_cdSwap : boundaryEffect 0x118 = applyCdSwap :=
  boundaryEffect_of_row opTable_EngineCdSwap rfl (by decide) (by decide)
/-- Without a fade a swap exchanges the banks at once (R184). -/
theorem cdSwap_exchanges {c : Cmd} {s : State} {b : CdBank} (hlt : cIdx c < 48) (hfade : (s.eng (cIdx c)).eq.fade = none)
    (hshadow : (s.eng (cIdx c)).eq.cdShadow = some b) (hx : (s.eng (cIdx c)).eq.xfade = 0) :
    TakesEffect 0x118 c (.engines :: eventParts) (fun t => (t.eng (cIdx c)).eq = (s.eng (cIdx c)).eq.swapped false
      ∧ Raised .cdSwapDone .engine (cIdx c) (wi b.d ++ w1 0 ++ w2 s.tn) s.tn t ∧ OtherEngines (cIdx c) s t) s := by
  refine takesEffect_at_engine boundaryEffect_cdSwap (by decide) (fun u hu htn => ?_) (fun u v heng htold ⟨heq, hraised, hothers⟩ => ?_)
  · obtain ⟨hacts, heq, hraised⟩ := cdSwapDone_swaps hlt false u
    have hactive : ((u.eng (cIdx c)).eq.swapped false).cdActive = b := by rw [hu]; simp [Equaliser.swapped, hshadow]
    rw [hactive, htn] at hraised
    rw [applyCdSwap_exchanges (by rw [hu, hfade]) (by rw [hu, hshadow]) (by rw [hu, hx])]
    exact ⟨hacts, heq.trans (by rw [hu]), hraised, fun j hj => (hacts.within.2 j hj).trans (hu j)⟩
  · exact ⟨(congrArg Engine.eq (heng _)).trans heq, htold.raised _ _ _ _ _ hraised, fun j hj => (heng j).trans (hothers j hj)⟩
/-- On a rising fade that is not over a swap turns it back and tells so (R185). -/
theorem cdSwap_reverses {c : Cmd} {s : State} {f : Fade} (hlt : cIdx c < 48) (hfade : (s.eng (cIdx c)).eq.fade = some f)
    (hover : f.over = false) (hrising : f.rising = true) :
    TakesEffect 0x118 c (.engines :: eventParts) (fun t =>
      t.eng (cIdx c) = { s.eng (cIdx c) with eq := { (s.eng (cIdx c)).eq with fade := some { f with w := f.w - 2, rising := false } } }
      ∧ Raised .cdSwapReversed .engine (cIdx c) (w1 (f.w - 2) ++ w2 s.tn) s.tn t ∧ OtherEngines (cIdx c) s t) s := by
  refine takesEffect_at_engine boundaryEffect_cdSwap (by decide) (fun u hu htn => ?_) (fun u v heng htold ⟨hset, hraised, hothers⟩ => ?_)
  · rw [applyCdSwap_reverses (by rw [hu, hfade]) hover hrising, htn]
    generalize hv : u.modEq (cIdx c) _ = v
    have huv : Acts (cIdx c) [] u v := hv ▸ acts_modEq ..
    have hset : v.eng (cIdx c) = _ := hv ▸ State.eng_modEq_same hlt ..
    rw [hu] at hset
    exact ⟨(huv.mono (by simp)).trans (acts_raise ..), (State.eng_raise ..).trans hset, raised_raise_tn (huv.tn.trans htn),
      fun j hj => (State.eng_raise ..).trans ((huv.within.2 j hj).trans (hu j))⟩
  · exact ⟨(heng _).trans hset, htold.raised _ _ _ _ _ hraised, fun j hj => (heng j).trans (hothers j hj)⟩

/-- Settles O23: each command by the kind of its effect, and the swap at its boundary by what it finds of a fade. -/
theorem equaliserCommands : Obligations.EqualiserCommands := by
  intro c s
  refine ⟨fun h => ?_, fun h => ?_, fun h => ?_, fun h => ?_, cdLoad_begins, fun h => ?_, fun hlt => ⟨fun hkeep => ?_, fun hkeep => ?_, ?_, ?_,
    fun b hfade hshadow => ⟨fun hx => ?_, fun hx => ?_⟩, fun f hfade hover => ⟨cdSwap_reverses hlt hfade hover, fun hrising => ?_⟩⟩⟩
  · exact armsAnd_engine h rfl rfl rfl
  · exact arms_boundary specEngineCdSet 0x116 _ c s h rfl rfl
  · exact arms_boundary specEngineCdSwap 0x118 _ c s h rfl rfl
  · exact arms_boundary specEngineEqSet 0x119 _ c s h rfl rfl
  · exact reports_now specEngineRxQuality _ c s _ h rfl rfl rfl (by simp [List.range_succ])
  · exact eqChange_at hlt boundaryEffect_rxfe (fun u hu => if_neg (by simp [hu, hkeep]))
  · refine engineChange_at boundaryEffect_rxfe (fun u hu => ?_)
    rw [applyRxfe, hu, if_pos hkeep]
    exact ⟨.refl .., hu⟩
  · exact engineChange_of 0x116 _ _ c s hlt (boundaryEffect_of_row opTable_EngineCdSet rfl (by decide) (by decide)) (fun _ => rfl)
  · exact engineChange_of 0x119 _ _ c s hlt (boundaryEffect_of_row opTable_EngineEqSet rfl (by decide) (by decide)) (fun _ => rfl)
  · exact eqChange_at hlt boundaryEffect_cdSwap (fun u hu => applyCdSwap_starts (by rw [hu, hfade]) (by rw [hu, hshadow]) (hu ▸ hx))
  · refine (cdSwap_exchanges hlt hfade hshadow hx).imp (fun t ⟨heq, hraised, hothers⟩ => ?_)
    rw [heq]
    exact ⟨by simp [Equaliser.swapped, hshadow], rfl, rfl, hraised, hothers⟩
  · exact eqChange_at hlt boundaryEffect_cdSwap (fun u hu => applyCdSwap_resumes (by rw [hu, hfade]) hover hrising)
end Sys2Proof.Machine
end

section
/-! The happenings of Receive Equalisation (O24). -/
namespace Sys2Proof.Machine

/-- A change of the equaliser that an event tells. -/
theorem modEq_raise_atEngine {e : Fin 48} {ev : Ev} {ws : List Word} (f : Equaliser → Equaliser) (s : State) :
    AtEngine e eventParts (fun t => t.eng e = { s.eng e with eq := f (s.eng e).eq } ∧ Raised ev .engine e ws s.tn t) s
      (.next ((s.modEq e f).raise ev .engine e ws)) :=
  (((acts_modEq ..).mono (by simp)).trans (acts_raise ..)).atEngine
    ⟨(State.eng_raise ..).trans (State.eng_modEq_same e.isLt ..), raised_raise_tn rfl⟩

/-! ### The end of a swap and of its slew (R184 to R187) -/

/-- The first step of the slew leaves the banks and the fade. -/
theorem Equaliser.slewStep_banks (q : Equaliser) :
    q.slewStep.cdActive = q.cdActive ∧ q.slewStep.cdShadow = q.cdShadow ∧ q.slewStep.fade = q.fade := by
  unfold Equaliser.slewStep
  split <;> exact ⟨rfl, rfl, rfl⟩
theorem cdSwapEnd_swaps {e : Nat} (he : e < 48) (reversed : Bool) (s : State) :
    Acts e eventParts s (s.cdSwapEnd e reversed) ∧ ((s.cdSwapEnd e reversed).eng e).eq = ((s.eng e).eq.swapped reversed).slewStep
      ∧ Raised .cdSwapDone .engine e (wi ((s.eng e).eq.swapped reversed).cdActive.d ++ w1 (b2n reversed) ++ w2 s.tn) s.tn
          (s.cdSwapEnd e reversed) := by
  obtain ⟨hacts, heq, hraised⟩ := cdSwapDone_swaps he reversed s
  have hslew := acts_modEq e Equaliser.slewStep (s.cdSwapDone e reversed)
  refine ⟨hacts.trans (hslew.mono (by simp)), ?_, hslew.told.raised _ _ _ _ _ hraised⟩
  rw [State.cdSwapEnd, State.eng_modEq_same he, heq]
theorem exec_cdSwapDone {e : Fin 48} {s : State} {f : Fade} (hfade : (s.eng e).eq.fade = some f) (hover : f.over = true) :
    exec (.cdSwapDone e) s = .next (s.cdSwapEnd e (!f.rising)) := by
  have hexec : exec (.cdSwapDone e) s = execCdSwapDone e s := rfl
  rw [hexec, execCdSwapDone]
  simp only [hfade, hover, if_true]
/-- After a rising fade the banks have exchanged; a reversal that is over leaves them. -/
theorem cdSwapDone_ends {e : Fin 48} {s : State} {f : Fade} (hfade : (s.eng e).eq.fade = some f) (hover : f.over = true) :
    AtEngine e eventParts (fun t => (t.eng e).eq.fade = none
      ∧ (t.eng e).eq.cdActive = (if f.rising then (s.eng e).eq.cdShadow.getD (s.eng e).eq.cdActive else (s.eng e).eq.cdActive)
      ∧ (t.eng e).eq.cdShadow = (if f.rising then some (s.eng e).eq.cdActive else (s.eng e).eq.cdShadow)
      ∧ Raised .cdSwapDone .engine e (wi (t.eng e).eq.cdActive.d ++ w1 (if f.rising then 0 else 1) ++ w2 s.tn) s.tn t) s
      (exec (.cdSwapDone e) s) := by
  rw [exec_cdSwapDone hfade hover]
  obtain ⟨hacts, heq, hraised⟩ := cdSwapEnd_swaps e.isLt (!f.rising) s
  obtain ⟨hactive, hshadow, hnone⟩ := ((s.eng e).eq.swapped (!f.rising)).slewStep_banks
  refine hacts.atEngine ?_
  rw [heq, hactive, hshadow, hnone]
  obtain ⟨x, w, rising⟩ := f
  cases rising with
  | true => exact ⟨rfl, rfl, rfl, hraised⟩
  | false => exact ⟨rfl, rfl, rfl, hraised⟩
theorem exec_cdDelaySettled {e : Fin 48} {s : State} (hslewing : (s.eng e).eq.slewing = true) (hfade : (s.eng e).eq.fade = none)
    (halign : (s.eng e).eq.align = 64 * alignSamples (s.eng e).eq.cdActive) :
    exec (.cdDelaySettled e) s = .next ((s.modEq e (fun q => { q with slewing := false })).raise .cdDelaySettled .engine e
      (w1 (alignSamples (s.eng e).eq.cdActive) ++ wi2 (rxCdDelay (64 * alignSamples (s.eng e).eq.cdActive)) ++ w2 s.tn)) := by
  have hexec : exec (.cdDelaySettled e) s = execCdDelaySettled e s := rfl
  rw [hexec, execCdDelaySettled]
  simp [hslewing, hfade, halign]

/-! ### The filter of a load (R183) -/

theorem exec_cdFilterReady {e : Fin 48} {s : State} {b : CdBank} (hloading : (s.eng e).eq.cdLoading = some b) :
    exec (.cdFilterReady e) s =
      .next ((s.modEq e (fun q => { q with cdShadow := some b, cdLoading := none })).finishJobs (jobOn 0x117 e) .ok 0 []) := by
  have hexec : exec (.cdFilterReady e) s = execCdFilterReady e s := rfl
  rw [hexec, execCdFilterReady]
  simp only [hloading]
  rfl
/-- The loaded filter is in the shadow bank, and the commands that load it have ended. -/
theorem cdFilterReady_ends {e : Fin 48} {s : State} {b : CdBank} (hloading : (s.eng e).eq.cdLoading = some b) :
    AtEngine e [.jobs, .responses, .queueRegs, .msix, .alertN] (fun t =>
      t.eng e = { s.eng e with eq := { (s.eng e).eq with cdShadow := some b, cdLoading := none } }
      ∧ ∀ j ∈ s.proto.jobs, j.ticket.opcode = 0x117 → cIdx j.cmd = e → Ended j .ok 0 s.tn [] t) s (exec (.cdFilterReady e) s) := by
  have hset := acts_modEq e (fun q => { q with cdShadow := some b, cdLoading := none }) s
  rw [exec_cdFilterReady hloading]
  refine ((hset.mono (by simp)).trans ((acts_finishJobs ..).mono (by decide))).atEngine ⟨?_, fun j hj hop hidx => ?_⟩
  · rw [State.eng_finishJobs, State.eng_modEq_same e.isLt]
  · exact ended_finishJobs (s := s.modEq e (fun q => { q with cdShadow := some b, cdLoading := none })) .ok 0 [] hj
      ((jobOn_iff ..).mpr ⟨hop, hidx⟩)

/-! ### Tracking of the dispersion (R188) -/

/-- The run of residuals beyond the threshold. -/
def Equaliser.runAfter (r : Int) (q : Equaliser) : Nat := if q.trackThresh < r.natAbs then q.residualRun + 1 else 0
/-- The engine's estimate and its run of residuals after a residual, nothing being frozen. -/
def State.cdTracked (e : Nat) (r : Int) (s : State) : State :=
  ((s.modEq e (fun q => { q with estimatedAt := some s.ticks })).modEq e (fun q => { q with
    est := { q.est with cdEst := clampI (-51000) 51000 (roundDiv (q.cdActive.d + r) 2) } })).modEq e (fun q => { q with
    residualRun := (s.eng e).eq.runAfter r })
theorem acts_cdTracked (e : Nat) (r : Int) (s : State) : Acts e [] s (s.cdTracked e r) :=
  ((acts_modEq ..).trans (acts_modEq ..)).trans (acts_modEq ..)
theorem State.eng_cdTracked {e : Nat} (he : e < 48) (r : Int) (s : State) :
    (s.cdTracked e r).eng e = { s.eng e with eq := { (s.eng e).eq with
      est := { (s.eng e).eq.est with cdEst := clampI (-51000) 51000 (roundDiv ((s.eng e).eq.cdActive.d + r) 2) }
      estimatedAt := some s.ticks, residualRun := (s.eng e).eq.runAfter r } } := by
  simp only [State.cdTracked, State.eng_modEq_same he]
/-- D of the bank that tracking loads: within 2,000 ps/nm of the active one (R188). -/
def CdBank.trackTo (b : CdBank) (r : Int) : Int :=
  clampI (-100000) 100000 (b.d + clampI (-2000) 2000 (2 * roundDiv (b.d + r) 2 - b.d))
/-- The swap that tracking arms for an engine. -/
def ownSwapArmed (e tn : Nat) : Armed :=
  { due := tn + 8, key := { cls := 0x118, kind := 1, index := e, sub := 0 }, opcode := 0x118, cmd := ownSwap e, ticket := none }
/-- The shadow bank holds D, a load of it that was running has ended, and the run of residuals starts anew. -/
def State.cdTrackLoaded (e : Nat) (d : Int) (s : State) : State :=
  let u := s.finishJobs (jobOn 0x117 e) .cancelled (Ev.code .cdTrackSwap) []
  u.modEq e (fun q => { q with cdShadow := some { d := d, centreN := u.slotCentre e }, cdLoading := none, residualRun := 0 })
/-- Tracking swaps to D at TN + 8 (R188). -/
def State.cdTrackSwap (e : Nat) (old d : Int) (s : State) : State :=
  let v := (s.cdTrackLoaded e d).arm (ownSwapArmed e (s.cdTrackLoaded e d).tn)
  (v.raise .cdTrackSwap .engine e (wi old ++ wi d ++ w2 (v.tn + 8))).count .cdTrackSwaps .engine e 1
/-- A residual at a multiple of 64 of an engine in frame, before another in the same tick and nothing being frozen. -/
structure Engine.Tracks (g : Engine) (s : State) : Prop where
  multiple : s.tn % 64 = 0
  once : g.eq.estimatedAt ≠ some s.ticks
  inFrame : g.inFrame = true
  unfrozen : g.eq.freeze.any = false
  unheld : g.eq.freeze.holdsCd = false
theorem FreezeFlags.holdsTrack_of_any {f : FreezeFlags} (h : f.any = false) : f.holdsTrack = false := by
  simp only [FreezeFlags.any, Bool.or_eq_false_iff] at h
  simp [FreezeFlags.holdsTrack, h]
theorem exec_cdTrackEstimate {e : Fin 48} {r : Int} {s : State} (h : (s.eng e).Tracks s) :
    exec (.cdTrackEstimate e r) s = .next (if (s.eng e).eq.cdAuto = true ∧ ¬ s.cdPending e = true ∧ (s.eng e).eq.fade = none
        ∧ ¬ (s.eng e).eq.slewing = true ∧ 4 ≤ (s.eng e).eq.runAfter r
      then (s.cdTracked e r).cdTrackSwap e (s.eng e).eq.cdActive.d ((s.eng e).eq.cdActive.trackTo r) else s.cdTracked e r) := by
  obtain ⟨hmultiple, honce, hframe, hunfrozen, hunheld⟩ := h
  have htrack := FreezeFlags.holdsTrack_of_any hunfrozen
  have hexec : exec (.cdTrackEstimate e r) s = execCdTrackEstimate e r s := rfl
  rw [hexec, execCdTrackEstimate]
  dsimp only
  rw [if_pos ⟨hmultiple, honce⟩]
  simp only [hframe, hunfrozen, hunheld, htrack, Bool.not_true, Bool.or_self, Bool.false_eq_true, if_false, true_and, not_false_eq_true]
  exact (apply_ite Host.Outcome.next ..).symm
theorem cdTrackLoaded_loads {e : Nat} (he : e < 48) (d : Int) (s : State) :
    Acts e (.jobs :: finalParts) s (s.cdTrackLoaded e d) ∧ ((s.cdTrackLoaded e d).eng e).eq.residualRun = 0
      ∧ ((s.cdTrackLoaded e d).eng e).eq.cdShadow = some { d := d, centreN := s.slotCentre e } := by
  unfold State.cdTrackLoaded
  have hended := acts_finishJobs e (jobOn 0x117 e) .cancelled (Ev.code .cdTrackSwap) [] s
  have hcentre := State.slotCentre_of_same (hended.within.1 .map (by decide)) e
  generalize s.finishJobs (jobOn 0x117 e) .cancelled (Ev.code .cdTrackSwap) [] = u at *
  dsimp only
  rw [hcentre, State.eng_modEq_same he]
  exact ⟨hended.trans ((acts_modEq ..).mono (by simp)), rfl, rfl⟩
theorem mem_armed_arm (a : Armed) (s : State) : a ∈ (s.arm a).proto.armed := by simp [arm_armed]
theorem cdTrackSwap_swaps {e : Nat} (he : e < 48) (old d : Int) (s : State) :
    Acts e (.armed :: .jobs :: .responses :: eventParts) s (s.cdTrackSwap e old d)
      ∧ ownSwapArmed e s.tn ∈ (s.cdTrackSwap e old d).proto.armed ∧ ((s.cdTrackSwap e old d).eng e).eq.residualRun = 0
      ∧ Counted .cdTrackSwaps .engine e 1 (s.cdTrackSwap e old d)
      ∧ ((s.cdTrackSwap e old d).eng e).eq.cdShadow = some { d := d, centreN := s.slotCentre e } := by
  obtain ⟨hloaded, hrun, hshadow⟩ := cdTrackLoaded_loads he d s
  unfold State.cdTrackSwap
  rw [hloaded.tn]
  generalize s.cdTrackLoaded e d = u at *
  refine ⟨?_, ?_, ?_, (counted_count _ _ _ _ _ Nat.one_ne_zero).1, ?_⟩
  · exact (((hloaded.mono (by decide)).trans ((acts_arm ..).mono (by decide))).trans ((acts_raise ..).mono (by simp +contextual))).trans
      ((acts_count ..).mono (by decide))
  · rw [State.count_proto, State.raise_proto_armed]
    exact mem_armed_arm ..
  · rw [State.eng_count, State.eng_raise, State.eng_arm, hrun]
  · rw [State.eng_count, State.eng_raise, State.eng_arm, hshadow]
theorem clampI_bounds {lo hi : Int} (h : lo ≤ hi) (z : Int) : lo ≤ clampI lo hi z ∧ clampI lo hi z ≤ hi := by
  unfold clampI
  split_ifs <;> omega
/-- In MANUAL a residual sets the estimate and the run alone. -/
theorem cdTrackEstimate_manual {e : Fin 48} {r : Int} {s : State} (h : (s.eng e).Tracks s) (hauto : (s.eng e).eq.cdAuto = false) :
    AtEngine e [] (fun t => t.eng e = { s.eng e with eq := { (s.eng e).eq with
      est := { (s.eng e).eq.est with cdEst := clampI (-51000) 51000 (roundDiv ((s.eng e).eq.cdActive.d + r) 2) }
      estimatedAt := some s.ticks, residualRun := (s.eng e).eq.runAfter r } }) s (exec (.cdTrackEstimate e r) s) := by
  rw [exec_cdTrackEstimate h, if_neg (by simp [hauto])]
  exact (acts_cdTracked ..).atEngine (State.eng_cdTracked e.isLt ..)
/-- In AUTO the fourth residual in a row beyond the threshold arms a swap, where none is pending or under way. -/
theorem cdTrackEstimate_swaps {e : Fin 48} {r : Int} {s : State} (h : (s.eng e).Tracks s) (hauto : (s.eng e).eq.cdAuto = true)
    (hpending : s.cdPending e = false) (hfade : (s.eng e).eq.fade = none) (hslewing : (s.eng e).eq.slewing = false)
    (hrun : 3 ≤ (s.eng e).eq.residualRun) (hbeyond : (s.eng e).eq.trackThresh < r.natAbs) :
    AtEngine e (.armed :: .jobs :: .responses :: eventParts) (fun t =>
      (∃ a ∈ t.proto.armed, a.due = s.tn + 8 ∧ a.opcode = 0x118 ∧ a.key = { cls := 0x118, kind := 1, index := e, sub := 0 })
      ∧ (t.eng e).eq.residualRun = 0 ∧ Counted .cdTrackSwaps .engine e 1 t
      ∧ ∃ b, (t.eng e).eq.cdShadow = some b ∧ b.centreN = s.slotCentre e ∧ -100000 ≤ b.d ∧ b.d ≤ 100000) s
      (exec (.cdTrackEstimate e r) s) := by
  have hfour : 4 ≤ (s.eng e).eq.runAfter r := by simpa [Equaliser.runAfter, hbeyond] using hrun
  rw [exec_cdTrackEstimate h, if_pos ⟨hauto, by simp [hpending], hfade, by simp [hslewing], hfour⟩]
  have htracked := acts_cdTracked e r s
  obtain ⟨hacts, harmed, hzero, hcounted, hshadow⟩ :=
    cdTrackSwap_swaps e.isLt (s.eng e).eq.cdActive.d ((s.eng e).eq.cdActive.trackTo r) (s.cdTracked e r)
  rw [htracked.tn] at harmed
  exact ((htracked.mono (by simp)).trans hacts).atEngine
    ⟨⟨_, harmed, rfl, rfl, rfl⟩, hzero, hcounted, _, hshadow, rfl, clampI_bounds (by decide) _⟩

/-! ### The estimates (R202) -/

theorem exec_estimatorUpdate {e : Fin 48} {m : QualityMeas} {s : State} (hmultiple : s.tn % 64 = 0) (hframe : (s.eng e).inFrame = true) :
    exec (.estimatorUpdate e m) s = .next (s.modEq e (fun q => { q with est := { q.est with
      snr := if q.freeze.holdsSnr then q.est.snr else q.snrNow
      dgd := if q.freeze.holdsSnr then q.est.dgd else min 4000 m.dgd
      pdl := if q.freeze.holdsSnr then q.est.pdl else min 100 m.pdl } })) := if_pos ⟨hmultiple, hframe⟩

/-! ### Automatic front-end correction (R180) -/

/-- A correction moved toward its estimate and kept in its range moves by at most its step. -/
theorem toward_clamped {m lo hi v : Int} (hm : 0 ≤ m) (hlo : lo ≤ v) (hhi : v ≤ hi) (t : Int) :
    v - m ≤ clampI lo hi (toward m v t) ∧ clampI lo hi (toward m v t) ≤ v + m := by
  have hstep := clampI_bounds (show -m ≤ m by omega) (t - v)
  unfold toward
  generalize clampI (-m) m (t - v) = d at hstep ⊢
  unfold clampI
  split_ifs <;> omega
theorem mem_zipWith_toward {m lo hi x : Int} {l l' : List Int} (hx : x ∈ (List.zipWith (toward m) l l').map (clampI lo hi)) :
    ∃ v ∈ l, ∃ t, x = clampI lo hi (toward m v t) := by
  obtain ⟨y, hy, rfl⟩ := List.mem_map.mp hx
  rw [← List.map_uncurry_zip_eq_zipWith] at hy
  obtain ⟨⟨v, t⟩, hvt, rfl⟩ := List.mem_map.mp hy
  exact ⟨v, (List.of_mem_zip hvt).1, t, rfl⟩
/-- The skews applied have mean 0. -/
theorem skewLessMean_sum {l : List Int} (h : l.length = 4) : (skewLessMean l).sum = 0 := by
  obtain ⟨a, b, c, d, rfl⟩ := List.length_eq_four.mp h
  simp [skewLessMean]
  omega
theorem exec_rxFeAutoUpdate {e : Fin 48} {m : FeEstimate} {s : State} (hauto : (s.eng e).eq.rxFeAuto = true)
    (hbrace : (s.eng e).eq.freeze.brace = false) (hdue : ∀ t0, (s.eng e).eq.lastFeUpdate = some t0 → t0 + 625 ≤ s.ticks) :
    exec (.rxFeAutoUpdate e m) s = .next (s.modEq e (fun q => { q with
      rxSkew := (List.zipWith (toward 5) (s.eng e).eq.rxSkew m.skew).map (clampI (-4000) 4000)
      skewApplied := skewLessMean ((List.zipWith (toward 5) (s.eng e).eq.rxSkew m.skew).map (clampI (-4000) 4000))
      rxIqGain := (List.zipWith (toward 1) q.rxIqGain m.gain).map (clampI (-100) 100)
      rxIqPhase := (List.zipWith (toward 1) q.rxIqPhase m.phase).map (clampI (-1000) 1000), lastFeUpdate := some s.ticks })) := by
  have hlast : (s.eng e).eq.lastFeUpdate.all (fun t => decide (t + 625 ≤ s.ticks)) = true := by simpa [Option.all_eq_true] using hdue
  have hexec : exec (.rxFeAutoUpdate e m) s = execRxFeAutoUpdate e m s := rfl
  rw [hexec, execRxFeAutoUpdate]
  dsimp only
  rw [if_pos (by simp only [hauto, hbrace, hlast, Bool.not_false, Bool.and_self])]
theorem rxFeAutoUpdate_moves {e : Fin 48} {m : FeEstimate} {s : State} (hauto : (s.eng e).eq.rxFeAuto = true)
    (hbrace : (s.eng e).eq.freeze.brace = false) (hdue : ∀ t0, (s.eng e).eq.lastFeUpdate = some t0 → t0 + 625 ≤ s.ticks) :
    AtEngine e [] (fun t => (t.eng e).eq.lastFeUpdate = some s.ticks
      ∧ (t.eng e).eq.rxSkew = (List.zipWith (toward 5) (s.eng e).eq.rxSkew m.skew).map (clampI (-4000) 4000)
      ∧ (t.eng e).eq.rxIqGain = (List.zipWith (toward 1) (s.eng e).eq.rxIqGain m.gain).map (clampI (-100) 100)
      ∧ (t.eng e).eq.rxIqPhase = (List.zipWith (toward 1) (s.eng e).eq.rxIqPhase m.phase).map (clampI (-1000) 1000)
      ∧ (∀ x ∈ (t.eng e).eq.rxSkew, -4000 ≤ x ∧ x ≤ 4000
          ∧ ∃ v ∈ (s.eng e).eq.rxSkew, -4000 ≤ v → v ≤ 4000 → v - 5 ≤ x ∧ x ≤ v + 5)
      ∧ ((s.eng e).eq.rxSkew.length = 4 → m.skew.length = 4 → (t.eng e).eq.skewApplied.sum = 0)) s (exec (.rxFeAutoUpdate e m) s) := by
  rw [exec_rxFeAutoUpdate hauto hbrace hdue]
  refine (acts_modEq ..).atEngine ?_
  rw [State.eng_modEq_same e.isLt]
  refine ⟨rfl, rfl, rfl, rfl, fun x hx => ?_, fun hskew hmeas => skewLessMean_sum (by simp [hskew, hmeas])⟩
  obtain ⟨v, hv, t, rfl⟩ := mem_zipWith_toward hx
  obtain ⟨hlo, hhi⟩ := clampI_bounds (show (-4000 : Int) ≤ 4000 by decide) (toward 5 v t)
  exact ⟨hlo, hhi, v, hv, fun hvlo hvhi => toward_clamped (by decide) hvlo hvhi t⟩

/-! ### The end of a freeze (R200) -/

theorem exec_rxThaw {e : Fin 48} {s : State} {t0 : Nat} (hstart : (s.eng e).eq.freezeStart = some t0)
    (hthawed : (s.eng e).eq.freeze.any = false) :
    exec (.rxThaw e) s = .next ((s.modEq e (fun q => { q with freezeStart := none })).raise .rxThaw .engine e
      (w1 (s.eng e).eq.frozenTicks ++ w2 s.tn)) := by
  have hexec : exec (.rxThaw e) s = execRxThaw e s := rfl
  rw [hexec, execRxThaw]
  simp only [hstart, hthawed]
  rfl

/-- Settles O24: each row is the step it makes where its condition holds, and that step brings what the statement asks. -/
theorem equaliserHappenings : Obligations.EqualiserHappenings := by
  intro e s
  refine ⟨fun f => cdSwapDone_ends, fun hslewing hfade halign => ?_, fun b => cdFilterReady_ends,
    fun r hmultiple honce hframe hunfrozen hunheld => ⟨cdTrackEstimate_manual ⟨hmultiple, honce, hframe, hunfrozen, hunheld⟩,
      cdTrackEstimate_swaps ⟨hmultiple, honce, hframe, hunfrozen, hunheld⟩⟩,
    fun m hmultiple hframe => ?_, fun m => rxFeAutoUpdate_moves, fun t0 hstart hthawed => ?_⟩
  · exact exec_cdDelaySettled hslewing hfade halign ▸ modEq_raise_atEngine ..
  · rw [exec_estimatorUpdate hmultiple hframe]
    exact (acts_modEq ..).atEngine (State.eng_modEq_same e.isLt ..)
  · exact exec_rxThaw hstart hthawed ▸ modEq_raise_atEngine ..
end Sys2Proof.Machine
end

section
/-! What the steps of the line converters keep (O45, O46): where the units stand, and what waits to be applied. -/
namespace Sys2Proof.Machine

/-! ### Where the units stand -/

/-- A read of an array after an update keeps what the update keeps. -/
theorem vget_vmod_of {α β : Type} {n : Nat} (g : α → β) (v : Vector α n) (i : Nat) (f : α → α) (j : Nat) (d : α)
    (h : ∀ x, g (f x) = g x) : g (vget (vmod v i f) j d) = g (vget v j d) := by
  by_cases hj : j = i
  · subst hj
    by_cases hlt : j < n
    · rw [vget_vmod_same _ _ _ _ hlt, h]
    · rw [vmod_out _ _ _ hlt]
  · rw [vget_vmod_ne _ _ _ _ _ hj]
/-- Where the units of a pool stand. -/
structure Places where
  inService : List Nat
  spare : List Nat
  retired : List Nat
def UnitPool.places (p : UnitPool) : Places := { inService := p.inService, spare := p.spare, retired := p.retired }
/-- Where the units of each pool of a converter stand. -/
def Converter.places (k : Converter) (u : UnitRef) : Places := (k.pool u).places
theorem Converter.places_modPool (u : UnitRef) (f : UnitPool → UnitPool) (k : Converter)
    (h : ∀ p, (f p).places = p.places := by intro p; rfl) : (k.modPool u f).places = k.places := by
  funext w
  unfold Converter.modPool
  split
  · cases hw : w.dac <;> simp [Converter.places, Converter.pool, hw, vget_vmod_of UnitPool.places _ _ _ _ _ h]
  · cases hw : w.dac <;> simp [Converter.places, Converter.pool, hw, vget_vmod_of UnitPool.places _ _ _ _ _ h]
/-- A loaded layer that overrules a window leaves every unit in its place (Table 7.6). -/
theorem Converter.places_discardWindow (now : Nat) (k : Converter) : (k.discardWindow now).places = k.places := by
  funext w
  unfold Converter.discardWindow
  dsimp only
  split
  · simp only [Converter.places, Converter.pool, vget]
    (repeat' split) <;> simp [UnitPool.places]
  · rfl
theorem Converter.skewUnits_of_places {k k' : Converter} (h : k'.places = k.places) (dac : Bool) (lane : Nat) :
    k'.skewUnits dac lane = k.skewUnits dac lane := by
  have hserve := congrArg Places.inService (congrFun h { dac := false, lane := lane, sub := 0, unit := 0 })
  simp only [Converter.places, UnitPool.places] at hserve
  simp only [Converter.skewUnits, hserve]

/-! ### Steps that keep what a view shows of the converters -/

/-- A step that acts on engine `e` and the parts of `l` alone, and keeps what `g` shows of its converters. -/
structure ConvStep {β : Type} (g : Converter → β) (e : Nat) (l : List Part) (s t : State) : Prop where
  acts : Acts e l s t
  kept : g (t.eng e).conv = g (s.eng e).conv
section
variable {β : Type} {g : Converter → β} {e : Nat} {l : List Part} {s t u : State}
theorem ConvStep.refl : ConvStep g e l s s := ⟨.refl .., rfl⟩
theorem ConvStep.mono {m : List Part} (h : ConvStep g e l s t) (hl : ∀ p ∈ l, p ∈ m) : ConvStep g e m s t := ⟨h.acts.mono hl, h.kept⟩
theorem ConvStep.trans (h : ConvStep g e l s u) (h' : ConvStep g e l u t) : ConvStep g e l s t :=
  ⟨h.acts.trans h'.acts, h'.kept.trans h.kept⟩
theorem ConvStep.foldl {α : Type} {f : State → α → State} (h : ∀ s a, ConvStep g e l s (f s a)) (as : List α) (s : State) :
    ConvStep g e l s (as.foldl f s) :=
  List.foldlRecOn as f .refl (fun _ hu a _ => hu.trans (h _ a))
theorem convStep_ite {b : Prop} {_ : Decidable b} (ht : ConvStep g e l s t) (hu : ConvStep g e l s u) :
    ConvStep g e l s (if b then t else u) := by
  split
  exacts [ht, hu]
/-- A step that leaves the engines. -/
theorem convStep_of_eng (h : Acts e l s t) (heng : t.eng e = s.eng e) : ConvStep g e l s t := ⟨h, by rw [heng]⟩
theorem convStep_raise (ev : Ev) (k : Kind) (i : Nat) (ws : List Word) : ConvStep g e eventParts s (s.raise ev k i ws) :=
  convStep_of_eng (acts_raise ..) (State.eng_raise ..)
theorem convStep_modConv {f : Converter → Converter} (h : ∀ k, g (f k) = g k := by intro k; rfl) : ConvStep g e [] s (s.modConv e f) :=
  ⟨acts_modEng .., State.eng_modEng_of (fun x => g x.conv) _ _ _ _ (fun x => h x.conv)⟩
end
theorem only_refl (l : List Part) (s : State) : Only l s s := fun p _ => by cases p <;> simp [Part.same]
theorem acts_countSub (e : Nat) (c : Ctr) (k : Kind) (i sub n : Nat) (s : State) : Acts e [.happened] s (s.countSub c k i sub n) :=
  ⟨within_happen .., (leaves_happen e ..).keepsTold (by simp [Part.same]), by simp⟩
theorem acts_modConv (e : Nat) (f : Converter → Converter) (s : State) : Acts e [] s (s.modConv e f) := acts_modEng ..
theorem State.eng_modConv_same {e : Nat} (he : e < 48) (f : Converter → Converter) (s : State) :
    (s.modConv e f).eng e = { s.eng e with conv := f (s.eng e).conv } := State.eng_modEng_same _ _ _ he

/-! ### Learned values (R209, R210, R217) -/

/-- A write leaves every other key alone, whatever the keys read that are not listed. -/
theorem cellGet_cellSet_ne {β : Type} [DecidableEq β] {i k : Nat} (hi : i ≠ k) (m : List (Nat × β)) (v d d' : β) :
    cellGet (cellSet m k v d) i d' = cellGet m i d' := by
  induction m with
  | nil => simp only [cellSet]; split <;> simp [cellGet, hi.symm]
  | cons x r ih =>
    obtain ⟨j, b⟩ := x
    simp only [cellSet]
    (repeat' split) <;> simp_all [cellGet, Ne.symm]
/-- Re-centring a lane writes the skews of its units alone. -/
theorem convStep_recentre {β : Type} {g : Converter → β} {e lane : Nat} {dac : Bool} {s : State}
    (hg : ∀ t, t < 8 → ∀ u ∈ (s.eng e).conv.skewUnits dac lane, ∀ v k,
      g (Converter.learn e (learnedIdx t lane (valueWord u 2)) v k) = g k) :
    ConvStep g e [] s (s.recentre e dac lane) := by
  unfold State.recentre
  refine List.foldlRecOn _ _ .refl (fun u hu t ht => hu.trans (convStep_ite .refl ?_))
  refine List.foldlRecOn _ _ .refl (fun v hv i hi => hv.trans (convStep_modConv (fun k => ?_)))
  obtain ⟨w, hw, rfl⟩ := List.mem_map.mp hi
  exact hg t (List.mem_range.mp ht) w hw _ k
/-- Re-centring the lanes of an engine leaves every unit in its place, and keeps what no skew of a unit in service shows. -/
theorem convStep_recentreAll {β : Type} {g : Converter → β} {e : Nat} {s : State}
    (hg : ∀ dac lane t, lane < 4 → t < 8 → ∀ u ∈ (s.eng e).conv.skewUnits dac lane, ∀ v k,
      g (Converter.learn e (learnedIdx t lane (valueWord u 2)) v k) = g k) :
    ConvStep (fun k => (k.places, g k)) e [] s (s.recentreAll e) := by
  have hlane : ∀ u, ConvStep (fun k => (k.places, g k)) e [] s u → ∀ lane, lane < 4 → ∀ dac,
      ConvStep (fun k => (k.places, g k)) e [] s (u.recentre e dac lane) := by
    intro u hu lane hlt dac
    refine hu.trans (convStep_recentre (fun t ht w hw v k => Prod.ext rfl (hg dac lane t hlt ht w ?_ v k)))
    rwa [Converter.skewUnits_of_places (congrArg Prod.fst hu.kept)] at hw
  refine List.foldlRecOn _ _ .refl (fun u hu lane hmem => ?_)
  have hlt := List.mem_range.mp hmem
  exact hlane _ (hlane u hu lane hlt false) lane hlt true
/-- A passing result moves learned values alone. -/
theorem convStep_applyResult {β : Type} {g : Converter → β} {e : Nat} (hg : ∀ i v k, g (Converter.learn e i v k) = g k) (r : CalPending)
    (s : State) : ConvStep g e [] s (s.applyResult e r) := by
  unfold State.applyResult
  exact .foldl (fun s p => convStep_modConv (hg _ _)) _ s
end Sys2Proof.Machine
end

section
/-! The happenings of the line converters (O46). -/
namespace Sys2Proof.Machine

/-! ### The checks of a window (R216, R217) -/

/-- What the checks of a window use and leave, and the results that wait. -/
structure Checked where
  applyAt : Option Nat
  applyMore : Nat
  learned : List (Nat × Int)
  places : UnitRef → Places
  waiting : List CalPending
def Converter.checked (k : Converter) : Checked :=
  { applyAt := k.applyAt, applyMore := k.applyMore, learned := k.learned, places := k.places, waiting := k.waiting }
/-- With further results waiting. -/
def Checked.await (l : List CalPending) (x : Checked) : Checked := { x with waiting := x.waiting ++ l }
theorem Checked.await_nil (x : Checked) : x.await [] = x := by simp [Checked.await]
theorem Checked.await_await (l m : List CalPending) (x : Checked) : (x.await l).await m = x.await (l ++ m) := by simp [Checked.await]
theorem Converter.checked_modPool (u : UnitRef) (f : UnitPool → UnitPool) (k : Converter)
    (h : ∀ p, (f p).places = p.places := by intro p; rfl) : (k.modPool u f).checked = k.checked := by
  have hplaces := k.places_modPool u f h
  unfold Converter.modPool at hplaces ⊢
  split at hplaces <;> simp_all [Converter.checked]
theorem Converter.checked_addDue (d : DueUnit) (k : Converter) : (k.addDue d).checked = k.checked := by
  unfold Converter.addDue
  split <;> rfl
theorem Converter.checked_unitWindow (u : UnitRef) (good : Bool) (k : Converter) : (k.unitWindow u good).checked = k.checked := by
  rw [← k.checked_modPool u (fun p => p.window u.dac u.unit good)]
  unfold Converter.unitWindow
  dsimp only
  split <;> rfl

/-- The checks of R216 use the learned layer and the units in service. -/
theorem State.resultOk_of_same {e : Nat} {s t : State} (hlearned : (t.eng e).conv.learned = (s.eng e).conv.learned)
    (hplaces : (t.eng e).conv.places = (s.eng e).conv.places) (temp : Int) (vars : List (Nat × Nat × Rat)) (m : CalMeas) :
    t.resultOk e temp vars m = s.resultOk e temp vars m := by
  have hat : t.learnedAt e = s.learnedAt e := by funext i; simp only [State.learnedAt, hlearned]
  have hvalue : t.valueAt e = s.valueAt e := by
    funext u v temp
    simp only [State.valueAt, State.interpolated, hat, Converter.skewUnits_of_places hplaces]
  have hserve : ((t.eng e).conv.pool m.unit).inService = ((s.eng e).conv.pool m.unit).inService :=
    congrArg Places.inService (congrFun hplaces m.unit)
  simp only [State.resultOk, hvalue, hserve]
/-- A result of a unit not retired that passes every check. -/
def State.passes (e : Nat) (temp : Int) (vars : List (Nat × Nat × Rat)) (s : State) (m : CalMeas) : Bool :=
  s.resultOk e temp vars m && !((s.eng e).conv.places m.unit).retired.contains m.unit.unit
/-- The result as it waits to be applied. -/
def CalMeas.pending (temp : Int) (m : CalMeas) : CalPending := { unit := m.unit, value := m.value, result := m.result, temp := temp }
theorem State.passes_iff {e : Nat} {temp : Int} {vars : List (Nat × Nat × Rat)} {s : State} {m : CalMeas} :
    s.passes e temp vars m = true ↔ s.resultOk e temp vars m = true ∧ m.unit.unit ∉ ((s.eng e).conv.pool m.unit).retired := by
  simp [State.passes, Converter.places, UnitPool.places]
theorem State.mem_passing {e : Nat} {temp : Int} {vars : List (Nat × Nat × Rat)} {rs : List CalMeas} {s : State} {x : CalPending} :
    x ∈ (rs.filter (s.passes e temp vars)).map (·.pending temp) ↔ ∃ m ∈ rs, s.resultOk e temp vars m = true
      ∧ m.unit.unit ∉ ((s.eng e).conv.pool m.unit).retired ∧ x = m.pending temp := by
  simp only [List.mem_map, List.mem_filter, State.passes_iff, and_assoc, eq_comm (b := x)]
theorem State.passes_of_await {e : Nat} {s t : State} {l : List CalPending} (h : (t.eng e).conv.checked = (s.eng e).conv.checked.await l)
    (temp : Int) (vars : List (Nat × Nat × Rat)) : t.passes e temp vars = s.passes e temp vars := by
  have hplaces := congrArg Checked.places h
  funext m
  unfold State.passes
  rw [State.resultOk_of_same (congrArg Checked.learned h) hplaces, show (t.eng e).conv.places = (s.eng e).conv.places from hplaces]
/-- One check: a result that passes waits, any other is counted and told, and nothing else of `Checked` moves. -/
theorem checkResult_checks {e : Nat} (he : e < 48) (temp : Int) (vars : List (Nat × Nat × Rat)) (s : State) (m : CalMeas) :
    Acts e eventParts s (s.checkResult e temp vars m)
      ∧ ((s.checkResult e temp vars m).eng e).conv.checked
        = (s.eng e).conv.checked.await (if s.passes e temp vars m then [m.pending temp] else []) := by
  have hkept : ∀ t, ConvStep Converter.checked e eventParts s t → ¬s.passes e temp vars m = true →
      Acts e eventParts s t
        ∧ (t.eng e).conv.checked = (s.eng e).conv.checked.await (if s.passes e temp vars m then [m.pending temp] else []) :=
    fun t h hno => ⟨h.acts, by rw [h.kept, if_neg hno, Checked.await_nil]⟩
  unfold State.checkResult
  dsimp only
  split
  case isTrue hretired => exact hkept _ .refl (fun h => (State.passes_iff.mp h).2 (List.contains_iff_mem.mp hretired))
  case isFalse hretired =>
    split
    case isTrue hok =>
      refine ⟨(acts_modConv ..).mono (by simp), ?_⟩
      have hpass : s.passes e temp vars m = true := State.passes_iff.mpr ⟨hok, fun h => hretired (List.contains_iff_mem.mpr h)⟩
      rw [State.eng_modConv_same he, if_pos hpass,
        ← (s.eng e).conv.checked_modPool m.unit (fun p => { p with fails := cellSet p.fails (4 * m.unit.unit + m.value) 0 0 })]
      unfold Converter.modPool
      split <;> rfl
    case isFalse hbad =>
      refine hkept _ ?_ (fun h => hbad (State.passes_iff.mp h).1)
      have hcounted : ∀ c k i sub n (u : State), ConvStep Converter.checked e eventParts u (u.countSub c k i sub n) :=
        fun c k i sub n u => convStep_of_eng ((acts_countSub ..).mono (by decide)) (State.eng_countSub ..)
      refine .trans (.trans (.trans ?failed (hcounted _ _ _ _ _ _)) (convStep_ite (convStep_raise ..) .refl)) (convStep_ite .refl
        (convStep_ite ?due (convStep_ite (.trans ?told (convStep_raise ..)) .refl)))
      case failed => exact (convStep_modConv (fun k => k.checked_modPool _ _)).mono (by simp)
      case due => exact (convStep_modConv (fun k => k.checked_addDue _)).mono (by simp)
      case told => exact (convStep_modConv ..).mono (by simp)
theorem checkResults_check {e : Nat} (he : e < 48) (temp : Int) (vars : List (Nat × Nat × Rat)) (rs : List CalMeas) (s : State) :
    Acts e eventParts s (rs.foldl (fun s m => s.checkResult e temp vars m) s)
      ∧ ((rs.foldl (fun s m => s.checkResult e temp vars m) s).eng e).conv.checked
        = (s.eng e).conv.checked.await ((rs.filter (s.passes e temp vars)).map (·.pending temp)) := by
  induction rs generalizing s with
  | nil => exact ⟨.refl .., (Checked.await_nil _).symm⟩
  | cons m rs ih =>
    obtain ⟨hacts, hchecked⟩ := checkResult_checks he temp vars s m
    obtain ⟨hrest, hfold⟩ := ih (s.checkResult e temp vars m)
    refine ⟨hacts.trans hrest, ?_⟩
    rw [List.foldl_cons, hfold, hchecked, State.passes_of_await hchecked, Checked.await_await, List.filter_cons]
    split <;> simp
/-- The checks of a window: the results that pass wait. -/
theorem checkWindow_checks {e : Nat} (he : e < 48) (vars : List (Nat × Nat × Rat)) (rs : List CalMeas) (s : State) :
    Acts e eventParts s (s.checkWindow e vars rs) ∧ ((s.checkWindow e vars rs).eng e).conv.checked
      = (s.eng e).conv.checked.await ((rs.filter (s.passes e (s.eng e).conv.meanTemp vars)).map (·.pending (s.eng e).conv.meanTemp)) := by
  obtain ⟨hacts, hchecked⟩ := checkResults_check he (s.eng e).conv.meanTemp vars rs s
  have hwindows : ∀ (l : List (UnitRef × Bool)) (u : State),
      ConvStep Converter.checked e [] u (l.foldl (fun s x => s.modConv e (fun k => k.unitWindow x.1 x.2)) u) :=
    .foldl (fun s x => convStep_modConv (fun k => k.checked_unitWindow _ _))
  exact ⟨hacts.trans ((hwindows ..).acts.mono (by simp)), (hwindows ..).kept.trans hchecked⟩
/-- The converters once a window is checked in tick count `now`; `before` are their pools ahead of the checks (R218). -/
def Converter.windowChecked (now : Nat) (before : List UnitPool) (k : Converter) : Converter :=
  { k with
    ended := none, applyAt := some (k.applyAt.getD (now + 1)), applyMore := k.applyMore + b2n k.applyAt.isSome
    prior := if k.applyAt.isSome then k.prior else before }
theorem exec_calWindowCheck {e : Fin 48} {z : FlatCal} {s u : State} {tn : Nat} {va vd : Bool}
    (hended : (s.eng e).conv.ended = some (tn, va, vd)) (htn : s.tn = tn + 1)
    (hu : s.checkWindow e ((s.eng e).conv.variances z) (s.calResults z e va vd) = u) :
    exec (.calWindowCheck e z.offset z.gain z.skew) s =
      .next (u.modConv e (·.windowChecked u.ticks ((s.eng e).conv.adc.toList ++ (s.eng e).conv.dac.toList))) := by
  have hexec : exec (.calWindowCheck e z.offset z.gain z.skew) s = execCalWindowCheck e z.offset z.gain z.skew s := rfl
  rw [hexec, execCalWindowCheck]
  simp only [hended, htn, if_true, hu]
  rfl
/-- The check of a window, as the statement asks it. -/
theorem calWindowCheck_checks {e : Fin 48} {z : FlatCal} {s : State} {tn : Nat} {va vd : Bool}
    (hended : (s.eng e).conv.ended = some (tn, va, vd)) (htn : s.tn = tn + 1) :
    AtEngine e eventParts (fun t => (t.eng e).conv.ended = none
      ∧ (t.eng e).conv.applyAt = some ((s.eng e).conv.applyAt.getD (s.ticks + 1))
      ∧ (t.eng e).conv.applyMore = (s.eng e).conv.applyMore + b2n (s.eng e).conv.applyAt.isSome
      ∧ (t.eng e).conv.learned = (s.eng e).conv.learned
      ∧ (∀ u, ((t.eng e).conv.pool u).inService = ((s.eng e).conv.pool u).inService
          ∧ ((t.eng e).conv.pool u).retired = ((s.eng e).conv.pool u).retired)
      ∧ (∀ x, x ∈ (t.eng e).conv.waiting ↔ x ∈ (s.eng e).conv.waiting ∨ ∃ m ∈ s.calResults z e va vd,
          s.resultOk e (s.eng e).conv.meanTemp ((s.eng e).conv.variances z) m = true
          ∧ m.unit.unit ∉ ((s.eng e).conv.pool m.unit).retired
          ∧ x = { unit := m.unit, value := m.value, result := m.result, temp := (s.eng e).conv.meanTemp })) s
      (exec (.calWindowCheck e z.offset z.gain z.skew) s) := by
  obtain ⟨hacts, hchecked⟩ := checkWindow_checks e.isLt ((s.eng e).conv.variances z) (s.calResults z e va vd) s
  generalize hu : s.checkWindow e ((s.eng e).conv.variances z) (s.calResults z e va vd) = u at *
  rw [exec_calWindowCheck hended htn hu]
  have hticks : u.ticks = s.ticks := hacts.within.1 .ticks (by decide)
  have hat : (u.eng e).conv.applyAt = (s.eng e).conv.applyAt := congrArg Checked.applyAt hchecked
  have hmore : (u.eng e).conv.applyMore = (s.eng e).conv.applyMore := congrArg Checked.applyMore hchecked
  have hplaces : (u.eng e).conv.places = (s.eng e).conv.places := congrArg Checked.places hchecked
  refine (hacts.trans ((acts_modConv ..).mono (by simp))).atEngine ?_
  rw [State.eng_modConv_same e.isLt]
  refine ⟨rfl, by simp only [Converter.windowChecked, hat, hticks], by simp only [Converter.windowChecked, hat, hmore],
    congrArg Checked.learned hchecked,
    fun v => ⟨congrArg Places.inService (congrFun hplaces v), congrArg Places.retired (congrFun hplaces v)⟩,
    fun x => ?_⟩
  have hwaiting : (u.eng e).conv.waiting = (s.eng e).conv.waiting ++ _ := congrArg Checked.waiting hchecked
  exact (iff_of_eq (congrArg (x ∈ ·) hwaiting)).trans (List.mem_append.trans (or_congr_right State.mem_passing))

/-! ### The life record (R224, R225) -/

theorem only_modLife (f : LifeRecord → LifeRecord) (s : State) : Only [.life] s (s.modLife f) :=
  fun p hp => by cases p <;> simp [Part.same] at hp ⊢
theorem only_modRetireQueue (f : List Retirement → List Retirement) (s : State) :
    Only [.kennelRest] s (s.modKennel (fun k => { k with retireQueue := f k.retireQueue })) :=
  fun p hp => by cases p <;> simp [Part.same] at hp ⊢
theorem only_lifeFull (offset : Nat) (s : State) : Only (.life :: eventParts) s (s.lifeFull offset) := by
  unfold State.lifeFull
  split
  · exact only_refl _ _
  · have htold : Only [.life] s (s.modKennel (fun k => { k with fullRaised := offset :: k.fullRaised })) :=
      fun p hp => by cases p <;> simp [Part.same] at hp ⊢
    exact only_trans _ _ _ _ _ htold (only_cons _ _ _ _ (only_raise _ _ _ _ _)) (by simp)
theorem only_lifeBump (o p n : Nat) (get : LifeRecord → Nat) (put : Nat → LifeRecord → LifeRecord) (s : State) :
    Only (.life :: eventParts) s (s.lifeBump o p n get put) := by
  unfold State.lifeBump
  dsimp only
  split
  · exact only_trans _ _ s _ _ (only_modLife _ _) (only_lifeFull _ _) (by simp)
  · exact only_mono (only_modLife _ _) (by simp)
theorem acts_modLife (e : Nat) (f : LifeRecord → LifeRecord) (s : State) : Acts e [.life] s (s.modLife f) :=
  acts_of_same (.of_only (only_modLife _ _) rfl) rfl rfl
theorem acts_modRetireQueue (e : Nat) (f : List Retirement → List Retirement) (s : State) :
    Acts e [.kennelRest] s (s.modKennel (fun k => { k with retireQueue := f k.retireQueue })) :=
  acts_of_same (.of_only (only_modRetireQueue _ _) rfl) rfl rfl
theorem acts_lifeBump (e o p n : Nat) (get : LifeRecord → Nat) (put : Nat → LifeRecord → LifeRecord) (s : State) :
    Acts e (.life :: eventParts) s (s.lifeBump o p n get put) := by
  have honly := only_lifeBump o p n get put s
  have hjobs : (s.lifeBump o p n get put).proto.jobs = s.proto.jobs := honly .jobs (by decide)
  exact ⟨.of_only honly (by simp), ⟨fun _ _ _ _ _ => raised_lifeBump _ _ _ _ _, fun _ _ _ hp =>
    posted_same hp (honly .responses (by decide))⟩, fun j hj => hjobs ▸ hj⟩
/-- The oldest queued entry has left the queue and is counted (R225). -/
def State.entryTaken (q : List Retirement) (s : State) : State :=
  (s.modKennel (fun k => { k with retireQueue := q })).lifeBump 32 4294967295 1 (·.retireCount) (fun v r => { r with retireCount := v })
theorem State.entryTaken_life (q : List Retirement) (s : State) :
    (s.entryTaken q).kennel.life = { s.kennel.life with retireCount := min 4294967295 (s.kennel.life.retireCount + 1) } :=
  State.lifeBump_life ..
theorem exec_retirementEntryWrite {s : State} {r : Retirement} {q : List Retirement} (h : s.kennel.retireQueue = r :: q) :
    exec .retirementEntryWrite s =
      .next (if s.kennel.life.retirements.length < 256 then (s.entryTaken q).modLife (fun l => { l with retirements := l.retirements ++ [r] })
        else (s.entryTaken q).raise .retireListFull .engine r.engine (w1 (r.place * 256 + r.unit))) := by
  have hlist : (s.entryTaken q).kennel.life.retirements = s.kennel.life.retirements := by
    rw [s.entryTaken_life q]
  have hexec : exec .retirementEntryWrite s = execRetirementEntryWrite s := rfl
  rw [hexec, execRetirementEntryWrite, ← hlist]
  simp only [h]
  exact (apply_ite Host.Outcome.next ..).symm
theorem retirementEntryWrite_moves {s : State} {r : Retirement} {q : List Retirement} (h : s.kennel.retireQueue = r :: q) :
    Happens (withEvent [.kennelRest, .life]) (fun t => t.kennel.retireQueue = q
      ∧ t.kennel.life.retireCount = min 4294967295 (s.kennel.life.retireCount + 1)
      ∧ (s.kennel.life.retirements.length < 256 → t.kennel.life.retirements = s.kennel.life.retirements ++ [r])
      ∧ (256 ≤ s.kennel.life.retirements.length → t.kennel.life.retirements = s.kennel.life.retirements
        ∧ Raised .retireListFull .engine r.engine (w1 (r.place * 256 + r.unit)) s.tn t)) s (exec .retirementEntryWrite s) := by
  have hqueue : (s.entryTaken q).kennel.retireQueue = q := by simp [State.entryTaken]
  have hlife := s.entryTaken_life q
  have hcounted : Only (withEvent [.kennelRest, .life]) s (s.entryTaken q) :=
    only_trans _ _ s _ _ (only_modRetireQueue (fun _ => q) s) (only_mono (only_lifeBump _ _ _ _ _ _) (by decide)) (by decide)
  have htn : (s.entryTaken q).tn = s.tn := hcounted .tn (by decide)
  rw [exec_retirementEntryWrite h]
  generalize s.entryTaken q = u at *
  refine ⟨_, rfl, ?_⟩
  split
  case isTrue hroom =>
    refine ⟨⟨hqueue, congrArg LifeRecord.retireCount hlife, fun _ => ?_, fun hfull => absurd hroom (Nat.not_lt.mpr hfull)⟩,
      only_trans _ _ _ _ _ hcounted (only_mono (only_modLife _ _) (by decide)) (fun _ hp => hp)⟩
    simp [hlife]
  case isFalse hfull =>
    refine ⟨⟨?_, ?_, fun hroom => absurd hroom hfull, fun _ => ⟨?_, raised_raise_tn htn⟩⟩,
      only_trans _ _ _ _ _ hcounted (only_mono (only_raise _ _ _ _ _) (by decide)) (fun _ hp => hp)⟩
    · simp [hqueue]
    · simp [hlife]
    · simp [hlife]
end Sys2Proof.Machine
end

section
/-! The application of a window's results (O46): the retirements due, the rotations, and the obligation. -/
namespace Sys2Proof.Machine

/-! ### Retirements (R221 to R225, Table 7.6) -/

/-- What retirements and the application of results touch besides their engine: the life record, its queue, and the events. -/
abbrev retireParts : List Part := withEvent [.kennelRest, .life]
/-- The window that waits to be applied: its tick, the windows that joined it, and the results. -/
structure Window where
  due : Option Nat
  more : Nat
  results : List CalPending
def Converter.window (k : Converter) : Window := { due := k.applyAt, more := k.applyMore, results := k.waiting }
theorem Converter.window_modPool (u : UnitRef) (f : UnitPool → UnitPool) (k : Converter) : (k.modPool u f).window = k.window := by
  unfold Converter.modPool
  split <;> rfl
/-- What a retirement that is only recorded leaves: the window that waits, the learned layer and the pools. -/
structure Standing where
  window : Window
  learned : List (Nat × Int)
  adc : Vector UnitPool 4
  dac : Vector UnitPool 16
def Converter.standing (k : Converter) : Standing := { window := k.window, learned := k.learned, adc := k.adc, dac := k.dac }
/-- A retirement enters the queue of the Kennel, or is counted as lost (R225). -/
theorem convStep_queueRetirement {β : Type} (g : Converter → β) (e : Nat) (r : Retirement) (s : State) :
    ConvStep g e retireParts s (s.queueRetirement e r) := by
  unfold State.queueRetirement
  refine convStep_ite ?_ (.trans (u := s.count .retireLogLost .engine e 1) ?_ ?_)
  · exact convStep_of_eng ((acts_modRetireQueue e (· ++ [r]) s).mono (by decide)) rfl
  · exact convStep_of_eng ((acts_count ..).mono (by decide)) (State.eng_count ..)
  · exact convStep_of_eng ((acts_lifeBump ..).mono (by decide)) (State.eng_lifeBump ..)
theorem convStep_spareLow {β : Type} (g : Converter → β) (e : Nat) (u : UnitRef) (s : State) :
    ConvStep g e retireParts s (s.spareLow e u) :=
  convStep_ite ((convStep_raise ..).mono (by decide)) .refl
theorem convStep_recordDue (d : DueUnit) (e : Nat) (s : State) : ConvStep Converter.standing e retireParts s (s.recordDue d e) :=
  convStep_ite .refl (((convStep_modConv ..).mono (by simp)).trans (convStep_queueRetirement ..))
/-- A unit leaves the list of those due, and its pool changes. -/
theorem convStep_undue {e : Nat} (u : UnitRef) (f : UnitPool → UnitPool) (s : State) :
    ConvStep Converter.window e retireParts s (s.modConv e (fun k =>
      ({ k with due := k.due.filter (fun x => x.unit != u) } : Converter).modPool u f)) :=
  (convStep_modConv (fun k => Converter.window_modPool u f { k with due := k.due.filter (fun x => x.unit != u) })).mono (by simp)
/-- A retirement leaves the window that waits. -/
theorem convStep_retireUnit (d : DueUnit) (e : Nat) (s : State) : ConvStep Converter.window e retireParts s (s.retireUnit d e) := by
  have htold : ∀ ev k i ws (u : State), ConvStep Converter.window e retireParts u (u.raise ev k i ws) :=
    fun ev k i ws u => (convStep_raise ..).mono (by decide)
  unfold State.retireUnit
  dsimp only
  split
  · exact (convStep_modConv ..).mono (by simp)
  · split
    · split
      · exact .trans ((convStep_modConv ..).mono (by simp)) (convStep_ite .refl (htold ..))
      · refine (((((convStep_undue ..).trans (convStep_ite ?entries (convStep_queueRetirement ..))).trans (htold ..)).trans (htold ..)).trans
          ((convStep_recentre (fun _ _ _ _ _ _ => rfl)).mono (by simp))).trans (convStep_spareLow ..)
        exact convStep_of_eng (((acts_modRetireQueue ..).mono (by decide)).trans ((acts_modLife ..).mono (by decide))) rfl
    · exact (((convStep_undue ..).trans (convStep_ite .refl (convStep_queueRetirement ..))).trans (htold ..)).trans (convStep_spareLow ..)
theorem ConvStep.imp {β γ : Type} {g : Converter → β} {g' : Converter → γ} {e : Nat} {l : List Part} {s t : State}
    (h : ConvStep g e l s t) (hg : ∀ k k', g k = g k' → g' k = g' k') : ConvStep g' e l s t := ⟨h.acts, hg _ _ h.kept⟩
theorem convStep_makeDue (e : Nat) (p : DueUnit → Bool) (s : State) : ConvStep Converter.window e retireParts s (s.makeDue e p) :=
  .foldl (fun s d => convStep_ite ((convStep_recordDue d e s).imp (fun _ _ h => congrArg Standing.window h)) (convStep_retireUnit d e s)) _ _
/-- Whether a tile is fenced does not depend on the trigger flag of its capture unit. -/
theorem Acts.fenced {e : Nat} {l : List Part} {s t : State} (h : Acts e l s t) (hl : Part.tiles ∉ l) : t.fenced e = s.fenced e := by
  have htile : (t.tile (tileOf e)).untriggered = (s.tile (tileOf e)).untriggered := h.within.1 .tiles (by simpa using hl) (tileOf e)
  have hfenced := congrArg Tile.fenced htile
  exact hfenced
/-- On a fenced tile the retirements due are recorded, and no pool changes (Table 7.6). -/
theorem convStep_makeDue_fenced {e : Nat} (p : DueUnit → Bool) {s : State} (h : s.fenced e = true) :
    ConvStep Converter.standing e retireParts s (s.makeDue e p) := by
  refine List.foldlRecOn _ _ .refl (fun u hu d _ => hu.trans ?_)
  rw [hu.acts.fenced (by decide), h]
  exact convStep_recordDue d e u

/-! ### CAL_APPLY (R218) -/

/-- Nothing waits to be applied. -/
def Converter.windowDone (k : Converter) : Converter := { k with applyAt := none, applyMore := 0, waiting := [], prior := [] }
/-- The results applied and the segments rotated (R215, R217), before the retirements due. -/
def State.windowApplied (e : Nat) (s : State) : State :=
  let k := (s.eng e).conv
  (k.waiting.foldl (fun s r => s.applyResult e r) (s.modConv e (·.windowDone))).modConv e (fun x =>
    { x with dac := x.dac.map (fun p => p.rotations (k.applyMore + 1)) })
theorem exec_calApply {e : Fin 48} {s : State} {a : Nat} (hat : (s.eng e).conv.applyAt = some a) (hdue : a ≤ s.ticks)
    (hbrace : s.power.braceEffect = false) :
    exec (.calApply e) s = .next (if s.fenced e then (s.modConv e (·.windowDone)).makeDue e (fun _ => true)
      else ((s.windowApplied e).makeDue e (fun _ => true)).recentreAll e) := by
  have hexec : exec (.calApply e) s = execCalApply e s := rfl
  rw [hexec, execCalApply]
  simp only [hat, hdue, hbrace, and_self, if_true]
  exact (apply_ite Host.Outcome.next ..).symm
theorem exec_calApply_waits {e : Fin 48} {s : State} {a : Nat} (hat : (s.eng e).conv.applyAt = some a)
    (hwait : s.ticks < a ∨ s.power.braceEffect = true) : exec (.calApply e) s = .next s := by
  have hexec : exec (.calApply e) s = execCalApply e s := rfl
  have hnot : ¬(a ≤ s.ticks ∧ s.power.braceEffect = false) := by
    rintro ⟨hdue, hbrace⟩
    exact hwait.elim (Nat.not_lt.mpr hdue) (by simp [hbrace])
  rw [hexec, execCalApply]
  simp only [hat, if_neg hnot]
/-- Every step after the window is cleared leaves it so. -/
theorem calApply_clears {e : Fin 48} {s t : State} (h : ConvStep Converter.window e retireParts (s.modConv e (·.windowDone)) t) :
    Acts e retireParts s t ∧ (t.eng e).conv.window = { due := none, more := 0, results := [] } := by
  refine ⟨((acts_modConv ..).mono (by simp)).trans h.acts, ?_⟩
  rw [h.kept, State.eng_modConv_same e.isLt]
  rfl
theorem calApply_applies {e : Fin 48} {s : State} {a : Nat} (hat : (s.eng e).conv.applyAt = some a) (hdue : a ≤ s.ticks)
    (hbrace : s.power.braceEffect = false) :
    AtEngine e retireParts (fun t => (t.eng e).conv.applyAt = none ∧ (t.eng e).conv.applyMore = 0 ∧ (t.eng e).conv.waiting = []
      ∧ (s.fenced e = true → (t.eng e).conv.learned = (s.eng e).conv.learned
          ∧ (t.eng e).conv.adc = (s.eng e).conv.adc ∧ (t.eng e).conv.dac = (s.eng e).conv.dac)) s (exec (.calApply e) s) := by
  rw [exec_calApply hat hdue hbrace]
  split
  case isTrue hfenced =>
    have hrecorded := convStep_makeDue_fenced (fun _ => true) (s := s.modConv e (·.windowDone)) hfenced
    have hkept := hrecorded.kept
    obtain ⟨hacts, hwindow⟩ := calApply_clears (hrecorded.imp (fun _ _ h => congrArg Standing.window h))
    rw [State.eng_modConv_same e.isLt] at hkept
    exact hacts.atEngine ⟨congrArg Window.due hwindow, congrArg Window.more hwindow, congrArg Window.results hwindow,
      fun _ => ⟨congrArg Standing.learned hkept, congrArg Standing.adc hkept, congrArg Standing.dac hkept⟩⟩
  case isFalse hopen =>
    have happlied : ConvStep Converter.window e retireParts (s.modConv e (·.windowDone)) (s.windowApplied e) := by
      unfold State.windowApplied
      exact .trans (.foldl (fun u r => (convStep_applyResult (fun _ _ _ => rfl) r u).mono (by simp)) _ _) ((convStep_modConv ..).mono (by simp))
    have hcentred : ∀ u : State, ConvStep Converter.window e retireParts u (u.recentreAll e) := fun u =>
      ((convStep_recentreAll (fun _ _ _ _ _ _ _ _ _ => rfl)).imp (fun _ _ h => congrArg Prod.snd h)).mono (by simp)
    obtain ⟨hacts, hwindow⟩ := calApply_clears ((happlied.trans (convStep_makeDue ..)).trans (hcentred _))
    exact hacts.atEngine ⟨congrArg Window.due hwindow, congrArg Window.more hwindow, congrArg Window.results hwindow,
      fun hfenced => absurd hfenced hopen⟩

/-! ### The rows -/

theorem exec_calWindowCheck_early {e : Fin 48} {s : State} (h : ∀ tn va vd, (s.eng e).conv.ended = some (tn, va, vd) → s.tn ≠ tn + 1)
    (a b c : Rat) : exec (.calWindowCheck e a b c) s = .next s := by
  have hexec : exec (.calWindowCheck e a b c) s = execCalWindowCheck e a b c s := rfl
  rw [hexec, execCalWindowCheck]
  split
  next tn va vd hended => exact if_neg (h tn va vd hended)
  · rfl
theorem exec_converterSensorRead (e : Fin 48) (temp : Int) (s : State) : exec (.converterSensorRead e temp) s =
    if s.tn % 64 = 0 then .next (s.modConv e (fun k => { k with tempNext := some temp })) else .next s := rfl

/-- Settles O46: each row is the step it makes where its condition holds, and that step brings what the statement asks. -/
theorem calibrationHappenings : Obligations.CalibrationHappenings := by
  intro e s
  refine ⟨fun temp => ⟨fun hread => ?_, fun hnot => ?_⟩, fun tn va vd z hended htn => calWindowCheck_checks hended htn,
    exec_calWindowCheck_early, fun a hat => ⟨exec_calApply_waits hat, calApply_applies hat⟩, fun r q => retirementEntryWrite_moves,
    fun hnone => ?_⟩
  · rw [exec_converterSensorRead, if_pos hread]
    exact (acts_modConv ..).atEngine (State.eng_modConv_same e.isLt ..)
  · rw [exec_converterSensorRead, if_neg hnot]
  · have hexec : exec .retirementEntryWrite s = execRetirementEntryWrite s := rfl
    rw [hexec, execRetirementEntryWrite, hnone]
end Sys2Proof.Machine
end

section
/-! The converter commands (O45). -/
namespace Sys2Proof.Machine

/-! ### Commands that act at once -/

/-- The index of an accepted command of a unit is an engine's. -/
theorem ready_unit {sp : OpSpec} {c : Cmd} {s : State} (h : Ready sp c s = true) (ht : sp.target = tgtUnit) : cIdx c < 48 := by
  have hunit := ready_target sp c s h
  simp only [ht, tgtUnit, Bool.and_eq_true, decide_eq_true_eq] at hunit
  exact hunit.1.1.2
/-- A command that acts at once on its engine and the parts of `l`, without results. -/
theorem does_within {sp : OpSpec} {f : Cmd → State → State × List Word} {l : List Part} {P : State → Prop} {c : Cmd} {s v : State}
    (h : Ready sp c s = true) (he : sp.eff = .now f) (ha : sp.onAccept = fun _ s => s) (hf : f c (s.atParse sp.code c) = (v, []))
    (hv : Within (cIdx c) l (s.atParse sp.code c) v) (hl : Part.tn ∉ Part.engines :: l)
    (hP : ∀ t, Only finalParts v t → OtherEngines (cIdx c) s t → t.eng (cIdx c) = v.eng (cIdx c) → P t) :
    Does sp.code c [] (.engines :: l) P s (runOp sp c s) := by
  have honly : Only ((.engines :: l) ++ answerParts) s v :=
    only_trans _ _ _ _ _ (only_atParse sp.code c s) (only_mono hv.1 (fun p => List.mem_append_left _)) (fun p => List.mem_append_right _)
  have hfinal := only_final finalParts v v (ticketNow sp.code c s) .ok 0 [] (only_refl _ v) (by decide) (by decide) (by decide) (by decide)
  have heng := eng_of_only hfinal (by decide)
  refine does_now sp f _ _ c s [] h he ha (by rw [hf]) ?_ ?_ ?_ <;> rw [hf]
  · exact (hv.1 .tn hl).trans (State.atParse_tn ..)
  · exact hP _ hfinal (fun j hj => (heng j).trans ((hv.2 j hj).trans (State.eng_atParse ..))) (heng _)
  · exact only_final _ _ _ _ _ _ _ honly (by simp [answerParts]) (by simp [answerParts]) (by simp [answerParts]) (by simp [answerParts])

/-! ### CONV_RETIRE and CONV_RESTORE (R226) -/

/-- A unit due from a tick on with cause MANUAL, unless it is due already. -/
def Converter.retireManually (u : UnitRef) (fromTick : Nat) (k : Converter) : Converter :=
  if k.due.any (fun d => d.unit == u) then k
  else { k with due := k.due ++ [{ unit := u, cause := 2, fromTick := fromTick, raised := false, recorded := false }] }
theorem convRetire_sets {c : Cmd} {s : State} (h : Ready specConvRetireCmd c s = true) :
    SetsEngine 0x134 c (fun g => { g with conv := g.conv.retireManually (cmdUnit c) (s.ticks + 2) }) s (exec (.convRetireCmd c) s) := by
  have hlt := ready_unit h rfl
  refine does_within (v := (s.atParse 0x134 c).modConv (cIdx c) (·.retireManually (cmdUnit c) ((s.atParse 0x134 c).ticks + 2))) h rfl rfl rfl
    (within_modEng ..) (by decide) (fun t _ hothers heng => ⟨heng.trans ?_, hothers⟩)
  rw [State.eng_modConv_same hlt, State.eng_atParse, State.atParse_ticks]
/-- A unit restored to its pool, with its entries marked, those still queued too. -/
def State.unitRestored (c : Cmd) (s : State) : State :=
  ((s.modConv (cIdx c) (·.modPool (cmdUnit c) (UnitPool.restored (cw c 1)))).modKennel (fun k =>
    { k with retireQueue := markRestored (cIdx c) (cSub c) (cw c 1) k.retireQueue })).modLife (fun l =>
    { l with retirements := markRestored (cIdx c) (cSub c) (cw c 1) l.retirements })
theorem acts_unitRestored (c : Cmd) (s : State) : Acts (cIdx c) [.kennelRest, .life] s (s.unitRestored c) := by
  have hpool := acts_modConv (cIdx c) (·.modPool (cmdUnit c) (UnitPool.restored (cw c 1))) s
  unfold State.unitRestored
  generalize s.modConv (cIdx c) _ = u at *
  have hqueue := acts_modRetireQueue (cIdx c) (markRestored (cIdx c) (cSub c) (cw c 1)) u
  exact ((hpool.mono (by simp)).trans (hqueue.mono (by decide))).trans ((acts_modLife ..).mono (by decide))
theorem State.unitRestored_kennel (c : Cmd) (s : State) : (s.unitRestored c).kennel =
    { s.kennel with
      retireQueue := markRestored (cIdx c) (cSub c) (cw c 1) s.kennel.retireQueue
      life := { s.kennel.life with retirements := markRestored (cIdx c) (cSub c) (cw c 1) s.kennel.life.retirements } } := rfl
theorem convRestore_does {c : Cmd} {s : State} (h : Ready specConvRestore c s = true) :
    Does 0x135 c [] [.engines, .kennelRest, .life] (fun t =>
      t.eng (cIdx c) = { s.eng (cIdx c) with conv := (s.eng (cIdx c)).conv.modPool (cmdUnit c) (UnitPool.restored (cw c 1)) }
      ∧ OtherEngines (cIdx c) s t
      ∧ t.kennel.retireQueue = markRestored (cIdx c) (cSub c) (cw c 1) s.kennel.retireQueue
      ∧ t.kennel.life = { s.kennel.life with retirements := markRestored (cIdx c) (cSub c) (cw c 1) s.kennel.life.retirements }) s
      (exec (.convRestore c) s) := by
  refine does_within (v := (s.atParse 0x135 c).unitRestored c) h rfl rfl rfl (acts_unitRestored ..).within (by decide)
    (fun t ht hothers heng => ⟨heng.trans ?_, hothers, ?_, ?_⟩)
  · refine (State.eng_modConv_same (ready_unit h rfl) ..).trans ?_
    rw [State.eng_atParse]
  · obtain ⟨-, -, -, -, -, -, -, -, -, hqueue⟩ := ht .kennelRest (by decide)
    rw [hqueue, State.unitRestored_kennel, State.atParse_kennel]
  · obtain ⟨hlife, -, -⟩ := ht .life (by decide)
    rw [hlife, State.unitRestored_kennel, State.atParse_kennel]

/-! ### CONV_CAL_READ (R227) -/

theorem State.convImage_of_answer {s u : State} (h : Only answerParts s u) (e : Nat) : u.convImage e = s.convImage e := by
  have htn : u.tn = s.tn := h .tn (by decide)
  have hlearned : u.learnedAt e = s.learnedAt e := by
    funext i
    simp only [State.learnedAt, eng_of_answer h]
  simp only [State.convImage, htn, hlearned]

/-! ### CONV_CAL_FACTORY at its boundary (Table 7.5) -/

/-- The words of a lane in an image that hold no skew (Table 7.9). -/
def notSkew (i : Nat) : Prop := i % 392 < 208 ∨ (312 ≤ i % 392 ∧ i % 392 < 320) ∨ 324 ≤ i % 392
/-- Re-centring writes words that hold a skew, where the slices in service are slices of the lane. -/
theorem Converter.skewUnits_ne {k : Converter} (hslices : ∀ l, ∀ n ∈ (vget k.adc l (.reset 96 8)).inService, n < 104) {dac : Bool}
    {lane t i : Nat} {u : UnitRef} (hu : u ∈ k.skewUnits dac lane) (hi : notSkew i) : i ≠ learnedIdx t lane (valueWord u 2) := by
  cases dac with
  | true =>
    obtain ⟨d, hd, rfl⟩ := List.mem_map.mp hu
    have hsub := List.mem_range.mp hd
    simp only [notSkew, learnedIdx, valueWord] at hi ⊢
    simp only [Bool.not_true, Bool.false_eq_true, if_false, show (2 : Nat) < 3 from by decide, if_true]
    omega
  | false =>
    obtain ⟨n, hn, rfl⟩ := List.mem_map.mp hu
    have hslice := hslices lane n hn
    simp only [notSkew, learnedIdx, valueWord] at hi ⊢
    simp only [Bool.not_false, if_true]
    omega
/-- The effect of CONV_CAL_FACTORY: the factory layer, and what it makes of a window that waits (Table 7.6). -/
def convFactory (c : Cmd) (s : State) : State :=
  (s.modConv (cIdx c) (fun k => { k.discardWindow s.ticks with learned := [] })).recentreAll (cIdx c)
theorem boundaryEffect_convCalFactory : boundaryEffect 0x133 = convFactory :=
  boundaryEffect_of_row opTable_ConvCalFactory rfl (by decide) (by decide)
/-- Every unit keeps its place, and a word that no skew of a unit in service is reads what the factory layer does. -/
theorem convFactory_resets {c : Cmd} (hlt : cIdx c < 48) (s : State) :
    Acts (cIdx c) [] s (convFactory c s) ∧ ((convFactory c s).eng (cIdx c)).conv.places = (s.eng (cIdx c)).conv.places
      ∧ ((∀ l, ∀ n ∈ (vget (s.eng (cIdx c)).conv.adc l (.reset 96 8)).inService, n < 104) → ∀ i, notSkew i →
          (convFactory c s).learnedAt (cIdx c) i = Config.factory (cIdx c) i) := by
  generalize hu : s.modConv (cIdx c) (fun k => { k.discardWindow s.ticks with learned := [] }) = u
  have hacts : Acts (cIdx c) [] s u := hu ▸ acts_modConv ..
  have hconv : (u.eng (cIdx c)).conv = { (s.eng (cIdx c)).conv.discardWindow s.ticks with learned := [] } := by
    rw [← hu, State.eng_modConv_same hlt]
  have hplaces : (u.eng (cIdx c)).conv.places = (s.eng (cIdx c)).conv.places := by
    rw [hconv, ← (s.eng (cIdx c)).conv.places_discardWindow s.ticks]
    rfl
  have hcentred := convStep_recentreAll (g := fun _ => ()) (e := cIdx c) (s := u) (fun _ _ _ _ _ _ _ _ _ => rfl)
  have heffect : convFactory c s = u.recentreAll (cIdx c) := by rw [← hu]; rfl
  rw [heffect]
  refine ⟨hacts.trans hcentred.acts, (congrArg Prod.fst hcentred.kept).trans hplaces, fun hslices i hi => ?_⟩
  have hword := convStep_recentreAll (g := fun k => cellGet k.learned i (Config.factory (cIdx c) i)) (e := cIdx c) (s := u)
    (fun dac lane t _ _ w hw v k => cellGet_cellSet_ne ?_ _ _ _ _)
  · refine (congrArg Prod.snd hword.kept).trans ?_
    simp only [hconv, cellGet]
  · rw [Converter.skewUnits_of_places hplaces] at hw
    exact Converter.skewUnits_ne hslices hw hi
theorem convFactory_takesEffect {c : Cmd} {s : State} (hlt : cIdx c < 48) :
    TakesEffect 0x133 c [.engines] (fun t => OtherEngines (cIdx c) s t
      ∧ ((∀ l, ∀ n ∈ (vget (s.eng (cIdx c)).conv.adc l (.reset 96 8)).inService, n < 104) → ∀ i, notSkew i →
          t.learnedAt (cIdx c) i = Config.factory (cIdx c) i)
      ∧ (t.eng (cIdx c)).conv.places = (s.eng (cIdx c)).conv.places) s := by
  refine takesEffect_at_engine boundaryEffect_convCalFactory (by decide) (fun u hu _ => ?_) (fun u v heng _ hP => ?_)
  · obtain ⟨hacts, hplaces, hlearned⟩ := convFactory_resets hlt u
    rw [hu] at hplaces hlearned
    exact ⟨hacts, fun j hj => (hacts.within.2 j hj).trans (hu j), hlearned, hplaces⟩
  · simpa only [OtherEngines, State.learnedAt, heng] using hP

/-- Settles O45: the commands that act at once, those that begin a transfer, and CONV_CAL_FACTORY, armed and at its boundary. -/
theorem converterCommands : Obligations.ConverterCommands := by
  intro c s
  refine ⟨fun h => ?_, fun h => ?_, fun h => ?_, fun h => ?_, fun hlt => ?_, convRetire_sets, convRestore_does, fun h => ?_⟩
  · exact reports_now specConvStatus _ c s _ h rfl rfl rfl (by simp)
  · exact beginsDma_send specConvCalRead _ _ c s h rfl rfl (fun u hu => State.convImage_of_answer hu _)
  · exact beginsDma_load specConvCalLoad c s h rfl rfl
  · exact arms_boundary specConvCalFactory 0x133 _ c s h rfl rfl
  · refine (convFactory_takesEffect hlt).imp (fun t ⟨hothers, hlearned, hplaces⟩ => ⟨hothers, hlearned, fun u => ?_⟩)
    have hpool := congrFun hplaces u
    exact ⟨congrArg Places.inService hpool, congrArg Places.spare hpool, congrArg Places.retired hpool⟩
  · exact does_engine_now specConvCalSet _ _ c s [] h rfl rfl rfl rfl rfl
end Sys2Proof.Machine
end

section
/-! Steps that touch the parts of a list alone and leave what was told: what a command does at once or at its boundary, whichever engines
it touches (used by O17 and O18). -/
namespace Sys2Proof.Machine

/-! ### Steps -/

/-- A step that touches the parts of `l` alone and leaves what was told. -/
structure Steps (l : List Part) (s t : State) : Prop where
  only : Only l s t
  told : KeepsTold s t
section
variable {l m : List Part} {s t u : State}
theorem Steps.refl (l : List Part) (s : State) : Steps l s s := ⟨only_refl l s, .refl s⟩
theorem Steps.mono (h : Steps l s t) (hl : ∀ p ∈ l, p ∈ m) : Steps m s t := ⟨only_mono h.only hl, h.told⟩
theorem Steps.trans (h : Steps l s u) (h' : Steps l u t) : Steps l s t :=
  ⟨only_trans l l s u t h.only h'.only (fun _ hp => hp), h.told.trans h'.told⟩
theorem Steps.foldl {α : Type} {f : State → α → State} (h : ∀ s a, Steps l s (f s a)) (as : List α) (s : State) :
    Steps l s (as.foldl f s) :=
  List.foldlRecOn as f (.refl l s) (fun _ hu a _ => hu.trans (h _ a))
theorem steps_ite {b : Prop} {_ : Decidable b} (ht : Steps l s t) (hu : Steps l s u) : Steps l s (if b then t else u) := by
  split
  exacts [ht, hu]
theorem Acts.steps {e : Nat} (h : Acts e l s t) : Steps (.engines :: l) s t := ⟨h.within.1, h.told⟩
theorem Acts.steps_of_engines {e : Nat} (h : Acts e l s t) (he : t.engines = s.engines) : Steps l s t := by
  refine ⟨fun p hp => ?_, h.told⟩
  by_cases hengines : p = .engines
  · exact hengines ▸ he
  · exact h.within.1 p (by simp [hengines, hp])
/-- A step that leaves the counters and the protocol. -/
theorem steps_of_same (h : Only l s t) (hc : t.ctr = s.ctr) (hp : t.proto = s.proto) : Steps l s t :=
  ⟨h, keepsTold_of_same (by rw [hc]) (by simp [Part.same, hp]) (by simp [Part.same, hp]) (by simp [Part.same, hp])
    (by simp [Part.same, hp])⟩
theorem Steps.packs (h : Steps l s t) (hl : Part.packs ∉ l := by decide) : t.packs = s.packs := h.only .packs hl
theorem Steps.cal (h : Steps l s t) (hl : Part.cal ∉ l := by decide) : t.cal = s.cal := h.only .cal hl
theorem Steps.tn (h : Steps l s t) (hl : Part.tn ∉ l := by decide) : t.tn = s.tn := h.only .tn hl
theorem Steps.eng (h : Steps l s t) (j : Nat) (hl : Part.engines ∉ l := by decide) : t.eng j = s.eng j := eng_of_only h.only hl j
end
theorem steps_raise (ev : Ev) (k : Kind) (i : Nat) (ws : List Word) (s : State) : Steps eventParts s (s.raise ev k i ws) :=
  (acts_raise 0 ev k i ws s).steps_of_engines (State.raise_engines ..)
theorem steps_final (t : Ticket) (st : Status) (d : Nat) (ws : List Word) (s : State) : Steps finalParts s (s.final t st d ws) :=
  (acts_final 0 t st d ws s).steps_of_engines (State.final_engines ..)
theorem steps_finishJobs (p : Job → Bool) (st : Status) (d : Nat) (ws : List Word) (s : State) :
    Steps (.jobs :: finalParts) s (s.finishJobs p st d ws) :=
  (acts_finishJobs 0 p st d ws s).steps_of_engines (State.finishJobs_engines ..)
theorem steps_startJob (j : Job) (s : State) : Steps [.jobs] s (s.startJob j) :=
  ⟨fun p hp => by cases p <;> simp [State.startJob, Part.same] at hp ⊢, keepsTold_startJob j s⟩
theorem steps_modPack (n : Nat) (f : Pack → Pack) (s : State) : Steps [.packs] s (s.modPack n f) :=
  (acts_modPack 0 n f s).steps_of_engines rfl
theorem steps_modCal (f : Calendar → Calendar) (s : State) : Steps [.cal] s (s.modCal f) :=
  steps_of_same (fun p hp => by cases p <;> simp [Part.same, State.modCal, State.tile] at hp ⊢) rfl rfl

/-! ### Commands -/

/-- A command that acts at once on the parts of `l`, without results. -/
theorem does_steps {sp : OpSpec} {f : Cmd → State → State × List Word} {l : List Part} {P : State → Prop} {c : Cmd} {s v : State}
    (h : Ready sp c s = true) (he : sp.eff = .now f) (ha : sp.onAccept = fun _ s => s) (hf : f c (s.atParse sp.code c) = (v, []))
    (hv : Steps l (s.atParse sp.code c) v) (hl : Part.tn ∉ l) (hP : ∀ t, Steps finalParts v t → P t) :
    Does sp.code c [] l P s (runOp sp c s) := by
  have honly : Only (l ++ answerParts) s v :=
    only_trans _ _ _ _ _ (only_atParse sp.code c s) (only_mono hv.only (fun p => List.mem_append_left _)) (fun p => List.mem_append_right _)
  refine does_now sp f _ _ c s [] h he ha (by rw [hf]) ?_ ?_ ?_ <;> rw [hf]
  · exact (hv.tn hl).trans (State.atParse_tn ..)
  · exact hP _ (steps_final ..)
  · exact only_final _ _ _ _ _ _ _ honly (by simp [answerParts]) (by simp [answerParts]) (by simp [answerParts]) (by simp [answerParts])
/-- A state whose pending changes are taken away, as the boundary has it while it carries one out. -/
def State.disarmed (s : State) : State := s.modProto (fun p => { p with armed := [] })
/-- A pending change whose effect touches the parts of `l`. -/
theorem takesEffect_steps {op : Nat} {c : Cmd} {f : Cmd → State → State} {l : List Part} {P : State → Prop} {s : State}
    (hb : boundaryEffect op = f) (hf : Steps l s.disarmed (f c s.disarmed)) (harmed : Part.armed ∉ l)
    (hP : ∀ t, Steps finalParts (f c s.disarmed) t → P t) : TakesEffect op c l P s := by
  refine TakesEffect.imp ?_ hP
  refine takesEffect_of op c f l _ s hb (.refl ..) (fun t st d ws u hu => hu.trans (steps_final ..)) (hf.only .armed harmed) ?_
    (fun t st d ws u hu => only_final _ s u t st d ws hu (by simp) (by simp) (by simp) (by simp))
  exact only_trans _ _ _ _ _ (only_disarm s) (only_mono hf.only (fun p => List.mem_append_left _)) (by simp)
/-- What a class L command begins is its running, its acceptance and the frame, besides what it does. -/
theorem begun_of_steps {op : Nat} {c : Cmd} {j : Job} {l parts : List Part} {s u w : State} (hc : j.cmd = c)
    (ht : j.ticket.opcode = op) (hu : Only answerParts s u) (hA : Answered op c false .ok 0 s.tn [] u) (hw : Steps l u w)
    (hj : j ∈ w.proto.jobs) (hl : ∀ p ∈ l, p ∈ Part.jobs :: (parts ++ answerParts)) :
    Running op c w ∧ (c.src.isHost = true → Answered op c false .ok 0 s.tn [] w) ∧ Only (.jobs :: (parts ++ answerParts)) s w :=
  ⟨⟨j, hj, hc, ht⟩, fun hsrc => hA.imp_right (hw.told.posted _ _ hsrc),
    only_trans _ _ s u _ hu (only_mono hw.only hl) (fun _ hp => List.mem_cons_of_mem _ (List.mem_append_right _ hp))⟩
end Sys2Proof.Machine
end

section
/-! The calendar commands and the shadow scrub (O17). -/
namespace Sys2Proof.Machine

/-! ### Stores that are flushed at a swap (R241) -/

theorem vget_map {α : Type} {n : Nat} (v : Vector α n) (f : α → α) (i : Nat) (d : α) :
    vget (v.map f) i d = if i < n then f (vget v i d) else vget v i d := by
  unfold vget
  split <;> simp_all
/-- A step that leaves every engine and every Pack but its store. -/
structure KeepsButStores (s t : State) : Prop where
  eng : ∀ e, ∃ st, t.eng e = { s.eng e with store := st }
  pack : ∀ p, ∃ st, t.pack p = { s.pack p with store := st }
theorem KeepsButStores.of_same {s t : State} (he : t.engines = s.engines) (hp : t.packs = s.packs) : KeepsButStores s t :=
  ⟨fun e => ⟨(s.eng e).store, by simp only [State.eng, he]⟩, fun p => ⟨(s.pack p).store, by simp only [State.pack, hp]⟩⟩
theorem KeepsButStores.trans {s u t : State} (h : KeepsButStores s u) (h' : KeepsButStores u t) : KeepsButStores s t := by
  refine ⟨fun e => ?_, fun p => ?_⟩
  · obtain ⟨_, hu⟩ := h.eng e
    obtain ⟨st, ht⟩ := h'.eng e
    exact ⟨st, by rw [ht, hu]⟩
  · obtain ⟨_, hu⟩ := h.pack p
    obtain ⟨st, ht⟩ := h'.pack p
    exact ⟨st, by rw [ht, hu]⟩
theorem keepsButStores_flushClient (port : Nat) (s : State) : KeepsButStores s (s.flushClient port) := by
  refine ⟨fun e => ?_, fun p => ?_⟩
  · simp only [State.eng, State.flushClient, vget_map]
    split
    exacts [⟨_, rfl⟩, ⟨_, rfl⟩]
  · simp only [State.pack, State.flushClient, vget_map]
    split
    exacts [⟨_, rfl⟩, ⟨_, rfl⟩]
theorem steps_flushClient (port : Nat) (s : State) : Steps [.engines, .packs] s (s.flushClient port) :=
  steps_of_same (fun p hp => by cases p <;> simp [Part.same, State.flushClient, State.tile] at hp ⊢) rfl rfl
/-- The stores of several clients are flushed. -/
def State.flushClients (ports : List Nat) (s : State) : State := ports.foldl (fun s p => s.flushClient p) s
theorem steps_flushClients (ports : List Nat) (s : State) : Steps [.engines, .packs] s (s.flushClients ports) :=
  .foldl (fun s p => steps_flushClient p s) _ _
theorem keepsButStores_flushClients (ports : List Nat) (s : State) : KeepsButStores s (s.flushClients ports) :=
  List.foldlRecOn ports _ (.of_same rfl rfl) (fun _ hu p _ => hu.trans (keepsButStores_flushClient p _))

/-! ### CAL_SWAP at its boundary (R237 to R240) -/

/-- The guard of a swap: the slots it changes, from its TN for GUARD_POST ticks (R240). -/
def State.swapGuard (c : Cmd) (s : State) : Guard :=
  { swapTn := s.tn, first := s.tn, last := s.tn + cw c 2, slots := s.changedSlots }
/-- The banks exchanged, with their parity bits. -/
def State.banksSwapped (c : Cmd) (s : State) : State :=
  s.modCal (fun k => { k with
    active := k.shadow, shadow := k.active, activeParity := k.shadowParity, shadowParity := k.activeParity
    frozen := [], unread := [], told := [], bad := [], dead := [], since := s.ticks
    guards := k.guards.filter (fun x => decide (s.tn < x.last)) ++ (if cw c 2 = 0 then [] else [s.swapGuard c]) })
/-- The clients whose slots a swap changes. -/
def State.movedClients (s : State) : List Nat :=
  ((s.slotMap s.cal.active ++ s.slotMap s.cal.shadow).filterMap
    (fun x => if s.changedSlots.contains x.1 then some x.2.1 else none)).dedup
/-- A swap exchanges the banks, flushes the stores of the clients it moves, and tells CAL_SWAP_DONE. -/
theorem applyCalSwap_eq (c : Cmd) (s : State) :
    applyCalSwap c s = ((s.banksSwapped c).flushClients s.movedClients).raise .calSwapDone .device 0
      (w2 ((s.banksSwapped c).flushClients s.movedClients).tn ++ w1 s.changedSlots.length) := rfl
theorem boundaryEffect_calSwap : boundaryEffect 0x202 = applyCalSwap :=
  boundaryEffect_of_row opTable_CalSwap rfl (by decide) (by decide)
theorem applyCalSwap_swaps (c : Cmd) (s : State) :
    Steps (.cal :: .engines :: .packs :: eventParts) s (applyCalSwap c s) ∧ (applyCalSwap c s).cal = (s.banksSwapped c).cal
      ∧ KeepsButStores s (applyCalSwap c s)
      ∧ Raised .calSwapDone .device 0 (w2 s.tn ++ w1 s.changedSlots.length) s.tn (applyCalSwap c s) := by
  have hbanks : Steps [.cal] s (s.banksSwapped c) := steps_modCal ..
  have hflush := steps_flushClients s.movedClients (s.banksSwapped c)
  have hstores := keepsButStores_flushClients s.movedClients (s.banksSwapped c)
  rw [applyCalSwap_eq]
  generalize (s.banksSwapped c).flushClients s.movedClients = u at *
  have htn : u.tn = s.tn := hflush.tn.trans hbanks.tn
  have hdone := steps_raise .calSwapDone .device 0 (w2 u.tn ++ w1 s.changedSlots.length) u
  refine ⟨((hbanks.mono (by decide)).trans (hflush.mono (by decide))).trans (hdone.mono (by decide)), hdone.cal.trans hflush.cal, ?_,
    htn ▸ raised_raise ..⟩
  exact (KeepsButStores.of_same (hbanks.only .engines (by decide)) hbanks.packs).trans
    (hstores.trans (.of_same (hdone.only .engines (by decide)) hdone.packs))
theorem calSwap_takesEffect (c : Cmd) (s : State) :
    TakesEffect 0x202 c (.cal :: .engines :: .packs :: eventParts) (fun t => t.cal = (s.banksSwapped c).cal ∧ KeepsButStores s t
      ∧ Raised .calSwapDone .device 0 (w2 s.tn ++ w1 s.changedSlots.length) s.tn t) s := by
  have hdisarm : KeepsButStores s s.disarmed := .of_same rfl rfl
  obtain ⟨hsteps, hcal, hstores, hraised⟩ := applyCalSwap_swaps c s.disarmed
  refine takesEffect_steps boundaryEffect_calSwap hsteps (by decide) (fun t ht => ⟨ht.cal.trans hcal, ?_, ht.told.raised _ _ _ _ _ hraised⟩)
  exact (hdisarm.trans hstores).trans (.of_same (ht.only .engines (by decide)) ht.packs)

/-! ### SHADOW_SCRUB_PASS (R231, R243) -/

/-- An entry found bad in a pass is marked and told, unless it is marked already. -/
def State.scrubEntry (s : State) (f : Fin 122880 × Nat) : State :=
  if s.cal.bad.contains f.1.val then s
  else (s.modCal (fun k => { k with bad := k.bad ++ [f.1.val] })).raise .calParity .device 0
    (w1 1 ++ w1 f.1 ++ w2 (field f.2 0 48) ++ w1 2)
theorem steps_scrubEntry (s : State) (f : Fin 122880 × Nat) : Steps (.cal :: eventParts) s (s.scrubEntry f) :=
  steps_ite (.refl ..) (((steps_modCal ..).mono (by simp)).trans ((steps_raise ..).mono (fun p => List.mem_cons_of_mem _)))
theorem raised_scrubEntry {s : State} {f : Fin 122880 × Nat} (h : f.1.val ∉ s.cal.bad) :
    Raised .calParity .device 0 (w1 1 ++ w1 f.1.val ++ w2 (field f.2 0 48) ++ w1 2) s.tn (s.scrubEntry f) := by
  unfold State.scrubEntry
  rw [if_neg (by simpa using h)]
  exact raised_raise_tn rfl
/-- One entry is marked, and nothing else of the calendar moves. -/
theorem scrubEntry_marks (s : State) (f : Fin 122880 × Nat) :
    (s.scrubEntry f).cal = { s.cal with bad := (s.scrubEntry f).cal.bad }
      ∧ ∀ i, i ∈ (s.scrubEntry f).cal.bad ↔ i ∈ s.cal.bad ∨ f.1.val = i := by
  unfold State.scrubEntry
  split
  case isTrue hmarked =>
    have hmem : f.1.val ∈ s.cal.bad := by simpa using hmarked
    exact ⟨rfl, fun i => ⟨.inl, fun h => h.elim id (fun hi => hi ▸ hmem)⟩⟩
  case isFalse =>
    rw [State.raise_cal]
    exact ⟨rfl, fun i => by simp [State.modCal, eq_comm]⟩
/-- A pass marks the entries found bad, and nothing else of the calendar moves. -/
theorem scrubEntries_mark (bad : List (Fin 122880 × Nat)) (s : State) :
    (bad.foldl State.scrubEntry s).cal = { s.cal with bad := (bad.foldl State.scrubEntry s).cal.bad }
      ∧ ∀ i, i ∈ (bad.foldl State.scrubEntry s).cal.bad ↔ i ∈ s.cal.bad ∨ ∃ f ∈ bad, f.1.val = i := by
  induction bad generalizing s with
  | nil => simp
  | cons f bad ih =>
    obtain ⟨hcal, hmarked⟩ := scrubEntry_marks s f
    obtain ⟨hrest, hmarks⟩ := ih (s.scrubEntry f)
    refine ⟨?_, fun i => ?_⟩
    · rw [List.foldl_cons, hrest, hcal]
    · simp only [List.foldl_cons, hmarks, hmarked, List.mem_cons, exists_eq_or_imp, or_assoc]
theorem exec_shadowScrubPass (read : List (Fin 122880 × Nat)) (s : State) :
    exec (.shadowScrubPass read) s = .next ((read.filter (fun f => parityBad f.2)).foldl State.scrubEntry s) := rfl

/-! ### CAL_STATUS -/

/-- What CAL_STATUS reports: the TN of a pending swap, the calendar total of R50, the bad and the frozen entries. -/
def State.calStatusWords (s : State) : List Word :=
  w2 ((s.swapPending.map (·.due)).getD 0) ++ w1 s.calendarTotal ++ w1 s.cal.bad.length ++ w1 s.cal.frozen.length
theorem specCalStatus_eff : specCalStatus.eff = .now (fun _ s => (s, s.calStatusWords)) := rfl
theorem State.calStatusWords_atParse (op : Nat) (c : Cmd) (s : State) : (s.atParse op c).calStatusWords = s.calStatusWords := by
  simp only [State.calStatusWords, State.swapPending, State.calendarTotal, State.atParse_proto_armed, State.eng_atParse, State.atParse_cal]

/-- Settles O17: the transfers begin, CAL_SWAP arms, its boundary is the exchange of the banks, and a scrub is a fold of markings. -/
theorem calendarCommands : Obligations.CalendarCommands := by
  intro c s
  refine ⟨fun h => ?_, fun h => ?_, fun h => ?_, ?_, fun h => ?_, fun read => ?_⟩
  · exact beginsDma_load specCalLoad c s h rfl rfl
  · refine beginsDma_send specCalRead calImage _ c s h rfl rfl (fun u hu => ?_)
    have hcal : u.cal = s.cal := hu .cal (by decide)
    rw [calImage, hcal]
  · exact arms_boundary specCalSwap 0x202 _ c s h rfl rfl
  · refine (calSwap_takesEffect c s).imp (fun t ⟨hcal, hstores, hraised⟩ => ?_)
    rw [hcal]
    refine ⟨rfl, rfl, rfl, rfl, rfl, rfl, fun hpost => ?_, hraised, hstores.eng, hstores.pack⟩
    simp [State.banksSwapped, State.modCal, State.swapGuard, hpost]
  · exact reports_now specCalStatus _ c s _ h specCalStatus_eff rfl rfl (State.calStatusWords_atParse ..)
  · obtain ⟨hcal, hmarks⟩ := scrubEntries_mark (read.filter (fun f => parityBad f.2)) s
    refine ⟨_, exec_shadowScrubPass read s, ⟨hcal, fun i => ?_, fun f hread hbad hnew => ?_⟩, (Steps.foldl steps_scrubEntry _ _).only⟩
    · simp only [hmarks, List.mem_filter, and_assoc]
    · rw [hread, List.filter_singleton, hbad]
      exact raised_scrubEntry hnew
end Sys2Proof.Machine
end

section
/-! The Pack commands and STORE_SET (O18). -/
namespace Sys2Proof.Machine

/-! ### Changes of one Pack -/

theorem packIs_modPack {p : Nat} (hp : p < 24) (f : Pack → Pack) (s : State) : PackIs p f s (s.modPack p f) :=
  ⟨State.pack_modPack_same _ _ _ hp, fun _ hq => State.pack_modPack_ne _ _ _ _ hq⟩
theorem PackIs.of_same {p : Nat} {f : Pack → Pack} {s s' t t' : State} (h : PackIs p f s t) (hs : s.packs = s'.packs)
    (ht : t'.packs = t.packs) : PackIs p f s' t' := by
  simpa only [PackIs, State.pack, hs, ht] using h
/-- The index of an accepted Pack command is a Pack's. -/
theorem ready_pack {sp : OpSpec} {c : Cmd} {s : State} (h : Ready sp c s = true) (ht : sp.target = tgtPack) : cIdx c < 24 :=
  ready_kind sp c s 5 24 h ht
/-- A pending change whose effect is on its Pack alone. -/
theorem packChange_of {op : Nat} {c : Cmd} {f : Cmd → State → State} {g : Pack → Pack} {s : State} (hlt : cIdx c < 24)
    (hb : boundaryEffect op = f) (hf : f c s.disarmed = s.disarmed.modPack (cIdx c) g) : TakesEffect op c [.packs] (PackIs (cIdx c) g s) s := by
  refine takesEffect_steps hb ?_ (by decide) (fun t ht => ?_) <;> rw [hf] at *
  · exact steps_modPack ..
  · exact (packIs_modPack hlt g s.disarmed).of_same rfl ht.packs

/-! ### PACK_SET and PACK_DELETE (R251, R388) -/

theorem packSet_does {c : Cmd} {s : State} (h : Ready specPackSet c s = true) : Does 0x210 c [] [.packs] (PackIs (cIdx c) (fun k => { k with
    members := memberList c, gen := (k.gen + 1) % 256, pool := [], released := [], judged := [], late := [], skews := List.replicate 8 0
    largest := List.replicate 8 0, running := List.replicate 8 0, skewPresent := false, goodRun := 0
    mismatchPresent := false, failRuns := List.replicate 8 0, passRuns := List.replicate 8 0 }) s) s (exec (.packSet c) s) :=
  does_steps h rfl rfl rfl (steps_modPack ..) (by decide) (fun _ ht =>
    (packIs_modPack (ready_pack h rfl) _ (s.atParse 0x210 c)).of_same (State.atParse_packs ..) ht.packs)
/-- One defect is told as cleared if it was reported. -/
def State.clearPackDefect (p : Nat) (s : State) (d : PackDefect) : State :=
  if (s.pack p).reported.contains d then s.defectChange .pack p (packOrd d) false else s
theorem State.clearPackDefects_eq (p : Nat) (s : State) :
    s.clearPackDefects p = ([.packSkew, .packMismatch] : List PackDefect).foldl (State.clearPackDefect p) s := rfl
theorem steps_clearPackDefect (p : Nat) (s : State) (d : PackDefect) : Steps eventParts s (s.clearPackDefect p d) :=
  steps_ite (steps_raise ..) (.refl ..)
theorem raised_clearPackDefect {p : Nat} {s : State} {d : PackDefect} (h : d ∈ (s.pack p).reported) :
    Raised .defectChange .pack p (w1 (packOrd d) ++ w1 0 ++ w2 s.tn) s.tn (s.clearPackDefect p d) := by
  unfold State.clearPackDefect
  rw [if_pos (List.contains_iff_mem.mpr h)]
  exact raised_raise ..
theorem steps_clearPackDefects (p : Nat) (s : State) : Steps eventParts s (s.clearPackDefects p) :=
  .foldl (steps_clearPackDefect p) _ _
/-- Each defect reported is told as cleared. -/
theorem raised_clearPackDefects {p : Nat} {s : State} {d : PackDefect} (h : d ∈ (s.pack p).reported) :
    Raised .defectChange .pack p (w1 (packOrd d) ++ w1 0 ++ w2 s.tn) s.tn (s.clearPackDefects p) := by
  refine foldl_establishes (f := State.clearPackDefect p) (b := d)
    (P := fun u => u.packs = s.packs ∧ u.tn = s.tn → Raised .defectChange .pack p _ s.tn u) ?_ ?_ _ s (by cases d <;> simp)
    ⟨(steps_clearPackDefects p s).packs, (steps_clearPackDefects p s).tn⟩
  · intro u a hu hsame
    have hstep := steps_clearPackDefect p u a
    exact hstep.told.raised _ _ _ _ _ (hu ⟨hstep.packs.symm.trans hsame.1, hstep.tn.symm.trans hsame.2⟩)
  · intro u hsame
    have hstep := steps_clearPackDefect p u d
    have hpacks : u.packs = s.packs := hstep.packs.symm.trans hsame.1
    rw [← hstep.tn.symm.trans hsame.2]
    exact raised_clearPackDefect (by simpa only [State.pack, hpacks] using h)
theorem packDelete_does {c : Cmd} {s : State} (h : Ready specPackDelete c s = true) :
    Does 0x211 c [] (.packs :: eventParts) (fun t => PackIs (cIdx c) (fun k => { k with
        reported := [], psf := none, psfFault := false, members := [], pool := [], released := [], judged := [], late := []
        skewPresent := false, goodRun := 0, mismatchPresent := false }) s t
      ∧ ∀ d ∈ (s.pack (cIdx c)).reported, Raised .defectChange .pack (cIdx c) (w1 (packOrd d) ++ w1 0 ++ w2 s.tn) s.tn t) s
      (exec (.packDelete c) s) := by
  have hclear := steps_clearPackDefects (cIdx c) (s.atParse 0x211 c)
  have hempty := steps_modPack (cIdx c) (fun k => { k with
    reported := [], psf := none, psfFault := false, members := [], pool := [], released := [], judged := [], late := []
    skewPresent := false, goodRun := 0, mismatchPresent := false }) ((s.atParse 0x211 c).clearPackDefects (cIdx c))
  refine does_steps h rfl rfl rfl ((hclear.mono (by decide)).trans (hempty.mono (by decide))) (by decide) (fun t ht => ⟨?_, fun d hd => ?_⟩)
  · exact (packIs_modPack (ready_pack h rfl) _ _).of_same (hclear.packs.trans (State.atParse_packs ..)) ht.packs
  · have hraised := raised_clearPackDefects (s := s.atParse 0x211 c) (by simpa using hd)
    rw [State.atParse_tn] at hraised
    exact ht.told.raised _ _ _ _ _ (hempty.told.raised _ _ _ _ _ hraised)

/-! ### Changes at their boundary (R254, Table 8.4) -/

/-- What STORE_SET writes at its boundary. -/
def storeTarget (c : Cmd) (s : State) : State :=
  s.modStore (if cKind c = 5 then .pack else .engine) (cIdx c) (fun st => { st with target := cw c 1 })
theorem boundaryEffect_storeSet : boundaryEffect 0x215 = storeTarget :=
  boundaryEffect_of_row opTable_StoreSet rfl (by decide) (by decide)
theorem boundaryEffect_packSkewSet :
    boundaryEffect 0x213 = fun c s => s.modPack (cIdx c) (fun k => { k with skewMax := cw c 1 }) :=
  boundaryEffect_of_row opTable_PackSkewSet rfl (by decide) (by decide)
theorem storeTarget_engine {c : Cmd} (h : cKind c = 1) (s : State) :
    storeTarget c s = s.modEng (cIdx c) (fun g => { g with store := { g.store with target := cw c 1 } }) := by
  simp [storeTarget, h, State.modStore]
theorem storeTarget_pack {c : Cmd} (h : cKind c = 5) (s : State) :
    storeTarget c s = s.modPack (cIdx c) (fun k => { k with store := { k.store with target := cw c 1 } }) := by
  simp [storeTarget, h, State.modStore]

/-! ### A capacity change of one engine (R119 to R121) -/

/-- The change to `k` that an engine under traffic has pending: one that is pending to the same capacity goes on. -/
def Engine.capChange (g : Engine) (k : Nat) : CapChange :=
  match g.cap with
  | some x => if x.kNew = k then x
    else { kOld := x.kOld, kNew := k, txDone := false, rxDone := false, accepted := false, userVec := none }
  | none => { kOld := g.kTx, kNew := k, txDone := false, rxDone := false, accepted := false, userVec := none }
theorem Engine.capChange_kNew (g : Engine) (k : Nat) : (g.capChange k).kNew = k := by
  unfold Engine.capChange
  split
  · split
    next hk => exact hk
    · rfl
  · rfl
/-- Under traffic a change is pending, and announced unless the transmitter has made it. -/
theorem State.startCapacity_carries {e k tag : Nat} {given : Option Nat} {s : State} (hcarries : s.carries e = true) :
    s.startCapacity e k given tag =
      let u := (s.finishJobs (jobOn 0x104 e) .superseded tag []).modEng e (fun g => { g with cap := some ((s.eng e).capChange k) })
      if ((s.eng e).capChange k).txDone then u else u.announceAt e k (capVector (s.eng e) k) .capacity given := by
  have hcarries' : (s.finishJobs (jobOn 0x104 e) .superseded tag []).carries e = true :=
    (State.carries_of_same (by simp) (by simp) (by simp) e).trans hcarries
  unfold State.startCapacity
  simp only [hcarries', if_true]
  rfl
/-- Parts that the beginning of an engine's capacity change touches. -/
def startParts : List Part := .jobs :: .responses :: eventParts
/-- A capacity change that begins at engine `e`, whether it carries traffic or not: it is pending to `k`. -/
theorem startCapacity_starts (e k tag : Nat) (given : Option Nat) (s : State) :
    Acts e startParts s (s.startCapacity e k given tag)
      ∧ (s.startCapacity e k given tag).proto.jobs = s.proto.jobs.filter (fun j => !jobOn 0x104 e j)
      ∧ (e < 48 → ∃ x, ((s.startCapacity e k given tag).eng e).cap = some x ∧ x.kNew = k) := by
  have hend := (acts_finishJobs e (jobOn 0x104 e) .superseded tag [] s).mono (m := startParts) (by decide)
  have hjobs := State.finishJobs_proto_jobs (jobOn 0x104 e) .superseded tag [] s
  cases hcarries : s.carries e with
  | false =>
    rw [State.startCapacity_quiet hcarries]
    exact ⟨hend.trans ((acts_modEng ..).mono (by simp)), hjobs, fun he => ⟨_, by rw [State.eng_modEng_same _ _ _ he]; rfl, rfl⟩⟩
  | true =>
    rw [State.startCapacity_carries hcarries]
    dsimp only
    generalize hu : (s.finishJobs (jobOn 0x104 e) .superseded tag []).modEng e
      (fun g => { g with cap := some ((s.eng e).capChange k) }) = u
    have hsu : Acts e startParts s u := hu ▸ hend.trans ((acts_modEng ..).mono (by simp))
    have hujobs : u.proto.jobs = s.proto.jobs.filter (fun j => !jobOn 0x104 e j) := by rw [← hu]; exact hjobs
    have hcap : e < 48 → (u.eng e).cap = some ((s.eng e).capChange k) := fun he => by rw [← hu, State.eng_modEng_same _ _ _ he]
    refine ⟨hsu.trans (acts_ite (.refl ..) ((acts_announceAt ..).mono (by decide))), ?_,
      fun he => ⟨_, ?_, Engine.capChange_kNew (s.eng e) k⟩⟩
    · split
      · exact hujobs
      · exact (State.raise_proto_jobs ..).trans hujobs
    · split
      · exact hcap he
      · rw [State.eng_announceAt he]
        exact hcap he

/-! ### PACK_CAPACITY_SET (R252) -/

/-- What PACK_CAPACITY_SET makes of one member: its own change with the Pack's LOAD_TN, armed where it carries no traffic. -/
def State.memberStart (c : Cmd) (loadTn : Nat) (s : State) (e : Nat) : State :=
  let t := s.startCapacity e (cw c 1) (some loadTn) c.tag.val
  if !s.carries e then
    t.arm { due := loadTn, key := keyOf 0x101 (memberCapacity c e), opcode := 0x101, cmd := memberCapacity c e, ticket := none }
  else t
/-- What the change of a Pack's members touches, but for the engines. -/
def memberParts : List Part := .armed :: startParts
/-- The members of `m` have changes pending to `k`, no other engine moves, and no command ends but announcing ones. -/
structure MembersStarted (k : Nat) (m : List Nat) (s t : State) : Prop where
  steps : Steps (.engines :: memberParts) s t
  jobs : ∀ j ∈ s.proto.jobs, j.ticket.opcode ≠ 0x104 → j ∈ t.proto.jobs
  others : ∀ e, e ∉ m → t.eng e = s.eng e
  pending : ∀ e ∈ m, e < 48 → ∃ x, (t.eng e).cap = some x ∧ x.kNew = k
theorem memberStart_starts (c : Cmd) (loadTn : Nat) (s : State) (e : Nat) :
    MembersStarted (cw c 1) [e] s (s.memberStart c loadTn e) := by
  obtain ⟨hstart, hjobs, hcap⟩ := startCapacity_starts e (cw c 1) c.tag.val (some loadTn) s
  unfold State.memberStart
  generalize s.startCapacity e (cw c 1) (some loadTn) c.tag.val = u at *
  dsimp only
  generalize hw : (if !s.carries e then _ else u : State) = w
  have harm : Acts e memberParts u w := hw ▸ acts_ite ((acts_arm ..).mono (by decide)) (.refl ..)
  have hwjobs : w.proto.jobs = u.proto.jobs := by rw [← hw]; split <;> simp
  have hweng : w.eng e = u.eng e := by rw [← hw]; split <;> simp
  have hacts := (hstart.mono (m := memberParts) (by decide)).trans harm
  refine ⟨hacts.steps, fun j hj hop => ?_, fun j hj => hacts.within.2 j (by simpa using hj), fun j hj hlt => ?_⟩
  · rw [hwjobs, hjobs]
    exact List.mem_filter.mpr ⟨hj, by simp [jobOn, hop]⟩
  · obtain rfl := List.mem_singleton.mp hj
    rw [hweng]
    exact hcap hlt
theorem membersStart_start (c : Cmd) (loadTn : Nat) (m : List Nat) (s : State) :
    MembersStarted (cw c 1) m s (m.foldl (State.memberStart c loadTn) s) := by
  induction m generalizing s with
  | nil => exact ⟨.refl .., fun _ hj _ => hj, fun _ _ => rfl, fun _ he => absurd he List.not_mem_nil⟩
  | cons a m ih =>
    have hfirst := memberStart_starts c loadTn s a
    have hrest := ih (s.memberStart c loadTn a)
    refine ⟨hfirst.steps.trans hrest.steps, fun j hj hop => hrest.jobs j (hfirst.jobs j hj hop) hop, fun e he => ?_, fun e he hlt => ?_⟩
    · rw [List.mem_cons, not_or] at he
      exact (hrest.others e he.2).trans (hfirst.others e (by simpa using he.1))
    · by_cases hm : e ∈ m
      · exact hrest.pending e hm hlt
      · obtain rfl : e = a := (List.mem_cons.mp he).resolve_right hm
        rw [List.foldl_cons, hrest.others e hm]
        exact hfirst.pending e (by simp) hlt
/-- The one LOAD_TN of all members (R252). -/
def State.packLoadTn (p : Nat) (s : State) : Nat := s.tn + 2 + ((s.pack p).members.map (fun e => (s.eng e).load.lead)).foldl max 625
/-- The command runs, one that it replaces has ended, and the Pack has the change pending. -/
def State.packAsked (j : Job) (c : Cmd) (s : State) : State :=
  ((s.finishJobs (jobOn 0x212 (cIdx c)) .superseded c.tag.val []).startJob j).modPack (cIdx c)
    (fun k => { k with capPending := some (cw c 1, (s.pack (cIdx c)).members) })
/-- What PACK_CAPACITY_SET does: a Pack without members is done at once. -/
def packCapacityEffect (j : Job) (c : Cmd) (s : State) : State :=
  let u := (s.finishJobs (jobOn 0x212 (cIdx c)) .superseded c.tag.val []).startJob j
  if (s.pack (cIdx c)).members.isEmpty then
    (u.raise .packCapacityDone .pack (cIdx c) (w1 (cw c 1))).finishJobs (jobOn 0x212 (cIdx c)) .ok 0 []
  else (s.pack (cIdx c)).members.foldl (State.memberStart c (s.packLoadTn (cIdx c))) (s.packAsked j c)
theorem specPackCapacitySet_eff : specPackCapacitySet.eff = .long packCapacityEffect := rfl
theorem packCapacityEffect_of_members {c : Cmd} {s : State} (j : Job) (h : (s.pack (cIdx c)).members ≠ []) :
    packCapacityEffect j c s
      = (s.pack (cIdx c)).members.foldl (State.memberStart c (s.packLoadTn (cIdx c))) (s.packAsked j c) :=
  if_neg (by simpa using h)
theorem packAsked_asks {c : Cmd} (hlt : cIdx c < 24) (j : Job) (s : State) :
    Steps (.packs :: .jobs :: finalParts) s (s.packAsked j c) ∧ j ∈ (s.packAsked j c).proto.jobs
      ∧ (∀ e, (s.packAsked j c).eng e = s.eng e)
      ∧ PackIs (cIdx c) (fun k => { k with capPending := some (cw c 1, k.members) }) s (s.packAsked j c) := by
  unfold State.packAsked
  have hend := steps_finishJobs (jobOn 0x212 (cIdx c)) .superseded c.tag.val [] s
  generalize s.finishJobs (jobOn 0x212 (cIdx c)) .superseded c.tag.val [] = u at *
  have hpack : u.pack (cIdx c) = s.pack (cIdx c) := by simp only [State.pack, hend.packs]
  have hmod := steps_modPack (cIdx c) (fun k => { k with capPending := some (cw c 1, (s.pack (cIdx c)).members) }) (u.startJob j)
  have hasked := ((hend.mono (m := .packs :: .jobs :: finalParts) (by decide)).trans ((steps_startJob j u).mono (by decide))).trans
    (hmod.mono (by decide))
  refine ⟨hasked, mem_startJob j u, hasked.eng, ?_, fun q hq => ?_⟩
  · rw [State.pack_modPack_same _ _ _ hlt, ← hpack]
    rfl
  · rw [State.pack_modPack_ne _ _ _ _ hq]
    exact congrArg (vget · q Pack.reset) hend.packs
theorem packCapacitySet_begins {c : Cmd} {s : State} (h : Ready specPackCapacitySet c s = true) (hm : (s.pack (cIdx c)).members ≠ []) :
    Begins 0x212 c (.packs :: .engines :: .armed :: eventParts) (fun t =>
      PackIs (cIdx c) (fun k => { k with capPending := some (cw c 1, k.members) }) s t
      ∧ (∀ e ∈ (s.pack (cIdx c)).members, e < 48 → ∃ x, (t.eng e).cap = some x ∧ x.kNew = cw c 1)
      ∧ ∀ e, e ∉ (s.pack (cIdx c)).members → t.eng e = s.eng e) s (exec (.packCapacitySet c) s) := by
  refine begins_long specPackCapacitySet _ _ _ c s h specPackCapacitySet_eff rfl (fun j u hc ht hu hA => ?_)
  have hpacks : u.packs = s.packs := hu .packs (by decide)
  have hpack : u.pack (cIdx c) = s.pack (cIdx c) := by simp only [State.pack, hpacks]
  obtain ⟨hasked, hj, heng, hpending⟩ := packAsked_asks (ready_pack h rfl) j u
  have hstarted := membersStart_start c (u.packLoadTn (cIdx c)) (s.pack (cIdx c)).members (u.packAsked j c)
  rw [packCapacityEffect_of_members j (by rwa [hpack]), hpack]
  refine ⟨⟨hpending.of_same hpacks hstarted.steps.packs, hstarted.pending,
    fun e he => (hstarted.others e he).trans ((heng e).trans (eng_of_answer hu e))⟩, ?_⟩
  exact begun_of_steps hc ht hu hA (l := .packs :: .engines :: memberParts)
    ((hasked.mono (by decide)).trans (hstarted.steps.mono (by decide))) (hstarted.jobs j hj (by rw [ht]; decide)) (by decide)

/-- Settles O18: membership at once, the settings armed and at their boundary, and the capacity change by what it starts at each member. -/
theorem packCommands : Obligations.PackCommands := by
  intro c s
  refine ⟨packSet_does, packDelete_does, fun h => ?_, fun h => ?_, fun hlt => ?_, fun h => ?_, fun hkind hlt => ?_, fun hkind hlt => ?_,
    packCapacitySet_begins⟩
  · exact reports_now specPackStatus _ c s _ h rfl rfl rfl (by simp [State.packSlotsNow, State.pagesOf, State.packMemberGrains])
  · exact arms_boundary specPackSkewSet 0x213 _ c s h rfl rfl
  · exact packChange_of hlt boundaryEffect_packSkewSet rfl
  · exact arms_boundary specStoreSet 0x215 _ c s h rfl rfl
  · exact engineChange_of _ _ _ c s hlt boundaryEffect_storeSet (storeTarget_engine hkind)
  · exact packChange_of hlt boundaryEffect_storeSet (storeTarget_pack hkind _)
end Sys2Proof.Machine
end

section
/-! What the steps of the client ports and host lanes touch, tell and count, and how they change one port or one lane (used by O30 to
O33). -/
-- One after another: a task for each proof would ask for more threads than the memory limit allows.
set_option Elab.async false
namespace Sys2Proof.Machine

/-! ### Steps that leave what was told and what was counted -/

/-- A step that touches the parts of `l` alone, and leaves what was told and what was counted. -/
structure Moves (l : List Part) (s t : State) : Prop where
  steps : Steps l s t
  counted : ∀ x ∈ s.ctr.happened, x ∈ t.ctr.happened
section
variable {l m : List Part} {s t u : State}
theorem Moves.refl (l : List Part) (s : State) : Moves l s s := ⟨.refl .., fun _ h => h⟩
theorem Moves.mono (h : Moves l s t) (hl : ∀ p ∈ l, p ∈ m) : Moves m s t := ⟨h.steps.mono hl, h.counted⟩
theorem Moves.trans (h : Moves l s u) (h' : Moves l u t) : Moves l s t :=
  ⟨h.steps.trans h'.steps, fun x hx => h'.counted x (h.counted x hx)⟩
theorem moves_ite {b : Prop} {_ : Decidable b} (ht : Moves l s t) (hu : Moves l s u) : Moves l s (if b then t else u) := by
  split
  exacts [ht, hu]
/-- A step that leaves the counters and the protocol. -/
theorem moves_of_same (h : Only l s t) (hc : t.ctr = s.ctr) (hp : t.proto = s.proto) : Moves l s t :=
  ⟨steps_of_same h hc hp, by simp [hc]⟩
theorem Moves.raised (h : Moves l s t) {ev : Ev} {k : Kind} {i tn : Nat} {ws : List Word} (hr : Raised ev k i ws tn s) :
    Raised ev k i ws tn t := h.steps.told.raised _ _ _ _ _ hr
theorem Moves.ports (h : Moves l s t) (hl : Part.ports ∉ l := by decide) : t.ports = s.ports := h.steps.only .ports hl
theorem Moves.lanes (h : Moves l s t) (hl : Part.lanes ∉ l := by decide) : t.lanes = s.lanes := h.steps.only .lanes hl
theorem Moves.htiles (h : Moves l s t) (hl : Part.htiles ∉ l := by decide) : t.htiles = s.htiles := h.steps.only .htiles hl
theorem Moves.power (h : Moves l s t) (hl : Part.power ∉ l := by decide) : t.power = s.power := h.steps.only .power hl
theorem Moves.ticks (h : Moves l s t) (hl : Part.ticks ∉ l := by decide) : t.ticks = s.ticks := h.steps.only .ticks hl
theorem Moves.tn (h : Moves l s t) (hl : Part.tn ∉ l := by decide) : t.tn = s.tn := h.steps.only .tn hl
theorem Moves.lane (h : Moves l s t) (i : Nat) (hl : Part.lanes ∉ l := by decide) : t.lane i = s.lane i := by
  simp only [State.lane, h.lanes hl]
theorem Moves.portOpt (h : Moves l s t) (n : Nat) (hl : Part.ports ∉ l := by decide) : t.port? n = s.port? n := by
  simp only [State.port?, h.ports hl]
end
theorem Moves.of_steps {l : List Part} {s t : State} (h : Steps l s t) (hl : Part.happened ∉ l := by decide) : Moves l s t :=
  ⟨h, by rw [(h.only .happened hl).1]; exact fun _ hx => hx⟩
theorem moves_raise (ev : Ev) (k : Kind) (i : Nat) (ws : List Word) (s : State) : Moves eventParts s (s.raise ev k i ws) :=
  ⟨steps_raise .., (leaves_raise 0 ev k i ws s).counted⟩
theorem moves_count (c : Ctr) (k : Kind) (i n : Nat) (s : State) : Moves [.happened] s (s.count c k i n) :=
  ⟨(acts_count 0 c k i n s).steps_of_engines (by simp), (leaves_count 0 c k i n s).counted⟩
theorem moves_fresh (s : State) : Moves [.freeCtr] s s.fresh.2 :=
  moves_of_same (fun p hp => by cases p <;> simp [Part.same, State.fresh, State.tile] at hp ⊢) rfl rfl
theorem moves_modPort (n : Nat) (f : Port → Port) (s : State) : Moves [.ports] s (s.modPort n f) :=
  moves_of_same (fun p hp => by cases p <;> simp [Part.same] at hp ⊢) rfl rfl
theorem moves_modLane (i : Nat) (f : HostLane → HostLane) (s : State) : Moves [.lanes] s (s.modLane i f) :=
  moves_of_same (fun p hp => by cases p <;> simp [Part.same] at hp ⊢) rfl rfl
theorem moves_modHtile (i : Nat) (f : HostTile → HostTile) (s : State) : Moves [.htiles] s (s.modHtile i f) :=
  moves_of_same (fun p hp => by cases p <;> simp [Part.same] at hp ⊢) rfl rfl
/-- What one place of a fold establishes, under an invariant of the fold, holds after it. -/
theorem foldl_reaches {α : Type} {I Q : State → Prop} {f : State → α → State} {b : α} (hinv : ∀ u a, I u → I (f u a))
    (hkeep : ∀ u a, I u → Q u → Q (f u a)) (honce : ∀ u, I u → Q (f u b)) (as : List α) (hb : b ∈ as) :
    ∀ u, I u → Q (as.foldl f u) := by
  induction as with
  | nil => cases hb
  | cons a as ih =>
    intro u hu
    rcases List.mem_cons.mp hb with rfl | hb
    · exact (List.foldlRecOn (motive := fun v => I v ∧ Q v) as f ⟨hinv u b hu, honce u hu⟩
        (fun v hv a _ => ⟨hinv v a hv.1, hkeep v a hv.1 hv.2⟩)).2
    · exact ih hb _ (hinv u a hu)
/-- An event told at one place of a fold is told after it. -/
theorem raised_foldl {α : Type} {l : List Part} {s : State} {f : State → α → State} {ev : Ev} {k : Kind} {i tn : Nat} {ws : List Word} {b : α}
    (hstep : ∀ u, Moves l s u → ∀ a, Moves l u (f u a)) (honce : ∀ u, Moves l s u → Raised ev k i ws tn (f u b)) (as : List α)
    (hb : b ∈ as) : Raised ev k i ws tn (as.foldl f s) :=
  foldl_reaches (fun u a hu => hu.trans (hstep u hu a)) (fun u a hu => (hstep u hu a).raised) honce as hb s (.refl ..)

/-! ### Changes of one port -/

theorem State.portOpt_modPort (n j : Nat) (f : Port → Port) (s : State) :
    (s.modPort n f).port? j = (s.port? j).map (fun p => if j = n then f p else p) := by
  simp only [State.port?, State.modPort, List.find?_map, Option.map_map]
  have hkey : (fun p : Nat × Port => p.1 == j) ∘ (fun p => if (p.1 == n) = true then (p.1, f p.2) else p) = fun p => p.1 == j := by
    funext p
    simp only [Function.comp]
    split <;> rfl
  rw [hkey]
  cases hfind : s.ports.find? (fun p => p.1 == j) with
  | none => rfl
  | some p =>
    have hp : p.1 = j := by simpa using List.find?_some hfind
    simp only [Option.map_some, Function.comp, hp, beq_iff_eq]
    split <;> rfl
theorem portIs_modPort (n : Nat) (f : Port → Port) (s : State) : PortIs n f s (s.modPort n f) :=
  ⟨by simp only [State.portOpt_modPort, if_true], fun j hj => by simp only [State.portOpt_modPort, hj, if_false, Option.map_id']⟩
section
variable {n : Nat} {f g : Port → Port} {p : Port} {s s' t t' u : State}
theorem PortIs.of_same (h : PortIs n f s t) (hs : s.ports = s'.ports) (ht : t'.ports = t.ports) : PortIs n f s' t' := by
  simpa only [PortIs, State.port?, hs, ht] using h
theorem PortIs.of_moves {l m : List Part} (h : PortIs n f s' t) (hs : Only l s s') (ht : Moves m t t')
    (hl : Part.ports ∉ l := by decide) (hm : Part.ports ∉ m := by decide) : PortIs n f s t' := h.of_same (hs .ports hl) (ht.ports hm)
theorem PortIs.trans (h : PortIs n f s u) (h' : PortIs n g u t) : PortIs n (g ∘ f) s t :=
  ⟨by rw [h'.1, h.1, Option.map_map], fun q hq => (h'.2 q hq).trans (h.2 q hq)⟩
theorem PortIs.congr (h : PortIs n f s t) (hfg : ∀ p, s.port? n = some p → f p = g p) : PortIs n g s t := by
  refine ⟨h.1.trans ?_, h.2⟩
  cases hp : s.port? n with
  | none => rfl
  | some p => exact congrArg some (hfg p hp)
theorem PortIs.at (h : PortIs n f s t) (hp : s.port? n = some p) : t.port? n = some (f p) := by rw [h.1, hp]; rfl
end

/-! ### Changes of one lane -/

/-- A change of one host lane, where there is one, and of no other. -/
def LaneAt (l : Nat) (f : HostLane → HostLane) (s t : State) : Prop :=
  (l < 384 → t.lane l = f (s.lane l)) ∧ ∀ q, q ≠ l → t.lane q = s.lane q
section
variable {l : Nat} {f g : HostLane → HostLane} {s s' t t' u : State}
theorem laneAt_modLane (l : Nat) (f : HostLane → HostLane) (s : State) : LaneAt l f s (s.modLane l f) :=
  ⟨State.lane_modLane_same l f s, fun q hq => State.lane_modLane_ne l q f s hq⟩
theorem LaneAt.trans (h : LaneAt l f s u) (h' : LaneAt l g u t) : LaneAt l (g ∘ f) s t :=
  ⟨fun hl => by rw [h'.1 hl, h.1 hl]; rfl, fun q hq => (h'.2 q hq).trans (h.2 q hq)⟩
theorem LaneAt.of_same (h : LaneAt l f s t) (hs : s.lanes = s'.lanes) (ht : t'.lanes = t.lanes) : LaneAt l f s' t' := by
  simpa only [LaneAt, State.lane, hs, ht] using h
theorem LaneIs.of_same (h : LaneIs l f s t) (hs : s.lanes = s'.lanes) (ht : t'.lanes = t.lanes) : LaneIs l f s' t' := by
  simpa only [LaneIs, State.lane, hs, ht] using h
theorem LaneAt.laneIs (h : LaneAt l f s t) (hl : l < 384) : LaneIs l f s t := ⟨h.1 hl, h.2⟩
end
/-- Changes of several lanes, each named by one element of a list, and of no other. -/
def LanesAre {α : Type} (as : List α) (k : α → Nat) (g : α → HostLane → HostLane) (s t : State) : Prop :=
  (∀ a ∈ as, k a < 384 → t.lane (k a) = g a (s.lane (k a))) ∧ ∀ l, l ∉ as.map k → t.lane l = s.lane l
/-- A fold of changes, each of a lane of its own. -/
theorem lanes_foldl {α : Type} {m : List Part} {s : State} {f : State → α → State} {k : α → Nat} {g : α → HostLane → HostLane}
    (hstep : ∀ u, Moves m s u → ∀ a, Moves m u (f u a) ∧ LaneAt (k a) (g a) u (f u a)) (as : List α) (hnodup : (as.map k).Nodup) :
    ∀ u, Moves m s u → Moves m u (as.foldl f u) ∧ LanesAre as k g u (as.foldl f u) := by
  induction as with
  | nil => exact fun u _ => ⟨.refl .., by simp, fun _ _ => rfl⟩
  | cons a as ih =>
    intro u hu
    rw [List.map_cons, List.nodup_cons] at hnodup
    obtain ⟨hfirst, hat, hne⟩ := hstep u hu a
    obtain ⟨hrest, hin, hout⟩ := ih hnodup.2 _ (hu.trans hfirst)
    refine ⟨hfirst.trans hrest, fun b hb hlt => ?_, fun l hl => ?_⟩
    · rcases List.mem_cons.mp hb with rfl | hb
      · exact (hout _ hnodup.1).trans (hat hlt)
      · have hkey : k b ≠ k a := fun h => hnodup.1 (h ▸ List.mem_map_of_mem hb)
        exact (hin b hb hlt).trans (congrArg (g b) (hne _ hkey))
    · simp only [List.map_cons, List.mem_cons, not_or] at hl
      exact (hout l hl.2).trans (hne l hl.1)
/-- The lanes of a port are different lanes. -/
theorem Port.lanes_nodup (p : Port) (n : Nat) : (p.lanes n).Nodup :=
  List.nodup_range.map (fun _ _ h => Nat.add_left_cancel h)

/-! ### Holds of a lane's adaptation (R273, R274) -/

/-- What touches a lane and may tell of it. -/
def laneParts : List Part := .lanes :: eventParts
/-- A lane frozen for a reason. -/
def HostLane.frozen (r : FreezeReason) (h : HostLane) : HostLane :=
  { h with shortHold := h.shortHold || r != .brace, braceHold := h.braceHold || r == .brace
           heldWindows := if h.shortHold || h.braceHold then h.heldWindows else 0
           goodWindows := if r = .brace then h.goodWindows else 0 }
theorem laneFreeze_freezes (l : Nat) (r : FreezeReason) (s : State) : Moves laneParts s (s.laneFreeze l r)
    ∧ LaneAt l (HostLane.frozen r) s (s.laneFreeze l r)
    ∧ ((s.lane l).shortHold = false → (s.lane l).braceHold = false →
        Raised .hlFreeze .hostLane l (w1 r.code ++ w2 s.tn) s.tn (s.laneFreeze l r)) := by
  unfold State.laneFreeze
  dsimp only
  generalize hu : s.modLane l _ = u
  have hmove : Moves [.lanes] s u := hu ▸ moves_modLane ..
  have hlane : LaneAt l (HostLane.frozen r) s u :=
    ⟨fun hl => by rw [← hu, State.lane_modLane_same _ _ _ hl]; rfl, hu ▸ (laneAt_modLane l _ s).2⟩
  refine ⟨(hmove.mono (by decide)).trans (moves_ite (.refl ..) ((moves_raise ..).mono (by decide))), ?_, fun hshort hbrace => ?_⟩
  · split
    exacts [hlane, hlane.of_same rfl (moves_raise ..).lanes]
  · rw [hshort, hbrace, ← hmove.tn]
    exact raised_raise ..
theorem laneThaw_thaws (l : Nat) (s : State) : Moves laneParts s (s.laneThaw l false)
    ∧ LaneAt l (fun h => { h with shortHold := false }) s (s.laneThaw l false)
    ∧ (l < 384 → (s.lane l).shortHold = true → (s.lane l).braceHold = false →
        Raised .hlThaw .hostLane l (w1 (s.lane l).heldWindows ++ w2 s.tn) s.tn (s.laneThaw l false)) := by
  unfold State.laneThaw
  simp only [Bool.false_eq_true, if_false]
  have hmove := moves_modLane l (fun h => { h with shortHold := false }) s
  have hlane := laneAt_modLane l (fun h => { h with shortHold := false }) s
  refine ⟨(hmove.mono (by decide)).trans (moves_ite ((moves_raise ..).mono (by decide)) (.refl ..)), ?_, fun hl hshort hbrace => ?_⟩
  · split
    exacts [hlane.of_same rfl (moves_raise ..).lanes, hlane]
  · rw [hlane.1 hl, hshort, hbrace]
    exact raised_raise_tn hmove.tn

/-! ### A lane starts (R263, R274) -/

/-- Lane `l` starts (`HostLane.begun`): in brace it is frozen from the start, and told. -/
theorem laneStart_starts (l : Nat) (s : State) : Moves laneParts s (s.laneStart l)
    ∧ LaneAt l (HostLane.begun s.power.braceEffect) s (s.laneStart l)
    ∧ (l < 384 → s.power.braceEffect = true → Raised .hlFreeze .hostLane l (w1 2 ++ w2 s.tn) s.tn (s.laneStart l)) := by
  unfold State.laneStart
  dsimp only
  generalize hu : (if ((s.lane l).shortHold || (s.lane l).braceHold) = true then _ else s.modLane l HostLane.start) = u
  have hmove : Moves laneParts s u :=
    hu ▸ ((moves_modLane ..).mono (by decide)).trans (moves_ite ((moves_raise ..).mono (by decide)) (.refl ..))
  have hlane : LaneAt l HostLane.start s u := by
    subst hu
    split
    exacts [(laneAt_modLane ..).of_same rfl (moves_raise ..).lanes, laneAt_modLane ..]
  rw [hmove.power]
  obtain ⟨hfreeze, hfrozen, hraised⟩ := laneFreeze_freezes l .brace u
  cases s.power.braceEffect with
  | false => exact ⟨hmove, hlane, by simp⟩
  | true =>
    refine ⟨hmove.trans hfreeze, hlane.trans hfrozen, fun hl _ => ?_⟩
    have hstarted := hlane.1 hl
    rw [← hmove.tn]
    exact hraised (by rw [hstarted]; rfl) (by rw [hstarted]; rfl)
end Sys2Proof.Machine
end

section
/-! The rounds of a client port (R269, R275 to R279): how one starts, fails and ends, and what TRAIN_RESULT tells of it. -/
-- One after another: a task for each proof would ask for more threads than the memory limit allows.
set_option Elab.async false
namespace Sys2Proof.Machine

/-- What a change of a port's round touches. -/
def roundParts : List Part := .ports :: .lanes :: .freeCtr :: eventParts
/-- What TRAIN_RESULT touches. -/
def resultParts : List Part := .ports :: .freeCtr :: eventParts

/-! ### TRAIN_RESULT (R279) -/

/-- What TRAIN_RESULT names as the lane that first failed. -/
def Port.failedLane (p : Port) (s : State) : Nat :=
  match p.round.firstLane with
  | some l => targetNat .hostLane l 0
  | none => s.fresh.1
/-- A port with the outcome of its round. -/
def Port.withOutcome (outcome : Nat) (p : Port) : Port := { p with lastOutcome := outcome, lastAttempts := p.round.attempts }
theorem trainResult_tells {n outcome : Nat} {p : Port} {s : State} (hp : s.port? n = some p) :
    Moves resultParts s (s.trainResult n outcome) ∧ PortIs n (Port.withOutcome outcome) s (s.trainResult n outcome)
      ∧ Raised .trainResult .port n
          (w1 outcome ++ w1 p.round.attempts ++ (p.round.causes.map w1).flatten ++ w1 (p.failedLane s)) s.tn (s.trainResult n outcome) := by
  simp only [State.trainResult, hp]
  generalize hu : (if p.round.firstLane.isSome = true then s else s.fresh.2) = u
  have hfree : Moves [.freeCtr] s u := hu ▸ moves_ite (.refl ..) (moves_fresh s)
  have hport := moves_modPort n (Port.withOutcome outcome) u
  refine ⟨((hfree.mono (by decide)).trans (hport.mono (by decide))).trans ((moves_raise ..).mono (by decide)), ?_, ?_⟩
  · exact (portIs_modPort n (Port.withOutcome outcome) u).of_same hfree.ports (moves_raise ..).ports
  · exact raised_raise_tn (hport.tn.trans hfree.tn)
theorem Port.roundTold_idle {p : Port} (h : ¬(p.state = .training ∨ p.state = .aligning)) : p.roundTold = p := if_neg h
theorem endRound_tells (n : Nat) (s : State) : Moves resultParts s (s.endRound n) ∧ PortIs n Port.roundTold s (s.endRound n)
    ∧ ∀ p, s.port? n = some p → RoundTold n p s (s.endRound n) := by
  unfold State.endRound
  cases hp : s.port? n with
  | none => exact ⟨.refl .., ⟨by simp [hp], fun _ _ => rfl⟩, by simp⟩
  | some p =>
    by_cases hround : p.state = .training ∨ p.state = .aligning
    · rw [if_pos (by simpa using hround)]
      obtain ⟨hmove, hport, hraised⟩ := trainResult_tells (outcome := 3) hp
      refine ⟨hmove, hport.congr (fun q hq => ?_), fun q hq _ => ⟨p.failedLane s, ?_⟩⟩
      · obtain rfl : p = q := by simpa [hp] using hq
        exact (if_pos hround).symm
      · obtain rfl : p = q := by simpa using hq
        exact hraised
    · rw [if_neg (by simpa using hround)]
      refine ⟨.refl .., ⟨?_, fun _ _ => rfl⟩, fun q hq hstate => ?_⟩
      · rw [hp, Option.map_some, Port.roundTold_idle hround]
      · obtain rfl : p = q := by simpa using hq
        exact absurd hstate hround

/-! ### HOLDOFF (R277) -/

/-- A lane whose diagnostics are stopped. -/
def HostLane.stopped (h : HostLane) : HostLane := { h with loopback := 0, generator := 0, checker := 0, locked := false }
theorem stopDiagnostics_stops {n : Nat} {p : Port} {s : State} (hp : s.port? n = some p) :
    Moves [.lanes] s (s.stopDiagnostics n) ∧ LanesAre (p.lanes n) id (fun _ => HostLane.stopped) s (s.stopDiagnostics n) := by
  simp only [State.stopDiagnostics, hp]
  exact lanes_foldl (fun u _ l => ⟨moves_modLane .., laneAt_modLane l HostLane.stopped u⟩) _
    (by simpa using p.lanes_nodup n) s (.refl ..)
theorem moves_stopDiagnostics (n : Nat) (s : State) : Moves [.lanes] s (s.stopDiagnostics n) := by
  cases hp : s.port? n with
  | none => simp only [State.stopDiagnostics, hp, Moves.refl]
  | some p => exact (stopDiagnostics_stops hp).1
theorem lane_stopDiagnostics {n l : Nat} {s : State} (hl : ∀ p, s.port? n = some p → l ∉ p.lanes n) :
    (s.stopDiagnostics n).lane l = s.lane l := by
  cases hp : s.port? n with
  | none => simp only [State.stopDiagnostics, hp]
  | some p => exact (stopDiagnostics_stops hp).2.2 l (by simpa using hl p hp)
/-- A port that enters HOLDOFF. -/
def Port.heldOff (now : Nat) (p : Port) : Port :=
  { p with state := .holdoff, fallbackUp := false, round := { p.round with holdStart := now, holdFor := p.trainHoldoff } }
theorem enterHoldoff_holds (n : Nat) (s : State) : Moves [.ports, .lanes] s (s.enterHoldoff n)
    ∧ PortIs n (Port.heldOff s.ticks) s (s.enterHoldoff n)
    ∧ ∀ l, (∀ p, s.port? n = some p → l ∉ p.lanes n) → (s.enterHoldoff n).lane l = s.lane l := by
  have hstop := moves_stopDiagnostics n s
  have hport := moves_modPort n (Port.heldOff s.ticks) (s.stopDiagnostics n)
  refine ⟨(hstop.mono (by decide)).trans (hport.mono (by decide)), ?_, fun l hl => (hport.lane l).trans (lane_stopDiagnostics hl)⟩
  exact (portIs_modPort n (Port.heldOff s.ticks) _).of_same hstop.ports rfl
/-- A round that ends DOWN leads to HOLDOFF (R277, R279). -/
theorem holdoff_of_down {n : Nat} {p : Port} {s : State} (hp : s.port? n = some p) :
    Moves roundParts s ((s.trainResult n 3).enterHoldoff n)
      ∧ PortIs n (Port.heldOff s.ticks ∘ Port.withOutcome 3) s ((s.trainResult n 3).enterHoldoff n)
      ∧ Raised .trainResult .port n (w1 3 ++ w1 p.round.attempts ++ (p.round.causes.map w1).flatten ++ w1 (p.failedLane s)) s.tn
          ((s.trainResult n 3).enterHoldoff n)
      ∧ ∀ l, l ∉ p.lanes n → ((s.trainResult n 3).enterHoldoff n).lane l = s.lane l := by
  obtain ⟨htold, hresult, hraised⟩ := trainResult_tells (outcome := 3) hp
  obtain ⟨hmove, hheld, hlanes⟩ := enterHoldoff_holds n (s.trainResult n 3)
  rw [htold.ticks] at hheld
  refine ⟨(htold.mono (by decide)).trans (hmove.mono (by decide)), hresult.trans hheld, hmove.raised hraised,
    fun l hl => (hlanes l (fun q hq => ?_)).trans (htold.lane l)⟩
  obtain rfl : p.withOutcome 3 = q := Option.some.inj ((hresult.at hp).symm.trans hq)
  exact hl

/-! ### A round starts (R269, R276) -/

/-- A round is started in a clocked tile: its lanes start with the taps that waited. -/
theorem startLanes_start (n : Nat) (p : Port) (s : State) :
    let t := (p.lanes n).foldl (fun s l => (s.laneStart l).modLane l (fun h => { h with txFfe := p.ffeNext })) s
    Moves laneParts s t ∧ LanesAre (p.lanes n) id (fun _ h => { h.begun s.power.braceEffect with txFfe := p.ffeNext }) s t
      ∧ ∀ l ∈ p.lanes n, l < 384 → s.power.braceEffect = true → Raised .hlFreeze .hostLane l (w1 2 ++ w2 s.tn) s.tn t := by
  have hstep : ∀ u, Moves laneParts s u → ∀ l, Moves laneParts u ((u.laneStart l).modLane l (fun h => { h with txFfe := p.ffeNext }))
      ∧ LaneAt l (fun h => { h.begun s.power.braceEffect with txFfe := p.ffeNext }) u
          ((u.laneStart l).modLane l (fun h => { h with txFfe := p.ffeNext })) := by
    intro u hu l
    obtain ⟨hstart, hlane, -⟩ := laneStart_starts l u
    rw [hu.power] at hlane
    exact ⟨hstart.trans ((moves_modLane ..).mono (by decide)), hlane.trans (laneAt_modLane ..)⟩
  intro t
  obtain ⟨hmove, hlanes⟩ := lanes_foldl (k := id) hstep (p.lanes n) (by simpa using p.lanes_nodup n) s (.refl ..)
  refine ⟨hmove, hlanes, fun l hl hlt hbrace => raised_foldl (fun u hu l => (hstep u hu l).1) (fun u hu => ?_) _ hl⟩
  refine (moves_modLane ..).raised ?_
  rw [← hu.tn]
  exact (laneStart_starts l u).2.2 hlt (hu.power ▸ hbrace)
theorem startRound_starts {n : Nat} {p : Port} {s : State} (hp : s.port? n = some p) :
    Moves roundParts s (s.startRound n) ∧ RoundStarted n p s (s.startRound n) := by
  simp only [State.startRound, hp]
  cases hclock : s.clocked n with
  | false =>
    obtain ⟨hmove, hheld, hlanes⟩ := enterHoldoff_holds n s
    exact ⟨hmove.mono (by decide), by simp [hclock], fun _ => ⟨_, hheld.at hp, rfl, rfl, rfl⟩, hheld.2, by simp [hclock],
      fun l hl => hlanes l (by simpa [hp] using hl)⟩
  | true =>
    simp only [Bool.not_true, Bool.false_eq_true, if_false]
    obtain ⟨hstart, ⟨hin, hout⟩, hraised⟩ := startLanes_start n p s
    generalize (p.lanes n).foldl _ s = u at *
    generalize hv : (if (s.htile (n / 96)).syntonised = true then u.fresh.2.fresh.2 else u) = v
    have hfree : Moves [.freeCtr] u v := hv ▸ moves_ite ((moves_fresh u).trans (moves_fresh _)) (.refl ..)
    generalize ht : v.modPort n _ = t
    have hport : Moves [.ports] v t := ht ▸ moves_modPort ..
    have hlane : ∀ l, t.lane l = u.lane l := fun l => (hport.lane l).trans (hfree.lane l)
    have hround := ht ▸ portIs_modPort n _ v
    have hnow := hround.of_same (hfree.ports.trans hstart.ports) rfl
    refine ⟨((hstart.mono (by decide)).trans (hfree.mono (by decide))).trans (hport.mono (by decide)), fun _ => ⟨_, hnow.at hp, ?_⟩,
      by simp [hclock], hnow.2, fun _ l hl hlt => ⟨(hlane l).trans (hin l hl hlt), fun hbrace => ?_⟩,
      fun l hl => (hlane l).trans (hout l (by simpa using hl))⟩
    · have hticks : v.ticks = s.ticks := hfree.ticks.trans hstart.ticks
      cases p.trainFixed.getD p.c2m <;> simp [Port.attempt, hticks]
    · exact hport.raised (hfree.raised (hraised l hl hlt hbrace))
/-- That a round has started does not depend on what was told of the one before. -/
theorem RoundStarted.of_roundTold {n : Nat} {p : Port} {s t : State} (h : RoundStarted n p.roundTold s t) : RoundStarted n p s t := by
  unfold Port.roundTold at h
  split at h
  exacts [h, h]
/-- That a round has started is seen in every state that leaves what it starts from, and stays so where its port and lanes do. -/
theorem RoundStarted.of_same {n : Nat} {p : Port} {l m : List Part} {s s' t t' : State} (h : RoundStarted n p s' t) (hs : Only l s s')
    (hports : ∀ q, q ≠ n → s'.port? q = s.port? q) (ht : Moves m t t')
    (hl : ∀ x ∈ l, x ∉ [Part.htiles, .ticks, .tn, .power, .lanes] := by decide)
    (hm : ∀ x ∈ m, x ∉ [Part.ports, .lanes] := by decide) : RoundStarted n p s t' := by
  have hclock : s'.clocked n = s.clocked n := by
    simp only [State.clocked, State.htile, show s'.htiles = s.htiles from hs .htiles (fun hx => hl _ hx (by decide))]
  have hlane : ∀ i, t'.lane i = t.lane i := fun i => ht.lane i (fun hx => hm _ hx (by decide))
  have hport : ∀ i, t'.port? i = t.port? i := fun i => ht.portOpt i (fun hx => hm _ hx (by decide))
  have hlane' : ∀ i, s'.lane i = s.lane i := fun i =>
    congrArg (vget · i HostLane.reset) (hs .lanes (fun hx => hl _ hx (by decide)))
  have hticks : s'.ticks = s.ticks := hs .ticks (fun hx => hl _ hx (by decide))
  have hpower : s'.power = s.power := hs .power (fun hx => hl _ hx (by decide))
  have htn : s'.tn = s.tn := hs .tn (fun hx => hl _ hx (by decide))
  unfold RoundStarted at h ⊢
  simp only [hclock, hlane', hticks, hpower, htn] at h
  simp only [hlane, hport]
  obtain ⟨hclocked, hheld, hothers, hlanes, hrest⟩ := h
  exact ⟨hclocked, hheld, fun q hq => (hothers q hq).trans (hports q hq),
    fun hc i hi hlt => ⟨(hlanes hc i hi hlt).1, fun hb => ht.raised ((hlanes hc i hi hlt).2 hb)⟩, hrest⟩

/-! ### An attempt fails (R276, R277) -/

/-- A port one of whose attempts has failed. -/
def Port.failed (cause lane : Nat) (p : Port) : Port :=
  { p with round := { p.round with causes := p.round.causes ++ [cause], firstLane := some (p.round.firstLane.getD lane) } }
@[simp] theorem Port.attempt_state (p : Port) (now : Nat) : (p.attempt now).state = if p.round.fixed then .aligning else .training := by
  unfold Port.attempt
  dsimp only
  split <;> rfl
@[simp] theorem Port.attempt_round (p : Port) (now : Nat) : (p.attempt now).round =
    { p.round with attempts := p.round.attempts + 1, started := now, timeout := p.trainTimeout
                   alignStart := if p.round.fixed then now else p.round.alignStart } := by
  unfold Port.attempt
  dsimp only
  split <;> rfl
/-- A port whose fallback is tried. -/
def Port.fallingBack (now : Nat) (p : Port) : Port :=
  { p with state := .aligning, ffe := p.fallbackTx, round := { p.round with fallback := true, alignStart := now } }
/-- The receivers of a port whose fallback is tried are at their start values. -/
theorem fallbackLanes_set (n : Nat) (p : Port) (s : State) :
    let t := (p.lanes n).foldl (fun s l => s.modLane l (fun h => { h.startValues with txFfe := p.fallbackTx })) s
    Moves [.lanes] s t ∧ LanesAre (p.lanes n) id (fun _ h => { h.startValues with txFfe := p.fallbackTx }) s t :=
  lanes_foldl (fun _ _ _ => ⟨moves_modLane .., laneAt_modLane ..⟩) (p.lanes n) (by simpa using p.lanes_nodup n) s (.refl ..)
/-- Where a failed attempt leads to: the next attempt, the fallback, or HOLDOFF. -/
def State.afterFailure (n : Nat) (p : Port) (s : State) : State :=
  if p.round.attempts < 4 then s.modPort n (fun p => p.attempt (s.ticks + 1))
  else if !p.round.fixed && p.round.fallbackEn then
    ((p.lanes n).foldl (fun s l => s.modLane l (fun h => { h.startValues with txFfe := p.fallbackTx })) s).modPort n
      (Port.fallingBack s.ticks)
  else (s.trainResult n 3).enterHoldoff n
theorem attemptFails_eq {n cause lane : Nat} {p : Port} {s : State} (hp : s.port? n = some p) (hfallback : p.round.fallback = false) :
    s.attemptFails n cause lane
      = State.afterFailure n p ((s.modPort n (Port.failed cause lane)).count .trainFails .port n 1) := by
  simp only [State.attemptFails, hp, hfallback, Bool.false_eq_true, if_false]
  rfl
section
variable {n : Nat} {p : Port} {s : State}
/-- Up to the fourth, the next attempt starts at the following tick. -/
theorem afterFailure_retries (hmore : p.round.attempts < 4) : Moves roundParts s (s.afterFailure n p)
    ∧ PortIs n (fun q => q.attempt (s.ticks + 1)) s (s.afterFailure n p) ∧ ∀ l, (s.afterFailure n p).lane l = s.lane l := by
  unfold State.afterFailure
  rw [if_pos hmore]
  exact ⟨(moves_modPort ..).mono (by decide), portIs_modPort .., fun _ => rfl⟩
/-- After the fourth the fallback is tried, where it is enabled and the round is not a fixed one. -/
theorem afterFailure_fallsBack (hlast : 4 ≤ p.round.attempts) (hfixed : p.round.fixed = false) (hen : p.round.fallbackEn = true) :
    Moves roundParts s (s.afterFailure n p) ∧ PortIs n (Port.fallingBack s.ticks) s (s.afterFailure n p)
      ∧ LanesAre (p.lanes n) id (fun _ h => { h.startValues with txFfe := p.fallbackTx }) s (s.afterFailure n p) := by
  unfold State.afterFailure
  rw [if_neg (by omega), if_pos (by simp [hfixed, hen])]
  obtain ⟨hset, hlanes⟩ := fallbackLanes_set n p s
  generalize (p.lanes n).foldl _ s = u at *
  have hport := moves_modPort n (Port.fallingBack s.ticks) u
  exact ⟨(hset.mono (by decide)).trans (hport.mono (by decide)), (portIs_modPort ..).of_same hset.ports rfl, hlanes⟩
/-- Else the round ends DOWN, in HOLDOFF. -/
theorem afterFailure_down (hlast : 4 ≤ p.round.attempts) (hnone : p.round.fixed = true ∨ p.round.fallbackEn = false) :
    s.afterFailure n p = (s.trainResult n 3).enterHoldoff n := by
  unfold State.afterFailure
  rw [if_neg (by omega), if_neg (by rcases hnone with h | h <;> simp [h])]
end
theorem attemptFails_fails {n cause lane : Nat} {p : Port} {s : State} (hp : s.port? n = some p) :
    Moves roundParts s (s.attemptFails n cause lane) ∧ AttemptFailed n cause lane p s (s.attemptFails n cause lane) := by
  cases hfallback : p.round.fallback with
  | true =>
    have heq : s.attemptFails n cause lane = (s.trainResult n 3).enterHoldoff n := by simp [State.attemptFails, hp, hfallback]
    obtain ⟨hmove, hport, hraised, hlanes⟩ := holdoff_of_down hp
    rw [heq]
    exact ⟨hmove, hport.2, hlanes, _, hport.at hp, fun _ => ⟨rfl, rfl, _, hraised⟩, by simp [hfallback]⟩
  | false =>
    rw [attemptFails_eq hp hfallback]
    have hset := moves_modPort n (Port.failed cause lane) s
    have hcount := moves_count .trainFails .port n 1 (s.modPort n (Port.failed cause lane))
    have hcounted := (counted_count .trainFails .port n 1 (s.modPort n (Port.failed cause lane)) (by decide)).1
    have hport : PortIs n (Port.failed cause lane) s _ := (portIs_modPort ..).of_same rfl hcount.ports
    have hlane := fun l => (hcount.lane l).trans (hset.lane l)
    have hmove : Moves roundParts s _ := (hset.mono (by decide)).trans (hcount.mono (by decide))
    generalize (s.modPort n (Port.failed cause lane)).count .trainFails .port n 1 = u at *
    have hp' := hport.at hp
    rcases Nat.lt_or_ge p.round.attempts 4 with hmore | hlast
    · obtain ⟨hnext, hport', hlane'⟩ := afterFailure_retries (n := n) (s := u) hmore
      refine ⟨hmove.trans hnext, (hport.trans hport').2, fun l _ => (hlane' l).trans (hlane l), _, hport'.at hp', by simp [hfallback],
        fun _ => ⟨by simp [Port.failed], by simp [Port.failed], hnext.counted _ hcounted, fun _ => ?_, by omega, by omega⟩⟩
      simp [Port.failed, hmove.ticks]
    · by_cases hback : p.round.fixed = false ∧ p.round.fallbackEn = true
      · obtain ⟨hnext, hport', hin, hout⟩ := afterFailure_fallsBack (n := n) (s := u) hlast hback.1 hback.2
        refine ⟨hmove.trans hnext, (hport.trans hport').2, fun l hl => (hout l (by simpa using hl)).trans (hlane l), _, hport'.at hp',
          by simp [hfallback], fun _ => ⟨rfl, rfl, hnext.counted _ hcounted, by omega, fun _ _ _ => ⟨rfl, rfl, rfl, ?_⟩, ?_⟩⟩
        · exact fun l hl hlt => (hin l hl hlt).trans (by simp only [id, hlane])
        · simp [hback]
      · have hnone : p.round.fixed = true ∨ p.round.fallbackEn = false := by
          simpa only [not_and_or, Bool.not_eq_false, Bool.not_eq_true] using hback
        rw [afterFailure_down hlast hnone]
        obtain ⟨hnext, hport', hraised, hlanes⟩ := holdoff_of_down hp'
        refine ⟨hmove.trans hnext, (hport.trans hport').2, fun l hl => (hlanes l hl).trans (hlane l), _, hport'.at hp', by simp [hfallback],
          fun _ => ⟨rfl, rfl, hnext.counted _ hcounted, by omega, fun _ hf he => absurd ⟨hf, he⟩ hback, fun _ _ => ⟨rfl, ?_⟩⟩⟩
        rw [hmove.tn] at hraised
        exact hraised
end Sys2Proof.Machine
end

section
/-! The port commands (O30). -/
-- One after another: a task for each proof would ask for more threads than the memory limit allows.
set_option Elab.async false
namespace Sys2Proof.Machine

/-! ### Commands and changes of one port -/

/-- A command that sets one port at once, and nothing else. -/
theorem does_port_now {sp : OpSpec} {f : Cmd → State → State × List Word} {g : Port → Port} {c : Cmd} {s : State}
    (h : Ready sp c s = true) (he : sp.eff = .now f) (ha : sp.onAccept = fun _ s => s)
    (hf : f c (s.atParse sp.code c) = ((s.atParse sp.code c).modPort (cIdx c) g, [])) :
    Does sp.code c [] [.ports] (PortIs (cIdx c) g s) s (runOp sp c s) :=
  does_steps h he ha hf (moves_modPort ..).steps (by decide) (fun _ ht =>
    (portIs_modPort ..).of_same (State.atParse_ports ..) (ht.only .ports (by decide)))

/-! ### PORT_SET (R265) -/

theorem find?_insertPort_same (low : Nat) (p : Port) (l : List (Nat × Port)) :
    (insertPort low p l).find? (fun x => x.1 == low) = some (low, p) := by
  induction l with
  | nil => simp [insertPort]
  | cons x l ih =>
    obtain ⟨k, q⟩ := x
    unfold insertPort
    split
    · simp
    · split
      · simp
      next hne => simp [ih, show (k == low) = false by simpa using Ne.symm hne]
theorem find?_insertPort_ne {low n : Nat} (h : n ≠ low) (p : Port) (l : List (Nat × Port)) :
    (insertPort low p l).find? (fun x => x.1 == n) = l.find? (fun x => x.1 == n) := by
  have hlow : (low == n) = false := by simpa using Ne.symm h
  induction l with
  | nil => simp [insertPort, hlow]
  | cons x l ih =>
    obtain ⟨k, q⟩ := x
    unfold insertPort
    split
    · simp [hlow]
    · split
      next heq => subst heq; simp [hlow]
      · simp only [List.find?_cons, ih]
/-- A port defined, in place of one that was. -/
def State.definePort (n : Nat) (p : Port) (s : State) : State := { s with ports := insertPort n p s.ports }
theorem State.portOpt_definePort_same (n : Nat) (p : Port) (s : State) : (s.definePort n p).port? n = some p := by
  simp only [State.port?, State.definePort, find?_insertPort_same, Option.map_some]
theorem State.portOpt_definePort_ne {n j : Nat} (h : j ≠ n) (p : Port) (s : State) : (s.definePort n p).port? j = s.port? j := by
  simp only [State.port?, State.definePort, find?_insertPort_ne h]
theorem moves_definePort (n : Nat) (p : Port) (s : State) : Moves [.ports] s (s.definePort n p) :=
  moves_of_same (fun x hx => by cases x <;> simp [Part.same, State.definePort, State.tile] at hx ⊢) rfl rfl
/-- The port that PORT_SET defines. -/
def definedPort (c : Cmd) (s : State) : Port :=
  match s.port? (cIdx c) with
  | some p => { p with ty := cw c 1, fast := cw c 2 == 0, c2m := cw c 3 == 1, data := (Port.fresh 0 false false).data }
  | none => Port.fresh (cw c 1) (cw c 2 == 0) (cw c 3 == 1)
theorem specPortSet_eff : specPortSet.eff = .now (fun c s => (s.definePort (cIdx c) (definedPort c s), [])) := rfl
/-- A port that PORT_SET defines anew is DISABLED (R265). -/
theorem disabled_of_portSetRefusal {c : Cmd} {s : State} {p : Port} (h : portSetRefusal s c = none) (hp : s.port? (cIdx c) = some p) :
    p.state = .disabled := by
  simp only [portSetRefusal, firstRefusal, List.findSome?_eq_none_iff] at h
  have hservice := h (if (s.port? (cIdx c)).any (fun p => p.state != .disabled) then some (.portInService, cIdx c) else none) (by simp)
  simpa [hp] using hservice
theorem definedPort_is {c : Cmd} {s : State} (h : Ready specPortSet c s = true) :
    let q := definedPort c (s.atParse 0x300 c)
    q.ty = cw c 1 ∧ q.fast = (cw c 2 == 0) ∧ q.c2m = (cw c 3 == 1) ∧ q.state = .disabled
      ∧ ∀ p, s.port? (cIdx c) = some p → q.trainTimeout = p.trainTimeout ∧ q.ffeNext = p.ffeNext ∧ q.tap = p.tap
        ∧ q.cDegSet = p.cDegSet ∧ q.ptp = p.ptp := by
  have hrefuse : portSetRefusal (s.atParse 0x300 c) c = none := ready_refuse _ _ _ h
  intro q
  have hport := State.portOpt_atParse 0x300 c (cIdx c) s
  cases hp : s.port? (cIdx c) with
  | none =>
    have hq : q = Port.fresh (cw c 1) (cw c 2 == 0) (cw c 3 == 1) := by simp only [q, definedPort, hport, hp]
    rw [hq]
    exact ⟨rfl, rfl, rfl, rfl, by simp⟩
  | some p =>
    have hq : q = { p with ty := cw c 1, fast := cw c 2 == 0, c2m := cw c 3 == 1, data := (Port.fresh 0 false false).data } := by
      simp only [q, definedPort, hport, hp]
    rw [hq]
    refine ⟨rfl, rfl, rfl, disabled_of_portSetRefusal hrefuse (p := p) (hport.trans hp), fun p' hp' => ?_⟩
    obtain rfl : p = p' := by simpa using hp'
    exact ⟨rfl, rfl, rfl, rfl, rfl⟩
theorem portSet_does {c : Cmd} {s : State} (h : Ready specPortSet c s = true) : Does 0x300 c [] [.ports] (fun t =>
    (∃ q, t.port? (cIdx c) = some q ∧ q.ty = cw c 1 ∧ q.fast = (cw c 2 == 0) ∧ q.c2m = (cw c 3 == 1) ∧ q.state = .disabled
      ∧ ∀ p, s.port? (cIdx c) = some p → q.trainTimeout = p.trainTimeout ∧ q.ffeNext = p.ffeNext ∧ q.tap = p.tap
        ∧ q.cDegSet = p.cDegSet ∧ q.ptp = p.ptp)
    ∧ ∀ n, n ≠ cIdx c → t.port? n = s.port? n) s (exec (.portSet c) s) := by
  refine does_steps h specPortSet_eff rfl rfl (moves_definePort ..).steps (by decide) (fun t ht => ?_)
  have hfinal := (Moves.of_steps ht).portOpt
  exact ⟨⟨_, (hfinal _).trans (State.portOpt_definePort_same ..), definedPort_is h⟩,
    fun n hn => (hfinal n).trans ((State.portOpt_definePort_ne hn ..).trans (State.portOpt_atParse ..))⟩

/-! ### PORT_DELETE (R265, R388) -/

/-- One client defect is told as cleared if its port reported it. -/
def State.clearClientDefect (n : Nat) (s : State) (d : ClientDefect) : State :=
  if (s.port? n).any (fun p => p.reported.contains d) then s.defectChange .port n (clientOrd d) false else s
theorem moves_clearClientDefect (n : Nat) (s : State) (d : ClientDefect) : Moves eventParts s (s.clearClientDefect n d) :=
  moves_ite (moves_raise ..) (.refl ..)
theorem raised_clearClientDefect {n : Nat} {p : Port} {s : State} {d : ClientDefect} (hp : s.port? n = some p) (hd : d ∈ p.reported) :
    Raised .defectChange .port n (w1 (clientOrd d) ++ w1 0 ++ w2 s.tn) s.tn (s.clearClientDefect n d) := by
  unfold State.clearClientDefect
  rw [if_pos (by simpa [hp] using hd)]
  exact raised_raise ..
/-- A port without what it reported and without its bandwidth window. -/
def State.clearPort (n : Nat) (s : State) : State := clientDefects.foldl (State.clearClientDefect n) (s.bwDiscard n)
theorem moves_bwDiscard (n : Nat) (s : State) : Moves [.counters] s (s.bwDiscard n) := by
  refine ⟨⟨fun p hp => ?_, ?_⟩, fun _ hx => hx⟩
  · cases p <;> simp [Part.same, State.bwDiscard, State.setBw] at hp ⊢
  · exact keepsTold_of_same rfl ⟨rfl, rfl⟩ rfl rfl ⟨rfl, rfl, rfl, rfl⟩
theorem moves_clearPort (n : Nat) (s : State) : Moves (.counters :: eventParts) s (s.clearPort n) :=
  ((moves_bwDiscard n s).mono (by decide)).trans
    (List.foldlRecOn clientDefects _ (.refl ..) (fun _ hu d _ => hu.trans ((moves_clearClientDefect n _ d).mono (by decide))))
/-- Each defect reported is told as cleared. -/
theorem raised_clearPort {n : Nat} {p : Port} {s : State} {d : ClientDefect} (hp : s.port? n = some p) (hd : d ∈ p.reported)
    (hmem : d ∈ clientDefects) : Raised .defectChange .port n (w1 (clientOrd d) ++ w1 0 ++ w2 s.tn) s.tn (s.clearPort n) := by
  refine raised_foldl (l := eventParts) (fun u _ d => moves_clearClientDefect n u d) (fun u hu => ?_) _ hmem
  have htn : u.tn = s.tn := hu.tn
  rw [← htn]
  exact raised_clearClientDefect ((hu.portOpt n).trans hp) hd
/-- A port removed. -/
def State.removePort (n : Nat) (s : State) : State := { s with ports := s.ports.filter (fun p => p.1 != n) }
theorem State.portOpt_removePort_same (n : Nat) (s : State) : (s.removePort n).port? n = none := by
  simp [State.port?, State.removePort]
theorem State.portOpt_removePort_ne {n j : Nat} (h : j ≠ n) (s : State) : (s.removePort n).port? j = s.port? j := by
  simp only [State.port?, State.removePort, List.find?_filter]
  congr 2
  funext p
  by_cases hp : p.1 = j <;> simp [hp, h]
theorem moves_removePort (n : Nat) (s : State) : Moves [.ports] s (s.removePort n) :=
  moves_of_same (fun x hx => by cases x <;> simp [Part.same, State.removePort, State.tile] at hx ⊢) rfl rfl
theorem portDelete_does {c : Cmd} {s : State} (h : Ready specPortDelete c s = true) :
    Does 0x301 c [] (.ports :: .counters :: eventParts) (fun t => t.port? (cIdx c) = none
      ∧ (∀ p, s.port? (cIdx c) = some p → ∀ d ∈ clientDefects, d ∈ p.reported →
          Raised .defectChange .port (cIdx c) (w1 (clientOrd d) ++ w1 0 ++ w2 s.tn) s.tn t)
      ∧ ∀ n, n ≠ cIdx c → t.port? n = s.port? n) s (exec (.portDelete c) s) := by
  have hclear := moves_clearPort (cIdx c) (s.atParse 0x301 c)
  have hremove := moves_removePort (cIdx c) ((s.atParse 0x301 c).clearPort (cIdx c))
  refine does_steps h rfl rfl rfl ((hclear.mono (by decide)).trans (hremove.mono (by decide))).steps (by decide) (fun t ht => ?_)
  have hfinal := Moves.of_steps ht
  refine ⟨(hfinal.portOpt _).trans (State.portOpt_removePort_same ..), fun p hp d hd hreported => ?_, fun n hn => ?_⟩
  · have hraised := raised_clearPort ((State.portOpt_atParse ..).trans hp) hreported hd (s := s.atParse 0x301 c)
    rw [State.atParse_tn] at hraised
    exact hfinal.raised (hremove.raised hraised)
  · exact (hfinal.portOpt n).trans ((State.portOpt_removePort_ne hn _).trans ((hclear.portOpt n).trans (State.portOpt_atParse ..)))

/-! ### Commands that replace a state that waits (R44, R266, R277) -/

theorem State.cancelArmed_proto_armed (p : Armed → Bool) (st : Status) (d : Nat) (s : State) :
    (s.cancelArmed p st d).proto.armed = s.proto.armed.filter (fun a => !p a) :=
  State.foldl_same (fun s => s.proto.armed) _ (fun s a => by split <;> simp) _ _
theorem moves_dropPortChange (c : Cmd) (s : State) : Moves (.armed :: finalParts) s (s.dropPortChange c) :=
  .of_steps ((acts_cancelArmed 0 ..).steps_of_engines (State.cancelArmed_engines ..))
/-- No change of the port's state waits any more, and no other change is lost. -/
theorem mem_dropPortChange_armed {c : Cmd} {s : State} {a : Armed} :
    a ∈ (s.dropPortChange c).proto.armed ↔ a ∈ s.proto.armed ∧ a.key ≠ keyOf 0x302 c := by
  simp [State.dropPortChange, State.cancelArmed_proto_armed]
theorem RoundTold.of_moves {n : Nat} {p : Port} {l : List Part} {s s' t t' : State} (h : RoundTold n p s' t) (hs : s'.tn = s.tn)
    (ht : Moves l t t') : RoundTold n p s t' := fun hround => by
  obtain ⟨w, hraised⟩ := h hround
  exact ⟨w, ht.raised (hs ▸ hraised)⟩
theorem Port.roundTold_lanes (p : Port) (n : Nat) : p.roundTold.lanes n = p.lanes n := by
  unfold Port.roundTold
  split <;> rfl
/-- A port whose round, and whose interruption, a command has ended. -/
def Port.taken (st : PortState) (p : Port) : Port :=
  { p with state := st, fallbackUp := false, lossAt := none, lossSignal := false, lossAlign := false }
/-- The round in progress and a waiting state have ended. -/
def State.endedRound (c : Cmd) (s : State) : State := (s.dropPortChange c).endRound (cIdx c)
theorem endedRound_ends (c : Cmd) (s : State) : Moves (.armed :: finalParts ++ resultParts) s (s.endedRound c)
    ∧ PortIs (cIdx c) Port.roundTold s (s.endedRound c)
    ∧ (∀ a, a ∈ (s.endedRound c).proto.armed ↔ a ∈ s.proto.armed ∧ a.key ≠ keyOf 0x302 c)
    ∧ ∀ p, s.port? (cIdx c) = some p → RoundTold (cIdx c) p s (s.endedRound c) := by
  have hdrop := moves_dropPortChange c s
  obtain ⟨hend, hround, htold⟩ := endRound_tells (cIdx c) (s.dropPortChange c)
  refine ⟨(hdrop.mono (by decide)).trans (hend.mono (by decide)), hround.of_same hdrop.ports rfl, fun a => ?_, fun p hp => ?_⟩
  · rw [← mem_dropPortChange_armed, State.endedRound, hend.steps.only .armed (by decide)]
  · exact (htold p ((hdrop.portOpt _).trans hp)).of_moves hdrop.tn (.refl [] _)

/-- A command that acts at once, without results, on parts which a response may touch besides. -/
theorem does_with_finals {sp : OpSpec} {f : Cmd → State → State × List Word} {l m : List Part} {P : State → Prop} {c : Cmd} {s v : State}
    (h : Ready sp c s = true) (he : sp.eff = .now f) (ha : sp.onAccept = fun _ s => s) (hf : f c (s.atParse sp.code c) = (v, []))
    (hv : Steps m (s.atParse sp.code c) v) (hm : ∀ p ∈ m, p ∈ l ++ answerParts) (htn : Part.tn ∉ m)
    (hP : ∀ t, Steps finalParts v t → P t) : Does sp.code c [] l P s (runOp sp c s) := by
  have honly : Only (l ++ answerParts) s v :=
    only_trans _ _ _ _ _ (only_atParse sp.code c s) (only_mono hv.only hm) (fun p => List.mem_append_right _)
  refine does_now sp f _ _ c s [] h he ha (by rw [hf]) ?_ ?_ ?_ <;> rw [hf]
  · exact (hv.tn htn).trans (State.atParse_tn ..)
  · exact hP _ (steps_final ..)
  · exact only_final _ _ _ _ _ _ _ honly (by simp [answerParts]) (by simp [answerParts]) (by simp [answerParts]) (by simp [answerParts])

/-! ### PORT_DISABLE (R266) -/

/-- What PORT_DISABLE does. -/
def State.disablePort (c : Cmd) (s : State) : State :=
  ((s.endedRound c).stopDiagnostics (cIdx c)).modPort (cIdx c) (Port.taken .disabled)
theorem specPortDisable_eff : specPortDisable.eff = .now (fun c s => (s.disablePort c, [])) := rfl
theorem disablePort_disables (c : Cmd) (s : State) :
    Moves (.ports :: .lanes :: .armed :: .freeCtr :: (eventParts ++ finalParts)) s (s.disablePort c)
      ∧ PortIs (cIdx c) (Port.taken .disabled ∘ Port.roundTold) s (s.disablePort c)
      ∧ (∀ a, a ∈ (s.disablePort c).proto.armed ↔ a ∈ s.proto.armed ∧ a.key ≠ keyOf 0x302 c)
      ∧ ∀ p, s.port? (cIdx c) = some p → RoundTold (cIdx c) p s (s.disablePort c)
        ∧ LanesAre (p.lanes (cIdx c)) id (fun _ => HostLane.stopped) s (s.disablePort c) := by
  obtain ⟨hend, hround, harmed, htold⟩ := endedRound_ends c s
  unfold State.disablePort
  have hstop := moves_stopDiagnostics (cIdx c) (s.endedRound c)
  have hset := moves_modPort (cIdx c) (Port.taken .disabled) ((s.endedRound c).stopDiagnostics (cIdx c))
  have hrest : Moves [.ports, .lanes] (s.endedRound c) _ := (hstop.mono (by decide)).trans (hset.mono (by decide))
  refine ⟨(hend.mono (by decide)).trans (hrest.mono (by decide)), ?_, fun a => ?_, fun p hp => ⟨(htold p hp).of_moves rfl hrest, ?_⟩⟩
  · exact hround.trans ((portIs_modPort ..).of_same hstop.ports rfl)
  · rw [hrest.steps.only .armed (by decide), harmed]
  · have hlanes := (stopDiagnostics_stops (hround.at hp)).2
    rw [Port.roundTold_lanes] at hlanes
    simpa only [LanesAre, hend.lane, hset.lane] using hlanes
theorem portDisable_does {c : Cmd} {s : State} (h : Ready specPortDisable c s = true) :
    Does 0x303 c [] (.ports :: .lanes :: .armed :: .freeCtr :: eventParts) (fun t =>
      PortIs (cIdx c) (fun p => p.roundTold.taken .disabled) s t
      ∧ (∀ a ∈ t.proto.armed, a.key ≠ keyOf 0x302 c) ∧ (∀ a ∈ s.proto.armed, a.key ≠ keyOf 0x302 c → a ∈ t.proto.armed)
      ∧ ∀ p, s.port? (cIdx c) = some p → RoundTold (cIdx c) p s t
        ∧ (∀ l ∈ p.lanes (cIdx c), l < 384 → t.lane l = (s.lane l).stopped)
        ∧ ∀ l, l ∉ p.lanes (cIdx c) → t.lane l = s.lane l) s (exec (.portDisable c) s) := by
  obtain ⟨hmove, hport, harmed, hround⟩ := disablePort_disables c (s.atParse 0x303 c)
  simp only [State.atParse_proto_armed] at harmed
  refine does_with_finals h specPortDisable_eff rfl rfl hmove.steps (by decide) (by decide) (fun t ht => ?_)
  have hfinal := Moves.of_steps ht
  have harmed' : t.proto.armed = _ := ht.only .armed (by decide)
  refine ⟨hport.of_moves (only_atParse 0x303 c s) hfinal, fun a ha => ?_, fun a ha hkey => ?_, fun p hp => ?_⟩
  · exact ((harmed a).mp (harmed' ▸ ha)).2
  · exact harmed' ▸ (harmed a).mpr ⟨ha, hkey⟩
  · obtain ⟨htold, hin, hout⟩ := hround p ((State.portOpt_atParse ..).trans hp)
    simp only [State.lane_atParse] at hin hout
    exact ⟨htold.of_moves (State.atParse_tn ..) hfinal, fun l hl hlt => (hfinal.lane l).trans (hin l hl hlt),
      fun l hl => (hfinal.lane l).trans (hout l (by simpa using hl))⟩

/-! ### PORT_RESTART (R277) -/

theorem specPortRestart_eff : specPortRestart.eff = .now (fun c s => ((s.endedRound c).startRound (cIdx c), [])) := rfl
theorem portRestart_does {c : Cmd} {s : State} {p : Port} (h : Ready specPortRestart c s = true) (hp : s.port? (cIdx c) = some p) :
    Does 0x304 c [] (.ports :: .lanes :: .armed :: .freeCtr :: eventParts) (fun t => RoundStarted (cIdx c) p s t
      ∧ RoundTold (cIdx c) p s t ∧ ∀ a ∈ t.proto.armed, a.key ≠ keyOf 0x302 c) s (exec (.portRestart c) s) := by
  obtain ⟨hend, hround, harmed, htold⟩ := endedRound_ends c (s.atParse 0x304 c)
  have hp' := (State.portOpt_atParse 0x304 c (cIdx c) s).trans hp
  obtain ⟨hmove, hstarted⟩ := startRound_starts (hround.at hp')
  have hall : Moves (.ports :: .lanes :: .armed :: .freeCtr :: (eventParts ++ finalParts)) (s.atParse 0x304 c) _ :=
    (hend.mono (by decide)).trans (hmove.mono (by decide))
  refine does_with_finals h specPortRestart_eff rfl rfl hall.steps (by decide) (by decide) (fun t ht => ?_)
  have hfinal := Moves.of_steps ht
  have hbefore : Only (answerParts ++ (.armed :: finalParts ++ resultParts)) s ((s.atParse 0x304 c).endedRound c) :=
    only_trans _ _ _ _ _ (only_atParse 0x304 c s) (only_mono hend.steps.only (by decide)) (by decide)
  refine ⟨?_, ((htold p hp').of_moves (State.atParse_tn ..) hmove).of_moves rfl hfinal, fun a ha => ?_⟩
  · exact hstarted.of_roundTold.of_same hbefore (fun q hq => (hround.2 q hq).trans (State.portOpt_atParse ..)) hfinal
  · have harmed' : t.proto.armed = _ := (ht.only .armed (by decide)).trans (hmove.steps.only .armed (by decide))
    exact ((harmed a).mp (harmed' ▸ ha)).2

/-! ### PORT_ENABLE and PORT_TEST at their boundary (R266, R280) -/

theorem boundaryEffect_portEnable : boundaryEffect 0x302 = applyPortEnable :=
  boundaryEffect_of_row opTable_PortEnable rfl (by decide) (by decide)
theorem boundaryEffect_portTest : boundaryEffect 0x305 = applyPortTest :=
  boundaryEffect_of_row opTable_PortTest rfl (by decide) (by decide)
theorem portEnable_starts {c : Cmd} {s : State} {p : Port} (hp : s.port? (cIdx c) = some p) (hstate : p.state = .disabled) :
    TakesEffect 0x302 c (.ports :: .lanes :: .freeCtr :: eventParts) (RoundStarted (cIdx c) p s) s := by
  have heffect : applyPortEnable c s.disarmed = s.disarmed.startRound (cIdx c) := by
    simp only [applyPortEnable, show s.disarmed.port? (cIdx c) = some p from hp, hstate, if_true]
  obtain ⟨hmove, hstarted⟩ := startRound_starts (s := s.disarmed) hp
  refine takesEffect_steps boundaryEffect_portEnable ?_ (by decide) (fun t ht => ?_) <;> rw [heffect] at *
  · exact hmove.steps
  · exact hstarted.of_same (only_disarm s) (fun _ _ => rfl) (Moves.of_steps ht)
/-- Stopping diagnostics leaves the pending changes out of account. -/
theorem State.stopDiagnostics_disarmed (n : Nat) (s : State) : s.disarmed.stopDiagnostics n = (s.stopDiagnostics n).disarmed := by
  unfold State.stopDiagnostics
  rw [show s.disarmed.port? n = s.port? n from rfl]
  split
  · rfl
  · exact List.foldl_hom State.disarmed (fun _ _ => rfl)
theorem portEnable_restarts {c : Cmd} {s : State} {p : Port} (hp : s.port? (cIdx c) = some p) (hstate : p.state = .test) :
    TakesEffect 0x302 c (.ports :: .lanes :: .freeCtr :: eventParts) (RoundStarted (cIdx c) p (s.stopDiagnostics (cIdx c))) s := by
  have heffect : applyPortEnable c s.disarmed = (s.disarmed.stopDiagnostics (cIdx c)).startRound (cIdx c) := by
    simp [applyPortEnable, show s.disarmed.port? (cIdx c) = some p from hp, hstate]
  rw [State.stopDiagnostics_disarmed] at heffect
  have hstop := moves_stopDiagnostics (cIdx c) s
  obtain ⟨hmove, hstarted⟩ := startRound_starts (s := (s.stopDiagnostics (cIdx c)).disarmed) ((hstop.portOpt _).trans hp)
  refine takesEffect_steps boundaryEffect_portEnable ?_ (by decide) (fun t ht => ?_) <;> rw [heffect] at *
  · rw [← State.stopDiagnostics_disarmed] at hmove ⊢
    exact (((moves_stopDiagnostics (cIdx c) s.disarmed).mono (by decide)).trans hmove).steps
  · exact hstarted.of_same (only_disarm _) (fun _ _ => rfl) (Moves.of_steps ht)
theorem portEnable_idle {c : Cmd} {s : State} {p : Port} (hp : s.port? (cIdx c) = some p) (hdis : p.state ≠ .disabled)
    (htest : p.state ≠ .test) : TakesEffect 0x302 c [] (fun _ => True) s := by
  have heffect : applyPortEnable c s.disarmed = s.disarmed := by
    simp only [applyPortEnable, show s.disarmed.port? (cIdx c) = some p from hp, hdis, htest, if_false]
  exact takesEffect_steps boundaryEffect_portEnable (by rw [heffect]; exact .refl ..) (by decide) (fun _ _ => trivial)
/-- Lanes that were not running start when their port goes to TEST. -/
theorem idleLanes_start (lanes : List Nat) (hnodup : lanes.Nodup) (s : State) :
    Moves laneParts s (lanes.foldl (fun s l => s.laneStart l) s)
      ∧ LanesAre lanes id (fun _ => HostLane.begun s.power.braceEffect) s (lanes.foldl (fun s l => s.laneStart l) s) := by
  refine lanes_foldl (fun u hu l => ?_) lanes (by simpa using hnodup) s (.refl ..)
  obtain ⟨hmove, hlane, -⟩ := laneStart_starts l u
  rw [hu.power] at hlane
  exact ⟨hmove, hlane⟩
/-- The lanes of a port that do not run. -/
def State.idleLanes (n : Nat) (p : Port) (s : State) : List Nat := (p.lanes n).filter (fun l => !s.laneRuns l)
theorem applyPortTest_eq {c : Cmd} {s : State} {p : Port} (hp : s.port? (cIdx c) = some p) :
    applyPortTest c s = (s.idleLanes (cIdx c) p).foldl (fun s l => s.laneStart l)
      ((s.endRound (cIdx c)).modPort (cIdx c) (Port.taken .test)) := by
  simp only [applyPortTest, hp]
  rfl
theorem portTest_takesEffect {c : Cmd} {s : State} {p : Port} (hp : s.port? (cIdx c) = some p) :
    TakesEffect 0x305 c (.ports :: .lanes :: .freeCtr :: eventParts) (fun t =>
      PortIs (cIdx c) (fun p => p.roundTold.taken .test) s t ∧ RoundTold (cIdx c) p s t
      ∧ (∀ l ∈ p.lanes (cIdx c), l < 384 → s.laneRuns l = false → t.lane l = (s.lane l).begun s.power.braceEffect)
      ∧ ∀ l, l ∉ p.lanes (cIdx c) ∨ s.laneRuns l = true → t.lane l = s.lane l) s := by
  obtain ⟨hend, hround, htold⟩ := endRound_tells (cIdx c) s.disarmed
  have hset := moves_modPort (cIdx c) (Port.taken .test) (s.disarmed.endRound (cIdx c))
  obtain ⟨hstart, hin, hout⟩ := idleLanes_start (s.idleLanes (cIdx c) p) ((p.lanes_nodup _).filter _)
    ((s.disarmed.endRound (cIdx c)).modPort (cIdx c) (Port.taken .test))
  have heffect := applyPortTest_eq (s := s.disarmed) hp
  refine takesEffect_steps boundaryEffect_portTest ?_ (by decide) (fun t ht => ?_) <;> rw [heffect] at *
  · exact (((hend.mono (by decide)).trans (hset.mono (by decide))).trans (hstart.mono (by decide))).steps
  · have hfinal := Moves.of_steps ht
    have hpower : ((s.disarmed.endRound (cIdx c)).modPort (cIdx c) (Port.taken .test)).power = s.power := hset.power.trans hend.power
    have hlane := fun l => (hset.lane l).trans (hend.lane l)
    rw [hpower] at hin
    have hidle : ∀ l, l ∈ s.idleLanes (cIdx c) p ↔ l ∈ p.lanes (cIdx c) ∧ s.laneRuns l = false := by simp [State.idleLanes]
    refine ⟨?_, (((htold p hp).of_moves rfl hset).of_moves rfl hstart).of_moves rfl hfinal, fun l hl hlt hruns => ?_, fun l hl => ?_⟩
    · exact (hround.trans (portIs_modPort ..)).of_same rfl (hfinal.ports.trans hstart.ports)
    · exact (hfinal.lane l).trans ((hin l ((hidle l).mpr ⟨hl, hruns⟩) hlt).trans (by rw [id, hlane]; rfl))
    · refine (hfinal.lane l).trans ((hout l ?_).trans (hlane l))
      simp only [List.map_id, hidle]
      exact fun ⟨hmem, hruns⟩ => hl.elim (· hmem) (fun h => Bool.false_ne_true (hruns.symm.trans h))
theorem portTest_withheld {c : Cmd} {s : State} (hp : s.port? (cIdx c) = none) : TakesEffect 0x305 c [] (fun _ => True) s := by
  have heffect : applyPortTest c s.disarmed = s.disarmed := by
    simp only [applyPortTest, show s.disarmed.port? (cIdx c) = none from hp]
  exact takesEffect_steps boundaryEffect_portTest (by rw [heffect]; exact .refl ..) (by decide) (fun _ _ => trivial)

/-- Settles O30: membership and settings at once, the state of the port armed and at its boundary, and the rounds it starts and ends. -/
theorem portCommands : Obligations.PortCommands := by
  intro c s
  refine ⟨portSet_does, portDelete_does, fun h => ?_, fun p hp => ⟨portEnable_starts hp, portEnable_restarts hp⟩, fun p => portEnable_idle,
    portDisable_does, fun h p => portRestart_does h, fun h => ?_, fun p => portTest_takesEffect, portTest_withheld, fun h => ?_, fun h => ?_,
    fun h => ?_, fun h p hp => ?_⟩
  · exact arms_boundary specPortEnable 0x302 _ c s h rfl rfl
  · exact arms_boundary specPortTest 0x302 _ c s h rfl rfl
  · exact does_port_now h rfl rfl rfl
  · exact does_port_now h rfl rfl rfl
  · exact does_port_now h rfl rfl rfl
  · exact reports_now specPortStatus _ c s _ h rfl rfl (by simp [hp]) (by simp [hp])
end Sys2Proof.Machine
end

section
/-! The lane commands and the host clock mode (O31). -/
-- One after another: a task for each proof would ask for more threads than the memory limit allows.
set_option Elab.async false
namespace Sys2Proof.Machine

/-! ### Diagnostics of one lane (R280 to R282) -/

/-- A lane whose diagnostics are set: it starts if it was not running and runs now. -/
def HostLane.diagnosed (runs : Bool) (f : HostLane → HostLane) (now : Nat) (brace : Bool) (h : HostLane) : HostLane :=
  if !runs && (h.given f now).busy then (h.given f now).begun brace else h.given f now
theorem diagnose_diagnoses {l : Nat} (hl : l < 384) (f : HostLane → HostLane) (s : State) : Moves laneParts s (s.diagnose l f)
    ∧ LaneIs l (HostLane.diagnosed (s.laneRuns l) f s.ticks s.power.braceEffect) s (s.diagnose l f) := by
  unfold State.diagnose
  dsimp only
  generalize hu : s.modLane l _ = u
  have hset : Moves [.lanes] s u := hu ▸ moves_modLane ..
  have hlane : u.lane l = (s.lane l).given f s.ticks := by rw [← hu, State.lane_modLane_same _ _ _ hl]; rfl
  have hothers : ∀ q, q ≠ l → u.lane q = s.lane q := hu ▸ (laneAt_modLane l _ s).2
  obtain ⟨hstart, ⟨hbegun, hrest⟩, -⟩ := laneStart_starts l u
  refine ⟨(hset.mono (by decide)).trans (moves_ite hstart (.refl ..)), ?_⟩
  unfold LaneIs HostLane.diagnosed
  rw [hlane]
  split
  · rw [hbegun hl, hlane, hset.power]
    exact ⟨rfl, fun q hq => (hrest q hq).trans (hothers q hq)⟩
  · exact ⟨hlane, hothers⟩
theorem diagnostics_takeEffect {op : Nat} {g : Cmd → HostLane → HostLane} {f : HostLane → HostLane} {c : Cmd} {s : State}
    (hb : boundaryEffect op = setDiagnostics g) (hlt : cIdx c < 384) (hfree : s.laneFree (cIdx c) = true) (hf : f = g c) :
    TakesEffect op c (.lanes :: eventParts)
      (LaneIs (cIdx c) (HostLane.diagnosed (s.laneRuns (cIdx c)) f s.ticks s.power.braceEffect) s) s := by
  subst hf
  obtain ⟨hmove, hlane⟩ := diagnose_diagnoses hlt (g c) s.disarmed
  have heffect : setDiagnostics g c s.disarmed = s.disarmed.diagnose (cIdx c) (g c) := if_pos hfree
  refine takesEffect_steps hb ?_ (by decide) (fun t ht => ?_) <;> rw [heffect] at *
  · exact hmove.steps
  · exact hlane.of_same rfl (ht.only .lanes (by decide))
theorem diagnostics_withheld {op : Nat} {g : Cmd → HostLane → HostLane} {c : Cmd} {s : State} (hb : boundaryEffect op = setDiagnostics g)
    (hfree : s.laneFree (cIdx c) = false) : TakesEffect op c [] (fun _ => True) s := by
  have heffect : setDiagnostics g c s.disarmed = s.disarmed := if_neg (ne_true_of_eq_false hfree)
  exact takesEffect_steps hb (by rw [heffect]; exact .refl ..) (by decide) (fun _ _ => trivial)
theorem boundaryEffect_laneLoopback : boundaryEffect 0x312 = setDiagnostics (fun c h => { h with loopback := cw c 1 }) :=
  boundaryEffect_of_row opTable_LaneLoopback rfl (by decide) (by decide)
theorem boundaryEffect_lanePrbsSet : boundaryEffect 0x313 = setDiagnostics (fun c h => { h with
    generator := cw c 1, checker := cw c 2, locked := h.locked && h.checker == cw c 2 }) :=
  boundaryEffect_of_row opTable_LanePrbsSet rfl (by decide) (by decide)

/-! ### HOST_CLK_SET at its boundary (R268, Table 9.7) -/

/-- A lane whose tile changes its clock. -/
def HostLane.reclocked (now : Nat) (brace : Bool) (h : HostLane) : HostLane :=
  { (if h.busy then h.begun brace else h) with locked := false, generatedFrom := now }
theorem reclock_reclocks (l : Nat) (s : State) : Moves laneParts s (s.reclock l)
    ∧ LaneAt l (HostLane.reclocked s.ticks s.power.braceEffect) s (s.reclock l) := by
  unfold State.reclock
  generalize hu : (if (s.lane l).busy = true then s.laneStart l else s) = u
  obtain ⟨hstart, ⟨hbegun, hothers⟩, -⟩ := laneStart_starts l s
  have hmove : Moves laneParts s u := hu ▸ moves_ite hstart (.refl ..)
  have hlane : LaneAt l (fun h => if h.busy then h.begun s.power.braceEffect else h) s u := by
    subst hu
    refine ⟨fun hl => ?_, fun q hq => ?_⟩
    · dsimp only
      split
      exacts [hbegun hl, rfl]
    · split
      exacts [hothers q hq, rfl]
  exact ⟨hmove.trans ((moves_modLane ..).mono (by decide)), hlane.trans (laneAt_modLane ..)⟩
theorem boundaryEffect_hostClkSet : boundaryEffect 0x310 = applyHostClk :=
  boundaryEffect_of_row opTable_HostClkSet rfl (by decide) (by decide)
/-- The tile takes its clock mode, and each of its 96 lanes the change of clock. -/
theorem applyHostClk_reclocks (c : Cmd) (s : State) : Moves (.htiles :: laneParts) s (applyHostClk c s)
    ∧ (applyHostClk c s).htiles = (s.modHtile (cIdx c) (fun h => { h with syntonised := cw c 1 == 1 })).htiles
    ∧ LanesAre (List.range 96) (fun i => 96 * cIdx c + i) (fun _ => HostLane.reclocked s.ticks s.power.braceEffect) s (applyHostClk c s) := by
  unfold applyHostClk
  dsimp only
  have hset := moves_modHtile (cIdx c) (fun h => { h with syntonised := cw c 1 == 1 }) s
  have hlane := hset.lane
  have hticks := hset.ticks
  have hpower := hset.power
  generalize s.modHtile (cIdx c) _ = u at *
  obtain ⟨hmove, hlanes⟩ := lanes_foldl (m := laneParts) (s := u) (f := fun s i => s.reclock (96 * cIdx c + i))
    (k := fun i => 96 * cIdx c + i) (g := fun _ => HostLane.reclocked u.ticks u.power.braceEffect)
    (fun v hv i => by rw [← hv.ticks, ← hv.power]; exact reclock_reclocks _ v) (List.range 96)
    (List.nodup_range.map (fun _ _ h => Nat.add_left_cancel h)) u (.refl ..)
  refine ⟨(hset.mono (by decide)).trans (hmove.mono (by decide)), hmove.htiles, ?_⟩
  simpa only [LanesAre, hlane, hticks, hpower] using hlanes
theorem hostClk_takesEffect {c : Cmd} {s : State} (hlt : cIdx c < 4) :
    TakesEffect 0x310 c (.htiles :: .lanes :: eventParts) (fun t =>
      t.htile (cIdx c) = { s.htile (cIdx c) with syntonised := cw c 1 == 1 } ∧ (∀ q, q ≠ cIdx c → t.htile q = s.htile q)
      ∧ (∀ l, l / 96 = cIdx c → l < 384 → t.lane l = (s.lane l).reclocked s.ticks s.power.braceEffect)
      ∧ ∀ l, l / 96 ≠ cIdx c → t.lane l = s.lane l) s := by
  obtain ⟨hmove, htiles, hin, hout⟩ := applyHostClk_reclocks c s.disarmed
  refine takesEffect_steps boundaryEffect_hostClkSet hmove.steps (by decide) (fun t ht => ?_)
  have hfinal := Moves.of_steps ht
  have hhtile : ∀ q, t.htile q = (s.modHtile (cIdx c) (fun h => { h with syntonised := cw c 1 == 1 })).htile q :=
    fun q => congrArg (vget · q HostTile.reset) (hfinal.htiles.trans htiles)
  refine ⟨?_, fun q hq => ?_, fun l hl hlt => ?_, fun l hl => ?_⟩
  · rw [hhtile, State.htile_modHtile_same _ _ _ hlt]
  · rw [hhtile, State.htile_modHtile_ne _ _ _ _ hq]
  · have hplace : 96 * cIdx c + l % 96 = l := by omega
    have hlane := hin (l % 96) (List.mem_range.mpr (by omega))
    simp only [hplace] at hlane
    exact (hfinal.lane l).trans (hlane hlt)
  · refine (hfinal.lane l).trans (hout l (fun hmem => hl ?_))
    obtain ⟨i, hi, rfl⟩ := List.mem_map.mp hmem
    have := List.mem_range.mp hi
    omega

/-- Settles O31: the settings at once, the diagnostics and the clock mode armed and at their boundary. -/
theorem laneCommands : Obligations.LaneCommands := by
  intro c s
  refine ⟨fun h => ?_, fun h => ?_, fun h => ?_, fun hlt hfree f => ⟨?_, ?_⟩, fun hfree => ⟨?_, ?_⟩, fun h => ?_, fun h => ?_,
    hostClk_takesEffect⟩
  · exact does_steps h rfl rfl rfl (moves_modLane ..).steps (by decide) (fun t ht =>
      ((laneAt_modLane ..).laneIs (ready_kind _ _ _ _ _ h rfl)).of_same (State.atParse_lanes ..) (ht.only .lanes (by decide)))
  · exact arms_boundary specLaneLoopback 0x312 _ c s h rfl rfl
  · exact arms_boundary specLanePrbsSet 0x313 _ c s h rfl rfl
  · exact diagnostics_takeEffect boundaryEffect_laneLoopback hlt hfree
  · exact diagnostics_takeEffect boundaryEffect_lanePrbsSet hlt hfree
  · exact diagnostics_withheld boundaryEffect_laneLoopback hfree
  · exact diagnostics_withheld boundaryEffect_lanePrbsSet hfree
  · exact reports_now specLanePrbsStatus _ c s _ h rfl rfl rfl (by simp)
  · exact arms_boundary specHostClkSet 0x310 _ c s h rfl rfl
end Sys2Proof.Machine
end

section
/-! The training of a client port (O32). -/
-- One after another: a task for each proof would ask for more threads than the memory limit allows.
set_option Elab.async false
namespace Sys2Proof.Machine

/-! ### The rows, each where its condition holds -/

section
variable {n : Fin 384} {s : State} {p : Port}
theorem exec_trainTimeoutExpiry (hp : s.port? n = some p) (hstate : p.state = .training)
    (hdue : p.round.started + 625 * p.round.timeout ≤ s.ticks) (silent : Option Nat) (slow : Nat) :
    exec (.trainTimeoutExpiry n silent slow) s
      = .next (silent.elim (s.attemptFails n 3 slow) (fun l => s.attemptFails n 1 l)) := by
  refine (?_ : execTrainTimeoutExpiry n silent slow s = _)
  simp only [execTrainTimeoutExpiry, hp]
  rw [if_pos ⟨hstate, hdue⟩]
  cases silent <;> rfl
theorem exec_partnerLostTimer (hp : s.port? n = some p) (hstate : p.state = .training) (hlost : p.round.started + 1250 ≤ s.ticks)
    (hin : s.ticks ≤ p.round.started + 625 * p.round.timeout) (lane : Nat) :
    exec (.partnerLostTimer n lane) s = .next (s.attemptFails n 2 lane) := by
  refine (?_ : execPartnerLostTimer n lane s = _)
  simp only [execPartnerLostTimer, hp]
  rw [if_pos ⟨hstate, hlost, hin⟩]
theorem exec_alignTimeout (hp : s.port? n = some p) (hstate : p.state = .aligning) (hdue : p.round.alignStart + 62500 ≤ s.ticks)
    (lane : Nat) : exec (.alignTimeout n lane) s = .next (s.attemptFails n 4 lane) := by
  refine (?_ : execAlignTimeout n lane s = _)
  simp only [execAlignTimeout, hp]
  rw [if_pos ⟨hstate, hdue⟩]
theorem exec_trainHoldoffExpiry (hp : s.port? n = some p) (hstate : p.state = .holdoff) (hfor : p.round.holdFor ≠ 0)
    (hdue : p.round.holdStart + 625000 * p.round.holdFor ≤ s.ticks) (hclock : s.clocked n = true) :
    exec (.trainHoldoffExpiry n) s = .next (s.startRound n) := by
  refine (?_ : execTrainHoldoffExpiry n s = _)
  simp only [execTrainHoldoffExpiry, hp]
  rw [if_pos ⟨hstate, hfor, hdue, hclock⟩]
theorem exec_retrainHoldExpiry (hp : s.port? n = some p) (hstate : p.state = .up) {t0 : Nat} (hloss : p.lossAt = some t0)
    (hdue : t0 + 625 * p.retrainHold ≤ s.ticks) : exec (.retrainHoldExpiry n) s = .next (s.startRound n) := by
  refine (?_ : execRetrainHoldExpiry n s = _)
  simp only [execRetrainHoldExpiry, hp]
  rw [if_pos ⟨hstate, by simpa [hloss] using hdue⟩]
/-- What PCS_ALIGNMENT_LOSS leaves of a port in UP. -/
theorem exec_pcsAlignmentLoss (hp : s.port? n = some p) (hstate : p.state = .up) (signal : Bool) :
    exec (.pcsAlignmentLoss n signal) s = .next (s.modPort n (fun p => { p with
      lossAt := some (p.lossAt.getD s.ticks), lossSignal := signal, lossAlign := true })) := by
  refine (?_ : execPcsAlignmentLoss n signal s = _)
  simp only [execPcsAlignmentLoss, hp]
  rw [if_pos hstate]
theorem exec_pcsAligned_up (hp : s.port? n = some p) (hstate : p.state = .up)
    (hin : ∀ x, p.lossAt = some x → s.ticks ≤ x + 625 * p.retrainHold) : exec (.pcsAligned n) s
      = .next (s.modPort n (fun p => { p with lossAt := none, lossSignal := false, lossAlign := false })) := by
  refine (?_ : execPcsAligned n s = _)
  simp only [execPcsAligned, hp]
  rw [if_neg (by simp [hstate]), if_pos ⟨hstate, by simpa [Option.all_eq_true] using hin⟩]
/-- A port that enters UP. -/
def Port.aligned (p : Port) : Port :=
  { p with state := .up, fallbackUp := p.round.fallback, lossAt := none, lossSignal := false, lossAlign := false }
/-- The outcome of a round that ends in UP (R279). -/
def Round.outcome (r : Round) : Nat := if r.fallback then 2 else if r.fixed then 1 else 0
theorem exec_pcsAligned_aligning (hp : s.port? n = some p) (hstate : p.state = .aligning) (hin : s.ticks ≤ p.round.alignStart + 62500) :
    exec (.pcsAligned n) s = .next ((s.trainResult n p.round.outcome).modPort n Port.aligned) := by
  refine (?_ : execPcsAligned n s = _)
  simp only [execPcsAligned, hp]
  rw [if_pos ⟨hstate, hin⟩]
  rfl
end

/-! ### LINK_TRAINING_COMPLETE (R271, R275) -/

/-- A port whose lanes are trained. -/
def Port.trained (now : Nat) (p : Port) : Port := { p with state := .aligning, round := { p.round with alignStart := now } }
/-- The taps that a lane's partner has asked for. -/
def trainedTaps (x : Trained) (p : Port) (i : Nat) : List Int := (x.requests.getD i []).foldl (CoefRequest.apply p.fast) p.ffe
/-- The lanes of a port with the taps that their partners have asked for. -/
def State.trainLanes (x : Trained) (p : Port) (s : State) : State :=
  (p.lanes x.port).zipIdx.foldl (fun s l => s.modLane l.1 (fun h => { h with txFfe := trainedTaps x p l.2 })) s
theorem exec_linkTrainingComplete {x : Trained} {s : State} {p : Port} (hp : s.port? x.port = some p) (hstate : p.state = .training)
    (hstarted : p.round.started ≤ s.ticks) (hin : s.ticks ≤ p.round.started + 625 * p.round.timeout) :
    exec (.linkTrainingComplete x) s = .next ((s.trainLanes x p).modPort x.port (Port.trained s.ticks)) := by
  refine (?_ : execLinkTrainingComplete x s = _)
  simp only [execLinkTrainingComplete, hp]
  rw [if_pos ⟨hstate, hstarted, hin⟩]
  rfl
theorem trainLanes_train (x : Trained) (p : Port) (s : State) : Moves [.lanes] s (s.trainLanes x p)
    ∧ LanesAre (p.lanes x.port).zipIdx Prod.fst (fun l h => { h with txFfe := trainedTaps x p l.2 }) s (s.trainLanes x p) :=
  lanes_foldl (fun _ _ _ => ⟨moves_modLane .., laneAt_modLane ..⟩) _
    (by rw [List.zipIdx_map_fst]; exact p.lanes_nodup x.port) s (.refl ..)
theorem Port.mem_lanes_zipIdx {p : Port} {n i : Nat} (hi : i < laneCount p.ty p.fast) : (n + i, i) ∈ (p.lanes n).zipIdx := by
  rw [List.mk_mem_zipIdx_iff_getElem?]
  simp [Port.lanes, hi]
/-- A request keeps Σ|c| within 1 (R271). -/
theorem CoefRequest.apply_ok {fast : Bool} {taps : List Int} (r : CoefRequest) (h : ffeOk taps = true) :
    ffeOk (CoefRequest.apply fast taps r) = true := by
  unfold CoefRequest.apply
  generalize taps.zipIdx.map _ = new
  dsimp only
  split
  next hnew => exact hnew
  next => exact h
theorem trainedTaps_ok {x : Trained} {p : Port} (i : Nat) (h : ffeOk p.ffe = true) : ffeOk (trainedTaps x p i) = true :=
  List.foldlRecOn (motive := fun taps => ffeOk taps = true) _ _ h (fun _ hu r _ => CoefRequest.apply_ok r hu)
theorem linkTrainingComplete_trains {x : Trained} {s : State} {p : Port} (hp : s.port? x.port = some p) (hstate : p.state = .training)
    (hstarted : p.round.started ≤ s.ticks) (hin : s.ticks ≤ p.round.started + 625 * p.round.timeout) :
    Happens [.ports, .lanes] (fun t => PortIs x.port (Port.trained s.ticks) s t ∧ (∀ l, l ∉ p.lanes x.port → t.lane l = s.lane l)
      ∧ ∀ i, i < laneCount p.ty p.fast → x.port.val + i < 384 →
        t.lane (x.port.val + i) = { s.lane (x.port.val + i) with txFfe := trainedTaps x p i }
          ∧ (ffeOk p.ffe = true → ffeOk (t.lane (x.port.val + i)).txFfe = true)) s (exec (.linkTrainingComplete x) s) := by
  obtain ⟨hlanes, htrained, hothers⟩ := trainLanes_train x p s
  have hport := moves_modPort x.port (Port.trained s.ticks) (s.trainLanes x p)
  rw [List.zipIdx_map_fst] at hothers
  refine ⟨_, exec_linkTrainingComplete hp hstate hstarted hin,
    ⟨(portIs_modPort ..).of_same hlanes.ports rfl, hothers, fun i hi hlt => ?_⟩,
    ((hlanes.mono (by decide)).trans (hport.mono (by decide))).steps.only⟩
  have hlane := (hport.lane _).trans (htrained _ (Port.mem_lanes_zipIdx hi) hlt)
  exact ⟨hlane, fun hok => by rw [hlane]; exact trainedTaps_ok i hok⟩

/-! ### PCS_ALIGNED (R275, R279) -/

theorem pcsAligned_brings_up {n : Fin 384} {s : State} {p : Port} (hp : s.port? n = some p) (hstate : p.state = .aligning)
    (hin : s.ticks ≤ p.round.alignStart + 62500) : Happens (.ports :: .freeCtr :: eventParts) (fun t =>
      (∀ q, q ≠ n.val → t.port? q = s.port? q)
      ∧ (∃ q, t.port? n = some q ∧ q.state = .up ∧ q.fallbackUp = p.round.fallback ∧ q.lossAt = none)
      ∧ ∃ w, Raised .trainResult .port n
          (w1 p.round.outcome ++ w1 p.round.attempts ++ (p.round.causes.map w1).flatten ++ w1 w) s.tn t) s (exec (.pcsAligned n) s) := by
  obtain ⟨htold, hresult, hraised⟩ := trainResult_tells (outcome := p.round.outcome) hp
  have hset := moves_modPort n Port.aligned (s.trainResult n p.round.outcome)
  have hport := hresult.trans (portIs_modPort n Port.aligned _)
  exact ⟨_, exec_pcsAligned_aligning hp hstate hin, ⟨hport.2, ⟨_, hport.at hp, rfl, rfl, rfl⟩, _, hset.raised hraised⟩,
    (htold.trans (hset.mono (by decide))).steps.only⟩

/-! ### A round, or an attempt -/

theorem happens_attemptFails {n : Fin 384} {i : Instr} {cause lane : Nat} {p : Port} {s : State} (hp : s.port? n = some p)
    (hexec : exec i s = .next (s.attemptFails n cause lane)) :
    Happens (.ports :: .lanes :: .freeCtr :: eventParts) (AttemptFailed n cause lane p s) s (exec i s) :=
  have ⟨hmove, hfailed⟩ := attemptFails_fails hp
  ⟨_, hexec, hfailed, hmove.steps.only⟩
theorem happens_startRound {n : Fin 384} {i : Instr} {p : Port} {s : State} (hp : s.port? n = some p)
    (hexec : exec i s = .next (s.startRound n)) :
    Happens (.ports :: .lanes :: .freeCtr :: eventParts) (RoundStarted n p s) s (exec i s) :=
  have ⟨hmove, hstarted⟩ := startRound_starts hp
  ⟨_, hexec, hstarted, hmove.steps.only⟩
theorem happens_modPort {n : Fin 384} {i : Instr} {f : Port → Port} {s : State} (hexec : exec i s = .next (s.modPort n f)) :
    Happens [.ports] (PortIs n f s) s (exec i s) := ⟨_, hexec, portIs_modPort .., (moves_modPort ..).steps.only⟩

/-- Settles O32: each row is the step it makes where its condition holds: an attempt that fails, a round that starts, or what the row sets
of its port and lanes. -/
theorem portTraining : Obligations.PortTraining := by
  intro n s p hp
  refine ⟨fun slow hstate hdue => ⟨fun l => ?_, ?_⟩, fun lane hstate hlost hin => ?_, fun lane hstate hdue => ?_, ?_,
    pcsAligned_brings_up hp, fun hstate hin => ?_, fun signal hstate => ?_, fun hstate hfor hdue hclock => ?_,
    fun t0 hstate hloss hdue => ?_⟩
  · exact happens_attemptFails hp (exec_trainTimeoutExpiry hp hstate hdue (some l) slow)
  · exact happens_attemptFails hp (exec_trainTimeoutExpiry hp hstate hdue none slow)
  · exact happens_attemptFails hp (exec_partnerLostTimer hp hstate hlost hin lane)
  · exact happens_attemptFails hp (exec_alignTimeout hp hstate hdue lane)
  · rintro x rfl
    exact linkTrainingComplete_trains hp
  · exact happens_modPort (exec_pcsAligned_up hp hstate hin)
  · exact happens_modPort (exec_pcsAlignmentLoss hp hstate signal)
  · exact happens_startRound hp (exec_trainHoldoffExpiry hp hstate hfor hdue hclock)
  · exact happens_startRound hp (exec_retrainHoldExpiry hp hstate hloss hdue)
end Sys2Proof.Machine
end

section
/-! The happenings on the host side: reference clocks and adaptation windows (O33). -/
-- One after another: a task for each proof would ask for more threads than the memory limit allows.
set_option Elab.async false
namespace Sys2Proof.Machine

/-! ### REFCLK_HOST (R269) -/

/-- A step moves port `n`, which had the settings `p`, to HOLDOFF, its round told. -/
structure OffAt (n : Nat) (p : Port) (s t : State) : Prop where
  port : ∃ q, t.port? n = some q ∧ q.state = .holdoff ∧ q.round.holdStart = s.ticks ∧ q.round.holdFor = p.trainHoldoff
    ∧ q.trainHoldoff = p.trainHoldoff ∧ q.lanes n = p.lanes n
  told : RoundTold n p s t
theorem Port.roundTold_trainHoldoff (p : Port) : p.roundTold.trainHoldoff = p.trainHoldoff := by
  unfold Port.roundTold
  split <;> rfl
/-- What the loss of the reference clock does to one port: in service on the tile, it ends its round and goes to HOLDOFF. -/
def State.unclockPort (k : Fin 4) (s : State) (x : Nat × Port) : State :=
  if x.1 / 96 = k.val ∧ x.2.state ≠ .disabled then (s.endRound x.1).enterHoldoff x.1 else s
/-- The tile's reference is gone, and told. -/
def State.refclkLost (k : Fin 4) (s : State) : State :=
  (s.modHtile k (fun h => { h with refclk := false })).raise .hostRefclkLoss .hostTile k (w2 s.tn)
theorem exec_hostRefclkLoss {k : Fin 4} {s : State} (hclk : (s.htile k).refclk = true) (hmode : (s.htile k).syntonised = false) :
    exec (.hostRefclkLoss k) s = .next ((s.refclkLost k).ports.foldl (State.unclockPort k) (s.refclkLost k)) := by
  refine (?_ : execHostRefclkLoss k s = _)
  simp only [execHostRefclkLoss, hclk, hmode, Bool.not_true, Bool.or_false, Bool.false_eq_true, if_false]
  rfl
theorem exec_hostRefclkOk {k : Fin 4} {s : State} (hclk : (s.htile k).refclk = false) (hmode : (s.htile k).syntonised = false) :
    exec (.hostRefclkOk k) s
      = .next ((s.modHtile k (fun h => { h with refclk := true })).raise .hostRefclkOk .hostTile k (w2 s.tn)) := by
  refine (?_ : execHostRefclkOk k s = _)
  simp only [execHostRefclkOk, hclk, hmode, Bool.or_false, Bool.false_eq_true, if_false]
/-- A port that ends its round and goes to HOLDOFF. -/
theorem endRound_enterHoldoff (n : Nat) (s : State) : Moves roundParts s ((s.endRound n).enterHoldoff n)
    ∧ PortIs n (Port.heldOff s.ticks ∘ Port.roundTold) s ((s.endRound n).enterHoldoff n)
    ∧ (∀ p, s.port? n = some p → RoundTold n p s ((s.endRound n).enterHoldoff n))
    ∧ ∀ l, (∀ p, s.port? n = some p → l ∉ p.lanes n) → ((s.endRound n).enterHoldoff n).lane l = s.lane l := by
  obtain ⟨hend, hround, htold⟩ := endRound_tells n s
  obtain ⟨hmove, hheld, hlanes⟩ := enterHoldoff_holds n (s.endRound n)
  rw [hend.ticks] at hheld
  refine ⟨(hend.mono (by decide)).trans (hmove.mono (by decide)), hround.trans hheld, fun p hp => (htold p hp).of_moves rfl hmove,
    fun l hl => (hlanes l ?_).trans (hend.lane l)⟩
  rw [hround.1]
  cases hp : s.port? n with
  | none => simp
  | some p => simpa [Port.roundTold_lanes] using hl p hp
/-- What a fold over the ports of a tile keeps: each port has the settings it had, or has gone to HOLDOFF from them. -/
structure Unclocked (k : Fin 4) (s t : State) : Prop where
  moves : Moves roundParts s t
  ports : ∀ n p, s.port? n = some p → t.port? n = some p ∨ n / 96 = k.val ∧ OffAt n p s t
  others : ∀ n, n / 96 ≠ k.val ∨ s.port? n = none → t.port? n = s.port? n
  lanes : ∀ l, (∀ n p, s.port? n = some p → n / 96 = k.val → l ∉ p.lanes n) → t.lane l = s.lane l
theorem Unclocked.refl (k : Fin 4) (s : State) : Unclocked k s s := ⟨.refl .., fun _ _ h => .inl h, fun _ _ => rfl, fun _ _ => rfl⟩
/-- A port of the tile goes to HOLDOFF, from the settings it had, or again. -/
theorem Unclocked.offAt {k : Fin 4} {s u : State} (h : Unclocked k s u) {n : Nat} {p : Port} (hp : s.port? n = some p) :
    OffAt n p s ((u.endRound n).enterHoldoff n) := by
  obtain ⟨hmove, hport, htold, -⟩ := endRound_enterHoldoff n u
  have hticks : u.ticks = s.ticks := h.moves.ticks
  rcases h.ports n p hp with hu | ⟨-, ⟨q, hu, hstate, -, -, hfor, hlanes⟩, hbefore⟩
  · refine ⟨⟨_, hport.at hu, rfl, hticks, ?_, ?_, ?_⟩, (htold p hu).of_moves h.moves.tn (.refl [] _)⟩
    · exact p.roundTold_trainHoldoff
    · exact p.roundTold_trainHoldoff
    · exact p.roundTold_lanes n
  · have hidle : q.roundTold = q := Port.roundTold_idle (by simp [hstate])
    have hq := hport.at hu
    simp only [Function.comp, hidle] at hq
    exact ⟨⟨_, hq, rfl, hticks, hfor, hfor, hlanes⟩, hbefore.of_moves rfl hmove⟩
theorem Unclocked.step {k : Fin 4} {s u : State} (h : Unclocked k s u) (x : Nat × Port) : Unclocked k s (u.unclockPort k x) := by
  unfold State.unclockPort
  split
  case isFalse => exact h
  case isTrue hx =>
    obtain ⟨hmove, hport, -, hlanes⟩ := endRound_enterHoldoff x.1 u
    refine ⟨h.moves.trans hmove, fun n p hp => ?_, fun n hn => ?_, fun l hl => ?_⟩
    · by_cases hnx : n = x.1
      · subst hnx
        exact .inr ⟨hx.1, h.offAt hp⟩
      · rw [hport.2 n hnx]
        refine (h.ports n p hp).imp_right (fun ⟨htile, ⟨q, hq⟩, htold⟩ => ⟨htile, ⟨q, ?_⟩, htold.of_moves rfl hmove⟩)
        rwa [hport.2 n hnx]
    · by_cases hnx : n = x.1
      · subst hnx
        have hnone := hn.resolve_left (fun hne => hne hx.1)
        rw [hport.1, h.others _ hn, hnone]
        rfl
      · exact (hport.2 n hnx).trans (h.others n hn)
    · refine (hlanes l (fun q hq => ?_)).trans (h.lanes l hl)
      cases hp : s.port? x.1 with
      | none => simp [h.others _ (.inr hp), hp] at hq
      | some p =>
        have hout := hl _ p hp hx.1
        rcases h.ports _ p hp with hu | ⟨-, ⟨q', hu, -, -, -, -, hsame⟩, -⟩
        · obtain rfl : p = q := by simpa [hu] using hq
          exact hout
        · obtain rfl : q' = q := by simpa [hu] using hq
          rwa [hsame]
/-- A port that has gone to HOLDOFF stays there. -/
theorem Unclocked.step_offAt {k : Fin 4} {s u : State} (h : Unclocked k s u) {n : Nat} {p : Port} (hp : s.port? n = some p)
    (hoff : OffAt n p s u) (x : Nat × Port) : OffAt n p s (u.unclockPort k x) := by
  unfold State.unclockPort
  split
  case isFalse => exact hoff
  case isTrue =>
    by_cases hnx : n = x.1
    · subst hnx
      exact h.offAt hp
    · obtain ⟨hmove, hport, -⟩ := endRound_enterHoldoff x.1 u
      obtain ⟨⟨q, hq⟩, htold⟩ := hoff
      exact ⟨⟨q, by rwa [hport.2 n hnx]⟩, htold.of_moves rfl hmove⟩
theorem unclockPorts_unclock (k : Fin 4) (s : State) : Unclocked k s (s.ports.foldl (State.unclockPort k) s)
    ∧ ∀ n p, s.port? n = some p → n / 96 = k.val → p.state ≠ .disabled → OffAt n p s (s.ports.foldl (State.unclockPort k) s) := by
  refine ⟨List.foldlRecOn _ _ (.refl k s) (fun _ hu x _ => hu.step x), fun n p hp htile hstate => ?_⟩
  have hmem : (n, p) ∈ s.ports := by
    obtain ⟨x, hfind, rfl⟩ := Option.map_eq_some_iff.mp hp
    obtain rfl : x.1 = n := by simpa using List.find?_some hfind
    exact List.mem_of_find?_eq_some hfind
  refine foldl_reaches (I := Unclocked k s) (fun u x hu => hu.step x) (fun u x hu hoff => hu.step_offAt hp hoff x) (fun u hu => ?_) _ hmem s
    (.refl k s)
  rw [State.unclockPort, if_pos ⟨htile, hstate⟩]
  exact hu.offAt hp
theorem hostRefclkLoss_unclocks {k : Fin 4} {s : State} (hclk : (s.htile k).refclk = true) (hmode : (s.htile k).syntonised = false) :
    Happens (.htiles :: .ports :: .lanes :: .freeCtr :: eventParts) (fun t => t.htile k = { s.htile k with refclk := false }
      ∧ (∀ q, q ≠ k.val → t.htile q = s.htile q)
      ∧ (∀ n p, s.port? n = some p → n / 96 = k → p.state ≠ .disabled → ∃ q, t.port? n = some q ∧ q.state = .holdoff
          ∧ q.round.holdStart = s.ticks ∧ q.round.holdFor = p.trainHoldoff
          ∧ RoundTold n p s t)
      ∧ (∀ l, (∀ n p, s.port? n = some p → n / 96 = k → l ∉ p.lanes n) → t.lane l = s.lane l)
      ∧ (∀ n : Nat, n / 96 ≠ k.val → t.port? n = s.port? n) ∧ Raised .hostRefclkLoss .hostTile k (w2 s.tn) s.tn t) s
      (exec (.hostRefclkLoss k) s) := by
  have hset := moves_modHtile k (fun h => { h with refclk := false }) s
  have htold := moves_raise .hostRefclkLoss .hostTile k (w2 s.tn) (s.modHtile k (fun h => { h with refclk := false }))
  have hlost : Moves (.htiles :: eventParts) s (s.refclkLost k) := (hset.mono (by decide)).trans (htold.mono (by decide))
  have hraised : Raised .hostRefclkLoss .hostTile k (w2 s.tn) s.tn (s.refclkLost k) := raised_raise_tn hset.tn
  obtain ⟨hun, hoff⟩ := unclockPorts_unclock k (s.refclkLost k)
  have hport : ∀ n, (s.refclkLost k).port? n = s.port? n := fun n => hlost.portOpt n
  have hhtile : ∀ q, _ = (s.modHtile k (fun h => { h with refclk := false })).htile q :=
    fun q => congrArg (vget · q HostTile.reset) (hun.moves.htiles.trans htold.htiles)
  refine ⟨_, exec_hostRefclkLoss hclk hmode, ⟨?_, fun q hq => ?_, fun n p hp htile hstate => ?_, fun l hl => ?_, fun n hn => ?_,
    hun.moves.raised hraised⟩, ((hlost.mono (by decide)).trans (hun.moves.mono (by decide))).steps.only⟩
  · exact (hhtile k).trans (State.htile_modHtile_same _ _ _ k.isLt)
  · exact (hhtile q).trans (State.htile_modHtile_ne _ _ _ _ hq)
  · obtain ⟨⟨q, hq, hholdoff, hstart, hfor, -, -⟩, hround⟩ := hoff n p ((hport n).trans hp) htile hstate
    exact ⟨q, hq, hholdoff, hstart.trans hlost.ticks, hfor, hround.of_moves hlost.tn (.refl [] _)⟩
  · exact (hun.lanes l (by simpa only [hport] using hl)).trans (hlost.lane l)
  · exact (hun.others n (.inl hn)).trans (hport n)
theorem hostRefclkOk_tells {k : Fin 4} {s : State} (hclk : (s.htile k).refclk = false) (hmode : (s.htile k).syntonised = false) :
    Happens (.htiles :: eventParts) (fun t => t.htile k = { s.htile k with refclk := true }
      ∧ (∀ q, q ≠ k.val → t.htile q = s.htile q) ∧ Raised .hostRefclkOk .hostTile k (w2 s.tn) s.tn t) s (exec (.hostRefclkOk k) s) := by
  have hset := moves_modHtile k (fun h => { h with refclk := true }) s
  have htold := moves_raise .hostRefclkOk .hostTile k (w2 s.tn) (s.modHtile k (fun h => { h with refclk := true }))
  have hhtile : ∀ q, _ = (s.modHtile k (fun h => { h with refclk := true })).htile q :=
    fun q => congrArg (vget · q HostTile.reset) htold.htiles
  exact ⟨_, exec_hostRefclkOk hclk hmode, ⟨(hhtile k).trans (State.htile_modHtile_same _ _ _ k.isLt),
    fun q hq => (hhtile q).trans (State.htile_modHtile_ne _ _ _ _ hq), raised_raise_tn hset.tn⟩,
    ((hset.mono (by decide)).trans (htold.mono (by decide))).steps.only⟩

/-! ### Adaptation windows (R273) -/

/-- A lane at the end of a window, before it is judged. -/
def HostLane.windowed (good : Bool) (a : LaneSteps) (h : HostLane) : HostLane :=
  { h.adapt a with
    heldWindows := if h.shortHold || h.braceHold then h.heldWindows + 1 else 0
    goodWindows := if good then h.goodWindows + 1 else 0
    tdFloor := h.tdFloorNext.getD h.tdFloor, tdFloorNext := none }
/-- A window with enough changes and with every level often enough ends a hold after three before it. -/
def HostLane.goodWindow (changes : Nat) (w : LaneWindow) (h : HostLane) : Bool :=
  decide ((h.tdFloor + 1) * 1024 ≤ changes) && w.levels.all (fun n => decide (2048 ≤ n))
/-- The state after the steps of a window. -/
def State.windowEnd (l changes : Nat) (w : LaneWindow) (s : State) : State :=
  s.modLane l (HostLane.windowed ((s.lane l).goodWindow changes w) w.steps)
section
variable {l : Fin 384} {s : State} {changes : Nat} {w : LaneWindow}
theorem exec_hlAdaptWindowEnd_sparse (hruns : s.laneRuns l = true) (hsparse : changes < (s.lane l).tdFloor * 1024) :
    exec (.hlAdaptWindowEnd l changes w) s
      = .next (((s.windowEnd l changes w).count .hlFreezeWindows .hostLane l 1).laneFreeze l .density) := by
  refine (?_ : execHlAdaptWindowEnd l changes w s = _)
  have hdense : decide ((s.lane l).tdFloor * 1024 ≤ changes) = false := by simpa using hsparse
  simp only [execHlAdaptWindowEnd, hruns, hdense, Bool.not_true, Bool.false_eq_true, if_false, Bool.not_false, Bool.true_or, if_true]
  rfl
theorem exec_hlAdaptWindowEnd_thin (hruns : s.laneRuns l = true) (hdense : (s.lane l).tdFloor * 1024 ≤ changes)
    (hthin : ∃ n ∈ w.levels, n < 1024) : exec (.hlAdaptWindowEnd l changes w) s
      = .next (((s.windowEnd l changes w).count .hlFreezeWindows .hostLane l 1).laneFreeze l .levels) := by
  refine (?_ : execHlAdaptWindowEnd l changes w s = _)
  have hany : w.levels.any (fun n => decide (n < 1024)) = true := by simpa using hthin
  simp only [execHlAdaptWindowEnd, hruns, hdense, hany, Bool.not_true, Bool.false_eq_true, if_false, decide_true, Bool.false_or, if_true]
  rfl
theorem exec_hlAdaptWindowEnd_good (hruns : s.laneRuns l = true) (hdense : ((s.lane l).tdFloor + 1) * 1024 ≤ changes)
    (hfull : ∀ n ∈ w.levels, 2048 ≤ n) (hheld : (s.lane l).shortHold = true) : exec (.hlAdaptWindowEnd l changes w) s
      = .next (if 3 ≤ (s.lane l).goodWindows then (s.windowEnd l changes w).laneThaw l false else s.windowEnd l changes w) := by
  refine (?_ : execHlAdaptWindowEnd l changes w s = _)
  have hthin : w.levels.any (fun n => decide (n < 1024)) = false := by
    rw [List.any_eq_false]
    exact fun n hn => by have := hfull n hn; simp; omega
  have hfloor : (s.lane l).tdFloor * 1024 ≤ changes := Nat.le_trans (Nat.mul_le_mul_right _ (Nat.le_succ _)) hdense
  have hgood : (s.lane l).goodWindow changes w = true := by simpa [HostLane.goodWindow, hdense] using hfull
  simp only [execHlAdaptWindowEnd, hruns, hfloor, hthin, Bool.not_true, Bool.false_eq_true, if_false, decide_true, Bool.or_false]
  by_cases hthree : 3 ≤ (s.lane l).goodWindows
  · rw [if_pos ⟨hheld, hthree, hgood⟩, if_pos hthree]
    rfl
  · rw [if_neg (fun h => hthree h.2.1), if_neg hthree]
    rfl
end
theorem HostLane.adapt_holds (a : LaneSteps) (h : HostLane) :
    (h.adapt a).shortHold = h.shortHold ∧ (h.adapt a).braceHold = h.braceHold := by
  unfold HostLane.adapt
  dsimp only
  split <;> exact ⟨rfl, rfl⟩
@[simp] theorem HostLane.windowed_shortHold (good : Bool) (a : LaneSteps) (h : HostLane) : (h.windowed good a).shortHold = h.shortHold :=
  (h.adapt_holds a).1
@[simp] theorem HostLane.windowed_braceHold (good : Bool) (a : LaneSteps) (h : HostLane) : (h.windowed good a).braceHold = h.braceHold :=
  (h.adapt_holds a).2
/-- A receiver that is held moves none of its settings but the CDR's phase (R273). -/
theorem HostLane.windowed_of_held {h : HostLane} (hheld : h.shortHold = true ∨ h.braceHold = true) (good : Bool) (a : LaneSteps) :
    (h.windowed good a).rxFfe = h.rxFfe ∧ (h.windowed good a).dfe = h.dfe ∧ (h.windowed good a).ctle = h.ctle
      ∧ (h.windowed good a).cdrFreq = h.cdrFreq := by
  have hadapt : h.adapt a = { h with cdrPhase := h.cdrPhase + a.phase } := if_pos (by simpa using hheld)
  simp only [HostLane.windowed, hadapt, and_self]
theorem windowEnd_ends {l : Nat} (hl : l < 384) (changes : Nat) (w : LaneWindow) (s : State) : Moves [.lanes] s (s.windowEnd l changes w)
    ∧ LaneIs l (HostLane.windowed ((s.lane l).goodWindow changes w) w.steps) s (s.windowEnd l changes w) :=
  ⟨moves_modLane .., (laneAt_modLane ..).laneIs hl⟩
/-- A short window freezes its lane, counted, and told when the lane was not frozen. -/
theorem shortWindow_freezes {l : Fin 384} (r : FreezeReason) (changes : Nat) (w : LaneWindow) (s : State) :
    let t := ((s.windowEnd l changes w).count .hlFreezeWindows .hostLane l 1).laneFreeze l r
    Moves laneParts s t ∧ LaneIs l (fun h => (h.windowed ((s.lane l).goodWindow changes w) w.steps).frozen r) s t
      ∧ Counted .hlFreezeWindows .hostLane l 1 t
      ∧ ((s.lane l).shortHold = false → (s.lane l).braceHold = false → Raised .hlFreeze .hostLane l (w1 r.code ++ w2 s.tn) s.tn t) := by
  obtain ⟨hend, hlane, hothers⟩ := windowEnd_ends l.isLt changes w s
  have hcount := moves_count .hlFreezeWindows .hostLane l 1 (s.windowEnd l changes w)
  have hcounted := (counted_count .hlFreezeWindows .hostLane l 1 (s.windowEnd l changes w) (by decide)).1
  obtain ⟨hfreeze, ⟨hfrozen, hrest⟩, hraised⟩ := laneFreeze_freezes l r ((s.windowEnd l changes w).count .hlFreezeWindows .hostLane l 1)
  rw [hcount.lane, hlane, hcount.tn, hend.tn] at hraised
  refine ⟨((hend.mono (by decide)).trans (hcount.mono (by decide))).trans hfreeze, ⟨?_, fun q hq => ?_⟩, hfreeze.counted _ hcounted, ?_⟩
  · rw [hfrozen l.isLt, hcount.lane, hlane]
  · exact (hrest q hq).trans ((hcount.lane q).trans (hothers q hq))
  · simpa using hraised
/-- A short window freezes its lane, whichever of the two it is short of. -/
theorem happens_shortWindow {l : Fin 384} {s : State} {r : FreezeReason} (hr : r ≠ .brace) {changes : Nat} {w : LaneWindow} {i : Instr}
    (hexec : exec i s = .next (((s.windowEnd l changes w).count .hlFreezeWindows .hostLane l 1).laneFreeze l r)) :
    Happens (.lanes :: eventParts) (fun t => (∀ q, q ≠ l.val → t.lane q = s.lane q)
      ∧ (t.lane l).shortHold = true ∧ (t.lane l).goodWindows = 0 ∧ Counted .hlFreezeWindows .hostLane l 1 t
      ∧ ((s.lane l).shortHold = true ∨ (s.lane l).braceHold = true → (t.lane l).rxFfe = (s.lane l).rxFfe
        ∧ (t.lane l).dfe = (s.lane l).dfe ∧ (t.lane l).ctle = (s.lane l).ctle ∧ (t.lane l).cdrFreq = (s.lane l).cdrFreq)
      ∧ ((s.lane l).shortHold = false → (s.lane l).braceHold = false → Raised .hlFreeze .hostLane l (w1 r.code ++ w2 s.tn) s.tn t)) s
      (exec i s) := by
  obtain ⟨hmove, ⟨hlane, hothers⟩, hcounted, hraised⟩ := shortWindow_freezes r changes w s (l := l)
  refine ⟨_, hexec, ⟨hothers, ?_, ?_, hcounted, fun hheld => ?_, hraised⟩, hmove.steps.only⟩ <;> rw [hlane]
  · simp [HostLane.frozen, hr]
  · simp [HostLane.frozen, hr]
  · exact HostLane.windowed_of_held hheld ((s.lane l).goodWindow changes w) w.steps
/-- A good window is one more in a row; the fourth ends the hold, told when brace does not hold the lane besides. -/
theorem goodWindow_thaws {l : Fin 384} {s : State} {changes : Nat} {w : LaneWindow} (hgood : (s.lane l).goodWindow changes w = true)
    (hheld : (s.lane l).shortHold = true) :
    let t := if 3 ≤ (s.lane l).goodWindows then (s.windowEnd l changes w).laneThaw l false else s.windowEnd l changes w
    Moves laneParts s t ∧ (∀ q, q ≠ l.val → t.lane q = s.lane q) ∧ (t.lane l).goodWindows = (s.lane l).goodWindows + 1
      ∧ (t.lane l).shortHold = decide ((s.lane l).goodWindows < 3)
      ∧ (3 ≤ (s.lane l).goodWindows → (s.lane l).braceHold = false →
        Raised .hlThaw .hostLane l (w1 ((s.lane l).heldWindows + 1) ++ w2 s.tn) s.tn t) := by
  obtain ⟨hend, hlane, hothers⟩ := windowEnd_ends l.isLt changes w s
  obtain ⟨hthaw, ⟨hthawed, hrest⟩, hraised⟩ := laneThaw_thaws l (s.windowEnd l changes w)
  rw [hgood] at hlane
  have hwindows : ((s.windowEnd l changes w).lane l).goodWindows = (s.lane l).goodWindows + 1 := by rw [hlane]; rfl
  have hhold : ((s.windowEnd l changes w).lane l).shortHold = true := by rw [hlane]; simpa using hheld
  have hlasted : ((s.windowEnd l changes w).lane l).heldWindows = (s.lane l).heldWindows + 1 := by
    rw [hlane]
    simp [HostLane.windowed, hheld]
  intro t
  rcases Nat.lt_or_ge (s.lane l).goodWindows 3 with hfew | hthree
  · have ht : t = s.windowEnd l changes w := if_neg (by omega)
    rw [ht]
    exact ⟨hend.mono (by decide), hothers, hwindows, by simpa [hfew] using hhold, by omega⟩
  · have ht : t = (s.windowEnd l changes w).laneThaw l false := if_pos hthree
    rw [ht, hthawed l.isLt]
    refine ⟨(hend.mono (by decide)).trans hthaw, fun q hq => (hrest q hq).trans (hothers q hq), hwindows, by simpa using hthree,
      fun _ hbrace => ?_⟩
    rw [hlasted, hend.tn] at hraised
    exact hraised l.isLt hhold (by rw [hlane]; simpa using hbrace)
end Sys2Proof.Machine
end

section
/-! The happenings on the host side: checkers and the frame tap, and the obligation (O33). -/
-- One after another: a task for each proof would ask for more threads than the memory limit allows.
set_option Elab.async false
namespace Sys2Proof.Machine

/-! ### Checkers (R283) -/

theorem exec_prbsCheckerLock {l : Fin 384} {s : State} (hchecker : (s.lane l).checker ≠ 0) (hlocked : (s.lane l).locked = false)
    (hheard : s.patternHeard l = true) :
    exec (.prbsCheckerLock l) s = .next (s.modLane l (fun h => { h with locked := true, lockedInside := true })) := by
  refine (?_ : execPrbsCheckerLock l s = _)
  simp [execPrbsCheckerLock, hchecker, hlocked, hheard]
/-- The lane's own pattern comes back to it without an error (Table 9.6). -/
abbrev HostLane.clean (h : HostLane) : Prop := h.loopback = 2 ∧ h.generator = h.checker
/-- A check window whose bits are counted. -/
def State.countWindow (l bits : Nat) (s : State) : State :=
  ((if (s.lane l).lockedInside then s.fresh.2.modLane l (fun h => { h with lockedInside := false }) else s).count .prbsBits .hostLane l
    (if (s.lane l).lockedInside then 2 * (s.fresh.1 % 65537) else 131072)).count .prbsErr .hostLane l
    (if (s.lane l).clean then 0 else bits)
/-- A check window whose lock is judged. -/
def State.judgeWindow (l symbols bits : Nat) (s : State) : State :=
  if 8192 < symbols ∧ ¬(s.lane l).clean then
    ((s.countWindow l bits).modLane l (fun h => { h with locked := false })).count .prbsLockLost .hostLane l 1
  else s.countWindow l bits
theorem exec_prbsCheckWindow {l : Fin 384} {s : State} (hchecker : (s.lane l).checker ≠ 0) (hlocked : (s.lane l).locked = true)
    (symbols bits : Nat) : exec (.prbsCheckWindow l symbols bits) s = .next (s.judgeWindow l symbols bits) := by
  refine (?_ : execPrbsCheckWindow l symbols bits s = _)
  simp only [execPrbsCheckWindow]
  rw [if_pos ⟨hchecker, hlocked⟩]
  unfold State.judgeWindow
  split <;> rfl
/-- Whether it unlocks the checker or not, the end of a window touches the lane's lock alone. -/
theorem judgeWindow_judges (l symbols bits : Nat) (s : State) : Moves [.lanes, .happened] (s.countWindow l bits) (s.judgeWindow l symbols bits)
    ∧ LaneAt l (fun h => { h with locked := h.locked && !decide (8192 < symbols ∧ ¬(s.lane l).clean) }) (s.countWindow l bits)
        (s.judgeWindow l symbols bits)
    ∧ (8192 < symbols → ¬(s.lane l).clean → Counted .prbsLockLost .hostLane l 1 (s.judgeWindow l symbols bits)) := by
  unfold State.judgeWindow
  split
  case isTrue hlost =>
    have hunlock := moves_modLane l (fun h => { h with locked := false }) (s.countWindow l bits)
    have hcount := moves_count .prbsLockLost .hostLane l 1 ((s.countWindow l bits).modLane l (fun h => { h with locked := false }))
    refine ⟨(hunlock.mono (by decide)).trans (hcount.mono (by decide)), ?_, fun _ _ => (counted_count _ _ _ _ _ (by decide)).1⟩
    simpa [hlost] using (laneAt_modLane l (fun h => { h with locked := false }) (s.countWindow l bits)).of_same rfl hcount.lanes
  case isFalse hkept =>
    refine ⟨.refl .., ⟨fun _ => ?_, fun _ _ => rfl⟩, fun hsym hclean => absurd ⟨hsym, hclean⟩ hkept⟩
    simp only [decide_eq_false hkept, Bool.not_false, Bool.and_true]
/-- Of a window in which the checker has locked, the next begins locked. -/
theorem countWindow_lockedInside {l : Nat} {s : State} (hinside : (s.lane l).lockedInside = true) (bits : Nat) :
    Moves [.lanes, .happened, .freeCtr] s (s.countWindow l bits)
      ∧ LaneAt l (fun h => { h with lockedInside := false }) s (s.countWindow l bits) := by
  unfold State.countWindow
  rw [if_pos hinside, if_pos hinside]
  have hfree := moves_fresh s
  have hset := moves_modLane l (fun h => { h with lockedInside := false }) s.fresh.2
  have hbits := moves_count .prbsBits .hostLane l (2 * (s.fresh.1 % 65537)) (s.fresh.2.modLane l (fun h => { h with lockedInside := false }))
  have herr := moves_count .prbsErr .hostLane l (if (s.lane l).clean then 0 else bits)
    ((s.fresh.2.modLane l (fun h => { h with lockedInside := false })).count .prbsBits .hostLane l (2 * (s.fresh.1 % 65537)))
  exact ⟨(((hfree.mono (by decide)).trans (hset.mono (by decide))).trans (hbits.mono (by decide))).trans (herr.mono (by decide)),
    (laneAt_modLane ..).of_same rfl (herr.lanes.trans hbits.lanes)⟩
/-- A window that begins locked counts its bits and its errors. -/
theorem countWindow_whole {l bits : Nat} {s : State} (hinside : (s.lane l).lockedInside = false) (hclean : ¬(s.lane l).clean)
    (hbits : bits ≠ 0) : Moves [.happened] s (s.countWindow l bits) ∧ Counted .prbsBits .hostLane l 131072 (s.countWindow l bits)
      ∧ Counted .prbsErr .hostLane l bits (s.countWindow l bits) := by
  have heq : s.countWindow l bits = (s.count .prbsBits .hostLane l 131072).count .prbsErr .hostLane l bits := by
    simp only [State.countWindow, hinside, hclean, Bool.false_eq_true, if_false]
  rw [heq]
  have herr := moves_count .prbsErr .hostLane l bits (s.count .prbsBits .hostLane l 131072)
  exact ⟨(moves_count ..).trans herr, herr.counted _ (counted_count _ _ _ _ _ (by decide)).1, (counted_count _ _ _ _ _ hbits).1⟩
section
variable {l : Fin 384} {s : State}
theorem prbsCheckWindow_lockedInside (hchecker : (s.lane l).checker ≠ 0) (hlocked : (s.lane l).locked = true)
    (hinside : (s.lane l).lockedInside = true) (symbols bits : Nat) :
    Happens [.lanes, .happened, .freeCtr] (fun t => (∀ q, q ≠ l.val → t.lane q = s.lane q) ∧ (t.lane l).lockedInside = false) s
      (exec (.prbsCheckWindow l symbols bits) s) := by
  obtain ⟨hcount, hcounted⟩ := countWindow_lockedInside hinside bits
  obtain ⟨hjudge, hjudged, -⟩ := judgeWindow_judges l symbols bits s
  obtain ⟨hlane, hothers⟩ := hcounted.trans hjudged
  exact ⟨_, exec_prbsCheckWindow hchecker hlocked symbols bits, ⟨hothers, by rw [hlane l.isLt]; rfl⟩,
    (hcount.trans (hjudge.mono (by decide))).steps.only⟩
theorem prbsCheckWindow_whole (hchecker : (s.lane l).checker ≠ 0) (hlocked : (s.lane l).locked = true) {bits : Nat} (hbits : bits ≠ 0)
    (hinside : (s.lane l).lockedInside = false) (hclean : (s.lane l).loopback = 2 → (s.lane l).generator ≠ (s.lane l).checker)
    (symbols : Nat) : Happens [.lanes, .happened] (fun t => LaneIs l (fun h => { h with locked := decide (symbols ≤ 8192) }) s t
      ∧ Counted .prbsBits .hostLane l 131072 t ∧ Counted .prbsErr .hostLane l bits t
      ∧ (8192 < symbols → Counted .prbsLockLost .hostLane l 1 t)) s (exec (.prbsCheckWindow l symbols bits) s) := by
  have hnoisy : ¬(s.lane l).clean := fun h => hclean h.1 h.2
  obtain ⟨hcount, hsent, hwrong⟩ := countWindow_whole hinside hnoisy hbits
  obtain ⟨hjudge, ⟨hlane, hothers⟩, hlost⟩ := judgeWindow_judges l symbols bits s
  refine ⟨_, exec_prbsCheckWindow hchecker hlocked symbols bits, ⟨⟨?_, fun q hq => ?_⟩, hjudge.counted _ hsent, hjudge.counted _ hwrong,
    fun hsym => hlost hsym hnoisy⟩, ((hcount.mono (by decide)).trans hjudge).steps.only⟩
  · rw [hlane l.isLt, hcount.lane]
    have hkept : ((s.lane l).locked && !decide (8192 < symbols ∧ ¬(s.lane l).clean)) = decide (symbols ≤ 8192) := by
      simp only [hlocked, hnoisy, not_false_eq_true, and_true, Bool.true_and, ← decide_not, Nat.not_lt]
    simp only [hkept]
  · exact (hothers q hq).trans (hcount.lane q)
end

/-! ### The frame tap (R288 to R291) -/

/-- A port whose tap has taken the blocks of a frame out of the client stream. -/
def Port.tapTaken (blocks : List Nat) (p : Port) : Port := { p with data := { p.data with tapped := p.data.tapped ++ blocks } }
/-- A port whose tap has accepted a frame, or dropped one. -/
def Port.tapAccepted (esmc : Bool) (p : Port) : Port := { p with tap := { p.tap with accepted := bumpClass esmc p.tap.accepted } }
def Port.tapDropped (esmc : Bool) (p : Port) : Port := { p with tap := { p.tap with dropped := bumpClass esmc p.tap.dropped } }
theorem State.tapSecond_same {n : Nat} {p : Port} {s : State} (hp : s.port? n = some p) (h : p.tap.second = s.taiSecond) :
    s.tapSecond n = s := by
  simp only [State.tapSecond, hp, h, if_true]
section
variable {n : Fin 384} {s : State} {p : Port} {esmc : Bool} {octets fcs : List Octet} (hp : s.port? n = some p) (hstate : p.state = .up)
  (hclass : p.tapClass octets = some esmc) (hon : (if esmc then p.tap.esmc else p.tap.ptp) = true) (blocks : List Nat) (sub : Nat)
include hp hstate hclass hon
theorem exec_tapFrameRx_bad (hfcs : fcsOk octets fcs = false) : exec (.tapFrameRx n octets fcs blocks sub) s
    = .next ((s.modPort n (Port.tapTaken blocks)).count .tapFcsErr .port n 1) := by
  refine (?_ : execTapFrameRx n octets fcs blocks sub s = _)
  simp only [execTapFrameRx, hp, hclass, hstate, hon, hfcs]
  rfl
theorem exec_tapFrameRx_ok (hfcs : fcsOk octets fcs = true) (hsecond : p.tap.second = s.taiSecond) :
    exec (.tapFrameRx n octets fcs blocks sub) s
      = .next (if 512 ≤ ofClass esmc p.tap.accepted ∨ 1024 ≤ (s.htile (n.val / 96)).waiting.length then
          (s.modPort n (Port.tapTaken blocks)).tapDrop n esmc
        else ((s.modPort n (Port.tapTaken blocks)).modPort n (Port.tapAccepted esmc)).modHtile (n.val / 96) (fun h => { h with
          waiting := h.waiting ++ [(n.val, esmc, octets, s.taiAt s.tn + sub - p.rxDelay)] })) := by
  refine (?_ : execTapFrameRx n octets fcs blocks sub s = _)
  have hport : (s.modPort n (Port.tapTaken blocks)).port? n = some (p.tapTaken blocks) := (portIs_modPort ..).at hp
  have htap : (s.modPort n (Port.tapTaken blocks)).tapSecond n = s.modPort n (Port.tapTaken blocks) :=
    State.tapSecond_same hport hsecond
  have htaken : (fun p : Port => { p with data := { p.data with tapped := p.data.tapped ++ blocks } }) = Port.tapTaken blocks := rfl
  simp only [execTapFrameRx, hp, hclass, hstate, hon, hfcs, htaken, htap, hport, ne_eq, not_true_eq_false, Bool.not_true,
    Bool.false_eq_true, or_self, if_false]
  exact (apply_ite Host.Outcome.next _ _ _).symm
theorem tapFrameRx_badFcs (hfcs : fcsOk octets fcs = false) : Happens [.ports, .happened] (fun t =>
    PortIs n (Port.tapTaken blocks) s t ∧ Counted .tapFcsErr .port n 1 t) s (exec (.tapFrameRx n octets fcs blocks sub) s) := by
  have htaken := moves_modPort n (Port.tapTaken blocks) s
  have hcount := moves_count .tapFcsErr .port n 1 (s.modPort n (Port.tapTaken blocks))
  exact ⟨_, exec_tapFrameRx_bad hp hstate hclass hon blocks sub hfcs,
    ⟨(portIs_modPort ..).of_same rfl hcount.ports, (counted_count _ _ _ _ _ (by decide)).1⟩,
    ((htaken.mono (by decide)).trans (hcount.mono (by decide))).steps.only⟩
theorem tapFrameRx_accepts (hfcs : fcsOk octets fcs = true) (hsecond : p.tap.second = s.taiSecond)
    (hfew : ofClass esmc p.tap.accepted < 512) (hroom : (s.htile (n.val / 96)).waiting.length < 1024) :
    Happens [.ports, .htiles] (fun t => PortIs n (Port.tapAccepted esmc ∘ Port.tapTaken blocks) s t
      ∧ t.htile (n.val / 96) = { s.htile (n.val / 96) with
          waiting := (s.htile (n.val / 96)).waiting ++ [(n.val, esmc, octets, s.taiAt s.tn + sub - p.rxDelay)] }
      ∧ ∀ q, q ≠ n.val / 96 → t.htile q = s.htile q) s (exec (.tapFrameRx n octets fcs blocks sub) s) := by
  have htaken := moves_modPort n (Port.tapTaken blocks) s
  have haccept := moves_modPort n (Port.tapAccepted esmc) (s.modPort n (Port.tapTaken blocks))
  have hqueue := moves_modHtile (n.val / 96) (fun h => { h with
    waiting := h.waiting ++ [(n.val, esmc, octets, s.taiAt s.tn + sub - p.rxDelay)] })
    ((s.modPort n (Port.tapTaken blocks)).modPort n (Port.tapAccepted esmc))
  have htile : n.val / 96 < 4 := Nat.div_lt_of_lt_mul n.isLt
  rw [exec_tapFrameRx_ok hp hstate hclass hon blocks sub hfcs hsecond, if_neg (by omega)]
  exact ⟨_, rfl, ⟨((portIs_modPort ..).trans (portIs_modPort ..)).of_same rfl hqueue.ports, State.htile_modHtile_same _ _ _ htile,
    fun q hq => State.htile_modHtile_ne _ _ _ _ hq⟩,
    (((htaken.mono (by decide)).trans (haccept.mono (by decide))).trans (hqueue.mono (by decide))).steps.only⟩
theorem tapFrameRx_drops (hfcs : fcsOk octets fcs = true) (hsecond : p.tap.second = s.taiSecond)
    (hlimit : 512 ≤ ofClass esmc p.tap.accepted ∨ 1024 ≤ (s.htile (n.val / 96)).waiting.length) :
    Happens [.ports, .happened] (fun t => PortIs n (Port.tapDropped esmc ∘ Port.tapTaken blocks) s t ∧ Counted .tapRxDrop .port n 1 t) s
      (exec (.tapFrameRx n octets fcs blocks sub) s) := by
  have htaken := moves_modPort n (Port.tapTaken blocks) s
  have hdrop := moves_modPort n (Port.tapDropped esmc) (s.modPort n (Port.tapTaken blocks))
  have hcount := moves_count .tapRxDrop .port n 1 ((s.modPort n (Port.tapTaken blocks)).modPort n (Port.tapDropped esmc))
  rw [exec_tapFrameRx_ok hp hstate hclass hon blocks sub hfcs hsecond, if_pos hlimit]
  exact ⟨_, rfl, ⟨((portIs_modPort ..).trans (portIs_modPort ..)).of_same rfl hcount.ports, (counted_count _ _ _ _ _ (by decide)).1⟩,
    (((htaken.mono (by decide)).trans (hdrop.mono (by decide))).trans (hcount.mono (by decide))).steps.only⟩
end
/-- A port whose tap has discarded the frame at the head of its queue. -/
def Port.tapDiscarded (rest : List OutFrame) (now : Nat) (p : Port) : Port :=
  { p with tap := { p.tap with queue := rest, lastDiscard := some now } }
/-- TAP_INSERT_TIMEOUT is told, unless a frame was discarded in the second before. -/
theorem exec_tapInsertTimeout {n : Fin 384} {s : State} {p : Port} {f : OutFrame} {rest : List OutFrame} (hp : s.port? n = some p)
    (hqueue : p.tap.queue = f :: rest) (hlong : p.tap.insertWait * 625 < (s.ticks - f.queuedAt) * 10) :
    exec (.tapInsertTimeout n) s = .next (if p.tap.lastDiscard.all (fun t => decide (t + 625000 < s.ticks)) then
        ((s.modPort n (Port.tapDiscarded rest s.ticks)).count .tapTxDrop .port n 1).raise .tapInsertTimeout .port n
          (w1 (if f.purpose = 5 then 1 else 0))
      else (s.modPort n (Port.tapDiscarded rest s.ticks)).count .tapTxDrop .port n 1) := by
  refine (?_ : execTapInsertTimeout n s = _)
  simp only [execTapInsertTimeout, hp, hqueue, hlong, if_true]
  rfl
theorem tapInsertTimeout_discards {n : Fin 384} {s : State} {p : Port} {f : OutFrame} {rest : List OutFrame} (hp : s.port? n = some p)
    (hqueue : p.tap.queue = f :: rest) (hlong : p.tap.insertWait * 625 < (s.ticks - f.queuedAt) * 10) :
    Happens (.ports :: eventParts) (fun t => PortIs n (Port.tapDiscarded rest s.ticks) s t ∧ Counted .tapTxDrop .port n 1 t) s
      (exec (.tapInsertTimeout n) s) := by
  have hset := moves_modPort n (Port.tapDiscarded rest s.ticks) s
  have hcount := moves_count .tapTxDrop .port n 1 (s.modPort n (Port.tapDiscarded rest s.ticks))
  have hcounted := (counted_count .tapTxDrop .port n 1 (s.modPort n (Port.tapDiscarded rest s.ticks)) (by decide)).1
  have hport := (portIs_modPort n (Port.tapDiscarded rest s.ticks) s).of_same rfl hcount.ports
  generalize hu : (s.modPort n (Port.tapDiscarded rest s.ticks)).count .tapTxDrop .port n 1 = u at *
  have htold : Moves eventParts u (if p.tap.lastDiscard.all (fun t => decide (t + 625000 < s.ticks)) = true then
      u.raise .tapInsertTimeout .port n (w1 (if f.purpose = 5 then 1 else 0)) else u) := moves_ite (moves_raise ..) (.refl ..)
  refine ⟨_, exec_tapInsertTimeout hp hqueue hlong, ?_⟩
  rw [hu]
  exact ⟨⟨hport.of_same rfl htold.ports, htold.counted _ hcounted⟩,
    (((hset.mono (by decide)).trans (hcount.mono (by decide))).trans (htold.mono (by decide))).steps.only⟩

theorem Happens.imp {l : List Part} {P Q : State → Prop} {s : State} {r : Res} (h : Happens l P s r) (hPQ : ∀ t, P t → Q t) :
    Happens l Q s r :=
  have ⟨t, hexec, hP, honly⟩ := h
  ⟨t, hexec, hPQ t hP, honly⟩

/-- Settles O33: each row is the step it makes where its condition holds, and that step brings what the statement asks. -/
theorem hostSideHappenings : Obligations.HostSideHappenings := by
  refine ⟨fun k s => ⟨fun hclk hmode => ?_, hostRefclkOk_tells⟩, fun l s => ⟨fun changes w hruns =>
    ⟨fun hsparse => ?_, fun hdense hthin => ?_, fun hdense hfull hheld => ?_⟩, fun hchecker hlocked hheard => ?_,
    fun symbols bits hchecker hlocked hinside => ?_,
    fun symbols bits hchecker hlocked hbits hinside hclean => ?_⟩, fun n s p hp =>
    ⟨fun esmc octets fcs blocks sub hstate hclass hon => ⟨fun hfcs => ?_, fun hfcs hsecond hfew hroom => ?_, fun hfcs hsecond hlimit => ?_⟩,
      fun f rest => tapInsertTimeout_discards hp⟩⟩
  · refine (hostRefclkLoss_unclocks hclk hmode).imp (fun t ⟨hself, hothers, hoff, hlanes, hports, hraised⟩ =>
      ⟨hself, hothers, hoff, hlanes, fun n hn => hports n (fun h => hn (Fin.ext ?_)), hraised⟩)
    have hdiv : ∀ n : Fin 4, (n / 96).val = n.val / 96 := by decide
    exact (hdiv n).trans h
  · exact happens_shortWindow (by decide) (exec_hlAdaptWindowEnd_sparse hruns hsparse)
  · exact (happens_shortWindow (by decide) (exec_hlAdaptWindowEnd_thin hruns hdense hthin)).imp
      (fun t ⟨hothers, hshort, _, hcounted, _, hraised⟩ => ⟨hothers, hshort, hcounted, hraised⟩)
  · have hgood : (s.lane l).goodWindow changes w = true := by simpa [HostLane.goodWindow, hdense] using hfull
    obtain ⟨hmove, hthawed⟩ := goodWindow_thaws hgood hheld
    exact ⟨_, exec_hlAdaptWindowEnd_good hruns hdense hfull hheld, hthawed, hmove.steps.only⟩
  · exact ⟨_, exec_prbsCheckerLock hchecker hlocked hheard, (laneAt_modLane ..).laneIs l.isLt, (moves_modLane ..).steps.only⟩
  · exact prbsCheckWindow_lockedInside hchecker hlocked hinside symbols bits
  · exact prbsCheckWindow_whole hchecker hlocked hbits hinside hclean symbols
  · exact tapFrameRx_badFcs hp hstate hclass hon blocks sub hfcs
  · exact (tapFrameRx_accepts hp hstate hclass hon blocks sub hfcs hsecond hfew hroom).imp
      (fun t ⟨hport, hqueue, hothers⟩ => ⟨hport, hqueue, fun q hq => hothers q (fun h => hq (Fin.ext h))⟩)
  · exact tapFrameRx_drops hp hstate hclass hon blocks sub hfcs hsecond hlimit
end Sys2Proof.Machine
end

section
/-! What the steps of the time core touch, tell and keep: changes of state, the choice of source, the states of a candidate, the leap and the
steps of the tick offset (used by O34 to O36). -/
-- One after another: a task for each proof would ask for more threads than the memory limit allows.
set_option Elab.async false
namespace Sys2Proof.Machine

/-! ### Steps that keep what a view shows of the time core -/

/-- What a change of the core's state or source may touch: the core, its events, and with its first lock the tick epoch (Table 1.3). -/
def coreParts : List Part := .time :: .settings :: .realign :: .tnProvisional :: eventParts
section
variable {l : List Part} {s t : State}
theorem Moves.time (h : Moves l s t) (hl : Part.time ∉ l := by decide) : t.time = s.time := h.steps.only .time hl
theorem Moves.tickOffset (h : Moves l s t) (hl : Part.tickOffset ∉ l := by decide) : t.tickOffset = s.tickOffset :=
  h.steps.only .tickOffset hl
theorem Moves.engines (h : Moves l s t) (hl : Part.engines ∉ l := by decide) : t.engines = s.engines := h.steps.only .engines hl
theorem Moves.settings (h : Moves l s t) (hl : Part.settings ∉ l := by decide) : t.kennel.settings = s.kennel.settings :=
  (h.steps.only .settings hl).1
end
theorem moves_modTime (f : TimeCore → TimeCore) (s : State) : Moves [.time] s (s.modTime f) :=
  moves_of_same (fun p hp => by cases p <;> simp [Part.same] at hp ⊢) rfl rfl
theorem moves_modSettings (f : Settings → Settings) (s : State) : Moves [.settings] s (s.modSettings f) :=
  moves_of_same (fun p hp => by cases p <;> simp [Part.same] at hp ⊢) rfl rfl
theorem moves_realign (r : Option Realign) (s : State) : Moves [.realign] s { s with realign := r } :=
  moves_of_same (fun p hp => by cases p <;> simp [Part.same, State.tile] at hp ⊢) rfl rfl

/-- A step of the time core that keeps what `g` shows of it. -/
structure CoreStep {β : Type} (g : TimeCore → β) (s t : State) : Prop where
  moves : Moves coreParts s t
  kept : g t.time = g s.time
section
variable {β : Type} {g : TimeCore → β} {s t u : State}
theorem CoreStep.refl : CoreStep g s s := ⟨.refl .., rfl⟩
theorem CoreStep.trans (h : CoreStep g s u) (h' : CoreStep g u t) : CoreStep g s t := ⟨h.moves.trans h'.moves, h'.kept.trans h.kept⟩
theorem CoreStep.imp {γ : Type} (h : CoreStep g s t) (φ : β → γ) : CoreStep (φ ∘ g) s t := ⟨h.moves, congrArg φ h.kept⟩
theorem coreStep_ite {b : Prop} {_ : Decidable b} (ht : CoreStep g s t) (hu : CoreStep g s u) : CoreStep g s (if b then t else u) := by
  split
  exacts [ht, hu]
/-- A step that leaves the time core. -/
theorem coreStep_of_moves {l : List Part} (h : Moves l s t) (hl : ∀ p ∈ l, p ∈ coreParts := by decide)
    (htime : Part.time ∉ l := by decide) : CoreStep g s t := ⟨h.mono hl, congrArg g (h.time htime)⟩
theorem coreStep_modTime {f : TimeCore → TimeCore} (h : ∀ t, g (f t) = g t) : CoreStep g s (s.modTime f) :=
  ⟨(moves_modTime f s).mono (by decide), h s.time⟩
theorem coreStep_raise (ev : Ev) (k : Kind) (i : Nat) (ws : List Word) : CoreStep g s (s.raise ev k i ws) :=
  coreStep_of_moves (moves_raise ..)
theorem coreStep_count (c : Ctr) (k : Kind) (i n : Nat) : CoreStep g s (s.count c k i n) := coreStep_of_moves (moves_count ..)
end
/-- The PPS and ToD inputs: what no change of a candidate touches. -/
def TimeCore.lines (t : TimeCore) : Vector PpsIn 2 × Vector TodIn 2 := (t.pps, t.tod)
/-- The inputs and the candidates: what no change of state and no choice of source touches. -/
def TimeCore.inputs (t : TimeCore) : List Candidate × Vector PpsIn 2 × Vector TodIn 2 := (t.candidates, t.lines)
section
variable {s t : State}
theorem CoreStep.lines (h : CoreStep TimeCore.inputs s t) : CoreStep TimeCore.lines s t := h.imp Prod.snd
theorem CoreStep.candidates (h : CoreStep TimeCore.inputs s t) : t.time.candidates = s.time.candidates := congrArg Prod.fst h.kept
theorem CoreStep.ppsIn (h : CoreStep TimeCore.lines s t) (n : Nat) : t.ppsIn n = s.ppsIn n :=
  congrArg (fun x : Vector PpsIn 2 × Vector TodIn 2 => vget x.1 n PpsIn.reset) h.kept
theorem CoreStep.todIn (h : CoreStep TimeCore.lines s t) (n : Nat) : t.todIn n = s.todIn n :=
  congrArg (fun x : Vector PpsIn 2 × Vector TodIn 2 => vget x.2 n TodIn.reset) h.kept
theorem State.candOpt_of_candidates (h : t.time.candidates = s.time.candidates) (x : TimeSrc) : t.cand? x = s.cand? x := by
  simp only [State.cand?, h]
end

/-! ### Changes of state (R308) -/

theorem moves_refreshTrace (s : State) : Moves [.time] s s.refreshTrace := moves_modTime (fun _ => s.refreshTrace.time) s
theorem moves_epochInPlace (s : State) : Moves (.settings :: .tnProvisional :: eventParts) s s.epochInPlace := by
  refine .trans (u := ({ s with tnProvisional := false } : State).modSettings (fun k => { k with epochSet := true, epochTai := s.tickOffset }))
    (moves_of_same (fun p hp => ?_) rfl rfl) ((moves_raise ..).mono (by decide))
  cases p <;> simp [Part.same, State.tile] at hp ⊢
theorem moves_epochAtLock (first : Bool) (s : State) :
    Moves (.settings :: .realign :: .tnProvisional :: eventParts) s (s.epochAtLock first) := by
  unfold State.epochAtLock
  (repeat' split)
  exacts [.refl .., (moves_epochInPlace ..).mono (by decide), (moves_realign ..).mono (by decide),
    (moves_realign ..).mono (by decide), .refl ..]
/-- Noting the applied frequency changes the history alone. -/
theorem TimeCore.note_eq (t : TimeCore) (now : Nat) : t.note now = { t with history := (t.note now).history } := by
  unfold TimeCore.note
  dsimp only
  (repeat' split) <;> rfl
/-- The core as it enters a state, before its history is noted. -/
def TimeCore.entering (st : TimeState) (now : Nat) (t : TimeCore) : TimeCore :=
  let idle := st == .freerun || st == .holdover
  let trace := t.traceable && st == .holdover && t.params.holdoverTrace != 0
  { t with
    state := st, uncert := t.uncertNow now, uncertAt := now, slew := if idle then 0 else t.slew
    meas := if idle then none else t.meas, prevMeas := if st == .locked then t.prevMeas else none, goodRun := 0, badRun := 0
    everLocked := t.everLocked || st == .locked
    demand := if st == .holdover && t.steering == .same then t.holdValue now else t.demand
    traceUntil := if trace then some (now + t.params.holdoverTrace * secTicks) else none
    traceable := t.traceable && (st == .locked || trace) }
/-- A change of state before it asks for the tick epoch: the core enters the state, and TIME_STATE tells it. -/
def State.entered (st : TimeState) (s : State) : State :=
  ((s.modTime (fun t => (t.entering st s.ticks).note s.ticks)).raise .timeState .device 0
    (w1 s.time.state.code ++ w1 st.code ++ w2 s.tn)).refreshTrace
section
variable (st : TimeState) (s : State)
theorem moves_entered : Moves (.time :: eventParts) s (s.entered st) :=
  (((moves_modTime ..).mono (by decide)).trans ((moves_raise ..).mono (by decide))).trans ((moves_refreshTrace _).mono (by decide))
theorem State.entered_time : ∃ hist tr fr,
    (s.entered st).time = { s.time.entering st s.ticks with history := hist, traceable := tr, freqTraceable := fr } := by
  refine ⟨((s.time.entering st s.ticks).note s.ticks).history, (s.entered st).time.traceable, (s.entered st).time.freqTraceable, ?_⟩
  simp only [State.entered, State.refreshTrace, State.raise_time, State.modTime_time]
  rw [TimeCore.note_eq]
theorem raised_entered : Raised .timeState .device 0 (w1 s.time.state.code ++ w1 st.code ++ w2 s.tn) s.tn (s.entered st) :=
  (moves_refreshTrace _).raised (raised_raise_tn rfl)
end
theorem State.timeTo_same {st : TimeState} {s : State} (h : s.time.state = st) : s.timeTo st = s := by
  unfold State.timeTo
  exact if_pos (by simp [h])
theorem State.timeTo_eq {st : TimeState} {s : State} (h : s.time.state ≠ st) :
    s.timeTo st = if st = .locked then (s.entered st).epochAtLock (!s.time.everLocked) else s.entered st := by
  unfold State.timeTo
  refine (if_neg (by simpa using h)).trans ?_
  simp only [State.entered, TimeCore.entering, State.modTime, beq_iff_eq]
section
variable (st : TimeState) (s : State)
theorem coreStep_timeTo : CoreStep TimeCore.inputs s (s.timeTo st) := by
  by_cases h : s.time.state = st
  · rw [State.timeTo_same h]
    exact .refl
  obtain ⟨_, _, _, htime⟩ := State.entered_time st s
  rw [State.timeTo_eq h]
  exact .trans ⟨(moves_entered st s).mono (by decide), by rw [htime]; rfl⟩ (coreStep_ite (coreStep_of_moves (moves_epochAtLock ..)) .refl)
/-- A change of state leaves the core as it enters the state. -/
theorem State.timeTo_time (h : s.time.state ≠ st) : ∃ hist tr fr,
    (s.timeTo st).time = { s.time.entering st s.ticks with history := hist, traceable := tr, freqTraceable := fr } := by
  obtain ⟨hist, tr, fr, htime⟩ := State.entered_time st s
  refine ⟨hist, tr, fr, ?_⟩
  rw [State.timeTo_eq h, ← htime]
  split
  exacts [(moves_epochAtLock ..).time, rfl]
theorem State.timeTo_state : (s.timeTo st).time.state = st := by
  by_cases h : s.time.state = st
  · rw [State.timeTo_same h, h]
  obtain ⟨_, _, _, htime⟩ := State.timeTo_time st s h
  rw [htime]
  rfl
theorem State.timeTo_selected : (s.timeTo st).time.selected = s.time.selected := by
  by_cases h : s.time.state = st
  · rw [State.timeTo_same h]
  obtain ⟨_, _, _, htime⟩ := State.timeTo_time st s h
  rw [htime]
  rfl
theorem raised_timeTo (h : s.time.state ≠ st) :
    Raised .timeState .device 0 (w1 s.time.state.code ++ w1 st.code ++ w2 s.tn) s.tn (s.timeTo st) := by
  rw [State.timeTo_eq h]
  split
  exacts [(moves_epochAtLock ..).raised (raised_entered st s), raised_entered st s]
end

/-! ### The choice of source (R306) -/

theorem coreStep_keepSteps {β : Type} {g : TimeCore → β} {s : State} (h : ∀ t n, g { t with lastSteps := n } = g t) :
    CoreStep g s s.keepSteps := coreStep_ite (coreStep_modTime (fun t => h t _)) .refl
theorem State.selectSource_same {x : Option TimeSrc} {s : State} (h : s.time.selected = x) : s.selectSource x = s := by
  unfold State.selectSource
  exact if_pos h
/-- What a change of source does before the core changes its state: it is selected, and TIME_SOURCE_CHANGE tells it. -/
theorem State.selectSource_eq {x : Option TimeSrc} {s : State} (h : s.time.selected ≠ x) : ∃ u, CoreStep TimeCore.inputs s u
    ∧ u.time.selected = x ∧ Raised .timeSourceChange .device 0 (w1 (srcWord s.time.selected) ++ w1 (srcWord x) ++ w2 s.tn) s.tn u
    ∧ s.selectSource x = u.timeTo (if x.isSome then .acquiring else if s.time.candidates.isEmpty then .freerun
        else if u.time.everLocked then .holdover else .freerun) := by
  unfold State.selectSource
  dsimp only
  rw [if_neg h]
  have hkeep : CoreStep TimeCore.inputs s s.keepSteps := coreStep_keepSteps (fun _ _ => rfl)
  generalize hu : s.keepSteps.modTime _ = u
  have hset : CoreStep TimeCore.inputs s.keepSteps u := hu ▸ coreStep_modTime (fun _ => rfl)
  have htn : u.tn = s.tn := (hkeep.trans hset).moves.tn
  have hsel : u.time.selected = x := by rw [← hu]; rfl
  have htell := moves_raise .timeSourceChange .device 0 (w1 (srcWord s.time.selected) ++ w1 (srcWord x) ++ w2 u.tn) u
  rw [htn] at htell ⊢
  have hall : CoreStep TimeCore.inputs s _ := (hkeep.trans hset).trans (coreStep_of_moves htell)
  refine ⟨_, hall, by rw [htell.time, hsel], raised_raise_tn htn, ?_⟩
  rw [hall.candidates]
  (repeat' split) <;> rfl
theorem coreStep_selectSource (x : Option TimeSrc) (s : State) : CoreStep TimeCore.inputs s (s.selectSource x) := by
  by_cases h : s.time.selected = x
  · rw [State.selectSource_same h]
    exact .refl
  obtain ⟨u, hstep, -, -, heq⟩ := State.selectSource_eq h
  exact heq ▸ hstep.trans (coreStep_timeTo ..)
theorem State.selectSource_selected (x : Option TimeSrc) (s : State) : (s.selectSource x).time.selected = x := by
  by_cases h : s.time.selected = x
  · rw [State.selectSource_same h, h]
  obtain ⟨u, -, hsel, -, heq⟩ := State.selectSource_eq h
  rw [heq, State.timeTo_selected, hsel]
theorem coreStep_reselect (s : State) : CoreStep TimeCore.inputs s s.reselect := by
  unfold State.reselect
  dsimp only
  (repeat' split)
  exacts [coreStep_selectSource .., .refl, coreStep_selectSource ..]
/-- With no source selected, a QUALIFIED candidate is taken at once. -/
theorem State.reselect_selects {s : State} {c : Candidate} (hnone : s.time.selected = none) (hc : c ∈ s.time.candidates)
    (hst : c.st = .qualified) : s.reselect.time.selected ≠ none := by
  have hmem : c ∈ s.time.candidates.filter (fun c => c.st == .qualified) := List.mem_filter.mpr ⟨hc, by simp [hst]⟩
  unfold State.reselect
  simp only [hnone, Option.any_none, Bool.false_eq_true, if_false, State.selectSource_selected]
  simpa using ⟨c, hc, hst⟩
/-- A due candidate of higher priority takes the place of the selected source (R306). -/
theorem State.reselect_gives_way {s : State} {x : TimeSrc} {y : Candidate} (hsel : s.time.selected = some x)
    (hkeep : (s.time.candidates.filter (fun z => z.st == .qualified)).any (fun z => decide (z.src = x)) = true)
    (hdue : (s.time.candidates.takeWhile (fun z => decide (some z.src ≠ s.time.selected))).find? (fun z => z.st == .qualified
      && s.time.params.revertive == 1 && decide (z.qualifiedAt + z.wtr * secTicks ≤ s.ticks)) = some y) :
    y.src ≠ x ∧ s.reselect = s.selectSource (some y.src) := by
  have hne : some y.src ≠ s.time.selected := by simpa using List.mem_takeWhile_imp (List.mem_of_find?_eq_some hdue)
  refine ⟨fun h => hne (by rw [h, hsel]), ?_⟩
  unfold State.reselect
  simp only [hdue]
  exact if_pos (by rw [hsel]; exact hkeep)

/-! ### The states of a candidate (R305) -/

theorem State.candOpt_modCand {f : Candidate → Candidate} (hf : ∀ c, (f c).src = c.src) (x : TimeSrc) (s : State) :
    (s.modCand x f).cand? x = (s.cand? x).map f := by
  have hsrc : (fun c => decide (c.src = x)) ∘ (fun c => if c.src = x then f c else c) = fun c => decide (c.src = x) := by
    funext c
    simp only [Function.comp]
    split <;> simp [*]
  simp only [State.cand?, State.modCand, State.modTime_time, List.find?_map, hsrc]
  cases hc : s.time.candidates.find? (fun c => decide (c.src = x)) with
  | none => rfl
  | some c =>
    have hx : c.src = x := by simpa using List.find?_some hc
    simp only [Option.map_some, hx, if_true]
theorem coreStep_modCand (x : TimeSrc) (f : Candidate → Candidate) (s : State) : CoreStep TimeCore.lines s (s.modCand x f) :=
  coreStep_modTime (fun _ => rfl)
theorem State.candOpt_reselect (x : TimeSrc) (s : State) : s.reselect.cand? x = s.cand? x :=
  State.candOpt_of_candidates (coreStep_reselect s).candidates x
/-- A candidate that has changed its state. -/
def Candidate.turned (st : CandState) (now : Nat) (p : TimeParams) (c : Candidate) : Candidate :=
  { c with
    st := st, since := now, qualifiedAt := if st == .qualified then now else c.qualifiedAt
    qualTime := if st == .qualifying then p.qualTime else c.qualTime, wtr := if st == .qualifying then p.wtr else c.wtr }
section
variable {x : TimeSrc} {st : CandState} {c : Candidate} {s : State}
/-- What a candidate's change of state does before the choice of source: SOURCE_QUAL tells it. -/
theorem State.qualify_eq (why : QualReason) (hc : s.cand? x = some c) (hst : c.st ≠ st) : ∃ u, CoreStep TimeCore.lines s u
    ∧ u.cand? x = some (c.turned st s.ticks s.time.params) ∧ u.time.selected = s.time.selected
    ∧ Raised .sourceQual .device 0 (w1 x.word ++ w1 st.code ++ w1 why.code) s.tn u ∧ s.qualify x st why = u.reselect := by
  have htell := moves_raise .sourceQual .device 0 (w1 x.word ++ w1 st.code ++ w1 why.code)
    (s.modCand x (Candidate.turned st s.ticks s.time.params))
  refine ⟨_, (coreStep_modCand ..).trans (coreStep_of_moves htell), ?_, (congrArg TimeCore.selected htell.time).trans rfl, raised_raise_tn rfl, ?_⟩
  · rw [State.candOpt_of_candidates (congrArg TimeCore.candidates htell.time), State.candOpt_modCand (f := Candidate.turned st s.ticks s.time.params) (fun _ => rfl), hc]
    rfl
  · simp only [State.qualify, hc]
    exact if_neg (by simpa using hst)
theorem State.qualify_same (why : QualReason) (hc : s.cand? x = some c) (hst : c.st = st) : s.qualify x st why = s := by
  simp only [State.qualify, hc]
  exact if_pos (by simpa using hst)
theorem coreStep_qualify (x : TimeSrc) (st : CandState) (why : QualReason) (s : State) : CoreStep TimeCore.lines s (s.qualify x st why) := by
  cases hc : s.cand? x with
  | none =>
    simp only [State.qualify, hc]
    exact .refl
  | some c =>
    by_cases hst : c.st = st
    · rw [State.qualify_same why hc hst]
      exact .refl
    · obtain ⟨u, hstep, -, -, -, heq⟩ := State.qualify_eq why hc hst
      exact heq ▸ hstep.trans (coreStep_reselect u).lines
theorem coreStep_disqualify (x : TimeSrc) (why : QualReason) (s : State) : CoreStep TimeCore.lines s (s.disqualify x why) :=
  coreStep_qualify ..
theorem disqualify_disqualifies (why : QualReason) (hc : s.cand? x = some c) :
    ∃ y, (s.disqualify x why).cand? x = some y ∧ y.st = .disqualified := by
  unfold State.disqualify
  by_cases hst : c.st = .disqualified
  · exact ⟨c, by rw [State.qualify_same why hc hst, hc], hst⟩
  · obtain ⟨u, -, hu, -, -, heq⟩ := State.qualify_eq why hc hst
    exact ⟨_, by rw [heq, State.candOpt_reselect, hu], rfl⟩
theorem coreStep_restartCand (x : TimeSrc) (s : State) : CoreStep TimeCore.lines s (s.restartCand x) := by
  unfold State.restartCand
  split
  · refine coreStep_ite .refl (.trans ?_ (coreStep_reselect _).lines)
    exact (coreStep_modCand ..).trans (coreStep_raise ..)
  · exact .refl
theorem coreStep_breakCand (x : TimeSrc) (s : State) : CoreStep TimeCore.lines s (s.breakCand x) := coreStep_modCand ..
theorem State.candOpt_breakCand (x : TimeSrc) (s : State) : (s.breakCand x).cand? x
    = (s.cand? x).map (fun c => if c.st == .qualifying then { c with since := s.ticks } else c) :=
  State.candOpt_modCand (fun c => by split <;> rfl) x s
end

/-! ### UTC and leap seconds (R294) -/

theorem moves_utcTo (off dir : Int) (leapAt origin : Nat) (s : State) : Moves (.settings :: eventParts) s (s.utcTo off dir leapAt origin) :=
  moves_ite (.refl ..) (((moves_modSettings ..).mono (by decide)).trans ((moves_raise ..).mono (by decide)))
theorem State.utcTo_settings (off dir : Int) (leapAt origin : Nat) (s : State) : (s.utcTo off dir leapAt origin).kennel.settings
    = { s.kennel.settings with utcOffset := off, leapAt := leapAt, leapDir := dir } := by
  unfold State.utcTo
  dsimp only
  split
  case isTrue h =>
    obtain ⟨rfl, rfl, rfl⟩ := h
    rfl
  case isFalse => exact (moves_raise ..).settings
theorem moves_utcFrom (x : TimeSrc) (off dir : Int) (leapAt origin : Nat) (s : State) :
    Moves (.settings :: eventParts) s (s.utcFrom x off dir leapAt origin) := moves_ite (moves_utcTo ..) (.refl ..)
theorem moves_leapDue (s : State) : Moves (.settings :: eventParts) s s.leapDue :=
  moves_ite (((moves_raise ..).mono (by decide)).trans (moves_utcTo ..)) (.refl ..)

/-! ### Steps of the tick offset (R302, R303) -/

/-- What a step of the tick offset touches. -/
def stepParts : List Part := .time :: .tickOffset :: .settings :: .engines :: eventParts
/-- The core after a step by `d` that leaves its time at `now`: instants move with it, and the outputs take up the new seconds (R303). -/
def TimeCore.afterStep (d now : Int) (t : TimeCore) : TimeCore :=
  { t.moved d with
    slew := 0, todOut := { t.todOut with stepped := true, second := outAfterStep t.todOut.second (now / secondUnits) }
    ppsOut := t.ppsOut.map (fun o => { o with second := outAfterStep o.second ((now + o.cfg.delay) / secondUnits)
                                              next := o.next.map (fun x => (x.1, min x.2 (now / secondUnits + 1))) }) }
/-- A step of the tick offset before it is told. -/
def State.stepped (d : Int) (s : State) : State :=
  { s with
    tickOffset := s.tickOffset + d, time := s.time.afterStep d (s.nowTai + d)
    engines := s.engines.map (fun g => { g with ltt := { g.ltt with voidNow := true } }) }
section
variable (d : Int) (s : State)
theorem State.stepBy_eq : s.stepBy d = ((s.stepped d).raise .timeStep .device 0 (wi2 d ++ w2 s.tn)).leapDue := by
  have hnow : ({ s with tickOffset := s.tickOffset + d, time := s.time.moved d } : State).nowTai = s.nowTai + d := by
    simp only [State.nowTai, State.taiAt]
    omega
  unfold State.stepBy
  dsimp only
  rw [hnow]
  rfl
theorem moves_stepped : Moves [.time, .tickOffset, .engines] s (s.stepped d) :=
  moves_of_same (fun p hp => by cases p <;> simp [Part.same, State.stepped, State.tile] at hp ⊢) rfl rfl
/-- Telling a step and the leap it crosses leave the core, its offset and the engines. -/
theorem moves_steppedTold : Moves (.settings :: eventParts) (s.stepped d) (s.stepBy d) := by
  rw [State.stepBy_eq]
  exact ((moves_raise ..).mono (by decide)).trans (moves_leapDue _)
theorem moves_stepBy : Moves stepParts s (s.stepBy d) :=
  ((moves_stepped d s).mono (by decide)).trans ((moves_steppedTold d s).mono (by decide))
theorem State.stepBy_tickOffset : (s.stepBy d).tickOffset = s.tickOffset + d := (moves_steppedTold d s).tickOffset
theorem State.stepBy_time : (s.stepBy d).time = s.time.afterStep d (s.nowTai + d) := (moves_steppedTold d s).time
theorem State.stepBy_eng (e : Nat) : (s.stepBy d).eng e = s.eng e
    ∨ (s.stepBy d).eng e = { s.eng e with ltt := { (s.eng e).ltt with voidNow := true } } := by
  simp only [State.eng, (moves_steppedTold d s).engines, State.stepped, vget]
  by_cases he : e < 48
  · exact .inr (by simp [he])
  · exact .inl (by simp [he])
theorem raised_stepBy : Raised .timeStep .device 0 (wi2 d ++ w2 s.tn) s.tn (s.stepBy d) := by
  rw [State.stepBy_eq]
  exact (moves_leapDue _).raised (raised_raise_tn rfl)
end
theorem State.stepNow_none {s : State} (h : s.time.stepDue = none) : s.stepNow = s := by simp only [State.stepNow, h]
theorem State.stepNow_due {s : State} {e : Int} (h : s.time.stepDue = some e) (hat : s.time.measAt < s.ticks) :
    s.stepNow = (s.modTime (fun t => { t with stepDue := none })).stepBy (-e) := by simp only [State.stepNow, h, hat, if_true]
theorem moves_stepNow (s : State) : Moves stepParts s s.stepNow := by
  unfold State.stepNow
  (repeat' split)
  exacts [((moves_modTime ..).mono (by decide)).trans (moves_stepBy ..), .refl .., .refl ..]
/-- The step of a boundary leaves the snapshot block. -/
theorem State.stepNow_snap (s : State) : s.stepNow.time.snap = s.time.snap := by
  unfold State.stepNow
  (repeat' split)
  · rw [State.stepBy_time]
    rfl
  all_goals rfl
end Sys2Proof.Machine
end

section
/-! The commands of the time core (O34). -/
-- One after another: a task for each proof would ask for more threads than the memory limit allows.
set_option Elab.async false
namespace Sys2Proof.Machine

/-! ### Commands that write the time core alone -/

theorem State.nowTai_atParse (op : Nat) (c : Cmd) (s : State) : (s.atParse op c).nowTai = s.nowTai := by
  simp only [State.nowTai, State.taiAt, State.atParse_tickOffset, State.atParse_tn]
/-- A command that changes the time core at once, and nothing else. -/
theorem does_time_now {sp : OpSpec} {f : Cmd → State → State × List Word} {g : TimeCore → TimeCore} {P : State → Prop} {c : Cmd} {s : State}
    (h : Ready sp c s = true) (he : sp.eff = .now f) (ha : sp.onAccept = fun _ s => s)
    (hf : f c (s.atParse sp.code c) = ((s.atParse sp.code c).modTime g, [])) (hP : ∀ t, t.time = g s.time → P t) :
    Does sp.code c [] [.time] P s (runOp sp c s) :=
  does_steps h he ha hf (moves_modTime ..).steps (by decide) (fun t ht => hP t (by
    rw [(Moves.of_steps ht).time, State.modTime_time, State.atParse_time]))
/-- SUB of an accepted command of the device's lines. -/
theorem ready_sub {sp : OpSpec} {c : Cmd} {s : State} {n : Nat} (h : Ready sp c s = true) (ht : sp.target = tgtDeviceSub n) : cSub c < n := by
  have htarget := ready_target sp c s h
  simp only [ht, tgtDeviceSub, Bool.and_eq_true, decide_eq_true_eq] at htarget
  exact htarget.2
section
variable {c : Cmd} {s : State}
theorem timeParamSet_does (h : Ready specTimeParamSet c s = true) : Does 0x402 c [] [.time] (fun t => t.time = { s.time with
    params := { ki := cw c 1, slewMax := cw c 2, stepPolicy := cw c 3, stepThresh := cw c 4, lockPhase := cw c 5
                qualTime := cw c 6, revertive := cw c 7, wtr := cw c 8, holdoverAvg := cw c 9, holdoverTrace := cw c 10
                utcSource := cw c 11 } }) s (exec (.timeParamSet c) s) :=
  does_time_now h rfl rfl rfl (fun _ ht => ht)
/-- A PPS input with new settings: what it has received so far is forgotten. -/
def PpsIn.given (c : Cmd) : PpsIn := { PpsIn.reset with falling := cw c 1 == 1, delay := sx 64 (cw2 c 2), gate := cw c 4 }
/-- The ToD input beside a PPS input with new settings. -/
def TodIn.forgotten (q : TodIn) : TodIn := { q with windowed := false, last := none, waiting := none }
theorem timePpsInSet_does (h : Ready specTimePpsInSet c s = true) : Does 0x407 c [] [.time] (fun t =>
    (t.ppsIn (cSub c)).falling = (cw c 1 == 1) ∧ (t.ppsIn (cSub c)).delay = sx 64 (cw2 c 2) ∧ (t.ppsIn (cSub c)).gate = cw c 4
    ∧ (t.ppsIn (cSub c)).last = none ∧ (t.todIn (cSub c)).windowed = false ∧ (t.todIn (cSub c)).baud = (s.todIn (cSub c)).baud
    ∧ t.time = { s.time with pps := t.time.pps, tod := t.time.tod }
    ∧ ∀ n, n ≠ cSub c → t.ppsIn n = s.ppsIn n ∧ t.todIn n = s.todIn n) s (exec (.timePpsInSet c) s) := by
  have hsub : cSub c < 2 := ready_sub h rfl
  refine does_time_now (g := fun t => { t with
    pps := vmod t.pps (cSub c) (fun _ => .given c), tod := vmod t.tod (cSub c) (·.forgotten) }) h rfl rfl rfl (fun t ht => ?_)
  have hpps : t.ppsIn (cSub c) = .given c := by simp only [State.ppsIn, ht, vget_vmod_same _ _ _ _ hsub]
  have htod : t.todIn (cSub c) = (s.todIn (cSub c)).forgotten := by simp only [State.todIn, ht, vget_vmod_same _ _ _ _ hsub]
  rw [hpps, htod]
  refine ⟨rfl, rfl, rfl, rfl, rfl, rfl, by rw [ht], fun n hn => ?_⟩
  simp only [State.ppsIn, State.todIn, ht, vget_vmod_ne _ _ _ _ _ hn, and_self]
/-- The settings of an output that TIME_PPS_OUT_SET gives. -/
def PpsCfg.given (c : Cmd) : PpsCfg :=
  { enable := cw c 1 == 1, activeLow := cw c 2 == 1, width := cw c 3, delay := sx 64 (cw2 c 4), always := cw c 6 == 0 }
theorem timePpsOutSet_does (h : Ready specTimePpsOutSet c s = true) : Does 0x408 c [] [.time] (fun t =>
    vget t.time.ppsOut (cSub c) PpsOut.reset = { vget s.time.ppsOut (cSub c) PpsOut.reset with
      next := some (.given c, s.nowTai / secondUnits + 1) }
    ∧ t.time = { s.time with ppsOut := t.time.ppsOut }
    ∧ ∀ n, n ≠ cSub c → vget t.time.ppsOut n PpsOut.reset = vget s.time.ppsOut n PpsOut.reset) s (exec (.timePpsOutSet c) s) := by
  have hsub : cSub c < 4 := ready_sub h rfl
  refine does_time_now (g := fun t => { t with ppsOut := vmod t.ppsOut (cSub c) (fun o => { o with
    next := some (.given c, (s.atParse 0x408 c).nowTai / secondUnits + 1) }) }) h rfl rfl rfl (fun t ht => ?_)
  rw [State.nowTai_atParse] at ht
  exact ⟨by simp only [ht, vget_vmod_same _ _ _ _ hsub], by rw [ht], fun n hn => by simp only [ht, vget_vmod_ne _ _ _ _ _ hn]⟩
theorem timeTodSet_does (h : Ready specTimeTodSet c s = true) : Does 0x409 c [] [.time] (fun t =>
    (cSub c = 2 → t.time = { s.time with todOut := { s.time.todOut with baud := cw c 1 } })
    ∧ (cSub c < 2 → (t.todIn (cSub c)).baud = cw c 1 ∧ (t.todIn (cSub c)).windowed = false ∧ (t.todIn (cSub c)).last = none
      ∧ t.time = { s.time with tod := t.time.tod } ∧ ∀ n, n ≠ cSub c → t.todIn n = s.todIn n)) s (exec (.timeTodSet c) s) := by
  by_cases hout : cSub c = 2
  · refine does_time_now (g := fun t => { t with todOut := { t.todOut with baud := cw c 1 } }) h rfl rfl (if_pos hout) (fun t ht => ?_)
    exact ⟨fun _ => ht, fun hin => by omega⟩
  · refine does_time_now (g := fun t => { t with tod := vmod t.tod (cSub c) (fun _ => { TodIn.reset with baud := cw c 1 }) }) h rfl rfl
      (if_neg hout) (fun t ht => ⟨fun hsub => absurd hsub hout, fun hsub => ?_⟩)
    have htod : t.todIn (cSub c) = { TodIn.reset with baud := cw c 1 } := by simp only [State.todIn, ht, vget_vmod_same _ _ _ _ hsub]
    rw [htod]
    exact ⟨rfl, rfl, rfl, by rw [ht], fun n hn => by simp only [State.todIn, ht, vget_vmod_ne _ _ _ _ _ hn]⟩
end

/-! ### TIME_SOURCE_SET (R304) -/

theorem candsOf_atParse (op : Nat) (c' c : Cmd) (s : State) : candsOf (s.atParse op c') c = candsOf s c := by
  have hcand : candOf (s.atParse op c') = candOf s := by
    funext w
    simp only [candOf, State.portOpt_atParse]
  simp only [candsOf, hcand]
/-- The candidates that TIME_SOURCE_SET lists. -/
def State.listOf (c : Cmd) (s : State) : List Candidate :=
  (candsOf s c).map (fun x => (s.cand? x).getD
    { src := x, st := .disqualified, since := s.ticks, qualifiedAt := 0, qualTime := s.time.params.qualTime, wtr := s.time.params.wtr })
theorem State.listOf_atParse (op : Nat) (c' c : Cmd) (s : State) : (s.atParse op c').listOf c = s.listOf c := by
  simp only [State.listOf, candsOf_atParse, State.cand?, State.atParse_time, State.atParse_ticks]
/-- What TIME_SOURCE_SET does: the list is written, and the source is chosen anew, or with no candidates the core runs free. -/
def State.writeList (c : Cmd) (s : State) : State :=
  let u := s.modTime (fun t => { t with candidates := s.listOf c })
  if (s.listOf c).isEmpty then (u.keepSteps.selectSource none).timeTo .freerun else u.reselect
theorem specTimeSourceSet_eff : specTimeSourceSet.eff = .now (fun c s => (s.writeList c, [])) := by
  refine congrArg Effect.now (funext fun c => funext fun s => ?_)
  exact (apply_ite (fun u : State => (u, ([] : List Word))) ..).symm
theorem writeList_writes (c : Cmd) (s : State) : Moves coreParts s (s.writeList c) ∧ (s.writeList c).time.candidates = s.listOf c
    ∧ (s.listOf c = [] → (s.writeList c).time.selected = none ∧ (s.writeList c).time.state = .freerun) := by
  unfold State.writeList
  dsimp only
  have hset := moves_modTime (fun t => { t with candidates := s.listOf c }) s
  generalize hu : s.modTime (fun t => { t with candidates := s.listOf c }) = u at *
  have hlist : u.time.candidates = s.listOf c := by rw [← hu]; rfl
  by_cases hnone : s.listOf c = []
  · rw [if_pos (by rw [hnone]; rfl)]
    have hstep : CoreStep TimeCore.inputs u ((u.keepSteps.selectSource none).timeTo .freerun) :=
      ((coreStep_keepSteps (fun _ _ => rfl)).trans (coreStep_selectSource ..)).trans (coreStep_timeTo ..)
    exact ⟨(hset.mono (by decide)).trans hstep.moves, hstep.candidates.trans hlist,
      fun _ => ⟨by rw [State.timeTo_selected, State.selectSource_selected], State.timeTo_state ..⟩⟩
  · rw [if_neg (by simpa using hnone)]
    have hstep := coreStep_reselect u
    exact ⟨(hset.mono (by decide)).trans hstep.moves, hstep.candidates.trans hlist, fun h => absurd h hnone⟩
theorem timeSourceSet_does {c : Cmd} {s : State} (h : Ready specTimeSourceSet c s = true) :
    Does 0x401 c [] coreParts (fun t => t.time.candidates = s.listOf c
      ∧ (candsOf s c = [] → t.time.selected = none ∧ t.time.state = .freerun)) s (exec (.timeSourceSet c) s) := by
  obtain ⟨hmove, hlist, hnone⟩ := writeList_writes c (s.atParse 0x401 c)
  rw [State.listOf_atParse] at hlist hnone
  refine does_steps h specTimeSourceSet_eff rfl rfl hmove.steps (by decide) (fun t ht => ?_)
  rw [(Moves.of_steps ht).time]
  exact ⟨hlist, fun hc => hnone (by rw [State.listOf, hc]; rfl)⟩

/-! ### TIME_SET at its boundary (R308) -/

/-- The core as TIME_SET steps it: a servo step decided for the same boundary is dropped with its measurement (Table 10.9). -/
def TimeCore.stepDropped (t : TimeCore) : TimeCore := { (if t.stepDue.isSome then t.unmeasured else t) with stepDue := none, meas := none }
/-- The core's time is valid, not traceable, and exact. -/
def TimeCore.written (now : Nat) (t : TimeCore) : TimeCore :=
  { t with timeValid := true, traceable := false, traceUntil := none, uncert := 0, uncertAt := now }
/-- What TIME_SET does at its boundary. -/
def writeTime (c : Cmd) (s : State) : State :=
  let u := (s.modTime TimeCore.stepDropped).stepBy (ofStamp96 (cStamp c) - s.nowTai)
  u.modTime (TimeCore.written u.ticks)
theorem boundaryEffect_timeSet : boundaryEffect 0x403 = writeTime :=
  boundaryEffect_of_row opTable_TimeSet rfl (by decide) (by decide)
theorem writeTime_writes (c : Cmd) (s : State) : Moves stepParts s (writeTime c s) ∧ (writeTime c s).nowTai = ofStamp96 (cStamp c)
    ∧ ((writeTime c s).time.timeValid = true ∧ (writeTime c s).time.traceable = false ∧ (writeTime c s).time.slew = 0
      ∧ (writeTime c s).time.stepDue = none ∧ (writeTime c s).time.meas = none)
    ∧ Raised .timeStep .device 0 (wi2 (ofStamp96 (cStamp c) - s.nowTai) ++ w2 s.tn) s.tn (writeTime c s)
    ∧ ∀ e, (writeTime c s).eng e = s.eng e ∨ (writeTime c s).eng e = { s.eng e with ltt := { (s.eng e).ltt with voidNow := true } } := by
  unfold writeTime
  dsimp only
  generalize hd : ofStamp96 (cStamp c) - s.nowTai = d
  have hdrop := moves_modTime TimeCore.stepDropped s
  have hstep := moves_stepBy d (s.modTime TimeCore.stepDropped)
  have hoff := State.stepBy_tickOffset d (s.modTime TimeCore.stepDropped)
  have hraised := raised_stepBy d (s.modTime TimeCore.stepDropped)
  have heng := State.stepBy_eng d (s.modTime TimeCore.stepDropped)
  have hwrite := moves_modTime (TimeCore.written ((s.modTime TimeCore.stepDropped).stepBy d).ticks)
    ((s.modTime TimeCore.stepDropped).stepBy d)
  refine ⟨((hdrop.mono (by decide)).trans hstep).trans (hwrite.mono (by decide)), ?_, ?_, hwrite.raised hraised, heng⟩
  · simp only [State.nowTai, State.taiAt, State.modTime_tickOffset, State.modTime_tn, hoff, hstep.tn] at hd ⊢
    omega
  · rw [State.modTime_time, State.stepBy_time]
    exact ⟨rfl, rfl, rfl, rfl, rfl⟩
theorem timeSet_takesEffect (c : Cmd) (s : State) : TakesEffect 0x403 c stepParts (fun t =>
    t.nowTai = ofStamp96 (cStamp c) ∧ t.time.timeValid = true ∧ t.time.traceable = false ∧ t.time.slew = 0
    ∧ t.time.stepDue = none ∧ t.time.meas = none
    ∧ Raised .timeStep .device 0 (wi2 (ofStamp96 (cStamp c) - s.nowTai) ++ w2 s.tn) s.tn t
    ∧ ∀ e, t.eng e = s.eng e ∨ t.eng e = { s.eng e with ltt := { (s.eng e).ltt with voidNow := true } }) s := by
  obtain ⟨hmove, hnow, ⟨hvalid, htrace, hslew, hdue, hmeas⟩, hraised, heng⟩ := writeTime_writes c s.disarmed
  refine takesEffect_steps boundaryEffect_timeSet hmove.steps (by decide) (fun t ht => ?_)
  have hfinal := Moves.of_steps ht
  rw [hfinal.time]
  refine ⟨?_, hvalid, htrace, hslew, hdue, hmeas, hfinal.raised hraised, fun e => ?_⟩
  · rw [← hnow]
    simp only [State.nowTai, State.taiAt, hfinal.tickOffset, hfinal.tn]
  · rw [hfinal.steps.eng]
    exact heng e

/-! ### TIME_UTC_SET, TIME_OSC_SET and TIME_EPOCH_FORCE (R295, R296, Table 1.3) -/

theorem raised_utcTo {off dir : Int} {leapAt : Nat} {s : State} (origin : Nat)
    (h : s.kennel.settings.utcOffset ≠ off ∨ s.kennel.settings.leapAt ≠ leapAt ∨ s.kennel.settings.leapDir ≠ dir) :
    Raised .utcChange .device 0 (wi s.kennel.settings.utcOffset ++ wi s.kennel.settings.leapDir ++ w2 s.kennel.settings.leapAt
      ++ wi off ++ wi dir ++ w2 leapAt ++ w1 origin) s.tn (s.utcTo off dir leapAt origin) := by
  unfold State.utcTo
  dsimp only
  rw [if_neg (by tauto)]
  exact raised_raise_tn rfl
theorem timeUtcSet_does {c : Cmd} {s : State} (h : Ready specTimeUtcSet c s = true) : Does 0x404 c [] (.settings :: eventParts) (fun t =>
    t.kennel.settings = { s.kennel.settings with utcOffset := cz c 1, leapAt := cw2 c 2, leapDir := cz c 4 }
    ∧ (s.kennel.settings.utcOffset ≠ cz c 1 ∨ s.kennel.settings.leapAt ≠ cw2 c 2 ∨ s.kennel.settings.leapDir ≠ cz c 4 →
      Raised .utcChange .device 0 (wi s.kennel.settings.utcOffset ++ wi s.kennel.settings.leapDir ++ w2 s.kennel.settings.leapAt
        ++ wi (cz c 1) ++ wi (cz c 4) ++ w2 (cw2 c 2) ++ w1 0) s.tn t)) s (exec (.timeUtcSet c) s) := by
  refine does_steps h rfl rfl rfl (moves_utcTo ..).steps (by decide) (fun t ht => ⟨?_, fun hchange => ?_⟩)
  · rw [(Moves.of_steps ht).settings, State.utcTo_settings, State.atParse_kennel]
  · refine (Moves.of_steps ht).raised ?_
    have hraised := raised_utcTo (s := s.atParse 0x404 c) 0 (by rw [State.atParse_kennel]; exact hchange)
    rwa [State.atParse_kennel, State.atParse_tn] at hraised
theorem timeOscSet_begins {c : Cmd} {s : State} (h : Ready specTimeOscSet c s = true) : Begins 0x405 c [.time] (fun t =>
    t.time = { s.time with oscNext := cw c 1, relockAt := some (s.ticks + 6250) }) s (exec (.timeOscSet c) s) := by
  refine begins_long specTimeOscSet _ _ _ c s h rfl rfl (fun j u hc ht hu hA => ⟨?_, ?_⟩)
  · show ({ u.time with oscNext := cw c 1, relockAt := some (u.ticks + 6250) } : TimeCore) = _
    rw [hu .time (by decide), hu .ticks (by decide)]
  · have hstart := steps_startJob j u
    have hset := (moves_modTime (fun t => { t with oscNext := cw c 1, relockAt := some (u.ticks + 6250) }) (u.startJob j)).steps
    exact begun_of_steps hc ht hu hA (l := [.jobs, .time]) ((hstart.mono (by decide)).trans (hset.mono (by decide))) (mem_startJob j u)
      (by decide)
theorem State.anyTraffic_atParse (op : Nat) (c : Cmd) (s : State) : (s.atParse op c).anyTraffic = s.anyTraffic := by
  have hcarries : (s.atParse op c).carries = s.carries := by
    funext e
    simp only [State.carries, State.eng_atParse, State.pack_atParse, State.atParse_cal]
  simp only [State.anyTraffic, hcarries]
theorem State.realignAt_atParse (k : RealignKind) (set : Bool) (op : Nat) (c : Cmd) (s : State) :
    (s.atParse op c).realignAt k set = s.realignAt k set := by
  simp only [State.realignAt, State.nextSecond, State.nowTai_atParse, State.atParse_ticks]
/-- EPOCH_STATE becomes SET with TN as it stands, and TICK_EPOCH_SET tells it (Table 1.3). -/
theorem epochInPlace_sets (s : State) : s.epochInPlace.kennel.settings.epochSet = true
    ∧ s.epochInPlace.kennel.settings.epochTai = s.tickOffset ∧ s.epochInPlace.tnProvisional = false
    ∧ Raised .tickEpochSet .device 0 [] s.tn s.epochInPlace := by
  unfold State.epochInPlace
  rw [State.raise_kennel, State.raise_tnProvisional]
  exact ⟨rfl, rfl, rfl, raised_raise_tn rfl⟩
theorem timeEpochForce_does {c : Cmd} {s : State} (h : Ready specTimeEpochForce c s = true) :
    Does 0x406 c [] (.realign :: .settings :: .tnProvisional :: eventParts) (fun t =>
      (s.kennel.settings.epochSet = false → s.anyTraffic = true → t.kennel.settings.epochSet = true
        ∧ t.kennel.settings.epochTai = s.tickOffset ∧ t.tnProvisional = false ∧ Raised .tickEpochSet .device 0 [] s.tn t
        ∧ t.realign = s.realign)
      ∧ (s.kennel.settings.epochSet = true ∨ s.anyTraffic = false → t.kennel.settings = s.kennel.settings
        ∧ t.realign = some (s.realignAt .force s.kennel.settings.epochSet))) s (exec (.timeEpochForce c) s) := by
  by_cases hplace : s.kennel.settings.epochSet = false ∧ s.anyTraffic = true
  · obtain ⟨hset, htai, hprov, hraised⟩ := epochInPlace_sets (s.atParse 0x406 c)
    have hmove := moves_epochInPlace (s.atParse 0x406 c)
    rw [State.atParse_tickOffset] at htai
    rw [State.atParse_tn] at hraised
    refine does_steps (v := (s.atParse 0x406 c).epochInPlace) h rfl rfl (if_pos ?_) (hmove.mono (by decide)).steps (by decide)
      (fun t ht => ?_)
    · simpa [State.anyTraffic_atParse] using hplace
    · have hfinal := Moves.of_steps ht
      rw [hfinal.settings, hfinal.steps.only .tnProvisional (by decide), hfinal.steps.only .realign (by decide),
        hmove.steps.only .realign (by decide), State.atParse_realign]
      exact ⟨fun _ _ => ⟨hset, htai, hprov, hfinal.raised hraised, rfl⟩, fun hno => by simp [hplace] at hno⟩
  · refine does_steps (v := { s.atParse 0x406 c with realign := _ }) h rfl rfl (if_neg ?_) ((moves_realign ..).mono (by decide)).steps
      (by decide) (fun t ht => ?_)
    · simpa [State.anyTraffic_atParse] using hplace
    · have hfinal := Moves.of_steps ht
      rw [hfinal.settings, hfinal.steps.only .realign (by decide)]
      refine ⟨fun hset hon => absurd ⟨hset, hon⟩ hplace, fun _ => ⟨congrArg Kennel.settings (State.atParse_kennel ..), ?_⟩⟩
      simp only [State.realignAt_atParse, State.atParse_kennel]

/-! ### TIME_STATUS -/

theorem timeStatus_reports {c : Cmd} {s : State} (h : Ready specTimeStatus c s = true) : Reports 0x400 c
    (w1 (s.time.snap.seq * 65536 + s.timeFlags + s.time.snap.flags % 2) ++ w1 (srcWord s.time.selected)
      ++ w1 ((List.range 4).foldl (fun n i => n + (((s.time.candidates[i]?).map (fun x => x.st.code)).getD 3) * 4 ^ i) 0)
      ++ w2 (if s.time.timeValid then ((s.time.uncertNow s.ticks + 65535) / 65536).toNat else 2 ^ 64 - 1)
      ++ wi s.time.freqCtrl ++ wi s.kennel.settings.utcOffset ++ w2 s.kennel.settings.leapAt) s (exec (.timeStatus c) s) := by
  refine reports_now specTimeStatus _ c s _ h rfl rfl rfl ?_
  have hcode : ∀ o : Option Candidate, (o.map (fun x => x.st.code)).getD 3 = (match o with | some x => x.st.code | none => 3) :=
    fun o => by cases o <;> rfl
  simp only [State.timeFlags, State.atParse_time, State.atParse_ticks, State.atParse_kennel, State.atParse_tnProvisional, hcode] <;> rfl

/-- Settles O34: each command writes its part of the time core at once, or arms the step that its boundary makes. -/
theorem timeCommands : Obligations.TimeCommands := fun c s =>
  ⟨timeStatus_reports, timeSourceSet_does, timeParamSet_does, fun h => arms_boundary specTimeSet 0x403 _ c s h rfl rfl,
    timeSet_takesEffect c s, timeUtcSet_does, timeOscSet_begins, timeEpochForce_does, timePpsInSet_does, timePpsOutSet_does, timeTodSet_does⟩
end Sys2Proof.Machine
end

section
/-! The servo of the time core, its states and registers (O35). -/
-- One after another: a task for each proof would ask for more threads than the memory limit allows.
set_option Elab.async false
namespace Sys2Proof.Machine

/-! ### A measurement (R302, R307, R308) -/

/-- What the judgement of a demand leaves of the core: all but FREQ_LIMIT and when it was cleared. -/
theorem State.freqJudge_time (i : Nat) (s : State) :
    ∃ limit cleared, (s.freqJudge i).time = { s.time with freqLimit := limit, limitClearedAt := cleared } := by
  unfold State.freqJudge
  dsimp only
  (repeat' split)
  · exact ⟨_, _, State.raise_time ..⟩
  all_goals exact ⟨_, _, rfl⟩
theorem moves_freqJudge (i : Nat) (s : State) : Moves (.time :: eventParts) s (s.freqJudge i) := by
  unfold State.freqJudge
  dsimp only
  (repeat' split)
  · exact ((moves_modTime ..).mono (by decide)).trans ((moves_raise ..).mono (by decide))
  · exact (moves_modTime ..).mono (by decide)
  · exact (moves_modTime ..).mono (by decide)
  · exact .refl ..
/-- What a measurement of phase error `e` orders: a step where it is beyond STEP_THRESH and allowed, else a slew. -/
def TimeCore.Orders (e : Int) (t u : TimeCore) : Prop :=
  u.meas = none ∧ u.timeValid = true ∧ u.uncert = e.natAbs
  ∧ (nsUnits t.params.stepThresh < e.natAbs → t.mayStep = true → u.stepDue = some e ∧ u.slew = 0)
  ∧ (e.natAbs ≤ nsUnits t.params.stepThresh ∨ t.mayStep = false → u.stepDue = none ∧ u.slew = -e)
/-- A step of the servo that takes a measurement and keeps the state of the core. -/
structure Ordered (e : Int) (s u : State) : Prop where
  moves : Moves (.time :: eventParts) s u
  orders : s.time.Orders e u.time
  state : u.time.state = s.time.state
section
variable {e : Int} {s u : State}
theorem Ordered.goodRun (h : Ordered e s u) (run : Nat) : Ordered e s (u.modTime (fun t => { t with goodRun := run })) :=
  ⟨h.moves.trans ((moves_modTime ..).mono (by decide)), h.orders, h.state⟩
theorem Ordered.badRun (h : Ordered e s u) (run : Nat) : Ordered e s (u.modTime (fun t => { t with badRun := run })) :=
  ⟨h.moves.trans ((moves_modTime ..).mono (by decide)), h.orders, h.state⟩
theorem Ordered.freqJudge (h : Ordered e s u) (i : Nat) : Ordered e s (u.freqJudge i) := by
  obtain ⟨_, _, htime⟩ := State.freqJudge_time i u
  exact ⟨h.moves.trans (moves_freqJudge ..), by rw [htime]; exact h.orders, by rw [htime]; exact h.state⟩
theorem Ordered.keepSteps (h : Ordered e s u) : Ordered e s u.keepSteps := by
  unfold State.keepSteps
  split
  exacts [⟨h.moves.trans ((moves_modTime ..).mono (by decide)), h.orders, h.state⟩, h]
/-- What the servo has ordered stands when the core goes from one of its running states to the other. -/
theorem Ordered.timeTo (h : Ordered e s u) {st : TimeState} (hrun : s.time.state = .acquiring ∨ s.time.state = .locked)
    (hst : st = .acquiring ∨ st = .locked) (hne : s.time.state ≠ st) : Moves coreParts s (u.timeTo st)
      ∧ s.time.Orders e (u.timeTo st).time ∧ (u.timeTo st).time.freqLimit = u.time.freqLimit ∧ (u.timeTo st).time.state = st
      ∧ Raised .timeState .device 0 (w1 s.time.state.code ++ w1 st.code ++ w2 s.tn) s.tn (u.timeTo st) := by
  have hne' : u.time.state ≠ st := by rwa [h.state]
  have hraised := raised_timeTo st u hne'
  rw [h.state, h.moves.tn] at hraised
  obtain ⟨_, _, _, htime⟩ := State.timeTo_time st u hne'
  have huncert : u.time.uncertNow u.ticks = u.time.uncert := by
    unfold TimeCore.uncertNow
    rw [h.state]
    rcases hrun with hs | hs <;> simp [hs]
  refine ⟨(h.moves.mono (by decide)).trans (coreStep_timeTo st u).moves, ?_, by rw [htime]; rfl, State.timeTo_state .., hraised⟩
  obtain ⟨hmeas, hvalid, hexact, hstep, hslew⟩ := h.orders
  rw [htime]
  simp only [TimeCore.Orders, TimeCore.entering, huncert]
  rcases hst with rfl | rfl <;> exact ⟨hmeas, hvalid, hexact, hstep, hslew⟩
end
/-- Consecutive good measurements in ACQUIRING after one of phase error `e`, and consecutive bad ones in LOCKED. -/
def TimeCore.goodRunAfter (e : Int) (limit : Bool) (t : TimeCore) : Nat :=
  if e.natAbs ≤ nsUnits t.params.lockPhase ∧ !limit then t.goodRun + 1 else 0
def TimeCore.badRunAfter (e : Int) (t : TimeCore) : Nat := if 4 * nsUnits t.params.lockPhase < e.natAbs then t.badRun + 1 else 0
/-- Sixteen good measurements running lock the core, and four bad ones unlock it. -/
def State.judgedGood (run : Nat) (u : State) : State :=
  if run = 16 then (u.modTime (fun t => { t with goodRun := run })).timeTo .locked else u.modTime (fun t => { t with goodRun := run })
def State.judgedBad (run : Nat) (u : State) : State :=
  if run = 4 then (u.modTime (fun t => { t with badRun := run })).keepSteps.timeTo .acquiring
  else u.modTime (fun t => { t with badRun := run })
theorem judgedGood_judges {e : Int} {s u : State} (h : Ordered e s u) (hst : s.time.state = .acquiring) (run : Nat) :
    Moves coreParts s (u.judgedGood run) ∧ s.time.Orders e (u.judgedGood run).time
      ∧ (u.judgedGood run).time.freqLimit = u.time.freqLimit
      ∧ (run = 16 → (u.judgedGood run).time.state = .locked
        ∧ Raised .timeState .device 0 (w1 1 ++ w1 2 ++ w2 s.tn) s.tn (u.judgedGood run))
      ∧ (run ≠ 16 → (u.judgedGood run).time.state = .acquiring ∧ (u.judgedGood run).time.goodRun = run) := by
  have hset := h.goodRun run
  unfold State.judgedGood
  split
  next hrun =>
    obtain ⟨hmove, horders, hlimit, hstate, hraised⟩ := hset.timeTo (.inl hst) (.inr rfl) (by simp [hst])
    rw [hst] at hraised
    exact ⟨hmove, horders, hlimit, fun _ => ⟨hstate, hraised⟩, fun hno => absurd hrun hno⟩
  next hrun => exact ⟨hset.moves.mono (by decide), hset.orders, rfl, fun h => absurd h hrun, fun _ => ⟨hset.state.trans hst, rfl⟩⟩
theorem judgedBad_judges {e : Int} {s u : State} (h : Ordered e s u) (hst : s.time.state = .locked) (run : Nat) :
    Moves coreParts s (u.judgedBad run) ∧ s.time.Orders e (u.judgedBad run).time
      ∧ (run = 4 → (u.judgedBad run).time.state = .acquiring
        ∧ Raised .timeState .device 0 (w1 2 ++ w1 1 ++ w2 s.tn) s.tn (u.judgedBad run))
      ∧ (run ≠ 4 → (u.judgedBad run).time.state = .locked ∧ (u.judgedBad run).time.badRun = run) := by
  have hset := h.badRun run
  unfold State.judgedBad
  split
  next hrun =>
    obtain ⟨hmove, horders, -, hstate, hraised⟩ := hset.keepSteps.timeTo (.inr hst) (.inl rfl) (by simp [hst])
    rw [hst] at hraised
    exact ⟨hmove, horders, fun _ => ⟨hstate, hraised⟩, fun hno => absurd hrun hno⟩
  next hrun => exact ⟨hset.moves.mono (by decide), hset.orders, fun h => absurd h hrun, fun _ => ⟨hset.state.trans hst, rfl⟩⟩
section
variable {x : TimeSrc} {e : Int} {s : State}
/-- A measurement of the selected source is taken, and the state is judged by it. -/
theorem exec_timeMeasurement (hmeas : s.time.meas = some (x, e)) (hsel : s.time.selected = some x)
    (hrun : s.time.state = .acquiring ∨ s.time.state = .locked) : ∃ u, Ordered e s u ∧ exec .timeMeasurement s
      = .next (if s.time.state = .acquiring then u.judgedGood (s.time.goodRunAfter e u.time.freqLimit)
        else u.judgedBad (s.time.badRunAfter e)) := by
  have hgo : ¬(s.time.selected ≠ some x ∨ (!(s.time.state == .acquiring || s.time.state == .locked)) = true) := by
    rcases hrun with h | h <;> simp [hsel, h]
  suffices h : ∃ u, Ordered e s u ∧ execTimeMeasurement s = .next (if s.time.state = .acquiring then
      u.judgedGood (s.time.goodRunAfter e u.time.freqLimit) else u.judgedBad (s.time.badRunAfter e)) from h
  simp only [execTimeMeasurement, hmeas]
  rw [if_neg hgo]
  generalize hw : (s.modTime _).modTime _ = w
  have hordered : Ordered e s w := by
    subst hw
    refine ⟨((moves_modTime ..).trans (moves_modTime ..)).mono (by decide), ⟨rfl, rfl, rfl, fun hbig hmay => ?_, fun hsmall => ?_⟩, rfl⟩
    · have hstep : (decide (nsUnits s.time.params.stepThresh < e.natAbs) && s.time.mayStep) = true := by rw [decide_eq_true hbig, hmay]; rfl
      exact ⟨if_pos hstep, if_pos hstep⟩
    · have hslew : ¬(decide (nsUnits s.time.params.stepThresh < e.natAbs) && s.time.mayStep) = true := by
        rw [Bool.and_eq_true, decide_eq_true_eq]
        rintro ⟨hbig, hmay⟩
        rcases hsmall with h | h
        · omega
        · simp [hmay] at h
      exact ⟨if_neg hslew, if_neg hslew⟩
  generalize hu : (if s.time.steering = .same ∨ s.time.steering = .free then w.freqJudge _ else w) = u
  refine ⟨u, ?_, ?_⟩
  · rw [← hu]
    split
    exacts [hordered.freqJudge _, hordered]
  · split <;> rfl
theorem timeMeasurement_serves (hmeas : s.time.meas = some (x, e)) (hsel : s.time.selected = some x)
    (hrun : s.time.state = .acquiring ∨ s.time.state = .locked) : Happens coreParts (fun t =>
      t.time.meas = none ∧ t.time.timeValid = true ∧ t.time.uncert = e.natAbs
      ∧ (nsUnits s.time.params.stepThresh < e.natAbs → s.time.mayStep = true → t.time.stepDue = some e ∧ t.time.slew = 0)
      ∧ (e.natAbs ≤ nsUnits s.time.params.stepThresh ∨ s.time.mayStep = false → t.time.stepDue = none ∧ t.time.slew = -e)
      ∧ (s.time.state = .acquiring → nsUnits s.time.params.lockPhase < e.natAbs → t.time.state = .acquiring ∧ t.time.goodRun = 0)
      ∧ (s.time.state = .acquiring → e.natAbs ≤ nsUnits s.time.params.lockPhase → t.time.freqLimit = false →
        (s.time.goodRun = 15 → t.time.state = .locked ∧ Raised .timeState .device 0 (w1 1 ++ w1 2 ++ w2 s.tn) s.tn t)
        ∧ (s.time.goodRun ≠ 15 → t.time.state = .acquiring ∧ t.time.goodRun = s.time.goodRun + 1))
      ∧ (s.time.state = .locked → 4 * nsUnits s.time.params.lockPhase < e.natAbs →
        (s.time.badRun = 3 → t.time.state = .acquiring ∧ Raised .timeState .device 0 (w1 2 ++ w1 1 ++ w2 s.tn) s.tn t)
        ∧ (s.time.badRun ≠ 3 → t.time.state = .locked ∧ t.time.badRun = s.time.badRun + 1))
      ∧ (s.time.state = .locked → e.natAbs ≤ 4 * nsUnits s.time.params.lockPhase → t.time.state = .locked ∧ t.time.badRun = 0)) s
      (exec .timeMeasurement s) := by
  obtain ⟨u, hordered, hexec⟩ := exec_timeMeasurement hmeas hsel hrun
  refine ⟨_, hexec, ?_⟩
  rcases hrun with hst | hst
  · rw [if_pos hst]
    obtain ⟨hmove, ⟨hnone, hvalid, huncert, hstep, hslew⟩, hlimit, hlock, hstay⟩ :=
      judgedGood_judges hordered hst (s.time.goodRunAfter e u.time.freqLimit)
    refine ⟨⟨hnone, hvalid, huncert, hstep, hslew, fun _ hbad => ?_, fun _ hgood hfree => ?_, by simp [hst], by simp [hst]⟩, hmove.steps.only⟩
    · have hzero : s.time.goodRunAfter e u.time.freqLimit = 0 := if_neg (by omega)
      rw [hzero] at hstay ⊢
      exact hstay (by decide)
    · have hnext : s.time.goodRunAfter e u.time.freqLimit = s.time.goodRun + 1 := if_pos ⟨hgood, by rw [← hlimit, hfree]; rfl⟩
      rw [hnext] at hlock hstay ⊢
      exact ⟨fun h => hlock (by omega), fun h => hstay (by omega)⟩
  · rw [if_neg (by simp [hst])]
    obtain ⟨hmove, ⟨hnone, hvalid, huncert, hstep, hslew⟩, hlost, hstay⟩ := judgedBad_judges hordered hst (s.time.badRunAfter e)
    refine ⟨⟨hnone, hvalid, huncert, hstep, hslew, by simp [hst], by simp [hst], fun _ hbad => ?_, fun _ hgood => ?_⟩, hmove.steps.only⟩
    · have hnext : s.time.badRunAfter e = s.time.badRun + 1 := if_pos hbad
      rw [hnext] at hlost hstay ⊢
      exact ⟨fun h => hlost (by omega), fun h => hstay (by omega)⟩
    · have hzero : s.time.badRunAfter e = 0 := if_neg (by omega)
      rw [hzero] at hstay ⊢
      exact hstay (by decide)
end

/-! ### Steps, sources and holdover (R302, R305, R306, R309) -/

section
variable {s : State}
theorem timeStep_steps {e : Int} (hdue : s.time.stepDue = some e) (hat : s.time.measAt < s.ticks) : Happens stepParts (fun t =>
    t.tickOffset = s.tickOffset - e ∧ t.time.stepDue = none ∧ t.time.slew = 0 ∧ t.time.todOut.stepped = true
    ∧ Raised .timeStep .device 0 (wi2 (-e) ++ w2 s.tn) s.tn t) s (exec .timeStep s) := by
  have hraised := raised_stepBy (-e) (s.modTime (fun t => { t with stepDue := none }))
  refine ⟨s.stepNow, rfl, ?_, (moves_stepNow s).steps.only⟩
  beta_reduce
  rw [State.stepNow_due hdue hat, State.stepBy_tickOffset, State.stepBy_time]
  exact ⟨by rw [State.modTime_tickOffset]; omega, rfl, rfl, rfl, hraised⟩
theorem sourceQualified_qualifies {i : Fin 4} {x : Candidate} (hi : s.time.candidates[i.val]? = some x) (hc : s.cand? x.src = some x)
    (hst : x.st = .qualifying) (hdue : x.since + x.qualTime * 625000 ≤ s.ticks) : Happens coreParts (fun t =>
      t.cand? x.src = some { x with st := .qualified, since := s.ticks, qualifiedAt := s.ticks }
      ∧ Raised .sourceQual .device 0 (w1 x.src.word ++ w1 2 ++ w1 8) s.tn t
      ∧ (s.time.selected = none → t.time.selected ≠ none)) s (exec (.sourceQualified i) s) := by
  have hexec : exec (.sourceQualified i) s = .next (s.qualify x.src .qualified .timePassed) := by
    refine (?_ : execSourceQualified i s = _)
    simp only [execSourceQualified, hi]
    exact if_pos ⟨hst, hdue⟩
  obtain ⟨u, hstep, hcand, hsel, hraised, heq⟩ := State.qualify_eq .timePassed hc (by simp [hst] : x.st ≠ .qualified)
  have hchoice := coreStep_reselect u
  rw [heq] at hexec
  refine ⟨_, hexec, ⟨(State.candOpt_reselect ..).trans hcand, hchoice.moves.raised hraised, fun hnone => ?_⟩,
    (hstep.moves.trans hchoice.moves).steps.only⟩
  exact State.reselect_selects (hsel.trans hnone) (List.mem_of_find?_eq_some hcand) rfl
theorem wtrExpiry_gives_way {x : TimeSrc} {y : Candidate} (hsel : s.time.selected = some x)
    (hkeep : (s.time.candidates.filter (fun z => z.st == .qualified)).any (fun z => decide (z.src = x)) = true)
    (hdue : (s.time.candidates.takeWhile (fun z => decide (some z.src ≠ s.time.selected))).find? (fun z => z.st == .qualified
      && s.time.params.revertive == 1 && decide (z.qualifiedAt + z.wtr * 625000 ≤ s.ticks)) = some y) :
    Happens coreParts (fun t => t.time.selected = some y.src ∧ t.time.state = .acquiring ∧ t.time.candidates = s.time.candidates
      ∧ Raised .timeSourceChange .device 0 (w1 x.word ++ w1 y.src.word ++ w2 s.tn) s.tn t) s (exec .wtrExpiry s) := by
  obtain ⟨hne, hway⟩ := State.reselect_gives_way hsel hkeep hdue
  obtain ⟨u, hstep, husel, hraised, heq⟩ := State.selectSource_eq (s := s) (x := some y.src) (by rw [hsel]; simpa using hne.symm)
  rw [hsel] at hraised
  have hexec : exec .wtrExpiry s = .next (u.timeTo .acquiring) := congrArg Host.Outcome.next (hway.trans heq)
  have hturn := coreStep_timeTo .acquiring u
  exact ⟨_, hexec, ⟨(State.timeTo_selected ..).trans husel, State.timeTo_state .., (hstep.trans hturn).candidates,
    hturn.moves.raised hraised⟩, (hstep.trans hturn).moves.steps.only⟩
theorem holdoverTraceExpiry_ends {u : Nat} (huntil : s.time.traceUntil = some u) (hdue : u ≤ s.ticks) :
    Happens [.time] (fun t => t.time.traceUntil = none ∧ (s.time.state ≠ .locked → t.time.traceable = false)
      ∧ t.time.state = s.time.state) s (exec .holdoverTraceExpiry s) := by
  have hexec : exec .holdoverTraceExpiry s = .next (s.modTime (fun t => { t with traceUntil := none })).refreshTrace := by
    refine (?_ : execHoldoverTraceExpiry s = _)
    exact if_pos (by simpa [huntil] using hdue)
  refine ⟨_, hexec, ⟨rfl, fun hst => ?_, rfl⟩, ((moves_modTime ..).trans (moves_refreshTrace _)).steps.only⟩
  simp [State.refreshTrace, hst]

/-! ### Leap second, oscillator and Kennel counter (R294, R296, R298, R315) -/

theorem leapApplied_applies (hleap : s.kennel.settings.leapAt ≠ 0) (hdue : (s.kennel.settings.leapAt : Int) * secondUnits ≤ s.nowTai) :
    Happens (.settings :: eventParts) (fun t => t.kennel.settings = { s.kennel.settings with
        utcOffset := s.kennel.settings.utcOffset + s.kennel.settings.leapDir, leapAt := 0 }
      ∧ Raised .leapApplied .device 0 (wi (s.kennel.settings.utcOffset + s.kennel.settings.leapDir)) s.tn t) s (exec .leapApplied s) := by
  refine ⟨s.leapDue, rfl, ?_, (moves_leapDue s).steps.only⟩
  have heq : s.leapDue = _ := if_pos ⟨hleap, hdue⟩
  beta_reduce
  rw [heq, State.utcTo_settings, State.raise_kennel]
  exact ⟨rfl, (moves_utcTo ..).raised (raised_raise ..)⟩
theorem moves_modPower (f : Power → Power) (s : State) : Moves [.power] s (s.modPower f) :=
  moves_of_same (fun p hp => by cases p <;> simp [Part.same] at hp ⊢) rfl rfl
theorem oscLoss_loses (hpresent : s.time.oscLost = false) : Happens (.time :: .power :: eventParts) (fun t => t.time.oscLost = true
    ∧ t.time.traceable = false ∧ t.time.freqTraceable = false ∧ t.time.applied = s.time.applied
    ∧ t.power = { s.power with ocxo := false } ∧ Raised .oscLoss .device 0 (w2 s.tn) s.tn t) s (exec .oscLoss s) := by
  have hexec : exec .oscLoss s = _ := (if_neg (by simp [hpresent]) : execOscLoss s = _)
  refine ⟨_, hexec, ?_, ?_⟩
  · beta_reduce
    rw [State.raise_time, State.raise_power]
    exact ⟨rfl, rfl, rfl, rfl, rfl, raised_raise_tn rfl⟩
  · exact ((((moves_modPower ..).mono (by decide)).trans ((moves_modTime ..).mono (by decide))).trans
      (((moves_refreshTrace _).mono (by decide)).trans ((moves_raise ..).mono (by decide)))).steps.only
theorem oscOk_returns (hlost : s.time.oscLost = true) : Happens (.time :: .power :: eventParts) (fun t => t.time.oscLost = false
    ∧ t.power = { s.power with ocxo := true } ∧ Raised .oscOk .device 0 (w2 s.tn) s.tn t) s (exec .oscOk s) := by
  have hexec : exec .oscOk s = _ := (if_neg (by simp [hlost]) : execOscOk s = _)
  refine ⟨_, hexec, ?_, ?_⟩
  · beta_reduce
    rw [State.raise_time, State.raise_power]
    exact ⟨rfl, rfl, raised_raise_tn rfl⟩
  · exact ((((moves_modPower ..).mono (by decide)).trans ((moves_modTime ..).mono (by decide))).trans
      (((moves_refreshTrace _).mono (by decide)).trans ((moves_raise ..).mono (by decide)))).steps.only
theorem oscRelockDone_ends {k : Nat} (hk : s.time.relockAt = some k) (hdue : k ≤ s.ticks) :
    Happens [.time, .jobs, .responses, .queueRegs, .msix, .alertN] (fun t =>
      t.time = { s.time with relockAt := none, oscFreq := s.time.oscNext }
      ∧ ∀ j ∈ s.proto.jobs, j.ticket.opcode = 0x405 → Ended j .ok 0 s.tn [] t) s (exec .oscRelockDone s) := by
  have hexec : exec .oscRelockDone s
      = .next ((s.modTime (fun t => { t with relockAt := none, oscFreq := t.oscNext })).finishJobs isOscJob .ok 0 []) := by
    refine (?_ : execOscRelockDone s = _)
    exact if_pos (by simpa [hk] using hdue)
  have hset := moves_modTime (fun t => { t with relockAt := none, oscFreq := t.oscNext }) s
  have hend := steps_finishJobs isOscJob .ok 0 [] (s.modTime (fun t => { t with relockAt := none, oscFreq := t.oscNext }))
  refine ⟨_, hexec, ⟨hend.only .time (by decide), fun j hj hop => ?_⟩, ((hset.steps.mono (by decide)).trans (hend.mono (by decide))).only⟩
  exact ended_finishJobs (s := s.modTime (fun t => { t with relockAt := none, oscFreq := t.oscNext })) .ok 0 [] hj (by simp [isOscJob, hop])
theorem kennelRtcUpdate_writes (trim : Int) (hst : s.time.state = .locked)
    (hsecond : s.nowTai - s.nowTai / secondUnits * secondUnits < tickUnits) : Happens [.kennelRest, .settings] (fun t =>
      t.kennel.rtc = s.nowTai / secondUnits * secondUnits ∧ t.kennel.rtcKept = true
      ∧ t.kennel.settings = { s.kennel.settings with rtcTrim := trim }) s (exec (.kennelRtcUpdate trim) s) := by
  have hexec : exec (.kennelRtcUpdate trim) s = _ := (if_pos ⟨hst, hsecond⟩ : execKennelRtcUpdate trim s = _)
  refine ⟨_, hexec, ⟨rfl, rfl, rfl⟩, fun p hp => ?_⟩
  cases p <;> simp [Part.same] at hp ⊢

/-! ### Snapshots (R316) -/

theorem timeSnapReq_asks (hopen : s.mapOpen = true) : Happens [.time] (fun t => t.time.snap.req = true
    ∧ t.time = { s.time with snap := t.time.snap }
    ∧ (s.time.snap.req = false → t.time.snap = { s.time.snap with req := true, reqAt := s.ticks })) s (exec .timeSnapReq s) := by
  have hexec : exec .timeSnapReq s = .next s.snapAsk := (if_pos hopen : execTimeSnapReq s = _)
  refine ⟨_, hexec, ?_, (moves_ite (.refl ..) (moves_modTime ..)).steps.only⟩
  unfold State.snapAsk
  split
  next hreq => exact ⟨hreq, rfl, fun hno => by simp [hreq] at hno⟩
  next => exact ⟨rfl, rfl, fun _ => rfl⟩
/-- The snapshot block with the values in effect in a state. -/
def State.snapTaken (s : State) : SnapRegs :=
  { req := false, reqAt := s.time.snap.reqAt, seq := (s.time.snap.seq + 1) % 65536, flags := s.timeFlags + 1, tn := s.tn
    offset := stamp96 s.tickOffset, freq := roundDiv s.time.applied 10240 }
theorem exec_timeSnapshotCapture (hreq : s.time.snap.req = true) (hat : s.time.snap.reqAt < s.ticks) :
    exec .timeSnapshotCapture s = .next (s.stepNow.modTime (fun t => { t with snap := s.stepNow.snapTaken })) := by
  refine (?_ : execTimeSnapshotCapture s = _)
  exact if_pos (by rw [State.stepNow_snap, (moves_stepNow s).ticks]; exact ⟨hreq, hat⟩)
theorem timeSnapshotCapture_steps (hreq : s.time.snap.req = true) (hat : s.time.snap.reqAt < s.ticks) : Happens stepParts (fun t =>
    t.tickOffset = s.stepNow.tickOffset ∧ t.time = { s.stepNow.time with snap := { s.stepNow.snapTaken with
      reqAt := s.time.snap.reqAt, seq := (s.time.snap.seq + 1) % 65536, tn := s.tn } }) s (exec .timeSnapshotCapture s) := by
  refine ⟨_, exec_timeSnapshotCapture hreq hat, ⟨rfl, ?_⟩, ((moves_stepNow s).trans ((moves_modTime ..).mono (by decide))).steps.only⟩
  simp only [State.modTime_time, State.snapTaken, State.stepNow_snap, (moves_stepNow s).tn]
theorem timeSnapshotCapture_takes (hdue : s.time.stepDue = none) (hreq : s.time.snap.req = true) (hat : s.time.snap.reqAt < s.ticks) :
    Happens [.time] (fun t => t.time = { s.time with snap := s.snapTaken }) s (exec .timeSnapshotCapture s) := by
  have hexec := exec_timeSnapshotCapture hreq hat
  rw [State.stepNow_none hdue] at hexec
  exact ⟨_, hexec, rfl, (moves_modTime ..).steps.only⟩
end

/-- Settles O35: each row is the step it makes where its condition holds, and that step brings what the statement asks. -/
theorem timeServo : Obligations.TimeServo := fun _ =>
  ⟨fun _ _ => timeMeasurement_serves, fun _ => timeStep_steps, fun _ _ => sourceQualified_qualifies, fun _ _ => wtrExpiry_gives_way,
    fun _ => holdoverTraceExpiry_ends, leapApplied_applies, oscLoss_loses, oscOk_returns, fun _ => oscRelockDone_ends,
    kennelRtcUpdate_writes, timeSnapReq_asks, fun _ hu => hu ▸ timeSnapshotCapture_steps, timeSnapshotCapture_takes⟩
end Sys2Proof.Machine
end

section
/-! The PPS and ToD lines of the time core (O36). -/
-- One after another: a task for each proof would ask for more threads than the memory limit allows.
set_option Elab.async false
namespace Sys2Proof.Machine

/-! ### The inputs -/

section
variable {n : Nat} (hn : n < 2) (s : State)
include hn
theorem State.ppsIn_modPps (f : PpsIn → PpsIn) : (s.modPps n f).ppsIn n = f (s.ppsIn n) := vget_vmod_same _ _ _ _ hn
theorem State.todIn_modTod (f : TodIn → TodIn) : (s.modTod n f).todIn n = f (s.todIn n) := vget_vmod_same _ _ _ _ hn
end
/-- A break of a candidate's conditions, and its disqualification where a run of breaks is long enough (R305). -/
theorem break_disqualifies {b : Prop} {_ : Decidable b} (x : TimeSrc) (why : QualReason) (s t : State)
    (ht : CoreStep TimeCore.lines (s.breakCand x) t) :
    CoreStep TimeCore.lines s (if b then (s.breakCand x).disqualify x why else t)
    ∧ (b → ∀ c, s.cand? x = some c →
      ∃ y, (if b then (s.breakCand x).disqualify x why else t).cand? x = some y ∧ y.st = .disqualified) := by
  refine ⟨(coreStep_breakCand x s).trans (coreStep_ite (coreStep_disqualify ..) ht), fun hb c hc => ?_⟩
  rw [if_pos hb]
  exact disqualify_disqualifies why ((State.candOpt_breakCand x s).trans (congrArg _ hc))

/-! ### An edge at a PPS input (R310, Table 10.2) -/

/-- A PPS input that has received an edge, outside its gate or not, after `silent` seconds without a sentence. -/
def PpsIn.edge (out : Bool) (stamp : Int) (silent : Nat) (p : PpsIn) : PpsIn :=
  { p with last := some stamp, outRun := if out then p.outRun + 1 else 0, missRun := 0, silentRun := silent }
/-- An edge at input n: its sentence windows exist, and the sentence that waited for it is taken. -/
def State.edgeAt (n : Nat) (out : Bool) (stamp : Int) (silent : Nat) (s : State) : State :=
  (s.modTod n (fun q => { q with windowed := true, waiting := none })).modPps n (.edge out stamp silent)
theorem moves_edgeAt (n : Nat) (out : Bool) (stamp : Int) (silent : Nat) (s : State) : Moves [.time] s (s.edgeAt n out stamp silent) :=
  .trans (moves_modTime (fun t => { t with tod := vmod t.tod n (fun q => { q with windowed := true, waiting := none }) }) s)
    (moves_modTime (fun t => { t with pps := vmod t.pps n (.edge out stamp silent) }) _)
theorem State.ppsIn_edgeAt {n : Nat} (hn : n < 2) (out : Bool) (stamp : Int) (silent : Nat) (s : State) :
    (s.edgeAt n out stamp silent).ppsIn n = (s.ppsIn n).edge out stamp silent := State.ppsIn_modPps hn _ _
theorem State.meets_of_qualified {x : TimeSrc} {s : State} (h : (s.cand? x).any (fun c => c.st == .qualified) = true) : s.meets x = s := by
  unfold State.meets
  split
  next c hc =>
    rw [hc] at h
    exact if_neg (by simpa using (by simpa using h : c.st = .qualified) ▸ (by decide : CandState.qualified ≠ .disqualified))
  next => rfl
/-- An edge is inside a gate that does not apply, or that it does not miss. -/
theorem inside_gate {gated : Bool} {gate distance : Int} (h : gated = false ∨ distance ≤ gate) : ¬(gated && decide (gate < distance)) = true := by
  rw [Bool.and_eq_true, decide_eq_true_eq]
  rintro ⟨hgated, hout⟩
  rcases h with h | h
  · simp [hgated] at h
  · omega
section
variable {n : Fin 2} {sub : Nat} {s : State} {stamp : Int} (hstamp : stamp = s.nowTai + sub + (s.ppsIn n).delay)
include hstamp
/-- An edge outside the gate is an outlier, counted; the third running disqualifies the input. -/
theorem exec_ppsInPulse_out (hgated : s.gated n = true) (hout : nsUnits (s.ppsIn n).gate < (stamp - nearestSecond stamp).natAbs) :
    ∃ silent, exec (.ppsInPulse n sub) s = .next (
      let u := (s.edgeAt n true stamp silent).count .ppsOutliers .device n 1
      if 3 ≤ (s.ppsIn n).outRun + 1 then (u.breakCand (.pps n)).disqualify (.pps n) .outsideGate
      else if 3 ≤ silent then (u.breakCand (.pps n)).disqualify (.pps n) .noSentence else u.breakCand (.pps n)) := by
  have hexec : exec (.ppsInPulse n sub) s = execPpsInPulse n sub s := rfl
  simp only [hexec, execPpsInPulse, ← hstamp]
  exact ⟨_, if_pos (by simp only [hgated, hout, decide_true, Bool.and_self])⟩
/-- An edge inside the gate that no sentence has named. -/
theorem exec_ppsInPulse_silent (hin : s.gated n = false ∨ (stamp - nearestSecond stamp).natAbs ≤ nsUnits (s.ppsIn n).gate)
    (hwait : (s.todIn n).waiting = none) : exec (.ppsInPulse n sub) s = .next (
      let u := s.edgeAt n false stamp ((s.ppsIn n).silentRun + 1)
      if 3 ≤ (s.ppsIn n).silentRun + 1 then (u.breakCand (.pps n)).disqualify (.pps n) .noSentence else u.breakCand (.pps n)) := by
  refine (?_ : execPpsInPulse n sub s = _)
  simp only [execPpsInPulse, ← hstamp, hwait]
  exact if_neg (inside_gate hin)
/-- An edge inside the gate with its sentence delivers the measurement of a selected and QUALIFIED input. -/
theorem exec_ppsInPulse_named (hin : s.gated n = false ∨ (stamp - nearestSecond stamp).natAbs ≤ nsUnits (s.ppsIn n).gate)
    {y : Sentence} {at0 : Int} (hwait : (s.todIn n).waiting = some (y, at0)) (hnear : ((stamp - at0).natAbs : Int) * 2 < secondUnits)
    (hsel : s.time.selected = some (.pps n)) (hcand : (s.cand? (.pps n)).any (fun x => x.st == .qualified) = true) :
    exec (.ppsInPulse n sub) s = .next ((s.edgeAt n false stamp 0).modTime (fun t => { t with
      meas := some (.pps n, stamp - (y.sec : Int) * secondUnits), quality := y.quality })) := by
  refine (?_ : execPpsInPulse n sub s = _)
  have hmeets : (s.edgeAt n false stamp 0).meets (.pps n) = s.edgeAt n false stamp 0 := State.meets_of_qualified hcand
  have hsame : (if y.good then (s.edgeAt n false stamp 0).meets (.pps n) else s.edgeAt n false stamp 0) = s.edgeAt n false stamp 0 := by
    rw [hmeets, ite_self]
  simp only [execPpsInPulse, ← hstamp, hwait, if_pos hnear]
  refine (if_neg (inside_gate hin)).trans ((if_pos ?_).trans ?_)
  · exact (congrArg (fun u : State => u.time.selected) hsame).trans hsel
  · exact congrArg (fun u : State => Host.Outcome.next (u.modTime (fun t => { t with
      meas := some (.pps n, stamp - (y.sec : Int) * secondUnits), quality := y.quality }))) hsame
theorem ppsInPulse_out (hgated : s.gated n = true) (hout : nsUnits (s.ppsIn n).gate < (stamp - nearestSecond stamp).natAbs) :
    Happens coreParts (fun t => (t.ppsIn n).last = some stamp ∧ (t.ppsIn n).outRun = (s.ppsIn n).outRun + 1
      ∧ Counted .ppsOutliers .device n 1 t
      ∧ (2 ≤ (s.ppsIn n).outRun → ∀ x, s.cand? (.pps n) = some x → ∃ y, t.cand? (.pps n) = some y ∧ y.st = .disqualified)) s
      (exec (.ppsInPulse n sub) s) := by
  obtain ⟨silent, hexec⟩ := exec_ppsInPulse_out hstamp hgated hout
  have hcount := moves_count .ppsOutliers .device n 1 (s.edgeAt n true stamp silent)
  have hcounted := (counted_count .ppsOutliers .device n 1 (s.edgeAt n true stamp silent) (by decide)).1
  have hedge := ((moves_edgeAt n true stamp silent s).mono (by decide)).trans (hcount.mono (by decide : _ ⊆ coreParts))
  have htime := hcount.time
  generalize (s.edgeAt n true stamp silent).count .ppsOutliers .device n 1 = u at *
  have hlines : u.ppsIn n = (s.ppsIn n).edge true stamp silent := by
    rw [← State.ppsIn_edgeAt n.isLt, State.ppsIn, State.ppsIn, htime]
  obtain ⟨hstep, hdis⟩ := break_disqualifies (b := 3 ≤ (s.ppsIn n).outRun + 1) (.pps n) .outsideGate u
    (if 3 ≤ silent then (u.breakCand (.pps n)).disqualify (.pps n) .noSentence else u.breakCand (.pps n))
    (coreStep_ite (coreStep_disqualify ..) .refl)
  refine ⟨_, hexec, ⟨?_, ?_, hstep.moves.counted _ hcounted, fun hrun c hc => hdis (by omega) c ?_⟩, (hedge.trans hstep.moves).steps.only⟩
  · rw [hstep.ppsIn, hlines]; rfl
  · rw [hstep.ppsIn, hlines]; rfl
  · exact (State.candOpt_of_candidates (congrArg TimeCore.candidates htime) _).trans hc
theorem ppsInPulse_silent (hin : s.gated n = false ∨ (stamp - nearestSecond stamp).natAbs ≤ nsUnits (s.ppsIn n).gate)
    (hwait : (s.todIn n).waiting = none) : Happens coreParts (fun t => (t.ppsIn n).last = some stamp
      ∧ (t.ppsIn n).silentRun = (s.ppsIn n).silentRun + 1
      ∧ (2 ≤ (s.ppsIn n).silentRun → ∀ x, s.cand? (.pps n) = some x → ∃ y, t.cand? (.pps n) = some y ∧ y.st = .disqualified)) s
      (exec (.ppsInPulse n sub) s) := by
  have hedge := moves_edgeAt n false stamp ((s.ppsIn n).silentRun + 1) s
  have hlines := State.ppsIn_edgeAt n.isLt false stamp ((s.ppsIn n).silentRun + 1) s
  obtain ⟨hstep, hdis⟩ := break_disqualifies (b := 3 ≤ (s.ppsIn n).silentRun + 1) (.pps n) .noSentence
    (s.edgeAt n false stamp ((s.ppsIn n).silentRun + 1)) _ .refl
  refine ⟨_, exec_ppsInPulse_silent hstamp hin hwait, ⟨?_, ?_, fun hrun c hc => hdis (by omega) c hc⟩,
    ((hedge.mono (by decide)).trans hstep.moves).steps.only⟩
  · rw [hstep.ppsIn, hlines]; rfl
  · rw [hstep.ppsIn, hlines]; rfl
theorem ppsInPulse_named (hin : s.gated n = false ∨ (stamp - nearestSecond stamp).natAbs ≤ nsUnits (s.ppsIn n).gate)
    {y : Sentence} {at0 : Int} (hwait : (s.todIn n).waiting = some (y, at0)) (hnear : ((stamp - at0).natAbs : Int) * 2 < secondUnits)
    (hsel : s.time.selected = some (.pps n)) (hcand : (s.cand? (.pps n)).any (fun x => x.st == .qualified) = true) :
    Happens [.time] (fun t => t.time.meas = some (.pps n, stamp - (y.sec : Int) * secondUnits) ∧ t.time.quality = y.quality
      ∧ (t.ppsIn n).last = some stamp ∧ (t.ppsIn n).silentRun = 0 ∧ (t.todIn n).waiting = none) s (exec (.ppsInPulse n sub) s) := by
  have hpps : _ = (s.ppsIn n).edge false stamp 0 := State.ppsIn_edgeAt n.isLt false stamp 0 s
  have htod : (s.edgeAt n false stamp 0).todIn n = _ := State.todIn_modTod n.isLt s _
  refine ⟨_, exec_ppsInPulse_named hstamp hin hwait hnear hsel hcand, ⟨rfl, rfl, congrArg PpsIn.last hpps, congrArg PpsIn.silentRun hpps,
    congrArg TodIn.waiting htod⟩, ((moves_edgeAt ..).trans (moves_modTime ..)).steps.only⟩
end

/-! ### A missing edge (R310, Table 10.2) -/

/-- A PPS input at which an edge was missed. -/
def PpsIn.missed (due : Int) (silent : Nat) (p : PpsIn) : PpsIn :=
  { p with missedAt := some due, missRun := p.missRun + 1, silentRun := silent }
/-- No edge has come by PPS_GATE after the expected instant: it is missed, and the second running disqualifies the input. -/
theorem exec_ppsMissing {n : Fin 2} {s : State} {last due : Int} (hlast : (s.ppsIn n).last = some last) (hgated : s.gated n = true)
    (hdue : due = (s.taiAt (s.tn + 1) - nsUnits (s.ppsIn n).gate) / secondUnits * secondUnits) (hlate : last + secondUnits / 2 ≤ due)
    (hfirst : (s.ppsIn n).missedAt = none) : ∃ silent v, Moves [.time] s v ∧ v.time.candidates = s.time.candidates ∧ v.ppsIn n = s.ppsIn n
      ∧ exec (.ppsMissing n) s = .next (
        let u := v.modPps n (.missed due silent)
        if 2 ≤ (s.ppsIn n).missRun + 1 then (u.breakCand (.pps n)).disqualify (.pps n) .missing
        else if 3 ≤ silent then (u.breakCand (.pps n)).disqualify (.pps n) .noSentence else u.breakCand (.pps n)) := by
  have hexec : exec (.ppsMissing n) s = execPpsMissing n s := rfl
  have hsecond : secondUnits = 65536000000000 := rfl
  have hmiss : ¬(due ≤ last ∨ ((due - last).natAbs : Int) * 2 < secondUnits
      ∨ (s.ppsIn n).missedAt.any (fun m => decide (((due - m).natAbs : Int) * 2 < secondUnits)) = true) := by
    simp only [hfirst, Option.any_none, Bool.false_eq_true, or_false]
    rw [hsecond] at hlate ⊢
    clear hdue
    omega
  simp only [hexec, execPpsMissing, hlast, hgated, if_true, ← hdue]
  rw [if_neg hmiss]
  refine ⟨_, _, ?_, ?_, ?_, rfl⟩
  · exact moves_ite (moves_modTime ..) (.refl ..)
  · split <;> rfl
  · split <;> rfl
theorem ppsMissing_counts {n : Fin 2} {s : State} {last due : Int} (hlast : (s.ppsIn n).last = some last) (hgated : s.gated n = true)
    (hdue : due = (s.taiAt (s.tn + 1) - nsUnits (s.ppsIn n).gate) / secondUnits * secondUnits) (hlate : last + secondUnits / 2 ≤ due)
    (hfirst : (s.ppsIn n).missedAt = none) : Happens coreParts (fun t => (t.ppsIn n).missedAt = some due
      ∧ (t.ppsIn n).missRun = (s.ppsIn n).missRun + 1
      ∧ (1 ≤ (s.ppsIn n).missRun → ∀ x, s.cand? (.pps n) = some x → ∃ y, t.cand? (.pps n) = some y ∧ y.st = .disqualified)) s
      (exec (.ppsMissing n) s) := by
  obtain ⟨silent, v, hmove, hcands, hpps, hexec⟩ := exec_ppsMissing hlast hgated hdue hlate hfirst
  have hset : Moves [.time] v (v.modPps n (.missed due silent)) := moves_modTime ..
  have hlines : (v.modPps n (.missed due silent)).ppsIn n = (s.ppsIn n).missed due silent := by rw [State.ppsIn_modPps n.isLt, hpps]
  have hcand : (v.modPps n (.missed due silent)).cand? (.pps n) = s.cand? (.pps n) := State.candOpt_of_candidates hcands _
  generalize v.modPps n (.missed due silent) = u at *
  obtain ⟨hstep, hdis⟩ := break_disqualifies (b := 2 ≤ (s.ppsIn n).missRun + 1) (.pps n) .missing u
    (if 3 ≤ silent then (u.breakCand (.pps n)).disqualify (.pps n) .noSentence else u.breakCand (.pps n))
    (coreStep_ite (coreStep_disqualify ..) .refl)
  refine ⟨_, hexec, ⟨?_, ?_, fun hrun c hc => hdis (by omega) c (hcand.trans hc)⟩,
    (((hmove.trans hset).mono (by decide)).trans hstep.moves).steps.only⟩
  · rw [hstep.ppsIn, hlines]; rfl
  · rw [hstep.ppsIn, hlines]; rfl

/-! ### A line at a ToD input (R312 to R314) -/

/-- A ToD input that holds a sentence for the second it names. -/
def TodIn.holding (y : Sentence) (named : Int) (q : TodIn) : TodIn := { q with last := some (y.sec, named), waiting := some (y, named) }
/-- What a held sentence says of its source, a jump, its flags, a restart and its UTC data, leaves the lines as they are. -/
theorem coreStep_judged {jumpless good restart : Prop} {_ : Decidable jumpless} {_ : Decidable good} {_ : Decidable restart}
    (n : Nat) (y : Sentence) (s : State) : CoreStep TimeCore.lines s (
      let x := TimeSrc.pps n
      let s := if jumpless then s else (s.count .todInJump .device n 1).disqualify x .jump
      let s := if good then s else s.disqualify x .flags
      let s := if restart then s.restartCand x else s
      s.utcFrom x y.utcOff y.leapDir y.leapAt 1) :=
  have hjump : CoreStep TimeCore.lines s (if jumpless then s else (s.count .todInJump .device n 1).disqualify (.pps n) .jump) :=
    coreStep_ite .refl ((coreStep_count ..).trans (coreStep_disqualify ..))
  have hflags := hjump.trans (coreStep_ite (b := good) .refl (coreStep_disqualify (.pps n) .flags _))
  have hrestart := hflags.trans (coreStep_ite (b := restart) (coreStep_restartCand (.pps n) _) .refl)
  hrestart.trans (coreStep_of_moves (moves_utcFrom ..))
section
variable {n : Fin 2} {line : List Octet} {sub : Nat} {s : State} (hhead : line.take 6 = ctodHead)
include hhead
theorem todSentenceRx_bad (hbad : 72 < line.length ∨ sentenceOf line = none) : Happens [.happened] (Counted .todInErr .device n 1) s
    (exec (.todSentenceRx n line sub) s) := by
  have hexec : exec (.todSentenceRx n line sub) s = .next (s.count .todInErr .device n 1) := by
    refine (?_ : execTodSentenceRx n line sub s = _)
    unfold execTodSentenceRx
    rw [if_neg (by simpa using hhead)]
    split
    next => rfl
    next hshort => rw [hbad.resolve_left hshort]
  obtain ⟨hcounted, honly⟩ := counted_count .todInErr .device n 1 s (by decide)
  exact ⟨_, hexec, hcounted, honly⟩
variable {y : Sentence} {start base : Int} (hshort : line.length ≤ 72) (hsentence : sentenceOf line = some y)
  (hstart : start = s.nowTai + sub - ((line.length + 2) * 10 * secondUnits) / (s.todIn n).baud)
  (hbase : base = ((s.ppsIn n).last.getD 0) + (s.nowTai + sub - (s.ppsIn n).last.getD 0) / secondUnits * secondUnits)
include hshort hsentence hstart hbase
theorem todSentenceRx_late (hlate : (s.todIn n).windowed = false ∨ (s.ppsIn n).last = none ∨ start < base + secondUnits / 100
      ∨ base + secondUnits * 9 / 10 < s.nowTai + sub) : Happens [.happened] (Counted .todInLate .device n 1) s
    (exec (.todSentenceRx n line sub) s) := by
  have hexec : exec (.todSentenceRx n line sub) s = .next (s.count .todInLate .device n 1) := by
    refine (?_ : execTodSentenceRx n line sub s = _)
    simp only [execTodSentenceRx, hsentence, ← hstart, ← hbase]
    rw [if_neg (by simpa using hhead), if_neg (by omega)]
    refine if_pos ?_
    rcases hlate with h | h | h
    · exact .inl (by simp [h])
    · exact .inl (by simp [h])
    · exact .inr h
  obtain ⟨hcounted, honly⟩ := counted_count .todInLate .device n 1 s (by decide)
  exact ⟨_, hexec, hcounted, honly⟩
/-- A sentence inside its window is held for the second it names, and then judged. -/
theorem todSentenceRx_holds (hwindowed : (s.todIn n).windowed = true) (hlast : (s.ppsIn n).last ≠ none)
    (hopen : base + secondUnits / 100 ≤ start) (hclose : s.nowTai + sub ≤ base + secondUnits * 9 / 10) :
    Happens coreParts (fun t => (t.todIn n).waiting = some (y, base + secondUnits) ∧ (t.todIn n).last = some (y.sec, base + secondUnits)) s
      (exec (.todSentenceRx n line sub) s) := by
  suffices h : ∃ t, exec (.todSentenceRx n line sub) s = .next t ∧ CoreStep TimeCore.lines (s.modTod n (.holding y (base + secondUnits))) t by
    obtain ⟨t, hexec, hstep⟩ := h
    have hset : Moves [.time] s (s.modTod n (.holding y (base + secondUnits))) := moves_modTime ..
    have hheld : t.todIn n = (s.todIn n).holding y (base + secondUnits) := by rw [hstep.todIn, State.todIn_modTod n.isLt]
    exact ⟨t, hexec, ⟨congrArg TodIn.waiting hheld, congrArg TodIn.last hheld⟩, ((hset.mono (by decide)).trans hstep.moves).steps.only⟩
  have hexec : exec (.todSentenceRx n line sub) s = execTodSentenceRx n line sub s := rfl
  have hin : ¬((!((s.todIn n).windowed && (s.ppsIn n).last.isSome)) = true ∨ start < base + secondUnits / 100
      ∨ base + secondUnits * 9 / 10 < s.nowTai + sub) := by
    have hsome : (s.ppsIn n).last.isSome = true := Option.isSome_iff_ne_none.mpr hlast
    rw [hwindowed, hsome]
    simp only [Bool.and_self, Bool.not_true, Bool.false_eq_true, false_or]
    omega
  simp only [hexec, execTodSentenceRx, hsentence, ← hstart, ← hbase]
  rw [if_neg (by simpa using hhead), if_neg (by omega), if_neg hin]
  exact ⟨_, rfl, coreStep_judged ..⟩
end

/-! ### The outputs (R311 to R313) -/

/-- An output at second w of the core's time: its settings of that second, and its pulse where it is enabled and the time allows it. -/
def PpsOut.reach (o : PpsOut) (w : Int) (time : TimeCore) : PpsOut :=
  { o.at w with
    second := w
    emitted := if (o.at w).cfg.enable && time.timeValid && ((o.at w).cfg.always || time.traceable) then
      some (w * secondUnits - (o.at w).cfg.delay) else (o.at w).emitted }
theorem PpsOut.at_emitted (o : PpsOut) (w : Int) : (o.at w).emitted = o.emitted := by
  unfold PpsOut.at
  split
  next c k _ => exact (apply_ite PpsOut.emitted (k ≤ w) { o with cfg := c, next := none } o).trans (ite_self _)
  next => rfl
theorem ppsOutPulse_reaches {n : Fin 4} {s : State} {o : PpsOut} {w : Int} (ho : o = vget s.time.ppsOut n PpsOut.reset)
    (hw : w = nearestSecond s.nowTai / secondUnits) (hnew : o.second < w) (hfrom : s.nowTai ≤ w * secondUnits - (o.at w).cfg.delay)
    (hto : w * secondUnits - (o.at w).cfg.delay < s.taiAt (s.tn + 1)) :
    Happens [.time] (fun t => (vget t.time.ppsOut n PpsOut.reset).second = w
      ∧ (((o.at w).cfg.enable = true ∧ s.time.timeValid = true ∧ ((o.at w).cfg.always = true ∨ s.time.traceable = true)) →
        (vget t.time.ppsOut n PpsOut.reset).emitted = some (w * secondUnits - (o.at w).cfg.delay))
      ∧ ((o.at w).cfg.enable = false ∨ s.time.timeValid = false → (vget t.time.ppsOut n PpsOut.reset).emitted = o.emitted)
      ∧ ∀ k, k ≠ n.val → vget t.time.ppsOut k PpsOut.reset = vget s.time.ppsOut k PpsOut.reset) s (exec (.ppsOutPulse n) s) := by
  have hexec : exec (.ppsOutPulse n) s = .next (s.modTime (fun t => { t with ppsOut := vmod t.ppsOut n (fun _ => o.reach w s.time) })) := by
    refine (?_ : execPpsOutPulse n s = _)
    simp only [execPpsOutPulse, ← hw, ← ho]
    exact if_neg (by omega)
  refine ⟨_, hexec, ?_, (moves_modTime ..).steps.only⟩
  simp only [State.modTime_time, vget_vmod_same _ _ _ _ n.isLt]
  refine ⟨rfl, fun ⟨hen, hvalid, hon⟩ => ?_, fun hoff => ?_, fun k hk => vget_vmod_ne _ _ _ _ _ hk⟩
  · exact if_pos (by simpa [hen, hvalid] using hon)
  · refine (if_neg ?_).trans (o.at_emitted w)
    rcases hoff with h | h <;> simp [h]
theorem todOutSentence_sends {s : State} {w : Int} (hw : w = s.nowTai / secondUnits) (hdue : secondUnits * 3 / 10 ≤ s.nowTai - w * secondUnits)
    (hnew : w + 1 ≠ s.time.todOut.second) : Happens [.time] (fun t => t.time = { s.time with todOut := { s.time.todOut with
      line := s.todLine (w + 1), seq := (s.time.todOut.seq + 1) % 256, stepped := false, second := w + 1 } }) s (exec .todOutSentence s) := by
  have hexec : exec .todOutSentence s = .next (s.modTime (fun t => { t with todOut := { t.todOut with
      line := s.todLine (w + 1), seq := (t.todOut.seq + 1) % 256, stepped := false, second := w + 1 } })) := by
    refine (?_ : execTodOutSentence s = _)
    simp only [execTodOutSentence, ← hw]
    exact if_neg (by omega)
  exact ⟨_, hexec, rfl, (moves_modTime ..).steps.only⟩

/-- Settles O36: each row is the step it makes where its condition holds, and that step brings what the statement asks. -/
theorem ppsAndTod : Obligations.PpsAndTod :=
  ⟨fun _ _ _ _ hstamp => ⟨ppsInPulse_out hstamp, fun _ _ hin => ppsInPulse_named hstamp hin, ppsInPulse_silent hstamp⟩,
    fun _ _ _ _ => ppsMissing_counts,
    fun _ _ _ _ hhead => ⟨todSentenceRx_bad hhead, fun _ _ _ hshort hsentence hstart hbase =>
      ⟨todSentenceRx_late hhead hshort hsentence hstart hbase, todSentenceRx_holds hhead hshort hsentence hstart hbase⟩⟩,
    fun _ _ _ _ => ppsOutPulse_reaches, fun _ _ => todOutSentence_sends⟩
end Sys2Proof.Machine
end

section
/-! What a change of a candidate touches, and how the line time transfer and the route of one engine change (used by O37 to O40). -/
-- One after another: a task for each proof would ask for more threads than the memory limit allows.
set_option Elab.async false
namespace Sys2Proof.Machine

/-! ### A change of a candidate never locks the core (R305, R306) -/

/-- What a change of a candidate touches: the core and its events. It does not enter LOCKED, so no tick epoch is set. -/
def sourceParts : List Part := .time :: eventParts
theorem moves_timeTo {st : TimeState} (h : st ≠ .locked) (s : State) : Moves sourceParts s (s.timeTo st) := by
  by_cases hst : s.time.state = st
  · rw [State.timeTo_same hst]
    exact .refl ..
  · rw [State.timeTo_eq hst, if_neg h]
    exact moves_entered ..
theorem moves_selectSource (x : Option TimeSrc) (s : State) : Moves sourceParts s (s.selectSource x) := by
  have hkeep : Moves sourceParts s s.keepSteps := moves_ite ((moves_modTime ..).mono (by decide)) (.refl ..)
  have htold : ∀ f ws, Moves sourceParts s ((s.keepSteps.modTime f).raise .timeSourceChange .device 0 ws) := fun _ _ =>
    (hkeep.trans ((moves_modTime ..).mono (by decide))).trans ((moves_raise ..).mono (by decide))
  unfold State.selectSource
  dsimp only
  refine moves_ite (.refl ..) (moves_ite ((htold ..).trans (moves_timeTo (by decide) _))
    (moves_ite ((htold ..).trans (moves_timeTo (by decide) _)) ((htold ..).trans (moves_timeTo ?_ _))))
  split <;> decide
theorem moves_reselect (s : State) : Moves sourceParts s s.reselect := by
  unfold State.reselect
  dsimp only
  (repeat' split)
  exacts [moves_selectSource .., .refl .., moves_selectSource ..]
theorem moves_qualify (x : TimeSrc) (st : CandState) (why : QualReason) (s : State) : Moves sourceParts s (s.qualify x st why) := by
  unfold State.qualify
  split
  · exact .refl ..
  · exact moves_ite (.refl ..) ((((moves_modTime ..).mono (by decide)).trans ((moves_raise ..).mono (by decide))).trans (moves_reselect _))
theorem moves_disqualify (x : TimeSrc) (why : QualReason) (s : State) : Moves sourceParts s (s.disqualify x why) := moves_qualify ..

/-! ### The route of an engine -/

theorem moves_modRoute (e : Nat) (f : RouteCfg → RouteCfg) (s : State) : Moves [.settings] s (s.modRoute e f) := moves_modSettings ..
theorem moves_modLtt (e : Nat) (f : Ltt → Ltt) (s : State) : Moves [.engines] s (s.modLtt e f) :=
  ⟨(acts_modEng e _ s).steps, fun _ h => h⟩
theorem State.ltt_modLtt_same {e : Nat} (he : e < 48) (f : Ltt → Ltt) (s : State) : (s.modLtt e f).ltt e = f (s.ltt e) :=
  congrArg Engine.ltt (State.eng_modEng_same e _ s he)
theorem Moves.eng {l : List Part} {s t : State} (h : Moves l s t) (j : Nat) (hl : Part.engines ∉ l := by decide) : t.eng j = s.eng j :=
  h.steps.eng j hl
theorem Moves.ltt {l : List Part} {s t : State} (h : Moves l s t) (j : Nat) (hl : Part.engines ∉ l := by decide) : t.ltt j = s.ltt j :=
  congrArg Engine.ltt (h.eng j hl)
theorem Moves.route {l : List Part} {s t : State} (h : Moves l s t) (j : Nat) (hl : Part.settings ∉ l := by decide) :
    t.route j = s.route j := by
  simp only [State.route, h.settings hl]
/-- A change of the route of one engine, as `f` says, and of no other of the settings. -/
structure RouteIs (e : Nat) (f : RouteCfg → RouteCfg) (s t : State) : Prop where
  own : t.route e = f (s.route e)
  others : ∀ j, j ≠ e → t.route j = s.route j
  settings : t.kennel.settings = { s.kennel.settings with route := t.kennel.settings.route }
theorem routeIs_modRoute {e : Nat} (he : e < 48) (f : RouteCfg → RouteCfg) (s : State) : RouteIs e f s (s.modRoute e f) :=
  ⟨vget_vmod_same _ _ _ _ he, fun _ hj => vget_vmod_ne _ _ _ _ _ hj, rfl⟩
theorem RouteIs.of_same {e : Nat} {f : RouteCfg → RouteCfg} {s s' t t' : State} (h : RouteIs e f s t)
    (hs : s.kennel.settings = s'.kennel.settings) (ht : t'.kennel.settings = t.kennel.settings) : RouteIs e f s' t' := by
  obtain ⟨hown, hothers, hsettings⟩ := h
  refine ⟨?_, fun j hj => ?_, ?_⟩
  · simpa only [State.route, hs, ht] using hown
  · simpa only [State.route, hs, ht] using hothers j hj
  · rw [ht, ← hs]; exact hsettings
end Sys2Proof.Machine
end

section
/-! The commands of line time transfer and of the frequency reference (O37). -/
-- One after another: a task for each proof would ask for more threads than the memory limit allows.
set_option Elab.async false
namespace Sys2Proof.Machine

/-! ### Commands of one engine -/

section
variable {c : Cmd} {s : State}
theorem lttSet_sets (h : Ready specLttSet c s = true) : SetsEngine 0x410 c (fun g => { g with ltt := { g.ltt with
    intervalNext := if 625 * cw c 1 = g.ltt.interval then none else some (625 * cw c 1)
    minFillNext := cw c 2, maxSteps := cw c 3, allowClear := cw c 4 == 1, feNext := some (cw c 5, cw c 6)
    certNotify := cw c 7 == 1 } }) s (exec (.lttSet c) s) :=
  does_engine_now specLttSet _ _ c s [] h rfl rfl rfl rfl rfl
theorem State.ltt_atParse (op : Nat) (c : Cmd) (e : Nat) (s : State) : (s.atParse op c).ltt e = s.ltt e :=
  congrArg Engine.ltt (State.eng_atParse op c e s)
theorem State.route_atParse (op : Nat) (c : Cmd) (e : Nat) (s : State) : (s.atParse op c).route e = s.route e := by
  simp only [State.route, State.atParse_kennel]
theorem lttStatus_reports (h : Ready specLttStatus c s = true) : Reports 0x411 c
    (w2 (s.ltt (cIdx c)).result.endTn ++ wi2 (s.ltt (cIdx c)).result.eps ++ wi2 (s.ltt (cIdx c)).result.rtd
      ++ w1 (s.ltt (cIdx c)).result.n ++ wi2 (s.ltt (cIdx c)).result.epsZero
      ++ w1 (b2n (s.ltt (cIdx c)).result.delivered + b2n (s.ltt (cIdx c)).result.void * 2)) s (exec (.lttStatus c) s) :=
  reports_now specLttStatus _ c s _ h rfl rfl rfl (by simp only [State.ltt_atParse])
theorem engineDelayCert_reports (h : Ready specEngineDelayCert c s = true) :
    Reports 0x412 c (packOctets (s.ltt (cIdx c)).cert) s (exec (.engineDelayCert c) s) :=
  reports_now specEngineDelayCert _ c s _ h rfl rfl rfl (by rw [State.ltt_atParse])
theorem certDump_begins (h : Ready specCertDump c s = true) :
    BeginsDma 0x413 c (some (((List.range 48).map (fun e => (s.ltt e).cert)).flatten)) s (exec (.certDump c) s) := by
  refine beginsDma_send specCertDump _ _ c s h rfl rfl (fun u hu => ?_)
  have hltt : u.ltt = s.ltt := funext fun e => congrArg Engine.ltt (eng_of_only hu (by decide) e)
  simp only [hltt]

/-! ### The route and its validation (R331, R332) -/

theorem asymSet_does (h : Ready specAsymSet c s = true) : Does 0x414 c [] (.settings :: eventParts) (fun t =>
    t.route (cIdx c) = { s.route (cIdx c) with fibreAsym := cz c 1, farFeSkew := cz c 2 }
    ∧ (∀ e, e ≠ cIdx c → t.route e = s.route e) ∧ t.kennel.settings = { s.kennel.settings with route := t.kennel.settings.route }
    ∧ Raised .asymChange .engine (cIdx c) (wi (cz c 1) ++ wi (cz c 2)) s.tn t) s (exec (.asymSet c) s) := by
  have hset := moves_modRoute (cIdx c) (fun r => { r with fibreAsym := cz c 1, farFeSkew := cz c 2 }) (s.atParse 0x414 c)
  have hroute := routeIs_modRoute (ready_engine _ c s h rfl) (fun r => { r with fibreAsym := cz c 1, farFeSkew := cz c 2 })
    (s.atParse 0x414 c)
  refine does_steps h rfl rfl rfl ((hset.mono (by decide)).trans ((moves_raise ..).mono (by decide))).steps (by decide) (fun t ht => ?_)
  obtain ⟨hown, hothers, hsettings⟩ := hroute.of_same (congrArg Kennel.settings (State.atParse_kennel ..))
    ((Moves.of_steps ht).settings.trans (moves_raise ..).settings)
  exact ⟨hown, hothers, hsettings, (Moves.of_steps ht).raised (raised_raise_tn (State.atParse_tn ..))⟩
/-- The route settings that ASYM_VALIDATE writes: the references are the means of the last qualifying second, and it is VALID. -/
def RouteCfg.validated (c : Cmd) (q : Int × Int) (r : RouteCfg) : RouteCfg :=
  { r with
    fibreAsym := if cw c 1 = 1 then cz c 2 else r.fibreAsym, farFeSkew := if cw c 1 = 1 then cz c 3 else r.farFeSkew
    cdRef := q.1, cdTrk := q.1 * 65536, rtdRef := q.2, rtdTrk := q.2 * 65536, asymState := .valid }
/-- What ASYM_VALIDATE writes, before it is told, and with ASYM_VALIDATED. -/
def State.validated (c : Cmd) (s : State) : State :=
  (s.modRoute (cIdx c) (.validated c (s.ltt (cIdx c)).lastQual)).modLtt (cIdx c) (fun l => { l with routeFlags := 0 })
def State.validatedTold (c : Cmd) (s : State) : State :=
  (s.validated c).raise .asymValidated .engine (cIdx c)
    (wi ((s.validated c).route (cIdx c)).fibreAsym ++ wi ((s.validated c).route (cIdx c)).farFeSkew)
theorem validatedTold_writes (he : cIdx c < 48) (s : State) : Moves (.settings :: .engines :: eventParts) s (s.validatedTold c)
    ∧ RouteIs (cIdx c) (.validated c (s.ltt (cIdx c)).lastQual) s (s.validatedTold c) ∧ OtherEngines (cIdx c) s (s.validatedTold c)
    ∧ (s.validatedTold c).eng (cIdx c) = { s.eng (cIdx c) with ltt := { (s.eng (cIdx c)).ltt with routeFlags := 0 } }
    ∧ Raised .asymValidated .engine (cIdx c)
        (wi ((s.validatedTold c).route (cIdx c)).fibreAsym ++ wi ((s.validatedTold c).route (cIdx c)).farFeSkew) s.tn (s.validatedTold c) := by
  have hroute := moves_modRoute (cIdx c) (.validated c (s.ltt (cIdx c)).lastQual) s
  have hflags := moves_modLtt (cIdx c) (fun l => { l with routeFlags := 0 })
    (s.modRoute (cIdx c) (.validated c (s.ltt (cIdx c)).lastQual))
  have htell : Moves eventParts (s.validated c) (s.validatedTold c) := moves_raise ..
  refine ⟨((hroute.mono (by decide)).trans (hflags.mono (by decide))).trans (htell.mono (by decide)),
    (routeIs_modRoute he _ s).of_same rfl (htell.settings.trans hflags.settings), fun j hj => ?_, ?_, ?_⟩
  · exact (htell.eng j).trans (State.eng_modEng_ne _ _ _ _ hj)
  · exact (htell.eng _).trans (State.eng_modEng_same _ _ _ he)
  · rw [htell.route]
    exact raised_raise_tn rfl
theorem asymValidate_does (h : Ready specAsymValidate c s = true) : Does 0x415 c [] (.settings :: .engines :: eventParts) (fun t =>
    t.route (cIdx c) = (s.route (cIdx c)).validated c (s.ltt (cIdx c)).lastQual
    ∧ (∀ e, e ≠ cIdx c → t.route e = s.route e) ∧ OtherEngines (cIdx c) s t
    ∧ t.eng (cIdx c) = { s.eng (cIdx c) with ltt := { (s.eng (cIdx c)).ltt with routeFlags := 0 } }
    ∧ Raised .asymValidated .engine (cIdx c) (wi (t.route (cIdx c)).fibreAsym ++ wi (t.route (cIdx c)).farFeSkew) s.tn t) s
    (exec (.asymValidate c) s) := by
  obtain ⟨hmove, hroute, hothers, hown, hraised⟩ := validatedTold_writes (ready_engine _ c s h rfl) (s.atParse 0x415 c)
  refine does_steps (v := (s.atParse 0x415 c).validatedTold c) h rfl rfl rfl hmove.steps (by decide) (fun t ht => ?_)
  have hfinal := Moves.of_steps ht
  obtain ⟨hself, hroutes, -⟩ := hroute.of_same (congrArg Kennel.settings (State.atParse_kennel ..)) hfinal.settings
  rw [State.ltt_atParse] at hself
  rw [State.atParse_tn] at hraised
  refine ⟨hself, hroutes, fun j hj => ?_, ?_, ?_⟩
  · rw [hfinal.eng, hothers j hj, State.eng_atParse]
  · rw [hfinal.eng, hown, State.eng_atParse]
  · rw [hfinal.route]
    exact hfinal.raised hraised
theorem asymClear_does (h : Ready specAsymClear c s = true) : Does 0x416 c [] (.settings :: .time :: .realign :: .tnProvisional :: eventParts) (fun t =>
    t.route (cIdx c) = { s.route (cIdx c) with asymState := .unset } ∧ (∀ e, e ≠ cIdx c → t.route e = s.route e)
    ∧ ∀ x, s.cand? (.engine (cIdx c)) = some x → ∃ y, t.cand? (.engine (cIdx c)) = some y ∧ y.st = .disqualified) s
    (exec (.asymClear c) s) := by
  have hset := moves_modRoute (cIdx c) (fun r => { r with asymState := .unset }) (s.atParse 0x416 c)
  have hroute := routeIs_modRoute (ready_engine _ c s h rfl) (fun r => { r with asymState := .unset }) (s.atParse 0x416 c)
  have hdis := moves_disqualify (.engine (cIdx c)) .condition ((s.atParse 0x416 c).modRoute (cIdx c) (fun r => { r with asymState := .unset }))
  refine does_steps h rfl rfl rfl ((hset.mono (by decide)).trans (hdis.mono (by decide))).steps (by decide) (fun t ht => ?_)
  have hfinal := Moves.of_steps ht
  obtain ⟨hown, hothers, -⟩ := hroute.of_same (congrArg Kennel.settings (State.atParse_kennel ..))
    (hfinal.settings.trans hdis.settings)
  refine ⟨hown, hothers, fun x hx => ?_⟩
  rw [State.candOpt_of_candidates (congrArg TimeCore.candidates hfinal.time)]
  exact disqualify_disqualifies .condition (c := x)
    ((State.candOpt_of_candidates (congrArg TimeCore.candidates (hset.time.trans (State.atParse_time ..))) _).trans hx)
theorem routeSet_does (h : Ready specRouteSet c s = true) : Does 0x417 c [] [.settings] (fun t =>
    t.route (cIdx c) = { s.route (cIdx c) with
      routeCdStep := 2 * cw c 1, routeLenTol := cw c 2, routeRtdStep := cw c 3, routeTrack := cw c 4 }
    ∧ (∀ e, e ≠ cIdx c → t.route e = s.route e) ∧ t.kennel.settings = { s.kennel.settings with route := t.kennel.settings.route }) s
    (exec (.routeSet c) s) := by
  have hroute := routeIs_modRoute (ready_engine _ c s h rfl) (fun r => { r with
    routeCdStep := 2 * cw c 1, routeLenTol := cw c 2, routeRtdStep := cw c 3, routeTrack := cw c 4 }) (s.atParse 0x417 c)
  refine does_steps h rfl rfl rfl (moves_modRoute ..).steps (by decide) (fun t ht => ?_)
  obtain ⟨hown, hothers, hsettings⟩ := hroute.of_same (congrArg Kennel.settings (State.atParse_kennel ..)) (Moves.of_steps ht).settings
  exact ⟨hown, hothers, hsettings⟩
end

/-! ### TIME_FREQ_REF_SET at its boundary (R334) -/

/-- The core with a frequency reference: the present one takes the bandwidth, a new one starts unqualified, and FREE holds what is applied. -/
def TimeCore.referenced (r : FreqRef) (bw now : Nat) (t : TimeCore) : TimeCore :=
  { t with
    demand := if r = .free then t.applied else t.demand
    freq := if t.freq.ref = r then { t.freq with bw := bw }
      else { ref := r, bw := bw, qualified := false, since := none, lastLoop := now, errSum := 0, errTicks := 0 } }
/-- What TIME_FREQ_REF_SET does at its boundary. -/
def setFreqRef (c : Cmd) (s : State) : State :=
  (s.modTime (.referenced ((freqRefOf s (cw c 1)).getD .same) (cw c 2) s.ticks)).refreshTrace
theorem boundaryEffect_timeFreqRefSet : boundaryEffect 0x40A = setFreqRef :=
  boundaryEffect_of_row opTable_TimeFreqRefSet rfl (by decide) (by decide)
theorem timeFreqRefSet_takesEffect {c : Cmd} {s : State} {r : FreqRef} (hr : freqRefOf s (cw c 1) = some r) :
    TakesEffect 0x40A c [.time] (fun t =>
      (r = s.time.freq.ref → t.time.freq = { s.time.freq with bw := cw c 2 })
      ∧ (r ≠ s.time.freq.ref → t.time.freq = {
          ref := r, bw := cw c 2, qualified := false, since := none, lastLoop := s.ticks, errSum := 0, errTicks := 0 })
      ∧ t.time.demand = (if r = .free then s.time.applied else s.time.demand) ∧ t.time.applied = s.time.applied
      ∧ t.time.state = s.time.state) s := by
  have href : freqRefOf s.disarmed (cw c 1) = some r := hr
  refine takesEffect_steps boundaryEffect_timeFreqRefSet ((moves_modTime ..).trans (moves_refreshTrace _)).steps (by decide) (fun t ht => ?_)
  rw [(Moves.of_steps ht).time]
  simp only [setFreqRef, href, Option.getD_some]
  exact ⟨fun heq => if_pos heq.symm, fun hne => if_neg (Ne.symm hne), rfl, rfl, rfl⟩

/-- Settles O37: each command by the kind of its effect, at once, over time, armed or at its boundary. -/
theorem transferCommands : Obligations.TransferCommands := fun c s =>
  ⟨lttSet_sets, lttStatus_reports, engineDelayCert_reports, certDump_begins, asymSet_does, asymValidate_does, asymClear_does, routeSet_does,
    fun h => arms_boundary specTimeFreqRefSet 0x40A _ c s h rfl rfl, fun _ => timeFreqRefSet_takesEffect⟩
end Sys2Proof.Machine
end

section
/-! Line time transfer in operation (O38): the end of a measurement interval. -/
-- One after another: a task for each proof would ask for more threads than the memory limit allows.
set_option Elab.async false
namespace Sys2Proof.Machine

/-! ### The end of an interval (R324, Table 11.1) -/

/-- The LTT_INTERVAL that takes effect at this boundary. -/
def State.lttNew (e : Nat) (s : State) : Option Nat :=
  match (s.ltt e).intervalNext with | some n => if s.tn % n = 0 then some n else none | none => none
/-- The interval that ends is void for another cause than a new LTT_INTERVAL. -/
def State.lttGap (e : Nat) (s : State) : Bool :=
  let l := s.ltt e
  l.voidNow || l.voidBefore || l.cut || ((s.lttNew e).isNone && (decide (l.count * 100 < l.minFill * l.interval) || l.count == 0))
/-- The interval that ends is void, and void for a new LTT_INTERVAL alone while its engine is the selected source. -/
def State.lttVoid (e : Nat) (s : State) : Bool := s.lttGap e || (s.lttNew e).isSome
def State.lttKeeps (e : Nat) (s : State) : Bool := (s.lttNew e).isSome && !s.lttGap e && decide (s.time.selected = some (.engine e))
/-- What an interval has measured. -/
def Ltt.measured (tn : Nat) (void : Bool) (l : Ltt) : LttResult :=
  { endTn := tn, eps := if l.count = 0 then 0 else roundDiv l.epsSum (2 * l.count), rtd := if l.count = 0 then 0 else roundDiv l.rtdSum l.count
    n := l.count, epsZero := if l.count = 0 then 0 else roundDiv l.zeroSum (2 * l.count), delivered := !void, void := void }
/-- The measurement of an interval with offsets, delivered. -/
def Ltt.delivery (tn : Nat) (l : Ltt) : LttResult :=
  { endTn := tn, eps := roundDiv l.epsSum (2 * l.count), rtd := roundDiv l.rtdSum l.count, n := l.count
    epsZero := roundDiv l.zeroSum (2 * l.count), delivered := true, void := false }
theorem Ltt.measured_good {l : Ltt} (tn : Nat) (h : l.count ≠ 0) : l.measured tn false = l.delivery tn := by
  simp only [Ltt.measured, Ltt.delivery, h, if_false, Bool.not_false]
/-- Line time transfer of an engine as its interval has ended in state `s` and the next one begins. -/
def Ltt.closed (s : State) (e : Nat) (l : Ltt) : Ltt :=
  { l with
    result := (s.ltt e).measured s.tn (s.lttVoid e), epsSum := 0, rtdSum := 0, zeroSum := 0, count := 0, voidBefore := l.voidNow, voidNow := false
    interval := (s.lttNew e).getD l.interval, intervalNext := if (s.lttNew e).isSome then none else l.intervalNext
    cut := false, resized := s.lttKeeps e, minFill := l.minFillNext, asymNow := ((s.route e).fibreAsym, (s.route e).farFeSkew)
    deliveredAt := if s.lttVoid e then l.deliveredAt else some s.ticks }
/-- A void interval is counted, and disqualifies its engine unless it is void for a new LTT_INTERVAL alone; a good one of the selected
engine delivers its measurement. -/
theorem exec_lttIntervalEnd {e : Fin 48} {s : State} (hdue : (s.lttNew e).isSome = true ∨ s.tn % (s.ltt e).interval = 0) :
    exec (.lttIntervalEnd e) s = .next (
      let u := s.modLtt e (.closed s e)
      if s.lttVoid e then
        if s.lttKeeps e then u.count .lttVoid .engine e 1 else (u.count .lttVoid .engine e 1).disqualify (.engine e) .condition
      else if s.time.selected = some (.engine e.val) then
        u.modTime (fun t => { t with meas := some (.engine e, ((s.ltt e).measured s.tn (s.lttVoid e)).eps) })
      else u) := by
  refine (?_ : execLttIntervalEnd e s = _)
  have hgo : ¬((s.lttNew e).isNone = true ∧ s.tn % (s.ltt e).interval ≠ 0) := by
    rintro ⟨hnone, hoff⟩
    rcases hdue with h | h
    · simp [Option.isNone_iff_eq_none.mp hnone] at h
    · exact hoff h
  refine (if_neg hgo).trans (Eq.trans ?_ (apply_ite Host.Outcome.next _ _ _).symm)
  exact ite_congr rfl (fun _ => rfl) (fun _ => (apply_ite Host.Outcome.next _ _ _).symm)
section
variable {e : Fin 48} {s : State}
theorem State.ltt_closed (e : Fin 48) (s : State) : (s.modLtt e (.closed s e)).ltt e = (s.ltt e).closed s e := State.ltt_modLtt_same e.isLt _ _
theorem otherEngines_modLtt (e : Nat) (f : Ltt → Ltt) (s : State) : OtherEngines e s (s.modLtt e f) :=
  fun _ hj => State.eng_modEng_ne _ _ _ _ hj
theorem OtherEngines.moves {e : Nat} {l : List Part} {s t u : State} (h : OtherEngines e s u) (h' : Moves l u t)
    (hl : Part.engines ∉ l := by decide) : OtherEngines e s t := fun j hj => (h'.eng j hl).trans (h j hj)
/-- What a void interval leaves: the transfer of its engine as it begins the next, a count, and, where it disqualifies, the candidate out. -/
theorem lttIntervalEnd_voids (hdue : (s.lttNew e).isSome = true ∨ s.tn % (s.ltt e).interval = 0) (hvoid : s.lttVoid e = true) :
    AtEngine e coreParts (fun t => t.ltt e = (s.ltt e).closed s e ∧ Counted .lttVoid .engine e 1 t
      ∧ (s.lttKeeps e = true → t.time = s.time)
      ∧ (s.lttKeeps e = false → ∀ x, s.cand? (.engine e) = some x → ∃ y, t.cand? (.engine e) = some y ∧ y.st = .disqualified)) s
      (exec (.lttIntervalEnd e) s) := by
  have hexec := exec_lttIntervalEnd hdue
  simp only [hvoid, if_true] at hexec
  have hclose := moves_modLtt e (.closed s e) s
  have hothers := otherEngines_modLtt e (.closed s e) s
  have hltt := State.ltt_closed e s
  have hcount := moves_count .lttVoid .engine e 1 (s.modLtt e (.closed s e))
  have hcounted := (counted_count .lttVoid .engine e 1 (s.modLtt e (.closed s e)) (by decide)).1
  generalize hu : (s.modLtt e (.closed s e)).count .lttVoid .engine e 1 = u at *
  have hmove : Moves (.engines :: coreParts) s u := (hclose.mono (by decide)).trans (hcount.mono (by decide))
  have htime : u.time = s.time := hcount.time.trans hclose.time
  cases hkeep : s.lttKeeps e with
  | true =>
    simp only [hkeep, if_true] at hexec
    exact ⟨u, hexec, ⟨⟨(hcount.ltt e).trans hltt, hcounted, fun _ => htime, by simp⟩, hothers.moves hcount⟩, hmove.steps.only⟩
  | false =>
    simp only [hkeep, Bool.false_eq_true, if_false] at hexec
    have hdis := moves_disqualify (.engine e) .condition u
    refine ⟨_, hexec, ⟨⟨(hdis.ltt e).trans ((hcount.ltt e).trans hltt), hdis.counted _ hcounted, by simp, fun _ x hx => ?_⟩,
      (hothers.moves hcount).moves hdis⟩, (hmove.trans (hdis.mono (by decide))).steps.only⟩
    exact disqualify_disqualifies .condition ((State.candOpt_of_candidates (congrArg TimeCore.candidates htime) _).trans hx)
theorem lttIntervalEnd_delivers (hdue : s.tn % (s.ltt e).interval = 0) (hnew : (s.ltt e).intervalNext = none) (hnow : (s.ltt e).voidNow = false)
    (hbefore : (s.ltt e).voidBefore = false) (hcut : (s.ltt e).cut = false) (hcount : (s.ltt e).count ≠ 0)
    (hfill : (s.ltt e).minFill * (s.ltt e).interval ≤ (s.ltt e).count * 100) :
    AtEngine e [.time] (fun t => (t.ltt e).result = (s.ltt e).delivery s.tn
      ∧ (t.ltt e).count = 0 ∧ (t.ltt e).epsSum = 0 ∧ (t.ltt e).rtdSum = 0 ∧ (t.ltt e).voidBefore = false
      ∧ (s.time.selected = some (.engine e.val) →
        t.time = { s.time with meas := some (.engine e, roundDiv (s.ltt e).epsSum (2 * (s.ltt e).count)) })
      ∧ (s.time.selected ≠ some (.engine e.val) → t.time = s.time)) s (exec (.lttIntervalEnd e) s) := by
  have hnone : s.lttNew e = none := by simp only [State.lttNew, hnew]
  have hgood : s.lttVoid e = false := by
    simp only [State.lttVoid, State.lttGap, hnone, hnow, hbefore, hcut, Option.isNone_none, Option.isSome_none, Bool.or_false, Bool.false_or,
      Bool.true_and, Bool.or_eq_false_iff, decide_eq_false_iff_not, not_lt, beq_eq_false_iff_ne]
    exact ⟨hfill, hcount⟩
  have hmeas : (s.ltt e).measured s.tn (s.lttVoid e) = (s.ltt e).delivery s.tn := by rw [hgood, Ltt.measured_good _ hcount]
  have hexec := exec_lttIntervalEnd (e := e) (.inr hdue)
  dsimp only at hexec
  rw [if_neg (by simp [hgood]), hmeas] at hexec
  have hclose := moves_modLtt e (.closed s e) s
  have hothers := otherEngines_modLtt e (.closed s e) s
  have hltt := State.ltt_closed e s
  generalize s.modLtt e (.closed s e) = u at *
  have hown : ∀ t : State, t.ltt e = u.ltt e → (t.ltt e).result = _ ∧ (t.ltt e).count = 0 ∧ (t.ltt e).epsSum = 0 ∧ (t.ltt e).rtdSum = 0
      ∧ (t.ltt e).voidBefore = false := fun t ht => by
    rw [ht, hltt]
    exact ⟨hmeas, rfl, rfl, rfl, hnow⟩
  by_cases hsel : s.time.selected = some (.engine e.val)
  · rw [if_pos hsel] at hexec
    have hset := moves_modTime (fun t => { t with meas := some (.engine e, roundDiv (s.ltt e).epsSum (2 * (s.ltt e).count)) }) u
    obtain ⟨hresult, hzero, heps, hrtd, hvoid⟩ := hown _ (hset.ltt e)
    refine ⟨_, hexec, ⟨⟨hresult, hzero, heps, hrtd, hvoid, fun _ => ?_, fun h => absurd hsel h⟩, hothers.moves hset⟩,
      ((hclose.mono (by decide)).trans (hset.mono (by decide))).steps.only⟩
    rw [State.modTime_time, hclose.time]
    rfl
  · rw [if_neg hsel] at hexec
    obtain ⟨hresult, hzero, heps, hrtd, hvoid⟩ := hown _ rfl
    exact ⟨_, hexec, ⟨⟨hresult, hzero, heps, hrtd, hvoid, fun h => absurd h hsel, fun _ => hclose.time⟩, hothers⟩,
      (hclose.mono (by decide)).steps.only⟩
end
end Sys2Proof.Machine
end

section
/-! Line time transfer in operation (O38): the certificates of a second, the frequency reference, and the obligation. -/
-- One after another: a task for each proof would ask for more threads than the memory limit allows.
set_option Elab.async false
namespace Sys2Proof.Machine

/-! ### A fold whose steps have each a place of their own -/

/-- What the one step at place `b` leaves of what `g` shows stands after the fold, and that step finds it as it was before. -/
theorem foldl_meets {α β : Type} {l : List Part} {f : State → α → State} {g : State → β} {b : α} (hmove : ∀ u a, Moves l u (f u a))
    (hother : ∀ u a, a ≠ b → g (f u a) = g u) {as : List α} (hnodup : as.Nodup) (hb : b ∈ as) (s : State) :
    ∃ u, Moves l s u ∧ g u = g s ∧ Moves l (f u b) (as.foldl f s) ∧ g (as.foldl f s) = g (f u b) := by
  have hrun : ∀ (as : List α) (s : State), Moves l s (as.foldl f s) := fun as s =>
    List.foldlRecOn as f (.refl l s) (fun u hu a _ => hu.trans (hmove u a))
  have hkeep : ∀ (as : List α) (s : State), b ∉ as → g (as.foldl f s) = g s := fun as s hno =>
    List.foldlRecOn (motive := fun u => g u = g s) as f rfl (fun u hu a ha => (hother u a (fun h => hno (h ▸ ha))).trans hu)
  obtain ⟨xs, ys, rfl⟩ := List.append_of_mem hb
  obtain ⟨hys, hxs⟩ := List.nodup_cons.mp (List.nodup_middle.mp hnodup)
  simp only [List.mem_append, not_or] at hys
  rw [List.foldl_append, List.foldl_cons]
  exact ⟨_, hrun xs s, hkeep xs s hys.1, hrun ys _, hkeep ys _ hys.2⟩

/-! ### The certificate of an engine (R327 to R331) -/

/-- The second qualifies: not isolated, and in frame and with a valid CD_EST for at least half of its ticks. -/
def SecondSums.qualifies (x : SecondSums) : Bool := !x.isolated && decide (x.ticks ≤ 2 * x.inFrame) && decide (x.ticks ≤ 2 * x.cdValid)
/-- Mean CD_EST and rtd of an engine's second. -/
def State.lineMeans (e : Nat) (s : State) : Int × Int :=
  ((s.secondMeans e (s.ltt e).sums).1, (s.secondMeans e (s.ltt e).sums).2.1)
/-- The route of an engine is checked at the end of its second, with this outcome. -/
def State.checkRuns (e : Nat) (s : State) : Bool := (s.ltt e).sums.qualifies && (s.route e).asymState == .valid && !(s.eng e).zr
def State.checked (e : Nat) (s : State) : Nat × Bool :=
  if s.checkRuns e then (s.route e).check (s.lineMeans e).1 (s.lineMeans e).2 else (0, false)
/-- A route whose tracked references have moved towards the means of a second. -/
def RouteCfg.tracked (q : Int × Int) (r : RouteCfg) : RouteCfg :=
  { r with
    cdTrk := r.cdTrk + roundDiv (q.1 * 65536 - r.cdTrk) r.routeTrack, rtdTrk := r.rtdTrk + roundDiv (q.2 * 65536 - r.rtdTrk) r.routeTrack }
/-- What the route check does, before the certificate is formed. -/
def State.routeChecked (e : Nat) (s : State) : State :=
  if !s.checkRuns e then s
  else if (s.checked e).2 then (s.modRoute e (fun r => { r with asymState := .invalid })).disqualify (.engine e) .condition
  else if (s.route e).routeTrack = 0 then s
  else s.modRoute e (.tracked (s.lineMeans e))
/-- Line time transfer of an engine with the certificate of the second that ends in state `s`. -/
def Ltt.certified (s : State) (e : Nat) (l : Ltt) : Ltt :=
  { l with
    sums := .reset
    cert := (s.routeChecked e).certOctets e ((((s.routeChecked e).ltt e).certSeq + 1) % 256) (s.ltt e).sums (s.checked e).1
    certSeq := (((s.routeChecked e).ltt e).certSeq + 1) % 256, routeFlags := (s.checked e).1, lastOk := (s.ltt e).sums.qualifies
    lastQual := if (s.ltt e).sums.qualifies then s.lineMeans e else l.lastQual }
theorem State.certify_eq (e : Nat) (s : State) : s.certify e =
    let u := (s.routeChecked e).modLtt e (.certified s e)
    if (u.ltt e).certNotify then u.raise .delayCert .engine e (w2 u.tn) else u := rfl
/-- What the formation of certificates touches. -/
def certParts : List Part := .engines :: .time :: .settings :: eventParts
theorem moves_routeChecked (e : Nat) (s : State) : Moves (.settings :: sourceParts) s (s.routeChecked e) := by
  unfold State.routeChecked
  refine moves_ite (.refl ..) (moves_ite ?_ (moves_ite (.refl ..) ((moves_modRoute ..).mono (by decide))))
  exact ((moves_modRoute ..).mono (by decide)).trans ((moves_disqualify ..).mono (by decide))
/-- The route check leaves the routes of the other engines. -/
theorem route_routeChecked_ne {e j : Nat} (s : State) (hj : j ≠ e) : (s.routeChecked e).route j = s.route j := by
  have hmod : ∀ f, (s.modRoute e f).route j = s.route j := fun f => vget_vmod_ne _ _ _ _ _ hj
  unfold State.routeChecked
  (repeat' split)
  exacts [rfl, ((moves_disqualify ..).route j).trans (hmod _), rfl, hmod _]
section
variable {e : Nat} {s : State}
theorem route_routeChecked_idle (hidle : s.checkRuns e = false) : (s.routeChecked e).route e = s.route e := by
  unfold State.routeChecked
  rw [if_pos (by simp [hidle])]
/-- A failed check makes the route INVALID. -/
theorem route_routeChecked_failed (he : e < 48) (hrun : s.checkRuns e = true) (hfail : (s.checked e).2 = true) :
    (s.routeChecked e).route e = { s.route e with asymState := .invalid } := by
  unfold State.routeChecked
  rw [if_neg (by simp [hrun]), if_pos hfail, (moves_disqualify ..).route]
  exact (routeIs_modRoute he _ s).own
/-- A passed check moves no more than the tracked references. -/
theorem route_routeChecked_passed (he : e < 48) (hrun : s.checkRuns e = true) (hpass : (s.checked e).2 = false) :
    ((s.routeChecked e).route e).asymState = (s.route e).asymState := by
  unfold State.routeChecked
  rw [if_neg (by simp [hrun]), if_neg (by simp [hpass])]
  split
  · rfl
  · rw [(routeIs_modRoute he _ s).own]
    rfl
end
/-- An engine's certificate has been formed in state `s`, and its route checked. -/
def Certified (e : Nat) (s t : State) : Prop :=
  (t.ltt e).certSeq = ((s.ltt e).certSeq + 1) % 256 ∧ (t.ltt e).sums = .reset
  ∧ ((s.ltt e).certNotify = true → Raised .delayCert .engine e (w2 s.tn) s.tn t)
  ∧ ((s.route e).asymState ≠ .valid → t.route e = s.route e)
  ∧ ∀ cd rtd : Int, (s.route e).asymState = .valid → (s.eng e).zr = false → (s.ltt e).sums.isolated = false →
    (s.ltt e).sums.ticks ≤ 2 * (s.ltt e).sums.inFrame → (s.ltt e).sums.ticks ≤ 2 * (s.ltt e).sums.cdValid →
    cd = (s.secondMeans e (s.ltt e).sums).1 → rtd = (s.secondMeans e (s.ltt e).sums).2.1 →
    (t.ltt e).lastOk = true ∧ (t.ltt e).lastQual = (cd, rtd) ∧ (t.ltt e).routeFlags = ((s.route e).check cd rtd).1
    ∧ (((s.route e).check cd rtd).2 = true → t.route e = { s.route e with asymState := .invalid })
    ∧ (((s.route e).check cd rtd).2 = false → (t.route e).asymState = .valid)
/-- What certificates show of an engine, and what they leave of the others. -/
def State.line (e : Nat) (s : State) : Engine × RouteCfg := (s.eng e, s.route e)
theorem line_certify_ne {e j : Nat} (s : State) (hj : j ≠ e) : (s.certify e).line j = s.line j := by
  have hset : ((s.routeChecked e).modLtt e (.certified s e)).line j = s.line j :=
    Prod.ext ((State.eng_modEng_ne _ _ _ _ hj).trans ((moves_routeChecked e s).eng j)) (route_routeChecked_ne s hj)
  rw [State.certify_eq]
  dsimp only
  split
  · exact (Prod.ext ((moves_raise ..).eng j) ((moves_raise ..).route j)).trans hset
  · exact hset
theorem moves_certify (e : Nat) (s : State) : Moves certParts s (s.certify e) := by
  rw [State.certify_eq]
  have hset := ((moves_routeChecked e s).mono (by decide : _ ⊆ certParts)).trans ((moves_modLtt e (.certified s e) _).mono (by decide))
  exact moves_ite (hset.trans ((moves_raise ..).mono (by decide))) hset
theorem certified_certify {e : Nat} (he : e < 48) (s : State) : Certified e s (s.certify e) := by
  have hcheck := moves_routeChecked e s
  have hset := moves_modLtt e (.certified s e) (s.routeChecked e)
  have hltt : ((s.routeChecked e).modLtt e (.certified s e)).ltt e = (s.ltt e).certified s e := by
    rw [State.ltt_modLtt_same he, hcheck.ltt]
  have hroute : ((s.routeChecked e).modLtt e (.certified s e)).route e = (s.routeChecked e).route e := hset.route e
  have htn : ((s.routeChecked e).modLtt e (.certified s e)).tn = s.tn := hset.tn.trans hcheck.tn
  rw [State.certify_eq]
  dsimp only
  generalize (s.routeChecked e).modLtt e (.certified s e) = u at *
  have htell := moves_raise .delayCert .engine e (w2 u.tn) u
  generalize ht : (if (u.ltt e).certNotify = true then u.raise .delayCert .engine e (w2 u.tn) else u) = t
  have hown : t.ltt e = (s.ltt e).certified s e ∧ t.route e = (s.routeChecked e).route e := by
    rw [← ht]
    split
    exacts [⟨(htell.ltt e).trans hltt, (htell.route e).trans hroute⟩, ⟨hltt, hroute⟩]
  unfold Certified
  rw [hown.1, hown.2]
  refine ⟨by rw [Ltt.certified, hcheck.ltt], rfl, fun hnotify => ?_, fun hinvalid => ?_, fun cd rtd hvalid hzr hiso hframe hcd hcdMean hrtdMean => ?_⟩
  · rw [← ht, hltt, if_pos (show ((s.ltt e).certified s e).certNotify = true from hnotify), htn]
    exact raised_raise_tn htn
  · exact route_routeChecked_idle (by simp [State.checkRuns, hinvalid])
  · have hok : (s.ltt e).sums.qualifies = true := by simp [SecondSums.qualifies, hiso, hframe, hcd]
    have hmeans : s.lineMeans e = (cd, rtd) := Prod.ext hcdMean.symm hrtdMean.symm
    have hrun : s.checkRuns e = true := by simp [State.checkRuns, hok, hvalid, hzr]
    have hchecked : s.checked e = (s.route e).check cd rtd := by simp only [State.checked, hrun, if_true, hmeans]
    rw [← hchecked]
    exact ⟨hok, (if_pos hok).trans hmeans, rfl, route_routeChecked_failed he hrun,
      fun hpass => (route_routeChecked_passed he hrun hpass).trans hvalid⟩
/-- What a certificate is formed from is the same in a state with the same engine and route at the same tick. -/
theorem Certified.of_same {e : Nat} {s u t v : State} (h : Certified e u v) (hline : u.line e = s.line e) (htn : u.tn = s.tn)
    (hticks : u.ticks = s.ticks) (hafter : t.line e = v.line e) (htold : Moves certParts v t) : Certified e s t := by
  have heng : u.eng e = s.eng e := congrArg Prod.fst hline
  have hroute : u.route e = s.route e := congrArg Prod.snd hline
  have hltt : t.ltt e = v.ltt e := congrArg (fun x => x.1.ltt) hafter
  have hrouteAfter : t.route e = v.route e := congrArg Prod.snd hafter
  have hmeans : ∀ x, u.secondMeans e x = s.secondMeans e x := fun x => by simp only [State.secondMeans, hticks]
  obtain ⟨hseq, hsums, hnotify, hidle, hsecond⟩ := h
  simp only [State.ltt, heng, hroute, htn, hmeans] at hseq hsums hnotify hidle hsecond
  unfold Certified
  rw [hltt, hrouteAfter]
  exact ⟨hseq, hsums, fun hn => htold.raised (hnotify hn), hidle, hsecond⟩
theorem delayCertFormation_certifies {s : State} (hsecond : s.tn % 625000 = 0) (hticks : (s.ltt 0).sums.ticks ≠ 0) :
    Happens certParts (fun t => ∀ e, e < 48 → Certified e s t) s (exec .delayCertFormation s) := by
  have hexec : exec .delayCertFormation s = .next ((List.range 48).foldl (fun s e => s.certify e) s) :=
    (if_pos ⟨hsecond, hticks⟩ : execDelayCertFormation s = _)
  refine ⟨_, hexec, fun e he => ?_, (List.foldlRecOn (List.range 48) _ (Moves.refl certParts s)
    (fun u hu e _ => hu.trans (moves_certify e u))).steps.only⟩
  obtain ⟨u, hmove, hline, hrest, hafter⟩ := foldl_meets (g := State.line e) (fun u e => moves_certify e u)
    (fun u _ hne => line_certify_ne u hne.symm) List.nodup_range (List.mem_range.mpr he) s
  exact (certified_certify he u).of_same hline hmove.tn hmove.ticks hafter hrest

/-! ### The frequency reference (R334, R335) -/

section
variable {s : State}
theorem freqLoopUpdate_moves (err : Int) (hqual : s.time.freq.qualified = true)
    (href : (∃ e, s.time.freq.ref = .line e) ∨ ∃ p, s.time.freq.ref = .synce p) (hdue : s.time.freq.lastLoop + 64 ≤ s.ticks) :
    Happens sourceParts (fun t => t.time.demand = Config.freqLoop s.time.freq.bw s.time.demand (s.time.freq.meanErr err)
      ∧ t.time.freq = { s.time.freq with lastLoop := s.ticks, errSum := 0, errTicks := 0 }
      ∧ t.time.applied = s.time.applied ∧ t.time.state = s.time.state) s (exec (.freqLoopUpdate err) s) := by
  have hon : (match s.time.steering with | .line _ => true | .synce _ => true | _ => false) = true := by
    rcases href with ⟨e, h⟩ | ⟨p, h⟩ <;> simp [TimeCore.steering, h, hqual]
  have hexec : exec (.freqLoopUpdate err) s = .next ((s.modTime (fun t => { t with
      demand := Config.freqLoop t.freq.bw t.demand (t.freq.meanErr err)
      freq := { t.freq with lastLoop := s.ticks, errSum := 0, errTicks := 0 } })).freqJudge 64) :=
    (if_pos ⟨hon, hdue⟩ : execFreqLoopUpdate err s = _)
  refine ⟨_, hexec, ?_, (((moves_modTime ..).mono (by decide)).trans (moves_freqJudge ..)).steps.only⟩
  obtain ⟨_, _, htime⟩ := State.freqJudge_time 64 (s.modTime (fun t => { t with
      demand := Config.freqLoop t.freq.bw t.demand (t.freq.meanErr err)
      freq := { t.freq with lastLoop := s.ticks, errSum := 0, errTicks := 0 } }))
  rw [htime]
  exact ⟨rfl, rfl, rfl, rfl⟩
/-- The reference's conditions have held since `since`; with `now` it is qualified, and its loop starts anew where it was not. -/
def FreqSel.held (since ticks : Nat) (now : Bool) (f : FreqSel) : FreqSel :=
  { f with
    since := some since, qualified := f.qualified || now, lastLoop := if now && !f.qualified then ticks else f.lastLoop
    errSum := if now && !f.qualified then 0 else f.errSum, errTicks := if now && !f.qualified then 0 else f.errTicks }
/-- The reference's conditions have held for QUAL_TIME. -/
def State.freqHeld (s : State) : Bool := decide (s.time.freq.since.getD s.ticks + s.time.params.qualTime * secTicks ≤ s.ticks)
theorem State.freqHeld_iff : s.freqHeld = true ↔ s.time.freq.since.getD s.ticks + s.time.params.qualTime * 625000 ≤ s.ticks := by
  exact decide_eq_true_iff
variable (hsame : s.time.freq.ref ≠ .same) (hfree : s.time.freq.ref ≠ .free) (offset : Int)
include hsame hfree
theorem exec_freqRefQualification_ok (hok : s.freqRefOk offset = true) : exec (.freqRefQualification offset) s = .next (
    let u := (s.modTime (fun t => { t with freq := s.time.freq.held (s.time.freq.since.getD s.ticks) s.ticks s.freqHeld })).refreshTrace
    if s.freqHeld && !s.time.freq.qualified then
      u.raise .freqRefChange .device 0 (w1 FreqRef.same.word ++ w1 s.time.freq.ref.word ++ w1 1)
    else u) := by
  refine (?_ : execFreqRefQualification offset s = _)
  unfold execFreqRefQualification
  dsimp only
  split
  next h => exact absurd h hsame
  next h => exact absurd h hfree
  next => exact (if_pos hok).trans (apply_ite Host.Outcome.next _ _ _).symm
theorem exec_freqRefQualification_failed (hno : s.freqRefOk offset = false) : exec (.freqRefQualification offset) s = .next (
    let u := s.modTime (fun t => { t with freq := { t.freq with since := none, qualified := false } })
    if s.time.freq.qualified then
      u.refreshTrace.raise .freqRefChange .device 0 (w1 s.time.freq.ref.word ++ w1 FreqRef.same.word ++ w1 0)
    else u) := by
  refine (?_ : execFreqRefQualification offset s = _)
  unfold execFreqRefQualification
  dsimp only
  split
  next h => exact absurd h hsame
  next h => exact absurd h hfree
  next => exact (if_neg (by simp [hno])).trans (apply_ite Host.Outcome.next _ _ _).symm
theorem freqRefQualification_holds (hok : s.freqRefOk offset = true) : Happens sourceParts (fun t =>
    t.time.freq.since = some (s.time.freq.since.getD s.ticks)
    ∧ (s.time.freq.since.getD s.ticks + s.time.params.qualTime * 625000 ≤ s.ticks → s.time.freq.qualified = false →
      t.time.freq.qualified = true
      ∧ Raised .freqRefChange .device 0 (w1 FreqRef.same.word ++ w1 s.time.freq.ref.word ++ w1 1) s.tn t)
    ∧ (s.ticks < s.time.freq.since.getD s.ticks + s.time.params.qualTime * 625000 →
      t.time.freq.qualified = s.time.freq.qualified)) s (exec (.freqRefQualification offset) s) := by
  have hexec := exec_freqRefQualification_ok hsame hfree offset hok
  have hiff := State.freqHeld_iff (s := s)
  generalize s.freqHeld = held at hexec hiff
  have hset : Moves [.time] s (s.modTime (fun t => { t with
      freq := s.time.freq.held (s.time.freq.since.getD s.ticks) s.ticks held })).refreshTrace :=
    (moves_modTime ..).trans (moves_refreshTrace _)
  have hfreq : ((s.modTime (fun t => { t with
      freq := s.time.freq.held (s.time.freq.since.getD s.ticks) s.ticks held })).refreshTrace).time.freq
    = s.time.freq.held (s.time.freq.since.getD s.ticks) s.ticks held := rfl
  dsimp only at hexec
  generalize (s.modTime _).refreshTrace = u at *
  suffices h : ∃ t, exec (.freqRefQualification offset) s = .next t ∧ Moves sourceParts s t
      ∧ t.time.freq = s.time.freq.held (s.time.freq.since.getD s.ticks) s.ticks held
      ∧ (held = true → s.time.freq.qualified = false →
        Raised .freqRefChange .device 0 (w1 FreqRef.same.word ++ w1 s.time.freq.ref.word ++ w1 1) s.tn t) by
    obtain ⟨t, hnext, hmove, heq, htold⟩ := h
    refine ⟨t, hnext, ?_, hmove.steps.only⟩
    beta_reduce
    rw [heq]
    refine ⟨rfl, fun hlong hunq => ⟨?_, htold (hiff.mpr hlong) hunq⟩, fun hshort => ?_⟩
    · rw [FreqSel.held, hiff.mpr hlong, Bool.or_true]
    · have hno : held = false := Bool.eq_false_iff.mpr (fun h => absurd (hiff.mp h) (Nat.not_le.mpr hshort))
      rw [FreqSel.held, hno, Bool.or_false]
  by_cases hstart : (held && !s.time.freq.qualified) = true
  · rw [if_pos hstart] at hexec
    have htell := moves_raise .freqRefChange .device 0 (w1 FreqRef.same.word ++ w1 s.time.freq.ref.word ++ w1 1) u
    exact ⟨_, hexec, (hset.mono (by decide)).trans (htell.mono (by decide)), (congrArg TimeCore.freq htell.time).trans hfreq,
      fun _ _ => raised_raise_tn hset.tn⟩
  · rw [if_neg hstart] at hexec
    exact ⟨u, hexec, hset.mono (by decide), hfreq, fun hlong hunq => absurd (by rw [hlong, hunq]; rfl) hstart⟩
theorem freqRefQualification_fails (hno : s.freqRefOk offset = false) : Happens sourceParts (fun t =>
    t.time.freq = { s.time.freq with since := none, qualified := false }
    ∧ (s.time.freq.qualified = true →
      Raised .freqRefChange .device 0 (w1 s.time.freq.ref.word ++ w1 FreqRef.same.word ++ w1 0) s.tn t)) s
    (exec (.freqRefQualification offset) s) := by
  have hexec := exec_freqRefQualification_failed hsame hfree offset hno
  have hset := moves_modTime (fun t => { t with freq := { t.freq with since := none, qualified := false } }) s
  have htrace := hset.trans (moves_refreshTrace _)
  have htell := moves_raise .freqRefChange .device 0 (w1 s.time.freq.ref.word ++ w1 FreqRef.same.word ++ w1 0)
    (s.modTime (fun t => { t with freq := { t.freq with since := none, qualified := false } })).refreshTrace
  refine ⟨_, hexec, ⟨?_, fun hqual => ?_⟩,
    (moves_ite ((htrace.mono (by decide)).trans (htell.mono (by decide))) (hset.mono (by decide))).steps.only⟩
  · dsimp only
    split
    exacts [congrArg TimeCore.freq htell.time, rfl]
  · dsimp only
    rw [if_pos hqual]
    exact raised_raise_tn htrace.tn
end

/-! ### The rows -/

theorem Happens.mono {l m : List Part} {P : State → Prop} {s : State} {r : Res} (h : Happens l P s r) (hl : ∀ p ∈ l, p ∈ m) :
    Happens m P s r :=
  have ⟨t, hexec, hP, honly⟩ := h
  ⟨t, hexec, hP, only_mono honly hl⟩
/-- A void cause in the interval, or too few offsets, where no new LTT_INTERVAL takes effect. -/
theorem lttIntervalEnd_gap {e : Fin 48} {s : State} (hdue : s.tn % (s.ltt e).interval = 0)
    (hgap : (s.ltt e).voidNow = true ∨ (s.ltt e).voidBefore = true ∨ (s.ltt e).cut = true
      ∨ ((s.ltt e).intervalNext.any (fun n => s.tn % n == 0) = false
        ∧ ((s.ltt e).count = 0 ∨ (s.ltt e).count * 100 < (s.ltt e).minFill * (s.ltt e).interval))) :
    AtEngine e coreParts (fun t => (t.ltt e).result.void = true
      ∧ (t.ltt e).result.delivered = false ∧ (t.ltt e).count = 0 ∧ (t.ltt e).voidNow = false
      ∧ (t.ltt e).voidBefore = (s.ltt e).voidNow ∧ Counted .lttVoid .engine e 1 t
      ∧ ∀ x, s.cand? (.engine e) = some x → ∃ y, t.cand? (.engine e) = some y ∧ y.st = .disqualified) s (exec (.lttIntervalEnd e) s) := by
  have hcause : s.lttGap e = true := by
    rcases hgap with h | h | h | ⟨hnone, hfew⟩
    · simp [State.lttGap, h]
    · simp [State.lttGap, h]
    · simp [State.lttGap, h]
    · have hnew : s.lttNew e = none := by
        unfold State.lttNew
        split
        next n hn => exact if_neg (by simpa [hn] using hnone)
        next => rfl
      have hthin : (s.ltt e).count * 100 < (s.ltt e).minFill * (s.ltt e).interval ∨ (s.ltt e).count = 0 := hfew.symm
      simp [State.lttGap, hnew, hthin]
  have hvoid : s.lttVoid e = true := by simp [State.lttVoid, hcause]
  have hkeep : s.lttKeeps e = false := by simp [State.lttKeeps, hcause]
  refine Happens.imp (lttIntervalEnd_voids (.inr hdue) hvoid) (fun t ⟨⟨hltt, hcounted, _, hdis⟩, hothers⟩ => ⟨?_, hothers⟩)
  beta_reduce
  rw [hltt]
  exact ⟨hvoid, congrArg (!·) hvoid, rfl, rfl, rfl, hcounted, hdis hkeep⟩
/-- The interval in progress as a new LTT_INTERVAL takes effect. -/
theorem lttIntervalEnd_resizes {e : Fin 48} {s : State} {n : Nat} (hnext : (s.ltt e).intervalNext = some n) (hmult : s.tn % n = 0) :
    AtEngine e coreParts (fun t => (t.ltt e).interval = n
      ∧ (t.ltt e).intervalNext = none ∧ (t.ltt e).result.void = true ∧ (t.ltt e).result.delivered = false
      ∧ Counted .lttVoid .engine e 1 t
      ∧ (s.time.selected = some (.engine e.val) → (s.ltt e).voidNow = false → (s.ltt e).voidBefore = false → (s.ltt e).cut = false →
        t.time = s.time ∧ (t.ltt e).resized = true)
      ∧ (s.time.selected ≠ some (.engine e.val) →
        ∀ x, s.cand? (.engine e) = some x → ∃ y, t.cand? (.engine e) = some y ∧ y.st = .disqualified)) s (exec (.lttIntervalEnd e) s) := by
  have hnew : s.lttNew e = some n := by simp only [State.lttNew, hnext, hmult, if_true]
  have hvoid : s.lttVoid e = true := by simp [State.lttVoid, hnew]
  refine Happens.imp (lttIntervalEnd_voids (.inl (by rw [hnew]; rfl)) hvoid) (fun t ⟨⟨hltt, hcounted, hstay, hdis⟩, hothers⟩ => ⟨?_, hothers⟩)
  have hinterval : (t.ltt e).interval = n := by rw [hltt, Ltt.closed, hnew]; rfl
  have hcleared : (t.ltt e).intervalNext = none := by rw [hltt, Ltt.closed, hnew]; rfl
  refine ⟨hinterval, hcleared, ?_, ?_, hcounted, fun hsel hnow hbefore hcut => ?_, fun hsel => hdis (by simp [State.lttKeeps, hsel])⟩
  · rw [hltt]; exact hvoid
  · rw [hltt]; exact congrArg (!·) hvoid
  · have hkeep : s.lttKeeps e = true := by simp [State.lttKeeps, State.lttGap, hnew, hnow, hbefore, hcut, hsel]
    exact ⟨hstay hkeep, by rw [hltt]; exact hkeep⟩

/-- Settles O38: each row is the step it makes where its condition holds, and that step brings what the statement asks. -/
theorem transferHappenings : Obligations.TransferHappenings :=
  ⟨fun _ _ hdue => ⟨lttIntervalEnd_delivers hdue, lttIntervalEnd_gap hdue, fun _ => lttIntervalEnd_resizes⟩,
    fun _ hsecond hticks => (delayCertFormation_certifies hsecond hticks).mono (by decide),
    fun _ => ⟨freqLoopUpdate_moves, fun offset hsame hfree =>
      ⟨freqRefQualification_holds hsame hfree offset, freqRefQualification_fails hsame hfree offset⟩⟩⟩
end Sys2Proof.Machine
end

section
/-! What the steps of PTP keep of the client ports, and the commands of PTP and of the frame tap (O39). -/
-- One after another: a task for each proof would ask for more threads than the memory limit allows.
set_option Elab.async false
namespace Sys2Proof.Machine

/-! ### The PTP port of a client port -/

theorem moves_modPtp (n : Nat) (f : PtpPort → PtpPort) (s : State) : Moves [.ports] s (s.modPtp n f) := moves_modPort ..
theorem portIs_modPtp (n : Nat) (f : PtpPort → PtpPort) (s : State) : PortIs n (fun p => { p with ptp := f p.ptp }) s (s.modPtp n f) :=
  portIs_modPort ..
section
variable {n : Nat} {p : Port} {s t : State}
theorem State.ptp_of_port (hp : s.port? n = some p) : s.ptp n = p.ptp := by
  simp only [State.ptp, hp, Option.elim_some]
theorem State.ptp_of_portOpt (h : t.port? n = s.port? n) : t.ptp n = s.ptp n := by
  simp only [State.ptp, h]
end
theorem Moves.ptp {l : List Part} {s t : State} (h : Moves l s t) (n : Nat) (hl : Part.ports ∉ l := by decide) : t.ptp n = s.ptp n :=
  State.ptp_of_portOpt (h.portOpt n hl)
theorem State.ptp_atParse (op : Nat) (c : Cmd) (n : Nat) (s : State) : (s.atParse op c).ptp n = s.ptp n :=
  State.ptp_of_portOpt (State.portOpt_atParse ..)

/-! ### Steps at one PTP port -/

/-- What a change of a PTP port's state touches: ports, and with a receiver that leaves its state the choice of source. -/
def ptpParts : List Part := .ports :: sourceParts
/-- What no step of PTP touches of a port. -/
def Port.fixed (p : Port) : PortState × Tap × PtpCfg := (p.state, p.tap, p.ptp.cfg)
/-- A step at the PTP port of client port `n`: it keeps the other ports, and of its own the state, the tap and the PTP settings. -/
structure PtpAt (n : Nat) (s t : State) : Prop where
  moves : Moves ptpParts s t
  others : ∀ q, q ≠ n → t.port? q = s.port? q
  own : (t.port? n).map Port.fixed = (s.port? n).map Port.fixed
section
variable {n : Nat} {s t u : State}
theorem PtpAt.refl : PtpAt n s s := ⟨.refl .., fun _ _ => rfl, rfl⟩
theorem PtpAt.trans (h : PtpAt n s u) (h' : PtpAt n u t) : PtpAt n s t :=
  ⟨h.moves.trans h'.moves, fun q hq => (h'.others q hq).trans (h.others q hq), h'.own.trans h.own⟩
theorem ptpAt_ite {b : Prop} {_ : Decidable b} (ht : PtpAt n s t) (hu : PtpAt n s u) : PtpAt n s (if b then t else u) := by
  split
  exacts [ht, hu]
/-- A step that leaves the ports. -/
theorem ptpAt_of_moves {l : List Part} (h : Moves l s t) (hl : ∀ p ∈ l, p ∈ ptpParts := by decide) (hports : Part.ports ∉ l := by decide) :
    PtpAt n s t := ⟨h.mono hl, fun q _ => h.portOpt q hports, by rw [h.portOpt n hports]⟩
theorem ptpAt_modPtp {f : PtpPort → PtpPort} (hf : ∀ p, (f p).cfg = p.cfg := by intro p; rfl) : PtpAt n s (s.modPtp n f) := by
  obtain ⟨hown, hothers⟩ := portIs_modPtp n f s
  refine ⟨(moves_modPtp ..).mono (by decide), hothers, ?_⟩
  rw [hown, Option.map_map]
  exact congrArg (fun g => Option.map g (s.port? n)) (funext fun p => by simp [Port.fixed, hf])
theorem ptpAt_raise (ev : Ev) (k : Kind) (i : Nat) (ws : List Word) : PtpAt n s (s.raise ev k i ws) := ptpAt_of_moves (moves_raise ..)
end
/-- A PTP port that has changed its state. -/
def PtpPort.turned (st : PtpState) (now : Nat) (p : PtpPort) : PtpPort :=
  { p with
    state := st, sync := if st == .receiver then p.sync else none, syncWait := none
    delayWait := if st == .receiver then p.delayWait else none, offSum := 0, offCount := 0, measAt := now
    heardAt := if st == .listening then now else p.heardAt }
/-- A change of state as it has been told, before a receiver that leaves its state is disqualified. -/
def State.turned (n : Nat) (st : PtpState) (s : State) : State :=
  (s.modPtp n (.turned st s.ticks)).raise .ptpPortState .port n (w1 (s.ptp n).state.code ++ w1 st.code ++ w2 s.tn)
section
variable (n : Nat) (s : State)
theorem State.ptpTo_same {n : Nat} {st : PtpState} {s : State} (h : (s.ptp n).state = st) : s.ptpTo n st = s := by
  unfold State.ptpTo
  exact if_pos (by simp [h])
theorem State.ptpTo_eq {n : Nat} {st : PtpState} {s : State} (h : (s.ptp n).state ≠ st) :
    s.ptpTo n st = if (s.ptp n).state == .receiver then (s.turned n st).disqualify (.port n) .condition else s.turned n st := by
  unfold State.ptpTo
  exact if_neg (by simpa using h)
theorem ptpAt_ptpTo (st : PtpState) : PtpAt n s (s.ptpTo n st) := by
  by_cases h : (s.ptp n).state = st
  · rw [State.ptpTo_same h]
    exact .refl
  · have hturn : PtpAt n s (s.turned n st) := .trans ptpAt_modPtp (ptpAt_raise ..)
    rw [State.ptpTo_eq h]
    exact ptpAt_ite (hturn.trans (ptpAt_of_moves (moves_disqualify ..))) hturn
theorem ptpAt_takeParent (a : PtpAnnounce) : PtpAt n s (s.takeParent n a) := by
  have hset : PtpAt n s (s.modPtp n (fun p => { p with parent := some a })) := ptpAt_modPtp
  unfold State.takeParent
  dsimp only
  exact ptpAt_ite (ptpAt_ite (hset.trans (ptpAt_raise ..)) hset)
    ((ptpAt_ite (hset.trans (ptpAt_raise ..)) hset).trans (ptpAt_ptpTo ..))
theorem ptpAt_ptpPrepare (steps : Nat) : PtpAt n s (s.ptpPrepare n steps) := by
  unfold State.ptpPrepare
  dsimp only
  exact ptpAt_ite .refl ((ptpAt_ptpTo ..).trans ptpAt_modPtp)

/-! ### The state decision (R339) -/

/-- The state decision of one port. -/
def State.ptpDecide (n : Nat) (s : State) : State :=
  if (s.ptp n).cfg.role == 1 then s.ptpTo n .transmitter
  else match s.bestOn n with
  | none =>
    if (s.ptp n).state == .listening then s
    else if (s.ptp n).state == .disabled || (s.ptp n).state == .faulty || (s.ptp n).state == .initializing then s.ptpTo n .listening
    else s.ptpTo n .transmitter
  | some a =>
    if rankLt (s.rankAt n (s.ownSet n)) (s.rankAt n a) then s.ptpTo n .transmitter
    else if (s.ownSet n).quality.clockClass ≤ 127 then s.ptpTo n .passive
    else match s.bestOfAll with
    | some (m, b) =>
      if m = n then s.takeParent n a
      else if s.byTopology n a b then s.ptpTo n .passive
      else s.ptpPrepare n (b.quality.steps + 1)
    | none => s.ptpTo n .transmitter
theorem State.bmca_eq : s.bmca = s.ptpPorts.foldl (fun s n => s.ptpDecide n) s := rfl
theorem ptpAt_ptpDecide : PtpAt n s (s.ptpDecide n) := by
  unfold State.ptpDecide
  (repeat' split)
  exacts [ptpAt_ptpTo .., .refl, ptpAt_ptpTo .., ptpAt_ptpTo .., ptpAt_ptpTo .., ptpAt_ptpTo .., ptpAt_takeParent .., ptpAt_ptpTo ..,
    ptpAt_ptpPrepare .., ptpAt_ptpTo ..]
end
/-- Steps of PTP at any ports. -/
structure PtpSteps (s t : State) : Prop where
  moves : Moves ptpParts s t
  fixed : ∀ n, (t.port? n).map Port.fixed = (s.port? n).map Port.fixed
theorem PtpAt.steps {n : Nat} {s t : State} (h : PtpAt n s t) : PtpSteps s t := by
  refine ⟨h.moves, fun q => ?_⟩
  by_cases hq : q = n
  · exact hq ▸ h.own
  · rw [h.others q hq]
section
variable {n : Nat} {p : Port} {s t u : State}
theorem PtpSteps.trans (h : PtpSteps s u) (h' : PtpSteps u t) : PtpSteps s t :=
  ⟨h.moves.trans h'.moves, fun n => (h'.fixed n).trans (h.fixed n)⟩
theorem ptpSteps_bmca (s : State) : PtpSteps s s.bmca := by
  rw [State.bmca_eq]
  exact List.foldlRecOn s.ptpPorts _ ⟨.refl .., fun _ => rfl⟩ (fun u hu n _ => hu.trans (ptpAt_ptpDecide n u).steps)
theorem PtpSteps.at (h : PtpSteps s t) (hp : s.port? n = some p) :
    ∃ q, t.port? n = some q ∧ q.state = p.state ∧ q.tap = p.tap ∧ q.ptp.cfg = p.ptp.cfg := by
  have hfixed := h.fixed n
  rw [hp] at hfixed
  obtain ⟨q, hq, heq⟩ := Option.map_eq_some_iff.mp hfixed
  simp only [Port.fixed, Prod.mk.injEq] at heq
  exact ⟨q, hq, heq⟩
theorem PtpSteps.cfg (h : PtpSteps s t) (n : Nat) : (t.ptp n).cfg = (s.ptp n).cfg := by
  cases hp : s.port? n with
  | some p =>
    obtain ⟨q, hq, -, -, hcfg⟩ := h.at hp
    rw [State.ptp_of_port hp, State.ptp_of_port hq, hcfg]
  | none =>
    have hfixed := h.fixed n
    rw [hp] at hfixed
    exact congrArg PtpPort.cfg (State.ptp_of_portOpt ((Option.map_eq_none_iff.mp hfixed).trans hp.symm))
end

/-! ### The commands -/

section
variable {c : Cmd} {s : State}
/-- A port whose tap PORT_TAP_SET has set. -/
def Port.tapGiven (c : Cmd) (p : Port) : Port :=
  { p with tap := { p.tap with ptp := cw c 1 == 1, esmc := cw c 2 == 1, insertWait := cw c 3 } }
theorem portTapSet_does (h : Ready specPortTapSet c s = true) : Does 0x308 c [] (.ports :: coreParts) (fun t =>
    (∀ p, s.port? (cIdx c) = some p → ∃ q, t.port? (cIdx c) = some q ∧ q.state = p.state
      ∧ q.tap = { p.tap with ptp := cw c 1 == 1, esmc := cw c 2 == 1, insertWait := cw c 3 })
    ∧ ∀ n p, n ≠ cIdx c → s.port? n = some p → ∃ q, t.port? n = some q ∧ q.tap = p.tap ∧ q.state = p.state) s
    (exec (.portTapSet c) s) := by
  have hset := moves_modPort (cIdx c) (.tapGiven c) (s.atParse 0x308 c)
  have hport := portIs_modPort (cIdx c) (.tapGiven c) (s.atParse 0x308 c)
  have hdecide := ptpSteps_bmca ((s.atParse 0x308 c).modPort (cIdx c) (.tapGiven c))
  refine does_steps h rfl rfl rfl ((hset.mono (by decide)).trans (hdecide.moves.mono (by decide))).steps (by decide)
    (fun t ht => ⟨fun p hp => ?_, fun n p hn hp => ?_⟩)
  · obtain ⟨q, hq, hstate, htap, -⟩ := hdecide.at (hport.at ((State.portOpt_atParse ..).trans hp))
    exact ⟨q, ((Moves.of_steps ht).portOpt _).trans hq, hstate, htap⟩
  · obtain ⟨q, hq, hstate, htap, -⟩ := hdecide.at ((hport.2 n hn).trans ((State.portOpt_atParse ..).trans hp))
    exact ⟨q, ((Moves.of_steps ht).portOpt _).trans hq, htap, hstate⟩
/-- The clock identity that PTP_CLOCK_SET gives. -/
def State.clockGiven (c : Cmd) (s : State) : State := { s with clockIdentity := some (cw2 c 1) }
theorem moves_clockGiven (c : Cmd) (s : State) : Moves [.clockIdentity] s (s.clockGiven c) :=
  moves_of_same (fun p hp => by cases p <;> simp [State.clockGiven, Part.same, State.tile] at hp ⊢) rfl rfl
theorem ptpClockSet_does (h : Ready specPtpClockSet c s = true) : Does 0x420 c [] (.clockIdentity :: .ports :: coreParts) (fun t =>
    t.clockIdentity = some (cw2 c 1) ∧ ∀ n, (t.ptp n).cfg = (s.ptp n).cfg) s (exec (.ptpClockSet c) s) := by
  have hset := moves_clockGiven c (s.atParse 0x420 c)
  have hdecide := ptpSteps_bmca ((s.atParse 0x420 c).clockGiven c)
  refine does_steps (v := ((s.atParse 0x420 c).clockGiven c).bmca) h rfl rfl rfl
    ((hset.mono (by decide)).trans (hdecide.moves.mono (by decide))).steps (by decide) (fun t ht => ⟨?_, fun n => ?_⟩)
  · exact (ht.only .clockIdentity (by decide)).trans (hdecide.moves.steps.only .clockIdentity (by decide))
  · rw [(Moves.of_steps ht).ptp, hdecide.cfg, hset.ptp, State.ptp_atParse]
/-- A port with new PTP settings, before the state decision: with another profile, role or domain it begins anew. -/
def State.ptpRestarted (n : Nat) (x : PtpCfg) (s : State) : State :=
  if x.profile = (s.ptp n).cfg.profile ∧ x.role = (s.ptp n).cfg.role ∧ x.domain = (s.ptp n).cfg.domain then s
  else (s.ptpTo n (if x.profile = 0 then .disabled else .listening)).modPtp n (fun p => { p with foreign := [], parent := none })
def State.ptpGiven (n : Nat) (x : PtpCfg) (s : State) : State := (s.ptpRestarted n x).modPtp n (fun p => { p with cfg := x })
theorem ptpAt_ptpRestarted (n : Nat) (x : PtpCfg) (s : State) : PtpAt n s (s.ptpRestarted n x) :=
  ptpAt_ite .refl ((ptpAt_ptpTo ..).trans ptpAt_modPtp)
theorem ptpGiven_gives {n : Nat} {s : State} (hport : (s.port? n).isSome = true) (x : PtpCfg) : Moves ptpParts s (s.ptpGiven n x)
    ∧ ((s.ptpGiven n x).ptp n).cfg = x ∧ ∀ q, q ≠ n → (s.ptpGiven n x).ptp q = s.ptp q := by
  have hrestart := ptpAt_ptpRestarted n x s
  obtain ⟨hown, hothers⟩ := portIs_modPtp n (fun p => { p with cfg := x }) (s.ptpRestarted n x)
  obtain ⟨p, hp⟩ := Option.isSome_iff_exists.mp hport
  obtain ⟨q, hq, -⟩ := hrestart.steps.at hp
  refine ⟨hrestart.moves.trans ((moves_modPtp ..).mono (by decide)), ?_, fun q hq => ?_⟩
  · rw [hq] at hown
    exact congrArg PtpPort.cfg (State.ptp_of_port hown)
  · exact State.ptp_of_portOpt ((hothers q hq).trans (hrestart.others q hq))
theorem ready_port {sp : OpSpec} (h : Ready sp c s = true) (ht : sp.target = tgtPort) : (s.port? (cIdx c)).isSome = true := by
  have htarget := ready_target sp c s h
  simp only [ht, tgtPort, Bool.and_eq_true, State.portOpt_atParse] at htarget
  exact htarget.2
theorem ptpPortSet_does (h : Ready specPtpPortSet c s = true) : Does 0x421 c [] (.ports :: coreParts) (fun t =>
    (t.ptp (cIdx c)).cfg = ptpCfgOf c ∧ (∀ n, n ≠ cIdx c → (t.ptp n).cfg = (s.ptp n).cfg)
    ∧ (ptpCfgOf c = (s.ptp (cIdx c)).cfg → t.ports = s.ports ∧ t.time = s.time)) s (exec (.ptpPortSet c) s) := by
  by_cases hsame : ptpCfgOf c = (s.ptp (cIdx c)).cfg
  · refine does_steps (v := s.atParse 0x421 c) h rfl rfl (if_pos ?_) (.refl ..) (by decide) (fun t ht => ?_)
    · rw [hsame]
      exact congrArg PtpPort.cfg (State.ptp_atParse ..).symm
    · have hfinal := Moves.of_steps ht
      have hptp : ∀ n, t.ptp n = s.ptp n := fun n => (hfinal.ptp n).trans (State.ptp_atParse ..)
      exact ⟨by rw [hptp, hsame], fun n _ => by rw [hptp], fun _ => ⟨hfinal.ports.trans (State.atParse_ports ..), hfinal.time.trans (State.atParse_time ..)⟩⟩
  · obtain ⟨hmove, hown, hothers⟩ := ptpGiven_gives (n := cIdx c) (s := s.atParse 0x421 c)
      (by rw [State.portOpt_atParse]; exact ready_port h rfl) (ptpCfgOf c)
    have hdecide := ptpSteps_bmca ((s.atParse 0x421 c).ptpGiven (cIdx c) (ptpCfgOf c))
    refine does_steps (v := ((s.atParse 0x421 c).ptpGiven (cIdx c) (ptpCfgOf c)).bmca) h rfl rfl (if_neg ?_)
      ((hmove.trans hdecide.moves).mono (by decide)).steps (by decide) (fun t ht => ⟨?_, fun n hn => ?_, fun heq => absurd heq hsame⟩)
    · rw [State.ptp_atParse]
      exact hsame
    · rw [(Moves.of_steps ht).ptp, hdecide.cfg, hown]
    · rw [(Moves.of_steps ht).ptp, hdecide.cfg, hothers n hn, State.ptp_atParse]
theorem ptpPortStatus_reports (h : Ready specPtpPortStatus c s = true) : Reports 0x422 c
    (w1 (s.ptp (cIdx c)).state.code ++ w3 (((s.ptp (cIdx c)).parent.map (·.sender)).getD 0) ++ wi2 (s.ptp (cIdx c)).lastOffset
      ++ [((s.ptp (cIdx c)).rxQl.map (fun x => Config.qlWord x.1 x.2.1)).getD (Config.qlWord 0xF 0xFF),
          Config.qlWord (s.txQl (cIdx c)).1 (s.txQl (cIdx c)).2]) s (exec (.ptpPortStatus c) s) := by
  refine reports_now specPtpPortStatus _ c s _ h rfl rfl rfl ?_
  have htx : (s.atParse 0x422 c).txQl (cIdx c) = s.txQl (cIdx c) := by
    simp only [State.txQl, State.htile_atParse, State.atParse_time]
  have hptp : (s.atParse 0x422 c).ptp (cIdx c) = s.ptp (cIdx c) := State.ptp_atParse ..
  have hcode : specPtpPortStatus.code = 0x422 := rfl
  simp only [hcode, hptp, htx]
  cases (s.ptp (cIdx c)).rxQl <;> rfl
end
end Sys2Proof.Machine
end

section
/-! What PTP and ESMC send, and the frame tap's insertion (O39). -/
-- One after another: a task for each proof would ask for more threads than the memory limit allows.
set_option Elab.async false
namespace Sys2Proof.Machine

/-! ### The tap queue of a port (R291) -/

/-- A port whose tap has been offered a frame. -/
def Port.offered (f : OutFrame) (p : Port) : Port :=
  if p.tap.queue.length < 16 then { p with tap := { p.tap with queue := p.tap.queue ++ [f], refused := false } }
  else { p with tap := { p.tap with refused := true } }
section
variable {f : OutFrame} {p : Port}
theorem Port.offered_room (h : p.tap.queue.length < 16) :
    p.offered f = { p with tap := { p.tap with refused := false, queue := p.tap.queue ++ [f] } } := if_pos h
theorem Port.offered_full (h : 16 ≤ p.tap.queue.length) : p.offered f = { p with tap := { p.tap with refused := true } } :=
  if_neg (by omega)
theorem Port.offered_keeps (f : OutFrame) (p : Port) :
    (p.offered f).ptp = p.ptp ∧ (p.offered f).data = p.data ∧ (p.offered f).tap.sent = p.tap.sent := by
  unfold Port.offered
  split <;> exact ⟨rfl, rfl, rfl⟩
end
/-- A PTP port that has sent one message more in a TAI second (R341). -/
def PtpPort.counting (second : Int) (p : PtpPort) : PtpPort :=
  { p with sentSecond := second, sent := (if p.sentSecond = second then p.sent else 0) + 1 }
section
variable {n purpose : Nat} {stamp : Option Nat} {f : List Octet} {p : Port} {s : State}
/-- A message within the 128 of the second is counted, and offered to the tap. -/
theorem send_sends (hp : s.port? n = some p) (hpurpose : purpose ≠ 5) (hroom : p.ptp.room s = true) :
    Moves [.ports] s (s.send n purpose stamp f) ∧ PortIs n (fun p => ({ p with ptp := p.ptp.counting s.taiSecond } : Port).offered
      { octets := f, stampAt := stamp, purpose := purpose, queuedAt := s.ticks }) s (s.send n purpose stamp f) := by
  have hk : ¬128 ≤ (if (s.ptp n).sentSecond = s.taiSecond then (s.ptp n).sent else 0) := by
    rw [State.ptp_of_port hp]
    simpa [PtpPort.room] using hroom
  have hsend : s.send n purpose stamp f = (s.modPtp n (fun p => { p with
      sentSecond := s.taiSecond, sent := (if (s.ptp n).sentSecond = s.taiSecond then (s.ptp n).sent else 0) + 1 })).tapQueue n
        { octets := f, stampAt := stamp, purpose := purpose, queuedAt := s.ticks } := by
    unfold State.send
    exact (if_neg hpurpose).trans (if_neg hk)
  rw [hsend]
  refine ⟨(moves_modPtp ..).trans (moves_modPort ..), ((portIs_modPtp ..).trans (portIs_modPort n (Port.offered _) _)).congr (fun q hq => ?_)⟩
  rw [State.ptp_of_port hq]
  rfl
theorem send_noRoom (hp : s.port? n = some p) (hpurpose : purpose ≠ 5) (hroom : p.ptp.room s = false) : s.send n purpose stamp f = s := by
  have hk : 128 ≤ (if (s.ptp n).sentSecond = s.taiSecond then (s.ptp n).sent else 0) := by
    rw [State.ptp_of_port hp]
    simpa [PtpPort.room] using hroom
  unfold State.send
  exact (if_neg hpurpose).trans (if_pos hk)
end

/-! ### Messages of a PTP port (R340 to R344) -/

/-- A port with its PTP port changed as `g` says, and one more message, counted, in its tap queue. -/
def Port.sending (g : PtpPort → PtpPort) (second : Int) (f : OutFrame) (p : Port) : Port :=
  { p with ptp := (g p.ptp).counting second, tap := { p.tap with refused := false, queue := p.tap.queue ++ [f] } }
section
variable {n : Fin 384} {p : Port} {s : State}
/-- A row that notes a message on its PTP port and sends it, within the 128 of the second and with a place in the tap queue. -/
theorem happens_sending {i : Instr} {g : PtpPort → PtpPort} {purpose : Nat} {stamp : Option Nat} {f : List Octet}
    {h : Port → Port} (hp : s.port? n = some p) (hplace : p.tap.queue.length < 16) (hroom : p.ptp.room s = true) (hpurpose : purpose ≠ 5)
    (hexec : exec i s = .next ((s.modPtp n g).send n purpose stamp f)) (hg : (g p.ptp).room s = p.ptp.room s)
    (hh : p.sending g s.taiSecond { octets := f, stampAt := stamp, purpose := purpose, queuedAt := s.ticks } = h p) :
    Happens [.ports] (PortIs n h s) s (exec i s) := by
  have hset := portIs_modPtp n g s
  obtain ⟨hmove, hport⟩ := send_sends (stamp := stamp) (f := f) (hset.at hp) hpurpose (hg.trans hroom)
  refine ⟨_, hexec, (hset.trans hport).congr (fun q hq => ?_), ((moves_modPtp ..).trans hmove).steps.only⟩
  obtain rfl : p = q := by rw [hp] at hq; exact Option.some.inj hq
  exact (Port.offered_room (p := { p with ptp := (g p.ptp).counting s.taiSecond }) hplace).trans hh
variable (hp : s.port? n = some p)
include hp
theorem exec_ptpSyncTx (htx : s.ptpIs n .transmitter = true) (hdue : p.ptp.syncAt + logTicks p.ptp.cfg.logSync ≤ s.ticks) :
    exec (.ptpSyncTx n) s = .next ((s.modPtp n (fun p => { p with seqSync := (p.seqSync + 1) % 65536, syncAt := s.ticks })).send n
      (if p.ptp.cfg.twoStep then 2 else 1) (if p.ptp.cfg.twoStep then none else some 48)
      (s.ptpFrame n 0 (if p.ptp.cfg.twoStep then 0x0200 else 0) p.ptp.seqSync 0 p.ptp.cfg.logSync (List.replicate 10 0))) := by
  refine (?_ : execPtpSyncTx n s = _)
  simp only [execPtpSyncTx, State.ptp_of_port hp]
  exact if_pos ⟨htx, hdue⟩
theorem ptpSyncTx_noRoom (hroom : p.ptp.room s = false) (htx : s.ptpIs n .transmitter = true)
    (hdue : p.ptp.syncAt + logTicks p.ptp.cfg.logSync ≤ s.ticks) :
    Completes (exec (.ptpSyncTx n) s) (fun t => ∃ q, t.port? n = some q ∧ q.tap = p.tap) := by
  have hset := (portIs_modPtp n (fun p => { p with seqSync := (p.seqSync + 1) % 65536, syncAt := s.ticks }) s).at hp
  refine ⟨_, exec_ptpSyncTx hp htx hdue, ?_⟩
  rw [send_noRoom hset (by split <;> decide) hroom]
  exact ⟨_, hset, rfl⟩
theorem ptpSyncTx_sends (hplace : p.tap.queue.length < 16) (hroom : p.ptp.room s = true) (htx : s.ptpIs n .transmitter = true)
    (hdue : p.ptp.syncAt + logTicks p.ptp.cfg.logSync ≤ s.ticks) :
    Happens [.ports] (PortIs n (fun p => { p with
      ptp := { p.ptp with
               seqSync := (p.ptp.seqSync + 1) % 65536, syncAt := s.ticks, sentSecond := s.taiSecond
               sent := (if p.ptp.sentSecond = s.taiSecond then p.ptp.sent else 0) + 1 }
      tap := { p.tap with refused := false, queue := p.tap.queue ++ [{
        octets := s.ptpFrame n 0 (if p.ptp.cfg.twoStep then 0x0200 else 0) p.ptp.seqSync 0 p.ptp.cfg.logSync (List.replicate 10 0)
        stampAt := if p.ptp.cfg.twoStep then none else some 48, purpose := if p.ptp.cfg.twoStep then 2 else 1
        queuedAt := s.ticks }] } }) s) s (exec (.ptpSyncTx n) s) :=
  happens_sending hp hplace hroom (by split <;> decide) (exec_ptpSyncTx hp htx hdue) rfl rfl
theorem ptpAnnounceTx_sends (hplace : p.tap.queue.length < 16) (hroom : p.ptp.room s = true) (htx : s.ptpIs n .transmitter = true)
    (hdue : p.ptp.announceAt + logTicks p.ptp.cfg.logAnnounce ≤ s.ticks) :
    Happens [.ports] (PortIs n (fun p => { p with
      ptp := { p.ptp with
               seqAnnounce := (p.ptp.seqAnnounce + 1) % 65536, announceAt := s.ticks, sentSecond := s.taiSecond
               sent := (if p.ptp.sentSecond = s.taiSecond then p.ptp.sent else 0) + 1 }
      tap := { p.tap with refused := false, queue := p.tap.queue ++ [{
        octets := s.ptpFrame n 0xB s.announceFlags p.ptp.seqAnnounce 0 p.ptp.cfg.logAnnounce (s.announceBody n)
        stampAt := none, purpose := 0, queuedAt := s.ticks }] } }) s) s (exec (.ptpAnnounceTx n) s) := by
  have hexec : exec (.ptpAnnounceTx n) s = .next ((s.modPtp n (fun p => { p with
      seqAnnounce := (p.seqAnnounce + 1) % 65536, announceAt := s.ticks })).send n 0 none
      (s.ptpFrame n 0xB s.announceFlags p.ptp.seqAnnounce 0 p.ptp.cfg.logAnnounce (s.announceBody n))) := by
    refine (?_ : execPtpAnnounceTx n s = _)
    simp only [execPtpAnnounceTx, State.ptp_of_port hp]
    exact if_pos ⟨htx, hdue⟩
  exact happens_sending hp hplace hroom (by decide) hexec rfl rfl
theorem ptpDelayReqTx_sends (hplace : p.tap.queue.length < 16) (hroom : p.ptp.room s = true)
    (hrx : s.ptpIs n .receiver = true ∨ s.ptpIs n .uncalibrated = true) (hdue : p.ptp.delayAt + logTicks p.ptp.cfg.logDelayReq ≤ s.ticks) :
    Happens [.ports] (PortIs n (fun p => { p with
      ptp := { p.ptp with
               seqDelay := (p.ptp.seqDelay + 1) % 65536, delayAt := s.ticks, delayWait := some (p.ptp.seqDelay, none), sentSecond := s.taiSecond
               sent := (if p.ptp.sentSecond = s.taiSecond then p.ptp.sent else 0) + 1 }
      tap := { p.tap with refused := false, queue := p.tap.queue ++ [{
        octets := s.ptpFrame n 1 0 p.ptp.seqDelay (-(psUnits p.ptp.cfg.asym)) 0x7F (List.replicate 10 0)
        stampAt := none, purpose := 3, queuedAt := s.ticks }] } }) s) s (exec (.ptpDelayReqTx n) s) := by
  have hexec : exec (.ptpDelayReqTx n) s = .next ((s.modPtp n (fun p => { p with
      seqDelay := (p.seqDelay + 1) % 65536, delayAt := s.ticks, delayWait := some (p.seqDelay, none) })).send n 3 none
      (s.ptpFrame n 1 0 p.ptp.seqDelay (-(psUnits p.ptp.cfg.asym)) 0x7F (List.replicate 10 0))) := by
    refine (?_ : execPtpDelayReqTx n s = _)
    simp only [execPtpDelayReqTx, State.ptp_of_port hp]
    exact if_pos ⟨hrx, hdue⟩
  exact happens_sending hp hplace hroom (by decide) hexec rfl rfl

/-! ### ESMC (R337, R338) -/

/-- A PTP port that has sent a QL in an information or an event PDU. -/
def PtpPort.qlSent (event : Bool) (ql : Nat × Nat) (now : Nat) (p : PtpPort) : PtpPort :=
  { p with txQl := ql, eventQl := if event then ql else p.eventQl, esmcAt := if event then p.esmcAt else now }
omit hp in
/-- The PDU that carries the present QL. -/
def State.esmcPdu (n : Nat) (event : Bool) (s : State) : OutFrame :=
  { octets := s.esmcFrame n event (s.txQl n), stampAt := none, purpose := 5, queuedAt := s.ticks }
/-- A PDU is offered to the tap and its QL noted; a changed QL is told. -/
theorem esmcSend_sends (event : Bool) : Moves (.ports :: eventParts) s (s.esmcSend n event)
    ∧ PortIs n (fun p => { p.offered (s.esmcPdu n event) with ptp := p.ptp.qlSent event (s.txQl n) s.ticks }) s (s.esmcSend n event)
    ∧ (s.txQl n ≠ p.ptp.txQl → Raised .esmcQlChange .port n
        (w1 0 ++ [Config.qlWord p.ptp.txQl.1 p.ptp.txQl.2, Config.qlWord (s.txQl n).1 (s.txQl n).2]) s.tn (s.esmcSend n event)) := by
  have hsend : s.esmcSend n event = if p.ptp.txQl = s.txQl n then
        (s.modPort n (.offered (s.esmcPdu n event))).modPtp n (.qlSent event (s.txQl n) s.ticks)
      else ((s.modPort n (.offered (s.esmcPdu n event))).modPtp n (.qlSent event (s.txQl n) s.ticks)).raise .esmcQlChange .port n
        (w1 0 ++ [Config.qlWord p.ptp.txQl.1 p.ptp.txQl.2, Config.qlWord (s.txQl n).1 (s.txQl n).2]) := by
    unfold State.esmcSend
    simp only [State.ptp_of_port hp]
    rfl
  have hset : Moves [.ports] s ((s.modPort n (.offered (s.esmcPdu n event))).modPtp n (.qlSent event (s.txQl n) s.ticks)) :=
    (moves_modPort ..).trans (moves_modPtp ..)
  have hport : PortIs n (fun p => { p.offered (s.esmcPdu n event) with ptp := p.ptp.qlSent event (s.txQl n) s.ticks }) s
      ((s.modPort n (.offered (s.esmcPdu n event))).modPtp n (.qlSent event (s.txQl n) s.ticks)) :=
    ((portIs_modPort n (.offered (s.esmcPdu n event)) s).trans (portIs_modPtp ..)).congr (fun q _ => by
      simp only [Function.comp, (Port.offered_keeps (s.esmcPdu n event) q).1])
  rw [hsend]
  generalize (s.modPort n _).modPtp n _ = u at *
  have htell := moves_raise .esmcQlChange .port n
    (w1 0 ++ [Config.qlWord p.ptp.txQl.1 p.ptp.txQl.2, Config.qlWord (s.txQl n).1 (s.txQl n).2]) u
  refine ⟨moves_ite (hset.mono (by decide)) ((hset.mono (by decide)).trans (htell.mono (by decide))), ?_, fun hchange => ?_⟩
  · split
    exacts [hport, hport.of_same rfl htell.ports]
  · rw [if_neg (Ne.symm hchange)]
    exact raised_raise_tn hset.tn
theorem exec_esmcTx {event : Bool} (hon : s.esmcOn n = true)
    (hdue : if event then s.txQl n ≠ p.ptp.eventQl else p.ptp.esmcAt + secTicks ≤ s.ticks) :
    (if event then exec (.esmcEventTx n) s else exec (.esmcInfoTx n) s) = .next (s.esmcSend n event) := by
  cases event with
  | true =>
    refine (?_ : execEsmcEventTx n s = _)
    exact if_pos ⟨hon, by rw [State.ptp_of_port hp]; exact hdue⟩
  | false =>
    refine (?_ : execEsmcInfoTx n s = _)
    exact if_pos ⟨hon, by rw [State.ptp_of_port hp]; exact hdue⟩
/-- A full queue answers the queue-full status. -/
theorem esmcInfoTx_refused (hfull : 16 ≤ p.tap.queue.length) (hon : s.esmcOn n = true) (hdue : p.ptp.esmcAt + secTicks ≤ s.ticks) :
    Completes (exec (.esmcInfoTx n) s) (fun t => ∃ q, t.port? n = some q ∧ q.tap = { p.tap with refused := true }) := by
  obtain ⟨-, hport, -⟩ := esmcSend_sends hp false
  exact ⟨_, exec_esmcTx (event := false) hp hon hdue, _, hport.at hp, by rw [Port.offered_full hfull]⟩
theorem esmcTx_sends (hplace : p.tap.queue.length < 16) (event : Bool) (hon : s.esmcOn n = true)
    (hdue : if event then s.txQl n ≠ p.ptp.eventQl else p.ptp.esmcAt + secTicks ≤ s.ticks) :
    Happens (.ports :: eventParts) (fun t => PortIs n (fun p => { p with
        ptp := { p.ptp with
                          txQl := s.txQl n, eventQl := if event then s.txQl n else p.ptp.eventQl
                          esmcAt := if event then p.ptp.esmcAt else s.ticks }
        tap := { p.tap with refused := false, queue := p.tap.queue ++ [{
          octets := s.esmcFrame n event (s.txQl n), stampAt := none, purpose := 5, queuedAt := s.ticks }] } }) s t
      ∧ (s.txQl n ≠ p.ptp.txQl → Raised .esmcQlChange .port n
          (w1 0 ++ [Config.qlWord p.ptp.txQl.1 p.ptp.txQl.2, Config.qlWord (s.txQl n).1 (s.txQl n).2]) s.tn t)) s
      (if event then exec (.esmcEventTx n) s else exec (.esmcInfoTx n) s) := by
  obtain ⟨hmove, hport, hraised⟩ := esmcSend_sends hp event
  refine ⟨_, exec_esmcTx hp hon hdue, ⟨hport.congr (fun q hq => ?_), hraised⟩, hmove.steps.only⟩
  obtain rfl : p = q := by rw [hp] at hq; exact Option.some.inj hq
  rw [Port.offered_room hplace]
  rfl
end

/-! ### The frame tap's insertion (R291, R292) -/

/-- What a frame becomes with its egress stamp written in. -/
def OutFrame.stamped (f : OutFrame) (stamp : Int) : List Octet :=
  match f.stampAt with | some k => overwrite f.octets k (ptpStamp stamp) | none => f.octets
/-- A port whose tap has sent a frame at the egress stamp. -/
def Port.tapSent (f : OutFrame) (rest : List OutFrame) (stamp : Int) (p : Port) : Port :=
  { p with
    tap := { p.tap with queue := rest, sent := some (f.stamped stamp ++ octetsLE 4 (crc32 (f.stamped stamp)), stamp) }
    data := { p.data with inserted := p.data.inserted ++ (List.range (((f.stamped stamp).length + 43) / 32)).map (fun i =>
      some (Config.frameBlock (f.stamped stamp ++ octetsLE 4 (crc32 (f.stamped stamp))) i)) } }
/-- What the egress stamp of a frame brings to its port: a two-step Sync its Follow_Up, a Delay_Req its t3. -/
theorem ptpSent_brings {n : Nat} {p : Port} {s : State} (hp : s.port? n = some p) (f : OutFrame) (stamp : Int) :
    Moves [.ports] s (s.ptpSent n f stamp) ∧ (∀ q, q ≠ n → (s.ptpSent n f stamp).port? q = s.port? q)
    ∧ ∃ q, (s.ptpSent n f stamp).port? n = some q ∧ q.tap.sent = p.tap.sent ∧ q.data = p.data
      ∧ (f.purpose ≠ 2 → q.tap.queue = p.tap.queue)
      ∧ (f.purpose = 2 → p.ptp.room s = true → p.tap.queue.length < 16 → ∃ g, q.tap.queue = p.tap.queue ++ [g] ∧ g.purpose = 4)
      ∧ (f.purpose = 3 → p.ptp.delayWait = some (at_ (ptpBody f.octets) 30 2, none) →
        q.ptp.delayWait = some (at_ (ptpBody f.octets) 30 2, some stamp)) := by
  unfold State.ptpSent
  dsimp only
  by_cases hsync : f.purpose = 2
  · rw [if_pos hsync]
    cases hroom : p.ptp.room s with
    | true =>
      obtain ⟨hmove, hport⟩ := send_sends (purpose := 4) (stamp := none)
        (f := s.ptpFrame n 8 0 (at_ (ptpBody f.octets) 30 2) 0 (s.ptp n).cfg.logSync (ptpStamp stamp)) hp (by decide) hroom
      obtain ⟨-, hdata, hsent⟩ := Port.offered_keeps { octets := _, stampAt := none, purpose := 4, queuedAt := s.ticks }
        ({ p with ptp := p.ptp.counting s.taiSecond } : Port)
      refine ⟨hmove, hport.2, _, hport.at hp, hsent, hdata, fun hno => absurd hsync hno, fun _ _ hplace => ?_, fun h => by omega⟩
      rw [Port.offered_room (p := { p with ptp := p.ptp.counting s.taiSecond }) hplace]
      exact ⟨_, rfl, rfl⟩
    | false =>
      rw [send_noRoom hp (by decide) hroom]
      exact ⟨.refl .., fun _ _ => rfl, p, hp, rfl, rfl, fun _ => rfl, fun _ hyes => by simp at hyes, fun h => by omega⟩
  · rw [if_neg hsync]
    by_cases hreq : f.purpose = 3
    · rw [if_pos hreq]
      have hport := portIs_modPtp n (fun p => { p with delayWait := match p.delayWait with
        | some (q, _) => if q = at_ (ptpBody f.octets) 30 2 then some (q, some stamp) else p.delayWait | none => none }) s
      refine ⟨moves_modPtp .., hport.2, _, hport.at hp, rfl, rfl, fun _ => rfl, fun h => absurd h hsync, fun _ hwait => ?_⟩
      simp only [hwait, if_true]
    · rw [if_neg hreq]
      exact ⟨.refl .., fun _ _ => rfl, p, hp, rfl, rfl, fun _ => rfl, fun h => absurd h hsync, fun h => absurd h hreq⟩
theorem tapFrameInsert_inserts {n : Fin 384} {s : State} {p : Port} (hp : s.port? n = some p) (hplace : p.tap.queue.length < 16) {f : OutFrame}
    {rest : List OutFrame} {sub : Nat} {stamp : Int} (hstamp : stamp = s.nowTai + sub + p.txDelay) (hqueue : p.tap.queue = f :: rest)
    (hup : p.state = .up) (hhalf : p.data.egress.length ≤ 1024) :
    Happens [.ports] (fun t => (∀ q, q ≠ n.val → t.port? q = s.port? q) ∧ ∃ q, t.port? n = some q
      ∧ (∀ k, f.stampAt = some k → q.tap.sent = some (overwrite f.octets k (ptpStamp stamp)
          ++ octetsLE 4 (crc32 (overwrite f.octets k (ptpStamp stamp))), stamp))
      ∧ (f.stampAt = none → q.tap.sent = some (f.octets ++ octetsLE 4 (crc32 f.octets), stamp))
      ∧ (f.purpose ≠ 2 → q.tap.queue = rest) ∧ (f.purpose = 2 → p.ptp.room s = true → ∃ g, q.tap.queue = rest ++ [g] ∧ g.purpose = 4)
      ∧ (f.purpose = 3 → p.ptp.delayWait = some (at_ (ptpBody f.octets) 30 2, none) →
        q.ptp.delayWait = some (at_ (ptpBody f.octets) 30 2, some stamp))
      ∧ (f.stampAt = none → q.data.inserted.length = p.data.inserted.length + (f.octets.length + 43) / 32)) s
      (exec (.tapFrameInsert n sub) s) := by
  have hexec : exec (.tapFrameInsert n sub) s = .next ((s.modPort n (.tapSent f rest stamp)).ptpSent n f stamp) := by
    refine (?_ : execTapFrameInsert n sub s = _)
    simp only [execTapFrameInsert, hp, hqueue, ← hstamp]
    exact if_neg (by simp [hup, hhalf])
  obtain ⟨hown, hothers⟩ := portIs_modPort n (.tapSent f rest stamp) s
  rw [hp] at hown
  obtain ⟨hmove, hne, q, hq, hsent, hdata, hrest, hfollow, hdelay⟩ := ptpSent_brings hown f stamp
  have hshort : rest.length < 16 := by
    rw [hqueue, List.length_cons] at hplace
    omega
  refine ⟨_, hexec, ⟨fun j hj => (hne j hj).trans (hothers j hj), q, hq, fun k hk => ?_, fun hk => ?_, hrest,
    fun h2 hroom => hfollow h2 hroom hshort, hdelay, fun hk => ?_⟩, ((moves_modPort ..).trans hmove).steps.only⟩
  · rw [hsent]
    simp only [Port.tapSent, OutFrame.stamped, hk]
  · rw [hsent]
    simp only [Port.tapSent, OutFrame.stamped, hk]
  · rw [hdata]
    simp only [Port.tapSent, OutFrame.stamped, hk, List.length_append, List.length_map, List.length_range]

/-- Settles O39: the commands set their part at once, and each row that sends is the step it makes where its condition holds. -/
theorem ptpCommandsAndSending : Obligations.PtpCommandsAndSending :=
  ⟨fun _ _ => ⟨portTapSet_does, ptpClockSet_does, ptpPortSet_does, ptpPortStatus_reports⟩, fun _ _ _ hp =>
    ⟨esmcInfoTx_refused hp, ptpSyncTx_noRoom hp, fun hplace => ⟨ptpSyncTx_sends hp hplace, ptpAnnounceTx_sends hp hplace,
      ptpDelayReqTx_sends hp hplace, esmcTx_sends hp hplace, fun _ _ _ _ => tapFrameInsert_inserts hp hplace⟩⟩⟩
end Sys2Proof.Machine
end

section
/-! What PTP and ESMC receive (O40). -/
-- One after another: a task for each proof would ask for more threads than the memory limit allows.
set_option Elab.async false
namespace Sys2Proof.Machine

/-! ### Messages (R340 to R342) -/

/-- A PTP port that has taken one message more of the second that runs. -/
def PtpPort.heard (p : PtpPort) : PtpPort := { p with received := p.received + 1 }
/-- The waiting frame of a port taken out of its host tile's queue, and noted in the second that runs. -/
def State.messageTaken (n : Nat) (rest : List (Nat × Bool × List Octet × Int)) (s : State) : State :=
  (s.modHtile (n / 96) (fun h => { h with waiting := rest })).modPtp n (fun q => { q with
    second := s.taiSecond, received := (if (s.ptp n).second = s.taiSecond then (s.ptp n).received else 0) + 1 })
section
variable {n : Fin 384} {s : State} {p : Port} (hp : s.port? n = some p) (hup : s.fwUp = true) {f : List Octet} {stamp : Int}
  {rest : List (Nat × Bool × List Octet × Int)}
theorem waiting_modHtile (n : Fin 384) (s : State) (rest : List (Nat × Bool × List Octet × Int)) :
    ((s.modHtile (n / 96) (fun h => { h with waiting := rest })).htile (n / 96)).waiting = rest := by
  rw [State.htile_modHtile_same _ _ _ (Nat.div_lt_of_lt_mul n.isLt)]
include hp
theorem messageTaken_takes (hsecond : p.ptp.second = s.taiSecond) : Moves [.ports, .htiles] s (s.messageTaken n rest)
    ∧ PortIs n (fun p => { p with ptp := p.ptp.heard }) s (s.messageTaken n rest)
    ∧ ((s.messageTaken n rest).htile (n / 96)).waiting = rest := by
  have htake := moves_modHtile (n / 96) (fun h => { h with waiting := rest }) s
  have hptp := State.ptp_of_port hp
  refine ⟨(htake.mono (by decide)).trans ((moves_modPtp ..).mono (by decide)), ?_, ?_⟩
  · refine ((portIs_modPtp ..).of_same (s' := s) htake.ports rfl).congr (fun q hq => ?_)
    obtain rfl : p = q := by rw [hp] at hq; exact Option.some.inj hq
    simp only [hptp, hsecond, if_true, PtpPort.heard]
  · exact waiting_modHtile n s rest
include hup
theorem exec_ptpMessageRx (htake : takeWaiting n false (s.htile (n / 96)).waiting = (some (f, stamp), rest)) (hprofile : p.ptp.cfg.profile ≠ 0)
    (hsecond : p.ptp.second = s.taiSecond) : exec (.ptpMessageRx n) s = .next (
      if 128 ≤ p.ptp.received then (s.messageTaken n rest).count .ptpRxDrop .port n 1
      else (s.messageTaken n rest).onMessage n (ptpBody f) stamp) := by
  refine (?_ : execPtpMessageRx n s = _)
  have hptp : (s.modHtile (n / 96) (fun h => { h with waiting := rest })).ptp n = s.ptp n := (moves_modHtile ..).ptp n
  have hnum : (if (s.ptp n).second = s.taiSecond then (s.ptp n).received else 0) = p.ptp.received := by
    rw [State.ptp_of_port hp]
    exact if_pos hsecond
  unfold execPtpMessageRx
  rw [if_neg (by simp [hup])]
  simp only [htake, hptp]
  rw [if_neg (by rw [State.ptp_of_port hp]; exact hprofile)]
  refine Eq.trans ?_ (apply_ite Host.Outcome.next _ _ _).symm
  rw [← hnum]
  rfl
theorem ptpMessageRx_drops (htake : takeWaiting n false (s.htile (n / 96)).waiting = (some (f, stamp), rest)) (hprofile : p.ptp.cfg.profile ≠ 0)
    (hsecond : p.ptp.second = s.taiSecond) (hmany : 128 ≤ p.ptp.received) : Happens [.ports, .htiles, .happened] (fun t =>
      PortIs n (fun p => { p with ptp := { p.ptp with received := p.ptp.received + 1 } }) s t
      ∧ (t.htile (n / 96)).waiting = rest ∧ Counted .ptpRxDrop .port n 1 t) s (exec (.ptpMessageRx n) s) := by
  have hexec := exec_ptpMessageRx hp hup htake hprofile hsecond
  rw [if_pos hmany] at hexec
  obtain ⟨hmove, hport, hwaiting⟩ := messageTaken_takes (rest := rest) hp hsecond
  have hcount := moves_count .ptpRxDrop .port n 1 (s.messageTaken n rest)
  exact ⟨_, hexec, ⟨hport.of_same rfl hcount.ports, (congrArg (fun v => (vget v (n / 96) HostTile.reset).waiting) hcount.htiles).trans hwaiting,
    (counted_count _ _ _ _ _ (by decide)).1⟩, ((hmove.mono (by decide)).trans (hcount.mono (by decide))).steps.only⟩
/-- A message within the 128 of its second is read. -/
theorem exec_ptpMessageRx_read (htake : takeWaiting n false (s.htile (n / 96)).waiting = (some (f, stamp), rest))
    (hprofile : p.ptp.cfg.profile ≠ 0) (hsecond : p.ptp.second = s.taiSecond) (hfew : p.ptp.received < 128) :
    exec (.ptpMessageRx n) s = .next ((s.messageTaken n rest).onMessage n (ptpBody f) stamp) := by
  rw [exec_ptpMessageRx hp hup htake hprofile hsecond, if_neg (by omega)]
end
/-- A Sync of the parent: a one-step one is the exchange's t1 and t2, a two-step one waits for its Follow_Up. -/
def PtpPort.synced (m : List Octet) (stamp : Int) (p : PtpPort) : PtpPort :=
  if bit (at_ m 6 1) 1 then { p with syncWait := some (at_ m 30 2, stamp, correction m) }
  else { p with sync := some (stampAt m 34 + correction m, stamp), syncWait := none }
theorem PtpPort.synced_oneStep {m : List Octet} (h : bit (at_ m 6 1) 1 = false) (stamp : Int) (p : PtpPort) :
    p.synced m stamp = { p with sync := some (stampAt m 34 + correction m, stamp), syncWait := none } := if_neg (by simp [h])
theorem PtpPort.synced_twoStep {m : List Octet} (h : bit (at_ m 6 1) 1 = true) (stamp : Int) (p : PtpPort) :
    p.synced m stamp = { p with syncWait := some (at_ m 30 2, stamp, correction m) } := if_pos h
section
variable {n : Nat} {m : List Octet} {stamp : Int} {s : State} (hdomain : at_ m 4 1 = (s.ptp n).cfg.domain) (hversion : at_ m 1 1 % 16 = 2)
include hdomain hversion
theorem onMessage_sync (hkind : at_ m 0 1 % 16 = 0) (hparent : (s.ptp n).fromParent m = true) :
    s.onMessage n m stamp = s.modPtp n (.synced m stamp) := by
  unfold State.onMessage
  dsimp only
  rw [if_neg (by simp [hdomain, hversion])]
  simp only [hkind, hparent, if_true]
  unfold PtpPort.synced
  split <;> rfl
theorem onMessage_unsupported (hkind : at_ m 0 1 % 16 ∉ [0, 1, 8, 9, 11]) : s.onMessage n m stamp = s.count .ptpRxUnsupp .port n 1 := by
  simp only [List.mem_cons, List.not_mem_nil, or_false, not_or] at hkind
  obtain ⟨h0, h1, h8, h9, h11⟩ := hkind
  unfold State.onMessage
  dsimp only
  rw [if_neg (by simp [hdomain, hversion])]
  split
  next h => exact absurd h h0
  next h => exact absurd h h8
  next h => exact absurd h h1
  next h => exact absurd h h9
  next h => exact absurd h h11
  next => rfl
end
section
variable {n : Fin 384} {s : State} {p : Port} (hp : s.port? n = some p) (hup : s.fwUp = true) {f : List Octet} {stamp : Int}
  {rest : List (Nat × Bool × List Octet × Int)} (htake : takeWaiting n false (s.htile (n / 96)).waiting = (some (f, stamp), rest))
  (hprofile : p.ptp.cfg.profile ≠ 0) (hsecond : p.ptp.second = s.taiSecond) (hfew : p.ptp.received < 128)
  (hdomain : at_ (ptpBody f) 4 1 = p.ptp.cfg.domain) (hversion : at_ (ptpBody f) 1 1 % 16 = 2)
include hp hup htake hprofile hsecond hfew hdomain hversion
theorem ptpMessageRx_sync (hkind : at_ (ptpBody f) 0 1 % 16 = 0) (hparent : p.ptp.fromParent (ptpBody f) = true) :
    Happens [.ports, .htiles] (fun t => PortIs n (fun p => { p with ptp := p.ptp.heard.synced (ptpBody f) stamp }) s t
      ∧ (t.htile (n / 96)).waiting = rest) s (exec (.ptpMessageRx n) s) := by
  obtain ⟨hmove, hport, hwaiting⟩ := messageTaken_takes (rest := rest) hp hsecond
  have hptp := State.ptp_of_port (hport.at hp)
  refine ⟨_, exec_ptpMessageRx_read hp hup htake hprofile hsecond hfew, ?_⟩
  rw [onMessage_sync (by rw [hptp]; exact hdomain) hversion hkind (by rw [hptp]; exact hparent)]
  exact ⟨⟨hport.trans (portIs_modPtp ..), hwaiting⟩, (hmove.trans ((moves_modPtp ..).mono (by decide))).steps.only⟩
theorem ptpMessageRx_unsupported (hkind : at_ (ptpBody f) 0 1 % 16 ∉ [0, 1, 8, 9, 11]) : Happens [.ports, .htiles, .happened] (fun t =>
    PortIs n (fun p => { p with ptp := { p.ptp with received := p.ptp.received + 1 } }) s t
    ∧ (t.htile (n / 96)).waiting = rest ∧ Counted .ptpRxUnsupp .port n 1 t) s (exec (.ptpMessageRx n) s) := by
  obtain ⟨hmove, hport, hwaiting⟩ := messageTaken_takes (rest := rest) hp hsecond
  have hptp := State.ptp_of_port (hport.at hp)
  have hcount := moves_count .ptpRxUnsupp .port n 1 (s.messageTaken n rest)
  refine ⟨_, exec_ptpMessageRx_read hp hup htake hprofile hsecond hfew, ?_⟩
  rw [onMessage_unsupported (by rw [hptp]; exact hdomain) hversion hkind]
  exact ⟨⟨hport.of_same rfl hcount.ports, (congrArg (fun v => (vget v (n / 96) HostTile.reset).waiting) hcount.htiles).trans hwaiting,
    (counted_count _ _ _ _ _ (by decide)).1⟩, ((hmove.mono (by decide)).trans (hcount.mono (by decide))).steps.only⟩
end

/-! ### The receipt timeout (R339) -/

theorem State.bestOn_noForeign {n : Nat} {s : State} (h : (s.ptp n).foreign = []) : s.bestOn n = none := by
  simp only [State.bestOn, h, List.filter_nil, List.map_nil, List.foldl_nil]
/-- The decision leaves a transmitter that hears no other as it is. -/
theorem ptpDecide_alone {n : Nat} {s : State} (hstate : (s.ptp n).state = .transmitter) (halone : (s.ptp n).foreign = []) :
    s.ptpDecide n = s := by
  unfold State.ptpDecide
  simp only [State.bestOn_noForeign halone, State.ptpTo_same hstate, hstate]
  split <;> rfl
theorem bmca_alone {n : Nat} {s : State} (hstate : (s.ptp n).state = .transmitter) (halone : (s.ptp n).foreign = []) :
    s.bmca.port? n = s.port? n := by
  rw [State.bmca_eq]
  refine List.foldlRecOn (motive := fun u : State => u.port? n = s.port? n) s.ptpPorts _ rfl (fun u hu m _ => ?_)
  by_cases hm : n = m
  · subst hm
    have hptp := State.ptp_of_portOpt hu
    rw [ptpDecide_alone (by rw [hptp]; exact hstate) (by rw [hptp]; exact halone)]
    exact hu
  · exact ((ptpAt_ptpDecide m u).others n hm).trans hu
theorem State.ptp_modPtp {n : Nat} {s : State} {p : Port} (hp : s.port? n = some p) (f : PtpPort → PtpPort) :
    (s.modPtp n f).ptp n = f p.ptp := State.ptp_of_port ((portIs_modPtp n f s).at hp)
/-- A change of state turns its port, and is told. -/
theorem ptpTo_turns {n : Nat} {st : PtpState} {s : State} {p : Port} (hp : s.port? n = some p) (hst : p.ptp.state ≠ st) :
    (s.ptpTo n st).ptp n = p.ptp.turned st s.ticks
    ∧ Raised .ptpPortState .port n (w1 p.ptp.state.code ++ w1 st.code ++ w2 s.tn) s.tn (s.ptpTo n st) := by
  have hptp := State.ptp_of_port hp
  have htell : Moves eventParts (s.modPtp n (.turned st s.ticks)) (s.turned n st) := moves_raise ..
  have hturn : (s.turned n st).ptp n = p.ptp.turned st s.ticks := (htell.ptp n).trans (State.ptp_modPtp hp _)
  have hraised : Raised .ptpPortState .port n (w1 (s.ptp n).state.code ++ w1 st.code ++ w2 s.tn) s.tn (s.turned n st) := raised_raise_tn rfl
  have hdis := moves_disqualify (.port n) .condition (s.turned n st)
  rw [hptp] at hraised
  rw [State.ptpTo_eq (by rw [hptp]; exact hst)]
  split
  exacts [⟨(hdis.ptp n).trans hturn, hdis.raised hraised⟩, ⟨hturn, hraised⟩]
/-- A PTP port that has lost its parent. -/
def PtpPort.parentLost (p : PtpPort) : PtpPort :=
  { p with foreign := p.foreign.filter (fun f => p.parent.all (fun a => a.sender != f.ann.sender)), parent := none }
/-- The states in which a port waits for Announces. -/
def PtpState.waits (st : PtpState) : Bool := st == .listening || st == .receiver || st == .uncalibrated || st == .passive
section
variable {n : Fin 384} {s : State} {p : Port} (hp : s.port? n = some p)
  (halone : p.ptp.foreign.filter (fun f => p.ptp.parent.all (fun a => a.sender != f.ann.sender)) = [])
include hp halone
/-- No Announce has come in time, and no other time transmitter is heard: the port transmits. -/
theorem exec_announceReceiptTimeout (hup : s.fwUp = true) (hprofile : p.ptp.cfg.profile ≠ 0) (hwaits : p.ptp.state.waits = true)
    (hdue : p.ptp.heardAt + p.ptp.cfg.timeout * logTicks p.ptp.cfg.logAnnounce ≤ s.ticks) :
    exec (.announceReceiptTimeout n) s = .next ((s.modPtp n .parentLost).ptpTo n .transmitter).bmca := by
  refine (?_ : execAnnounceReceiptTimeout n s = _)
  have hbest : (s.modPtp n .parentLost).bestOn n = none := State.bestOn_noForeign (by rw [State.ptp_modPtp hp]; exact halone)
  unfold execAnnounceReceiptTimeout
  dsimp only
  rw [if_pos (by rw [State.ptp_of_port hp]; exact ⟨hup, hprofile, hwaits, hdue⟩)]
  exact congrArg (fun u : State => Host.Outcome.next u.bmca) (if_pos (Option.isNone_iff_eq_none.mpr hbest))
theorem announceReceiptTimeout_transmits (hup : s.fwUp = true) (hprofile : p.ptp.cfg.profile ≠ 0)
    (hstate : p.ptp.state = .listening ∨ p.ptp.state = .receiver ∨ p.ptp.state = .uncalibrated ∨ p.ptp.state = .passive)
    (hdue : p.ptp.heardAt + p.ptp.cfg.timeout * logTicks p.ptp.cfg.logAnnounce ≤ s.ticks) :
    Happens (.ports :: coreParts) (fun t => (t.ptp n).state = .transmitter ∧ (t.ptp n).parent = none ∧ (t.ptp n).foreign = []
      ∧ Raised .ptpPortState .port n (w1 p.ptp.state.code ++ w1 6 ++ w2 s.tn) s.tn t) s (exec (.announceReceiptTimeout n) s) := by
  have hwaits : p.ptp.state.waits = true ∧ p.ptp.state ≠ .transmitter := by rcases hstate with h | h | h | h <;> rw [h] <;> decide
  have hset := moves_modPtp n .parentLost s
  obtain ⟨hptp, hraised⟩ := ptpTo_turns (st := .transmitter) ((portIs_modPtp n .parentLost s).at hp) hwaits.2
  have hturn := (ptpAt_ptpTo n (s.modPtp n .parentLost) .transmitter).moves
  have hexec := exec_announceReceiptTimeout hp halone hup hprofile hwaits.1 hdue
  generalize (s.modPtp n .parentLost).ptpTo n .transmitter = u at *
  have hdecide := ptpSteps_bmca u
  have hsame := State.ptp_of_portOpt (bmca_alone (s := u) (n := n) (by rw [hptp]; rfl) (by rw [hptp]; exact halone))
  refine ⟨_, hexec, ?_, (((hset.mono (by decide)).trans (hturn.mono (by decide))).trans (hdecide.moves.mono (by decide))).steps.only⟩
  beta_reduce
  rw [hsame, hptp]
  exact ⟨rfl, rfl, halone, hdecide.moves.raised hraised⟩
end

/-! ### The end of a measurement period (R343) -/

/-- A PTP port at the end of its measurement period. -/
def PtpPort.periodEnded (void : Bool) (now : Nat) (p : PtpPort) : PtpPort :=
  { p with offSum := 0, offCount := 0, measAt := now, voidAt := if void then some now else p.voidAt }
/-- Fewer than half of the expected exchanges have completed. -/
def PtpPort.periodVoid (p : PtpPort) : Bool :=
  decide (2 * p.offCount < logTicks p.cfg.meas / max (logTicks p.cfg.logSync) (logTicks p.cfg.logDelayReq)) || p.offCount == 0
section
variable {n : Fin 384} {s : State} {p : Port} (hp : s.port? n = some p) (hup : s.fwUp = true) (hstate : p.ptp.state = .receiver)
  (hdue : p.ptp.measAt + logTicks p.ptp.cfg.meas ≤ s.ticks)
include hp hup hstate hdue
theorem exec_ptpMeasPeriodEnd : exec (.ptpMeasPeriodEnd n) s = .next (
    let u := s.modPtp n (.periodEnded p.ptp.periodVoid s.ticks)
    if p.ptp.periodVoid then (u.count .ptpVoid .port n 1).disqualify (.port n) .condition
    else if s.time.selected = some (.port n.val) then
      u.modTime (fun t => { t with meas := some (.port n, roundDiv p.ptp.offSum (2 * p.ptp.offCount)) })
    else u) := by
  refine (?_ : execPtpMeasPeriodEnd n s = _)
  simp only [execPtpMeasPeriodEnd, State.ptp_of_port hp]
  rw [if_pos ⟨hup, hstate, hdue⟩]
  refine Eq.trans ?_ (apply_ite Host.Outcome.next _ _ _).symm
  exact ite_congr rfl (fun _ => rfl) (fun _ => (apply_ite Host.Outcome.next _ _ _).symm)
variable {expected : Nat} (hexpected : expected = logTicks p.ptp.cfg.meas / max (logTicks p.ptp.cfg.logSync) (logTicks p.ptp.cfg.logDelayReq))
include hexpected
theorem ptpMeasPeriodEnd_delivers (henough : expected ≤ 2 * p.ptp.offCount) (hsome : p.ptp.offCount ≠ 0) : Happens [.ports, .time] (fun t =>
    PortIs n (fun p => { p with ptp := { p.ptp with offSum := 0, offCount := 0, measAt := s.ticks } }) s t
    ∧ (s.time.selected = some (.port n.val) →
      t.time = { s.time with meas := some (.port n, roundDiv p.ptp.offSum (2 * p.ptp.offCount)) })
    ∧ (s.time.selected ≠ some (.port n.val) → t.time = s.time)) s (exec (.ptpMeasPeriodEnd n) s) := by
  have hgood : p.ptp.periodVoid = false := by
    simp only [PtpPort.periodVoid, ← hexpected, Bool.or_eq_false_iff, decide_eq_false_iff_not, beq_eq_false_iff_ne]
    exact ⟨by omega, hsome⟩
  have hexec := exec_ptpMeasPeriodEnd hp hup hstate hdue
  simp only [hgood, Bool.false_eq_true, if_false] at hexec
  have hset := moves_modPtp n (.periodEnded false s.ticks) s
  have hport := portIs_modPtp n (.periodEnded false s.ticks) s
  by_cases hsel : s.time.selected = some (.port n.val)
  · rw [if_pos hsel] at hexec
    exact ⟨_, hexec, ⟨hport, fun _ => rfl, fun h => absurd hsel h⟩,
      ((hset.mono (by decide)).trans ((moves_modTime ..).mono (by decide))).steps.only⟩
  · rw [if_neg hsel] at hexec
    exact ⟨_, hexec, ⟨hport, fun h => absurd h hsel, fun _ => rfl⟩, (hset.mono (by decide)).steps.only⟩
theorem ptpMeasPeriodEnd_voids (hfew : 2 * p.ptp.offCount < expected ∨ p.ptp.offCount = 0) : Happens (.ports :: coreParts) (fun t =>
    (t.ptp n).voidAt = some s.ticks ∧ (t.ptp n).offCount = 0 ∧ Counted .ptpVoid .port n 1 t
    ∧ ∀ x, s.cand? (.port n) = some x → ∃ y, t.cand? (.port n) = some y ∧ y.st = .disqualified) s (exec (.ptpMeasPeriodEnd n) s) := by
  have hvoid : p.ptp.periodVoid = true := by simpa [PtpPort.periodVoid, ← hexpected] using hfew
  have hexec := exec_ptpMeasPeriodEnd hp hup hstate hdue
  simp only [hvoid, if_true] at hexec
  have hset := moves_modPtp n (.periodEnded true s.ticks) s
  have hport := (portIs_modPtp n (.periodEnded true s.ticks) s).at hp
  have hcount := moves_count .ptpVoid .port n 1 (s.modPtp n (.periodEnded true s.ticks))
  have hcounted := (counted_count .ptpVoid .port n 1 (s.modPtp n (.periodEnded true s.ticks)) (by decide)).1
  have hdis := moves_disqualify (.port n) .condition ((s.modPtp n (.periodEnded true s.ticks)).count .ptpVoid .port n 1)
  have hptp := (hdis.ptp n).trans ((hcount.ptp n).trans (State.ptp_of_port hport))
  refine ⟨_, hexec, ⟨by rw [hptp]; rfl, by rw [hptp]; rfl, hdis.counted _ hcounted, fun x hx => ?_⟩,
    (((hset.mono (by decide)).trans (hcount.mono (by decide))).trans (hdis.mono (by decide))).steps.only⟩
  exact disqualify_disqualifies .condition
    ((State.candOpt_of_candidates (congrArg TimeCore.candidates (hcount.time.trans hset.time)) _).trans hx)
end

/-! ### ESMC (R338) -/

/-- A PTP port that has received a QL. -/
def PtpPort.qlHeard (ql : Nat × Nat) (now : Nat) (p : PtpPort) : PtpPort :=
  { p with rxQl := some (ql.1, ql.2, now), qlHeardAt := if ql.1 = 0xF then p.qlHeardAt else some now }
/-- The QL a port has received: DNU where none has been. -/
def qlOf (x : Option (Nat × Nat × Nat)) : Nat × Nat := (x.map (fun x => (x.1, x.2.1))).getD (0xF, 0xFF)
section
variable {n : Fin 384} {s : State} {p : Port} (hup : s.fwUp = true) {f : List Octet} {stamp : Int}
  {rest : List (Nat × Bool × List Octet × Int)} (htake : takeWaiting n true (s.htile (n / 96)).waiting = (some (f, stamp), rest))
include hup htake
theorem esmcPduRx_bad (hbad : esmcQl f = none) : Happens [.htiles, .happened] (fun t => (t.htile (n / 96)).waiting = rest
    ∧ Counted .esmcRxErr .port n 1 t) s (exec (.esmcPduRx n) s) := by
  have hexec : exec (.esmcPduRx n) s
      = .next ((s.modHtile (n / 96) (fun h => { h with waiting := rest })).count .esmcRxErr .port n 1) := by
    refine (?_ : execEsmcPduRx n s = _)
    unfold execEsmcPduRx
    rw [if_neg (by simp [hup])]
    simp only [htake, hbad]
  have hset := moves_modHtile (n / 96) (fun h => { h with waiting := rest }) s
  have hcount := moves_count .esmcRxErr .port n 1 (s.modHtile (n / 96) (fun h => { h with waiting := rest }))
  exact ⟨_, hexec, ⟨(congrArg (fun v => (vget v (n / 96) HostTile.reset).waiting) hcount.htiles).trans (waiting_modHtile n s rest),
    (counted_count _ _ _ _ _ (by decide)).1⟩, ((hset.mono (by decide)).trans (hcount.mono (by decide))).steps.only⟩
/-- A received QL is noted; another than the one before is told. -/
theorem exec_esmcPduRx_good (hp : s.port? n = some p) {q : Nat × Nat} (hq : esmcQl f = some q) : exec (.esmcPduRx n) s = .next (
    let u := ((s.modHtile (n / 96) (fun h => { h with waiting := rest })).modPtp n (.qlHeard q s.ticks)).refreshTrace
    let told := u.raise .esmcQlChange .port n
      (w1 1 ++ [Config.qlWord (qlOf p.ptp.rxQl).1 (qlOf p.ptp.rxQl).2, Config.qlWord q.1 q.2])
    match p.ptp.rxQl with
    | some (a, b, _) => if a = q.1 ∧ b = q.2 then u else told
    | none => told) := by
  refine (?_ : execEsmcPduRx n s = _)
  have hptp : (s.modHtile (n / 96) (fun h => { h with waiting := rest })).ptp n = p.ptp :=
    ((moves_modHtile ..).ptp n).trans (State.ptp_of_port hp)
  unfold execEsmcPduRx
  rw [if_neg (by simp [hup])]
  simp only [htake, hq, hptp]
  rcases p.ptp.rxQl with _ | ⟨a, b, k⟩
  · rfl
  · exact (apply_ite Host.Outcome.next _ _ _).symm
theorem esmcPduRx_notes (hp : s.port? n = some p) {q : Nat × Nat} (hq : esmcQl f = some q) :
    Happens (.ports :: .htiles :: .time :: eventParts) (fun t =>
      PortIs n (fun p => { p with ptp := { p.ptp with rxQl := some (q.1, q.2, s.ticks), qlHeardAt := if q.1 = 0xF then p.ptp.qlHeardAt else some s.ticks } }) s t
      ∧ (t.htile (n / 96)).waiting = rest
      ∧ (p.ptp.rxQl = none → Raised .esmcQlChange .port n (w1 1 ++ [Config.qlWord 0xF 0xFF, Config.qlWord q.1 q.2]) s.tn t)
      ∧ (∀ a b u, p.ptp.rxQl = some (a, b, u) → a ≠ q.1 ∨ b ≠ q.2 →
        Raised .esmcQlChange .port n (w1 1 ++ [Config.qlWord a b, Config.qlWord q.1 q.2]) s.tn t)) s (exec (.esmcPduRx n) s) := by
  have hexec := exec_esmcPduRx_good hup htake hp hq
  have htaken := moves_modHtile (n / 96) (fun h => { h with waiting := rest }) s
  have hset : Moves [.ports, .htiles, .time] s _ := ((htaken.mono (by decide)).trans ((moves_modPtp n (.qlHeard q s.ticks) _).mono (by decide))).trans
    ((moves_refreshTrace _).mono (by decide))
  have hport : PortIs n (fun p => { p with ptp := p.ptp.qlHeard q s.ticks }) s _ :=
    ((portIs_modPtp n (.qlHeard q s.ticks) (s.modHtile (n / 96) (fun h => { h with waiting := rest }))).of_same (s' := s)
      htaken.ports (moves_refreshTrace _).ports)
  have hwaiting : (((((s.modHtile (n / 96) (fun h => { h with waiting := rest })).modPtp n (.qlHeard q s.ticks)).refreshTrace).htile
      (n / 96)).waiting) = rest := waiting_modHtile n s rest
  generalize ((s.modHtile (n / 96) (fun h => { h with waiting := rest })).modPtp n (.qlHeard q s.ticks)).refreshTrace = u at *
  have htell := moves_raise .esmcQlChange .port n
    (w1 1 ++ [Config.qlWord (qlOf p.ptp.rxQl).1 (qlOf p.ptp.rxQl).2, Config.qlWord q.1 q.2]) u
  have htold := raised_raise_tn (ev := .esmcQlChange) (k := .port) (i := n)
    (ws := w1 1 ++ [Config.qlWord (qlOf p.ptp.rxQl).1 (qlOf p.ptp.rxQl).2, Config.qlWord q.1 q.2]) hset.tn
  dsimp only at hexec
  generalize u.raise .esmcQlChange .port n _ = v at *
  have hmoveTold := (hset.mono (by decide : _ ⊆ Part.ports :: .htiles :: .time :: eventParts)).trans (htell.mono (by decide))
  have hportTold := hport.of_same rfl htell.ports
  have hwaitingTold : (v.htile (n / 96)).waiting = rest :=
    (congrArg (fun w => (vget w (n / 96) HostTile.reset).waiting) htell.htiles).trans hwaiting
  rcases hrx : p.ptp.rxQl with _ | ⟨a, b, k⟩
  · simp only [hrx] at hexec htold
    exact ⟨v, hexec, ⟨hportTold, hwaitingTold, fun _ => htold, by simp⟩, hmoveTold.steps.only⟩
  · simp only [hrx] at hexec htold
    by_cases hsame : a = q.1 ∧ b = q.2
    · rw [if_pos hsame] at hexec
      refine ⟨u, hexec, ⟨hport, hwaiting, by simp, fun a' b' k' heq hne => ?_⟩, (hset.mono (by decide)).steps.only⟩
      obtain ⟨rfl, rfl, rfl⟩ : a = a' ∧ b = b' ∧ k = k' := by simpa using heq
      tauto
    · rw [if_neg hsame] at hexec
      refine ⟨v, hexec, ⟨hportTold, hwaitingTold, by simp, fun a' b' k' heq _ => ?_⟩, hmoveTold.steps.only⟩
      obtain ⟨rfl, rfl, rfl⟩ : a = a' ∧ b = b' ∧ k = k' := by simpa using heq
      exact htold
end

/-- Settles O40: each row is the step it makes where its condition holds, and that step brings what the statement asks. -/
theorem ptpReception : Obligations.PtpReception := fun n s p hp hup =>
  ⟨fun f stamp rest htake hprofile hsecond => ⟨ptpMessageRx_drops hp hup htake hprofile hsecond, fun hfew hdomain hversion =>
      ⟨fun hkind hparent hone => (ptpMessageRx_sync hp hup htake hprofile hsecond hfew hdomain hversion hkind hparent).imp
          (fun t ⟨hport, hrest⟩ => ⟨hport.congr (fun _ _ => by rw [PtpPort.synced_oneStep hone]; rfl), hrest⟩),
        fun hkind hparent htwo => (ptpMessageRx_sync hp hup htake hprofile hsecond hfew hdomain hversion hkind hparent).imp
          (fun t ⟨hport, hrest⟩ => ⟨hport.congr (fun _ _ => by rw [PtpPort.synced_twoStep htwo]; rfl), hrest⟩),
        ptpMessageRx_unsupported hp hup htake hprofile hsecond hfew hdomain hversion⟩⟩,
    fun hprofile hstate hdue halone => announceReceiptTimeout_transmits hp halone hup hprofile hstate hdue,
    fun _ hstate hdue hexpected => ⟨ptpMeasPeriodEnd_delivers hp hup hstate hdue hexpected, ptpMeasPeriodEnd_voids hp hup hstate hdue hexpected⟩,
    fun _ _ _ htake => ⟨esmcPduRx_bad hup htake, fun _ => esmcPduRx_notes hup htake hp⟩⟩
end Sys2Proof.Machine
end

section
/-! The sparse memories of the block (O3): a lemma for every operation on the state that it leaves them as they are, or, for the few that write
them, that it keeps them in their canonical form; then for every row of the operation table and every row that is not a command. -/
-- One task for each of these many short proofs would ask for more threads than the memory limit allows at the check's stack size.
set_option Elab.async false
namespace Sys2Proof.Machine

/-! ### The sparse memories -/

/-- The sparse memories of the block: both calendar banks with their parity bits, and the counter array. -/
structure Memories where
  active : List (Nat × Nat)
  shadow : List (Nat × Nat)
  activeParity : List (Nat × Nat)
  shadowParity : List (Nat × Nat)
  slots : List (Nat × Nat)
def State.mems (s : State) : Memories :=
  { active := s.cal.active, shadow := s.cal.shadow, activeParity := s.cal.activeParity, shadowParity := s.cal.shadowParity
    slots := s.ctr.slots }
/-- Each memory is in its canonical form; an EMPTY calendar entry has 63 as its parity bits. -/
structure Memories.Canon (m : Memories) : Prop where
  active : cellsWf 0 m.active = true
  shadow : cellsWf 0 m.shadow = true
  activeParity : cellsWf 63 m.activeParity = true
  shadowParity : cellsWf 63 m.shadowParity = true
  slots : cellsWf 0 m.slots = true
theorem memoriesWf_iff (s : State) : s.memoriesWf = true ↔ s.mems.Canon := by
  simp only [State.memoriesWf, Bool.and_eq_true]
  exact ⟨fun ⟨⟨⟨⟨ha, hs⟩, hap⟩, hsp⟩, hc⟩ => ⟨ha, hs, hap, hsp, hc⟩, fun ⟨ha, hs, hap, hsp, hc⟩ => ⟨⟨⟨⟨ha, hs⟩, hap⟩, hsp⟩, hc⟩⟩

/-- An update of any other field of the state. -/
theorem mems_update (s : State) (tn ticks : Nat) (off : Int) (prov : Bool) (realign) (traffic : Bool) (engines tiles htiles lanes ports packs map mapCentre
    mons tlmq chains dma proto dev power recovery kennel time sec clockIdentity parityLast readWord spiReply freeCtr pending) :
    State.mems { s with
      tn := tn, ticks := ticks, tickOffset := off, tnProvisional := prov, realign := realign, trafficLast := traffic, engines := engines
      tiles := tiles, htiles := htiles, lanes := lanes, ports := ports, packs := packs, map := map, mapCentre := mapCentre, mons := mons
      tlmq := tlmq, chains := chains, dma := dma, proto := proto, dev := dev, power := power, recovery := recovery, kennel := kennel
      time := time, sec := sec, clockIdentity := clockIdentity, parityLast := parityLast, readWord := readWord, spiReply := spiReply
      freeCtr := freeCtr, pending := pending } = s.mems := rfl
theorem canon_of_mems {s t : State} (h : t.mems = s.mems) (hs : s.mems.Canon) : t.mems.Canon := h ▸ hs
@[simp] theorem mems_ite {c : Prop} {_ : Decidable c} (a b : State) :
    (if c then a else b).mems = if c then a.mems else b.mems := apply_ite State.mems c a b
@[simp] theorem mems_foldl {α : Type} {f : State → α → State} (h : ∀ s a, (f s a).mems = s.mems) (l : List α) (s : State) :
    (l.foldl f s).mems = s.mems := State.foldl_same State.mems f h l s
/-- What every step of a fold keeps canonical, the fold does. -/
theorem canon_foldl {α : Type} {f : State → α → State} (h : ∀ s a, s.mems.Canon → (f s a).mems.Canon) (l : List α) (s : State)
    (hs : s.mems.Canon) : (l.foldl f s).mems.Canon := by
  induction l generalizing s with
  | nil => exact hs
  | cons a l ih => exact ih _ (h s a hs)
@[simp] theorem State.modCtr_mems {f : Counters → Counters} (s : State) (h : ∀ c, (f c).slots = c.slots) :
    (s.modCtr f).mems = s.mems := by simp [State.mems, h]
theorem State.modCtr_canon {f : Counters → Counters} (h : ∀ c, cellsWf 0 c.slots = true → cellsWf 0 (f c).slots = true) (s : State)
    (hs : s.mems.Canon) : (s.modCtr f).mems.Canon := { hs with slots := h _ hs.slots }
@[simp] theorem State.modCal_mems {f : Calendar → Calendar} (s : State)
    (h : ∀ k, (f k).active = k.active ∧ (f k).shadow = k.shadow ∧ (f k).activeParity = k.activeParity ∧ (f k).shadowParity = k.shadowParity) :
    (s.modCal f).mems = s.mems := by simp [State.mems, State.modCal, h]
@[simp] theorem State.modKennel_mems (f) (s : State) : (s.modKennel f).mems = s.mems := by simp [State.mems]
@[simp] theorem State.modSettings_mems (f) (s : State) : (s.modSettings f).mems = s.mems := by simp [State.modSettings]
@[simp] theorem State.fresh_mems (s : State) : s.fresh.2.mems = s.mems := by simp [State.fresh, State.mems]

/-- What a row answers keeps the memories canonical. -/
def KeepsCanon (s : State) (r : Res) : Prop := ∀ t, r = .next t → s.mems.Canon → t.mems.Canon
@[simp] theorem keepsCanon_next (s t : State) : KeepsCanon s (.next t) ↔ (s.mems.Canon → t.mems.Canon) := by simp [KeepsCanon]
@[simp] theorem keepsCanon_refused (s : State) (r : Refusal) : KeepsCanon s (.refused r) := by simp [KeepsCanon]
@[simp] theorem keepsCanon_ite (s : State) {c : Prop} {_ : Decidable c} (a b : Res) :
    KeepsCanon s (if c then a else b) ↔ if c then KeepsCanon s a else KeepsCanon s b := by
  split <;> rfl

@[simp] theorem State.modEng_mems (i f) (s : State) : (s.modEng i f).mems = s.mems := by simp [State.mems]
@[simp] theorem State.modTile_mems (i f) (s : State) : (s.modTile i f).mems = s.mems := by simp [State.mems]
@[simp] theorem State.modLane_mems (i f) (s : State) : (s.modLane i f).mems = s.mems := by simp [State.mems]
@[simp] theorem State.modHtile_mems (i f) (s : State) : (s.modHtile i f).mems = s.mems := by simp [State.mems]
@[simp] theorem State.modPort_mems (n f) (s : State) : (s.modPort n f).mems = s.mems := by simp [State.mems]
@[simp] theorem State.modPack_mems (i f) (s : State) : (s.modPack i f).mems = s.mems := by simp [State.mems]
@[simp] theorem State.modMc_mems (i f) (s : State) : (s.modMc i f).mems = s.mems := by simp [State.mems]
@[simp] theorem State.modDc_mems (i f) (s : State) : (s.modDc i f).mems = s.mems := by simp [State.mems]
@[simp] theorem State.modQreg_mems (q f) (s : State) : (s.modQreg q f).mems = s.mems := by simp [State.mems]
@[simp] theorem State.modProto_mems (f) (s : State) : (s.modProto f).mems = s.mems := by simp [State.mems]
@[simp] theorem State.modLife_mems (f) (s : State) : (s.modLife f).mems = s.mems := by simp [State.modLife]
@[simp] theorem State.modRec_mems (f) (s : State) : (s.modRec f).mems = s.mems := by simp [State.mems]
@[simp] theorem State.modPower_mems (f) (s : State) : (s.modPower f).mems = s.mems := by simp [State.mems]
@[simp] theorem State.modDev_mems (f) (s : State) : (s.modDev f).mems = s.mems := by simp [State.mems]
@[simp] theorem State.modTime_mems (f) (s : State) : (s.modTime f).mems = s.mems := by simp [State.mems]
@[simp] theorem State.happen_mems (slot n) (s : State) : (s.happen slot n).mems = s.mems := by simp [State.happen]
@[simp] theorem State.count_mems (c k idx n) (s : State) : (s.count c k idx n).mems = s.mems := by simp [State.count]
@[simp] theorem State.countSub_mems (c k idx sub n) (s : State) : (s.countSub c k idx sub n).mems = s.mems := by simp [State.countSub]
@[simp] theorem State.signal_mems (v) (s : State) : (s.signal v).mems = s.mems := by simp [State.signal]
@[simp] theorem State.signalRing_mems (q) (s : State) : (s.signalRing q).mems = s.mems := by unfold State.signalRing; split <;> simp
@[simp] theorem State.advanced_mems (q) (s : State) : (s.advanced q).mems = s.mems := by
  simp only [State.advanced]
  (repeat' split) <;> simp
@[simp] theorem State.modCmdq_mems (n f) (s : State) : (s.modCmdq n f).mems = s.mems := by simp [State.modCmdq]
@[simp] theorem State.wmCross_mems (q old) (s : State) : (s.wmCross q old).mems = s.mems := by simp [State.wmCross]
@[simp] theorem State.refreshAlert_mems (s : State) : s.refreshAlert.mems = s.mems := by simp [State.refreshAlert]
@[simp] theorem State.postEvent_mems (e) (s : State) : (s.postEvent e).mems = s.mems := by unfold State.postEvent; split <;> simp
@[simp] theorem State.captureNotice_mems (kind code engine) (s : State) : (s.captureNotice kind code engine).mems = s.mems := by
  simp [State.captureNotice]
@[simp] theorem State.raiseAt_mems (ev k idx ws tn) (s : State) : (s.raiseAt ev k idx ws tn).mems = s.mems := by simp [State.raiseAt]
@[simp] theorem State.raise_mems (ev k idx ws) (s : State) : (s.raise ev k idx ws).mems = s.mems := by simp [State.raise]
@[simp] theorem State.defectChange_mems (k idx ord now) (s : State) : (s.defectChange k idx ord now).mems = s.mems := by
  simp [State.defectChange]
@[simp] theorem State.lifeFull_mems (offset) (s : State) : (s.lifeFull offset).mems = s.mems := by simp [State.lifeFull]
@[simp] theorem State.lifeBump_mems (offset top n get put) (s : State) : (s.lifeBump offset top n get put).mems = s.mems := by
  simp [State.lifeBump]
@[simp] theorem State.lifeLeashSat_mems (e) (s : State) : (s.lifeLeashSat e).mems = s.mems := by simp [State.lifeLeashSat]
@[simp] theorem State.lifeIsolation_mems (e) (s : State) : (s.lifeIsolation e).mems = s.mems := by simp [State.lifeIsolation]
@[simp] theorem State.commitResp_mems (n r) (s : State) : (s.commitResp n r).mems = s.mems := by simp [State.commitResp]
@[simp] theorem State.postResp_mems (src r) (s : State) : (s.postResp src r).mems = s.mems := by unfold State.postResp; split <;> simp
@[simp] theorem State.respond_mems (t final st detail tn ws) (s : State) : (s.respond t final st detail tn ws).mems = s.mems := by
  simp [State.respond]
@[simp] theorem State.final_mems (t st detail ws) (s : State) : (s.final t st detail ws).mems = s.mems := by simp [State.final]
@[simp] theorem State.finishJobs_mems (p st detail ws) (s : State) : (s.finishJobs p st detail ws).mems = s.mems := by
  simp [State.finishJobs]
@[simp] theorem State.cancelArmed_mems (p st detail) (s : State) : (s.cancelArmed p st detail).mems = s.mems := by
  unfold State.cancelArmed
  refine mems_foldl (fun s a => ?_) _ _
  (repeat' split) <;> simp
@[simp] theorem State.arm_mems (a) (s : State) : (s.arm a).mems = s.mems := by simp [State.arm]

/-! ### Smiulo -/

@[simp] theorem State.badItem_mems (q r header) (s : State) : (s.badItem q r header).mems = s.mems := by simp [State.badItem]
@[simp] theorem State.rewind_mems (q r header) (s : State) : (s.rewind q r header).mems = s.mems := by simp [State.rewind]
/-- An effect keeps the memories canonical. -/
def Effect.Canon : Effect → Prop
  | .now f => ∀ c s, s.mems.Canon → (f c s).1.mems.Canon
  | .boundary _ f => ∀ c s, s.mems.Canon → (f c s).mems.Canon
  | .atBoundary _ f => ∀ c s, s.mems.Canon → (f c s).mems.Canon
  | .silent f => ∀ c s, s.mems.Canon → (f c s).mems.Canon
  | .long f => ∀ j c s, s.mems.Canon → (f j c s).mems.Canon
/-- Whatever an opcode does keeps the memories canonical. -/
structure OpSpec.Canon (sp : OpSpec) : Prop where
  eff : sp.eff.Canon
  onRefuse : ∀ st c s, (sp.onRefuse st c s).mems = s.mems := by exact fun _ _ _ => rfl
  onAccept : ∀ c s, (sp.onAccept c s).mems = s.mems := by exact fun _ _ => rfl
theorem carryOut_canon {sp : OpSpec} (h : sp.Canon) (c t) (s : State) (hs : s.mems.Canon) : (carryOut sp c t s).mems.Canon := by
  have he := h.eff
  have ha : (sp.onAccept c s).mems.Canon := by rwa [h.onAccept]
  unfold carryOut
  cases hf : sp.eff with
  | now f => rw [hf] at he; simpa using he c _ ha
  | boundary cls f => cases c.tn <;> simpa using ha
  | atBoundary cls f => simpa using ha
  | silent f => rw [hf] at he; exact he c _ ha
  | long f => rw [hf] at he; exact he _ c _ (by simpa using ha)
@[simp] theorem State.hold_mems (op c seq why) (s : State) : (s.hold op c seq why).mems = s.mems := by simp [State.hold]
theorem startCmd_canon {sp : OpSpec} (h : sp.Canon) (c t) (s : State) (hs : s.mems.Canon) : (startCmd sp c t s).mems.Canon := by
  unfold startCmd
  split
  · simpa [h.onRefuse] using hs
  · split
    · simpa using hs
    · split
      · simpa using hs
      · exact carryOut_canon h c t s hs
@[simp] theorem State.countPrivilege_mems (op src) (s : State) : (s.countPrivilege op src).mems = s.mems := by
  simp [State.countPrivilege]
theorem parseCmd_canon {spec : Option OpSpec} (h : ∀ sp, spec = some sp → sp.Canon) (op c) (s : State) (hs : s.mems.Canon) :
    (parseCmd spec op c s).mems.Canon := by
  unfold parseCmd
  split
  · simpa using hs
  · cases spec with
    | none => simpa using hs
    | some sp =>
      simp only
      split
      · simpa using hs
      · split
        · simpa using hs
        · split
          · simpa using hs
          · exact startCmd_canon (h sp rfl) c _ _ (by simpa using hs)
@[simp] theorem State.setVisible_mems (n l) (s : State) : (s.setVisible n l).mems = s.mems := by simp [State.setVisible]
@[simp] theorem State.takeVisible_mems (n k) (s : State) : (s.takeVisible n k).mems = s.mems := by simp [State.takeVisible]
@[simp] theorem State.dropBad_mems (n k) (s : State) : (s.dropBad n k).mems = s.mems := by
  induction k generalizing s with
  | zero => rfl
  | succ k ih => unfold State.dropBad; (repeat' split) <;> simp [ih]
@[simp] theorem State.ensureVisible_mems (op c) (s : State) : (s.ensureVisible op c).mems = s.mems := by simp [State.ensureVisible]
theorem runSpec_canon {spec : Option OpSpec} (h : ∀ sp, spec = some sp → sp.Canon) (op c) (s : State) (hs : s.mems.Canon) :
    (runSpec spec op c s).mems.Canon := by
  simp only [runSpec]
  split
  · simpa using hs
  · split
    · simpa using hs
    · split
      · exact parseCmd_canon h op c _ (by simpa using hs)
      · simpa using hs
theorem runOp_canon {sp : OpSpec} (h : sp.Canon) (c) (s : State) : KeepsCanon s (runOp sp c s) := by
  simpa [runOp] using runSpec_canon (fun _ e => by cases e; exact h) sp.code c s

/-! ### CaptureDma -/

@[simp] theorem State.endChannel_mems (c e) (s : State) : (s.endChannel c e).mems = s.mems := by simp [State.endChannel]
@[simp] theorem State.setSlot_mems (c x) (s : State) : (s.setSlot c x).mems = s.mems := by simp [State.setSlot, State.mems]
@[simp] theorem State.emptySlot?_mems (hit) (s : State) : (s.emptySlot? hit).mems = s.mems := by simp [State.emptySlot?]
@[simp] theorem State.answerChannel_mems (c e) (s : State) : (s.answerChannel c e).mems = s.mems := by
  unfold State.answerChannel
  (repeat' split) <;> simp
@[simp] theorem State.killChannels_mems (drop) (s : State) : (s.killChannels drop).mems = s.mems := by
  unfold State.killChannels
  simp [↓mems_update]
@[simp] theorem State.dropCapture_mems (k) (s : State) : (s.dropCapture k).mems = s.mems := by
  unfold State.dropCapture
  simp [↓mems_update]
@[simp] theorem State.withdrawCapture_mems (k only why) (s : State) : (s.withdrawCapture k only why).mems = s.mems := by
  simp [State.withdrawCapture]
@[simp] theorem specCapSet_canon : specCapSet.Canon := { eff := fun _ _ h => h }
@[simp] theorem applyCapArm_mems (c) (s : State) : (applyCapArm c s).mems = s.mems := by simp [applyCapArm]
@[simp] theorem armCapture_mems (k) (s : State) : (armCapture k s).mems = s.mems := by simp [armCapture]
@[simp] theorem specCapArm_canon : specCapArm.Canon := { eff := fun _ _ => by simp [applyCapArm_mems], onAccept := fun _ _ => by simp [specCapArm] }
@[simp] theorem specCapWithdraw_canon : specCapWithdraw.Canon := { eff := by simp [specCapWithdraw, Effect.Canon] }
@[simp] theorem specCapStatus_canon : specCapStatus.Canon := { eff := fun _ _ h => h }
@[simp] theorem State.captureTick_mems (k) (s : State) : (s.captureTick k).mems = s.mems := by simp [State.captureTick]
@[simp] theorem execCaptureTrigger_canon (k) (s : State) : KeepsCanon s (execCaptureTrigger k s) := by
  unfold execCaptureTrigger
  simp [↓mems_update]
@[simp] theorem execCaptureFillDone_canon (k data) (s : State) : KeepsCanon s (execCaptureFillDone k data s) := by
  simp [execCaptureFillDone]
@[simp] theorem State.place_mems (c n e) (s : State) : (s.place c n e).mems = s.mems := by unfold State.place; simp [↓mems_update]
@[simp] theorem State.channelGo_mems (c) (s : State) : (s.channelGo c).mems = s.mems := by simp [State.channelGo]
@[simp] theorem State.channelAbort_mems (c) (s : State) : (s.channelAbort c).mems = s.mems := by simp [State.channelAbort]
@[simp] theorem execDmaGo_canon (c) (s : State) : KeepsCanon s (execDmaGo c s) := by simp [execDmaGo]
@[simp] theorem execDmaAbort_canon (c) (s : State) : KeepsCanon s (execDmaAbort c s) := by simp [execDmaAbort]
@[simp] theorem execDmaReadCompletion_canon (c good data) (s : State) : KeepsCanon s (execDmaReadCompletion c good data s) := by
  simp [execDmaReadCompletion]
@[simp] theorem State.startChannel_mems (c) (s : State) : (s.startChannel c).mems = s.mems := by simp [State.startChannel]
@[simp] theorem dmaEffect_mems (x y) (z : State) : (dmaEffect x y z).mems = z.mems := by simp [dmaEffect]
@[simp] theorem dmaSend_mems (f x y) (z : State) : (dmaSend f x y z).mems = z.mems := by simp [dmaSend]

/-! ### FrontBus -/

@[simp] theorem State.modFe_mems (e f) (s : State) : (s.modFe e f).mems = s.mems := by simp [State.modFe]
@[simp] theorem State.feDrive_mems (e t) (s : State) : (s.feDrive e t).mems = s.mems := by simp [State.feDrive]
@[simp] theorem State.feQueue_mems (e t) (s : State) : (s.feQueue e t).mems = s.mems := by simp [State.feQueue]
@[simp] theorem State.feWrite_mems (e addr value) (s : State) : (s.feWrite e addr value).mems = s.mems := by
  unfold State.feWrite
  split <;> simp
@[simp] theorem State.feSquelch_mems (e assert) (s : State) : (s.feSquelch e assert).mems = s.mems := by
  unfold State.feSquelch
  split <;> simp
@[simp] theorem State.commitProfile_mems (e p) (s : State) : (s.commitProfile e p).mems = s.mems := by simp [State.commitProfile]
@[simp] theorem State.feFaultRaise_mems (e cause loop value) (s : State) : (s.feFaultRaise e cause loop value).mems = s.mems := by
  simp [State.feFaultRaise]
@[simp] theorem State.fePolled_mems (e value mask) (s : State) : (s.fePolled e value mask).mems = s.mems := by simp [State.fePolled]
@[simp] theorem State.loopRun_mems (e l r v) (s : State) : (s.loopRun e l r v).mems = s.mems := by simp [State.loopRun]
@[simp] theorem execBiasLoopRun_canon (e num) (s : State) : KeepsCanon s (execBiasLoopRun e num s) := by
  simp only [execBiasLoopRun]
  (repeat' split) <;> simp
@[simp] theorem specFeBusAccess_canon : specFeBusAccess.Canon := { eff := fun j c s => by dsimp only; split <;> simp }

/-! ### Acquire -/

@[simp] theorem State.modAcq_mems (e f) (s : State) : (s.modAcq e f).mems = s.mems := by simp [State.modAcq]
@[simp] theorem State.modEq_mems (e f) (s : State) : (s.modEq e f).mems = s.mems := by simp [State.modEq]
@[simp] theorem State.setHeel_mems (e heel m) (s : State) : (s.setHeel e heel m).mems = s.mems := by simp [State.setHeel]
@[simp] theorem State.dropCdSwap_mems (e) (s : State) : (s.dropCdSwap e).mems = s.mems := by simp [State.dropCdSwap]
@[simp] theorem State.startPass_mems (e) (s : State) : (s.startPass e).mems = s.mems := by simp [State.startPass]
@[simp] theorem State.alignRelease_mems (e next) (s : State) : (s.alignRelease e next).mems = s.mems := by simp [State.alignRelease]
@[simp] theorem State.searchClock_mems (e) (s : State) : (s.searchClock e).mems = s.mems := by simp [State.searchClock]
@[simp] theorem State.acqRestart_mems (e) (s : State) : (s.acqRestart e).mems = s.mems := by simp [State.acqRestart]
@[simp] theorem execPowerQualification_canon (e powers) (s : State) : KeepsCanon s (execPowerQualification e powers s) := by
  simp [execPowerQualification]
@[simp] theorem State.loadScan_mems (e cd) (s : State) : (s.loadScan e cd).mems = s.mems := by simp [State.loadScan]
@[simp] theorem State.candidate_mems (e m) (s : State) : (s.candidate e m).mems = s.mems := by simp [State.candidate]
@[simp] theorem execSearchSyncFound_canon (e found cd) (s : State) : KeepsCanon s (execSearchSyncFound e found cd s) := by
  simp only [execSearchSyncFound]
  (repeat' split) <;> simp
@[simp] theorem execSearchPassEnd_canon (p) (s : State) : KeepsCanon s (execSearchPassEnd p s) := by simp [execSearchPassEnd]
@[simp] theorem execAcqNoSync_canon (e) (s : State) : KeepsCanon s (execAcqNoSync e s) := by simp [execAcqNoSync]
@[simp] theorem State.refillStores_mems (e) (s : State) : (s.refillStores e).mems = s.mems := by
  simp only [State.refillStores]
  (repeat' split) <;> simp
@[simp] theorem State.enterFrame_mems (e) (s : State) : (s.enterFrame e).mems = s.mems := by simp [State.enterFrame]
@[simp] theorem State.examined_mems (e x) (s : State) : (s.examined e x).mems = s.mems := by simp [State.examined]
@[simp] theorem State.contest_mems (e x) (s : State) : (s.contest e x).mems = s.mems := by unfold State.contest; split <;> simp
@[simp] theorem State.confirmCheck_mems (e errs x) (s : State) : (s.confirmCheck e errs x).mems = s.mems := by
  simp only [State.confirmCheck]
  (repeat' split) <;> simp
@[simp] theorem State.heldCheck_mems (e good) (s : State) : (s.heldCheck e good).mems = s.mems := by
  unfold State.heldCheck
  split <;> simp
@[simp] theorem State.frameCheck_mems (e errs x phase) (s : State) : (s.frameCheck e errs x phase).mems = s.mems := by
  unfold State.frameCheck
  split <;> simp
@[simp] theorem execRxSyncCheck_canon (e seen x) (s : State) : KeepsCanon s (execRxSyncCheck e seen x s) := by
  simp only [execRxSyncCheck]
  (repeat' split) <;> simp
@[simp] theorem execOofTimerExpiry_canon (e) (s : State) : KeepsCanon s (execOofTimerExpiry e s) := by simp [execOofTimerExpiry]
@[simp] theorem execFreqRecentre_canon (e) (s : State) : KeepsCanon s (execFreqRecentre e s) := by
  simp only [execFreqRecentre]
  (repeat' split) <;> simp
@[simp] theorem State.residualSeen_mems (e r) (s : State) : (s.residualSeen e r).mems = s.mems := by simp [State.residualSeen]
@[simp] theorem State.leashWrite_mems (e m p) (s : State) : (s.leashWrite e m p).mems = s.mems := by simp [State.leashWrite]
@[simp] theorem execLeashWriteInstant_canon (e) (s : State) : KeepsCanon s (execLeashWriteInstant e s) := by
  simp only [execLeashWriteInstant]
  (repeat' split) <;> simp
@[simp] theorem State.leashInstant_mems (e) (s : State) : (s.leashInstant e).mems = s.mems := by
  unfold State.leashInstant
  split <;> simp
@[simp] theorem specEngineAcqSet_canon : specEngineAcqSet.Canon := { eff := fun _ _ h => h }
@[simp] theorem specEngineAcqRestart_canon : specEngineAcqRestart.Canon := { eff := by simp [specEngineAcqRestart, Effect.Canon] }
@[simp] theorem specEngineAcqStatus_canon : specEngineAcqStatus.Canon := { eff := fun _ _ h => h }
@[simp] theorem specEngineLeashSet_canon : specEngineLeashSet.Canon := { eff := fun _ _ h => h }

/-! ### Calendar -/

@[simp] theorem State.preGuardStep_mems (s : State) : s.preGuardStep.mems = s.mems := by simp [State.preGuardStep]
/-- The exchange of the banks exchanges canonical memories. -/
theorem applyCalSwapWith_canon {flush : Nat → State → State} (h : ∀ n s, (flush n s).mems = s.mems) (c) (s : State) (hs : s.mems.Canon) :
    (applyCalSwapWith flush c s).mems.Canon := by
  simp only [applyCalSwapWith, State.raise_mems, mems_foldl (fun s p => h p s)]
  exact ⟨hs.shadow, hs.active, hs.shadowParity, hs.activeParity, hs.slots⟩
@[simp] theorem specCalStatus_canon : specCalStatus.Canon := { eff := fun _ _ h => h }
@[simp] theorem execShadowScrubPass_canon (read) (s : State) : KeepsCanon s (execShadowScrubPass read s) := by simp [execShadowScrubPass]
@[simp] theorem State.calParitySeen_mems (read) (s : State) : (s.calParitySeen read).mems = s.mems := by simp [State.calParitySeen]

/-! ### Loading -/

@[simp] theorem State.modLoad_mems (e f) (s : State) : (s.modLoad e f).mems = s.mems := by simp [State.modLoad]
@[simp] theorem State.announceAt_mems (e k vec why given) (s : State) : (s.announceAt e k vec why given).mems = s.mems := by
  simp [State.announceAt]
@[simp] theorem State.announce_mems (e k vec why) (s : State) : (s.announce e k vec why).mems = s.mems := by simp [State.announce]
@[simp] theorem State.abortAnn_mems (e cause) (s : State) : (s.abortAnn e cause).mems = s.mems := by
  unfold State.abortAnn
  split <;> simp
@[simp] theorem State.packCapacityCheck_mems (e) (s : State) : (s.packCapacityCheck e).mems = s.mems := by
  refine mems_foldl (fun s p => ?_) _ _
  simp only
  (repeat' split) <;> simp
@[simp] theorem State.capacityCheck_mems (e) (s : State) : (s.capacityCheck e).mems = s.mems := by
  unfold State.capacityCheck
  split <;> simp
@[simp] theorem State.loadTxSwitch_mems (e a) (s : State) : (s.loadTxSwitch e a).mems = s.mems := by simp [State.loadTxSwitch]
@[simp] theorem State.loadRxSwitch_mems (e a) (s : State) : (s.loadRxSwitch e a).mems = s.mems := by simp [State.loadRxSwitch]
@[simp] theorem execLoadAckDeadline_canon (e) (s : State) : KeepsCanon s (execLoadAckDeadline e s) := by
  unfold execLoadAckDeadline
  split <;> simp
@[simp] theorem execLoadTxSwitch_canon (e) (s : State) : KeepsCanon s (execLoadTxSwitch e s) := by unfold execLoadTxSwitch; split <;> simp
@[simp] theorem execLoadPolicyRun_canon (e) (s : State) : KeepsCanon s (execLoadPolicyRun e s) := by
  simp only [execLoadPolicyRun]
  (repeat' split) <;> simp
@[simp] theorem specEngineIterCapSet_canon : specEngineIterCapSet.Canon := { eff := fun _ _ h => h }
@[simp] theorem specEngineLoadSet_canon : specEngineLoadSet.Canon := { eff := fun _ _ h => h }
@[simp] theorem specEngineLoadAnnounce_canon : specEngineLoadAnnounce.Canon := { eff := by simp [specEngineLoadAnnounce, Effect.Canon] }
@[simp] theorem State.dropSvc_mems (e) (s : State) : (s.dropSvc e).mems = s.mems := by simp [State.dropSvc]
@[simp] theorem State.dropAnn_mems (e) (s : State) : (s.dropAnn e).mems = s.mems := by simp [State.dropAnn]
@[simp] theorem State.setCapacity_mems (e k) (s : State) : (s.setCapacity e k).mems = s.mems := by simp [State.setCapacity]
@[simp] theorem State.startCapacity_mems (e k given tag) (s : State) : (s.startCapacity e k given tag).mems = s.mems := by
  simp [State.startCapacity]
@[simp] theorem applyCapacity_mems (c) (s : State) : (applyCapacity c s).mems = s.mems := by simp [applyCapacity]
@[simp] theorem specEngineCapacitySet_canon : specEngineCapacitySet.Canon := { eff := by simp [specEngineCapacitySet, Effect.Canon] }
@[simp] theorem specEngineProfileSet_canon : specEngineProfileSet.Canon := { eff := by simp [specEngineProfileSet, Effect.Canon] }
@[simp] theorem State.iterCapStep_mems (e) (s : State) : (s.iterCapStep e).mems = s.mems := by simp [State.iterCapStep]

/-! ### Fabric -/

@[simp] theorem State.countGrains_mems (rx k idx gs) (s : State) : (s.countGrains rx k idx gs).mems = s.mems := by
  simp [State.countGrains]
@[simp] theorem State.countEntry_mems (rx i) (s : State) : (s.countEntry rx i).mems = s.mems := by simp [State.countEntry]
@[simp] theorem State.modData_mems (n f) (s : State) : (s.modData n f).mems = s.mems := by simp [State.modData]
@[simp] theorem State.mapClient_mems (n arrived dead) (s : State) : (s.mapClient n arrived dead).mems = s.mems := by
  unfold State.mapClient
  split <;> simp
@[simp] theorem State.hubTx_mems (e dead) (s : State) : (s.hubTx e dead).mems = s.mems := by simp [State.hubTx]
@[simp] theorem State.modStore_mems (k i f) (s : State) : (s.modStore k i f).mems = s.mems := by simp [State.modStore]
@[simp] theorem State.flushClient_mems (port) (s : State) : (s.flushClient port).mems = s.mems := by
  simp [State.flushClient, State.mems]
@[simp] theorem State.storeFrame_mems (k i slots carried) (s : State) : (s.storeFrame k i slots carried).mems = s.mems := by
  simp [State.storeFrame]
@[simp] theorem State.countOutput_mems (k i port jcs) (s : State) : (s.countOutput k i port jcs).mems = s.mems := by
  simp [State.countOutput]
@[simp] theorem State.storeOutput_mems (k i dead) (s : State) : (s.storeOutput k i dead).mems = s.mems := by
  refine (mems_foldl (fun s q => ?_) _ _).trans (by simp)
  simp only
  (repeat' split) <;> simp
@[simp] theorem State.storeReport_mems (k i out) (s : State) : (s.storeReport k i out).mems = s.mems := by simp [State.storeReport]
@[simp] theorem State.packArrive_mems (p part carried) (s : State) : (s.packArrive p part carried).mems = s.mems := by
  unfold State.packArrive
  split <;> simp
@[simp] theorem State.packRelease_mems (p) (s : State) : (s.packRelease p).mems = s.mems := by simp [State.packRelease]
@[simp] theorem State.packSecond_mems (p) (s : State) : (s.packSecond p).mems = s.mems := by simp [State.packSecond]
@[simp] theorem State.parityFail_mems (loc idx n) (s : State) : (s.parityFail loc idx n).mems = s.mems := by
  have h (l) : State.mems { s.count (parityCounter loc) (parityKind loc) idx n with parityLast := l } = s.mems := s.count_mems _ _ _ n
  simp only [State.parityFail]
  split
  · exact (State.raise_mems ..).trans (h _)
  · exact h _
@[simp] theorem specCalLoad_canon : specCalLoad.Canon := { eff := by simp [specCalLoad, Effect.Canon] }
@[simp] theorem specCalRead_canon : specCalRead.Canon := { eff := by simp [specCalRead, Effect.Canon] }
@[simp] theorem specCalSwap_canon : specCalSwap.Canon := { eff := fun c s => applyCalSwapWith_canon (fun n s => s.flushClient_mems n) c s }
@[simp] theorem specPackSet_canon : specPackSet.Canon := { eff := fun _ _ h => h }
@[simp] theorem State.clearPackDefects_mems (p) (s : State) : (s.clearPackDefects p).mems = s.mems := by simp [State.clearPackDefects]
@[simp] theorem specPackDelete_canon : specPackDelete.Canon := { eff := by simp [specPackDelete, Effect.Canon] }
@[simp] theorem specPackCapacitySet_canon : specPackCapacitySet.Canon := { eff := by simp [specPackCapacitySet, Effect.Canon] }
@[simp] theorem specPackSkewSet_canon : specPackSkewSet.Canon := { eff := fun _ _ h => h }
@[simp] theorem specPackStatus_canon : specPackStatus.Canon := { eff := fun _ _ h => h }
@[simp] theorem specStoreSet_canon : specStoreSet.Canon := { eff := by simp [specStoreSet, Effect.Canon] }

/-! ### Counting -/

@[simp] theorem State.setBw_mems (p w) (s : State) : (s.setBw p w).mems = s.mems := by simp [State.setBw]
@[simp] theorem State.bwCount_mems (p ingress egress) (s : State) : (s.bwCount p ingress egress).mems = s.mems := by
  simp [State.bwCount]
/-- The two slots that a completed window writes. -/
theorem bwSlots_canon (i j v w : Nat) (s : State) (hs : s.mems.Canon) :
    (s.modCtr (fun c => { c with slots := cellSet (cellSet c.slots i v 0) j w 0 })).mems.Canon :=
  State.modCtr_canon (fun _ h => cellsWf_cellSet _ _ _ _ (cellsWf_cellSet _ _ _ _ h)) s hs
theorem State.bwBoundary_canon (p) (s : State) (hs : s.mems.Canon) : (s.bwBoundary p).mems.Canon := by
  simp only [State.bwBoundary]
  (repeat' split) <;> simp [hs, bwSlots_canon]
@[simp] theorem State.bwDiscard_mems (p) (s : State) : (s.bwDiscard p).mems = s.mems := by simp [State.bwDiscard]
@[simp] theorem execBandwidthWindowEnd_canon (port) (s : State) : KeepsCanon s (execBandwidthWindowEnd port s) := by
  unfold execBandwidthWindowEnd
  split
  · simpa using s.bwBoundary_canon port
  · simp
@[simp] theorem State.countClasses_mems (s : State) : s.countClasses.mems = s.mems := by simp [State.countClasses]
@[simp] theorem State.countFrame_mems (egress p cls) (s : State) : (s.countFrame egress p cls).mems = s.mems := by
  simp [State.countFrame]
@[simp] theorem State.comeDue_mems (x) (s : State) : (s.comeDue x).mems = s.mems := by unfold State.comeDue; (repeat' split) <;> simp
@[simp] theorem State.comeIn_mems (s : State) : s.comeIn.mems = s.mems := by simp [State.comeIn]
@[simp] theorem State.expect_mems (ahead l) (s : State) : (s.expect ahead l).mems = s.mems := by simp [State.expect]
@[simp] theorem State.imageReadable_mems (m) (s : State) : (s.imageReadable m).mems = s.mems := by simp [State.imageReadable]
@[simp] theorem applySnapshot_mems (x) (s : State) : (applySnapshot x s).mems = s.mems := by simp [applySnapshot]
@[simp] theorem State.dumpOver_mems (s : State) : s.dumpOver.mems = s.mems := by unfold State.dumpOver; split <;> simp
@[simp] theorem execCounterV0Read_canon (path slot) (s : State) : KeepsCanon s (execCounterV0Read path slot s) := by
  have hl : ∀ l c, (Counters.setLatch path l c).slots = c.slots := fun l c => by cases path <;> rfl
  simp only [execCounterV0Read, keepsCanon_ite, keepsCanon_next, imp_self]
  split
  · exact fun hs => (s.modCtr_mems (hl _)).symm ▸ hs
  · trivial
@[simp] theorem specCtrRead_canon : specCtrRead.Canon := { eff := fun _ _ h => h }
theorem applyChain_canon (c) (s : State) (hs : s.mems.Canon) : (applyChain c s).mems.Canon := by
  unfold applyChain
  split
  · simpa using hs
  · exact State.modCtr_canon (fun _ h => cellsWf_cellSet _ _ _ _ h) s hs
@[simp] theorem specCtrChainSet_canon : specCtrChainSet.Canon := { eff := applyChain_canon }
@[simp] theorem specCtrFilterSet_canon : specCtrFilterSet.Canon := { eff := fun _ _ h => h }
@[simp] theorem specCtrBwSet_canon : specCtrBwSet.Canon := { eff := fun _ _ h => h }
@[simp] theorem specCtrSnapshot_canon : specCtrSnapshot.Canon := { eff := by simp [specCtrSnapshot, Effect.Canon] }
@[simp] theorem State.dumpMore_mems (c n) (s : State) : (s.dumpMore c n).mems = s.mems := by unfold State.dumpMore; split <;> simp
@[simp] theorem State.dumpTick_mems (c) (s : State) : (s.dumpTick c).mems = s.mems := by simp [State.dumpTick]
@[simp] theorem State.dumpRest_mems (c) (s : State) : (s.dumpRest c).mems = s.mems := by simp [State.dumpRest]
@[simp] theorem specCtrDump_canon : specCtrDump.Canon := { eff := by simp [specCtrDump, Effect.Canon] }
@[simp] theorem specCtrIndex_canon : specCtrIndex.Canon := { eff := fun _ _ h => h }

/-! ### Ports -/

@[simp] theorem State.stopDiagnostics_mems (low) (s : State) : (s.stopDiagnostics low).mems = s.mems := by
  unfold State.stopDiagnostics
  split <;> simp
@[simp] theorem State.laneFreeze_mems (l r) (s : State) : (s.laneFreeze l r).mems = s.mems := by simp [State.laneFreeze]
@[simp] theorem State.laneThaw_mems (l ofBrace) (s : State) : (s.laneThaw l ofBrace).mems = s.mems := by simp [State.laneThaw]
@[simp] theorem State.laneStart_mems (l) (s : State) : (s.laneStart l).mems = s.mems := by simp [State.laneStart]
@[simp] theorem State.diagnose_mems (l f) (s : State) : (s.diagnose l f).mems = s.mems := by simp [State.diagnose]
@[simp] theorem State.enterHoldoff_mems (low) (s : State) : (s.enterHoldoff low).mems = s.mems := by simp [State.enterHoldoff]
@[simp] theorem State.startRound_mems (low) (s : State) : (s.startRound low).mems = s.mems := by
  unfold State.startRound
  (repeat' split) <;> simp
@[simp] theorem State.trainResult_mems (low outcome) (s : State) : (s.trainResult low outcome).mems = s.mems := by
  unfold State.trainResult
  (repeat' split) <;> simp
@[simp] theorem State.endRound_mems (low) (s : State) : (s.endRound low).mems = s.mems := by simp [State.endRound]
@[simp] theorem State.attemptFails_mems (low cause lane) (s : State) : (s.attemptFails low cause lane).mems = s.mems := by
  unfold State.attemptFails
  (repeat' split) <;> simp
@[simp] theorem execTrainTimeoutExpiry_canon (port silent slow) (s : State) : KeepsCanon s (execTrainTimeoutExpiry port silent slow s) := by
  unfold execTrainTimeoutExpiry
  (repeat' split) <;> simp
@[simp] theorem execPartnerLostTimer_canon (port lane) (s : State) : KeepsCanon s (execPartnerLostTimer port lane s) := by
  unfold execPartnerLostTimer
  split <;> simp
@[simp] theorem execLinkTrainingComplete_canon (x) (s : State) : KeepsCanon s (execLinkTrainingComplete x s) := by
  unfold execLinkTrainingComplete
  split <;> simp
@[simp] theorem execAlignTimeout_canon (port lane) (s : State) : KeepsCanon s (execAlignTimeout port lane s) := by
  unfold execAlignTimeout
  split <;> simp
@[simp] theorem execPcsAligned_canon (port) (s : State) : KeepsCanon s (execPcsAligned port s) := by unfold execPcsAligned; split <;> simp
@[simp] theorem execTrainHoldoffExpiry_canon (port) (s : State) : KeepsCanon s (execTrainHoldoffExpiry port s) := by
  unfold execTrainHoldoffExpiry
  split <;> simp
@[simp] theorem execPcsAlignmentLoss_canon (port signal) (s : State) : KeepsCanon s (execPcsAlignmentLoss port signal s) := by
  unfold execPcsAlignmentLoss
  split <;> simp
@[simp] theorem execRetrainHoldExpiry_canon (port) (s : State) : KeepsCanon s (execRetrainHoldExpiry port s) := by
  unfold execRetrainHoldExpiry
  split <;> simp
@[simp] theorem execHostRefclkLoss_canon (t) (s : State) : KeepsCanon s (execHostRefclkLoss t s) := by simp [execHostRefclkLoss]
@[simp] theorem execHostRefclkOk_canon (t) (s : State) : KeepsCanon s (execHostRefclkOk t s) := by simp [execHostRefclkOk]
@[simp] theorem State.reclock_mems (l) (s : State) : (s.reclock l).mems = s.mems := by simp [State.reclock]
@[simp] theorem applyHostClk_mems (c) (s : State) : (applyHostClk c s).mems = s.mems := by simp [applyHostClk]
@[simp] theorem specHostClkSet_canon : specHostClkSet.Canon := { eff := by simp [specHostClkSet, Effect.Canon] }
@[simp] theorem execHlAdaptWindowEnd_canon (l changes w) (s : State) : KeepsCanon s (execHlAdaptWindowEnd l changes w s) := by
  unfold execHlAdaptWindowEnd
  split <;> simp
@[simp] theorem specLaneSet_canon : specLaneSet.Canon := { eff := fun _ _ h => h }
@[simp] theorem setDiagnostics_mems (f c) (s : State) : (setDiagnostics f c s).mems = s.mems := by simp [setDiagnostics]
@[simp] theorem specLaneLoopback_canon : specLaneLoopback.Canon := { eff := by simp [specLaneLoopback, Effect.Canon] }
@[simp] theorem specLanePrbsSet_canon : specLanePrbsSet.Canon := { eff := by simp [specLanePrbsSet, Effect.Canon] }
@[simp] theorem specLanePrbsStatus_canon : specLanePrbsStatus.Canon := { eff := fun _ _ h => h }
@[simp] theorem execPrbsCheckerLock_canon (l) (s : State) : KeepsCanon s (execPrbsCheckerLock l s) := by simp [execPrbsCheckerLock]
@[simp] theorem execPrbsCheckWindow_canon (l symbols bits) (s : State) : KeepsCanon s (execPrbsCheckWindow l symbols bits s) := by
  simp [execPrbsCheckWindow]
@[simp] theorem specPortSet_canon : specPortSet.Canon := { eff := fun _ _ h => h }
@[simp] theorem specPortDelete_canon : specPortDelete.Canon := { eff := fun c s => by simp [↓mems_update] }
@[simp] theorem applyPortEnable_mems (c) (s : State) : (applyPortEnable c s).mems = s.mems := by
  unfold applyPortEnable
  split <;> simp
@[simp] theorem State.dropPortChange_mems (c) (s : State) : (s.dropPortChange c).mems = s.mems := by simp [State.dropPortChange]
@[simp] theorem specPortEnable_canon : specPortEnable.Canon := { eff := by simp [specPortEnable, Effect.Canon] }
@[simp] theorem specPortDisable_canon : specPortDisable.Canon := { eff := by simp [specPortDisable, Effect.Canon] }
@[simp] theorem specPortRestart_canon : specPortRestart.Canon := { eff := by simp [specPortRestart, Effect.Canon] }
@[simp] theorem applyPortTest_mems (c) (s : State) : (applyPortTest c s).mems = s.mems := by unfold applyPortTest; split <;> simp
@[simp] theorem specPortTest_canon : specPortTest.Canon := { eff := by simp [specPortTest, Effect.Canon] }
@[simp] theorem specPortTrainSet_canon : specPortTrainSet.Canon := { eff := fun _ _ h => h }
@[simp] theorem specPortTxFfe_canon : specPortTxFfe.Canon := { eff := fun _ _ h => h }
@[simp] theorem specPortDefectSet_canon : specPortDefectSet.Canon := { eff := fun _ _ h => h }
@[simp] theorem specPortStatus_canon : specPortStatus.Canon := { eff := fun c s => by dsimp only; split <;> simp }
@[simp] theorem State.tapDrop_mems (port esmc) (s : State) : (s.tapDrop port esmc).mems = s.mems := by simp [State.tapDrop]
@[simp] theorem State.tapSecond_mems (port) (s : State) : (s.tapSecond port).mems = s.mems := by
  unfold State.tapSecond
  split <;> simp
@[simp] theorem execTapFrameRx_canon (port octets fcs blocks sub) (s : State) : KeepsCanon s (execTapFrameRx port octets fcs blocks sub s) := by
  unfold execTapFrameRx
  (repeat' split) <;> simp
@[simp] theorem State.tapQueue_mems (port f) (s : State) : (s.tapQueue port f).mems = s.mems := by simp [State.tapQueue]
@[simp] theorem execTapInsertTimeout_canon (port) (s : State) : KeepsCanon s (execTapInsertTimeout port s) := by
  unfold execTapInsertTimeout
  (repeat' split) <;> simp

/-! ### TimeCore -/

@[simp] theorem State.refreshTrace_mems (s : State) : s.refreshTrace.mems = s.mems := by simp [State.refreshTrace, State.mems]
@[simp] theorem State.epochInPlace_mems (s : State) : s.epochInPlace.mems = s.mems := by
  unfold State.epochInPlace
  simp [↓mems_update]
@[simp] theorem State.epochAtLock_mems (first) (s : State) : (s.epochAtLock first).mems = s.mems := by
  unfold State.epochAtLock
  (repeat' split) <;> simp [↓mems_update]
@[simp] theorem State.timeTo_mems (st) (s : State) : (s.timeTo st).mems = s.mems := by unfold State.timeTo; simp [↓mems_update]
@[simp] theorem State.modCand_mems (x f) (s : State) : (s.modCand x f).mems = s.mems := by simp [State.modCand]
@[simp] theorem State.keepSteps_mems (s : State) : s.keepSteps.mems = s.mems := by simp [State.keepSteps]
@[simp] theorem State.selectSource_mems (x) (s : State) : (s.selectSource x).mems = s.mems := by
  unfold State.selectSource
  split <;> simp
@[simp] theorem State.reselect_mems (s : State) : s.reselect.mems = s.mems := by simp only [State.reselect]; (repeat' split) <;> simp
@[simp] theorem State.qualify_mems (x st why) (s : State) : (s.qualify x st why).mems = s.mems := by
  unfold State.qualify
  split <;> simp
@[simp] theorem State.disqualify_mems (x why) (s : State) : (s.disqualify x why).mems = s.mems := by simp [State.disqualify]
@[simp] theorem State.restartCand_mems (x) (s : State) : (s.restartCand x).mems = s.mems := by
  unfold State.restartCand
  split <;> simp
@[simp] theorem State.breakCand_mems (x) (s : State) : (s.breakCand x).mems = s.mems := by simp [State.breakCand]
@[simp] theorem State.meets_mems (x) (s : State) : (s.meets x).mems = s.mems := by unfold State.meets; split <;> simp
@[simp] theorem execSourceQualified_canon (i) (s : State) : KeepsCanon s (execSourceQualified i s) := by
  unfold execSourceQualified
  split <;> simp
@[simp] theorem execWtrExpiry_canon (s : State) : KeepsCanon s (execWtrExpiry s) := by simp [execWtrExpiry]
@[simp] theorem State.utcTo_mems (off dir leapAt origin) (s : State) : (s.utcTo off dir leapAt origin).mems = s.mems := by
  simp [State.utcTo]
@[simp] theorem State.leapDue_mems (s : State) : s.leapDue.mems = s.mems := by simp [State.leapDue]
@[simp] theorem execLeapApplied_canon (s : State) : KeepsCanon s (execLeapApplied s) := by simp [execLeapApplied]
@[simp] theorem State.utcFrom_mems (x off dir leapAt origin) (s : State) : (s.utcFrom x off dir leapAt origin).mems = s.mems := by
  simp [State.utcFrom]
@[simp] theorem State.slewStep_mems (s : State) : s.slewStep.mems = s.mems := by unfold State.slewStep; simp [↓mems_update]
@[simp] theorem State.freqStep_mems (s : State) : s.freqStep.mems = s.mems := by unfold State.freqStep; simp [↓mems_update]
@[simp] theorem State.freqJudge_mems (interval) (s : State) : (s.freqJudge interval).mems = s.mems := by simp [State.freqJudge]
@[simp] theorem State.stepBy_mems (d) (s : State) : (s.stepBy d).mems = s.mems := by unfold State.stepBy; simp [↓mems_update]
@[simp] theorem State.stepNow_mems (s : State) : s.stepNow.mems = s.mems := by unfold State.stepNow; split <;> simp
@[simp] theorem execTimeStep_canon (s : State) : KeepsCanon s (execTimeStep s) := by simp [execTimeStep]
@[simp] theorem execTimeMeasurement_canon (s : State) : KeepsCanon s (execTimeMeasurement s) := by
  unfold execTimeMeasurement
  split <;> simp
@[simp] theorem execHoldoverTraceExpiry_canon (s : State) : KeepsCanon s (execHoldoverTraceExpiry s) := by simp [execHoldoverTraceExpiry]
@[simp] theorem State.modPps_mems (n f) (s : State) : (s.modPps n f).mems = s.mems := by simp [State.modPps]
@[simp] theorem State.modTod_mems (n f) (s : State) : (s.modTod n f).mems = s.mems := by simp [State.modTod]
@[simp] theorem execPpsInPulse_canon (n sub) (s : State) : KeepsCanon s (execPpsInPulse n sub s) := by
  simp only [execPpsInPulse]
  (repeat' split) <;> simp
@[simp] theorem execPpsMissing_canon (n) (s : State) : KeepsCanon s (execPpsMissing n s) := by
  simp only [execPpsMissing]
  (repeat' split) <;> simp
@[simp] theorem execTodSentenceRx_canon (n line sub) (s : State) : KeepsCanon s (execTodSentenceRx n line sub s) := by
  unfold execTodSentenceRx
  (repeat' split) <;> simp
@[simp] theorem execPpsOutPulse_canon (n) (s : State) : KeepsCanon s (execPpsOutPulse n s) := by simp [execPpsOutPulse]
@[simp] theorem execTodOutSentence_canon (s : State) : KeepsCanon s (execTodOutSentence s) := by simp [execTodOutSentence]
@[simp] theorem execOscLoss_canon (s : State) : KeepsCanon s (execOscLoss s) := by simp [execOscLoss]
@[simp] theorem execOscOk_canon (s : State) : KeepsCanon s (execOscOk s) := by simp [execOscOk]
@[simp] theorem execOscRelockDone_canon (s : State) : KeepsCanon s (execOscRelockDone s) := by simp [execOscRelockDone]
@[simp] theorem State.snapAsk_mems (s : State) : s.snapAsk.mems = s.mems := by simp [State.snapAsk]
@[simp] theorem execTimeSnapReq_canon (s : State) : KeepsCanon s (execTimeSnapReq s) := by simp [execTimeSnapReq]
@[simp] theorem execTimeSnapshotCapture_canon (s : State) : KeepsCanon s (execTimeSnapshotCapture s) := by simp [execTimeSnapshotCapture]
@[simp] theorem specTimeStatus_canon : specTimeStatus.Canon := { eff := fun _ _ h => h }
@[simp] theorem specTimeSourceSet_canon : specTimeSourceSet.Canon := { eff := fun c s => by dsimp only; split <;> simp }
@[simp] theorem specTimeParamSet_canon : specTimeParamSet.Canon := { eff := fun _ _ h => h }
@[simp] theorem specTimeSet_canon : specTimeSet.Canon := { eff := by simp [specTimeSet, Effect.Canon] }
@[simp] theorem specTimeUtcSet_canon : specTimeUtcSet.Canon := { eff := by simp [specTimeUtcSet, Effect.Canon] }
@[simp] theorem specTimeOscSet_canon : specTimeOscSet.Canon := { eff := by simp [specTimeOscSet, Effect.Canon] }
@[simp] theorem specTimeEpochForce_canon : specTimeEpochForce.Canon := { eff := fun c s => by dsimp only; split <;> simp [↓mems_update] }
@[simp] theorem specTimePpsInSet_canon : specTimePpsInSet.Canon := { eff := fun _ _ h => h }
@[simp] theorem specTimePpsOutSet_canon : specTimePpsOutSet.Canon := { eff := fun _ _ h => h }
@[simp] theorem specTimeTodSet_canon : specTimeTodSet.Canon := { eff := fun c s => by dsimp only; split <;> simp }

/-! ### Security -/

@[simp] theorem State.modKey_mems (e f) (s : State) : (s.modKey e f).mems = s.mems := by simp [State.modKey]
@[simp] theorem State.emptySlot_mems (e i why) (s : State) : (s.emptySlot e i why).mems = s.mems := by simp [State.emptySlot]
@[simp] theorem State.emptySlots_mems (e l why) (s : State) : (s.emptySlots e l why).mems = s.mems := by simp [State.emptySlots]
@[simp] theorem State.emptyAll_mems (why) (s : State) : (s.emptyAll why).mems = s.mems := by simp [State.emptyAll]
@[simp] theorem State.domainClear_mems (why) (s : State) : (s.domainClear why).mems = s.mems := by simp [State.domainClear]
@[simp] theorem State.expireSlot_mems (e i) (s : State) : (s.expireSlot e i).mems = s.mems := by
  unfold State.expireSlot
  split <;> simp
@[simp] theorem execKeyExpiry_canon (e slot) (s : State) : KeepsCanon s (execKeyExpiry e slot s) := by simp [execKeyExpiry]
@[simp] theorem specEngineCryptoSet_canon : specEngineCryptoSet.Canon := { eff := by simp [specEngineCryptoSet, Effect.Canon] }
@[simp] theorem specKeyLoad_canon : specKeyLoad.Canon where
  eff := fun c s => by dsimp only; split <;> simp
  onRefuse := by simp [specKeyLoad]
@[simp] theorem specKeyErase_canon : specKeyErase.Canon := { eff := by simp [specKeyErase, Effect.Canon] }
@[simp] theorem specKeyTxSwitch_canon : specKeyTxSwitch.Canon := { eff := by simp [specKeyTxSwitch, Effect.Canon] }
@[simp] theorem specKeyRxSwitch_canon : specKeyRxSwitch.Canon := { eff := by simp [specKeyRxSwitch, Effect.Canon] }
@[simp] theorem specKeyRxFollow_canon : specKeyRxFollow.Canon := { eff := fun _ _ h => h }
@[simp] theorem specKeyStatus_canon : specKeyStatus.Canon := { eff := fun _ _ h => h }
@[simp] theorem State.beginSigning_mems (j words) (s : State) : (s.beginSigning j words).mems = s.mems := by
  unfold State.beginSigning
  simp [↓mems_update]
@[simp] theorem execTagSignatureDone_canon (s : State) : KeepsCanon s (execTagSignatureDone s) := by
  unfold execTagSignatureDone
  (repeat' split) <;> simp [↓mems_update]
@[simp] theorem specDomainEnrol_canon : specDomainEnrol.Canon := { eff := fun c s => by simp [↓mems_update] }
@[simp] theorem specDomainClear_canon : specDomainClear.Canon := { eff := by simp [specDomainClear, Effect.Canon] }
@[simp] theorem specTagCertRead_canon : specTagCertRead.Canon := { eff := by simp [specTagCertRead, Effect.Canon] }
@[simp] theorem specAttestReport_canon : specAttestReport.Canon := { eff := fun c s => by simp [↓mems_update] }
@[simp] theorem specTestportChallenge_canon : specTestportChallenge.Canon := { eff := fun _ _ h => h }
@[simp] theorem specTestportUnlock_canon : specTestportUnlock.Canon where
  eff := fun j c s hs => canon_of_mems ((State.final_mems ..).trans ((State.raise_mems ..).trans
    ((mems_update (s.domainClear .testPort) ..).trans (State.domainClear_mems ..)))) hs
  onRefuse := fun st c s => by
    show State.mems (if st == .tokenInvalid then _ else _) = _
    simp
@[simp] theorem execTestportInstruction_canon (ir) (s : State) : KeepsCanon s (execTestportInstruction ir s) := by
  unfold execTestportInstruction
  split <;> simp

/-! ### Equalise -/

@[simp] theorem State.cdSwapDone_mems (e reversed) (s : State) : (s.cdSwapDone e reversed).mems = s.mems := by simp [State.cdSwapDone]
@[simp] theorem State.cdSwapEnd_mems (e reversed) (s : State) : (s.cdSwapEnd e reversed).mems = s.mems := by simp [State.cdSwapEnd]
@[simp] theorem applyCdSwap_mems (c) (s : State) : (applyCdSwap c s).mems = s.mems := by
  simp only [applyCdSwap]
  (repeat' split) <;> simp
@[simp] theorem execCdSwapDone_canon (e) (s : State) : KeepsCanon s (execCdSwapDone e s) := by unfold execCdSwapDone; split <;> simp
@[simp] theorem execCdDelaySettled_canon (e) (s : State) : KeepsCanon s (execCdDelaySettled e s) := by simp [execCdDelaySettled]
@[simp] theorem execCdFilterReady_canon (e) (s : State) : KeepsCanon s (execCdFilterReady e s) := by
  unfold execCdFilterReady
  split <;> simp
@[simp] theorem execCdTrackEstimate_canon (e residual) (s : State) : KeepsCanon s (execCdTrackEstimate e residual s) := by
  simp [execCdTrackEstimate]
@[simp] theorem execEstimatorUpdate_canon (e m) (s : State) : KeepsCanon s (execEstimatorUpdate e m s) := by simp [execEstimatorUpdate]
@[simp] theorem execRxFeAutoUpdate_canon (e m) (s : State) : KeepsCanon s (execRxFeAutoUpdate e m s) := by simp [execRxFeAutoUpdate]
@[simp] theorem State.freezeStep_mems (e noClock pilotOnly) (s : State) : (s.freezeStep e noClock pilotOnly).mems = s.mems := by
  simp [State.freezeStep]
@[simp] theorem execRxThaw_canon (e) (s : State) : KeepsCanon s (execRxThaw e s) := by simp only [execRxThaw]; (repeat' split) <;> simp
@[simp] theorem State.recentreTaps_mems (e) (s : State) : (s.recentreTaps e).mems = s.mems := by simp [State.recentreTaps]
@[simp] theorem State.receiverSeen_mems (e o) (s : State) : (s.receiverSeen e o).mems = s.mems := by
  unfold State.receiverSeen
  split <;> simp
@[simp] theorem applyRxfe_mems (c) (s : State) : (applyRxfe c s).mems = s.mems := by simp [applyRxfe]
@[simp] theorem specEngineRxfeSet_canon : specEngineRxfeSet.Canon := { eff := by simp [specEngineRxfeSet, Effect.Canon] }
@[simp] theorem specEngineCdSet_canon : specEngineCdSet.Canon := { eff := fun _ _ h => h }
@[simp] theorem specEngineCdLoad_canon : specEngineCdLoad.Canon := { eff := by simp [specEngineCdLoad, Effect.Canon] }
@[simp] theorem specEngineCdSwap_canon : specEngineCdSwap.Canon := { eff := by simp [specEngineCdSwap, Effect.Canon] }
@[simp] theorem specEngineEqSet_canon : specEngineEqSet.Canon := { eff := fun _ _ h => h }
@[simp] theorem specEngineRxQuality_canon : specEngineRxQuality.Canon := { eff := fun _ _ h => h }

/-! ### Transmit -/

@[simp] theorem State.modTx_mems (e f) (s : State) : (s.modTx e f).mems = s.mems := by simp [State.modTx]
@[simp] theorem specEngineSynthSet_canon : specEngineSynthSet.Canon := { eff := fun _ _ h => h }
@[simp] theorem specEngineTxcorrSet_canon : specEngineTxcorrSet.Canon := { eff := fun _ _ h => h }
@[simp] theorem specEnginePreemphLoad_canon : specEnginePreemphLoad.Canon := { eff := fun _ _ h => h }
@[simp] theorem specEnginePreemphSwap_canon : specEnginePreemphSwap.Canon := { eff := fun _ _ h => h }
@[simp] theorem specEngineNlcSet_canon : specEngineNlcSet.Canon := { eff := fun _ _ h => h }
@[simp] theorem specEngineNlcCoefLoad_canon : specEngineNlcCoefLoad.Canon := { eff := by simp [specEngineNlcCoefLoad, Effect.Canon] }
@[simp] theorem specEngineNlcCoefSwap_canon : specEngineNlcCoefSwap.Canon := { eff := fun _ _ h => h }
@[simp] theorem applyMap_mems (c) (s : State) : (applyMap c s).mems = s.mems := by simp [applyMap, State.mems]
@[simp] theorem specSpectralMapSet_canon : specSpectralMapSet.Canon := { eff := by simp [specSpectralMapSet, Effect.Canon] }
@[simp] theorem State.nbrStep_mems (a) (s : State) : (s.nbrStep a).mems = s.mems := by simp [State.nbrStep]
@[simp] theorem specEngineNbrStatus_canon : specEngineNbrStatus.Canon := { eff := fun _ _ h => h }
@[simp] theorem State.neighbourAid_mems (e) (s : State) : (s.neighbourAid e).mems = s.mems := by simp [State.neighbourAid]
@[simp] theorem State.clipSeen_mems (e n) (s : State) : (s.clipSeen e n).mems = s.mems := by simp [State.clipSeen]
@[simp] theorem State.muzzleTo_mems (e m amp) (s : State) : (s.muzzleTo e m amp).mems = s.mems := by
  unfold State.muzzleTo
  split <;> simp
@[simp] theorem State.muzzleStep_mems (e) (s : State) : (s.muzzleStep e).mems = s.mems := by simp [State.muzzleStep]
@[simp] theorem State.nbrAll_mems (s : State) : s.nbrAll.mems = s.mems := by simp [State.nbrAll]
@[simp] theorem execMuzzleRampEnd_canon (e) (s : State) : KeepsCanon s (execMuzzleRampEnd e s) := by simp [execMuzzleRampEnd]
@[simp] theorem specEngineMuzzle_canon : specEngineMuzzle.Canon := { eff := fun _ _ h => h }
@[simp] theorem specEngineUnmuzzle_canon : specEngineUnmuzzle.Canon := { eff := fun _ _ h => h }
@[simp] theorem specEngineMuzzleClear_canon : specEngineMuzzleClear.Canon := { eff := fun _ _ h => h }
@[simp] theorem specEngineMuzzleCfgSet_canon : specEngineMuzzleCfgSet.Canon := { eff := fun _ _ h => h }

/-! ### Transfer -/

@[simp] theorem State.modLtt_mems (e f) (s : State) : (s.modLtt e f).mems = s.mems := by simp [State.modLtt]
@[simp] theorem State.modRoute_mems (e f) (s : State) : (s.modRoute e f).mems = s.mems := by simp [State.modRoute]
@[simp] theorem State.farStep_mems (e d tn) (s : State) : (s.farStep e d tn).mems = s.mems := by simp [State.farStep]
@[simp] theorem State.farCheck_mems (e tn txTime jump) (s : State) : (s.farCheck e tn txTime jump).mems = s.mems := by
  simp only [State.farCheck]
  (repeat' split) <;> simp
@[simp] theorem State.rawOffset_mems (e echoTn t2 t3 t4) (s : State) : (s.rawOffset e echoTn t2 t3 t4).mems = s.mems := by
  simp only [State.rawOffset]
  (repeat' split) <;> simp
@[simp] theorem State.noteSent_mems (e tn t) (s : State) : (s.noteSent e tn t).mems = s.mems := by simp [State.noteSent]
@[simp] theorem execLttIntervalEnd_canon (e) (s : State) : KeepsCanon s (execLttIntervalEnd e s) := by simp [execLttIntervalEnd]
@[simp] theorem State.secondTick_mems (e) (s : State) : (s.secondTick e).mems = s.mems := by simp [State.secondTick]
@[simp] theorem State.lttBoundary_mems (e) (s : State) : (s.lttBoundary e).mems = s.mems := by simp [State.lttBoundary]
@[simp] theorem State.certify_mems (e) (s : State) : (s.certify e).mems = s.mems := by simp [State.certify]
@[simp] theorem execDelayCertFormation_canon (s : State) : KeepsCanon s (execDelayCertFormation s) := by simp [execDelayCertFormation]
@[simp] theorem specLttSet_canon : specLttSet.Canon := { eff := fun _ _ h => h }
@[simp] theorem specLttStatus_canon : specLttStatus.Canon := { eff := fun _ _ h => h }
@[simp] theorem specEngineDelayCert_canon : specEngineDelayCert.Canon := { eff := fun _ _ h => h }
@[simp] theorem specCertDump_canon : specCertDump.Canon := { eff := by simp [specCertDump, Effect.Canon] }
@[simp] theorem specAsymSet_canon : specAsymSet.Canon := { eff := by simp [specAsymSet, Effect.Canon] }
@[simp] theorem specAsymValidate_canon : specAsymValidate.Canon := { eff := by simp [specAsymValidate, Effect.Canon] }
@[simp] theorem specAsymClear_canon : specAsymClear.Canon := { eff := by simp [specAsymClear, Effect.Canon] }
@[simp] theorem specRouteSet_canon : specRouteSet.Canon := { eff := fun _ _ h => h }
@[simp] theorem specTimeFreqRefSet_canon : specTimeFreqRefSet.Canon := { eff := fun _ _ h => h }
@[simp] theorem State.freqSample_mems (s : State) : s.freqSample.mems = s.mems := by unfold State.freqSample; split <;> simp
@[simp] theorem execFreqLoopUpdate_canon (err) (s : State) : KeepsCanon s (execFreqLoopUpdate err s) := by simp [execFreqLoopUpdate]
@[simp] theorem execFreqRefQualification_canon (offset) (s : State) : KeepsCanon s (execFreqRefQualification offset s) := by
  simp only [execFreqRefQualification]
  (repeat' split) <;> simp

/-! ### Ptp -/

@[simp] theorem State.modPtp_mems (n f) (s : State) : (s.modPtp n f).mems = s.mems := by simp [State.modPtp]
@[simp] theorem State.ptpTo_mems (n st) (s : State) : (s.ptpTo n st).mems = s.mems := by simp [State.ptpTo]
@[simp] theorem State.takeParent_mems (n a) (s : State) : (s.takeParent n a).mems = s.mems := by simp [State.takeParent]
@[simp] theorem State.ptpPrepare_mems (n steps) (s : State) : (s.ptpPrepare n steps).mems = s.mems := by simp [State.ptpPrepare]
@[simp] theorem State.ptpPromote_mems (s : State) : s.ptpPromote.mems = s.mems := by unfold State.ptpPromote; split <;> simp
@[simp] theorem State.bmca_mems (s : State) : s.bmca.mems = s.mems := by
  unfold State.bmca
  refine mems_foldl (fun s a => ?_) _ _
  (repeat' split) <;> simp
@[simp] theorem State.send_mems (n purpose stamp f) (s : State) : (s.send n purpose stamp f).mems = s.mems := by simp [State.send]
@[simp] theorem execPtpSyncTx_canon (port) (s : State) : KeepsCanon s (execPtpSyncTx port s) := by simp [execPtpSyncTx]
@[simp] theorem execPtpAnnounceTx_canon (port) (s : State) : KeepsCanon s (execPtpAnnounceTx port s) := by simp [execPtpAnnounceTx]
@[simp] theorem execPtpDelayReqTx_canon (port) (s : State) : KeepsCanon s (execPtpDelayReqTx port s) := by simp [execPtpDelayReqTx]
@[simp] theorem State.ptpSent_mems (n f stamp) (s : State) : (s.ptpSent n f stamp).mems = s.mems := by simp [State.ptpSent]
@[simp] theorem execTapFrameInsert_canon (port sub) (s : State) : KeepsCanon s (execTapFrameInsert port sub s) := by
  unfold execTapFrameInsert
  (repeat' split) <;> simp
@[simp] theorem State.onAnnounce_mems (n m) (s : State) : (s.onAnnounce n m).mems = s.mems := by simp [State.onAnnounce]
@[simp] theorem State.onDelayResp_mems (n m) (s : State) : (s.onDelayResp n m).mems = s.mems := by
  simp only [State.onDelayResp]
  (repeat' split) <;> simp
@[simp] theorem State.onMessage_mems (n m stamp) (s : State) : (s.onMessage n m stamp).mems = s.mems := by
  simp only [State.onMessage]
  (repeat' split) <;> simp
@[simp] theorem execPtpMessageRx_canon (port) (s : State) : KeepsCanon s (execPtpMessageRx port s) := by
  simp only [execPtpMessageRx]
  (repeat' split) <;> simp
@[simp] theorem execAnnounceReceiptTimeout_canon (port) (s : State) : KeepsCanon s (execAnnounceReceiptTimeout port s) := by
  simp [execAnnounceReceiptTimeout]
@[simp] theorem execPtpMeasPeriodEnd_canon (port) (s : State) : KeepsCanon s (execPtpMeasPeriodEnd port s) := by
  simp [execPtpMeasPeriodEnd]
@[simp] theorem State.judgeCandidates_mems (s : State) : s.judgeCandidates.mems = s.mems := by
  unfold State.judgeCandidates
  refine (mems_foldl (fun s a => ?_) _ _).trans (by simp)
  (repeat' split) <;> simp
@[simp] theorem State.esmcSend_mems (n event) (s : State) : (s.esmcSend n event).mems = s.mems := by simp [State.esmcSend]
@[simp] theorem execEsmcInfoTx_canon (port) (s : State) : KeepsCanon s (execEsmcInfoTx port s) := by simp [execEsmcInfoTx]
@[simp] theorem execEsmcEventTx_canon (port) (s : State) : KeepsCanon s (execEsmcEventTx port s) := by simp [execEsmcEventTx]
@[simp] theorem execEsmcPduRx_canon (port) (s : State) : KeepsCanon s (execEsmcPduRx port s) := by
  simp only [execEsmcPduRx]
  (repeat' split) <;> simp
@[simp] theorem specPortTapSet_canon : specPortTapSet.Canon := { eff := by simp [specPortTapSet, Effect.Canon] }
@[simp] theorem specPtpClockSet_canon : specPtpClockSet.Canon := { eff := fun c s => by simp [↓mems_update] }
@[simp] theorem specPtpPortSet_canon : specPtpPortSet.Canon := { eff := fun c s => by dsimp only; split <;> simp }
@[simp] theorem specPtpPortStatus_canon : specPtpPortStatus.Canon := { eff := fun _ _ h => h }

/-! ### Frame -/

@[simp] theorem State.modRx_mems (e f) (s : State) : (s.modRx e f).mems = s.mems := by simp [State.modRx]
@[simp] theorem State.modDefect_mems (e f) (s : State) : (s.modDefect e f).mems = s.mems := by simp [State.modDefect]
@[simp] theorem State.assembleFrame_mems (e) (s : State) : (s.assembleFrame e).mems = s.mems := by simp [State.assembleFrame]
@[simp] theorem State.abortOver_mems (e) (s : State) : (s.abortOver e).mems = s.mems := by unfold State.abortOver; split <;> simp
@[simp] theorem State.takeTime_mems (e tn oh arrival jump) (s : State) : (s.takeTime e tn oh arrival jump).mems = s.mems := by
  unfold State.takeTime
  split <;> simp
@[simp] theorem State.takeAck_mems (e seq st) (s : State) : (s.takeAck e seq st).mems = s.mems := by
  unfold State.takeAck
  (repeat' split) <;> simp
@[simp] theorem State.takeAnnounce_mems (e tn oh) (s : State) : (s.takeAnnounce e tn oh).mems = s.mems := by
  simp only [State.takeAnnounce]
  (repeat' split) <;> simp
@[simp] theorem State.takeTti_mems (e tn seg) (s : State) : (s.takeTti e tn seg).mems = s.mems := by simp [State.takeTti]
@[simp] theorem State.breakTti_mems (e) (s : State) : (s.breakTti e).mems = s.mems := by simp [State.breakTti]
@[simp] theorem State.takeDefect_mems (e oh) (s : State) : (s.takeDefect e oh).mems = s.mems := by simp [State.takeDefect]
@[simp] theorem State.takeRest_mems (e oh) (s : State) : (s.takeRest e oh).mems = s.mems := by simp [State.takeRest]
@[simp] theorem State.toFabric_mems (e slots carried) (s : State) : (s.toFabric e slots carried).mems = s.mems := by
  unfold State.toFabric
  split <;> simp
@[simp] theorem State.takeKey_mems (e slot tn) (s : State) : (s.takeKey e slot tn).mems = s.mems := by
  simp only [State.takeKey]
  (repeat' split) <;> simp
@[simp] theorem State.keepCandidate_mems (e) (s : State) : (s.keepCandidate e).mems = s.mems := by simp [State.keepCandidate]
@[simp] theorem State.acceptFrame_mems (e f arrival plain slot) (s : State) : (s.acceptFrame e f arrival plain slot).mems = s.mems := by
  simp [State.acceptFrame]
@[simp] theorem State.discardFrame_mems (e carried) (s : State) : (s.discardFrame e carried).mems = s.mems := by
  simp [State.discardFrame]
@[simp] theorem State.armedSwitch_mems (e) (s : State) : (s.armedSwitch e).mems = s.mems := by
  unfold State.armedSwitch
  split <;> simp
@[simp] theorem State.trialStep_mems (e) (s : State) : (s.trialStep e).mems = s.mems := by simp [State.trialStep]
@[simp] theorem State.ucfMark_mems (e) (s : State) : (s.ucfMark e).mems = s.mems := by simp [State.ucfMark]
@[simp] theorem State.zrFrame_mems (e f) (s : State) : (s.zrFrame e f).mems = s.mems := by simp [State.zrFrame]
@[simp] theorem State.receiveFrame_mems (e f) (s : State) : (s.receiveFrame e f).mems = s.mems := by
  simp only [State.receiveFrame]
  (repeat' split) <;> simp
@[simp] theorem State.decodeSignal_mems (e f) (s : State) : (s.decodeSignal e f).1.mems = s.mems := by
  unfold State.decodeSignal State.zrDecode; (repeat' split) <;> simp
@[simp] theorem State.beforeDecode_mems (e) (s : State) : (s.beforeDecode e).mems = s.mems := by simp [State.beforeDecode]
@[simp] theorem State.captureSymbols_mems (e layout f) (s : State) : (s.captureSymbols e layout f).mems = s.mems := by
  simp [State.captureSymbols]
@[simp] theorem execRxFrameDecode_canon (e f) (s : State) : KeepsCanon s (execRxFrameDecode e f s) := by
  simp only [execRxFrameDecode]; split <;> simp
@[simp] theorem specEngineTtiSet_canon : specEngineTtiSet.Canon := { eff := fun _ _ h => h }
@[simp] theorem specEngineTtiRead_canon : specEngineTtiRead.Canon := { eff := fun _ _ h => h }
@[simp] theorem specEngineLock_canon : specEngineLock.Canon := { eff := fun _ _ h => h }
@[simp] theorem specEngineUnlock_canon : specEngineUnlock.Canon := { eff := fun _ _ h => h }
@[simp] theorem specEngineSvcWrite_canon : specEngineSvcWrite.Canon := { eff := fun _ _ h => h }
@[simp] theorem specEngineSvcRead_canon : specEngineSvcRead.Canon := { eff := fun _ _ h => h }
@[simp] theorem specEngineOpareaSet_canon : specEngineOpareaSet.Canon := { eff := fun _ _ h => h }
@[simp] theorem specEngineOpareaRead_canon : specEngineOpareaRead.Canon := { eff := fun _ _ h => h }

/-! ### Defects -/

@[simp] theorem execSfHoldoffExpiry_canon (pack i) (s : State) : KeepsCanon s (execSfHoldoffExpiry pack i s) := by
  unfold execSfHoldoffExpiry
  (repeat' split) <;> simp
@[simp] theorem State.tellDefects_mems (r s : State) : (State.tellDefects r s).mems = s.mems := by
  refine (mems_foldl (fun s d => mems_foldl (fun s x => ?_) _ _) _ _).trans
    ((mems_foldl (fun s d => mems_foldl (fun s p => ?_) _ _) _ _).trans
      (mems_foldl (fun s d => mems_foldl (fun s e => ?_) _ _) _ _))
  all_goals
    simp only
    split <;> simp
@[simp] theorem State.portEgress_mems (n o) (s : State) : (s.portEgress n o).mems = s.mems := by
  unfold State.portEgress
  (repeat' split) <;> simp
@[simp] theorem specEngineDefectSet_canon : specEngineDefectSet.Canon := { eff := fun _ _ h => h }

/-! ### Waveform -/

@[simp] theorem State.keepFrame_mems (e) (s : State) : (s.keepFrame e).mems = s.mems := by simp [State.keepFrame]

/-! ### Convert -/

@[simp] theorem State.modConv_mems (e f) (s : State) : (s.modConv e f).mems = s.mems := by simp [State.modConv]
@[simp] theorem State.recentre_mems (e dac lane) (s : State) : (s.recentre e dac lane).mems = s.mems := by simp [State.recentre]
@[simp] theorem State.recentreAll_mems (e) (s : State) : (s.recentreAll e).mems = s.mems := by simp [State.recentreAll]
@[simp] theorem State.adcSeen_mems (e o) (s : State) : (s.adcSeen e o).mems = s.mems := by simp [State.adcSeen]
@[simp] theorem State.dacSeen_mems (e o) (s : State) : (s.dacSeen e o).mems = s.mems := by simp [State.dacSeen]
@[simp] theorem State.windowStart_mems (e) (s : State) : (s.windowStart e).mems = s.mems := by simp [State.windowStart]
@[simp] theorem State.calTick_mems (e o) (s : State) : (s.calTick e o).mems = s.mems := by unfold State.calTick; split <;> simp
@[simp] theorem State.queueRetirement_mems (e r) (s : State) : (s.queueRetirement e r).mems = s.mems := by
  simp [State.queueRetirement]
@[simp] theorem State.spareLow_mems (e u) (s : State) : (s.spareLow e u).mems = s.mems := by simp [State.spareLow]
@[simp] theorem State.retireUnit_mems (d e) (s : State) : (s.retireUnit d e).mems = s.mems := by
  simp only [State.retireUnit]
  (repeat' split) <;> simp
@[simp] theorem State.recordDue_mems (d e) (s : State) : (s.recordDue d e).mems = s.mems := by simp [State.recordDue]
@[simp] theorem State.makeDue_mems (e p) (s : State) : (s.makeDue e p).mems = s.mems := by simp [State.makeDue]
@[simp] theorem State.checkResult_mems (e temp vars m) (s : State) : (s.checkResult e temp vars m).mems = s.mems := by
  simp [State.checkResult]
@[simp] theorem State.checkWindow_mems (e vars rs) (s : State) : (s.checkWindow e vars rs).mems = s.mems := by
  simp [State.checkWindow]
@[simp] theorem execCalWindowCheck_canon (e offset gain skew) (s : State) : KeepsCanon s (execCalWindowCheck e offset gain skew s) := by
  unfold execCalWindowCheck
  split <;> simp
@[simp] theorem State.applyResult_mems (e r) (s : State) : (s.applyResult e r).mems = s.mems := by simp [State.applyResult]
@[simp] theorem execCalApply_canon (e) (s : State) : KeepsCanon s (execCalApply e s) := by unfold execCalApply; (repeat' split) <;> simp
@[simp] theorem State.convBoundary_mems (e) (s : State) : (s.convBoundary e).mems = s.mems := by
  simp only [State.convBoundary]
  (repeat' split) <;> simp
@[simp] theorem execConverterSensorRead_canon (e temp) (s : State) : KeepsCanon s (execConverterSensorRead e temp s) := by
  simp [execConverterSensorRead]
@[simp] theorem execRetirementEntryWrite_canon (s : State) : KeepsCanon s (execRetirementEntryWrite s) := by
  unfold execRetirementEntryWrite
  split <;> simp
@[simp] theorem specConvStatus_canon : specConvStatus.Canon := { eff := fun _ _ h => h }
@[simp] theorem specConvCalRead_canon : specConvCalRead.Canon := { eff := by simp [specConvCalRead, Effect.Canon] }
@[simp] theorem specConvCalLoad_canon : specConvCalLoad.Canon := { eff := by simp [specConvCalLoad, Effect.Canon] }
@[simp] theorem specConvCalFactory_canon : specConvCalFactory.Canon := { eff := by simp [specConvCalFactory, Effect.Canon] }
@[simp] theorem specConvRetireCmd_canon : specConvRetireCmd.Canon := { eff := fun _ _ h => h }
@[simp] theorem specConvRestore_canon : specConvRestore.Canon := { eff := fun _ _ h => h }
@[simp] theorem specConvCalSet_canon : specConvCalSet.Canon := { eff := fun _ _ h => h }

/-! ### CaptureTick -/

@[simp] theorem State.captureTake_mems (k o) (s : State) : (s.captureTake k o).mems = s.mems := by simp [State.captureTake]

/-! ### Isolate -/

@[simp] theorem State.isolateTold_mems (e) (s : State) : (s.isolateTold e).mems = s.mems := by simp [State.isolateTold]
@[simp] theorem State.setIso_mems (e i) (s : State) : (s.setIso e i).mems = s.mems := by simp [State.setIso]
@[simp] theorem specEngineIsolate_canon : specEngineIsolate.Canon := { eff := by simp [specEngineIsolate, Effect.Canon] }
@[simp] theorem specEngineRestore_canon : specEngineRestore.Canon := { eff := by simp [specEngineRestore, Effect.Canon] }
@[simp] theorem State.fenceEngineStep_mems (e) (s : State) : (s.fenceEngineStep e).mems = s.mems := by simp [State.fenceEngineStep]
@[simp] theorem State.fencePackChange_mems (p k) (s : State) : (s.fencePackChange p k).mems = s.mems := by
  simp [State.fencePackChange]
@[simp] theorem State.fenceTile_mems (k) (s : State) : (s.fenceTile k).mems = s.mems := by simp [State.fenceTile]
@[simp] theorem applyFence_mems (c) (s : State) : (applyFence c s).mems = s.mems := by
  simp only [applyFence]
  (repeat' split) <;> simp
@[simp] theorem specTileFence_canon : specTileFence.Canon := { eff := by simp [specTileFence, Effect.Canon] }
@[simp] theorem State.fenceDone_mems (op k) (s : State) : (s.fenceDone op k).mems = s.mems := by simp [State.fenceDone]
@[simp] theorem execTilePowerDownDone_canon (k) (s : State) : KeepsCanon s (execTilePowerDownDone k s) := by simp [execTilePowerDownDone]
@[simp] theorem startUnfence_mems (j c) (s : State) : (startUnfence j c s).mems = s.mems := by simp [startUnfence]
@[simp] theorem State.unfenceEngine_mems (e) (s : State) : (s.unfenceEngine e).mems = s.mems := by simp [State.unfenceEngine]
@[simp] theorem specTileUnfence_canon : specTileUnfence.Canon := { eff := by simp [specTileUnfence, Effect.Canon] }
@[simp] theorem execTilePowerUpDone_canon (k) (s : State) : KeepsCanon s (execTilePowerUpDone k s) := by simp [execTilePowerUpDone]

/-! ### Recovery -/

@[simp] theorem State.enterHeadless_mems (s : State) : s.enterHeadless.mems = s.mems := by simp [State.enterHeadless]
@[simp] theorem State.intervene_mems (actor cause) (s : State) : (s.intervene actor cause).mems = s.mems := by simp [State.intervene]
@[simp] theorem State.lifeRestart_mems (cause) (s : State) : (s.lifeRestart cause).mems = s.mems := by simp [State.lifeRestart]
@[simp] theorem State.declareDown_mems (cause) (s : State) : (s.declareDown cause).mems = s.mems := by simp [State.declareDown]
@[simp] theorem execFwHeartbeat_canon (s : State) : KeepsCanon s (execFwHeartbeat s) := by simp [execFwHeartbeat]
@[simp] theorem execShepherdHeartbeat_canon (s : State) : KeepsCanon s (execShepherdHeartbeat s) := by simp [execShepherdHeartbeat]
@[simp] theorem execHeartbeatTimeout_canon (s : State) : KeepsCanon s (execHeartbeatTimeout s) := by simp [execHeartbeatTimeout]
@[simp] theorem execFwFatalTrap_canon (s : State) : KeepsCanon s (execFwFatalTrap s) := by simp [execFwFatalTrap]
@[simp] theorem execFwBootTimeout_canon (s : State) : KeepsCanon s (execFwBootTimeout s) := by
  simp only [execFwBootTimeout]
  (repeat' split) <;> simp
@[simp] theorem execShepherdHeartbeatTimeout_canon (s : State) : KeepsCanon s (execShepherdHeartbeatTimeout s) := by
  simp [execShepherdHeartbeatTimeout]
@[simp] theorem execLastResortKick_canon (s : State) : KeepsCanon s (execLastResortKick s) := by simp [execLastResortKick]
@[simp] theorem execLastResortExpiry_canon (s : State) : KeepsCanon s (execLastResortExpiry s) := by simp [execLastResortExpiry]
@[simp] theorem State.bootFailed_mems (err) (s : State) : (s.bootFailed err).mems = s.mems := by simp [State.bootFailed]
@[simp] theorem State.bootRuns_mems (slot image shep trial) (s : State) : (s.bootRuns slot image shep trial).mems = s.mems := by
  unfold State.bootRuns
  simp [↓mems_update]
@[simp] theorem State.bootFlash_mems (s : State) : s.bootFlash.mems = s.mems := by
  simp only [State.bootFlash]
  (repeat' split) <;> simp
@[simp] theorem State.bootHost_mems (s : State) : s.bootHost.mems = s.mems := by simp only [State.bootHost]; (repeat' split) <;> simp
@[simp] theorem execFirmwareBoot_canon (s : State) : KeepsCanon s (execFirmwareBoot s) := by
  unfold execFirmwareBoot
  (repeat' split) <;> simp [↓mems_update]
@[simp] theorem State.bootGoWrite_mems (s : State) : s.bootGoWrite.mems = s.mems := by simp [State.bootGoWrite]
@[simp] theorem execBootGo_canon (s : State) : KeepsCanon s (execBootGo s) := by simp [execBootGo]
@[simp] theorem State.resume_mems (s : State) : s.resume.mems = s.mems := by unfold State.resume; simp [↓mems_update]
@[simp] theorem execFwRunningReport_canon (s : State) : KeepsCanon s (execFwRunningReport s) := by
  simp only [execFwRunningReport]
  (repeat' split) <;> simp [↓mems_update]

/-! ### Reset -/

@[simp] theorem State.dmaReset_mems (drop) (s : State) : (s.dmaReset drop).mems = s.mems := by
  unfold State.dmaReset
  simp [↓mems_update]
@[simp] theorem State.pcieReset_mems (s : State) : s.pcieReset.mems = s.mems := by simp [State.pcieReset]
@[simp] theorem State.endpointNow_mems (s : State) : s.endpointNow.mems = s.mems := by simp [State.endpointNow]
@[simp] theorem execPerst_canon (s : State) : KeepsCanon s (execPerst s) := by simp [execPerst]
@[simp] theorem execPerstRelease_canon (s : State) : KeepsCanon s (execPerstRelease s) := by simp [execPerstRelease]
@[simp] theorem execHotReset_canon (s : State) : KeepsCanon s (execHotReset s) := by simp [execHotReset]
@[simp] theorem execFunctionLevelReset_canon (s : State) : KeepsCanon s (execFunctionLevelReset s) := by simp [execFunctionLevelReset]
@[simp] theorem execD3hotEntry_canon (s : State) : KeepsCanon s (execD3hotEntry s) := by simp [execD3hotEntry]
@[simp] theorem execD0Return_canon (s : State) : KeepsCanon s (execD0Return s) := by simp [execD0Return]
@[simp] theorem execPcieRefclkLoss_canon (s : State) : KeepsCanon s (execPcieRefclkLoss s) := by simp [execPcieRefclkLoss]
@[simp] theorem execPcieRefclkReturn_canon (s : State) : KeepsCanon s (execPcieRefclkReturn s) := by simp [execPcieRefclkReturn]
@[simp] theorem State.mgmtReset_mems (shep) (s : State) : (s.mgmtReset shep).mems = s.mems := by
  unfold State.mgmtReset
  simp [↓mems_update]
@[simp] theorem State.mgmtRelease_mems (s : State) : s.mgmtRelease.mems = s.mems := by
  simp only [State.mgmtRelease]
  (repeat' split) <;> simp
@[simp] theorem execMgmtRstAssert_canon (s : State) : KeepsCanon s (execMgmtRstAssert s) := by simp [execMgmtRstAssert]
@[simp] theorem execMgmtRstRelease_canon (s : State) : KeepsCanon s (execMgmtRstRelease s) := by simp [execMgmtRstRelease]

/-! ### Power -/

@[simp] theorem State.lifeBrace_mems (d) (s : State) : (s.lifeBrace d).mems = s.mems := by simp [State.lifeBrace]
@[simp] theorem State.lifeDeepest_mems (d level) (s : State) : (s.lifeDeepest d level).mems = s.mems := by simp [State.lifeDeepest]
@[simp] theorem execRailWarning_canon (d r level) (s : State) : KeepsCanon s (execRailWarning d r level s) := by
  simp only [execRailWarning]
  (repeat' split) <;> simp
@[simp] theorem execBraceExit_canon (s : State) : KeepsCanon s (execBraceExit s) := by unfold execBraceExit; split <;> simp
@[simp] theorem execAvsLoopStep_canon (step acked) (s : State) : KeepsCanon s (execAvsLoopStep step acked s) := by simp [execAvsLoopStep]
@[simp] theorem execVbatMeasurement_canon (mv) (s : State) : KeepsCanon s (execVbatMeasurement mv s) := by simp [execVbatMeasurement]

/-! ### Kennel -/

@[simp] theorem State.tjCount_mems (die t) (s : State) : (s.tjCount die t).mems = s.mems := by simp [State.tjCount]
@[simp] theorem State.thermalStep_mems (die t) (s : State) : (s.thermalStep die t).mems = s.mems := by simp [State.thermalStep]
@[simp] theorem State.pohStep_mems (s : State) : s.pohStep.mems = s.mems := by simp [State.pohStep]
@[simp] theorem State.ucfStep_mems (s : State) : s.ucfStep.mems = s.mems := by simp [State.ucfStep]
@[simp] theorem State.dieRead_mems (die t) (s : State) : (s.dieRead die t).mems = s.mems := by simp [State.dieRead]
@[simp] theorem State.sensorsSeen_mems (l) (s : State) : (s.sensorsSeen l).mems = s.mems := by simp [State.sensorsSeen]
@[simp] theorem execLifeRecordSecond_canon (temps) (s : State) : KeepsCanon s (execLifeRecordSecond temps s) := by
  unfold execLifeRecordSecond
  split
  · simp
  · simp only [keepsCanon_next, State.ucfStep_mems, State.pohStep_mems]
    refine canon_foldl (fun s x hs => ?_) _ s
    split <;> simpa using hs
@[simp] theorem State.mirrorLife_mems (s : State) : s.mirrorLife.mems = s.mems := by simp [State.mirrorLife]
@[simp] theorem execLifeMirrorWrite_canon (s : State) : KeepsCanon s (execLifeMirrorWrite s) := by simp [execLifeMirrorWrite]
@[simp] theorem specLifeExport_canon : specLifeExport.Canon := { eff := fun c s => by simp }
@[simp] theorem specKennelExport_canon : specKennelExport.Canon := { eff := fun c s => by simp }
@[simp] theorem specKennelStatus_canon : specKennelStatus.Canon := { eff := fun _ _ h => h }
@[simp] theorem specShepherdStatus_canon : specShepherdStatus.Canon := { eff := fun _ _ h => h }
@[simp] theorem specFwLoad_canon : specFwLoad.Canon := { eff := by simp [specFwLoad, Effect.Canon] }
@[simp] theorem activate_mems (c) (s : State) : (activate c s).mems = s.mems := by simp [activate]
@[simp] theorem specFwActivate_canon : specFwActivate.Canon := { eff := by simp [specFwActivate, Effect.Canon] }
@[simp] theorem specFwCommit_canon : specFwCommit.Canon := { eff := fun _ _ h => h }
@[simp] theorem specFwStatus_canon : specFwStatus.Canon := { eff := fun _ _ h => h }

/-! ### Device -/

@[simp] theorem specDeviceNop_canon : specDeviceNop.Canon := { eff := fun _ _ h => h }
@[simp] theorem specDeviceIdentity_canon : specDeviceIdentity.Canon := { eff := fun _ _ h => h }
@[simp] theorem specDeviceStatus_canon : specDeviceStatus.Canon := { eff := fun _ _ h => h }
@[simp] theorem specEventMaskSet_canon : specEventMaskSet.Canon := { eff := fun _ _ h => h }
@[simp] theorem specFeProfileLoad_canon : specFeProfileLoad.Canon := { eff := by simp [specFeProfileLoad, Effect.Canon] }
theorem State.calCommit_canon {n im} {s t : State} (h : s.calCommit n im = .ok t) (hs : s.mems.Canon) : t.mems.Canon := by
  simp only [State.calCommit] at h
  split at h
  · cases h
  · cases h
    exact ⟨hs.active, cellsWf_cellSetMany _ _ _ _ hs.shadow, hs.activeParity, cellsWf_cellSetMany _ _ _ _ hs.shadowParity, hs.slots⟩
theorem State.convCommit_mems {e im} {s t : State} (h : s.convCommit e im = .ok t) : t.mems = s.mems := by
  simp only [State.convCommit] at h
  (repeat' split at h) <;> cases h
  simp
@[simp] theorem State.imageCommit_mems (c im) (s : State) : (s.imageCommit c im).1.mems = s.mems := by
  unfold State.imageCommit; (repeat' split) <;> simp
theorem State.commitLoad_canon (op c im) (s : State) (hs : s.mems.Canon) : (s.commitLoad op c im).1.mems.Canon := by
  have hi := s.imageCommit_mems c im
  unfold State.commitLoad
  dsimp only
  split
  · split
    case h_1 h => exact State.calCommit_canon h hs
    case h_2 => exact hs
  · split
    · simpa using hs
    · split
      · split
        case h_1 h => rwa [State.convCommit_mems h]
        case h_2 => exact hs
      · split
        · split <;> simpa using hs
        · split
          · split <;> simp_all
          · exact hs
theorem State.doneChannel_canon (c) (s : State) (hs : s.mems.Canon) : (s.doneChannel c).mems.Canon := by
  unfold State.doneChannel
  split
  · exact hs
  · simpa using s.commitLoad_canon _ _ _ hs
@[simp] theorem State.bootChannel_mems (e) (s : State) : (s.bootChannel e).mems = s.mems := by simp [State.bootChannel]
theorem State.finishChannel_canon (c e) (s : State) (hs : s.mems.Canon) : (s.finishChannel c e).mems.Canon := by
  unfold State.finishChannel
  split
  · simpa using hs
  · have hd := (s.endChannel c e).doneChannel_canon c (by simpa using hs)
    by_cases he : (e == .done) = true <;> simp [he, hd, hs]
@[simp] theorem execDmaChannelEnd_canon (c err moved) (s : State) : KeepsCanon s (execDmaChannelEnd c err moved s) := by
  simp only [execDmaChannelEnd]
  split
  · simp
  · split
    · split
      · simpa using s.finishChannel_canon c _
      · simp
    · split
      · exact fun _ h hs => by cases h; exact State.finishChannel_canon _ _ _ (by simpa using hs)
      · simp

/-! ### Monitor -/

@[simp] theorem State.resultCrossed_mems (q at') (s : State) : (s.resultCrossed q at').mems = s.mems := by simp [State.resultCrossed]
@[simp] theorem State.monPush_mems (k item) (s : State) : (s.monPush k item).mems = s.mems := by simp [State.monPush]
@[simp] theorem State.tlmPush_mems (item) (s : State) : (s.tlmPush item).mems = s.mems := by
  unfold State.tlmPush
  simp [↓mems_update]
@[simp] theorem State.monNext_mems (k) (s : State) : (s.monNext k).mems = s.mems := by simp [State.monNext]
@[simp] theorem State.monNextTold_mems (k) (s : State) : (s.monNextTold k).mems = s.mems := by simp [State.monNextTold]
@[simp] theorem execMonConversionDone_canon (k code) (s : State) : KeepsCanon s (execMonConversionDone k code s) := by
  simp only [execMonConversionDone]
  (repeat' split) <;> simp
@[simp] theorem State.monStall_mems (k) (s : State) : (s.monStall k).mems = s.mems := by simp [State.monStall]
@[simp] theorem execMonTestdacSettle_canon (k) (s : State) : KeepsCanon s (execMonTestdacSettle k s) := by
  unfold execMonTestdacSettle
  split <;> simp
@[simp] theorem execMonCalComplete_canon (k offset gain longest) (s : State) : KeepsCanon s (execMonCalComplete k offset gain longest s) := by
  simp only [execMonCalComplete]
  (repeat' split) <;> simp
@[simp] theorem specMonCal_canon : specMonCal.Canon := { eff := by simp [specMonCal, Effect.Canon] }
@[simp] theorem specMonSeqSet_canon : specMonSeqSet.Canon := { eff := fun _ _ h => h }
@[simp] theorem applySeqStart_mems (c) (s : State) : (applySeqStart c s).mems = s.mems := by
  simp only [applySeqStart]
  (repeat' split) <;> simp
@[simp] theorem specMonSeqStart_canon : specMonSeqStart.Canon := { eff := by simp [specMonSeqStart, Effect.Canon] }
@[simp] theorem specMonSeqStop_canon : specMonSeqStop.Canon := { eff := by simp [specMonSeqStop, Effect.Canon] }
@[simp] theorem specMonInject_canon : specMonInject.Canon := { eff := fun _ _ h => h }
@[simp] theorem specMonCorrSet_canon : specMonCorrSet.Canon := { eff := fun _ _ h => h }
@[simp] theorem specMonTestdacSet_canon : specMonTestdacSet.Canon := { eff := fun _ _ h => h }
@[simp] theorem execMonResultRead_canon (q) (s : State) : KeepsCanon s (execMonResultRead q s) := by
  unfold execMonResultRead
  (repeat' split) <;> simp [↓mems_update]
@[simp] theorem State.resultFlush_mems (q) (s : State) : (s.resultFlush q).mems = s.mems := by
  unfold State.resultFlush
  simp [↓mems_update]

/-! ### Queues -/

@[simp] theorem State.queueFlushed_mems (q items orphans) (s : State) : (s.queueFlushed q items orphans).mems = s.mems := by
  simp [State.queueFlushed]
@[simp] theorem State.endOrphans_mems (n) (s : State) : (s.endOrphans n).mems = s.mems := by unfold State.endOrphans; split <;> simp
@[simp] theorem State.flushCmd_mems (n orphans) (s : State) : (s.flushCmd n orphans).mems = s.mems := by simp [State.flushCmd]
@[simp] theorem State.raiseRdy_mems (s : State) : s.raiseRdy.mems = s.mems := by simp [State.raiseRdy]
@[simp] theorem State.flushResp_mems (n) (s : State) : (s.flushResp n).mems = s.mems := by simp [State.flushResp]
@[simp] theorem State.flushEvents_mems (s : State) : s.flushEvents.mems = s.mems := by simp [State.flushEvents]
@[simp] theorem State.flushSet_mems (q) (s : State) : (s.flushSet q).mems = s.mems := by
  unfold State.flushSet
  (repeat' split) <;> simp
@[simp] theorem execQueueFlush_canon (q) (s : State) : KeepsCanon s (execQueueFlush q s) := by simp [execQueueFlush]
@[simp] theorem State.commitWords_mems (q pi words) (s : State) : (s.commitWords q pi words).mems = s.mems := by
  simp [State.commitWords]
@[simp] theorem State.dropToPi_mems (q) (s : State) : (s.dropToPi q).mems = s.mems := by simp [State.dropToPi]
@[simp] theorem State.doorbell_mems (q pi sync words) (s : State) : (s.doorbell q pi sync words).mems = s.mems := by
  simp only [State.doorbell]
  (repeat' split) <;> simp
@[simp] theorem execCommandRingDoorbell_canon (q pi sync words) (s : State) : KeepsCanon s (execCommandRingDoorbell q pi sync words s) := by
  simp [execCommandRingDoorbell]
@[simp] theorem State.enableRing_mems (q) (s : State) : (s.enableRing q).mems = s.mems := by simp [State.enableRing]
@[simp] theorem State.disableRing_mems (q) (s : State) : (s.disableRing q).mems = s.mems := by simp [State.disableRing]
@[simp] theorem State.writeControl_mems (q w) (s : State) : (s.writeControl q w).mems = s.mems := by simp [State.writeControl]
@[simp] theorem execRingEnableWrite_canon (q w) (s : State) : KeepsCanon s (execRingEnableWrite q w s) := by simp [execRingEnableWrite]
@[simp] theorem State.writeCi_mems (q ci) (s : State) : (s.writeCi q ci).mems = s.mems := by simp [State.writeCi]
@[simp] theorem execRingCiWrite_canon (q ci) (s : State) : KeepsCanon s (execRingCiWrite q ci s) := by simp [execRingCiWrite]
@[simp] theorem State.wmClear_mems (q) (s : State) : (s.wmClear q).mems = s.mems := by
  unfold State.wmClear
  (repeat' split) <;> simp [↓mems_update]
@[simp] theorem execWmLatchedClear_canon (q) (s : State) : KeepsCanon s (execWmLatchedClear q s) := by simp [execWmLatchedClear]
@[simp] theorem execHeldResponseCommit_canon (n) (s : State) : KeepsCanon s (execHeldResponseCommit n s) := by
  unfold execHeldResponseCommit
  split <;> simp
@[simp] theorem execHeldEventEntry_canon (s : State) : KeepsCanon s (execHeldEventEntry s) := by unfold execHeldEventEntry; split <;> simp
@[simp] theorem execEventRingDrain_canon (s : State) : KeepsCanon s (execEventRingDrain s) := by unfold execEventRingDrain; split <;> simp
@[simp] theorem execIntHoldoffExpiry_canon (q) (s : State) : KeepsCanon s (execIntHoldoffExpiry q s) := by simp [execIntHoldoffExpiry]
@[simp] theorem State.unmask_mems (v) (s : State) : (s.unmask v).mems = s.mems := by simp [State.unmask]
@[simp] theorem execMsixUnmask_canon (v) (s : State) : KeepsCanon s (execMsixUnmask v s) := by simp [execMsixUnmask]
@[simp] theorem State.spiWord_mems (w) (s : State) : (s.spiWord w).mems = s.mems := by simp [State.spiWord]
@[simp] theorem State.spiIn_mems (w) (s : State) : (s.spiIn w).mems = s.mems := by unfold State.spiIn; split <;> simp
@[simp] theorem execSpiCommandWindowWrite_canon (first last words) (s : State) : KeepsCanon s (execSpiCommandWindowWrite first last words s) := by
  simp only [execSpiCommandWindowWrite]
  (repeat' split) <;> simp
@[simp] theorem execSpiResponseWindowRead_canon (n last) (s : State) : KeepsCanon s (execSpiResponseWindowRead n last s) := by
  unfold execSpiResponseWindowRead
  simp [↓mems_update]
@[simp] theorem execSpiEventWindowRead_canon (n last) (s : State) : KeepsCanon s (execSpiEventWindowRead n last s) := by
  unfold execSpiEventWindowRead
  simp [↓mems_update]
@[simp] theorem execSpiStatus_canon (s : State) : KeepsCanon s (execSpiStatus s) := by unfold execSpiStatus; simp [↓mems_update]
@[simp] theorem execProgress_canon (seq fraction) (s : State) : KeepsCanon s (execProgress seq fraction s) := by
  unfold execProgress
  split <;> simp

/-! ### Registers -/

@[simp] theorem State.writeDevice_mems (o v) (s : State) : (s.writeDevice o v).mems = s.mems := by
  unfold State.writeDevice
  (repeat' split) <;> simp
@[simp] theorem State.writeQueue_mems (q o v) (s : State) : (s.writeQueue q o v).mems = s.mems := by
  unfold State.writeQueue
  (repeat' split) <;> simp
@[simp] theorem State.writeResult_mems (k v) (s : State) : (s.writeResult k v).mems = s.mems := by
  unfold State.writeResult
  (repeat' split) <;> simp [↓mems_update]
@[simp] theorem State.writeDma_mems (c o v) (s : State) : (s.writeDma c o v).mems = s.mems := by simp [State.writeDma]
@[simp] theorem State.writeMsix_mems (o v) (s : State) : (s.writeMsix o v).mems = s.mems := by
  unfold State.writeMsix
  (repeat' split) <;> simp
@[simp] theorem State.writeMap_mems (a v) (s : State) : (s.writeMap a v).mems = s.mems := by
  unfold State.writeMap
  (repeat' split) <;> simp
@[simp] theorem execRegisterWrite_canon (path bar2 offset value) (s : State) : KeepsCanon s (execRegisterWrite path bar2 offset value s) := by
  unfold execRegisterWrite
  split <;> simp

/-! ### Telemetry -/

@[simp] theorem State.modChain_mems (n f) (s : State) : (s.modChain n f).mems = s.mems := by simp [State.modChain, State.mems]
@[simp] theorem State.tlmFir_mems (n x) (s : State) : (s.tlmFir n x).mems = s.mems := by simp [State.tlmFir]
@[simp] theorem State.tlmHb2_mems (n x) (s : State) : (s.tlmHb2 n x).mems = s.mems := by
  simp only [State.tlmHb2]
  (repeat' split) <;> simp
@[simp] theorem State.tlmHb1_mems (n x) (s : State) : (s.tlmHb1 n x).mems = s.mems := by
  simp only [State.tlmHb1]
  (repeat' split) <;> simp
@[simp] theorem State.tlmInput_mems (n v stale) (s : State) : (s.tlmInput n v stale).mems = s.mems := by simp [State.tlmInput]
@[simp] theorem execTlmSample_canon (n) (s : State) : KeepsCanon s (execTlmSample n s) := by
  simp only [execTlmSample]
  (repeat' split) <;> simp
@[simp] theorem specTlmChainSet_canon : specTlmChainSet.Canon := { eff := fun _ _ h => h }
@[simp] theorem specTlmCoefLoad_canon : specTlmCoefLoad.Canon := { eff := fun _ _ h => h }
@[simp] theorem specTlmCoefSwap_canon : specTlmCoefSwap.Canon := { eff := fun _ _ h => h }
@[simp] theorem specTlmReset_canon : specTlmReset.Canon := { eff := fun _ _ h => h }

/-! ### OpTable -/

/-- Every assigned opcode and every read counterpart keeps the memories canonical. -/
theorem allSpecs_canon : ∀ sp ∈ allSpecs, sp.Canon := by simp [allSpecs]
theorem readSpec_canon (sp r) : (readSpec sp r).Canon := { eff := fun _ _ h => h }
theorem opTable_canon {op : Nat} {sp : OpSpec} (h : opTable op = some sp) : sp.Canon := by
  unfold opTable at h
  split at h
  case h_1 hf => cases h; exact allSpecs_canon _ (List.mem_of_find?_eq_some hf)
  case h_2 =>
    split at h
    · cases h
    · obtain ⟨x, -, hx⟩ := Option.bind_eq_some_iff.mp h
      obtain ⟨r, -, rfl⟩ := Option.map_eq_some_iff.mp hx
      exact readSpec_canon x r
@[simp] theorem execUnknownOpcode_canon (op c) (s : State) : KeepsCanon s (execUnknownOpcode op c s) := by
  unfold execUnknownOpcode
  split
  · simpa using runSpec_canon (spec := none) (fun _ e => by cases e) op.val c s
  · simp
@[simp] theorem execReadCounterpart_canon (op c) (s : State) : KeepsCanon s (execReadCounterpart op c s) := by
  unfold execReadCounterpart
  split
  case h_1 sp hs =>
    obtain ⟨x, -, hx⟩ := Option.bind_eq_some_iff.mp hs
    obtain ⟨r, -, rfl⟩ := Option.map_eq_some_iff.mp hx
    simpa using runSpec_canon (fun _ e => by cases e; exact readSpec_canon x r) op.val c s
  case h_2 => simp
theorem State.parseOne_canon (n) (s : State) (hs : s.mems.Canon) : (s.parseOne n).mems.Canon := by
  simp only [State.parseOne]
  split
  · simpa using hs
  · split
    · simpa using hs
    · exact parseCmd_canon (fun _ h => opTable_canon h) _ _ _ (by simpa using hs)
theorem State.parseUrgent_canon (n) (s : State) (hs : s.mems.Canon) : (s.parseUrgent n).mems.Canon := by
  induction n generalizing s with
  | zero => exact hs
  | succ n ih =>
    unfold State.parseUrgent
    split
    · exact ih _ (s.parseOne_canon _ hs)
    · exact hs
theorem State.parseRounds_canon (n) (s : State) (hs : s.mems.Canon) : (s.parseRounds n).mems.Canon := by
  induction n generalizing s with
  | zero => exact hs
  | succ n ih => exact ih _ (canon_foldl (fun s m h => State.parseOne_canon m _ (s.parseUrgent_canon _ h)) _ s hs)
theorem State.parseAll_canon (s : State) (hs : s.mems.Canon) : s.parseAll.mems.Canon := s.parseRounds_canon _ hs
theorem State.startHeld_canon (h) (s : State) (hs : s.mems.Canon) : (s.startHeld h).mems.Canon := by
  simp only [State.startHeld]
  split
  case h_1 ho => exact startCmd_canon (opTable_canon ho) _ _ _ (by simpa using hs)
  case h_2 => simpa using hs
theorem State.releaseHeld_canon (s : State) (hs : s.mems.Canon) : s.releaseHeld.mems.Canon := by
  refine canon_foldl (fun s h hs => ?_) _ s hs
  split
  · exact hs
  · exact s.startHeld_canon h hs
theorem boundaryEffect_canon (op c) (s : State) (hs : s.mems.Canon) : (boundaryEffect op c s).mems.Canon := by
  unfold boundaryEffect
  split
  · simpa using hs
  · split
    · simpa using hs
    · cases ho : opTable op with
      | none => exact hs
      | some sp =>
        have he := (opTable_canon ho).eff
        cases hf : sp.eff <;> rw [hf] at he
        case boundary | atBoundary => simpa [hf] using he c s hs
        all_goals simpa [hf] using hs
theorem State.applyArmed_canon (a) (s : State) (hs : s.mems.Canon) : (s.applyArmed a).mems.Canon := by
  have hb := fun t (ht : State.mems t = s.mems) => boundaryEffect_canon a.opcode a.cmd t (ht ▸ hs)
  unfold State.applyArmed
  split
  · dsimp only
    split <;> simp [hb]
  · exact hs
theorem State.applyDue_canon (s : State) (hs : s.mems.Canon) : s.applyDue.mems.Canon :=
  canon_foldl (fun s a h => s.applyArmed_canon a h) _ s hs
@[simp] theorem execTickAlignedChangeEffect_canon (s : State) : KeepsCanon s (execTickAlignedChangeEffect s) := by
  simpa [execTickAlignedChangeEffect] using s.applyDue_canon

end Sys2Proof.Machine
end

section
/-! The sparse memories through a tick, a realignment and the resets, every row of the block, and the step (O3, O1, O2). -/
-- As above: one thread for many short proofs.
set_option Elab.async false
namespace Sys2Proof.Machine

/-! ### The counter array at the end of a tick -/

theorem Counters.add_canon (i n : Nat) (c : Counters) (h : cellsWf 0 c.slots = true) : cellsWf 0 (c.add i n).slots = true :=
  cellsWf_cellSet _ _ _ _ h
theorem Counters.foldl_add_canon (l : List (Nat × Nat)) (c : Counters) (h : cellsWf 0 c.slots = true) :
    cellsWf 0 (l.foldl (fun c x => c.add x.1 x.2) c).slots = true := by
  induction l generalizing c with
  | nil => exact h
  | cons x l ih => exact ih _ (c.add_canon x.1 x.2 h)
theorem Counters.accumulate_canon (c : Counters) (h : cellsWf 0 c.slots = true) : cellsWf 0 c.accumulate.slots = true :=
  Counters.foldl_add_canon _ _ h

/-! ### Tick -/

@[simp] theorem State.labelled_mems (n) {f : State → State} (h : ∀ s, (f s).mems = s.mems) (s : State) : (s.labelled n f).mems = s.mems := by
  simp [State.labelled, h]
@[simp] theorem State.engineSeen_mems (e o) (s : State) : (s.engineSeen e o).mems = s.mems := by
  unfold State.engineSeen
  split <;> simp
@[simp] theorem State.poisonSlot_mems (ahead e slot) (s : State) : (s.poisonSlot ahead e slot).mems = s.mems := by
  unfold State.poisonSlot
  split <;> simp
@[simp] theorem State.sendSide_mems (o e) (s : State) : (s.sendSide o e).mems = s.mems := by simp [State.sendSide]
@[simp] theorem State.takeSide_mems (o k i) (s : State) : (s.takeSide o k i).mems = s.mems := by simp [State.takeSide]
@[simp] theorem State.mapSide_mems (o n) (s : State) : (s.mapSide o n).mems = s.mems := by simp [State.mapSide]
@[simp] theorem State.fabricPass_mems (o) (s : State) : (s.fabricPass o).mems = s.mems := by simp [State.fabricPass]
@[simp] theorem State.countClient_mems (x) (s : State) : (s.countClient x).mems = s.mems := by simp [State.countClient]
@[simp] theorem State.countPort_mems (s : State) (x) : (s.countPort x).mems = s.mems := by unfold State.countPort; split <;> simp
theorem State.countTick_canon (o) (s : State) (hs : s.mems.Canon) : (s.countTick o).mems.Canon :=
  State.modCtr_canon (fun c h => c.mature.accumulate_canon h) _ (by simpa using hs)
theorem withTraffic_canon (b : Bool) (s : State) (hs : s.mems.Canon) : (State.mems { s with trafficLast := b }).Canon := hs
theorem State.closeTick_canon (o) (s : State) (hs : s.mems.Canon) : (s.closeTick o).mems.Canon := by
  unfold State.closeTick
  refine withTraffic_canon _ _ ?_
  rw [mems_foldl (fun s e => s.keepFrame_mems e), mems_foldl (fun s c => s.dumpTick_mems c)]
  refine State.countTick_canon o _ ?_
  simpa using hs
@[simp] theorem State.fadeTick_mems (e) (s : State) : (s.fadeTick e).mems = s.mems := by simp [State.fadeTick]
@[simp] theorem State.engineBoundary_mems (e) (s : State) : (s.engineBoundary e).mems = s.mems := by simp [State.engineBoundary]
@[simp] theorem State.braceBoundary_mems (s : State) : s.braceBoundary.mems = s.mems := by simp [State.braceBoundary]
@[simp] theorem State.bootBoundary_mems (s : State) : s.bootBoundary.mems = s.mems := by simp [State.bootBoundary]
@[simp] theorem State.frameBoundary_mems (e) (s : State) : (s.frameBoundary e).mems = s.mems := by simp [State.frameBoundary]
theorem State.portsBoundary_canon (l : List (Nat × Port)) (s : State) (hs : s.mems.Canon) :
    (l.foldl (fun s p => ((s.modPort p.1 Port.boundary).tapSecond p.1).bwBoundary p.1) s).mems.Canon :=
  canon_foldl (fun s p h => State.bwBoundary_canon p.1 _ (by simpa using h)) l s hs
theorem State.boundary_canon (s : State) (hs : s.mems.Canon) : s.boundary.mems.Canon := by
  have h := s.portsBoundary_canon s.ports hs
  have ha := State.applyDue_canon _ (canon_of_mems (mems_foldl (f := fun s e => State.fadeTick e s) (fun s e => s.fadeTick_mems e) (List.range 48) _) h)
  unfold State.boundary
  simpa using ha
theorem State.advanceTick_mems (s : State) : s.advanceTick.mems = s.mems := by simp [State.advanceTick, ↓mems_update]
theorem execTick_canon (obs) (s : State) : KeepsCanon s (execTick obs s) := by
  unfold execTick
  split
  · simp
  · simp only [keepsCanon_next, State.refreshAlert_mems]
    intro hs
    refine State.parseAll_canon _ (State.releaseHeld_canon _ (State.boundary_canon _ ?_))
    rw [State.advanceTick_mems]
    exact s.closeTick_canon obs hs

/-! ### Realign -/

@[simp] theorem State.ivAdvance_mems (s : State) : s.ivAdvance.mems = s.mems := by simp [State.ivAdvance]
theorem State.bwRealign_canon (s : State) (hs : s.mems.Canon) : s.bwRealign.mems.Canon :=
  canon_foldl (fun s p h => State.bwBoundary_canon p.1 _ (by simpa using h)) _ s hs
@[simp] theorem State.windowRealign_mems (e) (s : State) : (s.windowRealign e).mems = s.mems := by simp [State.windowRealign]
@[simp] theorem State.reassemble_mems (e) (s : State) : (s.reassemble e).mems = s.mems := by unfold State.reassemble; split <;> simp
@[simp] theorem State.realignPending_mems (old new) (s : State) : (s.realignPending old new).mems = s.mems := by
  simp [State.realignPending, ↓mems_update]
/-- The clocks that a realignment sets, and the guards it drops. -/
theorem realigned_mems (tn : Nat) (off : Int) (realign) (guards) (s : State) :
    State.mems { s with tn := tn, tickOffset := off, tnProvisional := false, realign := realign, cal := { s.cal with guards := guards } } = s.mems := rfl
theorem State.realignNow_canon (r) (s : State) (hs : s.mems.Canon) : (s.realignNow r).mems.Canon := by
  unfold State.realignNow
  refine canon_of_mems (mems_foldl (fun s e => by simp) _ _) (State.bwRealign_canon _ ?_)
  simpa [↓realigned_mems] using hs
@[simp] theorem State.realignAbandon_mems (r) (s : State) : (s.realignAbandon r).mems = s.mems := by
  simp [State.realignAbandon, ↓mems_update]
theorem execRealignment_canon (s : State) : KeepsCanon s (execRealignment s) := by
  unfold execRealignment
  split
  · simp
  · split
    · simp only [keepsCanon_next]
      intro hs
      refine State.releaseHeld_canon _ ?_
      split
      · simpa using hs
      · exact State.realignNow_canon _ _ (by simpa using hs)
    · simp

/-! ### Resets -/

theorem reset_canon : State.reset.mems.Canon := ⟨rfl, rfl, rfl, rfl, rfl⟩
theorem State.sysCleared_canon (s : State) : s.sysCleared.mems.Canon := reset_canon
theorem State.sysReset_canon (s : State) : s.sysReset.mems.Canon := by
  simpa [State.sysReset] using s.sysCleared_canon
@[simp] theorem State.checkSettings_mems (s : State) : s.checkSettings.mems = s.mems := by simp [State.checkSettings]
@[simp] theorem State.checkLife_mems (s : State) : s.checkLife.mems = s.mems := by simp [State.checkLife]
@[simp] theorem State.applyRetirements_mems (s : State) : s.applyRetirements.mems = s.mems := by
  refine mems_foldl (fun s r => ?_) _ s
  split <;> simp
@[simp] theorem State.sysStart_mems (n) (s : State) : (s.sysStart n).mems = s.mems := by
  simp [State.sysStart, ↓mems_update]
theorem execSysRstAssert_canon (s : State) : KeepsCanon s (execSysRstAssert s) := by
  unfold execSysRstAssert
  split
  · simp
  · simpa using fun _ => State.sysReset_canon _
theorem execSysRstRelease_canon (n) (s : State) : KeepsCanon s (execSysRstRelease n s) := by simp [execSysRstRelease]
theorem execKennelPowerLoss_canon (s : State) : KeepsCanon s (execKennelPowerLoss s) := by
  simpa [execKennelPowerLoss] using fun _ => State.sysReset_canon _
theorem execVddAuxPowerUp_canon (s : State) : KeepsCanon s (execVddAuxPowerUp s) := by
  simpa [execVddAuxPowerUp] using fun _ => State.sysReset_canon _
theorem execKennelRtcUpdate_canon (trim) (s : State) : KeepsCanon s (execKennelRtcUpdate trim s) := by simp [execKennelRtcUpdate]

/-! ### Domain resets -/

@[simp] theorem State.lifeDomainReset_mems (d) (s : State) : (s.lifeDomainReset d).mems = s.mems := by simp [State.lifeDomainReset]
@[simp] theorem State.ltReset_mems (k) (s : State) : (s.ltReset k).mems = s.mems := by simp [State.ltReset]
@[simp] theorem State.htReset_mems (k) (s : State) : (s.htReset k).mems = s.mems := by simp [State.htReset]
/-- The reset of the hub empties the counter array; of the calendar only what is waiting or marked. -/
theorem hubCleared_canon (ctr : Counters) (h : cellsWf 0 ctr.slots = true) (frozen unread told bad dead packs) (s : State) (hs : s.mems.Canon) :
    (State.mems { s with ctr := ctr, packs := packs
                         cal := { s.cal with frozen := frozen, unread := unread, told := told, bad := bad, dead := dead } }).Canon :=
  { hs with slots := h }
theorem State.hubReset_canon (s : State) (hs : s.mems.Canon) : s.hubReset.mems.Canon := by
  unfold State.hubReset
  refine canon_of_mems (mems_foldl (fun s (p : Nat × Port) => s.flushClient_mems p.1) _ _) ?_
  refine hubCleared_canon { Counters.reset with bw := _ } rfl _ _ _ _ _ _ _ ?_
  exact canon_of_mems (mems_foldl (fun s c => by simp) _ _) (by simpa using hs)
theorem State.domainEffect_canon (d) (s : State) (hs : s.mems.Canon) : (s.domainEffect d).mems.Canon := by
  cases d with
  | hub => exact s.hubReset_canon hs
  | aux => exact s.sysReset_canon
  | _ => simpa [State.domainEffect] using hs
theorem execRailResetLevel_canon (d r level) (s : State) : KeepsCanon s (execRailResetLevel d r level s) := by
  simp only [execRailResetLevel]
  split
  · cases d <;> simpa using fun h => State.domainEffect_canon _ _ (by simpa using h)
  · simp
@[simp] theorem State.domainRelease_mems (d n) (s : State) : (s.domainRelease d n).mems = s.mems := by
  cases d <;> simp [State.domainRelease]
theorem execDomainResetRelease_canon (d n) (s : State) : KeepsCanon s (execDomainResetRelease d n s) := by
  simp [execDomainResetRelease]

/-! ### Bus -/

@[simp] theorem execFeFaultPoll_canon (e value) (s : State) : KeepsCanon s (execFeFaultPoll e value s) := by
  simp only [execFeFaultPoll]
  (repeat' split) <;> simp
@[simp] theorem execFeBusTransaction_canon (e data) (s : State) : KeepsCanon s (execFeBusTransaction e data s) := by
  simp only [execFeBusTransaction]
  (repeat' split) <;> simp

/-! ### The rows and the step -/

/-- Every row keeps the memories canonical. -/
theorem exec_keepsCanon (c : Instr) (s : State) : KeepsCanon s (exec c s) := by
  cases c with
  | deviceNop c | deviceIdentity c | deviceStatus c | eventMaskSet c | engineProfileSet c | engineCapacitySet c | engineIterCapSet c
  | engineLoadSet c | engineLoadAnnounce c | engineSynthSet c | engineTxcorrSet c | enginePreemphLoad c | enginePreemphSwap c
  | spectralMapSet c | engineNlcSet c | engineNlcCoefLoad c | engineNlcCoefSwap c | engineMuzzle c | engineUnmuzzle c
  | engineMuzzleClear c | engineMuzzleCfgSet c | engineAcqSet c | engineAcqRestart c | engineAcqStatus c | engineLeashSet c
  | engineRxfeSet c | engineCdSet c | engineCdLoad c | engineCdSwap c | engineEqSet c | engineRxQuality c | engineNbrStatus c
  | engineTtiSet c | engineTtiRead c | engineDefectSet c | engineLock c | engineUnlock c | engineSvcWrite c | engineSvcRead c
  | engineOpareaSet c | engineOpareaRead c | convStatus c | convCalRead c | convCalLoad c | convCalFactory c | convRetireCmd c
  | convRestore c | convCalSet c | calLoad c | calRead c | calSwap c | calStatus c | packSet c | packDelete c | packCapacitySet c
  | packSkewSet c | packStatus c | storeSet c | portSet c | portDelete c | portEnable c | portDisable c | portRestart c | portTest c
  | portTrainSet c | portTxFfe c | portTapSet c | portDefectSet c | portStatus c | hostClkSet c | laneSet c | laneLoopback c
  | lanePrbsSet c | lanePrbsStatus c | timeStatus c | timeSourceSet c | timeParamSet c | timeSet c | timeUtcSet c | timeOscSet c
  | timeEpochForce c | timePpsInSet c | timePpsOutSet c | timeTodSet c | timeFreqRefSet c | lttSet c | lttStatus c | engineDelayCert c
  | certDump c | asymSet c | asymValidate c | asymClear c | routeSet c | ptpClockSet c | ptpPortSet c | ptpPortStatus c
  | engineCryptoSet c | keyLoad c | keyErase c | keyTxSwitch c | keyRxSwitch c | keyRxFollow c | keyStatus c | domainEnrol c
  | domainClear c | tagCertRead c | attestReport c | testportChallenge c | testportUnlock c | monCal c | monSeqSet c | monSeqStart c
  | monSeqStop c | monInject c | monCorrSet c | monTestdacSet c | feProfileLoad c | feBusAccess c | tlmChainSet c | tlmCoefLoad c
  | tlmCoefSwap c | tlmReset c | capSet c | capArm c | capWithdraw c | capStatus c | ctrRead c | ctrChainSet c | ctrFilterSet c
  | ctrBwSet c | ctrSnapshot c | ctrDump c | ctrIndex c | kennelStatus c | lifeExport c | kennelExport c | engineIsolate c
  | engineRestore c | tileFence c | tileUnfence c | shepherdStatus c | fwLoad c | fwActivate c | fwCommit c | fwStatus c =>
    exact runOp_canon (by simp) c s
  | tick o => exact execTick_canon o s
  | realignment => exact execRealignment_canon s
  | sysRstAssert => exact execSysRstAssert_canon s
  | sysRstRelease n => exact execSysRstRelease_canon n s
  | railResetLevel d r l => exact execRailResetLevel_canon d r l s
  | domainResetRelease d n => exact execDomainResetRelease_canon d n s
  | kennelPowerLoss => exact execKennelPowerLoss_canon s
  | vddAuxPowerUp => exact execVddAuxPowerUp_canon s
  | kennelRtcUpdate trim => exact execKennelRtcUpdate_canon trim s
  | _ => unfold exec; simp

/-- Settles O3, by the invariant of every row: the calendar banks, their parity bits and the counter array stay canonical. -/
theorem stepKeepsMemories : Obligations.StepKeepsMemories := by
  unfold Obligations.StepKeepsMemories
  intro s t hs ht
  unfold step at ht
  split at ht
  · cases ht; exact hs
  next c rest _ => exact (memoriesWf_iff t).mpr (exec_keepsCanon c { s with pending := rest } t ht ((memoriesWf_iff s).mp hs))
/-- Settles O2. -/
theorem resetMemoriesCanonical : Obligations.ResetMemoriesCanonical := (memoriesWf_iff State.reset).mpr reset_canon

/-! ### The step, and the state after reset -/

/-- Settles O1: the front of the queue decides; no table word spells a command. -/
theorem stepRunsTheFront : Obligations.StepRunsTheFront := by
  unfold Obligations.StepRunsTheFront
  refine ⟨fun c rest s => rfl, fun s h => ?_, fun s nbits w => ⟨rfl, rfl⟩⟩
  simp [step, h]
theorem vget_replicate {α : Type} (n i : Nat) (a : α) : vget (Vector.replicate n a) i a = a := by simp [vget]
@[simp] theorem reset_eng (e : Nat) : State.reset.eng e = Engine.reset := vget_replicate 48 e _
@[simp] theorem reset_chain (n : Nat) : State.reset.chain n = TlmChain.reset := vget_replicate 64 n _
/-- Settles O10, part by part. -/
theorem resetState : Obligations.ResetState := by
  unfold Obligations.ResetState
  refine ⟨rfl, fun e => ?_, fun n => ?_, rfl, fun p => rfl, rfl, rfl, rfl, rfl, rfl, rfl, rfl, rfl⟩
  · rw [State.keys, reset_eng]
    exact ⟨rfl, rfl, rfl, rfl, rfl⟩
  · rw [reset_chain]
    exact ⟨rfl, rfl⟩
end Sys2Proof.Machine
end

section
/-! The counter array: what a tick adds to a slot and carries on (O9, O48), and the counter commands (O47). -/
namespace Sys2Proof.Machine

/-! ### Additions to the array (R33, R456, R462) -/

/-- What a list of happenings adds to slot `i`. -/
def addedTo (l : List (Nat × Nat)) (i : Nat) : Nat := ((l.filter (fun x => x.1 == i)).map Prod.snd).sum
theorem addedTo_cons_same (x : Nat × Nat) (l : List (Nat × Nat)) : addedTo (x :: l) x.1 = x.2 + addedTo l x.1 := by simp [addedTo]
theorem addedTo_cons_ne {x : Nat × Nat} {i : Nat} (l : List (Nat × Nat)) (h : x.1 ≠ i) : addedTo (x :: l) i = addedTo l i := by
  simp [addedTo, h]
theorem addedTo_append (l m : List (Nat × Nat)) (i : Nat) : addedTo (l ++ m) i = addedTo l i + addedTo m i := by simp [addedTo]
/-- Happenings of upper members are dropped; those of other slots stay. -/
theorem addedTo_dropUpper (c : Counters) (l : List (Nat × Nat)) (i : Nat) :
    addedTo (l.filter (fun x => !c.upper x.1)) i = if c.upper i = true then 0 else addedTo l i := by
  induction l with
  | nil => simp [addedTo]
  | cons x l ih =>
    by_cases hx : x.1 = i
    · subst hx
      cases hu : c.upper x.1 with
      | true => simpa [hu] using ih
      | false =>
        simp only [hu, List.filter_cons, Bool.not_false, if_true, Bool.false_eq_true, if_false] at ih ⊢
        rw [addedTo_cons_same, addedTo_cons_same, ih]
    · rw [addedTo_cons_ne l hx, ← ih, List.filter_cons]
      split
      · exact addedTo_cons_ne _ hx
      · rfl
/-- Each carry adds 1 to the slot after its head. -/
theorem addedTo_carries (l : List Nat) (i : Nat) : addedTo (l.map (fun h => (h + 1, 1))) (i + 1) = l.count i := by
  induction l with
  | nil => rfl
  | cons h l ih =>
    rw [List.map_cons, List.count_cons]
    by_cases hh : h = i
    · subst hh
      rw [addedTo_cons_same (h + 1, 1), ih]
      simp [Nat.add_comm]
    · rw [addedTo_cons_ne _ (by simpa using hh), ih]
      simp [hh]
theorem addedTo_carries_zero (l : List Nat) : addedTo (l.map (fun h => (h + 1, 1))) 0 = 0 := by
  simp [addedTo, List.filter_map, Function.comp_def]

theorem Counters.add_heads (c : Counters) (i n : Nat) : (c.add i n).heads = c.heads := rfl
theorem Counters.add_slot_same (c : Counters) (i n : Nat) (h : cellsWf 0 c.slots = true) :
    cellGet (c.add i n).slots i 0 = (cellGet c.slots i 0 + n) % 2 ^ 40 := cellGet_cellSet_same _ _ _ _ h
theorem Counters.add_slot_ne {c : Counters} {i j : Nat} (n : Nat) (h : cellsWf 0 c.slots = true) (hj : j ≠ i) :
    cellGet (c.add i n).slots j 0 = cellGet c.slots j 0 := cellGet_cellSet_other _ _ _ _ _ hj h
/-- Several additions, one after another. -/
def Counters.addAll (c : Counters) (l : List (Nat × Nat)) : Counters := l.foldl (fun c x => c.add x.1 x.2) c
theorem Counters.addAll_heads (l : List (Nat × Nat)) (c : Counters) : (c.addAll l).heads = c.heads := by
  induction l generalizing c with
  | nil => rfl
  | cons x l ih => exact (ih _).trans (c.add_heads x.1 x.2)
theorem Counters.addAll_canon (l : List (Nat × Nat)) (c : Counters) (h : cellsWf 0 c.slots = true) : cellsWf 0 (c.addAll l).slots = true :=
  Counters.foldl_add_canon l c h
/-- A slot holds what it held and all that is added to it, modulo 2 to the 40, whatever the order. -/
theorem Counters.addAll_slot (i : Nat) (l : List (Nat × Nat)) (c : Counters) (h : cellsWf 0 c.slots = true) (hv : cellGet c.slots i 0 < 2 ^ 40) :
    cellGet (c.addAll l).slots i 0 = (cellGet c.slots i 0 + addedTo l i) % 2 ^ 40 := by
  induction l generalizing c with
  | nil => exact (Nat.mod_eq_of_lt hv).symm
  | cons x l ih =>
    refine (ih (c.add x.1 x.2) (c.add_canon x.1 x.2 h) ?_).trans ?_
    · by_cases hx : x.1 = i
      · subst hx
        rw [c.add_slot_same _ _ h]
        exact Nat.mod_lt _ (by decide)
      · rwa [Counters.add_slot_ne _ h (Ne.symm hx)]
    by_cases hx : x.1 = i
    · subst hx
      rw [c.add_slot_same _ _ h, addedTo_cons_same, Nat.mod_add_mod, Nat.add_assoc]
    · rw [Counters.add_slot_ne _ h (Ne.symm hx), addedTo_cons_ne l hx]
/-- Only chain heads carry. -/
theorem Counters.addAll_carries (l : List (Nat × Nat)) (c : Counters) (i : Nat) (hc : i ∉ c.carries) (hh : c.heads.contains i = false) :
    i ∉ (c.addAll l).carries := by
  induction l generalizing c with
  | nil => exact hc
  | cons x l ih =>
    refine ih (c.add x.1 x.2) (fun hm => ?_) hh
    simp only [Counters.add] at hm
    split at hm
    case isTrue hwrap =>
      rcases List.mem_append.mp hm with hm | hm
      · exact hc hm
      · rw [List.mem_singleton.mp hm, hwrap.2] at hh
        cases hh
    case isFalse => exact hc hm
/-- A head that cannot wrap twice leaves one carry when it wraps. -/
theorem Counters.addAll_count (i : Nat) (l : List (Nat × Nat)) (c : Counters) (h : cellsWf 0 c.slots = true)
    (hh : c.heads.contains i = true) (hv : cellGet c.slots i 0 < 2 ^ 40) (hsum : cellGet c.slots i 0 + addedTo l i < 2 ^ 41) :
    (c.addAll l).carries.count i = c.carries.count i + (cellGet c.slots i 0 + addedTo l i) / 2 ^ 40 := by
  induction l generalizing c with
  | nil => exact (congrArg (c.carries.count i + ·) (Nat.div_eq_of_lt hv)).symm
  | cons x l ih =>
    have hstep := ih (c.add x.1 x.2) (c.add_canon x.1 x.2 h) hh
    by_cases hx : x.1 = i
    · subst hx
      rw [c.add_slot_same _ _ h] at hstep
      rw [addedTo_cons_same] at hsum ⊢
      have hcount : (c.add x.1 x.2).carries.count x.1 = c.carries.count x.1 + (cellGet c.slots x.1 0 + x.2) / 2 ^ 40 := by
        simp only [Counters.add, hh, and_true]
        split
        · rw [List.count_append, List.count_singleton_self]
          omega
        · omega
      refine (hstep (Nat.mod_lt _ (by decide)) (by omega)).trans ?_
      rw [hcount]
      omega
    · rw [Counters.add_slot_ne _ h (Ne.symm hx)] at hstep
      rw [addedTo_cons_ne l hx] at hsum ⊢
      have hcount : (c.add x.1 x.2).carries.count i = c.carries.count i := by
        simp only [Counters.add]
        split <;> simp [hx]
      exact (hstep hv hsum).trans (by rw [hcount])

/-- The array as a tick finds it, its carries and happenings taken out. -/
def Counters.taken (c : Counters) : Counters := { c with happened := [], carries := [] }
/-- What enters the array at the end of a tick: the carries of the tick before, and its happenings but those of upper members. -/
def Counters.entering (c : Counters) : List (Nat × Nat) :=
  c.carries.map (fun i => (i + 1, 1)) ++ c.happened.filter (fun x => !c.upper x.1)
theorem Counters.accumulate_eq (c : Counters) : c.accumulate = c.taken.addAll c.entering := rfl
theorem Counters.accumulate_slot (c : Counters) (i : Nat) (h : cellsWf 0 c.slots = true) (hv : cellGet c.slots i 0 < 2 ^ 40) :
    cellGet c.accumulate.slots i 0 = (cellGet c.slots i 0 + addedTo c.entering i) % 2 ^ 40 :=
  Counters.addAll_slot i c.entering c.taken h hv
/-- No carry waits for a slot. -/
theorem addedTo_noCarry {l : List Nat} {i : Nat} (h : ∀ j ∈ l, j + 1 ≠ i) : addedTo (l.map (fun i => (i + 1, 1))) i = 0 := by
  cases i with
  | zero => exact addedTo_carries_zero l
  | succ i => exact (addedTo_carries l i).trans (List.count_eq_zero.mpr (fun hm => h i hm rfl))
theorem Counters.entering_own (c : Counters) (i : Nat) (hu : c.upper i = false) (hc : ∀ j ∈ c.carries, j + 1 ≠ i) :
    addedTo c.entering i = addedTo c.happened i := by
  rw [Counters.entering, addedTo_append, addedTo_noCarry hc, addedTo_dropUpper, hu, Nat.zero_add, if_neg (by decide)]
theorem Counters.entering_upper (c : Counters) (i : Nat) (hu : c.upper (i + 1) = true) : addedTo c.entering (i + 1) = c.carries.count i := by
  rw [Counters.entering, addedTo_append, addedTo_carries, addedTo_dropUpper, if_pos hu, Nat.add_zero]
theorem Counters.accumulate_own (c : Counters) (i : Nat) (h : cellsWf 0 c.slots = true) (hu : c.upper i = false)
    (hc : ∀ j ∈ c.carries, j + 1 ≠ i) (hv : cellGet c.slots i 0 < 2 ^ 40) :
    cellGet c.accumulate.slots i 0 = (cellGet c.slots i 0 + addedTo c.happened i) % 2 ^ 40 := by
  rw [c.accumulate_slot i h hv, c.entering_own i hu hc]
/-- The upper member of a chain advances by the carries of the tick before, whatever happens. -/
theorem Counters.accumulate_upper (c : Counters) (i : Nat) (h : cellsWf 0 c.slots = true) (hh : c.heads.contains i = true)
    (hv : cellGet c.slots (i + 1) 0 < 2 ^ 40) :
    cellGet c.accumulate.slots (i + 1) 0 = (cellGet c.slots (i + 1) 0 + c.carries.count i) % 2 ^ 40 := by
  rw [c.accumulate_slot (i + 1) h hv, c.entering_upper i (by simpa [Counters.upper] using hh)]
theorem Counters.accumulate_heads (c : Counters) : c.accumulate.heads = c.heads := Counters.addAll_heads c.entering c.taken

/-! ### Snapshots (R466) -/

/-- Writing several keys, each with its own value. -/
theorem cellGet_foldl_cellSet (g : Nat → Nat) (l : List Nat) (m : List (Nat × Nat)) (i : Nat) (h : cellsWf 0 m = true) :
    cellGet (l.foldl (fun m k => cellSet m k (g k) 0) m) i 0 = if i ∈ l then g i else cellGet m i 0 := by
  induction l generalizing m with
  | nil => simp
  | cons k l ih =>
    rw [List.foldl_cons, ih _ (cellsWf_cellSet _ _ _ _ h)]
    by_cases hi : i ∈ l
    · simp [hi]
    · by_cases hk : i = k
      · subst hk
        simp [hi, cellGet_cellSet_same _ _ _ _ h]
      · simp [hi, hk, cellGet_cellSet_other _ _ _ _ _ hk h]
theorem Counters.snapshot_head (c : Counters) (tn i : Nat) (h : cellsWf 0 c.slots = true) (hh : c.heads.contains i = true) :
    cellGet (c.snapshot tn).slots i 0 = cellGet c.slots i 0 + 2 ^ 40 * cellGet c.slots (i + 1) 0 := by
  refine (cellGet_foldl_cellSet (fun k => cellGet c.slots k 0 + 2 ^ 40 * cellGet c.slots (k + 1) 0) c.heads c.slots i h).trans ?_
  rw [if_pos (by simpa using hh)]

/-! ### CTR_READ -/

theorem State.live_atParse (op : Nat) (c : Cmd) (i : Nat) (s : State) : (s.atParse op c).ctr.live i = s.ctr.live i := by
  simp only [Counters.live, Counters.own, State.atParse_ctr_heads, State.atParse_ctr_carries, State.atParse_ctr_slots]
theorem ctrRead_reports (c : Cmd) (s : State) (h : Ready specCtrRead c s = true) :
    Reports 0x800 c (w1 (valueWordAt (s.ctr.live (cw c 1)) 2) ++ w1 (valueWordAt (s.ctr.live (cw c 1)) 1)
      ++ w1 (valueWordAt (s.ctr.live (cw c 1)) 0)) s (exec (.ctrRead c) s) :=
  reports_now specCtrRead _ c s _ h rfl rfl rfl (by simp only [State.live_atParse])

/-! ### A head that wraps (R462) -/

section
variable {c : Counters} {h n : Nat} (hwf : cellsWf 0 c.slots = true) (hhead : c.heads.contains h = true)
  (hupper : c.upper h = false) (hnone : c.carries = [])
  (hv : cellGet c.slots h 0 < 2 ^ 40) (hn : n = addedTo c.happened h) (hwrap : 2 ^ 40 ≤ cellGet c.slots h 0 + n) (hlt : n < 2 ^ 40)
include hwf hupper hnone hv hn hwrap hlt
theorem Counters.accumulate_wrapped : cellGet c.accumulate.slots h 0 = cellGet c.slots h 0 + n - 2 ^ 40 := by
  rw [c.accumulate_own h hwf hupper (by simp [hnone]) hv, ← hn]
  omega
include hhead in
theorem Counters.accumulate_carries : c.accumulate.carries.count h = 1 := by
  have hentering : addedTo c.entering h = n := (c.entering_own h hupper (by simp [hnone])).trans hn.symm
  have hcount := Counters.addAll_count h c.entering c.taken hwf hhead hv (by rw [hentering]; simp only [Counters.taken]; omega)
  rw [hentering] at hcount
  refine hcount.trans ?_
  simp only [Counters.taken, List.count_nil, Nat.zero_add]
  omega
end
/-- Settles O9: the tick that wraps the head leaves one carry, which the live value counts and the tick after adds. -/
theorem chainCarry : Obligations.ChainCarry := by
  unfold Obligations.ChainCarry
  intro s h n tn hwf hhead hroom hsolo hupper hnone hv hv' hn hwrap hlt
  have hwrapped := Counters.accumulate_wrapped hwf hupper hnone hv hn hwrap hlt
  have hcarry := Counters.accumulate_carries hwf hhead hupper hnone hv hn hwrap hlt
  have hwf' := s.ctr.accumulate_canon hwf
  have hheads : s.ctr.accumulate.heads.contains h = true := by rwa [Counters.accumulate_heads]
  have hstays : cellGet s.ctr.accumulate.slots (h + 1) 0 = cellGet s.ctr.slots (h + 1) 0 := by
    rw [s.ctr.accumulate_upper h hwf hhead hv', hnone]
    exact Nat.mod_eq_of_lt hv'
  have hmem : h ∈ s.ctr.accumulate.carries := List.count_pos_iff.mp (by omega)
  refine ⟨hwrapped, hstays, ?_, s.ctr.accumulate.snapshot_head tn h hwf' hheads |>.trans (by rw [hstays]), fun l => ?_, fun c hready hc => ?_⟩
  · have hnot : h ≠ 0 → h - 1 ∉ s.ctr.accumulate.carries := fun hz =>
      Counters.addAll_carries s.ctr.entering s.ctr.taken (h - 1) (by simp [Counters.taken])
        (by simpa [Counters.upper, Counters.taken, hz] using hupper)
    have hown : s.ctr.accumulate.own h = cellGet s.ctr.accumulate.slots h 0 := by
      simp only [Counters.own]
      exact if_neg (fun ⟨_, hz, hm⟩ => hnot hz (by simpa using hm))
    have hnext : s.ctr.accumulate.own (h + 1) = (cellGet s.ctr.slots (h + 1) 0 + 1) % 2 ^ 40 := by
      simp only [Counters.own, hstays]
      exact if_pos ⟨hroom, by omega, by simpa using hmem⟩
    rw [Counters.live, if_pos hheads, hown, hnext]
  · have hnext := Counters.accumulate_upper { s.ctr.accumulate with happened := l } h hwf' hheads (hstays ▸ hv')
    rw [hnext, hstays, hcarry]
  · have hreport := ctrRead_reports c _ hready
    rwa [hc] at hreport

/-! ### Happenings of the counters (O48) -/

theorem Counters.latch_setLatch_same (p : Path) (l : Latch) (c : Counters) : (c.setLatch p l).latch p = l := by cases p <;> rfl
theorem Counters.latch_setLatch_ne {p q : Path} (l : Latch) (c : Counters) (h : q ≠ p) : (c.setLatch p l).latch q = c.latch q := by
  cases p <;> cases q <;> first | rfl | exact absurd rfl h
theorem execCounterV0Read_loads {p : Path} {s : State} (h : s.pathOpen p = true) (slot : Fin 49152) :
    Happens [.counters, .readWord] (fun t =>
      t.readWord = some (BitVec.ofNat 32 (s.ctr.wordNow slot 0))
      ∧ t.ctr.latch p = { slot := slot, v1 := s.ctr.wordNow slot 1, v2 := s.ctr.wordNow slot 2 }
      ∧ (∀ q, q ≠ p → t.ctr.latch q = s.ctr.latch q) ∧ t.ctr.slots = s.ctr.slots ∧ t.ctr.image = s.ctr.image) s
      (exec (.counterV0Read p slot) s) := by
  have hexec : exec (.counterV0Read p slot) s = .next { s.modCtr (fun c =>
      c.setLatch p { slot := slot, v1 := s.ctr.wordNow slot 1, v2 := s.ctr.wordNow slot 2 }) with
      readWord := some (BitVec.ofNat 32 (s.ctr.wordNow slot 0)) } := if_pos h
  refine ⟨_, hexec, ⟨rfl, Counters.latch_setLatch_same .., fun q hq => Counters.latch_setLatch_ne _ _ hq, ?_, ?_⟩, fun q hq => ?_⟩
  · cases p <;> rfl
  · cases p <;> rfl
  · cases p <;> cases q <;> simp [Part.same, State.tile, State.modCtr, Counters.setLatch] at hq ⊢

/-! ### The end of a bandwidth window (R465) -/

theorem moves_modCtr (f : Counters → Counters) (s : State) (hh : ∀ c, (f c).happened = c.happened ∧ (f c).coming = c.coming) :
    Moves [.counters] s (s.modCtr f) := by
  refine Moves.of_steps ⟨fun p hp => ?_, keepsTold_of_same (by simp [hh]) ?_ ?_ ?_ ?_⟩
  · cases p <;> simp [Part.same, hh] at hp ⊢
  all_goals simp [Part.same]
theorem moves_setBw (p : Nat) (w : BwWindow) (s : State) : Moves [.counters] s (s.setBw p w) := moves_modCtr _ _ (fun _ => ⟨rfl, rfl⟩)
theorem State.setBw_slots (p : Nat) (w : BwWindow) (s : State) : (s.setBw p w).ctr.slots = s.ctr.slots := rfl
/-- The two slots of a port take what its window has counted. -/
def State.windowStored (p : Nat) (s : State) : State :=
  s.modCtr (fun c => { c with
    slots :=
      cellSet (cellSet c.slots (bwBase + 2 * p) (bwSlotValue (s.bwOf p).ingress ((s.bwOf p).seq + 1) (s.tn - 1)) 0)
        (bwBase + 2 * p + 1) (bwSlotValue (s.bwOf p).egress ((s.bwOf p).seq + 1) (s.tn - 1)) 0 })
/-- The window of a port as its next run begins. -/
def BwWindow.turned (tn : Nat) (w : BwWindow) : BwWindow := { w with start := some tn, ingress := 0, egress := 0, seq := (w.seq + 1) % 65536 }
/-- A window that waits takes over at its first boundary. -/
def State.windowTaken (p : Nat) (s : State) : State :=
  match (s.bwOf p).next with
  | some n => if s.tn % n = 0 then s.setBw p { s.bwOf p with window := n, next := none, start := some s.tn, ingress := 0, egress := 0 } else s
  | none => s
theorem State.windowTaken_moves (p : Nat) (s : State) : Moves [.counters] s (s.windowTaken p) ∧ (s.windowTaken p).ctr.slots = s.ctr.slots := by
  unfold State.windowTaken
  split
  · split
    · exact ⟨moves_setBw .., rfl⟩
    · exact ⟨.refl .., rfl⟩
  · exact ⟨.refl .., rfl⟩
theorem State.bwBoundary_ends {p : Nat} {s : State} (hdue : s.tn % (s.bwOf p).window = 0) (hnew : (s.bwOf p).start ≠ some s.tn)
    (hruns : (s.bwOf p).start ≠ none) :
    s.bwBoundary p = ((s.windowStored p).setBw p ((s.bwOf p).turned s.tn)).windowTaken p := by
  have hstart : (s.bwOf p).start.isSome = true := Option.isSome_iff_ne_none.mpr hruns
  simp only [State.bwBoundary, hdue, beq_self_eq_true, bne_iff_ne, ne_eq, hnew, not_false_eq_true, Bool.true_and, hstart, if_true]
  rfl
theorem bandwidthWindowEnd_stores {p : Fin 384} {s : State} (hport : (s.port? p).isSome = true) (hwf : cellsWf 0 s.ctr.slots = true)
    (hdue : s.tn % (s.bwOf p).window = 0) (hnew : (s.bwOf p).start ≠ some s.tn) (hruns : (s.bwOf p).start ≠ none) :
    Happens [.counters] (fun t =>
      cellGet t.ctr.slots (bwBase + 2 * p) 0 = bwSlotValue (s.bwOf p).ingress ((s.bwOf p).seq + 1) (s.tn - 1)
      ∧ cellGet t.ctr.slots (bwBase + 2 * p + 1) 0 = bwSlotValue (s.bwOf p).egress ((s.bwOf p).seq + 1) (s.tn - 1)
      ∧ (∀ i, i ≠ bwBase + 2 * p → i ≠ bwBase + 2 * p + 1 → cellGet t.ctr.slots i 0 = cellGet s.ctr.slots i 0)
      ∧ cellsWf 0 t.ctr.slots = true) s (exec (.bandwidthWindowEnd p) s) := by
  have hexec : exec (.bandwidthWindowEnd p) s = .next (s.bwBoundary p) := if_pos hport
  rw [State.bwBoundary_ends hdue hnew hruns] at hexec
  have hstored : Moves [.counters] s (s.windowStored p) := moves_modCtr _ _ (fun _ => ⟨rfl, rfl⟩)
  obtain ⟨htaken, hslots⟩ := State.windowTaken_moves p ((s.windowStored p).setBw p ((s.bwOf p).turned s.tn))
  obtain ⟨hin, hothers, hwf'⟩ := cellSet_spec s.ctr.slots (bwBase + 2 * p) (bwSlotValue (s.bwOf p).ingress ((s.bwOf p).seq + 1) (s.tn - 1)) 0 hwf
  obtain ⟨hout, hothers', hwf''⟩ := cellSet_spec (cellSet s.ctr.slots (bwBase + 2 * p) _ 0) (bwBase + 2 * p + 1)
    (bwSlotValue (s.bwOf p).egress ((s.bwOf p).seq + 1) (s.tn - 1)) 0 hwf'
  refine ⟨_, hexec, ?_, ((hstored.trans (moves_setBw ..)).trans htaken).steps.only⟩
  dsimp only
  rw [hslots]
  exact ⟨(hothers' _ (by omega)).trans hin, hout, fun i hi hi' => (hothers' i hi').trans (hothers i hi), hwf''⟩
/-- Settles O48: the latch of the path that reads, the slots of the window that ends, and the slots the tick's happenings enter. -/
theorem counterHappenings : Obligations.CounterHappenings := by
  unfold Obligations.CounterHappenings
  refine fun s => ⟨fun p slot => ⟨fun h => if_neg (by simp [h]), fun h => execCounterV0Read_loads h slot⟩,
    fun p => bandwidthWindowEnd_stores, fun p h => if_neg (by simp [h]), fun i hwf hu hc hv => s.ctr.accumulate_own i hwf hu hc hv⟩

/-! ### The counter commands (O47) -/

/-- A row that arms a change and is answered FINAL only at the boundary. -/
theorem armsLate_boundary {sp : OpSpec} {cls : Nat} {f : Cmd → State → State} {c : Cmd} {s : State} (h : Ready sp c s = true)
    (he : sp.eff = .atBoundary cls f) (ha : sp.onAccept = fun _ s => s) : ArmsLate cls sp.code c s (runOp sp c s) := by
  have hr := runOp_ready sp c s h
  simp only [carryOut, he, ha] at hr
  generalize hnew : ({ due := c.tn.getD ((s.atParse sp.code c).tn + 1), key := keyOf cls c, opcode := sp.code, cmd := c
                       ticket := some (ticketNow sp.code c s) } : Armed) = a at hr
  obtain ⟨hdue, hkey, hop, hcmd⟩ : a.due = c.tn.getD (s.tn + 1) ∧ a.key = keyOf cls c ∧ a.opcode = sp.code ∧ a.cmd = c := by
    rw [← hnew]
    exact ⟨by simp, rfl, rfl, rfl⟩
  have hlist : ((s.atParse sp.code c).arm a).proto.armed = s.proto.armed.filter (fun b => !(b.key == keyOf cls c)) ++ [a] := by
    rw [arm_armed, State.atParse_proto_armed, hkey]
  have hframe : Only (.armed :: answerParts) s ((s.atParse sp.code c).arm a) :=
    fun p hp => by cases p <;> simp [answerParts, Part.same] at hp ⊢
  have hwhole : ∀ t, t.proto.armed = ((s.atParse sp.code c).arm a).proto.armed → Only finalParts ((s.atParse sp.code c).arm a) t →
      (c.tn ≠ none → Answered sp.code c false .ok 0 s.tn [] t) → Pending cls sp.code (c.tn.getD (s.tn + 1)) c t
        ∧ (∀ a ∈ t.proto.armed, a.key = keyOf cls c → a.cmd = c)
        ∧ (∀ a ∈ s.proto.armed, a.key ≠ keyOf cls c → a ∈ t.proto.armed)
        ∧ (c.tn ≠ none → Answered sp.code c false .ok 0 s.tn [] t) ∧ Only (.armed :: answerParts) s t := by
    intro t harmed hfinal hanswer
    refine ⟨⟨a, ?_, hdue, hkey, hop, hcmd⟩, fun b hb hk => ?_, fun b hb hk => ?_, hanswer,
      only_trans _ _ s _ t hframe (only_mono hfinal (by decide)) (fun _ hp => hp)⟩
    · simp [harmed, hlist]
    · rw [harmed, hlist, List.mem_append, List.mem_filter, List.mem_singleton] at hb
      rcases hb with ⟨-, hb⟩ | rfl
      · simp [hk] at hb
      · exact hcmd
    · rw [harmed, hlist, List.mem_append, List.mem_filter]
      exact .inl ⟨hb, by simp [hk]⟩
  cases htn : c.tn with
  | none =>
    rw [htn, Option.isSome_none, if_neg Bool.false_ne_true] at hr
    exact ⟨_, hr, htn ▸ hwhole _ rfl (fun _ _ => only_refl _ _ _ (List.not_mem_nil)) (fun hne => absurd htn hne)⟩
  | some n =>
    rw [htn, Option.isSome_some, if_pos rfl] at hr
    refine ⟨_, hr, htn ▸ hwhole _ (by simp) (fun p hp => ?_) (fun _ => ?_)⟩
    · cases p <;> simp [finalParts, Part.same] at hp ⊢
    · simpa [ticketNow] using answered_respond sp.code c false .ok 0 s.tn [] s.proto.nextSeq ((s.atParse sp.code c).arm a)

/-! ### The counter commands at their boundary -/

theorem takesEffect_modCtr {op : Nat} {f : Cmd → State → State} {g : Counters → Counters} {c : Cmd} {s : State}
    (hb : boundaryEffect op = f) (hf : f c s.disarmed = s.disarmed.modCtr g)
    (hg : ∀ c, (g c).happened = c.happened ∧ (g c).coming = c.coming) : TakesEffect op c [.counters] (fun t => t.ctr = g s.ctr) s := by
  refine takesEffect_of op c f _ _ s hb ?_ (fun t st d ws u hu => by simpa using hu) ?_ ?_
    (fun t st d ws u hu => only_final _ s u t st d ws hu (by simp) (by simp) (by simp) (by simp))
  all_goals rw [← State.disarmed, hf]
  · rfl
  · rfl
  · exact only_trans _ _ _ _ _ (only_disarm s) (only_mono (moves_modCtr g s.disarmed hg).steps.only (by simp)) (by simp)
theorem boundaryEffect_ctrChainSet : boundaryEffect 0x801 = applyChain := boundaryEffect_of_row opTable_CtrChainSet rfl (by decide) (by decide)
theorem boundaryEffect_ctrSnapshot : boundaryEffect 0x804 = applySnapshot := boundaryEffect_of_row opTable_CtrSnapshot rfl (by decide) (by decide)
theorem boundaryEffect_ctrFilterSet : boundaryEffect 0x802 = fun c s => s.modCtr (fun x => { x with
    filters := cellSet x.filters (cw c 1) { kind := cw c 2, lo := cw c 3, hi := cw c 4 } Filter.off }) := by
  simp [boundaryEffect, opTable_CtrFilterSet, specCtrFilterSet]
theorem ctrBwSet_does {c : Cmd} {s : State} (h : Ready specCtrBwSet c s = true) : Does 0x803 c [] [.counters] (fun t =>
    t.ctr.bw = cellSet s.ctr.bw (cw c 1) { s.bwOf (cw c 1) with next := some (cw c 2) } BwWindow.reset
    ∧ t.ctr.slots = s.ctr.slots ∧ t.ctr.heads = s.ctr.heads ∧ t.ctr.image = s.ctr.image) s (exec (.ctrBwSet c) s) := by
  refine does_steps h rfl rfl rfl (moves_setBw ..).steps (by decide) (fun t ht => ?_)
  obtain ⟨hslots, -, -, hheads, -, hbw, -, -, -, himage, -⟩ := ht.only .counters (by decide)
  rw [hslots, hheads, hbw, himage]
  simp [State.setBw, State.bwOf, specCtrBwSet]
/-- The counters with a snapshot readable. -/
def Counters.imaged (m : Image) (c : Counters) : Counters :=
  { c with image := m, waiting := none, snapSeq := (c.snapSeq + 1) % 65536, snapValid := true }
theorem ctrSnapshot_copies {c : Cmd} {s : State} (h : s.imageDumps = []) : TakesEffect 0x804 c (.counters :: eventParts) (fun t =>
    t.ctr.image = s.ctr.snapshot s.tn ∧ t.ctr.snapValid = true ∧ t.ctr.snapSeq = (s.ctr.snapSeq + 1) % 65536
    ∧ t.ctr.slots = s.ctr.slots
    ∧ Raised .ctrSnapshotDone .device 0 (w2 s.tn ++ w1 ((s.ctr.snapSeq + 1) % 65536)) s.tn t) s := by
  have hempty : s.disarmed.imageDumps.isEmpty = true := List.isEmpty_iff.mpr h
  have happly : applySnapshot c s.disarmed = (s.disarmed.modCtr (.imaged (s.ctr.snapshot s.tn))).raise .ctrSnapshotDone .device 0
      (w2 s.tn ++ w1 ((s.ctr.snapSeq + 1) % 65536)) := if_pos hempty
  have hset := moves_modCtr (.imaged (s.ctr.snapshot s.tn)) s.disarmed (fun _ => ⟨rfl, rfl⟩)
  have htold := moves_raise .ctrSnapshotDone .device 0 (w2 s.tn ++ w1 ((s.ctr.snapSeq + 1) % 65536))
    (s.disarmed.modCtr (.imaged (s.ctr.snapshot s.tn)))
  have hraised : Raised .ctrSnapshotDone .device 0 (w2 s.tn ++ w1 ((s.ctr.snapSeq + 1) % 65536)) s.tn (applySnapshot c s.disarmed) :=
    happly ▸ raised_raise_tn rfl
  refine takesEffect_steps boundaryEffect_ctrSnapshot (happly ▸ ((hset.mono (by decide)).trans (htold.mono (by decide))).steps) (by decide)
    (fun t ht => ?_)
  have hmove := (happly ▸ htold.steps.only .counters (by decide) : Part.same _ (applySnapshot c s.disarmed) .counters)
  obtain ⟨hslots, -, -, -, -, -, -, -, -, himage, -, hseq, hvalid⟩ :=
    Part.same_trans _ _ _ _ hmove (ht.only .counters (by decide))
  exact ⟨himage, hvalid, hseq, hslots, ht.told.raised _ _ _ _ _ hraised⟩
theorem State.wordNow_of_counters {s t : State} (h : Part.same s t .counters) (slot k : Nat) : t.ctr.wordNow slot k = s.ctr.wordNow slot k := by
  obtain ⟨hslots, -, hcarries, hheads, -, -, -, -, -, himage, -⟩ := h
  simp only [Counters.wordNow, Counters.live, Counters.own, hslots, hcarries, hheads, himage]
theorem dumpOctets_of_answer {s u : State} (hu : Only answerParts s u) (c : Cmd) : dumpOctets c u = dumpOctets c s := by
  simp only [dumpOctets, State.wordNow_of_counters (hu .counters (by decide))]
theorem ctrIndex_reports {c : Cmd} {s : State} (h : Ready specCtrIndex c s = true) : ∃ k, kindOf? (cKind c) = some k
    ∧ Reports 0x806 c (w1 (ctrSlot k (cIdx c) (cSub c) (cw c 1))) s (exec (.ctrIndex c) s) := by
  have htarget := ready_target specCtrIndex c s h
  cases hk : kindOf? (cKind c) with
  | none => simp [specCtrIndex, hk] at htarget
  | some k => exact ⟨k, rfl, reports_now specCtrIndex _ c s _ h rfl rfl rfl (by simp [hk])⟩

/-- Settles O47: the reports, the changes armed and at their boundary, the window that waits, and the dump that begins. -/
theorem counterCommands : Obligations.CounterCommands := by
  unfold Obligations.CounterCommands
  intro c s
  refine ⟨ctrRead_reports c s, fun h => arms_boundary specCtrChainSet 0x801 _ c s h rfl rfl, fun hmake hnew => ?_, fun hmake hold => ?_,
    fun hend => ?_, fun h => armsLate_boundary h rfl rfl, ?_, ctrBwSet_does, fun h => arms_boundary specCtrSnapshot 0x804 _ c s h rfl rfl,
    ctrSnapshot_copies, fun hdumps => ?_, fun h => ?_, ctrIndex_reports⟩
  · refine takesEffect_modCtr boundaryEffect_ctrChainSet (g := fun x => { x with
      heads := cw c 1 :: x.heads, slots := cellSet x.slots (cw c 1 + 1) 0 0 }) ?_ (fun _ => ⟨rfl, rfl⟩)
    simp [applyChain, State.modCtr, State.disarmed, hmake, show cw c 1 ∉ s.ctr.heads by simpa using hnew]
  · refine takesEffect_modCtr boundaryEffect_ctrChainSet (g := fun x => { x with slots := cellSet x.slots (cw c 1 + 1) 0 0 }) ?_
      (fun _ => ⟨rfl, rfl⟩)
    simp [applyChain, State.modCtr, State.disarmed, hmake, show cw c 1 ∈ s.ctr.heads by simpa using hold]
  · refine takesEffect_modCtr boundaryEffect_ctrChainSet (g := fun x => { x with heads := x.heads.filter (fun h => h != cw c 1) }) ?_
      (fun _ => ⟨rfl, rfl⟩)
    simp [applyChain, hend]
  · exact takesEffect_modCtr boundaryEffect_ctrFilterSet rfl (fun _ => ⟨rfl, rfl⟩)
  · refine takesEffect_modCtr boundaryEffect_ctrSnapshot (g := fun x => { x with waiting := some (s.ctr.snapshot s.tn, s.imageDumps) }) ?_
      (fun _ => ⟨rfl, rfl⟩)
    exact if_neg (fun hempty => hdumps (List.isEmpty_iff.mp hempty))
  · refine beginsDma_send specCtrDump _ _ c s h rfl rfl (fun u hu => ?_)
    rw [dumpOctets_of_answer hu]
end Sys2Proof.Machine
end

section
/-! The capture units: their commands (O19) and their happenings (O20). -/
namespace Sys2Proof.Machine

theorem Does.frame {op : Nat} {c : Cmd} {ws : List Word} {l m : List Part} {P : State → Prop} {s : State} {r : Res} (h : Does op c ws l P s r)
    (hl : ∀ p ∈ l, p ∈ m ++ answerParts) : Does op c ws m P s r := by
  obtain ⟨t, hexec, hP, hanswer, honly⟩ := h
  exact ⟨t, hexec, hP, hanswer, only_mono honly (fun p hp => (List.mem_append.mp hp).elim (hl p) (List.mem_append_right m))⟩
theorem raised_of_only {l : List Part} {s t : State} (h : Only l s t) {ev : Ev} {k : Kind} {i tn : Nat} {ws : List Word}
    (hr : Raised ev k i ws tn s) (hl : ∀ p ∈ l, p ∉ [Part.happened, .events, .masks, .mgmtReset] := by decide) : Raised ev k i ws tn t := by
  have hsame : ∀ p ∈ [Part.happened, .events, .masks, .mgmtReset], p.same s t := fun p hp => h p (fun hm => hl p hm hp)
  obtain ⟨hqueue, hheld⟩ := hsame .events (by simp)
  exact raised_same ev k i ws tn s t hr (hsame .happened (by simp)).1 (hsame .masks (by simp)) (hsame .mgmtReset (by simp)) hqueue hheld

/-! ### Changes of one line tile -/

theorem tileIs_modTile {k : Nat} (hk : k < 12) (f : Tile → Tile) (s : State) : TileIs k f s (s.modTile k f) :=
  ⟨State.tile_modTile_same _ _ _ hk, fun _ hq => State.tile_modTile_ne _ _ _ _ hq⟩
theorem TileIs.of_same {k : Nat} {f : Tile → Tile} {s s' t t' : State} (h : TileIs k f s t) (hs : s.tiles = s'.tiles)
    (ht : t'.tiles = t.tiles) : TileIs k f s' t' := by
  simpa only [TileIs, State.tile, hs, ht] using h
theorem TileIs.of_tiles {k : Nat} {f : Tile → Tile} {s s' t t' : State} (h : TileIs k f s t) (hs : ∀ j, s.tile j = s'.tile j)
    (ht : ∀ j, t'.tile j = t.tile j) : TileIs k f s' t' := by
  simpa only [TileIs, ← hs, ht] using h
/-- A tile whose unit has its trigger flag is the same where both parts are. -/
theorem Tile.ext_triggers {x y : Tile} (h : x.untriggered = y.untriggered) (hs : x.capture.start = y.capture.start) : x = y := by
  calc x = { x.untriggered with capture := { x.untriggered.capture with start := x.capture.start } } := rfl
    _ = y := by rw [h, hs]; rfl
theorem tile_of_only {l : List Part} {s t : State} (h : Only l s t) (hl : Part.tiles ∉ l) (ht : Part.triggers ∉ l) (j : Nat) :
    t.tile j = s.tile j := Tile.ext_triggers (h .tiles hl j) (h .triggers ht j)
theorem State.modTile_congr {k : Nat} {f g : Tile → Tile} {s : State} (h : f (s.tile k) = g (s.tile k)) : s.modTile k f = s.modTile k g := by
  simp only [State.modTile, vmod_congr Tile.reset h]
theorem steps_modTile (k : Nat) (f : Tile → Tile) (s : State) : Steps [.tiles, .triggers] s (s.modTile k f) :=
  steps_of_same (fun p hp => by cases p <;> simp [Part.same] at hp ⊢) rfl rfl
/-- A change of one tile that leaves the trigger flag of its unit. -/
theorem only_modTile {k : Nat} {f : Tile → Tile} (hf : ∀ x, (f x).capture.start = x.capture.start) (s : State) : Only [.tiles] s (s.modTile k f) := by
  intro p hp
  by_cases htriggers : p = .triggers
  · subst htriggers
    exact fun j => State.tile_modTile_of (fun x => x.capture.start) k f hf j s
  · exact (steps_modTile k f s).only p (by simpa [htriggers] using hp)
/-- A change of one tile's trigger flag alone. -/
theorem only_modTile_trigger {k : Nat} {f : Tile → Tile} (hf : ∀ x, (f x).untriggered = x.untriggered) (s : State) :
    Only [.triggers] s (s.modTile k f) := by
  intro p hp
  by_cases htiles : p = .tiles
  · subst htiles
    exact fun j => State.tile_modTile_of Tile.untriggered k f hf j s
  · exact (steps_modTile k f s).only p (by simpa [htiles] using hp)
/-- An event of another resource than an engine starts no capture. -/
theorem State.raise_tiles {k : Kind} (hk : k ≠ .engine) (ev : Ev) (i : Nat) (ws : List Word) (s : State) : (s.raise ev k i ws).tiles = s.tiles := by
  rw [State.raise, raiseAt_eq _ _ _ _ _ _ _ rfl, if_neg hk]
  split <;> simp

/-! ### Data that is withdrawn (R469, R473) -/

/-- A capture unit without its data. -/
def Tile.uncaptured (x : Tile) : Tile :=
  { x with capture := { x.capture with state := .idle, start := none, taken := [], filled := 0, mem := [] } }
/-- A channel is bound to a tile's unit, and waits for it or runs. -/
def DmaChannel.bound (k : Nat) (d : DmaChannel) : Bool := d.devSel && d.tile == k && (d.state == DmaState.waiting || d.state == DmaState.running)
/-- A channel whose unit has lost its data. -/
def DmaChannel.dropped (u : Capture) (k : Nat) (d : DmaChannel) : DmaChannel :=
  if d.bound k then { d with withdrawn := true, out := u.sends d } else d
/-- A channel that waits for data that is withdrawn ends. -/
def State.endWithdrawn (s : State) (i : Nat) : State :=
  if (s.dc i).withdrawn && (s.dc i).state == .waiting then s.endChannel i .sourceWithdrawn else s
theorem State.dropCapture_eq (k : Nat) (s : State) : s.dropCapture k = (List.range 16).foldl State.endWithdrawn
    { s.modTile k Tile.uncaptured with dma := s.dma.map (DmaChannel.dropped (s.tile k).capture k) } := rfl
/-- A channel as it has ended. -/
def DmaChannel.ending (e : DmaEnd) (c : Nat) (part : Bool) (tn : Nat) (d : DmaChannel) : DmaChannel :=
  { d with state := .ended, ended := e, abort := false, withdrawn := false, record := some (completionRecord c d e part tn) }
/-- The end of a channel writes its record and leaves the others. -/
theorem State.endChannel_dma (c : Nat) (e : DmaEnd) (s : State) : (s.endChannel c e).dma = vmod s.dma c
    (.ending e c (e.isPartial (s.hostToDevice c)) s.tn) := by
  simp only [State.endChannel, apply_ite (fun t : State => t.dma), State.signal_dma, State.count_dma, ite_self]
  rfl
theorem State.endChannel_dc_same {c : Nat} (hc : c < 16) (e : DmaEnd) (s : State) : (s.endChannel c e).dc c = (s.dc c).ending e
    c (e.isPartial (s.hostToDevice c)) s.tn := by
  rw [State.dc, State.endChannel_dma, vget_vmod_same _ _ _ _ hc]
  rfl
theorem State.endChannel_dc_ne {c q : Nat} (hq : q ≠ c) (e : DmaEnd) (s : State) : (s.endChannel c e).dc q = s.dc q := by
  rw [State.dc, State.endChannel_dma, vget_vmod_ne _ _ _ _ _ hq]
  rfl
theorem State.endChannel_tiles (c : Nat) (e : DmaEnd) (s : State) : (s.endChannel c e).tiles = s.tiles := by
  unfold State.endChannel
  dsimp only
  (repeat' split) <;> simp
theorem State.endWithdrawn_dc_ne {i q : Nat} (hq : q ≠ i) (s : State) : (s.endWithdrawn i).dc q = s.dc q := by
  unfold State.endWithdrawn
  split
  · exact State.endChannel_dc_ne hq ..
  · rfl
theorem State.endWithdrawn_dc_idle {i : Nat} {s : State} (h : ¬((s.dc i).withdrawn = true ∧ (s.dc i).state = .waiting)) (q : Nat) :
    (s.endWithdrawn i).dc q = s.dc q := by
  unfold State.endWithdrawn
  rw [if_neg (by simpa using h)]
/-- A channel that does not wait for withdrawn data is left. -/
theorem endWithdrawn_leaves {q : Nat} (l : List Nat) {s : State} (h : ¬((s.dc q).withdrawn = true ∧ (s.dc q).state = .waiting)) :
    (l.foldl State.endWithdrawn s).dc q = s.dc q := by
  induction l generalizing s with
  | nil => rfl
  | cons i l ih =>
    have hstep : (s.endWithdrawn i).dc q = s.dc q := by
      by_cases hq : q = i
      · exact State.endWithdrawn_dc_idle (hq ▸ h) q
      · exact State.endWithdrawn_dc_ne hq s
    exact (ih (hstep ▸ h)).trans hstep
/-- A channel that waits for withdrawn data ends. -/
theorem endWithdrawn_ends {q : Nat} (hlt : q < 16) (l : List Nat) {s : State} (hq : q ∈ l) (hw : (s.dc q).withdrawn = true)
    (hs : (s.dc q).state = .waiting) :
    ((l.foldl State.endWithdrawn s).dc q).state = .ended ∧ ((l.foldl State.endWithdrawn s).dc q).ended = .sourceWithdrawn := by
  induction l generalizing s with
  | nil => cases hq
  | cons i l ih =>
    by_cases hi : q = i
    · subst hi
      have hend : (s.endWithdrawn q).dc q = (s.dc q).ending .sourceWithdrawn q (DmaEnd.sourceWithdrawn.isPartial (s.hostToDevice q)) s.tn := by
        unfold State.endWithdrawn
        rw [if_pos (by simp [hw, hs])]
        exact State.endChannel_dc_same hlt ..
      rw [List.foldl_cons, endWithdrawn_leaves l (by simp [hend, DmaChannel.ending]), hend]
      exact ⟨rfl, rfl⟩
    · have hstep := State.endWithdrawn_dc_ne hi s
      exact ih ((List.mem_cons.mp hq).resolve_left hi) (hstep ▸ hw) (hstep ▸ hs)
theorem endWithdrawn_tiles (l : List Nat) (s : State) : (l.foldl State.endWithdrawn s).tiles = s.tiles := by
  refine State.foldl_same (·.tiles) _ (fun s i => ?_) _ _
  dsimp only [State.endWithdrawn]
  split
  · exact State.endChannel_tiles ..
  · rfl
/-- What a withdrawal of a unit's data does to the DMA channels. -/
structure Unsourced (k : Nat) (s t : State) : Prop where
  waiting : ∀ n, (s.dc n).devSel = true → (s.dc n).tile = k → (s.dc n).state = .waiting →
    (t.dc n).state = .ended ∧ (t.dc n).ended = .sourceWithdrawn
  running : ∀ n, (s.dc n).devSel = true → (s.dc n).tile = k → (s.dc n).state = .running →
    (t.dc n).state = .running ∧ (t.dc n).withdrawn = true
  others : ∀ n, (s.dc n).state ≠ .waiting → (s.dc n).state ≠ .running → t.dc n = s.dc n
theorem Unsourced.of_same {k : Nat} {s s' t t' : State} (h : Unsourced k s t) (hs : s.dma = s'.dma) (ht : t'.dma = t.dma) :
    Unsourced k s' t' := by
  have hsdc : s'.dc = s.dc := by funext n; simp only [State.dc, hs]
  have htdc : t'.dc = t.dc := by funext n; simp only [State.dc, ht]
  obtain ⟨hwaiting, hrunning, hothers⟩ := h
  exact ⟨by rwa [hsdc, htdc], by rwa [hsdc, htdc], by rwa [hsdc, htdc]⟩
/-- A channel outside the sixteen is none. -/
theorem State.dc_out {n : Nat} (h : ¬n < 16) (s : State) : s.dc n = .reset := by simp [State.dc, vget, h]
theorem dropCapture_unsources (k : Nat) (s : State) : Unsourced k s (s.dropCapture k) := by
  rw [State.dropCapture_eq]
  generalize hu : ({ s.modTile k Tile.uncaptured with dma := s.dma.map (DmaChannel.dropped (s.tile k).capture k) } : State) = u
  have hdc : ∀ n, n < 16 → u.dc n = (s.dc n).dropped (s.tile k).capture k := fun n hn => by
    rw [← hu, State.dc, vget_map, if_pos hn]
    rfl
  have hin : ∀ n, (s.dc n).devSel = true → n < 16 := fun n h => by
    by_contra hn
    rw [State.dc_out hn] at h
    cases h
  refine ⟨fun n hsel htile hstate => ?_, fun n hsel htile hstate => ?_, fun n hwaiting hrunning => ?_⟩
  · have hn := hin n hsel
    have hbound : (s.dc n).bound k = true := by simp [DmaChannel.bound, hsel, htile, hstate]
    refine endWithdrawn_ends hn _ (List.mem_range.mpr hn) ?_ ?_ <;> rw [hdc n hn, DmaChannel.dropped, if_pos hbound]
    exact hstate
  · have hn := hin n hsel
    have hbound : (s.dc n).bound k = true := by simp [DmaChannel.bound, hsel, htile, hstate]
    have hleft := endWithdrawn_leaves (q := n) (List.range 16) (s := u) (by simp [hdc n hn, DmaChannel.dropped, hbound, hstate])
    rw [hleft, hdc n hn, DmaChannel.dropped, if_pos hbound]
    exact ⟨hstate, rfl⟩
  · by_cases hn : n < 16
    · have hfree : (s.dc n).bound k = false := by simp [DmaChannel.bound, hwaiting, hrunning]
      have hsame : u.dc n = s.dc n := by rw [hdc n hn, DmaChannel.dropped, if_neg (by simp [hfree])]
      exact (endWithdrawn_leaves (q := n) (List.range 16) (s := u) (by simp [hsame, hwaiting])).trans hsame
    · rw [State.dc_out hn, State.dc_out hn]
/-- A withdrawal whatever the unit is set to: its data is gone, and it is told. -/
theorem State.withdrawCapture_any (k : Nat) (why : CapCause) (s : State) :
    s.withdrawCapture k none why = (s.dropCapture k).raise .capWithdrawn .lineTile k (w1 why.code) := by
  simp only [State.withdrawCapture, Option.any_none, Bool.false_eq_true, if_false]
theorem withdrawCapture_withdraws {k : Nat} (hk : k < 12) (why : CapCause) (s : State) :
    Steps withdrawParts s (s.withdrawCapture k none why) ∧ TileIs k Tile.uncaptured s (s.withdrawCapture k none why)
      ∧ Unsourced k s (s.withdrawCapture k none why)
      ∧ Raised .capWithdrawn .lineTile k (w1 why.code) s.tn (s.withdrawCapture k none why) := by
  have hacts := acts_withdrawCapture 0 k none why s
  have hengines := s.withdrawCapture_frame (·.engines) k none why (hend := State.endChannel_engines)
  have htn : (s.dropCapture k).tn = s.tn := (acts_dropCapture 0 k s).tn
  refine ⟨hacts.steps_of_engines hengines, ?_, ?_, ?_⟩ <;> rw [State.withdrawCapture_any]
  · refine (tileIs_modTile hk Tile.uncaptured s).of_same rfl ((State.raise_tiles (by decide) ..).trans ?_)
    rw [State.dropCapture_eq]
    exact endWithdrawn_tiles ..
  · exact (dropCapture_unsources k s).of_same rfl (by simp)
  · exact raised_raise_tn htn

/-! ### The capture commands (R467 to R469) -/

section
variable {c : Cmd} {s : State}
theorem ready_tile {sp : OpSpec} (h : Ready sp c s = true) (ht : sp.target = tgtTile) : cIdx c < 12 := ready_kind sp c s 2 12 h ht
/-- A line tile whose unit has its settings of CAP_SET. -/
def Tile.capturing (c : Cmd) (x : Tile) : Tile :=
  { x with capture := { x.capture with source := cw c 1, sub := cSub c, length := cw c 2, trigger := cw c 3 } }
theorem capSet_does (h : Ready specCapSet c s = true) :
    Does 0x700 c [] [.tiles] (TileIs (cIdx c) (.capturing c) s) s (exec (.capSet c) s) := by
  have hlt : cIdx c < 12 := by
    have htarget := ready_target specCapSet c s h
    rw [show specCapSet.target = tgtCapture from rfl] at htarget
    simp only [tgtCapture, Bool.and_eq_true, decide_eq_true_eq] at htarget
    exact htarget.1.1.1.2
  have hstarts : ∀ x : Tile, (x.capturing c).capture.start = x.capture.start := fun _ => rfl
  have hset : Steps [.tiles] (s.atParse 0x700 c) ((s.atParse 0x700 c).modTile (cIdx c) (.capturing c)) :=
    ⟨only_modTile hstarts _, (steps_modTile ..).told⟩
  have htile := tileIs_modTile hlt (.capturing c) (s.atParse 0x700 c)
  exact does_steps (v := (s.atParse 0x700 c).modTile (cIdx c) (.capturing c)) h rfl rfl rfl hset (by decide)
    (fun t ht => htile.of_tiles (fun j => State.tile_atParse 0x700 c j s) (tile_of_only ht.only (by decide) (by decide)))
theorem capWithdraw_does (h : Ready specCapWithdraw c s = true) : Does 0x702 c [] (.tiles :: .dma :: .armed :: eventParts) (fun t =>
    TileIs (cIdx c) Tile.uncaptured s t ∧ Unsourced (cIdx c) s t ∧ (∀ a ∈ t.proto.armed, ¬(a.opcode = 0x701 ∧ cIdx a.cmd = cIdx c))
    ∧ Raised .capWithdrawn .lineTile (cIdx c) (w1 0) s.tn t) s (exec (.capWithdraw c) s) := by
  have hcancel := (acts_cancelArmed 0 (fun a => a.opcode == 0x701 && cIdx a.cmd == cIdx c) .cancelled Ev.capWithdrawn.code
    (s.atParse 0x702 c)).steps_of_engines (by simp)
  generalize hu : (s.atParse 0x702 c).cancelArmed (fun a => a.opcode == 0x701 && cIdx a.cmd == cIdx c) .cancelled Ev.capWithdrawn.code = u
    at hcancel
  obtain ⟨hsteps, htile, hdma, hraised⟩ := withdrawCapture_withdraws (ready_tile h rfl) .command u
  have harmed : u.proto.armed = s.proto.armed.filter (fun a => !(a.opcode == 0x701 && cIdx a.cmd == cIdx c)) := by
    rw [← hu, State.cancelArmed_proto_armed, State.atParse_proto_armed]
  have htn : u.tn = s.tn := hcancel.tn.trans (State.atParse_tn ..)
  refine Does.frame (l := .tiles :: .dma :: .armed :: .responses :: eventParts) (does_steps (v := u.withdrawCapture (cIdx c) none .command) h rfl rfl
    (by rw [← hu]; rfl) ((hcancel.mono (by decide)).trans (hsteps.mono (by decide))) (by decide) (fun t ht => ⟨?_, ?_, ?_, ?_⟩)) (by decide)
  · exact htile.of_tiles (fun j => by rw [← hu]; simp [State.tile]) (tile_of_only ht.only (by decide) (by decide))
  · exact hdma.of_same (by rw [← hu]; simp) (ht.only .dma (by decide))
  · intro a ha
    have hsame : t.proto.armed = u.proto.armed := (ht.only .armed (by decide)).trans (hsteps.only .armed (by decide))
    rw [hsame, harmed, List.mem_filter] at ha
    simpa [← not_and_or] using ha.2
  · exact ht.told.raised _ _ _ _ _ (htn ▸ hraised)
/-- The unit as CAP_ARM leaves it, once data of DONE is withdrawn. -/
def Tile.arming (x : Tile) : Tile := { x with capture := { x.capture with state := .armed, start := none, taken := [], filled := 0 } }
def State.released (k : Nat) (s : State) : State :=
  if (s.tile k).capture.state = .done then s.withdrawCapture k none .command else s
theorem armCapture_eq (k : Nat) (s : State) : armCapture k s = (s.released k).modTile k Tile.arming := by
  simp only [armCapture, State.released, beq_iff_eq]
  rfl
theorem armCapture_arms {k : Nat} (hk : k < 12) (s : State) :
    Steps withdrawParts s (armCapture k s) ∧ (((armCapture k s).tile k).capture.state = .armed ∧ ((armCapture k s).tile k).capture.start = none
      ∧ ((armCapture k s).tile k).capture.filled = 0) ∧ (∀ q, q ≠ k → (armCapture k s).tile q = s.tile q)
      ∧ ((s.tile k).capture.state = .done → Raised .capWithdrawn .lineTile k (w1 0) s.tn (armCapture k s)) := by
  have hreleased : Steps withdrawParts s (s.released k) ∧ (∀ q, q ≠ k → (s.released k).tile q = s.tile q)
      ∧ ((s.tile k).capture.state = .done → Raised .capWithdrawn .lineTile k (w1 0) s.tn (s.released k)) := by
    unfold State.released
    split
    · obtain ⟨hsteps, htile, -, hraised⟩ := withdrawCapture_withdraws hk .command s
      exact ⟨hsteps, htile.2, fun _ => hraised⟩
    case isFalse hnot => exact ⟨.refl .., fun _ _ => rfl, fun h => absurd h hnot⟩
  obtain ⟨hsteps, hothers, hraised⟩ := hreleased
  have hset := steps_modTile k Tile.arming (s.released k)
  rw [armCapture_eq, State.tile_modTile_same _ _ _ hk]
  exact ⟨hsteps.trans (hset.mono (by decide)), ⟨rfl, rfl, rfl⟩, fun q hq => (State.tile_modTile_ne _ _ _ _ hq).trans (hothers q hq),
    fun h => hset.told.raised _ _ _ _ _ (hraised h)⟩
theorem capArm_arms (h : Ready specCapArm c s = true) : Completes (exec (.capArm c) s) (fun t =>
    Pending 0x701 0x701 (c.tn.getD (s.tn + 1)) c t
    ∧ (t.tile (cIdx c)).capture.state = .armed ∧ (t.tile (cIdx c)).capture.start = none
    ∧ (t.tile (cIdx c)).capture.filled = 0 ∧ (∀ q, q ≠ cIdx c → t.tile q = s.tile q)
    ∧ ((s.tile (cIdx c)).capture.state = .done → Raised .capWithdrawn .lineTile (cIdx c) (w1 0) s.tn t)
    ∧ Answered 0x701 c c.tn.isNone .ok 0 s.tn [] t
    ∧ Only (.tiles :: .dma :: .armed :: (eventParts ++ answerParts)) s t) := by
  obtain ⟨hsteps, ⟨hstate, hstart, hfilled⟩, hothers, hraised⟩ := armCapture_arms (ready_tile h rfl) (s.atParse 0x701 c)
  generalize hv : armCapture (cIdx c) (s.atParse 0x701 c) = v at *
  have harms : ArmsAnd 0x701 0x701 c withdrawParts (fun t => (∀ j, t.tile j = v.tile j)
      ∧ ((s.tile (cIdx c)).capture.state = .done → Raised .capWithdrawn .lineTile (cIdx c) (w1 0) s.tn t)) s (exec (.capArm c) s) := by
    refine armsAnd_boundary (v := v) h rfl hv
      (only_trans _ _ _ _ _ (only_atParse 0x701 c s) (only_mono hsteps.only (fun p => List.mem_append_left _)) (fun p => List.mem_append_right _))
      (hsteps.tn.trans (State.atParse_tn ..)) ((hsteps.only .armed (by decide)).trans (State.atParse_proto_armed ..))
      (fun t ht => ⟨tile_of_only ht (by decide) (by decide), fun hdone => raised_of_only ht ?_⟩)
    simpa using hraised (by simpa using hdone)
  obtain ⟨t, hexec, ⟨htile, htold⟩, hpending, -, -, hanswer, honly⟩ := harms
  refine ⟨t, hexec, hpending, ?_, ?_, ?_, fun q hq => ?_, htold, hanswer, only_mono honly (by decide)⟩
  · rw [htile, hstate]
  · rw [htile, hstart]
  · rw [htile, hfilled]
  · rw [htile, hothers q hq, State.tile_atParse]
/-- A unit that is armed with the IMMEDIATE trigger is to start. -/
def Tile.starting (tn : Nat) (x : Tile) : Tile :=
  if x.capture.state = .armed ∧ field x.capture.trigger 28 4 = 0 then { x with capture := { x.capture with start := some tn } } else x
theorem applyCapArm_eq (c : Cmd) (s : State) : applyCapArm c s = s.modTile (cIdx c) (.starting s.tn) := by
  simp only [applyCapArm, Bool.and_eq_true, beq_iff_eq]
  rfl
theorem Tile.starting_untriggered (tn : Nat) (x : Tile) : (x.starting tn).untriggered = x.untriggered := by
  unfold Tile.starting
  split <;> rfl
theorem boundaryEffect_capArm : boundaryEffect 0x701 = applyCapArm := boundaryEffect_of_row opTable_CapArm rfl (by decide) (by decide)
theorem capArm_takesEffect (hlt : cIdx c < 12) : TakesEffect 0x701 c [.triggers] (TileIs (cIdx c) (.starting s.tn) s) s := by
  have happly : applyCapArm c s.disarmed = s.disarmed.modTile (cIdx c) (.starting s.tn) := applyCapArm_eq c s.disarmed
  have htile := tileIs_modTile hlt (.starting s.tn) s.disarmed
  have honly := only_modTile_trigger (k := cIdx c) (Tile.starting_untriggered s.tn) s.disarmed
  refine takesEffect_steps boundaryEffect_capArm (happly ▸ ⟨honly, (steps_modTile ..).told⟩) (by decide) (fun t ht => ?_)
  rw [happly] at ht
  exact htile.of_tiles (fun _ => rfl) (tile_of_only ht.only (by decide) (by decide))
end
/-- Settles O19: the commands that act at once, the unit that CAP_ARM arms on its acceptance, and its start at the boundary. -/
theorem captureCommands : Obligations.CaptureCommands := by
  unfold Obligations.CaptureCommands
  intro c s
  refine ⟨capSet_does, capArm_arms, capArm_takesEffect, fun h => ?_, fun h => ?_⟩
  · obtain ⟨t, hexec, ⟨htile, ⟨hwaiting, hrunning, hothers⟩, harmed, hraised⟩, hrest⟩ := capWithdraw_does h
    exact ⟨t, hexec, ⟨htile, fun n hsel ht => ⟨hwaiting n hsel ht, hrunning n hsel ht⟩, hothers, harmed, hraised⟩, hrest⟩
  · exact reports_now specCapStatus _ c s _ h rfl rfl rfl (by simp)

/-! ### The happenings of a unit (R468, R469) -/

section
variable {k : Fin 12} {n : Nat} {s : State}
theorem captureUnframed_eq (k : Nat) (s : State) :
    s.captureUnframed k = ((s.tile k).capture.needsFrame && !(s.eng ((s.tile k).capture.engine k)).inFrame) := rfl
theorem captureTrigger_due (harmed : (s.tile k).capture.state = .armed) (hstart : (s.tile k).capture.start = some n) (hdue : n ≤ s.tn) :
    ((s.tile k).capture.state == .armed && (s.tile k).capture.start.any (fun t => decide (t ≤ s.tn))) = true := by
  simp [harmed, hstart, hdue]
/-- A unit that begins to fill. -/
def Tile.filling (n begun : Nat) (x : Tile) : Tile :=
  { x with capture := { x.capture with state := .filling, start := none, trigTn := n, begun := begun, taken := [], filled := 0, mem := [] } }
/-- A channel that waits for a tile's unit runs. -/
def DmaChannel.sourced (k : Nat) (d : DmaChannel) : DmaChannel :=
  if d.devSel && d.tile == k && d.state == DmaState.waiting then { d with state := .running } else d
theorem DmaChannel.sourced_eq (k : Nat) (d : DmaChannel) :
    d.sourced k = if d.devSel = true ∧ d.tile = k ∧ d.state = .waiting then { d with state := .running } else d := by
  simp only [DmaChannel.sourced, Bool.and_eq_true, beq_iff_eq, and_assoc]
theorem captureTrigger_fills (harmed : (s.tile k).capture.state = .armed) (hstart : (s.tile k).capture.start = some n) (hdue : n ≤ s.tn)
    (hframe : (s.tile k).capture.needsFrame = false ∨ (s.eng ((s.tile k).capture.engine k)).inFrame = true) :
    Happens [.tiles, .triggers, .dma] (fun t => TileIs k (.filling n (s.ticks - (s.tn - n))) s t
      ∧ ∀ q, t.dc q = (if (s.dc q).devSel = true ∧ (s.dc q).tile = k ∧ (s.dc q).state = .waiting
        then { s.dc q with state := .running } else s.dc q)) s (exec (.captureTrigger k) s) := by
  have hframed : s.captureUnframed k = false := by
    rw [captureUnframed_eq]
    rcases hframe with h | h <;> simp [h]
  have hexec : exec (.captureTrigger k) s = .next { s.modTile k (.filling n (s.ticks - (s.tn - n))) with dma := s.dma.map (.sourced k) } := by
    refine (?_ : execCaptureTrigger k s = _)
    dsimp only [execCaptureTrigger]
    rw [if_pos (captureTrigger_due harmed hstart hdue), if_neg (by simp [hframed]), hstart]
    rfl
  refine ⟨_, hexec, ⟨(tileIs_modTile k.isLt _ s).of_same rfl rfl, fun q => ?_⟩, fun p hp => ?_⟩
  · rw [State.dc, vget_map]
    split
    · exact DmaChannel.sourced_eq ..
    case isFalse hout =>
      refine (State.dc_out hout s).trans ?_
      rw [State.dc_out hout]
      exact (if_neg (fun h => Bool.false_ne_true h.1)).symm
  · cases p <;> simp [Part.same] at hp ⊢
theorem captureTrigger_withdraws (harmed : (s.tile k).capture.state = .armed) (hstart : (s.tile k).capture.start = some n) (hdue : n ≤ s.tn)
    (hneeds : (s.tile k).capture.needsFrame = true) (hout : (s.eng ((s.tile k).capture.engine k)).inFrame = false) :
    Happens (.tiles :: .dma :: eventParts) (fun t => TileIs k Tile.uncaptured s t ∧ Raised .capWithdrawn .lineTile k (w1 2) s.tn t) s
      (exec (.captureTrigger k) s) := by
  have hunframed : s.captureUnframed k = true := by simp [captureUnframed_eq, hneeds, hout]
  have hexec : exec (.captureTrigger k) s = .next (s.withdrawCapture k none .notInFrame) := by
    refine (?_ : execCaptureTrigger k s = _)
    simp only [execCaptureTrigger, captureTrigger_due harmed hstart hdue, hunframed, if_true]
  obtain ⟨hsteps, htile, -, hraised⟩ := withdrawCapture_withdraws k.isLt .notInFrame s
  exact ⟨_, hexec, ⟨htile, hraised⟩, hsteps.only⟩
/-- A unit that has reached its length. -/
def Tile.captured (data : List Octet) (x : Tile) : Tile :=
  { x with capture := { x.capture with state := .done, taken := [], filled := x.capture.extent, mem := x.capture.placed data } }
theorem captureFillDone_ends (data : List Octet) (hfills : (s.tile k).capture.state = .filling) (hframed : s.captureUnframed k = false)
    (hlong : (s.tile k).capture.begun + (s.tile k).capture.ticksNeeded (s.eng ((s.tile k).capture.engine k)).rxLayout ≤ s.ticks + 1) :
    Happens (.tiles :: eventParts) (fun t => TileIs k (.captured data) s t ∧ Raised .capDone .lineTile k [] s.tn t) s
      (exec (.captureFillDone k data) s) := by
  have hexec : exec (.captureFillDone k data) s = .next ((s.modTile k (.captured data)).raise .capDone .lineTile k []) := by
    refine (?_ : execCaptureFillDone k data s = _)
    simp only [execCaptureFillDone, hfills, hframed, hlong, beq_self_eq_true, decide_true, Bool.and_self, if_true, Bool.false_eq_true, if_false]
    exact congrArg (fun u : State => Host.Outcome.next (u.raise .capDone .lineTile k [])) (State.modTile_congr rfl)
  exact ⟨_, hexec, ⟨(tileIs_modTile k.isLt _ s).of_same rfl (State.raise_tiles (by decide) ..), raised_raise_tn rfl⟩,
    (((steps_modTile ..).mono (by decide)).trans ((steps_raise ..).mono (by decide))).only⟩
end
/-- Settles O20: each row is the step it makes where its condition holds. -/
theorem captureHappenings : Obligations.CaptureHappenings := by
  unfold Obligations.CaptureHappenings
  exact fun k n s => ⟨fun harmed hstart hdue => ⟨captureTrigger_fills harmed hstart hdue, captureTrigger_withdraws harmed hstart hdue⟩,
    captureFillDone_ends⟩
end Sys2Proof.Machine
end

section
/-! Empty SPI windows (O8), and what parsing an item can do: a tag in flight (O6), refusals, holds and items left (O7). -/
namespace Sys2Proof.Machine

/-! ### Empty SPI windows (R400, R412) -/

/-- Nothing to clock out but the NOT_VALID marker, repeated and cut. -/
def markers (n : Nat) : List Octet := (List.replicate (n / 8 + 1) notValid).flatten.take n
theorem clockOut_nil {α : Type} (f : α → List Octet) (fuel n pos : Nat) : clockOut f (fuel + 1) n [] pos = (markers n, 0, 0) := rfl
theorem spiResponseWindowRead_empty {n : Nat} {last : Bool} {s : State} (hio : s.ioHeld = false) (hdead : s.proto.spiDead = false)
    (hnone : vget s.proto.resp 4 [] = []) (hread : s.proto.spiRespRead = 0) :
    exec (.spiResponseWindowRead n last) s = .next { s with spiReply := markers n } := by
  have hresp : vmod s.proto.resp 4 (fun l => l.drop 0) = s.proto.resp := vmod_vget_self _ _ _ [] (by decide) (by rw [List.drop_zero])
  refine (?_ : execSpiResponseWindowRead n last s = _)
  simp only [execSpiResponseWindowRead, hio, hdead, hnone, clockOut_nil, Bool.false_eq_true, if_false, if_true, ite_self, State.modProto, hresp]
  rw [← hread, ← hdead]
theorem spiEventWindowRead_empty {n : Nat} {last : Bool} {s : State} (hio : s.ioHeld = false) (hdead : s.proto.spiDead = false)
    (hnone : s.proto.eventQueue = [] ∨ (s.qreg 8).enable = true) (hread : s.proto.spiEventRead = 0) :
    exec (.spiEventWindowRead n last) s = .next { s with spiReply := markers n } := by
  have hlist : (if (s.qreg 8).enable = true then [] else s.proto.eventQueue) = [] := by
    rcases hnone with h | h <;> simp [h]
  refine (?_ : execSpiEventWindowRead n last s = _)
  simp only [execSpiEventWindowRead, hio, hdead, hlist, clockOut_nil, Bool.false_eq_true, if_false, if_true, ite_self, State.modProto,
    List.drop_zero]
  rw [← hread, ← hdead]
/-- Settles O8: with no item to read a window clocks out markers and leaves the queue. -/
theorem emptyWindowsReadNotValid : Obligations.EmptyWindowsReadNotValid := by
  unfold Obligations.EmptyWindowsReadNotValid
  refine fun n last s hio hdead => ⟨spiResponseWindowRead_empty hio hdead, spiEventWindowRead_empty hio hdead, fun hn => ?_⟩
  subst hn
  rfl

/-! ### An item that its transport does not parse -/

theorem only_setVisible (n : Nat) (l : List CmdItem) (s : State) : Only [.queueItems] s (s.setVisible n l) :=
  fun p hp => by cases p <;> simp [Part.same] at hp ⊢
theorem State.ensureVisible_items (op : Nat) (c : Cmd) (s : State) : Only [.queueItems] s (s.ensureVisible op c)
    ∧ (∀ x, (s.ensureVisible op c).parses x = s.parses x)
    ∧ ∃ l, (s.ensureVisible op c).visible c.src.list = s.visible c.src.list ++ l ∧ ∀ it ∈ l, it.cmd = c := by
  dsimp only [State.ensureVisible]
  split
  · exact ⟨fun p hp => only_refl _ s p hp, fun _ => rfl, [], (List.append_nil _).symm, by simp⟩
  · exact ⟨fun p hp => only_setVisible _ _ s p hp, fun x => State.parses_setVisible _ _ x s, [_], State.visible_setVisible _ _ _ (source_list_le _), by simp⟩
/-- Where none of its items is of a transport that parses, nothing is taken from a queue. -/
theorem State.nextItem_none {n : Nat} {s : State} (h : ∀ it ∈ s.visible n, s.parses it.cmd.src = false) : s.nextItem n = none := by
  unfold State.nextItem
  dsimp only
  split
  · split
    case h_1 it hit => rw [if_neg (by simp [h it (List.mem_of_getElem? hit)])]
    case h_2 => rfl
  · split
    · rfl
    case h_2 it r hl => rw [if_neg (by simp [h it (by simp [hl])])]
theorem State.dropBad_none {n : Nat} {s : State} (h : ∀ it ∈ s.visible n, s.parses it.cmd.src = false) (k : Nat) : s.dropBad n k = s := by
  cases k with
  | zero => rfl
  | succ k =>
    unfold State.dropBad
    split
    · rfl
    case h_2 it r hl =>
      split
      · rw [if_neg (by simp [h it (by simp [hl])])]
      · rfl
theorem runSpec_unparsed (row : Option OpSpec) (op : Nat) {c : Cmd} {s : State} (h : ∀ it ∈ s.visible c.src.list, it.cmd.src = c.src)
    (hp : s.parses c.src = false) : runSpec row op c s = s.ensureVisible op c := by
  obtain ⟨-, hparses, l, hvisible, hl⟩ := s.ensureVisible_items op c
  have hnone : ∀ it ∈ (s.ensureVisible op c).visible c.src.list, (s.ensureVisible op c).parses it.cmd.src = false := by
    intro it hit
    rw [hvisible, List.mem_append] at hit
    have hsrc : it.cmd.src = c.src := hit.elim (h it) (fun hm => congrArg Cmd.src (hl it hm))
    rw [hparses, hsrc, hp]
  simp only [runSpec, State.dropBad_none hnone, State.nextItem_none hnone]

/-! ### A tag in flight (R402) -/

/-- A command that stands alone as its queue shows it. -/
def State.alone (op : Nat) (c : Cmd) (s : State) : State :=
  (s.setVisible c.src.list [{ opcode := op, cmd := c, span := 0, bad := none }]).takeVisible c.src.list 0
/-- What a queue shows follows from its items alone. -/
theorem State.visible_of_same {s t : State} (h : Part.same s t .queueItems) (n : Nat) : t.visible n = s.visible n := by
  obtain ⟨hring, hspi, hint, hshep, -⟩ := h
  simp only [State.visible, State.cmdq, hring, hspi, hint, hshep]
theorem takeItem_one (it : CmdItem) : takeItem [it] 0 = ([], it.span) := rfl
theorem only_alone (op : Nat) (c : Cmd) (s : State) : Only [.queueItems] s (s.alone op c) := by
  intro p hp
  unfold State.alone State.takeVisible
  rw [State.visible_setVisible _ _ _ (source_list_le _), takeItem_one]
  cases p <;> simp [Part.same] at hp ⊢ <;> split <;> simp
theorem visible_alone (op : Nat) (c : Cmd) (s : State) : (s.alone op c).visible c.src.list = [] := by
  have hempty := State.visible_setVisible c.src.list [] (s.setVisible c.src.list [{ opcode := op, cmd := c, span := 0, bad := none }])
    (source_list_le _)
  unfold State.alone State.takeVisible
  rw [State.visible_setVisible _ _ _ (source_list_le _), takeItem_one]
  simp only [bne_self_eq_false, Bool.and_false, Bool.false_eq_true, if_false]
  split
  · exact hempty
  · exact hempty
theorem runSpec_alone (row : Option OpSpec) (op : Nat) {c : Cmd} {s : State} (hv : (s.visible c.src.list).isEmpty = true)
    (hp : s.parses c.src = true) (hb : s.barred c.src = false) (hq : c.urgent = true ∨ s.urgentElse c.src.list = false) :
    runSpec row op c s = parseCmd row op c (s.alone op c) := by
  have h5 := source_list_le c.src
  rw [List.isEmpty_iff] at hv
  have hens : s.ensureVisible op c = s.setVisible c.src.list [{ opcode := op, cmd := c, span := 0, bad := none }] := by
    simp [State.ensureVisible, hv]
  have hdrop : ∀ k, (s.setVisible c.src.list [{ opcode := op, cmd := c, span := 0, bad := none }]).dropBad c.src.list k
      = s.setVisible c.src.list [{ opcode := op, cmd := c, span := 0, bad := none }]
    | 0 => rfl
    | k + 1 => by simp [State.dropBad, h5]
  have hnext : (s.setVisible c.src.list [{ opcode := op, cmd := c, span := 0, bad := none }]).nextItem c.src.list = some 0 := by
    by_cases hu : c.urgent = true <;> simp [State.nextItem, h5, hu, hp, hb]
  have hturn : (c.urgent || !s.urgentElse c.src.list) = true := by simpa using hq
  simp only [runSpec, hens, hdrop, hnext]
  simp [h5, State.urgentElse_setVisible _ _ _ h5, hturn, State.alone]
theorem tagsInFlight_alone (op : Nat) (c : Cmd) (s : State) : (s.alone op c).tagsInFlight = s.tagsInFlight := by
  rw [State.alone, State.takeVisible_tags, State.tagsInFlight_setVisible]
theorem parses_full {src : Source} {s : State} (hsrc : src.isHost = true) (hfull : 1024 ≤ s.tagsInFlight.length) : s.parses src = false := by
  cases src <;> simp_all [State.parses, Source.port, Source.isHost]
/-- Settles O6: a command whose tag is in flight leaves its queue with BAD_ITEM alone; with all tags in flight no item is taken. -/
theorem tagInFlight : Obligations.TagInFlight := by
  unfold Obligations.TagInFlight
  refine fun row op c s hsrc => ⟨fun hv hp hb hq htag => ?_, fun hfull hitems => ?_⟩
  · have hparse : parseCmd row op c (s.alone op c)
        = ((s.alone op c).count .tagCollisions .device 0 1).badItem c.src.cmdSet .tagInUse (headerNat op c) := by
      rw [parseCmd, tagsInFlight_alone, if_pos (by rw [hsrc, htag]; rfl)]
    rw [runSpec_alone row op hv hp hb hq, hparse]
    have halone := only_alone op c s
    have hraiseMoves := moves_raise .badItem .queue c.src.cmdSet (w1 3 ++ w2 (headerNat op c)) ((s.alone op c).count .tagCollisions .device 0 1)
    obtain ⟨hcount, hhappened⟩ := counted_count .tagCollisions .device 0 1 (s.alone op c) (by decide)
    have hraise := hraiseMoves.steps.only
    have htn : ((s.alone op c).count .tagCollisions .device 0 1).tn = s.tn :=
      (hhappened .tn (by decide)).trans (halone .tn (by decide))
    refine ⟨only_trans _ _ s _ _ halone (only_trans _ (withEvent [.queueItems]) _ _ _ hhappened (only_mono hraise (by decide)) (by decide))
      (by decide), ?_, raised_raise_tn htn, hraiseMoves.counted _ hcount⟩
    calc _ = State.visible c.src.list ((s.alone op c).count .tagCollisions .device 0 1) :=
          State.visible_of_same (hraise .queueItems (by decide)) _
      _ = State.visible c.src.list (s.alone op c) := State.visible_of_same (hhappened .queueItems (by decide)) _
      _ = [] := visible_alone op c s
  · rw [runSpec_unparsed row op hitems (parses_full hsrc hfull)]
    obtain ⟨honly, -, l, hl, -⟩ := s.ensureVisible_items op c
    exact ⟨honly, l, hl⟩

/-! ### Refusals and holds of a command that is parsed at once (R404, R405, R41) -/

/-- What follows the numbering of a parsed item: the checks in the order of Table 14.3, and what they let through. -/
def checked (row : Option OpSpec) (op : Nat) (c : Cmd) (t : Ticket) (s : State) : State :=
  match row with
  | none => if c.reserved != 0 || (c.urgent && c.tn.isSome) then s.final t .flagsInvalid 0 [] else s.final t .unknownOpcode 0 []
  | some sp =>
    match parseRefusal sp c s with
    | some (st, d) => s.final t st d []
    | none =>
      if c.barrier && barrierWaits t.seq s then s.hold op c t.seq .barrier
      else if orderWaits op c t.seq s then s.hold op c t.seq .order else startCmd sp c t s
theorem runSpec_checked (row : Option OpSpec) (op : Nat) {c : Cmd} {s : State} (h : parsedNow c s = true) :
    runSpec row op c s = checked row op c (ticketNow op c s) (s.atParse op c) := by
  have htag : (c.src.isHost && s.tagsInFlight.contains c.tag.val) = false := by
    simp only [parsedNow, Bool.and_eq_true, Bool.not_eq_true'] at h
    exact h.2
  have hseq : (s.alone op c).proto.nextSeq = s.proto.nextSeq := by rw [State.alone, State.takeVisible_nextSeq, State.setVisible_nextSeq]
  rw [runSpec_parsedNow _ _ _ _ h]
  refine (?_ : parseCmd row op c (s.alone op c) = _)
  rw [parseCmd, tagsInFlight_alone, if_neg (by rw [htag]; decide), hseq]
  rfl
section
variable {sp : OpSpec} {c : Cmd} {t : Ticket} {s : State}
theorem checked_refused {op d : Nat} {st : Status} (h : parseRefusal sp c s = some (st, d)) :
    checked (some sp) op c t s = s.final t st d [] := by
  simp only [checked, h]
theorem checked_barrier {op : Nat} (h : parseRefusal sp c s = none) (hb : c.barrier = true) (hw : barrierWaits t.seq s = true) :
    checked (some sp) op c t s = s.hold op c t.seq .barrier := by
  simp only [checked, h, hb, hw, Bool.and_self, if_true]
theorem checked_order {op : Nat} (h : parseRefusal sp c s = none) (hb : ¬(c.barrier = true ∧ barrierWaits t.seq s = true))
    (hw : orderWaits op c t.seq s = true) : checked (some sp) op c t s = s.hold op c t.seq .order := by
  simp only [checked, h, Bool.and_eq_true, if_neg hb, hw, if_true]
theorem checked_starts {op : Nat} (h : parseRefusal sp c s = none) (hb : ¬(c.barrier = true ∧ barrierWaits t.seq s = true))
    (hw : orderWaits op c t.seq s = false) : checked (some sp) op c t s = startCmd sp c t s := by
  simp only [checked, h, Bool.and_eq_true, if_neg hb, hw, Bool.false_eq_true, if_false]
theorem startCmd_refused {st : Status} {d : Nat} (h : ownRefusal sp c s = some (st, d)) :
    startCmd sp c t s = (sp.onRefuse st c s).final t st d [] := by
  simp only [startCmd, h]
theorem startCmd_held (h : ownRefusal sp c s = none) (htn : ∀ d, c.tn = some d → s.tn < d)
    (hheld : (s.realignHolds && newlyCarries s (effectOn sp c s)) = true) : startCmd sp c t s = s.hold sp.code c t.seq .realign := by
  have hdue : c.tn.any (fun due => decide (due ≤ s.tn)) = false := by
    cases hc : c.tn with
    | none => rfl
    | some d => simpa using htn d hc
  simp only [startCmd, h, hdue, hheld, Bool.false_eq_true, if_false, if_true]
end
theorem realignHolds_atParse (op : Nat) (c : Cmd) (s : State) : (s.atParse op c).realignHolds = s.realignHolds := by
  rw [State.realignHolds, State.realignHolds, State.atParse_realign, State.atParse_ticks]
theorem only_countPrivilege (op : Nat) (x : Source) (s : State) : Only [.happened] s (s.countPrivilege op x) := by
  have hproto := countPrivilege_frame (fun s => s.proto) (fun _ _ => rfl) op x s
  have hdev := countPrivilege_frame (fun s => s.dev) (fun _ _ => rfl) op x s
  intro p hp
  cases p <;> simp [Part.same, State.tile, hproto, hdev] at hp ⊢
/-- Being numbered costs a command its place in the queue, and counts its privilege. -/
theorem only_numbered (op : Nat) (c : Cmd) (s : State) : Only [.queueItems, .seq, .happened] s (s.atParse op c) := by
  have hseq : Only [.seq] (s.alone op c) ((s.alone op c).modProto (fun p => { p with nextSeq := p.nextSeq + 1 })) :=
    fun p hp => by cases p <;> simp [Part.same] at hp ⊢
  exact only_trans _ _ _ _ _ (only_alone op c s) (only_trans _ [.queueItems, .seq, .happened] _ _ _ hseq
    (only_mono (only_countPrivilege op c.src _) (by decide)) (by decide)) (by decide)
theorem only_hold (op : Nat) (c : Cmd) (k : Nat) (why : HoldWhy) (s : State) : Only [.held] s (s.hold op c k why) :=
  fun p hp => by cases p <;> simp [State.hold, Part.same] at hp ⊢
/-- What a command that is held on parsing leaves. -/
theorem held_of_hold (op : Nat) (c : Cmd) (why : HoldWhy) (s : State) :
    ((s.atParse op c).hold op c s.proto.nextSeq why).proto.held
        = s.proto.held ++ [{ opcode := op, cmd := c, seq := s.proto.nextSeq, why := why, dead := false }]
      ∧ Only [.held, .queueItems, .queueRegs, .seq, .happened] s ((s.atParse op c).hold op c s.proto.nextSeq why) := by
  refine ⟨?_, only_trans _ _ s _ _ (only_numbered op c s) (only_mono (only_hold op c _ why _) (by decide)) (by decide)⟩
  simp only [State.hold, State.modProto_proto, held_atParse]
/-- What a command that is refused on parsing leaves. -/
theorem refused_final (op : Nat) (c : Cmd) (st : Status) (d : Nat) (s : State) :
    Answered op c true st d s.tn [] ((s.atParse op c).final (ticketNow op c s) st d [])
      ∧ Only answerParts s ((s.atParse op c).final (ticketNow op c s) st d []) := by
  refine ⟨?_, only_final _ _ _ _ _ _ _ (only_atParse op c s) (by decide) (by decide) (by decide) (by decide)⟩
  have h := answered_final op c st d [] s.proto.nextSeq (s.atParse op c)
  rwa [State.atParse_tn] at h
theorem ownRefusal_fenced {sp : OpSpec} {c : Cmd} {s : State} {k : Nat} (hf : sp.fence c = some k) (hk : (s.tile k).fenced = true)
    (hr : rangeRefusal sp c s = none) : ownRefusal sp c s = some (.tileFenced, k) := by
  simp only [ownRefusal, hr, fenceRefusal, hf, hk, if_true]
/-- The row of a read counterpart is its setter's. -/
theorem exec_readCounterpart {op : Fin 4096} {sp : OpSpec} {rb : ReadBack} (c : Cmd) (s : State)
    (hf : allSpecs.find? (fun x => x.code + 128 == op.val) = some sp) (hr : sp.read = some rb) :
    exec (.readCounterpart op c) s = .next (runSpec (some (readSpec sp rb)) op c s) := by
  refine (?_ : execReadCounterpart op c s = _)
  simp only [execReadCounterpart, hf, Option.bind_some, hr, Option.map_some]
theorem exec_unknownOpcode {op : Fin 4096} (c : Cmd) (s : State) (h : opTable op = none) :
    exec (.unknownOpcode op c) s = .next (runSpec none op c s) := by
  refine (?_ : execUnknownOpcode op c s = _)
  simp only [execUnknownOpcode, h]

/-- Settles O7: what each way that parsing can end leaves. -/
theorem parsingAndRefusal : Obligations.ParsingAndRefusal := by
  unfold Obligations.ParsingAndRefusal
  refine fun c s => ⟨fun sp hp => ?_, fun sp hv hp => ?_, fun op hop hp => ?_, fun op sp rb hf hr h => ?_⟩
  · have hrun : runOp sp c s = .next (checked (some sp) sp.code c (ticketNow sp.code c s) (s.atParse sp.code c)) :=
      congrArg Host.Outcome.next (runSpec_checked (some sp) sp.code hp)
    have hbarrier : barrierWaits (ticketNow sp.code c s).seq (s.atParse sp.code c) = barrierWaits s.proto.nextSeq s := barrierWaits_atParse ..
    have horder : orderWaits sp.code c (ticketNow sp.code c s).seq (s.atParse sp.code c) = orderWaits sp.code c s.proto.nextSeq s :=
      orderWaits_atParse ..
    rw [hrun]
    rw [← hbarrier, ← horder]
    refine ⟨fun st d h => ⟨_, rfl, ?_⟩, fun st d h hw hb ho hre => ⟨_, rfl, ?_⟩, fun k hk hfenced hr => ?_, fun h hb hw => ⟨_, rfl, ?_⟩,
      fun h hb hw => ⟨_, rfl, ?_⟩, fun h hb hw ho hh htn => ⟨_, rfl, ?_⟩⟩
    · rw [checked_refused h]
      exact refused_final ..
    · rw [checked_starts h hb hw, startCmd_refused ho, hre]
      exact refused_final ..
    · exact ownRefusal_fenced hk (by rwa [State.tile, State.atParse_tiles]) hr
    · rw [checked_barrier h hb hw]
      exact held_of_hold ..
    · rw [checked_order h hb hw]
      exact held_of_hold ..
    · rw [checked_starts h hb hw, startCmd_held ho (by rwa [State.atParse_tn]) (by rw [realignHolds_atParse]; exact hh)]
      exact held_of_hold ..
  · rw [List.isEmpty_iff] at hv
    refine ⟨_, rfl, ?_⟩
    rw [runSpec_unparsed _ _ (by simp [hv]) hp]
    refine ⟨?_, (s.ensureVisible_items sp.code c).1⟩
    simp [State.ensureVisible, hv, source_list_le]
  · rw [exec_unknownOpcode c s hop, runSpec_checked none op hp]
    by_cases hbad : (c.reserved != 0 || (c.urgent && c.tn.isSome)) = true
    · have hflags : checked none op c (ticketNow op c s) (s.atParse op c) = (s.atParse op c).final (ticketNow op c s) .flagsInvalid 0 [] := by
        simp only [checked, hbad, if_true]
      rw [hflags]
      obtain ⟨hans, honly⟩ := refused_final op c .flagsInvalid 0 s
      exact ⟨_, rfl, honly, fun h0 hu => absurd hbad (by simp [h0]; simpa using hu), fun _ => hans⟩
    · have hunknown : checked none op c (ticketNow op c s) (s.atParse op c) = (s.atParse op c).final (ticketNow op c s) .unknownOpcode 0 [] := by
        simp only [checked, hbad, Bool.false_eq_true, if_false]
      rw [hunknown]
      obtain ⟨hans, honly⟩ := refused_final op c .unknownOpcode 0 s
      exact ⟨_, rfl, honly, fun _ _ => hans, fun h => absurd h (by simpa using hbad)⟩
  · have hcode : op.val = (readSpec sp rb).code := by
      have hop := List.find?_some hf
      exact (beq_iff_eq.mp hop).symm
    rw [exec_readCounterpart c s hf hr, hcode]
    exact reports_now (readSpec sp rb) _ c s _ h rfl rfl rfl rfl
end Sys2Proof.Machine
end

section
/-! The telemetry chains (O29). -/
namespace Sys2Proof.Machine

theorem ready_deviceSub {sp : OpSpec} {c : Cmd} {s : State} {n : Nat} (h : Ready sp c s = true) (ht : sp.target = tgtDeviceSub n) : cSub c < n := by
  have htarget := ready_target sp c s h
  simp only [ht, tgtDeviceSub, Bool.and_eq_true, decide_eq_true_eq] at htarget
  exact htarget.2

/-! ### Changes of one chain -/

theorem chainIs_modChain {n : Nat} (hn : n < 64) (f : TlmChain → TlmChain) (s : State) : ChainIs n f s (s.modChain n f) :=
  ⟨vget_vmod_same _ _ _ _ hn, fun _ hq => vget_vmod_ne _ _ _ _ _ hq⟩
theorem ChainIs.of_chains {n : Nat} {f : TlmChain → TlmChain} {s s' t t' : State} (h : ChainIs n f s t) (hs : s.chains = s'.chains)
    (ht : t'.chains = t.chains) : ChainIs n f s' t' := by
  simpa only [ChainIs, State.chain, hs, ht] using h
theorem steps_modChain (n : Nat) (f : TlmChain → TlmChain) (s : State) : Steps [.chains] s (s.modChain n f) :=
  steps_of_same (fun p hp => by cases p <;> simp [Part.same, State.modChain, State.tile] at hp ⊢) rfl rfl
/-- A command that changes its chain at once. -/
theorem does_chain {sp : OpSpec} {g : Cmd → TlmChain → TlmChain} {c : Cmd} {s : State} (h : Ready sp c s = true) (htarget : sp.target = tgtDeviceSub 64)
    (heff : sp.eff = .now (fun c s => (s.modChain (cSub c) (g c), []))) (haccept : sp.onAccept = fun _ s => s) :
    Does sp.code c [] [.chains] (ChainIs (cSub c) (g c) s) s (runOp sp c s) := by
  refine does_steps (v := (s.atParse sp.code c).modChain (cSub c) (g c)) h heff haccept rfl (steps_modChain ..) (by decide) (fun t ht => ?_)
  exact (chainIs_modChain (ready_deviceSub h htarget) _ _).of_chains (State.atParse_chains ..) (ht.only .chains (by decide))
/-- A change of its chain alone takes effect. -/
theorem takesEffect_chain {op : Nat} {f : Cmd → State → State} {g : TlmChain → TlmChain} {c : Cmd} (s : State) (hb : boundaryEffect op = f)
    (hn : cSub c < 64) (hf : f c s.disarmed = s.disarmed.modChain (cSub c) g) : TakesEffect op c [.chains] (ChainIs (cSub c) g s) s := by
  refine takesEffect_steps hb (hf ▸ steps_modChain ..) (by decide) (fun t ht => ?_)
  rw [hf] at ht
  exact (chainIs_modChain hn g s.disarmed).of_chains rfl (ht.only .chains (by decide))
/-- The chain that TLM_CHAIN_SET leaves. -/
def TlmChain.configured (c : Cmd) (ch : TlmChain) : TlmChain :=
  { ch.sync with cfg := { source := tlmSourceOf (cw c 1), sourceWord := cw c 1, cic := cw c 2, hb1 := bit (cw c 3) 0, hb2 := bit (cw c 3) 1
                          fir := cw c 4, overflow := cw c 5 } }

/-! ### A sample's way through the stages (R449) -/

/-- What a sample settles at the entry of its chain: when, of what configuration, its value, and the inputs of the first stage. -/
def TlmChain.entry (c : TlmChain) : Option Nat × TlmCfg × Int × Nat := (c.sampledAt, c.cfg, c.lastSample, c.counts.getD 0 0)
/-- What a stage of chain `n` may do: other chains stay, and so does what its entry settled. -/
structure Filters (n : Nat) (s t : State) : Prop where
  steps : Steps (.chains :: .tlmq :: eventParts) s t
  others : ∀ q, q ≠ n → t.chain q = s.chain q
  entry : (t.chain n).entry = (s.chain n).entry
section
variable {n : Nat} {s t u : State}
theorem Filters.refl (n : Nat) (s : State) : Filters n s s := ⟨.refl .., fun _ _ => rfl, rfl⟩
theorem Filters.trans (h : Filters n s u) (h' : Filters n u t) : Filters n s t :=
  ⟨h.steps.trans h'.steps, fun q hq => (h'.others q hq).trans (h.others q hq), h'.entry.trans h.entry⟩
theorem Filters.of_steps {l : List Part} (h : Steps l s t) (hl : ∀ p ∈ l, p ∈ .tlmq :: eventParts) : Filters n s t := by
  have hchains : t.chains = s.chains := h.only .chains (fun hm => absurd (hl _ hm) (by decide))
  have hchain : ∀ q, t.chain q = s.chain q := fun q => by rw [State.chain, State.chain, hchains]
  exact ⟨h.mono (fun p hp => List.mem_cons_of_mem _ (hl p hp)), fun q _ => hchain q, by rw [hchain]⟩
theorem filters_ite {b : Prop} {_ : Decidable b} (ht : Filters n s t) (hu : Filters n s u) : Filters n s (if b then t else u) := by
  split
  exacts [ht, hu]
theorem filters_modChain (hn : n < 64) {f : TlmChain → TlmChain} (hf : (f (s.chain n)).entry = (s.chain n).entry) : Filters n s (s.modChain n f) := by
  obtain ⟨hsame, hothers⟩ := chainIs_modChain hn f s
  exact ⟨(steps_modChain n f s).mono (by simp), hothers, by rw [hsame, hf]⟩
end
theorem steps_countSub (x : Ctr) (k : Kind) (i b m : Nat) (s : State) : Steps [.happened] s (s.countSub x k i b m) :=
  (acts_countSub 0 x k i b m s).steps_of_engines (by simp)
theorem filters_countSub (n : Nat) (x : Ctr) (k : Kind) (i b m : Nat) (s : State) : Filters n s (s.countSub x k i b m) :=
  .of_steps (steps_countSub ..) (by decide)
theorem filters_raise (n : Nat) (ev : Ev) (k : Kind) (i : Nat) (ws : List Word) (s : State) : Filters n s (s.raise ev k i ws) :=
  .of_steps (steps_raise ..) (by decide)
theorem steps_resultCrossed (q w : Nat) (s : State) : Steps eventParts s (s.resultCrossed q w) :=
  (((acts_signal 0 _ s).steps_of_engines (by simp)).mono (by decide)).trans (steps_raise ..)
theorem steps_tlmq (f : TlmQueue) (s : State) : Steps [.tlmq] s { s with tlmq := f } :=
  steps_of_same (fun p hp => by cases p <;> simp [Part.same, State.tile] at hp ⊢) rfl rfl
theorem steps_tlmPush (item : Nat) (s : State) : Steps (.tlmq :: eventParts) s (s.tlmPush item) := by
  unfold State.tlmPush
  dsimp only
  split
  · split
    · exact ((steps_tlmq _ s).mono (by simp)).trans ((steps_resultCrossed ..).mono (by decide))
    · exact (steps_tlmq _ s).mono (by simp)
  · exact (steps_tlmq _ s).mono (by simp)
theorem filters_tlmFir {n : Nat} (hn : n < 64) (x : Rat × Bool) (s : State) : Filters n s (s.tlmFir n x) := by
  unfold State.tlmFir
  dsimp only
  have hin : ∀ (m : List (Rat × Bool)) k, Filters n s (s.modChain n (fun c => { c with firMem := m, counts := c.counts.set 3 k })) :=
    fun m k => filters_modChain hn (by simp [TlmChain.entry])
  split
  · exact hin ..
  · have hpush : ∀ item u, Filters n u (State.tlmPush item u) := fun item u => .of_steps (steps_tlmPush item u) (by simp)
    refine filters_ite ?_ ?_
    · refine .trans (.trans (.trans (.trans (hin _ _) (filters_modChain hn ?_)) (filters_countSub ..)) (hpush ..)) (filters_raise ..)
      rfl
    · refine .trans (.trans (.trans (hin _ _) (filters_modChain hn ?_)) (filters_countSub ..)) (hpush ..)
      rfl
theorem filters_tlmHb2 {n : Nat} (hn : n < 64) (x : Rat × Bool) (s : State) : Filters n s (s.tlmHb2 n x) := by
  unfold State.tlmHb2
  dsimp only
  have hin : ∀ (m : List (Rat × Bool)) k, Filters n s (s.modChain n (fun c => { c with hb2Mem := m, counts := c.counts.set 2 k })) :=
    fun m k => filters_modChain hn (by simp [TlmChain.entry])
  split
  · exact filters_tlmFir hn x s
  · split
    · exact ((hin _ _).trans (filters_countSub ..)).trans (filters_tlmFir hn ..)
    · exact (hin _ _).trans (filters_countSub ..)
theorem filters_tlmHb1 {n : Nat} (hn : n < 64) (x : Rat × Bool) (s : State) : Filters n s (s.tlmHb1 n x) := by
  unfold State.tlmHb1
  dsimp only
  have hin : ∀ (m : List (Rat × Bool)) k, Filters n s (s.modChain n (fun c => { c with hb1Mem := m, counts := c.counts.set 1 k })) :=
    fun m k => filters_modChain hn (by simp [TlmChain.entry])
  split
  · exact filters_tlmHb2 hn x s
  · split
    · exact ((hin _ _).trans (filters_countSub ..)).trans (filters_tlmHb2 hn ..)
    · exact (hin _ _).trans (filters_countSub ..)

/-! ### A sample enters (R448) -/

/-- Chain `n` after its first stage has taken a sample. -/
def State.integrated (n : Nat) (v : Int) (stale : Bool) (s : State) : State :=
  let c := s.chain n
  let x := if stale then c.lastSample else v
  let k := c.counts.getD 0 0 + 1
  let i := integrate c.cfg.legacy x c.integ
  (s.modChain n (fun c => { c with
    integ := i.1, counts := c.counts.set 0 k, lastStale := if stale then some k else (s.chain n).lastStale, lastSample := x, sampledAt := some s.ticks })).countSub
      .tlmWraps .monConv 4 n i.2
/-- What the entry of its chain makes of a sample. -/
structure Entered (n : Nat) (v : Int) (stale : Bool) (s t : State) : Prop where
  steps : Steps (.chains :: .tlmq :: eventParts) s t
  others : ∀ q, q ≠ n → t.chain q = s.chain q
  entry : (t.chain n).entry
    = (some s.ticks, (s.chain n).cfg, if stale then (s.chain n).lastSample else v, (s.chain n).counts.getD 0 0 + 1)
section
variable {n : Nat} {v : Int} {stale : Bool} {s : State}
theorem State.integrated_chain (hn : n < 64) :
    (s.integrated n v stale).chain n = { s.chain n with
      integ := (integrate (s.chain n).cfg.legacy (if stale then (s.chain n).lastSample else v) (s.chain n).integ).1
      counts := (s.chain n).counts.set 0 ((s.chain n).counts.getD 0 0 + 1)
      lastStale := if stale then some ((s.chain n).counts.getD 0 0 + 1) else (s.chain n).lastStale
      lastSample := if stale then (s.chain n).lastSample else v, sampledAt := some s.ticks } := by
  unfold State.integrated State.chain
  dsimp only
  rw [State.countSub_chains]
  exact (chainIs_modChain hn _ s).1
theorem entered_integrated (hn : n < 64) (hl : (s.chain n).counts.length = 4) : Entered n v stale s (s.integrated n v stale) := by
  refine ⟨((steps_modChain ..).mono (by simp)).trans ((steps_countSub ..).mono (by decide)), fun q hq => ?_, ?_⟩
  · unfold State.integrated State.chain
    dsimp only
    rw [State.countSub_chains]
    exact (chainIs_modChain hn _ s).2 q hq
  · have hcount : ∀ k, ((s.chain n).counts.set 0 k).getD 0 0 = k := fun k => by
      rw [List.getD_eq_getElem?_getD, List.getElem?_set_self (by omega), Option.getD_some]
    rw [State.integrated_chain hn, TlmChain.entry]
    dsimp only
    rw [hcount]
theorem Entered.filters {t u : State} (h : Entered n v stale s u) (h' : Filters n u t) : Entered n v stale s t :=
  ⟨h.steps.trans h'.steps, fun q hq => (h'.others q hq).trans (h.others q hq), h'.entry.trans h.entry⟩
/-- A sample that completes no decimation moves the integrators alone. -/
theorem State.tlmInput_waits (h : ((s.chain n).counts.getD 0 0 + 1) % (s.chain n).cfg.cic ≠ 0) : s.tlmInput n v stale = s.integrated n v stale := by
  unfold State.tlmInput
  dsimp only
  rw [if_pos h]
  rfl
theorem entered_tlmInput (hn : n < 64) (hl : (s.chain n).counts.length = 4) : Entered n v stale s (s.tlmInput n v stale) := by
  by_cases h : ((s.chain n).counts.getD 0 0 + 1) % (s.chain n).cfg.cic ≠ 0
  · rw [State.tlmInput_waits h]
    exact entered_integrated hn hl
  · refine (entered_integrated (v := v) (stale := stale) hn hl).filters ?_
    unfold State.tlmInput
    dsimp only
    rw [if_neg h]
    refine (Filters.trans (filters_modChain hn ?_) (filters_countSub ..)).trans (filters_tlmHb1 hn ..)
    rfl
end

/-- Settles O29: each stage leaves what the chain's entry settled, and the first stage alone moves while its decimation runs. -/
theorem telemetryChains : Obligations.TelemetryChains := by
  unfold Obligations.TelemetryChains
  refine ⟨fun c s => ⟨fun h => arms_boundary specTlmChainSet _ _ c s h rfl rfl, fun h => arms_boundary specTlmReset _ _ c s h rfl rfl,
    fun hn => ⟨?_, ?_⟩, fun h => does_chain h rfl rfl rfl, fun h => does_chain h rfl rfl rfl⟩, fun n s => ⟨?_, fun mi hfresh hsrc hl => ?_,
      fun e code hfresh hsrc hl hslow => ?_⟩⟩
  · exact takesEffect_chain (g := TlmChain.configured c) s (boundaryEffect_of_row opTable_TlmChainSet rfl (by decide) (by decide)) hn rfl
  · exact takesEffect_chain (g := TlmChain.sync) s (boundaryEffect_of_row opTable_TlmReset rfl (by decide) (by decide)) hn rfl
  · intro h
    refine (?_ : execTlmSample n s = _)
    unfold execTlmSample
    rcases h with h | h
    · simp only [h, if_true]
    · simp only [h, ite_self]
  · have hexec : exec (.tlmSample n) s = .next (s.tlmInput n ((vget (s.mc (mi / 64)).latest (mi % 64) Latest.reset).v : Int) false) := by
      refine (?_ : execTlmSample n s = _)
      simp only [execTlmSample, hfresh, hsrc, if_false]
    obtain ⟨hsteps, hothers, hentry⟩ := entered_tlmInput (v := ((vget (s.mc (mi / 64)).latest (mi % 64) Latest.reset).v : Int)) (stale := false) n.isLt hl
    simp only [TlmChain.entry, Prod.mk.injEq, Bool.false_eq_true, if_false] at hentry
    obtain ⟨hat, hcfg, hlast, hcount⟩ := hentry
    refine ⟨_, hexec, ⟨hothers, hat, hcfg, hlast, hcount, fun hwait => ?_⟩, hsteps.only⟩
    rw [State.tlmInput_waits hwait, State.integrated_chain n.isLt]
    exact ⟨rfl, rfl, rfl, rfl, rfl, by simp [State.integrated, State.modChain]⟩
  · have hexec : exec (.tlmSample n) s = .next (s.tlmInput n (tlmEstimate s e code).1 (tlmEstimate s e code).2) := by
      refine (?_ : execTlmSample n s = _)
      have hinstant : (tlmSlow code && s.tn % 64 != 0) = false := by
        cases hs : tlmSlow code with
        | false => rfl
        | true => simp [hslow hs]
      simp only [execTlmSample, hfresh, hsrc, hinstant, if_false, Bool.false_eq_true]
    obtain ⟨hsteps, hothers, hentry⟩ := entered_tlmInput (v := (tlmEstimate s e code).1) (stale := (tlmEstimate s e code).2) n.isLt hl
    simp only [TlmChain.entry, Prod.mk.injEq] at hentry
    obtain ⟨hat, -, hlast, hcount⟩ := hentry
    exact ⟨_, hexec, ⟨hothers, hat, hlast, hcount⟩, hsteps.only⟩
end Sys2Proof.Machine
end

section
/-! The monitor converters: their commands (O27) and their happenings (O28). -/
namespace Sys2Proof.Machine

/-! ### Changes of one converter -/

theorem monIs_modMc {k : Nat} (hk : k < 4) (f : MonConv → MonConv) (s : State) : MonIs k f s (s.modMc k f) :=
  ⟨State.mc_modMc_same _ _ _ hk, fun _ hq => State.mc_modMc_ne _ _ _ _ hq⟩
theorem MonIs.of_mons {k : Nat} {f : MonConv → MonConv} {s s' t t' : State} (h : MonIs k f s t) (hs : s.mons = s'.mons)
    (ht : t'.mons = t.mons) : MonIs k f s' t' := by
  simpa only [MonIs, State.mc, hs, ht] using h
theorem MonIs.trans {k : Nat} {f g : MonConv → MonConv} {s u t : State} (h : MonIs k f s u) (h' : MonIs k g u t) :
    MonIs k (fun m => g (f m)) s t :=
  ⟨by rw [h'.1, h.1], fun q hq => (h'.2 q hq).trans (h.2 q hq)⟩
theorem steps_modMc (k : Nat) (f : MonConv → MonConv) (s : State) : Steps [.mons] s (s.modMc k f) :=
  steps_of_same (fun p hp => by cases p <;> simp [Part.same, State.modMc, State.tile] at hp ⊢) rfl rfl
/-- What a converter does as it takes up what is next. -/
def MonConv.begins (s : State) (m : MonConv) : MonConv := m.begin s.ticks s.tn
theorem State.monNext_eq (k : Nat) (s : State) : s.monNext k = s.modMc k (MonConv.begins s) := rfl
theorem steps_monNext (k : Nat) (s : State) : Steps [.mons] s (s.monNext k) := steps_modMc ..

/-! ### Taking up what is next (R435, R437, R439) -/

/-- Which fields taking up what is next can change. -/
theorem MonConv.begin_keeps (m : MonConv) (now tn : Nat) : ∃ cal stalled injected left longest current next, m.begin now tn = { m with
    cal := cal, stalled := stalled, injected := injected, heldLeft := left, heldLongest := longest, current := current, nextStep := next } := by
  unfold MonConv.begin
  dsimp only
  repeat' split
  all_goals exact ⟨_, _, _, _, _, _, _, rfl⟩
section
variable (m : MonConv) (now tn : Nat)
theorem MonConv.begin_run : (m.begin now tn).run = m.run := by obtain ⟨_, _, _, _, _, _, _, h⟩ := m.begin_keeps now tn; rw [h]
theorem MonConv.begin_startWait : (m.begin now tn).startWait = m.startWait := by obtain ⟨_, _, _, _, _, _, _, h⟩ := m.begin_keeps now tn; rw [h]
theorem MonConv.begin_seq : (m.begin now tn).seq = m.seq := by obtain ⟨_, _, _, _, _, _, _, h⟩ := m.begin_keeps now tn; rw [h]
theorem MonConv.begin_queue : (m.begin now tn).queue = m.queue := by obtain ⟨_, _, _, _, _, _, _, h⟩ := m.begin_keeps now tn; rw [h]
theorem MonConv.begin_hi : (m.begin now tn).hi = m.hi := by obtain ⟨_, _, _, _, _, _, _, h⟩ := m.begin_keeps now tn; rw [h]
theorem MonConv.begin_latest : (m.begin now tn).latest = m.latest := by obtain ⟨_, _, _, _, _, _, _, h⟩ := m.begin_keeps now tn; rw [h]
theorem MonConv.begin_calOffset : (m.begin now tn).calOffset = m.calOffset := by obtain ⟨_, _, _, _, _, _, _, h⟩ := m.begin_keeps now tn; rw [h]
theorem MonConv.begin_calGain : (m.begin now tn).calGain = m.calGain := by obtain ⟨_, _, _, _, _, _, _, h⟩ := m.begin_keeps now tn; rw [h]
theorem MonConv.begin_calValid : (m.begin now tn).calValid = m.calValid := by obtain ⟨_, _, _, _, _, _, _, h⟩ := m.begin_keeps now tn; rw [h]
theorem MonConv.begin_heldCount : (m.begin now tn).heldCount = m.heldCount := by obtain ⟨_, _, _, _, _, _, _, h⟩ := m.begin_keeps now tn; rw [h]
theorem MonConv.begin_heldTold : (m.begin now tn).heldTold = m.heldTold := by obtain ⟨_, _, _, _, _, _, _, h⟩ := m.begin_keeps now tn; rw [h]
end
/-- An idle converter with room takes up the oldest injected request. -/
theorem MonConv.begin_inject {m : MonConv} {i : Inject} {rest : List Inject} (now tn : Nat) (hcurrent : m.current = none) (hcal : m.cal = .none)
    (hinjected : m.injected = i :: rest) (hroom : m.queue.length < 512) : m.begin now tn = { m with
      injected := rest, stalled := false
      heldLeft := m.heldLeft - b2n i.delayed
      heldLongest := if i.delayed then max m.heldLongest (now - i.asked) else m.heldLongest
      current := some { input := i.input, step := none, toQueue := true, delayed := i.delayed, startTn := tn, ends := false
                        corr := vget m.corr i.input (0, 16384) } } := by
  have hnone : (MonCal.none == MonCal.waiting && !(i :: rest).any (fun i => !i.held)) = false := rfl
  unfold MonConv.begin
  simp only [hcurrent, hcal, hinjected, hroom, Option.isSome_none, Bool.false_eq_true, if_false, decide_true, if_true, hnone]
theorem MonConv.begin_cal_none {m : MonConv} (now tn : Nat) (h : m.cal = .none) : (m.begin now tn).cal = .none := by
  unfold MonConv.begin
  simp only [h]
  repeat' split
  all_goals simp_all
/-- A calibration that waits goes on waiting, or begins; with nothing before it it begins. -/
theorem MonConv.begin_cal_waiting {m : MonConv} (now tn : Nat) (h : m.cal = .waiting) :
    ((m.begin now tn).cal = .waiting ∨ (m.begin now tn).cal = .running now)
    ∧ (m.current = none → m.injected = [] → (m.begin now tn).cal = .running now) := by
  by_cases hcurrent : m.current.isSome = true
  · have hbegin : m.begin now tn = m := by unfold MonConv.begin; rw [if_pos hcurrent]
    rw [hbegin]
    exact ⟨.inl h, fun hnone => by simp [hnone] at hcurrent⟩
  refine ⟨?_, fun _ hnone => ?_⟩
  · unfold MonConv.begin
    rw [if_neg hcurrent]
    simp only [h]
    repeat' split
    all_goals simp
  · unfold MonConv.begin
    rw [if_neg hcurrent]
    simp only [h, hnone]
    rfl

/-! ### The commands -/

/-- A command that changes its converter at once. -/
theorem does_mon {sp : OpSpec} {f : Cmd → State → State × List Word} {g : MonConv → MonConv} {c : Cmd} {s v : State} (h : Ready sp c s = true)
    (htarget : sp.target = tgtMon) (heff : sp.eff = .now f) (haccept : sp.onAccept = fun _ s => s) (hf : f c (s.atParse sp.code c) = (v, []))
    (hv : Steps [.mons] (s.atParse sp.code c) v) (hg : cIdx c < 4 → MonIs (cIdx c) g (s.atParse sp.code c) v) :
    Does sp.code c [] [.mons] (MonIs (cIdx c) g s) s (runOp sp c s) := by
  refine does_steps (v := v) h heff haccept hf hv (by decide) (fun t ht => ?_)
  exact (hg (ready_kind sp c s 6 4 h htarget)).of_mons (State.atParse_mons ..) (ht.only .mons (by decide))
/-- A change of its converter alone takes effect. -/
theorem takesEffect_mon {op : Nat} {f : Cmd → State → State} {g : MonConv → MonConv} {c : Cmd} (s : State) (hb : boundaryEffect op = f)
    (hk : cIdx c < 4) (hf : f c s.disarmed = s.disarmed.modMc (cIdx c) g) : TakesEffect op c [.mons] (MonIs (cIdx c) g s) s := by
  refine takesEffect_steps hb (hf ▸ steps_modMc ..) (by decide) (fun t ht => ?_)
  rw [hf] at ht
  exact (monIs_modMc hk g s.disarmed).of_mons rfl (ht.only .mons (by decide))
/-- The converter with the step list of MON_SEQ_SET. -/
def MonConv.listed (c : Cmd) (m : MonConv) : MonConv := { m with seq := (List.range (cw c 1)).map (seqOctet c), nextStep := 0 }
/-- The converter with a sequence that starts from step 0. -/
def MonConv.sequenced (c : Cmd) (m : MonConv) : MonConv :=
  { m with run := some (cw c 1 == 1), nextStep := 0, current := m.current.map (fun x => { x with ends := false }) }
/-- The converter with a start that waits for the end of calibration. -/
def MonConv.startWaits (c : Cmd) (m : MonConv) : MonConv := { m with startWait := some (cw c 1 == 1) }
/-- The converter with no sequence and no start that waits. -/
def MonConv.stopped (m : MonConv) : MonConv := { m with run := none, startWait := none }
/-- The converter with the request of MON_INJECT at the end of its list. -/
def MonConv.requested (c : Cmd) (ticks : Nat) (m : MonConv) : MonConv :=
  { m with injected := m.injected ++ [{ input := cw c 1, held := m.cal != .none, delayed := false, asked := ticks }] }
/-- The converter whose calibration waits for earlier work. -/
def MonConv.calWaits (m : MonConv) : MonConv := { m with cal := .waiting }
/-- The converter with new factors of one input. -/
def MonConv.corrected (c : Cmd) (m : MonConv) : MonConv := { m with corr := vmod m.corr (cw c 1) (fun _ => (cz c 2, cw c 3)) }
/-- The converter with a test DAC code that settles. -/
def MonConv.dacSettles (c : Cmd) (ticks : Nat) (m : MonConv) : MonConv := { m with testDacNext := some (cw c 1, ticks) }

theorem monNext_modMc {k : Nat} (hk : k < 4) (f : MonConv → MonConv) (s : State) :
    MonIs k (fun m => (f m).begin s.ticks s.tn) s ((s.modMc k f).monNext k) :=
  (monIs_modMc hk f s).trans (monIs_modMc hk (MonConv.begins (s.modMc k f)) _)
theorem steps_modMc_monNext (k : Nat) (f : MonConv → MonConv) (s : State) : Steps [.mons] s ((s.modMc k f).monNext k) :=
  (steps_modMc k f s).trans (steps_monNext k _)
section
variable {c : Cmd} {s : State}
theorem seqStart_waits {since : Nat} (hk : cIdx c < 4) (h : (s.mc (cIdx c)).cal = .running since) :
    TakesEffect 0x602 c [.mons] (MonIs (cIdx c) (MonConv.startWaits c) s) s := by
  refine takesEffect_mon s (boundaryEffect_of_row opTable_MonSeqStart rfl (by decide) (by decide)) hk ?_
  have hcal : (s.disarmed.mc (cIdx c)).cal = .running since := h
  unfold applySeqStart
  simp only [hcal]
  rfl
theorem seqStart_runs (hk : cIdx c < 4) (h : ∀ since, (s.mc (cIdx c)).cal ≠ .running since) :
    TakesEffect 0x602 c [.mons] (MonIs (cIdx c) (fun m => (m.sequenced c).begin s.ticks s.tn) s) s := by
  have hstart : applySeqStart c s.disarmed = (s.disarmed.modMc (cIdx c) (MonConv.sequenced c)).monNext (cIdx c) := by
    have hcal : ∀ since, (s.disarmed.mc (cIdx c)).cal ≠ .running since := h
    unfold applySeqStart
    dsimp only
    split
    case h_1 since hrun => exact absurd hrun (hcal since)
    case h_2 => rfl
  refine takesEffect_steps (boundaryEffect_of_row opTable_MonSeqStart rfl (by decide) (by decide)) (hstart ▸ steps_modMc_monNext ..) (by decide)
    (fun t ht => ?_)
  rw [hstart] at ht
  exact (monNext_modMc hk (MonConv.sequenced c) s.disarmed).of_mons rfl (ht.only .mons (by decide))
/-- The starts that are due at the next boundary are superseded. -/
def State.startsDropped (c : Cmd) (s : State) : State :=
  s.cancelArmed (fun a => a.key.cls == 0x602 && a.key.index == cIdx c && a.due == s.tn + 1) .superseded c.tag.val
theorem steps_startsDropped (c : Cmd) (s : State) : Steps (.armed :: finalParts) s (s.startsDropped c) :=
  (acts_cancelArmed 0 ..).steps_of_engines (State.cancelArmed_engines ..)
theorem State.startsDropped_armed (c : Cmd) (s : State) : ∀ a ∈ (s.startsDropped c).proto.armed,
    ¬(a.key.cls = 0x602 ∧ a.key.index = cIdx c ∧ a.due = s.tn + 1) := by
  intro a ha hdue
  rw [State.startsDropped, State.cancelArmed_proto_armed, List.mem_filter] at ha
  obtain ⟨hcls, hidx, hat⟩ := hdue
  simp [hcls, hidx, hat] at ha
theorem monSeqStop_does (h : Ready specMonSeqStop c s = true) : Does 0x603 c [] [.mons, .armed] (fun t =>
    MonIs (cIdx c) (fun m => m.stopped.begin s.ticks s.tn) s t
      ∧ ∀ a ∈ t.proto.armed, ¬(a.key.cls = 0x602 ∧ a.key.index = cIdx c ∧ a.due = s.tn + 1)) s (exec (.monSeqStop c) s) := by
  refine (?_ : Does _ _ _ _ _ _ (runOp specMonSeqStop c s))
  have hdrop := steps_startsDropped c (s.atParse 0x603 c)
  have hstop := monNext_modMc (ready_kind specMonSeqStop c s 6 4 h rfl) MonConv.stopped ((s.atParse 0x603 c).startsDropped c)
  have hstopped := steps_modMc_monNext (cIdx c) MonConv.stopped ((s.atParse 0x603 c).startsDropped c)
  have hnone := State.startsDropped_armed c (s.atParse 0x603 c)
  rw [State.atParse_tn] at hnone
  rw [hdrop.tn, hdrop.only .ticks (by decide), State.atParse_tn, State.atParse_ticks] at hstop
  refine Does.frame (l := .mons :: .armed :: finalParts) (does_steps h rfl rfl rfl ((hdrop.mono (by decide)).trans (hstopped.mono (by decide)))
    (by decide) (fun t ht => ⟨?_, ?_⟩)) (by decide)
  · exact hstop.of_mons ((hdrop.only .mons (by decide)).trans (State.atParse_mons ..)) (ht.only .mons (by decide))
  · have harmed : t.proto.armed = ((s.atParse 0x603 c).startsDropped c).proto.armed :=
      (ht.only .armed (by decide)).trans (hstopped.only .armed (by decide))
    rwa [harmed]
theorem monInject_does (h : Ready specMonInject c s = true) : Does 0x604 c [] [.mons]
    (MonIs (cIdx c) (fun m => (m.requested c s.ticks).begin s.ticks s.tn) s) s (exec (.monInject c) s) := by
  refine does_mon (v := ((s.atParse 0x604 c).modMc (cIdx c) (MonConv.requested c (s.atParse 0x604 c).ticks)).monNext (cIdx c)) h rfl rfl rfl rfl
    (steps_modMc_monNext ..) (fun hk => ?_)
  have hnext := monNext_modMc hk (MonConv.requested c (s.atParse 0x604 c).ticks) (s.atParse 0x604 c)
  rw [State.atParse_tn, show (s.atParse 0x604 c).ticks = s.ticks from State.atParse_ticks ..] at hnext
  rw [State.atParse_ticks]
  exact hnext
theorem monInject_idle (h : Ready specMonInject c s = true) (hcurrent : (s.mc (cIdx c)).current = none) (hcal : (s.mc (cIdx c)).cal = .none)
    (hnone : (s.mc (cIdx c)).injected = []) (hroom : (s.mc (cIdx c)).queue.length < 512) : Completes (exec (.monInject c) s) (fun t =>
      (t.mc (cIdx c)).current = some { input := cw c 1, step := none, toQueue := true, delayed := false, startTn := s.tn, ends := false
                                       corr := vget (s.mc (cIdx c)).corr (cw c 1) (0, 16384) }
        ∧ (t.mc (cIdx c)).injected = []) := by
  obtain ⟨t, hexec, ⟨hmon, -⟩, -⟩ := monInject_does h
  have hlist : ((s.mc (cIdx c)).requested c s.ticks).injected = [{ input := cw c 1, held := false, delayed := false, asked := s.ticks }] := by
    simp only [MonConv.requested, hnone, hcal, bne_self_eq_false, List.nil_append]
  have hbegin : ((s.mc (cIdx c)).requested c s.ticks).begin s.ticks s.tn = _ := MonConv.begin_inject s.ticks s.tn hcurrent hcal hlist hroom
  refine ⟨t, hexec, ?_⟩
  dsimp only
  rw [hmon]
  dsimp only
  rw [hbegin]
  exact ⟨rfl, rfl⟩
theorem monCal_begins (h : Ready specMonCal c s = true) : Begins 0x600 c [.mons] (fun t =>
    ((t.mc (cIdx c)).cal = .waiting ∨ (t.mc (cIdx c)).cal = .running s.ticks)
      ∧ ((s.mc (cIdx c)).current = none → (s.mc (cIdx c)).injected = [] → (t.mc (cIdx c)).cal = .running s.ticks)
      ∧ ∀ q, q ≠ cIdx c → t.mc q = s.mc q) s (exec (.monCal c) s) := by
  refine begins_long specMonCal _ _ _ c s h rfl rfl (fun j u hc ht hu hA => ⟨?_, ?_⟩)
  · have hmons : (u.startJob j).mons = s.mons := hu .mons (by decide)
    have hmc : ∀ q, (u.startJob j).mc q = s.mc q := fun q => by rw [State.mc, State.mc, hmons]
    have hticks : (u.startJob j).ticks = s.ticks := hu .ticks (by decide)
    obtain ⟨hmon, hothers⟩ := monNext_modMc (ready_kind specMonCal c s 6 4 h rfl) MonConv.calWaits (u.startJob j)
    rw [hmc, hticks] at hmon
    obtain ⟨hcal, hidle⟩ := MonConv.begin_cal_waiting (m := (s.mc (cIdx c)).calWaits) s.ticks (u.startJob j).tn rfl
    have hmon : ((u.startJob j).modMc (cIdx c) MonConv.calWaits |>.monNext (cIdx c)).mc (cIdx c)
        = (s.mc (cIdx c)).calWaits.begin s.ticks (u.startJob j).tn := hmon
    rw [← hmon] at hcal hidle
    exact ⟨hcal, hidle, fun q hq => (hothers q hq).trans (hmc q)⟩
  · exact begun_of_steps hc ht hu hA (l := [.jobs, .mons]) (((steps_startJob j u).mono (by decide)).trans
      ((steps_modMc_monNext (cIdx c) MonConv.calWaits _).mono (by decide))) (mem_startJob j u) (by decide)
theorem monCorrSet_does (h : Ready specMonCorrSet c s = true) : Does 0x605 c [] [.mons] (fun t =>
    MonIs (cIdx c) (fun m => { m with corr := (t.mc (cIdx c)).corr }) s t
      ∧ vget (t.mc (cIdx c)).corr (cw c 1) (0, 0) = (cz c 2, cw c 3)
      ∧ ∀ i, i ≠ cw c 1 → vget (t.mc (cIdx c)).corr i (0, 0) = vget (s.mc (cIdx c)).corr i (0, 0)) s (exec (.monCorrSet c) s) := by
  obtain ⟨t, hexec, ⟨hmon, hothers⟩, hrest⟩ : Does 0x605 c [] [.mons] (MonIs (cIdx c) (MonConv.corrected c) s) s (exec (.monCorrSet c) s) :=
    does_mon h rfl rfl rfl rfl (steps_modMc ..) (fun hk => monIs_modMc hk ..)
  have hinput : cw c 1 < 64 := by
    have hrange := ready_ranges specMonCorrSet c s h (rngU 1 0 63) (List.mem_cons_self ..)
    simp only [rngU, Bool.and_eq_true, decide_eq_true_eq] at hrange
    omega
  refine ⟨t, hexec, ⟨⟨?_, hothers⟩, ?_, fun i hi => ?_⟩, hrest⟩
  · rw [hmon]
    rfl
  · rw [hmon]
    exact vget_vmod_same _ _ _ _ hinput
  · rw [hmon]
    exact vget_vmod_ne _ _ _ _ _ hi
end

/-- Settles O27: each command's change of its converter, followed by what the converter takes up. -/
theorem monitorCommands : Obligations.MonitorCommands := by
  unfold Obligations.MonitorCommands
  refine fun c s => ⟨fun h => ?_, fun h => arms_boundary specMonSeqStart _ _ c s h rfl rfl, fun hk => ⟨fun since h => seqStart_waits hk h,
    fun h => seqStart_runs hk h⟩, fun h => ?_, monInject_does, monInject_idle, monCal_begins, monCorrSet_does, fun h => ?_⟩
  · exact does_mon (g := MonConv.listed c) h rfl rfl rfl rfl (steps_modMc ..) (fun hk => monIs_modMc hk ..)
  · obtain ⟨t, hexec, ⟨⟨hmon, hothers⟩, harmed⟩, hrest⟩ := monSeqStop_does h
    refine ⟨t, hexec, ⟨?_, ?_, ?_, ?_, ?_, harmed, hothers⟩, hrest⟩ <;> rw [hmon]
    · exact MonConv.begin_run ..
    · exact MonConv.begin_startWait ..
    · exact MonConv.begin_seq ..
    · exact MonConv.begin_queue ..
    · exact MonConv.begin_latest ..
  · refine does_mon (v := (s.atParse 0x606 c).modMc (cIdx c) (MonConv.dacSettles c (s.atParse 0x606 c).ticks)) h rfl rfl rfl rfl (steps_modMc ..)
      (fun hk => ?_)
    rw [State.atParse_ticks]
    exact monIs_modMc hk (MonConv.dacSettles c s.ticks) _

/-! ### Happenings: what each brings to its converter -/

theorem Ended.of_steps {j : Job} {st : Status} {d tn : Nat} {ws : List Word} {l : List Part} {s t : State} (h : Ended j st d tn ws s)
    (ht : Steps l s t) (hl : Part.jobs ∉ l := by decide) : Ended j st d tn ws t := by
  have hjobs : t.proto.jobs = s.proto.jobs := ht.only .jobs hl
  exact ⟨by rw [hjobs]; exact h.1, fun hsrc => (h.2 hsrc).imp_right (Or.imp_right (ht.told.posted _ _ hsrc))⟩
section
variable {k : Nat} (hk : k < 4) (s : State)
include hk
/-- Taking up what is next: the last request that calibration held is told as it starts. -/
theorem monNextTold_next : MonIs k (fun m => m.begin s.ticks s.tn) s (s.monNextTold k) ∧ Steps (.mons :: eventParts) s (s.monNextTold k)
    ∧ ((s.mc k).heldLeft ≠ 0 → ((s.mc k).begin s.ticks s.tn).heldLeft = 0 → Raised .monInjectDelayed .monConv k
        (w1 ((s.monNextTold k).mc k).heldCount ++ w1 ((s.monNextTold k).mc k).longestDelay) s.tn (s.monNextTold k)) := by
  have hnext : MonIs k (fun m => m.begin s.ticks s.tn) s (s.monNext k) := monIs_modMc hk (MonConv.begins s) s
  have hsteps : Steps (.mons :: eventParts) s (s.monNext k) := (steps_monNext k s).mono (by simp)
  have hleft : ((s.monNext k).mc k).heldLeft = ((s.mc k).begin s.ticks s.tn).heldLeft := congrArg MonConv.heldLeft hnext.1
  unfold State.monNextTold
  dsimp only
  split
  case isTrue htold =>
    have hmons : ∀ ws, ((s.monNext k).raise .monInjectDelayed .monConv k ws).mons = (s.monNext k).mons := fun ws => State.raise_mons ..
    refine ⟨hnext.of_mons rfl (hmons _), hsteps.trans ((steps_raise ..).mono (by decide)), fun _ _ => ?_⟩
    rw [State.mc, hmons]
    exact raised_raise_tn hsteps.tn
  case isFalse hquiet =>
    refine ⟨hnext, hsteps, fun h1 h0 => absurd ?_ hquiet⟩
    rw [hleft, h0]
    simpa using h1
theorem monPush_pushed (item : Nat) : Steps (.mons :: eventParts) s (s.monPush k item)
    ∧ ∃ w, MonIs k (fun m => { m with queue := m.queue ++ [item], wm := w }) s (s.monPush k item) := by
  have hsteps : ∀ w, Steps (.mons :: eventParts) s (s.modMc k (fun m => { m with queue := m.queue ++ [item], wm := w })) :=
    fun w => (steps_modMc ..).mono (by simp)
  unfold State.monPush
  dsimp only
  split
  · have hcross : ∀ q w u, Steps eventParts u (State.resultCrossed q w u) := steps_resultCrossed
    exact ⟨(hsteps _).trans ((hcross ..).mono (by decide)), _, (monIs_modMc hk _ s).of_mons rfl ((hcross ..).only .mons (by decide))⟩
  · exact ⟨hsteps _, _, monIs_modMc hk _ s⟩
theorem monPush_if (b : Bool) (item : Nat) : Steps (.mons :: eventParts) s (if b = true then s.monPush k item else s)
    ∧ ∃ w, MonIs k (fun m => { m with queue := m.queue ++ (if b = true then [item] else []), wm := w }) s (if b = true then s.monPush k item else s) := by
  cases b with
  | true => exact monPush_pushed hk s item
  | false => exact ⟨.refl .., (s.mc k).wm, by simp, fun _ _ => rfl⟩
end
theorem monCorrect_le (m : MonConv) (h : Int × Nat) (c : Nat) : (monCorrect m h c).1 ≤ 65535 := by
  unfold monCorrect
  dsimp only
  repeat' split
  · exact Nat.zero_le _
  · exact Nat.le_refl _
  · omega
theorem monCorrect_within {m : MonConv} {h : Int × Nat} {c : Nat} {v : Int}
    (hv : v = roundDiv (((16 * (c : Int) - m.calOffset) * m.calGain - 32768 * h.1) * h.2) (32768 * 16384)) (h0 : 0 ≤ v) (h1 : v ≤ 65535) :
    monCorrect m h c = (v.toNat, c == 0 || c == 4095) := by
  unfold monCorrect
  simp only [← hv]
  rw [if_neg (by omega), if_neg (by omega)]
/-- What a conversion gives: the corrected code, of the sensor of a fenced tile nothing. -/
def State.converted (k code : Nat) (x : Conversion) (s : State) : Nat × Bool :=
  if sensorFenced s k x.input then (0, true) else monCorrect (s.mc k) x.corr code
/-- Whether a result is held to the band of the test DAC (R433). -/
def MonConv.judges (x : Conversion) (m : MonConv) : Bool := x.input == 56 && m.calValid && decide (x.corr = (0, 16384)) && m.testDacNext.isNone
/-- The converter whose conversion has completed. -/
def MonConv.completed (x : Conversion) (r : Nat × Bool) (judged : Bool) (ticks : Nat) (m : MonConv) : MonConv :=
  { m with
    pathFault := if judged then !testDacHealthy m.testDac r.1 else m.pathFault
    current := none, run := if x.ends then none else m.run, latest := vmod m.latest x.input (fun _ =>
      { v := r.1, overrange := r.2, tn16 := x.startTn % 65536, doneAt := some ticks }) }
/-- A conversion's completion: its converter stores, queues where asked, and takes up what is next. -/
theorem monConversionDone_runs (k : Fin 4) (code : Fin 4096) {x : Conversion} {s : State} (h : (s.mc k).current = some x) :
    Happens (.mons :: eventParts) (fun t => ∃ judged w, MonIs k (fun m => MonConv.begin { m.completed x (s.converted k code x) judged s.ticks with
          queue := m.queue ++ (if x.toQueue = true then [monItem k (s.mc k) x (s.converted k code x).1 (s.converted k code x).2] else []), wm := w }
        s.ticks s.tn) s t
      ∧ ((s.mc k).heldLeft ≠ 0 → ((t.mc k).heldLeft = 0) →
        Raised .monInjectDelayed .monConv k (w1 (t.mc k).heldCount ++ w1 (t.mc k).longestDelay) s.tn t)) s (exec (.monConversionDone k code) s) := by
  obtain ⟨judged, hexec⟩ : ∃ judged, exec (.monConversionDone k code) s = .next (State.monNextTold k
      (if x.toQueue = true then (s.modMc k (MonConv.completed x (s.converted k code x) judged s.ticks)).monPush k
          (monItem k (s.mc k) x (s.converted k code x).1 (s.converted k code x).2)
        else s.modMc k (MonConv.completed x (s.converted k code x) judged s.ticks))) := by
    refine ⟨(s.mc k).judges x, (?_ : execMonConversionDone k code s = _)⟩
    unfold execMonConversionDone
    simp only [h]
    rfl
  generalize hu : s.modMc k (MonConv.completed x (s.converted k code x) judged s.ticks) = u at hexec
  have hstored : MonIs k (MonConv.completed x (s.converted k code x) judged s.ticks) s u := hu ▸ monIs_modMc k.isLt _ s
  have hsteps : Steps (.mons :: eventParts) s u := hu ▸ (steps_modMc ..).mono (by simp)
  obtain ⟨hpushSteps, w, hpush⟩ := monPush_if k.isLt u x.toQueue (monItem k (s.mc k) x (s.converted k code x).1 (s.converted k code x).2)
  generalize (if x.toQueue = true then u.monPush k _ else u) = v at hexec hpushSteps hpush
  obtain ⟨hnext, hnextSteps, htold⟩ := monNextTold_next k.isLt v
  have hsv := hsteps.trans hpushSteps
  rw [hsv.tn, hsv.only .ticks (by decide)] at hnext htold
  have hleft : (v.mc k).heldLeft = (s.mc k).heldLeft := by rw [hpush.1, hstored.1]; rfl
  refine ⟨_, hexec, ⟨judged, w, (hstored.trans hpush).trans hnext, fun h1 h0 => htold (by rwa [hleft]) ?_⟩, (hsv.trans hnextSteps).only⟩
  rwa [hnext.1] at h0

/-- The converter whose calibration has ended with these factors. -/
def MonConv.calEnded (offset : Int) (gain longest : Nat) (pass : Bool) (m : MonConv) : MonConv :=
  { m with
    cal := .none
    calValid := m.calValid || pass, calOffset := if pass then offset else m.calOffset
    calGain := if pass then gain else m.calGain
    run := m.startWait.orElse (fun _ => m.run), nextStep := if m.startWait.isSome then 0 else m.nextStep
    startWait := none
    injected := m.injected.map Inject.freed
    heldCount := (m.injected.filter (·.held)).length, heldLeft := (m.injected.filter (·.held)).length
    heldLongest := 0, heldTold := longest }
/-- The factors of a calibration lie within their bounds (R439). -/
def calPasses (offset : Int) (gain : Nat) : Bool := decide (offset.natAbs ≤ 1024) && decide (29491 ≤ gain) && decide (gain ≤ 36045)
/-- A running MON_CAL of converter `k`. -/
def calJob (k : Nat) (j : Job) : Bool := j.ticket.opcode == 0x600 && cIdx j.cmd == k
/-- The status and DETAIL a calibration's command ends with. -/
def calStatus (pass : Bool) : Status × Nat := if pass then (.ok, 0) else (.cancelled, 0x600)
/-- A calibration's end: factors kept or stored, the command ended, the end told, and what waited taken up. -/
theorem monCalComplete_runs (k : Fin 4) (offset : Int) (gain longest : Nat) {since : Nat} {s : State} (h : (s.mc k).cal = .running since)
    (hdue : since + 1500 ≤ s.ticks) : Happens (.mons :: .jobs :: .responses :: eventParts) (fun t =>
      MonIs k (fun m => (m.calEnded offset gain longest (calPasses offset gain)).begin s.ticks s.tn) s t
      ∧ Raised .monCalDone .monConv k (w1 (b2n (!calPasses offset gain)) ++ wi offset ++ w1 gain) s.tn t
      ∧ (∀ j ∈ s.proto.jobs, j.ticket.opcode = 0x600 → cIdx j.cmd = k →
          Ended j (calStatus (calPasses offset gain)).1 (calStatus (calPasses offset gain)).2 s.tn [] t)
      ∧ (((s.mc k).injected.filter (·.held)).length ≠ 0 → (t.mc k).heldLeft = 0 →
        Raised .monInjectDelayed .monConv k (w1 (t.mc k).heldCount ++ w1 (t.mc k).longestDelay) s.tn t)) s
      (exec (.monCalComplete k offset gain longest) s) := by
  have hexec : exec (.monCalComplete k offset gain longest) s = .next (State.monNextTold k
      (((s.modMc k (MonConv.calEnded offset gain longest (calPasses offset gain))).finishJobs (calJob k) (calStatus (calPasses offset gain)).1
        (calStatus (calPasses offset gain)).2 []).raise .monCalDone .monConv k (w1 (b2n (!calPasses offset gain)) ++ wi offset ++ w1 gain))) := by
    refine (?_ : execMonCalComplete k offset gain longest s = _)
    unfold execMonCalComplete
    simp only [h, if_pos hdue]
    rw [show (decide (offset.natAbs ≤ 1024) && decide (29491 ≤ gain) && decide (gain ≤ 36045)) = calPasses offset gain from rfl]
    cases calPasses offset gain <;> rfl
  have hstored := monIs_modMc k.isLt (MonConv.calEnded offset gain longest (calPasses offset gain)) s
  have hstoredSteps := steps_modMc k (MonConv.calEnded offset gain longest (calPasses offset gain)) s
  generalize s.modMc k (MonConv.calEnded offset gain longest (calPasses offset gain)) = u at hexec hstored hstoredSteps
  have hended : ∀ j ∈ s.proto.jobs, j.ticket.opcode = 0x600 → cIdx j.cmd = k → Ended j _ _ u.tn [] _ := fun j hj hop hidx =>
    ended_finishJobs (calStatus (calPasses offset gain)).1 (calStatus (calPasses offset gain)).2 []
      ((hstoredSteps.only .jobs (by decide)).symm ▸ hj) (p := calJob k) (by simp [calJob, hop, hidx])
  have hfinish := steps_finishJobs (calJob k) (calStatus (calPasses offset gain)).1 (calStatus (calPasses offset gain)).2 [] u
  generalize u.finishJobs (calJob k) _ _ [] = v at hexec hended hfinish
  have hraise := steps_raise .monCalDone .monConv k (w1 (b2n (!calPasses offset gain)) ++ wi offset ++ w1 gain) v
  have hraised := raised_raise .monCalDone .monConv k (w1 (b2n (!calPasses offset gain)) ++ wi offset ++ w1 gain) v
  generalize v.raise .monCalDone .monConv k _ = w at hexec hraise hraised
  obtain ⟨hnext, hnextSteps, htold⟩ := monNextTold_next k.isLt w
  have htn : v.tn = s.tn := hfinish.tn.trans hstoredSteps.tn
  have hsw : Steps (.mons :: .jobs :: .responses :: eventParts) s w :=
    ((hstoredSteps.mono (by simp)).trans (hfinish.mono (by decide))).trans (hraise.mono (by decide))
  have hmons : w.mons = u.mons := (hraise.only .mons (by decide)).trans (hfinish.only .mons (by decide))
  have hended' : MonIs k (MonConv.calEnded offset gain longest (calPasses offset gain)) s w := hstored.of_mons rfl hmons
  rw [hsw.tn, hsw.only .ticks (by decide)] at hnext htold
  rw [hstoredSteps.tn] at hended
  rw [htn] at hraised
  refine ⟨_, hexec, ⟨hended'.trans hnext, hnextSteps.told.raised _ _ _ _ _ hraised,
    fun j hj hop hidx => ((hended j hj hop hidx).of_steps hraise).of_steps hnextSteps, fun h1 h0 => htold ?_ ?_⟩,
    (hsw.trans (hnextSteps.mono (by decide))).only⟩
  · rw [hended'.1]
    exact h1
  · rwa [hnext.1] at h0

/-! ### Reads of a result -/

theorem monResultRead_empty (k : Fin 4) {s : State} (hopen : s.mapOpen = true) (h : (s.mc k).queue = []) :
    Happens [.mons, .readWord] (fun t => MonIs k (fun m => { m with hi := 0xFFF00000 }) s t ∧ t.readWord = some 0) s
      (exec (.monResultRead ⟨k.val, by omega⟩) s) := by
  have hk : k.val ≠ 4 := by omega
  have hexec : exec (.monResultRead ⟨k.val, by omega⟩) s
      = .next { (s.modMc k (fun m => { m with hi := 0xFFF00000 })) with readWord := some 0 } := by
    refine (?_ : execMonResultRead _ s = _)
    simp only [execMonResultRead, hopen, hk, h, Bool.not_true, Bool.false_eq_true, if_false]
  refine ⟨_, hexec, ⟨(monIs_modMc k.isLt _ s).of_mons rfl rfl, rfl⟩, fun p hp => ?_⟩
  cases p <;> simp [Part.same, State.modMc, State.tile] at hp ⊢
theorem monResultRead_item (k : Fin 4) {x : Nat} {rest : List Nat} {s : State} (hopen : s.mapOpen = true) (h : (s.mc k).queue = x :: rest) :
    Happens (.mons :: .readWord :: eventParts) (fun t => (t.mc k).queue = rest ∧ (t.mc k).hi = x >>> 32
      ∧ t.readWord = some (BitVec.ofNat 32 x) ∧ ∀ q, q ≠ k.val → t.mc q = s.mc q) s (exec (.monResultRead ⟨k.val, by omega⟩) s) := by
  have hk : k.val ≠ 4 := by omega
  have hexec : exec (.monResultRead ⟨k.val, by omega⟩) s
      = .next { (s.modMc k (fun m => { m with queue := rest, hi := x >>> 32 })).monNextTold k with readWord := some (BitVec.ofNat 32 x) } := by
    refine (?_ : execMonResultRead _ s = _)
    simp only [execMonResultRead, hopen, hk, h, Bool.not_true, Bool.false_eq_true, if_false]
  have htaken := monIs_modMc k.isLt (fun m => { m with queue := rest, hi := x >>> 32 }) s
  obtain ⟨hnext, hnextSteps, -⟩ := monNextTold_next k.isLt (s.modMc k (fun m => { m with queue := rest, hi := x >>> 32 }))
  obtain ⟨hmon, hothers⟩ := htaken.trans hnext
  have hread : ∀ w : State, Only [.readWord] w { w with readWord := some (BitVec.ofNat 32 x) } :=
    fun w p hp => by cases p <;> simp [Part.same, State.tile] at hp ⊢
  refine ⟨_, hexec, ⟨?_, ?_, rfl, hothers⟩, only_trans _ _ s _ _ ((((steps_modMc ..).mono (by simp)).trans hnextSteps).only)
    (only_mono (hread _) (by simp)) (by decide)⟩
  · exact (congrArg MonConv.queue hmon).trans (MonConv.begin_queue ..)
  · exact (congrArg MonConv.hi hmon).trans (MonConv.begin_hi ..)
theorem monTestdacSettle_sets (k : Fin 4) {d t0 : Nat} {s : State} (h : (s.mc k).testDacNext = some (d, t0)) (hdue : t0 + 6 ≤ s.ticks) :
    Happens [.mons] (MonIs k (fun m => { m with testDac := d, testDacNext := none }) s) s (exec (.monTestdacSettle k) s) := by
  have hexec : exec (.monTestdacSettle k) s = .next (s.modMc k (fun m => { m with testDac := d, testDacNext := none })) := by
    refine (?_ : execMonTestdacSettle k s = _)
    simp only [execMonTestdacSettle, h, if_pos hdue]
  exact ⟨_, hexec, monIs_modMc k.isLt _ s, (steps_modMc ..).only⟩
theorem tlmResultRead_empty {s : State} (hopen : s.mapOpen = true) (h : s.tlmq.queue = []) : Happens [.tlmq, .readWord]
    (fun t => t.tlmq = { s.tlmq with hi := 0xFFF00000 } ∧ t.readWord = some 0) s (exec (.monResultRead 4) s) := by
  have hexec : exec (.monResultRead 4) s = .next { s with tlmq := { s.tlmq with hi := 0xFFF00000 }, readWord := some 0 } := by
    refine (?_ : execMonResultRead 4 s = _)
    unfold execMonResultRead
    rw [hopen, if_neg (by decide), if_pos (by decide)]
    simp only [h]
  refine ⟨_, hexec, ⟨rfl, rfl⟩, fun p hp => ?_⟩
  cases p <;> simp [Part.same, State.tile] at hp ⊢
theorem tlmResultRead_item {x : Nat} {rest : List Nat} {s : State} (hopen : s.mapOpen = true) (h : s.tlmq.queue = x :: rest) :
    Happens [.tlmq, .readWord] (fun t => t.tlmq = { s.tlmq with
      queue := rest ++ s.tlmq.waiting.take 1, waiting := s.tlmq.waiting.drop 1, hi := x >>> 32 } ∧ t.readWord = some (BitVec.ofNat 32 x)) s
      (exec (.monResultRead 4) s) := by
  have hexec : exec (.monResultRead 4) s = .next { s with tlmq := { s.tlmq with
      queue := rest ++ s.tlmq.waiting.take 1, waiting := s.tlmq.waiting.drop 1, hi := x >>> 32 }, readWord := some (BitVec.ofNat 32 x) } := by
    refine (?_ : execMonResultRead 4 s = _)
    unfold execMonResultRead
    rw [hopen, if_neg (by decide), if_pos (by decide)]
    simp only [h]
  refine ⟨_, hexec, ⟨rfl, rfl⟩, fun p hp => ?_⟩
  cases p <;> simp [Part.same, State.tile] at hp ⊢

/-! ### What the statement says of each happening -/

/-- What a completed conversion leaves, of its value and of what is taken up after it. -/
theorem monConversionDone_stores (k : Fin 4) (code : Fin 4096) {x : Conversion} {s : State} (h : (s.mc k).current = some x) (hinput : x.input < 64) :
    Happens (.mons :: eventParts) (fun t => (∀ q, q ≠ k.val → t.mc q = s.mc q)
        ∧ (t.mc k).queue = (s.mc k).queue ++ (if x.toQueue then
            [monItem k (s.mc k) x (vget (t.mc k).latest x.input Latest.reset).v (vget (t.mc k).latest x.input Latest.reset).overrange]
            else [])
        ∧ vget (t.mc k).latest x.input Latest.reset
          = { v := (s.converted k code x).1, overrange := (s.converted k code x).2, tn16 := x.startTn % 65536, doneAt := some s.ticks }
        ∧ (∀ i, i ≠ x.input → vget (t.mc k).latest i Latest.reset = vget (s.mc k).latest i Latest.reset)
        ∧ (∀ i, (s.mc k).injected = [i] → i.delayed = true → (s.mc k).heldLeft = 1 → (s.mc k).cal = .none →
            (s.mc k).queue.length + 1 < 512 →
            Raised .monInjectDelayed .monConv k (w1 (s.mc k).heldCount ++ w1 (t.mc k).longestDelay) s.tn t)) s
      (exec (.monConversionDone k code) s) := by
  refine (monConversionDone_runs k code h).imp (fun t ⟨judged, w, ⟨hmon, hothers⟩, htold⟩ => ?_)
  have hlatest : (t.mc k).latest = vmod (s.mc k).latest x.input (fun _ =>
      { v := (s.converted k code x).1, overrange := (s.converted k code x).2, tn16 := x.startTn % 65536, doneAt := some s.ticks }) :=
    (congrArg MonConv.latest hmon).trans (MonConv.begin_latest ..)
  have hvalue : vget (t.mc k).latest x.input Latest.reset = _ := hlatest ▸ vget_vmod_same _ _ _ _ hinput
  refine ⟨hothers, ?_, hvalue, fun i hi => ?_, fun i hi hdelayed hleft hcal hroom => ?_⟩
  · rw [hvalue]
    exact (congrArg MonConv.queue hmon).trans (MonConv.begin_queue ..)
  · rw [hlatest]
    exact vget_vmod_ne _ _ _ _ _ hi
  · have hqueue : ((s.mc k).queue ++ if x.toQueue = true then [monItem k (s.mc k) x (s.converted k code x).1 (s.converted k code x).2] else []).length
        < 512 := by
      rw [List.length_append]
      split <;> simp <;> omega
    have hbegin := MonConv.begin_inject (m := { (s.mc k).completed x (s.converted k code x) judged s.ticks with
          queue := (s.mc k).queue ++ (if x.toQueue = true then [monItem k (s.mc k) x (s.converted k code x).1 (s.converted k code x).2] else []), wm := w })
      s.ticks s.tn rfl hcal hi hqueue
    have hnone : (t.mc k).heldLeft = 0 := by
      rw [hmon]
      refine (congrArg MonConv.heldLeft hbegin).trans (?_ : (s.mc k).heldLeft - b2n i.delayed = 0)
      rw [hleft, hdelayed]
      rfl
    have hcount : (t.mc k).heldCount = (s.mc k).heldCount := (congrArg MonConv.heldCount hmon).trans (MonConv.begin_heldCount ..)
    rw [← hcount]
    exact htold (by omega) hnone
/-- What the end of a calibration leaves, of its factors and of what is taken up after it. -/
theorem monCalComplete_ends (k : Fin 4) (offset : Int) (gain longest : Nat) {since : Nat} {s : State} (h : (s.mc k).cal = .running since)
    (hdue : since + 1500 ≤ s.ticks) : Happens (.mons :: .jobs :: .responses :: eventParts) (fun t => (∀ q, q ≠ k.val → t.mc q = s.mc q)
        ∧ (t.mc k).cal = .none
        ∧ (offset.natAbs ≤ 1024 ∧ 29491 ≤ gain ∧ gain ≤ 36045 → (t.mc k).calOffset = offset ∧ (t.mc k).calGain = gain
            ∧ (t.mc k).calValid = true ∧ Raised .monCalDone .monConv k (w1 0 ++ wi offset ++ w1 gain) s.tn t
            ∧ ∀ j ∈ s.proto.jobs, j.ticket.opcode = 0x600 → cIdx j.cmd = k → Ended j .ok 0 s.tn [] t)
        ∧ (¬(offset.natAbs ≤ 1024 ∧ 29491 ≤ gain ∧ gain ≤ 36045) → (t.mc k).calOffset = (s.mc k).calOffset
            ∧ (t.mc k).calGain = (s.mc k).calGain ∧ (t.mc k).calValid = (s.mc k).calValid
            ∧ Raised .monCalDone .monConv k (w1 1 ++ wi offset ++ w1 gain) s.tn t
            ∧ ∀ j ∈ s.proto.jobs, j.ticket.opcode = 0x600 → cIdx j.cmd = k → Ended j .cancelled 0x600 s.tn [] t)
        ∧ (t.mc k).heldCount = ((s.mc k).injected.filter (·.held)).length ∧ (t.mc k).heldTold = longest
        ∧ (∀ i, (s.mc k).injected = [i] → i.held = true → (s.mc k).current = none → (s.mc k).queue.length < 512 →
            (∃ x, (t.mc k).current = some x ∧ x.input = i.input ∧ x.delayed = true)
            ∧ Raised .monInjectDelayed .monConv k (w1 1 ++ w1 (t.mc k).longestDelay) s.tn t)) s
      (exec (.monCalComplete k offset gain longest) s) := by
  refine (monCalComplete_runs k offset gain longest h hdue).imp (fun t ⟨⟨hmon, hothers⟩, hraised, hended, htold⟩ => ?_)
  have hoffset : (t.mc k).calOffset = if calPasses offset gain then offset else (s.mc k).calOffset :=
    (congrArg MonConv.calOffset hmon).trans (MonConv.begin_calOffset ..)
  have hgain : (t.mc k).calGain = if calPasses offset gain then gain else (s.mc k).calGain :=
    (congrArg MonConv.calGain hmon).trans (MonConv.begin_calGain ..)
  have hvalid : (t.mc k).calValid = ((s.mc k).calValid || calPasses offset gain) := (congrArg MonConv.calValid hmon).trans (MonConv.begin_calValid ..)
  have hcount : (t.mc k).heldCount = ((s.mc k).injected.filter (·.held)).length :=
    (congrArg MonConv.heldCount hmon).trans (MonConv.begin_heldCount ..)
  have hpasses : calPasses offset gain = true ↔ offset.natAbs ≤ 1024 ∧ 29491 ≤ gain ∧ gain ≤ 36045 := by
    simp [calPasses, and_assoc]
  refine ⟨hothers, (congrArg MonConv.cal hmon).trans (MonConv.begin_cal_none _ _ rfl), fun hpass => ?_, fun hfail => ?_, hcount,
    (congrArg MonConv.heldTold hmon).trans (MonConv.begin_heldTold ..), fun i hi hheld hcurrent hroom => ?_⟩
  · rw [hpasses.mpr hpass] at hoffset hgain hvalid hraised hended
    exact ⟨hoffset, hgain, hvalid.trans (Bool.or_true _), hraised, hended⟩
  · rw [Bool.eq_false_iff.mpr (fun hp => hfail (hpasses.mp hp))] at hoffset hgain hvalid hraised hended
    exact ⟨hoffset, hgain, hvalid.trans (Bool.or_false _), hraised, hended⟩
  · have hone : ((s.mc k).injected.filter (·.held)).length = 1 := by simp [hi, hheld]
    have hfreed : ((s.mc k).calEnded offset gain longest (calPasses offset gain)).injected = [i.freed] := by simp [MonConv.calEnded, hi]
    have hdelayed : i.freed.delayed = true := by simp [Inject.freed, hheld]
    have hbegin := MonConv.begin_inject (m := (s.mc k).calEnded offset gain longest (calPasses offset gain)) s.ticks s.tn hcurrent rfl hfreed hroom
    have hmon := hmon.trans hbegin
    refine ⟨⟨_, congrArg MonConv.current hmon, rfl, hdelayed⟩, ?_⟩
    have hleft : (t.mc k).heldLeft = 0 := by
      refine (congrArg MonConv.heldLeft hmon).trans (?_ : ((s.mc k).injected.filter (·.held)).length - b2n i.freed.delayed = 0)
      rw [hone, hdelayed]
      rfl
    have hraised := htold (by rw [hone]; decide) hleft
    rwa [hcount, hone] at hraised

/-- Settles O28: what each happening brings to its converter, value, queue, calibration and what is taken up next. -/
theorem monitorHappenings : Obligations.MonitorHappenings := by
  unfold Obligations.MonitorHappenings
  refine ⟨fun k s => ⟨fun code x hcurrent hinput => ?_, fun d t0 => monTestdacSettle_sets k, fun offset gain longest since => monCalComplete_ends k offset gain longest,
    monResultRead_empty k, fun x rest => monResultRead_item k⟩, fun s => ⟨fun hclosed q => ?_, tlmResultRead_empty, fun x rest => tlmResultRead_item⟩⟩
  · refine (monConversionDone_stores k code hcurrent hinput).imp (fun t ⟨hothers, hqueue, hlatest, hkeeps, htold⟩ => ?_)
    refine ⟨hothers, hqueue, ?_, by rw [hlatest], by rw [hlatest], fun hfenced => ?_, fun hserves v hv h0 h1 => ?_, hkeeps, htold⟩
    · rw [hlatest]
      dsimp only [State.converted]
      split
      · exact Nat.zero_le _
      · exact monCorrect_le ..
    · rw [hlatest, State.converted, if_pos hfenced]
      exact ⟨rfl, rfl⟩
    · rw [hlatest, State.converted, if_neg (by rw [hserves]; decide), monCorrect_within hv h0 h1]
      exact ⟨Int.toNat_of_nonneg h0, rfl⟩
  · refine (?_ : execMonResultRead q s = _)
    unfold execMonResultRead
    rw [hclosed]
    rfl
end Sys2Proof.Machine
end

section
/-! Items that wait in the protocol and interrupts (O50), the SPI target (O51), and the registers of the queues (O49). -/
namespace Sys2Proof.Machine

/-! ### The registers of one queue set -/

/-- Where the indices of a register set stand, and what its control word holds. -/
def QueueRegs.place (r : QueueRegs) : Nat × Nat × Bool × Nat × Bool × Nat := (r.pi, r.ci, r.enable, r.log2, r.intOnItem, r.intHoldoff)
theorem QueueRegs.place_eq {r r' : QueueRegs} : r.place = r'.place
    ↔ r.pi = r'.pi ∧ r.ci = r'.ci ∧ r.enable = r'.enable ∧ r.log2 = r'.log2 ∧ r.intOnItem = r'.intOnItem ∧ r.intHoldoff = r'.intHoldoff := by
  simp [QueueRegs.place]
theorem QueueRegs.pi_of_place {r r' : QueueRegs} (h : r.place = r'.place) : r.pi = r'.pi := (QueueRegs.place_eq.mp h).1
theorem State.qreg_modQreg_of {α : Type} (g : QueueRegs → α) {f : QueueRegs → QueueRegs} (hf : ∀ r, g (f r) = g r) (q j : Nat) (s : State) :
    g ((s.modQreg q f).qreg j) = g (s.qreg j) := vget_vmod_of g _ _ _ _ _ hf
section
variable (q old j : Nat) (s : State)
theorem State.qreg_of_proto {s t : State} (h : t.proto = s.proto) (j : Nat) : t.qreg j = s.qreg j := by rw [State.qreg, State.qreg, h]
theorem State.place_modQreg {f : QueueRegs → QueueRegs} (hf : ∀ r, (f r).place = r.place) : ((s.modQreg q f).qreg j).place = (s.qreg j).place :=
  State.qreg_modQreg_of QueueRegs.place hf q j s
theorem State.place_ite {b : Prop} {_ : Decidable b} {u t : State} (ht : (t.qreg j).place = (s.qreg j).place)
    (hu : (u.qreg j).place = (s.qreg j).place) : ((if b then t else u).qreg j).place = (s.qreg j).place := by
  split
  exacts [ht, hu]
theorem State.place_signalRing : ((s.signalRing q).qreg j).place = (s.qreg j).place := by
  unfold State.signalRing
  split
  · rw [State.place_modQreg, State.qreg_signal]
    exact fun _ => rfl
  · rfl
theorem State.place_wmCross : ((s.wmCross q old).qreg j).place = (s.qreg j).place := by
  unfold State.wmCross
  dsimp only
  refine State.place_ite _ _ ?_ rfl
  rw [State.place_signalRing, State.place_modQreg]
  exact fun _ => rfl
theorem State.place_advanced : ((s.advanced q).qreg j).place = (s.qreg j).place := by
  have hmirror : ((s.modQreg q (fun r => { r with shadowWord := if q < 4 then r.ci else r.pi })).qreg j).place = (s.qreg j).place :=
    State.place_modQreg _ _ _ (fun _ => rfl)
  unfold State.advanced
  dsimp only
  refine State.place_ite _ _ (State.place_ite _ _ ?_ ?_) hmirror
  · rw [State.place_signalRing, hmirror]
  · rw [State.place_modQreg, hmirror]
    exact fun _ => rfl
theorem State.qreg_refreshed : s.refreshAlert.qreg j = s.qreg j := State.qreg_refreshAlert ..
end
/-- A ring's signal starts its hold-off. -/
theorem State.qreg_signalRing {q : Nat} (hq : q < 9) (s : State) :
    (s.signalRing q).qreg q = { s.qreg q with lastSignal := some s.ticks, deferred := false } ∧ ∀ j, j ≠ q → (s.signalRing q).qreg j = s.qreg j := by
  have hvector : ∃ v, ringVector q = some v := by
    unfold ringVector
    split
    · exact ⟨_, rfl⟩
    · split
      · exact ⟨_, rfl⟩
      · exact ⟨_, if_pos (by omega)⟩
  obtain ⟨v, hv⟩ := hvector
  unfold State.signalRing
  simp only [hv]
  refine ⟨?_, fun j hj => ?_⟩
  · rw [State.qreg_modQreg_same _ _ _ (by omega), State.qreg_signal]
  · rw [State.qreg_modQreg_ne _ _ _ _ hj, State.qreg_signal]

/-! ### Frames of the operations of queues -/

theorem steps_modQreg (q : Nat) (f : QueueRegs → QueueRegs) (s : State) : Steps [.queueRegs] s (s.modQreg q f) :=
  ⟨fun p hp => by cases p <;> simp [Part.same] at hp ⊢, keepsTold_of_same rfl ⟨rfl, rfl⟩ rfl rfl ⟨rfl, rfl, rfl, rfl⟩⟩
theorem steps_signalRing (q : Nat) (s : State) : Steps [.queueRegs, .msix] s (s.signalRing q) :=
  ⟨fun p hp => by cases p <;> simp [Part.same] at hp ⊢, keepsTold_of_same (by simp) (by simp [Part.same]) (by simp [Part.same]) (by simp [Part.same])
    (by simp [Part.same])⟩
theorem steps_wmCross (q old : Nat) (s : State) : Steps [.queueRegs, .msix] s (s.wmCross q old) := by
  unfold State.wmCross
  exact steps_ite (((steps_modQreg ..).mono (by simp)).trans (steps_signalRing ..)) (.refl ..)
theorem steps_advanced (q : Nat) (s : State) : Steps [.queueRegs, .msix] s (s.advanced q) := by
  unfold State.advanced
  refine ((steps_modQreg ..).mono (by simp)).trans (steps_ite (steps_ite (steps_signalRing ..) ?_) (.refl ..))
  exact (steps_modQreg ..).mono (by simp)
theorem steps_refreshAlert (s : State) : Steps [.msix, .alertN] s s.refreshAlert :=
  ⟨fun p hp => by cases p <;> simp [Part.same] at hp ⊢, keepsTold_of_same (by simp) (by simp [Part.same]) (by simp [Part.same]) (by simp [Part.same])
    (by simp [Part.same])⟩
/-- What an index of a ring moves. -/
def ringParts : List Part := [.queueRegs, .msix, .alertN]
theorem only_commitResp (n : Nat) (r : Resp) (s : State) : Only (.responses :: ringParts) s (s.commitResp n r) := by
  have hposted : Only [.responses] s (s.modProto (fun p => { p with resp := vmod p.resp n (fun l => l ++ [r]) })) :=
    fun p hp => by cases p <;> simp [Part.same] at hp ⊢
  unfold State.commitResp
  refine only_trans _ _ _ _ _ hposted ((Steps.trans ?_ ((steps_wmCross ..).mono (by decide))).trans ((steps_refreshAlert _).mono (by decide))).only (by simp)
  refine steps_ite (((steps_modQreg ..).mono (by decide)).trans ((steps_advanced ..).mono (by decide))) (.refl ..)

/-! ### Items that are held (R411) -/

section
variable {s : State}
theorem heldResponseCommit_fits (n : Fin 5) {r : Resp} {l : List Resp} (h : vget s.proto.heldResp n [] = r :: l) (hfits : s.respFits n r.size = true) :
    Happens [.responses, .queueRegs, .msix, .alertN] (fun t => vget t.proto.heldResp n [] = l ∧ vget t.proto.resp n [] = vget s.proto.resp n [] ++ [r]
      ∧ ∀ m, m < 5 → m ≠ n.val → vget t.proto.resp m [] = vget s.proto.resp m [] ∧ vget t.proto.heldResp m [] = vget s.proto.heldResp m []) s
      (exec (.heldResponseCommit n) s) := by
  have hexec : exec (.heldResponseCommit n) s
      = .next ((s.modProto (fun p => { p with heldResp := vmod p.heldResp n (fun _ => l) })).commitResp n r) := by
    refine (?_ : execHeldResponseCommit n s = _)
    simp only [execHeldResponseCommit, h, hfits, if_true]
  have hresp := State.commitResp_proto_resp n r (s.modProto (fun p => { p with heldResp := vmod p.heldResp n (fun _ => l) }))
  have hheld := State.commitResp_proto_heldResp n r (s.modProto (fun p => { p with heldResp := vmod p.heldResp n (fun _ => l) }))
  have honly := only_commitResp n r (s.modProto (fun p => { p with heldResp := vmod p.heldResp n (fun _ => l) }))
  refine ⟨_, hexec, ⟨?_, ?_, fun m hm hne => ⟨?_, ?_⟩⟩, only_trans _ _ s _ _ (fun p hp => ?_ : Only [.responses] s _) (only_mono honly (by decide)) (by simp)⟩
  · rw [hheld]
    exact vget_vmod_same _ _ _ _ n.isLt
  · rw [hresp]
    exact vget_vmod_same _ _ _ _ n.isLt
  · rw [hresp]
    exact vget_vmod_ne _ _ _ _ _ hne
  · rw [hheld]
    exact vget_vmod_ne _ _ _ _ _ hne
  · cases p <;> simp [Part.same] at hp ⊢
theorem heldResponseCommit_waits (n : Fin 5) {r : Resp} {l : List Resp} (h : vget s.proto.heldResp n [] = r :: l) (hfull : s.respFits n r.size = false) :
    exec (.heldResponseCommit n) s = .next s := by
  refine (?_ : execHeldResponseCommit n s = _)
  simp only [execHeldResponseCommit, h, hfull, Bool.false_eq_true, if_false]
theorem heldEventEntry_enters {e : EventItem} {l : List EventItem} (h : s.proto.heldEvents = e :: l) (hroom : s.proto.eventQueue.length < 4096)
    (hother : l.any (sameSource e) = false) (hreset : s.proto.mgmtResetArmed = none) :
    Happens [.events, .queueRegs, .msix, .alertN] (fun t => t.proto.heldEvents = l
      ∧ t.proto.eventQueue = enterEvent (s.proto.spiEventRead != 0) e s.proto.eventQueue) s (exec .heldEventEntry s) := by
  have hexec : exec .heldEventEntry s = .next ((s.modProto (fun p => { p with heldEvents := l })).postEvent e) := by
    refine (?_ : execHeldEventEntry s = _)
    simp only [execHeldEventEntry, h, hroom, if_true]
  refine ⟨_, hexec, ?_, fun p hp => ?_⟩
  · unfold State.postEvent
    simp [hreset, hother, hroom]
  · unfold State.postEvent
    simp only [State.modProto_proto, hreset, hother, hroom, Option.isSome_none, Bool.false_eq_true, if_false, if_true]
    cases p <;> simp [Part.same] at hp ⊢
theorem heldEventEntry_waits {e : EventItem} {l : List EventItem} (h : s.proto.heldEvents = e :: l) (hfull : 4096 ≤ s.proto.eventQueue.length) :
    exec .heldEventEntry s = .next s := by
  refine (?_ : execHeldEventEntry s = _)
  simp only [execHeldEventEntry, h, if_neg (Nat.not_lt.mpr hfull)]

/-! ### The event ring (R390, R413) -/

theorem eventRingDrain_moves {e : EventItem} {l : List EventItem} (h : s.proto.eventQueue = e :: l) (hon : (s.qreg 8).enable = true)
    (hup : s.dev.endpointUp = true) (hawake : s.dev.d3hot = false) (hfits : s.fill 8 + e.size < s.capacity 8) :
    Happens [.events, .queueItems, .queueRegs, .msix, .alertN] (fun t => t.proto.eventQueue = l
      ∧ t.proto.eventRing = s.proto.eventRing ++ [e] ∧ t.proto.heldEvents = s.proto.heldEvents
      ∧ (t.qreg 8).pi = ((s.qreg 8).pi + e.size) % 2 ^ (s.qreg 8).log2) s (exec .eventRingDrain s) := by
  have hexec : exec .eventRingDrain s = .next (((((s.modProto (fun p => { p with eventQueue := l, eventRing := p.eventRing ++ [e] })).modQreg 8
      (fun r => { r with pi := (r.pi + e.size) % 2 ^ r.log2 })).advanced 8).wmCross 8 (s.fill 8)).refreshAlert) := by
    refine (?_ : execEventRingDrain s = _)
    have hcond : ((s.qreg 8).enable && s.dev.endpointUp && !s.dev.d3hot && decide (s.fill 8 + e.size < s.capacity 8)) = true := by
      rw [hon, hup, hawake, decide_eq_true hfits]
      rfl
    unfold execEventRingDrain
    simp only [h]
    rw [if_pos hcond]
  have hplace : ∀ u : State, (((((u.modQreg 8 (fun r => { r with pi := (r.pi + e.size) % 2 ^ r.log2 })).advanced 8).wmCross 8 (s.fill 8)).refreshAlert).qreg 8).pi
      = ((u.qreg 8).pi + e.size) % 2 ^ (u.qreg 8).log2 := fun u => by
    have hsame : (((((u.modQreg 8 (fun r => { r with pi := (r.pi + e.size) % 2 ^ r.log2 })).advanced 8).wmCross 8 (s.fill 8)).refreshAlert).qreg 8).place
        = ((u.modQreg 8 (fun r => { r with pi := (r.pi + e.size) % 2 ^ r.log2 })).qreg 8).place := by
      rw [State.qreg_refreshed, State.place_wmCross, State.place_advanced]
    rw [QueueRegs.pi_of_place hsame, State.qreg_modQreg_same _ _ _ (by decide)]
  refine ⟨_, hexec, ⟨by simp, by simp, by simp, hplace _⟩, fun p hp => ?_⟩
  cases p <;> simp [Part.same] at hp ⊢
theorem eventRingDrain_waits {e : EventItem} {l : List EventItem} (h : s.proto.eventQueue = e :: l)
    (hno : (s.qreg 8).enable = false ∨ s.dev.endpointUp = false ∨ s.dev.d3hot = true ∨ s.capacity 8 ≤ s.fill 8 + e.size) :
    exec .eventRingDrain s = .next s := by
  refine (?_ : execEventRingDrain s = _)
  have hcond : ((s.qreg 8).enable && s.dev.endpointUp && !s.dev.d3hot && decide (s.fill 8 + e.size < s.capacity 8)) = false := by
    rcases hno with hno | hno | hno | hno
    · simp [hno]
    · simp [hno]
    · simp [hno]
    · simp [Nat.not_lt.mpr hno]
  simp only [execEventRingDrain, h, hcond, Bool.false_eq_true, if_false]

/-! ### Interrupts (R509, R510) and progress (R428) -/

theorem intHoldoffExpiry_signals (q : Fin 9) (hd : (s.qreg q).deferred = true) (ho : holdoffOver (s.qreg q) s.ticks = true) :
    Happens [.queueRegs, .msix] (fun t => t.qreg q = { s.qreg q with lastSignal := some s.ticks, deferred := false }
      ∧ ∀ j, j ≠ q.val → t.qreg j = s.qreg j) s (exec (.intHoldoffExpiry q) s) := by
  have hexec : exec (.intHoldoffExpiry q) s = .next (s.signalRing q) := by
    refine (?_ : execIntHoldoffExpiry q s = _)
    simp only [execIntHoldoffExpiry, hd, ho, Bool.and_self, if_true]
  exact ⟨_, hexec, State.qreg_signalRing q.isLt s, (steps_signalRing q s).only⟩
theorem intHoldoffExpiry_waits (q : Fin 9) (h : (s.qreg q).deferred = false ∨ holdoffOver (s.qreg q) s.ticks = false) :
    exec (.intHoldoffExpiry q) s = .next s := by
  refine (?_ : execIntHoldoffExpiry q s = _)
  have hcond : ((s.qreg q).deferred && holdoffOver (s.qreg q) s.ticks) = false := by
    rcases h with h | h <;> simp [h]
  simp only [execIntHoldoffExpiry, hcond, Bool.false_eq_true, if_false]
theorem msixUnmask_sends (v : Fin 64) (hopen : s.pathOpen .pcie = true) : Happens [.msix] (fun t =>
    t.dev.msix[v] = { s.dev.msix[v] with masked := false, pendingBit := false, sent := s.dev.msix[v].sent + b2n s.dev.msix[v].pendingBit }
      ∧ ∀ u : Fin 64, u ≠ v → t.dev.msix[u] = s.dev.msix[u]) s (exec (.msixUnmask v) s) := by
  have hexec : exec (.msixUnmask v) s = .next (s.unmask v) := by
    refine (?_ : execMsixUnmask v s = _)
    simp only [execMsixUnmask, hopen, if_true]
  refine ⟨_, hexec, ⟨?_, fun u hu => ?_⟩, fun p hp => ?_⟩
  · simp [State.unmask, State.modDev, vmod]
  · have hne : v.val ≠ u.val := fun h => hu (Fin.ext h.symm)
    simp [State.unmask, State.modDev, vmod, hne]
  · cases p <;> simp [Part.same, State.unmask] at hp ⊢
theorem progress_tells (q : Nat) (f : Fin 257) {j : Job} (h : s.proto.jobs.find? (fun j => j.ticket.seq == q) = some j) :
    Happens (.jobs :: eventParts) (fun t => Raised .progress .device 0 (w1 j.ticket.tag ++ w1 j.ticket.issuer ++ w1 f) s.tn t
      ∧ t.proto.jobs = s.proto.jobs.map (fun x => if x.ticket.seq = q then { x with lastProgress := s.ticks } else x)) s (exec (.progress q f) s) := by
  have hexec : exec (.progress q f) s = .next ((s.modProto (fun p => { p with
      jobs := p.jobs.map (fun x => if x.ticket.seq = q then { x with lastProgress := s.ticks } else x) })).raise .progress .device 0
        (w1 j.ticket.tag ++ w1 j.ticket.issuer ++ w1 f)) := by
    refine (?_ : execProgress q f s = _)
    simp only [execProgress, h]
  refine ⟨_, hexec, ⟨raised_raise_tn rfl, by simp⟩, only_trans [.jobs] _ s _ _ (fun p hp => ?_) (only_mono (steps_raise ..).only (by decide)) (by decide)⟩
  cases p <;> simp [Part.same] at hp ⊢
end

/-- Settles O50: each row moves what waits when its condition holds, and is the identity else. -/
theorem heldItemsAndInterrupts : Obligations.HeldItemsAndInterrupts := by
  unfold Obligations.HeldItemsAndInterrupts
  refine fun s => ⟨fun n r l h => ⟨heldResponseCommit_fits n h, heldResponseCommit_waits n h⟩, fun e l h => ⟨heldEventEntry_enters h, heldEventEntry_waits h⟩,
    fun e l h => ⟨eventRingDrain_moves h, eventRingDrain_waits h⟩, fun q => ⟨intHoldoffExpiry_signals q, intHoldoffExpiry_waits q⟩, msixUnmask_sends,
    fun q f => ⟨fun j => progress_tells q f, fun h => ?_⟩⟩
  refine (?_ : execProgress q f s = _)
  simp only [execProgress, h]

/-! ### Octets clocked out of a window (R518) -/

theorem notValid_length : notValid.length = 8 := rfl
theorem markers_length (n : Nat) : (markers n).length = n := by
  have hlength : ((List.replicate (n / 8 + 1) notValid).flatten).length = (n / 8 + 1) * 8 := by
    rw [List.length_flatten, List.map_replicate, notValid_length, List.sum_replicate_nat]
  rw [markers, List.length_take, hlength]
  omega
section
variable {α : Type} (f : α → List Octet)
theorem clockOut_length (l : List α) (n pos : Nat) : (clockOut f (l.length + 1) n l pos).1.length = n := by
  induction l generalizing n pos with
  | nil => exact markers_length n
  | cons x r ih =>
    rw [List.length_cons, clockOut]
    dsimp only
    split
    · rw [List.length_take]
      omega
    · rw [List.length_append, ih]
      omega
/-- A read of just what is left of the first item clocks out that item. -/
theorem clockOut_item (hf : ∀ x, 0 < (f x).length) (x : α) (r : List α) (pos : Nat) :
    clockOut f ((x :: r).length + 1) ((f x).length - pos) (x :: r) pos = ((f x).drop pos, 1, 0) := by
  have hrest : clockOut f (r.length + 1) 0 r 0 = ([], 0, 0) := by
    cases r with
    | nil => rfl
    | cons y r => rw [List.length_cons, clockOut]; simp [hf y]
  rw [List.length_cons, clockOut]
  simp only [List.length_drop, Nat.lt_irrefl, if_false, Nat.sub_self, hrest, List.append_nil]
end
theorem octetsBE_length (k n : Nat) : (octetsBE k n).length = k := by
  induction k with
  | zero => rfl
  | succ k ih => rw [octetsBE, List.length_cons, ih]
theorem withCheck_pos (bits : Nat) (body : List Octet) (ws : List Word) : 0 < (withCheck bits body ws).length := by
  simp only [withCheck, List.length_append, octetsBE_length]
  omega
theorem Resp.octets_pos (r : Resp) : 0 < r.octets.length := withCheck_pos ..
theorem EventItem.octets_pos (e : EventItem) : 0 < e.octets.length := withCheck_pos ..

/-! ### The response and the event window (R390, R518) -/

section
variable {s : State}
/-- What a read of the response window leaves before ALERT_N follows. -/
def State.respClocked (n : Nat) (last : Bool) (s : State) : State :=
  let y := clockOut Resp.octets ((vget s.proto.resp 4 []).length + 1) n (vget s.proto.resp 4 []) s.proto.spiRespRead
  { s.modProto (fun p => { p with resp := vmod p.resp 4 (fun l => l.drop y.2.1), spiRespRead := if last then 0 else y.2.2 }) with spiReply := y.1 }
/-- What a read of the event window leaves before ALERT_N follows. -/
def State.eventClocked (n : Nat) (last : Bool) (s : State) : State :=
  let l := if (s.qreg 8).enable then [] else s.proto.eventQueue
  let y := clockOut EventItem.octets (l.length + 1) n l s.proto.spiEventRead
  { s.modProto (fun p => { p with eventQueue := p.eventQueue.drop y.2.1, spiEventRead := if last then 0 else y.2.2 }) with spiReply := y.1 }
theorem ite_refreshed {b : Prop} {_ : Decidable b} (u : State) : (if b then u else u.refreshAlert).proto = u.proto
    ∧ (if b then u else u.refreshAlert).spiReply = u.spiReply ∧ Only [.msix, .alertN] u (if b then u else u.refreshAlert) := by
  split
  · exact ⟨rfl, rfl, only_refl _ u⟩
  · exact ⟨State.refreshAlert_proto u, State.refreshAlert_spiReply u, (steps_refreshAlert u).only⟩
theorem spiResponseWindowRead_clocks (n : Nat) (last : Bool) (hio : s.ioHeld = false) (hdead : s.proto.spiDead = false) :
    ∃ t, exec (.spiResponseWindowRead n last) s = .next t ∧ t.proto = (s.respClocked n last).proto ∧ t.spiReply = (s.respClocked n last).spiReply
      ∧ Only [.msix, .alertN] (s.respClocked n last) t := by
  refine ⟨if (clockOut Resp.octets ((vget s.proto.resp 4 []).length + 1) n (vget s.proto.resp 4 []) s.proto.spiRespRead).2.1 = 0 then
    s.respClocked n last else (s.respClocked n last).refreshAlert, (?_ : execSpiResponseWindowRead n last s = _), ite_refreshed _⟩
  unfold execSpiResponseWindowRead
  rw [hio, hdead]
  rfl
theorem spiEventWindowRead_clocks (n : Nat) (last : Bool) (hio : s.ioHeld = false) (hdead : s.proto.spiDead = false) :
    ∃ t, exec (.spiEventWindowRead n last) s = .next t ∧ t.proto = (s.eventClocked n last).proto ∧ t.spiReply = (s.eventClocked n last).spiReply
      ∧ Only [.msix, .alertN] (s.eventClocked n last) t := by
  refine ⟨if (clockOut EventItem.octets ((if (s.qreg 8).enable then [] else s.proto.eventQueue).length + 1) n
    (if (s.qreg 8).enable then [] else s.proto.eventQueue) s.proto.spiEventRead).2.1 = 0 then
    s.eventClocked n last else (s.eventClocked n last).refreshAlert, (?_ : execSpiEventWindowRead n last s = _), ite_refreshed _⟩
  unfold execSpiEventWindowRead
  rw [hio, hdead]
  rfl
theorem respClocked_item (last : Bool) {r : Resp} {l : List Resp} (h : vget s.proto.resp 4 [] = r :: l) :
    (s.respClocked (r.octets.length - s.proto.spiRespRead) last).spiReply = r.octets.drop s.proto.spiRespRead
      ∧ vget (s.respClocked (r.octets.length - s.proto.spiRespRead) last).proto.resp 4 [] = l
      ∧ (s.respClocked (r.octets.length - s.proto.spiRespRead) last).proto.spiRespRead = 0 := by
  unfold State.respClocked
  dsimp only [State.modProto]
  rw [h, clockOut_item _ Resp.octets_pos r l]
  refine ⟨rfl, ?_, ite_self _⟩
  rw [vget_vmod_same _ _ _ _ (by decide), h]
  rfl
theorem eventClocked_item (last : Bool) {x : EventItem} {l : List EventItem} (hoff : (s.qreg 8).enable = false) (h : s.proto.eventQueue = x :: l) :
    (s.eventClocked (x.octets.length - s.proto.spiEventRead) last).spiReply = x.octets.drop s.proto.spiEventRead
      ∧ (s.eventClocked (x.octets.length - s.proto.spiEventRead) last).proto.eventQueue = l
      ∧ (s.eventClocked (x.octets.length - s.proto.spiEventRead) last).proto.spiEventRead = 0 := by
  unfold State.eventClocked
  dsimp only [State.modProto]
  rw [hoff, if_neg (by decide), h, clockOut_item _ EventItem.octets_pos x l]
  exact ⟨rfl, rfl, ite_self _⟩
end

/-! ### The command window (R418) -/

/-- What words of the command window move, the transaction's start and end aside. -/
structure SpiTakes (s t : State) : Prop where
  steps : Steps (.queueItems :: eventParts) s t
  spiOpen : t.proto.spiOpen = s.proto.spiOpen
section
variable {s t u : State}
theorem SpiTakes.refl (s : State) : SpiTakes s s := ⟨.refl .., rfl⟩
theorem SpiTakes.trans (h : SpiTakes s u) (h' : SpiTakes u t) : SpiTakes s t := ⟨h.steps.trans h'.steps, h'.spiOpen.trans h.spiOpen⟩
theorem spiTakes_ite {b : Prop} {_ : Decidable b} (ht : SpiTakes s t) (hu : SpiTakes s u) : SpiTakes s (if b then t else u) := by
  split
  exacts [ht, hu]
theorem SpiTakes.foldl {α : Type} {f : State → α → State} (h : ∀ s a, SpiTakes s (f s a)) (as : List α) (s : State) : SpiTakes s (as.foldl f s) :=
  List.foldlRecOn as f (.refl s) (fun _ hu a _ => hu.trans (h _ a))
/-- A step outside the items of the queues. -/
theorem SpiTakes.of_steps {l : List Part} (h : Steps l s t) (hl : ∀ p ∈ l, p ∈ eventParts) : SpiTakes s t := by
  obtain ⟨-, -, -, -, -, -, -, hopen, -⟩ := h.only .queueItems (fun hm => absurd (hl _ hm) (by decide))
  exact ⟨h.mono (fun p hp => List.mem_cons_of_mem _ (hl p hp)), hopen⟩
end
theorem spiTakes_modCmdq (n : Nat) (f : CmdQueue → CmdQueue) (s : State) : SpiTakes s (s.modCmdq n f) := by
  refine ⟨⟨fun p hp => ?_, keepsTold_of_same rfl ?_ ?_ ?_ ?_⟩, ?_⟩
  · cases p <;> simp [Part.same, State.modCmdq] at hp ⊢ <;> split <;> simp
  all_goals
    unfold State.modCmdq
    dsimp only [State.modProto]
    split <;> simp [Part.same]
theorem spiTakes_setVisible (n : Nat) (l : List CmdItem) (s : State) : SpiTakes s (s.setVisible n l) :=
  ⟨⟨only_mono (only_setVisible n l s) (by simp), keepsTold_of_same (by simp) (by simp [Part.same]) (by simp [Part.same]) (by simp [Part.same])
    (by simp [Part.same])⟩, by simp⟩
theorem spiTakes_rdy (f : State → Bool) (s : State) : SpiTakes s (s.modProto (fun p => { p with mgmtRdy := f s })) :=
  ⟨⟨fun p hp => by cases p <;> simp [Part.same] at hp ⊢, keepsTold_of_same rfl ⟨rfl, rfl⟩ rfl rfl ⟨rfl, rfl, rfl, rfl⟩⟩, rfl⟩
theorem spiTakes_drop (b : Bool) (s : State) : SpiTakes s (s.modProto (fun p => { p with spiDrop := b })) :=
  ⟨⟨fun p hp => by cases p <;> simp [Part.same] at hp ⊢, keepsTold_of_same rfl ⟨rfl, rfl⟩ rfl rfl ⟨rfl, rfl, rfl, rfl⟩⟩, rfl⟩
theorem spiTakes_raiseRdy (s : State) : SpiTakes s s.raiseRdy := spiTakes_rdy (fun s => s.proto.mgmtRdy || decide (s.proto.spi.fill + 64 ≤ 512)) s
theorem steps_count (x : Ctr) (k : Kind) (i n : Nat) (s : State) : Steps [.happened] s (s.count x k i n) := (moves_count ..).steps
theorem steps_rewind (q : Nat) (r : BadReason) (h : Nat) (s : State) : Steps eventParts s (s.rewind q r h) :=
  ((steps_count ..).mono (by decide)).trans (steps_raise ..)
theorem spiTakes_takeVisible (n k : Nat) (s : State) : SpiTakes s (s.takeVisible n k) := by
  unfold State.takeVisible
  refine (spiTakes_setVisible ..).trans (spiTakes_ite ?_ (spiTakes_ite ?_ (.refl _)))
  · exact .of_steps (((steps_modQreg ..).mono (by decide)).trans (steps_advanced ..)) (by decide)
  · exact spiTakes_raiseRdy _
theorem spiTakes_dropBad (n k : Nat) (s : State) : SpiTakes s (s.dropBad n k) := by
  induction k generalizing s with
  | zero => exact .refl s
  | succ k ih =>
    unfold State.dropBad
    split
    · exact .refl s
    · split
      · exact spiTakes_ite (((spiTakes_takeVisible ..).trans (.of_steps (steps_rewind ..) (by simp))).trans (ih _)) (.refl s)
      · exact .refl s
theorem spiTakes_spiWord (w : QWord) (s : State) : SpiTakes s (s.spiWord w) := by
  have hdrop : ∀ r first u, SpiTakes u ((((u.modCmdq 4 (fun q => { q with partialWords := [] })).modProto (fun p => { p with spiDrop := true })).raiseRdy).rewind
      9 r first) := fun r first u =>
    (((spiTakes_modCmdq ..).trans (spiTakes_drop ..)).trans (spiTakes_raiseRdy _)).trans (.of_steps (steps_rewind ..) (by simp))
  unfold State.spiWord
  refine spiTakes_ite ((SpiTakes.of_steps (steps_count ..) (by decide)).trans (hdrop ..)) (spiTakes_ite (hdrop ..) ?_)
  exact (((spiTakes_modCmdq ..).trans (spiTakes_rdy (fun s => s.proto.mgmtRdy && decide (s.proto.spi.fill + 16 ≤ 512)) _)).trans
    (.of_steps (steps_wmCross ..) (by decide))).trans (spiTakes_dropBad ..)
theorem spiTakes_spiIn (s : State) (w : QWord) : SpiTakes s (s.spiIn w) := by
  unfold State.spiIn
  split
  · exact (spiTakes_modCmdq ..).trans (.of_steps (steps_count ..) (by decide))
  · exact spiTakes_ite (.of_steps (steps_count ..) (by decide)) (spiTakes_spiWord ..)
theorem spiTakes_endOrphans (n : Nat) (s : State) : SpiTakes s (s.endOrphans n) := by
  unfold State.endOrphans
  split
  · exact (spiTakes_modCmdq ..).trans (.of_steps (steps_raise ..) (by simp))
  · exact .refl s
/-- A transaction that begins with this write. -/
def State.spiBegun (first : Bool) (s : State) : State :=
  if first then (s.endOrphans 4).modProto (fun p => { p with spiOpen := true, spiDrop := false, spiDead := false }) else s
/-- A transaction that ends: an item of which words are missing is abandoned. -/
def State.spiEnded (s : State) : State :=
  let t := s.modProto (fun p => { p with spiOpen := false })
  match s.proto.spi.partialWords with
  | [] => t
  | x :: _ => ((t.modCmdq 4 (fun q => { q with partialWords := [] })).raiseRdy).rewind 9 .abandoned x.1.toNat
theorem exec_spiCommandWindowWrite {s : State} (first last : Bool) (ws : List QWord) (hopen : s.mapOpen = true) (hio : s.ioHeld = false)
    (hboot : s.bootOverSpi = false) (hdead : s.proto.spiDead = false ∨ first = true) : exec (.spiCommandWindowWrite first last ws) s
      = .next (if last = true then (ws.foldl (fun s w => s.spiIn w) (s.spiBegun first)).spiEnded else ws.foldl (fun s w => s.spiIn w) (s.spiBegun first)) := by
  have hlive : (s.proto.spiDead && !first) = false := by
    rcases hdead with h | h <;> simp [h]
  refine (?_ : execSpiCommandWindowWrite first last ws s = _)
  unfold execSpiCommandWindowWrite
  simp only [hopen, hio, hboot, hlive, Bool.not_true, Bool.or_self, Bool.false_eq_true, if_false]
  cases last with
  | false => rfl
  | true =>
    simp only [if_true]
    refine (?_ : (match (ws.foldl (fun s w => s.spiIn w) (s.spiBegun first)).proto.spi.partialWords with
      | [] => _
      | x :: _ => _) = _)
    cases hpart : (ws.foldl (fun s w => s.spiIn w) (s.spiBegun first)).proto.spi.partialWords <;> simp only [State.spiEnded, hpart] <;> rfl
theorem spiBegun_takes (first : Bool) (s : State) : Steps (.queueItems :: eventParts) s (s.spiBegun first)
    ∧ (s.spiBegun first).proto.spiOpen = if first = true then true else s.proto.spiOpen := by
  unfold State.spiBegun
  cases first with
  | false => exact ⟨.refl .., rfl⟩
  | true =>
    refine ⟨(spiTakes_endOrphans 4 s).steps.trans ⟨fun p hp => ?_, keepsTold_of_same rfl ⟨rfl, rfl⟩ rfl rfl ⟨rfl, rfl, rfl, rfl⟩⟩, rfl⟩
    cases p <;> simp [eventParts, Part.same] at hp ⊢
theorem spiEnded_ends (s : State) : Steps (.queueItems :: eventParts) s s.spiEnded ∧ s.spiEnded.proto.spiOpen = false
    ∧ s.spiEnded.proto.spi.partialWords = [] := by
  have hclosed : Steps (.queueItems :: eventParts) s (s.modProto (fun p => { p with spiOpen := false })) :=
    ⟨fun p hp => by cases p <;> simp [Part.same] at hp ⊢, keepsTold_of_same rfl ⟨rfl, rfl⟩ rfl rfl ⟨rfl, rfl, rfl, rfl⟩⟩
  unfold State.spiEnded
  dsimp only
  split
  case h_1 hnone => exact ⟨hclosed, rfl, hnone⟩
  case h_2 x r hpart =>
    have hdropped := ((spiTakes_modCmdq 4 (fun q => { q with partialWords := [] }) (s.modProto (fun p => { p with spiOpen := false }))).trans
      (spiTakes_raiseRdy _)).trans (.of_steps (steps_rewind 9 .abandoned x.1.toNat _) (by simp))
    refine ⟨hclosed.trans hdropped.steps, hdropped.spiOpen, ?_⟩
    simp [State.rewind, State.badItem, State.raiseRdy, State.modCmdq]
theorem spiEnded_abandons {s : State} {x : QWord × Nat} {r : List (QWord × Nat)} (h : s.proto.spi.partialWords = x :: r) :
    Raised .badItem .queue 9 (w1 1 ++ w2 x.1.toNat) s.tn s.spiEnded := by
  unfold State.spiEnded
  rw [h]
  refine raised_raise_tn ?_
  simp [State.raiseRdy, State.modCmdq]
/-- Words that arrive in an orphan period are counted alone. -/
theorem spiIn_orphan {s : State} {o : Nat × Nat} (h : s.proto.spi.orphan = some o) (w : QWord) :
    (s.spiIn w).proto.spi = { s.proto.spi with orphan := some (o.1, o.2 + 1) } ∧ Counted .orphanWords .queue 9 1 (s.spiIn w)
      ∧ ∀ x ∈ s.ctr.happened, x ∈ (s.spiIn w).ctr.happened := by
  have hin : s.spiIn w = (s.modCmdq 4 (fun q => { q with orphan := some (o.1, o.2 + 1) })).count .orphanWords .queue 9 1 := by
    unfold State.spiIn
    simp only [h]
  rw [hin]
  refine ⟨by simp [State.modCmdq], (counted_count _ _ _ _ _ (by decide)).1, fun x hx => ?_⟩
  exact (moves_count ..).counted x hx
theorem spiIn_orphans (ws : List QWord) {s : State} {o : Nat × Nat} (h : s.proto.spi.orphan = some o) :
    (ws.foldl (fun s w => s.spiIn w) s).proto.spi = { s.proto.spi with orphan := some (o.1, o.2 + ws.length) }
      ∧ (ws ≠ [] ∨ Counted .orphanWords .queue 9 1 s → Counted .orphanWords .queue 9 1 (ws.foldl (fun s w => s.spiIn w) s)) := by
  induction ws generalizing s o with
  | nil => exact ⟨by simp [← h], fun hc => hc.resolve_left (fun hne => hne rfl)⟩
  | cons w ws ih =>
    obtain ⟨hspi, hcounted, -⟩ := spiIn_orphan h w
    obtain ⟨hrest, hkeeps⟩ := ih (s := s.spiIn w) (o := (o.1, o.2 + 1)) (by rw [hspi])
    refine ⟨?_, fun _ => hkeeps (.inr hcounted)⟩
    refine hrest.trans ?_
    rw [hspi, List.length_cons, Nat.add_assoc, Nat.add_comm 1]

/-- A write to the command window in a transaction that the target follows (R418). -/
theorem spiCommandWindowWrite_takes {s : State} (first last : Bool) (ws : List QWord) (hopen : s.mapOpen = true) (hio : s.ioHeld = false)
    (hboot : s.bootOverSpi = false) (hdead : s.proto.spiDead = false ∨ first = true) : Happens (.queueItems :: eventParts) (fun t =>
      (t.proto.spiOpen = if last = true then false else if first = true then true else s.proto.spiOpen)
      ∧ (last = true → t.proto.spi.partialWords = [])
      ∧ (last = true → ws = [] → first = false → ∀ x r, s.proto.spi.partialWords = x :: r → Raised .badItem .queue 9 (w1 1 ++ w2 x.1.toNat) s.tn t)
      ∧ (first = false → ∀ o, s.proto.spi.orphan = some o → ws ≠ [] → s.proto.spi.partialWords = [] →
        t.proto.spi.items = s.proto.spi.items ∧ t.proto.spi.orphan = some (o.1, o.2 + ws.length) ∧ Counted .orphanWords .queue 9 1 t)) s
      (exec (.spiCommandWindowWrite first last ws) s) := by
  obtain ⟨hbegun, hbegunOpen⟩ := spiBegun_takes first s
  obtain ⟨htaken, htakenOpen⟩ := SpiTakes.foldl (f := fun s w => s.spiIn w) spiTakes_spiIn ws (s.spiBegun first)
  obtain ⟨hended, hendedOpen, hnone⟩ := spiEnded_ends (ws.foldl (fun s w => s.spiIn w) (s.spiBegun first))
  have horphans : first = false → ∀ o, s.proto.spi.orphan = some o → ws ≠ [] →
      (ws.foldl (fun s w => s.spiIn w) (s.spiBegun first)).proto.spi = { s.proto.spi with orphan := some (o.1, o.2 + ws.length) }
        ∧ Counted .orphanWords .queue 9 1 (ws.foldl (fun s w => s.spiIn w) (s.spiBegun first)) := fun hfirst o ho hws => by
    subst hfirst
    obtain ⟨hspi, hcounted⟩ := spiIn_orphans ws ho
    exact ⟨hspi, hcounted (.inl hws)⟩
  have hsteps := hbegun.trans htaken
  rw [exec_spiCommandWindowWrite first last ws hopen hio hboot hdead]
  cases last with
  | false =>
    refine ⟨_, rfl, ⟨htakenOpen.trans hbegunOpen, fun h => Bool.noConfusion h, fun h => Bool.noConfusion h, fun hfirst o ho hws _ => ?_⟩, hsteps.only⟩
    obtain ⟨hspi, hcounted⟩ := horphans hfirst o ho hws
    have hitems := congrArg CmdQueue.items hspi
    have horphan := congrArg CmdQueue.orphan hspi
    exact ⟨hitems, horphan, hcounted⟩
  | true =>
    refine ⟨_, rfl, ⟨hendedOpen, fun _ => hnone, fun _ hws hfirst x r hpart => ?_, fun hfirst o ho hws hpart => ?_⟩, (hsteps.trans hended).only⟩
    · subst hws hfirst
      exact spiEnded_abandons hpart
    · obtain ⟨hspi, hcounted⟩ := horphans hfirst o ho hws
      have hwhole : (ws.foldl (fun s w => s.spiIn w) (s.spiBegun first)).spiEnded
          = (ws.foldl (fun s w => s.spiIn w) (s.spiBegun first)).modProto (fun p => { p with spiOpen := false }) := by
        unfold State.spiEnded
        rw [hspi, hpart]
      rw [hwhole]
      have hitems := congrArg CmdQueue.items hspi
      have horphan := congrArg CmdQueue.orphan hspi
      exact ⟨hitems, horphan, hcounted⟩

/-- Settles O51: what each transaction clocks out or takes in. -/
theorem spiWindows : Obligations.SpiWindows := by
  unfold Obligations.SpiWindows
  refine fun s => ⟨fun hio => ?_, fun hio => ⟨?_, fun n last => ⟨?_, ?_⟩⟩, fun n last hio hdead => ?_, fun n last hio hdead => ?_,
    fun n last hio hdead => ⟨?_, ?_⟩, fun first last ws => ⟨fun hclosed => ?_, fun hopen hio => ⟨fun hboot => ?_, fun hboot hdead hfirst => ?_,
      fun hboot hdead => spiCommandWindowWrite_takes first last ws hopen hio hboot hdead⟩⟩⟩
  · have hexec : exec .spiStatus s = .next { s with spiReply := [BitVec.ofNat 8 s.spiStatus] } := by
      refine (?_ : execSpiStatus s = _)
      rw [execSpiStatus, hio]
      rfl
    refine ⟨_, hexec, rfl, fun p hp => ?_⟩
    cases p <;> simp [Part.same, State.tile] at hp ⊢
  · refine (?_ : execSpiStatus s = _)
    rw [execSpiStatus, hio]
    rfl
  · refine (?_ : execSpiResponseWindowRead n last s = _)
    rw [execSpiResponseWindowRead, hio]
    rfl
  · refine (?_ : execSpiEventWindowRead n last s = _)
    rw [execSpiEventWindowRead, hio]
    rfl
  · obtain ⟨t, hexec, hproto, hreply, honly⟩ := spiResponseWindowRead_clocks (s := s) n last hio hdead
    have hclocked : Only [.spiReply, .responses, .queueItems] s (s.respClocked n last) :=
      fun p hp => by cases p <;> simp [Part.same, State.respClocked, State.tile, State.modProto] at hp ⊢
    refine ⟨t, hexec, ⟨?_, ⟨(clockOut Resp.octets ((vget s.proto.resp 4 []).length + 1) n (vget s.proto.resp 4 []) s.proto.spiRespRead).2.1, ?_⟩, fun hnone => ?_, fun r l hr hn _ => ?_⟩, only_trans _ _ s _ _ hclocked (only_mono honly (by simp)) (by simp)⟩
    · rw [hreply]
      exact clockOut_length ..
    · rw [hproto]
      exact vget_vmod_same _ _ _ _ (by decide)
    · rw [hreply, State.respClocked, hnone]
      rfl
    · rw [hreply, hproto, hn]
      exact respClocked_item last hr
  · obtain ⟨t, hexec, hproto, hreply, honly⟩ := spiEventWindowRead_clocks (s := s) n last hio hdead
    have hclocked : Only [.spiReply, .events, .queueItems] s (s.eventClocked n last) :=
      fun p hp => by cases p <;> simp [Part.same, State.eventClocked, State.tile, State.modProto] at hp ⊢
    refine ⟨t, hexec, ⟨?_, ?_, fun hon => ⟨?_, ?_⟩, fun hoff x l hx hn _ => ?_⟩, only_trans _ _ s _ _ hclocked (only_mono honly (by simp)) (by simp)⟩
    · rw [hreply]
      exact clockOut_length ..
    · rw [hproto]
      rfl
    · rw [hproto, State.eventClocked, hon]
      rfl
    · rw [hreply, State.eventClocked, hon]
      rfl
    · rw [hreply, hproto, hn]
      exact eventClocked_item last hoff hx
  · have hexec : exec (.spiResponseWindowRead n last) s
        = .next { s.modProto (fun p => { p with spiDead := !last }) with spiReply := List.replicate n 0 } := by
      refine (?_ : execSpiResponseWindowRead n last s = _)
      rw [execSpiResponseWindowRead, hio, hdead]
      rfl
    refine ⟨_, hexec, ⟨rfl, rfl⟩, fun p hp => ?_⟩
    cases p <;> simp [Part.same, State.tile, State.modProto] at hp ⊢
  · have hexec : exec (.spiEventWindowRead n last) s
        = .next { s.modProto (fun p => { p with spiDead := !last }) with spiReply := List.replicate n 0 } := by
      refine (?_ : execSpiEventWindowRead n last s = _)
      rw [execSpiEventWindowRead, hio, hdead]
      rfl
    refine ⟨_, hexec, ⟨rfl, rfl⟩, fun p hp => ?_⟩
    cases p <;> simp [Part.same, State.tile, State.modProto] at hp ⊢
  · refine (?_ : execSpiCommandWindowWrite first last ws s = _)
    unfold execSpiCommandWindowWrite
    rw [if_pos (by rcases hclosed with h | h <;> simp [h])]
  · have hexec : exec (.spiCommandWindowWrite first last ws) s = .next (s.modDev (fun d => { d with
        bootStage := (d.bootStage ++ (ws.map (fun w => octetsBE 8 w.toNat)).flatten).take d.bootImgLen })) := by
      refine (?_ : execSpiCommandWindowWrite first last ws s = _)
      unfold execSpiCommandWindowWrite
      rw [if_neg (by simp [hopen, hio]), if_pos hboot]
    refine ⟨_, hexec, rfl, fun p hp => ?_⟩
    cases p <;> simp [Part.same] at hp ⊢
  · have hexec : exec (.spiCommandWindowWrite first last ws) s = .next (s.modProto (fun p => { p with spiDead := p.spiDead && !last })) := by
      refine (?_ : execSpiCommandWindowWrite first last ws s = _)
      unfold execSpiCommandWindowWrite
      rw [if_neg (by simp [hopen, hio]), if_neg (by simp [hboot]), if_pos (by simp [hdead, hfirst])]
    refine ⟨_, hexec, ⟨by simp [hdead], rfl⟩, fun p hp => ?_⟩
    cases p <;> simp [Part.same] at hp ⊢
end Sys2Proof.Machine
end

section
/-! The registers of the queues (O49). -/
namespace Sys2Proof.Machine

/-! ### Command queues and register sets after an operation -/

theorem State.cmdq_modCmdq (n : Nat) (f : CmdQueue → CmdQueue) (s : State) :
    (s.modCmdq n f).cmdq n = f (s.cmdq n) ∧ ∀ j, j ≠ n → (j < 4 ∨ n < 4) → (s.modCmdq n f).cmdq j = s.cmdq j := by
  by_cases h : n < 4
  · refine ⟨?_, fun j hj _ => ?_⟩
    · simp [State.cmdq, State.modCmdq, State.modProto, h]
    · simp only [State.cmdq, State.modCmdq, State.modProto, h, if_true, vget_vmod_ne _ _ _ _ _ hj]
  · refine ⟨?_, fun j hj hlt => ?_⟩
    · simp [State.cmdq, State.modCmdq, State.modProto, h]
    · simp [State.cmdq, State.modCmdq, State.modProto, h, hlt.resolve_right h]
theorem State.cmdq_of_items {s t : State} (hr : t.proto.ring = s.proto.ring) (hs : t.proto.spi = s.proto.spi) (j : Nat) : t.cmdq j = s.cmdq j := by
  rw [State.cmdq, State.cmdq, hr, hs]
theorem State.cmdq_of_same {s t : State} (h : Part.same s t .queueItems) (j : Nat) : t.cmdq j = s.cmdq j := State.cmdq_of_items h.1 h.2.1 j
theorem State.cmdq_of_steps {l : List Part} {s t : State} (h : Steps l s t) (j : Nat) (hl : Part.queueItems ∉ l := by decide) : t.cmdq j = s.cmdq j :=
  State.cmdq_of_same (h.only .queueItems hl) j
theorem State.qreg_of_steps {l : List Part} {s t : State} (h : Steps l s t) (j : Nat) (hl : Part.queueRegs ∉ l := by decide) : t.qreg j = s.qreg j := by
  rw [State.qreg, State.qreg, h.only .queueRegs hl]
theorem Raised.keep {ev : Ev} {k : Kind} {i tn : Nat} {ws : List Word} {l : List Part} {s t : State} (h : Raised ev k i ws tn s) (ht : Steps l s t) :
    Raised ev k i ws tn t := ht.told.raised _ _ _ _ _ h
theorem State.place_of_proto {s t : State} (h : t.proto = s.proto) (j : Nat) : (t.qreg j).place = (s.qreg j).place := by rw [State.qreg_of_proto h]
theorem State.place_postEvent (e : EventItem) (j : Nat) (s : State) : ((s.postEvent e).qreg j).place = (s.qreg j).place := by
  unfold State.postEvent
  refine State.place_ite _ _ rfl (State.place_ite _ _ rfl (State.place_ite _ _ ?_ rfl))
  rw [State.qreg_refreshed, State.place_wmCross]
  rfl
theorem State.place_raise (ev : Ev) (k : Kind) (i : Nat) (ws : List Word) (j : Nat) (s : State) : ((s.raise ev k i ws).qreg j).place = (s.qreg j).place := by
  obtain ⟨hproto, -⟩ := noticed ev k i s
  rw [State.raise, raiseAt_eq _ _ _ _ _ _ _ rfl]
  refine State.place_ite _ _ (State.place_of_proto hproto j) ?_
  rw [State.place_postEvent, State.place_of_proto hproto]
theorem State.place_count (x : Ctr) (k : Kind) (i n j : Nat) (s : State) : ((s.count x k i n).qreg j).place = (s.qreg j).place := by
  rw [State.qreg_count]
theorem State.qreg_modCmdq (n : Nat) (f : CmdQueue → CmdQueue) (j : Nat) (s : State) : (s.modCmdq n f).qreg j = s.qreg j := by
  unfold State.modCmdq State.qreg
  dsimp only [State.modProto]
  split <;> rfl

/-! ### Flushes (R414) -/

/-- What a flush of a command queue may move. -/
def commandParts : List Part := withEvent [.queueItems, .responses]
/-- What a flush may move. -/
def flushParts : List Part := withEvent [.queueItems, .responses, .mons, .tlmq]
section
variable {s : State}
theorem steps_modCmdq (n : Nat) (f : CmdQueue → CmdQueue) (s : State) : Steps commandParts s (s.modCmdq n f) :=
  (spiTakes_modCmdq n f s).steps.mono (by decide)
theorem steps_queueFlushed (q items orphans : Nat) (s : State) : Steps eventParts s (s.queueFlushed q items orphans) := steps_raise ..
theorem only_then {l : List Part} {s u t : State} (h : Only l s u) (h' : Only l u t) : Only l s t := only_trans l l s u t h h' (fun _ hp => hp)
theorem steps_flushCmd (n : Nat) (orphans : Bool) (s : State) : Steps commandParts s (s.flushCmd n orphans) := by
  unfold State.flushCmd
  refine ((((spiTakes_endOrphans n s).steps.mono (by decide)).trans (steps_modCmdq ..)).trans ((steps_count ..).mono (by decide))).trans (steps_ite (steps_modCmdq ..) ?_)
  exact (steps_queueFlushed ..).mono (by decide)
theorem State.endOrphans_none {n : Nat} (h : (s.cmdq n).orphan = none) : s.endOrphans n = s := by
  unfold State.endOrphans
  simp only [h]
/-- The command queue of ring `k` after its flush. -/
theorem flushSet_ring {k : Nat} (hk : k < 4) (h : (s.cmdq k).orphan = none) : ((s.flushSet k).cmdq k).items = [] ∧ ((s.flushSet k).cmdq k).partialWords = []
    ∧ ((s.flushSet k).cmdq k).orphan = some ((s.cmdq k).items.length, 0) ∧ ((s.flushSet k).qreg k).ci = (s.qreg k).pi
    ∧ ((s.flushSet k).qreg k).pi = (s.qreg k).pi ∧ ∀ j, j ≠ k → (s.flushSet k).cmdq j = s.cmdq j := by
  have hflush : s.flushSet k = (((s.modCmdq k (fun q => { q with items := [], partialWords := [] })).count .flushedItems .queue (cmdSetOf k)
      (s.cmdq k).items.length).modCmdq k (fun q => { q with orphan := some ((s.cmdq k).items.length, 0) })).modQreg k (fun r => { r with ci := r.pi }) := by
    unfold State.flushSet State.flushCmd
    rw [if_pos hk, State.endOrphans_none h]
    rfl
  obtain ⟨hcleared, hclearedOthers⟩ := s.cmdq_modCmdq k (fun q => { q with items := [], partialWords := [] })
  generalize hu : s.modCmdq k (fun q => { q with items := [], partialWords := [] }) = u at hflush hcleared hclearedOthers
  have hqreg : ∀ j, u.qreg j = s.qreg j := fun j => hu ▸ State.qreg_modCmdq ..
  obtain ⟨horphan, horphanOthers⟩ := (u.count .flushedItems .queue (cmdSetOf k) (s.cmdq k).items.length).cmdq_modCmdq k
    (fun q => { q with orphan := some ((s.cmdq k).items.length, 0) })
  rw [State.cmdq_count, hcleared] at horphan
  rw [hflush]
  have hring : ∀ (v : State) f j, (v.modQreg k f).cmdq j = v.cmdq j := fun v f j => State.cmdq_of_steps (steps_modQreg k f v) j
  have hreg : ∀ v : State, (v.modQreg k (fun r => { r with ci := r.pi })).qreg k = { v.qreg k with ci := (v.qreg k).pi } := fun v =>
    State.qreg_modQreg_same _ _ _ (by omega)
  rw [hring, horphan, hreg, State.qreg_modCmdq, State.qreg_count, hqreg]
  refine ⟨rfl, rfl, rfl, rfl, rfl, fun j hj => ?_⟩
  rw [hring, horphanOthers j hj (.inr hk), State.cmdq_count, hclearedOthers j hj (.inr hk)]
/-- What a flush of a response queue keeps: the item that is part-read over SPI. -/
def State.respKept (n : Nat) (s : State) : List Resp := if n = 4 ∧ s.proto.spiRespRead ≠ 0 then (vget s.proto.resp n []).take 1 else []
/-- A flush of a response queue. -/
theorem flushResp_flushes (n : Nat) (hn : n < 5) : Only flushParts s (s.flushResp n) ∧ vget (s.flushResp n).proto.resp n [] = s.respKept n
    ∧ Raised .queueFlushed .queue (respSet n) (w1 ((vget s.proto.resp n []).length - (s.respKept n).length) ++ w1 0) s.tn (s.flushResp n) := by
  have hkept : ∀ l, Only flushParts s (s.modProto (fun p => { p with resp := vmod p.resp n (fun _ => l) })) :=
    fun l p hp => by cases p <;> simp [Part.same, flushParts, withEvent, eventParts] at hp ⊢
  have hreset : ∀ u : State, Steps [.queueRegs] u (if n < 4 then u.modQreg (4 + n) (fun r => { r with pi := r.ci }) else u) :=
    fun u => steps_ite (steps_modQreg ..) (.refl ..)
  have hresp : ∀ u : State, (if n < 4 then u.modQreg (4 + n) (fun r => { r with pi := r.ci }) else u).proto.resp = u.proto.resp :=
    fun u => ((hreset u).only .responses (by decide)).1
  unfold State.flushResp
  refine ⟨only_then (hkept (s.respKept n)) (((hreset _).mono (by decide)).trans (((steps_count ..).mono (by decide)).trans
    ((steps_queueFlushed ..).mono (by decide)))).only, ?_, raised_raise_tn ?_⟩
  · unfold State.queueFlushed
    rw [State.raise_proto_resp, State.count_proto, hresp]
    exact vget_vmod_same _ _ _ _ hn
  · rw [State.count_tn, (hreset _).tn]
    rfl
theorem State.respKept_none {n : Nat} (h : n = 4 → s.proto.spiRespRead = 0) : s.respKept n = [] := if_neg (fun hn => hn.2 (h hn.1))
/-- A flush of the event ring. -/
theorem flushSet_eventRing : Only flushParts s (s.flushSet 8) ∧ (s.flushSet 8).proto.eventRing = []
    ∧ Raised .queueFlushed .queue 8 (w1 s.proto.eventRing.length ++ w1 0) s.tn (s.flushSet 8) := by
  have hflush : s.flushSet 8 = ((((s.modProto (fun p => { p with eventRing := [] })).modQreg 8 (fun r => { r with pi := r.ci })).count .flushedItems .queue 8
      s.proto.eventRing.length).queueFlushed 8 s.proto.eventRing.length 0) :=
    (if_neg (by decide)).trans ((if_neg (by decide)).trans (if_pos rfl))
  have hcleared : Only flushParts s (s.modProto (fun p => { p with eventRing := [] })) :=
    fun p hp => by cases p <;> simp [Part.same, flushParts, withEvent, eventParts] at hp ⊢
  rw [hflush]
  refine ⟨only_then hcleared (((steps_modQreg ..).mono (by decide)).trans (((steps_count ..).mono (by decide)).trans
    ((steps_queueFlushed ..).mono (by decide)))).only, ?_, raised_raise_tn ?_⟩
  · simp [State.queueFlushed]
  · simp
/-- A flush of the command queue over SPI. -/
theorem flushSet_spi : Only flushParts s (s.flushSet 9) ∧ (s.proto.spi.orphan = none → (s.flushSet 9).proto.spi.items = []
    ∧ (s.flushSet 9).proto.spi.partialWords = []
    ∧ (s.proto.spiOpen = false → Raised .queueFlushed .queue 9 (w1 s.proto.spi.items.length ++ w1 0) s.tn (s.flushSet 9))) := by
  have hflush : s.flushSet 9 = (s.flushCmd 4 s.proto.spiOpen).raiseRdy :=
    (if_neg (by decide)).trans ((if_neg (by decide)).trans ((if_neg (by decide)).trans (if_pos rfl)))
  have hready : ∀ u : State, Steps flushParts u u.raiseRdy := fun u => (spiTakes_raiseRdy u).steps.mono (by decide)
  refine ⟨(((steps_flushCmd ..).mono (by decide)).trans (hready _)).only, fun h => ?_⟩
  have horphan : (s.cmdq 4).orphan = none := h
  rw [hflush]
  unfold State.flushCmd
  rw [State.endOrphans_none horphan]
  cases hopen : s.proto.spiOpen with
  | true => exact ⟨by simp [State.raiseRdy, State.modCmdq], by simp [State.raiseRdy, State.modCmdq], fun hno => Bool.noConfusion hno⟩
  | false =>
    refine ⟨by simp [State.raiseRdy, State.modCmdq, State.queueFlushed], by simp [State.raiseRdy, State.modCmdq, State.queueFlushed], fun _ => ?_⟩
    refine Raised.keep ?_ (hready _)
    exact raised_raise_tn (by simp [State.modCmdq])
/-- A flush of the response queue over SPI. -/
theorem flushSet_spiResp : Only flushParts s (s.flushSet 10) ∧ (s.proto.spiRespRead = 0 → vget (s.flushSet 10).proto.resp 4 [] = []
    ∧ Raised .queueFlushed .queue 10 (w1 (vget s.proto.resp 4 []).length ++ w1 0) s.tn (s.flushSet 10)) := by
  have hflush : s.flushSet 10 = (s.flushResp 4).refreshAlert :=
    (if_neg (by decide)).trans ((if_neg (by decide)).trans ((if_neg (by decide)).trans ((if_neg (by decide)).trans (if_pos rfl))))
  have halert : Steps flushParts (s.flushResp 4) (s.flushResp 4).refreshAlert := (steps_refreshAlert _).mono (by decide)
  obtain ⟨honly, hresp, hraised⟩ := flushResp_flushes (s := s) 4 (by decide)
  rw [hflush]
  refine ⟨only_then honly halert.only, fun hread => ?_⟩
  rw [State.respKept_none (fun _ => hread)] at hresp hraised
  rw [State.refreshAlert_proto]
  exact ⟨hresp, hraised.keep halert⟩
/-- A flush of the event queue. -/
theorem flushSet_events : Only flushParts s s.flushEvents ∧ (s.proto.spiEventRead = 0 →
    Raised .queueFlushed .queue 11 (w1 s.proto.eventQueue.length ++ w1 0) s.tn s.flushEvents) := by
  have hcleared : ∀ l, Only flushParts s (s.modProto (fun p => { p with eventQueue := l })) :=
    fun l p hp => by cases p <;> simp [Part.same, flushParts, withEvent, eventParts] at hp ⊢
  have halert : ∀ u : State, Steps flushParts u u.refreshAlert := fun u => (steps_refreshAlert u).mono (by decide)
  unfold State.flushEvents
  refine ⟨only_then (hcleared _) (((steps_count ..).mono (by decide)).trans (((steps_queueFlushed ..).mono (by decide)).trans (halert _))).only, fun hread => ?_⟩
  rw [if_neg (fun h => h hread)]
  refine Raised.keep ?_ (halert _)
  exact raised_raise_tn (by simp)
/-- A flush of the result queue of a converter. -/
theorem resultFlush_mon {k : Nat} (hk : k < 4) : Only flushParts s (s.resultFlush k) ∧ ((s.resultFlush k).mc k).queue = []
    ∧ Raised .queueFlushed .queue (12 + k) (w1 (s.mc k).queue.length ++ w1 0) s.tn (s.resultFlush k) := by
  obtain ⟨hnext, hsteps, -⟩ := monNextTold_next hk (s.modMc k (fun m => { m with queue := [] }))
  obtain ⟨hmon, -⟩ := (monIs_modMc hk (fun m => { m with queue := [] }) s).trans hnext
  have hsteps' := ((steps_modMc k (fun m => { m with queue := [] }) s).mono (by simp)).trans hsteps
  have hflush : s.resultFlush k = ((((s.modMc k (fun m => { m with queue := [] })).monNextTold k).count .flushedItems .queue (12 + k) (s.mc k).queue.length).raise
      .queueFlushed .queue (12 + k) (w1 (s.mc k).queue.length ++ w1 0)) := by
    unfold State.resultFlush
    rw [if_pos hk]
  rw [hflush]
  refine ⟨((hsteps'.mono (by decide)).trans (((steps_count ..).mono (by decide)).trans ((steps_raise ..).mono (by decide)))).only, ?_, raised_raise_tn ?_⟩
  · rw [State.mc, State.raise_mons, State.count_mons, ← State.mc]
    exact (congrArg MonConv.queue hmon).trans (MonConv.begin_queue ..)
  · rw [State.count_tn]
    exact hsteps'.tn
/-- A flush of the telemetry output queue. -/
theorem resultFlush_tlm : Only flushParts s (s.resultFlush 4) ∧ (s.resultFlush 4).tlmq.queue = s.tlmq.waiting.take 1024
    ∧ Raised .queueFlushed .queue 16 (w1 s.tlmq.queue.length ++ w1 0) s.tn (s.resultFlush 4) := by
  have hcrossed : ∀ (b : Bool) w u, Steps eventParts u (if b = true then State.resultCrossed 4 w u else u) :=
    fun b w u => steps_ite (steps_resultCrossed ..) (.refl ..)
  unfold State.resultFlush
  rw [if_neg (by decide)]
  dsimp only
  refine ⟨only_then (only_mono (steps_tlmq _ s).only (by decide)) (((steps_count ..).mono (by decide)).trans (((steps_raise ..).mono (by decide)).trans
    ((hcrossed ..).mono (by decide)))).only, ?_, Raised.keep (raised_raise_tn ?_) (hcrossed ..)⟩
  · rw [(hcrossed _ _ _).only .tlmq (by decide), State.raise_tlmq, State.count_tlmq]
  · rw [State.count_tn]
end

/-! ### Doorbells (R409, R515) -/

theorem State.dropBad_good {n : Nat} {s : State} (h : ∀ it ∈ s.visible n, it.bad = none) (k : Nat) : s.dropBad n k = s := by
  cases k with
  | zero => rfl
  | succ k =>
    unfold State.dropBad
    split
    · rfl
    case h_2 it r hl =>
      rw [h it (by rw [hl]; exact List.mem_cons_self)]
/-- A doorbell within the free space of its ring, none of whose items has a bad CHECK. -/
theorem doorbell_commits {s : State} {q pi : Nat} {sync : Bool} {ws : List QWord} (hq : q < 4) (horphan : (s.cmdq q).orphan = none)
    (hlen : ws.length = (pi + 2 ^ (s.qreg q).log2 - (s.qreg q).pi) % 2 ^ (s.qreg q).log2)
    (hroom : ws.length + ((s.qreg q).pi + 2 ^ (s.qreg q).log2 - (s.qreg q).ci) % 2 ^ (s.qreg q).log2 < 2 ^ (s.qreg q).log2)
    (hgood : ∀ it ∈ (s.cmdq q).items ++ (parseWords (portSource q) false ((s.cmdq q).partialWords ++ ws.map (fun w => (w, pi))).length
      ((s.cmdq q).partialWords ++ ws.map (fun w => (w, pi)))).1, it.bad = none) :
    Steps (.queueItems :: eventParts) s (s.doorbell q pi sync ws) ∧ ((s.doorbell q pi sync ws).qreg q).pi = pi
      ∧ ((s.doorbell q pi sync ws).qreg q).ci = (s.qreg q).ci
      ∧ ((s.doorbell q pi sync ws).cmdq q).items = (s.cmdq q).items ++ (parseWords (portSource q) false
          ((s.cmdq q).partialWords ++ ws.map (fun w => (w, pi))).length ((s.cmdq q).partialWords ++ ws.map (fun w => (w, pi)))).1
      ∧ ∀ j, j ≠ q → (s.doorbell q pi sync ws).cmdq j = s.cmdq j := by
  have hwords : (ws ++ List.replicate ws.length (0 : QWord)).take ws.length = ws := List.take_left' rfl
  have hcommit : s.doorbell q pi sync ws = s.commitWords q pi ws := by
    unfold State.doorbell
    simp only [← hlen, if_pos hroom, horphan, hwords]
  rw [hcommit]
  unfold State.commitWords
  dsimp only
  have hring : ∀ j, (s.modQreg q (fun r => { r with pi := pi })).cmdq j = s.cmdq j := fun j => State.cmdq_of_steps (steps_modQreg ..) j
  rw [hring]
  generalize hr : parseWords (portSource q) false ((s.cmdq q).partialWords ++ ws.map (fun w => (w, pi))).length
    ((s.cmdq q).partialWords ++ ws.map (fun w => (w, pi))) = r at hgood ⊢
  obtain ⟨hitems, hothers⟩ := (s.modQreg q (fun x => { x with pi := pi })).cmdq_modCmdq q
    (fun c => { c with items := c.items ++ r.1, partialWords := r.2 })
  generalize hu : (s.modQreg q (fun x => { x with pi := pi })).modCmdq q (fun c => { c with items := c.items ++ r.1, partialWords := r.2 }) = u at hitems hothers
  have hsteps : Steps (.queueItems :: eventParts) s u := by
    rw [← hu]
    exact ((steps_modQreg ..).mono (by decide)).trans (spiTakes_modCmdq ..).steps
  have hcross := steps_wmCross q (s.fill q) u
  have hcmdq : ∀ j, (u.wmCross q (s.fill q)).cmdq j = u.cmdq j := fun j => State.cmdq_of_steps hcross j
  rw [hring] at hitems
  have hdrop : (u.wmCross q (s.fill q)).dropBad q 64 = u.wmCross q (s.fill q) := by
    refine State.dropBad_good (fun it hit => hgood it ?_) 64
    rw [State.visible, if_neg (by omega), if_neg (by omega), hcmdq, hitems] at hit
    exact hit
  have hplace : ((u.wmCross q (s.fill q)).qreg q).place = ({ s.qreg q with pi := pi } : QueueRegs).place := by
    rw [State.place_wmCross, ← hu, State.qreg_modCmdq, State.qreg_modQreg_same _ _ _ (by omega)]
  obtain ⟨hpi, hci, -⟩ := QueueRegs.place_eq.mp hplace
  rw [hdrop]
  refine ⟨hsteps.trans (hcross.mono (by decide)), hpi, hci, by rw [hcmdq, hitems], fun j hj => ?_⟩
  rw [hcmdq, hothers j hj (.inr hq), hring]
/-! ### Each row -/

/-- A flush of queue `q`, by its number (R414, Table 16.8). -/
def State.flushed (q : Nat) (s : State) : State := if q < 12 then s.flushSet q else s.resultFlush (q - 12)
section
variable {s : State}
theorem exec_queueFlush (hopen : s.mapOpen = true) (q : Fin 17) : exec (.queueFlush q) s = .next (s.flushed q) := by
  refine (?_ : execQueueFlush q s = _)
  unfold execQueueFlush State.flushed
  rw [hopen, if_neg (by simp)]
  exact (apply_ite Host.Outcome.next _ _ _).symm
theorem State.flushed_set {q : Nat} (h : q < 12) : s.flushed q = s.flushSet q := if_pos h
theorem State.flushed_resp {k : Nat} (hk : k < 4) : s.flushed (4 + k) = s.flushResp k := by
  rw [State.flushed_set (by omega)]
  unfold State.flushSet
  rw [if_neg (by omega), if_pos (by omega), Nat.add_sub_cancel_left]
theorem State.flushed_events : s.flushed 11 = s.flushEvents :=
  (State.flushed_set (by decide)).trans ((if_neg (by decide)).trans ((if_neg (by decide)).trans ((if_neg (by decide)).trans
    ((if_neg (by decide)).trans (if_neg (by decide))))))
theorem State.flushed_result {k : Nat} : s.flushed (12 + k) = s.resultFlush k := by
  rw [State.flushed, if_neg (by omega), Nat.add_sub_cancel_left]
theorem respSet_ring {k : Nat} (hk : k < 4) : respSet k = 4 + k := if_pos hk
theorem flushed_resp {k : Nat} (hk : k < 4) : vget (s.flushed (4 + k)).proto.resp k [] = []
    ∧ Raised .queueFlushed .queue (4 + k) (w1 (vget s.proto.resp k []).length ++ w1 0) s.tn (s.flushed (4 + k)) := by
  obtain ⟨-, hresp, hraised⟩ := flushResp_flushes (s := s) k (by omega)
  rw [State.respKept_none (by omega)] at hresp hraised
  rw [respSet_ring hk] at hraised
  rw [State.flushed_resp hk]
  exact ⟨hresp, hraised⟩
theorem only_flushed (q : Fin 17) : Only flushParts s (s.flushed q) := by
  obtain ⟨q, hq⟩ := q
  have hcases : q < 4 ∨ (∃ k, q = 4 + k ∧ k < 4) ∨ q = 8 ∨ q = 9 ∨ q = 10 ∨ q = 11 ∨ (∃ k, q = 12 + k ∧ k < 4) ∨ q = 12 + 4 := by
    rcases Nat.lt_or_ge q 8 with h | h
    · exact (Nat.lt_or_ge q 4).imp id (fun h' => .inl ⟨q - 4, by omega⟩)
    · rcases Nat.lt_or_ge q 12 with h' | h'
      · omega
      · rcases Nat.lt_or_ge q 16 with h'' | h''
        · exact .inr (.inr (.inr (.inr (.inr (.inr (.inl ⟨q - 12, by omega⟩))))))
        · omega
  dsimp only
  rcases hcases with h | ⟨k, rfl, hk⟩ | rfl | rfl | rfl | rfl | ⟨k, rfl, hk⟩ | rfl
  · rw [State.flushed_set (by omega), State.flushSet, if_pos h]
    exact (((steps_flushCmd ..).mono (by decide)).trans ((steps_modQreg ..).mono (by decide))).only
  · rw [State.flushed_resp hk]
    exact (flushResp_flushes k (by omega)).1
  · rw [State.flushed_set (by decide)]
    exact flushSet_eventRing.1
  · rw [State.flushed_set (by decide)]
    exact flushSet_spi.1
  · rw [State.flushed_set (by decide)]
    exact flushSet_spiResp.1
  · rw [State.flushed_events]
    exact flushSet_events.1
  · rw [State.flushed_result]
    exact (resultFlush_mon hk).1
  · rw [State.flushed_result]
    exact resultFlush_tlm.1
theorem exec_commandRingDoorbell_ignored {q : Fin 4} {pi : Nat} (y : Bool) (ws : List QWord)
    (h : s.mapOpen = false ∨ (s.qreg q).enable = false ∨ 2 ^ (s.qreg q).log2 ≤ pi) : exec (.commandRingDoorbell q pi y ws) s = .next s := by
  refine (?_ : execCommandRingDoorbell q pi y ws s = _)
  unfold execCommandRingDoorbell
  refine if_neg (fun hc => ?_)
  rw [Bool.and_eq_true, Bool.and_eq_true, decide_eq_true_eq] at hc
  obtain ⟨⟨hmap, hon⟩, hlt⟩ := hc
  rcases h with h | h | h
  · rw [hmap] at h
    exact Bool.noConfusion h
  · rw [hon] at h
    exact Bool.noConfusion h
  · exact absurd hlt (Nat.not_lt.mpr h)
theorem exec_commandRingDoorbell {q : Fin 4} {pi : Nat} (y : Bool) (ws : List QWord) (hmap : s.mapOpen = true) (hon : (s.qreg q).enable = true)
    (hlt : pi < 2 ^ (s.qreg q).log2) : exec (.commandRingDoorbell q pi y ws) s = .next (s.doorbell q pi y ws) := by
  refine (?_ : execCommandRingDoorbell q pi y ws s = _)
  unfold execCommandRingDoorbell
  exact if_pos (by rw [hmap, hon, decide_eq_true hlt]; rfl)
end

/-! ### The control word of a ring -/

section
variable {s : State}
theorem steps_endOrphans (n : Nat) (s : State) : Steps commandParts s (s.endOrphans n) := (spiTakes_endOrphans n s).steps.mono (by decide)
theorem State.place_endOrphans (n j : Nat) (s : State) : ((s.endOrphans n).qreg j).place = (s.qreg j).place := by
  unfold State.endOrphans
  split
  · unfold State.queueFlushed
    rw [State.place_raise, State.qreg_modCmdq]
  · rfl
theorem State.place_flushCmd (n : Nat) (orphans : Bool) (j : Nat) (s : State) : ((s.flushCmd n orphans).qreg j).place = (s.qreg j).place := by
  unfold State.flushCmd
  refine State.place_ite _ _ ?_ ?_
  · rw [State.qreg_modCmdq, State.qreg_count, State.qreg_modCmdq, State.place_endOrphans]
  · unfold State.queueFlushed
    rw [State.place_raise, State.qreg_count, State.qreg_modCmdq, State.place_endOrphans]
/-- What enabling a ring moves, and where it leaves its registers. -/
theorem enableRing_enables {q : Nat} (hq : q < 9) (s : State) : Only commandParts s (s.enableRing q)
    ∧ ((s.enableRing q).qreg q).place = ({ s.qreg q with enable := true, pi := 0, ci := 0 } : QueueRegs).place := by
  unfold State.enableRing
  dsimp only
  generalize hu : s.modQreg q (fun r => { r with enable := true, pi := 0, ci := 0, shadowWord := 0, wm := { r.wm with latched := false } }) = u
  have hsteps : Steps commandParts s u := hu ▸ (steps_modQreg ..).mono (by decide)
  have hplace : (u.qreg q).place = ({ s.qreg q with enable := true, pi := 0, ci := 0 } : QueueRegs).place := by
    rw [← hu, State.qreg_modQreg_same _ _ _ (by omega)]
    rfl
  split
  · refine ⟨(hsteps.trans ((steps_endOrphans ..).trans (steps_modCmdq ..))).only, ?_⟩
    rw [State.qreg_modCmdq, State.place_endOrphans, hplace]
  · split
    · exact ⟨only_then hsteps.only (fun p hp => by cases p <;> simp [Part.same, commandParts, withEvent, eventParts] at hp ⊢), hplace⟩
    · refine ⟨only_then hsteps.only (only_then (fun p hp => by cases p <;> simp [Part.same, commandParts, withEvent, eventParts] at hp ⊢)
        ((steps_refreshAlert _).mono (by decide)).only), ?_⟩
      rw [State.qreg_refreshed]
      exact hplace
theorem disableRing_disables {q : Nat} (hq : q < 9) (s : State) : Steps commandParts s (s.disableRing q)
    ∧ ((s.disableRing q).qreg q).place = ({ s.qreg q with enable := false } : QueueRegs).place := by
  unfold State.disableRing
  dsimp only
  generalize hu : s.modQreg q (fun r => { r with enable := false }) = u
  have hsteps : Steps commandParts s u := hu ▸ (steps_modQreg ..).mono (by decide)
  have hplace : (u.qreg q).place = ({ s.qreg q with enable := false } : QueueRegs).place := by
    rw [← hu, State.qreg_modQreg_same _ _ _ (by omega)]
  refine ⟨hsteps.trans (steps_ite (steps_flushCmd ..) ((steps_refreshAlert u).mono (by decide))), ?_⟩
  refine Eq.trans (State.place_ite _ _ ?_ ?_) hplace
  · rw [State.place_flushCmd]
  · rw [State.qreg_refreshed]
/-- The ring's registers with the fields of a control word taken: LOG2_SIZE only while it is disabled. -/
def QueueRegs.controlled (on : Bool) (w : Nat) (r : QueueRegs) : QueueRegs :=
  { r with log2 := if on then r.log2 else field w 16 5, intOnItem := bit w 10, intHoldoff := field w 0 10 }
theorem State.writeControl_eq (q w : Nat) (s : State) (h30 : bit w 30 = false) : s.writeControl q w =
    if bit w 31 && !(s.qreg q).enable && decide (10 ≤ ((s.modQreg q (.controlled (s.qreg q).enable w)).qreg q).log2)
        && decide (((s.modQreg q (.controlled (s.qreg q).enable w)).qreg q).log2 ≤ 20)
    then (s.modQreg q (.controlled (s.qreg q).enable w)).enableRing q
    else if !bit w 31 && (s.qreg q).enable then (s.modQreg q (.controlled (s.qreg q).enable w)).disableRing q
    else s.modQreg q (.controlled (s.qreg q).enable w) := by
  unfold State.writeControl
  rw [if_neg (by rw [h30]; exact Bool.false_ne_true)]
  rfl
theorem State.writeControl_on {q w : Nat} (hq : q < 9) (h30 : bit w 30 = false) (h31 : bit w 31 = true) (hoff : (s.qreg q).enable = false)
    (h10 : 10 ≤ field w 16 5) (h20 : field w 16 5 ≤ 20) : s.writeControl q w = (s.modQreg q (.controlled false w)).enableRing q := by
  have hlog : ((s.modQreg q (.controlled false w)).qreg q).log2 = field w 16 5 := by
    rw [State.qreg_modQreg_same _ _ _ (by omega)]
    rfl
  rw [State.writeControl_eq q w s h30, h31, hoff, hlog, decide_eq_true h10, decide_eq_true h20]
  exact if_pos rfl
theorem State.writeControl_off {q w : Nat} (h30 : bit w 30 = false) (h31 : bit w 31 = false) (hon : (s.qreg q).enable = true) :
    s.writeControl q w = (s.modQreg q (.controlled true w)).disableRing q := by
  rw [State.writeControl_eq q w s h30, h31, hon]
  exact (if_neg (by simp)).trans (if_pos rfl)
/-- A write of CI that does not pass PI. -/
theorem writeCi_returns {q ci : Nat} (hlt : ci < 2 ^ (s.qreg q).log2)
    (hfill : (ci + 2 ^ (s.qreg q).log2 - (s.qreg q).ci) % 2 ^ (s.qreg q).log2 ≤ s.fill q) :
    Only [.queueRegs, .queueItems, .responses] s (s.writeCi q ci) ∧ ∀ j, (s.writeCi q ci).qreg j = (s.modQreg q (fun r => { r with ci := ci })).qreg j := by
  unfold State.writeCi
  rw [if_pos ⟨hlt, hfill⟩]
  dsimp only
  generalize hu : s.modQreg q (fun r => { r with ci := ci }) = u
  refine ⟨only_then (u := u) (hu ▸ ((steps_modQreg q _ s).mono (by decide)).only) ?_, fun j => ?_⟩
  · split
    · exact fun p hp => by cases p <;> simp [Part.same] at hp ⊢
    · exact fun p hp => by cases p <;> simp [Part.same] at hp ⊢
  · split
    · rfl
    · rfl
theorem exec_ringCiWrite_ignored {q : Fin 9} {ci : Nat}
    (h : q.val < 4 ∨ 2 ^ (s.qreg q).log2 ≤ ci ∨ s.fill q < (ci + 2 ^ (s.qreg q).log2 - (s.qreg q).ci) % 2 ^ (s.qreg q).log2) :
    exec (.ringCiWrite q ci) s = .next s := by
  refine (?_ : execRingCiWrite q ci s = _)
  unfold execRingCiWrite
  split
  case isFalse => rfl
  case isTrue hc =>
    rw [Bool.and_eq_true, decide_eq_true_eq] at hc
    unfold State.writeCi
    exact congrArg _ (if_neg (fun hi => by omega))
end
/-- Settles O49: each write of a queue's registers by the queue's kind, a flush by the queue it names. -/
theorem queueRegisters : Obligations.QueueRegisters := by
  unfold Obligations.QueueRegisters
  intro s
  refine ⟨fun hshut => ⟨fun q => ?_, fun q pi y ws => exec_commandRingDoorbell_ignored y ws (.inl hshut), fun q w => ?_, fun q ci => ?_, fun q => ?_⟩, fun hopen => ?_⟩
  · exact (if_pos (by rw [hshut]; rfl) : execQueueFlush q s = _)
  · exact (if_neg (by rw [hshut]; exact Bool.false_ne_true) : execRingEnableWrite q w s = _)
  · exact (if_neg (by rw [hshut]; exact Bool.false_ne_true) : execRingCiWrite q ci s = _)
  · exact (if_neg (by rw [hshut]; exact Bool.false_ne_true) : execWmLatchedClear q s = _)
  refine ⟨fun q => ⟨s.flushed q, exec_queueFlush hopen q, ⟨?_, ?_, ?_, ?_, ?_, ?_, ?_, ?_⟩, only_flushed q⟩,
    fun q pi y ws => ⟨fun h => exec_commandRingDoorbell_ignored y ws (.inr h), fun hon hlt horphan hlen hroom hgood => ?_⟩,
    fun q w h30 => ⟨fun h31 hoff h10 h20 => ?_, fun h31 hon => ?_⟩, fun q ci => ⟨exec_ringCiWrite_ignored, fun hq hlt hfill => ?_⟩, fun q => ?_⟩
  · intro k hq hk horphan
    rw [hq, State.flushed_set (by omega)]
    exact flushSet_ring hk horphan
  · intro k hq hk
    rw [hq]
    exact flushed_resp hk
  · intro hq
    rw [hq, State.flushed_set (by decide)]
    exact flushSet_eventRing.2
  · intro hq
    rw [hq, State.flushed_set (by decide)]
    exact flushSet_spi.2
  · intro hq
    rw [hq, State.flushed_set (by decide)]
    exact flushSet_spiResp.2
  · intro hq
    rw [hq, State.flushed_events]
    exact flushSet_events.2
  · intro k hq hk
    rw [hq, State.flushed_result]
    exact (resultFlush_mon hk).2
  · intro hq
    rw [hq, show 16 = 12 + 4 from rfl, State.flushed_result]
    exact resultFlush_tlm.2
  · obtain ⟨hsteps, hpi, hci, hitems, hothers⟩ := doorbell_commits (sync := y) q.isLt horphan hlen hroom hgood
    exact ⟨_, exec_commandRingDoorbell y ws hopen hon hlt, ⟨hpi, hci, hitems, hothers⟩, hsteps.only⟩
  · have hreg := State.qreg_modQreg_same q (QueueRegs.controlled false w.toNat) s (by omega)
    obtain ⟨honly, hplace⟩ := enableRing_enables q.isLt (s.modQreg q (.controlled false w.toNat))
    rw [hreg] at hplace
    obtain ⟨hpi, hci, hon, hlog, hint, hhold⟩ := QueueRegs.place_eq.mp hplace
    refine ⟨s.writeControl q w.toNat, (if_pos hopen : execRingEnableWrite q w s = _), ?_⟩
    rw [State.writeControl_on q.isLt h30 h31 hoff h10 h20]
    exact ⟨⟨hon, hpi, hci, hlog, hint, hhold⟩, only_then ((steps_modQreg ..).mono (by decide)).only honly⟩
  · have hreg := State.qreg_modQreg_same q (QueueRegs.controlled true w.toNat) s (by omega)
    obtain ⟨hsteps, hplace⟩ := disableRing_disables q.isLt (s.modQreg q (.controlled true w.toNat))
    rw [hreg] at hplace
    obtain ⟨hpi, hci, hoff, hlog, -⟩ := QueueRegs.place_eq.mp hplace
    refine ⟨s.writeControl q w.toNat, (if_pos hopen : execRingEnableWrite q w s = _), ?_⟩
    rw [State.writeControl_off h30 h31 hon]
    exact ⟨⟨hoff, hpi, hci, hlog⟩, (((steps_modQreg ..).mono (by decide)).trans hsteps).only⟩
  · obtain ⟨honly, hreg⟩ := writeCi_returns hlt hfill
    have hsame := State.qreg_modQreg_same q (fun r => { r with ci := ci }) s (by omega)
    refine ⟨s.writeCi q ci, (if_pos (by rw [hopen, decide_eq_true hq]; rfl) : execRingCiWrite q ci s = _), ⟨?_, ?_, fun j hj => ?_⟩, honly⟩
    · rw [hreg, hsame]
    · rw [hreg, hsame]
    · rw [hreg, State.qreg_modQreg_ne _ _ _ _ hj]
  · refine ⟨s.wmClear q, (if_pos hopen : execWmLatchedClear q s = _), ?_⟩
    obtain ⟨q, hq17⟩ := q
    dsimp only
    unfold State.wmClear
    split
    case isTrue h =>
      refine ⟨⟨fun _ => congrArg QueueRegs.wm (State.qreg_modQreg_same q _ s h), fun k hq hk => by omega, fun hq => by omega⟩, ((steps_modQreg ..).mono (by decide)).only⟩
    case isFalse h =>
      split
      case isTrue h' =>
        refine ⟨⟨fun hlt => absurd hlt h, fun k hq hk => ?_, fun hq => by omega⟩, ((steps_modMc ..).mono (by decide)).only⟩
        rw [show q - 12 = k by omega]
        exact monIs_modMc hk _ s
      case isFalse h' =>
        exact ⟨⟨fun hlt => absurd hlt h, fun k hq hk => by omega, fun _ => rfl⟩, only_mono (steps_tlmq _ s).only (by decide)⟩
end Sys2Proof.Machine
end

section
/-! The key slots of an engine and the commands upon them (O41). -/
namespace Sys2Proof.Machine

/-! ### A change of one engine -/

/-- A change of one engine, as `g` says, and of no other. -/
def EngineIs (e : Nat) (g : Engine → Engine) (s t : State) : Prop := t.eng e = g (s.eng e) ∧ OtherEngines e s t
section
variable {e : Nat} {g g' : Engine → Engine} {s u t : State}
theorem engineIs_modEng (he : e < 48) (g : Engine → Engine) (s : State) : EngineIs e g s (s.modEng e g) :=
  ⟨State.eng_modEng_same _ _ _ he, fun _ hj => State.eng_modEng_ne _ _ _ _ hj⟩
theorem EngineIs.trans (h : EngineIs e g s u) (h' : EngineIs e g' u t) : EngineIs e (fun x => g' (g x)) s t :=
  ⟨h'.1.trans (congrArg g' h.1), fun j hj => (h'.2 j hj).trans (h.2 j hj)⟩
theorem EngineIs.then {l : List Part} (h : EngineIs e g s u) (h' : Steps l u t) (hl : Part.engines ∉ l := by decide) : EngineIs e g s t :=
  ⟨(h'.eng e hl).trans h.1, fun j hj => (h'.eng j hl).trans (h.2 j hj)⟩
theorem EngineIs.of_engines (h : EngineIs e g u t) (hu : u.engines = s.engines) : EngineIs e g s t := by
  have heng : ∀ j, u.eng j = s.eng j := fun j => by rw [State.eng, State.eng, hu]
  exact ⟨h.1.trans (congrArg g (heng e)), fun j hj => (h.2 j hj).trans (heng j)⟩
theorem EngineIs.congr (h : EngineIs e g s t) (hg : g (s.eng e) = g' (s.eng e)) : EngineIs e g' s t := ⟨h.1.trans hg, h.2⟩
theorem steps_modEng (e : Nat) (g : Engine → Engine) (s : State) : Steps [.engines] s (s.modEng e g) :=
  steps_of_same (fun p hp => by cases p <;> simp [Part.same] at hp ⊢) rfl rfl
theorem steps_modKey (e : Nat) (f : KeyState → KeyState) (s : State) : Steps [.engines] s (s.modKey e f) := steps_modEng ..
end

/-! ### Key slots -/

/-- An engine with slot `i` holding `x`. -/
def Engine.slotted (i : Nat) (x : Option KeySlot) (g : Engine) : Engine := { g with key := { g.key with slots := vmod g.key.slots i (fun _ => x) } }
theorem vmod_const_twice {α : Type} {n : Nat} (v : Vector α n) (i : Nat) (a b : α) : vmod (vmod v i (fun _ => a)) i (fun _ => b) = vmod v i (fun _ => b) := by
  unfold vmod
  by_cases h : i < n
  · simp [h]
  · simp [h]
theorem Engine.slotted_twice (i : Nat) (x y : Option KeySlot) (g : Engine) : (g.slotted i x).slotted i y = g.slotted i y := by
  unfold Engine.slotted
  rw [vmod_const_twice]
theorem Engine.slotted_self {i : Nat} (hi : i < 4) (g : Engine) : g.slotted i (g.key.slot i) = g := by
  unfold Engine.slotted
  rw [vmod_vget_self _ _ _ none hi rfl]
section
variable {s : State} {e i : Nat}
theorem steps_expireSlot (e i : Nat) (s : State) : Steps (.engines :: eventParts) s (s.expireSlot e i) := by
  unfold State.expireSlot
  split
  · exact steps_ite (((steps_modKey ..).mono (by simp)).trans ((steps_raise ..).mono (by decide))) (.refl ..)
  · exact .refl ..
theorem expireSlot_expired {k : KeySlot} (hk : (s.keys e).slot i = some k) (h0 : k.expiry ≠ 0) (hdue : k.expiry ≤ s.tn) :
    s.expireSlot e i = (s.modEng e (·.slotted i none)).raise .keyExpired .engine e (w1 i ++ w1 k.id) := by
  unfold State.expireSlot
  simp only [hk]
  exact if_pos ⟨h0, hdue⟩
theorem expireSlot_raised {k : KeySlot} (hk : (s.keys e).slot i = some k) (h0 : k.expiry ≠ 0) (hdue : k.expiry ≤ s.tn) :
    Raised .keyExpired .engine e (w1 i ++ w1 k.id) s.tn (s.expireSlot e i) := by
  rw [expireSlot_expired hk h0 hdue]
  exact raised_raise_tn (State.modEng_tn ..)
/-- Whatever expiry makes of a slot, only that slot may differ. -/
theorem expireSlot_slots (he : e < 48) (hi : i < 4) : ∃ y, EngineIs e (·.slotted i y) s (s.expireSlot e i) := by
  have hsame : EngineIs e (·.slotted i ((s.keys e).slot i)) s s := ⟨(Engine.slotted_self hi _).symm, fun _ _ => rfl⟩
  unfold State.expireSlot
  split
  · split
    · exact ⟨none, (engineIs_modEng he (·.slotted i none) s).then (steps_raise ..)⟩
    · exact ⟨_, hsame⟩
  · exact ⟨_, hsame⟩
/-- A slot changed at a boundary by a KEY_LOAD or KEY_ERASE: an expired key in it is told first (R356). -/
theorem slotChange_of {op : Nat} {f : Cmd → State → State} {c : Cmd} {x : Option KeySlot} (hb : boundaryEffect op = f)
    (he : cIdx c < 48) (hi : cSub c < 4) (hf : f c s.disarmed = (s.disarmed.expireSlot (cIdx c) (cSub c)).modEng (cIdx c) (·.slotted (cSub c) x)) :
    SlotChange op c x s := by
  obtain ⟨y, hexpired⟩ := expireSlot_slots (s := s.disarmed) he hi
  have hset := steps_modEng (cIdx c) (·.slotted (cSub c) x) (s.disarmed.expireSlot (cIdx c) (cSub c))
  have hengine := (hexpired.trans (engineIs_modEng he (·.slotted (cSub c) x) _)).congr (Engine.slotted_twice ..)
  refine takesEffect_steps hb ?_ (by decide) (fun t ht => ?_)
  · rw [hf]
    exact (steps_expireSlot ..).trans (hset.mono (by decide))
  · rw [hf] at ht
    obtain ⟨heng, hothers⟩ := hengine.then ht
    refine ⟨heng, hothers, fun k hk h0 hdue => ?_⟩
    have hraised := expireSlot_raised (s := s.disarmed) hk h0 hdue
    exact (hraised.keep hset).keep ht
end

/-! ### The key commands -/

/-- What a row that is answered at its boundary does there is the effect that stands in the row. -/
theorem boundaryEffect_of_late {op cls : Nat} {sp : OpSpec} {f : Cmd → State → State} (hrow : opTable op = some sp)
    (heff : sp.eff = .atBoundary cls f) (hcap : op ≠ 0x101) (hfence : op ≠ 0xA02) : boundaryEffect op = f := by
  simp [boundaryEffect, hrow, heff, hcap, hfence]
theorem keyLoad_effect : boundaryEffect 0x501 = fun c s => match s.openBlob c with
    | some k => (s.expireSlot (cIdx c) (cSub c)).modKey (cIdx c) (fun x => { x with slots := vmod x.slots (cSub c) (fun _ => some k) })
    | none => s :=
  boundaryEffect_of_late opTable_KeyLoad rfl (by decide) (by decide)
/-- A command whose effect answers others besides itself (R44). -/
theorem does_answering {sp : OpSpec} {f : Cmd → State → State × List Word} {l : List Part} {P : State → Prop} {ws : List Word} {c : Cmd} {s v : State}
    (h : Ready sp c s = true) (he : sp.eff = .now f) (ha : sp.onAccept = fun _ s => s) (hf : f c (s.atParse sp.code c) = (v, ws))
    (hv : Steps (l ++ answerParts) (s.atParse sp.code c) v) (hl : Part.tn ∉ l ++ answerParts) (hP : ∀ t, Steps finalParts v t → P t) :
    Does sp.code c ws l P s (runOp sp c s) := by
  have hparsed : Only (l ++ answerParts) s (s.atParse sp.code c) := only_mono (only_atParse sp.code c s) (fun p => List.mem_append_right _)
  refine does_now sp f _ _ c s ws h he ha (by rw [hf]) ?_ ?_ ?_ <;> rw [hf]
  · exact (hv.tn hl).trans (State.atParse_tn ..)
  · exact hP _ (steps_final ..)
  · exact only_then hparsed (hv.trans ((steps_final ..).mono (fun p hp => List.mem_append_right l ((by decide : ∀ p ∈ finalParts, p ∈ answerParts) p hp)))).only
/-- What KEY_RX_SWITCH does: a pending KEY_RX_FOLLOW is dropped, and the switch waits for its far-end TN. -/
def keyRxSwitched (c : Cmd) (s : State) : State :=
  (s.cancelArmed (fun a => a.key == keyOf 0x505 c) .superseded c.tag.val).modEng (cIdx c)
    (fun g => { g with key := { g.key with rxSwitch := some (cw c 1, cw2 c 2) } })
theorem keyRxSwitch_effect : specKeyRxSwitch.eff = .now (fun c s => (keyRxSwitched c s, [])) := rfl
theorem steps_cancelArmed (p : Armed → Bool) (st : Status) (d : Nat) (s : State) : Steps (.armed :: finalParts) s (s.cancelArmed p st d) :=
  (acts_cancelArmed 0 p st d s).steps_of_engines (State.cancelArmed_engines ..)
theorem keyRxSwitched_switches {c : Cmd} (he : cIdx c < 48) (s : State) :
    Steps (.engines :: .armed :: finalParts) s (keyRxSwitched c s)
      ∧ EngineIs (cIdx c) (fun g => { g with key := { g.key with rxSwitch := some (cw c 1, cw2 c 2) } }) s (keyRxSwitched c s)
      ∧ (keyRxSwitched c s).proto.armed = s.proto.armed.filter (fun a => !(a.key == keyOf 0x505 c)) := by
  have hcancel := steps_cancelArmed (fun a => a.key == keyOf 0x505 c) .superseded c.tag.val s
  refine ⟨(hcancel.mono (by decide)).trans ((steps_modEng ..).mono (by simp)), (engineIs_modEng he _ _).of_engines (State.cancelArmed_engines ..), ?_⟩
  exact State.cancelArmed_proto_armed ..
/-- Settles O41: a slot's commands by what they leave in it, the others by the field they write. -/
theorem keyCommands : Obligations.KeyCommands := by
  unfold Obligations.KeyCommands
  intro c s
  refine ⟨fun h => ?_, fun h => ?_, fun he hi => ⟨fun x hx => ?_, fun hx => ?_⟩, fun h => ?_, fun he hi => ?_, fun h => ?_, fun he => ?_, fun h => ?_,
    fun h => ?_, fun he => ?_, fun h => ?_⟩
  · have hlt := ready_engine _ c s h rfl
    have hset := engineIs_modEng hlt (fun g => { g with key := { g.key with none := cw c 1 == 1, linkSide := cw c 2 == 1 } }) (s.atParse 0x500 c)
    have hkeys : (s.atParse 0x500 c).keys (cIdx c) = s.keys (cIdx c) := by
      simp only [State.keys, State.eng, State.atParse_engines]
    refine does_steps (l := .engines :: eventParts) h rfl rfl rfl ?_ (by decide) (fun t ht => ?_)
    · exact steps_ite (((steps_modEng ..).mono (by simp)).trans ((steps_raise ..).mono (by decide))) ((steps_modEng ..).mono (by simp))
    · have hraised : ∀ u : State, Steps eventParts u (if cw c 1 = 1 ∧ !((s.atParse 0x500 c).keys (cIdx c)).none then
          u.raise .cryptoClear .engine (cIdx c) [] else u) := fun u => steps_ite (steps_raise ..) (.refl ..)
      obtain ⟨heng, hothers⟩ := ((hset.of_engines (State.atParse_engines ..)).then (hraised _)).then ht
      refine ⟨heng, hothers, fun h1 hnone => Raised.keep ?_ ht⟩
      have hentered : cw c 1 = 1 ∧ (!((s.atParse specEngineCryptoSet.code c).keys (cIdx c)).none) = true := ⟨h1, (congrArg (fun k => !k.none) hkeys).trans (congrArg not hnone)⟩
      rw [if_pos hentered]
      exact raised_raise_tn ((State.modEng_tn ..).trans (State.atParse_tn ..))
  · exact armsLate_boundary h rfl rfl
  · refine slotChange_of keyLoad_effect he hi ?_
    have hopen : s.disarmed.openBlob c = some x := hx
    simp only [hopen]
    rfl
  · have hkeep : (match s.disarmed.openBlob c with
        | some k => (s.disarmed.expireSlot (cIdx c) (cSub c)).modKey (cIdx c) (fun x => { x with slots := vmod x.slots (cSub c) (fun _ => some k) })
        | none => s.disarmed) = s.disarmed := by
      have hopen : s.disarmed.openBlob c = none := hx
      rw [hopen]
    refine takesEffect_steps keyLoad_effect ?_ (by decide) (fun _ _ => trivial)
    rw [hkeep]
    exact .refl ..
  · exact arms_boundary specKeyErase 0x501 _ c s h rfl rfl
  · exact slotChange_of (boundaryEffect_of_row opTable_KeyErase rfl (by decide) (by decide)) he hi rfl
  · exact arms_boundary specKeyTxSwitch 0x503 _ c s h rfl rfl
  · have hset := engineIs_modEng he (fun g => { g with key := { g.key with index := cw c 1 } }) s.disarmed
    refine takesEffect_steps (boundaryEffect_of_row opTable_KeyTxSwitch rfl (by decide) (by decide)) ?_ (by decide) (fun t ht => ?_)
    · exact ((steps_modKey ..).mono (by simp)).trans ((steps_raise ..).mono (by decide))
    · obtain ⟨heng, hothers⟩ := (hset.then (steps_raise ..)).then ht
      have hraised : Raised .keySwitched .engine (cIdx c) (w1 0 ++ w1 (cw c 1) ++ w2 s.tn) s.tn ((s.disarmed.modEng (cIdx c) (fun g =>
          { g with key := { g.key with index := cw c 1 } })).raise .keySwitched .engine (cIdx c) (w1 0 ++ w1 (cw c 1) ++ w2 s.tn)) :=
        raised_raise_tn (State.modEng_tn ..)
      exact ⟨heng, hothers, hraised.keep ht⟩
  · have hlt := ready_engine _ c s h rfl
    obtain ⟨hsteps, hset, harmed⟩ := keyRxSwitched_switches hlt (s.atParse 0x504 c)
    refine does_answering h keyRxSwitch_effect rfl rfl (hsteps.mono (by decide)) (by decide) (fun t ht => ?_)
    obtain ⟨heng, hothers⟩ := (hset.of_engines (State.atParse_engines ..)).then ht
    have hnow : t.proto.armed = s.proto.armed.filter (fun a => !(a.key == keyOf 0x505 c)) :=
      (ht.only .armed (by decide)).trans (harmed.trans (congrArg _ (State.atParse_proto_armed ..)))
    refine ⟨heng, hothers, fun a ha hkey => ?_, fun a ha hkey => ?_⟩
    · rw [hnow, List.mem_filter] at ha
      simp [hkey] at ha
    · rw [hnow, List.mem_filter]
      exact ⟨ha, by simp [hkey]⟩
  · exact arms_boundary specKeyRxFollow 0x505 _ c s h rfl rfl
  · exact engineChange_of _ _ _ c s he (boundaryEffect_of_row opTable_KeyRxFollow rfl (by decide) (by decide)) (fun _ => rfl)
  · exact reports_now specKeyStatus _ c s _ h rfl rfl rfl (by simp [State.keys])
end Sys2Proof.Machine
end

section
/-! The domain, the Tag block and the test port (O42). -/
namespace Sys2Proof.Machine

/-! ### Slots emptied (R353) -/

/-- An engine whose four key slots are empty. -/
def Engine.keyless (g : Engine) : Engine := { g with key := { g.key with slots := Vector.replicate 4 none } }
/-- What emptying key slots may move. -/
def erasureParts : List Part := .engines :: .armed :: (finalParts ++ eventParts)
section
variable {s : State} {e i : Nat} {why : EraseCause}
theorem steps_emptySlot (e i : Nat) (why : EraseCause) (s : State) : Steps erasureParts s (s.emptySlot e i why) := by
  have hdrop : ∀ p, Steps erasureParts s (if why = .realign then s else s.cancelArmed p .cancelled Ev.keyErased.code) :=
    fun p => steps_ite (.refl ..) ((steps_cancelArmed ..).mono (by decide))
  unfold State.emptySlot
  refine (hdrop _).trans (steps_ite (((steps_modKey ..).mono (by decide)).trans ((steps_raise ..).mono (by decide))) (.refl ..))
theorem emptySlot_empties (he : e < 48) (hi : i < 4) : EngineIs e (·.slotted i none) s (s.emptySlot e i why)
    ∧ (((s.keys e).slot i).isSome = true → Raised .keyErased .engine e (w1 why.code) s.tn (s.emptySlot e i why)) := by
  have hdrop : ∀ p, Steps (.armed :: finalParts) s (if why = .realign then s else s.cancelArmed p .cancelled Ev.keyErased.code) :=
    fun p => steps_ite (.refl ..) (steps_cancelArmed ..)
  unfold State.emptySlot
  dsimp only
  generalize hu : (if why = .realign then s else s.cancelArmed _ .cancelled Ev.keyErased.code) = u
  have hdropped : Steps (.armed :: finalParts) s u := hu ▸ hdrop _
  have hkeys : u.keys e = s.keys e := congrArg Engine.key (hdropped.eng e)
  have hengines : u.engines = s.engines := hdropped.only .engines (by decide)
  rw [hkeys]
  by_cases hloaded : ((s.keys e).slot i).isSome = true
  · rw [if_pos hloaded]
    refine ⟨((engineIs_modEng he (·.slotted i none) u).of_engines hengines).then (steps_raise ..), fun _ => raised_raise_tn ?_⟩
    exact (State.modEng_tn ..).trans hdropped.tn
  · rw [if_neg hloaded]
    refine ⟨⟨?_, fun j _ => hdropped.eng j⟩, fun h => absurd h hloaded⟩
    rw [hdropped.eng e]
    have hself := Engine.slotted_self hi (s.eng e)
    rw [show (s.eng e).key.slot i = none from Option.not_isSome_iff_eq_none.mp hloaded] at hself
    exact hself.symm
theorem KeyState.slot_slotted {i j : Nat} (h : j ≠ i) (x : Option KeySlot) (g : Engine) : (g.slotted i x).key.slot j = g.key.slot j :=
  vget_vmod_ne _ _ _ _ _ h
/-- The slots of a list are emptied, each told where it was LOADED. -/
theorem emptySlots_empties (he : e < 48) (l : List Nat) (hl : ∀ i ∈ l, i < 4) (s : State) :
    Steps erasureParts s (s.emptySlots e l why) ∧ EngineIs e (fun g => l.foldl (fun g i => g.slotted i none) g) s (s.emptySlots e l why)
      ∧ (l.Nodup → ∀ i ∈ l, ((s.keys e).slot i).isSome = true → Raised .keyErased .engine e (w1 why.code) s.tn (s.emptySlots e l why)) := by
  induction l generalizing s with
  | nil => exact ⟨.refl .., ⟨rfl, fun _ _ => rfl⟩, fun _ i hi => absurd hi List.not_mem_nil⟩
  | cons i l ih =>
    have hfirst := steps_emptySlot e i why s
    obtain ⟨hslot, htold⟩ := emptySlot_empties (s := s) (why := why) he (hl i List.mem_cons_self)
    obtain ⟨hrest, hslots, htolds⟩ := ih (fun j hj => hl j (List.mem_cons_of_mem _ hj)) (s.emptySlot e i why)
    refine ⟨hfirst.trans hrest, hslot.trans hslots, fun hnodup j hj hloaded => ?_⟩
    obtain ⟨hnot, hnodup⟩ := List.nodup_cons.mp hnodup
    rcases List.mem_cons.mp hj with rfl | hj
    · exact (htold hloaded).keep hrest
    · have hother : ((s.emptySlot e i why).keys e).slot j = (s.keys e).slot j :=
        (congrArg (fun g => g.key.slot j) hslot.1).trans (KeyState.slot_slotted (fun h : j = i => hnot (h ▸ hj)) none _)
      rw [← hfirst.tn]
      exact htolds hnodup j hj (hother ▸ hloaded)
theorem Engine.slotted_all (g : Engine) : [0, 1, 2, 3].foldl (fun g i => g.slotted i none) g = g.keyless := by
  have hslots : vmod (vmod (vmod (vmod g.key.slots 0 (fun _ => none)) 1 (fun _ => none)) 2 (fun _ => none)) 3 (fun _ => none) = Vector.replicate 4 none := by
    ext j hj
    simp only [vmod]
    interval_cases j <;> simp
  simp only [List.foldl, Engine.slotted, Engine.keyless, hslots]
theorem emptyEngine_empties (he : e < 48) (s : State) : Steps erasureParts s (s.emptySlots e [0, 1, 2, 3] why)
    ∧ EngineIs e Engine.keyless s (s.emptySlots e [0, 1, 2, 3] why)
    ∧ ∀ i, i < 4 → ((s.keys e).slot i).isSome = true → Raised .keyErased .engine e (w1 why.code) s.tn (s.emptySlots e [0, 1, 2, 3] why) := by
  obtain ⟨hsteps, hengine, htold⟩ := emptySlots_empties (why := why) he [0, 1, 2, 3] (by decide) s
  exact ⟨hsteps, hengine.congr (Engine.slotted_all _), fun i hi => htold (by decide) i (by simp; omega)⟩
/-- The slots of the engines of a list are emptied, and of no other. -/
theorem emptyEngines_empties (l : List Nat) (hl : ∀ e ∈ l, e < 48) (hnodup : l.Nodup) (s : State) :
    Steps erasureParts s (l.foldl (fun s e => s.emptySlots e [0, 1, 2, 3] why) s)
      ∧ (∀ e, e ∉ l → (l.foldl (fun s e => s.emptySlots e [0, 1, 2, 3] why) s).eng e = s.eng e)
      ∧ ∀ e ∈ l, (l.foldl (fun s e => s.emptySlots e [0, 1, 2, 3] why) s).eng e = (s.eng e).keyless
        ∧ ∀ i, i < 4 → ((s.keys e).slot i).isSome = true →
          Raised .keyErased .engine e (w1 why.code) s.tn (l.foldl (fun s e => s.emptySlots e [0, 1, 2, 3] why) s) := by
  induction l generalizing s with
  | nil => exact ⟨.refl .., fun _ _ => rfl, fun e he => absurd he List.not_mem_nil⟩
  | cons x l ih =>
    obtain ⟨hnot, hnodup⟩ := List.nodup_cons.mp hnodup
    obtain ⟨hfirst, ⟨heng, hothers⟩, htold⟩ := emptyEngine_empties (why := why) (hl x List.mem_cons_self) s
    obtain ⟨hrest, hkept, hemptied⟩ := ih (fun j hj => hl j (List.mem_cons_of_mem _ hj)) hnodup (s.emptySlots x [0, 1, 2, 3] why)
    rw [List.foldl_cons]
    refine ⟨hfirst.trans hrest, fun e he => ?_, fun e he => ?_⟩
    · obtain ⟨hne, hout⟩ := not_or.mp (mt List.mem_cons.mpr he)
      exact (hkept e hout).trans (hothers e hne)
    · rcases List.mem_cons.mp he with rfl | he
      · exact ⟨(hkept e hnot).trans heng, fun i hi hloaded => (htold i hi hloaded).keep hrest⟩
      · have hsame := hothers e (fun h => hnot (h ▸ he))
        obtain ⟨hnow, htolds⟩ := hemptied e he
        refine ⟨hnow.trans (congrArg _ hsame), fun i hi hloaded => ?_⟩
        rw [← hfirst.tn]
        exact htolds i hi (by rw [State.keys, hsame]; exact hloaded)
/-- The settings of a Kennel without a domain. -/
def Settings.undomained (k : Settings) : Settings := { k with domainSet := false, odv := [], kek := [], binding := [] }
theorem steps_modSettings (f : Settings → Settings) (s : State) : Steps [.settings] s (s.modSettings f) := (moves_modSettings f s).steps
theorem domainClear_clears (why : EraseCause) (s : State) : Steps (.settings :: erasureParts) s (s.domainClear why)
    ∧ (s.domainClear why).kennel.settings = s.kennel.settings.undomained
    ∧ ∀ e : Fin 48, (s.domainClear why).eng e = (s.eng e).keyless
      ∧ ∀ i, i < 4 → ((s.keys e).slot i).isSome = true → Raised .keyErased .engine e (w1 why.code) s.tn (s.domainClear why) := by
  obtain ⟨hsteps, -, hemptied⟩ := emptyEngines_empties (why := why) (List.range 48) (fun e he => List.mem_range.mp he) List.nodup_range s
  have hset := steps_modSettings Settings.undomained (s.emptyAll why)
  have hsame : (s.emptyAll why).kennel.settings = s.kennel.settings := (hsteps.only .settings (by decide)).1
  refine ⟨(hsteps.mono (by decide)).trans (hset.mono (by simp)), congrArg Settings.undomained hsame, fun e => ?_⟩
  obtain ⟨heng, htold⟩ := hemptied e (List.mem_range.mpr e.isLt)
  exact ⟨heng, fun i hi hloaded => (htold i hi hloaded).keep hset⟩
end

/-! ### Commands whose result is signed (R361, R365) -/

section
variable {c : Cmd} {s : State}
theorem steps_sec (x : Security) (s : State) : Steps [.sec] s { s with sec := x } :=
  steps_of_same (fun p hp => by cases p <;> simp [Part.same, State.tile] at hp ⊢) rfl rfl
theorem steps_freeCtr (n : Nat) (s : State) : Steps [.freeCtr] s { s with freeCtr := n } :=
  steps_of_same (fun p hp => by cases p <;> simp [Part.same, State.tile] at hp ⊢) rfl rfl
/-- A class L command begins under its own ticket. -/
theorem begins_ticketed {sp : OpSpec} {f : Job → Cmd → State → State} {parts l : List Part} {P : State → Prop}
    (h : Ready sp c s = true) (he : sp.eff = .long f) (ha : sp.onAccept = fun _ s => s)
    (hf : ∀ j u, j.ticket = ticketNow sp.code c s → Only answerParts s u →
      Steps l u (f j c u) ∧ j ∈ (f j c u).proto.jobs ∧ P (f j c u))
    (hl : ∀ p ∈ l, p ∈ Part.jobs :: (parts ++ answerParts)) : Begins sp.code c parts P s (runOp sp c s) := by
  refine ⟨_, runOp_ready _ _ _ h, ?_⟩
  simp only [carryOut, he, ha]
  have hu : Only answerParts s ((s.atParse sp.code c).respond (ticketNow sp.code c s) false .ok 0 (s.atParse sp.code c).tn []) :=
    fun p hp => by cases p <;> simp [answerParts, Part.same] at hp ⊢
  have hA : Answered sp.code c false .ok 0 s.tn [] ((s.atParse sp.code c).respond (ticketNow sp.code c s) false .ok 0 (s.atParse sp.code c).tn []) := by
    rw [State.atParse_tn]
    exact answered_respond sp.code c false .ok 0 s.tn [] s.proto.nextSeq (s.atParse sp.code c)
  obtain ⟨hsteps, hj, hP⟩ := hf { ticket := ticketNow sp.code c s, cmd := c, chan := sp.chan c, lastProgress := (s.atParse sp.code c).ticks } _ rfl hu
  exact ⟨hP, begun_of_steps rfl rfl hu hA hsteps hj hl⟩
theorem begins_signing_sec {op : Nat} {j : Job} {u : State} (hj : j.ticket = ticketNow op c s) (hu : Only answerParts s u) (ws : List Word) :
    ({ u.sec with signing := u.sec.signing ++ [(j.ticket.seq, ws)] } : Security) = { s.sec with signing := s.sec.signing ++ [(s.proto.nextSeq, ws)] } := by
  rw [show u.sec = s.sec from hu .sec (by decide), hj]
  rfl
/-- A signing begins: the job runs, and its result waits at the end of the list. -/
theorem beginSigning_begins (j : Job) (ws : List Word) (u : State) : Steps [.jobs, .sec] u (u.beginSigning j ws)
    ∧ j ∈ (u.beginSigning j ws).proto.jobs ∧ (u.beginSigning j ws).sec = { u.sec with signing := u.sec.signing ++ [(j.ticket.seq, ws)] } := by
  have hsec := steps_sec { u.sec with signing := u.sec.signing ++ [(j.ticket.seq, ws)] } (u.startJob j)
  exact ⟨((steps_startJob j u).mono (by simp)).trans (hsec.mono (by simp)), mem_startJob j u, rfl⟩
/-- The settings of a domain that is enrolled with the draw of `s`. -/
def State.enrolled (c : Cmd) (s : State) : State :=
  ({ s with freeCtr := s.freeCtr + 3 } : State).modSettings (fun k => { k with
    domainSet := true, odv := unpackWords ((c.words.drop 1).take 8), kek := deriveKek (unpackWords ((c.words.drop 1).take 8))
    binding := randomOctets 32 s.freeCtr, ivGen := 0 })
theorem specDomainEnrol_eff : specDomainEnrol.eff = .long (fun j c s =>
    (s.enrolled c).beginSigning j (enrolWords c (deriveKek (unpackWords ((c.words.drop 1).take 8))) (s.freeCtr + 1))) := rfl
theorem domainEnrol_begins (h : Ready specDomainEnrol c s = true) : Begins 0x510 c [.freeCtr, .settings, .sec] (fun t =>
    t.kennel.settings = { s.kennel.settings with
      domainSet := true, odv := unpackWords ((c.words.drop 1).take 8)
      kek := deriveKek (unpackWords ((c.words.drop 1).take 8))
      binding := randomOctets 32 s.freeCtr, ivGen := 0 }
    ∧ t.freeCtr = s.freeCtr + 3
    ∧ t.sec = { s.sec with signing := s.sec.signing ++ [(s.proto.nextSeq,
        enrolWords c (deriveKek (unpackWords ((c.words.drop 1).take 8))) (s.freeCtr + 1))] }) s (exec (.domainEnrol c) s) := by
  refine begins_ticketed (l := [.jobs, .freeCtr, .settings, .sec]) h specDomainEnrol_eff rfl (fun j u hj hu => ?_) (by decide)
  have hsettings : u.kennel.settings = s.kennel.settings := (hu .settings (by decide)).1
  have hdraw : u.freeCtr = s.freeCtr := hu .freeCtr (by decide)
  have henrol : Steps [.freeCtr, .settings] u (u.enrolled c) := ((steps_freeCtr ..).mono (by simp)).trans ((steps_modSettings ..).mono (by simp))
  obtain ⟨hsign, hjobs, hsec⟩ := beginSigning_begins j (enrolWords c (deriveKek (unpackWords ((c.words.drop 1).take 8))) (u.freeCtr + 1)) (u.enrolled c)
  refine ⟨(henrol.mono (by decide)).trans (hsign.mono (by decide)), hjobs, ?_, congrArg (· + 3) hdraw, ?_⟩
  · rw [← hdraw, ← hsettings]
    rfl
  · rw [← hdraw]
    exact hsec.trans (begins_signing_sec hj hu _)
theorem State.attestWords_of_answer {u : State} (hu : Only answerParts s u) : u.attestWords c = s.attestWords c := by
  have hengines : u.engines = s.engines := hu .engines (by decide)
  have hsettings : u.kennel.settings = s.kennel.settings := (hu .settings (by decide)).1
  have hsec : u.sec = s.sec := hu .sec (by decide)
  have htime : u.time = s.time := hu .time (by decide)
  have htn : u.tn = s.tn := hu .tn (by decide)
  have hfree : u.freeCtr = s.freeCtr := hu .freeCtr (by decide)
  have hoffset : u.tickOffset = s.tickOffset := hu .tickOffset (by decide)
  have hslot : u.dev.fwSlot = s.dev.fwSlot := (hu .devRegs (by decide)).2.1
  simp only [State.attestWords, State.attestBody, State.keyIds, State.keys, State.eng, State.nowTai, State.taiAt, hengines, hsettings, hsec, htime, htn, hoffset, hfree, hslot]
theorem attestReport_begins (h : Ready specAttestReport c s = true) : Begins 0x513 c [.freeCtr, .sec] (fun t => t.freeCtr = s.freeCtr + 1
    ∧ t.sec = { s.sec with signing := s.sec.signing ++ [(s.proto.nextSeq, s.attestWords c)] }) s (exec (.attestReport c) s) := by
  refine begins_ticketed (l := [.jobs, .freeCtr, .sec]) h rfl rfl (fun j u hj hu => ?_) (by decide)
  obtain ⟨hsign, hjobs, hsec⟩ := beginSigning_begins j (u.attestWords c) { u with freeCtr := u.freeCtr + 1 }
  refine ⟨((steps_freeCtr ..).mono (by simp)).trans (hsign.mono (by simp)), hjobs, congrArg (· + 1) (hu .freeCtr (by decide) : u.freeCtr = s.freeCtr), ?_⟩
  rw [← State.attestWords_of_answer hu]
  exact hsec.trans (begins_signing_sec hj hu _)
theorem tagSignatureDone_ends {q : Nat} {ws : List Word} {r : List (Nat × List Word)} (hs : s.sec.signing = (q, ws) :: r) :
    Happens [.sec, .jobs, .responses, .queueRegs, .msix, .alertN] (fun t => t.sec = { s.sec with signing := r }
      ∧ ∀ j ∈ s.proto.jobs, j.ticket.seq = q → j.ticket.opcode = 0x510 ∨ j.ticket.opcode = 0x513 → Ended j .ok 0 s.tn ws t) s
      (exec .tagSignatureDone s) := by
  have hsec : Only [.sec] s { s with sec := { s.sec with signing := r } } :=
    fun p hp => by cases p <;> simp [Part.same, State.tile] at hp ⊢
  have hexec : exec .tagSignatureDone s = .next (({ s with sec := { s.sec with signing := r } } : State).finishJobs
      (fun j => j.ticket.seq == q && (j.ticket.opcode == 0x510 || j.ticket.opcode == 0x513)) .ok 0 ws) := by
    refine (?_ : execTagSignatureDone s = _)
    unfold execTagSignatureDone
    simp only [hs]
  generalize hu : ({ s with sec := { s.sec with signing := r } } : State) = u at hexec hsec
  have hjobs : u.proto.jobs = s.proto.jobs := hu ▸ rfl
  have htn : u.tn = s.tn := hu ▸ rfl
  have hdone := steps_finishJobs (fun j => j.ticket.seq == q && (j.ticket.opcode == 0x510 || j.ticket.opcode == 0x513)) .ok 0 ws u
  refine ⟨_, hexec, ⟨(hdone.only .sec (by decide)).trans (hu ▸ rfl), fun j hj hseq hop => ?_⟩,
    only_then (only_mono hsec (by decide)) (only_mono hdone.only (by decide))⟩
  rw [← htn]
  exact ended_finishJobs .ok 0 ws (hjobs ▸ hj) (by simpa [hseq] using hop)
end

/-! ### Slots and the port -/

theorem execKeyExpiry_expires {e : Fin 48} {i : Fin 4} {k : KeySlot} {s : State} (hk : (s.keys e).slot i = some k) (h0 : k.expiry ≠ 0) (hdue : k.expiry ≤ s.tn) :
    AtEngine e eventParts (fun t => t.eng e = { s.eng e with key := { s.keys e with slots := vmod (s.keys e).slots i (fun _ => none) } }
      ∧ Raised .keyExpired .engine e (w1 i ++ w1 k.id) s.tn t) s (exec (.keyExpiry e i) s) := by
  have hset := (engineIs_modEng e.isLt (·.slotted i none) s).then (steps_raise .keyExpired .engine e (w1 i ++ w1 k.id) _)
  rw [← expireSlot_expired hk h0 hdue] at hset
  exact ⟨_, rfl, ⟨⟨hset.1, expireSlot_raised hk h0 hdue⟩, hset.2⟩, (steps_expireSlot e i s).only⟩
theorem testportChallenge_does {c : Cmd} {s : State} (h : Ready specTestportChallenge c s = true) :
    Does 0x514 c (packOctets (randomOctets 32 s.freeCtr)) [.freeCtr, .sec] (fun t => t.freeCtr = s.freeCtr + 1
      ∧ t.sec = { s.sec with challenge := some (randomOctets 32 s.freeCtr) }) s (exec (.testportChallenge c) s) := by
  have hparsed : Only answerParts s (s.atParse 0x514 c) := only_atParse _ c s
  have hfree : (s.atParse 0x514 c).freeCtr = s.freeCtr := hparsed .freeCtr (by decide)
  have hsec : (s.atParse 0x514 c).sec = s.sec := hparsed .sec (by decide)
  rw [← hfree, ← hsec]
  refine does_answering (l := [.freeCtr, .sec]) h rfl rfl rfl ?_ (by decide) (fun t ht => ⟨ht.only .freeCtr (by decide), ht.only .sec (by decide)⟩)
  exact ((steps_freeCtr ..).mono (by decide)).trans ((steps_sec _ { s.atParse 0x514 c with freeCtr := (s.atParse 0x514 c).freeCtr + 1 }).mono (by decide))
/-- A command that acts at once, from any state its parsing may leave. -/
theorem does_parsed {sp : OpSpec} {f : State → State} {l : List Part} {P : State → Prop} {c : Cmd} {s : State}
    (h : Ready sp c s = true) (he : sp.eff = .now (fun _ s => (f s, []))) (ha : sp.onAccept = fun _ s => s)
    (hf : ∀ u, Only answerParts s u → Steps (l ++ answerParts) u (f u) ∧ ∀ t, Steps finalParts (f u) t → P t)
    (hl : Part.tn ∉ l ++ answerParts) : Does sp.code c [] l P s (runOp sp c s) :=
  have hparsed := hf _ (only_atParse sp.code c s)
  does_answering h he ha rfl hparsed.1 hl hparsed.2
/-- A class L command that is over at once. -/
theorem does_long {sp : OpSpec} {f : State → State} {l : List Part} {P : State → Prop} {c : Cmd} {s : State}
    (h : Ready sp c s = true) (he : sp.eff = .long (fun j _ s => (f s).final j.ticket .ok 0 [])) (ha : sp.onAccept = fun _ s => s)
    (hf : ∀ u, Only answerParts s u → Steps (l ++ answerParts) u (f u) ∧ ∀ t, Steps finalParts (f u) t → P t)
    (hl : Part.tn ∉ l ++ answerParts) : Does sp.code c [] l P s (runOp sp c s) := by
  refine ⟨_, runOp_ready _ _ _ h, ?_⟩
  simp only [carryOut, he, ha]
  have hu : Only answerParts s ((s.atParse sp.code c).respond (ticketNow sp.code c s) false .ok 0 (s.atParse sp.code c).tn []) :=
    fun p hp => by cases p <;> simp [answerParts, Part.same] at hp ⊢
  obtain ⟨hsteps, hP⟩ := hf _ hu
  refine ⟨hP _ (steps_final ..), answeredOk_final _ _ _ _ _ ((hsteps.tn hl).trans (hu .tn (by decide))), ?_⟩
  refine only_then (only_mono hu (fun p => List.mem_append_right _)) (hsteps.trans ((steps_final ..).mono ?_)).only
  exact fun p hp => List.mem_append_right l ((by decide : ∀ p ∈ finalParts, p ∈ answerParts) p hp)
/-- The test port opens. -/
def State.openPort (s : State) : State :=
  let s : State := { s with sec := { s.sec with testOpen := true } }
  s.raise .testportOpened .device 0 (w2 s.tn)
theorem specTestportUnlock_eff : specTestportUnlock.eff = .long (fun j _ s => (s.domainClear .testPort).openPort.final j.ticket .ok 0 []) := rfl
theorem openPort_opens (v : State) : Steps (.sec :: eventParts) v v.openPort ∧ v.openPort.sec = { v.sec with testOpen := true }
    ∧ Raised .testportOpened .device 0 (w2 v.tn) v.tn v.openPort := by
  have hsec := steps_sec { v.sec with testOpen := true } v
  have htold : Steps eventParts { v with sec := { v.sec with testOpen := true } } v.openPort := steps_raise ..
  exact ⟨(hsec.mono (by decide)).trans (htold.mono (by decide)), htold.only .sec (by decide), raised_raise_tn rfl⟩
/-- A state after DOMAIN_CLEAR's effect, with the engines and settings of `s` before. -/
theorem domainClear_leaves {s u t : State} (why : EraseCause) (hu : Only answerParts s u) (ht : Steps finalParts (u.domainClear why) t) :
    t.kennel.settings = s.kennel.settings.undomained ∧ ∀ e : Fin 48, t.eng e = (s.eng e).keyless
      ∧ ∀ i, i < 4 → ((s.keys e).slot i).isSome = true → Raised .keyErased .engine e (w1 why.code) s.tn t := by
  obtain ⟨-, hset, hkeys⟩ := domainClear_clears why u
  have hbefore : u.kennel.settings = s.kennel.settings := (hu .settings (by decide)).1
  refine ⟨((ht.only .settings (by decide)).1.trans hset).trans (congrArg _ hbefore), fun e => ?_⟩
  obtain ⟨heng, htold⟩ := hkeys e
  have hsame := eng_of_only hu (by decide) e
  refine ⟨((ht.eng e).trans heng).trans (congrArg _ hsame), fun i hi hloaded => Raised.keep ?_ ht⟩
  rw [← show u.tn = s.tn from hu .tn (by decide)]
  exact htold i hi (by rw [State.keys, hsame]; exact hloaded)
theorem testportUnlock_does {c : Cmd} {s : State} (h : Ready specTestportUnlock c s = true) :
    Does 0x515 c [] (.engines :: .armed :: .settings :: .sec :: eventParts) (fun t =>
      t.kennel.settings = { s.kennel.settings with domainSet := false, odv := [], kek := [], binding := [] }
      ∧ t.sec = { s.sec with testOpen := true }
      ∧ (∀ e : Fin 48, t.eng e = { s.eng e with key := { s.keys e with slots := Vector.replicate 4 none } })
      ∧ Raised .testportOpened .device 0 (w2 s.tn) s.tn t) s (exec (.testportUnlock c) s) := by
  refine does_long (f := fun u => (u.domainClear .testPort).openPort) h specTestportUnlock_eff rfl (fun u hu => ?_) (by decide)
  have hcleared := domainClear_leaves .testPort hu (.refl ..)
  obtain ⟨hclear, -, -⟩ := domainClear_clears .testPort u
  generalize u.domainClear .testPort = v at hcleared hclear
  obtain ⟨hset, hkeys⟩ := hcleared
  obtain ⟨hopen, hsec, htold⟩ := openPort_opens v
  have htn : v.tn = s.tn := hclear.tn.trans (hu .tn (by decide))
  have hport : v.sec = s.sec := (hclear.only .sec (by decide)).trans (hu .sec (by decide))
  rw [htn] at htold
  refine ⟨(hclear.mono (by decide)).trans (hopen.mono (by decide)), fun t ht => ⟨?_, ?_, fun e => ?_, htold.keep ht⟩⟩
  · exact ((ht.only .settings (by decide)).1.trans (hopen.only .settings (by decide)).1).trans hset
  · rw [ht.only .sec (by decide), hsec, hport]
  · exact ((ht.eng e).trans (hopen.eng e)).trans (hkeys e).1
/-- Settles O42: the domain by the settings and slots it leaves, a signed result by the signature that waits. -/
theorem domainAndTestPort : Obligations.DomainAndTestPort := by
  unfold Obligations.DomainAndTestPort
  intro c s
  refine ⟨domainEnrol_begins, fun h => ?_, fun h => ?_, fun h => ?_, fun h => ?_, fun h => ?_, fun q ws r hs => tagSignatureDone_ends hs, fun e i k hk h0 hdue => ?_,
    rfl, rfl, fun h => ?_, fun h => ?_⟩
  · refine does_parsed (f := State.domainClear .domainClear) (l := .engines :: .armed :: .settings :: eventParts) h rfl rfl (fun u hu => ?_) (by decide)
    exact ⟨(domainClear_clears ..).1.mono (by decide), fun t ht => domainClear_leaves .domainClear hu ht⟩
  · exact beginsDma_send specTagCertRead _ _ c s h rfl rfl (fun _ _ => rfl)
  · exact attestReport_begins h
  · exact testportChallenge_does h
  · exact testportUnlock_does h
  · exact execKeyExpiry_expires hk h0 hdue
  · exact (if_neg (by rw [h]; exact Bool.false_ne_true) : execTestportInstruction .other s = _)
  · exact (if_pos h : execTestportInstruction .other s = _)
end Sys2Proof.Machine
end

section
/-! The watchers of firmware and Shepherd and the last-resort timer (O53). -/
namespace Sys2Proof.Machine

/-! ### Which parts the life record and the recovery chain touch -/

section
variable {s : State}
theorem steps_modRec (f : Recovery → Recovery) (s : State) : Steps [.recovery] s (s.modRec f) :=
  steps_of_same (fun p hp => by cases p <;> simp [Part.same] at hp ⊢) rfl rfl
theorem steps_modLife (f : LifeRecord → LifeRecord) (s : State) : Steps [.life] s (s.modLife f) := steps_of_same (only_modLife f s) rfl rfl
theorem steps_lifeFull (offset : Nat) (s : State) : Steps (.life :: eventParts) s (s.lifeFull offset) := by
  have hlist : Steps [.life] s (s.modKennel (fun k => { k with fullRaised := offset :: k.fullRaised })) :=
    steps_of_same (fun p hp => by cases p <;> simp [Part.same] at hp ⊢) rfl rfl
  unfold State.lifeFull
  exact steps_ite (.refl ..) ((hlist.mono (by simp)).trans ((steps_raise ..).mono (by decide)))
theorem steps_lifeBump (o p n : Nat) (get : LifeRecord → Nat) (put : Nat → LifeRecord → LifeRecord) (s : State) :
    Steps (.life :: eventParts) s (s.lifeBump o p n get put) :=
  (acts_lifeBump 0 o p n get put s).steps_of_engines (State.lifeBump_engines ..)
theorem steps_intervene (actor cause : Nat) (s : State) : Steps (.life :: eventParts) s (s.intervene actor cause) := by
  unfold State.intervene
  refine steps_ite (steps_ite (((steps_modLife ..).mono (by simp)).trans (steps_lifeFull ..)) ((steps_modLife ..).mono (by simp))) (.refl ..)
theorem steps_lifeRestart (cause : Nat) (s : State) : Steps (.life :: eventParts) s (s.lifeRestart cause) := by
  unfold State.lifeRestart
  exact steps_ite (steps_lifeBump ..) (steps_ite (steps_lifeBump ..) (steps_lifeBump ..))
/-- What the end of firmware moves. -/
def downParts : List Part := withEvent [.recovery, .life]
/-- Headless hold is on, from now unless it was. -/
theorem enterHeadless_enters (s : State) : Steps downParts s s.enterHeadless
    ∧ s.enterHeadless.recovery = { s.recovery with headless := some (s.recovery.headless.getD (s.ticks, s.tn)) }
    ∧ (s.recovery.headless = none → Raised .headlessEnter .device 0 [] s.tn s.enterHeadless) := by
  unfold State.enterHeadless
  cases hon : s.recovery.headless with
  | some x =>
    rw [if_pos (by rfl)]
    refine ⟨.refl .., ?_, fun h => nomatch h⟩
    rw [Option.getD_some, ← hon]
  | none =>
    have hset := steps_modRec (fun r => { r with headless := some (s.ticks, s.tn) }) s
    have htold := steps_raise .headlessEnter .device 0 [] (s.modRec (fun r => { r with headless := some (s.ticks, s.tn) }))
    rw [if_neg (by simp)]
    refine ⟨(hset.mono (by decide)).trans ((htold.mono (by decide)).trans ((steps_refreshAlert _).mono (by decide))), ?_, fun _ => ?_⟩
    · rw [State.refreshAlert_recovery, State.raise_recovery]
      rfl
    · have hraised : Raised .headlessEnter .device 0 [] s.tn ((s.modRec (fun r => { r with headless := some (s.ticks, s.tn) })).raise .headlessEnter .device 0 []) :=
        raised_raise_tn rfl
      exact hraised.keep (steps_refreshAlert _)
/-- What is written of the recovery chain stays as the intervention is recorded. -/
theorem recorded (f : Recovery → Recovery) {g : State → State} (hg : ∀ u, Steps (.life :: eventParts) u (g u)) (actor cause : Nat) (s : State) :
    Steps downParts s (((g (s.modRec f)).intervene actor cause).refreshAlert)
      ∧ (((g (s.modRec f)).intervene actor cause).refreshAlert).recovery = f s.recovery := by
  have hrest := ((hg (s.modRec f)).trans (steps_intervene actor cause _)).trans ((steps_refreshAlert _).mono (by decide))
  exact ⟨((steps_modRec ..).mono (by decide)).trans (hrest.mono (by decide)), hrest.only .recovery (by decide)⟩
theorem Option.some_getD_of_ne_none {α : Type} {x : Option α} (h : x ≠ none) (d : α) : some (x.getD d) = x := by
  obtain ⟨y, rfl⟩ := Option.ne_none_iff_exists'.mp h
  rfl
theorem declareDown_declares (cause : Nat) (s : State) : Steps downParts s (s.declareDown cause) ∧ DeclaredDown cause s (s.declareDown cause) := by
  obtain ⟨hsteps, hrec, htold⟩ := enterHeadless_enters s
  have hticks : s.enterHeadless.ticks = s.ticks := hsteps.only .ticks (by decide)
  have hlist : recentRestarts s.enterHeadless.ticks s.enterHeadless.recovery.fwRestarts = recentRestarts s.ticks s.recovery.fwRestarts := by
    rw [hticks, hrec]
  unfold State.declareDown DeclaredDown
  dsimp only
  rw [hlist]
  generalize recentRestarts s.ticks s.recovery.fwRestarts = recent
  by_cases hlimit : 3 ≤ recent.length
  · rw [if_pos hlimit]
    obtain ⟨hdown, hnow⟩ := recorded (fun r => { r with fw := .inReset, bootAt := none, shep := .held, lastCause := causeLimit, restartCause := none, fwRestarts := recent })
      (fun u => steps_lifeBump 2000 4294967295 1 (·.holds) (fun v r => { r with holds := v }) u) 1 causeLimit s.enterHeadless
    rw [hrec] at hnow
    generalize State.refreshAlert _ = t at hdown hnow ⊢
    have hhead : t.recovery.headless = some (s.recovery.headless.getD (s.ticks, s.tn)) := by rw [hnow]
    refine ⟨hsteps.trans hdown, fun hoff => ⟨by rw [hhead, hoff]; rfl, (htold hoff).keep hdown⟩, fun hon => hhead.trans (Option.some_getD_of_ne_none hon _),
      by rw [hnow], fun h => absurd hlimit (Nat.not_le.mpr h), fun _ => by rw [hnow]; exact ⟨rfl, rfl, rfl⟩⟩
  · rw [if_neg hlimit]
    obtain ⟨hdown, hnow⟩ := recorded (fun r => { r with fw := .inReset, bootAt := some (s.enterHeadless.ticks + 625), shep := .restarting
                                                        interventions := r.interventions + 1, lastCause := cause, restartCause := some cause
                                                        fwRestarts := s.enterHeadless.ticks :: recent }) (steps_lifeRestart cause) 1 cause s.enterHeadless
    rw [hrec, hticks] at hnow
    rw [hticks] at hdown ⊢
    generalize State.refreshAlert _ = t at hdown hnow ⊢
    have hhead : t.recovery.headless = some (s.recovery.headless.getD (s.ticks, s.tn)) := by rw [hnow]
    refine ⟨hsteps.trans hdown, fun hoff => ⟨by rw [hhead, hoff]; rfl, (htold hoff).keep hdown⟩, fun hon => hhead.trans (Option.some_getD_of_ne_none hon _),
      by rw [hnow], fun _ => by rw [hnow]; exact ⟨rfl, rfl, rfl, rfl, rfl⟩, fun h => absurd h hlimit⟩
end

/-! ### Each watcher -/

section
variable {s : State}
theorem DeclaredDown.of_same {cause : Nat} {u t : State} (h : DeclaredDown cause u t) (hr : u.recovery = s.recovery) (hticks : u.ticks = s.ticks) (htn : u.tn = s.tn) :
    DeclaredDown cause s t := by
  unfold DeclaredDown at h ⊢
  rw [hr, hticks, htn] at h
  exact h
/-- A watcher's note in the recovery chain. -/
theorem happens_modRec {r : Res} (f : Recovery → Recovery) (h : r = .next (s.modRec f)) : Happens [.recovery] (fun t => t.recovery = f s.recovery) s r :=
  ⟨_, h, rfl, (steps_modRec f s).only⟩
theorem steps_modDev_err (n : Nat) (s : State) : Steps [.devRegs] s (s.modDev (fun d => { d with bootErr := n })) :=
  steps_of_same (fun p hp => by cases p <;> simp [Part.same] at hp ⊢) rfl rfl
/-- Ten seconds of boot without a report: BOOT_ERR 6, and a trial image loses its trial. -/
def State.bootLate (s : State) : State :=
  let s := s.modDev (fun d => { d with bootErr := 6 })
  if s.sec.trialBoot then s.modSettings (fun k => { k with trial := false, bootPref := !k.bootPref }) else s
theorem bootLate_fails (s : State) : Steps [.devRegs, .settings] s s.bootLate ∧ s.bootLate.dev.bootErr = 6
    ∧ (s.sec.trialBoot = true → s.bootLate.kennel.settings = { s.kennel.settings with trial := false, bootPref := !s.kennel.settings.bootPref })
    ∧ (s.sec.trialBoot = false → s.bootLate.kennel.settings = s.kennel.settings) := by
  have herr := (steps_modDev_err 6 s).mono (m := [.devRegs, .settings]) (by simp)
  unfold State.bootLate
  dsimp only
  generalize hu : s.modDev (fun d => { d with bootErr := 6 }) = u at herr
  have htrial : u.sec.trialBoot = s.sec.trialBoot := hu ▸ rfl
  have hkennel : u.kennel.settings = s.kennel.settings := hu ▸ rfl
  have herr6 : u.dev.bootErr = 6 := hu ▸ rfl
  rw [htrial]
  refine ⟨herr.trans (steps_ite ((steps_modSettings ..).mono (by simp)) (.refl ..)), ?_, fun h => ?_, fun h => ?_⟩
  · split
    · exact herr6
    · exact herr6
  · rw [if_pos h, ← hkennel]
    rfl
  · rw [if_neg (by rw [h]; exact Bool.false_ne_true), hkennel]
/-- Firmware restarts a silent Shepherd, or, after three restarts in 600 s, stops it. -/
theorem shepherdHeartbeatTimeout_restarts (hfw : s.fwUp = true) (hw : s.shepWatches = true) (hlate : s.recovery.shepBeat + 62500 ≤ s.ticks) :
    Happens downParts (fun t =>
      ((recentRestarts s.ticks s.recovery.shepRestarts).length < 3 → Raised .shepherdRestarted .device 0 [] s.tn t
        ∧ t.recovery = { s.recovery with shepBeat := s.ticks, shepRestarts := s.ticks :: recentRestarts s.ticks s.recovery.shepRestarts })
      ∧ (3 ≤ (recentRestarts s.ticks s.recovery.shepRestarts).length → t.recovery.shep = .stopped)) s (exec .shepherdHeartbeatTimeout s) := by
  have hexec : execShepherdHeartbeatTimeout s = _ := if_pos (by rw [hfw, hw, decide_eq_true hlate]; rfl)
  generalize hrecent : recentRestarts s.ticks s.recovery.shepRestarts = recent at hexec ⊢
  by_cases hlimit : 3 ≤ recent.length
  · dsimp only at hexec
    rw [if_pos hlimit] at hexec
    have hset := steps_modRec (fun r => { r with shep := .stopped, shepRestarts := recent }) s
    have hrest := (steps_intervene 2 causeLimit (s.modRec (fun r => { r with shep := .stopped, shepRestarts := recent }))).trans
      ((steps_refreshAlert _).mono (by decide))
    refine ⟨_, hexec, ⟨fun h => absurd hlimit (Nat.not_le.mpr h), fun _ => ?_⟩, ((hset.mono (by decide)).trans (hrest.mono (by decide))).only⟩
    rw [hrest.only .recovery (by decide)]
    rfl
  · dsimp only at hexec
    rw [if_neg hlimit] at hexec
    have hset := steps_modRec (fun r => { r with shepBeat := s.ticks, shepRestarts := s.ticks :: recent }) s
    generalize hu : s.modRec (fun r => { r with shepBeat := s.ticks, shepRestarts := s.ticks :: recent }) = u at hexec hset
    have hlife := (steps_lifeBump 1996 4294967295 1 (·.shepRestarts) (fun v r => { r with shepRestarts := v }) u).trans (steps_intervene 2 causeHeartbeat _)
    have htold := steps_raise .shepherdRestarted .device 0 [] ((u.lifeBump 1996 4294967295 1 (·.shepRestarts) (fun v r => { r with shepRestarts := v })).intervene 2 causeHeartbeat)
    refine ⟨_, hexec, ⟨fun _ => ⟨raised_raise_tn (hlife.tn.trans hset.tn), ?_⟩, fun h => absurd h hlimit⟩,
      ((hset.mono (by decide)).trans ((hlife.mono (by decide)).trans (htold.mono (by decide)))).only⟩
    rw [htold.only .recovery (by decide), hlife.only .recovery (by decide), ← hu]
    rfl
theorem lastResortExpiry_expires (hexp : s.recovery.expired = false) (hsys : s.sysHeld = false) (hmgmt : s.power.mgmtRstLow = false)
    (hlate : s.recovery.kick + 1250000 ≤ s.ticks) : Happens downParts (fun t => t.recovery.expired = true ∧ t.recovery.fw = .inReset
      ∧ t.recovery.bootAt = none ∧ t.recovery.shep = .lastResort ∧ t.recovery.lastCause = 5
      ∧ t.recovery.headless = some (s.recovery.headless.getD (s.ticks, s.tn))) s (exec .lastResortExpiry s) := by
  have hexec : execLastResortExpiry s = _ := if_pos (by rw [hexp, hsys, hmgmt, decide_eq_true hlate]; rfl)
  obtain ⟨hsteps, hrec, -⟩ := enterHeadless_enters s
  obtain ⟨hdown, hnow⟩ := recorded (fun r => { r with expired := true, fw := .inReset, bootAt := none, restartCause := none, shep := .lastResort, lastCause := causeExpired })
    (fun u => steps_lifeBump 2004 4294967295 1 (·.lastResorts) (fun v r => { r with lastResorts := v }) u) 3 causeExpired s.enterHeadless
  rw [hrec] at hnow
  refine ⟨_, hexec, hnow.symm.rec (motive := fun r _ => r.expired = true ∧ r.fw = .inReset ∧ r.bootAt = none ∧ r.shep = .lastResort ∧ r.lastCause = 5
    ∧ r.headless = some (s.recovery.headless.getD (s.ticks, s.tn))) ⟨rfl, rfl, rfl, rfl, rfl, rfl⟩, (hsteps.trans hdown).only⟩
end
/-- Settles O53: each watcher by what it writes, a declaration by `declareDown_declares`. -/
theorem watchers : Obligations.Watchers := by
  unfold Obligations.Watchers
  intro s
  refine ⟨fun h => happens_modRec (fun r => { r with fwBeat := s.ticks }) ?_, fun h => ?_, fun h => happens_modRec (fun r => { r with shepBeat := s.ticks }) ?_, fun h => ?_,
    fun h hexp => happens_modRec (fun r => { r with kick := s.ticks }) ?_, fun h => ?_, fun hfw hw => ⟨fun hlate => ?_, ?_⟩, fun h => ?_, fun h => ?_,
    fun hfw hstage hw hlate => ?_, fun h => ?_, fun hfw hw hlate => ?_, fun h => ?_, fun hexp hsys hmgmt hlate => ?_, fun h => ?_⟩
  · exact (if_pos (by rw [h]; rfl) : execFwHeartbeat s = _)
  · exact (if_neg (by simpa using h) : execFwHeartbeat s = _)
  · exact (if_pos h : execShepherdHeartbeat s = _)
  · exact (if_neg (by rw [h]; exact Bool.false_ne_true) : execShepherdHeartbeat s = _)
  · exact (if_pos (by rw [hexp]; simpa using h) : execLastResortKick s = _)
  · exact (if_neg (by rw [h]; simp) : execLastResortKick s = _)
  · obtain ⟨hsteps, hdown⟩ := declareDown_declares 1 s
    exact ⟨_, (if_pos (by rw [hfw, hw, decide_eq_true hlate]; rfl) : execHeartbeatTimeout s = _), hdown, hsteps.only⟩
  · obtain ⟨hsteps, hdown⟩ := declareDown_declares 2 s
    exact ⟨_, (if_pos (by rw [hfw, hw]; rfl) : execFwFatalTrap s = _), hdown, hsteps.only⟩
  · exact (if_neg (by rw [decide_eq_false (Nat.not_le.mpr h)]; simp) : execHeartbeatTimeout s = _)
  · exact (if_neg (by rw [h]; simp) : execFwFatalTrap s = _)
  · obtain ⟨hsteps, herr, htrial, hnone⟩ := bootLate_fails s
    obtain ⟨hdownSteps, hdown⟩ := declareDown_declares 3 s.bootLate
    have hsettings : (s.bootLate.declareDown 3).kennel.settings = s.bootLate.kennel.settings := (hdownSteps.only .settings (by decide)).1
    have herr' : (s.bootLate.declareDown 3).dev.bootErr = s.bootLate.dev.bootErr := (hdownSteps.only .devRegs (by decide)).2.2.1
    refine ⟨s.bootLate.declareDown 3, (if_pos (by rw [hfw, hstage, hw, decide_eq_true hlate]; rfl) : execFwBootTimeout s = _),
      ⟨hdown.of_same (hsteps.only .recovery (by decide)) (hsteps.only .ticks (by decide)) hsteps.tn, herr'.trans herr,
        fun h => hsettings.trans (htrial h), fun h => hsettings.trans (hnone h)⟩, ?_⟩
    exact ((hsteps.mono (by decide)).trans (hdownSteps.mono (by decide))).only
  · exact (if_neg (by rw [decide_eq_false (Nat.not_le.mpr h)]; simp) : execFwBootTimeout s = _)
  · exact shepherdHeartbeatTimeout_restarts hfw hw hlate
  · exact (if_neg (by rw [decide_eq_false (Nat.not_le.mpr h)]; simp) : execShepherdHeartbeatTimeout s = _)
  · exact lastResortExpiry_expires hexp hsys hmgmt hlate
  · exact (if_neg (by rw [decide_eq_false (Nat.not_le.mpr h)]; simp) : execLastResortExpiry s = _)
end Sys2Proof.Machine
end

section
/-! The boot of firmware and the report that it runs (O54). -/
namespace Sys2Proof.Machine

/-! ### Boots and their ends -/

section
variable {s : State}
theorem steps_modDev {f : DeviceBlock → DeviceBlock} (hm : ∀ d, (f d).msix = d.msix) (ha : ∀ d, (f d).alertAsserted = d.alertAsserted) (s : State) :
    Steps [.devRegs] s (s.modDev f) :=
  steps_of_same (fun p hp => by cases p <;> simp [Part.same, hm, ha] at hp ⊢) rfl rfl
/-- What a boot that ends without an image moves. -/
def bootParts : List Part := [.devRegs, .msix, .alertN]
theorem bootFailed_fails (err : Nat) (s : State) : Steps bootParts s (s.bootFailed err) ∧ (s.bootFailed err).dev.stage = .failed ∧ (s.bootFailed err).dev.bootErr = err := by
  unfold State.bootFailed
  have hset := steps_modDev (f := fun d => { d with stage := .failed, bootErr := err, bootGo := false }) (fun _ => rfl) (fun _ => rfl) s
  exact ⟨(hset.mono (by decide)).trans ((steps_refreshAlert _).mono (by decide)), State.refreshAlert_dev_stage _, State.refreshAlert_dev_bootErr _⟩
theorem bootRuns_runs (slot : Bool) (image shep : FwSlot) (trial : Bool) (s : State) :
    Steps (.recovery :: .sec :: bootParts) s (s.bootRuns slot image shep trial) ∧ (s.bootRuns slot image shep trial).dev.stage = .running
      ∧ (s.bootRuns slot image shep trial).dev.fwSlot = slot ∧ (s.bootRuns slot image shep trial).dev.bootErr = 0
      ∧ (s.bootRuns slot image shep trial).sec = { s.sec with running := image, shepRunning := shep, trialBoot := trial }
      ∧ (s.bootRuns slot image shep trial).recovery = { s.recovery with bootStart := s.ticks, shepBeat := s.ticks } := by
  unfold State.bootRuns
  have hset := steps_modDev (f := fun d => { d with stage := .running, fwSlot := slot, bootErr := 0, bootGo := false, bootStage := [] }) (fun _ => rfl) (fun _ => rfl) s
  have hstage : (s.modDev (fun d => { d with stage := .running, fwSlot := slot, bootErr := 0, bootGo := false, bootStage := [] })).dev.stage = .running
      ∧ (s.modDev (fun d => { d with stage := .running, fwSlot := slot, bootErr := 0, bootGo := false, bootStage := [] })).dev.fwSlot = slot
      ∧ (s.modDev (fun d => { d with stage := .running, fwSlot := slot, bootErr := 0, bootGo := false, bootStage := [] })).dev.bootErr = 0 := ⟨rfl, rfl, rfl⟩
  dsimp only
  generalize s.modDev (fun d => { d with stage := .running, fwSlot := slot, bootErr := 0, bootGo := false, bootStage := [] }) = u at hset hstage
  have hrun : ∀ v : State, v = { u with sec := { u.sec with running := image, shepRunning := shep, trialBoot := trial } } →
      Steps (.recovery :: .sec :: bootParts) u v ∧ v.sec = { u.sec with running := image, shepRunning := shep, trialBoot := trial } := by
    rintro v rfl
    exact ⟨(steps_sec ..).mono (by decide), rfl⟩
  generalize hv : ({ u with sec := { u.sec with running := image, shepRunning := shep, trialBoot := trial } } : State) = v
  obtain ⟨hsec, hnow⟩ := hrun v hv.symm
  have hrec := steps_modRec (fun r => { r with bootStart := u.ticks, shepBeat := u.ticks }) v
  have hdev : v.dev = u.dev := hv ▸ rfl
  have hsecu : u.sec = s.sec := hset.only .sec (by decide)
  have hrecv : v.recovery = s.recovery := (hv ▸ rfl : v.recovery = u.recovery).trans (hset.only .recovery (by decide))
  have hticks : u.ticks = s.ticks := hset.only .ticks (by decide)
  refine ⟨(((hset.mono (m := .recovery :: .sec :: bootParts) (by decide)).trans hsec).trans (hrec.mono (by decide))).trans ((steps_refreshAlert _).mono (m := .recovery :: .sec :: bootParts) (by decide)), ?_, ?_, ?_, ?_, ?_⟩
  · rw [State.refreshAlert_dev_stage, State.modRec_dev, hdev, hstage.1]
  · rw [State.refreshAlert_dev_fwSlot, State.modRec_dev, hdev, hstage.2.1]
  · rw [State.refreshAlert_dev_bootErr, State.modRec_dev, hdev, hstage.2.2]
  · rw [State.refreshAlert_sec, State.modRec_sec, hnow, hsecu]
  · rw [State.refreshAlert_recovery, State.modRec, hrecv, hticks]
theorem exec_firmwareBoot (hfw : s.recovery.fw = .booting) (hsys : s.sysHeld = false) : exec .firmwareBoot s = match s.dev.stage with
    | .rom => if s.dev.bootSrc < 2 then .next s.bootFlash
        else .next ({ s with sec := { s.sec with trialBoot := false } }.modDev (fun d => { d with stage := .waitHost }))
    | .verifying => .next s.bootHost
    | .loading => if s.dev.bootSrc = 3 ∧ s.dev.bootImgLen ≤ s.dev.bootStage.length then .next s.bootHost else .next s
    | _ => .next s :=
  (if_pos (by rw [hfw, hsys]; rfl) : execFirmwareBoot s = _)
/-- The image of the Shepherd that a boot from flash leaves running. -/
def State.flashShep (s : State) : FwSlot :=
  if s.sec.shepRunning.valid then s.sec.shepRunning
  else match bootSlot s.sec.shep s.kennel.settings.bootPref s.sec.rollback with
    | some j => vget s.sec.shep j FwSlot.reset
    | none => FwSlot.reset
/-- A boot from flash, once a failed trial has been told. -/
def State.flashTold (s : State) : State :=
  if s.sec.trialBoot && !s.kennel.settings.trial then
    s.raise .fwTrialFailed .device 0 (w1 (b2n (!s.kennel.settings.bootPref))
      ++ w1 (vget s.sec.fw (b2n (!s.kennel.settings.bootPref)) FwSlot.reset).version)
  else s
theorem steps_flashTold (s : State) : Steps eventParts s s.flashTold := steps_ite (steps_raise ..) (.refl ..)
theorem State.bootFlash_eq (s : State) : s.bootFlash = match bootSlot s.flashTold.sec.fw s.kennel.settings.bootPref s.flashTold.sec.rollback with
    | some i => s.flashTold.bootRuns (i == 1) (vget s.flashTold.sec.fw i FwSlot.reset)
        (if s.flashTold.sec.shepRunning.valid then s.flashTold.sec.shepRunning
          else match bootSlot s.flashTold.sec.shep s.kennel.settings.bootPref s.flashTold.sec.rollback with
            | some j => vget s.flashTold.sec.shep j FwSlot.reset
            | none => FwSlot.reset) (s.kennel.settings.trial && i == b2n s.kennel.settings.bootPref)
    | none => if s.flashTold.dev.bootSrc = 0 then s.flashTold.bootFailed 1 else s.flashTold.modDev (fun d => { d with stage := .waitHost, bootErr := 1 }) := rfl
theorem bootFlash_of_slot {i : Nat} (h : bootSlot s.sec.fw s.kennel.settings.bootPref s.sec.rollback = some i) :
    s.bootFlash = s.flashTold.bootRuns (i == 1) (vget s.sec.fw i FwSlot.reset) s.flashShep (s.kennel.settings.trial && i == b2n s.kennel.settings.bootPref) := by
  have hsec : s.flashTold.sec = s.sec := (steps_flashTold s).only .sec (by decide)
  unfold State.flashShep
  rw [State.bootFlash_eq, hsec]
  simp only [h]
theorem bootFlash_of_none (h : bootSlot s.sec.fw s.kennel.settings.bootPref s.sec.rollback = none) :
    s.bootFlash = if s.dev.bootSrc = 0 then s.flashTold.bootFailed 1 else s.flashTold.modDev (fun d => { d with stage := .waitHost, bootErr := 1 }) := by
  have hsec : s.flashTold.sec = s.sec := (steps_flashTold s).only .sec (by decide)
  have hsrc : s.flashTold.dev.bootSrc = s.dev.bootSrc := ((steps_flashTold s).only .devRegs (by decide)).2.2.2.2.2.2.2.2.2.1
  rw [State.bootFlash_eq, hsec, hsrc]
  simp only [h]
/-- A boot from flash (R367, R521). -/
theorem bootFlash_boots (hfw : s.recovery.fw = .booting) : Steps (withEvent [.devRegs, .recovery, .sec]) s s.bootFlash
    ∧ (∀ i, bootSlot s.sec.fw s.kennel.settings.bootPref s.sec.rollback = some i →
      s.bootFlash.dev.stage = .running ∧ s.bootFlash.dev.fwSlot = (i == 1) ∧ s.bootFlash.dev.bootErr = 0
        ∧ s.bootFlash.sec.running = vget s.sec.fw i FwSlot.reset ∧ s.bootFlash.recovery.bootStart = s.ticks ∧ s.bootFlash.recovery.fw = .booting)
    ∧ (bootSlot s.sec.fw s.kennel.settings.bootPref s.sec.rollback = none → s.bootFlash.dev.bootErr = 1
      ∧ (s.dev.bootSrc = 0 → s.bootFlash.dev.stage = .failed) ∧ (s.dev.bootSrc ≠ 0 → s.bootFlash.dev.stage = .waitHost)) := by
  have htold := (steps_flashTold s).mono (m := withEvent [.devRegs, .recovery, .sec]) (by decide)
  have hrec : s.flashTold.recovery = s.recovery := (steps_flashTold s).only .recovery (by decide)
  have hticks : s.flashTold.ticks = s.ticks := (steps_flashTold s).only .ticks (by decide)
  cases hslot : bootSlot s.sec.fw s.kennel.settings.bootPref s.sec.rollback with
  | some i =>
    rw [bootFlash_of_slot hslot]
    obtain ⟨hruns, hstage, hfwSlot, herr, hsec, hrecovery⟩ := bootRuns_runs (i == 1) (vget s.sec.fw i FwSlot.reset) s.flashShep
      (s.kennel.settings.trial && i == b2n s.kennel.settings.bootPref) s.flashTold
    refine ⟨htold.trans (hruns.mono (by decide)), fun k hk => ?_, fun h => nomatch h⟩
    cases hk
    exact ⟨hstage, hfwSlot, herr, by rw [hsec], by rw [hrecovery, hticks], by rw [hrecovery, hrec, hfw]⟩
  | none =>
    rw [bootFlash_of_none hslot]
    by_cases hsrc : s.dev.bootSrc = 0
    · rw [if_pos hsrc]
      obtain ⟨hfails, hstage, herr⟩ := bootFailed_fails 1 s.flashTold
      exact ⟨htold.trans (hfails.mono (by decide)), fun k hk => (nomatch hk), fun _ => ⟨herr, fun _ => hstage, fun h => absurd hsrc h⟩⟩
    · rw [if_neg hsrc]
      have hwait := steps_modDev (f := fun d => { d with stage := .waitHost, bootErr := 1 }) (fun _ => rfl) (fun _ => rfl) s.flashTold
      exact ⟨htold.trans (hwait.mono (by decide)), fun k hk => (nomatch hk), fun _ => ⟨rfl, fun h => absurd h hsrc, fun _ => rfl⟩⟩
/-- The checks of a host image that has been read (R522). -/
theorem bootHost_checks (s : State) : Steps (.recovery :: .sec :: bootParts) s s.bootHost
    ∧ (∀ f h, imageSlot (Config.splitImage s.dev.bootStage).1 = some f → imageSlot (Config.splitImage s.dev.bootStage).2 = some h →
      (s.sec.rollback ≤ f.svn → s.sec.rollback ≤ h.svn → s.bootHost.dev.stage = .running ∧ s.bootHost.sec.running = f ∧ s.bootHost.sec.shepRunning = h)
      ∧ (f.svn < s.sec.rollback ∨ h.svn < s.sec.rollback → s.bootHost.dev.stage = .failed ∧ s.bootHost.dev.bootErr = 3 ∧ s.bootHost.sec = s.sec))
    ∧ (imageSlot (Config.splitImage s.dev.bootStage).1 = none ∨ imageSlot (Config.splitImage s.dev.bootStage).2 = none →
      s.bootHost.dev.stage = .failed ∧ s.bootHost.dev.bootErr = 2 ∧ s.bootHost.sec = s.sec) := by
  have hfail : ∀ err, Steps (.recovery :: .sec :: bootParts) s (s.bootFailed err) ∧ (s.bootFailed err).dev.stage = .failed
      ∧ (s.bootFailed err).dev.bootErr = err ∧ (s.bootFailed err).sec = s.sec := fun err =>
    have hfails := bootFailed_fails err s
    ⟨hfails.1.mono (by decide), hfails.2.1, hfails.2.2, hfails.1.only .sec (by decide)⟩
  unfold State.bootHost
  dsimp only
  generalize imageSlot (Config.splitImage s.dev.bootStage).1 = fw
  generalize imageSlot (Config.splitImage s.dev.bootStage).2 = shep
  match fw, shep with
  | some f, some h =>
    dsimp only
    by_cases hsvn : s.sec.rollback ≤ f.svn ∧ s.sec.rollback ≤ h.svn
    · rw [if_pos hsvn]
      obtain ⟨hruns, hstage, -, -, hsec, -⟩ := bootRuns_runs false f h false s
      refine ⟨hruns, fun f' h' hf hh => ?_, fun hno => by simp at hno⟩
      cases hf
      cases hh
      exact ⟨fun _ _ => ⟨hstage, by rw [hsec], by rw [hsec]⟩, fun hlow => absurd hsvn (fun hboth => hlow.elim (not_lt.mpr hboth.1) (not_lt.mpr hboth.2))⟩
    · rw [if_neg hsvn]
      refine ⟨(hfail 3).1, fun f' h' hf hh => ?_, fun hno => by simp at hno⟩
      cases hf
      cases hh
      exact ⟨fun hf hh => absurd ⟨hf, hh⟩ hsvn, fun _ => (hfail 3).2⟩
  | none, _ => exact ⟨(hfail 2).1, fun f' h' hf _ => (nomatch hf), fun _ => (hfail 2).2⟩
  | some _, none => exact ⟨(hfail 2).1, fun f' h' _ hh => (nomatch hh), fun _ => (hfail 2).2⟩
end

/-! ### BOOT_GO (R522) -/

section
variable {s : State}
/-- The host image begins to load: over SPI, or through channel 0. -/
def State.loadBegins (s : State) : State :=
  let d := s.dev
  let s := s.modDev (fun d => { d with stage := .loading, bootErr := 0, bootGo := true, bootStage := [] })
  let s := if d.bootSrc = 3 then s
    else s.modDc 0 (fun c => { DmaChannel.reset with
      hostLo := d.bootImgAddrLo, hostHi := d.bootImgAddrHi, lineLen := d.bootImgLen / 8, lineCount := 8, hostStride := d.bootImgLen / 8
      state := .running, complLo := c.complLo, complHi := c.complHi })
  s.refreshAlert
theorem State.bootGoWrite_eq (s : State) : s.bootGoWrite = if s.dev.stage == .waitHost || s.dev.stage == .failed then
    (if s.dev.bootImgLen % 8 ≠ 0 ∨ 8388608 < s.dev.bootImgLen ∨ s.dev.bootImgLen = 0 then s.bootFailed 4 else s.loadBegins) else s := rfl
theorem steps_modDc (n : Nat) (f : DmaChannel → DmaChannel) (s : State) : Steps [.dma] s (s.modDc n f) :=
  steps_of_same (fun p hp => by cases p <;> simp [Part.same] at hp ⊢) rfl rfl
theorem loadBegins_loads (s : State) : Steps (.dma :: bootParts) s s.loadBegins ∧ s.loadBegins.dev.stage = .loading ∧ s.loadBegins.dev.bootErr = 0
    ∧ s.loadBegins.dev.bootGo = true ∧ s.loadBegins.dev.bootStage = []
    ∧ (s.dev.bootSrc ≠ 3 → (s.loadBegins.dc 0).state = .running ∧ (s.loadBegins.dc 0).lineLen = s.dev.bootImgLen / 8 ∧ (s.loadBegins.dc 0).lineCount = 8)
    ∧ ∀ q, q ≠ 0 → s.loadBegins.dc q = s.dc q := by
  have hset := steps_modDev (f := fun d => { d with stage := .loading, bootErr := 0, bootGo := true, bootStage := [] }) (fun _ => rfl) (fun _ => rfl) s
  have hdev : (s.modDev (fun d => { d with stage := .loading, bootErr := 0, bootGo := true, bootStage := [] })).dev
      = { s.dev with stage := .loading, bootErr := 0, bootGo := true, bootStage := [] } := rfl
  unfold State.loadBegins
  dsimp only
  generalize s.modDev (fun d => { d with stage := .loading, bootErr := 0, bootGo := true, bootStage := [] }) = u at hset hdev ⊢
  have hdc : ∀ q, u.dc q = s.dc q := fun q => by rw [State.dc, State.dc, hset.only .dma (by decide)]
  have hall : ∀ v : State, Steps [.dma] u v → Steps (.dma :: bootParts) s v.refreshAlert ∧ v.refreshAlert.dev.stage = .loading
      ∧ v.refreshAlert.dev.bootErr = 0 ∧ v.refreshAlert.dev.bootGo = true ∧ v.refreshAlert.dev.bootStage = [] := by
    intro v hv
    obtain ⟨hstage, -, herr, -, -, -, -, -, hgo, -, hbytes, -⟩ := hv.only .devRegs (by decide)
    refine ⟨((hset.mono (by decide)).trans (hv.mono (by decide))).trans ((steps_refreshAlert v).mono (by decide)), ?_, ?_, ?_, ?_⟩
    · rw [State.refreshAlert_dev_stage, hstage, hdev]
    · rw [State.refreshAlert_dev_bootErr, herr, hdev]
    · rw [State.refreshAlert_dev_bootGo, hgo, hdev]
    · rw [State.refreshAlert_dev_bootStage, hbytes, hdev]
  by_cases hsrc : s.dev.bootSrc = 3
  · rw [if_pos hsrc]
    obtain ⟨hsteps, hstage, herr, hgo, hbytes⟩ := hall u (.refl ..)
    exact ⟨hsteps, hstage, herr, hgo, hbytes, fun h => absurd hsrc h, fun q _ => (State.dc_refreshAlert q u).trans (hdc q)⟩
  · rw [if_neg hsrc]
    obtain ⟨hsteps, hstage, herr, hgo, hbytes⟩ := hall _ (steps_modDc 0 (fun c => { DmaChannel.reset with
      hostLo := s.dev.bootImgAddrLo, hostHi := s.dev.bootImgAddrHi, lineLen := s.dev.bootImgLen / 8, lineCount := 8, hostStride := s.dev.bootImgLen / 8
      state := .running, complLo := c.complLo, complHi := c.complHi }) u)
    refine ⟨hsteps, hstage, herr, hgo, hbytes, fun _ => ?_, fun q hq => ?_⟩
    · rw [State.dc_refreshAlert, State.dc_modDc_same _ _ _ (by decide)]
      exact ⟨rfl, rfl, rfl⟩
    · rw [State.dc_refreshAlert, State.dc_modDc_ne _ _ _ _ hq, hdc]
theorem execBootGo_goes (hopen : s.mapOpen = true) (hstage : s.dev.stage = .waitHost ∨ s.dev.stage = .failed) :
    Happens [.devRegs, .dma, .msix, .alertN] (fun t =>
      (s.dev.bootImgLen % 8 = 0 → s.dev.bootImgLen ≤ 8388608 → s.dev.bootImgLen ≠ 0 →
        t.dev.stage = .loading ∧ t.dev.bootErr = 0 ∧ t.dev.bootGo = true ∧ t.dev.bootStage = []
        ∧ (s.dev.bootSrc ≠ 3 → (t.dc 0).state = .running ∧ 8 * (t.dc 0).lineLen = s.dev.bootImgLen
          ∧ (t.dc 0).lineCount = 8)
        ∧ (∀ q, q ≠ 0 → t.dc q = s.dc q))
      ∧ (s.dev.bootImgLen % 8 ≠ 0 ∨ 8388608 < s.dev.bootImgLen ∨ s.dev.bootImgLen = 0 →
        t.dev.stage = .failed ∧ t.dev.bootErr = 4 ∧ t.dma = s.dma)) s (exec .bootGo s) := by
  refine ⟨s.bootGoWrite, (if_pos hopen : execBootGo s = _), ?_⟩
  rw [State.bootGoWrite_eq, if_pos (by rcases hstage with h | h <;> rw [h] <;> rfl)]
  by_cases hbad : s.dev.bootImgLen % 8 ≠ 0 ∨ 8388608 < s.dev.bootImgLen ∨ s.dev.bootImgLen = 0
  · rw [if_pos hbad]
    obtain ⟨hfails, hfailed, herr⟩ := bootFailed_fails 4 s
    exact ⟨⟨fun h8 hmax h0 => by omega, fun _ => ⟨hfailed, herr, hfails.only .dma (by decide)⟩⟩, (hfails.mono (by decide)).only⟩
  · rw [if_neg hbad]
    obtain ⟨hsteps, hload, herr, hgo, hbytes, hchannel, hothers⟩ := loadBegins_loads s
    refine ⟨⟨fun h8 _ _ => ⟨hload, herr, hgo, hbytes, fun hsrc => ?_, hothers⟩, fun h => absurd h hbad⟩, (hsteps.mono (by decide)).only⟩
    obtain ⟨hrun, hlen, hcount⟩ := hchannel hsrc
    exact ⟨hrun, by rw [hlen]; omega, hcount⟩
end

/-! ### The report that firmware runs (R419, R485, R487) -/

section
variable {s : State}
theorem steps_postResp (src : Source) (r : Resp) (s : State) : Steps finalParts s (s.postResp src r) :=
  ⟨fun p hp => by cases p <;> simp [finalParts, Part.same] at hp ⊢,
    ⟨fun _ _ _ _ _ h => raised_same _ _ _ _ _ s _ h (by simp) (by simp) (by simp) (by simp) (by simp), fun _ _ hsrc h => posted_postResp src r hsrc h⟩⟩
/-- What a resumption leaves: no held command, and every job without an armed change answered. -/
theorem resume_resumes (s : State) : Only (.jobs :: .held :: .ports :: finalParts) s s.resume ∧ s.resume.proto.held = []
    ∧ (∀ ev k i ws tn, Raised ev k i ws tn s → Raised ev k i ws tn s.resume)
    ∧ ∀ j ∈ s.proto.jobs, (∀ a ∈ s.proto.armed, a.cmd ≠ j.cmd) → Ended j .restartAborted 0 s.tn [] s.resume := by
  unfold State.resume
  dsimp only
  have hcleared : Only finalParts s (s.modProto (fun p => { p with owedFinals := [] })) :=
    fun p hp => by cases p <;> simp [finalParts, Part.same] at hp ⊢
  have hraised : ∀ ev k i ws tn, Raised ev k i ws tn s → Raised ev k i ws tn (s.modProto (fun p => { p with owedFinals := [] })) :=
    fun ev k i ws tn h => raised_same ev k i ws tn s _ h rfl rfl rfl rfl rfl
  generalize s.modProto (fun p => { p with owedFinals := [] }) = u at hcleared hraised
  have hpaid : Steps finalParts u (s.proto.owedFinals.foldl (fun s x => s.postResp x.1 x.2) u) := .foldl (fun v (x : Source × Resp) => steps_postResp x.1 x.2 v) _ _
  generalize s.proto.owedFinals.foldl (fun s x => s.postResp x.1 x.2) u = v at hpaid
  have hjobs : v.proto.jobs = s.proto.jobs := (hpaid.only .jobs (by decide)).trans (hcleared .jobs (by decide))
  have harmed : v.proto.armed = s.proto.armed := (hpaid.only .armed (by decide)).trans (hcleared .armed (by decide))
  have htn : v.tn = s.tn := hpaid.tn.trans (hcleared .tn (by decide))
  have hended := steps_finishJobs (fun j => !v.proto.armed.any (fun a => decide (a.cmd = j.cmd))) .restartAborted 0 [] v
  have hover : ∀ j ∈ s.proto.jobs, (∀ a ∈ s.proto.armed, a.cmd ≠ j.cmd) → Ended j .restartAborted 0 s.tn []
      (v.finishJobs (fun j => !v.proto.armed.any (fun a => decide (a.cmd = j.cmd))) .restartAborted 0 []) := by
    intro j hj hfree
    rw [← htn]
    refine ended_finishJobs .restartAborted 0 [] (hjobs ▸ hj) ?_
    rw [harmed, Bool.not_eq_true', List.any_eq_false]
    exact fun a ha => by simpa using hfree a ha
  generalize v.finishJobs (fun j => !v.proto.armed.any (fun a => decide (a.cmd = j.cmd))) .restartAborted 0 [] = w at hended hover ⊢
  have hdropped : Steps [.held] w (w.modProto (fun p => { p with held := [] })) :=
    ⟨fun p hp => by cases p <;> simp [Part.same] at hp ⊢,
      keepsTold_of_same rfl (by simp [Part.same]) (by simp [Part.same]) (by simp [Part.same]) (by simp [Part.same])⟩
  have hempty : (w.modProto (fun p => { p with held := [] })).proto.held = [] := rfl
  generalize w.modProto (fun p => { p with held := [] }) = x at hdropped hempty ⊢
  have hanswered : Steps finalParts x (w.proto.held.foldl (fun s h => s.final { ticketOf h.opcode h.cmd h.seq with dead := h.dead } .restartAborted 0 []) x) :=
    .foldl (fun y h => steps_final _ _ _ _ y) _ _
  generalize w.proto.held.foldl (fun s h => s.final { ticketOf h.opcode h.cmd h.seq with dead := h.dead } .restartAborted 0 []) x = y at hanswered ⊢
  have hports : Steps [.ports] y { y with ports := y.ports.map (fun p => (p.1, { p.2 with ptp := p.2.ptp.restarted y.ticks })) } :=
    steps_of_same (fun p hp => by cases p <;> simp [Part.same, State.tile] at hp ⊢) rfl rfl
  generalize ({ y with ports := y.ports.map (fun p => (p.1, { p.2 with ptp := p.2.ptp.restarted y.ticks })) } : State) = z at hports ⊢
  have htail : Steps (.held :: .ports :: finalParts) w z :=
    ((hdropped.mono (by decide)).trans (hanswered.mono (by decide))).trans (hports.mono (by decide))
  have hwhole : Steps (.jobs :: .held :: .ports :: finalParts) u z :=
    ((hpaid.mono (by decide)).trans (hended.mono (by decide))).trans (htail.mono (by decide))
  refine ⟨only_then (only_mono hcleared (by decide)) hwhole.only, ?_, fun ev k i ws tn h => (hraised ev k i ws tn h).keep hwhole,
    fun j hj hfree => (hover j hj hfree).of_steps htail⟩
  exact (hanswered.only .held (by decide)).trans hempty
/-- The recovery chain of a firmware that has reported running. -/
def Recovery.reported (ticks : Nat) (r : Recovery) : Recovery :=
  { r with fw := .running, fwBeat := ticks, restartCause := none, headless := none, shep := if r.shep == .restarting then .watching else r.shep }
/-- FW_RESTARTED, where the Shepherd restarted firmware. -/
def State.restartTold (cause : Option Nat) (s : State) : State :=
  match cause with
  | some c => s.raise .fwRestarted .device 0 (w1 c)
  | none => s
/-- Headless hold, where it was on since `h`, ends. -/
def State.headlessLeft (h : Option (Nat × Nat)) (s : State) : State :=
  match h with
  | some h => (s.raise .headlessExit .device 0 (w1 (s.ticks - h.1))).resume
  | none => s
/-- The recovery chain and the trial of a firmware that has reported running. -/
def State.reported (s : State) : State :=
  let s := s.modRec (.reported s.ticks)
  { s with sec := { s.sec with trialBoot := false } }
theorem exec_fwRunningReport (hfw : s.recovery.fw = .booting) (hstage : s.dev.stage = .running) (hexp : s.recovery.expired = false)
    (hmgmt : s.proto.mgmtResetArmed = none) (hsys : s.sysHeld = false) : exec .fwRunningReport s
      = .next (((s.reported.restartTold s.recovery.restartCause).headlessLeft s.recovery.headless).refreshAlert) := by
  refine (?_ : execFwRunningReport s = _)
  unfold execFwRunningReport
  rw [if_pos (by rw [hfw, hstage, hexp, hmgmt, hsys]; rfl)]
  unfold State.headlessLeft State.restartTold
  rfl
theorem reported_begins (s : State) : Steps (.recovery :: .sec :: eventParts) s s.reported ∧ s.reported.recovery = s.recovery.reported s.ticks
    ∧ s.reported.sec.trialBoot = false := by
  have hset := steps_modRec (.reported s.ticks) s
  have hsec := steps_sec { (s.modRec (.reported s.ticks)).sec with trialBoot := false } (s.modRec (.reported s.ticks))
  exact ⟨(hset.mono (by decide)).trans (hsec.mono (by decide)), rfl, rfl⟩
theorem restartTold_tells (cause : Option Nat) (s : State) : Steps eventParts s (s.restartTold cause)
    ∧ ∀ x, cause = some x → Raised .fwRestarted .device 0 (w1 x) s.tn (s.restartTold cause) := by
  cases cause with
  | none => exact ⟨.refl .., fun _ h => nomatch h⟩
  | some c =>
    refine ⟨steps_raise .., fun x hx => ?_⟩
    cases hx
    exact raised_raise ..
theorem headlessLeft_leaves (h : Option (Nat × Nat)) (s : State) : Only (.jobs :: .held :: .ports :: .responses :: eventParts) s (s.headlessLeft h)
    ∧ (∀ ev k i ws tn, Raised ev k i ws tn s → Raised ev k i ws tn (s.headlessLeft h))
    ∧ ∀ x, h = some x → Raised .headlessExit .device 0 (w1 (s.ticks - x.1)) s.tn (s.headlessLeft h) ∧ (s.headlessLeft h).proto.held = []
      ∧ ∀ j ∈ s.proto.jobs, (∀ a ∈ s.proto.armed, a.cmd ≠ j.cmd) → Ended j .restartAborted 0 s.tn [] (s.headlessLeft h) := by
  cases h with
  | none => exact ⟨only_refl _ s, fun _ _ _ _ _ h => h, fun _ h => nomatch h⟩
  | some x =>
    have htold := steps_raise .headlessExit .device 0 (w1 (s.ticks - x.1)) s
    have hraised : Raised .headlessExit .device 0 (w1 (s.ticks - x.1)) s.tn (s.raise .headlessExit .device 0 (w1 (s.ticks - x.1))) := raised_raise ..
    unfold State.headlessLeft
    dsimp only
    generalize s.raise .headlessExit .device 0 (w1 (s.ticks - x.1)) = u at htold hraised ⊢
    obtain ⟨honly, hheld, hkept, hjobs⟩ := resume_resumes u
    refine ⟨only_then (only_mono htold.only (by decide)) (only_mono honly (by decide)), fun ev k i ws tn h => hkept ev k i ws tn (h.keep htold), fun y hy => ?_⟩
    cases hy
    refine ⟨hkept _ _ _ _ _ hraised, hheld, fun j hj hfree => ?_⟩
    have hended := hjobs j (by rw [htold.only .jobs (by decide)]; exact hj) (by rw [htold.only .armed (by decide)]; exact hfree)
    rw [htold.tn] at hended
    exact hended
theorem execFwRunningReport_runs (hfw : s.recovery.fw = .booting) (hstage : s.dev.stage = .running) (hexp : s.recovery.expired = false)
    (hmgmt : s.proto.mgmtResetArmed = none) (hsys : s.sysHeld = false) :
    Happens (withEvent [.recovery, .sec, .jobs, .responses, .ports, .held]) (fun t => t.recovery.fw = .running
      ∧ t.recovery.fwBeat = s.ticks ∧ t.recovery.headless = none ∧ t.recovery.restartCause = none ∧ t.sec.trialBoot = false
      ∧ (∀ x, s.recovery.restartCause = some x → Raised .fwRestarted .device 0 (w1 x) s.tn t)
      ∧ (∀ h, s.recovery.headless = some h → Raised .headlessExit .device 0 (w1 (s.ticks - h.1)) s.tn t
        ∧ t.proto.held = []
        ∧ ∀ j ∈ s.proto.jobs, (∀ a ∈ s.proto.armed, a.cmd ≠ j.cmd) → Ended j .restartAborted 0 s.tn [] t)) s
      (exec .fwRunningReport s) := by
  obtain ⟨hbegun, hrec, htrial⟩ := reported_begins s
  obtain ⟨htold, hrestart⟩ := restartTold_tells s.recovery.restartCause s.reported
  obtain ⟨hleft, hkept, hhead⟩ := headlessLeft_leaves s.recovery.headless (s.reported.restartTold s.recovery.restartCause)
  have hbefore := hbegun.trans (htold.mono (m := .recovery :: .sec :: eventParts) (by decide))
  refine ⟨_, exec_fwRunningReport hfw hstage hexp hmgmt hsys, ?_⟩
  generalize s.reported.restartTold s.recovery.restartCause = v at hleft hkept hhead hbefore htold hrestart ⊢
  generalize v.headlessLeft s.recovery.headless = w at hleft hkept hhead ⊢
  have halert := steps_refreshAlert w
  have hafter : w.recovery = s.recovery.reported s.ticks :=
    (hleft .recovery (by decide)).trans ((htold.only .recovery (by decide)).trans hrec)
  have htn : v.tn = s.tn := hbefore.tn
  have hticks : v.ticks = s.ticks := hbefore.only .ticks (by decide)
  dsimp only
  rw [State.refreshAlert_recovery, State.refreshAlert_sec, hafter]
  refine ⟨⟨rfl, rfl, rfl, rfl, ?_, fun x hx => ?_, fun h hh => ?_⟩, ?_⟩
  · rw [hleft .sec (by decide), htold.only .sec (by decide), htrial]
  · exact (hkept _ _ _ _ _ (by rw [← hbegun.tn]; exact hrestart x hx)).keep halert
  · obtain ⟨hexit, hheld, hjobs⟩ := hhead h hh
    rw [htn, hticks] at hexit
    refine ⟨hexit.keep halert, (halert.only .held (by decide)).trans hheld, fun j hj hfree => ?_⟩
    have hended := (hjobs j (by rw [hbefore.only .jobs (by decide)]; exact hj) (by rw [hbefore.only .armed (by decide)]; exact hfree)).of_steps halert
    rw [htn] at hended
    exact hended
  · exact only_then (only_mono hbefore.only (by decide)) (only_then (only_mono hleft (by decide)) (only_mono halert.only (by decide)))
end
/-- Settles O54: each end of a boot by its source and checks, the report by what it tells and resumes. -/
theorem bootOfFirmware : Obligations.BootOfFirmware := by
  unfold Obligations.BootOfFirmware
  intro s
  refine ⟨fun hfw hsys => ⟨fun hstage hsrc => ?_, fun hstage hsrc => ?_, fun hstage => ?_⟩, fun h => ?_, execBootGo_goes, fun h => ?_,
    execFwRunningReport_runs, fun h => ?_⟩
  · obtain ⟨hsteps, hslot, hnone⟩ := bootFlash_boots hfw
    exact ⟨s.bootFlash, by rw [exec_firmwareBoot hfw hsys, hstage]; exact if_pos hsrc, ⟨hslot, hnone⟩, hsteps.only⟩
  · have hsec := steps_sec { s.sec with trialBoot := false } s
    have hwait := steps_modDev (f := fun d => { d with stage := .waitHost }) (fun _ => rfl) (fun _ => rfl) { s with sec := { s.sec with trialBoot := false } }
    have hwhole : Steps [.devRegs, .sec] s _ := (hsec.mono (by decide)).trans (hwait.mono (by decide))
    exact ⟨_, by rw [exec_firmwareBoot hfw hsys, hstage]; exact if_neg (Nat.not_lt.mpr hsrc), rfl, hwhole.only⟩
  · obtain ⟨hsteps, hboth, hmissing⟩ := bootHost_checks s
    exact ⟨s.bootHost, by rw [exec_firmwareBoot hfw hsys, hstage], ⟨hboth, hmissing⟩, (hsteps.mono (by decide)).only⟩
  · exact (if_neg (by rcases h with h | h <;> simp [h]) : execFirmwareBoot s = _)
  · rcases h with h | ⟨hwait, hfailed⟩
    · exact (if_neg (by rw [h]; exact Bool.false_ne_true) : execBootGo s = _)
    · have hkeep : s.bootGoWrite = s := by
        rw [State.bootGoWrite_eq, if_neg (by simp [hwait, hfailed])]
      refine (?_ : execBootGo s = _)
      unfold execBootGo
      rw [hkeep, ite_self]
  · exact (if_neg (by rcases h with h | h <;> simp [h]) : execFwRunningReport s = _)
end Sys2Proof.Machine
end

section
/-! Resets of the DMA block and of the MGMT domain, and the return to D0 (O55). -/
namespace Sys2Proof.Machine

/-! ### Channels that are killed -/

section
variable {s : State}
theorem raiseAt_device_tiles (ev : Ev) (i : Nat) (ws : List Word) (tn : Nat) (s : State) : (s.raiseAt ev .device i ws tn).tiles = s.tiles := by
  rw [raiseAt_eq ev .device i ws tn s _ (if_neg (by decide)).symm]
  split
  · simp
  · simp
/-- An event of the device that is told with an EVENT_TN of its own. -/
theorem steps_raiseAt_device (ev : Ev) (i : Nat) (ws : List Word) (tn : Nat) (s : State) : Steps eventParts s (s.raiseAt ev .device i ws tn) := by
  refine ⟨fun p hp => ?_, fun _ _ _ _ _ h => raised_raise_of _ _ _ _ _ _ _ _ _ _ _ h, fun _ _ _ h => posted_same h (by simp [Part.same])⟩
  cases p <;> simp [eventParts, Part.same, State.tile, raiseAt_device_tiles] at hp ⊢
theorem steps_setSlot (c : Cmd) (x : FwSlot) (s : State) : Steps [.sec] s (s.setSlot c x) := steps_sec _ s
theorem steps_emptySlot? (hit : Job → Bool) (s : State) : Steps [.sec] s (s.emptySlot? hit) :=
  .foldl (fun u (j : Job) => steps_setSlot j.cmd .reset u) _ _
theorem emptySlot?_none (hit : Job → Bool) (h : NoFwLoad s) : s.emptySlot? hit = s := by
  have hnone : s.proto.jobs.filter (fun j => hit j && j.ticket.opcode == 0xB00) = [] := by
    refine List.filter_eq_nil_iff.mpr (fun j hj hc => h j hj ?_)
    simp only [Bool.and_eq_true, beq_iff_eq] at hc
    exact hc.2
  unfold State.emptySlot?
  rw [hnone]
  rfl
theorem steps_modCtr (f : Counters → Counters) (hf : ∀ c, (f c).happened = c.happened ∧ (f c).coming = c.coming) (s : State) :
    Steps [.counters] s (s.modCtr f) :=
  ⟨fun p hp => by cases p <;> simp [Part.same, hf] at hp ⊢, keepsTold_of_same (hf _).1 (by simp [Part.same]) (by simp [Part.same]) (by simp [Part.same])
    (by simp [Part.same])⟩
theorem steps_imageReadable (m : Image) (s : State) : Steps (.counters :: eventParts) s (s.imageReadable m) :=
  have hread := steps_modCtr (fun c => { c with image := m, waiting := none, snapSeq := (c.snapSeq + 1) % 65536, snapValid := true }) (fun _ => ⟨rfl, rfl⟩) s
  (hread.mono (by decide)).trans ((steps_raise ..).mono (by decide))
theorem steps_dumpOver (s : State) : Steps (.counters :: eventParts) s s.dumpOver := by
  unfold State.dumpOver
  split
  · exact steps_ite (.refl ..) (steps_imageReadable ..)
  · exact .refl ..
/-- A channel after all channels have been killed. -/
def DmaChannel.killed (d : DmaChannel) : DmaChannel :=
  if d.state == .waiting || d.state == .running then { d with state := .ended, ended := .aborted, abort := false, staged := [], bad := false } else d
/-- What killing the channels moves. -/
def killParts : List Part := .sec :: .dma :: .jobs :: finalParts
theorem steps_dma (d : Vector DmaChannel 16) (s : State) : Steps [.dma] s { s with dma := d } :=
  steps_of_same (fun p hp => by cases p <;> simp [Part.same, State.tile] at hp ⊢) rfl rfl
theorem steps_dropJobs (p : Job → Bool) (s : State) : Steps [.jobs] s (s.modProto (fun q => { q with jobs := q.jobs.filter p })) :=
  ⟨fun p hp => by cases p <;> simp [Part.same] at hp ⊢,
    keepsTold_of_same rfl (by simp [Part.same]) (by simp [Part.same]) (by simp [Part.same]) (by simp [Part.same])⟩
/-- Whether a command's channel waits or runs. -/
def State.onBusy (s : State) (j : Job) : Bool := j.chan.any (fun c => (s.dc c).state == .waiting || (s.dc c).state == .running)
/-- The commands of a state are dropped or answered, those of a test. -/
def State.killedJobs (hit drop : Job → Bool) (s : State) : State :=
  ((s.emptySlot? hit).modProto (fun p => { p with jobs := p.jobs.filter (fun j => !(hit j && drop j)) })).finishJobs hit .cancelled 0xFFF []
theorem State.killChannels_eq (drop : Job → Bool) (s : State) :
    s.killChannels drop = { s.killedJobs s.onBusy drop with dma := (s.killedJobs s.onBusy drop).dma.map DmaChannel.killed } := rfl
theorem killedJobs_keeps (hit drop : Job → Bool) (s : State) : Steps (.sec :: .jobs :: finalParts) s (s.killedJobs hit drop)
    ∧ (NoFwLoad s → (s.killedJobs hit drop).sec = s.sec) ∧ ∀ j ∈ (s.killedJobs hit drop).proto.jobs, j ∈ s.proto.jobs := by
  unfold State.killedJobs
  have hslot := steps_emptySlot? hit s
  have hsame : NoFwLoad s → (s.emptySlot? hit).sec = s.sec := fun h => congrArg State.sec (emptySlot?_none hit h)
  generalize s.emptySlot? hit = u at hslot hsame ⊢
  have hdrop := steps_dropJobs (fun j => !(hit j && drop j)) u
  have hjobs : ∀ j ∈ (u.modProto (fun q => { q with jobs := q.jobs.filter (fun j => !(hit j && drop j)) })).proto.jobs, j ∈ s.proto.jobs := by
    intro j hj
    rw [← show u.proto.jobs = s.proto.jobs from hslot.only .jobs (by decide)]
    exact (List.mem_filter.mp hj).1
  have hdropSec : (u.modProto (fun q => { q with jobs := q.jobs.filter (fun j => !(hit j && drop j)) })).sec = u.sec := rfl
  generalize u.modProto (fun q => { q with jobs := q.jobs.filter (fun j => !(hit j && drop j)) }) = v at hdrop hjobs hdropSec ⊢
  have hend := steps_finishJobs hit .cancelled 0xFFF [] v
  refine ⟨((hslot.mono (by decide)).trans (hdrop.mono (by decide))).trans (hend.mono (by decide)), fun h => ?_, fun j hj => hjobs j ?_⟩
  · rw [hend.only .sec (by decide), hdropSec, hsame h]
  · rw [State.finishJobs_proto_jobs] at hj
    exact (List.mem_filter.mp hj).1
theorem killChannels_kills (drop : Job → Bool) (s : State) : Steps killParts s (s.killChannels drop)
    ∧ (NoFwLoad s → (s.killChannels drop).sec = s.sec) ∧ (∀ j ∈ (s.killChannels drop).proto.jobs, j ∈ s.proto.jobs)
    ∧ ∀ n, (s.killChannels drop).dc n = (s.dc n).killed := by
  obtain ⟨hsteps, hsec, hjobs⟩ := killedJobs_keeps s.onBusy drop s
  rw [State.killChannels_eq]
  have hdma : (s.killedJobs s.onBusy drop).dma = s.dma := hsteps.only .dma (by decide)
  generalize s.killedJobs s.onBusy drop = u at hsteps hsec hjobs hdma ⊢
  have hkill := steps_dma (u.dma.map DmaChannel.killed) u
  refine ⟨(hsteps.mono (by decide)).trans (hkill.mono (by decide)), hsec, hjobs, fun n => ?_⟩
  rw [hdma]
  unfold State.dc vget
  dsimp only
  split
  · simp
  · rfl
/-- What a reset of the DMA block moves. -/
def dmaResetParts : List Part := .counters :: (killParts ++ eventParts)
theorem dmaReset_resets (drop : Job → Bool) (s : State) : Steps dmaResetParts s (s.dmaReset drop)
    ∧ (NoFwLoad s → (s.dmaReset drop).sec = s.sec) ∧ (s.dmaReset drop).dma = Vector.replicate 16 .reset := by
  obtain ⟨hkill, hsec, -, -⟩ := killChannels_kills drop s
  unfold State.dmaReset
  generalize s.killChannels drop = u at hkill hsec ⊢
  have hblank := steps_dma (Vector.replicate 16 DmaChannel.reset) u
  have hsec' : ({ u with dma := Vector.replicate 16 DmaChannel.reset } : State).sec = u.sec := rfl
  have hdma : ({ u with dma := Vector.replicate 16 DmaChannel.reset } : State).dma = Vector.replicate 16 .reset := rfl
  generalize ({ u with dma := Vector.replicate 16 DmaChannel.reset } : State) = v at hblank hsec' hdma ⊢
  have hdump := steps_dumpOver v
  refine ⟨((hkill.mono (by decide)).trans (hblank.mono (by decide))).trans (hdump.mono (by decide)), fun h => ?_, ?_⟩
  · rw [hdump.only .sec (by decide), hsec', hsec h]
  · rw [hdump.only .dma (by decide), hdma]
end

/-! ### The endpoint (Table 18.5) -/

section
variable {s : State}
theorem endpointNow_dev (s : State) : s.endpointNow.dev = { s.dev with endpointUp := s.endpointFree, linkUp := s.endpointFree, d3hot := s.dev.d3hot && s.endpointFree } := rfl
theorem steps_endpointNow (s : State) : Steps [.devRegs] s s.endpointNow :=
  steps_modDev (f := fun d => { d with endpointUp := s.endpointFree, linkUp := s.endpointFree, d3hot := d.d3hot && s.endpointFree }) (fun _ => rfl) (fun _ => rfl) s
theorem State.endpointFree_of_power {s t : State} (h : t.power = s.power) : t.endpointFree = s.endpointFree := by
  unfold State.endpointFree State.sysHeld
  rw [h]
end

/-! ### The MGMT domain (R419, R485) -/

section
variable {s : State}
/-- The recovery chain after a reset of the MGMT domain; `shep` resets the Shepherd. -/
def Recovery.mgmtReset (shep : Bool) (ticks tn : Nat) (r : Recovery) : Recovery :=
  { r with
    fw := .inReset, bootAt := none, restartCause := none
    headless := if r.headless.isNone then some (ticks, tn) else r.headless
    enterOwed := if r.headless.isNone then some tn else r.enterOwed
    shep := if shep then .watching else r.shep, shepRestarts := if shep then [] else r.shepRestarts
    fwRestarts := if shep then [] else r.fwRestarts, expired := r.expired && !shep, kick := if shep then ticks else r.kick }
/-- Security after a reset of the MGMT domain. -/
def Security.mgmtReset (shep : Bool) (x : Security) : Security :=
  { x with signing := [], challenge := none, shepRunning := if shep then .reset else x.shepRunning }
/-- The blocks of the MGMT domain after its reset, queues and cores with them. -/
def State.mgmtCleared (shep : Bool) (s : State) : State :=
  { s with proto := s.proto.mgmtReset, mons := s.mons.map MonConv.mgmtReset, chains := s.chains.map TlmChain.mgmtReset, tlmq := .reset
           sec := s.sec.mgmtReset shep, recovery := s.recovery.mgmtReset shep s.ticks s.tn
           dev := { s.dev with msix := msixReset, stage := .rom, bootErr := 0, bootGo := false, bootStage := [] } }
theorem State.mgmtReset_eq (shep : Bool) (s : State) (hr : (s.dmaReset (fun _ => true)).recovery = s.recovery) :
    s.mgmtReset shep = ((s.dmaReset (fun _ => true)).mgmtCleared shep).endpointNow.refreshAlert := by
  unfold State.mgmtReset State.mgmtCleared
  generalize s.dmaReset (fun _ => true) = u at hr ⊢
  rw [← hr]
  simp only [State.modProto, State.modRec, State.modDev, Recovery.mgmtReset, Security.mgmtReset]
theorem only_mgmtCleared (shep : Bool) (s : State) : Only [.queueRegs, .queueItems, .responses, .events, .armed, .jobs, .held, .mgmtReset, .mons, .chains, .tlmq
    , .sec, .recovery, .devRegs, .msix] s (s.mgmtCleared shep) :=
  fun p hp => by cases p <;> simp [Part.same, State.mgmtCleared, Protocol.mgmtReset, State.tile] at hp ⊢
/-- What a reset of the MGMT domain moves. -/
def mgmtParts : List Part :=
  withEvent [.queueItems, .responses, .armed, .jobs, .held, .mgmtReset, .devRegs, .dma, .counters, .mons, .chains, .tlmq, .sec, .recovery]
theorem mgmtReset_resets (shep : Bool) (s : State) : Only mgmtParts s (s.mgmtReset shep)
    ∧ (∃ p : Protocol, (s.mgmtReset shep).proto = p.mgmtReset ∧ p.armed = s.proto.armed ∧ p.mgmtResetArmed = s.proto.mgmtResetArmed)
    ∧ (s.mgmtReset shep).recovery = s.recovery.mgmtReset shep s.ticks s.tn ∧ (s.mgmtReset shep).dma = Vector.replicate 16 .reset
    ∧ (s.mgmtReset shep).sec.signing = [] ∧ (s.mgmtReset shep).sec.challenge = none
    ∧ (s.mgmtReset shep).dev.stage = .rom ∧ (s.mgmtReset shep).dev.bootErr = 0 ∧ (s.mgmtReset shep).dev.endpointUp = s.endpointFree := by
  obtain ⟨hdma, -, hblank⟩ := dmaReset_resets (fun _ => true) s
  have hrec : (s.dmaReset (fun _ => true)).recovery = s.recovery := hdma.only .recovery (by decide)
  rw [State.mgmtReset_eq shep s hrec]
  generalize s.dmaReset (fun _ => true) = u at hdma hblank hrec ⊢
  have hcleared := only_mgmtCleared shep u
  have hproto : (u.mgmtCleared shep).proto = u.proto.mgmtReset := rfl
  have hchain : (u.mgmtCleared shep).recovery = u.recovery.mgmtReset shep u.ticks u.tn := rfl
  have hsec : (u.mgmtCleared shep).sec = u.sec.mgmtReset shep := rfl
  have hstage : (u.mgmtCleared shep).dev.stage = .rom ∧ (u.mgmtCleared shep).dev.bootErr = 0 := ⟨rfl, rfl⟩
  have hblank' : (u.mgmtCleared shep).dma = u.dma := rfl
  have hpower : (u.mgmtCleared shep).power = u.power := rfl
  generalize u.mgmtCleared shep = v at hcleared hproto hchain hsec hstage hblank' hpower ⊢
  have hfree : v.endpointFree = s.endpointFree := State.endpointFree_of_power (hpower.trans (hdma.only .power (by decide)))
  have hlink := steps_endpointNow v
  have hdev := endpointNow_dev v
  have hprotoNow : v.endpointNow.proto = v.proto := rfl
  generalize v.endpointNow = w at hlink hdev hprotoNow ⊢
  have halert := steps_refreshAlert w
  refine ⟨only_then (only_mono hdma.only (by decide)) (only_then (only_mono hcleared (by decide)) ((hlink.mono (by decide)).trans (halert.mono (by decide))).only),
    ⟨u.proto, ?_, hdma.only .armed (by decide), hdma.only .mgmtReset (by decide)⟩, ?_, ?_, ?_, ?_, ?_, ?_, ?_⟩
  · rw [State.refreshAlert_proto, hprotoNow, hproto]
  · rw [State.refreshAlert_recovery, hlink.only .recovery (by decide), hchain, hrec, hdma.only .ticks (by decide), hdma.only .tn (by decide)]
  · rw [State.refreshAlert_dma, hlink.only .dma (by decide), hblank', hblank]
  · rw [State.refreshAlert_sec, hlink.only .sec (by decide), hsec]
    rfl
  · rw [State.refreshAlert_sec, hlink.only .sec (by decide), hsec]
    rfl
  · rw [State.refreshAlert_dev_stage, hdev, hstage.1]
  · rw [State.refreshAlert_dev_bootErr, hdev, hstage.2]
  · rw [State.refreshAlert_dev_endpointUp, hdev, hfree]
/-- The MGMT domain may leave its reset. -/
def State.mgmtFree (s : State) : Bool := !(s.power.mgmtRstLow || s.power.inReset.any (fun d => d.1 == .mgmt))
/-- HEADLESS_ENTER with the EVENT_TN of the entry, where it is still owed. -/
def State.enterTold (s : State) : State :=
  match s.recovery.enterOwed with
  | some tn => (s.modRec (fun r => { r with enterOwed := none })).raiseAt .headlessEnter .device 0 [] tn
  | none => s
/-- Firmware boots unless it is held. -/
def State.bootStarts (s : State) : State :=
  if s.recovery.expired || s.recovery.shep == .held then s
  else s.modRec (fun r => { r with fw := .booting, kick := s.ticks, shepBeat := s.ticks, bootStart := s.ticks })
theorem State.mgmtRelease_eq (s : State) (h : s.mgmtFree = true) : s.mgmtRelease = (((s.modProto (fun p => { p with mgmtResetArmed := none })).raise .mgmtResetSeen .device 0
    (w1 (s.proto.mgmtResetArmed.getD 0))).enterTold.bootStarts).endpointNow.refreshAlert := by
  have hgo : (s.power.mgmtRstLow || s.power.inReset.any (fun d => d.1 == .mgmt)) = false := by
    unfold State.mgmtFree at h
    simpa using h
  unfold State.mgmtRelease
  rw [if_neg (by rw [hgo]; exact Bool.false_ne_true)]
  rfl
theorem enterTold_tells (s : State) : Steps (.recovery :: eventParts) s s.enterTold
    ∧ s.enterTold.recovery = { s.recovery with enterOwed := none }
    ∧ ∀ tn, s.recovery.enterOwed = some tn → Raised .headlessEnter .device 0 [] tn s.enterTold := by
  unfold State.enterTold
  cases howed : s.recovery.enterOwed with
  | none =>
    have hsame : s.recovery = { s.recovery with enterOwed := none } := by rw [← howed]
    exact ⟨.refl .., hsame, fun _ h => nomatch h⟩
  | some tn =>
    refine ⟨((steps_modRec ..).mono (by decide)).trans ((steps_raiseAt_device ..).mono (by decide)), ?_, fun n hn => ?_⟩
    · rw [State.raiseAt_recovery]
      rfl
    · cases hn
      exact raised_raiseAt ..
theorem bootStarts_boots (s : State) : Steps [.recovery] s s.bootStarts
    ∧ (s.recovery.expired = false → s.recovery.shep ≠ .held → s.bootStarts.recovery.fw = .booting ∧ s.bootStarts.recovery.bootStart = s.ticks)
    ∧ (s.recovery.expired = true ∨ s.recovery.shep = .held → s.bootStarts.recovery.fw = s.recovery.fw) := by
  unfold State.bootStarts
  refine ⟨steps_ite (.refl ..) (steps_modRec ..), fun hexp hheld => ?_, fun h => ?_⟩
  · rw [if_neg (by simp [hexp, hheld])]
    exact ⟨rfl, rfl⟩
  · rw [if_pos (by simpa using h)]
theorem mgmtRelease_releases (s : State) (h : s.mgmtFree = true) : Only (withEvent [.devRegs, .mgmtReset, .recovery]) s s.mgmtRelease
    ∧ s.mgmtRelease.proto.mgmtResetArmed = none ∧ Raised .mgmtResetSeen .device 0 (w1 (s.proto.mgmtResetArmed.getD 0)) s.tn s.mgmtRelease
    ∧ (∀ tn, s.recovery.enterOwed = some tn → Raised .headlessEnter .device 0 [] tn s.mgmtRelease)
    ∧ (s.recovery.expired = false → s.recovery.shep ≠ .held → s.mgmtRelease.recovery.fw = .booting ∧ s.mgmtRelease.recovery.bootStart = s.ticks)
    ∧ (s.recovery.expired = true ∨ s.recovery.shep = .held → s.mgmtRelease.recovery.fw = s.recovery.fw) := by
  rw [State.mgmtRelease_eq s h]
  have hopen : Only [.mgmtReset] s (s.modProto (fun p => { p with mgmtResetArmed := none })) := fun p hp => by cases p <;> simp [Part.same] at hp ⊢
  have hnone : (s.modProto (fun p => { p with mgmtResetArmed := none })).proto.mgmtResetArmed = none := rfl
  generalize s.modProto (fun p => { p with mgmtResetArmed := none }) = u at hopen hnone ⊢
  have htold := steps_raise .mgmtResetSeen .device 0 (w1 (s.proto.mgmtResetArmed.getD 0)) u
  have hraised : Raised .mgmtResetSeen .device 0 (w1 (s.proto.mgmtResetArmed.getD 0)) s.tn (u.raise .mgmtResetSeen .device 0 (w1 (s.proto.mgmtResetArmed.getD 0))) :=
    raised_raise_tn (hopen .tn (by decide))
  generalize u.raise .mgmtResetSeen .device 0 (w1 (s.proto.mgmtResetArmed.getD 0)) = v at htold hraised ⊢
  have hrec : v.recovery = s.recovery := (htold.only .recovery (by decide)).trans (hopen .recovery (by decide))
  have hticks : v.ticks = s.ticks := (htold.only .ticks (by decide)).trans (hopen .ticks (by decide))
  obtain ⟨henter, hrec', howed⟩ := enterTold_tells v
  rw [hrec] at hrec' howed
  have hticks' : v.enterTold.ticks = s.ticks := (henter.only .ticks (by decide)).trans hticks
  generalize v.enterTold = w at henter hrec' howed hticks' ⊢
  obtain ⟨hstart, hboots, hstays⟩ := bootStarts_boots w
  rw [hrec', hticks'] at hboots
  rw [hrec'] at hstays
  generalize w.bootStarts = x at hstart hboots hstays ⊢
  have hend : Steps bootParts x x.endpointNow.refreshAlert := ((steps_endpointNow x).mono (by decide)).trans ((steps_refreshAlert _).mono (by decide))
  have hchain : x.endpointNow.refreshAlert.recovery = x.recovery := hend.only .recovery (by decide)
  have hafter : Steps (withEvent [.devRegs, .mgmtReset, .recovery]) v x.endpointNow.refreshAlert :=
    ((henter.mono (by decide)).trans (hstart.mono (by decide))).trans (hend.mono (by decide))
  have hquiet : x.endpointNow.refreshAlert.proto.mgmtResetArmed = v.proto.mgmtResetArmed :=
    (hend.only .mgmtReset (by decide)).trans ((hstart.only .mgmtReset (by decide)).trans (henter.only .mgmtReset (by decide)))
  refine ⟨only_then (only_mono hopen (by decide)) ((htold.mono (by decide)).trans hafter).only, ?_, hraised.keep hafter,
    fun tn htn => ((howed tn htn).keep hstart).keep hend, ?_, ?_⟩
  · rw [hquiet, htold.only .mgmtReset (by decide), hnone]
  · rw [hchain]
    exact hboots
  · rw [hchain]
    exact hstays
theorem steps_modPower (f : Power → Power) (s : State) : Steps [.power] s (s.modPower f) := (moves_modPower f s).steps
end

/-! ### A return to D0 that sends a message -/

/-- The device in D3hot, with a message waiting in vector 0, which is unmasked. -/
def d3hotWaiting : State :=
  State.reset.modDev (fun d => { d with d3hot := true, msix := vmod d.msix 0 (fun m => { m with masked := false, pendingBit := true }) })
theorem d3hotWaiting_vector : vget d3hotWaiting.dev.msix 0 DeviceBlock.reset.msix[0] = { DeviceBlock.reset.msix[0] with masked := false, pendingBit := true } := by
  unfold d3hotWaiting State.modDev
  rw [vget_vmod_same _ _ _ _ (by decide)]
  rfl
/-- Refutes O55: a return to D0 sends what waits in unmasked vectors, so the MSI-X table changes, which the frame of its clause excludes. -/
theorem not_endpointAndMgmtResets : ¬ Obligations.EndpointAndMgmtResets := by
  unfold Obligations.EndpointAndMgmtResets
  intro h
  obtain ⟨-, -, -, -, -, -, -, -, -, ⟨t, -, hdev, honly⟩, -⟩ := h d3hotWaiting
  have hsent : t.dev.msix = d3hotWaiting.dev.msix.map MsixVector.flushed := congrArg DeviceBlock.msix hdev
  have hsame : t.dev.msix = d3hotWaiting.dev.msix := honly .msix (by decide)
  have hvector : d3hotWaiting.dev.msix[0] = (d3hotWaiting.dev.msix.map MsixVector.flushed)[0] := by rw [← hsent, hsame]
  have hbefore : d3hotWaiting.dev.msix[0].pendingBit = true := congrArg MsixVector.pendingBit d3hotWaiting_vector
  have hunmasked : d3hotWaiting.dev.msix[0].masked = false := congrArg MsixVector.masked d3hotWaiting_vector
  rw [Vector.getElem_map] at hvector
  have hafter : (d3hotWaiting.dev.msix[0].flushed).pendingBit = false := by
    unfold MsixVector.flushed
    rw [if_pos (by rw [hbefore, hunmasked]; rfl)]
  rw [← hvector, hbefore] at hafter
  exact Bool.noConfusion hafter
end Sys2Proof.Machine
end

section
/-! The device, Kennel and firmware commands (O58). -/
namespace Sys2Proof.Machine

/-! ### EVENT_MASK_SET (Table 15.1) -/

theorem mem_setMember {n m : Nat} {on : Bool} {l : List Nat} : m ∈ setMember n on l ↔ (m = n ∧ on = true) ∨ (m ≠ n ∧ m ∈ l) := by
  unfold setMember
  cases on with
  | false => simp [and_comm]
  | true =>
    simp only [if_true, List.mem_append, List.mem_filter, List.mem_singleton, bne_iff_ne, decide_eq_true_eq]
    constructor
    · rintro ((⟨⟨hm, hne⟩, -⟩ | rfl) | ⟨⟨hm, hne⟩, -⟩)
      · exact .inr ⟨hne, hm⟩
      · exact .inl ⟨rfl, trivial⟩
      · exact .inr ⟨hne, hm⟩
    · rintro (⟨rfl, -⟩ | ⟨hne, hm⟩)
      · exact .inl (.inr rfl)
      · rcases Nat.lt_or_gt_of_ne hne with h | h
        · exact .inl (.inl ⟨⟨hm, hne⟩, h⟩)
        · exact .inr ⟨⟨hm, hne⟩, h⟩
theorem contains_setMember (n m : Nat) (on : Bool) (l : List Nat) : (setMember n on l).contains m = if m = n then on else l.contains m := by
  rw [Bool.eq_iff_iff, List.contains_iff_mem, mem_setMember]
  split <;> simp_all
section
variable {c : Cmd} {s : State}
theorem eventMaskSet_masks (h : Ready specEventMaskSet c s = true) : Does 0x003 c [] [.masks] (fun t =>
    (t.proto.masked.contains (field (cw c 1) 16 12) = bit (cw c 1) 0)
    ∧ ∀ n, n ≠ field (cw c 1) 16 12 → t.proto.masked.contains n = s.proto.masked.contains n) s (exec (.eventMaskSet c) s) := by
  have hmasked : ((((s.atParse 0x003 c).modProto (fun p => { p with masked := setMember (field (cw c 1) 16 12) (bit (cw c 1) 0) p.masked })).final
      (ticketNow 0x003 c s) .ok 0 [])).proto.masked = setMember (field (cw c 1) 16 12) (bit (cw c 1) 0) s.proto.masked := by
    rw [State.final_proto_masked, ← State.atParse_proto_masked 0x003 c s]
    rfl
  refine does_now specEventMaskSet _ _ _ c s [] h rfl rfl rfl (State.atParse_tn ..) ⟨?_, fun n hn => ?_⟩ ?_
  · refine (congrArg (fun l : List Nat => l.contains (field (cw c 1) 16 12)) hmasked).trans ?_
    rw [contains_setMember, if_pos rfl]
  · refine (congrArg (fun l : List Nat => l.contains n) hmasked).trans ?_
    rw [contains_setMember, if_neg hn]
  · refine only_then (only_mono (only_atParse 0x003 c s) (by decide)) (only_then (u := (s.atParse 0x003 c).modProto (fun p =>
      { p with masked := setMember (field (cw c 1) 16 12) (bit (cw c 1) 0) p.masked })) ?_ (only_mono (steps_final ..).only (by decide)))
    exact fun p hp => by cases p <;> simp [Part.same] at hp ⊢
/-- What a reset of the MGMT domain leaves in the queues. -/
theorem Protocol.mgmtReset_leaves (p : Protocol) : p.mgmtReset.jobs = [] ∧ p.mgmtReset.held = []
    ∧ p.mgmtReset.armed = p.armed.map (fun a => { a with ticket := none })
    ∧ p.mgmtReset.mgmtResetArmed = some (p.mgmtResetArmed.getD p.armed.length) := ⟨rfl, rfl, rfl, rfl⟩
theorem Recovery.mgmtReset_pin (ticks tn : Nat) (r : Recovery) : (r.mgmtReset true ticks tn).expired = false ∧ (r.mgmtReset true ticks tn).shep = .watching :=
  ⟨Bool.and_false _, rfl⟩
/-- A reset of the MGMT domain that is released at once: firmware boots, and the armed changes are told. -/
theorem mgmtRestart {s v : State} (hfree : v.mgmtFree = true) (harmed : v.proto.armed = s.proto.armed) (hpend : v.proto.mgmtResetArmed = none)
    (htn : v.tn = s.tn) (hticks : v.ticks = s.ticks) : Only mgmtParts v (v.mgmtReset true).mgmtRelease
      ∧ (v.mgmtReset true).mgmtRelease.recovery.fw = .booting ∧ (v.mgmtReset true).mgmtRelease.recovery.bootStart = s.ticks
      ∧ (v.mgmtReset true).mgmtRelease.proto.jobs = [] ∧ (v.mgmtReset true).mgmtRelease.proto.held = []
      ∧ (v.mgmtReset true).mgmtRelease.proto.armed = s.proto.armed.map (fun a => { a with ticket := none })
      ∧ Raised .mgmtResetSeen .device 0 (w1 s.proto.armed.length) s.tn (v.mgmtReset true).mgmtRelease := by
  obtain ⟨hreset, ⟨p, hproto, hparmed, hppend⟩, hrec, -⟩ := mgmtReset_resets true v
  generalize v.mgmtReset true = w at hreset hproto hrec ⊢
  obtain ⟨hjobs, hheld, hchanges, hcount⟩ := p.mgmtReset_leaves
  rw [← hproto] at hjobs hheld hchanges hcount
  obtain ⟨hexp, hshep⟩ := Recovery.mgmtReset_pin v.ticks v.tn v.recovery
  rw [← hrec] at hexp hshep
  have hfreeW : w.mgmtFree = true := by
    unfold State.mgmtFree at hfree ⊢
    rw [hreset .power (by decide)]
    exact hfree
  obtain ⟨hrelease, -, htold, -, hboots, -⟩ := mgmtRelease_releases w hfreeW
  rw [hcount, hppend, hpend, hparmed, harmed, hreset .tn (by decide), htn] at htold
  rw [hparmed, harmed] at hchanges
  obtain ⟨hfw, hstart⟩ := hboots hexp (by rw [hshep]; exact fun h => ShepState.noConfusion h)
  exact ⟨only_then hreset (only_mono hrelease (by decide)), hfw, hstart.trans ((hreset .ticks (by decide)).trans hticks), (hrelease .jobs (by decide)).trans hjobs,
    (hrelease .held (by decide)).trans hheld, (hrelease .armed (by decide)).trans hchanges, htold⟩
/-- What FW_ACTIVATE may move. -/
def activateParts : List Part :=
  withEvent [.queueItems, .responses, .armed, .jobs, .held, .mgmtReset, .devRegs, .dma, .counters, .mons, .chains, .tlmq, .sec, .recovery, .settings, .kennelRest, .seq]
theorem activate_eq (c : Cmd) (s : State) :
    activate c s = ((s.mirrorLife.modSettings (fun k => { k with bootPref := cSub c == 1, trial := true })).mgmtReset true).mgmtRelease := rfl
/-- FW_ACTIVATE restarts firmware from the slot it names, on trial. -/
theorem activate_restarts {u : State} (hparsed : Only answerParts s u) (hfree : s.mgmtFree = true) (harmed : s.proto.mgmtResetArmed = none) :
    (activate c u).kennel.mirror = some s.kennel.life
      ∧ (activate c u).kennel.settings = { s.kennel.settings with bootPref := cSub c == 1, trial := true }
      ∧ (activate c u).recovery.fw = .booting ∧ (activate c u).recovery.bootStart = s.ticks ∧ (activate c u).proto.jobs = [] ∧ (activate c u).proto.held = []
      ∧ (activate c u).proto.armed = s.proto.armed.map (fun a => { a with ticket := none })
      ∧ Raised .mgmtResetSeen .device 0 (w1 s.proto.armed.length) s.tn (activate c u) ∧ Only activateParts s (activate c u) := by
  rw [activate_eq]
  have hset : Only [.kennelRest, .settings] u (u.mirrorLife.modSettings (fun k => { k with bootPref := cSub c == 1, trial := true })) :=
    fun p hp => by cases p <;> simp [Part.same, State.mirrorLife] at hp ⊢
  have hkennel : (u.mirrorLife.modSettings (fun k => { k with bootPref := cSub c == 1, trial := true })).kennel.mirror = some u.kennel.life
      ∧ (u.mirrorLife.modSettings (fun k => { k with bootPref := cSub c == 1, trial := true })).kennel.settings
        = { u.kennel.settings with bootPref := cSub c == 1, trial := true } := ⟨rfl, rfl⟩
  generalize u.mirrorLife.modSettings (fun k => { k with bootPref := cSub c == 1, trial := true }) = v at hset hkennel ⊢
  have hbefore : Only activateParts s v := only_then (only_mono hparsed (by decide)) (only_mono hset (by decide))
  have hfreeV : v.mgmtFree = true := by
    unfold State.mgmtFree at hfree ⊢
    rw [hset .power (by decide), hparsed .power (by decide)]
    exact hfree
  obtain ⟨honly, hfw, hstart, hjobs, hheld, hchanges, htold⟩ := mgmtRestart hfreeV ((hset .armed (by decide)).trans (hparsed .armed (by decide)))
    (((hset .mgmtReset (by decide)).trans (hparsed .mgmtReset (by decide))).trans harmed) ((hset .tn (by decide)).trans (hparsed .tn (by decide)))
    ((hset .ticks (by decide)).trans (hparsed .ticks (by decide)))
  generalize (v.mgmtReset true).mgmtRelease = t at honly hfw hstart hjobs hheld hchanges htold ⊢
  obtain ⟨-, -, -, -, -, -, -, -, hmirror, -⟩ := honly .kennelRest (by decide)
  refine ⟨?_, ?_, hfw, hstart, hjobs, hheld, hchanges, htold, only_then hbefore (only_mono honly (by decide))⟩
  · rw [hmirror, hkennel.1, (hparsed .life (by decide)).1]
  · rw [(honly .settings (by decide)).1, hkennel.2, (hparsed .settings (by decide)).1]
theorem exec_fwActivate (h : Ready specFwActivate c s = true) : exec (.fwActivate c) s = .next (activate c (s.atParse specFwActivate.code c)) :=
  runOp_ready specFwActivate c s h
/-- FW_COMMIT's effect. -/
def State.trialEnded (s : State) : State :=
  ({ s with sec := { s.sec with rollback := max s.sec.rollback s.sec.running.svn } }).modSettings (fun k => { k with trial := false })
theorem trialEnded_ends (s : State) : Steps [.sec, .settings] s s.trialEnded ∧ s.trialEnded.sec = { s.sec with rollback := max s.sec.rollback s.sec.running.svn }
    ∧ s.trialEnded.kennel.settings = { s.kennel.settings with trial := false } :=
  ⟨((steps_sec ..).mono (by decide)).trans ((steps_modSettings ..).mono (by decide)), rfl, rfl⟩
theorem trialEnded_leaves {u t : State} (hu : Only answerParts s u) (ht : Steps finalParts u.trialEnded t) :
    t.sec = { s.sec with rollback := max s.sec.rollback s.sec.running.svn } ∧ t.kennel.settings = { s.kennel.settings with trial := false } := by
  obtain ⟨-, hsec, hset⟩ := trialEnded_ends u
  exact ⟨by rw [ht.only .sec (by decide), hsec, show u.sec = s.sec from hu .sec (by decide)],
    by rw [(ht.only .settings (by decide)).1, hset, (hu .settings (by decide)).1]⟩
theorem State.tagsInFlight_of_same {u : State} (hjobs : u.proto.jobs = s.proto.jobs) (harmed : u.proto.armed = s.proto.armed) (hheld : u.proto.held = s.proto.held)
    (hresp : Part.same s u .responses) : u.tagsInFlight = s.tagsInFlight := by
  obtain ⟨-, hheldResp, -, howed⟩ := hresp
  simp only [State.tagsInFlight, State.heldFinals, hjobs, harmed, hheld, hheldResp, howed]
end
/-- Settles O58: each command by the kind of its effect, FW_ACTIVATE by the reset and the release it makes. -/
theorem deviceAndKennelCommands : Obligations.DeviceAndKennelCommands := by
  unfold Obligations.DeviceAndKennelCommands
  intro c s
  refine ⟨fun h => ?_, fun h => ?_, fun h => ?_, eventMaskSet_masks, fun h => ?_, fun h => ?_, fun h => ?_, fun h => ?_, fun h => ?_, fun h => ?_, fun h hmgmt hdomain harmed => ?_,
    fun h => ?_, fun h => ?_⟩
  · exact reports_now specDeviceNop _ c s _ h rfl rfl rfl rfl
  · exact reports_now specDeviceIdentity _ c s _ h rfl rfl rfl (by simp)
  · refine reports_now specDeviceStatus _ c s _ h rfl rfl rfl ?_
    have hu := only_atParse specDeviceStatus.code c s
    have htags : (s.atParse specDeviceStatus.code c).tagsInFlight = s.tagsInFlight :=
      State.tagsInFlight_of_same (hu .jobs (by decide)) (hu .armed (by decide)) (hu .held (by decide)) ⟨State.atParse_proto_resp .., State.atParse_proto_heldResp ..,
        State.atParse_proto_internalResp .., State.atParse_proto_owedFinals ..⟩
    simp [htags, State.devFlags, State.hottest]
  · exact beginsDma_load specFeProfileLoad c s h rfl rfl
  · exact reports_now specKennelStatus _ c s _ h rfl rfl rfl (by simp)
  · exact beginsDma_send specLifeExport _ _ c s h rfl rfl (fun u hu => congrArg LifeRecord.image (hu .life (by decide)).1)
  · exact beginsDma_send specKennelExport _ _ c s h rfl rfl (fun u hu => congrArg Settings.image (hu .settings (by decide)).1)
  · exact reports_now specShepherdStatus _ c s _ h rfl rfl rfl (by simp)
  · exact beginsDma_load specFwLoad c s h rfl rfl
  · have hfree : s.mgmtFree = true := by
      unfold State.mgmtFree
      rw [hmgmt, hdomain]
      rfl
    exact ⟨_, exec_fwActivate h, activate_restarts (only_atParse _ c s) hfree harmed⟩
  · exact does_parsed (f := State.trialEnded) (l := [.sec, .settings]) h rfl rfl (fun u hu => ⟨(trialEnded_ends u).1.mono (by decide), fun t ht => trialEnded_leaves hu ht⟩) (by decide)
  · exact reports_now specFwStatus _ c s _ h rfl rfl rfl (by simp)
end Sys2Proof.Machine
end

section
/-! A register write that empties a flash slot (O59). -/
namespace Sys2Proof.Machine
section
variable (s : State)
theorem steps_endChannel (c : Nat) (e : DmaEnd) : Steps [.dma, .happened, .msix] s (s.endChannel c e) :=
  have hrecord := (steps_modDc c (fun d => d.ending e c (e.isPartial (s.hostToDevice c)) s.tn) s).mono (m := [.dma, .happened, .msix]) (by decide)
  have hcounted (ev : Ctr) (u : State) := (steps_count ev .dma c 1 u).mono (m := [.dma, .happened, .msix]) (by decide)
  ((hrecord.trans (steps_ite (hcounted ..) (.refl ..))).trans (steps_ite (hcounted ..) (.refl ..))).trans
    (steps_ite (((acts_signal 0 ..).steps_of_engines (by simp)).mono (by decide)) (.refl ..))
/-- ABORT of a waiting channel whose command is an FW_LOAD empties the slot of that command. -/
theorem channelAbort_sec {n : Nat} {j : Job} (hwait : (s.dc n).state = .waiting) (hjobs : s.proto.jobs = [j]) (hchan : onChannel n j = true)
    (hop : j.ticket.opcode = 0xB00) : (s.channelAbort n).sec = (s.setSlot j.cmd .reset).sec := by
  have hend : (s.endChannel n .aborted).sec = s.sec := (steps_endChannel ..).only .sec (by decide)
  have hkept := State.endChannel_jobs n .aborted s
  unfold State.channelAbort State.answerChannel
  dsimp only
  rw [if_pos (by rw [hwait]; rfl), if_neg (by decide), State.finishJobs_sec]
  generalize s.endChannel n .aborted = u at hend hkept
  unfold State.emptySlot?
  rw [hkept, hjobs, List.filter_cons_of_pos (by rw [hchan, hop]; rfl), List.filter_nil, List.foldl_cons, List.foldl_nil]
  unfold State.setSlot
  dsimp only
  rw [hend]
end
/-- An FW_LOAD of slot 0 of the firmware, for which channel 0 works. -/
def firmwareLoad : Job :=
  { ticket := { src := .spi, opcode := 0xB00, tag := 0, issuer := 0, noResponse := false, barrier := false, seq := 0, dead := false }
    cmd := { src := .spi, tag := 0, tn := none, noResponse := false, barrier := false, urgent := false, reserved := 0, issuer := 0, words := [] }
    chan := some 0, lastProgress := 0 }
/-- The device with that command at work, its channel waiting. -/
def loadWaiting : State := (State.reset.modProto (fun p => { p with jobs := [firmwareLoad] })).modDc 0 (fun d => { d with state := .waiting })
theorem loadWaiting_channel : (loadWaiting.dc 0).state = .waiting := by
  unfold loadWaiting
  rw [State.dc_modDc_same _ _ _ (by decide)]
theorem loadWaiting_sec : loadWaiting.sec = Security.reset := rfl
theorem loadWaiting_open : loadWaiting.pathOpen .spi = true := by
  simp [State.pathOpen, State.mapOpen, State.sysHeld, loadWaiting, State.reset, Power.reset, Protocol.reset]
/-- A write of ABORT to the channel's control register. -/
theorem exec_abortWrite : exec (.registerWrite .spi false 0x5028 0x40000000#32) loadWaiting = .next (loadWaiting.channelAbort 0) := by
  refine (?_ : execRegisterWrite .spi false 0x5028 0x40000000#32 loadWaiting = _)
  unfold execRegisterWrite
  rw [loadWaiting_open, if_neg (by decide), if_neg (by decide)]
  unfold State.writeMap State.writeDma
  rw [if_neg (by decide), if_neg (by decide), if_neg (by decide), if_neg (by decide), if_neg (by decide), if_pos (by decide)]
  dsimp only
  rw [loadWaiting_channel, if_pos (by decide), if_pos (by decide), if_neg (by decide), if_pos (by decide)]
theorem shipped_slot : (vget Security.reset.fw 0 FwSlot.reset).valid = true := rfl
/-- Refutes O59: a write of ABORT to a waiting channel of an FW_LOAD empties the command's flash slot, which the frame of the register writes excludes. -/
theorem not_lifeRecordImagesAndRegisters : ¬ Obligations.LifeRecordImagesAndRegisters := by
  unfold Obligations.LifeRecordImagesAndRegisters
  intro h
  obtain ⟨-, -, -, -, -, hwrite⟩ := h loadWaiting
  obtain ⟨-, -, -, hmap, -⟩ := hwrite .spi false 0x5028 0x40000000#32
  obtain ⟨t, ht, -, honly⟩ := hmap rfl
  rw [exec_abortWrite] at ht
  obtain rfl := Host.Outcome.next.inj ht
  have hkept : (loadWaiting.channelAbort 0).sec = loadWaiting.sec := honly .sec (by decide)
  rw [channelAbort_sec loadWaiting loadWaiting_channel rfl rfl rfl] at hkept
  have hslot : vget (loadWaiting.setSlot firmwareLoad.cmd .reset).sec.fw 0 FwSlot.reset = FwSlot.reset := vget_vmod_same _ _ _ _ (by decide)
  rw [hkept, loadWaiting_sec] at hslot
  have hvalid := shipped_slot
  rw [hslot] at hvalid
  exact Bool.noConfusion hvalid
end Sys2Proof.Machine
end

section
/-! The DMA channels (O21). -/
namespace Sys2Proof.Machine

/-! ### What an end commits (R426) -/

section
variable {s t u : State}
theorem calCommit_congr {f : Nat} {im : List Octet} (hcal : t.cal = s.cal) (h : s.calCommit f im = .ok u) :
    ∃ v, t.calCommit f im = .ok v ∧ v.cal = u.cal := by
  unfold State.calCommit at h ⊢
  dsimp only at h ⊢
  split at h
  · cases h
  · obtain rfl := Except.ok.inj h
    exact ⟨_, rfl, by simp only [State.modCal, hcal]⟩
theorem steps_calCommit {f : Nat} {im : List Octet} (h : s.calCommit f im = .ok t) : Steps [.cal] s t := by
  unfold State.calCommit at h
  dsimp only at h
  split at h
  · cases h
  · obtain rfl := Except.ok.inj h
    exact steps_modCal ..
theorem steps_convCommit {e : Nat} {im : List Octet} (h : s.convCommit e im = .ok t) : Steps [.engines] s t := by
  unfold State.convCommit at h
  dsimp only at h
  split at h
  · cases h
  split at h
  · cases h
  · obtain rfl := Except.ok.inj h
    exact steps_modEng ..
theorem steps_imageCommit (c : Cmd) (im : List Octet) (s : State) : Steps [.sec] s (s.imageCommit c im).1 := by
  unfold State.imageCommit
  split
  · split <;> exact steps_setSlot ..
  · exact steps_setSlot ..
/-- What an image that has arrived may change. -/
def commitParts : List Part := [.cal, .engines, .sec]
theorem steps_commitLoad (op : Nat) (c : Cmd) (im : List Octet) (s : State) : Steps commitParts s (s.commitLoad op c im).1 := by
  unfold State.commitLoad
  dsimp only
  split
  · split
    case h_1 h => exact (steps_calCommit h).mono (by decide)
    case h_2 => exact .refl ..
  split
  · exact (steps_modEng ..).mono (by decide)
  split
  · split
    case h_1 h => exact (steps_convCommit h).mono (by decide)
    case h_2 => exact .refl ..
  split
  · split
    · exact (steps_modEng ..).mono (by decide)
    · exact .refl ..
  split
  · have himage := (steps_imageCommit c im s).mono (m := commitParts) (by decide)
    split
    all_goals
      next h =>
        rw [h] at himage
        exact himage
  · exact .refl ..
end

/-! ### The answer of the command (R426, R473) -/

section
variable (n : Nat) (e : DmaEnd) (s : State)
/-- What the answer of a channel's command may move. -/
def channelParts : List Part := .jobs :: (commitParts ++ finalParts)
/-- The answer of a channel's command, with what a good end commits. -/
def State.channelAnswered : State := if e == .done then s.doneChannel n else s.answerChannel n e
/-- No command has the channel. -/
def Unused (t : State) : Prop := ∀ j ∈ t.proto.jobs, onChannel n j = false
theorem unused_finishJobs (st : Status) (d : Nat) (ws : List Word) (u : State) : Unused n (u.finishJobs (onChannel n) st d ws) := by
  intro j hj
  rw [State.finishJobs_proto_jobs, List.mem_filter] at hj
  simpa using hj.2
theorem doneChannel_ends : Steps channelParts s (s.doneChannel n) ∧ Unused n (s.doneChannel n) := by
  unfold State.doneChannel
  split
  case h_1 hnone => exact ⟨.refl .., fun j hj => by simpa using List.find?_eq_none.mp hnone j hj⟩
  case h_2 j hj =>
    have hcommit := steps_commitLoad j.ticket.opcode j.cmd (s.dc n).staged s
    exact ⟨(hcommit.mono (by decide)).trans ((steps_finishJobs ..).mono (by decide)), unused_finishJobs _ _ _ _ _⟩
/-- The ends of a channel that has run. -/
def DmaEnd.ran (e : DmaEnd) : Prop := e = .done ∨ e = .doneWithError ∨ e = .sourceWithdrawn ∨ e = .aborted
theorem emptySlot?_unloaded (hit : Job → Bool) {s : State} (h : ∀ j ∈ s.proto.jobs, hit j = true → j.ticket.opcode ≠ 0xB00) : s.emptySlot? hit = s := by
  unfold State.emptySlot?
  rw [List.filter_eq_nil_iff.mpr (fun j hj hc => h j hj (Bool.and_eq_true_iff.mp hc).1 (beq_iff_eq.mp (Bool.and_eq_true_iff.mp hc).2))]
  rfl
theorem answerChannel_ends {e : DmaEnd} (he : e.ran) (hdone : e ≠ .done) : Steps (.jobs :: .sec :: finalParts) s (s.answerChannel n e)
    ∧ Unused n (s.answerChannel n e)
    ∧ ((∀ j ∈ s.proto.jobs, onChannel n j = true → j.ticket.opcode ≠ 0xB00) → (s.answerChannel n e).sec = s.sec) := by
  have hslot := (steps_emptySlot? (onChannel n) s).mono (m := .jobs :: .sec :: finalParts) (by decide)
  have hended (st : Status) (d : Nat) : Steps (.jobs :: .sec :: finalParts) s ((s.emptySlot? (onChannel n)).finishJobs (onChannel n) st d [])
      ∧ Unused n ((s.emptySlot? (onChannel n)).finishJobs (onChannel n) st d [])
      ∧ ((∀ j ∈ s.proto.jobs, onChannel n j = true → j.ticket.opcode ≠ 0xB00) → ((s.emptySlot? (onChannel n)).finishJobs (onChannel n) st d []).sec = s.sec) :=
    ⟨hslot.trans ((steps_finishJobs ..).mono (by decide)), unused_finishJobs _ _ _ _ _, fun h => by rw [State.finishJobs_sec, emptySlot?_unloaded _ h]⟩
  rcases he with rfl | rfl | rfl | rfl
  · exact absurd rfl hdone
  all_goals exact hended ..
theorem channelAnswered_ends {e : DmaEnd} (he : e.ran) : Steps channelParts s (s.channelAnswered n e) ∧ Unused n (s.channelAnswered n e) := by
  unfold State.channelAnswered
  split
  · exact doneChannel_ends ..
  case isFalse hdone =>
    obtain ⟨hsteps, hunused, -⟩ := answerChannel_ends n s he (fun h => hdone (beq_iff_eq.mpr h))
    exact ⟨hsteps.mono (by decide), hunused⟩
end

/-! ### The end of a channel (Table 17.7) -/

section
variable {n : Nat} {e : DmaEnd} {s : State}
/-- A channel whose data is gone. -/
def DmaChannel.emptied (d : DmaChannel) : DmaChannel := { d with staged := [], out := [] }
theorem State.finishChannel_eq (h : ¬(n = 0 ∧ s.dev.bootGo = true)) :
    s.finishChannel n e = (((s.endChannel n e).channelAnswered n e).modDc n DmaChannel.emptied).dumpOver := by
  unfold State.finishChannel
  rw [if_neg h]
  rfl
/-- What the end of a channel moves. -/
def endParts : List Part := .dma :: .counters :: (channelParts ++ eventParts)
/-- The end of a channel, and what becomes of it. -/
structure Finished (n : Nat) (e : DmaEnd) (s t : State) : Prop where
  steps : Steps endParts s t
  channel : t.dc n = ((s.dc n).ending e n (e.isPartial (s.hostToDevice n)) s.tn).emptied
  others : ∀ q, q ≠ n → t.dc q = s.dc q
  unused : Unused n t
/-- After the answer of its command nothing but the channel and the image of the counters moves. -/
theorem finishChannel_rest (h : ¬(n = 0 ∧ s.dev.bootGo = true)) :
    Steps (.dma :: .counters :: eventParts) ((s.endChannel n e).channelAnswered n e) (s.finishChannel n e) := by
  rw [State.finishChannel_eq h]
  exact ((steps_modDc ..).mono (by decide)).trans ((steps_dumpOver _).mono (by decide))
theorem finishChannel_finishes (hn : n < 16) (he : e.ran) (h : ¬(n = 0 ∧ s.dev.bootGo = true)) : Finished n e s (s.finishChannel n e) := by
  have hend := steps_endChannel s n e
  obtain ⟨hanswer, hunused⟩ := channelAnswered_ends n (s.endChannel n e) he
  have hrest := finishChannel_rest (e := e) h
  have hdma : (s.finishChannel n e).dma = vmod (vmod s.dma n (.ending e n (e.isPartial (s.hostToDevice n)) s.tn)) n DmaChannel.emptied := by
    rw [State.finishChannel_eq h, (steps_dumpOver _).only .dma (by decide)]
    refine congrArg (vmod · n DmaChannel.emptied) ?_
    rw [hanswer.only .dma (by decide), State.endChannel_dma]
  refine ⟨((hend.mono (by decide)).trans (hanswer.mono (by decide))).trans (hrest.mono (by decide)), ?_, fun q hq => ?_, fun j hj => ?_⟩
  · rw [State.dc, hdma, vget_vmod_same _ _ _ _ hn, vget_vmod_same _ _ _ _ hn]
    rfl
  · rw [State.dc, hdma, vget_vmod_ne _ _ _ _ _ hq, vget_vmod_ne _ _ _ _ _ hq]
    rfl
  · rw [hrest.only .jobs (by decide)] at hj
    exact hunused j hj
theorem Unused.chan {t : State} (h : Unused n t) : ∀ j ∈ t.proto.jobs, j.chan ≠ some n := fun j hj hc => by
  have hfree := h j hj
  rw [onChannel, hc, beq_self_eq_true] at hfree
  cases hfree
/-- An end otherwise than DONE commits nothing. -/
theorem finishChannel_uncommitted (he : e.ran) (hdone : e ≠ .done) (h : ¬(n = 0 ∧ s.dev.bootGo = true)) :
    (s.finishChannel n e).cal = s.cal ∧ (s.finishChannel n e).engines = s.engines
      ∧ ((∀ j ∈ s.proto.jobs, onChannel n j = true → j.ticket.opcode ≠ 0xB00) → (s.finishChannel n e).sec = s.sec) := by
  have hend := steps_endChannel s n e
  obtain ⟨hanswer, -, hsec⟩ := answerChannel_ends n (s.endChannel n e) he hdone
  have heq : (s.endChannel n e).channelAnswered n e = (s.endChannel n e).answerChannel n e := if_neg (fun hd => hdone (beq_iff_eq.mp hd))
  have hrest := finishChannel_rest (e := e) h
  rw [heq] at hrest
  refine ⟨?_, ?_, fun hload => ?_⟩
  · exact (hrest.only .cal (by decide)).trans ((hanswer.only .cal (by decide)).trans (hend.only .cal (by decide)))
  · exact (hrest.only .engines (by decide)).trans ((hanswer.only .engines (by decide)).trans (hend.only .engines (by decide)))
  · exact (hrest.only .sec (by decide)).trans ((hsec (by rwa [State.endChannel_jobs])).trans (hend.only .sec (by decide)))
end

/-! ### The commits of an end DONE (R426) -/

section
variable {n : Nat} {s : State} {j : Job}
theorem finishChannel_commits (hn : n < 16) (h : ¬(n = 0 ∧ s.dev.bootGo = true)) (hj : s.proto.jobs.find? (onChannel n) = some j) :
    ((s.finishChannel n .done).cal = ((s.endChannel n .done).commitLoad j.ticket.opcode j.cmd (s.dc n).staged).1.cal)
      ∧ (s.finishChannel n .done).engines = ((s.endChannel n .done).commitLoad j.ticket.opcode j.cmd (s.dc n).staged).1.engines := by
  have hrest := finishChannel_rest (e := .done) h
  have hanswered : (s.endChannel n .done).channelAnswered n .done = (s.endChannel n .done).doneChannel n := if_pos rfl
  have hstaged : ((s.endChannel n .done).dc n).staged = (s.dc n).staged := by
    rw [State.endChannel_dc_same hn]
    rfl
  have hdone : (s.endChannel n .done).doneChannel n = ((s.endChannel n .done).commitLoad j.ticket.opcode j.cmd (s.dc n).staged).1.finishJobs (onChannel n)
      ((s.endChannel n .done).commitLoad j.ticket.opcode j.cmd (s.dc n).staged).2.1 ((s.endChannel n .done).commitLoad j.ticket.opcode j.cmd (s.dc n).staged).2.2 [] := by
    unfold State.doneChannel
    rw [State.endChannel_jobs, hj, hstaged]
  rw [hanswered, hdone] at hrest
  generalize (s.endChannel n .done).commitLoad j.ticket.opcode j.cmd (s.dc n).staged = r at hrest
  have hjobs := steps_finishJobs (onChannel n) r.2.1 r.2.2 [] r.1
  exact ⟨(hrest.only .cal (by decide)).trans (hjobs.only .cal (by decide)), (hrest.only .engines (by decide)).trans (hjobs.only .engines (by decide))⟩
theorem finishChannel_calendar (hn : n < 16) (h : ¬(n = 0 ∧ s.dev.bootGo = true)) (hj : s.proto.jobs.find? (onChannel n) = some j)
    (hop : j.ticket.opcode = 0x200) {u : State} (hu : s.calCommit (cw j.cmd 2) (s.dc n).staged = .ok u) : (s.finishChannel n .done).cal = u.cal := by
  obtain ⟨v, hv, hcal⟩ := calCommit_congr (t := s.endChannel n .done) ((steps_endChannel ..).only .cal (by decide)) hu
  rw [(finishChannel_commits hn h hj).1, hop, State.commitLoad, if_pos rfl, hv]
  exact hcal
theorem finishChannel_coefficients (hn : n < 16) (h : ¬(n = 0 ∧ s.dev.bootGo = true)) (hj : s.proto.jobs.find? (onChannel n) = some j)
    (hop : j.ticket.opcode = 0x10B) (hlt : cIdx j.cmd < 48) : ((s.finishChannel n .done).eng (cIdx j.cmd)).tx = { (s.eng (cIdx j.cmd)).tx with
      nlcShadow := (wordsLE (s.dc n).staged).map (BitVec.ofNat 32), nlcWindowNext := 8 * cw j.cmd 2 } := by
  have hsame : (s.endChannel n .done).eng (cIdx j.cmd) = s.eng (cIdx j.cmd) := by unfold State.eng; rw [State.endChannel_engines]
  rw [State.eng, (finishChannel_commits hn h hj).2, hop, State.commitLoad, if_neg (by decide), if_pos rfl]
  refine (congrArg Engine.tx (State.eng_modEng_same _ _ _ hlt)).trans ?_
  rw [hsame]
theorem finishChannel_profile (hn : n < 16) (h : ¬(n = 0 ∧ s.dev.bootGo = true)) (hj : s.proto.jobs.find? (onChannel n) = some j)
    (hop : j.ticket.opcode = 0x610) (hlt : cIdx j.cmd < 48) {p : FeProfile} (hp : parseProfile (wordsLE (s.dc n).staged) = .ok p) :
    ((s.finishChannel n .done).eng (cIdx j.cmd)).fe.profile = some p := by
  rw [State.eng, (finishChannel_commits hn h hj).2, hop, State.commitLoad, if_neg (by decide), if_neg (by decide), if_neg (by decide), if_pos rfl, hp]
  exact congrArg (fun g : Engine => g.fe.profile) (State.eng_modEng_same _ _ _ hlt)
end

/-! ### A channel to the host (R471) -/

section
variable {n : Nat} {s : State}
theorem modDc_self (n : Nat) (s : State) : s.modDc n (fun d => d) = s := by
  unfold State.modDc vmod
  split
  · simp
  · rfl
/-- What a live dump has not read is read: the octets to send grow, and nothing else moves. -/
theorem dumpRest_reads (n : Nat) (s : State) : ∃ out, s.dumpRest n = s.modDc n (fun d => { d with out := d.out ++ out }) := by
  unfold State.dumpRest State.dumpMore
  split
  · refine ⟨[], ?_⟩
    simp only [List.append_nil]
    exact (modDc_self n s).symm
  · exact ⟨_, rfl⟩
/-- A channel that has moved `m` octets to the host, with the octets `octets`. -/
def DmaChannel.moved (m : Nat) (e : DmaEnd) (octets : List Octet) (d : DmaChannel) : DmaChannel :=
  { d with bytesDone := m, linesDone := if d.lineLen = 0 then 0 else m / d.lineLen
           placed := if e == .doneWithError then [] else ((List.range m).zip octets).flatMap (fun x => d.hostWrite x.1 x.2) }
/-- The octets a transfer of `m` octets sends: those that are known, and free values. -/
def State.placedOctets (s : State) (n m : Nat) : List Octet :=
  (List.range m).map (fun k => (s.sends (s.dc n)).getD k (BitVec.ofNat 8 (Config.freeValue (s.freeCtr + k))))
theorem steps_place (n m : Nat) (e : DmaEnd) (s : State) : Steps [.dma, .freeCtr] s (s.place n m e) :=
  ((steps_freeCtr _ s).mono (by decide)).trans ((steps_modDc ..).mono (by decide))
theorem place_moves (hn : n < 16) (m : Nat) (e : DmaEnd) (s : State) : (s.place n m e).dc n = (s.dc n).moved m e (s.placedOctets n m)
    ∧ ∀ q, q ≠ n → (s.place n m e).dc q = s.dc q :=
  ⟨vget_vmod_same _ _ _ _ hn, fun _ hq => vget_vmod_ne _ _ _ _ _ hq⟩
/-- An octet that is known stands at its host address. -/
theorem moved_places {d : DmaChannel} {m k : Nat} {e : DmaEnd} {x : Octet} (herr : e ≠ .doneWithError) (hk : k < m)
    (hx : (s.sends (s.dc n))[k]? = some x) : ∀ y ∈ d.hostWrite k x, y ∈ (d.moved m e (s.placedOctets n m)).placed := by
  intro y hy
  have hpair : (k, x) ∈ (List.range m).zip (s.placedOctets n m) := by
    refine List.mem_iff_getElem?.mpr ⟨k, List.getElem?_zip_eq_some.mpr ⟨List.getElem?_range hk, ?_⟩⟩
    unfold State.placedOctets
    rw [List.getElem?_map, List.getElem?_range hk, Option.map_some, List.getD_eq_getElem?_getD, hx]
    rfl
  have hplaced : (d.moved m e (s.placedOctets n m)).placed = ((List.range m).zip (s.placedOctets n m)).flatMap (fun z => d.hostWrite z.1 z.2) :=
    if_neg (fun h => herr (beq_iff_eq.mp h))
  rw [hplaced]
  exact List.mem_flatMap.mpr ⟨(k, x), hpair, hy⟩
theorem loadEnd_ran {d : DmaChannel} {err : Bool} {e : DmaEnd} (h : d.loadEnd err = some e) : e.ran := by
  unfold DmaChannel.loadEnd at h
  unfold DmaEnd.ran
  split at h
  · simp_all
  split at h
  · simp_all
  split at h
  · simp_all
  · cases h
theorem sendEnd_ran {d : DmaChannel} {err : Bool} {moved : Nat} {e : DmaEnd} (h : s.sendEnd d err moved = some e) : e.ran := by
  unfold State.sendEnd at h
  unfold DmaEnd.ran
  dsimp only at h
  split at h
  · simp_all
  split at h
  · simp_all
  split at h
  · simp_all
  split at h
  · simp_all
  split at h
  · simp_all
  · cases h
/-- The parts the two kinds of ends leave alone. -/
theorem Finished.leaves {e : DmaEnd} {t : State} (h : Finished n e s t) :
    t.tn = s.tn ∧ t.ports = s.ports ∧ t.packs = s.packs ∧ t.time = s.time ∧ t.map = s.map :=
  ⟨h.steps.only .tn (by decide), h.steps.only .ports (by decide), h.steps.only .packs (by decide), h.steps.only .time (by decide),
    h.steps.only .map (by decide)⟩
end

/-! ### The rows of the channels -/

section
variable {n : Fin 16} {s : State}
theorem boot_free (h : ¬(n = 0 ∧ s.dev.bootGo = true)) : ¬(n.val = 0 ∧ s.dev.bootGo = true) := fun ⟨hn, hb⟩ => h ⟨Fin.ext hn, hb⟩
/-- A CAPTURE channel at GO, its counts cleared. -/
def DmaChannel.cleared (d : DmaChannel) : DmaChannel :=
  { d with linesDone := 0, bytesDone := 0, ended := .none, bad := false, abort := false, withdrawn := false, staged := [], out := [], placed := [] }
theorem channelGo_eq (hsel : (s.dc n).devSel = true) (hwait : (s.dc n).state ≠ .waiting) (hrun : (s.dc n).state ≠ .running)
    (hboot : ¬(n = 0 ∧ s.dev.bootGo = true)) : s.channelGo n = if (s.dc n).captureOk then
      (s.modDc n DmaChannel.cleared).modDc n (fun d => { d with state :=
        if (s.tile (s.dc n).tile).capture.state == .filling || (s.tile (s.dc n).tile).capture.state == .done then .running else .waiting })
      else (s.modDc n DmaChannel.cleared).endChannel n .descInvalid := by
  have hfree : ((s.dc n).state == DmaState.waiting || (s.dc n).state == DmaState.running || !(s.dc n).devSel || (n.val == 0 && s.dev.bootGo)) = false := by
    have hrom : (n.val == 0 && s.dev.bootGo) = false := by
      rw [Bool.and_eq_false_iff]
      by_cases hn : n.val = 0
      · exact .inr (Bool.eq_false_iff.mpr (fun hb => boot_free hboot ⟨hn, hb⟩))
      · exact .inl (beq_eq_false_iff_ne.mpr hn)
    rw [beq_eq_false_iff_ne.mpr hwait, beq_eq_false_iff_ne.mpr hrun, hsel, hrom]
    rfl
  unfold State.channelGo
  dsimp only
  rw [hfree, if_neg Bool.false_ne_true]
  rfl
theorem dmaGo_binds (hopen : s.mapOpen = true) (hsel : (s.dc n).devSel = true) (hwait : (s.dc n).state ≠ .waiting) (hrun : (s.dc n).state ≠ .running)
    (hboot : ¬(n = 0 ∧ s.dev.bootGo = true)) : Happens [.dma, .happened, .msix] (fun t => (∀ q, q ≠ n.val → t.dc q = s.dc q)
      ∧ ((s.dc n).captureOk = true → t.dc n = { s.dc n with
          linesDone := 0, bytesDone := 0, ended := .none, bad := false, abort := false, withdrawn := false, staged := [], out := [], placed := []
          state := if (s.tile (s.dc n).tile).capture.state = .filling ∨ (s.tile (s.dc n).tile).capture.state = .done then .running else .waiting })
      ∧ ((s.dc n).captureOk = false → (t.dc n).state = .ended ∧ (t.dc n).ended = .descInvalid ∧ (t.dc n).record ≠ none)) s (exec (.dmaGo n) s) := by
  have hclear := (steps_modDc n DmaChannel.cleared s).mono (m := [.dma, .happened, .msix]) (by decide)
  have hothers : ∀ q, q ≠ n.val → (s.modDc n DmaChannel.cleared).dc q = s.dc q := fun q hq => State.dc_modDc_ne _ _ _ _ hq
  refine ⟨s.channelGo n, if_pos hopen, ?_⟩
  rw [channelGo_eq hsel hwait hrun hboot]
  by_cases hok : (s.dc n).captureOk = true
  · rw [if_pos hok]
    refine ⟨⟨fun q hq => (State.dc_modDc_ne _ _ _ _ hq).trans (hothers q hq), fun _ => ?_, fun h => by rw [hok] at h; cases h⟩,
      (hclear.trans ((steps_modDc ..).mono (by decide))).only⟩
    rw [State.dc_modDc_same _ _ _ n.isLt, State.dc_modDc_same _ _ _ n.isLt]
    simp only [DmaChannel.cleared, Bool.or_eq_true, beq_iff_eq]
  · rw [if_neg hok]
    refine ⟨⟨fun q hq => (State.endChannel_dc_ne hq ..).trans (hothers q hq), fun h => absurd h hok, fun _ => ?_⟩,
      (hclear.trans (steps_endChannel ..)).only⟩
    rw [State.endChannel_dc_same n.isLt]
    exact ⟨rfl, rfl, Option.some_ne_none _⟩
theorem dmaAbort_ends (hopen : s.mapOpen = true) (hwait : (s.dc n).state = .waiting) :
    Happens [.dma, .happened, .jobs, .responses, .msix, .queueRegs, .alertN, .sec] (fun t => (∀ q, q ≠ n.val → t.dc q = s.dc q)
      ∧ (t.dc n).state = .ended ∧ (t.dc n).ended = .aborted
      ∧ ((∀ j ∈ s.proto.jobs, j.chan = some n.val → j.ticket.opcode ≠ 0xB00) → t.sec = s.sec)) s (exec (.dmaAbort n) s) := by
  have habort : s.channelAbort n = (s.endChannel n .aborted).answerChannel n .aborted := if_pos (beq_iff_eq.mpr hwait)
  have hend := steps_endChannel s n .aborted
  obtain ⟨hanswer, -, hsec⟩ := answerChannel_ends n (s.endChannel n .aborted) (e := .aborted) (.inr (.inr (.inr rfl))) (by decide)
  rw [State.endChannel_jobs] at hsec
  have hdc : ∀ q, ((s.endChannel n .aborted).answerChannel n .aborted).dc q = (s.endChannel n .aborted).dc q := fun q => by
    unfold State.dc
    rw [hanswer.only .dma (by decide)]
  refine ⟨s.channelAbort n, if_pos hopen, ?_⟩
  rw [habort]
  refine ⟨⟨fun q hq => (hdc q).trans (State.endChannel_dc_ne hq ..), ?_, ?_, fun h => ?_⟩,
    ((hend.mono (m := [.dma, .happened, .jobs, .responses, .msix, .queueRegs, .alertN, .sec]) (by decide)).trans (hanswer.mono (by decide))).only⟩
  · rw [hdc, State.endChannel_dc_same n.isLt]
    rfl
  · rw [hdc, State.endChannel_dc_same n.isLt]
    rfl
  · exact (hsec (fun j hj hc => h j hj (beq_iff_eq.mp hc))).trans (hend.only .sec (by decide))
theorem dmaAbort_marks (hopen : s.mapOpen = true) (hrun : (s.dc n).state = .running)
    (hleft : (s.dc n).devSel = true ∨ (s.dc n).staged.length ≠ (s.dc n).lineLen * (s.dc n).lineCount) :
    Happens [.dma] (ChannelIs n (fun d => { d with abort := true }) s) s (exec (.dmaAbort n) s) := by
  have hmore : ((s.dc n).state == DmaState.running && !((s.dc n).staged.length == (s.dc n).lineLen * (s.dc n).lineCount && !(s.dc n).devSel)) = true := by
    rcases hleft with h | h
    · simp [hrun, h]
    · simp [hrun, h]
  refine ⟨s.modDc n (fun d => { d with abort := true }), ?_, ⟨State.dc_modDc_same _ _ _ n.isLt, fun q hq => State.dc_modDc_ne _ _ _ _ hq⟩,
    (steps_modDc ..).only⟩
  refine (if_pos hopen : execDmaAbort n s = _).trans (congrArg Host.Outcome.next ?_)
  unfold State.channelAbort
  dsimp only
  rw [if_neg (by rw [hrun]; decide), if_pos hmore]
theorem dmaReadCompletion_stages (good : Bool) (data : List Octet) (hrun : (s.dc n).state = .running) (hsel : (s.dc n).devSel = false) :
    Happens [.dma] (ChannelIs n (fun d => { d with
      staged := d.staged ++ (if good then data else []), bad := d.bad || !good, bytesDone := d.bytesDone + data.length
      linesDone := if d.lineLen = 0 then 0 else (d.bytesDone + data.length) / d.lineLen }) s) s (exec (.dmaReadCompletion n good data) s) := by
  refine ⟨_, (if_pos (by rw [hrun, hsel]; rfl) : execDmaReadCompletion n good data s = _), ⟨State.dc_modDc_same _ _ _ n.isLt, fun q hq => State.dc_modDc_ne _ _ _ _ hq⟩,
    (steps_modDc ..).only⟩
theorem exec_loadEnd {err : Bool} {e : DmaEnd} (moved : Nat) (hrun : (s.dc n).state = .running) (hload : s.hostToDevice n = true)
    (he : (s.dc n).loadEnd err = some e) : exec (.dmaChannelEnd n err moved) s = .next (s.finishChannel n e) := by
  refine (?_ : execDmaChannelEnd n err moved s = _)
  unfold execDmaChannelEnd
  dsimp only
  rw [if_neg (not_not.mpr hrun), if_pos hload, he]
theorem exec_sendEnd {err : Bool} {e : DmaEnd} {moved : Nat} (hrun : (s.dc n).state = .running) (hload : s.hostToDevice n = false)
    (he : (s.dumpRest n).sendEnd ((s.dumpRest n).dc n) err moved = some e) : exec (.dmaChannelEnd n err moved) s
      = .next (((s.dumpRest n).place n ((s.dumpRest n).movedAt ((s.dumpRest n).dc n) e moved) e).finishChannel n e) := by
  refine (?_ : execDmaChannelEnd n err moved s = _)
  unfold execDmaChannelEnd
  dsimp only
  rw [if_neg (not_not.mpr hrun), hload, if_neg Bool.false_ne_true, he]
theorem sends_ends {err : Bool} {e : DmaEnd} {moved : Nat} {u : State} (hu : u = s.dumpRest n) (hrun : (s.dc n).state = .running)
    (hboot : ¬(n = 0 ∧ s.dev.bootGo = true)) (hload : s.hostToDevice n = false) (he : u.sendEnd (u.dc n) err moved = some e) :
    Completes (exec (.dmaChannelEnd n err moved) s) (fun t =>
      (t.dc n).state = .ended ∧ (t.dc n).ended = e ∧ (∀ q, q ≠ n.val → t.dc q = s.dc q)
      ∧ (t.dc n).bytesDone = u.movedAt (u.dc n) e moved
      ∧ (e = .done → (t.dc n).bytesDone = (s.dc n).lineLen * (s.dc n).lineCount)
      ∧ (e ≠ .doneWithError → ∀ k, k < (t.dc n).bytesDone → k < (u.sends (u.dc n)).length → ∃ x,
          (u.sends (u.dc n))[k]? = some x ∧ ∀ y ∈ (s.dc n).hostWrite k x, y ∈ (t.dc n).placed)
      ∧ (∀ j ∈ t.proto.jobs, j.chan ≠ some n.val)
      ∧ t.tn = s.tn ∧ t.ports = s.ports ∧ t.packs = s.packs ∧ t.time = s.time ∧ t.map = s.map) := by
  obtain ⟨out, hout⟩ := dumpRest_reads n s
  have hexec := exec_sendEnd hrun hload (hu ▸ he)
  rw [← hu] at hexec hout
  have hread : Steps endParts s u := hout ▸ (steps_modDc ..).mono (by decide)
  have hdc : u.dc n = { s.dc n with out := (s.dc n).out ++ out } := by rw [hout, State.dc_modDc_same _ _ _ n.isLt]
  have hothers : ∀ q, q ≠ n.val → u.dc q = s.dc q := fun q hq => by rw [hout, State.dc_modDc_ne _ _ _ _ hq]
  have hplace := steps_place n (u.movedAt (u.dc n) e moved) e u
  obtain ⟨hmoved, hkept⟩ := place_moves n.isLt (u.movedAt (u.dc n) e moved) e u
  have hbootGo : (u.place n (u.movedAt (u.dc n) e moved) e).dev.bootGo = s.dev.bootGo := by rw [hout]; rfl
  have hfinish := finishChannel_finishes (s := u.place n (u.movedAt (u.dc n) e moved) e) n.isLt (sendEnd_ran he) (by rw [hbootGo]; exact boot_free hboot)
  refine ⟨_, hexec, ?_⟩
  generalize (u.place n (u.movedAt (u.dc n) e moved) e).finishChannel n e = t at hfinish ⊢
  generalize u.place n (u.movedAt (u.dc n) e moved) e = v at hplace hmoved hkept hfinish
  have hleft := hfinish.leaves
  obtain ⟨-, hchannel, hrest, hunused⟩ := hfinish
  have hbytes : (t.dc n).bytesDone = u.movedAt (u.dc n) e moved := by rw [hchannel, hmoved]; rfl
  have hplaced : (t.dc n).placed = ((u.dc n).moved (u.movedAt (u.dc n) e moved) e (u.placedOctets n (u.movedAt (u.dc n) e moved))).placed := by
    rw [hchannel, hmoved]
    rfl
  refine ⟨by rw [hchannel]; rfl, by rw [hchannel]; rfl, fun q hq => ?_, hbytes, fun hdone => ?_, fun herr k hk hknown => ?_, hunused.chan, ?_⟩
  · rw [hrest q hq, hkept q hq, hothers q hq]
  · rw [hbytes, hdone, hdc]
    rfl
  · refine ⟨(u.sends (u.dc n))[k], List.getElem?_eq_getElem hknown, fun y hy => ?_⟩
    rw [hplaced]
    rw [hbytes] at hk
    have hwrite : ∀ x, (u.dc n).hostWrite k x = (s.dc n).hostWrite k x := fun x => by rw [hdc]; rfl
    exact moved_places herr hk (List.getElem?_eq_getElem hknown) y ((hwrite _).symm ▸ hy)
  · obtain ⟨htn, hports, hpacks, htime, hmap⟩ := hleft
    exact ⟨htn.trans ((hplace.only .tn (by decide)).trans (hread.only .tn (by decide))),
      hports.trans ((hplace.only .ports (by decide)).trans (hread.only .ports (by decide))),
      hpacks.trans ((hplace.only .packs (by decide)).trans (hread.only .packs (by decide))),
      htime.trans ((hplace.only .time (by decide)).trans (hread.only .time (by decide))),
      hmap.trans ((hplace.only .map (by decide)).trans (hread.only .map (by decide)))⟩
end
/-- Settles O21: GO, ABORT and read completions by the one channel each moves, an end by its record, its answer and what it commits. -/
theorem dmaChannels : Obligations.DmaChannels := by
  unfold Obligations.DmaChannels
  intro n s
  refine ⟨dmaGo_binds, fun hclosed => ⟨?_, ?_⟩, dmaAbort_ends, dmaAbort_marks, dmaReadCompletion_stages, fun err moved e hrun hboot => ⟨fun hload he => ?_, fun u hu hload he => ?_⟩⟩
  · exact (if_neg (by rw [hclosed]; exact Bool.false_ne_true) : execDmaGo n s = _)
  · exact (if_neg (by rw [hclosed]; exact Bool.false_ne_true) : execDmaAbort n s = _)
  · have hfree := boot_free hboot
    have hfinish := finishChannel_finishes n.isLt (loadEnd_ran he) hfree
    have hleft := hfinish.leaves
    obtain ⟨-, hchannel, hrest, hunused⟩ := hfinish
    rw [hload] at hchannel
    refine ⟨_, exec_loadEnd moved hrun hload he, by rw [hchannel]; rfl, by rw [hchannel]; rfl, by rw [hchannel]; rfl, hrest, by rw [hchannel]; rfl, hunused.chan,
      fun j hdone hj => ?_, fun hdone => ?_, hleft⟩
    · subst hdone
      exact ⟨fun hop u hu => finishChannel_calendar n.isLt hfree hj hop hu, fun hop hlt => finishChannel_coefficients n.isLt hfree hj hop hlt,
        fun hop hlt p hp => finishChannel_profile n.isLt hfree hj hop hlt hp⟩
    · obtain ⟨hcal, hengines, hsec⟩ := finishChannel_uncommitted (loadEnd_ran he) hdone hfree
      exact ⟨hcal, hengines, fun h => hsec (fun j hj hc => h j hj (beq_iff_eq.mp hc))⟩
  · exact sends_ends hu hrun hboot hload he
end Sys2Proof.Machine
end

section
/-! Isolation and fencing (O52). -/
namespace Sys2Proof.Machine

/-! ### What an abort and a new search pass leave of an engine -/

/-- The isolation of an engine, and its transmitter. -/
def Engine.isolation (g : Engine) : Option Iso × Transmit := (g.iso, g.tx)
section
variable (e j : Nat) (s : State)
theorem State.setHeel_isolation (heel : Bool) (m : Int) : ((s.setHeel e heel m).eng j).isolation = (s.eng j).isolation := by
  unfold State.setHeel
  split
  · rfl
  · rw [State.eng_raise]
    exact State.eng_modEng_of Engine.isolation ..
theorem State.alignRelease_isolation (next : AcqState) : ((s.alignRelease e next).eng j).isolation = (s.eng j).isolation :=
  (State.eng_modEng_of Engine.isolation ..).trans (State.setHeel_isolation ..)
theorem State.startPass_isolation : ((s.startPass e).eng j).isolation = (s.eng j).isolation := by
  refine (State.eng_modEng_of Engine.isolation ..).trans ((State.eng_modEng_of Engine.isolation ..).trans
    ((State.eng_modEng_of Engine.isolation ..).trans ?_))
  simp
theorem State.acqRestart_isolation : ((s.acqRestart e).eng j).isolation = (s.eng j).isolation := by
  unfold State.acqRestart State.searchClock
  dsimp only
  (repeat' split)
  · rfl
  · exact (State.startPass_isolation ..).trans (State.alignRelease_isolation ..)
  · exact ((State.startPass_isolation ..).trans (State.alignRelease_isolation ..)).trans (State.eng_modEng_of Engine.isolation ..)
theorem State.abortAnn_isolation (cause : AbortCause) : ((s.abortAnn e cause).eng j).isolation = (s.eng j).isolation := by
  have hload (f : Loading → Loading) : ((s.modLoad e f).eng j).isolation = (s.eng j).isolation := State.eng_modEng_of Engine.isolation ..
  unfold State.abortAnn
  split
  · rfl
  · dsimp only
    (repeat' split)
    · rfl
    all_goals simp [hload]
theorem acts_abortAnn (cause : AbortCause) : Acts e abortParts s (s.abortAnn e cause) := by
  have hload (f : Loading → Loading) : Acts e abortParts s (s.modLoad e f) := (acts_modEng ..).mono (by simp)
  unfold State.abortAnn
  split
  · exact .refl ..
  · refine acts_ite (.refl ..) ?_
    have htold (f : Loading → Loading) := (hload f).trans (acts_abortTold e cause _)
    exact acts_ite ((htold _).trans ((acts_finishJobs ..).mono (by decide))) (htold _)
/-- Nothing becomes pending. -/
def Unarmed (s t : State) : Prop := s.proto.armed = [] → t.proto.armed = []
theorem unarmed_cancelArmed (p : Armed → Bool) (st : Status) (d : Nat) : Unarmed s (s.cancelArmed p st d) := fun h => by
  rw [State.cancelArmed_proto_armed, h]
  rfl
theorem unarmed_abortAnn (cause : AbortCause) : Unarmed s (s.abortAnn e cause) := fun h => by
  unfold State.abortAnn
  split
  · exact h
  · dsimp only
    (repeat' split) <;> simpa [State.modLoad] using h
theorem unarmed_alignRelease (next : AcqState) : Unarmed s (s.alignRelease e next) := fun h => by
  unfold State.alignRelease State.setHeel
  dsimp only
  split <;> simpa [State.modAcq] using h
theorem unarmed_startPass : Unarmed s (s.startPass e) := fun h => by
  simp [State.startPass, State.dropCdSwap, State.modEq, State.cancelArmed_proto_armed, h]
theorem unarmed_acqRestart : Unarmed s (s.acqRestart e) := fun h => by
  have hsearch : (s.searchClock e).proto.armed = [] := h
  unfold State.acqRestart
  dsimp only
  (repeat' split)
  · exact h
  · exact unarmed_startPass _ _ (unarmed_alignRelease _ _ _ h)
  · exact unarmed_startPass _ _ (unarmed_alignRelease _ _ _ hsearch)
end

/-! ### The isolation of an engine (R490 to R494) -/

section
variable {e : Nat} {i : Option Iso} {s : State}
/-- Whether an isolation squelches. -/
def squelched : Option Iso → Bool
  | some x => x.squelch
  | none => false
/-- An engine with an isolation written. -/
def Engine.isolated (i : Option Iso) (g : Engine) : Engine := { g with iso := i, tx := { g.tx with reason := { g.tx.reason with isolate := squelched i } } }
/-- An isolation as written, with an announcement aborted on entry. -/
def State.isoEntered (e : Nat) (i : Option Iso) (s : State) : State :=
  if i.isSome then (s.modEng e (.isolated i)).abortAnn e .isolate else s.modEng e (.isolated i)
/-- The search of an engine whose loopback was `old`. -/
def State.isoSearched (e old : Nat) (s : State) : State := if (s.eng e).loopback = old then s else s.acqRestart e
theorem State.setIso_eq : s.setIso e i = ((s.isoEntered e i).isoSearched e (s.eng e).loopback).isolateTold e := by
  cases i <;> rfl
/-- What a change of isolation moves besides its engine. -/
def isoParts : List Part := .armed :: .jobs :: .responses :: .life :: eventParts
theorem acts_isoEntered (e : Nat) (i : Option Iso) (s : State) : Acts e isoParts s (s.isoEntered e i) := by
  have hset : Acts e isoParts s (s.modEng e (.isolated i)) := (acts_modEng ..).mono (by simp)
  exact acts_ite (hset.trans ((acts_abortAnn ..).mono (by decide))) hset
theorem acts_isoSearched (e old : Nat) (s : State) : Acts e isoParts s (s.isoSearched e old) :=
  acts_ite (.refl ..) ((acts_acqRestart ..).mono (by decide))
theorem acts_isolateTold (e : Nat) (s : State) : Acts e (.life :: eventParts) s (s.isolateTold e) :=
  (acts_lifeBump ..).trans ((acts_raise ..).mono (by decide))
theorem acts_setIso (e : Nat) (i : Option Iso) (s : State) : Acts e isoParts s (s.setIso e i) := by
  rw [State.setIso_eq]
  exact ((acts_isoEntered ..).trans (acts_isoSearched ..)).trans ((acts_isolateTold ..).mono (by decide))
theorem isoEntered_isolation (he : e < 48) (i : Option Iso) (s : State) : ((s.isoEntered e i).eng e).isolation = ((s.eng e).isolated i).isolation := by
  have hset : ((s.modEng e (.isolated i)).eng e).isolation = ((s.eng e).isolated i).isolation := congrArg Engine.isolation (State.eng_modEng_same _ _ _ he)
  unfold State.isoEntered
  split
  · exact (State.abortAnn_isolation ..).trans hset
  · exact hset
theorem isoSearched_isolation (e old : Nat) (s : State) : ((s.isoSearched e old).eng e).isolation = (s.eng e).isolation := by
  unfold State.isoSearched
  split
  · rfl
  · exact State.acqRestart_isolation ..
theorem State.eng_isolateTold (e j : Nat) (s : State) : (s.isolateTold e).eng j = s.eng j := by
  unfold State.isolateTold State.lifeIsolation
  rw [State.eng_raise, State.eng_lifeBump]
theorem isolateTold_raised (e : Nat) (s : State) : Raised .isolateChange .engine e [] s.tn (s.isolateTold e) :=
  raised_raise_tn ((acts_lifeBump e ..).tn)
/-- A change of isolation writes it and is told. -/
theorem setIso_isolates (he : e < 48) (i : Option Iso) (s : State) :
    ((s.setIso e i).eng e).iso = i ∧ ((s.setIso e i).eng e).tx.reason.isolate = squelched i ∧ Raised .isolateChange .engine e [] s.tn (s.setIso e i) := by
  have hentered := acts_isoEntered e i s
  have hsearched := acts_isoSearched e (s.eng e).loopback (s.isoEntered e i)
  have hkept := (isoSearched_isolation e (s.eng e).loopback _).trans (isoEntered_isolation he i s)
  have htold := isolateTold_raised e ((s.isoEntered e i).isoSearched e (s.eng e).loopback)
  rw [hsearched.tn, hentered.tn] at htold
  rw [State.setIso_eq, State.eng_isolateTold]
  exact ⟨congrArg Prod.fst hkept, congrArg (fun x : Option Iso × Transmit => x.2.reason.isolate) hkept, htold⟩
theorem unarmed_isolateTold (e : Nat) (s : State) : Unarmed s (s.isolateTold e) := fun h => by
  unfold State.isolateTold State.lifeIsolation
  rw [State.raise_proto_armed, (acts_lifeBump e ..).within.1 .armed (by decide)]
  exact h
theorem unarmed_setIso (e : Nat) (i : Option Iso) (s : State) : Unarmed s (s.setIso e i) := fun h => by
  rw [State.setIso_eq]
  have hset : (s.modEng e (.isolated i)).proto.armed = [] := h
  have hentered : (s.isoEntered e i).proto.armed = [] := by
    unfold State.isoEntered
    split
    · exact unarmed_abortAnn _ _ _ hset
    · exact hset
  refine unarmed_isolateTold _ _ ?_
  unfold State.isoSearched
  split
  · exact hentered
  · exact unarmed_acqRestart _ _ hentered
/-- With the receiver DISABLED the end of an isolation changes nothing else of the engine. -/
theorem setIso_disabled (he : e < 48) (hoff : (s.eng e).acq.state = .disabled) :
    Steps (.engines :: .life :: eventParts) s (s.setIso e none) ∧ EngineIs e (.isolated none) s (s.setIso e none) := by
  have hset := steps_modEng e (.isolated none) s
  have hengine := engineIs_modEng he (.isolated none) s
  have hkept : ((s.modEng e (.isolated none)).eng e).acq.state = .disabled := (congrArg (fun g : Engine => g.acq.state) hengine.1).trans hoff
  have hsearched : (s.modEng e (.isolated none)).isoSearched e (s.eng e).loopback = s.modEng e (.isolated none) := by
    unfold State.isoSearched State.acqRestart
    dsimp only
    rw [hkept, if_pos (show (AcqState.disabled == AcqState.disabled || AcqState.disabled == AcqState.noSignal) = true from rfl), ite_self]
  have heq : s.setIso e none = (s.modEng e (.isolated none)).isolateTold e := State.setIso_eq.trans (congrArg (State.isolateTold e) hsearched)
  rw [heq]
  have htold := (acts_isolateTold e (s.modEng e (.isolated none))).steps
  exact ⟨(hset.mono (by simp)).trans htold, (State.eng_isolateTold ..).trans hengine.1, fun j hj => (State.eng_isolateTold ..).trans (hengine.2 j hj)⟩
end

/-! ### An engine that is fenced (R495) -/

/-- What fencing makes of an engine. -/
structure Engine.Fenced (g : Engine) : Prop where
  reason : g.tx.reason.fence = true
  state : g.acq.state = .disabled
  slots : g.key.slots = Vector.replicate 4 none
  iso : g.iso = none
  hub : g.hubSlots = []
/-- What fencing the engines of a tile moves. -/
def fenceParts : List Part := .life :: erasureParts
section
variable {e : Nat} {s u t : State}
/-- A step at one engine alone that leaves nothing pending. -/
structure Fences (e : Nat) (s t : State) : Prop where
  steps : Steps fenceParts s t
  others : OtherEngines e s t
  armed : Unarmed s t
theorem Fences.refl (e : Nat) (s : State) : Fences e s s := ⟨.refl .., fun _ _ => rfl, fun h => h⟩
theorem Fences.trans (h : Fences e s u) (h' : Fences e u t) : Fences e s t :=
  ⟨h.steps.trans h'.steps, fun j hj => (h'.others j hj).trans (h.others j hj), fun ha => h'.armed (h.armed ha)⟩
theorem fences_modEng (e : Nat) (g : Engine → Engine) (s : State) : Fences e s (s.modEng e g) :=
  ⟨(steps_modEng ..).mono (by decide), fun _ hj => State.eng_modEng_ne _ _ _ _ hj, fun h => h⟩
theorem unarmed_emptySlots (e : Nat) (l : List Nat) (why : EraseCause) (s : State) : Unarmed s (s.emptySlots e l why) := fun h =>
  List.foldlRecOn (motive := fun t : State => t.proto.armed = []) l (fun s i => s.emptySlot e i why) h (fun u hu i _ => by
    have hdrop (p : Armed → Bool) : (if why = .realign then u else u.cancelArmed p .cancelled Ev.keyErased.code).proto.armed = [] := by
      split
      · exact hu
      · exact unarmed_cancelArmed _ _ _ _ hu
    unfold State.emptySlot
    dsimp only
    rw [apply_ite (fun t : State => t.proto.armed), State.raise_proto_armed]
    exact (ite_self _).trans (hdrop _))
/-- The receiver leaves alignment for DISABLED, unless it is there. -/
def State.fenceReleased (e : Nat) (s : State) : State := if (s.eng e).acq.state == .disabled then s else s.alignRelease e .disabled
theorem fenceReleased_releases (he : e < 48) (s : State) : Fences e s (s.fenceReleased e) ∧ ((s.fenceReleased e).eng e).acq.state = .disabled
    ∧ ((s.fenceReleased e).eng e).isolation = (s.eng e).isolation := by
  unfold State.fenceReleased
  split
  case isTrue h => exact ⟨.refl .., beq_iff_eq.mp h, rfl⟩
  case isFalse h =>
    have hacts := acts_alignRelease e .disabled s
    exact ⟨⟨hacts.steps.mono (by decide), hacts.within.2, unarmed_alignRelease _ _ _⟩, State.alignRelease_state he .., State.alignRelease_isolation ..⟩
/-- An isolation ends, where there is one. -/
def State.fenceRestored (e : Nat) (s : State) : State := if (s.eng e).iso.isSome then s.setIso e none else s
theorem fenceRestored_restores (he : e < 48) (hoff : (s.eng e).acq.state = .disabled) : Fences e s (s.fenceRestored e)
    ∧ ((s.fenceRestored e).eng e).iso = none ∧ ((s.fenceRestored e).eng e).acq = (s.eng e).acq ∧ ((s.fenceRestored e).eng e).key = (s.eng e).key
    ∧ ((s.fenceRestored e).eng e).tx.reason.fence = (s.eng e).tx.reason.fence := by
  unfold State.fenceRestored
  split
  · obtain ⟨hsteps, heng, hothers⟩ := setIso_disabled he hoff
    rw [heng]
    exact ⟨⟨hsteps.mono (by decide), hothers, unarmed_setIso _ _ _⟩, rfl, rfl, rfl, rfl⟩
  case isFalse h => exact ⟨.refl .., Option.not_isSome_iff_eq_none.mp h, rfl, rfl, rfl⟩
theorem State.fenceEngineStep_eq : s.fenceEngineStep e =
    ((((((s.modTx e (fun t => { t with reason := { t.reason with fence := true } })).fenceReleased e).dropSvc e).emptySlots e [0, 1, 2, 3] .fence).fenceRestored e).modEng e
      (fun g => { g with key := { g.key with rxSwitch := Option.none }, hubSlots := [], frameSlots := [], cap := g.cap.filter (fun c => c.txDone || c.rxDone) })) := rfl
theorem fenceEngineStep_fences (he : e < 48) (s : State) : Fences e s (s.fenceEngineStep e) ∧ ((s.fenceEngineStep e).eng e).Fenced := by
  rw [State.fenceEngineStep_eq]
  have hset : Fences e s (s.modTx e (fun t => { t with reason := { t.reason with fence := true } })) := fences_modEng ..
  have hreason : ((s.modTx e (fun t => { t with reason := { t.reason with fence := true } })).eng e).tx.reason.fence = true :=
    congrArg (fun g : Engine => g.tx.reason.fence) (State.eng_modEng_same _ _ _ he)
  generalize s.modTx e (fun t => { t with reason := { t.reason with fence := true } }) = a at hset hreason ⊢
  obtain ⟨hrelease, hoff, hkept⟩ := fenceReleased_releases he a
  have htx : ((a.fenceReleased e).eng e).tx = (a.eng e).tx := congrArg Prod.snd hkept
  rw [← htx] at hreason
  generalize a.fenceReleased e = b at hrelease hoff hreason ⊢
  have hdrop : Fences e b (b.dropSvc e) := fences_modEng ..
  have heng : (b.dropSvc e).eng e = _ := State.eng_modEng_same _ _ _ he
  have hoff' : ((b.dropSvc e).eng e).acq.state = .disabled := (congrArg (fun g : Engine => g.acq.state) heng).trans hoff
  have hreason' : ((b.dropSvc e).eng e).tx.reason.fence = true := (congrArg (fun g : Engine => g.tx.reason.fence) heng).trans hreason
  generalize b.dropSvc e = c at hdrop hoff' hreason' ⊢
  obtain ⟨herase, hkeyless, -⟩ := emptyEngine_empties (why := .fence) he c
  have hempty : Fences e c (c.emptySlots e [0, 1, 2, 3] .fence) := ⟨herase.mono (by decide), hkeyless.2, unarmed_emptySlots _ _ _ _⟩
  have hslots : ((c.emptySlots e [0, 1, 2, 3] .fence).eng e).key.slots = Vector.replicate 4 none := congrArg (fun g : Engine => g.key.slots) hkeyless.1
  have hoff'' : ((c.emptySlots e [0, 1, 2, 3] .fence).eng e).acq.state = .disabled := (congrArg (fun g : Engine => g.acq.state) hkeyless.1).trans hoff'
  have hreason'' : ((c.emptySlots e [0, 1, 2, 3] .fence).eng e).tx.reason.fence = true :=
    (congrArg (fun g : Engine => g.tx.reason.fence) hkeyless.1).trans hreason'
  generalize c.emptySlots e [0, 1, 2, 3] .fence = d at hempty hslots hoff'' hreason'' ⊢
  obtain ⟨hrestore, hiso, hacq, hkey, hfence⟩ := fenceRestored_restores he hoff''
  generalize d.fenceRestored e = f at hrestore hiso hacq hkey hfence ⊢
  refine ⟨((((hset.trans hrelease).trans hdrop).trans hempty).trans hrestore).trans (fences_modEng ..), ?_⟩
  rw [State.eng_modEng_same _ _ _ he]
  exact ⟨hfence.trans hreason'', (congrArg Acquisition.state hacq).trans hoff'', (congrArg KeyState.slots hkey).trans hslots, hiso, rfl⟩
/-- A step at each engine of a list: what it makes of an engine is seen at the end, and the engines outside the list are as they were. -/
theorem engines_foldl {l : List Part} {R : Engine → Engine → Prop} {f : State → Nat → State}
    (hf : ∀ e, e < 48 → ∀ s, Steps l s (f s e) ∧ OtherEngines e s (f s e) ∧ R (s.eng e) ((f s e).eng e))
    (es : List Nat) (hes : ∀ e ∈ es, e < 48) (hnodup : es.Nodup) (s : State) :
    Steps l s (es.foldl f s) ∧ (∀ e, e ∉ es → (es.foldl f s).eng e = s.eng e) ∧ ∀ e ∈ es, R (s.eng e) ((es.foldl f s).eng e) := by
  induction es generalizing s with
  | nil => exact ⟨.refl .., fun _ _ => rfl, fun _ he => absurd he List.not_mem_nil⟩
  | cons x es ih =>
    obtain ⟨hnot, hnodup⟩ := List.nodup_cons.mp hnodup
    obtain ⟨hfirst, hothers, hdone⟩ := hf x (hes x List.mem_cons_self) s
    obtain ⟨hrest, hkept, hall⟩ := ih (fun e he => hes e (List.mem_cons_of_mem _ he)) hnodup (f s x)
    refine ⟨hfirst.trans hrest, fun e he => ?_, fun e he => ?_⟩
    · obtain ⟨hne, hout⟩ := not_or.mp (mt List.mem_cons.mpr he)
      exact (hkept e hout).trans (hothers e hne)
    · rcases List.mem_cons.mp he with rfl | he
      · rw [List.foldl_cons, hkept e hnot]
        exact hdone
      · rw [← hothers e (fun h => hnot (h ▸ he))]
        exact hall e he
theorem fenceEngines_fences (l : List Nat) (hl : ∀ e ∈ l, e < 48) (hnodup : l.Nodup) (s : State) : Steps fenceParts s (l.foldl (fun s e => s.fenceEngineStep e) s)
    ∧ (∀ e, e ∉ l → (l.foldl (fun s e => s.fenceEngineStep e) s).eng e = s.eng e)
    ∧ (∀ e ∈ l, ((l.foldl (fun s e => s.fenceEngineStep e) s).eng e).Fenced) ∧ Unarmed s (l.foldl (fun s e => s.fenceEngineStep e) s) := by
  obtain ⟨hsteps, hkept, hfenced⟩ := engines_foldl (R := fun _ g => g.Fenced) (f := fun s e => s.fenceEngineStep e) (l := fenceParts) (fun e he s => by
    obtain ⟨⟨hstep, hothers, -⟩, hdone⟩ := fenceEngineStep_fences he s
    exact ⟨hstep, hothers, hdone⟩) l hl hnodup s
  exact ⟨hsteps, hkept, hfenced, fun h => List.foldlRecOn (motive := fun t : State => t.proto.armed = []) l (fun s e => s.fenceEngineStep e) h
    (fun u hu e he => (fenceEngineStep_fences (hl e he) u).1.armed hu)⟩
end

/-! ### The commands that fencing ends (R252, R495) -/

section
variable {k p : Nat} {s t : State}
theorem Ended.keep_steps {j : Job} {st : Status} {d tn : Nat} {ws : List Word} {l : List Part} (h : Ended j st d tn ws s) (ht : Steps l s t)
    (hjobs : ∀ i ∈ t.proto.jobs, i ∈ s.proto.jobs) : Ended j st d tn ws t :=
  ⟨fun hj => h.1 (hjobs j hj), fun hsrc => (h.2 hsrc).imp_right (Or.imp_right (ht.told.posted _ _ hsrc))⟩
/-- A Pack's capacity change waits for a member on the tile. -/
def Pack.waitsOn (k : Nat) (x : Pack) : Bool := x.capPending.any (fun y => y.2.any (fun e => tileOf e == k))
/-- What taking back a Pack's capacity change moves. -/
def packParts : List Part := .packs :: .jobs :: finalParts
/-- A step that takes back Packs' capacity changes: each of the list that waits has none, and its command is answered; the commands of others run on. -/
structure PacksFreed (k tn : Nat) (l : List Nat) (s t : State) : Prop where
  steps : Steps packParts s t
  armed : Unarmed s t
  jobs : ∀ j ∈ t.proto.jobs, j ∈ s.proto.jobs
  others : ∀ q, q ∉ l → t.pack q = s.pack q
  kept : ∀ j ∈ s.proto.jobs, (∀ q ∈ l, jobOn 0x212 q j = false) → j ∈ t.proto.jobs
  freed : ∀ q ∈ l, (s.pack q).waitsOn k = true → (t.pack q).capPending = none ∧ ∀ j ∈ s.proto.jobs, jobOn 0x212 q j = true → Ended j .cancelled 0xA08 tn [] t
theorem State.fencePackChange_eq : s.fencePackChange p k = if (s.pack p).waitsOn k = true then
    (s.modPack p (fun x => { x with capPending := Option.none })).finishJobs (jobOn 0x212 p) .cancelled Ev.fenceChange.code [] else s := rfl
theorem fencePackChange_frees (hp : p < 24) (k : Nat) (s : State) : PacksFreed k s.tn [p] s (s.fencePackChange p k) := by
  rw [State.fencePackChange_eq]
  by_cases hwaits : (s.pack p).waitsOn k = true
  · rw [if_pos hwaits]
    have hset := steps_modPack p (fun x => { x with capPending := Option.none }) s
    have hpack : (s.modPack p (fun x => { x with capPending := Option.none })).pack p = { s.pack p with capPending := Option.none } := State.pack_modPack_same _ _ _ hp
    have hothers : ∀ q, q ≠ p → (s.modPack p (fun x => { x with capPending := Option.none })).pack q = s.pack q := fun q hq => State.pack_modPack_ne _ _ _ _ hq
    have hjobs : (s.modPack p (fun x => { x with capPending := Option.none })).proto.jobs = s.proto.jobs := rfl
    have harmed : (s.modPack p (fun x => { x with capPending := Option.none })).proto.armed = s.proto.armed := rfl
    generalize s.modPack p (fun x => { x with capPending := Option.none }) = u at hset hpack hothers hjobs harmed ⊢
    have hend := steps_finishJobs (jobOn 0x212 p) .cancelled Ev.fenceChange.code [] u
    have hpacks : ∀ q, (u.finishJobs (jobOn 0x212 p) .cancelled Ev.fenceChange.code []).pack q = u.pack q := fun q => by
      unfold State.pack
      rw [hend.only .packs (by decide)]
    refine ⟨(hset.mono (by decide)).trans (hend.mono (by decide)), fun h => ?_, fun j hj => ?_, fun q hq => ?_, fun j hj hfree => ?_, fun q hq _ => ?_⟩
    · rw [State.finishJobs_proto_armed, harmed, h]
    · rw [State.finishJobs_proto_jobs, hjobs] at hj
      exact (List.mem_filter.mp hj).1
    · exact (hpacks q).trans (hothers q (fun h => hq (List.mem_singleton.mpr h)))
    · rw [State.finishJobs_proto_jobs, hjobs]
      exact List.mem_filter.mpr ⟨hj, by rw [hfree p List.mem_cons_self]; rfl⟩
    · obtain rfl := List.mem_singleton.mp hq
      refine ⟨by rw [hpacks, hpack], fun j hj hon => ?_⟩
      rw [← hset.tn]
      exact ended_finishJobs .cancelled Ev.fenceChange.code [] (hjobs ▸ hj) hon
  · rw [if_neg hwaits]
    exact ⟨.refl .., fun h => h, fun _ h => h, fun _ _ => rfl, fun _ h _ => h, fun q hq h => absurd (List.mem_singleton.mp hq ▸ h) hwaits⟩
theorem jobOn_ne {op : Nat} {q : Nat} {j : Job} (h : jobOn op p j = true) (hq : q ≠ p) : jobOn op q j = false := by
  unfold jobOn at h ⊢
  simp only [Bool.and_eq_true, beq_iff_eq] at h
  simp [h.2, hq.symm]
theorem fencePackChanges_free (l : List Nat) (hl : ∀ p ∈ l, p < 24) (hnodup : l.Nodup) (k : Nat) (s : State) :
    PacksFreed k s.tn l s (l.foldl (fun s p => s.fencePackChange p k) s) := by
  induction l generalizing s with
  | nil => exact ⟨.refl .., fun h => h, fun _ h => h, fun _ _ => rfl, fun _ h _ => h, fun _ h => absurd h List.not_mem_nil⟩
  | cons x l ih =>
    obtain ⟨hnot, hnodup⟩ := List.nodup_cons.mp hnodup
    have hfirst := fencePackChange_frees (hl x List.mem_cons_self) k s
    have hrest := ih (fun p hp => hl p (List.mem_cons_of_mem _ hp)) hnodup (s.fencePackChange x k)
    rw [hfirst.steps.tn] at hrest
    rw [List.foldl_cons]
    generalize s.fencePackChange x k = u at hfirst hrest ⊢
    refine ⟨hfirst.steps.trans hrest.steps, fun h => hrest.armed (hfirst.armed h), fun j hj => hfirst.jobs j (hrest.jobs j hj), fun q hq => ?_, fun j hj hfree => ?_, fun q hq hwaits => ?_⟩
    · obtain ⟨hne, hout⟩ := not_or.mp (mt List.mem_cons.mpr hq)
      exact (hrest.others q hout).trans (hfirst.others q (fun h => hne (List.mem_singleton.mp h)))
    · refine hrest.kept j (hfirst.kept j hj (fun q hq => hfree q ?_)) (fun q hq => hfree q (List.mem_cons_of_mem _ hq))
      rw [List.mem_singleton.mp hq]
      exact List.mem_cons_self
    · rcases List.mem_cons.mp hq with rfl | hq
      · obtain ⟨hnone, hended⟩ := hfirst.freed q List.mem_cons_self hwaits
        exact ⟨by rw [hrest.others q hnot, hnone], fun j hj hon => (hended j hj hon).keep_steps hrest.steps hrest.jobs⟩
      · have hne : q ∉ [x] := fun h => hnot (List.mem_singleton.mp h ▸ hq)
        obtain ⟨hnone, hended⟩ := hrest.freed q hq (by rw [hfirst.others q hne]; exact hwaits)
        refine ⟨hnone, fun j hj hon => hended j (hfirst.kept j hj (fun r hr => ?_)) hon⟩
        exact jobOn_ne hon (fun h => hne (h ▸ hr))
end

/-! ### TILE_FENCE at its boundary (R495) -/

section
variable {k : Nat} {c : Cmd} {s : State}
/-- A pending change whose effect cancels others, and leaves nothing pending. -/
theorem takesEffect_cancelling {op : Nat} {f : Cmd → State → State} {l : List Part} {P : State → Prop} (hb : boundaryEffect op = f)
    (hf : Steps (l ++ .armed :: finalParts) s.disarmed (f c s.disarmed)) (harmed : Unarmed s.disarmed (f c s.disarmed))
    (hP : ∀ t, Steps finalParts (f c s.disarmed) t → P t) : TakesEffect op c l P s := by
  refine TakesEffect.imp ?_ hP
  refine takesEffect_of op c f l _ s hb (.refl ..) (fun t st d ws u hu => hu.trans (steps_final ..)) (harmed rfl) ?_
    (fun t st d ws u hu => only_final _ s u t st d ws hu (by simp) (by simp) (by simp) (by simp))
  exact only_trans _ _ _ _ _ (only_disarm s) (only_mono hf.only (fun _ h => h)) (by simp)
theorem tileEngines_nodup (k : Nat) : (tileEngines k).Nodup := by simp [tileEngines]
theorem tileEngines_lt (hk : k < 12) : ∀ e ∈ tileEngines k, e < 48 := fun e he => by
  simp only [tileEngines, List.mem_cons, List.not_mem_nil, or_false] at he
  omega
/-- A tile that is fenced and powers down. -/
def Tile.fencing (x : Tile) : Tile := { x with fenced := true, power := .goingDown }
/-- What fencing a tile moves. -/
def fenceTileParts : List Part := [.tiles, .dma, .packs, .jobs] ++ fenceParts
/-- What TILE_FENCE leaves at its boundary. -/
structure TileFenced (k : Nat) (s t : State) : Prop where
  tile : (t.tile k).fenced = true ∧ (t.tile k).power = .goingDown ∧ (t.tile k).capture.state = .idle
  engines : ∀ e ∈ tileEngines k, (t.eng e).Fenced
  others : ∀ e, e ∉ tileEngines k → t.eng e = s.eng e
  jobs : ∀ j ∈ s.proto.jobs, onTile k j.cmd = true → Ended j .cancelled 0xA08 s.tn [] t
  packs : ∀ p, p < 24 → (s.pack p).waitsOn k = true →
    (t.pack p).capPending = none ∧ ∀ j ∈ s.proto.jobs, jobOn 0x212 p j = true → Ended j .cancelled 0xA08 s.tn [] t
  told : Raised .capWithdrawn .lineTile k (w1 1) s.tn t
/-- The commands of a tile, answered. -/
def State.tileCancelled (k : Nat) (s : State) : State :=
  (s.cancelArmed (fun a => (a.key.kind == 1 && tileOf a.key.index == k && a.opcode != 0x501) || (a.opcode == 0x701 && cIdx a.cmd == k)) .cancelled Ev.fenceChange.code).finishJobs
    (fun j => onTile k j.cmd) .cancelled Ev.fenceChange.code []
theorem State.fenceTile_eq : s.fenceTile k = ((List.range 24).foldl (fun s p => s.fencePackChange p k)
    ((tileEngines k).foldl (fun s e => s.fenceEngineStep e) ((s.tileCancelled k).modTile k Tile.fencing))).withdrawCapture k none .fence := rfl
theorem tileCancelled_cancels (k : Nat) (s : State) : Steps (.armed :: .jobs :: finalParts) s (s.tileCancelled k) ∧ Unarmed s (s.tileCancelled k)
    ∧ (∀ j ∈ s.proto.jobs, onTile k j.cmd = true → Ended j .cancelled 0xA08 s.tn [] (s.tileCancelled k))
    ∧ ∀ j ∈ s.proto.jobs, onTile k j.cmd = false → j ∈ (s.tileCancelled k).proto.jobs := by
  unfold State.tileCancelled
  have hcancel := steps_cancelArmed (fun a => (a.key.kind == 1 && tileOf a.key.index == k && a.opcode != 0x501) || (a.opcode == 0x701 && cIdx a.cmd == k))
    .cancelled Ev.fenceChange.code s
  have harmed := unarmed_cancelArmed s (fun a => (a.key.kind == 1 && tileOf a.key.index == k && a.opcode != 0x501) || (a.opcode == 0x701 && cIdx a.cmd == k))
    .cancelled Ev.fenceChange.code
  generalize s.cancelArmed _ .cancelled Ev.fenceChange.code = u at hcancel harmed ⊢
  have hjobs : u.proto.jobs = s.proto.jobs := hcancel.only .jobs (by decide)
  refine ⟨(hcancel.mono (by decide)).trans ((steps_finishJobs ..).mono (by decide)), fun h => ?_, fun j hj hon => ?_, fun j hj hoff => ?_⟩
  · rw [State.finishJobs_proto_armed]
    exact harmed h
  · rw [← hcancel.tn]
    exact ended_finishJobs .cancelled Ev.fenceChange.code [] (hjobs ▸ hj) hon
  · rw [State.finishJobs_proto_jobs, hjobs]
    exact List.mem_filter.mpr ⟨hj, by rw [hoff]; rfl⟩
theorem fenceTile_fences (hk : k < 12) (s : State) : Steps (.armed :: fenceTileParts) s (s.fenceTile k) ∧ Unarmed s (s.fenceTile k) ∧ TileFenced k s (s.fenceTile k) := by
  rw [State.fenceTile_eq]
  obtain ⟨hcancel, harmed, hended, hrunning⟩ := tileCancelled_cancels k s
  have hset := steps_modTile k Tile.fencing (s.tileCancelled k)
  have htile : ((s.tileCancelled k).modTile k Tile.fencing).tile k = ((s.tileCancelled k).tile k).fencing := State.tile_modTile_same _ _ _ hk
  have harmed' : Unarmed s ((s.tileCancelled k).modTile k Tile.fencing) := harmed
  have hjobs : ((s.tileCancelled k).modTile k Tile.fencing).proto.jobs = (s.tileCancelled k).proto.jobs := rfl
  have hfrom : Steps (.armed :: fenceTileParts) s ((s.tileCancelled k).modTile k Tile.fencing) := (hcancel.mono (by decide)).trans (hset.mono (by decide))
  have hended' : ∀ j ∈ s.proto.jobs, onTile k j.cmd = true → Ended j .cancelled 0xA08 s.tn [] ((s.tileCancelled k).modTile k Tile.fencing) :=
    fun j hj hon => (hended j hj hon).of_steps hset
  have hrunning' : ∀ j ∈ s.proto.jobs, onTile k j.cmd = false → j ∈ ((s.tileCancelled k).modTile k Tile.fencing).proto.jobs := hrunning
  have hengines : ((s.tileCancelled k).modTile k Tile.fencing).engines = s.engines := (hset.only .engines (by decide)).trans (hcancel.only .engines (by decide))
  have hpacks : ((s.tileCancelled k).modTile k Tile.fencing).packs = s.packs := (hset.only .packs (by decide)).trans (hcancel.only .packs (by decide))
  generalize (s.tileCancelled k).modTile k Tile.fencing = a at htile harmed' hfrom hended' hrunning' hengines hpacks ⊢
  obtain ⟨hfence, hkept, hfenced, hunarmed⟩ := fenceEngines_fences (tileEngines k) (tileEngines_lt hk) (tileEngines_nodup k) a
  have htile' : ((((tileEngines k).foldl (fun s e => s.fenceEngineStep e) a).tile k).fenced = true)
      ∧ (((tileEngines k).foldl (fun s e => s.fenceEngineStep e) a).tile k).power = .goingDown := by
    have hsame := hfence.only .tiles (by decide) k
    rw [htile] at hsame
    exact ⟨congrArg Tile.fenced hsame, congrArg Tile.power hsame⟩
  have hafter : Steps (.armed :: fenceTileParts) s ((tileEngines k).foldl (fun s e => s.fenceEngineStep e) a) := hfrom.trans (hfence.mono (by decide))
  have hended'' : ∀ j ∈ s.proto.jobs, onTile k j.cmd = true → Ended j .cancelled 0xA08 s.tn [] ((tileEngines k).foldl (fun s e => s.fenceEngineStep e) a) :=
    fun j hj hon => (hended' j hj hon).of_steps hfence
  have hrunning'' : ∀ j ∈ s.proto.jobs, onTile k j.cmd = false → j ∈ ((tileEngines k).foldl (fun s e => s.fenceEngineStep e) a).proto.jobs :=
    fun j hj hoff => by
      rw [hfence.only .jobs (by decide)]
      exact hrunning' j hj hoff
  have hpacks' : ((tileEngines k).foldl (fun s e => s.fenceEngineStep e) a).packs = s.packs := (hfence.only .packs (by decide)).trans hpacks
  have hothers : ∀ e, e ∉ tileEngines k → ((tileEngines k).foldl (fun s e => s.fenceEngineStep e) a).eng e = s.eng e := fun e he =>
    (hkept e he).trans (by rw [State.eng, State.eng, hengines])
  have harmed'' : Unarmed s ((tileEngines k).foldl (fun s e => s.fenceEngineStep e) a) := fun h => hunarmed (harmed' h)
  generalize (tileEngines k).foldl (fun s e => s.fenceEngineStep e) a = b at htile' hafter hended'' hrunning'' hpacks' hothers hfenced harmed'' ⊢
  have hfreed := fencePackChanges_free (List.range 24) (fun p hp => List.mem_range.mp hp) List.nodup_range k b
  rw [hafter.tn] at hfreed
  generalize (List.range 24).foldl (fun s p => s.fencePackChange p k) b = d at hfreed ⊢
  obtain ⟨hdrop, ⟨hdropped, -⟩, -, htold⟩ := withdrawCapture_withdraws hk .fence d
  have hstill : (d.tile k).untriggered = (b.tile k).untriggered := hfreed.steps.only .tiles (by decide) k
  have hlast : Steps (.packs :: .jobs :: (finalParts ++ withdrawParts)) b (d.withdrawCapture k none .fence) := (hfreed.steps.mono (by decide)).trans (hdrop.mono (by decide))
  have hdropJobs : (d.withdrawCapture k none .fence).proto.jobs = d.proto.jobs := hdrop.only .jobs (by decide)
  refine ⟨hafter.trans (hlast.mono (by decide)), fun h => ?_, ⟨?_, fun e he => ?_, fun e he => ?_, fun j hj hon => ?_, fun p hp hwaits => ?_, ?_⟩⟩
  · rw [hdrop.only .armed (by decide)]
    exact hfreed.armed (harmed'' h)
  · rw [hdropped]
    exact ⟨(congrArg Tile.fenced hstill).trans htile'.1, (congrArg Tile.power hstill).trans htile'.2, rfl⟩
  · rw [hlast.eng e (by decide)]
    exact hfenced e he
  · rw [hlast.eng e (by decide)]
    exact hothers e he
  · exact (hended'' j hj hon).keep_steps hlast (fun i hi => hfreed.jobs i (hdropJobs ▸ hi))
  · have hsame : b.pack p = s.pack p := by rw [State.pack, State.pack, hpacks']
    obtain ⟨hnone, hcancelled⟩ := hfreed.freed p (List.mem_range.mpr hp) (by rw [hsame]; exact hwaits)
    refine ⟨?_, fun j hj hon => ?_⟩
    · rw [State.pack, hdrop.only .packs (by decide)]
      exact hnone
    · by_cases htileJob : onTile k j.cmd = true
      · exact (hended'' j hj htileJob).keep_steps hlast (fun i hi => hfreed.jobs i (hdropJobs ▸ hi))
      · exact (hcancelled j (hrunning'' j hj (Bool.eq_false_iff.mpr htileJob)) hon).of_steps hdrop
  · rw [hfreed.steps.tn, hafter.tn] at htold
    exact htold
end

/-! ### TILE_UNFENCE, and the ends of the power changes (R495, R496) -/

section
variable {k : Nat} {c : Cmd} {s : State}
theorem boundaryEffect_fence : boundaryEffect 0xA02 = applyFence := rfl
theorem applyFence_unfenced (h : (s.tile (cIdx c)).fenced = false) : applyFence c s = s.fenceTile (cIdx c) := by
  simp only [applyFence, h]
theorem tileFence_takesEffect (hk : cIdx c < 12) (hfenced : (s.tile (cIdx c)).fenced = false) :
    TakesEffect 0xA02 c (withEvent [.engines, .tiles, .dma, .jobs, .life, .packs]) (TileFenced (cIdx c) s) s := by
  have happly : applyFence c s.disarmed = s.disarmed.fenceTile (cIdx c) := applyFence_unfenced hfenced
  obtain ⟨hsteps, harmed, htile, hengines, hothers, hjobs, hpacks, htold⟩ := fenceTile_fences hk s.disarmed
  refine takesEffect_cancelling boundaryEffect_fence (by rw [happly]; exact hsteps.mono (by decide)) (by rw [happly]; exact harmed) (fun t ht => ?_)
  rw [happly] at ht
  have htile' := tile_of_only ht.only (by decide) (by decide) (cIdx c)
  refine ⟨by rw [htile']; exact htile, fun e he => by rw [ht.eng e]; exact hengines e he, fun e he => (ht.eng e).trans (hothers e he),
    fun j hj hon => (hjobs j hj hon).of_steps ht, fun p hp hwaits => ?_, htold.keep ht⟩
  obtain ⟨hnone, hended⟩ := hpacks p hp hwaits
  exact ⟨by rw [State.pack, ht.only .packs (by decide)]; exact hnone, fun j hj hon => (hended j hj hon).of_steps ht⟩
theorem steps_arm (a : Armed) (s : State) : Steps (.armed :: finalParts) s (s.arm a) := (acts_arm 0 a s).steps_of_engines (State.arm_engines ..)
theorem tileFence_begins (h : Ready specTileFence c s = true) : Begins 0xA02 c [.armed] (Pending 0xA02 0xA02 (s.tn + 1) c) s (exec (.tileFence c) s) := by
  refine begins_ticketed (sp := specTileFence) (parts := [.armed]) (l := .jobs :: .armed :: finalParts) (f := fun j c s => (s.startJob j).arm
    { due := s.tn + 1, key := keyOf 0xA02 c, opcode := 0xA02, cmd := c, ticket := none }) h rfl rfl (fun j u hj hu => ?_) (by decide)
  have hstart := steps_startJob j u
  have harm := steps_arm { due := u.tn + 1, key := keyOf 0xA02 c, opcode := 0xA02, cmd := c, ticket := none } (u.startJob j)
  refine ⟨(hstart.mono (by decide)).trans (harm.mono (by decide)), ?_, ?_⟩
  · rw [harm.only .jobs (by decide)]
    exact List.mem_append_right _ (List.mem_singleton.mpr rfl)
  · rw [show u.tn = s.tn from hu .tn (by decide)]
    exact pending_arm _
/-- The power-down that an unfence takes back. -/
def State.downCancelled (k : Nat) (s : State) : State :=
  if (s.tile k).power == .goingDown then s.finishJobs (jobOn 0xA02 k) .cancelled Ev.fenceChange.code [] else s
theorem startUnfence_fenced {j : Job} (h : (s.tile (cIdx c)).fenced = true) :
    startUnfence j c s = ((s.startJob j).downCancelled (cIdx c)).modTile (cIdx c) (fun x => { x with power := .comingUp }) := if_pos h
theorem startUnfence_unfenced {j : Job} (h : (s.tile (cIdx c)).fenced = false) :
    startUnfence j c s = (s.startJob j).finishJobs (jobOn 0xA03 (cIdx c)) .ok 0 [] :=
  if_neg (fun hf : (s.tile (cIdx c)).fenced = true => Bool.noConfusion (hf.symm.trans h))
theorem jobOn_ticket {op q : Nat} {j : Job} (h : j.ticket.opcode ≠ op) : jobOn op q j = false := by
  unfold jobOn
  rw [beq_eq_false_iff_ne.mpr h, Bool.false_and]
theorem downCancelled_cancels (k : Nat) (s : State) : Steps (.jobs :: finalParts) s (s.downCancelled k)
    ∧ (∀ j ∈ s.proto.jobs, jobOn 0xA02 k j = false → j ∈ (s.downCancelled k).proto.jobs)
    ∧ ((s.tile k).power = .goingDown → ∀ j ∈ s.proto.jobs, jobOn 0xA02 k j = true → Ended j .cancelled 0xA08 s.tn [] (s.downCancelled k)) := by
  unfold State.downCancelled
  split
  · refine ⟨steps_finishJobs .., fun j hj hoff => ?_, fun _ j hj hon => ended_finishJobs .cancelled Ev.fenceChange.code [] hj hon⟩
    rw [State.finishJobs_proto_jobs]
    exact List.mem_filter.mpr ⟨hj, by rw [hoff]; rfl⟩
  case isFalse h => exact ⟨.refl .., fun _ hj _ => hj, fun hdown => absurd (beq_iff_eq.mpr hdown) h⟩
/-- What TILE_UNFENCE leaves of a fenced tile. -/
structure Unfences (k : Nat) (s t : State) : Prop where
  tile : TileIs k (fun x => { x with power := .comingUp }) s t
  jobs : (s.tile k).power = .goingDown → ∀ j ∈ s.proto.jobs, jobOn 0xA02 k j = true → Ended j .cancelled 0xA08 s.tn [] t
theorem startUnfence_unfences {j : Job} (hk : cIdx c < 12) (hfenced : (s.tile (cIdx c)).fenced = true) (hown : jobOn 0xA02 (cIdx c) j = false) :
    Steps (.tiles :: .jobs :: finalParts) s (startUnfence j c s) ∧ j ∈ (startUnfence j c s).proto.jobs ∧ Unfences (cIdx c) s (startUnfence j c s) := by
  rw [startUnfence_fenced hfenced]
  have hstart := steps_startJob j s
  have hin : j ∈ (s.startJob j).proto.jobs := List.mem_append_right _ (List.mem_singleton.mpr rfl)
  have hold : ∀ i ∈ s.proto.jobs, i ∈ (s.startJob j).proto.jobs := fun i hi => List.mem_append_left _ hi
  have hfrom : ∀ q, (s.startJob j).tile q = s.tile q := fun _ => rfl
  have htn : (s.startJob j).tn = s.tn := rfl
  generalize s.startJob j = v at hstart hin hold hfrom htn ⊢
  obtain ⟨hcancel, hruns, hended⟩ := downCancelled_cancels (cIdx c) v
  have hset : Steps [.tiles] (v.downCancelled (cIdx c)) ((v.downCancelled (cIdx c)).modTile (cIdx c) (fun x => { x with power := .comingUp })) :=
    ⟨only_modTile (k := cIdx c) (f := fun x => { x with power := .comingUp }) (fun _ => rfl) _, (steps_modTile ..).told⟩
  have htile := tileIs_modTile hk (fun x => { x with power := .comingUp }) (v.downCancelled (cIdx c))
  refine ⟨((hstart.mono (by decide)).trans (hcancel.mono (by decide))).trans (hset.mono (by decide)), hruns j hin hown, ⟨?_, fun hdown i hi hon => ?_⟩⟩
  · exact htile.of_tiles (fun q => (tile_of_only hcancel.only (by decide) (by decide) q).trans (hfrom q)) (fun _ => rfl)
  · have hcancelled := hended (by rw [hfrom]; exact hdown) i (hold i hi) hon
    rw [htn] at hcancelled
    exact hcancelled.of_steps hset
theorem tileUnfence_begins (h : Ready specTileUnfence c s = true) (hfenced : (s.tile (cIdx c)).fenced = true) :
    Begins 0xA03 c [.tiles] (Unfences (cIdx c) s) s (exec (.tileUnfence c) s) := by
  refine begins_ticketed (sp := specTileUnfence) (f := startUnfence) (parts := [.tiles]) (l := .tiles :: .jobs :: finalParts) h rfl rfl (fun j u hj hu => ?_) (by decide)
  have htiles := tile_of_only hu (by decide) (by decide)
  have hop : j.ticket.opcode = 0xA03 := congrArg Ticket.opcode hj
  obtain ⟨hsteps, hin, htile, hjobs⟩ := startUnfence_unfences (j := j) (s := u) (ready_tile h rfl) (by rw [htiles]; exact hfenced) (jobOn_ticket (by rw [hop]; decide))
  refine ⟨hsteps, hin, htile.of_tiles htiles (fun _ => rfl), fun hdown i hi hon => ?_⟩
  rw [← show u.tn = s.tn from hu .tn (by decide)]
  exact hjobs (by rw [htiles]; exact hdown) i ((show u.proto.jobs = s.proto.jobs from hu .jobs (by decide)) ▸ hi) hon
/-- A command that ends with others of its kind as it begins has its FINAL last. -/
theorem finishJobs_last {p : Job → Bool} {j : Job} (hp : p j = true) (s : State) (st : Status) (d : Nat) (ws : List Word) :
    ∃ u, (s.startJob j).finishJobs p st d ws = u.final j.ticket st d ws ∧ Steps (.jobs :: finalParts) s u ∧ u.proto.jobs = s.proto.jobs.filter (fun i => !p i) := by
  have hjobs : (s.startJob j).proto.jobs.filter (fun i => !p i) = s.proto.jobs.filter (fun i => !p i) := by
    simp [State.startJob, hp]
  have hrun : (s.startJob j).proto.jobs.filter p = s.proto.jobs.filter p ++ [j] := by
    simp [State.startJob, hp]
  have heq : (s.startJob j).finishJobs p st d ws = (s.finishJobs p st d ws).final j.ticket st d ws := by
    unfold State.finishJobs
    dsimp only
    rw [hrun, List.foldl_append, List.foldl_cons, List.foldl_nil]
    unfold State.modProto
    dsimp only
    rw [hjobs]
    rfl
  exact ⟨_, heq, steps_finishJobs .., State.finishJobs_proto_jobs ..⟩
theorem tileUnfence_idles (h : Ready specTileUnfence c s = true) (hfenced : (s.tile (cIdx c)).fenced = false) :
    Does 0xA03 c [] [.jobs] (fun t => ∀ j ∈ s.proto.jobs, jobOn 0xA03 (cIdx c) j = false → j ∈ t.proto.jobs) s (exec (.tileUnfence c) s) := by
  refine ⟨_, runOp_ready specTileUnfence c s h, ?_⟩
  simp only [carryOut, specTileUnfence]
  have hu : Only answerParts s ((s.atParse 0xA03 c).respond (ticketNow 0xA03 c s) false .ok 0 (s.atParse 0xA03 c).tn []) :=
    fun p hp => by cases p <;> simp [answerParts, Part.same] at hp ⊢
  generalize hj : ({ ticket := ticketNow 0xA03 c s, cmd := c, chan := _, lastProgress := (s.atParse 0xA03 c).ticks } : Job) = j
  have hticket : j.ticket = ticketNow 0xA03 c s := by rw [← hj]
  have hown : jobOn 0xA03 (cIdx c) j = true := by
    rw [← hj]
    unfold jobOn
    simp [ticketNow, ticketOf]
  generalize (s.atParse 0xA03 c).respond (ticketNow 0xA03 c s) false .ok 0 (s.atParse 0xA03 c).tn [] = u at hu ⊢
  have hstart : startUnfence j c u = (u.startJob j).finishJobs (jobOn 0xA03 (cIdx c)) .ok 0 [] :=
    startUnfence_unfenced (by rw [tile_of_only hu (by decide) (by decide)]; exact hfenced)
  obtain ⟨v, hv, hsteps, hjobs⟩ := finishJobs_last hown u .ok 0 []
  rw [hstart, hv, hticket]
  refine ⟨fun i hi hoff => ?_, answeredOk_final _ _ _ _ _ (hsteps.tn.trans (hu .tn (by decide))), ?_⟩
  · rw [State.final_proto_jobs, hjobs, show u.proto.jobs = s.proto.jobs from hu .jobs (by decide)]
    exact List.mem_filter.mpr ⟨hi, by rw [hoff]; rfl⟩
  · exact only_then (only_mono hu (by decide)) ((hsteps.mono (by decide)).trans ((steps_final ..).mono (by decide))).only
theorem fenceDone_tells (op k : Nat) (s : State) : Steps (.jobs :: .responses :: eventParts) s (s.fenceDone op k) ∧ (s.fenceDone op k).tiles = s.tiles
    ∧ Raised .fenceChange .lineTile k [] s.tn (s.fenceDone op k) ∧ ∀ j ∈ s.proto.jobs, jobOn op k j = true → Ended j .ok 0 s.tn [] (s.fenceDone op k) := by
  have hend := steps_finishJobs (jobOn op k) .ok 0 [] s
  have htold := steps_raise .fenceChange .lineTile k [] (s.finishJobs (jobOn op k) .ok 0 [])
  exact ⟨(hend.mono (by decide)).trans (htold.mono (by decide)), (State.raise_tiles (by decide) ..).trans (State.finishJobs_tiles ..),
    raised_raise_tn hend.tn, fun j hj hon => (ended_finishJobs .ok 0 [] hj hon).of_steps htold⟩
/-- An engine that leaves the fence. -/
def Engine.unfenced (g : Engine) : Engine :=
  { g with tx := { g.tx with reason := { g.tx.reason with fence := false } }
           acq := if g.kRx ≠ 0 ∧ g.acq.state = .disabled then { g.acq with state := .noSignal, noSyncRaised := false } else g.acq
           losIn := false }
end
section
variable {k : Fin 12} {s : State}
theorem tilePowerDownDone_ends (hdown : (s.tile k).power = .goingDown) : Happens (withEvent [.tiles, .jobs, .responses]) (fun t =>
    TileIs k (fun x => { x with power := .off }) s t ∧ Raised .fenceChange .lineTile k [] s.tn t
    ∧ ∀ j ∈ s.proto.jobs, jobOn 0xA02 k j = true → Ended j .ok 0 s.tn [] t) s (exec (.tilePowerDownDone k) s) := by
  have hset := steps_modTile k (fun x => { x with power := .off }) s
  obtain ⟨hdone, htiles, hraised, hended⟩ := fenceDone_tells 0xA02 k (s.modTile k (fun x => { x with power := .off }))
  refine ⟨_, (if_pos (by rw [hdown]; rfl) : execTilePowerDownDone k s = _), ⟨?_, hraised, hended⟩, ((hset.mono (by decide)).trans (hdone.mono (by decide))).only⟩
  exact (tileIs_modTile k.isLt (fun x => { x with power := .off }) s).of_same rfl htiles
theorem tilePowerUpDone_ends (hup : (s.tile k).power = .comingUp) : Happens (withEvent [.tiles, .engines, .jobs, .responses]) (fun t =>
    TileIs k (fun x => { x with power := .on, fenced := false }) s t ∧ Raised .fenceChange .lineTile k [] s.tn t
    ∧ (∀ e ∈ tileEngines k, (t.eng e).tx.reason.fence = false
      ∧ ((s.eng e).kRx ≠ 0 → (s.eng e).acq.state = .disabled → (t.eng e).acq.state = .noSignal))
    ∧ (∀ e, e ∉ tileEngines k → t.eng e = s.eng e)
    ∧ ∀ j ∈ s.proto.jobs, jobOn 0xA03 k j = true → Ended j .ok 0 s.tn [] t) s (exec (.tilePowerUpDone k) s) := by
  have hset := steps_modTile k (fun x => { x with power := .on, fenced := false }) s
  have hexec : exec (.tilePowerUpDone k) s = .next (((tileEngines k).foldl (fun s e => s.modEng e Engine.unfenced)
      (s.modTile k (fun x => { x with power := .on, fenced := false }))).fenceDone 0xA03 k) :=
    (if_pos (by rw [hup]; rfl) : execTilePowerUpDone k s = _)
  have htile := tileIs_modTile k.isLt (fun x => { x with power := .on, fenced := false }) s
  obtain ⟨hfold, hkept, hleft⟩ := engines_foldl (R := fun g g' => g' = g.unfenced) (f := fun s e => s.modEng e Engine.unfenced)
    (fun e he u => ⟨steps_modEng .., (engineIs_modEng he _ u).2, (engineIs_modEng he _ u).1⟩) (tileEngines k) (tileEngines_lt k.isLt) (tileEngines_nodup k)
    (s.modTile k (fun x => { x with power := .on, fenced := false }))
  have htiles : ((tileEngines k).foldl (fun s e => s.modEng e Engine.unfenced) (s.modTile k (fun x => { x with power := .on, fenced := false }))).tiles
      = (s.modTile k (fun x => { x with power := .on, fenced := false })).tiles := State.foldl_same (·.tiles) (fun s e => s.modEng e Engine.unfenced) (fun _ _ => rfl) _ _
  have heng : ∀ e, (s.modTile k (fun x => { x with power := .on, fenced := false })).eng e = s.eng e := fun _ => rfl
  have hjobs : (s.modTile k (fun x => { x with power := .on, fenced := false })).proto.jobs = s.proto.jobs := rfl
  generalize s.modTile k (fun x => { x with power := .on, fenced := false }) = a at hset hexec htile hfold htiles hkept hleft heng hjobs
  generalize (tileEngines k).foldl (fun s e => s.modEng e Engine.unfenced) a = b at hexec hfold htiles hkept hleft
  obtain ⟨hdone, htiles', hraised, hended⟩ := fenceDone_tells 0xA03 k b
  have htn : b.tn = s.tn := hfold.tn.trans hset.tn
  rw [htn] at hraised hended
  refine ⟨_, hexec, ⟨htile.of_same rfl (htiles'.trans htiles), hraised, fun e he => ?_, fun e he => ?_, fun j hj hon => ?_⟩,
    (((hset.mono (by decide)).trans (hfold.mono (by decide))).trans (hdone.mono (by decide))).only⟩
  · rw [hdone.eng e (by decide), hleft e he, heng]
    exact ⟨rfl, fun hk hoff => congrArg Acquisition.state (if_pos ⟨hk, hoff⟩)⟩
  · rw [hdone.eng e (by decide), hkept e he, heng]
  · refine hended j ?_ hon
    rw [hfold.only .jobs (by decide), hjobs]
    exact hj
end

/-! ### ENGINE_ISOLATE and ENGINE_RESTORE (R490, R494) -/

section
variable {c : Cmd} {s : State}
theorem boundaryEffect_isolate : boundaryEffect 0xA00 = fun c s => s.setIso (cIdx c) (some (isoOf c)) :=
  boundaryEffect_of_row opTable_EngineIsolate rfl (by decide) (by decide)
theorem boundaryEffect_restore : boundaryEffect 0xA01 = fun c s => if (s.eng (cIdx c)).iso.isSome then s.setIso (cIdx c) none else s :=
  boundaryEffect_of_row opTable_EngineRestore rfl (by decide) (by decide)
theorem isolation_takesEffect {op : Nat} {f : Cmd → State → State} {i : Option Iso} (he : cIdx c < 48) (hb : boundaryEffect op = f)
    (hf : f c s.disarmed = s.disarmed.setIso (cIdx c) i) : TakesEffect op c (withEvent [.engines, .jobs, .life]) (fun t =>
      (t.eng (cIdx c)).iso = i ∧ (t.eng (cIdx c)).tx.reason.isolate = squelched i
      ∧ OtherEngines (cIdx c) s t ∧ Raised .isolateChange .engine (cIdx c) [] s.tn t) s := by
  have hacts := acts_setIso (cIdx c) i s.disarmed
  obtain ⟨hiso, hreason, htold⟩ := setIso_isolates he i s.disarmed
  refine takesEffect_cancelling hb (by rw [hf]; exact hacts.steps.mono (by decide)) (by rw [hf]; exact unarmed_setIso _ _ _) (fun t ht => ?_)
  rw [hf] at ht
  rw [ht.eng (cIdx c)]
  exact ⟨hiso, hreason, fun j hj => (ht.eng j).trans (hacts.within.2 j hj), htold.keep ht⟩
end
/-- Settles O52: an isolation by what its change leaves of the engine, a fence by what each of its steps leaves, the power changes by their ends. -/
theorem isolationAndFencing : Obligations.IsolationAndFencing := by
  unfold Obligations.IsolationAndFencing
  intro c s
  refine ⟨fun h => arms_boundary specEngineIsolate _ _ c s h rfl rfl, fun h => arms_boundary specEngineRestore _ _ c s h rfl rfl,
    fun he => isolation_takesEffect he boundaryEffect_isolate rfl, fun he hiso => ?_, tileFence_begins, fun hk hfenced => ?_, fun h hfenced => ?_, tileUnfence_idles,
    fun k => ⟨tilePowerDownDone_ends, fun h => ?_, tilePowerUpDone_ends, fun h => ?_⟩⟩
  · exact isolation_takesEffect he boundaryEffect_restore (if_pos (Option.isSome_iff_ne_none.mpr hiso))
  · refine (tileFence_takesEffect hk hfenced).imp (fun t ht => ?_)
    obtain ⟨⟨hnow, hpower, hidle⟩, hengines, hothers, hjobs, hpacks, htold⟩ := ht
    refine ⟨hnow, hpower, hidle, fun e he => ?_, hothers, hjobs, hpacks, htold⟩
    obtain ⟨hreason, hstate, hslots, hiso, hhub⟩ := hengines e he
    exact ⟨hreason, hstate, hslots, hiso, hhub⟩
  · obtain ⟨t, hexec, ⟨htile, hjobs⟩, hrest⟩ := tileUnfence_begins h hfenced
    exact ⟨t, hexec, ⟨htile, hjobs⟩, hrest⟩
  · exact (if_neg (fun hd => h (beq_iff_eq.mp hd)) : execTilePowerDownDone k s = _)
  · exact (if_neg (fun hd => h (beq_iff_eq.mp hd)) : execTilePowerUpDone k s = _)
end Sys2Proof.Machine
end

section
/-! Rails, brace and the reset of a domain (O57). -/
namespace Sys2Proof.Machine

/-! ### Warnings and the end of brace (R480, R481) -/

section
variable {d : Domain} {r : Rail} {level : Nat} {s : State}
/-- A rail at its warning level, as it is noted. -/
def State.railNoted (d : Domain) (r : Rail) (level : Nat) (s : State) : State :=
  (s.lifeDeepest d level).modPower (fun p => { p with warned := if !s.power.warned.contains (d, r) then (d, r) :: p.warned else p.warned })
theorem steps_lifeDeepest (d : Domain) (level : Nat) (s : State) : Steps [.life] s (s.lifeDeepest d level) := steps_modLife ..
theorem steps_lifeBrace (d : Domain) (s : State) : Steps (.life :: eventParts) s (s.lifeBrace d) := by
  unfold State.lifeBrace
  exact steps_lifeBump ..
theorem steps_railNoted (d : Domain) (r : Rail) (level : Nat) (s : State) : Steps [.power, .life] s (s.railNoted d r level) :=
  ((steps_lifeDeepest ..).mono (by decide)).trans ((steps_modPower ..).mono (by decide))
theorem railNoted_power (d : Domain) (r : Rail) (level : Nat) (s : State) : ∃ l, (d, r) ∈ l ∧ (s.railNoted d r level).power = { s.power with warned := l } := by
  refine ⟨if !s.power.warned.contains (d, r) then (d, r) :: s.power.warned else s.power.warned, ?_, rfl⟩
  split
  · exact List.mem_cons_self
  case isFalse h => exact List.contains_iff_mem.mp (by simpa using h)
theorem exec_railWarning (hwatch : s.watching d r = true) (hlow : 50 ≤ level) (hhigh : level ≤ 100) : exec (.railWarning d r level) s =
    match (s.railNoted d r level).power.braceOn with
    | some b => .next ((s.railNoted d r level).modPower (fun p => { p with braceOn := some { b with warnedAt := s.ticks, deepest := max b.deepest level } }))
    | none => .next (((((s.railNoted d r level).modPower (fun p => { p with braceOn := some { entry := s.ticks, warnedAt := s.ticks, deepest := level } })).lifeBrace d).raise
        .braceEnter .device 0 (w1 d.idx ++ w1 r.code ++ w2 s.tn)).refreshAlert) :=
  (if_pos ⟨hwatch, hlow, hhigh⟩ : execRailWarning d r level s = _)
/-- What the brace of a domain's rail moves. -/
def braceParts : List Part := withEvent [.power, .life]
theorem railWarning_warns (hwatch : s.watching d r = true) (hlow : 50 ≤ level) (hhigh : level ≤ 100) : Happens braceParts (fun t => (d, r) ∈ t.power.warned
    ∧ (s.power.braceOn = none → t.power.braceOn = some { entry := s.ticks, warnedAt := s.ticks, deepest := level }
      ∧ Raised .braceEnter .device 0 (w1 d.idx ++ w1 r.code ++ w2 s.tn) s.tn t)
    ∧ (∀ b, s.power.braceOn = some b → t.power.braceOn = some { b with warnedAt := s.ticks, deepest := max b.deepest level })
    ∧ t.power.inReset = s.power.inReset) s (exec (.railWarning d r level) s) := by
  rw [exec_railWarning hwatch hlow hhigh]
  have hnoted := steps_railNoted d r level s
  obtain ⟨l, hmem, hpower⟩ := railNoted_power d r level s
  generalize s.railNoted d r level = u at hnoted hpower ⊢
  cases hb : s.power.braceOn with
  | some b =>
    have hbrace : u.power.braceOn = some b := by rw [hpower, hb]
    rw [hbrace]
    refine ⟨_, rfl, ⟨?_, fun h => absurd h (Option.some_ne_none b), fun b' hb' => ?_, ?_⟩, ((hnoted.mono (m := braceParts) (by decide)).trans ((steps_modPower ..).mono (by decide))).only⟩
    · rw [State.modPower_power, hpower]
      exact hmem
    · rw [State.modPower_power, Option.some.inj hb']
    · rw [State.modPower_power, hpower]
  | none =>
    have hbrace : u.power.braceOn = none := by rw [hpower, hb]
    rw [hbrace]
    have hon := steps_modPower (fun p => { p with braceOn := some { entry := s.ticks, warnedAt := s.ticks, deepest := level } }) u
    have hpower' : (u.modPower (fun p => { p with braceOn := some { entry := s.ticks, warnedAt := s.ticks, deepest := level } })).power
        = { s.power with warned := l, braceOn := some { entry := s.ticks, warnedAt := s.ticks, deepest := level } } := by rw [State.modPower_power, hpower]
    generalize u.modPower (fun p => { p with braceOn := some { entry := s.ticks, warnedAt := s.ticks, deepest := level } }) = v at hon hpower' ⊢
    have hlife : Steps (.life :: eventParts) v (v.lifeBrace d) := steps_lifeBrace d v
    have htold := steps_raise .braceEnter .device 0 (w1 d.idx ++ w1 r.code ++ w2 s.tn) (v.lifeBrace d)
    have hraised : Raised .braceEnter .device 0 (w1 d.idx ++ w1 r.code ++ w2 s.tn) s.tn ((v.lifeBrace d).raise .braceEnter .device 0 (w1 d.idx ++ w1 r.code ++ w2 s.tn)) :=
      raised_raise_tn (hlife.tn.trans (hon.tn.trans hnoted.tn))
    have halert := steps_refreshAlert ((v.lifeBrace d).raise .braceEnter .device 0 (w1 d.idx ++ w1 r.code ++ w2 s.tn))
    have hafter : Steps braceParts v _ := ((hlife.mono (by decide)).trans (htold.mono (by decide))).trans (halert.mono (by decide))
    refine ⟨_, rfl, ?_, ((hnoted.mono (by decide)).trans ((hon.mono (by decide)).trans hafter)).only⟩
    dsimp only
    rw [halert.only .power (by decide), htold.only .power (by decide), hlife.only .power (by decide), hpower']
    exact ⟨hmem, fun _ => ⟨rfl, hraised.keep halert⟩, fun b h => absurd h.symm (Option.some_ne_none b), rfl⟩
theorem braceExit_ends {b : Brace} (hb : s.power.braceOn = some b) (hdue : b.warnedAt + 31 ≤ s.ticks) : Happens (.power :: eventParts) (fun t =>
    t.power = { s.power with
      braceOn := none, warned := [], avsLast := s.power.avsLast + (s.ticks - s.power.avsLast) / 6250 * 6250
      avsWas := if s.ticks < s.power.avsLast + 6250 then s.power.avsWas else s.power.avsTarget }
    ∧ Raised .braceExit .device 0 (w1 (s.ticks - b.entry) ++ w1 b.deepest) s.tn t) s (exec .braceExit s) := by
  have hoff := steps_modPower (fun p => { p with
    braceOn := none, warned := [], avsLast := p.avsLast + (s.ticks - p.avsLast) / 6250 * 6250
    avsWas := if s.ticks < p.avsLast + 6250 then p.avsWas else p.avsTarget }) s
  have hexec : exec .braceExit s = .next (((s.modPower (fun p => { p with
      braceOn := none, warned := [], avsLast := p.avsLast + (s.ticks - p.avsLast) / 6250 * 6250
      avsWas := if s.ticks < p.avsLast + 6250 then p.avsWas else p.avsTarget })).raise .braceExit .device 0 (w1 (s.ticks - b.entry) ++ w1 b.deepest)).refreshAlert) := by
    refine (?_ : execBraceExit s = _)
    simp only [execBraceExit, hb]
    exact if_neg (by omega)
  have hpower := State.modPower_power (fun p => { p with
    braceOn := none, warned := [], avsLast := p.avsLast + (s.ticks - p.avsLast) / 6250 * 6250
    avsWas := if s.ticks < p.avsLast + 6250 then p.avsWas else p.avsTarget }) s
  generalize s.modPower _ = u at hoff hexec hpower
  have htold := steps_raise .braceExit .device 0 (w1 (s.ticks - b.entry) ++ w1 b.deepest) u
  have halert := steps_refreshAlert (u.raise .braceExit .device 0 (w1 (s.ticks - b.entry) ++ w1 b.deepest))
  refine ⟨_, hexec, ⟨?_, (raised_raise_tn hoff.tn).keep halert⟩, ((hoff.mono (by decide)).trans ((htold.mono (by decide)).trans (halert.mono (by decide)))).only⟩
  rw [halert.only .power (by decide), htold.only .power (by decide), hpower]
end

/-! ### The AVSBus and the battery (R478, R497) -/

section
variable {s : State}
theorem exec_avsLoopStep {step : Int} {ok : Bool} (hsys : s.sysHeld = false) (hbrace : s.power.braceOn = none) (hdue : s.power.avsLast + 6250 ≤ s.ticks) :
    exec (.avsLoopStep step ok) s = if ok then .next ((s.modPower (fun p => { p with avsLast := s.ticks, avsWas := p.avsTarget })).modPower (fun p =>
        { p with avsTarget := (clampI 600 720 ((p.avsTarget : Int) + clampI (-5) 5 step)).toNat }))
      else .next ((s.modPower (fun p => { p with avsLast := s.ticks, avsWas := p.avsTarget })).lifeBump 28 4294967295 1 (·.avsFaults) (fun v r => { r with avsFaults := v })) := by
  have hfree : (s.sysHeld || s.power.braceOn.isSome || decide (s.ticks < s.power.avsLast + 6250)) = false := by
    rw [hsys, hbrace, decide_eq_false (by omega)]
    rfl
  exact (if_neg (by rw [hfree]; exact Bool.false_ne_true) : execAvsLoopStep step ok s = _)
theorem avsLoopStep_steps {step : Int} {ok : Bool} (hsys : s.sysHeld = false) (hbrace : s.power.braceOn = none) (hdue : s.power.avsLast + 6250 ≤ s.ticks) :
    Happens braceParts (fun t => t.power.avsLast = s.ticks ∧ t.power.avsWas = s.power.avsTarget
      ∧ (ok = true → t.power.avsTarget = (clampI 600 720 ((s.power.avsTarget : Int) + clampI (-5) 5 step)).toNat)
      ∧ (ok = false → t.power.avsTarget = s.power.avsTarget
        ∧ t.kennel.life.avsFaults = min 4294967295 (s.kennel.life.avsFaults + 1))) s (exec (.avsLoopStep step ok) s) := by
  rw [exec_avsLoopStep hsys hbrace hdue]
  have hstart := steps_modPower (fun p => { p with avsLast := s.ticks, avsWas := p.avsTarget }) s
  cases ok with
  | true => exact ⟨_, rfl, ⟨rfl, rfl, fun _ => rfl, fun h => nomatch h⟩, ((hstart.mono (m := braceParts) (by decide)).trans ((steps_modPower ..).mono (by decide))).only⟩
  | false =>
    have hlife := steps_lifeBump 28 4294967295 1 (·.avsFaults) (fun v r => { r with avsFaults := v })
      (s.modPower (fun p => { p with avsLast := s.ticks, avsWas := p.avsTarget }))
    refine ⟨_, rfl, ?_, ((hstart.mono (m := braceParts) (by decide)).trans (hlife.mono (by decide))).only⟩
    dsimp only
    rw [hlife.only .power (by decide), State.lifeBump_life]
    exact ⟨rfl, rfl, fun h => absurd h Bool.false_ne_true, fun _ => ⟨rfl, rfl⟩⟩
theorem vbatMeasurement_measures (mv : Nat) (haux : s.power.vddAux = true) : Happens braceParts (fun t =>
    t.power = { s.power with vbatMv := mv, vbat := mv != 0 }
    ∧ (mv < 2200 → t.kennel.life.vbatLowCount = min 4294967295 (s.kennel.life.vbatLowCount + 1)
      ∧ Raised .vbatLow .device 0 [] s.tn t)
    ∧ (2200 ≤ mv → t.kennel.life = s.kennel.life)) s (exec (.vbatMeasurement mv) s) := by
  have hset := steps_modPower (fun p => { p with vbatMv := mv, vbat := mv != 0 }) s
  have hpower := State.modPower_power (fun p => { p with vbatMv := mv, vbat := mv != 0 }) s
  have hexec : exec (.vbatMeasurement mv) s = if mv < 2200 then
      .next ((((s.modPower (fun p => { p with vbatMv := mv, vbat := mv != 0 })).refreshAlert.lifeBump 36 4294967295 1 (·.vbatLowCount)
        (fun v r => { r with vbatLowCount := v }))).raise .vbatLow .device 0 [])
      else .next (s.modPower (fun p => { p with vbatMv := mv, vbat := mv != 0 })).refreshAlert :=
    (if_pos haux : execVbatMeasurement mv s = _)
  rw [hexec]
  generalize s.modPower (fun p => { p with vbatMv := mv, vbat := mv != 0 }) = u at hset hpower ⊢
  have halert := steps_refreshAlert u
  have hfrom : Steps braceParts s u.refreshAlert := (hset.mono (by decide)).trans (halert.mono (by decide))
  have hpower' : u.refreshAlert.power = { s.power with vbatMv := mv, vbat := mv != 0 } := (halert.only .power (by decide)).trans hpower
  have hlife : u.refreshAlert.kennel.life = s.kennel.life := (halert.only .life (by decide)).1.trans (hset.only .life (by decide)).1
  have htn : u.refreshAlert.tn = s.tn := halert.tn.trans hset.tn
  generalize u.refreshAlert = v at hfrom hpower' hlife htn ⊢
  by_cases hlow : mv < 2200
  · have hbump := steps_lifeBump 36 4294967295 1 (·.vbatLowCount) (fun n r => { r with vbatLowCount := n }) v
    have htold := steps_raise .vbatLow .device 0 [] (v.lifeBump 36 4294967295 1 (·.vbatLowCount) (fun n r => { r with vbatLowCount := n }))
    rw [if_pos hlow]
    refine ⟨_, rfl, ⟨?_, fun _ => ⟨?_, raised_raise_tn (hbump.tn.trans htn)⟩, fun h => absurd h (by omega)⟩,
      (hfrom.trans ((hbump.mono (by decide)).trans (htold.mono (by decide)))).only⟩
    · rw [htold.only .power (by decide), hbump.only .power (by decide), hpower']
    · rw [(htold.only .life (by decide)).1, State.lifeBump_life, ← hlife]
  · rw [if_neg hlow]
    exact ⟨_, rfl, ⟨hpower', fun h => absurd h hlow, fun _ => hlife⟩, hfrom.only⟩
end

/-! ### What the reset of a domain does (Table 18.4) -/

section
variable {e k : Nat} {s u t : State}
/-- What the reset of a line tile's domain makes of an engine. -/
structure Engine.Unpowered (g : Engine) : Prop where
  reason : g.tx.reason.power = true
  state : g.acq.state = .disabled
  slots : g.key.slots = Vector.replicate 4 none
  hub : g.hubSlots = []
/-- What the reset of a line tile's engines moves. -/
def unpowerParts : List Part := .jobs :: .responses :: erasureParts
/-- An engine of a line tile whose domain resets. -/
def State.ltEngineReset (e : Nat) (s : State) : State :=
  (((((s.modEng e (fun g => { g with tx := { g.tx with reason := { g.tx.reason with power := true } }, hubSlots := [], frameSlots := [] })).dropSvc e).dropCdSwap e).fenceReleased e)).emptySlots e
    [0, 1, 2, 3] .domainReset
theorem State.ltReset_eq : s.ltReset k = ((tileEngines k).foldl (fun s e => s.ltEngineReset e) s).dropCapture k := rfl
theorem State.dropCdSwap_isolation (e j : Nat) (s : State) : ((s.dropCdSwap e).eng j).isolation = (s.eng j).isolation := by
  refine (State.eng_modEng_of Engine.isolation ..).trans ?_
  simp
theorem State.dropCdSwap_hub (e j : Nat) (s : State) : ((s.dropCdSwap e).eng j).hubSlots = (s.eng j).hubSlots := by
  refine (State.eng_modEng_of (·.hubSlots) ..).trans ?_
  simp
theorem State.fenceReleased_hub (e j : Nat) (s : State) : ((s.fenceReleased e).eng j).hubSlots = (s.eng j).hubSlots := by
  unfold State.fenceReleased State.alignRelease State.setHeel
  dsimp only
  split
  · rfl
  · refine (State.eng_modEng_of (·.hubSlots) ..).trans ?_
    split
    · rfl
    · rw [State.eng_raise]
      exact State.eng_modEng_of (·.hubSlots) ..
theorem ltEngineReset_resets (he : e < 48) (s : State) : Steps unpowerParts s (s.ltEngineReset e) ∧ OtherEngines e s (s.ltEngineReset e)
    ∧ ((s.ltEngineReset e).eng e).Unpowered := by
  unfold State.ltEngineReset
  have hset := acts_modEng e (fun g => { g with tx := { g.tx with reason := { g.tx.reason with power := true } }, hubSlots := [], frameSlots := [] }) s
  have heng := State.eng_modEng_same e (fun g => { g with tx := { g.tx with reason := { g.tx.reason with power := true } }, hubSlots := [], frameSlots := [] }) s he
  have hreason := congrArg (fun g : Engine => g.tx.reason.power) heng
  have hhub := congrArg Engine.hubSlots heng
  dsimp only at hreason hhub
  generalize s.modEng e _ = a at hset hreason hhub ⊢
  have hdrop : Acts e [] a (a.dropSvc e) := acts_modEng ..
  have heng' : (a.dropSvc e).eng e = _ := State.eng_modEng_same _ _ _ he
  have hreason' : ((a.dropSvc e).eng e).tx.reason.power = true := (congrArg (fun g : Engine => g.tx.reason.power) heng').trans hreason
  have hhub' : ((a.dropSvc e).eng e).hubSlots = [] := (congrArg Engine.hubSlots heng').trans hhub
  generalize a.dropSvc e = b at hdrop hreason' hhub' ⊢
  have hswap := acts_dropCdSwap e b
  have hreason'' : ((b.dropCdSwap e).eng e).tx.reason.power = true :=
    (congrArg (fun x : Option Iso × Transmit => x.2.reason.power) (State.dropCdSwap_isolation e e b)).trans hreason'
  have hhub'' : ((b.dropCdSwap e).eng e).hubSlots = [] := (State.dropCdSwap_hub ..).trans hhub'
  generalize b.dropCdSwap e = c at hswap hreason'' hhub'' ⊢
  obtain ⟨hrelease, hoff, hkept⟩ := fenceReleased_releases he c
  have hreason3 : ((c.fenceReleased e).eng e).tx.reason.power = true := (congrArg (fun x : Option Iso × Transmit => x.2.reason.power) hkept).trans hreason''
  have hhub3 : ((c.fenceReleased e).eng e).hubSlots = [] := (State.fenceReleased_hub ..).trans hhub''
  have hreleased : Steps (.engines :: eventParts) c (c.fenceReleased e) := by
    unfold State.fenceReleased
    exact steps_ite (.refl ..) (acts_alignRelease ..).steps
  generalize c.fenceReleased e = d at hrelease hoff hreason3 hhub3 hreleased ⊢
  obtain ⟨herase, hkeyless, -⟩ := emptyEngine_empties (why := .domainReset) he d
  refine ⟨((((hset.steps.mono (by decide)).trans (hdrop.steps.mono (by decide))).trans (hswap.steps.mono (by decide))).trans (hreleased.mono (by decide))).trans (herase.mono (by decide)),
    fun j hj => ?_, ?_⟩
  · rw [hkeyless.2 j hj, hrelease.others j hj, hswap.within.2 j hj, hdrop.within.2 j hj, hset.within.2 j hj]
  · rw [hkeyless.1]
    exact ⟨hreason3, hoff, rfl, hhub3⟩
/-- What the reset of a line tile's domain moves. -/
def ltParts : List Part := .tiles :: .dma :: unpowerParts
theorem dropCapture_drops (hk : k < 12) (s : State) : Steps withdrawParts s (s.dropCapture k) ∧ TileIs k Tile.uncaptured s (s.dropCapture k) := by
  have hengines : (s.dropCapture k).engines = s.engines := by
    rw [State.dropCapture_eq]
    refine State.foldl_same (·.engines) State.endWithdrawn (fun u i => ?_) _ _
    unfold State.endWithdrawn
    split
    · exact State.endChannel_engines ..
    · rfl
  refine ⟨(acts_dropCapture 0 k s).steps_of_engines hengines, (tileIs_modTile hk Tile.uncaptured s).of_same rfl ?_⟩
  rw [State.dropCapture_eq]
  exact endWithdrawn_tiles ..
theorem ltReset_resets (hk : k < 12) (s : State) : Steps ltParts s (s.ltReset k) ∧ (∀ e ∈ tileEngines k, ((s.ltReset k).eng e).Unpowered)
    ∧ ((s.ltReset k).tile k).capture.state = .idle ∧ ∀ e, e ∉ tileEngines k → (s.ltReset k).eng e = s.eng e := by
  rw [State.ltReset_eq]
  obtain ⟨hsteps, hkept, hall⟩ := engines_foldl (R := fun _ g => g.Unpowered) (f := fun s e => s.ltEngineReset e) (fun e he s => ltEngineReset_resets he s) (tileEngines k)
    (tileEngines_lt hk) (tileEngines_nodup k) s
  generalize (tileEngines k).foldl (fun s e => s.ltEngineReset e) s = a at hsteps hkept hall ⊢
  obtain ⟨hdrop, htile, -⟩ := dropCapture_drops hk a
  refine ⟨(hsteps.mono (by decide)).trans (hdrop.mono (by decide)), fun e he => ?_, by rw [htile]; rfl, fun e he => ?_⟩
  · rw [hdrop.eng e (by decide)]
    exact hall e he
  · rw [hdrop.eng e (by decide)]
    exact hkept e he
/-- A port whose host tile resets: what it holds is lost, and it trains unless it is DISABLED. -/
def Port.unpowered (p : Port) : Port :=
  { p with data := { p.data with mapper := [], grains := [], egress := [], inserted := [], out := [], fault := true }
           tap := { p.tap with queue := [] }
           state := if p.state == .disabled then .disabled else .training }
/-- A port of a host tile whose domain resets. -/
def State.htPortReset (n : Nat) (s : State) : State := ((s.stopDiagnostics n).endRound n).modPort n Port.unpowered
theorem State.htReset_eq : s.htReset k = (((s.ports.filter (fun p => p.1 / 96 == k)).map (·.1)).foldl (fun s n => s.htPortReset n) s).modHtile k
    (fun h => { h with waiting := [] }) := rfl
/-- What the reset of a host tile's domain moves. -/
def htParts : List Part := .htiles :: .ports :: .lanes :: .freeCtr :: eventParts
theorem moves_htPortReset (n : Nat) (s : State) : Moves htParts s (s.htPortReset n) :=
  (((moves_stopDiagnostics ..).mono (by decide)).trans ((endRound_tells ..).1.mono (by decide))).trans ((moves_modPort ..).mono (by decide))
/-- A port that is DISABLED or trains. -/
def Idles (n : Nat) (s : State) : Prop := ∀ p, s.port? n = some p → p.state = .disabled ∨ p.state = .training
theorem htPortReset_idles (n : Nat) (s : State) : Idles n (s.htPortReset n) := by
  intro p hp
  have hport := (portIs_modPort n Port.unpowered ((s.stopDiagnostics n).endRound n)).1
  unfold State.htPortReset at hp
  rw [hport, Option.map_eq_some_iff] at hp
  obtain ⟨q, -, rfl⟩ := hp
  unfold Port.unpowered
  dsimp only
  split
  · exact .inl rfl
  · exact .inr rfl
theorem htPortReset_keeps {n m : Nat} (h : Idles m s) : Idles m (s.htPortReset n) := by
  by_cases hm : m = n
  · exact hm ▸ htPortReset_idles _ _
  · intro p hp
    refine h p ?_
    have hmod := (portIs_modPort n Port.unpowered ((s.stopDiagnostics n).endRound n)).2 m hm
    have hround := (endRound_tells n (s.stopDiagnostics n)).2.1.2 m hm
    have hdiag : (s.stopDiagnostics n).port? m = s.port? m := by
      unfold State.port?
      rw [(moves_stopDiagnostics n s).ports]
    unfold State.htPortReset at hp
    rw [hmod, hround, hdiag] at hp
    exact hp
theorem htReset_resets (k : Nat) (s : State) : Steps htParts s (s.htReset k) ∧ ∀ n, n / 96 = k → Idles n (s.htReset k) := by
  rw [State.htReset_eq]
  have hmoves : Steps htParts s (((s.ports.filter (fun p => p.1 / 96 == k)).map (·.1)).foldl (fun s n => s.htPortReset n) s) :=
    .foldl (fun u n => (moves_htPortReset n u).steps) _ _
  have hidle : ∀ n, n / 96 = k → Idles n (((s.ports.filter (fun p => p.1 / 96 == k)).map (·.1)).foldl (fun s n => s.htPortReset n) s) := by
    intro n hn
    by_cases hin : n ∈ (s.ports.filter (fun p => p.1 / 96 == k)).map (·.1)
    · exact foldl_establishes (P := Idles n) (f := fun s n => s.htPortReset n) (fun u m h => htPortReset_keeps h) (fun u => htPortReset_idles n u) _ _ hin
    · have hnone : Idles n s := fun p hp => by
        obtain ⟨q, hq, -⟩ := Option.map_eq_some_iff.mp hp
        have hkey : q.1 = n := by simpa using List.find?_some hq
        exact absurd (List.mem_map.mpr ⟨q, List.mem_filter.mpr ⟨List.mem_of_find?_eq_some hq, by simp [hkey, hn]⟩, hkey⟩) hin
      exact List.foldlRecOn (motive := Idles n) _ _ hnone (fun u hu m _ => htPortReset_keeps hu)
  generalize ((s.ports.filter (fun p => p.1 / 96 == k)).map (·.1)).foldl (fun s n => s.htPortReset n) s = a at hmoves hidle ⊢
  exact ⟨hmoves.trans ((moves_modHtile ..).steps.mono (by decide)), hidle⟩
/-- What is left of the hub, before its clients are flushed. -/
def State.hubCleared (s : State) : State :=
  { s with ctr := { Counters.reset with bw := s.ctr.bw.map (fun (x : Nat × BwWindow) => (x.1, { x.2 with start := none, ingress := 0, egress := 0, seq := 0 })) }
           cal := { s.cal with frozen := [], unread := [], told := [], bad := [], dead := [] }
           packs := s.packs.map (fun (p : Pack) => { p with pool := [] }) }
/-- The channels that dump counters, of the hub. -/
def State.dumpsOn (s : State) : List Nat := (List.range 16).filter (fun c => s.proto.jobs.any (fun j => onChannel c j && j.ticket.opcode == 0x805))
/-- The commands of a hub that resets, answered. -/
def State.hubAnswered (s : State) : State :=
  (s.cancelArmed (fun a => a.opcode == 0x804) .cancelled Ev.domainReset.code).dumpsOn.foldl
    (fun s c => (s.endChannel c .sourceWithdrawn).answerChannel c .sourceWithdrawn) (s.cancelArmed (fun a => a.opcode == 0x804) .cancelled Ev.domainReset.code)
theorem State.hubReset_eq : s.hubReset = s.hubAnswered.hubCleared.ports.foldl (fun s p => s.flushClient p.1) s.hubAnswered.hubCleared := rfl
theorem steps_hubAnswered (s : State) : Steps [.armed, .dma, .happened, .jobs, .sec, .queueRegs, .responses, .msix, .alertN] s s.hubAnswered :=
  ((steps_cancelArmed ..).mono (by decide)).trans (.foldl (fun u c => ((steps_endChannel ..).mono (by decide)).trans
    ((answerChannel_ends c _ (e := .sourceWithdrawn) (.inr (.inr (.inl rfl))) (by decide)).1.mono (by decide))) _ _)
theorem hubReset_resets (s : State) : s.hubReset.ctr.slots = [] ∧ s.hubReset.ctr.heads = [] ∧ s.hubReset.power = s.power
    ∧ ∀ e, (s.hubReset.eng e).key = (s.eng e).key := by
  rw [State.hubReset_eq]
  have hanswer := steps_hubAnswered s
  have hstores : KeepsButStores s.hubAnswered.hubCleared (s.hubAnswered.hubCleared.ports.foldl (fun s p => s.flushClient p.1) s.hubAnswered.hubCleared) :=
    List.foldlRecOn (motive := KeepsButStores s.hubAnswered.hubCleared) _ (fun (s : State) (p : Nat × Port) => s.flushClient p.1) (.of_same rfl rfl)
      (fun u hu p _ => hu.trans (keepsButStores_flushClient p.1 u))
  have hflush : Steps [.engines, .packs] s.hubAnswered.hubCleared (s.hubAnswered.hubCleared.ports.foldl (fun s p => s.flushClient p.1) s.hubAnswered.hubCleared) :=
    .foldl (fun u (p : Nat × Port) => steps_flushClient p.1 u) _ _
  have hpower : s.hubAnswered.hubCleared.power = s.power := hanswer.only .power (by decide)
  have heng : ∀ e, s.hubAnswered.hubCleared.eng e = s.eng e := fun e => hanswer.eng e (by decide)
  have hslots : s.hubAnswered.hubCleared.ctr.slots = [] := rfl
  have hheads : s.hubAnswered.hubCleared.ctr.heads = [] := rfl
  generalize s.hubAnswered.hubCleared = a at hstores hflush hpower heng hslots hheads ⊢
  obtain ⟨hslots', -, -, hheads', -⟩ := hflush.only .counters (by decide)
  refine ⟨hslots'.trans hslots, hheads'.trans hheads, (hflush.only .power (by decide)).trans hpower, fun e => ?_⟩
  obtain ⟨st, hst⟩ := hstores.eng e
  rw [hst, heng]
theorem SystemReset.keep {l : List Part} (h : SystemReset s u) (ht : Steps l u t)
    (hl : ∀ p ∈ [Part.engines, .ports, .packs, .cal, .map, .mapCentre, .time, .recovery, .dma, .lanes, .htiles, .mons, .chains, .armed, .jobs, .held, .masks, .tn, .sec,
      .settings, .pending, .freeCtr], p ∉ l := by decide) : SystemReset s t := by
  obtain ⟨engines, ports, packs, cal, map, centre, time, recovery, dma, lanes, htiles, mons, chains, armed, jobs, held, masked, tn, sec, settings, pending, free, told⟩ := h
  have hsame (p : Part) (hp : p ∈ [Part.engines, .ports, .packs, .cal, .map, .mapCentre, .time, .recovery, .dma, .lanes, .htiles, .mons, .chains, .armed, .jobs, .held, .masks,
    .tn, .sec, .settings, .pending, .freeCtr]) : p.same u t := ht.only p (hl p hp)
  exact ⟨(hsame .engines (by decide)).trans engines, (hsame .ports (by decide)).trans ports, (hsame .packs (by decide)).trans packs, (hsame .cal (by decide)).trans cal,
    (hsame .map (by decide)).trans map, (hsame .mapCentre (by decide)).trans centre, (hsame .time (by decide)).trans time, (hsame .recovery (by decide)).trans recovery,
    (hsame .dma (by decide)).trans dma, (hsame .lanes (by decide)).trans lanes, (hsame .htiles (by decide)).trans htiles, (hsame .mons (by decide)).trans mons,
    (hsame .chains (by decide)).trans chains, (hsame .armed (by decide)).trans armed, (hsame .jobs (by decide)).trans jobs, (hsame .held (by decide)).trans held,
    (hsame .masks (by decide)).trans masked, (hsame .tn (by decide)).trans tn, (hsame .sec (by decide)).trans sec, (hsame .settings (by decide)).1.trans settings,
    (hsame .pending (by decide)).trans pending, (hsame .freeCtr (by decide)).trans free, fun e i hi hs => (told e i hi hs).keep ht⟩
end

/-! ### A rail at its reset level (R482) -/

section
variable {d : Domain} {r : Rail} {level : Nat} {s : State}
/-- The domain as it is noted in the life record and held. -/
def State.railHeld (d : Domain) (level : Nat) (s : State) : State :=
  ((s.lifeDomainReset d).lifeDeepest d level).modPower (fun p => { p with
    inReset := (d, s.ticks) :: p.inReset, warned := p.warned.filter (fun x => decide (x.1 ≠ d)) })
theorem steps_lifeDomainReset (d : Domain) (s : State) : Steps (.life :: eventParts) s (s.lifeDomainReset d) := by
  unfold State.lifeDomainReset
  exact steps_lifeBump ..
theorem railHeld_holds (d : Domain) (level : Nat) (s : State) : Steps braceParts s (s.railHeld d level)
    ∧ (s.railHeld d level).power.inReset = (d, s.ticks) :: s.power.inReset := by
  have hlife := ((steps_lifeDomainReset d s).mono (m := braceParts) (by decide)).trans ((steps_lifeDeepest d level _).mono (by decide))
  have hpower : ((s.lifeDomainReset d).lifeDeepest d level).power = s.power :=
    ((steps_lifeDeepest d level _).only .power (by decide)).trans ((steps_lifeDomainReset d s).only .power (by decide))
  refine ⟨hlife.trans ((steps_modPower ..).mono (by decide)), ?_⟩
  unfold State.railHeld
  rw [State.modPower_power, hpower]
theorem domainHeld_cons {t : State} {x : Nat} (h : t.power.inReset = (d, x) :: s.power.inReset) :
    t.domainHeld d = true ∧ ∀ y, y ≠ d → t.domainHeld y = s.domainHeld y := by
  refine ⟨?_, fun y hy => ?_⟩ <;> unfold State.domainHeld <;> rw [h, List.any_cons]
  · rw [decide_eq_true rfl, Bool.true_or]
  · rw [decide_eq_false (Ne.symm hy), Bool.false_or]
/-- DOMAIN_RESET is told. -/
def State.resetTold (d : Domain) (r : Rail) (level tn : Nat) (s : State) : State := s.raiseAt .domainReset .device 0 (w1 d.idx ++ w1 r.code ++ w1 level) tn
theorem exec_railResetLevel (hwatch : s.watching d r = true) (hlevel : 100 ≤ level) (haux : d ≠ .aux) :
    exec (.railResetLevel d r level) s = .next (((s.railHeld d level).resetTold d r level s.tn).domainEffect d) := by
  refine (if_pos ⟨hwatch, hlevel⟩ : execRailResetLevel d r level s = _).trans ?_
  cases d with
  | aux => exact absurd rfl haux
  | lt k => rfl
  | ht k => rfl
  | hub => rfl
  | mgmt => rfl
  | io => rfl
theorem exec_railResetLevel_aux (hwatch : s.watching .aux r = true) (hlevel : 100 ≤ level) : exec (.railResetLevel .aux r level) s =
    .next (((s.railHeld .aux level).sysReset.modPower (fun p => { p with inReset := (s.railHeld .aux level).power.inReset })).resetTold .aux r level s.tn) :=
  (if_pos ⟨hwatch, hlevel⟩ : execRailResetLevel .aux r level s = _)
theorem vmap_congr {α β : Type} {n : Nat} {g : α → β} {v w : Vector α n} (x : α) (h : ∀ i, g (vget v i x) = g (vget w i x)) : v.map g = w.map g := by
  ext i hi
  have hi' := h i
  unfold vget at hi'
  rw [dif_pos hi, dif_pos hi] at hi'
  simpa using hi'
/-- What a rail at its reset level leaves, in the words of its clause. -/
def RailReset (d : Domain) (r : Rail) (level : Nat) (s t : State) : Prop :=
  t.domainHeld d = true
    ∧ (∀ x, x ≠ d → d ≠ .aux → t.domainHeld x = s.domainHeld x)
    ∧ (d ≠ .hub → d ≠ .mgmt → Raised .domainReset .device 0 (w1 d.idx ++ w1 r.code ++ w1 level) s.tn t)
    ∧ (∀ k, d = .lt k → (∀ e ∈ tileEngines k, (t.eng e).tx.reason.power = true ∧ (t.eng e).acq.state = .disabled
          ∧ (t.eng e).key.slots = Vector.replicate 4 none ∧ (t.eng e).hubSlots = [])
        ∧ (t.tile k).capture.state = .idle ∧ (∀ e, e ∉ tileEngines k → t.eng e = s.eng e)
        ∧ Only (withEvent [.engines, .tiles, .dma, .armed, .jobs, .responses, .life, .power]) s t)
    ∧ (∀ k, d = .ht k → t.engines = s.engines ∧ t.tiles.map (fun x => x.power) = s.tiles.map (fun x => x.power)
        ∧ ∀ n p, t.port? n = some p → n / 96 = k.val → p.state = .disabled ∨ p.state = .training)
    ∧ (d = .hub → t.ctr.slots = [] ∧ t.ctr.heads = [] ∧ t.engines.map (fun g => g.key) = s.engines.map (fun g => g.key))
    ∧ (d = .mgmt → t.recovery.fw = .inReset ∧ t.proto.jobs = [] ∧ t.proto.eventQueue = [] ∧ t.engines = s.engines)
    ∧ (d = .io → Only (withEvent [.life, .power]) s t)
    ∧ (d = .aux → SystemReset s t)
theorem resetTold_tells (d : Domain) (r : Rail) (level : Nat) (s : State) :
    Steps braceParts s ((s.railHeld d level).resetTold d r level s.tn)
      ∧ ((s.railHeld d level).resetTold d r level s.tn).power.inReset = (d, s.ticks) :: s.power.inReset
      ∧ Raised .domainReset .device 0 (w1 d.idx ++ w1 r.code ++ w1 level) s.tn ((s.railHeld d level).resetTold d r level s.tn) := by
  obtain ⟨hheld, hreset⟩ := railHeld_holds d level s
  have htold := steps_raiseAt_device .domainReset 0 (w1 d.idx ++ w1 r.code ++ w1 level) s.tn (s.railHeld d level)
  refine ⟨hheld.trans (htold.mono (by decide)), ?_, raised_raiseAt ..⟩
  rw [State.resetTold, htold.only .power (by decide), hreset]
theorem railReset_lt (k : Fin 12) (r : Rail) (level : Nat) (s : State) : RailReset (.lt k) r level s (((s.railHeld (.lt k) level).resetTold (.lt k) r level s.tn).ltReset k) := by
  obtain ⟨hheld, hreset, hraised⟩ := resetTold_tells (.lt k) r level s
  generalize (s.railHeld (.lt k) level).resetTold (.lt k) r level s.tn = b at hheld hreset hraised ⊢
  obtain ⟨hsteps, hengines, hidle, hothers⟩ := ltReset_resets k.isLt b
  rw [← hsteps.only .power (by decide)] at hreset
  obtain ⟨hself, helse⟩ := domainHeld_cons hreset
  refine ⟨hself, fun x hx _ => helse x hx, fun _ _ => hraised.keep hsteps, fun k' hk => ?_, fun _ h => Domain.noConfusion h, fun h => Domain.noConfusion h,
    fun h => Domain.noConfusion h, fun h => Domain.noConfusion h, fun h => Domain.noConfusion h⟩
  obtain rfl := Domain.lt.inj hk
  refine ⟨fun e he => ?_, hidle, fun e he => (hothers e he).trans (hheld.eng e (by decide)), ((hheld.mono (by decide)).trans (hsteps.mono (by decide))).only⟩
  obtain ⟨hreason, hstate, hslots, hhub⟩ := hengines e he
  exact ⟨hreason, hstate, hslots, hhub⟩
theorem railReset_ht (k : Fin 4) (r : Rail) (level : Nat) (s : State) : RailReset (.ht k) r level s (((s.railHeld (.ht k) level).resetTold (.ht k) r level s.tn).htReset k) := by
  obtain ⟨hheld, hreset, hraised⟩ := resetTold_tells (.ht k) r level s
  generalize (s.railHeld (.ht k) level).resetTold (.ht k) r level s.tn = b at hheld hreset hraised ⊢
  obtain ⟨hsteps, hidle⟩ := htReset_resets k b
  rw [← hsteps.only .power (by decide)] at hreset
  obtain ⟨hself, helse⟩ := domainHeld_cons hreset
  refine ⟨hself, fun x hx _ => helse x hx, fun _ _ => hraised.keep hsteps, fun _ h => Domain.noConfusion h, fun k' hk => ?_, fun h => Domain.noConfusion h,
    fun h => Domain.noConfusion h, fun h => Domain.noConfusion h, fun h => Domain.noConfusion h⟩
  obtain rfl := Domain.ht.inj hk
  refine ⟨(hsteps.only .engines (by decide)).trans (hheld.only .engines (by decide)), ?_, fun n p hp hn => hidle n hn p hp⟩
  refine vmap_congr Tile.reset (fun i => ?_)
  have huntriggered := (hsteps.only .tiles (by decide) i).trans (hheld.only .tiles (by decide) i)
  have hpower := congrArg Tile.power huntriggered
  exact hpower
theorem railReset_hub (r : Rail) (level : Nat) (s : State) : RailReset .hub r level s ((s.railHeld .hub level).resetTold .hub r level s.tn).hubReset := by
  obtain ⟨hheld, hreset, -⟩ := resetTold_tells .hub r level s
  generalize (s.railHeld .hub level).resetTold .hub r level s.tn = b at hheld hreset ⊢
  obtain ⟨hslots, hheads, hpower, hkeys⟩ := hubReset_resets b
  rw [← hpower] at hreset
  obtain ⟨hself, helse⟩ := domainHeld_cons hreset
  refine ⟨hself, fun x hx _ => helse x hx, fun h => absurd rfl h, fun _ h => Domain.noConfusion h, fun _ h => Domain.noConfusion h, fun _ => ⟨hslots, hheads, ?_⟩,
    fun h => Domain.noConfusion h, fun h => Domain.noConfusion h, fun h => Domain.noConfusion h⟩
  refine vmap_congr Engine.reset (fun e => ?_)
  exact (hkeys e).trans (congrArg Engine.key (hheld.eng e (by decide)))
theorem railReset_mgmt (r : Rail) (level : Nat) (s : State) : RailReset .mgmt r level s (((s.railHeld .mgmt level).resetTold .mgmt r level s.tn).mgmtReset false) := by
  obtain ⟨hheld, hreset, -⟩ := resetTold_tells .mgmt r level s
  generalize (s.railHeld .mgmt level).resetTold .mgmt r level s.tn = b at hheld hreset ⊢
  obtain ⟨honly, ⟨p, hproto, -, -⟩, hrec, -⟩ := mgmtReset_resets false b
  rw [← honly .power (by decide)] at hreset
  obtain ⟨hself, helse⟩ := domainHeld_cons hreset
  refine ⟨hself, fun x hx _ => helse x hx, fun _ h => absurd rfl h, fun _ h => Domain.noConfusion h, fun _ h => Domain.noConfusion h, fun h => Domain.noConfusion h,
    fun _ => ⟨by rw [hrec]; rfl, by rw [hproto]; rfl, by rw [hproto]; rfl, (honly .engines (by decide)).trans (hheld.only .engines (by decide))⟩,
    fun h => Domain.noConfusion h, fun h => Domain.noConfusion h⟩
theorem railReset_io (r : Rail) (level : Nat) (s : State) : RailReset .io r level s ((s.railHeld .io level).resetTold .io r level s.tn).refreshAlert := by
  obtain ⟨hheld, hreset, hraised⟩ := resetTold_tells .io r level s
  generalize (s.railHeld .io level).resetTold .io r level s.tn = b at hheld hreset hraised ⊢
  have hsteps := steps_refreshAlert b
  rw [← hsteps.only .power (by decide)] at hreset
  obtain ⟨hself, helse⟩ := domainHeld_cons hreset
  exact ⟨hself, fun x hx _ => helse x hx, fun _ _ => hraised.keep hsteps, fun _ h => Domain.noConfusion h, fun _ h => Domain.noConfusion h, fun h => Domain.noConfusion h,
    fun h => Domain.noConfusion h, fun _ => ((hheld.mono (by decide)).trans (hsteps.mono (by decide))).only, fun h => Domain.noConfusion h⟩
theorem railReset_aux (r : Rail) (level : Nat) (s : State) : RailReset .aux r level s
    (((s.railHeld .aux level).sysReset.modPower (fun p => { p with inReset := (s.railHeld .aux level).power.inReset })).resetTold .aux r level s.tn) := by
  obtain ⟨hheld, hreset⟩ := railHeld_holds .aux level s
  generalize s.railHeld .aux level = a at hheld hreset ⊢
  have hsys : SystemReset s a.sysReset := systemReset_of (hheld.only .engines (by decide)) (hheld.only .jobs (by decide)) (hheld.only .sec (by decide))
    (hheld.only .settings (by decide)).1 (hheld.only .pending (by decide)) (hheld.only .freeCtr (by decide)) hheld.tn
  have hpower := steps_modPower (fun p => { p with inReset := a.power.inReset }) a.sysReset
  have hnow : (a.sysReset.modPower (fun p => { p with inReset := a.power.inReset })).power.inReset = (.aux, s.ticks) :: s.power.inReset := hreset
  generalize a.sysReset.modPower (fun p => { p with inReset := a.power.inReset }) = v at hpower hnow ⊢
  have htold := steps_raiseAt_device .domainReset 0 (w1 Domain.aux.idx ++ w1 r.code ++ w1 level) s.tn v
  have hsame : (v.resetTold .aux r level s.tn).power = v.power := htold.only .power (by decide)
  obtain ⟨hself, helse⟩ := domainHeld_cons (t := v.resetTold .aux r level s.tn) (d := .aux) (s := s) (x := s.ticks) (by rw [hsame]; exact hnow)
  exact ⟨hself, fun _ _ h => absurd rfl h, fun _ _ => raised_raiseAt .., fun _ h => Domain.noConfusion h, fun _ h => Domain.noConfusion h, fun h => Domain.noConfusion h,
    fun h => Domain.noConfusion h, fun h => Domain.noConfusion h, fun _ => (hsys.keep hpower).keep htold⟩
theorem railResetLevel_resets (hwatch : s.watching d r = true) (hlevel : 100 ≤ level) : Completes (exec (.railResetLevel d r level) s) (RailReset d r level s) := by
  cases d with
  | aux => exact ⟨_, exec_railResetLevel_aux hwatch hlevel, railReset_aux ..⟩
  | lt k => exact ⟨_, exec_railResetLevel hwatch hlevel (fun h => Domain.noConfusion h), railReset_lt ..⟩
  | ht k => exact ⟨_, exec_railResetLevel hwatch hlevel (fun h => Domain.noConfusion h), railReset_ht ..⟩
  | hub => exact ⟨_, exec_railResetLevel hwatch hlevel (fun h => Domain.noConfusion h), railReset_hub ..⟩
  | mgmt => exact ⟨_, exec_railResetLevel hwatch hlevel (fun h => Domain.noConfusion h), railReset_mgmt ..⟩
  | io => exact ⟨_, exec_railResetLevel hwatch hlevel (fun h => Domain.noConfusion h), railReset_io ..⟩
end

/-! ### The release of a domain (R482) -/

section
variable {d : Domain} {elapsed : Nat} {s : State}
theorem recentre_keeps {β : Type} {g : Engine → β} (hg : ∀ (x : Engine) (f : Converter → Converter), g { x with conv := f x.conv } = g x) (e : Nat) (dac : Bool) (lane j : Nat) (s : State) :
    g ((s.recentre e dac lane).eng j) = g (s.eng j) := by
  unfold State.recentre
  refine State.foldl_same (fun s => g (s.eng j)) _ (fun u t => ?_) _ _
  dsimp only
  split
  · rfl
  · exact State.foldl_same (fun s => g (s.eng j)) _ (fun v i => State.eng_modEng_of g e _ v j (fun x => hg x _)) _ _
theorem recentreAll_keeps {β : Type} {g : Engine → β} (hg : ∀ (x : Engine) (f : Converter → Converter), g { x with conv := f x.conv } = g x) (e j : Nat) (s : State) :
    g ((s.recentreAll e).eng j) = g (s.eng j) :=
  State.foldl_same (fun s => g (s.eng j)) _ (fun u l => (recentre_keeps hg e true l j _).trans (recentre_keeps hg e false l j u)) _ _
theorem acts_recentreAll (e : Nat) (s : State) : Acts e [] s (s.recentreAll e) :=
  (convStep_recentreAll (g := fun _ => ()) (fun _ _ _ _ _ _ _ _ _ => rfl)).acts
/-- An engine whose domain is released: its receiver leaves DISABLED, and its converter starts anew with `conv`. -/
def Engine.repowered (conv : Converter) (g : Engine) : Engine :=
  { g with acq := if g.kRx ≠ 0 ∧ g.acq.state = .disabled then { g.acq with state := .noSignal, noSyncRaised := false } else g.acq
           losIn := false
           conv := conv }
/-- The converter of an engine as it starts after a reset of its domain. -/
def State.convAnew (s : State) (e : Nat) (g : Engine) : Converter :=
  (s.kennel.life.retirements.filter (fun r => r.engine == e)).foldl Converter.applyRetired
    { Converter.reset with cfg := g.conv.cfg, learned := g.conv.learned, temp := g.conv.temp, winRunning := false }
/-- An engine of a line tile whose domain is released. -/
def State.ltEngineRelease (e : Nat) (s : State) : State := (s.modEng e (fun g => g.repowered (s.convAnew e g))).recentreAll e
theorem domainRelease_lt (k : Fin 12) (elapsed : Nat) (s : State) :
    s.domainRelease (.lt k) elapsed = (tileEngines k).foldl (fun s e => s.ltEngineRelease e) s := rfl
/-- What the release of its domain leaves of an engine. -/
def Repowered (g g' : Engine) : Prop := g'.tx = g.tx ∧ (g.kRx ≠ 0 → g.acq.state = .disabled → g'.acq.state = .noSignal)
theorem ltEngineRelease_releases {e : Nat} (he : e < 48) (s : State) : Steps [.engines] s (s.ltEngineRelease e) ∧ OtherEngines e s (s.ltEngineRelease e)
    ∧ Repowered (s.eng e) ((s.ltEngineRelease e).eng e) := by
  unfold State.ltEngineRelease
  have hset := acts_modEng e (fun g => g.repowered (s.convAnew e g)) s
  have heng := State.eng_modEng_same e (fun g => g.repowered (s.convAnew e g)) s he
  generalize s.modEng e (fun g => g.repowered (s.convAnew e g)) = a at hset heng ⊢
  have hcentre := acts_recentreAll e a
  have hkept := recentreAll_keeps (g := fun g => (g.tx, g.acq)) (fun _ _ => rfl) e e a
  obtain ⟨htx, hacq⟩ := Prod.mk.injEq .. ▸ hkept
  refine ⟨(hset.steps.trans hcentre.steps), fun j hj => (hcentre.within.2 j hj).trans (hset.within.2 j hj), ?_, fun hk hoff => ?_⟩
  · rw [htx, heng]
    rfl
  · rw [hacq, heng]
    exact congrArg Acquisition.state (if_pos ⟨hk, hoff⟩)
theorem steps_startRound (n : Nat) (s : State) : Steps roundParts s (s.startRound n) := by
  cases hp : s.port? n with
  | none =>
    unfold State.startRound
    rw [hp]
    exact .refl ..
  | some p => exact (startRound_starts hp).1.steps
theorem State.sysStart_power (elapsed : Nat) (s : State) : (s.sysStart elapsed).power = s.power := by
  have hchecked : s.checkSettings.checkLife.power = s.power := by
    unfold State.checkLife State.checkSettings
    (repeat' split) <;> rfl
  have hiv (u : State) : u.ivAdvance.power = u.power := by
    unfold State.ivAdvance
    split
    · have hclear : (u.domainClear .ivGen).power = u.power := (domainClear_clears .ivGen u).1.only .power (by decide)
      rw [State.modSettings_power]
      exact hclear
    · rfl
  have htaken (u : State) : (u.clocksTaken elapsed).power = u.power := by
    simp only [State.clocksTaken, State.modTime, hiv]
    rfl
  have hstarted : (s.checkSettings.checkLife.clocksTaken elapsed).enginesStarted.power = s.power :=
    ((State.enginesStarted_frame (·.power) _).trans (htaken _)).trans hchecked
  have heq : s.sysStart elapsed = if (s.checkSettings.checkLife.clocksTaken elapsed).enginesStarted.power.mgmtRstLow
      then (s.checkSettings.checkLife.clocksTaken elapsed).enginesStarted.mgmtReset true else (s.checkSettings.checkLife.clocksTaken elapsed).enginesStarted := rfl
  rw [heq]
  split
  · exact ((mgmtReset_resets true _).1 .power (by decide)).trans hstarted
  · exact hstarted
theorem steps_ltRelease (k : Fin 12) (s : State) : Steps [.engines] s (s.domainRelease (.lt k) elapsed)
    ∧ (∀ e, e ∉ tileEngines k → (s.domainRelease (.lt k) elapsed).eng e = s.eng e)
    ∧ ∀ e ∈ tileEngines k, Repowered (s.eng e) ((s.domainRelease (.lt k) elapsed).eng e) := by
  rw [domainRelease_lt]
  exact engines_foldl (f := fun s e => s.ltEngineRelease e) (fun e he u => ltEngineRelease_releases he u) (tileEngines k) (tileEngines_lt k.isLt) (tileEngines_nodup k) s
/-- The release of a domain leaves the supplies as they are. -/
theorem domainRelease_power (d : Domain) (elapsed : Nat) (s : State) : (s.domainRelease d elapsed).power = s.power := by
  cases d with
  | lt k => exact (steps_ltRelease k s).1.only .power (by decide)
  | ht k => exact (Steps.foldl (fun u n => steps_startRound n u) _ _ : Steps roundParts s (s.domainRelease (.ht k) elapsed)).only .power (by decide)
  | hub => rfl
  | mgmt =>
    by_cases hfree : s.mgmtFree = true
    · exact (mgmtRelease_releases s hfree).1 .power (by decide)
    · refine congrArg State.power (if_pos ?_ : s.mgmtRelease = s)
      unfold State.mgmtFree at hfree
      rwa [Bool.not_eq_true, Bool.not_eq_false'] at hfree
  | io => exact (steps_refreshAlert s).only .power (by decide)
  | aux =>
    unfold State.domainRelease
    dsimp only
    split
    · rfl
    · exact State.sysStart_power ..
/-- The domain is held no more. -/
def State.unheld (d : Domain) (s : State) : State := s.modPower (fun p => { p with inReset := p.inReset.filter (fun x => decide (x.1 ≠ d)) })
theorem steps_unheld (d : Domain) (s : State) : Steps [.power] s (s.unheld d) := steps_modPower ..
theorem domainHeld_filter {d : Domain} {t : State} (h : t.power.inReset = s.power.inReset.filter (fun x => decide (x.1 ≠ d))) : t.domainHeld d = false := by
  unfold State.domainHeld
  rw [h, List.any_eq_false]
  intro x hx
  simpa using (List.mem_filter.mp hx).2
theorem domainHeld_unheld (d : Domain) (s : State) : (s.unheld d).domainHeld d = false := domainHeld_filter rfl
theorem domainReset_releases (hserved : s.holdServed d elapsed = true) : Completes (exec (.domainResetRelease d elapsed) s) (fun t => t.domainHeld d = false
    ∧ (∀ k, d = .lt k → (∀ e ∈ tileEngines k, (t.eng e).tx = (s.eng e).tx
          ∧ ((s.eng e).kRx ≠ 0 → (s.eng e).acq.state = .disabled → (t.eng e).acq.state = .noSignal))
        ∧ (∀ e, e ∉ tileEngines k → t.eng e = s.eng e) ∧ Only [.engines, .power] s t)
    ∧ (d = .hub → Only [.power] s t)
    ∧ (d = .mgmt → s.power.mgmtRstLow = false → t.proto.mgmtResetArmed = none
        ∧ Raised .mgmtResetSeen .device 0 (w1 (s.proto.mgmtResetArmed.getD 0)) s.tn t)
    ∧ (d = .aux → s.power.sysRstLow = true → Only [.power] s t)) := by
  have hunheld := steps_unheld d s
  refine ⟨(s.unheld d).domainRelease d elapsed, (if_pos hserved : execDomainResetRelease d elapsed s = _), ?_, fun k hk => ?_, fun hd => ?_, fun hd hlow => ?_, fun hd hlow => ?_⟩
  · refine domainHeld_filter (s := s) ?_
    rw [domainRelease_power]
    rfl
  · subst hk
    obtain ⟨hsteps, hkept, hall⟩ := steps_ltRelease (elapsed := elapsed) k (s.unheld (.lt k))
    exact ⟨hall, hkept, ((hunheld.mono (by decide)).trans (hsteps.mono (by decide))).only⟩
  · subst hd
    exact hunheld.only
  · subst hd
    have hfree : (s.unheld .mgmt).mgmtFree = true := by
      have hout : (s.unheld .mgmt).power.inReset.any (fun d => d.1 == .mgmt) = false := by
        have hheld := domainHeld_unheld .mgmt s
        unfold State.domainHeld at hheld
        simpa [beq_eq_decide] using hheld
      unfold State.mgmtFree
      rw [hout, show (s.unheld .mgmt).power.mgmtRstLow = s.power.mgmtRstLow from rfl, hlow]
      rfl
    obtain ⟨-, hnone, htold, -⟩ := mgmtRelease_releases (s.unheld .mgmt) hfree
    exact ⟨hnone, htold⟩
  · subst hd
    have hstays : (s.unheld .aux).domainRelease .aux elapsed = s.unheld .aux := if_pos hlow
    rw [hstays]
    exact hunheld.only
theorem holdServed_unheld (h : s.domainHeld d = false) : s.holdServed d elapsed = false := by
  unfold State.domainHeld at h
  unfold State.holdServed
  rw [List.any_eq_false] at h ⊢
  intro x hx
  have hne := h x hx
  simp only [Bool.and_eq_true, not_and]
  exact fun heq => absurd heq hne
theorem holdServed_single {x : Nat} (haux : d ≠ .aux) (h : s.power.inReset = [(d, x)]) : s.holdServed d elapsed = true ↔ x + 625 ≤ s.ticks := by
  unfold State.holdServed
  rw [h]
  simp [haux]
end
/-- Settles O57: a warning and the end of brace, the reset of each domain and its release, and the two supplies, each by its row. -/
theorem railsAndDomains : Obligations.RailsAndDomains := by
  unfold Obligations.RailsAndDomains
  intro s
  refine ⟨fun d r level => ⟨railWarning_warns, fun h => ?_, fun h => ?_, railResetLevel_resets⟩, fun h => ?_, fun b hb hearly => ?_, fun b hb hdue => braceExit_ends hb hdue,
    fun d elapsed => ⟨fun h => ?_, holdServed_unheld, fun x haux hx => holdServed_single haux hx, domainReset_releases⟩,
    fun step ok => ⟨fun h => ?_, avsLoopStep_steps⟩, vbatMeasurement_measures⟩
  · refine (if_neg ?_ : execRailWarning d r level s = _)
    rintro ⟨hwatch, hlow, hhigh⟩
    rcases h with h | h | h
    · rw [hwatch] at h
      cases h
    · omega
    · omega
  · refine (if_neg ?_ : execRailResetLevel d r level s = _)
    rintro ⟨hwatch, hlevel⟩
    rcases h with h | h
    · rw [hwatch] at h
      cases h
    · omega
  · refine (?_ : execBraceExit s = _)
    simp only [execBraceExit, h]
  · refine (?_ : execBraceExit s = _)
    simp only [execBraceExit, hb]
    exact if_pos hearly
  · exact (if_neg (by rw [h]; exact Bool.false_ne_true) : execDomainResetRelease d elapsed s = _)
  · refine (if_pos ?_ : execAvsLoopStep step ok s = _)
    rcases h with h | h | h
    · rw [h]
      rfl
    · rw [Option.isSome_iff_ne_none.mpr h, Bool.or_true, Bool.true_or]
    · rw [decide_eq_true h, Bool.or_true]
end Sys2Proof.Machine
end

section
/-! Where the rows complete (O60): commands by their latency class, tick boundaries and the line side. -/
namespace Sys2Proof.Machine

/-! ### Accepted commands -/

/-- What carrying a command out leads to, by the latency class of its row. -/
theorem carryOut_settles (sp : OpSpec) (c : Cmd) (s : State) :
    Settled sp c s (.next (carryOut sp c (ticketNow sp.code c s) (s.atParse sp.code c))) := by
  refine ⟨_, rfl, ?_⟩
  cases heff : sp.eff with
  | now f =>
    have hout : carryOut sp c (ticketNow sp.code c s) (s.atParse sp.code c)
        = (f c (sp.onAccept c (s.atParse sp.code c))).1.final (ticketNow sp.code c s) .ok 0 (f c (sp.onAccept c (s.atParse sp.code c))).2 := by
      simp only [carryOut, heff]
    exact ⟨hout, _, hout ▸ answered_final ..⟩
  | boundary cls f =>
    obtain ⟨ticket, hout⟩ := carryOut_boundary heff c (ticketNow sp.code c s) (s.atParse sp.code c)
    obtain ⟨a, ha, hrest⟩ := pending_arm (ticket := ticket) (sp.onAccept c (s.atParse sp.code c))
    exact ⟨a, by rw [hout, State.respond_proto_armed]; exact ha, hrest⟩
  | atBoundary cls f =>
    obtain ⟨a, ha, hrest⟩ := pending_arm (ticket := some (ticketNow sp.code c s)) (sp.onAccept c (s.atParse sp.code c))
    refine ⟨a, ?_, hrest⟩
    simp only [carryOut, heff]
    split
    · rw [State.respond_proto_armed]
      exact ha
    · exact ha
  | silent f => simp only [carryOut, heff]
  | long f => simp only [carryOut, heff]
theorem runOp_runs (sp : OpSpec) (c : Cmd) (s : State) : Runs sp c s (runOp sp c s) := fun h => by
  rw [runOp_ready sp c s h]
  exact carryOut_settles sp c s
/-- Each row of the table runs its own specification. -/
theorem commandsComplete (c : Cmd) (s : State) :
    CommandsComplete1 c s ∧ CommandsComplete2 c s ∧ CommandsComplete3 c s ∧ CommandsComplete4 c s ∧ CommandsComplete5 c s := by
  refine ⟨?_, ?_, ?_, ?_, ?_⟩
  all_goals
    repeat' apply And.intro
    all_goals exact runOp_runs _ c s

/-! ### Happenings answer a next state on either side of a condition -/

theorem next_ite {p : Prop} [Decidable p] {a b : Res} (ha : ∃ t, a = .next t) (hb : ∃ t, b = .next t) :
    ∃ t, (if p then a else b) = .next t := by
  split
  · exact ha
  · exact hb

/-! ### Tick boundaries -/

theorem exec_tick {s : State} (o : TickObs) (h : s.sysHeld = false) :
    exec (.tick o) s = .next (s.closeTick o).advanceTick.boundary.releaseHeld.parseAll.refreshAlert :=
  (if_neg (by simp [h]) : execTick o s = _)
theorem exec_realignment {s : State} {q : Realign} (hq : s.realign = some q) (hdue : q.due s = true) (htraffic : s.trafficLast = false) :
    exec .realignment s = .next (s.stepNow.realignNow q).releaseHeld := by
  refine (?_ : execRealignment s = _)
  simp [execRealignment, hq, hdue, htraffic]
theorem boundaryRowsComplete (s : State) : BoundaryRowsComplete s := by
  refine ⟨fun o h => exec_tick o h, rfl, fun q hq hdue ht => exec_realignment hq hdue ht,
    fun i x h hpsf hdue => exec_sfHoldoffExpiry_pack hpsf hdue, fun i x h hsf hdue => ⟨_, exec_sfHoldoffExpiry_engine hsf hdue, ?_⟩⟩
  exact congrArg (·.defect.sfFault) (State.eng_modEng_same _ _ _ i.isLt)

end Sys2Proof.Machine
end

section
/-! Where the rows of the line side complete (O60). -/
namespace Sys2Proof.Machine

theorem Happens.completes {l : List Part} {P Q : State → Prop} {s : State} {r : Res} (h : Happens l P s r) (hpq : ∀ t, P t → Q t) :
    Completes r Q := by
  obtain ⟨t, ht, hp, -⟩ := h
  exact ⟨t, ht, hpq t hp⟩
theorem Happens.next {l : List Part} {P : State → Prop} {s : State} {r : Res} (h : Happens l P s r) : ∃ t, r = .next t :=
  Exists.imp (fun _ ht => ht.1) h
theorem completes_of {r : Res} {t : State} {P : State → Prop} (h : r = .next t) (hp : P t) : Completes r P := ⟨t, h, hp⟩
theorem completes_ite {p : Prop} [Decidable p] {a b : Res} {P : State → Prop} (ha : Completes a P) (hb : Completes b P) :
    Completes (if p then a else b) P := by
  split
  · exact ha
  · exact hb
theorem AtEngine.completes {e : Nat} {l : List Part} {P Q : State → Prop} {s : State} {r : Res} (h : AtEngine e l P s r)
    (hpq : ∀ t, P t → Q t) : Completes r Q := Happens.completes h (fun t ht => hpq t ht.1)

section
variable {e : Fin 48} {s : State}
theorem exec_rxSyncCheck_tracking (d : SyncSeen) (x : Option Contender) (h : (s.eng e).acq.state = .inFrame ∨ (s.eng e).acq.state = .oof) :
    exec (.rxSyncCheck e d x) s = .next (s.frameCheck e ((s.eng e).checkErrs d.decided) x d.phase) := by
  refine (?_ : execRxSyncCheck e d x s = _)
  rcases h with h | h <;> simp only [execRxSyncCheck, h]
theorem acqNoSync_notes (hstate : (s.eng e).acq.state = .search ∨ (s.eng e).acq.state = .confirm)
    (hraised : (s.eng e).acq.noSyncRaised = false) (hdue : (s.eng e).acq.searchStart + 625000 ≤ s.ticks) :
    Completes (exec (.acqNoSync e) s) (fun t => (t.eng e).acq.noSyncRaised = true) := by
  refine completes_of (exec_acqNoSync hstate hraised hdue) ?_
  rw [State.eng_raise]
  exact congrArg (·.acq.noSyncRaised) (State.eng_modEng_same _ _ _ e.isLt)
/-- A setting of the acquisition that leaves the waiting step. -/
theorem modAcq_recentre (f : Acquisition → Acquisition) (hf : ∀ a, (f a).recentre = a.recentre) (s : State) :
    ((s.modAcq e f).eng e).acq.recentre = (s.eng e).acq.recentre :=
  (congrArg (·.acq.recentre) (State.eng_modEng_same _ _ _ e.isLt)).trans (hf _)
/-- A step of the coarse offset that was waiting is gone, whether it is taken or stands at the limit. -/
theorem freqRecentre_takes {x : Int} (hx : (s.eng e).acq.recentre = some x) :
    Completes (exec (.freqRecentre e) s) (fun t => (t.eng e).acq.recentre = none) := by
  refine (?_ : Completes (execFreqRecentre e s) _)
  simp only [execFreqRecentre, hx]
  have htaken : ((s.modAcq e (fun a => { a with recentre := none })).eng e).acq.recentre = none :=
    congrArg (·.acq.recentre) (State.eng_modEng_same _ _ _ e.isLt)
  generalize s.modAcq e (fun a => { a with recentre := none }) = u at htaken
  refine completes_ite ⟨_, rfl, htaken⟩ (completes_ite (completes_ite ⟨_, rfl, htaken⟩ (completes_of rfl ?_)) (completes_of rfl ?_))
  · simp only [State.eng_raise, modAcq_recentre, implies_true, htaken]
  · simp only [State.eng_count, State.eng_raise, modAcq_recentre, implies_true, htaken]
theorem exec_leashWriteInstant {p : FeProfile} {ft : FineTune} (htn : s.tn % 64 = 0) (hon : (s.eng e).acq.leash.enable = true)
    (hframe : (s.eng e).inFrame = true) (hserved : s.fenced e = false) (hticks : (s.eng e).acq.offsetsBefore s.ticks ≠ [])
    (hfirst : (s.eng e).acq.lastWrite ≠ some s.ticks) (hp : (s.eng e).fe.profile = some p) (hft : p.fineTune = some ft) :
    exec (.leashWriteInstant e) s = .next ((s.modAcq e (fun a => { a with lastWrite := some s.ticks })).leashWrite e
      (roundDiv (((s.eng e).acq.offsetsBefore s.ticks).foldl (· + ·) 0) ((s.eng e).acq.offsetsBefore s.ticks).length) ft) := by
  refine (?_ : execLeashWriteInstant e s = _)
  rw [execLeashWriteInstant]
  dsimp only
  rw [if_pos ⟨htn, hon, hframe, by simp [hserved], hticks, hfirst⟩]
  simp only [hp, hft]
theorem rxThaw_ends {x : Nat} (hx : (s.eng e).eq.freezeStart = some x) (hany : (s.eng e).eq.freeze.any = false) :
    Completes (exec (.rxThaw e) s) (fun t => (t.eng e).eq.freezeStart = none) := by
  refine completes_of (exec_rxThaw hx hany) ?_
  rw [State.eng_raise, State.eng_modEq_same e.isLt]
theorem rxFeAutoUpdate_notes (m : FeEstimate) (hauto : (s.eng e).eq.rxFeAuto = true) (hbrace : (s.eng e).eq.freeze.brace = false)
    (hdue : ∀ x, (s.eng e).eq.lastFeUpdate = some x → x + 625 ≤ s.ticks) :
    Completes (exec (.rxFeAutoUpdate e m) s) (fun t => (t.eng e).eq.lastFeUpdate = some s.ticks) := by
  refine completes_of (exec_rxFeAutoUpdate hauto hbrace hdue) ?_
  rw [State.eng_modEq_same e.isLt]
theorem cdFilterReady_loads {b : CdBank} (hb : (s.eng e).eq.cdLoading = some b) :
    Completes (exec (.cdFilterReady e) s) (fun t => (t.eng e).eq.cdShadow = some b) := by
  refine (cdFilterReady_ends hb).completes (fun t ht => ?_)
  rw [ht.1]
theorem cdDelaySettled_ends (hslewing : (s.eng e).eq.slewing = true) (hfade : (s.eng e).eq.fade = none)
    (halign : (s.eng e).eq.align = 64 * alignSamples (s.eng e).eq.cdActive) :
    Completes (exec (.cdDelaySettled e) s) (fun t => (t.eng e).eq.slewing = false) := by
  refine completes_of (exec_cdDelaySettled hslewing hfade halign) ?_
  rw [State.eng_raise, State.eng_modEq_same e.isLt]
/-- A setting of the equaliser that leaves the tick of the latest estimate. -/
theorem modEq_estimatedAt (f : Equaliser → Equaliser) (hf : ∀ q, (f q).estimatedAt = q.estimatedAt) (s : State) :
    ((s.modEq e f).eng e).eq.estimatedAt = (s.eng e).eq.estimatedAt := by
  rw [State.eng_modEq_same e.isLt]
  exact hf _
/-- The tick of an estimate is noted first; nothing that the estimate leads to changes it. -/
theorem cdTrackEstimate_notes (x : Int) (htn : s.tn % 64 = 0) (hfirst : (s.eng e).eq.estimatedAt ≠ some s.ticks) :
    Completes (exec (.cdTrackEstimate e x) s) (fun t => (t.eng e).eq.estimatedAt = some s.ticks) := by
  refine (?_ : Completes (execCdTrackEstimate e x s) _)
  rw [execCdTrackEstimate]
  dsimp only
  rw [if_pos ⟨htn, hfirst⟩]
  have hnoted : ((s.modEq e (fun q => { q with estimatedAt := some s.ticks })).eng e).eq.estimatedAt = some s.ticks := by
    rw [State.eng_modEq_same e.isLt]
  generalize s.modEq e (fun q => { q with estimatedAt := some s.ticks }) = u at hnoted
  refine completes_ite (completes_of rfl ?_) (completes_of rfl ?_)
  · simp only [State.eng_count, State.eng_raise, State.eng_arm, State.eng_finishJobs, modEq_estimatedAt, implies_true]
    split
    · exact hnoted
    · simp only [modEq_estimatedAt, implies_true, hnoted]
  · simp only [modEq_estimatedAt, implies_true]
    split
    · exact hnoted
    · simp only [modEq_estimatedAt, implies_true, hnoted]
theorem estimatorUpdate_measures (m : QualityMeas) (htn : s.tn % 64 = 0) (hframe : (s.eng e).inFrame = true)
    (hfree : (s.eng e).eq.freeze.holdsSnr = false) :
    Completes (exec (.estimatorUpdate e m) s) (fun t => (t.eng e).eq.est.snr = (s.eng e).eq.snrNow) := by
  refine completes_of (exec_estimatorUpdate htn hframe) ?_
  rw [State.eng_modEq_same e.isLt]
  exact if_neg (by simp [hfree])
/-- The policy runs where it may; what it decides is a state in every case. -/
theorem loadPolicyRun_next : ∃ t, exec (.loadPolicyRun e) s = .next t := by
  refine (?_ : ∃ t, execLoadPolicyRun e s = .next t)
  refine next_ite ?_ ⟨_, rfl⟩
  cases (s.eng e).load.whole with
  | none => exact ⟨_, rfl⟩
  | some x => exact next_ite ⟨_, rfl⟩ (next_ite ⟨_, rfl⟩ ⟨_, rfl⟩)
theorem converterSensorRead_reads (x : Int) (htn : s.tn % 64 = 0) :
    Completes (exec (.converterSensorRead e x) s) (fun t => (t.eng e).conv.tempNext = some x) := by
  refine completes_of ((exec_converterSensorRead e x s).trans (if_pos htn)) ?_
  rw [State.eng_modConv_same e.isLt]
end
theorem lineRowsComplete (s : State) : LineRowsComplete s := by
  refine ⟨fun e hm ha => execMuzzleRampEnd_up hm ha, fun e hm ha => execMuzzleRampEnd_down hm ha,
    fun e f hk hstate => (if_pos ⟨hk, hstate⟩ : execRxFrameDecode e f s = _),
    fun e d x h => exec_rxSyncCheck_confirm (d := d.decided) (phase := d.phase) h, fun e d x h => exec_rxSyncCheck_tracking d x h,
    fun e l cd m h hm => exec_searchSyncFound h hm, fun e l hl hall h => ⟨_, exec_powerQualification_above hl hall h⟩,
    fun e l hl hall h => ⟨_, exec_powerQualification_below hl hall h⟩, fun e h hdue => exec_oofTimerExpiry h hdue,
    fun e h hraised hdue => acqNoSync_notes h hraised hdue, fun e x hx _ => freqRecentre_takes hx,
    fun e p ft htn hon hframe hserved hticks hfirst hp hft => exec_leashWriteInstant htn hon hframe hserved hticks hfirst hp hft,
    fun e x hx hany => rxThaw_ends hx hany, fun e m hauto hbrace hdue => rxFeAutoUpdate_notes m hauto hbrace hdue,
    fun e b hb => cdFilterReady_loads hb, fun e f hf hover => exec_cdSwapDone hf hover,
    fun e hslewing hfade halign => cdDelaySettled_ends hslewing hfade halign, fun e x htn hfirst => cdTrackEstimate_notes x htn hfirst,
    fun e m htn hframe hfree => estimatorUpdate_measures m htn hframe hfree, fun e _ _ _ _ _ _ _ => loadPolicyRun_next,
    fun e a ha hmade hwhy hnew hdue => exec_loadAckDeadline ha hmade hwhy hnew hdue,
    fun e a ha hacc hwhy hdue => exec_loadTxSwitch ha hwhy hacc hdue, fun e x htn => converterSensorRead_reads x htn,
    fun e x va vd z hz htn => (calWindowCheck_checks (z := { offset := z.1, gain := z.2.1, skew := z.2.2 }) hz htn).completes
      (fun t ht => ht.1),
    fun e x hx hdue hbrace => ⟨_, exec_calApply hx hdue hbrace⟩,
    fun x l hl => (retirementEntryWrite_moves hl).completes (fun t ht => ht.1), fun l => ⟨_, rfl⟩⟩

end Sys2Proof.Machine
end

section
/-! Where the rows of the client ports, the time core, and the transfer of time complete (O60). -/
namespace Sys2Proof.Machine

/-! ### Client ports -/

section
variable {s : State}
theorem hostRefclkOk_notes (i : Fin 4) : Completes (exec (.hostRefclkOk i) s) (fun t => (t.htile i).refclk = true) := by
  have hset : ((s.modHtile i (fun h => { h with refclk := true })).htile i).refclk = true := by
    rw [State.htile_modHtile_same _ _ _ i.isLt]
  refine (?_ : Completes (execHostRefclkOk i s) _)
  refine completes_ite ⟨_, rfl, hset⟩ (completes_of rfl ?_)
  exact (congrArg (fun v => (vget v i.val HostTile.reset).refclk) (moves_raise ..).htiles).trans hset
theorem hlAdaptWindowEnd_next (l : Fin 384) (x : Nat) (y : LaneWindow) : ∃ t, exec (.hlAdaptWindowEnd l x y) s = .next t := by
  refine (?_ : ∃ t, execHlAdaptWindowEnd l x y s = .next t)
  exact next_ite ⟨_, rfl⟩ (next_ite ⟨_, rfl⟩ (next_ite ⟨_, rfl⟩ ⟨_, rfl⟩))
theorem pcsAligned_up {n : Fin 384} {p : Port} (hp : s.port? n = some p) (hstate : p.state = .aligning)
    (hin : s.ticks ≤ p.round.alignStart + 62500) :
    Completes (exec (.pcsAligned n) s) (fun t => ∃ q, t.port? n = some q ∧ q.state = .up) := by
  obtain ⟨-, hresult, -⟩ := trainResult_tells (outcome := p.round.outcome) hp
  exact ⟨_, exec_pcsAligned_aligning hp hstate hin, _, (portIs_modPort ..).at (hresult.at hp), rfl⟩
theorem pcsAlignmentLoss_notes {n : Fin 384} {p : Port} (hp : s.port? n = some p) (hstate : p.state = .up) (b : Bool) :
    Completes (exec (.pcsAlignmentLoss n b) s) (fun t => ∃ q, t.port? n = some q ∧ q.lossAlign = true) :=
  ⟨_, exec_pcsAlignmentLoss hp hstate b, _, (portIs_modPort ..).at hp, rfl⟩
theorem linkTrainingComplete_aligns {x : Trained} {p : Port} (hp : s.port? x.port = some p) (hstate : p.state = .training)
    (hstarted : p.round.started ≤ s.ticks) (hin : s.ticks ≤ p.round.started + 625 * p.round.timeout) :
    Completes (exec (.linkTrainingComplete x) s) (fun t => ∃ q, t.port? x.port = some q ∧ q.state = .aligning) := by
  have hlanes : (s.trainLanes x p).port? x.port = some p := ((trainLanes_train x p s).1.portOpt _).trans hp
  exact ⟨_, exec_linkTrainingComplete hp hstate hstarted hin, _, (portIs_modPort ..).at hlanes, rfl⟩
/-- A window that began locked counts all its bits; the errors and the judgement of the lock come after. -/
theorem prbsCheckWindow_counts {l : Fin 384} (x y : Nat) (hchecker : (s.lane l).checker ≠ 0) (hlocked : (s.lane l).locked = true)
    (hwhole : (s.lane l).lockedInside = false) :
    Completes (exec (.prbsCheckWindow l x y) s) (fun t => Counted .prbsBits .hostLane l 131072 t) := by
  refine completes_of (exec_prbsCheckWindow hchecker hlocked x y) ((judgeWindow_judges l x y s).1.counted _ ?_)
  simp only [State.countWindow, hwhole, Bool.false_eq_true, if_false]
  exact (moves_count ..).counted _ (counted_count _ _ _ _ _ (by decide)).1
theorem tapFrameRx_waits {n : Fin 384} {p : Port} {l fcs : List Octet} {b : List Nat} {x : Nat} (hp : s.port? n = some p)
    (hstate : p.state = .up) (hon : p.tap.ptp = true) (hclass : p.tapClass l = some false) (hfcs : fcsOk l fcs = true)
    (hfew : ofClass false p.tap.accepted < 512) (hsecond : p.tap.second = s.taiSecond) (hroom : (s.htile (n / 96)).waiting.length < 1024) :
    Completes (exec (.tapFrameRx n l fcs b x) s) (fun t => (t.htile (n / 96)).waiting
      = (s.htile (n / 96)).waiting ++ [(n.val, false, l, s.taiAt s.tn + x - p.rxDelay)]) := by
  refine completes_of ((exec_tapFrameRx_ok hp hstate hclass hon b x hfcs hsecond).trans
    (congrArg Host.Outcome.next (if_neg (by omega)))) ?_
  rw [State.htile_modHtile_same _ _ _ (Nat.div_lt_of_lt_mul n.isLt)]
  rfl
theorem tapFrameInsert_next (n : Fin 384) (x : Nat) : ∃ t, exec (.tapFrameInsert n x) s = .next t := by
  refine (?_ : ∃ t, execTapFrameInsert n x s = .next t)
  unfold execTapFrameInsert
  cases s.port? n with
  | none => exact ⟨_, rfl⟩
  | some p =>
    dsimp only
    cases p.tap.queue with
    | nil => exact ⟨_, rfl⟩
    | cons f rest => exact next_ite ⟨_, rfl⟩ ⟨_, rfl⟩
theorem tapInsertTimeout_drops {n : Fin 384} {p : Port} {f : OutFrame} {l : List OutFrame} (hp : s.port? n = some p)
    (hqueue : p.tap.queue = f :: l) (hlong : p.tap.insertWait * 625 < (s.ticks - f.queuedAt) * 10) :
    Completes (exec (.tapInsertTimeout n) s) (fun t => ∃ q, t.port? n = some q ∧ q.tap.queue = l ∧ q.tap.lastDiscard = some s.ticks) :=
  (tapInsertTimeout_discards hp hqueue hlong).completes (fun _ ht => ⟨_, ht.1.at hp, rfl, rfl⟩)
end
theorem hostRowsComplete (s : State) : HostRowsComplete s :=
  ⟨fun _ hclk hmode => ⟨_, exec_hostRefclkLoss hclk hmode⟩, fun i => hostRefclkOk_notes i, fun l x y _ => hlAdaptWindowEnd_next l x y,
    fun _ _ l hp hstate hdue => exec_trainTimeoutExpiry hp hstate hdue (some l) 0,
    fun _ _ l hp hstate hdue => exec_trainTimeoutExpiry hp hstate hdue none l,
    fun _ _ l hp hstate hlost hin => exec_partnerLostTimer hp hstate hlost hin l, fun _ _ l hp hstate hdue => exec_alignTimeout hp hstate hdue l,
    fun _ _ hp hstate hin => pcsAligned_up hp hstate hin,
    fun _ _ hp hstate hfor hdue hclock => exec_trainHoldoffExpiry hp hstate hfor hdue hclock,
    fun _ _ b hp hstate => pcsAlignmentLoss_notes hp hstate b, fun _ _ _ hp hstate hloss hdue => exec_retrainHoldExpiry hp hstate hloss hdue,
    fun _ x y hchecker hlocked hwhole => prbsCheckWindow_counts x y hchecker hlocked hwhole,
    fun _ _ _ _ b x hp hstate hon hclass hfcs => (tapFrameRx_badFcs hp hstate hclass hon b x hfcs).completes (fun _ ht => ht.2),
    fun _ _ _ _ _ _ hp hstate hon hclass hfcs hfew hsecond hroom => tapFrameRx_waits hp hstate hon hclass hfcs hfew hsecond hroom,
    fun n _ _ _ x _ _ _ _ => tapFrameInsert_next n x, fun _ _ _ _ hp hqueue hlong => tapInsertTimeout_drops hp hqueue hlong⟩

/-! ### The time core -/

section
variable {s : State}
theorem ppsInPulse_next (n : Fin 2) (x : Nat) : ∃ t, exec (.ppsInPulse n x) s = .next t := by
  refine (?_ : ∃ t, execPpsInPulse n x s = .next t)
  refine next_ite ⟨_, rfl⟩ ?_
  split
  · exact ⟨_, rfl⟩
  · exact next_ite ⟨_, rfl⟩ ⟨_, rfl⟩
theorem ppsMissing_next (n : Fin 2) : ∃ t, exec (.ppsMissing n) s = .next t := by
  refine (?_ : ∃ t, execPpsMissing n s = .next t)
  unfold execPpsMissing
  dsimp only
  cases (s.ppsIn n).last with
  | none => exact ⟨_, rfl⟩
  | some last => exact next_ite ⟨_, rfl⟩ ⟨_, rfl⟩
theorem exec_todSentenceRx_long {n : Fin 2} {l : List Octet} (x : Nat) (hhead : l.take 6 = ctodHead) (hlong : 72 < l.length) :
    exec (.todSentenceRx n l x) s = .next (s.count .todInErr .device n 1) := by
  refine (?_ : execTodSentenceRx n l x s = _)
  unfold execTodSentenceRx
  dsimp only
  rw [if_neg (not_not.mpr hhead), if_pos hlong]
theorem todSentenceRx_next (n : Fin 2) (l : List Octet) (x : Nat) : ∃ t, exec (.todSentenceRx n l x) s = .next t := by
  refine (?_ : ∃ t, execTodSentenceRx n l x s = .next t)
  refine next_ite ⟨_, rfl⟩ (next_ite ⟨_, rfl⟩ ?_)
  cases sentenceOf l with
  | none => exact ⟨_, rfl⟩
  | some y => exact next_ite ⟨_, rfl⟩ ⟨_, rfl⟩
theorem timeMeasurement_next : ∃ t, exec .timeMeasurement s = .next t := by
  refine (?_ : ∃ t, execTimeMeasurement s = .next t)
  unfold execTimeMeasurement
  cases s.time.meas with
  | none => exact ⟨_, rfl⟩
  | some m => exact next_ite ⟨_, rfl⟩ (next_ite ⟨_, rfl⟩ ⟨_, rfl⟩)
theorem exec_sourceQualified {i : Fin 4} {c : Candidate} (hc : s.time.candidates[i.val]? = some c) (hstate : c.st = .qualifying)
    (hdue : c.since + c.qualTime * secTicks ≤ s.ticks) : exec (.sourceQualified i) s = .next (s.qualify c.src .qualified .timePassed) := by
  refine (?_ : execSourceQualified i s = _)
  simp only [execSourceQualified, hc, hstate, hdue, and_self, if_true]
theorem exec_holdoverTraceExpiry {x : Nat} (hx : s.time.traceUntil = some x) (hdue : x ≤ s.ticks) :
    exec .holdoverTraceExpiry s = .next (s.modTime (fun k => { k with traceUntil := none })).refreshTrace :=
  (if_pos (by simpa [hx] using hdue) : execHoldoverTraceExpiry s = _)
theorem exec_freqLoopUpdate (x : Int) {k : Nat} (hsteer : s.time.steering = .line k ∨ s.time.steering = .synce k)
    (hdue : s.time.freq.lastLoop + 64 ≤ s.ticks) : exec (.freqLoopUpdate x) s = .next ((s.modTime (fun k => { k with
      demand := Config.freqLoop k.freq.bw k.demand (k.freq.meanErr x)
      freq := { k.freq with lastLoop := s.ticks, errSum := 0, errTicks := 0 } })).freqJudge 64) := by
  refine (?_ : execFreqLoopUpdate x s = _)
  refine if_pos ⟨?_, hdue⟩
  rcases hsteer with h | h <;> rw [h]
theorem freqRefQualification_next (x : Int) : ∃ t, exec (.freqRefQualification x) s = .next t := by
  refine (?_ : ∃ t, execFreqRefQualification x s = .next t)
  unfold execFreqRefQualification
  dsimp only
  split
  · exact ⟨_, rfl⟩
  · exact ⟨_, rfl⟩
  · exact next_ite (next_ite ⟨_, rfl⟩ ⟨_, rfl⟩) (next_ite ⟨_, rfl⟩ ⟨_, rfl⟩)
theorem exec_delayCertFormation (hsecond : s.tn % 625000 = 0) (hticks : (s.ltt 0).sums.ticks ≠ 0) :
    exec .delayCertFormation s = .next ((List.range 48).foldl (fun s e => s.certify e) s) :=
  (if_pos ⟨hsecond, hticks⟩ : execDelayCertFormation s = _)
end
theorem timeRowsComplete (s : State) : TimeRowsComplete s :=
  ⟨fun n x => ppsInPulse_next n x, fun n _ _ => ppsMissing_next n, fun _ _ x hhead hlong => exec_todSentenceRx_long x hhead hlong,
    fun n l x _ _ _ _ => todSentenceRx_next n l x, fun _ _ _ => timeMeasurement_next, rfl,
    fun _ _ hc hstate hdue => exec_sourceQualified hc hstate hdue, rfl, fun _ hx hdue => exec_holdoverTraceExpiry hx hdue, rfl,
    fun _ _ hw hnew hfrom hto => (ppsOutPulse_reaches rfl hw hnew hfrom hto).completes (fun _ ht => ht.1),
    fun hdue hnew => (todOutSentence_sends rfl hdue hnew).completes (fun _ ht => by rw [ht]),
    fun x hstate hsecond => (kennelRtcUpdate_writes x hstate hsecond).completes (fun _ ht => ht.1),
    fun hosc => (oscLoss_loses hosc).next, fun hosc => (oscOk_returns hosc).next,
    fun _ hx hdue => (oscRelockDone_ends hx hdue).completes (fun _ ht => by rw [ht.1]),
    fun x _ hsteer hdue => exec_freqLoopUpdate x hsteer hdue, fun x _ _ _ => freqRefQualification_next x,
    fun _ hdue => ⟨_, exec_lttIntervalEnd (.inr hdue)⟩, fun hsecond hticks => exec_delayCertFormation hsecond hticks⟩

/-! ### PTP and synchronisation messages -/

section
variable {s : State} (n : Fin 384)
theorem ptpMessageRx_next : ∃ t, exec (.ptpMessageRx n) s = .next t := by
  refine (?_ : ∃ t, execPtpMessageRx n s = .next t)
  refine next_ite ⟨_, rfl⟩ ?_
  dsimp only
  cases (takeWaiting n false (s.htile (n / 96)).waiting).1 with
  | none => exact ⟨_, rfl⟩
  | some m => exact next_ite ⟨_, rfl⟩ (next_ite ⟨_, rfl⟩ ⟨_, rfl⟩)
theorem ptpSyncTx_next : ∃ t, exec (.ptpSyncTx n) s = .next t := (next_ite ⟨_, rfl⟩ ⟨_, rfl⟩ : ∃ t, execPtpSyncTx n s = .next t)
theorem ptpAnnounceTx_next : ∃ t, exec (.ptpAnnounceTx n) s = .next t :=
  (next_ite ⟨_, rfl⟩ ⟨_, rfl⟩ : ∃ t, execPtpAnnounceTx n s = .next t)
theorem ptpDelayReqTx_next : ∃ t, exec (.ptpDelayReqTx n) s = .next t :=
  (next_ite ⟨_, rfl⟩ ⟨_, rfl⟩ : ∃ t, execPtpDelayReqTx n s = .next t)
theorem announceReceiptTimeout_next : ∃ t, exec (.announceReceiptTimeout n) s = .next t :=
  (next_ite ⟨_, rfl⟩ ⟨_, rfl⟩ : ∃ t, execAnnounceReceiptTimeout n s = .next t)
theorem ptpMeasPeriodEnd_next : ∃ t, exec (.ptpMeasPeriodEnd n) s = .next t :=
  (next_ite (next_ite ⟨_, rfl⟩ (next_ite ⟨_, rfl⟩ ⟨_, rfl⟩)) ⟨_, rfl⟩ : ∃ t, execPtpMeasPeriodEnd n s = .next t)
/-- The message leaves the waiting ones first; noting its QL, or counting that it has none, takes no other. -/
theorem esmcPduRx_takes {f : List Octet} {x : Int} (hup : s.fwUp = true)
    (htake : (takeWaiting n true (s.htile (n / 96)).waiting).1 = some (f, x)) : Completes (exec (.esmcPduRx n) s) (fun t =>
      (t.htile (n / 96)).waiting = (takeWaiting n true (s.htile (n / 96)).waiting).2) := by
  refine (?_ : Completes (execEsmcPduRx n s) _)
  unfold execEsmcPduRx
  rw [if_neg (by simp [hup])]
  have htaken := waiting_modHtile n s (takeWaiting n true (s.htile (n / 96)).waiting).2
  dsimp only
  simp only [htake]
  generalize s.modHtile (n / 96) (fun h => { h with waiting := (takeWaiting n true (s.htile (n / 96)).waiting).2 }) = u at htaken
  have hkeeps : ∀ {l : List Part} {t : State}, Moves l u t → Part.htiles ∉ l →
      (t.htile (n / 96)).waiting = (takeWaiting n true (s.htile (n / 96)).waiting).2 := fun h hl =>
    (congrArg (fun v => (vget v (n / 96) HostTile.reset).waiting) (h.htiles hl)).trans htaken
  cases hql : esmcQl f with
  | none => exact completes_of rfl (hkeeps (moves_count ..) (by decide))
  | some q =>
    have hnoted := ((moves_modPtp n (.qlHeard q u.ticks) u).mono (by decide : ∀ p ∈ [Part.ports], p ∈ [Part.ports, .time])).trans
      ((moves_refreshTrace _).mono (by decide))
    have htold := fun ws => (hnoted.mono (by decide : ∀ p ∈ [Part.ports, .time], p ∈ Part.ports :: .time :: eventParts)).trans
      ((moves_raise .esmcQlChange .port n ws _).mono (by decide))
    dsimp only
    cases (u.ptp n).rxQl with
    | none => exact completes_of rfl (hkeeps (htold _) (by decide))
    | some old => exact completes_ite (completes_of rfl (hkeeps hnoted (by decide))) (completes_of rfl (hkeeps (htold _) (by decide)))
theorem exec_esmcInfoTx (hon : s.esmcOn n = true) (hdue : (s.ptp n).esmcAt + secTicks ≤ s.ticks) :
    exec (.esmcInfoTx n) s = .next (s.esmcSend n false) := (if_pos ⟨hon, hdue⟩ : execEsmcInfoTx n s = _)
theorem exec_esmcEventTx (hon : s.esmcOn n = true) (hnew : s.txQl n ≠ (s.ptp n).eventQl) :
    exec (.esmcEventTx n) s = .next (s.esmcSend n true) := (if_pos ⟨hon, hnew⟩ : execEsmcEventTx n s = _)
end
theorem ptpRowsComplete (s : State) : PtpRowsComplete s :=
  ⟨fun n _ _ _ _ => ptpMessageRx_next n, fun n _ _ => ptpSyncTx_next n, fun n _ _ => ptpAnnounceTx_next n,
    fun n _ _ => ptpDelayReqTx_next n, fun n _ _ _ _ => announceReceiptTimeout_next n, fun n _ _ _ => ptpMeasPeriodEnd_next n,
    fun n hon hdue => exec_esmcInfoTx n hon hdue, fun n hon hnew => exec_esmcEventTx n hon hnew,
    fun n _ _ hup htake => esmcPduRx_takes n hup htake⟩

end Sys2Proof.Machine
end

section
/-! Where the rows of the units, of capture and DMA, of resets and power, and of recovery complete (O60). -/
namespace Sys2Proof.Machine
section
variable {s : State}

/-! ### Keys, the test port, the monitor, the front end, and telemetry -/

theorem keyExpiry_empties {e : Fin 48} {i : Fin 4} {k : KeySlot} (hk : (s.keys e).slot i = some k) (h0 : k.expiry ≠ 0) (hdue : k.expiry ≤ s.tn) :
    Completes (exec (.keyExpiry e i) s) (fun t => (t.keys e).slot i = none) :=
  (execKeyExpiry_expires hk h0 hdue).completes (fun t ht => by
    rw [State.keys, ht.1]
    exact vget_vmod_same _ _ _ _ i.isLt)
theorem exec_testportInstruction {i : TestIr} (h : i = .idcode ∨ i = .bypass ∨ s.sec.testOpen = false) :
    exec (.testportInstruction i) s = .next s := by
  cases i with
  | idcode => rfl
  | bypass => rfl
  | other =>
    have hlocked : s.sec.testOpen = false := h.elim (fun h => nomatch h) (fun h => h.elim (fun h => nomatch h) id)
    exact (if_neg (by rw [hlocked]; exact Bool.false_ne_true) : execTestportInstruction .other s = _)
theorem monConversionDone_next (k : Fin 4) (x : Fin 4096) : ∃ t, exec (.monConversionDone k x) s = .next t := by
  refine (?_ : ∃ t, execMonConversionDone k x s = .next t)
  unfold execMonConversionDone
  dsimp only
  cases (s.mc k).current with
  | none => exact ⟨_, rfl⟩
  | some c => exact ⟨_, rfl⟩
theorem monCalComplete_next (k : Fin 4) (o : Int) (g l : Nat) : ∃ t, exec (.monCalComplete k o g l) s = .next t := by
  refine (?_ : ∃ t, execMonCalComplete k o g l s = .next t)
  unfold execMonCalComplete
  dsimp only
  cases (s.mc k).cal with
  | running since => exact next_ite ⟨_, rfl⟩ ⟨_, rfl⟩
  | _ => exact ⟨_, rfl⟩
theorem biasLoopRun_next (e : Fin 48) (i : Fin 8) : ∃ t, exec (.biasLoopRun e i) s = .next t := by
  refine (?_ : ∃ t, execBiasLoopRun e i s = .next t)
  unfold execBiasLoopRun
  dsimp only
  split
  · exact next_ite (next_ite ⟨_, rfl⟩ ⟨_, rfl⟩) ⟨_, rfl⟩
  · exact ⟨_, rfl⟩
theorem feFaultPoll_next (e : Fin 48) (v : Nat) : ∃ t, exec (.feFaultPoll e v) s = .next t := by
  refine (?_ : ∃ t, execFeFaultPoll e v s = .next t)
  unfold execFeFaultPoll
  dsimp only
  cases (s.eng e).fe.profile.bind (·.fault) with
  | none => exact ⟨_, rfl⟩
  | some f => exact next_ite (next_ite ⟨_, rfl⟩ ⟨_, rfl⟩) ⟨_, rfl⟩
theorem feBusTransaction_next (e : Fin 48) (v : Nat) : ∃ t, exec (.feBusTransaction e v) s = .next t := by
  refine (?_ : ∃ t, execFeBusTransaction e v s = .next t)
  unfold execFeBusTransaction
  dsimp only
  cases (s.eng e).fe.queue with
  | nil => exact ⟨_, rfl⟩
  | cons x rest =>
    refine next_ite ⟨_, rfl⟩ ?_
    cases x.origin with
    | poll =>
      dsimp only
      cases (s.eng e).fe.profile.bind (·.fault) <;> exact ⟨_, rfl⟩
    | access seq => exact next_ite ⟨_, rfl⟩ ⟨_, rfl⟩
    | _ => exact ⟨_, rfl⟩
theorem exec_tlmSample_monitor {n : Fin 64} {m : Nat} (hfirst : (s.chain n).sampledAt ≠ some s.ticks) (hsource : (s.chain n).cfg.source = .monitor m) :
    exec (.tlmSample n) s = .next (s.tlmInput n (vget (s.mc (m / 64)).latest (m % 64) Latest.reset).v false) := by
  refine (?_ : execTlmSample n s = _)
  unfold execTlmSample
  dsimp only
  rw [if_neg hfirst]
  simp only [hsource]
theorem exec_bandwidthWindowEnd {n : Fin 384} {p : Port} (hp : s.port? n = some p) : exec (.bandwidthWindowEnd n) s = .next (s.bwBoundary n) :=
  (if_pos (by rw [hp]; rfl) : execBandwidthWindowEnd n s = _)
end
theorem unitRowsComplete (s : State) : UnitRowsComplete s :=
  ⟨fun _ _ _ hk h0 hdue => keyExpiry_empties hk h0 hdue, fun _ h => exec_testportInstruction h,
    fun _ _ _ hs => (tagSignatureDone_ends hs).completes (fun _ ht => by rw [ht.1]), fun k x _ _ => monConversionDone_next k x,
    fun k o g l _ _ _ => monCalComplete_next k o g l,
    fun k _ _ h hdue => (monTestdacSettle_sets k h hdue).completes (fun _ ht => by rw [ht.1]),
    fun e i _ _ _ _ _ _ _ _ => biasLoopRun_next e i, fun e _ _ _ _ _ v _ _ _ _ => feFaultPoll_next e v,
    fun e _ _ v _ _ _ => feBusTransaction_next e v, fun _ _ hfirst hsource => exec_tlmSample_monitor hfirst hsource,
    fun _ _ hp => exec_bandwidthWindowEnd hp⟩

/-! ### Capture and DMA -/

theorem captureTrigger_starts {s : State} {k : Fin 12} {x : Nat} (harmed : (s.tile k).capture.state = .armed)
    (hstart : (s.tile k).capture.start = some x) (hdue : x ≤ s.tn) (hframed : s.captureUnframed k = false) :
    Completes (exec (.captureTrigger k) s) (fun t => (t.tile k).capture.state = .filling) := by
  have hframe : (s.tile k).capture.needsFrame = false ∨ (s.eng ((s.tile k).capture.engine k)).inFrame = true := by
    rw [captureUnframed_eq, Bool.and_eq_false_iff, Bool.not_eq_false'] at hframed
    exact hframed
  exact (captureTrigger_fills harmed hstart hdue hframe).completes (fun _ ht => by rw [ht.1.1]; rfl)
theorem dmaRowsComplete (s : State) : DmaRowsComplete s :=
  ⟨fun _ _ harmed hstart hdue hframed => captureTrigger_starts harmed hstart hdue hframed,
    fun _ l hfills hframed hlong => (captureFillDone_ends l hfills hframed hlong).completes (fun _ ht => by rw [ht.1.1]; rfl),
    fun n hopen => (if_pos hopen : execDmaGo n s = _), fun n hopen => (if_pos hopen : execDmaAbort n s = _),
    fun _ b l hrun hsel => (dmaReadCompletion_stages b l hrun hsel).completes (fun _ ht => by rw [ht.1]),
    fun _ _ x _ hrun hload hend => exec_loadEnd x hrun hload hend⟩

/-! ### Resets and power -/

section
variable {s : State}
theorem exec_sysRstRelease {x : Nat} (hlow : s.power.sysRstLow = true)
    (hfree : (s.modPower (fun p => { p with sysRstLow := false })).sysHeld = false) :
    exec (.sysRstRelease x) s = .next ((s.modPower (fun p => { p with sysRstLow := false })).sysStart x) := by
  refine (?_ : execSysRstRelease x s = _)
  unfold execSysRstRelease
  rw [if_pos hlow]
  exact if_neg (by rw [hfree]; exact Bool.false_ne_true)
theorem exec_mgmtRstRelease (hlow : s.power.mgmtRstLow = true)
    (hfree : (s.modPower (fun p => { p with mgmtRstLow := false })).sysHeld = false) :
    exec .mgmtRstRelease s = .next ((s.modPower (fun p => { p with mgmtRstLow := false })).mgmtRelease) := by
  refine (?_ : execMgmtRstRelease s = _)
  unfold execMgmtRstRelease
  rw [if_pos hlow]
  exact if_neg (by rw [hfree]; exact Bool.false_ne_true)
theorem mgmtRstAssert_next : ∃ t, exec .mgmtRstAssert s = .next t :=
  (next_ite ⟨_, rfl⟩ (next_ite ⟨_, rfl⟩ ⟨_, rfl⟩) : ∃ t, execMgmtRstAssert s = .next t)
theorem perst_next : ∃ t, exec .perst s = .next t :=
  (next_ite ⟨_, rfl⟩ (next_ite ⟨_, rfl⟩ ⟨_, rfl⟩) : ∃ t, execPerst s = .next t)
theorem railWarning_braces {d : Domain} {x : Rail} {v : Nat} (hwatch : s.watching d x = true) (hlow : 50 ≤ v) (hhigh : v ≤ 100) :
    Completes (exec (.railWarning d x v) s) (fun t => t.power.braceOn.isSome = true) :=
  (railWarning_warns hwatch hlow hhigh).completes (fun t ht => by
    obtain ⟨-, hnew, hold, -⟩ := ht
    cases hb : s.power.braceOn with
    | none => rw [(hnew hb).1]; rfl
    | some b => rw [hold b hb]; rfl)
theorem exec_domainResetRelease {d : Domain} {x : Nat} (h : s.holdServed d x = true) : exec (.domainResetRelease d x) s
    = .next ((s.modPower (fun p => { p with inReset := p.inReset.filter (fun x => decide (x.1 ≠ d)) })).domainRelease d x) :=
  (if_pos h : execDomainResetRelease d x s = _)
end
theorem resetRowsComplete (s : State) : ResetRowsComplete s :=
  ⟨fun hhigh => (execSysRstAssert_resets s hhigh).imp (fun _ ht => ht.1), fun _ hlow hfree => exec_sysRstRelease hlow hfree,
    fun _ => mgmtRstAssert_next, fun hlow hfree => exec_mgmtRstRelease hlow hfree, fun _ => perst_next,
    fun hup => (if_pos hup : execHotReset s = _), fun hup => (if_pos hup : execFunctionLevelReset s = _),
    fun hup hawake => ⟨_, (if_pos ⟨hup, hawake⟩ : execD3hotEntry s = _)⟩, ⟨_, rfl, rfl⟩, rfl,
    fun _ _ _ hwatch hlow hhigh => railWarning_braces hwatch hlow hhigh,
    fun _ hb hdue => (braceExit_ends hb hdue).completes (fun _ ht => by rw [ht.1]),
    fun _ _ _ hwatch hlevel => (railResetLevel_resets hwatch hlevel).imp (fun _ ht => ht.1), fun _ _ h => exec_domainResetRelease h,
    fun _ hsys hbrace hdue => (avsLoopStep_steps hsys hbrace hdue).completes (fun _ ht => ht.2.2.1 rfl),
    fun _ haux => (vbatMeasurement_measures _ haux).completes (fun _ ht => by rw [ht.1]), ⟨_, rfl⟩⟩

/-! ### Recovery and boot -/

theorem recoveryRowsComplete (s : State) : RecoveryRowsComplete s :=
  ⟨fun h => (if_pos (by rw [h]; rfl) : execFwHeartbeat s = _), fun h => (if_pos h : execShepherdHeartbeat s = _),
    fun hfw hw hlate => (if_pos (by rw [hfw, hw, decide_eq_true hlate]; rfl) : execHeartbeatTimeout s = _),
    fun hfw hw => (if_pos (by rw [hfw, hw]; rfl) : execFwFatalTrap s = _),
    fun hfw hstage hw hlate => ⟨_, (if_pos (by rw [hfw, hstage, hw, decide_eq_true hlate]; rfl) : execFwBootTimeout s = _)⟩,
    fun hfw hstage hexp hmgmt hsys => (execFwRunningReport_runs hfw hstage hexp hmgmt hsys).next,
    fun hfw hw hlate => (shepherdHeartbeatTimeout_restarts hfw hw hlate).next,
    fun hfw hexp => (if_pos (by rw [hfw, hexp]; rfl) : execLastResortKick s = _),
    fun hexp hsys hmgmt hlate => (lastResortExpiry_expires hexp hsys hmgmt hlate).next,
    fun hfw hsys hstage hsrc => by rw [exec_firmwareBoot hfw hsys, hstage]; exact if_pos hsrc,
    fun l hsys haux => ⟨_, (if_neg (by rw [hsys, haux]; exact Bool.false_ne_true) : execLifeRecordSecond l s = _)⟩,
    fun hup => (if_pos hup : execLifeMirrorWrite s = _), fun hopen => (if_pos hopen : execBootGo s = _)⟩

end Sys2Proof.Machine
end

section
/-! Where the rows of queues, windows and registers, and the rest complete (O60). -/
namespace Sys2Proof.Machine

/-! ### Queues, windows and registers -/

section
variable {s : State}
theorem exec_ringCiWrite {q : Fin 9} {x : Nat} (hopen : s.mapOpen = true) (hq : 4 ≤ q.val) :
    exec (.ringCiWrite q x) s = .next (s.writeCi q x) :=
  (if_pos (by rw [hopen, decide_eq_true hq]; rfl) : execRingCiWrite q x s = _)
theorem exec_queueFlush_set {q : Fin 17} (hopen : s.mapOpen = true) (hq : q.val < 12) : exec (.queueFlush q) s = .next (s.flushSet q) := by
  refine (?_ : execQueueFlush q s = _)
  unfold execQueueFlush
  rw [hopen]
  exact if_pos hq
theorem exec_heldResponseCommit {n : Fin 5} {x : Resp} {l : List Resp} (hheld : vget s.proto.heldResp n [] = x :: l)
    (hfits : s.respFits n x.size = true) : exec (.heldResponseCommit n) s
      = .next ((s.modProto (fun p => { p with heldResp := vmod p.heldResp n (fun _ => l) })).commitResp n x) := by
  refine (?_ : execHeldResponseCommit n s = _)
  simp only [execHeldResponseCommit, hheld, hfits, if_true]
theorem exec_heldEventEntry {x : EventItem} {l : List EventItem} (hheld : s.proto.heldEvents = x :: l)
    (hroom : s.proto.eventQueue.length < 4096) :
    exec .heldEventEntry s = .next ((s.modProto (fun p => { p with heldEvents := l })).postEvent x) := by
  refine (?_ : execHeldEventEntry s = _)
  simp only [execHeldEventEntry, hheld, hroom, if_true]
theorem exec_intHoldoffExpiry {q : Fin 9} (hdeferred : (s.qreg q).deferred = true) (hover : holdoffOver (s.qreg q) s.ticks = true) :
    exec (.intHoldoffExpiry q) s = .next (s.signalRing q) :=
  (if_pos (by rw [hdeferred, hover]; rfl) : execIntHoldoffExpiry q s = _)
theorem spiEventWindowRead_disabled (n : Nat) (b : Bool) (hio : s.ioHeld = false) (hdead : s.proto.spiDead = false)
    (hoff : (s.qreg 8).enable = false) : Completes (exec (.spiEventWindowRead n b) s) (fun t =>
      t.spiReply = (clockOut EventItem.octets (s.proto.eventQueue.length + 1) n s.proto.eventQueue s.proto.spiEventRead).1) := by
  obtain ⟨t, ht, -, hreply, -⟩ := spiEventWindowRead_clocks n b hio hdead
  refine ⟨t, ht, hreply.trans ?_⟩
  simp only [State.eventClocked, hoff, Bool.false_eq_true, if_false]
theorem spiResponseWindowRead_replies (n : Nat) (b : Bool) (hio : s.ioHeld = false) (hdead : s.proto.spiDead = false) :
    Completes (exec (.spiResponseWindowRead n b) s) (fun t => t.spiReply
      = (clockOut Resp.octets ((vget s.proto.resp 4 []).length + 1) n (vget s.proto.resp 4 []) s.proto.spiRespRead).1) := by
  obtain ⟨t, ht, -, hreply, -⟩ := spiResponseWindowRead_clocks n b hio hdead
  exact ⟨t, ht, hreply⟩
theorem spiStatus_replies (hio : s.ioHeld = false) :
    Completes (exec .spiStatus s) (fun t => t.spiReply = [BitVec.ofNat 8 s.spiStatus]) :=
  completes_of (if_neg (by rw [hio]; exact Bool.false_ne_true) : execSpiStatus s = _) rfl
theorem counterV0Read_reads {p : Path} (n : Fin 49152) (hopen : s.pathOpen p = true) :
    Completes (exec (.counterV0Read p n) s) (fun t => t.readWord = some (BitVec.ofNat 32 (s.ctr.wordNow n 0))) :=
  completes_of (if_pos hopen : execCounterV0Read p n s = _) rfl
theorem monResultRead_takes {q : Fin 5} {x : Nat} {l : List Nat} (hopen : s.mapOpen = true) (hq : q.val ≠ 4) (hqueue : (s.mc q).queue = x :: l) :
    Completes (exec (.monResultRead q) s) (fun t => t.readWord = some (BitVec.ofNat 32 x)) := by
  have hlt : q.val < 4 := by omega
  exact (monResultRead_item ⟨q.val, hlt⟩ hopen hqueue).completes (fun _ ht => ht.2.2.1)
theorem timeSnapshotCapture_answers (hreq : s.time.snap.req = true) (hat : s.time.snap.reqAt < s.ticks) :
    Completes (exec .timeSnapshotCapture s) (fun t => t.time.snap.req = false ∧ t.time.snap.tn = s.tn) :=
  (timeSnapshotCapture_steps hreq hat).completes (fun _ ht => by
    rw [ht.2]
    exact ⟨rfl, rfl⟩)
theorem exec_registerWrite_map {p : Path} {o : Nat} (w : Word) (hopen : s.pathOpen p = true) (ho : o % 4 = 0) :
    exec (.registerWrite p false o w) s = .next (s.writeMap o w.toNat) := by
  refine (?_ : execRegisterWrite p false o w s = _)
  unfold execRegisterWrite
  rw [hopen, ho]
  rfl
theorem exec_registerWrite_msix {o : Nat} (w : Word) (hopen : s.pathOpen .pcie = true) (ho : o % 4 = 0) :
    exec (.registerWrite .pcie true o w) s = .next (s.writeMsix o w.toNat) := by
  refine (?_ : execRegisterWrite .pcie true o w s = _)
  unfold execRegisterWrite
  rw [hopen, ho]
  rfl
end
theorem queueRowsComplete (s : State) : QueueRowsComplete s :=
  ⟨fun q x _ hj => (progress_tells q x hj).next, fun _ _ b l hopen hon hlt => exec_commandRingDoorbell b l hopen hon hlt,
    fun q w hopen => (if_pos hopen : execRingEnableWrite q w s = _), fun _ _ hopen hq => exec_ringCiWrite hopen hq,
    fun _ hopen hq => exec_queueFlush_set hopen hq, fun q hopen => (if_pos hopen : execWmLatchedClear q s = _),
    fun _ _ _ hheld hfits => exec_heldResponseCommit hheld hfits,
    fun _ _ hqueue hon hup hawake hfits => (eventRingDrain_moves hqueue hon hup hawake hfits).next,
    fun _ _ hheld hroom => exec_heldEventEntry hheld hroom, fun _ hdeferred hover => exec_intHoldoffExpiry hdeferred hover,
    fun v hopen => (if_pos hopen : execMsixUnmask v s = _),
    fun a b l hopen hio hboot hdead => ⟨_, exec_spiCommandWindowWrite a b l hopen hio hboot (.inl hdead)⟩,
    fun n b hio hdead => spiResponseWindowRead_replies n b hio hdead, fun n b hio hdead hoff => spiEventWindowRead_disabled n b hio hdead hoff,
    spiStatus_replies, fun _ n hopen => counterV0Read_reads n hopen,
    fun _ _ hopen hqueue => (tlmResultRead_item hopen hqueue).completes (fun _ ht => ht.2),
    fun _ _ _ hopen hq hqueue => monResultRead_takes hopen hq hqueue, fun hopen => (timeSnapReq_asks hopen).completes (fun _ ht => ht.1),
    timeSnapshotCapture_answers, fun _ _ w hopen ho => exec_registerWrite_map w hopen ho, fun _ w hopen ho => exec_registerWrite_msix w hopen ho⟩

/-! ### Tiles, training, and the lines of the host -/

theorem prbsCheckerLock_locks {s : State} {l : Fin 384} (hchecker : (s.lane l).checker ≠ 0) (hlocked : (s.lane l).locked = false)
    (hheard : s.patternHeard l = true) : Completes (exec (.prbsCheckerLock l) s) (fun t => (t.lane l).locked = true) :=
  completes_of (exec_prbsCheckerLock hchecker hlocked hheard) (by rw [State.lane_modLane_same _ _ _ l.isLt])
theorem restRowsComplete (s : State) : RestRowsComplete s :=
  ⟨fun k hdown => (if_pos (by rw [hdown]; rfl) : execTilePowerDownDone k s = _), fun _ hup => (tilePowerUpDone_ends hup).next,
    fun _ _ hp hstate hstarted hin => linkTrainingComplete_aligns hp hstate hstarted hin, fun _ _ hstate => exec_searchPassEnd hstate,
    fun _ hchecker hlocked hheard => prbsCheckerLock_locks hchecker hlocked hheard, rfl, rfl, ⟨_, rfl⟩⟩

/-- Settles O60: commands by `carryOut_settles`, the happenings row by row. -/
theorem everyRowCompletes : Obligations.EveryRowCompletes := by
  unfold Obligations.EveryRowCompletes
  exact ⟨commandsComplete, fun s => ⟨fun _ c h => exec_unknownOpcode c s h, fun _ c _ _ hsp hrb => exec_readCounterpart c s hsp hrb,
    boundaryRowsComplete s, lineRowsComplete s, hostRowsComplete s, timeRowsComplete s, ptpRowsComplete s, unitRowsComplete s,
    dmaRowsComplete s, resetRowsComplete s, recoveryRowsComplete s, queueRowsComplete s, restRowsComplete s⟩⟩

end Sys2Proof.Machine
end

section
/-! The tick of the latest fault poll is not read at a boundary (O22). -/
namespace Sys2Proof.Machine

/-! ### A state whose engine is said to have been polled -/

/-- The engine with `k` as the tick of its latest fault poll, where `b` says so. -/
def Engine.polledAt (b : Bool) (k : Nat) (g : Engine) : Engine := { g with fe := { g.fe with lastPoll := cond b k g.fe.lastPoll } }
/-- The state in which `k` is the tick of engine `e`'s latest fault poll. -/
def State.polled (e : Fin 48) (k : Nat) (s : State) : State := s.modEng e (Engine.polledAt true k)

section
variable (b : Bool) (k : Nat) (g : Engine)
@[simp] theorem Engine.polledAt_kTx : (g.polledAt b k).kTx = g.kTx := rfl
@[simp] theorem Engine.polledAt_kRx : (g.polledAt b k).kRx = g.kRx := rfl
@[simp] theorem Engine.polledAt_cap : (g.polledAt b k).cap = g.cap := rfl
@[simp] theorem Engine.polledAt_zr : (g.polledAt b k).zr = g.zr := rfl
@[simp] theorem Engine.polledAt_txLayout : (g.polledAt b k).txLayout = g.txLayout := rfl
@[simp] theorem Engine.polledAt_rxLayout : (g.polledAt b k).rxLayout = g.rxLayout := rfl
@[simp] theorem Engine.polledAt_iterCap : (g.polledAt b k).iterCap = g.iterCap := rfl
@[simp] theorem Engine.polledAt_effCap : (g.polledAt b k).effCap = g.effCap := rfl
@[simp] theorem Engine.polledAt_thermalCap : (g.polledAt b k).thermalCap = g.thermalCap := rfl
@[simp] theorem Engine.polledAt_lastBrace : (g.polledAt b k).lastBrace = g.lastBrace := rfl
@[simp] theorem Engine.polledAt_load : (g.polledAt b k).load = g.load := rfl
@[simp] theorem Engine.polledAt_tx : (g.polledAt b k).tx = g.tx := rfl
@[simp] theorem Engine.polledAt_rx : (g.polledAt b k).rx = g.rx := rfl
@[simp] theorem Engine.polledAt_acq : (g.polledAt b k).acq = g.acq := rfl
@[simp] theorem Engine.polledAt_eq : (g.polledAt b k).eq = g.eq := rfl
@[simp] theorem Engine.polledAt_conv : (g.polledAt b k).conv = g.conv := rfl
@[simp] theorem Engine.polledAt_key : (g.polledAt b k).key = g.key := rfl
@[simp] theorem Engine.polledAt_iso : (g.polledAt b k).iso = g.iso := rfl
@[simp] theorem Engine.polledAt_losIn : (g.polledAt b k).losIn = g.losIn := rfl
@[simp] theorem Engine.polledAt_hubSlots : (g.polledAt b k).hubSlots = g.hubSlots := rfl
@[simp] theorem Engine.polledAt_frameSlots : (g.polledAt b k).frameSlots = g.frameSlots := rfl
@[simp] theorem Engine.polledAt_store : (g.polledAt b k).store = g.store := rfl
@[simp] theorem Engine.polledAt_defect : (g.polledAt b k).defect = g.defect := rfl
@[simp] theorem Engine.polledAt_ltt : (g.polledAt b k).ltt = g.ltt := rfl
@[simp] theorem Engine.polledAt_profile : (g.polledAt b k).fe.profile = g.fe.profile := rfl
end

/-! ### What the state reads -/

theorem vec_ext {α : Type} {n : Nat} {v w : Vector α n} (d : α) (h : ∀ i, vget v i d = vget w i d) : v = w := by
  refine Vector.ext (fun i hi => ?_)
  have hi' := h i
  simp only [vget, hi, dite_true] at hi'
  exact hi'
section
variable (e : Fin 48) (k : Nat)
@[simp] theorem State.polled_eng (j : Nat) (s : State) : (s.polled e k).eng j = (s.eng j).polledAt (j == e.val) k := by
  by_cases hj : j = e.val
  · rw [hj, beq_self_eq_true]
    exact State.eng_modEng_same _ _ _ e.isLt
  · rw [beq_eq_false_iff_ne.mpr hj]
    exact State.eng_modEng_ne _ _ _ _ hj
theorem State.polled_modEng (j : Nat) (f : Engine → Engine) (s : State)
    (h : ∀ b g, f (g.polledAt b k) = (f g).polledAt b k) : (s.polled e k).modEng j f = (s.modEng j f).polled e k := by
  have hengines : ((s.polled e k).modEng j f).engines = ((s.modEng j f).polled e k).engines := vec_ext .reset (fun i => by
    refine (?_ : ((s.polled e k).modEng j f).eng i = ((s.modEng j f).polled e k).eng i)
    rw [State.polled_eng]
    by_cases hj : j < 48
    · by_cases hi : i = j
      · rw [hi, State.eng_modEng_same _ _ _ hj, State.eng_modEng_same _ _ _ hj, State.polled_eng, h]
      · rw [State.eng_modEng_ne _ _ _ _ hi, State.eng_modEng_ne _ _ _ _ hi, State.polled_eng]
    · simp only [State.modEng, vmod_out _ _ _ hj]
      exact State.polled_eng e k i s)
  exact congrArg (fun v => { s with engines := v }) hengines
@[simp] theorem State.polled_tn (s : State) : (s.polled e k).tn = s.tn := rfl
@[simp] theorem State.polled_tickOffset (s : State) : (s.polled e k).tickOffset = s.tickOffset := rfl
@[simp] theorem State.polled_ticks (s : State) : (s.polled e k).ticks = s.ticks := rfl
@[simp] theorem State.polled_tnProvisional (s : State) : (s.polled e k).tnProvisional = s.tnProvisional := rfl
@[simp] theorem State.polled_realign (s : State) : (s.polled e k).realign = s.realign := rfl
@[simp] theorem State.polled_trafficLast (s : State) : (s.polled e k).trafficLast = s.trafficLast := rfl
@[simp] theorem State.polled_tiles (s : State) : (s.polled e k).tiles = s.tiles := rfl
@[simp] theorem State.polled_htiles (s : State) : (s.polled e k).htiles = s.htiles := rfl
@[simp] theorem State.polled_lanes (s : State) : (s.polled e k).lanes = s.lanes := rfl
@[simp] theorem State.polled_ports (s : State) : (s.polled e k).ports = s.ports := rfl
@[simp] theorem State.polled_packs (s : State) : (s.polled e k).packs = s.packs := rfl
@[simp] theorem State.polled_cal (s : State) : (s.polled e k).cal = s.cal := rfl
@[simp] theorem State.polled_map (s : State) : (s.polled e k).map = s.map := rfl
@[simp] theorem State.polled_mapCentre (s : State) : (s.polled e k).mapCentre = s.mapCentre := rfl
@[simp] theorem State.polled_mons (s : State) : (s.polled e k).mons = s.mons := rfl
@[simp] theorem State.polled_tlmq (s : State) : (s.polled e k).tlmq = s.tlmq := rfl
@[simp] theorem State.polled_chains (s : State) : (s.polled e k).chains = s.chains := rfl
@[simp] theorem State.polled_dma (s : State) : (s.polled e k).dma = s.dma := rfl
@[simp] theorem State.polled_proto (s : State) : (s.polled e k).proto = s.proto := rfl
@[simp] theorem State.polled_dev (s : State) : (s.polled e k).dev = s.dev := rfl
@[simp] theorem State.polled_ctr (s : State) : (s.polled e k).ctr = s.ctr := rfl
@[simp] theorem State.polled_power (s : State) : (s.polled e k).power = s.power := rfl
@[simp] theorem State.polled_recovery (s : State) : (s.polled e k).recovery = s.recovery := rfl
@[simp] theorem State.polled_kennel (s : State) : (s.polled e k).kennel = s.kennel := rfl
@[simp] theorem State.polled_time (s : State) : (s.polled e k).time = s.time := rfl
@[simp] theorem State.polled_sec (s : State) : (s.polled e k).sec = s.sec := rfl
@[simp] theorem State.polled_clockIdentity (s : State) : (s.polled e k).clockIdentity = s.clockIdentity := rfl
@[simp] theorem State.polled_parityLast (s : State) : (s.polled e k).parityLast = s.parityLast := rfl
@[simp] theorem State.polled_readWord (s : State) : (s.polled e k).readWord = s.readWord := rfl
@[simp] theorem State.polled_spiReply (s : State) : (s.polled e k).spiReply = s.spiReply := rfl
@[simp] theorem State.polled_freeCtr (s : State) : (s.polled e k).freeCtr = s.freeCtr := rfl
@[simp] theorem State.polled_pending (s : State) : (s.polled e k).pending = s.pending := rfl
@[simp] theorem State.polled_ite {p : Prop} {_ : Decidable p} (s t : State) : (if p then s.polled e k else t.polled e k) = (if p then s else t).polled e k :=
  (apply_ite (State.polled e k) ..).symm
@[simp] theorem State.polled_foldl {α : Type} {f : State → α → State} (h : ∀ s x, f (s.polled e k) x = (f s x).polled e k) (l : List α) (s : State) :
    l.foldl f (s.polled e k) = (l.foldl f s).polled e k := by
  induction l generalizing s with
  | nil => rfl
  | cons x l ih => rw [List.foldl_cons, h, ih, List.foldl_cons]
variable {e k} in
theorem State.polled_ite_of {p : Prop} {_ : Decidable p} {a b s t : State} (ha : a = s.polled e k) (hb : b = t.polled e k) :
    (if p then a else b) = (if p then s else t).polled e k := by rw [ha, hb, State.polled_ite]
@[simp] theorem State.mk_polled {x0 x1 x2 x3 x4 x5 x7 x8 x9 x10 x11 x12 x13 x14 x15 x16 x17 x18 x19 x20 x21 x22 x23 x24 x25 x26 x27 x28 x29 x30 x31 x32} (s : State) : State.mk x0 x1 x2 x3 x4 x5 (s.polled e k).engines x7 x8 x9 x10 x11 x12 x13 x14 x15 x16 x17 x18 x19 x20 x21 x22 x23 x24 x25 x26 x27 x28 x29 x30 x31 x32 = (State.mk x0 x1 x2 x3 x4 x5 s.engines x7 x8 x9 x10 x11 x12 x13 x14 x15 x16 x17 x18 x19 x20 x21 x22 x23 x24 x25 x26 x27 x28 x29 x30 x31 x32).polled e k := rfl
@[simp] theorem Engine.mk_polledAt {x0 x1 x2 x3 x4 x5 x6 x7 x8 x9 x10 x11 x12 x13 x14 x15 x16 x17 x19 x20 x21 x22 x23 x24 x25} (b : Bool) (g : Engine) : Engine.mk x0 x1 x2 x3 x4 x5 x6 x7 x8 x9 x10 x11 x12 x13 x14 x15 x16 x17 (g.polledAt b k).fe x19 x20 x21 x22 x23 x24 x25 = (Engine.mk x0 x1 x2 x3 x4 x5 x6 x7 x8 x9 x10 x11 x12 x13 x14 x15 x16 x17 g.fe x19 x20 x21 x22 x23 x24 x25).polledAt b k := rfl
@[simp] theorem State.fresh_fst_polled (s : State) : (s.polled e k).fresh.1 = s.fresh.1 := rfl
@[simp] theorem State.fresh_snd_polled (s : State) : (s.polled e k).fresh.2 = s.fresh.2.polled e k := rfl
theorem State.polled_mapEngines (f : Engine → Engine) (h : ∀ b g, f (g.polledAt b k) = (f g).polledAt b k) (s : State) :
    ({ s.polled e k with engines := (s.polled e k).engines.map f } : State) = ({ s with engines := s.engines.map f } : State).polled e k := by
  have hengines : (s.polled e k).engines.map f = (({ s with engines := s.engines.map f } : State).polled e k).engines := by
    refine Vector.ext (fun i hi => ?_)
    have hread : ∀ (u : State), u.engines[i] = u.eng i := fun u => (dif_pos hi).symm
    rw [Vector.getElem_map, hread, hread, State.polled_eng, State.polled_eng, h, ← hread]
    exact congrArg (Engine.polledAt _ k) ((dif_pos hi).trans (Vector.getElem_map ..)).symm
  exact congrArg (fun v => { s with engines := v }) hengines
end
end Sys2Proof.Machine
end

section
/-! What the model's functions do in a state whose engine is said to have been polled: the reads answer the same, and the updates leave the
same state but for that tick (O22). -/
namespace Sys2Proof.Machine
section
variable (e : Fin 48) (k : Nat)

/-! ### Reads of an engine -/

@[simp] theorem Engine.polledAt_txAt (b : Bool) (g : Engine) : (g.polledAt b k).txAt = g.txAt := rfl
@[simp] theorem Engine.polledAt_inFrame (b : Bool) (g : Engine) : (g.polledAt b k).inFrame = g.inFrame := rfl
@[simp] theorem Engine.polledAt_loopback (b : Bool) (g : Engine) : (g.polledAt b k).loopback = g.loopback := rfl
@[simp] theorem Engine.polledAt_liveKey (b : Bool) (g : Engine) : (g.polledAt b k).liveKey = g.liveKey := rfl
@[simp] theorem Engine.polledAt_slotsOf (b : Bool) (g : Engine) : (g.polledAt b k).slotsOf = g.slotsOf := rfl
@[simp] theorem Engine.polledAt_clearFrame (b : Bool) (g : Engine) : (g.polledAt b k).clearFrame = g.clearFrame := rfl
@[simp] theorem Engine.polledAt_annOfChange (b : Bool) (g : Engine) : (g.polledAt b k).annOfChange = g.annOfChange := rfl
@[simp] theorem Engine.polledAt_looped (b : Bool) (g : Engine) : (g.polledAt b k).looped = g.looped := rfl
@[simp] theorem rxEqDelay_polledAt (b : Bool) (g : Engine) : rxEqDelay (g.polledAt b k) = rxEqDelay g := rfl

/-! ### Reads of the state -/

@[simp] theorem State.pack_polled (i : Nat) (s : State) : State.pack (s.polled e k) i = State.pack s i := by simp [State.pack]
@[simp] theorem State.carries_polled (e' : Nat) (s : State) : State.carries (s.polled e k) e' = State.carries s e' := by simp [State.carries]
@[simp] theorem State.carries_fun_polled (s : State) : (s.polled e k).carries = s.carries := funext (fun _ => State.carries_polled e k _ s)
@[simp] theorem State.taiAt_polled (tn : Nat) (s : State) : State.taiAt (s.polled e k) tn = State.taiAt s tn := by simp [State.taiAt]
@[simp] theorem State.nowTai_polled (s : State) : State.nowTai (s.polled e k) = State.nowTai s := by simp [State.nowTai]
@[simp] theorem State.nextSecond_polled (s : State) : State.nextSecond (s.polled e k) = State.nextSecond s := by simp [State.nextSecond]
@[simp] theorem State.realignAt_polled (k' : RealignKind) (fromSet : Bool) (s : State) :
    State.realignAt k' fromSet (s.polled e k) = State.realignAt k' fromSet s := by
    simp [State.realignAt]
@[simp] theorem State.port?_polled (n : Nat) (s : State) : State.port? (s.polled e k) n = State.port? s n := by simp [State.port?]
@[simp] theorem State.ptp_polled (n : Nat) (s : State) : State.ptp (s.polled e k) n = State.ptp s n := by simp [State.ptp]
@[simp] theorem State.sourceQuality_polled (s : State) : State.sourceQuality (s.polled e k) = State.sourceQuality s := by
  funext x; cases x <;> simp [State.sourceQuality]
@[simp] theorem State.quality_polled (s : State) : State.quality (s.polled e k) = State.quality s := by
  simp [State.quality] <;> rfl
@[simp] theorem State.offsetNow_polled (s : State) : State.offsetNow (s.polled e k) = State.offsetNow s := by simp [State.offsetNow]
@[simp] theorem State.tileTemp_polled (e' : Nat) (s : State) : State.tileTemp (s.polled e k) e' = State.tileTemp s e' := by simp [State.tileTemp]
@[simp] theorem State.txDelay_polled (e' : Nat) (s : State) : State.txDelay (s.polled e k) e' = State.txDelay s e' := by simp [State.txDelay]
@[simp] theorem State.txTimeOf_polled (e' tn : Nat) (s : State) : State.txTimeOf (s.polled e k) e' tn = State.txTimeOf s e' tn := by simp [State.txTimeOf]
@[simp] theorem State.timeBlock_polled (e' tn : Nat) (s : State) : State.timeBlock (s.polled e k) e' tn = State.timeBlock s e' tn := by simp [State.timeBlock]
@[simp] theorem State.ptpPorts_polled (s : State) : State.ptpPorts (s.polled e k) = State.ptpPorts s := by simp [State.ptpPorts]
@[simp] theorem State.resolve_polled (x : CalEntry) (s : State) : State.resolve (s.polled e k) x = State.resolve s x := by simp [State.resolve]
@[simp] theorem State.packOf_polled (e' : Nat) (s : State) : State.packOf (s.polled e k) e' = State.packOf s e' := by simp [State.packOf]
@[simp] theorem State.tile_polled (i : Nat) (s : State) : State.tile (s.polled e k) i = State.tile s i := by simp [State.tile]
@[simp] theorem State.fenced_polled (e' : Nat) (s : State) : State.fenced (s.polled e k) e' = State.fenced s e' := by simp [State.fenced]
@[simp] theorem nbrStatus_polled (a p : Nat) (rx : Bool) (s : State) : nbrStatus (s.polled e k) a p rx = nbrStatus s a p rx := by simp [nbrStatus]
@[simp] theorem State.htile_polled (i : Nat) (s : State) : State.htile (s.polled e k) i = State.htile s i := by simp [State.htile]
@[simp] theorem State.dc_polled (i : Nat) (s : State) : State.dc (s.polled e k) i = State.dc s i := by simp [State.dc]
@[simp] theorem State.hostToDevice_polled (c : Nat) (s : State) : State.hostToDevice (s.polled e k) c = State.hostToDevice s c := by simp [State.hostToDevice]
@[simp] theorem State.packBlock_polled (e' : Nat) (s : State) : State.packBlock (s.polled e k) e' = State.packBlock s e' := by simp [State.packBlock]
@[simp] theorem State.qreg_polled (q : Nat) (s : State) : State.qreg (s.polled e k) q = State.qreg s q := by simp [State.qreg]
@[simp] theorem State.capacity_polled (q : Nat) (s : State) : State.capacity (s.polled e k) q = State.capacity s q := by simp [State.capacity]
@[simp] theorem State.fill_polled (q : Nat) (s : State) : State.fill (s.polled e k) q = State.fill s q := by simp [State.fill]
@[simp] theorem State.respFits_polled (n size : Nat) (s : State) : State.respFits (s.polled e k) n size = State.respFits s n size := by simp [State.respFits]
@[simp] theorem State.route_polled (e' : Nat) (s : State) : State.route (s.polled e k) e' = State.route s e' := by simp [State.route]
@[simp] theorem State.keys_polled (e' : Nat) (s : State) : State.keys (s.polled e k) e' = State.keys s e' := by simp [State.keys]
@[simp] theorem State.frameBody_polled (e' tn : Nat) (header plain : List Octet) (s : State) :
    State.frameBody (s.polled e k) e' tn header plain = State.frameBody s e' tn header plain := by
    simp [State.frameBody]
@[simp] theorem State.portOfLane_polled (l : Nat) (s : State) : State.portOfLane (s.polled e k) l = State.portOfLane s l := by simp [State.portOfLane]
@[simp] theorem State.laneFree_polled (l : Nat) (s : State) : State.laneFree (s.polled e k) l = State.laneFree s l := by simp [State.laneFree]
@[simp] theorem State.portOk_polled (n : Nat) (s : State) : State.portOk (s.polled e k) n = State.portOk s n := rfl
@[simp] theorem State.imageDumps_polled (s : State) : State.imageDumps (s.polled e k) = State.imageDumps s := by simp [State.imageDumps]
@[simp] theorem State.cand?_polled (x : TimeSrc) (s : State) : State.cand? (s.polled e k) x = State.cand? s x := by simp [State.cand?]
@[simp] theorem State.fwUp_polled (s : State) : State.fwUp (s.polled e k) = State.fwUp s := by simp [State.fwUp]
@[simp] theorem State.learnedAt_polled (e' i : Nat) (s : State) : State.learnedAt (s.polled e k) e' i = State.learnedAt s e' i := by simp [State.learnedAt]
@[simp] theorem State.openBlob_polled (c : Cmd) (s : State) : State.openBlob (s.polled e k) c = State.openBlob s c := by simp [State.openBlob]
@[simp] theorem State.anyTraffic_polled (s : State) : State.anyTraffic (s.polled e k) = State.anyTraffic s := by simp [State.anyTraffic]
@[simp] theorem State.alert_polled (s : State) : State.alert (s.polled e k) = State.alert s := rfl
@[simp] theorem State.overheadOf_polled (e' tn : Nat) (svc : List Octet) (s : State) : (s.polled e k).overheadOf e' tn svc = s.overheadOf e' tn svc := by
  unfold State.overheadOf
  rw [State.timeBlock_polled, State.packBlock_polled, State.polled_eng]
  rfl
@[simp] theorem State.clearHeader_polled (e' tn : Nat) (s : State) : State.clearHeader (s.polled e k) e' tn = State.clearHeader s e' tn := by
    simp [State.clearHeader]
@[simp] theorem State.frameNow_polled (e' : Nat) (svc : List Octet) (s : State) : State.frameNow (s.polled e k) e' svc = State.frameNow s e' svc := by
    simp [State.frameNow]
@[simp] theorem State.zrNow_polled (e' : Nat) (s : State) : State.zrNow (s.polled e k) e' = State.zrNow s e' := by simp [State.zrNow]
@[simp] theorem State.lane_polled (i : Nat) (s : State) : State.lane (s.polled e k) i = State.lane s i := by simp [State.lane]
@[simp] theorem State.swapPending_polled (s : State) : State.swapPending (s.polled e k) = State.swapPending s := by simp [State.swapPending]
@[simp] theorem State.mc_polled (i : Nat) (s : State) : State.mc (s.polled e k) i = State.mc s i := by simp [State.mc]
@[simp] theorem State.slotMap_polled (bank : List (Nat × Nat)) (s : State) : State.slotMap (s.polled e k) bank = State.slotMap s bank := by simp [State.slotMap]
@[simp] theorem State.changedSlots_polled (s : State) : State.changedSlots (s.polled e k) = State.changedSlots s := by simp [State.changedSlots]
@[simp] theorem State.keyMissing_polled (e' : Nat) (s : State) : State.keyMissing (s.polled e k) e' = State.keyMissing s e' := by
  simp [State.keyMissing] <;> rfl
@[simp] theorem autoReasons_polled (e' : Nat) (r : MuzzleReason) (s : State) : autoReasons (s.polled e k) e' r = autoReasons s e' r := by simp [autoReasons]
@[simp] theorem retireEntry_polled (e' : Nat) (u : UnitRef) (cause : Nat) (by' : Nat) (s : State) :
    retireEntry (s.polled e k) e' u cause by' = retireEntry s e' u cause by' := by
    simp [retireEntry]
@[simp] theorem State.taiSecond_polled (s : State) : State.taiSecond (s.polled e k) = State.taiSecond s := by simp [State.taiSecond]
@[simp] theorem State.bwOf_polled (p : Nat) (s : State) : State.bwOf (s.polled e k) p = State.bwOf s p := by simp [State.bwOf]
@[simp] theorem State.ltDown_polled (k' : Nat) (s : State) : State.ltDown (s.polled e k) k' = State.ltDown s k' := by simp [State.ltDown]
@[simp] theorem State.frameless_polled (e' : Nat) (s : State) : State.frameless (s.polled e k) e' = State.frameless s e' := by simp [State.frameless]
@[simp] theorem State.freqRefTraceable_polled (s : State) : State.freqRefTraceable (s.polled e k) = State.freqRefTraceable s := by simp [State.freqRefTraceable]
@[simp] theorem State.lineOk_polled (e' : Nat) (s : State) : State.lineOk (s.polled e k) e' = State.lineOk s e' := by simp [State.lineOk]
@[simp] theorem State.laneRuns_polled (l : Nat) (s : State) : State.laneRuns (s.polled e k) l = State.laneRuns s l := by simp [State.laneRuns]
@[simp] theorem State.rxDelay_polled (e' : Nat) (s : State) : State.rxDelay (s.polled e k) e' = State.rxDelay s e' := by simp [State.rxDelay]

/-! ### Updates of the state -/

@[simp] theorem State.modPort_polled (n : Nat) (f : Port → Port) (s : State) : State.modPort n f (s.polled e k) = (State.modPort n f s).polled e k := rfl
@[simp] theorem State.modLane_polled (i : Nat) (f : HostLane → HostLane) (s : State) : State.modLane i f (s.polled e k) = (State.modLane i f s).polled e k := rfl
@[simp] theorem State.modCtr_polled (f : Counters → Counters) (s : State) : State.modCtr f (s.polled e k) = (State.modCtr f s).polled e k := rfl
@[simp] theorem State.happen_polled (slot n : Nat) (s : State) : State.happen slot n (s.polled e k) = (State.happen slot n s).polled e k := by simp [State.happen]
@[simp] theorem State.modQreg_polled (q : Nat) (f : QueueRegs → QueueRegs) (s : State) : State.modQreg q f (s.polled e k) = (State.modQreg q f s).polled e k := rfl
@[simp] theorem State.modDev_polled (f : DeviceBlock → DeviceBlock) (s : State) : State.modDev f (s.polled e k) = (State.modDev f s).polled e k := rfl
@[simp] theorem State.signal_polled (v : Nat) (s : State) : State.signal v (s.polled e k) = (State.signal v s).polled e k := by simp [State.signal]
@[simp] theorem State.signalRing_polled (q : Nat) (s : State) : State.signalRing q (s.polled e k) = (State.signalRing q s).polled e k := by
    unfold State.signalRing; split <;> simp
@[simp] theorem State.wmCross_polled (q old : Nat) (s : State) : State.wmCross q old (s.polled e k) = (State.wmCross q old s).polled e k := by simp [State.wmCross]
@[simp] theorem State.modProto_polled (f : Protocol → Protocol) (s : State) : State.modProto f (s.polled e k) = (State.modProto f s).polled e k := rfl
@[simp] theorem State.refreshAlert_polled (s : State) : State.refreshAlert (s.polled e k) = (State.refreshAlert s).polled e k := by simp [State.refreshAlert]
@[simp] theorem State.postEvent_polled (e' : EventItem) (s : State) : State.postEvent e' (s.polled e k) = (State.postEvent e' s).polled e k := by
    simp [State.postEvent]
@[simp] theorem State.modTile_polled (i : Nat) (f : Tile → Tile) (s : State) : State.modTile i f (s.polled e k) = (State.modTile i f s).polled e k := rfl
@[simp] theorem State.captureNotice_polled (kind code : Nat) (engine : Nat) (s : State) :
    State.captureNotice kind code engine (s.polled e k) = (State.captureNotice kind code engine s).polled e k := by
    simp [State.captureNotice]
@[simp] theorem State.raiseAt_polled (ev : Ev) (k' : Kind) (idx : Nat) (ws : List Word) (tn : Nat) (s : State) :
    State.raiseAt ev k' idx ws tn (s.polled e k) = (State.raiseAt ev k' idx ws tn s).polled e k := by
    simp [State.raiseAt]
@[simp] theorem State.raise_polled (ev : Ev) (k' : Kind) (idx : Nat) (ws : List Word) (s : State) :
    State.raise ev k' idx ws (s.polled e k) = (State.raise ev k' idx ws s).polled e k := by
    simp [State.raise]
@[simp] theorem State.laneFreeze_polled (l : Nat) (r : FreezeReason) (s : State) : State.laneFreeze l r (s.polled e k) = (State.laneFreeze l r s).polled e k := by
    simp [State.laneFreeze]
@[simp] theorem State.laneStart_polled (l : Nat) (s : State) : State.laneStart l (s.polled e k) = (State.laneStart l s).polled e k := by simp [State.laneStart]
@[simp] theorem State.trainResult_polled (low outcome : Nat) (s : State) : (s.polled e k).trainResult low outcome = (s.trainResult low outcome).polled e k := by
  unfold State.trainResult
  rw [State.port?_polled]
  cases s.port? low with
  | none => rfl
  | some p => cases h : p.round.firstLane <;> simp [h]
@[simp] theorem State.endRound_polled (low : Nat) (s : State) : State.endRound low (s.polled e k) = (State.endRound low s).polled e k := by simp [State.endRound]
@[simp] theorem applyPortTest_polled (c : Cmd) (s : State) : applyPortTest c (s.polled e k) = (applyPortTest c s).polled e k := by
  simp [applyPortTest]
  split <;> simp [*]
@[simp] theorem State.modKennel_polled (f : Kennel → Kennel) (s : State) : State.modKennel f (s.polled e k) = (State.modKennel f s).polled e k := rfl
@[simp] theorem State.modSettings_polled (f : Settings → Settings) (s : State) : State.modSettings f (s.polled e k) = (State.modSettings f s).polled e k := by
    simp [State.modSettings]
@[simp] theorem State.advanced_polled (q : Nat) (s : State) : State.advanced q (s.polled e k) = (State.advanced q s).polled e k := by
  simp [State.advanced] <;> rfl
@[simp] theorem State.commitResp_polled (n : Nat) (r : Resp) (s : State) : State.commitResp n r (s.polled e k) = (State.commitResp n r s).polled e k := by
    simp [State.commitResp]
@[simp] theorem State.postResp_polled (src : Source) (r : Resp) (s : State) : State.postResp src r (s.polled e k) = (State.postResp src r s).polled e k := by
    unfold State.postResp; split <;> simp
@[simp] theorem State.respond_polled (t : Ticket) (final : Bool) (st : Status) (detail tn : Nat) (ws : List Word) (s : State) :
    State.respond t final st detail tn ws (s.polled e k) = (State.respond t final st detail tn ws s).polled e k := by
    simp [State.respond]
@[simp] theorem State.final_polled (t : Ticket) (st : Status) (detail : Nat) (ws : List Word) (s : State) :
    State.final t st detail ws (s.polled e k) = (State.final t st detail ws s).polled e k := by
    simp [State.final]
@[simp] theorem State.finishJobs_polled (p : Job → Bool) (st : Status) (detail : Nat) (ws : List Word) (s : State) :
    State.finishJobs p st detail ws (s.polled e k) = (State.finishJobs p st detail ws s).polled e k := by
    simp [State.finishJobs]
@[simp] theorem State.modTime_polled (f : TimeCore → TimeCore) (s : State) : State.modTime f (s.polled e k) = (State.modTime f s).polled e k := rfl
@[simp] theorem State.keepSteps_polled (s : State) : State.keepSteps (s.polled e k) = (State.keepSteps s).polled e k := by simp [State.keepSteps]
@[simp] theorem State.modLoad_polled (e' : Nat) (f : Loading → Loading) (s : State) : State.modLoad e' f (s.polled e k) = (State.modLoad e' f s).polled e k :=
    State.polled_modEng _ _ _ _ _ (fun _ _ => rfl)
@[simp] theorem State.dropAnn_polled (e' : Nat) (s : State) : State.dropAnn e' (s.polled e k) = (State.dropAnn e' s).polled e k := by simp [State.dropAnn]
@[simp] theorem State.modCand_polled (x : TimeSrc) (f : Candidate → Candidate) (s : State) :
    State.modCand x f (s.polled e k) = (State.modCand x f s).polled e k := by
    simp [State.modCand]
@[simp] theorem State.refreshTrace_polled (s : State) : State.refreshTrace (s.polled e k) = (State.refreshTrace s).polled e k := by
  simp [State.refreshTrace] <;> rfl
@[simp] theorem State.epochInPlace_polled (s : State) : State.epochInPlace (s.polled e k) = (State.epochInPlace s).polled e k := by simp [State.epochInPlace]
@[simp] theorem State.epochAtLock_polled (first : Bool) (s : State) : State.epochAtLock first (s.polled e k) = (State.epochAtLock first s).polled e k := by
    simp [State.epochAtLock]
@[simp] theorem State.timeTo_polled (st : TimeState) (s : State) : State.timeTo st (s.polled e k) = (State.timeTo st s).polled e k := by simp [State.timeTo]
@[simp] theorem State.selectSource_polled (x : Option TimeSrc) (s : State) : State.selectSource x (s.polled e k) = (State.selectSource x s).polled e k := by
    unfold State.selectSource; split <;> simp
@[simp] theorem State.reselect_polled (s : State) : (s.polled e k).reselect = s.reselect.polled e k := by
  unfold State.reselect
  refine State.polled_ite_of ?_ (State.selectSource_polled ..)
  have hchosen : ∀ o : Option Candidate, (match o with | some c => (s.polled e k).selectSource (some c.src) | none => s.polled e k) =
      (match o with | some c => s.selectSource (some c.src) | none => s).polled e k := fun o => by cases o <;> simp
  exact hchosen _
@[simp] theorem State.qualify_polled (x : TimeSrc) (st : CandState) (why : QualReason) (s : State) :
    State.qualify x st why (s.polled e k) = (State.qualify x st why s).polled e k := by
  simp [State.qualify]
  split <;> simp [*]
@[simp] theorem State.disqualify_polled (x : TimeSrc) (why : QualReason) (s : State) :
    State.disqualify x why (s.polled e k) = (State.disqualify x why s).polled e k := by
    simp [State.disqualify]
@[simp] theorem State.meets_polled (x : TimeSrc) (s : State) : State.meets x (s.polled e k) = (State.meets x s).polled e k := by
  simp [State.meets]
  split <;> simp [*]
@[simp] theorem State.modPtp_polled (n : Nat) (f : PtpPort → PtpPort) (s : State) : State.modPtp n f (s.polled e k) = (State.modPtp n f s).polled e k := by
    simp [State.modPtp]
@[simp] theorem State.ptpTo_polled (n : Nat) (st : PtpState) (s : State) : State.ptpTo n st (s.polled e k) = (State.ptpTo n st s).polled e k := by simp [State.ptpTo]
@[simp] theorem State.ptpPromote_polled (s : State) : State.ptpPromote (s.polled e k) = (State.ptpPromote s).polled e k := by simp [State.ptpPromote]
@[simp] theorem State.judgeCandidates_polled (s : State) : (s.polled e k).judgeCandidates = s.judgeCandidates.polled e k := by
  unfold State.judgeCandidates
  simp only [State.ptpPromote_polled, State.polled_time]
  refine State.polled_foldl e k (fun s c => ?_) _ _
  cases c.src <;> simp
@[simp] theorem State.dropSvc_polled (e' : Nat) (s : State) : State.dropSvc e' (s.polled e k) = (State.dropSvc e' s).polled e k :=
    State.polled_modEng _ _ _ _ _ (fun _ _ => rfl)
@[simp] theorem State.modDc_polled (i : Nat) (f : DmaChannel → DmaChannel) (s : State) : State.modDc i f (s.polled e k) = (State.modDc i f s).polled e k := rfl
@[simp] theorem State.count_polled (c : Ctr) (k' : Kind) (idx n : Nat) (s : State) :
    State.count c k' idx n (s.polled e k) = (State.count c k' idx n s).polled e k := by
    simp [State.count]
@[simp] theorem State.endChannel_polled (c : Nat) (e' : DmaEnd) (s : State) : State.endChannel c e' (s.polled e k) = (State.endChannel c e' s).polled e k := by
    simp [State.endChannel]
@[simp] theorem State.dropCapture_polled (k' : Nat) (s : State) : State.dropCapture k' (s.polled e k) = (State.dropCapture k' s).polled e k := by
    simp [State.dropCapture]
@[simp] theorem State.withdrawCapture_polled (k' : Nat) (only : Option Nat) (why : CapCause) (s : State) :
    State.withdrawCapture k' only why (s.polled e k) = (State.withdrawCapture k' only why s).polled e k := by
    simp [State.withdrawCapture]
@[simp] theorem State.modConv_polled (e' : Nat) (f : Converter → Converter) (s : State) : State.modConv e' f (s.polled e k) = (State.modConv e' f s).polled e k :=
    State.polled_modEng _ _ _ _ _ (fun _ _ => rfl)
@[simp] theorem State.recentre_polled (e' : Nat) (dac : Bool) (lane : Nat) (s : State) :
    (s.polled e k).recentre e' dac lane = (s.recentre e' dac lane).polled e k := by
  unfold State.recentre
  simp only [State.polled_eng, Engine.polledAt_conv]
  refine State.polled_foldl e k (fun s t => ?_) _ _
  have hlearned : (s.polled e k).learnedAt e' = s.learnedAt e' := funext (fun i => State.learnedAt_polled e k e' i s)
  rw [hlearned]
  split
  · rfl
  · exact State.polled_foldl e k (fun s i => by simp) _ _
@[simp] theorem State.modAcq_polled (e' : Nat) (f : Acquisition → Acquisition) (s : State) : State.modAcq e' f (s.polled e k) = (State.modAcq e' f s).polled e k :=
    State.polled_modEng _ _ _ _ _ (fun _ _ => rfl)
@[simp] theorem State.setHeel_polled (e' : Nat) (heel : Bool) (m : Int) (s : State) :
    State.setHeel e' heel m (s.polled e k) = (State.setHeel e' heel m s).polled e k := by
    simp [State.setHeel]
@[simp] theorem State.alignRelease_polled (e' : Nat) (next : AcqState) (s : State) : (s.polled e k).alignRelease e' next = (s.alignRelease e' next).polled e k := by
  unfold State.alignRelease
  rw [State.setHeel_polled]
  exact State.polled_modEng _ _ _ _ _ (fun _ _ => rfl)
@[simp] theorem State.setCapacity_polled (e' k' : Nat) (s : State) : (s.polled e k).setCapacity e' k' = (s.setCapacity e' k').polled e k := by
  unfold State.setCapacity
  rw [State.dropAnn_polled, State.polled_modEng _ _ _ _ _ (fun _ _ => rfl)]
  simp only [State.polled_eng, Engine.polledAt_acq, State.fenced_polled]
  split
  · simp
  · rw [State.polled_modEng _ _ _ _ _ (fun _ _ => rfl)]
    exact State.polled_ite ..
@[simp] theorem State.modTx_polled (e' : Nat) (f : Transmit → Transmit) (s : State) : State.modTx e' f (s.polled e k) = (State.modTx e' f s).polled e k :=
    State.polled_modEng _ _ _ _ _ (fun _ _ => rfl)
@[simp] theorem applyNlcSwap_polled (c : Cmd) (s : State) : applyNlcSwap c (s.polled e k) = (applyNlcSwap c s).polled e k :=
    State.polled_modEng _ _ _ _ _ (fun _ _ => rfl)
@[simp] theorem State.modPack_polled (i : Nat) (f : Pack → Pack) (s : State) : State.modPack i f (s.polled e k) = (State.modPack i f s).polled e k := rfl
@[simp] theorem State.packSecond_polled (p : Nat) (s : State) : State.packSecond p (s.polled e k) = (State.packSecond p s).polled e k := by simp [State.packSecond]
@[simp] theorem State.setBw_polled (p : Nat) (w : BwWindow) (s : State) : State.setBw p w (s.polled e k) = (State.setBw p w s).polled e k := by simp [State.setBw]
@[simp] theorem State.modEq_polled (e' : Nat) (f : Equaliser → Equaliser) (s : State) : State.modEq e' f (s.polled e k) = (State.modEq e' f s).polled e k :=
    State.polled_modEng _ _ _ _ _ (fun _ _ => rfl)
@[simp] theorem State.cdSwapDone_polled (e' : Nat) (reversed : Bool) (s : State) :
    State.cdSwapDone e' reversed (s.polled e k) = (State.cdSwapDone e' reversed s).polled e k := by
    simp [State.cdSwapDone]
@[simp] theorem State.modRec_polled (f : Recovery → Recovery) (s : State) : State.modRec f (s.polled e k) = (State.modRec f s).polled e k := rfl
@[simp] theorem State.imageReadable_polled (m : Image) (s : State) : State.imageReadable m (s.polled e k) = (State.imageReadable m s).polled e k := by
    simp [State.imageReadable]
@[simp] theorem State.packCapacityCheck_polled (e' : Nat) (s : State) : (s.polled e k).packCapacityCheck e' = (s.packCapacityCheck e').polled e k := by
  unfold State.packCapacityCheck
  refine State.polled_foldl e k (fun s p => ?_) _ _
  simp only [State.pack_polled]
  split <;> simp
@[simp] theorem State.capacityCheck_polled (e' : Nat) (s : State) : (s.polled e k).capacityCheck e' = (s.capacityCheck e').polled e k := by
  unfold State.capacityCheck
  simp only [State.polled_eng, Engine.polledAt_cap]
  rw [State.polled_modEng _ _ _ _ _ (fun _ _ => rfl)]
  split <;> simp
@[simp] theorem State.stopDiagnostics_polled (low : Nat) (s : State) : (s.polled e k).stopDiagnostics low = (s.stopDiagnostics low).polled e k := by
  unfold State.stopDiagnostics
  rw [State.port?_polled]
  split
  · rfl
  · exact State.polled_foldl e k (fun s l => by simp) _ _
@[simp] theorem State.enterHoldoff_polled (low : Nat) (s : State) : State.enterHoldoff low (s.polled e k) = (State.enterHoldoff low s).polled e k := by
    simp [State.enterHoldoff]
@[simp] theorem State.startRound_polled (low : Nat) (s : State) : (s.polled e k).startRound low = (s.startRound low).polled e k := by
  unfold State.startRound
  rw [State.port?_polled]
  split
  · rfl
  · rename_i p hp
    refine State.polled_ite_of (State.enterHoldoff_polled ..) ?_
    rw [State.polled_foldl e k (fun s l => by simp)]
    simp
@[simp] theorem State.cancelArmed_polled (p : Armed → Bool) (st : Status) (detail : Nat) (s : State) :
    (s.polled e k).cancelArmed p st detail = (s.cancelArmed p st detail).polled e k := by
  unfold State.cancelArmed
  refine (State.polled_foldl e k (fun s a => ?_) _ _).symm ▸ ?_
  · cases a.ticket <;> simp
  · simp
@[simp] theorem State.dropCdSwap_polled (e' : Nat) (s : State) : State.dropCdSwap e' (s.polled e k) = (State.dropCdSwap e' s).polled e k := by
    simp [State.dropCdSwap]
@[simp] theorem State.modMc_polled (i : Nat) (f : MonConv → MonConv) (s : State) : State.modMc i f (s.polled e k) = (State.modMc i f s).polled e k := rfl
@[simp] theorem State.monNext_polled (k' : Nat) (s : State) : State.monNext k' (s.polled e k) = (State.monNext k' s).polled e k := by simp [State.monNext]
@[simp] theorem applySeqStart_polled (c : Cmd) (s : State) : applySeqStart c (s.polled e k) = (applySeqStart c s).polled e k := by
  simp [applySeqStart]
  split <;> simp [*]
@[simp] theorem State.modLife_polled (f : LifeRecord → LifeRecord) (s : State) : State.modLife f (s.polled e k) = (State.modLife f s).polled e k := by
    simp [State.modLife]
@[simp] theorem State.lifeFull_polled (offset : Nat) (s : State) : State.lifeFull offset (s.polled e k) = (State.lifeFull offset s).polled e k := by
    simp [State.lifeFull]
@[simp] theorem State.lifeBump_polled (offset top n : Nat) (get : LifeRecord → Nat) (put : Nat → LifeRecord → LifeRecord) (s : State) :
    State.lifeBump offset top n get put (s.polled e k) = (State.lifeBump offset top n get put s).polled e k := by
    simp [State.lifeBump]
@[simp] theorem State.lifeIsolation_polled (e' : Nat) (s : State) : State.lifeIsolation e' (s.polled e k) = (State.lifeIsolation e' s).polled e k := by
    simp [State.lifeIsolation]
@[simp] theorem State.abortAnn_polled (e' : Nat) (cause : AbortCause) (s : State) :
    State.abortAnn e' cause (s.polled e k) = (State.abortAnn e' cause s).polled e k := by
  simp [State.abortAnn]
  split <;> simp [*]
@[simp] theorem State.feSquelch_polled (e' : Nat) (on : Bool) (s : State) : (s.polled e k).feSquelch e' on = (s.feSquelch e' on).polled e k := by
  unfold State.feSquelch
  simp only [State.polled_eng, Engine.polledAt_profile, State.polled_ticks]
  split
  · exact State.polled_modEng _ _ _ _ _ (fun _ _ => rfl)
  · rfl
@[simp] theorem State.muzzleTo_polled (e' : Nat) (m : Muzzle) (amp : Rat) (s : State) : (s.polled e k).muzzleTo e' m amp = (s.muzzleTo e' m amp).polled e k := by
  unfold State.muzzleTo
  simp only [State.polled_eng, Engine.polledAt_tx, Engine.polledAt_load, State.polled_tn, State.modTx_polled, State.raise_polled, State.abortAnn_polled, State.feSquelch_polled, State.polled_ite]
  refine State.polled_ite_of rfl ?_
  exact State.polled_ite_of (State.polled_modEng _ _ _ _ _ (fun _ _ => rfl)) rfl
@[simp] theorem State.recentreAll_polled (e' : Nat) (s : State) : State.recentreAll e' (s.polled e k) = (State.recentreAll e' s).polled e k := by
    simp [State.recentreAll]
@[simp] theorem State.windowStart_polled (e' : Nat) (s : State) : State.windowStart e' (s.polled e k) = (State.windowStart e' s).polled e k := by
    simp [State.windowStart]
@[simp] theorem State.queueRetirement_polled (e' : Nat) (r : Retirement) (s : State) :
    State.queueRetirement e' r (s.polled e k) = (State.queueRetirement e' r s).polled e k := by
    simp [State.queueRetirement]
@[simp] theorem State.spareLow_polled (e' : Nat) (u : UnitRef) (s : State) : State.spareLow e' u (s.polled e k) = (State.spareLow e' u s).polled e k := by
    simp [State.spareLow]
@[simp] theorem State.retireUnit_polled (d : DueUnit) (e' : Nat) (s : State) : (s.polled e k).retireUnit d e' = (s.retireUnit d e').polled e k := by
  unfold State.retireUnit
  simp only [State.polled_eng, Engine.polledAt_conv]
  split
  · exact State.modConv_polled ..
  split
  · split
    · simp only [State.modConv_polled]
      exact State.polled_ite_of rfl (State.raise_polled ..)
    · simp
  · simp
@[simp] theorem State.recordDue_polled (d : DueUnit) (e' : Nat) (s : State) : State.recordDue d e' (s.polled e k) = (State.recordDue d e' s).polled e k := by
    simp [State.recordDue]
@[simp] theorem State.makeDue_polled (e' : Nat) (p : DueUnit → Bool) (s : State) : State.makeDue e' p (s.polled e k) = (State.makeDue e' p s).polled e k := by
  simp [State.makeDue] <;> rfl
@[simp] theorem State.convBoundary_polled (e' : Nat) (s : State) : State.convBoundary e' (s.polled e k) = (State.convBoundary e' s).polled e k := by
  simp [State.convBoundary]
  split <;> simp [*]
@[simp] theorem State.lttBoundary_polled (e' : Nat) (s : State) : State.lttBoundary e' (s.polled e k) = (State.lttBoundary e' s).polled e k :=
    State.polled_modEng _ _ _ _ _ (fun _ _ => rfl)
@[simp] theorem State.abortOver_polled (e' : Nat) (s : State) : State.abortOver e' (s.polled e k) = (State.abortOver e' s).polled e k := by
  simp only [State.abortOver]
  repeat' split <;> simp_all
@[simp] theorem State.leashInstant_polled (e' : Nat) (s : State) : State.leashInstant e' (s.polled e k) = (State.leashInstant e' s).polled e k := by
  simp [State.leashInstant]
  split <;> simp [*]
@[simp] theorem State.iterCapStep_polled (e' : Nat) (s : State) : (s.polled e k).iterCapStep e' = (s.iterCapStep e').polled e k := by
  unfold State.iterCapStep
  simp only [State.polled_eng, Engine.polledAt_thermalCap, Engine.polledAt_lastBrace, Engine.polledAt_effCap, Engine.polledAt_zr, Engine.polledAt_iterCap, State.tileTemp_polled, State.polled_power]
  rw [State.polled_modEng _ _ _ _ _ (fun _ _ => rfl), State.polled_ite]
  refine State.polled_ite_of rfl ?_
  rw [State.polled_modEng _ _ _ _ _ (fun _ _ => rfl), State.raise_polled]
  rfl
@[simp] theorem State.muzzleStep_polled (e' : Nat) (s : State) : State.muzzleStep e' (s.polled e k) = (State.muzzleStep e' s).polled e k := by
    simp [State.muzzleStep]
@[simp] theorem State.engineBoundary_polled (e' : Nat) (s : State) : State.engineBoundary e' (s.polled e k) = (State.engineBoundary e' s).polled e k := by
    simp [State.engineBoundary]
@[simp] theorem applyRxfe_polled (c : Cmd) (s : State) : applyRxfe c (s.polled e k) = (applyRxfe c s).polled e k := by simp [applyRxfe]
@[simp] theorem applySnapshot_polled (c : Cmd) (s : State) : applySnapshot c (s.polled e k) = (applySnapshot c s).polled e k := by simp [applySnapshot]
@[simp] theorem applyCapacity_polled (c : Cmd) (s : State) : applyCapacity c (s.polled e k) = (applyCapacity c s).polled e k := by
  unfold applyCapacity
  simp only [State.polled_eng, Engine.polledAt_zr]
  rw [State.polled_modEng _ _ _ _ _ (fun _ _ => rfl), State.setCapacity_polled, State.capacityCheck_polled]
@[simp] theorem State.noteSent_polled (e' tn : Nat) (t : Int) (s : State) : State.noteSent e' tn t (s.polled e k) = (State.noteSent e' tn t s).polled e k :=
    State.polled_modEng _ _ _ _ _ (fun _ _ => rfl)
@[simp] theorem State.utcTo_polled (off dir : Int) (leapAt origin : Nat) (s : State) :
    State.utcTo off dir leapAt origin (s.polled e k) = (State.utcTo off dir leapAt origin s).polled e k := by
    simp [State.utcTo]
@[simp] theorem State.leapDue_polled (s : State) : State.leapDue (s.polled e k) = (State.leapDue s).polled e k := by simp [State.leapDue]
@[simp] theorem State.tapSecond_polled (port : Nat) (s : State) : State.tapSecond port (s.polled e k) = (State.tapSecond port s).polled e k := by
  simp [State.tapSecond]
  split <;> simp [*]
@[simp] theorem applyCapArm_polled (c : Cmd) (s : State) : applyCapArm c (s.polled e k) = (applyCapArm c s).polled e k := by simp [applyCapArm]
@[simp] theorem State.reclock_polled (l : Nat) (s : State) : State.reclock l (s.polled e k) = (State.reclock l s).polled e k := by simp [State.reclock]
@[simp] theorem State.modHtile_polled (i : Nat) (f : HostTile → HostTile) (s : State) : State.modHtile i f (s.polled e k) = (State.modHtile i f s).polled e k := rfl
@[simp] theorem applyHostClk_polled (c : Cmd) (s : State) : applyHostClk c (s.polled e k) = (applyHostClk c s).polled e k := by simp [applyHostClk]
@[simp] theorem State.nbrStep_polled (a : Nat) (s : State) : State.nbrStep a (s.polled e k) = (State.nbrStep a s).polled e k := by simp [State.nbrStep]
@[simp] theorem State.assembleFrame_polled (e' : Nat) (s : State) : (s.polled e k).assembleFrame e' = (s.assembleFrame e').polled e k := by
  unfold State.assembleFrame
  simp only [State.frameless_polled, State.polled_eng, Engine.polledAt_zr]
  split
  · simp
  split
  · simp
  · simp only [State.polled_tn, State.modTx_polled, State.modLoad_polled, State.frameNow_polled, State.polled_eng, Engine.polledAt_tx]
    rw [State.polled_modEng _ _ _ _ _ (fun _ _ => rfl)]
    simp
@[simp] theorem State.frameBoundary_polled (e' : Nat) (s : State) : State.frameBoundary e' (s.polled e k) = (State.frameBoundary e' s).polled e k := by
    simp [State.frameBoundary]
@[simp] theorem applySynth_polled (c : Cmd) (s : State) : applySynth c (s.polled e k) = (applySynth c s).polled e k := State.polled_modEng _ _ _ _ _ (fun _ _ => rfl)
@[simp] theorem State.modKey_polled (e' : Nat) (f : KeyState → KeyState) (s : State) : State.modKey e' f (s.polled e k) = (State.modKey e' f s).polled e k :=
    State.polled_modEng _ _ _ _ _ (fun _ _ => rfl)
@[simp] theorem State.emptySlot_polled (e' i : Nat) (why : EraseCause) (s : State) :
    State.emptySlot e' i why (s.polled e k) = (State.emptySlot e' i why s).polled e k := by
    simp [State.emptySlot]
@[simp] theorem applyTxcorr_polled (c : Cmd) (s : State) : applyTxcorr c (s.polled e k) = (applyTxcorr c s).polled e k :=
    State.polled_modEng _ _ _ _ _ (fun _ _ => rfl)
@[simp] theorem State.freqStep_polled (s : State) : State.freqStep (s.polled e k) = (State.freqStep s).polled e k := by
  simp only [State.freqStep]
  repeat' split <;> simp_all
@[simp] theorem State.bwBoundary_polled (p : Nat) (s : State) : State.bwBoundary p (s.polled e k) = (State.bwBoundary p s).polled e k := by
  simp [State.bwBoundary]
  split <;> simp [*]
@[simp] theorem State.isolateTold_polled (e' : Nat) (s : State) : State.isolateTold e' (s.polled e k) = (State.isolateTold e' s).polled e k := by
    simp [State.isolateTold]
@[simp] theorem State.searchClock_polled (e' : Nat) (s : State) : State.searchClock e' (s.polled e k) = (State.searchClock e' s).polled e k :=
    State.polled_modEng _ _ _ _ _ (fun _ _ => rfl)
@[simp] theorem State.startPass_polled (e' : Nat) (s : State) : (s.polled e k).startPass e' = (s.startPass e').polled e k := by
  unfold State.startPass
  rw [State.dropCdSwap_polled, State.modEq_polled]
  exact State.polled_modEng _ _ _ _ _ (fun _ _ => rfl)
@[simp] theorem State.acqRestart_polled (e' : Nat) (s : State) : State.acqRestart e' (s.polled e k) = (State.acqRestart e' s).polled e k := by
    simp [State.acqRestart]
@[simp] theorem State.setIso_polled (e' : Nat) (i : Option Iso) (s : State) : (s.polled e k).setIso e' i = (s.setIso e' i).polled e k := by
  unfold State.setIso
  rw [State.polled_modEng _ _ _ _ _ (fun _ _ => rfl)]
  simp
@[simp] theorem State.modCal_polled (f : Calendar → Calendar) (s : State) : State.modCal f (s.polled e k) = (State.modCal f s).polled e k := rfl
theorem applyCalSwapWith_polled (flush : Nat → State → State) (hf : ∀ p s, flush p (s.polled e k) = (flush p s).polled e k) (c : Cmd) (s : State) :
    applyCalSwapWith flush c (s.polled e k) = (applyCalSwapWith flush c s).polled e k := by
  unfold applyCalSwapWith
  simp only [State.modCal_polled, State.polled_tn, State.polled_ticks, State.polled_cal, State.changedSlots_polled, State.slotMap_polled]
  rw [State.polled_foldl e k (fun s l => hf l s)]
  exact State.raise_polled ..
@[simp] theorem State.flushClient_polled (port : Nat) (s : State) : (s.polled e k).flushClient port = (s.flushClient port).polled e k :=
  congrArg (fun u : State => { u with packs := s.packs.map (fun p : Pack => { p with store := { p.store with queues := p.store.queues.map (fun q : StoreQueue => if q.port == port then q.flush else q) } }) })
    (State.polled_mapEngines e k (fun g : Engine => { g with store := { g.store with queues := g.store.queues.map (fun q : StoreQueue => if q.port == port then q.flush else q) } }) (fun _ _ => rfl) s)
@[simp] theorem applyCalSwap_polled (c : Cmd) (s : State) : applyCalSwap c (s.polled e k) = (applyCalSwap c s).polled e k :=
  applyCalSwapWith_polled e k State.flushClient (fun p s => State.flushClient_polled e k p s) c s
@[simp] theorem State.emptySlots_polled (e' : Nat) (l : List Nat) (why : EraseCause) (s : State) :
    State.emptySlots e' l why (s.polled e k) = (State.emptySlots e' l why s).polled e k := by
    simp [State.emptySlots]
@[simp] theorem applyChain_polled (c : Cmd) (s : State) : applyChain c (s.polled e k) = (applyChain c s).polled e k := by simp [applyChain]
@[simp] theorem State.laneThaw_polled (l : Nat) (ofBrace : Bool) (s : State) :
    State.laneThaw l ofBrace (s.polled e k) = (State.laneThaw l ofBrace s).polled e k := by
    simp [State.laneThaw]
@[simp] theorem applyCdSwap_polled (c : Cmd) (s : State) : applyCdSwap c (s.polled e k) = (applyCdSwap c s).polled e k := by
  unfold applyCdSwap
  simp only [State.polled_eng, Engine.polledAt_eq, State.cdSwapDone_polled, State.polled_ite]
  cases hfade : (s.eng (cIdx c)).eq.fade with
  | none =>
    simp only [State.polled_eng, Engine.polledAt_eq, hfade]
    split <;> simp
  | some f =>
    simp only [State.polled_eng, Engine.polledAt_eq]
    split
    · split <;> simp [*]
    · split <;> simp [*]
@[simp] theorem State.diagnose_polled (l : Nat) (f : HostLane → HostLane) (s : State) : State.diagnose l f (s.polled e k) = (State.diagnose l f s).polled e k := by
    simp [State.diagnose]
@[simp] theorem setDiagnostics_polled (f : Cmd → HostLane → HostLane) (c : Cmd) (s : State) :
    setDiagnostics f c (s.polled e k) = (setDiagnostics f c s).polled e k := by
    simp [setDiagnostics]
@[simp] theorem applyMap_polled (c : Cmd) (s : State) : applyMap c (s.polled e k) = (applyMap c s).polled e k := by unfold applyMap; rfl
@[simp] theorem State.nbrAll_polled (s : State) : State.nbrAll (s.polled e k) = (State.nbrAll s).polled e k := by simp [State.nbrAll]
@[simp] theorem State.modChain_polled (n : Nat) (f : TlmChain → TlmChain) (s : State) : State.modChain n f (s.polled e k) = (State.modChain n f s).polled e k := rfl
@[simp] theorem State.expireSlot_polled (e' i : Nat) (s : State) : State.expireSlot e' i (s.polled e k) = (State.expireSlot e' i s).polled e k := by
  simp [State.expireSlot]
  split <;> simp [*]
@[simp] theorem State.fencePackChange_polled (p k' : Nat) (s : State) : State.fencePackChange p k' (s.polled e k) = (State.fencePackChange p k' s).polled e k := by
    simp [State.fencePackChange]
@[simp] theorem applyPreSwap_polled (c : Cmd) (s : State) : applyPreSwap c (s.polled e k) = (applyPreSwap c s).polled e k :=
    State.polled_modEng _ _ _ _ _ (fun _ _ => rfl)
@[simp] theorem State.bootBoundary_polled (s : State) : (s.polled e k).bootBoundary = s.bootBoundary.polled e k := by
  unfold State.bootBoundary
  refine State.polled_ite_of ?_ rfl
  rw [State.modRec_polled, State.modDev_polled]
  rfl
@[simp] theorem applyPortEnable_polled (c : Cmd) (s : State) : applyPortEnable c (s.polled e k) = (applyPortEnable c s).polled e k := by
  simp [applyPortEnable]
  split <;> simp [*]
@[simp] theorem State.fenceEngineStep_polled (e' : Nat) (s : State) : (s.polled e k).fenceEngineStep e' = (s.fenceEngineStep e').polled e k := by
  unfold State.fenceEngineStep
  rw [State.modTx_polled]
  simp only [State.polled_eng, Engine.polledAt_acq, State.alignRelease_polled, State.polled_ite, State.dropSvc_polled, State.emptySlots_polled, Engine.polledAt_iso, State.setIso_polled]
  exact State.polled_modEng _ _ _ _ _ (fun _ _ => rfl)
@[simp] theorem State.fenceTile_polled (k' : Nat) (s : State) : State.fenceTile k' (s.polled e k) = (State.fenceTile k' s).polled e k := by simp [State.fenceTile]
@[simp] theorem State.preGuardStep_polled (s : State) : State.preGuardStep (s.polled e k) = (State.preGuardStep s).polled e k := by simp [State.preGuardStep]
@[simp] theorem State.modStore_polled (kd : Kind) (i : Nat) (f : Store → Store) (s : State) : (s.polled e k).modStore kd i f = (s.modStore kd i f).polled e k := by
  unfold State.modStore
  rw [State.modPack_polled, State.polled_modEng _ _ _ _ _ (fun _ _ => rfl), State.polled_ite]
@[simp] theorem State.recentreTaps_polled (e' : Nat) (s : State) : State.recentreTaps e' (s.polled e k) = (State.recentreTaps e' s).polled e k := by
    simp [State.recentreTaps]
@[simp] theorem setMgmt_polled (b : Bool) (c : Cmd) (s : State) : setMgmt b c (s.polled e k) = (setMgmt b c s).polled e k :=
    State.polled_modEng _ _ _ _ _ (fun _ _ => rfl)
@[simp] theorem applyFence_polled (c : Cmd) (s : State) : applyFence c (s.polled e k) = (applyFence c s).polled e k := by
  simp [applyFence]
  split <;> simp [*]
@[simp] theorem State.stepBy_polled (d : Int) (s : State) : (s.polled e k).stepBy d = (s.stepBy d).polled e k := by
  unfold State.stepBy
  simp only [State.mk_polled, State.nowTai_polled, State.modTime_polled]
  rw [State.polled_mapEngines e k _ (fun _ _ => rfl)]
  rw [State.raise_polled, State.leapDue_polled]
  rfl
@[simp] theorem applyChainSet_polled (c : Cmd) (s : State) : applyChainSet c (s.polled e k) = (applyChainSet c s).polled e k := by simp [applyChainSet]
@[simp] theorem State.modPower_polled (f : Power → Power) (s : State) : State.modPower f (s.polled e k) = (State.modPower f s).polled e k := rfl
@[simp] theorem State.braceBoundary_polled (s : State) : State.braceBoundary (s.polled e k) = (State.braceBoundary s).polled e k := by
  simp [State.braceBoundary] <;> rfl
@[simp] theorem State.slewStep_polled (s : State) : State.slewStep (s.polled e k) = (State.slewStep s).polled e k := by
  simp [State.slewStep]
  split <;> simp [*]
@[simp] theorem State.fadeTick_polled (e' : Nat) (s : State) : (s.polled e k).fadeTick e' = (s.fadeTick e').polled e k := by
  unfold State.fadeTick
  rw [State.rxDelay_polled, State.polled_modEng _ _ _ _ _ (fun _ _ => rfl)]
  simp
@[simp] theorem State.modDefect_polled (e' : Nat) (f : DefectState → DefectState) (s : State) :
    State.modDefect e' f (s.polled e k) = (State.modDefect e' f s).polled e k :=
    State.polled_modEng _ _ _ _ _ (fun _ _ => rfl)
end
end Sys2Proof.Machine
end

section
/-! The boundary does not read the tick of the latest fault poll (O22). -/
namespace Sys2Proof.Machine

/-! ### The effects at a boundary -/

/-- Whether an effect comes at a boundary. -/
def Effect.onBoundary : Effect → Bool
  | .boundary _ _ | .atBoundary _ _ => true
  | _ => false
/-- What an effect does at a boundary does not read the tick of the latest fault poll. -/
def Effect.Polls (e : Fin 48) (k : Nat) : Effect → Prop
  | .boundary _ f => ∀ c s, f c (s.polled e k) = (f c s).polled e k
  | .atBoundary _ f => ∀ c s, f c (s.polled e k) = (f c s).polled e k
  | _ => True
section
variable (e : Fin 48) (k : Nat)
@[simp] theorem specEngineSynthSet_polls : specEngineSynthSet.eff.Polls e k := fun c s => applySynth_polled e k c s
@[simp] theorem specEngineTxcorrSet_polls : specEngineTxcorrSet.eff.Polls e k := fun c s => applyTxcorr_polled e k c s
@[simp] theorem specEnginePreemphSwap_polls : specEnginePreemphSwap.eff.Polls e k := fun c s => applyPreSwap_polled e k c s
@[simp] theorem specEngineNlcSet_polls : specEngineNlcSet.eff.Polls e k := fun c s => by simp
@[simp] theorem specEngineNlcCoefSwap_polls : specEngineNlcCoefSwap.eff.Polls e k := fun c s => applyNlcSwap_polled e k c s
@[simp] theorem specSpectralMapSet_polls : specSpectralMapSet.eff.Polls e k := fun c s => applyMap_polled e k c s
@[simp] theorem specEngineMuzzle_polls : specEngineMuzzle.eff.Polls e k := fun c s => by simp
@[simp] theorem specEngineUnmuzzle_polls : specEngineUnmuzzle.eff.Polls e k := fun c s => by simp
@[simp] theorem specEngineMuzzleCfgSet_polls : specEngineMuzzleCfgSet.eff.Polls e k := fun c s => by simp
@[simp] theorem specEngineAcqSet_polls : specEngineAcqSet.eff.Polls e k := fun c s => by simp
@[simp] theorem specEngineRxfeSet_polls : specEngineRxfeSet.eff.Polls e k := fun c s => applyRxfe_polled e k c s
@[simp] theorem specEngineCdSet_polls : specEngineCdSet.eff.Polls e k := fun c s => by simp
@[simp] theorem specEngineCdSwap_polls : specEngineCdSwap.eff.Polls e k := fun c s => applyCdSwap_polled e k c s
@[simp] theorem specEngineEqSet_polls : specEngineEqSet.eff.Polls e k := fun c s => by simp
@[simp] theorem specConvCalFactory_polls : specConvCalFactory.eff.Polls e k := fun c s => by simp
@[simp] theorem specEngineLock_polls : specEngineLock.eff.Polls e k := fun c s => by simp
@[simp] theorem specEngineUnlock_polls : specEngineUnlock.eff.Polls e k := fun c s => by simp
@[simp] theorem specEngineOpareaSet_polls : specEngineOpareaSet.eff.Polls e k := fun c s => by simp
@[simp] theorem specCalSwap_polls : specCalSwap.eff.Polls e k := fun c s => applyCalSwap_polled e k c s
@[simp] theorem specPackSkewSet_polls : specPackSkewSet.eff.Polls e k := fun c s => by simp
@[simp] theorem specStoreSet_polls : specStoreSet.eff.Polls e k := fun c s => by simp
@[simp] theorem specHostClkSet_polls : specHostClkSet.eff.Polls e k := fun c s => applyHostClk_polled e k c s
@[simp] theorem specLaneLoopback_polls : specLaneLoopback.eff.Polls e k := fun c s => by simp
@[simp] theorem specLanePrbsSet_polls : specLanePrbsSet.eff.Polls e k := fun c s => by simp
@[simp] theorem specPortEnable_polls : specPortEnable.eff.Polls e k := fun c s => applyPortEnable_polled e k c s
@[simp] theorem specPortTest_polls : specPortTest.eff.Polls e k := fun c s => applyPortTest_polled e k c s
@[simp] theorem specTimeSet_polls : specTimeSet.eff.Polls e k := fun c s => by simp
@[simp] theorem freqRefOf_polled (w : Nat) (s : State) : freqRefOf (s.polled e k) w = freqRefOf s w := by simp [freqRefOf]
@[simp] theorem specTimeFreqRefSet_polls : specTimeFreqRefSet.eff.Polls e k := fun c s => by simp
@[simp] theorem specKeyLoad_polls : specKeyLoad.eff.Polls e k := fun c s => by
  simp only [State.openBlob_polled]
  split <;> simp
@[simp] theorem specKeyErase_polls : specKeyErase.eff.Polls e k := fun c s => by simp
@[simp] theorem specKeyTxSwitch_polls : specKeyTxSwitch.eff.Polls e k := fun c s => by simp
@[simp] theorem specKeyRxFollow_polls : specKeyRxFollow.eff.Polls e k := fun c s => by simp
@[simp] theorem specMonSeqStart_polls : specMonSeqStart.eff.Polls e k := fun c s => applySeqStart_polled e k c s
@[simp] theorem specTlmChainSet_polls : specTlmChainSet.eff.Polls e k := fun c s => applyChainSet_polled e k c s
@[simp] theorem specTlmReset_polls : specTlmReset.eff.Polls e k := fun c s => by simp
@[simp] theorem specEngineDefectSet_polls : specEngineDefectSet.eff.Polls e k := fun c s => by simp
@[simp] theorem specCtrChainSet_polls : specCtrChainSet.eff.Polls e k := fun c s => applyChain_polled e k c s
@[simp] theorem specCtrFilterSet_polls : specCtrFilterSet.eff.Polls e k := fun c s => by simp
@[simp] theorem specCtrSnapshot_polls : specCtrSnapshot.eff.Polls e k := fun c s => applySnapshot_polled e k c s
@[simp] theorem specCapArm_polls : specCapArm.eff.Polls e k := fun c s => applyCapArm_polled e k c s
@[simp] theorem specEngineIsolate_polls : specEngineIsolate.eff.Polls e k := fun c s => by simp
@[simp] theorem specEngineRestore_polls : specEngineRestore.eff.Polls e k := fun c s => by simp
theorem boundarySpecs_eq : allSpecs.filter (fun sp => sp.eff.onBoundary) =
    [specEngineSynthSet, specEngineTxcorrSet, specEnginePreemphSwap, specEngineNlcSet, specEngineNlcCoefSwap, specSpectralMapSet, specEngineMuzzle,
     specEngineUnmuzzle, specEngineMuzzleCfgSet, specEngineAcqSet, specEngineRxfeSet, specEngineCdSet, specEngineCdSwap, specEngineEqSet,
     specConvCalFactory, specEngineLock, specEngineUnlock, specEngineOpareaSet, specCalSwap, specPackSkewSet, specStoreSet, specHostClkSet,
     specLaneLoopback, specLanePrbsSet, specPortEnable, specPortTest, specTimeSet, specTimeFreqRefSet, specKeyLoad, specKeyErase, specKeyTxSwitch,
     specKeyRxFollow, specMonSeqStart, specTlmChainSet, specTlmReset, specEngineDefectSet, specCtrChainSet, specCtrFilterSet, specCtrSnapshot,
     specCapArm, specEngineIsolate, specEngineRestore] := by
  rw [allSpecs, List.filter_flatten]
  rfl
theorem allSpecs_polls (sp) (h : sp ∈ allSpecs) : sp.eff.Polls e k := by
  cases hon : sp.eff.onBoundary with
  | false => cases heff : sp.eff <;> simp_all [Effect.onBoundary, Effect.Polls]
  | true =>
    have hall : ∀ sp ∈ allSpecs.filter (fun sp => sp.eff.onBoundary), sp.eff.Polls e k := by
      rw [boundarySpecs_eq]
      simp
    exact hall sp (List.mem_filter.mpr ⟨h, hon⟩)
theorem opTable_polls {op : Nat} {sp : OpSpec} (h : opTable op = some sp) : sp.eff.Polls e k := by
  unfold opTable at h
  split at h
  case h_1 hf => cases h; exact allSpecs_polls e k _ (List.mem_of_find?_eq_some hf)
  case h_2 =>
    split at h
    · cases h
    · obtain ⟨x, -, hx⟩ := Option.bind_eq_some_iff.mp h
      obtain ⟨r, -, rfl⟩ := Option.map_eq_some_iff.mp hx
      exact trivial
@[simp] theorem boundaryEffect_polled (op : Nat) (c : Cmd) (s : State) : boundaryEffect op c (s.polled e k) = (boundaryEffect op c s).polled e k := by
  unfold boundaryEffect
  split
  · exact applyCapacity_polled e k c s
  split
  · exact applyFence_polled e k c s
  cases hop : opTable op with
  | none => rfl
  | some sp =>
    have heff := opTable_polls e k hop
    dsimp only
    cases hsp : sp.eff with
    | now f | silent f | long f => rfl
    | boundary cls f | atBoundary cls f =>
      rw [hsp] at heff
      exact heff c s
@[simp] theorem State.applyArmed_polled (a : Armed) (s : State) : (s.polled e k).applyArmed a = (s.applyArmed a).polled e k := by
  unfold State.applyArmed
  simp only [State.polled_proto, State.modProto_polled, boundaryEffect_polled]
  cases a.ticket <;> simp
@[simp] theorem State.applyDue_polled (s : State) : (s.polled e k).applyDue = s.applyDue.polled e k :=
  State.polled_foldl e k (fun s a => State.applyArmed_polled e k a s) _ s

/-! ### The boundary -/

theorem State.boundary_polled (s : State) : (s.polled e k).boundary = s.boundary.polled e k := by
  unfold State.boundary
  dsimp only
  rw [State.polled_ports, State.polled_foldl e k (fun s p => by simp), State.polled_foldl e k (fun s j => State.fadeTick_polled e k j s),
    State.applyDue_polled, State.polled_foldl e k (fun s j => State.modEq_polled e k j _ s), State.preGuardStep_polled, State.braceBoundary_polled,
    State.polled_foldl e k (fun s j => State.engineBoundary_polled e k j s), State.nbrAll_polled, State.polled_tn,
    State.polled_foldl e k (fun s p => State.packSecond_polled e k p s), State.polled_ite, State.slewStep_polled, State.freqStep_polled,
    State.judgeCandidates_polled, State.polled_time, State.epochAtLock_polled, State.polled_ite, State.bootBoundary_polled,
    State.polled_foldl e k (fun s j => State.frameBoundary_polled e k j s)]
theorem State.advanceTick_polled (s : State) : (s.polled e k).advanceTick = s.advanceTick.polled e k := by
  unfold State.advanceTick
  simp
/-- Whether a hardware write is due does not turn on when the fault register was polled last. -/
theorem feHwDue_polled (j : Nat) (s : State) : feHwDue (s.polled e k) j = feHwDue s j := by
  have hrelease : feReleaseDue (s.polled e k) j = feReleaseDue s j := by
    unfold feReleaseDue
    simp only [State.advanceTick_polled, State.boundary_polled, State.polled_eng, Engine.polledAt_tx, Engine.polledAt_profile]
  have hwrite : feWriteDue (s.polled e k) j = feWriteDue s j := by
    unfold feWriteDue
    rw [State.polled_eng]
    rfl
  rw [feHwDue, feHwDue, hwrite, hrelease]
end
end Sys2Proof.Machine
end

section
/-! The front-end control bus (O22). -/
namespace Sys2Proof.Machine

/-! ### The front end of one engine -/

theorem acts_modFe (e : Nat) (f : FrontEnd → FrontEnd) (s : State) : Acts e [] s (s.modFe e f) := acts_modEng ..
theorem acts_feDrive (e : Nat) (x : FeTxn) (s : State) : Acts e [] s (s.feDrive e x) := acts_modFe ..
theorem acts_feQueue (e : Nat) (x : FeTxn) (s : State) : Acts e [] s (s.feQueue e x) := acts_modFe ..
theorem State.eng_modFe {e : Nat} (he : e < 48) (f : FrontEnd → FrontEnd) (s : State) :
    (s.modFe e f).eng e = { s.eng e with fe := f (s.eng e).fe } := State.eng_modEng_same e _ s he
theorem acts_fresh (e : Nat) (s : State) : Acts e [.freeCtr] s s.fresh.2 :=
  acts_of_same (.of_only (fun p hp => by cases p <;> simp [State.fresh, Part.same, State.tile] at hp ⊢) rfl) rfl rfl
section
variable {e : Nat} (he : e < 48) (cause loop value mask : Nat) (s : State)
theorem acts_feFaultRaise (e cause loop value : Nat) (s : State) : Acts e eventParts s (s.feFaultRaise e cause loop value) :=
  acts_ite (.refl ..) (((acts_modEng ..).mono (by simp)).trans (acts_raise ..))
include he
theorem feFaultRaise_fe : ((s.feFaultRaise e cause loop value).eng e).fe = (s.eng e).fe := by
  unfold State.feFaultRaise
  split
  · rfl
  · rw [State.eng, State.raise_engines, ← State.eng, State.eng_modEng_same _ _ _ he]
theorem feFaultRaise_if_fe {b : Prop} {_ : Decidable b} : ((if b then s.feFaultRaise e cause loop value else s).eng e).fe = (s.eng e).fe := by
  split
  · exact feFaultRaise_fe he ..
  · rfl
theorem feFaultRaise_reason : ((s.feFaultRaise e cause loop value).eng e).tx.reason.feFault = true := by
  unfold State.feFaultRaise
  split
  · assumption
  · rw [State.eng, State.raise_engines, ← State.eng, State.eng_modEng_same _ _ _ he]
omit he in
theorem feFaultRaise_told (h : (s.eng e).tx.reason.feFault = false) :
    Raised .feFault .engine e (w1 cause ++ w1 loop ++ w1 value) s.tn (s.feFaultRaise e cause loop value) := by
  unfold State.feFaultRaise
  rw [if_neg (by rw [h]; decide)]
  exact raised_raise_tn rfl
/-- What a poll leaves of its engine, and what it tells (R447). -/
theorem fePolled_polls (hruns : feRuns s e = true) : Acts e (.freeCtr :: eventParts) s (s.fePolled e value mask)
    ∧ ((s.fePolled e value mask).eng e).fe = { (s.eng e).fe with pollFault := (value &&& mask) != 0 }
    ∧ (value &&& mask = 0 → ((s.fePolled e value mask).eng e).tx = (s.eng e).tx)
    ∧ (value &&& mask ≠ 0 → ((s.fePolled e value mask).eng e).tx.reason.feFault = true
      ∧ ((s.eng e).tx.reason.feFault = false → ∃ w, Raised .feFault .engine e (w1 1 ++ w1 w ++ w1 value) s.tn (s.fePolled e value mask))) := by
  have hset : (s.modFe e (fun f => { f with pollFault := (value &&& mask) != 0 })).eng e
      = { s.eng e with fe := { (s.eng e).fe with pollFault := (value &&& mask) != 0 } } := State.eng_modFe he _ s
  by_cases hhit : value &&& mask = 0
  · have hpolled : s.fePolled e value mask = s.modFe e (fun f => { f with pollFault := (value &&& mask) != 0 }) := by
      simp only [State.fePolled, hruns, hhit, Bool.not_true, Bool.false_eq_true, if_false, bne_self_eq_false]
    rw [hpolled, hset]
    exact ⟨(acts_modFe ..).mono (by simp), rfl, fun _ => rfl, fun h => absurd hhit h⟩
  · have hpolled : s.fePolled e value mask = State.feFaultRaise e 1 (s.modFe e (fun f => { f with pollFault := (value &&& mask) != 0 })).fresh.1 value
        (s.modFe e (fun f => { f with pollFault := (value &&& mask) != 0 })).fresh.2 := by
      have hne : (value &&& mask != 0) = true := by simpa using hhit
      simp only [State.fePolled, hruns, hne, Bool.not_true, Bool.false_eq_true, if_false, if_true]
    rw [hpolled]
    generalize hu : (s.modFe e (fun f => { f with pollFault := (value &&& mask) != 0 })).fresh = r
    have heng : r.2.eng e = { s.eng e with fe := { (s.eng e).fe with pollFault := (value &&& mask) != 0 } } := by
      rw [← hu]
      exact hset
    have hacts : Acts e (.freeCtr :: eventParts) s r.2 := by
      rw [← hu]
      exact ((acts_modFe ..).mono (by simp)).trans ((acts_fresh ..).mono (by simp))
    refine ⟨hacts.trans ((acts_feFaultRaise ..).mono (by decide)), ?_, fun h => absurd h hhit, fun _ => ⟨feFaultRaise_reason he .., fun hclear => ⟨r.1, ?_⟩⟩⟩
    · rw [feFaultRaise_fe he, heng]
    · have htold := feFaultRaise_told 1 r.1 value r.2 (e := e) (by rw [heng]; exact hclear)
      rwa [hacts.tn] at htold
/-- A poll changes no transaction. -/
theorem fePolled_keeps : Acts e (.freeCtr :: eventParts) s (s.fePolled e value mask)
    ∧ ((s.fePolled e value mask).eng e).fe.queue = (s.eng e).fe.queue ∧ ((s.fePolled e value mask).eng e).fe.served = (s.eng e).fe.served
    ∧ ((s.fePolled e value mask).eng e).fe.servedAt = (s.eng e).fe.servedAt := by
  cases hruns : feRuns s e with
  | true =>
    obtain ⟨hacts, hfe, -⟩ := fePolled_polls he value mask s hruns
    rw [hfe]
    exact ⟨hacts, rfl, rfl, rfl⟩
  | false =>
    have hpolled : s.fePolled e value mask = s := by simp only [State.fePolled, hruns, Bool.not_false, if_true]
    rw [hpolled]
    exact ⟨.refl .., rfl, rfl, rfl⟩
end

/-! ### Transactions (R443, R444) -/

/-- The bus of an engine carries out the transaction at the front of its queue. -/
def State.feServe (e : Nat) (x : FeTxn) (rest : List FeTxn) (s : State) : State := (s.modFe e (fun f => { f with queue := rest })).feDrive e x
theorem feServe_serves {e : Nat} (he : e < 48) (x : FeTxn) (rest : List FeTxn) (s : State) : Acts e [] s (s.feServe e x rest)
    ∧ ((s.feServe e x rest).eng e).fe.queue = rest ∧ x ∈ ((s.feServe e x rest).eng e).fe.served
    ∧ ((s.feServe e x rest).eng e).fe.servedAt = s.ticks := by
  refine ⟨(acts_modFe e (fun f => { f with queue := rest }) s).trans (acts_feDrive ..), ?_⟩
  unfold State.feServe State.feDrive
  rw [State.eng_modFe he, State.eng_modFe he]
  refine ⟨rfl, ?_, rfl⟩
  dsimp only
  split
  · exact List.mem_append_right _ (List.mem_singleton_self x)
  · exact List.mem_singleton_self x
/-- What follows the service of a transaction: a poll is judged, an access is answered. -/
def State.feAnswered (e got : Nat) (x : FeTxn) (f : FrontEnd) (s : State) : State :=
  match x.origin with
  | .poll => match f.profile.bind (·.fault) with
    | some (_, _, mask, _) => s.fePolled e got mask
    | none => s
  | .access seq =>
    if x.write then s.fresh.2.finishJobs (fun j => j.ticket.seq == seq) .ok 0 (w1 s.fresh.1)
    else s.finishJobs (fun j => j.ticket.seq == seq) .ok 0 (w1 got)
  | _ => s
theorem exec_feBusTransaction {e : Fin 48} (data : Nat) {x : FeTxn} {rest : List FeTxn} {s : State} (h : (s.eng e).fe.queue = x :: rest)
    (hfree : feHwDue s e = false) (hserves : s.fenced e = false) : exec (.feBusTransaction e data) s = .next
      ((s.feServe e (if x.write then x else { x with value := data % 2 ^ x.width }) rest).feAnswered e (data % 2 ^ x.width) x (s.eng e).fe) := by
  refine (?_ : execFeBusTransaction e data s = _)
  unfold execFeBusTransaction State.feAnswered
  simp only [h, hfree, hserves, Bool.or_self, Bool.false_eq_true, if_false]
  cases ho : x.origin with
  | poll => cases hf : (s.eng e).fe.profile.bind (·.fault) <;> rfl
  | access seq => cases hw : x.write <;> rfl
  | squelch => rfl
  | fineTune => rfl
  | loop => rfl
/-- What the answer to a transaction leaves. -/
structure FeAnswers (e got : Nat) (x : FeTxn) (s t : State) : Prop where
  acts : Acts e (.freeCtr :: .jobs :: .responses :: eventParts) s t
  queue : (t.eng e).fe.queue = (s.eng e).fe.queue
  served : (t.eng e).fe.served = (s.eng e).fe.served
  servedAt : (t.eng e).fe.servedAt = (s.eng e).fe.servedAt
  read : x.write = false → ∀ j ∈ s.proto.jobs, x.origin = .access j.ticket.seq → Ended j .ok 0 s.tn (w1 got) t
  written : x.write = true → ∀ j ∈ s.proto.jobs, x.origin = .access j.ticket.seq → ∃ v, Ended j .ok 0 s.tn (w1 v) t
  others : ∀ j ∈ s.proto.jobs, x.origin ≠ .access j.ticket.seq → j ∈ t.proto.jobs
theorem FeAnswers.of_kept {e got : Nat} {x : FeTxn} {s t : State} (h : Acts e (.freeCtr :: eventParts) s t) (hqueue : (t.eng e).fe.queue = (s.eng e).fe.queue)
    (hserved : (t.eng e).fe.served = (s.eng e).fe.served) (hat : (t.eng e).fe.servedAt = (s.eng e).fe.servedAt)
    (hx : ∀ seq, x.origin ≠ .access seq) : FeAnswers e got x s t := by
  have hjobs : t.proto.jobs = s.proto.jobs := h.within.1 .jobs (by decide)
  exact ⟨h.mono (by decide), hqueue, hserved, hat, fun _ j _ hj => absurd hj (hx _), fun _ j _ hj => absurd hj (hx _), fun j hj _ => hjobs ▸ hj⟩
theorem FeAnswers.of_finish {e got seq w : Nat} {x : FeTxn} {s u : State} (h : Acts e [.freeCtr] s u) (heng : u.eng e = s.eng e) (hx : x.origin = .access seq)
    (hw : x.write = false → w = got) : FeAnswers e got x s (u.finishJobs (fun j => j.ticket.seq == seq) .ok 0 (w1 w)) := by
  have hended : ∀ j ∈ s.proto.jobs, x.origin = .access j.ticket.seq →
      Ended j .ok 0 s.tn (w1 w) (u.finishJobs (fun j => j.ticket.seq == seq) .ok 0 (w1 w)) := fun j hj horigin => by
    have hjobs : u.proto.jobs = s.proto.jobs := h.within.1 .jobs (by decide)
    have hseq : seq = j.ticket.seq := FeOrigin.access.inj (hx.symm.trans horigin)
    have hend := ended_finishJobs (s := u) (p := fun j => j.ticket.seq == seq) .ok 0 (w1 w) (hjobs ▸ hj) (by simp [hseq])
    rwa [h.tn] at hend
  refine ⟨(h.mono (by simp)).trans ((acts_finishJobs ..).mono (by decide)), ?_, ?_, ?_, fun hread j hj ho => hw hread ▸ hended j hj ho,
    fun _ j hj ho => ⟨w, hended j hj ho⟩, fun j hj ho => ?_⟩
  any_goals rw [State.eng_finishJobs, heng]
  rw [State.finishJobs_proto_jobs, List.mem_filter, h.within.1 .jobs (by decide)]
  refine ⟨hj, ?_⟩
  simpa using fun hseq => ho (by rw [hx, hseq])
theorem feAnswered_answers {e : Nat} (he : e < 48) (got : Nat) (x : FeTxn) (f : FrontEnd) (s : State) : FeAnswers e got x s (s.feAnswered e got x f) := by
  unfold State.feAnswered
  split
  case h_1 hpoll =>
    have hnone : ∀ seq, x.origin ≠ .access seq := fun seq => by rw [hpoll]; exact FeOrigin.noConfusion
    split
    · obtain ⟨hacts, hqueue, hserved, hat⟩ := fePolled_keeps he got _ s
      exact .of_kept hacts hqueue hserved hat hnone
    · exact .of_kept (.refl ..) rfl rfl rfl hnone
  case h_2 seq haccess =>
    split
    case isTrue hwrite => exact .of_finish (acts_fresh e s) rfl haccess (fun hread => by simp [hwrite] at hread)
    case isFalse => exact .of_finish (.refl ..) rfl haccess (fun _ => rfl)
  case h_3 hother => exact .of_kept (.refl ..) rfl rfl rfl hother

/-! ### Bias loops (R446) -/

/-- The value a loop writes next, of what it has written and of its monitor. -/
def BiasLoop.next (l : BiasLoop) (written v : Nat) : Nat :=
  (clampI l.least l.greatest ((written : Int) + (if l.invert then -(roundDiv ((l.target : Int) - v) (2 ^ l.shift))
    else roundDiv ((l.target : Int) - v) (2 ^ l.shift)))).toNat
theorem clampI_mem {lo hi : Int} (z : Int) (h : lo ≤ hi) : lo ≤ clampI lo hi z ∧ clampI lo hi z ≤ hi := by
  unfold clampI
  split
  · omega
  · split <;> omega
theorem BiasLoop.next_eq {l : BiasLoop} (written v : Nat) (h : l.least ≤ l.greatest) :
    (l.next written v : Int) = clampI l.least l.greatest ((written : Int) + (if l.invert then -(roundDiv ((l.target : Int) - v) (2 ^ l.shift))
      else roundDiv ((l.target : Int) - v) (2 ^ l.shift))) :=
  Int.toNat_of_nonneg (Int.le_trans (Int.natCast_nonneg _) (clampI_mem _ (by omega)).1)
theorem BiasLoop.next_within {l : BiasLoop} (written v : Nat) (h : l.least ≤ l.greatest) : l.least ≤ l.next written v ∧ l.next written v ≤ l.greatest := by
  obtain ⟨hleast, hgreatest⟩ := clampI_mem (lo := (l.least : Int)) (hi := l.greatest)
    ((written : Int) + (if l.invert then -(roundDiv ((l.target : Int) - v) (2 ^ l.shift)) else roundDiv ((l.target : Int) - v) (2 ^ l.shift))) (by omega)
  rw [← BiasLoop.next_eq written v h] at hleast hgreatest
  omega
theorem loopRun_queues {e : Nat} (he : e < 48) (l : BiasLoop) (r : LoopRun) (v : Nat) (s : State) : Acts e eventParts s (s.loopRun e l r v)
    ∧ ((s.loopRun e l r v).eng e).fe.queue = (s.eng e).fe.queue ++ (if l.next r.written v = r.written then [] else
        [{ origin := .loop, write := true, addr := l.addr, width := l.width, value := l.next r.written v }]) := by
  have hqueue : ∀ next, Acts e [] s (if next = r.written then s
        else s.feQueue e { origin := .loop, write := true, addr := l.addr, width := l.width, value := next })
      ∧ ((if next = r.written then s else s.feQueue e { origin := .loop, write := true, addr := l.addr, width := l.width, value := next }).eng e).fe.queue
        = (s.eng e).fe.queue ++ (if next = r.written then [] else
          [{ origin := .loop, write := true, addr := l.addr, width := l.width, value := next }]) := fun next => by
    refine ⟨acts_ite (.refl ..) (acts_feQueue ..), ?_⟩
    split
    · exact (List.append_nil _).symm
    · exact congrArg (fun g => g.fe.queue) (State.eng_modFe he _ s)
  obtain ⟨hacts, hqueued⟩ := hqueue (l.next r.written v)
  unfold State.loopRun
  dsimp only
  rw [show (clampI l.least l.greatest ((r.written : Int) + (if l.invert = true then -(roundDiv ((l.target : Int) - v) (2 ^ l.shift))
      else roundDiv ((l.target : Int) - v) (2 ^ l.shift)))).toNat = l.next r.written v from rfl]
  generalize (if l.next r.written v = r.written then s else _) = u at hacts hqueued
  refine ⟨((hacts.trans (acts_modFe ..)).mono (by simp)).trans (acts_ite (acts_feFaultRaise ..) (.refl ..)), ?_⟩
  rw [feFaultRaise_if_fe he, State.eng_modFe he]
  exact hqueued

/-! ### FE_BUS_ACCESS (R444) -/

theorem specFeBusAccess_eff : specFeBusAccess.eff = .long (fun j c s => match (s.eng (cIdx c)).fe.profile with
    | none => s
    | some p => (s.startJob j).feQueue (cIdx c)
        { origin := .access j.ticket.seq, write := cw c 1 == 1, addr := cw c 2, width := accessWidth p (cw c 2), value := cw c 3 }) := rfl
theorem feBusAccess_begins {c : Cmd} {s : State} {p : FeProfile} (h : Ready specFeBusAccess c s = true) (hp : (s.eng (cIdx c)).fe.profile = some p) :
    Begins 0x611 c [.engines] (fun t => (∃ x : FeTxn, x.write = (cw c 1 == 1) ∧ x.addr = cw c 2 ∧ x.value = cw c 3 ∧ x.width = accessWidth p (cw c 2)
        ∧ t.eng (cIdx c) = { s.eng (cIdx c) with fe := { (s.eng (cIdx c)).fe with queue := (s.eng (cIdx c)).fe.queue ++ [x] } })
      ∧ OtherEngines (cIdx c) s t) s (exec (.feBusAccess c) s) := by
  have he : cIdx c < 48 := ready_engine specFeBusAccess c s h rfl
  refine begins_long specFeBusAccess _ _ _ c s h specFeBusAccess_eff rfl (fun j u hc ht hu hA => ?_)
  have heng : u.eng (cIdx c) = s.eng (cIdx c) := eng_of_answer hu _
  rw [heng, hp]
  dsimp only
  have hacts := acts_feQueue (cIdx c)
    { origin := .access j.ticket.seq, write := cw c 1 == 1, addr := cw c 2, width := accessWidth p (cw c 2), value := cw c 3 } (u.startJob j)
  have hqueued : ∀ x, ((u.startJob j).feQueue (cIdx c) x).eng (cIdx c)
      = { s.eng (cIdx c) with fe := { (s.eng (cIdx c)).fe with queue := (s.eng (cIdx c)).fe.queue ++ [x] } } := fun x => by
    rw [← heng]
    exact State.eng_modFe he _ _
  refine ⟨⟨⟨_, rfl, rfl, rfl, rfl, hqueued _⟩, fun k hk => (hacts.within.2 k hk).trans (eng_of_answer hu k)⟩, ?_⟩
  exact begun_of_steps hc ht hu hA (l := [.jobs, .engines]) (((steps_startJob j u).mono (by simp)).trans (hacts.steps.mono (by simp)))
    (mem_startJob j u) (by decide)

/-- Settles O22: what each access, transaction, loop run and poll leaves on the bus of its engine. -/
theorem frontEndBus : Obligations.FrontEndBus := by
  unfold Obligations.FrontEndBus
  refine ⟨fun c s => ⟨fun h => beginsDma_load specFeProfileLoad c s h rfl rfl, fun h p hp => feBusAccess_begins h hp⟩, fun e s => ⟨?_, ?_, ?_⟩⟩
  · intro data x rest hqueue hfree hserves
    obtain ⟨hserve, hrest, hserved, hat⟩ := feServe_serves e.isLt (if x.write then x else { x with value := data % 2 ^ x.width }) rest s
    have hjobs : (s.feServe e (if x.write then x else { x with value := data % 2 ^ x.width }) rest).proto.jobs = s.proto.jobs :=
      hserve.within.1 .jobs (by decide)
    obtain ⟨hacts, hqueue', hserved', hat', hread, hwritten, hothers⟩ := feAnswered_answers e.isLt (data % 2 ^ x.width) x (s.eng e).fe
      (s.feServe e (if x.write then x else { x with value := data % 2 ^ x.width }) rest)
    rw [hserve.tn, hjobs] at hread hwritten
    rw [hjobs] at hothers
    rw [exec_feBusTransaction data hqueue hfree hserves]
    refine ((hserve.mono (by simp)).trans hacts).atEngine ⟨by rw [hqueue', hrest], by rw [hserved']; exact hserved, by rw [hat', hat], hread, hwritten, hothers⟩
  · intro num p l r hp hl hr hruns hdue hwithin hfresh
    have hexec : ∃ f : FrontEnd → FrontEnd, (∀ x, (f x).queue = x.queue) ∧ exec (.biasLoopRun e num) s = .next ((s.modFe e f).loopRun e l r
        (vget (s.mc (e.val / 12)).latest (4 * (e.val % 12) + l.mon) Latest.reset).v) := by
      refine ⟨fun f => { f with loops := f.loops.map (fun x => if x.num = num.val then { x with lastRun := s.ticks } else x) }, fun _ => rfl,
        (?_ : execBiasLoopRun e num s = _)⟩
      have hloop : (s.eng e).fe.profile.bind (fun p => p.loops.find? (fun l => l.num == num.val)) = some l := by rw [hp]; exact hl
      unfold execBiasLoopRun
      simp only [hloop, hr, hruns, hdue, and_self, if_true]
      exact if_pos hfresh
    obtain ⟨f, hf, hexec⟩ := hexec
    obtain ⟨hacts, hqueue⟩ := loopRun_queues e.isLt l r (vget (s.mc (e.val / 12)).latest (4 * (e.val % 12) + l.mon) Latest.reset).v (s.modFe e f)
    obtain ⟨hleast, hgreatest⟩ := BiasLoop.next_within r.written (vget (s.mc (e.val / 12)).latest (4 * (e.val % 12) + l.mon) Latest.reset).v hwithin
    have hkept : ((s.modFe e f).eng e).fe.queue = (s.eng e).fe.queue := (congrArg (fun g => g.fe.queue) (State.eng_modFe e.isLt f s)).trans (hf _)
    rw [hexec]
    rw [hkept] at hqueue
    exact (((acts_modFe ..).mono (by simp)).trans hacts).atEngine ⟨_, hleast, hgreatest, BiasLoop.next_eq _ _ hwithin, hqueue⟩
  · intro value addr width mask period p hp hfault hruns hdue hfree hempty
    have hexec : exec (.feFaultPoll e value) s = .next (((s.modFe e (fun f => { f with lastPoll := s.ticks })).feDrive e
        { origin := .poll, write := false, addr := addr, width := width, value := value % 2 ^ width }).fePolled e (value % 2 ^ width) mask) := by
      refine (?_ : execFeFaultPoll e value s = _)
      have hpolls : (s.eng e).fe.profile.bind (·.fault) = some (addr, width, mask, period) := by rw [hp]; exact hfault
      unfold execFeFaultPoll
      simp only [hpolls, hruns, hdue, and_self, if_true]
      rw [show feHwDue (s.modFe e (fun f => { f with lastPoll := s.ticks })) e = feHwDue s e from feHwDue_polled e s.ticks e s, hfree, hempty]
      rfl
    have hset : ((s.modFe e (fun f => { f with lastPoll := s.ticks })).feDrive e
        { origin := .poll, write := false, addr := addr, width := width, value := value % 2 ^ width }).eng e = _ := State.eng_modFe e.isLt _ _
    rw [State.eng_modFe e.isLt] at hset
    obtain ⟨hacts, hfe, hclear, hhit⟩ := fePolled_polls e.isLt (value % 2 ^ width) mask ((s.modFe e (fun f => { f with lastPoll := s.ticks })).feDrive e
        { origin := .poll, write := false, addr := addr, width := width, value := value % 2 ^ width }) hruns
    have hdriven : Acts e (.freeCtr :: eventParts) s ((s.modFe e (fun f => { f with lastPoll := s.ticks })).feDrive e
        { origin := .poll, write := false, addr := addr, width := width, value := value % 2 ^ width }) :=
      ((acts_modFe ..).trans (acts_feDrive ..)).mono (by simp)
    rw [hset] at hfe hclear hhit
    rw [hdriven.tn] at hhit
    rw [hexec]
    refine (hdriven.trans hacts).atEngine ⟨by rw [hfe], fun hno => ⟨?_, hclear hno⟩, fun hyes => ⟨?_, hhit hyes⟩⟩
    · simp [hfe, hno]
    · simp [hfe, hyes]
end Sys2Proof.Machine
end
